-- ==== Sys2Proof/Word.lean ====
section
/-!
DEFINITION. The word and byte types of the T5120 and their plainest arithmetic (R5, R6, R81).

Register contents and the bytes of memory are bit vectors. Counts, indices, times and addresses are natural
numbers, and signed offsets are integers.
-/

namespace Sys2Proof

/-- The contents of one 32-bit set-up register (R81). -/
abbrev Word := BitVec 32

/-- One byte of memory or of a structure. -/
abbrev Byte := BitVec 8

/-- A run of bytes, lowest offset first. -/
abbrev Bytes := List Byte

/-- Bits `[lsb + width - 1 : lsb]` of a number, bit 0 least significant (R5). -/
def bitsOf (w lsb width : Nat) : Nat := (w / 2 ^ lsb) % 2 ^ width

/-- `w` with bits `[lsb + width - 1 : lsb]` replaced by the low `width` bits of `v`. -/
def putBits (w lsb width v : Nat) : Nat :=
  w % 2 ^ lsb + (v % 2 ^ width) * 2 ^ lsb + (w / 2 ^ (lsb + width)) * 2 ^ (lsb + width)

/-- Bit `i` of a number. -/
def bitAt (w i : Nat) : Bool := (w / 2 ^ i) % 2 == 1

/-- A Boolean as a one-bit number. -/
def bit (b : Bool) : Nat := if b then 1 else 0

/-- A count that stops at `cap`. -/
def satAdd (cap a b : Nat) : Nat := min cap (a + b)

/-- The two's-complement reading of the low `bits` bits of `n`. -/
def toSigned (bits n : Nat) : Int :=
  let m := n % 2 ^ bits
  if m < 2 ^ (bits - 1) then (m : Int) else (m : Int) - (2 ^ bits : Nat)

/-- The two's-complement code of an integer in `bits` bits. -/
def ofSigned (bits : Nat) (z : Int) : Nat := (z % ((2 ^ bits : Nat) : Int)).toNat

end Sys2Proof
end

