-- ==== Sys2Proof/Syntax.lean ====
section
/-!
DEFINITION. The commands: one constructor per row of the table of operations and events, and the types of their
operands. An operand carries what reaches the block from outside: a register value, a frame, a reading, an answer.
-/

namespace Sys2Proof

/-- The 26 register blocks, in the order of their block codes (R80). -/
inductive Blk where
  | mgt | hif | dbq | mmu | hbm | ddr | sett | swc | tms | tpt | ben | col | pln
  | tfb | ash | out | opt | eln | slf | lsc | kmc | tim | pwr | evr | att | flt
  deriving DecidableEq, Repr

/-- Who reaches the register space (R79, R85): the host through BAR0, the management domain through its own view,
or virtual function `n` (1 to 64) through the windows of its BAR2. -/
inductive View where
  | host
  | mgmt
  | vf (n : Nat)
  deriving DecidableEq, Repr

/-- A descriptor's place: the ring as the device numbers it and the slot in that ring. It is the key of the
operation table (R114; the function follows from the ring). -/
structure OpKey where
  ring : Nat
  slot : Nat
  deriving DecidableEq, Repr

/-- The levels on the strap balls (R38). -/
structure Straps where
  pcieX8 : Bool
  recov : Nat
  i3cAddr : Nat
  test : Bool
  deriving DecidableEq, Repr

/-- What decoding one ECC-protected word gave (R144): read clean, corrected, or beyond correction. -/
inductive Ecc where
  | clean
  | corrected
  | lost
  deriving DecidableEq, Repr

/-- What one burst of a read of device memory meets on its way (R145 to R150): the byte of the access it holds, and for the
read and its two retries the bits that come wrong, as the line that carries them and the beats in which they do (bit b for
beat b; HBM4: lines 0 to 31 are DQ, 32 to 35 ECC0 to ECC3; DDR5: 0 to 31 are DQ, 32 to 39 CB). For a DDR5 channel, `place` says
where it is: slot × 4 + rank × 2 + subchannel. -/
structure BurstErr where
  at_ : Nat
  tries : List (List (Nat × Nat))
  place : Nat := 0
  deriving DecidableEq, Repr

/-- What a read of device memory meets: the bursts in which bits come wrong. -/
abbrev MemRead := List BurstErr

/-- A 16-byte word of a stored frame that does not read as it was written (R180): its number, counted from the internal header
that stands before the frame, and for the read and its two retries what comes wrong: symbols of its code word (R144), with the
bits of each that are inverted. -/
structure SettErr where
  word : Nat
  tries : List (List (Nat × Nat))
  deriving DecidableEq, Repr

/-- What an access to host memory met (R136): done, with the bytes of a read when they came back whole, through a translation
that ATS gave or without; or refused by ATS, with or without PRI to ask for the page. -/
inductive HostAccess where
  | done (data : Option Bytes) (ats : Bool := false)
  | refused (pri : Bool)
  deriving DecidableEq, Repr

/-- A memory unit that can retire: an HBM media pseudo-channel (tier 0) or a DDR5 channel (tier 1). -/
structure MemUnit where
  tier : Nat
  unit : Nat
  deriving DecidableEq, Repr

/-- The PTP messages the PTP function tells apart (R473, R467). -/
inductive PtpKind where
  | announce | sync | delayReq | pdelayReq | other
  deriving DecidableEq, Repr

/-- A PTP message for the PTP function: its port (576 the management port), its domain, and its receive stamp in units
of 2⁻⁴ ns before RX_ADJ (R466). -/
structure PtpMsg where
  port : Nat
  domain : Nat
  kind : PtpKind
  stamp : Nat
  deriving DecidableEq, Repr

/-- What the rewrite made of one 64 KiB flash block (R75): it holds the new contents already; it differs, so its journal
entry is written and its erasing begins; it has been written and compares; or it does not compare. -/
inductive FlashResult where
  | skipped | begun | written | failed
  deriving DecidableEq, Repr

/-- What an I3C transfer carries after its index byte (R505). -/
inductive I3cData where
  | read (n : Nat)
  | write (b : Bytes)
  deriving DecidableEq, Repr

/-- A frame on the management Ethernet port, as R507 tells them apart. `toUs` is true when it is addressed to the port's
link-local or global address. -/
inductive MgeFrame where
  | neighbourSolicit (toUs : Bool)
  | echo (toUs : Bool)
  | ptp (m : PtpMsg)
  | lldp
  /-- A recovery solicitation of a peer on UDP port 7521 (R73). -/
  | solicit (peer : Nat)
  /-- A TFTP read or acknowledgement of a peer being served: the block asked for, and whether it is the last. -/
  | tftp (peer block : Nat) (last : Bool)
  | other
  deriving DecidableEq, Repr

/-- A JTAG instruction (R516). -/
inductive JtagInstr where
  | idcode
  | bypass
  /-- An IEEE 1149.1 boundary-scan instruction; some drive outputs from the scan chain. -/
  | boundary (code : Nat) (drives : Bool)
  /-- A debug port or test data register. -/
  | debug (code : Nat)
  deriving DecidableEq, Repr

/-- What an expander does next (R355, R359): it takes block `idx` of the stream whose header lies at a DVA for the run of
a context, or of a transfer's current segment (the bytes of a host-memory source come with it), or it expands the block
at the head of its queue. -/
inductive ExpandStep where
  | load (ctx hdr idx : Nat) (read : MemRead)
  | xfer (op : OpKey) (idx : Nat) (host : HostAccess) (read : MemRead)
  | expand
  deriving DecidableEq, Repr

/-- Where an instruction of a tensor group takes its bytes from (R339, R359): the instruction itself, the working store of
a die of its context, device memory, host memory, or the oldest blocks that an expander has expanded for it. -/
inductive TSrc where
  | imm (b : Bytes)
  | ws (die off n : Nat)
  | mem (dva n : Nat) (read : MemRead)
  | host (addr : Nat) (a : HostAccess)
  | expanded (x blocks : Nat)
  deriving DecidableEq, Repr

/-- What an instruction of a tensor group does (R322 to R328, R337 to R339, R365 to R367). Dies, matrix units and tiles are
counted within the context. The instruction encoding is private to Folte and the device (R330), so a group comes as its
instructions' effects. -/
inductive TOp where
  /-- Stage a store to the working store. -/
  | store (die off : Nat) (src : TSrc)
  /-- Write device memory. -/
  | memStore (dva : Nat) (src : TSrc)
  /-- Write host memory. -/
  | hostStore (addr : Nat) (a : HostAccess) (src : TSrc)
  /-- Send a frame to the switch core in a traffic class. -/
  | frame (die tc : Nat) (src : TSrc)
  /-- Send an object to a queue of a line group (notes/assumptions/197.md). -/
  | line (die g q kind : Nat) (tag : Bytes) (src : TSrc)
  /-- A matrix step: A by rows in format `fa`, B by columns in format `fb`; `fb` 0xFF takes B from the expander. -/
  | step (mu fa fb : Nat) (a b : TSrc)
  | muClear (mu : Nat)
  /-- Read an accumulator out, rounded to a format, to the working store. -/
  | muOut (mu fmt die off : Nat)
  /-- Add 1,024 elements of an accumulator, from `first` on, into a tensor bay. -/
  | muAcc (mu first die bay : Nat)
  /-- Load the oldest block of an expander as FP32: value i into register `reg` + i / 64 of lane i mod 64. -/
  | loadBlock (tile reg x : Nat)
  /-- Load a lane register. -/
  | load (tile lane reg : Nat) (src : TSrc)
  /-- The fused multiply-add d = a · b + c on lane registers. -/
  | fma (tile lane d a b c : Nat)
  /-- A 32-bit integer operation with its result. -/
  | int (tile lane d value : Nat)
  | laneOut (tile lane reg die off : Nat)
  /-- ACC: add values of a format into a tensor bay from element `off` on. -/
  | acc (die bay off fmt : Nat) (src : TSrc)
  /-- ROUND: convert a bay to a format in the working store; with GROUP, OP_SEQ and CHUNK, stochastically. -/
  | round (die bay fmt wdie off : Nat) (sr : Option (Nat × Nat × Nat))
  /-- CLEAR: zero a bay, allotting it in a mode: 0 exact-wide, 1 exact-narrow, 2 ordered, 3 integer. -/
  | clear (die bay mode : Nat)
  /-- Dress `n` blocks from block `first` on as the run's parameters say; the rubble counts stand at (`die`, `off`). -/
  | dress (tdie first n die off : Nat) (read : MemRead)
  /-- Write the stream header of the blocks dressed. -/
  | dressEnd (tdie die off : Nat)
  /-- The delta former: weights less snapshot of `n` blocks of the run's piece from block `first` on, the snapshot from
  expander `x` (R375). -/
  | formDelta (first n x : Nat) (read : MemRead)
  /-- The fused reducer: the reduced delta of `n` blocks, each contribution's blocks from the expander listed for it (R376). -/
  | fuse (first n : Nat) (xs : List Nat)
  /-- The outer step of `n` blocks, snapshot from expander `xs` and momentum from `xm`; the rubble counts of both new streams
  stand at (`die`, `off`) (R377). -/
  | outerStep (first n xs xm die off : Nat) (read : MemRead)
  /-- Write the stream headers of the new snapshot and momentum. -/
  | outerEnd (die off : Nat)
  /-- A location of the working store or of a tensor bay reads uncorrectable, after its retries (R340). -/
  | lost
  deriving DecidableEq, Repr

/-- How a group's last instruction goes on (R330): the body of the next instance, or the run's end; or an instruction
failed its check. -/
inductive GroupNext where
  | body (i : Nat)
  | finish
  | bad
  deriving DecidableEq, Repr

/-- What a start-up stage ended with (R62, R65, R67, R68): the fuse check code and what the flash holds at the test-token
area; the image read from flash; the pseudo-channels that failed training; GiB on each DDR5 channel and the
channels whose DIMMs failed; the coxes that did not load. -/
inductive StageResult where
  | fuses (ok : Bool) (token : Bytes)
  | hostLink
  | image (img : Bytes)
  | mgmt
  | hbm (failed : List Nat)
  | ddr (gib failed : List Nat)
  | core (failed : List Nat)
  | lanes
  | ready
  deriving DecidableEq, Repr

/-- What a translation fault holds (R136, R138): a transfer or line operation, a collective, or the run of a context. -/
inductive HeldRef where
  | op (k : OpKey)
  | coll (group seq : Nat)
  | run (ctx : Nat)
  deriving DecidableEq, Repr

/-- A sensor's reading (R504): kind and index, and the value in the sensor's unit; none when it fails to answer. -/
structure Reading where
  kind : Nat
  index : Nat
  value : Option Int
  deriving DecidableEq, Repr

/-- The source of a request to a shared resource, which chooses its class (the table of R55): traffic, bench updates or
matrix work inside a race-plan reservation; what serves the device itself; dynamic work; movement in the background; and
traffic that came in at a fabric port in a traffic class. -/
inductive ArbSrc where
  | reserved
  | planCatch | rigLoad | juwesy | ack | pageWalk | notification
  | collective | tensor | hostTransfer | migration
  | checkpoint | scrub | mirror
  | portTraffic (port tc : Nat)
  deriving DecidableEq, Repr

/-- What a request to the sett free list asks for (R183): an allocation for a requester, or the freeing of a sett. -/
inductive ArbAct where
  | other
  | alloc (req : Nat)
  | free (sett : Nat)
  deriving DecidableEq, Repr

/-- A request that waits at an arbiter (R55, R56): its source, its port at the arbiter, and what it asks for. -/
structure ArbReq where
  src : ArbSrc
  port : Nat
  act : ArbAct := .other
  deriving DecidableEq, Repr

/-- A marker as it arrives on a channel (R159, R160): how far deskew finds the channel from the rest of its group, in tenths of
a nanosecond, and the marker's bytes. -/
structure RxMarker where
  skew : Nat
  bytes : Bytes
  deriving DecidableEq, Repr

/-- One of the two directions of a remap that switches (R169): whether it is this end's receive direction, and, where the far
end asked for it, whether its acknowledgement came in time there (notes/assumptions/170.md). -/
structure RemapSide where
  rx : Bool
  inTime : Bool
  deriving DecidableEq, Repr

/-- A place in the media of a memory unit, whether or not a device address maps to it (R150). -/
structure MediaAt where
  unit : MemUnit
  off : Nat
  deriving DecidableEq, Repr

/-- The next departure of a port, with the errors that its setts are read with (R150, R180). -/
structure Departure where
  port : Nat
  errs : List SettErr
  deriving DecidableEq, Repr

/-- A datagram that carries a piece of a contribution, as its frame arrived, and whether the bay it is added to or a sett of
the contribution reads uncorrectable and stays so (R150, R293). -/
structure RxData where
  frame : Bytes
  lost : Bool
  deriving DecidableEq, Repr

/-- The width of a register access in bytes, and whether all its byte enables are set (R81). -/
structure AccessSize where
  bytes : Nat
  enabled : Bool
  deriving DecidableEq, Repr

/-- What a register access names (R79, R100): an offset of the requester's set-up space, which for a virtual function is its
windows of BAR2, or an offset of a doorbell page. -/
inductive RegTarget where
  | setup (off : Nat)
  | page (page off : Nat)
  | msix (off : Nat)
  deriving DecidableEq, Repr

/-- The commands and events of the T5120, in the order of the table of operations and events. -/
inductive Instr where
  /-- POWER_ON_RESET (R62): PORST_N deasserts: straps are sampled and start-up begins from stage RESET. -/
  | powerOnReset (straps : Straps)
  /-- PORST_ASSERT (R42): PORST_N is asserted while the device runs, so every unit resets and every port and line group goes down. -/
  | porstAssert
  /-- STARTUP_STAGE_DONE (R62): A start-up stage ends, READINESS advances, and the next stage starts or a failure code holds the device. -/
  | startupStageDone (r : StageResult)
  /-- RECOV_WAIT_SWITCH (R72): A 60 s recovery wait expires, and the ROM alternates between PCIe and management Ethernet recovery. -/
  | recovWaitSwitch
  /-- RECOV_GO (R73): A write of GO to MGT.RECOV_CTRL makes the ROM read and verify the image from host memory, or refuse it. -/
  | recovGo (v : View) (w : Word) (img : Option Bytes)
  /-- RECOV_OFFER (R73): A peer's offer to a recovery solicitation arrives, and the image transfer by TFTP starts. -/
  | recovOffer (peer : Nat)
  /-- TFTP_STALL (R73): A recovery transfer stalls for 5 s; it is abandoned and the ROM solicits again. -/
  | tftpStall
  /-- RECOV_IMAGE_DONE (R74): A recovered image transfer completes, and the image is verified and run as a flash image. -/
  | recovImageDone (img : Bytes)
  /-- FEED_LINE_LOW (R36): One comb line falls below the laser-feed threshold, and its lane is handed to the spare wavelength. -/
  | feedLineLow (g line : Nat)
  /-- FEED_LINE_RESTORE (R36): A low comb line has been above threshold for 1 s, and its lane is given back. -/
  | feedLineRestore (g line : Nat)
  /-- FEED_LOST (R37): Two or more comb lines are low, so the port group stops and enters watch mode. -/
  | feedLost (g : Nat) (lines : List Nat)
  /-- FEED_RESTORED (R37): All 17 comb lines have been above threshold for 1 s, and the port group re-acquires. -/
  | feedRestored (g : Nat)
  /-- AON_LOSS (R41): VDD_AON is not good, so every other rail is treated as off and the outputs float. -/
  | aonLoss
  /-- RAIL_FAULT (R497): A rail is out of range for more than 10 µs in service, and the units it feeds are taken down. -/
  | railFault (rail mv us : Nat)
  /-- RAIL_GOOD (R497): A faulted rail has been good for 100 ms, and its units return. -/
  | railGood (rail : Nat)
  /-- SENSOR_SAMPLE (R488): Every 100 µs each sensor is read and the fixed thermal thresholds and band rules act. -/
  | sensorSample (readings : List Reading)
  /-- OE_TRIP_RELEASE (R488): An engine case has been below 75 °C for 10 s, and its group acquires again. -/
  | oeTripRelease (g : Nat)
  /-- BAND_FALL (R486): TJ_MAX has been 2 °C below the band edge for 100 ms, and the band falls. -/
  | bandFall
  /-- PACE_WINDOW (R51): A 4 µs pace-monitor window ends, updating the current and minimum rates. -/
  | paceWindow (kind index mtps : Nat)
  /-- FLOOR_RAISE (R51): Every 1 ms while a pace reading is below 1.72 G tokens/s, the band's floor entry is raised by 5 mV. -/
  | floorRaise
  /-- ARB_GRANT (R56): An arbiter makes a grant decision by strict class priority and round robin, with the starvation guard. -/
  | arbGrant (res inst : Nat) (reqs : List ArbReq) (blocked : Nat) (delayed : List Nat)
  /-- PACE_CLR_MIN (R51): A write of CLR_MIN to PWR.PACE_SEL resets the selected unit's minimum rate. -/
  | paceClrMin (v : View) (w : Word)
  /-- ARB_CLR (R60): A write of CLR to MGT.ARB_SEL clears the selected instance and class counters. -/
  | arbClr (v : View) (w : Word)
  /-- REG_WRITE (R83): A write to a register with no row of its own updates its RW, RWS and W1C fields, or sets RO_WRITE. -/
  | regWrite (v : View) (t : RegTarget) (w : Word)
  /-- REG_ACCESS_BAD (R81): An access of wrong width or alignment is refused and sets ACCESS_ERR.SIZE. -/
  | regAccessBad (v : View) (t : RegTarget) (size : AccessSize) (write : Bool)
  /-- ACCESS_ERR_WRITE (R7): A write to ACCESS_ERR clears bits and clears COUNT when all bits then read 0. -/
  | accessErrWrite (v : View) (b : Blk) (w : Word)
  /-- COMMIT_GO (R86): A write of GO captures the shadow copies of the masked groups and starts checking, or is lost. -/
  | commitGo (v : View) (b : Blk) (w : Word)
  /-- COMMIT_CHECK_END (R92): Checking ends, and the groups become pending or the commit is refused. -/
  | commitCheckEnd (v : View) (b : Blk) (busy : Bool)
  /-- COMMIT_BOUNDARY (R90): A pending group reaches its boundary and its live copy changes as one unit. -/
  | commitBoundary (v : View) (b : Blk) (g : Nat)
  /-- COMMIT_ABANDON (R88): A write of ABANDON copies live to shadow for the non-pending masked groups. -/
  | commitAbandon (v : View) (b : Blk) (w : Word)
  /-- DOORBELL (R105): A doorbell write moves a submission tail or a CQ or EVM head, and may place an intake word. -/
  | doorbell (v : View) (page : Nat) (w : Word)
  /-- INTAKE_POP (R108): The cox pops an intake word and takes up to 32 descriptors from the named ring. -/
  | intakePop (qs : Nat) (ecc : Ecc) (reads : List (Option Bytes))
  /-- COMPLETION_WRITE (R111): A completion becomes writable in ring order and is written to its CQ ring, with MSI-X if asked. -/
  | completionWrite (ring : Nat) (ok : Bool) (desc : Option Bytes)
  /-- FUNCTION_D3HOT (R98): A function enters D3hot, so its rings are held and MSI-X messages withheld. -/
  | functionD3hot (fn : Nat)
  /-- FUNCTION_D0 (R98): A function returns to D0, and its held rings and completions resume. -/
  | functionD0 (fn : Nat)
  /-- VF_FLR (R99): A function-level reset of a VF disables its rings and stops its operations at segment boundaries. -/
  | vfFlr (vf : Nat)
  /-- NQ_POP (R118): A 64-bit read of POP removes the highest-severity oldest entry, or returns a stale entry. -/
  | nqPop (v : View) (page : Nat) (ecc : Ecc)
  /-- NQ_CLR_COUNTS (R120): A write of CLR_COUNTS zeroes the NQ's corrected and dropped counts. -/
  | nqClrCounts (v : View) (page : Nat) (w : Word)
  /-- EVR_MIRROR (R122): A waiting event record is copied into EVM ring slots once room exists. -/
  | evrMirror
  /-- RIG_SUBMIT (R555): The cox takes a RIG descriptor, checks its fields, reads the bundle and validates it. -/
  | rigSubmit (op : OpKey) (bundle : Option Bytes) (blobs : List (Option Bytes))
  /-- RIG_STAGE (R19): A validated rig is staged in its turn into the shadow tables, or refused with RIG_CONFLICT or RIG_FULL. -/
  | rigStage (op : OpKey)
  /-- CATCH_FIRE (R17): A time-triggered catch arrives and its staged rig's tables change together, or the rig misses its catch. -/
  | catchFire (op : OpKey)
  /-- COX_SELF_CHECK (R22): Every 1 ms the management subsystem starts a self-check on each watched cox. -/
  | coxSelfCheck
  /-- COX_HANG (R22): A watched cox stalls or fails its self-check and is declared hung. -/
  | coxHang (cox cause : Nat)
  /-- COX_RELOAD_DONE (R23): A cox reload ends: success makes it STANDBY, failure retries or makes it FAILED. -/
  | coxReloadDone (cox : Nat) (ok : Bool)
  /-- COX_RELOAD_TIMEOUT (R22): A reload that has not finished 500 ms after it started counts as a failed attempt. -/
  | coxReloadTimeout (cox : Nat)
  /-- COX_RELOAD (R23): MGMT request COX_RELOAD reloads or fails the named cox according to its role. -/
  | coxReload (op : OpKey)
  /-- UPDATE_STAGE (R76): MGMT request UPDATE_STAGE starts an in-service update, or refuses it. -/
  | updateStage (op : OpKey)
  /-- UPDATE_STAGING_DONE (R76): The new image is copied into HBM and verified, and cox rotation begins. -/
  | updateStagingDone (img : Option Bytes)
  /-- MGMT_HANDOVER_DONE (R502): The idle management core takes over with the new firmware, or the update halts with UPDATE_MGMT_FAIL. -/
  | mgmtHandoverDone (ok : Bool)
  /-- FLASH_BLOCK_DONE (R75): One 64 KiB block of the journalled flash rewrite is skipped, written or fails. -/
  | flashBlockDone (r : FlashResult)
  /-- UPDATE_ABORT (R77): MGMT request UPDATE_ABORT releases the staged copy in STAGING or VERIFIED. -/
  | updateAbort (op : OpKey)
  /-- FLASH_KEEP (R74): MGMT request FLASH_KEEP stops a recovered image from being written to flash. -/
  | flashKeep (op : OpKey)
  /-- FLASH_RESYNC (R75): MGMT request FLASH_RESYNC restarts the journalled flash rewrite. -/
  | flashResync (op : OpKey)
  /-- SVN_COMMIT (R70): MGMT request SVN_COMMIT raises the fused SVN floor under a signed request. -/
  | svnCommit (op : OpKey) (req : Option Bytes)
  /-- DDR_DOMAIN (R155): MGMT request DDR_DOMAIN drains and turns off a channel, or turns it on and trains it. -/
  | ddrDomain (op : OpKey)
  /-- DDR_TRAIN_DONE (R155): A channel turned on finishes training, in service or off. -/
  | ddrTrainDone (chan gib : Nat) (ok : Bool)
  /-- DDR_EXTENT (R130): MGMT request DDR_EXTENT releases or backs a DDR5 DPA extent. -/
  | ddrExtent (op : OpKey)
  /-- MEM_RETIRE (R151): MGMT request MEM_RETIRE starts retirement of an HBM pseudo-channel or DDR5 channel. -/
  | memRetire (op : OpKey)
  /-- RETIRE_BLOCK_COPY (R151): One 64 KiB retirement block copies and the watermark advances. -/
  | retireBlockCopy (u : MemUnit) (read : MemRead)
  /-- ATTEST_REPORT (R455): MGMT request ATTEST_REPORT writes a signed report over the verifier's buffer. -/
  | attestReport (op : OpKey) (nonce : Option Bytes)
  /-- EVR_CLEAR (R514): MGMT request EVR_CLEAR removes records up to UPTO_SEQ under a signed token. -/
  | evrClear (op : OpKey) (token : Option Bytes)
  /-- MMU_INVALIDATE (R135): MGMT request MMU_INVALIDATE drops cached translations in a range and retranslates held segments. -/
  | mmuInvalidate (op : OpKey)
  /-- CODE_TABLE (R356): MGMT request CODE_TABLE installs or retires a code table on the named dies. -/
  | codeTable (op : OpKey) (levels : Option Bytes)
  /-- TIME_CONFIRM (R470): MGMT request TIME_CONFIRM applies an armed jump candidate. -/
  | timeConfirm (op : OpKey)
  /-- UNIT_POWER (R492): MGMT request UNIT_POWER sets or releases a unit's forced power state. -/
  | unitPower (op : OpKey)
  /-- FLT_PROBATION (R534): MGMT request FLT_PROBATION puts a fenced agreement group into probation. -/
  | fltProbation (op : OpKey)
  /-- TEST_ACCESS (R516): MGMT request TEST_ACCESS grants or revokes JTAG access under a signed token. -/
  | testAccess (op : OpKey) (token : Option Bytes)
  /-- XFER_COPY (R139): An XFER OP 0 copies bytes in 64 KiB segments. -/
  | xferCopy (op : OpKey)
  /-- XFER_EXPAND (R370): An XFER OP 1 expands ashlar blocks into BF16 values. -/
  | xferExpand (op : OpKey)
  /-- LINE_SEND (R419): An XFER OP 2 queues an object on a line group queue. -/
  | lineSend (op : OpKey)
  /-- LINE_POST (R419): An XFER OP 3 posts a receive buffer on a line group queue. -/
  | linePost (op : OpKey)
  /-- XFER_CHECK (R452): An XFER OP 4 computes a digest or segment tags on the check-value engine. -/
  | xferCheck (op : OpKey) (state : Option Bytes)
  /-- SEGMENT_COMMIT (R139): An operation's current segment reaches its commit point. -/
  | segmentCommit (op : OpKey) (src dst : HostAccess) (read : MemRead)
  /-- DEV_FAULT_TIMEOUT (R138): A held device fault stays unresolved for DEV_WAIT_US, and the operation ends TRANSLATION_FAULT. -/
  | devFaultTimeout (h : HeldRef)
  /-- PRI_RESPONSE (R136): A page-request response arrives and the held segment is re-executed or the operation ends. -/
  | priResponse (h : HeldRef) (success : Bool)
  /-- PRI_TIMEOUT (R136): No page-request response within PRI_WAIT_MS ends the operation with TRANSLATION_FAULT. -/
  | priTimeout (h : HeldRef)
  /-- ATS_INVALIDATE (R137): An ATS Invalidation Request is answered once affected segments commit or restart. -/
  | atsInvalidate (fn addr len : Nat)
  /-- SCRUB_READ (R150): Patrol scrubbing reads a location and writes corrected data back. -/
  | scrubRead (a : MediaAt) (r : MemRead)
  /-- MARKER_RECEIVE (R160): An alignment marker arrives on a channel, updating alignment, identity, alias and LCC state. -/
  | markerReceive (g c : Nat) (m : RxMarker)
  /-- PG_ID_CLEAR (R163): The identity condition has held for 1 ms, and the group leaves ID_MISMATCH. -/
  | pgIdClear (g : Nat)
  /-- ALIAS_RESTORE (R170): After relock and 10 ms of clean markers, the lane is remapped back to its channel. -/
  | aliasRestore (g : Nat) (rx : Bool) (c : Nat)
  /-- LCC_REMAP_REQ (R169): A REMAP_REQ lane-control message is accepted and acknowledged. -/
  | lccRemapReq (g : Nat) (asks : Bool) (seq arg : Nat)
  /-- LCC_REMAP_ACK (R169): A REMAP_ACK arrives and the remap is armed for its switch MCNT, or repeated. -/
  | lccRemapAck (g seq arg : Nat)
  /-- LCC_TX_ALIAS (R170): A TX_ALIAS arrives, and the transmitter moves the lane to the spare and relocks its ring. -/
  | lccTxAlias (g seq arg : Nat)
  /-- LCC_CAL_DONE (R168): A CAL_DONE arrives from the far receiver for the calibrated spare channel. -/
  | lccCalDone (g seq arg : Nat)
  /-- LCC_RESEND (R164): An LCC message is unacknowledged after 256 markers and is sent again. -/
  | lccResend (g : Nat)
  /-- REMAP_SWITCH (R169): At the agreed MCNT both ends move a lane to its new channel. -/
  | remapSwitch (g : Nat) (x : RemapSide)
  /-- LANE_FRAME_RECEIVE (R158): A lane frame is decoded; payload is delivered, and uncorrectable words are discarded and counted. -/
  | laneFrameReceive (g : Option Nat) (c : Nat) (words : List Nat) (lost : Nat)
  /-- HEATER_UPDATE (R165): A heater loop update steers its ring and declares or loses lock. -/
  | heaterUpdate (g c : Nat) (rx : Bool) (err code : Nat)
  /-- RING_SWEEP_DONE (R166): An acquisition sweep locks a ring, or after two sweeps marks ACQUIRE_FAIL. -/
  | ringSweepDone (g c : Nat) (rx locked : Bool) (code : Nat)
  /-- FEATHER_STEP (R168): The feathering timer starts calibration of the present spare channel. -/
  | featherStep (g : Nat)
  /-- FEATHER_CAL_DONE (R168): Spare calibration ends and the next lane is remapped onto it. -/
  | featherCalDone (g : Nat) (rx : Bool) (c : Nat)
  /-- WATCH_SAMPLE (R493): A port group in WATCH samples its input light every 10 ms and may start acquisition. -/
  | watchSample (g : Nat) (above : Bool)
  /-- OPT_LANE_CLR (R178): A write of CLR to OPT.LANE_SEL clears the selected channel's counters. -/
  | optLaneClr (v : View) (w : Word)
  /-- ELN_LANE_CLR (R178): A write of CLR to ELN.LANE_SEL clears the selected lane's counters. -/
  | elnLaneClr (v : View) (w : Word)
  /-- ELN_TRAIN_TIMEOUT (R177): Lane training that has not finished in 500 ms restarts, and after three failures retries every 10 s. -/
  | elnTrainTimeout (l : Nat)
  /-- ELN_ENERGY_DETECT (R489): A lane without signal checks for energy every 1 ms and starts training when it finds it. -/
  | elnEnergyDetect (l : Nat) (found : Bool)
  /-- LINK_UP (R50): A port link comes up after the core voltage reaches the applied floor. -/
  | linkUp (p : Nat)
  /-- LINK_DOWN (R204): A port link goes down and its queued departures are flushed. -/
  | linkDown (p : Nat)
  /-- SETT_ALLOC (R182): A requester asks for a sett, and it is granted against quota or refused. -/
  | settAlloc (req : Nat)
  /-- SETT_FREE (R184): A departure or hold release lowers a sett's reference count and frees it at 0. -/
  | settFree (n : Nat)
  /-- SETT_STAT_CLR (R190): A write of CLR to SETT.STAT_SEL resets PEAK, REFUSED and CORRUPT of a requester. -/
  | settStatClr (v : View) (w : Word)
  /-- PACKET_INGRESS (R195): A stored frame is parsed, delivered locally or routed, policed and admitted to output queues. -/
  | packetIngress (port : Nat) (frame : Bytes)
  /-- PACKET_DEPART (R197): The egress scheduler selects a departure, which is rewritten and transmitted. -/
  | packetDepart (d : Departure)
  /-- DELAY_ESTIMATE_UPDATE (R201): Every 1 µs each port's delay estimate is updated from its sample. -/
  | delayEstimateUpdate
  /-- MC_AGE (R207): A class N or B multicast departure waits past AGE_US and is released. -/
  | mcAge (queue : Nat)
  /-- BYPASS_BEGIN (R212): A BYPASS begin stages a rig that marks the pair's port groups BYPASSED at its catch. -/
  | bypassBegin (op : OpKey)
  /-- BYPASS_END (R213): A BYPASS end returns the pair's port groups to acquisition and then to availability. -/
  | bypassEnd (op : OpKey)
  /-- BYPASS_RETURN_TIMEOUT (R213): 10 s after the effect time the BYPASS end completes, naming groups that did not return. -/
  | bypassReturnTimeout (op : OpKey)
  /-- SWC_STAT_CLR (R216): A write of CLR to SWC.STAT_SEL clears every counter of a port. -/
  | swcStatClr (v : View) (w : Word)
  /-- REFILL_TICK (R225): Every 256 ns every shaper and policer bucket is refilled. -/
  | refillTick
  /-- HIST_DEPTH_SAMPLE (R230): Every 1 µs each queue's depth histogram takes a sample. -/
  | histDepthSample
  /-- RESERVED_WINDOW_OPEN (R313): A reserved output window opens and gates class T queues of its port. -/
  | reservedWindowOpen (slot entry : Nat)
  /-- RESERVED_WINDOW_CLOSE (R222): A reserved window closes, and class T frames left queued wait for the next window. -/
  | reservedWindowClose (slot entry : Nat)
  /-- TMS_HIST_CLR (R231): A write of CLR to TMS.HIST_SEL clears both histograms of a queue. -/
  | tmsHistClr (v : View) (w : Word)
  /-- TRANSPORT_DATA_RECEIVE (R241): A DATA datagram is checked, placed by position, acknowledged or refused. -/
  | transportDataReceive (req : Nat) (p : RxData)
  /-- TRANSPORT_ACK_RECEIVE (R245): An ACK moves SND_UNA, updates SACK and RTT, and triggers fast resends. -/
  | transportAckReceive (req : Nat) (frame : Bytes)
  /-- ACK_DELAY_EXPIRE (R243): ACK_DELAY_NS passes after the first unacknowledged DATA packet, and an ACK is sent. -/
  | ackDelayExpire (ctx : Nat)
  /-- TRANSPORT_SEND (R244): A context sends its next DATA packet once the window allows, holding its setts. -/
  | transportSend (ctx : Nat)
  /-- RTO_EXPIRE (R245): The retransmission timer expires, resending the lowest hole or failing the context. -/
  | rtoExpire (ctx : Nat)
  /-- CONTEXT_FETCH_DONE (R238): A context record fetch completes, possibly evicting another, and waiting packets proceed. -/
  | contextFetchDone (ctx : Nat) (read : MemRead)
  /-- TPT_STAT_CLR (R253): A write of CLR to TPT.STAT_SEL clears the selected transport counter. -/
  | tptStatClr (v : View) (w : Word)
  /-- LLR_INIT_SEND (R248): Every 10 µs a port without the neighbour's INIT sends an LLR INIT frame. -/
  | llrInitSend (port : Nat)
  /-- LLR_INIT (R248): An LLR INIT frame arrives, starting link sequence numbering. -/
  | llrInit (port : Nat)
  /-- LLR_FRAME_RECEIVE (R249): A tagged frame is accepted in LSN order or discarded with a NAK. -/
  | llrFrameReceive (port lsn : Nat) (frame : Bytes)
  /-- LLR_ACK (R250): An LLR ACK arrives, releasing held frames and giving the far queue delay. -/
  | llrAck (port lsn qdelay : Nat)
  /-- LLR_NAK (R250): An LLR NAK arrives and every held frame is replayed. -/
  | llrNak (port lsn qdelay : Nat)
  /-- LLR_ACK_TIMER (R249): 1 µs passes since the last LLR ACK and another is sent. -/
  | llrAckTimer (port : Nat)
  /-- LLR_TIMEOUT (R250): No progress for TIMEOUT_US replays held frames, and 8 replays take the link down. -/
  | llrTimeout (port : Nat)
  /-- SPILL_DONE (R289): A spill segment completes, freeing a bay. -/
  | spillDone (group seq chunk : Nat)
  /-- RESTORE_DONE (R289): A restore segment completes and the restored chunk's bay reopens. -/
  | restoreDone (group seq chunk : Nat) (read : MemRead)
  /-- COLL_ALLREDUCE (R275): A COLL descriptor with OP 0 starts a dynamic all-reduce. -/
  | collAllreduce (op : OpKey)
  /-- COLL_REDUCE_SCATTER (R275): A COLL descriptor with OP 1 starts a reduce-scatter. -/
  | collReduceScatter (op : OpKey)
  /-- COLL_REDUCE (R275): A COLL descriptor with OP 2 starts a reduce to one member. -/
  | collReduce (op : OpKey)
  /-- COLL_BROADCAST (R275): A COLL descriptor with OP 3 starts a broadcast. -/
  | collBroadcast (op : OpKey)
  /-- COLL_SHIFT (R275): A COLL descriptor with OP 4 starts a shift. -/
  | collShift (op : OpKey)
  /-- COLL_PERMUTE (R275): A COLL descriptor with OP 5 starts a permute. -/
  | collPermute (op : OpKey)
  /-- COLL_CANCEL (R293): A COLL descriptor with OP 6 cancels a named operation. -/
  | collCancel (op : OpKey)
  /-- COLL_NOT_YET (R291): A NOT_YET control message arrives, and the refused packet waits a backoff. -/
  | collNotYet (req : Nat) (frame : Bytes)
  /-- NOT_YET_BACKOFF (R291): A NOT_YET backoff expires and the packet is resent. -/
  | notYetBackoff (ctx psn : Nat)
  /-- COLL_RESULT (R281): A parent's RESULT arrives and is relayed down and written to the result log. -/
  | collResult (req : Nat) (frame : Bytes)
  /-- COLL_CHUNK_DONE (R281): A CHUNK_DONE control message arrives for a chunk. -/
  | collChunkDone (req : Nat) (frame : Bytes)
  /-- COLL_QUERY (R282): A QUERY arrives and is answered with RESULT, CHUNK_DONE or GONE, or not at all. -/
  | collQuery (req : Nat) (frame : Bytes)
  /-- COLL_GONE (R282): A GONE arrives for an uplink query and the operation ends COLL_RESULT_LOST. -/
  | collGone (req : Nat) (frame : Bytes)
  /-- QUERY_TIMER (R282): QUERY_US passes without the parent's RESULT, so QUERY is sent again or the operation ends. -/
  | queryTimer (group seq chunk : Nat)
  /-- COL_STAT_CLR (R297): A write of CLR to COL.STAT_SEL clears the selected collective counter. -/
  | colStatClr (v : View) (w : Word)
  /-- COL_LATE_CLR (R297): A write of CLR to COL.LATE_SEL clears a watch slot's records. -/
  | colLateClr (v : View) (w : Word)
  /-- BEN_NUM_CLR (R270): A write of CLR to BEN.NUM_SEL clears the selected number-format counter. -/
  | benNumClr (v : View) (w : Word)
  /-- PLAN_START (R306): A STAGED plan's start time or heat boundary arrives and it becomes ACTIVE. -/
  | planStart (slot : Nat)
  /-- STROKE_START (R307): A stroke starts at its scheduled time or the previous stroke's end, opening its bench reservations. -/
  | strokeStart (slot : Nat)
  /-- PLAN_ENTRY_FIRE (R307): A catch entry of a stroke fires at its offset: RIG, PROG or LINE. -/
  | planEntryFire (slot entry : Nat)
  /-- HEAT_START (R309): The next heat starts at the later of period, grid point and adopted start. -/
  | heatStart (slot : Nat)
  /-- PLN_SLOT_CLR (R320): A write of CLR to PLN.SLOT_SEL clears a slot's counters and MAX_64NS. -/
  | plnSlotClr (v : View) (w : Word)
  /-- TENSOR_GROUP_COMMIT (R337): An instruction group ends and commits its staged writes, and the run continues, ends or is pre-empted. -/
  | tensorGroupCommit (ctx : Nat) (ops : List TOp) (go : GroupNext)
  /-- CONTEXT_SAVE_DONE (R342): A pre-empted context's save completes and it becomes SAVED or HELD. -/
  | contextSaveDone (ctx : Nat)
  /-- CONTEXT_RESTORE_DONE (R342): A context restore completes and it becomes RUNNING. -/
  | contextRestoreDone (ctx : Nat) (read : MemRead)
  /-- QUANTUM_EXPIRE (R341): A class N context has run its quantum while another cannot be placed, so it is marked for pre-emption. -/
  | quantumExpire (ctx : Nat)
  /-- GROUP_OVERRUN (R340): A group runs past MAX_GROUP_NS and is counted. -/
  | groupOverrun (ctx : Nat)
  /-- TFB_STAT_CLR (R346): A write of CLR to TFB.STAT_SEL clears the selected tensor counter. -/
  | tfbStatClr (v : View) (w : Word)
  /-- EXPAND_BLOCK (R358): An expander accepts, checks and expands an ashlar block, or refuses it. -/
  | expandBlock (x : Nat) (e : ExpandStep)
  /-- ASH_STAT_CLR (R371): A write of CLR to ASH.STAT_SEL clears the selected ashlar counter. -/
  | ashStatClr (v : View) (w : Word)
  /-- OUTER_OPEN (R382): An OUTER OPEN opens or resumes a round, or completes without opening. -/
  | outerOpen (op : OpKey)
  /-- OUTER_EXCLUDE (R396): An OUTER EXCLUDE ends comparison with a differing site in MISMATCH. -/
  | outerExclude (op : OpKey)
  /-- OUTER_FETCH (R398): An OUTER FETCH pulls lagging pieces and broadcasts them. -/
  | outerFetch (op : OpKey)
  /-- OUTER_ABANDON (R398): An OUTER ABANDON ends the round with OUT_ABANDONED, or is refused. -/
  | outerAbandon (op : OpKey)
  /-- ROUND_START (R381): An accepted OPEN reaches START and the round enters OPENING. -/
  | roundStart (shard : Nat)
  /-- HDR_TIMER (R384): Every HDR_MS the device sends HDR to the round's sites. -/
  | hdrTimer (shard : Nat)
  /-- OUTER_HDR (R384): An HDR arrives, updating reachability, frontiers and possibly answered from IDLE. -/
  | outerHdr (m : Bytes)
  /-- SITE_UNREACHABLE (R384): No HDR from a site for 5 × HDR_MS makes it unreachable. -/
  | siteUnreachable (shard site : Nat)
  /-- LOSS_TIMER (R386): A roster site has been unreachable for LOSS_S, and a new epoch is proposed. -/
  | lossTimer (shard site : Nat)
  /-- ROSTER_WAIT_EXPIRE (R386): An own proposal not fixed within ROSTER_WAIT is proposed again. -/
  | rosterWaitExpire (shard : Nat)
  /-- OUTER_PROPOSE (R387): A PROPOSE arrives and is answered with a VOTE when the promise allows. -/
  | outerPropose (m : Bytes)
  /-- OUTER_VOTE (R388): A VOTE arrives, and a quorum of identical votes fixes the roster. -/
  | outerVote (m : Bytes)
  /-- OUTER_DIGEST (R390): A DIGEST arrives, and a quorum may commit the piece, refetch it or halt the round. -/
  | outerDigest (m : Bytes)
  /-- OUTER_FINAL (R396): A FINAL arrives, leading to broadcast or MISMATCH. -/
  | outerFinal (m : Bytes)
  /-- MISMATCH_TIMEOUT (R396): MISMATCH persists for MISMATCH_S, so the OPEN completes OUT_DIGEST_MISMATCH. -/
  | mismatchTimeout (shard : Nat)
  /-- OUTER_FETCH_MSG (R391): A FETCH message arrives and a committed piece is sent if held unchanged. -/
  | outerFetchMsg (m : Bytes)
  /-- FETCH_TIMEOUT (R391): A fetched piece does not arrive within 4 × LOSS_S, and the next site is asked. -/
  | fetchTimeout (shard piece : Nat)
  /-- OUTER_PIECE_RECEIVE (R389): A delta or fetched piece object arrives and is checked and staged. -/
  | outerPieceReceive (tag data : Bytes)
  /-- OUTER_PIECE_STEP_DONE (R389): A piece step (weights, delta, step) completes, and the next step or digest starts. -/
  | outerPieceStepDone (shard piece : Nat)
  /-- OUT_STAT_CLR (R401): A write of CLR to OUT.STAT_SEL clears the selected outer-round counter. -/
  | outStatClr (v : View) (w : Word)
  /-- SLF_TRANSMIT (R418): A transmission slot on a lane is filled by resend, planned object, queue or IDLE. -/
  | slfTransmit (g : Nat) (dcc0 dcc1 : Option Byte) (a : HostAccess) (read : MemRead)
  /-- SLF_RECEIVE (R404): An SLF transmission arrives and its stream header, body and parity are taken. -/
  | slfReceive (lane : Nat) (frame : Bytes)
  /-- MF_SKEW_EXPIRE (R409): SKEW_US or DIFF_MS passes, so absent positions become erasures and missing FSNs are found. -/
  | mfSkewExpire (g mfn : Nat)
  /-- NACK_RESEND_TIMER (R413): A still-missing range is NACKed again after 1.5 × SRTT. -/
  | nackResendTimer (g first : Nat)
  /-- LINE_DELIVER (R417): A queue's next frame in FSN order is delivered through setts once room exists. -/
  | lineDeliver (g queue : Nat) (a : HostAccess)
  /-- LANE_FAULT (R403): A member lane reports a PHY fault and goes out of service. -/
  | laneFault (lane : Nat)
  /-- LANE_RETURN_TIMER (R403): 10 ms with no fault report returns a lane to service. -/
  | laneReturnTimer (lane : Nat)
  /-- LEG_LOF_TIMER (R421): No transmission for 20 µs on a leg enters dLOF. -/
  | legLofTimer (g leg : Nat)
  /-- PM_SECOND (R425): Each network second the leg's ES, SES, BBE and UAS are counted and bins roll over. -/
  | pmSecond (g leg corrected received : Nat)
  /-- SUSPEND_HOLD_EXPIRE (R424): After HOLD_S of suspension the sender releases every held frame. -/
  | suspendHoldExpire (g : Nat)
  /-- WTR_EXPIRE (R428): A leg clear for WTR_S becomes eligible, and the selected set may switch. -/
  | wtrExpire (g leg : Nat)
  /-- KEY_GRACE_EXPIRE (R420): The previous line association's grace ends and it is dropped. -/
  | keyGraceExpire (g : Nat)
  /-- DCC_FRAME_OUT (R430): At a DCC frame boundary the slip buffer outputs, repeats or drops a frame. -/
  | dccFrameOut (port : Nat)
  /-- SLF_RD_CLR (R432): A write of CLR to SLF.RD_SEL clears the selected group's counters. -/
  | slfRdClr (v : View) (w : Word)
  /-- KEX_OFFER (R443): An OFFER arrives and is answered with ACCEPT or REJECT. -/
  | kexOffer (l : Nat) (m : Bytes)
  /-- KEX_ACCEPT (R443): An ACCEPT arrives; the initiator installs keys, switches and sends CONFIRM. -/
  | kexAccept (l : Nat) (m : Bytes)
  /-- KEX_CONFIRM (R443): A CONFIRM arrives and the responder switches its transmission. -/
  | kexConfirm (l : Nat) (m : Bytes)
  /-- KEX_REJECT (R444): A REJECT arrives, and the initiator retries after 1 ms or with a larger epoch. -/
  | kexReject (l : Nat) (m : Bytes)
  /-- KEX_RESEND (R444): An unanswered OFFER or ACCEPT is resent, and ends as KEX_FAIL after 8 sends. -/
  | kexResend (l : Nat)
  /-- KEX_RETRY (R444): Every 1 s after KEX_FAIL a new exchange starts. -/
  | kexRetry (l : Nat)
  /-- REKEY_TIMER (R445): REKEY_S passes since the epoch began and an exchange starts. -/
  | rekeyTimer (l : Nat)
  /-- FAB_GRACE_EXPIRE (R446): FAB_GRACE_US after the first frame under the new association, the previous one retires. -/
  | fabGraceExpire (l : Nat)
  /-- LSC_STAT_CLR (R461): A write of CLR to LSC.STAT_SEL clears the selected link-security counter. -/
  | lscStatClr (v : View) (w : Word)
  /-- TIME_CAPTURE (R464): A write of CAPTURE to TIM.SNAP_CTRL latches the counter into the SNAP registers. -/
  | timeCapture (w : Word)
  /-- TIME_STEP_REQUEST (R470): A step request from the management domain is applied or becomes the jump candidate. -/
  | timeStepRequest (delta : Int)
  /-- PPS_IN_EDGE (R472): A rising edge on PPS_IN is stamped and latched. -/
  | ppsInEdge
  /-- PPS_OUT_PULSE (R472): NS passes 0 and PPS_OUT rises. -/
  | ppsOutPulse
  /-- PPS_OUT_FALL (R472): 100 ms after rising, PPS_OUT falls. -/
  | ppsOutFall
  /-- PTP_MESSAGE (R473): A PTP message reaches the PTP function and the servo acts on it. -/
  | ptpMessage (m : PtpMsg)
  /-- PTP_MASTER_LOST (R473): Every master is lost, so HOLDOVER is set and INC frozen. -/
  | ptpMasterLost
  /-- POWER_ESTIMATE (R480): Every 4 µs the estimator forms EST_W and the capping and slew loops set ISSUE. -/
  | powerEstimate (total bow stern : Nat)
  /-- VOLTAGE_STEP (R481): Every 1 ms of sustained excess or headroom the set point moves by 5 mV. -/
  | voltageStep
  /-- POWER_CALIBRATE (R478): Once per second the estimator gain is recalibrated against current sense. -/
  | powerCalibrate (measured estimated : Nat) (sensorFault : Bool)
  /-- THERMAL_LOOP (R487): Every 1 ms the thermal loop updates L_TH. -/
  | thermalLoop
  /-- UNIT_IDLE_NAP (R490): A unit idle for NAP_US begins entering NAP, or the entry is refused. -/
  | unitIdleNap (kind index : Nat)
  /-- UNIT_IDLE_OFF (R490): A unit idle for OFF_MS begins entering OFF or WATCH, or the entry is refused. -/
  | unitIdleOff (kind index : Nat)
  /-- UNIT_STATE_ENTERED (R489): A unit finishes entering or waking from a state after its latency. -/
  | unitStateEntered (kind index : Nat)
  /-- UNIT_WAKE (R490): An access or placement reaches a sleeping unit, which wakes or aborts its entry. -/
  | unitWake (kind index : Nat)
  /-- HBM_WATCH_SAMPLE (R494): An HBM stack in WATCH samples its temperature every 32 ms. -/
  | hbmWatchSample (stack : Nat) (temp : Int)
  /-- ALARM_FIRE (R495): An enabled alarm's time arrives, so it wakes its units and holds them. -/
  | alarmFire (a : Nat)
  /-- ALARM_HOLD_EXPIRE (R495): An alarm's hold time ends and its units may sleep again. -/
  | alarmHoldExpire (a : Nat)
  /-- PWR_UNIT_CLR (R499): A write of CLR to PWR.UNIT_SEL clears a unit's entry, refusal and abort counts. -/
  | pwrUnitClr (v : View) (w : Word)
  /-- MGC_HANG (R501): The acting core misses its heartbeat or fails its self-check, so the idle core takes over. -/
  | mgcHang (cause : Nat) (otherReady : Bool) (flash : Bytes)
  /-- MGC_START_RETRY (R503): Every 1 s with no acting core, the device retries starting each core. -/
  | mgcStartRetry (ok0 ok1 : Bool)
  /-- I3C_ADDRESS_ASSIGN (R505): SETDASA or ENTDAA assigns the I3C target a dynamic address. -/
  | i3cAddressAssign (addr : Nat) (ibi : Bool)
  /-- I3C_TRANSFER (R505): An I3C or I2C transfer reads or writes the register file from an index. -/
  | i3cTransfer (addr idx : Nat) (x : I3cData)
  /-- I3C_ALERT_ACK (R506): A write of 0xA5 to index 0x24 removes the oldest alert entry. -/
  | i3cAlertAck
  /-- MGE_FRAME_RECEIVE (R507): A management Ethernet frame is answered, served or dropped. -/
  | mgeFrameReceive (f : MgeFrame)
  /-- EVR_SUMMARY (R512): A token arrives for a code with suppressed records, and a SUMMARY record is written. -/
  | evrSummary (code : Nat)
  /-- EVR_PERSIST (R513): A persisted record's flash write completes. -/
  | evrPersist
  /-- JTAG_INSTRUCTION (R516): A JTAG instruction is loaded and allowed by the authorisation in force. -/
  | jtagInstruction (j : JtagInstr)
  /-- VIEW_REFRESH (R459): Every 1 ms the VF view values are refreshed. -/
  | viewRefresh
  /-- HEARTBEAT_SEND (R521): Every 100 µs each member sends HEARTBEAT to its watch set. -/
  | heartbeatSend (slot : Nat)
  /-- JUWESY_HEARTBEAT (R521): A HEARTBEAT arrives and the sender's liveness and pace are noted. -/
  | juwesyHeartbeat (src m : Bytes)
  /-- HEARTBEAT_MISS (R522): A watched member's heartbeat is missed, raising its score or leading to suspicion. -/
  | heartbeatMiss (slot m : Nat)
  /-- SUSPECT_RETRY (R522): No DECIDE within 500 µs sends the SUSPECT to the next coordinator. -/
  | suspectRetry (slot m : Nat)
  /-- JUWESY_SUSPECT (R523): A SUSPECT reaches the coordinator, which votes or decides. -/
  | juwesySuspect (src m : Bytes)
  /-- JUWESY_VOTE_REQ (R523): A VOTE_REQ arrives and is answered YES at once or held. -/
  | juwesyVoteReq (src m : Bytes)
  /-- VOTE_ANSWER_TIMEOUT (R523): 200 µs pass without the YES condition, so the voter answers NO. -/
  | voteAnswerTimeout (slot coord id : Nat)
  /-- JUWESY_VOTE (R523): A VOTE arrives, and a YES majority produces a decision. -/
  | juwesyVote (src m : Bytes)
  /-- VOTE_WAIT_EXPIRE (R523): VOTE_WAIT passes without a majority, and VOTE_FAILED is counted. -/
  | voteWaitExpire (slot id : Nat)
  /-- JUWESY_DECIDE (R524): A DECIDE arrives, is applied and forwarded down the dissemination tree. -/
  | juwesyDecide (src m : Bytes)
  /-- DECIDE_RESEND (R524): An unacknowledged DECIDE is resent every 100 µs, then to the grandchildren. -/
  | decideResend (slot coord id child : Nat)
  /-- JUWESY_DECIDE_ACK (R524): A DECIDE_ACK arrives from a child subtree. -/
  | juwesyDecideAck (src m : Bytes)
  /-- RECOVERY_QUIET_DONE (R528): Scope operations ended and QUIET_US passed, so the group returns to RUNNING. -/
  | recoveryQuietDone (slot : Nat)
  /-- HEALTH_UPDATE (R531): Every 1 ms health scores decay and add events, sending SUSPECT at the threshold. -/
  | healthUpdate
  /-- HOLD_RELEASE (R533): The blocking expulsion leaves its window, so held proposals are voted on and HOLD clears. -/
  | holdRelease (slot : Nat)
  /-- PROBE_SEND (R534): Every 100 µs in probation the device sends PROBE to its watch set. -/
  | probeSend (slot : Nat)
  /-- JUWESY_PROBE (R534): A PROBE arrives and is answered with PROBE_ACK, updating the probation score. -/
  | juwesyProbe (src m : Bytes)
  /-- JUWESY_PROBE_ACK (R534): A PROBE_ACK arrives at a device in probation. -/
  | juwesyProbeAck (src m : Bytes)
  /-- PROBATION_END (R535): PROB_S ends and the device sends SUSPECT with CAUSE PROBATION. -/
  | probationEnd (slot : Nat)
  /-- JUWESY_PACE (R537): A PACE announcement arrives, is forwarded and may set an adopted heat start. -/
  | juwesyPace (src m : Bytes)
  /-- FLT_STAT_CLR (R539): A write of CLR to FLT.STAT_SEL clears the selected fault-agreement counter. -/
  | fltStatClr (v : View) (w : Word)
  /-- THERMAL_CRITICAL_RELEASE (R488): TJ_MAX has been below 103 °C for 100 ms, so the THERMAL_CRITICAL limits on ISSUE and the set point are released. -/
  | thermalCriticalRelease
  /-- HEAT_END (R309): The last stroke of a heat ends at F(h): a pace announcement is sent, and an ENDING plan becomes FREE. -/
  | heatEnd (slot : Nat)
  /-- PACE_SECOND_SEND (R537): 50 µs after a pace announcement, it is sent a second time down the dissemination tree. -/
  | paceSecondSend
  /-- PROBATION_NO_DECISION (R535): No decision arrives within 2 × VOTE_WAIT after the probation SUSPECT, so the device stays FENCED and FLT_PROBATION completes OK with EXT 1. -/
  | probationNoDecision (slot : Nat)
  /-- HBM_TRAIN_DONE (R497): HBM4 stacks retrained after their rails return good, or after leaving OFF, finish training and return to service. -/
  | hbmTrainDone (stack : Option Nat) (failed : List Nat) (flash : Bytes)
  /-- CE_WINDOW_END (R149): The corrected-error window of WINDOW_MIN minutes ends, and the in-window counts (IN_WINDOW) start again. -/
  | ceWindowEnd (tier : Nat)
  /-- VF_ENABLE (R123): Host software enables or disables VFs through SR-IOV, which changes the enabled-VF state that HIF commits check. -/
  | vfEnable (count : Nat)
  /-- IDE_KM (R449): Host software installs or changes PCIe IDE stream keys over IDE_KM on DOE. -/
  | ideKm (stream keySet : Nat)
  /-- RAIL_GOOD_AT_POWER_UP (R40): A supply rail becomes good while PORST_N is asserted, and the rail monitors record its place in the order. -/
  | railGoodAtPowerUp (rail : Nat)
  /-- CONSOLE_LINE_SENT (R508): A console line finishes transmission on UART_TXD at 115,200 baud and frees its space in the 16 KiB buffer. -/
  | consoleLineSent
  deriving DecidableEq, Repr

end Sys2Proof
end

