-- ==== Sys2Proof/Decode.lean ====
section
/-!
DEFINITION. The command that a word of the table of operations and events spells. The table gives no row any bits: a
command reaches the block as a register access, a descriptor, a message or an event, never as a word.
-/

namespace Sys2Proof

/-- No word spells a command (notes/assumptions/143.md). -/
def decodeTableWord (_nbits _w : Nat) : Option Instr := none

end Sys2Proof
end

