-- ==== Sys2Proof/Config.lean ====
section
/-!
DEFINITION. What one device, its board and its image fix, and the values the manual leaves open. Every constant here
is opaque: nothing can evaluate it, and a statement that mentions one holds whatever its value is.
-/

namespace Sys2Proof

/-- A fresh value for each use of `State.fresh` (notes/assumptions/8.md): what the manual leaves undefined or does not state. -/
opaque Config.freeNat : Nat → Nat

/-- The fused 64-bit serial number (R434, `MGT.SERIAL_LO`). -/
opaque Config.serial : Nat

/-- The fused SHA3-512 digest of the vendor key (R69). -/
opaque Config.vendorKeyDigest : Bytes

/-- The fused SVN floor at manufacture (R70). -/
opaque Config.svnFloorAtManufacture : Nat

/-- The key root a device shares with the devices of its order (R433), the device-unique secret, the digest of the boot
ROM and the order number. -/
opaque Config.fleetRoot : Bytes
opaque Config.deviceSecret : Bytes
opaque Config.romDigest : Bytes
opaque Config.orderId : Nat

/-- The vendor's public key as the boot-time authorisation is checked (R516, notes/assumptions/27.md). -/
opaque Config.romVendorPk : Bytes

/-- The ML-DSA-87 public key of a seed (FIPS 204). -/
opaque Config.mldsaPk : Bytes → Bytes

/-- The MAC address of a fabric port (the manual gives no value). -/
opaque Config.portMac : Nat → Nat

/-- The IPv6 destination address of messages to a multicast group (R281 gives none). -/
opaque Config.mcastAddr : Nat → Bytes

/-- The interface speed of a DDR5 channel in MT/s, which its DIMMs give (R58). -/
opaque Config.ddrMts : Nat → Nat

/-- What a receiver measures of a lane's eye and signal-to-noise ratio: tick of the timing clock and electrical lane. -/
opaque Config.laneQuality : Nat → Nat → Nat

/-- A health score after one millisecond of decay (R531): half-life in seconds and the score in units of 2⁻¹⁶. The
manual gives the exact factor and no rounding; a score never rises by decay. -/
opaque Config.healthDecay : Nat → Nat → Nat

/-- A byte of device memory that nothing has written under the key it is read with (R436, R437). -/
opaque Config.memByte : Nat → Nat → Byte

/-- AES-256-XTS of a 64-byte data unit of device memory (IEEE 1619, R436): key, data-unit number, bytes; and its inverse. -/
opaque Config.memSeal : Nat → Nat → Bytes → Bytes
opaque Config.memOpen : Nat → Nat → Bytes → Bytes

/-- A byte the device has written in a layout the manual does not give: draw, key and address. -/
opaque Config.openByte : Nat → Nat → Nat → Byte

/-- SHA3-512 (FIPS 202). -/
opaque Config.sha3 : Bytes → Bytes

/-- SHAKE256 and KMAC256 outputs: key, customisation, message, output bytes (R434, R450). -/
opaque Config.kmac : Bytes → Bytes → Bytes → Nat → Bytes

/-- The 480-byte context state of the check-value engine after a message, and the message a state stands for (R453 gives the
state no layout; the second undoes the first). -/
opaque Config.engineState : Bytes → Bytes
opaque Config.engineMessage : Bytes → Bytes

/-- ML-DSA-87 verification (FIPS 204): public key, message, signature. -/
opaque Config.mldsaVerify : Bytes → Bytes → Bytes → Bool

/-- ML-DSA-87 signing: key, message. -/
opaque Config.mldsaSign : Bytes → Bytes → Bytes

/-- AES-256-GCM: key, nonce, associated data, plaintext gives ciphertext and tag in one run of bytes. -/
opaque Config.gcmSeal : Bytes → Bytes → Bytes → Bytes → Bytes

/-- AES-256-GCM opening: key, nonce, associated data, ciphertext and tag. -/
opaque Config.gcmOpen : Bytes → Bytes → Bytes → Bytes → Option Bytes

/-- Diagnostic bytes of an event record beyond the first eight of its DETAIL (R554 gives them no layout). -/
opaque Config.eventDiag : Nat → Bytes

end Sys2Proof
end

