-- ==== Sys2Proof/Machine/State.lean ====
section
/-!
DEFINITION. The state of the block as plain data: every register, queue, table, counter, mode and pin the manual gives
the device, by unit, and the queue of waiting commands. A field's default is its value at power-on reset.
-/

namespace Sys2Proof.Machine

/-! ### Shared shapes -/

/-- A finite map as a list of keys and values, at most one pair per key once written by `AMap.set`. -/
abbrev AMap (κ α : Type) := List (κ × α)

/-- The access code of a register field (R7). -/
inductive Acc where
  | ro | rw | w1c | wo | rws
  deriving DecidableEq, Repr

/-- The place of one 32-bit register: its block, its offset in the block's window, and the instance a window shows
(the ring behind `HIF.RING_CFG`, the channel behind `OPT.LANE_STATUS`); 0 for a register that has one instance. -/
structure RegKey where
  blk : Blk
  off : Nat
  inst : Nat
  deriving DecidableEq, Repr

/-- `COMMIT_STATUS.RESULT` (R86 to R92). -/
inductive CommitResult where
  | idle | checking | accepted | refused | empty
  deriving DecidableEq, Repr

/-- The commit registers of one block as one requester sees them (R85: the management domain has its own copy; a
virtual function has those at 0xD000 of its BAR2). -/
structure CommitPort where
  /-- `COMMIT_MASK`. -/
  mask : Nat := 0
  /-- `COMMIT_CTRL.READ_SEL`: true reads the shadow copies (R88). -/
  readSel : Bool := false
  /-- `COMMIT_STATUS.RESULT`. -/
  result : CommitResult := .idle
  /-- `COMMIT_STATUS.ERR_GROUP`. -/
  errGroup : Nat := 0
  /-- `COMMIT_STATUS.ERR_CODE`. -/
  errCode : Nat := 0
  /-- `COMMIT_STATUS.SEQ`. -/
  seq : Nat := 0
  /-- `COMMIT_ERR_FIELD.OFFSET`. -/
  errOff : Nat := 0
  /-- `COMMIT_ERR_FIELD.FIELD_LSB`. -/
  errLsb : Nat := 0
  /-- The mask and the shadow copies captured at GO, while RESULT is CHECKING (R87). -/
  captured : Option (Nat × AMap Nat Word) := none
  /-- `COMMIT_PENDING`: each pending group with its captured values, by register offset. -/
  pend : AMap Nat (AMap Nat Word) := []
  /-- `ACCESS_ERR.SIZE`. -/
  errSize : Bool := false
  /-- `ACCESS_ERR.RO_WRITE`. -/
  errRoWrite : Bool := false
  /-- `ACCESS_ERR.GO_LOST`. -/
  errGoLost : Bool := false
  /-- `ACCESS_ERR.COUNT`, saturating at 0xFFFF. -/
  errCount : Nat := 0
  deriving DecidableEq, Repr

/-- The set-up register space (R79 to R96). A register that is not listed holds its reset value. -/
structure RegFile where
  /-- Register contents; for RWS registers the live copies, one per instance. -/
  live : AMap RegKey Word := []
  /-- Shadow copies of RWS registers; the instance is 0, or the number of the virtual function whose window it is. -/
  shadow : AMap RegKey Word := []
  /-- The commit registers by requester and block. -/
  ports : AMap (View × Blk) CommitPort := []
  deriving DecidableEq, Repr

/-! ### Start-up, rails and management -/

/-- Where the ROM waits for a recovery image (R72). -/
inductive RecovWait where
  | none | pcie | mge
  deriving DecidableEq, Repr

/-- What the device keeps of a firmware image it has accepted (R69, R70, R454). -/
structure ImageInfo where
  gen : Nat := 0
  svn : Nat := 0
  buildId : Nat := 0
  len : Nat := 0
  prefixDigest : Bytes := []
  vendorPk : Bytes := []
  /-- SHA3-512 of its cox firmware section. -/
  coxDigest : Bytes := []
  /-- Its lane calibration section, which holds the presets of the electrical transmit equalisers (R175). -/
  laneCal : Bytes := []
  deriving DecidableEq, Repr

/-- Start-up, rails, straps, recovery and update (Package, Signals and Fibres; Start-up, Identity and Update). -/
structure BootState where
  /-- PORST_N is asserted. -/
  porst : Bool := true
  /-- Rails in range, in the order in which they became good at power-up; rail r as in the rail table (R39, R40). -/
  railOrder : List Nat := []
  /-- Rails declared faulted in service (R497). -/
  railFaults : List Nat := []
  /-- The rail monitors saw the HBM rails out of order (R40). -/
  railSequenceBad : Bool := false
  /-- A failure code of R65 holds start-up until a power cycle. -/
  stopped : Bool := false
  /-- The thermal trip is latched: regulators off, domains isolated, THERMTRIP_N asserted (R43). -/
  thermTrip : Bool := false
  /-- Die readings at or above 115 °C in a row (R488). -/
  tripReadings : Nat := 0
  /-- The identity registers read the fused serial; false under FUSE_FAULT (R65). -/
  identity : Bool := true
  /-- Where the ROM waits for a recovery image (R72). -/
  recov : RecovWait := .none
  /-- The peer of a TFTP transfer under way (R73). -/
  tftpPeer : Option Nat := .none
  /-- FLASH_KEEP was issued (R74). -/
  flashKeep : Bool := false
  /-- The running image, the image the device started with, and in-service updates since reset (R457). -/
  running : ImageInfo := {}
  bootImage : ImageInfo := {}
  updates : Nat := 0
  /-- BOOT_NONCE (R434). -/
  bootNonce : Bytes := []
  /-- The image as the ROM verified it, in the bow die's working store until stage HBM (R69, R70). -/
  workImage : Bytes := []
  /-- The bytes of the running image held in the trusted region (R70). -/
  trustedImage : Bytes := []
  /-- The trusted copy is intact (R152, R497). -/
  trustedGood : Bool := false
  /-- The device-unique secret, memory key root and fleet link root are locked against reads (R71). -/
  secretsLocked : Bool := false
  /-- Steps of the fused SVN floor blown since manufacture; the floor is the larger of both (R70). -/
  svnBlown : Nat := 0
  /-- The update journal is open (R75): one of its entries is. -/
  journalOpen : Bool := false
  /-- Its open entries: block index and SHA3-512 digest of the new block. -/
  journal : List (Nat × Bytes) := []
  /-- The image staged by an update and its bytes (R76). -/
  staged : Option ImageInfo := .none
  stagedImage : Bytes := []
  /-- The UPDATE_STAGE descriptor that started the update. -/
  updateOp : Option OpKey := .none
  /-- The coxes still to reload in the rotation, in order (step 3). -/
  rotation : List Nat := []
  /-- The journalled rewrite: next 64 KiB block and attempts made on it (R75). -/
  flashBlock : Nat := 0
  flashTries : Nat := 0
  flashActive : Bool := false
  deriving DecidableEq, Repr

/-- One management-domain sensor reading (R504): the value in its unit, and whether it is marked FAULT. -/
structure SensorVal where
  value : Int := 0
  fault : Bool := false
  deriving DecidableEq, Repr

/-- One record of the event record (R510). -/
structure EvRecord where
  code : Nat
  severity : Nat
  blk : Nat
  instance_ : Nat
  seq : Nat
  sec : Nat
  ns : Nat
  persisted : Bool := false
  summary : Bool := false
  lateDetail : Bool := false
  suppressed : Nat := 0
  /-- The first eight bytes of DETAIL, little-endian (R554). -/
  detail : Nat := 0
  /-- Detail bytes beyond the first eight that the manual defines. -/
  more : Bytes := []
  deriving DecidableEq, Repr

/-- The management subsystem (chapter Management Subsystem and Event Record). -/
structure MgmtState where
  /-- No management core acts (R503). -/
  down : Bool := false
  /-- Readings by kind and index (R504). -/
  sensors : AMap (Nat × Nat) SensorVal := []
  /-- Unacknowledged alerts, oldest first: code and SEQ (R506). -/
  alerts : List (Nat × Nat) := []
  /-- ALERT_SEV (index 0x25 of the I3C register file; 3 at reset). -/
  alertSev : Nat := 3
  /-- The dynamic I3C address, once assigned (R505). -/
  i3cDyn : Option Nat := .none
  /-- In-band interrupts are enabled (R506). -/
  ibiEnabled : Bool := false
  /-- Lengths of the console lines waiting in the 16 KiB buffer (R508). -/
  console : List Nat := []
  /-- Records of fault decisions that fell in a handover of the management core, with their time stamps: the new core
  writes them (R31). -/
  deferred : List EvRecord := []
  /-- The present token nonce, 32 bytes (R515). -/
  nonce : Bytes := []
  /-- The global IPv6 address of the management port, set by the management domain (R507). -/
  mgeGlobal : Option Nat := .none
  /-- Peers being served the running image by TFTP (R507). -/
  mgePeers : List Nat := []
  /-- The instruction loaded in the JTAG port (R516). -/
  jtag : Option JtagInstr := .none
  /-- Set once any test access was accepted (R457, R516). -/
  testBit : Bool := false
  /-- ARB_BOUND_EXCEEDED events since reset (R457). -/
  arbExceeded : Nat := 0
  deriving DecidableEq, Repr

/-- The token bucket of one event code (R512): tokens in units of 10⁻⁹ token at the given uptime. -/
structure EvBucket where
  tokens : Nat
  at_ : Nat
  suppressed : Nat := 0
  deriving DecidableEq, Repr

/-- The event recorder (R510 to R514). -/
structure EvrState where
  /-- Records in the on-die ring, oldest first. -/
  ring : List EvRecord := []
  /-- SEQ of the next record; records count from 1. -/
  nextSeq : Nat := 1
  buckets : AMap Nat EvBucket := []
  /-- Records waiting in the persist buffer for flash (R513). -/
  persistQ : List EvRecord := []
  /-- Records persisted in the flash ring, oldest first. -/
  flashRecs : List EvRecord := []
  /-- SEQ of the next record to mirror into the EVM ring (R122). -/
  mirrorSeq : Nat := 1
  deriving DecidableEq, Repr

/-! ### Host interface -/

/-- One notification entry (the entry layout before R118). -/
structure Notif where
  code : Nat
  severity : Nat
  blk : Nat
  instance_ : Nat
  seq : Nat
  detail : Nat
  deriving DecidableEq, Repr

/-- What a completion entry says before it is written (the completion table). -/
structure Completion where
  tag : Nat := 0
  status : Nat := 0
  zeroCount : Bool := false
  ext : Nat := 0
  seg : Nat := 0
  value : Nat := 0
  deriving DecidableEq, Repr

/-- A wake-up word of an intake: the ring and its priority (R107). -/
structure IntakeWord where
  ring : Nat
  prio : Nat
  deriving DecidableEq, Repr

/-- The intake of one queue set (R107 to R110). HELD and UNDERRUN stand in `DBQ.INTAKE_STATUSn`. -/
structure Intake where
  fill : List IntakeWord := []
  drain : List IntakeWord := []
  bank : Nat := 0
  last : Option IntakeWord := .none
  deriving DecidableEq, Repr

/-- A chunk entry or run entry owed to a completion ring (R294, R103). -/
structure Owed where
  ring : Nat
  slot : Nat
  comp : Completion
  irq : Bool := false
  deriving DecidableEq, Repr

/-- The run-time state of one ring. Its configuration stands in the HIF registers of that instance. -/
structure Ring where
  enabled : Bool := false
  /-- Kind fixed when the ring was enabled. -/
  kind : Nat := 0
  /-- DEV_INDEX of RING_STATUS. -/
  dev : Nat := 0
  /-- Tail of a submission ring, head of a CQ or EVM ring: what host software last wrote. -/
  host : Nat := 0
  fault : Bool := false
  dbRange : Bool := false
  dbDisabled : Bool := false
  cqFull : Bool := false
  /-- Phase bit of the CQ ring's present pass. -/
  phase : Bool := true
  /-- Slots taken and not yet completed, oldest first. -/
  taken : List Nat := []
  /-- Slots not taken when the ring was disabled, to complete ABORTED in ring order (R104): each with how many taken slots
  stand before it. -/
  aborted : List (Nat × Nat) := []
  /-- Descriptors read again from a slot whose earlier operation has not completed (R106), oldest first; an empty one
  could not be read. -/
  again : List (Nat × Bytes) := []
  /-- Entries owed to this completion ring besides completions, oldest first. -/
  owed : List Owed := []
  /-- The completed-up-to index (R21). -/
  completedUpTo : Nat := 0
  /-- The order in which rings were enabled (R119). -/
  enabledAt : Nat := 0
  /-- NQ banks. -/
  nqFill : List Notif := []
  nqDrain : List Notif := []
  nqLast : Option Notif := .none
  /-- SEQ of the next notification meant for the queue. -/
  nqSeq : Nat := 0
  /-- The value latched in POP_HI. -/
  popHi : Nat := 0
  nqUnderrun : Bool := false
  nqCorrected : Nat := 0
  nqDropped : Nat := 0
  /-- The vector has been sent and no pop has found the queue empty since (R121). -/
  nqSignalled : Bool := false
  deriving DecidableEq, Repr

/-- Why an operation's current segment is held (R136, R138, R143). -/
inductive Hold where
  | none
  /-- A device-memory translation fault: domain, DVA, access was a write. -/
  | devFault (dom dva : Nat) (write : Bool)
  /-- A page request is outstanding: host address, for a write. -/
  | pri (addr : Nat) (write : Bool)
  /-- A page request waits for one of the 512 to finish. -/
  | priWait (addr : Nat) (write : Bool)
  /-- Waiting for the class's data or for the next step of its own protocol. -/
  | other
  deriving DecidableEq, Repr

/-- The progress of an operation. -/
inductive OpPhase where
  /-- Taken, not started. -/
  | taken
  /-- Started and not ended. -/
  | running
  /-- Ended; its completion waits for its turn (R111). -/
  | done (c : Completion)
  deriving DecidableEq, Repr

/-- An entry of the data path's operation table (R114), with the index of its current segment (R139). -/
structure Op where
  key : OpKey
  /-- The function that submitted it: 0 the PF, n virtual function n. -/
  fn : Nat
  /-- The descriptor's 64 bytes as the device read them. -/
  desc : Bytes
  phase : OpPhase := .taken
  /-- Segments committed. -/
  seg : Nat := 0
  hold : Hold := .none
  /-- The operation ends at its next segment boundary with this status (R99, R134). -/
  endWith : Option Nat := .none
  /-- Its ring was reset under it (R99): it ends without a completion. -/
  lost : Bool := false
  /-- The domain its descriptor names was not enabled when a cox took it (R134). -/
  dark : Bool := false
  deriving DecidableEq, Repr

/-- An entry of a function's MSI-X table (R97): address, data and mask, as PCIe lays it out (notes/assumptions/150.md). -/
structure MsixEntry where
  addrLo : Word := 0
  addrHi : Word := 0
  data : Word := 0
  masked : Bool := true
  deriving DecidableEq, Repr

/-- Host interface: rings, intakes, the operation table and functions (chapter Host Interface). -/
structure HifState where
  rings : AMap Nat Ring := []
  intakes : AMap Nat Intake := []
  ops : AMap OpKey Op := []
  /-- Rings enabled so far, for `Ring.enabledAt`. -/
  enables : Nat := 0
  /-- Functions in D3hot (R98); 0 is the PF. -/
  d3hot : List Nat := []
  /-- Virtual functions enabled through SR-IOV (R123). -/
  vfs : List Nat := []
  /-- MSI-X messages withheld: function and vector (R98). -/
  msixHeld : List (Nat × Nat) := []
  /-- The MSI-X tables: function and vector. -/
  msixTab : AMap (Nat × Nat) MsixEntry := []
  /-- The pending-bit arrays: functions and vectors whose message waits for its mask. -/
  msixPending : List (Nat × Nat) := []
  /-- READY waits for a PF NQ ring (R119), with its DETAIL. -/
  readyWaits : Option Nat := .none
  /-- IDE streams and the key set each uses (R449). -/
  ide : AMap Nat Nat := []
  deriving DecidableEq, Repr

/-! ### Coxes and rigs -/

/-- A reload under way on a cox (R23): attempts that have failed, and the requests that wait for its end. -/
structure Reload where
  failed : Nat := 0
  waiters : List OpKey := []
  /-- The reload belongs to the in-service update's rotation. -/
  rotation : Bool := false
  deriving DecidableEq, Repr

/-- The coxes (R21 to R25). Roles and queue sets stand in `DBQ.COX_STATUSn`. -/
structure CoxState where
  reloads : AMap Nat Reload := []
  /-- Coxes with a self-check under way (R22). -/
  checking : List Nat := []
  /-- SHA3-512 of the cox firmware section each cox runs (R457). -/
  firmware : AMap Nat Bytes := []
  deriving DecidableEq, Repr

/-! ### Time, power and temperature -/

/-- The time unit (R462 to R473). TRACK, the candidate's count and the step counts stand in `TIM.STATUS`, the
candidate in `TIM.JUMP_CAND_LO/HI`, the snapshot and PPS latches in their registers. -/
structure TimeState where
  /-- SEC, 48 bits. -/
  sec : Nat := 0
  /-- NS, 0 to 999,999,999. -/
  ns : Nat := 0
  /-- FRAC and the 16 further fraction bits: units of 2⁻³² ns. -/
  frac : Nat := 0
  /-- Ticks of the 1.25 GHz timing clock since PORST_N deasserted: the model's uptime. -/
  ticks : Nat := 0
  /-- Consecutive requests applied with |Δ| ≤ JUMP_NS while in ACQUIRE (R469). -/
  consistApplied : Nat := 0
  /-- PPS_OUT is high (R472). -/
  ppsOut : Bool := false
  /-- Uptime in ns of the last accepted PPS_IN edge. -/
  ppsLast : Option Nat := none
  /-- Ports with a PTP master in sight (R473). -/
  ptpMasters : List Nat := []
  deriving DecidableEq, Repr

/-- The last HBM, die and engine temperatures and the loops' variables (R477 to R488). -/
structure PowerState where
  /-- The calibration gain G (R478). -/
  gain : Rat := 1
  /-- Calibrations failed in a row, and passed in a row (R478). -/
  calFails : Nat := 0
  calPasses : Nat := 0
  /-- P_C of each die in mW (R477). -/
  pcBow : Nat := 0
  pcStern : Nat := 0
  /-- P_C of each die at its last announcement in mW (R485). -/
  annBow : Nat := 0
  annStern : Nat := 0
  /-- The slew ceiling C in mW and the allowance A in nJ; 0.125 J at power-on reset (R484). -/
  ceiling : Nat := 0
  allowance : Nat := 125000000
  /-- ISSUE_CAP and ISSUE_SLEW of the last interval (R480, R484). -/
  issueCap : Nat := 256
  issueSlew : Nat := 256
  /-- L_TH in W; 2,200 at power-on reset (R487). -/
  lth : Rat := 2200
  /-- L_TH lies below CAP_W and THERMAL_LIMIT was recorded (R487). -/
  thermalLimited : Bool := false
  /-- THERMAL_CRITICAL holds (R488). -/
  critical : Bool := false
  /-- How far LIMIT has moved the set point below its target, in mV (R481). -/
  cut : Nat := 0
  /-- 4 µs intervals in a row with ISSUE at 32 and EST_W above LIMIT, less 250 for each step of the set point (R481). -/
  overFor : Nat := 0
  /-- 4 µs intervals in a row with EST_W at least 20 W below LIMIT, less 250 for each step (R481). -/
  underFor : Nat := 0
  /-- 4 µs intervals in a row at the lowest set point, ISSUE 32 and above LIMIT (R482). -/
  unreachFor : Nat := 0
  /-- 4 µs intervals in a row with a throttling condition of R483 met. -/
  throttleFor : Nat := 0
  /-- Stacks, DIMMs and engine cases over their warning thresholds (R488). -/
  hbmHot : List Nat := []
  dimmHot : List Nat := []
  oeHot : List Nat := []
  /-- Engines tripped under R488. -/
  oeTrip : List Nat := []
  /-- The HBM rails are good again and the stacks are training (R497). -/
  hbmTrain : Bool := false
  /-- Units held by a UNIT_POWER target: kind, index and target (R492). -/
  forced : AMap (Nat × Nat) Nat := []
  /-- UNIT_POWER requests waiting for their unit to reach its target. -/
  forcedWait : AMap (Nat × Nat) OpKey := []
  /-- The state a unit is ENTERING, by kind and index (R489). -/
  entering : AMap (Nat × Nat) Nat := []
  /-- Units in an alarm's hold time: alarm, kind and index (R495). -/
  held : List (Nat × Nat × Nat) := []
  /-- Alarms armed by commit and not yet fired (R495). -/
  armed : List Nat := []
  /-- Arbiters: the class-C-or-N grants in a row over a waiting lower request, and the port last granted in each class,
  by resource and instance (R56, R57). -/
  arbPassed : AMap (Nat × Nat) Nat := []
  arbLast : AMap (Nat × Nat × Nat) Nat := []
  deriving DecidableEq, Repr

/-! ### Device memory -/

/-- The key a data unit of memory was written under (R436). -/
inductive MemKey where
  /-- K_TRUST: the trusted region. -/
  | trust
  /-- K_PHYS: identity domains, page-table walks and areas reached by DPA. -/
  | phys
  /-- K_DOM: a translation domain in one epoch (R437). -/
  | dom (d epoch : Nat)
  deriving DecidableEq, Repr

/-- A retirement queued or running (R151 to R154). -/
structure Retire where
  unit : MemUnit
  /-- The request that asked for it; none for a permanent fault. -/
  op : Option OpKey := none
  /-- It is the drain of a DDR_DOMAIN off request. -/
  drain : Bool := false
  /-- It has entered RETIRING and has its destination. -/
  running : Bool := false
  /-- The spare that takes an HBM pseudo-channel's place; the channel that takes the extent under copy. -/
  dest : Nat := 0
  /-- The media extent of that channel taken for it, and the place in the rotation from which the next one is looked for. -/
  media : Option Nat := none
  rot : Nat := 0
  /-- Blocks of 64 KiB copied: the watermark of the pseudo-channel, or of the extent under copy. -/
  mark : Nat := 0
  /-- DDR5 extents still to copy, the first under copy. -/
  extents : List Nat := []
  /-- It holds for want of free media extents (R153). -/
  held : Bool := false
  deriving DecidableEq, Repr

/-- Corrected-error counts of one position (R149): since power-up and in the present window, and whether it has declared a
permanent fault in this window. -/
structure CeCount where
  total : Nat := 0
  inWindow : Nat := 0
  declared : Bool := false
  deriving DecidableEq, Repr

/-- A cached translation of one 64 KiB page (Translation). -/
structure TlbEntry where
  dpa : Nat
  read : Bool
  write : Bool
  deriving DecidableEq, Repr

/-- The memory tiers and the MMU (chapter HBM4 and DDR5 Tiers). -/
structure MemState where
  /-- Device memory: DPA and byte, addresses strictly rising. Only bytes the device has written are listed; an
  unlisted byte has no value of the model's and reads as an open value (notes/assumptions/18.md). -/
  cells : List Host.Cell := []
  /-- The key of each 64-byte data unit written, by DPA / 64 (R436). -/
  keys : AMap Nat MemKey := []
  /-- Extents zero-filled under K_PHYS by DDR_EXTENT, by DPA / 1 GiB (R130). -/
  zeroed : List Nat := []
  /-- Ranges the device filled with bytes the manual does not spell, newest first: DPA, length, draw (notes/assumptions/67.md). -/
  opened : List (Nat × Nat × Nat) := []
  /-- EPOCH of each domain (R437). -/
  epochs : AMap Nat Nat := []
  /-- The media pseudo-channel bound to each logical slot of each die (R125). -/
  slotsBow : List Nat := []
  slotsStern : List Nat := []
  /-- Media pseudo-channels held as spares and carrying the trusted region. -/
  spares : List Nat := []
  trusted : List Nat := []
  /-- The state of a unit as `ERR_READ.STATE` numbers it. -/
  unitState : AMap MemUnit Nat := []
  /-- GiB on each DDR5 channel as trained. -/
  chanGib : AMap Nat Nat := []
  /-- The media extent bound to each backed DPA extent: channel and index on it (R128). -/
  extents : AMap Nat (Nat × Nat) := []
  /-- DDR_DOMAIN on requests whose channel is training (R155). -/
  training : AMap Nat (Option OpKey) := []
  /-- Further requests to turn on a channel that trains: channel and request. -/
  trainWaits : List (Nat × OpKey) := []
  /-- Corrected errors by unit and position (R149). -/
  ce : AMap (MemUnit × Nat) CeCount := []
  /-- Retirements, in the order in which they were asked for (R154). -/
  retires : List Retire := []
  /-- Lost ranges by tier: first 64 KiB block and count (R152). -/
  lostHbm : List (Nat × Nat) := []
  lostDdr : List (Nat × Nat) := []
  /-- The HBM rails have faulted and the stacks are not trained again yet (R497). -/
  hbmReset : Bool := false
  /-- Cached translations by domain and 64 KiB page. -/
  tlb : AMap (Nat × Nat) TlbEntry := []
  /-- Cached ATS translations: function and 4 KiB page (R136). -/
  ats : List (Nat × Nat) := []
  deriving DecidableEq, Repr

/-! ### Setts, queues, the switch core, ports and link protection -/

/-- An allocated sett (R184): the requester charged with it and its reference count. -/
structure Sett where
  req : Nat
  refs : Nat
  deriving DecidableEq, Repr

/-- A raised minimum that still lacks setts on a die (R189): the minimum before and after the raise, and how many of its extra
setts are still to be set aside. -/
structure Lack where
  req : Nat
  die : Nat
  old : Nat
  top : Nat
  n : Nat
  deriving DecidableEq, Repr

/-- The sett pool (R179 to R190). USED, PEAK, REFUSED and CORRUPT stand in the `SETT.STAT_*` registers of each
requester, REF_FAULTS in `SETT.POOL_STATUSn`. -/
structure SettState where
  /-- Allocated setts by number: die × 786,432 + index within the die. -/
  setts : AMap Nat Sett := []
  /-- The free list of each die: setts freed, oldest first, after the setts never used from `nextBow`, `nextStern` on. -/
  freedBow : List Nat := []
  freedStern : List Nat := []
  nextBow : Nat := 0
  nextStern : Nat := 0
  /-- Raised minimums that still lack setts, in the order in which their commits were accepted. -/
  lacks : List Lack := []
  /-- Setts that have returned to each die's free list so far: the model's own count, by which it sees that a free has come
  for what waits for one (R187). -/
  freesBow : Nat := 0
  freesStern : Nat := 0
  deriving DecidableEq, Repr

/-- A packet's colour (R220). -/
inductive Colour where
  | green | yellow | red
  deriving DecidableEq, Repr

/-- What the lane logic inserts into a leaving PTP message (R467). -/
inductive OneStep where
  | none
  | sync
  /-- A Pdelay_Resp, with the receive stamp of the request it answers. -/
  | pdelayResp (rx : Nat)
  deriving DecidableEq, Repr

/-- A departure in an output queue: the stored frame from destination address to the byte before the FCS, the setts it
shares, and what the scheduler needs. -/
structure Dep where
  frame : Bytes
  setts : List Nat := []
  colour : Colour := .green
  /-- Tick of the timing clock at which it was enqueued. -/
  at_ : Nat := 0
  /-- Where its EtherType stands, and the PCP of its innermost tag, as the parser found them (R191). -/
  ether : Nat := 12
  pcp : Option Nat := none
  /-- A departure of a multicast copy (R207). -/
  multi : Bool := false
  /-- The frame was forwarded, so its hop limit falls at departure (R197); false for frames the device makes. -/
  forwarded : Bool := true
  /-- A launch time in ns of network time (R468). -/
  launch : Option Nat := none
  oneStep : OneStep := .none
  deriving DecidableEq, Repr

/-- An output queue, numbered port × 8 + TC: its departures, average depth (R208), shaper (R225, R553), deficit (R227)
and tags (R228; E in ns of uptime). -/
structure OutQ where
  deps : List Dep := []
  avg : Rat := 0
  /-- CREDIT in units of 2⁻¹⁰ byte; at its burst of 64 setts at power-on reset. -/
  credit : Int := 16777216
  rem : Nat := 0
  deficit : Int := 0
  startTag : Rat := 0
  finishTag : Rat := 0
  eligible : Rat := 0
  deriving DecidableEq, Repr

/-- A two-rate policer (R220, R221, R553): its buckets in units of 2⁻¹⁰ byte and their remainders. -/
structure Policer where
  tc : Nat := 0
  tp : Nat := 0
  rc : Nat := 0
  rp : Nat := 0
  deriving DecidableEq, Repr

/-- What a fabric port keeps besides its queues. -/
structure PortState where
  up : Bool := false
  /-- Virtual times of classes T and C (R228). -/
  vT : Rat := 0
  vC : Rat := 0
  /-- D of R201 in units of 2⁻⁸ ns, the last sojourn of the present 1 µs window, and the far queue delay in ns. -/
  delay : Nat := 0
  sojourn : Option Nat := none
  far : Nat := 0
  /-- Grants to class C or N in a row that passed over a waiting lower class (R57, R224). -/
  passed : Nat := 0
  /-- The queue served last in each class N and B, for deficit round robin (R227). -/
  lastN : Nat := 7
  lastB : Nat := 7
  /-- Plan slots that hold output reservations here (R222). -/
  gates : List Nat := []
  /-- Queues named by the reserved window that is open, and its slot. -/
  window : List Nat := []
  windowSlot : Nat := 0
  /-- The first frame of the open window is still to be launched, at this network time (R468). -/
  windowFirst : Option Nat := none
  deriving DecidableEq, Repr

/-- Link-level retry of one port (R248 to R250). -/
structure Llr where
  /-- The neighbour's INIT has been seen. -/
  active : Bool := false
  /-- LSN of the next frame sent, and the tagged frames held: LSN, frame and setts. -/
  txNext : Nat := 0
  held : List (Nat × Bytes × List Nat) := []
  /-- Replays in a row without progress. -/
  replays : Nat := 0
  /-- LSN expected next; a NAK has been sent for it; frames accepted since the last ACK. -/
  rxNext : Nat := 0
  naked : Bool := false
  sinceAck : Nat := 0
  deriving DecidableEq, Repr

/-- The switch core with its ports and queues (chapters Switch Core, and Queues, Shapers and Policers). -/
structure SwcState where
  /-- Live tables: table code and key, and the record as the rig gave it (R198). -/
  tab : AMap (Nat × Nat) Bytes := []
  /-- PTR by ingress pipeline, under its requester's number (R181), and spray group (R200). -/
  ptr : AMap (Nat × Nat) Nat := []
  /-- Buckets whose CUR bit is 1, by spray group (R203). -/
  cur : AMap Nat (List Nat) := []
  /-- Keys of the bypass-pair entries in force (R212). -/
  bypassed : List Nat := []
  /-- The port groups that each of them marked when it took effect. -/
  bypassMarks : AMap Nat (List Nat) := []
  /-- Ends of bypasses under way (R213): the request, the pair's port groups and those not returned yet. -/
  returns : AMap OpKey (List Nat × List Nat) := []
  queues : AMap Nat OutQ := []
  ports : AMap Nat PortState := []
  policers : AMap Nat Policer := []
  llr : AMap Nat Llr := []
  deriving DecidableEq, Repr

/-- A security association of a link (R439, R443): its key and salt, and its packet numbers: the next to send, or the
highest received plus one. -/
structure Assoc where
  an : Nat
  key : Bytes
  pn : Nat := 1
  deriving DecidableEq, Repr

/-- A key exchange under way (R443, R444). -/
structure Kex where
  initiator : Bool
  epoch : Nat
  nonceI : Bytes
  nonceR : Bytes := []
  peer : Bytes := []
  /-- The message last sent, and how often. -/
  msg : Bytes := []
  sends : Nat := 1
  deriving DecidableEq, Repr

/-- Link protection of one link, numbered as `LSC.STAT_SEL.LINK` (R439 to R448). -/
structure SecLink where
  epoch : Nat := 0
  /-- No exchange has completed since the link came up. -/
  first : Bool := true
  tx : Option Assoc := none
  rx : Option Assoc := none
  prev : Option Assoc := none
  /-- A responder's transmit association until it switches (step 4). -/
  txNext : Option Assoc := none
  /-- A frame has authenticated under the current receive association. -/
  rxUsed : Bool := false
  /-- Association numbers retired since the link came up. -/
  retired : List Nat := []
  kex : Option Kex := none
  /-- An exchange fell due while the line group was suspended (R445). -/
  due : Bool := false
  /-- The exchange failed and is tried every second (R444). -/
  failed : Bool := false
  /-- The last exchange completed as initiator and its CONFIRM, for a repeated ACCEPT. -/
  lastConfirm : Bytes := []
  /-- REKEY_S as it stood when the present epoch began (R460). -/
  rekey : Nat := 0
  deriving DecidableEq, Repr

/-! ### Optical port groups and electrical lanes -/

/-- A use of the spare in the order of precedence of R171. -/
inductive SpareUse where
  | cover | feed | retire | feather
  deriving DecidableEq, Repr

/-- A lane that holds or wants the spare: its use, the lane and the channel it left or should leave. -/
structure SpareNeed where
  use : SpareUse
  lane : Nat
  chan : Nat
  deriving DecidableEq, Repr

/-- A remap under way (R169): asked for by this end, which then waits for the answer, or by the far end. -/
structure Remap where
  lane : Nat
  src : Nat
  dst : Nat
  mcnt : Nat
  asked : Bool := true
  acked : Bool := false
  deriving DecidableEq, Repr

/-- One direction of a port group: which lane each channel carries (31 none), the spare channel (31 none), the lane that
holds the spare and those that wait for it, lanes whose own channel works again and that wait to be moved back, and the
remap under way. Direction tx is bound by this device, rx by the far transmitter. -/
structure OptDir where
  bind : List Nat := [0, 1, 2, 3, 4, 5, 6, 7, 8, 9, 10, 11, 12, 13, 14, 15, 31]
  spare : Nat := 16
  holder : Option SpareNeed := none
  waiting : List SpareNeed := []
  back : List SpareNeed := []
  remap : Option Remap := none
  deriving DecidableEq, Repr

/-- What a channel keeps besides its `OPT.LANE_*` registers. -/
structure OptChan where
  /-- Good and bad markers in a row (R160). -/
  good : Nat := 0
  bad : Nat := 0
  /-- Markers in a row whose CHAN differs, and that CHAN (R170). -/
  foreign : Nat := 0
  foreignChan : Nat := 0
  /-- OPG and GROUP_TAG of the last good marker, its LCC word, LANE and MCNT, and its skew in units of 0.1 ns. -/
  far : Option (Nat × Nat) := none
  lcc : Nat := 0
  lane : Nat := 31
  mcnt : Nat := 0
  skew : Nat := 0
  /-- The BIP of the last lane frame as received (R159), and markers in a row that did not show it. -/
  bip : Option Nat := none
  bipBad : Nat := 0
  /-- The receive ring's loop has declared its lock (R165). -/
  rxRing : Bool := false
  /-- The receive lane the channel carried last. -/
  lastLane : Nat := 31
  /-- Heater codes calibrated for the channel and present, of the receive ring; the transmit ring's present code stands
  in LANE_STATUS. -/
  rxCal : Nat := 0
  rxHeater : Nat := 0
  /-- Updates in a row inside the lock bound and outside the loss bound, transmit and receive ring (R165). -/
  txIn : Nat := 0
  txOut : Nat := 0
  rxIn : Nat := 0
  rxOut : Nat := 0
  /-- Sweeps of each ring without a lock (R166). -/
  txSweeps : Nat := 0
  rxSweeps : Nat := 0
  acquireFail : Bool := false
  /-- Bits received and bits corrected while the channel carried a lane, since its last calibration (R172). -/
  bits : Nat := 0
  corrected : Nat := 0
  /-- Code words and uncorrectable ones in the present second (R173), and that second's start in ns of uptime. -/
  words : Nat := 0
  bad1s : Nat := 0
  since : Nat := 0
  /-- R173 holds: over threshold with no spare. -/
  noSpare : Bool := false
  deriving DecidableEq, Repr

/-- An LCC message not yet acknowledged (R164). -/
structure LccMsg where
  typ : Nat
  seq : Nat
  arg : Nat
  deriving DecidableEq, Repr

/-- A port group (R156 to R174). Its state, spare and ports stand in `OPT.PG_STATUS`. -/
structure OptGroup where
  tx : OptDir := {}
  rx : OptDir := {}
  chans : AMap Nat OptChan := []
  /-- SEQ of the next LCC message, the messages not acknowledged, and the (TYPE, SEQ) pairs acted on, newest first. -/
  lccSeq : Nat := 0
  lccOut : List LccMsg := []
  lccSeen : List (Nat × Nat) := []
  /-- Comb lines below the laser-feed threshold (R36, R37). -/
  low : List Nat := []
  /-- Samples in a row above the loss-of-light threshold (R493). -/
  light : Nat := 0
  /-- Calibration of the spare: under way, ended here, and CAL_DONE received from the far end (R168). -/
  calibrating : Bool := false
  calHere : Bool := false
  calFar : Bool := false
  /-- Channels a receive alias covers, with the offset to relock by: channel and CHAN received. -/
  aliases : List (Nat × Nat) := []
  /-- Lanes reported down (R171). -/
  lanesDown : List Nat := []
  /-- The last 58 scrambled bits received on each lane (R157). -/
  scr : AMap Nat Nat := []
  deriving DecidableEq, Repr

/-- The receive stream of an optical port (R162): lane frames by number whose lanes are not all in yet (a byte of an
uncorrectable code word is none), the stream bytes not yet taken, whether it hunts for headers; frames dropped because they
touched an uncorrectable code word (R158), and frames dropped at the intake of a pipeline that cannot keep up (R52). -/
structure PortStream where
  rows : List (Nat × AMap Nat (List (Option Byte))) := []
  buf : List (Option Byte) := []
  hunting : Bool := false
  macDrops : Nat := 0
  overruns : Nat := 0
  deriving DecidableEq, Repr

/-- The optical engines and electrical lanes. A lane's state stands in `ELN.LANE_STATUS`. -/
structure LaneState where
  groups : AMap Nat OptGroup := []
  /-- Receive streams by optical port. -/
  streams : AMap Nat PortStream := []
  /-- Training failures in a row by electrical lane (R177). -/
  trainFails : AMap Nat Nat := []
  deriving DecidableEq, Repr

/-! ### Exact reduction -/

/-- The four ways an accumulator works (R257, R260). -/
inductive Mode where
  | wide
  | narrow
  | integer
  | ordered
  deriving DecidableEq, Repr

/-- One accumulator: FIELD and its flags. In integer mode `nan` is INVALID; in ordered mode FIELD is the FP32 code of
ACC. -/
structure Accum where
  field : Int := 0
  nan : Bool := false
  pinf : Bool := false
  ninf : Bool := false
  deriving DecidableEq, Repr

/-- A valid specifier, with FWD's default resolved. -/
structure RSpec where
  mode : Mode
  stochastic : Bool
  result : Nat
  fwd : Nat
  deriving DecidableEq, Repr


/-! ### Transport contexts -/

/-- A DATA packet a context has sent and that is not acknowledged (R244): header bytes 20 to 39, payload, the setts of
its hold, uptimes in ns of its first sending and last resend, and what the peer said of it. -/
structure SentPkt where
  psn : Nat
  head : Bytes
  payload : Bytes
  /-- The UDP destination port it was sent to, which a resend keeps (R245). -/
  dport : Nat
  setts : List Nat := []
  at_ : Nat
  last : Option Nat := none
  once : Bool := true
  sacked : Bool := false
  /-- NOT_YET answers so far, and whether a backoff runs (R246, R291). -/
  notYets : Nat := 0
  backoff : Bool := false
  deriving DecidableEq, Repr

/-- A DATA packet waiting to be sent: header bytes 20 to 39, its payload, and the setts of a payload that is forwarded
without a copy (R275). -/
structure SendItem where
  head : Bytes
  payload : Bytes
  setts : List Nat := []
  deriving DecidableEq, Repr

/-- An accepted packet of a contribution: its elements and their bytes (R242). -/
structure Piece where
  off : Nat
  count : Nat
  fmt : Nat
  data : Bytes
  setts : List Nat
  deriving DecidableEq, Repr

/-- Where a contribution belongs: operation key, chunk and member. -/
structure CKey where
  group : Nat
  seq : Nat
  chunk : Nat
  member : Nat
  deriving DecidableEq, Repr

/-- The run-time state of a transport context that is OPEN or FAILED (R236, R245). Its record stands in the rig table
0x20. -/
structure Ctx where
  failed : Bool := false
  /-- `CTX_STATUS.REASON`. -/
  reason : Nat := 0
  sndUna : Nat := 0
  sndNxt : Nat := 0
  sent : List SentPkt := []
  queue : List SendItem := []
  rcvNxt : Nat := 0
  /-- PSNs received above RCV_NXT. -/
  rcvMap : List Nat := []
  /-- DATA packets accepted since the last ACK. -/
  sinceAck : Nat := 0
  /-- SRTT and RTTVAR in ns, none before the first sample; RTO in ns, none for RTO_MIN_US. -/
  rtt : Option (Rat × Rat) := none
  rto : Option Rat := none
  retry : Nat := 0
  partials : AMap CKey (List Piece) := []
  /-- Reservations of active plans that pin it (R239). -/
  pins : Nat := 0
  deriving DecidableEq, Repr

/-- A datagram that waits in its setts for a context record (R238). -/
structure WaitPkt where
  ctx : Nat
  datagram : Bytes
  setts : List Nat
  deriving DecidableEq, Repr

/-- A frame of the device's own that waits for setts: the requester charged, and the context it was sent on, if any. -/
structure Parked where
  req : Nat
  ctx : Option Nat := none
  /-- Where its spray pointer and counters stand, and its traffic class. -/
  pipe : Nat
  tc : Nat
  /-- The multicast group it goes to; none for a route lookup. -/
  mcast : Option Nat := none
  frame : Bytes
  deriving DecidableEq, Repr

/-- What waits because an allocation was refused: it is retried at the next free on its die (R187). It is a frame of the device's
own, the next DATA packet of a context, a packet that a context resends, or the outputs of a complete chunk, whose bay is held
until they stand in setts (R279), with the bytes of a BROADCAST's contribution. -/
inductive Waiting where
  | output (group seq chunk : Nat) (data : Bytes)
  | own (p : Parked)
  | data (ctx : Nat)
  | resend (ctx psn : Nat)
  deriving DecidableEq, Repr

/-- Transport (chapter Transport Contexts). -/
structure TptState where
  ctxs : AMap Nat Ctx := []
  /-- Cached contexts of each die, least recently used first (R238). -/
  cacheBow : List Nat := []
  cacheStern : List Nat := []
  /-- Datagrams that wait for a fetch, oldest first. -/
  waiting : List WaitPkt := []
  parked : List Waiting := []
  deriving DecidableEq, Repr

/-! ### Collectives and the bench -/

/-- A complete contribution (R242): where it belongs, the context it came on, its packets, and the network time in ns
at which it became complete. -/
structure Contrib where
  key : CKey
  ctx : Nat
  pieces : List Piece
  at_ : Nat
  deriving DecidableEq, Repr

/-- An open bay (R272): its chunk, accumulators, the members whose arrival bit is set with the network time of their
contributions, and how many contributions it has taken. -/
structure Bay where
  chunk : Nat
  accs : List Accum := []
  arrived : List (Nat × Nat) := []
  count : Nat := 0
  deriving DecidableEq, Repr

/-- A spilled bay: its chunk and arrivals, its slot in the spill area, and whether it has left the bench. -/
structure Spilled where
  chunk : Nat
  arrived : List (Nat × Nat)
  slot : Nat
  count : Nat
  written : Bool := false
  deriving DecidableEq, Repr

/-- Where a dynamic operation stands (R288, R289). -/
inductive AdmitState where
  | wait
  | admitted
  deriving DecidableEq, Repr

/-- An operation known to the collectives unit (R275, R283, R284). -/
structure CollOp where
  group : Nat
  seq : Nat
  code : Nat
  spec : Option RSpec
  chunks : Nat
  param : Nat
  /-- The planned operation's slot, heat and index in the operation table (R303); none for a dynamic one. -/
  plan : Option (Nat × Nat × Nat) := none
  /-- The stroke and the entry of the bench reservation that put a planned operation into the operation table (R251). -/
  catch_ : Option (Nat × Nat) := none
  /-- Its present segment index (R139): contributions taken so far. -/
  seg : Nat := 0
  /-- The COLL descriptor of a dynamic operation. -/
  desc : Option OpKey := none
  fn : Nat := 0
  domain : Nat := 0
  log : Nat := 0
  spill : Nat := 0
  entries : Bool := false
  chunkCq : Nat := 0
  /-- Format code of its results; for BROADCAST, of the last contribution. -/
  fmt : Nat := 0
  /-- Window after clamping, and bays granted on each die (R288). -/
  window : Nat := 0
  grantBow : Nat := 0
  grantStern : Nat := 0
  admission : AdmitState := .wait
  /-- Next unopened chunk of each die, for a dynamic operation (R278). -/
  nextBow : Nat := 0
  nextStern : Nat := 1
  bays : List Bay := []
  spilled : List Spilled := []
  /-- Bays being written out: the accumulators stand here until SPILL_DONE. -/
  leaving : List Bay := []
  /-- Chunks complete, and chunks done (R279). -/
  complete : List Nat := []
  done : List Nat := []
  /-- Chunks whose partial sum waits for the parent's RESULT, with the queries sent (R282). -/
  queries : AMap Nat Nat := []
  /-- Result-log writes held by a translation fault: chunk and bytes. -/
  logHeld : List (Nat × Bytes) := []
  /-- A spill or restore of the operation is held by a translation fault (R289). -/
  areaHeld : Bool := false
  /-- Network time in ns since which it waits, waits so far, and times spilled (R294). -/
  since : Nat := 0
  waited : Nat := 0
  spills : Nat := 0
  /-- It ends with this status when the spill in progress completes (R293). -/
  ending : Option Nat := none
  deriving DecidableEq, Repr

/-- What the device keeps of an operation that counts as done, for queries (R282). -/
structure PastOp where
  seq : Nat
  code : Nat
  fmt : Nat
  domain : Nat
  log : Nat
  done : List Nat
  deriving DecidableEq, Repr

/-- The watermark of a group (R287): DONE_SEQ + 1, the done operations above it, and the operations that counted as
done last, newest first. -/
structure GroupState where
  doneNext : Nat := 0
  doneAbove : List Nat := []
  past : List PastOp := []
  deriving DecidableEq, Repr

/-- A lateness record of one member in a watch slot (R296): its bins, MAX_NS and LAST_COUNT. -/
structure LateRec where
  bins : List Nat := []
  maxNs : Nat := 0
  last : Nat := 0
  deriving DecidableEq, Repr

/-- What an ended plan still holds until its last operations complete (R317): its binary, their keys, the contexts pinned. -/
structure PlanRest where
  bin : Bytes
  keys : List (Nat × Nat)
  ctxs : List Nat
  deriving DecidableEq, Repr

/-- The collectives unit and the bench (chapter Collectives and the Bench). -/
structure ColState where
  ops : AMap (Nat × Nat) CollOp := []
  groups : AMap Nat GroupState := []
  /-- Complete contributions that wait in their setts, in the order in which they became complete (R242, R263, R315). -/
  held : List Contrib := []
  /-- Lateness records by watch slot and member. -/
  late : AMap (Nat × Nat) LateRec := []
  /-- Planned bays that wait for granules or lines: key and chunk, in order (R314). -/
  bayWaits : List (Nat × Nat × Nat) := []
  /-- Ended plans whose operations have not all completed (R317). -/
  rests : List PlanRest := []
  /-- Operations of the outer-round unit that have ended and are not yet acted on: group, sequence number, status. -/
  outerEnded : List (Nat × Nat × Nat) := []
  /-- Uptime in ns of the first WINDOW answer of a stall, by context, and whether the stall has been counted. -/
  windowSince : AMap Nat (Nat × Bool) := []
  deriving DecidableEq, Repr

/-! ### Code tables and expanders -/

/-- A code-table slot of one die (R354, R355): 0 FREE, 1 LOADED, 2 RETIRING; SIZE 0, 1, 2, or 3 for none; its levels in
code order; blocks naming it that are queued at the expanders of its die. -/
structure CodeTable where
  st : Nat := 0
  size : Nat := 3
  levels : List Nat := []
  count : Nat := 0
  deriving DecidableEq, Repr

/-- What queued a block (R360): the run of a program context, or a transfer with expansion. -/
inductive Consumer where
  | run (ctx : Nat)
  | xfer (op : OpKey)
  deriving DecidableEq, Repr

/-- A block queued at an expander: for whom, its bytes, its index (in the stream; in the segment for a transfer), the address
it was read from, and the stream header's DVA and RUBBLE_MAX. -/
structure QBlock where
  who : Consumer
  block : Bytes
  idx : Nat
  at_ : Nat := 0
  hdr : Nat := 0
  max : Nat := 1024
  deriving DecidableEq, Repr

/-- Expanded values that wait for their consumer: expander, index, 512 bytes of BF16, rubble; the addresses of the block and of its
stream's header, and the block's length. -/
structure Expanded where
  x : Nat
  idx : Nat
  vals : Bytes
  rubble : Bool
  at_ : Nat := 0
  hdr : Nat := 0
  len : Nat := 0
  deriving DecidableEq, Repr

/-- Ashlar expansion (chapter Ashlar Blocks and Code Tables). An expander is numbered die × 18 + k, with k 0 to 7 the
B-port, 8 to 15 the bench-input and 16 and 17 the transfer-input expanders. -/
structure AshState where
  slots : AMap (Nat × Nat) CodeTable := []
  queues : AMap Nat (List QBlock) := []
  ready : AMap Consumer (List Expanded) := []
  /-- Rubble blocks expanded by expander, context, stream header and aligned run (R364), by index. -/
  rubble : AMap (Nat × Nat × Nat × Nat) (List Nat) := []
  deriving DecidableEq, Repr


/-! ### Race plans -/

/-- What stands of a plan entry of the present stroke that has fired (R304, R311). -/
inductive EntryState where
  /-- The RIG entry waits for a rig that is SUBMITTED or VALID. -/
  | waits (ring slot : Nat)
  | satisfied
  deriving DecidableEq, Repr

/-- A plan slot (R299 to R317). Its counters stand in `PLN.SLOT_STAT`. -/
structure PlanSlot where
  /-- 0 FREE, 1 STAGED, 2 ACTIVE, 3 ENDING. -/
  st : Nat := 0
  /-- The plan binary, as it was checked (R300). -/
  bin : Bytes := []
  replaces : Option Nat := none
  /-- When it was staged, network time in ns. -/
  stagedAt : Nat := 0
  /-- H(0), the present heat's index and start. -/
  h0 : Nat := 0
  heat : Nat := 0
  heatStart : Nat := 0
  /-- A heat runs; false in the slack strokes before the next heat. -/
  inHeat : Bool := false
  /-- The present stroke and its start A(h, s); none before the heat's first stroke has started. -/
  stroke : Nat := 0
  strokeStart : Option Nat := none
  /-- H(h + 1) as the last heat's end gave it. -/
  next : Nat := 0
  /-- The present heat is late (R308), and the largest lateness in ns. -/
  late : Bool := false
  lateNow : Nat := 0
  lateMax : Nat := 0
  /-- Entries of the present stroke that have fired, by entry index. -/
  fired : AMap Nat EntryState := []
  /-- Starts adopted under R310, by heat. -/
  adopted : AMap Nat Nat := []
  /-- Pace announcements acted on, by heat (R537). -/
  paceSeen : List Nat := []
  /-- Why an ENDING slot ends (the cause of PLAN_ENDED). -/
  endCause : Nat := 0
  deriving DecidableEq, Repr

/-! ### Tensor fabric -/

/-- A requested run (R334, R335). -/
structure Run where
  /-- Slot, heat, stroke and entry index of the PROG entry that made it. -/
  plan : Option (Nat × Nat × Nat × Nat) := none
  /-- The rig descriptor that carried its run record, its CQ ring and TAG. -/
  rig : Option OpKey := none
  cq : Option Nat := none
  tag : Nat := 0
  /-- The outer-round shard slot and step that requested it. -/
  outer : Option (Nat × Nat) := none
  fn : Nat := 0
  domain : Nat := 0
  params : Bytes := []
  /-- Its catch time, network time in ns. -/
  at_ : Nat := 0
  /-- Discarded by an unload or a restart: it completes ABORTED in its turn. -/
  discard : Bool := false
  /-- It holds its entry of the operation table (R251, R334). -/
  inTable : Bool := true
  deriving DecidableEq, Repr

/-- A tensor bay (R328): how it accumulates, its accumulators, contributions since its last CLEAR. -/
structure TBay where
  mode : Mode
  accs : List Accum
  count : Nat := 0
  deriving DecidableEq, Repr

/-- A program context (R333). -/
structure TCtx where
  /-- 0 EMPTY, 1 RESIDENT, 2 WAITING, 3 RUNNING, 4 SAVED, 5 HELD. -/
  st : Nat := 0
  cont : Bytes := []
  fn : Nat := 0
  domain : Nat := 0
  saveAddr : Nat := 0
  saveLen : Nat := 0
  /-- The present run and those behind it. -/
  cur : Option Run := none
  queue : List Run := []
  /-- 0 bow, 1 stern, 2 both, 3 none; and where it last ran. -/
  die : Nat := 3
  lastDie : Nat := 3
  /-- The matrix units and tiles it holds while placed: kind 0 or 1, and number (R490, R491). -/
  units : List (Nat × Nat) := []
  /-- Placements so far, for the order in which contexts were placed; uptime in ns of the present run's placement and of
  its first placement. -/
  placed : Nat := 0
  placedAt : Nat := 0
  firstAt : Option Nat := none
  /-- The context must be saved at its next group commit, or is being saved or restored, and for a class T run. -/
  preempt : Bool := false
  saving : Bool := false
  /-- The draw of the last save, whose bytes stand in the save area. -/
  saved : Option Nat := none
  restoring : Bool := false
  forT : Bool := false
  /-- A translation fault or page request of the run is outstanding (R340). -/
  hold : Hold := .none
  /-- Instances committed and the body of the next instance. -/
  groups : Nat := 0
  body : Nat := 0
  runCount : Nat := 0
  /-- An unload waits for the run to end; a restart waits for its next group commit. -/
  unload : Bool := false
  restart : Bool := false
  /-- The working-store image: die × 2²⁶ + offset, nonzero bytes only; with `imageOpen`, an unlisted byte is an open
  value of that draw (the save area was changed from outside, or could not be read). -/
  image : List Host.Cell := []
  imageOpen : Option Nat := none
  /-- FP32 accumulators of its matrix units, lane registers of its tiles, and its tensor bays. -/
  mu : AMap Nat (List Nat) := []
  tiles : AMap (Nat × Nat × Nat) Nat := []
  bays : AMap Nat TBay := []
  deriving DecidableEq, Repr

/-- The tensor fabric (chapter Tensor Fabric and Matrix Units). -/
structure TfbState where
  ctxs : AMap Nat TCtx := []
  /-- The context placed last in class N on each die, for round robin. -/
  lastBow : Nat := 63
  lastStern : Nat := 63
  placements : Nat := 0
  /-- Runs of outer rounds that have ended and are not yet acted on: shard slot, step, status. -/
  outerEnded : List (Nat × Nat × Nat) := []
  deriving DecidableEq, Repr

/-! ### Fault agreement -/

/-- Whom a health score is kept for (R531). -/
inductive Subject where
  | member (slot m : Nat)
  | port (p : Nat)
  | self
  deriving DecidableEq, Repr

/-- A health score (R531): S in units of 2⁻¹⁶, the weights of the present millisecond, events that count in lots
(link-level replays, uncorrectable code words, overruns), and whether the SUSPECT for it has been sent. -/
structure Health where
  score : Nat := 0
  adds : Nat := 0
  replays : Nat := 0
  words : Nat := 0
  overruns : Nat := 0
  sent : Bool := false
  deriving DecidableEq, Repr

/-- A proposal: what a SUSPECT carries (R520). KIND 1 is a link. -/
structure Proposal where
  sender : Nat
  subject : Nat
  link : Bool
  cause : Nat
  port : Nat
  score : Nat
  /-- Network time in ns at which the SUSPECT arrived. -/
  at_ : Nat := 0
  deriving DecidableEq, Repr

/-- A decision: the body of DECIDE with its coordinator. -/
structure Decision where
  coord : Nat
  voteId : Nat
  subject : Nat
  action : Nat
  link : Bool
  port : Nat
  epoch : Nat
  deriving DecidableEq, Repr

/-- A vote a coordinator runs, with the voters that answered YES. -/
structure VoteRun where
  id : Nat
  prop : Proposal
  voters : List Nat
  yes : List Nat := []
  deriving DecidableEq, Repr

/-- A vote request not answered yet: coordinator, vote, subject, cause. -/
structure Ballot where
  coord : Nat
  id : Nat
  subject : Nat
  cause : Nat
  deriving DecidableEq, Repr

/-- A decision on its way down the dissemination tree: children that have not acknowledged, with the sends so far, and
the parent to acknowledge to. -/
structure Spread where
  dec : Decision
  children : List (Nat × Nat)
  parent : Option Nat
  deriving DecidableEq, Repr

/-- What a member knows of another member (R521 to R525). -/
structure Member where
  fenced : Bool := false
  probation : Bool := false
  throttled : Bool := false
  issue : Nat := 256
  minPace : Nat := 0
  gen : Nat := 0
  /-- Network time in ns of its last heartbeat. -/
  heard : Option Nat := none
  /-- Heartbeats missed in a row. -/
  missed : Nat := 0
  /-- A SUSPECT for it is under way: the coordinators tried. -/
  suspect : Option (List Nat) := none
  /-- It had set FENCED_YOU; and it is fenced and has sent a heartbeat since the last one sent to it. -/
  fencedYou : Bool := false
  fencedAsk : Bool := false
  /-- The probation score in units of 2⁻¹⁶, and probes heard. -/
  probScore : Nat := 0
  probHeard : Option Nat := none
  deriving DecidableEq, Repr

/-- An agreement group (R518 to R537). Its record stands in the rig table 0x70. -/
structure FltGroup where
  /-- 1 FORMING, 2 RUNNING, 3 RECOVERING, 4 FENCED, 5 PROBATION. -/
  st : Nat := 1
  epoch : Nat := 0
  hold : Bool := false
  heldProps : List Proposal := []
  /-- The decision that set HOLD, and, at its coordinator, when the oldest expulsion that blocked the budget leaves its
  window, in ns of network time. -/
  holder : Option Decision := none
  holdUntil : Nat := 0
  coord : Nat := 0
  hbSeq : Nat := 0
  nextVote : Nat := 0
  members : AMap Nat Member := []
  votes : List VoteRun := []
  ballots : List Ballot := []
  spreads : List Spread := []
  /-- The last 64 decisions received with the network time in ns at which they were. -/
  record : List (Nat × Decision) := []
  applied : List Decision := []
  /-- Network time in ns at which the last restart was applied, and that decision. -/
  restartAt : Nat := 0
  restart : Option Decision := none
  /-- FLT_PROBATION under way: the request, its end in ns of network time, probes sent, and the SUSPECT's time. -/
  probOp : Option OpKey := none
  probEnd : Nat := 0
  probSeq : Nat := 0
  probAsked : Bool := false
  /-- The highest epoch seen in a header for which a RESTART was asked (R529). -/
  asked : Nat := 0
  /-- Pace announcements received: PLAN_SET_ID and HEAT (R537). -/
  paceSeen : List (Nat × Nat) := []
  deriving DecidableEq, Repr

/-- The fault-agreement unit (chapter Fault Agreement and Job Recovery). -/
structure FltState where
  groups : AMap Nat FltGroup := []
  /-- Fabric ports marked FENCED. -/
  fenced : List Nat := []
  health : AMap Subject Health := []
  /-- The chassis serial an LLDP neighbour gave, by port (R191, R525). -/
  lldp : AMap Nat Nat := []
  /-- Pace announcements to send a second time: slot of the group and the message body (R537). -/
  paceAgain : List (Nat × Bytes) := []
  /-- Ports fenced by a FENCE_LINK that named this device, with the group's slot; since when in ns of network time such a
  port's score has been low with its link up; weights of the present millisecond for probation, by fenced port (R534,
  R535). -/
  linkFence : AMap Nat Nat := []
  low : AMap Nat Nat := []
  fencedAdds : AMap Nat Nat := []
  /-- Contexts on which a stall on WINDOW has reached 1 ms and is not counted yet (R531). -/
  stalled : List Nat := []
  deriving DecidableEq, Repr

/-! ### Outer rounds -/

/-- What a shard knows of a site (R384, R394): reachable in the open round; its parameter digest differed; what its last
header of the open round showed (STATE, FRONTIER, one more than HIGH_DIGESTED, ROSTER); its RC and the frontiers of other
rounds it has shown; its FINAL; whether it is excluded; and uptime in ns of the last answer to it. -/
structure OutSite where
  reach : Bool := false
  differs : Bool := false
  st : Nat := 0
  frontier : Nat := 0
  high : Nat := 0
  roster : Nat := 0
  rc : Nat := 0
  fronts : AMap Nat Nat := []
  final : Option Bytes := none
  excluded : Bool := false
  answered : Option Nat := none
  deriving DecidableEq, Repr

/-- A fetch of a piece under way (R391): the round wanted, the digest agreed for it where one is, the sites to ask, the one
asked at their head, the step that goes on afterwards, and whether the piece commits in the open round with it. -/
structure OutFetch where
  want : Nat
  digest : Option Bytes
  sites : List Nat
  resume : Nat
  commits : Bool := false
  deriving DecidableEq, Repr

/-- A piece that is not at rest, or whose record has changed since the catch (R374, R389): the slot the piece map binds,
the round, epoch and roster of its last commit and the digest it committed with; its state as `PIECE_STATUS` codes it; and
while it is in flight: the spare slot, the work slot, the half step of DELTA and STEP, the epoch it is exchanged under, the
local digest, the runs repeated, and the fetch. -/
structure OutPiece where
  slot : Nat
  round : Nat := 0
  epoch : Nat := 0
  mask : Nat := 0
  digest : Bytes := []
  st : Nat := 0
  spare : Option Nat := none
  work : Option Nat := none
  half : Nat := 0
  xEpoch : Nat := 0
  own : Option Bytes := none
  repeats : Nat := 0
  fetch : Option OutFetch := none
  /-- A block of it failed check 1 or 2 (R361). -/
  lost : Bool := false
  deriving DecidableEq, Repr

/-- A vote heard (R387): voter, proposer, epoch, mask, first piece. -/
structure OutVote where
  voter : Nat
  proposer : Nat
  epoch : Nat
  mask : Nat
  first : Nat
  deriving DecidableEq, Repr

/-- What headers say of a round completed here (R384): round, parameter digest, pieces, one more than the highest piece a
DIGEST was sent for, final epoch and roster. -/
structure OutPast where
  round : Nat
  digest : Bytes
  committed : Nat
  sentTop : Nat
  epoch : Nat
  roster : Nat
  deriving DecidableEq, Repr

/-- A shard slot (R372 to R399). Its record stands in the rig table 0x60. -/
structure OutShard where
  st : Nat := 0
  /-- The round open or last completed, RC, and the round left incomplete (R398) or ended outside (R395). -/
  round : Nat := 0
  rc : Nat := 0
  incomplete : Option Nat := none
  outside : Option Nat := none
  /-- The OPEN, while it has not completed; the function that submitted it; its descriptor; it waits for START. -/
  openOp : Option OpKey := none
  fn : Nat := 0
  desc : Bytes := []
  waiting : Bool := false
  digest : Bytes := []
  /-- The fixed epoch, its roster, the rosters of the round with their epochs and first pieces, newest first. -/
  epoch : Nat := 0
  roster : Nat := 0
  rosters : List (Nat × Nat × Nat) := []
  /-- The highest epoch seen, votes heard, the local site's own among them, and the own proposal not fixed yet. -/
  seen : Nat := 0
  votes : List OutVote := []
  proposed : Option Nat := none
  sites : AMap Nat OutSite := []
  /-- Pieces with a record of their own; any other piece is at rest in the slot of its number since the catch. -/
  pieces : AMap Nat OutPiece := []
  spares : List Nat := []
  works : List Nat := []
  /-- Delta slots that are free, and those held: piece and site, with the slot and the epoch. -/
  dfree : List Nat := []
  deltas : AMap (Nat × Nat) (Nat × Nat) := []
  /-- Deltas to ask for again: piece and site. -/
  missed : List (Nat × Nat) := []
  /-- Digests heard in the round: piece and site, with the epoch. -/
  heard : AMap (Nat × Nat) (Nat × Bytes) := []
  /-- One more than the highest piece a DIGEST was sent for in the round. -/
  sentTop : Nat := 0
  /-- Pieces committed and fetched in the round, and the shard digest of the last completed round. -/
  committed : Nat := 0
  fetched : Nat := 0
  shardDigest : Bytes := []
  /-- The rounds completed, which headers of sites that lag are answered for (R384). -/
  past : List OutPast := []
  /-- An EXCLUDE that completes after the broadcast, a FETCH under way with its pieces still to broadcast, and whether
  the last round's pieces were left unbroadcast by an ABANDON (R396, R398). -/
  excludeOp : Option OpKey := none
  fetchOp : Option OpKey := none
  toCast : List Nat := []
  unsent : Bool := false
  deriving DecidableEq, Repr

/-- The outer-round unit (chapter Outer Rounds Across Sites). -/
structure OuterState where
  shards : AMap Nat OutShard := []
  deriving DecidableEq, Repr


/-! ### Rigs -/

/-- When a rig goes live (R17, R311): once STAGED, at a network time in ns, or at a RIG entry of a plan slot. -/
inductive RigCatch where
  | commit
  | time (ns : Nat)
  | plan (slot : Nat)
  deriving DecidableEq, Repr

/-- A rig (chapter Device Overview): its descriptor, its place in the order of submission and of validation, its state
(1 VALID, 2 STAGED, 3 LIVE), its catch, its records and the containers and plans copied for them by record index, the rigs
it depends on, the bypass pair an internal rig marks (R212), and, while LIVE, the entries it set that no later rig has
replaced. -/
structure Rig where
  key : OpKey
  order : Nat
  judged : Nat := 0
  st : Nat := 1
  catch_ : RigCatch
  id : Nat
  fn : Nat
  domain : Nat
  recs : List Bytes
  blobs : AMap Nat Bytes := []
  deps : List Nat := []
  bypass : Option Nat := none
  own : List (Nat × Nat) := []
  deriving DecidableEq, Repr

/-- Rigs VALID, STAGED or LIVE, and rigs and validations so far. -/
structure RigState where
  rigs : List Rig := []
  orders : Nat := 0
  judged : Nat := 0
  /-- The rig log of each function and the rigs of it that have gone LIVE (R457). -/
  logs : AMap Nat (Bytes × Nat) := []
  deriving DecidableEq, Repr

/-- The check-value engine (R450): what each check transfer under way has taken in since its last value. -/
structure KmcState where
  chain : AMap OpKey Bytes := []
  deriving DecidableEq, Repr

/-- The tenants' view of the counters (R459): the registers as they stood at the last refresh, the lateness records and plan
slots then, the network time in ms, and the power estimate as last shown. -/
structure ViewState where
  snap : AMap RegKey Word := []
  late : AMap (Nat × Nat) LateRec := []
  plans : AMap Nat PlanSlot := []
  stamp : Nat := 0
  power : Nat := 0
  powerAt : Nat := 0
  /-- The bins of each leg's monitor then, by group and leg: the counts, and the bins that are SUSPECT. -/
  pm : AMap (Nat × Nat) (AMap (Nat × Nat) Nat × List Nat) := []
  /-- `VIEW_SEL` of each virtual function. -/
  sel : AMap Nat Word := []
  deriving DecidableEq, Repr


/-! ### Line groups -/

/-- Where an object's bytes after its header come from (R416, R419): the source of a LINE_SEND, bytes of the outer-round
unit, or a run of bytes of a domain that follows some bytes. -/
inductive LineSrc where
  | op (k : OpKey)
  | bytes (b : Bytes)
  | mem (dom dva : Nat)
  deriving DecidableEq, Repr

/-- A LINE entry of a plan that waits (R418): slot, heat, stroke, entry. -/
abbrev PlanRef := Nat × Nat × Nat × Nat

/-- An object queued to be sent (R416, R418): its header, the bytes after it, the frames sent so far, its OBJ_SEQ once
begun, and whether a LINE entry has released it, and which. -/
structure LineObj where
  header : Bytes
  len : Nat
  src : LineSrc
  frames : Nat := 0
  seq : Nat := 0
  released : Bool := false
  ref : Option PlanRef := none
  /-- The setts that hold it until its last frame is sent (R339). -/
  setts : List Nat := []
  deriving DecidableEq, Repr

/-- A DATA frame held in a TX window slot (R411): its frame counter, body, association and queue, its object's LINE_SEND,
uptimes in ns of its first sending and last resend. -/
structure TxFrame where
  fsn : Nat
  body : Bytes
  an : Nat
  op : Option OpKey
  at_ : Nat
  last : Option Nat := none
  /-- Its slot was lost under R152. -/
  lost : Bool := false
  deriving DecidableEq, Repr

/-- A body held in an RX window slot: its frame counter, content header fields and plaintext. -/
structure RxFrame where
  fsn : Nat
  queue : Nat
  sof : Bool
  eof : Bool
  seq : Nat
  data : Bytes
  deriving DecidableEq, Repr

/-- A multiframe under assembly (R409, R427): when its first transmission arrived, the bodies present by position, the
positions seen on each leg, the highest NEXT_FSN its transmissions carried, and whether it has been decoded. -/
structure RxMf where
  at_ : Nat
  bodies : AMap Nat Bytes := []
  seenA : List Nat := []
  seenB : List Nat := []
  next : Nat := 0
  decoded : Bool := false
  /-- Its allowance has passed: its positions alone are remembered. -/
  expired : Bool := false
  deriving DecidableEq, Repr

/-- An object being received on a queue: its OBJ_SEQ, the bytes received so far (kept whole for the outer-round unit and for
packets), how many, the buffer it goes to, and whether it is being discarded. -/
structure RxObj where
  seq : Nat
  bytes : Bytes := []
  got : Nat := 0
  buf : Option OpKey := none
  discard : Bool := false
  deriving DecidableEq, Repr

/-- What a leg's monitor knows of one second not yet settled (R425): the second, errored blocks, whether it was severely
errored, and whether it was errored. -/
structure SecRec where
  sec : Nat
  ebs : Nat
  ses : Bool
  es : Bool
  deriving DecidableEq, Repr

/-- A leg: its sending rotation, its defects with what their entry and exit count (R421), and its monitor (R425, R426). -/
structure LineLeg where
  /-- The lane sent on last, by lane number + 1; 0 none. -/
  rot : Nat := 0
  los : Bool := false
  lof : Bool := false
  lom : Bool := false
  ais : Bool := false
  sd : Bool := false
  sf : Bool := false
  /-- Uptime in ns of the last transmission, and since when there has been no gap over 20 µs. -/
  last : Option Nat := none
  since : Nat := 0
  /-- Transmissions in a row with, or without, AIS; MFN out of place in a row; multiframes in place in a row; the expected
  MFN. -/
  aisRun : Nat := 0
  aisOff : Nat := 0
  lomRun : Nat := 0
  lomOk : Nat := 0
  mfn : Option Nat := none
  /-- Uptime in ns since which nothing has held the leg in dSF. -/
  clear : Option Nat := none
  /-- The present millisecond: its number, multiframes, uncorrectable ones; the last one exceeded 10 %. -/
  ms : Nat := 0
  mfs : Nat := 0
  badMfs : Nat := 0
  msBad : Bool := false
  /-- Seconds in a row above the signal-degrade threshold, or below its exit. -/
  sdOn : Nat := 0
  sdOff : Nat := 0
  /-- The leg is waiting to restore (R428), and is selected. -/
  wtr : Bool := false
  selected : Bool := true
  /-- The present second: errored blocks, erased positions, dSF seen. -/
  ebs : Nat := 0
  erased : Nat := 0
  sfSeen : Bool := false
  /-- Unavailable time runs, and the seconds not yet settled, oldest first. -/
  unavail : Bool := false
  open_ : List SecRec := []
  /-- Counts by bin and item, bins that are SUSPECT, and the number of the present 15-minute and 24-hour bins. -/
  pm : AMap (Nat × Nat) Nat := []
  suspect : List Nat := []
  quarter : Nat := 0
  day : Nat := 0
  deriving DecidableEq, Repr

/-- A line group (R402 to R432). Its state stands in `SLF.GRP_STATUS` and `LEG_STATUS`. -/
structure LineGroup where
  /-- Sending: multiframe number, position, the bodies sent in it. -/
  mfn : Nat := 0
  pos : Nat := 0
  bodies : List Bytes := []
  /-- The next FSN, ACK_FSN received, both as frame counters, and the frames held. -/
  next : Nat := 0
  acked : Nat := 0
  held : List TxFrame := []
  /-- Frames no longer held that are not acknowledged: frame counter, queue and OBJ_SEQ (R414). -/
  released : List (Nat × Nat × Nat) := []
  /-- NACK ranges received and not yet answered: first FSN and length. -/
  asks : List (Nat × Nat) := []
  /-- Objects queued, by queue; OBJ_SEQ of the next object; the queue served last of 1 to 7. -/
  queues : AMap Nat (List LineObj) := []
  seqs : AMap Nat Nat := []
  lastQ : Nat := 7
  /-- LINE entries that wait for an object, by queue, oldest first. -/
  releases : List (Nat × PlanRef) := []
  /-- Key-exchange messages to send (R442). -/
  keys : List Bytes := []
  /-- The association new frames use, and until when in ns of uptime frames of the one before it are resent (R420). -/
  txAn : Option Nat := none
  cutoff : Nat := 0
  prevAn : Option Nat := none
  /-- SRTT in ns. -/
  srtt : Rat := 20000000
  /-- Receiving: RCV_DLV, the FSNs above it that are delivered or resolved, the frames held, and the bound below which
  FSNs that are not held are missing (R412, R413). -/
  dlv : Nat := 0
  done : List Nat := []
  rx : List RxFrame := []
  bound : Nat := 0
  /-- Ranges sent in NACK and not yet due again. -/
  nacked : List (Nat × Nat) := []
  mf : AMap Nat RxMf := []
  /-- Objects under reception by queue; objects with a frame resolved GONE; posted buffers by queue, oldest first. -/
  objs : AMap Nat RxObj := []
  gone : List (Nat × Nat) := []
  posts : AMap Nat (List OpKey) := []
  /-- dRDI with its runs; the group is in SF; since when it is suspended. -/
  rdi : Bool := false
  rdiOn : Nat := 0
  rdiOff : Nat := 0
  sf : Bool := false
  suspended : Option Nat := none
  /-- The windows were released in this suspension (R424). -/
  letGo : Bool := false
  legA : LineLeg := {}
  legB : LineLeg := {}
  deriving DecidableEq, Repr

/-- A DCC port (R429, R430): bytes of its input sent so far in the present frame, bytes extracted since a frame began,
frames buffered, and the frame sent last. -/
structure DccPort where
  sent : Nat := 0
  got : Option Bytes := none
  buf : List Bytes := []
  running : Bool := false
  last : Bytes := []
  deriving DecidableEq, Repr

/-- The line engine (chapter Shuotte Line Format and Line Groups). -/
structure LineState where
  groups : AMap Nat LineGroup := []
  /-- Member lanes out of service by a PHY report (R403). -/
  faults : List Nat := []
  dcc : AMap Nat DccPort := []
  deriving DecidableEq, Repr


/-! ### The outside, stops and the whole state -/

/-- What the device does to the outside: host memory, interrupts, frames, lane-control messages and pins. -/
inductive Out where
  /-- A write of the device to host memory at an address of a function. -/
  | hostWrite (fn addr : Nat) (data : Bytes)
  /-- An MSI-X message: function and vector, with the address and data of its table entry. -/
  | msix (fn vec addr : Nat) (data : Word)
  /-- An I3C in-band interrupt with its payload (R506). -/
  | ibi (code : Nat)
  /-- The data a register read returns. -/
  | reply (v : View) (value : Nat)
  /-- The answer to an ATS Invalidation Request (R137). -/
  | atsDone (fn addr len : Nat)
  /-- A Delay_Resp, or a Pdelay_Resp, with the receive stamp it answers (R473). -/
  | ptpReply (port : Nat) (peer : Bool) (stamp : Nat)
  /-- A write to the external flash (R509). -/
  | flashWrite (off : Nat) (data : Bytes)
  /-- The bytes an I3C read returns (R505). -/
  | i3cData (b : Bytes)
  /-- An answer on the management port: neighbour advertisement or echo reply (R507). -/
  | mgeReply 
  /-- The offer of the running image to a peer in recovery (R507). -/
  | mgeOffer (peer : Nat)
  /-- A TFTP block of the running image to a peer (R507). -/
  | mgeTftp (peer block : Nat)
  /-- A console line of n characters on UART_TXD (R508). -/
  | uartLine (n : Nat)
  /-- A frame leaving a fabric port, from destination address to the byte before the FCS. -/
  | frame (port : Nat) (data : Bytes)
  /-- A key-exchange message (R442). -/
  | kex (link : Nat) (msg : Bytes)
  /-- An LCC word sent in 8 consecutive markers (R164). -/
  | lcc (group word : Nat)
  /-- A frame handed to a unit of the device: 0 management, 1 the time unit, 2 transport, 3 fault agreement (R193), 4 the MAC of the port, whose PACKET_INGRESS follows (R162). -/
  | deliver (owner : Nat) (port : Nat) (frame : Bytes)
  /-- An announcement to the 32 optical engines of a die (R485). -/
  | heater (die mW mV : Nat)
  /-- An object of queue 0 handed to the outer-round unit (R416). -/
  | lineObj (group : Nat) (kind : Nat) (tag data : Bytes)
  /-- A frame on DCCn_TXD (R430). -/
  | dcc (port : Nat) (data : Bytes)
  /-- A recovery solicitation to the link-local all-nodes group (R73). -/
  | mgeSolicit (part serial svn : Nat)
  /-- The grant of an arbiter: resource, instance, class and port (R56). -/
  | grant (res inst cls port : Nat)
  /-- The request for a recovery image to the peer that offered it, with its block-size option (R73). -/
  | tftpRequest (peer blksize : Nat)
  /-- DC_RESET_N of a DDR5 channel driven low for at least 1 ms (R45). -/
  | dimmReset (chan : Nat)
  /-- A PCIe page request of a function for a host address (R136). -/
  | pageRequest (fn addr : Nat) (write : Bool)
  /-- What the JTAG port shifts out (R516). -/
  | jtagOut (w : Nat)
  deriving DecidableEq, Repr

/-- Why the block stops with a fault. No command of this model raises one: the manual gives every command an effect
in every state, or none at all, which leaves the state unchanged. -/
inductive Fault where
  /-- Raised by nothing (safe): kept so that a run can name a stop. -/
  | none
  deriving DecidableEq, Repr

/-- Why a command has no meaning. -/
inductive Refusal where
  /-- A command of the table whose meaning is not written: raised by its arm of `exec` (safe). -/
  | notModelled (mnemonic : String)
  deriving DecidableEq, Repr

/-- The whole state of the block. -/
structure State where
  /-- The set-up register space. -/
  regs : RegFile := {}
  /-- Start-up, rails, recovery and update. -/
  boot : BootState := {}
  /-- The management subsystem. -/
  mgmt : MgmtState := {}
  /-- The event recorder. -/
  evr : EvrState := {}
  /-- Host interface: rings, intakes, operations, functions. -/
  hif : HifState := {}
  /-- The control sequencers. -/
  cox : CoxState := {}
  /-- The memory tiers and the MMU. -/
  mem : MemState := {}
  /-- The time unit. -/
  time : TimeState := {}
  /-- Power, temperature and unit states. -/
  power : PowerState := {}
  /-- The sett pool. -/
  sett : SettState := {}
  /-- The switch core, output queues, policers and link-level retry. -/
  swc : SwcState := {}
  /-- Link protection, by link. -/
  lsc : AMap Nat SecLink := {}
  /-- Transport contexts. -/
  tpt : TptState := {}
  /-- Collectives and the bench. -/
  col : ColState := {}
  /-- Plan slots, by number. -/
  plans : AMap Nat PlanSlot := {}
  /-- The tensor fabric. -/
  tfb : TfbState := {}
  /-- Code tables and expanders. -/
  ash : AshState := {}
  /-- Line groups. -/
  line : LineState := {}
  /-- Fault agreement. -/
  flt : FltState := {}
  /-- Optical port groups and electrical lanes. -/
  lanes : LaneState := {}
  /-- Outer rounds. -/
  outer : OuterState := {}
  /-- Rigs. -/
  rig : RigState := {}
  /-- The check-value engine. -/
  kmc : KmcState := {}
  /-- The tenants' view of the counters. -/
  view : ViewState := {}
  /-- The number of open values used so far: the model's own field, not the manual's (notes/assumptions/8.md). -/
  free : Nat := 0
  /-- What the device has done to the outside, oldest first: the model's own field (notes/assumptions/4.md). -/
  out : List Out := []
  /-- Commands that wait, oldest first. -/
  pending : List Instr := []
  deriving DecidableEq, Repr

/-- The machine at power-on reset: PORST_N is asserted, no rail is good yet, every register holds its reset value, no
memory is written and no command waits. -/
def State.reset : State := {}

end Sys2Proof.Machine
end

