-- ==== Sys2Proof/Machine/RegMap.lean ====
section
/-!
DEFINITION. The set-up register map (R79 to R84): every field of every register by its manual name, and per block
the table of its registers with access code, reset value, commit group and the selector that chooses the instance.
A register array is one row with a count. Registers common to all blocks (offsets 0xF_F000 up) are in Registers.lean.
-/

namespace Sys2Proof.Machine

/-- A field of a set-up register: the register's block offset, lowest bit and width. -/
structure Fld where
  blk : Blk
  off : Nat
  lsb : Nat
  width : Nat
  deriving DecidableEq, Repr

/-- The same field of entry `n` of a register array (stride 4). -/
def Fld.nth (f : Fld) (n : Nat) : Fld := { f with off := f.off + 4 * n }

/-- One field as its field map gives it (R7). -/
structure RegField where
  lsb : Nat
  width : Nat
  acc : Acc
  reset : Nat
  deriving DecidableEq, Repr

/-- One register or register array of a block. `group` is the commit group of its RWS fields (R84).
`sel` lists the selector fields that choose which instance a window shows: offset, lowest bit, width, and the
place of that value in the instance number. -/
structure RegDef where
  off : Nat
  count : Nat
  group : Option Nat
  sel : List (Nat × Nat × Nat × Nat)
  fields : List RegField
  deriving DecidableEq, Repr

namespace Reg


/-- `MGT.PART_ID.PART` (R70). -/
def MGT_PART_ID_PART : Fld := ⟨.mgt, 0x0, 0, 16⟩

/-- `MGT.PART_ID.STEPPING` (R70). -/
def MGT_PART_ID_STEPPING : Fld := ⟨.mgt, 0x0, 16, 8⟩

/-- `MGT.PART_ID.LID` (R70). -/
def MGT_PART_ID_LID : Fld := ⟨.mgt, 0x0, 24, 4⟩

/-- `MGT.SERIAL_LO.SERIAL` (R70). -/
def MGT_SERIAL_LO_SERIAL : Fld := ⟨.mgt, 0x8, 0, 32⟩

/-- `MGT.SERIAL_HI.SERIAL` (R70). -/
def MGT_SERIAL_HI_SERIAL : Fld := ⟨.mgt, 0xC, 0, 32⟩

/-- `MGT.STRAP_STATUS.PCIE_X8` (R38). -/
def MGT_STRAP_STATUS_PCIE_X8 : Fld := ⟨.mgt, 0x10, 0, 1⟩

/-- `MGT.STRAP_STATUS.RECOV` (R38). -/
def MGT_STRAP_STATUS_RECOV : Fld := ⟨.mgt, 0x10, 1, 2⟩

/-- `MGT.STRAP_STATUS.I3C_ADDR` (R38). -/
def MGT_STRAP_STATUS_I3C_ADDR : Fld := ⟨.mgt, 0x10, 3, 3⟩

/-- `MGT.STRAP_STATUS.TEST_REQ` (R38). -/
def MGT_STRAP_STATUS_TEST_REQ : Fld := ⟨.mgt, 0x10, 6, 1⟩

/-- `MGT.STRAP_STATUS.TEST_GRANTED` (R38). -/
def MGT_STRAP_STATUS_TEST_GRANTED : Fld := ⟨.mgt, 0x10, 7, 1⟩

/-- `MGT.STRAP_STATUS.DIE_STERN` (R38). -/
def MGT_STRAP_STATUS_DIE_STERN : Fld := ⟨.mgt, 0x10, 8, 1⟩

/-- `MGT.READINESS.STAGE` (R64). -/
def MGT_READINESS_STAGE : Fld := ⟨.mgt, 0x20, 0, 4⟩

/-- `MGT.READINESS.FAIL_CODE` (R64). -/
def MGT_READINESS_FAIL_CODE : Fld := ⟨.mgt, 0x20, 4, 8⟩

/-- `MGT.READINESS.DEGRADED` (R64). -/
def MGT_READINESS_DEGRADED : Fld := ⟨.mgt, 0x20, 12, 1⟩

/-- `MGT.READINESS.IMAGE_SOURCE` (R64). -/
def MGT_READINESS_IMAGE_SOURCE : Fld := ⟨.mgt, 0x20, 13, 2⟩

/-- `MGT.READINESS.FW_GEN` (R64). -/
def MGT_READINESS_FW_GEN : Fld := ⟨.mgt, 0x20, 16, 8⟩

/-- `MGT.RECOV_ADDR_LO.ADDR` (R72). -/
def MGT_RECOV_ADDR_LO_ADDR : Fld := ⟨.mgt, 0x30, 0, 32⟩

/-- `MGT.RECOV_ADDR_HI.ADDR` (R72). -/
def MGT_RECOV_ADDR_HI_ADDR : Fld := ⟨.mgt, 0x34, 0, 32⟩

/-- `MGT.RECOV_CTRL.LEN_KIB` (R72). -/
def MGT_RECOV_CTRL_LEN_KIB : Fld := ⟨.mgt, 0x38, 0, 16⟩

/-- `MGT.RECOV_CTRL.GO` (R72). -/
def MGT_RECOV_CTRL_GO : Fld := ⟨.mgt, 0x38, 31, 1⟩

/-- `MGT.UPDATE_STATUS.STATE` (R74). -/
def MGT_UPDATE_STATUS_STATE : Fld := ⟨.mgt, 0x40, 0, 4⟩

/-- `MGT.UPDATE_STATUS.COX` (R74). -/
def MGT_UPDATE_STATUS_COX : Fld := ⟨.mgt, 0x40, 4, 4⟩

/-- `MGT.UPDATE_STATUS.BLOCKS_DONE` (R74). -/
def MGT_UPDATE_STATUS_BLOCKS_DONE : Fld := ⟨.mgt, 0x40, 8, 16⟩

/-- `MGT.UPDATE_STATUS.ERROR` (R74). -/
def MGT_UPDATE_STATUS_ERROR : Fld := ⟨.mgt, 0x40, 24, 8⟩

/-- `MGT.MGC_STATUS.ROLE0` (R503). -/
def MGT_MGC_STATUS_ROLE0 : Fld := ⟨.mgt, 0x80, 0, 2⟩

/-- `MGT.MGC_STATUS.ROLE1` (R503). -/
def MGT_MGC_STATUS_ROLE1 : Fld := ⟨.mgt, 0x80, 2, 2⟩

/-- `MGT.MGC_STATUS.TAKEOVERS` (R503). -/
def MGT_MGC_STATUS_TAKEOVERS : Fld := ⟨.mgt, 0x80, 16, 8⟩

/-- `MGT.MGC_STATUS.FW_GEN` (R503). -/
def MGT_MGC_STATUS_FW_GEN : Fld := ⟨.mgt, 0x80, 24, 8⟩

/-- `MGT.MGC_WATCHDOG.TIMEOUT_MS` (R503). -/
def MGT_MGC_WATCHDOG_TIMEOUT_MS : Fld := ⟨.mgt, 0x84, 0, 10⟩

/-- `MGT.ARB_SEL.RESOURCE` (R59). -/
def MGT_ARB_SEL_RESOURCE : Fld := ⟨.mgt, 0x300, 0, 5⟩

/-- `MGT.ARB_SEL.CLASS` (R59). -/
def MGT_ARB_SEL_CLASS : Fld := ⟨.mgt, 0x300, 5, 2⟩

/-- `MGT.ARB_SEL.INSTANCE` (R59). -/
def MGT_ARB_SEL_INSTANCE : Fld := ⟨.mgt, 0x300, 8, 10⟩

/-- `MGT.ARB_SEL.CLR` (R59). -/
def MGT_ARB_SEL_CLR : Fld := ⟨.mgt, 0x300, 31, 1⟩

/-- `MGT.ARB_WAIT.MAX_WAIT` (R59). -/
def MGT_ARB_WAIT_MAX_WAIT : Fld := ⟨.mgt, 0x304, 0, 16⟩

/-- `MGT.ARB_WAIT.EXCEED_COUNT` (R59). -/
def MGT_ARB_WAIT_EXCEED_COUNT : Fld := ⟨.mgt, 0x304, 16, 16⟩

/-- `MGT.ARB_GRANTS.GRANTS` (R59). -/
def MGT_ARB_GRANTS_GRANTS : Fld := ⟨.mgt, 0x308, 0, 32⟩

/-- `MGT.SENS_SEL.KIND` (R504). -/
def MGT_SENS_SEL_KIND : Fld := ⟨.mgt, 0x400, 0, 3⟩

/-- `MGT.SENS_SEL.INDEX` (R504). -/
def MGT_SENS_SEL_INDEX : Fld := ⟨.mgt, 0x400, 3, 7⟩

/-- `MGT.SENS_VALUE.VALUE` (R504). -/
def MGT_SENS_VALUE_VALUE : Fld := ⟨.mgt, 0x404, 0, 16⟩

/-- `MGT.SENS_VALUE.FAULT` (R504). -/
def MGT_SENS_VALUE_FAULT : Fld := ⟨.mgt, 0x404, 16, 1⟩

/-- `MGT.TOKEN_NONCE.NONCE` (R515). -/
def MGT_TOKEN_NONCE_NONCE : Fld := ⟨.mgt, 0x500, 0, 32⟩

/-- `MGT.TEST_STATUS.SCOPE` (R516). -/
def MGT_TEST_STATUS_SCOPE : Fld := ⟨.mgt, 0x520, 0, 2⟩

/-- `MGT.TEST_STATUS.EVER` (R516). -/
def MGT_TEST_STATUS_EVER : Fld := ⟨.mgt, 0x520, 2, 1⟩

/-- `MGT.MGE_CFG.ENABLE` (R507). -/
def MGT_MGE_CFG_ENABLE : Fld := ⟨.mgt, 0x600, 0, 1⟩

/-- `MGT.MGE_CFG.FEC` (R507). -/
def MGT_MGE_CFG_FEC : Fld := ⟨.mgt, 0x600, 1, 1⟩

/-- `MGT.MGE_CFG.SERVE_IMAGE` (R507). -/
def MGT_MGE_CFG_SERVE_IMAGE : Fld := ⟨.mgt, 0x600, 2, 1⟩

/-- `MGT.MGE_DROPPED.COUNT` (R507). -/
def MGT_MGE_DROPPED_COUNT : Fld := ⟨.mgt, 0x604, 0, 32⟩

/-- `MGT.CON_CFG.CON_SEV` (R508). -/
def MGT_CON_CFG_CON_SEV : Fld := ⟨.mgt, 0x610, 0, 3⟩

/-- `MGT.CON_CFG.LINES_DROPPED` (R508). -/
def MGT_CON_CFG_LINES_DROPPED : Fld := ⟨.mgt, 0x610, 16, 16⟩

/-- `HIF.RING_SEL.RING` (R102). -/
def HIF_RING_SEL_RING : Fld := ⟨.hif, 0x0, 0, 12⟩

/-- `HIF.RING_BASE_LO.BASE` (R102). -/
def HIF_RING_BASE_LO_BASE : Fld := ⟨.hif, 0x10, 0, 32⟩

/-- `HIF.RING_BASE_HI.BASE` (R102). -/
def HIF_RING_BASE_HI_BASE : Fld := ⟨.hif, 0x14, 0, 32⟩

/-- `HIF.RING_CFG.SIZE` (R102). -/
def HIF_RING_CFG_SIZE : Fld := ⟨.hif, 0x18, 0, 16⟩

/-- `HIF.RING_CFG.KIND` (R102). -/
def HIF_RING_CFG_KIND : Fld := ⟨.hif, 0x18, 16, 4⟩

/-- `HIF.RING_CFG.PRIORITY` (R102). -/
def HIF_RING_CFG_PRIORITY : Fld := ⟨.hif, 0x18, 20, 2⟩

/-- `HIF.RING_CFG.ENABLE` (R102). -/
def HIF_RING_CFG_ENABLE : Fld := ⟨.hif, 0x18, 22, 1⟩

/-- `HIF.RING_LINK.CQ` (R102). -/
def HIF_RING_LINK_CQ : Fld := ⟨.hif, 0x1C, 0, 12⟩

/-- `HIF.RING_LINK.VECTOR` (R102). -/
def HIF_RING_LINK_VECTOR : Fld := ⟨.hif, 0x1C, 12, 10⟩

/-- `HIF.RING_LINK.MIN_SEV` (R102). -/
def HIF_RING_LINK_MIN_SEV : Fld := ⟨.hif, 0x1C, 22, 3⟩

/-- `HIF.VF_SEL.VF` (R122). -/
def HIF_VF_SEL_VF : Fld := ⟨.hif, 0x40, 0, 7⟩

/-- `HIF.VF_RINGS.RING_BASE` (R122). -/
def HIF_VF_RINGS_RING_BASE : Fld := ⟨.hif, 0x44, 0, 12⟩

/-- `HIF.VF_RINGS.RING_COUNT` (R122). -/
def HIF_VF_RINGS_RING_COUNT : Fld := ⟨.hif, 0x44, 12, 7⟩

/-- `HIF.VF_DOMAINS.DOMAIN_BASE` (R122). -/
def HIF_VF_DOMAINS_DOMAIN_BASE : Fld := ⟨.hif, 0x48, 0, 12⟩

/-- `HIF.VF_DOMAINS.DOMAIN_COUNT` (R122). -/
def HIF_VF_DOMAINS_DOMAIN_COUNT : Fld := ⟨.hif, 0x48, 12, 9⟩

/-- `HIF.VF_PERMS.RIG` (R122). -/
def HIF_VF_PERMS_RIG : Fld := ⟨.hif, 0x4C, 0, 1⟩

/-- `HIF.VF_PERMS.COLL` (R122). -/
def HIF_VF_PERMS_COLL : Fld := ⟨.hif, 0x4C, 1, 1⟩

/-- `HIF.VF_PERMS.OUTER` (R122). -/
def HIF_VF_PERMS_OUTER : Fld := ⟨.hif, 0x4C, 2, 1⟩

/-- `HIF.VF_PERMS.DEVICE_XFER` (R122). -/
def HIF_VF_PERMS_DEVICE_XFER : Fld := ⟨.hif, 0x4C, 3, 1⟩

/-- `DBQ.COX_STATUS.ROLE` (R21). -/
def DBQ_COX_STATUS_ROLE : Fld := ⟨.dbq, 0x100, 0, 2⟩

/-- `DBQ.COX_STATUS.QUEUE_SET` (R21). -/
def DBQ_COX_STATUS_QUEUE_SET : Fld := ⟨.dbq, 0x100, 4, 4⟩

/-- `DBQ.COX_STATUS.HANG` (R21). -/
def DBQ_COX_STATUS_HANG : Fld := ⟨.dbq, 0x100, 8, 1⟩

/-- `DBQ.COX_STATUS.RELOAD_FAIL` (R21). -/
def DBQ_COX_STATUS_RELOAD_FAIL : Fld := ⟨.dbq, 0x100, 9, 1⟩

/-- `DBQ.COX_STATUS.RELOAD_COUNT` (R21). -/
def DBQ_COX_STATUS_RELOAD_COUNT : Fld := ⟨.dbq, 0x100, 16, 8⟩

/-- `DBQ.COX_STATUS.FW_GEN` (R21). -/
def DBQ_COX_STATUS_FW_GEN : Fld := ⟨.dbq, 0x100, 24, 8⟩

/-- `DBQ.COX_WATCHDOG.TIMEOUT_US` (R21). -/
def DBQ_COX_WATCHDOG_TIMEOUT_US : Fld := ⟨.dbq, 0x140, 0, 16⟩

/-- `DBQ.INTAKE_STATUS.FILL_COUNT` (R110). -/
def DBQ_INTAKE_STATUS_FILL_COUNT : Fld := ⟨.dbq, 0x200, 0, 10⟩

/-- `DBQ.INTAKE_STATUS.DRAIN_COUNT` (R110). -/
def DBQ_INTAKE_STATUS_DRAIN_COUNT : Fld := ⟨.dbq, 0x200, 10, 10⟩

/-- `DBQ.INTAKE_STATUS.DRAIN_BANK` (R110). -/
def DBQ_INTAKE_STATUS_DRAIN_BANK : Fld := ⟨.dbq, 0x200, 20, 1⟩

/-- `DBQ.INTAKE_STATUS.HELD` (R110). -/
def DBQ_INTAKE_STATUS_HELD : Fld := ⟨.dbq, 0x200, 21, 1⟩

/-- `DBQ.INTAKE_STATUS.UNDERRUN` (R110). -/
def DBQ_INTAKE_STATUS_UNDERRUN : Fld := ⟨.dbq, 0x200, 22, 1⟩

/-- `DBQ.INTAKE_ECC.CORRECTED` (R110). -/
def DBQ_INTAKE_ECC_CORRECTED : Fld := ⟨.dbq, 0x240, 0, 16⟩

/-- `DBQ.INTAKE_ECC.LOST` (R110). -/
def DBQ_INTAKE_ECC_LOST : Fld := ⟨.dbq, 0x240, 16, 16⟩

/-- `MMU.DOM_SEL.DOM` (R132). -/
def MMU_DOM_SEL_DOM : Fld := ⟨.mmu, 0x0, 0, 12⟩

/-- `MMU.DOM_ROOT_LO.ROOT` (R132). -/
def MMU_DOM_ROOT_LO_ROOT : Fld := ⟨.mmu, 0x4, 0, 32⟩

/-- `MMU.DOM_ROOT_HI.ROOT` (R132). -/
def MMU_DOM_ROOT_HI_ROOT : Fld := ⟨.mmu, 0x8, 0, 32⟩

/-- `MMU.DOM_CFG.ENABLE` (R132). -/
def MMU_DOM_CFG_ENABLE : Fld := ⟨.mmu, 0xC, 0, 1⟩

/-- `MMU.DOM_CFG.IDENTITY` (R132). -/
def MMU_DOM_CFG_IDENTITY : Fld := ⟨.mmu, 0xC, 1, 1⟩

/-- `MMU.FAULT_CFG.DEV_WAIT_US` (R138). -/
def MMU_FAULT_CFG_DEV_WAIT_US : Fld := ⟨.mmu, 0x20, 0, 16⟩

/-- `MMU.FAULT_CFG.PRI_WAIT_MS` (R138). -/
def MMU_FAULT_CFG_PRI_WAIT_MS : Fld := ⟨.mmu, 0x20, 16, 16⟩

/-- `HBM.MAP_CFG.SPARES` (R126). -/
def HBM_MAP_CFG_SPARES : Fld := ⟨.hbm, 0x0, 0, 5⟩

/-- `HBM.MAP_CFG.MODE` (R126). -/
def HBM_MAP_CFG_MODE : Fld := ⟨.hbm, 0x0, 8, 1⟩

/-- `HBM.MAP_STATUS.VISIBLE_GIB` (R127). -/
def HBM_MAP_STATUS_VISIBLE_GIB : Fld := ⟨.hbm, 0x4, 0, 10⟩

/-- `HBM.MAP_STATUS.L_BOW` (R127). -/
def HBM_MAP_STATUS_L_BOW : Fld := ⟨.hbm, 0x4, 10, 9⟩

/-- `HBM.MAP_STATUS.L_STERN` (R127). -/
def HBM_MAP_STATUS_L_STERN : Fld := ⟨.hbm, 0x4, 19, 9⟩

/-- `HBM.MAP_STATUS.SPARE_OUT_BOW` (R127). -/
def HBM_MAP_STATUS_SPARE_OUT_BOW : Fld := ⟨.hbm, 0x4, 30, 1⟩

/-- `HBM.MAP_STATUS.SPARE_OUT_STERN` (R127). -/
def HBM_MAP_STATUS_SPARE_OUT_STERN : Fld := ⟨.hbm, 0x4, 31, 1⟩

/-- `HBM.CE_POLICY.COUNT` (R150). -/
def HBM_CE_POLICY_COUNT : Fld := ⟨.hbm, 0x10, 0, 8⟩

/-- `HBM.CE_POLICY.WINDOW_MIN` (R150). -/
def HBM_CE_POLICY_WINDOW_MIN : Fld := ⟨.hbm, 0x10, 8, 16⟩

/-- `HBM.CE_POLICY.SCRUB_H` (R150). -/
def HBM_CE_POLICY_SCRUB_H : Fld := ⟨.hbm, 0x10, 24, 8⟩

/-- `HBM.ERR_SEL.UNIT` (R150). -/
def HBM_ERR_SEL_UNIT : Fld := ⟨.hbm, 0x20, 0, 10⟩

/-- `HBM.ERR_SEL.POSITION` (R150). -/
def HBM_ERR_SEL_POSITION : Fld := ⟨.hbm, 0x20, 16, 7⟩

/-- `HBM.ERR_READ.CORRECTED` (R150). -/
def HBM_ERR_READ_CORRECTED : Fld := ⟨.hbm, 0x24, 0, 16⟩

/-- `HBM.ERR_READ.IN_WINDOW` (R150). -/
def HBM_ERR_READ_IN_WINDOW : Fld := ⟨.hbm, 0x24, 16, 8⟩

/-- `HBM.ERR_READ.STATE` (R150). -/
def HBM_ERR_READ_STATE : Fld := ⟨.hbm, 0x24, 24, 3⟩

/-- `DDR.MAP_STATUS.BACKED` (R129). -/
def DDR_MAP_STATUS_BACKED : Fld := ⟨.ddr, 0x4, 0, 15⟩

/-- `DDR.MAP_STATUS.FREE_MEDIA` (R129). -/
def DDR_MAP_STATUS_FREE_MEDIA : Fld := ⟨.ddr, 0x4, 15, 15⟩

/-- `DDR.CE_POLICY.COUNT` (R150). -/
def DDR_CE_POLICY_COUNT : Fld := ⟨.ddr, 0x10, 0, 8⟩

/-- `DDR.CE_POLICY.WINDOW_MIN` (R150). -/
def DDR_CE_POLICY_WINDOW_MIN : Fld := ⟨.ddr, 0x10, 8, 16⟩

/-- `DDR.CE_POLICY.SCRUB_H` (R150). -/
def DDR_CE_POLICY_SCRUB_H : Fld := ⟨.ddr, 0x10, 24, 8⟩

/-- `DDR.ERR_SEL.UNIT` (R150). -/
def DDR_ERR_SEL_UNIT : Fld := ⟨.ddr, 0x20, 0, 10⟩

/-- `DDR.ERR_SEL.POSITION` (R150). -/
def DDR_ERR_SEL_POSITION : Fld := ⟨.ddr, 0x20, 16, 7⟩

/-- `DDR.ERR_READ.CORRECTED` (R150). -/
def DDR_ERR_READ_CORRECTED : Fld := ⟨.ddr, 0x24, 0, 16⟩

/-- `DDR.ERR_READ.IN_WINDOW` (R150). -/
def DDR_ERR_READ_IN_WINDOW : Fld := ⟨.ddr, 0x24, 16, 8⟩

/-- `DDR.ERR_READ.STATE` (R150). -/
def DDR_ERR_READ_STATE : Fld := ⟨.ddr, 0x24, 24, 3⟩

/-- `SETT.QSEL.SEL` (R189). -/
def SETT_QSEL_SEL : Fld := ⟨.sett, 0x0, 0, 8⟩

/-- `SETT.QMIN.SETTS` (R189). -/
def SETT_QMIN_SETTS : Fld := ⟨.sett, 0x4, 0, 20⟩

/-- `SETT.QMAX.SETTS` (R189). -/
def SETT_QMAX_SETTS : Fld := ⟨.sett, 0x8, 0, 20⟩

/-- `SETT.POOL_STATUS.SHARED_FREE` (R189). -/
def SETT_POOL_STATUS_SHARED_FREE : Fld := ⟨.sett, 0x20, 0, 20⟩

/-- `SETT.POOL_STATUS.REF_FAULTS` (R189). -/
def SETT_POOL_STATUS_REF_FAULTS : Fld := ⟨.sett, 0x20, 20, 8⟩

/-- `SETT.STAT_SEL.REQ` (R189). -/
def SETT_STAT_SEL_REQ : Fld := ⟨.sett, 0x100, 0, 8⟩

/-- `SETT.STAT_SEL.CLR` (R189). -/
def SETT_STAT_SEL_CLR : Fld := ⟨.sett, 0x100, 31, 1⟩

/-- `SETT.STAT_USE.USED` (R189). -/
def SETT_STAT_USE_USED : Fld := ⟨.sett, 0x104, 0, 20⟩

/-- `SETT.STAT_PEAK.PEAK` (R189). -/
def SETT_STAT_PEAK_PEAK : Fld := ⟨.sett, 0x108, 0, 20⟩

/-- `SETT.STAT_REFUSED.COUNT` (R189). -/
def SETT_STAT_REFUSED_COUNT : Fld := ⟨.sett, 0x10C, 0, 32⟩

/-- `SETT.STAT_CORRUPT.COUNT` (R189). -/
def SETT_STAT_CORRUPT_COUNT : Fld := ⟨.sett, 0x110, 0, 32⟩

/-- `SWC.PARSE_CFG.OUTER_TPID` (R215). -/
def SWC_PARSE_CFG_OUTER_TPID : Fld := ⟨.swc, 0x0, 0, 16⟩

/-- `SWC.PARSE_CFG.DEC_HOP` (R215). -/
def SWC_PARSE_CFG_DEC_HOP : Fld := ⟨.swc, 0x0, 16, 1⟩

/-- `SWC.PROF_SEL.PROF` (R215). -/
def SWC_PROF_SEL_PROF : Fld := ⟨.swc, 0x100, 0, 4⟩

/-- `SWC.PROF_COLOUR.MIN` (R215). -/
def SWC_PROF_COLOUR_MIN : Fld := ⟨.swc, 0x104, 0, 14⟩

/-- `SWC.PROF_COLOUR.MAX` (R215). -/
def SWC_PROF_COLOUR_MAX : Fld := ⟨.swc, 0x104, 14, 14⟩

/-- `SWC.PROF_COLOUR.MAX_P` (R215). -/
def SWC_PROF_COLOUR_MAX_P : Fld := ⟨.swc, 0x104, 28, 4⟩

/-- `SWC.PROF_CFG.AVG_SHIFT` (R215). -/
def SWC_PROF_CFG_AVG_SHIFT : Fld := ⟨.swc, 0x110, 0, 4⟩

/-- `SWC.PROF_CFG.ECN_TH` (R215). -/
def SWC_PROF_CFG_ECN_TH : Fld := ⟨.swc, 0x110, 4, 14⟩

/-- `SWC.PROF_CFG.ECN_MODE` (R215). -/
def SWC_PROF_CFG_ECN_MODE : Fld := ⟨.swc, 0x110, 18, 2⟩

/-- `SWC.QPROF_SEL.QUEUE` (R215). -/
def SWC_QPROF_SEL_QUEUE : Fld := ⟨.swc, 0x200, 0, 13⟩

/-- `SWC.QPROF.PROF` (R215). -/
def SWC_QPROF_PROF : Fld := ⟨.swc, 0x204, 0, 4⟩

/-- `SWC.MC_CFG.AGE_US` (R215). -/
def SWC_MC_CFG_AGE_US : Fld := ⟨.swc, 0x300, 0, 16⟩

/-- `SWC.STAT_SEL.PORT` (R215). -/
def SWC_STAT_SEL_PORT : Fld := ⟨.swc, 0x400, 0, 10⟩

/-- `SWC.STAT_SEL.COUNTER` (R215). -/
def SWC_STAT_SEL_COUNTER : Fld := ⟨.swc, 0x400, 10, 5⟩

/-- `SWC.STAT_SEL.CLR` (R215). -/
def SWC_STAT_SEL_CLR : Fld := ⟨.swc, 0x400, 31, 1⟩

/-- `SWC.STAT_VALUE.VALUE` (R215). -/
def SWC_STAT_VALUE_VALUE : Fld := ⟨.swc, 0x404, 0, 32⟩

/-- `SWC.SPRAY_SEL.GROUP` (R215). -/
def SWC_SPRAY_SEL_GROUP : Fld := ⟨.swc, 0x500, 0, 12⟩

/-- `SWC.SPRAY_SEL.MEMBER` (R215). -/
def SWC_SPRAY_SEL_MEMBER : Fld := ⟨.swc, 0x500, 12, 6⟩

/-- `SWC.SPRAY_MEMBER.PORT` (R215). -/
def SWC_SPRAY_MEMBER_PORT : Fld := ⟨.swc, 0x504, 0, 10⟩

/-- `SWC.SPRAY_MEMBER.AVAIL` (R215). -/
def SWC_SPRAY_MEMBER_AVAIL : Fld := ⟨.swc, 0x504, 10, 1⟩

/-- `SWC.SPRAY_MEMBER.BYPASSED` (R215). -/
def SWC_SPRAY_MEMBER_BYPASSED : Fld := ⟨.swc, 0x504, 11, 1⟩

/-- `SWC.SPRAY_MEMBER.DELAY_NS` (R215). -/
def SWC_SPRAY_MEMBER_DELAY_NS : Fld := ⟨.swc, 0x504, 12, 16⟩

/-- `SWC.SPRAY_MEMBER.WEIGHT` (R215). -/
def SWC_SPRAY_MEMBER_WEIGHT : Fld := ⟨.swc, 0x504, 28, 4⟩

/-- `SWC.SPRAY_PICKS.PICKS` (R215). -/
def SWC_SPRAY_PICKS_PICKS : Fld := ⟨.swc, 0x508, 0, 32⟩

/-- `TMS.MAP_SEL.PORT` (R232). -/
def TMS_MAP_SEL_PORT : Fld := ⟨.tms, 0x0, 0, 10⟩

/-- `TMS.MAP_CFG.MODE` (R232). -/
def TMS_MAP_CFG_MODE : Fld := ⟨.tms, 0x4, 0, 2⟩

/-- `TMS.MAP_CFG.DEFAULT_TC` (R232). -/
def TMS_MAP_CFG_DEFAULT_TC : Fld := ⟨.tms, 0x4, 2, 3⟩

/-- `TMS.PCP_MAP.TC0` (R232). -/
def TMS_PCP_MAP_TC0 : Fld := ⟨.tms, 0x8, 0, 3⟩

/-- `TMS.PCP_MAP.TC1` (R232). -/
def TMS_PCP_MAP_TC1 : Fld := ⟨.tms, 0x8, 4, 3⟩

/-- `TMS.PCP_MAP.TC2` (R232). -/
def TMS_PCP_MAP_TC2 : Fld := ⟨.tms, 0x8, 8, 3⟩

/-- `TMS.PCP_MAP.TC3` (R232). -/
def TMS_PCP_MAP_TC3 : Fld := ⟨.tms, 0x8, 12, 3⟩

/-- `TMS.PCP_MAP.TC4` (R232). -/
def TMS_PCP_MAP_TC4 : Fld := ⟨.tms, 0x8, 16, 3⟩

/-- `TMS.PCP_MAP.TC5` (R232). -/
def TMS_PCP_MAP_TC5 : Fld := ⟨.tms, 0x8, 20, 3⟩

/-- `TMS.PCP_MAP.TC6` (R232). -/
def TMS_PCP_MAP_TC6 : Fld := ⟨.tms, 0x8, 24, 3⟩

/-- `TMS.PCP_MAP.TC7` (R232). -/
def TMS_PCP_MAP_TC7 : Fld := ⟨.tms, 0x8, 28, 3⟩

/-- `TMS.DSCP_MAP.TC0` (R232). -/
def TMS_DSCP_MAP_TC0 : Fld := ⟨.tms, 0x10, 0, 3⟩

/-- `TMS.DSCP_MAP.TC1` (R232). -/
def TMS_DSCP_MAP_TC1 : Fld := ⟨.tms, 0x10, 4, 3⟩

/-- `TMS.DSCP_MAP.TC2` (R232). -/
def TMS_DSCP_MAP_TC2 : Fld := ⟨.tms, 0x10, 8, 3⟩

/-- `TMS.DSCP_MAP.TC3` (R232). -/
def TMS_DSCP_MAP_TC3 : Fld := ⟨.tms, 0x10, 12, 3⟩

/-- `TMS.DSCP_MAP.TC4` (R232). -/
def TMS_DSCP_MAP_TC4 : Fld := ⟨.tms, 0x10, 16, 3⟩

/-- `TMS.DSCP_MAP.TC5` (R232). -/
def TMS_DSCP_MAP_TC5 : Fld := ⟨.tms, 0x10, 20, 3⟩

/-- `TMS.DSCP_MAP.TC6` (R232). -/
def TMS_DSCP_MAP_TC6 : Fld := ⟨.tms, 0x10, 24, 3⟩

/-- `TMS.DSCP_MAP.TC7` (R232). -/
def TMS_DSCP_MAP_TC7 : Fld := ⟨.tms, 0x10, 28, 3⟩

/-- `TMS.CLASS_MAP.CLASS` (R232). -/
def TMS_CLASS_MAP_CLASS : Fld := ⟨.tms, 0x30, 0, 16⟩

/-- `TMS.SHP_SEL.QUEUE` (R232). -/
def TMS_SHP_SEL_QUEUE : Fld := ⟨.tms, 0x100, 0, 13⟩

/-- `TMS.SHP_RATE.RATE_MBPS` (R232). -/
def TMS_SHP_RATE_RATE_MBPS : Fld := ⟨.tms, 0x104, 0, 22⟩

/-- `TMS.SHP_RATE.WEIGHT` (R232). -/
def TMS_SHP_RATE_WEIGHT : Fld := ⟨.tms, 0x104, 22, 8⟩

/-- `TMS.SHP_BURST.BURST` (R232). -/
def TMS_SHP_BURST_BURST : Fld := ⟨.tms, 0x108, 0, 20⟩

/-- `TMS.POL_SEL.POL` (R232). -/
def TMS_POL_SEL_POL : Fld := ⟨.tms, 0x200, 0, 13⟩

/-- `TMS.POL_CIR.CIR_MBPS` (R232). -/
def TMS_POL_CIR_CIR_MBPS : Fld := ⟨.tms, 0x204, 0, 22⟩

/-- `TMS.POL_PIR.PIR_MBPS` (R232). -/
def TMS_POL_PIR_PIR_MBPS : Fld := ⟨.tms, 0x208, 0, 22⟩

/-- `TMS.POL_BURST.CBS` (R232). -/
def TMS_POL_BURST_CBS : Fld := ⟨.tms, 0x20C, 0, 16⟩

/-- `TMS.POL_BURST.PBS` (R232). -/
def TMS_POL_BURST_PBS : Fld := ⟨.tms, 0x20C, 16, 16⟩

/-- `TMS.POL_CFG.ENABLE` (R232). -/
def TMS_POL_CFG_ENABLE : Fld := ⟨.tms, 0x210, 0, 1⟩

/-- `TMS.POL_CFG.RED_DROP` (R232). -/
def TMS_POL_CFG_RED_DROP : Fld := ⟨.tms, 0x210, 1, 1⟩

/-- `TMS.POL_STAT.POL_RED_DROP` (R232). -/
def TMS_POL_STAT_POL_RED_DROP : Fld := ⟨.tms, 0x218, 0, 32⟩

/-- `TMS.HIST_CFG.DEPTH_SHIFT` (R232). -/
def TMS_HIST_CFG_DEPTH_SHIFT : Fld := ⟨.tms, 0x300, 0, 4⟩

/-- `TMS.HIST_CFG.DELAY_SHIFT` (R232). -/
def TMS_HIST_CFG_DELAY_SHIFT : Fld := ⟨.tms, 0x300, 4, 4⟩

/-- `TMS.HIST_SEL.QUEUE` (R232). -/
def TMS_HIST_SEL_QUEUE : Fld := ⟨.tms, 0x310, 0, 13⟩

/-- `TMS.HIST_SEL.KIND` (R232). -/
def TMS_HIST_SEL_KIND : Fld := ⟨.tms, 0x310, 13, 1⟩

/-- `TMS.HIST_SEL.BIN` (R232). -/
def TMS_HIST_SEL_BIN : Fld := ⟨.tms, 0x310, 14, 4⟩

/-- `TMS.HIST_SEL.CLR` (R232). -/
def TMS_HIST_SEL_CLR : Fld := ⟨.tms, 0x310, 31, 1⟩

/-- `TMS.HIST_VALUE.VALUE` (R232). -/
def TMS_HIST_VALUE_VALUE : Fld := ⟨.tms, 0x314, 0, 32⟩

/-- `TPT.UDP_CFG.DST_PORT` (R252). -/
def TPT_UDP_CFG_DST_PORT : Fld := ⟨.tpt, 0x0, 0, 16⟩

/-- `TPT.TIMER_CFG.ACK_EVERY` (R252). -/
def TPT_TIMER_CFG_ACK_EVERY : Fld := ⟨.tpt, 0x10, 0, 8⟩

/-- `TPT.TIMER_CFG.ACK_DELAY_NS` (R252). -/
def TPT_TIMER_CFG_ACK_DELAY_NS : Fld := ⟨.tpt, 0x10, 8, 12⟩

/-- `TPT.TIMER_CFG.RETRY_MAX` (R252). -/
def TPT_TIMER_CFG_RETRY_MAX : Fld := ⟨.tpt, 0x10, 20, 4⟩

/-- `TPT.TIMER_CFG.REORDER_TH` (R252). -/
def TPT_TIMER_CFG_REORDER_TH : Fld := ⟨.tpt, 0x10, 24, 8⟩

/-- `TPT.RTO_CFG.RTO_MIN_US` (R252). -/
def TPT_RTO_CFG_RTO_MIN_US : Fld := ⟨.tpt, 0x14, 0, 16⟩

/-- `TPT.RTO_CFG.RTO_MAX_US` (R252). -/
def TPT_RTO_CFG_RTO_MAX_US : Fld := ⟨.tpt, 0x14, 16, 16⟩

/-- `TPT.LLR_SEL.PORT` (R252). -/
def TPT_LLR_SEL_PORT : Fld := ⟨.tpt, 0x100, 0, 10⟩

/-- `TPT.LLR_CFG.ENABLE` (R252). -/
def TPT_LLR_CFG_ENABLE : Fld := ⟨.tpt, 0x104, 0, 1⟩

/-- `TPT.LLR_CFG.MAX_OUT` (R252). -/
def TPT_LLR_CFG_MAX_OUT : Fld := ⟨.tpt, 0x104, 1, 15⟩

/-- `TPT.LLR_CFG.TIMEOUT_US` (R252). -/
def TPT_LLR_CFG_TIMEOUT_US : Fld := ⟨.tpt, 0x104, 16, 16⟩

/-- `TPT.OPTAB_CFG.PLAN_RESERVE` (R252). -/
def TPT_OPTAB_CFG_PLAN_RESERVE : Fld := ⟨.tpt, 0x200, 0, 16⟩

/-- `TPT.CTX_SEL.CTX` (R252). -/
def TPT_CTX_SEL_CTX : Fld := ⟨.tpt, 0x300, 0, 18⟩

/-- `TPT.CTX_STATUS.STATE` (R252). -/
def TPT_CTX_STATUS_STATE : Fld := ⟨.tpt, 0x304, 0, 2⟩

/-- `TPT.CTX_STATUS.REASON` (R252). -/
def TPT_CTX_STATUS_REASON : Fld := ⟨.tpt, 0x304, 2, 2⟩

/-- `TPT.CTX_STATUS.OUTSTANDING` (R252). -/
def TPT_CTX_STATUS_OUTSTANDING : Fld := ⟨.tpt, 0x304, 4, 9⟩

/-- `TPT.CTX_STATUS.RETRY` (R252). -/
def TPT_CTX_STATUS_RETRY : Fld := ⟨.tpt, 0x304, 13, 4⟩

/-- `TPT.CTX_STATUS.CACHED` (R252). -/
def TPT_CTX_STATUS_CACHED : Fld := ⟨.tpt, 0x304, 17, 1⟩

/-- `TPT.CTX_STATUS.PINNED` (R252). -/
def TPT_CTX_STATUS_PINNED : Fld := ⟨.tpt, 0x304, 18, 1⟩

/-- `TPT.STAT_SEL.PORT` (R252). -/
def TPT_STAT_SEL_PORT : Fld := ⟨.tpt, 0x400, 0, 10⟩

/-- `TPT.STAT_SEL.COUNTER` (R252). -/
def TPT_STAT_SEL_COUNTER : Fld := ⟨.tpt, 0x400, 10, 5⟩

/-- `TPT.STAT_SEL.CLR` (R252). -/
def TPT_STAT_SEL_CLR : Fld := ⟨.tpt, 0x400, 31, 1⟩

/-- `TPT.STAT_VALUE.VALUE` (R252). -/
def TPT_STAT_VALUE_VALUE : Fld := ⟨.tpt, 0x404, 0, 32⟩

/-- `BEN.PART_CFG.PLAN_GRAN` (R298). -/
def BEN_PART_CFG_PLAN_GRAN : Fld := ⟨.ben, 0x0, 0, 15⟩

/-- `BEN.PART_CFG.TENSOR_GRAN` (R298). -/
def BEN_PART_CFG_TENSOR_GRAN : Fld := ⟨.ben, 0x0, 15, 15⟩

/-- `BEN.LINE_CFG.PLAN_LINES` (R298). -/
def BEN_LINE_CFG_PLAN_LINES : Fld := ⟨.ben, 0x8, 0, 16⟩

/-- `BEN.FREE_STATUS.DYN_FREE_GRAN` (R298). -/
def BEN_FREE_STATUS_DYN_FREE_GRAN : Fld := ⟨.ben, 0x20, 0, 15⟩

/-- `BEN.FREE_STATUS.DYN_FREE_LINES` (R298). -/
def BEN_FREE_STATUS_DYN_FREE_LINES : Fld := ⟨.ben, 0x20, 15, 16⟩

/-- `BEN.NUM_SEL.COUNTER` (R269). -/
def BEN_NUM_SEL_COUNTER : Fld := ⟨.ben, 0x800, 0, 3⟩

/-- `BEN.NUM_SEL.DIE` (R269). -/
def BEN_NUM_SEL_DIE : Fld := ⟨.ben, 0x800, 3, 1⟩

/-- `BEN.NUM_SEL.CLR` (R269). -/
def BEN_NUM_SEL_CLR : Fld := ⟨.ben, 0x800, 31, 1⟩

/-- `BEN.NUM_VALUE.VALUE` (R269). -/
def BEN_NUM_VALUE_VALUE : Fld := ⟨.ben, 0x804, 0, 32⟩

/-- `COL.ADMIT_CFG.DEF_WINDOW` (R298). -/
def COL_ADMIT_CFG_DEF_WINDOW : Fld := ⟨.col, 0x0, 0, 11⟩

/-- `COL.ADMIT_CFG.RESULT_DEPTH` (R298). -/
def COL_ADMIT_CFG_RESULT_DEPTH : Fld := ⟨.col, 0x0, 11, 4⟩

/-- `COL.ADMIT_CFG.QUERY_US` (R298). -/
def COL_ADMIT_CFG_QUERY_US : Fld := ⟨.col, 0x0, 16, 8⟩

/-- `COL.BACKOFF_CFG.BASE_US` (R298). -/
def COL_BACKOFF_CFG_BASE_US : Fld := ⟨.col, 0x4, 0, 16⟩

/-- `COL.BACKOFF_CFG.MAX_US` (R298). -/
def COL_BACKOFF_CFG_MAX_US : Fld := ⟨.col, 0x4, 16, 16⟩

/-- `COL.LATE_WATCH.GROUP` (R298). -/
def COL_LATE_WATCH_GROUP : Fld := ⟨.col, 0x100, 0, 14⟩

/-- `COL.LATE_WATCH.ENABLE` (R298). -/
def COL_LATE_WATCH_ENABLE : Fld := ⟨.col, 0x100, 14, 1⟩

/-- `COL.LATE_WATCH.SHIFT` (R298). -/
def COL_LATE_WATCH_SHIFT : Fld := ⟨.col, 0x100, 15, 4⟩

/-- `COL.ADMIT_STATUS.WAITING` (R298). -/
def COL_ADMIT_STATUS_WAITING : Fld := ⟨.col, 0x200, 0, 16⟩

/-- `COL.ADMIT_STATUS.ADMITTED` (R298). -/
def COL_ADMIT_STATUS_ADMITTED : Fld := ⟨.col, 0x200, 16, 16⟩

/-- `COL.STAT_SEL.COUNTER` (R298). -/
def COL_STAT_SEL_COUNTER : Fld := ⟨.col, 0x300, 0, 4⟩

/-- `COL.STAT_SEL.CLR` (R298). -/
def COL_STAT_SEL_CLR : Fld := ⟨.col, 0x300, 31, 1⟩

/-- `COL.STAT_VALUE.VALUE` (R298). -/
def COL_STAT_VALUE_VALUE : Fld := ⟨.col, 0x304, 0, 32⟩

/-- `COL.LATE_SEL.SLOT` (R298). -/
def COL_LATE_SEL_SLOT : Fld := ⟨.col, 0x400, 0, 4⟩

/-- `COL.LATE_SEL.MEMBER` (R298). -/
def COL_LATE_SEL_MEMBER : Fld := ⟨.col, 0x400, 4, 12⟩

/-- `COL.LATE_SEL.BIN` (R298). -/
def COL_LATE_SEL_BIN : Fld := ⟨.col, 0x400, 16, 4⟩

/-- `COL.LATE_SEL.ITEM` (R298). -/
def COL_LATE_SEL_ITEM : Fld := ⟨.col, 0x400, 20, 2⟩

/-- `COL.LATE_SEL.CLR` (R298). -/
def COL_LATE_SEL_CLR : Fld := ⟨.col, 0x400, 31, 1⟩

/-- `COL.LATE_VALUE.VALUE` (R298). -/
def COL_LATE_VALUE_VALUE : Fld := ⟨.col, 0x404, 0, 32⟩

/-- `PLN.PLAN_CFG.ANNOUNCE` (R319). -/
def PLN_PLAN_CFG_ANNOUNCE : Fld := ⟨.pln, 0x0, 0, 1⟩

/-- `PLN.PLAN_CFG.ADOPT` (R319). -/
def PLN_PLAN_CFG_ADOPT : Fld := ⟨.pln, 0x0, 1, 1⟩

/-- `PLN.LOAD_STATUS.REASON` (R319). -/
def PLN_LOAD_STATUS_REASON : Fld := ⟨.pln, 0x10, 0, 4⟩

/-- `PLN.LOAD_STATUS.SLOT` (R319). -/
def PLN_LOAD_STATUS_SLOT : Fld := ⟨.pln, 0x10, 4, 2⟩

/-- `PLN.LOAD_STATUS.ENTRY` (R319). -/
def PLN_LOAD_STATUS_ENTRY : Fld := ⟨.pln, 0x10, 7, 20⟩

/-- `PLN.SLOT_SEL.SLOT` (R319). -/
def PLN_SLOT_SEL_SLOT : Fld := ⟨.pln, 0x100, 0, 2⟩

/-- `PLN.SLOT_SEL.COUNTER` (R319). -/
def PLN_SLOT_SEL_COUNTER : Fld := ⟨.pln, 0x100, 4, 3⟩

/-- `PLN.SLOT_SEL.CLR` (R319). -/
def PLN_SLOT_SEL_CLR : Fld := ⟨.pln, 0x100, 31, 1⟩

/-- `PLN.SLOT_STATUS.STATE` (R319). -/
def PLN_SLOT_STATUS_STATE : Fld := ⟨.pln, 0x104, 0, 2⟩

/-- `PLN.SLOT_STATUS.LATE` (R319). -/
def PLN_SLOT_STATUS_LATE : Fld := ⟨.pln, 0x104, 2, 1⟩

/-- `PLN.SLOT_STATUS.STROKE` (R319). -/
def PLN_SLOT_STATUS_STROKE : Fld := ⟨.pln, 0x104, 4, 16⟩

/-- `PLN.SLOT_HEAT.HEAT` (R319). -/
def PLN_SLOT_HEAT_HEAT : Fld := ⟨.pln, 0x108, 0, 32⟩

/-- `PLN.SLOT_LATE.NOW_64NS` (R319). -/
def PLN_SLOT_LATE_NOW_64NS : Fld := ⟨.pln, 0x10C, 0, 16⟩

/-- `PLN.SLOT_LATE.MAX_64NS` (R319). -/
def PLN_SLOT_LATE_MAX_64NS : Fld := ⟨.pln, 0x10C, 16, 16⟩

/-- `PLN.SLOT_STAT.VALUE` (R319). -/
def PLN_SLOT_STAT_VALUE : Fld := ⟨.pln, 0x110, 0, 32⟩

/-- `TFB.SCHED_CFG.QUANTUM_US` (R345). -/
def TFB_SCHED_CFG_QUANTUM_US : Fld := ⟨.tfb, 0x0, 0, 16⟩

/-- `TFB.LOAD_STATUS.REASON` (R345). -/
def TFB_LOAD_STATUS_REASON : Fld := ⟨.tfb, 0x10, 0, 4⟩

/-- `TFB.LOAD_STATUS.CONTEXT` (R345). -/
def TFB_LOAD_STATUS_CONTEXT : Fld := ⟨.tfb, 0x10, 4, 6⟩

/-- `TFB.DIE_STATUS.MU_FREE` (R345). -/
def TFB_DIE_STATUS_MU_FREE : Fld := ⟨.tfb, 0x20, 0, 4⟩

/-- `TFB.DIE_STATUS.TILES_FREE` (R345). -/
def TFB_DIE_STATUS_TILES_FREE : Fld := ⟨.tfb, 0x20, 4, 8⟩

/-- `TFB.DIE_STATUS.WS_FREE` (R345). -/
def TFB_DIE_STATUS_WS_FREE : Fld := ⟨.tfb, 0x20, 12, 10⟩

/-- `TFB.DIE_STATUS.RUNNING` (R345). -/
def TFB_DIE_STATUS_RUNNING : Fld := ⟨.tfb, 0x20, 22, 4⟩

/-- `TFB.CTX_SEL.CTX` (R345). -/
def TFB_CTX_SEL_CTX : Fld := ⟨.tfb, 0x100, 0, 6⟩

/-- `TFB.CTX_STATUS.STATE` (R345). -/
def TFB_CTX_STATUS_STATE : Fld := ⟨.tfb, 0x104, 0, 3⟩

/-- `TFB.CTX_STATUS.CLASS` (R345). -/
def TFB_CTX_STATUS_CLASS : Fld := ⟨.tfb, 0x104, 3, 1⟩

/-- `TFB.CTX_STATUS.DIE` (R345). -/
def TFB_CTX_STATUS_DIE : Fld := ⟨.tfb, 0x104, 4, 2⟩

/-- `TFB.CTX_STATUS.RUNS_PENDING` (R345). -/
def TFB_CTX_STATUS_RUNS_PENDING : Fld := ⟨.tfb, 0x104, 6, 10⟩

/-- `TFB.CTX_GROUP.GROUPS` (R345). -/
def TFB_CTX_GROUP_GROUPS : Fld := ⟨.tfb, 0x108, 0, 32⟩

/-- `TFB.STAT_SEL.COUNTER` (R345). -/
def TFB_STAT_SEL_COUNTER : Fld := ⟨.tfb, 0x200, 0, 3⟩

/-- `TFB.STAT_SEL.DIE` (R345). -/
def TFB_STAT_SEL_DIE : Fld := ⟨.tfb, 0x200, 3, 1⟩

/-- `TFB.STAT_SEL.CLR` (R345). -/
def TFB_STAT_SEL_CLR : Fld := ⟨.tfb, 0x200, 31, 1⟩

/-- `TFB.STAT_VALUE.VALUE` (R345). -/
def TFB_STAT_VALUE_VALUE : Fld := ⟨.tfb, 0x204, 0, 32⟩

/-- `ASH.SLOT_SEL.SLOT` (R370). -/
def ASH_SLOT_SEL_SLOT : Fld := ⟨.ash, 0x100, 0, 8⟩

/-- `ASH.SLOT_SEL.DIE` (R370). -/
def ASH_SLOT_SEL_DIE : Fld := ⟨.ash, 0x100, 8, 1⟩

/-- `ASH.SLOT_SEL.LEVEL` (R370). -/
def ASH_SLOT_SEL_LEVEL : Fld := ⟨.ash, 0x100, 9, 8⟩

/-- `ASH.SLOT_STATUS.STATE` (R370). -/
def ASH_SLOT_STATUS_STATE : Fld := ⟨.ash, 0x104, 0, 2⟩

/-- `ASH.SLOT_STATUS.SIZE` (R370). -/
def ASH_SLOT_STATUS_SIZE : Fld := ⟨.ash, 0x104, 2, 2⟩

/-- `ASH.SLOT_STATUS.COUNT` (R370). -/
def ASH_SLOT_STATUS_COUNT : Fld := ⟨.ash, 0x104, 8, 24⟩

/-- `ASH.SLOT_LEVEL.VALUE` (R370). -/
def ASH_SLOT_LEVEL_VALUE : Fld := ⟨.ash, 0x108, 0, 16⟩

/-- `ASH.STAT_SEL.COUNTER` (R370). -/
def ASH_STAT_SEL_COUNTER : Fld := ⟨.ash, 0x200, 0, 3⟩

/-- `ASH.STAT_SEL.DIE` (R370). -/
def ASH_STAT_SEL_DIE : Fld := ⟨.ash, 0x200, 3, 1⟩

/-- `ASH.STAT_SEL.CLR` (R370). -/
def ASH_STAT_SEL_CLR : Fld := ⟨.ash, 0x200, 31, 1⟩

/-- `ASH.STAT_VALUE.VALUE` (R370). -/
def ASH_STAT_VALUE_VALUE : Fld := ⟨.ash, 0x204, 0, 32⟩

/-- `OUT.TIMER_CFG.HDR_MS` (R400). -/
def OUT_TIMER_CFG_HDR_MS : Fld := ⟨.out, 0x0, 0, 8⟩

/-- `OUT.TIMER_CFG.ROSTER_WAIT` (R400). -/
def OUT_TIMER_CFG_ROSTER_WAIT : Fld := ⟨.out, 0x0, 8, 8⟩

/-- `OUT.TIMER_CFG.LOSS_S` (R400). -/
def OUT_TIMER_CFG_LOSS_S : Fld := ⟨.out, 0x0, 16, 16⟩

/-- `OUT.MISMATCH_CFG.MISMATCH_S` (R400). -/
def OUT_MISMATCH_CFG_MISMATCH_S : Fld := ⟨.out, 0x4, 0, 16⟩

/-- `OUT.SHARD_SEL.SLOT` (R400). -/
def OUT_SHARD_SEL_SLOT : Fld := ⟨.out, 0x100, 0, 4⟩

/-- `OUT.ROUND_STATUS.STATE` (R400). -/
def OUT_ROUND_STATUS_STATE : Fld := ⟨.out, 0x104, 0, 4⟩

/-- `OUT.ROUND_STATUS.EPOCH` (R400). -/
def OUT_ROUND_STATUS_EPOCH : Fld := ⟨.out, 0x104, 4, 12⟩

/-- `OUT.ROUND_NUM.ROUND` (R400). -/
def OUT_ROUND_NUM_ROUND : Fld := ⟨.out, 0x108, 0, 32⟩

/-- `OUT.FRONTIER.FRONTIER` (R400). -/
def OUT_FRONTIER_FRONTIER : Fld := ⟨.out, 0x10C, 0, 17⟩

/-- `OUT.RC.RC` (R400). -/
def OUT_RC_RC : Fld := ⟨.out, 0x110, 0, 32⟩

/-- `OUT.SITES.ROSTER` (R400). -/
def OUT_SITES_ROSTER : Fld := ⟨.out, 0x114, 0, 16⟩

/-- `OUT.SITES.REACH` (R400). -/
def OUT_SITES_REACH : Fld := ⟨.out, 0x114, 16, 16⟩

/-- `OUT.PIECE_SEL.PIECE` (R400). -/
def OUT_PIECE_SEL_PIECE : Fld := ⟨.out, 0x200, 0, 16⟩

/-- `OUT.PIECE_STATUS.SLOT` (R400). -/
def OUT_PIECE_STATUS_SLOT : Fld := ⟨.out, 0x204, 0, 17⟩

/-- `OUT.PIECE_STATUS.STATE` (R400). -/
def OUT_PIECE_STATUS_STATE : Fld := ⟨.out, 0x204, 17, 3⟩

/-- `OUT.PIECE_ROUND.ROUND` (R400). -/
def OUT_PIECE_ROUND_ROUND : Fld := ⟨.out, 0x208, 0, 32⟩

/-- `OUT.PIECE_MASK.MASK` (R400). -/
def OUT_PIECE_MASK_MASK : Fld := ⟨.out, 0x20C, 0, 16⟩

/-- `OUT.STAT_SEL.COUNTER` (R400). -/
def OUT_STAT_SEL_COUNTER : Fld := ⟨.out, 0x300, 0, 4⟩

/-- `OUT.STAT_SEL.CLR` (R400). -/
def OUT_STAT_SEL_CLR : Fld := ⟨.out, 0x300, 31, 1⟩

/-- `OUT.STAT_VALUE.VALUE` (R400). -/
def OUT_STAT_VALUE_VALUE : Fld := ⟨.out, 0x304, 0, 32⟩

/-- `OPT.PG_SEL.PG` (R174). -/
def OPT_PG_SEL_PG : Fld := ⟨.opt, 0x0, 0, 6⟩

/-- `OPT.PG_CFG.ENABLE` (R174). -/
def OPT_PG_CFG_ENABLE : Fld := ⟨.opt, 0x4, 0, 1⟩

/-- `OPT.PG_CFG.BREAKOUT` (R174). -/
def OPT_PG_CFG_BREAKOUT : Fld := ⟨.opt, 0x4, 1, 2⟩

/-- `OPT.PG_CFG.FEATHER` (R174). -/
def OPT_PG_CFG_FEATHER : Fld := ⟨.opt, 0x4, 3, 1⟩

/-- `OPT.PG_TAG.LOCAL_TAG` (R174). -/
def OPT_PG_TAG_LOCAL_TAG : Fld := ⟨.opt, 0x8, 0, 16⟩

/-- `OPT.PG_TAG.EXPECT_TAG` (R174). -/
def OPT_PG_TAG_EXPECT_TAG : Fld := ⟨.opt, 0x8, 16, 16⟩

/-- `OPT.PG_STATUS.STATE` (R174). -/
def OPT_PG_STATUS_STATE : Fld := ⟨.opt, 0x20, 0, 3⟩

/-- `OPT.PG_STATUS.SPARE_CH` (R174). -/
def OPT_PG_STATUS_SPARE_CH : Fld := ⟨.opt, 0x20, 3, 5⟩

/-- `OPT.PG_STATUS.PORTS_UP` (R174). -/
def OPT_PG_STATUS_PORTS_UP : Fld := ⟨.opt, 0x20, 8, 8⟩

/-- `OPT.PG_STATUS.HUNT_DISCARDS` (R174). -/
def OPT_PG_STATUS_HUNT_DISCARDS : Fld := ⟨.opt, 0x20, 16, 16⟩

/-- `OPT.PG_FAR.FAR_TAG` (R174). -/
def OPT_PG_FAR_FAR_TAG : Fld := ⟨.opt, 0x24, 0, 16⟩

/-- `OPT.PG_FAR.FAR_OPG` (R174). -/
def OPT_PG_FAR_FAR_OPG : Fld := ⟨.opt, 0x24, 16, 6⟩

/-- `OPT.PG_FAR.VALID` (R174). -/
def OPT_PG_FAR_VALID : Fld := ⟨.opt, 0x24, 22, 1⟩

/-- `OPT.FEATHER_CFG.STEP_10MS` (R174). -/
def OPT_FEATHER_CFG_STEP_10MS : Fld := ⟨.opt, 0x40, 0, 8⟩

/-- `OPT.FEATHER_CFG.RETIRE_EXP` (R174). -/
def OPT_FEATHER_CFG_RETIRE_EXP : Fld := ⟨.opt, 0x40, 8, 4⟩

/-- `OPT.FEATHER_CFG.FEED_MARGIN` (R174). -/
def OPT_FEATHER_CFG_FEED_MARGIN : Fld := ⟨.opt, 0x40, 16, 7⟩

/-- `OPT.LANE_SEL.PG` (R174). -/
def OPT_LANE_SEL_PG : Fld := ⟨.opt, 0x100, 0, 6⟩

/-- `OPT.LANE_SEL.CHAN` (R174). -/
def OPT_LANE_SEL_CHAN : Fld := ⟨.opt, 0x100, 6, 5⟩

/-- `OPT.LANE_SEL.CLR` (R174). -/
def OPT_LANE_SEL_CLR : Fld := ⟨.opt, 0x100, 31, 1⟩

/-- `OPT.LANE_STATUS.LANE` (R174). -/
def OPT_LANE_STATUS_LANE : Fld := ⟨.opt, 0x104, 0, 5⟩

/-- `OPT.LANE_STATUS.STATE` (R174). -/
def OPT_LANE_STATUS_STATE : Fld := ⟨.opt, 0x104, 5, 3⟩

/-- `OPT.LANE_STATUS.HEATER` (R174). -/
def OPT_LANE_STATUS_HEATER : Fld := ⟨.opt, 0x104, 8, 12⟩

/-- `OPT.LANE_STATUS.TX_LOCK` (R174). -/
def OPT_LANE_STATUS_TX_LOCK : Fld := ⟨.opt, 0x104, 20, 1⟩

/-- `OPT.LANE_STATUS.RX_LOCK` (R174). -/
def OPT_LANE_STATUS_RX_LOCK : Fld := ⟨.opt, 0x104, 21, 1⟩

/-- `OPT.LANE_STATUS.HIGH_CAL` (R174). -/
def OPT_LANE_STATUS_HIGH_CAL : Fld := ⟨.opt, 0x104, 22, 2⟩

/-- `OPT.LANE_STATUS.RESID_LOG` (R174). -/
def OPT_LANE_STATUS_RESID_LOG : Fld := ⟨.opt, 0x104, 24, 8⟩

/-- `OPT.LANE_CW_CORR.COUNT` (R174). -/
def OPT_LANE_CW_CORR_COUNT : Fld := ⟨.opt, 0x108, 0, 32⟩

/-- `OPT.LANE_CW_UNCORR.COUNT` (R174). -/
def OPT_LANE_CW_UNCORR_COUNT : Fld := ⟨.opt, 0x10C, 0, 32⟩

/-- `OPT.LANE_EVENTS.RX_ALIAS` (R174). -/
def OPT_LANE_EVENTS_RX_ALIAS : Fld := ⟨.opt, 0x110, 0, 8⟩

/-- `OPT.LANE_EVENTS.TX_ALIAS` (R174). -/
def OPT_LANE_EVENTS_TX_ALIAS : Fld := ⟨.opt, 0x110, 8, 8⟩

/-- `OPT.LANE_EVENTS.HOPS` (R174). -/
def OPT_LANE_EVENTS_HOPS : Fld := ⟨.opt, 0x110, 16, 8⟩

/-- `OPT.LANE_EVENTS.ALIGN_LOSS` (R174). -/
def OPT_LANE_EVENTS_ALIGN_LOSS : Fld := ⟨.opt, 0x110, 24, 8⟩

/-- `ELN.OCT_SEL.OCT` (R175). -/
def ELN_OCT_SEL_OCT : Fld := ⟨.eln, 0x0, 0, 3⟩

/-- `ELN.OCT_CFG.ENABLE` (R175). -/
def ELN_OCT_CFG_ENABLE : Fld := ⟨.eln, 0x4, 0, 8⟩

/-- `ELN.OCT_CFG.RATE` (R175). -/
def ELN_OCT_CFG_RATE : Fld := ⟨.eln, 0x4, 8, 2⟩

/-- `ELN.OCT_CFG.KIND` (R175). -/
def ELN_OCT_CFG_KIND : Fld := ⟨.eln, 0x4, 10, 1⟩

/-- `ELN.OCT_CFG.PORT_WIDTH` (R175). -/
def ELN_OCT_CFG_PORT_WIDTH : Fld := ⟨.eln, 0x4, 11, 2⟩

/-- `ELN.OCT_LG_LO.LG0` (R175). -/
def ELN_OCT_LG_LO_LG0 : Fld := ⟨.eln, 0x8, 0, 4⟩

/-- `ELN.OCT_LG_LO.MEMBER0` (R175). -/
def ELN_OCT_LG_LO_MEMBER0 : Fld := ⟨.eln, 0x8, 7, 1⟩

/-- `ELN.OCT_LG_LO.LG1` (R175). -/
def ELN_OCT_LG_LO_LG1 : Fld := ⟨.eln, 0x8, 8, 4⟩

/-- `ELN.OCT_LG_LO.MEMBER1` (R175). -/
def ELN_OCT_LG_LO_MEMBER1 : Fld := ⟨.eln, 0x8, 15, 1⟩

/-- `ELN.OCT_LG_LO.LG2` (R175). -/
def ELN_OCT_LG_LO_LG2 : Fld := ⟨.eln, 0x8, 16, 4⟩

/-- `ELN.OCT_LG_LO.MEMBER2` (R175). -/
def ELN_OCT_LG_LO_MEMBER2 : Fld := ⟨.eln, 0x8, 23, 1⟩

/-- `ELN.OCT_LG_LO.LG3` (R175). -/
def ELN_OCT_LG_LO_LG3 : Fld := ⟨.eln, 0x8, 24, 4⟩

/-- `ELN.OCT_LG_LO.MEMBER3` (R175). -/
def ELN_OCT_LG_LO_MEMBER3 : Fld := ⟨.eln, 0x8, 31, 1⟩

/-- `ELN.OCT_LG_HI.LG0` (R175). -/
def ELN_OCT_LG_HI_LG0 : Fld := ⟨.eln, 0xC, 0, 4⟩

/-- `ELN.OCT_LG_HI.MEMBER0` (R175). -/
def ELN_OCT_LG_HI_MEMBER0 : Fld := ⟨.eln, 0xC, 7, 1⟩

/-- `ELN.OCT_LG_HI.LG1` (R175). -/
def ELN_OCT_LG_HI_LG1 : Fld := ⟨.eln, 0xC, 8, 4⟩

/-- `ELN.OCT_LG_HI.MEMBER1` (R175). -/
def ELN_OCT_LG_HI_MEMBER1 : Fld := ⟨.eln, 0xC, 15, 1⟩

/-- `ELN.OCT_LG_HI.LG2` (R175). -/
def ELN_OCT_LG_HI_LG2 : Fld := ⟨.eln, 0xC, 16, 4⟩

/-- `ELN.OCT_LG_HI.MEMBER2` (R175). -/
def ELN_OCT_LG_HI_MEMBER2 : Fld := ⟨.eln, 0xC, 23, 1⟩

/-- `ELN.OCT_LG_HI.LG3` (R175). -/
def ELN_OCT_LG_HI_LG3 : Fld := ⟨.eln, 0xC, 24, 4⟩

/-- `ELN.OCT_LG_HI.MEMBER3` (R175). -/
def ELN_OCT_LG_HI_MEMBER3 : Fld := ⟨.eln, 0xC, 31, 1⟩

/-- `ELN.LANE_SEL.LANE` (R177). -/
def ELN_LANE_SEL_LANE : Fld := ⟨.eln, 0x100, 0, 6⟩

/-- `ELN.LANE_SEL.CLR` (R177). -/
def ELN_LANE_SEL_CLR : Fld := ⟨.eln, 0x100, 31, 1⟩

/-- `ELN.LANE_STATUS.STATE` (R177). -/
def ELN_LANE_STATUS_STATE : Fld := ⟨.eln, 0x104, 0, 3⟩

/-- `ELN.LANE_STATUS.EYE_MV` (R177). -/
def ELN_LANE_STATUS_EYE_MV : Fld := ⟨.eln, 0x104, 3, 8⟩

/-- `ELN.LANE_STATUS.SNR_QDB` (R177). -/
def ELN_LANE_STATUS_SNR_QDB : Fld := ⟨.eln, 0x104, 11, 8⟩

/-- `ELN.LANE_CW_CORR.COUNT` (R177). -/
def ELN_LANE_CW_CORR_COUNT : Fld := ⟨.eln, 0x108, 0, 32⟩

/-- `ELN.LANE_CW_UNCORR.COUNT` (R177). -/
def ELN_LANE_CW_UNCORR_COUNT : Fld := ⟨.eln, 0x10C, 0, 32⟩

/-- `SLF.CFG_SEL.GROUP` (R431). -/
def SLF_CFG_SEL_GROUP : Fld := ⟨.slf, 0x0, 0, 4⟩

/-- `SLF.GRP_CFG.ENABLE` (R431). -/
def SLF_GRP_CFG_ENABLE : Fld := ⟨.slf, 0x4, 0, 1⟩

/-- `SLF.GRP_CFG.PROTECT` (R431). -/
def SLF_GRP_CFG_PROTECT : Fld := ⟨.slf, 0x4, 1, 1⟩

/-- `SLF.GRP_CFG.ENCRYPT` (R431). -/
def SLF_GRP_CFG_ENCRYPT : Fld := ⟨.slf, 0x4, 2, 1⟩

/-- `SLF.GRP_CFG.PKT_Q7` (R431). -/
def SLF_GRP_CFG_PKT_Q7 : Fld := ⟨.slf, 0x4, 3, 1⟩

/-- `SLF.GRP_CFG.PLANNED` (R431). -/
def SLF_GRP_CFG_PLANNED : Fld := ⟨.slf, 0x4, 4, 8⟩

/-- `SLF.WIN_BASE_LO.BASE` (R431). -/
def SLF_WIN_BASE_LO_BASE : Fld := ⟨.slf, 0x8, 0, 32⟩

/-- `SLF.WIN_BASE_HI.BASE` (R431). -/
def SLF_WIN_BASE_HI_BASE : Fld := ⟨.slf, 0xC, 0, 32⟩

/-- `SLF.WIN_CFG.TX_UNITS` (R431). -/
def SLF_WIN_CFG_TX_UNITS : Fld := ⟨.slf, 0x10, 0, 5⟩

/-- `SLF.WIN_CFG.RX_UNITS` (R431). -/
def SLF_WIN_CFG_RX_UNITS : Fld := ⟨.slf, 0x10, 5, 5⟩

/-- `SLF.WIN_CFG.SKEW_US` (R431). -/
def SLF_WIN_CFG_SKEW_US : Fld := ⟨.slf, 0x10, 10, 10⟩

/-- `SLF.WIN_CFG.DIFF_MS` (R431). -/
def SLF_WIN_CFG_DIFF_MS : Fld := ⟨.slf, 0x10, 20, 4⟩

/-- `SLF.MON_SEL.GROUP` (R431). -/
def SLF_MON_SEL_GROUP : Fld := ⟨.slf, 0x100, 0, 4⟩

/-- `SLF.MON_CFG.SD_EXP` (R431). -/
def SLF_MON_CFG_SD_EXP : Fld := ⟨.slf, 0x104, 0, 4⟩

/-- `SLF.MON_CFG.GRACE_MULT` (R431). -/
def SLF_MON_CFG_GRACE_MULT : Fld := ⟨.slf, 0x104, 4, 4⟩

/-- `SLF.MON_CFG.HOLD_S` (R431). -/
def SLF_MON_CFG_HOLD_S : Fld := ⟨.slf, 0x104, 8, 16⟩

/-- `SLF.PROT_CFG.WTR_S` (R431). -/
def SLF_PROT_CFG_WTR_S : Fld := ⟨.slf, 0x108, 0, 16⟩

/-- `SLF.PROT_CFG.FORCE` (R431). -/
def SLF_PROT_CFG_FORCE : Fld := ⟨.slf, 0x108, 16, 2⟩

/-- `SLF.DCC_CFG.PORT0_LG` (R431). -/
def SLF_DCC_CFG_PORT0_LG : Fld := ⟨.slf, 0x200, 0, 4⟩

/-- `SLF.DCC_CFG.PORT0_EN` (R431). -/
def SLF_DCC_CFG_PORT0_EN : Fld := ⟨.slf, 0x200, 4, 1⟩

/-- `SLF.DCC_CFG.PORT1_LG` (R431). -/
def SLF_DCC_CFG_PORT1_LG : Fld := ⟨.slf, 0x200, 8, 4⟩

/-- `SLF.DCC_CFG.PORT1_EN` (R431). -/
def SLF_DCC_CFG_PORT1_EN : Fld := ⟨.slf, 0x200, 12, 1⟩

/-- `SLF.RD_SEL.GROUP` (R431). -/
def SLF_RD_SEL_GROUP : Fld := ⟨.slf, 0x300, 0, 4⟩

/-- `SLF.RD_SEL.LEG` (R431). -/
def SLF_RD_SEL_LEG : Fld := ⟨.slf, 0x300, 4, 1⟩

/-- `SLF.RD_SEL.COUNTER` (R431). -/
def SLF_RD_SEL_COUNTER : Fld := ⟨.slf, 0x300, 5, 5⟩

/-- `SLF.RD_SEL.BIN` (R431). -/
def SLF_RD_SEL_BIN : Fld := ⟨.slf, 0x300, 10, 3⟩

/-- `SLF.RD_SEL.PM_ITEM` (R431). -/
def SLF_RD_SEL_PM_ITEM : Fld := ⟨.slf, 0x300, 13, 3⟩

/-- `SLF.RD_SEL.CLR` (R431). -/
def SLF_RD_SEL_CLR : Fld := ⟨.slf, 0x300, 31, 1⟩

/-- `SLF.GRP_STATUS.STATE` (R431). -/
def SLF_GRP_STATUS_STATE : Fld := ⟨.slf, 0x304, 0, 3⟩

/-- `SLF.GRP_STATUS.RDI` (R431). -/
def SLF_GRP_STATUS_RDI : Fld := ⟨.slf, 0x304, 3, 1⟩

/-- `SLF.GRP_STATUS.SUSPENDED` (R431). -/
def SLF_GRP_STATUS_SUSPENDED : Fld := ⟨.slf, 0x304, 4, 1⟩

/-- `SLF.GRP_STATUS.LANES` (R431). -/
def SLF_GRP_STATUS_LANES : Fld := ⟨.slf, 0x304, 5, 16⟩

/-- `SLF.GRP_STATUS.CAUSE` (R431). -/
def SLF_GRP_STATUS_CAUSE : Fld := ⟨.slf, 0x304, 21, 3⟩

/-- `SLF.LEG_STATUS.DEFECTS` (R431). -/
def SLF_LEG_STATUS_DEFECTS : Fld := ⟨.slf, 0x308, 0, 6⟩

/-- `SLF.LEG_STATUS.SELECTED` (R431). -/
def SLF_LEG_STATUS_SELECTED : Fld := ⟨.slf, 0x308, 6, 1⟩

/-- `SLF.LEG_STATUS.WTR` (R431). -/
def SLF_LEG_STATUS_WTR : Fld := ⟨.slf, 0x308, 7, 1⟩

/-- `SLF.LEG_STATUS.RTT_US` (R431). -/
def SLF_LEG_STATUS_RTT_US : Fld := ⟨.slf, 0x308, 16, 16⟩

/-- `SLF.STAT_VALUE.VALUE` (R431). -/
def SLF_STAT_VALUE_VALUE : Fld := ⟨.slf, 0x30C, 0, 32⟩

/-- `SLF.PM_VALUE.VALUE` (R431). -/
def SLF_PM_VALUE_VALUE : Fld := ⟨.slf, 0x310, 0, 31⟩

/-- `SLF.PM_VALUE.SUSPECT` (R431). -/
def SLF_PM_VALUE_SUSPECT : Fld := ⟨.slf, 0x310, 31, 1⟩

/-- `SLF.DCC_STATUS.SLIP_DROP` (R431). -/
def SLF_DCC_STATUS_SLIP_DROP : Fld := ⟨.slf, 0x320, 0, 8⟩

/-- `SLF.DCC_STATUS.SLIP_REPEAT` (R431). -/
def SLF_DCC_STATUS_SLIP_REPEAT : Fld := ⟨.slf, 0x320, 8, 8⟩

/-- `SLF.DCC_STATUS.FRAMES_BAD` (R431). -/
def SLF_DCC_STATUS_FRAMES_BAD : Fld := ⟨.slf, 0x320, 16, 8⟩

/-- `SLF.DCC_STATUS.ACTIVE` (R431). -/
def SLF_DCC_STATUS_ACTIVE : Fld := ⟨.slf, 0x320, 24, 1⟩

/-- `LSC.PORT_SEL.PORT` (R460). -/
def LSC_PORT_SEL_PORT : Fld := ⟨.lsc, 0x0, 0, 10⟩

/-- `LSC.PORT_CFG.ENCRYPT` (R460). -/
def LSC_PORT_CFG_ENCRYPT : Fld := ⟨.lsc, 0x4, 0, 1⟩

/-- `LSC.PORT_CFG.REPLAY_WIN` (R460). -/
def LSC_PORT_CFG_REPLAY_WIN : Fld := ⟨.lsc, 0x4, 16, 16⟩

/-- `LSC.KEY_CFG.REKEY_S` (R460). -/
def LSC_KEY_CFG_REKEY_S : Fld := ⟨.lsc, 0x10, 0, 16⟩

/-- `LSC.KEY_CFG.FAB_GRACE_US` (R460). -/
def LSC_KEY_CFG_FAB_GRACE_US : Fld := ⟨.lsc, 0x10, 16, 16⟩

/-- `LSC.STAT_SEL.LINK` (R460). -/
def LSC_STAT_SEL_LINK : Fld := ⟨.lsc, 0x100, 0, 10⟩

/-- `LSC.STAT_SEL.COUNTER` (R460). -/
def LSC_STAT_SEL_COUNTER : Fld := ⟨.lsc, 0x100, 10, 4⟩

/-- `LSC.STAT_SEL.CLR` (R460). -/
def LSC_STAT_SEL_CLR : Fld := ⟨.lsc, 0x100, 31, 1⟩

/-- `LSC.LINK_STATUS.STATE` (R460). -/
def LSC_LINK_STATUS_STATE : Fld := ⟨.lsc, 0x104, 0, 3⟩

/-- `LSC.LINK_STATUS.TX_AN` (R460). -/
def LSC_LINK_STATUS_TX_AN : Fld := ⟨.lsc, 0x104, 3, 2⟩

/-- `LSC.LINK_STATUS.PREV` (R460). -/
def LSC_LINK_STATUS_PREV : Fld := ⟨.lsc, 0x104, 5, 1⟩

/-- `LSC.LINK_EPOCH.EPOCH` (R460). -/
def LSC_LINK_EPOCH_EPOCH : Fld := ⟨.lsc, 0x108, 0, 32⟩

/-- `LSC.STAT_VALUE.VALUE` (R460). -/
def LSC_STAT_VALUE_VALUE : Fld := ⟨.lsc, 0x10C, 0, 32⟩

/-- `KMC.STATUS.BUSY` (R460). -/
def KMC_STATUS_BUSY : Fld := ⟨.kmc, 0x100, 0, 7⟩

/-- `KMC.STATUS.SAVED` (R460). -/
def KMC_STATUS_SAVED : Fld := ⟨.kmc, 0x100, 16, 16⟩

/-- `KMC.SAVES.SAVES` (R460). -/
def KMC_SAVES_SAVES : Fld := ⟨.kmc, 0x104, 0, 32⟩

/-- `TIM.INC_LO.INC` (R475). -/
def TIM_INC_LO_INC : Fld := ⟨.tim, 0x0, 0, 32⟩

/-- `TIM.INC_HI.INC` (R475). -/
def TIM_INC_HI_INC : Fld := ⟨.tim, 0x4, 0, 4⟩

/-- `TIM.GUARD_CFG.JUMP_NS` (R475). -/
def TIM_GUARD_CFG_JUMP_NS : Fld := ⟨.tim, 0x10, 0, 20⟩

/-- `TIM.GUARD_CFG.N_CONSIST` (R475). -/
def TIM_GUARD_CFG_N_CONSIST : Fld := ⟨.tim, 0x10, 20, 4⟩

/-- `TIM.GUARD_CFG2.CONSIST_NS` (R475). -/
def TIM_GUARD_CFG2_CONSIST_NS : Fld := ⟨.tim, 0x14, 0, 16⟩

/-- `TIM.STEP_LO.DELTA` (R475). -/
def TIM_STEP_LO_DELTA : Fld := ⟨.tim, 0x20, 0, 32⟩

/-- `TIM.STEP_HI.DELTA` (R475). -/
def TIM_STEP_HI_DELTA : Fld := ⟨.tim, 0x24, 0, 32⟩

/-- `TIM.STATUS.TRACK` (R475). -/
def TIM_STATUS_TRACK : Fld := ⟨.tim, 0x30, 0, 1⟩

/-- `TIM.STATUS.JUMP_PENDING` (R475). -/
def TIM_STATUS_JUMP_PENDING : Fld := ⟨.tim, 0x30, 1, 1⟩

/-- `TIM.STATUS.ARMED` (R475). -/
def TIM_STATUS_ARMED : Fld := ⟨.tim, 0x30, 2, 1⟩

/-- `TIM.STATUS.HOLDOVER` (R475). -/
def TIM_STATUS_HOLDOVER : Fld := ⟨.tim, 0x30, 3, 1⟩

/-- `TIM.STATUS.CONSIST_COUNT` (R475). -/
def TIM_STATUS_CONSIST_COUNT : Fld := ⟨.tim, 0x30, 4, 4⟩

/-- `TIM.STATUS.STEPS_REFUSED` (R475). -/
def TIM_STATUS_STEPS_REFUSED : Fld := ⟨.tim, 0x30, 8, 8⟩

/-- `TIM.STATUS.STEPS_APPLIED` (R475). -/
def TIM_STATUS_STEPS_APPLIED : Fld := ⟨.tim, 0x30, 16, 16⟩

/-- `TIM.JUMP_CAND_LO.CAND` (R475). -/
def TIM_JUMP_CAND_LO_CAND : Fld := ⟨.tim, 0x34, 0, 32⟩

/-- `TIM.JUMP_CAND_HI.CAND` (R475). -/
def TIM_JUMP_CAND_HI_CAND : Fld := ⟨.tim, 0x38, 0, 32⟩

/-- `TIM.SNAP_CTRL.CAPTURE` (R475). -/
def TIM_SNAP_CTRL_CAPTURE : Fld := ⟨.tim, 0x40, 0, 1⟩

/-- `TIM.SNAP_SEC_LO.SEC` (R475). -/
def TIM_SNAP_SEC_LO_SEC : Fld := ⟨.tim, 0x44, 0, 32⟩

/-- `TIM.SNAP_SEC_HI.SEC` (R475). -/
def TIM_SNAP_SEC_HI_SEC : Fld := ⟨.tim, 0x48, 0, 16⟩

/-- `TIM.SNAP_NS.NS` (R475). -/
def TIM_SNAP_NS_NS : Fld := ⟨.tim, 0x4C, 0, 32⟩

/-- `TIM.SNAP_FRAC.FRAC` (R475). -/
def TIM_SNAP_FRAC_FRAC : Fld := ⟨.tim, 0x50, 0, 16⟩

/-- `TIM.PPS_CFG.OUT_EN` (R475). -/
def TIM_PPS_CFG_OUT_EN : Fld := ⟨.tim, 0x60, 0, 1⟩

/-- `TIM.PPS_CFG.IN_EN` (R475). -/
def TIM_PPS_CFG_IN_EN : Fld := ⟨.tim, 0x60, 1, 1⟩

/-- `TIM.PPS_CFG.OUT_ADJ` (R475). -/
def TIM_PPS_CFG_OUT_ADJ : Fld := ⟨.tim, 0x60, 16, 16⟩

/-- `TIM.PPS_IN_SEC.SEC` (R475). -/
def TIM_PPS_IN_SEC_SEC : Fld := ⟨.tim, 0x64, 0, 32⟩

/-- `TIM.PPS_IN_NS.NS` (R475). -/
def TIM_PPS_IN_NS_NS : Fld := ⟨.tim, 0x68, 0, 32⟩

/-- `TIM.PPS_IN_COUNT.COUNT` (R475). -/
def TIM_PPS_IN_COUNT_COUNT : Fld := ⟨.tim, 0x6C, 0, 32⟩

/-- `TIM.PTP_CFG.DOMAIN` (R475). -/
def TIM_PTP_CFG_DOMAIN : Fld := ⟨.tim, 0x70, 0, 8⟩

/-- `TIM.PTP_CFG.DELAY_MECH` (R475). -/
def TIM_PTP_CFG_DELAY_MECH : Fld := ⟨.tim, 0x70, 8, 1⟩

/-- `TIM.PTP_CFG.PRIORITY1` (R475). -/
def TIM_PTP_CFG_PRIORITY1 : Fld := ⟨.tim, 0x70, 16, 8⟩

/-- `TIM.PTP_CFG.PRIORITY2` (R475). -/
def TIM_PTP_CFG_PRIORITY2 : Fld := ⟨.tim, 0x70, 24, 8⟩

/-- `TIM.PORT_SEL.PORT` (R475). -/
def TIM_PORT_SEL_PORT : Fld := ⟨.tim, 0x100, 0, 10⟩

/-- `TIM.PORT_ADJ.TX_ADJ` (R475). -/
def TIM_PORT_ADJ_TX_ADJ : Fld := ⟨.tim, 0x104, 0, 16⟩

/-- `TIM.PORT_ADJ.RX_ADJ` (R475). -/
def TIM_PORT_ADJ_RX_ADJ : Fld := ⟨.tim, 0x104, 16, 16⟩

/-- `TIM.LAUNCH_LATE.COUNT` (R475). -/
def TIM_LAUNCH_LATE_COUNT : Fld := ⟨.tim, 0x110, 0, 32⟩

/-- `PWR.CAP_CFG.CAP_W` (R498). -/
def PWR_CAP_CFG_CAP_W : Fld := ⟨.pwr, 0x0, 0, 12⟩

/-- `PWR.V_CFG.V_MAX_MV` (R498). -/
def PWR_V_CFG_V_MAX_MV : Fld := ⟨.pwr, 0x4, 0, 10⟩

/-- `PWR.V_CFG.V_IDLE_MV` (R498). -/
def PWR_V_CFG_V_IDLE_MV : Fld := ⟨.pwr, 0x4, 10, 10⟩

/-- `PWR.THERM_CFG.T_TARGET_C` (R498). -/
def PWR_THERM_CFG_T_TARGET_C : Fld := ⟨.pwr, 0x10, 0, 8⟩

/-- `PWR.UNIT_CFG.NAP_US` (R498). -/
def PWR_UNIT_CFG_NAP_US : Fld := ⟨.pwr, 0x20, 0, 16⟩

/-- `PWR.UNIT_CFG.OFF_MS` (R498). -/
def PWR_UNIT_CFG_OFF_MS : Fld := ⟨.pwr, 0x20, 16, 16⟩

/-- `PWR.ALARM_SEL.ALARM` (R498). -/
def PWR_ALARM_SEL_ALARM : Fld := ⟨.pwr, 0x40, 0, 3⟩

/-- `PWR.ALARM_SEC_LO.SEC` (R498). -/
def PWR_ALARM_SEC_LO_SEC : Fld := ⟨.pwr, 0x44, 0, 32⟩

/-- `PWR.ALARM_SEC_HI.SEC` (R498). -/
def PWR_ALARM_SEC_HI_SEC : Fld := ⟨.pwr, 0x48, 0, 16⟩

/-- `PWR.ALARM_NS.NS` (R498). -/
def PWR_ALARM_NS_NS : Fld := ⟨.pwr, 0x4C, 0, 32⟩

/-- `PWR.ALARM_MASK.HBM` (R498). -/
def PWR_ALARM_MASK_HBM : Fld := ⟨.pwr, 0x50, 0, 16⟩

/-- `PWR.ALARM_MASK.DDR` (R498). -/
def PWR_ALARM_MASK_DDR : Fld := ⟨.pwr, 0x50, 16, 16⟩

/-- `PWR.ALARM_CFG.EN` (R498). -/
def PWR_ALARM_CFG_EN : Fld := ⟨.pwr, 0x54, 0, 1⟩

/-- `PWR.ALARM_CFG.WAKE_MU` (R498). -/
def PWR_ALARM_CFG_WAKE_MU : Fld := ⟨.pwr, 0x54, 1, 1⟩

/-- `PWR.ALARM_CFG.WAKE_TILES` (R498). -/
def PWR_ALARM_CFG_WAKE_TILES : Fld := ⟨.pwr, 0x54, 2, 1⟩

/-- `PWR.ALARM_CFG.NOTIFY` (R498). -/
def PWR_ALARM_CFG_NOTIFY : Fld := ⟨.pwr, 0x54, 3, 1⟩

/-- `PWR.ALARM_CFG.HOLD_10MS` (R498). -/
def PWR_ALARM_CFG_HOLD_10MS : Fld := ⟨.pwr, 0x54, 8, 8⟩

/-- `PWR.ALARM_STATUS.FIRED` (R498). -/
def PWR_ALARM_STATUS_FIRED : Fld := ⟨.pwr, 0x58, 0, 8⟩

/-- `PWR.POWER_STATUS.EST_W` (R498). -/
def PWR_POWER_STATUS_EST_W : Fld := ⟨.pwr, 0x100, 0, 12⟩

/-- `PWR.POWER_STATUS.CAL_FAIL` (R498). -/
def PWR_POWER_STATUS_CAL_FAIL : Fld := ⟨.pwr, 0x100, 12, 1⟩

/-- `PWR.POWER_STATUS.THROTTLED` (R498). -/
def PWR_POWER_STATUS_THROTTLED : Fld := ⟨.pwr, 0x100, 13, 1⟩

/-- `PWR.POWER_STATUS.SLEW` (R498). -/
def PWR_POWER_STATUS_SLEW : Fld := ⟨.pwr, 0x100, 14, 1⟩

/-- `PWR.POWER_STATUS.CAP_UNREACHABLE` (R498). -/
def PWR_POWER_STATUS_CAP_UNREACHABLE : Fld := ⟨.pwr, 0x100, 15, 1⟩

/-- `PWR.POWER_STATUS.ISSUE` (R498). -/
def PWR_POWER_STATUS_ISSUE : Fld := ⟨.pwr, 0x100, 16, 9⟩

/-- `PWR.CAL_STATUS.GAIN` (R498). -/
def PWR_CAL_STATUS_GAIN : Fld := ⟨.pwr, 0x104, 0, 16⟩

/-- `PWR.CAL_STATUS.FAILS` (R498). -/
def PWR_CAL_STATUS_FAILS : Fld := ⟨.pwr, 0x104, 16, 16⟩

/-- `PWR.TEMP_STATUS.TJ_MAX_C` (R498). -/
def PWR_TEMP_STATUS_TJ_MAX_C : Fld := ⟨.pwr, 0x108, 0, 8⟩

/-- `PWR.TEMP_STATUS.SENSOR` (R498). -/
def PWR_TEMP_STATUS_SENSOR : Fld := ⟨.pwr, 0x108, 8, 7⟩

/-- `PWR.TEMP_STATUS.BAND` (R498). -/
def PWR_TEMP_STATUS_BAND : Fld := ⟨.pwr, 0x108, 15, 3⟩

/-- `PWR.TEMP_STATUS.OE_MAX_C` (R498). -/
def PWR_TEMP_STATUS_OE_MAX_C : Fld := ⟨.pwr, 0x108, 18, 8⟩

/-- `PWR.TEMP_STATUS.OE` (R498). -/
def PWR_TEMP_STATUS_OE : Fld := ⟨.pwr, 0x108, 26, 6⟩

/-- `PWR.PACE_SEL.INDEX` (R59). -/
def PWR_PACE_SEL_INDEX : Fld := ⟨.pwr, 0x180, 0, 8⟩

/-- `PWR.PACE_SEL.KIND` (R59). -/
def PWR_PACE_SEL_KIND : Fld := ⟨.pwr, 0x180, 8, 4⟩

/-- `PWR.PACE_SEL.CLR_MIN` (R59). -/
def PWR_PACE_SEL_CLR_MIN : Fld := ⟨.pwr, 0x180, 31, 1⟩

/-- `PWR.PACE_VALUE.CUR_MTPS` (R59). -/
def PWR_PACE_VALUE_CUR_MTPS : Fld := ⟨.pwr, 0x184, 0, 16⟩

/-- `PWR.PACE_VALUE.MIN_MTPS` (R59). -/
def PWR_PACE_VALUE_MIN_MTPS : Fld := ⟨.pwr, 0x184, 16, 15⟩

/-- `PWR.PACE_VALUE.INVALID` (R59). -/
def PWR_PACE_VALUE_INVALID : Fld := ⟨.pwr, 0x184, 31, 1⟩

/-- `PWR.VFLOOR_STATUS.FLOOR_MV` (R59). -/
def PWR_VFLOOR_STATUS_FLOOR_MV : Fld := ⟨.pwr, 0x188, 0, 10⟩

/-- `PWR.VFLOOR_STATUS.CORE_MV` (R59). -/
def PWR_VFLOOR_STATUS_CORE_MV : Fld := ⟨.pwr, 0x188, 10, 10⟩

/-- `PWR.VFLOOR_STATUS.RAISE_COUNT` (R59). -/
def PWR_VFLOOR_STATUS_RAISE_COUNT : Fld := ⟨.pwr, 0x188, 20, 8⟩

/-- `PWR.VFLOOR_STATUS.TRAFFIC` (R59). -/
def PWR_VFLOOR_STATUS_TRAFFIC : Fld := ⟨.pwr, 0x188, 28, 1⟩

/-- `PWR.VFLOOR_STATUS.PACE_FAIL` (R59). -/
def PWR_VFLOOR_STATUS_PACE_FAIL : Fld := ⟨.pwr, 0x188, 29, 1⟩

/-- `PWR.VT_SEL.BAND` (R498). -/
def PWR_VT_SEL_BAND : Fld := ⟨.pwr, 0x190, 0, 3⟩

/-- `PWR.VT_ENTRY.FLOOR_MV` (R498). -/
def PWR_VT_ENTRY_FLOOR_MV : Fld := ⟨.pwr, 0x194, 0, 10⟩

/-- `PWR.VT_ENTRY.RAISES` (R498). -/
def PWR_VT_ENTRY_RAISES : Fld := ⟨.pwr, 0x194, 10, 8⟩

/-- `PWR.UNIT_SEL.KIND` (R498). -/
def PWR_UNIT_SEL_KIND : Fld := ⟨.pwr, 0x200, 0, 3⟩

/-- `PWR.UNIT_SEL.INDEX` (R498). -/
def PWR_UNIT_SEL_INDEX : Fld := ⟨.pwr, 0x200, 3, 8⟩

/-- `PWR.UNIT_SEL.CLR` (R498). -/
def PWR_UNIT_SEL_CLR : Fld := ⟨.pwr, 0x200, 31, 1⟩

/-- `PWR.UNIT_STATE.STATE` (R498). -/
def PWR_UNIT_STATE_STATE : Fld := ⟨.pwr, 0x204, 0, 3⟩

/-- `PWR.UNIT_STATE.FORCED` (R498). -/
def PWR_UNIT_STATE_FORCED : Fld := ⟨.pwr, 0x204, 3, 1⟩

/-- `PWR.UNIT_STATE.LAST_CAUSE` (R498). -/
def PWR_UNIT_STATE_LAST_CAUSE : Fld := ⟨.pwr, 0x204, 4, 4⟩

/-- `PWR.UNIT_STATE.ENTRIES` (R498). -/
def PWR_UNIT_STATE_ENTRIES : Fld := ⟨.pwr, 0x204, 16, 16⟩

/-- `PWR.UNIT_REFUSE.REFUSED` (R498). -/
def PWR_UNIT_REFUSE_REFUSED : Fld := ⟨.pwr, 0x208, 0, 16⟩

/-- `PWR.UNIT_REFUSE.ABORTED` (R498). -/
def PWR_UNIT_REFUSE_ABORTED : Fld := ⟨.pwr, 0x208, 16, 16⟩

/-- `EVR.RATE_CFG.BURST` (R516). -/
def EVR_RATE_CFG_BURST : Fld := ⟨.evr, 0x0, 0, 8⟩

/-- `EVR.RATE_CFG.PER_S` (R516). -/
def EVR_RATE_CFG_PER_S : Fld := ⟨.evr, 0x0, 8, 8⟩

/-- `EVR.HEAD_SEQ_LO.SEQ` (R516). -/
def EVR_HEAD_SEQ_LO_SEQ : Fld := ⟨.evr, 0x100, 0, 32⟩

/-- `EVR.HEAD_SEQ_HI.SEQ` (R516). -/
def EVR_HEAD_SEQ_HI_SEQ : Fld := ⟨.evr, 0x104, 0, 32⟩

/-- `EVR.TAIL_SEQ_LO.SEQ` (R516). -/
def EVR_TAIL_SEQ_LO_SEQ : Fld := ⟨.evr, 0x108, 0, 32⟩

/-- `EVR.TAIL_SEQ_HI.SEQ` (R516). -/
def EVR_TAIL_SEQ_HI_SEQ : Fld := ⟨.evr, 0x10C, 0, 32⟩

/-- `EVR.STATUS.SUPPRESSED` (R516). -/
def EVR_STATUS_SUPPRESSED : Fld := ⟨.evr, 0x110, 0, 16⟩

/-- `EVR.STATUS.LOST_UNMIRRORED` (R516). -/
def EVR_STATUS_LOST_UNMIRRORED : Fld := ⟨.evr, 0x110, 16, 8⟩

/-- `EVR.STATUS.PERSIST_LOST` (R516). -/
def EVR_STATUS_PERSIST_LOST : Fld := ⟨.evr, 0x110, 24, 8⟩

/-- `FLT.CFG.UDP_PORT` (R538). -/
def FLT_CFG_UDP_PORT : Fld := ⟨.flt, 0x0, 0, 16⟩

/-- `FLT.CFG.MISS_COUNT` (R538). -/
def FLT_CFG_MISS_COUNT : Fld := ⟨.flt, 0x0, 16, 4⟩

/-- `FLT.CFG.VOTE_WAIT` (R538). -/
def FLT_CFG_VOTE_WAIT : Fld := ⟨.flt, 0x0, 20, 8⟩

/-- `FLT.CFG2.QUIET_US` (R538). -/
def FLT_CFG2_QUIET_US : Fld := ⟨.flt, 0x4, 0, 16⟩

/-- `FLT.HEALTH_CFG.EXPEL_TH` (R538). -/
def FLT_HEALTH_CFG_EXPEL_TH : Fld := ⟨.flt, 0x10, 0, 16⟩

/-- `FLT.HEALTH_CFG.HALF_S` (R538). -/
def FLT_HEALTH_CFG_HALF_S : Fld := ⟨.flt, 0x10, 16, 16⟩

/-- `FLT.BUDGET_CFG.EXP_DOMAIN` (R538). -/
def FLT_BUDGET_CFG_EXP_DOMAIN : Fld := ⟨.flt, 0x20, 0, 4⟩

/-- `FLT.BUDGET_CFG.DOMAIN_WIN_S` (R538). -/
def FLT_BUDGET_CFG_DOMAIN_WIN_S : Fld := ⟨.flt, 0x20, 4, 12⟩

/-- `FLT.BUDGET_CFG.EXP_GROUP` (R538). -/
def FLT_BUDGET_CFG_EXP_GROUP : Fld := ⟨.flt, 0x20, 16, 4⟩

/-- `FLT.BUDGET_CFG.GROUP_WIN_S` (R538). -/
def FLT_BUDGET_CFG_GROUP_WIN_S : Fld := ⟨.flt, 0x20, 20, 12⟩

/-- `FLT.PROB_CFG.PROB_S` (R538). -/
def FLT_PROB_CFG_PROB_S : Fld := ⟨.flt, 0x30, 0, 16⟩

/-- `FLT.GRP_SEL.SLOT` (R538). -/
def FLT_GRP_SEL_SLOT : Fld := ⟨.flt, 0x100, 0, 4⟩

/-- `FLT.GRP_STATUS.STATE` (R538). -/
def FLT_GRP_STATUS_STATE : Fld := ⟨.flt, 0x104, 0, 3⟩

/-- `FLT.GRP_STATUS.HOLD` (R538). -/
def FLT_GRP_STATUS_HOLD : Fld := ⟨.flt, 0x104, 3, 1⟩

/-- `FLT.GRP_STATUS.GEN` (R538). -/
def FLT_GRP_STATUS_GEN : Fld := ⟨.flt, 0x104, 4, 4⟩

/-- `FLT.GRP_STATUS.COORD` (R538). -/
def FLT_GRP_STATUS_COORD : Fld := ⟨.flt, 0x104, 8, 12⟩

/-- `FLT.GRP_EPOCH.EPOCH` (R538). -/
def FLT_GRP_EPOCH_EPOCH : Fld := ⟨.flt, 0x108, 0, 32⟩

/-- `FLT.MEMBER_SEL.MEMBER` (R538). -/
def FLT_MEMBER_SEL_MEMBER : Fld := ⟨.flt, 0x110, 0, 12⟩

/-- `FLT.MEMBER_SEL.PORT_MODE` (R538). -/
def FLT_MEMBER_SEL_PORT_MODE : Fld := ⟨.flt, 0x110, 12, 1⟩

/-- `FLT.MEMBER_STATUS.STATE` (R538). -/
def FLT_MEMBER_STATUS_STATE : Fld := ⟨.flt, 0x114, 0, 2⟩

/-- `FLT.MEMBER_STATUS.WATCHED` (R538). -/
def FLT_MEMBER_STATUS_WATCHED : Fld := ⟨.flt, 0x114, 2, 1⟩

/-- `FLT.MEMBER_STATUS.THROTTLED` (R538). -/
def FLT_MEMBER_STATUS_THROTTLED : Fld := ⟨.flt, 0x114, 3, 1⟩

/-- `FLT.MEMBER_STATUS.ISSUE` (R538). -/
def FLT_MEMBER_STATUS_ISSUE : Fld := ⟨.flt, 0x114, 4, 9⟩

/-- `FLT.MEMBER_STATUS.SCORE` (R538). -/
def FLT_MEMBER_STATUS_SCORE : Fld := ⟨.flt, 0x114, 16, 16⟩

/-- `FLT.STAT_SEL.COUNTER` (R538). -/
def FLT_STAT_SEL_COUNTER : Fld := ⟨.flt, 0x200, 0, 4⟩

/-- `FLT.STAT_SEL.SLOT` (R538). -/
def FLT_STAT_SEL_SLOT : Fld := ⟨.flt, 0x200, 4, 4⟩

/-- `FLT.STAT_SEL.CLR` (R538). -/
def FLT_STAT_SEL_CLR : Fld := ⟨.flt, 0x200, 31, 1⟩

/-- `FLT.STAT_VALUE.VALUE` (R538). -/
def FLT_STAT_VALUE_VALUE : Fld := ⟨.flt, 0x204, 0, 32⟩

end Reg

/-- The registers of block MGT. -/
def regsMgt : List RegDef := [
  -- PART_ID
  ⟨0x0, 1, none, [], [⟨0, 16, .ro, 20768⟩, ⟨16, 8, .ro, 160⟩, ⟨24, 4, .ro, 1⟩]⟩,
  -- SERIAL_LO
  ⟨0x8, 1, none, [], [⟨0, 32, .ro, 0⟩]⟩,
  -- SERIAL_HI
  ⟨0xC, 1, none, [], [⟨0, 32, .ro, 0⟩]⟩,
  -- STRAP_STATUS
  ⟨0x10, 1, none, [], [⟨0, 1, .ro, 0⟩, ⟨1, 2, .ro, 0⟩, ⟨3, 3, .ro, 0⟩, ⟨6, 1, .ro, 0⟩, ⟨7, 1, .ro, 0⟩, ⟨8, 1, .ro, 0⟩]⟩,
  -- READINESS
  ⟨0x20, 1, none, [], [⟨0, 4, .ro, 0⟩, ⟨4, 8, .ro, 0⟩, ⟨12, 1, .ro, 0⟩, ⟨13, 2, .ro, 3⟩, ⟨16, 8, .ro, 0⟩]⟩,
  -- RECOV_ADDR_LO
  ⟨0x30, 1, none, [], [⟨0, 32, .rw, 0⟩]⟩,
  -- RECOV_ADDR_HI
  ⟨0x34, 1, none, [], [⟨0, 32, .rw, 0⟩]⟩,
  -- RECOV_CTRL
  ⟨0x38, 1, none, [], [⟨0, 16, .rw, 0⟩, ⟨31, 1, .wo, 0⟩]⟩,
  -- UPDATE_STATUS
  ⟨0x40, 1, none, [], [⟨0, 4, .ro, 0⟩, ⟨4, 4, .ro, 15⟩, ⟨8, 16, .ro, 0⟩, ⟨24, 8, .ro, 0⟩]⟩,
  -- MGC_STATUS
  ⟨0x80, 1, none, [], [⟨0, 2, .ro, 0⟩, ⟨2, 2, .ro, 0⟩, ⟨16, 8, .ro, 0⟩, ⟨24, 8, .ro, 0⟩]⟩,
  -- MGC_WATCHDOG
  ⟨0x84, 1, some 0, [], [⟨0, 10, .rws, 100⟩]⟩,
  -- ARB_SEL
  ⟨0x300, 1, none, [], [⟨0, 5, .rw, 0⟩, ⟨5, 2, .rw, 0⟩, ⟨8, 10, .rw, 0⟩, ⟨31, 1, .wo, 0⟩]⟩,
  -- ARB_WAIT
  ⟨0x304, 1, none, [(0x300, 0, 31, 0)], [⟨0, 16, .ro, 0⟩, ⟨16, 16, .ro, 0⟩]⟩,
  -- ARB_GRANTS
  ⟨0x308, 1, none, [(0x300, 0, 31, 0)], [⟨0, 32, .ro, 0⟩]⟩,
  -- SENS_SEL
  ⟨0x400, 1, none, [], [⟨0, 3, .rw, 0⟩, ⟨3, 7, .rw, 0⟩]⟩,
  -- SENS_VALUE
  ⟨0x404, 1, none, [(0x400, 0, 10, 0)], [⟨0, 16, .ro, 0⟩, ⟨16, 1, .ro, 0⟩]⟩,
  -- TOKEN_NONCE
  ⟨0x500, 8, none, [], [⟨0, 32, .ro, 0⟩]⟩,
  -- TEST_STATUS
  ⟨0x520, 1, none, [], [⟨0, 2, .ro, 0⟩, ⟨2, 1, .ro, 0⟩]⟩,
  -- MGE_CFG
  ⟨0x600, 1, some 1, [], [⟨0, 1, .rws, 1⟩, ⟨1, 1, .rws, 1⟩, ⟨2, 1, .rws, 0⟩]⟩,
  -- MGE_DROPPED
  ⟨0x604, 1, none, [], [⟨0, 32, .ro, 0⟩]⟩,
  -- CON_CFG
  ⟨0x610, 1, some 2, [], [⟨0, 3, .rws, 2⟩, ⟨16, 16, .ro, 0⟩]⟩]

/-- The registers of block HIF. -/
def regsHif : List RegDef := [
  -- RING_SEL
  ⟨0x0, 1, some 0, [], [⟨0, 12, .rws, 0⟩]⟩,
  -- RING_BASE_LO
  ⟨0x10, 1, some 0, [(0x0, 0, 12, 0)], [⟨0, 32, .rws, 0⟩]⟩,
  -- RING_BASE_HI
  ⟨0x14, 1, some 0, [(0x0, 0, 12, 0)], [⟨0, 32, .rws, 0⟩]⟩,
  -- RING_CFG
  ⟨0x18, 1, some 0, [(0x0, 0, 12, 0)], [⟨0, 16, .rws, 0⟩, ⟨16, 4, .rws, 0⟩, ⟨20, 2, .rws, 1⟩, ⟨22, 1, .rws, 0⟩]⟩,
  -- RING_LINK
  ⟨0x1C, 1, some 0, [(0x0, 0, 12, 0)], [⟨0, 12, .rws, 0⟩, ⟨12, 10, .rws, 0⟩, ⟨22, 3, .rws, 0⟩]⟩,
  -- VF_SEL
  ⟨0x40, 1, some 1, [], [⟨0, 7, .rws, 1⟩]⟩,
  -- VF_RINGS
  ⟨0x44, 1, some 1, [(0x40, 0, 7, 0)], [⟨0, 12, .rws, 0⟩, ⟨12, 7, .rws, 0⟩]⟩,
  -- VF_DOMAINS
  ⟨0x48, 1, some 1, [(0x40, 0, 7, 0)], [⟨0, 12, .rws, 0⟩, ⟨12, 9, .rws, 0⟩]⟩,
  -- VF_PERMS
  ⟨0x4C, 1, some 1, [(0x40, 0, 7, 0)], [⟨0, 1, .rws, 0⟩, ⟨1, 1, .rws, 0⟩, ⟨2, 1, .rws, 0⟩, ⟨3, 1, .rws, 0⟩]⟩]

/-- The registers of block DBQ. -/
def regsDbq : List RegDef := [
  -- COX_STATUS
  ⟨0x100, 9, none, [], [⟨0, 2, .ro, 0⟩, ⟨4, 4, .ro, 15⟩, ⟨8, 1, .w1c, 0⟩, ⟨9, 1, .w1c, 0⟩, ⟨16, 8, .ro, 0⟩, ⟨24, 8, .ro, 0⟩]⟩,
  -- COX_WATCHDOG
  ⟨0x140, 1, some 0, [], [⟨0, 16, .rws, 1000⟩]⟩,
  -- INTAKE_STATUS
  ⟨0x200, 8, none, [], [⟨0, 10, .ro, 0⟩, ⟨10, 10, .ro, 0⟩, ⟨20, 1, .ro, 0⟩, ⟨21, 1, .ro, 0⟩, ⟨22, 1, .w1c, 0⟩]⟩,
  -- INTAKE_ECC
  ⟨0x240, 8, none, [], [⟨0, 16, .ro, 0⟩, ⟨16, 16, .ro, 0⟩]⟩]

/-- The registers of block MMU. -/
def regsMmu : List RegDef := [
  -- DOM_SEL
  ⟨0x0, 1, some 0, [], [⟨0, 12, .rws, 0⟩]⟩,
  -- DOM_ROOT_LO
  ⟨0x4, 1, some 0, [(0x0, 0, 12, 0)], [⟨0, 32, .rws, 0⟩]⟩,
  -- DOM_ROOT_HI
  ⟨0x8, 1, some 0, [(0x0, 0, 12, 0)], [⟨0, 32, .rws, 0⟩]⟩,
  -- DOM_CFG
  ⟨0xC, 1, some 0, [(0x0, 0, 12, 0)], [⟨0, 1, .rws, 0⟩, ⟨1, 1, .rws, 0⟩]⟩,
  -- FAULT_CFG
  ⟨0x20, 1, some 1, [], [⟨0, 16, .rws, 1000⟩, ⟨16, 16, .rws, 100⟩]⟩]

/-- The registers of block HBM. -/
def regsHbm : List RegDef := [
  -- MAP_CFG
  ⟨0x0, 1, some 0, [], [⟨0, 5, .rws, 8⟩, ⟨8, 1, .rws, 0⟩]⟩,
  -- MAP_STATUS
  ⟨0x4, 1, none, [], [⟨0, 10, .ro, 0⟩, ⟨10, 9, .ro, 0⟩, ⟨19, 9, .ro, 0⟩, ⟨30, 1, .ro, 0⟩, ⟨31, 1, .ro, 0⟩]⟩,
  -- CE_POLICY
  ⟨0x10, 1, some 1, [], [⟨0, 8, .rws, 32⟩, ⟨8, 16, .rws, 60⟩, ⟨24, 8, .rws, 24⟩]⟩,
  -- ERR_SEL
  ⟨0x20, 1, none, [], [⟨0, 10, .rw, 0⟩, ⟨16, 7, .rw, 0⟩]⟩,
  -- ERR_READ
  ⟨0x24, 1, none, [(0x20, 0, 23, 0)], [⟨0, 16, .ro, 0⟩, ⟨16, 8, .ro, 0⟩, ⟨24, 3, .ro, 0⟩]⟩]

/-- The registers of block DDR. -/
def regsDdr : List RegDef := [
  -- MAP_STATUS
  ⟨0x4, 1, none, [], [⟨0, 15, .ro, 0⟩, ⟨15, 15, .ro, 0⟩]⟩,
  -- CE_POLICY
  ⟨0x10, 1, some 0, [], [⟨0, 8, .rws, 32⟩, ⟨8, 16, .rws, 60⟩, ⟨24, 8, .rws, 24⟩]⟩,
  -- ERR_SEL
  ⟨0x20, 1, none, [], [⟨0, 10, .rw, 0⟩, ⟨16, 7, .rw, 0⟩]⟩,
  -- ERR_READ
  ⟨0x24, 1, none, [(0x20, 0, 23, 0)], [⟨0, 16, .ro, 0⟩, ⟨16, 8, .ro, 0⟩, ⟨24, 3, .ro, 0⟩]⟩]

/-- The registers of block SETT. -/
def regsSett : List RegDef := [
  -- QSEL
  ⟨0x0, 1, some 0, [], [⟨0, 8, .rws, 0⟩]⟩,
  -- QMIN
  ⟨0x4, 1, some 0, [(0x0, 0, 8, 0)], [⟨0, 20, .rws, 0⟩]⟩,
  -- QMAX
  ⟨0x8, 1, some 0, [(0x0, 0, 8, 0)], [⟨0, 20, .rws, 0⟩]⟩,
  -- POOL_STATUS
  ⟨0x20, 2, none, [], [⟨0, 20, .ro, 0⟩, ⟨20, 8, .ro, 0⟩]⟩,
  -- STAT_SEL
  ⟨0x100, 1, none, [], [⟨0, 8, .rw, 0⟩, ⟨31, 1, .wo, 0⟩]⟩,
  -- STAT_USE
  ⟨0x104, 1, none, [(0x100, 0, 8, 0)], [⟨0, 20, .ro, 0⟩]⟩,
  -- STAT_PEAK
  ⟨0x108, 1, none, [(0x100, 0, 8, 0)], [⟨0, 20, .ro, 0⟩]⟩,
  -- STAT_REFUSED
  ⟨0x10C, 1, none, [(0x100, 0, 8, 0)], [⟨0, 32, .ro, 0⟩]⟩,
  -- STAT_CORRUPT
  ⟨0x110, 1, none, [(0x100, 0, 8, 0)], [⟨0, 32, .ro, 0⟩]⟩]

/-- The registers of block SWC. -/
def regsSwc : List RegDef := [
  -- PARSE_CFG
  ⟨0x0, 1, some 0, [], [⟨0, 16, .rws, 34984⟩, ⟨16, 1, .rws, 1⟩]⟩,
  -- PROF_SEL
  ⟨0x100, 1, some 1, [], [⟨0, 4, .rws, 0⟩]⟩,
  -- PROF_COLOUR
  ⟨0x104, 3, some 1, [(0x100, 0, 4, 0)], [⟨0, 14, .rws, 0⟩, ⟨14, 14, .rws, 0⟩, ⟨28, 4, .rws, 0⟩]⟩,
  -- PROF_CFG
  ⟨0x110, 1, some 1, [(0x100, 0, 4, 0)], [⟨0, 4, .rws, 4⟩, ⟨4, 14, .rws, 256⟩, ⟨18, 2, .rws, 0⟩]⟩,
  -- QPROF_SEL
  ⟨0x200, 1, some 2, [], [⟨0, 13, .rws, 0⟩]⟩,
  -- QPROF
  ⟨0x204, 1, some 2, [(0x200, 0, 13, 0)], [⟨0, 4, .rws, 0⟩]⟩,
  -- MC_CFG
  ⟨0x300, 1, some 3, [], [⟨0, 16, .rws, 1000⟩]⟩,
  -- STAT_SEL
  ⟨0x400, 1, none, [], [⟨0, 10, .rw, 0⟩, ⟨10, 5, .rw, 0⟩, ⟨31, 1, .wo, 0⟩]⟩,
  -- STAT_VALUE
  ⟨0x404, 1, none, [(0x400, 0, 15, 0)], [⟨0, 32, .ro, 0⟩]⟩,
  -- SPRAY_SEL
  ⟨0x500, 1, none, [], [⟨0, 12, .rw, 0⟩, ⟨12, 6, .rw, 0⟩]⟩,
  -- SPRAY_MEMBER
  ⟨0x504, 1, none, [(0x500, 0, 18, 0)], [⟨0, 10, .ro, 0⟩, ⟨10, 1, .ro, 0⟩, ⟨11, 1, .ro, 0⟩, ⟨12, 16, .ro, 0⟩, ⟨28, 4, .ro, 0⟩]⟩,
  -- SPRAY_PICKS
  ⟨0x508, 1, none, [(0x500, 0, 18, 0)], [⟨0, 32, .ro, 0⟩]⟩]

/-- The registers of block TMS. -/
def regsTms : List RegDef := [
  -- MAP_SEL
  ⟨0x0, 1, some 0, [], [⟨0, 10, .rws, 0⟩]⟩,
  -- MAP_CFG
  ⟨0x4, 1, some 0, [(0x0, 0, 10, 0)], [⟨0, 2, .rws, 1⟩, ⟨2, 3, .rws, 0⟩]⟩,
  -- PCP_MAP
  ⟨0x8, 1, some 0, [(0x0, 0, 10, 0)], [⟨0, 3, .rws, 0⟩, ⟨4, 3, .rws, 1⟩, ⟨8, 3, .rws, 2⟩, ⟨12, 3, .rws, 3⟩, ⟨16, 3, .rws, 4⟩, ⟨20, 3, .rws, 5⟩, ⟨24, 3, .rws, 6⟩, ⟨28, 3, .rws, 7⟩]⟩,
  -- DSCP_MAP
  ⟨0x10, 8, some 0, [(0x0, 0, 10, 0)], [⟨0, 3, .rws, 0⟩, ⟨4, 3, .rws, 0⟩, ⟨8, 3, .rws, 0⟩, ⟨12, 3, .rws, 0⟩, ⟨16, 3, .rws, 0⟩, ⟨20, 3, .rws, 0⟩, ⟨24, 3, .rws, 0⟩, ⟨28, 3, .rws, 0⟩]⟩,
  -- CLASS_MAP
  ⟨0x30, 1, some 0, [(0x0, 0, 10, 0)], [⟨0, 16, .rws, 23211⟩]⟩,
  -- SHP_SEL
  ⟨0x100, 1, some 1, [], [⟨0, 13, .rws, 0⟩]⟩,
  -- SHP_RATE
  ⟨0x104, 1, some 1, [(0x100, 0, 13, 0)], [⟨0, 22, .rws, 4194303⟩, ⟨22, 8, .rws, 1⟩]⟩,
  -- SHP_BURST
  ⟨0x108, 1, some 1, [(0x100, 0, 13, 0)], [⟨0, 20, .rws, 64⟩]⟩,
  -- POL_SEL
  ⟨0x200, 1, some 2, [], [⟨0, 13, .rws, 0⟩]⟩,
  -- POL_CIR
  ⟨0x204, 1, some 2, [(0x200, 0, 13, 0)], [⟨0, 22, .rws, 0⟩]⟩,
  -- POL_PIR
  ⟨0x208, 1, some 2, [(0x200, 0, 13, 0)], [⟨0, 22, .rws, 0⟩]⟩,
  -- POL_BURST
  ⟨0x20C, 1, some 2, [(0x200, 0, 13, 0)], [⟨0, 16, .rws, 64⟩, ⟨16, 16, .rws, 128⟩]⟩,
  -- POL_CFG
  ⟨0x210, 1, some 2, [(0x200, 0, 13, 0)], [⟨0, 1, .rws, 0⟩, ⟨1, 1, .rws, 0⟩]⟩,
  -- POL_STAT
  ⟨0x218, 1, none, [(0x200, 0, 13, 0)], [⟨0, 32, .ro, 0⟩]⟩,
  -- HIST_CFG
  ⟨0x300, 1, some 3, [], [⟨0, 4, .rws, 0⟩, ⟨4, 4, .rws, 4⟩]⟩,
  -- HIST_SEL
  ⟨0x310, 1, none, [], [⟨0, 13, .rw, 0⟩, ⟨13, 1, .rw, 0⟩, ⟨14, 4, .rw, 0⟩, ⟨31, 1, .wo, 0⟩]⟩,
  -- HIST_VALUE
  ⟨0x314, 1, none, [(0x310, 0, 18, 0)], [⟨0, 32, .ro, 0⟩]⟩]

/-- The registers of block TPT. -/
def regsTpt : List RegDef := [
  -- UDP_CFG
  ⟨0x0, 1, some 0, [], [⟨0, 16, .rws, 7522⟩]⟩,
  -- TIMER_CFG
  ⟨0x10, 1, some 1, [], [⟨0, 8, .rws, 8⟩, ⟨8, 12, .rws, 2000⟩, ⟨20, 4, .rws, 7⟩, ⟨24, 8, .rws, 8⟩]⟩,
  -- RTO_CFG
  ⟨0x14, 1, some 1, [], [⟨0, 16, .rws, 20⟩, ⟨16, 16, .rws, 10000⟩]⟩,
  -- LLR_SEL
  ⟨0x100, 1, some 2, [], [⟨0, 10, .rws, 0⟩]⟩,
  -- LLR_CFG
  ⟨0x104, 1, some 2, [(0x100, 0, 10, 0)], [⟨0, 1, .rws, 0⟩, ⟨1, 15, .rws, 4096⟩, ⟨16, 16, .rws, 40⟩]⟩,
  -- OPTAB_CFG
  ⟨0x200, 1, some 3, [], [⟨0, 16, .rws, 4096⟩]⟩,
  -- CTX_SEL
  ⟨0x300, 1, none, [], [⟨0, 18, .rw, 0⟩]⟩,
  -- CTX_STATUS
  ⟨0x304, 1, none, [(0x300, 0, 18, 0)], [⟨0, 2, .ro, 0⟩, ⟨2, 2, .ro, 0⟩, ⟨4, 9, .ro, 0⟩, ⟨13, 4, .ro, 0⟩, ⟨17, 1, .ro, 0⟩, ⟨18, 1, .ro, 0⟩]⟩,
  -- STAT_SEL
  ⟨0x400, 1, none, [], [⟨0, 10, .rw, 0⟩, ⟨10, 5, .rw, 0⟩, ⟨31, 1, .wo, 0⟩]⟩,
  -- STAT_VALUE
  ⟨0x404, 1, none, [(0x400, 0, 15, 0)], [⟨0, 32, .ro, 0⟩]⟩]

/-- The registers of block BEN. -/
def regsBen : List RegDef := [
  -- PART_CFG
  ⟨0x0, 2, some 0, [], [⟨0, 15, .rws, 12800⟩, ⟨15, 15, .rws, 6400⟩]⟩,
  -- LINE_CFG
  ⟨0x8, 2, some 0, [], [⟨0, 16, .rws, 16384⟩]⟩,
  -- FREE_STATUS
  ⟨0x20, 2, none, [], [⟨0, 15, .ro, 6400⟩, ⟨15, 16, .ro, 16384⟩]⟩,
  -- NUM_SEL
  ⟨0x800, 1, none, [], [⟨0, 3, .rw, 0⟩, ⟨3, 1, .rw, 0⟩, ⟨31, 1, .wo, 0⟩]⟩,
  -- NUM_VALUE
  ⟨0x804, 1, none, [(0x800, 0, 4, 0)], [⟨0, 32, .ro, 0⟩]⟩]

/-- The registers of block COL. -/
def regsCol : List RegDef := [
  -- ADMIT_CFG
  ⟨0x0, 1, some 0, [], [⟨0, 11, .rws, 16⟩, ⟨11, 4, .rws, 2⟩, ⟨16, 8, .rws, 100⟩]⟩,
  -- BACKOFF_CFG
  ⟨0x4, 1, some 0, [], [⟨0, 16, .rws, 2⟩, ⟨16, 16, .rws, 256⟩]⟩,
  -- LATE_WATCH
  ⟨0x100, 16, some 1, [], [⟨0, 14, .rws, 0⟩, ⟨14, 1, .rws, 0⟩, ⟨15, 4, .rws, 6⟩]⟩,
  -- ADMIT_STATUS
  ⟨0x200, 1, none, [], [⟨0, 16, .ro, 0⟩, ⟨16, 16, .ro, 0⟩]⟩,
  -- STAT_SEL
  ⟨0x300, 1, none, [], [⟨0, 4, .rw, 0⟩, ⟨31, 1, .wo, 0⟩]⟩,
  -- STAT_VALUE
  ⟨0x304, 1, none, [(0x300, 0, 4, 0)], [⟨0, 32, .ro, 0⟩]⟩,
  -- LATE_SEL
  ⟨0x400, 1, none, [], [⟨0, 4, .rw, 0⟩, ⟨4, 12, .rw, 0⟩, ⟨16, 4, .rw, 0⟩, ⟨20, 2, .rw, 0⟩, ⟨31, 1, .wo, 0⟩]⟩,
  -- LATE_VALUE
  ⟨0x404, 1, none, [(0x400, 0, 22, 0)], [⟨0, 32, .ro, 0⟩]⟩]

/-- The registers of block PLN. -/
def regsPln : List RegDef := [
  -- PLAN_CFG
  ⟨0x0, 1, some 0, [], [⟨0, 1, .rws, 1⟩, ⟨1, 1, .rws, 1⟩]⟩,
  -- LOAD_STATUS
  ⟨0x10, 1, none, [], [⟨0, 4, .ro, 0⟩, ⟨4, 2, .ro, 0⟩, ⟨7, 20, .ro, 0⟩]⟩,
  -- SLOT_SEL
  ⟨0x100, 1, none, [], [⟨0, 2, .rw, 0⟩, ⟨4, 3, .rw, 0⟩, ⟨31, 1, .wo, 0⟩]⟩,
  -- SLOT_STATUS
  ⟨0x104, 1, none, [(0x100, 0, 2, 0)], [⟨0, 2, .ro, 0⟩, ⟨2, 1, .ro, 0⟩, ⟨4, 16, .ro, 0⟩]⟩,
  -- SLOT_HEAT
  ⟨0x108, 1, none, [(0x100, 0, 2, 0)], [⟨0, 32, .ro, 0⟩]⟩,
  -- SLOT_LATE
  ⟨0x10C, 1, none, [(0x100, 0, 2, 0)], [⟨0, 16, .ro, 0⟩, ⟨16, 16, .ro, 0⟩]⟩,
  -- SLOT_STAT
  ⟨0x110, 1, none, [(0x100, 0, 7, 0)], [⟨0, 32, .ro, 0⟩]⟩]

/-- The registers of block TFB. -/
def regsTfb : List RegDef := [
  -- SCHED_CFG
  ⟨0x0, 1, some 0, [], [⟨0, 16, .rws, 1000⟩]⟩,
  -- LOAD_STATUS
  ⟨0x10, 1, none, [], [⟨0, 4, .ro, 0⟩, ⟨4, 6, .ro, 0⟩]⟩,
  -- DIE_STATUS
  ⟨0x20, 2, none, [], [⟨0, 4, .ro, 8⟩, ⟨4, 8, .ro, 128⟩, ⟨12, 10, .ro, 896⟩, ⟨22, 4, .ro, 0⟩]⟩,
  -- CTX_SEL
  ⟨0x100, 1, none, [], [⟨0, 6, .rw, 0⟩]⟩,
  -- CTX_STATUS
  ⟨0x104, 1, none, [(0x100, 0, 6, 0)], [⟨0, 3, .ro, 0⟩, ⟨3, 1, .ro, 0⟩, ⟨4, 2, .ro, 3⟩, ⟨6, 10, .ro, 0⟩]⟩,
  -- CTX_GROUP
  ⟨0x108, 1, none, [(0x100, 0, 6, 0)], [⟨0, 32, .ro, 0⟩]⟩,
  -- STAT_SEL
  ⟨0x200, 1, none, [], [⟨0, 3, .rw, 0⟩, ⟨3, 1, .rw, 0⟩, ⟨31, 1, .wo, 0⟩]⟩,
  -- STAT_VALUE
  ⟨0x204, 1, none, [(0x200, 0, 4, 0)], [⟨0, 32, .ro, 0⟩]⟩]

/-- The registers of block ASH. -/
def regsAsh : List RegDef := [
  -- SLOT_SEL
  ⟨0x100, 1, none, [], [⟨0, 8, .rw, 0⟩, ⟨8, 1, .rw, 0⟩, ⟨9, 8, .rw, 0⟩]⟩,
  -- SLOT_STATUS
  ⟨0x104, 1, none, [(0x100, 0, 9, 0)], [⟨0, 2, .ro, 0⟩, ⟨2, 2, .ro, 3⟩, ⟨8, 24, .ro, 0⟩]⟩,
  -- SLOT_LEVEL
  ⟨0x108, 1, none, [(0x100, 0, 17, 0)], [⟨0, 16, .ro, 0⟩]⟩,
  -- STAT_SEL
  ⟨0x200, 1, none, [], [⟨0, 3, .rw, 0⟩, ⟨3, 1, .rw, 0⟩, ⟨31, 1, .wo, 0⟩]⟩,
  -- STAT_VALUE
  ⟨0x204, 1, none, [(0x200, 0, 4, 0)], [⟨0, 32, .ro, 0⟩]⟩]

/-- The registers of block OUT. -/
def regsOut : List RegDef := [
  -- TIMER_CFG
  ⟨0x0, 1, some 0, [], [⟨0, 8, .rws, 10⟩, ⟨8, 8, .rws, 10⟩, ⟨16, 16, .rws, 10⟩]⟩,
  -- MISMATCH_CFG
  ⟨0x4, 1, some 0, [], [⟨0, 16, .rws, 60⟩]⟩,
  -- SHARD_SEL
  ⟨0x100, 1, none, [], [⟨0, 4, .rw, 0⟩]⟩,
  -- ROUND_STATUS
  ⟨0x104, 1, none, [(0x100, 0, 4, 0)], [⟨0, 4, .ro, 0⟩, ⟨4, 12, .ro, 0⟩]⟩,
  -- ROUND_NUM
  ⟨0x108, 1, none, [(0x100, 0, 4, 0)], [⟨0, 32, .ro, 0⟩]⟩,
  -- FRONTIER
  ⟨0x10C, 1, none, [(0x100, 0, 4, 0)], [⟨0, 17, .ro, 0⟩]⟩,
  -- RC
  ⟨0x110, 1, none, [(0x100, 0, 4, 0)], [⟨0, 32, .ro, 0⟩]⟩,
  -- SITES
  ⟨0x114, 1, none, [(0x100, 0, 4, 0)], [⟨0, 16, .ro, 0⟩, ⟨16, 16, .ro, 0⟩]⟩,
  -- PIECE_SEL
  ⟨0x200, 1, none, [], [⟨0, 16, .rw, 0⟩]⟩,
  -- PIECE_STATUS
  ⟨0x204, 1, none, [(0x100, 0, 4, 0), (0x200, 0, 16, 4)], [⟨0, 17, .ro, 0⟩, ⟨17, 3, .ro, 0⟩]⟩,
  -- PIECE_ROUND
  ⟨0x208, 1, none, [(0x100, 0, 4, 0), (0x200, 0, 16, 4)], [⟨0, 32, .ro, 0⟩]⟩,
  -- PIECE_MASK
  ⟨0x20C, 1, none, [(0x100, 0, 4, 0), (0x200, 0, 16, 4)], [⟨0, 16, .ro, 0⟩]⟩,
  -- STAT_SEL
  ⟨0x300, 1, none, [], [⟨0, 4, .rw, 0⟩, ⟨31, 1, .wo, 0⟩]⟩,
  -- STAT_VALUE
  ⟨0x304, 1, none, [(0x300, 0, 4, 0)], [⟨0, 32, .ro, 0⟩]⟩]

/-- The registers of block OPT. -/
def regsOpt : List RegDef := [
  -- PG_SEL
  ⟨0x0, 1, some 0, [], [⟨0, 6, .rws, 0⟩]⟩,
  -- PG_CFG
  ⟨0x4, 1, some 0, [(0x0, 0, 6, 0)], [⟨0, 1, .rws, 0⟩, ⟨1, 2, .rws, 0⟩, ⟨3, 1, .rws, 1⟩]⟩,
  -- PG_TAG
  ⟨0x8, 1, some 0, [(0x0, 0, 6, 0)], [⟨0, 16, .rws, 0⟩, ⟨16, 16, .rws, 65535⟩]⟩,
  -- PG_STATUS
  ⟨0x20, 1, none, [(0x100, 0, 6, 0)], [⟨0, 3, .ro, 0⟩, ⟨3, 5, .ro, 16⟩, ⟨8, 8, .ro, 0⟩, ⟨16, 16, .ro, 0⟩]⟩,
  -- PG_FAR
  ⟨0x24, 1, none, [(0x100, 0, 6, 0)], [⟨0, 16, .ro, 0⟩, ⟨16, 6, .ro, 0⟩, ⟨22, 1, .ro, 0⟩]⟩,
  -- FEATHER_CFG
  ⟨0x40, 1, some 1, [], [⟨0, 8, .rws, 60⟩, ⟨8, 4, .rws, 7⟩, ⟨16, 7, .rws, 30⟩]⟩,
  -- LANE_SEL
  ⟨0x100, 1, none, [], [⟨0, 6, .rw, 0⟩, ⟨6, 5, .rw, 0⟩, ⟨31, 1, .wo, 0⟩]⟩,
  -- LANE_STATUS
  ⟨0x104, 1, none, [(0x100, 0, 11, 0)], [⟨0, 5, .ro, 31⟩, ⟨5, 3, .ro, 0⟩, ⟨8, 12, .ro, 0⟩, ⟨20, 1, .ro, 0⟩, ⟨21, 1, .ro, 0⟩, ⟨22, 2, .ro, 0⟩, ⟨24, 8, .ro, 0⟩]⟩,
  -- LANE_CW_CORR
  ⟨0x108, 1, none, [(0x100, 0, 11, 0)], [⟨0, 32, .ro, 0⟩]⟩,
  -- LANE_CW_UNCORR
  ⟨0x10C, 1, none, [(0x100, 0, 11, 0)], [⟨0, 32, .ro, 0⟩]⟩,
  -- LANE_EVENTS
  ⟨0x110, 1, none, [(0x100, 0, 11, 0)], [⟨0, 8, .ro, 0⟩, ⟨8, 8, .ro, 0⟩, ⟨16, 8, .ro, 0⟩, ⟨24, 8, .ro, 0⟩]⟩]

/-- The registers of block ELN. -/
def regsEln : List RegDef := [
  -- OCT_SEL
  ⟨0x0, 1, some 0, [], [⟨0, 3, .rws, 0⟩]⟩,
  -- OCT_CFG
  ⟨0x4, 1, some 0, [(0x0, 0, 3, 0)], [⟨0, 8, .rws, 0⟩, ⟨8, 2, .rws, 3⟩, ⟨10, 1, .rws, 0⟩, ⟨11, 2, .rws, 0⟩]⟩,
  -- OCT_LG_LO
  ⟨0x8, 1, some 0, [(0x0, 0, 3, 0)], [⟨0, 4, .rws, 0⟩, ⟨7, 1, .rws, 0⟩, ⟨8, 4, .rws, 0⟩, ⟨15, 1, .rws, 0⟩, ⟨16, 4, .rws, 0⟩, ⟨23, 1, .rws, 0⟩, ⟨24, 4, .rws, 0⟩, ⟨31, 1, .rws, 0⟩]⟩,
  -- OCT_LG_HI
  ⟨0xC, 1, some 0, [(0x0, 0, 3, 0)], [⟨0, 4, .rws, 0⟩, ⟨7, 1, .rws, 0⟩, ⟨8, 4, .rws, 0⟩, ⟨15, 1, .rws, 0⟩, ⟨16, 4, .rws, 0⟩, ⟨23, 1, .rws, 0⟩, ⟨24, 4, .rws, 0⟩, ⟨31, 1, .rws, 0⟩]⟩,
  -- LANE_SEL
  ⟨0x100, 1, none, [], [⟨0, 6, .rw, 0⟩, ⟨31, 1, .wo, 0⟩]⟩,
  -- LANE_STATUS
  ⟨0x104, 1, none, [(0x100, 0, 6, 0)], [⟨0, 3, .ro, 0⟩, ⟨3, 8, .ro, 0⟩, ⟨11, 8, .ro, 0⟩]⟩,
  -- LANE_CW_CORR
  ⟨0x108, 1, none, [(0x100, 0, 6, 0)], [⟨0, 32, .ro, 0⟩]⟩,
  -- LANE_CW_UNCORR
  ⟨0x10C, 1, none, [(0x100, 0, 6, 0)], [⟨0, 32, .ro, 0⟩]⟩]

/-- The registers of block SLF. -/
def regsSlf : List RegDef := [
  -- CFG_SEL
  ⟨0x0, 1, some 0, [], [⟨0, 4, .rws, 0⟩]⟩,
  -- GRP_CFG
  ⟨0x4, 1, some 0, [(0x0, 0, 4, 0)], [⟨0, 1, .rws, 0⟩, ⟨1, 1, .rws, 0⟩, ⟨2, 1, .rws, 1⟩, ⟨3, 1, .rws, 0⟩, ⟨4, 8, .rws, 0⟩]⟩,
  -- WIN_BASE_LO
  ⟨0x8, 1, some 0, [(0x0, 0, 4, 0)], [⟨0, 32, .rws, 0⟩]⟩,
  -- WIN_BASE_HI
  ⟨0xC, 1, some 0, [(0x0, 0, 4, 0)], [⟨0, 32, .rws, 0⟩]⟩,
  -- WIN_CFG
  ⟨0x10, 1, some 0, [(0x0, 0, 4, 0)], [⟨0, 5, .rws, 1⟩, ⟨5, 5, .rws, 1⟩, ⟨10, 10, .rws, 100⟩, ⟨20, 4, .rws, 5⟩]⟩,
  -- MON_SEL
  ⟨0x100, 1, some 1, [], [⟨0, 4, .rws, 0⟩]⟩,
  -- MON_CFG
  ⟨0x104, 1, some 1, [(0x100, 0, 4, 0)], [⟨0, 4, .rws, 7⟩, ⟨4, 4, .rws, 4⟩, ⟨8, 16, .rws, 600⟩]⟩,
  -- PROT_CFG
  ⟨0x108, 1, some 1, [(0x100, 0, 4, 0)], [⟨0, 16, .rws, 300⟩, ⟨16, 2, .rws, 0⟩]⟩,
  -- DCC_CFG
  ⟨0x200, 1, some 2, [], [⟨0, 4, .rws, 0⟩, ⟨4, 1, .rws, 0⟩, ⟨8, 4, .rws, 0⟩, ⟨12, 1, .rws, 0⟩]⟩,
  -- RD_SEL
  ⟨0x300, 1, none, [], [⟨0, 4, .rw, 0⟩, ⟨4, 1, .rw, 0⟩, ⟨5, 5, .rw, 0⟩, ⟨10, 3, .rw, 0⟩, ⟨13, 3, .rw, 0⟩, ⟨31, 1, .wo, 0⟩]⟩,
  -- GRP_STATUS
  ⟨0x304, 1, none, [(0x300, 0, 4, 0)], [⟨0, 3, .ro, 0⟩, ⟨3, 1, .ro, 0⟩, ⟨4, 1, .ro, 0⟩, ⟨5, 16, .ro, 0⟩, ⟨21, 3, .ro, 0⟩]⟩,
  -- LEG_STATUS
  ⟨0x308, 1, none, [(0x300, 0, 5, 0)], [⟨0, 6, .ro, 0⟩, ⟨6, 1, .ro, 0⟩, ⟨7, 1, .ro, 0⟩, ⟨16, 16, .ro, 20000⟩]⟩,
  -- STAT_VALUE
  ⟨0x30C, 1, none, [(0x300, 0, 16, 0)], [⟨0, 32, .ro, 0⟩]⟩,
  -- PM_VALUE
  ⟨0x310, 1, none, [(0x300, 0, 16, 0)], [⟨0, 31, .ro, 0⟩, ⟨31, 1, .ro, 0⟩]⟩,
  -- DCC_STATUS
  ⟨0x320, 2, none, [], [⟨0, 8, .ro, 0⟩, ⟨8, 8, .ro, 0⟩, ⟨16, 8, .ro, 0⟩, ⟨24, 1, .ro, 0⟩]⟩]

/-- The registers of block LSC. -/
def regsLsc : List RegDef := [
  -- PORT_SEL
  ⟨0x0, 1, some 0, [], [⟨0, 10, .rws, 0⟩]⟩,
  -- PORT_CFG
  ⟨0x4, 1, some 0, [(0x0, 0, 10, 0)], [⟨0, 1, .rws, 0⟩, ⟨16, 16, .rws, 256⟩]⟩,
  -- KEY_CFG
  ⟨0x10, 1, some 1, [], [⟨0, 16, .rws, 3600⟩, ⟨16, 16, .rws, 1000⟩]⟩,
  -- STAT_SEL
  ⟨0x100, 1, none, [], [⟨0, 10, .rw, 0⟩, ⟨10, 4, .rw, 0⟩, ⟨31, 1, .wo, 0⟩]⟩,
  -- LINK_STATUS
  ⟨0x104, 1, none, [(0x100, 0, 10, 0)], [⟨0, 3, .ro, 0⟩, ⟨3, 2, .ro, 0⟩, ⟨5, 1, .ro, 0⟩]⟩,
  -- LINK_EPOCH
  ⟨0x108, 1, none, [(0x100, 0, 10, 0)], [⟨0, 32, .ro, 0⟩]⟩,
  -- STAT_VALUE
  ⟨0x10C, 1, none, [(0x100, 0, 14, 0)], [⟨0, 32, .ro, 0⟩]⟩]

/-- The registers of block KMC. -/
def regsKmc : List RegDef := [
  -- STATUS
  ⟨0x100, 1, none, [], [⟨0, 7, .ro, 0⟩, ⟨16, 16, .ro, 0⟩]⟩,
  -- SAVES
  ⟨0x104, 1, none, [], [⟨0, 32, .ro, 0⟩]⟩]

/-- The registers of block TIM. -/
def regsTim : List RegDef := [
  -- INC_LO
  ⟨0x0, 1, some 1, [], [⟨0, 32, .rws, 3435973837⟩]⟩,
  -- INC_HI
  ⟨0x4, 1, some 1, [], [⟨0, 4, .rws, 0⟩]⟩,
  -- GUARD_CFG
  ⟨0x10, 1, some 0, [], [⟨0, 20, .rws, 1000⟩, ⟨20, 4, .rws, 8⟩]⟩,
  -- GUARD_CFG2
  ⟨0x14, 1, some 0, [], [⟨0, 16, .rws, 100⟩]⟩,
  -- STEP_LO
  ⟨0x20, 1, none, [], [⟨0, 32, .wo, 0⟩]⟩,
  -- STEP_HI
  ⟨0x24, 1, none, [], [⟨0, 32, .wo, 0⟩]⟩,
  -- STATUS
  ⟨0x30, 1, none, [], [⟨0, 1, .ro, 0⟩, ⟨1, 1, .ro, 0⟩, ⟨2, 1, .ro, 0⟩, ⟨3, 1, .ro, 0⟩, ⟨4, 4, .ro, 0⟩, ⟨8, 8, .ro, 0⟩, ⟨16, 16, .ro, 0⟩]⟩,
  -- JUMP_CAND_LO
  ⟨0x34, 1, none, [], [⟨0, 32, .ro, 0⟩]⟩,
  -- JUMP_CAND_HI
  ⟨0x38, 1, none, [], [⟨0, 32, .ro, 0⟩]⟩,
  -- SNAP_CTRL
  ⟨0x40, 1, none, [], [⟨0, 1, .wo, 0⟩]⟩,
  -- SNAP_SEC_LO
  ⟨0x44, 1, none, [], [⟨0, 32, .ro, 0⟩]⟩,
  -- SNAP_SEC_HI
  ⟨0x48, 1, none, [], [⟨0, 16, .ro, 0⟩]⟩,
  -- SNAP_NS
  ⟨0x4C, 1, none, [], [⟨0, 32, .ro, 0⟩]⟩,
  -- SNAP_FRAC
  ⟨0x50, 1, none, [], [⟨0, 16, .ro, 0⟩]⟩,
  -- PPS_CFG
  ⟨0x60, 1, some 2, [], [⟨0, 1, .rws, 0⟩, ⟨1, 1, .rws, 0⟩, ⟨16, 16, .rws, 0⟩]⟩,
  -- PPS_IN_SEC
  ⟨0x64, 1, none, [], [⟨0, 32, .ro, 0⟩]⟩,
  -- PPS_IN_NS
  ⟨0x68, 1, none, [], [⟨0, 32, .ro, 0⟩]⟩,
  -- PPS_IN_COUNT
  ⟨0x6C, 1, none, [], [⟨0, 32, .ro, 0⟩]⟩,
  -- PTP_CFG
  ⟨0x70, 1, some 0, [], [⟨0, 8, .rws, 0⟩, ⟨8, 1, .rws, 0⟩, ⟨16, 8, .rws, 128⟩, ⟨24, 8, .rws, 128⟩]⟩,
  -- PORT_SEL
  ⟨0x100, 1, some 3, [], [⟨0, 10, .rws, 0⟩]⟩,
  -- PORT_ADJ
  ⟨0x104, 1, some 3, [(0x100, 0, 10, 0)], [⟨0, 16, .rws, 0⟩, ⟨16, 16, .rws, 0⟩]⟩,
  -- LAUNCH_LATE
  ⟨0x110, 1, none, [(0x100, 0, 10, 0)], [⟨0, 32, .ro, 0⟩]⟩]

/-- The registers of block PWR. -/
def regsPwr : List RegDef := [
  -- CAP_CFG
  ⟨0x0, 1, some 0, [], [⟨0, 12, .rws, 2000⟩]⟩,
  -- V_CFG
  ⟨0x4, 1, some 0, [], [⟨0, 10, .rws, 800⟩, ⟨10, 10, .rws, 650⟩]⟩,
  -- THERM_CFG
  ⟨0x10, 1, some 1, [], [⟨0, 8, .rws, 100⟩]⟩,
  -- UNIT_CFG
  ⟨0x20, 1, some 2, [], [⟨0, 16, .rws, 10⟩, ⟨16, 16, .rws, 100⟩]⟩,
  -- ALARM_SEL
  ⟨0x40, 1, some 3, [], [⟨0, 3, .rws, 0⟩]⟩,
  -- ALARM_SEC_LO
  ⟨0x44, 1, some 3, [(0x40, 0, 3, 0)], [⟨0, 32, .rws, 0⟩]⟩,
  -- ALARM_SEC_HI
  ⟨0x48, 1, some 3, [(0x40, 0, 3, 0)], [⟨0, 16, .rws, 0⟩]⟩,
  -- ALARM_NS
  ⟨0x4C, 1, some 3, [(0x40, 0, 3, 0)], [⟨0, 32, .rws, 0⟩]⟩,
  -- ALARM_MASK
  ⟨0x50, 1, some 3, [(0x40, 0, 3, 0)], [⟨0, 16, .rws, 0⟩, ⟨16, 16, .rws, 0⟩]⟩,
  -- ALARM_CFG
  ⟨0x54, 1, some 3, [(0x40, 0, 3, 0)], [⟨0, 1, .rws, 0⟩, ⟨1, 1, .rws, 0⟩, ⟨2, 1, .rws, 0⟩, ⟨3, 1, .rws, 0⟩, ⟨8, 8, .rws, 10⟩]⟩,
  -- ALARM_STATUS
  ⟨0x58, 1, none, [], [⟨0, 8, .w1c, 0⟩]⟩,
  -- POWER_STATUS
  ⟨0x100, 1, none, [], [⟨0, 12, .ro, 0⟩, ⟨12, 1, .ro, 0⟩, ⟨13, 1, .ro, 0⟩, ⟨14, 1, .ro, 0⟩, ⟨15, 1, .w1c, 0⟩, ⟨16, 9, .ro, 256⟩]⟩,
  -- CAL_STATUS
  ⟨0x104, 1, none, [], [⟨0, 16, .ro, 16384⟩, ⟨16, 16, .ro, 0⟩]⟩,
  -- TEMP_STATUS
  ⟨0x108, 1, none, [], [⟨0, 8, .ro, 0⟩, ⟨8, 7, .ro, 0⟩, ⟨15, 3, .ro, 0⟩, ⟨18, 8, .ro, 0⟩, ⟨26, 6, .ro, 0⟩]⟩,
  -- PACE_SEL
  ⟨0x180, 1, none, [], [⟨0, 8, .rw, 0⟩, ⟨8, 4, .rw, 0⟩, ⟨31, 1, .wo, 0⟩]⟩,
  -- PACE_VALUE
  ⟨0x184, 1, none, [(0x180, 0, 12, 0)], [⟨0, 16, .ro, 0⟩, ⟨16, 15, .ro, 32767⟩, ⟨31, 1, .ro, 0⟩]⟩,
  -- VFLOOR_STATUS
  ⟨0x188, 1, none, [], [⟨0, 10, .ro, 720⟩, ⟨10, 10, .ro, 800⟩, ⟨20, 8, .ro, 0⟩, ⟨28, 1, .ro, 0⟩, ⟨29, 1, .w1c, 0⟩]⟩,
  -- VT_SEL
  ⟨0x190, 1, none, [], [⟨0, 3, .rw, 0⟩]⟩,
  -- VT_ENTRY
  ⟨0x194, 1, none, [(0x190, 0, 3, 0)], [⟨0, 10, .ro, 720⟩, ⟨10, 8, .ro, 0⟩]⟩,
  -- UNIT_SEL
  ⟨0x200, 1, none, [], [⟨0, 3, .rw, 0⟩, ⟨3, 8, .rw, 0⟩, ⟨31, 1, .wo, 0⟩]⟩,
  -- UNIT_STATE
  ⟨0x204, 1, none, [(0x200, 0, 11, 0)], [⟨0, 3, .ro, 0⟩, ⟨3, 1, .ro, 0⟩, ⟨4, 4, .ro, 0⟩, ⟨16, 16, .ro, 0⟩]⟩,
  -- UNIT_REFUSE
  ⟨0x208, 1, none, [(0x200, 0, 11, 0)], [⟨0, 16, .ro, 0⟩, ⟨16, 16, .ro, 0⟩]⟩]

/-- The registers of block EVR. -/
def regsEvr : List RegDef := [
  -- RATE_CFG
  ⟨0x0, 5, some 0, [], [⟨0, 8, .rws, 0⟩, ⟨8, 8, .rws, 0⟩]⟩,
  -- HEAD_SEQ_LO
  ⟨0x100, 1, none, [], [⟨0, 32, .ro, 0⟩]⟩,
  -- HEAD_SEQ_HI
  ⟨0x104, 1, none, [], [⟨0, 32, .ro, 0⟩]⟩,
  -- TAIL_SEQ_LO
  ⟨0x108, 1, none, [], [⟨0, 32, .ro, 0⟩]⟩,
  -- TAIL_SEQ_HI
  ⟨0x10C, 1, none, [], [⟨0, 32, .ro, 0⟩]⟩,
  -- STATUS
  ⟨0x110, 1, none, [], [⟨0, 16, .ro, 0⟩, ⟨16, 8, .ro, 0⟩, ⟨24, 8, .ro, 0⟩]⟩]

/-- The registers of block ATT. -/
def regsAtt : List RegDef := [
]

/-- The registers of block FLT. -/
def regsFlt : List RegDef := [
  -- CFG
  ⟨0x0, 1, some 0, [], [⟨0, 16, .rws, 7523⟩, ⟨16, 4, .rws, 3⟩, ⟨20, 8, .rws, 50⟩]⟩,
  -- CFG2
  ⟨0x4, 1, some 0, [], [⟨0, 16, .rws, 2000⟩]⟩,
  -- HEALTH_CFG
  ⟨0x10, 1, some 1, [], [⟨0, 16, .rws, 256⟩, ⟨16, 16, .rws, 300⟩]⟩,
  -- BUDGET_CFG
  ⟨0x20, 1, some 2, [], [⟨0, 4, .rws, 1⟩, ⟨4, 12, .rws, 60⟩, ⟨16, 4, .rws, 4⟩, ⟨20, 12, .rws, 600⟩]⟩,
  -- PROB_CFG
  ⟨0x30, 1, some 3, [], [⟨0, 16, .rws, 60⟩]⟩,
  -- GRP_SEL
  ⟨0x100, 1, none, [], [⟨0, 4, .rw, 0⟩]⟩,
  -- GRP_STATUS
  ⟨0x104, 1, none, [(0x100, 0, 4, 0)], [⟨0, 3, .ro, 0⟩, ⟨3, 1, .ro, 0⟩, ⟨4, 4, .ro, 0⟩, ⟨8, 12, .ro, 0⟩]⟩,
  -- GRP_EPOCH
  ⟨0x108, 1, none, [(0x100, 0, 4, 0)], [⟨0, 32, .ro, 0⟩]⟩,
  -- MEMBER_SEL
  ⟨0x110, 1, none, [], [⟨0, 12, .rw, 0⟩, ⟨12, 1, .rw, 0⟩]⟩,
  -- MEMBER_STATUS
  ⟨0x114, 1, none, [(0x100, 0, 4, 0), (0x110, 0, 13, 4)], [⟨0, 2, .ro, 0⟩, ⟨2, 1, .ro, 0⟩, ⟨3, 1, .ro, 0⟩, ⟨4, 9, .ro, 256⟩, ⟨16, 16, .ro, 0⟩]⟩,
  -- STAT_SEL
  ⟨0x200, 1, none, [], [⟨0, 4, .rw, 0⟩, ⟨4, 4, .rw, 0⟩, ⟨31, 1, .wo, 0⟩]⟩,
  -- STAT_VALUE
  ⟨0x204, 1, none, [(0x200, 0, 8, 0)], [⟨0, 32, .ro, 0⟩]⟩]

/-- The registers of a block (R80). -/
def blockRegs : Blk → List RegDef
  | .mgt => regsMgt
  | .hif => regsHif
  | .dbq => regsDbq
  | .mmu => regsMmu
  | .hbm => regsHbm
  | .ddr => regsDdr
  | .sett => regsSett
  | .swc => regsSwc
  | .tms => regsTms
  | .tpt => regsTpt
  | .ben => regsBen
  | .col => regsCol
  | .pln => regsPln
  | .tfb => regsTfb
  | .ash => regsAsh
  | .out => regsOut
  | .opt => regsOpt
  | .eln => regsEln
  | .slf => regsSlf
  | .lsc => regsLsc
  | .kmc => regsKmc
  | .tim => regsTim
  | .pwr => regsPwr
  | .evr => regsEvr
  | .att => regsAtt
  | .flt => regsFlt

end Sys2Proof.Machine
end

