-- ==== Sys2Proof/Machine/Ops.lean ====
section
/-!
DEFINITION. The named operations the meanings are written with: finite maps, byte strings in either byte order (R6),
reading and writing set-up registers by field, counters, and values the manual leaves open.
-/

namespace Sys2Proof.Machine

/-! ### Finite maps -/

section
variable {κ α : Type} [DecidableEq κ]

/-- The value at a key. -/
def AMap.find : AMap κ α → κ → Option α
  | [], _ => none
  | (k', v) :: m, k => if k' = k then some v else AMap.find m k

/-- The map with `v` at `k`: in place when the key is listed, at the end when it is not. -/
def AMap.put : AMap κ α → κ → α → AMap κ α
  | [], k, v => [(k, v)]
  | (k', v') :: m, k, v => if k' = k then (k, v) :: m else (k', v') :: AMap.put m k v

/-- The map without `k`. -/
def AMap.del (m : AMap κ α) (k : κ) : AMap κ α := m.filter fun p => !decide (p.1 = k)

/-- The value at a key, or `d`. -/
def AMap.getD (m : AMap κ α) (k : κ) (d : α) : α := (AMap.find m k).getD d

/-- The key is listed. -/
def AMap.has (m : AMap κ α) (k : κ) : Bool := (AMap.find m k).isSome

/-- The map with the value at `k` changed by `f`, if the key is listed. -/
def AMap.upd (m : AMap κ α) (k : κ) (f : α → α) : AMap κ α :=
  match AMap.find m k with
  | some v => AMap.put m k (f v)
  | none => m

end

/-! ### Byte strings -/

/-- `n` bytes from offset `off`; bytes beyond the end read 0. -/
def sliceB (b : Bytes) (off n : Nat) : Bytes :=
  let t := (b.drop off).take n
  t ++ List.replicate (n - t.length) 0

/-- The number that bytes spell least significant first. -/
def natLE : Bytes → Nat
  | [] => 0
  | x :: t => x.toNat + 256 * natLE t

/-- The number that bytes spell most significant first. -/
def natBE (b : Bytes) : Nat := b.foldl (fun a x => a * 256 + x.toNat) 0

/-- `n` bytes of a number, least significant first. -/
def bytesLE : Nat → Nat → Bytes
  | 0, _ => []
  | n + 1, v => BitVec.ofNat 8 v :: bytesLE n (v / 256)

/-- `n` bytes of a number, most significant first. -/
def bytesBE (n v : Nat) : Bytes := (bytesLE n v).reverse

/-- The little-endian field of `n` bytes at `off` (R6, structures in memory). -/
def getLE (b : Bytes) (off n : Nat) : Nat := natLE (sliceB b off n)

/-- The big-endian field of `n` bytes at `off` (R6, wire formats). -/
def getBE (b : Bytes) (off n : Nat) : Nat := natBE (sliceB b off n)

/-- `n` zero bytes. -/
def zeros (n : Nat) : Bytes := List.replicate n 0

/-- Every byte is 0. -/
def allZero (b : Bytes) : Bool := b.all fun x => x == 0

/-- One step of the CRC-32C register over one bit (reflected polynomial 0x82F6_3B78). -/
def crc32cBit (c : Nat) : Nat := if c % 2 = 1 then (c / 2) ^^^ 0x82F63B78 else c / 2

/-- The CRC-32C register after one byte. -/
def crc32cByte (c : Nat) (x : Byte) : Nat :=
  let c := c ^^^ x.toNat
  crc32cBit (crc32cBit (crc32cBit (crc32cBit (crc32cBit (crc32cBit (crc32cBit (crc32cBit c)))))))

/-- CRC-32C with the parameters of R202: reflected, initial value and final exclusive-or all ones. -/
def crc32c (b : Bytes) : Nat := (b.foldl crc32cByte 0xFFFFFFFF) ^^^ 0xFFFFFFFF

/-! ### Lists used as queues and sets -/

/-- The list without `x`. -/
def without {α : Type} [DecidableEq α] (l : List α) (x : α) : List α := l.filter fun y => !decide (y = x)

/-- The list with `x` once. -/
def withElem {α : Type} [DecidableEq α] (l : List α) (x : α) : List α := if x ∈ l then l else l ++ [x]

/-- The largest of a list of naturals, 0 for none. -/
def maxOf (l : List Nat) : Nat := l.foldl max 0

/-- The smallest of a list of naturals, `d` for none. -/
def minOf (d : Nat) (l : List Nat) : Nat := l.foldl min d

/-- The sum of a list of naturals. -/
def sumOf (l : List Nat) : Nat := l.foldl (· + ·) 0

/-! ### Open values -/

/-- A value the manual leaves open: nothing can be said of it, and the counter of open values advances. -/
def State.fresh (s : State) : Nat × State := (Config.freeNat s.free, { s with free := s.free + 1 })

/-! ### Blocks and registers -/

/-- The block code of R80. -/
def blkCode : Blk → Nat
  | .mgt => 0x00 | .hif => 0x01 | .dbq => 0x02 | .mmu => 0x03 | .hbm => 0x04 | .ddr => 0x05 | .sett => 0x06
  | .swc => 0x07 | .tms => 0x08 | .tpt => 0x09 | .ben => 0x0A | .col => 0x0B | .pln => 0x0C | .tfb => 0x0D
  | .ash => 0x0E | .out => 0x0F | .opt => 0x10 | .eln => 0x11 | .slf => 0x12 | .lsc => 0x13 | .kmc => 0x14
  | .tim => 0x15 | .pwr => 0x16 | .evr => 0x17 | .att => 0x18 | .flt => 0x19

/-- All blocks in the order of their codes. -/
def allBlks : List Blk :=
  [.mgt, .hif, .dbq, .mmu, .hbm, .ddr, .sett, .swc, .tms, .tpt, .ben, .col, .pln,
   .tfb, .ash, .out, .opt, .eln, .slf, .lsc, .kmc, .tim, .pwr, .evr, .att, .flt]

/-- The block whose 1 MiB window holds a BAR0 offset (R80). -/
def blkOfOffset (off : Nat) : Option Blk := allBlks[off / 0x100000]?

/-- The number of commit groups a block defines (`BLOCK_ID.GROUP_COUNT`). -/
def blkGroups : Blk → Nat
  | .mgt => 3 | .hif => 2 | .dbq => 1 | .mmu => 2 | .hbm => 2 | .ddr => 1 | .sett => 1 | .swc => 4 | .tms => 4
  | .tpt => 4 | .ben => 1 | .col => 2 | .pln => 1 | .tfb => 1 | .ash => 0 | .out => 1 | .opt => 2 | .eln => 1
  | .slf => 3 | .lsc => 2 | .kmc => 0 | .tim => 4 | .pwr => 4 | .evr => 1 | .att => 0 | .flt => 4

/-- The row of the register map that holds an offset of a block. -/
def regDefAt (b : Blk) (off : Nat) : Option RegDef :=
  (blockRegs b).find? fun d => decide (d.off ≤ off) && decide (off < d.off + 4 * d.count) && (off - d.off) % 4 == 0

/-- The reset word that a field map's reset column gives. -/
def RegDef.resetWord (d : RegDef) : Word :=
  BitVec.ofNat 32 (sumOf (d.fields.map fun f => (f.reset % 2 ^ f.width) * 2 ^ f.lsb))

/-- The minimum and maximum of a sett requester at reset, in setts (R181). -/
def settReset (req : Nat) : Nat × Nat :=
  if req < 64 then (8192, 196608)
  else if req < 128 then (512, 196608)
  else if req < 144 then (4096, 196608)
  else if req < 152 then (if req % 2 = 0 then 8192 else 4096, 196608)
  else if req < 154 then (16384, 196608)
  else (0, 0)

/-- Reset words that depend on the index of a register array, on the instance or on fuses. -/
def resetSpecial (k : RegKey) : Option Word :=
  match k.blk with
  | .mgt =>
    if k.off = 0x8 then some (BitVec.ofNat 32 Config.serial)
    else if k.off = 0xC then some (BitVec.ofNat 32 (Config.serial / 2 ^ 32))
    else none
  | .swc =>
    if k.off = 0x104 then some (BitVec.ofNat 32 (0x0100 + 0x0300 * 2 ^ 14 + 0x3 * 2 ^ 28))
    else if k.off = 0x108 then some (BitVec.ofNat 32 (0x0080 + 0x0200 * 2 ^ 14 + 0x7 * 2 ^ 28))
    else if k.off = 0x10C then some (BitVec.ofNat 32 (0x0020 + 0x0100 * 2 ^ 14 + 0xF * 2 ^ 28))
    else none
  | .tms =>
    if 0x10 ≤ k.off ∧ k.off < 0x30 then some (BitVec.ofNat 32 ((k.off - 0x10) / 4 * 0x11111111)) else none
  | .evr =>
    if k.off = 0x0 then some (BitVec.ofNat 32 0x0108)
    else if k.off = 0x4 then some (BitVec.ofNat 32 0x0210)
    else if k.off < 0x14 then some (BitVec.ofNat 32 0x0420)
    else none
  | .sett =>
    if k.off = 0x4 then some (BitVec.ofNat 32 (settReset k.inst).1)
    else if k.off = 0x8 then some (BitVec.ofNat 32 (settReset k.inst).2)
    else none
  | _ => none

/-- What a register reads when nothing has written it since power-on reset (R9). -/
def resetWord (k : RegKey) : Word :=
  match resetSpecial k with
  | some w => w
  | none =>
    match regDefAt k.blk k.off with
    | some d => d.resetWord
    | none => 0

/-- The contents of a register; for an RWS register its live copy. -/
def State.reg (s : State) (k : RegKey) : Word :=
  match s.regs.live.find k with
  | some w => w
  | none => resetWord k

/-- The state with one register's contents replaced. -/
def State.setReg (s : State) (k : RegKey) (w : Word) : State :=
  { s with regs := { s.regs with live := s.regs.live.put k w } }

/-- The register of a field, in one instance. -/
def Fld.key (f : Fld) (inst : Nat) : RegKey := ⟨f.blk, f.off, inst⟩

/-- A field's value. -/
def State.fld (s : State) (f : Fld) (inst : Nat := 0) : Nat := bitsOf (s.reg (f.key inst)).toNat f.lsb f.width

/-- The state with one field replaced and the rest of its register kept. -/
def State.setFld (s : State) (f : Fld) (inst v : Nat) : State :=
  s.setReg (f.key inst) (BitVec.ofNat 32 (putBits (s.reg (f.key inst)).toNat f.lsb f.width v))

/-- A one-bit field as a Boolean. -/
def State.flag (s : State) (f : Fld) (inst : Nat := 0) : Bool := s.fld f inst == 1

/-- The state with a one-bit field set or cleared. -/
def State.setFlag (s : State) (f : Fld) (inst : Nat) (b : Bool) : State := s.setFld f inst (bit b)

/-- A counter field raised by `n`, saturating at its largest value. -/
def State.bump (s : State) (f : Fld) (inst : Nat := 0) (n : Nat := 1) : State :=
  s.setFld f inst (satAdd (2 ^ f.width - 1) (s.fld f inst) n)

/-- A counter field raised by `n`, wrapping. -/
def State.bumpWrap (s : State) (f : Fld) (inst : Nat := 0) (n : Nat := 1) : State :=
  s.setFld f inst (s.fld f inst + n)

/-- The instance a windowed register shows, read from its selectors (R84's groups with a selector, and the
read windows). -/
def State.instOf (s : State) (b : Blk) (d : RegDef) : Nat :=
  sumOf (d.sel.map fun (o, lsb, w, sh) => bitsOf (s.reg ⟨b, o, 0⟩).toNat lsb w * 2 ^ sh)

/-- A rail is in its operating range (R39): it became good, with VDD_AON good, and has not faulted since (R41, R497). -/
def State.railOk (s : State) (r : Nat) : Bool :=
  s.boot.railOrder.contains 0 && s.boot.railOrder.contains r && !(s.boot.railFaults.contains r)

/-- The JTAG port drives the outputs from the scan chain (R516). -/
def State.pinsScanned (s : State) : Bool :=
  match s.mgmt.jtag with
  | some (.boundary _ true) => true
  | _ => false

/-- The core does not work: PORST_N is asserted, the thermal trip is latched (R43), VIN_CORE has faulted (R497), or its ports,
lanes and memory interfaces are driven from the scan chain (R516, notes/assumptions/202.md). -/
def State.coreOff (s : State) : Bool := s.boot.porst || s.boot.thermTrip || !s.railOk 5 || s.pinsScanned

/-- What a unit behind the core's supplies does: nothing while the core is off, for then its domain is isolated (R41, R43,
R497). -/
def State.inCore (s : State) (f : State → State) : State := if s.coreOff then s else f s

/-- What the always-on domain does: nothing while PORST_N is asserted, or while VDD_AON is not good, when it counts as
asserted (R41, R42). -/
def State.inAon (s : State) (f : State → State) : State := if s.boot.porst then s else f s

/-! ### Effects on the outside -/

/-- The state with one more effect on the outside recorded. -/
def State.emit (s : State) (o : Out) : State := { s with out := s.out ++ [o] }

end Sys2Proof.Machine
end

