-- ==== Sys2Proof/Machine/LaneCode.lean ====
section
/-!
DEFINITION. What the lanes carry (R157 to R159, R162, R175): the scrambler, the outer code RS(544,514) and its
interleaving, the inner Hamming code, alignment markers, lane frames, and the byte stream of a port. Bits stand in the
order in which they are sent; the conventions that IEEE 802.3 Clauses 49 and 91 give and the manual only names are those of
notes/assumptions/166.md.
-/

namespace Sys2Proof.Machine

/-! ### Bits -/

/-- `n` bits of a number, least significant first. -/
def bitsLsb (n v : Nat) : List Bool := (List.range n).map fun i => bitAt v i

/-- The number that bits spell, least significant first. -/
def natOfBits : List Bool → Nat
  | [] => 0
  | b :: t => bit b + 2 * natOfBits t

/-- Bits in pieces of `n`, the last one dropped when it is short. -/
def bitPieces (n : Nat) : Nat → List Bool → List (List Bool)
  | 0, _ => []
  | k + 1, l => if l.length < n then [] else l.take n :: bitPieces n k (l.drop n)

/-- The parity of a list of bits. -/
def parity (l : List Bool) : Bool := l.foldl (fun a b => a != b) false

/-! ### CRC-16/CCITT (R159, R162, R349) -/

/-- CRC-16 with polynomial 0x1021, initial value 0xFFFF, not reflected, no final exclusive-or (R349). -/
def crc16Bit (c : Nat) : Nat := if 32768 ≤ c then (2 * c % 65536) ^^^ 0x1021 else 2 * c
def crc16Byte (c : Nat) (x : Byte) : Nat :=
  let c := c ^^^ (x.toNat * 256)
  crc16Bit (crc16Bit (crc16Bit (crc16Bit (crc16Bit (crc16Bit (crc16Bit (crc16Bit c)))))))
def crc16 (b : Bytes) : Nat := b.foldl crc16Byte 0xFFFF

/-! ### The scrambler (R157, step 1) -/

/-- The last 58 scrambled bits after one more. -/
def scrNext (h : Nat) (b : Bool) : Nat := (2 * h + bit b) % 2 ^ 58

/-- The self-synchronising scrambler x⁵⁸ + x³⁹ + 1: the last 58 scrambled bits, newest in bit 0, and bits to scramble. -/
def scramble (h : Nat) : List Bool → Nat × List Bool
  | [] => (h, [])
  | b :: t =>
    let x := b != (bitAt h 38 != bitAt h 57)
    let (h1, l) := scramble (scrNext h x) t
    (h1, x :: l)

/-- The descrambler. -/
def descramble (h : Nat) : List Bool → Nat × List Bool
  | [] => (h, [])
  | x :: t =>
    let (h1, l) := descramble (scrNext h x) t
    (h1, (x != (bitAt h 38 != bitAt h 57)) :: l)

/-! ### The outer code RS(544,514) over GF(2¹⁰) (R157, step 2; R158) -/

/-- The product in GF(2¹⁰) modulo x¹⁰ + x³ + 1. -/
def gf10Mul (a b : Nat) : Nat :=
  let p := (List.range 10).foldl (fun p i => if bitAt b i then p ^^^ (a * 2 ^ i) else p) 0
  (List.range 9).foldl (fun p k => if bitAt p (18 - k) then p ^^^ (0x409 * 2 ^ (8 - k)) else p) p

/-- A power, by squaring. -/
def gf10Pow (a n : Nat) : Nat :=
  (List.range 10).foldl (fun r k => let r := gf10Mul r r
    if bitAt n (9 - k) then gf10Mul r a else r) 1

/-- α to the power n. -/
def gf10Exp (n : Nat) : Nat := gf10Pow 2 (n % 1023)

/-- The inverse of a non-zero element. -/
def gf10Inv (a : Nat) : Nat := gf10Pow a 1022

/-- Polynomials over GF(2¹⁰) stand as their coefficients, lowest degree first. -/
def polyAdd (p q : List Nat) : List Nat :=
  (List.range (max p.length q.length)).map fun i => p.getD i 0 ^^^ q.getD i 0
def polyScale (c : Nat) (p : List Nat) : List Nat := p.map (gf10Mul c)
def polyMul : List Nat → List Nat → List Nat
  | [], _ => []
  | a :: p, q => polyAdd (polyScale a q) (0 :: polyMul p q)
def polyEval (p : List Nat) (x : Nat) : Nat := p.foldr (fun c a => c ^^^ gf10Mul x a) 0

/-- The formal derivative: over a field of characteristic 2 the odd coefficients, one place down. -/
def polyDeriv (p : List Nat) : List Nat := (List.range (p.length - 1)).map fun i => if i % 2 = 0 then p.getD (i + 1) 0 else 0

/-- The degree, 0 for a constant. -/
def polyDeg (p : List Nat) : Nat := maxOf ((List.range p.length).filter fun i => p.getD i 0 != 0)

/-- The generator polynomial, with the roots α⁰ to α²⁹. -/
def rs544Gen : List Nat := (List.range 30).foldl (fun g j => polyMul g [gf10Exp j, 1]) [1]

/-- The code word of 514 message symbols, the first symbol the highest coefficient: message and 30 check symbols. -/
def rs544Encode (m : List Nat) : List Nat :=
  let step := fun (par : List Nat) (x : Nat) =>
    let fb := x ^^^ par.getD 29 0
    (List.range 30).map fun i => (if i = 0 then 0 else par.getD (i - 1) 0) ^^^ gf10Mul fb (rs544Gen.getD i 0)
  m ++ (m.foldl step (List.replicate 30 0)).reverse

/-- The 30 syndromes of 544 symbols. -/
def rs544Syndromes (r : List Nat) : List Nat :=
  (List.range 30).map fun j => r.foldl (fun a c => c ^^^ gf10Mul (gf10Exp j) a) 0

/-- The shortest recurrence of a sequence (Berlekamp and Massey): the locator and its length, from the present and the
former locator, the length, the steps since it changed, and the discrepancy then. -/
def shortestRecurrence (t : List Nat) : List Nat × Nat :=
  let st := (List.range t.length).foldl (fun (st : List Nat × List Nat × Nat × Nat × Nat) n =>
    let (c, b, l, m, d0) := st
    let d := (List.range (l + 1)).foldl (fun a i => a ^^^ gf10Mul (c.getD i 0) (if i ≤ n then t.getD (n - i) 0 else 0)) 0
    if d = 0 then (c, b, l, m + 1, d0)
    else
      let c1 := polyAdd c (List.replicate m 0 ++ polyScale (gf10Mul d (gf10Inv d0)) b)
      if 2 * l ≤ n then (c1, c, n + 1 - l, 1, d) else (c1, b, l, m + 1, d0)) ([1], [1], 0, 1, 1)
  (st.1, st.2.2.1)

/-- The outer decoder (R158): 544 symbols with the places erased. It corrects e errors and f erasures with 2e + f ≤ 30; a
word beyond that is uncorrectable, and none. -/
def rs544Decode (r : List Nat) (erased : List Nat) : Option (List Nat) :=
  let syn := rs544Syndromes r
  if syn.all (· == 0) then some r
  else if 30 < erased.length then none
  else
    let gam := erased.foldl (fun g i => polyMul g [1, gf10Exp (543 - i)]) [1]
    let mods := (polyMul syn gam).take 30
    let (sigma, e) := shortestRecurrence (mods.drop erased.length)
    let lam := polyMul sigma gam
    let omega := (polyMul syn lam).take 30
    let roots := (List.range 544).filter fun i => polyEval lam (gf10Exp (1023 - (543 - i))) == 0
    if 30 < 2 * e + erased.length ∨ roots.length ≠ polyDeg lam then none
    else
      let fixed := roots.foldl (fun (l : List Nat) i =>
        let x := gf10Exp (543 - i)
        let xi := gf10Exp (1023 - (543 - i))
        let v := gf10Mul x (gf10Mul (polyEval omega xi) (gf10Inv (polyEval (polyDeriv lam) xi)))
        l.set i (l.getD i 0 ^^^ v)) r
      if (rs544Syndromes fixed).all (· == 0) then some fixed else none

/-- What the outer decoder made of a code word: its 514 message symbols as received or as corrected, the bits it corrected,
and whether it could. -/
structure CodeWord where
  msg : List Nat
  fixed : Nat
  good : Bool
  deriving DecidableEq, Repr

/-- Bits in which two lists of symbols differ. -/
def bitDiff (a b : List Nat) : Nat :=
  sumOf ((a.zip b).map fun p => ((List.range 10).filter fun i => bitAt (p.1 ^^^ p.2) i).length)

/-- A code word of 544 symbols, with its erasures. -/
def codeWordOf (r : List Nat) (erased : List Nat) : CodeWord :=
  match rs544Decode r erased with
  | some x => { msg := x.take 514, fixed := bitDiff r x, good := true }
  | none => { msg := r.take 514, fixed := 0, good := false }

/-! ### The inner code (R158) -/

/-- The positions of the data bits of the inner code: 3 to 127 but for the powers of two. -/
def hamData : List Nat := (List.range 128).filter fun i => decide (3 ≤ i) && !(i ∈ [4, 8, 16, 32, 64])

/-- The parity of the bits of `w` whose position has bit k set. -/
def hamParity (w k : Nat) : Bool :=
  (List.range 128).foldl (fun a i => if bitAt i k && bitAt w i then !a else a) false

/-- The parity of all 128 bits. -/
def hamAll (w : Nat) : Bool := (List.range 128).foldl (fun a i => if bitAt w i then !a else a) false

/-- The inner code word of 120 data bits (R158): bit i of the word is position i. -/
def hamEncode (d : Nat) : Nat :=
  let w0 := (hamData.mapIdx fun j i => if bitAt d j then 2 ^ i else 0).foldl (· + ·) 0
  let w1 := (List.range 7).foldl (fun a k => if hamParity w0 k then a + 2 ^ (2 ^ k) else a) w0
  if hamAll w1 then w1 + 1 else w1

/-- What the inner decoder makes of 128 received bits. -/
inductive Ham where
  /-- The 120 data bits, a single bit error corrected. -/
  | data (d : Nat)
  /-- A double error: the word's 12 symbols are erasures. -/
  | erased
  deriving DecidableEq, Repr

/-- The data bits of a word. -/
def hamExtract (w : Nat) : Nat := (hamData.mapIdx fun j i => if bitAt w i then 2 ^ j else 0).foldl (· + ·) 0

/-- The inner decoder (R158). -/
def hamDecode (w : Nat) : Ham :=
  let syn := (List.range 7).foldl (fun a k => if hamParity w k then a + 2 ^ k else a) 0
  if hamAll w then .data (hamExtract (w ^^^ 2 ^ syn))
  else if syn = 0 then .data (hamExtract w)
  else .erased

/-! ### Lane frames (R157, R158) -/

/-- Half a lane frame as sent: three code words interleaved symbol by symbol, in 136 words of the inner code. -/
def halfFrame (cws : List (List Nat)) : List Nat :=
  let stream := (List.range 544).flatMap fun i => (List.range 3).flatMap fun j => bitsLsb 10 ((cws.getD j []).getD i 0)
  (bitPieces 120 136 stream).map fun b => hamEncode (natOfBits b)

/-- The 272 inner words that carry 30,840 payload bits, and the scrambler after them. -/
def laneEncode (h : Nat) (payload : List Bool) : Nat × List Nat :=
  let (h1, bits) := scramble h payload
  let cws := (bitPieces 5140 6 bits).map fun b => rs544Encode ((bitPieces 10 514 b).map natOfBits)
  (h1, halfFrame (cws.take 3) ++ halfFrame (cws.drop 3))

/-- The symbols of an inner word as received, and whether they are erasures. -/
def wordSymbols (w : Nat) : List (Nat × Bool) :=
  let (d, e) := match hamDecode w with
    | .data d => (d, false)
    | .erased => (hamExtract w, true)
  (List.range 12).map fun k => (bitsOf d (10 * k) 10, e)

/-- The three code words of half a lane frame. -/
def halfDecode (words : List Nat) : List CodeWord :=
  let syms := words.flatMap wordSymbols
  (List.range 3).map fun j =>
    let mine := ((List.range 544).map fun i => syms.getD (3 * i + j) (0, true))
    codeWordOf (mine.map (·.1)) ((List.range 544).filter fun i => (mine.getD i (0, true)).2)

/-- The six code words of a lane frame. -/
def laneDecode (words : List Nat) : List CodeWord := halfDecode (words.take 136) ++ halfDecode (words.drop 136)

/-- The payload bytes of code words after the descrambler: a byte that touches an uncorrectable word is none. -/
def lanePayload (h : Nat) (cws : List CodeWord) : Nat × List (Option Byte) :=
  let (h1, bits) := descramble h (cws.flatMap fun w => w.msg.flatMap (bitsLsb 10))
  let bad := cws.flatMap fun w => List.replicate 5140 (!w.good)
  let bytes := bitPieces 8 (bits.length / 8) bits
  let marks := bitPieces 8 (bits.length / 8) bad
  (h1, (bytes.zip marks).map fun p => if p.2.any (· == true) then none else some (BitVec.ofNat 8 (natOfBits p.1)))

/-- The bit-interleaved parity of a lane frame's coded bits (R159): bit k of BIP is the parity of every eighth bit from
position k on, the bit sent first being the most significant. -/
def bipOf (words : List Nat) : Nat :=
  sumOf ((List.range 8).map fun k => bit (parity (words.flatMap fun w =>
    (List.range 16).map fun i => bitAt w (8 * i + k))) * 2 ^ (7 - k))

/-! ### Alignment markers (R159) -/

/-- The fields of an alignment marker. -/
structure Marker where
  lane : Nat
  chan : Nat
  opg : Nat
  tag : Nat
  mcnt : Nat
  lcc : Nat
  bip : Nat
  deriving DecidableEq, Repr

/-- The 17 bytes of a marker. -/
def Marker.bytes (m : Marker) : Bytes :=
  let body := bytesBE 2 (m.lane * 2048 + m.chan * 64 + m.opg) ++ bytesBE 2 m.tag ++ bytesBE 1 m.mcnt ++ bytesBE 4 m.lcc ++
    bytesBE 1 m.bip
  bytesBE 5 0xA5C3F096E1 ++ body ++ bytesBE 2 (crc16 body)

/-- An alignment marker with good SYNC and CRC. -/
def markerOf (b : Bytes) : Option Marker :=
  if b.length ≠ 17 ∨ getBE b 0 5 ≠ 0xA5C3F096E1 ∨ getBE b 15 2 ≠ crc16 (sliceB b 5 10) then none
  else
    let w := getBE b 5 2
    some { lane := w / 2048, chan := w / 64 % 32, opg := w % 64, tag := getBE b 7 2, mcnt := getBE b 9 1,
           lcc := getBE b 10 4, bip := getBE b 14 1 }

/-! ### The byte stream of a port (R162) -/

/-- The header of a frame of `len` bytes with its FCS; 0 is an idle header. -/
def portHeader (len : Nat) : Bytes :=
  let h := bytesBE 2 len ++ zeros 4
  h ++ bytesBE 2 (crc16 h)

/-- A port header is valid: its HCRC, its LENGTH and its TYPE. -/
def portHeaderOk (h : Bytes) : Bool :=
  getBE h 6 2 == crc16 (sliceB h 0 6) && getBE h 2 1 == 0 &&
    (getBE h 0 2 == 0 || (60 ≤ getBE h 0 2 && getBE h 0 2 ≤ 9216))

/-- The bytes that byte streams of W lanes give in turn, `n` rounds: byte k of the port is on lane k mod W. -/
def unstripe {α : Type} (d : α) : Nat → List (List α) → List α
  | 0, _ => []
  | n + 1, ls => ls.map (fun l => l.headD d) ++ unstripe d n (ls.map List.tail)

/-- The lanes' shares of a port's bytes. -/
def stripe {α : Type} (d : α) (w n : Nat) (l : List α) : List (List α) :=
  (List.range w).map fun i => (List.range n).map fun k => l.getD (k * w + i) d

/-- The length that the valid header at the head of a stream gives; none when it is not valid. -/
def headLen (l : List (Option Byte)) : Option Nat :=
  match (l.take 8).mapM id with
  | some h => if portHeaderOk h then some (getBE h 0 2) else none
  | none => none

/-- Taking frames out of a stream: what is left, whether it hunts, the frames taken (none: it touched an uncorrectable code
word) and the hunts begun. -/
structure Taken where
  rest : List (Option Byte)
  hunting : Bool
  frames : List (Option Bytes) := []
  hunts : Nat := 0
  deriving DecidableEq, Repr

/-- Two consecutive headers stand at the head of a stream: yes, no, or not known yet. -/
def twoHeaders (l : List (Option Byte)) : Option Bool :=
  if l.length < 8 then none
  else match headLen l with
    | none => some false
    | some n => if l.length < 16 + n then none else some (headLen (l.drop (8 + n))).isSome

/-- Frames are taken out of a stream, header by header; a header that is not valid starts a hunt for two in a row. -/
def takeFrames : Nat → Taken → Taken
  | 0, t => t
  | k + 1, t =>
    if t.hunting then
      match twoHeaders t.rest with
      | none => t
      | some true => takeFrames k { t with hunting := false }
      | some false => takeFrames k { t with rest := t.rest.tail }
    else if t.rest.length < 8 then t
    else match headLen t.rest with
      | none => takeFrames k { t with hunting := true, hunts := t.hunts + 1 }
      | some n =>
        if t.rest.length < 8 + n then t
        else
          let body := (t.rest.drop 8).take n
          takeFrames k { t with
            rest := t.rest.drop (8 + n)
            frames := if n = 0 then t.frames else t.frames ++ [body.mapM id] }

end Sys2Proof.Machine
end

