-- ==== Sys2Proof/Machine/NumFormats.lean ====
section
/-!
DEFINITION. Number formats, exact accumulators and rounding (R254 to R269): decoding and encoding of every element
format, the reduction specifier, addition, ordered addition, the final rounding and the stochastic rounding hash.
-/

namespace Sys2Proof.Machine

/-! ### Formats (R254 to R256) -/

/-- A decoded element: NaN, an infinity with its sign, or (−1)ˢ · m · 2ᵉ. -/
inductive Val where
  | nan
  | inf (neg : Bool)
  | fin (neg : Bool) (m : Nat) (e : Int)
  deriving DecidableEq, Repr

/-- The special codes of a floating-point layout. -/
inductive Special where
  /-- The exponent of all ones means infinity or NaN. -/
  | ieee
  /-- Only S.1111.111 is a NaN. -/
  | topNan
  /-- No special codes. -/
  | none
  deriving DecidableEq, Repr

/-- A floating-point layout: exponent bits, mantissa bits, bias, special codes. -/
structure FloatFmt where
  ebits : Nat
  mbits : Nat
  bias : Nat
  special : Special
  deriving DecidableEq, Repr

def fFP32 : FloatFmt := ⟨8, 23, 127, .ieee⟩
def fBF16 : FloatFmt := ⟨8, 7, 127, .ieee⟩
def fFP16 : FloatFmt := ⟨5, 10, 15, .ieee⟩
def fE4M3 : FloatFmt := ⟨4, 3, 7, .topNan⟩
def fE5M2 : FloatFmt := ⟨5, 2, 15, .ieee⟩
def fE2M3 : FloatFmt := ⟨2, 3, 1, .none⟩
def fE3M2 : FloatFmt := ⟨3, 2, 3, .none⟩
def fE2M1 : FloatFmt := ⟨2, 1, 1, .none⟩

/-- P of R264: mantissa bits with the hidden bit. -/
def FloatFmt.P (f : FloatFmt) : Nat := f.mbits + 1
/-- EMIN of R264. -/
def FloatFmt.emin (f : FloatFmt) : Int := 1 - (f.bias : Int)
/-- The sign bit's weight. -/
def FloatFmt.signBit (f : FloatFmt) : Nat := 2 ^ (f.ebits + f.mbits)
/-- The largest finite code without its sign. -/
def FloatFmt.maxCode (f : FloatFmt) : Nat :=
  match f.special with
  | .ieee => (2 ^ f.ebits - 1) * 2 ^ f.mbits - 1
  | .topNan => f.signBit - 2
  | .none => f.signBit - 1
/-- The canonical NaN (R254); a layout without NaN has none, and 0 stands in its place. -/
def FloatFmt.canonNan (f : FloatFmt) : Nat :=
  match f.special with
  | .ieee => (2 ^ f.ebits - 1) * 2 ^ f.mbits + 2 ^ (f.mbits - 1)
  | .topNan => f.signBit - 1
  | .none => 0

/-- The element formats of R254. -/
inductive Fmt where
  | float (f : FloatFmt)
  /-- An MX format with floating-point elements. -/
  | mx (f : FloatFmt)
  | mxInt8
  /-- A two's-complement integer of so many bytes. -/
  | int (bytes : Nat)
  deriving DecidableEq, Repr

/-- The format of a code (R254). -/
def fmtOf (code : Nat) : Option Fmt :=
  match code with
  | 0x00 => some (.float fFP32)
  | 0x01 => some (.float fBF16)
  | 0x02 => some (.float fFP16)
  | 0x03 => some (.float fE4M3)
  | 0x04 => some (.float fE5M2)
  | 0x10 => some (.mx fE4M3)
  | 0x11 => some (.mx fE5M2)
  | 0x12 => some (.mx fE2M3)
  | 0x13 => some (.mx fE3M2)
  | 0x14 => some (.mx fE2M1)
  | 0x15 => some .mxInt8
  | 0x20 => some (.int 4)
  | 0x21 => some (.int 1)
  | _ => none

/-- Bits of one element of an MX format. -/
def Fmt.elemBits : Fmt → Nat
  | .float f => 1 + f.ebits + f.mbits
  | .mx f => 1 + f.ebits + f.mbits
  | .mxInt8 => 8
  | .int n => 8 * n

/-- The format is an MX format. -/
def Fmt.isMx : Fmt → Bool
  | .mx _ => true
  | .mxInt8 => true
  | _ => false

/-- The format is an integer format. -/
def Fmt.isInt : Fmt → Bool
  | .int _ => true
  | _ => false

/-- Bytes of a block of an MX format (R255). -/
def Fmt.blockBytes (f : Fmt) : Nat := 1 + 4 * f.elemBits

/-- The encoded size of `c` elements (R256); none where an MX run is not whole blocks. -/
def Fmt.size (f : Fmt) (c : Nat) : Option Nat :=
  if f.isMx then (if c % 32 = 0 then some (c / 32 * f.blockBytes) else none) else some (c * (f.elemBits / 8))

/-- The encoded size of a whole chunk of 1,024 elements of a format code. -/
def chunkBytes (code : Nat) : Nat := ((fmtOf code).bind fun f => f.size 1024).getD 0

/-- Decoding of a floating-point code. -/
def FloatFmt.decode (f : FloatFmt) (n : Nat) : Val :=
  let neg := bitAt n (f.ebits + f.mbits)
  let e := bitsOf n f.mbits f.ebits
  let m := bitsOf n 0 f.mbits
  let top := e == 2 ^ f.ebits - 1
  if f.special = .ieee ∧ top then (if m = 0 then .inf neg else .nan)
  else if f.special = .topNan ∧ top ∧ m = 2 ^ f.mbits - 1 then .nan
  else if e = 0 then .fin neg m (f.emin - f.mbits)
  else .fin neg (2 ^ f.mbits + m) ((e : Int) - f.bias - f.mbits)

/-- A value scaled by a power of two. -/
def Val.scale (k : Int) : Val → Val
  | .fin s m e => .fin s m (e + k)
  | v => v

/-- Decoding of a two's-complement code of `bits` bits. -/
def decodeInt (bits n : Nat) : Val :=
  let z := toSigned bits n
  .fin (decide (z < 0)) z.natAbs 0

/-- The 32 values of an MX block (R254, R255). -/
def decodeBlock (f : Fmt) (b : Bytes) : List Val :=
  let x := getLE b 0 1
  let w := f.elemBits
  let body := getLE b 1 (4 * w)
  (List.range 32).map fun j =>
    let code := bitsOf body (w * j) w
    if x = 255 then .nan
    else
      let v := match f with
        | .mx g => g.decode code
        | _ => (decodeInt 8 code).scale (-6)
      v.scale ((x : Int) - 127)

/-- The values of a run of elements. -/
def Fmt.decode (f : Fmt) (count : Nat) (b : Bytes) : List Val :=
  if f.isMx then
    (List.range (count / 32)).flatMap fun i => decodeBlock f (sliceB b (i * f.blockBytes) f.blockBytes)
  else
    let n := f.elemBits / 8
    (List.range count).map fun i =>
      let code := getLE b (i * n) n
      match f with
      | .float g => g.decode code
      | _ => decodeInt f.elemBits code

/-! ### Rounding (R264) -/

/-- ⌊log₂ n⌋ of a positive number. -/
def log2 (n : Nat) : Nat := Nat.log2 n

/-- M · 2^lsb is brought to weight q: the significand, rounded to nearest even, or with a 32-bit random word (R264). -/
def roundAt (m : Nat) (lsb q : Int) (rnd : Option Nat) : Nat :=
  let sh := q - lsb
  if sh ≤ 0 then m * 2 ^ (-sh).toNat
  else
    let k := sh.toNat
    let n := m / 2 ^ k
    let d := m % 2 ^ k
    if d = 0 then n
    else
      let up := match rnd with
        | none => decide (2 ^ (k - 1) < d) || (decide (d = 2 ^ (k - 1)) && n % 2 == 1)
        | some r =>
          let t := if k ≤ 32 then d * 2 ^ (32 - k) else d / 2 ^ (k - 32)
          decide (2 ^ 32 ≤ t + r)
      if up then n + 1 else n

/-- The code without sign of N · 2^q, where q is the weight of the last bit of its binade or of the subnormals. -/
def FloatFmt.codeOf (f : FloatFmt) (n : Nat) (q : Int) : Nat :=
  if n < 2 ^ f.mbits then n
  else ((q + f.mbits + f.bias).toNat - 1) * 2 ^ f.mbits + n

/-- A finite non-zero value rounded to a format: its code without sign, and whether it exceeds the largest finite value. -/
def FloatFmt.round (f : FloatFmt) (m : Nat) (lsb : Int) (rnd : Option Nat) : Nat × Bool :=
  let e := (log2 m : Int) + lsb
  let q := max e f.emin - f.mbits
  let c := f.codeOf (roundAt m lsb q rnd) q
  (c, decide (f.maxCode < c))

/-- Infinity of a sign; the canonical NaN in a format that has none (R264). -/
def FloatFmt.overflow (f : FloatFmt) (neg : Bool) : Nat :=
  match f.special with
  | .ieee => (2 ^ f.ebits - 1) * 2 ^ f.mbits + bit neg * f.signBit
  | _ => f.canonNan

/-- How a result is counted (R264 to R266). -/
inductive NumCount where
  | none
  | nanResult
  | overflow
  | saturated
  deriving DecidableEq, Repr

/-! ### Accumulators (R260, R261) -/

/-- The exponent of the lowest bit of FIELD. -/
def Mode.lsb : Mode → Int
  | .wide => -149
  | .narrow => -24
  | .integer => 0
  | .ordered => 0

/-- Granules of a bay (R272) and bytes of an accumulator (R260). -/
def Mode.granules : Mode → Nat
  | .wide => 10
  | .narrow => 2
  | .integer => 2
  | .ordered => 1
def Mode.accBytes : Mode → Nat
  | .wide => 40
  | .narrow => 8
  | .integer => 8
  | .ordered => 4

/-- One element is added (R261). -/
def Accum.add (lsb : Int) (a : Accum) (v : Val) : Accum :=
  match v with
  | .nan => { a with nan := true }
  | .inf false => { a with pinf := true }
  | .inf true => { a with ninf := true }
  | .fin neg m e =>
    let t : Int := ((m * 2 ^ (e - lsb).toNat : Nat) : Int)
    { a with field := a.field + (if neg then -t else t) }

/-- FIELD as a dyadic value and the special results of the first three lines of R264. -/
inductive AccVal where
  | nan
  | inf (neg : Bool)
  | fin (z : Int)
  deriving DecidableEq, Repr

def Accum.value (a : Accum) : AccVal :=
  if a.nan || (a.pinf && a.ninf) then .nan
  else if a.pinf then .inf false
  else if a.ninf then .inf true
  else .fin a.field

/-- round_result (R264): the code and how it is counted. -/
def FloatFmt.result (f : FloatFmt) (lsb : Int) (v : AccVal) (rnd : Option Nat) : Nat × NumCount :=
  match v with
  | .nan => (f.canonNan, .nanResult)
  | .inf neg => (f.overflow neg, if f.special = .ieee then NumCount.none else NumCount.nanResult)
  | .fin z =>
    if z = 0 then (0, .none)
    else
      let neg := decide (z < 0)
      let (c, big) := f.round z.natAbs lsb rnd
      if big then (f.overflow neg, NumCount.overflow) else (c + bit neg * f.signBit, .none)

/-- A clamped integer result (R265). -/
def intResult (bytes : Nat) (a : Accum) : Nat × NumCount :=
  let half : Int := ((2 ^ (8 * bytes - 1) : Nat) : Int)
  if a.nan then (ofSigned (8 * bytes) (-half), .nanResult)
  else if a.field < -half then (ofSigned (8 * bytes) (-half), .saturated)
  else if half ≤ a.field then (ofSigned (8 * bytes) (half - 1), .saturated)
  else (ofSigned (8 * bytes) a.field, .none)

/-- EMAX of R266. -/
def Fmt.emax : Fmt → Int
  | .mx f => if f = fE4M3 then 8 else if f = fE5M2 then 15 else if f = fE2M3 then 2 else if f = fE3M2 then 4 else 2
  | _ => 0

/-- One element of an MX block: the value z · 2^lsb divided by 2^k (R266 step 4). -/
def Fmt.mxElem (f : Fmt) (z lsb k : Int) (rnd : Option Nat) : Nat :=
  if z = 0 then 0
  else
    let neg := decide (z < 0)
    match f with
    | .mx g =>
      let (c, _) := g.round z.natAbs (lsb - k) rnd
      min c g.maxCode + bit neg * g.signBit
    | _ =>
      let n := min 127 (roundAt z.natAbs (lsb - k) (-6) rnd)
      if neg then ofSigned 8 (-(n : Int)) else n

/-- An MX block: scale byte and packed elements. -/
def Fmt.packBlock (f : Fmt) (x : Nat) (codes : List Nat) : Bytes :=
  let w := f.elemBits
  bytesLE 1 x ++ bytesLE (4 * w) (sumOf (codes.mapIdx fun j c => c * 2 ^ (w * j)))

/-- An MX block formed from 32 exact values (R266), and how it is counted. `rnd` gives each element's random word. -/
def Fmt.mxBlock (f : Fmt) (lsb : Int) (vs : List AccVal) (rnd : Nat → Option Nat) : Bytes × NumCount :=
  let bad := vs.any fun v => match v with
    | .fin _ => false
    | _ => true
  let zs := vs.map fun v => match v with
    | .fin z => z
    | _ => 0
  let nanBlock := f.packBlock 255 (List.replicate 32 0)
  if bad then (nanBlock, .nanResult)
  else
    let amax := maxOf (zs.map Int.natAbs)
    if amax = 0 then (f.packBlock 0 (List.replicate 32 0), .none)
    else
      let x := (log2 amax : Int) + lsb - f.emax + 127
      if 254 < x then (nanBlock, .overflow)
      else
        let x := max x 0
        (f.packBlock x.toNat (zs.mapIdx fun j z => f.mxElem z lsb (x - 127) (rnd j)), .none)

/-- A run of 32 values at a time. -/
def blocks32 : Nat → List AccVal → List (List AccVal)
  | 0, _ => []
  | n + 1, l => l.take 32 :: blocks32 n (l.drop 32)

/-- Values rounded to a format code, with how each element or block is counted (R264 to R266). `rnd` gives the random
word of an element, none for round-to-nearest-even. -/
def encodeVals (code : Nat) (lsb : Int) (vs : List AccVal) (rnd : Nat → Option Nat) : Bytes × List NumCount :=
  match fmtOf code with
  | some (.float f) =>
    let r := vs.mapIdx fun i v => f.result lsb v (rnd i)
    (r.flatMap fun p => bytesLE ((1 + f.ebits + f.mbits) / 8) p.1, r.map (·.2))
  | some f =>
    let r := (blocks32 (vs.length / 32) vs).mapIdx fun b l => f.mxBlock lsb l fun j => rnd (32 * b + j)
    (r.flatMap (·.1), r.map (·.2))
  | none => ([], [])

/-- A whole set of accumulators rounded to a format code. -/
def encodeAccs (mode : Mode) (code : Nat) (accs : List Accum) (rnd : Nat → Option Nat) : Bytes × List NumCount :=
  match mode, fmtOf code with
  | .integer, some (.int n) =>
    let r := accs.map fun a => intResult n a
    (r.flatMap fun p => bytesLE n p.1, r.map (·.2))
  | .ordered, _ =>
    encodeVals code (-149) (accs.map fun a =>
      match fFP32.decode a.field.toNat with
      | .nan => .nan
      | .inf neg => .inf neg
      | .fin neg m e =>
        let t : Int := ((m * 2 ^ (e + 149).toNat : Nat) : Int)
        .fin (if neg then -t else t)) rnd
  | _, _ => encodeVals code mode.lsb (accs.map Accum.value) rnd

/-! ### FP32 arithmetic (R263, R323, R326) -/

/-- A value rounded to FP32, to nearest even (R263). -/
def toFp32 (v : Val) : Nat :=
  match v with
  | .nan => fFP32.canonNan
  | .inf neg => fFP32.overflow neg
  | .fin neg m e =>
    if m = 0 then bit neg * fFP32.signBit
    else
      let (c, big) := fFP32.round m e none
      if big then fFP32.overflow neg else c + bit neg * fFP32.signBit

/-- A finite value as an integer multiple of 2^lsb, for an lsb at or below its exponent. -/
def Val.at_ (lsb : Int) : Val → Int
  | .fin neg m e => let t : Int := ((m * 2 ^ (e - lsb).toNat : Nat) : Int); if neg then -t else t
  | _ => 0

/-- The exact sum of two finite values; an exact zero is −0 only when both are zeros of sign minus. -/
def addFin (na : Bool) (ma : Nat) (ea : Int) (nb : Bool) (mb : Nat) (eb : Int) : Val :=
  let l := min ea eb
  let z := (Val.fin na ma ea).at_ l + (Val.fin nb mb eb).at_ l
  if z = 0 then .fin (ma == 0 && mb == 0 && na && nb) 0 l else .fin (decide (z < 0)) z.natAbs l

/-- The exact sum of two values. -/
def Val.plus : Val → Val → Val
  | .nan, _ => .nan
  | _, .nan => .nan
  | .inf a, .inf b => if a = b then .inf a else .nan
  | .inf a, _ => .inf a
  | _, .inf b => .inf b
  | .fin na ma ea, .fin nb mb eb => addFin na ma ea nb mb eb

/-- The exact product of two values. -/
def Val.times : Val → Val → Val
  | .nan, _ => .nan
  | _, .nan => .nan
  | .inf a, .inf b => .inf (a != b)
  | .inf a, .fin nb mb _ => if mb = 0 then .nan else .inf (a != nb)
  | .fin na ma _, .inf b => if ma = 0 then .nan else .inf (na != b)
  | .fin na ma ea, .fin nb mb eb => .fin (na != nb) (ma * mb) (ea + eb)

/-- FP32 codes: addition, and fused multiply-add. -/
def fp32Add (a b : Nat) : Nat := toFp32 ((fFP32.decode a).plus (fFP32.decode b))
def fp32Fma (a b c : Nat) : Nat := toFp32 (((fFP32.decode a).times (fFP32.decode b)).plus (fFP32.decode c))

/-! ### The reduction specifier (R257, R258) -/

/-- The input formats a mode accepts (R257). -/
def Mode.accepts (m : Mode) (code : Nat) : Bool :=
  match m with
  | .wide => (fmtOf code).any fun f => !f.isInt
  | .ordered => (fmtOf code).any fun f => !f.isInt
  | .narrow => code ∈ [0x02, 0x03, 0x04]
  | .integer => code ∈ [0x20, 0x21]

/-- The FWD formats a mode accepts. -/
def Mode.fwdOk (m : Mode) (code : Nat) : Bool :=
  match m with
  | .integer => code == 0x20
  | m => m.accepts code

/-- FWD 0xFF selects this format (R258). -/
def Mode.fwdDefault : Mode → Nat
  | .wide => 0x00
  | .narrow => 0x02
  | .integer => 0x20
  | .ordered => 0x00

/-- A specifier word read (R257). -/
def parseSpec (w : Nat) : Option RSpec :=
  let result := bitsOf w 8 8
  let fwd := bitsOf w 16 8
  let int := result == 0x20 || result == 0x21
  let mode := match bitsOf w 0 2 with
    | 0 => some Mode.wide
    | 1 => some (if int then Mode.integer else Mode.narrow)
    | 2 => some Mode.ordered
    | _ => none
  mode.bind fun m =>
    let fwd := if fwd = 0xFF then m.fwdDefault else fwd
    let resOk := if m = .integer then int else (fmtOf result).any fun f => !f.isInt
    if bitsOf w 3 5 = 0 ∧ bitsOf w 24 8 = 0 ∧ resOk = true ∧ m.fwdOk fwd = true
    then some ⟨m, bitAt w 2, result, fwd⟩ else none

/-! ### Contributions to a bay -/

/-- Accumulators of a fresh bay: every bit zero. -/
def freshAccs : List Accum := List.replicate 1024 {}

/-- A contribution of the wrong format: NaN, or INVALID, everywhere it covers (R259). -/
def Accum.poison (m : Mode) (a : Accum) : Accum :=
  match m with
  | .ordered => { a with field := (fFP32.canonNan : Nat) }
  | _ => { a with nan := true }

/-- One element of a contribution is added in a mode; `first` is the first contribution of an ordered bay (R261, R263). -/
def Accum.take (m : Mode) (first : Bool) (a : Accum) (v : Val) : Accum :=
  match m with
  | .ordered =>
    let c := toFp32 v
    { a with field := ((if first then c else toFp32 ((fFP32.decode a.field.toNat).plus (fFP32.decode c)) : Nat) : Int) }
  | m => a.add m.lsb v

/-- Accumulators after a run of values from element `off` on. -/
def addRun (m : Mode) (first : Bool) (accs : List Accum) (off : Nat) (vs : List Val) : List Accum :=
  accs.mapIdx fun i a => if i < off then a else match vs[i - off]? with
    | some v => a.take m first v
    | none => a

/-- The bits of an accumulator (R260). -/
def Accum.bits (m : Mode) (a : Accum) : Nat :=
  match m with
  | .wide => ofSigned 313 a.field + bit a.nan * 2 ^ 313 + bit a.pinf * 2 ^ 314 + bit a.ninf * 2 ^ 315
  | .narrow => ofSigned 61 a.field + bit a.nan * 2 ^ 61 + bit a.pinf * 2 ^ 62 + bit a.ninf * 2 ^ 63
  | .integer => ofSigned 61 a.field + bit a.nan * 2 ^ 61
  | .ordered => ofSigned 32 a.field

/-- The accumulator that bits spell. -/
def Accum.ofBits (m : Mode) (n : Nat) : Accum :=
  match m with
  | .wide => ⟨toSigned 313 n, bitAt n 313, bitAt n 314, bitAt n 315⟩
  | .narrow => ⟨toSigned 61 n, bitAt n 61, bitAt n 62, bitAt n 63⟩
  | .integer => ⟨toSigned 61 n, bitAt n 61, false, false⟩
  | .ordered => ⟨(n : Int), false, false, false⟩

/-- The bytes of a bay's accumulators, padded to whole granules (R260, R272). -/
def accsBytes (m : Mode) (accs : List Accum) : Bytes :=
  sliceB (accs.flatMap fun a => bytesLE m.accBytes (a.bits m)) 0 (m.granules * 4096)

/-- A bay's accumulators read back from its bytes. -/
def accsOf (m : Mode) (b : Bytes) : List Accum :=
  (List.range 1024).map fun i => Accum.ofBits m (getLE b (i * m.accBytes) m.accBytes)

/-! ### The stochastic rounding hash (R267) -/

/-- RND(GROUP, OP_SEQ, CHUNK, ELEM). -/
def rndWord (group opSeq chunk elem : Nat) : Nat :=
  let m := 2 ^ 64
  let w0 := opSeq * 2 ^ 32 + chunk
  let w1 := group * 2 ^ 10 + elem
  let z := (w0 ^^^ (w1 * 0x9E3779B97F4A7C15 % m))
  let z := (z ^^^ (z / 2 ^ 30)) * 0xBF58476D1CE4E5B9 % m
  let z := (z ^^^ (z / 2 ^ 27)) * 0x94D049BB133111EB % m
  let z := z ^^^ (z / 2 ^ 31)
  z / 2 ^ 32

end Sys2Proof.Machine
end

