-- ==== Sys2Proof/Machine/AshBlocks.lean ====
section
/-!
DEFINITION. Ashlar blocks (R347 to R352, R358, R362, R367): the block layout, its check, expansion, the dresser and
streams.
-/

namespace Sys2Proof.Machine

/-! ### The block (R347 to R352) -/

/-- Bytes of a block and code width of a profile. -/
def ashBytes (profile : Nat) : Nat := 144 + 64 * profile
def ashWidth (profile : Nat) : Nat := 4 + 2 * profile

/-- The header word and its fields (R348). -/
def ashHead (b : Bytes) : Nat := getLE b 0 8
def ashTable (b : Bytes) : Nat := bitsOf (ashHead b) 0 8
def ashProfile (b : Bytes) : Nat := bitsOf (ashHead b) 8 2
def ashRubble (b : Bytes) : Bool := bitAt (ashHead b) 10
def ashOut (b : Bytes) : Nat := bitsOf (ashHead b) 11 4

/-- The block is intact (R349). -/
def ashIntact (b : Bytes) : Bool := crc16 (b.take 6 ++ b.drop 8) == bitsOf (ashHead b) 48 16

/-- Bytes of a rubble block's uniform codes (R351). -/
def ashUniform (profile : Nat) : Nat := 32 * (ashWidth profile - 1)

/-- VALUE and POS of outlier entry k (R351). -/
def ashOutlier (b : Bytes) (k : Nat) : Nat × Nat :=
  let o := 0x10 + ashUniform (ashProfile b) + 3 * k
  (getLE b o 2, getLE b (o + 2) 1)

/-- A list of numbers that rises strictly. -/
def risingNat : List Nat → Bool
  | a :: b :: t => decide (a < b) && risingNat (b :: t)
  | _ => true

/-- The block is well-formed (R352). -/
def ashWellFormed (b : Bytes) : Bool :=
  let p := ashProfile b
  let n := ashOut b
  p != 3 && bitsOf (ashHead b) 15 33 == 0 &&
    (if ashRubble b then
      decide (n ≤ 8) && risingNat ((List.range n).map fun k => (ashOutlier b k).2) &&
        allZero (b.drop (0x10 + ashUniform p + 3 * n))
     else n == 0)

/-! ### Expansion (R358) -/

/-- bf16(y) of R358. -/
def bf16Of (v : Val) : Nat :=
  match v with
  | .nan => fBF16.canonNan
  | .inf neg => fBF16.overflow neg
  | .fin neg m e =>
    if m = 0 then 0
    else
      let (c, big) := fBF16.round m e none
      if big then fBF16.overflow neg else c + bit neg * fBF16.signBit

/-- The value a level and a scale byte select. -/
def levelValue (level x : Nat) : Nat := bf16Of ((fBF16.decode level).scale ((x : Int) - 127))

/-- The value a uniform code of n bits and a scale byte select. -/
def uniformValue (n u x : Nat) : Nat :=
  let z : Int := (u : Int) - ((2 ^ (n - 1) : Nat) : Int)
  bf16Of (.fin (decide (z < 0)) z.natAbs ((x : Int) - 127 - (n : Int) + 1))

/-- The 256 BF16 values of a block under a table's levels. -/
def ashExpand (levels : List Nat) (b : Bytes) : List Nat :=
  let p := ashProfile b
  let w := ashWidth p
  let codes := natLE (b.drop 0x10)
  let uni := natLE (sliceB b 0x10 (ashUniform p))
  let base := (List.range 256).map fun i =>
    let x := getLE b (8 + i / 32) 1
    if x = 0xFF then fBF16.canonNan
    else if ashRubble b then uniformValue (w - 1) (bitsOf uni ((w - 1) * i) (w - 1)) x
    else levelValue (levels.getD (bitsOf codes (w * i) w) 0) x
  if ashRubble b then
    (List.range (ashOut b)).foldl (fun l k =>
      let (v, pos) := ashOutlier b k
      l.set pos (if fBF16.decode v = .nan then fBF16.canonNan else v)) base
  else base

/-- Little-endian BF16 values. -/
def bf16Bytes (l : List Nat) : Bytes := l.flatMap fun v => bytesLE 2 v

/-! ### The dresser (R365 to R367) -/

/-- A finite value as a rational. -/
def Val.rat : Val → Rat
  | .fin neg m e =>
    let t : Rat := if 0 ≤ e then ((m * 2 ^ e.toNat : Nat) : Rat) else (m : Rat) / ((2 ^ (-e).toNat : Nat) : Rat)
    if neg then -t else t
  | _ => 0

/-- The magnitude of a rational. -/
def ratAbs (r : Rat) : Rat := if r < 0 then -r else r

/-- 2^k. -/
def ratPow (k : Int) : Rat := if 0 ≤ k then ((2 ^ k.toNat : Nat) : Rat) else 1 / ((2 ^ (-k).toNat : Nat) : Rat)

/-- A distance: none is infinite. -/
def distTo (v : Rat) (code : Nat) : Option Rat :=
  match fBF16.decode code with
  | .fin s m e => some (ratAbs (v - (Val.fin s m e).rat))
  | _ => none

/-- One distance is smaller than another. -/
def distLt : Option Rat → Option Rat → Bool
  | some a, some b => decide (a < b)
  | some _, none => true
  | none, _ => false

/-- The larger of two distances. -/
def distMax (a b : Option Rat) : Option Rat := if distLt a b then b else a

/-- The smallest scale byte x in 0..254 with a ≤ m · 2^(x − 127), else 254. -/
def scaleFor (a m : Rat) : Nat :=
  ((List.range 255).find? fun (x : Nat) => decide (a ≤ m * ratPow ((x : Int) - 127))).getD 254

/-- The largest of a list of rationals that are not negative. -/
def ratMax (l : List Rat) : Rat := l.foldl max 0

/-- A candidate block's scales and codes. -/
structure Coding where
  scales : List Nat
  codes : List Nat
  outs : List (Nat × Nat) := []
  deriving DecidableEq, Repr

/-- The code whose value lies nearest, the lowest of several. -/
def nearestCode (levels : List Nat) (x : Nat) (v : Rat) : Nat :=
  ((List.range levels.length).foldl (fun (best : Nat × Option Rat) c =>
    let d := distTo v (levelValue (levels.getD c 0) x)
    if distLt d best.2 then (c, d) else best) (0, distTo v (levelValue (levels.getD 0 0) x))).1

/-- The plain coding (R365); a sub-block that holds a value that is not finite takes scale 0xFF and codes 0 (R367). -/
def plainCoding (levels : List Nat) (v : List Val) : Coding :=
  let lmax := ratMax (levels.map fun l => ratAbs (fBF16.decode l).rat)
  let fin (x : Val) : Bool := match x with
    | .fin .. => true
    | _ => false
  let subs := (List.range 8).map fun j =>
    let l := (v.drop (32 * j)).take 32
    if l.all fin then
      let r := l.map Val.rat
      let a := ratMax (r.map ratAbs)
      let x := if a = 0 ∨ lmax = 0 then 0 else scaleFor a lmax
      (x, r.map fun y => nearestCode levels x y)
    else (0xFF, List.replicate 32 0)
  { scales := subs.map (·.1), codes := subs.flatMap (·.2) }

/-- Round to the nearest integer, ties to even. -/
def ratRound (r : Rat) : Int :=
  let f := r.floor
  let d := r - f
  if d < 1 / 2 then f else if 1 / 2 < d then f + 1 else if f % 2 = 0 then f else f + 1

/-- The first k of the elements ranked by magnitude, largest first, ties to the lower index. -/
def topBy (r : List Rat) : Nat → List Nat → List Nat
  | 0, got => got
  | k + 1, got =>
    let best := (List.range r.length).foldl (fun (b : Option Nat) i =>
      if got.contains i then b else match b with
        | none => some i
        | some j => if ratAbs (r.getD j 0) < ratAbs (r.getD i 0) then some i else b) none
    match best with
    | some i => topBy r k (got ++ [i])
    | none => got

/-- The rubble coding (R366) with uniform codes of n bits, of finite values. -/
def rubbleCoding (n : Nat) (v : List Val) : Coding :=
  let r := v.map Val.rat
  let nonzero := (r.filter fun x => x != 0).length
  let o := topBy r (min 8 nonzero) []
  let half : Int := ((2 ^ (n - 1) : Nat) : Int)
  let subs := (List.range 8).map fun j =>
    let idx := (List.range 32).map fun i => 32 * j + i
    let a := ratMax ((idx.filter fun i => !o.contains i).map fun i => ratAbs (r.getD i 0))
    let x := if a = 0 then 0 else scaleFor a 1
    (x, idx.map fun i =>
      if o.contains i then (2 ^ (n - 1) : Nat)
      else
        let q := ratRound (r.getD i 0 / ratPow ((x : Int) - 127 - (n : Int) + 1))
        (min (max q (-half)) (half - 1) + half).toNat)
  { scales := subs.map (·.1)
    codes := subs.flatMap (·.2)
    outs := ((List.range 256).filter fun i => o.contains i).map fun i => (bf16Of (v.getD i .nan), i) }

/-- A coding's block: header, scales, codes, outliers and CHECK (R348, R349). -/
def Coding.block (c : Coding) (table profile : Nat) (rubble : Bool) : Bytes :=
  let w := if rubble then ashWidth profile - 1 else ashWidth profile
  let codes := sumOf (c.codes.mapIdx fun i x => x * 2 ^ (w * i))
  let area := bytesLE (32 * w) codes ++ c.outs.flatMap fun p => bytesLE 2 p.1 ++ bytesLE 1 p.2
  let head := bytesLE 6 (table + profile * 2 ^ 8 + bit rubble * 2 ^ 10 + c.outs.length * 2 ^ 11)
  let body := c.scales.flatMap (fun x => bytesLE 1 x) ++ area ++ zeros (ashBytes profile - 16 - area.length)
  head ++ bytesLE 2 (crc16 (head ++ body)) ++ body

/-- The largest error of a block against the values it codes. -/
def blockError (levels : List Nat) (b : Bytes) (v : List Val) : Option Rat :=
  ((v.zip (ashExpand levels b)).map fun p => distTo p.1.rat p.2).foldl distMax (some 0)

/-- One block dressed (R367): `used` blocks of its aligned run are rubble already. Also answers whether it is rubble. -/
def dressBlock (levels : List Nat) (table profile shift cap used : Nat) (v : List Val) : Bytes × Bool :=
  let plain := (plainCoding levels v).block table profile false
  let finite := v.all fun x => match x with
    | .fin .. => true
    | _ => false
  if !finite then (plain, false)
  else
    let rub := (rubbleCoding (ashWidth profile - 1) v).block table profile true
    let better := distLt ((blockError levels rub v).map fun e => e * ((2 ^ shift : Nat) : Rat)) (blockError levels plain v)
    if better && decide (used < cap) then (rub, true) else (plain, false)

/-- The stream header the dresser writes after the last block (R362). -/
def streamHeader (profile table blocks total max cap shift elements : Nat) : Bytes :=
  bytesLE 4 0x4C485341 ++ bytesLE 2 1 ++ bytesLE 1 profile ++ bytesLE 1 table ++ bytesLE 4 blocks ++ bytesLE 4 total ++
    bytesLE 2 max ++ bytesLE 2 cap ++ bytesLE 1 shift ++ zeros 11 ++ bytesLE 8 elements ++ zeros 24

/-- A load's stream header is good and holds block `idx` (R362). -/
def streamOk (h : Bytes) (idx : Nat) : Bool :=
  getLE h 0 4 == 0x4C485341 && getLE h 4 2 == 1 && getLE h 6 1 != 3 && decide (getLE h 6 1 < 3) &&
    decide (getLE h 0x10 2 ≤ 1024) && decide (idx < getLE h 8 4)

end Sys2Proof.Machine
end

