-- ==== Sys2Proof/Machine/Registers.lean ====
section
/-!
DEFINITION. The set-up register space: where an offset leads, what an access by a requester does (R79 to R85), the
registers common to every block, and the commit mechanism up to the end of checking (R86 to R91). The checks that
each block states for its groups, and what going live causes, are in Commit.lean.
-/

namespace Sys2Proof.Machine

/-- The commit registers of a block as a requester sees them. -/
def State.port (s : State) (v : View) (b : Blk) : CommitPort := s.regs.ports.getD (v, b) {}

/-- The state with the commit registers of one requester and block replaced. -/
def State.setPort (s : State) (v : View) (b : Blk) (p : CommitPort) : State :=
  { s with regs := { s.regs with ports := s.regs.ports.put (v, b) p } }

/-- The state with the commit registers of one requester and block changed. -/
def State.onPort (s : State) (v : View) (b : Blk) (f : CommitPort → CommitPort) : State :=
  s.setPort v b (f (s.port v b))

/-- The instance under which a requester's shadow copies and selector copies stand: 0, or the number of the virtual
function whose window it is. -/
def viewInst : View → Nat
  | .host => 0
  | .mgmt => 0
  | .vf n => n

/-- The owner of a commit group (R84, R85). Only TIM group 1 belongs to the management domain (the table before
R475); a virtual function's window has HIF group 0 alone. -/
def groupOwned (v : View) (b : Blk) (g : Nat) : Bool :=
  match v with
  | .host => decide (g < blkGroups b) && !(b == .tim && g == 1)
  | .mgmt => b == .tim && g == 1
  | .vf _ => b == .hif && g == 0

/-- Where an offset of a requester's space leads: a block and an offset in its window (R79, R80). A virtual function
reaches the ring staging window at 0xC000 of its BAR2 and its commit registers at 0xD000. -/
def viewLocate (v : View) (off : Nat) : Option (Blk × Nat) :=
  match v with
  | .vf _ =>
    if 0xC000 ≤ off ∧ off < 0xC020 then some (.hif, off - 0xC000)
    else if 0xD000 ≤ off ∧ off < 0xD018 then some (.hif, off - 0xD000 + 0xFF010)
    else none
  | _ => (blkOfOffset off).map fun b => (b, off % 0x100000)

/-- The stage START-UP has completed (`MGT.READINESS.STAGE`). -/
def State.stage (s : State) : Nat := s.fld Reg.MGT_READINESS_STAGE

/-- Before stage CORE, BAR0 answers only these MGT registers (R63). -/
def openBeforeCore (b : Blk) (off : Nat) : Bool :=
  b == .mgt && (off ∈ [0x0, 0x8, 0xC, 0x10, 0x20, 0x30, 0x34, 0x38])

/-- The access reaches the block's registers (R62, R63): the management view always, BAR0 from stage CORE onwards or, from
stage HOST_LINK on, at the registers open before it, a virtual function from stage CORE onwards, both while the core has its supply. -/
def State.reaches (s : State) (v : View) (b : Blk) (off : Nat) : Bool :=
  match v with
  | .mgmt => true
  | .host => !s.coreOff && (decide (7 ≤ s.stage) || (decide (2 ≤ s.stage) && openBeforeCore b off))
  | .vf _ => !s.coreOff && decide (7 ≤ s.stage)

/-- The offsets of the registers common to every block. -/
def isCommonReg (off : Nat) : Bool :=
  off ∈ [0xFF000, 0xFF004, 0xFF010, 0xFF014, 0xFF018, 0xFF01C, 0xFF020, 0xFF024]

/-- The management view alone holds the step registers (the line before `TIM.INC_LO`). -/
def mgmtOnly (b : Blk) (off : Nat) : Bool := b == .tim && (off ∈ [0x20, 0x24, 0x28])

/-- The offset holds a register for this requester (R82). -/
def holdsReg (v : View) (b : Blk) (off : Nat) : Bool :=
  match v with
  | .vf _ => (b == .hif && off < 0x20 && (regDefAt b off).isSome) || (0xFF010 ≤ off && isCommonReg off)
  | .mgmt => isCommonReg off || mgmtOnly b off || (regDefAt b off).isSome
  | .host => isCommonReg off || (!mgmtOnly b off && (regDefAt b off).isSome)

/-- An error bit of ACCESS_ERR is set and COUNT rises (the `BLK.ACCESS_ERR` table). -/
def CommitPort.noteError (p : CommitPort) (size ro lost : Bool) : CommitPort :=
  { p with
    errSize := p.errSize || size
    errRoWrite := p.errRoWrite || ro
    errGoLost := p.errGoLost || lost
    errCount := satAdd 0xFFFF p.errCount 1 }

/-- A write of `w` to ACCESS_ERR: ones clear bits, and COUNT clears when all three bits then read 0. -/
def CommitPort.clearErrors (p : CommitPort) (w : Nat) : CommitPort :=
  let size := p.errSize && !bitAt w 0
  let ro := p.errRoWrite && !bitAt w 1
  let lost := p.errGoLost && !bitAt w 2
  { p with
    errSize := size
    errRoWrite := ro
    errGoLost := lost
    errCount := if size || ro || lost then p.errCount else 0 }

/-- The shadow copy of an RWS register as a requester sees it. -/
def State.shadowReg (s : State) (v : View) (b : Blk) (off : Nat) : Word :=
  match s.regs.shadow.find ⟨b, off, viewInst v⟩ with
  | some w => w
  | none => resetWord ⟨b, off, 0⟩

/-- The state with a shadow copy replaced. -/
def State.setShadow (s : State) (v : View) (b : Blk) (off : Nat) (w : Word) : State :=
  { s with regs := { s.regs with shadow := s.regs.shadow.put ⟨b, off, viewInst v⟩ w } }

/-- A field is writable by the requester (R83): RW, W1C and WO always, RWS when the requester owns its group. -/
def fieldWritable (v : View) (b : Blk) (d : RegDef) (f : RegField) : Bool :=
  match f.acc with
  | .ro => false
  | .rws => match d.group with
    | some g => groupOwned v b g
    | none => false
  | _ => true

/-- The word after a write of `w` over `old` changes the fields of one access code: RW and RWS fields take the written
value, W1C fields lose the bits written 1, and every other bit keeps its value (R7, R8). -/
def writeFields (fields : List RegField) (sel : RegField → Bool) (old w : Nat) : Nat :=
  fields.foldl (fun acc f =>
    if sel f then
      match f.acc with
      | .w1c => putBits acc f.lsb f.width
          (bitsOf acc f.lsb f.width - (bitsOf acc f.lsb f.width &&& bitsOf w f.lsb f.width))
      | _ => putBits acc f.lsb f.width (bitsOf w f.lsb f.width)
    else acc) old

/-- The fields of a register that a write changes at once (RW and W1C). -/
def actsAtOnce (f : RegField) : Bool :=
  match f.acc with
  | .rw => true
  | .w1c => true
  | _ => false

/-- The RWS fields of a register that the requester's write changes in the shadow copy. -/
def toShadow (v : View) (b : Blk) (d : RegDef) (f : RegField) : Bool := f.acc == .rws && fieldWritable v b d f

/-- A write that reaches a register of a block's own offsets: its RW and W1C fields change at once, its RWS fields in
the shadow copy; with no field writable by the requester, RO_WRITE is set (R83). -/
def State.writeOwn (s : State) (v : View) (b : Blk) (off : Nat) (d : RegDef) (w : Word) : State :=
  if d.fields.any (fieldWritable v b d) then
    let k : RegKey := ⟨b, off, s.instOf b d⟩
    let s1 := if d.fields.any actsAtOnce
      then s.setReg k (BitVec.ofNat 32 (writeFields d.fields actsAtOnce (s.reg k).toNat w.toNat)) else s
    if d.fields.any (toShadow v b d)
      then s1.setShadow v b off
        (BitVec.ofNat 32 (writeFields d.fields (toShadow v b d) (s.shadowReg v b off).toNat w.toNat))
      else s1
  else s.onPort v b fun p => p.noteError false true false

/-- A write to one of the registers common to all blocks that has no row of its own: SCRATCH, READ_SEL and
COMMIT_MASK; the others are read-only or have rows of their own. -/
def State.writeCommon (s : State) (v : View) (b : Blk) (off : Nat) (w : Word) : State :=
  if off = 0xFF004 then s.setReg ⟨b, off, 0⟩ w
  else if off = 0xFF010 then s.onPort v b fun p => { p with readSel := bitAt w.toNat 8 }
  else if off = 0xFF014 then s.onPort v b fun p => { p with mask := w.toNat }
  else if off = 0xFF024 then s.onPort v b fun p => p.clearErrors w.toNat
  else s.onPort v b fun p => p.noteError false true false

/-- A 32-bit aligned write (R81 to R83, R63). -/
def State.regWrite (s : State) (v : View) (off : Nat) (w : Word) : State :=
  match viewLocate v off with
  | none => s
  | some (b, o) =>
    if s.reaches v b o && holdsReg v b o then
      if isCommonReg o then s.writeCommon v b o w
      else match regDefAt b o with
        | some d => s.writeOwn v b o d w
        | none => s
    else s

/-- The offsets that an access of `n` bytes at `off` touches hold a register of this requester, and in which block the
first such register stands (R81). -/
def State.touchesReg (s : State) (v : View) (off n : Nat) : Option Blk :=
  ((List.range n).map (off + ·)).findSome? fun a =>
    match viewLocate v (a / 4 * 4) with
    | some (b, o) => if s.reaches v b o && holdsReg v b o then some b else none
    | none => none

/-- The access is a natural 32-bit or 64-bit one, and a write has every byte enabled (R81). -/
def goodAccess (off n : Nat) (enabled write : Bool) : Bool :=
  ((n == 4 && off % 4 == 0) || (n == 8 && off % 8 == 0)) && (enabled || !write)

/-- An access of any other width or alignment, or a write with partial byte enables (R81): ignored, with SIZE set in the
block it touches. -/
def State.badAccess (s : State) (v : View) (off n : Nat) (enabled write : Bool) : State :=
  if goodAccess off n enabled write then s
  else match s.touchesReg v off n with
    | some b => s.onPort v b fun p => p.noteError true false false
    | none => s

/-! ### Commit: capture and abandon -/

/-- The RWS registers of a commit group, by block offset: every entry of the registers whose group it is. -/
def groupOffs (b : Blk) (g : Nat) : List Nat :=
  (blockRegs b).flatMap fun d => if d.group = some g then (List.range d.count).map fun i => d.off + 4 * i else []

/-- Groups named in a mask, lowest first. -/
def maskGroups (mask : Nat) : List Nat := (List.range 32).filter fun g => bitAt mask g

/-- The captured shadow copies of every group in a mask that the requester owns (R86, R87). -/
def State.capture (s : State) (v : View) (b : Blk) (mask : Nat) : AMap Nat Word :=
  ((maskGroups mask).filter (groupOwned v b)).flatMap fun g =>
    (groupOffs b g).map fun o => (o, s.shadowReg v b o)

/-- A write of GO (R86, R89, R91): lost while RESULT is CHECKING; EMPTY for a mask of 0; otherwise the shadow copies
are captured and checking begins. -/
def State.commitGo (s : State) (v : View) (b : Blk) : State :=
  let p := s.port v b
  match p.result with
  | .checking => s.setPort v b (p.noteError false false true)
  | _ =>
    if p.mask = 0 then
      s.setPort v b { p with result := .empty, errGroup := 0, errCode := 0, errOff := 0, errLsb := 0 }
    else
      s.setPort v b { p with
        result := .checking, errGroup := 0, errCode := 0
        captured := some (p.mask, s.capture v b p.mask) }

/-- The live instance that a register of a window shows in the group's live selector, for ABANDON and live reads. A
selector's own live copy stands under the requester's instance. -/
def State.liveInst (s : State) (v : View) (b : Blk) (d : RegDef) : Nat :=
  match v, d.sel with
  | _, [] => viewInst v
  | .vf n, (o, lsb, w, _) :: _ =>
    bitsOf (s.reg ⟨b, o, n⟩).toNat lsb w + s.fld Reg.HIF_VF_RINGS_RING_BASE n
  | _, _ => s.instOf b d

/-- The live copy of an RWS register as a requester reads it (R88). -/
def State.liveReg (s : State) (v : View) (b : Blk) (off : Nat) : Word :=
  match regDefAt b off with
  | some d => s.reg ⟨b, off, s.liveInst v b d⟩
  | none => 0

/-- A write of ABANDON (R88): live copies return to the shadow copies of the groups in the mask that are not pending.
Ignored while RESULT is CHECKING. -/
def State.commitAbandon (s : State) (v : View) (b : Blk) : State :=
  let p := s.port v b
  match p.result with
  | .checking => s
  | _ =>
    ((maskGroups p.mask).filter fun g => groupOwned v b g && !p.pend.has g).foldl (fun s g =>
      (groupOffs b g).foldl (fun s o => s.setShadow v b o (s.liveReg v b o)) s) s

end Sys2Proof.Machine
end

