-- ==== Sys2Proof/Machine/Flags.lean ====
section
/-!
DEFINITION. Flags the block raises: event records with their rate limits, alerts, console lines and persistence
(R506, R508, R510 to R513), notifications and MSI-X (R118 to R121), and the codes of R554.
-/

namespace Sys2Proof.Machine

namespace Ev

/-- READY, severity info, notified (R554). -/
def READY : Nat := 0x0001
/-- READINESS, severity info (R554). -/
def READINESS : Nat := 0x0002
/-- READINESS_FAIL, severity critical (R554). -/
def READINESS_FAIL : Nat := 0x0003
/-- UPDATE_PROGRESS, severity info, notified (R554). -/
def UPDATE_PROGRESS : Nat := 0x0004
/-- RECOV_REFUSED, severity warning (R554). -/
def RECOV_REFUSED : Nat := 0x0005
/-- TEST_STRAP_REFUSED, severity warning (R554). -/
def TEST_STRAP_REFUSED : Nat := 0x0006
/-- MGC_TAKEOVER, severity error, notified (R554). -/
def MGC_TAKEOVER : Nat := 0x0007
/-- MGMT_DOWN, severity critical, notified (R554). -/
def MGMT_DOWN : Nat := 0x0008
/-- SENSOR_FAULT, severity error (R554). -/
def SENSOR_FAULT : Nat := 0x0009
/-- TEST_ACCESS, severity warning (R554). -/
def TEST_ACCESS : Nat := 0x000A
/-- ARB_BOUND_EXCEEDED, severity error (R554). -/
def ARB_BOUND_EXCEEDED : Nat := 0x000B
/-- COMMIT_REFUSED, severity notice (R554). -/
def COMMIT_REFUSED : Nat := 0x000C
/-- RING_FAULT, severity error, notified (R554). -/
def RING_FAULT : Nat := 0x0101
/-- COX_TAKEOVER, severity warning, notified (R554). -/
def COX_TAKEOVER : Nat := 0x0201
/-- COX_RELOADED, severity notice, notified (R554). -/
def COX_RELOADED : Nat := 0x0202
/-- COX_FAILED, severity error, notified (R554). -/
def COX_FAILED : Nat := 0x0203
/-- COX_DEGRADED, severity error, notified (R554). -/
def COX_DEGRADED : Nat := 0x0204
/-- MMU_FAULT, severity warning, notified (R554). -/
def MMU_FAULT : Nat := 0x0301
/-- MEM_TRANSIENT, severity notice (R554). -/
def MEM_TRANSIENT : Nat := 0x0401
/-- RETIRE_START, severity notice, notified (R554). -/
def RETIRE_START : Nat := 0x0402
/-- RETIRE_DONE, severity notice, notified (R554). -/
def RETIRE_DONE : Nat := 0x0403
/-- MEM_LOST, severity error, notified (R554). -/
def MEM_LOST : Nat := 0x0404
/-- RETIRE_NO_SPARE, severity error, notified (R554). -/
def RETIRE_NO_SPARE : Nat := 0x0405
/-- RETIRE_NO_SPACE, severity warning, notified (R554). -/
def RETIRE_NO_SPACE : Nat := 0x0406
/-- DDR_TRAIN_FAIL, severity error, notified (R554). -/
def DDR_TRAIN_FAIL : Nat := 0x0501
/-- SETT_REFCOUNT_FAULT, severity error (R554). -/
def SETT_REFCOUNT_FAULT : Nat := 0x0601
/-- BYPASS_RETURN_FAIL, severity warning, notified (R554). -/
def BYPASS_RETURN_FAIL : Nat := 0x0701
/-- CTX_LOST, severity error, notified (R554). -/
def CTX_LOST : Nat := 0x0901
/-- CTX_TIMEOUT, severity warning, notified (R554). -/
def CTX_TIMEOUT : Nat := 0x0902
/-- PLAN_LATE, severity warning, notified (R554). -/
def PLAN_LATE : Nat := 0x0C01
/-- PLAN_SET_MISMATCH, severity warning, notified (R554). -/
def PLAN_SET_MISMATCH : Nat := 0x0C02
/-- PLAN_OP_FAILED, severity warning, notified (R554). -/
def PLAN_OP_FAILED : Nat := 0x0C03
/-- PLAN_ENDED, severity info, notified (R554). -/
def PLAN_ENDED : Nat := 0x0C04
/-- ASHLAR_BAD, severity error (R554). -/
def ASHLAR_BAD : Nat := 0x0E01
/-- RUBBLE_EXCESS, severity warning (R554). -/
def RUBBLE_EXCESS : Nat := 0x0E02
/-- OUT_PARAM_MISMATCH, severity warning, notified (R554). -/
def OUT_PARAM_MISMATCH : Nat := 0x0F01
/-- DIGEST_MISMATCH, severity error, notified (R554). -/
def DIGEST_MISMATCH : Nat := 0x0F02
/-- DIGEST_REFETCH, severity warning (R554). -/
def DIGEST_REFETCH : Nat := 0x0F03
/-- FEED_LINE_LOW, severity warning (R554). -/
def FEED_LINE_LOW : Nat := 0x1001
/-- FEED_LOST, severity error (R554). -/
def FEED_LOST : Nat := 0x1002
/-- PG_ID_MISMATCH, severity error, notified (R554). -/
def PG_ID_MISMATCH : Nat := 0x1003
/-- RX_LANE_ALIAS, severity warning, notified (R554). -/
def RX_LANE_ALIAS : Nat := 0x1004
/-- LANE_DOWN, severity error (R554). -/
def LANE_DOWN : Nat := 0x1005
/-- LANE_RETIRED, severity warning, notified (R554). -/
def LANE_RETIRED : Nat := 0x1006
/-- LANE_RETIRE_NO_SPARE, severity error, notified (R554). -/
def LANE_RETIRE_NO_SPARE : Nat := 0x1007
/-- ELN_TRAIN_FAIL, severity error, notified (R554). -/
def ELN_TRAIN_FAIL : Nat := 0x1101
/-- LG_LANE_MISMATCH, severity error, notified (R554). -/
def LG_LANE_MISMATCH : Nat := 0x1201
/-- LINE_SF, severity error, notified (R554). -/
def LINE_SF : Nat := 0x1202
/-- LINE_SF_CLEAR, severity notice, notified (R554). -/
def LINE_SF_CLEAR : Nat := 0x1203
/-- LINE_SD, severity warning, notified (R554). -/
def LINE_SD : Nat := 0x1204
/-- LINE_WINDOW_RELEASED, severity error, notified (R554). -/
def LINE_WINDOW_RELEASED : Nat := 0x1205
/-- LINE_UNAVAILABLE, severity error, notified (R554). -/
def LINE_UNAVAILABLE : Nat := 0x1206
/-- LINE_AVAILABLE, severity notice, notified (R554). -/
def LINE_AVAILABLE : Nat := 0x1207
/-- LINE_PROT_SWITCH, severity warning, notified (R554). -/
def LINE_PROT_SWITCH : Nat := 0x1208
/-- LINK_KEX_FAIL, severity error, notified (R554). -/
def LINK_KEX_FAIL : Nat := 0x1301
/-- TIME_JUMP_REFUSED, severity warning, notified (R554). -/
def TIME_JUMP_REFUSED : Nat := 0x1501
/-- TIME_JUMP_ARMED, severity warning, notified (R554). -/
def TIME_JUMP_ARMED : Nat := 0x1502
/-- TIME_STEPPED, severity notice (R554). -/
def TIME_STEPPED : Nat := 0x1503
/-- FLOOR_RAISED, severity notice (R554). -/
def FLOOR_RAISED : Nat := 0x1601
/-- PACE_FAIL, severity error, notified (R554). -/
def PACE_FAIL : Nat := 0x1602
/-- RAIL_FAULT, severity critical, notified (R554). -/
def RAIL_FAULT : Nat := 0x1603
/-- CAL_FAIL, severity warning (R554). -/
def CAL_FAIL : Nat := 0x1604
/-- THROTTLE_ON, severity notice, notified (R554). -/
def THROTTLE_ON : Nat := 0x1605
/-- THROTTLE_OFF, severity info, notified (R554). -/
def THROTTLE_OFF : Nat := 0x1606
/-- CAP_UNREACHABLE, severity warning, notified (R554). -/
def CAP_UNREACHABLE : Nat := 0x1607
/-- THERMAL_LIMIT, severity warning (R554). -/
def THERMAL_LIMIT : Nat := 0x1608
/-- THERMAL_CLEAR, severity notice (R554). -/
def THERMAL_CLEAR : Nat := 0x1609
/-- THERMAL_CRITICAL, severity critical, notified (R554). -/
def THERMAL_CRITICAL : Nat := 0x160A
/-- OE_HOT, severity warning (R554). -/
def OE_HOT : Nat := 0x160B
/-- OE_TRIP, severity error (R554). -/
def OE_TRIP : Nat := 0x160C
/-- HBM_HOT, severity warning (R554). -/
def HBM_HOT : Nat := 0x160D
/-- DIMM_HOT, severity warning (R554). -/
def DIMM_HOT : Nat := 0x160E
/-- ALARM, severity info, notified (R554). -/
def ALARM : Nat := 0x160F
/-- EVR_CLEARED, severity notice (R554). -/
def EVR_CLEARED : Nat := 0x1701
/-- JOB_RESTART, severity error, notified (R554). -/
def JOB_RESTART : Nat := 0x1901
/-- JOB_RESTART_DONE, severity notice, notified (R554). -/
def JOB_RESTART_DONE : Nat := 0x1902
/-- FLT_HOLD, severity error, notified (R554). -/
def FLT_HOLD : Nat := 0x1903
/-- NQ_WORD_LOST, severity error, notified (R554). -/
def NQ_WORD_LOST : Nat := 0xFFFF

/-- Rows 0 to 23 of the table of R554: code, severity, delivered as a notification. -/
def table0 : List (Nat × Nat × Bool) := [
  (0x0001, 0, true),
  (0x0002, 0, false),
  (0x0003, 4, false),
  (0x0004, 0, true),
  (0x0005, 2, false),
  (0x0006, 2, false),
  (0x0007, 3, true),
  (0x0008, 4, true),
  (0x0009, 3, false),
  (0x000A, 2, false),
  (0x000B, 3, false),
  (0x000C, 1, false),
  (0x0101, 3, true),
  (0x0201, 2, true),
  (0x0202, 1, true),
  (0x0203, 3, true),
  (0x0204, 3, true),
  (0x0301, 2, true),
  (0x0401, 1, false),
  (0x0402, 1, true),
  (0x0403, 1, true),
  (0x0404, 3, true),
  (0x0405, 3, true),
  (0x0406, 2, true)]

/-- Rows 24 to 47 of the table of R554: code, severity, delivered as a notification. -/
def table1 : List (Nat × Nat × Bool) := [
  (0x0501, 3, true),
  (0x0601, 3, false),
  (0x0701, 2, true),
  (0x0901, 3, true),
  (0x0902, 2, true),
  (0x0C01, 2, true),
  (0x0C02, 2, true),
  (0x0C03, 2, true),
  (0x0C04, 0, true),
  (0x0E01, 3, false),
  (0x0E02, 2, false),
  (0x0F01, 2, true),
  (0x0F02, 3, true),
  (0x0F03, 2, false),
  (0x1001, 2, false),
  (0x1002, 3, false),
  (0x1003, 3, true),
  (0x1004, 2, true),
  (0x1005, 3, false),
  (0x1006, 2, true),
  (0x1007, 3, true),
  (0x1101, 3, true),
  (0x1201, 3, true),
  (0x1202, 3, true)]

/-- Rows 48 to 71 of the table of R554: code, severity, delivered as a notification. -/
def table2 : List (Nat × Nat × Bool) := [
  (0x1203, 1, true),
  (0x1204, 2, true),
  (0x1205, 3, true),
  (0x1206, 3, true),
  (0x1207, 1, true),
  (0x1208, 2, true),
  (0x1301, 3, true),
  (0x1501, 2, true),
  (0x1502, 2, true),
  (0x1503, 1, false),
  (0x1601, 1, false),
  (0x1602, 3, true),
  (0x1603, 4, true),
  (0x1604, 2, false),
  (0x1605, 1, true),
  (0x1606, 0, true),
  (0x1607, 2, true),
  (0x1608, 2, false),
  (0x1609, 1, false),
  (0x160A, 4, true),
  (0x160B, 2, false),
  (0x160C, 3, false),
  (0x160D, 2, false),
  (0x160E, 2, false)]

/-- Rows 72 to 77 of the table of R554: code, severity, delivered as a notification. -/
def table3 : List (Nat × Nat × Bool) := [
  (0x160F, 0, true),
  (0x1701, 1, false),
  (0x1901, 3, true),
  (0x1902, 1, true),
  (0x1903, 3, true),
  (0xFFFF, 3, true)]

/-- The table of R554: code, severity, delivered as a notification. -/
def table : List (Nat × Nat × Bool) := table0 ++ table1 ++ table2 ++ table3


/-- The severity of a code: 0 info to 4 critical (R554). -/
def severity (code : Nat) : Nat :=
  match table.find? fun r => r.1 == code with
  | some (_, sev, _) => sev
  | none => 0

/-- The code is also posted as a notification (R554). -/
def notifies (code : Nat) : Bool :=
  match table.find? fun r => r.1 == code with
  | some (_, _, n) => n
  | none => false

end Ev

/-! ### Uptime and network time -/

/-- Whole ns in a number of ticks of the 1.25 GHz timing clock. -/
def nsOfTicks (n : Nat) : Nat := n * 4 / 5

/-- Nanoseconds since PORST_N deasserted: ticks of 0.8 ns. -/
def State.uptimeNs (s : State) : Nat := nsOfTicks s.time.ticks

/-- Network time in nanoseconds: SEC × 10⁹ + NS (R465). -/
def State.nowNs (s : State) : Nat := s.time.sec * 1000000000 + s.time.ns

/-- The comparison of network times (R465): `a` is earlier than `b` when their difference modulo 2⁶⁴, read as a signed
number, is negative. -/
def earlier (a b : Nat) : Bool := decide (toSigned 64 (ofSigned 64 ((a : Int) - (b : Int))) < 0)

/-- Network time `t` lies at or before the counter. -/
def State.reached (s : State) (t : Nat) : Bool := !earlier s.nowNs t

/-! ### Functions and MSI-X -/

/-- The function that owns a ring: the enabled virtual function whose partition holds it, else the PF (0) (R123). -/
def State.ringFn (s : State) (n : Nat) : Nat :=
  (s.hif.vfs.find? fun v =>
    let base := s.fld Reg.HIF_VF_RINGS_RING_BASE v
    decide (base ≤ n) && decide (n < base + s.fld Reg.HIF_VF_RINGS_RING_COUNT v)).getD 0

/-- A ring's number as its function sees it. -/
def State.localRing (s : State) (n : Nat) : Nat :=
  match s.ringFn n with
  | 0 => n
  | v => n - s.fld Reg.HIF_VF_RINGS_RING_BASE v

/-- The run-time state of a ring. -/
def State.ring (s : State) (n : Nat) : Ring := s.hif.rings.getD n {}

/-- The state with one ring replaced. -/
def State.setRing (s : State) (n : Nat) (r : Ring) : State :=
  { s with hif := { s.hif with rings := s.hif.rings.put n r } }

/-- The MSI-X table entry of a function's vector (R97). -/
def State.msixEntry (s : State) (fn vec : Nat) : MsixEntry := s.hif.msixTab.getD (fn, vec) {}

/-- Vectors of a function: 1,024 for the PF, 16 for a virtual function (R97). -/
def msixVectors (fn : Nat) : Nat := if fn = 0 then 1024 else 16

/-- An MSI-X message of a function: in D3hot it is withheld (R98); while its vector is masked it is pending (R97,
notes/assumptions/150.md). -/
def State.msix (s : State) (fn vec : Nat) : State :=
  let e := s.msixEntry fn vec
  if fn ∈ s.hif.d3hot then { s with hif := { s.hif with msixHeld := s.hif.msixHeld ++ [(fn, vec)] } }
  else if e.masked then { s with hif := { s.hif with msixPending := withElem s.hif.msixPending (fn, vec) } }
  else s.emit (.msix fn vec (e.addrLo.toNat + 2 ^ 32 * e.addrHi.toNat) e.data)

/-- A 32-bit write to an MSI-X table: entry by entry, message address low and high, message data, and the mask in bit 0 of
the fourth word. Clearing the mask of a pending vector sends its message. The pending-bit array ignores writes. -/
def State.msixWrite (s : State) (fn off : Nat) (w : Word) : State :=
  let vec := off / 16
  if off % 4 ≠ 0 ∨ msixVectors fn ≤ vec then s
  else
    let e := s.msixEntry fn vec
    let e1 := match off % 16 / 4 with
      | 0 => { e with addrLo := w }
      | 1 => { e with addrHi := w }
      | 2 => { e with data := w }
      | _ => { e with masked := bitAt w.toNat 0 }
    let s1 := { s with hif := { s.hif with msixTab := s.hif.msixTab.put (fn, vec) e1 } }
    if !e1.masked && s1.hif.msixPending.contains (fn, vec) then
      { s1 with hif := { s1.hif with msixPending := without s1.hif.msixPending (fn, vec) } }.msix fn vec
    else s1

/-- A 32-bit read of the MSI-X table or, from 0x8000 on, of the pending-bit array. -/
def State.msixRead (s : State) (fn off : Nat) : Nat :=
  if 0x8000 ≤ off then
    sumOf ((List.range 32).map fun i =>
      bit (s.hif.msixPending.contains (fn, (off - 0x8000) / 4 * 32 + i)) * 2 ^ i)
  else if msixVectors fn ≤ off / 16 then 0
  else
    let e := s.msixEntry fn (off / 16)
    match off % 16 / 4 with
    | 0 => e.addrLo.toNat
    | 1 => e.addrHi.toNat
    | 2 => e.data.toNat
    | _ => bit e.masked

/-! ### Notification queues -/

/-- Code of the kind NQ, and the sizes of a bank (Notification queues). -/
def kindNQ : Nat := 9
def bankSize : Nat := 512

/-- A notification meant for NQ ring `n` (R118, R120, R121): it takes the next SEQ; with the filling bank full it is
dropped and counted; arriving while both banks are empty it sends the vector once. -/
def State.postTo (s : State) (n code inst detail : Nat) : State :=
  let r := s.ring n
  let e : Notif := ⟨code, Ev.severity code, code / 256, inst, r.nqSeq % 65536, detail⟩
  if bankSize ≤ r.nqFill.length then
    s.setRing n { r with nqSeq := r.nqSeq + 1, nqDropped := satAdd 0xFFFF r.nqDropped 1 }
  else
    let empty := r.nqFill.isEmpty && r.nqDrain.isEmpty
    let s1 := s.setRing n { r with
      nqSeq := r.nqSeq + 1, nqFill := r.nqFill ++ [e], nqSignalled := r.nqSignalled || empty }
    if empty && !r.nqSignalled then s1.msix (s.ringFn n) (s.fld Reg.HIF_RING_LINK_VECTOR n) else s1

/-- The enabled NQ rings of a function. -/
def State.nqRings (s : State) (fn : Nat) : List Nat :=
  (s.hif.rings.filter fun p => p.2.enabled && p.2.kind == kindNQ && s.ringFn p.1 == fn).map (·.1)

/-- A notification to a function's NQ rings (R119): those whose MIN_SEV is at or below its severity. -/
def State.post (s : State) (fn code inst detail : Nat) : State :=
  ((s.nqRings fn).filter fun n => decide (s.fld Reg.HIF_RING_LINK_MIN_SEV n ≤ Ev.severity code)).foldl
    (fun s n => s.postTo n code inst detail) s

/-- READY goes to the PF NQ ring enabled earliest, whatever its MIN_SEV, or waits for the next one enabled (R119). -/
def State.postReady (s : State) (detail : Nat) : State :=
  match s.nqRings 0 with
  | [] => { s with hif := { s.hif with readyWaits := some detail } }
  | n :: ns =>
    let first := ns.foldl (fun a b => if (s.ring b).enabledAt < (s.ring a).enabledAt then b else a) n
    s.postTo first Ev.READY 0 detail

/-! ### The event record -/

/-- Bytes of a record: the header, eight bytes of detail and what follows them, the CRC, padded to 8 (R510). A SUMMARY
record has no detail. -/
def EvRecord.len (r : EvRecord) : Nat :=
  if r.summary then 40
  else min 1024 ((36 + 8 + r.more.length + (Config.eventDiag r.seq).length + 7) / 8 * 8)

/-- The on-die ring after appending, with the oldest records overwritten while it holds more than 1 MiB (R510). At most
1,024 records of at most 1,024 bytes always fit. -/
def evictOld : Nat → List EvRecord → List EvRecord × List EvRecord
  | 0, l => ([], l)
  | n + 1, l =>
    if l.length ≤ 1024 then ([], l)
    else if sumOf (l.map EvRecord.len) ≤ 0x100000 then ([], l)
    else match l with
      | [] => ([], [])
      | r :: t =>
        let (gone, kept) := evictOld n t
        (r :: gone, kept)

/-- The persisted records found at power-up stand in the on-die ring ahead of the new ones, with their SEQ (R513). -/
def State.flashToRing (s : State) : State :=
  let l := s.evr.flashRecs ++ s.evr.ring
  { s with evr := { s.evr with ring := (evictOld (l.length + 1) l).2 } }

/-- The record joins the alert list when its severity is at or above ALERT_SEV (R506). -/
def State.alertJoin (s : State) (r : EvRecord) : State :=
  if s.mgmt.alertSev ≤ r.severity then
    let wasEmpty := s.mgmt.alerts.isEmpty
    let l := s.mgmt.alerts ++ [(r.code, r.seq)]
    let s1 := { s with mgmt := { s.mgmt with alerts := l.drop (l.length - 64) } }
    if wasEmpty && s.mgmt.ibiEnabled && s.mgmt.i3cDyn.isSome && s.railOk 1 then s1.emit (.ibi r.code) else s1
  else s

/-- ALERT_N is asserted: an alert is unacknowledged (R506), no management core acts (R503), or VIN_CORE has faulted
(R497). -/
def State.alertN (s : State) : Bool :=
  !s.mgmt.alerts.isEmpty || s.mgmt.down || (5 ∈ s.boot.railFaults)

/-- The record prints one console line when its severity is at or above CON_SEV (R508). The manual fixes no text, so
the line's length is an open value; a line that does not fit in 16 KiB is dropped and counted. -/
def State.consoleLine (s : State) (r : EvRecord) : State :=
  if s.fld Reg.MGT_CON_CFG_CON_SEV ≤ r.severity then
    let (n, s1) := s.fresh
    if sumOf s.mgmt.console + n ≤ 16384 then
      { s1 with mgmt := { s1.mgmt with console := s1.mgmt.console ++ [n] } }
    else s1.bump Reg.MGT_CON_CFG_LINES_DROPPED
  else s

/-- The code's records are persisted (R513). -/
def persists (code : Nat) : Bool :=
  Ev.severity code == 4 || code == Ev.EVR_CLEARED || code == Ev.TEST_ACCESS

/-- The record enters the 64 KiB persist buffer with PERSISTED set, or is counted PERSIST_LOST (R513). -/
def State.persist (s : State) (r : EvRecord) : EvRecord × State :=
  if persists r.code then
    if sumOf (s.evr.persistQ.map EvRecord.len) + r.len ≤ 65536 then
      let r := { r with persisted := true }
      (r, { s with evr := { s.evr with persistQ := s.evr.persistQ ++ [r] } })
    else (r, s.bump Reg.EVR_STATUS_PERSIST_LOST)
  else (r, s)

/-- A record that carries its time stamp is appended (R510, R511): it takes the next SEQ, is persisted, joins the alert
list and the console, and the oldest records give way. -/
def State.appendRecord (s : State) (r : EvRecord) : State :=
  let r := { r with seq := s.evr.nextSeq, lateDetail := s.mgmt.down }
  let (r, s1) := s.persist r
  let (gone, kept) := evictOld (s1.evr.ring.length + 1) (s1.evr.ring ++ [r])
  let lost := (gone.filter fun g => decide (s1.evr.mirrorSeq ≤ g.seq)).length
  let s2 := { s1 with evr := { s1.evr with
    ring := kept
    nextSeq := r.seq + 1
    mirrorSeq := if lost = 0 then s1.evr.mirrorSeq else maxOf (gone.map EvRecord.seq) + 1 } }
  let s3 := if lost = 0 then s2 else s2.bump Reg.EVR_STATUS_LOST_UNMIRRORED 0 lost
  (s3.alertJoin r).consoleLine r

/-- The bucket of a code at the present uptime (R512): full when it has never been used, refilled continuously at PER_S
tokens per second, and never above BURST. Tokens count in units of 10⁻⁹. -/
def State.bucket (s : State) (code : Nat) : EvBucket :=
  let i := 4 * Ev.severity code
  let burst := s.fld { Reg.EVR_RATE_CFG_BURST with off := i }
  let perS := s.fld { Reg.EVR_RATE_CFG_PER_S with off := i }
  match s.evr.buckets.find code with
  | none => ⟨burst * 1000000000, s.uptimeNs, 0⟩
  | some b =>
    { b with
      tokens := min (burst * 1000000000) (b.tokens + perS * (s.uptimeNs - b.at_))
      at_ := s.uptimeNs }

/-- The state with the bucket of a code replaced. -/
def State.setBucket (s : State) (code : Nat) (b : EvBucket) : State :=
  { s with evr := { s.evr with buckets := s.evr.buckets.put code b } }

/-- The record of an event at the present network time. -/
def State.eventNow (s : State) (code inst detail : Nat) (more : Bytes := []) : EvRecord :=
  { code := code, severity := Ev.severity code, blk := code / 256, instance_ := inst, seq := 0, sec := s.time.sec
    ns := s.time.ns, detail := detail, more := more }

/-- An event is recorded subject to its rate limit (R512): errors and critical records always; others take a token, or
are suppressed and counted. -/
def State.recordEvent (s : State) (e : EvRecord) : State :=
  let code := e.code
  let b := s.bucket code
  let r := { e with suppressed := b.suppressed }
  if 3 ≤ Ev.severity code then s.appendRecord r
  else if 1000000000 ≤ b.tokens then
    (s.setBucket code { b with tokens := b.tokens - 1000000000, suppressed := 0 }).appendRecord r
  else
    (s.setBucket code { b with suppressed := satAdd 65535 b.suppressed 1 }).bump Reg.EVR_STATUS_SUPPRESSED

/-- An event is recorded at the present network time. -/
def State.record (s : State) (code inst detail : Nat) (more : Bytes := []) : State :=
  s.recordEvent (s.eventNow code inst detail more)

/-- The management core is being handed over (`MGT.UPDATE_STATUS.STATE` 5, R500). -/
def State.handingOver (s : State) : Bool := s.fld Reg.MGT_UPDATE_STATUS_STATE == 5

/-- The record of a fault decision: at once, or by the new core when a handover is under way (R31). -/
def State.recordDecision (s : State) (code inst detail : Nat) (more : Bytes := []) : State :=
  if s.handingOver then
    { s with mgmt := { s.mgmt with deferred := s.mgmt.deferred ++ [s.eventNow code inst detail more] } }
  else s.record code inst detail more

/-- An event a fault decision causes: its notification is posted at once, its record written as `recordDecision` says (R31). -/
def State.raiseDecision (s : State) (code inst detail : Nat) : State :=
  (s.recordDecision code inst detail).post 0 code inst detail

/-- The management core that acts after a handover writes the records that waited for it, with their own time stamps
(R31). -/
def State.writeDeferred (s : State) : State :=
  s.mgmt.deferred.foldl (fun s e => s.recordEvent e) { s with mgmt := { s.mgmt with deferred := [] } }

/-- An event or notification code is raised (R554): recorded subject to R512, and posted to the function's NQ rings
when the table says so; `fn` 0 is device-wide (R119). -/
def State.raise (s : State) (code inst detail : Nat) (fn : Nat := 0) (more : Bytes := []) : State :=
  let s1 := s.record code inst detail more
  if code = Ev.READY then s1.postReady detail
  else if Ev.notifies code then s1.post fn code inst detail else s1

/-! ### Plan counters (R316, R320) -/

/-- A counter of a plan slot: 0 OVERRUNS, 1 LATE_HEATS, 2 RIG_ABSENT, 3 ANNOUNCED, 4 ADOPTED, 5 SET_MISMATCH,
6 START_LATE. -/
def State.planCount (s : State) (slot c : Nat) : State := s.bump Reg.PLN_SLOT_STAT_VALUE (slot + 16 * c)

/-- A delay touches a plan's reservation (R316). -/
def State.planOverrun (s : State) (slot : Nat) : State := s.planCount slot 0

/-! ### Health events (R531) -/

/-- A subject's health score. -/
def State.healthOf (s : State) (k : Subject) : Health := s.flt.health.getD k {}

/-- The state with a subject's health score replaced. -/
def State.setHealth (s : State) (k : Subject) (h : Health) : State :=
  { s with flt := { s.flt with health := s.flt.health.put k h } }

/-- Events of a port that is fenced add nothing. -/
def State.healthCounts (s : State) (k : Subject) : Bool :=
  match k with
  | .port p => !(s.flt.fenced.contains p)
  | _ => true

/-- An event of a subject adds its weight to the present millisecond; that of a fenced port counts for the probation score
of the device it leads to (R534). -/
def State.healthAdd (s : State) (k : Subject) (w : Nat) : State :=
  if s.healthCounts k then s.setHealth k { s.healthOf k with adds := (s.healthOf k).adds + w }
  else match k with
    | .port p => { s with flt := { s.flt with fencedAdds := s.flt.fencedAdds.put p (s.flt.fencedAdds.getD p 0 + w) } }
    | _ => s

/-- A link-level replay of a port: 16 of them weigh 1. -/
def State.healthReplay (s : State) (p : Nat) : State :=
  let h := s.healthOf (.port p)
  (s.setHealth (.port p) { h with replays := (h.replays + 1) % 16 }).healthAdd (.port p) ((h.replays + 1) / 16)

/-- Uncorrectable code words of a port: 256 of them weigh 1. -/
def State.healthWords (s : State) (p n : Nat) : State :=
  if n = 0 then s
  else
    let h := s.healthOf (.port p)
    (s.setHealth (.port p) { h with words := (h.words + n) % 256 }).healthAdd (.port p) ((h.words + n) / 256)

/-- Pipeline overruns of a port under PACE_FAIL: 1,024 of them weigh 1. -/
def State.healthOverruns (s : State) (p n : Nat) : State :=
  if n = 0 then s
  else
    let h := s.healthOf (.port p)
    (s.setHealth (.port p) { h with overruns := (h.overruns + n) % 1024 }).healthAdd (.port p) ((h.overruns + n) / 1024)

end Sys2Proof.Machine
end

