-- ==== Sys2Proof/Machine/Operands.lean ====
section
/-!
DEFINITION. The operand forms of the host interface: the fields of a 64-byte descriptor (chapter Host Interface), the
completion entry, and the entries of the operation table that carry them.
-/

namespace Sys2Proof.Machine

/-! ### Descriptor kinds and header -/

def kindRIG : Nat := 1
def kindXFER : Nat := 2
def kindCOLL : Nat := 3
def kindOUTER : Nat := 4
def kindMGMT : Nat := 5
def kindBYPASS : Nat := 6
def kindCQ : Nat := 8
def kindEVM : Nat := 10

/-- The ring kinds of the ring table. -/
def kindKnown (k : Nat) : Bool := (1 ≤ k && k ≤ 6) || (8 ≤ k && k ≤ 10)

/-- Kinds 0x1 to 0x6 are submission rings. -/
def isSubmission (k : Nat) : Bool := 1 ≤ k && k ≤ 6

def dKind (d : Bytes) : Nat := getLE d 0x00 1
def dOp (d : Bytes) : Nat := getLE d 0x01 1
def dFlags (d : Bytes) : Nat := getLE d 0x02 2
def dFence (d : Bytes) : Bool := bitAt (dFlags d) 0
def dIrq (d : Bytes) : Bool := bitAt (dFlags d) 1
def dSilent (d : Bytes) : Bool := bitAt (dFlags d) 2
def dTag (d : Bytes) : Nat := getLE d 0x04 4
/-- DOMAIN [11:0], local to the function's partition. -/
def dDomain (d : Bytes) : Nat := getLE d 0x08 2 % 4096

/-! ### Bodies -/

def xSrcAddr (d : Bytes) : Nat := getLE d 0x10 8
def xDstAddr (d : Bytes) : Nat := getLE d 0x18 8
def xLength (d : Bytes) : Nat := getLE d 0x20 8
def xSrcSpace (d : Bytes) : Nat := getLE d 0x28 1
def xDstSpace (d : Bytes) : Nat := getLE d 0x29 1
def xClass (d : Bytes) : Nat := getLE d 0x2A 1
def xProfile (d : Bytes) : Nat := getLE d 0x2B 1
def xTableId (d : Bytes) : Nat := getLE d 0x2C 1

def rBundleAddr (d : Bytes) : Nat := getLE d 0x10 8
def rBundleLen (d : Bytes) : Nat := getLE d 0x18 4
def rCatchKind (d : Bytes) : Nat := getLE d 0x1C 1
def rCatchSec (d : Bytes) : Nat := getLE d 0x20 8
def rCatchNs (d : Bytes) : Nat := getLE d 0x28 4
def rRigId (d : Bytes) : Nat := getLE d 0x2C 4

def mReq (d : Bytes) : Nat := getLE d 0x10 2
def mParam0 (d : Bytes) : Nat := getLE d 0x14 4
def mAddr (d : Bytes) : Nat := getLE d 0x18 8
def mLen (d : Bytes) : Nat := getLE d 0x20 4
/-- Byte offset `o` of PARAMS (0x24, 28 bytes), `n` bytes. -/
def mParams (d : Bytes) (o n : Nat) : Nat := getLE d (0x24 + o) n

def cChunkCount (d : Bytes) : Nat := getLE d 0x10 4
def cGroup (d : Bytes) : Nat := getLE d 0x14 2 % 2 ^ 14
def cEntries (d : Bytes) : Bool := bitAt (getLE d 0x16 1) 0
def cOpSeq (d : Bytes) : Nat := getLE d 0x18 4
def cSpec (d : Bytes) : Nat := getLE d 0x1C 4
def cParam (d : Bytes) : Nat := getLE d 0x20 4
def cWindow (d : Bytes) : Nat := getLE d 0x24 2
def cChunkCq (d : Bytes) : Nat := getLE d 0x26 2 % 4096
def cLog (d : Bytes) : Nat := getLE d 0x28 8
def cSpill (d : Bytes) : Nat := getLE d 0x30 8

def bLeafA (d : Bytes) : Nat := getLE d 0x10 2
def bLeafB (d : Bytes) : Nat := getLE d 0x12 2
def bAction (d : Bytes) : Nat := getLE d 0x14 1
def bEffectSec (d : Bytes) : Nat := getLE d 0x18 8
def bEffectNs (d : Bytes) : Nat := getLE d 0x20 4

/-! ### Completion status codes (R117) -/

def stOK : Nat := 0x00
def stZERO_LEN : Nat := 0x01
def stBAD_KIND : Nat := 0x02
def stBAD_FIELD : Nat := 0x03
def stDOMAIN_DENIED : Nat := 0x04
def stNOT_PERMITTED : Nat := 0x05
def stTRANSLATION_FAULT : Nat := 0x06
def stMEM_UNCORRECTABLE : Nat := 0x07
def stHOST_ABORT : Nat := 0x08
def stABORTED : Nat := 0x09
def stJOB_RESTARTED : Nat := 0x0A
def stRIG_INVALID : Nat := 0x10
def stRIG_CONFLICT : Nat := 0x11
def stRIG_FULL : Nat := 0x12
def stRIG_CATCH_MISSED : Nat := 0x13
def stUPDATE_BUSY : Nat := 0x20
def stUPDATE_VERIFY_FAIL : Nat := 0x21
def stUPDATE_ROLLBACK : Nat := 0x22
def stUPDATE_GEN_SKIP : Nat := 0x23
def stUPDATE_ABORTED : Nat := 0x24
def stUPDATE_COX_FAIL : Nat := 0x25
def stUPDATE_FLASH_FAIL : Nat := 0x26
def stUPDATE_MGMT_FAIL : Nat := 0x27

def stCOLL_BAD_GROUP : Nat := 0x30
def stCOLL_BAD_OP : Nat := 0x31
def stCOLL_BAD_SPEC : Nat := 0x32
def stCOLL_SEQ_USED : Nat := 0x33
def stCOLL_SEQ_RANGE : Nat := 0x34
def stCOLL_NO_BENCH : Nat := 0x35
def stCOLL_MEMBER_FAILED : Nat := 0x36
def stCOLL_CANCELLED : Nat := 0x37
def stCOLL_RESULT_LOST : Nat := 0x38
def stCOLL_SPILL_FAULT : Nat := 0x39

/-! ### The operation table (R114, R251) -/

/-- The operation at a key. -/
def State.op? (s : State) (k : OpKey) : Option Op := s.hif.ops.find k

/-- The state with an operation entered or replaced. -/
def State.setOp (s : State) (o : Op) : State := { s with hif := { s.hif with ops := s.hif.ops.put o.key o } }

/-- The state without an operation: its entry is free (R251). -/
def State.freeOp (s : State) (k : OpKey) : State := { s with hif := { s.hif with ops := s.hif.ops.del k } }

/-- An operation of this kind has such an OP code: XFER 0–4, COLL any (its own chapter judges it), OUTER 0–3, and 0 for
the kinds whose chapters define no OP (notes/assumptions/17.md). -/
def opKnown (kind op : Nat) : Bool :=
  if kind = kindXFER then op ≤ 4
  else if kind = kindCOLL then true
  else if kind = kindOUTER then op ≤ 3
  else op == 0

/-- A request code of the tables of management requests. -/
def reqKnown (req : Nat) : Bool := 0x0001 ≤ req && req ≤ 0x0011

/-! ### Domains (R123, R134) -/

/-- The global translation domain behind a function's domain number, when it lies in the function's partition. -/
def State.domainOf (s : State) (fn d : Nat) : Option Nat :=
  if fn = 0 then (if d < 4096 then some d else none)
  else if d < s.fld Reg.HIF_VF_DOMAINS_DOMAIN_COUNT fn then some (s.fld Reg.HIF_VF_DOMAINS_DOMAIN_BASE fn + d)
  else none

/-- A translation domain is enabled. -/
def State.domainOn (s : State) (dom : Nat) : Bool := s.flag Reg.MMU_DOM_CFG_ENABLE dom

/-- A function-local domain of a descriptor is not enabled (R134). -/
def State.domainDark (s : State) (fn : Nat) (d : Bytes) : Bool :=
  match s.domainOf fn (dDomain d) with
  | some x => !s.domainOn x
  | none => false

/-- The operation that a descriptor read from a slot becomes (R114, R115, R117); none is a PCIe error. -/
def State.enterOp (s : State) (k : OpKey) (read : Option Bytes) : State :=
  match read with
  | none => s.setOp { key := k, fn := s.ringFn k.ring, desc := [], phase := .done { status := stHOST_ABORT } }
  | some b =>
    let d := sliceB b 0 64
    let bad := dKind d != (s.ring k.ring).kind || !opKnown (s.ring k.ring).kind (dOp d)
    s.setOp
      { key := k, fn := s.ringFn k.ring, desc := d, dark := s.domainDark (s.ringFn k.ring) d,
        phase := if bad then .done { status := stBAD_KIND, tag := dTag d }
          else if dKind d = kindCOLL ∧ 6 < dOp d then .done { status := stCOLL_BAD_OP, tag := dTag d }
          else if dKind d = kindMGMT ∧ reqKnown (mReq d) = false then .done { status := stBAD_FIELD, tag := dTag d }
          else .taken }

/-- An operation leaves the table (R251). A descriptor that was read from its slot again meanwhile takes its place
(R106). -/
def State.leaveOp (s : State) (k : OpKey) : State :=
  let s1 := s.freeOp k
  let r := s1.ring k.ring
  match r.again.find? fun x => x.1 == k.slot with
  | none => s1
  | some x =>
    (s1.setRing k.ring { r with again := r.again.erase x }).enterOp k (if x.2.isEmpty then none else some x.2)

/-- The operation ends: its completion waits for its turn in ring order (R111). An operation whose ring has forgotten it
(R99) leaves the table. -/
def State.endOp (s : State) (k : OpKey) (c : Completion) : State :=
  match s.op? k with
  | none => s
  | some o =>
    if k.slot ∈ (s.ring k.ring).taken ∧ o.lost = false then
      s.setOp { o with phase := .done { c with tag := dTag o.desc }, hold := .none }
    else s.leaveOp k

/-- The operation ends with a status, the segments it has committed, and EXT. -/
def State.finish (s : State) (k : OpKey) (status : Nat) (ext : Nat := 0) (value : Nat := 0) : State :=
  match s.op? k with
  | none => s
  | some o => s.endOp k { status := status, ext := ext, value := value, seg := o.seg }

/-- Ring operations, the runs of run records among them, may hold 65,536 − PLAN_RESERVE entries of the operation table
(R251, R334). -/
def State.opTableRoom (s : State) : Nat :=
  65536 - s.fld Reg.TPT_OPTAB_CFG_PLAN_RESERVE - s.hif.ops.length -
    (s.tfb.ctxs.flatMap fun c => (c.2.cur.toList ++ c.2.queue).filter fun r => r.plan.isNone).length

/-- The operation has not been started. -/
def Op.waits (o : Op) : Bool :=
  match o.phase with
  | .taken => true
  | _ => false

/-- The operation has started and not ended. -/
def Op.runs (o : Op) : Bool :=
  match o.phase with
  | .running => true
  | _ => false

/-- The cox may start this descriptor now: it is taken, every earlier descriptor of its ring has been started, and with
FENCE every earlier descriptor has completed (R114). -/
def State.canStart (s : State) (o : Op) : Bool :=
  let before := (s.ring o.key.ring).taken.takeWhile (· ≠ o.key.slot)
  o.waits && (o.key.slot ∈ (s.ring o.key.ring).taken) &&
    (if dFence o.desc then before.isEmpty
     else before.all fun sl => match s.op? ⟨o.key.ring, sl⟩ with
       | some o' => !o'.waits
       | none => true)

/-- The cox that serves a queue set, if any (R21). -/
def State.servingCox (s : State) (qs : Nat) : Option Nat :=
  if s.coreOff then none
  else (List.range 9).find? fun n =>
    s.fld (Reg.DBQ_COX_STATUS_ROLE.nth n) == 1 && s.fld (Reg.DBQ_COX_STATUS_QUEUE_SET.nth n) == qs

/-- The device's own protocol generation (R536). -/
def State.ownGen (s : State) : Nat := s.fld Reg.MGT_READINESS_FW_GEN % 16

/-- Starting a descriptor of one kind and operation: when it may start, `body` runs on the operation marked running;
otherwise nothing changes (notes/assumptions/2.md). MGMT requests wait while no management core acts (R503). -/
def State.start (s : State) (k : OpKey) (want : Bytes → Bool) (body : Op → State → State) : State :=
  match s.op? k with
  | none => s
  | some o =>
    if want o.desc && s.canStart o && (s.servingCox (k.ring % 8)).isSome
        && !(dKind o.desc == kindMGMT && s.mgmt.down) then
      let o := { o with phase := .running }
      body o (s.setOp o)
    else s

/-- The descriptor is a MGMT request with this REQ. -/
def isMgmt (req : Nat) (d : Bytes) : Bool := dKind d == kindMGMT && mReq d == req

/-- A MGMT request that the PF alone may issue: a VF's completes with NOT_PERMITTED (the request table's last column). -/
def State.mgmtPF (s : State) (k : OpKey) (req : Nat) (body : Op → State → State) : State :=
  s.start k (isMgmt req) fun o s => if o.fn = 0 then body o s else s.finish k stNOT_PERMITTED

end Sys2Proof.Machine
end

