-- ==== Sys2Proof/Machine/Rings.lean ====
section
/-!
DEFINITION. Rings, doorbells, intakes, completions and notification pops (R98 to R122), and the host-interface rows of
the table but for commit.
-/

namespace Sys2Proof.Machine

/-! ### Ring configuration -/

def State.ringSize (s : State) (n : Nat) : Nat := s.fld Reg.HIF_RING_CFG_SIZE n
def State.ringBase (s : State) (n : Nat) : Nat :=
  s.fld Reg.HIF_RING_BASE_LO_BASE n + 2 ^ 32 * s.fld Reg.HIF_RING_BASE_HI_BASE n

/-- A ring number as its function numbers it, made global. -/
def State.globalRing (s : State) (fn n : Nat) : Nat := if fn = 0 then n else s.fld Reg.HIF_VF_RINGS_RING_BASE fn + n

/-- The completion ring that takes a submission ring's completions (`RING_LINK.CQ`). -/
def State.cqOf (s : State) (n : Nat) : Nat := s.globalRing (s.ringFn n) (s.fld Reg.HIF_RING_LINK_CQ n)

/-- The queue set of a ring (R101). -/
def queueSet (n : Nat) : Nat := n % 8

/-- The queue set is held (R24). -/
def State.qsHeld (s : State) (qs : Nat) : Bool := s.flag (Reg.DBQ_INTAKE_STATUS_HELD.nth qs)

/-- HELD of RING_STATUS: the queue set is held or the ring's function is in D3hot. -/
def State.ringHeld (s : State) (n : Nat) : Bool := s.qsHeld (queueSet n) || (s.ringFn n ∈ s.hif.d3hot)

/-- Entries waiting between two indices of a ring of `size` entries. -/
def ringUsed (size first next : Nat) : Nat := if size = 0 then 0 else (next + size - first) % size

/-- The ring a doorbell page of a function belongs to. -/
def State.pageRing (s : State) (v : View) (page : Nat) : Option Nat :=
  match v with
  | .host => if page < 4096 then some page else none
  | .mgmt => none
  | .vf n => if n ∈ s.hif.vfs ∧ page < s.fld Reg.HIF_VF_RINGS_RING_COUNT n
      then some (s.fld Reg.HIF_VF_RINGS_RING_BASE n + page) else none

/-! ### Intake (R105 to R110) -/

def State.intake (s : State) (qs : Nat) : Intake := s.hif.intakes.getD qs {}
def State.setIntake (s : State) (qs : Nat) (i : Intake) : State :=
  { s with hif := { s.hif with intakes := s.hif.intakes.put qs i } }

/-- The priority a ring's intake words carry: MGMT rings always run as high. -/
def State.ringPrio (s : State) (n : Nat) : Nat :=
  if (s.ring n).kind = kindMGMT then 0 else s.fld Reg.HIF_RING_CFG_PRIORITY n

/-- A wake-up word for a ring enters the filling bank unless one waits there already (R107). -/
def State.wake (s : State) (n : Nat) : State :=
  let i := s.intake (queueSet n)
  if i.fill.any fun w => w.ring == n then s
  else s.setIntake (queueSet n) { i with fill := i.fill ++ [⟨n, s.ringPrio n⟩] }

/-- Whether a submission ring has descriptors to take. -/
def State.hasWork (s : State) (n : Nat) : Bool :=
  let r := s.ring n
  r.enabled && isSubmission r.kind && !r.fault && r.dev != r.host

/-- The rings the device has state for in a queue set. -/
def State.ringsOf (s : State) (qs : Nat) : List Nat :=
  (s.hif.rings.map (·.1)).filter fun n => queueSet n == qs

/-- A doorbell write (R104, R105, R107, R112). -/
def State.doorbell (s : State) (n value : Nat) : State :=
  let r := s.ring n
  let v := value % 65536
  if r.kind = kindNQ ∧ r.enabled then s
  else if !r.enabled then s.setRing n { r with dbDisabled := true }
  else if s.ringSize n ≤ v then s.setRing n { r with dbRange := true }
  else if v = r.host then s
  else
    let s1 := s.setRing n { r with host := v }
    if isSubmission r.kind then s1.wake n else s1

/-- The first word of the best priority of a bank: high first, arrival order within a priority (R108). -/
def bestWord : List IntakeWord → Option IntakeWord
  | [] => none
  | w :: ws => match bestWord ws with
    | some b => if b.prio < w.prio then some b else some w
    | none => some w

/-- A slot of ring `n` is taken with what was read from it (R114). While an earlier descriptor of the slot has not
completed (the slot was rewritten early, R106, or the ring enabled again, R104), the bytes as read wait for its end. -/
def State.takeSlot (s : State) (n slot : Nat) (read : Option Bytes) : State :=
  match s.op? ⟨n, slot⟩ with
  | none => s.enterOp ⟨n, slot⟩ read
  | some _ => s.setRing n { s.ring n with again := (s.ring n).again ++ [(slot, (read.map fun b => sliceB b 0 64).getD [])] }

/-- One descriptor is taken from ring `n` at DEV_INDEX (R105, R114, R115, R117). `read` is what the PCIe read of the
descriptor gave; none is a PCIe error, which stops the ring. -/
def State.takeOne (s : State) (n : Nat) (read : Option Bytes) : State :=
  let r := s.ring n
  let s1 := (s.setRing n { r with
    dev := (r.dev + 1) % s.ringSize n, taken := r.taken ++ [r.dev], fault := r.fault || read.isNone }).takeSlot n r.dev read
  if read.isSome then s1
  else s1.raise Ev.RING_FAULT (s.localRing n) (s.localRing n * 2 ^ 16 + r.dev * 2 ^ 32) (s.ringFn n)

/-- Up to `count` descriptors are taken from ring `n`, stopping when the ring faults or empties. -/
def State.takeMany (n : Nat) : Nat → List (Option Bytes) → State → State
  | 0, _, s => s
  | c + 1, reads, s =>
    if s.hasWork n && 0 < s.opTableRoom then
      State.takeMany n c reads.tail (s.takeOne n (reads.head?.getD none))
    else s

/-- A pop of a queue set's intake by the cox that serves it (R108 to R110). -/
def State.intakePop (s : State) (qs : Nat) (ecc : Ecc) (reads : List (Option Bytes)) : State :=
  if (s.servingCox qs).isNone || s.qsHeld qs then s
  else
    let i := s.intake qs
    let i := if i.drain.isEmpty && !i.fill.isEmpty
      then { i with drain := i.fill, fill := [], bank := 1 - i.bank } else i
    match bestWord i.drain with
    | none => s.setFlag (Reg.DBQ_INTAKE_STATUS_UNDERRUN.nth qs) 0 true
    | some w =>
      let s1 := s.setIntake qs { i with drain := i.drain.erase w, last := some w }
      match ecc with
      | .lost =>
        ((s1.ringsOf qs).filter s1.hasWork).foldl (fun s n => s.wake n)
          (s1.bump (Reg.DBQ_INTAKE_ECC_LOST.nth qs))
      | e =>
        let s2 := if e = .corrected then s1.bump (Reg.DBQ_INTAKE_ECC_CORRECTED.nth qs) else s1
        if s2.ringHeld w.ring then s2
        else
          let s3 := State.takeMany w.ring 32 reads s2
          if s3.hasWork w.ring then s3.wake w.ring else s3

/-! ### A takeover (R21) -/

/-- A cox that takes over a queue set resumes a ring at the descriptor after its completed-up-to index: a descriptor the
hung cox had taken and not started is read again, and one in flight keeps its operation (R114). Descriptors of a ring that
is disabled or stopped, or that were taken before it was enabled again, stay taken. -/
def State.resumeRing (s : State) (n : Nat) : State :=
  let r := s.ring n
  let keep := r.taken.takeWhile fun sl => match s.op? ⟨n, sl⟩ with
    | some o => !o.waits
    | none => false
  if !r.enabled || r.fault || !r.again.isEmpty || r.taken.head? != some r.completedUpTo || keep.length == r.taken.length
  then s
  else
    ((r.taken.drop keep.length).foldl (fun (s : State) sl => s.freeOp ⟨n, sl⟩) s).setRing n { r with
      taken := keep, dev := (r.completedUpTo + keep.length) % s.ringSize n }

/-- A cox takes over a queue set (R21): its rings resume, and those with work are woken. -/
def State.resumeSet (s : State) (qs : Nat) : State :=
  (s.ringsOf qs).foldl (fun (s : State) n =>
    let s1 := s.resumeRing n
    if s1.hasWork n then s1.wake n else s1) s

/-! ### Completions (R111 to R115) -/

/-- The 32 bytes of a completion entry. -/
def completionBytes (c : Completion) (ring slot timeNs : Nat) (phase : Bool) : Bytes :=
  bytesLE 4 c.tag ++ bytesLE 2 ring ++ bytesLE 2 slot ++ bytesLE 1 c.status ++ bytesLE 1 (bit c.zeroCount) ++
  bytesLE 2 c.ext ++ bytesLE 4 c.seg ++ bytesLE 8 c.value ++ bytesLE 4 timeNs ++ zeros 3 ++ bytesLE 1 (bit phase)

/-- What putting an entry into a completion ring does: none when the ring is not there to take it (disabled, stopped, or
its function in D3hot), the state that waits with CQ_FULL, or the state after the write, with its MSI-X message. -/
inductive CqPut where
  | waits
  | full (s : State)
  | written (s : State)

/-- An entry is put into completion ring `cq` (R112 to R115). `ok` is false when the PCIe write fails: the entry is lost,
the ring stops and RING_FAULT names it. -/
def State.putCq (s : State) (cq : Nat) (c : Completion) (subRing slot : Nat) (irq ok : Bool) : CqPut :=
  let r := s.ring cq
  let fn := s.ringFn cq
  let size := s.ringSize cq
  if !r.enabled || r.kind != kindCQ || r.fault || (fn ∈ s.hif.d3hot) then .waits
  else if (r.dev + 1) % size = r.host then .full (s.setRing cq { r with cqFull := true })
  else if !ok then
    .written ((s.setRing cq { r with fault := true }).raise Ev.RING_FAULT (s.localRing cq)
      (1 + s.localRing subRing * 2 ^ 16 + slot * 2 ^ 32) fn)
  else
    let wrap := r.dev + 1 = size
    let s1 := s.setRing cq { r with
      dev := if wrap then 0 else r.dev + 1, phase := if wrap then !r.phase else r.phase }
    let s2 := s1.emit (.hostWrite fn (s.ringBase cq + 32 * r.dev)
      (completionBytes c (s.localRing subRing) slot s.time.ns r.phase))
    .written (if irq then s2.msix fn (s.fld Reg.HIF_RING_LINK_VECTOR cq) else s2)

/-- The next slot of a ring to complete is one left by a disable: every slot taken before it has completed (R104). -/
def Ring.abortFirst (r : Ring) : Bool :=
  match r.aborted with
  | [] => false
  | a :: _ => a.2 == 0 || r.taken.isEmpty

/-- The completion of a taken slot whose work has ended, with IRQ and SILENT. -/
def State.takenCompletion (s : State) (n slot : Nat) : Option (Nat × Completion × Bool × Bool) :=
  match s.op? ⟨n, slot⟩ with
  | some o => match o.phase with
    | .done c => some (slot, c, dIrq o.desc, dSilent o.desc)
    | _ => none
  | none => none

/-- The completion of a slot left by a disable (R104), whose descriptor `desc` is read for its TAG. EXT is 0, also on a
RIG ring, since no rig came into being (notes/assumptions/151.md). -/
def abortedCompletion (slot : Nat) : Option Bytes → Nat × Completion × Bool × Bool
  | some d => (slot, { status := stABORTED, tag := dTag d }, dIrq d, false)
  | none => (slot, { status := stHOST_ABORT }, false, false)

/-- The next completion of a submission ring, in ring order (R111): the slots left by a disable stand before those taken
since. While the queue set is held, no completion is written for descriptors in the ring (R24). -/
def State.nextCompletion (s : State) (n : Nat) (desc : Option Bytes) : Option (Nat × Completion × Bool × Bool) :=
  let r := s.ring n
  if r.abortFirst then
    if s.qsHeld (queueSet n) then none else r.aborted.head?.map fun a => abortedCompletion a.1 desc
  else r.taken.head?.bind (s.takenCompletion n)

/-- The oldest slot of a submission ring leaves it: its completed-up-to index moves past it (R21), and its operation
leaves the table. -/
def State.retireSlot (s : State) (n slot : Nat) : State :=
  let r := s.ring n
  let next := (slot + 1) % s.ringSize n
  if r.abortFirst then s.setRing n { r with aborted := r.aborted.tail, completedUpTo := next }
  else (s.setRing n { r with
    taken := r.taken.tail, aborted := r.aborted.map fun a => (a.1, a.2 - 1), completedUpTo := next }).leaveOp ⟨n, slot⟩

/-- The next completion of a submission ring is written (R111, R115). For a completion ring's number, its oldest owed
chunk or run entry is written instead (R294). -/
def State.completionWrite (s : State) (n : Nat) (ok : Bool) (desc : Option Bytes) : State :=
  let r := s.ring n
  if r.kind = kindCQ then
    match r.owed with
    | [] => s
    | e :: rest =>
      match s.putCq n e.comp e.ring e.slot e.irq ok with
      | .waits => s
      | .full s1 => s1
      | .written s1 => s1.setRing n { s1.ring n with owed := rest }
  else
    match s.nextCompletion n desc with
    | none => s
    | some (slot, c, irq, silent) =>
      let s0 := if r.abortFirst && desc.isNone then
          (s.setRing n { r with fault := true }).raise Ev.RING_FAULT (s.localRing n)
            (s.localRing n * 2 ^ 16 + slot * 2 ^ 32) (s.ringFn n)
        else s
      if s.ringFn n ∈ s.hif.d3hot then s
      else if silent && c.status == stOK then s.retireSlot n slot
      else match s.putCq (s.cqOf n) c n slot irq ok with
        | .waits => s
        | .full s1 => s1
        | .written _ =>
          match s0.putCq (s0.cqOf n) c n slot irq ok with
          | .written s1 => s1.retireSlot n slot
          | _ => s

/-! ### Notification pops (R118, R120, R121) -/

/-- The first entry of the highest severity of a bank. -/
def bestNotif : List Notif → Option Notif
  | [] => none
  | e :: es => match bestNotif es with
    | some b => if e.severity < b.severity then some b else some e
    | none => some e

/-- Bits [63:0] of an entry as POP returns them. -/
def Notif.low (e : Notif) (stale : Bool) : Nat :=
  e.code + e.severity * 2 ^ 16 + bit stale * 2 ^ 19 + e.blk * 2 ^ 20 + e.instance_ * 2 ^ 32 + e.seq * 2 ^ 48

/-- A 64-bit read of POP of NQ ring `n`. -/
def State.nqPop (s : State) (v : View) (n : Nat) (ecc : Ecc) : State :=
  let r := s.ring n
  if r.kind != kindNQ then s.emit (.reply v 0)
  else
    let swap := r.nqDrain.isEmpty && !r.nqFill.isEmpty
    let drain := if swap then r.nqFill else r.nqDrain
    let fill := if swap then [] else r.nqFill
    match bestNotif drain with
    | none =>
      let s1 := s.setRing n { r with nqUnderrun := true, nqSignalled := false }
      match r.nqLast with
      | some e => s1.emit (.reply v (e.low true))
      | none => s1.emit (.reply v (2 ^ 19))
    | some e =>
      let e1 : Notif := if ecc = .lost
        then { code := Ev.NQ_WORD_LOST, severity := 3, blk := 1, instance_ := s.localRing n, seq := e.seq, detail := 0 }
        else e
      (s.setRing n { r with
        nqDrain := drain.erase e
        nqFill := fill
        nqLast := some e1
        popHi := e1.detail
        nqCorrected := if ecc = .corrected then satAdd 0xFFFF r.nqCorrected 1 else r.nqCorrected }).emit
        (.reply v (e1.low false))

/-- A write of CLR_COUNTS to NQ_STATUS; UNDERRUN is W1C in the same word. -/
def State.nqClear (s : State) (n w : Nat) : State :=
  let r := s.ring n
  if r.kind != kindNQ then s
  else s.setRing n { r with
    nqUnderrun := r.nqUnderrun && !bitAt w 12
    nqCorrected := if bitAt w 13 then 0 else r.nqCorrected
    nqDropped := if bitAt w 13 then 0 else r.nqDropped }

/-! ### The event-record mirror (R122) -/

/-- A record's bytes (R510). -/
def EvRecord.bytes (r : EvRecord) : Bytes :=
  let flags := bit r.persisted + 2 * bit r.summary + 4 * bit r.lateDetail
  let detail := if r.summary then [] else bytesLE 8 r.detail ++ r.more ++ Config.eventDiag r.seq
  let body := bytesLE 2 r.len ++ bytesLE 2 r.code ++ bytesLE 1 r.severity ++ bytesLE 1 r.blk ++
    bytesLE 2 r.instance_ ++ bytesLE 8 r.seq ++ bytesLE 8 r.sec ++ bytesLE 4 r.ns ++ bytesLE 2 flags ++
    bytesLE 2 r.suppressed ++ sliceB detail 0 (r.len - 36)
  body ++ bytesLE 4 (crc32c body)

/-- The enabled EVM ring of the PF. -/
def State.evmRing (s : State) : Option Nat :=
  (s.hif.rings.find? fun p => p.2.enabled && p.2.kind == kindEVM).map (·.1)

/-- The next record to mirror is copied into EVM slots once they have room (R122). -/
def State.evrMirror (s : State) : State :=
  match s.evmRing, s.evr.ring.find? fun r => decide (s.evr.mirrorSeq ≤ r.seq) with
  | some n, some rec =>
    let r := s.ring n
    let size := s.ringSize n
    let slots := (rec.len + 63) / 64
    if size - 1 - ringUsed size r.host r.dev < slots || (0 ∈ s.hif.d3hot) then s
    else
      let b := sliceB rec.bytes 0 (64 * slots)
      let s1 := (List.range slots).foldl (fun s i =>
        s.emit (.hostWrite 0 (s.ringBase n + 64 * ((r.dev + i) % size)) (sliceB b (64 * i) 64))) s
      let s2 := s1.setRing n { r with dev := (r.dev + slots) % size }
      { s2 with evr := { s2.evr with mirrorSeq := rec.seq + 1 } }.msix 0 (s.fld Reg.HIF_RING_LINK_VECTOR n)
  | _, _ => s

/-! ### Functions (R98, R99, R123) -/

/-- A function enters D3hot. -/
def State.toD3hot (s : State) (fn : Nat) : State :=
  { s with hif := { s.hif with d3hot := withElem s.hif.d3hot fn } }

/-- A function returns to D0: its withheld messages are sent and its rings with work are woken. -/
def State.toD0 (s : State) (fn : Nat) : State :=
  let mine := s.hif.msixHeld.filter fun m => m.1 == fn
  let s1 := { s with hif := { s.hif with
    d3hot := without s.hif.d3hot fn, msixHeld := s.hif.msixHeld.filter fun m => m.1 != fn } }
  let s2 := mine.foldl (fun s m => s.msix m.1 m.2) s1
  ((s2.hif.rings.map (·.1)).filter fun n => s2.ringFn n == fn && s2.hasWork n).foldl (fun s n => s.wake n) s2

/-- A ring as a function-level reset leaves it: disabled, with nothing taken or owed (R99). -/
def Ring.afterFlr (r : Ring) : Ring :=
  { r with enabled := false, taken := [], aborted := [], again := [], owed := [], nqFill := [], nqDrain := [] }

/-- What a function-level reset makes of an operation: one that runs stops at its next segment boundary. -/
def Op.afterFlr (o : Op) : Option Op :=
  if o.runs then some { o with endWith := some stABORTED, lost := true } else none

/-- A function-level reset of VF `v` (R99): its rings are disabled, descriptors not taken are abandoned, and its
operations in the data path stop at their next segment boundary. -/
def State.vfFlr (s : State) (v : Nat) : State :=
  if v = 0 ∨ ¬ v ∈ s.hif.vfs then s
  else
    let mine := fun n => s.ringFn n == v
    { s with hif := { s.hif with
      rings := s.hif.rings.map fun p => if mine p.1 then (p.1, p.2.afterFlr) else p
      ops := s.hif.ops.filterMap fun p => if mine p.1.ring then p.2.afterFlr.map fun o => (p.1, o) else some p
      intakes := s.hif.intakes.map fun p => (p.1, { p.2 with
        fill := p.2.fill.filter fun w => !mine w.ring, drain := p.2.drain.filter fun w => !mine w.ring }) } }

/-! ### Meanings -/

/-- DOORBELL (R105). -/
def execDoorbell (v : View) (page : Nat) (w : Word) (s : State) : Host.Outcome State Fault Refusal :=
  .next (s.inCore fun s =>
    match s.pageRing v page with
      | some n => s.doorbell n w.toNat
      | none => s)

/-- INTAKE_POP (R108). -/
def execIntakePop (qs : Nat) (ecc : Ecc) (reads : List (Option Bytes)) (s : State) :
    Host.Outcome State Fault Refusal := .next (s.inCore fun s => s.intakePop qs ecc reads)

/-- COMPLETION_WRITE (R111). -/
def execCompletionWrite (ring : Nat) (ok : Bool) (desc : Option Bytes) (s : State) :
    Host.Outcome State Fault Refusal := .next (s.inCore fun s => s.completionWrite ring ok desc)

/-- FUNCTION_D3HOT (R98). -/
def execFunctionD3hot (fn : Nat) (s : State) : Host.Outcome State Fault Refusal :=
  .next (s.inCore fun s => s.toD3hot fn)

/-- FUNCTION_D0 (R98). -/
def execFunctionD0 (fn : Nat) (s : State) : Host.Outcome State Fault Refusal := .next (s.inCore fun s => s.toD0 fn)

/-- NQ_POP (R118). -/
def execNqPop (v : View) (page : Nat) (ecc : Ecc) (s : State) : Host.Outcome State Fault Refusal :=
  .next (s.inCore fun s =>
    match s.pageRing v page with
      | some n => s.nqPop v n ecc
      | none => s.emit (.reply v 0))

/-- NQ_CLR_COUNTS (R120). -/
def execNqClrCounts (v : View) (page : Nat) (w : Word) (s : State) : Host.Outcome State Fault Refusal :=
  .next (s.inCore fun s =>
    match s.pageRing v page with
      | some n => s.nqClear n w.toNat
      | none => s)

/-- EVR_MIRROR (R122). -/
def execEvrMirror (s : State) : Host.Outcome State Fault Refusal := .next (s.inCore fun s => s.evrMirror)

/-- IDE_KM (R449): the streams are the link stream 0 and the selective streams 1 to 4 (R97). -/
def execIdeKm (stream keySet : Nat) (s : State) : Host.Outcome State Fault Refusal :=
  .next (s.inCore fun s => if stream ≤ 4 then { s with hif := { s.hif with ide := s.hif.ide.put stream keySet } } else s)

end Sys2Proof.Machine
end

