-- ==== Sys2Proof/Machine/Memory.lean ====
section
/-!
DEFINITION. Device memory and the MMU (R124 to R155, R436, R437): bytes under keys, the tiers' maps, translation,
symbol codes, corrected errors, lost ranges and retirement.
-/

namespace Sys2Proof.Machine

/-! ### Cells in canonical form -/

/-- Addresses strictly rising. -/
def Memory.rising : List Host.Cell → Bool
  | [] => true
  | [_] => true
  | (a, _) :: (b, y) :: t => decide (a < b) && Memory.rising ((b, y) :: t)

/-- The canonical form of a memory: addresses strictly rising. No byte value is left out, since an unlisted address has
no value of its own. -/
def Memory.wf (m : List Host.Cell) : Bool := Memory.rising m

/-- The byte listed at an address. -/
def Memory.get : List Host.Cell → Nat → Option Byte
  | [], _ => none
  | (b, x) :: t, a => if b = a then some x else if a < b then none else Memory.get t a

/-- The memory with byte `x` at address `a`. -/
def Memory.set : List Host.Cell → Nat → Byte → List Host.Cell
  | [], a, x => [(a, x)]
  | (b, y) :: t, a, x => if a < b then (a, x) :: (b, y) :: t else if a = b then (a, x) :: t else (b, y) :: Memory.set t a x

/-- The memory without the addresses in `[lo, lo + n)`. -/
def Memory.clear (m : List Host.Cell) (lo n : Nat) : List Host.Cell :=
  m.filter fun c => decide (c.1 < lo) || decide (lo + n ≤ c.1)

/-- The memory with a run of bytes stored from an address. -/
def Memory.store : List Host.Cell → Nat → Bytes → List Host.Cell
  | m, _, [] => m
  | m, a, x :: t => Memory.store (Memory.set m a x) (a + 1) t

/-! ### Keys (R436, R437) -/

/-- A number for a key, to choose the open values that reading under it gives. -/
def MemKey.code : MemKey → Nat
  | .trust => 0
  | .phys => 1
  | .dom d e => 2 + d + 4096 * e

/-- The state with its memory changed. -/
def State.onMem (s : State) (f : MemState → MemState) : State := { s with mem := f s.mem }

/-- EPOCH of a domain. -/
def State.epoch (s : State) (d : Nat) : Nat := s.mem.epochs.getD d 0

/-- The key of an access through a translation domain (R436). -/
def State.domKey (s : State) (d : Nat) : MemKey :=
  if s.flag Reg.MMU_DOM_CFG_IDENTITY d then .phys else .dom d (s.epoch d)

/-- The draw of the newest write of unspelled bytes that covers a DPA, if any. -/
def MemState.openDraw (m : MemState) (a : Nat) : Option Nat :=
  (m.opened.find? fun r => decide (r.1 ≤ a) && decide (a < r.1 + r.2.1)).map (·.2.2)

/-- What a byte that is not listed reads as under a key. -/
def State.unlisted (s : State) (k : MemKey) (a : Nat) : Byte :=
  match s.mem.openDraw a with
  | some n => Config.openByte n k.code a
  | none => Config.memByte k.code a

/-- The byte at a DPA as a reader under key `k` sees it: what was written under that key, zero in a zero-filled extent
that nothing else has written, else an open value (R130, R437). -/
def State.memByte (s : State) (k : MemKey) (a : Nat) : Byte :=
  match s.mem.keys.find (a / 64) with
  | some k' => if k' = k then (Memory.get s.mem.cells a).getD (s.unlisted k a) else s.unlisted k a
  | none => if k = .phys ∧ a / 2 ^ 30 ∈ s.mem.zeroed ∧ s.mem.openDraw a = none then 0 else s.unlisted k a

/-- `n` bytes from a DPA under a key. -/
def State.memRead (s : State) (k : MemKey) (a n : Nat) : Bytes := (List.range n).map fun i => s.memByte k (a + i)

/-- The cells with zeros spelled out at those of the listed addresses that no open write covers. -/
def MemState.spellZeros (m : MemState) : List Nat → List Host.Cell → List Host.Cell
  | [], c => c
  | a :: l, c => m.spellZeros l (if m.openDraw a = none then Memory.set c a 0 else c)

/-- Before a data unit is written under a key, the bytes a merge cannot recover are dropped, and a zero-filled unit is
spelled out (R436: the unit is read, merged and written back whole). -/
def State.openUnit (s : State) (k : MemKey) (unit : Nat) : State :=
  s.onMem fun m =>
    let cells := Memory.clear m.cells (unit * 64) 64
    match m.keys.find unit with
    | some k' => if k' = k then m else { m with cells := cells, keys := m.keys.put unit k }
    | none =>
      if k = .phys ∧ unit * 64 / 2 ^ 30 ∈ m.zeroed then
        { m with cells := m.spellZeros ((List.range 64).map (unit * 64 + ·)) cells, keys := m.keys.put unit k }
      else { m with cells := cells, keys := m.keys.put unit k }

/-- One byte is written at a DPA under a key. -/
def State.memWrite1 (s : State) (k : MemKey) (a : Nat) (x : Byte) : State :=
  (s.openUnit k (a / 64)).onMem fun m => { m with cells := Memory.set m.cells a x }

/-- The device fills a run of bytes from a DPA in a layout the manual does not give: they read as open values
(notes/assumptions/67.md). -/
def State.openRange (s : State) (a n : Nat) : State :=
  let (x, s1) := s.fresh
  s1.onMem fun m => { m with
    cells := Memory.clear m.cells a n
    keys := m.keys.filter fun p => decide (p.1 * 64 < a) || decide (a + n < p.1 * 64 + 64)
    opened := (a, n, x) :: m.opened.filter fun r => !(decide (a ≤ r.1) && decide (r.1 + r.2.1 ≤ a + n)) }

/-- A run of bytes is written from a DPA under a key. -/
def State.memWrite (k : MemKey) : Nat → Bytes → State → State
  | _, [], s => s
  | a, x :: t, s => State.memWrite k (a + 1) t (s.memWrite1 k a x)

/-! ### The device physical address map (R124 to R128) -/

/-- Backed HBM: DPA below VISIBLE_GIB GiB. -/
def State.hbmBacked (s : State) (a : Nat) : Bool := decide (a < s.fld Reg.HBM_MAP_STATUS_VISIBLE_GIB * 2 ^ 30)

/-- The DDR5 extent of a DPA. -/
def ddrExtent (a : Nat) : Nat := (a - 0x100000000000) / 2 ^ 30

/-- The DPA lies in the DDR5 range. -/
def isDdr (a : Nat) : Bool := decide (0x100000000000 ≤ a) && decide (a < 0x200000000000)

/-- The DPA is backed (R124). -/
def State.backed (s : State) (a : Nat) : Bool :=
  s.hbmBacked a || (isDdr a && (s.mem.extents.find (ddrExtent a)).isSome)

/-- The media unit bound to a backed DPA (R126, R128) and the byte it stands at: for HBM the pseudo-channel of the slot, by
mode, and the slot offset; for DDR5 the extent's channel and the offset in the extent. -/
def State.homeOf (s : State) (a : Nat) : Option (MemUnit × Nat) :=
  if isDdr a then (s.mem.extents.find (ddrExtent a)).map fun e => (⟨1, e.1⟩, a % 2 ^ 30)
  else if s.hbmBacked a then
    let b := a / 4096
    let lb := s.mem.slotsBow.length
    let ls := s.mem.slotsStern.length
    if s.flag Reg.HBM_MAP_CFG_MODE then
      let m := min lb ls
      (if b % 2 = 0 then s.mem.slotsBow[b / 2 % m]? else s.mem.slotsStern[b / 2 % m]?).map fun u =>
        (⟨0, u⟩, b / 2 / m * 4096 + a % 4096)
    else
      let bow := lb * 2 ^ 18
      if b < bow then s.mem.slotsBow[b % lb]?.map fun u => (⟨0, u⟩, b / lb * 4096 + a % 4096)
      else s.mem.slotsStern[(b - bow) % ls]?.map fun u => (⟨0, u⟩, (b - bow) / ls * 4096 + a % 4096)
  else none

/-- The running retirement that copies the block of a DPA or has copied it, and the 64 KiB block's number (R151). -/
def State.movedBy (s : State) (a : Nat) : Option (Retire × Nat) :=
  match s.homeOf a with
  | none => none
  | some (u, off) =>
    (s.mem.retires.find? fun r => r.running && r.unit == u && (u.tier == 0 || r.extents.head? == some (ddrExtent a))).map
      fun r => (r, off / 65536)

/-- The media unit that serves a backed DPA: while its unit retires, blocks below the watermark are served from the
destination (R151). -/
def State.unitOf (s : State) (a : Nat) : Option MemUnit :=
  match s.movedBy a with
  | some (r, b) => some (if b < r.mark then ⟨r.unit.tier, r.dest⟩ else r.unit)
  | none => (s.homeOf a).map (·.1)

/-- The block of a DPA is under copy: an access to it waits (R151). -/
def State.copying (s : State) (a : Nat) : Bool :=
  match s.movedBy a with
  | some (r, b) => b == r.mark && !r.held
  | none => false

/-- The state of a memory unit, as ERR_READ numbers it. -/
def State.unitSt (s : State) (u : MemUnit) : Nat := s.mem.unitState.getD u 0
def State.setUnitSt (s : State) (u : MemUnit) (v : Nat) : State :=
  s.onMem fun m => { m with unitState := m.unitState.put u v }

def usIN_SERVICE : Nat := 0
def usRETIRING : Nat := 1
def usRETIRED : Nat := 2
def usSPARE : Nat := 3
def usOFF : Nat := 4
def usDEGRADED : Nat := 5
def usTRUSTED : Nat := 6

/-- The die of a media pseudo-channel: 0 bow, 1 stern. -/
def pcDie (u : Nat) : Nat := u / 512

/-- Free media extents of in-service channels, by channel (R128): channel and count. -/
def State.freeMedia (s : State) (c : Nat) : Nat :=
  if s.unitSt ⟨1, c⟩ = usIN_SERVICE then
    s.mem.chanGib.getD c 0 - (s.mem.extents.filter fun e => e.2.1 == c).length
  else 0

/-- Free media extents of all channels (`DDR.MAP_STATUS.FREE_MEDIA`). -/
def State.freeMediaAll (s : State) : Nat := sumOf ((List.range 16).map s.freeMedia)

/-- Media extents of a channel that running retirements have taken as destinations. -/
def State.mediaTaken (s : State) (c : Nat) : List Nat :=
  s.mem.retires.filterMap fun r => if r.unit.tier = 1 ∧ r.dest = c then r.media else none

/-- Free media extents of a channel that can still be bound. -/
def State.bindable (s : State) (c : Nat) : Nat := s.freeMedia c - (s.mediaTaken c).length

/-- The lowest media index of a channel that no extent is bound to and no retirement has taken. -/
def State.freeIndex (s : State) (c : Nat) : Option Nat :=
  (List.range (s.mem.chanGib.getD c 0)).find? fun i =>
    !(s.mem.extents.any fun e => e.2 == (c, i)) && !(s.mediaTaken c).contains i

/-- The rotation of R128: DC0, DC8, DC1, DC9, … DC7, DC15. -/
def ddrRotation : List Nat := [0, 8, 1, 9, 2, 10, 3, 11, 4, 12, 5, 13, 6, 14, 7, 15]

/-- SPARE_OUT of each die shows whether a spare is left there (R127, R153). -/
def State.showSpares (s : State) : State :=
  (s.setFlag Reg.HBM_MAP_STATUS_SPARE_OUT_BOW 0 (!(s.mem.spares.any fun u => pcDie u == 0))).setFlag
    Reg.HBM_MAP_STATUS_SPARE_OUT_STERN 0 (!(s.mem.spares.any fun u => pcDie u == 1))

/-- The in-service media pseudo-channels of a die are assigned (R125): the SPARES highest-numbered become spares, the
others are bound to slots in ascending order; VISIBLE_GIB and the L fields follow. -/
def State.assignHbm (s : State) : State :=
  let nsp := s.fld Reg.HBM_MAP_CFG_SPARES
  let inService := fun die => (List.range 512).map (· + 512 * die) |>.filter fun u =>
    let st := s.unitSt ⟨0, u⟩
    (st == usIN_SERVICE || st == usSPARE || st == usDEGRADED) && !s.mem.trusted.contains u
  let bow := inService 0
  let stern := inService 1
  let slots := fun l : List Nat => l.take (l.length - nsp)
  let spares := fun l : List Nat => l.drop (l.length - nsp)
  let lb := (slots bow).length
  let ls := (slots stern).length
  let vis := if s.flag Reg.HBM_MAP_CFG_MODE then 2 * min lb ls else lb + ls
  let s1 := s.onMem fun m => { m with
    slotsBow := slots bow, slotsStern := slots stern, spares := spares bow ++ spares stern
    unitState := (slots bow ++ slots stern).foldl (fun a u =>
        if a.getD ⟨0, u⟩ 0 = usSPARE then a.put ⟨0, u⟩ usIN_SERVICE else a)
      ((spares bow ++ spares stern).foldl (fun a u => a.put ⟨0, u⟩ usSPARE) m.unitState) }
  (((s1.setFld Reg.HBM_MAP_STATUS_VISIBLE_GIB 0 vis).setFld Reg.HBM_MAP_STATUS_L_BOW 0 lb).setFld
    Reg.HBM_MAP_STATUS_L_STERN 0 ls).showSpares

/-- Stage HBM (R67, R125): the failing pseudo-channels are retired, the two lowest that pass on each die carry the
trusted region, and the rest are assigned. -/
def State.hbmStage (s : State) (failed : List Nat) : State :=
  let good := fun die => (List.range 512).map (· + 512 * die) |>.filter fun u => !(failed.contains u)
  let tr := (good 0).take 2 ++ (good 1).take 2
  let s1 := s.onMem fun m => { m with
    trusted := tr
    unitState := tr.foldl (fun a u => a.put ⟨0, u⟩ usTRUSTED)
      (failed.foldl (fun a u => a.put ⟨0, u⟩ usRETIRED) m.unitState) }
  s1.assignHbm

/-- Stage DDR (R68, R128): channels without DIMMs or that failed are off; extents 0, 1, 2 and so on are backed in the
rotation while media are free. -/
def backRotation : Nat → Nat → List Nat → AMap Nat Nat → AMap Nat (Nat × Nat) → AMap Nat (Nat × Nat)
  | 0, _, _, _, acc => acc
  | fuel + 1, e, order, left, acc =>
    match order with
    | [] => acc
    | c :: rest =>
      match left.getD c 0 with
      | 0 => backRotation fuel e rest left acc
      | n + 1 => backRotation fuel (e + 1) (rest ++ [c]) (left.put c n)
          (acc ++ [(e, (c, (acc.filter fun x => x.2.1 == c).length))])

def State.ddrStage (s : State) (gib failed : List Nat) : State :=
  let ok := (List.range 16).filter fun c => !(failed.contains c) && decide (0 < gib.getD c 0)
  let cg : AMap Nat Nat := ok.map fun c => (c, min 1024 (gib.getD c 0))
  s.onMem fun m => { m with
    chanGib := cg
    extents := backRotation 16400 0 (ddrRotation.filter ok.contains) cg []
    unitState := (List.range 16).foldl (fun a c =>
      a.put ⟨1, c⟩ (if ok.contains c then usIN_SERVICE else usOFF)) m.unitState }

/-! ### Symbol codes (R144 to R147) -/

/-- Multiplication in GF(16) with x⁴ + x + 1. -/
def gf16Mul (a b : Nat) : Nat :=
  let p := (if bitAt b 0 then a else 0) ^^^ (if bitAt b 1 then 2 * a else 0) ^^^
    (if bitAt b 2 then 4 * a else 0) ^^^ (if bitAt b 3 then 8 * a else 0)
  let p := if bitAt p 6 then p ^^^ (0x13 * 4) else p
  let p := if bitAt p 5 then p ^^^ (0x13 * 2) else p
  if bitAt p 4 then p ^^^ 0x13 else p

/-- A power in GF(16). -/
def gf16Pow (a : Nat) : Nat → Nat
  | 0 => 1
  | n + 1 => gf16Mul a (gf16Pow a n)

/-- The inverse in GF(16) of a non-zero element. -/
def gf16Inv (a : Nat) : Nat := gf16Pow a 14

/-- λ = α³. -/
def eccLambda : Nat := 8

/-- The column of point P(x, y). -/
def eccPoint (x y : Nat) : List Nat := [1, gf16Mul x x ^^^ gf16Mul x y ^^^ gf16Mul eccLambda (gf16Mul y y), x, y]

/-- The parity-check column of symbol j: data 0–31, then A, B, C and D (the table of R144). -/
def eccColumn (j : Nat) : List Nat :=
  if j ≤ 13 then eccPoint (j + 2) 0
  else if j ≤ 28 then eccPoint (j - 13) 1
  else if j ≤ 31 then eccPoint (j - 29) 2
  else if j = 32 then [1, 0, 0, 0]
  else if j = 33 then [0, 1, 0, 0]
  else if j = 34 then [1, 1, 1, 0]
  else [1, eccLambda, 0, 1]

/-- The syndrome of symbols. -/
def eccSyndrome (r : List Nat) : List Nat :=
  (List.range 4).map fun row =>
    (r.zipIdx.map fun (x, j) => gf16Mul x ((eccColumn j).getD row 0)).foldl (· ^^^ ·) 0

/-- encode144: the 36 symbols of 32 data symbols. -/
def encode144 (d : List Nat) : List Nat :=
  let s := eccSyndrome d
  let cD := s.getD 3 0
  let cC := s.getD 2 0
  let cB := s.getD 1 0 ^^^ cC ^^^ gf16Mul eccLambda cD
  let cA := s.getD 0 0 ^^^ cC ^^^ cD
  d ++ [cA, cB, cC, cD]

/-- What decode144 answers: the symbols with the position corrected, or nothing for DETECTED. -/
def decode144 (r : List Nat) : Option (List Nat × Option Nat) :=
  let s := eccSyndrome r
  let s0 := s.getD 0 0
  let s1 := s.getD 1 0
  let s2 := s.getD 2 0
  let s3 := s.getD 3 0
  if s = [0, 0, 0, 0] then some (r, none)
  else if s0 = 0 then
    if s2 = 0 ∧ s3 = 0 then some (r.set 33 (r.getD 33 0 ^^^ s1), some 33) else none
  else
    let i := gf16Inv s0
    let h := [1, gf16Mul s1 i, gf16Mul s2 i, gf16Mul s3 i]
    match (List.range 36).find? fun j => eccColumn j == h with
    | some j => some (r.set j (r.getD j 0 ^^^ s0), some j)
    | none => none

/-- The syndromes S1 and S2 of a DDR5 beat (R146). -/
def rsSyndrome (c : List Nat) : Nat × Nat :=
  ((c.zipIdx.map fun (x, d) => gf16Mul x (gf16Pow 2 d)).foldl (· ^^^ ·) 0,
   (c.zipIdx.map fun (x, d) => gf16Mul x (gf16Pow 2 (2 * d))).foldl (· ^^^ ·) 0)

/-- The check symbols c8 and c9 are the values that make both syndromes 0 (R146): for each c8 there is one c9 that makes
S1 zero, and one pair makes S2 zero too. -/
def rsEncode (d : List Nat) : List Nat :=
  match ((List.range 256).map fun n => (n % 16, n / 16)).find? fun p => rsSyndrome (d ++ [p.1, p.2]) == (0, 0) with
  | some p => d ++ [p.1, p.2]
  | none => d

/-- Decoding of one beat (R147). -/
def rsDecode (c : List Nat) : Option (List Nat) :=
  let (s1, s2) := rsSyndrome c
  if s1 = 0 ∧ s2 = 0 then some c
  else if s1 = 0 ∨ s2 = 0 then none
  else
    let q := gf16Mul s2 (gf16Inv s1)
    match (List.range 10).find? fun j => gf16Pow 2 j == q with
    | some j => some (c.set j (c.getD j 0 ^^^ gf16Mul (gf16Mul s1 s1) (gf16Inv s2)))
    | none => none

/-! ### Bursts on their lines (R145 to R147, R150) -/

/-- The beats in which a line comes wrong. -/
def lineErr (e : List (Nat × Nat)) (line : Nat) : Nat := (e.filter fun x => x.1 == line).foldl (fun m x => m ^^^ x.2) 0

/-- What the errors of an HBM4 burst put on the 36 symbols of word `w` (R145): symbol i travels on line i, its bit k on beat
4w + k. -/
def hbmWordErr (e : List (Nat × Nat)) (w : Nat) : List Nat := (List.range 36).map fun i => lineErr e i / 16 ^ w % 16

/-- What the errors of a DDR5 burst put on the ten symbols of beat `b` (R146): bit k of symbol d travels on line 4d + k. -/
def ddrBeatErr (e : List (Nat × Nat)) (b : Nat) : List Nat :=
  (List.range 10).map fun d => sumOf ((List.range 4).map fun k => bit (bitAt (lineErr e (4 * d + k)) b) * 2 ^ k)

/-- The bytes of data symbols, two to a byte, the lower first (R144). -/
def symbolBytes : List Nat → Bytes
  | a :: b :: t => BitVec.ofNat 8 (a + 16 * b) :: symbolBytes t
  | _ => []

/-- The code words of a burst and the number of their data symbols: two of 36 symbols (R145), or sixteen of ten, one 64-byte
line (R147). -/
def burstWords (ddr : Bool) (e : List (Nat × Nat)) : List (List Nat) :=
  if ddr then (List.range 16).map (ddrBeatErr e) else (List.range 2).map (hbmWordErr e)
def burstData (ddr : Bool) : Nat := if ddr then 8 else 32

/-- Decoding of one code word: what stands, and the position corrected. -/
def decodeWord (ddr : Bool) (r : List Nat) : Option (List Nat × Option Nat) :=
  if ddr then (rsDecode r).map fun c => (c, (List.range 10).find? fun j => c.getD j 0 != r.getD j 0) else decode144 r

/-- One try at a burst: the damage that decoding leaves in its data bytes and the positions corrected; none when a code word
is DETECTED. Both codes are linear, so a word with errors decodes as its errors alone do, and what that leaves is what the
decoder leaves wrong. -/
def burstTry (ddr : Bool) (e : List (Nat × Nat)) : Option (Bytes × List Nat) :=
  let l := (burstWords ddr e).map (decodeWord ddr)
  if l.any (·.isNone) then none
  else some (symbolBytes (l.flatMap fun x => (x.getD ([], none)).1.take (burstData ddr)),
    l.filterMap fun x => (x.getD ([], none)).2)

/-- The first of `n` tries at a burst that decodes (R150). -/
def burstRead (ddr : Bool) : Nat → List (List (Nat × Nat)) → Option (Bytes × List Nat)
  | 0, _ => none
  | n + 1, l => match burstTry ddr (l.head?.getD []) with
    | some x => some x
    | none => burstRead ddr n l.tail

/-- Bytes of a burst. -/
def burstLen (tier : Nat) : Nat := if tier = 1 then 64 else 32

/-! ### Lost ranges (R152) -/

/-- The lost ranges of a tier. -/
def State.lostList (s : State) (ddr : Bool) : List (Nat × Nat) := if ddr then s.mem.lostDdr else s.mem.lostHbm

/-- The state with the lost ranges of a tier replaced. -/
def State.setLost (s : State) (ddr : Bool) (l : List (Nat × Nat)) : State :=
  s.onMem fun m => if ddr then { m with lostDdr := l } else { m with lostHbm := l }

/-- The DPA lies in a lost range, or its stack is held in reset (R497). -/
def State.isLost (s : State) (a : Nat) : Bool :=
  (s.mem.hbmReset && !isDdr a) || (s.lostList (isDdr a)).any fun r => decide (r.1 ≤ a / 65536) && decide (a / 65536 < r.1 + r.2)

/-! ### Translation (R131 to R138) -/

/-- Fault reasons of R132, numbered as MMU_FAULT's DETAIL numbers them; 0 stands for a walk that met a lost range, which is no
translation fault: the operation ends with MEM_UNCORRECTABLE (R152). -/
def frLOST : Nat := 0
def frRANGE : Nat := 1
def frNOT_PRESENT : Nat := 2
def frPERMISSION : Nat := 3
def frBAD_ENTRY : Nat := 4
def frUNBACKED : Nat := 5

/-- A page-table entry's address field: DPA bits [44:8]. -/
def pteAddr (e : Nat) : Nat := bitsOf e 8 37 * 256

/-- The levels of a walk: the index's lowest DVA bit, its width, whether a pointer is allowed, whether a leaf is. -/
def walkLevels : List (Nat × Nat × Bool × Bool) :=
  [(39, 9, true, false), (30, 9, true, true), (21, 9, true, true), (16, 5, false, true)]

/-- What a walk answers: the page's DPA for the access with its size's bits and permissions, or a fault reason. -/
inductive Walk where
  | ok (dpa : Nat) (read write : Bool)
  | fault (reason : Nat)
  deriving DecidableEq, Repr

/-- The walk from a table at `table` (R132). Page tables are read under K_PHYS (R436). -/
def State.walkFrom (s : State) (dva : Nat) (write : Bool) : List (Nat × Nat × Bool × Bool) → Nat → Walk
  | [], _ => .fault frBAD_ENTRY
  | (lsb, w, ptr, leaf) :: rest, table =>
    let at_ := table + 8 * bitsOf dva lsb w
    let e := natLE (s.memRead .phys at_ 8)
    if s.isLost at_ then .fault frLOST
    else if !bitAt e 0 then .fault frNOT_PRESENT
    else if bitsOf e 4 4 != 0 || bitsOf e 45 19 != 0 then .fault frBAD_ENTRY
    else if bitAt e 1 then
      if !leaf then .fault frBAD_ENTRY
      else if pteAddr e % 2 ^ lsb != 0 then .fault frBAD_ENTRY
      else if !s.backed (pteAddr e) then .fault frUNBACKED
      else if (write && !bitAt e 3) || (!write && !bitAt e 2) then .fault frPERMISSION
      else .ok (pteAddr e + dva % 2 ^ lsb) (bitAt e 2) (bitAt e 3)
    else if !ptr then .fault frBAD_ENTRY
    else
      let align := if lsb = 21 then 256 else 4096
      if pteAddr e % align != 0 || !s.hbmBacked (pteAddr e) then .fault frBAD_ENTRY
      else State.walkFrom s dva write rest (pteAddr e)

/-- Root of a domain's tables. -/
def State.domRoot (s : State) (d : Nat) : Nat :=
  s.fld Reg.MMU_DOM_ROOT_LO_ROOT d + 2 ^ 32 * s.fld Reg.MMU_DOM_ROOT_HI_ROOT d

/-- The translation of one DVA of a domain (R124, R132): an identity domain maps every backed DPA to itself; a cached page
answers for itself, as long as what it leads to is backed; else the tables are walked. -/
def State.translate (s : State) (d dva : Nat) (write : Bool) : Walk :=
  if 2 ^ 48 ≤ dva then .fault frRANGE
  else if s.flag Reg.MMU_DOM_CFG_IDENTITY d then
    if s.backed dva then .ok dva true true else .fault frUNBACKED
  else match s.mem.tlb.find (d, dva / 65536) with
    | some t =>
      if !s.backed t.dpa then .fault frUNBACKED
      else if (write && !t.write) || (!write && !t.read) then .fault frPERMISSION
      else .ok (t.dpa + dva % 65536) t.read t.write
    | none => s.walkFrom dva write walkLevels (s.domRoot d)

/-- The page an answered walk used is cached. -/
def State.cacheWalk (s : State) (d dva : Nat) (w : Walk) : State :=
  match w with
  | .ok dpa r wr =>
    if s.flag Reg.MMU_DOM_CFG_IDENTITY d then s
    else s.onMem fun m => { m with tlb := m.tlb.put (d, dva / 65536) ⟨dpa - dpa % 65536, r, wr⟩ }
  | .fault _ => s

/-- The cached pages of a domain that overlap a range are dropped; a length of 0 is the whole domain (R135). -/
def State.dropTlb (s : State) (d first len : Nat) : State :=
  s.onMem fun m => { m with tlb := m.tlb.filter fun t =>
    !(t.1.1 == d && (len == 0 || (decide (t.1.2 * 65536 < first + len) && decide (first < t.1.2 * 65536 + 65536)))) }

/-- The DVAs at which an access of `n` bytes enters a 64 KiB page. -/
def pagesOf (dva n : Nat) : List Nat :=
  (List.range (if n = 0 then 0 else (dva + n - 1) / 65536 - dva / 65536 + 1)).map fun i =>
    if i = 0 then dva else (dva / 65536 + i) * 65536

/-- The pages an access has walked are cached (R132). -/
def State.cacheRange (s : State) (d dva n : Nat) (write : Bool) : State :=
  (pagesOf dva n).foldl (fun s a => s.cacheWalk d a (s.translate d a write)) s

/-- Part of a range of a domain lies in a lost range (R152). -/
def State.dvaLost (s : State) (dom dva n : Nat) : Bool :=
  (pagesOf dva n).any fun a => match s.translate dom a false with
    | .ok dpa _ _ => s.isLost dpa
    | .fault _ => false

/-- The first fault, if any, met by an access of `n` bytes at a DVA, page by page of 64 KiB. -/
def State.rangeFault (s : State) (d dva n : Nat) (write : Bool) : Option (Nat × Nat) :=
  (pagesOf dva n).findSome? fun a => match s.translate d a write with
    | .ok .. => none
    | .fault r => some (a, r)

/-- `n` bytes read at a DVA whose pages all translate. -/
def State.dvaRead (s : State) (d dva n : Nat) : Bytes :=
  (List.range n).map fun i => match s.translate d (dva + i) false with
    | .ok a _ _ => s.memByte (s.domKey d) a
    | .fault _ => 0

/-- Bytes stored at a DVA whose pages all translate, one after the other. -/
def State.dvaPut (d : Nat) : Nat → Bytes → State → State
  | _, [], s => s
  | dva, x :: t, s =>
    match s.translate d dva true with
    | .ok a _ _ => State.dvaPut d (dva + 1) t (s.memWrite1 (s.domKey d) a x)
    | .fault _ => State.dvaPut d (dva + 1) t s

/-- Block `b` leaves the list: a write covered the whole of it. -/
def dropLost (l : List (Nat × Nat)) (b : Nat) : List (Nat × Nat) :=
  l.flatMap fun r =>
    if r.1 ≤ b ∧ b < r.1 + r.2 then
      (if r.1 < b then [(r.1, b - r.1)] else []) ++ (if b + 1 < r.1 + r.2 then [(b + 1, r.1 + r.2 - b - 1)] else [])
    else [r]

/-- A write of a range of DVAs takes the 64 KiB blocks it covers whole off the lost-range lists (R152). -/
def State.regain (s : State) (d dva n : Nat) : State :=
  ((pagesOf dva n).filter fun a => a % 65536 == 0 && decide (a + 65536 ≤ dva + n)).foldl (fun s a =>
    match s.translate d a true with
    | .ok p _ _ => s.setLost (isDdr p) (dropLost (s.lostList (isDdr p)) (p / 65536))
    | .fault _ => s) s

/-- Bytes written at a DVA whose pages all translate. -/
def State.dvaWrite (d dva : Nat) (b : Bytes) (s : State) : State :=
  (State.dvaPut d dva b (s.cacheRange d dva b.length true)).regain d dva b.length

/-- A range of DVAs is filled in a layout the manual does not give, page by page; pages that do not translate are left. -/
def State.dvaOpen (s : State) (d dva n : Nat) : State :=
  (pagesOf dva n).foldl (init := s) fun s a =>
    let e := min (dva + n) ((a / 65536 + 1) * 65536)
    match s.translate d a true with
    | .ok p _ _ => s.openRange p (e - a)
    | .fault _ => s

/-- Some byte of a range of DVAs has been written since the range was last filled by `dvaOpen`. -/
def State.dvaTouched (s : State) (d dva n draw : Nat) : Bool :=
  (pagesOf dva n).any fun a =>
    let e := min (dva + n) ((a / 65536 + 1) * 65536)
    match s.translate d a false with
    | .ok p _ _ =>
      (s.mem.cells.any fun c => decide (p ≤ c.1) && decide (c.1 < p + (e - a))) ||
        !(s.mem.openDraw p).any fun x => decide (draw ≤ x)
    | .fault _ => true

/-! ### Blocks that are lost and regained (R152) -/

/-- A lost 64 KiB block is entered: it extends an adjacent range; with 4,096 ranges the last one is extended to the end
of the unit, `unitEnd` in blocks. -/
def addLost (l : List (Nat × Nat)) (b unitEnd : Nat) : List (Nat × Nat) :=
  if l.any fun r => r.1 + r.2 == b then l.map fun r => if r.1 + r.2 = b then (r.1, r.2 + 1) else r
  else if l.any fun r => b + 1 == r.1 then l.map fun r => if b + 1 = r.1 then (b, r.2 + 1) else r
  else if l.length < 4096 then l ++ [(b, 1)]
  else l.dropLast ++ (l.getLast?.toList.map fun r => (r.1, max r.2 (unitEnd - r.1)))

/-- Slots of line windows in HBM blocks that have just been lost (R152, R415): a held frame is answered GONE when it is asked
for, and a received one is missing. A frame counter's slot is the one its number gives it in its window
(notes/assumptions/199.md). -/
def State.slotsLost (s : State) (lost : Nat → Bool) : State :=
  { s with line := { s.line with
    groups := s.line.groups.map fun p =>
      let base := s.fld Reg.SLF_WIN_BASE_LO_BASE p.1 + s.fld Reg.SLF_WIN_BASE_HI_BASE p.1 * 2 ^ 32
      let tx := s.fld Reg.SLF_WIN_CFG_TX_UNITS p.1 * 65536
      let rx := s.fld Reg.SLF_WIN_CFG_RX_UNITS p.1 * 65536
      let gone := fun a => lost (a / 65536) || lost ((a + 8255) / 65536)
      (p.1, { p.2 with
        held := p.2.held.map fun t => if gone (base + t.fsn % tx * 8256) then { t with lost := true } else t
        rx := p.2.rx.filter fun f => !gone (base + (tx + f.fsn % rx) * 8256) }) } }

/-- The 64 KiB block of a DPA is lost: entered in its tier's list and notified (R152); a block listed already stays as it
is. -/
def State.loseBlock (s : State) (a unit unitEnd : Nat) : State :=
  let ddr := isDdr a
  if (s.lostList ddr).any fun r => decide (r.1 ≤ a / 65536) && decide (a / 65536 < r.1 + r.2) then s else
  let l := addLost (s.lostList ddr) (a / 65536) unitEnd
  let r := (l.find? fun r => decide (r.1 ≤ a / 65536) && decide (a / 65536 < r.1 + r.2)).getD (a / 65536, 1)
  let was := s.lostList ddr
  let within := fun (l : List (Nat × Nat)) b => l.any fun r => decide (r.1 ≤ b) && decide (b < r.1 + r.2)
  let s1 := s.setLost ddr l
  (if ddr then s1 else s1.slotsLost fun b => within l b && !within was b).raise Ev.MEM_LOST unit (min r.2 0xFFFF + bitsOf (r.1 * 65536) 16 29 * 2 ^ 16 + bit ddr * 2 ^ 47)

/-! ### Permanent faults and retirement (R149 to R154) -/

/-- A retirement's tier and die: those of one run one at a time (R154). -/
def Retire.lane (r : Retire) : Nat × Nat := (r.unit.tier, if r.unit.tier = 0 then pcDie r.unit.unit else r.unit.unit / 8)

/-- The retirement of an HBM pseudo-channel is done: its slot or trusted role is bound to the spare (R151, R154). -/
def State.rebindHbm (s : State) (r : Retire) : State :=
  let sub := fun (l : List Nat) => l.map fun u => if u = r.unit.unit then r.dest else u
  let wasTrusted := decide (r.unit.unit ∈ s.mem.trusted)
  (s.onMem fun m => { m with
    slotsBow := sub m.slotsBow, slotsStern := sub m.slotsStern, trusted := sub m.trusted
    unitState := (m.unitState.put r.unit usRETIRED).put ⟨0, r.dest⟩ (if wasTrusted then usTRUSTED else usIN_SERVICE)
    retires := m.retires.filter fun q => q.unit != r.unit })

/-- A retirement is done (R151 step 5): RETIRE_DONE, the domain turned off for a DDR_DOMAIN request, and the request
completes. -/
def State.retireEnd (s : State) (r : Retire) : State :=
  let s1 := if r.unit.tier = 0 then s.rebindHbm r
    else (s.setUnitSt r.unit (if r.drain then usOFF else usRETIRED)).onMem fun m => { m with
      retires := m.retires.filter fun q => q.unit != r.unit }
  let s2 := s1.raise Ev.RETIRE_DONE r.unit.unit r.unit.tier
  match r.op with
  | some k => s2.finish k stOK
  | none => s2

/-- A retirement enters RETIRING (R151 steps 1 and 2), or finds no spare (R153). A channel with no bound extent has
nothing to copy. -/
def State.beginRetire (s : State) (r : Retire) : State :=
  let u := r.unit
  let note := fun (s : State) => s.raise Ev.RETIRE_START u.unit (u.tier + 2 * bit (r.op.isSome || r.drain))
  if u.tier = 0 then
    match (s.mem.spares.filter fun p => pcDie p == pcDie u.unit).head? with
    | some sp =>
      note (((s.setUnitSt u usRETIRING).onMem fun m => { m with
        spares := m.spares.erase sp
        retires := m.retires.map fun q => if q = r then { r with running := true, dest := sp } else q }).showSpares)
    | none =>
      let s1 := ((s.setUnitSt u usDEGRADED).onMem fun m => { m with retires := m.retires.erase r }).showSpares
      let s3 := s1.raise Ev.RETIRE_NO_SPARE u.unit (pcDie u.unit)
      match r.op with
      | some k => s3.finish k stOK
      | none => s3
  else
    let bound := (s.mem.extents.filter fun e => e.2.1 == u.unit).map (·.1)
    let r' := { r with running := true, extents := bound }
    let s1 := note ((s.setUnitSt u usRETIRING).onMem fun m => { m with
      retires := m.retires.map fun q => if q = r then r' else q })
    if bound.isEmpty then s1.retireEnd r' else s1

/-- The first retirement of every tier and die that has none running begins. -/
def State.startRetires (s : State) : State :=
  s.mem.retires.foldl (fun s r =>
    if r.running || s.mem.retires.any (fun q => q.running && q.lane == r.lane) || !(s.mem.retires.contains r) then s
    else s.beginRetire r) s

/-- A retirement is done and the next of its tier and die begins. -/
def State.retireDone (s : State) (r : Retire) : State := (s.retireEnd r).startRetires

/-- The retirement of a unit is asked for (R151, R154): a spare is only removed from the pool (a retirement into it starts
again with another), and a unit retired or off is left alone. A request for a unit whose retirement is under way takes it up, or, where another request asked for it,
completes at once (notes/assumptions/149.md). -/
def State.retireUnit (s : State) (u : MemUnit) (op : Option OpKey) (drain : Bool) : State :=
  let st := s.unitSt u
  if st = usSPARE then
    let s1 := ((s.setUnitSt u usRETIRED).onMem fun m => { m with
      spares := m.spares.erase u.unit
      retires := m.retires.map fun q =>
        if q.running ∧ q.unit.tier = 0 ∧ q.dest = u.unit then { q with running := false, mark := 0 } else q }
      ).showSpares.startRetires
    match op with
    | some k => s1.finish k stOK
    | none => s1
  else if st = usIN_SERVICE ∨ st = usTRUSTED ∨ st = usDEGRADED ∨ st = usRETIRING then
    match op, s.mem.retires.find? fun q => q.unit == u with
    | _, none => (s.onMem fun m => { m with retires := m.retires ++ [{ unit := u, op := op, drain := drain }] }).startRetires
    | none, some _ => s
    | some k, some r =>
      if r.op.isSome then s.finish k stOK
      else s.onMem fun m => { m with
        retires := m.retires.map fun q => if q.unit == u then { q with op := some k, drain := q.drain || drain } else q }
  else match op with
    | some k => s.finish k stOK
    | none => s

/-- A unit has a permanent fault (R149, R150). -/
def State.permanentFault (s : State) (u : MemUnit) : State :=
  (if s.unitSt u = usRETIRING then s else s.healthAdd .self 32).retireUnit u none false

/-- CE_POLICY.COUNT of a tier. -/
def State.ceLimit (s : State) (tier : Nat) : Nat :=
  if tier = 0 then s.fld Reg.HBM_CE_POLICY_COUNT else s.fld Reg.DDR_CE_POLICY_COUNT

/-- A position whose count within the window has reached COUNT declares a permanent fault of its unit, once in that window
(R149). -/
def State.ceJudge (s : State) (u : MemUnit) (pos : Nat) : State :=
  let c := s.mem.ce.getD (u, pos) {}
  if s.ceLimit u.tier ≤ c.inWindow ∧ c.declared = false then
    (s.onMem fun m => { m with ce := m.ce.put (u, pos) { c with declared := true } }).permanentFault u
  else s

/-- A corrected error is counted at a position (R149). -/
def State.countCe (s : State) (u : MemUnit) (pos : Nat) : State :=
  let c := s.mem.ce.getD (u, pos) {}
  let c1 := { c with total := satAdd 0xFFFF c.total 1, inWindow := satAdd 0xFF c.inWindow 1 }
  (s.onMem fun m => { m with ce := m.ce.put (u, pos) c1 }).ceJudge u pos

/-- A new COUNT of a tier is held against every position at once (notes/assumptions/174.md). -/
def State.ceJudgeAll (s : State) (tier : Nat) : State :=
  ((s.mem.ce.map (·.1)).filter fun p => p.1.tier == tier).foldl (fun s p => s.ceJudge p.1 p.2) s

/-- A burst is read from a unit (R147, R149, R150): corrected errors are counted at their positions, a read that a retry
gave is recorded, and one that no try could decode is a permanent fault. Answers the damage left in its data; none when it
could not be read. `dpa` is the DPA it is mapped at, if any. -/
def State.noteBurst (s : State) (u : MemUnit) (dpa : Option Nat) (e : BurstErr) : Option Bytes × State :=
  match burstRead (u.tier == 1) 3 e.tries with
  | none => (none, s.permanentFault u)
  | some (x, pos) =>
    let at_ := fun p => if u.tier = 1 then e.place % 8 * 16 + p else p
    let s1 := pos.foldl (fun s p => s.countCe u (at_ p)) s
    if (burstTry (u.tier == 1) (e.tries.head?.getD [])).isSome then (some x, s1)
    else
      let (line, s2) : Nat × State := match dpa with
        | some a => (bitsOf a 6 39, s1)
        | none => ((s1.fresh).1 % 2 ^ 39, (s1.fresh).2)
      (some x, s2.raise Ev.MEM_TRANSIENT u.unit (line * 64 + u.tier * 2 ^ 47))

/-- The bytes of a burst that was corrected wrongly (R147): the code stands over ciphertext (R436), so what the damage makes
of the data unit comes out of deciphering it. -/
def State.garbled (s : State) (k : MemKey) (base : Nat) (x : Bytes) : Bytes :=
  let unit := base / 64
  let c := Config.memSeal k.code unit (s.memRead k (unit * 64) 64)
  let d := Config.memOpen k.code unit
    ((List.range 64).map fun i => c.getD i 0 ^^^ (if base % 64 ≤ i then x.getD (i - base % 64) 0 else 0))
  (List.range x.length).map fun i => d.getD (base % 64 + i) 0

/-- What a read of device memory met: a burst that could not be read, and the bursts corrected wrongly: the byte of the access
and the DPA that name each, and what it reads as. -/
structure ReadOut where
  bad : Bool := false
  wrong : List (Nat × Nat × Bytes) := []

/-- The bursts of a read of `n` bytes at a DVA, up to the first that cannot be read. A lost range is not retried (R152). -/
def State.readErrs (s : State) (dom dva n : Nat) (r : MemRead) : ReadOut × State :=
  if s.dvaLost dom dva n then ({ bad := true }, s)
  else (r.filter fun e => decide (e.at_ < n)).foldl (fun (o, s) e =>
    if o.bad then (o, s)
    else match s.translate dom (dva + e.at_) false with
      | .fault _ => (o, s)
      | .ok a _ _ => match s.unitOf a with
        | none => (o, s)
        | some u =>
          let base := a / burstLen u.tier * burstLen u.tier
          match s.noteBurst u (some a) e with
          | (none, s1) => ({ o with bad := true }, s1)
          | (some x, s1) =>
            if allZero x then (o, s1)
            else ({ o with wrong := o.wrong ++ [(e.at_, a, s.garbled (s.domKey dom) base x)] }, s1)) ({}, s)

/-- The bytes of a read with those of a wrongly corrected burst in their place. -/
def patchBurst (b : Bytes) (w : Nat × Nat × Bytes) : Bytes :=
  let base := w.2.1 / w.2.2.length * w.2.2.length
  b.mapIdx fun j x =>
    if w.1 + base ≤ w.2.1 + j ∧ w.2.1 + j < w.1 + base + w.2.2.length then w.2.2.getD (w.2.1 + j - (w.1 + base)) x else x

/-- `n` bytes read at a DVA whose pages all translate, through the symbol codes; none when a part cannot be read. -/
def State.dvaGet (s : State) (dom dva n : Nat) (r : MemRead) : Option Bytes × State :=
  let s0 := s.cacheRange dom dva n false
  match s0.readErrs dom dva n r with
  | (o, s1) => if o.bad then (none, s1) else (some (o.wrong.foldl patchBurst (s0.dvaRead dom dva n)), s1)

/-! ### Blocks of a retirement (R151 to R153) -/

/-- Blocks of 64 KiB in one GiB: a pseudo-channel, or an extent. -/
def blocksPerGib : Nat := 16384

/-- The DPA of a byte of a unit, when it is mapped (R126, R128). For a DDR5 channel the byte counts through its media
extents. -/
def State.dpaOf (s : State) (u : MemUnit) (off : Nat) : Option Nat :=
  if u.tier = 1 then
    (s.mem.extents.find? fun e => e.2 == (u.unit, off / 2 ^ 30)).map fun e => 0x100000000000 + e.1 * 2 ^ 30 + off % 2 ^ 30
  else
    let bow := s.mem.slotsBow
    let stern := s.mem.slotsStern
    let place := fun (l : List Nat) => l.findIdx? (· == u.unit)
    let b := off / 4096
    let m := min bow.length stern.length
    let at_ := fun blk => blk * 4096 + off % 4096
    match s.flag Reg.HBM_MAP_CFG_MODE, place bow, place stern with
    | true, some i, _ => if i < m then some (at_ (2 * (b * m + i))) else none
    | true, none, some i => if i < m then some (at_ (2 * (b * m + i) + 1)) else none
    | false, some i, _ => some (at_ (b * bow.length + i))
    | false, none, some i => some (at_ (bow.length * 2 ^ 18 + b * stern.length + i))
    | _, none, none => none

/-- The DPAs of block `mark` of a running retirement: an extent's block stands at one DPA; a pseudo-channel's holds sixteen
interleave blocks of 4 KiB, each at its own (R126). -/
def State.blockDpas (s : State) (r : Retire) (mark : Nat) : List Nat :=
  if r.unit.tier = 1 then r.extents.head?.toList.map fun e => 0x100000000000 + e * 2 ^ 30 + mark * 65536
  else (List.range 16).filterMap fun i => s.dpaOf r.unit (mark * 65536 + i * 4096)

/-- The end of a unit's DPAs, in 64 KiB blocks. -/
def State.unitEnd (s : State) (r : Retire) : Nat :=
  if r.unit.tier = 1 then
    maxOf ((s.mem.extents.filter fun e => e.2.1 == r.unit.unit).map fun e => 0x10000000 + (e.1 + 1) * blocksPerGib)
  else maxOf ((s.blockDpas r (blocksPerGib - 1)).map fun a => a / 65536 + 1)

/-- The channel that takes the next extent of a draining channel: the next in the rotation with free media, and the place in
the rotation after it (R128, R151). -/
def State.retireDest (s : State) (r : Retire) : Option (Nat × Nat) :=
  ((List.range 16).map fun i => (r.rot + i) % 16).findSome? fun j =>
    let c := ddrRotation.getD j 0
    if c ≠ r.unit.unit ∧ 0 < s.bindable c then some (c, (j + 1) % 16) else none

/-- The retirement with a media extent for the extent under copy: the one it has, while its channel is in service, or
another, for a copy from the start. -/
def State.retireTarget (s : State) (r : Retire) : Option Retire :=
  if r.media.isSome && s.unitSt ⟨1, r.dest⟩ == usIN_SERVICE then some { r with held := false }
  else (s.retireDest r).map fun x =>
    { r with dest := x.1, rot := x.2, media := s.freeIndex x.1, mark := 0, held := false }

/-- The block under copy is read (R150, R152): one that cannot be read is lost, and not copied. -/
def State.copyRead (s : State) (r : Retire) (read : MemRead) : State :=
  let dpas := s.blockDpas r r.mark
  let step := fun (x : Bool × State) (e : BurstErr) =>
    let a := if r.unit.tier = 1 then dpas.head?.map (· + e.at_) else (s.dpaOf r.unit (r.mark * 65536 + e.at_))
    match x.2.noteBurst r.unit a e with
    | (none, s1) => (true, s1)
    | (some _, s1) => (x.1, s1)
  match (read.filter fun e => decide (e.at_ < 65536)).foldl step (false, s) with
  | (false, s1) => s1
  | (true, s1) => dpas.foldl (fun s a => s.loseBlock a r.unit.unit (s.unitEnd r)) s1

/-- One 64 KiB block of the running retirement of a unit copies (R151 to R153). -/
def State.retireBlock (s : State) (u : MemUnit) (read : MemRead) : State :=
  match s.mem.retires.find? fun r => r.unit == u && r.running with
  | none => s
  | some r0 =>
    let set := fun (s : State) (r' : Retire) => s.onMem fun m => { m with
      retires := m.retires.map fun q => if q.unit = u then r' else q }
    if u.tier = 0 then
      let s0 := s.copyRead r0 read
      if r0.mark + 1 < blocksPerGib then set s0 { r0 with mark := r0.mark + 1 }
      else s0.retireDone r0
    else
      match r0.extents, s.retireTarget r0 with
      | [], _ => s.retireDone r0
      | _ :: _, none =>
        if r0.held then s
        else (set s { r0 with held := true, media := none }).raise Ev.RETIRE_NO_SPACE u.unit (r0.extents.length * 2 ^ 16)
      | e :: rest, some r =>
        let s0 := (set s r).copyRead r read
        if r.mark + 1 < blocksPerGib then set s0 { r with mark := r.mark + 1 }
        else
          let r' := { r with extents := rest, mark := 0, media := none }
          let s1 := set (s0.onMem fun m => { m with extents := m.extents.put e (r.dest, r.media.getD 0) }) r'
          if rest.isEmpty then s1.retireDone r' else s1

/-! ### Faults of an operation's segment (R136, R138, R140) -/

/-- The operation with its hold changed. -/
def State.setHold (s : State) (k : OpKey) (h : Hold) : State :=
  match s.op? k with
  | some o => s.setOp { o with hold := h }
  | none => s

/-- The function that owns a domain: the virtual function whose partition holds it, else the PF (R123). -/
def State.domOwner (s : State) (dom : Nat) : Nat :=
  (((List.range 64).map (· + 1)).find? fun v =>
    let b := s.fld Reg.HIF_VF_DOMAINS_DOMAIN_BASE v
    decide (b ≤ dom) && decide (dom < b + s.fld Reg.HIF_VF_DOMAINS_DOMAIN_COUNT v)).getD 0

/-- MMU_FAULT to the function that owns a domain, which numbers the domain its own way (R138). A walk that met a lost range
is no translation fault. -/
def State.mmuFault (s : State) (dom dva reason : Nat) (write : Bool) : State :=
  if reason = frLOST then s
  else
    let fn := s.domOwner dom
    let local_ := if fn = 0 then dom else dom - s.fld Reg.HIF_VF_DOMAINS_DOMAIN_BASE fn
    s.raise Ev.MMU_FAULT 0 (dva % 2 ^ 48 + local_ * 2 ^ 48 + bit write * 2 ^ 60 + reason * 2 ^ 61) fn

/-- How an operation ends at once on a fault of its walk: one that met a lost range, or any with DEV_WAIT_US 0; else it is
held (R138, R152). -/
def State.faultEnds (s : State) (reason : Nat) : Option Nat :=
  if reason = frLOST then some stMEM_UNCORRECTABLE
  else if s.fld Reg.MMU_FAULT_CFG_DEV_WAIT_US = 0 then some stTRANSLATION_FAULT
  else none

/-- A device-memory walk faults for an operation (R138): the segment is held, or with DEV_WAIT_US 0 the operation ends
at once; MMU_FAULT goes to the function that owns the domain. -/
def State.devFault (s : State) (o : Op) (dom dva reason : Nat) (write : Bool) : State :=
  let s1 := s.mmuFault dom dva reason write
  match s.faultEnds reason with
  | some st => s1.finish o.key st
  | none => s1.setHold o.key (.devFault dom dva write)

/-- A page request is outstanding, or waits to be sent. -/
def Hold.asks : Hold → Bool
  | .pri .. => true
  | _ => false
def Hold.waitsToAsk : Hold → Bool
  | .priWait .. => true
  | _ => false

/-- Outstanding page requests (R136): at most 512. -/
def State.priCount (s : State) : Nat :=
  (s.hif.ops.filter fun p => p.2.hold.asks).length + (s.tfb.ctxs.filter fun p => p.2.hold.asks).length

/-- A faulting access asks for its page: the hold it stands in, and the page request if one may be sent now (R136). -/
def State.askPage (s : State) (fn addr : Nat) (write : Bool) : Hold × State :=
  if s.priCount < 512 then (.pri addr write, s.emit (.pageRequest fn addr write)) else (.priWait addr write, s)

/-- A page request is sent for an operation's segment, or waits for one to finish (R136). -/
def State.pageRequest (s : State) (k : OpKey) (addr : Nat) (write : Bool) : State :=
  match s.askPage (s.ringFn k.ring) addr write with
  | (h, s1) => s1.setHold k h

/-- A page request has finished: the next segment that waits sends its own. -/
def State.nextPageRequest (s : State) : State :=
  if 512 ≤ s.priCount then s
  else
    match s.hif.ops.find? fun p => p.2.hold.waitsToAsk, s.tfb.ctxs.find? fun p => p.2.hold.waitsToAsk with
    | some (k, o), _ => match o.hold with
      | .priWait a w => (s.setHold k (.pri a w)).emit (.pageRequest o.fn a w)
      | _ => s
    | none, some (n, c) => match c.hold with
      | .priWait a w =>
        { s with tfb := { s.tfb with ctxs := s.tfb.ctxs.put n { c with hold := .pri a w } } }.emit (.pageRequest c.fn a w)
      | _ => s
    | none, none => s

/-- Host addresses that ATS has translated for a function are cached by 4 KiB page (R136). -/
def State.atsFill (s : State) (ats : Bool) (fn addr n : Nat) : State :=
  if !ats || n = 0 then s
  else s.onMem fun m => { m with
    ats := ((List.range ((addr + n - 1) / 4096 - addr / 4096 + 1)).map fun i => (fn, addr / 4096 + i)).foldl withElem m.ats }

end Sys2Proof.Machine
end

