-- ==== Sys2Proof/Machine/MemoryUnits.lean ====
section
/-!
DEFINITION. The rows about memory units: channels turned off and on, extents, retirement, scrubbing and corrected-error
windows (R130, R149 to R155).
-/

namespace Sys2Proof.Machine

/-- The balls of a DDR5 channel (R44, R45): driven or floating, on-die termination enabled, receivers listening, DC_RESET_N
(none: it floats) and the sideband I3C pair in use. -/
structure ChannelBalls where
  driven : Bool
  odt : Bool
  listens : Bool
  resetN : Option Bool
  sideband : Bool
  deriving DecidableEq, Repr

/-- While a channel's domain is off all its balls are high-impedance; from the moment it is turned on they are driven, and
DC_RESET_N is released once the reset pulse of `Out.dimmReset` has passed. -/
def State.channelBalls (s : State) (c : Nat) : ChannelBalls :=
  if s.coreOff || (s.unitSt ⟨1, c⟩ == usOFF && !s.mem.training.has c) then ⟨false, false, false, none, false⟩
  else ⟨true, true, true, some true, true⟩

/-- DDR_DOMAIN (R155): off drains the channel (R151), on resets its DIMMs through DC_RESET_N (R45) and trains it. A request
that finds the channel training completes with it (notes/assumptions/172.md). -/
def State.ddrDomain (s : State) (o : Op) : State :=
  let c := mParam0 o.desc % 256
  let on := bitAt (mParam0 o.desc) 8
  let st := s.unitSt ⟨1, c⟩
  if 15 < c then s.finish o.key stBAD_FIELD
  else if on then
    if s.mem.training.has c then s.onMem fun m => { m with trainWaits := m.trainWaits ++ [(c, o.key)] }
    else if st = usOFF ∨ st = usRETIRED then
      (s.onMem fun m => { m with training := m.training.put c (some o.key) }).emit (.dimmReset c)
    else s.finish o.key stOK st
  else if st = usOFF then s.finish o.key stOK
  else if st = usRETIRED then (s.setUnitSt ⟨1, c⟩ usOFF).finish o.key stOK
  else s.retireUnit ⟨1, c⟩ (some o.key) true

/-- A channel turned on finishes training (R155): in service with its DIMMs' extents free, or off with DDR_TRAIN_FAIL. -/
def State.ddrTrained (s : State) (c gib : Nat) (ok : Bool) : State :=
  match s.mem.training.find c with
  | none => s
  | some op =>
    let s1 := s.onMem fun m => { m with
      training := m.training.del c
      chanGib := m.chanGib.put c (if ok then min 1024 gib else 0) }
    let s2 := s1.setUnitSt ⟨1, c⟩ (if ok then usIN_SERVICE else usOFF)
    let s3 := if ok then s2 else s2.raise Ev.DDR_TRAIN_FAIL c 0
    let keys := op.toList ++ (s.mem.trainWaits.filter fun w => w.1 == c).map (·.2)
    keys.foldl (fun s k => s.finish k stOK (if ok then usIN_SERVICE else usOFF))
      (s3.onMem fun m => { m with trainWaits := m.trainWaits.filter fun w => w.1 != c })

/-- Channels with the most free media extents, and at least one (R130). -/
def State.richest (s : State) : List Nat :=
  let m := maxOf ((List.range 16).map s.bindable)
  if m = 0 then [] else (List.range 16).filter fun c => s.bindable c == m

/-- A retirement without an extent that was released: if that was under copy, the next one is copied from its start. -/
def Retire.without (r : Retire) (e : Nat) : Retire :=
  if r.unit.tier ≠ 1 ∨ ¬ e ∈ r.extents then r
  else if r.extents.head? = some e then { r with extents := r.extents.erase e, mark := 0, media := none }
  else { r with extents := r.extents.erase e }

/-- A release takes the extent out of the retirement that was to copy it; one with nothing left to copy is done. -/
def State.retireWithout (s : State) (e : Nat) : State :=
  let s1 := s.onMem fun m => { m with retires := m.retires.map fun r => r.without e }
  (s1.mem.retires.filter fun r => r.running && r.unit.tier == 1 && r.extents.isEmpty).foldl (fun s r => s.retireDone r) s1

/-- The blocks of an extent leave the lost-range list: zeros were written to the whole of it (R130, R152). -/
def State.extentRegained (s : State) (e : Nat) : State :=
  s.onMem fun m => { m with
    lostDdr := m.lostDdr.flatMap fun r =>
      let lo := 0x10000000 + e * blocksPerGib
      let hi := lo + blocksPerGib
      (if r.1 < lo then [(r.1, min (r.1 + r.2) lo - r.1)] else []) ++
        (if hi < r.1 + r.2 then [(max r.1 hi, r.1 + r.2 - max r.1 hi)] else []) }

/-- DDR_EXTENT (R130). Which of several equally free channels a back takes is an open value. -/
def State.ddrExtentReq (s : State) (o : Op) : State :=
  let e := mParam0 o.desc % 16384
  let lo := 0x100000000000 + e * 2 ^ 30
  match bitAt (mParam0 o.desc) 16, s.mem.extents.find e with
  | false, none => s.finish o.key stOK
  | false, some _ =>
    (s.onMem fun m => { m with
      extents := m.extents.del e
      zeroed := without m.zeroed e
      opened := m.opened.filter fun r => decide (r.1 < lo) || decide (lo + 2 ^ 30 ≤ r.1)
      cells := Memory.clear m.cells lo (2 ^ 30)
      keys := m.keys.filter fun k => decide (k.1 < lo / 64) || decide (lo / 64 + 2 ^ 24 ≤ k.1) }
      ).retireWithout e |>.finish o.key stOK
  | true, some _ => s.finish o.key stOK
  | true, none =>
    match s.richest with
    | [] => s.finish o.key stBAD_FIELD
    | l =>
      let (v, s1) := s.fresh
      let c := l.getD (v % l.length) 0
      (s1.onMem fun m => { m with
        extents := m.extents.put e (c, (s.freeIndex c).getD 0)
        zeroed := withElem m.zeroed (0x100000000000 / 2 ^ 30 + e) }).extentRegained e |>.finish o.key stOK

/-- MEM_RETIRE (R151). -/
def State.memRetire (s : State) (o : Op) : State :=
  let tier := bitsOf (mParam0 o.desc) 10 1
  let u := mParam0 o.desc % 1024
  if tier = 1 ∧ 15 < u then s.finish o.key stBAD_FIELD
  else s.retireUnit ⟨tier, u⟩ (some o.key) false

/-- Every in-window count of a tier starts again (R149). -/
def State.ceWindow (s : State) (tier : Nat) : State :=
  s.onMem fun m => { m with
    ce := m.ce.map fun c => if c.1.1.tier = tier then (c.1, { c.2 with inWindow := 0, declared := false }) else c }

/-- Patrol scrubbing reads part of a unit (R150): any location of a unit that is not retired or off, whatever its role.
Corrected data is written back in place, wrongly corrected data too. -/
def State.scrub (s : State) (u : MemUnit) (off : Nat) (r : MemRead) : State :=
  if s.unitSt u = usRETIRED ∨ s.unitSt u = usOFF then s
  else r.foldl (fun s e =>
    let at_ := off + e.at_
    let dpa := s.dpaOf u at_
    match s.noteBurst u dpa e, dpa with
    | (some x, s1), some a =>
      if allZero x then s1
      else
        let base := a / burstLen u.tier * burstLen u.tier
        let k := (s.mem.keys.find (a / 64)).getD .phys
        State.memWrite k base (s.garbled k base x) s1
    | (_, s1), _ => s1) s

/-- DDR_DOMAIN (R155). -/
def execDdrDomain (op : OpKey) (s : State) : Host.Outcome State Fault Refusal :=
  .next (s.mgmtPF op 0x0007 fun o s => s.ddrDomain o)

/-- DDR_TRAIN_DONE (R155). -/
def execDdrTrainDone (chan gib : Nat) (ok : Bool) (s : State) : Host.Outcome State Fault Refusal :=
  .next (s.inCore fun s => s.ddrTrained chan gib ok)

/-- DDR_EXTENT (R130). -/
def execDdrExtent (op : OpKey) (s : State) : Host.Outcome State Fault Refusal :=
  .next (s.mgmtPF op 0x000B fun o s => s.ddrExtentReq o)

/-- MEM_RETIRE (R151). -/
def execMemRetire (op : OpKey) (s : State) : Host.Outcome State Fault Refusal :=
  .next (s.mgmtPF op 0x000C fun o s => s.memRetire o)

/-- RETIRE_BLOCK_COPY (R151). -/
def execRetireBlockCopy (u : MemUnit) (read : MemRead) (s : State) : Host.Outcome State Fault Refusal :=
  .next (s.inCore fun s => s.retireBlock u read)

/-- SCRUB_READ (R150). -/
def execScrubRead (a : MediaAt) (r : MemRead) (s : State) : Host.Outcome State Fault Refusal :=
  .next (s.inCore fun s => s.scrub a.unit a.off r)

/-- CE_WINDOW_END (R149). -/
def execCeWindowEnd (tier : Nat) (s : State) : Host.Outcome State Fault Refusal :=
  .next (s.inCore fun s => s.ceWindow tier)

end Sys2Proof.Machine
end

