-- ==== Sys2Proof/Machine/Sett.lean ====
section
/-!
DEFINITION. The sett pool (R179 to R190): quotas, allocation, reference counts and its counters; and what a write to
a selector with a CLR bit does in every block.
-/

namespace Sys2Proof.Machine

/-- A write to a register that a command of its own handles: when the access reaches the register (R63, R82), its
fields take the word under R83 and `body` follows. -/
def State.trigger (s : State) (v : View) (b : Blk) (off : Nat) (w : Word) (body : State → State) : State :=
  match regDefAt b off with
  | some d => if s.reaches v b off && holdsReg v b off then body (s.writeOwn v b off d w) else s
  | none => s

/-- A write to a selector register: when bit 31 (CLR) is set, `body` follows, with the low bits of the word. -/
def State.selClear (s : State) (v : View) (b : Blk) (off : Nat) (w : Word) (body : Nat → State → State) : State :=
  s.trigger v b off w fun s => if bitAt w.toNat 31 then body (w.toNat % 2 ^ 31) s else s

/-! ### Line-group ownership (R13) -/

/-- The line-group byte of a lane in its octet's live set-up (R175). -/
def State.laneByte (s : State) (lane : Nat) : Nat :=
  let f := if lane % 8 < 4 then Reg.ELN_OCT_LG_LO_LG0 else Reg.ELN_OCT_LG_HI_LG0
  s.fld { f with lsb := 8 * (lane % 4), width := 8 } (lane / 8)

/-- The line group a lane is a member of, if any. -/
def State.laneGroup (s : State) (lane : Nat) : Option Nat :=
  let b := s.laneByte lane
  if bitAt b 7 then some (b % 16) else none

/-- The member lanes of a line group, lowest first. -/
def State.groupLanes (s : State) (g : Nat) : List Nat :=
  (List.range 64).filter fun l => s.laneGroup l == some g

/-- The die that owns a line group: 0 bow, 1 stern (R13; the bow die with no member lane, R181). -/
def State.groupDie (s : State) (g : Nat) : Nat :=
  match s.groupLanes g with
  | l :: _ => l / 32
  | [] => 0

/-! ### Quotas (R181, R182, R189) -/

/-- Setts on a die. -/
def dieSetts : Nat := 786432

/-- The requester of an ingress pipeline by fabric port, of a line group, and of a transport class on a die. -/
def reqPort (port : Nat) : Nat := if port < 512 then port / 8 else 64 + (port - 512)
def reqLine (g : Nat) : Nat := 128 + g
def reqTransport (die cls : Nat) : Nat := 144 + 4 * die + cls
def reqTensor (die : Nat) : Nat := 152 + die

/-- The die a requester's setts come from. -/
def State.reqDie (s : State) (q : Nat) : Nat :=
  if q < 64 then q / 32
  else if q < 128 then (q - 64) / 32
  else if q < 144 then s.groupDie (q - 128)
  else if q < 152 then (q - 144) / 4
  else q - 152

def State.settMin (s : State) (q : Nat) : Nat := s.fld Reg.SETT_QMIN_SETTS q
def State.settMax (s : State) (q : Nat) : Nat := s.fld Reg.SETT_QMAX_SETTS q
def State.settUsed (s : State) (q : Nat) : Nat := s.fld Reg.SETT_STAT_USE_USED q

/-- The state with the sett pool changed. -/
def State.onSett (s : State) (f : SettState → SettState) : State := { s with sett := f s.sett }

/-- The raises of a requester's minimum that still lack setts on a die. -/
def State.settLacks (s : State) (q die : Nat) : List Lack := s.sett.lacks.filter fun l => l.req == q && l.die == die

/-- The part of a requester's minimum that is set aside on a die. -/
def State.settAside (s : State) (q die : Nat) : Nat := s.settMin q - sumOf ((s.settLacks q die).map Lack.n)

/-- The minimum that guarantees a requester's allocations on a die: until a raised minimum has all its extra setts, the one
before the raise (R189). -/
def State.settGuar (s : State) (q die : Nat) : Nat :=
  match s.settLacks q die with
  | l :: _ => min l.old (s.settMin q)
  | [] => s.settMin q

/-- Setts of a requester on a die. A line group's may stand on both, when its owner has moved (R13, R181). -/
def State.settOn (s : State) (q die : Nat) : Nat :=
  if 128 ≤ q ∧ q < 144 then (s.sett.setts.filter fun p => p.2.req == q && p.1 / dieSetts == die).length
  else if s.reqDie q = die then s.settUsed q else 0

/-- Requesters whose minimum is set aside on a die: its own and every line group (R181). -/
def State.dieReqs (s : State) (die : Nat) : List Nat :=
  (List.range 154).filter fun q => (128 ≤ q && q < 144) || s.reqDie q == die

/-- Free setts of a die's shared pool (`POOL_STATUSn.SHARED_FREE`). -/
def State.sharedFree (s : State) (die : Nat) : Nat :=
  dieSetts - sumOf ((s.dieReqs die).map fun q => s.settAside q die)
    - sumOf ((s.dieReqs die).map fun q => s.settOn q die - s.settGuar q die)

/-- An allocation for requester `q` succeeds (R182). -/
def State.settGrants (s : State) (q : Nat) : Bool :=
  decide (q < 154) &&
    (decide (s.settUsed q < s.settGuar q (s.reqDie q)) ||
      (decide (s.settUsed q < s.settMax q) && decide (0 < s.sharedFree (s.reqDie q))))

/-- The next sett of a die's free list, and the list without it: setts never used first, then setts freed, oldest first; none
when the list is empty. -/
def SettState.take (p : SettState) (die : Nat) : Option (Nat × SettState) :=
  if die = 0 then
    if p.nextBow < dieSetts then some (p.nextBow, { p with nextBow := p.nextBow + 1 })
    else p.freedBow.head?.map fun n => (n, { p with freedBow := p.freedBow.tail })
  else
    if p.nextStern < dieSetts then some (dieSetts + p.nextStern, { p with nextStern := p.nextStern + 1 })
    else p.freedStern.head?.map fun n => (n, { p with freedStern := p.freedStern.tail })

/-- A refusal is counted for its requester (R187). -/
def State.settRefuse (s : State) (q : Nat) : State := s.bump Reg.SETT_STAT_REFUSED_COUNT q

/-- One sett is allocated for a requester with count 1 (R182, R184), or the allocation is refused. -/
def State.settAlloc (s : State) (q : Nat) : Option Nat × State :=
  match (if s.settGrants q then s.sett.take (s.reqDie q) else none) with
  | some (n, p) =>
    let used := s.settUsed q + 1
    let s1 := { s with sett := { p with setts := p.setts.put n ⟨q, 1⟩ } }
    let s2 := s1.setFld Reg.SETT_STAT_USE_USED q used
    (some n, s2.setFld Reg.SETT_STAT_PEAK_PEAK q (max used (s2.fld Reg.SETT_STAT_PEAK_PEAK q)))
  | none => (none, s.settRefuse q)

/-- Free setts of a die's shared pool go to the raised minimums there that still lack setts, the earliest commit first (R189). -/
def State.settFillN : Nat → Nat → State → State
  | 0, _, s => s
  | n + 1, die, s =>
    match s.sett.lacks.find? fun l => l.die == die with
    | none => s
    | some l =>
      let give := min l.n (s.sharedFree die)
      if give = 0 then s
      else
        let rest := fun (x : Lack) => if x = l then { l with n := l.n - give } else x
        State.settFillN n die (s.onSett fun p => { p with
          lacks := if give = l.n then p.lacks.erase l else p.lacks.map rest })

/-- The same until no more can be given. -/
def State.settFill (s : State) (die : Nat) : State := State.settFillN s.sett.lacks.length die s

/-- One reference of a sett is released (R184, R186). -/
def State.settFree (s : State) (n : Nat) : State :=
  let die := n / dieSetts
  match s.sett.setts.find n with
  | none =>
    (s.bump (Reg.SETT_POOL_STATUS_REF_FAULTS.nth die)).raise Ev.SETT_REFCOUNT_FAULT die (n % dieSetts)
  | some e =>
    if 1 < e.refs then s.onSett fun p => { p with setts := p.setts.put n { e with refs := e.refs - 1 } }
    else
      let s1 := s.onSett fun p => { p with
        setts := p.setts.del n
        freedBow := if die = 0 then p.freedBow ++ [n] else p.freedBow
        freedStern := if die = 0 then p.freedStern else p.freedStern ++ [n]
        freesBow := if die = 0 then p.freesBow + 1 else p.freesBow
        freesStern := if die = 0 then p.freesStern else p.freesStern + 1 }
      (s1.setFld Reg.SETT_STAT_USE_USED e.req (s.settUsed e.req - 1)).settFill die

/-- References of a list of setts are released. -/
def State.settFrees (s : State) (l : List Nat) : State := l.foldl (fun s n => s.settFree n) s

/-- One more reference of every sett of a stored copy; false where a count stands at 255 (R185). -/
def State.settShare (s : State) (l : List Nat) : Option State :=
  if l.any fun n => match s.sett.setts.find n with
      | some e => decide (255 ≤ e.refs)
      | none => false
  then none
  else some (l.foldl (fun s n => s.onSett fun p => { p with
    setts := p.setts.upd n fun e => { e with refs := e.refs + 1 } }) s)

/-- Setts that a frame of L bytes (FCS included) occupies (R180). -/
def settCount (len : Nat) : Nat := (len + 32 + 255) / 256

/-- Setts are allocated one at a time for a frame; a refusal frees those it holds already (R180, R187). -/
def State.settAllocN (q : Nat) : Nat → List Nat → State → Option (List Nat) × State
  | 0, acc, s => (some acc, s)
  | n + 1, acc, s =>
    match s.settAlloc q with
    | (some x, s1) => State.settAllocN q n (acc ++ [x]) s1
    | (none, s1) => (none, s1.settFrees acc)

/-- The setts of a stored frame whose bytes are given without the FCS. -/
def State.settStore (s : State) (q : Nat) (frame : Bytes) : Option (List Nat) × State :=
  State.settAllocN q (settCount (frame.length + 4)) [] s

/-- A lowered minimum: of a raise beyond it, what is not set aside yet is no longer wanted
(notes/assumptions/180.md). -/
def lowerLacks (q die new : Nat) (l : List Lack) : List Lack :=
  l.filterMap fun x =>
    if x.req ≠ q ∨ x.die ≠ die ∨ x.top ≤ new then some x
    else
      let left := (new - x.old) - (x.top - x.old - x.n)
      if left = 0 then none else some { x with top := new, n := left }

/-- What the errors of a word put on the 36 symbols of its code word (R144, R180). -/
def settSymbols (e : List (Nat × Nat)) : List Nat := (List.range 36).map fun i => lineErr e i % 16

/-- The damage that reading a word leaves in its 16 bytes, by the first of `n` tries that decodes (R150, R180); none when every
one is uncorrectable. -/
def settRead : Nat → List (List (Nat × Nat)) → Option Bytes
  | 0, _ => none
  | n + 1, l => match decodeWord false (settSymbols (l.head?.getD [])) with
    | some x => some (symbolBytes (x.1.take 32))
    | none => settRead n l.tail

/-- A stored frame as it is read from its setts; none when a word of them stays uncorrectable (R180). The frame stands after a
header of 32 bytes. -/
def readSetts (f : Bytes) (errs : List SettErr) : Option Bytes :=
  (errs.filter fun e => decide (16 * e.word < f.length + 36)).foldl (fun o e => o.bind fun f =>
    (settRead 3 e.tries).map fun x => f.mapIdx fun j b =>
      if 16 * e.word ≤ j + 32 then b ^^^ x.getD (j + 32 - 16 * e.word) 0 else b) (some f)

/-- The requester that the setts of a stored frame are charged to. -/
def State.settOwner (s : State) (l : List Nat) : Nat := ((l.head?.bind s.sett.setts.find).map Sett.req).getD 154

/-- A frame with an uncorrectable sett is dropped and counted as CORRUPT for its requester (R180). -/
def State.settCorrupt (s : State) (l : List Nat) : State :=
  (if s.settOwner l < 154 then s.bump Reg.SETT_STAT_CORRUPT_COUNT (s.settOwner l) else s).settFrees l

/-- A committed minimum has gone live (R189): the extra setts of a raise are set aside as far as the shared pool has them free,
and from later frees. -/
def State.settRaise (s : State) (q old new : Nat) : State :=
  let dies := if 128 ≤ q && q < 144 then [0, 1] else [s.reqDie q]
  dies.foldl (fun s die => (s.onSett fun p => { p with
    lacks := if old < new then p.lacks ++ [⟨q, die, old, new, new - old⟩] else lowerLacks q die new p.lacks }).settFill die) s

/-! ### Meanings -/

/-- SETT_ALLOC (R182). -/
def execSettAlloc (req : Nat) (s : State) : Host.Outcome State Fault Refusal :=
  .next (s.inCore fun s => (s.settAlloc req).2)

/-- SETT_STAT_CLR (R190). -/
def execSettStatClr (v : View) (w : Word) (s : State) : Host.Outcome State Fault Refusal :=
  .next (s.selClear v .sett 0x100 w fun sel s =>
    let q := bitsOf sel 0 8
    if q < 154 then
      ((s.setFld Reg.SETT_STAT_PEAK_PEAK q (s.settUsed q)).setFld Reg.SETT_STAT_REFUSED_COUNT q 0).setFld
        Reg.SETT_STAT_CORRUPT_COUNT q 0
    else s)

end Sys2Proof.Machine
end

