-- ==== Sys2Proof/Machine/Ashlar.lean ====
section
/-!
DEFINITION. Code tables and expanders (R353 to R361, R364, R371): slots, counts and block expansion.
-/

namespace Sys2Proof.Machine

/-! ### Code-table slots (R353 to R357) -/

/-- The state with the ashlar unit changed. -/
def State.onAsh (s : State) (f : AshState → AshState) : State := { s with ash := f s.ash }

/-- A code-table slot. -/
def State.table (s : State) (die id : Nat) : CodeTable := s.ash.slots.getD (die, id) {}
def State.setTable (s : State) (die id : Nat) (t : CodeTable) : State :=
  s.onAsh fun a => { a with slots := a.slots.put (die, id) t }

/-- An ashlar counter of a die: 0 BLOCKS_PLAIN, 1 BLOCKS_RUBBLE, 2 CHECK_FAIL, 3 MALFORMED, 4 TABLE_FAULT,
5 RUBBLE_EXCESS, 6 TABLE_INSTALLS. -/
def State.ashCount (s : State) (die c : Nat) : State := s.bump Reg.ASH_STAT_VALUE_VALUE (c + 8 * die)

/-- Levels of a table of a size code. -/
def tableLevels (size : Nat) : Nat := 16 * 4 ^ size

/-- A table is LOADED with a profile's size (R353). -/
def CodeTable.serves (t : CodeTable) (profile : Nat) : Bool := t.st == 1 && t.size == profile

/-- A block leaves an expander: its table's count falls, and a RETIRING slot becomes FREE at 0 (R354, R355). -/
def State.tableDrop (s : State) (die id : Nat) : State :=
  let t := s.table die id
  let n := t.count - 1
  s.setTable die id (if t.st = 2 ∧ n = 0 then {} else { t with count := n })

/-- The dies a CODE_TABLE request names. -/
def codeTableDies (p : Nat) : List Nat := (List.range 2).filter fun d => bitAt p (8 + d)

/-- Why CODE_TABLE is refused: the value in EXT (R356). Which of several reasons is given is a choice of the model's. -/
def State.codeTableRefusal (s : State) (o : Op) (levels : Bytes) : Option Nat :=
  let p := mParam0 o.desc
  let size := bitsOf p 11 2
  let install := !bitAt p 10
  if (codeTableDies p).isEmpty then some 4
  else if size = 3 ∨ (install = true ∧ mLen o.desc ≠ 2 * tableLevels size) then some 3
  else if install = true ∧ (codeTableDies p).any (fun d => (s.table d (p % 256)).count != 0) = true then some 1
  else if install = true ∧ ((List.range (tableLevels size)).any fun i =>
      match fBF16.decode (getLE levels (2 * i) 2) with
      | .fin .. => false
      | _ => true) = true then some 2
  else none

/-- CODE_TABLE acts on one die (R356). -/
def State.codeTableDie (s : State) (p : Nat) (levels : Bytes) (die : Nat) : State :=
  let id := p % 256
  let size := bitsOf p 11 2
  let t := s.table die id
  if bitAt p 10 then
    (if t.st = 1 then s.setTable die id (if t.count = 0 then {} else { t with st := 2 }) else s)
  else
    (s.setTable die id { st := 1, size := size, count := 0
                         levels := (List.range (tableLevels size)).map fun i => getLE levels (2 * i) 2 }).ashCount die 6

/-- CODE_TABLE (R356). An install reads its levels from host memory; none where that read failed. -/
def State.codeTable (s : State) (o : Op) (levels : Option Bytes) : State :=
  let p := mParam0 o.desc
  match s.codeTableRefusal o (levels.getD []), levels with
  | some 2, none => s.finish o.key stHOST_ABORT
  | some e, _ => s.finish o.key stBAD_FIELD e
  | none, none =>
    if bitAt p 10 then ((codeTableDies p).foldl (fun s d => s.codeTableDie p [] d) s).finish o.key stOK
    else s.finish o.key stHOST_ABORT
  | none, some b => ((codeTableDies p).foldl (fun s d => s.codeTableDie p b d) s).finish o.key stOK

/-! ### Expanders (R355, R359, R360, R364) -/

/-- The die of an expander. -/
def expanderDie (x : Nat) : Nat := x / 18

/-- How many expanders there are. -/
def expanders : Nat := 36

/-- What an expander makes of a block offered to it (R360): none, or the check that fails. -/
def State.blockCheck (s : State) (die profile table : Nat) (b : Bytes) : Option Nat :=
  if !ashIntact b then some 1
  else if !ashWellFormed b then some 2
  else if ashProfile b ≠ profile ∨ ashTable b ≠ table then some 3
  else if !(s.table die table).serves profile then some 4
  else none

/-- A failed check is counted, and ASHLAR_BAD recorded for checks 1 and 2 (R360). -/
def State.blockRefused (s : State) (die check dva dom : Nat) : State :=
  let s1 := s.ashCount die (match check with
    | 1 => 2
    | 2 => 3
    | _ => 4)
  if check ≤ 2 then s1.record Ev.ASHLAR_BAD die (dva % 2 ^ 48 + dom * 2 ^ 48 + check * 2 ^ 60) else s1

/-- The status with which the consumer of a refused block ends (R360). -/
def checkStatus (check : Nat) : Nat := if check ≤ 2 then stMEM_UNCORRECTABLE else stBAD_FIELD

/-- An expander accepts a block into its queue (R355). -/
def State.blockAccept (s : State) (x : Nat) (q : QBlock) : State :=
  let die := expanderDie x
  let id := ashTable q.block
  let t := s.table die id
  (s.setTable die id { t with count := t.count + 1 }).onAsh fun a =>
    { a with queues := a.queues.put x (a.queues.getD x [] ++ [q]) }

/-- Blocks fetched for a consumer and not yet expanded are discarded, with the values that wait for it (R355). -/
def State.blocksDrop (s : State) (who : Consumer) : State :=
  let s1 := (List.range expanders).foldl (fun s x =>
    let q := s.ash.queues.getD x []
    let s1 := (q.filter fun b => b.who == who).foldl (fun s b => s.tableDrop (expanderDie x) (ashTable b.block)) s
    if q.any fun b => b.who == who then
      s1.onAsh fun a => { a with queues := a.queues.put x (q.filter fun b => b.who != who) }
    else s1) s
  s1.onAsh fun a => { a with ready := a.ready.del who }

/-- The rubble blocks of an aligned run are counted, one expanded again by a re-execution once, and an excess is recorded once for that run (R364). Also answers
whether the block exceeds the declared count. -/
def State.rubbleSeen (s : State) (x : Nat) (q : QBlock) : Bool × State :=
  match q.who with
  | .xfer _ => (false, s)
  | .run ctx =>
    let k := (x, ctx, q.hdr, q.idx / 1024)
    let l := s.ash.rubble.getD k []
    let s1 := s.onAsh fun a => { a with rubble := a.rubble.put k (withElem l q.idx) }
    let die := expanderDie x
    let n := (withElem l q.idx).length
    if n = q.max + 1 ∧ l.contains q.idx = false then
      (true, (s1.ashCount die 5).record Ev.RUBBLE_EXCESS die (q.hdr / 64 % 2 ^ 42 + q.idx / 1024 * 2 ^ 42))
    else (decide (q.max < n), s1)

/-- An expander expands the block at the head of its queue (R358): its values wait for the consumer. Answers the block
and whether its rubble exceeds the declared count. -/
def State.expandHead (s : State) (x : Nat) : Option (QBlock × Bool × State) :=
  match s.ash.queues.getD x [] with
  | [] => none
  | q :: rest =>
    let die := expanderDie x
    let vals := bf16Bytes (ashExpand (s.table die (ashTable q.block)).levels q.block)
    let s1 := (s.onAsh fun a => { a with
      queues := a.queues.put x rest
      ready := a.ready.put q.who (a.ready.getD q.who [] ++ [⟨x, q.idx, vals, ashRubble q.block, q.at_, q.hdr, q.block.length⟩]) })
    let s2 := (s1.tableDrop die (ashTable q.block)).ashCount die (bit (ashRubble q.block))
    if ashRubble q.block then
      let (excess, s3) := s2.rubbleSeen x q
      some (q, excess, s3)
    else some (q, false, s2)

/-! ### Meanings -/

/-- CODE_TABLE (R356). -/
def execCodeTable (op : OpKey) (levels : Option Bytes) (s : State) : Host.Outcome State Fault Refusal :=
  .next (s.mgmtPF op 0x000D fun o s => s.codeTable o levels)

/-- ASH_STAT_CLR (R371). -/
def execAshStatClr (v : View) (w : Word) (s : State) : Host.Outcome State Fault Refusal :=
  .next (s.selClear v .ash 0x200 w fun sel s => s.setFld Reg.ASH_STAT_VALUE_VALUE (bitsOf sel 0 4) 0)

end Sys2Proof.Machine
end

