-- ==== Sys2Proof/Machine/PlanBin.lean ====
section
/-!
DEFINITION. Race plans as data (R302 to R309): the binary's fields, heats and strokes in time, and the opening of the next
reserved window at a port (R223, R313).
-/

namespace Sys2Proof.Machine

/-- A plan's binary: header fields (R302). -/
def pOpCount (b : Bytes) : Nat := getLE b 0x28 4
def pHeatCount (b : Bytes) : Nat := getLE b 0x24 4

/-- A planned operation's record (R303). -/
def pOp (b : Bytes) (i : Nat) : Bytes := sliceB b (128 + 48 * i) 48
def poGroup (r : Bytes) : Nat := getLE r 0x00 2 % 2 ^ 14
def poCode (r : Bytes) : Nat := getLE r 0x02 1
def poBase (r : Bytes) : Nat := getLE r 0x04 4
def poStep (r : Bytes) : Nat := getLE r 0x08 4
def poChunks (r : Bytes) : Nat := getLE r 0x10 4

def pDevice (b : Bytes) : Nat := getLE b 0x06 2
def pSetId (b : Bytes) : Nat := getLE b 0x08 8
/-- START in ns of network time. -/
def pStart (b : Bytes) : Nat := getLE b 0x10 8 * 1000000000 + getLE b 0x18 4
def pStrokeNs (b : Bytes) : Nat := getLE b 0x1C 2
def pSlack (b : Bytes) : Nat := getLE b 0x1E 2
def pStrokes (b : Bytes) : Nat := getLE b 0x20 4
def pEntries (b : Bytes) : Nat := getLE b 0x2C 4
def pDevices (b : Bytes) : Nat := getLE b 0x30 2

/-- Q and P, and the slack budget in ns (R305). -/
def pPitch (b : Bytes) : Nat := pStrokeNs b + 64
def pPeriod (b : Bytes) : Nat := (pStrokes b + pSlack b) * pPitch b
def pBudget (b : Bytes) : Nat := pSlack b * pPitch b

/-- FIRST_ENTRY and COUNT of a stroke. -/
def pStroke (b : Bytes) (s : Nat) : Nat × Nat :=
  let o := 128 + 48 * pOpCount b + 8 * s
  (getLE b o 4, getLE b (o + 4) 2)

/-- Entry e. -/
def pEntry (b : Bytes) (e : Nat) : Bytes := sliceB b (128 + 48 * pOpCount b + 8 * pStrokes b + 32 * e) 32
def peType (x : Bytes) : Nat := getLE x 0 1
def peGate (x : Bytes) : Bool := bitAt (getLE x 1 1) 0
def peOffset (x : Bytes) : Nat := getLE x 2 2
/-- OUT_RES. -/
def pePort (x : Bytes) : Nat := getLE x 4 2
def peTcs (x : Bytes) : Nat := getLE x 6 1
def peLength (x : Bytes) : Nat := getLE x 8 2
/-- BENCH_RES. -/
def peOp (x : Bytes) : Nat := getLE x 4 2
def peHold (x : Bytes) : Nat := getLE x 6 2
def peFirst (x : Bytes) : Nat := getLE x 8 4
def peCount (x : Bytes) : Nat := getLE x 12 4
/-- RIG, PROG and LINE. -/
def peRigId (x : Bytes) : Nat := getLE x 4 4
def peCtx (x : Bytes) : Nat := getLE x 4 1
def peLine (x : Bytes) : Nat × Nat := (getLE x 4 1, getLE x 5 1)

/-- Entry numbers of a stroke, and all entries with their strokes. -/
def strokeEntries (b : Bytes) (s : Nat) : List Nat :=
  let (f, n) := pStroke b s
  (List.range n).map fun i => f + i
def planEntries (b : Bytes) : List (Nat × Nat) :=
  (List.range (pStrokes b)).flatMap fun s => (strokeEntries b s).map fun e => (s, e)

/-- Ports that OUT_RES entries of a plan name, and contexts of PROG entries. -/
def planPorts (b : Bytes) : List Nat :=
  ((List.range (pEntries b)).filterMap fun e =>
    let x := pEntry b e
    if peType x = 1 then some (pePort x) else none).foldl (fun l p => withElem l p) []
def planProgs (b : Bytes) : List Nat :=
  (List.range (pEntries b)).filterMap fun e =>
    let x := pEntry b e
    if peType x = 4 then some (peCtx x) else none

/-- Queues of a port whose traffic class bit is set. -/
def peQueues (x : Bytes) : List Nat :=
  ((List.range 8).filter fun t => bitAt (peTcs x) t).map fun t => pePort x * 8 + t

/-! ### Heats and strokes in time (R305 to R309) -/

/-- The first grid point of a plan at or after a time. -/
def PlanSlot.grid (p : PlanSlot) (t : Nat) : Nat :=
  let q := pPitch p.bin
  p.h0 + (t - p.h0 + q - 1) / q * q

/-- The start of a plan that replaces none: START, or the first START + k × P at or after its staging (R306). -/
def PlanSlot.firstStart (p : PlanSlot) : Nat :=
  let start := pStart p.bin
  if p.stagedAt ≤ start then start
  else start + (p.stagedAt - start + pPeriod p.bin - 1) / pPeriod p.bin * pPeriod p.bin

/-- When the next heat of a plan starts (R309): as its end gave it, or later by adoption. -/
def PlanSlot.nextHeat (p : PlanSlot) : Nat := max p.next (p.adopted.getD (p.heat + 1) 0)

/-- Strokes of a plan that follow each other without a pause from now on, as the first one's index and its start: those of the
present heat from the present stroke on, unless it is late (R308), and those of the next heat where one follows. -/
def PlanSlot.ahead (p : PlanSlot) : List (Nat × Nat) :=
  if p.st = 0 then []
  else if p.st = 1 then (if p.replaces.isNone then [(0, p.firstStart)] else [])
  else
    let here := match p.strokeStart with
      | none => (0, p.heatStart)
      | some a => (p.stroke, a)
    let next := if p.inHeat then max (p.heatStart + pPeriod p.bin) (p.adopted.getD (p.heat + 1) 0) else p.nextHeat
    (if p.inHeat && !p.late then [here] else []) ++
      (if p.st = 2 ∧ (pHeatCount p.bin = 0 ∨ p.heat + 1 < pHeatCount p.bin) then [(0, next)] else [])

/-- The openings of the reserved windows at a port that a plan still has before it, as far as their strokes' starts are known
(R307, R313, notes/assumptions/181.md). -/
def PlanSlot.openings (p : PlanSlot) (port : Nat) : List (Nat × Bool) :=
  p.ahead.flatMap fun k => (planEntries p.bin).filterMap fun e =>
    let x := pEntry p.bin e.2
    let present := p.inHeat && p.strokeStart.isSome && k.1 == p.stroke && e.1 == p.stroke && some k.2 == p.strokeStart
    if peType x = 1 ∧ pePort x = port ∧ k.1 ≤ e.1 ∧ !(present && p.fired.has e.2) then
      some (k.2 + (e.1 - k.1) * pPitch p.bin + peOffset x, present)
    else none

/-- The opening of the next reserved window at a port (R223): one of the present stroke that has not opened yet, or one to
come. -/
def State.nextWindow (s : State) (port : Nat) : Option Nat :=
  let l := ((s.plans.flatMap fun p => p.2.openings port).filter fun o => o.2 || !earlier o.1 s.nowNs).map (·.1)
  match l with
  | [] => none
  | t :: rest => some (rest.foldl (fun a b => if earlier b a then b else a) t)

end Sys2Proof.Machine
end

