-- ==== Sys2Proof/Machine/Tms.lean ====
section
/-!
DEFINITION. Output queues, shapers, policers, the egress scheduler and the histograms (R217 to R232, R553), and the
delay estimate (R201).
-/

namespace Sys2Proof.Machine

/-! ### Ports and classes -/

/-- The state with the switch core changed. -/
def State.onSwc (s : State) (f : SwcState → SwcState) : State := { s with swc := f s.swc }

def State.portSt (s : State) (p : Nat) : PortState := s.swc.ports.getD p {}
def State.setPortSt (s : State) (p : Nat) (x : PortState) : State :=
  s.onSwc fun c => { c with ports := c.ports.put p x }

def State.outq (s : State) (q : Nat) : OutQ := s.swc.queues.getD q {}
def State.setOutq (s : State) (q : Nat) (x : OutQ) : State :=
  s.onSwc fun c => { c with queues := c.queues.put q x }

/-- Internal classes: 0 T, 1 C, 2 N, 3 B (R55, `TMS.CLASS_MAP`). -/
def State.tcClass (s : State) (port tc : Nat) : Nat :=
  bitsOf (s.fld Reg.TMS_CLASS_MAP_CLASS port) (2 * tc) 2

/-- The class of an output queue (R218). -/
def State.queueClass (s : State) (q : Nat) : Nat := s.tcClass (q / 8) (q % 8)

/-- The wire length of a frame whose bytes are given without the FCS: L + 20, L with the FCS. -/
def wireLen (frame : Bytes) : Nat := frame.length + 4 + 20

/-- Lanes of a fabric port (R161, R175): of a port group by BREAKOUT, of an octet by PORT_WIDTH. -/
def State.portLanes (s : State) (p : Nat) : Nat :=
  if p < 512 then 16 / 2 ^ s.fld Reg.OPT_PG_CFG_BREAKOUT (p / 8)
  else 2 ^ s.fld Reg.ELN_OCT_CFG_PORT_WIDTH ((p - 512) / 8)

/-- The speed of a fabric port in Mb/s: 200,000 for each optical lane; 50,000, 100,000 or 200,000 for each electrical
one (R157, R161, R175). -/
def State.portMbps (s : State) (p : Nat) : Nat :=
  if p < 512 then 200000 * s.portLanes p
  else match s.fld Reg.ELN_OCT_CFG_RATE ((p - 512) / 8) with
    | 1 => 50000 * s.portLanes p
    | 2 => 100000 * s.portLanes p
    | 3 => 200000 * s.portLanes p
    | _ => 0

/-- A shaper's rate: one above the port speed acts as the port speed. -/
def State.queueRate (s : State) (q : Nat) : Nat := min (s.fld Reg.TMS_SHP_RATE_RATE_MBPS q) (s.portMbps (q / 8))
def State.queueWeight (s : State) (q : Nat) : Nat := max 1 (s.fld Reg.TMS_SHP_RATE_WEIGHT q)

/-- A queue's burst in units of 2⁻¹⁰ byte; 0 acts as 1 sett (R226). -/
def State.queueBurst (s : State) (q : Nat) : Nat := max (s.fld Reg.TMS_SHP_BURST_BURST q) 1 * 262144

/-- A queue's depth in setts. -/
def OutQ.depth (x : OutQ) : Nat := sumOf (x.deps.map fun d => settCount (d.frame.length + 4))

/-! ### Refill (R220, R225, R553) -/

/-- The increment of one refill at a rate in Mb/s, in units of 2⁻¹⁰ byte, and the new remainder. -/
def refillStep (rate rem : Nat) : Nat × Nat := ((4096 * rate + rem) / 125, (4096 * rate + rem) % 125)

/-- One shaper's refill. -/
def State.refillQueue (s : State) (q : Nat) : State :=
  let x := s.outq q
  let (inc, r) := refillStep (s.queueRate q) x.rem
  s.setOutq q { x with credit := min (x.credit + inc) (s.queueBurst q), rem := r }

def State.policer (s : State) (p : Nat) : Policer := s.swc.policers.getD p {}
def State.setPolicer (s : State) (p : Nat) (x : Policer) : State :=
  s.onSwc fun c => { c with policers := c.policers.put p x }

/-- A policer's burst in units of 2⁻¹⁰ byte. -/
def polBurst (setts : Nat) : Nat := max setts 1 * 262144

/-- One policer's refill. -/
def State.refillPolicer (s : State) (p : Nat) : State :=
  let x := s.policer p
  let (ic, rc) := refillStep (s.fld Reg.TMS_POL_CIR_CIR_MBPS p) x.rc
  let (ip, rp) := refillStep (s.fld Reg.TMS_POL_PIR_PIR_MBPS p) x.rp
  s.setPolicer p { tc := min (x.tc + ic) (polBurst (s.fld Reg.TMS_POL_BURST_CBS p)), rc := rc,
                   tp := min (x.tp + ip) (polBurst (s.fld Reg.TMS_POL_BURST_PBS p)), rp := rp }

/-- A refill of every shaper and policer bucket. A queue or policer that is not listed holds its full burst. -/
def State.refill (s : State) : State :=
  let s1 := (s.swc.queues.map (·.1)).foldl (fun s q => s.refillQueue q) s
  (s1.swc.policers.map (·.1)).foldl (fun s p => s.refillPolicer p) s1

/-- A policer is enabled: both buckets are filled and the remainders cleared (R221, R553). -/
def State.policerEnable (s : State) (p : Nat) : State :=
  s.setPolicer p { tc := polBurst (s.fld Reg.TMS_POL_BURST_CBS p), tp := polBurst (s.fld Reg.TMS_POL_BURST_PBS p) }

/-- The colour of a packet of wire length `w` (R220). -/
def State.police (s : State) (p w : Nat) : Colour × State :=
  let x := s.policer p
  if !s.flag Reg.TMS_POL_CFG_ENABLE p then (.green, s)
  else if x.tp < w * 1024 then (.red, s)
  else if x.tc < w * 1024 then (.yellow, s.setPolicer p { x with tp := x.tp - w * 1024 })
  else (.green, s.setPolicer p { x with tp := x.tp - w * 1024, tc := x.tc - w * 1024 })

/-! ### Enqueue -/

/-- The virtual time of a queue's class at its port. -/
def State.virtualTime (s : State) (q : Nat) : Rat :=
  let p := s.portSt (q / 8)
  if s.queueClass q = 0 then p.vT else p.vC

/-- The head of a class T or C queue takes its tags (R228). -/
def State.tagHead (s : State) (q : Nat) (x : OutQ) : OutQ :=
  match x.deps with
  | [] => x
  | d :: _ =>
    let st := max (s.virtualTime q) x.finishTag
    { x with startTag := st, finishTag := st + (wireLen d.frame : Rat) / (s.queueWeight q : Rat) }

/-- A departure joins its queue (R228). -/
def State.enqueue (s : State) (q : Nat) (d : Dep) : State :=
  let x := s.outq q
  let d := { d with at_ := s.time.ticks }
  let y := { x with deps := x.deps ++ [d] }
  if x.deps.isEmpty then
    s.setOutq q (if s.queueClass q ≤ 1
      then s.tagHead q { y with eligible := max y.eligible (s.uptimeNs : Rat) } else y)
  else s.setOutq q y

/-! ### Histograms (R230) -/

/-- The histogram bin of a value in units of 2^shift. -/
def histBin (value shift : Nat) : Nat :=
  let v := value / 2 ^ shift
  if v = 0 then 0 else min 15 (Nat.log2 v + 1)

/-- One sample of a queue's depth (kind 0) or delay (kind 1) histogram. -/
def State.histSample (s : State) (q kind value : Nat) : State :=
  let shift := if kind = 0 then s.fld Reg.TMS_HIST_CFG_DEPTH_SHIFT else s.fld Reg.TMS_HIST_CFG_DELAY_SHIFT
  s.bump Reg.TMS_HIST_VALUE_VALUE (q + kind * 2 ^ 13 + histBin value shift * 2 ^ 14)

/-- Every bin of both histograms of a queue is cleared. -/
def State.histClear (s : State) (q : Nat) : State :=
  (List.range 32).foldl (fun s i => s.setFld Reg.TMS_HIST_VALUE_VALUE (q + i * 2 ^ 13) 0) s

/-- Every histogram is cleared: no bin stays listed (R231). -/
def State.histClearAll (s : State) : State :=
  { s with regs := { s.regs with live := s.regs.live.filter fun p => !(p.1.blk == .tms && p.1.off == 0x314) } }

/-- The 1 µs depth sample of every queue. -/
def State.histDepthAll (s : State) : State :=
  (List.range 4608).foldl (fun s q => s.histSample q 0 (s.outq q).depth) s

/-! ### The egress scheduler (R222 to R228) -/

/-- Time on the wire of a frame at a port in ns, rounded up. -/
def State.wireNs (s : State) (port : Nat) (frame : Bytes) : Nat :=
  if s.portMbps port = 0 then 0 else (wireLen frame * 8000 + s.portMbps port - 1) / s.portMbps port

/-- A queue holds a frame its scheduler may start: shaper credit for classes N and B, eligibility time for T and C, a
rate other than 0 (R225, R226, R228). -/
def State.shaped (s : State) (q : Nat) : Bool :=
  let x := s.outq q
  !x.deps.isEmpty && s.queueRate q != 0 &&
    (if s.queueClass q ≤ 1 then decide (x.eligible ≤ (s.uptimeNs : Rat)) else decide (0 < x.credit))

/-- The head frame ends at or before the next reserved window opens (R223). -/
def State.fitsWindow (s : State) (port q : Nat) : Bool :=
  match s.nextWindow port, (s.outq q).deps with
  | some t, d :: _ => !earlier t (s.nowNs + s.wireNs port d.frame)
  | _, _ => true

/-- A launch time not reached yet keeps the frame from starting (R468). -/
def State.launchable (s : State) (q : Nat) : Bool :=
  match (s.outq q).deps with
  | d :: _ => match d.launch with
    | some t => s.reached t
    | none => true
  | [] => false

/-- The queue may send now: class T through its gate (R222), the others before the next window (R223). -/
def State.eligibleQ (s : State) (q : Nat) : Bool :=
  let p := s.portSt (q / 8)
  s.shaped q && s.launchable q &&
    (if s.queueClass q = 0 then p.gates.isEmpty || (q ∈ p.window) else s.fitsWindow (q / 8) q)

/-- Eligible queues of a class at a port, lowest first. -/
def State.eligibleOf (s : State) (port cls : Nat) : List Nat :=
  ((List.range 8).map (port * 8 + ·)).filter fun q => s.queueClass q == cls && s.eligibleQ q

/-- The queue with the smallest finish tag, the lowest number first among equals (R228). -/
def State.smallestTag (s : State) : List Nat → Option Nat
  | [] => none
  | q :: qs => match s.smallestTag qs with
    | some b => if (s.outq b).finishTag < (s.outq q).finishTag then some b else some q
    | none => some q

/-- Bytes that the head of a queue needs (R227). -/
def State.drrNeed (s : State) (q : Nat) : Int :=
  match (s.outq q).deps with
  | d :: _ => (wireLen d.frame : Int)
  | [] => 0

/-- The quantum of a queue. -/
def State.drrQuantum (s : State) (q : Nat) : Int := ((s.queueWeight q * 1024 : Nat) : Int)

/-- The rounds, from 1 on, after which a queue's deficit covers its head. -/
def State.drrRounds (s : State) (q : Nat) : Nat :=
  max 1 ((s.drrNeed q - (s.outq q).deficit + s.drrQuantum q - 1) / s.drrQuantum q).toNat

/-- A number of quanta is added to a queue's deficit. -/
def State.drrGive (s : State) (q n : Nat) : State :=
  s.setOutq q { s.outq q with deficit := (s.outq q).deficit + s.drrQuantum q * (n : Int) }

/-- Deficit round robin (R227): the queue served last goes on while its deficit lasts; else the eligible queues add their quanta
in turn, from the one after it on and round after round, until one's deficit covers its head. -/
def State.drr (s : State) (elig : List Nat) (last : Nat) : Option (Nat × State) :=
  if last ∈ elig ∧ s.drrNeed last ≤ (s.outq last).deficit then some (last, s)
  else
    let order := ((List.range 8).map fun i => last / 8 * 8 + (last % 8 + 1 + i) % 8).filter (elig.contains ·)
    let rounds := order.map s.drrRounds
    let r := minOf (rounds.head?.getD 1) rounds
    match order.findIdx? fun q => s.drrRounds q == r with
    | none => none
    | some i =>
      some (order.getD i last,
        (order.mapIdx fun j q => (q, if j ≤ i then r else r - 1)).foldl (fun s p => s.drrGive p.1 p.2) s)

/-- The class N or B queue that deficit round robin selects among some queues. -/
def State.selectDrr (s : State) (port cls : Nat) (elig : List Nat) : Option (Nat × State) :=
  let p := s.portSt port
  s.drr elig (port * 8 + (if cls = 2 then p.lastN else p.lastB))

/-- Strict priority T, C, N, B among the eligible queues that `ok` admits (R222): the class and the queue selected, with the
round-robin places brought up to date. -/
def State.byClass (s : State) (port : Nat) (ok : Nat → Bool) : Option (Nat × Nat × State) :=
  let of := fun cls => (s.eligibleOf port cls).filter ok
  let p := s.portSt port
  match s.smallestTag (of 0) with
  | some q => some (0, q, s)
  | none =>
    match s.smallestTag (of 1) with
    | some q => some (1, q, s)
    | none =>
      match s.selectDrr port 2 (of 2) with
      | some (q, s1) => some (2, q, s1.setPortSt port { p with lastN := q % 8 })
      | none =>
        match s.selectDrr port 3 (of 3) with
        | some (q, s1) => some (3, q, s1.setPortSt port { p with lastB := q % 8 })
        | none => none

/-- The eligible queue below a class whose head has waited longest (R57). -/
def State.oldestBelow (s : State) (port cls : Nat) : Option Nat :=
  let cand := ((List.range 8).map (port * 8 + ·)).filter fun q => decide (cls < s.queueClass q) && s.eligibleQ q
  cand.foldl (fun b q => match b with
    | none => some q
    | some c =>
      match (s.outq q).deps, (s.outq c).deps with
      | d :: _, e :: _ => if d.at_ < e.at_ then some q else some c
      | _, _ => some c) none

/-- The queue that sends next at a port, with the grant count of the starvation guard and round-robin places brought up
to date (R222 to R228): the queues that an open reserved window names come first. -/
def State.selectQueue (s : State) (port : Nat) : Option (Nat × State) :=
  let p := s.portSt port
  match s.byClass port fun q => p.window.contains q with
  | some (_, q, s1) => some (q, s1)
  | none =>
    match s.byClass port fun _ => true with
    | none => none
    | some (0, q, s1) => some (q, s1)
    | some (cls, q, s1) =>
      match (if cls ≤ 2 then s.oldestBelow port cls else none) with
      | some low =>
        if 1024 ≤ p.passed then some (low, s.setPortSt port { p with passed := 0 })
        else some (q, s1.setPortSt port { s1.portSt port with passed := p.passed + 1 })
      | none => some (q, s1.setPortSt port { s1.portSt port with passed := 0 })

/-- The head of a queue leaves it at the present time (R225, R227, R228, R230): credit, deficit, tags, the delay
histogram and the port's sojourn sample. -/
def State.departQ (s : State) (q : Nat) : Option (Dep × State) :=
  let x := s.outq q
  match x.deps with
  | [] => none
  | d :: rest =>
    let w := wireLen d.frame
    let port := q / 8
    let cls := s.queueClass q
    let soj := nsOfTicks (s.time.ticks - d.at_)
    let y := { x with deps := rest, credit := x.credit - (w * 1024 : Nat)
                      deficit := if rest.isEmpty then 0 else if 2 ≤ cls then x.deficit - (w : Int) else x.deficit }
    let p := s.portSt port
    let s1 :=
      if cls ≤ 1 then
        let e := max x.eligible (s.uptimeNs : Rat) + (if s.queueRate q = 0 then 0 else (w * 8000 : Nat) / (s.queueRate q : Rat))
        let p1 := if cls = 0 then { p with vT := x.startTag } else { p with vC := x.startTag }
        let s0 := s.setPortSt port { p1 with sojourn := some soj }
        s0.setOutq q (s0.tagHead q { y with eligible := e, credit := x.credit })
      else (s.setPortSt port { p with sojourn := some soj }).setOutq q y
    some (d, s1.histSample q 1 soj)

/-- A queue changes class at a commit boundary (R219). -/
def State.reclass (s : State) (q : Nat) : State :=
  let x := s.outq q
  if s.queueClass q ≤ 1 then
    s.setOutq q (s.tagHead q { x with finishTag := s.virtualTime q, eligible := (s.uptimeNs : Rat) })
  else s.setOutq q { x with credit := 0 }

/-! ### Delay estimates (R201) -/

/-- Link-level retry runs at a port: it is enabled, and the neighbour's INIT has been seen (R248). -/
def State.llrRuns (s : State) (p : Nat) : Bool := s.flag Reg.TPT_LLR_CFG_ENABLE p && (s.swc.llr.getD p {}).active

/-- One 1 µs update of a port's delay estimate: D + ((256·s − D) >> 3), never negative, its whole part at most 65,535. `far` is
the far-end part of its sample. -/
def PortState.updateDelay (p : PortState) (far : Nat) : PortState :=
  let smp := p.sojourn.getD 0 + far
  let d : Int := (p.delay : Int) + (256 * (smp : Int) - (p.delay : Int)) / 8
  { p with delay := min d.toNat 16777215, sojourn := none }

/-! ### Meanings -/

/-- HIST_DEPTH_SAMPLE (R230). -/
def execHistDepthSample (s : State) : Host.Outcome State Fault Refusal := .next (s.inCore fun s => s.histDepthAll)

/-- TMS_HIST_CLR (R231). -/
def execTmsHistClr (v : View) (w : Word) (s : State) : Host.Outcome State Fault Refusal :=
  .next (s.selClear v .tms 0x310 w fun sel s =>
    if bitsOf sel 0 13 < 4608 then s.histClear (bitsOf sel 0 13) else s)

/-- DELAY_ESTIMATE_UPDATE (R201). -/
def execDelayEstimateUpdate (s : State) : Host.Outcome State Fault Refusal :=
  .next (s.inCore fun s => s.onSwc fun c => { c with
    ports := c.ports.map fun p => (p.1, p.2.updateDelay (if s.llrRuns p.1 then p.2.far else 0)) })

end Sys2Proof.Machine
end

