-- ==== Sys2Proof/Machine/Lsc.lean ====
section
/-!
DEFINITION. Key derivation (R435), link protection with MACsec (R439 to R441) and the key exchange (R442 to R448).
-/

namespace Sys2Proof.Machine

/-! ### Key derivation -/

/-- The ASCII bytes of a label. -/
def ascii (t : String) : Bytes := t.toList.map fun c => BitVec.ofNat 8 c.toNat

/-- KDF(K, S, X, L) = KMAC256(K, X, L, S), L in bytes (R435). -/
def kdf (k : Bytes) (label : String) (x : Bytes) (n : Nat) : Bytes := Config.kmac k (ascii label) x n

/-- `n` fresh bytes of the random source (R434). -/
def State.freshBytes (s : State) (n : Nat) : Bytes × State :=
  let (v, s1) := s.fresh
  (bytesBE n v, s1)

/-- Links as `LSC.STAT_SEL.LINK` numbers them: 0–575 fabric ports, 576–591 line groups. -/
def isLineLink (l : Nat) : Bool := decide (576 ≤ l)

/-- The LINK part of a link identity. -/
def linkField (l : Nat) : Nat := if isLineLink l then 0x8000 + (l - 576) else l

/-- This device's identity on a link: SERIAL, LINK. -/
def linkIdentity (l : Nat) : Bytes := bytesBE 8 Config.serial ++ bytesBE 2 (linkField l)

/-- K_LINK of a direction: 32 bytes of key and 12 of salt. -/
def kLink (sender receiver : Bytes) (epoch : Nat) (ni nr : Bytes) : Bytes :=
  kdf Config.fleetRoot "NT5120 LINK" (sender ++ receiver ++ bytesBE 4 epoch ++ ni ++ nr) 44

/-- The CHECK field over the first 96 bytes of a key-exchange message. -/
def kexCheck (head : Bytes) : Bytes :=
  Config.kmac (kdf Config.fleetRoot "NT5120 KEX" [] 32) (ascii "NT5120 KEX MSG") head 32

/-- A key-exchange message (R442). -/
def kexMsg (gen typ reason epoch link : Nat) (ni nr : Bytes) : Bytes :=
  let head := bytesBE 1 typ ++ bytesBE 1 gen ++ bytesBE 1 (epoch % 4) ++ bytesBE 1 reason ++ bytesBE 4 epoch ++
    linkIdentity link ++ zeros 14 ++ sliceB ni 0 32 ++ sliceB nr 0 32
  head ++ kexCheck head

def kType (m : Bytes) : Nat := getBE m 0 1
def kReason (m : Bytes) : Nat := getBE m 3 1
def kEpoch (m : Bytes) : Nat := getBE m 4 4
def kSender (m : Bytes) : Bytes := sliceB m 8 10
def kNonceI (m : Bytes) : Bytes := sliceB m 32 32
def kNonceR (m : Bytes) : Bytes := sliceB m 64 32
def kGood (m : Bytes) : Bool := sliceB m 96 32 == kexCheck (sliceB m 0 96)

/-! ### Links -/

def State.link (s : State) (l : Nat) : SecLink := s.lsc.getD l {}
def State.setLink (s : State) (l : Nat) (x : SecLink) : State := { s with lsc := s.lsc.put l x }

/-- A link's counter: 0 AUTH_FAIL, 1 REPLAY, 2 KEY_STALE, 3 KEX_BAD, 4 KEX_FAIL, 5 REKEYS. -/
def State.lscCount (s : State) (l c : Nat) : State := s.bump Reg.LSC_STAT_VALUE_VALUE (l + c * 1024)

/-- ENCRYPT of a link (R439, R441). -/
def State.encrypts (s : State) (l : Nat) : Bool :=
  if isLineLink l then s.flag Reg.SLF_GRP_CFG_ENCRYPT (l - 576) else s.flag Reg.LSC_PORT_CFG_ENCRYPT l

/-- A line group is suspended (`SLF.GRP_STATUS`). -/
def State.linkSuspended (s : State) (l : Nat) : Bool :=
  isLineLink l && s.flag Reg.SLF_GRP_STATUS_SUSPENDED (l - 576)

/-- `LSC.LINK_STATUS` and `LINK_EPOCH` follow the link: 0 PLAIN, 1 NEGOTIATING, 2 SECURE, 3 REKEYING, 4 KEX_FAIL. -/
def State.showLink (s : State) (l : Nat) : State :=
  let x := s.link l
  let secure := x.tx.isSome && x.rx.isSome
  let st := if x.failed then 4 else if x.kex.isSome then (if secure then 3 else 1) else if secure then 2
    else if s.encrypts l then 1 else 0
  (((s.setFld Reg.LSC_LINK_STATUS_STATE l st).setFld Reg.LSC_LINK_STATUS_TX_AN l ((x.tx.map Assoc.an).getD 0)).setFlag
    Reg.LSC_LINK_STATUS_PREV l x.prev.isSome).setFld Reg.LSC_LINK_EPOCH_EPOCH l x.epoch

/-- A message is sent on a link: in a frame of a fabric port, or in a KEY body of a line group's stream (R442). -/
def State.kexSend (s : State) (l : Nat) (m : Bytes) : State :=
  if isLineLink l then
    let x := s.line.groups.getD (l - 576) {}
    { s with line := { s.line with groups := s.line.groups.put (l - 576) { x with keys := x.keys ++ [m] } } }
  else s.emit (.kex l m)

/-- An exchange starts with an OFFER for an epoch (R443 step 1). -/
def State.kexStart (s : State) (l epoch : Nat) : State :=
  if s.linkSuspended l then s.setLink l { s.link l with due := true }
  else
    let (ni, s1) := s.freshBytes 32
    let m := kexMsg s.ownGen 1 0 epoch l ni []
    let x := s1.link l
    ((s1.setLink l { x with due := false, kex := some { initiator := true, epoch := epoch, nonceI := ni, msg := m },
                            failed := false }).kexSend l m).showLink l

/-- An exchange for the next epoch starts where the link needs one and none runs (R445). -/
def State.kexNext (s : State) (l : Nat) : State :=
  let x := s.link l
  if s.encrypts l && x.kex.isNone then s.kexStart l (x.epoch + 1) else s

/-- A link that comes up starts its first exchange (R444, R445). -/
def State.linkFresh (s : State) (l : Nat) : State :=
  if s.encrypts l then (s.setLink l { epoch := (s.link l).epoch }).kexNext l else s

/-- Both associations and any exchange of a link are dropped (R447, R448). -/
def State.linkDrop (s : State) (l : Nat) : State := (s.setLink l { epoch := (s.link l).epoch }).showLink l

/-- A new receive association: the current one becomes the previous one, and one before that is retired (R446). -/
def SecLink.installRx (x : SecLink) (a : Assoc) : SecLink :=
  { x with
    prev := x.rx, rx := some a, rxUsed := false
    retired := without (match x.prev with
      | some p => withElem x.retired p.an
      | none => x.retired) a.an }

/-- Transmission switches to a new association, which begins its epoch (R443 steps 3 and 4) under the REKEY_S of that
moment (R460). -/
def SecLink.switchTx (x : SecLink) (a : Assoc) (epoch rekey : Nat) : SecLink :=
  { x with tx := some a, txNext := none, epoch := epoch, first := false, kex := none, failed := false, rekey := rekey }

/-- An OFFER that passes its checks is answered with an ACCEPT (R443 step 2). -/
def State.kexAccept (s : State) (l : Nat) (m : Bytes) : State :=
  let (nr, s1) := s.freshBytes 32
  let e := kEpoch m
  let ni := kNonceI m
  let me := linkIdentity l
  let rx : Assoc := { an := e % 4, key := kLink (kSender m) me e ni nr }
  let tx : Assoc := { an := e % 4, key := kLink me (kSender m) e ni nr }
  let out := kexMsg s.ownGen 2 0 e l ni nr
  let x := (s1.link l).installRx rx
  ((s1.setLink l { x with
    txNext := some tx
    kex := some { initiator := false, epoch := e, nonceI := ni, nonceR := nr, peer := kSender m, msg := out }
    failed := false }).kexSend l out).showLink l

/-- An OFFER arrives (R443, R444, R446). -/
def State.kexOffer (s : State) (l : Nat) (m : Bytes) : State :=
  let x := s.link l
  let repeated := match x.kex with
    | some k => !k.initiator && k.epoch == kEpoch m && k.nonceI == kNonceI m
    | none => false
  let mineFirst := match x.kex with
    | some k => k.initiator && k.epoch == kEpoch m && decide (natBE (linkIdentity l) < natBE (kSender m))
    | none => false
  if repeated then match x.kex with
    | some k => s.kexSend l k.msg
    | none => s
  else if mineFirst then s
  else if x.prev.isSome then s.kexSend l (kexMsg s.ownGen 4 1 x.epoch l (kNonceI m) [])
  else if !x.first && kEpoch m != x.epoch + 1 then s.kexSend l (kexMsg s.ownGen 4 2 x.epoch l (kNonceI m) [])
  else s.kexAccept l m

/-- An ACCEPT arrives (R443 step 3); a repeated one receives the same CONFIRM (R444). -/
def State.kexAccepted (s : State) (l : Nat) (m : Bytes) : State :=
  let x := s.link l
  match x.kex with
  | some k =>
    if k.initiator && k.epoch == kEpoch m && k.nonceI == kNonceI m then
      let me := linkIdentity l
      let e := k.epoch
      let rx : Assoc := { an := e % 4, key := kLink (kSender m) me e k.nonceI (kNonceR m) }
      let tx : Assoc := { an := e % 4, key := kLink me (kSender m) e k.nonceI (kNonceR m) }
      let out := kexMsg s.ownGen 3 0 e l k.nonceI (kNonceR m)
      ((((s.setLink l { (x.installRx rx).switchTx tx e (s.fld Reg.LSC_KEY_CFG_REKEY_S) with lastConfirm := out }).kexSend l out).lscCount l 5).showLink l)
    else s
  | none =>
    if kEpoch x.lastConfirm == kEpoch m && kNonceI x.lastConfirm == kNonceI m && kNonceR x.lastConfirm == kNonceR m
        && !x.lastConfirm.isEmpty
    then s.kexSend l x.lastConfirm else s

/-- The responder switches its transmission (R443 step 4). -/
def State.kexSwitch (s : State) (l : Nat) : State :=
  let x := s.link l
  match x.kex, x.txNext with
  | some k, some a =>
    if k.initiator then s else ((s.setLink l (x.switchTx a k.epoch (s.fld Reg.LSC_KEY_CFG_REKEY_S))).lscCount l 5).showLink l
  | _, _ => s

/-- A CONFIRM arrives. -/
def State.kexConfirm (s : State) (l : Nat) (m : Bytes) : State :=
  match (s.link l).kex with
  | some k =>
    if !k.initiator && k.epoch == kEpoch m && k.nonceI == kNonceI m && k.nonceR == kNonceR m then s.kexSwitch l else s
  | none => s

/-- A REJECT arrives (R444, R446): EPOCH starts again with a larger epoch; BUSY is tried again after 1 ms, by the
resend. -/
def State.kexReject (s : State) (l : Nat) (m : Bytes) : State :=
  let x := s.link l
  match x.kex with
  | some k =>
    if k.initiator && k.nonceI == kNonceI m then
      if kReason m = 2 then s.kexStart l (max x.epoch (kEpoch m) + 1)
      else s.setLink l { x with kex := some { k with sends := 0 } }
    else s
  | none => s

/-- An unanswered OFFER or ACCEPT is sent again; after 8 sends the exchange ends (R444). -/
def State.kexResend (s : State) (l : Nat) : State :=
  let x := s.link l
  match x.kex with
  | some k =>
    if k.sends < 8 then (s.setLink l { x with kex := some { k with sends := k.sends + 1 } }).kexSend l k.msg
    else
      (((s.setLink l { x with kex := none, txNext := none, failed := true }).lscCount l 4).raise Ev.LINK_KEX_FAIL l
        k.epoch).showLink l
  | none => s

/-- The previous receive association is retired (R446, R420). -/
def State.retirePrev (s : State) (l : Nat) : State :=
  let x := s.link l
  match x.prev with
  | some a => (s.setLink l { x with prev := none, retired := withElem x.retired a.an }).showLink l
  | none => s

/-- A received key-exchange message with its checks before it is acted on (R442, R444). -/
def State.kexReceive (s : State) (l typ : Nat) (m : Bytes) (act : State → State) : State :=
  if 592 ≤ l || !s.encrypts l then s
  else if kType m != typ || !kGood m then s.lscCount l 3
  else act s

/-- A key-exchange message that a line group's stream carried (R442). -/
def State.kexMessage (s : State) (l : Nat) (m : Bytes) : State :=
  s.kexReceive l (if 1 ≤ kType m ∧ kType m ≤ 4 then kType m else 0) m fun s => match kType m with
    | 1 => s.kexOffer l m
    | 2 => s.kexAccepted l m
    | 3 => s.kexConfirm l m
    | _ => s.kexReject l m

/-! ### MACsec (R439, R440) -/

/-- The 96-bit nonce: the salt exclusive-or SSCI 1 and the 64-bit PN. -/
def macsecNonce (key : Bytes) (pn : Nat) : Bytes :=
  bytesBE 12 (natBE (sliceB key 32 12) ^^^ (2 ^ 64 + pn % 2 ^ 64))

/-- The SecTAG with its EtherType: TCI with ES, E and C set and AN, SL, and the low 32 bits of PN. -/
def secTag (an pn len : Nat) : Bytes :=
  bytesBE 2 0x88E5 ++ bytesBE 1 (0x4C + an % 4) ++ bytesBE 1 (if len < 48 then len else 0) ++ bytesBE 4 pn

/-- A frame leaves under the link's transmit association; none without one. Reaching PN 2⁶² starts an exchange. -/
def State.macsecSeal (s : State) (port : Nat) (frame : Bytes) : Option (Bytes × State) :=
  let x := s.link port
  match x.tx with
  | none => none
  | some a =>
    let tag := secTag a.an a.pn (frame.length - 12)
    let head := sliceB frame 0 12 ++ tag
    let body := Config.gcmSeal (sliceB a.key 0 32) (macsecNonce a.key a.pn) head (frame.drop 12)
    let s1 := s.setLink port { x with tx := some { a with pn := a.pn + 1 } }
    some (head ++ body, if a.pn + 1 = 2 ^ 62 then s1.kexNext port else s1)

/-- The 64-bit PN nearest the highest received whose low 32 bits are given. -/
def recoverPn (highest low : Nat) : Nat :=
  let base := highest / 2 ^ 32 * 2 ^ 32 + low
  if base + 2 ^ 31 < highest then base + 2 ^ 32 else if highest + 2 ^ 31 < base ∧ 2 ^ 32 ≤ base then base - 2 ^ 32 else base

/-- A PN may be accepted: not below the replay window (R439, R440); a window of 0 is strict order. -/
def Assoc.fresh (a : Assoc) (win pn : Nat) : Bool :=
  decide (a.pn ≤ pn + win) && decide (0 < pn)

/-- The association after a PN has been accepted; its `pn` is one above the highest received. -/
def Assoc.note (a : Assoc) (pn : Nat) : Assoc := { a with pn := max a.pn (pn + 1) }

/-- What a received frame gives on a port with ENCRYPT 1: the plain frame, or nothing with a counter raised. -/
def State.macsecOpen (s : State) (port : Nat) (frame : Bytes) : Option Bytes × State :=
  let x := s.link port
  let an := getBE frame 14 1 % 4
  if getBE frame 12 2 != 0x88E5 then (none, s.lscCount port 0)
  else
    let isRx := x.rx.any fun a => a.an == an
    let isPrev := x.prev.any fun a => a.an == an
    match (if isRx then x.rx else if isPrev then x.prev else none) with
    | none => (none, s.lscCount port (if an ∈ x.retired then 2 else 0))
    | some a =>
      let pn := recoverPn a.pn (getBE frame 16 4)
      match Config.gcmOpen (sliceB a.key 0 32) (macsecNonce a.key pn) (sliceB frame 0 20) (frame.drop 20) with
      | none => (none, s.lscCount port 0)
      | some plain =>
        let win := s.fld Reg.LSC_PORT_CFG_REPLAY_WIN port
        if !a.fresh win pn then (none, s.lscCount port 1)
        else
          let a1 := a.note pn
          let s1 := s.setLink port (if isRx then { x with rx := some a1, rxUsed := true } else { x with prev := some a1 })
          (some (sliceB frame 0 12 ++ plain), if isRx then s1.kexSwitch port else s1)

/-! ### Meanings -/

/-- KEX_OFFER (R443). -/
def execKexOffer (l : Nat) (m : Bytes) (s : State) : Host.Outcome State Fault Refusal :=
  .next (s.inCore fun s => s.kexReceive l 1 m fun s => s.kexOffer l m)

/-- KEX_ACCEPT (R443). -/
def execKexAccept (l : Nat) (m : Bytes) (s : State) : Host.Outcome State Fault Refusal :=
  .next (s.inCore fun s => s.kexReceive l 2 m fun s => s.kexAccepted l m)

/-- KEX_CONFIRM (R443). -/
def execKexConfirm (l : Nat) (m : Bytes) (s : State) : Host.Outcome State Fault Refusal :=
  .next (s.inCore fun s => s.kexReceive l 3 m fun s => s.kexConfirm l m)

/-- KEX_REJECT (R444). -/
def execKexReject (l : Nat) (m : Bytes) (s : State) : Host.Outcome State Fault Refusal :=
  .next (s.inCore fun s => s.kexReceive l 4 m fun s => s.kexReject l m)

/-- KEX_RESEND (R444). -/
def execKexResend (l : Nat) (s : State) : Host.Outcome State Fault Refusal := .next (s.inCore fun s => s.kexResend l)

/-- KEX_RETRY (R444). -/
def execKexRetry (l : Nat) (s : State) : Host.Outcome State Fault Refusal :=
  .next (s.inCore fun s => if (s.link l).failed then s.kexNext l else s)

/-- REKEY_TIMER (R445): REKEY_S as it was when the epoch began has passed (R460). -/
def execRekeyTimer (l : Nat) (s : State) : Host.Outcome State Fault Refusal :=
  .next (s.inCore fun s => if (s.link l).tx.isSome && (s.link l).rekey != 0 then s.kexNext l else s)

/-- FAB_GRACE_EXPIRE (R446). -/
def execFabGraceExpire (l : Nat) (s : State) : Host.Outcome State Fault Refusal :=
  .next (s.inCore fun s => if !isLineLink l && (s.link l).rxUsed then s.retirePrev l else s)

/-- LSC_STAT_CLR (R461). -/
def execLscStatClr (v : View) (w : Word) (s : State) : Host.Outcome State Fault Refusal :=
  .next (s.selClear v .lsc 0x100 w fun sel s =>
    if bitsOf sel 0 10 < 592 && bitsOf sel 10 4 < 6 then s.setFld Reg.LSC_STAT_VALUE_VALUE (bitsOf sel 0 14) 0 else s)

end Sys2Proof.Machine
end

