-- ==== Sys2Proof/Machine/Ports.lean ====
section
/-!
DEFINITION. Port links going up and down, which ports carry traffic (R49, R50, R204, R447), and which ports a packet
may be sent to (the definition before R200, R212, R440).
-/

namespace Sys2Proof.Machine

/-- The link of a fabric port is up. -/
def State.portUp (s : State) (p : Nat) : Bool := (s.portSt p).up

/-- A port carries traffic (the list before R49): an optical or electrical link is up, or a line group is in service. -/
def State.anyTraffic (s : State) : Bool :=
  (s.swc.ports.any fun p => p.2.up) || ((List.range 64).any fun l => s.fld Reg.ELN_LANE_STATUS_STATE l == 3) ||
    ((List.range 16).any fun g => s.fld Reg.SLF_GRP_STATUS_STATE g == 2)

/-- The applied floor and the core voltage set point (R49, R481). -/
def State.floorMv (s : State) : Nat := s.fld Reg.PWR_VFLOOR_STATUS_FLOOR_MV
def State.coreMv (s : State) : Nat := s.fld Reg.PWR_VFLOOR_STATUS_CORE_MV

/-- A die's P_C and the set point are announced to its engines (R485). -/
def State.heaterAnnounce (s : State) : State :=
  (({ s with power := { s.power with annBow := s.power.pcBow, annStern := s.power.pcStern } }.emit
    (.heater 0 s.power.pcBow s.coreMv))).emit (.heater 1 s.power.pcStern s.coreMv)

/-- The core voltage is raised to the applied floor before a link trains or comes up (R50). -/
def State.liftCore (s : State) : State :=
  if s.coreMv < s.floorMv then (s.setFld Reg.PWR_VFLOOR_STATUS_CORE_MV 0 s.floorMv).heaterAnnounce else s

/-- `TRAFFIC` follows the ports; the first link up finds the core voltage at or above the applied floor (R49, R50). -/
def State.showTraffic (s : State) : State :=
  let t := s.anyTraffic
  let s1 := s.setFlag Reg.PWR_VFLOOR_STATUS_TRAFFIC 0 t
  if t then s1.liftCore else s1

/-- A port's counter: 0 FORWARDED … 12 ECN_MARKED (`SWC.STAT_SEL`). -/
def State.swcCount (s : State) (port c : Nat) : State := s.bump Reg.SWC_STAT_VALUE_VALUE (port + c * 1024)

/-- Every departure queued at a port is released and counted as LINK_FLUSH (R204). -/
def State.flushPort (s : State) (p : Nat) : State :=
  ((List.range 8).map (p * 8 + ·)).foldl (fun s q =>
    let x := s.outq q
    x.deps.foldl (fun s d => (s.settFrees d.setts).swcCount p 7) (s.setOutq q { x with deps := [], deficit := 0 })) s

/-- Link-level retry forgets its numbering, and its holds are released (R248, R250). -/
def State.llrReset (s : State) (p : Nat) : State :=
  match s.swc.llr.find p with
  | none => s
  | some x => (x.held.foldl (fun s h => s.settFrees h.2.2) s).onSwc fun c => { c with llr := c.llr.del p }

/-- The lanes of an electrical port. -/
def State.elanes (s : State) (p : Nat) : List Nat := (List.range (s.portLanes p)).map (p - 512 + ·)

/-- A port's link goes down (R204, R447): queued departures are flushed and its associations dropped. -/
def State.linkDown (s : State) (p : Nat) : State :=
  if !s.portUp p then s
  else
    let s1 := s.setPortSt p { s.portSt p with up := false }
    let s2 :=
      if p < 512 then s1.setFld { Reg.OPT_PG_STATUS_PORTS_UP with lsb := 8 + p % 8, width := 1 } (p / 8) 0
      else (s1.elanes p).foldl (fun s l => s.setFld Reg.ELN_LANE_STATUS_STATE l 5) s1
    let s3 := (s2.flushPort p).llrReset p
    (if s3.encrypts p then s3.linkDrop p else s3).showTraffic

/-- A port's link comes up (R50, R445). -/
def State.portComesUp (s : State) (p : Nat) : State :=
  let s1 := s.setPortSt p { s.portSt p with up := true }
  let s2 :=
    if p < 512 then s1.setFld { Reg.OPT_PG_STATUS_PORTS_UP with lsb := 8 + p % 8, width := 1 } (p / 8) 1
    else (s1.elanes p).foldl (fun s l => s.setFld Reg.ELN_LANE_STATUS_STATE l 3) s1
  s2.showTraffic.linkFresh p

/-! ### Bypass and availability -/

/-- A live table record. -/
def State.tabRec (s : State) (code key : Nat) : Option Bytes := s.swc.tab.find (code, key)

/-- The port groups of a bypass-pair record (R198): COUNT bytes from 0x10. -/
def bpGroups (r : Bytes) : List Nat := (List.range (getLE r 0x0C 1)).map fun i => getLE r (0x10 + i) 1

/-- Port groups that are BYPASSED (R212): those that each entry marked at its catch. -/
def State.bypassedGroups (s : State) : List Nat := s.swc.bypassed.flatMap fun k => s.swc.bypassMarks.getD k []

/-- The port's group is bypassed. -/
def State.portBypassed (s : State) (p : Nat) : Bool := decide (p < 512) && (p / 8 ∈ s.bypassedGroups)

/-- A port is available: its link is up, its port group is not bypassed, and with ENCRYPT 1 it holds a transmit and a
receive association (R440). -/
def State.portAvail (s : State) (p : Nat) : Bool :=
  s.portUp p && !s.portBypassed p && !(s.flt.fenced.contains p) && (!s.encrypts p || ((s.link p).tx.isSome && (s.link p).rx.isSome))

end Sys2Proof.Machine
end

