-- ==== Sys2Proof/Machine/Switch.lean ====
section
/-!
DEFINITION. The switch core: parsing, local delivery, route lookup, spraying, pinning, multicast, policing, admission
and departure (R191 to R216, R466 to R468).
-/

namespace Sys2Proof.Machine

/-! ### Parsing (R191, R192) -/

/-- The layer-3 and layer-4 fields of a packet. -/
structure Parsed where
  /-- Offset of the layer-3 header. -/
  off : Nat
  v6 : Bool
  pcp : Option Nat
  dscp : Nat
  ecn : Nat
  hop : Nat
  src : Bytes
  dst : Bytes
  label : Nat
  proto : Nat
  /-- Source and destination ports of TCP or UDP, when present. -/
  ports : Option (Nat × Nat)
  deriving DecidableEq, Repr

/-- What the parser makes of a frame. -/
inductive Parse where
  /-- Dropped and counted as PARSE_ERR. -/
  | bad
  /-- Dropped and counted as NON_IP. -/
  | nonIp
  | time (pcp : Option Nat)
  | lldp (pcp : Option Nat)
  /-- An IP packet; `err` when it is also counted as PARSE_ERR. -/
  | ip (p : Parsed) (err : Bool)
  deriving DecidableEq, Repr

/-- The one's-complement sum of 16-bit words. -/
def onesSum : Bytes → Nat
  | a :: b :: t => a.toNat * 256 + b.toNat + onesSum t
  | [a] => a.toNat * 256
  | [] => 0

/-- A one's-complement sum folded to 16 bits. -/
def foldSum (n : Nat) : Nat :=
  let a := n % 65536 + n / 65536
  let b := a % 65536 + a / 65536
  b % 65536 + b / 65536

/-- After the tags: the EtherType's offset and the innermost PCP, or a tag the parser does not accept. -/
def parseTags (outer : Nat) (f : Bytes) : Option (Nat × Option Nat) :=
  let et := fun o => getBE f o 2
  let tag := fun o => et o = 0x8100 ∨ (outer ≠ 0 ∧ et o = outer)
  let pcp := fun o => some (getBE f (o + 2) 1 / 32)
  if outer ≠ 0 ∧ et 12 = outer ∧ et 16 = 0x8100 then
    if tag 20 then none else some (20, pcp 16)
  else if et 12 = 0x8100 then
    if tag 16 then none else some (16, pcp 12)
  else if tag 12 then none
  else some (12, none)

/-- The extension headers skipped: hop-by-hop, routing, fragment, destination options. -/
def isExt (p : Nat) : Bool := p ∈ [0, 43, 44, 60]

/-- Bytes of a frame that the parser reads: its first sett (R191). -/
def parseReach : Nat := 256

/-- IPv6 extension headers are skipped, at most `n` and only those whose fields the parser can read: the upper-layer protocol
or the last Next Header read, its offset, whether a fragment with an offset was seen, and whether the parse ended early
(R191, R192). -/
def skipExt (f : Bytes) : Nat → Nat → Nat → Bool → Nat × Nat × Bool × Bool
  | 0, p, o, fr => (p, o, fr, isExt p)
  | n + 1, p, o, fr =>
    if isExt p then
      if parseReach < o + (if p = 44 then 4 else 2) then (p, o, fr, true) else
      let len := if p = 44 then 8 else 8 * (getBE f (o + 1) 1 + 1)
      let fr := fr || (p == 44 && decide (getBE f (o + 2) 2 / 8 ≠ 0))
      skipExt f n (getBE f o 1) (o + len) fr
    else (p, o, fr, false)

/-- The layer-4 header of a packet that has one lies beyond the bytes the parser reads (R192); of TCP and UDP it needs the
ports. Protocol 59 has no header. -/
def l4Beyond (proto o : Nat) (frag : Bool) : Bool :=
  !frag && proto != 59 && decide (parseReach < o + (if proto = 6 ∨ proto = 17 then 4 else 1))

/-- Ports of TCP or UDP at an offset within the bytes the parser reads. -/
def l4Ports (f : Bytes) (proto o : Nat) (absent : Bool) : Option (Nat × Nat) :=
  if (proto = 6 ∨ proto = 17) ∧ !absent then some (getBE f o 2, getBE f (o + 2) 2) else none

/-- An IPv6 header at `o` (R192). -/
def parse6 (f : Bytes) (o : Nat) (pcp : Option Nat) : Parse :=
  if getBE f o 1 / 16 ≠ 6 ∨ f.length < o + 40 + getBE f (o + 4) 2 then .bad
  else
    let (proto, l4, frag, more) := skipExt f 2 (getBE f (o + 6) 1) (o + 40) false
    let err := more || l4Beyond proto l4 frag
    let tc := getBE f o 2 / 16 % 256
    .ip { off := o, v6 := true, pcp := pcp, dscp := tc / 4, ecn := tc % 4, hop := getBE f (o + 7) 1,
          src := sliceB f (o + 8) 16, dst := sliceB f (o + 24) 16, label := getBE f (o + 1) 3 % 2 ^ 20,
          proto := proto, ports := l4Ports f proto l4 (err || frag) } err

/-- An IPv4 header at `o` (R192). -/
def parse4 (f : Bytes) (o : Nat) (pcp : Option Nat) : Parse :=
  let ihl := getBE f o 1 % 16 * 4
  if getBE f o 1 / 16 ≠ 4 ∨ ihl < 20 ∨ f.length < o + ihl ∨ foldSum (onesSum (sliceB f o ihl)) ≠ 65535 then .bad
  else
    let proto := getBE f (o + 9) 1
    let l4 := o + ihl
    let frag := decide (getBE f (o + 6) 2 % 8192 ≠ 0)
    let err := l4Beyond proto l4 frag
    let tos := getBE f (o + 1) 1
    .ip { off := o, v6 := false, pcp := pcp, dscp := tos / 4, ecn := tos % 4, hop := getBE f (o + 8) 1,
          src := sliceB f (o + 12) 4, dst := sliceB f (o + 16) 4, label := 0, proto := proto,
          ports := l4Ports f proto l4 (err || frag) } err

/-- The parser (R191). -/
def parseFrame (outer : Nat) (f : Bytes) : Parse :=
  match parseTags outer f with
  | none => .bad
  | some (o, pcp) =>
    match getBE f o 2 with
    | 0x86DD => parse6 f (o + 2) pcp
    | 0x0800 => parse4 f (o + 2) pcp
    | 0x88F7 => .time pcp
    | 0x88CC => .lldp pcp
    | _ => .nonIp

/-! ### Traffic class (R217) -/

/-- The entry of a map register whose entries are 4 bits apart. -/
def State.mapEntry (s : State) (f : Fld) (port i : Nat) : Nat := s.fld { f with lsb := 4 * i, width := 3 } port

/-- The traffic class of a packet at an ingress port. -/
def State.trafficClass (s : State) (port : Nat) (pcp dscp : Option Nat) : Nat :=
  let dflt := s.fld Reg.TMS_MAP_CFG_DEFAULT_TC port
  match s.fld Reg.TMS_MAP_CFG_MODE port with
  | 0 => match pcp with
    | some p => s.mapEntry Reg.TMS_PCP_MAP_TC0 port p
    | none => dflt
  | 1 => match dscp with
    | some d => s.mapEntry (Reg.TMS_DSCP_MAP_TC0.nth (d / 8)) port (d % 8)
    | none => dflt
  | _ => dflt

/-! ### Local addresses and routes (R193 to R196) -/

/-- The keys of the live records of one table. -/
def State.tabKeys (s : State) (code : Nat) : List Nat := (s.swc.tab.filter fun p => p.1.1 == code).map (·.1.2)

/-- The live records of one table. -/
def State.tabRecs (s : State) (code : Nat) : List (Nat × Bytes) :=
  (s.swc.tab.filter fun p => p.1.1 == code).map fun p => (p.1.2, p.2)

/-- AF as a record gives it. -/
def afOf (v6 : Bool) : Nat := if v6 then 6 else 4

/-- The destination is one of the device's own addresses, or link-local scope multicast. -/
def State.isLocal (s : State) (p : Parsed) : Bool :=
  ((s.tabRecs 0x10).any fun r => getLE r.2 0x08 1 == afOf p.v6 && sliceB r.2 0x10 p.dst.length == p.dst) ||
  (if p.v6 then getBE p.dst 0 2 == 0xFF02 else getBE p.dst 0 3 == 0xE00000)

/-- The first `len` bits of an address as a number. -/
def prefixBits (a : Bytes) (len : Nat) : Nat := natBE a / 2 ^ (8 * a.length - len)

/-- A route record matches a destination. -/
def routeMatches (r : Bytes) (p : Parsed) : Bool :=
  getLE r 0x08 1 == afOf p.v6 &&
    prefixBits (sliceB r 0x10 p.dst.length) (getLE r 0x09 1) == prefixBits p.dst (getLE r 0x09 1)

/-- The next hop of the longest matching prefix. -/
def State.routeFor (s : State) (p : Parsed) : Option Nat :=
  let best := (s.tabRecs 0x11).foldl (fun b r =>
    if routeMatches r.2 p then match b with
      | some c => if getLE c 0x09 1 < getLE r.2 0x09 1 then some r.2 else some c
      | none => some r.2
    else b) (none : Option Bytes)
  best.map fun r => getLE r 0x0A 2

/-! ### Spraying and pinning (R200 to R203) -/

/-- One slot of a rotation: the running sums after it, and the member picked. -/
def rotStep (weights cur : List Nat) (shift total : Nat) : List Nat × Nat :=
  let c := List.zipWith (· + ·) cur weights
  let best := maxOf c
  let pick := (c.findIdx? fun x => x == best).getD 0
  (c.mapIdx fun i x => if i = pick then x + shift - total else x + shift, pick)

/-- fill_rotation: `n` slots, by member index. Running sums are kept with an offset, so that none is negative; only
their differences matter. -/
def fillRot (weights : List Nat) (total : Nat) : Nat → List Nat → List Nat
  | 0, _ => []
  | n + 1, cur =>
    let (c, pick) := rotStep weights cur total total
    pick :: fillRot weights total n (c.map fun x => x - minOf (c.head?.getD 0) c)

/-- Members of a spray group record: port and weight. -/
def sgMembers (r : Bytes) : List (Nat × Nat) :=
  (List.range (getLE r 0x08 1)).map fun i => (getLE r (0x10 + 4 * i) 2, getLE r (0x12 + 4 * i) 1)

/-- The rotation of 256 slots of some members, as ports. -/
def rotation (ms : List (Nat × Nat)) : List Nat :=
  match ms with
  | [] => []
  | _ => (fillRot (ms.map (·.2)) (sumOf (ms.map (·.2))) 256 (ms.map fun _ => 0)).map fun i => (ms.map (·.1)).getD i 0

/-- The member of the first slot from `i` on that is available. -/
def State.nextAvail (s : State) (rot : List Nat) (i : Nat) : Option Nat :=
  (rot.drop (i % 256) ++ rot.take (i % 256)).find? s.portAvail

/-- The cost of a member for a traffic class. -/
def State.sprayCost (s : State) (r : Bytes) (tc port : Nat) : Nat :=
  (s.outq (port * 8 + tc)).depth + min 65535 ((s.portSt port).delay / 256) / 2 ^ getLE r 0x09 1

/-- A pick of a member is counted (`SWC.SPRAY_PICKS`, wrapping). -/
def State.countPick (s : State) (g : Nat) (r : Bytes) (port : Nat) : State :=
  match (sgMembers r).findIdx? fun m => m.1 == port with
  | some i => s.bumpWrap Reg.SWC_SPRAY_PICKS_PICKS (g + i * 4096)
  | none => s

/-- choose_spray (R200) in ingress pipeline `pipe`. The LFSR's next value is an open value from 0 to 254. -/
def State.chooseSpray (s : State) (pipe g : Nat) (r : Bytes) (tc : Nat) : Option Nat × State :=
  let rot := rotation (sgMembers r)
  let p := s.swc.ptr.getD (pipe, g) 0
  let (x, s1) := s.fresh
  let s2 := s1.onSwc fun c => { c with ptr := c.ptr.put (pipe, g) ((p + 1) % 256) }
  match s2.nextAvail rot p, s2.nextAvail rot (p + 1 + x % 255) with
  | some a, some b =>
    let m := if s2.sprayCost r tc b < s2.sprayCost r tc a then b else a
    (some m, s2.countPick g r m)
  | _, _ => (none, s2)

/-- The flow hash of R202. -/
def flowHash (p : Parsed) : Nat :=
  crc32c (p.src ++ p.dst ++ (if p.v6 then bytesBE 3 p.label else []) ++ bytesBE 1 p.proto ++
    match p.ports with
    | some (a, b) => bytesBE 2 a ++ bytesBE 2 b
    | none => [])

/-- The bucket of a packet in a group. -/
def flowBucket (r : Bytes) (p : Parsed) : Nat := (flowHash p ^^^ getLE r 0x0C 4) % 256

/-- PRIMARY and FALLBACK of a bucket. -/
def pinPair (r : Bytes) (b : Nat) : Nat × Nat :=
  let ms := sgMembers r
  let prim := (rotation ms).getD b 0
  let rest := ms.filter fun m => m.1 != prim
  (prim, if rest.isEmpty then prim else (rotation rest).getD b 0)

/-- pin_flow (R203): the member of a bucket, with CUR inverted where its member is not available and the other is. -/
def State.pinFlow (s : State) (g : Nat) (r : Bytes) (p : Parsed) : Option Nat × State :=
  let b := flowBucket r p
  let (prim, fall) := pinPair r b
  let set := s.swc.cur.getD g []
  let one := b ∈ set
  let here := if one then fall else prim
  let other := if one then prim else fall
  if s.portAvail here then (some here, s.countPick g r here)
  else if s.portAvail other then
    let s1 := s.onSwc fun c => { c with cur := c.cur.put g (if one then without set b else withElem set b) }
    (some other, s1.countPick g r other)
  else (none, s)

/-! ### Admission (R208 to R210) -/

/-- The bytes of a frame with `data` in place from an offset on. -/
def patch (f : Bytes) (o : Nat) (data : Bytes) : Bytes := f.take o ++ data ++ f.drop (o + data.length)

/-- An IPv4 header's checksum is recomputed. -/
def fixSum (f : Bytes) (o : Nat) : Bytes :=
  let ihl := getBE f o 1 % 16 * 4
  let z := patch f (o + 10) (zeros 2)
  patch z (o + 10) (bytesBE 2 (65535 - foldSum (onesSum (sliceB z o ihl))))

/-- The packet marked CE, with its checksum updated. -/
def markCe (f : Bytes) (p : Parsed) : Bytes :=
  if p.v6 then patch f p.off (bytesBE 2 (getBE f p.off 2 ||| 0x30))
  else fixSum (patch f (p.off + 1) (bytesBE 1 (getBE f (p.off + 1) 1 ||| 3))) p.off

/-- Colour numbers: 0 green, 1 yellow, 2 red. -/
def Colour.code : Colour → Nat
  | .green => 0
  | .yellow => 1
  | .red => 2

/-- A departure is admitted to an output queue, marked, or dropped with its references released (R208 to R210). `ip` is
absent for a frame that is not an IP packet. -/
def State.admitDep (s : State) (q : Nat) (d : Dep) (ip : Option Parsed) : State :=
  let x := s.outq q
  let prof := s.fld Reg.SWC_QPROF_PROF q
  let shift := s.fld Reg.SWC_PROF_CFG_AVG_SHIFT prof
  let depth := x.depth
  let avg : Rat := x.avg + ((depth : Rat) - x.avg) / ((2 ^ shift : Nat) : Rat)
  let s1 := s.setOutq q { x with avg := avg }
  if s.queueClass q ≤ 1 then s1.enqueue q d
  else
    let c := d.colour.code
    let mn : Rat := ((64 * s.fld (Reg.SWC_PROF_COLOUR_MIN.nth c) prof : Nat) : Rat)
    let mx : Rat := ((64 * s.fld (Reg.SWC_PROF_COLOUR_MAX.nth c) prof : Nat) : Rat)
    let top : Rat := ((s.fld (Reg.SWC_PROF_COLOUR_MAX_P.nth c) prof + 1 : Nat) : Rat) / 16
    let past := decide (mx ≤ avg)
    let prob : Rat := if avg < mn then 0 else if past then 1 else (avg - mn) / (mx - mn) * top
    let (v, s2) := s1.fresh
    let drop := decide (((v % 65536 : Nat) : Rat) / 65536 < prob)
    let ecnOn := s.fld Reg.SWC_PROF_CFG_ECN_MODE prof == 1
    let port := q / 8
    match ip with
    | some p =>
      if ecnOn && p.ecn != 0 && !past then
        if (drop || decide (64 * s.fld Reg.SWC_PROF_CFG_ECN_TH prof ≤ depth)) && p.ecn != 3
        then (s2.enqueue q { d with frame := markCe d.frame p }).swcCount port 12
        else s2.enqueue q d
      else if drop then (s2.settFrees d.setts).swcCount port (9 + c)
      else s2.enqueue q d
    | none => if drop then (s2.settFrees d.setts).swcCount port (9 + c) else s2.enqueue q d

/-- What a fenced port carries besides LLDP, link-level retry and key exchange: PTP and Juwesy packets (R525). -/
def State.fencedOk (s : State) (port : Nat) (ip : Option Parsed) : Bool :=
  !(s.flt.fenced.contains port) || (match ip with
    | some p => p.proto == 17 && (match p.ports with
      | some (_, b) => b == 319 || b == 320 || b == s.fld Reg.FLT_CFG_UDP_PORT
      | none => false)
    | none => true)

/-- A departure reaches an output queue: one whose port's link is down is released as LINK_FLUSH (R204). -/
def State.toQueue (s : State) (port tc : Nat) (d : Dep) (ip : Option Parsed) : State :=
  let d := match ip with
    | some p => { d with ether := p.off - 2, pcp := p.pcp }
    | none => d
  if s.portUp port && s.fencedOk port ip then s.admitDep (port * 8 + tc) d ip else (s.settFrees d.setts).swcCount port 7

/-! ### Multicast (R205, R206) -/

/-- Ports of a multicast group record. -/
def mcPorts (r : Bytes) : List Nat := (List.range 576).filter fun p => bitAt (getLE r (0x10 + p / 8) 1) (p % 8)

/-- Sub-groups of 64. -/
def chunks64 : Nat → List Nat → List (List Nat)
  | 0, _ => []
  | n + 1, l => if l.isEmpty then [] else l.take 64 :: chunks64 n (l.drop 64)

/-- One stored copy serves a sub-group: its counts rise to the number of departures (R184, R205). -/
def State.sendCopy (s : State) (ports : List Nat) (tc : Nat) (d : Dep) (ip : Option Parsed) : State :=
  let s1 := (List.range (ports.length - 1)).foldl (fun s _ => (s.settShare d.setts).getD s) s
  ports.foldl (fun s p => s.toQueue p tc d ip) s1

/-- The fan-out of a multicast group: its ports that are available, without the ingress port when it is pruned. -/
def State.fanout (s : State) (r : Bytes) (ingress : Option Nat) : List Nat :=
  (mcPorts r).filter fun p => s.portAvail p && !(bitAt (getLE r 0x08 1) 0 && ingress == some p)

/-- A packet is copied to a fan-out (R205, R206): the arriving setts are the first copy, and each later sub-group gets
a copy charged to requester `q`, or is dropped. -/
def State.multicast (s : State) (q : Nat) (ports : List Nat) (tc : Nat) (d : Dep) (ip : Option Parsed) : State :=
  match chunks64 9 ports with
  | [] => s.settFrees d.setts
  | first :: rest =>
    let s1 := s.sendCopy first tc { d with multi := true } ip
    rest.foldl (fun s sub =>
      match s.settStore q d.frame with
      | (some l, s1) => s1.sendCopy sub tc { d with multi := true, setts := l } ip
      | (none, s1) => s1) s1

/-! ### Ingress (R193, R195, R196, R220, R221) -/

/-- Where an ingress packet comes from: a fabric port, or a line group's queue 7 (R419). -/
inductive Ingress where
  | port (p : Nat)
  | line (g : Nat)
  deriving DecidableEq, Repr

/-- The requester an ingress source is charged to (R181). -/
def Ingress.req : Ingress → Nat
  | .port p => reqPort p
  | .line g => reqLine g

/-- The port whose maps and counters an ingress source uses: its own, or for a line group that of its lowest member
lane. -/
def State.ingressPort (s : State) : Ingress → Nat
  | .port p => p
  | .line g => 512 + ((s.groupLanes g).head?.getD 0)

/-- The packet is a Tervan Collective Transport datagram (R193, R233). -/
def State.isTransport (s : State) (p : Parsed) : Bool :=
  p.v6 && p.proto == 17 && (match p.ports with
    | some (_, b) => b == s.fld Reg.TPT_UDP_CFG_DST_PORT
    | none => false)

/-- The unit a local packet goes to (R193, R520): 0 management, 1 time, 2 transport, 3 fault agreement. -/
def State.localUnit (s : State) (p : Parsed) : Nat :=
  if p.proto != 17 then 0
  else match p.ports with
    | none => 0
    | some (_, b) =>
      if s.isTransport p then 2
      else if p.v6 && b == s.fld Reg.FLT_CFG_UDP_PORT then 3
      else if b == 319 || b == 320 then 1 else 0

/-- A packet that ends in this device: it is handed to its unit and its setts are free. -/
def State.deliver (s : State) (owner port : Nat) (frame : Bytes) (setts : List Nat) : State :=
  (s.emit (.deliver owner port frame)).settFrees setts

/-- A stored IP packet is forwarded (R195, R196, R200 to R206, R220, R221). `pipe` is its ingress pipeline's port. -/
def State.forward (s : State) (src : Ingress) (p : Parsed) (frame : Bytes) (setts : List Nat) : State :=
  let pipe := s.ingressPort src
  let drop := fun (s : State) c => (s.settFrees setts).swcCount pipe c
  match s.routeFor p with
  | none => drop s 1
  | some nh =>
    match s.tabRec 0x12 nh with
    | none => drop s 1
    | some h =>
      let kind := getLE h 0x08 1
      let target := getLE h 0x0A 2
      if kind = 0 then drop s 1
      else if p.hop ≤ 1 then drop s 2
      else
        let tc := s.trafficClass pipe p.pcp (some p.dscp)
        let pol := pipe * 8 + tc
        let judge := fun (s : State) (k : Colour → State → State) =>
          match src with
          | .line _ => k .green s
          | .port _ =>
            let (c, s1) := s.police pol (wireLen frame)
            if c == .red && s.flag Reg.TMS_POL_CFG_RED_DROP pol && decide (2 ≤ s.tcClass pipe tc) then
              (s1.settFrees setts).bump Reg.TMS_POL_STAT_POL_RED_DROP pol
            else k c s1
        let one := fun (port : Nat) (s : State) =>
          judge s fun c s => s.toQueue port tc { frame := frame, setts := setts, colour := c } (some p)
        if kind = 1 then one target s
        else if kind = 2 then
          match s.tabRec 0x14 target with
          | none => drop s 1
          | some r =>
            if s.isTransport p || bitAt (getLE h 0x09 1) tc then
              match s.chooseSpray src.req target r tc with
              | (some m, s1) => one m s1
              | (none, s1) => drop s1 5
            else
              match s.pinFlow target r p with
              | (some m, s1) => one m s1
              | (none, s1) => drop s1 6
        else
          match s.tabRec 0x15 target with
          | none => drop s 1
          | some r =>
            let ports := s.fanout r (match src with
              | .port q => some q
              | .line _ => none)
            if ports.isEmpty then drop s 1
            else judge s fun c s =>
              s.multicast src.req ports tc { frame := frame, setts := setts, colour := c } (some p)

/-- The chassis ID an LLDP neighbour gives, read as a big-endian number, is kept for the port (R191, R525). -/
def State.lldpSeen (s : State) (src : Ingress) (frame : Bytes) : State :=
  match src with
  | .port p =>
    let len := getBE frame 14 2 % 512
    if getBE frame 14 2 / 512 = 1 ∧ 1 < len then
      { s with flt := { s.flt with lldp := s.flt.lldp.put p (natBE (sliceB frame 17 (len - 1))) } }
    else s
  | .line _ => s

/-- A fenced port takes in nothing but PTP and Juwesy packets (R525). -/
def State.fencedIn (s : State) (src : Ingress) (p : Parsed) : Bool :=
  match src with
  | .port q => s.fencedOk q (some p)
  | .line _ => true

/-- A plain frame stored in setts is parsed and delivered or forwarded (R191 to R195). -/
def State.ingressStored (s : State) (src : Ingress) (frame : Bytes) (setts : List Nat) : State :=
  let pipe := s.ingressPort src
  match parseFrame (s.fld Reg.SWC_PARSE_CFG_OUTER_TPID) frame with
  | .bad => (s.settFrees setts).swcCount pipe 4
  | .nonIp => (s.settFrees setts).swcCount pipe 3
  | .time _ => s.deliver 1 pipe frame setts
  | .lldp _ => (s.lldpSeen src frame).deliver 0 pipe frame setts
  | .ip p err =>
    let s1 := if err then s.swcCount pipe 4 else s
    if !s1.fencedIn src p then s1.settFrees setts
    else if s1.isLocal p then s1.deliver (s1.localUnit p) pipe frame setts
    else s1.forward src p frame setts

/-- A plain frame arrives at a port: its setts are taken, or it is dropped (R187). -/
def State.ingress (s : State) (src : Ingress) (frame : Bytes) : State :=
  match s.settStore src.req frame with
  | (none, s1) => s1
  | (some setts, s1) => s1.ingressStored src frame setts

/-- The pipeline of an optical port group cannot keep up once PACE_FAIL is set (R52): its last reading lies below the 1.66 G
tokens/s that its line rate needs (R47, notes/assumptions/176.md). -/
def State.pipelineSlow (s : State) (port : Nat) : Bool :=
  decide (port < 512) && s.flag Reg.PWR_VFLOOR_STATUS_PACE_FAIL && s.regs.live.has ⟨.pwr, 0x184, port / 8⟩ &&
    decide (s.fld Reg.PWR_PACE_VALUE_CUR_MTPS (port / 8) < 1660)

/-- A frame is dropped at the MAC intake and counted as a pipeline overrun, which weighs on the port group's health (R52). -/
def State.pipelineOverrun (s : State) (port : Nat) : State :=
  let st := s.lanes.streams.getD port {}
  { s with lanes := { s.lanes with
    streams := s.lanes.streams.put port { st with overruns := st.overruns + 1 } } }.healthOverruns port 1

/-- A frame arrives at a fabric port as it is on the wire, but for its FCS and LLR tag: the MAC intake (R52), then link
protection (R440). -/
def State.portFrame (s : State) (port : Nat) (frame : Bytes) : State :=
  if !s.portUp port then s
  else if s.pipelineSlow port then s.pipelineOverrun port
  else if s.encrypts port then
    match s.macsecOpen port frame with
    | (some plain, s1) => s1.ingress (.port port) plain
    | (none, s1) => s1
  else s.ingress (.port port) frame

/-! ### Departure (R197, R250, R466 to R468) -/

/-- The egress rewrite (R197): tags are removed, the neighbour's address and VLAN and the port's own address are put in,
and a forwarded packet's hop limit falls. -/
def State.rewrite (s : State) (port : Nat) (nb : Bytes) (d : Dep) : Bytes :=
  let vlan := getLE nb 0x0E 2
  let tag := if vlan = 0 then [] else bytesBE 2 0x8100 ++ bytesBE 2 (d.pcp.getD 0 * 8192 + vlan)
  let head := sliceB nb 0x08 6 ++ bytesBE 6 (Config.portMac port) ++ tag
  let rest := d.frame.drop d.ether
  let l3 := head.length + 2
  let f := head ++ rest
  if d.forwarded && s.flag Reg.SWC_PARSE_CFG_DEC_HOP then
    if getBE rest 0 2 = 0x86DD then patch f (l3 + 7) (bytesBE 1 (getBE f (l3 + 7) 1 - 1))
    else fixSum (patch f (l3 + 8) (bytesBE 1 (getBE f (l3 + 8) 1 - 1))) l3
  else f

/-- What the lane logic inserts into a leaving PTP message whose PTP header stands at `o`, with the transmit stamp in
units of 2⁻¹⁶ ns (R467). -/
def insertStamp (f : Bytes) (o : Nat) (k : OneStep) (sec ns frac16 : Nat) : Bytes :=
  match k with
  | .none => f
  | .sync =>
    patch (patch f (o + 34) (bytesBE 6 sec ++ bytesBE 4 ns)) (o + 8) (bytesBE 8 (getBE f (o + 8) 8 + frac16))
  | .pdelayResp rx =>
    let tx := (sec * 1000000000 + ns) * 65536 + frac16
    patch f (o + 8) (bytesBE 8 ((getBE f (o + 8) 8 + 2 ^ 64 + tx - rx) % 2 ^ 64))

/-- Where the PTP header of a frame stands: after the EtherType, or after a UDP header. -/
def ptpOffset (f : Bytes) : Nat :=
  match parseTags 0 f with
  | none => 14
  | some (o, _) =>
    if getBE f o 2 = 0x88F7 then o + 2
    else if getBE f o 2 = 0x86DD then o + 2 + 48 else o + 2 + getBE f (o + 2) 1 % 16 * 4 + 8

/-- The transmit stamp with the port's TX_ADJ: seconds, ns, and the fraction in units of 2⁻¹⁶ ns (R466). -/
def State.txStamp (s : State) (port : Nat) : Nat × Nat × Nat :=
  let adj := toSigned 16 (s.fld Reg.TIM_PORT_ADJ_TX_ADJ port)
  let t : Int := ((s.nowNs : Int) * 65536 + (s.time.frac / 65536 : Nat)) + adj * 4096
  let n := t.toNat
  (n / (65536 * 1000000000), n / 65536 % 1000000000, n % 65536)

/-- A port's link-level retry state, and its configuration. -/
def State.llrOf (s : State) (p : Nat) : Llr := s.swc.llr.getD p {}
def State.setLlr (s : State) (p : Nat) (x : Llr) : State := s.onSwc fun c => { c with llr := c.llr.put p x }
def State.llrOn (s : State) (p : Nat) : Bool := s.flag Reg.TPT_LLR_CFG_ENABLE p

/-- A transport counter; counters 0 to 9 are the device's, 10 to 14 a port's (`TPT.STAT_SEL`). -/
def State.tptCount (s : State) (c : Nat) (port : Nat := 0) : State :=
  s.bump Reg.TPT_STAT_VALUE_VALUE ((if c < 10 then 0 else port) + c * 1024)

/-- The tagged form of a frame: the LLR tag follows the source address (R248). -/
def llrTag (lsn : Nat) (f : Bytes) : Bytes := f.take 12 ++ bytesBE 2 0x88B5 ++ bytesBE 2 lsn ++ zeros 4 ++ f.drop 12

/-- A finished frame is put on the wire: link protection, and with link-level retry running, a tag and a hold (R248,
R250). -/
def State.transmit (s : State) (port : Nat) (frame : Bytes) (setts : List Nat) : State :=
  let sealed := if s.encrypts port then s.macsecSeal port frame else some (frame, s)
  match sealed with
  | none => s.settFrees setts
  | some (f, s1) =>
    if s1.llrOn port then
      let x := s1.llrOf port
      if x.active then
        let t := llrTag x.txNext f
        (s1.setLlr port { x with txNext := (x.txNext + 1) % 65536, held := x.held ++ [(x.txNext, t, setts)] }).emit
          (.frame port t)
      else ((s1.tptCount 13 port).emit (.frame port f)).settFrees setts
    else (s1.emit (.frame port f)).settFrees setts

/-- A launch time that has passed, or the first frame of a window that starts late, is counted (R468). -/
def State.noteLaunch (s : State) (port : Nat) (t : Option Nat) : State :=
  match t with
  | some at_ => if earlier (at_ + 4) s.nowNs then s.bump Reg.TIM_LAUNCH_LATE_COUNT port else s
  | none => s

/-- The egress scheduler's next departure leaves a port (R197, R222 to R228, R250), as its setts read (R180). -/
def State.depart (s : State) (port : Nat) (errs : List SettErr) : State :=
  if !s.portAvail port && !s.portUp port then s
  else if s.encrypts port && (s.link port).tx.isNone then s
  else if s.llrOn port && decide (s.fld Reg.TPT_LLR_CFG_MAX_OUT port ≤ (s.llrOf port).held.length) then
    (if (s.portSt port).window.isEmpty then s else s.planOverrun (s.portSt port).windowSlot).tptCount 12 port
  else
    match s.selectQueue port with
    | none => s
    | some (q, s1) =>
      match s1.departQ q with
      | none => s1
      | some (d, s2) =>
        let p := s2.portSt port
        let inWin := q ∈ p.window
        let s3 := s2.noteLaunch port (if inWin && p.windowFirst.isSome then p.windowFirst else d.launch)
        let s4 := if inWin then s3.setPortSt port { s3.portSt port with windowFirst := none } else s3
        match readSetts d.frame errs, s4.tabRec 0x13 port with
        | none, _ => s4.settCorrupt d.setts
        | some _, none => (s4.settFrees d.setts).swcCount port 1
        | some frame, some nb =>
          let f := s4.rewrite port nb { d with frame := frame }
          let (sec, ns, fr) := s4.txStamp port
          let f := insertStamp f (ptpOffset f) d.oneStep sec ns fr
          (s4.swcCount port 0).transmit port f d.setts

/-- A class N or B multicast departure that has waited longer than AGE_US is released (R207). -/
def State.mcAge (s : State) (q : Nat) : State :=
  let age := s.fld Reg.SWC_MC_CFG_AGE_US
  if age = 0 || s.queueClass q ≤ 1 then s
  else
    let x := s.outq q
    match x.deps.find? fun d => d.multi && decide (age * 5000 < (s.time.ticks - d.at_) * 4) with
    | none => s
    | some d =>
      let rest := x.deps.erase d
      ((s.setOutq q { x with deps := rest, deficit := if rest.isEmpty then 0 else x.deficit }).settFrees
        d.setts).swcCount (q / 8) 8

/-! ### Meanings -/

/-- SWC_STAT_CLR (R216). -/
def execSwcStatClr (v : View) (w : Word) (s : State) : Host.Outcome State Fault Refusal :=
  .next (s.selClear v .swc 0x400 w fun sel s =>
    if bitsOf sel 0 10 < 576 then
      (List.range 13).foldl (fun s c => s.setFld Reg.SWC_STAT_VALUE_VALUE (bitsOf sel 0 10 + c * 1024) 0) s
    else s)

end Sys2Proof.Machine
end

