-- ==== Sys2Proof/Machine/Llr.lean ====
section
/-!
DEFINITION. Link-level retry (R248 to R250) and the transport counters' clear (R253).
-/

namespace Sys2Proof.Machine

/-- QDELAY_NS: the mean of the delay estimates of the ports that are up (R249). -/
def State.meanDelay (s : State) : Nat :=
  let l := (s.swc.ports.filter fun p => p.2.up).map fun p => p.2.delay / 256
  if l.isEmpty then 0 else min 65535 (sumOf l / l.length)

/-- An LLR control frame (R248): 0 INIT, 1 ACK, 2 NAK. It is 64 bytes with its FCS. -/
def llrControl (port kind lsn qdelay : Nat) : Bytes :=
  let b := bytesBE 6 0x0180C200000E ++ bytesBE 6 (Config.portMac port) ++ bytesBE 2 0x88B6 ++ bytesBE 1 kind ++
    bytesBE 2 lsn ++ bytesBE 2 qdelay
  b ++ zeros (60 - b.length)

/-- An LLR control frame is sent. -/
def State.llrSend (s : State) (port kind lsn : Nat) : State := s.emit (.frame port (llrControl port kind lsn s.meanDelay))

/-- LSN `a` is at or before `b`, modulo 2¹⁶. -/
def lsnLe (a b : Nat) : Bool := decide ((b + 65536 - a) % 65536 < 32768)

/-- Frames held up to an LSN are released; with progress the replay count starts again (R250). -/
def State.llrRelease (s : State) (port lsn : Nat) : State :=
  let x := s.llrOf port
  let gone := x.held.filter fun h => lsnLe h.1 lsn
  if gone.isEmpty then s
  else gone.foldl (fun s h => s.settFrees h.2.2)
    (s.setLlr port { x with held := x.held.filter fun h => !lsnLe h.1 lsn, replays := 0 })

/-- Every held frame is replayed in LSN order; the eighth replay in a row without progress takes the link down. -/
def State.llrReplay (s : State) (port : Nat) : State :=
  let x := s.llrOf port
  if x.held.isEmpty then s
  else
    let s1 := x.held.foldl (fun s h => s.emit (.frame port h.2.1))
      (((s.setLlr port { x with replays := x.replays + 1 }).tptCount 10 port).healthReplay port)
    if 8 ≤ x.replays + 1 then ((s1.tptCount 14 port).healthAdd (.port port) 32).linkDown port else s1

/-- Every 10 µs a port that has not seen the neighbour's INIT sends its own (R248). -/
def State.llrInitSend (s : State) (port : Nat) : State :=
  if s.llrOn port && s.portUp port && !(s.llrOf port).active then s.llrSend port 0 0 else s

/-- The far queue delay a control frame reports (R201). -/
def State.llrFar (s : State) (port qdelay : Nat) : State := s.setPortSt port { s.portSt port with far := qdelay }

/-- The neighbour's INIT arrives: link sequence numbers start at 0. Where they were running the neighbour has started anew, and
the frames held under old numbers are released (notes/assumptions/182.md). -/
def State.llrInit (s : State) (port : Nat) : State :=
  if s.llrOn port && s.portUp port then (((s.llrReset port).setLlr port { active := true }).llrFar port 0) else s

/-- A tagged frame arrives (R249). -/
def State.llrFrame (s : State) (port lsn : Nat) (frame : Bytes) : State :=
  let x := s.llrOf port
  if !x.active || !s.portUp port then s
  else if lsn = x.rxNext then
    let due := 16 ≤ x.sinceAck + 1
    let s1 := s.setLlr port { x with
      rxNext := (x.rxNext + 1) % 65536, naked := false, sinceAck := if due then 0 else x.sinceAck + 1 }
    (if due then s1.llrSend port 1 lsn else s1).portFrame port frame
  else if lsnLe lsn x.rxNext then s
  else if x.naked then s
  else ((s.setLlr port { x with naked := true }).llrSend port 2 ((x.rxNext + 65535) % 65536)).tptCount 11 port

/-- 1 µs passes since the last ACK with frames to acknowledge (R249). -/
def State.llrAckTimer (s : State) (port : Nat) : State :=
  let x := s.llrOf port
  if x.active && x.sinceAck != 0 then
    (s.setLlr port { x with sinceAck := 0 }).llrSend port 1 ((x.rxNext + 65535) % 65536)
  else s

/-! ### Meanings -/

/-- LLR_INIT_SEND (R248). -/
def execLlrInitSend (port : Nat) (s : State) : Host.Outcome State Fault Refusal :=
  .next (s.inCore fun s => s.llrInitSend port)


/-- LLR_ACK_TIMER (R249). -/
def execLlrAckTimer (port : Nat) (s : State) : Host.Outcome State Fault Refusal :=
  .next (s.inCore fun s => s.llrAckTimer port)


/-- TPT_STAT_CLR (R253). -/
def execTptStatClr (v : View) (w : Word) (s : State) : Host.Outcome State Fault Refusal :=
  .next (s.selClear v .tpt 0x400 w fun sel s =>
    let c := bitsOf sel 10 5
    let p := bitsOf sel 0 10
    if 14 < c || (10 ≤ c && 576 ≤ p) then s
    else s.setFld Reg.TPT_STAT_VALUE_VALUE ((if c < 10 then 0 else p) + c * 1024) 0)

end Sys2Proof.Machine
end

