-- ==== Sys2Proof/Machine/Transport.lean ====
section
/-!
DEFINITION. Transport contexts (R233 to R247): datagrams, the context cache, acknowledgements, sending and
retransmission, and departures that wait for setts (R187).
-/

namespace Sys2Proof.Machine

/-! ### Datagrams the device makes -/

/-- An IPv6 UDP packet: source, destination, traffic class, source and destination port, hop limit 64, flow label 0, and
the UDP checksum (R233). -/
def udp6 (src dst : Bytes) (tclass sport dport : Nat) (data : Bytes) : Bytes :=
  let len := 8 + data.length
  let udp := fun sum => bytesBE 2 sport ++ bytesBE 2 dport ++ bytesBE 2 len ++ bytesBE 2 sum ++ data
  let sum := 65535 - foldSum (onesSum (src ++ dst ++ bytesBE 4 len ++ bytesBE 4 17 ++ udp 0))
  bytesBE 4 (6 * 2 ^ 28 + tclass * 2 ^ 20) ++ bytesBE 2 len ++ bytesBE 1 17 ++ bytesBE 1 64 ++ src ++ dst ++
    udp (if sum = 0 then 65535 else sum)

/-- A packet as a frame before the egress rewrite puts its addresses in. -/
def ethFrame (ip : Bytes) : Bytes := zeros 12 ++ bytesBE 2 0x86DD ++ ip

/-- The UDP checksum of an IPv6 packet at offset `o` is right. -/
def udpSumOk (f : Bytes) (o : Nat) : Bool :=
  let len := getBE f (o + 4) 2
  getBE f (o + 46) 2 != 0 &&
    foldSum (onesSum (sliceB f (o + 8) 32 ++ bytesBE 4 len ++ bytesBE 4 17 ++ sliceB f (o + 40) len)) == 65535

/-- A frame the device makes is routed out (R196, R200 to R206), charged to requester `req`; a packet to the device itself is
delivered, and one without a route is released. -/
def State.routeOut (s : State) (req pipe tc : Nat) (d : Dep) : State :=
  match parseFrame 0 d.frame with
  | .ip p _ =>
    if s.isLocal p then s.deliver (s.localUnit p) pipe d.frame d.setts
    else match (s.routeFor p).bind fun nh => s.tabRec 0x12 nh with
      | none => s.settFrees d.setts
      | some h =>
        let kind := getLE h 0x08 1
        let target := getLE h 0x0A 2
        if kind = 1 then s.toQueue target tc d (some p)
        else if kind = 2 then
          match s.tabRec 0x14 target with
          | none => s.settFrees d.setts
          | some r =>
            let pick := if s.isTransport p || bitAt (getLE h 0x09 1) tc then s.chooseSpray pipe target r tc
              else s.pinFlow target r p
            match pick with
            | (some m, s1) => s1.toQueue m tc d (some p)
            | (none, s1) => s1.settFrees d.setts
        else if kind = 3 then
          match s.tabRec 0x15 target with
          | none => s.settFrees d.setts
          | some r => s.multicast req (s.fanout r none) tc d (some p)
        else s.settFrees d.setts
  | _ => s.settFrees d.setts

/-- A frame goes to the ports of a multicast group (R205). -/
def State.mcastOut (s : State) (req g tc : Nat) (d : Dep) : State :=
  match s.tabRec 0x15 g with
  | none => s.settFrees d.setts
  | some r => s.multicast req (s.fanout r none) tc d (match parseFrame 0 d.frame with
    | .ip p _ => some p
    | _ => none)

/-- The state with transport changed. -/
def State.onTpt (s : State) (f : TptState → TptState) : State := { s with tpt := f s.tpt }

/-- A departure whose setts are taken goes out. -/
def State.launch (s : State) (p : Parked) (setts : List Nat) : State :=
  let d : Dep := { frame := p.frame, setts := setts, forwarded := false }
  match p.mcast with
  | none => s.routeOut p.req p.pipe p.tc d
  | some g => s.mcastOut p.req g p.tc d

/-- A departure whose allocation was refused waits for the next free (R187). -/
def State.park (s : State) (w : Waiting) : State :=
  if s.tpt.parked.contains w then s else s.onTpt fun t => { t with parked := t.parked ++ [w] }

/-- A departure takes its setts and goes out, or is held and retried at the next free (R187). -/
def State.sendOut (s : State) (p : Parked) : State :=
  match s.settStore p.req p.frame with
  | (some l, s1) => s1.launch p l
  | (none, s1) => s1.onTpt fun t => { t with parked := t.parked ++ [.own p] }

/-! ### Contexts (R236 to R240) -/

/-- A context's record and its fields (R236). -/
def State.ctxRec (s : State) (n : Nat) : Bytes := (s.tabRec 0x20 n).getD []
def cPeer (r : Bytes) : Bytes := sliceB r 0x08 16
def cPeerCtx (r : Bytes) : Nat := getLE r 0x18 4
def cClass (r : Bytes) : Nat := getLE r 0x1C 1
def cTc (r : Bytes) : Nat := getLE r 0x1D 1
def cGen (r : Bytes) : Nat := getLE r 0x1E 1
def cSrcLocal (r : Bytes) : Nat := getLE r 0x1F 1
def cDscp (r : Bytes) : Nat := getLE r 0x20 1

/-- The run-time state of a context that is not FREE. -/
def State.ctx? (s : State) (n : Nat) : Option Ctx := s.tpt.ctxs.find n
def State.setCtx (s : State) (n : Nat) (c : Ctx) : State := s.onTpt fun t => { t with ctxs := t.ctxs.put n c }

/-- The context is OPEN. -/
def State.ctxOpen (s : State) (n : Nat) : Bool :=
  match s.ctx? n with
  | some c => !c.failed
  | none => false

/-- The cache of the die that holds a context (R238). -/
def State.ctxCache (s : State) (n : Nat) : List Nat := if n % 2 = 0 then s.tpt.cacheBow else s.tpt.cacheStern
def State.setCtxCache (s : State) (n : Nat) (l : List Nat) : State :=
  s.onTpt fun t => if n % 2 = 0 then { t with cacheBow := l } else { t with cacheStern := l }

/-- The context's record is in the cache. -/
def State.cached (s : State) (n : Nat) : Bool := (s.ctxCache n).contains n

/-- A cached context is used: it becomes the most recently used. -/
def State.ctxTouch (s : State) (n : Nat) : State :=
  if s.cached n then s.setCtxCache n (without (s.ctxCache n) n ++ [n]) else s

/-- A context's record enters the cache, evicting the least recently used context that is not pinned (R238, R239); none
where no context can be evicted. -/
def State.ctxCacheIn (s : State) (n : Nat) : Option State :=
  let l := s.ctxCache n
  if l.contains n then some (s.ctxTouch n)
  else if l.length < 8192 then some (s.setCtxCache n (l ++ [n]))
  else
    match l.find? fun m => match s.ctx? m with
      | some c => c.pins == 0 && !(s.tpt.waiting.any fun w => w.ctx == m)
      | none => true with
    | some m => some (s.setCtxCache n (without l m ++ [n]))
    | none => none

/-- A local-address entry's address. -/
def State.localAddr (s : State) (i : Nat) : Bytes := sliceB ((s.tabRec 0x10 i).getD []) 0x10 16

/-- What a context holds is released (R237, R247): retransmission holds, payloads waiting to be sent, and the packets of
incomplete contributions. -/
def State.ctxRelease (s : State) (c : Ctx) : State :=
  let l := c.sent.flatMap (·.setts) ++ c.queue.flatMap (·.setts) ++ c.partials.flatMap fun p => p.2.flatMap (·.setts)
  s.settFrees l

/-- A departure that waits belongs to a context. -/
def Waiting.isOf (n : Nat) : Waiting → Bool
  | .own p => p.ctx == some n
  | .data m => m == n
  | .resend m _ => m == n
  | .output .. => false

/-- A context stops sending and receiving (R237, R240, R247): what it holds is released, departures of its own that wait for
setts go no more, and datagrams that wait for its record are discarded as NO_CONTEXT. -/
def State.ctxStop (s : State) (n : Nat) (c : Ctx) : State :=
  let gone := s.tpt.waiting.filter fun w => w.ctx == n
  let s1 := (s.ctxRelease c).settFrees (gone.flatMap (·.setts))
  (gone.foldl (fun s _ => s.tptCount 3) s1).onTpt fun t => { t with
    waiting := t.waiting.filter fun w => w.ctx != n, parked := t.parked.filter fun w => !w.isOf n }

/-- A delete at its catch makes a context FREE (R237). -/
def State.ctxFree (s : State) (n : Nat) : State :=
  match s.ctx? n with
  | none => s
  | some c =>
    let s2 := s.ctxStop n c
    let s3 := (s2.setCtxCache n (without (s2.ctxCache n) n)).onTpt fun t => { t with ctxs := t.ctxs.del n }
    { s3 with swc := { s3.swc with tab := s3.swc.tab.del (0x20, n) } }

/-- A context becomes FAILED (R240, R245, R247): reason 1 TIMEOUT, 2 LOST. -/
def State.ctxFail (s : State) (n reason : Nat) : State :=
  match s.ctx? n with
  | none => s
  | some c =>
    if c.failed then s
    else
      let s1 := ((s.ctxStop n c).setCtx n { c with
        failed := true, reason := reason, sent := [], queue := [], partials := [] }).tptCount 8
      if reason = 1 then s1.raise Ev.CTX_TIMEOUT 0 (n + cPeerCtx (s.ctxRec n) * 2 ^ 32)
      else s1.raise Ev.CTX_LOST 0 n

/-! ### The header (R233, R234) -/

def M32 : Nat := 2 ^ 32

/-- PSN difference a − b modulo 2³². -/
def psnSub (a b : Nat) : Nat := (a + M32 - b % M32) % M32

/-- A datagram: the 40-byte header, the payload and the ICRC. -/
def tpDatagram (gen typ flags dst src psn ackPsn : Nat) (head payload : Bytes) : Bytes :=
  let b := bytesBE 1 (16 + gen) ++ bytesBE 1 typ ++ bytesBE 2 flags ++ bytesBE 4 dst ++ bytesBE 4 src ++
    bytesBE 4 psn ++ bytesBE 4 ackPsn ++ head ++ payload
  b ++ bytesBE 4 (crc32c b)

/-- Header bytes 20 to 39 of a DATA packet. -/
def dataHead (group member seq chunk off count fmt len : Nat) : Bytes :=
  bytesBE 2 group ++ bytesBE 2 member ++ bytesBE 4 seq ++ bytesBE 4 chunk ++ bytesBE 2 off ++ bytesBE 2 count ++
  bytesBE 1 fmt ++ [0] ++ bytesBE 2 len

/-- Header bytes 20 to 39 of an ACK or CTRL packet. -/
def bareHead (len : Nat) : Bytes := zeros 18 ++ bytesBE 2 len

def tTyp (d : Bytes) : Nat := getBE d 1 1
def tGen (d : Bytes) : Nat := getBE d 0 1 % 16
def tFlags (d : Bytes) : Nat := getBE d 2 2
def tDst (d : Bytes) : Nat := getBE d 4 4
def tSrc (d : Bytes) : Nat := getBE d 8 4
def tPsn (d : Bytes) : Nat := getBE d 12 4
def tAckPsn (d : Bytes) : Nat := getBE d 16 4
def tGroup (d : Bytes) : Nat := getBE d 20 2
def tMember (d : Bytes) : Nat := getBE d 22 2
def tSeq (d : Bytes) : Nat := getBE d 24 4
def tChunk (d : Bytes) : Nat := getBE d 28 4
def tOff (d : Bytes) : Nat := getBE d 32 2
def tCount (d : Bytes) : Nat := getBE d 34 2
def tFmt (d : Bytes) : Nat := getBE d 36 1
def tLen (d : Bytes) : Nat := getBE d 38 2
def tPayload (d : Bytes) : Bytes := sliceB d 40 (tLen d)

/-- A datagram fails the checks of R234, but for the UDP checksum. -/
def tpBad (d : Bytes) : Bool :=
  let typ := tTyp d
  let len := tLen d
  d.length != 44 + len || getBE d (40 + len) 4 != crc32c (d.take (40 + len)) ||
  getBE d 0 1 / 16 != 1 || 2 < typ || 4 ≤ tFlags d || 2 ^ 18 ≤ tSrc d || 8192 < len ||
  (if typ = 0 then
    2 ^ 14 ≤ tGroup d || 2 ^ 12 ≤ tMember d || getBE d 37 1 != 0 || 1023 < tOff d || 1024 < tOff d + tCount d ||
      (match fmtOf (tFmt d) with
        | some f => (f.isMx && tOff d % 32 != 0) || f.size (tCount d) != some len
        | none => true)
  else !allZero (sliceB d 20 18)) ||
  (typ == 1 && len != 32)

/-! ### Sending (R233, R243, R244) -/

/-- A packet of a context as a frame. -/
def State.ctxFrame (s : State) (n : Nat) (typ flags psn ackPsn : Nat) (head payload : Bytes)
    (dport : Nat := s.fld Reg.TPT_UDP_CFG_DST_PORT) : Bytes :=
  let r := s.ctxRec n
  ethFrame (udp6 (s.localAddr (cSrcLocal r)) (cPeer r) (cDscp r * 4) (0xC000 + psn % 16384)
    dport (tpDatagram (cGen r) typ flags (cPeerCtx r) n psn ackPsn head payload))

/-- ACK_PSN of a context: RCV_NXT − 1. -/
def Ctx.ackPsn (c : Ctx) : Nat := psnSub c.rcvNxt 1

/-- The SACK bitmap: bit i is PSN RCV_NXT + i. -/
def Ctx.sackBits (c : Ctx) : Bytes :=
  bytesLE 32 (sumOf ((List.range 256).map fun i => bit (c.rcvMap.contains ((c.rcvNxt + i) % M32)) * 2 ^ i))

/-- The pseudo-pipeline of packets the device originates on a die, for spray pointers. -/
def originPipe (die : Nat) : Nat := 576 + die

/-- An ACK is sent (R243): it runs in class C. -/
def State.sendAck (s : State) (n : Nat) : State :=
  match s.ctx? n with
  | none => s
  | some c =>
    (s.setCtx n { c with sinceAck := 0 }).sendOut
      { req := reqTransport (n % 2) 1, ctx := some n, pipe := originPipe (n % 2), tc := cTc (s.ctxRec n),
        frame := s.ctxFrame n 1 0 0 c.ackPsn (bareHead 32) c.sackBits }

/-- A CTRL message is sent on a context (R233, R280). -/
def State.sendCtrl (s : State) (n : Nat) (payload : Bytes) : State :=
  if s.ctxOpen n then
    s.sendOut { req := reqTransport (n % 2) (cClass (s.ctxRec n)), ctx := some n, pipe := originPipe (n % 2),
                tc := cTc (s.ctxRec n), frame := s.ctxFrame n 2 0 0 0 (bareHead payload.length) payload }
  else s

/-- A DATA packet joins what a context has to send. -/
def State.queueData (s : State) (n : Nat) (it : SendItem) : State :=
  match s.ctx? n with
  | some c => if c.failed then s.settFrees it.setts else s.setCtx n { c with queue := c.queue ++ [it] }
  | none => s.settFrees it.setts

/-- The setts of a departure that shares a hold, or of a fresh copy charged to the requester of the hold (R185). -/
def State.shareOrCopy (s : State) (hold : List Nat) (frame : Bytes) : Option (List Nat) × State :=
  match s.settShare hold with
  | some s1 => (some hold, s1)
  | none => s.settStore (s.settOwner hold) frame

/-- The departure of a packet that a context holds: it shares the hold or goes out as a copy. A copy that is refused is a
refusal of the hold's requester (R185, R187): an ingress pipeline's departure is dropped, and any other waits as `w`. -/
def State.departHeld (s : State) (n : Nat) (hold : List Nat) (frame : Bytes) (w : Waiting) (sent : State → State) : State :=
  let r := s.ctxRec n
  match s.shareOrCopy hold frame with
  | (some l, s1) => (sent s1).routeOut (reqTransport (n % 2) (cClass r)) (originPipe (n % 2)) (cTc r)
      { frame := frame, setts := l, forwarded := false }
  | (none, s1) => if s.settOwner hold < 128 then sent s1 else s1.park w

/-- The next DATA packet of a context is sent once its window allows (R244). A hold that cannot be made waits (R187). -/
def State.transportSend (s : State) (n : Nat) : State :=
  match s.ctx? n with
  | none => s
  | some c =>
    match c.queue with
    | [] => s
    | it :: rest =>
      if c.failed || !s.cached n || decide (256 ≤ psnSub c.sndNxt c.sndUna) then s
      else
        let r := s.ctxRec n
        let psn := c.sndNxt
        let frame := s.ctxFrame n 0 0 psn c.ackPsn it.head it.payload
        let (hold, s1) := if it.setts.isEmpty then s.settStore (reqTransport (n % 2) (cClass r)) frame
          else (some it.setts, s)
        match hold with
        | none => s1.park (.data n)
        | some h => s1.departHeld n h frame (.data n) fun s => (s.setCtx n { c with
            queue := rest
            sndNxt := (psn + 1) % M32
            sent := c.sent ++ [{ psn := psn, head := it.head, payload := it.payload, dport := s.fld Reg.TPT_UDP_CFG_DST_PORT,
                                 setts := h, at_ := s.uptimeNs }] }).ctxTouch n

/-- A packet that a context holds goes out again with RETX set; one acknowledged meanwhile does not. -/
def State.resendHeld (s : State) (n psn : Nat) : State :=
  match s.ctx? n with
  | none => s
  | some c =>
    match c.sent.find? fun p => p.psn == psn && !p.sacked with
    | none => s
    | some p => s.departHeld n p.setts (s.ctxFrame n 0 1 psn c.ackPsn p.head p.payload p.dport) (.resend n psn) id

/-- A packet is resent with RETX set (R245). -/
def State.resend (s : State) (n psn : Nat) : State :=
  match s.ctx? n with
  | none => s
  | some c =>
    match c.sent.find? fun p => p.psn == psn with
    | none => s
    | some p =>
      let frame := s.ctxFrame n 0 1 psn c.ackPsn p.head p.payload p.dport
      let s1 := (s.setCtx n { c with sent := c.sent.map fun q =>
        if q.psn = psn then { q with once := false, last := some s.uptimeNs, backoff := false } else q }).tptCount 6
      s1.departHeld n p.setts frame (.resend n psn) id

/-! ### Acknowledgements and timers (R245, R246) -/

/-- RTO_MIN_US and RTO_MAX_US in ns, and a context's RTO. -/
def State.rtoMin (s : State) : Rat := ((s.fld Reg.TPT_RTO_CFG_RTO_MIN_US * 1000 : Nat) : Rat)
def State.rtoMax (s : State) : Rat := ((s.fld Reg.TPT_RTO_CFG_RTO_MAX_US * 1000 : Nat) : Rat)
def State.rtoOf (s : State) (c : Ctx) : Rat := c.rto.getD s.rtoMin

/-- A round-trip sample (RFC 6298 with α = 1/8 and β = 1/4). -/
def State.rttSample (s : State) (c : Ctx) (r : Rat) : Ctx :=
  let (srtt, var) := match c.rtt with
    | none => (r, r / 2)
    | some (srtt, var) => (srtt * 7 / 8 + r / 8, var * 3 / 4 + (if srtt ≤ r then r - srtt else srtt - r) / 4)
  { c with rtt := some (srtt, var), rto := some (min (max (srtt + 4 * var) s.rtoMin) s.rtoMax), retry := 0 }

/-- PSN `p` lies among the outstanding packets of a context. -/
def Ctx.outstanding (c : Ctx) (p : Nat) : Bool := decide (psnSub p c.sndUna < psnSub c.sndNxt c.sndUna)

/-- An acknowledgement: ACK_PSN, and the SACK bitmap of an ACK packet (R245). Holds are released as packets are
acknowledged, cumulatively or by SACK. -/
def State.onAck (s : State) (n ackPsn : Nat) (sack : Bytes) : State :=
  match s.ctx? n with
  | none => s
  | some c =>
    let una := (ackPsn + 1) % M32
    let d := psnSub una c.sndUna
    let d := if d ≤ psnSub c.sndNxt c.sndUna then d else 0
    let cum := fun (p : SentPkt) => decide (psnSub p.psn c.sndUna < d)
    let bits := natLE sack
    let mark := fun (p : SentPkt) => decide (psnSub p.psn una < 256) && bitAt bits (psnSub p.psn una)
    let fresh := c.sent.filter fun p => !p.sacked && (cum p || mark p)
    let c1 := { c with
      sndUna := (c.sndUna + d) % M32
      sent := (c.sent.filter fun p => !cum p).map fun p =>
        if mark p then { p with sacked := true, setts := [], payload := [], backoff := false } else p }
    let c2 := match (fresh.filter (·.once)).getLast? with
      | some p => s.rttSample c1 ((s.uptimeNs - p.at_ : Nat) : Rat)
      | none => c1
    (s.settFrees (fresh.flatMap (·.setts))).setCtx n c2

/-- Holes with at least REORDER_TH SACKed PSNs above them, not resent in the last SRTT, are resent (R245). -/
def State.fastResend (s : State) (n : Nat) : State :=
  match s.ctx? n with
  | none => s
  | some c =>
    let srtt := match c.rtt with
      | some (x, _) => x
      | none => s.rtoMin
    let holes := c.sent.filter fun p => !p.sacked && !p.backoff &&
      decide (s.fld Reg.TPT_TIMER_CFG_REORDER_TH ≤
        (c.sent.filter fun q => q.sacked && decide (psnSub p.psn c.sndUna < psnSub q.psn c.sndUna)).length) &&
      (match p.last with
        | some t => decide (srtt ≤ ((s.uptimeNs - t : Nat) : Rat))
        | none => true)
    holes.foldl (fun s p => s.resend n p.psn) s

/-- The retransmission timer expires (R245): the lowest hole is resent, unless its backoff of R291 runs (R246). -/
def State.rtoExpire (s : State) (n : Nat) : State :=
  match s.ctx? n with
  | none => s
  | some c =>
    match c.sent.find? fun p => !p.sacked with
    | none => s
    | some p =>
      if c.failed || p.backoff then s
      else
        let s1 := (s.tptCount 7).resend n p.psn
        let s2 := match s1.ctx? n with
          | some c1 => s1.setCtx n { c1 with retry := c1.retry + 1, rto := some (min (2 * s.rtoOf c) s.rtoMax) }
          | none => s1
        if s.fld Reg.TPT_TIMER_CFG_RETRY_MAX < c.retry + 1 then s2.ctxFail n 1 else s2

/-- A NOT_YET answer: the refused packet waits a backoff (R246, R291). -/
def State.notYet (s : State) (n psn : Nat) : State :=
  match s.ctx? n with
  | none => s
  | some c => s.setCtx n { c with sent := c.sent.map fun p =>
      if p.psn = psn && !p.sacked then { p with backoff := true, notYets := p.notYets + 1 } else p }

/-! ### Receiving (R234, R235, R236, R238) -/

/-- The transport datagram in a frame, when it is one for this device, and whether its UDP checksum holds. -/
def State.datagramOf (s : State) (frame : Bytes) : Option (Bytes × Bool) :=
  match parseFrame (s.fld Reg.SWC_PARSE_CFG_OUTER_TPID) frame with
  | .ip p _ =>
    if s.isLocal p && s.isTransport p && decide (s.localUnit p = 2) then
      let o := p.off
      some ((sliceB frame (o + 40) (getBE frame (o + 44) 2)).drop 8, udpSumOk frame o)
    else none
  | _ => none

/-- What becomes of a datagram that has passed R234 on an OPEN context: the generation check of R235, then `k`. -/
def State.rxOpen (s : State) (n : Nat) (d : Bytes) (setts : List Nat) (k : State → State) : State :=
  match s.ctx? n with
  | none => (s.settFrees setts).tptCount 3
  | some c =>
    if c.failed then (s.settFrees setts).tptCount 3
    else
      let g := cGen (s.ctxRec n)
      if tGen d = g ∨ (tGen d + 1) % 16 = g then k (s.ctxTouch n)
      else ((s.setCtx n { c with reason := 3 }).settFrees setts).tptCount 4

/-- A transport datagram arrives: it takes setts of requester `req`, is checked under R234, and on an OPEN context that
is cached `k` acts on it; a context that is not cached is fetched while the datagram waits (R238). A datagram that
`want` does not take belongs to another command, and a refused allocation drops the frame (R187). -/
def State.rxDatagram (s : State) (req : Nat) (frame : Bytes) (want : Bytes → Bool)
    (k : Nat → Bytes → List Nat → State → State) : State :=
  match s.datagramOf frame with
  | none => s
  | some (d, sumOk) =>
    let bad := !sumOk || tpBad d
    if !bad && !want d then s
    else
      match s.settStore req frame with
      | (none, s1) => s1
      | (some l, s1) =>
        if bad then (s1.settFrees l).tptCount 4
        else
          let n := tDst d
          if 262144 ≤ n ∨ !s1.ctxOpen n then (s1.settFrees l).tptCount 3
          else if s1.cached n then s1.rxOpen n d l (k n d l)
          else s1.onTpt fun t => { t with waiting := t.waiting ++ [⟨n, d, l⟩] }

end Sys2Proof.Machine
end

