-- ==== Sys2Proof/Machine/FltMsg.lean ====
section
/-!
DEFINITION. Agreement groups and Juwesy messages (R518, R520, R536): records, the member store, watch sets, trees, and
sending.
-/

namespace Sys2Proof.Machine

/-! ### Records (R518) -/

def tabFltMember : Nat := 0x171

def State.fltRec (s : State) (slot : Nat) : Option Bytes := s.tabRec 0x70 slot
def jJob (r : Bytes) : Nat := getLE r 0x08 8
def jCount (r : Bytes) : Nat := getLE r 0x10 2
def jSelf (r : Bytes) : Nat := getLE r 0x12 2
def jBase (r : Bytes) : Nat := getLE r 0x14 4
/-- Domains, collective groups and contexts in scope: base and count. -/
def jDomains (r : Bytes) : Nat × Nat := (getLE r 0x18 2, getLE r 0x1A 2)
def jColls (r : Bytes) : Nat × Nat := (getLE r 0x1C 2, getLE r 0x1E 2)
def jCtxs (r : Bytes) : Nat × Nat := (getLE r 0x20 4, getLE r 0x24 4)
def jPlanSet (r : Bytes) : Nat := getLE r 0x28 8
def jTc (r : Bytes) : Nat := getLE r 0x30 1

/-- A number lies in a range of a scope. -/
def inScope (x : Nat × Nat) (n : Nat) : Bool := decide (x.1 ≤ n) && decide (n < x.1 + x.2)

/-- Entry of a member in the member store, and its fields. -/
def State.member (s : State) (slot m : Nat) : Bytes :=
  (s.tabRec tabFltMember (jBase ((s.fltRec slot).getD []) + m)).getD []
def mAddrOf (e : Bytes) : Bytes := sliceB e 0 16
def mSerialOf (e : Bytes) : Nat := getLE e 16 8
def mDomainOf (e : Bytes) : Nat := getLE e 24 2

def State.fltGroup (s : State) (slot : Nat) : FltGroup := s.flt.groups.getD slot {}
def State.setFltGroup (s : State) (slot : Nat) (g : FltGroup) : State :=
  { s with flt := { s.flt with groups := s.flt.groups.put slot g } }
def State.onFlt (s : State) (slot : Nat) (f : FltGroup → FltGroup) : State := s.setFltGroup slot (f (s.fltGroup slot))
def FltGroup.member (g : FltGroup) (m : Nat) : Member := g.members.getD m {}
def State.onMember (s : State) (slot m : Nat) (f : Member → Member) : State :=
  s.onFlt slot fun g => { g with members := g.members.put m (f (g.member m)) }

/-- A counter of a group, as `FLT.STAT_SEL` numbers them. -/
def State.fltCount (s : State) (slot k : Nat) : State := s.bump Reg.FLT_STAT_VALUE_VALUE (slot * 16 + k)

/-! ### Watch sets and trees (R521, R524) -/

/-- W(i) among n members, in rising order, without i. -/
def watchSet (n i : Nat) : List Nat :=
  let l := (List.range 6).flatMap fun j => [(i + 2 ^ j) % n, (i + n - 2 ^ j % n) % n]
  ((List.range n).filter fun m => l.contains m && m != i)

/-- W(i) of a group without its fenced members. -/
def State.watchers (s : State) (slot i : Nat) : List Nat :=
  match s.fltRec slot with
  | none => []
  | some r => (watchSet (jCount r) i).filter fun m => !((s.fltGroup slot).member m).fenced

/-- The children of a member in the tree rooted at another. -/
def treeChildren (n root i : Nat) : List Nat :=
  let r := (i + n - root) % n
  ((List.range 8).map fun k => 8 * r + 1 + k).filterMap fun x => if x < n then some ((x + root) % n) else none

/-! ### Sending (R520, R536) -/

/-- The group generation: the lowest among the unfenced members heard from in the last 1 ms, and the device's own. -/
def State.groupGen (s : State) (slot : Nat) : Nat :=
  (s.fltGroup slot).members.foldl (fun (g : Nat) p =>
    match p.2.heard with
    | some t => if !p.2.fenced && decide (s.nowNs < t + 1000000) && (s.ownGen + 16 - p.2.gen) % 16 == 1 then p.2.gen else g
    | none => g) s.ownGen

/-- A Juwesy message of this member: header and body. -/
def State.juwesy (s : State) (slot type sender : Nat) (body : Bytes) : Bytes :=
  let r := (s.fltRec slot).getD []
  bytesBE 1 (16 + s.groupGen slot) ++ bytesBE 1 type ++ bytesBE 2 sender ++ bytesBE 8 (jJob r) ++
    bytesBE 4 (s.fltGroup slot).epoch ++ body

/-- A message goes to a member: class C, the group's TC, pinned. -/
def State.fltSend (s : State) (slot m : Nat) (msg : Bytes) : State :=
  match s.fltRec slot with
  | none => s
  | some r =>
    let src := mAddrOf (s.member slot (jSelf r))
    let port := s.fld Reg.FLT_CFG_UDP_PORT
    let frame := ethFrame (udp6 src (mAddrOf (s.member slot m)) 0 port port msg)
    s.sendOut { req := 145, pipe := originPipe 0, tc := jTc r, frame := frame }

/-- A message of this member to a member. -/
def State.fltTell (s : State) (slot m type : Nat) (body : Bytes) : State :=
  match s.fltRec slot with
  | none => s
  | some r => s.fltSend slot m (s.juwesy slot type (jSelf r) body)

/-- A message to several members. -/
def State.fltTellAll (s : State) (slot : Nat) (list : List Nat) (type : Nat) (body : Bytes) : State :=
  list.foldl (fun s m => s.fltTell slot m type body) s

/-! ### Pace announcements (R310, R537) -/

/-- The group whose scope names a plan set. -/
def State.paceGroup (s : State) (id : Nat) : Option Nat :=
  (List.range 16).find? fun slot => match s.fltRec slot with
    | some r => id != 0 && jPlanSet r == id
    | none => false

/-- PACE of a plan set. -/
def paceBody (id period heat start : Nat) : Bytes :=
  bytesBE 8 id ++ bytesBE 8 period ++ bytesBE 4 (heat % 2 ^ 32) ++ bytesBE 8 (start / 1000000000 % 2 ^ 48) ++
    bytesBE 4 (start % 1000000000)

/-- PACE goes down the tree rooted at a member, whose number it carries. -/
def State.paceDown (s : State) (slot root : Nat) (body : Bytes) : State :=
  match s.fltRec slot with
  | none => s
  | some r =>
    (treeChildren (jCount r) root (jSelf r)).foldl (fun s m =>
      (s.fltSend slot m (s.juwesy slot 7 root body)).fltCount slot 11) s

/-- An announcement is sent, and is to be sent once more. -/
def State.announce (s : State) (id period heat start : Nat) : State :=
  match s.paceGroup id with
  | none => s
  | some slot =>
    let r := (s.fltRec slot).getD []
    let body := paceBody id period heat start
    let s1 := s.paceDown slot (jSelf r) body
    { s1 with flt := { s1.flt with paceAgain := s1.flt.paceAgain ++ [(slot, body)] } }

end Sys2Proof.Machine
end

