-- ==== Sys2Proof/Machine/OuterBase.lean ====
section
/-!
DEFINITION. Outer rounds: the rig records of shards and sites, the geometry of pieces and slots (R372 to R374), what a round
computes (R376, R377), the ages of contributions (R394), and the chunks a broadcast piece is answered with (R397).
-/

namespace Sys2Proof.Machine

/-! ### Records (R372) -/

/-- The shard record of a slot, and the sites record. -/
def State.shardRec (s : State) (slot : Nat) : Option Bytes := s.tabRec 0x60 slot
def State.sitesRec (s : State) : Bytes := (s.tabRec 0x61 0).getD []

def hId (r : Bytes) : Nat := getLE r 0x08 4
def hRuns (r : Bytes) : Nat := getLE r 0x0C 4
def hElements (r : Bytes) : Nat := getLE r 0x10 8
def hDomain (r : Bytes) : Nat := getLE r 0x18 2 % 4096
def hSpares (r : Bytes) : Nat := getLE r 0x1A 1
def hDeltaSlots (r : Bytes) : Nat := getLE r 0x1B 1
/-- The table of profile streams 0 snapshot, 1 momentum, 2 deltas. -/
def hTable (r : Bytes) (i : Nat) : Nat := getLE r (0x1C + i) 1
def hShift (r : Bytes) : Nat := getLE r 0x1F 1
def hCap (r : Bytes) : Nat := getLE r 0x20 2
def hGroup (r : Bytes) : Nat := getLE r 0x22 2 % 16384
def hSpec (r : Bytes) : Nat := getLE r 0x24 4
def hSnapArea (r : Bytes) : Nat := getLE r 0x28 8
def hMomArea (r : Bytes) : Nat := getLE r 0x30 8
def hDeltaArea (r : Bytes) : Nat := getLE r 0x38 8
def hWorkArea (r : Bytes) : Nat := getLE r 0x40 8
/-- The program contexts: 0 delta former, 1 dresser, 2 fused reducer, 3 outer step. -/
def hCtx (r : Bytes) (i : Nat) : Nat := getLE r (0x48 + i) 1
def hOseq (r : Bytes) : Nat := getLE r 0x4C 4
/-- The line group toward a site. -/
def hLine (r : Bytes) (site : Nat) : Nat := getLE r (0x50 + site) 1

def siteCount (r : Bytes) : Nat := getLE r 0x08 1
def siteLocal (r : Bytes) : Nat := getLE r 0x09 1
def siteTiebreak (r : Bytes) : Nat := getLE r 0x0A 1
/-- 0 FULL, 1 RING. -/
def siteTopology (r : Bytes) : Nat := getLE r 0x0B 1
def siteWeight (r : Bytes) (i : Nat) : Nat := getLE r (0x10 + i) 1

/-! ### Pieces and slots (R374) -/

/-- E_P: elements of a piece. -/
def hPieceElems (r : Bytes) : Nat := hRuns r * 262144
/-- P: the piece count. -/
def hPieces (r : Bytes) : Nat := (hElements r + hPieceElems r - 1) / hPieceElems r
/-- Elements of piece p that the shard has. -/
def hElemsOf (r : Bytes) (p : Nat) : Nat := min (hPieceElems r) (hElements r - p * hPieceElems r)
/-- Bytes of a snapshot (profile 0) or momentum (profile 1) stream of a piece. -/
def hStreamLen (r : Bytes) (profile : Nat) : Nat := 64 + hRuns r * 1024 * ashBytes profile
/-- The slot stride of a profile. -/
def hStride (r : Bytes) (profile : Nat) : Nat := (hStreamLen r profile + 65535) / 65536 * 65536
def hSnapAt (r : Bytes) (slot : Nat) : Nat := hSnapArea r + slot * hStride r 0
def hMomAt (r : Bytes) (slot : Nat) : Nat := hMomArea r + slot * hStride r 1
def hDeltaAt (r : Bytes) (slot : Nat) : Nat := hDeltaArea r + slot * hStride r 1
def hWorkAt (r : Bytes) (work : Nat) : Nat := hWorkArea r + work * (8 * hPieceElems r)

/-- A shard slot, and a piece of it. -/
def State.shard (s : State) (k : Nat) : OutShard := s.outer.shards.getD k {}
def State.setShard (s : State) (k : Nat) (h : OutShard) : State :=
  { s with outer := { s.outer with shards := s.outer.shards.put k h } }
def OutShard.piece (h : OutShard) (p : Nat) : OutPiece := h.pieces.getD p { slot := p }
def OutShard.setPiece (h : OutShard) (p : Nat) (x : OutPiece) : OutShard := { h with pieces := h.pieces.put p x }

/-- A piece is LOST (R393): a block of its slot is lost, or failed check 1 or 2. -/
def State.pieceLost (s : State) (r : Bytes) (x : OutPiece) : Bool :=
  x.lost || s.dvaLost (hDomain r) (hSnapAt r x.slot) (hStreamLen r 0) ||
    s.dvaLost (hDomain r) (hMomAt r x.slot) (hStreamLen r 1)

/-! ### Arithmetic of the round (R376, R377) -/

/-- fp32(1/n), rounded to nearest even. -/
def fp32Recip (n : Nat) : Nat :=
  let q := 2 ^ 80 / n
  (fFP32.round (2 * q + bit (decide (2 ^ 80 % n ≠ 0))) (-81) none).1

/-- A product rounded to FP32. -/
def fp32Mul (a b : Nat) : Nat := toFp32 ((fFP32.decode a).times (fFP32.decode b))

/-- k_s: fp32(1/N) multiplied AGE times by STALE. -/
def outScale (n stale : Nat) : Nat → Nat
  | 0 => fp32Recip n
  | a + 1 => fp32Mul (outScale n stale a) stale

/-- clip(y) under CLIP. -/
def outClip (clip y : Nat) : Nat :=
  match fFP32.decode clip, fFP32.decode y with
  | .fin false m e, .fin neg n f =>
    let c := (Val.fin false m e).rat
    if c = 0 then y
    else if c < (Val.fin false n f).rat then clip + bit neg * fFP32.signBit else y
  | .fin false m _, .inf neg => if m = 0 then y else clip + bit neg * fFP32.signBit
  | _, _ => y

/-- D_i: the exact sum of the scaled, clipped contributions, rounded to FP32. -/
def outReduce (clip : Nat) (terms : List (Nat × Nat)) : Nat :=
  let acc := terms.foldl (fun (a : Accum) t => a.add Mode.wide.lsb (fFP32.decode (fp32Mul t.1 (outClip clip t.2)))) {}
  (fFP32.result Mode.wide.lsb acc.value none).1

/-- The standard outer step of one element: θ' and m' from MU, ETA, θ, m and D. -/
def outStep (mu eta theta m d : Nat) : Nat × Nat :=
  let m' := fp32Fma mu m d
  let u := fp32Fma mu m' d
  (fp32Fma eta u theta, m')

/-! ### The OUTER descriptor (R380) -/

def uShard (d : Bytes) : Nat := getLE d 0x10 1
def uSite (d : Bytes) : Nat := getLE d 0x11 1
def uRound (d : Bytes) : Nat := getLE d 0x14 4
def uMu (d : Bytes) : Nat := getLE d 0x18 4
def uEta (d : Bytes) : Nat := getLE d 0x1C 4
def uStale (d : Bytes) : Nat := getLE d 0x20 4
def uClip (d : Bytes) : Nat := getLE d 0x24 4
def uMaxAge (d : Bytes) : Nat := getLE d 0x28 1
def uNoCast (d : Bytes) : Bool := bitAt (getLE d 0x29 1) 0
def uStart (d : Bytes) : Nat := getLE d 0x30 8 * 1000000000 + getLE d 0x38 4


/-- Bits of a site mask, as a list of sites. -/
def maskSites (m : Nat) : List Nat := (List.range 16).filter fun i => bitAt m i
def sitesMask (l : List Nat) : Nat := sumOf (l.map fun i => 2 ^ i)

/-- Site i of a shard. -/
def OutShard.site (h : OutShard) (i : Nat) : OutSite := h.sites.getD i {}

/-! ### Ages (R394) -/

/-- b: the round in which a site last committed a piece, as this device knows it, below the open round. -/
def State.lastOf (s : State) (h : OutShard) (p i : Nat) : Nat :=
  if i = siteLocal s.sitesRec then (h.piece p).round
  else
    let x := h.site i
    maxOf (x.rc :: (x.fronts.filter fun f => decide (f.1 < h.round) && decide (p < f.2)).map (·.1))

/-- AGE of a site for a piece. -/
def State.ageOf (s : State) (h : OutShard) (p i : Nat) : Nat := h.round - 1 - s.lastOf h p i

/-- The epoch, roster and first piece a piece is computed under: the newest whose first piece it reaches (R388). -/
def OutShard.rosterOf (h : OutShard) (p : Nat) : Nat × Nat :=
  match h.rosters.find? fun e => decide (e.2.2 ≤ p) with
  | some (e, m, _) => (e, m)
  | none => (h.epoch, h.roster)

/-- Sites whose contributions a piece includes, with their ages (R376, R394). -/
def State.included (s : State) (h : OutShard) (p : Nat) : List (Nat × Nat) :=
  ((maskSites (h.rosterOf p).2).map fun i => (i, s.ageOf h p i)).filter fun x => decide (x.2 ≤ uMaxAge h.desc)

/-! ### Broadcast chunks (R397) -/

/-- The key of a piece's REDUCE in a round, and of its broadcast. -/
def hReduceSeq (r : Bytes) (round p : Nat) : Nat := hOseq r + 2 * (round * hPieces r + p)
def hCastSeq (r : Bytes) (round p : Nat) : Nat := hReduceSeq r round p + 1
/-- Chunks of a piece. -/
def hChunks (r : Bytes) (p : Nat) : Nat := (hElemsOf r p + 1023) / 1024

/-- The levels of an ashlar table on a die. -/
def State.levels (s : State) (die id : Nat) : List Nat := (s.ash.slots.getD (die, id) {}).levels

/-- Chunk c of a committed piece: 1,024 elements in BF16, and how many of its blocks are rubble; none where a block of it
cannot be expanded. -/
def State.pieceChunk (s : State) (r : Bytes) (x : OutPiece) (c : Nat) : Option (Bytes × Nat) :=
  let b := s.dvaRead (hDomain r) (hSnapAt r x.slot + 64 + 4 * c * 144) 576
  let blocks := (List.range 4).map fun i => sliceB b (144 * i) 144
  if s.pieceLost r x || (s.ash.slots.getD (c % 2, hTable r 0) {}).st != 1 || !blocks.all (fun k => ashIntact k && ashWellFormed k && ashProfile k == 0 && ashTable k == hTable r 0)
  then none
  else some (blocks.flatMap fun k => bf16Bytes (ashExpand (s.levels (c % 2) (hTable r 0)) k), (blocks.filter ashRubble).length)

/-- The bench-input expanders of a chunk's die have expanded its four blocks (R371). -/
def State.chunkExpanded (s : State) (c rubble : Nat) : State :=
  let n := fun (s : State) (k : Nat) => s.bump Reg.ASH_STAT_VALUE_VALUE (k + 8 * (c % 2))
  let s1 := (List.range (4 - rubble)).foldl (fun s _ => n s 0) s
  (List.range rubble).foldl (fun s _ => n s 1) s1

/-- The answer to a QUERY for a broadcast key: the chunk of the piece committed in the key's round. -/
def State.outerChunk (s : State) (g q chunk : Nat) : Option (Bytes × Nat) :=
  (List.range 16).findSome? fun k =>
    match s.shardRec k with
    | none => none
    | some r =>
      if hGroup r = g ∧ hOseq r < q ∧ (q - hOseq r) % 2 = 1 ∧ hPieces r ≠ 0 then
        let n := (q - hOseq r) / 2
        let x := (s.shard k).piece (n % hPieces r)
        if x.round = n / hPieces r ∧ chunk < hChunks r (n % hPieces r) then s.pieceChunk r x chunk else none
      else none

end Sys2Proof.Machine
end

