-- ==== Sys2Proof/Machine/Bench.lean ====
section
/-!
DEFINITION. The bench and collective operations (R271 to R297): groups, bays, contributions, chunk completion, control
messages, admission with spill and restore, the ending of operations, and lateness.
-/

namespace Sys2Proof.Machine

/-! ### Groups (R273) -/

/-- The internal table of member-store entries that member blocks fill (R273). -/
def tabMember : Nat := 0x131

def State.collGroup (s : State) (g : Nat) : Option Bytes := s.tabRec 0x30 g
def gCount (r : Bytes) : Nat := getLE r 0x08 2
def gMcast (r : Bytes) : Nat := getLE r 0x0A 2
def gBase (r : Bytes) : Nat := getLE r 0x0C 4
def gResCtx (r : Bytes) : Nat := getLE r 0x10 4
def gUplink (r : Bytes) : Nat := getLE r 0x14 4
def gUpMember (r : Bytes) : Nat := getLE r 0x18 2
/-- The device is the root of the group's tree. -/
def gRoot (r : Bytes) : Bool := gUplink r == 0xFFFFFFFF

/-- The context of member i of a group. -/
def State.memberCtx (s : State) (r : Bytes) (i : Nat) : Option Nat :=
  (s.tabRec tabMember (gBase r + i)).map fun b => getLE b 0 4

/-- DEST of a permutation. -/
def State.permDest (s : State) (t m : Nat) : Nat := getLE ((s.tabRec 0x32 t).getD []) (0x10 + 2 * m) 2

/-- The state with the collectives unit changed. -/
def State.onCol (s : State) (f : ColState → ColState) : State := { s with col := f s.col }

def State.collOp (s : State) (g q : Nat) : Option CollOp := s.col.ops.find (g, q)
def State.setCollOp (s : State) (o : CollOp) : State := s.onCol fun c => { c with ops := c.ops.put (o.group, o.seq) o }

/-- A group's watermark and done operations (R287). -/
def State.grpState (s : State) (g : Nat) : GroupState := s.col.groups.getD g {}
def State.setGrpState (s : State) (g : Nat) (x : GroupState) : State :=
  s.onCol fun c => { c with groups := c.groups.put g x }

/-- The operation counts as done. -/
def State.collDone (s : State) (g q : Nat) : Bool :=
  decide (q < (s.grpState g).doneNext) || (s.grpState g).doneAbove.contains q

/-- The watermark advances past every contiguous done operation. -/
def advanceDone : Nat → Nat → List Nat → Nat × List Nat
  | 0, n, l => (n, l)
  | f + 1, n, l => if n ∈ l then advanceDone f (n + 1) (without l n) else (n, l)

/-- An operation comes to count as done (R282, R287). -/
def State.markDone (s : State) (g q : Nat) (p : PastOp) : State :=
  let x := s.grpState g
  let l := withElem x.doneAbove q
  let (n, l) := advanceDone (l.length + 1) x.doneNext l
  s.setGrpState g { doneNext := n, doneAbove := l, past := (p :: x.past).take 15 }

/-- A collective counter (`COL.STAT_SEL.COUNTER`). -/
def State.colCount (s : State) (c : Nat) : State := s.bump Reg.COL_STAT_VALUE_VALUE c

/-- A number-format counter of a die (`BEN.NUM_SEL`). -/
def State.numCount (s : State) (die c n : Nat) : State := s.bump Reg.BEN_NUM_VALUE_VALUE (c + 8 * die) n

/-! ### Partitions and bays (R271, R272, R314) -/

/-- The die of a chunk's bay (R14). -/
def chunkDie (chunk : Nat) : Nat := chunk % 2

/-- Granules and arrival lines of one bay of an operation (R272). -/
def CollOp.granules (o : CollOp) : Nat :=
  match o.spec with
  | some sp => if o.code ≤ 2 then sp.mode.granules else 0
  | none => 0
def State.bayLines (s : State) (g : Nat) : Nat :=
  match s.collGroup g with
  | some r => (gCount r + 511) / 512
  | none => 0

/-- Granules and lines of the plan partition, and of the dynamic partition, of a die. -/
def State.planGran (s : State) (d : Nat) : Nat := s.fld (Reg.BEN_PART_CFG_PLAN_GRAN.nth d)
def State.planLines (s : State) (d : Nat) : Nat := s.fld (Reg.BEN_LINE_CFG_PLAN_LINES.nth d)
def State.dynGran (s : State) (d : Nat) : Nat :=
  25600 - s.planGran d - s.fld (Reg.BEN_PART_CFG_TENSOR_GRAN.nth d)
def State.dynLines (s : State) (d : Nat) : Nat := 32768 - s.planLines d

/-- Bays an operation holds on a die: open, being written out, and to be restored once admitted. -/
def CollOp.baysOn (o : CollOp) (d : Nat) : Nat :=
  (o.bays.filter fun b => chunkDie b.chunk == d).length + (o.leaving.filter fun b => chunkDie b.chunk == d).length +
    (match o.admission with
      | .admitted => (o.spilled.filter fun b => b.written && chunkDie b.chunk == d).length
      | .wait => 0)

/-- The operations, dynamic or planned. -/
def State.dynOps (s : State) : List CollOp := (s.col.ops.map (·.2)).filter fun o => o.plan.isNone
def State.planOps (s : State) : List CollOp := (s.col.ops.map (·.2)).filter fun o => o.plan.isSome

/-- Free granules and lines of the dynamic partition (`BEN.FREE_STATUSn`). -/
def State.freeGran (s : State) (d : Nat) : Nat := s.dynGran d - sumOf (s.dynOps.map fun o => o.baysOn d * o.granules)
def State.freeLines (s : State) (d : Nat) : Nat :=
  s.dynLines d - sumOf (s.dynOps.map fun o => o.baysOn d * s.bayLines o.group)

/-- A planned bay fits in the plan partition now (R314). -/
def State.planBayFits (s : State) (o : CollOp) (d : Nat) : Bool :=
  decide (sumOf (s.planOps.map fun p => p.baysOn d * p.granules) + o.granules ≤ s.planGran d) &&
  decide (sumOf (s.planOps.map fun p => p.baysOn d * s.bayLines p.group) + s.bayLines o.group ≤ s.planLines d)

/-! ### Control messages (R280, R281) -/

/-- The CTRL header. -/
def ctrlHead (ctype reason group seq chunk member count fmt psnRef qpos : Nat) : Bytes :=
  bytesBE 1 ctype ++ bytesBE 1 reason ++ bytesBE 2 group ++ bytesBE 4 seq ++ bytesBE 4 chunk ++ bytesBE 2 member ++
  bytesBE 2 count ++ bytesBE 1 fmt ++ zeros 3 ++ bytesBE 4 psnRef ++ bytesBE 2 qpos ++ zeros 6

/-- CTYPE; a payload too short for the header has none that is used (notes/assumptions/186.md). -/
def kCtype (d : Bytes) : Nat := if tLen d < 32 then 0 else getBE d 40 1
def kReasonOf (d : Bytes) : Nat := getBE d 41 1
def kGroup (d : Bytes) : Nat := getBE d 42 2 % 2 ^ 14
def kSeq (d : Bytes) : Nat := getBE d 44 4
def kChunk (d : Bytes) : Nat := getBE d 48 4
def kFmt (d : Bytes) : Nat := getBE d 56 1
def kPsnRef (d : Bytes) : Nat := getBE d 60 4

/-- A message is multicast through a group's MCAST group to its RES_CTX, as member 0's context would send it (R281), in setts that
it has already or that it takes now. -/
def State.collMulticast (s : State) (g chunk : Nat) (payload : Bytes) (setts : Option (List Nat) := none) : State :=
  match s.collGroup g with
  | none => s
  | some r =>
    match s.memberCtx r 0 with
    | none => s
    | some m =>
      let c := s.ctxRec m
      let die := chunkDie chunk
      let frame := ethFrame (udp6 (s.localAddr (cSrcLocal c)) (Config.mcastAddr (gMcast r)) (cDscp c * 4) 0xC000
        (s.fld Reg.TPT_UDP_CFG_DST_PORT)
        (tpDatagram (cGen c) 2 0 (gResCtx r) m 0 0 (bareHead payload.length) payload))
      let p : Parked :=
        { req := reqTransport die (cClass c), pipe := originPipe die, tc := cTc c, mcast := some (gMcast r), frame := frame }
      match setts with
      | some l => s.launch p l
      | none => s.sendOut p

/-- RESULT of a chunk. -/
def State.sendResult (s : State) (g q chunk fmt : Nat) (data : Bytes) (setts : Option (List Nat) := none) : State :=
  s.collMulticast g chunk (ctrlHead 3 0 g q chunk 0 1024 fmt 0 0 ++ data) setts

/-- CHUNK_DONE of a chunk. -/
def State.sendChunkDone (s : State) (g q chunk : Nat) : State :=
  s.collMulticast g chunk (ctrlHead 2 0 g q chunk 0 0 0 0 0)

/-! ### Known operations and NOT_YET (R277, R290, R315) -/

/-- The heat in which a planned operation has a key, if it is one still to come or under way. -/
def PlanSlot.heatOf (p : PlanSlot) (r : Bytes) (g q : Nat) : Option Nat :=
  if poGroup r = g ∧ poBase r ≤ q ∧ poStep r ≠ 0 ∧ (q - poBase r) % poStep r = 0 then
    let h := (q - poBase r) / poStep r
    if p.heat ≤ h ∧ (pHeatCount p.bin = 0 ∨ h < pHeatCount p.bin) then some h else none
  else none

/-- The slot, heat and operation index of a key planned in a resident plan (R315). -/
def State.plannedKey (s : State) (g q : Nat) : Option (Nat × Nat × Nat) :=
  s.plans.findSome? fun (n, p) =>
    if p.st = 0 then none
    else (List.range (pOpCount p.bin)).findSome? fun i =>
      (p.heatOf (pOp p.bin i) g q).map fun h => (n, h, i)

/-- Every key of one planned operation in a count of heats, 0 for no limit, differs from every key of another (R301). -/
def poApart (r : Bytes) (n : Nat) (x : Bytes) (m : Nat) : Bool :=
  let g := Nat.gcd (poStep r) (poStep x)
  let first := (poBase x - poBase r + poStep r - 1) / poStep r
  poGroup r != poGroup x || (List.range (poStep x / g)).all fun j =>
    let q := poBase r + (first + j) * poStep r
    let k := (q - poBase x) / poStep x
    decide (2 ^ 32 ≤ q) || (n != 0 && decide (n ≤ first + j)) || (q - poBase x) % poStep x != 0 || (m != 0 && decide (m ≤ k))

/-- An operation's number in the admission order (R288). -/
def admitKey (g q : Nat) : Nat := g * 2 ^ 32 + q
def CollOp.key (o : CollOp) : Nat := admitKey o.group o.seq

/-- A waiting operation's position in the admission order: 0 is next. -/
def State.queuePos (s : State) (o : CollOp) : Nat :=
  (s.dynOps.filter fun p => p.admission == .wait && decide (p.key < o.key)).length

/-- The members whose contributions a chunk takes: the root of a BROADCAST, else every local member (R275). -/
def CollOp.needs (o : CollOp) (r : Bytes) (m : Nat) : Bool := if o.code = 3 then m == o.param else decide (m < gCount r)

/-- The first rows of R277: no group record 7, a bad member 8, done already 6. -/
def State.contribRefusal (s : State) (k : CKey) (ctx : Nat) : Option Nat :=
  match s.collGroup k.group with
  | none => some 7
  | some r =>
    if gCount r ≤ k.member || s.memberCtx r k.member != some ctx ||
        (match s.collOp k.group k.seq with
          | some o => !o.needs r k.member
          | none => false) then some 8
    else if s.collDone k.group k.seq then some 6
    else none

/-- The NOT_YET answer to a packet of a contribution none of whose packets is held, if any: its reason and queue position
(R277). -/
def State.notYetAnswer (s : State) (k : CKey) (ctx : Nat) : Option (Nat × Nat) :=
  match s.contribRefusal k ctx with
  | some _ => none
  | none =>
    match s.collOp k.group k.seq with
    | none => if (s.plannedKey k.group k.seq).isSome then none else some (0, 0)
    | some o =>
      if o.plan.isSome || decide (o.chunks ≤ k.chunk) || o.complete.contains k.chunk then none
      else if o.spilled.any fun b => b.chunk == k.chunk then some (3, 0)
      else if o.admission = .wait then some (1, s.queuePos o)
      else if o.bays.any fun b => b.chunk == k.chunk then none
      else some (2, 0)

/-- The counter of a NOT_YET reason. -/
def notYetCounter (reason : Nat) : Nat := if reason = 0 then 1 else if reason = 1 then 2 else if reason = 2 then 3 else 4

/-! ### Lateness (R296) -/

/-- One lateness record takes a chunk: the member's lateness and whether it arrived last. -/
def LateRec.take (x : LateRec) (lateness shift : Nat) (last : Bool) : LateRec :=
  let bins := if x.bins.isEmpty then List.replicate 16 0 else x.bins
  { bins := bins.modify (histBin lateness shift) fun n => satAdd 0xFFFFFFFF n 1
    maxNs := max x.maxNs (min lateness 0xFFFFFFFF)
    last := if last then satAdd 0xFFFFFFFF x.last 1 else x.last }

/-- A completed chunk is recorded in every watch slot of its group. -/
def State.noteLateness (s : State) (g : Nat) (arrived : List (Nat × Nat)) : State :=
  let first := minOf ((arrived.head?.map (·.2)).getD 0) (arrived.map (·.2))
  let lastM := arrived.foldl (fun b a => match b with
    | some x => if x.2 ≤ a.2 then some a else some x
    | none => some a) (none : Option (Nat × Nat))
  let slots := (List.range 16).filter fun i =>
    s.flag (Reg.COL_LATE_WATCH_ENABLE.nth i) && s.fld (Reg.COL_LATE_WATCH_GROUP.nth i) == g
  slots.foldl (fun s i =>
    let shift := s.fld (Reg.COL_LATE_WATCH_SHIFT.nth i)
    arrived.foldl (fun s a => s.onCol fun c => { c with
      late := c.late.put (i, a.1) ((c.late.getD (i, a.1) {}).take (a.2 - first) shift
        ((lastM.map (·.1)) == some a.1)) }) s) s

/-! ### Ending operations (R287, R293, R294) -/

/-- A DATA message of the operation is not yet acknowledged (R279). -/
def headIs (g q : Nat) (h : Bytes) : Bool := getBE h 0 2 == g && getBE h 4 4 == q
def Ctx.owes (c : Ctx) (g q : Nat) : Bool :=
  (c.sent.any fun p => !p.sacked && headIs g q p.head) || c.queue.any fun i => headIs g q i.head
def State.collOwes (s : State) (g q : Nat) : Bool := s.tpt.ctxs.any fun c => c.2.owes g q

/-- Contributions held for an operation are discarded (R242). -/
def State.dropHeld (s : State) (g q : Nat) : State :=
  let mine := fun (c : Contrib) => c.key.group == g && c.key.seq == q
  let gone := s.col.held.filter mine
  (s.settFrees (gone.flatMap fun c => c.pieces.flatMap (·.setts))).onCol fun c => { c with
    held := c.held.filter fun x => !mine x }

/-- The network-time wait of an operation so far (R294). -/
def State.collWait (s : State) (o : CollOp) : Nat :=
  o.waited + (match o.admission with
    | .wait => s.nowNs - o.since
    | .admitted => 0)

/-- Contexts lose one pin each (R239). -/
def State.unpin (s : State) (l : List Nat) : State :=
  l.foldl (fun s n => match s.ctx? n with
    | some c => s.setCtx n { c with pins := c.pins - 1 }
    | none => s) s

/-- An operation of an ended plan has completed: with the last one the plan's reserves are released (R317). -/
def State.restOver (s : State) (key : Nat × Nat) : State :=
  let l := s.col.rests.map fun r => { r with keys := r.keys.erase key }
  ((l.filter fun r => r.keys.isEmpty).foldl (fun (s : State) r => s.unpin r.ctxs) s).onCol fun c => { c with
    rests := l.filter fun r => !r.keys.isEmpty }

/-- An operation ends with a status: its bays and spill state are released, it counts as done, and its descriptor
completes, or a planned one that ends early posts PLAN_OP_FAILED (R287, R293, R294, R315). -/
def State.collClose (s : State) (o : CollOp) (status : Nat) : State :=
  let s1 := ((s.dropHeld o.group o.seq).restOver (o.group, o.seq)).onCol fun c => { c with
    ops := c.ops.del (o.group, o.seq)
    bayWaits := c.bayWaits.filter fun w => !(w.1 == o.group && w.2.1 == o.seq) }
  let s2 := s1.markDone o.group o.seq
    { seq := o.seq, code := o.code, fmt := o.fmt, domain := o.domain, log := o.log, done := o.done }
  match o.plan, o.desc with
  | some (slot, _, _), _ =>
    if status = stOK then s2
    else s2.raise Ev.PLAN_OP_FAILED slot (status + o.group * 2 ^ 16 + o.seq * 2 ^ 32)
  | none, some k =>
    s2.endOp k { status := status, ext := min o.spills 0xFFFF, seg := o.done.length, value := s.collWait o }
  | none, none => s2.onCol fun c => { c with outerEnded := c.outerEnded ++ [(o.group, o.seq, status)] }

/-! ### Sending what a chunk gives (R275, R279) -/

/-- A reduced or forwarded chunk as DATA for a context. -/
def State.sendData (s : State) (ctx g member q chunk off count fmt : Nat) (data : Bytes) (setts : List Nat) : State :=
  s.queueData ctx { head := dataHead g member q chunk off count fmt data.length, payload := data, setts := setts }

/-- A result-log write (R279): at LOG + c × the size of 1,024 elements. A translation fault holds it, or ends the operation at
once (R138, R293). -/
def State.writeLog (s : State) (o : CollOp) (chunk : Nat) (data : Bytes) : State :=
  if o.log = 0 then s
  else
    let dva := o.log + chunk * data.length
    match s.rangeFault o.domain dva data.length true with
    | none => State.dvaWrite o.domain dva data s
    | some (a, r) =>
      let s1 := s.mmuFault o.domain a r true
      match s1.collOp o.group o.seq, s.faultEnds r with
      | some p, none => s1.setCollOp { p with logHeld := p.logHeld ++ [(chunk, data)] }
      | some p, some st => s1.collClose p st
      | none, _ => s1

/-- A chunk is done: its entry goes to CHUNK_CQ (R286, R315). -/
def State.chunkDone (s : State) (o : CollOp) (chunk : Nat) : State :=
  let s1 := match s.collOp o.group o.seq with
    | some p => s.setCollOp { p with done := withElem p.done chunk, queries := p.queries.del chunk }
    | none => s
  if o.entries then
    let r := s1.ring o.chunkCq
    let comp : Completion := { status := stOK, ext := 0x8000, seg := chunk, value := s.nowNs % 2 ^ 64 }
    match o.plan, o.desc with
    | some (slot, h, i), _ =>
      s1.setRing o.chunkCq { r with owed := r.owed ++
        [{ ring := 0x0FFF, slot := i, comp := { comp with tag := slot * 2 ^ 28 + h % 2 ^ 28 } }] }
    | none, some k =>
      let tag := match s.op? k with
        | some d => dTag d.desc
        | none => 0
      s1.setRing o.chunkCq { r with owed := r.owed ++ [{ ring := k.ring, slot := k.slot, comp := { comp with tag := tag } }] }
    | none, none => s1
  else s1

/-- The counters of a rounded chunk (R264 to R266). -/
def State.countResults (s : State) (die : Nat) (l : List NumCount) : State :=
  let n := fun (x : NumCount) => (l.filter fun y => y == x).length
  ((s.numCount die 1 (n .nanResult)).numCount die 2 (n .overflow)).numCount die 3 (n .saturated)

/-- The rounded chunk of a reducing operation, in RESULT at the root and in FWD below it (R264 to R268). -/
def CollOp.rounded (o : CollOp) (sp : RSpec) (root : Bool) (b : Bay) : Bytes × List NumCount :=
  let accs := if b.accs.isEmpty then freshAccs else b.accs
  if root then
    encodeAccs sp.mode sp.result accs fun i =>
      if sp.stochastic then some (rndWord o.group o.seq b.chunk i) else none
  else encodeAccs sp.mode sp.fwd accs fun _ => none

/-- The member that takes a reduced chunk of REDUCE_SCATTER or REDUCE (R275). -/
def CollOp.destOf (o : CollOp) (r : Bytes) (chunk : Nat) : Nat := if o.code = 1 then chunk * gCount r / o.chunks else o.param

/-- The requester that a complete chunk's output is charged to, and its payload bytes: a RESULT with the class of member 0's
context (R281), DATA with the class of the context it goes on. A forwarding chunk's contributions have their setts. -/
def State.outputNeed (s : State) (o : CollOp) (r : Bytes) (chunk : Nat) (data : Bytes) : Option (Nat × Nat) :=
  let result := fun (len : Nat) => (s.memberCtx r 0).map fun m => (reqTransport (chunkDie chunk) (cClass (s.ctxRec m)), 32 + len)
  let on := fun (n len : Nat) => some (reqTransport (n % 2) (cClass (s.ctxRec n)), len)
  match o.code, o.spec with
  | 3, _ => result data.length
  | 0, some sp => if gRoot r then result (chunkBytes sp.result) else on (gUplink r) (chunkBytes sp.fwd)
  | 1, some sp => on ((s.memberCtx r (o.destOf r chunk)).getD 262144) (chunkBytes sp.result)
  | 2, some sp => on ((s.memberCtx r (o.destOf r chunk)).getD 262144) (chunkBytes sp.result)
  | _, _ => none

/-- The setts of a complete chunk's output: the frame of a datagram has 110 bytes beside its payload (R180, R233). -/
def State.outputSetts (s : State) (o : CollOp) (r : Bytes) (chunk : Nat) (data : Bytes) : Option (List Nat) × State :=
  match s.outputNeed o r chunk data with
  | some (q, len) => State.settAllocN q (settCount (110 + len)) [] s
  | none => (some [], s)

/-- A complete chunk's outputs (R275, R279, R281), in setts `l`. `data` is a BROADCAST's contribution. -/
def State.chunkOutputs (s : State) (o : CollOp) (r : Bytes) (b : Bay) (data : Bytes) (l : List Nat) : State :=
  let c := b.chunk
  match o.code with
  | 3 => ((s.sendResult o.group o.seq c o.fmt data (some l)).writeLog o c data).chunkDone o c
  | 4 => (s.sendChunkDone o.group o.seq c).chunkDone o c
  | 5 => (s.sendChunkDone o.group o.seq c).chunkDone o c
  | code =>
    match o.spec with
    | none => s
    | some sp =>
      let (data, counts) := o.rounded sp (gRoot r) b
      let s1 := s.countResults (chunkDie c) counts
      if !gRoot r then
        let s2 := match s1.collOp o.group o.seq with
          | some p => s1.setCollOp { p with queries := p.queries.put c 0 }
          | none => s1
        s2.sendData (gUplink r) o.group (gUpMember r) o.seq c 0 1024 sp.fwd data l
      else if code = 0 then
        ((s1.sendResult o.group o.seq c sp.result data (some l)).writeLog o c data).chunkDone o c
      else
        let dest := o.destOf r c
        (((s1.sendData ((s1.memberCtx r dest).getD 262144) o.group dest o.seq c 0 1024 sp.result data l).sendChunkDone
          o.group o.seq c).writeLog o c data).chunkDone o c

/-! ### Taking contributions (R242, R259 to R263, R277, R278) -/

/-- The pieces of a contribution in element order. -/
def Contrib.ordered (c : Contrib) : List Piece := c.pieces.mergeSort fun a b => decide (a.off ≤ b.off)

/-- A contribution joins the accumulators of a bay (R259, R261 to R263). The flag says that R262's limit was met. -/
def Bay.take (b : Bay) (sp : RSpec) (c : Contrib) : Bay × Bool × Bool :=
  let accs := if b.accs.isEmpty then freshAccs else b.accs
  let fmt := (c.pieces.head?.map (·.fmt)).getD 0
  let ok := sp.mode.accepts fmt && c.pieces.all fun p => p.fmt == fmt
  let b1 := { b with arrived := b.arrived ++ [(c.key.member, c.at_)], count := b.count + 1 }
  if 2 ^ 20 ≤ b.count then ({ b1 with accs := accs.map (Accum.poison sp.mode) }, ok, true)
  else if !ok then ({ b1 with accs := accs.map (Accum.poison sp.mode) }, false, false)
  else
    let add := fun (a : List Accum) (p : Piece) =>
      match fmtOf p.fmt with
      | some f => addRun sp.mode b.arrived.isEmpty a p.off (f.decode p.count p.data)
      | none => a
    ({ b1 with accs := c.pieces.foldl add accs }, true, false)

/-- In ordered mode a contribution waits until every lower member has been added (R263). -/
def mustWait (o : CollOp) (r : Bytes) (b : Bay) (m : Nat) : Bool :=
  match o.spec with
  | some sp => decide (o.code ≤ 2) && sp.mode == .ordered &&
      !((List.range m).all fun i => !o.needs r i || b.arrived.any fun a => a.1 == i)
  | none => false

/-- A chunk's bay is replaced in its operation. -/
def CollOp.setBay (o : CollOp) (b : Bay) : CollOp :=
  { o with bays := o.bays.map fun x => if x.chunk = b.chunk then b else x }

/-- A contribution is forwarded, or added, with its arrival bit set (R275, R277); the packets' setts go with a
forwarded contribution. -/
def State.addContrib (s : State) (o : CollOp) (r : Bytes) (b : Bay) (c : Contrib) : State :=
  let o := { o with seg := o.seg + 1 }
  let fmts := c.pieces.map (·.fmt)
  let mixed := fmts.any fun f => some f != fmts.head?
  let s0 := s.colCount 0
  let s0 := if mixed && decide (2 < o.code) then s0.numCount (chunkDie c.key.chunk) 0 1 else s0
  let b1 := { b with arrived := b.arrived ++ [(c.key.member, c.at_)], count := b.count + 1 }
  let setts := c.pieces.flatMap (·.setts)
  match o.code with
  | 3 =>
    let fmt := (c.pieces.head?.map (·.fmt)).getD 0
    (s0.setCollOp ({ o with fmt := fmt }.setBay b1)).settFrees setts
  | 4 =>
    let dest := (s.memberCtx r ((c.key.member + o.param) % gCount r)).getD 262144
    c.ordered.foldl (fun s p => s.sendData dest o.group c.key.member o.seq c.key.chunk p.off p.count p.fmt p.data p.setts)
      (s0.setCollOp (o.setBay b1))
  | 5 =>
    let dest := (s.memberCtx r (s.permDest o.param c.key.member)).getD 262144
    c.ordered.foldl (fun s p => s.sendData dest o.group c.key.member o.seq c.key.chunk p.off p.count p.fmt p.data p.setts)
      (s0.setCollOp (o.setBay b1))
  | _ =>
    match o.spec with
    | none => s0
    | some sp =>
      let (b2, ok, limit) := b.take sp c
      let die := chunkDie c.key.chunk
      let s1 := if limit then s0.numCount die 4 1 else if ok then s0 else s0.numCount die 0 1
      (s1.setCollOp (o.setBay b2)).settFrees setts

/-- Every arrival bit a chunk needs is set (R279). -/
def CollOp.full (o : CollOp) (r : Bytes) (b : Bay) : Bool :=
  if o.code = 3 then b.arrived.any fun a => a.1 == o.param
  else (List.range (gCount r)).all fun m => b.arrived.any fun a => a.1 == m

/-- A complete chunk's outputs go out, and its bay is freed once they stand in setts (R279); without setts they wait (R187). -/
def State.emitChunk (s : State) (g q chunk : Nat) (data : Bytes) : State :=
  match s.collOp g q, s.collGroup g with
  | some o, some r =>
    match o.bays.find? fun b => b.chunk == chunk with
    | some b =>
      match s.outputSetts o r chunk data with
      | (none, s1) => s1.park (.output g q chunk data)
      | (some l, s1) =>
        let o1 := { o with bays := o.bays.filter fun x => x.chunk != chunk }
        (s1.setCollOp o1).chunkOutputs o1 r b data l
    | none => s
  | _, _ => s

/-- A chunk is complete (R279, R296). -/
def State.finishChunk (s : State) (g q chunk : Nat) (data : Bytes) : State :=
  match s.collOp g q with
  | some o =>
    match o.bays.find? fun b => b.chunk == chunk with
    | some b => ((s.setCollOp { o with complete := withElem o.complete chunk }).noteLateness g b.arrived).emitChunk g q chunk data
    | none => s
  | none => s

/-- What a contribution to an open chunk does: it waits, is a duplicate, or is added, perhaps completing the chunk. The
answer says whether it is settled. -/
def State.settle (s : State) (c : Contrib) : Bool × State :=
  let k := c.key
  let free := fun (s : State) => s.settFrees (c.pieces.flatMap (·.setts))
  match s.contribRefusal k c.ctx with
  | some n => (true, (free s).colCount n)
  | none =>
    match s.collOp k.group k.seq, s.collGroup k.group with
    | some o, some r =>
      if o.chunks ≤ k.chunk then (true, (free s).colCount 9)
      else if o.complete.contains k.chunk then (true, (free s).colCount 5)
      else
        match o.bays.find? fun b => b.chunk == k.chunk with
        | none => (false, s)
        | some b =>
          if b.arrived.any fun a => a.1 == k.member then (true, free s)
          else if mustWait o r b k.member then (false, s)
          else
            let data := c.ordered.flatMap (·.data)
            let s1 := s.addContrib o r b c
            match s1.collOp k.group k.seq with
            | some o1 =>
              match o1.bays.find? fun x => x.chunk == k.chunk with
              | some b1 => (true, if o1.full r b1 then s1.finishChunk k.group k.seq k.chunk data else s1)
              | none => (true, s1)
            | none => (true, s1)
    | _, _ => (false, s)

/-- One pass over the contributions held in setts, in the order in which they became complete. -/
def State.settlePass (s : State) : State :=
  s.col.held.foldl (fun s c =>
    match s.settle c with
    | (true, s1) => s1.onCol fun x => { x with held := x.held.erase c }
    | (false, _) => s) s

/-- Held contributions are taken while any can be. -/
def State.settleHeld : Nat → State → State
  | 0, s => s
  | n + 1, s =>
    let s1 := s.settlePass
    if s1.col.held.length < s.col.held.length then State.settleHeld n s1 else s1

/-! ### Opening bays (R278, R314) -/

/-- A bay opens: its accumulators are zeroed and its bitmap is cleared. -/
def State.openBay (s : State) (o : CollOp) (chunk : Nat) : State :=
  s.setCollOp { o with bays := o.bays ++ [{ chunk := chunk }] }

/-- An admitted dynamic operation opens bays of one die while it holds fewer than granted and chunks remain. -/
def State.openDie : Nat → Nat → Nat → Nat → State → State
  | 0, _, _, _, s => s
  | f + 1, g, q, d, s =>
    match s.collOp g q with
    | some o =>
      let next := if d = 0 then o.nextBow else o.nextStern
      let grant := if d = 0 then o.grantBow else o.grantStern
      if o.plan.isNone && o.admission == .admitted && decide (o.baysOn d < grant) && decide (next < o.chunks) then
        let o1 := if d = 0 then { o with nextBow := next + 2 } else { o with nextStern := next + 2 }
        State.openDie f g q d (s.openBay o1 next)
      else s
    | none => s

/-- Planned bays that wait for granules or lines open, in order, while they fit (R314). -/
def State.openPlanned (s : State) : State :=
  s.col.bayWaits.foldl (fun s w =>
    match s.collOp w.1 w.2.1 with
    | some o =>
      if s.planBayFits o (chunkDie w.2.2) then
        (s.onCol fun c => { c with bayWaits := c.bayWaits.erase w }).openBay o w.2.2
      else s
    | none => s) s

/-! ### Admission (R288, R289) -/

/-- Bays an operation needs with window w on a die. -/
def needBays (w chunks d : Nat) : Nat := min ((w + 1) / 2) (if d = 0 then (chunks + 1) / 2 else chunks / 2)

/-- A window fits the dynamic partitions in force. -/
def State.windowFits (s : State) (o : CollOp) (w : Nat) : Bool :=
  [0, 1].all fun d => decide (needBays w o.chunks d * o.granules ≤ s.dynGran d) &&
    decide (needBays w o.chunks d * s.bayLines o.group ≤ s.dynLines d)

/-- The window after clamping: the largest at or below W that fits, never below 2. -/
def State.clampWindow (s : State) (o : CollOp) : Nat → Nat → Nat
  | 0, _ => 2
  | f + 1, w => if w ≤ 2 then 2 else if s.windowFits o w then w else State.clampWindow s o f (w - 2)

/-- The lowest waiting and the highest admitted of some operations, by key. -/
def lowestOf (l : List CollOp) : Option CollOp :=
  l.foldl (fun b o => match b with
    | some x => if o.key < x.key then some o else some x
    | none => some o) none
def highestOf (l : List CollOp) : Option CollOp :=
  l.foldl (fun b o => match b with
    | some x => if x.key < o.key then some o else some x
    | none => some o) none

/-- An operation is admitted: its wait ends, spilled bays are restored by RESTORE_DONE, and its other bays open. -/
def State.admitOp (s : State) (o : CollOp) (w : Nat) : State :=
  let o1 := { o with admission := .admitted, waited := s.collWait o, window := w,
                     grantBow := needBays w o.chunks 0, grantStern := needBays w o.chunks 1 }
  let s1 := s.setCollOp o1
  if o1.spilled.isEmpty then State.openDie 513 o.group o.seq 1 (State.openDie 513 o.group o.seq 0 s1) else s1

/-- An operation is spilled (R289): it waits again, and its open bays are written out one by one. A bay whose chunk is complete
is open no more: it goes with its outputs. -/
def State.spillOp (s : State) (o : CollOp) : State :=
  let base := o.spilled.length
  let out := o.bays.filter fun b => !o.complete.contains b.chunk
  s.setCollOp { o with
    admission := .wait, since := s.nowNs, spills := o.spills + 1, grantBow := 0, grantStern := 0
    leaving := out, bays := o.bays.filter fun b => o.complete.contains b.chunk
    spilled := o.spilled ++ out.mapIdx fun i b => ⟨b.chunk, b.arrived, base + i, b.count, false⟩ }

/-- The admission procedure (R288). It goes on when a spill in progress completes. -/
def State.admitLoop : Nat → State → State
  | 0, s => s
  | f + 1, s =>
    if s.dynOps.any fun o => !o.leaving.isEmpty then s
    else match lowestOf (s.dynOps.filter fun o => o.admission == .wait) with
      | none => s
      | some r =>
        let w := s.clampWindow r 512 r.window
        let fits := [0, 1].all fun d => decide (needBays w r.chunks d * r.granules ≤ s.freeGran d) &&
          decide (needBays w r.chunks d * s.bayLines r.group ≤ s.freeLines d)
        if fits then State.admitLoop f (s.admitOp r w)
        else match highestOf (s.dynOps.filter fun o => o.admission == .admitted && o.desc.isSome) with
          | some v => if r.key < v.key then State.admitLoop f (s.spillOp v) else s
          | none => s

/-- The next free chunks of every admitted operation open, planned bays that wait open, the admission procedure runs,
and contributions held in setts are taken. -/
def State.collPump1 (s : State) : State :=
  let s1 := s.dynOps.foldl (fun s o => State.openDie 513 o.group o.seq 1 (State.openDie 513 o.group o.seq 0 s)) s
  let s2 := s1.openPlanned
  let s3 := State.admitLoop (2 * s2.col.ops.length + 1) s2
  State.settleHeld (s3.col.held.length + 1) s3

/-- Operations all of whose chunks are done and whose DATA has been acknowledged complete (R279); one whose result log
meets a fault that may not wait ends (R138). -/
def State.collSweep (s : State) : State :=
  (s.col.ops.map (·.2)).foldl (fun s o =>
    match s.collOp o.group o.seq with
    | none => s
    | some p =>
      if !p.logHeld.isEmpty && s.fld Reg.MMU_FAULT_CFG_DEV_WAIT_US == 0 then s.collClose p stTRANSLATION_FAULT
      else if p.done.length == p.chunks && p.logHeld.isEmpty && !s.collOwes p.group p.seq then s.collClose p stOK
      else s) s

/-- The bench settles: bays open, operations are admitted, contributions are taken and operations complete, until nothing
more follows. -/
def State.collPump : Nat → State → State
  | 0, s => s
  | n + 1, s =>
    let s1 := s.collPump1.collSweep
    if s1.col.held.length = s.col.held.length ∧ s1.col.ops.length = s.col.ops.length then s1
    else State.collPump n s1

/-- The bench settles after something changed. -/
def State.collSettle (s : State) : State := State.collPump (s.col.held.length + s.col.ops.length + 1) s

/-- An operation ends early (R293): a spill in progress completes first. -/
def State.collEnd (s : State) (o : CollOp) (status : Nat) : State :=
  if o.leaving.isEmpty || o.areaHeld then (s.collClose o status).collSettle
  else s.setCollOp { o with ending := some status }

/-- Operations that depend on a context that has failed end (R247, R293). -/
def State.collCtxFailed (s : State) (n : Nat) : State :=
  (s.col.ops.map (·.2)).foldl (fun s o =>
    match s.collGroup o.group with
    | some r =>
      if gUplink r == n || (List.range (gCount r)).any fun i => s.memberCtx r i == some n then
        match s.collOp o.group o.seq with
        | some p => s.collEnd p stCOLL_MEMBER_FAILED
        | none => s
      else s
    | none => s) s

/-- A complete contribution is handed over (R242, R277). -/
def State.contribution (s : State) (c : Contrib) : State :=
  match s.settle c with
  | (true, s1) => s1.collSettle
  | (false, s1) => (s1.onCol fun x => { x with held := x.held ++ [c] }).collSettle

/-! ### DATA packets (R241 to R243) -/

/-- RCV_NXT advances past every contiguous received PSN. -/
def advanceRcv : Nat → Nat → List Nat → Nat × List Nat
  | 0, n, l => (n, l)
  | f + 1, n, l => if n ∈ l then advanceRcv f ((n + 1) % M32) (without l n) else (n, l)

/-- An accepted packet is placed by its position (R242). -/
def State.placePiece (s : State) (n : Nat) (d : Bytes) (setts : List Nat) : State :=
  match s.ctx? n with
  | none => s.settFrees setts
  | some c =>
    let k : CKey := ⟨tGroup d, tSeq d, tChunk d, tMember d⟩
    let ps := c.partials.getD k []
    let lo := tOff d
    let hi := tOff d + tCount d
    if (s.col.held.any fun x => x.key == k) || (ps.any fun p => decide (lo < p.off + p.count) && decide (p.off < hi)) then
      (s.settFrees setts).tptCount 5
    else
      let ps := ps ++ [⟨lo, tCount d, tFmt d, tPayload d, setts⟩]
      if 1024 ≤ sumOf (ps.map (·.count)) then
        (s.setCtx n { c with partials := c.partials.del k }).contribution ⟨k, n, ps, s.nowNs⟩
      else s.setCtx n { c with partials := c.partials.put k ps }

/-- A contribution is answered WINDOW: a stall of the context begins, or, from 1 ms on, counts once against the member's
health (R278, R531). -/
def State.windowStall (s : State) (n reason : Nat) : State :=
  if reason ≠ 2 then s
  else match s.col.windowSince.find n with
    | none => s.onCol fun c => { c with windowSince := c.windowSince.put n (s.uptimeNs, false) }
    | some (t, told) =>
      if told = true ∨ s.uptimeNs < t + 1000000 then s
      else
        let s1 := s.onCol fun c => { c with windowSince := c.windowSince.put n (t, true) }
        { s1 with flt := { s1.flt with stalled := s1.flt.stalled ++ [n] } }

/-- A packet is accepted: a stall of its context is over. -/
def State.windowEnd (s : State) (n : Nat) : State := s.onCol fun c => { c with windowSince := c.windowSince.del n }

/-- A DATA packet on an OPEN context (R241 to R243, R245). -/
def State.rxData (s : State) (n : Nat) (d : Bytes) (setts : List Nat) : State :=
  let s0 := s.onAck n (tAckPsn d) []
  match s0.ctx? n with
  | none => s0.settFrees setts
  | some c =>
    let off := psnSub (tPsn d) c.rcvNxt
    if 2 ^ 31 ≤ off ∨ tPsn d ∈ c.rcvMap then ((s0.settFrees setts).tptCount 1).sendAck n
    else if 256 ≤ off then (s0.settFrees setts).tptCount 2
    else
      let k : CKey := ⟨tGroup d, tSeq d, tChunk d, tMember d⟩
      match (if c.partials.has k || s0.col.held.any (fun x => x.key == k) then none else s0.notYetAnswer k n) with
      | some (reason, pos) =>
        ((((s0.settFrees setts).colCount (notYetCounter reason)).tptCount 9).windowStall n reason).sendCtrl n
          (ctrlHead 1 reason k.group k.seq k.chunk k.member 0 0 (tPsn d) pos)
      | none =>
        let (nxt, map) := advanceRcv 257 c.rcvNxt (c.rcvMap ++ [tPsn d])
        let s1 := ((s0.setCtx n { c with rcvNxt := nxt, rcvMap := map, sinceAck := c.sinceAck + 1 }).tptCount 0).windowEnd n
        let s2 := if tCount d = 0 then (s1.settFrees setts).tptCount 4 else s1.placePiece n d setts
        if bitAt (tFlags d) 1 || (decide (0 < off) && nxt == c.rcvNxt) ||
            decide (s.fld Reg.TPT_TIMER_CFG_ACK_EVERY ≤ c.sinceAck + 1) ||
            s.fld Reg.TPT_TIMER_CFG_ACK_DELAY_NS == 0
        then s2.sendAck n else s2

/-- An ACK packet on an OPEN context (R245). -/
def State.rxAck (s : State) (n : Nat) (d : Bytes) (setts : List Nat) : State :=
  (((s.settFrees setts).onAck n (tAckPsn d) (tPayload d)).fastResend n).collSettle

/-! ### CTRL messages (R280 to R282) -/

/-- The result-log bytes of a done chunk, when it can be read. -/
def State.readLog (s : State) (domain log fmt chunk : Nat) : Option Bytes :=
  let len := chunkBytes fmt
  let dva := log + chunk * len
  match s.rangeFault domain dva len false with
  | none => if s.dvaLost domain dva len then none else some (s.dvaRead domain dva len)
  | some _ => none

/-- A QUERY is answered for a done chunk of an operation (R282). -/
def State.answerQuery (s : State) (n g q chunk : Nat) (p : PastOp) : State :=
  let gone := fun (s : State) => (s.colCount 13).sendCtrl n (ctrlHead 5 0 g q chunk 0 0 0 0 0)
  if !p.done.contains chunk then s
  else if p.code = 0 ∨ p.code = 3 then
    if p.log = 0 then gone s
    else match s.readLog p.domain p.log p.fmt chunk with
      | some data => ((s.cacheRange p.domain (p.log + chunk * data.length) data.length false).colCount 12).sendCtrl n (ctrlHead 3 0 g q chunk 0 1024 p.fmt 0 0 ++ data)
      | none => gone s
  else (s.colCount 12).sendCtrl n (ctrlHead 2 0 g q chunk 0 0 0 0 0)

/-- A QUERY arrives on a context (R282). -/
def State.rxQuery (s : State) (n g q chunk : Nat) : State :=
  match (if s.collDone g q then s.outerChunk g q chunk else none) with
  | some (data, rub) => ((s.chunkExpanded chunk rub).colCount 12).sendCtrl n (ctrlHead 3 0 g q chunk 0 1024 1 0 0 ++ data)
  | none =>
    match s.collOp g q with
    | some o => s.answerQuery n g q chunk ⟨q, o.code, o.fmt, o.domain, o.log, o.done⟩
    | none =>
      if s.collDone g q then
        match ((s.grpState g).past.take (s.fld Reg.COL_ADMIT_CFG_RESULT_DEPTH)).find? fun p => p.seq == q with
        | some p => s.answerQuery n g q chunk p
        | none => (s.colCount 13).sendCtrl n (ctrlHead 5 0 g q chunk 0 0 0 0 0)
      else s

/-- A parent's RESULT arrives at a non-root device: it is relayed and written to the result log (R281, R279). -/
def State.rxResult (s : State) (d : Bytes) : State :=
  let g := kGroup d
  let q := kSeq d
  let c := kChunk d
  match s.collOp g q, s.collGroup g with
  | some o, some r =>
    if gRoot r || !o.complete.contains c || o.done.contains c then s
    else
      let data := sliceB d 72 (tLen d - 32)
      (((s.sendResult g q c (kFmt d) data).writeLog o c data).chunkDone o c).collSettle
  | _, _ => s

/-- A GONE answers a query on the uplink context: the operation ends COLL_RESULT_LOST (R282). -/
def State.rxGone (s : State) (n : Nat) (d : Bytes) : State :=
  match s.collOp (kGroup d) (kSeq d), s.collGroup (kGroup d) with
  | some o, some r => if gUplink r == n && o.queries.has (kChunk d) then s.collEnd o stCOLL_RESULT_LOST else s
  | _, _ => s

/-- The partial sum of a chunk has been acknowledged by the parent. -/
def State.uplinkAcked (s : State) (ctx g q chunk : Nat) : Bool :=
  let mine := fun (h : Bytes) => headIs g q h && getBE h 8 4 == chunk
  match s.ctx? ctx with
  | some c => !(c.sent.any fun p => !p.sacked && mine p.head) && !(c.queue.any fun i => mine i.head)
  | none => false

/-- QUERY_US passes without the parent's RESULT (R282). -/
def State.queryTimer (s : State) (g q chunk : Nat) : State :=
  match s.collOp g q, s.collGroup g with
  | some o, some r =>
    match o.queries.find chunk with
    | some n =>
      if !s.uplinkAcked (gUplink r) g q chunk then s
      else if 8 ≤ n then s.collEnd o stCOLL_RESULT_LOST
      else (s.setCollOp { o with queries := o.queries.put chunk (n + 1) }).sendCtrl (gUplink r)
        (ctrlHead 4 0 g q chunk 0 0 0 0 0)
    | none => s
  | _, _ => s

/-- A CTRL message on an OPEN context, by its type; a type that R280 does not list is counted BAD_HDR. -/
def State.rxCtrl (s : State) (n : Nat) (d : Bytes) (setts : List Nat) : State :=
  let s1 := s.settFrees setts
  match kCtype d with
  | 1 => s1.notYet n (kPsnRef d)
  | 2 => s1
  | 3 => s1.rxResult d
  | 4 => s1.rxQuery n (kGroup d) (kSeq d) (kChunk d)
  | 5 => s1.rxGone n d
  | _ => s1.tptCount 4

/-- A datagram of any type on an OPEN context that has been fetched (R238). -/
def State.rxAny (s : State) (n : Nat) (d : Bytes) (setts : List Nat) : State :=
  if tTyp d = 0 then s.rxData n d setts else if tTyp d = 1 then s.rxAck n d setts else s.rxCtrl n d setts

/-- A datagram of the CTRL type and a CTYPE. -/
def isCtrl (ct : Nat) (d : Bytes) : Bool := tTyp d == 2 && kCtype d == ct

/-- The datagrams that wait for a context record proceed in order, once it is cached (R238). -/
def State.fetched (s : State) (n : Nat) : State :=
  match s.ctxCacheIn n with
  | none => s
  | some s1 =>
    let mine := s1.tpt.waiting.filter fun w => w.ctx == n
    let s2 := s1.onTpt fun t => { t with waiting := t.waiting.filter fun w => w.ctx != n }
    mine.foldl (fun s w => s.rxOpen n w.datagram w.setts fun s => s.rxAny n w.datagram w.setts) s2

/-! ### What waits for setts (R187) -/

/-- The die on whose frees something waits. -/
def State.waitDie (s : State) : Waiting → Nat
  | .own p => s.reqDie p.req
  | .output _ _ c _ => chunkDie c
  | .data n => (((s.ctx? n).bind fun c => c.queue.head?.bind fun i => i.setts.head?).map (· / dieSetts)).getD (n % 2)
  | .resend n psn => (((s.ctx? n).bind fun c => (c.sent.find? fun p => p.psn == psn).bind fun p => p.setts.head?).map
      (· / dieSetts)).getD (n % 2)

/-- What waits is tried again; one refused again keeps its place, and no second refusal is counted
(notes/assumptions/183.md). -/
def State.retryOne (s : State) (w : Waiting) : State :=
  let s0 := s.onTpt fun t => { t with parked := t.parked.erase w }
  let t := match w with
    | .own p => s0.sendOut p
    | .data n => s0.transportSend n
    | .output g q c b => (s0.emitChunk g q c b).collSettle
    | .resend n psn => s0.resendHeld n psn
  if t.tpt.parked.length < s.tpt.parked.length then t else s

/-- Setts have returned to a die's free list between two states. -/
def State.freedOn (s t : State) (die : Nat) : Bool :=
  if die = 0 then s.sett.freesBow != t.sett.freesBow else s.sett.freesStern != t.sett.freesStern

/-- What waits is retried in order on the dies where setts have come free since `s0`, and again while that frees
more. -/
def State.retryFreed : Nat → State → State → State
  | 0, _, s => s
  | n + 1, s0, s =>
    let due := s.tpt.parked.filter fun w => s0.freedOn s (s.waitDie w)
    if due.isEmpty then s else State.retryFreed n s (due.foldl (fun s w => s.retryOne w) s)

/-- What a command that may free setts does: it ends with what was waiting for one (R187). -/
def State.pooled (s : State) (f : State → State) : State :=
  let t := f s
  if t.coreOff then t else State.retryFreed (t.tpt.parked.length + 1) s t

/-- The same of a command of the core. -/
def State.inPool (s : State) (f : State → State) : State := s.inCore fun s => s.pooled f

end Sys2Proof.Machine
end

