-- ==== Sys2Proof/Machine/Collectives.lean ====
section
/-!
DEFINITION. Dynamic collectives and the commands of transport and the bench (R241 to R245, R270, R275 to R297): COLL
descriptors, spill and restore, datagrams by type, timers and counters.
-/

namespace Sys2Proof.Machine

/-! ### COLL descriptors (R284, R285, R293) -/

/-- PARAM lies in the range of the code (R275, R284, R285). -/
def State.collParamOk (s : State) (code param : Nat) (r : Bytes) : Bool :=
  match code with
  | 0 => param == 0
  | 1 => param == 0
  | 2 => decide (param < gCount r)
  | 3 => decide (param < gCount r)
  | 4 => true
  | _ => decide (param < 1024) && (match s.tabRec 0x32 param with
    | some t => getLE t 0x08 2 == gCount r
    | none => false)

/-- An enabled CQ ring of a function, as the device numbers it. -/
def State.cqRing (s : State) (fn n : Nat) : Option Nat :=
  let g := s.globalRing fn n
  let r := s.ring g
  if r.enabled && r.kind == kindCQ && s.ringFn g == fn then some g else none

/-- Why a COLL descriptor completes without admission, in the order of the table of R285, if it does. -/
def State.collRefusal (s : State) (fn : Nat) (d : Bytes) : Option Nat :=
  let code := dOp d
  let g := cGroup d
  let q := cOpSeq d
  let reducing := decide (code ≤ 2)
  if 16777216 < cChunkCount d ∨ cWindow d % 2 = 1 ∨ 1024 < cWindow d ∨ (reducing = true ∧ cSpill d = 0) ∨
      (cEntries d = true ∧ (s.cqRing fn (cChunkCq d)).isNone) then some stBAD_FIELD
  else match s.collGroup g with
    | none => some stCOLL_BAD_GROUP
    | some r =>
      if code ≠ 0 ∧ !gRoot r then some stCOLL_BAD_OP
      else if !s.collParamOk code (cParam d) r then some stBAD_FIELD
      else if reducing && (parseSpec (cSpec d)).isNone then some stCOLL_BAD_SPEC
      else if (s.collOp g q).isSome || (s.plannedKey g q).isSome || s.collDone g q then some stCOLL_SEQ_USED
      else if (s.grpState g).doneNext + 63 < q then some stCOLL_SEQ_RANGE
      else
        let gran := match parseSpec (cSpec d) with
          | some sp => if reducing then sp.mode.granules else 0
          | none => 0
        if [0, 1].any fun die => decide (s.dynGran die < gran) || decide (s.dynLines die < s.bayLines g)
        then some stCOLL_NO_BENCH else none

/-- A LOG or SPILL area in a domain that is not enabled, or outside the function's partition (R134). -/
def State.collDenied (s : State) (o : Op) : Bool :=
  (cLog o.desc != 0 || cSpill o.desc != 0) && (o.dark || (s.domainOf o.fn (dDomain o.desc)).isNone)

/-- A COLL descriptor with a code of R275 starts (R284 to R288). -/
def State.collStart (s : State) (o : Op) : State :=
  let d := o.desc
  let g := cGroup d
  match s.collRefusal o.fn d with
  | some st => s.finish o.key st
  | none =>
    if s.collDenied o then s.finish o.key stDOMAIN_DENIED
    else
      let spec := if dOp d ≤ 2 then parseSpec (cSpec d) else none
      let c : CollOp := {
        group := g, seq := cOpSeq d, code := dOp d, spec := spec, chunks := cChunkCount d, param := cParam d
        desc := some o.key, fn := o.fn, domain := (s.domainOf o.fn (dDomain d)).getD 0, log := cLog d, spill := cSpill d
        entries := cEntries d, chunkCq := (s.cqRing o.fn (cChunkCq d)).getD 0
        fmt := (spec.map (·.result)).getD 0
        window := if cWindow d = 0 then s.fld Reg.COL_ADMIT_CFG_DEF_WINDOW else cWindow d
        since := s.nowNs }
      if cChunkCount d = 0 then
        (s.endOp o.key { status := stOK, zeroCount := true }).markDone g c.seq ⟨c.seq, c.code, c.fmt, 0, 0, []⟩
      else (s.setCollOp c).collSettle

/-- CANCEL (R293). -/
def State.collCancel (s : State) (o : Op) : State :=
  match s.collOp (cGroup o.desc) (cOpSeq o.desc) with
  | some c =>
    if c.plan.isNone then (s.finish o.key stOK).collEnd c stCOLL_CANCELLED else s.finish o.key stBAD_FIELD
  | none => s.finish o.key stBAD_FIELD

/-- A COLL descriptor of one code starts. -/
def State.collCode (s : State) (k : OpKey) (code : Nat) (body : Op → State → State) : State :=
  s.start k (fun d => dKind d == kindCOLL && dOp d == code) body

/-! ### Spill and restore (R289) -/

/-- Bytes of one bay in a spill area. -/
def CollOp.spillBytes (o : CollOp) : Nat := o.granules * 4096 + 64

/-- A spill or restore meets a translation fault: it is held (R138, R289). -/
def State.areaFault (s : State) (o : CollOp) (dva reason : Nat) (write : Bool) : State :=
  let s1 := (s.setCollOp { o with areaHeld := true }).mmuFault o.domain dva reason write
  match s.faultEnds reason with
  | some st => s1.collEnd { o with areaHeld := true } (if st = stTRANSLATION_FAULT then stCOLL_SPILL_FAULT else st)
  | none => s1

/-- A spill segment completes (R289): the bay's accumulators and a 64-byte header, whose layout the manual does not give,
stand in the spill area, and the bay is free. -/
def State.spillDone (s : State) (g q chunk : Nat) : State :=
  match s.collOp g q with
  | none => s
  | some o =>
    match o.leaving.find? fun b => b.chunk == chunk, o.spilled.find? fun b => b.chunk == chunk with
    | some b, some sp =>
      let dva := o.spill + sp.slot * o.spillBytes
      let fault := if o.spill = 0 then none else s.rangeFault o.domain dva o.spillBytes true
      match fault with
      | some (a, r) => s.areaFault o a r true
      | none =>
        let accs := match o.spec with
          | some m => accsBytes m.mode (if b.accs.isEmpty then freshAccs else b.accs)
          | none => []
        let (head, s1) := s.freshBytes 64
        let s2 := if o.spill = 0 then s else State.dvaWrite o.domain dva (accs ++ head) s1
        let o1 := { o with
          areaHeld := false
          leaving := o.leaving.filter fun x => x.chunk != chunk
          spilled := o.spilled.map fun x => if x.chunk = chunk then { x with written := true } else x }
        let s3 := (s2.setCollOp o1).colCount 10
        match o1.leaving.isEmpty, o1.ending with
        | true, some st => (s3.collClose o1 st).collSettle
        | _, _ => s3.collSettle
    | _, _ => s

/-- A restore segment completes (R289): the chunk's bay reopens with its arrival bits. An uncorrectable read ends the
operation. -/
def State.restoreDone (s : State) (g q chunk : Nat) (read : MemRead) : State :=
  match s.collOp g q with
  | none => s
  | some o =>
    match o.admission, o.spilled.find? fun b => b.chunk == chunk && b.written with
    | .admitted, some sp =>
      let dva := o.spill + sp.slot * o.spillBytes
      let fault := if o.spill = 0 then none else s.rangeFault o.domain dva o.spillBytes false
      match fault with
      | some (a, r) => s.areaFault o a r false
      | none =>
        match (if o.spill = 0 then (some [], s) else s.dvaGet o.domain dva o.spillBytes read) with
        | (none, s1) => s1.collEnd o stMEM_UNCORRECTABLE
        | (some b, s1) =>
          let accs := match o.spec with
            | some m => accsOf m.mode ((List.range (o.granules * 4096)).map fun i => b.getD i 0)
            | none => []
          let o1 := { o with
            areaHeld := false
            spilled := o.spilled.filter fun x => x.chunk != chunk
            bays := o.bays ++ [{ chunk := chunk, accs := accs, arrived := sp.arrived, count := sp.count }] }
          ((s1.setCollOp o1).colCount 11).collSettle
    | _, _ => s

/-! ### Meanings -/

/-- SETT_FREE (R184). -/
def execSettFree (n : Nat) (s : State) : Host.Outcome State Fault Refusal :=
  .next (s.inPool fun s => if n < 2 * dieSetts then s.settFree n else s)

/-- PACKET_INGRESS (R195). -/
def execPacketIngress (port : Nat) (frame : Bytes) (s : State) : Host.Outcome State Fault Refusal :=
  .next (s.inPool fun s => if port < 576 then s.portFrame port frame else s)

/-- PACKET_DEPART (R197). -/
def execPacketDepart (d : Departure) (s : State) : Host.Outcome State Fault Refusal :=
  .next (s.inPool fun s => if d.port < 576 then s.depart d.port d.errs else s)

/-- MC_AGE (R207). -/
def execMcAge (queue : Nat) (s : State) : Host.Outcome State Fault Refusal :=
  .next (s.inPool fun s => s.mcAge queue)

/-- LLR_INIT (R248). -/
def execLlrInit (port : Nat) (s : State) : Host.Outcome State Fault Refusal :=
  .next (s.inPool fun s => s.llrInit port)

/-- LLR_FRAME_RECEIVE (R249). -/
def execLlrFrameReceive (port lsn : Nat) (frame : Bytes) (s : State) : Host.Outcome State Fault Refusal :=
  .next (s.inPool fun s => s.llrFrame port lsn frame)

/-- LLR_ACK (R250, R201). -/
def execLlrAck (port lsn qdelay : Nat) (s : State) : Host.Outcome State Fault Refusal :=
  .next (s.inPool fun s => if (s.llrOf port).active then (s.llrRelease port lsn).llrFar port qdelay else s)

/-- LLR_NAK (R250). -/
def execLlrNak (port lsn qdelay : Nat) (s : State) : Host.Outcome State Fault Refusal :=
  .next (s.inPool fun s =>
    if (s.llrOf port).active then ((s.llrRelease port lsn).llrFar port qdelay).llrReplay port else s)

/-- LLR_TIMEOUT (R250). -/
def execLlrTimeout (port : Nat) (s : State) : Host.Outcome State Fault Refusal :=
  .next (s.inPool fun s => if (s.llrOf port).active then s.llrReplay port else s)

/-- TRANSPORT_SEND (R244). -/
def execTransportSend (ctx : Nat) (s : State) : Host.Outcome State Fault Refusal :=
  .next (s.inPool fun s => s.transportSend ctx)

/-- ACK_DELAY_EXPIRE (R243). -/
def execAckDelayExpire (ctx : Nat) (s : State) : Host.Outcome State Fault Refusal :=
  .next (s.inPool fun s =>
    match s.ctx? ctx with
      | some c => if !c.failed && decide (0 < c.sinceAck) then s.sendAck ctx else s
      | none => s)

/-- NOT_YET_BACKOFF (R291): the packet is resent; such resends do not count toward RETRY_MAX. -/
def execNotYetBackoff (ctx psn : Nat) (s : State) : Host.Outcome State Fault Refusal :=
  .next (s.inPool fun s =>
    match s.ctx? ctx with
      | some c => if c.sent.any fun p => p.psn == psn && p.backoff then s.resend ctx psn else s
      | none => s)

/-- The bay of a contribution, or its setts, read uncorrectable: the operation ends (R293). -/
def State.rxLost (s : State) (n : Nat) (d : Bytes) (setts : List Nat) : State :=
  match s.collOp (tGroup d) (tSeq d) with
  | some o => (s.settFrees setts).collEnd o stMEM_UNCORRECTABLE
  | none => s.rxAny n d setts

/-- TRANSPORT_DATA_RECEIVE (R241). -/
def execTransportDataReceive (req : Nat) (p : RxData) (s : State) : Host.Outcome State Fault Refusal :=
  .next (s.inPool fun s =>
    s.rxDatagram req p.frame (fun d => tTyp d == 0 || (tTyp d == 2 && !(decide (1 ≤ kCtype d ∧ kCtype d ≤ 5))))
      fun n d l s => if p.lost && tTyp d == 0 then s.rxLost n d l else s.rxAny n d l)

/-- TRANSPORT_ACK_RECEIVE (R245). -/
def execTransportAckReceive (req : Nat) (frame : Bytes) (s : State) : Host.Outcome State Fault Refusal :=
  .next (s.inPool fun s => s.rxDatagram req frame (fun d => tTyp d == 1) fun n d l s => s.rxAck n d l)

/-- COLL_NOT_YET (R291). -/
def execCollNotYet (req : Nat) (frame : Bytes) (s : State) : Host.Outcome State Fault Refusal :=
  .next (s.inPool fun s => s.rxDatagram req frame (isCtrl 1) fun n d l s => s.rxCtrl n d l)

/-- COLL_CHUNK_DONE (R281). -/
def execCollChunkDone (req : Nat) (frame : Bytes) (s : State) : Host.Outcome State Fault Refusal :=
  .next (s.inPool fun s => s.rxDatagram req frame (isCtrl 2) fun n d l s => s.rxCtrl n d l)

/-- COLL_RESULT (R281). -/
def execCollResult (req : Nat) (frame : Bytes) (s : State) : Host.Outcome State Fault Refusal :=
  .next (s.inPool fun s => s.rxDatagram req frame (isCtrl 3) fun n d l s => s.rxCtrl n d l)

/-- COLL_QUERY (R282). -/
def execCollQuery (req : Nat) (frame : Bytes) (s : State) : Host.Outcome State Fault Refusal :=
  .next (s.inPool fun s => s.rxDatagram req frame (isCtrl 4) fun n d l s => s.rxCtrl n d l)

/-- COLL_GONE (R282). -/
def execCollGone (req : Nat) (frame : Bytes) (s : State) : Host.Outcome State Fault Refusal :=
  .next (s.inPool fun s => s.rxDatagram req frame (isCtrl 5) fun n d l s => s.rxCtrl n d l)

/-- QUERY_TIMER (R282). -/
def execQueryTimer (group seq chunk : Nat) (s : State) : Host.Outcome State Fault Refusal :=
  .next (s.inPool fun s => s.queryTimer group seq chunk)

/-- SPILL_DONE (R289). -/
def execSpillDone (group seq chunk : Nat) (s : State) : Host.Outcome State Fault Refusal :=
  .next (s.inPool fun s => s.spillDone group seq chunk)

/-- RESTORE_DONE (R289). -/
def execRestoreDone (group seq chunk : Nat) (read : MemRead) (s : State) : Host.Outcome State Fault Refusal :=
  .next (s.inPool fun s => s.restoreDone group seq chunk read)

/-- COLL_ALLREDUCE (R275). -/
def execCollAllreduce (op : OpKey) (s : State) : Host.Outcome State Fault Refusal :=
  .next (s.pooled fun s => s.collCode op 0 fun o s => s.collStart o)

/-- COLL_REDUCE_SCATTER (R275). -/
def execCollReduceScatter (op : OpKey) (s : State) : Host.Outcome State Fault Refusal :=
  .next (s.pooled fun s => s.collCode op 1 fun o s => s.collStart o)

/-- COLL_REDUCE (R275). -/
def execCollReduce (op : OpKey) (s : State) : Host.Outcome State Fault Refusal :=
  .next (s.pooled fun s => s.collCode op 2 fun o s => s.collStart o)

/-- COLL_BROADCAST (R275). -/
def execCollBroadcast (op : OpKey) (s : State) : Host.Outcome State Fault Refusal :=
  .next (s.pooled fun s => s.collCode op 3 fun o s => s.collStart o)

/-- COLL_SHIFT (R275). -/
def execCollShift (op : OpKey) (s : State) : Host.Outcome State Fault Refusal :=
  .next (s.pooled fun s => s.collCode op 4 fun o s => s.collStart o)

/-- COLL_PERMUTE (R275). -/
def execCollPermute (op : OpKey) (s : State) : Host.Outcome State Fault Refusal :=
  .next (s.pooled fun s => s.collCode op 5 fun o s => s.collStart o)

/-- COLL_CANCEL (R293). -/
def execCollCancel (op : OpKey) (s : State) : Host.Outcome State Fault Refusal :=
  .next (s.pooled fun s => s.collCode op 6 fun o s => s.collCancel o)

/-- COL_STAT_CLR (R297). -/
def execColStatClr (v : View) (w : Word) (s : State) : Host.Outcome State Fault Refusal :=
  .next (s.selClear v .col 0x300 w fun sel s => s.setFld Reg.COL_STAT_VALUE_VALUE (bitsOf sel 0 4) 0)

/-- COL_LATE_CLR (R297). -/
def execColLateClr (v : View) (w : Word) (s : State) : Host.Outcome State Fault Refusal :=
  .next (s.selClear v .col 0x400 w fun sel s =>
    s.onCol fun c => { c with late := c.late.filter fun p => p.1.1 != bitsOf sel 0 4 })

/-- BEN_NUM_CLR (R270). -/
def execBenNumClr (v : View) (w : Word) (s : State) : Host.Outcome State Fault Refusal :=
  .next (s.selClear v .ben 0x800 w fun sel s => s.setFld Reg.BEN_NUM_VALUE_VALUE (bitsOf sel 0 4) 0)

end Sys2Proof.Machine
end

