-- ==== Sys2Proof/Machine/LineBase.lean ====
section
/-!
DEFINITION. Line groups as their users see them: the group's record and the object queues (R416, R418), which programs, the
outer-round unit and LINE_SEND all fill.
-/

namespace Sys2Proof.Machine

/-- The state with the line engine changed. -/
def State.onLine (s : State) (f : LineState → LineState) : State := { s with line := f s.line }
def State.lgrp (s : State) (g : Nat) : LineGroup := s.line.groups.getD g {}
def State.setLgrp (s : State) (g : Nat) (x : LineGroup) : State := s.onLine fun l => { l with groups := l.groups.put g x }

def State.lineOn (s : State) (g : Nat) : Bool := s.flag Reg.SLF_GRP_CFG_ENABLE g

/-- An object's header (R416). -/
def objHeader (len : Nat) (tag : Bytes) (kind : Nat) : Bytes :=
  bytesBE 8 len ++ sliceB tag 0 16 ++ bytesBE 1 kind ++ zeros 39

/-- Frames of an object. -/
def LineObj.total (o : LineObj) : Nat := (64 + o.len + 8191) / 8192

/-- The queue sends only objects that a LINE entry has released. -/
def State.linePlanned (s : State) (g q : Nat) : Bool := bitAt (s.fld Reg.SLF_GRP_CFG_PLANNED g) q

/-- Waiting LINE entries release the objects queued since (R418). -/
def LineGroup.matchReleases (x : LineGroup) (q : Nat) : LineGroup :=
  match x.releases.find? fun r => r.1 == q with
  | none => x
  | some r =>
    let l := x.queues.getD q []
    match l.findIdx? fun o => !o.released with
    | none => x
    | some i =>
      { x with
        releases := x.releases.erase r
        queues := x.queues.put q (l.modify i fun o => { o with released := true, ref := some r.2 }) }

/-- An object joins a queue. -/
def State.linePut (s : State) (g q : Nat) (o : LineObj) : State :=
  let x := s.lgrp g
  let n := x.seqs.getD q 0
  let x1 := { x with
    queues := x.queues.put q (x.queues.getD q [] ++ [{ o with seq := n }])
    seqs := x.seqs.put q ((n + 1) % 2 ^ 32) }
  s.setLgrp g (if s.linePlanned g q then x1.matchReleases q else x1)

end Sys2Proof.Machine
end

