-- ==== Sys2Proof/Machine/Optical.lean ====
section
/-!
DEFINITION. Optical port groups and electrical lanes (R36, R37, R156 to R178, R493): lane coding, markers, identity,
the lane control channel, heaters, feathering, cover and retirement, training, and links going up and down.
-/

namespace Sys2Proof.Machine

/-! ### Port groups -/

def State.grp (s : State) (g : Nat) : OptGroup := s.lanes.groups.getD g {}
def State.setGrp (s : State) (g : Nat) (x : OptGroup) : State :=
  { s with lanes := { s.lanes with groups := s.lanes.groups.put g x } }
def State.onGrp (s : State) (g : Nat) (f : OptGroup → OptGroup) : State := s.setGrp g (f (s.grp g))

def OptGroup.dir (x : OptGroup) (rx : Bool) : OptDir := if rx then x.rx else x.tx
def OptGroup.setDir (x : OptGroup) (rx : Bool) (d : OptDir) : OptGroup :=
  if rx then { x with rx := d } else { x with tx := d }
def State.optDir (s : State) (g : Nat) (rx : Bool) : OptDir := (s.grp g).dir rx
def State.setOptDir (s : State) (g : Nat) (rx : Bool) (d : OptDir) : State := s.onGrp g fun x => x.setDir rx d

def State.och (s : State) (g c : Nat) : OptChan := (s.grp g).chans.getD c {}
def State.setOch (s : State) (g c : Nat) (x : OptChan) : State :=
  s.onGrp g fun y => { y with chans := y.chans.put c x }

/-- The instance of a channel's registers. -/
def chanInst (g c : Nat) : Nat := g + 64 * c

/-- Group states of `OPT.PG_STATUS`. -/
def gsOFF : Nat := 0
def gsWATCH : Nat := 1
def gsACQUIRING : Nat := 2
def gsUP : Nat := 3
def gsID_MISMATCH : Nat := 4
def gsFEED_LOST : Nat := 5

/-- Channel states of `OPT.LANE_STATUS`. -/
def csDOWN : Nat := 0
def csACQUIRING : Nat := 1
def csIN_SERVICE : Nat := 2
def csSPARE : Nat := 3
def csCALIBRATING : Nat := 4
def csCOVERING : Nat := 5
def csALIAS : Nat := 6
def csRETIRED : Nat := 7

def State.groupSt (s : State) (g : Nat) : Nat := s.fld Reg.OPT_PG_STATUS_STATE g
def State.setGroupSt (s : State) (g v : Nat) : State := s.setFld Reg.OPT_PG_STATUS_STATE g v
def State.chanSt (s : State) (g c : Nat) : Nat := s.fld Reg.OPT_LANE_STATUS_STATE (chanInst g c)
def State.setChanSt (s : State) (g c v : Nat) : State :=
  if s.chanSt g c = csRETIRED then s else s.setFld Reg.OPT_LANE_STATUS_STATE (chanInst g c) v
def State.rxLocked (s : State) (g c : Nat) : Bool := s.flag Reg.OPT_LANE_STATUS_RX_LOCK (chanInst g c)

/-- The transmit binding and spare are shown in LANE_STATUS and PG_STATUS. -/
def State.showBinding (s : State) (g : Nat) : State :=
  let d := s.optDir g false
  ((List.range 17).foldl (fun s c => s.setFld Reg.OPT_LANE_STATUS_LANE (chanInst g c) (d.bind.getD c 31)) s).setFld
    Reg.OPT_PG_STATUS_SPARE_CH g d.spare

/-- The port of a group's lane. -/
def State.lanePort (s : State) (g lane : Nat) : Nat := 8 * g + lane / s.portLanes (8 * g)

/-- A logical lane without a channel takes down its port (R171). -/
def State.laneDown (s : State) (g lane : Nat) : State :=
  if lane ∈ (s.grp g).lanesDown then s
  else
    let p := s.lanePort g lane
    let s1 := (s.onGrp g fun x => { x with lanesDown := x.lanesDown ++ [lane] }).raise Ev.LANE_DOWN g (lane + p % 8 * 256)
    (if s.portBypassed p then s1 else s1.healthAdd (.port p) 16).linkDown p

/-- A logical lane has a channel again. -/
def State.laneBack (s : State) (g lane : Nat) : State :=
  s.onGrp g fun x => { x with lanesDown := without x.lanesDown lane }

/-- Every port of a group goes down. -/
def State.portsDown (s : State) (g : Nat) : State := (List.range 8).foldl (fun s p => s.linkDown (8 * g + p)) s

/-- A direction of a group that stops: a lane that has no channel is bound to its own again, and a spare that carries a
covered lane keeps it, so that the channel this lane left is the spare (R156, notes/assumptions/167.md). -/
def OptDir.settle (d : OptDir) : OptDir :=
  let bind := (d.holder.toList ++ d.waiting ++ d.back).foldl (fun (b : List Nat) n =>
    if b.contains n.lane then b else b.set n.chan n.lane) d.bind
  { bind := bind
    spare := match d.holder with
      | some h => if bind.getD d.spare 31 ≠ 31 ∧ bind.getD h.chan 0 = 31 then h.chan else d.spare
      | none => d.spare }

/-- What a channel keeps when its group stops. -/
def OptChan.rest (x : OptChan) : OptChan :=
  { x with good := 0, bad := 0, foreign := 0, far := none, lane := 31, skew := 0, bip := none, bipBad := 0, rxRing := false,
           txSweeps := 0, rxSweeps := 0 }

/-- The receive streams of a group's ports start anew. -/
def State.dropStreams (s : State) (g : Nat) : State :=
  { s with lanes := { s.lanes with streams := s.lanes.streams.map fun p =>
      if p.1 / 8 = g then (p.1, { p.2 with rows := [], buf := [], hunting := false }) else p } }

/-- A group stops: its ports go down and its channels rest, under state `st`. The taps of a group that is OFF are off
with it. -/
def State.groupStop (s : State) (g st : Nat) : State :=
  let s1 := (s.portsDown g).setGroupSt g st
  let s2 := (List.range 17).foldl (fun s c =>
    ((s.setChanSt g c csDOWN).setFlag Reg.OPT_LANE_STATUS_TX_LOCK (chanInst g c) false).setFlag
      Reg.OPT_LANE_STATUS_RX_LOCK (chanInst g c) false) s1
  ((s2.onGrp g fun x => { x with
    light := 0, lccOut := [], calibrating := false, calHere := false, calFar := false, aliases := [], lanesDown := []
    scr := [], low := if st = gsOFF then [] else x.low
    tx := x.tx.settle, rx := x.rx.settle
    chans := x.chans.map fun p => (p.1, p.2.rest) }).dropStreams g).showBinding g

/-- A group may run: the core and VDD_OE have their supply (R497), and its engine is not tripped (R488). -/
def State.groupMayRun (s : State) (g : Nat) : Bool := !s.coreOff && s.railOk 7 && !(s.power.oeTrip.contains g)

/-- A group acquires (R166): the core voltage is at the applied floor first (R50), and every ring sweeps up from code 0. A
bypassed group stays dark (R212). -/
def State.groupAcquire (s : State) (g : Nat) : State :=
  if !s.groupMayRun g then s
  else if s.bypassedGroups.contains g then s.groupStop g gsWATCH
  else
  let s1 := (s.groupStop g gsACQUIRING).liftCore
  (List.range 17).foldl (fun s c =>
    ((s.setChanSt g c csACQUIRING).setFld Reg.OPT_LANE_STATUS_HEATER (chanInst g c) 0).setOch g c
      { s.och g c with rxHeater := 0, acquireFail := false, txIn := 0, txOut := 0, rxIn := 0, rxOut := 0 }) s1

/-! ### The lane control channel (R164) -/

/-- The marker count: one each 154.2 ns of uptime (R157, R159). -/
def State.mcnt (s : State) : Nat := s.uptimeNs * 10 / 1542 % 256

def lccWord (typ seq arg : Nat) : Nat := typ * 2 ^ 28 + seq * 2 ^ 24 + arg

/-- A message is sent; those that wait for an answer are kept for LCC_RESEND. -/
def State.lccSend (s : State) (g typ arg : Nat) : State :=
  let x := s.grp g
  let q := x.lccSeq
  (s.setGrp g { x with
    lccSeq := (q + 1) % 16
    lccOut := if typ = 2 then x.lccOut else x.lccOut ++ [⟨typ, q, arg⟩] }).emit (.lcc g (lccWord typ q arg))

def remapArg (r : Remap) : Nat := r.lane * 2 ^ 19 + r.src * 2 ^ 14 + r.dst * 2 ^ 9 + r.mcnt
def argLane (a : Nat) : Nat := bitsOf a 19 5
def argSrc (a : Nat) : Nat := bitsOf a 14 5
def argDst (a : Nat) : Nat := bitsOf a 9 5
def argMcnt (a : Nat) : Nat := bitsOf a 0 8

/-- Messages of a type that an answer acknowledges, or that a newer one replaces, are no longer repeated. -/
def State.lccAcked (s : State) (g typ : Nat) (p : LccMsg → Bool) : State :=
  s.onGrp g fun x => { x with lccOut := x.lccOut.filter fun m => !(m.typ == typ && p m) }

/-- The remap under way in a direction is abandoned, with its request. -/
def State.remapDrop (s : State) (g : Nat) (rx : Bool) : State :=
  match (s.optDir g rx).remap with
  | none => s
  | some r => (s.setOptDir g rx { s.optDir g rx with remap := none }).lccAcked g 1 fun m => m.arg == remapArg r

/-- A remap is asked for: the switch lies 200 markers ahead (R169). It replaces the one under way. -/
def State.remapStart (s : State) (g : Nat) (rx : Bool) (lane src dst : Nat) : State :=
  let r : Remap := { lane := lane, src := src, dst := dst, mcnt := (s.mcnt + 200) % 256 }
  let s1 := s.remapDrop g rx
  (s1.setOptDir g rx { s1.optDir g rx with remap := some r }).lccSend g 1 (remapArg r)

/-- A received word counts: the same on a majority of the aligned channels, and not acted on before (R164). SEQ counts
modulo 16, so a pair is known again among the last eight (notes/assumptions/168.md). -/
def State.lccHeard (s : State) (g typ seq arg : Nat) : Bool :=
  let al := (List.range 17).filter fun c => s.rxLocked g c
  let same := al.filter fun c => (s.och g c).lcc == lccWord typ seq arg
  al.length < 2 * same.length && !((s.grp g).lccSeen.contains (typ, seq))

/-- A received word is accepted (R164). -/
def State.lccAccept (s : State) (g typ seq arg : Nat) (act : State → State) : State :=
  if s.lccHeard g typ seq arg then act (s.onGrp g fun x => { x with lccSeen := ((typ, seq) :: x.lccSeen).take 8 }) else s

/-! ### The spare (R171) -/

/-- Precedence: 0 first. -/
def SpareUse.rank : SpareUse → Nat
  | .cover => 0
  | .feed => 1
  | .retire => 2
  | .feather => 3

/-- The channel that carries a lane. -/
def OptDir.chanOf (d : OptDir) (lane : Nat) : Option Nat := d.bind.findIdx? fun l => l == lane

/-- The spare can carry a lane in this direction: it exists, and on the transmit side its comb line is not low. -/
def State.spareUsable (s : State) (g : Nat) (rx : Bool) : Bool :=
  let d := s.optDir g rx
  d.spare != 31 && (rx || !(d.spare ∈ (s.grp g).low))

/-- The higher of two uses, for a lane that asks again. -/
def SpareNeed.raised (h n : SpareNeed) : SpareNeed := if n.use.rank < h.use.rank then { h with use := n.use } else h

/-- A lane waits for the spare, and its port goes down. -/
def State.awaitSpare (s : State) (g : Nat) (rx : Bool) (n : SpareNeed) : State :=
  let d := s.optDir g rx
  (s.setOptDir g rx { d with waiting := d.waiting ++ [n] }).laneDown g n.lane

/-- The lane that holds the spare gives it up to a higher use: where it had moved there it has no channel, and waits. -/
def State.yieldSpare (s : State) (g : Nat) (rx : Bool) : State :=
  let s0 := s.remapDrop g rx
  let d := s0.optDir g rx
  match d.holder with
  | none => s0
  | some h =>
    let s1 := s0.setOptDir g rx { d with holder := none, bind := d.bind.set d.spare 31 }
    if h.use = .feather then s1 else s1.awaitSpare g rx h

/-- A lane asks for the spare: it takes it when it is free or held for a lower use, whose lane then has no channel;
otherwise it waits and its port goes down. A lane that holds the spare already, or waits for it, keeps its place; one that
the spare itself fails waits. -/
def State.seekSpare (s : State) (g : Nat) (rx : Bool) (n : SpareNeed) : State :=
  let d := s.optDir g rx
  if d.waiting.any (fun w => w.lane == n.lane) then
    s.setOptDir g rx { d with waiting := d.waiting.map fun w => if w.lane = n.lane then w.raised n else w }
  else if n.chan = d.spare then s.awaitSpare g rx n
  else if d.holder.any (fun h => h.lane == n.lane) then s.setOptDir g rx { d with holder := d.holder.map fun h => h.raised n }
  else if !s.spareUsable g rx || d.holder.any (fun h => decide (h.use.rank ≤ n.use.rank)) then s.awaitSpare g rx n
  else
    let s1 := s.yieldSpare g rx
    let s2 := s1.setOptDir g rx { s1.optDir g rx with holder := some n }
    let s3 := if rx then s2 else s2.onGrp g fun x => { x with calibrating := false, calHere := false, calFar := false }
    s3.remapStart g rx n.lane n.chan d.spare

/-- The spare is free: the waiting lane of the highest use takes it. -/
def State.nextSpare (s : State) (g : Nat) (rx : Bool) : State :=
  let d := s.optDir g rx
  let best := d.waiting.foldl (fun b n => match b with
    | none => some n
    | some c => if n.use.rank < c.use.rank then some n else some c) (none : Option SpareNeed)
  match best with
  | none => s
  | some n => (s.setOptDir g rx { d with waiting := without d.waiting n }).seekSpare g rx n

/-- The next lane whose own channel works again is remapped back to it, one at a time; a lane that had no channel at all
comes from channel 31, none (notes/assumptions/169.md). With none left, the spare serves the lane that waits. -/
def State.nextBack (s : State) (g : Nat) (rx : Bool) : State :=
  let d := s.optDir g rx
  if d.remap.isSome then s
  else match d.back with
    | n :: _ => s.remapStart g rx n.lane ((d.chanOf n.lane).getD 31) n.chan
    | [] => if d.holder.isNone then s.nextSpare g rx else s

/-- A channel works again. Lanes that waited on it and are still bound to it need the spare no more; a lane that holds the
spare, or has no channel, is remapped back. -/
def State.leaveSpare (s : State) (g : Nat) (rx : Bool) (chan : Nat) : State :=
  let d := s.optDir g rx
  let mine := (d.waiting ++ d.holder.toList).filter fun n => n.chan == chan && n.use != .retire
  if mine.isEmpty then s
  else
    let still := mine.filter fun n => d.bind.getD chan 31 == n.lane
    let gone := mine.filter fun n => d.bind.getD chan 31 != n.lane
    let freed := d.holder.any fun h => still.contains h
    let s0 := if freed then s.remapDrop g rx else s
    let s1 := s0.setOptDir g rx { s0.optDir g rx with
      waiting := d.waiting.filter fun n => !mine.contains n
      holder := if freed then none else d.holder
      back := d.back ++ gone.filter fun n => !d.back.contains n }
    (still.foldl (fun s n => s.laneBack g n.lane) s1).nextBack g rx

/-- The agreed marker arrives (R169): both ends move the lane. A remap this end asked for and that was not acknowledged in
time is asked for again; one the far end asked for is dropped when its acknowledgement came too late there, which
`inTime` says (notes/assumptions/170.md). -/
def State.remapSwitch (s : State) (g : Nat) (rx inTime : Bool) : State :=
  let d := s.optDir g rx
  match d.remap with
  | none => s
  | some r =>
    if r.asked && !r.acked then s.remapStart g rx r.lane r.src r.dst
    else if !r.asked && !inTime then s.setOptDir g rx { d with remap := none }
    else
      let bind := (d.bind.set r.src 31).set r.dst r.lane
      let back := r.src == d.spare || r.src == 31
      let use := (d.holder.map SpareNeed.use).getD .feather
      let d0 := { d with bind := bind, remap := none, back := d.back.filter fun n => n.lane != r.lane }
      let d1 : OptDir :=
        if r.src = 31 then d0
        else if r.src = d.spare then { d0 with holder := none }
        else match use with
          | .feather => { d0 with holder := none, spare := r.src }
          | .retire => { d0 with holder := none, spare := 31 }
          | _ => d0
      let s1 := (s.setOptDir g rx d1).laneBack g r.lane
      let s2 :=
        if rx then (if r.src < 17 then s1.setOch g r.src { s1.och g r.src with lastLane := r.lane } else s1)
        else
          (if back then (if r.src = 31 then s1 else s1.setChanSt g r.src csSPARE).setChanSt g r.dst csIN_SERVICE
           else match use with
            | .feather => (s1.setChanSt g r.dst csIN_SERVICE).setChanSt g r.src csSPARE
            | .retire => s1.setChanSt g r.dst csIN_SERVICE
            | _ => s1.setChanSt g r.dst csCOVERING).showBinding g
      s2.nextBack g rx

/-! ### Identity and coming up (R160, R163, R213) -/

/-- All 16 lanes are aligned on the channels that carry them. -/
def State.allAligned (s : State) (g : Nat) : Bool :=
  let d := s.optDir g true
  (List.range 16).all fun l => match d.chanOf l with
    | some c => s.rxLocked g c
    | none => false

/-- Every aligned channel's markers agree, with the expected tag or any where EXPECT_TAG is 0xFFFF (R163). -/
def State.identityOk (s : State) (g : Nat) : Bool :=
  let want := s.fld Reg.OPT_PG_TAG_EXPECT_TAG g
  let seen := (List.range 17).filterMap fun c => if s.rxLocked g c then (s.och g c).far else none
  match seen with
  | [] => false
  | f :: t => t.all (· == f) && (want == 0xFFFF || f.2 == want)

/-- CUR of every spray group with a port of a port group is set to 0 (R212, R213). -/
def State.resetCurOf (s : State) (groups : List Nat) : State :=
  let hit := (s.swc.tab.filter fun p => p.1.1 == 0x14 && (sgMembers p.2).any fun m =>
    decide (m.1 < 512) && (m.1 / 8 ∈ groups)).map (·.1.2)
  s.onSwc fun c => { c with cur := c.cur.filter fun p => !(p.1 ∈ hit) }

/-- BYPASS_END is done: the groups returned in EXT and those that did not, as bits, in VALUE (R213). -/
def State.bypassFinish (s : State) (k : OpKey) : State :=
  match s.swc.returns.find k with
  | none => s
  | some (all, left) =>
    let value := sumOf (all.mapIdx fun i g => if g ∈ left then 2 ^ i else 0)
    (s.onSwc fun c => { c with returns := c.returns.del k }).finish k stOK (all.length - left.length) value

/-- A group has reached UP: a bypass end that waits for it takes note (R213). -/
def State.bypassBack (s : State) (g : Nat) : State :=
  (s.swc.returns.filter fun p => p.2.2.contains g).foldl (fun s p =>
    let left := without p.2.2 g
    let s1 := (s.onSwc fun c => { c with returns := c.returns.put p.1 (p.2.1, left) }).resetCurOf [g]
    if left.isEmpty then s1.bypassFinish p.1 else s1) s

/-- Lanes on transmit channels whose comb line is low, and lanes on retired channels, ask for the spare. -/
def State.seekAll (s : State) (g : Nat) : State :=
  let s1 := (s.grp g).low.foldl (fun s line =>
    let lane := (s.optDir g false).bind.getD line 31
    if lane = 31 then s else s.seekSpare g false ⟨.feed, lane, line⟩) s
  [false, true].foldl (fun s rx => (List.range 17).foldl (fun s c =>
    let lane := (s.optDir g rx).bind.getD c 31
    if s.chanSt g c ≠ csRETIRED ∨ lane = 31 ∨ (s.optDir g rx).spare = 31 then s
    else s.seekSpare g rx ⟨.retire, lane, c⟩) s) s1

/-- The group is up. -/
def State.groupUp (s : State) (g : Nat) : State :=
  let d := s.optDir g false
  let s1 := (List.range 17).foldl (fun s c =>
    s.setChanSt g c (if (s.och g c).acquireFail then csDOWN
      else if c ≠ d.spare then csIN_SERVICE
      else if d.bind.getD c 31 = 31 then csSPARE else csCOVERING)) (s.setGroupSt g gsUP)
  (s1.seekAll g).bypassBack g

/-- The tags disagree: the group carries no traffic (R163). -/
def State.groupMismatch (s : State) (g : Nat) : State :=
  ((s.portsDown g).setGroupSt g gsID_MISMATCH).raise Ev.PG_ID_MISMATCH g (s.reg (Reg.OPT_PG_FAR_FAR_TAG.key g)).toNat

/-- The group's alignment and identity are judged after a marker. -/
def State.groupJudge (s : State) (g : Nat) : State :=
  if s.groupSt g = gsACQUIRING ∧ s.allAligned g then (if s.identityOk g then s.groupUp g else s.groupMismatch g)
  else if s.groupSt g = gsUP ∧ !s.identityOk g then s.groupMismatch g
  else s

/-- The receive ring of channel `c` aligns foreign markers (R170): the receive ring or the far transmitter is judged at
fault, and the lane's cover starts. -/
def State.aliasFound (s : State) (g c chan : Nat) : State :=
  let d := s.optDir g true
  let lane := d.bind.getD c 31
  let x := s.och g c
  let diff := if x.rxCal ≤ x.rxHeater then x.rxHeater - x.rxCal else x.rxCal - x.rxHeater
  let mine := decide (10000 < diff * 137)
  let s1 := (s.bump Reg.OPT_LANE_EVENTS_RX_ALIAS (chanInst g c)).raise Ev.RX_LANE_ALIAS g
    (c + chan * 32 + lane * 1024 + bit (!mine) * 2 ^ 15)
  if mine then
    let code : Int := (x.rxHeater : Int) + ((c : Int) - (chan : Int)) * 20000 / 137
    let s2 := (((s1.setChanSt g c csALIAS).setOch g c { x with rxHeater := code.toNat, rxRing := false }).onGrp g fun y =>
      { y with aliases := y.aliases ++ [(c, chan)] }).setFlag Reg.OPT_LANE_STATUS_RX_LOCK (chanInst g c) false
    if lane = 31 then s2 else s2.seekSpare g true ⟨.cover, lane, c⟩
  else if lane = 31 then s1 else s1.lccSend g 3 (lane * 2 ^ 19 + c * 2 ^ 14)

/-- A receive channel does not work: its lane is one without a channel (R171), unless its alias is covered already. With
no channel aligned an enabled group is dark, and sits in WATCH. -/
def State.chanLost (s : State) (g c : Nat) : State :=
  let s1 := s.setFlag Reg.OPT_LANE_STATUS_RX_LOCK (chanInst g c) false
  if s1.groupSt g = gsUP ∨ s1.groupSt g = gsID_MISMATCH then
    if (List.range 17).any fun i => s1.rxLocked g i then
      let lane := (s1.optDir g true).bind.getD c 31
      if lane = 31 ∨ s1.groupSt g ≠ gsUP ∨ ((s1.grp g).aliases.any fun a => a.1 == c) = true then s1
      else s1.seekSpare g true ⟨.feed, lane, c⟩
    else s1.groupStop g gsWATCH
  else s1

/-- A channel loses its alignment (R160), which is counted. -/
def State.alignLost (s : State) (g c : Nat) : State :=
  (s.bump Reg.OPT_LANE_EVENTS_ALIGN_LOSS (chanInst g c)).chanLost g c

/-- A channel aligns: its receive ring is locked and two good markers in a row came with its CHAN. A lane that its alias
covers comes back by ALIAS_RESTORE only (R170). -/
def State.aligned (s : State) (g c : Nat) : State :=
  let s1 := s.setFlag Reg.OPT_LANE_STATUS_RX_LOCK (chanInst g c) true
  if (s1.grp g).aliases.any fun a => a.1 == c then s1 else s1.leaveSpare g true c

/-- An alignment marker arrives on a channel (R160, R163, R164, R170), whose deskew by MCNT finds it `skew` × 0.1 ns from
the rest of its group: above 20 ns it stays out of alignment. BIP is compared with the lane frame before it; the manual
gives a difference no effect. -/
def State.marker (s : State) (g c skew : Nat) (b : Bytes) : State :=
  if s.groupSt g = gsOFF ∨ s.groupSt g = gsWATCH ∨ s.groupSt g = gsFEED_LOST ∨ 17 ≤ c then s
  else
    let x := s.och g c
    match markerOf b with
    | none =>
      let s1 := s.setOch g c { x with good := 0, bad := x.bad + 1, foreign := 0 }
      if 4 ≤ x.bad + 1 && s.rxLocked g c then s1.alignLost g c else s1
    | some m =>
      let foreign := if m.chan = c then 0 else if m.chan = x.foreignChan then x.foreign + 1 else 1
      let s1 := s.setOch g c { x with
        good := x.good + 1, bad := 0, far := some (m.opg, m.tag), lcc := m.lcc, foreign := foreign, foreignChan := m.chan
        lane := m.lane, mcnt := m.mcnt, skew := skew
        bipBad := if x.bip = none ∨ x.bip = some m.bip then 0 else x.bipBad + 1 }
      let s2 := ((s1.setFld Reg.OPT_PG_FAR_FAR_TAG g m.tag).setFld Reg.OPT_PG_FAR_FAR_OPG g m.opg).setFlag
        Reg.OPT_PG_FAR_VALID g true
      let s3 :=
        if 200 < skew then (if s.rxLocked g c then s2.alignLost g c else s2)
        else if 2 ≤ x.good + 1 && m.chan == c && x.rxRing && !s.rxLocked g c then s2.aligned g c else s2
      (if foreign = 8 && !((s3.grp g).aliases.any fun a => a.1 == c) then s3.aliasFound g c m.chan else s3).groupJudge g

/-! ### Heaters, sweeps and feathering (R165 to R168, R172, R173) -/

/-- A heater past 95 % of range, or below code 205, hops one free spectral range (R167). -/
def hopCode (code : Nat) : Option Nat :=
  if 3890 < code then some (code - 2920) else if code < 205 then some (code + 2920) else none

/-- A ring that had failed to acquire is locked: its channel works. -/
def State.ringWorks (s : State) (g c : Nat) : State :=
  if (s.och g c).acquireFail then (s.setOch g c { s.och g c with acquireFail := false }).leaveSpare g false c else s

/-- A ring's loop has lost its lock (R165): a receive ring's channel does not work. -/
def State.ringLost (s : State) (g c : Nat) (rx : Bool) : State :=
  if rx then (s.setOch g c { s.och g c with rxRing := false }).chanLost g c
  else s.setFlag Reg.OPT_LANE_STATUS_TX_LOCK (chanInst g c) false

/-- A ring hops while it is locked and tracks (R167). A heater loop update: the error in MHz and the code the loop now gives. -/
def State.heater (s : State) (g c : Nat) (rx : Bool) (err code : Nat) : State :=
  if 17 ≤ c ∨ s.groupSt g = gsOFF then s
  else
    let i := chanInst g c
    let x := s.och g c
    let inn := if err < 2500 then (if rx then x.rxIn else x.txIn) + 1 else 0
    let out := if 8000 < err then (if rx then x.rxOut else x.txOut) + 1 else 0
    let y := if rx then { x with rxIn := min inn 100, rxOut := min out 10, rxHeater := code }
      else { x with txIn := min inn 100, txOut := min out 10 }
    let y := if rx && 100 ≤ inn then { y with rxRing := true } else y
    let s1 := s.setOch g c y
    let s2 := if rx then s1 else s1.setFld Reg.OPT_LANE_STATUS_HEATER i code
    let s3 := if !rx && 100 ≤ inn then (s2.setFlag Reg.OPT_LANE_STATUS_TX_LOCK i true).ringWorks g c else s2
    let locked := if rx then y.rxRing else s3.flag Reg.OPT_LANE_STATUS_TX_LOCK i
    if !locked then s3
    else if 10 ≤ out then s3.ringLost g c rx
    else match hopCode code with
      | none => s3
      | some n =>
        let lane := (s3.optDir g rx).bind.getD c 31
        let s4 := (if rx then (s3.setOch g c { y with rxHeater := n, rxRing := false, rxIn := 0 }).setFlag
            Reg.OPT_LANE_STATUS_RX_LOCK i false
          else ((s3.setOch g c { y with txIn := 0 }).setFld Reg.OPT_LANE_STATUS_HEATER i n).setFlag
            Reg.OPT_LANE_STATUS_TX_LOCK i false).bump Reg.OPT_LANE_EVENTS_HOPS i
        if lane = 31 ∨ s4.groupSt g ≠ gsUP then s4 else s4.seekSpare g rx ⟨.cover, lane, c⟩

/-- An acquisition sweep ends (R166); after two sweeps without a lock the channel has failed, and its lane is one without
a channel. With every receive ring dark the group sits in WATCH. -/
def State.sweepDone (s : State) (g c : Nat) (rx locked : Bool) (code : Nat) : State :=
  if s.groupSt g ≠ gsACQUIRING ∨ 17 ≤ c then s
  else
    let i := chanInst g c
    let x := s.och g c
    if locked then
      if rx then (s.setOch g c { x with rxHeater := code, rxCal := code, good := 2, bad := 0, rxRing := true }).setFlag
        Reg.OPT_LANE_STATUS_RX_LOCK i true
      else (s.setFld Reg.OPT_LANE_STATUS_HEATER i code).setFlag Reg.OPT_LANE_STATUS_TX_LOCK i true
    else
      let y := if rx then { x with rxSweeps := x.rxSweeps + 1 } else { x with txSweeps := x.txSweeps + 1 }
      let n := if rx then y.rxSweeps else y.txSweeps
      let s1 := (s.setOch g c { y with acquireFail := x.acquireFail || decide (2 ≤ n) })
      if n < 2 then s1
      else if rx && (List.range 17).all fun j => decide (2 ≤ (s1.och g j).rxSweeps) then s1.groupStop g gsWATCH
      else
        let lane := (s1.optDir g rx).bind.getD c 31
        if lane = 31 then s1 else s1.seekSpare g rx ⟨.feed, lane, c⟩

/-- The feathering timer starts calibration of the present spare (R168). -/
def State.featherStep (s : State) (g : Nat) : State :=
  let d := s.optDir g false
  if s.groupSt g = gsUP && s.flag Reg.OPT_PG_CFG_FEATHER g && d.spare != 31 && d.holder.isNone && d.remap.isNone
      && !(s.grp g).calibrating then
    (s.onGrp g fun x => { x with calibrating := true, calHere := false, calFar := false }).setChanSt g d.spare csCALIBRATING
  else s

/-- The next channel above the spare, wrapping, that carries a lane. -/
def OptDir.nextFeather (d : OptDir) : Option Nat :=
  ((List.range 17).map fun i => (d.spare + 1 + i) % 17).find? fun c => decide (d.bind.getD c 31 ≠ 31)

/-- Both ends have calibrated the spare: the next lane is remapped onto it (R168 step 2). -/
def State.featherNext (s : State) (g : Nat) : State :=
  let x := s.grp g
  if x.calibrating && x.calHere && x.calFar then
    let s1 := (s.setGrp g { x with calibrating := false, calHere := false, calFar := false }).setChanSt g x.tx.spare csSPARE
    match x.tx.nextFeather with
    | none => s1
    | some c =>
      let lane := x.tx.bind.getD c 31
      (s1.setOptDir g false { s1.optDir g false with holder := some ⟨.feather, lane, c⟩ }).remapStart g false lane c x.tx.spare
  else s

/-- −log₁₀ of corrected / bits, rounded down; 0xFF when nothing was measured, at most 0xFE. -/
def residLog (bits corrected : Nat) : Nat :=
  if bits = 0 then 0xFF
  else if corrected = 0 then 0xFE
  else ((List.range 40).filter fun n => decide (corrected * 10 ^ n ≤ bits)).length - 1

/-- A channel over threshold in three calibrations in a row is retired onto the spare, or not for want of one (R172,
R173). -/
def State.retireChan (s : State) (g c : Nat) : State :=
  let at_ := (s.optDir g true).bind.getD c 31
  let lane := if at_ = 31 then (s.och g c).lastLane else at_
  let detail := c + lane * 32 + s.fld Reg.OPT_LANE_STATUS_RESID_LOG (chanInst g c) * 2 ^ 16
  let none_ := (List.range 17).any fun i => s.chanSt g i == csRETIRED
  if none_ then (s.setOch g c { s.och g c with noSpare := true }).raise Ev.LANE_RETIRE_NO_SPARE g detail
  else
    let s0 := s.raise Ev.LANE_RETIRED g detail
    let s1 := (if lane = 31 then s0 else s0.healthAdd (.port (s.lanePort g lane)) 16).setFld
      Reg.OPT_LANE_STATUS_STATE (chanInst g c) csRETIRED
    let leave := fun (rx : Bool) (s : State) =>
      let d := s.optDir g rx
      if d.spare = c then s.setOptDir g rx { d with spare := 31 }
      else match d.bind[c]? with
        | some l => if l = 31 then s else s.seekSpare g rx ⟨.retire, l, c⟩
        | none => s
    (leave true (leave false s1)).showBinding g

/-- The receive ring of a channel ends its calibration (R168, R172): the residual error ratio of its time in service is
taken, and CAL_DONE is sent. -/
def State.rxCalDone (s : State) (g c : Nat) : State :=
  let x := s.och g c
  let i := chanInst g c
  let long := decide (10000000000 ≤ x.bits / 32640 * 1542)
  let high := long && decide (x.bits < x.corrected * 10 ^ s.fld Reg.OPT_FEATHER_CFG_RETIRE_EXP)
  let n := if high then min 3 (s.fld Reg.OPT_LANE_STATUS_HIGH_CAL i + 1) else 0
  let s1 := ((s.setFld Reg.OPT_LANE_STATUS_RESID_LOG i (residLog x.bits x.corrected)).setFld
    Reg.OPT_LANE_STATUS_HIGH_CAL i n).setOch g c { x with bits := 0, corrected := 0, rxCal := x.rxHeater }
  let s2 := if n = 3 then s1.retireChan g c else s1
  s2.lccSend g 4 (c * 2 ^ 14)

/-- Calibration of the spare ends at this end: of the transmit ring, or of a receive ring. -/
def State.featherCalDone (s : State) (g : Nat) (rx : Bool) (c : Nat) : State :=
  if s.groupSt g ≠ gsUP then s
  else if rx then (if c = (s.optDir g true).spare ∨ (s.optDir g true).spare = 31 then s.rxCalDone g c else s)
  else if (s.grp g).calibrating then (s.onGrp g fun x => { x with calHere := true }).featherNext g else s

/-! ### Lane frames (R158, R162, R173) -/

/-- The receive stream of an optical port. -/
def State.stream (s : State) (p : Nat) : PortStream := s.lanes.streams.getD p {}
def State.setStream (s : State) (p : Nat) (x : PortStream) : State :=
  { s with lanes := { s.lanes with streams := s.lanes.streams.put p x } }

/-- Payload bytes of one lane in one lane frame. -/
def frameBytes : Nat := 3855

/-- Lane frame `k` of a port is complete: it and the frames before it, whose missing lanes give lost bytes, join the port's
byte stream, and whole frames go to the MAC. One that touches an uncorrectable code word is dropped there (R158). How many
frames a hunt lost is seen from outside only (notes/assumptions/171.md). -/
def State.streamOn (s : State) (p k lost : Nat) : State :=
  let x := s.stream p
  let w := s.portLanes p
  let upTo := (x.rows.takeWhile fun r => r.1 != k).length + 1
  let bytes := (x.rows.take upTo).flatMap fun r =>
    unstripe none frameBytes ((List.range w).map fun i => r.2.getD (p % 8 * w + i) (List.replicate frameBytes none))
  let buf := x.buf ++ bytes
  let t := takeFrames (2 * buf.length + 2) { rest := buf, hunting := x.hunting }
  let drops := (t.frames.filter Option.isNone).length
  let s1 := s.setStream p { x with
    rows := x.rows.drop upTo, buf := t.rest, hunting := t.hunting, macDrops := x.macDrops + drops }
  let s2 := if t.hunts = 0 then s1 else s1.bump Reg.OPT_PG_STATUS_HUNT_DISCARDS (p / 8) lost
  (t.frames.filterMap id).foldl (fun s f => s.emit (.deliver 4 p (f.take (f.length - 4)))) s2

/-- The payload of a lane joins its port's stream (R162). Lane frames are numbered by the marker that follows them. -/
def State.laneBytes (s : State) (g c lane : Nat) (cws : List CodeWord) (lost : Nat) : State :=
  let p := s.lanePort g lane
  let (h, bytes) := lanePayload ((s.grp g).scr.getD lane 0) cws
  let s1 := s.onGrp g fun y => { y with scr := y.scr.put lane h }
  let x := s1.stream p
  let k := ((s1.och g c).mcnt + 1) % 256
  let row := (AMap.getD x.rows k []).put lane bytes
  let s2 := s1.setStream p { x with rows := AMap.put x.rows k row }
  if !s2.portUp p then s1
  else if row.length = s2.portLanes p then s2.streamOn p k lost
  else s2

/-- A lane frame of an optical channel: its 272 inner words as received. -/
def State.optFrame (s : State) (g c : Nat) (wds : List Nat) (lost : Nat) : State :=
  if 17 ≤ c ∨ s.rxLocked g c = false ∨ wds.length ≠ 272 then s
  else
    let cws := laneDecode wds
    let i := chanInst g c
    let bad := (cws.filter fun w => !w.good).length
    let fixed := (cws.filter fun w => w.good && decide (0 < w.fixed)).length
    let s1 := (s.bump Reg.OPT_LANE_CW_UNCORR_COUNT i bad).bump Reg.OPT_LANE_CW_CORR_COUNT i fixed
    let lane := (s.optDir g true).bind.getD c 31
    let x := s1.och g c
    let due := decide (1000000000 ≤ s.uptimeNs - x.since)
    let words := x.words + cws.length
    let b1 := x.bad1s + bad
    let y := { x with
      bits := if lane = 31 then x.bits else x.bits + 5440 * cws.length
      corrected := if lane = 31 then x.corrected else x.corrected + sumOf (cws.map CodeWord.fixed)
      words := if due then 0 else words, bad1s := if due then 0 else b1
      since := if due then s.uptimeNs else x.since
      bip := some (bipOf wds) }
    let s2 := s1.setOch g c y
    if lane = 31 then s2
    else
      let s3 := (s2.healthWords (s.lanePort g lane) bad).laneBytes g c lane cws lost
      if due && x.noSpare && decide (words < b1 * 10000) then s3.seekSpare g true ⟨.feed, lane, c⟩ else s3

/-- A code word of an electrical lane that is up: its 544 symbols as received (R175). -/
def State.elnFrame (s : State) (l : Nat) (syms : List Nat) : State :=
  if s.fld Reg.ELN_LANE_STATUS_STATE l ≠ 3 ∨ syms.length ≠ 544 then s
  else
    let w := codeWordOf syms []
    if !w.good then
      let s1 := s.bump Reg.ELN_LANE_CW_UNCORR_COUNT l
      if (s1.laneGroup l).isSome then s1
      else s1.healthWords (512 + l / s.portLanes (512 + l) * s.portLanes (512 + l)) 1
    else if 0 < w.fixed then s.bump Reg.ELN_LANE_CW_CORR_COUNT l
    else s

/-- What a lane receives: channel `c` of an optical port group, or electrical lane `c` where there is none. -/
def State.laneFrame (s : State) (g : Option Nat) (c : Nat) (wds : List Nat) (lost : Nat) : State :=
  match g with
  | some g => s.optFrame g c wds lost
  | none => s.elnFrame c wds

/-! ### Markers sent (R159, R164) -/

/-- The marker that a channel of this device sends: LANE and the MCNT of the group, OPG and LOCAL_TAG, the LCC word it
carries, and the BIP of the lane frame before it. -/
def State.txMarker (s : State) (g c lcc : Nat) (frame : List Nat) : Marker :=
  { lane := (s.optDir g false).bind.getD c 31, chan := c, opg := g, tag := s.fld Reg.OPT_PG_TAG_LOCAL_TAG g
    mcnt := s.mcnt, lcc := lcc, bip := bipOf frame }

/-- What the transmitter of a channel puts on the fibre for one lane frame: the coded payload of its lane, or an idle
payload on the spare, and the marker after it (R157, R159). -/
def State.txFrame (s : State) (g c scr lcc : Nat) (payload : List Bool) : List Nat × Bytes :=
  let (_, wds) := laneEncode scr payload
  (wds, (s.txMarker g c lcc wds).bytes)

/-- The bytes that a frame of a port puts into its stream: header, frame and FCS (R162). -/
def streamBytes (frame fcs : Bytes) : Bytes := portHeader (frame.length + fcs.length) ++ frame ++ fcs

/-! ### Laser feed (R36, R37) -/

/-- Two or more comb lines are low: the group stops. -/
def State.feedLost (s : State) (g : Nat) (lines : List Nat) : State :=
  ((s.groupStop g gsFEED_LOST).onGrp g fun x => { x with low := lines }).raise Ev.FEED_LOST g
    (sumOf (lines.map fun n => 2 ^ n))

/-- The group transmits: it acquires, is up or has an identity mismatch. -/
def State.groupRuns (s : State) (g : Nat) : Bool := s.groupSt g ∈ [gsACQUIRING, gsUP, gsID_MISMATCH]

/-- One comb line falls below the threshold. The taps of a group that is not OFF watch every line. -/
def State.feedLow (s : State) (g line : Nat) : State :=
  if s.groupSt g = gsOFF ∨ line ∈ (s.grp g).low ∨ 17 ≤ line then s
  else
    let low := (s.grp g).low ++ [line]
    let s1 := (s.onGrp g fun x => { x with low := low }).raise Ev.FEED_LINE_LOW g line
    if s.groupSt g = gsFEED_LOST then s1
    else if 2 ≤ low.length then s1.feedLost g low
    else if !s1.groupRuns g then s1
    else
      let lane := (s1.optDir g false).bind.getD line 31
      if lane = 31 then s1 else s1.seekSpare g false ⟨.feed, lane, line⟩

/-- The comb line is back: its lane is given back, and a lane that the spare's own low line kept waiting is served. -/
def State.feedBack (s : State) (g line : Nat) : State :=
  if !(line ∈ (s.grp g).low) then s
  else
    let s1 := s.onGrp g fun x => { x with low := without x.low line }
    if s1.groupRuns g then (s1.leaveSpare g false line).nextBack g false else s1

/-! ### Electrical lanes (R175 to R177, R489) -/

/-- The lane is enabled in its octet, and VDD_SER and the core have their supply (R497). -/
def State.laneOn (s : State) (l : Nat) : Bool := !s.coreOff && s.railOk 6 && bitAt (s.fld Reg.ELN_OCT_CFG_ENABLE (l / 8)) (l % 8)
def State.laneSt (s : State) (l : Nat) : Nat := s.fld Reg.ELN_LANE_STATUS_STATE l
def State.setLaneSt (s : State) (l v : Nat) : State := s.setFld Reg.ELN_LANE_STATUS_STATE l v

/-- The core voltage is raised to the applied floor before a lane trains (R50, R177). Lane states: 0 OFF, 1 NAP, 2 TRAINING, 3 UP, 4 TRAIN_FAIL, 5 LOS. A lane without signal finds energy. -/
def State.energy (s : State) (l : Nat) (found : Bool) : State :=
  if s.laneOn l && found && s.power.forced.find (4, l) != some 2 && (s.laneSt l == 1 || s.laneSt l == 5) then
    ({ s with lanes := { s.lanes with trainFails := s.lanes.trainFails.put l 0 } }.liftCore).setLaneSt l 2
  else s

/-- Training of a cable or backplane lane has not finished in 500 ms, or 10 s have passed since the last failure
(R177). -/
def State.trainTimeout (s : State) (l : Nat) : State :=
  if !s.laneOn l then s
  else if s.laneSt l = 4 then s.liftCore.setLaneSt l 2
  else if s.laneSt l = 2 ∧ s.fld Reg.ELN_OCT_CFG_KIND (l / 8) = 1 then
    let n := s.lanes.trainFails.getD l 0 + 1
    let s1 := { s with lanes := { s.lanes with trainFails := s.lanes.trainFails.put l n } }
    if n < 3 then s1
    else
      let s2 := s1.setLaneSt l 4
      if n = 3 then s2.raise Ev.ELN_TRAIN_FAIL l 0 else s2
  else s

/-- An electrical fabric port starts at this lane: enabled non-members from a multiple of the width on. -/
def State.elPort (s : State) (l : Nat) : Bool :=
  l % s.portLanes (512 + l) == 0 && (s.elanes (512 + l)).all fun i => s.laneOn i && (s.laneGroup i).isNone

/-- A link comes up (R50, R171, R177), from READY on (R63): port `p`, or for a line-group member lane 512 plus the lane. -/
def State.linkUp (s : State) (p : Nat) : State :=
  if s.portUp p = true ∨ s.stage < 9 then s
  else if p < 512 then
    let g := p / 8
    let w := s.portLanes p
    if s.groupSt g = gsUP && decide (p % 8 * w < 16) &&
        ((List.range w).all fun i => !((p % 8 * w + i) ∈ (s.grp g).lanesDown)) && !s.portBypassed p
    then s.portComesUp p else s
  else if p < 576 then
    let l := p - 512
    if (s.laneGroup l).isSome then
      (if s.laneOn l && (s.laneSt l == 2 || s.laneSt l == 4) then (s.setLaneSt l 3).showTraffic else s)
    else if s.elPort l && (s.elanes p).all (fun i => s.laneSt i == 2 || s.laneSt i == 4) then s.portComesUp p
    else s
  else s

/-! ### Meanings -/

/-- FEED_LINE_LOW (R36). -/
def execFeedLineLow (g line : Nat) (s : State) : Host.Outcome State Fault Refusal :=
  .next (s.inPool fun s => s.feedLow g line)

/-- FEED_LINE_RESTORE (R36). -/
def execFeedLineRestore (g line : Nat) (s : State) : Host.Outcome State Fault Refusal :=
  .next (s.inPool fun s => s.feedBack g line)

/-- FEED_LOST (R37). -/
def execFeedLost (g : Nat) (lines : List Nat) (s : State) : Host.Outcome State Fault Refusal :=
  .next (s.inPool fun s =>
    if s.groupSt g ≠ gsOFF ∧ s.groupSt g ≠ gsFEED_LOST ∧ 2 ≤ lines.length then s.feedLost g lines else s)

/-- FEED_RESTORED (R37). -/
def execFeedRestored (g : Nat) (s : State) : Host.Outcome State Fault Refusal :=
  .next (s.inPool fun s =>
    if s.groupSt g = gsFEED_LOST then (s.onGrp g fun x => { x with low := [] }).groupAcquire g else s)

/-- MARKER_RECEIVE (R160). -/
def execMarkerReceive (g c : Nat) (m : RxMarker) (s : State) : Host.Outcome State Fault Refusal :=
  .next (s.inPool fun s => s.marker g c m.skew m.bytes)

/-- PG_ID_CLEAR (R163). -/
def execPgIdClear (g : Nat) (s : State) : Host.Outcome State Fault Refusal :=
  .next (s.inPool fun s => if s.groupSt g = gsID_MISMATCH && s.allAligned g && s.identityOk g then s.groupUp g else s)

/-- ALIAS_RESTORE (R170). -/
def execAliasRestore (g : Nat) (rx : Bool) (c : Nat) (s : State) : Host.Outcome State Fault Refusal :=
  .next (s.inPool fun s =>
    if s.groupSt g = gsUP ∧ (if rx then s.rxLocked g c else s.flag Reg.OPT_LANE_STATUS_TX_LOCK (chanInst g c)) = true then
      ((s.onGrp g fun x => { x with aliases := if rx then x.aliases.filter fun a => a.1 != c else x.aliases }).setChanSt
        g c csIN_SERVICE).leaveSpare g rx c else s)

/-- LCC_REMAP_REQ (R169, R170): accepted when the lane is where the message says and the channel it should move to is not
retired; a lane there that a higher use displaces has no channel. It also acknowledges the CAL_DONE or TX_ALIAS that led
to it. `asks` is true when the far receiver asks this transmitter, false when the far
transmitter announces its own remap. -/
def execLccRemapReq (g : Nat) (asks : Bool) (seq arg : Nat) (s : State) : Host.Outcome State Fault Refusal :=
  .next (s.inPool fun s =>
    s.lccAccept g 1 seq arg fun s =>
      let rx := !asks
      let d := s.optDir g rx
      let r : Remap := ⟨argLane arg, argSrc arg, argDst arg, argMcnt arg, false, true⟩
      let bound := if r.src = 31 then !(d.bind.contains r.lane) else d.bind.getD r.src 31 == r.lane
      let there := d.bind.getD r.dst 31
      let yields := d.holder.all fun h => h.lane == r.lane || decide (SpareUse.rank .cover < h.use.rank)
      let toSpare := asks && r.dst == d.spare
      if r.dst < 17 ∧ r.lane < 16 ∧ bound = true ∧ s.chanSt g r.dst ≠ csRETIRED ∧ (toSpare = true → yields = true) ∧
          (there = 31 ∨ asks = false ∨ toSpare = true) then
        let s1 :=
          if toSpare && !(d.holder.any fun h => h.lane == r.lane) then s.yieldSpare g rx
          else if there = 31 then s
          else (s.setOptDir g rx { d with bind := d.bind.set r.dst 31 }).laneDown g there
        let s2 := s1.remapDrop g rx
        let d1 := s2.optDir g rx
        let s3 := s2.setOptDir g rx { d1 with
          remap := some r, holder := if toSpare then some ⟨.cover, r.lane, r.src⟩ else d1.holder }
        ((s3.lccAcked g 4 fun m => bitsOf m.arg 14 5 == r.dst).lccAcked g 3 fun m => !asks && argLane m.arg == r.lane).lccSend
          g 2 arg
      else s)

/-- LCC_REMAP_ACK (R169). -/
def execLccRemapAck (g seq arg : Nat) (s : State) : Host.Outcome State Fault Refusal :=
  .next (s.inCore fun s =>
    s.lccAccept g 2 seq arg fun s =>
      let act := fun (rx : Bool) (s : State) =>
        let d := s.optDir g rx
        match d.remap with
        | some r =>
          if r.asked && !r.acked && remapArg r == arg then
            let left := (r.mcnt + 256 - s.mcnt) % 256
            if 8 ≤ left ∧ left ≤ 200 then
              (s.setOptDir g rx { d with remap := some { r with acked := true } }).lccAcked g 1 fun m => m.arg == arg
            else (s.lccAcked g 1 fun m => m.arg == arg).remapStart g rx r.lane r.src r.dst
          else s
        | none => s
      act true (act false s))

/-- LCC_TX_ALIAS (R170): the transmitter moves the lane to the spare and relocks its ring. -/
def execLccTxAlias (g seq arg : Nat) (s : State) : Host.Outcome State Fault Refusal :=
  .next (s.inPool fun s =>
    s.lccAccept g 3 seq arg fun s =>
      let lane := argLane arg
      match (s.optDir g false).chanOf lane with
      | none => s
      | some c =>
        let i := chanInst g c
        let code : Int := (s.fld Reg.OPT_LANE_STATUS_HEATER i : Int) +
          ((c : Int) - (argSrc arg : Int)) * 20000 / 137
        (((s.bump Reg.OPT_LANE_EVENTS_TX_ALIAS i).setFld Reg.OPT_LANE_STATUS_HEATER i code.toNat).setFlag
          Reg.OPT_LANE_STATUS_TX_LOCK i false).seekSpare g false ⟨.cover, lane, c⟩)

/-- LCC_CAL_DONE (R168). -/
def execLccCalDone (g seq arg : Nat) (s : State) : Host.Outcome State Fault Refusal :=
  .next (s.inCore fun s =>
    s.lccAccept g 4 seq arg fun s =>
      if (s.grp g).calibrating && bitsOf arg 14 5 == (s.optDir g false).spare then
        (s.onGrp g fun x => { x with calFar := true }).featherNext g else s)

/-- LCC_RESEND (R164). -/
def execLccResend (g : Nat) (s : State) : Host.Outcome State Fault Refusal :=
  .next (s.inCore fun s => (s.grp g).lccOut.foldl (fun s m => s.emit (.lcc g (lccWord m.typ m.seq m.arg))) s)

/-- REMAP_SWITCH (R169). -/
def execRemapSwitch (g : Nat) (x : RemapSide) (s : State) : Host.Outcome State Fault Refusal :=
  .next (s.inPool fun s => s.remapSwitch g x.rx x.inTime)

/-- LANE_FRAME_RECEIVE (R158, R175): the 272 inner words of a lane frame, or the 544 symbols of an electrical lane's code
word, as received. -/
def execLaneFrameReceive (g : Option Nat) (c : Nat) (words : List Nat) (lost : Nat) (s : State) :
    Host.Outcome State Fault Refusal :=
  .next (s.inPool fun s => s.laneFrame g c words lost)

/-- HEATER_UPDATE (R165). -/
def execHeaterUpdate (g c : Nat) (rx : Bool) (err code : Nat) (s : State) : Host.Outcome State Fault Refusal :=
  .next (s.inPool fun s => s.heater g c rx err code)

/-- RING_SWEEP_DONE (R166). -/
def execRingSweepDone (g c : Nat) (rx locked : Bool) (code : Nat) (s : State) : Host.Outcome State Fault Refusal :=
  .next (s.inPool fun s => s.sweepDone g c rx locked code)

/-- FEATHER_STEP (R168). -/
def execFeatherStep (g : Nat) (s : State) : Host.Outcome State Fault Refusal :=
  .next (s.inCore fun s => s.featherStep g)

/-- FEATHER_CAL_DONE (R168). -/
def execFeatherCalDone (g : Nat) (rx : Bool) (c : Nat) (s : State) : Host.Outcome State Fault Refusal :=
  .next (s.inPool fun s => s.featherCalDone g rx c)

/-- WATCH_SAMPLE (R493): a bypassed group samples but never starts acquisition. -/
def execWatchSample (g : Nat) (above : Bool) (s : State) : Host.Outcome State Fault Refusal :=
  .next (s.inPool fun s =>
    if s.groupSt g = gsWATCH then
      let n := if above then (s.grp g).light + 1 else 0
      if 3 ≤ n ∧ s.bypassedGroups.contains g = false then s.groupAcquire g
      else s.onGrp g fun x => { x with light := n }
    else s)

/-- OPT_LANE_CLR (R178). -/
def execOptLaneClr (v : View) (w : Word) (s : State) : Host.Outcome State Fault Refusal :=
  .next (s.selClear v .opt 0x100 w fun sel s =>
    let i := bitsOf sel 0 11
    if bitsOf sel 6 5 < 17 then
      ((s.setFld Reg.OPT_LANE_CW_CORR_COUNT i 0).setFld Reg.OPT_LANE_CW_UNCORR_COUNT i 0).setReg
        (Reg.OPT_LANE_EVENTS_HOPS.key i) 0
    else s)

/-- ELN_LANE_CLR (R178). -/
def execElnLaneClr (v : View) (w : Word) (s : State) : Host.Outcome State Fault Refusal :=
  .next (s.selClear v .eln 0x100 w fun sel s =>
    let i := bitsOf sel 0 6
    (s.setFld Reg.ELN_LANE_CW_CORR_COUNT i 0).setFld Reg.ELN_LANE_CW_UNCORR_COUNT i 0)

/-- ELN_TRAIN_TIMEOUT (R177). -/
def execElnTrainTimeout (l : Nat) (s : State) : Host.Outcome State Fault Refusal :=
  .next (s.inCore fun s => s.trainTimeout l)

/-- ELN_ENERGY_DETECT (R489). -/
def execElnEnergyDetect (l : Nat) (found : Bool) (s : State) : Host.Outcome State Fault Refusal :=
  .next (s.inCore fun s => s.energy l found)

end Sys2Proof.Machine
end

