-- ==== Sys2Proof/Machine/Tensor.lean ====
section
/-!
DEFINITION. The tensor fabric (R321 to R346): containers, contexts, placement and pre-emption, runs, instruction groups
and their faults, and the expanders' part in a run (R355 to R364).
-/

namespace Sys2Proof.Machine

/-! ### Program containers (R329, R330) -/

def tCodeLen (b : Bytes) : Nat := getLE b 0x08 4
def tGroupCount (b : Bytes) : Nat := getLE b 0x0C 4
def tConstLen (b : Bytes) : Nat := getLE b 0x10 4
def tWsKib (b : Bytes) : Nat := getLE b 0x14 4
def tMuNeed (b : Bytes) : Nat := getLE b 0x18 1
def tDie (b : Bytes) : Nat := getLE b 0x19 1
def tTileNeed (b : Bytes) : Nat := getLE b 0x1A 2
def tBenchGran (b : Bytes) : Nat := getLE b 0x1C 4
def tMaxGroupNs (b : Bytes) : Nat := getLE b 0x20 4
def tParams (b : Bytes) : Bytes := sliceB b 0x40 32
def tDigest (b : Bytes) : Bytes := sliceB b 0x80 64
def tConsts (b : Bytes) : Bytes := sliceB b (0x100 + tCodeLen b) (tConstLen b)

/-- The offsets of the bodies in the code section, or none where a header differs from R330: `n` bodies from body `i` at
offset `o`. -/
def bodyOffsets (code : Bytes) : Nat → Nat → Nat → Option (List Nat)
  | 0, _, o => if o = code.length then some [] else none
  | n + 1, i, o =>
    let len := getLE code o 4
    if o + 16 ≤ code.length ∧ 0 < len ∧ len % 64 = 0 ∧ o + len ≤ code.length ∧ getLE code (o + 4) 4 = i
        ∧ getLE code (o + 8) 2 ≤ 512 ∧ getLE code (o + 10) 2 ≤ 128 ∧ getLE code (o + 12) 4 = 0
    then (bodyOffsets code n (i + 1) (o + len)).map fun l => o :: l
    else none

/-- The bodies of a container. -/
def tBodies (b : Bytes) : Option (List Nat) := bodyOffsets (sliceB b 0x100 (tCodeLen b)) (tGroupCount b) 0 0

/-- WS_WRITE_KIB and BENCH_UPD of a body. -/
def bodyLimits (b : Bytes) (i : Nat) : Nat × Nat :=
  let o := 0x100 + ((tBodies b).getD []).getD i 0
  (getLE b (o + 8) 2, getLE b (o + 10) 2)

/-- S of R331, in bytes per die. -/
def saveBytes (b : Bytes) : Nat :=
  4096 + 65536 * tMuNeed b + 16384 * tTileNeed b + 4096 * tBenchGran b + tWsKib b * 1024

/-- Bytes of the save area a container needs. -/
def saveNeed (b : Bytes) : Nat := saveBytes b * (if tDie b = 3 then 2 else 1)

/-! ### Contexts (R333) -/

def csxEMPTY : Nat := 0
def csxRESIDENT : Nat := 1
def csxWAITING : Nat := 2
def csxRUNNING : Nat := 3
def csxSAVED : Nat := 4
def csxHELD : Nat := 5

/-- The state with the tensor fabric changed. -/
def State.onTfb (s : State) (f : TfbState → TfbState) : State := { s with tfb := f s.tfb }

/-- A program context. -/
def State.tctx (s : State) (n : Nat) : TCtx := s.tfb.ctxs.getD n {}
def State.setTctx (s : State) (n : Nat) (c : TCtx) : State := s.onTfb fun t => { t with ctxs := t.ctxs.put n c }

/-- A run of a plan is class T, every other class N (R335). -/
def Run.classT (r : Run) : Bool := r.plan.isSome

/-- The context's present run is class T. -/
def TCtx.classT (c : TCtx) : Bool := c.cur.any Run.classT

/-- The dies a placement covers: 2 is both, 3 none. -/
def diesOf (die : Nat) : List Nat := if die = 2 then [0, 1] else if die = 3 then [] else [die]

/-- The context holds resources of a die. -/
def TCtx.on (c : TCtx) (d : Nat) : Bool := (diesOf c.die).contains d

/-- A tensor-fabric counter on each die a context holds: 0 RUNS_DONE, 1 RUNS_FAILED, 2 PREEMPTS, 3 SAVES, 4 RESTORES,
5 GROUP_OVERRUN, 6 EXP_STALL. -/
def State.tfbCount (s : State) (c : TCtx) (k : Nat) : State :=
  (diesOf (if c.die = 3 then c.lastDie else c.die)).foldl (fun s d => s.bump Reg.TFB_STAT_VALUE_VALUE (k + 8 * d)) s

/-- What a container takes of one die: matrix units, tiles, 64 KiB units, granules (R341). -/
structure Needs where
  mu : Nat
  tiles : Nat
  ws : Nat
  gran : Nat
  deriving DecidableEq, Repr

def needsOf (b : Bytes) : Needs := ⟨tMuNeed b, tTileNeed b, tWsKib b / 64, tBenchGran b⟩

/-- Contexts that hold resources on a die. -/
def State.holders (s : State) (d : Nat) : List (Nat × TCtx) := s.tfb.ctxs.filter fun p => p.2.on d

/-- Contexts that use group staging on a die: placed for a run, being restored or saved. -/
def State.staged (s : State) (d : Nat) : Nat :=
  ((s.holders d).filter fun p => p.2.st == csxRUNNING || p.2.restoring || p.2.saving).length

/-- The sum of what contexts hold. -/
def sumNeeds (l : List TCtx) : Needs :=
  l.foldl (fun a c => let n := needsOf c.cont; ⟨a.mu + n.mu, a.tiles + n.tiles, a.ws + n.ws, a.gran + n.gran⟩) ⟨0, 0, 0, 0⟩

/-- Matrix units (kind 0, 8 a die) or tiles (kind 1, 128 a die) of a die by their numbers. -/
def dieUnits (kind d : Nat) : List Nat := if kind = 0 then (List.range 8).map (8 * d + ·) else (List.range 128).map (128 * d + ·)

/-- The context that holds a matrix unit or tile. -/
def State.unitHolder (s : State) (kind i : Nat) : Option Nat :=
  (s.tfb.ctxs.find? fun p => p.2.die != 3 && p.2.units.contains (kind, i)).map (·.1)

/-- A unit held in NAP or OFF by UNIT_POWER, which does not count as free (R492). -/
def State.unitShut (s : State) (kind i : Nat) : Bool :=
  s.power.forced.find (kind, i) == some 2 || s.power.forced.find (kind, i) == some 3

/-- Units of a die held in NAP or OFF that no holder keeps. -/
def State.shutUnits (s : State) (kind d : Nat) (gone : List Nat) : Nat :=
  ((dieUnits kind d).filter fun i => s.unitShut kind i && (match s.unitHolder kind i with
    | some c => gone.contains c
    | none => true)).length

/-- A need fits on a die where some of its holders count as gone. -/
def State.fitsWithout (s : State) (n : Needs) (gone : List Nat) (d : Nat) : Bool :=
  let u := sumNeeds (((s.holders d).filter fun p => !gone.contains p.1).map (·.2))
  let stag := (((s.holders d).filter fun p => p.2.st == csxRUNNING || p.2.restoring || p.2.saving).filter fun p =>
    !gone.contains p.1).length
  decide (u.mu + n.mu + s.shutUnits 0 d gone ≤ 8) && decide (u.tiles + n.tiles + s.shutUnits 1 d gone ≤ 128) && decide (u.ws + n.ws ≤ 896) &&
    decide (u.gran + n.gran ≤ s.fld (Reg.BEN_PART_CFG_TENSOR_GRAN.nth d)) && decide (stag < 8)

/-- A need fits on every die of an option. -/
def State.fits (s : State) (n : Needs) (gone : List Nat) (dies : List Nat) : Bool :=
  dies.all fun d => s.fitsWithout n gone d

/-- Where a context may be placed, in order of preference (R341). -/
def TCtx.options (c : TCtx) : List Nat :=
  match tDie c.cont with
  | 0 => [0]
  | 1 => [1]
  | 3 => [2]
  | _ => if c.lastDie < 2 then [c.lastDie, 1 - c.lastDie] else [0, 1]

/-- A context waits to be placed. -/
def TCtx.waits (c : TCtx) : Bool :=
  (c.st == csxWAITING || c.st == csxSAVED) && !c.saving && !c.restoring && c.cur.isSome

/-- An insertion into a list kept in the order `le`. -/
def insertBy {α : Type} (le : α → α → Bool) (x : α) : List α → List α
  | [] => [x]
  | y :: t => if le y x then y :: insertBy le x t else x :: y :: t

/-- A list in the order `le`, equal elements as they stood. -/
def sortBy {α : Type} (le : α → α → Bool) (l : List α) : List α := l.foldl (fun a x => insertBy le x a) []

/-- Waiting contexts in the order in which they are placed: class T by catch time, then class N round robin (R341). -/
def State.placeOrder (s : State) : List Nat :=
  let w := s.tfb.ctxs.filter fun p => p.2.waits
  let at_ (p : Nat × TCtx) : Nat := (p.2.cur.map (·.at_)).getD 0
  let ts := sortBy (fun a b => !earlier (at_ b) (at_ a)) (w.filter fun p => p.2.classT)
  let rr (p : Nat × TCtx) : Nat := (p.1 + 63 - (if tDie p.2.cont = 1 then s.tfb.lastStern else s.tfb.lastBow)) % 64
  let ns := sortBy (fun a b => decide (rr a ≤ rr b)) (w.filter fun p => !p.2.classT)
  (ts ++ ns).map (·.1)

/-- A context's run starts, or goes on, with its resources in place. -/
def State.runOn (s : State) (n : Nat) : State :=
  let c := s.tctx n
  s.setTctx n { c with st := csxRUNNING, restoring := false, placedAt := s.uptimeNs
                       firstAt := some (c.firstAt.getD s.uptimeNs) }

/-- `n` units of a die that are free: which of them is an open value (notes/assumptions/105.md). -/
def State.takeUnits (s : State) (kind d n : Nat) : List (Nat × Nat) × State :=
  let l := (dieUnits kind d).filter fun i => (s.unitHolder kind i).isNone && !s.unitShut kind i
  let (v, s1) := s.fresh
  let k := if l.isEmpty then 0 else v % l.length
  ((((l.drop k) ++ l.take k).take n).map fun i => (kind, i), s1)

/-- A unit that sleeps is woken by a placement (R490): state 5 WAKING, or its entry is aborted (cause 8). -/
def State.wakeUnit (s : State) (kind i cause : Nat) : State :=
  let k := kind + 8 * i
  let st := s.fld Reg.PWR_UNIT_STATE_STATE k
  let woken := (s.setFld Reg.PWR_UNIT_STATE_STATE k 5)
  if st = 4 then
    let s1 := (woken.bump Reg.PWR_UNIT_REFUSE_ABORTED k).setFld Reg.PWR_UNIT_STATE_LAST_CAUSE k cause
    { s1 with power := { s1.power with entering := s1.power.entering.del (kind, i) } }
  else if st = 1 ∨ st = 2 ∨ st = 3 then woken
  else s

/-- A context takes its place on a die; it is restored from its save area unless it still holds its resources. -/
def State.placeAt (s : State) (n die : Nat) : State :=
  let c := s.tctx n
  let s0 := s.onTfb fun t => { t with
    placements := t.placements + 1
    lastBow := if c.classT || die = 1 then t.lastBow else n
    lastStern := if c.classT || die = 0 then t.lastStern else n }
  let c1 := { c with die := die, lastDie := die, placed := s0.tfb.placements, placedAt := s.uptimeNs
                     firstAt := some (c.firstAt.getD s.uptimeNs) }
  if c.die = 3 then
    let took := (diesOf die).foldl (fun (a : List (Nat × Nat) × State) d =>
      let (m, s1) := a.2.takeUnits 0 d (tMuNeed c.cont)
      let (t, s2) := s1.takeUnits 1 d (tTileNeed c.cont)
      (a.1 ++ m ++ t, s2)) ([], s0)
    let s1 := took.1.foldl (fun s u => s.wakeUnit u.1 u.2 8) took.2
    s1.setTctx n { c1 with units := took.1, restoring := true, forT := c.classT }
  else (c.units.foldl (fun s u => s.wakeUnit u.1 u.2 8) (s0.setTctx n c1)).runOn n

/-- Holders that may be taken from on the dies of an option, in the order in which they go: contexts whose run has ended,
then for a class T run the class N contexts, the most recently placed first (R342). -/
def State.victims (s : State) (forT : Bool) (dies : List Nat) : List Nat :=
  let here := s.tfb.ctxs.filter fun p => (dies.any fun d => p.2.on d) && !p.2.saving && !p.2.restoring && !p.2.preempt
  let idle := here.filter fun p => p.2.st == csxRESIDENT
  let wait := if forT then here.filter fun p => p.2.st == csxWAITING && !p.2.classT else []
  let run := if forT then here.filter fun p => p.2.st == csxRUNNING && !p.2.classT else []
  let late := fun (a b : Nat × TCtx) => decide (b.2.placed ≤ a.2.placed)
  (sortBy late idle ++ sortBy late wait ++ sortBy late run).map (·.1)

/-- The first few of the victims without which a need fits. -/
def State.enough (s : State) (n : Needs) (dies gone : List Nat) : List Nat → List Nat → Option (List Nat)
  | chosen, [] => if s.fits n (gone ++ chosen) dies then some chosen else none
  | chosen, v :: rest =>
    if s.fits n (gone ++ chosen) dies then some chosen else State.enough s n dies gone (chosen ++ [v]) rest

/-- A holder starts to give its place up: at once when no group is in progress, else at its next group commit (R342). -/
def State.yield (s : State) (forT : Bool) (v : Nat) : State :=
  let c := s.tctx v
  if c.st = csxRUNNING then s.setTctx v { c with preempt := true, forT := forT }
  else s.setTctx v { c with saving := true, forT := forT }

/-- One waiting context is placed if it can be; `blocked` are the dies on which a class T run waits for room. -/
def State.placeOne (s : State) (blocked : List Nat) (n : Nat) : State × List Nat :=
  let c := s.tctx n
  let need := needsOf c.cont
  let forT := c.classT
  let open_ (o : Nat) : Bool := forT || !(diesOf o).any fun d => blocked.contains d
  if c.die ≠ 3 then
    (if (diesOf c.die).all (fun d => decide (s.staged d < 8)) && open_ c.die then (s.placeAt n c.die, blocked)
     else (s, if forT then blocked ++ diesOf c.die else blocked))
  else
    match c.options.find? fun o => open_ o && s.fits need [] (diesOf o) with
    | some o => (s.placeAt n o, blocked)
    | none =>
      let leaving := (s.tfb.ctxs.filter fun p => p.2.saving || p.2.preempt).map (·.1)
      match c.options.findSome? fun o =>
          if open_ o then (s.enough need (diesOf o) leaving [] (s.victims forT (diesOf o))).map fun l => (o, l) else none with
      | some (o, l) => (l.foldl (fun s v => s.yield forT v) s, if forT then blocked ++ diesOf o else blocked)
      | none => (s, if forT then blocked ++ c.options.flatMap diesOf else blocked)

/-- Waiting runs are placed (R341, R342). -/
def State.place (s : State) : State :=
  (s.placeOrder.foldl (fun (p : State × List Nat) n => p.1.placeOne p.2 n) (s, [])).1

/-! ### Runs (R334 to R336) -/

/-- What a run's end leaves for whoever asked for it: the entry of a run record, PLAN_OP_FAILED of a planned run, or the
note of an outer round (R336). -/
def State.runReport (s : State) (n : Nat) (r : Run) (status seg value : Nat) : State :=
  let s1 := match r.cq, r.rig with
    | some q, some k =>
      let x := s.ring q
      s.setRing q { x with owed := x.owed ++
        [{ ring := k.ring, slot := k.slot
           comp := { tag := r.tag, status := status, ext := 0x8001, seg := seg % 2 ^ 32, value := value % 2 ^ 64 } }] }
    | _, _ => s
  let s2 := match r.plan with
    | some (slot, heat, _, _) =>
      if status = stOK then s1
      else s1.raise Ev.PLAN_OP_FAILED slot (status + 2 ^ 8 + n * 2 ^ 16 + heat % 2 ^ 32 * 2 ^ 32)
    | none => s1
  match r.outer with
  | some (shard, step) => s2.onTfb fun t => { t with outerEnded := t.outerEnded ++ [(shard, step, status)] }
  | none => s2

/-- A container's working-store image at load (R327): its constants, the rest zero. -/
def loadImage (cont : Bytes) : List Host.Cell :=
  let img := fun (base : Nat) => ((tConsts cont).mapIdx fun i x => (base + i, x)).filter fun p => p.2 != 0
  img 0 ++ (if tDie cont = 3 then img (2 ^ 26) else [])

/-- Planned operations and planned runs that hold entries of the operation table (R251, R334). -/
def State.planEntriesHeld (s : State) : Nat :=
  (s.col.ops.filter fun o => o.2.plan.isSome).length +
    (s.tfb.ctxs.flatMap fun c => (c.2.cur.toList ++ c.2.queue).filter fun r => r.plan.isSome && r.inTable).length

/-- The next run of a context that has none becomes its present run; runs requested after an unload, or discarded by a
restart, complete ABORTED in their turn (R333). A planned run without its entry of the operation table waits (R251). -/
def State.nextRun (n : Nat) : Nat → State → State
  | 0, s => s
  | f + 1, s =>
    let c := s.tctx n
    match c.cur, c.queue with
    | none, r :: rest =>
      let s1 := s.setTctx n { c with queue := rest }
      if c.unload || r.discard then State.nextRun n f (s1.runReport n r stABORTED 0 0)
      else if !r.inTable then s
      else s1.setTctx n { c with queue := rest, cur := some r, st := csxWAITING, groups := 0, body := 0, firstAt := none
                                 runCount := (c.runCount + 1) % 2 ^ 32 }
    | _, _ => s

/-- A context whose unload waited becomes EMPTY once no run is left. -/
def State.unloadIfDone (s : State) (n : Nat) : State :=
  let c := s.tctx n
  if c.unload && c.cur.isNone && c.queue.isEmpty then s.setTctx n {} else s

/-- A context's present run ends: it is reported and counted, what its expanders hold for it is discarded, and the context
is RESIDENT again (R336, R340); after a job restart its image is as loaded (R526). -/
def State.runEnd (s : State) (n status : Nat) : State :=
  let c := s.tctx n
  match c.cur with
  | none => s
  | some r =>
    let value := s.uptimeNs - c.firstAt.getD s.uptimeNs
    let s1 := (s.runReport n r status c.groups value).tfbCount c (if status = stOK then 0 else 1)
    let s2 := (s1.blocksDrop (.run n)).onAsh fun a => { a with rubble := a.rubble.filter fun p => p.1.2.1 != n }
    let c0 := if status = stJOB_RESTARTED then { c with image := loadImage c.cont, imageOpen := none } else c
    let c1 := { c0 with cur := none, st := csxRESIDENT, hold := .none, preempt := false, restart := false }
    ((State.nextRun n (c.queue.length + 1) (s2.setTctx n c1)).unloadIfDone n).place

/-- A run of a context is requested (R334, R335). A planned run that finds the reserve of the operation table full waits for
an entry, and the wait is a stroke overrun (R251). -/
def State.runRequest (s : State) (n : Nat) (r : Run) : State :=
  let c := s.tctx n
  let enqueue := fun (s : State) (r : Run) =>
    (State.nextRun n (c.queue.length + 2) (s.setTctx n { c with queue := c.queue ++ [r] })).place
  if c.st = csxEMPTY ∨ c.unload = true then s.runReport n r stABORTED 0 0
  else match r.plan with
    | some p =>
      if s.planEntriesHeld < s.fld Reg.TPT_OPTAB_CFG_PLAN_RESERVE then enqueue s r
      else enqueue (s.planOverrun p.1) { r with inTable := false }
    | none => enqueue s r

/-- The runs of a list, the first without its entry of the operation table given one. -/
def enterFirst : List Run → List Run
  | [] => []
  | r :: t => if r.inTable then r :: enterFirst t else { r with inTable := true } :: t

/-- Planned runs that wait for an entry of the operation table take those that are free, by catch time (R251, R334). -/
def State.runsEnter (s : State) : State :=
  let l := sortBy (fun (a b : Nat × Nat) => !earlier b.1 a.1)
    (s.tfb.ctxs.flatMap fun c => (c.2.queue.filter fun r => !r.inTable).map fun r => (r.at_, c.1))
  l.foldl (fun s x =>
    if s.planEntriesHeld < s.fld Reg.TPT_OPTAB_CFG_PLAN_RESERVE then
      let c := s.tctx x.2
      (State.nextRun x.2 (c.queue.length + 1) (s.setTctx x.2 { c with queue := enterFirst c.queue })).place
    else s) s

/-- A container is loaded: the context is RESIDENT and its image lies in the save area (R333). -/
def State.ctxLoad (s : State) (n fn dom : Nat) (cont : Bytes) (saveAddr saveLen : Nat) : State :=
  let image := loadImage cont
  let draw := s.free
  (s.dvaOpen dom saveAddr (saveNeed cont)).setTctx n
    { st := csxRESIDENT, cont := cont, fn := fn, domain := dom, saveAddr := saveAddr, saveLen := saveLen, image := image
      saved := some draw }

/-- A context is unloaded: EMPTY now, or when its run in progress completes (R333). -/
def State.ctxUnload (s : State) (n : Nat) : State :=
  let c := s.tctx n
  if c.cur.isNone then (s.setTctx n {}).place else s.setTctx n { c with unload := true }

/-! ### Instruction groups (R337 to R340) -/

/-- An open value of a context restored from a save area that was changed. -/
def TCtx.openWord (c : TCtx) (tag i n : Nat) : Nat :=
  match c.imageOpen with
  | none => 0
  | some d => natLE ((List.range n).map fun k => Config.openByte d tag (n * i + k))

/-- The accumulator of a matrix unit: 16,384 FP32 codes by rows. -/
def TCtx.muAcc (c : TCtx) (u : Nat) : List Nat :=
  (c.mu.find u).getD ((List.range 16384).map fun i => c.openWord (1 + u) i 4)

/-- A lane register. -/
def TCtx.lane (c : TCtx) (tile lane reg : Nat) : Nat :=
  (c.tiles.find (tile, lane, reg)).getD (c.openWord (64 + tile) (lane * 64 + reg) 4)

/-- A byte of the working-store image: die of the context, offset in its region. -/
def TCtx.wsByte (c : TCtx) (die off : Nat) : Byte :=
  let a := die * 2 ^ 26 + off
  match Memory.get c.image a with
  | some x => x
  | none => BitVec.ofNat 8 (c.openWord 0 a 1)

/-- A byte is stored in the image, which lists no zero unless an unlisted byte is an open value. -/
def TCtx.wsPut (c : TCtx) (die off : Nat) (x : Byte) : TCtx :=
  let a := die * 2 ^ 26 + off
  { c with image := if x = 0 ∧ c.imageOpen = none then Memory.clear c.image a 1 else Memory.set c.image a x }

/-- A run of bytes is stored in the image. -/
def TCtx.wsStore (die : Nat) : Nat → Bytes → TCtx → TCtx
  | _, [], c => c
  | off, x :: t, c => TCtx.wsStore die (off + 1) t (c.wsPut die off x)

/-- The dies a container runs on at once. -/
def dieCount (cont : Bytes) : Nat := if tDie cont = 3 then 2 else 1

/-- The number under which a bay of a die of the context stands. -/
def bayKey (die bay : Nat) : Nat := die * 65536 + bay

/-- The mode of a CLEAR's code. -/
def modeOf (m : Nat) : Option Mode :=
  match m with
  | 0 => some .wide
  | 1 => some .narrow
  | 2 => some .ordered
  | 3 => some .integer
  | _ => none

/-- What a group has staged for its commit. -/
inductive Staged where
  | ws (die off : Nat) (b : Bytes)
  | add (die bay off fmt : Nat) (vals : List Val)
  | clear (die bay : Nat) (m : Mode)
  deriving DecidableEq, Repr

/-- Why a group does not commit: the run ends with a status, it is held (R340), or it stalls because the tensor staging of a
die is refused setts (R187). -/
inductive GroupHalt where
  | status (n : Nat)
  | hold (h : Hold)
  | stall (die : Nat)
  deriving DecidableEq, Repr

/-- A group under way: the context with what its instructions have done to its units, what is staged, how many waits of
expanders it met, and the machine with the memory writes it has issued. -/
structure GroupRun where
  n : Nat
  c : TCtx
  staged : List Staged := []
  stalls : Nat := 0
  s : State
  halt : Option GroupHalt := none

/-- The group ends uncommitted. -/
def GroupRun.stop (g : GroupRun) (h : GroupHalt) : GroupRun := { g with halt := some h }

/-- A translation fault of a run's access: MMU_FAULT is posted and the run is held, or ends at once with DEV_WAIT_US 0
(R138, R340). -/
def GroupRun.fault (g : GroupRun) (dom dva reason : Nat) (write : Bool) : GroupRun :=
  { g with
    s := g.s.mmuFault dom dva reason write
    halt := some (match g.s.faultEnds reason with
      | some st => .status st
      | none => .hold (.devFault dom dva write)) }

/-- The function whose run a context executes. -/
def TCtx.runFn (c : TCtx) : Nat := (c.cur.map (·.fn)).getD c.fn

/-- A class T run's access to a block under copy by a retirement waits for the copy, which counts as a stroke overrun
(R151). -/
def GroupRun.copyWait (g : GroupRun) (dom dva n : Nat) : GroupRun :=
  let waits := (pagesOf dva n).any fun a => match g.s.translate dom a false with
    | .ok p _ _ => g.s.copying p
    | .fault _ => false
  match g.c.classT && waits, g.c.cur.bind (·.plan) with
  | true, some p => { g with s := g.s.planOverrun p.1 }
  | _, _ => g

/-- ATS refuses a run's access: it asks for the page, or ends (R136). -/
def GroupRun.ats (g : GroupRun) (pri : Bool) (addr : Nat) (write : Bool) : GroupRun :=
  if pri then
    match g.s.askPage g.c.runFn addr write with
    | (h, s1) => { g with s := s1, halt := some (.hold h) }
  else g.stop (.status stTRANSLATION_FAULT)

/-- The domain of the present run. -/
def TCtx.runDomain (c : TCtx) : Nat := (c.cur.map (·.domain)).getD c.domain

/-- The B-port expander of one of the context's matrix units (R324, R359). -/
def TCtx.bPort (c : TCtx) (mu : Nat) : Option Nat :=
  (((c.units.filter fun u => u.1 == 0).map (·.2))[mu]?).map fun p => 18 * (p / 8) + p % 8

/-- The oldest blocks that an expander has expanded for the run are taken. -/
def GroupRun.take (g : GroupRun) (x n : Nat) : List Expanded × GroupRun :=
  let who := Consumer.run g.n
  let all := g.s.ash.ready.getD who []
  let l := (all.filter fun e => e.x == x).take n
  if l.length < n then ([], g.stop (.status stBAD_FIELD))
  else (l, { g with s := g.s.onAsh fun a => { a with ready := a.ready.put who (l.foldl (fun r e => r.erase e) all) } })

/-- Bytes an instruction reads: an expander it names is a bench-input or a transfer-input one (R326, R359). -/
def GroupRun.read (g : GroupRun) (src : TSrc) : Bytes × GroupRun :=
  match src with
  | .imm b => (b, g)
  | .ws die off n =>
    if die < dieCount g.c.cont ∧ off + n ≤ tWsKib g.c.cont * 1024 then ((List.range n).map fun i => g.c.wsByte die (off + i), g)
    else ([], g.stop (.status stBAD_FIELD))
  | .mem dva n r =>
    let dom := g.c.runDomain
    match g.s.rangeFault dom dva n false with
    | some (a, why) => ([], g.fault dom a why false)
    | none =>
      let g0 := g.copyWait dom dva n
      match g0.s.dvaGet dom dva n r with
      | (some b, s1) => (b, { g0 with s := s1 })
      | (none, s1) => ([], { g0 with s := s1, halt := some (.status stMEM_UNCORRECTABLE) })
  | .host addr a =>
    match a with
    | .done (some b) ats => (b, { g with s := g.s.atsFill ats g.c.runFn addr b.length })
    | .done none _ => ([], g.stop (.status stHOST_ABORT))
    | .refused pri => ([], g.ats pri addr false)
  | .expanded x n =>
    if x % 18 < 8 then ([], g.stop (.status stBAD_FIELD))
    else
      let (l, g1) := g.take x n
      (l.flatMap (·.vals), g1)

/-- Operand B of a matrix step, and whether an expander gave it with rubble (R322, R325). -/
def GroupRun.readB (g : GroupRun) (mu fb : Nat) (src : TSrc) : Bytes × Bool × GroupRun :=
  match src with
  | .expanded x n =>
    if fb = 0xFF ∧ g.c.bPort mu = some x then
      let (l, g1) := g.take x n
      (l.flatMap (·.vals), l.any (·.rubble), g1)
    else ([], false, g.stop (.status stBAD_FIELD))
  | _ =>
    if fb = 0xFF then ([], false, g.stop (.status stBAD_FIELD))
    else
      let (b, g1) := g.read src
      (b, false, g1)

/-- One element of a matrix step (R323). -/
def matElem (a b : List Val) (k acc : Nat) : Nat :=
  (List.range (k / 32)).foldl (fun acc blk =>
    let sum := (List.range 32).foldl (fun t q =>
      t.plus ((a.getD (32 * blk + q) .nan).times (b.getD (32 * blk + q) .nan))) (Val.fin false 0 0)
    toFp32 ((fFP32.decode acc).plus sum)) acc

/-- A matrix step: A by rows of k elements, B by columns of k elements (R323). -/
def matStep (acc : List Nat) (a b : List Val) (k : Nat) : List Nat :=
  acc.mapIdx fun i x => matElem ((a.drop (i / 128 * k)).take k) ((b.drop (i % 128 * k)).take k) k x

/-- K of a pair of operand formats (R322); B 0xFF is expander output. -/
def stepK (fa fb : Nat) : Option Nat :=
  let eight := [0x03, 0x04, 0x10, 0x11, 0x12, 0x13, 0x15]
  if fa ∈ eight ∧ (fb ∈ eight ∨ fb = 0xFF) then some 128
  else if fa = 0x14 ∧ fb = 0x14 then some 256
  else if fa = 0x14 ∧ fb = 0xFF then some 128
  else if (fa = 0x01 ∨ fa = 0x02) ∧ (fb = 0x01 ∨ fb = 0x02 ∨ fb = 0xFF) then some 64
  else none

/-- Values of a format in a run of bytes, when the bytes are its exact size. -/
def valuesOf (fmt n : Nat) (b : Bytes) : Option (List Val) :=
  (fmtOf fmt).bind fun f => if f.size n = some b.length then some (f.decode n b) else none

/-- A number of elements a run of bytes holds in a format. -/
def elemsOf (fmt : Nat) (b : Bytes) : Nat :=
  match fmtOf fmt with
  | some f => if f.isMx then b.length / f.blockBytes * 32 else b.length / max 1 (f.elemBits / 8)
  | none => 0

/-- A bay the context holds, as committed. -/
def TCtx.bay? (c : TCtx) (die bay : Nat) : Option TBay := c.bays.find (bayKey die bay)

/-- Granules of a die that the context's bays hold once `extra` is allotted as well. -/
def TCtx.bayGranules (c : TCtx) (die : Nat) (extra : List (Nat × Mode)) : Nat :=
  let bays := extra.foldl (fun (m : AMap Nat Mode) p => m.put p.1 p.2) (c.bays.map fun p => (p.1, p.2.mode))
  sumOf ((bays.filter fun p => p.1 / 65536 == die).map fun p => p.2.granules)

/-- Bays a group's staged CLEARs allot. -/
def GroupRun.allotted (g : GroupRun) : List (Nat × Mode) :=
  g.staged.filterMap fun x => match x with
    | .clear die bay m => some (bayKey die bay, m)
    | _ => none

/-- The mode in which a bay works, after what the group has staged. -/
def GroupRun.bayMode (g : GroupRun) (die bay : Nat) : Option Mode :=
  match (g.allotted.filter fun p => p.1 == bayKey die bay).getLast? with
  | some p => some p.2
  | none => (g.c.bay? die bay).map (·.mode)

/-- The group stages something. -/
def GroupRun.stage (g : GroupRun) (x : Staged) : GroupRun := { g with staged := g.staged ++ [x] }

/-- A staged store to the working store, inside the region. -/
def GroupRun.stageWs (g : GroupRun) (die off : Nat) (b : Bytes) : GroupRun :=
  if die < dieCount g.c.cont ∧ off + b.length ≤ tWsKib g.c.cont * 1024 then g.stage (.ws die off b)
  else g.stop (.status stBAD_FIELD)

/-- Values staged for a bay. -/
def GroupRun.stageAdd (g : GroupRun) (die bay off fmt : Nat) (vals : List Val) : GroupRun :=
  match g.bayMode die bay with
  | some m =>
    if m.accepts fmt && decide (off + vals.length ≤ 1024) then g.stage (.add die bay off fmt vals)
    else g.stop (.status stBAD_FIELD)
  | none => g.stop (.status stBAD_FIELD)

/-- A matrix unit, tile, lane or register the context has. -/
def TCtx.hasMu (c : TCtx) (u : Nat) : Bool := decide (u < tMuNeed c.cont * dieCount c.cont)
def TCtx.hasLane (c : TCtx) (t l : Nat) (regs : List Nat) : Bool :=
  decide (t < tTileNeed c.cont * dieCount c.cont) && decide (l < 64) && regs.all fun r => decide (r < 64)

/-- The die an index within the context stands on. -/
def TCtx.realDie (c : TCtx) (die : Nat) : Nat := if c.die = 2 then die else c.die

/-- The group writes device memory, at once (R337). -/
def GroupRun.memWrite (g : GroupRun) (dva : Nat) (b : Bytes) : GroupRun :=
  let dom := g.c.runDomain
  if g.halt.isSome then g else match g.s.rangeFault dom dva b.length true with
  | some (a, why) => g.fault dom a why true
  | none => { g.copyWait dom dva b.length with s := State.dvaWrite dom dva b (g.copyWait dom dva b.length).s }

/-! ### The dresser (R365 to R369) -/

/-- The dresser's run parameters (R368). -/
def rpSrc (p : Bytes) : Nat := getLE p 0x00 8
def rpDst (p : Bytes) : Nat := getLE p 0x08 8
def rpElements (p : Bytes) : Nat := getLE p 0x10 8
def rpFormat (p : Bytes) : Nat := getLE p 0x18 1
def rpProfile (p : Bytes) : Nat := getLE p 0x19 1
def rpTable (p : Bytes) : Nat := getLE p 0x1A 1
def rpShift (p : Bytes) : Nat := getLE p 0x1B 1
def rpCap (p : Bytes) : Nat := getLE p 0x1C 2
def rpBlocks (p : Bytes) : Nat := (rpElements p + 255) / 256

/-- The parameters lie in their ranges; the table is LOADED on the run's die with the profile's size (R368). -/
def State.dressOk (s : State) (die : Nat) (p : Bytes) : Bool :=
  rpDst p % 64 == 0 && decide (rpElements p ≤ 256 * (2 ^ 32 - 1)) && decide (rpFormat p ≤ 2) && decide (rpProfile p ≤ 2) &&
    decide (rpShift p ≤ 7) && decide (rpCap p ≤ 1024) && getLE p 0x1E 2 == 0 && (s.table die (rpTable p)).serves (rpProfile p)

/-- The dresser's rubble counts: in the present aligned run, the largest of a run, in the stream (R367, R368). -/
structure DressCount where
  run : Nat
  max : Nat
  total : Nat
  deriving DecidableEq, Repr

/-- Blocks dressed one after the other from block `idx` on: their bytes and the counts after them (R367). -/
def dressBlocks (levels : List Nat) (p : Bytes) : Nat → List (List Val) → DressCount → Bytes × DressCount
  | _, [], k => ([], k)
  | idx, v :: t, k =>
    let k0 : DressCount := if idx = 0 then ⟨0, 0, 0⟩ else if idx % 1024 = 0 then { k with run := 0 } else k
    let (b, rub) := dressBlock levels (rpTable p) (rpProfile p) (rpShift p) (rpCap p) k0.run v
    let n := k0.run + bit rub
    let (rest, k1) := dressBlocks levels p (idx + 1) t ⟨n, max k0.max n, k0.total + bit rub⟩
    (b ++ rest, k1)

/-- Values in blocks of 256, the last padded with +0. -/
def blocksOfVals : Nat → List Val → List (List Val)
  | 0, _ => []
  | n + 1, v => (v.take 256 ++ List.replicate (256 - (v.take 256).length) (Val.fin false 0 0)) :: blocksOfVals n (v.drop 256)

/-- The counts as the working-store image holds them, four bytes each. -/
def TCtx.dressCount (c : TCtx) (die off : Nat) : DressCount :=
  let w := fun (i : Nat) => natLE ((List.range 4).map fun k => c.wsByte die (off + 4 * i + k))
  ⟨w 0, w 1, w 2⟩

/-- The dresser codes `n` whole blocks from block `first` on (R367, R368). -/
def GroupRun.dress (g : GroupRun) (tdie first n die off : Nat) (read : MemRead) : GroupRun :=
  let p := (g.c.cur.map (·.params)).getD []
  let d := g.c.realDie tdie
  let size := if rpFormat p = 0 then 4 else 2
  if !g.s.dressOk d p || decide (rpBlocks p < first + n) then g.stop (.status stBAD_FIELD)
  else
    let cnt := min (256 * n) (rpElements p - 256 * first)
    let (b, g1) := g.read (.mem (rpSrc p + 256 * first * size) (cnt * size) read)
    if g1.halt.isSome then g1
    else match valuesOf (rpFormat p) cnt b with
      | none => g1.stop (.status stBAD_FIELD)
      | some v =>
        let (out, k) := dressBlocks (g.s.table d (rpTable p)).levels p first (blocksOfVals n v) (g.c.dressCount die off)
        let g2 := g1.memWrite (rpDst p + 64 + first * ashBytes (rpProfile p)) out
        if g2.halt.isSome then g2
        else g2.stageWs die off (bytesLE 4 k.run ++ bytesLE 4 k.max ++ bytesLE 4 k.total)

/-- The dresser writes the stream header after the last block (R362, R367). -/
def GroupRun.dressEnd (g : GroupRun) (tdie die off : Nat) : GroupRun :=
  let p := (g.c.cur.map (·.params)).getD []
  let k : DressCount := if rpBlocks p = 0 then ⟨0, 0, 0⟩ else g.c.dressCount die off
  if !g.s.dressOk (g.c.realDie tdie) p then g.stop (.status stBAD_FIELD)
  else g.memWrite (rpDst p)
    (streamHeader (rpProfile p) (rpTable p) (rpBlocks p) k.total k.max (rpCap p) (rpShift p) (rpElements p))

/-! ### The programs of an outer round (R375 to R377) -/

/-- Parameters of the dresser (R368). -/
def rpBytes (src dst elements profile table shift cap : Nat) : Bytes :=
  bytesLE 8 src ++ bytesLE 8 dst ++ bytesLE 8 elements ++ bytesLE 1 0 ++ bytesLE 1 profile ++ bytesLE 1 table ++ bytesLE 1 shift ++
    bytesLE 2 cap ++ zeros 2

/-- The shard record, the shard slot and the piece of a run that the outer-round unit requested. -/
def GroupRun.pieceOf (g : GroupRun) : Option (Bytes × OutShard × Nat) :=
  match g.c.cur.bind (·.outer) with
  | none => none
  | some (k, code) => (g.s.shardRec k).map fun r => (r, g.s.shard k, code / 16 % 131072)

/-- Blocks of a stream as an expander has them for the run, as FP32. -/
def GroupRun.stream (g : GroupRun) (x hdr first n : Nat) : List Nat × GroupRun :=
  if x % 18 < 8 then ([], g.stop (.status stBAD_FIELD))
  else
    let (l, g1) := g.take x n
    if (l.mapIdx fun i e => e.hdr == hdr && e.idx == first + i).all id then
      (l.flatMap fun e => (List.range 256).map fun i => getLE e.vals (2 * i) 2 * 2 ^ 16, g1)
    else ([], g1.stop (.status stBAD_FIELD))

/-- FP32 values read from device memory. -/
def GroupRun.floats (g : GroupRun) (dva n size : Nat) (read : MemRead) : List Nat × GroupRun :=
  let (b, g1) := g.read (.mem dva (n * size) read)
  ((List.range n).map fun i => getLE b (size * i) size * (if size = 2 then 2 ^ 16 else 1), g1)

/-- What stands in the second half of a work slot: the delta to be dressed, later the reduced delta (R374). -/
def workHalf (r : Bytes) (x : OutPiece) : Nat := hWorkAt r (x.work.getD 0) + 4 * hPieceElems r

/-- The delta former (R375); elements beyond the shard's are +0. -/
def GroupRun.formDelta (g : GroupRun) (first n ex : Nat) (read : MemRead) : GroupRun :=
  match g.pieceOf with
  | none => g.stop (.status stBAD_FIELD)
  | some (r, h, p) =>
    let x := h.piece p
    let size := if (parseSpec (hSpec r)).any (fun sp => sp.result == 0) then 4 else 2
    let cnt := min (256 * n) (hElemsOf r p - 256 * first)
    let (th, g1) := g.stream ex (hSnapAt r x.slot) first n
    if g1.halt.isSome then g1
    else
      let (w, g2) := g1.floats (hWorkAt r (x.work.getD 0) + 256 * first * size) cnt size read
      if g2.halt.isSome then g2
      else
        let d := (w.zip th).map fun e => fp32Fma (e.2 ^^^ 0x80000000) 0x3F800000 e.1
        g2.memWrite (workHalf r x + 1024 * first) (d.flatMap (fun v => bytesLE 4 v) ++ zeros (4 * (256 * n - cnt)))

/-- The fused reducer (R376). -/
def GroupRun.fuse (g : GroupRun) (first n : Nat) (xs : List Nat) : GroupRun :=
  match g.pieceOf with
  | none => g.stop (.status stBAD_FIELD)
  | some (r, h, p) =>
    let inc := g.s.included h p
    if xs.length ≠ inc.length then g.stop (.status stBAD_FIELD)
    else
      let (terms, g1) := (inc.zip xs).foldl (fun (a : List (Nat × List Nat) × GroupRun) e =>
        let (d, g1) := a.2.stream e.2 (hDeltaAt r (h.deltas.getD (p, e.1.1) (0, 0)).1) first n
        (a.1 ++ [(outScale inc.length (uStale h.desc) e.1.2, d)], g1)) ([], g)
      if g1.halt.isSome then g1
      else
        let out := (List.range (256 * n)).map fun i => outReduce (uClip h.desc) (terms.map fun t => (t.1, t.2.getD i 0))
        g1.memWrite (workHalf r (h.piece p) + 1024 * first) (out.flatMap fun v => bytesLE 4 v)

/-- The new streams of a piece: the dresser's parameters for the snapshot and for the momentum (R377). -/
def newStreams (r : Bytes) (x : OutPiece) : Bytes × Bytes :=
  let slot := x.spare.getD 0
  (rpBytes 0 (hSnapAt r slot) (hPieceElems r) 0 (hTable r 0) (hShift r) (hCap r),
    rpBytes 0 (hMomAt r slot) (hPieceElems r) 1 (hTable r 1) (hShift r) (hCap r))

/-- The outer step (R377): new snapshot and momentum, dressed into the spare slots. -/
def GroupRun.outerStep (g : GroupRun) (first n exs exm die off : Nat) (read : MemRead) : GroupRun :=
  match g.pieceOf with
  | none => g.stop (.status stBAD_FIELD)
  | some (r, h, p) =>
    let x := h.piece p
    let d := g.c.realDie die
    let (ps, pm) := newStreams r x
    if !g.s.dressOk d ps || !g.s.dressOk d pm then g.stop (.status stBAD_FIELD)
    else
      let (th, g1) := g.stream exs (hSnapAt r x.slot) first n
      let (m, g2) := g1.stream exm (hMomAt r x.slot) first n
      let (dd, g3) := g2.floats (workHalf r x + 1024 * first) (256 * n) 4 read
      if g1.halt.isSome then g1 else if g2.halt.isSome then g2 else if g3.halt.isSome then g3
      else
        let new := (List.range (256 * n)).map fun i => outStep (uMu h.desc) (uEta h.desc) (th.getD i 0) (m.getD i 0) (dd.getD i 0)
        let dress := fun (q : Bytes) (off : Nat) (vals : List Nat) =>
          dressBlocks (g.s.table d (rpTable q)).levels q first (blocksOfVals n (vals.map fFP32.decode)) (g.c.dressCount die off)
        let (sb, sc) := dress ps off (new.map (·.1))
        let (mb, mc) := dress pm (off + 12) (new.map (·.2))
        let g4 := (g3.memWrite (rpDst ps + 64 + first * 144) sb).memWrite (rpDst pm + 64 + first * 208) mb
        if g4.halt.isSome then g4
        else g4.stageWs die off ([sc.run, sc.max, sc.total, mc.run, mc.max, mc.total].flatMap fun v => bytesLE 4 v)

/-- The headers of the new streams (R362). -/
def GroupRun.outerEnd (g : GroupRun) (die off : Nat) : GroupRun :=
  match g.pieceOf with
  | none => g.stop (.status stBAD_FIELD)
  | some (r, h, p) =>
    let (ps, pm) := newStreams r (h.piece p)
    let head := fun (q : Bytes) (k : DressCount) =>
      streamHeader (rpProfile q) (rpTable q) (rpBlocks q) k.total k.max (rpCap q) (rpShift q) (rpElements q)
    (g.memWrite (rpDst ps) (head ps (g.c.dressCount die off))).memWrite (rpDst pm) (head pm (g.c.dressCount die (off + 12)))

/-- One instruction of a group (R322 to R328). -/
def GroupRun.op (g : GroupRun) (o : TOp) : GroupRun :=
  if g.halt.isSome then g
  else
    let bad := g.stop (.status stBAD_FIELD)
    match o with
    | .store die off src =>
      let (b, g1) := g.read src
      if g1.halt.isSome then g1 else g1.stageWs die off b
    | .memStore dva src =>
      let (b, g1) := g.read src
      if g1.halt.isSome then g1 else g1.memWrite dva b
    | .hostStore addr a src =>
      let (b, g1) := g.read src
      if g1.halt.isSome then g1
      else match a with
        | .done none _ => g1.stop (.status stHOST_ABORT)
        | .done (some _) ats =>
          { g1 with s := (g1.s.atsFill ats g.c.runFn addr b.length).emit (.hostWrite g.c.runFn addr b) }
        | .refused pri => g1.ats pri addr true
    | .frame die tc src =>
      let (b, g1) := g.read src
      if g1.halt.isSome then g1
      else
        let d := g.c.realDie die
        match g1.s.settStore (reqTensor d) b with
        | (some l, s1) => { g1 with s := s1.launch { req := reqTensor d, pipe := originPipe d, tc := tc % 8, frame := b } l }
        | (none, _) => g1.stop (.stall d)
    | .line die grp q kind tag src =>
      let (b, g1) := g.read src
      if g1.halt.isSome then g1
      else if 15 < grp ∨ q = 0 ∨ 7 < q then bad
      else if !g1.s.lineOn grp then g1
      else
        let d := g.c.realDie die
        match g1.s.settStore (reqTensor d) b with
        | (some l, s1) =>
          let obj : LineObj := { header := objHeader b.length tag kind, len := b.length, src := .bytes b, setts := l }
          { g1 with s := s1.linePut grp q obj }
        | (none, _) => g1.stop (.stall d)
    | .step mu fa fb a b =>
      match stepK fa fb, g.c.hasMu mu with
      | some k, true =>
        let (ab, g1) := g.read a
        if g1.halt.isSome then g1
        else
          let (bb, rubble, g2) := g1.readB mu fb b
          if g2.halt.isSome then g2
          else match valuesOf fa (128 * k) ab, valuesOf (if fb = 0xFF then 0x01 else fb) (128 * k) bb with
            | some va, some vb =>
              { g2 with c := { g2.c with mu := g2.c.mu.put mu (matStep (g2.c.muAcc mu) va vb k) }
                        stalls := g2.stalls + bit (rubble && k != 64) }
            | _, _ => g2.stop (.status stBAD_FIELD)
      | _, _ => bad
    | .muClear mu =>
      if g.c.hasMu mu then { g with c := { g.c with mu := g.c.mu.put mu (List.replicate 16384 0) } } else bad
    | .muOut mu fmt die off =>
      if g.c.hasMu mu && decide (fmt ≤ 4) then
        let accs := (g.c.muAcc mu).map fun x => ({ field := (x : Int) } : Accum)
        g.stageWs die off (encodeAccs .ordered fmt accs fun _ => none).1
      else bad
    | .muAcc mu first die bay =>
      if g.c.hasMu mu && decide (first + 1024 ≤ 16384) then
        g.stageAdd die bay 0 0 (((g.c.muAcc mu).drop first).take 1024 |>.map fFP32.decode)
      else bad
    | .loadBlock t r x =>
      let (b, g1) := g.read (.expanded x 1)
      if g1.halt.isSome then g1
      else if g.c.hasLane t 0 [r, r + 3] then
        { g1 with c := { g1.c with tiles := (List.range 256).foldl (fun m i =>
          m.put (t, i % 64, r + i / 64) (getLE b (2 * i) 2 * 2 ^ 16)) g1.c.tiles } }
      else g1.stop (.status stBAD_FIELD)
    | .load t l r src =>
      let (b, g1) := g.read src
      if g1.halt.isSome then g1
      else if g.c.hasLane t l [r] && b.length == 4 then { g1 with c := { g1.c with tiles := g1.c.tiles.put (t, l, r) (natLE b) } }
      else g1.stop (.status stBAD_FIELD)
    | .fma t l d a b c =>
      if g.c.hasLane t l [d, a, b, c] then
        { g with c := { g.c with tiles := g.c.tiles.put (t, l, d) (fp32Fma (g.c.lane t l a) (g.c.lane t l b) (g.c.lane t l c)) } }
      else bad
    | .int t l d v =>
      if g.c.hasLane t l [d] then { g with c := { g.c with tiles := g.c.tiles.put (t, l, d) (v % 2 ^ 32) } } else bad
    | .laneOut t l r die off =>
      if g.c.hasLane t l [r] then g.stageWs die off (bytesLE 4 (g.c.lane t l r)) else bad
    | .acc die bay off fmt src =>
      let (b, g1) := g.read src
      if g1.halt.isSome then g1
      else match valuesOf fmt (elemsOf fmt b) b with
        | some v => g1.stageAdd die bay off fmt v
        | none => g1.stop (.status stBAD_FIELD)
    | .round die bay fmt wdie off sr =>
      match g.c.bay? die bay with
      | some x =>
        if x.mode.fwdOk fmt || x.mode == .narrow && (fmtOf fmt).any (fun f => !f.isInt) || x.mode == .integer && fmt == 0x21 then
          let rnd := fun e => sr.map fun (gr, q, ch) => rndWord gr q ch e
          let (b, counts) := encodeAccs x.mode fmt x.accs rnd
          { g with s := g.s.countResults (g.c.realDie die) counts }.stageWs wdie off b
        else bad
      | none => bad
    | .clear die bay m =>
      match modeOf m with
      | some m =>
        if decide (die < dieCount g.c.cont) && decide (bay < 65536) &&
            decide (g.c.bayGranules die (g.allotted ++ [(bayKey die bay, m)]) ≤ tBenchGran g.c.cont) then g.stage (.clear die bay m)
        else bad
      | none => bad
    | .dress td first n die off read => g.dress td first n die off read
    | .dressEnd td die off => g.dressEnd td die off
    | .formDelta first n x read => g.formDelta first n x read
    | .fuse first n xs => g.fuse first n xs
    | .outerStep first n xs xm die off read => g.outerStep first n xs xm die off read
    | .outerEnd die off => g.outerEnd die off
    | .lost => g.stop (.status stMEM_UNCORRECTABLE)

/-- The granules a staged update touches: bay and granule. -/
def GroupRun.granules (g : GroupRun) : List (Nat × Nat) :=
  g.staged.foldl (fun l x => match x with
    | .ws .. => l
    | .add die bay off _ vals =>
      let w := ((g.bayMode die bay).map Mode.accBytes).getD 4
      (List.range 10).foldl (fun l i =>
        if off * w < (i + 1) * 4096 ∧ i * 4096 < (off + vals.length) * w then withElem l (bayKey die bay, i) else l) l
    | .clear die bay m => (List.range m.granules).foldl (fun l i => withElem l (bayKey die bay, i)) l) []

/-- What the group has staged exceeds WS_WRITE_KIB or BENCH_UPD of its body (R337). -/
def GroupRun.exceeds (g : GroupRun) : Bool :=
  let (ws, upd) := bodyLimits g.c.cont g.c.body
  let bytes := sumOf (g.staged.map fun x => match x with
    | .ws _ _ b => b.length
    | _ => 0)
  decide (ws * 1024 < bytes) || decide (upd < g.granules.length)

/-- One staged update is applied at the commit; a contribution beyond 2²⁰ of a bay's use poisons it (R262, R328). -/
def applyStaged (p : TCtx × State) (x : Staged) : TCtx × State :=
  let (c, s) := p
  match x with
  | .ws die off b => (TCtx.wsStore die off b c, s)
  | .clear die bay m => ({ c with bays := c.bays.put (bayKey die bay) { mode := m, accs := freshAccs } }, s)
  | .add die bay off _ vals =>
    match c.bay? die bay with
    | none => (c, s)
    | some b =>
      if 2 ^ 20 ≤ b.count then
        ({ c with bays := c.bays.put (bayKey die bay) { b with accs := b.accs.map (Accum.poison b.mode) } },
          s.numCount (c.realDie die) 4 1)
      else
        let b1 := { b with accs := addRun b.mode (b.count == 0) b.accs off vals, count := b.count + 1 }
        ({ c with bays := c.bays.put (bayKey die bay) b1 }, s)

/-- A group that met a fault: the run ends with a status, or its context is saved and held (R340). -/
def State.groupHalt (s : State) (n : Nat) (h : GroupHalt) : State :=
  let s1 := s.blocksDrop (.run n)
  match h with
  | .status st => s1.runEnd n st
  | .hold hd => s1.setTctx n { s1.tctx n with hold := hd, saving := true, preempt := false, forT := false }
  | .stall _ => s

/-- A group stalls on its handshake until setts come free (R187): its commit has not come, the refusal is counted, and inside a
plan reservation the stall is a stroke overrun (notes/assumptions/184.md). -/
def State.groupStall (s : State) (n die : Nat) : State :=
  let s1 := s.settRefuse (reqTensor die)
  match (s.tctx n).cur.bind (·.plan) with
  | some p => s1.planOverrun p.1
  | none => s1

/-- The committed group's next step: the run ends, or the context is pre-empted or goes on (R330, R342). -/
def State.groupNext (s : State) (n : Nat) (go : GroupNext) : State :=
  let c := s.tctx n
  match go with
  | .finish => s.runEnd n (if c.restart then stJOB_RESTARTED else stOK)
  | .bad => s.runEnd n stBAD_FIELD
  | .body i =>
    if c.restart then s.runEnd n stJOB_RESTARTED
    else if 2 ^ 32 - 1 ≤ c.groups then s.runEnd n stBAD_FIELD
    else
      let c1 := { c with body := i }
      if c.preempt then (((s.tfbCount c 2).blocksDrop (.run n)).setTctx n { c1 with saving := true, preempt := false }).place
      else (s.setTctx n c1).place

/-- An instruction group ends (R337 to R340): its staged writes and updates, the count of instances and the next body are
committed as one step, or nothing of it but the memory writes it has issued remains. -/
def State.groupCommit (s : State) (n : Nat) (ops : List TOp) (go : GroupNext) : State :=
  let c := s.tctx n
  if c.st ≠ csxRUNNING ∨ c.saving = true ∨ c.restoring = true then s
  else if !s.domainOn c.runDomain then (s.blocksDrop (.run n)).runEnd n stDOMAIN_DENIED
  else
    let g := ops.foldl GroupRun.op { n := n, c := c, s := s }
    let bad := match go with
      | .bad => true
      | .body i => decide (tGroupCount c.cont ≤ i)
      | .finish => false
    match g.halt with
    | some (.stall d) => s.groupStall n d
    | some h => g.s.groupHalt n h
    | none =>
      if bad || g.exceeds then g.s.groupHalt n (.status stBAD_FIELD)
      else
        let (c1, s1) := g.staged.foldl applyStaged (g.c, g.s)
        let s2 := s1.setTctx n { c1 with groups := c.groups + 1 }
        let s3 := (List.range g.stalls).foldl (fun s _ =>
          let s1 := s.tfbCount c 6
          match c.cur.bind (·.plan) with
          | some p => s1.planOverrun p.1
          | none => s1) s2
        s3.groupNext n go

/-! ### Saves and restores (R340 to R342) -/

/-- A save completes: the context's units, bays and image stand in its save area, in a layout the manual does not give,
and its resources are free. -/
def State.saveDone (s : State) (n : Nat) : State :=
  let c := s.tctx n
  if !c.saving then s
  else
    let draw := s.free
    let s1 := (s.dvaOpen c.domain c.saveAddr (saveNeed c.cont)).tfbCount c 3
    let st := if c.hold ≠ .none then csxHELD
      else if c.cur.isNone then csxRESIDENT
      else if c.groups = 0 ∧ c.st ≠ csxRUNNING then csxWAITING
      else csxSAVED
    (s1.setTctx n { c with saving := false, st := st, die := 3, lastDie := c.die, saved := some draw }).place

/-- A restore completes: the context runs; where its save area was changed it runs with whatever it reads there (R343), and
a location that cannot be read ends the run (R340). -/
def State.restoreEnd (s : State) (n : Nat) (read : MemRead) : State :=
  let c := s.tctx n
  if !c.restoring then s
  else
    let len := saveNeed c.cont
    let (out, s0) := (s.tfbCount c 4).readErrs c.domain c.saveAddr len read
    let lost := out.bad
    let changed := s.dvaTouched c.domain c.saveAddr len (c.saved.getD 0) || !out.wrong.isEmpty
    let (d, s1) := if lost || changed then s0.fresh else (0, s0)
    let c1 := if lost || changed then
        { c with
          image := [], imageOpen := some d, mu := [], tiles := []
          bays := c.bays.map fun p =>
            let b := (List.range 40960).map fun i => Config.openByte d (1024 + p.1) i
            (p.1, { p.2 with accs := accsOf p.2.mode b }) }
      else c
    let s2 := (s1.setTctx n c1).runOn n
    if lost then s2.runEnd n stMEM_UNCORRECTABLE else s2

/-- A class N context has run its quantum while another class N run of its die cannot be placed (R341). -/
def State.quantum (s : State) (n : Nat) : State :=
  let c := s.tctx n
  let others := s.tfb.ctxs.any fun p => p.1 != n && p.2.waits && !p.2.classT &&
    (p.2.options.any fun o => (diesOf o).any fun d => c.on d)
  if c.st = csxRUNNING ∧ c.classT = false ∧ c.saving = false ∧ c.restoring = false ∧ others = true
  then s.setTctx n { c with preempt := true, forT := false } else s

/-! ### Expanders of a run or a transfer (R355, R360, R362, R364) -/

/-- A load takes block `idx` of a stream into an expander's queue; a B-port expander is that of a unit the context holds. -/
def State.blockLoad (s : State) (x ctx hdr idx : Nat) (read : MemRead) : State :=
  let c := s.tctx ctx
  let port := decide (x % 18 < 8) && !c.units.contains (0, 8 * expanderDie x + x % 18)
  if c.st ≠ csxRUNNING ∨ c.saving = true ∨ c.restoring = true ∨ c.on (expanderDie x) = false ∨ expanders ≤ x ∨ port = true then s
  else
    let (h, g) := GroupRun.read { n := ctx, c := c, s := s } (.mem hdr 64 [])
    match g.halt with
    | some e => g.s.groupHalt ctx e
    | none =>
      if !streamOk h idx then g.s.groupHalt ctx (.status stBAD_FIELD)
      else
        let prof := getLE h 6 1
        let at_ := hdr + 64 + idx * ashBytes prof
        let (b, g1) := g.read (.mem at_ (ashBytes prof) read)
        match g1.halt with
        | some e => g1.s.groupHalt ctx e
        | none =>
          match g1.s.blockCheck (expanderDie x) prof (getLE h 7 1) b with
          | some k => (g1.s.blockRefused (expanderDie x) k at_ c.runDomain).groupHalt ctx (.status (checkStatus k))
          | none => g1.s.blockAccept x { who := .run ctx, block := b, idx := idx, at_ := at_, hdr := hdr, max := getLE h 0x10 2 }

/-- A transfer with expansion takes block `idx` of its current segment into a transfer-input expander of the bow die. -/
def State.blockXfer (s : State) (x : Nat) (k : OpKey) (idx : Nat) (host : HostAccess) (read : MemRead) : State :=
  match s.op? k with
  | none => s
  | some o =>
    let d := o.desc
    let size := ashBytes (xProfile d)
    let blocks := xLength d / size
    let known := (s.ash.ready.getD (.xfer k) []).any fun e => e.idx == idx
    let queued := (s.ash.queues.getD 16 [] ++ s.ash.queues.getD 17 []).any fun q => q.who == .xfer k && q.idx == idx
    if !o.runs || dKind d != kindXFER || dOp d != 1 || (x != 16 && x != 17) || o.hold != .none || known || queued
        || decide (256 ≤ idx) || decide (blocks ≤ o.seg * 256 + idx) then s
    else
      let at_ := xSrcAddr d + (o.seg * 256 + idx) * size
      let dom := (s.domainOf o.fn (dDomain d)).getD 0
      let fail (s : State) (st : Nat) : State :=
        (s.blocksDrop (.xfer k)).endOp k { tag := dTag d, status := st, seg := o.seg, value := o.seg * 256 * 512 }
      let take (s : State) (b : Bytes) : State :=
        match s.blockCheck 0 (xProfile d) (xTableId d) b with
        | some c => fail (s.blockRefused 0 c at_ dom) (checkStatus c)
        | none => s.blockAccept x { who := .xfer k, block := b, idx := idx, at_ := at_ }
      if xSrcSpace d = 0 then
        match host with
        | .done (some b) ats => take (s.atsFill ats o.fn at_ size) b
        | .done none _ => fail s stHOST_ABORT
        | .refused true => (s.blocksDrop (.xfer k)).pageRequest k at_ false
        | .refused false => fail s stTRANSLATION_FAULT
      else
        match s.rangeFault dom at_ size false with
        | some (a, why) => (s.blocksDrop (.xfer k)).devFault o dom a why false
        | none =>
          match s.dvaGet dom at_ size read with
          | (none, s1) => fail s1 stMEM_UNCORRECTABLE
          | (some b, s1) => take s1 b

/-- EXPAND_BLOCK: a block is accepted or refused, or the head of an expander's queue is expanded (R358, R360); rubble
beyond the declared count is an overrun of a planned run's stroke (R316). -/
def State.expandStep (s : State) (x : Nat) (e : ExpandStep) : State :=
  match e with
  | .load ctx hdr idx read => s.blockLoad x ctx hdr idx read
  | .xfer k idx host read => s.blockXfer x k idx host read
  | .expand =>
    match s.expandHead x with
    | none => s
    | some (q, excess, s1) =>
      match excess, q.who with
      | true, .run ctx =>
        match (s.tctx ctx).cur.bind (·.plan) with
        | some p => s1.planOverrun p.1
        | none => s1
      | _, _ => s1

/-! ### Meanings -/

/-- TENSOR_GROUP_COMMIT (R337). -/
def execTensorGroupCommit (ctx : Nat) (ops : List TOp) (go : GroupNext) (s : State) : Host.Outcome State Fault Refusal :=
  .next (s.inPool fun s => s.groupCommit ctx ops go)

/-- CONTEXT_SAVE_DONE (R342). -/
def execContextSaveDone (ctx : Nat) (s : State) : Host.Outcome State Fault Refusal :=
  .next (s.inCore fun s => s.saveDone ctx)

/-- CONTEXT_RESTORE_DONE (R342). -/
def execContextRestoreDone (ctx : Nat) (read : MemRead) (s : State) : Host.Outcome State Fault Refusal :=
  .next (s.inCore fun s => s.restoreEnd ctx read)

/-- QUANTUM_EXPIRE (R341). -/
def execQuantumExpire (ctx : Nat) (s : State) : Host.Outcome State Fault Refusal :=
  .next (s.inCore fun s => s.quantum ctx)

/-- GROUP_OVERRUN (R340): counted at or above 0.72 V. -/
def execGroupOverrun (ctx : Nat) (s : State) : Host.Outcome State Fault Refusal :=
  .next (s.inCore fun s =>
    if (s.tctx ctx).st = csxRUNNING ∧ 720 ≤ s.fld Reg.PWR_VFLOOR_STATUS_CORE_MV then s.tfbCount (s.tctx ctx) 5 else s)

/-- TFB_STAT_CLR (R346). -/
def execTfbStatClr (v : View) (w : Word) (s : State) : Host.Outcome State Fault Refusal :=
  .next (s.selClear v .tfb 0x200 w fun sel s => s.setFld Reg.TFB_STAT_VALUE_VALUE (bitsOf sel 0 4) 0)

/-- EXPAND_BLOCK (R358). -/
def execExpandBlock (x : Nat) (e : ExpandStep) (s : State) : Host.Outcome State Fault Refusal :=
  .next (s.inCore fun s => s.expandStep x e)

end Sys2Proof.Machine
end

