-- ==== Sys2Proof/Machine/Line.lean ====
section
/-!
DEFINITION. Line groups (R402 to R432, R441): transmissions, the erasure code, sequence numbers and windows, objects and
queues, defects and protection, performance monitoring, and the management data channels.
-/

namespace Sys2Proof.Machine

/-! ### The erasure code (R408) -/

/-- α times an element of GF(256). -/
def gfX (a : Nat) : Nat := if 128 ≤ a then (2 * a % 256) ^^^ 0x1D else 2 * a

/-- A product in GF(256). -/
def gfMul (a b : Nat) : Nat :=
  ((List.range 8).foldl (fun (p : Nat × Nat) i => (if bitAt b i then p.1 ^^^ p.2 else p.1, gfX p.2)) (0, a)).1

/-- A power in GF(256). -/
def gfPow (a : Nat) : Nat → Nat
  | 0 => 1
  | n + 1 => gfMul a (gfPow a n)

/-- The inverse of an element that is not 0. -/
def gfInv (a : Nat) : Nat := gfPow a 254

/-- The product of two polynomials, lowest coefficient first. -/
def gfPolyMul (p q : List Nat) : List Nat :=
  (p.mapIdx fun i a => List.replicate i 0 ++ q.map (gfMul a)).foldl (fun acc r =>
    (List.range (max acc.length r.length)).map fun i => acc.getD i 0 ^^^ r.getD i 0) []

/-- g(x), lowest coefficient first. -/
def gfGen : List Nat := gfPolyMul (gfPolyMul [1, 1] [2, 1]) (gfPolyMul [4, 1] [8, 1])

/-- The four parity bytes of 32 bytes, positions 32 to 35. -/
def rsParity (t : List Nat) : List Nat :=
  let g := gfGen
  let r := t.foldl (fun (r : List Nat) x =>
    let f := x ^^^ r.getD 0 0
    (List.range 4).map fun i => (r.getD (i + 1) 0) ^^^ gfMul f (g.getD (3 - i) 0)) [0, 0, 0, 0]
  r

/-- The bytes at the absent positions `gaps` (at most 4) of a word whose absent bytes stand as 0. -/
def rsFill (t : List Nat) (gaps : List Nat) : List Nat :=
  let loc := fun k => gfPow 2 (35 - k)
  let synd := fun j => (t.mapIdx fun k x => gfMul x (gfPow (loc k) j)).foldl (· ^^^ ·) 0
  gaps.map fun a =>
    let others := gaps.filter (· != a)
    let poly := others.foldl (fun p b => gfPolyMul p [loc b, 1]) [1]
    let num := (poly.mapIdx fun j c => gfMul c (synd j)).foldl (· ^^^ ·) 0
    let den := others.foldl (fun d b => gfMul d (loc a ^^^ loc b)) 1
    gfMul num (gfInv den)

/-- Parity bodies of 32 bodies. -/
def parityBodies (bodies : List Bytes) : List Bytes :=
  let cols := (List.range 8224).map fun j => rsParity (bodies.map fun b => (b.getD j 0).toNat)
  (List.range 4).map fun i => cols.map fun c => BitVec.ofNat 8 (c.getD i 0)

/-- The bodies at the absent positions of a multiframe. -/
def fillBodies (bodies : AMap Nat Bytes) (gaps : List Nat) : List (Nat × Bytes) :=
  let cols := (List.range 8224).map fun j =>
    rsFill ((List.range 36).map fun k => match bodies.find k with
      | some b => (b.getD j 0).toNat
      | none => 0) gaps
  gaps.mapIdx fun i k => (k, cols.map fun c => BitVec.ofNat 8 (c.getD i 0))

/-! ### Groups, lanes and legs (R402, R403) -/

/-- A counter of a group, or of one of its legs, as `RD_SEL.COUNTER` numbers them. -/
def State.lineCount (s : State) (g c : Nat) (leg : Nat := 0) : State := s.bump Reg.SLF_STAT_VALUE_VALUE (g + 16 * leg + 32 * c)

def State.lineProtected (s : State) (g : Nat) : Bool := s.flag Reg.SLF_GRP_CFG_PROTECT g
def State.lineEncrypts (s : State) (g : Nat) : Bool := s.flag Reg.SLF_GRP_CFG_ENCRYPT g
/-- The link of a group as key exchange numbers it. -/
def lineLink (g : Nat) : Nat := 576 + g

/-- RATE and KIND of a lane's octet. -/
def State.laneRate (s : State) (l : Nat) : Nat × Nat :=
  (s.fld Reg.ELN_OCT_CFG_RATE (l / 8), s.fld Reg.ELN_OCT_CFG_KIND (l / 8))

/-- The cause of LANE_MISMATCH: 1 no member, 2 more than 16, 3 rate, 4 kind, 5 an odd count in 1+1; 0 none (R402). -/
def State.lineCause (s : State) (g : Nat) : Nat :=
  let l := s.groupLanes g
  let first := s.laneRate (l.headD 0)
  if l.isEmpty then 1 else if 16 < l.length then 2
  else if l.any fun x => (s.laneRate x).1 != first.1 then 3
  else if l.any fun x => (s.laneRate x).2 != first.2 then 4
  else if s.lineProtected g && l.length % 2 == 1 then 5 else 0

/-- A lane is in service (R403): its link is up and its PHY has reported nothing for 10 ms. -/
def State.laneServes (s : State) (l : Nat) : Bool := s.laneSt l == 3 && !s.line.faults.contains l

/-- The lanes of a leg. -/
def State.legLanes (s : State) (g leg : Nat) : List Nat :=
  let l := s.groupLanes g
  if s.lineProtected g then (if leg = 0 then l.take (l.length / 2) else l.drop (l.length / 2)) else if leg = 0 then l else []

/-- The lanes of a leg that are in service. -/
def State.legServing (s : State) (g leg : Nat) : List Nat := (s.legLanes g leg).filter s.laneServes

/-- The legs a group has. -/
def State.legsOf (s : State) (g : Nat) : List Nat := if s.lineProtected g then [0, 1] else [0]

def LineGroup.leg (x : LineGroup) (leg : Nat) : LineLeg := if leg = 0 then x.legA else x.legB
def LineGroup.setLeg (x : LineGroup) (leg : Nat) (l : LineLeg) : LineGroup :=
  if leg = 0 then { x with legA := l } else { x with legB := l }
def State.onLeg (s : State) (g leg : Nat) (f : LineLeg → LineLeg) : State :=
  let x := s.lgrp g
  s.setLgrp g (x.setLeg leg (f (x.leg leg)))

/-- The group carries transmissions: enabled and not in LANE_MISMATCH. -/
def State.lineRuns (s : State) (g : Nat) : Bool := s.lineOn g && s.lineCause g == 0

/-- The group is suspended (R424). -/
def LineGroup.isSuspended (x : LineGroup) : Bool := x.sf || x.rdi

/-! ### Defects and consequent actions (R421 to R428) -/

/-- Anything that holds a leg in dSF (R421). -/
def LineLeg.bad (l : LineLeg) : Bool := l.los || l.lof || l.lom || l.ais || l.msBad

/-- A leg's dLOS and dSF after what has happened now: dSF is entered at once and left after 10 ms without its causes. -/
def State.legJudge (s : State) (g leg : Nat) : State :=
  let none_ := (s.legServing g leg).isEmpty
  s.onLeg g leg fun l =>
    let l := { l with los := none_ }
    if l.bad then { l with sf := true, sfSeen := true, clear := none }
    else if l.sf then
      let since := l.clear.getD s.uptimeNs
      if since + 10000000 ≤ s.uptimeNs then { l with sf := false, clear := none, wtr := s.lineProtected g }
      else { l with clear := some since }
    else l

/-- FORCE of a group. -/
def State.lineForce (s : State) (g : Nat) : Nat := s.fld Reg.SLF_PROT_CFG_FORCE g

/-- The legs that should be selected (R428): by FORCE in 1+1, else those in neither dSF nor dSD that have waited to restore,
else those in dSD, else those that still wait (notes/assumptions/198.md). -/
def State.wantLegs (s : State) (g : Nat) : List Nat :=
  let x := s.lgrp g
  let legs := s.legsOf g
  if !s.lineProtected g then (if x.legA.sf then [] else [0])
  else if s.lineForce g = 1 then [0]
  else if s.lineForce g = 2 then [1]
  else
    let clean := legs.filter fun i => !(x.leg i).sf && !(x.leg i).sd && !(x.leg i).wtr
    let degraded := legs.filter fun i => !(x.leg i).sf && (x.leg i).sd && !(x.leg i).wtr
    let waiting := legs.filter fun i => !(x.leg i).sf
    if !clean.isEmpty then clean else if !degraded.isEmpty then degraded else waiting

/-- The group is in SF (R422): every leg is in dSF, or FORCE names one that is. -/
def State.lineInSf (s : State) (g : Nat) : Bool :=
  let x := s.lgrp g
  ((s.legsOf g).all fun i => (x.leg i).sf) ||
    s.lineProtected g && (s.lineForce g == 1 && x.legA.sf || s.lineForce g == 2 && x.legB.sf)

/-- The status registers of a group and its legs follow it. -/
def State.showLine (s : State) (g : Nat) : State :=
  let x := s.lgrp g
  let lanes := s.groupLanes g
  let cause := if s.lineOn g then s.lineCause g else 0
  let up := (s.legsOf g).any fun i => !(s.legServing g i).isEmpty
  let st := if !s.lineOn g then 0 else if cause ≠ 0 then 4 else if !up then 1 else if x.sf then 3 else 2
  let mask := sumOf ((lanes.take 16).mapIdx fun i l => if s.laneServes l then 2 ^ i else 0)
  let s1 := ((((s.setFld Reg.SLF_GRP_STATUS_STATE g st).setFlag Reg.SLF_GRP_STATUS_RDI g x.rdi).setFlag
    Reg.SLF_GRP_STATUS_SUSPENDED g (s.lineOn g && x.isSuspended)).setFld Reg.SLF_GRP_STATUS_LANES g mask).setFld
      Reg.SLF_GRP_STATUS_CAUSE g cause
  (s.legsOf g).foldl (fun s i =>
    let l := x.leg i
    let d := bit l.los + 2 * bit l.lof + 4 * bit l.lom + 8 * bit l.ais + 16 * bit l.sd + 32 * bit l.sf
    let k := g + 16 * i
    (((s.setFld Reg.SLF_LEG_STATUS_DEFECTS k d).setFlag Reg.SLF_LEG_STATUS_SELECTED k l.selected).setFlag
      Reg.SLF_LEG_STATUS_WTR k l.wtr).setFld Reg.SLF_LEG_STATUS_RTT_US k (min 65535 (x.srtt / 1000).floor.toNat)) s1

/-- The selected legs follow the legs' states; a change is counted and posted (R428). -/
def State.lineSelect (s : State) (g : Nat) : State :=
  let x := s.lgrp g
  let want := s.wantLegs g
  let have_ := (s.legsOf g).filter fun i => (x.leg i).selected
  if want = have_ then s
  else
    let s1 := (s.legsOf g).foldl (fun s i => s.onLeg g i fun l => { l with selected := want.contains i }) s
    if s.lineProtected g then
      (s1.lineCount g 13).raise Ev.LINE_PROT_SWITCH g (sumOf (want.map fun i => 2 ^ i))
    else s1

/-- DCC port n serves this group; with VDD_IO out of range the ports stop (R497). -/
def State.dccServes (s : State) (port g : Nat) : Bool :=
  if !s.railOk 1 then false
  else if port = 0 then s.flag Reg.SLF_DCC_CFG_PORT0_EN && s.fld Reg.SLF_DCC_CFG_PORT0_LG == g
  else s.flag Reg.SLF_DCC_CFG_PORT1_EN && s.fld Reg.SLF_DCC_CFG_PORT1_LG == g

/-- DCC port n runs with this group: it serves it, and the group is UP and not in SF (R430). -/
def State.dccRuns (s : State) (port g : Nat) : Bool :=
  s.dccServes port g && s.fld Reg.SLF_GRP_STATUS_STATE g == 2 && !(s.lgrp g).sf

/-- A DCC port that does not run holds its output and empties its buffer (R430). -/
def State.dccHold (s : State) (port : Nat) : State :=
  if s.dccRuns port (s.fld (if port = 0 then Reg.SLF_DCC_CFG_PORT0_LG else Reg.SLF_DCC_CFG_PORT1_LG)) then s
  else
    let p := s.line.dcc.getD port {}
    (s.onLine fun l => { l with dcc := l.dcc.put port { p with buf := [], got := none, running := false } }).setFlag
      (Reg.SLF_DCC_STATUS_ACTIVE.nth port) 0 false

/-- A member lane has been lost or found, or a leg's defects have changed: defects, selection, SF, suspension and status
follow (R402, R421 to R424, R428). An encrypted group that reaches UP, or whose suspension ends with an exchange due,
starts one (R445). -/
def State.lineRefresh (s : State) (g : Nat) : State :=
  let s0 := s
  if !s.lineOn g then s
  else
    let was := s.fld Reg.SLF_GRP_STATUS_STATE g
    let cause := s.lineCause g
    let s1 := if cause ≠ 0 ∧ was ≠ 4 then s.raise Ev.LG_LANE_MISMATCH g cause else s
    let s2 := if cause ≠ 0 then s1 else ((s.legsOf g).foldl (fun s i => s.legJudge g i) s1).lineSelect g
    let x := s2.lgrp g
    let sf := s2.lineInSf g
    let s3 := s2.setLgrp g { x with sf := sf }
    let s4 := if sf && !x.sf then s3.raise Ev.LINE_SF g 0 else if !sf && x.sf then s3.raise Ev.LINE_SF_CLEAR g 0 else s3
    let y := s4.lgrp g
    let s5 := match y.isSuspended, y.suspended with
      | true, none => s4.setLgrp g { y with suspended := some s0.uptimeNs }
      | false, some t =>
        let grown := if y.prevAn.isSome then y.cutoff + (s0.uptimeNs - t) else y.cutoff
        s4.setLgrp g { y with suspended := none, letGo := false, cutoff := grown }
      | _, _ => s4
    let s6 := ((s5.showLine g).dccHold 0).dccHold 1
    let l := lineLink g
    if (s6.link l).due && !(s6.lgrp g).isSuspended then s6.kexNext l
    else if s6.fld Reg.SLF_GRP_STATUS_STATE g == 2 && was != 2 && s6.lineEncrypts g then s6.kexNext l
    else s6

/-! ### Objects to send (R416 to R419) -/

/-- A LINE entry of a plan fires (R418): true when it is satisfied at once. -/
def State.lineRelease (s : State) (g q : Nat) (r : PlanRef) : Bool × State :=
  if !s.lineOn g || !s.linePlanned g q then (true, s)
  else
    let x := s.lgrp g
    (false, s.setLgrp g ({ x with releases := x.releases ++ [(q, r)] }.matchReleases q))

/-- A LINE entry still waits: for an object, or for its object's last frame. -/
def State.linePending (s : State) (g : Nat) (r : PlanRef) : Bool :=
  let x := s.lgrp g
  (x.releases.any fun p => p.2 == r) || (x.queues.any fun p => p.2.any fun o => o.ref == some r)

def xLg (d : Bytes) : Nat := getLE d 0x2B 1
def xQueue (d : Bytes) : Nat := getLE d 0x2C 1
def xLineKind (d : Bytes) : Nat := getLE d 0x2D 1
def xTag (d : Bytes) : Bytes := sliceB d 0x30 16

/-- The refusals every transfer shares (R116, R117, R134): spaces and class out of range, device memory a virtual function
may not name, a domain outside the partition or not enabled when the descriptor was taken. `src` and `dst` say which spaces
the operation uses. -/
def State.xferRefusal (s : State) (o : Op) (src dst : Bool) : Option Nat :=
  let d := o.desc
  let dev := (src && xSrcSpace d == 1) || (dst && xDstSpace d == 1)
  if 2 ^ 40 < xLength d ∨ (src = true ∧ 1 < xSrcSpace d) ∨ (dst = true ∧ 1 < xDstSpace d) ∨ 1 < xClass d then some stBAD_FIELD
  else if dev && o.fn != 0 && !s.flag Reg.HIF_VF_PERMS_DEVICE_XFER o.fn then some stNOT_PERMITTED
  else if dev && (o.dark || (s.domainOf o.fn (dDomain d)).isNone) then some stDOMAIN_DENIED
  else none

def stLINE_GONE : Nat := 0x50
def stLINE_DOWN : Nat := 0x51
def stLINE_TRUNCATED : Nat := 0x52

/-- A transfer descriptor of one operation. -/
def isXfer (op : Nat) (d : Bytes) : Bool := dKind d == kindXFER && dOp d == op

/-- LINE_SEND (R419). -/
def State.lineSend (s : State) (o : Op) : State :=
  let d := o.desc
  let g := xLg d
  let q := xQueue d
  if xLength d = 0 then s.finish o.key stZERO_LEN
  else if 15 < g ∨ q = 0 ∨ 7 < q ∨ (q = 7 ∧ s.flag Reg.SLF_GRP_CFG_PKT_Q7 g = true ∧ ¬(60 ≤ xLength d ∧ xLength d ≤ 9216))
  then s.finish o.key stBAD_FIELD
  else match s.xferRefusal o true false with
    | some st => s.finish o.key st
    | none =>
      if !s.lineOn g then s.finish o.key stLINE_DOWN
      else (s.setHold o.key .other).linePut g q
        { header := objHeader (xLength d) (xTag d) (xLineKind d), len := xLength d, src := .op o.key }

/-- LINE_POST (R419). -/
def State.linePost (s : State) (o : Op) : State :=
  let d := o.desc
  let g := xLg d
  let q := xQueue d
  if 15 < g ∨ q = 0 ∨ 7 < q ∨ xLength d < 64 ∨ (q = 7 ∧ s.flag Reg.SLF_GRP_CFG_PKT_Q7 g = true) then s.finish o.key stBAD_FIELD
  else match s.xferRefusal o false true with
    | some st => s.finish o.key st
    | none =>
      if !s.lineOn g then s.finish o.key stLINE_DOWN
      else
        let x := s.lgrp g
        (s.setHold o.key .other).setLgrp g { x with posts := x.posts.put q (x.posts.getD q [] ++ [o.key]) }

/-! ### Sending (R404 to R407, R410, R411, R414, R418, R420) -/

/-- A frame of `n` bytes counted modulo 2⁴⁸. -/
def fsn48 (n : Nat) : Nat := n % 2 ^ 48

/-- The frame counter nearest `base` whose low 48 bits are given: FSNs are compared by signed difference (R410). -/
def fsn64 (base low : Nat) : Int := (base : Int) + toSigned 48 (ofSigned 48 ((low : Int) - (base : Int)))

/-- The first 16 bytes of a content header (R405). -/
def contentHead (fsn an : Nat) (enc : Bool) (content queue oflags len seq : Nat) : Bytes :=
  bytesBE 6 (fsn48 fsn) ++ bytesBE 1 (an % 4 + bit enc * 128) ++ bytesBE 1 content ++ bytesBE 1 queue ++ bytesBE 1 oflags ++
    bytesBE 2 len ++ bytesBE 4 seq

/-- An IDLE, GONE or KEY body (R406, R442). -/
def idleBody : Bytes := zeros 8224
def goneBody (fsn queue seq : Nat) : Bytes := contentHead fsn 0 false 2 queue 0 0 seq ++ zeros (16 + 8192)
def keyBody (m : Bytes) : Bytes := contentHead 0 0 false 3 0 0 0 0 ++ zeros 16 ++ m ++ zeros (8192 - m.length)

/-- The nonce of a DATA payload (R406, R441): the association's 32-bit salt and the 64-bit frame counter. -/
def lineNonce (a : Assoc) (fsn : Nat) : Bytes := sliceB a.key 32 4 ++ bytesBE 8 fsn

/-- A DATA body: encrypted under the transmit association of an encrypted group (R406). -/
def dataBody (tx : Option Assoc) (fsn queue oflags seq : Nat) (data : Bytes) : Bytes :=
  let head := contentHead fsn ((tx.map Assoc.an).getD 0) tx.isSome 1 queue oflags data.length seq
  let plain := data ++ zeros (8192 - data.length)
  match tx with
  | some a =>
    let c := Config.gcmSeal (sliceB a.key 0 32) (lineNonce a fsn) head plain
    head ++ c.drop 8192 ++ c.take 8192
  | none => head ++ zeros 16 ++ plain

def bFsn (b : Bytes) : Nat := getBE b 0 6
def bAn (b : Bytes) : Nat := getBE b 6 1 % 4
def bEnc (b : Bytes) : Bool := bitAt (getBE b 6 1) 7
def bContent (b : Bytes) : Nat := getBE b 7 1
def bQueue (b : Bytes) : Nat := getBE b 8 1 % 8
def bFlags (b : Bytes) : Nat := getBE b 9 1
def bLen (b : Bytes) : Nat := getBE b 10 2
def bSeq (b : Bytes) : Nat := getBE b 12 4

/-- The LINE_SEND whose frames have all been sent and acknowledged completes (R419). -/
def State.lineSendDone (s : State) (g : Nat) (k : OpKey) : State :=
  let x := s.lgrp g
  let queued := x.queues.any fun p => p.2.any fun o => o.src == .op k
  if queued || x.held.any fun f => f.op == some k then s
  else match s.op? k with
    | some o => if o.runs then s.finish k stOK 0 (xLength o.desc) else s
    | none => s

/-- Objects queued on behalf of an operation leave their queue. -/
def LineGroup.dropOp (x : LineGroup) (k : OpKey) : LineGroup :=
  { x with queues := x.queues.map fun p => (p.1, p.2.filter fun o => o.src != .op k) }

/-- A held frame is released unacknowledged: its LINE_SEND completes with LINE_GONE (R414, R419, R424). -/
def State.lineGoneOp (s : State) (g : Nat) (k : Option OpKey) : State :=
  match k with
  | some k => match s.op? k with
    | some o => if o.runs then (s.setLgrp g ((s.lgrp g).dropOp k)).finish k stLINE_GONE else s
    | none => s
  | none => s

/-- The next answer to the NACK ranges received: the lowest FSN asked for, with the ranges left. -/
def nextAsk (l : List (Nat × Nat)) : Option (Nat × List (Nat × Nat)) :=
  match (l.filter fun r => r.2 != 0).foldl (fun (b : Option (Nat × Nat)) r => match b with
    | none => some r
    | some c => if r.1 < c.1 then some r else some c) none with
  | none => none
  | some r =>
    some (r.1, (l.filter fun q => q.2 != 0).map fun q => if q.1 = r.1 then (q.1 + 1, q.2 - 1) else q)

/-- Held frames leave their slots unacknowledged; their queues and OBJ_SEQs are remembered for GONE answers (R414). -/
def LineGroup.unhold (x : LineGroup) (which : TxFrame → Bool) : LineGroup :=
  { x with
    released := x.released ++ (x.held.filter which).map fun t => (t.fsn, bQueue t.body, bSeq t.body)
    held := x.held.filter fun t => !which t }

/-- The next resend or GONE answer (R414), skipping FSNs that need none: not yet sent, or resent less than one SRTT ago. A
frame released after its acknowledgement is known by its FSN alone: QUEUE and OBJ_SEQ of its answer are free values
(notes/assumptions/199.md). -/
def State.lineAnswer (g : Nat) : Nat → State → Option (Bytes × State)
  | 0, _ => none
  | n + 1, s =>
    let x := s.lgrp g
    match nextAsk x.asks with
    | none => none
    | some (f, rest) =>
      let s1 := s.setLgrp g { x with asks := rest }
      if x.next ≤ f then State.lineAnswer g n s1
      else match x.held.find? fun t => t.fsn == f with
        | none =>
          match x.released.find? fun r => r.1 == f with
          | some r => some (goneBody f r.2.1 r.2.2, s1.lineCount g 9)
          | none => some (goneBody f (s1.fresh.1 % 8) (s1.fresh.1 / 8 % 2 ^ 32), s1.fresh.2.lineCount g 9)
        | some t =>
          let recent := match t.last with
            | some u => decide (((s.uptimeNs - u : Nat) : Rat) < x.srtt)
            | none => false
          let stale := s.lineEncrypts g && x.txAn != some t.an && !(x.prevAn == some t.an && decide (s.uptimeNs < x.cutoff))
          if recent && !t.lost then State.lineAnswer g n s1
          else if stale || t.lost then
            let y := s1.lgrp g
            let s2 := (s1.setLgrp g (y.unhold fun u => u.fsn == f)).lineGoneOp g t.op
            some (goneBody f (bQueue t.body) (bSeq t.body), s2.lineCount g 9)
          else
            let y := s1.lgrp g
            some (t.body, (s1.setLgrp g { y with
              held := y.held.map fun u => if u.fsn = f then { u with last := some s.uptimeNs } else u }).lineCount g 1)

/-- What reading an object's next payload bytes gives. -/
inductive LineRead where
  | got (b : Bytes) (s : State)
  /-- A fault ended or held the object's operation: nothing is sent of it now. -/
  | none (s : State)

/-- `n` bytes of an object from offset `off` after its header. -/
def State.lineBytes (s : State) (g : Nat) (o : LineObj) (off n : Nat) (a : HostAccess) (r : MemRead) : LineRead :=
  let fromMem (dom dva : Nat) (fail : State → Nat → State) (hold : Nat → Nat → State) : LineRead :=
    match s.rangeFault dom (dva + off) n false with
    | some (addr, why) => .none (hold addr why)
    | none =>
      match s.dvaGet dom (dva + off) n r with
      | (none, s1) => .none (fail s1 stMEM_UNCORRECTABLE)
      | (some b, s1) => .got b s1
  match o.src with
  | .bytes b => .got (sliceB b off n) s
  | .mem dom dva =>
    fromMem dom dva (fun s _ => s.setLgrp g { s.lgrp g with queues := (s.lgrp g).queues.map fun p => (p.1, p.2.filter (· != o)) })
      fun addr why => s.mmuFault dom addr why false
  | .op k =>
    match s.op? k with
    | none => .none (s.setLgrp g ((s.lgrp g).dropOp k))
    | some op =>
      let end_ (s : State) (st : Nat) : State := (s.setLgrp g ((s.lgrp g).dropOp k)).finish k st
      match op.hold, op.endWith with
      | .other, none =>
        if xSrcSpace op.desc = 0 then match a with
          | .done (some b) ats => .got (sliceB b 0 n) (s.atsFill ats op.fn (xSrcAddr op.desc + off) n)
          | .done none _ => .none (end_ s stHOST_ABORT)
          | .refused true => .none (s.pageRequest k (xSrcAddr op.desc + off) false)
          | .refused false => .none (end_ s stTRANSLATION_FAULT)
        else
          let dom := (s.domainOf op.fn (dDomain op.desc)).getD 0
          if !s.domainOn dom then .none (end_ s stDOMAIN_DENIED)
          else fromMem dom (xSrcAddr op.desc) end_ fun addr why =>
            let s1 := s.devFault op dom addr why false
            if (s.faultEnds why).isSome then s1.setLgrp g ((s1.lgrp g).dropOp k) else s1
      | _, some st => .none (end_ s st)
      | _, none => .none s

/-- The next new frame of a queue: its object's next 8,192 bytes take the next FSN and a TX window slot. A segment of a
LINE_SEND commits with its eighth frame (R419). -/
def State.lineFrame (s : State) (g q : Nat) (a : HostAccess) (r : MemRead) : Option Bytes × State :=
  let x := s.lgrp g
  match (x.queues.getD q []).find? fun o => o.released || !s.linePlanned g q with
  | none => (none, s)
  | some o =>
    let first := o.frames == 0
    let off := if first then 0 else o.frames * 8192 - 64
    let room := if first then 8128 else 8192
    let n := min room (o.len - off)
    match s.lineBytes g o off n a r with
    | .none s1 => (none, s1)
    | .got b s1 =>
      let data := (if first then o.header else []) ++ b
      let last := o.frames + 1 == o.total
      let tx := if s.lineEncrypts g then (s.link (lineLink g)).tx else none
      let body := dataBody tx x.next q (bit first + 2 * bit last) o.seq data
      let k := match o.src with
        | .op k => some k
        | _ => none
      let y := s1.lgrp g
      let l := y.queues.getD q []
      let l1 := if last then l.erase o else l.map fun p => if p = o then { o with frames := o.frames + 1 } else p
      let s2 := (if last then s1.settFrees o.setts else s1).setLgrp g { y with
        next := y.next + 1
        held := y.held ++ [{ fsn := y.next, body := body, an := (tx.map Assoc.an).getD 0, op := k, at_ := s.uptimeNs }]
        queues := y.queues.put q l1 }
      let s3 := match k with
        | some k => if last || (o.frames + 1) % 8 == 0 then match s2.op? k with
            | some op => s2.setOp { op with seg := op.seg + 1 }
            | none => s2
          else s2
        | none => s2
      (some body, s3.lineCount g 0)

/-- The queues in the order in which they are tried (R418): objects released by plans, queue 0, then 1 to 7 round robin. -/
def State.lineOrder (s : State) (g : Nat) : List Nat :=
  let x := s.lgrp g
  let ready := fun q => (x.queues.getD q []).any fun o => o.released || !s.linePlanned g q
  let planned := (List.range 8).filter fun q => s.linePlanned g q && (x.queues.getD q []).any (·.released)
  let rr := (List.range 7).map fun i => (x.lastQ + i) % 7 + 1
  planned ++ ((0 :: rr).filter fun q => ready q && !planned.contains q)

/-- The first queue that gives a frame. -/
def State.lineNew (g : Nat) (a : HostAccess) (r : MemRead) : List Nat → State → Option Bytes × State
  | [], s => (none, s)
  | q :: rest, s =>
    match s.lineFrame g q a r with
    | (some b, s1) => (some b, if q = 0 || s.linePlanned g q then s1 else s1.setLgrp g { s1.lgrp g with lastQ := q })
    | (none, s1) => State.lineNew g a r rest s1

/-- New frames use the link's transmit association from a transmission boundary on, outside suspension (R420). -/
def State.lineSwitch (s : State) (g : Nat) : State :=
  let x := s.lgrp g
  match (s.link (lineLink g)).tx with
  | some a =>
    if x.txAn = some a.an then s
    else
      let grace := (((s.fld Reg.SLF_MON_CFG_GRACE_MULT g - 1 : Nat) : Rat) * x.srtt).floor.toNat
      s.setLgrp g { x with txAn := some a.an, prevAn := x.txAn, cutoff := s.uptimeNs + grace }
  | none => s

/-- The body of the next position 0 to 31 (R418, R424). -/
def State.lineFill (s : State) (g : Nat) (a : HostAccess) (r : MemRead) : Bytes × State :=
  let idle := fun (s : State) => (idleBody, s.lineCount g 2)
  if (s.lgrp g).isSuspended then idle s
  else
    let s := s.lineSwitch g
    match State.lineAnswer g (sumOf ((s.lgrp g).asks.map (·.2)) + 1) s with
    | some (b, s1) => (b, s1)
    | none =>
      let s0 := s.setLgrp g { s.lgrp g with asks := [] }
      let x := s0.lgrp g
      match x.keys with
      | m :: rest => (keyBody m, s0.setLgrp g { x with keys := rest })
      | [] =>
        let room := decide (x.next - x.acked < s.fld Reg.SLF_WIN_CFG_TX_UNITS g * 65536)
        if room && (!s.lineEncrypts g || x.txAn.isSome) then
          match State.lineNew g a r (s0.lineOrder g) s0 with
          | (some b, s1) => (b, s1)
          | (none, s1) => idle s1
        else idle s0

/-- ACK_FSN: the lowest FSN neither held, delivered nor resolved (R413). -/
def LineGroup.ackFsn (x : LineGroup) : Nat :=
  ((List.range (x.rx.length + x.done.length + 1)).find? fun i =>
    !(x.done.contains (x.dlv + i)) && !(x.rx.any fun f => f.fsn == x.dlv + i)).map (x.dlv + ·) |>.getD x.dlv

/-- FSN f is missing (R413). -/
def LineGroup.missing (x : LineGroup) (f : Nat) : Bool :=
  decide (x.dlv ≤ f) && decide (f < x.bound) && !(x.done.contains f) && !(x.rx.any fun r => r.fsn == f)

/-- The next range to ask for: the first run of missing FSNs that no range sent and not yet due again covers. -/
def LineGroup.nextNack (x : LineGroup) : Option (Nat × Nat) :=
  let want := fun f => x.missing f && !(x.nacked.any fun r => decide (r.1 ≤ f) && decide (f < r.1 + r.2))
  let all := (List.range (x.bound - x.dlv)).map (x.dlv + ·)
  match all.dropWhile fun f => !want f with
  | [] => none
  | f :: rest => some (f, min 65535 ((rest.takeWhile want).length + 1))

/-- The next lane of a rotation: the lowest serving lane above the last used, else the lowest (R407). -/
def nextLane (rot : Nat) (lanes : List Nat) : Option Nat :=
  match lanes.find? fun l => decide (rot ≤ l) with
  | some l => some l
  | none => lanes.head?

/-- A DCC port's byte into the stream: JC and value (R429). -/
def State.dccIn (s : State) (port : Nat) (b : Option Byte) : (Nat × Byte) × State :=
  match b with
  | none => ((0, 0), s)
  | some v =>
    let p := s.line.dcc.getD port {}
    ((if p.sent % 32 = 0 then 2 else 1, v),
      s.onLine fun l => { l with dcc := l.dcc.put port { p with sent := (p.sent + 1) % 32 } })

/-- One transmission of a leg leaves on its next lane (R404, R405). -/
def State.lineEmit (s : State) (g leg pos mfn : Nat) (jc : Nat) (d0 d1 : Byte) (nack : Nat × Nat) (body : Bytes) : State :=
  let x := s.lgrp g
  let l := x.leg leg
  match nextLane l.rot (s.legServing g leg) with
  | none => s
  | some lane =>
    let flags := jc + bit x.sf * 16 + leg * 64
    let head := bytesBE 1 (16 + s.ownGen) ++ bytesBE 1 pos ++ bytesBE 1 flags ++ [d0, d1] ++ zeros 1 ++ bytesBE 6 (fsn48 mfn) ++
      bytesBE 6 (fsn48 x.next) ++ bytesBE 6 (fsn48 x.ackFsn) ++ bytesBE 6 (fsn48 nack.1) ++ bytesBE 2 nack.2
    let frame := List.replicate 6 0xFF ++ bytesBE 6 (Config.portMac (512 + lane)) ++ bytesBE 2 0x9A51 ++ head ++ body
    (s.setLgrp g (x.setLeg leg { l with rot := lane + 1 })).emit (.frame (512 + lane) frame)

/-- A transmission slot: the next position of the multiframe goes out on every leg (R407, R418, R427). -/
def State.slfTransmit (s : State) (g : Nat) (dcc0 dcc1 : Option Byte) (a : HostAccess) (r : MemRead) : State :=
  if !s.lineRuns g || ((s.legsOf g).all fun i => (s.legServing g i).isEmpty) then s
  else
    let pos := (s.lgrp g).pos
    let (body, s1) :=
      if pos < 32 then s.lineFill g a r
      else ((parityBodies (s.lgrp g).bodies).getD (pos - 32) [], s)
    let ((j0, v0), s2) := s1.dccIn 0 (if s.dccServes 0 g then dcc0 else none)
    let ((j1, v1), s3) := s2.dccIn 1 (if s.dccServes 1 g then dcc1 else none)
    let x := s3.lgrp g
    let mfn := x.mfn
    let nack := x.nextNack
    let x1 := { x with
      pos := (pos + 1) % 36
      mfn := if pos = 35 then (x.mfn + 1) % 2 ^ 48 else x.mfn
      bodies := if pos < 32 then (if pos = 0 then [body] else x.bodies ++ [body]) else x.bodies
      nacked := x.nacked ++ nack.toList }
    let s4 := s3.setLgrp g x1
    let s5 := if nack.isSome then s4.lineCount g 8 else s4
    (s.legsOf g).foldl (fun s i => s.lineEmit g i pos mfn (j0 + 4 * j1) v0 v1 (nack.getD (0, 0)) body) s5

/-! ### Receiving (R404, R406, R409, R411 to R414, R417, R420, R427) -/

/-- RCV_DLV rises past every FSN delivered or resolved. -/
def LineGroup.advance (x : LineGroup) : LineGroup :=
  let (n, l) := advanceDone (x.done.length + 1) x.dlv x.done
  { x with dlv := n, done := l }

/-- The posted buffer an object was going to, and its end with a status. -/
def State.lineRxEnd (s : State) (g q : Nat) (o : RxObj) (status : Nat) : State :=
  match o.buf with
  | some k =>
    let x := s.lgrp g
    (s.setLgrp g { x with posts := x.posts.put q (without (x.posts.getD q []) k) }).finish k status 0 o.got
  | none => s

/-- A GONE body resolves an FSN the receiver does not hold, and discards the object it belonged to (R414, R417). -/
def State.slfGone (s : State) (g : Nat) (b : Bytes) : State :=
  let x := s.lgrp g
  let f := fsn64 x.dlv (bFsn b)
  let s1 := s.lineCount g 10
  if f < x.dlv then s1
  else
    let n := f.toNat
    if x.done.contains n || x.rx.any fun r => r.fsn == n then s1
    else
      let q := bQueue b
      let x1 := { x with done := withElem x.done n, gone := withElem x.gone (q, bSeq b) }.advance
      match x1.objs.find q with
      | some o =>
        if o.seq = bSeq b ∧ o.discard = false then
          (s1.setLgrp g { x1 with objs := x1.objs.put q { o with discard := true, buf := none } }).lineRxEnd g q o stLINE_GONE
        else s1.setLgrp g x1
      | none => s1.setLgrp g x1

/-- The association a received AN names: the current or the previous one (R420). -/
def State.lineAssoc (s : State) (g an : Nat) : Option (Assoc × Bool) :=
  let x := s.link (lineLink g)
  match x.rx, x.prev with
  | some a, p => if a.an = an then some (a, true) else (p.filter fun b => b.an == an).map fun b => (b, false)
  | none, p => (p.filter fun b => b.an == an).map fun b => (b, false)

/-- The plaintext of a DATA body, and the state with what authenticating it did: none with a counter raised. -/
def State.lineOpen (s : State) (g fsn : Nat) (b : Bytes) : Option Bytes × State :=
  if !s.lineEncrypts g then
    (if bEnc b then (none, s.lineCount g 11) else (some (b.drop 32), s))
  else if !bEnc b then (none, s.lineCount g 11)
  else
    let l := lineLink g
    match s.lineAssoc g (bAn b) with
    | none =>
      if (s.link l).retired.contains (bAn b) then (none, s.lineCount g 12) else (none, s.lineCount g 11)
    | some (a, current) =>
      match Config.gcmOpen (sliceB a.key 0 32) (lineNonce a fsn) (b.take 16) (b.drop 32 ++ sliceB b 16 16) with
      | none => (none, s.lineCount g 11)
      | some p =>
        if current && !(s.link l).rxUsed then
          (some p, ((s.setLink l { s.link l with rxUsed := true }).kexSwitch l))
        else (some p, s)

/-- RX window slots in use: held bodies and the parity of multiframes under assembly (R412). -/
def LineGroup.rxSlots (x : LineGroup) : Nat :=
  x.rx.length + sumOf (x.mf.map fun p => if p.2.decoded || p.2.expired then 0 else (p.2.bodies.filter fun b => decide (32 ≤ b.1)).length)

/-- A DATA body (R412), and the leg it arrived on unless it was recovered: a second copy of an FSN counts against the leg as
well under 1+1 (R427). -/
def State.slfData (s : State) (g : Nat) (leg : Option Nat) (b : Bytes) : State :=
  let x := s.lgrp g
  let f := fsn64 x.dlv (bFsn b)
  let size := s.fld Reg.SLF_WIN_CFG_RX_UNITS g * 65536
  if f < x.dlv ∨ x.done.contains f.toNat = true ∨ (x.rx.any fun r => r.fsn == f.toNat) = true then
    let s1 := s.lineCount g 4
    match leg with
    | some i => if s.lineProtected g then s1.lineCount g 14 i else s1
    | none => s1
  else if (x.dlv + size : Int) ≤ f ∨ size ≤ x.rxSlots then s.lineCount g 5
  else
    match s.lineOpen g f.toNat b with
    | (none, s1) => s1
    | (some p, s1) =>
      let y := s1.lgrp g
      let r : RxFrame := { fsn := f.toNat, queue := bQueue b, sof := bitAt (bFlags b) 0, eof := bitAt (bFlags b) 1
                           seq := bSeq b, data := p.take (bLen b) }
      (s1.setLgrp g { y with rx := y.rx ++ [r] }).lineCount g 3

/-- A body of a position 0 to 31. -/
def State.slfBody (s : State) (g : Nat) (leg : Option Nat) (b : Bytes) : State :=
  match bContent b with
  | 1 => s.slfData g leg b
  | 2 => s.slfGone g b
  | 3 => s.kexMessage (lineLink g) (sliceB b 32 128)
  | _ => s

/-- ACK_FSN passes held frames: they are released, a frame sent once gives a round-trip sample, and LINE_SENDs whose last
frame it was complete (R411, R419). -/
def State.slfAck (s : State) (g ack : Nat) : State :=
  let x := s.lgrp g
  let a := fsn64 x.acked ack
  if a ≤ x.acked ∨ (x.next : Int) < a then s
  else
    let n := a.toNat
    let freed := x.held.filter fun f => decide (f.fsn < n)
    let srtt := match (freed.filter fun f => f.last.isNone).getLast? with
      | some f => x.srtt + (((s.uptimeNs - f.at_ : Nat) : Rat) - x.srtt) / 8
      | none => x.srtt
    let s1 := s.setLgrp g { x with
      acked := n
      held := x.held.filter fun f => decide (n ≤ f.fsn)
      released := x.released.filter fun r => decide (n ≤ r.1)
      asks := (x.asks.map fun r => if r.1 < n then (n, r.2 - (n - r.1)) else r).filter fun r => r.2 != 0
      srtt := srtt }
    (freed.filterMap (·.op)).foldl (fun s k => s.lineSendDone g k) s1

/-- A NACK range is kept for the sender to answer (R414). -/
def State.slfNack (s : State) (g first len : Nat) : State :=
  let x := s.lgrp g
  let f := fsn64 x.acked first
  if len = 0 ∨ f < 0 ∨ x.asks.contains (f.toNat, len) then s else s.setLgrp g { x with asks := x.asks ++ [(f.toNat, len)] }

/-- Runs of transmissions with and without a condition: enters at 3 in a row with it, leaves at 3 in a row without. -/
def run3 (now on : Bool) (with_ without_ : Nat) : Bool × Nat × Nat :=
  let w := if now then with_ + 1 else 0
  let o := if now then 0 else without_ + 1
  (if on then decide (o < 3) else decide (3 ≤ w), w, o)

/-- A leg's defects after a transmission (R421). -/
def LineLeg.heard (l : LineLeg) (now mfn : Nat) (ais : Bool) : LineLeg :=
  let gap := match l.last with
    | some t => decide (20000 < now - t)
    | none => true
  let since := if gap then now else l.since
  let (a, on, off) := run3 ais l.ais l.aisRun l.aisOff
  let d : Int := match l.mfn with
    | some e => toSigned 48 (ofSigned 48 ((mfn : Int) - (e : Int)))
    | none => 0
  let out := decide (64 < d.natAbs)
  let lomRun := if out then l.lomRun + 1 else 0
  let lomOk := if out then 0 else if d = 1 then l.lomOk + 1 else if d = 0 then l.lomOk else 0
  let enter := decide (4 ≤ lomRun)
  { l with
    last := some now, since := since, lof := l.lof && !decide (since + 1000000 ≤ now)
    ais := a, aisRun := on, aisOff := off
    lom := (l.lom || enter) && !decide (8 ≤ lomOk), lomRun := if enter then 0 else lomRun, lomOk := if enter then 0 else lomOk
    mfn := if !out || enter then some mfn else l.mfn }

/-- A multiframe is settled for a leg: uncorrectable or not, in the present millisecond (R421), and its erased positions
(R425). -/
def LineLeg.settle (l : LineLeg) (now erased : Nat) (bad : Bool) : LineLeg :=
  let ms := now / 1000000
  let l := if ms = l.ms then l else { l with ms := ms, mfs := 0, badMfs := 0, msBad := decide (l.mfs < 10 * l.badMfs) }
  { l with mfs := l.mfs + 1, badMfs := l.badMfs + bit bad, ebs := l.ebs + bit (decide (0 < erased)), erased := l.erased + erased }

/-- The multiframe is decoded once 32 positions are present: absent bodies are recovered (R409). Which of them are erasures is
known when its allowance has passed. -/
def State.mfDecode (s : State) (g mfn : Nat) : State :=
  let x := s.lgrp g
  match x.mf.find mfn with
  | none => s
  | some m =>
    if m.decoded || decide (m.bodies.length < 32) then s
    else
      let gaps := (List.range 36).filter fun k => !m.bodies.has k
      let lost := gaps.filter fun k => decide (k < 32)
      let got := if lost.isEmpty then [] else (fillBodies m.bodies gaps).filter fun p => decide (p.1 < 32)
      got.foldl (fun s p => s.slfBody g none p.2) (s.setLgrp g { x with mf := x.mf.put mfn { m with decoded := true } })

/-- DCC byte received on channel n (R429, R430): a frame begins at JC 2 and is complete when the next begins, with 32 bytes
between. -/
def State.dccOut (s : State) (port jc : Nat) (v : Byte) : State :=
  let p := s.line.dcc.getD port {}
  let set := fun (s : State) (p : DccPort) => s.onLine fun l => { l with dcc := l.dcc.put port p }
  match jc, p.got with
  | 2, some b =>
    if b.length ≠ 32 then (set s { p with got := some [v] }).bump (Reg.SLF_DCC_STATUS_FRAMES_BAD.nth port)
    else if p.buf.length < 4 then
      (set s { p with buf := p.buf ++ [b], got := some [v], running := p.running || decide (1 ≤ p.buf.length) }).setFlag
        (Reg.SLF_DCC_STATUS_ACTIVE.nth port) 0 (p.running || decide (1 ≤ p.buf.length))
    else (set s { p with buf := p.buf.drop 1 ++ [b], got := some [v] }).bump (Reg.SLF_DCC_STATUS_SLIP_DROP.nth port)
  | 2, none => set s { p with got := some [v] }
  | 1, some b => set s { p with got := some (if b.length < 33 then b ++ [v] else b) }
  | _, _ => s

/-- A transmission arrives on a lane (R404): its stream header, then its body or parity. -/
def State.slfReceive (s : State) (lane : Nat) (frame : Bytes) : State :=
  match s.laneGroup lane with
  | none => s
  | some g =>
    if !s.lineRuns g || !s.laneServes lane || frame.length != 8270 || getBE frame 12 2 != 0x9A51 || getBE frame 14 1 / 16 != 1
        || 36 ≤ getBE frame 15 1 then s
    else
      let leg := if (s.legLanes g 0).contains lane then 0 else 1
      let h := frame.drop 14
      let pos := getBE h 1 1
      let flags := getBE h 2 1
      let mfn := getBE h 6 6
      let body := h.drop 32
      let now := s.uptimeNs
      let s1 := s.onLeg g leg fun l => l.heard now mfn (bitAt flags 5)
      let x := s1.lgrp g
      let (rdi, on, off) := run3 (bitAt flags 4) x.rdi x.rdiOn x.rdiOff
      let s2 := (s1.setLgrp g { x with rdi := rdi, rdiOn := on, rdiOff := off }).lineRefresh g
      let s3 := (s2.slfAck g (getBE h 18 6)).slfNack g (getBE h 24 6) (getBE h 30 2)
      let y := s3.lgrp g
      let m := y.mf.getD mfn { at_ := now, next := (fsn64 y.dlv (getBE h 12 6)).toNat }
      let seen := if leg = 0 then m.seenA else m.seenB
      let m1 := if leg = 0 then { m with seenA := withElem seen pos } else { m with seenB := withElem seen pos }
      let put := fun (s : State) (m : RxMf) => s.setLgrp g { s.lgrp g with mf := (s.lgrp g).mf.put mfn m }
      if m.expired then (if (y.leg leg).selected && m.bodies.has pos then s3.lineCount g 14 leg else s3)
      else if !(y.leg leg).selected then put s3 m1
      else if m.bodies.has pos then (put s3 m1).lineCount g 14 leg
      else if 32 ≤ pos ∧ m.decoded = false ∧ s3.fld Reg.SLF_WIN_CFG_RX_UNITS g * 65536 ≤ y.rxSlots then put s3 m
      else
        let s4 := put s3 { m1 with bodies := m1.bodies.put pos body }
        let jc := flags % 16
        let s5 := if s4.dccRuns 0 g then s4.dccOut 0 (jc % 4) (h.getD 3 0) else s4
        let s6 := if s5.dccRuns 1 g then s5.dccOut 1 (jc / 4) (h.getD 4 0) else s5
        let s7 := if pos < 32 ∧ m.decoded = false then s6.slfBody g (some leg) body else s6
        s7.mfDecode g mfn

/-- The skew or differential allowance of a multiframe passes (R409, R413, R427): positions still absent are erasures, which
are counted as recovered or make the multiframe uncorrectable, and FSNs below the NEXT_FSN that its first transmission
carried and that are not held are missing. A leg's own erasures decide whether the multiframe is uncorrectable on it
(notes/assumptions/198.md). Its positions are remembered for copies that arrive later. -/
def State.mfExpire (s : State) (g mfn : Nat) : State :=
  let x := s.lgrp g
  match x.mf.find mfn with
  | none => s
  | some m =>
    if m.expired then s
    else
      let bad := !m.decoded && decide (4 < 36 - m.bodies.length)
      let gaps := (List.range 32).filter fun k => !m.bodies.has k
      let kept := x.mf.filter fun p =>
        !p.2.expired || decide ((toSigned 48 (ofSigned 48 ((mfn : Int) - (p.1 : Int)))).natAbs ≤ 64)
      let s1 := s.setLgrp g { x with
        mf := AMap.put kept mfn { m with expired := true, bodies := m.bodies.map fun p => (p.1, []) }
        bound := max x.bound m.next }
      let s2 := (s.legsOf g).foldl (fun s i =>
        let seen := if i = 0 then m.seenA else m.seenB
        let s1 := s.onLeg g i fun l => l.settle s.uptimeNs (36 - seen.length)
          (bad && (x.leg i).selected || decide (4 < 36 - seen.length))
        let s2 := if bad && (x.leg i).selected then s1.lineCount g 7 i else s1
        if m.decoded && (x.leg i).selected then (gaps.filter fun k => !seen.contains k).foldl (fun s _ => s.lineCount g 6 i) s2
        else s2) s1
      s2.lineRefresh g

/-! ### Delivery (R417, R419) -/

/-- The next frame of a queue in FSN order, once every FSN below it is known. -/
def LineGroup.nextRx (x : LineGroup) (q : Nat) : Option RxFrame :=
  let known := x.ackFsn
  (x.rx.filter fun f => f.queue == q && decide (f.fsn < known)).foldl (fun (b : Option RxFrame) f => match b with
    | none => some f
    | some c => if f.fsn < c.fsn then some f else some c) none

/-- A frame has been delivered or discarded: its slot is free. -/
def LineGroup.consume (x : LineGroup) (f : RxFrame) : LineGroup :=
  { x with rx := x.rx.filter (fun r => r.fsn != f.fsn), done := withElem x.done f.fsn }.advance

/-- What writing received bytes to a posted buffer did. -/
inductive BufPut where
  | done (s : State)
  /-- Held by a translation fault or a page request. -/
  | wait (s : State)
  /-- The operation has ended. -/
  | ended (s : State)

/-- Received bytes are written at an offset of a posted buffer. -/
def State.bufPut (s : State) (k : OpKey) (off : Nat) (b : Bytes) (a : HostAccess) : BufPut :=
  match s.op? k with
  | none => .ended s
  | some o =>
    let d := o.desc
    match o.hold, o.endWith with
    | _, some st => .ended (s.finish k st 0 off)
    | .other, none =>
      if xDstSpace d = 0 then match a with
        | .done (some _) ats =>
          .done ((s.atsFill ats o.fn (xDstAddr d + off) b.length).emit (.hostWrite o.fn (xDstAddr d + off) b))
        | .done none _ => .ended (s.finish k stHOST_ABORT 0 off)
        | .refused true => .wait (s.pageRequest k (xDstAddr d + off) true)
        | .refused false => .ended (s.finish k stTRANSLATION_FAULT 0 off)
      else
        let dom := (s.domainOf o.fn (dDomain d)).getD 0
        if !s.domainOn dom then .ended (s.finish k stDOMAIN_DENIED 0 off)
        else match s.rangeFault dom (xDstAddr d + off) b.length true with
          | some (addr, why) =>
            let s1 := s.devFault o dom addr why true
            if (s.faultEnds why).isSome then .ended s1 else .wait s1
          | none => .done (State.dvaWrite dom (xDstAddr d + off) b s)
    | _, none => .wait s

/-- Queue 7 of a group carries packets (R419). -/
def State.linePkts (s : State) (g q : Nat) : Bool := q == 7 && s.flag Reg.SLF_GRP_CFG_PKT_Q7 g

/-- The bytes that a queue's next frame moves into setts: its own, or of a packet that it ends, the whole packet. -/
def State.lineStored (s : State) (g q : Nat) (f : RxFrame) : Bytes :=
  if s.linePkts g q && f.eof then
    ((if f.sof then [] else (((s.lgrp g).objs.find q).map (·.bytes)).getD []) ++ f.data).drop 64
  else f.data

/-- The frame's object takes it: the outer-round unit's and a packet's bytes are kept whole, others go to the buffer. A packet
goes on in the setts `l` that hold it. -/
def State.lineTake (s : State) (g q : Nat) (f : RxFrame) (l : List Nat) (a : HostAccess) : State :=
  let keep := s.linePkts g q && f.eof
  let s := if keep then s else s.settFrees l
  let x := s.lgrp g
  let pkt := s.linePkts g q
  let fresh : RxObj := { seq := f.seq, buf := (x.posts.getD q []).head? }
  let o := if f.sof then fresh else x.objs.getD q { fresh with discard := true }
  let short := !f.eof && f.data.length != 8192
  let o1 := if o.seq != f.seq || x.gone.contains (q, f.seq) || short then { o with discard := true } else o
  let x1 := x.consume f
  let x2 := { x1 with
    objs := if f.eof then x1.objs.del q else x1.objs.put q o1
    gone := if f.eof then without x1.gone (q, f.seq) else x1.gone }
  if o1.discard then
    let s := if keep then s.settFrees l else s
    let s1 := if !o.discard && o.seq == f.seq && !f.sof then s.lineRxEnd g q o stLINE_GONE else s
    let y := s1.lgrp g
    let y1 := y.consume f
    s1.setLgrp g { y1 with
      objs := if f.eof then y1.objs.del q else y1.objs.put q { o1 with buf := none }
      gone := if f.eof then without y1.gone (q, f.seq) else y1.gone }
  else if q = 0 ∨ pkt = true then
    let all := o1.bytes ++ f.data
    if f.eof then
      let s1 := s.setLgrp g x2
      if pkt then s1.ingressStored (.line g) (all.drop 64) l
      else s1.emit (.lineObj g (getBE all 24 1) (sliceB all 8 16) (all.drop 64))
    else s.setLgrp g { x2 with objs := x2.objs.put q { o1 with bytes := all, got := all.length } }
  else
    match o1.buf with
    | none => s
    | some k =>
      let cap := match s.op? k with
        | some op => xLength op.desc
        | none => 0
      let b := f.data.take (cap - o1.got)
      match s.bufPut k o1.got b a with
      | .wait s1 => s1
      | .ended s1 =>
        let z := s1.lgrp g
        let z1 := z.consume f
        s1.setLgrp g { z1 with
          posts := z1.posts.put q (without (z1.posts.getD q []) k)
          objs := if f.eof then z1.objs.del q else z1.objs.put q { o1 with discard := true, buf := none } }
      | .done s1 =>
        let o2 := { o1 with got := o1.got + b.length }
        if b.length < f.data.length then
          ((s1.setLgrp g { x2 with objs := if f.eof then x2.objs else x2.objs.put q { o2 with discard := true, buf := none } }).lineRxEnd
            g q o2 stLINE_TRUNCATED).lineCount g 15
        else if f.eof then (s1.setLgrp g x2).lineRxEnd g q o2 stOK
        else s1.setLgrp g { x2 with objs := x2.objs.put q o2 }

/-- A queue's next frame is delivered through setts of the group's requester, once they can be had (R417). -/
def State.lineDeliver (s : State) (g q : Nat) (a : HostAccess) : State :=
  let x := s.lgrp g
  if !s.lineOn g || 8 ≤ q then s
  else match x.nextRx q with
    | none => s
    | some f =>
      match s.settStore (reqLine g) (s.lineStored g q f) with
      | (none, s1) => s1
      | (some l, s1) => s1.lineTake g q f l a

/-! ### Windows released, disabling and enabling (R424, R431) -/

/-- After HOLD_S of suspension every held frame is released (R424). -/
def State.lineLetGo (s : State) (g : Nat) : State :=
  let x := s.lgrp g
  if !x.isSuspended || x.letGo then s
  else
    let s1 := s.setLgrp g { x.unhold (fun _ => true) with letGo := true }
    let s2 := (x.held.filterMap (·.op)).foldl (fun s k => s.lineGoneOp g (some k)) s1
    s2.raise Ev.LINE_WINDOW_RELEASED g (min x.held.length (2 ^ 32 - 1))

/-- Both bins of a leg are suspect (R426). -/
def LineLeg.markSuspect (l : LineLeg) : LineLeg := { l with suspect := withElem (withElem l.suspect 0) 2 }

/-- A group is disabled (R431, R447): its objects complete with LINE_DOWN, its area is free, its associations are dropped. -/
def State.lineDisable (s : State) (g : Nat) : State :=
  let x := s.lgrp g
  let ops := (x.queues.flatMap fun p => p.2.filterMap fun o => match o.src with
      | .op k => some k
      | _ => none) ++ x.held.filterMap (·.op) ++ x.posts.flatMap (·.2)
  let keep := fun (l : LineLeg) => { ({} : LineLeg) with
    pm := l.pm, quarter := l.quarter, day := l.day, suspect := l.suspect }.markSuspect
  let s0 := (x.queues.flatMap fun p => p.2.flatMap (·.setts)).foldl (fun s l => s.settFrees [l]) s
  let s1 := s0.setLgrp g { legA := keep x.legA, legB := keep x.legB }
  let s2 := ops.foldl (fun s k => match s.op? k with
    | some o => if o.runs then s.finish k stLINE_DOWN else s
    | none => s) s1
  (((s2.linkDrop (lineLink g)).showLine g).dccHold 0).dccHold 1

/-- A group is enabled: its windows start empty in their area, which the device lays out as it likes (R415). -/
def State.lineEnable (s : State) (g : Nat) : State :=
  let x := s.lgrp g
  let base := s.fld Reg.SLF_WIN_BASE_LO_BASE g + s.fld Reg.SLF_WIN_BASE_HI_BASE g * 2 ^ 32
  let units := s.fld Reg.SLF_WIN_CFG_TX_UNITS g + s.fld Reg.SLF_WIN_CFG_RX_UNITS g
  (((s.openRange base (units * 541065216)).setLgrp g { x with
    legA := { x.legA.markSuspect with quarter := s.time.sec / 900, day := s.time.sec / 86400 }
    legB := { x.legB.markSuspect with quarter := s.time.sec / 900, day := s.time.sec / 86400 } }).setFld
      Reg.SLF_GRP_STATUS_STATE g 0).lineRefresh g

/-! ### Performance monitoring (R425, R426) -/

/-- An item of the bin a second belongs to: item 0 ES, 1 SES, 2 UAS, 3 BBE. -/
def LineLeg.pmAdd (l : LineLeg) (sec item n : Nat) : LineLeg :=
  let add := fun (m : AMap (Nat × Nat) Nat) b => m.put (b, item) (satAdd (2 ^ 31 - 1) (m.getD (b, item) 0) n)
  { l with pm := add (add l.pm (if sec / 900 = l.quarter then 0 else 1)) (if sec / 86400 = l.day then 2 else 3) }

/-- A settled second of available time is counted. -/
def LineLeg.pmAvail (l : LineLeg) (r : SecRec) : LineLeg :=
  let l1 := if r.es then l.pmAdd r.sec 0 1 else l
  if r.ses then l1.pmAdd r.sec 1 1 else l1.pmAdd r.sec 3 r.ebs

/-- Bins roll over when a second begins a new 15 minutes or a new day (R426). -/
def LineLeg.roll (l : LineLeg) (sec : Nat) : LineLeg :=
  let move := fun (l : LineLeg) (a b : Nat) =>
    let pm := (l.pm.filter fun p => p.1.1 != a && p.1.1 != b) ++ (l.pm.filter fun p => p.1.1 == a).map fun p => ((b, p.1.2), p.2)
    let sus := if l.suspect.contains a then withElem (without l.suspect a) b else without l.suspect b
    { l with pm := pm, suspect := sus }
  let l1 := if sec / 900 = l.quarter then l else { move l 0 1 with quarter := sec / 900 }
  if sec / 86400 = l1.day then l1 else { move l1 2 3 with day := sec / 86400 }

/-- Multiframes a leg should have carried in a second: its serving lanes at their rate, 36 transmissions each (R404,
R425); twice the picosecond time of one transmission keeps the figure exact. -/
def State.mfsDue (s : State) (g leg : Nat) : Rat :=
  let lanes := s.legServing g leg
  let gbps : Nat := match s.fld Reg.ELN_OCT_CFG_RATE (lanes.headD 0 / 8) with
    | 1 => 200
    | 2 => 100
    | _ => 50
  ((lanes.length * gbps * 1000000000 : Nat) : Rat) / ((8294 * 8 * 36 : Nat) : Rat)

/-- A network second ends for a leg (R421, R425, R426). -/
def State.pmSecond (s : State) (g leg corrected received : Nat) : State :=
  if !s.lineOn g || !(s.legsOf g).contains leg then s
  else
    let sec := s.time.sec - 1
    let l := (s.lgrp g).leg leg
    let sf := l.sfSeen || l.sf
    let ses := sf || decide (15 * s.mfsDue g leg ≤ 100 * (l.ebs : Rat) ∧ 0 < l.ebs)
    let r : SecRec := { sec := sec, ebs := l.ebs, ses := ses, es := sf || decide (0 < l.ebs) }
    let ratio := corrected + 66352 * l.erased
    let e := s.fld Reg.SLF_MON_CFG_SD_EXP g
    let above := decide (received < ratio * 10 ^ e)
    let below := decide (ratio * 10 ^ (e + 1) < received)
    let sdOn := if above then l.sdOn + 1 else 0
    let sdOff := if below then l.sdOff + 1 else 0
    let sd := if l.sd then !decide (3 ≤ sdOff) else decide (3 ≤ sdOn)
    let l0 := { l with ebs := 0, erased := 0, sfSeen := false, sdOn := sdOn, sdOff := sdOff, sd := sd
                       wtr := l.wtr || (l.sd && !sd && s.lineProtected g) }
    -- The second joins those not settled when it is of the kind that may change availability.
    let (l1, ev) :=
      if l0.unavail = ses then
        let settled := (l0.open_ ++ [r]).foldl (fun l q => if l0.unavail then l.pmAdd q.sec 2 1 else l.pmAvail q) { l0 with open_ := [] }
        (settled, none)
      else if l0.open_.length + 1 < 10 then ({ l0 with open_ := l0.open_ ++ [r] }, none)
      else
        let run := l0.open_ ++ [r]
        let first := (run.head?.map (·.sec)).getD sec
        if l0.unavail then
          (run.foldl (fun l q => l.pmAvail q) { l0 with open_ := [], unavail := false }, some (Ev.LINE_AVAILABLE, first))
        else (run.foldl (fun l q => l.pmAdd q.sec 2 1) { l0 with open_ := [], unavail := true }, some (Ev.LINE_UNAVAILABLE, first))
    let s1 := s.setLgrp g ((s.lgrp g).setLeg leg (l1.roll s.time.sec))
    let s2 := match ev with
      | some (c, first) => s1.raise c g (leg + first * 2 ^ 16)
      | none => s1
    let s3 := if sd && !l.sd && !s.lineProtected g then s2.raise Ev.LINE_SD g leg else s2
    s3.lineRefresh g

/-! ### Timers -/

/-- A lane's PHY reports a fault (R403). -/
def State.laneFault (s : State) (lane : Nat) : State :=
  match s.laneGroup lane with
  | none => s
  | some g => (s.onLine fun l => { l with faults := withElem l.faults lane }).lineRefresh g

/-- A member lane in service loses its signal: it returns only 10 ms after the signal is back (R403). -/
def State.laneDark (s : State) (lane : Nat) : State :=
  if s.laneSt lane = 3 && (s.laneGroup lane).isSome then s.onLine fun l => { l with faults := withElem l.faults lane } else s

/-- A lane returns to service (R403). -/
def State.laneReturn (s : State) (lane : Nat) : State :=
  match s.laneGroup lane with
  | none => s
  | some g => (s.onLine fun l => { l with faults := without l.faults lane }).lineRefresh g

/-- No transmission for 20 µs on any lane of a leg (R421). -/
def State.legLof (s : State) (g leg : Nat) : State :=
  if s.lineRuns g && (s.legsOf g).contains leg then (s.onLeg g leg fun l => { l with lof := true, last := none }).lineRefresh g else s

/-- WTR_S without dSF or dSD passes: the leg is eligible again (R428). -/
def State.wtrExpire (s : State) (g leg : Nat) : State :=
  let l := (s.lgrp g).leg leg
  if l.wtr && !l.sf && !l.sd then (s.onLeg g leg fun l => { l with wtr := false }).lineRefresh g else s

/-- A NACK range is due again (R413). -/
def State.nackAgain (s : State) (g first : Nat) : State :=
  let x := s.lgrp g
  s.setLgrp g { x with nacked := x.nacked.filter fun r => r.1 != first }

/-- A DCC frame boundary (R430): the next frame goes out, the last one again, or nothing while the output does not run. -/
def State.dccFrame (s : State) (port : Nat) : State :=
  let g := s.fld (if port = 0 then Reg.SLF_DCC_CFG_PORT0_LG else Reg.SLF_DCC_CFG_PORT1_LG)
  let p := s.line.dcc.getD port {}
  let set := fun (s : State) (p : DccPort) =>
    (s.onLine fun l => { l with dcc := l.dcc.put port p }).setFlag (Reg.SLF_DCC_STATUS_ACTIVE.nth port) 0 p.running
  let on := s.dccRuns port g
  if 2 ≤ port then s
  else if !on then set s { p with buf := [], got := none, running := false }
  else if !p.running then s
  else match p.buf with
    | f :: rest => (set s { p with buf := rest, last := f }).emit (.dcc port f)
    | [] => ((set s p).bump (Reg.SLF_DCC_STATUS_SLIP_REPEAT.nth port)).emit (.dcc port p.last)

/-! ### Meanings -/

/-- LINE_SEND (R419). -/
def execLineSend (op : OpKey) (s : State) : Host.Outcome State Fault Refusal :=
  .next (s.start op (isXfer 2) fun o s => s.lineSend o)

/-- LINE_POST (R419). -/
def execLinePost (op : OpKey) (s : State) : Host.Outcome State Fault Refusal :=
  .next (s.start op (isXfer 3) fun o s => s.linePost o)

/-- SLF_TRANSMIT (R418). -/
def execSlfTransmit (g : Nat) (dcc0 dcc1 : Option Byte) (a : HostAccess) (read : MemRead) (s : State) :
    Host.Outcome State Fault Refusal := .next (s.inCore fun s => s.slfTransmit g dcc0 dcc1 a read)

/-- SLF_RECEIVE (R404). -/
def execSlfReceive (lane : Nat) (frame : Bytes) (s : State) : Host.Outcome State Fault Refusal :=
  .next (s.inCore fun s => s.slfReceive lane frame)

/-- MF_SKEW_EXPIRE (R409). -/
def execMfSkewExpire (g mfn : Nat) (s : State) : Host.Outcome State Fault Refusal :=
  .next (s.inCore fun s => s.mfExpire g mfn)

/-- NACK_RESEND_TIMER (R413). -/
def execNackResendTimer (g first : Nat) (s : State) : Host.Outcome State Fault Refusal :=
  .next (s.inCore fun s => s.nackAgain g first)

/-- LINE_DELIVER (R417). -/
def execLineDeliver (g queue : Nat) (a : HostAccess) (s : State) : Host.Outcome State Fault Refusal :=
  .next (s.inPool fun s => s.lineDeliver g queue a)

/-- LANE_FAULT (R403). -/
def execLaneFault (lane : Nat) (s : State) : Host.Outcome State Fault Refusal :=
  .next (s.inCore fun s => s.laneFault lane)

/-- LANE_RETURN_TIMER (R403). -/
def execLaneReturnTimer (lane : Nat) (s : State) : Host.Outcome State Fault Refusal :=
  .next (s.inCore fun s => s.laneReturn lane)

/-- LEG_LOF_TIMER (R421). -/
def execLegLofTimer (g leg : Nat) (s : State) : Host.Outcome State Fault Refusal :=
  .next (s.inCore fun s => s.legLof g leg)

/-- PM_SECOND (R425): the bits the leg's lane decoders corrected in the second, and the bits received. -/
def execPmSecond (g leg corrected received : Nat) (s : State) : Host.Outcome State Fault Refusal :=
  .next (s.inCore fun s => s.pmSecond g leg corrected received)

/-- SUSPEND_HOLD_EXPIRE (R424). -/
def execSuspendHoldExpire (g : Nat) (s : State) : Host.Outcome State Fault Refusal :=
  .next (s.inCore fun s => s.lineLetGo g)

/-- WTR_EXPIRE (R428). -/
def execWtrExpire (g leg : Nat) (s : State) : Host.Outcome State Fault Refusal :=
  .next (s.inCore fun s => s.wtrExpire g leg)

/-- KEY_GRACE_EXPIRE (R420): the clock stops while the group is suspended. -/
def execKeyGraceExpire (g : Nat) (s : State) : Host.Outcome State Fault Refusal :=
  .next (s.inCore fun s =>
    if (s.link (lineLink g)).rxUsed && !(s.lgrp g).isSuspended then s.retirePrev (lineLink g) else s)

/-- DCC_FRAME_OUT (R430). -/
def execDccFrameOut (port : Nat) (s : State) : Host.Outcome State Fault Refusal :=
  .next (s.inCore fun s => s.dccFrame port)

/-- SLF_RD_CLR (R432): the selected group's counters are cleared, the bins are not. -/
def execSlfRdClr (v : View) (w : Word) (s : State) : Host.Outcome State Fault Refusal :=
  .next (s.selClear v .slf 0x300 w fun sel s =>
    (List.range 64).foldl (fun s i => s.setFld Reg.SLF_STAT_VALUE_VALUE (bitsOf sel 0 4 + 16 * i) 0) s)

/-- LINK_UP (R50): of a member lane of a line group, the group follows (R403). -/
def execLinkUp (p : Nat) (s : State) : Host.Outcome State Fault Refusal :=
  .next (s.inCore fun s =>
    match (if 512 ≤ p then s.laneGroup (p - 512) else none) with
      | some g => (s.linkUp p).lineRefresh g
      | none => s.linkUp p)

/-- LINK_DOWN (R204, R447): of a member lane of a line group, its lane loses its signal, the group follows, and the lane
returns to service only 10 ms after the signal is back (R403). -/
def execLinkDown (p : Nat) (s : State) : Host.Outcome State Fault Refusal :=
  .next (s.inPool fun s =>
    match (if 512 ≤ p then s.laneGroup (p - 512) else none) with
      | some g =>
        if s.laneSt (p - 512) = 3 then ((((s.laneDark (p - 512)).setLaneSt (p - 512) 5).showTraffic).lineRefresh g) else s
      | none => s.linkDown p)

end Sys2Proof.Machine
end

