-- ==== Sys2Proof/Machine/Outer.lean ====
section
/-!
DEFINITION. Outer rounds across sites (R372 to R401): messages, quorum and rosters, pieces and their steps, commits, late
sites, finishing and the broadcast.
-/

namespace Sys2Proof.Machine

/-! ### The OUTER descriptor (R380) -/

def stOUT_BAD_SHARD : Nat := 0x40
def stOUT_ROUND_SEQ : Nat := 0x41
def stOUT_BUSY : Nat := 0x42
def stOUT_OUTSIDE : Nat := 0x43
def stOUT_ABANDONED : Nat := 0x44
def stOUT_DIGEST_MISMATCH : Nat := 0x45
def stOUT_TABLE : Nat := 0x46
def stOUT_PROGRAM_FAILED : Nat := 0x47
def stOUT_RESTARTED : Nat := 0x48
def stOUT_DIGEST_SPLIT : Nat := 0x49

/-- Round states (R381). -/
def osIDLE : Nat := 0
def osOPENING : Nat := 1
def osRUNNING : Nat := 2
def osSUSPENDED : Nat := 3
def osCOMPARING : Nat := 4
def osMISMATCH : Nat := 5
def osBROADCASTING : Nat := 6
def osHALTED : Nat := 7

/-- Piece states. -/
def psREST : Nat := 0
def psWEIGHTS : Nat := 1
def psDELTA : Nat := 2
def psEXCHANGE : Nat := 3
def psSTEP : Nat := 4
def psDIGESTED : Nat := 5
def psFETCHING : Nat := 6

/-- Counters of the outer-round unit (`OUT.STAT_SEL`). -/
def State.outCount (s : State) (k : Nat) : State := s.bump Reg.OUT_STAT_VALUE_VALUE k

/-- The shard slot changed. -/
def State.onShard (s : State) (k : Nat) (f : OutShard → OutShard) : State := s.setShard k (f (s.shard k))
def State.onPiece (s : State) (k p : Nat) (f : OutPiece → OutPiece) : State :=
  s.onShard k fun h => h.setPiece p (f (h.piece p))

/-- A set of sites holds quorum (R385). -/
def State.quorum (s : State) (l : List Nat) : Bool :=
  let r := s.sitesRec
  let w := sumOf (l.map (siteWeight r))
  let total := sumOf ((List.range (siteCount r)).map (siteWeight r))
  decide (total < 2 * w) || (2 * w == total && l.contains (siteTiebreak r))

/-! ### Messages (R383) -/

def mType (m : Bytes) : Nat := getBE m 0 1
def mSite (m : Bytes) : Nat := getBE m 2 1
def mShard (m : Bytes) : Nat := getBE m 4 4
def mRound (m : Bytes) : Nat := getBE m 8 4
def mEpoch (m : Bytes) : Nat := getBE m 12 2

/-- The tag of a checkpoint object: SHARD_ID, ROUND, EPOCH, PIECE, origin (notes/assumptions/76.md). -/
def outTag (id round epoch p origin : Nat) : Bytes :=
  bytesBE 4 id ++ bytesBE 4 round ++ bytesBE 2 epoch ++ bytesBE 4 p ++ bytesBE 1 origin ++ zeros 1

/-- An object is queued toward a site on its line group, if it has one. -/
def State.outPut (s : State) (r : Bytes) (site kind : Nat) (tag data : Bytes) : State :=
  if hLine r site < 32 then
    s.linePut (hLine r site) 0 { header := objHeader data.length tag kind, len := data.length, src := .bytes data }
  else s

/-- The next site in index order. -/
def State.nextSite (s : State) (i : Nat) : Nat := (i + 1) % siteCount s.sitesRec

/-- An object for some sites: directly under FULL, to the next site under RING. -/
def State.outTo (s : State) (r : Bytes) (sites : List Nat) (kind : Nat) (tag data : Bytes) : State :=
  let me := siteLocal s.sitesRec
  if siteTopology s.sitesRec = 1 then
    if s.nextSite me = me then s else s.outPut r (s.nextSite me) kind tag data
  else (sites.filter (· != me)).foldl (fun s i => s.outPut r i kind tag data) s

/-- An object that did not originate here goes on round the ring until it reaches the origin's predecessor. -/
def State.outForward (s : State) (r : Bytes) (origin kind : Nat) (tag data : Bytes) : State :=
  let me := siteLocal s.sitesRec
  if siteTopology s.sitesRec = 1 ∧ origin ≠ me ∧ s.nextSite me ≠ origin then s.outPut r (s.nextSite me) kind tag data
  else s

/-- A message of a shard. -/
def State.outMsg (s : State) (r : Bytes) (round type epoch : Nat) (body : Bytes) : Bytes :=
  bytesBE 1 type ++ bytesBE 1 s.ownGen ++ bytesBE 1 (siteLocal s.sitesRec) ++ zeros 1 ++
    bytesBE 4 (hId r) ++ bytesBE 4 round ++ bytesBE 2 epoch ++ zeros 2 ++ body

/-- A message to some sites. -/
def State.outSend (s : State) (k : Nat) (sites : List Nat) (type epoch : Nat) (body : Bytes) : State :=
  match s.shardRec k with
  | none => s
  | some r => s.outTo r sites 2 (zeros 16) (s.outMsg r (s.shard k).round type epoch body)

def State.allSites (s : State) : List Nat := List.range (siteCount s.sitesRec)

/-- HDR of a round of a shard (R383). -/
def State.sendHdrOf (s : State) (k : Nat) (sites : List Nat) (st : Nat) (a : OutPast) : State :=
  match s.shardRec k with
  | none => s
  | some r =>
    s.outTo r sites 2 (zeros 16) (s.outMsg r a.round 1 a.epoch (sliceB a.digest 0 64 ++ bytesBE 4 (s.shard k).rc ++
      bytesBE 4 a.committed ++ bytesBE 4 (if a.sentTop = 0 then 0xFFFFFFFF else a.sentTop - 1) ++ bytesBE 1 st ++
      bytesBE 2 a.roster ++ zeros 1))

/-- What headers of the present round say. -/
def OutShard.present (h : OutShard) : OutPast := ⟨h.round, h.digest, h.committed, h.sentTop, h.epoch, h.roster⟩

/-- HDR of the open round. -/
def State.sendHdr (s : State) (k : Nat) (sites : List Nat) : State := s.sendHdrOf k sites (s.shard k).st (s.shard k).present

def State.onSite (s : State) (k i : Nat) (f : OutSite → OutSite) : State :=
  s.onShard k fun h => { h with sites := h.sites.put i (f (h.site i)) }

/-! ### Completions (R399) -/

/-- The OPEN completes, unless it has completed. -/
def State.openDone (s : State) (k status ext : Nat) : State :=
  let h := s.shard k
  match h.openOp with
  | none => s
  | some o =>
    (s.setShard k { h with openOp := none }).endOp o
      { status := status, ext := ext, seg := h.committed, value := h.roster + h.fetched % 65536 * 2 ^ 32 }

/-- What is in flight of a shard is dropped: pieces keep what is committed, slots are free again. -/
def OutShard.clear (h : OutShard) (r : Bytes) : OutShard :=
  let back := h.pieces.filterMap fun p => p.2.spare
  { h with
    pieces := h.pieces.map fun p => (p.1, { slot := p.2.slot, round := p.2.round, epoch := p.2.epoch, mask := p.2.mask
                                            digest := p.2.digest, lost := p.2.lost })
    spares := h.spares ++ back
    works := List.range (hSpares r)
    dfree := List.range (hDeltaSlots r)
    deltas := [], missed := [] }

/-- The round ends on this device: the state is IDLE. -/
def State.roundIdle (s : State) (k : Nat) : State :=
  let r := (s.shardRec k).getD []
  s.onShard k fun h => { h.clear r with st := osIDLE, waiting := false, proposed := none }

/-- A round ends before completion (R398). -/
def State.roundFail (s : State) (k status ext : Nat) : State :=
  ((s.openDone k status ext).onShard k fun h => { h with incomplete := some h.round }).roundIdle k

/-! ### Fetching (R391, R393, R394) -/

/-- FETCH for a piece goes to the site at the head of its list. -/
def State.sendFetch (s : State) (k p : Nat) : State :=
  match ((s.shard k).piece p).fetch with
  | none => s
  | some f =>
    match f.sites.head? with
    | none => s
    | some i => s.outSend k [i] 6 (s.shard k).epoch (bytesBE 4 p ++ bytesBE 4 f.want)

/-- A fetch of a LOST piece (R393): from any site whose committed round for it is its own, with the digest it committed with
where it has one. -/
def State.lostFetch (s : State) (h : OutShard) (p resume : Nat) : OutFetch :=
  let x := h.piece p
  { want := x.round, digest := if x.digest.isEmpty then none else some x.digest, resume := resume
    sites := (s.allSites.filter (· != siteLocal s.sitesRec)).filter fun i => s.lastOf { h with round := x.round + 1 } p i == x.round }

/-- A piece starts to be fetched: a slot for it is the spare one it holds, or a free one. -/
def State.fetchPiece (s : State) (k p : Nat) (f : OutFetch) : State :=
  let h := s.shard k
  let x := h.piece p
  match x.spare, h.spares with
  | some _, _ => (s.onPiece k p fun x => { x with st := psFETCHING, fetch := some f }).sendFetch k p
  | none, a :: rest =>
    ((s.setShard k { h with spares := rest }).onPiece k p fun x =>
      { x with st := psFETCHING, fetch := some f, spare := some a }).sendFetch k p
  | none, [] => s

/-- Sites whose committed round for a piece is the one wanted, lowest first. -/
def State.holdersOf (s : State) (h : OutShard) (p want : Nat) : List Nat :=
  (s.allSites.filter (· != siteLocal s.sitesRec)).filter fun i => s.lastOf { h with round := want + 1 } p i == want

/-! ### Pieces (R389) -/

/-- The code of a run of a piece: what `Run.outer` carries. -/
def stepCode (round epoch p step half : Nat) : Nat :=
  ((round * 65536 + epoch) * 131072 + p) * 16 + step * 2 + half

/-- A run of the piece's present half step is requested, class N, without a CQ entry. The dresser's parameters are those of
R368; the others' are open (notes/assumptions/81.md). -/
def State.outRun (s : State) (k p ctx step half : Nat) : State :=
  match s.shardRec k with
  | none => s
  | some r =>
    let h := s.shard k
    let x := h.piece p
    let (d, s1) := s.fresh
    s1.runRequest (hCtx r ctx)
      { outer := some (k, stepCode h.round x.xEpoch p step half), domain := hDomain r, at_ := s.nowNs
        params := if ctx = 1 then
            rpBytes (workHalf r x) (hDeltaAt r (h.deltas.getD (p, siteLocal s.sitesRec) (0, 0)).1) (hPieceElems r) 1 (hTable r 2)
              (hShift r) (hCap r)
          else (List.range 32).map fun i => Config.openByte d k i }

/-- WEIGHTS: the REDUCE of the site group into the work slot (R375). -/
def State.startWeights (s : State) (k p : Nat) : State :=
  match s.shardRec k with
  | none => s
  | some r =>
    let h := s.shard k
    let x := h.piece p
    let spec := parseSpec (hSpec r)
    let c : CollOp := {
      group := hGroup r, seq := hReduceSeq r h.round p, code := 2, spec := spec, chunks := hChunks r p, param := 0
      domain := hDomain r, log := hWorkAt r (x.work.getD 0), fmt := (spec.map (·.result)).getD 0
      window := s.fld Reg.COL_ADMIT_CFG_DEF_WINDOW, since := s.nowNs }
    ((s.onPiece k p fun x => { x with st := psWEIGHTS, half := 0 }).setCollOp c).collSettle

/-- DELTA: the delta former, then the dresser. -/
def State.startDelta (s : State) (k p half : Nat) : State :=
  (s.onPiece k p fun x => { x with st := psDELTA, half := half }).outRun k p half psDELTA half

/-- STEP: the fused reducer, then the outer step. -/
def State.startStep (s : State) (k p half : Nat) : State :=
  (s.onPiece k p fun x => { x with st := psSTEP, half := half }).outRun k p (2 + half) psSTEP half

/-- The delta of a site for a piece, as it is staged. -/
def State.deltaBytes (s : State) (r : Bytes) (slot : Nat) : Bytes := s.dvaRead (hDomain r) (hDeltaAt r slot) (hStreamLen r 1)

/-- The own delta goes to the roster's sites, unless it is too old (R389, R394). -/
def State.sendDelta (s : State) (k p : Nat) : State :=
  match s.shardRec k with
  | none => s
  | some r =>
    let h := s.shard k
    let me := siteLocal s.sitesRec
    let (e, m) := h.rosterOf p
    match h.deltas.find (p, me) with
    | none => s
    | some (slot, _) =>
      if uMaxAge h.desc < s.ageOf h p me then s.outCount 4
      else
        let s1 := if s.ageOf h p me = 0 then s else s.outCount 3
        (s1.onShard k fun h => { h with deltas := h.deltas.put (p, me) (slot, e) }).outTo r (maskSites m) 1
          (outTag (hId r) h.round e p me) (s.deltaBytes r slot)

/-- Every delta the piece includes is there (R389): the piece is brought up to round r − 1 if it lags (R394), and STEP
starts. -/
def State.exchangeCheck (s : State) (k p : Nat) : State :=
  let h := s.shard k
  let x := h.piece p
  let (e, _) := h.rosterOf p
  let inc := s.included h p
  if x.st ≠ psEXCHANGE ∨ h.st ≠ osRUNNING then s
  else if inc.all fun i => (h.deltas.getD (p, i.1) (0, e + 1)).2 == e then
    if x.round + 1 < h.round then
      s.fetchPiece k p { want := h.round - 1, digest := none, sites := s.holdersOf h p (h.round - 1), resume := psSTEP }
    else
      let late := (inc.filter fun i => decide (i.1 ≠ siteLocal s.sitesRec) && decide (1 ≤ i.2)).length
      ((List.range late).foldl (fun s _ => s.outCount 3) s).startStep k p 0
  else s

/-- EXCHANGE begins: deltas of an earlier epoch are discarded, missed ones are asked for again. -/
def State.startExchange (s : State) (k p : Nat) : State :=
  let h := s.shard k
  let (e, _) := h.rosterOf p
  let me := siteLocal s.sitesRec
  let old := h.deltas.filter fun d => d.1.1 == p && d.1.2 != me && decide (d.2.2 < e)
  let h1 := { h with
    deltas := h.deltas.filter fun d => !(d.1.1 == p && d.1.2 != me && decide (d.2.2 < e))
    dfree := h.dfree ++ old.map fun d => d.2.1
    missed := h.missed.filter fun m => m.1 != p }
  let ask := (h.missed.filter fun m => m.1 == p).map (·.2)
  let s1 := (s.setShard k h1).onPiece k p fun x => { x with st := psEXCHANGE, xEpoch := e, own := none }
  let s2 := ask.foldl (fun s i => s.outSend k [i] 6 e (bytesBE 4 p ++ bytesBE 4 h.round)) (s1.sendDelta k p)
  s2.exchangeCheck k p

/-- A piece starts: it takes a spare and a work slot; a LOST piece is fetched first (R389, R393). -/
def State.startPiece (s : State) (k p : Nat) : State :=
  match s.shardRec k with
  | none => s
  | some r =>
    let h := s.shard k
    match h.spares, h.works with
    | a :: sp, w :: ws =>
      let s1 := (s.setShard k { h with spares := sp, works := ws }).onPiece k p fun x =>
        { x with spare := some a, work := some w, repeats := 0, own := none, xEpoch := (h.rosterOf p).1 }
      let x := (s1.shard k).piece p
      if s1.pieceLost r x then
        s1.fetchPiece k p (s1.lostFetch h p psWEIGHTS)
      else s1.startWeights k p
    | _, _ => s

/-- In RUNNING, pieces start in ascending order, at most SPARES at a time. -/
def State.nextPiece (s : State) (k : Nat) : Option Nat :=
  match s.shardRec k with
  | none => none
  | some r =>
    let h := s.shard k
    if h.st ≠ osRUNNING ∨ h.spares.isEmpty = true ∨ h.works.isEmpty = true then none
    else (List.range (hPieces r)).find? fun p => (h.piece p).st == psREST && decide ((h.piece p).round < h.round)

def State.outPump (k : Nat) : Nat → State → State
  | 0, s => s
  | f + 1, s =>
    match s.nextPiece k with
    | some p => State.outPump k f (s.startPiece k p)
    | none => s

/-- The round goes on: pieces whose deltas have come meanwhile step on, and pieces start. -/
def State.outGo (s : State) (k : Nat) : State :=
  State.outPump k 16 (((s.shard k).pieces.map (·.1)).foldl (fun s p => s.exchangeCheck k p) s)

/-! ### Finishing (R395 to R397) -/

/-- The broadcast of a piece: a RESULT for every chunk; its key then counts as done (R397). -/
def State.castPiece (s : State) (k p : Nat) : State :=
  match s.shardRec k with
  | none => s
  | some r =>
    let x := (s.shard k).piece p
    let q := hCastSeq r x.round p
    let n := hChunks r p
    let s1 := (List.range n).foldl (fun (s : State) c =>
      match s.pieceChunk r x c with
      | some (b, rub) => (s.chunkExpanded c rub).sendResult (hGroup r) q c 1 b
      | none => s) s
    s1.markDone (hGroup r) q { seq := q, code := 3, fmt := 1, domain := 0, log := 0, done := List.range n }

/-- The blocks of a piece's snapshot that the bench-input expanders refuse under check 1 or 2 are counted, and the piece is
LOST (R360, R361, R393). -/
def State.checkPiece (s : State) (k p : Nat) (r : Bytes) : State :=
  let x := (s.shard k).piece p
  if x.st ≠ psREST ∨ s.pieceLost r x = true then s
  else (List.range (4 * hChunks r p)).foldl (fun s i =>
    let at_ := hSnapAt r x.slot + 64 + 144 * i
    match s.blockCheck (i / 4 % 2) 0 (hTable r 0) (s.dvaRead (hDomain r) at_ 144) with
    | some c =>
      let s1 := s.blockRefused (i / 4 % 2) c at_ (hDomain r)
      if c ≤ 2 then s1.onPiece k p fun x => { x with lost := true } else s1
    | none => s) s

/-- Pieces still to broadcast that are fetched first: LOST ones, and for a FETCH those that lag behind the latest committed
round known (R393, R398). -/
def State.castNeeds (s : State) (k : Nat) (r : Bytes) : List (Nat × OutFetch) :=
  let h := s.shard k
  h.toCast.filterMap fun p =>
    let x := h.piece p
    let top := maxOf (s.allSites.map fun i => s.lastOf { h with round := 2 ^ 32 } p i)
    if x.st ≠ psREST then none
    else if h.fetchOp.isSome = true ∧ x.round < top then
      some (p, { want := top, digest := none, sites := s.holdersOf h p top, resume := psREST })
    else if s.pieceLost r x then some (p, s.lostFetch h p psREST)
    else none

/-- A completed round is remembered (R384). -/
def OutShard.keep (h : OutShard) : OutShard := { h with past := h.present :: h.past.filter fun a => a.round != h.round }

/-- The broadcast goes on: pieces that are LOST are fetched first; when none is left, the round, or the FETCH, ends. -/
def State.castOn (s : State) (k : Nat) : State :=
  match s.shardRec k with
  | none => s
  | some r =>
    let s := (s.shard k).toCast.foldl (fun s p => s.checkPiece k p r) s
    let h := s.shard k
    let busy := h.toCast.any fun p => (h.piece p).st == psFETCHING
    match s.castNeeds k r with
      | n :: rest => (n :: rest).foldl (fun s f => s.fetchPiece k f.1 f.2) s
      | [] =>
        if busy then s
        else
        let s1 := (h.toCast.foldl (fun s p => s.castPiece k p) s).onShard k fun h => { h with toCast := [], unsent := false }
        match h.fetchOp with
        | some o => (s1.onShard k fun h => { h with fetchOp := none }).finish o stOK
        | none =>
          if h.st = osBROADCASTING then
            let s2 := (s1.openDone k stOK h.epoch).onShard k fun h => { h.keep with excludeOp := none }
            let s3 := s2.roundIdle k
            match h.excludeOp with
            | some o => s3.finish o stOK
            | none => s3
          else s1

/-- BROADCASTING begins (R396). -/
def State.broadcast (s : State) (k : Nat) : State :=
  match s.shardRec k with
  | none => s
  | some r =>
    let list := if uNoCast (s.shard k).desc then [] else List.range (hPieces r)
    (s.onShard k fun h => { h with st := osBROADCASTING, toCast := list }).castOn k

/-- The device is outside the round (R388, R395): the OPEN completes, and what it committed is broadcast. -/
def State.outside (s : State) (k mask epoch : Nat) : State :=
  match s.shardRec k with
  | none => s
  | some r =>
    let s1 := (s.onShard k fun h => { h with roster := mask, epoch := epoch }).openDone k stOUT_OUTSIDE epoch
    let h := s1.shard k
    let mine := (List.range (hPieces r)).filter fun p => (h.piece p).round == h.round
    let s2 := (s1.onShard k fun h => { h with outside := some h.round }).roundIdle k
    (s2.onShard k fun x => { x with toCast := if uNoCast h.desc then [] else mine }).castOn k

/-- Sites compared with: the last roster's, without the local one and those excluded. -/
def State.compared (s : State) (h : OutShard) : List Nat :=
  (maskSites h.roster).filter fun i => i != siteLocal s.sitesRec && !(h.site i).excluded

/-- A site's FINAL differs from the local shard digest. -/
def OutShard.finalDiffers (h : OutShard) (i : Nat) : Bool :=
  match (h.site i).final with
  | some d => d != h.shardDigest
  | none => false

/-- A differing FINAL is counted and recorded (R27). -/
def State.noteMismatch (s : State) (k i : Nat) : State :=
  (s.outCount 6).raise Ev.DIGEST_MISMATCH k (i + (s.shard k).round % 2 ^ 32 * 2 ^ 32) (s.shard k).fn

/-- The FINALs are compared (R396). -/
def State.compare (s : State) (k : Nat) : State :=
  let h := s.shard k
  if h.st ≠ osCOMPARING ∧ h.st ≠ osMISMATCH then s
  else
    let l := s.compared h
    if l.any h.finalDiffers then s.onShard k fun h => { h with st := osMISMATCH }
    else if h.st = osMISMATCH ∨ (l.all fun i => (h.site i).final.isSome) = true then s.broadcast k
    else s

/-- All pieces have committed: FINAL is sent (R396). -/
def State.allCommitted (s : State) (k : Nat) : State :=
  match s.shardRec k with
  | none => s
  | some r =>
    let h := s.shard k
    if h.committed < hPieces r then s
    else
      let d := Config.sha3 ((List.range (hPieces r)).flatMap fun p => (h.piece p).digest)
      let s1 := s.onShard k fun h => { h with
        st := osCOMPARING, rc := h.round, shardDigest := d, incomplete := none, outside := none }
      let s2 := s1.outSend k s.allSites 5 h.epoch d
      (((s2.compared (s2.shard k)).filter (s2.shard k).finalDiffers).foldl (fun s i => s.noteMismatch k i) s2).compare k

/-! ### Digests and commits (R390 to R392) -/

/-- A piece binds a new slot: the old slot becomes spare, the work slot and the delta slots are free. -/
def OutShard.bind (h : OutShard) (p : Nat) (x : OutPiece) : OutShard :=
  let mine := h.deltas.filter fun d => d.1.1 == p
  { h.setPiece p x with
    works := h.works ++ ((h.piece p).work.toList)
    dfree := h.dfree ++ mine.map (fun d => d.2.1)
    deltas := h.deltas.filter fun d => d.1.1 != p
    missed := h.missed.filter fun m => m.1 != p }

/-- A piece commits with a digest (R390). -/
def State.commitPiece (s : State) (k p : Nat) (d : Bytes) : State :=
  let h := s.shard k
  let x := h.piece p
  let (e, m) := h.rosterOf p
  let h1 := h.bind p { slot := x.spare.getD x.slot, round := h.round, epoch := e, mask := m, digest := d }
  let h2 := { h1 with spares := h1.spares ++ [x.slot], committed := h.committed + 1 }
  (((s.setShard k h2).outCount 0).outGo k).allCommitted k

/-- Sites of a roster, without the local one, with the digest heard from each under an epoch. -/
def State.digestsOf (s : State) (h : OutShard) (p e m : Nat) : List (Nat × Bytes) :=
  ((maskSites m).filter (· != siteLocal s.sitesRec)).filterMap fun i =>
    match h.heard.find (p, i) with
    | some (f, d) => if f == e then some (i, d) else none
    | none => none

/-- The digests of a piece are weighed: it commits, is fetched from those who agree on another value, or splits. -/
def State.weigh (s : State) (k p : Nat) : State :=
  let h := s.shard k
  let x := h.piece p
  let me := siteLocal s.sitesRec
  let (e, m) := h.rosterOf p
  match x.own with
  | none => s
  | some own =>
    if x.st ≠ psDIGESTED ∨ x.xEpoch ≠ e then s
    else
      let l := s.digestsOf h p e m
      let same := (l.filter fun d => d.2 == own).map (·.1)
      let others := (l.map (·.2)).find? fun v => v != own && s.quorum ((l.filter fun d => d.2 == v).map (·.1))
      if s.quorum (me :: same) then s.commitPiece k p own
      else match others with
        | some v =>
          let from_ := (l.filter fun d => d.2 == v).map (·.1)
          let s1 := (s.outCount 1).raise Ev.DIGEST_REFETCH k
            (from_.headD 0 + p % 65536 * 2 ^ 16 + h.round % 2 ^ 32 * 2 ^ 32)
          (s1.onPiece k p fun x => { x with own := none }).fetchPiece k p
            { want := h.round, digest := some v, sites := from_, resume := psREST, commits := true }
        | none =>
          if l.length = ((maskSites m).filter (· != me)).length then
            (s.openDone k stOUT_DIGEST_SPLIT p).onShard k fun h => { h with st := osHALTED }
          else s

/-- DIGESTED: the digest of the new streams is computed and sent (R378, R387, R389). -/
def State.digestPiece (s : State) (k p : Nat) : State :=
  match s.shardRec k with
  | none => s
  | some r =>
    let h := s.shard k
    let x := h.piece p
    let slot := x.spare.getD 0
    let (e, m) := h.rosterOf p
    let d := Config.sha3 (s.dvaRead (hDomain r) (hSnapAt r slot) (hStreamLen r 0) ++
      s.dvaRead (hDomain r) (hMomAt r slot) (hStreamLen r 1))
    let s1 := (s.onPiece k p fun x => { x with st := psDIGESTED, own := some d }).onShard k fun h =>
      { h with sentTop := max h.sentTop (p + 1) }
    (s1.outSend k (maskSites m) 4 e (bytesBE 4 p ++ zeros 4 ++ sliceB d 0 64)).weigh k p

/-! ### Rosters (R386 to R388) -/

/-- A roster is fixed (R388): RUNNING begins or resumes under it, or the device is outside. -/
def State.fix (s : State) (k epoch mask first : Nat) : State :=
  match s.shardRec k with
  | none => s
  | some r =>
    let h := s.shard k
    let open_ : Bool := h.st == osOPENING || h.st == osRUNNING || h.st == osSUSPENDED
    if !bitAt mask (siteLocal s.sitesRec) then (if open_ then s.outside k mask epoch else s)
    else
      let s1 := (s.outCount 5).onShard k fun h => { h with
        epoch := epoch, roster := mask, seen := max h.seen epoch, proposed := none
        rosters := (epoch, mask, first) :: h.rosters
        st := if open_ then osRUNNING else h.st }
      let again := (List.range (hPieces r)).filter fun p =>
        let x := h.piece p
        decide (first ≤ p) && decide (psEXCHANGE ≤ x.st) && decide (x.st ≤ psDIGESTED)
      if open_ then ((again.foldl (fun s p => s.startExchange k p) s1).outGo k) else s1.compare k

/-- One more than the highest piece digested among some sites, as this device knows it. -/
def State.firstOf (s : State) (h : OutShard) (l : List Nat) : Nat :=
  maxOf (l.map fun i => if i = siteLocal s.sitesRec then h.sentTop else (h.site i).high)

/-- Identical votes of sites that hold quorum fix a proposal. -/
def State.countVotes (s : State) (k : Nat) (v : OutVote) : State :=
  let h := s.shard k
  let yes := (h.votes.filter fun w => w.proposer == v.proposer && w.epoch == v.epoch && w.mask == v.mask &&
    w.first == v.first && bitAt v.mask w.voter).map (·.voter)
  if h.epoch < v.epoch ∧ s.quorum yes = true then s.fix k v.epoch v.mask v.first else s

/-- A vote is heard. -/
def State.hearVote (s : State) (k : Nat) (v : OutVote) : State :=
  (s.onShard k fun h => { h with
    seen := max h.seen v.epoch
    votes := if h.votes.contains v then h.votes else h.votes ++ [v] }).countVotes k v

/-- A proposal is answered with a VOTE to every site when the promise allows (R387). -/
def State.vote (s : State) (k proposer epoch mask first : Nat) : State :=
  let h := s.shard k
  let me := siteLocal s.sitesRec
  let s0 := s.onShard k fun h => { h with seen := max h.seen epoch }
  if bitAt mask me = true ∧ (h.votes.any fun v => v.voter == me && v.epoch == epoch && v != ⟨me, proposer, epoch, mask, first⟩) = false ∧
      h.epoch < epoch ∧ h.sentTop ≤ first then
    (s0.outSend k s.allSites 3 epoch (bytesBE 1 proposer ++ zeros 1 ++ bytesBE 2 mask ++ bytesBE 4 first)).hearVote k
      ⟨me, proposer, epoch, mask, first⟩
  else s0

/-- Reachable sites in OPENING, RUNNING or SUSPENDED, the local one among them. -/
def State.proposable (s : State) (h : OutShard) : List Nat :=
  let open_ := fun (x : Nat) => x == osOPENING || x == osRUNNING || x == osSUSPENDED
  s.allSites.filter fun i =>
    if i = siteLocal s.sitesRec then open_ h.st else (h.site i).reach && open_ (h.site i).st

/-- The proposer proposes the next epoch (R386). -/
def State.propose (s : State) (k : Nat) : State :=
  let h := s.shard k
  let l := s.proposable h
  let me := siteLocal s.sitesRec
  if l.head? ≠ some me ∨ h.proposed.isSome = true then s
  else
    let e := h.seen + 1
    let m := sitesMask l
    let first := s.firstOf h l
    let s1 := s.onShard k fun h => { h with proposed := some e, seen := e }
    (s1.outSend k s.allSites 2 e (bytesBE 2 m ++ bytesBE 4 first ++ zeros 2)).vote k me e m first

/-- The proposer has grounds by what its sites show (R386): no roster yet and a quorum, or a site that comes back. -/
def State.proposeIf (s : State) (k : Nat) : State :=
  let h := s.shard k
  let l := s.proposable h
  let back := l.any fun i => !bitAt h.roster i && i != siteLocal s.sitesRec &&
    ((h.site i).st == osOPENING || (h.site i).st == osSUSPENDED)
  if (h.roster = 0 ∧ s.quorum l = true) ∨ (h.roster ≠ 0 ∧ back = true) then s.propose k else s

/-! ### Opening (R380 to R382) -/

/-- The parameter digest of an OPEN (R379, notes/assumptions/77.md). -/
def State.paramDigest (s : State) (r d : Bytes) : Bytes :=
  let levels := fun i => (s.levels 0 (hTable r i)).flatMap fun x => bytesLE 2 x
  Config.sha3 (sliceB d 0x18 16 ++ sliceB d 0x28 1 ++ sliceB r 0x10 8 ++ sliceB r 0x0C 4 ++ sliceB r 0x1F 1 ++
    sliceB r 0x20 2 ++ (List.range 3).flatMap levels ++ (List.range 4).flatMap fun i => tDigest (s.tctx (hCtx r i)).cont)

/-- A number is FP32 and finite, not negative, and at most a bound where one is given. -/
def fp32In (w : Nat) (top : Option Rat) : Bool :=
  match fFP32.decode w with
  | .fin neg m e =>
    (!neg || m == 0) && (match top with
      | some t => decide ((Val.fin false m e).rat ≤ t)
      | none => true)
  | _ => false

/-- Why an OPEN completes without opening (R382). -/
def State.openRefusal (s : State) (d : Bytes) : Option Nat :=
  let k := uShard d
  let h := s.shard k
  match s.shardRec k with
  | none => some stOUT_BAD_SHARD
  | some r =>
    let n := uRound d
    let t := fun i => s.table 0 (hTable r i)
    let u := fun i => s.table 1 (hTable r i)
    if h.st ≠ osIDLE ∨ h.waiting = true ∨ h.fetchOp.isSome = true then some stOUT_BUSY
    else if (n ≠ h.rc + 1 ∧ some n ≠ h.incomplete ∧ some n ≠ h.outside.map (· + 1)) ∨
        2 ^ 32 - 1 < hOseq r + 2 * ((n + 1) * hPieces r) then some stOUT_ROUND_SEQ
    else if !((t 0).serves 0 && (u 0).serves 0 && (t 1).serves 1 && (u 1).serves 1 && (t 2).serves 1 && (u 2).serves 1)
    then some stOUT_TABLE
    else if (List.range 4).any (fun i => (s.tctx (hCtx r i)).st != csxRESIDENT) || (s.collGroup (hGroup r)).isNone ||
        decide (15 < uMaxAge d) || !fp32In (uStale d) (some 1) || !fp32In (uClip d) none then some stBAD_FIELD
    else none

/-- OPENING begins: headers are sent (R381). -/
def State.roundStart (s : State) (k : Nat) : State :=
  match s.shardRec k with
  | none => s
  | some r =>
    let h := s.shard k
    let n := uRound h.desc
    let fresh := h.incomplete != some n
    let x := h.clear r
    let y := if fresh then
        { x with epoch := 0, seen := 0, votes := [], rosters := [], heard := [], sentTop := 0 }
      else x
    let sites := h.sites.map fun p => (p.1, { p.2 with
      reach := false, differs := false, st := 0, frontier := 0, roster := 0, excluded := false
      high := if fresh then 0 else p.2.high
      final := if fresh then none else p.2.final })
    let z := { y with
      st := osOPENING, waiting := false, round := n, roster := 0, sites := sites, fetched := 0, toCast := [], unsent := false
      proposed := none, incomplete := none
      committed := ((List.range (hPieces r)).filter fun p => (h.piece p).round == n).length
      digest := s.paramDigest r h.desc }
    ((s.setShard k z).sendHdr k s.allSites).proposeIf k

/-- An OPEN is accepted or refused. -/
def State.outerOpen (s : State) (o : Op) : State :=
  let d := o.desc
  match s.openRefusal d with
  | some st => s.finish o.key st
  | none =>
    let s1 := s.onShard (uShard d) fun h => { h with openOp := some o.key, fn := o.fn, desc := d, waiting := true }
    if getLE d 0x30 8 = 0 ∨ s.reached (uStart d) = true then s1.roundStart (uShard d) else s1

/-- EXCLUDE (R396). -/
def State.outerExclude (s : State) (o : Op) : State :=
  let k := uShard o.desc
  let i := uSite o.desc
  let h := s.shard k
  if h.st ≠ osMISMATCH ∨ (s.compared h).contains i = false ∨ h.finalDiffers i = false then s.finish o.key stBAD_FIELD
  else
    let s1 := s.onSite k i fun x => { x with excluded := true }
    let h1 := s1.shard k
    if (s1.compared h1).any h1.finalDiffers then s1.finish o.key stOK
    else (s1.onShard k fun h => { h with excludeOp := some o.key }).compare k

/-- ABANDON (R398). -/
def State.outerAbandon (s : State) (o : Op) : State :=
  let k := uShard o.desc
  let h := s.shard k
  if h.waiting then
    (((s.openDone k stOUT_ABANDONED 0).onShard k fun h => { h with waiting := false })).finish o.key stOK
  else if h.st = osMISMATCH then
    let s1 := (s.openDone k stOUT_ABANDONED 0).onShard k fun h => { h.keep with rc := h.round, unsent := true }
    (s1.roundIdle k).finish o.key stOK
  else if h.st = osHALTED ∨ (h.st ≠ osIDLE ∧ h.sentTop = 0) then (s.roundFail k stOUT_ABANDONED 0).finish o.key stOK
  else s.finish o.key stBAD_FIELD

/-- FETCH (R398): pieces that lag, or are LOST, are pulled; then they are broadcast. -/
def State.outerFetch (s : State) (o : Op) : State :=
  let k := uShard o.desc
  let h := s.shard k
  match s.shardRec k with
  | none => s.finish o.key stOUT_BAD_SHARD
  | some r =>
    if h.st ≠ osIDLE ∨ h.waiting = true ∨ h.fetchOp.isSome = true then s.finish o.key stOUT_BUSY
    else
      let top := fun p => maxOf (s.allSites.map fun i => s.lastOf { h with round := 2 ^ 32 } p i)
      let lag := (List.range (hPieces r)).filter fun p => decide ((h.piece p).round < top p)
      let cast := if h.unsent then List.range (hPieces r) else h.toCast ++ lag.filter fun p => !h.toCast.contains p
      (s.onShard k fun h => { h with fetchOp := some o.key, toCast := cast }).castOn k

/-! ### Messages received -/

/-- The shard slots of a message. -/
def State.slotsOf (s : State) (id : Nat) : List Nat :=
  (List.range 16).filter fun k => match s.shardRec k with
    | some r => hId r == id
    | none => false

/-- A message is taken by the shard it names, and goes on round a ring. -/
def State.hearMsg (s : State) (m : Bytes) (type : Nat) (body : State → Nat → State) : State :=
  if mType m ≠ type ∨ mSite m = siteLocal s.sitesRec ∨ siteCount s.sitesRec ≤ mSite m then s
  else (s.slotsOf (mShard m)).foldl (fun s k =>
    body (s.outForward ((s.shardRec k).getD []) (mSite m) 2 (zeros 16) m) k) s

/-- A header of a completed round answers one of a site that lags (R384). -/
def State.answerHdr (s : State) (k i : Nat) (a : OutPast) : State :=
  let x := (s.shard k).site i
  let due := match x.answered with
    | some t => decide (t + s.fld Reg.OUT_TIMER_CFG_HDR_MS * 1000000 ≤ s.uptimeNs)
    | none => true
  if due then (s.onSite k i fun x => { x with answered := some s.uptimeNs }).sendHdrOf k [i] osIDLE a else s

/-- Every site of the roster is reachable. -/
def State.rosterWhole (s : State) (h : OutShard) : Bool :=
  (maskSites h.roster).all fun i => i == siteLocal s.sitesRec || (h.site i).reach

/-- HDR (R384). -/
def State.hearHdr (s : State) (m : Bytes) (k : Nat) : State :=
  let i := mSite m
  let b := m.drop 16
  let h := s.shard k
  let st := getBE b 76 1
  let mask := getBE b 77 2
  let s0 := s.onSite k i fun x => { x with
    rc := max x.rc (getBE b 64 4), fronts := x.fronts.put (mRound m) (getBE b 68 4) }
  if h.st = osIDLE then
    match h.past.find? fun a => a.round == mRound m, st == osOPENING || st == osRUNNING || st == osSUSPENDED with
    | some a, true => s0.answerHdr k i a
    | _, _ => s0
  else if mRound m ≠ h.round then s0
  else if b.take 64 ≠ h.digest then
    let s1 := s0.onSite k i fun x => { x with reach := false, differs := true }
    if (h.site i).differs then s1
    else (s1.outCount 8).raise Ev.OUT_PARAM_MISMATCH k (i + h.round % 2 ^ 32 * 2 ^ 32) h.fn
  else
    let high := getBE b 72 4
    let s1 := s0.onSite k i fun x => { x with
      reach := true, st := st, frontier := getBE b 68 4, roster := mask, high := if high = 0xFFFFFFFF then 0 else high + 1 }
    let s2 := s1.onShard k fun h => { h with seen := max h.seen (mEpoch m) }
    let learn : Bool := mask != 0 && bitAt mask i && (decide (h.epoch < mEpoch m) || (h.roster == 0 && h.epoch == mEpoch m))
    let first := match (h.votes.filter fun v => v.epoch == mEpoch m && v.mask == mask).head? with
      | some v => v.first
      | none => s2.firstOf (s2.shard k) (maskSites mask)
    let s3 := if learn then s2.fix k (mEpoch m) mask first else s2
    let h3 := s3.shard k
    let s4 := if h3.st = osSUSPENDED ∧ s3.rosterWhole h3 = true then
        (s3.onShard k fun h => { h with st := osRUNNING }).outGo k
      else s3
    s4.proposeIf k

/-- A site is unreachable (R381, R384). -/
def State.siteUnreachable (s : State) (k i : Nat) : State :=
  let h := s.shard k
  if h.st = osIDLE ∨ (h.site i).reach = false then s
  else (s.onSite k i fun x => { x with reach := false }).onShard k fun h => { h with
    st := if h.st = osRUNNING ∧ bitAt h.roster i = true then osSUSPENDED else h.st }

/-- A roster site has been unreachable for LOSS_S (R386). -/
def State.lossTimer (s : State) (k i : Nat) : State :=
  let h := s.shard k
  if bitAt h.roster i = true ∧ (h.site i).reach = false ∧ i ≠ siteLocal s.sitesRec then s.propose k else s

/-- An own proposal has not been fixed within ROSTER_WAIT (R386). -/
def State.rosterWait (s : State) (k : Nat) : State :=
  if (s.shard k).proposed.isSome then (s.onShard k fun h => { h with proposed := none }).propose k else s

/-- PROPOSE (R387). -/
def State.hearPropose (s : State) (m : Bytes) (k : Nat) : State :=
  let b := m.drop 16
  if (s.shard k).st = osIDLE ∨ mRound m ≠ (s.shard k).round then s
  else s.vote k (mSite m) (mEpoch m) (getBE b 0 2) (getBE b 2 4)

/-- VOTE (R388). -/
def State.hearVoteMsg (s : State) (m : Bytes) (k : Nat) : State :=
  let b := m.drop 16
  if (s.shard k).st = osIDLE ∨ mRound m ≠ (s.shard k).round then s
  else s.hearVote k ⟨mSite m, getBE b 0 1, mEpoch m, getBE b 2 2, getBE b 4 4⟩

/-- DIGEST (R388, R390). -/
def State.hearDigest (s : State) (m : Bytes) (k : Nat) : State :=
  let b := m.drop 16
  let h := s.shard k
  let p := getBE b 0 4
  if h.st = osIDLE ∨ mRound m ≠ h.round then s
  else
    let s1 := s.onShard k fun h => { h with
      seen := max h.seen (mEpoch m), heard := h.heard.put (p, mSite m) (mEpoch m, sliceB b 8 64) }
    let l := h.votes.filter fun v => v.epoch == mEpoch m
    let s2 := match l.head? with
      | some v =>
        if h.epoch < mEpoch m ∧ bitAt v.mask (mSite m) = true ∧ (l.all fun w => w.mask == v.mask && w.first == v.first) = true
        then s1.fix k v.epoch v.mask v.first else s1
      | none => s1
    s2.weigh k p

/-- FINAL (R396). -/
def State.hearFinal (s : State) (m : Bytes) (k : Nat) : State :=
  let h := s.shard k
  if h.st = osIDLE ∨ mRound m ≠ h.round then s
  else
    let s1 := s.onSite k (mSite m) fun x => { x with final := some (sliceB (m.drop 16) 0 64) }
    let h1 := s1.shard k
    let s2 := if (h.st == osCOMPARING || h.st == osMISMATCH) && (s1.compared h1).contains (mSite m) && h1.finalDiffers (mSite m)
      then s1.noteMismatch k (mSite m) else s1
    s2.compare k

/-- FETCH (R391): a piece committed in the round wanted and held unchanged is sent; a delta of the open round is sent
again (notes/assumptions/78.md). -/
def State.hearFetch (s : State) (m : Bytes) (k : Nat) : State :=
  match s.shardRec k with
  | none => s
  | some r =>
    let b := m.drop 16
    let p := getBE b 0 4
    let want := getBE b 4 4
    let h := s.shard k
    let x := h.piece p
    let me := siteLocal s.sitesRec
    if p < hPieces r ∧ x.round = want ∧ s.pieceLost r x = false then
      (s.outCount 2).outTo r [mSite m] 1 (outTag (hId r) want x.epoch p me)
        (s.dvaRead (hDomain r) (hSnapAt r x.slot) (hStreamLen r 0) ++
          s.dvaRead (hDomain r) (hMomAt r x.slot) (hStreamLen r 1))
    else match h.deltas.find (p, me) with
      | some (slot, e) =>
        if h.st ≠ osIDLE ∧ want = h.round ∧ x.st ≠ psDELTA then
          s.outTo r [mSite m] 1 (outTag (hId r) want e p me) (s.deltaBytes r slot)
        else s
      | none => s

/-! ### Pieces received and steps done -/

/-- A stream is good: its header, and checks 1 and 2 of every block (R360, R362). -/
def streamGood (r b : Bytes) (profile table : Nat) : Bool :=
  let n := hRuns r * 1024
  b.length == hStreamLen r profile && streamOk b 0 && getLE b 6 1 == profile && getLE b 7 1 == table && getLE b 8 4 == n &&
    (List.range n).all fun i =>
      let k := sliceB b (64 + i * ashBytes profile) (ashBytes profile)
      ashIntact k && ashWellFormed k

/-- A fetched piece arrives (R391): with the right digest and good streams it commits in the round wanted; otherwise the
next site is asked. -/
def State.pieceFetched (s : State) (k p : Nat) (r : Bytes) (f : OutFetch) (data : Bytes) : State :=
  let h := s.shard k
  let x := h.piece p
  let snap := data.take (hStreamLen r 0)
  let mom := data.drop (hStreamLen r 0)
  let d := Config.sha3 data
  let good : Bool := (match f.digest with
    | some v => v == d
    | none => true) && streamGood r snap 0 (hTable r 0) && streamGood r mom 1 (hTable r 1)
  if !good then
    (s.onPiece k p fun x => { x with fetch := some { f with sites := f.sites.drop 1 ++ f.sites.take 1 } }).sendFetch k p
  else
    let slot := x.spare.getD x.slot
    let s1 := State.dvaWrite (hDomain r) (hMomAt r slot) mom (State.dvaWrite (hDomain r) (hSnapAt r slot) snap s)
    let s2 := s1.onShard k fun h => { h with fetched := h.fetched + 1 }
    if f.commits then s2.commitPiece k p d
    else
      let y := { x with slot := slot, round := f.want, digest := d, fetch := none, lost := false }
      if f.resume = psREST then
        let h2 := s2.shard k
        let h3 := { h2 with spares := h2.spares ++ [x.slot] }
        (s2.setShard k (h3.setPiece p { y with st := psREST, spare := none })).castOn k
      else
        let s3 := s2.onPiece k p fun _ => { y with spare := some x.slot }
        if f.resume = psWEIGHTS then s3.startWeights k p
        else if f.resume = psDELTA then s3.startDelta k p 0
        else s3.startStep k p 0

/-- Blocks of a received delta that fail check 1 or 2 are counted and recorded (R360); the bow die's expanders check them
(notes/assumptions/194.md). -/
def State.deltaRefused (s : State) (k p i : Nat) (r data : Bytes) : State :=
  let at_ := hDeltaAt r ((s.shard k).deltas.getD (p, i) (0, 0)).1 + 64
  (List.range (hRuns r * 1024)).foldl (fun s n =>
    match s.blockCheck 0 1 (hTable r 2) (sliceB data (64 + 208 * n) 208) with
    | some c => if c ≤ 2 then s.blockRefused 0 c (at_ + 208 * n) (hDomain r) else s
    | none => s) s

/-- A delta arrives (R389): a good one of the present epoch or a later one is staged; a bad one, or one for which no slot
is free, is asked for again. Slots that pieces in flight may need are kept for them. -/
def State.deltaHeard (s : State) (k p i e : Nat) (r data : Bytes) : State :=
  let h := s.shard k
  let again := fun (s : State) => s.outSend k [i] 6 e (bytesBE 4 p ++ bytesBE 4 h.round)
  if h.st = osIDLE ∨ e < (h.rosterOf p).1 ∨ h.round ≤ (h.piece p).round then s
  else if !streamGood r data 1 (hTable r 2) then again (s.deltaRefused k p i r data)
  else
    let slot := match h.deltas.find (p, i) with
      | some (x, _) => some x
      | none =>
        if (h.piece p).work.isNone && decide (h.dfree.length ≤ hSpares r * siteCount s.sitesRec) then none else h.dfree.head?
    match slot with
    | none => s.onShard k fun h => { h with missed := withElem h.missed (p, i) }
    | some x =>
      let s1 := State.dvaWrite (hDomain r) (hDeltaAt r x) data s
      (s1.onShard k fun h => { h with dfree := without h.dfree x, deltas := h.deltas.put (p, i) (x, e) }).exchangeCheck k p

/-- A checkpoint object arrives: a fetched piece, or a delta. -/
def State.pieceReceive (s : State) (tag data : Bytes) : State :=
  let origin := getBE tag 14 1
  let p := getBE tag 10 4
  let round := getBE tag 4 4
  if origin = siteLocal s.sitesRec ∨ siteCount s.sitesRec ≤ origin then s
  else (s.slotsOf (getBE tag 0 4)).foldl (fun s k =>
    match s.shardRec k with
    | none => s
    | some r =>
      let s1 := s.outForward r origin 1 tag data
      let h := s1.shard k
      match (h.piece p).fetch with
      | some f =>
        if data.length = hStreamLen r 0 + hStreamLen r 1 ∧ round = f.want ∧ f.sites.contains origin = true then
          s1.pieceFetched k p r f data
        else if round = h.round then s1.deltaHeard k p origin (getBE tag 8 2) r data else s1
      | none => if round = h.round ∧ p < hPieces r then s1.deltaHeard k p origin (getBE tag 8 2) r data else s1) s

/-- A run of a piece failed (R398): lost sources are fetched again and the run repeats, up to 3 times; otherwise the round
ends. -/
def State.outRunFailed (s : State) (k p status : Nat) : State :=
  match s.shardRec k with
  | none => s
  | some r =>
    let h := s.shard k
    let x := h.piece p
    if status ≠ stMEM_UNCORRECTABLE ∨ 3 ≤ x.repeats then s.roundFail k stOUT_PROGRAM_FAILED status
    else
      let s1 := (s.outCount 7).onPiece k p fun x => { x with repeats := x.repeats + 1 }
      let foul := fun (at_ len profile table : Nat) => !streamGood r (s1.dvaRead (hDomain r) at_ len) profile table
      if s1.pieceLost r x || foul (hSnapAt r x.slot) (hStreamLen r 0) 0 (hTable r 0) ||
          foul (hMomAt r x.slot) (hStreamLen r 1) 1 (hTable r 1) then
        s1.fetchPiece k p (s1.lostFetch h p (if x.st = psDELTA then psDELTA else psSTEP))
      else if x.st = psDELTA then
        if s1.dvaLost (hDomain r) (hWorkAt r (x.work.getD 0)) (4 * hPieceElems r) then s1.startWeights k p
        else s1.startDelta k p 0
      else
        let bad := (h.deltas.filter fun d => d.1.1 == p && (s1.dvaLost (hDomain r) (hDeltaAt r d.2.1) (hStreamLen r 1) ||
          foul (hDeltaAt r d.2.1) (hStreamLen r 1) 1 (hTable r 2))).map fun d => d.1.2
        if bad.isEmpty then s1.startStep k p 0
        else if bad.contains (siteLocal s.sitesRec) then s1.startDelta k p 0
        else
          (s1.onShard k fun h => { h with
            dfree := h.dfree ++ (h.deltas.filter fun d => d.1.1 == p && bad.contains d.1.2).map fun d => d.2.1
            deltas := h.deltas.filter fun d => !(d.1.1 == p && bad.contains d.1.2)
            missed := h.missed ++ bad.map fun i => (p, i) }).startExchange k p

/-- The dresser's stream stands in the delta slot taken for the local site. -/
def State.ownDelta (s : State) (k p : Nat) : State :=
  let h := s.shard k
  let me := siteLocal s.sitesRec
  let e := (h.rosterOf p).1
  match h.deltas.find (p, me), h.dfree with
  | some (x, _), _ => s.setShard k { h with deltas := h.deltas.put (p, me) (x, e) }
  | none, x :: rest => s.setShard k { h with deltas := h.deltas.put (p, me) (x, e), dfree := rest }
  | none, [] => s

/-- A piece step completes, and the next step or the digest starts (R389). -/
def State.pieceStep (s : State) (k p : Nat) : State :=
  match s.shardRec k with
  | none => s
  | some r =>
    let h := s.shard k
    let x := h.piece p
    if h.st ≠ osRUNNING ∧ h.st ≠ osSUSPENDED then s
    else if x.st = psWEIGHTS then
      let q := hReduceSeq r h.round p
      match s.col.outerEnded.find? fun e => e.1 == hGroup r && e.2.1 == q with
      | none => s
      | some e =>
        let s1 := s.onCol fun c => { c with outerEnded := without c.outerEnded e }
        if e.2.2 = stOK then (s1.ownDelta k p).startDelta k p 0 else s1.roundFail k stOUT_PROGRAM_FAILED e.2.2
    else if x.st = psDELTA ∨ x.st = psSTEP then
      match s.tfb.outerEnded.find? fun e => e.1 == k && e.2.1 == stepCode h.round x.xEpoch p x.st x.half with
      | none => s
      | some e =>
        let s1 := s.onTfb fun t => { t with outerEnded := without t.outerEnded e }
        if e.2.2 ≠ stOK then s1.outRunFailed k p e.2.2
        else if x.st = psDELTA then (if x.half = 0 then s1.startDelta k p 1 else s1.startExchange k p)
        else if x.half = 0 then s1.startStep k p 1
        else s1.digestPiece k p
    else s

/-- A job restart ends the rounds it covers (R398, R527); an OPEN that waits for START ends too. -/
def State.outerRestart (s : State) (covers : Bytes → Bool) : State :=
  (List.range 16).foldl (fun (s : State) k =>
    match s.shardRec k with
    | none => s
    | some r =>
      if !covers r then s
      else if (s.shard k).st ≠ osIDLE then s.roundFail k stOUT_RESTARTED 0
      else if (s.shard k).waiting then (s.openDone k stOUT_RESTARTED 0).onShard k fun h => { h with waiting := false }
      else s) s

/-! ### The rows -/

/-- An OUTER command of the OP code. -/
def State.outerCode (s : State) (k : OpKey) (code : Nat) (body : Op → State → State) : State :=
  s.start k (fun d => dKind d == kindOUTER && dOp d == code) body

def execOuterOpen (op : OpKey) (s : State) : Host.Outcome State Fault Refusal :=
  .next (s.pooled fun s => s.outerCode op 0 fun o s => s.outerOpen o)

def execOuterExclude (op : OpKey) (s : State) : Host.Outcome State Fault Refusal :=
  .next (s.pooled fun s => s.outerCode op 1 fun o s => s.outerExclude o)

def execOuterFetch (op : OpKey) (s : State) : Host.Outcome State Fault Refusal :=
  .next (s.pooled fun s => s.outerCode op 2 fun o s => s.outerFetch o)

def execOuterAbandon (op : OpKey) (s : State) : Host.Outcome State Fault Refusal :=
  .next (s.outerCode op 3 fun o s => s.outerAbandon o)

/-- START of an accepted OPEN is reached. -/
def execRoundStart (shard : Nat) (s : State) : Host.Outcome State Fault Refusal :=
  let h := s.shard shard
  .next (s.inPool fun s => if h.waiting && s.reached (uStart h.desc) then s.roundStart shard else s)

/-- HDR_MS has passed: HDR goes to every site while the round is open (R384). -/
def execHdrTimer (shard : Nat) (s : State) : Host.Outcome State Fault Refusal :=
  .next (s.inCore fun s => if (s.shard shard).st = osIDLE then s else s.sendHdr shard s.allSites)

def execOuterHdr (m : Bytes) (s : State) : Host.Outcome State Fault Refusal :=
  .next (s.inPool fun s => s.hearMsg m 1 fun s k => s.hearHdr m k)

def execSiteUnreachable (shard site : Nat) (s : State) : Host.Outcome State Fault Refusal :=
  .next (s.inCore fun s => s.siteUnreachable shard site)

def execLossTimer (shard site : Nat) (s : State) : Host.Outcome State Fault Refusal :=
  .next (s.inPool fun s => s.lossTimer shard site)

def execRosterWaitExpire (shard : Nat) (s : State) : Host.Outcome State Fault Refusal :=
  .next (s.inPool fun s => s.rosterWait shard)

def execOuterPropose (m : Bytes) (s : State) : Host.Outcome State Fault Refusal :=
  .next (s.inPool fun s => s.hearMsg m 2 fun s k => s.hearPropose m k)

def execOuterVote (m : Bytes) (s : State) : Host.Outcome State Fault Refusal :=
  .next (s.inPool fun s => s.hearMsg m 3 fun s k => s.hearVoteMsg m k)

def execOuterDigest (m : Bytes) (s : State) : Host.Outcome State Fault Refusal :=
  .next (s.inPool fun s => s.hearMsg m 4 fun s k => s.hearDigest m k)

def execOuterFinal (m : Bytes) (s : State) : Host.Outcome State Fault Refusal :=
  .next (s.inPool fun s => s.hearMsg m 5 fun s k => s.hearFinal m k)

/-- MISMATCH has persisted for MISMATCH_S: the OPEN completes, the state stays (R396). -/
def execMismatchTimeout (shard : Nat) (s : State) : Host.Outcome State Fault Refusal :=
  .next (s.inCore fun s =>
    if (s.shard shard).st = osMISMATCH then s.openDone shard stOUT_DIGEST_MISMATCH (s.shard shard).epoch else s)

def execOuterFetchMsg (m : Bytes) (s : State) : Host.Outcome State Fault Refusal :=
  .next (s.inCore fun s => s.hearMsg m 6 fun s k => s.hearFetch m k)

/-- A fetched piece has not come within 4 × LOSS_S: the next site is asked (R391). -/
def execFetchTimeout (shard piece : Nat) (s : State) : Host.Outcome State Fault Refusal :=
  .next (s.inCore fun s =>
    match ((s.shard shard).piece piece).fetch with
      | some f =>
        let sites := if f.sites.isEmpty then s.holdersOf (s.shard shard) piece f.want else f.sites.drop 1 ++ f.sites.take 1
        (s.onPiece shard piece fun x => { x with fetch := some { f with sites := sites } }).sendFetch shard piece
      | none => s)

def execOuterPieceReceive (tag data : Bytes) (s : State) : Host.Outcome State Fault Refusal :=
  .next (s.inPool fun s => s.pieceReceive tag data)

def execOuterPieceStepDone (shard piece : Nat) (s : State) : Host.Outcome State Fault Refusal :=
  .next (s.inPool fun s => s.pieceStep shard piece)

/-- CLR of `OUT.STAT_SEL` (R401). -/
def execOutStatClr (v : View) (w : Word) (s : State) : Host.Outcome State Fault Refusal :=
  .next (s.selClear v .out 0x300 w fun sel s => s.setFld Reg.OUT_STAT_VALUE_VALUE (bitsOf sel 0 4) 0)

end Sys2Proof.Machine
end

