-- ==== Sys2Proof/Machine/Plans.lean ====
section
/-!
DEFINITION. Race plans (R299 to R320): the plan binary and its check, heats and strokes, catches of entries, output and
bench reservations, pace announcements, and the end of a plan.
-/

namespace Sys2Proof.Machine

/-! ### Slots -/

def State.plan (s : State) (n : Nat) : PlanSlot := s.plans.getD n {}
def State.setPlan (s : State) (n : Nat) (p : PlanSlot) : State := { s with plans := s.plans.put n p }
def State.onPlan (s : State) (n : Nat) (f : PlanSlot → PlanSlot) : State := s.setPlan n (f (s.plan n))

/-! ### Contexts pinned (R239) -/

/-- Contexts that the bench reservations of a plan name: the members and uplinks of its operations' groups. -/
def State.planCtxs (s : State) (b : Bytes) : List Nat :=
  ((List.range (pOpCount b)).flatMap fun i =>
    match s.collGroup (poGroup (pOp b i)) with
    | none => []
    | some r =>
      let up := if gRoot r then [] else [gUplink r]
      up ++ (List.range (gCount r)).filterMap fun m => s.memberCtx r m).foldl (fun l c => withElem l c) []

/-- A plan's contexts are pinned. A pinned context is in the cache (R239). -/
def State.pin (s : State) (b : Bytes) : State :=
  (s.planCtxs b).foldl (fun s n => match s.ctx? n with
    | some c =>
      let s1 := s.setCtx n { c with pins := c.pins + 1 }
      (s1.ctxCacheIn n).getD s1
    | none => s) s

/-- The pins of an active plan that ends are released once its last operations complete (R317). -/
def State.planRelease (s : State) (n : Nat) : State :=
  let p := s.plan n
  let keys := ((s.col.ops.filter fun o => (match o.2.plan with
    | some x => x.1 == n
    | none => false) && !(s.col.rests.any fun r => r.keys.contains o.1)).map (·.1))
  if p.st < 2 then s
  else if keys.isEmpty then s.unpin (s.planCtxs p.bin)
  else s.onCol fun c => { c with rests := c.rests ++ [{ bin := p.bin, keys := keys, ctxs := s.planCtxs p.bin }] }

/-- A set at its catch opens a context (R237); one that an active plan names is pinned from then on (R239). -/
def State.ctxCreate (s : State) (n : Nat) : State :=
  let pins := (s.plans.filter fun p => decide (2 ≤ p.2.st) && (s.planCtxs p.2.bin).contains n).length +
    (s.col.rests.filter fun r => r.ctxs.contains n).length
  let s1 := s.setCtx n { pins := pins }
  if pins = 0 then s1 else (s1.ctxCacheIn n).getD s1

/-! ### Output reservations (R222, R313) -/

/-- The plan holds output reservations at its ports, or gives them up (R222, R308). -/
def State.holdPorts (s : State) (n : Nat) (hold : Bool) : State :=
  let p := s.plan n
  (planPorts p.bin).foldl (fun s q =>
    let x := s.portSt q
    if hold then s.setPortSt q { x with gates := withElem x.gates n }
    else s.setPortSt q { x with
      gates := without x.gates n
      window := if x.windowSlot = n then [] else x.window }) s

/-! ### Catches and windows of the present stroke (R307, R308, R313) -/

/-- The catch time of an entry of the present stroke: at its offset, or at once in a late heat. -/
def PlanSlot.due (p : PlanSlot) (e : Nat) : Nat :=
  p.strokeStart.getD 0 + (if p.late then 0 else peOffset (pEntry p.bin e))

/-- An entry is a catch. -/
def PlanSlot.isCatch (p : PlanSlot) (e : Nat) : Bool :=
  let t := peType (pEntry p.bin e)
  t == 3 || t == 4 || t == 5

/-- Catches of the present stroke that have not fired, in the order in which they do. -/
def PlanSlot.catches (p : PlanSlot) : List Nat :=
  if p.st < 2 ∨ p.inHeat = false ∨ p.strokeStart.isNone = true then []
  else sortBy (fun a b => decide (p.due a < p.due b) || (p.due a == p.due b && decide (a ≤ b)))
    ((strokeEntries p.bin p.stroke).filter fun e => p.isCatch e && !p.fired.has e)

/-- A reserved window opens (R222, R313). -/
def State.windowOpen (s : State) (n e : Nat) : State :=
  let p := s.plan n
  let x := pEntry p.bin e
  if p.st < 2 ∨ p.inHeat = false ∨ p.late = true ∨ p.strokeStart.isNone = true ∨
      (strokeEntries p.bin p.stroke).contains e = false ∨ peType x ≠ 1 ∨ p.fired.has e = true ∨ s.reached (p.due e) = false
  then s
  else
    let q := s.portSt (pePort x)
    (s.setPlan n { p with fired := p.fired.put e .satisfied }).setPortSt (pePort x) { q with
      window := peQueues x, windowSlot := n, windowFirst := some (p.due e) }

/-- A reserved window closes; class T frames left queued count as an overrun (R222, R316). -/
def State.windowClose (s : State) (n e : Nat) : State :=
  let p := s.plan n
  let x := pEntry p.bin e
  let q := s.portSt (pePort x)
  if p.st < 2 ∨ peType x ≠ 1 ∨ p.fired.has e = false ∨ q.window.isEmpty = true ∨ q.windowSlot ≠ n ∨
      s.reached (p.due e + peLength x) = false then s
  else
    let left := q.window.any fun k => s.queueClass k == 0 && !(s.outq k).deps.isEmpty
    let s1 := if left then s.planOverrun n else s
    s1.setPortSt (pePort x) { s1.portSt (pePort x) with window := [], windowFirst := none }

/-- Windows of the present stroke that still stand open as it ends close. -/
def State.closeWindows (s : State) (n : Nat) : State :=
  let p := s.plan n
  (strokeEntries p.bin p.stroke).foldl (fun s e => s.windowClose n e) s

/-! ### Gates (R304, R307) -/

/-- A planned operation's key in a heat. -/
def poKey (r : Bytes) (h : Nat) : Nat × Nat := (poGroup r, poBase r + h * poStep r)

/-- The reference a run or a release of an entry carries. -/
def PlanSlot.ref (p : PlanSlot) (n e : Nat) : PlanRef := (n, p.heat, p.stroke, e)

/-- An entry's gate is satisfied, or it has none. -/
def State.gateMet (s : State) (n e : Nat) : Bool :=
  let p := s.plan n
  let x := pEntry p.bin e
  let fired := p.fired.has e
  match peType x with
  | 2 =>
    if peGate x then
      let (g, q) := poKey (pOp p.bin (peOp x)) p.heat
      match s.collOp g q with
      | some o => (List.range (peCount x)).all fun i => o.complete.contains (peFirst x + i) || o.done.contains (peFirst x + i)
      | none => s.collDone g q
    else true
  | 3 => p.fired.find e == some .satisfied
  | 4 =>
    fired && (!peGate x ||
      (let c := s.tctx (peCtx x)
       !((c.cur.toList ++ c.queue).any fun r => r.plan == some (p.ref n e))))
  | 5 => fired && (!peGate x || !s.linePending (peLine x).1 (p.ref n e))
  | _ => true

/-- The end of the present stroke E(h, s) as far as the clock gives it (R307, R308). -/
def PlanSlot.strokeEnd (p : PlanSlot) : Nat := p.strokeStart.getD 0 + (if p.late then 0 else pPitch p.bin)

/-- The present stroke has ended: its time has passed, its catches have fired and its gates are met. -/
def State.strokeOver (s : State) (n : Nat) : Bool :=
  let p := s.plan n
  p.strokeStart.isSome && s.reached p.strokeEnd && (strokeEntries p.bin p.stroke).all (s.gateMet n)

/-! ### Bench reservations and planned operations (R314, R315) -/

/-- The operation of a bench reservation of stroke `at_.1`, entry `at_.2`, enters the table, once the watermark is near enough and
an entry is free. -/
def State.planOpStart (s : State) (n : Nat) (at_ : Nat × Nat) (i : Nat) : State :=
  let p := s.plan n
  let r := pOp p.bin i
  let (g, q) := poKey r p.heat
  if (s.collOp g q).isSome || s.collDone g q || decide ((s.grpState g).doneNext + 63 < q) then s
  else if s.fld Reg.TPT_OPTAB_CFG_PLAN_RESERVE ≤ s.planEntriesHeld then s
  else
    let spec := if poCode r ≤ 2 then parseSpec (getLE r 0x0C 4) else none
    s.setCollOp {
      group := g, seq := q, code := poCode r, spec := spec, chunks := poChunks r, param := getLE r 0x14 4
      plan := some (n, p.heat, i), catch_ := some at_, domain := getLE r 0x20 2 % 4096, log := getLE r 0x18 8
      entries := bitAt (getLE r 0x03 1) 0, chunkCq := (s.cqRing 0 (getLE r 0x22 2 % 4096)).getD 0
      fmt := (spec.map (·.result)).getD 0, admission := .admitted, since := s.nowNs }

/-- Operations that the strokes so far of a plan's present heat reserve chunks of, as wanted in the table, with the stroke and
the entry that reserve. -/
def State.planOpsWanted (s : State) (n : Nat) : List ((Nat × Nat) × Nat) :=
  let p := s.plan n
  if p.st < 2 ∨ p.inHeat = false ∨ p.strokeStart.isNone = true then []
  else ((List.range (p.stroke + 1)).flatMap fun t => (strokeEntries p.bin t).filterMap fun e =>
    let x := pEntry p.bin e
    if peType x = 2 then some ((t, e), peOp x) else none)

/-- Planned operations and runs that wait for the watermark or for an entry of the table start when they can. -/
def State.planOpsRetry (s : State) : State :=
  ((List.range 4).foldl (fun (s : State) n => (s.planOpsWanted n).foldl (fun s w => s.planOpStart n w.1 w.2) s) s).openPlanned.runsEnter

/-- A BENCH_RES entry opens a bay for each of its chunks, or waits for them (R314). -/
def State.benchRes (s : State) (n e : Nat) : State :=
  let p := s.plan n
  let x := pEntry p.bin e
  let (g, q) := poKey (pOp p.bin (peOp x)) p.heat
  let s1 := s.planOpStart n (p.stroke, e) (peOp x)
  let s2 := if s.fld Reg.TPT_OPTAB_CFG_PLAN_RESERVE ≤ s.planEntriesHeld && (s1.collOp g q).isNone && !s.collDone g q then
      s1.planOverrun n else s1
  let want := (List.range (peCount x)).map fun i => (g, q, peFirst x + i)
  s2.onCol fun c => { c with bayWaits := c.bayWaits ++ want }

/-! ### Rigs and plan ends that touch each other -/

/-- A rig, by its descriptor, as long as it is VALID or STAGED. -/
def State.rigOf (s : State) (k : OpKey) : Option Rig := s.rig.rigs.find? fun r => r.key == k && decide (r.st ≤ 2)
def State.onRigs (s : State) (f : List Rig → List Rig) : State := { s with rig := { s.rig with rigs := f s.rig.rigs } }

/-- RIG descriptors that name a plan slot as their catch (R311): the slot, or none. -/
def planCatch (d : Bytes) : Option Nat :=
  if rCatchKind d = 1 ∧ rCatchSec d = 0xFFFFFFFFFFFF then some (rCatchNs d % 4) else none

/-- A rig completes REJECTED with a status. -/
def State.rigReject (s : State) (k : OpKey) (status : Nat) : State :=
  let id := match s.op? k with
    | some o => rRigId o.desc
    | none => 0
  (s.onRigs fun l => l.filter fun r => !(r.key == k && decide (r.st ≤ 2))).endOp k { status := status, ext := 4, value := id }

/-- A rig leaves STAGED other than by going LIVE: the rigs that depend on it miss their catch too (R552). -/
def State.rigDrop (k : OpKey) (status : Nat) : Nat → State → State
  | 0, s => s
  | f + 1, s =>
    match s.rigOf k with
    | none => s.rigReject k status
    | some r =>
      let hit := s.rig.rigs.filter fun x => decide (x.st ≤ 2) && x.deps.contains r.order
      hit.foldl (fun s x => State.rigDrop x.key stRIG_CATCH_MISSED f s) (s.rigReject k status)

def State.dropRig (s : State) (k : OpKey) (status : Nat) : State := State.rigDrop k status (s.rig.rigs.length + 1) s

/-- Plan-caught rigs of a slot that have not been caught miss their catch (R317). -/
def State.planRigsMissed (s : State) (n : Nat) : State :=
  let staged := (s.rig.rigs.filter fun r => decide (r.st ≤ 2) && r.catch_ == .plan n).map (·.key)
  let taken := ((s.hif.ops.map (·.2)).filter fun o => o.waits && dKind o.desc == kindRIG && planCatch o.desc == some n).map (·.key)
  let s1 := staged.foldl (fun s k => s.dropRig k stRIG_CATCH_MISSED) s
  taken.foldl (fun s k => s.rigReject k stRIG_CATCH_MISSED) s1

/-- A plan ends (R317): 0 HEAT_COUNT reached, 1 unload, 2 swap, 3 OP_SEQ limit. -/
def State.planEnd (s : State) (n cause : Nat) : State :=
  let p := s.plan n
  let s1 := ((s.holdPorts n false).planRelease n).setPlan n { lateMax := p.lateMax }
  (s1.raise Ev.PLAN_ENDED n (cause + p.heat % 2 ^ 32 * 2 ^ 32)).planRigsMissed n

/-! ### Heats (R306 to R310) -/

/-- Every planned operation of a heat keeps its OP_SEQ within 32 bits (R303). -/
def heatFits (b : Bytes) (h : Nat) : Bool :=
  (List.range (pOpCount b)).all fun i => decide ((poKey (pOp b i) h).2 < 2 ^ 32)

/-- A heat begins at a time: the plan holds its reservations and its first stroke is next. -/
def State.heatBegin (s : State) (n h start : Nat) : State :=
  let s1 := s.onPlan n fun p => { p with
    heat := h, heatStart := start, inHeat := true, late := false, lateNow := 0, stroke := 0, strokeStart := none, fired := []
    adopted := p.adopted.filter fun a => decide (h < a.1), paceSeen := p.paceSeen.filter fun x => decide (h ≤ x) }
  s1.holdPorts n true

/-- A plan becomes ACTIVE with H(0) (R306). -/
def State.planActivate (s : State) (n h0 : Nat) : State :=
  ((s.onPlan n fun p => { p with st := 2, h0 := h0 }).pin (s.plan n).bin).heatBegin n 0 h0

/-- A staged plan that replaces the one of a slot at its next heat boundary. -/
def State.swapFor (s : State) (n : Nat) : Option Nat :=
  (List.range 4).find? fun m =>
    let p := s.plan m
    let b := (s.plan n).nextHeat
    p.st == 1 && p.replaces == some n && decide (pStart p.bin ≤ b) && decide (p.stagedAt ≤ b)

/-- PLAN_START: the start or the heat boundary of a staged plan arrives; no plan runs before READY (R63). -/
def State.planStart (s : State) (n : Nat) : State :=
  let p := s.plan n
  if p.st ≠ 1 ∨ s.stage < 9 then s
  else
    let r := p.replaces.getD 4
    if (s.plan r).st ≥ 2 ∨ (p.replaces.isSome = true ∧ (s.plan r).st = 1) then
      let x := s.plan r
      if x.st ≥ 2 ∧ x.inHeat = false ∧ s.swapFor r = some n ∧ s.reached x.nextHeat = true then
        (s.planEnd r 2).planActivate n x.nextHeat
      else s
    else
      let t := p.firstStart
      if s.reached t then
        (if pStart p.bin < p.stagedAt then s.planCount n 6 else s).planActivate n t
      else s

/-- HEAT_START: the next heat starts, or the plan ends before it (R309, R317). -/
def State.heatStart (s : State) (n : Nat) : State :=
  let p := s.plan n
  if p.st < 2 ∨ p.inHeat = true ∨ s.reached p.nextHeat = false ∨ (s.swapFor n).isSome = true then s
  else if p.st = 3 then s.planEnd n 1
  else s.heatBegin n (p.heat + 1) p.nextHeat

/-- HEAT_END: the last stroke has ended at F(h) (R309, R310, R317). -/
def State.heatEnd (s : State) (n : Nat) : State :=
  let p := s.plan n
  if p.st < 2 ∨ p.inHeat = false ∨ p.stroke + 1 ≠ pStrokes p.bin ∨ s.strokeOver n = false then s
  else
    let f := max p.strokeEnd s.nowNs
    let due := p.heatStart + pPeriod p.bin
    let next := max due (p.grid f)
    let s1 := (s.closeWindows n).onPlan n fun p => { p with inHeat := false, next := next }
    if p.st = 3 then s1.planEnd n 1
    else if pHeatCount p.bin ≠ 0 ∧ p.heat + 1 = pHeatCount p.bin then s1.planEnd n 0
    else if !heatFits p.bin (p.heat + 1) then s1.planEnd n 3
    else
      let h1 := (s1.plan n).nextHeat
      if due < h1 ∧ s.flag Reg.PLN_PLAN_CFG_ANNOUNCE = true ∧ (s.paceGroup (pSetId p.bin)).isSome = true then
        (s1.announce (pSetId p.bin) (pPeriod p.bin) (p.heat + 1) h1).planCount n 3
      else s1

/-! ### Strokes (R307, R308) -/

/-- Lateness of a stroke that starts; beyond the budget the heat is late (R308). -/
def State.strokeLate (s : State) (n lateness : Nat) : State :=
  let p := s.plan n
  let s1 := s.setPlan n { p with lateNow := lateness, lateMax := max p.lateMax lateness }
  if pBudget p.bin < lateness ∧ p.late = false then
    (((s1.onPlan n fun p => { p with late := true }).planCount n 1).raise Ev.PLAN_LATE n
      (p.stroke % 2 ^ 16 + p.heat % 2 ^ 32 * 2 ^ 32)).holdPorts n false
  else s1

/-- STROKE_START: at its scheduled start or the end of the stroke before. -/
def State.strokeStart (s : State) (n : Nat) : State :=
  let p := s.plan n
  let first := p.strokeStart.isNone
  let i := if first then 0 else p.stroke + 1
  let sched := p.heatStart + i * pPitch p.bin
  let at_ := if first then sched else max sched p.strokeEnd
  if p.st < 2 ∨ p.inHeat = false ∨ pStrokes p.bin ≤ i ∨ s.reached at_ = false ∨ (first = false ∧ s.strokeOver n = false) then s
  else
    let a := if first then at_ else max at_ s.nowNs
    let s1 := (s.closeWindows n).onPlan n fun p => { p with stroke := i, strokeStart := some a, fired := [] }
    let s2 := s1.strokeLate n (a - sched)
    let s3 := if (s2.plan n).late then s2 else s2.holdPorts n true
    let bench := (strokeEntries p.bin i).filter fun e => peType (pEntry p.bin e) == 2
    (bench.foldl (fun s e => s.benchRes n e) s3).collSettle

/-! ### PACE (R310, R537) -/

/-- An announcement acts on the active plans whose PLAN_SET_ID it names. -/
def State.adopt (s : State) (id period heat start : Nat) : State :=
  (List.range 4).foldl (fun (s : State) n =>
    let p := s.plan n
    if p.st < 2 ∨ pSetId p.bin ≠ id ∨ p.paceSeen.contains heat = true then s
    else
      let s1 := s.setPlan n { p with paceSeen := p.paceSeen ++ [heat] }
      if pPeriod p.bin ≠ period then (s1.planCount n 5).raise Ev.PLAN_SET_MISMATCH n id
      else if !s.flag Reg.PLN_PLAN_CFG_ADOPT then s1
      else
        let h := heat - 1
        let (target, t) := if p.heat ≤ h then (h + 1, p.grid start) else (h + 2, p.grid (start + period))
        let s2 := s1.onPlan n fun p => { p with adopted := p.adopted.put target (max t (p.adopted.getD target 0)) }
        s2.planCount n 4) s

/-! ### The rows -/

def execPlanStart (slot : Nat) (s : State) : Host.Outcome State Fault Refusal :=
  .next (s.inCore fun s => s.planStart slot)

def execStrokeStart (slot : Nat) (s : State) : Host.Outcome State Fault Refusal :=
  .next (s.inPool fun s => s.strokeStart slot)

def execHeatStart (slot : Nat) (s : State) : Host.Outcome State Fault Refusal :=
  .next (s.inCore fun s => s.heatStart slot)

def execHeatEnd (slot : Nat) (s : State) : Host.Outcome State Fault Refusal :=
  .next (s.inPool fun s => s.heatEnd slot)

def execReservedWindowOpen (slot entry : Nat) (s : State) : Host.Outcome State Fault Refusal :=
  .next (s.inCore fun s => s.windowOpen slot entry)

def execReservedWindowClose (slot entry : Nat) (s : State) : Host.Outcome State Fault Refusal :=
  .next (s.inCore fun s => s.windowClose slot entry)

/-- CLR of `PLN.SLOT_SEL`: every counter of the slot and its largest lateness (R320). -/
def execPlnSlotClr (v : View) (w : Word) (s : State) : Host.Outcome State Fault Refusal :=
  .next (s.selClear v .pln 0x100 w fun sel s =>
    let n := bitsOf sel 0 2
    let s1 := (List.range 8).foldl (fun (s : State) c => s.setFld Reg.PLN_SLOT_STAT_VALUE (n + 16 * c) 0) s
    s1.onPlan n fun p => { p with lateMax := 0 })

end Sys2Proof.Machine
end

