-- ==== Sys2Proof/Machine/RigCheck.lean ====
section
/-!
DEFINITION. The validation of rigs (R19, R198, R199, R237, R274, R301, R332, R373, R519, R551, R552, R555): records, the
tables as they will stand at a catch, and every refusal.
-/

namespace Sys2Proof.Machine

/-! ### Records (R198, R551) -/

def rTab (r : Bytes) : Nat := getLE r 0 1
def rAct (r : Bytes) : Nat := getLE r 1 1
def rLen (r : Bytes) : Nat := getLE r 2 2
def rKey (r : Bytes) : Nat := getLE r 4 4

/-- The records of a bundle, with fuel for its bytes; none where it is malformed. -/
def recordsOf : Nat → Bytes → Option (List Bytes)
  | 0, b => if b.isEmpty then some [] else none
  | f + 1, b =>
    if b.length < 8 ∨ allZero (b.take 8) = true then (if allZero b then some [] else none)
    else if rLen b < 8 ∨ b.length < rLen b then none
    else (recordsOf f (b.drop (rLen b))).map fun l => b.take (rLen b) :: l

/-- A route's key: family, prefix length and prefix. -/
def routeKey (r : Bytes) : Nat := (getLE r 0x08 1 * 256 + getLE r 0x09 1) * 2 ^ 128 + natBE (sliceB r 0x10 16)

/-- The entry a record names. -/
def entryOf (r : Bytes) : Nat × Nat := (rTab r, if rTab r = 0x11 then routeKey r else rKey r)

/-- The length a record needs (R198 and the owning chapters); none where table or action is unknown. -/
def recLength (r : Bytes) : Option Nat :=
  if rAct r = 1 then
    (if rTab r = 0x11 then some 32
     else if [0x10, 0x12, 0x13, 0x14, 0x15, 0x16, 0x20, 0x30, 0x31, 0x32, 0x60, 0x61, 0x70, 0x71].contains (rTab r) then some 8
     else none)
  else if rAct r ≠ 0 then none
  else match rTab r with
    | 0x10 => some 32
    | 0x11 => some 32
    | 0x12 => some 16
    | 0x13 => some 16
    | 0x14 => some (16 + 4 * getLE r 0x08 1)
    | 0x15 => some 88
    | 0x16 => some 24
    | 0x20 => some 40
    | 0x30 => some 48
    | 0x31 => some (16 + 4 * getLE r 0x08 2)
    | 0x32 => some (16 + 2 * getLE r 0x08 2)
    | 0x40 => some 24
    | 0x50 => some 40
    | 0x51 => some 48
    | 0x60 => some 96
    | 0x61 => some 32
    | 0x70 => some 64
    | 0x71 => some (16 + 32 * getLE r 0x08 2)
    | _ => none

/-- Entries of a table: a KEY is below this number. -/
def tableSize (t : Nat) : Nat :=
  match t with
  | 0x10 => 64
  | 0x11 => 1
  | 0x12 => 16384
  | 0x13 => 576
  | 0x14 => 4096
  | 0x15 => 8192
  | 0x16 => 1024
  | 0x20 => 262144
  | 0x30 => 16384
  | 0x31 => 1048576
  | 0x32 => 1024
  | 0x40 => 4
  | 0x50 => 64
  | 0x51 => 64
  | 0x60 => 16
  | 0x61 => 1
  | 0x70 => 16
  | 0x71 => 65536
  | _ => 0

/-- An address family and what it allows: bytes 0x14 to 0x1F of an IPv4 address are 0. -/
def afOk (r : Bytes) : Bool := getLE r 8 1 == 6 || (getLE r 8 1 == 4 && allZero (sliceB r 0x14 12))

/-- Bits of a prefix beyond its length are 0. -/
def prefixOk (r : Bytes) : Bool :=
  let w := if getLE r 8 1 = 4 then 32 else 128
  let n := getLE r 9 1
  afOk r && decide (n ≤ w) && natBE (sliceB r 0x10 (w / 8)) % 2 ^ (w - n) == 0

/-- Every field of a shard record lies in its range (R372, R373). -/
def shardOk (r : Bytes) (sites : Nat) : Bool :=
  decide (1 ≤ hRuns r) && decide (hRuns r ≤ 65536) && decide (1 ≤ hElements r) && decide (hElements r ≤ 10 ^ 13) &&
    decide (hPieces r ≤ 65536) && decide (1 ≤ hSpares r) && decide (hSpares r ≤ 16) &&
    decide (hSpares r * sites ≤ hDeltaSlots r) && decide (hShift r ≤ 7) && decide (hCap r ≤ 1024) &&
    decide (getLE r 0x18 2 < 4096) && decide (getLE r 0x22 2 < 16384) &&
    (List.range 4).all (fun i => decide (hCtx r i < 64)) &&
    [hSnapArea r, hMomArea r, hDeltaArea r, hWorkArea r].all (fun a => a % 65536 == 0) &&
    (match parseSpec (hSpec r) with
     | some sp => sp.result == 0 || sp.result == 1
     | none => false)

/-- Every site's line group that the topology needs is one (R373). -/
def shardLinesOk (r sites : Bytes) : Bool :=
  let me := siteLocal sites
  let n := siteCount sites
  (List.range n).all fun i =>
    let needed := i != me && (siteTopology sites == 0 || i == (me + 1) % n)
    !needed || decide (hLine r i < 16)

/-- A sites record is good (R372, R373). -/
def sitesOk (r : Bytes) : Bool :=
  decide (1 ≤ siteCount r) && decide (siteCount r ≤ 16) && decide (siteLocal r < siteCount r) &&
    decide (siteTiebreak r < siteCount r) && decide (siteTopology r ≤ 1) &&
    decide (0 < sumOf ((List.range (siteCount r)).map (siteWeight r)))

/-- The fields of a set record that stand alone lie in their ranges. -/
def fieldsOk (r : Bytes) : Bool :=
  match rTab r with
  | 0x10 => afOk r
  | 0x11 => prefixOk r && decide (getLE r 0x0A 2 < 16384)
  | 0x12 =>
    let t := getLE r 0x0A 2
    match getLE r 8 1 with
    | 0 => true
    | 1 => decide (t < 576)
    | 2 => decide (t < 4096)
    | 3 => decide (t < 8192)
    | _ => false
  | 0x13 => decide (getLE r 0x0E 2 ≤ 4094)
  | 0x14 =>
    let m := sgMembers r
    decide (1 ≤ m.length) && decide (m.length ≤ 64) && decide (getLE r 9 1 ≤ 15) &&
      m.all (fun x => decide (x.1 < 576) && decide (1 ≤ x.2) && decide (x.2 ≤ 15)) && decide (m.map (·.1)).Nodup
  | 0x15 =>
    let n := ((List.range 576).filter fun p => bitAt (getLE r (0x10 + p / 8) 1) (p % 8)).length
    decide (getLE r 8 1 ≤ 1) && decide (1 ≤ n) && decide (n ≤ 512)
  | 0x16 =>
    let c := getLE r 0x0C 1
    let g := (List.range 8).map fun i => getLE r (0x10 + i) 1
    getLE r 8 2 != getLE r 0x0A 2 && decide (1 ≤ c) && decide (c ≤ 8) && (g.take c).all (fun x => decide (x < 64)) &&
      (g.drop c).all (· == 0xFF) && decide (g.take c).Nodup
  | 0x20 =>
    decide (getLE r 0x18 4 < 262144) && decide (cClass r ≤ 3) && decide (cTc r ≤ 7) && decide (cGen r ≤ 15) &&
      decide (cSrcLocal r ≤ 63) && decide (cDscp r ≤ 63)
  | 0x30 =>
    decide (1 ≤ gCount r) && decide (gCount r ≤ 4096) && decide (gMcast r < 8192) &&
      decide (gBase r + gCount r ≤ 1048576) && decide (gResCtx r < 262144) &&
      (gRoot r || decide (gUplink r < 262144)) && decide (gUpMember r ≤ 4095)
  | 0x31 => decide (1 ≤ getLE r 8 2) && decide (getLE r 8 2 ≤ 256) && decide (rKey r + getLE r 8 2 ≤ 1048576)
  | 0x32 =>
    let n := getLE r 8 2
    let d := (List.range n).map fun i => getLE r (0x10 + 2 * i) 2
    decide (1 ≤ n) && decide (n ≤ 4096) && decide (getLE r 0x0C 4 + n ≤ 1048576) && d.all (fun x => decide (x < n)) &&
      decide d.Nodup
  | 0x61 => sitesOk r
  | 0x70 =>
    jJob r != 0 && decide (1 ≤ jCount r) && decide (jCount r ≤ 4096) && decide (jSelf r < jCount r) &&
      decide (jBase r + jCount r ≤ 65536) && decide ((jDomains r).1 + (jDomains r).2 ≤ 4096) &&
      decide ((jColls r).1 + (jColls r).2 ≤ 16384) && decide ((jCtxs r).1 + (jCtxs r).2 ≤ 262144) && decide (jTc r ≤ 7)
  | 0x71 => decide (1 ≤ getLE r 8 2) && decide (getLE r 8 2 ≤ 256) && decide (rKey r + getLE r 8 2 ≤ 65536)
  | 0x51 => decide (getLE r 8 1 ≤ 1) && (getLE r 0x0A 2 == 0xFFFF || decide (getLE r 0x0A 2 < 4096))
  | _ => true

/-! ### Tables at a catch (R552) -/

/-- The tables of a rig: table code and key, and the record. -/
abbrev Tables := AMap (Nat × Nat) Bytes

/-- Single entries of a member block: the internal table, its first key and the entries. -/
def blockEntries (r : Bytes) : List ((Nat × Nat) × Bytes) :=
  if rTab r = 0x31 then
    (List.range (getLE r 8 2)).map fun i => ((tabMember, rKey r + i), sliceB r (0x10 + 4 * i) 4)
  else if rTab r = 0x71 then
    (List.range (getLE r 8 2)).map fun i => ((tabFltMember, rKey r + i), sliceB r (0x10 + 32 * i) 32)
  else []

/-- Plans, programs and runs are no entries of a table. -/
def isTable (t : Nat) : Bool := t != 0x40 && t != 0x50 && t != 0x51

/-- The entries a record sets. -/
def writesOf (r : Bytes) : List (Nat × Nat) :=
  if rTab r = 0x51 then [] else entryOf r :: (blockEntries r).map (·.1)

/-- The entries a record writes in the tables it meets: those it sets, or those its delete removes. -/
def writesIn (t : Tables) (r : Bytes) : List (Nat × Nat) :=
  if rAct r = 1 ∧ isTable (rTab r) = true then entryOf r :: (blockEntries ((t.find (entryOf r)).getD [])).map (·.1)
  else writesOf r

/-- The tables after a record. A delete of a member block (0x31, 0x71) carries no COUNT: it removes every entry of the block
last set at its KEY (notes/assumptions/159.md). -/
def applyRec (t : Tables) (r : Bytes) : Tables :=
  if !isTable (rTab r) then t
  else if rAct r = 1 then
    let old := (t.find (entryOf r)).getD []
    (blockEntries old).foldl (fun (m : Tables) e => m.del e.1) (t.del (entryOf r))
  else (blockEntries r).foldl (fun (m : Tables) e => m.put e.1 e.2) (t.put (entryOf r) r)

/-- A rig that comes before another by catch time and submission. -/
def Rig.before (a b : Rig) : Bool :=
  match a.catch_, b.catch_ with
  | .time x, .time y => decide (x < y) || (x == y && decide (a.order < b.order))
  | _, _ => false

/-- STAGED rigs whose catch is certain to come before a rig's, in that order. -/
def State.earlierRigs (s : State) (r : Rig) : List Rig :=
  sortBy (fun a b => a.before b || a.order == b.order) (s.rig.rigs.filter fun x => x.st == 2 && x.before r)

def applyRig (t : Tables) (r : Rig) : Tables := r.recs.foldl applyRec t

/-- The entries a rig writes in the tables it meets. -/
def rigWrites (t : Tables) (r : Rig) : List (Nat × Nat) :=
  (r.recs.foldl (fun (a : Tables × List (Nat × Nat)) x => (applyRec a.1 x, a.2 ++ writesIn a.1 x)) (t, [])).2

/-- The entries a rig writes, and the pair whose groups an internal rig marks (R19, R212). -/
def rigTouches (t : Tables) (r : Rig) : List (Nat × Nat) :=
  rigWrites t r ++ (match r.bypass with
    | some p => [(0x16, p)]
    | none => [])

/-- The tables as they stand before a rig's catch. -/
def State.tablesBefore (s : State) (r : Rig) : Tables := (s.earlierRigs r).foldl applyRig s.swc.tab

/-- The state with other tables, to judge by. -/
def State.withTab (s : State) (t : Tables) : State := { s with swc := { s.swc with tab := t } }

/-- A context would be OPEN: its record stands, and it has not failed. -/
def State.wouldOpen (s : State) (t : Tables) (n : Nat) : Bool :=
  t.has (0x20, n) && !(match s.ctx? n with
    | some c => c.failed
    | none => false)

/-! ### Checks of whole tables (R199, R274) -/

/-- Routes, next hops and collective groups name entries that are there. -/
def refsOk (t : Tables) : Bool :=
  t.all fun e =>
    match e.1.1 with
    | 0x11 => t.has (0x12, getLE e.2 0x0A 2)
    | 0x12 => (match getLE e.2 8 1 with
      | 2 => t.has (0x14, getLE e.2 0x0A 2)
      | 3 => t.has (0x15, getLE e.2 0x0A 2)
      | _ => true)
    | 0x30 => t.has (0x15, gMcast e.2)
    | _ => true

/-- Fabric ports that a next-hop, spray or multicast record names. -/
def portsNamed (r : Bytes) : List Nat :=
  if rAct r = 1 then []
  else match rTab r with
    | 0x12 => if getLE r 8 1 = 1 then [getLE r 0x0A 2] else []
    | 0x14 => (sgMembers r).map (·.1)
    | 0x15 => (List.range 576).filter fun p => bitAt (getLE r (0x10 + p / 8) 1) (p % 8)
    | _ => []

/-- A fabric port number is in use: below the port count of its port group, or an electrical one (R161). -/
def State.portUsed (s : State) (p : Nat) : Bool := decide (512 ≤ p) || decide (p % 8 < 2 ^ s.fld Reg.OPT_PG_CFG_BREAKOUT (p / 8))

/-- IPv4 and IPv6 routes are not too many (R194). -/
def routesFit (t : Tables) : Bool :=
  let n := fun af => (t.filter fun e => e.1.1 == 0x11 && getLE e.2 8 1 == af).length
  decide (n 6 ≤ 65536) && decide (n 4 ≤ 32768)

/-- The contexts of a group's members, where every entry is there. -/
def groupCtxs (t : Tables) (r : Bytes) : Option (List Nat) :=
  (List.range (gCount r)).mapM fun i => (t.find (tabMember, gBase r + i)).map fun b => getLE b 0 4

/-- A collective group stands well: its members are OPEN contexts, each once, and its uplink is OPEN (R274). -/
def State.groupOk (s : State) (t : Tables) (r : Bytes) : Bool :=
  (gRoot r || s.wouldOpen t (gUplink r)) &&
    (match groupCtxs t r with
     | some l => l.all (s.wouldOpen t) && decide l.Nodup
     | none => false)

/-- The bypass pairs stand apart: no two share a leaf pair or a port group. -/
def bypassOk (t : Tables) : Bool :=
  let l := (t.filter fun e => e.1.1 == 0x16).map fun e => (e.1.2, e.2)
  let leaves := fun (r : Bytes) => (min (getLE r 8 2) (getLE r 0x0A 2), max (getLE r 8 2) (getLE r 0x0A 2))
  let groups := fun (r : Bytes) => (List.range (getLE r 0x0C 1)).map fun i => getLE r (0x10 + i) 1
  l.all fun a => l.all fun b =>
    a.1 == b.1 || (leaves a.2 != leaves b.2 && (groups a.2).all fun g => !(groups b.2).contains g)

/-- Permutations do not share entries of their store (R274). -/
def permsOk (t : Tables) : Bool :=
  let l := (t.filter fun e => e.1.1 == 0x32).map fun e => (e.1.2, getLE e.2 0x0C 4, getLE e.2 8 2)
  l.all fun a => l.all fun b => a.1 == b.1 || decide (a.2.1 + a.2.2 ≤ b.2.1) || decide (b.2.1 + b.2.2 ≤ a.2.1)

/-! ### What stands in the way of a record -/

/-- Plans that are resident, with their slots and the slots they replace: those of the slots and those that STAGED rigs
load. -/
def State.resident (s : State) : List (Nat × Bytes × Option Nat) :=
  let live := (List.range 4).filterMap fun n =>
    let p := s.plan n
    if p.st = 0 then none else some (n, p.bin, p.replaces)
  let staged := (s.rig.rigs.filter fun r => r.st == 2).flatMap fun r =>
    (r.recs.mapIdx fun i x => (i, x)).filterMap fun (i, x) =>
      if rTab x = 0x40 ∧ getLE x 8 1 = 0 then
        some (rKey x, (r.blobs.find i).getD [], if getLE x 0x0A 1 = 0xFF then none else some (getLE x 0x0A 1))
      else none
  live ++ staged

/-- Operations of a group are admitted, waiting or spilled, or a resident plan reserves them. -/
def State.groupBusy (s : State) (g : Nat) : Bool :=
  (s.col.ops.any fun o => o.1.1 == g) ||
    s.resident.any fun p => (List.range (pOpCount p.2.1)).any fun i => poGroup (pOp p.2.1 i) == g

/-- A permutation is named by an operation under way or by a plan. -/
def State.permBusy (s : State) (t : Nat) : Bool :=
  (s.col.ops.any fun o => o.2.code == 5 && o.2.param == t) ||
    s.resident.any fun p => (List.range (pOpCount p.2.1)).any fun i =>
      let o := pOp p.2.1 i
      poCode o == 5 && getLE o 0x14 4 == t

/-- Two scopes overlap. -/
def scopesMeet (a b : Nat × Nat) : Bool := a.2 != 0 && b.2 != 0 && decide (a.1 < b.1 + b.2) && decide (b.1 < a.1 + a.2)

/-- A group's members: single ADDRs and SERIALs, and its own entry is this device (R519). -/
def fltMembersOk (t : Tables) (r : Bytes) : Bool :=
  let l := (List.range (jCount r)).map fun i => (t.find (tabFltMember, jBase r + i)).getD []
  let self := l.getD (jSelf r) []
  l.all (fun e => e.length == 32) && decide (l.map mAddrOf).Nodup && decide (l.map mSerialOf).Nodup &&
    mSerialOf self == Config.serial &&
    (t.any fun e => e.1.1 == 0x10 && getLE e.2 8 1 == 6 && sliceB e.2 0x10 16 == mAddrOf self)

/-- A record is refused for the state of what it touches (R237, R274, R373, R519). -/
def State.recBlocked (s : State) (before after : Tables) (own : List Bytes) (r : Bytes) : Bool :=
  match rTab r with
  | 0x10 => (before.has (entryOf r)) && before.any fun e =>
      e.1.1 == 0x20 && after.has e.1 && cSrcLocal e.2 == rKey r && !(own.any fun x => entryOf x == e.1 && rAct x == 1)
  | 0x20 => rAct r == 0 && ((s.ctx? (rKey r)).isSome || (match after.find (0x10, cSrcLocal r) with
      | some a => getLE a 8 1 != 6
      | none => true))
  | 0x30 => s.groupBusy (rKey r)
  | 0x31 =>
    let old := (before.find (entryOf r)).getD []
    let keys := ((blockEntries r) ++ blockEntries old).map fun e => e.1.2
    before.any fun e => e.1.1 == 0x30 && s.groupBusy e.1.2 && keys.any fun k =>
      decide (gBase e.2 ≤ k) && decide (k < gBase e.2 + gCount e.2)
  | 0x32 => s.permBusy (rKey r)
  | 0x60 =>
    let sites := (after.find (0x61, 0)).getD []
    (s.shard (rKey r)).st != osIDLE || (s.shard (rKey r)).waiting ||
      (rAct r == 0 && (!shardOk r (siteCount sites) || !shardLinesOk r sites))
  | 0x61 => (List.range 16).any fun k => (s.shard k).st != osIDLE || (s.shard k).waiting
  | 0x70 =>
    let st := (s.fltGroup (rKey r)).st
    (before.has (0x70, rKey r) && (st == 3 || st == 5)) ||
      (rAct r == 0 && (!fltMembersOk after r || after.any fun e => e.1.1 == 0x70 && e.1.2 != rKey r &&
        (scopesMeet (jDomains e.2) (jDomains r) || scopesMeet (jColls e.2) (jColls r) || scopesMeet (jCtxs e.2) (jCtxs r))))
  | _ => false

/-! ### Plans (R301) -/

/-- A program context would be RESIDENT, or hold a run, after some records. -/
def State.wouldLoad (s : State) (recs : List Bytes) (n : Nat) : Bool :=
  let c := s.tctx n
  recs.foldl (fun (b : Bool) r => if rTab r = 0x50 ∧ rKey r = n then getLE r 8 1 == 0 else b) (c.st != csxEMPTY && !c.unload)

/-- The layout of a plan binary (reason 1). -/
def planFormat (b : Bytes) (len : Nat) : Bool :=
  let strokes := (List.range (pStrokes b)).map (pStroke b)
  let sums := strokes.foldl (fun (a : Nat × Bool) x => (a.1 + x.2, a.2 && (x.1 == a.1 || x.2 == 0))) (0, true)
  getLE b 0 4 == 0x4E414C50 && getLE b 4 2 == 1 && b.length == len &&
    len == 128 + 48 * pOpCount b + 8 * pStrokes b + 32 * pEntries b && sums.2 && sums.1 == pEntries b &&
    (List.range (pEntries b)).all fun e => decide (1 ≤ peType (pEntry b e)) && decide (peType (pEntry b e) ≤ 5)

/-- A planned operation's own fields. -/
def planOpOk (r : Bytes) : Bool :=
  decide (poCode r ≤ 5) && decide (1 ≤ poStep r) && decide (1 ≤ poChunks r) && decide (poChunks r ≤ 16777216) &&
    decide (getLE r 0 2 < 16384) && decide (getLE r 3 1 ≤ 1) && decide (getLE r 0x20 2 < 4096) &&
    decide (getLE r 0x22 2 < 4096) && allZero (sliceB r 0x24 12) && (decide (3 ≤ poCode r) || (parseSpec (getLE r 0x0C 4)).isSome)

/-- Two windows of one port in one stroke meet. -/
def windowsMeet (a b : Bytes) : Bool :=
  pePort a == pePort b && decide (peOffset a < peOffset b + peLength b) && decide (peOffset b < peOffset a + peLength a)

/-- An entry's own fields. -/
def planEntryOk (b x : Bytes) : Bool :=
  let gate := peGate x
  decide (getLE x 1 1 ≤ 1) && (match peType x with
    | 1 => !gate && decide (pePort x < 576) && decide (64 ≤ peLength x) && decide (peOffset x + peLength x ≤ pStrokeNs b)
    | 2 => decide (peOp x < pOpCount b) && decide (1 ≤ peCount x) && decide (peFirst x + peCount x ≤ poChunks (pOp b (peOp x))) &&
        peOffset x == 0
    | 3 => !gate && decide (peOffset x < pStrokeNs b)
    | 4 => decide (peCtx x < 64) && decide (peOffset x < pStrokeNs b)
    | 5 => decide ((peLine x).1 < 16) && decide ((peLine x).2 < 8) && decide (peOffset x < pStrokeNs b)
    | _ => false)

/-- The header's fields lie in their ranges. -/
def planHeaderOk (b : Bytes) : Bool :=
  pSetId b != 0 && decide (getLE b 0x10 8 < 2 ^ 48) && decide (getLE b 0x18 4 ≤ 999999999) && decide (1024 ≤ pStrokeNs b) &&
    decide (pStrokeNs b ≤ 16384) && pStrokeNs b % 64 == 0 && decide (pStrokes b ≤ 65536) && decide (pOpCount b ≤ 4096) &&
    decide (pEntries b ≤ 1048576) && decide (1 ≤ pDevices b) && decide (pDevices b ≤ 512) && decide (pDevice b < pDevices b) &&
    allZero (sliceB b 0x32 14) &&
    (List.range (pStrokes b)).all fun t => decide ((pStroke b t).2 ≤ 1024)

/-- The windows of a stroke do not overlap. -/
def strokeWindowsOk (b : Bytes) (t : Nat) : Bool :=
  let l := (strokeEntries b t).filter fun e => peType (pEntry b e) == 1
  l.all fun x => l.all fun y => x == y || !windowsMeet (pEntry b x) (pEntry b y)

/-- BENCH_RES runs of an operation: first chunk and count, by first chunk. -/
def benchRuns (b : Bytes) (i : Nat) : List (Nat × Nat) :=
  sortBy (fun a c => decide (a.1 ≤ c.1)) ((List.range (pEntries b)).filterMap fun e =>
    let x := pEntry b e
    if peType x = 2 ∧ peOp x = i then some (peFirst x, peCount x) else none)

/-- Each chunk of an operation is reserved exactly once. -/
def covered (b : Bytes) (i : Nat) : Bool :=
  let r := (benchRuns b i).foldl (fun (a : Nat × Bool) x => (a.1 + x.2, a.2 && x.1 == a.1)) (0, true)
  r.2 && r.1 == poChunks (pOp b i)

/-- A key is one of a planned operation's in a count of heats, 0 for no limit. -/
def poHas (r : Bytes) (heats g q : Nat) : Bool :=
  poGroup r == g && decide (poBase r ≤ q) && (q - poBase r) % poStep r == 0 &&
    (heats == 0 || decide ((q - poBase r) / poStep r < heats))

/-- No key of a planned operation, in any heat, is active, planned in another resident plan or done (R301). -/
def State.poKeysFree (s : State) (slot : Nat) (r : Bytes) (heats : Nat) : Bool :=
  let g := s.grpState (poGroup r)
  !(s.col.ops.any fun o => poHas r heats o.1.1 o.1.2) && decide (g.doneNext ≤ poBase r) &&
    !(g.doneAbove.any fun q => poHas r heats (poGroup r) q) &&
    s.resident.all fun p => p.1 == slot || (List.range (pOpCount p.2.1)).all fun i =>
      poApart r heats (pOp p.2.1 i) (pHeatCount p.2.1)

/-- The group, PARAM, CQ ring and keys of a planned operation are good (reason 6). -/
def State.planOpRefs (s : State) (slot : Nat) (r : Bytes) (heats : Nat) : Bool :=
  match s.collGroup (poGroup r) with
  | none => false
  | some x =>
    (poCode r == 0 || gRoot x) && s.collParamOk (poCode r) (getLE r 0x14 4) x && s.groupOk s.swc.tab x &&
      (!bitAt (getLE r 3 1) 0 || (s.cqRing 0 (getLE r 0x22 2 % 4096)).isSome) &&
      s.poKeysFree slot r heats

/-- Chunks of a run on a die (R14). -/
def chunksOn (first count d : Nat) : Nat := ((List.range count).filter fun i => (first + i) % 2 == d).length

/-- Granules of a bay of a planned operation. -/
def poGranules (r : Bytes) : Nat :=
  if poCode r ≤ 2 then match parseSpec (getLE r 0x0C 4) with
    | some sp => sp.mode.granules
    | none => 0
  else 0

/-- The peak bench use of a plan on a die: granules and arrival lines (R314). -/
def State.planPeak (s : State) (b : Bytes) (d : Nat) : Nat × Nat :=
  let n := pStrokes b
  let held := fun t => (planEntries b).filterMap fun e =>
    let x := pEntry b e.2
    if peType x = 2 then
      let times := ((List.range (peHold x + 1)).filter fun k => (e.1 + k) % n == t).length
      let c := times * chunksOn (peFirst x) (peCount x) d
      let o := pOp b (peOp x)
      some (c * poGranules o, c * s.bayLines (poGroup o))
    else none
  (maxOf ((List.range n).map fun t => sumOf ((held t).map (·.1))), maxOf ((List.range n).map fun t => sumOf ((held t).map (·.2))))

/-- Why a load is refused (R301): reason and entry or operation at fault. `s` holds the tables of the catch. -/
def State.planRefusal (s : State) (fn slot : Nat) (recs : List Bytes) (r b : Bytes) : Option (Nat × Nat) :=
  let rep := getLE r 0x0A 1
  let others := s.resident.filter fun p => p.1 != slot
  let kept := others.filter fun p => p.1 != rep
  let notReplaced := kept.filter fun p => !(others.any fun q => q.2.2 == some p.1)
  let benched := b :: kept.map (fun p => p.2.1) ++ s.col.rests.map (·.bin)
  let ops := List.range (pOpCount b)
  let at_ := fun (l : List Nat) => l.headD 0
  if fn ≠ 0 then some (12, 0)
  else if rAct r ≠ 0 ∨ getLE r 0x10 8 % 64 ≠ 0 ∨ getLE r 9 1 > 1 ∨ getLE r 0x0B 1 ≠ 0 ∨ planFormat b (getLE r 0x0C 4) = false
  then some (1, 0)
  else if Config.sha3 (sliceB b 0 0x40 ++ b.drop 0x80) ≠ sliceB b 0x40 64 then some (2, 0)
  else if pStrokes b = 0 then some (3, 0)
  else if !planHeaderOk b || !(ops.all fun i => planOpOk (pOp b i)) || !((List.range (pStrokes b)).all (strokeWindowsOk b)) then
    some (4, at_ (ops.filter fun i => !planOpOk (pOp b i)))
  else if !((List.range (pEntries b)).all fun e => planEntryOk b (pEntry b e)) then
    some (4, at_ ((List.range (pEntries b)).filter fun e => !planEntryOk b (pEntry b e)))
  else if !(ops.all (covered b)) then some (5, at_ (ops.filter fun i => !covered b i))
  else if !(ops.all fun i => s.planOpRefs slot (pOp b i) (pHeatCount b)) then
    some (6, at_ (ops.filter fun i => !s.planOpRefs slot (pOp b i) (pHeatCount b)))
  else if !((planProgs b).all (s.wouldLoad recs)) then some (6, 0)
  else if rep ≠ 0xFF ∧ (rep > 3 ∨ rep = slot ∨ ((s.plan rep).st ≠ 1 ∧ (s.plan rep).st ≠ 2)) then some (6, 0)
  else if (s.plan slot).st ≠ 0 ∨ (s.resident.any fun p => p.1 == slot) = true then some (7, 0)
  else if rep = 0xFF ∧ 2 < notReplaced.length + 1 then some (8, 0)
  else if [0, 1].any fun d =>
      decide (s.planGran d < sumOf (benched.map fun x => (s.planPeak x d).1)) ||
      decide (s.planLines d < sumOf (benched.map fun x => (s.planPeak x d).2))
  then some (9, 0)
  else if [0, 1].any fun d => decide (4096 <
      (((b :: others.map fun p => p.2.1).flatMap s.planCtxs ++ s.col.rests.flatMap (·.ctxs)).foldl (fun l c => withElem l c) [] |>.filter (· % 2 == d)).length)
  then some (10, 0)
  else
    let taken := kept.flatMap fun p => planPorts p.2.1
    if (planPorts b).any taken.contains then
      some (11, at_ ((List.range (pEntries b)).filter fun e => peType (pEntry b e) == 1 && taken.contains (pePort (pEntry b e))))
    else none

/-- An unload record is refused (R300, R301). -/
def planUnloadRefusal (fn : Nat) (r : Bytes) : Option (Nat × Nat) :=
  if fn ≠ 0 then some (12, 0) else if rAct r ≠ 0 ∨ getLE r 8 1 > 1 then some (1, 0) else none

/-! ### Programs (R332) -/

/-- Another STAGED rig loads or unloads a context. -/
def State.ctxStaged (s : State) (me n : Nat) : Bool :=
  s.rig.rigs.any fun r => r.st == 2 && r.order != me && r.recs.any fun x => rTab x == 0x50 && rKey x == n

/-- Why a load or unload of a program is refused (R332). -/
def State.progRefusal (s : State) (me : Nat) (r b : Bytes) : Option Nat :=
  let n := rKey r
  if rAct r ≠ 0 ∨ getLE r 8 1 > 1 then some 1
  else if getLE r 8 1 = 1 then
    if s.ctxStaged me n then some 6
    else if s.resident.any fun p => (planProgs p.2.1).contains n then some 7 else none
  else if getLE r 9 1 > 1 ∨ getLE r 0x10 8 % 64 ≠ 0 ∨ b.length ≠ getLE r 0x0C 4 ∨ getLE b 0 4 ≠ 0x47504654 ∨
      getLE b 4 2 ≠ 1 ∨ getLE b 6 2 ≠ 0 ∨ b.length ≠ 256 + tCodeLen b + tConstLen b then some 1
  else if tGroupCount b ≠ 0 ∧ tCodeLen b ≠ 0 ∧ (tBodies b).isNone = true then some 1
  else if Config.sha3 (sliceB b 0 0x80 ++ b.drop 0xC0) ≠ tDigest b then some 2
  else if tGroupCount b = 0 ∨ tCodeLen b = 0 then some 3
  else if tCodeLen b % 64 ≠ 0 ∨ 1048576 < tCodeLen b ∨ 16384 < tGroupCount b ∨ 4194304 < tConstLen b ∨
      tWsKib b * 1024 < tConstLen b ∨ tWsKib b % 64 ≠ 0 ∨ tWsKib b < 64 ∨ 57344 < tWsKib b ∨ 8 < tMuNeed b ∨ 3 < tDie b ∨
      tTileNeed b < 1 ∨ 128 < tTileNeed b ∨ 25600 < tBenchGran b ∨ tMaxGroupNs b < 1 ∨ 1000000 < tMaxGroupNs b then some 4
  else if getLE r 0x20 8 < saveNeed b ∨ getLE r 0x18 8 % 4096 ≠ 0 then some 5
  else if (s.tctx n).st ≠ csxEMPTY ∨ s.ctxStaged me n = true then some 6
  else none

/-! ### The whole rig (R19, R552) -/

/-- Entries that a record names (R552). -/
def namesOf (t : Tables) (r : Bytes) : List (Nat × Nat) :=
  if rAct r = 1 then []
  else match rTab r with
    | 0x11 => [(0x12, getLE r 0x0A 2)]
    | 0x12 => (match getLE r 8 1 with
      | 2 => [(0x14, getLE r 0x0A 2)]
      | 3 => [(0x15, getLE r 0x0A 2)]
      | _ => [])
    | 0x20 => [(0x10, cSrcLocal r)]
    | 0x30 =>
      let m := (List.range (gCount r)).map fun i => (tabMember, gBase r + i)
      (0x15, gMcast r) :: m ++ ((groupCtxs t r).getD []).map (fun c => (0x20, c)) ++ (if gRoot r then [] else [(0x20, gUplink r)])
    | 0x31 => (blockEntries r).map fun e => (0x20, getLE e.2 0 4)
    | 0x51 => [(0x50, rKey r)]
    | 0x70 => (List.range (jCount r)).map fun i => (tabFltMember, jBase r + i)
    | _ => []

/-- The entries a rig sets or names; an internal rig names its bypass pair (R212). -/
def rigHolds (t : Tables) (x : Rig) : List (Nat × Nat) :=
  (x.recs.flatMap fun y => (if rAct y = 0 then writesOf y else []) ++ namesOf t y) ++
    (match x.bypass with
     | some p => [(0x16, p)]
     | none => [])

/-- A delete removes an entry that another STAGED rig sets or names. -/
def State.deleteBlocked (s : State) (me : Nat) (before after : Tables) (r : Bytes) : Bool :=
  rAct r == 1 && s.rig.rigs.any fun x => x.st == 2 && x.order != me &&
    (rigHolds after x).any (writesIn before r).contains

/-- A run record is refused (R332). -/
def State.runRefused (s : State) (r : Rig) (before : List Bytes) (x : Bytes) : Bool :=
  rAct x != 0 || !s.wouldLoad (before ++ r.recs) (rKey x) ||
    (getLE x 0x0A 2 != 0xFFFF && (s.cqRing r.fn (getLE x 0x0A 2 % 4096)).isNone)

/-- The first plan or program record that is refused leaves its mark in LOAD_STATUS. -/
def State.loadStatus (s : State) (fn order : Nat) (recs : List Bytes) (judge : State) (x b : Bytes) : Option State :=
  if rTab x = 0x40 then
    let why := if getLE x 8 1 = 0 then judge.planRefusal fn (rKey x) recs x b else planUnloadRefusal fn x
    why.map fun w => ((s.setFld Reg.PLN_LOAD_STATUS_REASON 0 w.1).setFld Reg.PLN_LOAD_STATUS_SLOT 0 (rKey x)).setFld
      Reg.PLN_LOAD_STATUS_ENTRY 0 w.2
  else if rTab x = 0x50 then
    (judge.progRefusal order x b).map fun w =>
      (s.setFld Reg.TFB_LOAD_STATUS_REASON 0 w).setFld Reg.TFB_LOAD_STATUS_CONTEXT 0 (rKey x)
  else none

/-- A rig is judged (R19, R552): whether it is refused with RIG_INVALID, and the state with LOAD_STATUS noted. -/
def State.judge (s : State) (r : Rig) : Bool × State :=
  let form := r.recs.all fun x =>
    (if isTable (rTab x) || rAct x == 0 then recLength x == some x.length else true) && decide (rKey x < tableSize (rTab x)) &&
      (if rAct x = 0 then fieldsOk x else rTab x != 0x11 || prefixOk x)
  let before := s.tablesBefore r
  let after := applyRig before r
  let j := s.withTab after
  let earlier := (s.earlierRigs r).flatMap (·.recs)
  let prog := (r.recs.mapIdx fun i x => (i, x)).findSome? fun (i, x) =>
    s.loadStatus r.fn r.order (earlier ++ r.recs) j x ((r.blobs.find i).getD [])
  let slotFree : Bool := match r.catch_ with
    | .plan n => (s.plan n).st == 0
    | _ => false
  if r.recs.isEmpty || !form || slotFree then (true, s)
  else match prog with
    | some s1 => (true, s1)
    | none =>
      (r.recs.any (fun x => !((portsNamed x).all s.portUsed) || s.recBlocked before after r.recs x || s.deleteBlocked r.order before after x ||
          (rTab x == 0x51 && s.runRefused r earlier x)) ||
        !refsOk after || !routesFit after || !bypassOk after || !permsOk after ||
        (after.any fun e => e.1.1 == 0x30 && !s.groupOk after e.2), s)

/-- The rigs a rig depends on (R552): earlier-catch STAGED rigs that write an entry it names, or without which its
validation would refuse it, because it counted on what they set or remove. -/
def State.dependsOn (s : State) (r : Rig) (t : Tables) : List Nat :=
  let mine := r.recs.flatMap (namesOf t)
  let without := fun (x : Rig) => { s with rig := { s.rig with rigs := s.rig.rigs.filter fun y => y.order != x.order } }
  ((s.earlierRigs r).filter fun x =>
    (rigWrites (s.tablesBefore x) x).any mine.contains || ((without x).judge r).1).map (·.order)

end Sys2Proof.Machine
end

