-- ==== Sys2Proof/Machine/Rigs.lean ====
section
/-!
DEFINITION. Rigs (R16 to R20, R311, R312, R551, R552, R555) and the bypass of port groups (R211 to R214): submission,
staging, catches and what they change.
-/

namespace Sys2Proof.Machine

/-! ### What a catch changes -/

/-- A plan slot becomes STAGED at a catch (R300). -/
def State.planStage (s : State) (n now : Nat) (r b : Bytes) : State :=
  s.onPlan n fun p => { bin := b, st := 1, stagedAt := now, lateMax := p.lateMax
                        replaces := if getLE r 0x0A 1 = 0xFF then none else some (getLE r 0x0A 1) }

/-- An unload at a catch (R300): a STAGED slot is free, an ACTIVE one is ENDING. -/
def State.planUnload (s : State) (n : Nat) : State :=
  match (s.plan n).st with
  | 1 => (s.onPlan n fun p => { lateMax := p.lateMax }).planRigsMissed n
  | 2 => s.onPlan n fun p => { p with st := 3, endCause := 1 }
  | _ => s

/-- A run record's run is requested (R334). -/
def State.rigRun (s : State) (r : Rig) (now : Nat) (x : Bytes) : State :=
  let c := s.tctx (rKey x)
  s.runRequest (rKey x)
    { rig := some r.key, tag := getLE x 0x0C 4, fn := r.fn, domain := r.domain, at_ := now
      cq := if getLE x 0x0A 2 = 0xFFFF then none else s.cqRing r.fn (getLE x 0x0A 2 % 4096)
      params := if bitAt (getLE x 8 1) 0 then sliceB x 0x10 32 else tParams c.cont }

/-- What a record does beside its table entry. -/
def State.recEffect (s : State) (r : Rig) (now i : Nat) (x : Bytes) : State :=
  let del := rAct x == 1
  let b := (r.blobs.find i).getD []
  match rTab x with
  | 0x14 => s.onSwc fun c => { c with cur := c.cur.del (rKey x) }
  | 0x20 => if del then s.ctxFree (rKey x) else s.ctxCreate (rKey x)
  | 0x30 => if del then s.onCol fun c => { c with groups := c.groups.del (rKey x) } else s.setGrpState (rKey x) {}
  | 0x40 => if getLE x 8 1 = 0 then s.planStage (rKey x) now x b else s.planUnload (rKey x)
  | 0x50 => if getLE x 8 1 = 0 then s.ctxLoad (rKey x) r.fn r.domain b (getLE x 0x18 8) (getLE x 0x20 8) else s.ctxUnload (rKey x)
  | 0x51 => s.rigRun r now x
  | 0x60 =>
    if del then { s with outer := { s.outer with shards := s.outer.shards.del (rKey x) } }
    else s.setShard (rKey x)
      { spares := (List.range (hSpares x)).map fun k => hPieces x + k, works := List.range (hSpares x)
        dfree := List.range (hDeltaSlots x) }
  | 0x70 =>
    let s1 := { s with flt := { s.flt with
      groups := s.flt.groups.del (rKey x)
      health := s.flt.health.filter fun h => match h.1 with
        | .member slot _ => slot != rKey x
        | _ => true } }
    if del then s1 else s1.setFltGroup (rKey x) { st := if jCount x = 1 then 2 else 1 }
  | _ => s

/-- One record takes effect: its entry in the tables, and what else it does. -/
def State.recLive (s : State) (r : Rig) (now i : Nat) (x : Bytes) : State :=
  let s1 := s.recEffect r now i x
  s1.onSwc fun c => { c with tab := applyRec c.tab x }

/-- A rig that replaces entries takes them from the rigs that set them; a rig left with none is RETIRED. -/
def replaced (w : List (Nat × Nat)) (l : List Rig) : List Rig :=
  (l.map fun x => if x.st = 3 then { x with own := x.own.filter fun e => !w.contains e } else x).filter fun x =>
    x.st != 3 || !x.own.isEmpty

/-- A function's rig log takes the digest of a bundle that goes LIVE (R457). -/
def State.logRig (s : State) (r : Rig) : State :=
  let l := s.rig.logs.getD r.fn (zeros 64, 0)
  let d := Config.sha3 (l.1 ++ Config.sha3 (r.recs.flatMap fun x => x))
  { s with rig := { s.rig with logs := s.rig.logs.put r.fn (d, l.2 + 1) } }

/-- A rig goes LIVE: all its tables change together, and its descriptor completes (R17, R212). -/
def State.rigLive (s : State) (k : OpKey) (now : Nat) : State :=
  match s.rigOf k with
  | none => s
  | some r =>
    match r.bypass with
    | some p =>
      let groups := bpGroups ((s.tabRec 0x16 p).getD [])
      let s1 := (s.onRigs fun l => l.filter fun x => x.order != r.order).onSwc fun c =>
        { c with bypassed := withElem c.bypassed p, bypassMarks := c.bypassMarks.put p groups }
      let s2 := groups.foldl (fun s g => if s.groupSt g = gsOFF then s else s.groupStop g gsWATCH) s1
      (s2.resetCurOf groups).endOp k { status := stOK, ext := groups.length }
    | none =>
      let w := (r.recs.filter fun x => rAct x == 0).flatMap writesOf
      let all := rigWrites s.swc.tab r
      let s1 := (r.recs.mapIdx fun i x => (i, x)).foldl (fun (s : State) (p : Nat × Bytes) => s.recLive r now p.1 p.2) s
      let live : Rig := { r with st := 3, own := w, recs := [], blobs := [] }
      ((s1.logRig r).onRigs fun l => replaced all (l.filter fun x => x.order != r.order) ++
        (if w.isEmpty then [] else [live])).endOp k { status := stOK, ext := 3, value := r.id }

/-! ### RIG entries of plans (R311) -/

/-- The rig a RIG entry acts on: VALID or STAGED ones by submission, then descriptors not submitted yet; a rig that an
earlier entry waits for is that entry's. -/
def State.rigFor (s : State) (n id : Nat) : Option (OpKey × Bool) :=
  let open_ := fun (k : OpKey) => !((s.plan n).fired.any fun f => f.2 == .waits k.ring k.slot)
  let l := sortBy (fun (a b : Rig) => decide (a.order ≤ b.order))
    (s.rig.rigs.filter fun r => decide (r.st ≤ 2) && r.catch_ == .plan n && r.id == id && open_ r.key)
  match l with
  | r :: _ => some (r.key, r.st == 2)
  | [] =>
    ((s.hif.ops.map (·.2)).find? fun o => o.waits && dKind o.desc == kindRIG && planCatch o.desc == some n &&
      rRigId o.desc == id && open_ o.key).map fun o => (o.key, false)

/-- A RIG entry fires, or goes on waiting. -/
def State.rigEntry (s : State) (n e : Nat) : State :=
  let p := s.plan n
  match s.rigFor n (peRigId (pEntry p.bin e)) with
  | none => (s.setPlan n { p with fired := p.fired.put e .satisfied }).planCount n 2
  | some (k, true) =>
    (s.rigLive k (p.due e)).onPlan n fun p => { p with fired := p.fired.put e .satisfied }
  | some (k, false) => s.setPlan n { p with fired := p.fired.put e (.waits k.ring k.slot) }

/-- RIG entries that wait for a rig look again: it has been STAGED, or it has left. -/
def State.entriesLook (s : State) (k : OpKey) : State :=
  (List.range 4).foldl (fun (s : State) n =>
    let p := s.plan n
    (p.fired.filter fun f => f.2 == .waits k.ring k.slot).foldl (fun (s : State) f =>
      match s.rigOf k with
      | some r => if r.st = 2 then (s.rigLive k s.nowNs).onPlan n fun p => { p with fired := p.fired.put f.1 .satisfied } else s
      | none =>
        (s.onPlan n fun p => { p with fired := p.fired.put f.1 .satisfied }).planCount n 2) s) s

/-- PLAN_ENTRY_FIRE: the next catch of a slot's stroke fires at its time; catches at one time go by slot and entry. -/
def State.entryFire (s : State) (n e : Nat) : State :=
  let p := s.plan n
  if p.catches.head? ≠ some e ∨ s.reached (p.due e) = false ∨
      ((List.range n).any fun m => match (s.plan m).catches.head? with
        | some x => s.reached ((s.plan m).due x) && !earlier (p.due e) ((s.plan m).due x)
        | none => false) = true then s
  else
    let x := pEntry p.bin e
    match peType x with
    | 3 => s.rigEntry n e
    | 4 =>
      let c := s.tctx (peCtx x)
      (s.setPlan n { p with fired := p.fired.put e .satisfied }).runRequest (peCtx x)
        { plan := some (p.ref n e), domain := c.domain, at_ := p.due e, params := tParams c.cont }
    | _ =>
      ((s.setPlan n { p with fired := p.fired.put e .satisfied }).lineRelease (peLine x).1 (peLine x).2 (p.ref n e)).2

/-! ### Submission (R551, R552, R555) -/

/-- The descriptor's own fields are out of range (R555). -/
def rigFieldBad (d : Bytes) : Bool :=
  rBundleLen d % 64 != 0 || decide (1048576 < rBundleLen d) || decide (1 < rCatchKind d) ||
    (rCatchKind d == 1 && decide (2 ^ 48 ≤ rCatchSec d)) ||
    (rCatchKind d == 1 && (if rCatchSec d = 0xFFFFFFFFFFFF then decide (4 ≤ rCatchNs d) else decide (999999999 < rCatchNs d)))

/-- The catch a descriptor names. -/
def rigCatch (d : Bytes) : RigCatch :=
  if rCatchKind d = 0 then .commit
  else match planCatch d with
    | some n => .plan n
    | none => .time (rCatchSec d * 1000000000 + rCatchNs d)

/-- The container or plan a record copies in: from host memory by the blobs that reached the device, in record order, or
from device memory. -/
inductive Blob where
  | none
  | bytes (b : Bytes)
  | abort
  | fault
  | lost
  deriving DecidableEq, Repr

/-- Address, length and space of what a record copies in. -/
def blobOf (r : Bytes) : Option (Nat × Nat × Bool) :=
  if (rTab r = 0x40 ∨ rTab r = 0x50) ∧ getLE r 8 1 = 0 ∧ rAct r = 0 then
    some (getLE r 0x10 8, getLE r 0x0C 4, getLE r 9 1 == 1)
  else none

/-- The blobs of a rig's records. -/
def State.copyIn (s : State) (dom : Nat) : List Bytes → List (Option Bytes) → List Blob
  | [], _ => []
  | r :: rest, l =>
    match blobOf r with
    | none => Blob.none :: s.copyIn dom rest l
    | some (a, n, true) =>
      (match s.rangeFault dom a n false with
       | some _ => Blob.fault
       | none => if s.dvaLost dom a n then Blob.lost else Blob.bytes (s.dvaRead dom a n)) :: s.copyIn dom rest l
    | some (_, _, false) =>
      (match l.head? with
       | some (some b) => Blob.bytes b
       | _ => Blob.abort) :: s.copyIn dom rest (l.drop 1)

/-- A RIG descriptor is taken: its fields, its bundle, and the judgement of the rig (R555, R551, R552). -/
def State.rigSubmit (s : State) (o : Op) (bundle : Option Bytes) (blobs : List (Option Bytes)) : State :=
  let d := o.desc
  let reject := fun (s : State) st => (s.rigReject o.key st).entriesLook o.key
  if rigFieldBad d then reject s stBAD_FIELD
  else if rBundleLen d = 0 then reject s stRIG_INVALID
  else match bundle with
    | none => reject s stHOST_ABORT
    | some b =>
      match recordsOf b.length b with
      | none => reject s stRIG_INVALID
      | some recs =>
        let dom := s.domainOf o.fn (dDomain d)
        let needs := recs.any fun x => rTab x == 0x50 || rTab x == 0x51 || (match blobOf x with
          | some (_, _, dev) => dev
          | none => false)
        if needs && (o.dark || dom.isNone) then reject s stDOMAIN_DENIED
        else
          let list := s.copyIn (dom.getD 0) recs blobs
          if list.contains .abort then reject s stHOST_ABORT
          else if list.contains .fault then reject s stTRANSLATION_FAULT
          else if list.contains .lost then reject s stMEM_UNCORRECTABLE
          else
            let s := recs.foldl (fun s x => match blobOf x with
              | some (a, n, true) => s.cacheRange (dom.getD 0) a n false
              | _ => s) s
            let r : Rig := {
              key := o.key, order := s.rig.orders, judged := s.rig.judged, catch_ := rigCatch d, id := rRigId d, fn := o.fn
              domain := dom.getD 0, recs := recs
              blobs := (list.mapIdx fun i x => (i, x)).filterMap fun (i, x) => match x with
                | .bytes v => some (i, v)
                | _ => none }
            let s1 := { s with rig := { s.rig with orders := s.rig.orders + 1 } }
            match s1.judge r with
            | (true, s2) => reject s2 stRIG_INVALID
            | (false, s2) =>
              let missed : Bool := match r.catch_ with
                | .time t => s2.reached t
                | _ => false
              if missed then reject s2 stRIG_CATCH_MISSED
              else { s2 with rig := { s2.rig with rigs := s2.rig.rigs ++ [r], judged := s2.rig.judged + 1 } }

/-! ### Staging (R19) -/

/-- A STAGED rig with the same catch writes an entry of a rig's. -/
def State.rigConflict (s : State) (r : Rig) : Bool :=
  s.rig.rigs.any fun x => x.st == 2 && (match x.catch_, r.catch_ with
    | .time a, .time b => a == b
    | _, _ => false) && (rigTouches (s.tablesBefore x) x).any (rigTouches (s.tablesBefore r) r).contains

/-- A rig is staged in its turn, among the VALID rigs whose queue set a cox serves (R19, R25): again judged, checked against
the STAGED ones, and its shadow tables written. A rig that both conflicts and would be the 257th is refused with
RIG_CONFLICT, since the manual gives the two no order (notes/assumptions/160.md). -/
def State.rigStage (s : State) (k : OpKey) : State :=
  match s.rigOf k with
  | none => s
  | some r =>
    let first := (s.rig.rigs.filter fun x => x.st == 1 && (s.servingCox (x.key.ring % 8)).isSome).all fun x =>
      decide (r.judged ≤ x.judged)
    if r.st ≠ 1 ∨ first = false ∨ (s.servingCox (k.ring % 8)).isNone = true then s
    else
      let missed : Bool := match r.catch_ with
        | .time t => s.reached t
        | _ => false
      let reject := fun (s : State) st => (s.dropRig k st).entriesLook k
      match s.judge r with
      | (true, s1) => reject s1 stRIG_INVALID
      | (false, s1) =>
        if missed then reject s1 stRIG_CATCH_MISSED
        else if s1.rigConflict r then reject s1 stRIG_CONFLICT
        else if 256 ≤ (s1.rig.rigs.filter fun x => x.st == 2).length then reject s1 stRIG_FULL
        else
          let deps := s1.dependsOn r (applyRig (s1.tablesBefore r) r)
          let s2 := s1.onRigs fun l => l.map fun x => if x.order = r.order then { x with st := 2, deps := deps } else x
          match r.catch_ with
          | .commit => s2.rigLive k s2.nowNs
          | .plan _ => s2.entriesLook k
          | .time _ => s2

/-! ### Time-triggered catches (R20, R312) -/

/-- A plan catch falls at or before a time and has not fired. -/
def State.planCatchDue (s : State) (t : Nat) : Bool :=
  (List.range 4).any fun n =>
    let p := s.plan n
    match p.catches.head? with
    | some e => !earlier t (p.due e)
    | none => false

/-- CATCH_FIRE: a time-triggered catch arrives. -/
def State.catchFire (s : State) (k : OpKey) : State :=
  match s.rigOf k with
  | some r =>
    match r.catch_ with
    | .time t =>
      if s.reached t = false ∨ s.planCatchDue t = true ∨ (s.rig.rigs.any fun x => x.st == 2 && x.before r) = true then s
      else if r.st = 2 then s.rigLive k t else s.dropRig k stRIG_CATCH_MISSED
    | _ => s
  | none =>
    match s.op? k with
    | some o =>
      match rigCatch o.desc with
      | .time t =>
        if o.waits && dKind o.desc == kindRIG && !rigFieldBad o.desc && s.reached t then s.rigReject k stRIG_CATCH_MISSED else s
      | _ => s
    | none => s

/-! ### Bypass (R211 to R213) -/

/-- The bypass-pair entry of an unordered pair of leaves. -/
def State.bypassPair (s : State) (d : Bytes) : Option (Nat × Bytes) :=
  if bLeafA d = bLeafB d then none
  else (s.tabRecs 0x16).find? fun e =>
    (getLE e.2 8 2 == bLeafA d && getLE e.2 0x0A 2 == bLeafB d) || (getLE e.2 8 2 == bLeafB d && getLE e.2 0x0A 2 == bLeafA d)

def bEffect (d : Bytes) : Nat := bEffectSec d * 1000000000 + bEffectNs d

/-- A begin stages an internal rig that goes live at the later of the effect time and the end of its staging; R19 and R552
apply to it as to a host rig. -/
def State.bypassBegin (s : State) (o : Op) : State :=
  match (if bAction o.desc = 0 ∧ bEffectNs o.desc ≤ 999999999 then s.bypassPair o.desc else none) with
  | none => s.finish o.key stBAD_FIELD
  | some (k, _) =>
    if s.swc.bypassed.contains k || s.rig.rigs.any (fun r => r.bypass == some k) then s.finish o.key stOK
    else
      let now := s.reached (bEffect o.desc)
      let r : Rig := { key := o.key, order := s.rig.orders, st := 2, id := 0, fn := 0, domain := 0, recs := [], bypass := some k
                       catch_ := if now then .commit else .time (bEffect o.desc) }
      let deps := ((s.earlierRigs r).filter fun x => (rigTouches (s.tablesBefore x) x).contains (0x16, k)).map (·.order)
      if !(s.tablesBefore r).has (0x16, k) then s.finish o.key stRIG_INVALID
      else if s.rigConflict r then s.finish o.key stRIG_CONFLICT
      else if 256 ≤ (s.rig.rigs.filter fun x => x.st == 2).length then s.finish o.key stRIG_FULL
      else
      let s1 := { s with rig := { s.rig with rigs := s.rig.rigs ++ [{ r with deps := deps }], orders := s.rig.orders + 1 } }
      if now then s1.rigLive o.key s1.nowNs else s1

/-- An end at its effect time: the groups leave BYPASSED and acquire again. -/
def State.bypassEnd (s : State) (o : Op) : State :=
  match (if bEffectNs o.desc ≤ 999999999 then s.bypassPair o.desc else none) with
  | none => s.finish o.key stBAD_FIELD
  | some (k, _) =>
    if !s.swc.bypassed.contains k then s.finish o.key stOK
    else if !s.reached (bEffect o.desc) then s.setHold o.key .other
    else
      let groups := s.swc.bypassMarks.getD k []
      let s1 := (s.setHold o.key .none).onSwc fun c =>
        { c with bypassed := without c.bypassed k, bypassMarks := c.bypassMarks.del k
                 returns := c.returns.put o.key (groups, groups) }
      groups.foldl (fun s g => if s.groupSt g = gsOFF then s else s.groupAcquire g) s1

/-- 10 s after the effect time the end completes, naming the groups that did not return. -/
def State.bypassTimeout (s : State) (k : OpKey) : State :=
  match s.swc.returns.find k, s.op? k with
  | some (_, left), some o =>
    if s.reached (bEffect o.desc + 10000000000) then
      (left.foldl (fun s g => s.raise Ev.BYPASS_RETURN_FAIL g (s.groupSt g)) s).bypassFinish k
    else s
  | _, _ => s

/-! ### The rows -/

def isKind (k : Nat) (d : Bytes) : Bool := dKind d == k

def execRigSubmit (op : OpKey) (bundle : Option Bytes) (blobs : List (Option Bytes)) (s : State) :
    Host.Outcome State Fault Refusal :=
  .next (s.pooled fun s => s.start op (isKind kindRIG) fun o s => s.rigSubmit o bundle blobs)

def execRigStage (op : OpKey) (s : State) : Host.Outcome State Fault Refusal :=
  .next (s.inPool fun s => s.rigStage op)

def execCatchFire (op : OpKey) (s : State) : Host.Outcome State Fault Refusal :=
  .next (s.inPool fun s => s.catchFire op)

def execPlanEntryFire (slot entry : Nat) (s : State) : Host.Outcome State Fault Refusal :=
  .next (s.inPool fun s => s.entryFire slot entry)

/-- A BYPASS begin, or a descriptor whose ACTION is neither begin nor end. -/
def execBypassBegin (op : OpKey) (s : State) : Host.Outcome State Fault Refusal :=
  .next (s.pooled fun s => s.start op (fun d => isKind kindBYPASS d && bAction d != 1) fun o s => s.bypassBegin o)

/-- A BYPASS end: taken, and carried out once its effect time is reached. -/
def execBypassEnd (op : OpKey) (s : State) : Host.Outcome State Fault Refusal :=
  .next (s.inPool fun s =>
    match s.op? op with
      | some o =>
        if o.runs && o.hold == .other && isKind kindBYPASS o.desc && bAction o.desc == 1 then s.bypassEnd o
        else s.start op (fun d => isKind kindBYPASS d && bAction d == 1) fun o s => s.bypassEnd o
      | none => s)

def execBypassReturnTimeout (op : OpKey) (s : State) : Host.Outcome State Fault Refusal :=
  .next (s.inCore fun s => s.bypassTimeout op)

end Sys2Proof.Machine
end

