-- ==== Sys2Proof/Machine/Transfers.lean ====
section
/-!
DEFINITION. Transfers (R116, R139 to R143, R370, R450 to R453): copies, copies with expansion and check transfers, the
commit of a segment, and how a transfer is stopped.
-/

namespace Sys2Proof.Machine

/-! ### Fields and lengths -/

def kMode (d : Bytes) : Nat := getLE d 0x2B 1
def kStart (d : Bytes) : Bool := bitAt (getLE d 0x2C 1) 0
def kFinish (d : Bytes) : Bool := bitAt (getLE d 0x2C 1) 1
def kStateAddr (d : Bytes) : Nat := getLE d 0x30 8
def kObject (d : Bytes) : Nat := getLE d 0x38 8

def mib : Nat := 1048576

/-- Destination bytes of a transfer that has read `n` source bytes, at its end or before it. -/
def xferWritten (d : Bytes) (n : Nat) (all : Bool) : Nat :=
  match dOp d with
  | 1 => n / ashBytes (xProfile d) * 512
  | 4 =>
    if kMode d = 0 then (if all && kFinish d then 64 else 0)
    else if all then (n + mib - 1) / mib * 32
    else n / mib * 32
  | _ => n

/-- Source bytes of one segment (R139). A check transfer's are those of a copy (notes/assumptions/104.md). -/
def xferSegBytes (d : Bytes) : Nat := if dOp d = 1 then 256 * ashBytes (xProfile d) else 65536

/-- Two ranges of bytes meet. -/
def rangesMeet (a n b m : Nat) : Bool := decide (a < b + m) && decide (b < a + n)

/-- Source and destination overlap in one space (R142). -/
def xferOverlaps (d : Bytes) : Bool :=
  xSrcSpace d == xDstSpace d && rangesMeet (xSrcAddr d) (xLength d) (xDstAddr d) (xferWritten d (xLength d) true)

/-! ### Ending -/

def State.onKmc (s : State) (f : KmcState → KmcState) : State := { s with kmc := f s.kmc }

/-- A transfer ends: what its expanders and the check-value engine hold for it is dropped. -/
def State.xferEnd (s : State) (o : Op) (status : Nat) : State :=
  let n := min (o.seg * xferSegBytes o.desc) (xLength o.desc)
  let all := status == stOK
  ((s.blocksDrop (.xfer o.key)).onKmc fun k => { k with chain := k.chain.del o.key }).endOp o.key
    { status := status, seg := o.seg, value := xferWritten o.desc (if all then xLength o.desc else n) all }

/-- A transfer or line operation is told to stop: at its next segment boundary, which one that is held, queued or not yet
started has reached (R99, R134, R526). -/
def State.stopXfer (s : State) (o : Op) (status : Nat) : State :=
  match o.phase with
  | .done _ => s
  | .taken => s.setOp { o with endWith := some status }
  | .running =>
    if dOp o.desc = 2 ∨ dOp o.desc = 3 then
      let g := xLg o.desc
      let x := s.lgrp g
      let y := { x.dropOp o.key with
        posts := x.posts.map fun p => (p.1, without p.2 o.key)
        objs := x.objs.map fun p => if p.2.buf = some o.key then (p.1, { p.2 with buf := none, discard := true }) else p }
      (s.setLgrp g y).finish o.key status
    else if o.hold = .none then s.setOp { o with endWith := some status }
    else s.xferEnd o status

/-! ### Starting -/

/-- The checks every transfer of OP 0, 1 and 4 begins with. -/
def State.xferStart (s : State) (o : Op) (bad : Bool) (go : State → State) : State :=
  let d := o.desc
  match o.endWith with
  | some st => s.xferEnd o st
  | none =>
    if xLength d = 0 then s.finish o.key stZERO_LEN
    else if bad then s.finish o.key stBAD_FIELD
    else match s.xferRefusal o true true with
      | some st => s.finish o.key st
      | none => if xferOverlaps d then s.finish o.key stBAD_FIELD else go s

def State.kWrap (s : State) : Bytes := kdf Config.deviceSecret "NT5120 WRAP" s.boot.bootNonce 32

/-- XFER OP 4 (R452, R453): a digest goes on from a wrapped state unless START begins it. -/
def State.checkStart (s : State) (o : Op) (state : Option Bytes) : State :=
  let d := o.desc
  let begin_ := fun (s : State) (m : Bytes) =>
    let s1 := s.onKmc fun k => { k with chain := k.chain.put o.key m }
    if 64 < s1.kmc.chain.length then s1.bump Reg.KMC_SAVES_SAVES else s1
  s.xferStart o (decide (1 < kMode d) || decide (3 < getLE d 0x2C 1) || !allZero (sliceB d 0x2D 3)) fun s =>
    if kMode d = 1 ∨ kStart d = true then begin_ s []
    else match state with
      | none => s.finish o.key stHOST_ABORT
      | some b =>
        match (if b.length = 512 then Config.gcmOpen s.kWrap (sliceB b 0 12) (sliceB b 12 4) (sliceB b 16 496) else none) with
        | none => s.finish o.key stBAD_FIELD
        | some st => begin_ s (Config.engineMessage st)

/-! ### A segment -/

/-- What reading or writing for a segment did: the bytes, or a stop: with a status, or held, and the bytes that had come
before it. -/
inductive SegIo where
  | got (b : Bytes) (s : State)
  | stop (pre : Bytes) (status : Option Nat) (s : State)

/-- A device-memory walk faults for a segment (R138). -/
def State.segFault (s : State) (o : Op) (pre : Bytes) (dom dva why : Nat) (write : Bool) : SegIo :=
  let s1 := s.mmuFault dom dva why write
  match s.faultEnds why with
  | some st => .stop pre (some st) s1
  | none => .stop pre none (s1.setHold o.key (.devFault dom dva write))

/-- An ATS translation is refused for a segment (R136). -/
def State.segAts (s : State) (o : Op) (pri : Bool) (addr : Nat) (write : Bool) : SegIo :=
  if pri then .stop [] none (s.pageRequest o.key addr write) else .stop [] (some stTRANSLATION_FAULT) s

/-- The source bytes of a segment. -/
def State.segRead (s : State) (o : Op) (addr n : Nat) (a : HostAccess) (r : MemRead) : SegIo :=
  if xSrcSpace o.desc = 0 then
    match a with
    | .done (some b) ats => .got (b.take n) (s.atsFill ats o.fn addr n)
    | .done none _ => .stop [] (some stHOST_ABORT) s
    | .refused pri => s.segAts o pri addr false
  else
    let dom := (s.domainOf o.fn (dDomain o.desc)).getD 0
    match s.rangeFault dom addr n false with
    | some (at_, why) => s.segFault o (s.dvaRead dom addr (at_ - addr)) dom at_ why false
    | none =>
      match s.dvaGet dom addr n r with
      | (none, s1) => .stop (s.dvaRead dom addr (n - 1)) (some stMEM_UNCORRECTABLE) s1
      | (some b, s1) => .got b s1

/-- Bytes are written to the destination, or to host memory when `toHost`. -/
def State.segWrite (s : State) (o : Op) (toHost : Bool) (addr : Nat) (b : Bytes) (a : HostAccess) : SegIo :=
  if toHost then
    match a with
    | .done (some _) ats => .got b ((s.atsFill ats o.fn addr b.length).emit (.hostWrite o.fn addr b))
    | .done none _ => .stop b (some stHOST_ABORT) s
    | .refused pri => s.segAts o pri addr true
  else
    let dom := (s.domainOf o.fn (dDomain o.desc)).getD 0
    match s.rangeFault dom addr b.length true with
    | some (at_, why) => s.segFault o (b.take (at_ - addr)) dom at_ why true
    | none => .got b (State.dvaWrite dom addr b s)

/-- Part of a segment that does not commit may have reached its destination (R140): how much is an open value. -/
def State.segPart (s : State) (o : Op) (addr : Nat) (b : Bytes) : State :=
  let (m, s1) := s.fresh
  let part := b.take (m % (b.length + 1))
  if part.isEmpty then s1
  else if xDstSpace o.desc = 0 then s1.emit (.hostWrite o.fn addr part)
  else State.dvaWrite ((s.domainOf o.fn (dDomain o.desc)).getD 0) addr part s1

/-- A segment has committed: the operation goes on, is complete, or ends as it was told to. -/
def State.segDone (s : State) (o : Op) : State :=
  let o1 := { o with seg := o.seg + 1, hold := .none }
  let s1 := s.setOp o1
  if xLength o.desc ≤ o1.seg * xferSegBytes o.desc then s1.xferEnd o1 stOK
  else match o.endWith with
    | some st => s1.xferEnd o1 st
    | none => s1

/-- A segment stops: it is held, or the operation ends. -/
def State.segStop (s : State) (o : Op) (status : Option Nat) : State :=
  match status with
  | some st => s.xferEnd o st
  | none => match o.endWith with
    | some st => s.xferEnd o st
    | none => s

/-- A segment of a copy. -/
def State.segCopy (s : State) (o : Op) (src dst : HostAccess) (r : MemRead) : State :=
  let d := o.desc
  let off := o.seg * 65536
  let n := min 65536 (xLength d - off)
  let at_ := xDstAddr d + off
  match s.segRead o (xSrcAddr d + off) n src r with
  | .stop pre st s1 => (s1.segPart o at_ pre).segStop o st
  | .got b s1 =>
    match s1.segWrite o (xDstSpace d == 0) at_ b dst with
    | .stop pre st s2 => (s2.segPart o at_ pre).segStop o st
    | .got _ s2 => s2.segDone o

/-- A segment of a copy with expansion, once its blocks have been expanded (R370). -/
def State.segExpand (s : State) (o : Op) (dst : HostAccess) : State :=
  let d := o.desc
  let cnt := min 256 (xLength d / ashBytes (xProfile d) - o.seg * 256)
  let ready := s.ash.ready.getD (.xfer o.key) []
  let vals := (List.range cnt).map fun i => (ready.find? fun e => e.idx == i).map (·.vals)
  if vals.any (·.isNone) then s
  else
    let b := vals.flatMap fun v => v.getD []
    let at_ := xDstAddr d + o.seg * 256 * 512
    match s.segWrite o (xDstSpace d == 0) at_ b dst with
    | .stop pre st s1 => ((s1.blocksDrop (.xfer o.key)).segPart o at_ pre).segStop o st
    | .got _ s1 => (s1.blocksDrop (.xfer o.key)).segDone o

/-- A segment of a check transfer: its bytes go on from what has been taken in; a digest, a wrapped state or a tag is written
when it is due (R452, R453). -/
def State.segCheck (s : State) (o : Op) (src dst : HostAccess) (r : MemRead) : State :=
  let d := o.desc
  let off := o.seg * 65536
  let n := min 65536 (xLength d - off)
  let last := decide (xLength d ≤ off + n)
  match s.segRead o (xSrcAddr d + off) n src r with
  | .stop _ st s1 => s1.segStop o st
  | .got b s1 =>
    let m := s1.kmc.chain.getD o.key [] ++ b
    let keep := fun (s : State) (m : Bytes) => s.onKmc fun k => { k with chain := k.chain.put o.key m }
    if kMode d = 0 then
      if !last then (keep s1 m).segDone o
      else
        let (out, s2) : Bytes × State :=
          if kFinish d then (Config.sha3 m, s1)
          else
            let (iv, s2) := s1.freshBytes 12
            (iv ++ zeros 4 ++ Config.gcmSeal s1.kWrap iv (zeros 4) (Config.engineState m), s2)
        match s2.segWrite o (!kFinish d || xDstSpace d == 0) (if kFinish d then xDstAddr d else kStateAddr d) out dst with
        | .stop _ st s3 => s3.segStop o st
        | .got _ s3 => s3.segDone o
    else if last || (off + n) % mib == 0 then
      let i := off / mib
      let key := kdf Config.fleetRoot "NT5120 CKPT" [] 32
      let tag := Config.kmac key (ascii "NT5120 SEG") (bytesBE 8 (kObject d) ++ bytesBE 8 (kStateAddr d + i) ++ m) 32
      match s1.segWrite o (xDstSpace d == 0) (xDstAddr d + 32 * i) tag dst with
      | .stop _ st s2 => s2.segStop o st
      | .got _ s2 => (keep s2 []).segDone o
    else (keep s1 m).segDone o

/-- The current segment of a transfer reaches its commit point (R139), or its access to memory stops it. -/
def State.segmentCommit (s : State) (k : OpKey) (src dst : HostAccess) (r : MemRead) : State :=
  match s.op? k with
  | none => s
  | some o =>
    if !o.runs || dKind o.desc != kindXFER || o.hold != .none then s
    else match dOp o.desc with
      | 0 => s.segCopy o src dst r
      | 1 => s.segExpand o dst
      | 4 => s.segCheck o src dst r
      | _ => s

/-! ### The rows -/

/-- XFER OP 0. -/
def execXferCopy (op : OpKey) (s : State) : Host.Outcome State Fault Refusal :=
  .next (s.start op (isXfer 0) fun o s => s.xferStart o false fun s => s)

/-- XFER OP 1 (R370). -/
def execXferExpand (op : OpKey) (s : State) : Host.Outcome State Fault Refusal :=
  .next (s.start op (isXfer 1) fun o s =>
    s.xferStart o (decide (2 < xProfile o.desc) || decide (xLength o.desc % ashBytes (xProfile o.desc) ≠ 0)) fun s => s)

/-- XFER OP 4 (R452). -/
def execXferCheck (op : OpKey) (state : Option Bytes) (s : State) : Host.Outcome State Fault Refusal :=
  .next (s.start op (isXfer 4) fun o s => s.checkStart o state)

def execSegmentCommit (op : OpKey) (src dst : HostAccess) (read : MemRead) (s : State) : Host.Outcome State Fault Refusal :=
  .next (s.inCore fun s => s.segmentCommit op src dst read)

end Sys2Proof.Machine
end

