-- ==== Sys2Proof/Machine/Flt.lean ====
section
/-!
DEFINITION. Fault agreement and job recovery (R518 to R539): heartbeats and suspicion, votes and decisions, fencing, the
clean slate of a restart, health scores, the expulsion budget, probation, and pace announcements.
-/

namespace Sys2Proof.Machine

def State.onFltState (s : State) (f : FltState → FltState) : State := { s with flt := f s.flt }

/-- The slots that hold an agreement group. -/
def State.fltSlots (s : State) : List Nat := (List.range 16).filter fun k => (s.fltRec k).isSome

/-- SELF and COUNT of a group. -/
def State.fltSelf (s : State) (slot : Nat) : Nat := jSelf ((s.fltRec slot).getD [])
def State.fltN (s : State) (slot : Nat) : Nat := jCount ((s.fltRec slot).getD [])

/-- A health score has reached a fraction 1/q of EXPEL_TH (R531). -/
def State.atLeast (s : State) (score q : Nat) : Bool :=
  decide (s.fld Reg.FLT_HEALTH_CFG_EXPEL_TH * 65536 ≤ q * score)

/-- A score after some milliseconds of decay. -/
def State.decayed (s : State) (score ms : Nat) : Nat :=
  (List.range ms).foldl (fun (x : Nat) _ => Config.healthDecay (s.fld Reg.FLT_HEALTH_CFG_HALF_S) x) score

/-! ### Bodies of messages (R520) -/

def suspectBody (p : Proposal) : Bytes :=
  bytesBE 2 p.subject ++ bytesBE 1 (if p.link then 1 else 0) ++ bytesBE 1 p.cause ++ bytesBE 2 p.port ++
    bytesBE 2 (min p.score 0xFFFF)

def voteReqBody (id : Nat) (p : Proposal) : Bytes :=
  bytesBE 4 id ++ bytesBE 2 p.subject ++ bytesBE 1 (if p.link then 1 else 0) ++ bytesBE 1 p.cause

def voteBody (id : Nat) (yes : Bool) : Bytes := bytesBE 4 id ++ bytesBE 1 (if yes then 1 else 0) ++ zeros 3

def decideBody (d : Decision) : Bytes :=
  bytesBE 4 d.voteId ++ bytesBE 2 d.subject ++ bytesBE 1 d.action ++ bytesBE 1 (if d.link then 1 else 0) ++
    bytesBE 2 d.port ++ zeros 2 ++ bytesBE 4 d.epoch

def ackBody (d : Decision) : Bytes := bytesBE 4 d.voteId ++ bytesBE 4 d.epoch

/-! ### The clean slate (R526) -/

/-- A transfer moves data of a domain in the scope of a group's record. -/
def xferInScope (s : State) (r : Bytes) (o : Op) : Bool :=
  let sideIn := fun (sp : Nat) => sp == 1 && (match s.domainOf o.fn (dDomain o.desc) with
    | some d => inScope (jDomains r) d
    | none => false)
  dKind o.desc == kindXFER && (sideIn (xSrcSpace o.desc) || sideIn (xDstSpace o.desc))

/-- A rig's records name a context, collective group or plan slot in scope: as the entry they set, delete or refer to
(R552). -/
def State.rigInScope (s : State) (r : Bytes) (x : Rig) : Bool :=
  let t := applyRig (s.tablesBefore x) x
  (x.recs.flatMap fun b => entryOf b :: (writesIn t b ++ namesOf t b)).any fun e =>
    match e.1 with
    | 0x20 => inScope (jCtxs r) e.2
    | 0x30 => inScope (jColls r) e.2
    | 0x40 => jPlanSet r != 0 && (s.plan e.2).st != 0 && pSetId (s.plan e.2).bin == jPlanSet r
    | _ => false

/-- What the device holds for a job returns to a clean slate. -/
def State.cleanSlate (s : State) (slot : Nat) : State :=
  match s.fltRec slot with
  | none => s
  | some r =>
    let s1 := ((s.tpt.ctxs.map (·.1)).filter fun n => inScope (jCtxs r) n).foldl (fun s n => s.ctxFree n) s
    let s2 := (s1.col.ops.map (·.2)).foldl (fun (s : State) o =>
      if inScope (jColls r) o.group then
        match s.collOp o.group o.seq with
        | some p => s.collEnd p stCOLL_CANCELLED
        | none => s
      else s) s1
    let s3 := ((s2.col.groups.map (·.1)).filter fun g => inScope (jColls r) g).foldl (fun s g => s.setGrpState g {}) s2
    let s4 := (List.range 4).foldl (fun (s : State) n =>
      if (s.plan n).st ≠ 0 ∧ jPlanSet r ≠ 0 ∧ pSetId (s.plan n).bin = jPlanSet r then
        let (cause, s1) := s.fresh
        s1.planEnd n (cause % 4)
      else s) s3
    let s5 := (List.range 64).foldl (fun (s : State) n =>
      let c := s.tctx n
      if c.st ≠ csxEMPTY ∧ inScope (jDomains r) c.domain then
        s.setTctx n { c with restart := c.cur.isSome, queue := c.queue.map fun q => { q with discard := true } }
      else s) s4
    let s6 := (s5.hif.ops.map (·.2)).foldl (fun (s : State) o =>
      if xferInScope s r o then s.stopXfer o stJOB_RESTARTED else s) s5
    let s7 := s6.outerRestart fun h => inScope (jDomains r) (hDomain h) || inScope (jColls r) (hGroup h)
    ((s7.rig.rigs.filter fun x => x.st == 2 && s.rigInScope r x).map (·.key)).foldl
      (fun s k => s.dropRig k stRIG_CATCH_MISSED) s7

/-- Every in-scope operation has ended (R528). -/
def State.scopeQuiet (s : State) (slot : Nat) : Bool :=
  match s.fltRec slot with
  | none => true
  | some r =>
    !(s.col.ops.any fun o => inScope (jColls r) o.2.group) &&
    !(s.tfb.ctxs.any fun c => inScope (jDomains r) c.2.domain && c.2.restart) &&
    !(s.hif.ops.any fun o => o.2.endWith == some stJOB_RESTARTED && o.2.runs && xferInScope s r o.2)

/-! ### Applying a decision (R525, R526, R529) -/

/-- The decision has been applied: by epoch, subject and action for a restart; by its vote too for any other. -/
def Decision.same (a b : Decision) : Bool :=
  a.epoch == b.epoch && a.subject == b.subject && a.action == b.action &&
    (decide (a.action < 2) || (a.coord == b.coord && a.voteId == b.voteId && a.port == b.port))

/-- Fabric ports whose LLDP neighbour gives a member's SERIAL as its chassis ID. -/
def State.portsToward (s : State) (slot m : Nat) : List Nat :=
  (s.flt.lldp.filter fun p => p.2 == mSerialOf (s.member slot m)).map (·.1)

def State.fencePort (s : State) (p : Nat) : State := s.onFltState fun f => { f with fenced := withElem f.fenced p }

/-- A fenced port returns to service with a score of 0 (R535). -/
def State.unfencePort (s : State) (p : Nat) : State :=
  s.onFltState fun f => { f with
    fenced := without f.fenced p, linkFence := f.linkFence.del p, low := f.low.del p, fencedAdds := f.fencedAdds.del p
    health := f.health.del (.port p) }

/-- The restart part of a decision: the epoch, the state, JOB_RESTART and the clean slate. -/
def State.restartJob (s : State) (slot : Nat) (d : Decision) : State :=
  let g := s.fltGroup slot
  let epoch := max g.epoch d.epoch
  let st := if (g.member (s.fltSelf slot)).fenced then (if g.st = 5 then 5 else 4) else 3
  let s1 := s.setFltGroup slot { g with epoch := epoch, st := st, restart := some d, restartAt := s.nowNs }
  ((s1.fltCount slot 8).raiseDecision Ev.JOB_RESTART slot (epoch + d.subject % 4096 * 2 ^ 32 + d.action % 8 * 2 ^ 44)).cleanSlate slot

/-- A decision that has not been applied takes effect on this member. -/
def State.applyDecision (s : State) (slot : Nat) (d : Decision) : State :=
  let self := s.fltSelf slot
  let s0 := s.onFlt slot fun g => { g with
    coord := d.coord, applied := g.applied ++ [d]
    record := (g.record ++ [(s.nowNs, d)]).drop (g.record.length + 1 - 64) }
  match d.action with
  | 0 =>
    let s1 := s0.onMember slot d.subject fun m => { m with fenced := true, suspect := none, probation := false }
    let s2 := (s0.portsToward slot d.subject).foldl (fun s p => s.fencePort p) s1
    (s2.fltCount slot 5).restartJob slot d
  | 1 => s0.restartJob slot d
  | 2 =>
    let s1 := s0.fltCount slot 5
    if d.subject = self then
      (s1.fencePort d.port).onFltState fun f => { f with linkFence := f.linkFence.put d.port slot }
    else s1
  | 3 =>
    if d.subject = 0xFFFF then s0.onFlt slot fun g => { g with hold := false, holder := none, heldProps := [] }
    else
      ((s0.fltCount slot 6).onFlt slot fun g => { g with hold := true, holder := some d }).raiseDecision Ev.FLT_HOLD slot
        (d.subject % 4096 + (if d.link then 4096 + d.port * 65536 else 0))
  | _ =>
    let s1 := s0.fltCount slot 7
    if d.link then (if d.subject = self then s1.unfencePort d.port else s1)
    else
      let s2 := (s1.onMember slot d.subject fun m => { m with
        fenced := false, probation := false, probScore := 0, probHeard := none, heard := none, missed := 0, suspect := none })
      let s3 := (s2.portsToward slot d.subject).foldl (fun s p => s.unfencePort p)
        (s2.onFltState fun f => { f with health := f.health.del (.member slot d.subject) })
      if d.subject ≠ self then s3
      else
        let s4 := match (s3.fltGroup slot).probOp with
          | some k => s3.finish k stOK 0
          | none => s3
        s4.onFlt slot fun g => { g with st := 2, epoch := max g.epoch d.epoch, probOp := none, probAsked := false }

/-! ### Dissemination (R524) -/

/-- DECIDE goes to a member, under its coordinator's number. -/
def State.sendDecide (s : State) (slot m : Nat) (d : Decision) : State :=
  s.fltSend slot m (s.juwesy slot 5 d.coord (decideBody d))

/-- A spread whose whole subtree has acknowledged ends, with an acknowledgement to its parent. -/
def State.spreadDone (s : State) (slot : Nat) (d : Decision) : State :=
  match (s.fltGroup slot).spreads.find? fun x => x.dec.same d with
  | none => s
  | some x =>
    if !x.children.isEmpty then s
    else
      let s1 := s.onFlt slot fun g => { g with spreads := g.spreads.filter fun y => !y.dec.same d }
      match x.parent with
      | some p => s1.fltTell slot p 6 (ackBody d)
      | none => s1

/-- A decision is applied and goes on down the tree. -/
def State.spread (s : State) (slot : Nat) (d : Decision) (parent : Option Nat) : State :=
  let kids := treeChildren (s.fltN slot) d.coord (s.fltSelf slot)
  let s1 := s.applyDecision slot d
  let s2 := s1.onFlt slot fun g => { g with
    spreads := g.spreads ++ [{ dec := d, children := kids.map fun c => (c, 1), parent := parent }] }
  (kids.foldl (fun s c => s.sendDecide slot c d) s2).spreadDone slot d

/-- This member, as coordinator, decides. -/
def State.decideOn (s : State) (slot subject action : Nat) (link : Bool) (port : Nat) : State :=
  let g := s.fltGroup slot
  let d : Decision :=
    { coord := s.fltSelf slot, voteId := g.nextVote, subject := subject, action := action, link := link, port := port
      epoch := if action < 2 then (g.epoch + 1) % 2 ^ 32 else g.epoch }
  ((s.onFlt slot fun g => { g with nextVote := (g.nextVote + 1) % 2 ^ 32 }).fltCount slot 4).spread slot d none

/-! ### Votes (R523) -/

/-- A vote ends with its majority. -/
def State.voteWon (s : State) (slot : Nat) (v : VoteRun) : State :=
  let s1 := s.onFlt slot fun g => { g with votes := g.votes.filter fun x => x.id != v.id }
  let fenced := ((s.fltGroup slot).member v.prop.subject).fenced
  if v.prop.cause = 4 then (if fenced then s1.decideOn slot v.prop.subject 4 false 0 else s1)
  else if fenced then s1 else s1.decideOn slot v.prop.subject 0 false 0

/-- A voter's answer reaches the coordinator. -/
def State.hearBallot (s : State) (slot id voter : Nat) (yes : Bool) : State :=
  match (s.fltGroup slot).votes.find? fun v => v.id == id && v.voters.contains voter with
  | none => s
  | some v =>
    if !yes || v.yes.contains voter then s
    else
      let v1 := { v with yes := v.yes ++ [voter] }
      if v1.voters.length < 2 * v1.yes.length then s.voteWon slot v1
      else s.onFlt slot fun g => { g with votes := g.votes.map fun x => if x.id = id then v1 else x }

/-- The condition under which this member answers YES. -/
def State.votesYes (s : State) (slot subject cause : Nat) : Bool :=
  let m := (s.fltGroup slot).member subject
  match cause with
  | 1 => decide (2 ≤ m.missed)
  | 2 => s.atLeast (s.healthOf (.member slot subject)).score 2
  | 4 => !s.atLeast m.probScore 4
  | _ => false

/-- This member answers a vote request. With the answer to a PROBATION vote the probation it kept a score for is over. -/
def State.answer (s : State) (slot : Nat) (b : Ballot) (yes : Bool) : State :=
  let s0 := s.onFlt slot fun g => { g with ballots := g.ballots.filter fun x => !(x.coord == b.coord && x.id == b.id) }
  let s1 := if b.cause = 4 then s0.onMember slot b.subject fun m => { m with probation := false } else s0
  if b.coord = s.fltSelf slot then s1.hearBallot slot b.id b.coord yes
  else s1.fltTell slot b.coord 4 (voteBody b.id yes)

/-- A vote request is answered YES at once, or waits for its condition. -/
def State.ballotIn (s : State) (slot : Nat) (b : Ballot) : State :=
  if s.votesYes slot b.subject b.cause then s.answer slot b true
  else s.onFlt slot fun g => { g with
    ballots := (g.ballots.filter fun x => !(x.coord == b.coord && x.id == b.id)) ++ [b] }

/-- Waiting vote requests whose condition holds now are answered YES. -/
def State.ballotsLook (s : State) : State :=
  s.fltSlots.foldl (fun (s : State) slot =>
    (s.fltGroup slot).ballots.foldl (fun (s : State) b =>
      if s.votesYes slot b.subject b.cause then s.answer slot b true else s) s) s

/-- The coordinator starts a vote on a proposal, unless one on it is running. -/
def State.startVote (s : State) (slot : Nat) (p : Proposal) : State :=
  let g := s.fltGroup slot
  if g.votes.any fun v => v.prop.subject == p.subject && v.prop.cause == p.cause then s
  else
    let self := s.fltSelf slot
    let voters := s.watchers slot p.subject
    let id := g.nextVote
    let s1 := (s.setFltGroup slot { g with
      nextVote := (id + 1) % 2 ^ 32, votes := g.votes ++ [{ id := id, prop := p, voters := voters }] }).fltCount slot 2
    let s2 := s1.fltTellAll slot (without voters self) 3 (voteReqBody id p)
    if voters.contains self then s2.ballotIn slot ⟨self, id, p.subject, p.cause⟩ else s2

/-! ### The budget and HOLD (R532, R533) -/

/-- Fault domain an expulsion counts against, and expulsions of a domain, or of the group, inside a window. -/
def State.faultDomain (s : State) (slot m : Nat) : Nat := mDomainOf (s.member slot m)
def State.expulsions (s : State) (slot : Nat) (dom : Option Nat) (win : Nat) : List Nat :=
  ((s.fltGroup slot).record.filter fun x =>
    (x.2.action == 0 || x.2.action == 2) && decide (s.nowNs < x.1 + win * 1000000000) &&
      (match dom with
        | some d => s.faultDomain slot x.2.subject == d
        | none => true)).map (·.1)

/-- Expulsions that block a proposal, as the time at which each leaves its window; none when the budget lets it pass. -/
def State.blockers (s : State) (slot subject : Nat) : List Nat :=
  let dw := s.fld Reg.FLT_BUDGET_CFG_DOMAIN_WIN_S
  let gw := s.fld Reg.FLT_BUDGET_CFG_GROUP_WIN_S
  let d := s.expulsions slot (some (s.faultDomain slot subject)) dw
  let g := s.expulsions slot none gw
  (if s.fld Reg.FLT_BUDGET_CFG_EXP_DOMAIN ≤ d.length then d.map (· + dw * 1000000000) else []) ++
    (if s.fld Reg.FLT_BUDGET_CFG_EXP_GROUP ≤ g.length then g.map (· + gw * 1000000000) else [])

/-- A HEALTH proposal that the budget lets pass. -/
def State.healthPassed (s : State) (slot : Nat) (p : Proposal) : State :=
  if p.link then s.decideOn slot p.subject 2 true p.port else s.startVote slot p

/-- The coordinator acts on a proposal (R523, R532, R533). -/
def State.coordinate (s : State) (slot : Nat) (p : Proposal) : State :=
  let g := s.fltGroup slot
  let fenced := (g.member p.subject).fenced
  if p.cause = 4 then (if fenced then s.startVote slot p else s)
  else if fenced then s
  else if p.cause = 1 then s.startVote slot p
  else if p.cause = 3 then s.decideOn slot p.subject 1 false 0
  else if g.hold then s.onFlt slot fun g => { g with heldProps := g.heldProps ++ [p] }
  else
    match s.blockers slot p.subject with
    | [] => s.healthPassed slot p
    | t :: ts =>
      (s.onFlt slot fun g => { g with heldProps := [p], holdUntil := minOf t ts }).decideOn slot p.subject 3 p.link
        (if p.link then p.port else 0)

/-- The proposer's score as it stands: its own as this device keeps it, another's as its SUSPECT gave it, decayed since. -/
def State.proposerScore (s : State) (slot : Nat) (p : Proposal) : Nat :=
  if p.sender = s.fltSelf slot then
    (s.healthOf (if p.link then .port p.port else if p.subject = p.sender then .self else .member slot p.subject)).score
  else s.decayed (p.score * 65536) ((s.nowNs - p.at_) / 1000000)

/-- The oldest blocking expulsion leaves its window: held proposals that pass are acted on, the rest drop, and HOLD clears. -/
def State.holdRelease (s : State) (slot : Nat) : State :=
  let g := s.fltGroup slot
  if g.hold = false ∨ (g.holder.map (·.coord)) ≠ some (s.fltSelf slot) ∨ s.reached g.holdUntil = false then s
  else
    let s1 := s.onFlt slot fun g => { g with heldProps := [] }
    let s2 := g.heldProps.foldl (fun (s : State) p =>
      if (s.blockers slot p.subject).isEmpty && s.atLeast (s.proposerScore slot p) 1 &&
          !((s.fltGroup slot).member p.subject).fenced then s.healthPassed slot p
      else s) s1
    s2.decideOn slot 0xFFFF 3 false 0

/-! ### Suspicion (R522) -/

/-- The coordinator for a proposal on a subject: the lowest-indexed member that is unfenced, not suspected here, not the
subject and not tried before. -/
def State.coordinator (s : State) (slot subject : Nat) (tried : List Nat) : Option Nat :=
  let g := s.fltGroup slot
  (List.range (s.fltN slot)).find? fun m =>
    m != subject && !(g.member m).fenced && (g.member m).suspect.isNone && !tried.contains m

/-- SUSPECT goes to a coordinator, which may be this member itself. -/
def State.suspectTo (s : State) (slot c : Nat) (p : Proposal) : State :=
  let s1 := s.fltCount slot 1
  if c = s.fltSelf slot then s1.coordinate slot { p with at_ := s.nowNs } else s1.fltTell slot c 2 (suspectBody p)

/-- SUSPECT goes to the first coordinator there is. -/
def State.suspect (s : State) (slot : Nat) (p : Proposal) : State :=
  match s.coordinator slot p.subject [] with
  | some c => s.suspectTo slot c p
  | none => s

/-- A group takes part in agreement: it is FORMING, RUNNING or RECOVERING. -/
def State.fltServes (s : State) (slot : Nat) : Bool := decide (1 ≤ (s.fltGroup slot).st) && decide ((s.fltGroup slot).st ≤ 3)

/-- A SILENT suspicion is sent to the next coordinator not tried yet. -/
def State.suspectSilent (s : State) (slot m : Nat) (tried : List Nat) : State :=
  let p : Proposal := { sender := s.fltSelf slot, subject := m, link := false, cause := 1, port := 0
                        score := (s.healthOf (.member slot m)).score / 65536 }
  match s.coordinator slot m tried with
  | none => s
  | some c => (s.onMember slot m fun x => { x with suspect := some (tried ++ [c]) }).suspectTo slot c p

/-- A heartbeat of a watched member is missed, or a PROBE of a device in probation. -/
def State.heartbeatMiss (s : State) (slot m : Nat) : State :=
  let x := (s.fltGroup slot).member m
  if (s.fltRec slot).isNone || !s.fltServes slot then s
  else if x.fenced then
    match x.probation, x.probHeard with
    | true, some t =>
      if s.reached (t + 100000) then
        s.onMember slot m fun x => { x with probScore := x.probScore + 4 * 65536, probHeard := some (t + 100000) }
      else s
    | _, _ => s
  else
    match x.heard with
    | none => s
    | some t =>
      if !(watchSet (s.fltN slot) (s.fltSelf slot)).contains m || !s.reached (t + (x.missed + 1) * 100000) then s
      else
        let s1 := (s.onMember slot m fun x => { x with missed := x.missed + 1 }).fltCount slot 0
        let s2 :=
          if x.missed + 1 < s.fld Reg.FLT_CFG_MISS_COUNT then s1.healthAdd (.member slot m) 4
          else if x.suspect.isSome then s1
          else (s1.onMember slot m fun x => { x with suspect := some [] }).suspectSilent slot m []
        s2.ballotsLook

/-- 500 µs pass without a DECIDE for a suspected member. -/
def State.suspectRetry (s : State) (slot m : Nat) : State :=
  match ((s.fltGroup slot).member m).suspect with
  | some (c :: l) => s.suspectSilent slot m (c :: l)
  | _ => s

/-- A context fails: SUSPECT CONTEXT in the groups whose scope holds it, and, for a timeout, weight on the member it leads
to (R522, R531). -/
def State.ctxFailed (s : State) (n : Nat) (timeout : Bool) : State :=
  s.fltSlots.foldl (fun (s : State) slot =>
    let r := (s.fltRec slot).getD []
    let self := jSelf r
    let s1 := if timeout then
        ((watchSet (jCount r) self).filter fun m => mAddrOf (s.member slot m) == cPeer (s.ctxRec n)).foldl
          (fun s m => s.healthAdd (.member slot m) 64) s
      else s
    if inScope (jCtxs r) n && s.fltServes slot then
      s1.suspect slot { sender := self, subject := self, link := false, cause := 3, port := 0, score := 0 }
    else s1) (s.collCtxFailed n)

/-- Operations and agreement groups see a context that has just become FAILED. -/
def State.ctxFailing (s0 s : State) (n : Nat) (timeout : Bool) : State :=
  let failed := fun (x : State) => match x.ctx? n with
    | some c => c.failed
    | none => false
  if failed s && !failed s0 then s.ctxFailed n timeout else s

/-! ### Messages -/

def jGen (m : Bytes) : Nat := getBE m 0 1 % 16
def jType (m : Bytes) : Nat := getBE m 1 1
def jSender (m : Bytes) : Nat := getBE m 2 2
def jJobOf (m : Bytes) : Nat := getBE m 4 8
def jEpochOf (m : Bytes) : Nat := getBE m 12 4

/-- Body length of a message type; none for a type that is not listed. -/
def jBodyLen (t : Nat) : Option Nat :=
  match t with
  | 1 => some 16 | 2 => some 8 | 3 => some 8 | 4 => some 8 | 5 => some 16 | 6 => some 8 | 7 => some 32 | 8 => some 4
  | 9 => some 4 | _ => none

/-- A member whose epoch is below that of a message asks for the RESTART it missed (R529). -/
def State.epochSeen (s : State) (slot epoch : Nat) : State :=
  let g := s.fltGroup slot
  if epoch ≤ max g.epoch g.asked ∨ s.fltServes slot = false then s
  else
    let self := s.fltSelf slot
    (s.onFlt slot fun g => { g with asked := epoch }).suspect slot
      { sender := self, subject := self, link := false, cause := 3, port := 0, score := 0 }

/-- A Juwesy message of a type arrives: it is discarded and counted, or handled for its group (R520, R536). -/
def State.fltHear (s : State) (m : Bytes) (type : Nat) (act : State → Nat → Nat → Bytes → State) : State :=
  match (s.fltSlots.find? fun k => jJob ((s.fltRec k).getD []) == jJobOf m) with
  | none => s.fltCount 0 10
  | some slot =>
    let sender := jSender m
    let x := (s.fltGroup slot).member sender
    let body := m.drop 16
    if m.length < 16 ∨ getBE m 0 1 / 16 ≠ 1 ∨ s.fltN slot ≤ sender ∨
        ((jBodyLen (jType m)).all fun n => decide (body.length < n)) = true then s.fltCount slot 10
    else if jGen m ≠ s.ownGen ∧ jGen m ≠ (s.ownGen + 15) % 16 then s.fltCount slot 9
    else if x.fenced && jType m != 8 && !(jType m == 2 && getBE body 3 1 == 4) then
      (if jType m = 1 then s.onMember slot sender fun x => { x with fencedAsk := true } else s).fltCount slot 10
    else if jType m ≠ type then s
    else (act s slot sender body).epochSeen slot (jEpochOf m)

/-- A HEARTBEAT arrives (R521, R519). -/
def State.hearHeartbeat (s : State) (slot sender : Nat) (gen : Nat) (b : Bytes) : State :=
  let f := getBE b 4 1
  let s1 := s.onMember slot sender fun x => { x with
    throttled := bitAt f 0, fencedYou := bitAt f 1, issue := getBE b 6 2, minPace := getBE b 8 2, gen := gen
    heard := some s.nowNs, missed := 0, suspect := none }
  let g := s1.fltGroup slot
  if g.st = 1 ∧ ((s1.watchers slot (s1.fltSelf slot)).all fun m => (g.member m).heard.isSome) = true then
    s1.setFltGroup slot { g with st := 2 }
  else s1

/-- A SUSPECT arrives. -/
def State.hearSuspect (s : State) (slot sender : Nat) (b : Bytes) : State :=
  let p : Proposal := { sender := sender, subject := getBE b 0 2, link := getBE b 2 1 == 1, cause := getBE b 3 1
                        port := getBE b 4 2, score := getBE b 6 2, at_ := s.nowNs }
  if s.fltN slot ≤ p.subject ∨ 1 < getBE b 2 1 ∨ p.cause = 0 ∨ 4 < p.cause then s.fltCount slot 10
  else s.coordinate slot p

/-- A DECIDE arrives; the member it comes from is its parent in the tree. -/
def State.hearDecide (s : State) (slot : Nat) (src : Bytes) (coord : Nat) (b : Bytes) : State :=
  let d : Decision := { coord := coord, voteId := getBE b 0 4, subject := getBE b 4 2, action := getBE b 6 1
                        link := getBE b 7 1 == 1, port := getBE b 8 2, epoch := getBE b 12 4 }
  if 4 < d.action ∨ (s.fltN slot ≤ d.subject ∧ ¬ (d.action = 3 ∧ d.subject = 0xFFFF)) then s.fltCount slot 10
  else
    let parent := (List.range (s.fltN slot)).find? fun m => mAddrOf (s.member slot m) == src
    let g := s.fltGroup slot
    if g.applied.any fun x => x.same d then
      if g.spreads.any fun x => x.dec.same d then
        s.onFlt slot fun g => { g with spreads := g.spreads.map fun x => if x.dec.same d then { x with parent := parent } else x }
      else match parent with
        | some p => s.fltTell slot p 6 (ackBody d)
        | none => s
    else s.spread slot d parent

/-- A child's whole subtree has acknowledged a decision. -/
def State.hearAck (s : State) (slot sender : Nat) (b : Bytes) : State :=
  let hit := fun (x : Spread) => x.dec.voteId == getBE b 0 4 && x.dec.epoch == getBE b 4 4 &&
    x.children.any fun c => c.1 == sender
  match (s.fltGroup slot).spreads.find? hit with
  | none => s
  | some x =>
    let acked := fun (y : Spread) =>
      if y.dec.same x.dec then { y with children := y.children.filter fun c => c.1 != sender } else y
    (s.onFlt slot fun g => { g with spreads := g.spreads.map acked }).spreadDone slot x.dec

/-- A child has not acknowledged: DECIDE is sent again, and after 3 sends its children take its place. -/
def State.decideResend (s : State) (slot coord id child : Nat) : State :=
  match (s.fltGroup slot).spreads.find? fun x => x.dec.coord == coord && x.dec.voteId == id &&
      x.children.any fun c => c.1 == child with
  | none => s
  | some x =>
    let n := (x.children.find? fun c => c.1 == child).elim 0 (·.2)
    if n < 3 then
      let counted := fun (y : Spread) =>
        if y.dec.same x.dec then { y with children := y.children.map fun c => if c.1 = child then (c.1, n + 1) else c }
        else y
      (s.onFlt slot fun g => { g with spreads := g.spreads.map counted }).sendDecide slot child x.dec
    else
      let kids := treeChildren (s.fltN slot) coord child
      let moved := fun (y : Spread) =>
        if y.dec.same x.dec then
          { y with children := (y.children.filter fun c => c.1 != child) ++ kids.map fun k => (k, 1) }
        else y
      let s1 := s.onFlt slot fun g => { g with spreads := g.spreads.map moved }
      (kids.foldl (fun s k => s.sendDecide slot k x.dec) s1).spreadDone slot x.dec

/-- PACE arrives: it is acted on once, and goes on down the tree (R537). -/
def State.hearPace (s : State) (slot sender : Nat) (b : Bytes) : State :=
  let id := getBE b 0 8
  let heat := getBE b 16 4
  let s1 := s.fltCount slot 12
  if (s.fltGroup slot).paceSeen.contains (id, heat) then s1
  else
    ((s1.onFlt slot fun g => { g with paceSeen := g.paceSeen ++ [(id, heat)] }).paceDown slot sender (b.take 32)).adopt id
      (getBE b 8 8) heat (getBE b 20 8 % 2 ^ 48 * 1000000000 + getBE b 28 4)

/-- PROBE arrives: it is answered, and keeps the device's probation going (R534). -/
def State.hearProbe (s : State) (slot sender : Nat) (b : Bytes) : State :=
  let x := (s.fltGroup slot).member sender
  let s1 := if x.fenced then s.onMember slot sender fun x => { x with
      probScore := if x.probation then x.probScore else 0, probation := true, probHeard := some s.nowNs }
    else s
  s1.fltTell slot sender 9 (b.take 4)

/-! ### Timers -/

/-- The lowest rate of the port-group and lane pipelines read so far (R51). -/
def State.minPace (s : State) : Nat :=
  let l := ((s.regs.live.map (·.1)).filter fun k => k.blk == .pwr && k.off == 0x184 && decide (k.inst < 512)).map fun k =>
    s.fld Reg.PWR_PACE_VALUE_CUR_MTPS k.inst
  match l with
  | [] => 0
  | x :: xs => minOf x xs

/-- HEARTBEAT to every member of the watch set, and to those whose fenced heartbeat it answers (R521). -/
def State.heartbeats (s : State) (slot : Nat) : State :=
  if (s.fltRec slot).isNone ∨ s.fltN slot < 2 then s
  else
    let g := s.fltGroup slot
    let seq := (g.hbSeq + 1) % 2 ^ 32
    let s1 := s.setFltGroup slot { g with hbSeq := seq, members := g.members.map fun p => (p.1, { p.2 with fencedAsk := false }) }
    let body := fun (m : Nat) =>
      let flags := (if s.flag Reg.PWR_POWER_STATUS_THROTTLED then 1 else 0) + (if (g.member m).fencedAsk then 2 else 0) +
        (if g.hold then 4 else 0)
      bytesBE 4 seq ++ bytesBE 1 flags ++ zeros 1 ++ bytesBE 2 (s.fld Reg.PWR_POWER_STATUS_ISSUE) ++ bytesBE 2 s.minPace ++ zeros 6
    let asking := (g.members.filter fun p => p.2.fencedAsk).map (·.1)
    let watch := s.watchers slot (s.fltSelf slot)
    (watch ++ asking.filter fun m => !watch.contains m).foldl (fun s m => s.fltTell slot m 1 (body m)) s1

/-- The group leaves RECOVERING (R528). -/
def State.quietDone (s : State) (slot : Nat) : State :=
  let g := s.fltGroup slot
  let open_ := match g.restart with
    | some d => g.spreads.any fun x => x.dec.same d
    | none => false
  if g.st ≠ 3 ∨ open_ = true ∨ s.scopeQuiet slot = false ∨
      s.reached (g.restartAt + s.fld Reg.FLT_CFG2_QUIET_US * 1000) = false then s
  else (s.setFltGroup slot { g with st := 2 }).raise Ev.JOB_RESTART_DONE slot g.epoch

/-- PROBE to the unfenced watch set (R534). -/
def State.probe (s : State) (slot : Nat) : State :=
  let g := s.fltGroup slot
  if g.st ≠ 5 ∨ g.probAsked = true then s
  else (s.setFltGroup slot { g with probSeq := (g.probSeq + 1) % 2 ^ 32 }).fltTellAll slot
    (s.watchers slot (s.fltSelf slot)) 8 (bytesBE 4 ((g.probSeq + 1) % 2 ^ 32))

/-- PROB_S ends: SUSPECT PROBATION (R535). -/
def State.probationEnd (s : State) (slot : Nat) : State :=
  let g := s.fltGroup slot
  let self := s.fltSelf slot
  if g.st ≠ 5 ∨ g.probAsked = true ∨ s.reached g.probEnd = false then s
  else (s.setFltGroup slot { g with probAsked := true }).suspect slot
    { sender := self, subject := self, link := false, cause := 4, port := 0, score := 0 }

/-- No decision came: the device stays FENCED (R535). -/
def State.probationFailed (s : State) (slot : Nat) : State :=
  let g := s.fltGroup slot
  if g.st ≠ 5 ∨ g.probAsked = false then s
  else
    let s1 := s.setFltGroup slot { g with st := 4, probOp := none, probAsked := false }
    match g.probOp with
    | some k => s1.finish k stOK 1
    | none => s1

/-- FLT_PROBATION (R534). -/
def State.fltProbation (s : State) (o : Op) : State :=
  let slot := mParam0 o.desc % 16
  let g := s.fltGroup slot
  if (s.fltRec slot).isNone ∨ g.st ≠ 4 then s.finish o.key stBAD_FIELD
  else s.setFltGroup slot { g with
    st := 5, probOp := some o.key, probEnd := s.nowNs + s.fld Reg.FLT_PROB_CFG_PROB_S * 1000000000, probSeq := 0, probAsked := false }

/-! ### Health scores (R531, R534, R535) -/

/-- The SUSPECT HEALTH for a subject, with its score. -/
def State.suspectHealth (s : State) (k : Subject) (score : Nat) : State :=
  let send := fun (s : State) (slot : Nat) (subject : Nat) (link : Bool) (port : Nat) =>
    s.suspect slot { sender := s.fltSelf slot, subject := subject, link := link, cause := 2, port := port, score := score / 65536 }
  match k with
  | .member slot m => if s.fltServes slot && (s.fltRec slot).isSome then send s slot m false 0 else s
  | .port p => (s.fltSlots.filter s.fltServes).foldl (fun s slot => send s slot (s.fltSelf slot) true p) s
  | .self => (s.fltSlots.filter s.fltServes).foldl (fun s slot => send s slot (s.fltSelf slot) false 0) s

/-- One subject's score after a millisecond. -/
def State.healthTick (s : State) (k : Subject) : State :=
  let h := s.healthOf k
  let score := min (Config.healthDecay (s.fld Reg.FLT_HEALTH_CFG_HALF_S) h.score) h.score + h.adds * 65536
  let reach := s.atLeast score 1
  let s1 := s.setHealth k { h with score := score, adds := 0, sent := if reach then true else if s.atLeast score 2 then h.sent else false }
  if reach && !h.sent then s1.suspectHealth k score else s1

/-- Probation scores after a millisecond: decay, and the events of the ports toward the device. -/
def State.probationTick (s : State) : State :=
  s.fltSlots.foldl (fun (s : State) slot =>
    ((s.fltGroup slot).members.filter fun p => p.2.fenced && p.2.probation).foldl (fun (s : State) p =>
      let adds := sumOf ((s.portsToward slot p.1).map fun q => s.flt.fencedAdds.getD q 0)
      s.onMember slot p.1 fun x => { x with
        probScore := min (Config.healthDecay (s.fld Reg.FLT_HEALTH_CFG_HALF_S) x.probScore) x.probScore + adds * 65536 }) s) s

/-- A port fenced for its link returns once its score has stayed low for PROB_S with its link up. -/
def State.linkReturns (s : State) : State :=
  s.flt.linkFence.foldl (fun (s : State) p =>
    if s.portUp p.1 && !s.atLeast (s.healthOf (.port p.1)).score 4 then
      let t := s.flt.low.getD p.1 s.nowNs
      if t + s.fld Reg.FLT_PROB_CFG_PROB_S * 1000000000 ≤ s.nowNs ∧ s.fltServes p.2 = true then
        s.decideOn p.2 (s.fltSelf p.2) 4 true p.1
      else s.onFltState fun f => { f with low := f.low.put p.1 t }
    else s.onFltState fun f => { f with low := f.low.del p.1 }) s

/-- Members a stalled context belongs to gain the weight of a stall. -/
def State.stallWeights (s : State) : State :=
  let s1 := s.flt.stalled.foldl (fun (s : State) n =>
    s.fltSlots.foldl (fun (s : State) slot =>
      ((watchSet (s.fltN slot) (s.fltSelf slot)).filter fun m => mAddrOf (s.member slot m) == cPeer (s.ctxRec n)).foldl
        (fun s m => s.healthAdd (.member slot m) 8) s) s) s
  s1.onFltState fun f => { f with stalled := [] }

/-- A millisecond of health scores. -/
def State.healthUpdate (s : State) : State :=
  let s1 := s.stallWeights
  let s2 := (s1.flt.health.map (·.1)).foldl (fun s k => s.healthTick k) s1
  let s3 := s2.probationTick.onFltState fun f => { f with fencedAdds := [] }
  s3.linkReturns.ballotsLook

/-! ### The rows -/

def execFltProbation (op : OpKey) (s : State) : Host.Outcome State Fault Refusal :=
  .next (s.mgmtPF op 0x0011 fun o s => s.fltProbation o)

def execHeartbeatSend (slot : Nat) (s : State) : Host.Outcome State Fault Refusal :=
  .next (s.inPool fun s => s.heartbeats slot)

def execJuwesyHeartbeat (_src m : Bytes) (s : State) : Host.Outcome State Fault Refusal :=
  .next (s.inPool fun s => s.fltHear m 1 fun s slot sender b => s.hearHeartbeat slot sender (jGen m) b)

def execHeartbeatMiss (slot m : Nat) (s : State) : Host.Outcome State Fault Refusal :=
  .next (s.inPool fun s => s.heartbeatMiss slot m)

def execSuspectRetry (slot m : Nat) (s : State) : Host.Outcome State Fault Refusal :=
  .next (s.inPool fun s => s.suspectRetry slot m)

def execJuwesySuspect (_src m : Bytes) (s : State) : Host.Outcome State Fault Refusal :=
  .next (s.inPool fun s => s.fltHear m 2 fun s slot sender b => s.hearSuspect slot sender b)

def execJuwesyVoteReq (_src m : Bytes) (s : State) : Host.Outcome State Fault Refusal :=
  .next (s.inPool fun s =>
    s.fltHear m 3 fun s slot sender b =>
      if s.fltN slot ≤ getBE b 4 2 then s.fltCount slot 10
      else s.ballotIn slot ⟨sender, getBE b 0 4, getBE b 4 2, getBE b 7 1⟩)

/-- 200 µs pass without the condition: the answer is NO. -/
def execVoteAnswerTimeout (slot coord id : Nat) (s : State) : Host.Outcome State Fault Refusal :=
  .next (s.inPool fun s =>
    match (s.fltGroup slot).ballots.find? fun b => b.coord == coord && b.id == id with
      | some b => s.answer slot b false
      | none => s)

def execJuwesyVote (_src m : Bytes) (s : State) : Host.Outcome State Fault Refusal :=
  .next (s.inPool fun s => s.fltHear m 4 fun s slot sender b => s.hearBallot slot (getBE b 0 4) sender (getBE b 4 1 == 1))

/-- VOTE_WAIT passes without a majority: no decision. -/
def execVoteWaitExpire (slot id : Nat) (s : State) : Host.Outcome State Fault Refusal :=
  .next (s.inCore fun s =>
    if (s.fltGroup slot).votes.any fun v => v.id == id then
        (s.onFlt slot fun g => { g with votes := g.votes.filter fun v => v.id != id }).fltCount slot 3
      else s)

def execJuwesyDecide (src m : Bytes) (s : State) : Host.Outcome State Fault Refusal :=
  .next (s.inPool fun s => s.fltHear m 5 fun s slot sender b => s.hearDecide slot src sender b)

def execDecideResend (slot coord id child : Nat) (s : State) : Host.Outcome State Fault Refusal :=
  .next (s.inPool fun s => s.decideResend slot coord id child)

def execJuwesyDecideAck (_src m : Bytes) (s : State) : Host.Outcome State Fault Refusal :=
  .next (s.inPool fun s => s.fltHear m 6 fun s slot sender b => s.hearAck slot sender b)

def execRecoveryQuietDone (slot : Nat) (s : State) : Host.Outcome State Fault Refusal :=
  .next (s.inCore fun s => s.quietDone slot)

def execHealthUpdate (s : State) : Host.Outcome State Fault Refusal := .next (s.inPool fun s => s.healthUpdate)

def execHoldRelease (slot : Nat) (s : State) : Host.Outcome State Fault Refusal :=
  .next (s.inPool fun s => s.holdRelease slot)

def execProbeSend (slot : Nat) (s : State) : Host.Outcome State Fault Refusal :=
  .next (s.inPool fun s => s.probe slot)

def execJuwesyProbe (_src m : Bytes) (s : State) : Host.Outcome State Fault Refusal :=
  .next (s.inPool fun s => s.fltHear m 8 fun s slot sender b => s.hearProbe slot sender b)

/-- PROBE_ACK tells the device nothing it keeps (R534). -/
def execJuwesyProbeAck (_src m : Bytes) (s : State) : Host.Outcome State Fault Refusal :=
  .next (s.inPool fun s => s.fltHear m 9 fun s _ _ _ => s)

def execProbationEnd (slot : Nat) (s : State) : Host.Outcome State Fault Refusal :=
  .next (s.inPool fun s => s.probationEnd slot)

def execProbationNoDecision (slot : Nat) (s : State) : Host.Outcome State Fault Refusal :=
  .next (s.inCore fun s => s.probationFailed slot)

def execJuwesyPace (_src m : Bytes) (s : State) : Host.Outcome State Fault Refusal :=
  .next (s.inPool fun s => s.fltHear m 7 fun s slot sender b => s.hearPace slot sender b)

/-- 50 µs after an announcement it is sent again (R537). -/
def execPaceSecondSend (s : State) : Host.Outcome State Fault Refusal :=
  .next (s.inPool fun s =>
    match s.flt.paceAgain with
      | [] => s
      | (slot, body) :: rest => (s.onFltState fun f => { f with paceAgain := rest }).paceDown slot (s.fltSelf slot) body)

/-- CLR of `FLT.STAT_SEL` (R539). -/
def execFltStatClr (v : View) (w : Word) (s : State) : Host.Outcome State Fault Refusal :=
  .next (s.selClear v .flt 0x200 w fun sel s => s.setFld Reg.FLT_STAT_VALUE_VALUE (sel / 16 % 16 * 16 + sel % 16) 0)

/-- The retransmission timer of a context (R245, R247). -/
def execRtoExpire (ctx : Nat) (s : State) : Host.Outcome State Fault Refusal :=
  .next (s.inPool fun s => State.ctxFailing s (s.rtoExpire ctx) ctx true)

/-- A context record is read from the trusted region (R236, R238): which of its pseudo-channels holds it is an open value
(notes/assumptions/175.md). Answers whether it can be read. -/
def State.recordRead (s : State) (read : MemRead) : Bool × State :=
  read.foldl (fun (ok, s) e =>
    let (x, s1) := s.fresh
    match s1.noteBurst ⟨0, s.mem.trusted.getD (x % 4) 0⟩ none e with
    | (none, s2) => (false, s2)
    | (some _, s2) => (ok, s2)) (true, s)

/-- A context record has been fetched: waiting packets are handled, or the record was lost (R238, R240). -/
def State.contextFetched (s : State) (ctx : Nat) (read : MemRead) : State :=
  if s.cached ctx then s
  else match s.recordRead read with
    | (true, s1) => s1.fetched ctx
    | (false, s1) => State.ctxFailing s1 (s1.ctxFail ctx 2) ctx false

/-- CONTEXT_FETCH_DONE (R238, R240). -/
def execContextFetchDone (ctx : Nat) (read : MemRead) (s : State) : Host.Outcome State Fault Refusal :=
  .next (s.inPool fun s => s.contextFetched ctx read)

end Sys2Proof.Machine
end

