-- ==== Sys2Proof/Machine/Faults.lean ====
section
/-!
DEFINITION. Translation faults that resolve or stay unresolved (R135 to R138, R294, R340): invalidations, page-request
responses and the hold times.
-/

namespace Sys2Proof.Machine

/-- A transfer or line operation held by a fault ends. -/
def State.endHeld (s : State) (o : Op) (status : Nat) : State := s.stopXfer o status

/-- A transfer or line operation held by a fault has its segment executed again. -/
def State.resumeOp (s : State) (o : Op) : State :=
  s.setHold o.key (if dOp o.desc = 2 ∨ dOp o.desc = 3 then .other else .none)

/-- A program context held by a fault waits to be placed again; if it is still being saved, the save ends as usual. -/
def State.resumeRun (s : State) (n : Nat) : State :=
  let c := s.tctx n
  (s.setTctx n { c with hold := .none, st := if c.st = csxHELD then csxSAVED else c.st }).place

/-- A collective held by faults of its log or spill area tries again. -/
def State.resumeColl (s : State) (g q : Nat) : State :=
  match s.collOp g q with
  | none => s
  | some o =>
    let s1 := s.setCollOp { o with logHeld := [], areaHeld := false }
    (o.logHeld.foldl (fun (s : State) w => match s.collOp g q with
      | some p => s.writeLog p w.1 w.2
      | none => s) s1).collSettle

/-! ### MMU_INVALIDATE (R135, R138) -/

/-- Held segments of a domain translate again. -/
def State.retryDomain (s : State) (dom : Nat) : State :=
  let isDom := fun (h : Hold) => match h with
    | .devFault d _ _ => d == dom
    | _ => false
  let s1 := ((s.hif.ops.map (·.2)).filter fun o => dKind o.desc == kindXFER && isDom o.hold).foldl (fun s o => s.resumeOp o) s
  let s2 := (s1.tfb.ctxs.filter fun p => isDom p.2.hold).foldl (fun s p => s.resumeRun p.1) s1
  ((s2.col.ops.map (·.2)).filter fun o => o.domain == dom && (!o.logHeld.isEmpty || o.areaHeld)).foldl
    (fun s o => s.resumeColl o.group o.seq) s2

/-- Blocks that a segment's expanders hold were read from a range of addresses; a length of 0 is every address. -/
def State.blocksFrom (s : State) (who : Consumer) (first len : Nat) : Bool :=
  let meets := fun (a n : Nat) => len == 0 || (decide (a < first + len) && decide (first < a + n))
  (s.ash.queues.any fun p => p.2.any fun b => b.who == who && (meets b.at_ b.block.length || meets b.hdr 64)) ||
    (s.ash.ready.getD who []).any fun e => meets e.at_ e.len || meets e.hdr 64

/-- Segments of transfers that have read blocks through a translation of a range return to their start (R135, R137). -/
def State.restartXfers (s : State) (uses : Op → Bool) (first len : Nat) : State :=
  ((s.hif.ops.map (·.2)).filter fun o => dKind o.desc == kindXFER && dOp o.desc == 1 && uses o &&
    s.blocksFrom (.xfer o.key) first len).foldl (fun s o => s.blocksDrop (.xfer o.key)) s

/-- Groups of runs in a domain that have read blocks through a translation of a range return to their start (R135). -/
def State.restartRuns (s : State) (dom first len : Nat) : State :=
  ((s.tfb.ctxs.filter fun p => p.2.runDomain == dom && s.blocksFrom (.run p.1) first len).map (·.1)).foldl
    (fun s n => s.blocksDrop (.run n)) s

/-- MMU_INVALIDATE: translations of the range are dropped, and segments that have read through one but not committed return
to their start. -/
def State.mmuInvalidate (s : State) (o : Op) : State :=
  match s.domainOf o.fn (mParam0 o.desc % 4096) with
  | none => s.finish o.key stDOMAIN_DENIED
  | some d =>
    let first := mAddr o.desc
    let len := mParams o.desc 0 8
    let s1 := (s.dropTlb d first len).restartXfers
      (fun x => xSrcSpace x.desc == 1 && s.domainOf x.fn (dDomain x.desc) == some d) first len
    ((s1.restartRuns d first len).retryDomain d).finish o.key stOK

/-- An ATS Invalidation Request of a function (R137): its cached translations of the range are dropped, segments that have
read through one but not committed return to their start, and the answer follows. -/
def State.atsInvalidate (s : State) (fn addr len : Nat) : State :=
  ((s.onMem fun m => { m with
    ats := m.ats.filter fun p => !(p.1 == fn && decide (p.2 * 4096 < addr + len) && decide (addr < p.2 * 4096 + 4096)) }
    ).restartXfers (fun x => xSrcSpace x.desc == 0 && x.fn == fn) addr len).emit (.atsDone fn addr len)

/-! ### Hold times and page requests -/

/-- DEV_WAIT_US passes with the fault unresolved. -/
def State.devTimeout (s : State) (h : HeldRef) : State :=
  match h with
  | .op k => match s.op? k with
    | some o => match o.hold with
      | .devFault .. => s.endHeld o stTRANSLATION_FAULT
      | _ => s
    | none => s
  | .run n => match (s.tctx n).hold with
    | .devFault .. => s.runEnd n stTRANSLATION_FAULT
    | _ => s
  | .coll g q => match s.collOp g q with
    | some o =>
      if !o.logHeld.isEmpty then s.collEnd { o with logHeld := [] } stTRANSLATION_FAULT
      else if o.areaHeld then s.collEnd o stCOLL_SPILL_FAULT
      else s
    | none => s

/-- A page request is answered, or its wait ends: the segment is executed again, or its operation ends (R136). -/
def State.priEnd (s : State) (h : HeldRef) (success : Bool) : State :=
  match h with
  | .op k => match s.op? k with
    | some o =>
      if o.hold.asks = false then s
      else (if success then s.resumeOp o else s.endHeld o stTRANSLATION_FAULT).nextPageRequest
    | none => s
  | .run n =>
    if (s.tctx n).hold.asks = false then s
    else (if success then s.resumeRun n else s.runEnd n stTRANSLATION_FAULT).nextPageRequest
  | .coll .. => s

/-! ### The rows -/

def execMmuInvalidate (op : OpKey) (s : State) : Host.Outcome State Fault Refusal :=
  .next (s.pooled fun s => s.start op (isMgmt 0x000A) fun o s => s.mmuInvalidate o)

/-- ATS_INVALIDATE (R137). -/
def execAtsInvalidate (fn addr len : Nat) (s : State) : Host.Outcome State Fault Refusal :=
  .next (s.inCore fun s => s.atsInvalidate fn addr len)

def execDevFaultTimeout (h : HeldRef) (s : State) : Host.Outcome State Fault Refusal :=
  .next (s.inPool fun s => s.devTimeout h)

def execPriResponse (h : HeldRef) (success : Bool) (s : State) : Host.Outcome State Fault Refusal :=
  .next (s.inCore fun s => s.priEnd h success)

def execPriTimeout (h : HeldRef) (s : State) : Host.Outcome State Fault Refusal :=
  .next (s.inCore fun s => s.priEnd h false)

end Sys2Proof.Machine
end

