-- ==== Sys2Proof/Machine/Time.lean ====
section
/-!
DEFINITION. The time unit (R462 to R473): the counter, captures, the jump guard, pulses and the PTP function's rows.
What a step makes due (R471) is in TimeStep.lean.
-/

namespace Sys2Proof.Machine

/-- Units of 2⁻³² ns in the counter's whole range: SEC has 48 bits. -/
def timeRange : Nat := 2 ^ 48 * 1000000000 * 2 ^ 32

/-- The counter in units of 2⁻³² ns. -/
def TimeState.total (t : TimeState) : Nat := (t.sec * 1000000000 + t.ns) * 2 ^ 32 + t.frac

/-- The counter set from units of 2⁻³² ns (R462: NS carries into SEC). -/
def TimeState.ofTotal (t : TimeState) (n : Nat) : TimeState :=
  let n := n % timeRange
  { t with sec := n / 2 ^ 32 / 1000000000, ns := n / 2 ^ 32 % 1000000000, frac := n % 2 ^ 32 }

/-- The live INC in units of 2⁻³² ns (R463). -/
def State.inc (s : State) : Nat := s.fld Reg.TIM_INC_HI_INC * 2 ^ 32 + s.fld Reg.TIM_INC_LO_INC

/-- One tick of the timing clock (R462): the counter advances by INC, unless PORST_N is asserted. -/
def State.tick (s : State) : State :=
  if s.boot.porst then s
  else
    let t := s.time.ofTotal (s.time.total + s.inc)
    { s with time := { t with ticks := s.time.ticks + 1 } }

/-- The counter moves by Δ ns on one tick (R471). -/
def State.addDelta (s : State) (delta : Int) : State :=
  let t := ((s.time.total : Int) + delta * ((2 ^ 32 : Nat) : Int)) % (timeRange : Int)
  { s with time := s.time.ofTotal t.toNat }

/-- A write of CAPTURE (R464): the three fields are latched into the SNAP registers. -/
def State.timeCapture (s : State) (w : Nat) : State :=
  if bitAt w 0 then
    ((((s.setFld Reg.TIM_SNAP_SEC_LO_SEC 0 s.time.sec).setFld Reg.TIM_SNAP_SEC_HI_SEC 0 (s.time.sec / 2 ^ 32)).setFld
      Reg.TIM_SNAP_NS_NS 0 s.time.ns).setFld Reg.TIM_SNAP_FRAC_FRAC 0 (s.time.frac / 2 ^ 16))
  else s

/-- The candidate C of the jump guard, in ns. -/
def State.candidate (s : State) : Int :=
  toSigned 64 (s.fld Reg.TIM_JUMP_CAND_LO_CAND + 2 ^ 32 * s.fld Reg.TIM_JUMP_CAND_HI_CAND)

/-- The state with candidate C replaced. -/
def State.setCandidate (s : State) (c : Int) : State :=
  (s.setFld Reg.TIM_JUMP_CAND_LO_CAND 0 (ofSigned 64 c)).setFld Reg.TIM_JUMP_CAND_HI_CAND 0 (ofSigned 64 c / 2 ^ 32)

/-- The candidate is cleared. -/
def State.clearCandidate (s : State) : State :=
  (((s.setCandidate 0).setFlag Reg.TIM_STATUS_JUMP_PENDING 0 false).setFlag Reg.TIM_STATUS_ARMED 0 false).setFld
    Reg.TIM_STATUS_CONSIST_COUNT 0 0

/-- What the jump guard makes of a refused request (R470 items 1 to 3). -/
def State.refuseJump (s : State) (delta : Int) : State :=
  let s := s.bump Reg.TIM_STATUS_STEPS_REFUSED
  let window : Int := s.fld Reg.TIM_GUARD_CFG2_CONSIST_NS
  if !s.flag Reg.TIM_STATUS_JUMP_PENDING || window < ((delta - s.candidate).natAbs : Int) then
    ((((s.setCandidate delta).setFlag Reg.TIM_STATUS_JUMP_PENDING 0 true).setFlag Reg.TIM_STATUS_ARMED 0 false).setFld
      Reg.TIM_STATUS_CONSIST_COUNT 0 1).raise Ev.TIME_JUMP_REFUSED 0 (ofSigned 64 delta)
  else
    let s1 := (s.setCandidate delta).bump Reg.TIM_STATUS_CONSIST_COUNT
    if s1.fld Reg.TIM_GUARD_CFG_N_CONSIST ≤ s1.fld Reg.TIM_STATUS_CONSIST_COUNT ∧ !s1.flag Reg.TIM_STATUS_ARMED then
      (s1.setFlag Reg.TIM_STATUS_ARMED 0 true).raise Ev.TIME_JUMP_ARMED 0 (ofSigned 64 delta)
    else s1

/-- What the guard decides of a step request (R469, R470), before its consequences: the state to step by Δ, or the state
after a refusal. In ACQUIRE every request is applied; N_CONSIST small ones in a row lead to TRACK. -/
inductive GuardVerdict where
  | apply (s : State)
  | refuse (s : State)

/-- The jump guard (R469, R470). -/
def State.guardStep (s : State) (delta : Int) : GuardVerdict :=
  let small := decide (delta.natAbs ≤ s.fld Reg.TIM_GUARD_CFG_JUMP_NS)
  if !s.flag Reg.TIM_STATUS_TRACK then
    let n := if small then s.time.consistApplied + 1 else 0
    let s1 := { s with time := { s.time with consistApplied := n } }
    .apply (if s.fld Reg.TIM_GUARD_CFG_N_CONSIST ≤ n then s1.setFlag Reg.TIM_STATUS_TRACK 0 true else s1)
  else if small then .apply s.clearCandidate
  else .refuse (s.refuseJump delta)

/-- A rising edge on PPS_IN (R472): stamped and latched when IN_EN is 1 and 0.5 s have passed since the last. -/
def State.ppsEdge (s : State) : State :=
  let early := match s.time.ppsLast with
    | some t => decide (s.uptimeNs < t + 500000000)
    | none => false
  if !s.flag Reg.TIM_PPS_CFG_IN_EN || early then s
  else
    let s1 := { s with time := { s.time with ppsLast := some s.uptimeNs } }
    ((s1.setFld Reg.TIM_PPS_IN_SEC_SEC 0 s.time.sec).setFld Reg.TIM_PPS_IN_NS_NS 0 s.time.ns).bumpWrap
      Reg.TIM_PPS_IN_COUNT_COUNT

/-- PPS_OUT rises when OUT_EN is 1 (R472). -/
def State.ppsRise (s : State) : State :=
  if s.flag Reg.TIM_PPS_CFG_OUT_EN then { s with time := { s.time with ppsOut := true } } else s

/-- A PTP message of the served domain reaches the PTP function (R473). A master heard ends the loss of masters; a
Delay_Req or Pdelay_Req of the configured mechanism is answered, one-step (R467), with the receive stamp after
RX_ADJ (R466), in units of 2⁻⁴ ns. -/
def State.ptpMessage (s : State) (m : PtpMsg) : State :=
  if m.domain ≠ s.fld Reg.TIM_PTP_CFG_DOMAIN then s
  else
    let stamp := ofSigned 80 ((m.stamp : Int) + toSigned 16 (s.fld Reg.TIM_PORT_ADJ_RX_ADJ m.port))
    match m.kind with
    | .announce =>
      ({ s with time := { s.time with ptpMasters := withElem s.time.ptpMasters m.port } }).setFlag
        Reg.TIM_STATUS_HOLDOVER 0 false
    | .sync => s
    | .delayReq => if s.fld Reg.TIM_PTP_CFG_DELAY_MECH = 0 then s.emit (.ptpReply m.port false stamp) else s
    | .pdelayReq => if s.fld Reg.TIM_PTP_CFG_DELAY_MECH = 1 then s.emit (.ptpReply m.port true stamp) else s
    | .other => s

/-- TIME_CAPTURE (R464). -/
def execTimeCapture (w : Word) (s : State) : Host.Outcome State Fault Refusal :=
  .next (s.inAon fun s => s.timeCapture w.toNat)

/-- PPS_IN_EDGE (R472). -/
def execPpsInEdge (s : State) : Host.Outcome State Fault Refusal := .next (s.inAon fun s => s.ppsEdge)

/-- PPS_OUT_PULSE (R472). -/
def execPpsOutPulse (s : State) : Host.Outcome State Fault Refusal := .next (s.inAon fun s => s.ppsRise)

/-- PPS_OUT_FALL (R472). -/
def execPpsOutFall (s : State) : Host.Outcome State Fault Refusal :=
  .next (s.inAon fun s => { s with time := { s.time with ppsOut := false } })

/-- PTP_MASTER_LOST (R473): HOLDOVER is set and INC keeps its last value. -/
def execPtpMasterLost (s : State) : Host.Outcome State Fault Refusal :=
  .next (s.inAon fun s => ({ s with time := { s.time with ptpMasters := [] } }).setFlag Reg.TIM_STATUS_HOLDOVER 0 true)

end Sys2Proof.Machine
end

