-- ==== Sys2Proof/Machine/Cox.lean ====
section
/-!
DEFINITION. The coxes (R21 to R25) and the in-service update that rotates their firmware (R74 to R78), with flash and
the management handover (R502).
-/

namespace Sys2Proof.Machine

def roleLOADING : Nat := 0
def roleACTIVE : Nat := 1
def roleSTANDBY : Nat := 2
def roleFAILED : Nat := 3

def State.coxRole (s : State) (n : Nat) : Nat := s.fld (Reg.DBQ_COX_STATUS_ROLE.nth n)
def State.coxSet (s : State) (n : Nat) : Nat := s.fld (Reg.DBQ_COX_STATUS_QUEUE_SET.nth n)

/-- A cox takes a role and a queue set (0xF: none). -/
def State.setCox (s : State) (n role qs : Nat) : State :=
  (s.setFld (Reg.DBQ_COX_STATUS_ROLE.nth n) 0 role).setFld (Reg.DBQ_COX_STATUS_QUEUE_SET.nth n) 0 qs

/-- The cox in the STANDBY role. -/
def State.standby (s : State) : Option Nat := (List.range 9).find? fun n => s.coxRole n == roleSTANDBY

/-- Queue set `qs` of cox `n` passes to the standby `b`, which resumes it, and COX_TAKEOVER is posted (R21, R22 steps 2
and 3); cause 0 progress watch, 1 self-check, 2 request or update. -/
def State.handOver (s : State) (n b qs cause : Nat) : State :=
  (((s.setCox n roleLOADING 0xF).setCox b roleACTIVE qs).resumeSet qs).raise Ev.COX_TAKEOVER n
    (b + qs * 2 ^ 8 + cause * 2 ^ 12)

/-- A reload of cox `n` starts (R22 step 4): it is LOADING, and each attempt counts in RELOAD_COUNT. -/
def State.startReload (s : State) (n : Nat) (waiters : List OpKey) (rotation : Bool) : State :=
  let s1 := ((s.setCox n roleLOADING 0xF).setFld (Reg.DBQ_COX_STATUS_FW_GEN.nth n) 0 0).bump
    (Reg.DBQ_COX_STATUS_RELOAD_COUNT.nth n)
  { s1 with cox := { s1.cox with
    reloads := s1.cox.reloads.put n { failed := 0, waiters := waiters, rotation := rotation } } }

/-- What R22 lets the management subsystem declare cox `n` hung for: 0, an ACTIVE cox whose intake holds work has made no
progress; 1, the self-check under way on it fails. -/
def State.mayHang (s : State) (n cause : Nat) : Bool :=
  let i := s.intake (s.coxSet n)
  decide (n < 9) && ((cause == 0 && s.coxRole n == roleACTIVE && !(i.fill.isEmpty && i.drain.isEmpty)) ||
    (cause == 1 && s.cox.checking.contains n))

/-- A watched cox is declared hung (R22, R24). -/
def State.coxHang (s : State) (n cause : Nat) : State :=
  let s0 := { s with cox := { s.cox with checking := without s.cox.checking n } }
  let role := s.coxRole n
  if !s.mayHang n cause then s
  else if role = roleACTIVE then
    let qs := s.coxSet n
    let s1 := s0.setFlag (Reg.DBQ_COX_STATUS_HANG.nth n) 0 true
    let s2 := match s.standby with
      | some b => s1.handOver n b qs cause
      | none => (s1.setFlag (Reg.DBQ_INTAKE_STATUS_HELD.nth qs) 0 true).raise Ev.COX_DEGRADED n (qs * 2 ^ 8)
    s2.startReload n [] false
  else if role = roleSTANDBY then (s0.setFlag (Reg.DBQ_COX_STATUS_HANG.nth n) 0 true).startReload n [] false
  else s

/-- A self-check starts on every watched cox (R22). -/
def State.selfCheck (s : State) : State :=
  { s with cox := { s.cox with
    checking := (List.range 9).filter fun n => s.coxRole n == roleACTIVE || s.coxRole n == roleSTANDBY } }

/-- A standby cox takes over a held queue set at once and resumes it (R21, R24). With several queue sets held, the manual
does not say which: the lowest-numbered one (notes/assumptions/152.md). -/
def State.takeHeld (s : State) (n : Nat) : State :=
  match (List.range 8).find? s.qsHeld with
  | none => s
  | some qs =>
    ((s.setCox n roleACTIVE qs).setFlag (Reg.DBQ_INTAKE_STATUS_HELD.nth qs) 0 false).resumeSet qs

/-! ### The update's states (`MGT.UPDATE_STATUS`) -/

def upIDLE : Nat := 0
def upSTAGING : Nat := 1
def upVERIFIED : Nat := 2
def upROTATION : Nat := 3
def upWAIT : Nat := 4
def upHANDOVER : Nat := 5
def upFLASH : Nat := 6
def upDONE : Nat := 7
def upHALTED : Nat := 8

def State.upState (s : State) : Nat := s.fld Reg.MGT_UPDATE_STATUS_STATE

/-- `UPDATE_STATUS.COX`: the cox being reloaded, 0xF none. -/
def State.setUpCox (s : State) (n : Nat) : State := s.setFld Reg.MGT_UPDATE_STATUS_COX 0 n

/-- The update enters a state and posts UPDATE_PROGRESS. -/
def State.setUp (s : State) (st : Nat) : State :=
  let s1 := s.setFld Reg.MGT_UPDATE_STATUS_STATE 0 st
  if s.upState = st then s1
  else s1.raise Ev.UPDATE_PROGRESS 0 (st + s1.fld Reg.MGT_UPDATE_STATUS_COX * 2 ^ 4 +
    s1.fld Reg.MGT_UPDATE_STATUS_BLOCKS_DONE * 2 ^ 8)

/-- The UPDATE_STAGE request that started the update completes. -/
def State.endUpdate (s : State) (status : Nat) : State :=
  match s.boot.updateOp with
  | some k => ({ s with boot := { s.boot with updateOp := none } }).finish k status
  | none => s

/-- The update halts with a status (R75, R78, R502). R75 gives UPDATE_FLASH_FAIL no STATE: HALTED
(notes/assumptions/155.md). -/
def State.haltUpdate (s : State) (status : Nat) : State :=
  (((s.setFld Reg.MGT_UPDATE_STATUS_ERROR 0 status).setUpCox 0xF).setUp upHALTED).endUpdate status

/-- The update waits for a STANDBY cox (R29, R78): no cox is being reloaded for it. -/
def State.awaitStandby (s : State) : State := (s.setUpCox 0xF).setUp upWAIT

/-- The rotation goes on (update step 3, R29): the next cox is reloaded, an active one after handing its queue set to the
standby; without a standby the update waits; with none left the management handover begins. -/
def State.rotate (s : State) : State :=
  match s.boot.rotation with
  | [] => (s.setUpCox 0xF).setUp upHANDOVER
  | n :: rest =>
    let role := s.coxRole n
    let go := fun (s : State) =>
      (({ s with boot := { s.boot with rotation := rest } }).setUpCox n).setUp upROTATION
    if role = roleACTIVE then
      match s.standby with
      | some b => ((go s).handOver n b (s.coxSet n) 2).startReload n [] true
      | none => s.awaitStandby
    else if role = roleLOADING then s.awaitStandby
    else (go s).startReload n [] true

/-- The update is in its rotation and no cox of it is being reloaded: it goes on. -/
def State.resumeRotation (s : State) : State :=
  if (s.upState = upROTATION ∨ s.upState = upWAIT) ∧ !(s.cox.reloads.any fun r => r.2.rotation) then s.rotate else s

/-- A reload ends well (R23): the cox is STANDBY, takes over a held queue set if there is one, and the requests that
wait for it complete. A reload outside the rotation, also that of a cox which hangs after the rotation has passed it,
loads the running image (notes/assumptions/157.md). -/
def State.reloadOk (s : State) (n : Nat) (r : Reload) : State :=
  let img := if r.rotation then s.boot.staged.getD s.boot.running else s.boot.running
  let gen := img.gen
  let s1 := { s with cox := { s.cox with reloads := s.cox.reloads.del n, firmware := s.cox.firmware.put n img.coxDigest } }
  let s2 := (s1.setCox n roleSTANDBY 0xF).setFld (Reg.DBQ_COX_STATUS_FW_GEN.nth n) 0 gen
  let s3 := s2.raise Ev.COX_RELOADED n (gen * 2 ^ 8 + s.fld (Reg.DBQ_COX_STATUS_RELOAD_COUNT.nth n) * 2 ^ 16)
  let s4 := r.waiters.foldl (fun s k => s.finish k stOK) s3
  (s4.takeHeld n).resumeRotation

/-- A reload attempt fails (R23, R78): twice it is tried again; after the third failure the cox is FAILED. -/
def State.reloadFail (s : State) (n : Nat) (r : Reload) : State :=
  if r.failed < 2 then
    ({ s with cox := { s.cox with reloads := s.cox.reloads.put n { r with failed := r.failed + 1 } } }).bump
      (Reg.DBQ_COX_STATUS_RELOAD_COUNT.nth n)
  else
    let s1 := { s with cox := { s.cox with reloads := s.cox.reloads.del n } }
    let s2 := ((s1.setCox n roleFAILED 0xF).setFlag (Reg.DBQ_COX_STATUS_RELOAD_FAIL.nth n) 0 true).raise Ev.COX_FAILED n 0
    let s3 := r.waiters.foldl (fun s k => s.finish k stBAD_FIELD) s2
    if r.rotation then s3.haltUpdate stUPDATE_COX_FAIL else s3.resumeRotation

/-- A reload ends (R23). -/
def State.reloadDone (s : State) (n : Nat) (ok : Bool) : State :=
  match s.cox.reloads.find n with
  | none => s
  | some r => if ok then s.reloadOk n r else s.reloadFail n r

/-- The COX_RELOAD request (R23's table). -/
def State.coxReload (s : State) (o : Op) : State :=
  let n := mParam0 o.desc
  let role := s.coxRole n
  if 9 ≤ n then s.finish o.key stBAD_FIELD
  else if role = roleFAILED ∨ role = roleSTANDBY then s.startReload n [o.key] false
  else if role = roleACTIVE then
    match s.standby with
    | some b => (s.handOver n b (s.coxSet n) 2).startReload n [o.key] false
    | none => s.finish o.key stBAD_FIELD
  else { s with cox := { s.cox with
    reloads := s.cox.reloads.upd n fun r => { r with waiters := r.waiters ++ [o.key] } } }

/-! ### The firmware image (R69) -/

/-- What verification answers. -/
inductive Verdict where
  | accept (i : ImageInfo)
  | bad
  | rollback
  deriving DecidableEq, Repr

/-- The fused SVN floor, as far as it has been raised (R70). -/
def State.svnFloor (s : State) : Nat := max (min 63 Config.svnFloorAtManufacture) s.boot.svnBlown

/-- One section entry: type, flags, offset, length, digest. -/
def imgSection (img : Bytes) (i : Nat) : Nat × Nat × Nat × Nat × Bytes :=
  let o := 0x40 + 80 * i
  (getLE img o 2, getLE img (o + 2) 2, getLE img (o + 4) 4, getLE img (o + 8) 4, sliceB img (o + 16) 64)

/-- The section checks of R69 over SECTION_COUNT entries: known types, types 1 to 4 once, inside IMAGE_LEN, aligned, not
overlapping. The layout of the image is checked with them as far as the entries go: FLAGS 0, LENGTH not 0, no section
inside the prefix, unused entries zero (notes/assumptions/158.md). -/
def sectionsOk (img : Bytes) : Bool :=
  let n := getLE img 0x10 2
  let secs := (List.range n).map (imgSection img)
  let len := getLE img 0x0C 4
  decide (4 ≤ n) && decide (n ≤ 16) &&
  (secs.all fun (t, f, o, l, _) => decide (1 ≤ t) && decide (t ≤ 5) && f == 0 && o % 4096 == 0 && decide (0 < l) &&
    decide (0x3000 ≤ o) && decide (o + l ≤ len)) &&
  ([1, 2, 3, 4].all fun t => (secs.filter fun x => x.1 == t).length == 1) &&
  (secs.zipIdx.all fun (a, i) => secs.zipIdx.all fun (b, j) =>
    i == j || decide (a.2.2.1 + a.2.2.2.1 ≤ b.2.2.1) || decide (b.2.2.1 + b.2.2.2.1 ≤ a.2.2.1)) &&
  allZero (sliceB img (0x40 + 80 * n) (80 * (16 - n)))

/-- The verification of an image held in the working store (R69). A device whose floor is 63 accepts SVN 63 only (R70). -/
def State.verifyImage (s : State) (img : Bytes) : Verdict :=
  let len := getLE img 0x0C 4
  let pk := sliceB img 0x800 2592
  let signed := sliceB img 0 0x800
  if getLE img 0 4 ≠ 0x31325654 ∨ getLE img 4 2 ≠ 1 then .bad
  else if len < 0x3000 ∨ 48 * 2 ^ 20 < len then .bad
  else if Config.sha3 pk ≠ Config.vendorKeyDigest then .bad
  else if !Config.mldsaVerify pk signed (sliceB img 0x1220 4627) then .bad
  else if getLE img 8 4 < s.svnFloor then .rollback
  else if s.svnFloor = 63 ∧ getLE img 8 4 ≠ 63 then .bad
  else if !sectionsOk img then .bad
  else if !((List.range (getLE img 0x10 2)).all fun i =>
      let (_, _, o, l, d) := imgSection img i
      Config.sha3 (sliceB img o l) == d) then .bad
  else .accept { gen := getLE img 6 1, svn := getLE img 8 4, buildId := getLE img 0x14 4, len := len,
                 prefixDigest := Config.sha3 signed, vendorPk := pk
                 coxDigest := (((List.range (getLE img 0x10 2)).map (imgSection img)).find? fun x => x.1 == 2).elim [] (·.2.2.2.2)
                 laneCal := (((List.range (getLE img 0x10 2)).map (imgSection img)).find? fun x => x.1 == 4).elim []
                   fun x => sliceB img x.2.2.1 x.2.2.2.1 }

/-! ### The in-service update (R75 to R78, R502) -/

/-- A refused update request: ERROR holds the status, and the request completes with it (R76, R77). -/
def State.refuseUpdate (s : State) (k : OpKey) (status : Nat) : State :=
  (s.setFld Reg.MGT_UPDATE_STATUS_ERROR 0 status).finish k status

/-- UPDATE_STAGE (R76): refused when an update runs or the length is 0 or above 48 MiB; else STAGING begins. -/
def State.updateStage (s : State) (o : Op) : State :=
  let st := s.upState
  if st ≠ upIDLE ∧ st ≠ upDONE ∧ st ≠ upHALTED then s.refuseUpdate o.key stUPDATE_BUSY
  else if mLen o.desc = 0 ∨ 48 * 2 ^ 20 < mLen o.desc then s.refuseUpdate o.key stUPDATE_VERIFY_FAIL
  else
    let s1 := { s with boot := { s.boot with updateOp := some o.key, staged := none, stagedImage := [] } }
    (s1.setFld Reg.MGT_UPDATE_STATUS_BLOCKS_DONE 0 0).setUp upSTAGING

/-- The update ends without a step taken: the staged copy is released, STATE returns to IDLE, and ERROR holds the status of
the UPDATE_STAGE request, also for an abort or a PCIe error (notes/assumptions/154.md). -/
def State.dropUpdate (s : State) (status : Nat) : State :=
  let s1 := { s with boot := { s.boot with staged := none, stagedImage := [], rotation := [] } }
  ((s1.setFld Reg.MGT_UPDATE_STATUS_ERROR 0 status).setUp upIDLE).endUpdate status

/-- The staged copy is verified (R69, R76), and the rotation begins: the standby first, then every other cox in ascending
order. `img` is what the copy from host memory read; none is a PCIe error. -/
def State.stagingDone (s : State) (img : Option Bytes) : State :=
  if s.upState ≠ upSTAGING then s
  else match img with
    | none => s.dropUpdate stHOST_ABORT
    | some b =>
      match s.verifyImage b with
      | .bad => s.dropUpdate stUPDATE_VERIFY_FAIL
      | .rollback => s.dropUpdate stUPDATE_ROLLBACK
      | .accept i =>
        let g := s.boot.running.gen
        if i.gen > g + 1 ∨ g > i.gen + 1 then s.dropUpdate stUPDATE_GEN_SKIP
        else
          let first := s.standby.toList
          let order := first ++ (List.range 9).filter fun n => !(first.contains n)
          let s1 := { s with boot := { s.boot with staged := some i, stagedImage := b, rotation := order } }
          (s1.setUp upVERIFIED).rotate

/-- Blocks of 64 KiB of the running image. -/
def State.imageBlocks (s : State) : Nat := (s.boot.running.len + 65535) / 65536

/-- The journalled rewrite of flash starts from block 0 (R75). A recovered image is rewritten in the same way and shows the
same states (R74, notes/assumptions/156.md). -/
def State.startFlash (s : State) : State :=
  ({ s with boot := { s.boot with flashActive := true, flashBlock := 0, flashTries := 0 } }).setUp upFLASH

/-- The update journal holds these open entries (R75). -/
def State.setJournal (s : State) (l : List (Nat × Bytes)) : State :=
  { s with boot := { s.boot with journal := l, journalOpen := !l.isEmpty } }

/-- The new contents of a flash block, and its digest. -/
def State.flashData (s : State) (k : Nat) : Bytes := sliceB s.boot.trustedImage (k * 65536) 65536

/-- The journal entry of a block is written, unless it stands: index and new digest (R75). -/
def State.journalEntry (s : State) (k : Nat) : State :=
  if s.boot.journal.any fun e => e.1 == k then s else s.setJournal (s.boot.journal ++ [(k, Config.sha3 (s.flashData k))])

/-- The journal entry of a block is closed. -/
def State.journalClose (s : State) (k : Nat) : State := s.setJournal (s.boot.journal.filter fun e => e.1 != k)

/-- The acting and the idle management core, when both roles are held (`MGT.MGC_STATUS`). -/
def State.mgcActing (s : State) : Option Nat :=
  if s.fld Reg.MGT_MGC_STATUS_ROLE0 = 1 then some 0 else if s.fld Reg.MGT_MGC_STATUS_ROLE1 = 1 then some 1 else none

/-- The role field of a management core. -/
def mgcRole (n : Nat) : Fld := if n = 0 then Reg.MGT_MGC_STATUS_ROLE0 else Reg.MGT_MGC_STATUS_ROLE1

/-- The idle core starts the new firmware and takes the acting role; the old core becomes idle, and flash is rewritten.
When it does not start, the old core keeps acting and the update halts (R500, R502). -/
def State.mgmtHandover (s : State) (ok : Bool) : State :=
  if s.upState ≠ upHANDOVER then s
  else if !ok then (s.haltUpdate stUPDATE_MGMT_FAIL).writeDeferred
  else
    let a := s.mgcActing.getD 0
    let img := s.boot.staged.getD s.boot.running
    let s1 := (s.setFld (mgcRole a) 0 2).setFld (mgcRole (1 - a)) 0 1
    let s2 := (s1.setFld Reg.MGT_MGC_STATUS_FW_GEN 0 img.gen).setFld Reg.MGT_READINESS_FW_GEN 0 img.gen
    ({ s2 with boot := { s2.boot with
      running := img, updates := s2.boot.updates + 1, trustedImage := s2.boot.stagedImage, staged := none, stagedImage := [] } }).writeDeferred.startFlash

/-- A block of the rewrite has been handled: its journal entry closes, and the next block or the end follows (R75). -/
def State.flashNext (s : State) : State :=
  let k := s.boot.flashBlock
  let s0 := s.journalClose k
  let s1 := ({ s0 with boot := { s0.boot with flashBlock := k + 1, flashTries := 0 } }).bump
    Reg.MGT_UPDATE_STATUS_BLOCKS_DONE
  if k + 1 < s.imageBlocks then s1
  else (({ s1 with boot := { s1.boot with flashActive := false } }).setUp upDONE).endUpdate stOK

/-- One block of the rewrite is skipped, begun or written, or an attempt on it fails (R75). -/
def State.flashBlockDone (s : State) (r : FlashResult) : State :=
  let k := s.boot.flashBlock
  if !s.boot.flashActive || !s.railOk 1 then s
  else match r with
    | .skipped => s.flashNext
    | .begun => s.journalEntry k
    | .written => (s.emit (.flashWrite (k * 65536) (s.flashData k))).flashNext
    | .failed =>
      let s1 := s.journalEntry k
      if s1.boot.flashTries < 2 then { s1 with boot := { s1.boot with flashTries := s1.boot.flashTries + 1 } }
      else ({ s1 with boot := { s1.boot with flashActive := false } }).haltUpdate stUPDATE_FLASH_FAIL

/-- UPDATE_ABORT (R77): with no update to abort (IDLE, DONE, HALTED) it is refused like one that comes too late
(notes/assumptions/153.md). -/
def State.updateAbort (s : State) (o : Op) : State :=
  if s.upState = upSTAGING ∨ s.upState = upVERIFIED then (s.dropUpdate stUPDATE_ABORTED).finish o.key stOK
  else s.refuseUpdate o.key stUPDATE_BUSY

/-- FLASH_RESYNC (R75): the rewrite restarts when the journal is open and no rewrite runs; an update under way makes it
wait its turn as busy. -/
def State.flashResync (s : State) (o : Op) : State :=
  let st := s.upState
  if s.boot.flashActive ∨ (upSTAGING ≤ st ∧ st ≤ upFLASH) then s.refuseUpdate o.key stUPDATE_BUSY
  else if s.boot.journalOpen then
    (({ s with boot := { s.boot with updateOp := some o.key } }).setFld Reg.MGT_UPDATE_STATUS_BLOCKS_DONE 0 0).startFlash
  else s.finish o.key stOK

/-- SVN_COMMIT (R70): a request signed under the running image's key raises the floor, never above the running image's
SVN. The manual gives the signed request no layout: the new floor is its first four bytes and the signature its last
4,627 (notes/assumptions/24.md). -/
def State.svnCommit (s : State) (o : Op) (req : Option Bytes) : State :=
  match req with
  | none => s.finish o.key stHOST_ABORT
  | some b =>
    let n := b.length - 4627
    let svn := getLE b 0 4
    if Config.mldsaVerify s.boot.running.vendorPk (b.take n) (b.drop n) && decide (svn ≤ s.boot.running.svn)
        && decide (svn ≤ 63) then
      ({ s with boot := { s.boot with svnBlown := max s.boot.svnBlown svn } }).finish o.key stOK
    else s.finish o.key stBAD_FIELD

/-! ### Meanings -/

/-- COX_SELF_CHECK (R22). -/
def execCoxSelfCheck (s : State) : Host.Outcome State Fault Refusal := .next (s.inCore fun s => s.selfCheck)

/-- COX_HANG (R22): cause 0 progress watch, 1 self-check. -/
def execCoxHang (cox cause : Nat) (s : State) : Host.Outcome State Fault Refusal :=
  .next (s.inCore fun s => s.coxHang cox cause)

/-- COX_RELOAD_DONE (R23). -/
def execCoxReloadDone (cox : Nat) (ok : Bool) (s : State) : Host.Outcome State Fault Refusal :=
  .next (s.inCore fun s => s.reloadDone cox ok)

/-- COX_RELOAD_TIMEOUT (R22): the attempt counts as failed. -/
def execCoxReloadTimeout (cox : Nat) (s : State) : Host.Outcome State Fault Refusal :=
  .next (s.inCore fun s => s.reloadDone cox false)

/-- COX_RELOAD (R23). -/
def execCoxReload (op : OpKey) (s : State) : Host.Outcome State Fault Refusal :=
  .next (s.mgmtPF op 0x0006 fun o s => s.coxReload o)

/-- UPDATE_STAGE (R76). -/
def execUpdateStage (op : OpKey) (s : State) : Host.Outcome State Fault Refusal :=
  .next (s.mgmtPF op 0x0001 fun o s => s.updateStage o)

/-- UPDATE_STAGING_DONE (R76). -/
def execUpdateStagingDone (img : Option Bytes) (s : State) : Host.Outcome State Fault Refusal :=
  .next (s.inCore fun s => s.stagingDone img)

/-- MGMT_HANDOVER_DONE (R502). -/
def execMgmtHandoverDone (ok : Bool) (s : State) : Host.Outcome State Fault Refusal :=
  .next (s.inAon fun s => s.mgmtHandover ok)

/-- FLASH_BLOCK_DONE (R75). -/
def execFlashBlockDone (r : FlashResult) (s : State) : Host.Outcome State Fault Refusal :=
  .next (s.inCore fun s => s.flashBlockDone r)

/-- UPDATE_ABORT (R77). -/
def execUpdateAbort (op : OpKey) (s : State) : Host.Outcome State Fault Refusal :=
  .next (s.mgmtPF op 0x0002 fun o s => s.updateAbort o)

/-- FLASH_KEEP (R74). -/
def execFlashKeep (op : OpKey) (s : State) : Host.Outcome State Fault Refusal :=
  .next (s.mgmtPF op 0x0003 fun o s => ({ s with boot := { s.boot with flashKeep := true } }).finish o.key stOK)

/-- FLASH_RESYNC (R75). -/
def execFlashResync (op : OpKey) (s : State) : Host.Outcome State Fault Refusal :=
  .next (s.mgmtPF op 0x0004 fun o s => s.flashResync o)

/-- SVN_COMMIT (R70). -/
def execSvnCommit (op : OpKey) (req : Option Bytes) (s : State) : Host.Outcome State Fault Refusal :=
  .next (s.mgmtPF op 0x0005 fun o s => s.svnCommit o req)

end Sys2Proof.Machine
end

