-- ==== Sys2Proof/Machine/Mgmt.lean ====
section
/-!
DEFINITION. The management subsystem's rows (R500 to R516): management cores, I3C, management Ethernet, the event
record's upkeep and signed tokens.
-/

namespace Sys2Proof.Machine

/-! ### Management cores (R501, R503) -/

/-- The acting core is declared hung (R501, R503): cause 1 heartbeat, 2 self-check. When the other core is idle it takes
the acting role, starting from the trusted copy, or from flash under R69 when that copy is lost; else no core acts. -/
def State.mgcHang (s : State) (cause : Nat) (otherReady : Bool) (flash : Bytes) : State :=
  match s.mgcActing with
  | none => s
  | some a =>
    let b := 1 - a
    let fwOk := s.boot.trustedGood || (match s.verifyImage flash with
      | .accept _ => true
      | _ => false)
    if s.fld (mgcRole b) = 2 ∧ otherReady ∧ fwOk then
      (((s.setFld (mgcRole b) 0 1).setFld (mgcRole a) 0 2).bump Reg.MGT_MGC_STATUS_TAKEOVERS).raise
        Ev.MGC_TAKEOVER b (a + cause * 2 ^ 4)
    else
      let s1 := ((s.setFld (mgcRole a) 0 3).setFld (mgcRole b) 0 (if fwOk then 0 else 3))
      ({ s1 with mgmt := { s1.mgmt with down := true } }).raise Ev.MGMT_DOWN 0 0

/-- With no acting core, each core's start is retried (R503): the first that starts acts, the other is idle. -/
def State.mgcRetry (s : State) (ok0 ok1 : Bool) : State :=
  if !s.mgmt.down then s
  else
    let up := { s with mgmt := { s.mgmt with down := false } }
    if ok0 then (up.setFld (mgcRole 0) 0 1).setFld (mgcRole 1) 0 (if ok1 then 2 else 3)
    else if ok1 then (up.setFld (mgcRole 0) 0 3).setFld (mgcRole 1) 0 1
    else s

/-! ### I3C (R505, R506) -/

/-- Readings of a sensor kind that are not marked FAULT. -/
def State.goodReadings (s : State) (kind : Nat) : List (Nat × Int) :=
  (s.mgmt.sensors.filter fun x => x.1.1 == kind && !x.2.fault).map fun x => (x.1.2, x.2.value)

/-- The hottest good reading of a kind, in 1/16 °C, with the lowest index that shows it. -/
def State.hottest (s : State) (kind : Nat) : Option (Nat × Int) :=
  (s.goodReadings kind).foldl (fun acc x => match acc with
    | none => some x
    | some y => if y.2 < x.2 then some x else acc) none

/-- The hottest reading of a kind as 16 bits; 0 when no sensor reads. -/
def State.hottest16 (s : State) (kind : Nat) : Nat := ofSigned 16 ((s.hottest kind).map (·.2) |>.getD 0)

/-- The register file of the I3C port, 0x26 bytes (the table of R505). -/
def State.i3cFile (s : State) : Bytes :=
  let status := bit (s.flag Reg.PWR_POWER_STATUS_THROTTLED) + 2 * bit (s.flag Reg.PWR_POWER_STATUS_CAL_FAIL) +
    4 * bit (s.flag Reg.PWR_POWER_STATUS_CAP_UNREACHABLE) + 8 * bit s.mgmt.down + 16 * bit s.boot.thermTrip
  let serial := if s.boot.identity then Config.serial else 0
  let alert := s.mgmt.alerts.head?.getD (0, 0)
  bytesLE 4 (s.reg ⟨.mgt, 0x0, 0⟩).toNat ++ bytesLE 4 (s.reg ⟨.mgt, 0x20, 0⟩).toNat ++ bytesLE 8 serial ++
  bytesLE 2 (s.hottest16 0) ++ bytesLE 2 (s.hottest16 1) ++ bytesLE 2 (s.hottest16 5) ++
  bytesLE 2 (s.fld Reg.PWR_POWER_STATUS_EST_W) ++ bytesLE 2 status ++ bytesLE 2 alert.1 ++ bytesLE 8 alert.2 ++
  bytesLE 1 0 ++ bytesLE 1 s.mgmt.alertSev

/-- The oldest alert is acknowledged; with the list empty nothing happens (R506). -/
def State.alertAck (s : State) : State := { s with mgmt := { s.mgmt with alerts := s.mgmt.alerts.tail } }

/-- The I3C target answers: from stage FUSES onward, also under FUSE_FAULT, with VDD_IO good (R505, R497). -/
def State.i3cAnswers (s : State) : Bool :=
  !s.boot.porst && (decide (1 ≤ s.stage) || s.fld Reg.MGT_READINESS_FAIL_CODE == 1) && s.railOk 1

/-- One byte written at an index: 0xA5 at 0x24 acknowledges, 0x25 is ALERT_SEV, every other index is read-only. -/
def State.i3cWrite1 (s : State) (idx : Nat) (x : Byte) : State :=
  if idx = 0x24 ∧ x = 0xA5 then s.alertAck
  else if idx = 0x25 ∧ x.toNat ≤ 4 then { s with mgmt := { s.mgmt with alertSev := x.toNat } }
  else s

/-- The address the I3C target answers at (R38, R505): the dynamic one once it is assigned, before that 0x50 plus
STRAP_I3C_ADDR. -/
def State.i3cAddress (s : State) : Nat := s.mgmt.i3cDyn.getD (0x50 + s.fld Reg.MGT_STRAP_STATUS_I3C_ADDR)

/-- A transfer to an address of the bus (R505). -/
def State.i3cTransfer (s : State) (addr idx : Nat) (x : I3cData) : State :=
  if !s.i3cAnswers || addr != s.i3cAddress then s
  else match x with
    | .read n => s.emit (.i3cData (sliceB s.i3cFile idx n))
    | .write b => (b.zipIdx.foldl (fun s p => s.i3cWrite1 (idx + p.2) p.1) s)

/-! ### Management Ethernet (R507) -/

/-- The port is in service. -/
def State.mgeUp (s : State) : Bool :=
  !s.boot.porst && s.flag Reg.MGT_MGE_CFG_ENABLE && s.railOk 6 && !s.pinsScanned && decide (2 ≤ s.stage)

/-- A frame on the management port: answered, served, or dropped and counted. -/
def State.mgeFrame (s : State) (f : MgeFrame) : State :=
  let drop := s.bump Reg.MGT_MGE_DROPPED_COUNT
  if !s.mgeUp then s
  else match f with
    | .neighbourSolicit toUs => if toUs then s.emit .mgeReply else drop
    | .echo toUs => if toUs then s.emit .mgeReply else drop
    | .ptp m => s.ptpMessage m
    | .lldp => s
    | .solicit peer =>
      if s.flag Reg.MGT_MGE_CFG_SERVE_IMAGE && (decide (s.mgmt.mgePeers.length < 4) || s.mgmt.mgePeers.contains peer) then
        ({ s with mgmt := { s.mgmt with mgePeers := withElem s.mgmt.mgePeers peer } }).emit (.mgeOffer peer)
      else drop
    | .tftp peer block last =>
      if s.mgmt.mgePeers.contains peer then
        let s1 := s.emit (.mgeTftp peer block)
        if last then { s1 with mgmt := { s1.mgmt with mgePeers := without s1.mgmt.mgePeers peer } } else s1
      else drop
    | .other => drop

/-! ### The event record's upkeep (R512 to R514) -/

/-- A token arrives for a code with suppressed records: a SUMMARY record with no detail carries the count (R512). -/
def State.evrSummary (s : State) (code : Nat) : State :=
  let b := s.bucket code
  if b.suppressed = 0 ∨ b.tokens < 1000000000 ∨ 3 ≤ Ev.severity code then s
  else (s.setBucket code { b with tokens := b.tokens - 1000000000, suppressed := 0 }).appendRecord
    { code := code, severity := Ev.severity code, blk := code / 256, instance_ := 0, seq := 0, sec := 0, ns := 0,
      summary := true, suppressed := b.suppressed }

/-- The records left after the oldest 64 KiB block of the flash ring is erased. -/
def dropOldest (n : Nat) : List EvRecord → List EvRecord
  | [] => []
  | r :: t => if n = 0 then r :: t else dropOldest (n - r.len) t

/-- A persisted record's flash write completes (R513): when the 4 MiB ring is full its oldest block is erased. -/
def State.evrPersist (s : State) : State :=
  match (if s.railOk 1 then s.evr.persistQ else []) with
  | [] => s
  | r :: t =>
    let l := s.evr.flashRecs ++ [r]
    let l := if l.length ≤ 4096 ∨ sumOf (l.map EvRecord.len) ≤ 4 * 2 ^ 20 then l else dropOldest 65536 l
    { s with evr := { s.evr with persistQ := t, flashRecs := l } }

/-! ### Signed tokens (R515, R516) -/

/-- A fresh token nonce is drawn from the DRBG: 32 open bytes. -/
def State.drawNonce (s : State) : State :=
  { s with
    mgmt := { s.mgmt with nonce := (List.range 32).map fun i => BitVec.ofNat 8 (Config.freeNat (s.free + i)) }
    free := s.free + 32 }

/-- Why a token is refused, as EXT numbers the reasons (R515); none when it is accepted. -/
def State.tokenRefusal (s : State) (kind : Nat) (b : Bytes) : Option Nat :=
  if b.length ≠ 4755 then some 5
  else if !Config.mldsaVerify s.boot.running.vendorPk (sliceB b 0 128) (sliceB b 128 4627) then some 1
  else if getLE b 8 8 ≠ Config.serial then some 2
  else if sliceB b 0x10 32 ≠ s.mgmt.nonce then some 3
  else if getLE b 0 4 ≠ 0x4B4F5454 ∨ getLE b 4 2 ≠ 1 ∨ getLE b 6 1 ≠ kind ∨
      (if kind = 1 then 0 < getLE b 7 1 else 2 < getLE b 7 1) ∨ !allZero (sliceB b 0x40 64) then some 4
  else none

/-- EVR_CLEAR (R514). `b` is the token read from the host; none is a PCIe error. -/
def State.evrClear (s : State) (o : Op) (b : Option Bytes) : State :=
  match b with
  | none => s.finish o.key stHOST_ABORT
  | some b =>
    match (if mLen o.desc = 4755 then s.tokenRefusal 1 b else some 5) with
    | some e => s.finish o.key stBAD_FIELD e
    | none =>
      let upto := getLE b 0x30 8
      let gone := s.evr.ring.filter fun r => decide (r.seq ≤ upto)
      let goneFlash := (s.evr.flashRecs ++ s.evr.persistQ).filter fun r => decide (r.seq ≤ upto) && !(gone.any fun g => g.seq == r.seq)
      let s1 := { s with evr := { s.evr with
        ring := s.evr.ring.filter fun r => decide (upto < r.seq)
        persistQ := s.evr.persistQ.filter fun r => decide (upto < r.seq)
        flashRecs := s.evr.flashRecs.filter fun r => decide (upto < r.seq) } }
      (s1.drawNonce.raise Ev.EVR_CLEARED 0 upto 0 (Config.sha3 b)).finish o.key stOK 0 (gone.length + goneFlash.length)

/-! ### Meanings -/

/-- MGC_HANG (R501): `flash` is the image in flash, read when the trusted copy is lost. -/
def execMgcHang (cause : Nat) (otherReady : Bool) (flash : Bytes) (s : State) : Host.Outcome State Fault Refusal :=
  .next (s.inAon fun s => s.mgcHang cause otherReady flash)

/-- MGC_START_RETRY (R503). -/
def execMgcStartRetry (ok0 ok1 : Bool) (s : State) : Host.Outcome State Fault Refusal :=
  .next (s.inAon fun s => s.mgcRetry ok0 ok1)

/-- I3C_ADDRESS_ASSIGN (R505). -/
def execI3cAddressAssign (addr : Nat) (ibi : Bool) (s : State) : Host.Outcome State Fault Refusal :=
  .next (if s.i3cAnswers then { s with mgmt := { s.mgmt with i3cDyn := some addr, ibiEnabled := ibi } } else s)

/-- I3C_TRANSFER (R505). -/
def execI3cTransfer (addr idx : Nat) (x : I3cData) (s : State) : Host.Outcome State Fault Refusal :=
  .next (s.i3cTransfer addr idx x)

/-- I3C_ALERT_ACK (R506): a write of 0xA5 to index 0x24. -/
def execI3cAlertAck (s : State) : Host.Outcome State Fault Refusal :=
  .next (s.inAon fun s => if s.i3cAnswers then s.alertAck else s)

/-- MGE_FRAME_RECEIVE (R507). -/
def execMgeFrameReceive (f : MgeFrame) (s : State) : Host.Outcome State Fault Refusal := .next (s.mgeFrame f)

/-- EVR_SUMMARY (R512). -/
def execEvrSummary (code : Nat) (s : State) : Host.Outcome State Fault Refusal :=
  .next (s.inAon fun s => s.evrSummary code)

/-- EVR_PERSIST (R513). -/
def execEvrPersist (s : State) : Host.Outcome State Fault Refusal := .next (s.inAon fun s => s.evrPersist)

/-- EVR_CLEAR (R514). -/
def execEvrClear (op : OpKey) (token : Option Bytes) (s : State) : Host.Outcome State Fault Refusal :=
  .next (s.mgmtPF op 0x0009 fun o s => s.evrClear o token)

/-- CONSOLE_LINE_SENT (R508): the oldest line leaves the buffer. -/
def execConsoleLineSent (s : State) : Host.Outcome State Fault Refusal :=
  .next (s.inAon fun s =>
    match s.mgmt.console with
      | [] => s
      | n :: t => ({ s with mgmt := { s.mgmt with console := t } }).emit (.uartLine n))

end Sys2Proof.Machine
end

