-- ==== Sys2Proof/Machine/Power.lean ====
section
/-!
DEFINITION. The power estimator, the capping and slew loops, the core voltage set point, the thermal loop and thresholds,
the pace monitors, and the arbiters (R49 to R61, R477 to R488, R504).
-/

namespace Sys2Proof.Machine

def State.onPower (s : State) (f : PowerState → PowerState) : State := { s with power := f s.power }
def State.onBoot (s : State) (f : BootState → BootState) : State := { s with boot := f s.boot }

/-- Everything resets but the fuses, the flash and what its rail monitors know; the queue and the model's own fields stand
(R41, R42). -/
def State.coldReset (s : State) (rails : List Nat) (bad trip : Bool) : State :=
  { State.reset with
    boot := { railOrder := rails, railSequenceBad := bad, thermTrip := trip, svnBlown := s.boot.svnBlown
              journalOpen := s.boot.journalOpen, journal := s.boot.journal }
    evr := { flashRecs := s.evr.flashRecs, nextSeq := maxOf (s.evr.flashRecs.map (·.seq)) + 1 }
    free := s.free, out := s.out, pending := s.pending }

/-! ### Set point (R49, R481) -/

/-- A link trains: a port group acquires or checks its identity, or an electrical lane trains. -/
def State.linkTrains (s : State) : Bool :=
  ((List.range 64).any fun g => s.groupSt g == gsACQUIRING || s.groupSt g == gsID_MISMATCH || s.groupSt g == gsUP) ||
    ((List.range 64).any fun l => s.laneSt l == 2)

/-- The lowest set point permitted: the applied floor while a port carries traffic or a link trains (R49, R50), else
0.65 V. -/
def State.lowestMv (s : State) : Nat := if s.anyTraffic || s.linkTrains then s.floorMv else 650

/-- Nothing to do: no port carries traffic and no tensor run is RUNNING. -/
def State.coreIdle (s : State) : Bool := !s.anyTraffic && !(s.tfb.ctxs.any fun p => p.2.st == csxRUNNING)

/-- The set point without a limit. A V_MAX_MV below the applied floor acts as the floor while a port carries traffic
(R498). -/
def State.targetMv (s : State) : Nat :=
  max (s.fld (if s.coreIdle then Reg.PWR_V_CFG_V_IDLE_MV else Reg.PWR_V_CFG_V_MAX_MV)) s.lowestMv

/-- The power manager's set point at present. -/
def State.wantedMv (s : State) : Nat :=
  if s.power.critical then s.lowestMv else max s.lowestMv (s.targetMv - s.power.cut)

/-- The set point follows; a change is announced. -/
def State.setPoint (s : State) : State :=
  let mv := s.wantedMv
  if mv = s.coreMv then s else (s.setFld Reg.PWR_VFLOOR_STATUS_CORE_MV 0 mv).heaterAnnounce

/-! ### Estimator, cap and slew (R477 to R485) -/

/-- LIMIT in W. -/
def State.limitW (s : State) : Rat := min (s.fld Reg.PWR_CAP_CFG_CAP_W : Rat) s.power.lth

/-- The largest of 0 to 256 that meets a condition, at least `d`. -/
def largestIssue (d : Nat) (ok : Nat → Bool) : Nat := ((List.range 257).filter ok).foldl max d

/-- The slew ceiling and allowance after 4 µs at P_C mW (R484): C in mW, A in nJ. -/
def slewStep (pc c a : Nat) : Nat × Nat :=
  if c < pc then (c + 800, a - (pc - c) * 4) else (max (c - 800) pc, min (a + (c - pc) * 4) 125000000)

/-- ISSUE_CAP: the largest value whose predicted EST_W, P_C being proportional to ISSUE, lies within LIMIT (R480). -/
def issueCapOf (estMw pc cur : Nat) (limit : Rat) : Nat :=
  largestIssue 32 fun i => decide (32 ≤ i) &&
    decide (((estMw - pc : Nat) * cur + pc * i : Rat) ≤ limit * 1000 * cur)

/-- ISSUE_SLEW: with no allowance left, the largest value that keeps P_C at the ceiling (R484). -/
def issueSlewOf (pc cur c a : Nat) : Nat :=
  if a = 0 then largestIssue 0 fun i => decide (pc * i ≤ c * cur) else 256

/-- ISSUE of the next interval: it falls at once, and rises by at most 16 once the set point is at its target (R480,
R481). -/
def nextIssue (cur want : Nat) (atTarget : Bool) : Nat :=
  if want ≤ cur then want else if atTarget then min want (cur + 16) else cur

/-- A count of 4 µs intervals in a row. -/
def runLength (n : Nat) (holds : Bool) : Nat := if holds then n + 1 else 0

/-- CAP_UNREACHABLE after 10 ms above LIMIT at the lowest set point and ISSUE 32 (R482). -/
def State.capUnreachable (s : State) : State :=
  if s.power.unreachFor = 2500 then
    (s.setFlag Reg.PWR_POWER_STATUS_CAP_UNREACHABLE 0 true).raise Ev.CAP_UNREACHABLE 0
      (s.fld Reg.PWR_POWER_STATUS_EST_W + s.limitW.floor.toNat * 2 ^ 16)
  else s

/-- THROTTLED follows its condition (R483): entered after more than 1 ms of it, left when it ends. -/
def State.throttle (s : State) : State :=
  let on := s.flag Reg.PWR_POWER_STATUS_THROTTLED
  if !on && decide (250 < s.power.throttleFor) then
    (s.setFlag Reg.PWR_POWER_STATUS_THROTTLED 0 true).raise Ev.THROTTLE_ON 0
      (s.fld Reg.PWR_POWER_STATUS_ISSUE + s.coreMv * 2 ^ 16)
  else if on && s.power.throttleFor == 0 then
    (s.setFlag Reg.PWR_POWER_STATUS_THROTTLED 0 false).raise Ev.THROTTLE_OFF 0 0
  else s

/-- One interval of 4 µs: the estimate before the gain is `total` mW, of which the compute power of each die. -/
def State.powerEstimate (s : State) (total bow stern : Nat) : State :=
  if s.coreOff then s
  else
    let g := s.power.gain
    let scale := fun (n : Nat) => (g * n).floor.toNat
    let calFail := s.flag Reg.PWR_POWER_STATUS_CAL_FAIL
    let est := if calFail then total else scale total
    let pcB := scale bow
    let pcS := scale stern
    let pc := pcB + pcS
    let cur := s.fld Reg.PWR_POWER_STATUS_ISSUE
    let (c, a) := slewStep pc s.power.ceiling s.power.allowance
    let cap := issueCapOf est pc cur s.limitW
    let slew := issueSlewOf pc cur c a
    let want := if s.power.critical then min 32 (min cap slew) else min cap slew
    let s0 := s.setPoint
    let issue := nextIssue cur want (s0.coreMv == s0.targetMv)
    let above := decide (s.limitW * 1000 < (est : Rat))
    let low := decide ((est : Rat) + 20000 ≤ s.limitW * 1000)
    let byLimit := (decide (cap < 256) && decide (cap ≤ slew) && decide (issue < 256)) ||
      (decide (0 < s.power.cut) && decide (s0.coreMv < s.fld Reg.PWR_V_CFG_V_MAX_MV))
    let s1 := s0.onPower fun p => { p with
      pcBow := pcB, pcStern := pcS, ceiling := c, allowance := a, issueCap := cap, issueSlew := slew
      overFor := runLength p.overFor (above && issue == 32)
      underFor := runLength p.underFor low
      unreachFor := runLength p.unreachFor (above && issue == 32 && s0.coreMv == s0.lowestMv)
      throttleFor := runLength p.throttleFor byLimit }
    let s2 := ((s1.setFld Reg.PWR_POWER_STATUS_EST_W 0 (min (est / 1000) 4095)).setFld Reg.PWR_POWER_STATUS_ISSUE 0 issue).setFlag
      Reg.PWR_POWER_STATUS_SLEW 0 (decide (slew < cap) && issue == slew)
    let far := fun (x y : Nat) => decide (8000 ≤ (x - y) + (y - x))
    let s3 := if issue ≠ cur ∨ far pcB s2.power.annBow = true ∨ far pcS s2.power.annStern = true then s2.heaterAnnounce else s2
    s3.capUnreachable.throttle

/-- 1 ms of excess lowers the set point by 5 mV, 1 ms of headroom raises it (R481). -/
def State.voltageStep (s : State) : State :=
  if 250 ≤ s.power.overFor then
    let s1 := s.onPower fun p => { p with overFor := p.overFor - 250 }
    (if s1.lowestMv < s1.coreMv then s1.onPower fun p => { p with cut := p.cut + 5 } else s1).setPoint
  else if 250 ≤ s.power.underFor then
    (s.onPower fun p => { p with underFor := p.underFor - 250, cut := p.cut - 5 }).setPoint
  else s

/-- The once-per-second calibration by management firmware (R478, R479): energies in mJ. -/
def State.calibrate (s : State) (meas est : Nat) (fault : Bool) : State :=
  if s.stage < 4 ∨ s.mgmt.down = true ∨ s.coreOff = true ∨ s.upState = upHANDOVER then s
  else
    let new : Rat := if est = 0 then 0 else (meas : Rat) / est
    let inRange := decide (est ≠ 0) && decide (4 / 5 ≤ new) && decide (new ≤ 5 / 4)
    if inRange && !fault then
      let g := s.power.gain + (new - s.power.gain) / 4
      let s1 := (s.onPower fun p => { p with gain := g, calFails := 0, calPasses := p.calPasses + 1 }).setFld
        Reg.PWR_CAL_STATUS_GAIN 0 (g * 16384).floor.toNat
      if 10 ≤ s1.power.calPasses then s1.setFlag Reg.PWR_POWER_STATUS_CAL_FAIL 0 false else s1
    else
      let s1 := (s.onPower fun p => { p with calFails := p.calFails + 1, calPasses := 0 }).bump Reg.PWR_CAL_STATUS_FAILS
      if 3 ≤ s1.power.calFails ∧ s1.flag Reg.PWR_POWER_STATUS_CAL_FAIL = false then
        (s1.setFlag Reg.PWR_POWER_STATUS_CAL_FAIL 0 true).raise Ev.CAL_FAIL 0
          (min (new * 16384).floor.toNat 65535 + bit fault * 2 ^ 16)
      else s1

/-! ### Temperatures (R486 to R488, R504) -/

/-- The range a sensor kind is given, in its unit: die and engine temperatures in 1/16 °C, engine currents in 10 mA. -/
def sensorRange (kind : Nat) : Option (Int × Int) :=
  match kind with
  | 0 => some (-640, 2400)
  | 1 => some (-640, 2000)
  | 2 => some (0, 1600)
  | _ => none

/-- Sensors of a kind. -/
def sensorCount (kind : Nat) : Nat := [96, 64, 64, 8, 8, 16, 32].getD kind 0

/-- What a reading is stored as: faulted when the sensor does not answer or reads out of its range, or when a DIMM's domain
is off. -/
def State.readSensor (s : State) (r : Reading) : SensorVal :=
  match r.value with
  | none => { value := 0, fault := true }
  | some v =>
    let out := match sensorRange r.kind with
      | some (lo, hi) => decide (v < lo) || decide (hi < v)
      | none => false
    { value := v, fault := out || (r.kind == 6 && s.unitSt ⟨1, r.index / 2⟩ == usOFF) }

def State.sensor (s : State) (kind i : Nat) : SensorVal := s.mgmt.sensors.getD (kind, i) {}

/-- A reading is taken; one that becomes faulted is recorded. -/
def State.takeReading (s : State) (r : Reading) : State :=
  if sensorCount r.kind ≤ r.index then s
  else
    let v := s.readSensor r
    let s1 := { s with mgmt := { s.mgmt with sensors := s.mgmt.sensors.put (r.kind, r.index) v } }
    if v.fault && !(s.sensor r.kind r.index).fault then s1.raise Ev.SENSOR_FAULT r.index r.kind else s1

/-- Whole °C of a temperature in 1/16 °C, as 8 bits. -/
def celsius8 (t : Int) : Nat := ofSigned 8 (t / 16)

/-- The band edges in 1/16 °C. -/
def bandEdges : List Int := [720, 1040, 1360, 1520]

/-- The band of a temperature (R486). -/
def bandOf (t : Int) : Nat := (bandEdges.filter fun e => decide (e ≤ t)).length

/-- A band takes effect: the applied floor is its entry, and the set point is never below it with traffic. -/
def State.setBand (s : State) (b : Nat) : State :=
  let mv := bitsOf (s.reg ⟨.pwr, 0x194, b⟩).toNat 0 10
  ((s.setFld Reg.PWR_TEMP_STATUS_BAND 0 b).setFld Reg.PWR_VFLOOR_STATUS_FLOOR_MV 0 mv).setPoint

/-- The registers and the band follow the hottest sensors. -/
def State.showTemps (s : State) : State :=
  let s1 := match s.hottest 1 with
    | some (i, t) => (s.setFld Reg.PWR_TEMP_STATUS_OE_MAX_C 0 (celsius8 t)).setFld Reg.PWR_TEMP_STATUS_OE 0 i
    | none => s
  match s.hottest 0 with
  | some (i, t) =>
    let s2 := (s1.setFld Reg.PWR_TEMP_STATUS_TJ_MAX_C 0 (celsius8 t)).setFld Reg.PWR_TEMP_STATUS_SENSOR 0 i
    if s2.fld Reg.PWR_TEMP_STATUS_BAND < bandOf t then s2.setBand (bandOf t) else s2
  | none => s1

/-- Everything the core and its lanes do ends: its regulators are off and it is isolated (R43, R497). -/
def State.coreStops (s : State) : State :=
  let s1 := (List.range 64).foldl (fun (s : State) g => if s.groupSt g = gsOFF then s else s.groupStop g gsOFF) s
  let s2 := (List.range 64).foldl (fun (s : State) l =>
    let s := s.linkDown (512 + l)
    if s.laneSt l = 0 then s else s.setLaneSt l 0) s1
  ((List.range 16).foldl (fun (s : State) g => s.lineRefresh g) s2).showTraffic

/-- 107 °C and 115 °C of the die (R43, R488). -/
def State.dieThresholds (s : State) : State :=
  match s.hottest 0 with
  | none => s
  | some (i, t) =>
    let s1 := if 1712 ≤ t ∧ s.power.critical = false then
        let s1 := (s.onPower fun p => { p with critical := true }).raise Ev.THERMAL_CRITICAL 0 (celsius8 t + i * 2 ^ 8)
        (s1.setFld Reg.PWR_POWER_STATUS_ISSUE 0 (min 32 (s1.fld Reg.PWR_POWER_STATUS_ISSUE))).setPoint
      else s
    let n := if 1840 ≤ t then s1.boot.tripReadings + 1 else 0
    let s2 := { s1 with boot := { s1.boot with tripReadings := n } }
    if 2 ≤ n then ({ s2 with boot := { s2.boot with thermTrip := true } }).coreStops else s2

/-- 80 °C and 85 °C of an engine case (R488). -/
def State.engineThresholds (s : State) (g : Nat) (t : Int) : State :=
  let s1 := if 1280 ≤ t ∧ s.power.oeHot.contains g = false then
      (s.onPower fun p => { p with oeHot := p.oeHot ++ [g] }).raise Ev.OE_HOT g (celsius8 t)
    else if t < 1248 then s.onPower fun p => { p with oeHot := without p.oeHot g }
    else s
  if 1360 ≤ t ∧ s1.power.oeTrip.contains g = false then
    ((s1.onPower fun p => { p with oeTrip := p.oeTrip ++ [g] }).groupStop g gsOFF).raise Ev.OE_TRIP g (celsius8 t)
  else s1

/-- 95 °C of a stack or a DIMM, and its end at 93 °C (R488). -/
def State.memThreshold (s : State) (dimm : Bool) (i : Nat) (t : Int) : State :=
  let l := if dimm then s.power.dimmHot else s.power.hbmHot
  let set := fun (s : State) (l : List Nat) => s.onPower fun p => if dimm then { p with dimmHot := l } else { p with hbmHot := l }
  if 1520 ≤ t ∧ l.contains i = false then
    (set s (l ++ [i])).raise (if dimm then Ev.DIMM_HOT else Ev.HBM_HOT) i (celsius8 t)
  else if t < 1488 then set s (without l i)
  else s

/-- Every sensor is read, and the thresholds and the band act (R486, R488, R504). -/
def State.sensorSample (s : State) (l : List Reading) : State :=
  if s.boot.porst || s.boot.thermTrip then s
  else
    let s1 := (l.foldl (fun (s : State) r => s.takeReading r) s).showTemps
    let s2 := (s1.goodReadings 1).foldl (fun (s : State) p => s.engineThresholds p.1 p.2) s1
    let s3 := (s2.goodReadings 5).foldl (fun (s : State) p => s.memThreshold false p.1 p.2) s2
    ((s3.goodReadings 6).foldl (fun (s : State) p => s.memThreshold true p.1 p.2) s3).dieThresholds

/-- TJ_MAX has stayed 2 °C below the band's lower edge for 100 ms (R486). -/
def State.bandFall (s : State) : State :=
  let b := s.fld Reg.PWR_TEMP_STATUS_BAND
  match s.hottest 0, b with
  | some (_, t), k + 1 => if t ≤ bandEdges.getD k 0 - 32 then s.setBand k else s
  | _, _ => s

/-- An engine case has stayed below 75 °C for 10 s: its group acquires again when it is enabled. -/
def State.oeRelease (s : State) (g : Nat) : State :=
  if s.power.oeTrip.contains g = true ∧ (s.sensor 1 g).fault = false ∧ (s.sensor 1 g).value < 1200 then
    let s1 := s.onPower fun p => { p with oeTrip := without p.oeTrip g }
    if s1.flag Reg.OPT_PG_CFG_ENABLE g then s1.groupAcquire g else s1
  else s

/-- TJ_MAX has stayed below 103 °C for 100 ms. -/
def State.criticalRelease (s : State) : State :=
  match s.hottest 0 with
  | some (_, t) => if s.power.critical = true ∧ t < 1648 then (s.onPower fun p => { p with critical := false }).setPoint else s
  | none => s

/-- How far the hottest die, engine and stack exceed their targets, in °C (R487). -/
def State.thermalError (s : State) : Option Rat :=
  let above := fun (kind : Nat) (limit : Rat) => (s.hottest kind).map fun p => (p.2 : Rat) / 16 - limit
  ([above 0 (s.fld Reg.PWR_THERM_CFG_T_TARGET_C), above 1 77, above 5 92].filterMap id).foldl (fun (a : Option Rat) x =>
    match a with
    | some y => some (max x y)
    | none => some x) none

/-- The thermal loop (R487): L_TH moves, and crossing CAP_W is recorded. -/
def State.thermalLoop (s : State) : State :=
  if s.coreOff then s
  else
    let cap : Rat := s.fld Reg.PWR_CAP_CFG_CAP_W
    let lth := match s.thermalError with
      | some e => if 0 < e then max (min s.power.lth (s.fld Reg.PWR_POWER_STATUS_EST_W) - 25 * e) 0 else min (s.power.lth + 10) 2200
      | none => min (s.power.lth + 10) 2200
    let s1 := s.onPower fun p => { p with lth := lth }
    if lth < cap ∧ s.power.thermalLimited = false then
      (s1.onPower fun p => { p with thermalLimited := true }).raise Ev.THERMAL_LIMIT 0 lth.floor.toNat
    else if cap ≤ lth ∧ s.power.thermalLimited = true then
      (s1.onPower fun p => { p with thermalLimited := false }).raise Ev.THERMAL_CLEAR 0 lth.floor.toNat
    else s1

/-! ### Pace (R51, R52) -/

/-- Units a pace monitor kind has (`PWR.PACE_SEL`). -/
def paceCount (kind : Nat) : Nat := [64, 64, 16, 256, 2, 2, 9].getD kind 0

/-- A window of 4 µs ends with a rate in M tokens/s. -/
def State.paceWindow (s : State) (kind i mtps : Nat) : State :=
  if paceCount kind ≤ i then s
  else
    let k := i + 256 * kind
    (s.setFld Reg.PWR_PACE_VALUE_CUR_MTPS k (min mtps 65535)).setFld Reg.PWR_PACE_VALUE_MIN_MTPS k
      (min (s.fld Reg.PWR_PACE_VALUE_MIN_MTPS k) mtps)

/-- A port pipeline's last window lies below 1.72 G tokens/s. A monitor that has ended no window has no reading
(notes/assumptions/165.md). -/
def State.paceLow (s : State) : Bool :=
  s.regs.live.any fun p => p.1.blk == .pwr && p.1.off == 0x184 && decide (p.1.inst < 512) && decide (bitsOf p.2.toNat 0 16 < 1720)

/-- The present band's floor entry rises by 5 mV, or has reached 0.90 V (R51, R52). A reading taken below the band's voltage
raises nothing. -/
def State.floorRaise (s : State) : State :=
  if s.paceLow = false ∨ s.coreOff = true ∨ s.coreMv < s.floorMv then s
  else
    let b := s.fld Reg.PWR_TEMP_STATUS_BAND
    let mv := s.fld Reg.PWR_VT_ENTRY_FLOOR_MV b
    if 900 < mv + 5 then
      if s.flag Reg.PWR_VFLOOR_STATUS_PACE_FAIL then s
      else (s.setFlag Reg.PWR_VFLOOR_STATUS_PACE_FAIL 0 true).raise Ev.PACE_FAIL b 0
    else
      ((((s.setFld Reg.PWR_VT_ENTRY_FLOOR_MV b (mv + 5)).bump Reg.PWR_VT_ENTRY_RAISES b).bump
        Reg.PWR_VFLOOR_STATUS_RAISE_COUNT).setBand b).raise Ev.FLOOR_RAISED b (mv + 5)

/-! ### Arbiters (R56 to R60) -/

/-- The class of a request, by its source (R55); traffic that came in at a fabric port takes the class its port maps its
traffic class to (R218). -/
def State.arbClass (s : State) (x : ArbSrc) : Nat :=
  match x with
  | .reserved => 0
  | .planCatch | .rigLoad | .juwesy | .ack | .pageWalk | .notification => 1
  | .collective | .tensor | .hostTransfer | .migration => 2
  | .checkpoint | .scrub | .mirror => 3
  | .portTraffic port tc => s.tcClass port tc

/-- The slow-corner bounds of R58 in 0.1 ns, for class T and for classes C and N. Those of a DDR5 channel depend on its
interface speed, which the board's DIMMs give: the row of 8,800 MT/s, or for a slower channel that of 5,600 MT/s
(notes/assumptions/117.md). -/
def arbBound (res cls inst : Nat) : Option Nat :=
  let row : Option (Nat × Nat) :=
    if res = 8 then some (if 8800 ≤ Config.ddrMts inst then (174, 342) else (185, 363))
    else [(12, 17), (12, 17), (12, 17), (16, 27), (28, 50), (117, 228), (717, 1428), (136, 266)][res]?
  match cls with
  | 0 => row.map (·.1)
  | 1 => row.map (·.2)
  | 2 => row.map (·.2)
  | _ => none

/-- The round-robin choice within a class: the first port after the one granted last. -/
def roundRobin (last : Nat) (ports : List Nat) : Option Nat :=
  match (ports.filter fun p => decide (last < p)).foldl (fun (a : Option Nat) p => some (min p (a.getD p))) none with
  | some p => some p
  | none => ports.foldl (fun (a : Option Nat) p => some (min p (a.getD p))) none

/-- The request a decision grants, and the passed-over count after it (R56, R57). Requests stand in the order of their
arrival. -/
def arbChoose (cls : ArbReq → Nat) (passed : Nat) (last : Nat → Nat) (reqs : List ArbReq) : Option (ArbReq × Nat) :=
  match (List.range 4).find? fun c => reqs.any fun r => cls r == c with
  | none => none
  | some c =>
    let lower := reqs.find? fun r => decide (c < cls r)
    let normal := (roundRobin (last c) ((reqs.filter fun r => cls r == c).map (·.port))).bind fun p =>
      reqs.find? fun r => cls r == c && r.port == p
    if c = 0 then normal.map fun r => (r, passed)
    else match lower with
      | some r => if 1024 ≤ passed ∧ c ≤ 2 then some (r, 0) else normal.map fun q => (q, passed + 1)
      | none => normal.map fun q => (q, 0)

/-- A request to the sett free list is carried out when it is granted (R183). -/
def State.arbAct (s : State) (r : ArbReq) : State :=
  match r.act with
  | .other => s
  | .alloc q => (s.settAlloc q).2
  | .free n => if n < 2 * dieSetts then s.settFree n else s

/-- A request is granted: `blocked` is how long lower classes blocked it, in 0.1 ns, which the unit's counters and, beyond the
bound, R60 take note of. -/
def State.arbGranted (s : State) (res inst : Nat) (r : ArbReq) (blocked : Nat) : State :=
  let c := s.arbClass r.src
  let k := res + 32 * c + 256 * inst
  let s1 := (s.onPower fun p => { p with arbLast := p.arbLast.put (res, inst, c) r.port }).emit (.grant res inst c r.port)
  let s2 := (s1.bumpWrap Reg.MGT_ARB_GRANTS_GRANTS k).setFld Reg.MGT_ARB_WAIT_MAX_WAIT k
    (max (s1.fld Reg.MGT_ARB_WAIT_MAX_WAIT k) (min blocked 65535))
  let exceeds := match arbBound res c inst with
    | some b => decide (b < blocked) && decide (720 ≤ s.coreMv)
    | none => false
  let s3 := if exceeds then
      let s3 := (s2.bump Reg.MGT_ARB_WAIT_EXCEED_COUNT k).raise Ev.ARB_BOUND_EXCEEDED inst
        (res + c * 2 ^ 5 + min blocked 65535 * 2 ^ 16)
      ({ s3 with mgmt := { s3.mgmt with arbExceeded := s3.mgmt.arbExceeded + 1 } }).healthAdd .self 64
    else s2
  s3.arbAct r

/-- The request that frees a sett, at a decision of the free list of a die at which a free and an allocation meet: it is
granted first (R183). -/
def freeFirst (res : Nat) (reqs : List ArbReq) : Option ArbReq :=
  let isFree := fun (r : ArbReq) => match r.act with
    | .free _ => true
    | _ => false
  let isAlloc := fun (r : ArbReq) => match r.act with
    | .alloc _ => true
    | _ => false
  if res = 1 ∧ reqs.any isAlloc = true then reqs.find? isFree else none

/-- A grant decision of an arbiter. `delayed` are the plans whose class T requests together exceed the resource (R59, R316).
Where a free and an allocation meet at the sett free list, the free goes first and the sett it frees is there for the
decision's own grant. -/
def State.arbGrant (s : State) (res inst : Nat) (reqs : List ArbReq) (blocked : Nat) (delayed : List Nat) : State :=
  if 8 < res ∨ s.coreOff = true then s
  else
    let first := freeFirst res reqs
    let s0 := match first with
      | some r => s.arbGranted res inst r 0
      | none => s
    let rest := reqs.filter fun r => first != some r
    match arbChoose (fun r => s.arbClass r.src) (s.power.arbPassed.getD (res, inst) 0)
        (fun c => s.power.arbLast.getD (res, inst, c) 65535) rest with
    | none => s
    | some (r, passed) =>
      let s1 := s0.onPower fun p => { p with arbPassed := p.arbPassed.put (res, inst) passed }
      delayed.foldl (fun (s : State) p => s.planOverrun p) (s1.arbGranted res inst r blocked)

/-! ### The rows -/

/-- SENSOR_SAMPLE (R488). -/
def execSensorSample (readings : List Reading) (s : State) : Host.Outcome State Fault Refusal :=
  .next (s.pooled fun s => s.sensorSample readings)

/-- OE_TRIP_RELEASE (R488). -/
def execOeTripRelease (g : Nat) (s : State) : Host.Outcome State Fault Refusal :=
  .next (s.inPool fun s => s.oeRelease g)

/-- BAND_FALL (R486). -/
def execBandFall (s : State) : Host.Outcome State Fault Refusal := .next (s.inAon fun s => s.bandFall)

/-- PACE_WINDOW (R51). -/
def execPaceWindow (kind index mtps : Nat) (s : State) : Host.Outcome State Fault Refusal :=
  .next (s.inCore fun s => s.paceWindow kind index mtps)

/-- FLOOR_RAISE (R51, R52). -/
def execFloorRaise (s : State) : Host.Outcome State Fault Refusal := .next s.floorRaise

/-- ARB_GRANT (R56 to R60). -/
def execArbGrant (res inst : Nat) (reqs : List ArbReq) (blocked : Nat) (delayed : List Nat) (s : State) :
    Host.Outcome State Fault Refusal := .next (s.inPool fun s => s.arbGrant res inst reqs blocked delayed)

/-- PACE_CLR_MIN: CLR_MIN sets the selected unit's minimum to 0x7FFF. -/
def execPaceClrMin (v : View) (w : Word) (s : State) : Host.Outcome State Fault Refusal :=
  .next (s.selClear v .pwr 0x180 w fun sel s =>
    if bitsOf sel 0 8 < paceCount (bitsOf sel 8 4) then s.setFld Reg.PWR_PACE_VALUE_MIN_MTPS (sel % 4096) 0x7FFF else s)

/-- ARB_CLR: CLR clears both counters of the selected instance and class. -/
def execArbClr (v : View) (w : Word) (s : State) : Host.Outcome State Fault Refusal :=
  .next (s.selClear v .mgt 0x300 w fun sel s =>
    let k := sel % 2 ^ 18
    ((s.setFld Reg.MGT_ARB_WAIT_MAX_WAIT k 0).setFld Reg.MGT_ARB_WAIT_EXCEED_COUNT k 0).setFld Reg.MGT_ARB_GRANTS_GRANTS k 0)

/-- POWER_ESTIMATE (R477, R480 to R485). -/
def execPowerEstimate (total bow stern : Nat) (s : State) : Host.Outcome State Fault Refusal :=
  .next (s.powerEstimate total bow stern)

/-- VOLTAGE_STEP (R481). -/
def execVoltageStep (s : State) : Host.Outcome State Fault Refusal := .next (s.inCore fun s => s.voltageStep)

/-- POWER_CALIBRATE (R478). -/
def execPowerCalibrate (measured estimated : Nat) (sensorFault : Bool) (s : State) : Host.Outcome State Fault Refusal :=
  .next (s.calibrate measured estimated sensorFault)

/-- THERMAL_LOOP (R487). -/
def execThermalLoop (s : State) : Host.Outcome State Fault Refusal := .next s.thermalLoop

/-- THERMAL_CRITICAL_RELEASE (R488). -/
def execThermalCriticalRelease (s : State) : Host.Outcome State Fault Refusal :=
  .next (s.inAon fun s => s.criticalRelease)

end Sys2Proof.Machine
end

