-- ==== Sys2Proof/Machine/Units.lean ====
section
/-!
DEFINITION. Unit states, UNIT_POWER, alarms and rail faults (R489 to R499, R46, R152). A unit is numbered by kind (0 matrix
unit, 1 tile, 2 HBM4 stack, 3 DDR5 channel, 4 electrical lane, 5 port group) and index.
-/

namespace Sys2Proof.Machine

/-! ### Unit states (R489 to R491) -/

def unACTIVE : Nat := 0
def unNAP : Nat := 1
def unWATCH : Nat := 2
def unOFF : Nat := 3
def unENTERING : Nat := 4
def unWAKING : Nat := 5

/-- Instances of a unit kind. -/
def unitCount (kind : Nat) : Nat := [16, 256, 16, 16, 64, 64].getD kind 0

/-- The place of a unit behind `PWR.UNIT_SEL`. -/
def unitInst (kind i : Nat) : Nat := kind + 8 * i

/-- A unit's state. That of a lane follows `ELN.LANE_STATUS`, that of a port group `OPT.PG_STATUS`. -/
def State.unitState (s : State) (kind i : Nat) : Nat :=
  if kind = 4 then (if s.laneSt i = 0 then unOFF else if s.laneSt i = 1 then unNAP else unACTIVE)
  else if kind = 5 then
    (if s.groupSt i = gsOFF then unOFF else if s.groupSt i = gsWATCH ∨ s.groupSt i = gsFEED_LOST then unWATCH else unACTIVE)
  else s.fld Reg.PWR_UNIT_STATE_STATE (unitInst kind i)
def State.setUnit (s : State) (kind i st : Nat) : State := s.setFld Reg.PWR_UNIT_STATE_STATE (unitInst kind i) st

/-- Plan slots that are STAGED or ACTIVE. -/
def State.plansReady (s : State) : List PlanSlot := (s.plans.filter fun p => p.2.st == 1 || p.2.st == 2).map (·.2)

/-- The media pseudo-channels of a stack. -/
def stackUnits (k : Nat) : List Nat := (List.range 64).map (64 * k + ·)

/-- A memory unit is being retired or takes a retirement's contents. -/
def State.retiringUnit (s : State) (kind i : Nat) : Bool :=
  s.mem.retires.any fun r => r.running &&
    (if kind = 2 then r.unit.tier == 0 && (r.unit.unit / 64 == i || r.dest / 64 == i)
     else if kind = 3 then r.unit.tier == 1 && (r.unit.unit == i || (s.retireTarget r).any fun q => q.dest == i)
     else false)

/-- The cause for which a state entry is refused, the lowest code first (R491). -/
def State.entryCause (s : State) (kind i target : Nat) : Option Nat :=
  let core := kind = 0 ∨ kind = 1
  let memory := kind = 2 ∨ kind = 3
  let holder := if core then s.unitHolder kind i else none
  if core ∧ target = unOFF ∧ holder.isSome = true then some 1
  else if kind = 4 ∧ target = unNAP ∧ s.laneSt i = 3 then some 2
  else if memory ∧ (target = unNAP ∨ target = unWATCH) ∧ s.plansReady.isEmpty = false then some 3
  else if core ∧ target = unNAP ∧ (s.plansReady.any fun p => (planProgs p.bin).any fun c => holder == some c) = true then some 3
  else if kind = 2 ∧ target = unOFF ∧ ((stackUnits i).any fun u =>
      [usIN_SERVICE, usSPARE, usTRUSTED, usDEGRADED].contains (s.unitSt ⟨0, u⟩)) = true then some 4
  else if (s.power.held.any fun h => h.2 == (kind, i)) then some 5
  else if s.retiringUnit kind i then some 6
  else none

/-- A refused entry is counted with its cause. -/
def State.refuseEntry (s : State) (kind i cause : Nat) : State :=
  (s.bump Reg.PWR_UNIT_REFUSE_REFUSED (unitInst kind i)).setFld Reg.PWR_UNIT_STATE_LAST_CAUSE (unitInst kind i) cause

/-- A unit starts to enter a state. -/
def State.startEntry (s : State) (kind i target : Nat) : State :=
  (s.setUnit kind i unENTERING).onPower fun p => { p with entering := p.entering.put (kind, i) target }

/-- A unit has been idle (R490): it enters a state by itself unless UNIT_POWER holds it elsewhere or a cause refuses. A NAP or
OFF target in force is what it goes back to after an access (R492). -/
def State.idleEntry (s : State) (kind i target : Nat) (from_ : List Nat) : State :=
  let forced := match s.power.forced.find (kind, i) with
    | some t => (t == 2 && target == unNAP || t == 3 && target == unOFF) == false
    | none => false
  let working := (kind = 0 ∨ kind = 1) ∧ (match s.unitHolder kind i with
    | some c => (s.tctx c).st != csxRESIDENT
    | none => false) = true
  if unitCount kind ≤ i ∨ 3 < kind ∨ forced = true ∨ working ∨ from_.contains (s.unitState kind i) = false ∨ s.coreOff = true then s
  else match s.entryCause kind i target with
    | some c => s.refuseEntry kind i c
    | none => s.startEntry kind i target

/-- NAP_US without work or without an access. -/
def State.idleNap (s : State) (kind i : Nat) : State := s.idleEntry kind i unNAP [unACTIVE]

/-- OFF_MS without: matrix units and tiles go OFF, HBM4 stacks to WATCH; a DDR5 channel has no such state. -/
def State.idleOff (s : State) (kind i : Nat) : State :=
  if kind = 3 then s else s.idleEntry kind i (if kind = 2 then unWATCH else unOFF) [unACTIVE, unNAP]

/-- A UNIT_POWER request that waited for its unit to reach a state completes. -/
def State.unitReached (s : State) (kind i : Nat) : State :=
  let want := match s.power.forced.find (kind, i) with
    | some 2 => unNAP
    | some 3 => unOFF
    | _ => unACTIVE
  match s.power.forcedWait.find (kind, i) with
  | some k =>
    if s.unitState kind i = want then (s.onPower fun p => { p with forcedWait := p.forcedWait.del (kind, i) }).finish k stOK else s
  | none => s

/-- The latency of a state change is over (R489): a unit ENTERING is in its state, a unit WAKING is ACTIVE. A stack that
leaves OFF waits for its training instead. -/
def State.unitEntered (s : State) (kind i : Nat) : State :=
  let st := s.unitState kind i
  if st = unENTERING then
    let s1 := (s.setUnit kind i (s.power.entering.getD (kind, i) unNAP)).bump Reg.PWR_UNIT_STATE_ENTRIES (unitInst kind i)
    (s1.onPower fun p => { p with entering := p.entering.del (kind, i) }).unitReached kind i
  else if st = unWAKING ∧ s.power.entering.has (kind, i) = false then (s.setUnit kind i unACTIVE).unitReached kind i
  else s

/-- A sleeping unit wakes, or its entry is aborted (R490, R491). A stack that leaves OFF trains first: its former state is
kept until HBM_TRAIN_DONE. -/
def State.unitWakes (s : State) (kind i cause : Nat) : State :=
  if unitCount kind ≤ i ∨ 3 < kind then s
  else
    let wasOff := kind = 2 ∧ s.unitState kind i = unOFF
    let s1 := s.wakeUnit kind i cause
    if wasOff then s1.onPower fun p => { p with entering := p.entering.put (kind, i) unACTIVE } else s1

/-! ### UNIT_POWER (R492) -/

/-- The states a unit kind's row of R489 lets UNIT_POWER reach: the OFF state of a lane changes by its ENABLE bit only. -/
def unitHas (kind target : Nat) : Bool := if target = unOFF then kind != 4 else true

/-- A request that waits for a unit to reach a state, and that a later one for the unit overrides, ends
(notes/assumptions/200.md). -/
def State.unitSuperseded (s : State) (kind i : Nat) : State :=
  match s.power.forcedWait.find (kind, i) with
  | some k => (s.onPower fun p => { p with forcedWait := p.forcedWait.del (kind, i) }).finish k stABORTED
  | none => s

/-- UNIT_POWER: TARGET 0 ALLOW, 1 HOLD_ACTIVE, 2 NAP, 3 OFF. -/
def State.unitPower (s : State) (o : Op) : State :=
  let p0 := mParam0 o.desc
  let kind := bitsOf p0 0 3
  let i := bitsOf p0 3 8
  let t := bitsOf p0 12 2
  let goal := if t = 2 then unNAP else if t = 3 then unOFF else unACTIVE
  let force := fun (s : State) => (s.onPower fun p => { p with forced := p.forced.put (kind, i) t }).setFlag
    Reg.PWR_UNIT_STATE_FORCED (unitInst kind i) true
  let wait := fun (s : State) =>
    ((s.unitSuperseded kind i).onPower fun p => { p with forcedWait := p.forcedWait.put (kind, i) o.key }).unitReached kind i
  if kind = 3 ∨ 4 < kind ∨ unitCount kind ≤ i ∨ unitHas kind goal = false then s.finish o.key stBAD_FIELD
  else if t = 0 then
    (((s.unitSuperseded kind i).onPower fun p => { p with forced := p.forced.del (kind, i) }).setFlag
      Reg.PWR_UNIT_STATE_FORCED (unitInst kind i) false).finish
      o.key stOK
  else if t = 1 then
    if kind = 4 then wait (let s1 := force s; if s1.laneOn i && s1.laneSt i == 1 then s1.setLaneSt i 2 else s1)
    else wait ((force s).unitWakes kind i 8)
  else match s.entryCause kind i goal with
    | some c => (s.refuseEntry kind i c).finish o.key stBAD_FIELD c
    | none =>
      if kind = 4 then wait (let s1 := force s; if s1.laneOn i then s1.setLaneSt i 1 else s1)
      else if s.unitState kind i = goal then wait (force s)
      else wait ((force s).startEntry kind i goal)

/-! ### Watch and alarms (R494 to R496) -/

/-- A stack in WATCH samples its temperature: at 95 °C it wakes and R488 applies. -/
def State.hbmWatch (s : State) (k : Nat) (t : Int) : State :=
  if 16 ≤ k ∨ s.unitState 2 k ≠ unWATCH then s
  else
    let s1 := s.takeReading ⟨5, k, some t⟩
    if 1520 ≤ t then (s1.unitWakes 2 k 8).memThreshold false k t else s1

/-- The time of an alarm in ns. -/
def State.alarmTime (s : State) (a : Nat) : Nat :=
  (s.fld Reg.PWR_ALARM_SEC_LO_SEC a + 2 ^ 32 * s.fld Reg.PWR_ALARM_SEC_HI_SEC a) * 1000000000 + s.fld Reg.PWR_ALARM_NS_NS a

/-- The units an alarm names. -/
def State.alarmUnits (s : State) (a : Nat) : List (Nat × Nat) :=
  (if s.flag Reg.PWR_ALARM_CFG_WAKE_MU a then (List.range 16).map fun i => (0, i) else []) ++
  (if s.flag Reg.PWR_ALARM_CFG_WAKE_TILES a then (List.range 256).map fun i => (1, i) else []) ++
  ((List.range 16).filter fun i => bitAt (s.fld Reg.PWR_ALARM_MASK_HBM a) i).map (fun i => (2, i)) ++
  ((List.range 16).filter fun i => bitAt (s.fld Reg.PWR_ALARM_MASK_DDR a) i).map (fun i => (3, i))

/-- An armed alarm whose time has come fires, once (R495). -/
def State.alarmFire (s : State) (a : Nat) : State :=
  if s.power.armed.contains a = false ∨ s.reached (s.alarmTime a) = false then s
  else
    let units := s.alarmUnits a
    let s1 := (s.onPower fun p => { p with armed := without p.armed a }).setFld
      { Reg.PWR_ALARM_STATUS_FIRED with lsb := a, width := 1 } 0 1
    let s2 := units.foldl (fun (s : State) u => s.unitWakes u.1 u.2 9) s1
    let s3 := if s2.fld Reg.PWR_ALARM_CFG_HOLD_10MS a = 0 then s2
      else s2.onPower fun p => { p with held := p.held.filter (·.1 != a) ++ units.map fun u => (a, u.1, u.2) }
    if s3.flag Reg.PWR_ALARM_CFG_NOTIFY a then s3.raise Ev.ALARM a 0 else s3

/-- Every armed alarm whose time has come fires. -/
def State.alarmsDue (s : State) : State := s.power.armed.foldl (fun (s : State) a => s.alarmFire a) s

/-! ### Rail faults (R46, R497) -/

/-- The HBM stacks are held in reset: their contents are lost, those of line windows with them (R152). -/
def State.hbmLost (s : State) : State :=
  if s.mem.hbmReset then s
  else
    let s1 := (s.onMem fun m => { m with hbmReset := true }).onBoot fun b => { b with trustedGood := false }
    let blocks := s1.fld Reg.HBM_MAP_STATUS_VISIBLE_GIB * 16384
    let s2 := if blocks = 0 then s1
      else (s1.setLost false [(0, blocks)]).raise Ev.MEM_LOST 0 (min blocks 65535)
    s2.slotsLost fun _ => true

/-- The range of a rail in mV, in the order of the rail table (R541). -/
def railRange (r : Nat) : Nat × Nat :=
  [(720, 780), (1140, 1260), (1750, 1850), (1020, 1080), (730, 770), (1710, 1890), (730, 770), (870, 930)].getD r (0, 0)

/-- A rail leaves its range for more than 10 µs: `mv` at detection. Loss of VDD_AON is that of AON_LOSS. In
service it is a rail fault (R46, R497); while PORST_N is asserted the rail only ceases to be good, and so it does after a
trip, when the board removes rails as R43 says. The monitors' note of a wrong order stays until the power cycle that loses
VDD_AON (notes/assumptions/164.md). -/
def State.railFault (s : State) (r mv : Nat) : State :=
  let off := s.onBoot fun b => { b with railOrder := without b.railOrder r }
  if 8 ≤ r ∨ ((railRange r).1 ≤ mv ∧ mv ≤ (railRange r).2) then s
  else if r = 0 then s.coldReset [] false false
  else if s.railOk r = false then s
  else if s.boot.porst = true ∨ s.boot.thermTrip = true then off
  else
    let s1 := (off.onBoot fun b => { b with railFaults := b.railFaults ++ [r] }).raise Ev.RAIL_FAULT r
      (min mv 65535 + bit (decide ((railRange r).2 < mv)) * 2 ^ 16)
    match r with
    | 5 => s1.coreStops
    | 6 => (List.range 64).foldl (fun (s : State) l =>
        let s := (s.linkDown (512 + l)).laneDark l
        let s := if s.laneSt l = 0 then s else s.setLaneSt l 0
        match s.laneGroup l with
        | some g => s.lineRefresh g
        | none => s) s1
    | 7 => (List.range 64).foldl (fun (s : State) g => if s.groupSt g = gsOFF then s else s.groupStop g gsOFF) s1
    | 1 => (s1.dccHold 0).dccHold 1
    | _ => s1.hbmLost

/-- An electrical lane trains again (R177). -/
def State.laneTrains (s : State) (l : Nat) : State := if s.laneOn l then s.liftCore.setLaneSt l 2 else s

/-- A faulted rail has been good for 100 ms. After an out-of-order power-up the HBM tier stays in reset (R40). -/
def State.railGood (s : State) (r : Nat) : State :=
  if s.boot.railFaults.contains r = false ∨ r = 5 ∨ s.boot.porst = true ∨ s.boot.thermTrip = true then s
  else
    let s1 := s.onBoot fun b => { b with railFaults := without b.railFaults r, railOrder := withElem b.railOrder r }
    match r with
    | 6 => (List.range 64).foldl (fun (s : State) l => s.laneTrains l) s1
    | 7 => (List.range 64).foldl (fun (s : State) g => if s.flag Reg.OPT_PG_CFG_ENABLE g then s.groupAcquire g else s) s1
    | 1 => s1
    | _ =>
      if s1.railOk 2 && s1.railOk 3 && s1.railOk 4 && !s1.boot.railSequenceBad then s1.onPower fun p => { p with hbmTrain := true }
      else s1

/-- The stacks have trained after a rail fault, as at stage HBM: the contents stay lost, and the trusted copy is fetched
from flash and verified again. -/
def State.hbmTrained (s : State) (failed : List Nat) (flash : Bytes) : State :=
  let s1 := (s.mem.retires.filter fun r => r.unit.tier == 0).foldl (fun (s : State) r =>
    let s := (s.setUnitSt r.unit usRETIRED).onMem fun m => { m with retires := m.retires.filter (· != r) }
    match r.op with
    | some k => s.finish k stOK
    | none => s) s
  let gone := (List.range 1024).filter fun u => failed.contains u || s1.unitSt ⟨0, u⟩ == usRETIRED
  let s2 := (s1.onMem fun m => { m with
    hbmReset := false
    cells := m.cells.filter fun c => isDdr c.1
    keys := m.keys.filter fun k => isDdr (k.1 * 64)
    opened := m.opened.filter fun x => isDdr x.1 }).hbmStage gone
  let blocks := s2.fld Reg.HBM_MAP_STATUS_VISIBLE_GIB * 16384
  let s3 := (if blocks = 0 then s2 else s2.setLost false [(0, blocks)]).onPower fun p => { p with hbmTrain := false }
  match s3.verifyImage flash with
  | .accept i => s3.onBoot fun b => { b with trustedImage := flash.take i.len, trustedGood := true }
  | _ => s3

/-- HBM4 training ends: of the whole tier, or of one stack that leaves OFF (R489). -/
def State.hbmTrainDone (s : State) (stack : Option Nat) (failed : List Nat) (flash : Bytes) : State :=
  match stack with
  | none => if s.power.hbmTrain = true ∧ s.coreOff = false ∧ s.boot.railSequenceBad = false then s.hbmTrained failed flash else s
  | some k =>
    if k < 16 ∧ s.unitState 2 k = unWAKING ∧ s.power.entering.has (2, k) = true then
      ((s.onPower fun p => { p with entering := p.entering.del (2, k) }).setUnit 2 k unACTIVE).unitReached 2 k
    else s

/-! ### The rows -/

/-- UNIT_IDLE_NAP (R490). -/
def execUnitIdleNap (kind index : Nat) (s : State) : Host.Outcome State Fault Refusal :=
  .next (s.inCore fun s => s.idleNap kind index)

/-- UNIT_IDLE_OFF (R490). -/
def execUnitIdleOff (kind index : Nat) (s : State) : Host.Outcome State Fault Refusal :=
  .next (s.inCore fun s => s.idleOff kind index)

/-- UNIT_STATE_ENTERED (R489). -/
def execUnitStateEntered (kind index : Nat) (s : State) : Host.Outcome State Fault Refusal :=
  .next (s.inCore fun s => s.unitEntered kind index)

/-- UNIT_WAKE (R490): an access reaches a sleeping unit. -/
def execUnitWake (kind index : Nat) (s : State) : Host.Outcome State Fault Refusal :=
  .next (s.inCore fun s => s.unitWakes kind index 8)

/-- UNIT_POWER (R492). -/
def execUnitPower (op : OpKey) (s : State) : Host.Outcome State Fault Refusal :=
  .next (s.mgmtPF op 0x000F fun o s => s.unitPower o)

/-- HBM_WATCH_SAMPLE (R494). -/
def execHbmWatchSample (stack : Nat) (temp : Int) (s : State) : Host.Outcome State Fault Refusal :=
  .next (s.inCore fun s => s.hbmWatch stack temp)

/-- ALARM_FIRE (R495). -/
def execAlarmFire (a : Nat) (s : State) : Host.Outcome State Fault Refusal := .next (s.inCore fun s => s.alarmFire a)

/-- ALARM_HOLD_EXPIRE (R495). -/
def execAlarmHoldExpire (a : Nat) (s : State) : Host.Outcome State Fault Refusal :=
  .next (s.inCore fun s => s.onPower fun p => { p with held := p.held.filter (·.1 != a) })

/-- PWR_UNIT_CLR (R499): ENTRIES, REFUSED and ABORTED of the selected unit. -/
def execPwrUnitClr (v : View) (w : Word) (s : State) : Host.Outcome State Fault Refusal :=
  .next (s.selClear v .pwr 0x200 w fun sel s =>
    let k := sel % 2048
    ((s.setFld Reg.PWR_UNIT_STATE_ENTRIES k 0).setFld Reg.PWR_UNIT_REFUSE_REFUSED k 0).setFld Reg.PWR_UNIT_REFUSE_ABORTED k 0)

/-- RAIL_FAULT (R46, R497): the rail has been at `mv` for `us` microseconds. -/
def execRailFault (rail mv us : Nat) (s : State) : Host.Outcome State Fault Refusal :=
  .next (s.pooled fun s => if 10 < us then s.railFault rail mv else s)

/-- RAIL_GOOD (R497). -/
def execRailGood (rail : Nat) (s : State) : Host.Outcome State Fault Refusal :=
  .next (s.pooled fun s => s.railGood rail)

/-- HBM_TRAIN_DONE (R489, R497). -/
def execHbmTrainDone (stack : Option Nat) (failed : List Nat) (flash : Bytes) (s : State) : Host.Outcome State Fault Refusal :=
  .next (s.inCore fun s => s.hbmTrainDone stack failed flash)

end Sys2Proof.Machine
end

