-- ==== Sys2Proof/Machine/TimeStep.lean ====
section
/-!
DEFINITION. Steps of the counter and what they make due (R469 to R471, R496).
-/

namespace Sys2Proof.Machine

/-- The performance bins that run are marked SUSPECT (R426, R471). -/
def State.binsSuspect (s : State) : State :=
  (List.range 16).foldl (fun (s : State) g =>
    if s.lineOn g then
      let x := s.lgrp g
      s.setLgrp g { x with legA := x.legA.markSuspect, legB := x.legB.markSuspect }
    else s) s

/-- A step adds Δ ns on one tick: it is counted, the running bins are marked, and alarms it has passed fire at once. Every other
event whose time has come fires as its own row, in the order in which the rows arrive (notes/assumptions/118.md). -/
def State.timeStep (s : State) (delta : Int) : State :=
  (((s.addDelta delta).bump Reg.TIM_STATUS_STEPS_APPLIED).binsSuspect).alarmsDue

/-- A step request of the management domain (R469, R470). -/
def State.stepRequest (s : State) (delta : Int) : State :=
  if s.boot.porst then s
  else match s.guardStep delta with
    | .apply s1 => s1.timeStep delta
    | .refuse s1 => s1

/-- TIME_CONFIRM: an armed candidate is applied (R470). -/
def State.timeConfirm (s : State) (o : Op) : State :=
  if s.flag Reg.TIM_STATUS_ARMED then
    let c := s.candidate
    ((s.clearCandidate.timeStep c).raise Ev.TIME_STEPPED 0 (ofSigned 64 c)).finish o.key stOK 0 (ofSigned 64 c)
  else s.finish o.key stBAD_FIELD

/-- TIME_STEP_REQUEST (R470). -/
def execTimeStepRequest (delta : Int) (s : State) : Host.Outcome State Fault Refusal :=
  .next (s.inAon fun s => s.stepRequest delta)

/-- TIME_CONFIRM (R470). -/
def execTimeConfirm (op : OpKey) (s : State) : Host.Outcome State Fault Refusal :=
  .next (s.mgmtPF op 0x000E fun o s => s.timeConfirm o)

/-- PTP_MESSAGE (R473): on the management port while VDD_SER is good (R497), on a fabric port that is up. -/
def execPtpMessage (m : PtpMsg) (s : State) : Host.Outcome State Fault Refusal :=
  .next (if m.port = 576 then s.inAon fun s => if s.railOk 6 then s.ptpMessage m else s
    else s.inCore fun s => if s.portUp m.port then s.ptpMessage m else s)

end Sys2Proof.Machine
end

