-- ==== Sys2Proof/Machine/CommitChecks.lean ====
section
/-!
DEFINITION. The checks of a commit (R92): per block and group, the ranges of the field maps, the agreement rules and
the states that forbid a change. Every check names its field; a check without a field forbids the commit as a whole.
-/

namespace Sys2Proof.Machine

/-- A captured field. -/
def capFld (c : AMap Nat Word) (f : Fld) : Nat := bitsOf (c.getD f.off 0).toNat f.lsb f.width

/-- A captured one-bit field. -/
def capFlag (c : AMap Nat Word) (f : Fld) : Bool := capFld c f == 1

/-- A field lies in a range. -/
def within (c : AMap Nat Word) (f : Fld) (lo hi : Nat) : Fld × Bool :=
  (f, decide (lo ≤ capFld c f) && decide (capFld c f ≤ hi))

/-- A field is not 0. -/
def nonzero (c : AMap Nat Word) (f : Fld) : Fld × Bool := (f, capFld c f != 0)

/-- The failing field with the lowest offset and bit (R92). -/
def firstBad (l : List (Fld × Bool)) : Option (Nat × Nat) :=
  (l.filter fun x => !x.2).foldl (fun a x =>
    match a with
    | some (o, b) => if x.1.off < o ∨ (x.1.off = o ∧ x.1.lsb < b) then some (x.1.off, x.1.lsb) else a
    | none => some (x.1.off, x.1.lsb)) none

/-- A captured field equals the live one of an instance. -/
def State.keeps (s : State) (c : AMap Nat Word) (inst : Nat) (f : Fld) : Fld × Bool := (f, capFld c f == s.fld f inst)

/-- A power of two from 16 to 32,768. -/
def ringSizeOk (n : Nat) : Bool := n ∈ [16, 32, 64, 128, 256, 512, 1024, 2048, 4096, 8192, 16384, 32768]

/-! ### Instances -/

/-- The global ring a captured RING names for a requester. -/
def State.capRing (s : State) (v : View) (c : AMap Nat Word) : Nat :=
  s.globalRing (viewInst v) (capFld c Reg.HIF_RING_SEL_RING)

/-- The live instance that a register takes when its group goes live: the captured selector's, a virtual function's rings by
their global numbers, and its own window for a selector. -/
def State.capInst (s : State) (v : View) (c : AMap Nat Word) (d : RegDef) : Nat :=
  match v, d.sel with
  | _, [] => viewInst v
  | .vf _, _ => s.capRing v c
  | _, _ => sumOf (d.sel.map fun (o, lsb, w, sh) => bitsOf (c.getD o 0).toNat lsb w * 2 ^ sh)

/-! ### Ranges -/

/-- The base address of a ring or table of two captured words. -/
def capWide (c : AMap Nat Word) (lo hi : Fld) : Nat := capFld c lo + 2 ^ 32 * capFld c hi

def State.rangeHif (s : State) (v : View) (c : AMap Nat Word) : Nat → List (Fld × Bool)
  | 0 =>
    let fn := viewInst v
    let kind := capFld c Reg.HIF_RING_CFG_KIND
    let nq := kind == kindNQ
    (Reg.HIF_RING_SEL_RING, fn == 0 ||
        decide (capFld c Reg.HIF_RING_SEL_RING < s.fld Reg.HIF_VF_RINGS_RING_COUNT fn)) ::
    (if capFlag c Reg.HIF_RING_CFG_ENABLE then
      [(Reg.HIF_RING_BASE_LO_BASE, nq || capFld c Reg.HIF_RING_BASE_LO_BASE % 4096 == 0),
       (Reg.HIF_RING_CFG_SIZE, nq || ringSizeOk (capFld c Reg.HIF_RING_CFG_SIZE)),
       (Reg.HIF_RING_CFG_KIND, kindKnown kind),
       within c Reg.HIF_RING_CFG_PRIORITY 0 2,
       within c Reg.HIF_RING_LINK_VECTOR 0 (if fn = 0 then 1023 else 15)]
     else [])
  | _ =>
    [within c Reg.HIF_VF_SEL_VF 1 64,
     (Reg.HIF_VF_RINGS_RING_BASE, capFld c Reg.HIF_VF_RINGS_RING_BASE % 8 == 0 &&
        decide (capFld c Reg.HIF_VF_RINGS_RING_BASE + capFld c Reg.HIF_VF_RINGS_RING_COUNT ≤ 4096)),
     within c Reg.HIF_VF_RINGS_RING_COUNT 0 64,
     (Reg.HIF_VF_DOMAINS_DOMAIN_BASE,
        decide (capFld c Reg.HIF_VF_DOMAINS_DOMAIN_BASE + capFld c Reg.HIF_VF_DOMAINS_DOMAIN_COUNT ≤ 4096)),
     within c Reg.HIF_VF_DOMAINS_DOMAIN_COUNT 0 256]

def State.rangeMmu (s : State) (c : AMap Nat Word) : Nat → List (Fld × Bool)
  | 0 =>
    let root := capWide c Reg.MMU_DOM_ROOT_LO_ROOT Reg.MMU_DOM_ROOT_HI_ROOT
    if capFlag c Reg.MMU_DOM_CFG_ENABLE && !capFlag c Reg.MMU_DOM_CFG_IDENTITY then
      [(Reg.MMU_DOM_ROOT_LO_ROOT, root % 4096 == 0 && (decide (2 ^ 45 ≤ root) || s.hbmBacked root)),
       (Reg.MMU_DOM_ROOT_HI_ROOT, decide (root < 2 ^ 45))]
    else []
  | _ => [within c Reg.MMU_FAULT_CFG_PRI_WAIT_MS 1 60000]

def rangeSwc (c : AMap Nat Word) : Nat → List (Fld × Bool)
  | 1 =>
    ((List.range 3).flatMap fun i =>
      [within c (Reg.SWC_PROF_COLOUR_MIN.nth i) 0 12288, within c (Reg.SWC_PROF_COLOUR_MAX.nth i) 0 12288]) ++
    [within c Reg.SWC_PROF_CFG_AVG_SHIFT 0 12, within c Reg.SWC_PROF_CFG_ECN_TH 0 12288, within c Reg.SWC_PROF_CFG_ECN_MODE 0 1]
  | 2 => [within c Reg.SWC_QPROF_SEL_QUEUE 0 4607]
  | _ => []

def rangeTms (c : AMap Nat Word) : Nat → List (Fld × Bool)
  | 0 => [within c Reg.TMS_MAP_SEL_PORT 0 575, within c Reg.TMS_MAP_CFG_MODE 0 2]
  | 1 => [within c Reg.TMS_SHP_SEL_QUEUE 0 4607, nonzero c Reg.TMS_SHP_RATE_WEIGHT, within c Reg.TMS_SHP_BURST_BURST 0 786432]
  | 2 => [within c Reg.TMS_POL_SEL_POL 0 4607]
  | _ => []

def rangeTpt (c : AMap Nat Word) : Nat → List (Fld × Bool)
  | 0 => [nonzero c Reg.TPT_UDP_CFG_DST_PORT]
  | 1 =>
    [nonzero c Reg.TPT_TIMER_CFG_ACK_EVERY, nonzero c Reg.TPT_TIMER_CFG_RETRY_MAX, nonzero c Reg.TPT_TIMER_CFG_REORDER_TH,
     nonzero c Reg.TPT_RTO_CFG_RTO_MIN_US]
  | 2 => [within c Reg.TPT_LLR_SEL_PORT 0 575, within c Reg.TPT_LLR_CFG_MAX_OUT 1 16384, nonzero c Reg.TPT_LLR_CFG_TIMEOUT_US]
  | _ => [within c Reg.TPT_OPTAB_CFG_PLAN_RESERVE 0 32768]

def rangeBen (c : AMap Nat Word) : List (Fld × Bool) :=
  (List.range 2).flatMap fun d =>
    [(Reg.BEN_PART_CFG_PLAN_GRAN.nth d, decide (capFld c (Reg.BEN_PART_CFG_PLAN_GRAN.nth d) +
        capFld c (Reg.BEN_PART_CFG_TENSOR_GRAN.nth d) ≤ 25600)),
     within c (Reg.BEN_LINE_CFG_PLAN_LINES.nth d) 0 32768]

def rangeOpt (c : AMap Nat Word) : Nat → List (Fld × Bool)
  | 0 => [within c Reg.OPT_PG_TAG_LOCAL_TAG 0 0xFFFE]
  | _ => [within c Reg.OPT_FEATHER_CFG_STEP_10MS 30 255, within c Reg.OPT_FEATHER_CFG_RETIRE_EXP 4 10,
          within c Reg.OPT_FEATHER_CFG_FEED_MARGIN 0 100]

def State.rangeSlf (s : State) (c : AMap Nat Word) : Nat → List (Fld × Bool)
  | 0 =>
    let base := capWide c Reg.SLF_WIN_BASE_LO_BASE Reg.SLF_WIN_BASE_HI_BASE
    let units := capFld c Reg.SLF_WIN_CFG_TX_UNITS + capFld c Reg.SLF_WIN_CFG_RX_UNITS
    [(Reg.SLF_WIN_BASE_LO_BASE, base % 65536 == 0 && s.hbmBacked (base + units * 541065216 - 1)),
     within c Reg.SLF_WIN_CFG_TX_UNITS 1 16, within c Reg.SLF_WIN_CFG_RX_UNITS 1 16,
     nonzero c Reg.SLF_WIN_CFG_SKEW_US, within c Reg.SLF_WIN_CFG_DIFF_MS 1 10]
  | 1 =>
    [within c Reg.SLF_MON_CFG_SD_EXP 5 9, within c Reg.SLF_MON_CFG_GRACE_MULT 2 15, nonzero c Reg.SLF_MON_CFG_HOLD_S,
     nonzero c Reg.SLF_PROT_CFG_WTR_S, within c Reg.SLF_PROT_CFG_FORCE 0 2]
  | _ => []

def rangeTim (c : AMap Nat Word) : Nat → List (Fld × Bool)
  | 0 => [within c Reg.TIM_GUARD_CFG_JUMP_NS 1 1000000, within c Reg.TIM_GUARD_CFG_N_CONSIST 2 15,
          nonzero c Reg.TIM_GUARD_CFG2_CONSIST_NS]
  | 1 =>
    let inc := capWide c Reg.TIM_INC_LO_INC Reg.TIM_INC_HI_INC
    [(Reg.TIM_INC_LO_INC, decide (7996 * 2 ^ 32 ≤ inc * 10000) && decide (inc * 10000 ≤ 8004 * 2 ^ 32))]
  | 3 => [within c Reg.TIM_PORT_SEL_PORT 0 576]
  | _ => []

def rangePwr (c : AMap Nat Word) : Nat → List (Fld × Bool)
  | 0 => [within c Reg.PWR_CAP_CFG_CAP_W 1200 2200, within c Reg.PWR_V_CFG_V_MAX_MV 720 900,
          within c Reg.PWR_V_CFG_V_IDLE_MV 650 1023]
  | 1 => [within c Reg.PWR_THERM_CFG_T_TARGET_C 85 103]
  | 2 => [nonzero c Reg.PWR_UNIT_CFG_NAP_US, nonzero c Reg.PWR_UNIT_CFG_OFF_MS]
  | _ => [within c Reg.PWR_ALARM_NS_NS 0 999999999]

def rangeFlt (c : AMap Nat Word) : Nat → List (Fld × Bool)
  | 0 => [nonzero c Reg.FLT_CFG_UDP_PORT, within c Reg.FLT_CFG_MISS_COUNT 2 15, within c Reg.FLT_CFG_VOTE_WAIT 10 255,
          nonzero c Reg.FLT_CFG2_QUIET_US]
  | 1 => [nonzero c Reg.FLT_HEALTH_CFG_EXPEL_TH, nonzero c Reg.FLT_HEALTH_CFG_HALF_S]
  | 2 => [nonzero c Reg.FLT_BUDGET_CFG_EXP_DOMAIN, nonzero c Reg.FLT_BUDGET_CFG_DOMAIN_WIN_S,
          nonzero c Reg.FLT_BUDGET_CFG_EXP_GROUP, nonzero c Reg.FLT_BUDGET_CFG_GROUP_WIN_S]
  | _ => [nonzero c Reg.FLT_PROB_CFG_PROB_S]

/-- COMMIT_RANGE: R103, R123, R127, R133, R149, R174, R176, R188, R215, R232, R252, R298, R345, R400, R431, R460, R475,
R498, R538, and the ranges of the field maps of MGT, DBQ, MMU and EVR. -/
def State.rangeChecks (s : State) (v : View) (b : Blk) (g : Nat) (c : AMap Nat Word) : List (Fld × Bool) :=
  match b with
  | .mgt => if g = 0 then [within c Reg.MGT_MGC_WATCHDOG_TIMEOUT_MS 10 1000] else []
  | .hif => s.rangeHif v c g
  | .dbq => [within c Reg.DBQ_COX_WATCHDOG_TIMEOUT_US 250 16000]
  | .mmu => s.rangeMmu c g
  | .hbm =>
    if g = 0 then [within c Reg.HBM_MAP_CFG_SPARES 0 16]
    else [nonzero c Reg.HBM_CE_POLICY_COUNT, nonzero c Reg.HBM_CE_POLICY_WINDOW_MIN, nonzero c Reg.HBM_CE_POLICY_SCRUB_H]
  | .ddr => [nonzero c Reg.DDR_CE_POLICY_COUNT, nonzero c Reg.DDR_CE_POLICY_WINDOW_MIN, nonzero c Reg.DDR_CE_POLICY_SCRUB_H]
  | .sett => [within c Reg.SETT_QSEL_SEL 0 153, within c Reg.SETT_QMIN_SETTS 0 786432, within c Reg.SETT_QMAX_SETTS 0 786432]
  | .swc => rangeSwc c g
  | .tms => rangeTms c g
  | .tpt => rangeTpt c g
  | .ben => rangeBen c
  | .col =>
    if g = 0 then
      [(Reg.COL_ADMIT_CFG_DEF_WINDOW, capFld c Reg.COL_ADMIT_CFG_DEF_WINDOW % 2 == 0 &&
          (within c Reg.COL_ADMIT_CFG_DEF_WINDOW 2 1024).2),
       nonzero c Reg.COL_ADMIT_CFG_RESULT_DEPTH, nonzero c Reg.COL_ADMIT_CFG_QUERY_US, nonzero c Reg.COL_BACKOFF_CFG_BASE_US]
    else []
  | .tfb => [nonzero c Reg.TFB_SCHED_CFG_QUANTUM_US]
  | .out => [nonzero c Reg.OUT_TIMER_CFG_HDR_MS, nonzero c Reg.OUT_TIMER_CFG_ROSTER_WAIT, nonzero c Reg.OUT_TIMER_CFG_LOSS_S,
             nonzero c Reg.OUT_MISMATCH_CFG_MISMATCH_S]
  | .opt => rangeOpt c g
  | .eln => [nonzero c Reg.ELN_OCT_CFG_RATE]
  | .slf => s.rangeSlf c g
  | .lsc => if g = 0 then [within c Reg.LSC_PORT_SEL_PORT 0 575] else [nonzero c Reg.LSC_KEY_CFG_FAB_GRACE_US]
  | .tim => rangeTim c g
  | .pwr => rangePwr c g
  | .evr => (List.range 5).flatMap fun i => [nonzero c (Reg.EVR_RATE_CFG_BURST.nth i), nonzero c (Reg.EVR_RATE_CFG_PER_S.nth i)]
  | .flt => rangeFlt c g
  | .pln => []
  | .ash => []
  | .kmc => []
  | .att => []

/-! ### Agreement -/

/-- `a` does not exceed `b`. -/
def atMost (c : AMap Nat Word) (a b : Fld) : Fld × Bool := (a, decide (capFld c a ≤ capFld c b))

/-- The captured line-group byte of a lane of an octet, and whether the lane is enabled. -/
def capLane (c : AMap Nat Word) (i : Nat) : Option Nat :=
  let w := (c.getD (if i < 4 then 0x8 else 0xC) 0).toNat
  if bitAt w (8 * (i % 4) + 7) then some (bitsOf w (8 * (i % 4)) 4) else none
def capLaneOn (c : AMap Nat Word) (i : Nat) : Bool := bitAt (capFld c Reg.ELN_OCT_CFG_ENABLE) i

/-- Every fabric port of a captured octet has all its lanes (R176). -/
def octetPortsOk (c : AMap Nat Word) : Bool :=
  let w := 2 ^ capFld c Reg.ELN_OCT_CFG_PORT_WIDTH
  (List.range (8 / w)).all fun p =>
    let lanes := (List.range w).map (p * w + ·)
    let serves := fun i => capLaneOn c i && (capLane c i).isNone
    !(lanes.any serves) || lanes.all serves

/-- COMMIT_MISMATCH: R103, R176, R188, R215, R232, R252, R298, R498, R538. -/
def mismatchChecks (b : Blk) (g : Nat) (c : AMap Nat Word) : List (Fld × Bool) :=
  match b, g with
  | .hif, 0 => [(Reg.HIF_RING_LINK_CQ, !(isSubmission (capFld c Reg.HIF_RING_CFG_KIND) &&
      capFld c Reg.HIF_RING_LINK_CQ == capFld c Reg.HIF_RING_SEL_RING))]
  | .sett, _ => [atMost c Reg.SETT_QMIN_SETTS Reg.SETT_QMAX_SETTS]
  | .swc, 1 => (List.range 3).map fun i => atMost c (Reg.SWC_PROF_COLOUR_MIN.nth i) (Reg.SWC_PROF_COLOUR_MAX.nth i)
  | .tms, 2 => [atMost c Reg.TMS_POL_CIR_CIR_MBPS Reg.TMS_POL_PIR_PIR_MBPS]
  | .tpt, 1 => [atMost c Reg.TPT_RTO_CFG_RTO_MIN_US Reg.TPT_RTO_CFG_RTO_MAX_US]
  | .col, 0 => [atMost c Reg.COL_BACKOFF_CFG_BASE_US Reg.COL_BACKOFF_CFG_MAX_US]
  | .col, 1 =>
    let on := fun i => capFlag c (Reg.COL_LATE_WATCH_ENABLE.nth i)
    let grp := fun i => capFld c (Reg.COL_LATE_WATCH_GROUP.nth i)
    (List.range 16).map fun i =>
      (Reg.COL_LATE_WATCH_GROUP.nth i, !(on i && (List.range 16).any fun j => j != i && on j && grp j == grp i))
  | .eln, _ => [(Reg.ELN_OCT_CFG_ENABLE, octetPortsOk c)]
  | .pwr, 0 => [(Reg.PWR_V_CFG_V_MAX_MV, (atMost c Reg.PWR_V_CFG_V_IDLE_MV Reg.PWR_V_CFG_V_MAX_MV).2)]
  | .flt, 2 => [atMost c Reg.FLT_BUDGET_CFG_EXP_DOMAIN Reg.FLT_BUDGET_CFG_EXP_GROUP]
  | _, _ => []

/-! ### State -/

/-- Two runs of numbers, each a first number and a count, share a number. -/
def runsMeet (a n b m : Nat) : Bool := decide (a < b + m) && decide (b < a + n) && decide (0 < n) && decide (0 < m)

/-- A completion ring is named by an enabled submission ring, or something is still owed to it (R103). -/
def State.cqInUse (s : State) (n : Nat) : Bool :=
  (s.hif.rings.any fun p => isSubmission p.2.kind && s.cqOf p.1 == n &&
    (p.2.enabled || !p.2.taken.isEmpty || !p.2.aborted.isEmpty)) ||
  !(s.ring n).owed.isEmpty ||
  (s.col.ops.any fun p => p.2.entries && p.2.chunkCq == n) ||
  (s.tfb.ctxs.any fun p => p.2.cur.any (fun r => r.cq == some n) || p.2.queue.any fun r => r.cq == some n)

/-- A virtual function may enable rings of this kind (R123). -/
def State.vfMay (s : State) (fn kind : Nat) : Bool :=
  if kind = kindRIG then s.flag Reg.HIF_VF_PERMS_RIG fn
  else if kind = kindCOLL then s.flag Reg.HIF_VF_PERMS_COLL fn
  else if kind = kindOUTER then s.flag Reg.HIF_VF_PERMS_OUTER fn
  else kind == kindXFER || kind == kindMGMT || kind == kindCQ || kind == kindNQ

/-- The state checks of a ring commit (R103, R123). -/
def State.stateRing (s : State) (v : View) (c : AMap Nat Word) : List (Fld × Bool) :=
  let n := s.capRing v c
  let r := s.ring n
  let fn := viewInst v
  let kind := capFld c Reg.HIF_RING_CFG_KIND
  let on := capFlag c Reg.HIF_RING_CFG_ENABLE
  (Reg.HIF_RING_SEL_RING, !(fn == 0 && s.ringFn n != 0)) ::
  (if r.enabled then
    [s.keeps c n Reg.HIF_RING_BASE_LO_BASE, s.keeps c n Reg.HIF_RING_BASE_HI_BASE, s.keeps c n Reg.HIF_RING_CFG_SIZE,
     s.keeps c n Reg.HIF_RING_CFG_KIND, s.keeps c n Reg.HIF_RING_CFG_PRIORITY, s.keeps c n Reg.HIF_RING_LINK_CQ,
     s.keeps c n Reg.HIF_RING_LINK_VECTOR, s.keeps c n Reg.HIF_RING_LINK_MIN_SEV,
     (Reg.HIF_RING_CFG_ENABLE, on || r.kind != kindCQ || r.fault || !s.cqInUse n)]
   else if on then
    [(Reg.HIF_RING_CFG_KIND, fn == 0 || s.vfMay fn kind),
     (Reg.HIF_RING_CFG_ENABLE, kind != kindNQ || decide ((s.nqRings fn).length < (if fn = 0 then 8 else 1))),
     (Reg.HIF_RING_LINK_CQ, !isSubmission kind || (s.cqRing fn (capFld c Reg.HIF_RING_LINK_CQ)).isSome)]
   else [])

/-- The state checks of a partition commit (R123). -/
def State.statePartition (s : State) (c : AMap Nat Word) : List (Fld × Bool) :=
  let me := capFld c Reg.HIF_VF_SEL_VF
  let others := ((List.range 64).map (· + 1)).filter (· != me)
  [(Reg.HIF_VF_SEL_VF, !(s.hif.vfs.contains me)),
   (Reg.HIF_VF_RINGS_RING_BASE, !(others.any fun v =>
      runsMeet (capFld c Reg.HIF_VF_RINGS_RING_BASE) (capFld c Reg.HIF_VF_RINGS_RING_COUNT)
        (s.fld Reg.HIF_VF_RINGS_RING_BASE v) (s.fld Reg.HIF_VF_RINGS_RING_COUNT v))),
   (Reg.HIF_VF_DOMAINS_DOMAIN_BASE, !(others.any fun v =>
      runsMeet (capFld c Reg.HIF_VF_DOMAINS_DOMAIN_BASE) (capFld c Reg.HIF_VF_DOMAINS_DOMAIN_COUNT)
        (s.fld Reg.HIF_VF_DOMAINS_DOMAIN_BASE v) (s.fld Reg.HIF_VF_DOMAINS_DOMAIN_COUNT v)))]

/-- The state checks of a domain commit (R133). -/
def State.stateDomain (s : State) (c : AMap Nat Word) : List (Fld × Bool) :=
  let d := capFld c Reg.MMU_DOM_SEL_DOM
  (if s.domainOn d then
    [s.keeps c d Reg.MMU_DOM_ROOT_LO_ROOT, s.keeps c d Reg.MMU_DOM_ROOT_HI_ROOT, s.keeps c d Reg.MMU_DOM_CFG_IDENTITY]
   else []) ++
  [(Reg.MMU_DOM_CFG_IDENTITY, !(capFlag c Reg.MMU_DOM_CFG_IDENTITY && ((List.range 64).map (· + 1)).any fun v =>
      decide (s.fld Reg.HIF_VF_DOMAINS_DOMAIN_BASE v ≤ d) &&
        decide (d < s.fld Reg.HIF_VF_DOMAINS_DOMAIN_BASE v + s.fld Reg.HIF_VF_DOMAINS_DOMAIN_COUNT v)))]

/-- The new minimum fits on every die it counts on (R181, R188). -/
def State.stateSett (s : State) (c : AMap Nat Word) : List (Fld × Bool) :=
  let q := capFld c Reg.SETT_QSEL_SEL
  let new := capFld c Reg.SETT_QMIN_SETTS
  let dies := if 128 ≤ q && q < 144 then [0, 1] else [s.reqDie q]
  [(Reg.SETT_QMIN_SETTS, dies.all fun die =>
    decide (new + sumOf (((s.dieReqs die).filter (· != q)).map s.settMin) ≤ 786432))]

/-- Granules and lines in use in a partition of a die (R298, R328): planned bays or plan reservations, tensor, dynamic. -/
def State.planGranUsed (s : State) (d : Nat) : Nat :=
  max (sumOf (s.planOps.map fun p => p.baysOn d * p.granules)) (sumOf (s.resident.map fun p => (s.planPeak p.2.1 d).1))
def State.planLinesUsed (s : State) (d : Nat) : Nat :=
  max (sumOf (s.planOps.map fun p => p.baysOn d * s.bayLines p.group)) (sumOf (s.resident.map fun p => (s.planPeak p.2.1 d).2))
def State.tensorGranUsed (s : State) (d : Nat) : Nat :=
  maxOf ((s.tfb.ctxs.filter fun p => p.2.st != csxEMPTY && p.2.options.any fun o => (diesOf o).contains d).map fun p => tBenchGran p.2.cont)
def State.dynGranUsed (s : State) (d : Nat) : Nat := sumOf (s.dynOps.map fun o => o.baysOn d * o.granules)
def State.dynLinesUsed (s : State) (d : Nat) : Nat := sumOf (s.dynOps.map fun o => o.baysOn d * s.bayLines o.group)

def State.stateBench (s : State) (c : AMap Nat Word) : List (Fld × Bool) :=
  (List.range 2).flatMap fun d =>
    let pg := capFld c (Reg.BEN_PART_CFG_PLAN_GRAN.nth d)
    let tg := capFld c (Reg.BEN_PART_CFG_TENSOR_GRAN.nth d)
    let pl := capFld c (Reg.BEN_LINE_CFG_PLAN_LINES.nth d)
    [(Reg.BEN_PART_CFG_PLAN_GRAN.nth d, decide (s.planGranUsed d ≤ pg) && decide (s.dynGranUsed d + pg + tg ≤ 25600)),
     (Reg.BEN_PART_CFG_TENSOR_GRAN.nth d, decide (s.tensorGranUsed d ≤ tg)),
     (Reg.BEN_LINE_CFG_PLAN_LINES.nth d, decide (s.planLinesUsed d ≤ pl) && decide (s.dynLinesUsed d + pl ≤ 32768))]

/-- The state checks of a port-group commit (R174). -/
def State.statePg (s : State) (c : AMap Nat Word) : List (Fld × Bool) :=
  let g := capFld c Reg.OPT_PG_SEL_PG
  if s.flag Reg.OPT_PG_CFG_ENABLE g then
    [s.keeps c g Reg.OPT_PG_CFG_BREAKOUT, s.keeps c g Reg.OPT_PG_TAG_LOCAL_TAG, s.keeps c g Reg.OPT_PG_TAG_EXPECT_TAG]
  else []

/-- The state checks of an octet commit (R176): nothing changes for a lane whose link is up. -/
def State.stateOctet (s : State) (c : AMap Nat Word) : List (Fld × Bool) :=
  let k := capFld c Reg.ELN_OCT_SEL_OCT
  let up := (List.range 8).filter fun i => s.laneSt (8 * k + i) == 3
  let ports := up.filter fun i => (s.laneGroup (8 * k + i)).isNone
  [(Reg.ELN_OCT_CFG_ENABLE, up.all fun i => capLaneOn c i),
   (Reg.ELN_OCT_CFG_RATE, up.isEmpty || (s.keeps c k Reg.ELN_OCT_CFG_RATE).2),
   (Reg.ELN_OCT_CFG_KIND, up.isEmpty || (s.keeps c k Reg.ELN_OCT_CFG_KIND).2),
   (Reg.ELN_OCT_CFG_PORT_WIDTH, ports.isEmpty || (s.keeps c k Reg.ELN_OCT_CFG_PORT_WIDTH).2)] ++
  (List.range 8).map fun i =>
    ({ (if i < 4 then Reg.ELN_OCT_LG_LO_LG0 else Reg.ELN_OCT_LG_HI_LG0) with lsb := 8 * (i % 4) },
      !(up.contains i) || capLane c i == s.laneGroup (8 * k + i))

/-- The first byte and the length of the window area of an enabled line group (R415). -/
def State.lineArea (s : State) (g : Nat) : Nat × Nat :=
  (s.fld Reg.SLF_WIN_BASE_LO_BASE g + 2 ^ 32 * s.fld Reg.SLF_WIN_BASE_HI_BASE g,
   (s.fld Reg.SLF_WIN_CFG_TX_UNITS g + s.fld Reg.SLF_WIN_CFG_RX_UNITS g) * 541065216)

/-- The state checks of a line-group commit (R431). -/
def State.stateLine (s : State) (c : AMap Nat Word) : List (Fld × Bool) :=
  let g := capFld c Reg.SLF_CFG_SEL_GROUP
  let others := (List.range 16).filter fun h => h != g && s.lineOn h
  let base := capWide c Reg.SLF_WIN_BASE_LO_BASE Reg.SLF_WIN_BASE_HI_BASE
  let units := capFld c Reg.SLF_WIN_CFG_TX_UNITS + capFld c Reg.SLF_WIN_CFG_RX_UNITS
  (if s.lineOn g then
    [s.keeps c g Reg.SLF_GRP_CFG_PROTECT, s.keeps c g Reg.SLF_GRP_CFG_ENCRYPT, s.keeps c g Reg.SLF_GRP_CFG_PKT_Q7,
     s.keeps c g Reg.SLF_GRP_CFG_PLANNED, s.keeps c g Reg.SLF_WIN_BASE_LO_BASE, s.keeps c g Reg.SLF_WIN_BASE_HI_BASE,
     s.keeps c g Reg.SLF_WIN_CFG_TX_UNITS, s.keeps c g Reg.SLF_WIN_CFG_RX_UNITS, s.keeps c g Reg.SLF_WIN_CFG_SKEW_US,
     s.keeps c g Reg.SLF_WIN_CFG_DIFF_MS]
   else []) ++
  (if capFlag c Reg.SLF_GRP_CFG_ENABLE then
    [(Reg.SLF_WIN_CFG_TX_UNITS, decide (sumOf (others.map fun h =>
        s.fld Reg.SLF_WIN_CFG_TX_UNITS h + s.fld Reg.SLF_WIN_CFG_RX_UNITS h) + units ≤ 127)),
     (Reg.SLF_WIN_BASE_LO_BASE, !(others.any fun h =>
        runsMeet base (units * 541065216) (s.lineArea h).1 (s.lineArea h).2))]
   else [])

/-- COMMIT_STATE, by field. -/
def State.stateChecks (s : State) (v : View) (b : Blk) (g : Nat) (c : AMap Nat Word) : List (Fld × Bool) :=
  match b, g with
  | .hif, 0 => s.stateRing v c
  | .hif, _ => s.statePartition c
  | .mmu, 0 => s.stateDomain c
  | .sett, _ => s.stateSett c
  | .ben, _ => s.stateBench c
  | .opt, 0 => s.statePg c
  | .eln, _ => s.stateOctet c
  | .slf, 0 => s.stateLine c
  | _, _ => []

/-- The state forbids the commit as a whole: the ring's queue set is held (R24), or the HBM layout is in use (R127). -/
def State.forbidden (s : State) (v : View) (b : Blk) (g : Nat) (c : AMap Nat Word) : Bool :=
  match b, g with
  | .hif, 0 => s.qsHeld (queueSet (s.capRing v c))
  | .hbm, 0 => (List.range 4096).any s.domainOn || (List.range 16).any s.lineOn || s.mem.retires.any fun r => r.unit.tier == 0
  | _, _ => false

/-! ### The outcome of checking -/

/-- A failed check: code, group, offset and lowest bit. -/
structure CommitFail where
  code : Nat
  group : Nat
  off : Nat := 0
  lsb : Nat := 0
  deriving DecidableEq, Repr

/-- The lowest group of a list that fails a check, with its field. -/
def failOf (code : Nat) (gs : List Nat) (bad : Nat → Option (Nat × Nat)) : Option CommitFail :=
  gs.findSome? fun g => (bad g).map fun p => { code := code, group := g, off := p.1, lsb := p.2 }

/-- The first check that fails, in the order of the table of R92, for the groups of a mask with their captured values. -/
def State.commitFail (s : State) (v : View) (b : Blk) (mask : Nat) (c : AMap Nat Word) : Option CommitFail :=
  let gs := maskGroups mask
  let p := s.port v b
  let at0 : Bool → Option (Nat × Nat) := fun bad => if bad then some (0, 0) else none
  (failOf 1 gs fun g => at0 (!groupOwned v b g)).or <|
  (failOf 2 gs fun g => at0 (p.pend.has g)).or <|
  (failOf 3 gs fun g => firstBad (s.rangeChecks v b g c)).or <|
  (failOf 4 gs fun g => firstBad (mismatchChecks b g c)).or <|
  failOf 5 gs fun g => (firstBad (s.stateChecks v b g c)).or (at0 (s.forbidden v b g c))

end Sys2Proof.Machine
end

