-- ==== Sys2Proof/Machine/Commit.lean ====
section
/-!
DEFINITION. Set-up register accesses, and the end of a commit (R81 to R93): the outcome of checking, the boundary of a
pending group, the change of its live copy, and what that change causes in its block.
-/

namespace Sys2Proof.Machine

/-! ### What going live causes -/

/-- A ring is enabled: both of its indices are 0, FAULT clears, and a notification queue starts empty with SEQ 0 (R103,
R115, R118). READY that waited goes to a PF NQ ring (R119). -/
def State.ringOn (s : State) (n kind : Nat) : State :=
  let k := s.hif.enables + 1
  let r := s.ring n
  let s1 := { s with hif := { s.hif with enables := k } }
  let s2 := s1.setRing n { r with
    enabled := true, kind := kind, dev := 0, host := 0, fault := false, phase := true, completedUpTo := 0, enabledAt := k
    nqFill := [], nqDrain := [], nqLast := none, nqSeq := 0, nqSignalled := false }
  match s2.hif.readyWaits with
  | some d => if kind = kindNQ ∧ s2.ringFn n = 0
      then { s2 with hif := { s2.hif with readyWaits := none } }.postReady d else s2
  | none => s2

/-- A ring is disabled: the descriptors not taken complete ABORTED after those taken (R104). -/
def State.ringOff (s : State) (n : Nat) : State :=
  let r := s.ring n
  let size := s.ringSize n
  let left := if isSubmission r.kind
    then (List.range (ringUsed size r.dev r.host)).map fun i => (r.dev + i) % size else []
  s.setRing n { r with
    enabled := false, aborted := r.aborted ++ left.map fun sl => (sl, r.taken.length), dev := if isSubmission r.kind then r.host else r.dev
    nqFill := [], nqDrain := [] }

/-- A running transfer or line operation names device memory of a domain. -/
def State.xferInDomain (s : State) (dom : Nat) (o : Op) : Bool :=
  dKind o.desc == kindXFER && o.runs && (xSrcSpace o.desc == 1 || xDstSpace o.desc == 1) &&
    s.domainOf o.fn (dDomain o.desc) == some dom

/-- A domain is disabled (R134): its cached translations are dropped, and its operations end at their next segment
boundary; a run's is its next group commit, which a run held by a fault has passed. -/
def State.domainOff (s : State) (dom : Nat) : State :=
  let s1 := s.dropTlb dom 0 0
  let s2 := (s1.hif.ops.map (·.2)).foldl (fun (s : State) o =>
    if s.xferInDomain dom o then s.stopXfer o stDOMAIN_DENIED
    else if o.waits && s.domainOf o.fn (dDomain o.desc) == some dom then s.setOp { o with dark := true }
    else s) s1
  let s3 := (s2.col.ops.map (·.2)).foldl (fun (s : State) o =>
    if o.domain = dom ∧ (o.log ≠ 0 ∨ o.spill ≠ 0) then
      match s.collOp o.group o.seq with
      | some p => s.collEnd p stDOMAIN_DENIED
      | none => s
    else s) s2
  (List.range 64).foldl (fun (s : State) n =>
    let c := s.tctx n
    if c.hold ≠ .none ∧ c.runDomain = dom then s.runEnd n stDOMAIN_DENIED else s) s3

/-- The HBM layout is assigned anew, and the contents of its slots are not preserved (R127). -/
def State.hbmAgain (s : State) : State :=
  let old := s.fld Reg.HBM_MAP_STATUS_VISIBLE_GIB
  let s1 := s.assignHbm
  s1.openRange 0 (max old (s1.fld Reg.HBM_MAP_STATUS_VISIBLE_GIB) * 2 ^ 30)

/-- A port group that may run acquires once START-UP is READY; a bypassed one watches (R166, R212). -/
def State.groupStart (s : State) (g : Nat) : State :=
  if s.stage < 7 ∨ s.groupSt g ≠ gsOFF then s else s.groupAcquire g

/-- An electrical lane that is enabled naps until it finds energy (R177, R492). -/
def State.laneStart (s : State) (l : Nat) : State :=
  if s.stage < 9 ∨ s.laneOn l = false ∨ s.laneSt l ≠ 0 then s
  else ({ s with lanes := { s.lanes with trainFails := s.lanes.trainFails.put l 0 } }.setLaneSt l 1).unitReached 4 l

/-- START-UP is READY: enabled port groups, lanes and line groups start. -/
def State.bringUp (s : State) : State :=
  let s1 := (List.range 64).foldl (fun (s : State) g => if s.flag Reg.OPT_PG_CFG_ENABLE g then s.groupStart g else s) s
  let s2 := (List.range 64).foldl (fun (s : State) l => s.laneStart l) s1
  (List.range 16).foldl (fun (s : State) g => s.lineRefresh g) s2

/-- An octet's set-up has changed (R176): lanes newly enabled start, lanes disabled are OFF. -/
def State.octetLive (old s : State) (k : Nat) : State :=
  let s1 := (List.range 8).foldl (fun (s : State) i =>
    let l := 8 * k + i
    if s.laneOn l then s.laneStart l
    else if old.laneOn l then
      ((if s.portUp (512 + l) then s.linkDown (512 + l) else s).setLaneSt l 0).showTraffic
    else s) s
  (List.range 16).foldl (fun (s : State) g => s.lineRefresh g) s1

/-- Both legs' running bins are SUSPECT (R426). -/
def State.lineSuspect (s : State) (g : Nat) : State :=
  let x := s.lgrp g
  s.setLgrp g { x with legA := x.legA.markSuspect, legB := x.legB.markSuspect }

/-- A line group's set-up has changed. -/
def State.lineLive (old s : State) (g : Nat) : State :=
  if s.lineOn g && !old.lineOn g then s.lineEnable g
  else if !s.lineOn g && old.lineOn g then s.lineDisable g
  else s.lineSuspect g

/-- A DCC port's set-up has changed: a port that is disabled, or serves another group, empties its buffer (R430). -/
def State.dccLive (old s : State) (port : Nat) (lg en : Fld) : State :=
  if s.flag en && old.flag en && s.fld lg == old.fld lg then s
  else (s.onLine fun l => { l with dcc := l.dcc.put port {} }).setFlag (Reg.SLF_DCC_STATUS_ACTIVE.nth port) 0 false

/-- Token buckets are brought up to the present time under the old rates (R512). -/
def State.bucketsNow (s : State) : State := Ev.table.foldl (fun (s : State) e => s.setBucket e.1 (s.bucket e.1)) s

/-- A lateness watch slot that names another group, or is enabled, starts with empty records. -/
def State.watchLive (old s : State) : State :=
  let changed := (List.range 16).filter fun i =>
    s.fld (Reg.COL_LATE_WATCH_GROUP.nth i) != old.fld (Reg.COL_LATE_WATCH_GROUP.nth i) ||
      s.flag (Reg.COL_LATE_WATCH_ENABLE.nth i) != old.flag (Reg.COL_LATE_WATCH_ENABLE.nth i)
  s.onCol fun c => { c with late := c.late.filter fun p => !(changed.contains p.1.1) }

/-- The eight queues of a port whose class has changed change class as a whole (R219). -/
def State.classesLive (old s : State) (port : Nat) : State :=
  (List.range 8).foldl (fun (s : State) tc =>
    if s.tcClass port tc = old.tcClass port tc then s else s.reclass (8 * port + tc)) s

/-- What a group's going live causes; `old` is the state before, `c` the captured values. -/
def State.wentLive (old s : State) (v : View) (b : Blk) (g : Nat) (c : AMap Nat Word) : State :=
  match b, g with
  | .hif, 0 =>
    let n := s.capRing v c
    let on := capFlag c Reg.HIF_RING_CFG_ENABLE
    if on && !(s.ring n).enabled then s.ringOn n (capFld c Reg.HIF_RING_CFG_KIND)
    else if !on && (s.ring n).enabled then s.ringOff n else s
  | .mmu, 0 =>
    let d := capFld c Reg.MMU_DOM_SEL_DOM
    if s.domainOn d && !old.domainOn d then s.onMem fun m => { m with epochs := m.epochs.put d (m.epochs.getD d 0 + 1) }
    else if !s.domainOn d && old.domainOn d then s.domainOff d else s
  | .hbm, 0 => s.hbmAgain
  | .hbm, 1 => s.ceJudgeAll 0
  | .ddr, 0 => s.ceJudgeAll 1
  | .sett, _ =>
    let q := capFld c Reg.SETT_QSEL_SEL
    s.settRaise q (old.settMin q) (capFld c Reg.SETT_QMIN_SETTS)
  | .tms, 0 => old.classesLive s (capFld c Reg.TMS_MAP_SEL_PORT)
  | .tms, 1 =>
    let q := capFld c Reg.TMS_SHP_SEL_QUEUE
    s.setOutq q (s.outq q)
  | .tms, 2 =>
    let p := capFld c Reg.TMS_POL_SEL_POL
    if s.flag Reg.TMS_POL_CFG_ENABLE p && !old.flag Reg.TMS_POL_CFG_ENABLE p then s.policerEnable p else s
  | .tms, 3 => s.histClearAll
  | .tpt, 2 =>
    let p := capFld c Reg.TPT_LLR_SEL_PORT
    if s.llrOn p then s else s.llrReset p
  | .ben, _ => s.place.collSettle
  | .col, 0 => s.collSettle
  | .col, 1 => old.watchLive s
  | .opt, 0 =>
    let p := capFld c Reg.OPT_PG_SEL_PG
    if s.flag Reg.OPT_PG_CFG_ENABLE p && !old.flag Reg.OPT_PG_CFG_ENABLE p then s.groupStart p
    else if !s.flag Reg.OPT_PG_CFG_ENABLE p && old.flag Reg.OPT_PG_CFG_ENABLE p then (s.groupStop p gsOFF).unitReached 5 p
    else s
  | .eln, _ => old.octetLive s (capFld c Reg.ELN_OCT_SEL_OCT)
  | .slf, 0 => old.lineLive s (capFld c Reg.SLF_CFG_SEL_GROUP)
  | .slf, 1 =>
    let h := capFld c Reg.SLF_MON_SEL_GROUP
    (s.lineSuspect h).lineRefresh h
  | .slf, 2 =>
    old.dccLive (old.dccLive s 0 Reg.SLF_DCC_CFG_PORT0_LG Reg.SLF_DCC_CFG_PORT0_EN) 1
      Reg.SLF_DCC_CFG_PORT1_LG Reg.SLF_DCC_CFG_PORT1_EN
  | .lsc, 0 =>
    let p := capFld c Reg.LSC_PORT_SEL_PORT
    if s.encrypts p && !old.encrypts p then (if s.portUp p then s.linkFresh p else s.showLink p)
    else if !s.encrypts p && old.encrypts p then s.linkDrop p else s
  | .tim, 2 => if s.flag Reg.TIM_PPS_CFG_OUT_EN then s else { s with time := { s.time with ppsOut := false } }
  | .pwr, 0 => s.setPoint
  | .pwr, 3 =>
    let a := capFld c Reg.PWR_ALARM_SEL_ALARM
    if s.flag Reg.PWR_ALARM_CFG_EN a then (s.onPower fun p => { p with armed := withElem p.armed a }).alarmFire a
    else s.onPower fun p => { p with armed := without p.armed a }
  | _, _ => s

/-- The live copies of a group take the captured values, in their RWS fields alone. -/
def State.mergeLive (s : State) (v : View) (b : Blk) (g : Nat) (c : AMap Nat Word) : State :=
  (groupOffs b g).foldl (fun (s : State) o =>
    match regDefAt b o with
    | some d =>
      let k : RegKey := ⟨b, o, s.capInst v c d⟩
      s.setReg k (BitVec.ofNat 32 (writeFields d.fields (fun f => f.acc == .rws) (s.reg k).toNat (c.getD o 0).toNat))
    | none => s) s

/-- A group goes live as one unit (R87). -/
def State.goLive (s : State) (v : View) (b : Blk) (g : Nat) (c : AMap Nat Word) : State :=
  let s0 := if b == .evr then s.bucketsNow else s
  s0.wentLive (s0.mergeLive v b g c) v b g c

/-! ### Boundaries (R90) -/

/-- The boundary kinds the blocks use. -/
inductive Boundary where
  | immediate
  | unit
  | refill
  | frame
  deriving DecidableEq, Repr

/-- The boundary of a group, as its block's table gives it. -/
def groupBoundary (b : Blk) (g : Nat) : Boundary :=
  match b, g with
  | .hif, 0 => .unit
  | .swc, 1 => .unit
  | .swc, 2 => .unit
  | .tms, 0 => .unit
  | .tms, 1 => .refill
  | .tms, 2 => .refill
  | .tpt, 2 => .unit
  | .opt, 1 => .unit
  | .slf, 1 => .frame
  | .lsc, 0 => .unit
  | .tim, 3 => .unit
  | _, _ => .immediate

/-- An accepted group waits for its boundary: `busy` says that its block or instance has a unit of work in progress; a
group without a boundary source goes live at once. -/
def State.groupWaits (s : State) (b : Blk) (g : Nat) (c : AMap Nat Word) (busy : Bool) : Bool :=
  match groupBoundary b g with
  | .immediate => false
  | .unit => busy
  | .refill => true
  | .frame => (s.fld Reg.SLF_GRP_STATUS_STATE (capFld c Reg.SLF_MON_SEL_GROUP) == 2 ||
      s.fld Reg.SLF_GRP_STATUS_STATE (capFld c Reg.SLF_MON_SEL_GROUP) == 3)

/-- The captured values of one group. -/
def ofGroup (b : Blk) (g : Nat) (c : AMap Nat Word) : AMap Nat Word := c.filter fun p => (groupOffs b g).contains p.1

/-- Checking ends (R86, R91 to R93). -/
def State.checkEnd (s : State) (v : View) (b : Blk) (busy : Bool) : State :=
  let p := s.port v b
  match p.result, p.captured with
  | .checking, some (mask, c) =>
    let seq := (p.seq + 1) % 65536
    match s.commitFail v b mask c with
    | some f =>
      (s.setPort v b { p with
        result := .refused, seq := seq, errGroup := f.group, errCode := f.code, errOff := f.off, errLsb := f.lsb
        captured := none }).raise Ev.COMMIT_REFUSED 0 (blkCode b + f.group * 2 ^ 8 + f.code * 2 ^ 16 + seq * 2 ^ 32)
    | none =>
      let gs := maskGroups mask
      let waits := gs.filter fun g => s.groupWaits b g c busy
      let s1 := s.setPort v b { p with
        result := .accepted, seq := seq, errGroup := 0, errCode := 0, errOff := 0, errLsb := 0, captured := none
        pend := p.pend ++ waits.map fun g => (g, ofGroup b g c) }
      (gs.filter fun g => !(waits.contains g)).foldl (fun (s : State) g => s.goLive v b g (ofGroup b g c)) s1
  | _, _ => s

/-- A pending group reaches its boundary. -/
def State.boundary (s : State) (v : View) (b : Blk) (g : Nat) : State :=
  let p := s.port v b
  match p.pend.find g with
  | some c => (s.setPort v b { p with pend := p.pend.del g }).goLive v b g c
  | none => s

/-- Groups that wait for the next refill: requester, block and group. -/
def State.refillPending (s : State) : List (View × Blk × Nat) :=
  s.regs.ports.flatMap fun p => (p.2.pend.filter fun g => groupBoundary p.1.2 g.1 == .refill).map fun g => (p.1.1, p.1.2, g.1)

/-- A refill (R225, R229): pending groups whose boundary it is go live first. -/
def State.refillTick (s : State) : State :=
  (s.refillPending.foldl (fun (s : State) x => s.boundary x.1 x.2.1 x.2.2) s).refill

/-- COMMIT_BOUNDARY: the boundary of a pending group comes; for a group whose boundary is the refill, the refill. -/
def State.boundaryCome (s : State) (v : View) (b : Blk) (g : Nat) : State :=
  if !(s.port v b).pend.has g then s
  else if groupBoundary b g == .refill then (s.boundary v b g).refillTick
  else s.boundary v b g

/-! ### Accesses -/

/-- The requester reaches the commit registers of a block. -/
def State.portReached (s : State) (v : View) (b : Blk) (off : Nat) : Bool :=
  (match v with
    | .vf _ => b == .hif
    | _ => true) && s.reaches v b off && holdsReg v b off

/-- A write to COMMIT_CTRL: READ_SEL, then GO, then ABANDON. -/
def State.ctrlWrite (s : State) (v : View) (b : Blk) (w : Word) : State :=
  if !s.portReached v b 0xFF010 then s
  else
    let s1 := s.onPort v b fun p => { p with readSel := bitAt w.toNat 8 }
    let s2 := if bitAt w.toNat 0 then s1.commitGo v b else s1
    if bitAt w.toNat 1 then s2.commitAbandon v b else s2

/-- A write to a doorbell page at an offset that has no command of its own: the W1C bits of RING_STATUS or NQ_STATUS. -/
def State.pageWrite (s : State) (v : View) (page off : Nat) (w : Word) : State :=
  match s.pageRing v page with
  | none => s
  | some n =>
    let r := s.ring n
    if off ≠ 8 then s
    else if r.kind = kindNQ then s.setRing n { r with nqUnderrun := r.nqUnderrun && !bitAt w.toNat 12 }
    else s.setRing n { r with
      dbRange := r.dbRange && !bitAt w.toNat 19
      dbDisabled := r.dbDisabled && !bitAt w.toNat 20
      cqFull := r.cqFull && !bitAt w.toNat 21 }

/-- The function whose MSI-X table a requester reaches: BAR4 of the PF or BAR2 of an enabled virtual function, once the
host link is up. -/
def State.msixFn (s : State) (v : View) : Option Nat :=
  if s.coreOff ∨ s.stage < 2 then none
  else match v with
    | .host => some 0
    | .mgmt => none
    | .vf n => if n ∈ s.hif.vfs then some n else none

/-- A write to a set-up register, page register or MSI-X table with no command of its own, or to VIEW_SEL of a virtual
function. -/
def State.plainWrite (s : State) (v : View) (t : RegTarget) (w : Word) : State :=
  match v, t with
  | .vf n, .setup 0xE000 =>
    if s.reaches v .hif 0 then { s with view := { s.view with sel := s.view.sel.put n w } } else s
  | _, .setup off => s.regWrite v off w
  | _, .page page off => s.pageWrite v page off w
  | _, .msix off => match s.msixFn v with
    | some fn => s.msixWrite fn off w
    | none => s

/-- An access of the wrong width or alignment, or a write with partial byte enables: a read returns 0 and a write is
ignored (R81). Page registers have no error bits (R100). -/
def State.wrongAccess (s : State) (v : View) (t : RegTarget) (bytes : Nat) (enabled write : Bool) : State :=
  match t with
  | .setup off =>
    let s1 := s.badAccess v off bytes enabled write
    if write || goodAccess off bytes enabled write then s1 else s1.emit (.reply v 0)
  | .page _ off | .msix off => if write || goodAccess off bytes enabled write then s else s.emit (.reply v 0)

/-! ### The rows -/

/-- REG_WRITE (R83). -/
def execRegWrite (v : View) (t : RegTarget) (w : Word) (s : State) : Host.Outcome State Fault Refusal :=
  .next (s.plainWrite v t w)

/-- REG_ACCESS_BAD (R81): a read, or a write, whose byte enables are all set or not. -/
def execRegAccessBad (v : View) (t : RegTarget) (size : AccessSize) (write : Bool) (s : State) :
    Host.Outcome State Fault Refusal :=
  .next (s.wrongAccess v t size.bytes size.enabled write)

/-- ACCESS_ERR_WRITE (R7). -/
def execAccessErrWrite (v : View) (b : Blk) (w : Word) (s : State) : Host.Outcome State Fault Refusal :=
  .next (if s.portReached v b 0xFF024 then s.onPort v b fun p => p.clearErrors w.toNat else s)

/-- COMMIT_GO (R86, R89, R91). -/
def execCommitGo (v : View) (b : Blk) (w : Word) (s : State) : Host.Outcome State Fault Refusal := .next (s.ctrlWrite v b w)

/-- COMMIT_CHECK_END (R92). -/
def execCommitCheckEnd (v : View) (b : Blk) (busy : Bool) (s : State) : Host.Outcome State Fault Refusal :=
  .next (s.pooled fun s => s.checkEnd v b busy)

/-- COMMIT_BOUNDARY (R90). -/
def execCommitBoundary (v : View) (b : Blk) (g : Nat) (s : State) : Host.Outcome State Fault Refusal :=
  .next (s.pooled fun s => s.boundaryCome v b g)

/-- REFILL_TICK (R225, R229). -/
def execRefillTick (s : State) : Host.Outcome State Fault Refusal := .next (s.inPool fun s => s.refillTick)

/-- COMMIT_ABANDON (R88). -/
def execCommitAbandon (v : View) (b : Blk) (w : Word) (s : State) : Host.Outcome State Fault Refusal := .next (s.ctrlWrite v b w)

end Sys2Proof.Machine
end

