-- ==== Sys2Proof/Machine/Startup.lean ====
section
/-!
DEFINITION. Power-up, the path from PORST_N to READY, recovery, and the loss of all state (R38 to R43, R62 to R74).
-/

namespace Sys2Proof.Machine

/-! ### Failure codes and stages (R64, R65) -/

def fcFUSE_FAULT : Nat := 0x01
def fcIMAGE_BAD : Nat := 0x02
def fcIMAGE_ROLLBACK : Nat := 0x03
def fcFLASH_INCOMPLETE : Nat := 0x04
def fcRECOVERY_WAIT : Nat := 0x05
def fcRAIL_SEQUENCE : Nat := 0x06
def fcHBM_TRAIN : Nat := 0x07
def fcCOX_LOAD : Nat := 0x08

/-- A stage is complete; from stage MGMT on a READINESS event records it. -/
def State.setStage (s : State) (n : Nat) : State :=
  let s1 := s.setFld Reg.MGT_READINESS_STAGE 0 n
  if n < 4 then s1 else s1.raise Ev.READINESS 0 n

/-- FAIL_CODE becomes non-zero; from stage MGMT on a READINESS_FAIL event records it. -/
def State.failStart (s : State) (code : Nat) : State :=
  let s1 := s.setFld Reg.MGT_READINESS_FAIL_CODE 0 code
  if s.stage < 4 then s1 else s1.raise Ev.READINESS_FAIL 0 (s.stage + code * 2 ^ 8)

/-- Start-up stops until the next power cycle. -/
def State.stopStart (s : State) (code : Nat) : State := (s.failStart code).onBoot fun b => { b with stopped := true }

/-! ### Recovery (R72 to R74) -/

def State.strapRecov (s : State) : Nat := s.fld Reg.MGT_STRAP_STATUS_RECOV

/-- The ROM solicits an image on the management port, while the port has its supply (R46). -/
def State.solicit (s : State) : State :=
  let s1 := s.onBoot fun b => { b with recov := .mge, tftpPeer := none }
  if s.railOk 6 then s1.emit (.mgeSolicit (s.reg ⟨.mgt, 0, 0⟩).toNat Config.serial s.svnFloor) else s1

/-- Recovery begins, or goes on after a refusal: PCIe first, unless the strap forces management Ethernet. -/
def State.recover (s : State) : State :=
  let s1 := s.failStart fcRECOVERY_WAIT
  if s.strapRecov = 2 then s1.solicit else s1.onBoot fun b => { b with recov := .pcie }

/-- RECOV_REFUSED: source 1 PCIe, 2 management Ethernet; cause 1 length, 2 image (with its code), 3 read. -/
def State.recovRefused (s : State) (source cause code : Nat) : State :=
  s.raise Ev.RECOV_REFUSED 0 (source + cause * 2 ^ 4 + code * 2 ^ 8)

/-- An accepted image is the running image, held in the bow die's working store (R69); stage IMAGE is complete. -/
def State.imageAccepted (s : State) (i : ImageInfo) (img : Bytes) (source : Nat) : State :=
  ((((s.onBoot fun b => { b with
    running := i, bootImage := i, workImage := img.take i.len, recov := .none, tftpPeer := none }).setFld
      Reg.MGT_READINESS_IMAGE_SOURCE 0 source).setFld Reg.MGT_READINESS_FAIL_CODE 0 0)).setStage 3

/-- A recovery image is verified: it runs, or is discarded and the wait goes on. -/
def State.recovImage (s : State) (source : Nat) (img : Bytes) : State :=
  let refused := fun (code : Nat) =>
    let s1 := s.recovRefused source 2 code
    if source = 2 then s1.solicit else s1
  match s.verifyImage img with
  | .accept i => s.imageAccepted i img source
  | .bad => refused fcIMAGE_BAD
  | .rollback => refused fcIMAGE_ROLLBACK

/-- A write of `RECOV_CTRL` with GO. -/
def State.recovGo (s : State) (img : Option Bytes) : State :=
  let len := s.fld Reg.MGT_RECOV_CTRL_LEN_KIB
  if s.fld Reg.MGT_READINESS_FAIL_CODE ≠ fcRECOVERY_WAIT ∨ s.boot.recov ≠ .pcie then s
  else if len < 12 ∨ 49152 < len then s.recovRefused 1 1 0
  else match img with
    | none => s.recovRefused 1 3 0
    | some b => s.recovImage 1 (b.take (len * 1024))

/-- 60 s of waiting end: the other source has its turn, unless the strap forces one or a transfer is under way. -/
def State.recovSwitch (s : State) : State :=
  if s.strapRecov = 1 ∨ s.strapRecov = 2 ∨ s.boot.tftpPeer.isSome = true then s
  else match s.boot.recov with
    | .none => s
    | .pcie => s.solicit
    | .mge => s.onBoot fun b => { b with recov := .pcie }

/-! ### Stages (R62, R65 to R68, R70, R71) -/

/-- Stage FUSES: the check code, the identity, BOOT_NONCE (R434), and the factory test request of the strap (R516). -/
def State.stageFuses (s : State) (ok : Bool) (token : Bytes) : State :=
  if !ok then
    let s1 := (s.setReg ⟨.mgt, 0x8, 0⟩ 0).setReg ⟨.mgt, 0xC, 0⟩ 0
    (s1.onBoot fun b => { b with identity := false }).stopStart fcFUSE_FAULT
  else
    let (nonce, s0) := s.freshBytes 32
    let s1 := (s0.onBoot fun b => { b with bootNonce := nonce }).setStage 1
    if !s.flag Reg.MGT_STRAP_STATUS_TEST_REQ then s1
    else
      let good := decide (token.length = 4755) &&
        Config.mldsaVerify Config.romVendorPk (sliceB token 0 128) (sliceB token 128 4627) && getLE token 0 4 == 0x4B4F5454 &&
        getLE token 4 2 == 1 && getLE token 6 1 == 2 && getLE token 7 1 == 2 && getLE token 8 8 == Config.serial &&
        allZero (sliceB token 0x10 32) && allZero (sliceB token 0x40 64)
      if !good then s1.raise Ev.TEST_STRAP_REFUSED 0 0
      else
        let s2 := (s1.setFlag Reg.MGT_STRAP_STATUS_TEST_GRANTED 0 true).setFld Reg.MGT_TEST_STATUS_SCOPE 0 2
        let s3 := (s2.setFlag Reg.MGT_TEST_STATUS_EVER 0 true).raise Ev.TEST_ACCESS 0 (2 + 4)
        ({ s3 with mgmt := { s3.mgmt with testBit := true } }).emit (.flashWrite 0x3410000 (List.replicate 4755 0xFF))

/-- Stage HOST_LINK: recovery follows at once when the strap forces it or the journal is open. FLASH_INCOMPLETE is the
code until the wait it leads to begins, in the same step (R65, R72, notes/assumptions/102.md). -/
def State.stageHostLink (s : State) : State :=
  let s1 := s.setStage 2
  if s.boot.journalOpen then (s1.failStart fcFLASH_INCOMPLETE).recover
  else if s.strapRecov = 1 ∨ s.strapRecov = 2 then s1.recover else s1

/-- The flash image has been read and verified. -/
def State.stageImage (s : State) (img : Bytes) : State :=
  match s.verifyImage img with
  | .accept i => s.imageAccepted i img 0
  | .bad => (s.failStart fcIMAGE_BAD).recover
  | .rollback => (s.failStart fcIMAGE_ROLLBACK).recover

/-- Stage MGMT: management firmware runs on MGC0, the secrets are locked, the token nonce is drawn, and the persisted records
are copied into the on-die ring (R513). -/
def State.stageMgmt (s : State) : State :=
  let gen := s.boot.running.gen
  let s1 := (s.setFld Reg.MGT_MGC_STATUS_ROLE0 0 1).setFld Reg.MGT_MGC_STATUS_ROLE1 0 2
  let s2 := (s1.setFld Reg.MGT_MGC_STATUS_FW_GEN 0 gen).setFld Reg.MGT_READINESS_FW_GEN 0 gen
  let s3 := ((s2.onBoot fun b => { b with secretsLocked := true }).drawNonce.flashToRing).setStage 4
  if s.boot.railSequenceBad then s3.stopStart fcRAIL_SEQUENCE else s3

def State.degraded (s : State) : State := s.setFlag Reg.MGT_READINESS_DEGRADED 0 true

/-- Stage HBM (R67): the image moves to the trusted region, and the working store is cleared (R70). -/
def State.stageHbm (s : State) (failed : List Nat) : State :=
  let bad := (List.range 1024).filter failed.contains
  let perStack := (List.range 16).any fun k => decide (8 < (bad.filter fun u => u / 64 == k).length)
  if perStack = true ∨ 32 < bad.length then s.stopStart fcHBM_TRAIN
  else
    let s1 := (s.hbmStage bad).onBoot fun b => { b with trustedGood := true, trustedImage := b.workImage, workImage := [] }
    (if bad.isEmpty then s1 else s1.degraded).setStage 5

/-- Stage DDR (R68). -/
def State.stageDdr (s : State) (gib failed : List Nat) : State :=
  let bad := (List.range 16).filter fun c => failed.contains c && decide (0 < gib.getD c 0)
  let s1 := s.ddrStage gib bad
  (if bad.isEmpty then s1 else s1.degraded).setStage 6

/-- Stage CORE (R65, R68): roles and queue sets of the coxes. -/
def State.stageCore (s : State) (failed : List Nat) : State :=
  let good := (List.range 9).filter fun n => !failed.contains n
  let gen := s.boot.running.gen
  let s0 := { s with cox := { s.cox with firmware := good.map fun n => (n, s.boot.running.coxDigest) } }
  let s1 := (List.range 9).foldl (fun (s : State) n =>
    if failed.contains n then (s.setCox n roleFAILED 0xF).setFlag (Reg.DBQ_COX_STATUS_RELOAD_FAIL.nth n) 0 true
    else (s.setCox n roleSTANDBY 0xF).setFld (Reg.DBQ_COX_STATUS_FW_GEN.nth n) 0 gen) s0
  if good.length < 8 then s1.stopStart fcCOX_LOAD
  else
    let s2 := (good.take 8).zipIdx.foldl (fun s p => s.setCox p.1 roleACTIVE p.2) s1
    (if good.length = 8 then s2.degraded else s2).setStage 7

/-- READY (R62 to R64, R74): enabled port groups, lanes and line groups start, and a recovered image is written to flash. -/
def State.stageReady (s : State) : State :=
  let s1 := s.setStage 9
  let s2 := (s1.postReady ((if s.flag Reg.MGT_READINESS_DEGRADED then 1 else 0) + s.boot.running.gen * 2 ^ 8)).bringUp
  if s.fld Reg.MGT_READINESS_IMAGE_SOURCE = 0 ∨ s.boot.flashKeep = true then s2 else s2.startFlash

/-- A stage of start-up ends. -/
def State.stageDone (s : State) (r : StageResult) : State :=
  if s.boot.porst || s.boot.stopped || s.boot.thermTrip then s
  else match r, s.stage with
    | .fuses ok token, 0 => s.stageFuses ok token
    | .hostLink, 1 => s.stageHostLink
    | .image img, 2 => if s.boot.recov = .none then s.stageImage img else s
    | .mgmt, 3 => s.stageMgmt
    | .hbm failed, 4 => s.stageHbm failed
    | .ddr gib failed, 5 => s.stageDdr gib failed
    | .core failed, 6 => s.stageCore failed
    | .lanes, 7 => s.setStage 8
    | .ready, 8 => s.stageReady
    | _, _ => s

/-! ### Power-up and loss of state (R38 to R43) -/

/-- A rail becomes good while PORST_N is asserted; the monitors note an HBM rail that is early (R39, R40). While VDD_AON is
not good every other rail is treated as off (R41). -/
def State.railUp (s : State) (r : Nat) : State :=
  if s.boot.porst = false ∨ 8 ≤ r ∨ s.boot.railOrder.contains r = true ∨ (r ≠ 0 ∧ s.boot.railOrder.contains 0 = false) then s
  else
    let early := (r == 2 || r == 3 || r == 4) && !(s.boot.railOrder.contains (r - 1))
    s.onBoot fun b => { b with railOrder := b.railOrder ++ [r], railSequenceBad := b.railSequenceBad || early }

/-- THERMTRIP_N reads asserted: the trip is latched (R43), or VDD_AON is absent and the board's pull-up shows it (R41). -/
def State.thermtripN (s : State) : Bool := s.boot.thermTrip || !(s.boot.railOrder.contains 0)

/-- `MGT.STRAP_STATUS` as a die answers it (R38): DIE_STERN is 1 in the stern die's local view only, which test access
reads. -/
def State.strapStatus (s : State) (stern : Bool) : Nat :=
  putBits (s.reg ⟨.mgt, 0x10, 0⟩).toNat 8 1 (bit stern)

/-- PORST_N deasserts: the straps are sampled and start-up begins (R38, R62). -/
def State.powerOn (s : State) (x : Straps) : State :=
  if s.boot.porst = false ∨ s.boot.thermTrip = true ∨ s.boot.railOrder.contains 0 = false then s
  else
    let s1 := (s.setFlag Reg.MGT_STRAP_STATUS_PCIE_X8 0 x.pcieX8).setFld Reg.MGT_STRAP_STATUS_RECOV 0 (x.recov % 4)
    let s2 := (s1.setFld Reg.MGT_STRAP_STATUS_I3C_ADDR 0 (x.i3cAddr % 8)).setFlag Reg.MGT_STRAP_STATUS_TEST_REQ 0 x.test
    s2.onBoot fun b => { b with porst := false }

/-! ### The rows -/

def execPowerOnReset (straps : Straps) (s : State) : Host.Outcome State Fault Refusal := .next (s.powerOn straps)

/-- PORST_N is asserted (R42). -/
def execPorstAssert (s : State) : Host.Outcome State Fault Refusal :=
  .next (s.coldReset s.boot.railOrder s.boot.railSequenceBad s.boot.thermTrip)

def execStartupStageDone (r : StageResult) (s : State) : Host.Outcome State Fault Refusal :=
  .next (s.pooled fun s => s.stageDone r)

def execRecovWaitSwitch (s : State) : Host.Outcome State Fault Refusal := .next s.recovSwitch

def execRecovGo (v : View) (w : Word) (img : Option Bytes) (s : State) : Host.Outcome State Fault Refusal :=
  .next (s.trigger v .mgt 0x38 w fun s => if bitAt w.toNat 31 then s.recovGo img else s)

/-- A peer answers the solicitation: the first one serves the image. -/
def execRecovOffer (peer : Nat) (s : State) : Host.Outcome State Fault Refusal :=
  .next (if s.boot.recov = .mge ∧ s.boot.tftpPeer = none ∧ s.railOk 6 = true
    then (s.onBoot fun b => { b with tftpPeer := some peer }).emit (.tftpRequest peer 8192) else s)

/-- A transfer has stalled for 5 s: it is abandoned with RECOV_REFUSED, and the ROM solicits again. -/
def execTftpStall (s : State) : Host.Outcome State Fault Refusal :=
  .next (if s.boot.recov = .mge ∧ s.boot.tftpPeer.isSome = true then (s.recovRefused 2 3 0).solicit else s)

/-- The image has arrived by TFTP. -/
def execRecovImageDone (img : Bytes) (s : State) : Host.Outcome State Fault Refusal :=
  .next (if s.boot.recov = .mge ∧ s.boot.tftpPeer.isSome = true ∧ s.railOk 6 = true then s.recovImage 2 img else s)

/-- VDD_AON leaves its range: every rail counts as off, and nothing but the fuses and the flash is kept (R41). -/
def execAonLoss (s : State) : Host.Outcome State Fault Refusal := .next (s.coldReset [] false false)

def execRailGoodAtPowerUp (rail : Nat) (s : State) : Host.Outcome State Fault Refusal := .next (s.railUp rail)

end Sys2Proof.Machine
end

