-- ==== Sys2Proof/Machine/Attest.lean ====
section
/-!
DEFINITION. The attestation report (R454 to R458) and the refresh of the tenants' view (R459), and test access (R516).
-/

namespace Sys2Proof.Machine

/-! ### Keys (R435, R454) -/

/-- The seeds of the DeviceID and alias key pairs, and their public keys. -/
def deviceIdSeed : Bytes := kdf Config.deviceSecret "NT5120 DEVICEID" [] 32
def aliasSeed (boot : ImageInfo) : Bytes := kdf (kdf Config.deviceSecret "NT5120 CDI" boot.prefixDigest 64) "NT5120 ALIAS" [] 32
def deviceIdPk : Bytes := Config.mldsaPk deviceIdSeed
def aliasPk (boot : ImageInfo) : Bytes := Config.mldsaPk (aliasSeed boot)

/-- ALIAS_CERT_SIG over SERIAL, ALIAS_PK, the prefix digest, FW_GEN and SVN of the boot image. -/
def aliasCert (boot : ImageInfo) : Bytes :=
  Config.mldsaSign deviceIdSeed
    (bytesLE 8 Config.serial ++ aliasPk boot ++ boot.prefixDigest ++ bytesLE 1 boot.gen ++ bytesLE 1 boot.svn)

/-! ### Entries (R457) -/

/-- One entry. -/
def attEntry (kind index : Nat) (value : Bytes) : Bytes :=
  bytesLE 2 kind ++ bytesLE 2 index ++ bytesLE 4 value.length ++ value ++ zeros ((8 - value.length % 8) % 8)

/-- What an image entry says of an image. -/
def imageEntry (i : ImageInfo) : Bytes := i.prefixDigest ++ bytesLE 1 i.gen ++ bytesLE 1 i.svn

/-- A mask of the numbers below `n` that meet a condition. -/
def maskOf (n : Nat) (p : Nat → Bool) : Nat := sumOf (((List.range n).filter p).map fun i => 2 ^ i)

/-- The lower of two in the order of INDEX. -/
def byIndex (l : List (Nat × Bytes)) : List (Nat × Bytes) := sortBy (fun a b => decide (a.1 ≤ b.1)) l

/-- The entries of a report for a function, in order. -/
def State.attEntries (s : State) (fn : Nat) : List Bytes :=
  let mine := fun (f : Nat) => fn == 0 || f == fn
  let inPart := fun (d : Nat) => fn == 0 ||
    (decide (s.fld Reg.HIF_VF_DOMAINS_DOMAIN_BASE fn ≤ d) &&
      decide (d < s.fld Reg.HIF_VF_DOMAINS_DOMAIN_BASE fn + s.fld Reg.HIF_VF_DOMAINS_DOMAIN_COUNT fn))
  let log := fun f => s.rig.logs.getD f (zeros 64, 0)
  [attEntry 1 0 Config.romDigest, attEntry 2 0 (imageEntry s.boot.bootImage), attEntry 3 s.boot.updates (imageEntry s.boot.running)] ++
  (List.range 9).map (fun n => attEntry 4 n (s.cox.firmware.getD n (zeros 64) ++ bytesLE 1 (s.coxRole n))) ++
  ((List.range 64).filter fun n => (s.tctx n).st != csxEMPTY && mine (s.tctx n).fn).map
    (fun n => attEntry 5 n (tDigest (s.tctx n).cont ++ bytesLE 2 (s.tctx n).fn)) ++
  ((List.range 4).filter fun n => (s.plan n).st != 0).map
    (fun n => attEntry 6 n (sliceB (s.plan n).bin 0x40 64 ++ bytesLE 8 (pSetId (s.plan n).bin) ++ bytesLE 1 (s.plan n).st)) ++
  ((List.range 65).filter mine).map (fun f => attEntry 7 f ((log f).1 ++ bytesLE 8 (log f).2)) ++
  (byIndex ((s.ash.slots.filter fun p => p.2.st != 0).map fun p =>
    (p.1.1 * 256 + p.1.2, Config.sha3 (p.2.levels.flatMap fun v => bytesLE 2 v) ++ bytesLE 1 p.2.size ++ bytesLE 1 p.2.st))).map
    (fun e => attEntry 8 e.1 e.2) ++
  ((List.range 16).filter fun k => decide (0 < (s.shard k).rc) && inPart (hDomain ((s.shardRec k).getD []))).map
    (fun k => attEntry 9 k (bytesLE 4 (hId ((s.shardRec k).getD [])) ++ bytesLE 4 (s.shard k).rc ++ sliceB (s.shard k).shardDigest 0 64)) ++
  [attEntry 10 0 (bytesLE 72 (maskOf 576 s.encrypts) ++ bytesLE 2 (maskOf 16 fun g => s.encrypts (lineLink g)) ++
     bytesLE 1 s.hif.ide.length ++ bytesLE 1 (bit s.mgmt.testBit) ++ bytesLE 1 (s.fld Reg.MGT_STRAP_STATUS_TEST_GRANTED)),
   attEntry 11 0 (bytesLE 4 s.mgmt.arbExceeded ++
     bytesLE 4 (sumOf ((List.range 2).map fun d => s.fld (Reg.SETT_POOL_STATUS_REF_FAULTS.nth d))) ++
     bytesLE 1 (s.fld Reg.PWR_VFLOOR_STATUS_PACE_FAIL)),
   attEntry 12 0 (bytesLE 4 Config.orderId ++ kdf Config.fleetRoot "NT5120 FLEET ID" [] 32)]

/-! ### The report (R455, R456) -/

/-- Bytes of a report with these entries. -/
def reportLen (entries : List Bytes) : Nat := 0x26E0 + entries.flatten.length + 4627

/-- A report for a function over a verifier's nonce: the bytes that are signed, then the signature. -/
def State.report (s : State) (fn : Nat) (nonce : Bytes) : Bytes :=
  let entries := s.attEntries fn
  let i := s.boot.running
  let body :=
    bytesLE 4 0x54414E54 ++ bytesLE 2 1 ++ bytesLE 1 fn ++ zeros 1 ++ bytesLE 4 (reportLen entries) ++
    bytesLE 4 entries.length ++ bytesLE 8 Config.serial ++ bytesLE 4 (s.reg ⟨.mgt, 0, 0⟩).toNat ++
    bytesLE 1 i.gen ++ bytesLE 1 i.svn ++ bytesLE 1 s.svnFloor ++
    bytesLE 1 (s.fld Reg.MGT_STRAP_STATUS_TEST_GRANTED + 2 * bit s.mgmt.testBit) ++
    bytesLE 8 s.time.sec ++ bytesLE 4 s.time.ns ++ zeros 20 ++ sliceB nonce 0 64 ++
    sliceB deviceIdPk 0 2592 ++ sliceB (aliasPk s.boot.bootImage) 0 2592 ++
    sliceB (aliasCert s.boot.bootImage) 0 4627 ++ zeros 13 ++ entries.flatten
  body ++ sliceB (Config.mldsaSign (aliasSeed s.boot.bootImage) body) 0 4627

/-- ATTEST_REPORT: the nonce is what the read of the buffer returned, none where the read was refused. -/
def State.attest (s : State) (o : Op) (nonce : Option Bytes) : State :=
  let need := reportLen (s.attEntries o.fn)
  if mLen o.desc < 64 ∨ mLen o.desc < need then s.finish o.key stBAD_FIELD 0 need
  else match nonce with
    | none => s.finish o.key stHOST_ABORT
    | some b => (s.emit (.hostWrite o.fn (mAddr o.desc) (s.report o.fn b))).finish o.key stOK 0 need

/-- ATTEST_REPORT (R455): while the management-core handover is in progress, a report waits (R458). -/
def execAttestReport (op : OpKey) (nonce : Option Bytes) (s : State) : Host.Outcome State Fault Refusal :=
  .next (if s.upState = upHANDOVER then s else s.start op (isMgmt 0x0008) fun o s => s.attest o nonce)

/-! ### The tenants' view (R459) -/

/-- Every 1 ms of network time the values are taken afresh; the power estimate every 10 ms, rounded down to a multiple of
8 W. -/
def State.viewRefresh (s : State) : State :=
  let ms := s.nowNs / 1000000
  let again := decide (s.view.powerAt + 10 ≤ ms) || decide (ms < s.view.powerAt)
  { s with view := { s.view with
    snap := s.regs.live
    late := s.col.late
    plans := s.plans
    pm := s.line.groups.flatMap fun p =>
      [((p.1, 0), (p.2.legA.pm, p.2.legA.suspect)), ((p.1, 1), (p.2.legB.pm, p.2.legB.suspect))]
    stamp := ms % 2 ^ 31
    power := if again then s.fld Reg.PWR_POWER_STATUS_EST_W / 8 * 8 else s.view.power
    powerAt := if again then ms else s.view.powerAt } }

/-! ### Test access (R516) -/

/-- An authorisation's scope allows an instruction. -/
def jtagAllowed (scope : Nat) : JtagInstr → Bool
  | .idcode => true
  | .bypass => true
  | .boundary _ _ => decide (1 ≤ scope)
  | .debug _ => decide (2 ≤ scope)

/-- The JTAG port's instruction changes. When it starts to drive the outputs every link goes down; when it ceases to, the
links start again (notes/assumptions/202.md). -/
def State.jtagSet (s : State) (i : Option JtagInstr) : State :=
  let s1 := { s with mgmt := { s.mgmt with jtag := i } }
  if s1.pinsScanned && !s.pinsScanned then s1.coreStops
  else if s.pinsScanned && !s1.pinsScanned && !s1.coreOff && decide (9 ≤ s.stage) then s1.bringUp
  else s1

/-- The JTAG port loads an instruction when the authorisation in force allows it; IDCODE shifts out 0xA512_014F. -/
def State.jtagLoad (s : State) (i : JtagInstr) : State :=
  if jtagAllowed (s.fld Reg.MGT_TEST_STATUS_SCOPE) i then
    let s1 := s.jtagSet (some i)
    if i = .idcode then s1.emit (.jtagOut 0xA512014F) else s1
  else s

/-- TEST_ACCESS (R516). -/
def State.testAccess (s : State) (o : Op) (b : Option Bytes) : State :=
  match b with
  | none => s.finish o.key stHOST_ABORT
  | some b =>
    match (if mLen o.desc = 4755 then s.tokenRefusal 2 b else some 5) with
    | some e => s.finish o.key stBAD_FIELD e
    | none =>
      let scope := getLE b 7 1
      let s1 := { s with mgmt := { s.mgmt with testBit := true } }
      let s1 := match s.mgmt.jtag with
        | some j => if jtagAllowed scope j then s1 else s1.jtagSet none
        | none => s1
      let s2 := s1.setFld Reg.MGT_TEST_STATUS_SCOPE 0 scope
      let s3 := if scope = 0 then s2 else s2.setFlag Reg.MGT_TEST_STATUS_EVER 0 true
      (s3.drawNonce.raise Ev.TEST_ACCESS 0 scope).finish o.key stOK

/-- VIEW_REFRESH (R459). -/
def execViewRefresh (s : State) : Host.Outcome State Fault Refusal := .next (s.inAon fun s => s.viewRefresh)

/-- TEST_ACCESS (R516). -/
def execTestAccess (op : OpKey) (token : Option Bytes) (s : State) : Host.Outcome State Fault Refusal :=
  .next (s.mgmtPF op 0x0010 fun o s => s.testAccess o token)

/-- JTAG_INSTRUCTION (R516). -/
def execJtagInstruction (i : JtagInstr) (s : State) : Host.Outcome State Fault Refusal :=
  .next (s.inAon fun s => s.jtagLoad i)

end Sys2Proof.Machine
end

