-- ==== Sys2Proof/Machine/Functions.lean ====
section
/-!
DEFINITION. Virtual functions reset and enabled (R97, R99, R123).
-/

namespace Sys2Proof.Machine

/-- What else of a function stops by a function-level reset (R99): its collectives, at the segment boundary that every
contribution leaves (R139), and its outer rounds. -/
def State.functionStop (s : State) (v : Nat) : State :=
  let s1 := ((s.col.ops.map (·.2)).filter fun o => o.fn == v && o.desc.isSome).foldl (fun s o =>
    match s.collOp o.group o.seq with
    | some p => s.collEnd p stABORTED
    | none => s) s
  ((s1.outer.shards.filter fun p => p.2.fn == v && p.2.openOp.isSome).map (·.1)).foldl
    (fun s k => s.roundFail k stABORTED 0) s1

/-- A function-level reset of VF `v` (R99). -/
def State.functionReset (s : State) (v : Nat) : State :=
  if v = 0 ∨ ¬ v ∈ s.hif.vfs then s else (s.vfFlr v).functionStop v

/-- SR-IOV: virtual functions 1 to `n` are enabled and the others disabled; a VF that is disabled loses its rings as by
a function-level reset (R123). -/
def State.vfEnable (s : State) (n : Nat) : State :=
  let vfs := (List.range (min n 64)).map (· + 1)
  let s1 := (s.hif.vfs.filter fun v => !(vfs.contains v)).foldl (fun s v => s.functionReset v) s
  { s1 with hif := { s1.hif with vfs := vfs } }

/-! ### Meanings -/

/-- VF_FLR (R99). -/
def execVfFlr (vf : Nat) (s : State) : Host.Outcome State Fault Refusal := .next (s.inPool fun s => s.functionReset vf)

/-- VF_ENABLE (R123). -/
def execVfEnable (count : Nat) (s : State) : Host.Outcome State Fault Refusal :=
  .next (s.inPool fun s => s.vfEnable count)

end Sys2Proof.Machine
end

