-- ==== Sys2Proof/Machine/Dispatch.lean ====
section
/-!
DEFINITION. One arm per command: the command's meaning, on everything but the queue.
-/

namespace Sys2Proof.Machine

/-- What a command does. -/
def exec (i : Instr) (s : State) : Host.Outcome State Fault Refusal :=
  match i with
  | .powerOnReset straps => Sys2Proof.Machine.execPowerOnReset straps s
  | .porstAssert => Sys2Proof.Machine.execPorstAssert s
  | .startupStageDone r => Sys2Proof.Machine.execStartupStageDone r s
  | .recovWaitSwitch => Sys2Proof.Machine.execRecovWaitSwitch s
  | .recovGo v w img => Sys2Proof.Machine.execRecovGo v w img s
  | .recovOffer peer => Sys2Proof.Machine.execRecovOffer peer s
  | .tftpStall => Sys2Proof.Machine.execTftpStall s
  | .recovImageDone img => Sys2Proof.Machine.execRecovImageDone img s
  | .feedLineLow g line => Sys2Proof.Machine.execFeedLineLow g line s
  | .feedLineRestore g line => Sys2Proof.Machine.execFeedLineRestore g line s
  | .feedLost g lines => Sys2Proof.Machine.execFeedLost g lines s
  | .feedRestored g => Sys2Proof.Machine.execFeedRestored g s
  | .aonLoss => Sys2Proof.Machine.execAonLoss s
  | .railFault rail mv us => Sys2Proof.Machine.execRailFault rail mv us s
  | .railGood rail => Sys2Proof.Machine.execRailGood rail s
  | .sensorSample readings => Sys2Proof.Machine.execSensorSample readings s
  | .oeTripRelease g => Sys2Proof.Machine.execOeTripRelease g s
  | .bandFall => Sys2Proof.Machine.execBandFall s
  | .paceWindow kind index mtps => Sys2Proof.Machine.execPaceWindow kind index mtps s
  | .floorRaise => Sys2Proof.Machine.execFloorRaise s
  | .arbGrant res inst reqs blocked delayed => Sys2Proof.Machine.execArbGrant res inst reqs blocked delayed s
  | .paceClrMin v w => Sys2Proof.Machine.execPaceClrMin v w s
  | .arbClr v w => Sys2Proof.Machine.execArbClr v w s
  | .regWrite v t w => Sys2Proof.Machine.execRegWrite v t w s
  | .regAccessBad v t size write => Sys2Proof.Machine.execRegAccessBad v t size write s
  | .accessErrWrite v b w => Sys2Proof.Machine.execAccessErrWrite v b w s
  | .commitGo v b w => Sys2Proof.Machine.execCommitGo v b w s
  | .commitCheckEnd v b busy => Sys2Proof.Machine.execCommitCheckEnd v b busy s
  | .commitBoundary v b g => Sys2Proof.Machine.execCommitBoundary v b g s
  | .commitAbandon v b w => Sys2Proof.Machine.execCommitAbandon v b w s
  | .doorbell v page w => Sys2Proof.Machine.execDoorbell v page w s
  | .intakePop qs ecc reads => Sys2Proof.Machine.execIntakePop qs ecc reads s
  | .completionWrite ring ok desc => Sys2Proof.Machine.execCompletionWrite ring ok desc s
  | .functionD3hot fn => Sys2Proof.Machine.execFunctionD3hot fn s
  | .functionD0 fn => Sys2Proof.Machine.execFunctionD0 fn s
  | .vfFlr vf => Sys2Proof.Machine.execVfFlr vf s
  | .nqPop v page ecc => Sys2Proof.Machine.execNqPop v page ecc s
  | .nqClrCounts v page w => Sys2Proof.Machine.execNqClrCounts v page w s
  | .evrMirror => Sys2Proof.Machine.execEvrMirror s
  | .rigSubmit op bundle blobs => Sys2Proof.Machine.execRigSubmit op bundle blobs s
  | .rigStage op => Sys2Proof.Machine.execRigStage op s
  | .catchFire op => Sys2Proof.Machine.execCatchFire op s
  | .coxSelfCheck => Sys2Proof.Machine.execCoxSelfCheck s
  | .coxHang cox cause => Sys2Proof.Machine.execCoxHang cox cause s
  | .coxReloadDone cox ok => Sys2Proof.Machine.execCoxReloadDone cox ok s
  | .coxReloadTimeout cox => Sys2Proof.Machine.execCoxReloadTimeout cox s
  | .coxReload op => Sys2Proof.Machine.execCoxReload op s
  | .updateStage op => Sys2Proof.Machine.execUpdateStage op s
  | .updateStagingDone img => Sys2Proof.Machine.execUpdateStagingDone img s
  | .mgmtHandoverDone ok => Sys2Proof.Machine.execMgmtHandoverDone ok s
  | .flashBlockDone r => Sys2Proof.Machine.execFlashBlockDone r s
  | .updateAbort op => Sys2Proof.Machine.execUpdateAbort op s
  | .flashKeep op => Sys2Proof.Machine.execFlashKeep op s
  | .flashResync op => Sys2Proof.Machine.execFlashResync op s
  | .svnCommit op req => Sys2Proof.Machine.execSvnCommit op req s
  | .ddrDomain op => Sys2Proof.Machine.execDdrDomain op s
  | .ddrTrainDone chan gib ok => Sys2Proof.Machine.execDdrTrainDone chan gib ok s
  | .ddrExtent op => Sys2Proof.Machine.execDdrExtent op s
  | .memRetire op => Sys2Proof.Machine.execMemRetire op s
  | .retireBlockCopy u read => Sys2Proof.Machine.execRetireBlockCopy u read s
  | .attestReport op nonce => Sys2Proof.Machine.execAttestReport op nonce s
  | .evrClear op token => Sys2Proof.Machine.execEvrClear op token s
  | .mmuInvalidate op => Sys2Proof.Machine.execMmuInvalidate op s
  | .codeTable op levels => Sys2Proof.Machine.execCodeTable op levels s
  | .timeConfirm op => Sys2Proof.Machine.execTimeConfirm op s
  | .unitPower op => Sys2Proof.Machine.execUnitPower op s
  | .fltProbation op => Sys2Proof.Machine.execFltProbation op s
  | .testAccess op token => Sys2Proof.Machine.execTestAccess op token s
  | .xferCopy op => Sys2Proof.Machine.execXferCopy op s
  | .xferExpand op => Sys2Proof.Machine.execXferExpand op s
  | .lineSend op => Sys2Proof.Machine.execLineSend op s
  | .linePost op => Sys2Proof.Machine.execLinePost op s
  | .xferCheck op state => Sys2Proof.Machine.execXferCheck op state s
  | .segmentCommit op src dst read => Sys2Proof.Machine.execSegmentCommit op src dst read s
  | .devFaultTimeout h => Sys2Proof.Machine.execDevFaultTimeout h s
  | .priResponse h success => Sys2Proof.Machine.execPriResponse h success s
  | .priTimeout h => Sys2Proof.Machine.execPriTimeout h s
  | .atsInvalidate fn addr len => Sys2Proof.Machine.execAtsInvalidate fn addr len s
  | .scrubRead a r => Sys2Proof.Machine.execScrubRead a r s
  | .markerReceive g c m => Sys2Proof.Machine.execMarkerReceive g c m s
  | .pgIdClear g => Sys2Proof.Machine.execPgIdClear g s
  | .aliasRestore g rx c => Sys2Proof.Machine.execAliasRestore g rx c s
  | .lccRemapReq g asks seq arg => Sys2Proof.Machine.execLccRemapReq g asks seq arg s
  | .lccRemapAck g seq arg => Sys2Proof.Machine.execLccRemapAck g seq arg s
  | .lccTxAlias g seq arg => Sys2Proof.Machine.execLccTxAlias g seq arg s
  | .lccCalDone g seq arg => Sys2Proof.Machine.execLccCalDone g seq arg s
  | .lccResend g => Sys2Proof.Machine.execLccResend g s
  | .remapSwitch g x => Sys2Proof.Machine.execRemapSwitch g x s
  | .laneFrameReceive g c words lost => Sys2Proof.Machine.execLaneFrameReceive g c words lost s
  | .heaterUpdate g c rx err code => Sys2Proof.Machine.execHeaterUpdate g c rx err code s
  | .ringSweepDone g c rx locked code => Sys2Proof.Machine.execRingSweepDone g c rx locked code s
  | .featherStep g => Sys2Proof.Machine.execFeatherStep g s
  | .featherCalDone g rx c => Sys2Proof.Machine.execFeatherCalDone g rx c s
  | .watchSample g above => Sys2Proof.Machine.execWatchSample g above s
  | .optLaneClr v w => Sys2Proof.Machine.execOptLaneClr v w s
  | .elnLaneClr v w => Sys2Proof.Machine.execElnLaneClr v w s
  | .elnTrainTimeout l => Sys2Proof.Machine.execElnTrainTimeout l s
  | .elnEnergyDetect l found => Sys2Proof.Machine.execElnEnergyDetect l found s
  | .linkUp p => Sys2Proof.Machine.execLinkUp p s
  | .linkDown p => Sys2Proof.Machine.execLinkDown p s
  | .settAlloc req => Sys2Proof.Machine.execSettAlloc req s
  | .settFree n => Sys2Proof.Machine.execSettFree n s
  | .settStatClr v w => Sys2Proof.Machine.execSettStatClr v w s
  | .packetIngress port frame => Sys2Proof.Machine.execPacketIngress port frame s
  | .packetDepart d => Sys2Proof.Machine.execPacketDepart d s
  | .delayEstimateUpdate => Sys2Proof.Machine.execDelayEstimateUpdate s
  | .mcAge queue => Sys2Proof.Machine.execMcAge queue s
  | .bypassBegin op => Sys2Proof.Machine.execBypassBegin op s
  | .bypassEnd op => Sys2Proof.Machine.execBypassEnd op s
  | .bypassReturnTimeout op => Sys2Proof.Machine.execBypassReturnTimeout op s
  | .swcStatClr v w => Sys2Proof.Machine.execSwcStatClr v w s
  | .refillTick => Sys2Proof.Machine.execRefillTick s
  | .histDepthSample => Sys2Proof.Machine.execHistDepthSample s
  | .reservedWindowOpen slot entry => Sys2Proof.Machine.execReservedWindowOpen slot entry s
  | .reservedWindowClose slot entry => Sys2Proof.Machine.execReservedWindowClose slot entry s
  | .tmsHistClr v w => Sys2Proof.Machine.execTmsHistClr v w s
  | .transportDataReceive req p => Sys2Proof.Machine.execTransportDataReceive req p s
  | .transportAckReceive req frame => Sys2Proof.Machine.execTransportAckReceive req frame s
  | .ackDelayExpire ctx => Sys2Proof.Machine.execAckDelayExpire ctx s
  | .transportSend ctx => Sys2Proof.Machine.execTransportSend ctx s
  | .rtoExpire ctx => Sys2Proof.Machine.execRtoExpire ctx s
  | .contextFetchDone ctx read => Sys2Proof.Machine.execContextFetchDone ctx read s
  | .tptStatClr v w => Sys2Proof.Machine.execTptStatClr v w s
  | .llrInitSend port => Sys2Proof.Machine.execLlrInitSend port s
  | .llrInit port => Sys2Proof.Machine.execLlrInit port s
  | .llrFrameReceive port lsn frame => Sys2Proof.Machine.execLlrFrameReceive port lsn frame s
  | .llrAck port lsn qdelay => Sys2Proof.Machine.execLlrAck port lsn qdelay s
  | .llrNak port lsn qdelay => Sys2Proof.Machine.execLlrNak port lsn qdelay s
  | .llrAckTimer port => Sys2Proof.Machine.execLlrAckTimer port s
  | .llrTimeout port => Sys2Proof.Machine.execLlrTimeout port s
  | .spillDone group seq chunk => Sys2Proof.Machine.execSpillDone group seq chunk s
  | .restoreDone group seq chunk read => Sys2Proof.Machine.execRestoreDone group seq chunk read s
  | .collAllreduce op => Sys2Proof.Machine.execCollAllreduce op s
  | .collReduceScatter op => Sys2Proof.Machine.execCollReduceScatter op s
  | .collReduce op => Sys2Proof.Machine.execCollReduce op s
  | .collBroadcast op => Sys2Proof.Machine.execCollBroadcast op s
  | .collShift op => Sys2Proof.Machine.execCollShift op s
  | .collPermute op => Sys2Proof.Machine.execCollPermute op s
  | .collCancel op => Sys2Proof.Machine.execCollCancel op s
  | .collNotYet req frame => Sys2Proof.Machine.execCollNotYet req frame s
  | .notYetBackoff ctx psn => Sys2Proof.Machine.execNotYetBackoff ctx psn s
  | .collResult req frame => Sys2Proof.Machine.execCollResult req frame s
  | .collChunkDone req frame => Sys2Proof.Machine.execCollChunkDone req frame s
  | .collQuery req frame => Sys2Proof.Machine.execCollQuery req frame s
  | .collGone req frame => Sys2Proof.Machine.execCollGone req frame s
  | .queryTimer group seq chunk => Sys2Proof.Machine.execQueryTimer group seq chunk s
  | .colStatClr v w => Sys2Proof.Machine.execColStatClr v w s
  | .colLateClr v w => Sys2Proof.Machine.execColLateClr v w s
  | .benNumClr v w => Sys2Proof.Machine.execBenNumClr v w s
  | .planStart slot => Sys2Proof.Machine.execPlanStart slot s
  | .strokeStart slot => Sys2Proof.Machine.execStrokeStart slot s
  | .planEntryFire slot entry => Sys2Proof.Machine.execPlanEntryFire slot entry s
  | .heatStart slot => Sys2Proof.Machine.execHeatStart slot s
  | .plnSlotClr v w => Sys2Proof.Machine.execPlnSlotClr v w s
  | .tensorGroupCommit ctx ops go => Sys2Proof.Machine.execTensorGroupCommit ctx ops go s
  | .contextSaveDone ctx => Sys2Proof.Machine.execContextSaveDone ctx s
  | .contextRestoreDone ctx read => Sys2Proof.Machine.execContextRestoreDone ctx read s
  | .quantumExpire ctx => Sys2Proof.Machine.execQuantumExpire ctx s
  | .groupOverrun ctx => Sys2Proof.Machine.execGroupOverrun ctx s
  | .tfbStatClr v w => Sys2Proof.Machine.execTfbStatClr v w s
  | .expandBlock x e => Sys2Proof.Machine.execExpandBlock x e s
  | .ashStatClr v w => Sys2Proof.Machine.execAshStatClr v w s
  | .outerOpen op => Sys2Proof.Machine.execOuterOpen op s
  | .outerExclude op => Sys2Proof.Machine.execOuterExclude op s
  | .outerFetch op => Sys2Proof.Machine.execOuterFetch op s
  | .outerAbandon op => Sys2Proof.Machine.execOuterAbandon op s
  | .roundStart shard => Sys2Proof.Machine.execRoundStart shard s
  | .hdrTimer shard => Sys2Proof.Machine.execHdrTimer shard s
  | .outerHdr m => Sys2Proof.Machine.execOuterHdr m s
  | .siteUnreachable shard site => Sys2Proof.Machine.execSiteUnreachable shard site s
  | .lossTimer shard site => Sys2Proof.Machine.execLossTimer shard site s
  | .rosterWaitExpire shard => Sys2Proof.Machine.execRosterWaitExpire shard s
  | .outerPropose m => Sys2Proof.Machine.execOuterPropose m s
  | .outerVote m => Sys2Proof.Machine.execOuterVote m s
  | .outerDigest m => Sys2Proof.Machine.execOuterDigest m s
  | .outerFinal m => Sys2Proof.Machine.execOuterFinal m s
  | .mismatchTimeout shard => Sys2Proof.Machine.execMismatchTimeout shard s
  | .outerFetchMsg m => Sys2Proof.Machine.execOuterFetchMsg m s
  | .fetchTimeout shard piece => Sys2Proof.Machine.execFetchTimeout shard piece s
  | .outerPieceReceive tag data => Sys2Proof.Machine.execOuterPieceReceive tag data s
  | .outerPieceStepDone shard piece => Sys2Proof.Machine.execOuterPieceStepDone shard piece s
  | .outStatClr v w => Sys2Proof.Machine.execOutStatClr v w s
  | .slfTransmit g dcc0 dcc1 a read => Sys2Proof.Machine.execSlfTransmit g dcc0 dcc1 a read s
  | .slfReceive lane frame => Sys2Proof.Machine.execSlfReceive lane frame s
  | .mfSkewExpire g mfn => Sys2Proof.Machine.execMfSkewExpire g mfn s
  | .nackResendTimer g first => Sys2Proof.Machine.execNackResendTimer g first s
  | .lineDeliver g queue a => Sys2Proof.Machine.execLineDeliver g queue a s
  | .laneFault lane => Sys2Proof.Machine.execLaneFault lane s
  | .laneReturnTimer lane => Sys2Proof.Machine.execLaneReturnTimer lane s
  | .legLofTimer g leg => Sys2Proof.Machine.execLegLofTimer g leg s
  | .pmSecond g leg corrected received => Sys2Proof.Machine.execPmSecond g leg corrected received s
  | .suspendHoldExpire g => Sys2Proof.Machine.execSuspendHoldExpire g s
  | .wtrExpire g leg => Sys2Proof.Machine.execWtrExpire g leg s
  | .keyGraceExpire g => Sys2Proof.Machine.execKeyGraceExpire g s
  | .dccFrameOut port => Sys2Proof.Machine.execDccFrameOut port s
  | .slfRdClr v w => Sys2Proof.Machine.execSlfRdClr v w s
  | .kexOffer l m => Sys2Proof.Machine.execKexOffer l m s
  | .kexAccept l m => Sys2Proof.Machine.execKexAccept l m s
  | .kexConfirm l m => Sys2Proof.Machine.execKexConfirm l m s
  | .kexReject l m => Sys2Proof.Machine.execKexReject l m s
  | .kexResend l => Sys2Proof.Machine.execKexResend l s
  | .kexRetry l => Sys2Proof.Machine.execKexRetry l s
  | .rekeyTimer l => Sys2Proof.Machine.execRekeyTimer l s
  | .fabGraceExpire l => Sys2Proof.Machine.execFabGraceExpire l s
  | .lscStatClr v w => Sys2Proof.Machine.execLscStatClr v w s
  | .timeCapture w => Sys2Proof.Machine.execTimeCapture w s
  | .timeStepRequest delta => Sys2Proof.Machine.execTimeStepRequest delta s
  | .ppsInEdge => Sys2Proof.Machine.execPpsInEdge s
  | .ppsOutPulse => Sys2Proof.Machine.execPpsOutPulse s
  | .ppsOutFall => Sys2Proof.Machine.execPpsOutFall s
  | .ptpMessage m => Sys2Proof.Machine.execPtpMessage m s
  | .ptpMasterLost => Sys2Proof.Machine.execPtpMasterLost s
  | .powerEstimate total bow stern => Sys2Proof.Machine.execPowerEstimate total bow stern s
  | .voltageStep => Sys2Proof.Machine.execVoltageStep s
  | .powerCalibrate measured estimated sensorFault => Sys2Proof.Machine.execPowerCalibrate measured estimated sensorFault s
  | .thermalLoop => Sys2Proof.Machine.execThermalLoop s
  | .unitIdleNap kind index => Sys2Proof.Machine.execUnitIdleNap kind index s
  | .unitIdleOff kind index => Sys2Proof.Machine.execUnitIdleOff kind index s
  | .unitStateEntered kind index => Sys2Proof.Machine.execUnitStateEntered kind index s
  | .unitWake kind index => Sys2Proof.Machine.execUnitWake kind index s
  | .hbmWatchSample stack temp => Sys2Proof.Machine.execHbmWatchSample stack temp s
  | .alarmFire a => Sys2Proof.Machine.execAlarmFire a s
  | .alarmHoldExpire a => Sys2Proof.Machine.execAlarmHoldExpire a s
  | .pwrUnitClr v w => Sys2Proof.Machine.execPwrUnitClr v w s
  | .mgcHang cause otherReady flash => Sys2Proof.Machine.execMgcHang cause otherReady flash s
  | .mgcStartRetry ok0 ok1 => Sys2Proof.Machine.execMgcStartRetry ok0 ok1 s
  | .i3cAddressAssign addr ibi => Sys2Proof.Machine.execI3cAddressAssign addr ibi s
  | .i3cTransfer addr idx x => Sys2Proof.Machine.execI3cTransfer addr idx x s
  | .i3cAlertAck => Sys2Proof.Machine.execI3cAlertAck s
  | .mgeFrameReceive f => Sys2Proof.Machine.execMgeFrameReceive f s
  | .evrSummary code => Sys2Proof.Machine.execEvrSummary code s
  | .evrPersist => Sys2Proof.Machine.execEvrPersist s
  | .jtagInstruction j => Sys2Proof.Machine.execJtagInstruction j s
  | .viewRefresh => Sys2Proof.Machine.execViewRefresh s
  | .heartbeatSend slot => Sys2Proof.Machine.execHeartbeatSend slot s
  | .juwesyHeartbeat src m => Sys2Proof.Machine.execJuwesyHeartbeat src m s
  | .heartbeatMiss slot m => Sys2Proof.Machine.execHeartbeatMiss slot m s
  | .suspectRetry slot m => Sys2Proof.Machine.execSuspectRetry slot m s
  | .juwesySuspect src m => Sys2Proof.Machine.execJuwesySuspect src m s
  | .juwesyVoteReq src m => Sys2Proof.Machine.execJuwesyVoteReq src m s
  | .voteAnswerTimeout slot coord id => Sys2Proof.Machine.execVoteAnswerTimeout slot coord id s
  | .juwesyVote src m => Sys2Proof.Machine.execJuwesyVote src m s
  | .voteWaitExpire slot id => Sys2Proof.Machine.execVoteWaitExpire slot id s
  | .juwesyDecide src m => Sys2Proof.Machine.execJuwesyDecide src m s
  | .decideResend slot coord id child => Sys2Proof.Machine.execDecideResend slot coord id child s
  | .juwesyDecideAck src m => Sys2Proof.Machine.execJuwesyDecideAck src m s
  | .recoveryQuietDone slot => Sys2Proof.Machine.execRecoveryQuietDone slot s
  | .healthUpdate => Sys2Proof.Machine.execHealthUpdate s
  | .holdRelease slot => Sys2Proof.Machine.execHoldRelease slot s
  | .probeSend slot => Sys2Proof.Machine.execProbeSend slot s
  | .juwesyProbe src m => Sys2Proof.Machine.execJuwesyProbe src m s
  | .juwesyProbeAck src m => Sys2Proof.Machine.execJuwesyProbeAck src m s
  | .probationEnd slot => Sys2Proof.Machine.execProbationEnd slot s
  | .juwesyPace src m => Sys2Proof.Machine.execJuwesyPace src m s
  | .fltStatClr v w => Sys2Proof.Machine.execFltStatClr v w s
  | .thermalCriticalRelease => Sys2Proof.Machine.execThermalCriticalRelease s
  | .heatEnd slot => Sys2Proof.Machine.execHeatEnd slot s
  | .paceSecondSend => Sys2Proof.Machine.execPaceSecondSend s
  | .probationNoDecision slot => Sys2Proof.Machine.execProbationNoDecision slot s
  | .hbmTrainDone stack failed flash => Sys2Proof.Machine.execHbmTrainDone stack failed flash s
  | .ceWindowEnd tier => Sys2Proof.Machine.execCeWindowEnd tier s
  | .vfEnable count => Sys2Proof.Machine.execVfEnable count s
  | .ideKm stream keySet => Sys2Proof.Machine.execIdeKm stream keySet s
  | .railGoodAtPowerUp rail => Sys2Proof.Machine.execRailGoodAtPowerUp rail s
  | .consoleLineSent => Sys2Proof.Machine.execConsoleLineSent s

end Sys2Proof.Machine
end

