-- ==== Sys2Proof/Machine/Idle.lean ====
section
/-!
DEFINITION. What the block does when no command waits: one tick of the timing clock, and the planned operations that
were waiting for something that may have come about (notes/assumptions/1.md).
-/

namespace Sys2Proof.Machine

/-- One step with an empty queue: the counter takes a tick (R462), and planned operations that can start do (R303, R314). -/
def State.idle (s : State) : State := s.tick.planOpsRetry

end Sys2Proof.Machine
end

