-- ==== Sys2Proof/Machine/ReadReg.lean ====
section
/-!
DEFINITION. What a read of a register returns (R63, R79 to R88, R100), and the tenants' view of the counters (R459). A
register whose contents other state gives is computed here; every other register stands in the register file. Selectors
come as a function of their offset, so that a view window can name one that is not written.
-/

namespace Sys2Proof.Machine

/-! ### Registers that other state gives -/

/-- `MGT.SENS_VALUE` (R504). -/
def State.sensWord (s : State) (sel : Nat) : Nat :=
  let k := bitsOf sel 0 3
  let i := bitsOf sel 3 7
  if i < [96, 64, 64, 8, 8, 16, 32].getD k 0 then
    let v := s.mgmt.sensors.getD (k, i) {}
    ofSigned 16 v.value + bit v.fault * 2 ^ 16
  else 0

/-- `HBM.ERR_READ` and `DDR.ERR_READ` (R149). -/
def State.errWord (s : State) (tier sel : Nat) : Nat :=
  let u := bitsOf sel 0 10
  let p := bitsOf sel 16 7
  if (tier = 0 ∧ p < 36) ∨ (tier = 1 ∧ u < 16 ∧ p % 16 < 10) then
    let c := s.mem.ce.getD (⟨tier, u⟩, p) {}
    min 0xFFFF c.total + min 0xFF c.inWindow * 2 ^ 16 + s.unitSt ⟨tier, u⟩ * 2 ^ 24
  else 0

/-- `SWC.SPRAY_MEMBER` (R200, R201). -/
def State.sprayWord (s : State) (sel : Nat) : Nat :=
  match s.tabRec 0x14 (bitsOf sel 0 12) with
  | none => 0
  | some r =>
    match (sgMembers r)[bitsOf sel 12 6]? with
    | none => 0
    | some (port, weight) =>
      port + bit (s.portAvail port) * 2 ^ 10 + bit (s.portBypassed port) * 2 ^ 11 +
        min 65535 ((s.portSt port).delay / 256) * 2 ^ 12 + weight % 16 * 2 ^ 28

/-- `TPT.CTX_STATUS` (R236). -/
def State.ctxWord (s : State) (n : Nat) : Nat :=
  match s.ctx? n with
  | none => 0
  | some c =>
    (if c.failed then 2 else 1) + c.reason % 4 * 2 ^ 2 + min 256 ((c.sndNxt + 2 ^ 32 - c.sndUna) % 2 ^ 32) * 2 ^ 4 +
      min 15 c.retry * 2 ^ 13 + bit ((s.ctxCache n).contains n) * 2 ^ 17 + bit (decide (0 < c.pins)) * 2 ^ 18

/-- `COL.LATE_VALUE` (R296). -/
def State.lateWord (s : State) (sel : Nat) : Nat :=
  let r := s.col.late.getD (bitsOf sel 0 4, bitsOf sel 4 12) {}
  min 0xFFFFFFFF (match bitsOf sel 20 2 with
    | 0 => r.bins.getD (bitsOf sel 16 4) 0
    | 1 => r.maxNs
    | 2 => r.last
    | _ => 0)

/-- The PLN registers of a plan slot that its state gives. -/
def State.planWord (s : State) (n off : Nat) : Nat :=
  let p := s.plan n
  if off = 0x104 then p.st + bit p.late * 2 ^ 2 + p.stroke % 65536 * 2 ^ 4
  else if off = 0x108 then p.heat % 2 ^ 32
  else min 0xFFFF (p.lateNow / 64) + min 0xFFFF (p.lateMax / 64) * 2 ^ 16

/-- `TFB.DIE_STATUSn` (R341). -/
def State.tfbDieWord (s : State) (d : Nat) : Nat :=
  let u := sumNeeds ((s.holders d).map (·.2))
  let runs := ((s.holders d).filter fun p => p.2.st == csxRUNNING).length
  (8 - u.mu) + (128 - u.tiles) * 2 ^ 4 + (896 - u.ws) * 2 ^ 12 + min 8 runs * 2 ^ 22

/-- `TFB.CTX_STATUS` and `TFB.CTX_GROUP` (R333). -/
def State.tfbCtxWord (s : State) (n off : Nat) : Nat :=
  let c := s.tctx n
  if off = 0x104 then c.st + bit c.classT * 2 ^ 3 + c.die % 4 * 2 ^ 4 + min 1023 c.queue.length * 2 ^ 6
  else c.groups % 2 ^ 32

/-- `ASH.SLOT_STATUS` and `ASH.SLOT_LEVEL` (R354, R355). -/
def State.ashWord (s : State) (sel off : Nat) : Nat :=
  let t := s.ash.slots.getD (bitsOf sel 8 1, bitsOf sel 0 8) {}
  if off = 0x104 then t.st + t.size % 4 * 2 ^ 2 + t.count % 2 ^ 24 * 2 ^ 8
  else if t.st = 0 then 0 else t.levels.getD (bitsOf sel 9 8) 0

/-- The OUT registers of a shard slot, and of a piece of it (R374, R384). -/
def State.outWord (s : State) (k piece off : Nat) : Nat :=
  let h := s.shard k
  if off = 0x104 then h.st + min 4095 h.epoch * 2 ^ 4
  else if off = 0x108 then h.round % 2 ^ 32
  else if off = 0x10C then h.committed % 2 ^ 17
  else if off = 0x110 then h.rc % 2 ^ 32
  else if off = 0x114 then
    h.roster % 2 ^ 16 + sumOf ((List.range 16).map fun i => bit (h.site i).reach * 2 ^ i) * 2 ^ 16
  else
    match s.shardRec k with
    | none => 0
    | some r =>
      if hPieces r ≤ piece then 0
      else
        let x := h.piece piece
        if off = 0x204 then x.slot % 2 ^ 17 + (if s.pieceLost r x then 7 else x.st % 8) * 2 ^ 17
        else if off = 0x208 then x.round % 2 ^ 32
        else x.mask % 2 ^ 16

/-- `SLF.LEG_STATUS`, `STAT_VALUE` and `PM_VALUE` (R425 to R428); leg B reads 0 without protection. -/
def State.slfWord (s : State) (sel off stored : Nat) : Nat :=
  let g := bitsOf sel 0 4
  let leg := bitsOf sel 4 1
  if leg = 1 ∧ s.lineProtected g = false then 0
  else if off = 0x30C then
    let c := bitsOf sel 5 5
    let l := if c = 6 ∨ c = 7 ∨ c = 14 then leg else 0
    (s.reg ⟨.slf, 0x30C, g + 16 * l + 32 * c⟩).toNat
  else if off = 0x310 then
    let x := s.line.groups.getD g {}
    let y := if leg = 0 then x.legA else x.legB
    let b := bitsOf sel 10 3
    let i := bitsOf sel 13 3
    if b < 4 ∧ i < 4 then min (2 ^ 31 - 1) (y.pm.getD (b, i) 0) + bit (y.suspect.contains b) * 2 ^ 31 else 0
  else stored

/-- The FLT registers of a group and a member or port (R519 to R536). -/
def State.fltWord (s : State) (slot sel off : Nat) : Nat :=
  let g := s.fltGroup slot
  let score := fun (k : Subject) => min 0xFFFF ((s.healthOf k).score / 65536) * 2 ^ 16
  let m := bitsOf sel 0 12
  match s.fltRec slot with
  | none => if off = 0x114 ∧ bitAt sel 12 = true ∧ m < 576 then
      bit (s.flt.fenced.contains m) * 2 + 256 * 2 ^ 4 + score (.port m) else 0
  | some r =>
    if off = 0x104 then g.st + bit g.hold * 2 ^ 3 + s.groupGen slot % 16 * 2 ^ 4 + g.coord % 4096 * 2 ^ 8
    else if off = 0x108 then g.epoch % 2 ^ 32
    else if bitAt sel 12 = true then
      (if m < 576 then (if s.flt.fenced.contains m then 2 else bit (s.healthOf (.port m)).sent) + 256 * 2 ^ 4 + score (.port m)
       else 0)
    else if m < jCount r then
      let x := g.member m
      (if x.probation || (m == jSelf r && g.st == 5) then 3 else if x.fenced then 2 else bit x.suspect.isSome) +
        bit ((s.watchers slot (jSelf r)).contains m) * 2 ^ 2 + bit x.throttled * 2 ^ 3 + x.issue % 512 * 2 ^ 4 +
        score (if m = jSelf r then .self else .member slot m)
    else 0

/-- The PWR registers of a unit, of a pace monitor and of a temperature band where they do not simply stand. -/
def State.pwrWord (s : State) (off stored : Nat) (sel : Nat → Nat) : Nat :=
  if off = 0x184 then
    (if bitsOf (sel 0x180) 0 8 < [64, 64, 16, 256, 2, 2, 9].getD (bitsOf (sel 0x180) 8 4) 0 then stored else 2 ^ 31)
  else if off = 0x194 then (if bitsOf (sel 0x190) 0 3 < 5 then stored else 0)
  else
    let k := bitsOf (sel 0x200) 0 3
    let i := bitsOf (sel 0x200) 3 8
    if 6 ≤ k ∨ unitCount k ≤ i then 0
    else if off = 0x204 then stored / 8 * 8 + s.unitState k i % 8
    else stored

/-- The word of a register that other state gives, in whole or in part; none where it simply stands. `stored` is what the
register file holds. -/
def State.computed (s : State) (b : Blk) (off stored : Nat) (sel : Nat → Nat) : Option Nat :=
  match b with
  | .mgt =>
    if off = 0x8 ∨ off = 0xC then (if s.boot.identity then none else some 0)
    else if off = 0x404 then some (s.sensWord (sel 0x400))
    else if 0x500 ≤ off ∧ off < 0x520 then some (getLE s.mgmt.nonce (off - 0x500) 4)
    else none
  | .dbq =>
    if 0x200 ≤ off ∧ off < 0x220 then
      let i := s.hif.intakes.getD ((off - 0x200) / 4) {}
      some (i.fill.length + i.drain.length * 2 ^ 10 + i.bank % 2 * 2 ^ 20 + bitsOf stored 21 2 * 2 ^ 21)
    else none
  | .hbm => if off = 0x24 then some (s.errWord 0 (sel 0x20)) else none
  | .ddr =>
    if off = 0x24 then some (s.errWord 1 (sel 0x20))
    else if off = 0x4 then some (s.mem.extents.length % 2 ^ 15 + s.freeMediaAll % 2 ^ 15 * 2 ^ 15)
    else none
  | .sett =>
    if off = 0x20 ∨ off = 0x24 then some (s.sharedFree ((off - 0x20) / 4) + bitsOf stored 20 8 * 2 ^ 20) else none
  | .swc => if off = 0x504 then some (s.sprayWord (sel 0x500)) else none
  | .tpt =>
    let c := bitsOf (sel 0x400) 10 5
    let p := bitsOf (sel 0x400) 0 10
    if off = 0x304 then some (s.ctxWord (bitsOf (sel 0x300) 0 18))
    else if off = 0x404 then
      some (if 14 < c ∨ (10 ≤ c ∧ 576 ≤ p) then 0 else (s.reg ⟨.tpt, 0x404, (if c < 10 then 0 else p) + c * 1024⟩).toNat)
    else none
  | .ben =>
    if off = 0x20 ∨ off = 0x24 then
      some (s.freeGran ((off - 0x20) / 4) % 2 ^ 15 + s.freeLines ((off - 0x20) / 4) % 2 ^ 16 * 2 ^ 15)
    else none
  | .col =>
    if off = 0x200 then
      some ((s.dynOps.filter fun o => o.admission == .wait).length % 2 ^ 16 +
        (s.dynOps.filter fun o => o.admission == .admitted).length % 2 ^ 16 * 2 ^ 16)
    else if off = 0x404 then some (s.lateWord (sel 0x400))
    else none
  | .pln => if off = 0x104 ∨ off = 0x108 ∨ off = 0x10C then some (s.planWord (bitsOf (sel 0x100) 0 2) off) else none
  | .tfb =>
    if off = 0x20 ∨ off = 0x24 then some (s.tfbDieWord ((off - 0x20) / 4))
    else if off = 0x104 ∨ off = 0x108 then some (s.tfbCtxWord (bitsOf (sel 0x100) 0 6) off)
    else none
  | .ash => if off = 0x104 ∨ off = 0x108 then some (s.ashWord (sel 0x100) off) else none
  | .out =>
    if (0x104 ≤ off ∧ off < 0x118) ∨ (0x204 ≤ off ∧ off < 0x210) then
      some (s.outWord (bitsOf (sel 0x100) 0 4) (bitsOf (sel 0x200) 0 16) off)
    else none
  | .opt => if 0x104 ≤ off ∧ off < 0x114 ∧ 17 ≤ bitsOf (sel 0x100) 6 5 then some 0 else none
  | .eln =>
    if off = 0x104 then
      some (stored % 8 + Config.laneQuality s.time.ticks (bitsOf (sel 0x100) 0 6) % 2 ^ 16 * 2 ^ 3)
    else none
  | .slf => if off = 0x308 ∨ off = 0x30C ∨ off = 0x310 then some (s.slfWord (sel 0x300) off stored) else none
  | .kmc =>
    if off = 0x100 then some (min 64 s.kmc.chain.length + min 0xFFFF (s.kmc.chain.length - 64) * 2 ^ 16) else none
  | .pwr => if off = 0x184 ∨ off = 0x194 ∨ off = 0x204 ∨ off = 0x208 then some (s.pwrWord off stored sel) else none
  | .evr =>
    let q := if off < 0x108 then (s.evr.ring.getLast?.map (·.seq)).getD 0 else (s.evr.ring.head?.map (·.seq)).getD 0
    if off = 0x100 ∨ off = 0x108 then some (q % 2 ^ 32)
    else if off = 0x104 ∨ off = 0x10C then some (q / 2 ^ 32 % 2 ^ 32)
    else none
  | .flt =>
    if off = 0x104 ∨ off = 0x108 ∨ off = 0x114 then some (s.fltWord (bitsOf (sel 0x100) 0 4) (sel 0x110) off) else none
  | _ => none

/-! ### Reads of the set-up space -/

/-- The word with its WO fields 0 (R7). -/
def withoutWO (d : RegDef) (w : Nat) : Nat :=
  d.fields.foldl (fun (a : Nat) f => match f.acc with
    | .wo => putBits a f.lsb f.width 0
    | _ => a) w

/-- What a register that has no shadow copy reads, with given selector values. -/
def State.valueBy (s : State) (b : Blk) (d : RegDef) (off : Nat) (sel : Nat → Nat) : Nat :=
  let inst := sumOf (d.sel.map fun (o, lsb, w, sh) => bitsOf (sel o) lsb w * 2 ^ sh)
  let stored := (s.reg ⟨b, off, inst⟩).toNat
  withoutWO d ((s.computed b off stored sel).getD stored)

/-- `COMMIT_STATUS.RESULT` as it reads. -/
def CommitResult.code : CommitResult → Nat
  | .idle => 0 | .checking => 1 | .accepted => 2 | .refused => 3 | .empty => 4

/-- A register common to every block (the Common registers table). -/
def State.commonRead (s : State) (v : View) (b : Blk) (off : Nat) : Nat :=
  let p := s.port v b
  if off = 0xFF000 then blkCode b + 0x01 * 2 ^ 8 + blkGroups b * 2 ^ 16
  else if off = 0xFF004 then (s.reg ⟨b, off, 0⟩).toNat
  else if off = 0xFF010 then bit p.readSel * 2 ^ 8
  else if off = 0xFF014 then p.mask
  else if off = 0xFF018 then p.result.code + p.errGroup * 2 ^ 3 + p.errCode * 2 ^ 8 + p.seq * 2 ^ 16
  else if off = 0xFF01C then sumOf (p.pend.map fun x => 2 ^ x.1)
  else if off = 0xFF020 then p.errOff + p.errLsb * 2 ^ 20
  else bit p.errSize + bit p.errRoWrite * 2 + bit p.errGoLost * 4 + p.errCount * 2 ^ 16

/-- A read of one of a block's own registers: RWS fields from the live or the shadow copy, as READ_SEL says, every other
field as it is now (R7, R88). -/
def State.ownRead (s : State) (v : View) (b : Blk) (off : Nat) (d : RegDef) : Nat :=
  if d.group.isSome then
    let live := (s.liveReg v b off).toNat
    if (s.port v b).readSel then writeFields d.fields (fun f => f.acc == .rws) live (s.shadowReg v b off).toNat else live
  else s.valueBy b d off fun o => (s.reg ⟨b, o, 0⟩).toNat

/-- An aligned 32-bit read of the set-up space, or of a virtual function's windows: what it returns (R63, R79 to R88). -/
def State.readReg (s : State) (v : View) (off : Nat) : Nat :=
  match viewLocate v off with
  | none => 0
  | some (b, o) =>
    if s.reaches v b o && holdsReg v b o then
      if isCommonReg o then s.commonRead v b o
      else match regDefAt b o with
        | some d => s.ownRead v b o d
        | none => 0
    else 0

/-! ### Reads of a doorbell page (R100) -/

/-- An aligned 32-bit read of a doorbell page: RING_STATUS, or NQ_STATUS, NQ_COUNTS and POP_HI. -/
def State.readPage (s : State) (v : View) (page off : Nat) : Nat :=
  match s.pageRing v page with
  | none => 0
  | some n =>
    let r := s.ring n
    if r.kind = kindNQ then
      if off = 0x8 then
        let n := r.nqFill.length + r.nqDrain.length
        n + bit (n == 0) * 2 ^ 11 + bit r.nqUnderrun * 2 ^ 12
      else if off = 0xC then min 0xFFFF r.nqCorrected + min 0xFFFF r.nqDropped * 2 ^ 16
      else if off = 0x18 then r.popHi % 2 ^ 32
      else if off = 0x1C then r.popHi / 2 ^ 32 % 2 ^ 32
      else 0
    else if off = 0x8 then
      r.dev + bit r.enabled * 2 ^ 16 + bit (s.ringHeld n) * 2 ^ 17 + bit r.fault * 2 ^ 18 + bit r.dbRange * 2 ^ 19 +
        bit r.dbDisabled * 2 ^ 20 + bit r.cqFull * 2 ^ 21
    else 0

/-! ### The view window of a virtual function (R459) -/

/-- The state as the last refresh left the values that tenants see. -/
def State.asViewed (s : State) : State :=
  { s with
    regs := { s.regs with live := s.view.snap }
    col := { s.col with late := s.view.late }
    plans := s.view.plans
    line := { s.line with groups := s.line.groups.map fun p =>
      let (a, sa) := s.view.pm.getD (p.1, 0) ([], [])
      let (b, sb) := s.view.pm.getD (p.1, 1) ([], [])
      (p.1, { p.2 with
        legA := { p.2.legA with pm := a, suspect := sa }
        legB := { p.2.legB with pm := b, suspect := sb } }) } }

/-- The sources of VIEW_SEL, by number: block and offset of the selector. -/
def viewSource (n : Nat) : Option (Blk × Nat) :=
  [(.swc, 0x400), (.tms, 0x310), (.tpt, 0x400), (.col, 0x300), (.col, 0x400), (.pln, 0x100), (.sett, 0x100), (.opt, 0x100),
   (.eln, 0x100), (.slf, 0x300), (.ben, 0x800), (.tfb, 0x200), (.ash, 0x200), (.out, 0x300)][n - 1]?

/-- The value registers of a selector: those after it whose window it selects, in offset order. -/
def viewRegs (b : Blk) (sel : Nat) : List RegDef :=
  (blockRegs b).filter fun d => decide (sel < d.off) && d.sel.any fun x => x.1 == sel

/-- A bin of a timing histogram whose unit is 2^shift ns, with its low bins merged to a unit of at least 1,024 ns. -/
def mergedBin (shift k : Nat) (bins : Nat → Nat) : Nat :=
  let d := 10 - shift
  if k = 0 then min 0xFFFFFFFF (sumOf ((List.range (d + 1)).map bins))
  else if k + d ≤ 15 then bins (k + d)
  else 0

/-- The value of an item that is not hidden: source, selector word, register number. -/
def State.viewItem (s : State) (src item reg : Nat) : Option Nat :=
  if src = 0 then (if reg = 0 then some s.view.power else none)
  else if 15 ≤ src then none
  else match viewSource src with
    | none => none
    | some (b, so) =>
      match (viewRegs b so)[reg]? with
      | none => none
      | some d =>
        let t := s.asViewed
        let get := fun (w : Nat) => t.valueBy b d d.off fun o => if o = so then w else (t.reg ⟨b, o, 0⟩).toNat
        some (
          if src = 2 ∧ bitAt item 13 = true then
            mergedBin (t.fld Reg.TMS_HIST_CFG_DELAY_SHIFT) (bitsOf item 14 4) fun k => get (putBits item 14 4 k)
          else if src = 5 ∧ bitsOf item 20 2 = 0 then
            mergedBin (t.fld (Reg.COL_LATE_WATCH_SHIFT.nth (bitsOf item 0 4))) (bitsOf item 16 4) fun k => get (putBits item 16 4 k)
          else if src = 5 ∧ bitsOf item 20 2 = 1 then get item / 1024 * 1024
          else if src = 6 ∧ d.off = 0x10C then
            bitsOf (get item) 0 16 / 16 * 16 + bitsOf (get item) 16 16 / 16 * 16 * 2 ^ 16
          else get item)

/-- A read of the view window: VIEW_SEL, VIEW_VALUE, VIEW_STATUS. -/
def State.readView (s : State) (vf off : Nat) : Nat :=
  let w := (s.view.sel.getD vf 0).toNat
  let x := s.viewItem (bitsOf w 0 4) (bitsOf w 4 26) (bitsOf w 30 2)
  if s.reaches (.vf vf) .hif 0 = false then 0
  else if off = 0xE000 then w
  else if off = 0xE004 then x.getD 0
  else if off = 0xE008 then bit x.isNone + s.view.stamp % 2 ^ 31 * 2
  else 0

/-- An aligned 32-bit read: what it returns. -/
def State.readTarget (s : State) (v : View) (t : RegTarget) : Nat :=
  match v, t with
  | .vf n, .setup off => if 0xE000 ≤ off ∧ off < 0xE00C then s.readView n off else s.readReg v off
  | _, .setup off => s.readReg v off
  | _, .page page off => s.readPage v page off
  | _, .msix off => match s.msixFn v with
    | some fn => s.msixRead fn off
    | none => 0

end Sys2Proof.Machine
end

