-- ==== Sys2Proof/Safety.lean ====
section
/-!
DEFINITION. What the statements about this block are said in: the parts of the state, what it is to leave all other parts
as they were, the invariants every step keeps, and what it is for a command to complete.
-/

namespace Sys2Proof.Machine

/-- The two registers in which any event may be counted: `MGT.CON_CFG` (console lines dropped) and `EVR.STATUS` (records
suppressed, lost or not persisted). -/
def countsEvents (b : Blk) (off : Nat) : Bool := (b == .mgt && off == 0x610) || (b == .evr && off == 0x110)

/-- The parts of the state that a frame names: the registers of one block but for the event counters, those counters, the
shadow copies and commit registers of all blocks, each unit's tables, the open values used, the effects on the outside,
and the bytes of device memory. -/
inductive Part where
  | regs (b : Blk)
  | counters
  | setup | boot | mgmt | evr | hif | cox | mem | time | power | sett | swc | lsc | tpt | col | plans | tfb | ash | line
  | flt | lanes | outer | rig | kmc | view | free | out | bytes
  deriving DecidableEq, Repr

/-- A part is the same in two states. Registers are compared by what each reads, memory by what each byte reads as under
every key. -/
def Part.same (s t : State) : Part → Prop
  | .regs b => ∀ off inst, countsEvents b off = false → t.reg ⟨b, off, inst⟩ = s.reg ⟨b, off, inst⟩
  | .counters => ∀ b off inst, countsEvents b off = true → t.reg ⟨b, off, inst⟩ = s.reg ⟨b, off, inst⟩
  | .setup => t.regs.shadow = s.regs.shadow ∧ t.regs.ports = s.regs.ports
  | .boot => t.boot = s.boot
  | .mgmt => t.mgmt = s.mgmt
  | .evr => t.evr = s.evr
  | .hif => t.hif = s.hif
  | .cox => t.cox = s.cox
  | .mem => t.mem = s.mem
  | .time => t.time = s.time
  | .power => t.power = s.power
  | .sett => t.sett = s.sett
  | .swc => t.swc = s.swc
  | .lsc => t.lsc = s.lsc
  | .tpt => t.tpt = s.tpt
  | .col => t.col = s.col
  | .plans => t.plans = s.plans
  | .tfb => t.tfb = s.tfb
  | .ash => t.ash = s.ash
  | .line => t.line = s.line
  | .flt => t.flt = s.flt
  | .lanes => t.lanes = s.lanes
  | .outer => t.outer = s.outer
  | .rig => t.rig = s.rig
  | .kmc => t.kmc = s.kmc
  | .view => t.view = s.view
  | .free => t.free = s.free
  | .out => t.out = s.out
  | .bytes => ∀ k a, t.memByte k a = s.memByte k a

/-- Every part but those listed is the same. -/
def SameBut (ps : List Part) (s t : State) : Prop := ∀ p, p ∉ ps → p.same s t

/-- Every register of a block at another offset than those listed reads as before. -/
abbrev State.SameRegsBut (s t : State) (b : Blk) (offs : List Nat) : Prop :=
  ∀ off inst, off ∉ offs → t.reg ⟨b, off, inst⟩ = s.reg ⟨b, off, inst⟩

/-- What raising an event touches (R119, R506 to R513): the event record and its counters, alerts and console lines,
notification rings, and messages sent. -/
def reports : List Part :=
  [.mgmt, .evr, .hif, .free, .out, .counters]

/-- What handing a packet to a queue touches beside events: setts, the switch and their counters. -/
def sending : List Part :=
  reports ++ [.regs .sett, .regs .swc, .sett, .swc]

/-- What a link that goes down or a lane group that changes touches. -/
def links : List Part :=
  reports ++ [.regs .sett, .regs .swc, .regs .opt, .regs .eln, .regs .lsc, .regs .pwr, .power, .sett, .swc,
    .lsc]

/-- What ending a command of a context touches: its memory, domain, ports of memory and pacing. -/
def commitPaths : List Part :=
  reports ++ [.regs .hbm, .regs .tfb, .regs .pwr, .mem, .power, .tfb, .ash, .flt]

/-- What the collectives engine touches as it goes on. -/
def collectives : List Part :=
  reports ++ [.regs .sett, .regs .swc, .regs .ben, .regs .col, .mem, .sett, .swc, .tpt, .col, .bytes]

/-- What carrying out a decision of the fault agreement touches. -/
def agreement : List Part :=
  reports ++ [.regs .sett, .regs .swc, .regs .tpt, .regs .ben, .regs .col, .regs .flt, .mem, .sett, .swc, .tpt,
    .col, .plans, .tfb, .ash, .line, .flt, .outer, .rig, .kmc, .bytes]

/-- What switching to another rig touches. -/
def rigging : List Part :=
  reports ++ [.regs .sett, .regs .swc, .regs .tpt, .regs .pln, .regs .opt, .regs .eln, .regs .lsc, .regs .pwr,
    .mem, .power, .sett, .swc, .lsc, .tpt, .col, .plans, .tfb, .flt, .lanes, .outer, .rig, .bytes]

/-- The registers of every block. -/
def allRegs : List Part := allBlks.map Part.regs

/-- Every part: what a reset touches. -/
def everyPart : List Part :=
  allRegs ++ [.setup, .boot, .mgmt, .evr, .hif, .cox, .mem, .time, .power, .sett, .swc, .lsc, .tpt, .col,
    .plans, .tfb, .ash, .line, .flt, .lanes, .outer, .rig, .kmc, .view, .free, .out, .bytes, .counters]

/-- The parts a command may change; all others stay as they are (the frame of every command). -/
def touches : Instr → List Part
  | .powerOnReset .. => [.regs .mgt, .boot, .counters]
  | .porstAssert | .aonLoss | .railFault .. => everyPart
  | .startupStageDone .. => collectives ++
    [.regs .mgt, .regs .dbq, .regs .hbm, .regs .opt, .regs .eln, .regs .slf, .regs .lsc, .regs .pwr, .boot, .cox, .power, .lsc, .line, .lanes]
  | .recovWaitSwitch | .recovOffer .. => [.boot, .out]
  | .recovGo .. => reports ++ [.regs .mgt, .setup, .boot]
  | .tftpStall => reports ++ [.boot]
  | .recovImageDone .. | .updateStage .. | .mgmtHandoverDone .. | .flashBlockDone .. | .updateAbort .. |
    .flashResync .. => reports ++ [.regs .mgt, .boot]
  | .feedLineLow .. | .feedLineRestore .. | .markerReceive .. | .pgIdClear .. | .aliasRestore .. | .lccRemapReq .. |
    .lccTxAlias .. | .remapSwitch .. | .laneFrameReceive .. | .heaterUpdate .. | .ringSweepDone .. |
    .featherCalDone .. => collectives ++
    [.regs .opt, .regs .eln, .regs .lsc, .regs .pwr, .power, .lsc, .flt, .lanes]
  | .feedLost .. | .feedRestored .. | .oeTripRelease .. | .watchSample .. | .bypassEnd .. => collectives ++
    [.regs .opt, .regs .eln, .regs .lsc, .regs .pwr, .power, .lsc, .lanes]
  | .railGood .. => collectives ++ [.regs .opt, .regs .eln, .regs .lsc, .regs .pwr, .boot, .power, .lsc, .lanes]
  | .sensorSample .. => collectives ++
    [.regs .opt, .regs .eln, .regs .slf, .regs .lsc, .regs .pwr, .boot, .power, .lsc, .line, .lanes]
  | .bandFall | .voltageStep | .thermalCriticalRelease => [.regs .pwr, .power, .out]
  | .paceWindow .. => [.regs .pwr]
  | .floorRaise | .powerEstimate .. | .powerCalibrate .. | .hbmWatchSample .. | .alarmFire .. => reports ++
    [.regs .pwr, .power]
  | .arbGrant .. => collectives ++ [.regs .mgt, .regs .pln, .power, .flt]
  | .paceClrMin .. | .pwrUnitClr .. => [.regs .pwr, .setup]
  | .arbClr .. => [.regs .mgt, .setup, .counters]
  | .regWrite .. => allRegs ++ [.setup, .hif, .view, .out, .counters]
  | .regAccessBad .. => [.setup, .out]
  | .accessErrWrite .. | .commitGo .. | .commitAbandon .. => [.setup]
  | .commitCheckEnd .. => collectives ++
    [.regs .hbm, .regs .tms, .regs .tfb, .regs .opt, .regs .eln, .regs .slf, .regs .lsc, .regs .pwr, .setup, .time, .power, .lsc, .tfb, .ash, .line, .flt, .lanes, .kmc]
  | .commitBoundary .. | .refillTick => collectives ++
    [.regs .mgt, .regs .hif, .regs .dbq, .regs .mmu, .regs .hbm, .regs .ddr, .regs .tms, .regs .tpt, .regs .pln, .regs .tfb, .regs .ash, .regs .out, .regs .opt, .regs .eln, .regs .slf, .regs .lsc, .regs .kmc, .regs .tim, .regs .pwr, .regs .evr, .regs .att, .regs .flt, .setup, .time, .power, .lsc, .tfb, .ash, .line, .flt, .lanes, .kmc]
  | .doorbell .. | .functionD3hot .. | .nqClrCounts .. | .ideKm .. => [.hif]
  | .intakePop .. => reports ++ [.regs .dbq]
  | .completionWrite .. | .evrClear .. => reports
  | .functionD0 .. | .nqPop .. | .attestReport .. => [.hif, .out]
  | .vfFlr .. | .vfEnable .. => collectives ++ [.outer]
  | .evrMirror => [.evr, .hif, .out]
  | .rigSubmit .. | .rigStage .. => rigging ++ [.regs .ben, .regs .col, .regs .tfb]
  | .catchFire .. | .bypassBegin .. => rigging ++ [.regs .ben, .regs .col]
  | .coxSelfCheck => [.cox]
  | .coxHang .. | .coxReload .. => reports ++ [.regs .dbq, .cox]
  | .coxReloadDone .. | .coxReloadTimeout .. | .updateStagingDone .. => reports ++
    [.regs .mgt, .regs .dbq, .boot, .cox]
  | .flashKeep .. | .svnCommit .. => [.boot, .hif]
  | .ddrDomain .. | .memRetire .. => reports ++ [.regs .hbm, .mem]
  | .ddrTrainDone .. => reports ++ [.mem]
  | .ddrExtent .. => reports ++ [.regs .hbm, .mem, .bytes]
  | .retireBlockCopy .. => reports ++ [.regs .hbm, .mem, .line, .flt]
  | .mmuInvalidate .. => collectives ++ [.regs .pwr, .power, .tfb, .ash]
  | .codeTable .. => [.regs .ash, .hif, .ash]
  | .timeConfirm .. | .timeStepRequest .. => reports ++ [.regs .tim, .regs .pwr, .time, .power, .line]
  | .unitPower .. => [.regs .eln, .regs .pwr, .hif, .power]
  | .fltProbation .. | .probationNoDecision .. => [.hif, .flt]
  | .testAccess .. => links ++ [.regs .mgt, .regs .slf, .line, .lanes]
  | .xferCopy .. | .xferExpand .. => [.hif, .ash, .kmc]
  | .lineSend .. | .linePost .. => [.hif, .line]
  | .xferCheck .. => [.regs .kmc, .hif, .ash, .kmc]
  | .segmentCommit .. => reports ++ [.regs .hbm, .mem, .ash, .flt, .kmc, .bytes]
  | .devFaultTimeout .. => collectives ++ [.regs .tfb, .regs .pwr, .power, .tfb, .ash, .line, .kmc]
  | .priResponse .. | .priTimeout .. => reports ++ [.regs .tfb, .regs .pwr, .power, .tfb, .ash, .line, .kmc]
  | .atsInvalidate .. => [.mem, .ash, .out]
  | .scrubRead .. => reports ++ [.regs .hbm, .mem, .flt, .bytes]
  | .lccRemapAck .. => [.lanes, .out]
  | .lccCalDone .. => [.regs .opt, .lanes, .out]
  | .lccResend .. | .llrInitSend .. => [.out]
  | .featherStep .. => [.regs .opt, .lanes]
  | .optLaneClr .. => [.regs .opt, .setup]
  | .elnLaneClr .. => [.regs .eln, .setup]
  | .elnTrainTimeout .. => reports ++ [.regs .eln, .regs .pwr, .power, .lanes]
  | .elnEnergyDetect .. => [.regs .eln, .regs .pwr, .power, .lanes, .out]
  | .linkUp .. => reports ++ [.regs .opt, .regs .eln, .regs .slf, .regs .lsc, .regs .pwr, .power, .swc, .lsc, .line]
  | .linkDown .. => collectives ++ [.regs .opt, .regs .eln, .regs .slf, .regs .lsc, .regs .pwr, .power, .lsc, .line]
  | .settAlloc .. => [.regs .sett, .sett]
  | .settFree .. | .mcAge .. | .ackDelayExpire .. | .transportSend .. | .llrInit .. | .llrAck .. | .spillDone .. |
    .collAllreduce .. | .collReduceScatter .. | .collReduce .. | .collBroadcast .. | .collShift .. | .collPermute ..
    | .collCancel .. | .queryTimer .. => collectives
  | .settStatClr .. => [.regs .sett, .setup]
  | .packetIngress .. => collectives ++ [.regs .tms, .regs .lsc, .lsc, .flt, .lanes]
  | .packetDepart .. => collectives ++ [.regs .tms, .regs .tpt, .regs .pln, .regs .lsc, .regs .tim, .lsc, .line]
  | .delayEstimateUpdate => [.swc]
  | .bypassReturnTimeout .. => reports ++ [.swc]
  | .swcStatClr .. => [.regs .swc, .setup]
  | .histDepthSample => [.regs .tms]
  | .reservedWindowOpen .. => [.swc, .plans]
  | .reservedWindowClose .. => [.regs .pln, .swc]
  | .tmsHistClr .. => [.regs .tms, .setup]
  | .transportDataReceive .. => collectives ++ [.regs .tpt, .regs .ash, .flt]
  | .transportAckReceive .. | .notYetBackoff .. => collectives ++ [.regs .tpt]
  | .rtoExpire .. | .juwesyHeartbeat .. | .heartbeatMiss .. | .suspectRetry .. | .juwesySuspect .. |
    .juwesyVoteReq .. | .voteAnswerTimeout .. | .juwesyVote .. | .juwesyDecide .. | .juwesyDecideAck .. |
    .healthUpdate | .holdRelease .. | .juwesyProbe .. | .juwesyProbeAck .. | .probationEnd .. => agreement
  | .contextFetchDone .. => agreement ++ [.regs .hbm, .regs .ash]
  | .tptStatClr .. => [.regs .tpt, .setup]
  | .llrFrameReceive .. => collectives ++ [.regs .tms, .regs .tpt, .regs .lsc, .lsc, .flt, .lanes]
  | .llrNak .. | .llrTimeout .. => collectives ++
    [.regs .tpt, .regs .opt, .regs .eln, .regs .lsc, .regs .pwr, .power, .lsc, .flt]
  | .llrAckTimer .. => [.swc, .out]
  | .restoreDone .. => collectives ++ [.regs .hbm, .flt]
  | .collNotYet .. | .collResult .. | .collChunkDone .. | .collQuery .. | .collGone .. => collectives ++
    [.regs .tpt, .regs .ash]
  | .colStatClr .. => [.regs .col, .setup]
  | .colLateClr .. => [.regs .col, .setup, .col]
  | .benNumClr .. => [.regs .ben, .setup]
  | .planStart .. => reports ++ [.regs .pln, .swc, .tpt, .col, .plans, .rig]
  | .strokeStart .. => collectives ++ [.regs .pln, .plans]
  | .planEntryFire .. => rigging ++ [.regs .ben, .regs .col, .line]
  | .heatStart .. => reports ++ [.swc, .tpt, .col, .plans, .rig]
  | .plnSlotClr .. => [.regs .pln, .setup, .plans]
  | .tensorGroupCommit .. => collectives ++
    [.regs .hbm, .regs .pln, .regs .tfb, .regs .pwr, .power, .tfb, .ash, .line, .flt]
  | .contextSaveDone .. => [.regs .tfb, .regs .pwr, .mem, .power, .tfb, .free, .bytes]
  | .contextRestoreDone .. => commitPaths
  | .quantumExpire .. => [.tfb]
  | .groupOverrun .. => [.regs .tfb]
  | .tfbStatClr .. => [.regs .tfb, .setup]
  | .expandBlock .. => commitPaths ++ [.regs .pln, .regs .ash]
  | .ashStatClr .. => [.regs .ash, .setup]
  | .outerOpen .. | .roundStart .. | .outerHdr .. | .lossTimer .. | .rosterWaitExpire .. | .outerPropose .. |
    .outerVote .. | .outerDigest .. | .outerPieceReceive .. | .outerPieceStepDone .. => collectives ++
    [.regs .pln, .regs .ash, .regs .out, .regs .pwr, .power, .tfb, .line, .outer]
  | .outerExclude .. | .outerFetch .. => collectives ++ [.regs .ash, .line, .outer]
  | .outerAbandon .. | .mismatchTimeout .. => [.hif, .outer]
  | .hdrTimer .. | .nackResendTimer .. => [.line]
  | .siteUnreachable .. => [.outer]
  | .outerFinal .. => collectives ++ [.regs .ash, .regs .out, .line, .outer]
  | .outerFetchMsg .. => [.regs .out, .line]
  | .fetchTimeout .. => [.line, .outer]
  | .outStatClr .. => [.regs .out, .setup]
  | .slfTransmit .. => reports ++ [.regs .hbm, .regs .sett, .regs .slf, .mem, .sett, .line, .flt]
  | .slfReceive .. | .mfSkewExpire .. | .laneFault .. | .laneReturnTimer .. | .legLofTimer .. | .pmSecond .. |
    .wtrExpire .. => reports ++ [.regs .slf, .regs .lsc, .lsc, .line]
  | .lineDeliver .. => collectives ++ [.regs .tms, .regs .slf, .line, .flt]
  | .suspendHoldExpire .. => reports ++ [.line]
  | .keyGraceExpire .. | .kexConfirm .. | .fabGraceExpire .. => [.regs .lsc, .lsc]
  | .dccFrameOut .. => [.regs .slf, .line, .out]
  | .slfRdClr .. => [.regs .slf, .setup]
  | .kexOffer .. | .kexReject .. | .kexRetry .. | .rekeyTimer .. => [.regs .lsc, .lsc, .line, .free, .out]
  | .kexAccept .. => [.regs .lsc, .lsc, .line, .out]
  | .kexResend .. => reports ++ [.regs .lsc, .lsc, .line]
  | .lscStatClr .. => [.regs .lsc, .setup]
  | .timeCapture .. => [.regs .tim]
  | .ppsInEdge | .ptpMasterLost => [.regs .tim, .time]
  | .ppsOutPulse | .ppsOutFall => [.time]
  | .ptpMessage .. => [.regs .tim, .time, .out]
  | .thermalLoop => reports ++ [.power]
  | .unitIdleNap .. | .unitIdleOff .. | .unitWake .. => [.regs .pwr, .power]
  | .unitStateEntered .. => [.regs .pwr, .hif, .power]
  | .alarmHoldExpire .. => [.power]
  | .mgcHang .. => reports ++ [.regs .mgt]
  | .mgcStartRetry .. => [.regs .mgt, .mgmt, .counters]
  | .i3cAddressAssign .. | .i3cAlertAck => [.mgmt]
  | .i3cTransfer .. | .consoleLineSent => [.mgmt, .out]
  | .mgeFrameReceive .. => [.regs .mgt, .regs .tim, .mgmt, .time, .out, .counters]
  | .evrSummary .. => [.mgmt, .evr, .free, .out, .counters]
  | .evrPersist => [.evr]
  | .jtagInstruction .. => links ++ [.regs .slf, .line, .lanes]
  | .viewRefresh => [.view]
  | .heartbeatSend .. | .decideResend .. | .probeSend .. => collectives ++ [.flt]
  | .voteWaitExpire .. => [.regs .flt, .flt]
  | .recoveryQuietDone .. => reports ++ [.flt]
  | .juwesyPace .. => agreement ++ [.regs .pln]
  | .fltStatClr .. => [.regs .flt, .setup]
  | .heatEnd .. => collectives ++ [.regs .pln, .regs .flt, .plans, .flt, .rig]
  | .paceSecondSend => collectives ++ [.regs .flt, .flt]
  | .hbmTrainDone .. => [.regs .hbm, .regs .pwr, .boot, .hif, .mem, .power, .bytes]
  | .ceWindowEnd .. => [.mem]
  | .railGoodAtPowerUp .. => [.boot]

/-- The time counter stands in its own range: NS below 10⁹, SEC in 48 bits and FRAC in 32 (R462). -/
def State.TimeOk (s : State) : Prop := s.time.ns < 1000000000 ∧ s.time.sec < 2 ^ 48 ∧ s.time.frac < 2 ^ 32

/-- Device memory is in its canonical form. -/
def State.MemOk (s : State) : Prop := Memory.wf s.mem.cells = true

/-- What every step keeps. -/
structure State.Inv (s : State) : Prop where
  time : s.TimeOk
  mem : s.MemOk

/-- A command completes with a state of which `P` holds. -/
def Completes (c : Instr) (s : State) (P : State → Prop) : Prop := ∃ t, exec c s = .next t ∧ P t

/-- From `s` to `t` one event occurs: the event record of `t` is as raising the code in `s` leaves it. -/
abbrev State.Records (s t : State) (code inst detail : Nat) : Prop := t.evr = (s.raise code inst detail).evr

/-- The descriptor at `k` is `o` and may start now: its turn has come (R114), a cox serves its queue set (R21), and a
management request finds a management core acting (R503). -/
abbrev State.Ready (s : State) (k : OpKey) (o : Op) : Prop :=
  s.op? k = some o ∧ o.key = k ∧ o.lost = false ∧ s.canStart o = true ∧ (s.servingCox (k.ring % 8)).isSome = true ∧
    (dKind o.desc = kindMGMT → s.mgmt.down = false)

/-- The state in which a RIG descriptor that is being taken is judged: it runs, and its rig has its place in order. -/
abbrev State.rigSeen (s : State) (o : Op) : State :=
  { s.setOp { o with phase := .running } with rig := { s.rig with orders := s.rig.orders + 1 } }

/-- The operation at `k` has ended with a completion status and waits for its completion to be written. -/
def State.endedWith (s : State) (k : OpKey) (status : Nat) : Bool :=
  match s.op? k with
  | some o => match o.phase with
    | .done c => c.status == status
    | _ => false
  | none => false

/-- The operation at `k` has started and not ended. -/
def State.underWay (s : State) (k : OpKey) : Bool :=
  match s.op? k with
  | some o => o.runs
  | none => false

/-- The row of each COLL code that starts an operation (R275). -/
def collRow (code : Nat) (op : OpKey) : Instr :=
  match code with
  | 0 => .collAllreduce op
  | 1 => .collReduceScatter op
  | 2 => .collReduce op
  | 3 => .collBroadcast op
  | 4 => .collShift op
  | _ => .collPermute op

/-- A write of `w` to an offset of a block reaches it there and has bit 31 set: the trigger of the CLR and GO registers. -/
abbrev State.Triggers (s : State) (v : View) (b : Blk) (off : Nat) (w : Word) : Prop :=
  s.reaches v b off = true ∧ holdsReg v b off = true ∧ bitAt w.toNat 31 = true

end Sys2Proof.Machine
end

