-- ==== Sys2Proof/Certificates/Slice0/Obligations.lean ====
section
/-!
DEFINITION. The statements about this block, for the provers: the step and its frame, the invariants, reset, and what the
commands of each family leave, row by row. A clause about a command says that it completes with the state described.
-/

open Sys2Proof Sys2Proof.Machine

/-- The queue of commands (log entry 1: the model’s form of a block). -/
def Obligations.StepRunsFront : Prop :=
  ∀ (s : State) (c : Instr) (rest : List Instr), s.pending = c :: rest → step s = exec c { s with pending := rest }

/-- A tick on an empty queue (R462, R463); that it happens there is the model’s choice (log entry 1). -/
def Obligations.StepOnEmptyQueue : Prop :=
  ∀ s : State, s.pending = [] → ∃ t, step s = .next t ∧ t.pending = [] ∧
    (s.boot.porst = false → t.time.total = (s.time.total + s.inc) % timeRange ∧ t.time.ticks = s.time.ticks + 1) ∧
    (s.boot.porst = true → t.time = s.time) ∧ SameBut (reports ++ [.regs .pwr, .time, .power, .col, .tfb]) s t

/-- The frame of every command: nothing outside `touches c` changes (parts as Safety.lean lists them). -/
def Obligations.EveryCommandKeepsItsFrame : Prop :=
  ∀ (c : Instr) (s : State), Completes c s fun t => t.pending = s.pending ∧ SameBut (touches c) s t

/-- The counter’s fields stay in range (R462) and memory keeps its canonical form, whatever the step. -/
def Obligations.StepKeepsInvariant : Prop :=
  ∀ s t : State, s.Inv → step s = .next t → t.Inv

/-- Reset meets `State.Inv`. -/
def Obligations.ResetMeetsInvariant : Prop :=
  State.reset.Inv

/-- The state after power-on reset (R9: every field at its reset value; R62: from stage RESET; R469: ACQUIRE). -/
def Obligations.ResetValues : Prop :=
  State.reset.pending = [] ∧ State.reset.boot.porst = true ∧ State.reset.boot.railOrder = [] ∧
  State.reset.stage = 0 ∧ State.reset.fld Reg.MGT_READINESS_FAIL_CODE = 0 ∧
  State.reset.flag Reg.TIM_STATUS_TRACK = false ∧ State.reset.time.ticks = 0 ∧
  State.reset.mem.cells = [] ∧ State.reset.hif.ops = [] ∧ State.reset.rig.rigs = [] ∧ State.reset.plans = [] ∧
  State.reset.col.ops = [] ∧ State.reset.evr.ring = [] ∧ (∀ k : RegKey, State.reset.reg k = resetWord k) ∧
  (∀ v b, (State.reset.port v b).result = CommitResult.idle)

/-- POWER_ON_RESET, RAIL_GOOD_AT_POWER_UP, PORST_ASSERT and AON_LOSS (R38 to R42): the order in which rails become good is kept,
the straps are sampled once, and a reset leaves only the records in flash, the fused SVN and what the rail monitors know. -/
def Obligations.PowerUpRows : Prop :=
  (∀ (s : State) (x : Straps), s.boot.porst = true → s.boot.thermTrip = false → 0 ∈ s.boot.railOrder → Completes
    (.powerOnReset x) s fun t =>
      t.boot = { s.boot with porst := false } ∧ t.flag Reg.MGT_STRAP_STATUS_PCIE_X8 = x.pcieX8 ∧ t.fld
      Reg.MGT_STRAP_STATUS_RECOV = x.recov % 4 ∧ t.fld Reg.MGT_STRAP_STATUS_I3C_ADDR = x.i3cAddr % 8 ∧ t.flag
      Reg.MGT_STRAP_STATUS_TEST_REQ = x.test ∧ t.stage = s.stage ∧ s.SameRegsBut t .mgt [0x10] ∧ SameBut [.boot,
      .regs .mgt] s t) ∧
  (∀ (s : State) (r : Nat), s.boot.porst = true → r < 8 → r ∉ s.boot.railOrder → r = 0 ∨ 0 ∈ s.boot.railOrder →
    Completes (.railGoodAtPowerUp r) s fun t =>
      t.boot.railOrder = s.boot.railOrder ++ [r] ∧ t.boot.railSequenceBad = (s.boot.railSequenceBad || ((r == 2 || r
      == 3 || r == 4) && !(s.boot.railOrder.contains (r - 1)))) ∧ SameBut [.boot] s t) ∧
  (∀ (s : State) (r : Nat), s.boot.porst = true → r ≠ 0 → 0 ∉ s.boot.railOrder → Completes (.railGoodAtPowerUp r) s
    fun t =>
      t = s) ∧
  (∀ (s : State), Completes (.porstAssert) s fun t =>
      t.boot.porst = true ∧ t.boot.railOrder = s.boot.railOrder ∧ t.boot.thermTrip = s.boot.thermTrip ∧
      t.boot.svnBlown = s.boot.svnBlown ∧ t.regs = State.reset.regs ∧ t.hif = State.reset.hif ∧ t.mem =
      State.reset.mem ∧ t.lanes = State.reset.lanes ∧ t.line = State.reset.line ∧ t.swc = State.reset.swc ∧
      t.evr.ring = [] ∧ t.evr.flashRecs = s.evr.flashRecs) ∧
  (∀ (s : State), Completes (.aonLoss) s fun t =>
      t.boot.porst = true ∧ t.boot.railOrder = [] ∧ t.boot.thermTrip = false ∧ t.boot.svnBlown = s.boot.svnBlown ∧
      t.regs = State.reset.regs ∧ t.hif = State.reset.hif ∧ t.mem = State.reset.mem ∧ t.lanes = State.reset.lanes ∧
      t.line = State.reset.line ∧ t.swc = State.reset.swc ∧ t.evr.ring = [] ∧ t.evr.flashRecs = s.evr.flashRecs)

/-- STARTUP_STAGE_DONE, stage by stage (R62, R64 to R68, R71, R72): the result of the stage that is next completes it. -/
def Obligations.StartUpStages : Prop :=
  (∀ (s : State) (tok : Bytes), s.boot.porst = false → s.boot.stopped = false → s.boot.thermTrip = false → s.stage =
    0 → s.flag Reg.MGT_STRAP_STATUS_TEST_REQ = false → Completes (.startupStageDone (.fuses true tok)) s fun t =>
      t.stage = 1 ∧ t.boot.bootNonce.length = 32) ∧
  (∀ (s : State), s.boot.porst = false → s.boot.stopped = false → s.boot.thermTrip = false → s.stage = 1 → Completes
    (.startupStageDone .hostLink) s fun t =>
      t.stage = 2 ∧
      if s.strapRecov = 1 ∨ s.strapRecov = 2 ∨ s.boot.journalOpen = true then
        t.fld Reg.MGT_READINESS_FAIL_CODE = 5 ∧ t.boot.recov = if s.strapRecov = 2 then RecovWait.mge else RecovWait.pcie
      else t.fld Reg.MGT_READINESS_FAIL_CODE = s.fld Reg.MGT_READINESS_FAIL_CODE ∧ t.boot.recov = s.boot.recov) ∧
  (∀ (s : State) (img : Bytes), s.boot.porst = false → s.boot.stopped = false → s.boot.thermTrip = false → s.stage =
    2 → s.boot.recov = RecovWait.none → Completes (.startupStageDone (.image img)) s fun t =>
      match s.verifyImage img with
      | .accept i => t.stage = 3 ∧ t.boot.running = i ∧ t.boot.workImage = img.take i.len ∧
          t.fld Reg.MGT_READINESS_IMAGE_SOURCE = 0 ∧ t.fld Reg.MGT_READINESS_FAIL_CODE = 0
      | _ => t.stage = 2 ∧ t.fld Reg.MGT_READINESS_FAIL_CODE = 5 ∧ t.boot.recov = if s.strapRecov = 2 then RecovWait.mge else RecovWait.pcie) ∧
  (∀ (s : State), s.boot.porst = false → s.boot.stopped = false → s.boot.thermTrip = false → s.stage = 3 →
    s.boot.railSequenceBad = false → Completes (.startupStageDone .mgmt) s fun t =>
      t.stage = 4 ∧ t.boot.secretsLocked = true ∧ t.mgcActing = some 0 ∧ t.fld Reg.MGT_MGC_STATUS_ROLE1 = 2) ∧
  (∀ (s : State), s.boot.porst = false → s.boot.stopped = false → s.boot.thermTrip = false → s.stage = 4 → Completes
    (.startupStageDone (.hbm [])) s fun t =>
      t.stage = 5 ∧ t.boot.trustedGood = true ∧ t.boot.trustedImage = s.boot.workImage ∧ t.boot.workImage = []) ∧
  (∀ (s : State) (gib failed : List Nat), s.boot.porst = false → s.boot.stopped = false → s.boot.thermTrip = false →
    s.stage = 5 → Completes (.startupStageDone (.ddr gib failed)) s fun t =>
      t.stage = 6) ∧
  (∀ (s : State), s.boot.porst = false → s.boot.stopped = false → s.boot.thermTrip = false → s.stage = 6 → Completes
    (.startupStageDone (.core [])) s fun t =>
      t.stage = 7 ∧ (∀ n < 8, t.coxRole n = roleACTIVE ∧ t.coxSet n = n) ∧ t.coxRole 8 = roleSTANDBY ∧ t.coxSet 8 =
      0xF) ∧
  (∀ (s : State), s.boot.porst = false → s.boot.stopped = false → s.boot.thermTrip = false → s.stage = 7 → Completes
    (.startupStageDone .lanes) s fun t =>
      t.stage = 8) ∧
  (∀ (s : State), s.boot.porst = false → s.boot.stopped = false → s.boot.thermTrip = false → s.stage = 8 → Completes
    (.startupStageDone .ready) s fun t =>
      t.stage = 9)

/-- STARTUP_STAGE_DONE where the stage fails (R40, R65, R67): the code, the stage held, and start-up stopped until a power cycle. -/
def Obligations.StartUpFailures : Prop :=
  (∀ (s : State) (tok : Bytes), s.boot.porst = false → s.boot.stopped = false → s.boot.thermTrip = false → s.stage =
    0 → Completes (.startupStageDone (.fuses false tok)) s fun t =>
      t.stage = 0 ∧ t.fld Reg.MGT_READINESS_FAIL_CODE = 0x01 ∧ t.boot.stopped = true ∧ t.reg ⟨.mgt, 0x8, 0⟩ = 0 ∧
      t.reg ⟨.mgt, 0xC, 0⟩ = 0) ∧
  (∀ (s : State), s.boot.porst = false → s.boot.stopped = false → s.boot.thermTrip = false → s.stage = 3 →
    s.boot.railSequenceBad = true → Completes (.startupStageDone .mgmt) s fun t =>
      t.stage = 4 ∧ t.fld Reg.MGT_READINESS_FAIL_CODE = 0x06 ∧ t.boot.stopped = true) ∧
  (∀ (s : State) (failed : List Nat), s.boot.porst = false → s.boot.stopped = false → s.boot.thermTrip = false →
    s.stage = 4 → 32 < ((List.range 1024).filter failed.contains).length ∨ (List.range 16).any (fun k => decide (8 <
    ((List.range 1024).filter fun u => failed.contains u && u / 64 == k).length)) = true → Completes
    (.startupStageDone (.hbm failed)) s fun t =>
      t.stage = 4 ∧ t.fld Reg.MGT_READINESS_FAIL_CODE = 0x07 ∧ t.boot.stopped = true ∧ t.mem = s.mem) ∧
  (∀ (s : State) (failed : List Nat), s.boot.porst = false → s.boot.stopped = false → s.boot.thermTrip = false →
    s.stage = 6 → ((List.range 9).filter fun n => !failed.contains n).length < 8 → Completes (.startupStageDone (.core
    failed)) s fun t =>
      t.stage = 6 ∧ t.fld Reg.MGT_READINESS_FAIL_CODE = 0x08 ∧ t.boot.stopped = true)

/-- RECOV_WAIT_SWITCH, RECOV_OFFER, TFTP_STALL, RECOV_IMAGE_DONE and RECOV_GO (R72 to R74). -/
def Obligations.RecoveryRows : Prop :=
  (∀ (s : State), s.strapRecov = 0 → s.boot.tftpPeer = none → s.boot.recov = RecovWait.pcie → Completes
    (.recovWaitSwitch) s fun t =>
      t.boot = { s.boot with recov := RecovWait.mge, tftpPeer := none } ∧ t.out = (if s.railOk 6 then s.out ++
      [Out.mgeSolicit (s.reg ⟨.mgt, 0, 0⟩).toNat Config.serial s.svnFloor] else s.out) ∧ SameBut [.boot, .out] s t) ∧
  (∀ (s : State), s.strapRecov = 0 → s.boot.tftpPeer = none → s.boot.recov = RecovWait.mge → Completes
    (.recovWaitSwitch) s fun t =>
      t = { s with boot := { s.boot with recov := RecovWait.pcie } }) ∧
  (∀ (s : State), s.strapRecov = 1 ∨ s.strapRecov = 2 ∨ s.boot.tftpPeer.isSome = true → Completes (.recovWaitSwitch)
    s fun t =>
      t = s) ∧
  (∀ (s : State) (peer : Nat), s.boot.recov = RecovWait.mge → s.boot.tftpPeer = none → s.railOk 6 = true → Completes
    (.recovOffer peer) s fun t =>
      t = { s with boot := { s.boot with tftpPeer := some peer }, out := s.out ++ [Out.tftpRequest peer 8192] }) ∧
  (∀ (s : State) (peer : Nat), s.boot.tftpPeer.isSome = true → Completes (.recovOffer peer) s fun t =>
      t = s) ∧
  (∀ (s : State), s.boot.recov = RecovWait.mge → s.boot.tftpPeer.isSome = true → Completes (.tftpStall) s fun t =>
      t.boot = { s.boot with recov := RecovWait.mge, tftpPeer := none } ∧ s.Records t Ev.RECOV_REFUSED 0 0x32 ∧
      (s.railOk 6 = true → ∃ l, t.out = l ++ [Out.mgeSolicit (s.reg ⟨.mgt, 0, 0⟩).toNat Config.serial s.svnFloor]) ∧
      SameBut (.boot :: reports) s t) ∧
  (∀ (s : State) (img : Bytes), s.boot.recov = RecovWait.mge → s.boot.tftpPeer.isSome = true → s.railOk 6 = true →
    Completes (.recovImageDone img) s fun t =>
      match s.verifyImage img with
      | .accept i => t.stage = 3 ∧ t.boot.running = i ∧ t.boot.recov = RecovWait.none ∧ t.fld Reg.MGT_READINESS_IMAGE_SOURCE = 2
      | .bad => t.stage = s.stage ∧ t.boot.recov = RecovWait.mge ∧ t.boot.tftpPeer = none ∧ s.Records t Ev.RECOV_REFUSED 0 0x222
      | .rollback => t.stage = s.stage ∧ t.boot.recov = RecovWait.mge ∧ t.boot.tftpPeer = none ∧ s.Records t Ev.RECOV_REFUSED 0 0x322) ∧
  (∀ (s : State) (v : View) (w : Word) (img : Bytes), s.reaches v .mgt 0x38 = true → holdsReg v .mgt 0x38 = true →
    bitAt w.toNat 31 = true → s.fld Reg.MGT_READINESS_FAIL_CODE = 5 → s.boot.recov = RecovWait.pcie → Completes
    (.recovGo v w (some img)) s fun t =>
      if w.toNat % 65536 < 12 ∨ 49152 < w.toNat % 65536 then
        t.boot = s.boot ∧ t.stage = s.stage ∧ s.Records t Ev.RECOV_REFUSED 0 0x11
      else match s.verifyImage (img.take (w.toNat % 65536 * 1024)) with
        | .accept i => t.stage = 3 ∧ t.boot.running = i ∧ t.boot.recov = RecovWait.none ∧ t.fld Reg.MGT_READINESS_IMAGE_SOURCE = 1
        | .bad => t.boot = s.boot ∧ t.stage = s.stage ∧ s.Records t Ev.RECOV_REFUSED 0 0x221
        | .rollback => t.boot = s.boot ∧ t.stage = s.stage ∧ s.Records t Ev.RECOV_REFUSED 0 0x321) ∧
  (∀ (s : State) (v : View) (w : Word), s.reaches v .mgt 0x38 = true → holdsReg v .mgt 0x38 = true → bitAt w.toNat 31
    = true → s.fld Reg.MGT_READINESS_FAIL_CODE = 5 → s.boot.recov = RecovWait.pcie → 12 ≤ w.toNat % 65536 → w.toNat %
    65536 ≤ 49152 → Completes (.recovGo v w none) s fun t =>
      t.boot = s.boot ∧ t.stage = s.stage ∧ s.Records t Ev.RECOV_REFUSED 0 0x31)

/-- RAIL_FAULT, RAIL_GOOD and HBM_TRAIN_DONE (R46, R489, R497, ranges of R541). -/
def Obligations.RailRows : Prop :=
  (∀ (s : State) (r mv us : Nat), us ≤ 10 → Completes (.railFault r mv us) s fun t =>
      t = s) ∧
  (∀ (s : State) (r mv us : Nat), (railRange r).1 ≤ mv → mv ≤ (railRange r).2 → Completes (.railFault r mv us) s fun
    t =>
      t = s) ∧
  (∀ (s : State) (mv us : Nat), 10 < us → mv < 720 ∨ 780 < mv → Completes (.railFault 0 mv us) s fun t =>
      t.boot.porst = true ∧ t.boot.railOrder = [] ∧ t.boot.thermTrip = false ∧ t.regs = State.reset.regs ∧ t.mem =
      State.reset.mem ∧ t.hif = State.reset.hif ∧ t.lanes = State.reset.lanes ∧ t.line = State.reset.line ∧ t.swc =
      State.reset.swc ∧ t.evr.flashRecs = s.evr.flashRecs) ∧
  (∀ (s : State) (r mv us : Nat), 10 < us → 0 < r → r < 8 → mv < (railRange r).1 ∨ (railRange r).2 < mv → s.railOk r
    = true → s.boot.porst = true ∨ s.boot.thermTrip = true → Completes (.railFault r mv us) s fun t =>
      t = { s with boot := { s.boot with railOrder := without s.boot.railOrder r } }) ∧
  (∀ (s : State) (r mv us : Nat), 10 < us → 0 < r → r < 8 → mv < (railRange r).1 ∨ (railRange r).2 < mv → s.railOk r
    = true → s.boot.porst = false → s.boot.thermTrip = false → Completes (.railFault r mv us) s fun t =>
      t.boot.railFaults = s.boot.railFaults ++ [r] ∧ t.boot.railOrder = without s.boot.railOrder r ∧ t.railOk r = false ∧
      (r = 5 ∨ r = 7 → ∀ g, g < 64 → t.groupSt g = gsOFF) ∧ (r = 5 ∨ r = 6 → ∀ l, l < 64 → t.laneSt l = 0) ∧
      (r = 2 ∨ r = 3 ∨ r = 4 → t.mem.hbmReset = true)) ∧
  (∀ (s : State) (r : Nat), r ∈ s.boot.railFaults → r ≠ 5 → s.boot.porst = false → s.boot.thermTrip = false →
    Completes (.railGood r) s fun t =>
      t.boot.railFaults = without s.boot.railFaults r ∧ t.boot.railOrder = withElem s.boot.railOrder r ∧
      (r = 6 → ∀ l, l < 64 → t.laneOn l = true → t.laneSt l = 2) ∧
      (r = 7 → ∀ g, g < 64 → s.flag Reg.OPT_PG_CFG_ENABLE g = true → t.groupMayRun g = true → s.bypassedGroups.contains g = false →
        t.groupSt g = gsACQUIRING) ∧
      (r = 2 ∨ r = 3 ∨ r = 4 → t.railOk 2 = true → t.railOk 3 = true → t.railOk 4 = true → s.boot.railSequenceBad = false →
        t.power.hbmTrain = true)) ∧
  (∀ (s : State), Completes (.railGood 5) s fun t =>
      t = s) ∧
  (∀ (s : State) (failed : List Nat) (flash : Bytes), s.power.hbmTrain = true → s.coreOff = false →
    s.boot.railSequenceBad = false → Completes (.hbmTrainDone none failed flash) s fun t =>
      t.mem.hbmReset = false ∧ t.power.hbmTrain = false) ∧
  (∀ (s : State) (k : Nat) (failed : List Nat) (flash : Bytes), s.coreOff = false → k < 16 → s.unitState 2 k =
    unWAKING → s.power.entering.has (2, k) = true → Completes (.hbmTrainDone (some k) failed flash) s fun t =>
      t.unitState 2 k = unACTIVE ∧ t.power.entering.has (2, k) = false)

/-- SENSOR_SAMPLE, OE_TRIP_RELEASE, BAND_FALL, THERMAL_LOOP and THERMAL_CRITICAL_RELEASE (R43, R486 to R488, R504). -/
def Obligations.ThermalRows : Prop :=
  (∀ (s : State) (i : Nat) (v : Int), s.boot.porst = false → s.boot.thermTrip = false → s.mgmt.sensors = [] → i < 96
    → -640 ≤ v → v < 1712 → Completes (.sensorSample [⟨0, i, some v⟩]) s fun t =>
      t.mgmt.sensors = [((0, i), (⟨v, false⟩ : SensorVal))] ∧ t.fld Reg.PWR_TEMP_STATUS_TJ_MAX_C = celsius8 v ∧
      t.fld Reg.PWR_TEMP_STATUS_SENSOR = i ∧ t.fld Reg.PWR_TEMP_STATUS_BAND = max (s.fld Reg.PWR_TEMP_STATUS_BAND)
      (bandOf v) ∧ t.power.critical = s.power.critical ∧ t.boot.thermTrip = false) ∧
  (∀ (s : State) (i : Nat) (v : Int), s.boot.porst = false → s.boot.thermTrip = false → s.mgmt.sensors = [] →
    s.power.critical = false → i < 96 → 1712 ≤ v → v ≤ 2400 → Completes (.sensorSample [⟨0, i, some v⟩]) s fun t =>
      t.power.critical = true ∧ t.fld Reg.PWR_POWER_STATUS_ISSUE = min 32 (s.fld Reg.PWR_POWER_STATUS_ISSUE)) ∧
  (∀ (s : State) (i : Nat) (v : Int), s.boot.porst = false → s.boot.thermTrip = false → s.mgmt.sensors = [] → 1 ≤
    s.boot.tripReadings → i < 96 → 1840 ≤ v → v ≤ 2400 → Completes (.sensorSample [⟨0, i, some v⟩]) s fun t =>
      t.boot.thermTrip = true ∧ (∀ g, g < 64 → t.groupSt g = gsOFF) ∧ (∀ l, l < 64 → t.laneSt l = 0)) ∧
  (∀ (s : State) (g : Nat), s.coreOff = false → s.power.oeTrip.contains g = true → (s.sensor 1 g).fault = false →
    (s.sensor 1 g).value < 1200 → Completes (.oeTripRelease g) s fun t =>
      t.power.oeTrip = without s.power.oeTrip g ∧ (s.flag Reg.OPT_PG_CFG_ENABLE g = true → s.railOk 7 = true →
      s.bypassedGroups.contains g = false → t.groupSt g = gsACQUIRING)) ∧
  (∀ (s : State) (i : Nat) (x : Int) (k : Nat), s.boot.porst = false → s.hottest 0 = some (i, x) → s.fld
    Reg.PWR_TEMP_STATUS_BAND = k + 1 → x ≤ bandEdges.getD k 0 - 32 → Completes (.bandFall) s fun t =>
      t.fld Reg.PWR_TEMP_STATUS_BAND = k ∧ t.floorMv = s.fld Reg.PWR_VT_ENTRY_FLOOR_MV k) ∧
  (∀ (s : State), s.coreOff = false → ∀ e, s.thermalError = some e → e ≤ 0 → Completes (.thermalLoop) s fun t =>
      t.power.lth = min (s.power.lth + 10) 2200) ∧
  (∀ (s : State) (e : Rat), s.coreOff = false → s.thermalError = some e → 0 < e → Completes (.thermalLoop) s fun t =>
      t.power.lth = max (min s.power.lth (s.fld Reg.PWR_POWER_STATUS_EST_W) - 25 * e) 0) ∧
  (∀ (s : State) (i : Nat) (x : Int), s.boot.porst = false → s.hottest 0 = some (i, x) → s.power.critical = true → x
    < 1648 → Completes (.thermalCriticalRelease) s fun t =>
      t.power.critical = false)

/-- POWER_ESTIMATE, VOLTAGE_STEP, POWER_CALIBRATE, PACE_WINDOW, FLOOR_RAISE and ARB_GRANT (R51, R52, R56, R57, R183, R477 to
R484). -/
def Obligations.PowerLoopRows : Prop :=
  (∀ (s : State) (total bow stern : Nat), s.coreOff = false → Completes (.powerEstimate total bow stern) s fun t =>
      let est := if s.flag Reg.PWR_POWER_STATUS_CAL_FAIL then total else (s.power.gain * total).floor.toNat
      let pc := (s.power.gain * bow).floor.toNat + (s.power.gain * stern).floor.toNat
      let ca := slewStep pc s.power.ceiling s.power.allowance
      let cur := s.fld Reg.PWR_POWER_STATUS_ISSUE
      let want := min (issueCapOf est pc cur s.limitW) (issueSlewOf pc cur ca.1 ca.2)
      t.power.pcBow = (s.power.gain * bow).floor.toNat ∧ t.power.pcStern = (s.power.gain * stern).floor.toNat ∧
      t.power.ceiling = ca.1 ∧ t.power.allowance = ca.2 ∧ t.fld Reg.PWR_POWER_STATUS_EST_W = min (est / 1000) 4095 ∧
      t.fld Reg.PWR_POWER_STATUS_ISSUE =
        nextIssue cur (if s.power.critical then min 32 want else want) (s.setPoint.coreMv == s.setPoint.targetMv)) ∧
  (∀ (s : State), s.coreOff = false → 250 ≤ s.power.overFor → s.lowestMv < s.coreMv → Completes (.voltageStep) s fun
    t =>
      t.power.cut = s.power.cut + 5 ∧ t.power.overFor = s.power.overFor - 250 ∧ t.coreMv = if s.power.critical then
      s.lowestMv else max s.lowestMv (s.targetMv - (s.power.cut + 5))) ∧
  (∀ (s : State), s.coreOff = false → 250 ≤ s.power.overFor → s.coreMv ≤ s.lowestMv → Completes (.voltageStep) s fun
    t =>
      t.power.cut = s.power.cut ∧ t.power.overFor = s.power.overFor - 250 ∧ t.coreMv = if s.power.critical then
      s.lowestMv else max s.lowestMv (s.targetMv - s.power.cut)) ∧
  (∀ (s : State), s.coreOff = false → s.power.overFor < 250 → 250 ≤ s.power.underFor → Completes (.voltageStep) s fun
    t =>
      t.power.cut = s.power.cut - 5 ∧ t.power.underFor = s.power.underFor - 250 ∧ t.coreMv = if s.power.critical
      then s.lowestMv else max s.lowestMv (s.targetMv - (s.power.cut - 5))) ∧
  (∀ (s : State) (meas est : Nat), 4 ≤ s.stage → s.mgmt.down = false → s.coreOff = false → s.upState ≠ upHANDOVER →
    est ≠ 0 → (4 / 5 : Rat) ≤ meas / est → (meas / est : Rat) ≤ 5 / 4 → Completes (.powerCalibrate meas est false) s
    fun t =>
      t.power.gain = s.power.gain + ((meas : Rat) / est - s.power.gain) / 4 ∧ t.power.calFails = 0 ∧
      t.power.calPasses = s.power.calPasses + 1) ∧
  (∀ (s : State) (meas est : Nat) (fault : Bool), 4 ≤ s.stage → s.mgmt.down = false → s.coreOff = false → s.upState ≠
    upHANDOVER → fault = true ∨ est = 0 ∨ (meas / est : Rat) < 4 / 5 ∨ (5 / 4 : Rat) < meas / est → Completes
    (.powerCalibrate meas est fault) s fun t =>
      t.power.gain = s.power.gain ∧ t.power.calFails = s.power.calFails + 1 ∧ t.power.calPasses = 0 ∧ t.fld
      Reg.PWR_CAL_STATUS_FAILS = satAdd 0xFFFF (s.fld Reg.PWR_CAL_STATUS_FAILS) 1) ∧
  (∀ (s : State) (kind i mtps : Nat), s.coreOff = false → i < paceCount kind → Completes (.paceWindow kind i mtps) s
    fun t =>
      t.fld Reg.PWR_PACE_VALUE_CUR_MTPS (i + 256 * kind) = min mtps 65535 ∧ t.fld Reg.PWR_PACE_VALUE_MIN_MTPS (i +
      256 * kind) = min (s.fld Reg.PWR_PACE_VALUE_MIN_MTPS (i + 256 * kind)) mtps) ∧
  (∀ (s : State), s.paceLow = true → s.coreOff = false → s.floorMv ≤ s.coreMv → (s.fld Reg.PWR_VT_ENTRY_FLOOR_MV
    (s.fld Reg.PWR_TEMP_STATUS_BAND)) + 5 ≤ 900 → Completes (.floorRaise) s fun t =>
      t.fld Reg.PWR_VT_ENTRY_FLOOR_MV (s.fld Reg.PWR_TEMP_STATUS_BAND) = (s.fld Reg.PWR_VT_ENTRY_FLOOR_MV (s.fld
      Reg.PWR_TEMP_STATUS_BAND)) + 5 ∧ t.floorMv = (s.fld Reg.PWR_VT_ENTRY_FLOOR_MV (s.fld
      Reg.PWR_TEMP_STATUS_BAND)) + 5 ∧ s.Records t Ev.FLOOR_RAISED (s.fld Reg.PWR_TEMP_STATUS_BAND) ((s.fld
      Reg.PWR_VT_ENTRY_FLOOR_MV (s.fld Reg.PWR_TEMP_STATUS_BAND)) + 5)) ∧
  (∀ (s : State), s.paceLow = true → s.coreOff = false → s.floorMv ≤ s.coreMv → 900 < (s.fld
    Reg.PWR_VT_ENTRY_FLOOR_MV (s.fld Reg.PWR_TEMP_STATUS_BAND)) + 5 → s.flag Reg.PWR_VFLOOR_STATUS_PACE_FAIL = false →
    Completes (.floorRaise) s fun t =>
      t.flag Reg.PWR_VFLOOR_STATUS_PACE_FAIL = true ∧ t.fld Reg.PWR_VT_ENTRY_FLOOR_MV (s.fld
      Reg.PWR_TEMP_STATUS_BAND) = (s.fld Reg.PWR_VT_ENTRY_FLOOR_MV (s.fld Reg.PWR_TEMP_STATUS_BAND)) ∧ s.Records t
      Ev.PACE_FAIL (s.fld Reg.PWR_TEMP_STATUS_BAND) 0) ∧
  (∀ (s : State) (res inst blocked passed : Nat) (reqs : List ArbReq) (delayed : List Nat) (r : ArbReq), res ≤ 8 →
    s.coreOff = false → arbChoose (fun x => s.arbClass x.src) (s.power.arbPassed.getD (res, inst) 0) (fun c =>
    s.power.arbLast.getD (res, inst, c) 65535) (reqs.filter fun x => freeFirst res reqs != some x) = some (r, passed)
    → Completes (.arbGrant res inst reqs blocked delayed) s fun t =>
      t.power.arbPassed.find (res, inst) = some passed ∧ t.power.arbLast.find (res, inst, s.arbClass r.src) = some
      r.port ∧ Out.grant res inst (s.arbClass r.src) r.port ∈ t.out ∧ ∀ f, freeFirst res reqs = some f → Out.grant
      res inst (s.arbClass f.src) f.port ∈ t.out)

/-- UNIT_IDLE_NAP, UNIT_IDLE_OFF, UNIT_STATE_ENTERED, UNIT_WAKE, UNIT_POWER, HBM_WATCH_SAMPLE, ALARM_FIRE and ALARM_HOLD_EXPIRE
(R489 to R495). -/
def Obligations.UnitRows : Prop :=
  (∀ (s : State) (kind i : Nat), kind ≤ 3 → i < unitCount kind → s.power.forced.find (kind, i) = none → s.unitHolder
    kind i = none → s.unitState kind i = unACTIVE → s.coreOff = false → Completes (.unitIdleNap kind i) s fun t =>
      match s.entryCause kind i unNAP with
      | none => t.unitState kind i = unENTERING ∧ t.power.entering.find (kind, i) = some unNAP
      | some c => t.fld Reg.PWR_UNIT_STATE_LAST_CAUSE (unitInst kind i) = c % 16 ∧ t.unitState kind i = unACTIVE ∧
          t.fld Reg.PWR_UNIT_REFUSE_REFUSED (unitInst kind i) = satAdd 0xFFFF (s.fld Reg.PWR_UNIT_REFUSE_REFUSED (unitInst kind i)) 1) ∧
  (∀ (s : State) (kind i : Nat), kind ≤ 2 → i < unitCount kind → s.power.forced.find (kind, i) = none → s.unitHolder
    kind i = none → s.unitState kind i = unACTIVE ∨ s.unitState kind i = unNAP → s.coreOff = false → Completes
    (.unitIdleOff kind i) s fun t =>
      match s.entryCause kind i (if kind = 2 then unWATCH else unOFF) with
      | none => t.unitState kind i = unENTERING ∧ t.power.entering.find (kind, i) = some (if kind = 2 then unWATCH else unOFF)
      | some c => t.fld Reg.PWR_UNIT_STATE_LAST_CAUSE (unitInst kind i) = c % 16 ∧ t.unitState kind i = s.unitState kind i ∧
          t.fld Reg.PWR_UNIT_REFUSE_REFUSED (unitInst kind i) = satAdd 0xFFFF (s.fld Reg.PWR_UNIT_REFUSE_REFUSED (unitInst kind i)) 1) ∧
  (∀ (s : State) (kind i st : Nat), s.coreOff = false → kind ≤ 3 → s.unitState kind i = unENTERING →
    s.power.entering.find (kind, i) = some st → st ≤ 3 → Completes (.unitStateEntered kind i) s fun t =>
      t.unitState kind i = st ∧ t.power.entering.has (kind, i) = false ∧ t.fld Reg.PWR_UNIT_STATE_ENTRIES (unitInst
      kind i) = satAdd 0xFFFF (s.fld Reg.PWR_UNIT_STATE_ENTRIES (unitInst kind i)) 1) ∧
  (∀ (s : State) (kind i : Nat), s.coreOff = false → kind ≤ 3 → s.unitState kind i = unWAKING → s.power.entering.has
    (kind, i) = false → Completes (.unitStateEntered kind i) s fun t =>
      t.unitState kind i = unACTIVE) ∧
  (∀ (s : State) (kind i : Nat), s.coreOff = false → kind ≤ 3 → i < unitCount kind → s.unitState kind i = unNAP ∨
    s.unitState kind i = unWATCH ∨ s.unitState kind i = unOFF → Completes (.unitWake kind i) s fun t =>
      t.unitState kind i = unWAKING) ∧
  (∀ (s : State) (kind i : Nat), s.coreOff = false → kind ≤ 3 → i < unitCount kind → s.unitState kind i = unENTERING
    → Completes (.unitWake kind i) s fun t =>
      t.unitState kind i = unWAKING ∧ t.power.entering.find (kind, i) = none ∧ t.fld Reg.PWR_UNIT_STATE_LAST_CAUSE
      (unitInst kind i) = 8 ∧ t.fld Reg.PWR_UNIT_REFUSE_ABORTED (unitInst kind i) = satAdd 0xFFFF (s.fld
      Reg.PWR_UNIT_REFUSE_ABORTED (unitInst kind i)) 1) ∧
  (∀ (s : State) (op : OpKey) (o : Op), s.Ready op o → isMgmt 0x000F o.desc = true → o.fn = 0 → bitsOf (mParam0
    o.desc) 0 3 = 3 ∨ 4 < bitsOf (mParam0 o.desc) 0 3 ∨ unitCount (bitsOf (mParam0 o.desc) 0 3) ≤ bitsOf (mParam0
    o.desc) 3 8 ∨ (bitsOf (mParam0 o.desc) 0 3 = 4 ∧ bitsOf (mParam0 o.desc) 12 2 = 3) → Completes (.unitPower op) s
    fun t =>
      t.endedWith op stBAD_FIELD = true ∧ SameBut [.hif] s t) ∧
  (∀ (s : State) (op : OpKey) (o : Op) (kind i : Nat), s.Ready op o → isMgmt 0x000F o.desc = true → o.fn = 0 → kind =
    bitsOf (mParam0 o.desc) 0 3 → i = bitsOf (mParam0 o.desc) 3 8 → i < unitCount kind → kind ≠ 3 → kind ≤ 4 → bitsOf
    (mParam0 o.desc) 12 2 = 0 → Completes (.unitPower op) s fun t =>
      t.endedWith op stOK = true ∧ t.power.forced.has (kind, i) = false ∧ t.flag Reg.PWR_UNIT_STATE_FORCED (unitInst
      kind i) = false) ∧
  (∀ (s : State) (op : OpKey) (o : Op) (kind i : Nat), s.Ready op o → isMgmt 0x000F o.desc = true → o.fn = 0 → kind =
    bitsOf (mParam0 o.desc) 0 3 → i = bitsOf (mParam0 o.desc) 3 8 → i < unitCount kind → kind ≤ 2 → bitsOf (mParam0
    o.desc) 12 2 = 1 → Completes (.unitPower op) s fun t =>
      t.power.forced.find (kind, i) = some 1 ∧ t.flag Reg.PWR_UNIT_STATE_FORCED (unitInst kind i) = true ∧
      (s.unitState kind i = unACTIVE → t.endedWith op stOK = true ∧ t.unitState kind i = unACTIVE) ∧ (s.unitState
      kind i = unNAP ∨ s.unitState kind i = unWATCH ∨ s.unitState kind i = unOFF → t.unitState kind i = unWAKING ∧
      t.power.forcedWait.find (kind, i) = some op)) ∧
  (∀ (s : State) (op : OpKey) (o : Op) (kind i : Nat) (goal c : Nat), s.Ready op o → isMgmt 0x000F o.desc = true →
    o.fn = 0 → kind = bitsOf (mParam0 o.desc) 0 3 → i = bitsOf (mParam0 o.desc) 3 8 → i < unitCount kind → kind ≤ 2 →
    (bitsOf (mParam0 o.desc) 12 2 = 2 ∧ goal = unNAP) ∨ (bitsOf (mParam0 o.desc) 12 2 = 3 ∧ goal = unOFF) →
    s.entryCause kind i goal = some c → Completes (.unitPower op) s fun t =>
      t.endedWith op stBAD_FIELD = true ∧ t.unitState kind i = s.unitState kind i ∧ t.fld
      Reg.PWR_UNIT_STATE_LAST_CAUSE (unitInst kind i) = c % 16 ∧ t.fld Reg.PWR_UNIT_REFUSE_REFUSED (unitInst kind i)
      = satAdd 0xFFFF (s.fld Reg.PWR_UNIT_REFUSE_REFUSED (unitInst kind i)) 1) ∧
  (∀ (s : State) (op : OpKey) (o : Op) (kind i : Nat) (goal : Nat), s.Ready op o → isMgmt 0x000F o.desc = true → o.fn
    = 0 → kind = bitsOf (mParam0 o.desc) 0 3 → i = bitsOf (mParam0 o.desc) 3 8 → i < unitCount kind → kind ≤ 2 →
    (bitsOf (mParam0 o.desc) 12 2 = 2 ∧ goal = unNAP) ∨ (bitsOf (mParam0 o.desc) 12 2 = 3 ∧ goal = unOFF) →
    s.entryCause kind i goal = none → Completes (.unitPower op) s fun t =>
      t.power.forced.find (kind, i) = some (bitsOf (mParam0 o.desc) 12 2) ∧ t.flag Reg.PWR_UNIT_STATE_FORCED
      (unitInst kind i) = true ∧ (s.unitState kind i = goal → t.endedWith op stOK = true ∧ t.unitState kind i =
      goal) ∧ (s.unitState kind i ≠ goal → t.unitState kind i = unENTERING ∧ t.power.entering.find (kind, i) = some
      goal ∧ t.power.forcedWait.find (kind, i) = some op)) ∧
  (∀ (s : State) (op : OpKey) (o : Op) (i : Nat), s.Ready op o → isMgmt 0x000F o.desc = true → o.fn = 0 → bitsOf
    (mParam0 o.desc) 0 3 = 4 → i = bitsOf (mParam0 o.desc) 3 8 → i < 64 → s.laneOn i = true → (bitsOf (mParam0 o.desc)
    12 2 = 1 ∧ s.laneSt i = 1) ∨ (bitsOf (mParam0 o.desc) 12 2 = 2 ∧ s.entryCause 4 i unNAP = none) → Completes
    (.unitPower op) s fun t =>
      t.endedWith op stOK = true ∧ t.power.forced.find (4, i) = some (bitsOf (mParam0 o.desc) 12 2) ∧ t.laneSt i =
      if bitsOf (mParam0 o.desc) 12 2 = 1 then 2 else 1) ∧
  (∀ (s : State) (k : Nat) (x : Int), s.coreOff = false → k < 16 → s.unitState 2 k = unWATCH → 1520 ≤ x → Completes
    (.hbmWatchSample k x) s fun t =>
      t.unitState 2 k = unWAKING ∧ k ∈ t.power.hbmHot ∧ t.sensor 5 k = (⟨x, false⟩ : SensorVal)) ∧
  (∀ (s : State) (k : Nat) (x : Int), s.coreOff = false → k < 16 → s.unitState 2 k = unWATCH → x < 1520 → Completes
    (.hbmWatchSample k x) s fun t =>
      t.unitState 2 k = unWATCH ∧ t.sensor 5 k = (⟨x, false⟩ : SensorVal) ∧ SameBut [.mgmt] s t) ∧
  (∀ (s : State) (a : Nat), s.coreOff = false → s.power.armed.contains a = true → s.reached (s.alarmTime a) = true →
    a < 8 → Completes (.alarmFire a) s fun t =>
      a ∉ t.power.armed ∧ t.fld { Reg.PWR_ALARM_STATUS_FIRED with lsb := a, width := 1 } = 1 ∧
      (∀ u ∈ s.alarmUnits a, s.unitState u.1 u.2 = unNAP ∨ s.unitState u.1 u.2 = unWATCH ∨ s.unitState u.1 u.2 = unOFF →
        t.unitState u.1 u.2 = unWAKING) ∧
      (s.fld Reg.PWR_ALARM_CFG_HOLD_10MS a = 0 → t.power.held = s.power.held) ∧
      (s.fld Reg.PWR_ALARM_CFG_HOLD_10MS a ≠ 0 → ∀ u, (a, u) ∈ t.power.held ↔ u ∈ s.alarmUnits a)) ∧
  (∀ (s : State) (a : Nat), s.coreOff = false → Completes (.alarmHoldExpire a) s fun t =>
      t = { s with power := { s.power with held := s.power.held.filter (·.1 != a) } })

/-- REG_WRITE and REG_ACCESS_BAD (R79 to R86, R97, R100): what the write reaches, and what an access that is refused leaves. -/
def Obligations.RegisterWrites : Prop :=
  (∀ (s : State) (v : View) (b : Blk) (off o : Nat) (w : Word) (d : RegDef), viewLocate v off = some (b, o) →
    s.reaches v b o = true → holdsReg v b o = true → isCommonReg o = false → regDefAt b o = some d → d.fields.any
    (fieldWritable v b d) = true → Completes (.regWrite v (.setup off) w) s fun t =>
      t.reg ⟨b, o, s.instOf b d⟩ =
        BitVec.ofNat 32 (writeFields d.fields actsAtOnce (s.reg ⟨b, o, s.instOf b d⟩).toNat w.toNat) ∧
      t.shadowReg v b o = BitVec.ofNat 32 (writeFields d.fields (toShadow v b d) (s.shadowReg v b o).toNat w.toNat) ∧
      (∀ k : RegKey, k ≠ ⟨b, o, s.instOf b d⟩ → t.reg k = s.reg k) ∧
      (∀ v' b' o', (b', o', viewInst v') ≠ (b, o, viewInst v) → t.shadowReg v' b' o' = s.shadowReg v' b' o') ∧
      (∀ v' b', t.port v' b' = s.port v' b') ∧ SameBut [.regs b, .counters, .setup] s t) ∧
  (∀ (s : State) (v : View) (b : Blk) (off o : Nat) (w : Word) (d : RegDef), viewLocate v off = some (b, o) →
    s.reaches v b o = true → holdsReg v b o = true → isCommonReg o = false → regDefAt b o = some d → d.fields.any
    (fieldWritable v b d) = false → Completes (.regWrite v (.setup off) w) s fun t =>
      (t.port v b).errRoWrite = true ∧ (t.port v b).errCount = satAdd 0xFFFF (s.port v b).errCount 1 ∧ SameBut
      [.setup] s t) ∧
  (∀ (s : State) (v : View) (off : Nat) (w : Word), off ≠ 0xE000 → ∀ b o, viewLocate v off = some (b, o) → s.reaches
    v b o = true → holdsReg v b o = false → Completes (.regWrite v (.setup off) w) s fun t =>
      t = s) ∧
  (∀ (s : State) (v : View) (b : Blk) (off : Nat) (w : Word), viewLocate v off = some (b, 0xFF004) → s.reaches v b
    0xFF004 = true → v = .host ∨ v = .mgmt → Completes (.regWrite v (.setup off) w) s fun t =>
      t = s.setReg ⟨b, 0xFF004, 0⟩ w) ∧
  (∀ (s : State) (v : View) (b : Blk) (off : Nat) (w : Word), viewLocate v off = some (b, 0xFF014) → s.reaches v b
    0xFF014 = true → Completes (.regWrite v (.setup off) w) s fun t =>
      t.port v b = { s.port v b with mask := w.toNat } ∧ SameBut [.setup] s t) ∧
  (∀ (s : State) (vf : Nat) (w : Word), s.reaches (.vf vf) .hif 0 = true → Completes (.regWrite (.vf vf) (.setup
    0xE000) w) s fun t =>
      t = { s with view := { s.view with sel := s.view.sel.put vf w } }) ∧
  (∀ (s : State) (v : View) (page n : Nat) (w : Word), s.pageRing v page = some n → Completes (.regWrite v (.page
    page 8) w) s fun t =>
      t = s.setRing n (if (s.ring n).kind = kindNQ then
          { s.ring n with nqUnderrun := (s.ring n).nqUnderrun && !bitAt w.toNat 12 }
        else { s.ring n with
          dbRange := (s.ring n).dbRange && !bitAt w.toNat 19, dbDisabled := (s.ring n).dbDisabled && !bitAt w.toNat 20,
          cqFull := (s.ring n).cqFull && !bitAt w.toNat 21 })) ∧
  (∀ (s : State) (v : View) (fn vec word : Nat) (w : Word), s.msixFn v = some fn → vec < msixVectors fn → word < 4 →
    Completes (.regWrite v (.msix (16 * vec + 4 * word)) w) s fun t =>
      t.msixEntry fn vec = (match word with
        | 0 => { s.msixEntry fn vec with addrLo := w }
        | 1 => { s.msixEntry fn vec with addrHi := w }
        | 2 => { s.msixEntry fn vec with data := w }
        | _ => { s.msixEntry fn vec with masked := bitAt w.toNat 0 }) ∧
      (word = 3 → bitAt w.toNat 0 = false → (fn, vec) ∈ s.hif.msixPending → fn ∉ s.hif.d3hot → (fn, vec) ∉ t.hif.msixPending ∧
        t.out = s.out ++ [Out.msix fn vec ((s.msixEntry fn vec).addrLo.toNat + 2 ^ 32 * (s.msixEntry fn vec).addrHi.toNat)
          (s.msixEntry fn vec).data]) ∧ SameBut [.hif, .out] s t) ∧
  (∀ (s : State) (v : View) (b : Blk) (off bytes : Nat) (enabled write : Bool), goodAccess off bytes enabled write =
    false → s.touchesReg v off bytes = some b → Completes (.regAccessBad v (.setup off) ⟨bytes, enabled⟩ write) s fun
    t =>
      (t.port v b).errSize = true ∧ (t.port v b).errCount = satAdd 0xFFFF (s.port v b).errCount 1 ∧ t.out = (if
      write then s.out else s.out ++ [Out.reply v 0]) ∧ SameBut [.setup, .out] s t) ∧
  (∀ (s : State) (v : View) (off bytes : Nat) (enabled write : Bool), goodAccess off bytes enabled write = false →
    s.touchesReg v off bytes = none → Completes (.regAccessBad v (.setup off) ⟨bytes, enabled⟩ write) s fun t =>
      t = { s with out := if write then s.out else s.out ++ [Out.reply v 0] }) ∧
  (∀ (s : State) (v : View) (page off bytes : Nat) (enabled write : Bool), goodAccess off bytes enabled write = false
    → Completes (.regAccessBad v (.page page off) ⟨bytes, enabled⟩ write) s fun t =>
      t = { s with out := if write then s.out else s.out ++ [Out.reply v 0] }) ∧
  (∀ (s : State) (v : View) (off bytes : Nat) (enabled write : Bool), goodAccess off bytes enabled write = false →
    Completes (.regAccessBad v (.msix off) ⟨bytes, enabled⟩ write) s fun t =>
      t = { s with out := if write then s.out else s.out ++ [Out.reply v 0] })

/-- COMMIT_GO, COMMIT_CHECK_END, COMMIT_BOUNDARY, COMMIT_ABANDON and ACCESS_ERR_WRITE (R7, R86 to R92). -/
def Obligations.CommitRows : Prop :=
  (∀ (s : State) (v : View) (b : Blk) (w : Word), s.portReached v b 0xFF010 = true → bitAt w.toNat 0 = true → bitAt
    w.toNat 1 = false → (s.port v b).result ≠ CommitResult.checking → (s.port v b).mask ≠ 0 → Completes (.commitGo v b
    w) s fun t =>
      (t.port v b).result = CommitResult.checking ∧ (t.port v b).captured = some ((s.port v b).mask, s.capture v b
      (s.port v b).mask) ∧ (t.port v b).readSel = bitAt w.toNat 8 ∧ SameBut [.setup] s t) ∧
  (∀ (s : State) (v : View) (b : Blk) (w : Word), s.portReached v b 0xFF010 = true → bitAt w.toNat 0 = true → bitAt
    w.toNat 1 = false → (s.port v b).result ≠ CommitResult.checking → (s.port v b).mask = 0 → Completes (.commitGo v b
    w) s fun t =>
      (t.port v b).result = CommitResult.empty ∧ (t.port v b).seq = (s.port v b).seq ∧ SameBut [.setup] s t) ∧
  (∀ (s : State) (v : View) (b : Blk) (w : Word), s.portReached v b 0xFF010 = true → bitAt w.toNat 0 = true → bitAt
    w.toNat 1 = false → (s.port v b).result = CommitResult.checking → Completes (.commitGo v b w) s fun t =>
      (t.port v b).result = CommitResult.checking ∧ (t.port v b).captured = (s.port v b).captured ∧ (t.port v
      b).errGoLost = true ∧ (t.port v b).errCount = satAdd 0xFFFF (s.port v b).errCount 1 ∧ SameBut [.setup] s t) ∧
  (∀ (s : State) (v : View) (b : Blk) (busy : Bool) (mask : Nat) (c : AMap Nat Word), (s.port v b).result =
    CommitResult.checking → (s.port v b).captured = some (mask, c) → Completes (.commitCheckEnd v b busy) s fun t =>
      match s.commitFail v b mask c with
      | some f => (t.port v b).result = CommitResult.refused ∧ (t.port v b).errGroup = f.group ∧ (t.port v b).errCode = f.code ∧
          (t.port v b).errOff = f.off ∧ (t.port v b).errLsb = f.lsb ∧ (t.port v b).captured = none ∧
          (t.port v b).seq = ((s.port v b).seq + 1) % 65536 ∧
          s.Records t Ev.COMMIT_REFUSED 0
            (blkCode b + f.group * 2 ^ 8 + f.code * 2 ^ 16 + ((s.port v b).seq + 1) % 65536 * 2 ^ 32) ∧
          SameBut (reports ++ [.setup]) s t
      | none => (t.port v b).result = CommitResult.accepted ∧ (t.port v b).captured = none ∧
          (t.port v b).seq = ((s.port v b).seq + 1) % 65536 ∧
          ∀ g ∈ maskGroups mask, s.groupWaits b g c busy = true → (t.port v b).pend.has g = true) ∧
  (∀ (s : State) (v : View) (b : Blk) (g : Nat) (c : AMap Nat Word), (s.port v b).pend.find g = some c → Completes
    (.commitBoundary v b g) s fun t =>
      (t.port v b).pend.has g = false ∧ (t.port v b).result = (s.port v b).result) ∧
  (∀ (s : State) (v : View) (b : Blk) (g : Nat) (c : AMap Nat Word), (s.port v b).pend.find g = some c →
    groupBoundary b g = Boundary.unit → b ≠ .lsc → Completes (.commitBoundary v b g) s fun t =>
      ∀ o ∈ groupOffs b g, ∀ d, regDefAt b o = some d →
        t.reg ⟨b, o, s.capInst v c d⟩ = BitVec.ofNat 32
          (writeFields d.fields (fun f => f.acc == .rws) (s.reg ⟨b, o, s.capInst v c d⟩).toNat (c.getD o 0).toNat)) ∧
  (∀ (s : State) (v : View) (b : Blk) (w : Word), s.portReached v b 0xFF010 = true → bitAt w.toNat 0 = false → bitAt
    w.toNat 1 = true → (s.port v b).result ≠ CommitResult.checking → Completes (.commitAbandon v b w) s fun t =>
      (∀ g ∈ maskGroups (s.port v b).mask, groupOwned v b g = true → (s.port v b).pend.has g = false →
          ∀ o ∈ groupOffs b g, t.shadowReg v b o = s.liveReg v b o) ∧ SameBut [.setup] s t) ∧
  (∀ (s : State) (v : View) (b : Blk) (w : Word), s.portReached v b 0xFF024 = true → Completes (.accessErrWrite v b
    w) s fun t =>
      (t.port v b).errSize = ((s.port v b).errSize && !bitAt w.toNat 0) ∧
      (t.port v b).errRoWrite = ((s.port v b).errRoWrite && !bitAt w.toNat 1) ∧
      (t.port v b).errGoLost = ((s.port v b).errGoLost && !bitAt w.toNat 2) ∧
      (t.port v b).errCount =
        (if (t.port v b).errSize = true ∨ (t.port v b).errRoWrite = true ∨ (t.port v b).errGoLost = true then (s.port v b).errCount
         else 0) ∧ SameBut [.setup] s t)

/-- DOORBELL, FUNCTION_D3HOT, FUNCTION_D0, VF_FLR, VF_ENABLE and IDE_KM (R97 to R107, R123, R449). -/
def Obligations.DoorbellRows : Prop :=
  (∀ (s : State) (v : View) (page n : Nat) (w : Word), s.coreOff = false → s.pageRing v page = some n → (s.ring
    n).enabled = true → isSubmission (s.ring n).kind = true → w.toNat % 65536 < s.ringSize n → w.toNat % 65536 ≠
    (s.ring n).host → Completes (.doorbell v page w) s fun t =>
      t.ring n = { s.ring n with host := w.toNat % 65536 } ∧ ((t.intake (queueSet n)).fill.any fun x => x.ring == n)
      = true ∧ SameBut [.hif] s t) ∧
  (∀ (s : State) (v : View) (page n : Nat) (w : Word), s.coreOff = false → s.pageRing v page = some n → (s.ring
    n).enabled = true → (s.ring n).kind ≠ kindNQ → w.toNat % 65536 < s.ringSize n → w.toNat % 65536 = (s.ring n).host
    → Completes (.doorbell v page w) s fun t =>
      t = s) ∧
  (∀ (s : State) (v : View) (page n : Nat) (w : Word), s.coreOff = false → s.pageRing v page = some n → (s.ring
    n).enabled = true → (s.ring n).kind = kindCQ ∨ (s.ring n).kind = kindEVM → w.toNat % 65536 < s.ringSize n →
    Completes (.doorbell v page w) s fun t =>
      t.ring n = { s.ring n with host := w.toNat % 65536 } ∧ t.hif.intakes = s.hif.intakes ∧ SameBut [.hif] s t) ∧
  (∀ (s : State) (v : View) (page n : Nat) (w : Word), s.coreOff = false → s.pageRing v page = some n → (s.ring
    n).enabled = true → (s.ring n).kind ≠ kindNQ → s.ringSize n ≤ w.toNat % 65536 → Completes (.doorbell v page w) s
    fun t =>
      t = s.setRing n { s.ring n with dbRange := true }) ∧
  (∀ (s : State) (v : View) (page n : Nat) (w : Word), s.coreOff = false → s.pageRing v page = some n → (s.ring
    n).enabled = false → Completes (.doorbell v page w) s fun t =>
      t = s.setRing n { s.ring n with dbDisabled := true }) ∧
  (∀ (s : State) (fn : Nat), s.coreOff = false → Completes (.functionD3hot fn) s fun t =>
      fn ∈ t.hif.d3hot ∧ (∀ n, s.ringFn n = fn → t.ringHeld n = true) ∧ SameBut [.hif] s t) ∧
  (∀ (s : State) (fn : Nat), s.coreOff = false → Completes (.functionD0 fn) s fun t =>
      fn ∉ t.hif.d3hot ∧ (∀ m ∈ t.hif.msixHeld, m.1 ≠ fn) ∧
      (∀ vec, (fn, vec) ∈ s.hif.msixHeld → (s.msixEntry fn vec).masked = false →
        Out.msix fn vec ((s.msixEntry fn vec).addrLo.toNat + 2 ^ 32 * (s.msixEntry fn vec).addrHi.toNat) (s.msixEntry fn vec).data ∈
          t.out) ∧
      (∀ n ∈ s.hif.rings.map (·.1), s.ringFn n = fn → s.hasWork n = true →
        ((t.intake (queueSet n)).fill.any fun x => x.ring == n) = true)) ∧
  (∀ (s : State) (vf : Nat), s.coreOff = false → vf ≠ 0 → vf ∈ s.hif.vfs → Completes (.vfFlr vf) s fun t =>
      ∀ n, s.ringFn n = vf → (t.ring n).enabled = false ∧ (t.ring n).taken = [] ∧ (t.ring n).aborted = []) ∧
  (∀ (s : State) (vf : Nat), s.coreOff = false → vf ≠ 0 → vf ∈ s.hif.vfs → s.col.ops = [] → s.outer.shards = [] →
    s.tpt.parked = [] → Completes (.vfFlr vf) s fun t =>
      t.hif.ops = s.hif.ops.filterMap (fun p =>
        if s.ringFn p.1.ring ≠ vf then some p
        else match p.2.phase with
          | .running => some (p.1, { p.2 with endWith := some stABORTED, lost := true })
          | _ => none) ∧ SameBut [.hif] s t) ∧
  (∀ (s : State) (n : Nat), s.coreOff = false → Completes (.vfEnable n) s fun t =>
      t.hif.vfs = (List.range (min n 64)).map (· + 1) ∧ ∀ vf ∈ s.hif.vfs, vf ∉ t.hif.vfs → vf ≠ 0 → ∀ r, s.ringFn r
      = vf → (t.ring r).enabled = false) ∧
  (∀ (s : State) (stream k : Nat), s.coreOff = false → stream ≤ 4 → Completes (.ideKm stream k) s fun t =>
      t = { s with hif := { s.hif with ide := s.hif.ide.put stream k } })

/-- INTAKE_POP, COMPLETION_WRITE, NQ_POP, NQ_CLR_COUNTS, EVR_MIRROR and VIEW_REFRESH (R104, R108 to R122, R459). -/
def Obligations.RingRows : Prop :=
  (∀ (s : State) (qs : Nat) (ecc : Ecc) (reads : List (Option Bytes)) (x : IntakeWord), s.coreOff = false →
    (s.servingCox qs).isSome = true → s.qsHeld qs = false → bestWord (if (s.intake qs).drain.isEmpty then (s.intake
    qs).fill else (s.intake qs).drain) = some x → Completes (.intakePop qs ecc reads) s fun t =>
      (t.intake qs).last = some x ∧ (t.intake qs).drain = (if (s.intake qs).drain.isEmpty then (s.intake qs).fill
      else (s.intake qs).drain).erase x) ∧
  (∀ (s : State) (qs k : Nat) (reads : List (Option Bytes)) (x : IntakeWord), s.coreOff = false → (s.servingCox
    qs).isSome = true → s.qsHeld qs = false → bestWord (if (s.intake qs).drain.isEmpty then (s.intake qs).fill else
    (s.intake qs).drain) = some x → s.ringHeld x.ring = false → s.hasWork x.ring = true → (s.ring x.ring).dev <
    (s.ringSize x.ring) → (s.ring x.ring).host < (s.ringSize x.ring) → k = min 32 (ringUsed (s.ringSize x.ring)
    (s.ring x.ring).dev (s.ring x.ring).host) → k ≤ s.opTableRoom → k ≤ reads.length → reads.all Option.isSome = true
    → Completes (.intakePop qs .clean reads) s fun t =>
      (t.ring x.ring).taken = (s.ring x.ring).taken ++ (List.range k).map (fun i => ((s.ring x.ring).dev + i) % (s.ringSize x.ring)) ∧
      (t.ring x.ring).dev = ((s.ring x.ring).dev + k) % (s.ringSize x.ring) ∧
      ∀ i, i < k → (t.op? ⟨x.ring, ((s.ring x.ring).dev + i) % (s.ringSize x.ring)⟩).isSome = true) ∧
  (∀ (s : State) (qs : Nat) (ecc : Ecc) (reads : List (Option Bytes)), s.coreOff = false → (s.servingCox qs).isSome =
    true → s.qsHeld qs = false → (s.intake qs).drain = [] → (s.intake qs).fill = [] → qs < 8 → Completes (.intakePop
    qs ecc reads) s fun t =>
      t.flag (Reg.DBQ_INTAKE_STATUS_UNDERRUN.nth qs) = true ∧ SameBut [.regs .dbq] s t) ∧
  (∀ (s : State) (n slot : Nat) (rest : List Nat) (o : Op) (c : Completion) (ok : Bool) (d : Option Bytes), s.coreOff
    = false → (s.ring n).kind ≠ kindCQ → (s.ring n).abortFirst = false → (s.ring n).taken = slot :: rest → s.op? ⟨n,
    slot⟩ = some o → o.phase = .done c → s.ringFn n ∉ s.hif.d3hot → (s.ring n).again = [] → dSilent o.desc = true →
    c.status = stOK → Completes (.completionWrite n ok d) s fun t =>
      t.op? ⟨n, slot⟩ = none ∧ (t.ring n).completedUpTo = (slot + 1) % s.ringSize n ∧ (t.ring n).taken = rest ∧
      t.out = s.out) ∧
  (∀ (s : State) (n q slot : Nat) (rest : List Nat) (o : Op) (c : Completion) (d : Option Bytes), s.coreOff = false →
    (s.ring n).kind ≠ kindCQ → (s.ring n).abortFirst = false → (s.ring n).taken = slot :: rest → s.op? ⟨n, slot⟩ =
    some o → o.phase = .done c → s.ringFn n ∉ s.hif.d3hot → (s.ring n).again = [] → (dSilent o.desc && c.status ==
    stOK) = false → s.cqOf n = q → (s.ring q).enabled = true → (s.ring q).kind = kindCQ → (s.ring q).fault = false →
    s.ringFn q ∉ s.hif.d3hot → ((s.ring q).dev + 1) % s.ringSize q ≠ (s.ring q).host → Completes (.completionWrite n
    true d) s fun t =>
      t.op? ⟨n, slot⟩ = none ∧ (t.ring n).completedUpTo = (slot + 1) % s.ringSize n ∧ (t.ring n).taken = rest ∧
      (t.ring q).dev = (if (s.ring q).dev + 1 = s.ringSize q then 0 else (s.ring q).dev + 1) ∧
      Out.hostWrite (s.ringFn q) (s.ringBase q + 32 * (s.ring q).dev)
        (completionBytes c (s.localRing n) slot s.time.ns (s.ring q).phase) ∈ t.out ∧
      (dIrq o.desc = true → (s.msixEntry (s.ringFn q) (s.fld Reg.HIF_RING_LINK_VECTOR q)).masked = false →
        ∃ addr data, Out.msix (s.ringFn q) (s.fld Reg.HIF_RING_LINK_VECTOR q) addr data ∈ t.out)) ∧
  (∀ (s : State) (n q slot : Nat) (rest : List Nat) (o : Op) (c : Completion) (ok : Bool) (d : Option Bytes),
    s.coreOff = false → (s.ring n).kind ≠ kindCQ → (s.ring n).abortFirst = false → (s.ring n).taken = slot :: rest →
    s.op? ⟨n, slot⟩ = some o → o.phase = .done c → s.ringFn n ∉ s.hif.d3hot → (dSilent o.desc && c.status == stOK) =
    false → s.cqOf n = q → (s.ring q).enabled = true → (s.ring q).kind = kindCQ → (s.ring q).fault = false → s.ringFn
    q ∉ s.hif.d3hot → ((s.ring q).dev + 1) % s.ringSize q = (s.ring q).host → Completes (.completionWrite n ok d) s
    fun t =>
      t = s.setRing q { s.ring q with cqFull := true }) ∧
  (∀ (s : State) (n q slot : Nat) (rest : List Nat) (o : Op) (c : Completion) (d : Option Bytes), s.coreOff = false →
    (s.ring n).kind ≠ kindCQ → (s.ring n).abortFirst = false → (s.ring n).taken = slot :: rest → s.op? ⟨n, slot⟩ =
    some o → o.phase = .done c → s.ringFn n ∉ s.hif.d3hot → (s.ring n).again = [] → (dSilent o.desc && c.status ==
    stOK) = false → s.cqOf n = q → (s.ring q).enabled = true → (s.ring q).kind = kindCQ → (s.ring q).fault = false →
    s.ringFn q ∉ s.hif.d3hot → ((s.ring q).dev + 1) % s.ringSize q ≠ (s.ring q).host → Completes (.completionWrite n
    false d) s fun t =>
      t.op? ⟨n, slot⟩ = none ∧ (t.ring n).completedUpTo = (slot + 1) % s.ringSize n ∧ (t.ring n).taken = rest ∧ (t.ring q).fault = true ∧ (t.ring q).dev = (s.ring q).dev ∧
      s.Records t Ev.RING_FAULT (s.localRing q) (1 + s.localRing n * 2 ^ 16 + slot * 2 ^ 32)) ∧
  (∀ (s : State) (n q slot m : Nat) (rest : List (Nat × Nat)) (d : Bytes), s.coreOff = false → (s.ring n).kind ≠
    kindCQ → (s.ring n).abortFirst = true → (s.ring n).aborted = (slot, m) :: rest → s.qsHeld (queueSet n) = false →
    s.ringFn n ∉ s.hif.d3hot → s.cqOf n = q → (s.ring q).enabled = true → (s.ring q).kind = kindCQ → (s.ring q).fault
    = false → s.ringFn q ∉ s.hif.d3hot → ((s.ring q).dev + 1) % s.ringSize q ≠ (s.ring q).host → Completes
    (.completionWrite n true (some d)) s fun t =>
      (t.ring n).aborted = rest ∧ (t.ring n).completedUpTo = (slot + 1) % s.ringSize n ∧
      (t.ring q).dev = (if (s.ring q).dev + 1 = s.ringSize q then 0 else (s.ring q).dev + 1) ∧
      Out.hostWrite (s.ringFn q) (s.ringBase q + 32 * (s.ring q).dev)
        (completionBytes { status := stABORTED, tag := dTag d } (s.localRing n) slot s.time.ns (s.ring q).phase) ∈ t.out ∧
      (dIrq d = true → (s.msixEntry (s.ringFn q) (s.fld Reg.HIF_RING_LINK_VECTOR q)).masked = false →
        ∃ addr data, Out.msix (s.ringFn q) (s.fld Reg.HIF_RING_LINK_VECTOR q) addr data ∈ t.out)) ∧
  (∀ (s : State) (q : Nat) (e : Owed) (rest : List Owed) (d : Option Bytes), s.coreOff = false → (s.ring q).owed = e
    :: rest → (s.ring q).enabled = true → (s.ring q).kind = kindCQ → (s.ring q).fault = false → s.ringFn q ∉
    s.hif.d3hot → ((s.ring q).dev + 1) % s.ringSize q ≠ (s.ring q).host → Completes (.completionWrite q true d) s fun
    t =>
      (t.ring q).owed = rest ∧ (t.ring q).dev = (if (s.ring q).dev + 1 = s.ringSize q then 0 else (s.ring q).dev + 1) ∧
      Out.hostWrite (s.ringFn q) (s.ringBase q + 32 * (s.ring q).dev)
        (completionBytes e.comp (s.localRing e.ring) e.slot s.time.ns (s.ring q).phase) ∈ t.out ∧
      (e.irq = true → (s.msixEntry (s.ringFn q) (s.fld Reg.HIF_RING_LINK_VECTOR q)).masked = false →
        ∃ addr data, Out.msix (s.ringFn q) (s.fld Reg.HIF_RING_LINK_VECTOR q) addr data ∈ t.out)) ∧
  (∀ (s : State) (v : View) (page n : Nat) (ecc : Ecc) (e : Notif), s.coreOff = false → s.pageRing v page = some n →
    (s.ring n).kind = kindNQ → bestNotif (if (s.ring n).nqDrain.isEmpty then (s.ring n).nqFill else (s.ring
    n).nqDrain) = some e → ecc ≠ .lost → Completes (.nqPop v page ecc) s fun t =>
      (t.ring n).nqLast = some e ∧ (t.ring n).nqDrain = (if (s.ring n).nqDrain.isEmpty then (s.ring n).nqFill else
      (s.ring n).nqDrain).erase e ∧ (t.ring n).popHi = e.detail ∧ t.out = s.out ++ [Out.reply v (e.low false)] ∧
      (t.ring n).nqCorrected = (if ecc = .corrected then satAdd 0xFFFF (s.ring n).nqCorrected 1 else (s.ring
      n).nqCorrected) ∧ SameBut [.hif, .out] s t) ∧
  (∀ (s : State) (v : View) (page n : Nat) (e e1 : Notif), s.coreOff = false → s.pageRing v page = some n → (s.ring
    n).kind = kindNQ → bestNotif (if (s.ring n).nqDrain.isEmpty then (s.ring n).nqFill else (s.ring n).nqDrain) = some
    e → e1 = ⟨Ev.NQ_WORD_LOST, 3, 1, s.localRing n, e.seq, 0⟩ → Completes (.nqPop v page .lost) s fun t =>
      (t.ring n).nqLast = some e1 ∧ (t.ring n).nqDrain = (if (s.ring n).nqDrain.isEmpty then (s.ring n).nqFill else
      (s.ring n).nqDrain).erase e ∧ (t.ring n).popHi = 0 ∧ t.out = s.out ++ [Out.reply v (e1.low false)]) ∧
  (∀ (s : State) (v : View) (page n : Nat) (ecc : Ecc), s.coreOff = false → s.pageRing v page = some n → (s.ring
    n).kind = kindNQ → (s.ring n).nqDrain = [] → (s.ring n).nqFill = [] → Completes (.nqPop v page ecc) s fun t =>
      (t.ring n).nqUnderrun = true ∧ (t.ring n).nqSignalled = false ∧ t.out = s.out ++ [Out.reply v (match (s.ring n).nqLast with
        | some e => e.low true
        | none => 2 ^ 19)]) ∧
  (∀ (s : State) (v : View) (page n : Nat) (w : Word), s.coreOff = false → s.pageRing v page = some n → (s.ring
    n).kind = kindNQ → bitAt w.toNat 13 = true → Completes (.nqClrCounts v page w) s fun t =>
      t = s.setRing n { s.ring n with
        nqCorrected := 0, nqDropped := 0, nqUnderrun := (s.ring n).nqUnderrun && !bitAt w.toNat 12 }) ∧
  (∀ (s : State) (n k : Nat) (r : EvRecord), s.coreOff = false → s.evmRing = some n → (s.evr.ring.find? fun r =>
    decide (s.evr.mirrorSeq ≤ r.seq)) = some r → k = (r.len + 63) / 64 → k ≤ s.ringSize n - 1 - ringUsed (s.ringSize
    n) (s.ring n).host (s.ring n).dev → 0 ∉ s.hif.d3hot → Completes (.evrMirror) s fun t =>
      t.evr.mirrorSeq = r.seq + 1 ∧ (t.ring n).dev = ((s.ring n).dev + k) % s.ringSize n ∧
      ∀ i, i < k → Out.hostWrite 0 (s.ringBase n + 64 * (((s.ring n).dev + i) % s.ringSize n))
        (sliceB (sliceB r.bytes 0 (64 * k)) (64 * i) 64) ∈ t.out) ∧
  (∀ (s : State), s.boot.porst = false → Completes (.viewRefresh) s fun t =>
      t.view.snap = s.regs.live ∧ t.view.late = s.col.late ∧ t.view.plans = s.plans ∧ t.view.stamp = s.nowNs /
      1000000 % 2 ^ 31 ∧ t.view.sel = s.view.sel ∧ SameBut [.view] s t)

/-- PACE_CLR_MIN, ARB_CLR, SETT_STAT_CLR, SWC_STAT_CLR, TMS_HIST_CLR, OPT_LANE_CLR, ELN_LANE_CLR, SLF_RD_CLR, PLN_SLOT_CLR and
PWR_UNIT_CLR (R51, R60, R178, R190, R216, R231, R320, R432, R499), with their frames. -/
def Obligations.CounterClears : Prop :=
  (∀ (s : State) (v : View) (w : Word), s.Triggers v .pwr 0x180 w → w.toNat % 256 < paceCount (w.toNat / 256 % 16) →
    Completes (.paceClrMin v w) s fun t =>
      t.fld Reg.PWR_PACE_VALUE_MIN_MTPS (w.toNat % 4096) = 0x7FFF ∧ t.fld Reg.PWR_PACE_VALUE_CUR_MTPS (w.toNat %
      4096) = s.fld Reg.PWR_PACE_VALUE_CUR_MTPS (w.toNat % 4096) ∧ s.SameRegsBut t .pwr [0x180, 0x184] ∧ SameBut
      [.regs .pwr, .setup] s t) ∧
  (∀ (s : State) (v : View) (w : Word), s.Triggers v .mgt 0x300 w → Completes (.arbClr v w) s fun t =>
      t.fld Reg.MGT_ARB_WAIT_MAX_WAIT (w.toNat % 2 ^ 18) = 0 ∧ t.fld Reg.MGT_ARB_WAIT_EXCEED_COUNT (w.toNat % 2 ^
      18) = 0 ∧ t.fld Reg.MGT_ARB_GRANTS_GRANTS (w.toNat % 2 ^ 18) = 0 ∧ s.SameRegsBut t .mgt [0x300, 0x304, 0x308]
      ∧ SameBut [.regs .mgt, .setup, .counters] s t) ∧
  (∀ (s : State) (v : View) (w : Word), s.Triggers v .sett 0x100 w → w.toNat % 256 < 154 → Completes (.settStatClr v
    w) s fun t =>
      t.fld Reg.SETT_STAT_PEAK_PEAK (w.toNat % 256) = s.settUsed (w.toNat % 256) ∧ t.fld Reg.SETT_STAT_REFUSED_COUNT
      (w.toNat % 256) = 0 ∧ t.fld Reg.SETT_STAT_CORRUPT_COUNT (w.toNat % 256) = 0 ∧ s.SameRegsBut t .sett [0x100,
      0x108, 0x10c, 0x110] ∧ SameBut [.regs .sett, .setup] s t) ∧
  (∀ (s : State) (v : View) (w : Word), s.Triggers v .swc 0x400 w → w.toNat % 1024 < 576 → Completes (.swcStatClr v
    w) s fun t =>
      ∀ c < 13, t.fld Reg.SWC_STAT_VALUE_VALUE (w.toNat % 1024 + c * 1024) = 0 ∧ s.SameRegsBut t .swc [0x400, 0x404]
      ∧ SameBut [.regs .swc, .setup] s t) ∧
  (∀ (s : State) (v : View) (w : Word), s.Triggers v .tms 0x310 w → w.toNat % 8192 < 4608 → Completes (.tmsHistClr v
    w) s fun t =>
      ∀ i < 32, t.fld Reg.TMS_HIST_VALUE_VALUE (w.toNat % 8192 + i * 8192) = 0 ∧ s.SameRegsBut t .tms [0x310, 0x314]
      ∧ SameBut [.regs .tms, .setup] s t) ∧
  (∀ (s : State) (v : View) (w : Word), s.Triggers v .opt 0x100 w → w.toNat / 64 % 32 < 17 → Completes (.optLaneClr v
    w) s fun t =>
      t.fld Reg.OPT_LANE_CW_CORR_COUNT (w.toNat % 2048) = 0 ∧ t.fld Reg.OPT_LANE_CW_UNCORR_COUNT (w.toNat % 2048) =
      0 ∧ t.reg ⟨.opt, 0x110, w.toNat % 2048⟩ = 0 ∧ s.SameRegsBut t .opt [0x100, 0x108, 0x10c, 0x110] ∧ SameBut
      [.regs .opt, .setup] s t) ∧
  (∀ (s : State) (v : View) (w : Word), s.Triggers v .eln 0x100 w → Completes (.elnLaneClr v w) s fun t =>
      t.fld Reg.ELN_LANE_CW_CORR_COUNT (w.toNat % 64) = 0 ∧ t.fld Reg.ELN_LANE_CW_UNCORR_COUNT (w.toNat % 64) = 0 ∧
      s.SameRegsBut t .eln [0x100, 0x108, 0x10c] ∧ SameBut [.regs .eln, .setup] s t) ∧
  (∀ (s : State) (v : View) (w : Word), s.Triggers v .slf 0x300 w → Completes (.slfRdClr v w) s fun t =>
      ∀ i < 64, t.fld Reg.SLF_STAT_VALUE_VALUE (w.toNat % 16 + 16 * i) = 0 ∧ s.SameRegsBut t .slf [0x300, 0x30c] ∧
      SameBut [.regs .slf, .setup] s t) ∧
  (∀ (s : State) (v : View) (w : Word), s.Triggers v .pln 0x100 w → Completes (.plnSlotClr v w) s fun t =>
      (∀ c < 8, t.fld Reg.PLN_SLOT_STAT_VALUE (w.toNat % 4 + 16 * c) = 0) ∧ (t.plan (w.toNat % 4)).lateMax = 0 ∧
      s.SameRegsBut t .pln [0x100, 0x110] ∧ SameBut [.regs .pln, .setup, .plans] s t) ∧
  (∀ (s : State) (v : View) (w : Word), s.Triggers v .pwr 0x200 w → Completes (.pwrUnitClr v w) s fun t =>
      t.fld Reg.PWR_UNIT_STATE_ENTRIES (w.toNat % 2048) = 0 ∧ t.fld Reg.PWR_UNIT_REFUSE_REFUSED (w.toNat % 2048) = 0
      ∧ t.fld Reg.PWR_UNIT_REFUSE_ABORTED (w.toNat % 2048) = 0 ∧ s.SameRegsBut t .pwr [0x200, 0x204, 0x208] ∧
      SameBut [.regs .pwr, .setup] s t)

/-- TPT_STAT_CLR, COL_STAT_CLR, COL_LATE_CLR, BEN_NUM_CLR, TFB_STAT_CLR, ASH_STAT_CLR, OUT_STAT_CLR, FLT_STAT_CLR and
LSC_STAT_CLR (R253, R270, R297, R346, R371, R401, R461, R539), with their frames. -/
def Obligations.SelectedCounterClears : Prop :=
  (∀ (s : State) (v : View) (w : Word), s.Triggers v .tpt 0x400 w → w.toNat / 1024 % 32 < 15 → w.toNat / 1024 % 32 <
    10 ∨ w.toNat % 1024 < 576 → Completes (.tptStatClr v w) s fun t =>
      t.fld Reg.TPT_STAT_VALUE_VALUE ((if w.toNat / 1024 % 32 < 10 then w.toNat / 1024 % 32 * 1024 else w.toNat %
      32768)) = 0 ∧ (∀ j, j ≠ (if w.toNat / 1024 % 32 < 10 then w.toNat / 1024 % 32 * 1024 else w.toNat % 32768) →
      t.fld Reg.TPT_STAT_VALUE_VALUE j = s.fld Reg.TPT_STAT_VALUE_VALUE j) ∧ s.SameRegsBut t .tpt [0x400, 0x404] ∧
      SameBut [.regs .tpt, .setup] s t) ∧
  (∀ (s : State) (v : View) (w : Word), s.Triggers v .col 0x300 w → Completes (.colStatClr v w) s fun t =>
      t.fld Reg.COL_STAT_VALUE_VALUE (w.toNat % 16) = 0 ∧ (∀ j, j ≠ w.toNat % 16 → t.fld Reg.COL_STAT_VALUE_VALUE j
      = s.fld Reg.COL_STAT_VALUE_VALUE j) ∧ s.SameRegsBut t .col [0x300, 0x304] ∧ SameBut [.regs .col, .setup] s t) ∧
  (∀ (s : State) (v : View) (w : Word), s.Triggers v .col 0x400 w → Completes (.colLateClr v w) s fun t =>
      ∀ p, t.col.late.find p = (if p.1 = w.toNat % 16 then none else s.col.late.find p) ∧ s.SameRegsBut t .col
      [0x400] ∧ SameBut [.regs .col, .setup, .col] s t) ∧
  (∀ (s : State) (v : View) (w : Word), s.Triggers v .ben 0x800 w → Completes (.benNumClr v w) s fun t =>
      t.fld Reg.BEN_NUM_VALUE_VALUE (w.toNat % 16) = 0 ∧ (∀ j, j ≠ w.toNat % 16 → t.fld Reg.BEN_NUM_VALUE_VALUE j =
      s.fld Reg.BEN_NUM_VALUE_VALUE j) ∧ s.SameRegsBut t .ben [0x800, 0x804] ∧ SameBut [.regs .ben, .setup] s t) ∧
  (∀ (s : State) (v : View) (w : Word), s.Triggers v .tfb 0x200 w → Completes (.tfbStatClr v w) s fun t =>
      t.fld Reg.TFB_STAT_VALUE_VALUE (w.toNat % 16) = 0 ∧ (∀ j, j ≠ w.toNat % 16 → t.fld Reg.TFB_STAT_VALUE_VALUE j
      = s.fld Reg.TFB_STAT_VALUE_VALUE j) ∧ s.SameRegsBut t .tfb [0x200, 0x204] ∧ SameBut [.regs .tfb, .setup] s t) ∧
  (∀ (s : State) (v : View) (w : Word), s.Triggers v .ash 0x200 w → Completes (.ashStatClr v w) s fun t =>
      t.fld Reg.ASH_STAT_VALUE_VALUE (w.toNat % 16) = 0 ∧ (∀ j, j ≠ w.toNat % 16 → t.fld Reg.ASH_STAT_VALUE_VALUE j
      = s.fld Reg.ASH_STAT_VALUE_VALUE j) ∧ s.SameRegsBut t .ash [0x200, 0x204] ∧ SameBut [.regs .ash, .setup] s t) ∧
  (∀ (s : State) (v : View) (w : Word), s.Triggers v .out 0x300 w → Completes (.outStatClr v w) s fun t =>
      t.fld Reg.OUT_STAT_VALUE_VALUE (w.toNat % 16) = 0 ∧ (∀ j, j ≠ w.toNat % 16 → t.fld Reg.OUT_STAT_VALUE_VALUE j
      = s.fld Reg.OUT_STAT_VALUE_VALUE j) ∧ s.SameRegsBut t .out [0x300, 0x304] ∧ SameBut [.regs .out, .setup] s t) ∧
  (∀ (s : State) (v : View) (w : Word), s.Triggers v .flt 0x200 w → Completes (.fltStatClr v w) s fun t =>
      t.fld Reg.FLT_STAT_VALUE_VALUE (w.toNat % 256) = 0 ∧ (∀ j, j ≠ w.toNat % 256 → t.fld Reg.FLT_STAT_VALUE_VALUE
      j = s.fld Reg.FLT_STAT_VALUE_VALUE j) ∧ s.SameRegsBut t .flt [0x200, 0x204] ∧ SameBut [.regs .flt, .setup] s t) ∧
  (∀ (s : State) (v : View) (w : Word), s.Triggers v .lsc 0x100 w → w.toNat % 1024 < 592 → w.toNat / 1024 % 16 < 6 →
    Completes (.lscStatClr v w) s fun t =>
      t.fld Reg.LSC_STAT_VALUE_VALUE (w.toNat % 16384) = 0 ∧ (∀ j, j ≠ w.toNat % 16384 → t.fld
      Reg.LSC_STAT_VALUE_VALUE j = s.fld Reg.LSC_STAT_VALUE_VALUE j) ∧ s.SameRegsBut t .lsc [0x100, 0x10c] ∧ SameBut
      [.regs .lsc, .setup] s t)

/-- COX_SELF_CHECK, COX_HANG, COX_RELOAD, COX_RELOAD_DONE and COX_RELOAD_TIMEOUT (R22 to R24, R78). -/
def Obligations.CoxRows : Prop :=
  (∀ (s : State), s.coreOff = false → Completes (.coxSelfCheck) s fun t =>
      (∀ n, n ∈ t.cox.checking ↔ n < 9 ∧ (s.coxRole n = roleACTIVE ∨ s.coxRole n = roleSTANDBY)) ∧ SameBut [.cox] s
      t) ∧
  (∀ (s : State) (n cause b : Nat), s.coreOff = false → s.mayHang n cause = true → s.coxRole n = roleACTIVE →
    s.standby = some b → Completes (.coxHang n cause) s fun t =>
      t.coxRole n = roleLOADING ∧ t.coxSet n = 0xF ∧ t.coxRole b = roleACTIVE ∧ t.coxSet b = s.coxSet n ∧
      t.flag (Reg.DBQ_COX_STATUS_HANG.nth n) = true ∧ t.cox.reloads.has n = true ∧ n ∉ t.cox.checking ∧
      s.Records t Ev.COX_TAKEOVER n (b + s.coxSet n * 2 ^ 8 + cause * 2 ^ 12)) ∧
  (∀ (s : State) (n : Nat), s.coreOff = false → s.mayHang n 1 = true → s.coxRole n = roleSTANDBY → Completes
    (.coxHang n 1) s fun t =>
      t.coxRole n = roleLOADING ∧ t.flag (Reg.DBQ_COX_STATUS_HANG.nth n) = true ∧ t.cox.reloads.has n = true ∧
      SameBut [.regs .dbq, .cox] s t) ∧
  (∀ (s : State) (n cause : Nat), s.mayHang n cause = false → Completes (.coxHang n cause) s fun t =>
      t = s) ∧
  (∀ (s : State) (n cause : Nat), s.coreOff = false → s.mayHang n cause = true → s.coxRole n = roleACTIVE → s.coxSet
    n < 8 → s.standby = none → Completes (.coxHang n cause) s fun t =>
      t.coxRole n = roleLOADING ∧ t.flag (Reg.DBQ_INTAKE_STATUS_HELD.nth (s.coxSet n)) = true ∧
      t.flag (Reg.DBQ_COX_STATUS_HANG.nth n) = true ∧ t.cox.reloads.has n = true ∧
      s.Records t Ev.COX_DEGRADED n (s.coxSet n * 2 ^ 8)) ∧
  (∀ (s : State) (n : Nat) (r : Reload), s.coreOff = false → n < 9 → s.cox.reloads.find n = some r → r.rotation =
    false → (List.range 8).find? s.qsHeld = none → s.upState ≠ upROTATION → s.upState ≠ upWAIT → Completes
    (.coxReloadDone n true) s fun t =>
      t.coxRole n = roleSTANDBY ∧ t.coxSet n = 0xF ∧ t.cox.reloads.has n = false ∧
      t.cox.firmware.find n = some s.boot.running.coxDigest ∧ t.fld (Reg.DBQ_COX_STATUS_FW_GEN.nth n) = s.boot.running.gen % 256) ∧
  (∀ (s : State) (n qs : Nat) (r : Reload), s.coreOff = false → n < 9 → s.cox.reloads.find n = some r → r.rotation =
    false → (List.range 8).find? s.qsHeld = some qs → s.upState ≠ upROTATION → s.upState ≠ upWAIT → Completes
    (.coxReloadDone n true) s fun t =>
      t.coxRole n = roleACTIVE ∧ t.coxSet n = qs ∧ t.qsHeld qs = false ∧ t.cox.reloads.has n = false ∧
      t.cox.firmware.find n = some s.boot.running.coxDigest) ∧
  (∀ (s : State) (n : Nat) (r : Reload), s.coreOff = false → n < 9 → s.cox.reloads.find n = some r → r.rotation =
    true → ∀ p ∈ s.cox.reloads, p.1 ≠ n → p.2.rotation = false → (List.range 8).find? s.qsHeld = none → s.upState =
    upROTATION → s.boot.rotation = [] → Completes (.coxReloadDone n true) s fun t =>
      t.coxRole n = roleSTANDBY ∧ t.cox.firmware.find n = some (s.boot.staged.getD s.boot.running).coxDigest ∧
      t.upState = upHANDOVER) ∧
  (∀ (s : State) (n : Nat) (r : Reload), s.coreOff = false → s.cox.reloads.find n = some r → r.failed < 2 → Completes
    (.coxReloadDone n false) s fun t =>
      t.cox.reloads.find n = some { r with failed := r.failed + 1 } ∧ SameBut [.regs .dbq, .cox] s t) ∧
  (∀ (s : State) (n : Nat) (r : Reload), s.coreOff = false → s.cox.reloads.find n = some r → r.failed < 2 → Completes
    (.coxReloadTimeout n) s fun t =>
      t.cox.reloads.find n = some { r with failed := r.failed + 1 } ∧ SameBut [.regs .dbq, .cox] s t) ∧
  (∀ (s : State) (n : Nat) (r : Reload), s.coreOff = false → n < 9 → s.cox.reloads.find n = some r → 2 ≤ r.failed →
    r.rotation = true → Completes (.coxReloadTimeout n) s fun t =>
      t.coxRole n = roleFAILED ∧ t.flag (Reg.DBQ_COX_STATUS_RELOAD_FAIL.nth n) = true ∧ t.cox.reloads.has n = false
      ∧ t.upState = upHALTED ∧ t.fld Reg.MGT_UPDATE_STATUS_ERROR = stUPDATE_COX_FAIL) ∧
  (∀ (s : State) (n : Nat) (r : Reload), s.coreOff = false → n < 9 → s.cox.reloads.find n = some r → 2 ≤ r.failed →
    r.rotation = false → s.upState ≠ upROTATION → s.upState ≠ upWAIT → Completes (.coxReloadDone n false) s fun t =>
      t.coxRole n = roleFAILED ∧ t.flag (Reg.DBQ_COX_STATUS_RELOAD_FAIL.nth n) = true ∧ t.cox.reloads.has n = false
      ∧ s.Records t Ev.COX_FAILED n 0) ∧
  (∀ (s : State) (op : OpKey) (o : Op), s.Ready op o → isMgmt 0x6 o.desc = true → o.fn = 0 → 9 ≤ mParam0 o.desc ∨
    (s.coxRole (mParam0 o.desc) = roleACTIVE ∧ s.standby = none) → Completes (.coxReload op) s fun t =>
      t.endedWith op stBAD_FIELD = true ∧ SameBut [.hif] s t) ∧
  (∀ (s : State) (op : OpKey) (o : Op), s.Ready op o → isMgmt 0x6 o.desc = true → o.fn = 0 → mParam0 o.desc < 9 →
    s.coxRole (mParam0 o.desc) = roleSTANDBY ∨ s.coxRole (mParam0 o.desc) = roleFAILED → Completes (.coxReload op) s
    fun t =>
      t.coxRole (mParam0 o.desc) = roleLOADING ∧ t.cox.reloads.find (mParam0 o.desc) = some (⟨0, [op], false⟩ :
      Reload) ∧ t.underWay op = true) ∧
  (∀ (s : State) (op : OpKey) (o : Op) (b : Nat), s.Ready op o → isMgmt 0x6 o.desc = true → o.fn = 0 → mParam0 o.desc
    < 9 → s.coxRole (mParam0 o.desc) = roleACTIVE → s.standby = some b → Completes (.coxReload op) s fun t =>
      t.coxRole (mParam0 o.desc) = roleLOADING ∧ t.cox.reloads.find (mParam0 o.desc) = some (⟨0, [op], false⟩ :
      Reload) ∧ t.coxRole b = roleACTIVE ∧ t.coxSet b = s.coxSet (mParam0 o.desc) ∧ s.Records t Ev.COX_TAKEOVER
      (mParam0 o.desc) (b + s.coxSet (mParam0 o.desc) * 2 ^ 8 + 2 * 2 ^ 12)) ∧
  (∀ (s : State) (op : OpKey) (o : Op) (r : Reload), s.Ready op o → isMgmt 0x6 o.desc = true → o.fn = 0 → mParam0
    o.desc < 9 → s.coxRole (mParam0 o.desc) = roleLOADING → s.cox.reloads.find (mParam0 o.desc) = some r → Completes
    (.coxReload op) s fun t =>
      t.cox.reloads.find (mParam0 o.desc) = some { r with waiters := r.waiters ++ [op] } ∧ t.underWay op = true)

/-- UPDATE_STAGE, UPDATE_STAGING_DONE, MGMT_HANDOVER_DONE and FLASH_BLOCK_DONE (R69, R75 to R78, R502). -/
def Obligations.UpdateRows : Prop :=
  (∀ (s : State) (op : OpKey) (o : Op), s.Ready op o → isMgmt 0x1 o.desc = true → o.fn = 0 → s.upState = upIDLE ∨
    s.upState = upDONE ∨ s.upState = upHALTED → 0 < mLen o.desc → mLen o.desc ≤ 48 * 2 ^ 20 → Completes (.updateStage
    op) s fun t =>
      t.upState = upSTAGING ∧ t.boot.updateOp = some op ∧ t.boot.staged = none ∧ t.fld
      Reg.MGT_UPDATE_STATUS_BLOCKS_DONE = 0 ∧ t.underWay op = true) ∧
  (∀ (s : State) (op : OpKey) (o : Op), s.Ready op o → isMgmt 0x1 o.desc = true → o.fn = 0 → s.upState ≠ upIDLE →
    s.upState ≠ upDONE → s.upState ≠ upHALTED → Completes (.updateStage op) s fun t =>
      t.endedWith op stUPDATE_BUSY = true ∧ t.fld Reg.MGT_UPDATE_STATUS_ERROR = stUPDATE_BUSY ∧ t.upState =
      s.upState ∧ t.boot = s.boot) ∧
  (∀ (s : State) (op : OpKey) (o : Op), s.Ready op o → isMgmt 0x1 o.desc = true → o.fn = 0 → s.upState = upIDLE ∨
    s.upState = upDONE ∨ s.upState = upHALTED → mLen o.desc = 0 ∨ 48 * 2 ^ 20 < mLen o.desc → Completes (.updateStage
    op) s fun t =>
      t.endedWith op stUPDATE_VERIFY_FAIL = true ∧ t.fld Reg.MGT_UPDATE_STATUS_ERROR = stUPDATE_VERIFY_FAIL ∧
      t.upState = s.upState ∧ t.boot = s.boot) ∧
  (∀ (s : State), s.coreOff = false → s.upState = upSTAGING → Completes (.updateStagingDone none) s fun t =>
      t.upState = upIDLE ∧ t.fld Reg.MGT_UPDATE_STATUS_ERROR = stHOST_ABORT ∧ t.boot.staged = none ∧ t.boot.running
      = s.boot.running ∧ t.boot.updateOp = none) ∧
  (∀ (s : State) (b : Bytes), s.coreOff = false → s.upState = upSTAGING → Completes (.updateStagingDone (some b)) s
    fun t =>
      match s.verifyImage b with
      | .bad => t.upState = upIDLE ∧ t.fld Reg.MGT_UPDATE_STATUS_ERROR = stUPDATE_VERIFY_FAIL ∧ t.boot.staged = none
      | .rollback => t.upState = upIDLE ∧ t.fld Reg.MGT_UPDATE_STATUS_ERROR = stUPDATE_ROLLBACK ∧ t.boot.staged = none
      | .accept i =>
        if i.gen > s.boot.running.gen + 1 ∨ s.boot.running.gen > i.gen + 1 then
          t.upState = upIDLE ∧ t.fld Reg.MGT_UPDATE_STATUS_ERROR = stUPDATE_GEN_SKIP ∧ t.boot.staged = none
        else t.boot.staged = some i ∧ t.boot.stagedImage = b ∧ t.boot.running = s.boot.running ∧
          (t.upState = upROTATION ∨ t.upState = upWAIT)) ∧
  (∀ (s : State), s.boot.porst = false → s.upState = upHANDOVER → Completes (.mgmtHandoverDone true) s fun t =>
      t.boot.running = s.boot.staged.getD s.boot.running ∧ t.boot.trustedImage = s.boot.stagedImage ∧
      t.boot.flashActive = true ∧ t.boot.flashBlock = 0 ∧ t.upState = upFLASH ∧ t.fld (mgcRole (s.mgcActing.getD 0))
      = 2 ∧ t.fld (mgcRole (1 - s.mgcActing.getD 0)) = 1 ∧ t.mgmt.deferred = []) ∧
  (∀ (s : State), s.boot.porst = false → s.upState = upHANDOVER → Completes (.mgmtHandoverDone false) s fun t =>
      t.boot.running = s.boot.running ∧ t.mgcActing = s.mgcActing ∧ t.upState = upHALTED ∧ t.fld
      Reg.MGT_UPDATE_STATUS_ERROR = stUPDATE_MGMT_FAIL ∧ t.mgmt.deferred = []) ∧
  (∀ (s : State) (r : FlashResult), s.coreOff = false → s.boot.flashActive = true → s.railOk 1 = true → r =
    FlashResult.written ∨ r = FlashResult.skipped → s.boot.flashBlock + 1 < s.imageBlocks → Completes (.flashBlockDone
    r) s fun t =>
      t.boot = { s.boot with
        flashBlock := s.boot.flashBlock + 1, flashTries := 0, journal := (s.boot.journal.filter fun e => e.1 != s.boot.flashBlock), journalOpen := !(s.boot.journal.filter fun e => e.1 != s.boot.flashBlock).isEmpty } ∧
      t.out = (if r = FlashResult.written then s.out ++ [Out.flashWrite (s.boot.flashBlock * 65536) (s.flashData s.boot.flashBlock)] else s.out) ∧
      SameBut [.boot, .out, .regs .mgt] s t) ∧
  (∀ (s : State) (r : FlashResult), s.coreOff = false → s.boot.flashActive = true → s.railOk 1 = true → r =
    FlashResult.written ∨ r = FlashResult.skipped → s.imageBlocks ≤ s.boot.flashBlock + 1 → Completes (.flashBlockDone
    r) s fun t =>
      t.boot.flashActive = false ∧ t.boot.journal = (s.boot.journal.filter fun e => e.1 != s.boot.flashBlock) ∧
      t.upState = upDONE ∧ t.boot.updateOp = none ∧ (r = FlashResult.written → Out.flashWrite (s.boot.flashBlock *
      65536) (s.flashData s.boot.flashBlock) ∈ t.out)) ∧
  (∀ (s : State), s.coreOff = false → s.boot.flashActive = true → s.railOk 1 = true → Completes (.flashBlockDone
    .begun) s fun t =>
      t.boot.journal = (if (s.boot.journal.any fun e => e.1 == s.boot.flashBlock) then s.boot.journal else
      s.boot.journal ++ [(s.boot.flashBlock, Config.sha3 (s.flashData s.boot.flashBlock))]) ∧ SameBut [.boot] s t) ∧
  (∀ (s : State), s.coreOff = false → s.boot.flashActive = true → s.railOk 1 = true → s.boot.flashTries < 2 →
    Completes (.flashBlockDone .failed) s fun t =>
      t.boot.flashTries = s.boot.flashTries + 1 ∧ t.boot.flashActive = true ∧ t.boot.journal = (if
      (s.boot.journal.any fun e => e.1 == s.boot.flashBlock) then s.boot.journal else s.boot.journal ++
      [(s.boot.flashBlock, Config.sha3 (s.flashData s.boot.flashBlock))]) ∧ SameBut [.boot] s t) ∧
  (∀ (s : State), s.coreOff = false → s.boot.flashActive = true → s.railOk 1 = true → 2 ≤ s.boot.flashTries →
    Completes (.flashBlockDone .failed) s fun t =>
      t.boot.flashActive = false ∧ t.upState = upHALTED ∧ t.fld Reg.MGT_UPDATE_STATUS_ERROR = stUPDATE_FLASH_FAIL ∧
      t.boot.journal = (if (s.boot.journal.any fun e => e.1 == s.boot.flashBlock) then s.boot.journal else
      s.boot.journal ++ [(s.boot.flashBlock, Config.sha3 (s.flashData s.boot.flashBlock))]))

/-- UPDATE_ABORT, FLASH_KEEP, FLASH_RESYNC and SVN_COMMIT (R70, R74, R75, R77). Where the signed SVN request holds its number
is the model’s choice (notes/assumptions/24.md). -/
def Obligations.UpdateRequests : Prop :=
  (∀ (s : State) (op : OpKey) (o : Op), s.Ready op o → isMgmt 0x2 o.desc = true → o.fn = 0 → s.upState = upSTAGING ∨
    s.upState = upVERIFIED → s.boot.updateOp ≠ some op → Completes (.updateAbort op) s fun t =>
      t.endedWith op stOK = true ∧ t.upState = upIDLE ∧ t.boot.staged = none ∧ t.boot.rotation = [] ∧ t.fld
      Reg.MGT_UPDATE_STATUS_ERROR = stUPDATE_ABORTED) ∧
  (∀ (s : State) (op : OpKey) (o : Op), s.Ready op o → isMgmt 0x2 o.desc = true → o.fn = 0 → s.upState ≠ upSTAGING →
    s.upState ≠ upVERIFIED → Completes (.updateAbort op) s fun t =>
      t.endedWith op stUPDATE_BUSY = true ∧ t.upState = s.upState ∧ t.boot = s.boot) ∧
  (∀ (s : State) (op : OpKey) (o : Op), s.Ready op o → isMgmt 0x3 o.desc = true → o.fn = 0 → Completes (.flashKeep
    op) s fun t =>
      t.endedWith op stOK = true ∧ t.boot = { s.boot with flashKeep := true } ∧ SameBut [.boot, .hif] s t) ∧
  (∀ (s : State) (op : OpKey) (o : Op), s.Ready op o → isMgmt 0x4 o.desc = true → o.fn = 0 → s.boot.flashActive =
    false → s.upState = upIDLE ∨ s.upState = upDONE ∨ s.upState = upHALTED → s.boot.journalOpen = true → Completes
    (.flashResync op) s fun t =>
      t.boot.updateOp = some op ∧ t.boot.flashActive = true ∧ t.boot.flashBlock = 0 ∧ t.upState = upFLASH ∧ t.fld
      Reg.MGT_UPDATE_STATUS_BLOCKS_DONE = 0) ∧
  (∀ (s : State) (op : OpKey) (o : Op), s.Ready op o → isMgmt 0x4 o.desc = true → o.fn = 0 → s.boot.flashActive =
    false → s.upState = upIDLE ∨ s.upState = upDONE ∨ s.upState = upHALTED → s.boot.journalOpen = false → Completes
    (.flashResync op) s fun t =>
      t.endedWith op stOK = true ∧ SameBut [.hif] s t) ∧
  (∀ (s : State) (op : OpKey) (o : Op), s.Ready op o → isMgmt 0x4 o.desc = true → o.fn = 0 → s.boot.flashActive =
    true ∨ (upSTAGING ≤ s.upState ∧ s.upState ≤ upFLASH) → Completes (.flashResync op) s fun t =>
      t.endedWith op stUPDATE_BUSY = true ∧ t.upState = s.upState ∧ t.boot = s.boot) ∧
  (∀ (s : State) (op : OpKey) (o : Op), s.Ready op o → isMgmt 0x5 o.desc = true → o.fn = 0 → Completes (.svnCommit op
    none) s fun t =>
      t.endedWith op stHOST_ABORT = true ∧ SameBut [.hif] s t) ∧
  (∀ (s : State) (op : OpKey) (o : Op) (b : Bytes), s.Ready op o → isMgmt 0x5 o.desc = true → o.fn = 0 → Completes
    (.svnCommit op (some b)) s fun t =>
      if Config.mldsaVerify s.boot.running.vendorPk (b.take (b.length - 4627)) (b.drop (b.length - 4627)) = true ∧
          getLE b 0 4 ≤ s.boot.running.svn ∧ getLE b 0 4 ≤ 63 then
        t.endedWith op stOK = true ∧ t.boot = { s.boot with svnBlown := max s.boot.svnBlown (getLE b 0 4) }
      else t.endedWith op stBAD_FIELD = true ∧ t.boot = s.boot)

/-- DDR_DOMAIN, DDR_TRAIN_DONE and DDR_EXTENT (R44, R45, R128, R130, R155). A request for a channel in training waits with it:
notes/assumptions/172.md. -/
def Obligations.ChannelRows : Prop :=
  (∀ (s : State) (op : OpKey) (o : Op), s.Ready op o → isMgmt 0x7 o.desc = true → o.fn = 0 → 15 < (mParam0 o.desc %
    256) → Completes (.ddrDomain op) s fun t =>
      t.endedWith op stBAD_FIELD = true ∧ SameBut [.hif] s t) ∧
  (∀ (s : State) (op : OpKey) (o : Op), s.Ready op o → isMgmt 0x7 o.desc = true → o.fn = 0 → (mParam0 o.desc % 256) ≤
    15 → bitAt (mParam0 o.desc) 8 = true → s.mem.training.has (mParam0 o.desc % 256) = false → s.unitSt ⟨1, (mParam0
    o.desc % 256)⟩ = usOFF ∨ s.unitSt ⟨1, (mParam0 o.desc % 256)⟩ = usRETIRED → Completes (.ddrDomain op) s fun t =>
      t.mem.training.find (mParam0 o.desc % 256) = some (some op) ∧ t.underWay op = true ∧ t.out = s.out ++
      [Out.dimmReset (mParam0 o.desc % 256)] ∧ SameBut [.hif, .mem, .out] s t) ∧
  (∀ (s : State) (op : OpKey) (o : Op), s.Ready op o → isMgmt 0x7 o.desc = true → o.fn = 0 → (mParam0 o.desc % 256) ≤
    15 → bitAt (mParam0 o.desc) 8 = true → s.mem.training.has (mParam0 o.desc % 256) = true → Completes (.ddrDomain
    op) s fun t =>
      t.mem.trainWaits = s.mem.trainWaits ++ [((mParam0 o.desc % 256), op)] ∧ t.underWay op = true ∧ SameBut [.hif,
      .mem] s t) ∧
  (∀ (s : State) (op : OpKey) (o : Op), s.Ready op o → isMgmt 0x7 o.desc = true → o.fn = 0 → (mParam0 o.desc % 256) ≤
    15 → bitAt (mParam0 o.desc) 8 = true → s.mem.training.has (mParam0 o.desc % 256) = false → s.unitSt ⟨1, (mParam0
    o.desc % 256)⟩ ≠ usOFF → s.unitSt ⟨1, (mParam0 o.desc % 256)⟩ ≠ usRETIRED → Completes (.ddrDomain op) s fun t =>
      (t.op? op).map Op.phase = some (OpPhase.done ⟨dTag o.desc, stOK, false, s.unitSt ⟨1, (mParam0 o.desc % 256)⟩,
      o.seg, 0⟩) ∧ SameBut [.hif] s t) ∧
  (∀ (s : State) (op : OpKey) (o : Op), s.Ready op o → isMgmt 0x7 o.desc = true → o.fn = 0 → (mParam0 o.desc % 256) ≤
    15 → bitAt (mParam0 o.desc) 8 = false → s.unitSt ⟨1, (mParam0 o.desc % 256)⟩ = usOFF → Completes (.ddrDomain op) s
    fun t =>
      t.endedWith op stOK = true ∧ SameBut [.hif] s t) ∧
  (∀ (s : State) (op : OpKey) (o : Op), s.Ready op o → isMgmt 0x7 o.desc = true → o.fn = 0 → (mParam0 o.desc % 256) ≤
    15 → bitAt (mParam0 o.desc) 8 = false → s.unitSt ⟨1, (mParam0 o.desc % 256)⟩ = usRETIRED → Completes (.ddrDomain
    op) s fun t =>
      t.endedWith op stOK = true ∧ t.unitSt ⟨1, (mParam0 o.desc % 256)⟩ = usOFF ∧ SameBut [.hif, .mem] s t) ∧
  (∀ (s : State) (op : OpKey) (o : Op), s.Ready op o → isMgmt 0x7 o.desc = true → o.fn = 0 → (mParam0 o.desc % 256) ≤
    15 → bitAt (mParam0 o.desc) 8 = false → s.unitSt ⟨1, (mParam0 o.desc % 256)⟩ = usIN_SERVICE → s.mem.retires = [] →
    Completes (.ddrDomain op) s fun t =>
      if (s.mem.extents.any fun e => e.2.1 == (mParam0 o.desc % 256)) = true then
        t.unitSt ⟨1, (mParam0 o.desc % 256)⟩ = usRETIRING ∧ t.underWay op = true ∧ t.mem.retires.length = 1 ∧
          t.mem.retires.head? = some
            { unit := ⟨1, (mParam0 o.desc % 256)⟩, op := some op, drain := true, running := true,
              extents := (s.mem.extents.filter fun e => e.2.1 == (mParam0 o.desc % 256)).map (·.1) }
      else t.unitSt ⟨1, (mParam0 o.desc % 256)⟩ = usOFF ∧ t.endedWith op stOK = true ∧ t.mem.retires = []) ∧
  (∀ (s : State) (c gib : Nat) (ok : Bool) (op : OpKey) (o : Op), s.coreOff = false → s.mem.training.find c = some
    (some op) → s.mem.trainWaits = [] → s.op? op = some o → o.key = op → o.lost = false → op.slot ∈ (s.ring
    op.ring).taken → Completes (.ddrTrainDone c gib ok) s fun t =>
      t.unitSt ⟨1, c⟩ = (if ok then usIN_SERVICE else usOFF) ∧ t.mem.training.has c = false ∧
      t.mem.chanGib.find c = some (if ok then min 1024 gib else 0) ∧
      (t.op? op).map Op.phase =
        some (OpPhase.done ⟨dTag o.desc, stOK, false, if ok then usIN_SERVICE else usOFF, o.seg, 0⟩) ∧
      if ok then SameBut [.hif, .mem] s t else s.Records t Ev.DDR_TRAIN_FAIL c 0) ∧
  (∀ (s : State) (op : OpKey) (o : Op), s.Ready op o → isMgmt 0xb o.desc = true → o.fn = 0 → bitAt (mParam0 o.desc)
    16 = false → Completes (.ddrExtent op) s fun t =>
      t.endedWith op stOK = true ∧ t.mem.extents.has (mParam0 o.desc % 16384) = false ∧
      (∀ e, e ≠ (mParam0 o.desc % 16384) → t.mem.extents.find e = s.mem.extents.find e) ∧ t.mem.chanGib = s.mem.chanGib) ∧
  (∀ (s : State) (op : OpKey) (o : Op), s.Ready op o → isMgmt 0xb o.desc = true → o.fn = 0 → bitAt (mParam0 o.desc)
    16 = true → s.mem.extents.has (mParam0 o.desc % 16384) = true → Completes (.ddrExtent op) s fun t =>
      t.endedWith op stOK = true ∧ SameBut [.hif] s t) ∧
  (∀ (s : State) (op : OpKey) (o : Op), s.Ready op o → isMgmt 0xb o.desc = true → o.fn = 0 → bitAt (mParam0 o.desc)
    16 = true → s.mem.extents.has (mParam0 o.desc % 16384) = false → s.richest = [] → Completes (.ddrExtent op) s fun
    t =>
      t.endedWith op stBAD_FIELD = true ∧ SameBut [.hif] s t) ∧
  (∀ (s : State) (op : OpKey) (o : Op), s.Ready op o → isMgmt 0xb o.desc = true → o.fn = 0 → bitAt (mParam0 o.desc)
    16 = true → s.mem.extents.has (mParam0 o.desc % 16384) = false → s.richest ≠ [] → Completes (.ddrExtent op) s fun
    t =>
      t.endedWith op stOK = true ∧
      (∃ c ∈ s.richest, t.mem.extents.find (mParam0 o.desc % 16384) = some (c, (s.freeIndex c).getD 0)) ∧
      (∀ a, a / 2 ^ 30 = 0x4000 + (mParam0 o.desc % 16384) → t.isLost a = false ∧
        (s.mem.keys.find (a / 64) = none → s.mem.openDraw a = none → t.memByte .phys a = 0)))

/-- MEM_RETIRE, RETIRE_BLOCK_COPY, SCRUB_READ and CE_WINDOW_END (R149 to R154). What a second request for a retirement under
way does: notes/assumptions/149.md. -/
def Obligations.RetirementRows : Prop :=
  (∀ (s : State) (op : OpKey) (o : Op), s.Ready op o → isMgmt 0xc o.desc = true → o.fn = 0 → (bitsOf (mParam0 o.desc)
    10 1) = 1 → 15 < (mParam0 o.desc % 1024) → Completes (.memRetire op) s fun t =>
      t.endedWith op stBAD_FIELD = true ∧ SameBut [.hif] s t) ∧
  (∀ (s : State) (op : OpKey) (o : Op), s.Ready op o → isMgmt 0xc o.desc = true → o.fn = 0 → (bitsOf (mParam0 o.desc)
    10 1) = 0 → s.unitSt ⟨0, (mParam0 o.desc % 1024)⟩ = usSPARE → s.mem.retires = [] → Completes (.memRetire op) s fun
    t =>
      t.endedWith op stOK = true ∧ t.unitSt ⟨0, (mParam0 o.desc % 1024)⟩ = usRETIRED ∧ t.mem.spares =
      s.mem.spares.erase (mParam0 o.desc % 1024) ∧ SameBut [.hif, .mem, .regs .hbm] s t) ∧
  (∀ (s : State) (op : OpKey) (o : Op) (sp : Nat), s.Ready op o → isMgmt 0xc o.desc = true → o.fn = 0 → (bitsOf
    (mParam0 o.desc) 10 1) = 0 → s.unitSt ⟨0, (mParam0 o.desc % 1024)⟩ = usIN_SERVICE ∨ s.unitSt ⟨0, (mParam0 o.desc %
    1024)⟩ = usTRUSTED ∨ s.unitSt ⟨0, (mParam0 o.desc % 1024)⟩ = usDEGRADED → s.mem.retires = [] →
    (s.mem.spares.filter fun p => pcDie p == pcDie (mParam0 o.desc % 1024)).head? = some sp → Completes (.memRetire
    op) s fun t =>
      t.unitSt ⟨0, (mParam0 o.desc % 1024)⟩ = usRETIRING ∧ t.mem.spares = s.mem.spares.erase sp ∧ t.underWay op = true ∧
      t.mem.retires.length = 1 ∧ t.mem.retires.head? = some { unit := ⟨0, (mParam0 o.desc % 1024)⟩, op := some op, running := true, dest := sp } ∧
      s.Records t Ev.RETIRE_START (mParam0 o.desc % 1024) 2) ∧
  (∀ (s : State) (op : OpKey) (o : Op), s.Ready op o → isMgmt 0xc o.desc = true → o.fn = 0 → (bitsOf (mParam0 o.desc)
    10 1) = 0 → s.unitSt ⟨0, (mParam0 o.desc % 1024)⟩ = usIN_SERVICE ∨ s.unitSt ⟨0, (mParam0 o.desc % 1024)⟩ =
    usTRUSTED ∨ s.unitSt ⟨0, (mParam0 o.desc % 1024)⟩ = usDEGRADED → s.mem.retires = [] → (s.mem.spares.filter fun p
    => pcDie p == pcDie (mParam0 o.desc % 1024)).head? = none → Completes (.memRetire op) s fun t =>
      t.unitSt ⟨0, (mParam0 o.desc % 1024)⟩ = usDEGRADED ∧ t.mem.retires = [] ∧ t.endedWith op stOK = true ∧
      t.flag (if pcDie (mParam0 o.desc % 1024) = 0 then Reg.HBM_MAP_STATUS_SPARE_OUT_BOW else Reg.HBM_MAP_STATUS_SPARE_OUT_STERN) = true ∧
      s.Records t Ev.RETIRE_NO_SPACE (mParam0 o.desc % 1024) (pcDie (mParam0 o.desc % 1024))) ∧
  (∀ (s : State) (op : OpKey) (o : Op), s.Ready op o → isMgmt 0xc o.desc = true → o.fn = 0 → (bitsOf (mParam0 o.desc)
    10 1) = 1 → (mParam0 o.desc % 1024) ≤ 15 → s.unitSt ⟨1, (mParam0 o.desc % 1024)⟩ = usIN_SERVICE → s.mem.retires =
    [] → Completes (.memRetire op) s fun t =>
      if (s.mem.extents.any fun e => e.2.1 == (mParam0 o.desc % 1024)) = true then
        t.unitSt ⟨1, (mParam0 o.desc % 1024)⟩ = usRETIRING ∧ t.underWay op = true ∧ t.mem.retires.length = 1 ∧
          t.mem.retires.head? = some
            { unit := ⟨1, (mParam0 o.desc % 1024)⟩, op := some op, drain := false, running := true,
              extents := (s.mem.extents.filter fun e => e.2.1 == (mParam0 o.desc % 1024)).map (·.1) }
      else t.unitSt ⟨1, (mParam0 o.desc % 1024)⟩ = usRETIRED ∧ t.endedWith op stOK = true ∧ t.mem.retires = []) ∧
  (∀ (s : State) (op : OpKey) (o : Op), s.Ready op o → isMgmt 0xc o.desc = true → o.fn = 0 → (bitsOf (mParam0 o.desc)
    10 1) = 0 ∨ (mParam0 o.desc % 1024) ≤ 15 → s.unitSt ⟨(bitsOf (mParam0 o.desc) 10 1), (mParam0 o.desc % 1024)⟩ =
    usRETIRED ∨ s.unitSt ⟨(bitsOf (mParam0 o.desc) 10 1), (mParam0 o.desc % 1024)⟩ = usOFF → Completes (.memRetire op)
    s fun t =>
      t.endedWith op stOK = true ∧ SameBut [.hif] s t) ∧
  (∀ (s : State) (op : OpKey) (o : Op) (r : Retire), s.Ready op o → isMgmt 0xc o.desc = true → o.fn = 0 → (bitsOf
    (mParam0 o.desc) 10 1) = 0 ∨ (mParam0 o.desc % 1024) ≤ 15 → s.unitSt ⟨(bitsOf (mParam0 o.desc) 10 1), (mParam0
    o.desc % 1024)⟩ = usRETIRING → s.mem.retires = [r] → r.unit = ⟨(bitsOf (mParam0 o.desc) 10 1), (mParam0 o.desc %
    1024)⟩ → Completes (.memRetire op) s fun t =>
      if r.op.isSome = true then t.endedWith op stOK = true ∧ SameBut [.hif] s t
      else t.mem.retires = [{ r with op := some op }] ∧ t.underWay op = true ∧ SameBut [.hif, .mem] s t) ∧
  (∀ (s : State) (u : MemUnit) (r : Retire), s.coreOff = false → u.tier = 0 → s.mem.retires = [r] → r.unit = u →
    r.running = true → r.mark + 1 < blocksPerGib → Completes (.retireBlockCopy u []) s fun t =>
      t = { s with
      mem := { s.mem with retires := [{ r with mark := r.mark + 1 }] } }) ∧
  (∀ (s : State) (u : MemUnit) (r : Retire), s.coreOff = false → u.tier = 0 → s.mem.retires = [r] → r.unit = u →
    r.running = true → r.mark + 1 = blocksPerGib → r.dest ≠ u.unit → Completes (.retireBlockCopy u []) s fun t =>
      t.unitSt u = usRETIRED ∧ t.unitSt ⟨0, r.dest⟩ = (if u.unit ∈ s.mem.trusted then usTRUSTED else usIN_SERVICE) ∧
      t.mem.retires = [] ∧ t.mem.slotsBow = s.mem.slotsBow.map (fun x => if x = u.unit then r.dest else x) ∧
      t.mem.slotsStern = s.mem.slotsStern.map (fun x => if x = u.unit then r.dest else x) ∧
      t.mem.trusted = s.mem.trusted.map (fun x => if x = u.unit then r.dest else x) ∧ t.mem.cells = s.mem.cells ∧
      s.Records t Ev.RETIRE_DONE u.unit 0) ∧
  (∀ (s : State) (u : MemUnit) (r x : Retire), s.coreOff = false → u.tier = 1 → s.mem.retires = [r] → r.unit = u →
    r.running = true → r.extents ≠ [] → s.retireTarget r = some x → x.mark + 1 < blocksPerGib → Completes
    (.retireBlockCopy u []) s fun t =>
      t = { s with
      mem := { s.mem with retires := [{ x with mark := x.mark + 1 }] } }) ∧
  (∀ (s : State) (u : MemUnit) (r x : Retire) (e : Nat) (l : List Nat), s.coreOff = false → u.tier = 1 →
    s.mem.retires = [r] → r.unit = u → r.running = true → r.extents = e :: l → s.retireTarget r = some x → x.mark + 1
    = blocksPerGib → Completes (.retireBlockCopy u []) s fun t =>
      t.mem.extents.find e = some (x.dest, x.media.getD 0) ∧ t.mem.cells = s.mem.cells ∧
      if l = [] then t.unitSt u = (if r.drain = true then usOFF else usRETIRED) ∧ t.mem.retires = []
      else t.mem.retires = [{ x with extents := l, mark := 0, media := none }]) ∧
  (∀ (s : State) (u : MemUnit) (r : Retire) (read : MemRead), s.coreOff = false → u.tier = 1 → s.mem.retires = [r] →
    r.unit = u → r.running = true → r.extents ≠ [] → s.retireTarget r = none → r.held = false → Completes
    (.retireBlockCopy u read) s fun t =>
      t.mem.retires = [{ r with held := true, media := none }] ∧ s.Records t Ev.RETIRE_NO_SPACE u.unit
      (r.extents.length * 2 ^ 16)) ∧
  (∀ (s : State) (u : MemUnit) (r x : Retire) (e : Nat) (l : List Nat) (b : BurstErr), s.coreOff = false → u.tier = 1
    → s.unitSt u = usRETIRING → s.mem.retires = [r] → r.unit = u → r.running = true → r.extents = e :: l → e < 16384 →
    s.retireTarget r = some x → x.mark < blocksPerGib → b.at_ < 65536 → burstRead true 3 b.tries = none →
    s.mem.lostDdr.length < 4096 → Completes (.retireBlockCopy u [b]) s fun t =>
      t.isLost (0x100000000000 + e * 2 ^ 30 + x.mark * 65536) = true) ∧
  (∀ (s : State) (u : MemUnit) (read : MemRead), (s.mem.retires.find? fun r => r.unit == u && r.running) = none →
    Completes (.retireBlockCopy u read) s fun t =>
      t = s) ∧
  (∀ (s : State) (u : MemUnit) (off : Nat) (r : MemRead), r = [] ∨ s.unitSt u = usRETIRED ∨ s.unitSt u = usOFF →
    Completes (.scrubRead ⟨u, off⟩ r) s fun t =>
      t = s) ∧
  (∀ (s : State) (u : MemUnit) (off p q : Nat) (e : BurstErr) (x : Bytes), s.coreOff = false → s.unitSt u ≠ usRETIRED
    → s.unitSt u ≠ usOFF → burstTry (u.tier == 1) (e.tries.head?.getD []) = some (x, [p]) → allZero x = true → q = (if
    u.tier = 1 then e.place % 8 * 16 + p else p) → satAdd 0xFF (s.mem.ce.getD (u, q) {}).inWindow 1 < s.ceLimit u.tier
    → Completes (.scrubRead ⟨u, off⟩ [e]) s fun t =>
      t.mem.ce.find (u, q) = some { s.mem.ce.getD (u, q) {} with
        total := satAdd 0xFFFF (s.mem.ce.getD (u, q) {}).total 1
        inWindow := satAdd 0xFF (s.mem.ce.getD (u, q) {}).inWindow 1 } ∧ SameBut [.mem] s t) ∧
  (∀ (s : State) (u : MemUnit) (off p sp : Nat) (e : BurstErr) (x : Bytes), s.coreOff = false → u.tier = 0 → s.unitSt
    u = usIN_SERVICE ∨ s.unitSt u = usTRUSTED ∨ s.unitSt u = usDEGRADED → s.mem.retires = [] → (s.mem.spares.filter
    fun p => pcDie p == pcDie u.unit).head? = some sp → burstTry false (e.tries.head?.getD []) = some (x, [p]) →
    (s.mem.ce.getD (u, p) {}).declared = false → s.ceLimit 0 ≤ satAdd 0xFF (s.mem.ce.getD (u, p) {}).inWindow 1 →
    Completes (.scrubRead ⟨u, off⟩ [e]) s fun t =>
      t.unitSt u = usRETIRING ∧ (t.mem.ce.getD (u, p) {}).declared = true ∧ t.mem.retires.length = 1 ∧
      t.mem.retires.head? = some { unit := u, running := true, dest := sp }) ∧
  (∀ (s : State) (u : MemUnit) (off sp : Nat) (e : BurstErr), s.coreOff = false → u.tier = 0 → s.unitSt u =
    usIN_SERVICE ∨ s.unitSt u = usTRUSTED ∨ s.unitSt u = usDEGRADED → s.mem.retires = [] → (s.mem.spares.filter fun p
    => pcDie p == pcDie u.unit).head? = some sp → burstRead false 3 e.tries = none → Completes (.scrubRead ⟨u, off⟩
    [e]) s fun t =>
      t.unitSt u = usRETIRING ∧ t.mem.retires.length = 1 ∧
      t.mem.retires.head? = some { unit := u, running := true, dest := sp }) ∧
  (∀ (s : State) (u : MemUnit) (off a : Nat) (e : BurstErr) (x : Bytes), s.coreOff = false → s.unitSt u ≠ usRETIRED →
    s.unitSt u ≠ usOFF → s.dpaOf u (off + e.at_) = some a → burstTry (u.tier == 1) (e.tries.head?.getD []) = none →
    burstTry (u.tier == 1) (e.tries.tail.head?.getD []) = some (x, []) → allZero x = true → Completes (.scrubRead ⟨u,
    off⟩ [e]) s fun t =>
      s.Records t Ev.MEM_TRANSIENT u.unit (bitsOf a 6 39 * 64 + u.tier * 2 ^ 47) ∧ SameBut reports s t) ∧
  (∀ (s : State) (tier : Nat), s.coreOff = false → Completes (.ceWindowEnd tier) s fun t =>
      (∀ u pos, t.mem.ce.find (u, pos) = (s.mem.ce.find (u, pos)).map fun c =>
        if u.tier = tier then { c with inWindow := 0, declared := false } else c) ∧ SameBut [.mem] s t)

/-- MMU_INVALIDATE, DEV_FAULT_TIMEOUT, PRI_RESPONSE, PRI_TIMEOUT and ATS_INVALIDATE (R135 to R138). -/
def Obligations.TranslationRows : Prop :=
  (∀ (s : State) (op : OpKey) (o : Op), s.Ready op o → isMgmt 0x000A o.desc = true → s.domainOf o.fn (mParam0 o.desc
    % 4096) = none → Completes (.mmuInvalidate op) s fun t =>
      t.endedWith op stDOMAIN_DENIED = true ∧ SameBut [.hif] s t) ∧
  (∀ (s : State) (op : OpKey) (o : Op) (d : Nat), s.Ready op o → isMgmt 0x000A o.desc = true → s.domainOf o.fn
    (mParam0 o.desc % 4096) = some d → s.tfb.ctxs = [] → s.col.ops = [] → (∀ p ∈ s.hif.ops, p.2.hold = Hold.none) →
    Completes (.mmuInvalidate op) s fun t =>
      t.endedWith op stOK = true ∧ t.mem = (s.dropTlb d (mAddr o.desc) (mParams o.desc 0 8)).mem ∧ SameBut [.hif,
      .mem, .ash] s t) ∧
  (∀ (s : State) (k : OpKey) (o : Op) (d a : Nat) (wr : Bool), s.coreOff = false → s.op? k = some o → o.key = k →
    o.lost = false → o.phase = OpPhase.running → k.slot ∈ (s.ring k.ring).taken → o.hold = Hold.devFault d a wr →
    Completes (.devFaultTimeout (.op k)) s fun t =>
      t.endedWith k stTRANSLATION_FAULT = true) ∧
  (∀ (s : State) (k : OpKey), ((s.op? k).map Op.hold).getD Hold.none = Hold.none → Completes (.devFaultTimeout (.op
    k)) s fun t =>
      t = s) ∧
  (∀ (s : State) (k : OpKey) (o : Op) (a : Nat) (w : Bool), s.coreOff = false → s.op? k = some o → o.key = k → o.lost
    = false → o.phase = OpPhase.running → k.slot ∈ (s.ring k.ring).taken → o.hold = Hold.pri a w → (∀ p ∈ s.hif.ops,
    p.2.hold.waitsToAsk = false) → (∀ p ∈ s.tfb.ctxs, p.2.hold.waitsToAsk = false) → Completes (.priResponse (.op k)
    true) s fun t =>
      t.op? k = some { o with hold := if dOp o.desc = 2 ∨ dOp o.desc = 3 then Hold.other else Hold.none } ∧ SameBut
      [.hif] s t) ∧
  (∀ (s : State) (k k2 : OpKey) (o o2 : Op) (a a2 : Nat) (w w2 : Bool), s.coreOff = false → s.op? k = some o → o.key
    = k → o.lost = false → o.phase = OpPhase.running → k.slot ∈ (s.ring k.ring).taken → o.hold = Hold.pri a w → k2 ≠ k
    → o2.key = k2 → s.op? k2 = some o2 → o2.hold = Hold.priWait a2 w2 → s.hif.ops.find? (fun p => p.2.hold.waitsToAsk)
    = some (k2, o2) → s.priCount ≤ 512 → Completes (.priResponse (.op k) true) s fun t =>
      t.op? k = some { o with hold := if dOp o.desc = 2 ∨ dOp o.desc = 3 then Hold.other else Hold.none } ∧ t.op? k2
      = some { o2 with hold := Hold.pri a2 w2 } ∧ t.out = s.out ++ [Out.pageRequest o2.fn a2 w2] ∧ SameBut [.hif,
      .out] s t) ∧
  (∀ (s : State) (k : OpKey) (o : Op) (a : Nat) (w : Bool), s.coreOff = false → s.op? k = some o → o.key = k → o.lost
    = false → o.phase = OpPhase.running → k.slot ∈ (s.ring k.ring).taken → o.hold = Hold.pri a w → (∀ p ∈ s.hif.ops,
    p.2.hold.waitsToAsk = false) → (∀ p ∈ s.tfb.ctxs, p.2.hold.waitsToAsk = false) → Completes (.priResponse (.op k)
    false) s fun t =>
      t.endedWith k stTRANSLATION_FAULT = true) ∧
  (∀ (s : State) (k : OpKey) (o : Op) (a : Nat) (w : Bool), s.coreOff = false → s.op? k = some o → o.key = k → o.lost
    = false → o.phase = OpPhase.running → k.slot ∈ (s.ring k.ring).taken → o.hold = Hold.pri a w → (∀ p ∈ s.hif.ops,
    p.2.hold.waitsToAsk = false) → (∀ p ∈ s.tfb.ctxs, p.2.hold.waitsToAsk = false) → Completes (.priTimeout (.op k)) s
    fun t =>
      t.endedWith k stTRANSLATION_FAULT = true) ∧
  (∀ (s : State) (g q : Nat) (b : Bool), Completes (.priResponse (.coll g q) b) s fun t =>
      t = s) ∧
  (∀ (s : State) (n : Nat), (s.tctx n).hold.asks = false → Completes (.priTimeout (.run n)) s fun t =>
      t = s) ∧
  (∀ (s : State) (fn addr len : Nat), s.coreOff = false → Completes (.atsInvalidate fn addr len) s fun t =>
      (∀ f p, (f, p) ∈ t.mem.ats ↔ (f, p) ∈ s.mem.ats ∧ ¬(f = fn ∧ p * 4096 < addr + len ∧ addr < p * 4096 + 4096)) ∧
      t.out = s.out ++ [Out.atsDone fn addr len] ∧ SameBut [.mem, .ash, .out] s t)

/-- MGC_HANG, MGC_START_RETRY, I3C_ADDRESS_ASSIGN, I3C_TRANSFER, I3C_ALERT_ACK and MGE_FRAME_RECEIVE (R500 to R507), and the last
column of the request table. -/
def Obligations.ManagementCoreRows : Prop :=
  (∀ (s : State) (a cause : Nat) (flash : Bytes), s.boot.porst = false → s.mgcActing = some a → s.fld (mgcRole (1 -
    a)) = 2 → s.boot.trustedGood = true → Completes (.mgcHang cause true flash) s fun t =>
      t.fld (mgcRole (1 - a)) = 1 ∧ t.fld (mgcRole a) = 2 ∧ t.mgcActing = some (1 - a) ∧ t.fld
      Reg.MGT_MGC_STATUS_TAKEOVERS = min 0xFF (s.fld Reg.MGT_MGC_STATUS_TAKEOVERS + 1) ∧ t.mgmt.down = s.mgmt.down ∧
      s.Records t Ev.MGC_TAKEOVER (1 - a) (a + cause * 2 ^ 4)) ∧
  (∀ (s : State) (a cause : Nat) (ready : Bool) (flash : Bytes), s.boot.porst = false → s.mgcActing = some a →
    s.boot.trustedGood = true → ready = false ∨ s.fld (mgcRole (1 - a)) ≠ 2 → Completes (.mgcHang cause ready flash) s
    fun t =>
      t.fld (mgcRole (1 - a)) = 0 ∧ t.fld (mgcRole a) = 3 ∧ t.mgcActing = none ∧ t.mgmt.down = true) ∧
  (∀ (s : State) (a cause : Nat) (ready : Bool) (flash : Bytes), s.boot.porst = false → s.mgcActing = some a →
    s.boot.trustedGood = false → (match s.verifyImage flash with | .accept _ => true | _ => false) = false → Completes
    (.mgcHang cause ready flash) s fun t =>
      t.fld (mgcRole (1 - a)) = 3 ∧ t.fld (mgcRole a) = 3 ∧ t.mgcActing = none ∧ t.mgmt.down = true) ∧
  (∀ (s : State) (cause : Nat) (ready : Bool) (flash : Bytes), s.mgcActing = none → Completes (.mgcHang cause ready
    flash) s fun t =>
      t = s) ∧
  (∀ (s : State) (ok : Bool), s.boot.porst = false → s.mgmt.down = true → Completes (.mgcStartRetry true ok) s fun t
    =>
      t.mgmt.down = false ∧ t.mgcActing = some 0 ∧ t.fld Reg.MGT_MGC_STATUS_ROLE1 = (if ok then 2 else 3)) ∧
  (∀ (s : State), s.boot.porst = false → s.mgmt.down = true → Completes (.mgcStartRetry false true) s fun t =>
      t.mgmt.down = false ∧ t.mgcActing = some 1 ∧ t.fld Reg.MGT_MGC_STATUS_ROLE0 = 3) ∧
  (∀ (s : State) (a b : Bool), s.mgmt.down = false ∨ (a = false ∧ b = false) → Completes (.mgcStartRetry a b) s fun t
    =>
      t = s) ∧
  (∀ (s : State) (addr : Nat) (ibi : Bool), Completes (.i3cAddressAssign addr ibi) s fun t =>
      t = if s.i3cAnswers = true then { s with
      mgmt := { s.mgmt with i3cDyn := some addr, ibiEnabled := ibi } } else s) ∧
  (∀ (s : State) (idx n : Nat), s.i3cAnswers = true → Completes (.i3cTransfer s.i3cAddress idx (.read n)) s fun t =>
      t = s.emit (.i3cData (sliceB s.i3cFile idx n))) ∧
  (∀ (s : State) (x : Byte), s.i3cAnswers = true → Completes (.i3cTransfer s.i3cAddress 0x25 (.write [x])) s fun t =>
      t = if x.toNat ≤ 4 then { s with
      mgmt := { s.mgmt with alertSev := x.toNat } } else s) ∧
  (∀ (s : State), s.i3cAnswers = true → Completes (.i3cTransfer s.i3cAddress 0x24 (.write [0xA5])) s fun t =>
      t = { s with
      mgmt := { s.mgmt with alerts := s.mgmt.alerts.tail } }) ∧
  (∀ (s : State) (idx : Nat) (x : Byte), idx ≠ 0x25 → idx ≠ 0x24 ∨ x ≠ 0xA5 → Completes (.i3cTransfer s.i3cAddress
    idx (.write [x])) s fun t =>
      t = s) ∧
  (∀ (s : State) (addr idx : Nat) (x : I3cData), s.i3cAnswers = false ∨ addr ≠ s.i3cAddress → Completes (.i3cTransfer
    addr idx x) s fun t =>
      t = s) ∧
  (∀ (s : State), Completes (.i3cAlertAck) s fun t =>
      t = if s.i3cAnswers = true then { s with
      mgmt := { s.mgmt with alerts := s.mgmt.alerts.tail } } else s) ∧
  (∀ (s : State) (f : MgeFrame), s.mgeUp = true → f = MgeFrame.echo true ∨ f = MgeFrame.neighbourSolicit true →
    Completes (.mgeFrameReceive f) s fun t =>
      t = s.emit .mgeReply) ∧
  (∀ (s : State) (f : MgeFrame) (m : PtpMsg), s.mgeUp = true → f = MgeFrame.lldp ∨ (f = MgeFrame.ptp m ∧ (m.domain ≠
    s.fld Reg.TIM_PTP_CFG_DOMAIN ∨ m.kind = PtpKind.sync)) → Completes (.mgeFrameReceive f) s fun t =>
      t = s) ∧
  (∀ (s : State) (m : PtpMsg), s.mgeUp = true → m.domain = s.fld Reg.TIM_PTP_CFG_DOMAIN → m.kind = PtpKind.delayReq →
    s.fld Reg.TIM_PTP_CFG_DELAY_MECH = 0 → Completes (.mgeFrameReceive (.ptp m)) s fun t =>
      ∃ stamp, t = s.emit (.ptpReply m.port false stamp)) ∧
  (∀ (s : State) (peer : Nat), s.mgeUp = true → s.flag Reg.MGT_MGE_CFG_SERVE_IMAGE = true → s.mgmt.mgePeers.length <
    4 ∨ peer ∈ s.mgmt.mgePeers → Completes (.mgeFrameReceive (.solicit peer)) s fun t =>
      peer ∈ t.mgmt.mgePeers ∧ t.out = s.out ++ [Out.mgeOffer peer] ∧ SameBut [.mgmt, .out] s t) ∧
  (∀ (s : State) (peer block : Nat) (last : Bool), s.mgeUp = true → peer ∈ s.mgmt.mgePeers → Completes
    (.mgeFrameReceive (.tftp peer block last)) s fun t =>
      (last = true → peer ∉ t.mgmt.mgePeers) ∧ t.out = s.out ++ [Out.mgeTftp peer block] ∧ SameBut [.mgmt, .out] s t) ∧
  (∀ (s : State) (f : MgeFrame) (peer block : Nat) (last : Bool), s.mgeUp = true → f = MgeFrame.echo false ∨ f =
    MgeFrame.neighbourSolicit false ∨ f = MgeFrame.other ∨ (f = MgeFrame.solicit peer ∧ (s.flag
    Reg.MGT_MGE_CFG_SERVE_IMAGE = false ∨ (4 ≤ s.mgmt.mgePeers.length ∧ peer ∉ s.mgmt.mgePeers))) ∨ (f = MgeFrame.tftp
    peer block last ∧ peer ∉ s.mgmt.mgePeers) → Completes (.mgeFrameReceive f) s fun t =>
      t = s.bump Reg.MGT_MGE_DROPPED_COUNT ∧ t.fld Reg.MGT_MGE_DROPPED_COUNT = min 0xFFFFFFFF (s.fld
      Reg.MGT_MGE_DROPPED_COUNT + 1)) ∧
  (∀ (s : State) (f : MgeFrame), s.mgeUp = false → Completes (.mgeFrameReceive f) s fun t =>
      t = s) ∧
  (∀ (s : State) (op : OpKey) (o : Op) (x : Option Bytes) (req : Nat) (c : Instr), s.Ready op o → o.fn ≠ 0 → isMgmt
    req o.desc = true → (req, c) ∈ [(0x1, Instr.updateStage op), (0x2, .updateAbort op), (0x3, .flashKeep op), (0x4,
    .flashResync op), (0x5, .svnCommit op x), (0x6, .coxReload op), (0x7, .ddrDomain op), (0x9, .evrClear op x), (0xB,
    .ddrExtent op), (0xC, .memRetire op), (0xD, .codeTable op x), (0xE, .timeConfirm op), (0xF, .unitPower op), (0x10,
    .testAccess op x), (0x11, .fltProbation op)] → Completes (c) s fun t =>
      t.endedWith op stNOT_PERMITTED = true ∧ SameBut [.hif] s t)

/-- EVR_SUMMARY, EVR_PERSIST, EVR_CLEAR, TEST_ACCESS, JTAG_INSTRUCTION and CONSOLE_LINE_SENT (R508 to R516). That the core is off
while the pins are driven: notes/assumptions/202.md. -/
def Obligations.EventRecordRows : Prop :=
  (∀ (s : State) (code : Nat), s.boot.porst = false → (s.bucket code).suppressed ≠ 0 → 1000000000 ≤ (s.bucket
    code).tokens → Ev.severity code < 3 → Completes (.evrSummary code) s fun t =>
      t.evr.buckets.find code = some { s.bucket code with
        tokens := (s.bucket code).tokens - 1000000000, suppressed := 0 } ∧ t.evr.nextSeq = s.evr.nextSeq + 1) ∧
  (∀ (s : State) (code : Nat), (s.bucket code).suppressed = 0 ∨ (s.bucket code).tokens < 1000000000 → Completes
    (.evrSummary code) s fun t =>
      t = s) ∧
  (∀ (s : State) (r : EvRecord) (rest : List EvRecord), s.boot.porst = false → s.railOk 1 = true → s.evr.persistQ = r
    :: rest → s.evr.flashRecs.length < 4096 → Completes (.evrPersist) s fun t =>
      t.evr.persistQ = rest ∧ t.evr.flashRecs = s.evr.flashRecs ++ [r] ∧ SameBut [.evr] s t) ∧
  (∀ (s : State), s.railOk 1 = false ∨ s.evr.persistQ = [] → Completes (.evrPersist) s fun t =>
      t = s) ∧
  (∀ (s : State) (op : OpKey) (o : Op), s.Ready op o → isMgmt 0x9 o.desc = true → o.fn = 0 → Completes (.evrClear op
    none) s fun t =>
      t.endedWith op stHOST_ABORT = true ∧ SameBut [.hif] s t) ∧
  (∀ (s : State) (op : OpKey) (o : Op) (b : Bytes), s.Ready op o → isMgmt 0x9 o.desc = true → o.fn = 0 → Completes
    (.evrClear op (some b)) s fun t =>
      match (if mLen o.desc = 4755 then s.tokenRefusal 1 b else some 5) with
      | some e => (t.op? op).map Op.phase = some (OpPhase.done ⟨dTag o.desc, stBAD_FIELD, false, e, o.seg, 0⟩) ∧ SameBut [.hif] s t
      | none => t.endedWith op stOK = true ∧ t.evr.flashRecs = s.evr.flashRecs.filter fun r => decide (getLE b 0x30 8 < r.seq)) ∧
  (∀ (s : State) (op : OpKey) (o : Op), s.Ready op o → isMgmt 0x10 o.desc = true → o.fn = 0 → Completes (.testAccess
    op none) s fun t =>
      t.endedWith op stHOST_ABORT = true ∧ SameBut [.hif] s t) ∧
  (∀ (s : State) (op : OpKey) (o : Op) (b : Bytes), s.Ready op o → isMgmt 0x10 o.desc = true → o.fn = 0 → Completes
    (.testAccess op (some b)) s fun t =>
      match (if mLen o.desc = 4755 then s.tokenRefusal 2 b else some 5) with
      | some e => (t.op? op).map Op.phase = some (OpPhase.done ⟨dTag o.desc, stBAD_FIELD, false, e, o.seg, 0⟩) ∧ SameBut [.hif] s t
      | none => t.endedWith op stOK = true ∧ t.mgmt.testBit = true ∧ t.fld Reg.MGT_TEST_STATUS_SCOPE = getLE b 7 1 ∧
          (getLE b 7 1 ≠ 0 → t.flag Reg.MGT_TEST_STATUS_EVER = true)) ∧
  (∀ (s : State) (i : JtagInstr) (n : Nat), s.boot.porst = false → s.pinsScanned = false → i = JtagInstr.bypass ∨ (i
    = JtagInstr.boundary n false ∧ 1 ≤ s.fld Reg.MGT_TEST_STATUS_SCOPE) ∨ (i = JtagInstr.debug n ∧ 2 ≤ s.fld
    Reg.MGT_TEST_STATUS_SCOPE) → Completes (.jtagInstruction i) s fun t =>
      t = { s with
      mgmt := { s.mgmt with jtag := some i } }) ∧
  (∀ (s : State), s.boot.porst = false → s.pinsScanned = false → Completes (.jtagInstruction .idcode) s fun t =>
      t.mgmt.jtag = some .idcode ∧ t.out = s.out ++ [Out.jtagOut 0xA512014F] ∧ SameBut [.mgmt, .out] s t) ∧
  (∀ (s : State) (n : Nat), s.boot.porst = false → 1 ≤ s.fld Reg.MGT_TEST_STATUS_SCOPE → Completes (.jtagInstruction
    (.boundary n true)) s fun t =>
      t.mgmt.jtag = some (.boundary n true) ∧ t.coreOff = true) ∧
  (∀ (s : State) (i : JtagInstr) (n : Nat) (b : Bool), (i = JtagInstr.boundary n b ∧ s.fld Reg.MGT_TEST_STATUS_SCOPE
    = 0) ∨ (i = JtagInstr.debug n ∧ s.fld Reg.MGT_TEST_STATUS_SCOPE < 2) → Completes (.jtagInstruction i) s fun t =>
      t = s) ∧
  (∀ (s : State) (n : Nat) (rest : List Nat), s.boot.porst = false → s.mgmt.console = n :: rest → Completes
    (.consoleLineSent) s fun t =>
      t = ({ s with
      mgmt := { s.mgmt with console := rest } }).emit (.uartLine n)) ∧
  (∀ (s : State), s.mgmt.console = [] → Completes (.consoleLineSent) s fun t =>
      t = s)

/-- TIME_CAPTURE, TIME_STEP_REQUEST, TIME_CONFIRM, PPS_IN_EDGE, PPS_OUT_PULSE, PPS_OUT_FALL, PTP_MESSAGE and PTP_MASTER_LOST
(R462 to R473), and ATTEST_REPORT (R455 to R458). -/
def Obligations.TimeRows : Prop :=
  (∀ (s : State) (w : Word), s.boot.porst = false → bitAt w.toNat 0 = true → Completes (.timeCapture w) s fun t =>
      t.fld Reg.TIM_SNAP_SEC_LO_SEC = s.time.sec % 2 ^ 32 ∧ t.fld Reg.TIM_SNAP_SEC_HI_SEC = s.time.sec / 2 ^ 32 % 2
      ^ 16 ∧ t.fld Reg.TIM_SNAP_NS_NS = s.time.ns % 2 ^ 32 ∧ t.fld Reg.TIM_SNAP_FRAC_FRAC = s.time.frac / 2 ^ 16 % 2
      ^ 16 ∧ SameBut [.regs .tim] s t) ∧
  (∀ (s : State) (w : Word), bitAt w.toNat 0 = false → Completes (.timeCapture w) s fun t =>
      t = s) ∧
  (∀ (s : State) (d : Int), s.boot.porst = false → s.flag Reg.TIM_STATUS_TRACK = false ∨ d.natAbs ≤ s.fld
    Reg.TIM_GUARD_CFG_JUMP_NS → Completes (.timeStepRequest d) s fun t =>
      t.time.total = (((s.time.total : Int) + d * 2 ^ 32) % (timeRange : Int)).toNat ∧ t.time.ns < 1000000000 ∧
      t.fld Reg.TIM_STATUS_STEPS_APPLIED = min 0xFFFF (s.fld Reg.TIM_STATUS_STEPS_APPLIED + 1)) ∧
  (∀ (s : State) (d : Int), s.boot.porst = false → s.flag Reg.TIM_STATUS_TRACK = false → Completes (.timeStepRequest
    d) s fun t =>
      t.time.consistApplied = (if d.natAbs ≤ s.fld Reg.TIM_GUARD_CFG_JUMP_NS then s.time.consistApplied + 1 else 0)
      ∧ (t.flag Reg.TIM_STATUS_TRACK = true ↔ s.fld Reg.TIM_GUARD_CFG_N_CONSIST ≤ (if d.natAbs ≤ s.fld
      Reg.TIM_GUARD_CFG_JUMP_NS then s.time.consistApplied + 1 else 0))) ∧
  (∀ (s : State) (d : Int), s.boot.porst = false → s.flag Reg.TIM_STATUS_TRACK = true → s.fld
    Reg.TIM_GUARD_CFG_JUMP_NS < d.natAbs → s.flag Reg.TIM_STATUS_JUMP_PENDING = false → -(2 ^ 63) ≤ d → d < 2 ^ 63 →
    Completes (.timeStepRequest d) s fun t =>
      t.time = s.time ∧ t.candidate = d ∧ t.flag Reg.TIM_STATUS_JUMP_PENDING = true ∧ t.flag Reg.TIM_STATUS_ARMED =
      false ∧ t.fld Reg.TIM_STATUS_CONSIST_COUNT = 1 ∧ s.Records t Ev.TIME_JUMP_REFUSED 0 (ofSigned 64 d)) ∧
  (∀ (s : State) (d : Int), s.boot.porst = false → s.flag Reg.TIM_STATUS_TRACK = true → s.fld
    Reg.TIM_GUARD_CFG_JUMP_NS < d.natAbs → s.flag Reg.TIM_STATUS_JUMP_PENDING = true → (d - s.candidate).natAbs ≤
    s.fld Reg.TIM_GUARD_CFG2_CONSIST_NS → s.fld Reg.TIM_GUARD_CFG_N_CONSIST ≤ min 0xF (s.fld
    Reg.TIM_STATUS_CONSIST_COUNT + 1) → -(2 ^ 63) ≤ d → d < 2 ^ 63 → Completes (.timeStepRequest d) s fun t =>
      t.time = s.time ∧ t.candidate = d ∧ t.flag Reg.TIM_STATUS_ARMED = true) ∧
  (∀ (s : State) (op : OpKey) (o : Op), s.Ready op o → isMgmt 0xe o.desc = true → o.fn = 0 → s.flag
    Reg.TIM_STATUS_ARMED = false → Completes (.timeConfirm op) s fun t =>
      t.endedWith op stBAD_FIELD = true ∧ SameBut [.hif] s t) ∧
  (∀ (s : State) (op : OpKey) (o : Op), s.Ready op o → isMgmt 0xe o.desc = true → o.fn = 0 → s.flag
    Reg.TIM_STATUS_ARMED = true → Completes (.timeConfirm op) s fun t =>
      t.endedWith op stOK = true ∧ t.flag Reg.TIM_STATUS_ARMED = false ∧ t.candidate = 0 ∧ t.time.total =
      (((s.time.total : Int) + s.candidate * 2 ^ 32) % (timeRange : Int)).toNat) ∧
  (∀ (s : State), s.boot.porst = false → s.flag Reg.TIM_PPS_CFG_IN_EN = true → ((s.time.ppsLast).map fun x => decide
    (x + 500000000 ≤ s.uptimeNs)).getD true = true → Completes (.ppsInEdge) s fun t =>
      t.time.ppsLast = some s.uptimeNs ∧ t.fld Reg.TIM_PPS_IN_SEC_SEC = s.time.sec % 2 ^ 32 ∧ t.fld
      Reg.TIM_PPS_IN_NS_NS = s.time.ns % 2 ^ 32 ∧ t.fld Reg.TIM_PPS_IN_COUNT_COUNT = (s.fld
      Reg.TIM_PPS_IN_COUNT_COUNT + 1) % 2 ^ 32 ∧ SameBut [.regs .tim, .time] s t) ∧
  (∀ (s : State) (x : Nat), s.flag Reg.TIM_PPS_CFG_IN_EN = false ∨ (s.time.ppsLast = some x ∧ s.uptimeNs < x +
    500000000) → Completes (.ppsInEdge) s fun t =>
      t = s) ∧
  (∀ (s : State), s.boot.porst = false → Completes (.ppsOutPulse) s fun t =>
      t = if s.flag Reg.TIM_PPS_CFG_OUT_EN = true then { s with
      time := { s.time with ppsOut := true } } else s) ∧
  (∀ (s : State), s.boot.porst = false → Completes (.ppsOutFall) s fun t =>
      t = { s with
      time := { s.time with ppsOut := false } }) ∧
  (∀ (s : State) (m : PtpMsg), m.domain ≠ s.fld Reg.TIM_PTP_CFG_DOMAIN ∨ m.kind = PtpKind.sync ∨ m.kind =
    PtpKind.other ∨ (m.port = 576 ∧ (s.boot.porst = true ∨ s.railOk 6 = false)) ∨ (m.port ≠ 576 ∧ (s.coreOff = true ∨
    s.portUp m.port = false)) → Completes (.ptpMessage m) s fun t =>
      t = s) ∧
  (∀ (s : State) (m : PtpMsg), (m.port = 576 ∧ s.boot.porst = false ∧ s.railOk 6 = true) ∨ (m.port ≠ 576 ∧ s.coreOff
    = false ∧ s.portUp m.port = true) → m.domain = s.fld Reg.TIM_PTP_CFG_DOMAIN → m.kind = PtpKind.announce →
    Completes (.ptpMessage m) s fun t =>
      t.time.ptpMasters = withElem s.time.ptpMasters m.port ∧ t.flag Reg.TIM_STATUS_HOLDOVER = false ∧ SameBut
      [.regs .tim, .time] s t) ∧
  (∀ (s : State) (m : PtpMsg) (peer : Bool), (m.port = 576 ∧ s.boot.porst = false ∧ s.railOk 6 = true) ∨ (m.port ≠
    576 ∧ s.coreOff = false ∧ s.portUp m.port = true) → m.domain = s.fld Reg.TIM_PTP_CFG_DOMAIN → m.kind = (if peer
    then PtpKind.pdelayReq else PtpKind.delayReq) → Completes (.ptpMessage m) s fun t =>
      t = if s.fld Reg.TIM_PTP_CFG_DELAY_MECH = bit peer then s.emit (.ptpReply m.port peer (ofSigned 80 ((m.stamp :
      Int) + toSigned 16 (s.fld Reg.TIM_PORT_ADJ_RX_ADJ m.port)))) else s) ∧
  (∀ (s : State), s.boot.porst = false → Completes (.ptpMasterLost) s fun t =>
      t.time.ptpMasters = [] ∧ t.flag Reg.TIM_STATUS_HOLDOVER = true ∧ t.inc = s.inc ∧ SameBut [.regs .tim, .time] s
      t) ∧
  (∀ (s : State) (op : OpKey) (nonce : Option Bytes), s.upState = upHANDOVER → Completes (.attestReport op nonce) s
    fun t =>
      t = s) ∧
  (∀ (s : State) (op : OpKey) (o : Op) (nonce : Option Bytes), s.Ready op o → isMgmt 0x0008 o.desc = true → s.upState
    ≠ upHANDOVER → Completes (.attestReport op nonce) s fun t =>
      if mLen o.desc < 64 ∨ mLen o.desc < reportLen (s.attEntries o.fn) then t.endedWith op stBAD_FIELD = true ∧ SameBut [.hif] s t
      else match nonce with
        | none => t.endedWith op stHOST_ABORT = true ∧ SameBut [.hif] s t
        | some b => t.endedWith op stOK = true ∧ t.out = s.out ++ [Out.hostWrite o.fn (mAddr o.desc) (s.report o.fn b)])

/-- FEED_LINE_LOW, FEED_LINE_RESTORE, FEED_LOST, FEED_RESTORED and WATCH_SAMPLE (R36, R37, R166, R171, R212, R493). -/
def Obligations.FeedRows : Prop :=
  (∀ (s : State) (g line : Nat), s.coreOff = false → s.groupSt g ≠ gsOFF → line < 17 → line ∉ (s.grp g).low →
    Completes (.feedLineLow g line) s fun t =>
      (t.grp g).low = (s.grp g).low ++ [line] ∧ ((s.grp g).low ≠ [] → t.groupSt g = gsFEED_LOST)) ∧
  (∀ (s : State) (g line : Nat), s.coreOff = false → s.groupSt g = gsACQUIRING ∨ s.groupSt g = gsUP ∨ s.groupSt g =
    gsID_MISMATCH → line < 17 → (s.grp g).low = [] → ((s.optDir g false).bind.getD line 31) ≠ 31 → line ≠ (s.optDir g
    false).spare → (s.optDir g false).spare ≠ 31 → (s.optDir g false).holder = none → (s.optDir g false).waiting = []
    → (s.optDir g false).remap = none → Completes (.feedLineLow g line) s fun t =>
      (t.optDir g false).holder = some (⟨.feed, ((s.optDir g false).bind.getD line 31), line⟩ : SpareNeed) ∧
      (t.optDir g false).remap =
        some { lane := ((s.optDir g false).bind.getD line 31), src := line, dst := (s.optDir g false).spare, mcnt := (s.mcnt + 200) % 256 }) ∧
  (∀ (s : State) (g line : Nat), s.groupSt g = gsOFF ∨ 17 ≤ line ∨ line ∈ (s.grp g).low → Completes (.feedLineLow g
    line) s fun t =>
      t = s) ∧
  (∀ (s : State) (g line : Nat), s.coreOff = false → line ∈ (s.grp g).low → Completes (.feedLineRestore g line) s fun
    t =>
      (t.grp g).low = without (s.grp g).low line ∧ (s.groupRuns g = false → SameBut [.lanes] s t)) ∧
  (∀ (s : State) (g line : Nat), line ∉ (s.grp g).low → Completes (.feedLineRestore g line) s fun t =>
      t = s) ∧
  (∀ (s : State) (g : Nat) (lines : List Nat), s.coreOff = false → s.groupSt g ≠ gsOFF → s.groupSt g ≠ gsFEED_LOST →
    2 ≤ lines.length → Completes (.feedLost g lines) s fun t =>
      t.groupSt g = gsFEED_LOST ∧ (t.grp g).low = lines) ∧
  (∀ (s : State) (g : Nat) (lines : List Nat), s.groupSt g = gsOFF ∨ s.groupSt g = gsFEED_LOST ∨ lines.length < 2 →
    Completes (.feedLost g lines) s fun t =>
      t = s) ∧
  (∀ (s : State) (g : Nat), s.coreOff = false → s.groupSt g = gsFEED_LOST → Completes (.feedRestored g) s fun t =>
      (t.grp g).low = [] ∧ t.groupSt g = if s.groupMayRun g = false then gsFEED_LOST else if g ∈ s.bypassedGroups
      then gsWATCH else gsACQUIRING) ∧
  (∀ (s : State) (g : Nat), s.groupSt g ≠ gsFEED_LOST → Completes (.feedRestored g) s fun t =>
      t = s) ∧
  (∀ (s : State) (g : Nat), s.coreOff = false → s.groupSt g = gsWATCH → Completes (.watchSample g false) s fun t =>
      t = s.onGrp g fun x => { x with light := 0 }) ∧
  (∀ (s : State) (g : Nat), s.coreOff = false → s.groupSt g = gsWATCH → (s.grp g).light < 2 ∨ g ∈ s.bypassedGroups →
    Completes (.watchSample g true) s fun t =>
      t = s.onGrp g fun x => { x with light := x.light + 1 }) ∧
  (∀ (s : State) (g : Nat), s.groupSt g = gsWATCH → 2 ≤ (s.grp g).light → g ∉ s.bypassedGroups → s.groupMayRun g =
    true → Completes (.watchSample g true) s fun t =>
      t.groupSt g = gsACQUIRING) ∧
  (∀ (s : State) (g : Nat) (above : Bool), s.groupSt g ≠ gsWATCH → Completes (.watchSample g above) s fun t =>
      t = s)

/-- MARKER_RECEIVE, PG_ID_CLEAR, ALIAS_RESTORE, HEATER_UPDATE, RING_SWEEP_DONE and LANE_FRAME_RECEIVE (R158 to R170, R175). -/
def Obligations.MarkerRows : Prop :=
  (∀ (s : State) (g c skew : Nat) (b : Bytes), s.coreOff = false → s.groupSt g = gsACQUIRING ∨ s.groupSt g = gsUP ∨
    s.groupSt g = gsID_MISMATCH → c < 17 → markerOf b = none → (s.och g c).bad < 3 ∨ s.rxLocked g c = false →
    Completes (.markerReceive g c ⟨skew, b⟩) s fun t =>
      t = s.setOch g c { s.och g c with
        good := 0, bad := (s.och g c).bad + 1, foreign := 0 }) ∧
  (∀ (s : State) (g c skew : Nat) (b : Bytes), s.coreOff = false → s.groupSt g = gsACQUIRING ∨ s.groupSt g = gsUP ∨
    s.groupSt g = gsID_MISMATCH → c < 17 → markerOf b = none → 3 ≤ (s.och g c).bad → s.rxLocked g c = true → Completes
    (.markerReceive g c ⟨skew, b⟩) s fun t =>
      t.rxLocked g c = false ∧ t.fld Reg.OPT_LANE_EVENTS_ALIGN_LOSS (chanInst g c) = min 0xFF (s.fld
      Reg.OPT_LANE_EVENTS_ALIGN_LOSS (chanInst g c) + 1)) ∧
  (∀ (s : State) (g c skew : Nat) (b : Bytes) (m : Marker), s.coreOff = false → s.groupSt g = gsID_MISMATCH → c < 17
    → skew ≤ 200 → markerOf b = some m → m.chan = c → 1 ≤ (s.och g c).good → (s.och g c).rxRing = true → Completes
    (.markerReceive g c ⟨skew, b⟩) s fun t =>
      t.rxLocked g c = true ∧ t.fld Reg.OPT_PG_FAR_FAR_TAG g = m.tag % 2 ^ 16 ∧ t.fld Reg.OPT_PG_FAR_FAR_OPG g =
      m.opg % 64 ∧ t.flag Reg.OPT_PG_FAR_VALID g = true ∧ (t.och g c).lcc = m.lcc ∧ (t.och g c).good = (s.och g
      c).good + 1 ∧ (t.och g c).bad = 0) ∧
  (∀ (s : State) (g c skew : Nat) (b : Bytes) (m : Marker), s.coreOff = false → s.groupSt g = gsACQUIRING ∨ s.groupSt
    g = gsUP ∨ s.groupSt g = gsID_MISMATCH → c < 17 → 200 < skew → markerOf b = some m → s.rxLocked g c = true →
    Completes (.markerReceive g c ⟨skew, b⟩) s fun t =>
      t.rxLocked g c = false ∧ t.fld Reg.OPT_LANE_EVENTS_ALIGN_LOSS (chanInst g c) = min 0xFF (s.fld
      Reg.OPT_LANE_EVENTS_ALIGN_LOSS (chanInst g c) + 1)) ∧
  (∀ (s : State) (g c skew : Nat) (b : Bytes), s.groupSt g = gsOFF ∨ s.groupSt g = gsWATCH ∨ s.groupSt g =
    gsFEED_LOST ∨ 17 ≤ c → Completes (.markerReceive g c ⟨skew, b⟩) s fun t =>
      t = s) ∧
  (∀ (s : State) (g : Nat), s.coreOff = false → s.groupSt g = gsID_MISMATCH → s.allAligned g = true → s.identityOk g
    = true → Completes (.pgIdClear g) s fun t =>
      t.groupSt g = gsUP) ∧
  (∀ (s : State) (g : Nat), s.groupSt g ≠ gsID_MISMATCH ∨ s.allAligned g = false ∨ s.identityOk g = false → Completes
    (.pgIdClear g) s fun t =>
      t = s) ∧
  (∀ (s : State) (g c : Nat) (rx : Bool), s.coreOff = false → s.groupSt g = gsUP → (if rx then s.rxLocked g c else
    s.flag Reg.OPT_LANE_STATUS_TX_LOCK (chanInst g c)) = true → s.chanSt g c ≠ csRETIRED → Completes (.aliasRestore g
    rx c) s fun t =>
      t.chanSt g c = csIN_SERVICE ∧ (rx = true → ∀ a ∈ (t.grp g).aliases, a.1 ≠ c)) ∧
  (∀ (s : State) (g c : Nat) (rx : Bool), s.groupSt g ≠ gsUP ∨ (if rx then s.rxLocked g c else s.flag
    Reg.OPT_LANE_STATUS_TX_LOCK (chanInst g c)) = false → Completes (.aliasRestore g rx c) s fun t =>
      t = s) ∧
  (∀ (s : State) (g c err code : Nat), s.coreOff = false → c < 17 → s.groupSt g ≠ gsOFF → err < 2500 → 205 ≤ code →
    code ≤ 3890 → 99 ≤ (s.och g c).txIn → Completes (.heaterUpdate g c false err code) s fun t =>
      t.fld Reg.OPT_LANE_STATUS_HEATER (chanInst g c) = code ∧ t.flag Reg.OPT_LANE_STATUS_TX_LOCK (chanInst g c) =
      true ∧ (t.och g c).txIn = 100) ∧
  (∀ (s : State) (g c err code : Nat), s.coreOff = false → c < 17 → s.groupSt g ≠ gsOFF → err < 2500 → 205 ≤ code →
    code ≤ 3890 → 99 ≤ (s.och g c).rxIn → Completes (.heaterUpdate g c true err code) s fun t =>
      (t.och g c).rxRing = true ∧ (t.och g c).rxHeater = code ∧ (t.och g c).rxIn = 100 ∧ SameBut [.lanes] s t) ∧
  (∀ (s : State) (g c err code : Nat), s.coreOff = false → c < 17 → s.groupSt g ≠ gsOFF → 8000 < err → 9 ≤ (s.och g
    c).txOut → Completes (.heaterUpdate g c false err code) s fun t =>
      t.fld Reg.OPT_LANE_STATUS_HEATER (chanInst g c) = code % 4096 ∧ t.flag Reg.OPT_LANE_STATUS_TX_LOCK (chanInst g
      c) = false) ∧
  (∀ (s : State) (g c err code : Nat), s.coreOff = false → c < 17 → s.groupSt g ≠ gsOFF → 8000 < err → 9 ≤ (s.och g
    c).rxOut → (s.och g c).rxRing = true → Completes (.heaterUpdate g c true err code) s fun t =>
      (t.och g c).rxRing = false ∧ t.rxLocked g c = false) ∧
  (∀ (s : State) (g c err code : Nat), s.coreOff = false → c < 17 → s.groupSt g ≠ gsOFF → err ≤ 8000 → code < 205 →
    s.flag Reg.OPT_LANE_STATUS_TX_LOCK (chanInst g c) = true → Completes (.heaterUpdate g c false err code) s fun t =>
      t.fld Reg.OPT_LANE_STATUS_HEATER (chanInst g c) = code + 2920 ∧ t.flag Reg.OPT_LANE_STATUS_TX_LOCK (chanInst g
      c) = false ∧ t.fld Reg.OPT_LANE_EVENTS_HOPS (chanInst g c) = min 0xFF (s.fld Reg.OPT_LANE_EVENTS_HOPS
      (chanInst g c) + 1)) ∧
  (∀ (s : State) (g c err code : Nat) (rx : Bool), 17 ≤ c ∨ s.groupSt g = gsOFF → Completes (.heaterUpdate g c rx err
    code) s fun t =>
      t = s) ∧
  (∀ (s : State) (g c code : Nat), s.coreOff = false → s.groupSt g = gsACQUIRING → c < 17 → Completes (.ringSweepDone
    g c true true code) s fun t =>
      t.rxLocked g c = true ∧ (t.och g c).rxHeater = code ∧ (t.och g c).rxCal = code ∧ (t.och g c).rxRing = true ∧
      SameBut [.regs .opt, .lanes] s t) ∧
  (∀ (s : State) (g c code : Nat), s.coreOff = false → s.groupSt g = gsACQUIRING → c < 17 → Completes (.ringSweepDone
    g c false true code) s fun t =>
      t.flag Reg.OPT_LANE_STATUS_TX_LOCK (chanInst g c) = true ∧ t.fld Reg.OPT_LANE_STATUS_HEATER (chanInst g c) =
      code % 4096 ∧ SameBut [.regs .opt] s t) ∧
  (∀ (s : State) (g c code : Nat) (rx : Bool), s.coreOff = false → s.groupSt g = gsACQUIRING → c < 17 → (if rx then
    (s.och g c).rxSweeps else (s.och g c).txSweeps) = 0 → Completes (.ringSweepDone g c rx false code) s fun t =>
      t = s.setOch g c (if rx then { s.och g c with rxSweeps := 1 } else { s.och g c with txSweeps := 1 })) ∧
  (∀ (s : State) (g c code : Nat) (rx : Bool), s.coreOff = false → s.groupSt g = gsACQUIRING → c < 17 → (if rx then
    (s.och g c).rxSweeps else (s.och g c).txSweeps) ≠ 0 → Completes (.ringSweepDone g c rx false code) s fun t =>
      (t.och g c).acquireFail = true) ∧
  (∀ (s : State) (g c code : Nat), s.coreOff = false → s.groupSt g = gsACQUIRING → c < 17 → 1 ≤ (s.och g c).rxSweeps
    → ((List.range 17).all fun j => j == c || decide (2 ≤ (s.och g j).rxSweeps)) = true → Completes (.ringSweepDone g
    c true false code) s fun t =>
      t.groupSt g = gsWATCH) ∧
  (∀ (s : State) (g c code : Nat) (rx locked : Bool), s.groupSt g ≠ gsACQUIRING ∨ 17 ≤ c → Completes (.ringSweepDone
    g c rx locked code) s fun t =>
      t = s) ∧
  (∀ (s : State) (g c lost : Nat) (words : List Nat), s.coreOff = false → c < 17 → s.rxLocked g c = true →
    words.length = 272 → Completes (.laneFrameReceive (some g) c words lost) s fun t =>
      t.fld Reg.OPT_LANE_CW_UNCORR_COUNT (chanInst g c) = min 0xFFFFFFFF
        (s.fld Reg.OPT_LANE_CW_UNCORR_COUNT (chanInst g c) + ((laneDecode words).filter fun w => !w.good).length) ∧
      t.fld Reg.OPT_LANE_CW_CORR_COUNT (chanInst g c) = min 0xFFFFFFFF (s.fld Reg.OPT_LANE_CW_CORR_COUNT (chanInst g c) +
        ((laneDecode words).filter fun w => w.good && decide (0 < w.fixed)).length)) ∧
  (∀ (s : State) (g c lost : Nat) (words : List Nat), 17 ≤ c ∨ s.rxLocked g c = false → Completes (.laneFrameReceive
    (some g) c words lost) s fun t =>
      t = s) ∧
  (∀ (s : State) (l lost : Nat) (syms : List Nat), s.coreOff = false → s.laneSt l = 3 → syms.length = 544 → Completes
    (.laneFrameReceive none l syms lost) s fun t =>
      t.fld Reg.ELN_LANE_CW_UNCORR_COUNT l =
        min 0xFFFFFFFF (s.fld Reg.ELN_LANE_CW_UNCORR_COUNT l + bit (!(codeWordOf syms []).good)) ∧
      t.fld Reg.ELN_LANE_CW_CORR_COUNT l = min 0xFFFFFFFF (s.fld Reg.ELN_LANE_CW_CORR_COUNT l +
        bit ((codeWordOf syms []).good && decide (0 < (codeWordOf syms []).fixed)))) ∧
  (∀ (s : State) (l lost : Nat) (syms : List Nat), s.laneSt l ≠ 3 → Completes (.laneFrameReceive none l syms lost) s
    fun t =>
      t = s)

/-- LCC_REMAP_REQ, LCC_REMAP_ACK, LCC_TX_ALIAS, LCC_CAL_DONE, LCC_RESEND, REMAP_SWITCH, FEATHER_STEP and FEATHER_CAL_DONE
(R164 to R173). What the far end knows of the time of its acknowledgement: notes/assumptions/170.md. -/
def Obligations.LaneControlRows : Prop :=
  (∀ (s : State) (g seq arg : Nat), s.coreOff = false → s.lccHeard g 1 seq arg = true → argDst arg < 17 → argLane arg
    < 16 → argSrc arg ≠ 31 → (s.optDir g true).bind.getD (argSrc arg) 31 = argLane arg → s.chanSt g (argDst arg) ≠
    csRETIRED → (s.optDir g true).remap = none → (s.optDir g true).bind.getD (argDst arg) 31 = 31 → Completes
    (.lccRemapReq g false seq arg) s fun t =>
      (t.optDir g true).remap = some (⟨argLane arg, argSrc arg, argDst arg, argMcnt arg, false, true⟩ : Remap) ∧
      t.out = s.out ++ [Out.lcc g (lccWord 2 (s.grp g).lccSeq arg)] ∧ (t.grp g).lccSeen.head? = some (1, seq) ∧
      SameBut [.lanes, .out] s t) ∧
  (∀ (s : State) (g seq arg : Nat), s.coreOff = false → s.lccHeard g 1 seq arg = true → argDst arg < 17 → argLane arg
    < 16 → argSrc arg ≠ 31 → (s.optDir g false).bind.getD (argSrc arg) 31 = argLane arg → s.chanSt g (argDst arg) ≠
    csRETIRED → (s.optDir g false).remap = none → argDst arg = (s.optDir g false).spare → (s.optDir g false).holder =
    none → Completes (.lccRemapReq g true seq arg) s fun t =>
      (t.optDir g false).remap = some (⟨argLane arg, argSrc arg, argDst arg, argMcnt arg, false, true⟩ : Remap) ∧
      (t.optDir g false).holder = some (⟨.cover, argLane arg, argSrc arg⟩ : SpareNeed) ∧ t.out = s.out ++ [Out.lcc g
      (lccWord 2 (s.grp g).lccSeq arg)] ∧ SameBut [.lanes, .out] s t) ∧
  (∀ (s : State) (g seq arg : Nat) (asks : Bool), s.lccHeard g 1 seq arg = true → 17 ≤ argDst arg ∨ 16 ≤ argLane arg
    ∨ s.chanSt g (argDst arg) = csRETIRED → Completes (.lccRemapReq g asks seq arg) s fun t =>
      (∀ rx, t.optDir g rx = s.optDir g rx) ∧ SameBut [.lanes] s t) ∧
  (∀ (s : State) (g typ seq arg : Nat) (asks : Bool) (c : Instr), s.lccHeard g typ seq arg = false → (typ, c) ∈ [(1,
    Instr.lccRemapReq g asks seq arg), (2, .lccRemapAck g seq arg), (3, .lccTxAlias g seq arg), (4, .lccCalDone g seq
    arg)] → Completes (c) s fun t =>
      t = s) ∧
  (∀ (s : State) (g seq arg : Nat) (r : Remap), s.coreOff = false → s.lccHeard g 2 seq arg = true → (s.optDir g
    true).remap = none → (s.optDir g false).remap = some r → r.asked = true → r.acked = false → remapArg r = arg → 8 ≤
    (r.mcnt + 256 - s.mcnt) % 256 → (r.mcnt + 256 - s.mcnt) % 256 ≤ 200 → Completes (.lccRemapAck g seq arg) s fun t
    =>
      (t.optDir g false).remap = some { r with acked := true } ∧ SameBut [.lanes] s t) ∧
  (∀ (s : State) (g seq arg : Nat) (r : Remap), s.coreOff = false → s.lccHeard g 2 seq arg = true → (s.optDir g
    true).remap = none → (s.optDir g false).remap = some r → r.asked = true → r.acked = false → remapArg r = arg →
    (r.mcnt + 256 - s.mcnt) % 256 < 8 ∨ 200 < (r.mcnt + 256 - s.mcnt) % 256 → Completes (.lccRemapAck g seq arg) s fun
    t =>
      (t.optDir g false).remap = some { r with mcnt := (s.mcnt + 200) % 256 } ∧ SameBut [.lanes, .out] s t) ∧
  (∀ (s : State) (g seq arg c : Nat), s.coreOff = false → s.lccHeard g 3 seq arg = true → (s.optDir g false).chanOf
    (argLane arg) = some c → s.spareUsable g false = true → c ≠ (s.optDir g false).spare → (s.optDir g false).holder =
    none → (s.optDir g false).waiting = [] → Completes (.lccTxAlias g seq arg) s fun t =>
      t.flag Reg.OPT_LANE_STATUS_TX_LOCK (chanInst g c) = false ∧ (t.optDir g false).holder = some (⟨.cover, argLane
      arg, c⟩ : SpareNeed) ∧ t.fld Reg.OPT_LANE_EVENTS_TX_ALIAS (chanInst g c) = min 0xFF (s.fld
      Reg.OPT_LANE_EVENTS_TX_ALIAS (chanInst g c) + 1)) ∧
  (∀ (s : State) (g seq arg : Nat), s.coreOff = false → s.lccHeard g 4 seq arg = true → (s.grp g).calibrating = true
    → (s.grp g).calHere = false → bitsOf arg 14 5 = (s.optDir g false).spare → Completes (.lccCalDone g seq arg) s fun
    t =>
      (t.grp g).calFar = true ∧ (t.grp g).calibrating = true ∧ SameBut [.lanes] s t) ∧
  (∀ (s : State) (g seq arg c : Nat), s.coreOff = false → s.lccHeard g 4 seq arg = true → (s.grp g).calibrating =
    true → (s.grp g).calHere = true → bitsOf arg 14 5 = (s.optDir g false).spare → (s.optDir g false).nextFeather =
    some c → Completes (.lccCalDone g seq arg) s fun t =>
      (t.grp g).calibrating = false ∧ (t.optDir g false).holder = some (⟨.feather, ((s.optDir g false).bind.getD c 31), c⟩ : SpareNeed) ∧
      (t.optDir g false).remap =
        some { lane := ((s.optDir g false).bind.getD c 31), src := c, dst := (s.optDir g false).spare, mcnt := (s.mcnt + 200) % 256 }) ∧
  (∀ (s : State) (g : Nat), s.coreOff = false → Completes (.lccResend g) s fun t =>
      t.out = s.out ++ (s.grp g).lccOut.map (fun (m : LccMsg) => Out.lcc g (lccWord m.typ m.seq m.arg)) ∧ SameBut
      [.out] s t) ∧
  (∀ (s : State) (g : Nat) (rx inTime : Bool) (r : Remap), s.coreOff = false → (s.optDir g rx).remap = some r →
    r.asked = true → r.acked = false → Completes (.remapSwitch g ⟨rx, inTime⟩) s fun t =>
      (t.optDir g rx).remap = some { r with mcnt := (s.mcnt + 200) % 256 } ∧ (t.optDir g rx).bind = (s.optDir g
      rx).bind ∧ SameBut [.lanes, .out] s t) ∧
  (∀ (s : State) (g : Nat) (rx : Bool) (r : Remap), s.coreOff = false → (s.optDir g rx).remap = some r → r.asked =
    false → Completes (.remapSwitch g ⟨rx, false⟩) s fun t =>
      t = s.setOptDir g rx { s.optDir g rx with remap := none }) ∧
  (∀ (s : State) (g : Nat) (rx inTime : Bool) (r : Remap), s.coreOff = false → (s.optDir g rx).remap = some r → (if
    r.asked then r.acked else inTime) = true → (s.optDir g rx).waiting = [] → (s.optDir g rx).back = [] → Completes
    (.remapSwitch g ⟨rx, inTime⟩) s fun t =>
      (t.optDir g rx).remap = none ∧ (t.optDir g rx).bind = ((s.optDir g rx).bind.set r.src 31).set r.dst r.lane ∧
      (∀ l ∈ (t.grp g).lanesDown, l ≠ r.lane)) ∧
  (∀ (s : State) (g : Nat) (inTime : Bool) (r : Remap) (h : SpareNeed), s.coreOff = false → (s.optDir g false).remap
    = some r → (if r.asked then r.acked else inTime) = true → (s.optDir g false).waiting = [] → (s.optDir g
    false).back = [] → (s.optDir g false).holder = some h → h.use = SpareUse.feather → r.src ≠ (s.optDir g
    false).spare → r.src < 17 → r.dst < 17 → r.src ≠ r.dst → s.chanSt g r.src ≠ csRETIRED → s.chanSt g r.dst ≠
    csRETIRED → Completes (.remapSwitch g ⟨false, inTime⟩) s fun t =>
      (t.optDir g false).spare = r.src ∧ (t.optDir g false).holder = none ∧ t.chanSt g r.dst = csIN_SERVICE ∧
      t.chanSt g r.src = csSPARE ∧ t.fld Reg.OPT_PG_STATUS_SPARE_CH g = r.src) ∧
  (∀ (s : State) (g : Nat) (rx inTime : Bool), (s.optDir g rx).remap = none → Completes (.remapSwitch g ⟨rx, inTime⟩)
    s fun t =>
      t = s) ∧
  (∀ (s : State) (g : Nat), s.coreOff = false → s.groupSt g = gsUP → s.flag Reg.OPT_PG_CFG_FEATHER g = true →
    (s.optDir g false).spare ≠ 31 → (s.optDir g false).holder = none → (s.optDir g false).remap = none → (s.grp
    g).calibrating = false → Completes (.featherStep g) s fun t =>
      (t.grp g).calibrating = true ∧ (t.grp g).calHere = false ∧ (t.grp g).calFar = false ∧ (s.chanSt g (s.optDir g
      false).spare ≠ csRETIRED → t.chanSt g (s.optDir g false).spare = csCALIBRATING)) ∧
  (∀ (s : State) (g : Nat), s.groupSt g ≠ gsUP ∨ s.flag Reg.OPT_PG_CFG_FEATHER g = false ∨ (s.optDir g false).spare =
    31 ∨ (s.optDir g false).holder ≠ none ∨ (s.optDir g false).remap ≠ none ∨ (s.grp g).calibrating = true → Completes
    (.featherStep g) s fun t =>
      t = s) ∧
  (∀ (s : State) (g c : Nat), s.coreOff = false → s.groupSt g = gsUP → (s.grp g).calibrating = true → (s.grp
    g).calFar = false → Completes (.featherCalDone g false c) s fun t =>
      t = s.onGrp g fun x => { x with calHere := true }) ∧
  (∀ (s : State) (g c : Nat), s.coreOff = false → s.groupSt g = gsUP → c = (s.optDir g true).spare → (s.och g c).bits
    / 32640 * 1542 < 10000000000 → Completes (.featherCalDone g true c) s fun t =>
      t.fld Reg.OPT_LANE_STATUS_RESID_LOG (chanInst g c) = residLog (s.och g c).bits (s.och g c).corrected % 256 ∧
      t.fld Reg.OPT_LANE_STATUS_HIGH_CAL (chanInst g c) = 0 ∧ (t.och g c).bits = 0 ∧ (t.och g c).rxCal = (s.och g
      c).rxHeater ∧ t.out = s.out ++ [Out.lcc g (lccWord 4 (s.grp g).lccSeq (c * 2 ^ 14))] ∧ SameBut [.regs .opt,
      .lanes, .out] s t) ∧
  (∀ (s : State) (g c : Nat), s.coreOff = false → s.groupSt g = gsUP → c = (s.optDir g true).spare → c < 17 →
    10000000000 ≤ (s.och g c).bits / 32640 * 1542 → (s.och g c).bits < (s.och g c).corrected * 10 ^ s.fld
    Reg.OPT_FEATHER_CFG_RETIRE_EXP → 2 ≤ s.fld Reg.OPT_LANE_STATUS_HIGH_CAL (chanInst g c) → ((List.range 17).all fun
    i => s.chanSt g i != csRETIRED) = true → Completes (.featherCalDone g true c) s fun t =>
      t.fld Reg.OPT_LANE_STATUS_HIGH_CAL (chanInst g c) = 3 ∧ t.chanSt g c = csRETIRED ∧ (t.optDir g true).spare =
      31) ∧
  (∀ (s : State) (g c : Nat) (rx : Bool), s.groupSt g ≠ gsUP → Completes (.featherCalDone g rx c) s fun t =>
      t = s)

/-- ELN_TRAIN_TIMEOUT, ELN_ENERGY_DETECT, LINK_UP and LINK_DOWN (R50, R63, R171 to R177, R204, R403, R447, R489). -/
def Obligations.ElectricalRows : Prop :=
  (∀ (s : State) (l : Nat), s.laneOn l = true → s.laneSt l = 4 → Completes (.elnTrainTimeout l) s fun t =>
      t.laneSt l = 2 ∧ SameBut [.regs .eln, .regs .pwr, .power, .lanes, .out] s t) ∧
  (∀ (s : State) (l : Nat), s.laneOn l = true → s.laneSt l = 2 → s.fld Reg.ELN_OCT_CFG_KIND (l / 8) = 1 → Completes
    (.elnTrainTimeout l) s fun t =>
      t.lanes.trainFails.find l = some (s.lanes.trainFails.getD l 0 + 1) ∧ t.laneSt l = (if s.lanes.trainFails.getD
      l 0 < 2 then 2 else 4) ∧ (s.lanes.trainFails.getD l 0 = 2 → s.Records t Ev.ELN_TRAIN_FAIL l 0)) ∧
  (∀ (s : State) (l : Nat), s.laneOn l = false ∨ (s.laneSt l ≠ 4 ∧ (s.laneSt l ≠ 2 ∨ s.fld Reg.ELN_OCT_CFG_KIND (l /
    8) ≠ 1)) → Completes (.elnTrainTimeout l) s fun t =>
      t = s) ∧
  (∀ (s : State) (l : Nat), s.laneOn l = true → s.power.forced.find (4, l) ≠ some 2 → s.laneSt l = 1 ∨ s.laneSt l = 5
    → Completes (.elnEnergyDetect l true) s fun t =>
      t.laneSt l = 2 ∧ t.lanes.trainFails.find l = some 0 ∧ SameBut [.regs .eln, .regs .pwr, .power, .lanes, .out] s
      t) ∧
  (∀ (s : State) (l : Nat) (found : Bool), found = false ∨ s.laneOn l = false ∨ s.power.forced.find (4, l) = some 2 ∨
    (s.laneSt l ≠ 1 ∧ s.laneSt l ≠ 5) → Completes (.elnEnergyDetect l found) s fun t =>
      t = s) ∧
  (∀ (s : State) (p : Nat), s.coreOff = false → 9 ≤ s.stage → p < 512 → s.portUp p = false → s.groupSt (p / 8) = gsUP
    → p % 8 * s.portLanes p < 16 → (∀ i < s.portLanes p, p % 8 * s.portLanes p + i ∉ (s.grp (p / 8)).lanesDown) →
    s.portBypassed p = false → Completes (.linkUp p) s fun t =>
      t.portUp p = true) ∧
  (∀ (s : State) (p : Nat), s.coreOff = false → 9 ≤ s.stage → 512 ≤ p → p < 576 → s.portUp p = false → s.laneGroup (p
    - 512) = none → s.elPort (p - 512) = true → (∀ l ∈ s.elanes p, s.laneSt l = 2 ∨ s.laneSt l = 4) → Completes
    (.linkUp p) s fun t =>
      t.portUp p = true ∧ ∀ l ∈ s.elanes p, l < 64 → t.laneSt l = 3) ∧
  (∀ (s : State) (p g : Nat), 9 ≤ s.stage → 512 ≤ p → p < 576 → s.portUp p = false → s.laneGroup (p - 512) = some g →
    s.laneOn (p - 512) = true → s.laneSt (p - 512) = 2 ∨ s.laneSt (p - 512) = 4 → Completes (.linkUp p) s fun t =>
      t.laneSt (p - 512) = 3) ∧
  (∀ (s : State) (p : Nat), s.portUp p = true → Completes (.linkUp p) s fun t =>
      t.portUp p = true) ∧
  (∀ (s : State) (p : Nat), p < 512 ∨ s.laneGroup (p - 512) = none → s.portUp p = true ∨ s.stage < 9 ∨ 576 ≤ p ∨ (p <
    512 ∧ s.groupSt (p / 8) ≠ gsUP) → Completes (.linkUp p) s fun t =>
      t = s) ∧
  (∀ (s : State) (p : Nat), s.coreOff = false → p < 512 ∨ s.laneGroup (p - 512) = none → s.portUp p = true →
    Completes (.linkDown p) s fun t =>
      t.portUp p = false) ∧
  (∀ (s : State) (p : Nat), p < 512 ∨ s.laneGroup (p - 512) = none → s.portUp p = false → Completes (.linkDown p) s
    fun t =>
      t = s) ∧
  (∀ (s : State) (p g : Nat), s.coreOff = false → 512 ≤ p → s.laneGroup (p - 512) = some g → s.laneSt (p - 512) = 3 →
    Completes (.linkDown p) s fun t =>
      t.laneSt (p - 512) = 5)

/-- SETT_ALLOC and SETT_FREE (R180 to R187). -/
def Obligations.SettRows : Prop :=
  (∀ (s : State) (q n : Nat) (p : SettState), s.coreOff = false → s.settGrants q = true → s.sett.take (s.reqDie q) =
    some (n, p) → s.settUsed q < 2 ^ 20 - 1 → Completes (.settAlloc q) s fun t =>
      t.sett.setts.find n = some ⟨q, 1⟩ ∧ t.settUsed q = s.settUsed q + 1 ∧ t.fld Reg.SETT_STAT_PEAK_PEAK q = max
      (s.settUsed q + 1) (s.fld Reg.SETT_STAT_PEAK_PEAK q) ∧ t.fld Reg.SETT_STAT_REFUSED_COUNT q = s.fld
      Reg.SETT_STAT_REFUSED_COUNT q ∧ SameBut [.regs .sett, .sett] s t) ∧
  (∀ (s : State) (q : Nat), s.coreOff = false → s.settGrants q = false ∨ s.sett.take (s.reqDie q) = none → Completes
    (.settAlloc q) s fun t =>
      t = s.bump Reg.SETT_STAT_REFUSED_COUNT q ∧ t.fld Reg.SETT_STAT_REFUSED_COUNT q = min 0xFFFFFFFF (s.fld
      Reg.SETT_STAT_REFUSED_COUNT q + 1)) ∧
  (∀ (s : State) (n : Nat), 2 * dieSetts ≤ n → Completes (.settFree n) s fun t =>
      t = s) ∧
  (∀ (s : State) (n : Nat), s.coreOff = false → n < 2 * dieSetts → s.sett.setts.find n = none → Completes (.settFree
    n) s fun t =>
      t.sett = s.sett ∧ t.fld (Reg.SETT_POOL_STATUS_REF_FAULTS.nth (n / dieSetts)) = min 0xFF (s.fld
      (Reg.SETT_POOL_STATUS_REF_FAULTS.nth (n / dieSetts)) + 1) ∧ s.Records t Ev.SETT_REFCOUNT_FAULT (n / dieSetts)
      (n % dieSetts)) ∧
  (∀ (s : State) (n : Nat) (e : Sett), s.coreOff = false → n < 2 * dieSetts → s.sett.setts.find n = some e → 1 <
    e.refs → Completes (.settFree n) s fun t =>
      t.sett.setts.find n = some { e with refs := e.refs - 1 } ∧ t.settUsed e.req = s.settUsed e.req ∧ SameBut
      [.sett] s t) ∧
  (∀ (s : State) (n : Nat) (e : Sett), s.coreOff = false → n < 2 * dieSetts → s.tpt.parked = [] → s.sett.setts.find n
    = some e → e.refs ≤ 1 → Completes (.settFree n) s fun t =>
      t.sett.setts.has n = false ∧ t.settUsed e.req = s.settUsed e.req - 1 ∧ SameBut [.regs .sett, .sett] s t)

/-- PACKET_INGRESS, PACKET_DEPART, DELAY_ESTIMATE_UPDATE and MC_AGE (R187 to R207). When a pipeline is too slow:
notes/assumptions/176.md. -/
def Obligations.PacketRows : Prop :=
  (∀ (s : State) (port : Nat) (frame : Bytes), 576 ≤ port ∨ s.portUp port = false → Completes (.packetIngress port
    frame) s fun t =>
      t = s) ∧
  (∀ (s : State) (port : Nat) (frame : Bytes), s.coreOff = false → s.portUp port = true → s.pipelineSlow port = true
    → Completes (.packetIngress port frame) s fun t =>
      (t.lanes.streams.getD port {}).overruns = (s.lanes.streams.getD port {}).overruns + 1 ∧ t.swc = s.swc ∧ t.sett
      = s.sett) ∧
  (∀ (s : State) (port : Nat) (frame : Bytes), s.coreOff = false → port < 576 → s.portUp port = true → s.encrypts
    port = false → s.pipelineSlow port = false → s.tpt.parked = [] → Completes (.packetIngress port frame) s fun t =>
      match s.settStore (reqPort port) frame with
      | (none, s1) => t = s1
      | (some setts, s1) =>
        match parseFrame (s.fld Reg.SWC_PARSE_CFG_OUTER_TPID) frame with
        | .bad => t.fld Reg.SWC_STAT_VALUE_VALUE (port + 4 * 1024) = min 0xFFFFFFFF (s.fld Reg.SWC_STAT_VALUE_VALUE (port + 4 * 1024) + 1)
        | .nonIp => t.fld Reg.SWC_STAT_VALUE_VALUE (port + 3 * 1024) = min 0xFFFFFFFF (s.fld Reg.SWC_STAT_VALUE_VALUE (port + 3 * 1024) + 1)
        | .time _ => t = s1.deliver 1 port frame setts
        | .lldp _ => t = (s1.lldpSeen (.port port) frame).deliver 0 port frame setts
        | .ip p err => s1.fencedOk port (some p) = true →
            (s1.isLocal p = true →
              t = (if err = true then s1.swcCount port 4 else s1).deliver (s1.localUnit p) port frame setts) ∧
            (s1.isLocal p = false → s1.routeFor p = none →
              t.fld Reg.SWC_STAT_VALUE_VALUE (port + 1 * 1024) = min 0xFFFFFFFF (s.fld Reg.SWC_STAT_VALUE_VALUE (port + 1 * 1024) + 1))) ∧
  (∀ (s : State) (port nh target : Nat) (frame h : Bytes) (setts : List Nat) (s1 : State) (p : Parsed), s.coreOff =
    false → port < 576 → s.portUp port = true → s.encrypts port = false → s.pipelineSlow port = false → s.settStore
    (reqPort port) frame = (some setts, s1) → parseFrame (s.fld Reg.SWC_PARSE_CFG_OUTER_TPID) frame = .ip p false →
    s.fencedOk port (some p) = true → s.isLocal p = false → s.routeFor p = some nh → s.tabRec 0x12 nh = some h → getLE
    h 0x08 1 = 1 → getLE h 0x0A 2 = target → 1 < p.hop → s.flag Reg.TMS_POL_CFG_ENABLE (port * 8 + s.trafficClass port
    p.pcp (some p.dscp)) = false → s.portUp target = true → s.fencedOk target (some p) = true → s.queueClass (target *
    8 + s.trafficClass port p.pcp (some p.dscp)) ≤ 1 → Completes (.packetIngress port frame) s fun t =>
      (t.outq (target * 8 + s.trafficClass port p.pcp (some p.dscp))).deps = (s.outq (target * 8 + s.trafficClass port p.pcp (some p.dscp))).deps ++
        [{ frame := frame, setts := setts, ether := p.off - 2, pcp := p.pcp, at_ := s.time.ticks }]) ∧
  (∀ (s : State) (port : Nat) (errs : List SettErr), s.coreOff = false → port < 576 → s.tpt.parked = [] → s.portUp
    port = true → s.encrypts port = false → s.llrOn port = false → Completes (.packetDepart ⟨port, errs⟩) s fun t =>
      match s.selectQueue port with
      | none => t = s
      | some (q, s1) =>
        match s1.departQ q with
        | none => t = s1
        | some (d, _) =>
          match readSetts d.frame errs, s.tabRec 0x13 port with
          | none, _ => s.settOwner d.setts < 154 → t.fld Reg.SETT_STAT_CORRUPT_COUNT (s.settOwner d.setts) =
              min 0xFFFFFFFF (s.fld Reg.SETT_STAT_CORRUPT_COUNT (s.settOwner d.setts) + 1)
          | some _, none => t.fld Reg.SWC_STAT_VALUE_VALUE (port + 1 * 1024) = min 0xFFFFFFFF (s.fld Reg.SWC_STAT_VALUE_VALUE (port + 1 * 1024) + 1)
          | some frame, some nb => t.fld Reg.SWC_STAT_VALUE_VALUE (port + 0 * 1024) = min 0xFFFFFFFF (s.fld Reg.SWC_STAT_VALUE_VALUE (port + 0 * 1024) + 1) ∧
              (d.oneStep = .none → Out.frame port (s.rewrite port nb { d with frame := frame }) ∈ t.out)) ∧
  (∀ (s : State) (port : Nat) (errs : List SettErr), 576 ≤ port ∨ s.portUp port = false ∨ (s.encrypts port = true ∧
    (s.link port).tx.isNone = true) → Completes (.packetDepart ⟨port, errs⟩) s fun t =>
      t = s) ∧
  (∀ (s : State) (port : Nat) (errs : List SettErr), s.coreOff = false → port < 576 → s.portUp port = true →
    s.encrypts port = false → s.llrOn port = true → s.fld Reg.TPT_LLR_CFG_MAX_OUT port ≤ (s.llrOf port).held.length →
    (s.portSt port).window = [] → Completes (.packetDepart ⟨port, errs⟩) s fun t =>
      t = s.tptCount 12 port) ∧
  (∀ (s : State), s.coreOff = false → Completes (.delayEstimateUpdate) s fun t =>
      (∀ p, t.portSt p = if s.swc.ports.has p then (s.portSt p).updateDelay (if s.llrRuns p then (s.portSt p).far
      else 0) else s.portSt p) ∧ SameBut [.swc] s t) ∧
  (∀ (s : State) (q : Nat), s.fld Reg.SWC_MC_CFG_AGE_US = 0 ∨ s.queueClass q ≤ 1 ∨ (s.outq q).deps.find? (fun d =>
    d.multi && decide (s.fld Reg.SWC_MC_CFG_AGE_US * 5000 < (s.time.ticks - d.at_) * 4)) = none → Completes (.mcAge q)
    s fun t =>
      t = s) ∧
  (∀ (s : State) (q : Nat) (d : Dep), s.coreOff = false → s.tpt.parked = [] → s.fld Reg.SWC_MC_CFG_AGE_US ≠ 0 → 1 <
    s.queueClass q → (s.outq q).deps.find? (fun d => d.multi && decide (s.fld Reg.SWC_MC_CFG_AGE_US * 5000 <
    (s.time.ticks - d.at_) * 4)) = some d → Completes (.mcAge q) s fun t =>
      (t.outq q).deps = (s.outq q).deps.erase d ∧ t.fld Reg.SWC_STAT_VALUE_VALUE (q / 8 + 8 * 1024) = min 0xFFFFFFFF
      (s.fld Reg.SWC_STAT_VALUE_VALUE (q / 8 + 8 * 1024) + 1))

/-- REFILL_TICK (R220, R225, R553) and HIST_DEPTH_SAMPLE (R230). -/
def Obligations.QueueRows : Prop :=
  (∀ (s : State), s.coreOff = false → s.refillPending = [] → (s.swc.queues.map Prod.fst).Nodup → (s.swc.policers.map
    Prod.fst).Nodup → Completes (.refillTick) s fun t =>
      (∀ q, s.swc.queues.has q = true →
        (t.outq q).credit = min ((s.outq q).credit + ((refillStep (s.queueRate q) (s.outq q).rem).1 : Int)) (s.queueBurst q : Int) ∧
        (t.outq q).rem = (refillStep (s.queueRate q) (s.outq q).rem).2 ∧ (t.outq q).deps = (s.outq q).deps) ∧
      (∀ p, s.swc.policers.has p = true →
        (t.policer p).tc = min ((s.policer p).tc + (refillStep (s.fld Reg.TMS_POL_CIR_CIR_MBPS p) (s.policer p).rc).1)
          (polBurst (s.fld Reg.TMS_POL_BURST_CBS p)) ∧
        (t.policer p).tp = min ((s.policer p).tp + (refillStep (s.fld Reg.TMS_POL_PIR_PIR_MBPS p) (s.policer p).rp).1)
          (polBurst (s.fld Reg.TMS_POL_BURST_PBS p))) ∧ SameBut [.swc] s t) ∧
  (∀ (s : State), s.coreOff = false → Completes (.histDepthSample) s fun t =>
      (∀ q < 4608, ∀ n, n = q + histBin (s.outq q).depth (s.fld Reg.TMS_HIST_CFG_DEPTH_SHIFT) * 2 ^ 14 →
        t.fld Reg.TMS_HIST_VALUE_VALUE n = min 0xFFFFFFFF (s.fld Reg.TMS_HIST_VALUE_VALUE n + 1)) ∧
      s.SameRegsBut t .tms [0x314] ∧ SameBut [.regs .tms] s t)

/-- BYPASS_BEGIN, BYPASS_END and BYPASS_RETURN_TIMEOUT (R211 to R213). -/
def Obligations.BypassRows : Prop :=
  (∀ (s : State) (op : OpKey) (o : Op), s.Ready op o → dKind o.desc = kindBYPASS → bAction o.desc ≠ 1 → bAction
    o.desc ≠ 0 ∨ 999999999 < bEffectNs o.desc ∨ s.bypassPair o.desc = none → Completes (.bypassBegin op) s fun t =>
      t.endedWith op stBAD_FIELD = true ∧ SameBut [.hif] s t) ∧
  (∀ (s : State) (op : OpKey) (o : Op) (k : Nat) (r : Bytes), s.Ready op o → dKind o.desc = kindBYPASS → bAction
    o.desc = 0 → bEffectNs o.desc ≤ 999999999 → s.bypassPair o.desc = some (k, r) → k ∈ s.swc.bypassed ∨
    (s.rig.rigs.any fun x => x.bypass == some k) = true → Completes (.bypassBegin op) s fun t =>
      t.endedWith op stOK = true ∧ SameBut [.hif] s t) ∧
  (∀ (s : State) (op : OpKey) (o : Op) (k : Nat) (r : Bytes), s.Ready op o → dKind o.desc = kindBYPASS → bAction
    o.desc = 0 → bEffectNs o.desc ≤ 999999999 → s.bypassPair o.desc = some (k, r) → k ∉ s.swc.bypassed → s.rig.rigs =
    [] → s.reached (bEffect o.desc) = false → Completes (.bypassBegin op) s fun t =>
      t.underWay op = true ∧ (∃ x, t.rig.rigs = [x] ∧ x.key = op ∧ x.st = 2 ∧ x.bypass = some k ∧ x.catch_ = .time
      (bEffect o.desc)) ∧ SameBut [.hif, .rig] s t) ∧
  (∀ (s : State) (op : OpKey) (o : Op) (k : Nat) (r : Bytes), s.Ready op o → dKind o.desc = kindBYPASS → bAction
    o.desc = 0 → bEffectNs o.desc ≤ 999999999 → s.bypassPair o.desc = some (k, r) → k ∉ s.swc.bypassed → s.rig.rigs =
    [] → s.reached (bEffect o.desc) = true → (∀ p ∈ List.range 512, s.portUp p = false) → Completes (.bypassBegin op)
    s fun t =>
      k ∈ t.swc.bypassed ∧ t.swc.bypassMarks.find k = some (bpGroups ((s.tabRec 0x16 k).getD [])) ∧
      t.rig.rigs = [] ∧ t.endedWith op stOK = true ∧ ∀ g ∈ (bpGroups ((s.tabRec 0x16 k).getD [])), s.groupSt g ≠ gsOFF → t.groupSt g = gsWATCH) ∧
  (∀ (s : State) (op : OpKey) (o : Op), s.Ready op o → dKind o.desc = kindBYPASS → bAction o.desc = 1 → 999999999 <
    bEffectNs o.desc ∨ s.bypassPair o.desc = none → Completes (.bypassEnd op) s fun t =>
      t.endedWith op stBAD_FIELD = true ∧ SameBut [.hif] s t) ∧
  (∀ (s : State) (op : OpKey) (o : Op) (k : Nat) (r : Bytes), s.Ready op o → dKind o.desc = kindBYPASS → bAction
    o.desc = 1 → bEffectNs o.desc ≤ 999999999 → s.bypassPair o.desc = some (k, r) → k ∉ s.swc.bypassed → Completes
    (.bypassEnd op) s fun t =>
      t.endedWith op stOK = true ∧ SameBut [.hif] s t) ∧
  (∀ (s : State) (op : OpKey) (o : Op) (k : Nat) (r : Bytes), s.Ready op o → dKind o.desc = kindBYPASS → bAction
    o.desc = 1 → bEffectNs o.desc ≤ 999999999 → s.bypassPair o.desc = some (k, r) → k ∈ s.swc.bypassed → s.reached
    (bEffect o.desc) = false → Completes (.bypassEnd op) s fun t =>
      t.op? op = some { o with phase := .running, hold := .other } ∧ SameBut [.hif] s t) ∧
  (∀ (s : State) (op : OpKey) (o : Op) (k : Nat) (r : Bytes), s.Ready op o → dKind o.desc = kindBYPASS → bAction
    o.desc = 1 → bEffectNs o.desc ≤ 999999999 → s.bypassPair o.desc = some (k, r) → k ∈ s.swc.bypassed → s.reached
    (bEffect o.desc) = true → (∀ p ∈ List.range 512, s.portUp p = false) → Completes (.bypassEnd op) s fun t =>
      k ∉ t.swc.bypassed ∧ t.swc.returns.find op = some ((s.swc.bypassMarks.getD k []), (s.swc.bypassMarks.getD k [])) ∧ t.underWay op = true ∧
      (s.swc.bypassed = [k] → ∀ g ∈ (s.swc.bypassMarks.getD k []), s.groupSt g ≠ gsOFF → s.groupMayRun g = true → t.groupSt g = gsACQUIRING)) ∧
  (∀ (s : State) (op : OpKey) (o : Op) (k : Nat) (r : Bytes), s.coreOff = false → s.op? op = some o → o.key = op →
    o.phase = OpPhase.running → o.hold = Hold.other → dKind o.desc = kindBYPASS → bAction o.desc = 1 → bEffectNs
    o.desc ≤ 999999999 → s.bypassPair o.desc = some (k, r) → k ∈ s.swc.bypassed → s.reached (bEffect o.desc) = true →
    (∀ p ∈ List.range 512, s.portUp p = false) → Completes (.bypassEnd op) s fun t =>
      k ∉ t.swc.bypassed ∧ t.swc.returns.find op = some ((s.swc.bypassMarks.getD k []), (s.swc.bypassMarks.getD k [])) ∧ t.underWay op = true ∧
      (s.swc.bypassed = [k] → ∀ g ∈ (s.swc.bypassMarks.getD k []), s.groupSt g ≠ gsOFF → s.groupMayRun g = true → t.groupSt g = gsACQUIRING)) ∧
  (∀ (s : State) (op : OpKey) (o : Op) (all left : List Nat), s.coreOff = false → s.swc.returns.find op = some (all,
    left) → s.op? op = some o → o.key = op → o.lost = false → op.slot ∈ (s.ring op.ring).taken → s.reached (bEffect
    o.desc + 10000000000) = true → Completes (.bypassReturnTimeout op) s fun t =>
      t.swc.returns.has op = false ∧ (t.op? op).map Op.phase = some (OpPhase.done
        ⟨dTag o.desc, stOK, false, all.length - left.length, o.seg, sumOf (all.mapIdx fun i g => if g ∈ left then 2 ^ i else 0)⟩)) ∧
  (∀ (s : State) (op : OpKey), s.swc.returns.find op = none → Completes (.bypassReturnTimeout op) s fun t =>
      t = s)

/-- PLAN_START, STROKE_START, HEAT_START and HEAT_END (R63, R305 to R309, R317). -/
def Obligations.PlanRows : Prop :=
  (∀ (s : State) (n : Nat), s.coreOff = false → 9 ≤ s.stage → (s.plan n).st = 1 → (s.plan n).replaces = none →
    (s.plan 4).st = 0 → s.reached (s.plan n).firstStart = true → Completes (.planStart n) s fun t =>
      (t.plan n).st = 2 ∧ (t.plan n).heat = 0 ∧ (t.plan n).inHeat = true ∧ (t.plan n).heatStart = (s.plan
      n).firstStart ∧ (t.plan n).h0 = (s.plan n).firstStart ∧ (t.plan n).strokeStart = none ∧ (t.plan n).bin =
      (s.plan n).bin) ∧
  (∀ (s : State) (n r : Nat), s.coreOff = false → 9 ≤ s.stage → (s.plan n).st = 1 → (s.plan n).replaces = some r → 2
    ≤ (s.plan r).st → (s.plan r).inHeat = false → s.swapFor r = some n → s.reached (s.plan r).nextHeat = true →
    s.rig.rigs = [] → (∀ p ∈ s.hif.ops, p.2.waits = false) → Completes (.planStart n) s fun t =>
      (t.plan r).st = 0 ∧ (t.plan n).st = 2 ∧ (t.plan n).heat = 0 ∧ (t.plan n).inHeat = true ∧ (t.plan n).heatStart
      = (s.plan r).nextHeat ∧ (t.plan n).h0 = (s.plan r).nextHeat ∧ s.Records t Ev.PLAN_ENDED r (2 + (s.plan r).heat
      % 2 ^ 32 * 2 ^ 32)) ∧
  (∀ (s : State) (n : Nat), (s.plan n).st ≠ 1 ∨ s.stage < 9 ∨ ((s.plan n).replaces = none ∧ (s.plan 4).st = 0 ∧
    s.reached (s.plan n).firstStart = false) → Completes (.planStart n) s fun t =>
      t = s) ∧
  (∀ (s : State) (n : Nat), s.coreOff = false → 2 ≤ (s.plan n).st → (s.plan n).inHeat = true → (s.plan n).strokeStart
    = none → 0 < pStrokes (s.plan n).bin → s.reached (s.plan n).heatStart = true → Completes (.strokeStart n) s fun t
    =>
      (t.plan n).stroke = 0 ∧ (t.plan n).strokeStart = some (s.plan n).heatStart ∧ (t.plan n).fired = [] ∧ (t.plan
      n).lateNow = 0) ∧
  (∀ (s : State) (n : Nat), s.coreOff = false → 2 ≤ (s.plan n).st → (s.plan n).inHeat = true → (s.plan n).strokeStart
    ≠ none → (s.plan n).stroke + 1 < pStrokes (s.plan n).bin → s.reached (max ((s.plan n).heatStart + ((s.plan
    n).stroke + 1) * pPitch (s.plan n).bin) (s.plan n).strokeEnd) = true → s.strokeOver n = true → Completes
    (.strokeStart n) s fun t =>
      (t.plan n).stroke = (s.plan n).stroke + 1 ∧ (t.plan n).strokeStart = some (max (max ((s.plan n).heatStart +
      ((s.plan n).stroke + 1) * pPitch (s.plan n).bin) (s.plan n).strokeEnd) s.nowNs) ∧ (t.plan n).fired = []) ∧
  (∀ (s : State) (n : Nat), (s.plan n).st < 2 ∨ (s.plan n).inHeat = false → Completes (.strokeStart n) s fun t =>
      t = s) ∧
  (∀ (s : State) (n : Nat), s.coreOff = false → (s.plan n).st = 2 → (s.plan n).inHeat = false → s.reached (s.plan
    n).nextHeat = true → s.swapFor n = none → Completes (.heatStart n) s fun t =>
      (t.plan n).heat = (s.plan n).heat + 1 ∧ (t.plan n).inHeat = true ∧ (t.plan n).heatStart = (s.plan n).nextHeat
      ∧ (t.plan n).stroke = 0 ∧ (t.plan n).strokeStart = none ∧ (t.plan n).late = false ∧ SameBut [.plans, .swc] s t) ∧
  (∀ (s : State) (n : Nat), s.coreOff = false → (s.plan n).st = 3 → (s.plan n).inHeat = false → s.reached (s.plan
    n).nextHeat = true → s.swapFor n = none → s.rig.rigs = [] → (∀ p ∈ s.hif.ops, p.2.waits = false) → Completes
    (.heatStart n) s fun t =>
      (t.plan n).st = 0 ∧ s.Records t Ev.PLAN_ENDED n (1 + (s.plan n).heat % 2 ^ 32 * 2 ^ 32)) ∧
  (∀ (s : State) (n : Nat), (s.plan n).st < 2 ∨ (s.plan n).inHeat = true ∨ s.reached (s.plan n).nextHeat = false →
    Completes (.heatStart n) s fun t =>
      t = s) ∧
  (∀ (s : State) (n : Nat), s.coreOff = false → (s.plan n).st = 2 → (s.plan n).inHeat = true → (s.plan n).stroke + 1
    = pStrokes (s.plan n).bin → s.strokeOver n = true → pHeatCount (s.plan n).bin = 0 → heatFits (s.plan n).bin
    ((s.plan n).heat + 1) = true → s.flag Reg.PLN_PLAN_CFG_ANNOUNCE = false → Completes (.heatEnd n) s fun t =>
      (t.plan n).inHeat = false ∧ (t.plan n).next = max ((s.plan n).heatStart + pPeriod (s.plan n).bin) ((s.plan
      n).grid (max (s.plan n).strokeEnd s.nowNs)) ∧ (t.plan n).st = 2 ∧ SameBut [.plans, .swc, .regs .pln] s t) ∧
  (∀ (s : State) (n : Nat), s.coreOff = false → (s.plan n).st = 2 → (s.plan n).inHeat = true → (s.plan n).stroke + 1
    = pStrokes (s.plan n).bin → s.strokeOver n = true → pHeatCount (s.plan n).bin = (s.plan n).heat + 1 → s.rig.rigs =
    [] → (∀ p ∈ s.hif.ops, p.2.waits = false) → Completes (.heatEnd n) s fun t =>
      (t.plan n).st = 0 ∧ s.Records t Ev.PLAN_ENDED n ((s.plan n).heat % 2 ^ 32 * 2 ^ 32)) ∧
  (∀ (s : State) (n : Nat), (s.plan n).st < 2 ∨ (s.plan n).inHeat = false ∨ (s.plan n).stroke + 1 ≠ pStrokes (s.plan
    n).bin ∨ s.strokeOver n = false → Completes (.heatEnd n) s fun t =>
      t = s)

/-- RESERVED_WINDOW_OPEN, RESERVED_WINDOW_CLOSE and PLAN_ENTRY_FIRE (R222, R307, R311 to R316). -/
def Obligations.ReservationRows : Prop :=
  (∀ (s : State) (n e : Nat), s.coreOff = false → 2 ≤ (s.plan n).st → (s.plan n).inHeat = true → (s.plan n).late =
    false → (s.plan n).strokeStart ≠ none → e ∈ strokeEntries (s.plan n).bin (s.plan n).stroke → peType (pEntry
    (s.plan n).bin e) = 1 → (s.plan n).fired.has e = false → s.reached ((s.plan n).due e) = true → Completes
    (.reservedWindowOpen n e) s fun t =>
      (t.portSt (pePort (pEntry (s.plan n).bin e))).window = peQueues (pEntry (s.plan n).bin e) ∧ (t.portSt (pePort
      (pEntry (s.plan n).bin e))).windowSlot = n ∧ (t.portSt (pePort (pEntry (s.plan n).bin e))).windowFirst = some
      ((s.plan n).due e) ∧ (t.plan n).fired.has e = true ∧ SameBut [.swc, .plans] s t) ∧
  (∀ (s : State) (n e : Nat), (s.plan n).late = true ∨ (s.plan n).fired.has e = true ∨ s.reached ((s.plan n).due e) =
    false → Completes (.reservedWindowOpen n e) s fun t =>
      t = s) ∧
  (∀ (s : State) (n e : Nat), s.coreOff = false → 2 ≤ (s.plan n).st → peType (pEntry (s.plan n).bin e) = 1 → (s.plan
    n).fired.has e = true → (s.portSt (pePort (pEntry (s.plan n).bin e))).window ≠ [] → (s.portSt (pePort (pEntry
    (s.plan n).bin e))).windowSlot = n → s.reached ((s.plan n).due e + peLength (pEntry (s.plan n).bin e)) = true →
    Completes (.reservedWindowClose n e) s fun t =>
      (t.portSt (pePort (pEntry (s.plan n).bin e))).window = [] ∧ t.fld Reg.PLN_SLOT_STAT_VALUE n =
        (if (s.portSt (pePort (pEntry (s.plan n).bin e))).window.any fun k => s.queueClass k == 0 && !(s.outq k).deps.isEmpty
         then min 0xFFFFFFFF (s.fld Reg.PLN_SLOT_STAT_VALUE n + 1) else s.fld Reg.PLN_SLOT_STAT_VALUE n) ∧
      SameBut [.regs .pln, .swc] s t) ∧
  (∀ (s : State) (n e : Nat), s.reached ((s.plan n).due e + peLength (pEntry (s.plan n).bin e)) = false ∨ (s.portSt
    (pePort (pEntry (s.plan n).bin e))).window = [] → Completes (.reservedWindowClose n e) s fun t =>
      t = s) ∧
  (∀ (s : State) (n e : Nat), s.coreOff = false → (s.plan n).catches.head? = some e → s.reached ((s.plan n).due e) =
    true → ((List.range n).all fun m => (s.plan m).catches.isEmpty) = true → peType (pEntry (s.plan n).bin e) = 3 →
    s.rigFor n (peRigId (pEntry (s.plan n).bin e)) = none → Completes (.planEntryFire n e) s fun t =>
      (t.plan n).fired.find e = some .satisfied ∧ t.fld Reg.PLN_SLOT_STAT_VALUE (n + 16 * 2) = min 0xFFFFFFFF (s.fld
      Reg.PLN_SLOT_STAT_VALUE (n + 16 * 2) + 1) ∧ SameBut [.regs .pln, .plans] s t) ∧
  (∀ (s : State) (n e : Nat) (k : OpKey), s.coreOff = false → (s.plan n).catches.head? = some e → s.reached ((s.plan
    n).due e) = true → ((List.range n).all fun m => (s.plan m).catches.isEmpty) = true → peType (pEntry (s.plan n).bin
    e) = 3 → s.rigFor n (peRigId (pEntry (s.plan n).bin e)) = some (k, false) → Completes (.planEntryFire n e) s fun t
    =>
      (t.plan n).fired.find e = some (.waits k.ring k.slot) ∧ SameBut [.plans] s t) ∧
  (∀ (s : State) (n e : Nat) (k : OpKey) (r : Rig) (o : Op), s.coreOff = false → (s.plan n).catches.head? = some e →
    s.reached ((s.plan n).due e) = true → ((List.range n).all fun m => (s.plan m).catches.isEmpty) = true → peType
    (pEntry (s.plan n).bin e) = 3 → s.rigFor n (peRigId (pEntry (s.plan n).bin e)) = some (k, true) → s.rigOf k = some
    r → s.op? k = some o → o.key = k → o.lost = false → k.slot ∈ (s.ring k.ring).taken → r.bypass = none → (∀ x ∈
    r.recs, rTab x ∈ [0x10, 0x11, 0x12, 0x13, 0x15, 0x16, 0x31, 0x32, 0x61, 0x71]) → Completes (.planEntryFire n e) s
    fun t =>
      (t.plan n).fired.find e = some .satisfied ∧
      t.swc.tab = r.recs.foldl applyRec s.swc.tab ∧
      (t.rig.rigs.all fun x => x.order != r.order || x.st == 3) = true ∧
      (t.rig.rigs.any fun x => x.order == r.order) = !((r.recs.filter fun x => rAct x == 0).flatMap writesOf).isEmpty ∧
      (t.op? k).map Op.phase = some (OpPhase.done ⟨dTag o.desc, stOK, false, 3, 0, r.id⟩)) ∧
  (∀ (s : State) (n e : Nat), s.coreOff = false → (s.plan n).catches.head? = some e → s.reached ((s.plan n).due e) =
    true → ((List.range n).all fun m => (s.plan m).catches.isEmpty) = true → peType (pEntry (s.plan n).bin e) = 4 →
    Completes (.planEntryFire n e) s fun t =>
      t = (s.setPlan n { s.plan n with
      fired := (s.plan n).fired.put e .satisfied }).runRequest (peCtx (pEntry (s.plan n).bin e))
        ⟨some ((s.plan n).ref n e), none, none, 0, none, 0, (s.tctx (peCtx (pEntry (s.plan n).bin e))).domain,
         tParams (s.tctx (peCtx (pEntry (s.plan n).bin e))).cont, (s.plan n).due e, false, true⟩) ∧
  (∀ (s : State) (n e : Nat), s.coreOff = false → (s.plan n).catches.head? = some e → s.reached ((s.plan n).due e) =
    true → ((List.range n).all fun m => (s.plan m).catches.isEmpty) = true → peType (pEntry (s.plan n).bin e) = 5 →
    Completes (.planEntryFire n e) s fun t =>
      t = ((s.setPlan n { s.plan n with
      fired := (s.plan n).fired.put e .satisfied }).lineRelease (peLine (pEntry (s.plan n).bin e)).1 (peLine (pEntry (s.plan n).bin e)).2
        ((s.plan n).ref n e)).2 ∧ (t.plan n).fired.find e = some .satisfied) ∧
  (∀ (s : State) (n e : Nat), (s.plan n).catches.head? ≠ some e ∨ s.reached ((s.plan n).due e) = false → Completes
    (.planEntryFire n e) s fun t =>
      t = s)

/-- RIG_SUBMIT, RIG_STAGE and CATCH_FIRE (R17 to R20, R25, R312, R551, R552, R555). RIG_CONFLICT before RIG_FULL:
notes/assumptions/160.md. -/
def Obligations.RigRows : Prop :=
  (∀ (s : State) (op : OpKey) (o : Op) (b : Option Bytes) (l : List (Option Bytes)), s.Ready op o → dKind o.desc =
    kindRIG → rigFieldBad o.desc = true → Completes (.rigSubmit op b l) s fun t =>
      (t.op? op).map Op.phase = some (OpPhase.done ⟨dTag o.desc, stBAD_FIELD, false, 4, 0, rRigId o.desc⟩) ∧
      t.rigOf op = none ∧ t.swc.tab = s.swc.tab) ∧
  (∀ (s : State) (op : OpKey) (o : Op) (b : Bytes) (l : List (Option Bytes)), s.Ready op o → dKind o.desc = kindRIG →
    rigFieldBad o.desc = false → rBundleLen o.desc = 0 ∨ recordsOf b.length b = none → Completes (.rigSubmit op (some
    b) l) s fun t =>
      (t.op? op).map Op.phase = some (OpPhase.done ⟨dTag o.desc, stRIG_INVALID, false, 4, 0, rRigId o.desc⟩) ∧
      t.rigOf op = none ∧ t.swc.tab = s.swc.tab) ∧
  (∀ (s : State) (op : OpKey) (o : Op) (l : List (Option Bytes)), s.Ready op o → dKind o.desc = kindRIG → rigFieldBad
    o.desc = false → rBundleLen o.desc ≠ 0 → Completes (.rigSubmit op none l) s fun t =>
      (t.op? op).map Op.phase = some (OpPhase.done ⟨dTag o.desc, stHOST_ABORT, false, 4, 0, rRigId o.desc⟩) ∧
      t.rigOf op = none ∧ t.swc.tab = s.swc.tab) ∧
  (∀ (s : State) (op : OpKey) (o : Op) (b : Bytes) (recs : List Bytes) (r : Rig) (l : List (Option Bytes)), s.Ready
    op o → dKind o.desc = kindRIG → rigFieldBad o.desc = false → rBundleLen o.desc ≠ 0 → recordsOf b.length b = some
    recs → (∀ x ∈ recs, rTab x ≠ 0x40 ∧ rTab x ≠ 0x50 ∧ rTab x ≠ 0x51) → r = Rig.mk op s.rig.orders s.rig.judged 1
    (rigCatch o.desc) (rRigId o.desc) o.fn ((s.domainOf o.fn (dDomain o.desc)).getD 0) recs [] [] none [] →
    ((s.rigSeen o).judge r).1 = true → Completes (.rigSubmit op (some b) l) s fun t =>
      (t.op? op).map Op.phase = some (OpPhase.done ⟨dTag o.desc, stRIG_INVALID, false, 4, 0, rRigId o.desc⟩) ∧
      t.rigOf op = none ∧ t.swc.tab = s.swc.tab) ∧
  (∀ (s : State) (op : OpKey) (o : Op) (b : Bytes) (recs : List Bytes) (r : Rig) (l : List (Option Bytes)), s.Ready
    op o → dKind o.desc = kindRIG → rigFieldBad o.desc = false → rBundleLen o.desc ≠ 0 → recordsOf b.length b = some
    recs → (∀ x ∈ recs, rTab x ≠ 0x40 ∧ rTab x ≠ 0x50 ∧ rTab x ≠ 0x51) → r = Rig.mk op s.rig.orders s.rig.judged 1
    (rigCatch o.desc) (rRigId o.desc) o.fn ((s.domainOf o.fn (dDomain o.desc)).getD 0) recs [] [] none [] →
    ((s.rigSeen o).judge r).1 = false → (match r.catch_ with | .time a => s.reached a | _ => false) = true → Completes
    (.rigSubmit op (some b) l) s fun t =>
      (t.op? op).map Op.phase = some (OpPhase.done ⟨dTag o.desc, stRIG_CATCH_MISSED, false, 4, 0, rRigId o.desc⟩) ∧
      t.rigOf op = none ∧ t.swc.tab = s.swc.tab) ∧
  (∀ (s : State) (op : OpKey) (o : Op) (b : Bytes) (recs : List Bytes) (r : Rig) (l : List (Option Bytes)), s.Ready
    op o → dKind o.desc = kindRIG → rigFieldBad o.desc = false → rBundleLen o.desc ≠ 0 → recordsOf b.length b = some
    recs → (∀ x ∈ recs, rTab x ≠ 0x40 ∧ rTab x ≠ 0x50 ∧ rTab x ≠ 0x51) → r = Rig.mk op s.rig.orders s.rig.judged 1
    (rigCatch o.desc) (rRigId o.desc) o.fn ((s.domainOf o.fn (dDomain o.desc)).getD 0) recs [] [] none [] →
    ((s.rigSeen o).judge r).1 = false → (match r.catch_ with | .time a => s.reached a | _ => false) = false →
    Completes (.rigSubmit op (some b) l) s fun t =>
      t.rig.rigs = s.rig.rigs ++ [r] ∧ t.rig.orders = s.rig.orders + 1 ∧ t.rig.judged = s.rig.judged + 1 ∧
      t.underWay op = true ∧ SameBut [.hif, .rig] s t) ∧
  (∀ (s : State) (k : OpKey) (o : Op) (r : Rig), s.rigOf k = some r → s.op? k = some o → o.key = k → o.lost = false →
    k.slot ∈ (s.ring k.ring).taken → r.st = 1 → ((s.rig.rigs.filter fun x => x.st == 1 && (s.servingCox (x.key.ring %
    8)).isSome).all fun x => decide (r.judged ≤ x.judged)) = true → (s.servingCox (k.ring % 8)).isSome = true →
    (s.rig.rigs.all fun x => !x.deps.contains r.order) = true → (s.judge r).1 = true → Completes (.rigStage k) s fun t
    =>
      (t.op? k).map Op.phase = some (OpPhase.done ⟨dTag o.desc, stRIG_INVALID, false, 4, 0, rRigId o.desc⟩) ∧
      t.rigOf k = none ∧ t.swc.tab = s.swc.tab) ∧
  (∀ (s : State) (k : OpKey) (o : Op) (r : Rig), s.rigOf k = some r → s.op? k = some o → o.key = k → o.lost = false →
    k.slot ∈ (s.ring k.ring).taken → r.st = 1 → ((s.rig.rigs.filter fun x => x.st == 1 && (s.servingCox (x.key.ring %
    8)).isSome).all fun x => decide (r.judged ≤ x.judged)) = true → (s.servingCox (k.ring % 8)).isSome = true →
    (s.rig.rigs.all fun x => !x.deps.contains r.order) = true → (s.judge r).1 = false →
    (match r.catch_ with | .time a => s.reached a | _ => false) = true → Completes (.rigStage k) s fun t =>
      (t.op? k).map Op.phase = some (OpPhase.done ⟨dTag o.desc, stRIG_CATCH_MISSED, false, 4, 0, rRigId o.desc⟩) ∧
      t.rigOf k = none ∧ t.swc.tab = s.swc.tab) ∧
  (∀ (s : State) (k : OpKey) (o : Op) (r : Rig), s.rigOf k = some r → s.op? k = some o → o.key = k → o.lost = false →
    k.slot ∈ (s.ring k.ring).taken → r.st = 1 → ((s.rig.rigs.filter fun x => x.st == 1 && (s.servingCox (x.key.ring %
    8)).isSome).all fun x => decide (r.judged ≤ x.judged)) = true → (s.servingCox (k.ring % 8)).isSome = true →
    (s.rig.rigs.all fun x => !x.deps.contains r.order) = true → (s.judge r).1 = false →
    (match r.catch_ with | .time a => s.reached a | _ => false) = false → s.rigConflict r = true → Completes
    (.rigStage k) s fun t =>
      (t.op? k).map Op.phase = some (OpPhase.done ⟨dTag o.desc, stRIG_CONFLICT, false, 4, 0, rRigId o.desc⟩) ∧
      t.rigOf k = none ∧ t.swc.tab = s.swc.tab) ∧
  (∀ (s : State) (k : OpKey) (o : Op) (r : Rig), s.rigOf k = some r → s.op? k = some o → o.key = k → o.lost = false →
    k.slot ∈ (s.ring k.ring).taken → r.st = 1 → ((s.rig.rigs.filter fun x => x.st == 1 && (s.servingCox (x.key.ring %
    8)).isSome).all fun x => decide (r.judged ≤ x.judged)) = true → (s.servingCox (k.ring % 8)).isSome = true →
    (s.rig.rigs.all fun x => !x.deps.contains r.order) = true → (s.judge r).1 = false →
    (match r.catch_ with | .time a => s.reached a | _ => false) = false → s.rigConflict r = false → 256 ≤
    (s.rig.rigs.filter fun x => x.st == 2).length → Completes (.rigStage k) s fun t =>
      (t.op? k).map Op.phase = some (OpPhase.done ⟨dTag o.desc, stRIG_FULL, false, 4, 0, rRigId o.desc⟩) ∧
      t.rigOf k = none ∧ t.swc.tab = s.swc.tab) ∧
  (∀ (s : State) (k : OpKey) (o : Op) (r : Rig), s.rigOf k = some r → s.op? k = some o → o.key = k → o.lost = false →
    k.slot ∈ (s.ring k.ring).taken → r.st = 1 → ((s.rig.rigs.filter fun x => x.st == 1 && (s.servingCox (x.key.ring %
    8)).isSome).all fun x => decide (r.judged ≤ x.judged)) = true → (s.servingCox (k.ring % 8)).isSome = true →
    (s.judge r).1 = false → (s.rig.rigs.filter fun x => x.st == 2) = [] → (s.rig.rigs.filter fun x => x.order ==
    r.order) = [r] → r.catch_ = .commit → r.bypass = none → (∀ x ∈ r.recs, rTab x ∈ [0x10, 0x11, 0x12, 0x13, 0x15,
    0x16, 0x31, 0x32, 0x61, 0x71]) → Completes (.rigStage k) s fun t =>
      t.swc.tab = r.recs.foldl applyRec s.swc.tab ∧
      (t.rig.rigs.all fun x => x.order != r.order || x.st == 3) = true ∧
      (t.rig.rigs.any fun x => x.order == r.order) = !((r.recs.filter fun x => rAct x == 0).flatMap writesOf).isEmpty ∧
      (t.op? k).map Op.phase = some (OpPhase.done ⟨dTag o.desc, stOK, false, 3, 0, r.id⟩)) ∧
  (∀ (s : State) (k : OpKey) (r : Rig), s.rigOf k = some r → r.st = 1 → ((s.rig.rigs.filter fun x => x.st == 1 &&
    (s.servingCox (x.key.ring % 8)).isSome).all fun x => decide (r.judged ≤ x.judged)) = true → (s.servingCox (k.ring
    % 8)).isSome = true → (s.judge r).1 = false → s.rigConflict r = false → (s.rig.rigs.filter fun x => x.st ==
    2).length < 256 → (match r.catch_ with | .time a => s.reached a | .commit => true | .plan _ => false) = false →
    ((List.range 4).all fun m => !((s.plan m).fired.any fun f => f.2 == .waits k.ring k.slot)) = true → Completes
    (.rigStage k) s fun t =>
      (t.rigOf k).map Rig.st = some 2 ∧ SameBut [.rig] s t) ∧
  (∀ (s : State) (k : OpKey), s.rigOf k = none ∨ (s.servingCox (k.ring % 8)).isSome = false → Completes (.rigStage k)
    s fun t =>
      t = s) ∧
  (∀ (s : State) (k : OpKey) (o : Op) (r : Rig) (at_ : Nat), s.coreOff = false → s.rigOf k = some r → s.op? k = some
    o → o.key = k → o.lost = false → k.slot ∈ (s.ring k.ring).taken → r.st = 2 → r.catch_ = .time at_ → s.reached at_
    = true → s.planCatchDue at_ = false → (s.rig.rigs.any fun x => x.st == 2 && x.before r) = false → r.bypass = none
    → (∀ x ∈ r.recs, rTab x ∈ [0x10, 0x11, 0x12, 0x13, 0x15, 0x16, 0x31, 0x32, 0x61, 0x71]) → Completes (.catchFire k)
    s fun t =>
      t.swc.tab = r.recs.foldl applyRec s.swc.tab ∧
      (t.rig.rigs.all fun x => x.order != r.order || x.st == 3) = true ∧
      (t.rig.rigs.any fun x => x.order == r.order) = !((r.recs.filter fun x => rAct x == 0).flatMap writesOf).isEmpty ∧
      (t.op? k).map Op.phase = some (OpPhase.done ⟨dTag o.desc, stOK, false, 3, 0, r.id⟩)) ∧
  (∀ (s : State) (k : OpKey) (r : Rig) (at_ : Nat), s.rigOf k = some r → r.catch_ = .time at_ → s.reached at_ = false
    → Completes (.catchFire k) s fun t =>
      t = s) ∧
  (∀ (s : State) (k : OpKey) (o : Op) (r : Rig) (at_ : Nat), s.coreOff = false → s.rigOf k = some r → s.op? k = some
    o → o.key = k → o.lost = false → k.slot ∈ (s.ring k.ring).taken → (s.rig.rigs.all fun x => !x.deps.contains
    r.order) = true → r.st = 1 → r.catch_ = .time at_ → s.reached at_ = true → s.planCatchDue at_ = false →
    (s.rig.rigs.any fun x => x.st == 2 && x.before r) = false → Completes (.catchFire k) s fun t =>
      (t.op? k).map Op.phase = some (OpPhase.done ⟨dTag o.desc, stRIG_CATCH_MISSED, false, 4, 0, rRigId o.desc⟩) ∧
      t.rigOf k = none ∧ t.swc.tab = s.swc.tab) ∧
  (∀ (s : State) (k : OpKey) (o : Op) (at_ : Nat), s.coreOff = false → s.rigOf k = none → s.op? k = some o → o.key =
    k → o.lost = false → k.slot ∈ (s.ring k.ring).taken → o.waits = true → dKind o.desc = kindRIG → rigFieldBad o.desc
    = false → rigCatch o.desc = .time at_ → s.reached at_ = true → Completes (.catchFire k) s fun t =>
      (t.op? k).map Op.phase = some (OpPhase.done ⟨dTag o.desc, stRIG_CATCH_MISSED, false, 4, 0, rRigId o.desc⟩) ∧
      t.rigOf k = none ∧ t.swc.tab = s.swc.tab)

/-- TRANSPORT_SEND, ACK_DELAY_EXPIRE, NOT_YET_BACKOFF and RTO_EXPIRE (R187, R243 to R246, R291). -/
def Obligations.SendRows : Prop :=
  (∀ (s : State) (n : Nat) (c : Ctx) (it : SendItem) (rest : List SendItem), s.coreOff = false → s.tpt.parked = [] →
    s.ctx? n = some c → c.failed = false → s.cached n = true → psnSub c.sndNxt c.sndUna < 256 → c.queue = it :: rest →
    it.setts ≠ [] → (s.settShare it.setts).isSome = true → Completes (.transportSend n) s fun t =>
      t.ctx? n = some { c with
        queue := rest, sndNxt := (c.sndNxt + 1) % 2 ^ 32,
        sent := c.sent ++ [⟨c.sndNxt, it.head, it.payload, s.fld Reg.TPT_UDP_CFG_DST_PORT, it.setts, s.uptimeNs, none, true, false, 0, false⟩] }) ∧
  (∀ (s : State) (n : Nat) (c : Ctx) (it : SendItem) (rest : List SendItem) (h : List Nat) (s1 : State), s.coreOff =
    false → s.tpt.parked = [] → s.ctx? n = some c → c.failed = false → s.cached n = true → psnSub c.sndNxt c.sndUna <
    256 → c.queue = it :: rest → it.setts = [] → s.settStore (reqTransport (n % 2) (cClass (s.ctxRec n))) (s.ctxFrame
    n 0 0 c.sndNxt c.ackPsn it.head it.payload) = (some h, s1) → (s1.settShare h).isSome = true → Completes
    (.transportSend n) s fun t =>
      t.ctx? n = some { c with
        queue := rest, sndNxt := (c.sndNxt + 1) % 2 ^ 32,
        sent := c.sent ++ [⟨c.sndNxt, it.head, it.payload, s.fld Reg.TPT_UDP_CFG_DST_PORT, h, s.uptimeNs, none, true, false, 0, false⟩] }) ∧
  (∀ (s : State) (n : Nat) (c : Ctx) (it : SendItem) (rest : List SendItem), s.coreOff = false → s.tpt.parked = [] →
    s.ctx? n = some c → c.failed = false → s.cached n = true → psnSub c.sndNxt c.sndUna < 256 → c.queue = it :: rest →
    it.setts = [] → (s.settStore (reqTransport (n % 2) (cClass (s.ctxRec n))) (s.ctxFrame n 0 0 c.sndNxt c.ackPsn
    it.head it.payload)).1 = none → Completes (.transportSend n) s fun t =>
      t.tpt.parked = [.data n] ∧ t.ctx? n = some c) ∧
  (∀ (s : State) (n : Nat), ∀ c ∈ (s.ctx? n).toList, c.queue = [] ∨ c.failed = true ∨ s.cached n = false ∨ 256 ≤
    psnSub c.sndNxt c.sndUna → Completes (.transportSend n) s fun t =>
      t = s) ∧
  (∀ (s : State) (n : Nat) (c : Ctx), s.coreOff = false → s.tpt.parked = [] → s.ctx? n = some c → c.failed = false →
    0 < c.sinceAck → Completes (.ackDelayExpire n) s fun t =>
      t.ctx? n = some { c with sinceAck := 0 }) ∧
  (∀ (s : State) (n : Nat), ∀ c ∈ (s.ctx? n).toList, c.sinceAck = 0 ∨ c.failed = true → Completes (.ackDelayExpire n)
    s fun t =>
      t = s) ∧
  (∀ (s : State) (n psn : Nat) (c : Ctx), s.coreOff = false → s.tpt.parked = [] → s.ctx? n = some c → c.sent.any (fun
    p => p.psn == psn && p.backoff) = true → Completes (.notYetBackoff n psn) s fun t =>
      t.ctx? n = some { c with sent := c.sent.map fun p =>
        if p.psn = psn then { p with once := false, last := some s.uptimeNs, backoff := false } else p } ∧
      t.fld Reg.TPT_STAT_VALUE_VALUE (6 * 1024) = min 0xFFFFFFFF (s.fld Reg.TPT_STAT_VALUE_VALUE (6 * 1024) + 1)) ∧
  (∀ (s : State) (n psn : Nat), ∀ c ∈ (s.ctx? n).toList, c.sent.any (fun p => p.psn == psn && p.backoff) = false →
    Completes (.notYetBackoff n psn) s fun t =>
      t = s) ∧
  (∀ (s : State) (n : Nat) (c : Ctx) (p : SentPkt), s.coreOff = false → s.tpt.parked = [] → s.ctx? n = some c →
    c.failed = false → c.sent.find? (fun p => !p.sacked) = some p → p.backoff = false → c.retry + 1 ≤ s.fld
    Reg.TPT_TIMER_CFG_RETRY_MAX → Completes (.rtoExpire n) s fun t =>
      (t.ctx? n).map Ctx.retry = some (c.retry + 1) ∧ (t.ctx? n).map Ctx.rto = some (some (min (2 * s.rtoOf c)
      s.rtoMax)) ∧ t.fld Reg.TPT_STAT_VALUE_VALUE (7 * 1024) = min 0xFFFFFFFF (s.fld Reg.TPT_STAT_VALUE_VALUE (7 *
      1024) + 1) ∧ t.fld Reg.TPT_STAT_VALUE_VALUE (6 * 1024) = min 0xFFFFFFFF (s.fld Reg.TPT_STAT_VALUE_VALUE (6 *
      1024) + 1)) ∧
  (∀ (s : State) (n : Nat) (c : Ctx) (p : SentPkt), s.coreOff = false → s.tpt.parked = [] → s.ctx? n = some c →
    c.failed = false → c.sent.find? (fun p => !p.sacked) = some p → p.backoff = false → s.fld
    Reg.TPT_TIMER_CFG_RETRY_MAX < c.retry + 1 → s.col.ops = [] → s.fltSlots = [] → Completes (.rtoExpire n) s fun t =>
      (t.ctx? n).map (fun x => (x.failed, x.reason, x.sent, x.queue)) = some (true, 1, [], []) ∧ t.fld
      Reg.TPT_STAT_VALUE_VALUE (8 * 1024) = min 0xFFFFFFFF (s.fld Reg.TPT_STAT_VALUE_VALUE (8 * 1024) + 1)) ∧
  (∀ (s : State) (n : Nat), ∀ c ∈ (s.ctx? n).toList, c.failed = true ∨ c.sent.all (fun p => p.sacked) = true →
    Completes (.rtoExpire n) s fun t =>
      t = s)

/-- TRANSPORT_DATA_RECEIVE, TRANSPORT_ACK_RECEIVE, COLL_NOT_YET and CONTEXT_FETCH_DONE (R234 to R245, R291, R293). PSNs are
compared modulo 2³². -/
def Obligations.ReceiveRows : Prop :=
  (∀ (s : State) (req : Nat) (frame d : Bytes) (l : List Nat) (c : Ctx) (ps : List Piece) (lost : Bool), s.coreOff =
    false → s.tpt.parked = [] → s.datagramOf frame = some (d, true) → tpBad d = false → (s.settStore req frame).1 =
    some l → tDst d < 262144 → s.ctx? (tDst d) = some c → c.failed = false → s.cached (tDst d) = true → tGen d = cGen
    (s.ctxRec (tDst d)) → lost = false → tTyp d = 0 → tPsn d = c.rcvNxt → c.rcvMap = [] → c.sent = [] →
    c.partials.find ⟨tGroup d, tSeq d, tChunk d, tMember d⟩ = some ps → (s.col.held.any fun x => x.key == ⟨tGroup d,
    tSeq d, tChunk d, tMember d⟩) = false → ps.all (fun p => !(decide (tOff d < p.off + p.count) && decide (p.off <
    tOff d + tCount d))) = true → tCount d ≠ 0 → sumOf (ps.map Piece.count) + tCount d < 1024 → Completes
    (.transportDataReceive req ⟨frame, lost⟩) s fun t =>
      (t.ctx? (tDst d)).map (fun x => (x.rcvNxt, x.rcvMap)) = some ((c.rcvNxt + 1) % 2 ^ 32, []) ∧ (t.ctx? (tDst
      d)).bind (fun x => x.partials.find ⟨tGroup d, tSeq d, tChunk d, tMember d⟩) = some (ps ++ [⟨tOff d, tCount d,
      tFmt d, tPayload d, l⟩])) ∧
  (∀ (s : State) (req : Nat) (frame d : Bytes) (l : List Nat) (c : Ctx), s.coreOff = false → s.tpt.parked = [] →
    s.datagramOf frame = some (d, true) → tpBad d = false → (s.settStore req frame).1 = some l → tDst d < 262144 →
    s.ctx? (tDst d) = some c → c.failed = false → s.cached (tDst d) = true → tGen d = cGen (s.ctxRec (tDst d)) → tTyp
    d = 0 → tPsn d ∈ c.rcvMap ∨ 2 ^ 31 ≤ psnSub (tPsn d) c.rcvNxt → Completes (.transportDataReceive req ⟨frame,
    false⟩) s fun t =>
      t.fld Reg.TPT_STAT_VALUE_VALUE (1 * 1024) = min 0xFFFFFFFF (s.fld Reg.TPT_STAT_VALUE_VALUE (1 * 1024) + 1) ∧
      (t.ctx? (tDst d)).map (fun x => (x.rcvNxt, x.rcvMap, x.partials)) = some (c.rcvNxt, c.rcvMap, c.partials)) ∧
  (∀ (s : State) (req : Nat) (frame d : Bytes) (l : List Nat) (c : Ctx) (o : CollOp), s.coreOff = false →
    s.tpt.parked = [] → s.datagramOf frame = some (d, true) → tpBad d = false → (s.settStore req frame).1 = some l →
    tDst d < 262144 → s.ctx? (tDst d) = some c → c.failed = false → s.cached (tDst d) = true → tGen d = cGen (s.ctxRec
    (tDst d)) → tTyp d = 0 → s.col.ops = [((tGroup d, tSeq d), o)] → s.col.held = [] → o.group = tGroup d → o.seq =
    tSeq d → o.leaving = [] → Completes (.transportDataReceive req ⟨frame, true⟩) s fun t =>
      t.collOp (tGroup d) (tSeq d) = none ∧ t.collDone (tGroup d) (tSeq d) = true) ∧
  (∀ (s : State) (req : Nat) (frame d : Bytes) (l : List Nat) (c : Ctx), s.coreOff = false → s.tpt.parked = [] →
    s.datagramOf frame = some (d, true) → tpBad d = false → (s.settStore req frame).1 = some l → tDst d < 262144 →
    s.ctx? (tDst d) = some c → c.failed = false → s.cached (tDst d) = true → tGen d = cGen (s.ctxRec (tDst d)) → tTyp
    d = 1 → s.col.ops = [] → s.col.held = [] → psnSub ((tAckPsn d + 1) % 2 ^ 32) c.sndUna ≤ psnSub c.sndNxt c.sndUna →
    Completes (.transportAckReceive req frame) s fun t =>
      (t.ctx? (tDst d)).map Ctx.sndUna = some ((c.sndUna + psnSub ((tAckPsn d + 1) % 2 ^ 32) c.sndUna) % 2 ^ 32)) ∧
  (∀ (s : State) (req : Nat) (frame d : Bytes) (l : List Nat) (c : Ctx), s.coreOff = false → s.tpt.parked = [] →
    s.datagramOf frame = some (d, true) → tpBad d = false → (s.settStore req frame).1 = some l → tDst d < 262144 →
    s.ctx? (tDst d) = some c → c.failed = false → s.cached (tDst d) = true → tGen d = cGen (s.ctxRec (tDst d)) → tTyp
    d = 2 → kCtype d = 1 → Completes (.collNotYet req frame) s fun t =>
      t.ctx? (tDst d) = some { c with sent := c.sent.map fun p => if (p.psn = kPsnRef d && !p.sacked) = true then {
      p with backoff := true, notYets := p.notYets + 1 } else p }) ∧
  (∀ (s : State) (req : Nat) (frame : Bytes) (lost : Bool), s.datagramOf frame = none → Completes
    (.transportDataReceive req ⟨frame, lost⟩) s fun t =>
      t = s) ∧
  (∀ (s : State) (req : Nat) (frame d : Bytes) (sumOk lost : Bool) (l : List Nat), s.coreOff = false → s.tpt.parked =
    [] → s.datagramOf frame = some (d, sumOk) → sumOk = false ∨ tpBad d = true → (s.settStore req frame).1 = some l →
    Completes (.transportDataReceive req ⟨frame, lost⟩) s fun t =>
      t = (((s.settStore req frame).2).settFrees l).tptCount 4) ∧
  (∀ (s : State) (req : Nat) (frame d : Bytes) (l : List Nat) (lost : Bool), s.coreOff = false → s.tpt.parked = [] →
    s.datagramOf frame = some (d, true) → tpBad d = false → (s.settStore req frame).1 = some l → tDst d < 262144 →
    tTyp d = 0 → s.ctxOpen (tDst d) = false → Completes (.transportDataReceive req ⟨frame, lost⟩) s fun t =>
      t = (((s.settStore req frame).2).settFrees l).tptCount 3) ∧
  (∀ (s : State) (req : Nat) (frame d : Bytes) (l : List Nat) (lost : Bool), s.coreOff = false → s.tpt.parked = [] →
    s.datagramOf frame = some (d, true) → tpBad d = false → (s.settStore req frame).1 = some l → tDst d < 262144 →
    tTyp d = 0 → s.ctxOpen (tDst d) = true → s.cached (tDst d) = false → Completes (.transportDataReceive req ⟨frame,
    lost⟩) s fun t =>
      t.tpt = { s.tpt with waiting := s.tpt.waiting ++ [⟨tDst d, d, l⟩] }) ∧
  (∀ (s : State) (n : Nat), s.coreOff = false → s.tpt.waiting = [] → s.cached n = false → (s.ctxCache n).length <
    8192 → Completes (.contextFetchDone n []) s fun t =>
      t.ctxCache n = s.ctxCache n ++ [n] ∧ t.tpt.ctxs = s.tpt.ctxs ∧ SameBut [.tpt] s t) ∧
  (∀ (s : State) (n : Nat) (d : Bytes) (l : List Nat) (c : Ctx), s.coreOff = false → s.tpt.parked = [] →
    s.tpt.waiting = [⟨n, d, l⟩] → s.cached n = false → (s.ctxCache n).length < 8192 → s.ctx? n = some c → c.failed =
    false → tGen d = cGen (s.ctxRec n) → tTyp d = 1 → s.col.ops = [] → s.col.held = [] → psnSub ((tAckPsn d + 1) % 2 ^
    32) c.sndUna ≤ psnSub c.sndNxt c.sndUna → Completes (.contextFetchDone n []) s fun t =>
      t.tpt.waiting = [] ∧ t.cached n = true ∧ (t.ctx? n).map Ctx.sndUna = some ((c.sndUna + psnSub ((tAckPsn d + 1)
      % 2 ^ 32) c.sndUna) % 2 ^ 32)) ∧
  (∀ (s : State) (n : Nat) (r : MemRead) (c : Ctx), s.coreOff = false → s.tpt.parked = [] → s.cached n = false →
    (s.recordRead r).1 = false → s.ctx? n = some c → c.failed = false → s.col.ops = [] → s.fltSlots = [] → Completes
    (.contextFetchDone n r) s fun t =>
      (t.ctx? n).map (fun x => (x.failed, x.reason, x.sent, x.queue)) = some (true, 2, [], []))

/-- COLL_CHUNK_DONE, COLL_RESULT, COLL_QUERY, COLL_GONE and QUERY_TIMER (R279 to R282, R293). -/
def Obligations.CollectiveMessageRows : Prop :=
  (∀ (s : State) (req : Nat) (frame d : Bytes) (l : List Nat) (c : Ctx), s.coreOff = false → s.tpt.parked = [] →
    s.datagramOf frame = some (d, true) → tpBad d = false → (s.settStore req frame).1 = some l → tDst d < 262144 →
    s.ctx? (tDst d) = some c → c.failed = false → s.cached (tDst d) = true → tGen d = cGen (s.ctxRec (tDst d)) → tTyp
    d = 2 → kCtype d = 2 → Completes (.collChunkDone req frame) s fun t =>
      t.col = s.col ∧ t.ctx? (tDst d) = some c ∧ t.mem = s.mem) ∧
  (∀ (s : State) (req : Nat) (frame d : Bytes) (l : List Nat) (c : Ctx) (o : CollOp) (r : Bytes), s.coreOff = false →
    s.tpt.parked = [] → s.datagramOf frame = some (d, true) → tpBad d = false → (s.settStore req frame).1 = some l →
    tDst d < 262144 → s.ctx? (tDst d) = some c → c.failed = false → s.cached (tDst d) = true → tGen d = cGen (s.ctxRec
    (tDst d)) → tTyp d = 2 → kCtype d = 3 → s.col.ops = [((kGroup d, kSeq d), o)] → s.col.held = [] → o.group = kGroup
    d → o.seq = kSeq d → s.col.bayWaits = [] → s.collGroup (kGroup d) = some r → gRoot r = false → kChunk d ∈
    o.complete → kChunk d ∉ o.done → o.log = 0 → o.entries = false → o.logHeld = [] → o.plan = none → o.admission =
    AdmitState.admitted → o.leaving = [] → o.chunks ≤ o.nextBow → o.chunks ≤ o.nextStern → o.done.length + 1 <
    o.chunks → Completes (.collResult req frame) s fun t =>
      t.collOp (kGroup d) (kSeq d) = some
      { o with done := o.done ++ [kChunk d], queries := o.queries.del (kChunk d) }) ∧
  (∀ (s : State) (req : Nat) (frame d : Bytes) (l : List Nat) (c : Ctx) (p : PastOp), s.coreOff = false →
    s.tpt.parked = [] → s.datagramOf frame = some (d, true) → tpBad d = false → (s.settStore req frame).1 = some l →
    tDst d < 262144 → s.ctx? (tDst d) = some c → c.failed = false → s.cached (tDst d) = true → tGen d = cGen (s.ctxRec
    (tDst d)) → tTyp d = 2 → kCtype d = 4 → s.collDone (kGroup d) (kSeq d) = true → s.outerChunk (kGroup d) (kSeq d)
    (kChunk d) = none → s.collOp (kGroup d) (kSeq d) = none → ((s.grpState (kGroup d)).past.take (s.fld
    Reg.COL_ADMIT_CFG_RESULT_DEPTH)).find? (fun p => p.seq == kSeq d) = some p → kChunk d ∈ p.done → p.code = 0 ∨
    p.code = 3 → p.log ≠ 0 → (s.readLog p.domain p.log p.fmt (kChunk d)).isSome = true → Completes (.collQuery req
    frame) s fun t =>
      t.fld Reg.COL_STAT_VALUE_VALUE 12 = min 0xFFFFFFFF (s.fld Reg.COL_STAT_VALUE_VALUE 12 + 1) ∧ t.col = s.col) ∧
  (∀ (s : State) (req : Nat) (frame d : Bytes) (l : List Nat) (c : Ctx) (p : PastOp), s.coreOff = false →
    s.tpt.parked = [] → s.datagramOf frame = some (d, true) → tpBad d = false → (s.settStore req frame).1 = some l →
    tDst d < 262144 → s.ctx? (tDst d) = some c → c.failed = false → s.cached (tDst d) = true → tGen d = cGen (s.ctxRec
    (tDst d)) → tTyp d = 2 → kCtype d = 4 → s.collDone (kGroup d) (kSeq d) = true → s.outerChunk (kGroup d) (kSeq d)
    (kChunk d) = none → s.collOp (kGroup d) (kSeq d) = none → ((s.grpState (kGroup d)).past.take (s.fld
    Reg.COL_ADMIT_CFG_RESULT_DEPTH)).find? (fun p => p.seq == kSeq d) = some p → kChunk d ∈ p.done → p.code ≠ 0 →
    p.code ≠ 3 → Completes (.collQuery req frame) s fun t =>
      t.fld Reg.COL_STAT_VALUE_VALUE 12 = min 0xFFFFFFFF (s.fld Reg.COL_STAT_VALUE_VALUE 12 + 1) ∧ t.col = s.col) ∧
  (∀ (s : State) (req : Nat) (frame d : Bytes) (l : List Nat) (c : Ctx), s.coreOff = false → s.tpt.parked = [] →
    s.datagramOf frame = some (d, true) → tpBad d = false → (s.settStore req frame).1 = some l → tDst d < 262144 →
    s.ctx? (tDst d) = some c → c.failed = false → s.cached (tDst d) = true → tGen d = cGen (s.ctxRec (tDst d)) → tTyp
    d = 2 → kCtype d = 4 → s.collDone (kGroup d) (kSeq d) = true → s.outerChunk (kGroup d) (kSeq d) (kChunk d) = none
    → s.collOp (kGroup d) (kSeq d) = none → ((s.grpState (kGroup d)).past.take (s.fld
    Reg.COL_ADMIT_CFG_RESULT_DEPTH)).find? (fun p => p.seq == kSeq d) = none → Completes (.collQuery req frame) s fun
    t =>
      t.fld Reg.COL_STAT_VALUE_VALUE 13 = min 0xFFFFFFFF (s.fld Reg.COL_STAT_VALUE_VALUE 13 + 1) ∧ t.col = s.col) ∧
  (∀ (s : State) (req : Nat) (frame d : Bytes) (l : List Nat) (c : Ctx) (o : CollOp) (r : Bytes), s.coreOff = false →
    s.tpt.parked = [] → s.datagramOf frame = some (d, true) → tpBad d = false → (s.settStore req frame).1 = some l →
    tDst d < 262144 → s.ctx? (tDst d) = some c → c.failed = false → s.cached (tDst d) = true → tGen d = cGen (s.ctxRec
    (tDst d)) → tTyp d = 2 → kCtype d = 5 → s.col.ops = [((kGroup d, kSeq d), o)] → s.col.held = [] → o.group = kGroup
    d → o.seq = kSeq d → s.collGroup (kGroup d) = some r → gUplink r = tDst d → o.queries.has (kChunk d) = true →
    o.leaving = [] → Completes (.collGone req frame) s fun t =>
      t.collOp (kGroup d) (kSeq d) = none ∧ t.collDone (kGroup d) (kSeq d) = true) ∧
  (∀ (s : State) (g q chunk n : Nat) (o : CollOp) (r : Bytes), s.coreOff = false → s.tpt.parked = [] → s.collOp g q =
    some o → o.group = g → o.seq = q → s.collGroup g = some r → o.queries.find chunk = some n → s.uplinkAcked (gUplink
    r) g q chunk = true → n < 8 → Completes (.queryTimer g q chunk) s fun t =>
      t.collOp g q = some { o with queries := o.queries.put chunk (n + 1) }) ∧
  (∀ (s : State) (g q chunk n : Nat) (o : CollOp) (r : Bytes), s.coreOff = false → s.tpt.parked = [] → s.col.ops =
    [((g, q), o)] → s.col.held = [] → o.group = g → o.seq = q → s.collGroup g = some r → o.queries.find chunk = some n
    → s.uplinkAcked (gUplink r) g q chunk = true → 8 ≤ n → o.leaving = [] → Completes (.queryTimer g q chunk) s fun t
    =>
      t.collOp g q = none ∧ t.collDone g q = true) ∧
  (∀ (s : State) (g q chunk : Nat), s.collOp g q = none ∨ s.collGroup g = none → Completes (.queryTimer g q chunk) s
    fun t =>
      t = s)

/-- LLR_INIT_SEND, LLR_INIT, LLR_FRAME_RECEIVE, LLR_ACK, LLR_NAK, LLR_ACK_TIMER and LLR_TIMEOUT (R248 to R250). An INIT of a
running port: notes/assumptions/182.md. -/
def Obligations.LlrRows : Prop :=
  (∀ (s : State) (port : Nat), s.coreOff = false → s.llrOn port = true → s.portUp port = true → Completes
    (.llrInitSend port) s fun t =>
      t = if (s.llrOf port).active = true then s else s.emit (.frame port (llrControl port 0 0 s.meanDelay))) ∧
  (∀ (s : State) (port : Nat), s.llrOn port = false ∨ s.portUp port = false → Completes (.llrInitSend port) s fun t
    =>
      t = s) ∧
  (∀ (s : State) (port : Nat), s.coreOff = false → s.tpt.parked = [] → s.llrOn port = true → s.portUp port = true →
    Completes (.llrInit port) s fun t =>
      t.llrOf port = { active := true } ∧ (t.portSt port).far = 0) ∧
  (∀ (s : State) (port : Nat), s.llrOn port = false ∨ s.portUp port = false → Completes (.llrInit port) s fun t =>
      t = s) ∧
  (∀ (s : State) (port lsn : Nat) (frame : Bytes), s.coreOff = false → s.tpt.parked = [] → (s.llrOf port).active =
    true → s.portUp port = true → lsn = (s.llrOf port).rxNext → s.encrypts port = false → s.pipelineSlow port = false
    → parseFrame (s.fld Reg.SWC_PARSE_CFG_OUTER_TPID) frame = Parse.nonIp → Completes (.llrFrameReceive port lsn
    frame) s fun t =>
      t.llrOf port = { s.llrOf port with
        rxNext := (lsn + 1) % 65536, naked := false, sinceAck := if 16 ≤ (s.llrOf port).sinceAck + 1 then 0 else (s.llrOf port).sinceAck + 1 } ∧
      (16 ≤ (s.llrOf port).sinceAck + 1 → Out.frame port (llrControl port 1 lsn s.meanDelay) ∈ t.out) ∧
      ((s.settStore (reqPort port) frame).1 ≠ none →
        t.fld Reg.SWC_STAT_VALUE_VALUE (port + 3 * 1024) = min 0xFFFFFFFF (s.fld Reg.SWC_STAT_VALUE_VALUE (port + 3 * 1024) + 1))) ∧
  (∀ (s : State) (port lsn : Nat) (frame : Bytes), s.coreOff = false → (s.llrOf port).active = true → s.portUp port =
    true → lsn ≠ (s.llrOf port).rxNext → lsnLe lsn (s.llrOf port).rxNext = false → (s.llrOf port).naked = false →
    Completes (.llrFrameReceive port lsn frame) s fun t =>
      t.llrOf port = { s.llrOf port with naked := true } ∧ t.out = s.out ++ [.frame port (llrControl port 2
      (((s.llrOf port).rxNext + 65535) % 65536) s.meanDelay)]) ∧
  (∀ (s : State) (port lsn : Nat) (frame : Bytes), (s.llrOf port).active = false ∨ s.portUp port = false ∨ (lsn ≠
    (s.llrOf port).rxNext ∧ (lsnLe lsn (s.llrOf port).rxNext = true ∨ (s.llrOf port).naked = true)) → Completes
    (.llrFrameReceive port lsn frame) s fun t =>
      t = s) ∧
  (∀ (s : State) (port lsn qdelay : Nat), s.coreOff = false → s.tpt.parked = [] → (s.llrOf port).active = true →
    Completes (.llrAck port lsn qdelay) s fun t =>
      (t.llrOf port).held = (s.llrOf port).held.filter (fun h => !lsnLe h.1 lsn) ∧ (t.portSt port).far = qdelay ∧
      t.out = s.out) ∧
  (∀ (s : State) (port lsn qdelay : Nat), (s.llrOf port).active = false → Completes (.llrAck port lsn qdelay) s fun t
    =>
      t = s) ∧
  (∀ (s : State) (port lsn qdelay : Nat), s.coreOff = false → (s.llrOf port).active = true → (s.llrOf port).held.all
    (fun h => !lsnLe h.1 lsn) = true → (s.llrOf port).held ≠ [] → (s.llrOf port).replays < 7 → Completes (.llrNak port
    lsn qdelay) s fun t =>
      t.out = s.out ++ (s.llrOf port).held.map (fun h => Out.frame port h.2.1) ∧ t.llrOf port =
      { s.llrOf port with replays := (s.llrOf port).replays + 1 } ∧ (t.portSt port).far = qdelay) ∧
  (∀ (s : State) (port lsn qdelay : Nat), (s.llrOf port).active = false → Completes (.llrNak port lsn qdelay) s fun t
    =>
      t = s) ∧
  (∀ (s : State) (port : Nat), s.coreOff = false → (s.llrOf port).active = true → (s.llrOf port).sinceAck ≠ 0 →
    Completes (.llrAckTimer port) s fun t =>
      t.llrOf port = { s.llrOf port with sinceAck := 0 } ∧ t.out = s.out ++ [.frame port (llrControl port 1
      (((s.llrOf port).rxNext + 65535) % 65536) s.meanDelay)]) ∧
  (∀ (s : State) (port : Nat), (s.llrOf port).active = false ∨ (s.llrOf port).sinceAck = 0 → Completes (.llrAckTimer
    port) s fun t =>
      t = s) ∧
  (∀ (s : State) (port : Nat), s.coreOff = false → (s.llrOf port).active = true → (s.llrOf port).held ≠ [] → (s.llrOf
    port).replays < 7 → Completes (.llrTimeout port) s fun t =>
      t.out = s.out ++ (s.llrOf port).held.map (fun h => Out.frame port h.2.1) ∧ t.llrOf port =
      { s.llrOf port with replays := (s.llrOf port).replays + 1 }) ∧
  (∀ (s : State) (port : Nat), s.coreOff = false → (s.llrOf port).active = true → (s.llrOf port).held ≠ [] → 7 ≤
    (s.llrOf port).replays → Completes (.llrTimeout port) s fun t =>
      t.portUp port = false) ∧
  (∀ (s : State) (port : Nat), (s.llrOf port).active = false ∨ (s.llrOf port).held = [] → Completes (.llrTimeout
    port) s fun t =>
      t = s)

/-- COLL_ALLREDUCE, COLL_REDUCE_SCATTER, COLL_REDUCE, COLL_BROADCAST, COLL_SHIFT, COLL_PERMUTE and COLL_CANCEL (R275, R284 to R293). -/
def Obligations.CollectiveStartRows : Prop :=
  (∀ (s : State) (code : Nat) (op : OpKey) (o : Op) (st : Nat), code ≤ 5 → s.Ready op o → dKind o.desc = kindCOLL →
    dOp o.desc = code → s.collRefusal o.fn o.desc = some st → Completes (collRow code op) s fun t =>
      t.endedWith op st = true ∧ SameBut [.hif] s t) ∧
  (∀ (s : State) (code : Nat) (op : OpKey) (o : Op), code ≤ 5 → s.Ready op o → dKind o.desc = kindCOLL → dOp o.desc =
    code → s.collRefusal o.fn o.desc = none → s.collDenied o = true → Completes (collRow code op) s fun t =>
      t.endedWith op stDOMAIN_DENIED = true ∧ SameBut [.hif] s t) ∧
  (∀ (s : State) (code : Nat) (op : OpKey) (o : Op), code ≤ 5 → s.Ready op o → dKind o.desc = kindCOLL → dOp o.desc =
    code → s.collRefusal o.fn o.desc = none → s.collDenied o = false → cChunkCount o.desc = 0 → Completes (collRow
    code op) s fun t =>
      t.endedWith op stOK = true ∧ t.collDone (cGroup o.desc) (cOpSeq o.desc) = true ∧ t.col.ops = s.col.ops) ∧
  (∀ (s : State) (code : Nat) (op : OpKey) (o : Op), code ≤ 5 → s.Ready op o → dKind o.desc = kindCOLL → dOp o.desc =
    code → s.collRefusal o.fn o.desc = none → s.collDenied o = false → cChunkCount o.desc ≠ 0 → s.col.ops = [] →
    s.col.held = [] → s.col.bayWaits = [] → Completes (collRow code op) s fun t =>
      (t.collOp (cGroup o.desc) (cOpSeq o.desc)).map (fun c => (c.code, c.chunks, c.desc)) = some (code, cChunkCount
      o.desc, some op) ∧ t.underWay op = true) ∧
  (∀ (s : State) (op : OpKey) (o : Op), s.Ready op o → dKind o.desc = kindCOLL → dOp o.desc = 6 → ∀ c ∈ (s.collOp
    (cGroup o.desc) (cOpSeq o.desc)).toList, c.plan.isSome = true → Completes (.collCancel op) s fun t =>
      t.endedWith op stBAD_FIELD = true ∧ SameBut [.hif] s t) ∧
  (∀ (s : State) (op : OpKey) (o : Op) (c : CollOp), s.Ready op o → dKind o.desc = kindCOLL → dOp o.desc = 6 →
    s.collOp (cGroup o.desc) (cOpSeq o.desc) = some c → c.group = cGroup o.desc → c.seq = cOpSeq o.desc → c.plan =
    none → c.leaving ≠ [] → c.areaHeld = false → Completes (.collCancel op) s fun t =>
      t.endedWith op stOK = true ∧ t.collOp (cGroup o.desc) (cOpSeq o.desc) = some
      { c with ending := some stCOLL_CANCELLED }) ∧
  (∀ (s : State) (op : OpKey) (o : Op) (c : CollOp), s.Ready op o → dKind o.desc = kindCOLL → dOp o.desc = 6 →
    s.tpt.parked = [] → s.col.ops = [((cGroup o.desc, cOpSeq o.desc), c)] → s.col.held = [] → c.group = cGroup o.desc
    → c.seq = cOpSeq o.desc → c.plan = none → c.leaving = [] → c.desc ≠ some op → Completes (.collCancel op) s fun t
    =>
      t.endedWith op stOK = true ∧ t.col.ops = [] ∧ t.collDone (cGroup o.desc) (cOpSeq o.desc) = true)

/-- SPILL_DONE, RESTORE_DONE, TENSOR_GROUP_COMMIT, CONTEXT_SAVE_DONE, CONTEXT_RESTORE_DONE, QUANTUM_EXPIRE, GROUP_OVERRUN and
EXPAND_BLOCK (R289, R337 to R342, R358, R360). -/
def Obligations.SpillAndTensorRows : Prop :=
  (∀ (s : State) (g q chunk : Nat) (o : CollOp) (b : Bay) (sp : Spilled), s.coreOff = false → s.col.ops = [((g, q),
    o)] → s.col.held = [] → s.col.bayWaits = [] → o.group = g → o.seq = q → o.plan = none → o.spill = 0 → o.spec =
    none → o.logHeld = [] → o.done.length ≠ o.chunks → o.admission = AdmitState.wait → o.leaving.find? (fun b =>
    b.chunk == chunk) = some b → o.spilled.find? (fun b => b.chunk == chunk) = some sp → o.leaving.filter (fun x =>
    x.chunk != chunk) ≠ [] → Completes (.spillDone g q chunk) s fun t =>
      (∃ x, t.collOp g q = some x ∧ x.leaving = o.leaving.filter (fun x => x.chunk != chunk) ∧ x.bays = o.bays ∧
        x.spilled = o.spilled.map fun x => if x.chunk = chunk then { x with written := true } else x) ∧
      t.fld Reg.COL_STAT_VALUE_VALUE 10 = min 0xFFFFFFFF (s.fld Reg.COL_STAT_VALUE_VALUE 10 + 1)) ∧
  (∀ (s : State) (g q chunk st : Nat) (o : CollOp) (b : Bay) (sp : Spilled), s.coreOff = false → s.col.ops = [((g,
    q), o)] → s.col.held = [] → s.col.bayWaits = [] → o.group = g → o.seq = q → o.plan = none → o.spill = 0 → o.spec =
    none → o.logHeld = [] → o.done.length ≠ o.chunks → s.tpt.parked = [] → o.leaving = [b] → b.chunk = chunk →
    o.spilled.find? (fun b => b.chunk == chunk) = some sp → o.ending = some st → Completes (.spillDone g q chunk) s
    fun t =>
      t.collOp g q = none ∧ t.collDone g q = true) ∧
  (∀ (s : State) (g q chunk : Nat), s.collOp g q = none → Completes (.spillDone g q chunk) s fun t =>
      t = s) ∧
  (∀ (s : State) (g q chunk : Nat) (o : CollOp) (sp : Spilled), s.coreOff = false → s.col.ops = [((g, q), o)] →
    s.col.held = [] → s.col.bayWaits = [] → o.group = g → o.seq = q → o.plan = none → o.spill = 0 → o.spec = none →
    o.logHeld = [] → o.done.length ≠ o.chunks → o.admission = AdmitState.admitted → o.leaving = [] → o.chunks ≤
    o.nextBow → o.chunks ≤ o.nextStern → o.spilled.find? (fun b => b.chunk == chunk && b.written) = some sp →
    Completes (.restoreDone g q chunk []) s fun t =>
      (∃ x, t.collOp g q = some x ∧ x.spilled = o.spilled.filter (fun x => x.chunk != chunk) ∧
        x.bays = o.bays ++ [⟨chunk, [], sp.arrived, sp.count⟩]) ∧ t.fld Reg.COL_STAT_VALUE_VALUE 11 = min 0xFFFFFFFF (s.fld Reg.COL_STAT_VALUE_VALUE 11 + 1)) ∧
  (∀ (s : State) (g q chunk : Nat) (r : MemRead), s.collOp g q = none → Completes (.restoreDone g q chunk r) s fun t
    =>
      t = s) ∧
  (∀ (s : State) (n off i : Nat) (b : Bytes) (c : TCtx), s.coreOff = false → s.tfb.ctxs = [(n, c)] → c.st =
    csxRUNNING → c.saving = false → c.restoring = false → c.restart = false → c.preempt = false → s.domainOn
    c.runDomain = true → off + b.length ≤ tWsKib c.cont * 1024 → b.length ≤ (bodyLimits c.cont c.body).1 * 1024 → i <
    tGroupCount c.cont → c.groups + 1 < 2 ^ 32 - 1 → Completes (.tensorGroupCommit n [.store 0 off (.imm b)] (.body
    i)) s fun t =>
      t.tctx n = { TCtx.wsStore 0 off b c with groups := c.groups + 1, body := i }) ∧
  (∀ (s : State) (n : Nat) (c : TCtx) (r : Run), s.coreOff = false → s.tfb.ctxs = [(n, c)] → c.st = csxRUNNING →
    c.saving = false → c.restoring = false → c.restart = false → s.domainOn c.runDomain = true → c.die < 2 → c.cur =
    some r → c.queue = [] → c.unload = false → r.plan = none → r.rig = none → r.outer = none → Completes
    (.tensorGroupCommit n [] .finish) s fun t =>
      (t.tctx n).st = csxRESIDENT ∧ (t.tctx n).cur = none ∧ (t.tctx n).groups = c.groups + 1 ∧ t.fld
      Reg.TFB_STAT_VALUE_VALUE (8 * c.die) = min 0xFFFFFFFF (s.fld Reg.TFB_STAT_VALUE_VALUE (8 * c.die) + 1)) ∧
  (∀ (s : State) (n : Nat) (c : TCtx) (r : Run) (ops : List TOp) (go : GroupNext), s.coreOff = false → s.tfb.ctxs =
    [(n, c)] → c.st = csxRUNNING → c.saving = false → c.restoring = false → s.domainOn c.runDomain = false → c.die < 2
    → c.cur = some r → c.queue = [] → c.unload = false → r.plan = none → r.rig = none → r.outer = none → Completes
    (.tensorGroupCommit n ops go) s fun t =>
      (t.tctx n).st = csxRESIDENT ∧ (t.tctx n).cur = none ∧ t.fld Reg.TFB_STAT_VALUE_VALUE (1 + 8 * c.die) = min
      0xFFFFFFFF (s.fld Reg.TFB_STAT_VALUE_VALUE (1 + 8 * c.die) + 1)) ∧
  (∀ (s : State) (n : Nat) (ops : List TOp) (go : GroupNext), (s.tctx n).st ≠ csxRUNNING ∨ (s.tctx n).saving = true ∨
    (s.tctx n).restoring = true → Completes (.tensorGroupCommit n ops go) s fun t =>
      t = s) ∧
  (∀ (s : State) (n : Nat) (c : TCtx), s.coreOff = false → s.tfb.ctxs = [(n, c)] → c.saving = true → c.cur = none →
    Completes (.contextSaveDone n) s fun t =>
      (t.tctx n).st = (if c.hold ≠ Hold.none then csxHELD else csxRESIDENT) ∧ (t.tctx n).die = 3 ∧ (t.tctx
      n).lastDie = c.die ∧ (t.tctx n).saving = false ∧ (t.tctx n).saved = some s.free) ∧
  (∀ (s : State) (n : Nat), (s.tctx n).saving = false → Completes (.contextSaveDone n) s fun t =>
      t = s) ∧
  (∀ (s : State) (n : Nat), s.coreOff = false → (s.tctx n).restoring = true → Completes (.contextRestoreDone n []) s
    fun t =>
      (t.tctx n).st = csxRUNNING ∧ (t.tctx n).restoring = false ∧ (t.tctx n).placedAt = s.uptimeNs ∧
      (s.dvaTouched (s.tctx n).domain (s.tctx n).saveAddr (saveNeed (s.tctx n).cont) ((s.tctx n).saved.getD 0) = false →
        (t.tctx n).image = (s.tctx n).image ∧ (t.tctx n).bays = (s.tctx n).bays)) ∧
  (∀ (s : State) (n : Nat) (r : MemRead), (s.tctx n).restoring = false → Completes (.contextRestoreDone n r) s fun t
    =>
      t = s) ∧
  (∀ (s : State) (n m d : Nat) (c w : TCtx), s.coreOff = false → s.tfb.ctxs = [(n, c), (m, w)] → m ≠ n → c.st =
    csxRUNNING → c.classT = false → c.saving = false → c.restoring = false → c.die = d → d < 2 → w.waits = true →
    w.classT = false → w.options = [d] → Completes (.quantumExpire n) s fun t =>
      t.tctx n = { c with preempt := true, forT := false } ∧ t.tctx m = w) ∧
  (∀ (s : State) (n : Nat), (s.tctx n).st ≠ csxRUNNING ∨ (s.tctx n).classT = true ∨ ∀ p ∈ s.tfb.ctxs, p.1 = n ∨
    p.2.waits = false → Completes (.quantumExpire n) s fun t =>
      t = s) ∧
  (∀ (s : State) (n : Nat), s.coreOff = false → (s.tctx n).st = csxRUNNING → (s.tctx n).die < 2 → 720 ≤ s.fld
    Reg.PWR_VFLOOR_STATUS_CORE_MV → Completes (.groupOverrun n) s fun t =>
      t.fld Reg.TFB_STAT_VALUE_VALUE (5 + 8 * (s.tctx n).die) = min 0xFFFFFFFF (s.fld Reg.TFB_STAT_VALUE_VALUE (5 +
      8 * (s.tctx n).die) + 1) ∧ SameBut [.regs .tfb] s t) ∧
  (∀ (s : State) (n : Nat), (s.tctx n).st ≠ csxRUNNING ∨ s.fld Reg.PWR_VFLOOR_STATUS_CORE_MV < 720 → Completes
    (.groupOverrun n) s fun t =>
      t = s) ∧
  (∀ (s : State) (x : Nat) (q : QBlock) (rest : List QBlock), s.coreOff = false → s.ash.queues.getD x [] = q :: rest
    → ashRubble q.block = false → Completes (.expandBlock x .expand) s fun t =>
      t.ash.queues.getD x [] = rest ∧ t.ash.ready.getD q.who [] = s.ash.ready.getD q.who [] ++
        [⟨x, q.idx, bf16Bytes (ashExpand (s.table (expanderDie x) (ashTable q.block)).levels q.block), false, q.at_, q.hdr, q.block.length⟩] ∧
      t.fld Reg.ASH_STAT_VALUE_VALUE (8 * expanderDie x) = min 0xFFFFFFFF (s.fld Reg.ASH_STAT_VALUE_VALUE (8 * expanderDie x) + 1)) ∧
  (∀ (s : State) (x : Nat), s.ash.queues.getD x [] = [] → Completes (.expandBlock x .expand) s fun t =>
      t = s) ∧
  (∀ (s : State) (x idx : Nat) (k : OpKey) (o : Op) (b : Bytes), s.coreOff = false → s.op? k = some o → o.runs = true
    → dKind o.desc = kindXFER → dOp o.desc = 1 → x = 16 ∨ x = 17 → o.hold = .none → idx < 256 → o.seg * 256 + idx <
    xLength o.desc / ashBytes (xProfile o.desc) → ((s.ash.ready.getD (.xfer k) []).any fun e => e.idx == idx) = false
    → ((s.ash.queues.getD 16 [] ++ s.ash.queues.getD 17 []).any fun q => q.who == .xfer k && q.idx == idx) = false →
    xSrcSpace o.desc = 0 → s.blockCheck 0 (xProfile o.desc) (xTableId o.desc) b = none → Completes (.expandBlock x
    (.xfer k idx (.done (some b) false) [])) s fun t =>
      t.ash.queues.getD x [] = s.ash.queues.getD x [] ++ [⟨.xfer k, b, idx, xSrcAddr o.desc + (o.seg * 256 + idx) *
      ashBytes (xProfile o.desc), 0, 1024⟩] ∧ SameBut [.ash] s t) ∧
  (∀ (s : State) (x idx : Nat) (k : OpKey) (o : Op) (b : Bytes) (e : Nat), s.coreOff = false → s.op? k = some o →
    o.runs = true → dKind o.desc = kindXFER → dOp o.desc = 1 → x = 16 ∨ x = 17 → o.hold = .none → idx < 256 → o.seg *
    256 + idx < xLength o.desc / ashBytes (xProfile o.desc) → ((s.ash.ready.getD (.xfer k) []).any fun e => e.idx ==
    idx) = false → ((s.ash.queues.getD 16 [] ++ s.ash.queues.getD 17 []).any fun q => q.who == .xfer k && q.idx ==
    idx) = false → xSrcSpace o.desc = 0 → o.key = k → o.lost = false → k.slot ∈ (s.ring k.ring).taken → s.blockCheck 0
    (xProfile o.desc) (xTableId o.desc) b = some e → Completes (.expandBlock x (.xfer k idx (.done (some b) false)
    [])) s fun t =>
      t.endedWith k (checkStatus e) = true ∧ t.ash.ready.has (.xfer k) = false) ∧
  (∀ (s : State) (x n hdr idx : Nat) (r : MemRead), (s.tctx n).st ≠ csxRUNNING ∨ expanders ≤ x → Completes
    (.expandBlock x (.load n hdr idx r)) s fun t =>
      t = s) ∧
  (∀ (s : State) (x n hdr idx a why st : Nat) (c : TCtx) (r : Run) (q : MemRead), s.coreOff = false → s.tfb.ctxs =
    [(n, c)] → c.st = csxRUNNING → c.saving = false → c.restoring = false → c.die < 2 → c.die = expanderDie x → 8 ≤ x
    % 18 → c.cur = some r → c.queue = [] → c.unload = false → r.plan = none → r.rig = none → r.outer = none →
    s.rangeFault c.runDomain hdr 64 false = some (a, why) → s.faultEnds why = some st → st ≠ stOK → Completes
    (.expandBlock x (.load n hdr idx q)) s fun t =>
      (t.tctx n).st = csxRESIDENT ∧ (t.tctx n).cur = none ∧ t.fld Reg.TFB_STAT_VALUE_VALUE (1 + 8 * c.die) = min
      0xFFFFFFFF (s.fld Reg.TFB_STAT_VALUE_VALUE (1 + 8 * c.die) + 1))

/-- XFER_COPY, XFER_EXPAND, XFER_CHECK, SEGMENT_COMMIT and CODE_TABLE (R116, R139 to R142, R356, R370, R452, R453). -/
def Obligations.TransferRows : Prop :=
  (∀ (s : State) (op : OpKey) (o : Op), s.Ready op o → isXfer 0 o.desc = true → o.endWith = none → xLength o.desc = 0
    → Completes (.xferCopy op) s fun t =>
      t.endedWith op stZERO_LEN = true ∧ SameBut [.hif] s t) ∧
  (∀ (s : State) (op : OpKey) (o : Op) (st : Nat), s.Ready op o → isXfer 0 o.desc = true → o.endWith = none → xLength
    o.desc ≠ 0 → s.xferRefusal o true true = some st → Completes (.xferCopy op) s fun t =>
      t.endedWith op st = true ∧ SameBut [.hif] s t) ∧
  (∀ (s : State) (op : OpKey) (o : Op), s.Ready op o → isXfer 0 o.desc = true → o.endWith = none → xLength o.desc ≠ 0
    → s.xferRefusal o true true = none → xferOverlaps o.desc = true → Completes (.xferCopy op) s fun t =>
      t.endedWith op stBAD_FIELD = true ∧ SameBut [.hif] s t) ∧
  (∀ (s : State) (op : OpKey) (o : Op), s.Ready op o → isXfer 0 o.desc = true → o.endWith = none → xLength o.desc ≠ 0
    → s.xferRefusal o true true = none → xferOverlaps o.desc = false → Completes (.xferCopy op) s fun t =>
      t.op? op = some { o with phase := OpPhase.running } ∧ SameBut [.hif] s t) ∧
  (∀ (s : State) (op : OpKey) (o : Op), s.Ready op o → isXfer 1 o.desc = true → o.endWith = none → xLength o.desc = 0
    → Completes (.xferExpand op) s fun t =>
      t.endedWith op stZERO_LEN = true ∧ SameBut [.hif] s t) ∧
  (∀ (s : State) (op : OpKey) (o : Op) (st : Nat), s.Ready op o → isXfer 1 o.desc = true → o.endWith = none → xLength
    o.desc ≠ 0 → xProfile o.desc ≤ 2 ∧ xLength o.desc % ashBytes (xProfile o.desc) = 0 → s.xferRefusal o true true =
    some st → Completes (.xferExpand op) s fun t =>
      t.endedWith op st = true ∧ SameBut [.hif] s t) ∧
  (∀ (s : State) (op : OpKey) (o : Op), s.Ready op o → isXfer 1 o.desc = true → o.endWith = none → xLength o.desc ≠ 0
    → xProfile o.desc ≤ 2 ∧ xLength o.desc % ashBytes (xProfile o.desc) = 0 → s.xferRefusal o true true = none →
    xferOverlaps o.desc = true → Completes (.xferExpand op) s fun t =>
      t.endedWith op stBAD_FIELD = true ∧ SameBut [.hif] s t) ∧
  (∀ (s : State) (op : OpKey) (o : Op), s.Ready op o → isXfer 1 o.desc = true → o.endWith = none → xLength o.desc ≠ 0
    → xProfile o.desc ≤ 2 ∧ xLength o.desc % ashBytes (xProfile o.desc) = 0 → s.xferRefusal o true true = none →
    xferOverlaps o.desc = false → Completes (.xferExpand op) s fun t =>
      t.op? op = some { o with phase := OpPhase.running } ∧ SameBut [.hif] s t) ∧
  (∀ (s : State) (op : OpKey) (o : Op), s.Ready op o → isXfer 1 o.desc = true → o.endWith = none → xLength o.desc ≠ 0
    → 2 < xProfile o.desc ∨ xLength o.desc % ashBytes (xProfile o.desc) ≠ 0 → Completes (.xferExpand op) s fun t =>
      t.endedWith op stBAD_FIELD = true ∧ SameBut [.hif] s t) ∧
  (∀ (s : State) (op : OpKey) (o : Op) (st : Option Bytes), s.Ready op o → isXfer 4 o.desc = true → o.endWith = none
    → xLength o.desc ≠ 0 → 1 < kMode o.desc ∨ 3 < getLE o.desc 0x2C 1 ∨ allZero (sliceB o.desc 0x2D 3) = false →
    Completes (.xferCheck op st) s fun t =>
      t.endedWith op stBAD_FIELD = true ∧ SameBut [.hif] s t) ∧
  (∀ (s : State) (op : OpKey) (o : Op) (st : Option Bytes), s.Ready op o → isXfer 4 o.desc = true → o.endWith = none
    → xLength o.desc ≠ 0 → kMode o.desc ≤ 1 → getLE o.desc 0x2C 1 ≤ 3 → allZero (sliceB o.desc 0x2D 3) = true →
    s.xferRefusal o true true = none → xferOverlaps o.desc = false → kMode o.desc = 1 ∨ kStart o.desc = true →
    s.kmc.chain = [] → Completes (.xferCheck op st) s fun t =>
      t.kmc.chain = [(op, [])] ∧ t.underWay op = true ∧ SameBut [.hif, .kmc] s t) ∧
  (∀ (s : State) (op : OpKey) (o : Op), s.Ready op o → isXfer 4 o.desc = true → o.endWith = none → xLength o.desc ≠ 0
    → kMode o.desc ≤ 1 → getLE o.desc 0x2C 1 ≤ 3 → allZero (sliceB o.desc 0x2D 3) = true → s.xferRefusal o true true =
    none → xferOverlaps o.desc = false → kMode o.desc = 0 → kStart o.desc = false → Completes (.xferCheck op none) s
    fun t =>
      t.endedWith op stHOST_ABORT = true ∧ SameBut [.hif] s t) ∧
  (∀ (s : State) (op : OpKey) (o : Op) (dst : HostAccess) (r : MemRead), s.coreOff = false → o.lost = false → s.op?
    op = some o → o.key = op → op.slot ∈ (s.ring op.ring).taken → o.phase = OpPhase.running → o.hold = Hold.none →
    o.endWith = none → isXfer 0 o.desc = true → xSrcSpace o.desc = 0 → xDstSpace o.desc = 0 → Completes
    (.segmentCommit op (.done none false) dst r) s fun t =>
      t.endedWith op stHOST_ABORT = true ∧ t.out = s.out) ∧
  (∀ (s : State) (op : OpKey) (o : Op) (b : Bytes) (x : Option Bytes) (r : MemRead), s.coreOff = false → o.lost =
    false → s.op? op = some o → o.key = op → op.slot ∈ (s.ring op.ring).taken → o.phase = OpPhase.running → o.hold =
    Hold.none → o.endWith = none → isXfer 0 o.desc = true → xSrcSpace o.desc = 0 → xDstSpace o.desc = 0 → Completes
    (.segmentCommit op (.done (some b) false) (.done (some (x.getD [])) false) r) s fun t =>
      t.out = s.out ++ [Out.hostWrite o.fn (xDstAddr o.desc + o.seg * 65536)
        (b.take (min 65536 (xLength o.desc - o.seg * 65536)))] ∧
      (if xLength o.desc ≤ (o.seg + 1) * 65536 then t.endedWith op stOK = true
       else t.op? op = some { o with seg := o.seg + 1 })) ∧
  (∀ (s : State) (op : OpKey) (src dst : HostAccess) (r : MemRead), ∀ o ∈ (s.op? op).toList, o.phase ≠
    OpPhase.running ∨ dKind o.desc ≠ kindXFER ∨ o.hold ≠ Hold.none → Completes (.segmentCommit op src dst r) s fun t
    =>
      t = s) ∧
  (∀ (s : State) (op : OpKey) (o : Op) (b : Option Bytes) (e : Nat), s.Ready op o → isMgmt 0xd o.desc = true → o.fn =
    0 → s.codeTableRefusal o (b.getD []) = some e → e ≠ 2 → Completes (.codeTable op b) s fun t =>
      t.endedWith op stBAD_FIELD = true ∧ SameBut [.hif] s t) ∧
  (∀ (s : State) (op : OpKey) (o : Op) (b : Bytes), s.Ready op o → isMgmt 0xd o.desc = true → o.fn = 0 → bitAt
    (mParam0 o.desc) 10 = false → codeTableDies (mParam0 o.desc) = [1] → s.codeTableRefusal o b = none → Completes
    (.codeTable op (some b)) s fun t =>
      t.endedWith op stOK = true ∧ t.table 1 ((mParam0 o.desc) % 256) = ⟨1, bitsOf (mParam0 o.desc) 11 2,
        (List.range (tableLevels (bitsOf (mParam0 o.desc) 11 2))).map (fun i => getLE b (2 * i) 2), 0⟩ ∧
      (∀ d i, (d, i) ≠ (1, (mParam0 o.desc) % 256) → t.table d i = s.table d i)) ∧
  (∀ (s : State) (op : OpKey) (o : Op) (b : Option Bytes), s.Ready op o → isMgmt 0xd o.desc = true → o.fn = 0 → bitAt
    (mParam0 o.desc) 10 = true → codeTableDies (mParam0 o.desc) = [0] → bitsOf (mParam0 o.desc) 11 2 ≠ 3 → Completes
    (.codeTable op b) s fun t =>
      t.endedWith op stOK = true ∧ t.table 0 ((mParam0 o.desc) % 256) = (if (s.table 0 ((mParam0 o.desc) % 256)).st
      ≠ 1 then s.table 0 ((mParam0 o.desc) % 256) else if (s.table 0 ((mParam0 o.desc) % 256)).count = 0 then {}
      else { s.table 0 ((mParam0 o.desc) % 256) with st := 2 }))

/-- LINE_SEND, LINE_POST, SLF_TRANSMIT, LINE_DELIVER and SLF_RECEIVE (R404 to R424). -/
def Obligations.LineSendRows : Prop :=
  (∀ (s : State) (op : OpKey) (o : Op), s.Ready op o → isXfer 2 o.desc = true → o.endWith = none → xLength o.desc = 0
    → Completes (.lineSend op) s fun t =>
      t.endedWith op stZERO_LEN = true ∧ SameBut [.hif] s t) ∧
  (∀ (s : State) (op : OpKey) (o : Op), s.Ready op o → isXfer 2 o.desc = true → o.endWith = none → xLength o.desc ≠ 0
    → 15 < xLg o.desc ∨ xQueue o.desc = 0 ∨ 7 < xQueue o.desc ∨ (xQueue o.desc = 7 ∧ s.flag Reg.SLF_GRP_CFG_PKT_Q7
    (xLg o.desc) = true ∧ ¬(60 ≤ xLength o.desc ∧ xLength o.desc ≤ 9216)) → Completes (.lineSend op) s fun t =>
      t.endedWith op stBAD_FIELD = true ∧ SameBut [.hif] s t) ∧
  (∀ (s : State) (op : OpKey) (o : Op) (st : Nat), s.Ready op o → isXfer 2 o.desc = true → o.endWith = none → xLength
    o.desc ≠ 0 → xLg o.desc ≤ 15 → xQueue o.desc ≠ 0 → xQueue o.desc ≤ 7 → ¬(xQueue o.desc = 7 ∧ s.flag
    Reg.SLF_GRP_CFG_PKT_Q7 (xLg o.desc) = true ∧ ¬(60 ≤ xLength o.desc ∧ xLength o.desc ≤ 9216)) → s.xferRefusal o
    true false = some st → Completes (.lineSend op) s fun t =>
      t.endedWith op st = true ∧ SameBut [.hif] s t) ∧
  (∀ (s : State) (op : OpKey) (o : Op), s.Ready op o → isXfer 2 o.desc = true → o.endWith = none → xLength o.desc ≠ 0
    → xLg o.desc ≤ 15 → xQueue o.desc ≠ 0 → xQueue o.desc ≤ 7 → ¬(xQueue o.desc = 7 ∧ s.flag Reg.SLF_GRP_CFG_PKT_Q7
    (xLg o.desc) = true ∧ ¬(60 ≤ xLength o.desc ∧ xLength o.desc ≤ 9216)) → s.xferRefusal o true false = none →
    s.lineOn (xLg o.desc) = false → Completes (.lineSend op) s fun t =>
      t.endedWith op stLINE_DOWN = true ∧ SameBut [.hif] s t) ∧
  (∀ (s : State) (op : OpKey) (o : Op), s.Ready op o → isXfer 2 o.desc = true → o.endWith = none → xLength o.desc ≠ 0
    → xLg o.desc ≤ 15 → xQueue o.desc ≠ 0 → xQueue o.desc ≤ 7 → ¬(xQueue o.desc = 7 ∧ s.flag Reg.SLF_GRP_CFG_PKT_Q7
    (xLg o.desc) = true ∧ ¬(60 ≤ xLength o.desc ∧ xLength o.desc ≤ 9216)) → s.xferRefusal o true false = none →
    s.lineOn (xLg o.desc) = true → s.linePlanned (xLg o.desc) (xQueue o.desc) = false ∨ (s.lgrp (xLg
    o.desc)).releases.find? (fun r => r.1 == xQueue o.desc) = none → Completes (.lineSend op) s fun t =>
      (t.lgrp (xLg o.desc)).queues.getD (xQueue o.desc) [] = (s.lgrp (xLg o.desc)).queues.getD (xQueue o.desc) [] ++
        [⟨objHeader (xLength o.desc) (xTag o.desc) (xLineKind o.desc), xLength o.desc, .op op, 0,
          (s.lgrp (xLg o.desc)).seqs.getD (xQueue o.desc) 0, false, none, []⟩] ∧
      (t.lgrp (xLg o.desc)).seqs.getD (xQueue o.desc) 0 = ((s.lgrp (xLg o.desc)).seqs.getD (xQueue o.desc) 0 + 1) % 2 ^ 32 ∧
      t.op? op = some { o with phase := .running, hold := .other } ∧ SameBut [.hif, .line] s t) ∧
  (∀ (s : State) (op : OpKey) (o : Op), s.Ready op o → isXfer 3 o.desc = true → o.endWith = none → 15 < xLg o.desc ∨
    xQueue o.desc = 0 ∨ 7 < xQueue o.desc ∨ xLength o.desc < 64 ∨ (xQueue o.desc = 7 ∧ s.flag Reg.SLF_GRP_CFG_PKT_Q7
    (xLg o.desc) = true) → Completes (.linePost op) s fun t =>
      t.endedWith op stBAD_FIELD = true ∧ SameBut [.hif] s t) ∧
  (∀ (s : State) (op : OpKey) (o : Op), s.Ready op o → isXfer 3 o.desc = true → o.endWith = none → xLg o.desc ≤ 15 →
    xQueue o.desc ≠ 0 → xQueue o.desc ≤ 7 → 64 ≤ xLength o.desc → ¬(xQueue o.desc = 7 ∧ s.flag Reg.SLF_GRP_CFG_PKT_Q7
    (xLg o.desc) = true) → s.xferRefusal o false true = none → s.lineOn (xLg o.desc) = true → Completes (.linePost op)
    s fun t =>
      t.op? op = some { o with phase := .running, hold := .other } ∧ (t.lgrp (xLg o.desc)).posts.getD (xQueue
      o.desc) [] = (s.lgrp (xLg o.desc)).posts.getD (xQueue o.desc) [] ++ [op] ∧ SameBut [.hif, .line] s t) ∧
  (∀ (s : State) (op : OpKey) (o : Op) (st : Nat), s.Ready op o → isXfer 3 o.desc = true → o.endWith = none → xLg
    o.desc ≤ 15 → xQueue o.desc ≠ 0 → xQueue o.desc ≤ 7 → 64 ≤ xLength o.desc → ¬(xQueue o.desc = 7 ∧ s.flag
    Reg.SLF_GRP_CFG_PKT_Q7 (xLg o.desc) = true) → s.xferRefusal o false true = some st → Completes (.linePost op) s
    fun t =>
      t.endedWith op st = true ∧ SameBut [.hif] s t) ∧
  (∀ (s : State) (op : OpKey) (o : Op), s.Ready op o → isXfer 3 o.desc = true → o.endWith = none → xLg o.desc ≤ 15 →
    xQueue o.desc ≠ 0 → xQueue o.desc ≤ 7 → 64 ≤ xLength o.desc → ¬(xQueue o.desc = 7 ∧ s.flag Reg.SLF_GRP_CFG_PKT_Q7
    (xLg o.desc) = true) → s.xferRefusal o false true = none → s.lineOn (xLg o.desc) = false → Completes (.linePost
    op) s fun t =>
      t.endedWith op stLINE_DOWN = true ∧ SameBut [.hif] s t) ∧
  (∀ (s : State) (g q : Nat) (rest : List Nat) (d0 d1 : Option Byte) (a : HostAccess) (r : MemRead), s.coreOff =
    false → s.lineRuns g = true → (s.legsOf g).any (fun i => !(s.legServing g i).isEmpty) = true → (s.lgrp g).pos < 32
    → (s.lgrp g).isSuspended = false → (s.lgrp g).asks = [] → (s.lgrp g).keys = [] → s.lineEncrypts g = false →
    (s.link (lineLink g)).tx = none → (s.lgrp g).next - (s.lgrp g).acked < s.fld Reg.SLF_WIN_CFG_TX_UNITS g * 65536 →
    (s.setLgrp g (s.lgrp g)).lineOrder g = q :: rest → ((s.setLgrp g (s.lgrp g)).lineFrame g q a r).1.isSome = true →
    Completes (.slfTransmit g d0 d1 a r) s fun t =>
      (t.out.any fun x => match x with
        | .frame _ f => some (f.drop 46) == ((s.setLgrp g (s.lgrp g)).lineFrame g q a r).1
        | _ => false) = true ∧
      (t.lgrp g).next = (((s.setLgrp g (s.lgrp g)).lineFrame g q a r).2.lgrp g).next ∧ (t.lgrp g).pos = (s.lgrp g).pos + 1) ∧
  (∀ (s : State) (g : Nat) (d0 d1 : Option Byte) (a : HostAccess) (r : MemRead), s.coreOff = false → s.lineRuns g =
    true → (s.legsOf g).any (fun i => !(s.legServing g i).isEmpty) = true → (s.lgrp g).pos < 36 → 32 ≤ (s.lgrp g).pos
    ∨ (s.lgrp g).isSuspended = true → Completes (.slfTransmit g d0 d1 a r) s fun t =>
      (t.lgrp g).pos = ((s.lgrp g).pos + 1) % 36 ∧ (t.lgrp g).mfn = (if (s.lgrp g).pos = 35 then ((s.lgrp g).mfn +
      1) % 2 ^ 48 else (s.lgrp g).mfn) ∧ s.out.length < t.out.length) ∧
  (∀ (s : State) (g : Nat) (d0 d1 : Option Byte) (a : HostAccess) (r : MemRead), s.lineRuns g = false ∨ (s.legsOf
    g).all (fun i => (s.legServing g i).isEmpty) = true → Completes (.slfTransmit g d0 d1 a r) s fun t =>
      t = s) ∧
  (∀ (s : State) (g : Nat) (a : HostAccess) (f : RxFrame) (l : List Nat), s.coreOff = false → s.tpt.parked = [] →
    s.lineOn g = true → (s.lgrp g).nextRx 0 = some f → f.sof = true → f.eof = true → (0, f.seq) ∉ (s.lgrp g).gone →
    (s.settStore (reqLine g) f.data).1 = some l → Completes (.lineDeliver g 0 a) s fun t =>
      (t.lgrp g).rx = (s.lgrp g).rx.filter (fun r => r.fsn != f.fsn) ∧ Out.lineObj g (getBE f.data 24 1) (sliceB
      f.data 8 16) (f.data.drop 64) ∈ t.out) ∧
  (∀ (s : State) (g q : Nat) (k : OpKey) (rest : List OpKey) (o : Op) (x f : RxFrame) (l : List Nat), s.coreOff =
    false → s.tpt.parked = [] → s.lineOn g = true → 0 < q → q < 8 → s.linePkts g q = false → (s.lgrp g).nextRx q =
    some f → f.sof = true → f.eof = true → (q, f.seq) ∉ (s.lgrp g).gone → (s.settStore (reqLine g) f.data).1 = some l
    → (s.lgrp g).posts.getD q [] = k :: rest → s.op? k = some o → o.key = k → o.lost = false → k.slot ∈ (s.ring
    k.ring).taken → o.hold = .other → o.endWith = none → xDstSpace o.desc = 0 → f.data.length ≤ xLength o.desc →
    Completes (.lineDeliver g q (.done (some x.data) false)) s fun t =>
      (t.lgrp g).rx = (s.lgrp g).rx.filter (fun r => r.fsn != f.fsn) ∧ Out.hostWrite o.fn (xDstAddr o.desc) f.data ∈
      t.out ∧ t.endedWith k stOK = true) ∧
  (∀ (s : State) (g q : Nat) (a : HostAccess), s.lineOn g = false ∨ 8 ≤ q ∨ (s.lgrp g).nextRx q = none → Completes
    (.lineDeliver g q a) s fun t =>
      t = s) ∧
  (∀ (s : State) (lane g : Nat) (frame : Bytes), s.coreOff = false → s.laneGroup lane = some g → s.lineRuns g = true
    → s.laneServes lane = true → frame.length = 8270 → getBE frame 12 2 = 0x9A51 → getBE frame 14 1 / 16 = 1 → getBE
    frame 15 1 < 36 → Completes (.slfReceive lane frame) s fun t =>
      (t.lgrp g).mf.has (getBE frame 20 6) = true) ∧
  (∀ (s : State) (lane : Nat) (frame : Bytes), ∀ g ∈ (s.laneGroup lane).toList, s.lineRuns g = false ∨ s.laneServes
    lane = false ∨ frame.length ≠ 8270 ∨ getBE frame 12 2 ≠ 0x9A51 ∨ getBE frame 14 1 / 16 ≠ 1 ∨ 36 ≤ getBE frame 15 1
    → Completes (.slfReceive lane frame) s fun t =>
      t = s)

/-- LANE_FAULT, LANE_RETURN_TIMER, MF_SKEW_EXPIRE, NACK_RESEND_TIMER, LEG_LOF_TIMER, PM_SECOND, SUSPEND_HOLD_EXPIRE, WTR_EXPIRE and
DCC_FRAME_OUT (R403 to R430). -/
def Obligations.LineTimerRows : Prop :=
  (∀ (s : State) (lane g : Nat), s.coreOff = false → s.laneGroup lane = some g → Completes (.laneFault lane) s fun t
    =>
      t.line.faults = withElem s.line.faults lane ∧ t.laneServes lane = false) ∧
  (∀ (s : State) (lane : Nat), s.laneGroup lane = none → Completes (.laneFault lane) s fun t =>
      t = s) ∧
  (∀ (s : State) (lane g : Nat), s.coreOff = false → s.laneGroup lane = some g → Completes (.laneReturnTimer lane) s
    fun t =>
      t.line.faults = without s.line.faults lane) ∧
  (∀ (s : State) (lane : Nat), s.laneGroup lane = none → Completes (.laneReturnTimer lane) s fun t =>
      t = s) ∧
  (∀ (s : State) (g mfn : Nat) (m : RxMf), s.coreOff = false → (s.lgrp g).mf.find mfn = some m → m.expired = false →
    Completes (.mfSkewExpire g mfn) s fun t =>
      (t.lgrp g).mf.find mfn = some { m with
        expired := true, bodies := m.bodies.map fun p => (p.1, []) } ∧
      (t.lgrp g).bound = max (s.lgrp g).bound m.next ∧ (t.lgrp g).legA.erased = (s.lgrp g).legA.erased + (36 - m.seenA.length) ∧
      (s.lineProtected g = true → (t.lgrp g).legB.erased = (s.lgrp g).legB.erased + (36 - m.seenB.length)) ∧
      (t.lgrp g).dlv = (s.lgrp g).dlv ∧ (t.lgrp g).rx = (s.lgrp g).rx ∧ (t.lgrp g).done = (s.lgrp g).done) ∧
  (∀ (s : State) (g mfn : Nat) (m : RxMf), (s.lgrp g).mf.find mfn = some m → m.expired = true → Completes
    (.mfSkewExpire g mfn) s fun t =>
      t = s) ∧
  (∀ (s : State) (g mfn : Nat), (s.lgrp g).mf.find mfn = none → Completes (.mfSkewExpire g mfn) s fun t =>
      t = s) ∧
  (∀ (s : State) (g first : Nat), s.coreOff = false → Completes (.nackResendTimer g first) s fun t =>
      (t.lgrp g) = { (s.lgrp g) with nacked := (s.lgrp g).nacked.filter fun r => r.1 != first } ∧ (∀ h, h ≠ g →
      t.lgrp h = s.lgrp h) ∧ SameBut [.line] s t) ∧
  (∀ (s : State) (g leg : Nat), s.coreOff = false → s.lineRuns g = true → leg ∈ s.legsOf g → Completes (.legLofTimer
    g leg) s fun t =>
      ((t.lgrp g).leg leg).lof = true ∧ ((t.lgrp g).leg leg).last = none ∧ ((t.lgrp g).leg leg).sf = true) ∧
  (∀ (s : State) (g leg : Nat), s.lineRuns g = false ∨ leg ∉ s.legsOf g → Completes (.legLofTimer g leg) s fun t =>
      t = s) ∧
  (∀ (s : State) (g leg corrected received : Nat), s.coreOff = false → s.lineOn g = true → leg ∈ s.legsOf g →
    Completes (.pmSecond g leg corrected received) s fun t =>
      ((t.lgrp g).leg leg).ebs = 0 ∧ ((t.lgrp g).leg leg).erased = 0 ∧ ((t.lgrp g).leg leg).quarter = s.time.sec /
      900 ∧ ((t.lgrp g).leg leg).day = s.time.sec / 86400) ∧
  (∀ (s : State) (g leg corrected received : Nat), s.coreOff = false → s.lineOn g = true → leg ∈ s.legsOf g →
    ((s.lgrp g).leg leg).sfSeen = true → ((s.lgrp g).leg leg).unavail = false → ((s.lgrp g).leg leg).open_ = [] →
    Completes (.pmSecond g leg corrected received) s fun t =>
      ((t.lgrp g).leg leg).open_ = [⟨s.time.sec - 1, ((s.lgrp g).leg leg).ebs, true, true⟩] ∧ ((t.lgrp g).leg
      leg).unavail = false) ∧
  (∀ (s : State) (g leg corrected received : Nat), s.lineOn g = false ∨ leg ∉ s.legsOf g → Completes (.pmSecond g leg
    corrected received) s fun t =>
      t = s) ∧
  (∀ (s : State) (g : Nat), s.coreOff = false → (s.lgrp g).isSuspended = true → (s.lgrp g).letGo = false → Completes
    (.suspendHoldExpire g) s fun t =>
      (t.lgrp g).held = [] ∧ (t.lgrp g).letGo = true ∧ (t.lgrp g).next = (s.lgrp g).next ∧
      (t.lgrp g).released = (s.lgrp g).released ++ (s.lgrp g).held.map (fun f => (f.fsn, bQueue f.body, bSeq f.body)) ∧
      ((s.lgrp g).held.all (fun f => f.op.isNone) = true → s.Records t Ev.LINE_WINDOW_RELEASED g (min (s.lgrp g).held.length (2 ^ 32 - 1)))) ∧
  (∀ (s : State) (g : Nat), (s.lgrp g).isSuspended = false ∨ (s.lgrp g).letGo = true → Completes (.suspendHoldExpire
    g) s fun t =>
      t = s) ∧
  (∀ (s : State) (g leg : Nat), s.coreOff = false → ((s.lgrp g).leg leg).wtr = true → ((s.lgrp g).leg leg).sf = false
    → ((s.lgrp g).leg leg).sd = false → Completes (.wtrExpire g leg) s fun t =>
      ((t.lgrp g).leg leg).wtr = false) ∧
  (∀ (s : State) (g leg : Nat), ((s.lgrp g).leg leg).wtr = false ∨ ((s.lgrp g).leg leg).sf = true ∨ ((s.lgrp g).leg
    leg).sd = true → Completes (.wtrExpire g leg) s fun t =>
      t = s) ∧
  (∀ (s : State) (port g : Nat) (p : DccPort) (f : Bytes) (rest : List Bytes), s.coreOff = false → port < 2 → g =
    s.fld (if port = 0 then Reg.SLF_DCC_CFG_PORT0_LG else Reg.SLF_DCC_CFG_PORT1_LG) → s.dccRuns port g = true →
    s.line.dcc.find port = some p → p.running = true → p.buf = f :: rest → Completes (.dccFrameOut port) s fun t =>
      t.out = s.out ++ [.dcc port f] ∧ t.line.dcc.find port = some { p with buf := rest, last := f } ∧ SameBut
      [.regs .slf, .line, .out] s t) ∧
  (∀ (s : State) (port g : Nat) (p : DccPort), s.coreOff = false → port < 2 → g = s.fld (if port = 0 then
    Reg.SLF_DCC_CFG_PORT0_LG else Reg.SLF_DCC_CFG_PORT1_LG) → s.dccRuns port g = true → s.line.dcc.find port = some p
    → p.running = true → p.buf = [] → Completes (.dccFrameOut port) s fun t =>
      t.out = s.out ++ [.dcc port p.last] ∧ t.fld (Reg.SLF_DCC_STATUS_SLIP_REPEAT.nth port) = min (2 ^
      Reg.SLF_DCC_STATUS_SLIP_REPEAT.width - 1) (s.fld (Reg.SLF_DCC_STATUS_SLIP_REPEAT.nth port) + 1)) ∧
  (∀ (s : State) (port g : Nat) (p : DccPort), s.coreOff = false → port < 2 → g = s.fld (if port = 0 then
    Reg.SLF_DCC_CFG_PORT0_LG else Reg.SLF_DCC_CFG_PORT1_LG) → s.dccRuns port g = true → s.line.dcc.find port = some p
    → p.running = false → Completes (.dccFrameOut port) s fun t =>
      t = s) ∧
  (∀ (s : State) (port g : Nat), s.coreOff = false → port < 2 → g = s.fld (if port = 0 then Reg.SLF_DCC_CFG_PORT0_LG
    else Reg.SLF_DCC_CFG_PORT1_LG) → s.dccRuns port g = false → Completes (.dccFrameOut port) s fun t =>
      t.line.dcc.find port = some { s.line.dcc.getD port {} with buf := [], got := none, running := false } ∧ t.flag
      (Reg.SLF_DCC_STATUS_ACTIVE.nth port) 0 = false ∧ SameBut [.regs .slf, .line] s t) ∧
  (∀ (s : State) (port : Nat), 2 ≤ port → Completes (.dccFrameOut port) s fun t =>
      t = s)

/-- KEX_OFFER, KEX_ACCEPT, KEX_CONFIRM, KEX_REJECT, KEX_RESEND, KEX_RETRY, REKEY_TIMER, FAB_GRACE_EXPIRE and KEY_GRACE_EXPIRE (R420,
R442 to R446). Whether a message passes its check rests on an open function, so each clause says both. -/
def Obligations.KeyRows : Prop :=
  (∀ (s : State) (l : Nat) (m : Bytes), s.coreOff = false → l < 592 → s.encrypts l = true → kType m = 1 → (s.link
    l).kex = none → (s.link l).prev = none → (s.link l).first = true ∨ kEpoch m = (s.link l).epoch + 1 → Completes
    (.kexOffer l m) s fun t =>
      (kGood m = true → (t.link l).rx.map Assoc.an = some (kEpoch m % 4) ∧ (t.link l).prev = (s.link l).rx ∧ (t.link
      l).rxUsed = false ∧ (t.link l).txNext.map Assoc.an = some (kEpoch m % 4) ∧ (t.link l).tx = (s.link l).tx ∧
      (t.link l).kex.map (fun k => (k.initiator, k.epoch)) = some (false, kEpoch m) ∧ (isLineLink l = false → t.out
      = s.out ++ ((t.link l).kex.map fun k => Out.kex l k.msg).toList)) ∧ (kGood m = false → t = s.lscCount l 3)) ∧
  (∀ (s : State) (l : Nat) (m : Bytes), s.coreOff = false → l < 592 → s.encrypts l = true → kType m = 1 → (s.link
    l).kex = none → (s.link l).prev.isSome = true → Completes (.kexOffer l m) s fun t =>
      (isLineLink l = false → kGood m = true → t = s.emit (.kex l (kexMsg s.ownGen 4 1 (s.link l).epoch l (kNonceI
      m) []))) ∧ (kGood m = false → t = s.lscCount l 3)) ∧
  (∀ (s : State) (l : Nat) (m : Bytes), s.coreOff = false → l < 592 → s.encrypts l = true → kType m = 1 → (s.link
    l).kex = none → (s.link l).prev = none → (s.link l).first = false → kEpoch m ≠ (s.link l).epoch + 1 → Completes
    (.kexOffer l m) s fun t =>
      (isLineLink l = false → kGood m = true → t = s.emit (.kex l (kexMsg s.ownGen 4 2 (s.link l).epoch l (kNonceI
      m) []))) ∧ (kGood m = false → t = s.lscCount l 3)) ∧
  (∀ (s : State) (l : Nat) (m : Bytes) (k : Kex), s.coreOff = false → l < 592 → s.encrypts l = true → kType m = 1 →
    (s.link l).kex = some k → k.initiator = false → k.epoch = kEpoch m → k.nonceI = kNonceI m → Completes (.kexOffer l
    m) s fun t =>
      (isLineLink l = false → kGood m = true → t = s.emit (.kex l k.msg)) ∧ (kGood m = false → t = s.lscCount l 3)) ∧
  (∀ (s : State) (l : Nat) (m : Bytes), 592 ≤ l ∨ s.encrypts l = false → Completes (.kexOffer l m) s fun t =>
      t = s) ∧
  (∀ (s : State) (l : Nat) (m : Bytes), 592 ≤ l ∨ s.encrypts l = false → Completes (.kexAccept l m) s fun t =>
      t = s) ∧
  (∀ (s : State) (l : Nat) (m : Bytes), 592 ≤ l ∨ s.encrypts l = false → Completes (.kexConfirm l m) s fun t =>
      t = s) ∧
  (∀ (s : State) (l : Nat) (m : Bytes), 592 ≤ l ∨ s.encrypts l = false → Completes (.kexReject l m) s fun t =>
      t = s) ∧
  (∀ (s : State) (l : Nat) (m : Bytes) (k : Kex), s.coreOff = false → l < 592 → s.encrypts l = true → kType m = 2 →
    (s.link l).kex = some k → k.initiator = false ∨ k.epoch ≠ kEpoch m ∨ k.nonceI ≠ kNonceI m → Completes (.kexAccept
    l m) s fun t =>
      (kGood m = true → t = s) ∧ (kGood m = false → t = s.lscCount l 3)) ∧
  (∀ (s : State) (l : Nat) (m : Bytes), s.coreOff = false → l < 592 → s.encrypts l = true → kType m = 2 → (s.link
    l).kex = none → (s.link l).lastConfirm = [] → Completes (.kexAccept l m) s fun t =>
      (kGood m = true → t = s) ∧ (kGood m = false → t = s.lscCount l 3)) ∧
  (∀ (s : State) (l : Nat) (m : Bytes), s.coreOff = false → l < 592 → s.encrypts l = true → kType m = 3 → (s.link
    l).kex = none → Completes (.kexConfirm l m) s fun t =>
      (kGood m = true → t = s) ∧ (kGood m = false → t = s.lscCount l 3)) ∧
  (∀ (s : State) (l : Nat) (m : Bytes), s.coreOff = false → l < 592 → s.encrypts l = true → kType m = 4 → (s.link
    l).kex = none → Completes (.kexReject l m) s fun t =>
      (kGood m = true → t = s) ∧ (kGood m = false → t = s.lscCount l 3)) ∧
  (∀ (s : State) (l : Nat) (m : Bytes) (k : Kex), s.coreOff = false → l < 592 → s.encrypts l = true → kType m = 2 →
    (s.link l).kex = some k → k.initiator = true → k.epoch = kEpoch m → k.nonceI = kNonceI m → Completes (.kexAccept l
    m) s fun t =>
      (kGood m = true → (t.link l).tx.map Assoc.an = some (k.epoch % 4) ∧ (t.link l).rx.map Assoc.an = some (k.epoch
      % 4) ∧ (t.link l).prev = (s.link l).rx ∧ (t.link l).epoch = k.epoch ∧ (t.link l).kex = none ∧ (isLineLink l =
      false → t.out = s.out ++ [.kex l (t.link l).lastConfirm]) ∧ t.fld Reg.LSC_STAT_VALUE_VALUE (l + 5 * 1024) =
      min 0xFFFFFFFF (s.fld Reg.LSC_STAT_VALUE_VALUE (l + 5 * 1024) + 1)) ∧ (kGood m = false → t = s.lscCount l 3)) ∧
  (∀ (s : State) (l : Nat) (m : Bytes) (k : Kex) (a : Assoc), s.coreOff = false → l < 592 → s.encrypts l = true →
    kType m = 3 → (s.link l).kex = some k → k.initiator = false → k.epoch = kEpoch m → k.nonceI = kNonceI m → k.nonceR
    = kNonceR m → (s.link l).txNext = some a → Completes (.kexConfirm l m) s fun t =>
      (kGood m = true → (t.link l).tx = some a ∧ (t.link l).txNext = none ∧ (t.link l).kex = none ∧ (t.link l).epoch
      = k.epoch ∧ (t.link l).rx = (s.link l).rx) ∧ (kGood m = false → t = s.lscCount l 3)) ∧
  (∀ (s : State) (l : Nat) (m : Bytes) (k : Kex), s.coreOff = false → l < 592 → s.encrypts l = true → kType m = 4 →
    (s.link l).kex = some k → k.initiator = true → k.nonceI = kNonceI m → Completes (.kexReject l m) s fun t =>
      (kGood m = true → kReason m ≠ 2 → t = s.setLink l { (s.link l) with kex := some { k with sends := 0 } }) ∧
      (kGood m = true → kReason m = 2 → s.linkSuspended l = false → (t.link l).kex.map (fun k => (k.initiator,
      k.epoch)) = some (true, max (s.link l).epoch (kEpoch m) + 1)) ∧ (kGood m = false → t = s.lscCount l 3)) ∧
  (∀ (s : State) (l : Nat) (k : Kex), s.coreOff = false → (s.link l).kex = some k → k.sends < 8 → Completes
    (.kexResend l) s fun t =>
      (t.link l) = { (s.link l) with kex := some { k with sends := k.sends + 1 } } ∧ (isLineLink l = false → t.out =
      s.out ++ [.kex l k.msg])) ∧
  (∀ (s : State) (l : Nat) (k : Kex), s.coreOff = false → (s.link l).kex = some k → 8 ≤ k.sends → Completes
    (.kexResend l) s fun t =>
      (t.link l) = { (s.link l) with kex := none, txNext := none, failed := true } ∧ t.fld Reg.LSC_STAT_VALUE_VALUE
      (l + 4 * 1024) = min 0xFFFFFFFF (s.fld Reg.LSC_STAT_VALUE_VALUE (l + 4 * 1024) + 1) ∧ t.fld
      Reg.LSC_LINK_STATUS_STATE l = 4 ∧ s.Records t Ev.LINK_KEX_FAIL l k.epoch) ∧
  (∀ (s : State) (l : Nat), (s.link l).kex = none → Completes (.kexResend l) s fun t =>
      t = s) ∧
  (∀ (s : State) (l : Nat), s.coreOff = false → (s.link l).failed = true → s.encrypts l = true → (s.link l).kex =
    none → s.linkSuspended l = false → Completes (.kexRetry l) s fun t =>
      (t.link l).kex.map (fun k => (k.initiator, k.epoch)) = some (true, (s.link l).epoch + 1) ∧ (t.link l).failed =
      false) ∧
  (∀ (s : State) (l : Nat), s.coreOff = false → (s.link l).failed = true → s.encrypts l = true → (s.link l).kex =
    none → s.linkSuspended l = true → Completes (.kexRetry l) s fun t =>
      t = s.setLink l { (s.link l) with due := true }) ∧
  (∀ (s : State) (l : Nat), (s.link l).failed = false ∨ s.encrypts l = false ∨ (s.link l).kex.isSome = true →
    Completes (.kexRetry l) s fun t =>
      t = s) ∧
  (∀ (s : State) (l : Nat), s.coreOff = false → (s.link l).tx.isSome = true → (s.link l).rekey ≠ 0 → s.encrypts l =
    true → (s.link l).kex = none → s.linkSuspended l = false → Completes (.rekeyTimer l) s fun t =>
      (t.link l).kex.map (fun k => (k.initiator, k.epoch)) = some (true, (s.link l).epoch + 1) ∧ (t.link l).tx =
      (s.link l).tx) ∧
  (∀ (s : State) (l : Nat), (s.link l).tx = none ∨ (s.link l).rekey = 0 ∨ s.encrypts l = false ∨ (s.link
    l).kex.isSome = true → Completes (.rekeyTimer l) s fun t =>
      t = s) ∧
  (∀ (s : State) (l : Nat) (a : Assoc), s.coreOff = false → isLineLink l = false → (s.link l).rxUsed = true → (s.link
    l).prev = some a → Completes (.fabGraceExpire l) s fun t =>
      (t.link l) = { (s.link l) with prev := none, retired := withElem (s.link l).retired a.an } ∧ t.flag
      Reg.LSC_LINK_STATUS_PREV l = false) ∧
  (∀ (s : State) (l : Nat), isLineLink l = true ∨ (s.link l).rxUsed = false ∨ (s.link l).prev = none → Completes
    (.fabGraceExpire l) s fun t =>
      t = s) ∧
  (∀ (s : State) (g : Nat) (a : Assoc), s.coreOff = false → (s.link (lineLink g)).rxUsed = true → (s.lgrp
    g).isSuspended = false → (s.link (lineLink g)).prev = some a → Completes (.keyGraceExpire g) s fun t =>
      (t.link (lineLink g)).prev = none ∧ (t.link (lineLink g)).retired = withElem (s.link (lineLink g)).retired
      a.an ∧ (t.link (lineLink g)).rx = (s.link (lineLink g)).rx) ∧
  (∀ (s : State) (g : Nat), (s.link (lineLink g)).rxUsed = false ∨ (s.lgrp g).isSuspended = true ∨ (s.link (lineLink
    g)).prev = none → Completes (.keyGraceExpire g) s fun t =>
      t = s)

/-- OUTER_OPEN, OUTER_EXCLUDE, OUTER_FETCH, OUTER_ABANDON and ROUND_START (R380 to R382, R395 to R399). -/
def Obligations.OuterCommandRows : Prop :=
  (∀ (s : State) (op : OpKey) (o : Op) (st : Nat), s.Ready op o → dKind o.desc = kindOUTER → dOp o.desc = 0 →
    s.openRefusal o.desc = some st → Completes (.outerOpen op) s fun t =>
      t.endedWith op st = true ∧ SameBut [.hif] s t) ∧
  (∀ (s : State) (op : OpKey) (o : Op), s.Ready op o → dKind o.desc = kindOUTER → dOp o.desc = 0 → s.openRefusal
    o.desc = none → getLE o.desc 0x30 8 ≠ 0 → s.reached (uStart o.desc) = false → Completes (.outerOpen op) s fun t =>
      (t.shard (uShard o.desc)) =
      { (s.shard (uShard o.desc)) with openOp := some op, fn := o.fn, desc := o.desc, waiting := true } ∧ t.underWay
      op = true ∧ SameBut [.hif, .outer] s t) ∧
  (∀ (s : State) (op : OpKey) (o : Op), s.Ready op o → dKind o.desc = kindOUTER → dOp o.desc = 0 → s.openRefusal
    o.desc = none → getLE o.desc 0x30 8 = 0 ∨ s.reached (uStart o.desc) = true → s.quorum [(siteLocal s.sitesRec)] =
    false → Completes (.outerOpen op) s fun t =>
      (t.shard (uShard o.desc)).st = osOPENING ∧ (t.shard (uShard o.desc)).round = uRound o.desc ∧ (t.shard (uShard
      o.desc)).openOp = some op ∧ (t.shard (uShard o.desc)).waiting = false ∧ (t.shard (uShard o.desc)).incomplete =
      none ∧ (t.shard (uShard o.desc)).desc = o.desc ∧ t.underWay op = true) ∧
  (∀ (s : State) (k : Nat) (r : Bytes), s.coreOff = false → s.shardRec k = some r → (s.shard k).waiting = true →
    s.reached (uStart (s.shard k).desc) = true → s.quorum [(siteLocal s.sitesRec)] = false → Completes (.roundStart k)
    s fun t =>
      (t.shard k).st = osOPENING ∧ (t.shard k).round = uRound (s.shard k).desc ∧ (t.shard k).waiting = false ∧
      (t.shard k).openOp = (s.shard k).openOp) ∧
  (∀ (s : State) (k : Nat), (s.shard k).waiting = false ∨ s.reached (uStart (s.shard k).desc) = false → Completes
    (.roundStart k) s fun t =>
      t = s) ∧
  (∀ (s : State) (op : OpKey) (o : Op), s.Ready op o → dKind o.desc = kindOUTER → dOp o.desc = 1 → (s.shard (uShard
    o.desc)).st ≠ osMISMATCH ∨ uSite o.desc ∉ s.compared (s.shard (uShard o.desc)) ∨ (s.shard (uShard
    o.desc)).finalDiffers (uSite o.desc) = false → Completes (.outerExclude op) s fun t =>
      t.endedWith op stBAD_FIELD = true ∧ SameBut [.hif] s t) ∧
  (∀ (s : State) (op : OpKey) (o : Op) (r : Bytes), s.Ready op o → dKind o.desc = kindOUTER → dOp o.desc = 1 →
    s.shardRec (uShard o.desc) = some r → (s.shard (uShard o.desc)).st = osMISMATCH → (s.shard (uShard
    o.desc)).finalDiffers (uSite o.desc) = true → s.compared (s.shard (uShard o.desc)) = [uSite o.desc] → uNoCast
    (s.shard (uShard o.desc)).desc = true → (s.shard (uShard o.desc)).fetchOp = none → (s.shard (uShard
    o.desc)).openOp = none → Completes (.outerExclude op) s fun t =>
      t.endedWith op stOK = true ∧ (t.shard (uShard o.desc)).st = osIDLE ∧ (t.shard (uShard o.desc)).past.head? =
      some (s.shard (uShard o.desc)).present ∧ ((t.shard (uShard o.desc)).site (uSite o.desc)).excluded = true) ∧
  (∀ (s : State) (op : OpKey) (o : Op), s.Ready op o → dKind o.desc = kindOUTER → dOp o.desc = 1 → (s.shard (uShard
    o.desc)).st = osMISMATCH → uSite o.desc ∈ s.compared (s.shard (uShard o.desc)) → (s.shard (uShard
    o.desc)).finalDiffers (uSite o.desc) = true → (s.compared (s.shard (uShard o.desc))).any (fun i => i != uSite
    o.desc && (s.shard (uShard o.desc)).finalDiffers i) = true → Completes (.outerExclude op) s fun t =>
      t.endedWith op stOK = true ∧ SameBut [.hif, .outer] s t ∧
      (t.shard (uShard o.desc)) = { (s.shard (uShard o.desc)) with
        sites := (s.shard (uShard o.desc)).sites.put (uSite o.desc) { (s.shard (uShard o.desc)).site (uSite o.desc) with excluded := true } }) ∧
  (∀ (s : State) (op : OpKey) (o : Op), s.Ready op o → dKind o.desc = kindOUTER → dOp o.desc = 2 → s.shardRec (uShard
    o.desc) = none → Completes (.outerFetch op) s fun t =>
      t.endedWith op stOUT_BAD_SHARD = true ∧ SameBut [.hif] s t) ∧
  (∀ (s : State) (op : OpKey) (o : Op) (r : Bytes), s.Ready op o → dKind o.desc = kindOUTER → dOp o.desc = 2 →
    s.shardRec (uShard o.desc) = some r → (s.shard (uShard o.desc)).st ≠ osIDLE ∨ (s.shard (uShard o.desc)).waiting =
    true ∨ (s.shard (uShard o.desc)).fetchOp.isSome = true → Completes (.outerFetch op) s fun t =>
      t.endedWith op stOUT_BUSY = true ∧ SameBut [.hif] s t) ∧
  (∀ (s : State) (op : OpKey) (o : Op) (r : Bytes), s.Ready op o → dKind o.desc = kindOUTER → dOp o.desc = 2 →
    s.shardRec (uShard o.desc) = some r → (s.shard (uShard o.desc)).st = osIDLE → (s.shard (uShard o.desc)).waiting =
    false → (s.shard (uShard o.desc)).fetchOp = none → (s.shard (uShard o.desc)).unsent = false → (s.shard (uShard
    o.desc)).toCast = [] → ∀ p ∈ List.range (hPieces r), ∀ i ∈ s.allSites, s.lastOf
    { (s.shard (uShard o.desc)) with round := 2 ^ 32 } p i ≤ ((s.shard (uShard o.desc)).piece p).round → Completes
    (.outerFetch op) s fun t =>
      t.endedWith op stOK = true ∧ (t.shard (uShard o.desc)).st = osIDLE ∧ (t.shard (uShard o.desc)).fetchOp = none) ∧
  (∀ (s : State) (op : OpKey) (o : Op) (r : Bytes) (a : Nat) (rest : List Nat), s.Ready op o → dKind o.desc =
    kindOUTER → dOp o.desc = 2 → s.shardRec (uShard o.desc) = some r → hPieces r = 1 → (s.shard (uShard o.desc)).st =
    osIDLE → (s.shard (uShard o.desc)).waiting = false → (s.shard (uShard o.desc)).fetchOp = none → (s.shard (uShard
    o.desc)).unsent = false → (s.shard (uShard o.desc)).toCast = [] → ((s.shard (uShard o.desc)).piece 0).st = psREST
    → ((s.shard (uShard o.desc)).piece 0).spare = none → (s.shard (uShard o.desc)).spares = a :: rest → ((s.shard
    (uShard o.desc)).piece 0).round < (maxOf (s.allSites.map fun i => s.lastOf
    { (s.shard (uShard o.desc)) with round := 2 ^ 32 } 0 i)) → Completes (.outerFetch op) s fun t =>
      ((t.shard (uShard o.desc)).piece 0).st = psFETCHING ∧ ((t.shard (uShard o.desc)).piece 0).spare = some a ∧
      ((t.shard (uShard o.desc)).piece 0).fetch = some ⟨(maxOf (s.allSites.map fun i => s.lastOf { (s.shard (uShard o.desc)) with round := 2 ^ 32 } 0 i)), none, s.holdersOf (s.shard (uShard o.desc)) 0 (maxOf (s.allSites.map fun i => s.lastOf { (s.shard (uShard o.desc)) with round := 2 ^ 32 } 0 i)), psREST, false⟩ ∧
      (t.shard (uShard o.desc)).fetchOp = some op ∧ t.underWay op = true) ∧
  (∀ (s : State) (op : OpKey) (o : Op), s.Ready op o → dKind o.desc = kindOUTER → dOp o.desc = 3 → (s.shard (uShard
    o.desc)).waiting = true → (s.shard (uShard o.desc)).openOp = none → Completes (.outerAbandon op) s fun t =>
      t.endedWith op stOK = true ∧ (t.shard (uShard o.desc)) = { (s.shard (uShard o.desc)) with waiting := false }) ∧
  (∀ (s : State) (op : OpKey) (o : Op), s.Ready op o → dKind o.desc = kindOUTER → dOp o.desc = 3 → (s.shard (uShard
    o.desc)).waiting = false → (s.shard (uShard o.desc)).st = osMISMATCH → (s.shard (uShard o.desc)).openOp = none →
    Completes (.outerAbandon op) s fun t =>
      t.endedWith op stOK = true ∧ (t.shard (uShard o.desc)).st = osIDLE ∧ (t.shard (uShard o.desc)).rc = (s.shard
      (uShard o.desc)).round ∧ (t.shard (uShard o.desc)).past.head? = some (s.shard (uShard o.desc)).present ∧
      (t.shard (uShard o.desc)).unsent = true) ∧
  (∀ (s : State) (op : OpKey) (o : Op), s.Ready op o → dKind o.desc = kindOUTER → dOp o.desc = 3 → (s.shard (uShard
    o.desc)).waiting = false → (s.shard (uShard o.desc)).st = osHALTED ∨ ((s.shard (uShard o.desc)).st ≠ osIDLE ∧
    (s.shard (uShard o.desc)).st ≠ osMISMATCH ∧ (s.shard (uShard o.desc)).sentTop = 0) → (s.shard (uShard
    o.desc)).openOp = none → Completes (.outerAbandon op) s fun t =>
      t.endedWith op stOK = true ∧ (t.shard (uShard o.desc)).st = osIDLE ∧ (t.shard (uShard o.desc)).incomplete =
      some (s.shard (uShard o.desc)).round ∧ (t.shard (uShard o.desc)).rc = (s.shard (uShard o.desc)).rc) ∧
  (∀ (s : State) (op : OpKey) (o : Op), s.Ready op o → dKind o.desc = kindOUTER → dOp o.desc = 3 → (s.shard (uShard
    o.desc)).waiting = false → (s.shard (uShard o.desc)).st = osIDLE ∨ ((s.shard (uShard o.desc)).st ≠ osMISMATCH ∧
    (s.shard (uShard o.desc)).st ≠ osHALTED ∧ (s.shard (uShard o.desc)).sentTop ≠ 0) → Completes (.outerAbandon op) s
    fun t =>
      t.endedWith op stBAD_FIELD = true ∧ SameBut [.hif] s t)

/-- OUTER_HDR, OUTER_PROPOSE, OUTER_VOTE, OUTER_DIGEST, OUTER_FINAL, OUTER_FETCH_MSG, HDR_TIMER, SITE_UNREACHABLE, LOSS_TIMER and
ROSTER_WAIT_EXPIRE (R383 to R396). -/
def Obligations.OuterMessageRows : Prop :=
  (∀ (s : State) (m : Bytes) (k : Nat), s.coreOff = false → mType m = 1 → mSite m ≠ (siteLocal s.sitesRec) → mSite m
    < siteCount s.sitesRec → siteTopology s.sitesRec = 0 → s.slotsOf (mShard m) = [k] → (s.shard k).st = osIDLE →
    (s.shard k).past.find? (fun a => a.round == mRound m) = none → Completes (.outerHdr m) s fun t =>
      ((t.shard k).site (mSite m)).rc = max ((s.shard k).site (mSite m)).rc (getBE (m.drop 16) 64 4) ∧ ((t.shard
      k).site (mSite m)).fronts.find (mRound m) = some (getBE (m.drop 16) 68 4) ∧ SameBut [.outer] s t) ∧
  (∀ (s : State) (m : Bytes) (k : Nat) (r : Bytes) (a : OutPast), s.coreOff = false → mType m = 1 → mSite m ≠
    (siteLocal s.sitesRec) → mSite m < siteCount s.sitesRec → siteTopology s.sitesRec = 0 → s.slotsOf (mShard m) = [k]
    → s.shardRec k = some r → (s.shard k).st = osIDLE → (s.shard k).past.find? (fun a => a.round == mRound m) = some a
    → getBE (m.drop 16) 76 1 ∈ [osOPENING, osRUNNING, osSUSPENDED] → ((s.shard k).site (mSite m)).answered = none →
    hLine r (mSite m) < 32 → Completes (.outerHdr m) s fun t =>
      ((t.shard k).site (mSite m)).answered = some s.uptimeNs ∧ ((t.lgrp (hLine r (mSite m))).queues.getD 0
      []).length = ((s.lgrp (hLine r (mSite m))).queues.getD 0 []).length + 1 ∧ SameBut [.outer, .line] s t) ∧
  (∀ (s : State) (m : Bytes) (k : Nat), s.coreOff = false → mType m = 1 → mSite m ≠ (siteLocal s.sitesRec) → mSite m
    < siteCount s.sitesRec → siteTopology s.sitesRec = 0 → s.slotsOf (mShard m) = [k] → (s.shard k).st ≠ osIDLE →
    mRound m = (s.shard k).round → (m.drop 16).take 64 ≠ (s.shard k).digest → ((s.shard k).site (mSite m)).differs =
    false → Completes (.outerHdr m) s fun t =>
      ((t.shard k).site (mSite m)).differs = true ∧ ((t.shard k).site (mSite m)).reach = false ∧ (t.shard k).st =
      (s.shard k).st ∧ t.fld Reg.OUT_STAT_VALUE_VALUE 8 = min 0xFFFFFFFF (s.fld Reg.OUT_STAT_VALUE_VALUE 8 + 1)) ∧
  (∀ (s : State) (m : Bytes) (k : Nat), s.coreOff = false → mType m = 1 → mSite m ≠ (siteLocal s.sitesRec) → mSite m
    < siteCount s.sitesRec → siteTopology s.sitesRec = 0 → s.slotsOf (mShard m) = [k] → (s.shard k).st ≠ osIDLE →
    (s.shard k).st ≠ osSUSPENDED → mRound m = (s.shard k).round → (m.drop 16).take 64 = (s.shard k).digest → getBE
    (m.drop 16) 77 2 = 0 → (s.shard k).roster ≠ 0 → ∀ i ∈ s.allSites, bitAt (s.shard k).roster i = true → Completes
    (.outerHdr m) s fun t =>
      ((t.shard k).site (mSite m)).reach = true ∧ ((t.shard k).site (mSite m)).st = getBE (m.drop 16) 76 1 ∧
      ((t.shard k).site (mSite m)).frontier = getBE (m.drop 16) 68 4 ∧ (t.shard k).seen = max (s.shard k).seen
      (mEpoch m) ∧ (t.shard k).st = (s.shard k).st) ∧
  (∀ (s : State) (m : Bytes) (k : Nat), s.coreOff = false → mType m = 2 → mSite m ≠ (siteLocal s.sitesRec) → mSite m
    < siteCount s.sitesRec → siteTopology s.sitesRec = 0 → s.slotsOf (mShard m) = [k] → (s.shard k).st ≠ osIDLE →
    mRound m = (s.shard k).round → bitAt (getBE (m.drop 16) 0 2) (siteLocal s.sitesRec) = true → (s.shard k).epoch <
    mEpoch m → (s.shard k).sentTop ≤ getBE (m.drop 16) 2 4 → (s.shard k).votes = [] → s.quorum [(siteLocal
    s.sitesRec)] = false → Completes (.outerPropose m) s fun t =>
      (t.shard k).votes = [⟨(siteLocal s.sitesRec), mSite m, mEpoch m, getBE (m.drop 16) 0 2, getBE (m.drop 16) 2
      4⟩] ∧ (t.shard k).seen = max (s.shard k).seen (mEpoch m)) ∧
  (∀ (s : State) (m : Bytes) (k : Nat), s.coreOff = false → mType m = 2 → mSite m ≠ (siteLocal s.sitesRec) → mSite m
    < siteCount s.sitesRec → siteTopology s.sitesRec = 0 → s.slotsOf (mShard m) = [k] → (s.shard k).st ≠ osIDLE →
    mRound m = (s.shard k).round → bitAt (getBE (m.drop 16) 0 2) (siteLocal s.sitesRec) = false ∨ mEpoch m ≤ (s.shard
    k).epoch ∨ getBE (m.drop 16) 2 4 < (s.shard k).sentTop ∨ ((s.shard k).votes.any fun v => v.voter == (siteLocal
    s.sitesRec) && v.epoch == mEpoch m && v != ⟨(siteLocal s.sitesRec), mSite m, mEpoch m, getBE (m.drop 16) 0 2,
    getBE (m.drop 16) 2 4⟩) = true → Completes (.outerPropose m) s fun t =>
      (t.shard k) = { (s.shard k) with seen := max (s.shard k).seen (mEpoch m) } ∧ SameBut [.outer] s t) ∧
  (∀ (s : State) (m : Bytes) (k : Nat), s.coreOff = false → mType m = 3 → mSite m ≠ (siteLocal s.sitesRec) → mSite m
    < siteCount s.sitesRec → siteTopology s.sitesRec = 0 → s.slotsOf (mShard m) = [k] → (s.shard k).st ≠ osIDLE →
    mRound m = (s.shard k).round → mEpoch m ≤ (s.shard k).epoch → (⟨mSite m, getBE (m.drop 16) 0 1, mEpoch m, getBE
    (m.drop 16) 2 2, getBE (m.drop 16) 4 4⟩ : OutVote) ∉ (s.shard k).votes → Completes (.outerVote m) s fun t =>
      (t.shard k).votes = (s.shard k).votes ++ [⟨mSite m, getBE (m.drop 16) 0 1, mEpoch m, getBE (m.drop 16) 2 2,
      getBE (m.drop 16) 4 4⟩] ∧ (t.shard k).roster = (s.shard k).roster ∧ (t.shard k).epoch = (s.shard k).epoch) ∧
  (∀ (s : State) (m : Bytes) (k : Nat) (r : Bytes), s.coreOff = false → mType m = 3 → mSite m ≠ (siteLocal
    s.sitesRec) → mSite m < siteCount s.sitesRec → siteTopology s.sitesRec = 0 → s.slotsOf (mShard m) = [k] →
    s.shardRec k = some r → (s.shard k).st ∈ [osHALTED, osOPENING, osRUNNING, osSUSPENDED] → mRound m = (s.shard
    k).round → (s.shard k).epoch < mEpoch m → (s.shard k).votes = [] → bitAt (getBE (m.drop 16) 2 2) (siteLocal
    s.sitesRec) = true → bitAt (getBE (m.drop 16) 2 2) (mSite m) = true → s.quorum [mSite m] = true → Completes
    (.outerVote m) s fun t =>
      (t.shard k).st = (if (s.shard k).st = osHALTED then osHALTED else osRUNNING) ∧ (t.shard k).epoch = mEpoch m ∧
      (t.shard k).roster = getBE (m.drop 16) 2 2 ∧ (t.shard k).proposed = none ∧ (t.shard k).rosters.head? = some
      (mEpoch m, getBE (m.drop 16) 2 2, getBE (m.drop 16) 4 4) ∧ t.fld Reg.OUT_STAT_VALUE_VALUE 5 = min 0xFFFFFFFF
      (s.fld Reg.OUT_STAT_VALUE_VALUE 5 + 1)) ∧
  (∀ (s : State) (m : Bytes) (k : Nat), s.coreOff = false → mType m = 4 → mSite m ≠ (siteLocal s.sitesRec) → mSite m
    < siteCount s.sitesRec → siteTopology s.sitesRec = 0 → s.slotsOf (mShard m) = [k] → (s.shard k).st ≠ osIDLE →
    mRound m = (s.shard k).round → mEpoch m ≤ (s.shard k).epoch → ((s.shard k).piece (getBE (m.drop 16) 0 4)).own =
    none → Completes (.outerDigest m) s fun t =>
      (t.shard k).heard.find (getBE (m.drop 16) 0 4, mSite m) = some (mEpoch m, sliceB (m.drop 16) 8 64) ∧ (t.shard
      k).pieces = (s.shard k).pieces ∧ (t.shard k).committed = (s.shard k).committed) ∧
  (∀ (s : State) (m r : Bytes) (k p : Nat), s.coreOff = false → mType m = 4 → mSite m ≠ (siteLocal s.sitesRec) →
    mSite m < siteCount s.sitesRec → siteTopology s.sitesRec = 0 → s.slotsOf (mShard m) = [k] → s.shardRec k = some r
    → (s.shard k).st = osRUNNING ∨ (s.shard k).st = osSUSPENDED → mRound m = (s.shard k).round → p = getBE (m.drop 16)
    0 4 → ((s.shard k).piece p).st = psDIGESTED → ((s.shard k).piece p).xEpoch = mEpoch m → ((s.shard k).rosterOf p).1
    = mEpoch m → mEpoch m ≤ (s.shard k).epoch → ((s.shard k).piece p).own = some (sliceB (m.drop 16) 8 64) → maskSites
    ((s.shard k).rosterOf p).2 = [(siteLocal s.sitesRec), mSite m] → s.quorum [(siteLocal s.sitesRec), mSite m] = true
    → (s.shard k).committed + 1 < hPieces r → Completes (.outerDigest m) s fun t =>
      (t.shard k).piece p = {
        slot := ((s.shard k).piece p).spare.getD ((s.shard k).piece p).slot, round := (s.shard k).round, epoch := mEpoch m,
        mask := ((s.shard k).rosterOf p).2, digest := sliceB (m.drop 16) 8 64 } ∧
      (t.shard k).committed = (s.shard k).committed + 1 ∧ (t.shard k).st = (s.shard k).st ∧
      t.fld Reg.OUT_STAT_VALUE_VALUE 0 = min 0xFFFFFFFF (s.fld Reg.OUT_STAT_VALUE_VALUE 0 + 1)) ∧
  (∀ (s : State) (m : Bytes) (k : Nat), s.coreOff = false → mType m = 5 → mSite m ≠ (siteLocal s.sitesRec) → mSite m
    < siteCount s.sitesRec → siteTopology s.sitesRec = 0 → s.slotsOf (mShard m) = [k] → (s.shard k).st ≠ osIDLE →
    (s.shard k).st ≠ osCOMPARING → (s.shard k).st ≠ osMISMATCH → mRound m = (s.shard k).round → Completes (.outerFinal
    m) s fun t =>
      ((t.shard k).site (mSite m)).final = some (sliceB (m.drop 16) 0 64) ∧ (t.shard k).st = (s.shard k).st) ∧
  (∀ (s : State) (m : Bytes) (k : Nat), s.coreOff = false → mType m = 5 → mSite m ≠ (siteLocal s.sitesRec) → mSite m
    < siteCount s.sitesRec → siteTopology s.sitesRec = 0 → s.slotsOf (mShard m) = [k] → (s.shard k).st = osCOMPARING →
    mRound m = (s.shard k).round → mSite m ∈ s.compared (s.shard k) → sliceB (m.drop 16) 0 64 ≠ (s.shard
    k).shardDigest → Completes (.outerFinal m) s fun t =>
      (t.shard k).st = osMISMATCH ∧ ((t.shard k).site (mSite m)).final = some (sliceB (m.drop 16) 0 64) ∧ t.fld
      Reg.OUT_STAT_VALUE_VALUE 6 = min 0xFFFFFFFF (s.fld Reg.OUT_STAT_VALUE_VALUE 6 + 1)) ∧
  (∀ (s : State) (m : Bytes) (k : Nat) (r : Bytes) (op : OpKey) (o : Op), s.coreOff = false → mType m = 5 → mSite m ≠
    (siteLocal s.sitesRec) → mSite m < siteCount s.sitesRec → siteTopology s.sitesRec = 0 → s.slotsOf (mShard m) = [k]
    → s.shardRec k = some r → (s.shard k).st = osCOMPARING → mRound m = (s.shard k).round → s.compared (s.shard k) =
    [mSite m] → sliceB (m.drop 16) 0 64 = (s.shard k).shardDigest → uNoCast (s.shard k).desc = true → (s.shard
    k).fetchOp = none → (s.shard k).excludeOp = none → (s.shard k).openOp = some op → s.op? op = some o → o.key = op →
    o.lost = false → op.slot ∈ (s.ring op.ring).taken → Completes (.outerFinal m) s fun t =>
      (t.shard k).st = osIDLE ∧ (t.shard k).openOp = none ∧ t.endedWith op stOK = true ∧ (t.shard k).past.length =
      ((s.shard k).past.filter fun a => a.round != (s.shard k).round).length + 1) ∧
  (∀ (s : State) (m : Bytes) (k : Nat), s.coreOff = false → mType m = 2 → mSite m ≠ (siteLocal s.sitesRec) → mSite m
    < siteCount s.sitesRec → siteTopology s.sitesRec = 0 → s.slotsOf (mShard m) = [k] → (s.shard k).st = osIDLE ∨
    mRound m ≠ (s.shard k).round → Completes (.outerPropose m) s fun t =>
      t = s) ∧
  (∀ (s : State) (m : Bytes) (k : Nat), s.coreOff = false → mType m = 3 → mSite m ≠ (siteLocal s.sitesRec) → mSite m
    < siteCount s.sitesRec → siteTopology s.sitesRec = 0 → s.slotsOf (mShard m) = [k] → (s.shard k).st = osIDLE ∨
    mRound m ≠ (s.shard k).round → Completes (.outerVote m) s fun t =>
      t = s) ∧
  (∀ (s : State) (m : Bytes) (k : Nat), s.coreOff = false → mType m = 4 → mSite m ≠ (siteLocal s.sitesRec) → mSite m
    < siteCount s.sitesRec → siteTopology s.sitesRec = 0 → s.slotsOf (mShard m) = [k] → (s.shard k).st = osIDLE ∨
    mRound m ≠ (s.shard k).round → Completes (.outerDigest m) s fun t =>
      t = s) ∧
  (∀ (s : State) (m : Bytes) (k : Nat), s.coreOff = false → mType m = 5 → mSite m ≠ (siteLocal s.sitesRec) → mSite m
    < siteCount s.sitesRec → siteTopology s.sitesRec = 0 → s.slotsOf (mShard m) = [k] → (s.shard k).st = osIDLE ∨
    mRound m ≠ (s.shard k).round → Completes (.outerFinal m) s fun t =>
      t = s) ∧
  (∀ (s : State) (m : Bytes) (k : Nat) (r : Bytes), s.coreOff = false → mType m = 6 → mSite m ≠ (siteLocal
    s.sitesRec) → mSite m < siteCount s.sitesRec → siteTopology s.sitesRec = 0 → s.slotsOf (mShard m) = [k] →
    s.shardRec k = some r → getBE (m.drop 16) 0 4 < hPieces r → ((s.shard k).piece (getBE (m.drop 16) 0 4)).round =
    getBE (m.drop 16) 4 4 → Completes (.outerFetchMsg m) s fun t =>
      t.outer = s.outer ∧ (s.pieceLost r ((s.shard k).piece (getBE (m.drop 16) 0 4)) = false → t.fld
      Reg.OUT_STAT_VALUE_VALUE 2 = min 0xFFFFFFFF (s.fld Reg.OUT_STAT_VALUE_VALUE 2 + 1) ∧ (hLine r (mSite m) < 32 →
      ((t.lgrp (hLine r (mSite m))).queues.getD 0 []).length = ((s.lgrp (hLine r (mSite m))).queues.getD 0
      []).length + 1))) ∧
  (∀ (s : State) (m : Bytes), mType m ≠ 6 ∨ mSite m = (siteLocal s.sitesRec) ∨ siteCount s.sitesRec ≤ mSite m ∨
    s.slotsOf (mShard m) = [] → Completes (.outerFetchMsg m) s fun t =>
      t = s) ∧
  (∀ (s : State) (k g : Nat) (r : Bytes), s.coreOff = false → (s.shard k).st ≠ osIDLE → s.shardRec k = some r →
    siteTopology s.sitesRec = 0 → s.allSites.filter (· != (siteLocal s.sitesRec)) = [1] → hLine r 1 = g → g < 32 →
    Completes (.hdrTimer k) s fun t =>
      ((t.lgrp g).queues.getD 0 []).length = ((s.lgrp g).queues.getD 0 []).length + 1 ∧ t.outer = s.outer ∧ SameBut
      [.line] s t) ∧
  (∀ (s : State) (k : Nat), (s.shard k).st = osIDLE → Completes (.hdrTimer k) s fun t =>
      t = s) ∧
  (∀ (s : State) (k i : Nat), s.coreOff = false → (s.shard k).st ≠ osIDLE → ((s.shard k).site i).reach = true →
    Completes (.siteUnreachable k i) s fun t =>
      ((t.shard k).site i).reach = false ∧ (t.shard k).st = (if (s.shard k).st = osRUNNING ∧ bitAt (s.shard
      k).roster i = true then osSUSPENDED else (s.shard k).st) ∧ SameBut [.outer] s t) ∧
  (∀ (s : State) (k i : Nat), (s.shard k).st = osIDLE ∨ ((s.shard k).site i).reach = false → Completes
    (.siteUnreachable k i) s fun t =>
      t = s) ∧
  (∀ (s : State) (k i : Nat), s.coreOff = false → bitAt (s.shard k).roster i = true → ((s.shard k).site i).reach =
    false → i ≠ (siteLocal s.sitesRec) → (s.proposable (s.shard k)).head? = some (siteLocal s.sitesRec) → (s.shard
    k).proposed = none → (s.shard k).votes = [] → s.quorum [(siteLocal s.sitesRec)] = false → Completes (.lossTimer k
    i) s fun t =>
      (t.shard k).proposed = some ((s.shard k).seen + 1) ∧ (t.shard k).seen = (s.shard k).seen + 1 ∧ (t.shard
      k).epoch = (s.shard k).epoch) ∧
  (∀ (s : State) (k i : Nat), bitAt (s.shard k).roster i = false ∨ ((s.shard k).site i).reach = true ∨ i = (siteLocal
    s.sitesRec) ∨ (s.proposable (s.shard k)).head? ≠ some (siteLocal s.sitesRec) ∨ (s.shard k).proposed.isSome = true
    → Completes (.lossTimer k i) s fun t =>
      t = s) ∧
  (∀ (s : State) (k : Nat), s.coreOff = false → (s.shard k).proposed.isSome = true → (s.proposable (s.shard k)).head?
    = some (siteLocal s.sitesRec) → (s.shard k).votes = [] → s.quorum [(siteLocal s.sitesRec)] = false → Completes
    (.rosterWaitExpire k) s fun t =>
      (t.shard k).proposed = some ((s.shard k).seen + 1) ∧ (t.shard k).seen = (s.shard k).seen + 1) ∧
  (∀ (s : State) (k : Nat), s.coreOff = false → (s.shard k).proposed.isSome = true → (s.proposable (s.shard k)).head?
    ≠ some (siteLocal s.sitesRec) → Completes (.rosterWaitExpire k) s fun t =>
      (t.shard k) = { (s.shard k) with proposed := none } ∧ SameBut [.outer] s t) ∧
  (∀ (s : State) (k : Nat), (s.shard k).proposed = none → Completes (.rosterWaitExpire k) s fun t =>
      t = s)

/-- OUTER_PIECE_RECEIVE, OUTER_PIECE_STEP_DONE, FETCH_TIMEOUT and MISMATCH_TIMEOUT (R389 to R398). -/
def Obligations.OuterPieceRows : Prop :=
  (∀ (s : State) (tag data r : Bytes) (k x : Nat) (rest : List Nat), s.coreOff = false → (getBE tag 14 1) ≠
    (siteLocal s.sitesRec) → (getBE tag 14 1) < siteCount s.sitesRec → siteTopology s.sitesRec = 0 → s.slotsOf (getBE
    tag 0 4) = [k] → s.shardRec k = some r → ((s.shard k).piece (getBE tag 10 4)).fetch = none → getBE tag 4 4 =
    (s.shard k).round → (getBE tag 10 4) < hPieces r → (s.shard k).st ≠ osIDLE → ((s.shard k).rosterOf (getBE tag 10
    4)).1 ≤ getBE tag 8 2 → ((s.shard k).piece (getBE tag 10 4)).round < (s.shard k).round → (s.shard k).deltas.find
    ((getBE tag 10 4), (getBE tag 14 1)) = none → ((s.shard k).piece (getBE tag 10 4)).work.isSome = true → (s.shard
    k).dfree = x :: rest → x ∉ rest → ((s.shard k).piece (getBE tag 10 4)).st ≠ psEXCHANGE → Completes
    (.outerPieceReceive tag data) s fun t =>
      if streamGood r data 1 (hTable r 2) = true then
        (t.shard k).deltas.find ((getBE tag 10 4), (getBE tag 14 1)) = some (x, getBE tag 8 2) ∧ (t.shard k).dfree = rest
      else t.outer = s.outer ∧ (hLine r (getBE tag 14 1) < 32 → ((t.lgrp (hLine r ((getBE tag 14 1)))).queues.getD 0 []).length = ((s.lgrp (hLine r ((getBE tag 14 1)))).queues.getD 0 []).length + 1)) ∧
  (∀ (s : State) (tag data r : Bytes) (k : Nat) (f : OutFetch), s.coreOff = false → (getBE tag 14 1) ≠ (siteLocal
    s.sitesRec) → (getBE tag 14 1) < siteCount s.sitesRec → siteTopology s.sitesRec = 0 → s.slotsOf (getBE tag 0 4) =
    [k] → s.shardRec k = some r → ((s.shard k).piece (getBE tag 10 4)).fetch = some f → data.length = hStreamLen r 0 +
    hStreamLen r 1 → getBE tag 4 4 = f.want → (getBE tag 14 1) ∈ f.sites → f.digest = none → f.commits = false →
    f.resume = psSTEP → Completes (.outerPieceReceive tag data) s fun t =>
      if streamGood r (data.take (hStreamLen r 0)) 0 (hTable r 0) = true ∧
          streamGood r (data.drop (hStreamLen r 0)) 1 (hTable r 1) = true then
        (t.shard k).piece (getBE tag 10 4) = { (s.shard k).piece (getBE tag 10 4) with
          slot := ((s.shard k).piece (getBE tag 10 4)).spare.getD ((s.shard k).piece (getBE tag 10 4)).slot, round := f.want, digest := Config.sha3 data,
          fetch := none, lost := false, spare := some ((s.shard k).piece (getBE tag 10 4)).slot, st := psSTEP, half := 0 } ∧
        (t.shard k).fetched = (s.shard k).fetched + 1
      else ((t.shard k).piece (getBE tag 10 4)).fetch = some { f with sites := f.sites.drop 1 ++ f.sites.take 1 } ∧ (t.shard k).fetched = (s.shard k).fetched) ∧
  (∀ (s : State) (tag data : Bytes), (getBE tag 14 1) = (siteLocal s.sitesRec) ∨ siteCount s.sitesRec ≤ (getBE tag 14
    1) ∨ s.slotsOf (getBE tag 0 4) = [] → Completes (.outerPieceReceive tag data) s fun t =>
      t = s) ∧
  (∀ (s : State) (k p : Nat) (r : Bytes), s.coreOff = false → s.shardRec k = some r → (s.shard k).st = osRUNNING ∨
    (s.shard k).st = osSUSPENDED → ((s.shard k).piece p).st = psDELTA ∨ ((s.shard k).piece p).st = psSTEP → ((s.shard
    k).piece p).half = 0 → s.tfb.outerEnded = [(k, stepCode (s.shard k).round ((s.shard k).piece p).xEpoch p ((s.shard
    k).piece p).st 0, stOK)] → Completes (.outerPieceStepDone k p) s fun t =>
      ((t.shard k).piece p).st = ((s.shard k).piece p).st ∧ ((t.shard k).piece p).half = 1 ∧ (t.shard k).st =
      (s.shard k).st ∧ (t.shard k).round = (s.shard k).round) ∧
  (∀ (s : State) (k p st : Nat) (r : Bytes) (op : OpKey) (o : Op), s.coreOff = false → s.shardRec k = some r →
    (s.shard k).st = osRUNNING ∨ (s.shard k).st = osSUSPENDED → ((s.shard k).piece p).st = psDELTA ∨ ((s.shard
    k).piece p).st = psSTEP → s.tfb.outerEnded = [(k, stepCode (s.shard k).round ((s.shard k).piece p).xEpoch p
    ((s.shard k).piece p).st ((s.shard k).piece p).half, st)] → st ≠ stOK → st ≠ stMEM_UNCORRECTABLE → (s.shard
    k).openOp = some op → s.op? op = some o → o.key = op → o.lost = false → op.slot ∈ (s.ring op.ring).taken →
    Completes (.outerPieceStepDone k p) s fun t =>
      t.endedWith op stOUT_PROGRAM_FAILED = true ∧ (t.shard k).st = osIDLE ∧ (t.shard k).incomplete = some (s.shard
      k).round ∧ (t.shard k).openOp = none ∧ (t.shard k).rc = (s.shard k).rc) ∧
  (∀ (s : State) (k p : Nat), s.shardRec k = none ∨ ((s.shard k).st ≠ osRUNNING ∧ (s.shard k).st ≠ osSUSPENDED) ∨
    (s.col.outerEnded = [] ∧ s.tfb.outerEnded = []) → Completes (.outerPieceStepDone k p) s fun t =>
      t = s) ∧
  (∀ (s : State) (k p : Nat) (f : OutFetch), s.coreOff = false → ((s.shard k).piece p).fetch = some f → Completes
    (.fetchTimeout k p) s fun t =>
      ((t.shard k).piece p).fetch = some { f with
        sites := if f.sites.isEmpty then s.holdersOf (s.shard k) p f.want else f.sites.drop 1 ++ f.sites.take 1 } ∧
      (t.shard k).st = (s.shard k).st ∧ SameBut [.line, .outer] s t) ∧
  (∀ (s : State) (k p : Nat), ((s.shard k).piece p).fetch = none → Completes (.fetchTimeout k p) s fun t =>
      t = s) ∧
  (∀ (s : State) (k : Nat) (op : OpKey) (o : Op), s.coreOff = false → (s.shard k).st = osMISMATCH → (s.shard
    k).openOp = some op → s.op? op = some o → o.key = op → o.lost = false → op.slot ∈ (s.ring op.ring).taken →
    Completes (.mismatchTimeout k) s fun t =>
      (t.shard k) = { (s.shard k) with openOp := none } ∧ t.endedWith op stOUT_DIGEST_MISMATCH = true ∧ SameBut
      [.hif, .outer] s t) ∧
  (∀ (s : State) (k : Nat), (s.shard k).st ≠ osMISMATCH ∨ (s.shard k).openOp = none → Completes (.mismatchTimeout k)
    s fun t =>
      t = s)

/-- HEARTBEAT_SEND, JUWESY_HEARTBEAT, HEARTBEAT_MISS, SUSPECT_RETRY, JUWESY_SUSPECT, JUWESY_VOTE_REQ, VOTE_ANSWER_TIMEOUT, JUWESY_VOTE
and VOTE_WAIT_EXPIRE (R520 to R523). -/
def Obligations.SuspicionRows : Prop :=
  (∀ (s : State) (slot : Nat), s.coreOff = false → (s.fltRec slot).isSome = true → 2 ≤ s.fltN slot → Completes
    (.heartbeatSend slot) s fun t =>
      (t.fltGroup slot) = { (s.fltGroup slot) with
              hbSeq := ((s.fltGroup slot).hbSeq + 1) % 2 ^ 32,
              members := (s.fltGroup slot).members.map fun p => (p.1, { p.2 with fencedAsk := false }) }) ∧
  (∀ (s : State) (slot : Nat), s.fltRec slot = none ∨ s.fltN slot < 2 → Completes (.heartbeatSend slot) s fun t =>
      t = s) ∧
  (∀ (s : State) (src m : Bytes) (slot : Nat), s.coreOff = false → s.fltSlots.find? (fun k => jJob ((s.fltRec k).getD
    []) == jJobOf m) = some slot → 32 ≤ m.length → getBE m 0 1 / 16 = 1 → jSender m < s.fltN slot → jGen m = s.ownGen
    → jType m = 1 → ((s.fltGroup slot).member (jSender m)).fenced = false → jEpochOf m ≤ (s.fltGroup slot).epoch →
    (s.fltGroup slot).st ≠ 1 → Completes (.juwesyHeartbeat src m) s fun t =>
      (t.fltGroup slot).member (jSender m) = { (s.fltGroup slot).member (jSender m) with
              throttled := bitAt (getBE (m.drop 16) 4 1) 0,
              fencedYou := bitAt (getBE (m.drop 16) 4 1) 1,
              issue := getBE (m.drop 16) 6 2,
              minPace := getBE (m.drop 16) 8 2,
              gen := jGen m,
              heard := some s.nowNs,
              missed := 0,
              suspect := none } ∧
            (t.fltGroup slot).st = (s.fltGroup slot).st) ∧
  (∀ (s : State) (src m : Bytes) (slot : Nat), s.coreOff = false → s.fltSlots.find? (fun k => jJob ((s.fltRec k).getD
    []) == jJobOf m) = some slot → 32 ≤ m.length → getBE m 0 1 / 16 = 1 → jSender m < s.fltN slot → jGen m = s.ownGen
    → jType m = 1 → ((s.fltGroup slot).member (jSender m)).fenced = false → jEpochOf m ≤ (s.fltGroup slot).epoch →
    (s.fltGroup slot).st = 1 → ∀ k ∈ s.watchers slot (s.fltSelf slot), k = jSender m ∨ ((s.fltGroup slot).member
    k).heard.isSome = true → Completes (.juwesyHeartbeat src m) s fun t =>
      (t.fltGroup slot).st = 2 ∧ ((t.fltGroup slot).member (jSender m)).heard = some s.nowNs) ∧
  (∀ (s : State) (src m : Bytes), s.coreOff = false → s.fltSlots.find? (fun k => jJob ((s.fltRec k).getD []) ==
    jJobOf m) = none → Completes (.juwesyHeartbeat src m) s fun t =>
      t = s.fltCount 0 10 ∧ t.fld Reg.FLT_STAT_VALUE_VALUE 10 = min 0xFFFFFFFF (s.fld Reg.FLT_STAT_VALUE_VALUE 10 +
      1)) ∧
  (∀ (s : State) (slot k at_ : Nat), s.coreOff = false → (s.fltRec slot).isSome = true → s.fltServes slot = true →
    ((s.fltGroup slot).member k).fenced = false → ((s.fltGroup slot).member k).heard = some at_ → k ∈ watchSet (s.fltN
    slot) (s.fltSelf slot) → s.reached (at_ + (((s.fltGroup slot).member k).missed + 1) * 100000) = true →
    ((s.fltGroup slot).member k).missed + 1 < s.fld Reg.FLT_CFG_MISS_COUNT → ∀ j ∈ s.fltSlots, (s.fltGroup j).ballots
    = [] → Completes (.heartbeatMiss slot k) s fun t =>
      ((t.fltGroup slot).member k).missed = ((s.fltGroup slot).member k).missed + 1 ∧ (t.healthOf (.member slot
      k)).adds = (s.healthOf (.member slot k)).adds + 4 ∧ t.fld Reg.FLT_STAT_VALUE_VALUE (slot * 16 + 0) = min
      0xFFFFFFFF (s.fld Reg.FLT_STAT_VALUE_VALUE (slot * 16 + 0) + 1)) ∧
  (∀ (s : State) (slot k at_ c : Nat), s.coreOff = false → (s.fltRec slot).isSome = true → s.fltServes slot = true →
    ((s.fltGroup slot).member k).fenced = false → ((s.fltGroup slot).member k).heard = some at_ → k ∈ watchSet (s.fltN
    slot) (s.fltSelf slot) → s.reached (at_ + (((s.fltGroup slot).member k).missed + 1) * 100000) = true → s.fld
    Reg.FLT_CFG_MISS_COUNT ≤ ((s.fltGroup slot).member k).missed + 1 → ((s.fltGroup slot).member k).suspect = none →
    s.coordinator slot k [] = some c → c ≠ (s.fltSelf slot) → ∀ j ∈ s.fltSlots, (s.fltGroup j).ballots = [] →
    Completes (.heartbeatMiss slot k) s fun t =>
      ((t.fltGroup slot).member k).suspect = some [c] ∧ ((t.fltGroup slot).member k).missed = ((s.fltGroup
      slot).member k).missed + 1 ∧ t.fld Reg.FLT_STAT_VALUE_VALUE (slot * 16 + 1) = min 0xFFFFFFFF (s.fld
      Reg.FLT_STAT_VALUE_VALUE (slot * 16 + 1) + 1)) ∧
  (∀ (s : State) (slot k at_ : Nat), s.coreOff = false → (s.fltRec slot).isSome = true → s.fltServes slot = true →
    ((s.fltGroup slot).member k).fenced = true → ((s.fltGroup slot).member k).probation = true → ((s.fltGroup
    slot).member k).probHeard = some at_ → s.reached (at_ + 100000) = true → Completes (.heartbeatMiss slot k) s fun t
    =>
      (t.fltGroup slot).member k = { (s.fltGroup slot).member k with
        probScore := ((s.fltGroup slot).member k).probScore + 4 * 65536, probHeard := some (at_ + 100000) } ∧
      SameBut [.flt] s t) ∧
  (∀ (s : State) (slot k : Nat), s.fltRec slot = none ∨ s.fltServes slot = false ∨ (((s.fltGroup slot).member
    k).fenced = false ∧ ((s.fltGroup slot).member k).heard = none) → Completes (.heartbeatMiss slot k) s fun t =>
      t = s) ∧
  (∀ (s : State) (slot k a c : Nat) (l : List Nat), s.coreOff = false → (s.fltRec slot).isSome = true → ((s.fltGroup
    slot).member k).suspect = some (a :: l) → s.coordinator slot k (a :: l) = some c → c ≠ (s.fltSelf slot) →
    Completes (.suspectRetry slot k) s fun t =>
      ((t.fltGroup slot).member k).suspect = some (a :: l ++ [c]) ∧ t.fld Reg.FLT_STAT_VALUE_VALUE (slot * 16 + 1) =
      min 0xFFFFFFFF (s.fld Reg.FLT_STAT_VALUE_VALUE (slot * 16 + 1) + 1)) ∧
  (∀ (s : State) (slot k a : Nat) (l : List Nat), ((s.fltGroup slot).member k).suspect = some (a :: l) →
    s.coordinator slot k (a :: l) = none → Completes (.suspectRetry slot k) s fun t =>
      t = s) ∧
  (∀ (s : State) (slot k : Nat), ((s.fltGroup slot).member k).suspect = none ∨ ((s.fltGroup slot).member k).suspect =
    some [] → Completes (.suspectRetry slot k) s fun t =>
      t = s) ∧
  (∀ (s : State) (src m : Bytes) (slot : Nat), s.coreOff = false → s.fltSlots.find? (fun k => jJob ((s.fltRec k).getD
    []) == jJobOf m) = some slot → 24 ≤ m.length → getBE m 0 1 / 16 = 1 → jSender m < s.fltN slot → jGen m = s.ownGen
    → jType m = 2 → ((s.fltGroup slot).member (jSender m)).fenced = false → jEpochOf m ≤ (s.fltGroup slot).epoch →
    s.fltN slot ≤ getBE (m.drop 16) 0 2 ∨ 1 < getBE (m.drop 16) 2 1 ∨ getBE (m.drop 16) 3 1 = 0 ∨ 4 < getBE (m.drop
    16) 3 1 → Completes (.juwesySuspect src m) s fun t =>
      t = s.fltCount slot 10) ∧
  (∀ (s : State) (src m : Bytes) (slot : Nat), s.coreOff = false → s.fltSlots.find? (fun k => jJob ((s.fltRec k).getD
    []) == jJobOf m) = some slot → 24 ≤ m.length → getBE m 0 1 / 16 = 1 → jSender m < s.fltN slot → jGen m = s.ownGen
    → jType m = 2 → ((s.fltGroup slot).member (jSender m)).fenced = false → jEpochOf m ≤ (s.fltGroup slot).epoch →
    getBE (m.drop 16) 0 2 < s.fltN slot → getBE (m.drop 16) 2 1 ≤ 1 → getBE (m.drop 16) 3 1 = 1 → ((s.fltGroup
    slot).member (getBE (m.drop 16) 0 2)).fenced = false → (s.fltGroup slot).votes = [] → (s.fltSelf slot) ∉
    s.watchers slot (getBE (m.drop 16) 0 2) → Completes (.juwesySuspect src m) s fun t =>
      (t.fltGroup slot).votes.map (fun v => (v.id, v.prop.subject, v.prop.cause, v.voters, v.yes)) = [((s.fltGroup
      slot).nextVote, getBE (m.drop 16) 0 2, 1, s.watchers slot (getBE (m.drop 16) 0 2), [])] ∧ (t.fltGroup
      slot).nextVote = ((s.fltGroup slot).nextVote + 1) % 2 ^ 32 ∧ t.fld Reg.FLT_STAT_VALUE_VALUE (slot * 16 + 2) =
      min 0xFFFFFFFF (s.fld Reg.FLT_STAT_VALUE_VALUE (slot * 16 + 2) + 1)) ∧
  (∀ (s : State) (src m : Bytes) (slot : Nat), s.coreOff = false → s.fltSlots.find? (fun k => jJob ((s.fltRec k).getD
    []) == jJobOf m) = some slot → 24 ≤ m.length → getBE m 0 1 / 16 = 1 → jSender m < s.fltN slot → jGen m = s.ownGen
    → jType m = 2 → ((s.fltGroup slot).member (jSender m)).fenced = false → jEpochOf m ≤ (s.fltGroup slot).epoch →
    getBE (m.drop 16) 0 2 < s.fltN slot → getBE (m.drop 16) 2 1 ≤ 1 → getBE (m.drop 16) 3 1 = 2 → ((s.fltGroup
    slot).member (getBE (m.drop 16) 0 2)).fenced = false → (s.fltGroup slot).hold = true → Completes (.juwesySuspect
    src m) s fun t =>
      (t.fltGroup slot).heldProps = (s.fltGroup slot).heldProps ++ [⟨jSender m, getBE (m.drop 16) 0 2, getBE (m.drop
      16) 2 1 == 1, 2, getBE (m.drop 16) 4 2, getBE (m.drop 16) 6 2, s.nowNs⟩] ∧ SameBut [.flt] s t) ∧
  (∀ (s : State) (src m : Bytes) (slot : Nat), s.coreOff = false → s.fltSlots.find? (fun k => jJob ((s.fltRec k).getD
    []) == jJobOf m) = some slot → 24 ≤ m.length → getBE m 0 1 / 16 = 1 → jSender m < s.fltN slot → jGen m = s.ownGen
    → jType m = 3 → ((s.fltGroup slot).member (jSender m)).fenced = false → jEpochOf m ≤ (s.fltGroup slot).epoch →
    getBE (m.drop 16) 4 2 < s.fltN slot → s.votesYes slot (getBE (m.drop 16) 4 2) (getBE (m.drop 16) 7 1) = false →
    (s.fltGroup slot).ballots = [] → Completes (.juwesyVoteReq src m) s fun t =>
      (t.fltGroup slot).ballots = [⟨jSender m, getBE (m.drop 16) 0 4, getBE (m.drop 16) 4 2, getBE (m.drop 16) 7 1⟩]) ∧
  (∀ (s : State) (slot coord id : Nat) (b : Ballot), s.coreOff = false → (s.fltGroup slot).ballots = [b] → b.coord =
    coord → b.id = id → coord ≠ (s.fltSelf slot) → Completes (.voteAnswerTimeout slot coord id) s fun t =>
      (t.fltGroup slot).ballots = [] ∧ (t.fltGroup slot).votes = (s.fltGroup slot).votes) ∧
  (∀ (s : State) (slot coord id : Nat), (s.fltGroup slot).ballots = [] → Completes (.voteAnswerTimeout slot coord id)
    s fun t =>
      t = s) ∧
  (∀ (s : State) (src m : Bytes) (slot : Nat) (v : VoteRun), s.coreOff = false → s.fltSlots.find? (fun k => jJob
    ((s.fltRec k).getD []) == jJobOf m) = some slot → 24 ≤ m.length → getBE m 0 1 / 16 = 1 → jSender m < s.fltN slot →
    jGen m = s.ownGen → jType m = 4 → ((s.fltGroup slot).member (jSender m)).fenced = false → jEpochOf m ≤ (s.fltGroup
    slot).epoch → (s.fltGroup slot).votes = [v] → v.id = getBE (m.drop 16) 0 4 → jSender m ∈ v.voters → jSender m ∉
    v.yes → getBE (m.drop 16) 4 1 = 1 → 2 * (v.yes.length + 1) ≤ v.voters.length → Completes (.juwesyVote src m) s fun
    t =>
      (t.fltGroup slot).votes = [{ v with yes := v.yes ++ [jSender m] }] ∧ (t.fltGroup slot).nextVote = (s.fltGroup
      slot).nextVote) ∧
  (∀ (s : State) (src m : Bytes) (slot : Nat) (v : VoteRun), s.coreOff = false → s.fltSlots.find? (fun k => jJob
    ((s.fltRec k).getD []) == jJobOf m) = some slot → 24 ≤ m.length → getBE m 0 1 / 16 = 1 → jSender m < s.fltN slot →
    jGen m = s.ownGen → jType m = 4 → ((s.fltGroup slot).member (jSender m)).fenced = false → jEpochOf m ≤ (s.fltGroup
    slot).epoch → (s.fltGroup slot).votes = [v] → v.id = getBE (m.drop 16) 0 4 → jSender m ∈ v.voters → jSender m ∉
    v.yes → getBE (m.drop 16) 4 1 = 1 → v.voters.length < 2 * (v.yes.length + 1) → v.prop.cause ≠ 4 → ((s.fltGroup
    slot).member v.prop.subject).fenced = false → Completes (.juwesyVote src m) s fun t =>
      (t.fltGroup slot).votes = [] ∧ ((t.fltGroup slot).member v.prop.subject).fenced = true ∧ (t.fltGroup
      slot).epoch = max (s.fltGroup slot).epoch (((s.fltGroup slot).epoch + 1) % 2 ^ 32) ∧ (t.fltGroup
      slot).nextVote = ((s.fltGroup slot).nextVote + 1) % 2 ^ 32 ∧ t.fld Reg.FLT_STAT_VALUE_VALUE (slot * 16 + 5) =
      min 0xFFFFFFFF (s.fld Reg.FLT_STAT_VALUE_VALUE (slot * 16 + 5) + 1)) ∧
  (∀ (s : State) (src m : Bytes) (slot : Nat), s.coreOff = false → s.fltSlots.find? (fun k => jJob ((s.fltRec k).getD
    []) == jJobOf m) = some slot → 24 ≤ m.length → getBE m 0 1 / 16 = 1 → jSender m < s.fltN slot → jGen m = s.ownGen
    → jType m = 4 → ((s.fltGroup slot).member (jSender m)).fenced = false → jEpochOf m ≤ (s.fltGroup slot).epoch →
    getBE (m.drop 16) 4 1 ≠ 1 ∨ (s.fltGroup slot).votes = [] → Completes (.juwesyVote src m) s fun t =>
      t = s) ∧
  (∀ (s : State) (slot id : Nat), s.coreOff = false → (s.fltGroup slot).votes.any (fun v => v.id == id) = true →
    Completes (.voteWaitExpire slot id) s fun t =>
      (t.fltGroup slot) = { (s.fltGroup slot) with votes := (s.fltGroup slot).votes.filter fun v => v.id != id } ∧
      t.fld Reg.FLT_STAT_VALUE_VALUE (slot * 16 + 3) = min 0xFFFFFFFF (s.fld Reg.FLT_STAT_VALUE_VALUE (slot * 16 +
      3) + 1) ∧ SameBut [.flt, .regs .flt] s t) ∧
  (∀ (s : State) (slot id : Nat), (s.fltGroup slot).votes.any (fun v => v.id == id) = false → Completes
    (.voteWaitExpire slot id) s fun t =>
      t = s)

/-- JUWESY_DECIDE, DECIDE_RESEND, JUWESY_DECIDE_ACK, RECOVERY_QUIET_DONE, HEALTH_UPDATE, HOLD_RELEASE, FLT_PROBATION, PROBE_SEND,
JUWESY_PROBE, JUWESY_PROBE_ACK, PROBATION_END, PROBATION_NO_DECISION, JUWESY_PACE and PACE_SECOND_SEND (R524 to R537). -/
def Obligations.AgreementRows : Prop :=
  (∀ (s : State) (src m : Bytes) (slot : Nat), s.coreOff = false → s.fltSlots.find? (fun k => jJob ((s.fltRec k).getD
    []) == jJobOf m) = some slot → 32 ≤ m.length → getBE m 0 1 / 16 = 1 → jSender m < s.fltN slot → jGen m = s.ownGen
    → jType m = 5 → ((s.fltGroup slot).member (jSender m)).fenced = false → jEpochOf m ≤ (s.fltGroup slot).epoch →
    getBE (m.drop 16) 6 1 = 3 → getBE (m.drop 16) 4 2 < s.fltN slot → (s.fltGroup slot).applied.any (fun x => x.same
    (⟨jSender m, getBE (m.drop 16) 0 4, getBE (m.drop 16) 4 2, 3, getBE (m.drop 16) 7 1 == 1, getBE (m.drop 16) 8 2,
    getBE (m.drop 16) 12 4⟩ : Decision)) = false → Completes (.juwesyDecide src m) s fun t =>
      (t.fltGroup slot).hold = true ∧ (t.fltGroup slot).holder = some (⟨jSender m, getBE (m.drop 16) 0 4, getBE
      (m.drop 16) 4 2, 3, getBE (m.drop 16) 7 1 == 1, getBE (m.drop 16) 8 2, getBE (m.drop 16) 12 4⟩ : Decision) ∧
      (t.fltGroup slot).applied = (s.fltGroup slot).applied ++ [(⟨jSender m, getBE (m.drop 16) 0 4, getBE (m.drop
      16) 4 2, 3, getBE (m.drop 16) 7 1 == 1, getBE (m.drop 16) 8 2, getBE (m.drop 16) 12 4⟩ : Decision)] ∧
      (t.fltGroup slot).record = ((s.fltGroup slot).record ++ [(s.nowNs, (⟨jSender m, getBE (m.drop 16) 0 4, getBE
      (m.drop 16) 4 2, 3, getBE (m.drop 16) 7 1 == 1, getBE (m.drop 16) 8 2, getBE (m.drop 16) 12 4⟩ :
      Decision))]).drop ((s.fltGroup slot).record.length + 1 - 64) ∧ (t.fltGroup slot).coord = jSender m ∧
      (t.fltGroup slot).epoch = (s.fltGroup slot).epoch ∧ t.fld Reg.FLT_STAT_VALUE_VALUE (slot * 16 + 6) = min
      0xFFFFFFFF (s.fld Reg.FLT_STAT_VALUE_VALUE (slot * 16 + 6) + 1)) ∧
  (∀ (s : State) (src m : Bytes) (slot : Nat), s.coreOff = false → s.fltSlots.find? (fun k => jJob ((s.fltRec k).getD
    []) == jJobOf m) = some slot → 32 ≤ m.length → getBE m 0 1 / 16 = 1 → jSender m < s.fltN slot → jGen m = s.ownGen
    → jType m = 5 → ((s.fltGroup slot).member (jSender m)).fenced = false → jEpochOf m ≤ (s.fltGroup slot).epoch →
    getBE (m.drop 16) 6 1 = 0 → getBE (m.drop 16) 4 2 < s.fltN slot → (s.fltGroup slot).applied.any (fun x => x.same
    (⟨jSender m, getBE (m.drop 16) 0 4, getBE (m.drop 16) 4 2, 0, getBE (m.drop 16) 7 1 == 1, getBE (m.drop 16) 8 2,
    getBE (m.drop 16) 12 4⟩ : Decision)) = false → Completes (.juwesyDecide src m) s fun t =>
      ((t.fltGroup slot).member (getBE (m.drop 16) 4 2)).fenced = true ∧ (t.fltGroup slot).epoch = max (s.fltGroup
      slot).epoch (getBE (m.drop 16) 12 4) ∧ (t.fltGroup slot).applied = (s.fltGroup slot).applied ++ [(⟨jSender m,
      getBE (m.drop 16) 0 4, getBE (m.drop 16) 4 2, 0, getBE (m.drop 16) 7 1 == 1, getBE (m.drop 16) 8 2, getBE
      (m.drop 16) 12 4⟩ : Decision)] ∧ t.fld Reg.FLT_STAT_VALUE_VALUE (slot * 16 + 5) = min 0xFFFFFFFF (s.fld
      Reg.FLT_STAT_VALUE_VALUE (slot * 16 + 5) + 1)) ∧
  (∀ (s : State) (src m : Bytes) (slot : Nat), s.coreOff = false → s.fltSlots.find? (fun k => jJob ((s.fltRec k).getD
    []) == jJobOf m) = some slot → 32 ≤ m.length → getBE m 0 1 / 16 = 1 → jSender m < s.fltN slot → jGen m = s.ownGen
    → jType m = 5 → ((s.fltGroup slot).member (jSender m)).fenced = false → jEpochOf m ≤ (s.fltGroup slot).epoch →
    getBE (m.drop 16) 6 1 = 1 → getBE (m.drop 16) 4 2 < s.fltN slot → (s.fltGroup slot).applied.any (fun x => x.same
    (⟨jSender m, getBE (m.drop 16) 0 4, getBE (m.drop 16) 4 2, 1, getBE (m.drop 16) 7 1 == 1, getBE (m.drop 16) 8 2,
    getBE (m.drop 16) 12 4⟩ : Decision)) = false → ((s.fltGroup slot).member (s.fltSelf slot)).fenced = false →
    Completes (.juwesyDecide src m) s fun t =>
      (t.fltGroup slot).st = 3 ∧ (t.fltGroup slot).epoch = max (s.fltGroup slot).epoch (getBE (m.drop 16) 12 4) ∧
      (t.fltGroup slot).restart = some (⟨jSender m, getBE (m.drop 16) 0 4, getBE (m.drop 16) 4 2, 1, getBE (m.drop
      16) 7 1 == 1, getBE (m.drop 16) 8 2, getBE (m.drop 16) 12 4⟩ : Decision) ∧ (t.fltGroup slot).restartAt =
      s.nowNs ∧ t.fld Reg.FLT_STAT_VALUE_VALUE (slot * 16 + 8) = min 0xFFFFFFFF (s.fld Reg.FLT_STAT_VALUE_VALUE
      (slot * 16 + 8) + 1)) ∧
  (∀ (s : State) (src m : Bytes) (slot : Nat), s.coreOff = false → s.fltSlots.find? (fun k => jJob ((s.fltRec k).getD
    []) == jJobOf m) = some slot → 32 ≤ m.length → getBE m 0 1 / 16 = 1 → jSender m < s.fltN slot → jGen m = s.ownGen
    → jType m = 5 → ((s.fltGroup slot).member (jSender m)).fenced = false → jEpochOf m ≤ (s.fltGroup slot).epoch →
    getBE (m.drop 16) 6 1 = 2 → getBE (m.drop 16) 4 2 < s.fltN slot → (s.fltGroup slot).applied.any (fun x => x.same
    (⟨jSender m, getBE (m.drop 16) 0 4, getBE (m.drop 16) 4 2, 2, getBE (m.drop 16) 7 1 == 1, getBE (m.drop 16) 8 2,
    getBE (m.drop 16) 12 4⟩ : Decision)) = false → getBE (m.drop 16) 4 2 = (s.fltSelf slot) → Completes (.juwesyDecide
    src m) s fun t =>
      getBE (m.drop 16) 8 2 ∈ t.flt.fenced ∧ t.flt.linkFence.find (getBE (m.drop 16) 8 2) = some slot ∧ (t.fltGroup
      slot).st = (s.fltGroup slot).st ∧ t.fld Reg.FLT_STAT_VALUE_VALUE (slot * 16 + 5) = min 0xFFFFFFFF (s.fld
      Reg.FLT_STAT_VALUE_VALUE (slot * 16 + 5) + 1)) ∧
  (∀ (s : State) (src m : Bytes) (slot : Nat), s.coreOff = false → s.fltSlots.find? (fun k => jJob ((s.fltRec k).getD
    []) == jJobOf m) = some slot → 32 ≤ m.length → getBE m 0 1 / 16 = 1 → jSender m < s.fltN slot → jGen m = s.ownGen
    → jType m = 5 → ((s.fltGroup slot).member (jSender m)).fenced = false → jEpochOf m ≤ (s.fltGroup slot).epoch →
    getBE (m.drop 16) 6 1 = 4 → getBE (m.drop 16) 4 2 < s.fltN slot → (s.fltGroup slot).applied.any (fun x => x.same
    (⟨jSender m, getBE (m.drop 16) 0 4, getBE (m.drop 16) 4 2, 4, getBE (m.drop 16) 7 1 == 1, getBE (m.drop 16) 8 2,
    getBE (m.drop 16) 12 4⟩ : Decision)) = false → getBE (m.drop 16) 7 1 ≠ 1 → getBE (m.drop 16) 4 2 ≠ (s.fltSelf
    slot) → Completes (.juwesyDecide src m) s fun t =>
      (t.fltGroup slot).member (getBE (m.drop 16) 4 2) = { (s.fltGroup slot).member (getBE (m.drop 16) 4 2) with
        fenced := false, probation := false, probScore := 0, probHeard := none, heard := none, missed := 0,
        suspect := none } ∧
      t.healthOf (.member slot (getBE (m.drop 16) 4 2)) = {} ∧ (t.fltGroup slot).st = (s.fltGroup slot).st ∧ t.fld Reg.FLT_STAT_VALUE_VALUE (slot * 16 + 7) = min 0xFFFFFFFF (s.fld Reg.FLT_STAT_VALUE_VALUE (slot * 16 + 7) + 1)) ∧
  (∀ (s : State) (src m : Bytes) (slot : Nat), s.coreOff = false → s.fltSlots.find? (fun k => jJob ((s.fltRec k).getD
    []) == jJobOf m) = some slot → 32 ≤ m.length → getBE m 0 1 / 16 = 1 → jSender m < s.fltN slot → jGen m = s.ownGen
    → jType m = 5 → ((s.fltGroup slot).member (jSender m)).fenced = false → jEpochOf m ≤ (s.fltGroup slot).epoch →
    getBE (m.drop 16) 6 1 = 3 → getBE (m.drop 16) 4 2 < s.fltN slot → (s.fltGroup slot).applied.any (fun x => x.same
    (⟨jSender m, getBE (m.drop 16) 0 4, getBE (m.drop 16) 4 2, 3, getBE (m.drop 16) 7 1 == 1, getBE (m.drop 16) 8 2,
    getBE (m.drop 16) 12 4⟩ : Decision)) = true → (s.fltGroup slot).spreads = [] → Completes (.juwesyDecide src m) s
    fun t =>
      t.flt = s.flt) ∧
  (∀ (s : State) (src m : Bytes) (slot : Nat), s.coreOff = false → s.fltSlots.find? (fun k => jJob ((s.fltRec k).getD
    []) == jJobOf m) = some slot → 32 ≤ m.length → getBE m 0 1 / 16 = 1 → jSender m < s.fltN slot → jGen m = s.ownGen
    → jType m = 5 → ((s.fltGroup slot).member (jSender m)).fenced = false → jEpochOf m ≤ (s.fltGroup slot).epoch → 4 <
    getBE (m.drop 16) 6 1 → Completes (.juwesyDecide src m) s fun t =>
      t = s.fltCount slot 10) ∧
  (∀ (s : State) (slot coord id child n : Nat) (x : Spread), s.coreOff = false → (s.fltGroup slot).spreads = [x] →
    x.dec.coord = coord → x.dec.voteId = id → x.children.find? (fun c => c.1 == child) = some (child, n) → n < 3 →
    Completes (.decideResend slot coord id child) s fun t =>
      (t.fltGroup slot).spreads =
      [{ x with children := x.children.map fun c => if c.1 = child then (c.1, n + 1) else c }] ∧ (t.fltGroup
      slot).applied = (s.fltGroup slot).applied) ∧
  (∀ (s : State) (slot coord id child n : Nat) (x : Spread), s.coreOff = false → (s.fltGroup slot).spreads = [x] →
    x.dec.coord = coord → x.dec.voteId = id → x.children.find? (fun c => c.1 == child) = some (child, n) → 3 ≤ n →
    Completes (.decideResend slot coord id child) s fun t =>
      (t.fltGroup slot).spreads =
        (if (x.children.filter (fun c => c.1 != child) ++ (treeChildren (s.fltN slot) coord child).map fun k => (k, 1)) = [] then []
        else [{ x with children := (x.children.filter (fun c => c.1 != child) ++ (treeChildren (s.fltN slot) coord child).map fun k => (k, 1)) }]) ∧
      (t.fltGroup slot).applied = (s.fltGroup slot).applied) ∧
  (∀ (s : State) (slot coord id child : Nat), (s.fltGroup slot).spreads = [] → Completes (.decideResend slot coord id
    child) s fun t =>
      t = s) ∧
  (∀ (s : State) (src m : Bytes) (slot : Nat) (x : Spread), s.coreOff = false → s.fltSlots.find? (fun k => jJob
    ((s.fltRec k).getD []) == jJobOf m) = some slot → 24 ≤ m.length → getBE m 0 1 / 16 = 1 → jSender m < s.fltN slot →
    jGen m = s.ownGen → jType m = 6 → ((s.fltGroup slot).member (jSender m)).fenced = false → jEpochOf m ≤ (s.fltGroup
    slot).epoch → (s.fltGroup slot).spreads = [x] → x.dec.voteId = getBE (m.drop 16) 0 4 → x.dec.epoch = getBE (m.drop
    16) 4 4 → x.children.any (fun c => c.1 == jSender m) = true → Completes (.juwesyDecideAck src m) s fun t =>
      (t.fltGroup slot).spreads = (if x.children.filter (fun c => c.1 != jSender m) = [] then [] else
      [{ x with children := x.children.filter fun c => c.1 != jSender m }])) ∧
  (∀ (s : State) (src m : Bytes) (slot : Nat), s.coreOff = false → s.fltSlots.find? (fun k => jJob ((s.fltRec k).getD
    []) == jJobOf m) = some slot → 24 ≤ m.length → getBE m 0 1 / 16 = 1 → jSender m < s.fltN slot → jGen m = s.ownGen
    → jType m = 6 → ((s.fltGroup slot).member (jSender m)).fenced = false → jEpochOf m ≤ (s.fltGroup slot).epoch →
    (s.fltGroup slot).spreads = [] → Completes (.juwesyDecideAck src m) s fun t =>
      t = s) ∧
  (∀ (s : State) (slot : Nat), s.coreOff = false → (s.fltGroup slot).st = 3 → (s.fltGroup slot).spreads = [] →
    s.scopeQuiet slot = true → s.reached ((s.fltGroup slot).restartAt + s.fld Reg.FLT_CFG2_QUIET_US * 1000) = true →
    Completes (.recoveryQuietDone slot) s fun t =>
      (t.fltGroup slot) = { (s.fltGroup slot) with st := 2 } ∧ s.Records t Ev.JOB_RESTART_DONE slot (s.fltGroup
      slot).epoch) ∧
  (∀ (s : State) (slot : Nat), (s.fltGroup slot).st ≠ 3 ∨ s.scopeQuiet slot = false ∨ s.reached ((s.fltGroup
    slot).restartAt + s.fld Reg.FLT_CFG2_QUIET_US * 1000) = false → Completes (.recoveryQuietDone slot) s fun t =>
      t = s) ∧
  (∀ (s : State), s.coreOff = false → s.swc.tab = [] → s.flt.stalled = [] → s.flt.linkFence = [] → (s.flt.health.map
    Prod.fst).Nodup → Completes (.healthUpdate) s fun t =>
      ∀ k h, s.flt.health.find k = some h →
        (t.healthOf k).score = min (Config.healthDecay (s.fld Reg.FLT_HEALTH_CFG_HALF_S) h.score) h.score + h.adds * 65536 ∧
        (t.healthOf k).adds = 0 ∧ (t.healthOf k).replays = h.replays) ∧
  (∀ (s : State) (slot : Nat), s.coreOff = false → (s.fltGroup slot).hold = true → (s.fltGroup slot).holder.map
    Decision.coord = some (s.fltSelf slot) → s.reached (s.fltGroup slot).holdUntil = true → (s.fltGroup
    slot).heldProps = [] → Completes (.holdRelease slot) s fun t =>
      (t.fltGroup slot).hold = false ∧ (t.fltGroup slot).holder = none ∧ (t.fltGroup slot).heldProps = [] ∧
      (t.fltGroup slot).nextVote = ((s.fltGroup slot).nextVote + 1) % 2 ^ 32 ∧ (t.fltGroup slot).epoch = (s.fltGroup
      slot).epoch) ∧
  (∀ (s : State) (slot : Nat), (s.fltGroup slot).hold = false ∨ (s.fltGroup slot).holder.map Decision.coord ≠ some
    (s.fltSelf slot) ∨ s.reached (s.fltGroup slot).holdUntil = false → Completes (.holdRelease slot) s fun t =>
      t = s) ∧
  (∀ (s : State) (op : OpKey) (o : Op), s.Ready op o → isMgmt 0x11 o.desc = true → o.fn = 0 → s.fltRec (mParam0
    o.desc % 16) = none ∨ (s.fltGroup (mParam0 o.desc % 16)).st ≠ 4 → Completes (.fltProbation op) s fun t =>
      t.endedWith op stBAD_FIELD = true ∧ SameBut [.hif] s t) ∧
  (∀ (s : State) (op : OpKey) (o : Op) (slot : Nat), s.Ready op o → isMgmt 0x11 o.desc = true → o.fn = 0 → slot =
    mParam0 o.desc % 16 → (s.fltRec slot).isSome = true → (s.fltGroup slot).st = 4 → Completes (.fltProbation op) s
    fun t =>
      (t.fltGroup slot) = { (s.fltGroup slot) with
              st := 5,
              probOp := some op,
              probEnd := s.nowNs + s.fld Reg.FLT_PROB_CFG_PROB_S * 1000000000,
              probSeq := 0,
              probAsked := false } ∧
            t.underWay op = true ∧ SameBut [.hif, .flt] s t) ∧
  (∀ (s : State) (slot : Nat), s.coreOff = false → (s.fltGroup slot).st = 5 → (s.fltGroup slot).probAsked = false →
    Completes (.probeSend slot) s fun t =>
      (t.fltGroup slot) = { (s.fltGroup slot) with probSeq := ((s.fltGroup slot).probSeq + 1) % 2 ^ 32 }) ∧
  (∀ (s : State) (slot : Nat), (s.fltGroup slot).st ≠ 5 ∨ (s.fltGroup slot).probAsked = true → Completes (.probeSend
    slot) s fun t =>
      t = s) ∧
  (∀ (s : State) (src m : Bytes) (slot : Nat), s.coreOff = false → s.fltSlots.find? (fun k => jJob ((s.fltRec k).getD
    []) == jJobOf m) = some slot → 20 ≤ m.length → getBE m 0 1 / 16 = 1 → jSender m < s.fltN slot → jGen m = s.ownGen
    → jType m = 8 → jEpochOf m ≤ (s.fltGroup slot).epoch → ((s.fltGroup slot).member (jSender m)).fenced = true →
    Completes (.juwesyProbe src m) s fun t =>
      (t.fltGroup slot).member (jSender m) = { (s.fltGroup slot).member (jSender m) with
              probation := true,
              probHeard := some s.nowNs,
              probScore := if ((s.fltGroup slot).member (jSender m)).probation then ((s.fltGroup slot).member (jSender m)).probScore else 0 }) ∧
  (∀ (s : State) (src m : Bytes) (slot : Nat), s.coreOff = false → s.fltSlots.find? (fun k => jJob ((s.fltRec k).getD
    []) == jJobOf m) = some slot → 20 ≤ m.length → getBE m 0 1 / 16 = 1 → jSender m < s.fltN slot → jGen m = s.ownGen
    → jType m = 8 → jEpochOf m ≤ (s.fltGroup slot).epoch → ((s.fltGroup slot).member (jSender m)).fenced = false →
    Completes (.juwesyProbe src m) s fun t =>
      t.flt = s.flt) ∧
  (∀ (s : State) (src m : Bytes) (slot : Nat), s.coreOff = false → s.fltSlots.find? (fun k => jJob ((s.fltRec k).getD
    []) == jJobOf m) = some slot → 20 ≤ m.length → getBE m 0 1 / 16 = 1 → jSender m < s.fltN slot → jGen m = s.ownGen
    → jType m = 9 → jEpochOf m ≤ (s.fltGroup slot).epoch → ((s.fltGroup slot).member (jSender m)).fenced = true →
    Completes (.juwesyProbeAck src m) s fun t =>
      t = s.fltCount slot 10) ∧
  (∀ (s : State) (src m : Bytes) (slot : Nat), s.coreOff = false → s.fltSlots.find? (fun k => jJob ((s.fltRec k).getD
    []) == jJobOf m) = some slot → 20 ≤ m.length → getBE m 0 1 / 16 = 1 → jSender m < s.fltN slot → jGen m = s.ownGen
    → jType m = 9 → jEpochOf m ≤ (s.fltGroup slot).epoch → ((s.fltGroup slot).member (jSender m)).fenced = false →
    Completes (.juwesyProbeAck src m) s fun t =>
      t = s) ∧
  (∀ (s : State) (slot : Nat), s.coreOff = false → (s.fltGroup slot).st = 5 → (s.fltGroup slot).probAsked = false →
    s.reached (s.fltGroup slot).probEnd = true → Completes (.probationEnd slot) s fun t =>
      (t.fltGroup slot) = { (s.fltGroup slot) with probAsked := true }) ∧
  (∀ (s : State) (slot : Nat), (s.fltGroup slot).st ≠ 5 ∨ (s.fltGroup slot).probAsked = true ∨ s.reached (s.fltGroup
    slot).probEnd = false → Completes (.probationEnd slot) s fun t =>
      t = s) ∧
  (∀ (s : State) (slot : Nat) (op : OpKey) (o : Op), s.coreOff = false → (s.fltGroup slot).st = 5 → (s.fltGroup
    slot).probAsked = true → (s.fltGroup slot).probOp = some op → s.op? op = some o → o.key = op → o.lost = false →
    op.slot ∈ (s.ring op.ring).taken → Completes (.probationNoDecision slot) s fun t =>
      (t.fltGroup slot) = { (s.fltGroup slot) with st := 4, probOp := none, probAsked := false } ∧ t.endedWith op
      stOK = true) ∧
  (∀ (s : State) (slot : Nat), (s.fltGroup slot).st ≠ 5 ∨ (s.fltGroup slot).probAsked = false → Completes
    (.probationNoDecision slot) s fun t =>
      t = s) ∧
  (∀ (s : State) (src m : Bytes) (slot : Nat), s.coreOff = false → s.fltSlots.find? (fun k => jJob ((s.fltRec k).getD
    []) == jJobOf m) = some slot → 48 ≤ m.length → getBE m 0 1 / 16 = 1 → jSender m < s.fltN slot → jGen m = s.ownGen
    → jType m = 7 → ((s.fltGroup slot).member (jSender m)).fenced = false → jEpochOf m ≤ (s.fltGroup slot).epoch →
    (getBE (m.drop 16) 0 8, getBE (m.drop 16) 16 4) ∉ (s.fltGroup slot).paceSeen → Completes (.juwesyPace src m) s fun
    t =>
      (t.fltGroup slot).paceSeen = (s.fltGroup slot).paceSeen ++ [(getBE (m.drop 16) 0 8, getBE (m.drop 16) 16 4)] ∧
      t.fld Reg.FLT_STAT_VALUE_VALUE (slot * 16 + 12) = min 0xFFFFFFFF (s.fld Reg.FLT_STAT_VALUE_VALUE (slot * 16 +
      12) + 1)) ∧
  (∀ (s : State) (src m : Bytes) (slot : Nat), s.coreOff = false → s.fltSlots.find? (fun k => jJob ((s.fltRec k).getD
    []) == jJobOf m) = some slot → 48 ≤ m.length → getBE m 0 1 / 16 = 1 → jSender m < s.fltN slot → jGen m = s.ownGen
    → jType m = 7 → ((s.fltGroup slot).member (jSender m)).fenced = false → jEpochOf m ≤ (s.fltGroup slot).epoch →
    (getBE (m.drop 16) 0 8, getBE (m.drop 16) 16 4) ∈ (s.fltGroup slot).paceSeen → Completes (.juwesyPace src m) s fun
    t =>
      t = s.fltCount slot 12) ∧
  (∀ (s : State) (slot : Nat) (b : Bytes) (rest : List (Nat × Bytes)), s.coreOff = false → s.flt.paceAgain = (slot,
    b) :: rest → Completes (.paceSecondSend) s fun t =>
      t.flt = { s.flt with paceAgain := rest }) ∧
  (∀ (s : State), s.flt.paceAgain = [] → Completes (.paceSecondSend) s fun t =>
      t = s)

/-- R89. A commit whose mask is 0. -/
def Obligations.EmptyCommit : Prop :=
  ∀ (s : State) (v : View) (b : Blk) (w : Word), s.portReached v b 0xFF010 = true →
    bitAt w.toNat 0 = true → bitAt w.toNat 1 = false → (s.port v b).result ≠ CommitResult.checking → (s.port v b).mask = 0 → Completes (.commitGo v b w) s fun t =>
      (t.port v b).result = CommitResult.empty ∧ (t.port v b).seq = (s.port v b).seq ∧
      (t.port v b).pend = (s.port v b).pend ∧ (t.port v b).captured = (s.port v b).captured ∧
      (∀ v' b', (v', b') ≠ (v, b) → t.port v' b' = s.port v' b') ∧
      (∀ v' b' off, t.shadowReg v' b' off = s.shadowReg v' b' off) ∧ SameBut [.setup] s t

/-- R265. Integer results. -/
def Obligations.IntegerResults : Prop :=
  (∀ (bytes : Nat) (a : Accum), bytes = 1 ∨ bytes = 4 →
    (a.nan = true → intResult bytes a = (if bytes = 1 then 0x80 else 0x80000000, NumCount.nanResult)) ∧
    (a.nan = false →
      toSigned (8 * bytes) (intResult bytes a).1 =
        max (-(2 ^ (8 * bytes - 1) : Int)) (min (2 ^ (8 * bytes - 1) - 1 : Int) a.field) ∧
      (intResult bytes a).2 =
        if a.field < -(2 ^ (8 * bytes - 1) : Int) ∨ (2 ^ (8 * bytes - 1) - 1 : Int) < a.field then NumCount.saturated
        else NumCount.none)) ∧
  (∀ (l : List Accum) (rnd : Nat → Option Nat),
    encodeAccs .integer 0x20 l rnd =
      (l.flatMap fun a => bytesLE 4 (intResult 4 a).1, l.map fun a => (intResult 4 a).2) ∧
    encodeAccs .integer 0x21 l rnd =
      (l.flatMap fun a => bytesLE 1 (intResult 1 a).1, l.map fun a => (intResult 1 a).2)) ∧
  (∀ (s : State) (die : Nat) (l : List NumCount), die < 2 →
    (s.countResults die l).fld Reg.BEN_NUM_VALUE_VALUE (1 + 8 * die) =
      min 0xFFFFFFFF (s.fld Reg.BEN_NUM_VALUE_VALUE (1 + 8 * die) + (l.filter (· == .nanResult)).length) ∧
    (s.countResults die l).fld Reg.BEN_NUM_VALUE_VALUE (3 + 8 * die) =
      min 0xFFFFFFFF (s.fld Reg.BEN_NUM_VALUE_VALUE (3 + 8 * die) + (l.filter (· == .saturated)).length))

/-- R258. FWD 0xFF. -/
def Obligations.ForwardFormats : Prop :=
  ∀ (w : Nat) (sp : RSpec), parseSpec w = some sp → bitsOf w 16 8 = 0xFF →
    (sp.mode = .wide → sp.fwd = 0x00) ∧ (sp.mode = .ordered → sp.fwd = 0x00) ∧ (sp.mode = .narrow → sp.fwd = 0x02) ∧
    (sp.mode = .integer → sp.fwd = 0x20)

/-- Reading after writing, and the frame of a write, under the keys of R436 and R437. -/
def Obligations.MemoryWrites : Prop :=
  ∀ (s : State) (k : MemKey) (a : Nat) (b : Bytes), s.MemOk →
    (∀ i (h : i < b.length), (State.memWrite k a b s).memByte k (a + i) = b[i]) ∧
    (∀ x, x < a ∨ a + b.length ≤ x → (State.memWrite k a b s).memByte k x = s.memByte k x) ∧
    (∀ k' x, x / 64 < a / 64 ∨ (a + b.length - 1) / 64 < x / 64 →
      (State.memWrite k a b s).memByte k' x = s.memByte k' x) ∧ SameBut [.mem, .bytes] s (State.memWrite k a b s)

/-- The two symbol codes of R144 and R146, decoded as the procedure below R144 and R147 say, on the lines of R145 and R146. -/
def Obligations.SymbolCodes : Prop :=
  (∀ d : List Nat, d.length = 32 → (∀ x ∈ d, x < 16) → decode144 (encode144 d) = some (encode144 d, none) ∧
    ∀ j e, j < 36 → 0 < e → e < 16 →
      decode144 ((encode144 d).modify j (· ^^^ e)) = some (encode144 d, some j) ∧
      ∀ j' e', j' < j → 0 < e' → e' < 16 →
        decode144 (((encode144 d).modify j (· ^^^ e)).modify j' (· ^^^ e')) = none) ∧
  (∀ d : List Nat, d.length = 8 → (∀ x ∈ d, x < 16) →
    (∀ x y, x < 16 → y < 16 → (rsSyndrome (d ++ [x, y]) = (0, 0) ↔ rsEncode d = d ++ [x, y])) ∧
    rsDecode (rsEncode d) = some (rsEncode d) ∧
    ∀ j e, j < 10 → 0 < e → e < 16 → rsDecode ((rsEncode d).modify j (· ^^^ e)) = some (rsEncode d)) ∧
  (∀ line m, line < 36 → m < 256 → (burstTry false [(line, m)]).map Prod.fst = some (zeros 32)) ∧
  (∀ (d : Nat) (m : List Nat), d < 10 → m.length = 4 → (∀ x ∈ m, x < 65536) →
    (burstTry true (m.mapIdx fun k x => (4 * d + k, x))).map Prod.fst = some (zeros 64))
end

