-- ==== Sys2Proof/Laws/Maps.lean ====
section
/-!
SUPPORT. The laws of finite maps, bit fields and device memory: what a read gives after a write, and that every memory
operation keeps the canonical form.
-/

namespace Sys2Proof.Machine

section
variable {κ α : Type} [DecidableEq κ]

/-- Reading the key just written. -/
@[simp] theorem AMap.find_put_self (m : AMap κ α) (k : κ) (v : α) : AMap.find (AMap.put m k v) k = some v := by
  induction m with
  | nil => simp [AMap.put, AMap.find]
  | cons p m ih =>
    obtain ⟨k', v'⟩ := p
    by_cases h : k' = k <;> simp [AMap.put, AMap.find, h, ih]

/-- Reading another key than the one written. -/
theorem AMap.find_put_ne (m : AMap κ α) (k k' : κ) (v : α) (h : k' ≠ k) :
    AMap.find (AMap.put m k v) k' = AMap.find m k' := by
  induction m with
  | nil => simp [AMap.put, AMap.find, Ne.symm h]
  | cons p m ih =>
    obtain ⟨k0, v0⟩ := p
    by_cases h0 : k0 = k
    · subst h0
      simp [AMap.put, AMap.find, Ne.symm h]
    · by_cases h1 : k0 = k'
      · subst h1
        simp [AMap.put, AMap.find, h0]
      · simp [AMap.put, AMap.find, h0, h1, ih]

/-- Reading the key just removed. -/
@[simp] theorem AMap.find_del_self (m : AMap κ α) (k : κ) : AMap.find (AMap.del m k) k = none := by
  induction m with
  | nil => rfl
  | cons p m ih =>
    obtain ⟨k0, v0⟩ := p
    unfold AMap.del at ih ⊢
    by_cases h : k0 = k <;> simp [AMap.find, h, ih]

/-- Reading another key than the one removed. -/
theorem AMap.find_del_ne (m : AMap κ α) (k k' : κ) (h : k' ≠ k) : AMap.find (AMap.del m k) k' = AMap.find m k' := by
  induction m with
  | nil => rfl
  | cons p m ih =>
    obtain ⟨k0, v0⟩ := p
    unfold AMap.del at ih ⊢
    by_cases h0 : k0 = k
    · subst h0
      simp [AMap.find, Ne.symm h, ih]
    · by_cases h1 : k0 = k'
      · subst h1
        simp [AMap.find, h0]
      · simp [AMap.find, h0, h1, ih]

/-- The default read of a key just written. -/
@[simp] theorem AMap.getD_put_self (m : AMap κ α) (k : κ) (v d : α) : AMap.getD (AMap.put m k v) k d = v := by
  simp [AMap.getD]

/-- The default read of another key. -/
theorem AMap.getD_put_ne (m : AMap κ α) (k k' : κ) (v d : α) (h : k' ≠ k) :
    AMap.getD (AMap.put m k v) k' d = AMap.getD m k' d := by
  simp [AMap.getD, AMap.find_put_ne _ _ _ _ h]

end

/-! ### Bit fields -/

/-- A field that is written reads what was written, cut to its width. -/
theorem bitsOf_putBits (w l n v : Nat) : bitsOf (putBits w l n v) l n = v % 2 ^ n := by
  unfold bitsOf putBits
  have h1 : w % 2 ^ l < 2 ^ l := Nat.mod_lt _ (Nat.two_pow_pos l)
  have h2 : v % 2 ^ n < 2 ^ n := Nat.mod_lt _ (Nat.two_pow_pos n)
  have e : w % 2 ^ l + v % 2 ^ n * 2 ^ l + w / 2 ^ (l + n) * 2 ^ (l + n)
      = w % 2 ^ l + 2 ^ l * (v % 2 ^ n + 2 ^ n * (w / 2 ^ (l + n))) := by rw [Nat.pow_add]; ring
  rw [e, Nat.add_mul_div_left _ _ (Nat.two_pow_pos l), Nat.div_eq_of_lt h1, Nat.zero_add, Nat.add_mul_mod_self_left,
    Nat.mod_eq_of_lt h2]

/-- A field below the one written keeps its value. -/
theorem bitsOf_putBits_below (w l n v l' n' : Nat) (h : l' + n' ≤ l) : bitsOf (putBits w l n v) l' n' = bitsOf w l' n' := by
  unfold bitsOf putBits
  obtain ⟨d, rfl⟩ := Nat.exists_eq_add_of_le h
  have e : ∀ x y : Nat, x % 2 ^ (l' + n' + d) + y * 2 ^ (l' + n' + d) + w / 2 ^ (l' + n' + d + n) * 2 ^ (l' + n' + d + n)
      = x % 2 ^ (l' + n' + d) + 2 ^ (l' + n') * (2 ^ d * (y + w / 2 ^ (l' + n' + d + n) * 2 ^ n)) := by
    intro x y
    rw [Nat.pow_add 2 (l' + n' + d) n, Nat.pow_add 2 (l' + n') d]
    ring
  rw [e]
  have key : ∀ a : Nat, a / 2 ^ l' % 2 ^ n' = a % 2 ^ (l' + n') / 2 ^ l' := by
    intro a
    rw [Nat.pow_add, Nat.mod_mul_right_div_self]
  rw [key, key w, Nat.add_mul_mod_self_left, Nat.mod_mod_of_dvd _ (pow_dvd_pow 2 (Nat.le_add_right _ _))]

/-- A field above the one written keeps its value. -/
theorem bitsOf_putBits_above (w l n v l' n' : Nat) (h : l + n ≤ l') : bitsOf (putBits w l n v) l' n' = bitsOf w l' n' := by
  unfold bitsOf putBits
  obtain ⟨d, rfl⟩ := Nat.exists_eq_add_of_le h
  have h1 : w % 2 ^ l < 2 ^ l := Nat.mod_lt _ (Nat.two_pow_pos l)
  have h2 : v % 2 ^ n < 2 ^ n := Nat.mod_lt _ (Nat.two_pow_pos n)
  have h3 : w % 2 ^ l + v % 2 ^ n * 2 ^ l < 2 ^ (l + n) := by
    have : v % 2 ^ n * 2 ^ l + 2 ^ l ≤ 2 ^ n * 2 ^ l := by
      rw [← Nat.succ_mul]
      exact Nat.mul_le_mul_right _ h2
    rw [Nat.pow_add, Nat.mul_comm (2 ^ l)]
    omega
  rw [Nat.pow_add 2 (l + n) d, ← Nat.div_div_eq_div_mul, ← Nat.div_div_eq_div_mul,
    Nat.add_mul_div_right _ _ (Nat.two_pow_pos (l + n)), Nat.div_eq_of_lt h3, Nat.zero_add]

/-- A word with a field replaced is still a word. -/
theorem putBits_lt (w l n v m : Nat) (h : l + n ≤ m) (hw : w < 2 ^ m) : putBits w l n v < 2 ^ m := by
  unfold putBits
  have h1 : w % 2 ^ l < 2 ^ l := Nat.mod_lt _ (Nat.two_pow_pos l)
  have h2 : v % 2 ^ n < 2 ^ n := Nat.mod_lt _ (Nat.two_pow_pos n)
  obtain ⟨d, rfl⟩ := Nat.exists_eq_add_of_le h
  have h3 : w % 2 ^ l + v % 2 ^ n * 2 ^ l < 2 ^ (l + n) := by
    have : v % 2 ^ n * 2 ^ l + 2 ^ l ≤ 2 ^ n * 2 ^ l := by
      rw [← Nat.succ_mul]
      exact Nat.mul_le_mul_right _ h2
    rw [Nat.pow_add, Nat.mul_comm (2 ^ l)]
    omega
  have h4 : w / 2 ^ (l + n) < 2 ^ d := by
    rw [Nat.div_lt_iff_lt_mul (Nat.two_pow_pos _), Nat.mul_comm, ← Nat.pow_add]
    exact hw
  have h5 : w / 2 ^ (l + n) * 2 ^ (l + n) + 2 ^ (l + n) ≤ 2 ^ d * 2 ^ (l + n) := by
    rw [← Nat.succ_mul]
    exact Nat.mul_le_mul_right _ h4
  rw [Nat.pow_add 2 (l + n) d, Nat.mul_comm (2 ^ (l + n))]
  omega

/-- The register form of `bitsOf_putBits`. -/
theorem bitsOf_ofNat_putBits (w l n v : Nat) (h : l + n ≤ 32) (hw : w < 2 ^ 32) :
    bitsOf (BitVec.ofNat 32 (putBits w l n v)).toNat l n = v % 2 ^ n := by
  rw [BitVec.toNat_ofNat, Nat.mod_eq_of_lt (putBits_lt w l n v 32 h hw), bitsOf_putBits]

/-- The register form of `bitsOf_putBits_below` and `bitsOf_putBits_above`. -/
theorem bitsOf_ofNat_putBits_other (w l n v l' n' : Nat) (h : l + n ≤ 32) (_h' : l' + n' ≤ 32)
    (hd : l' + n' ≤ l ∨ l + n ≤ l') (hw : w < 2 ^ 32) :
    bitsOf (BitVec.ofNat 32 (putBits w l n v)).toNat l' n' = bitsOf w l' n' := by
  rw [BitVec.toNat_ofNat, Nat.mod_eq_of_lt (putBits_lt w l n v 32 h hw)]
  rcases hd with hd | hd
  · exact bitsOf_putBits_below w l n v l' n' hd
  · exact bitsOf_putBits_above w l n v l' n' hd

/-! ### Device memory -/

/-- Every listed address is at least `lo`. -/
def Memory.from (lo : Nat) (m : List Host.Cell) : Prop := ∀ c ∈ m, lo ≤ c.1

/-- A memory that rises, by its head and its tail. -/
theorem Memory.rising_cons (a : Nat) (x : Byte) (t : List Host.Cell) :
    Memory.rising ((a, x) :: t) = true ↔ Memory.rising t = true ∧ Memory.from (a + 1) t := by
  induction t generalizing a x with
  | nil => simp [Memory.rising, Memory.from]
  | cons p t ih =>
    obtain ⟨b, y⟩ := p
    simp only [Memory.rising, Bool.and_eq_true, decide_eq_true_eq]
    constructor
    · rintro ⟨h, hr⟩
      refine ⟨hr, fun c hc => ?_⟩
      rcases List.mem_cons.1 hc with rfl | hc
      · exact h
      · exact Nat.le_trans (Nat.le_trans h (Nat.le_succ b)) (((ih b y).1 hr).2 c hc)
    · rintro ⟨hr, hf⟩
      exact ⟨hf (b, y) (by simp), hr⟩

/-- Storing a byte keeps a bound on the addresses that the new address meets. -/
theorem Memory.from_set (lo a : Nat) (x : Byte) (m : List Host.Cell) (ha : lo ≤ a) (h : Memory.from lo m) :
    Memory.from lo (Memory.set m a x) := by
  induction m with
  | nil =>
    intro c hc
    simp only [Memory.set, List.mem_singleton] at hc
    exact hc ▸ ha
  | cons p t ih =>
    obtain ⟨b, y⟩ := p
    have hb : lo ≤ b := h (b, y) (by simp)
    have ht : Memory.from lo t := fun c hc => h c (by simp [hc])
    unfold Memory.set
    split
    · intro c hc
      rcases List.mem_cons.1 hc with rfl | hc
      · exact ha
      · exact h c hc
    · split
      · intro c hc
        rcases List.mem_cons.1 hc with rfl | hc
        · exact ha
        · exact ht c hc
      · intro c hc
        rcases List.mem_cons.1 hc with rfl | hc
        · exact hb
        · exact ih ht c hc

/-- Storing a byte keeps the canonical form. -/
theorem Memory.wf_set (m : List Host.Cell) (a : Nat) (x : Byte) (h : Memory.wf m = true) :
    Memory.wf (Memory.set m a x) = true := by
  unfold Memory.wf at *
  induction m with
  | nil => rfl
  | cons p t ih =>
    obtain ⟨b, y⟩ := p
    have ht := (Memory.rising_cons b y t).1 h
    unfold Memory.set
    split
    · next hab =>
      refine (Memory.rising_cons a x _).2 ⟨h, fun c hc => ?_⟩
      rcases List.mem_cons.1 hc with rfl | hc
      · exact hab
      · exact Nat.le_trans (Nat.succ_le_succ (Nat.le_of_lt hab)) (ht.2 c hc)
    · next hab =>
      split
      · next e =>
        subst e
        exact (Memory.rising_cons _ _ _).2 ht
      · next ne => exact (Memory.rising_cons _ _ _).2 ⟨ih ht.1, Memory.from_set _ _ _ _ (by omega) ht.2⟩

/-- Removing a range keeps the canonical form. -/
theorem Memory.wf_clear (m : List Host.Cell) (lo n : Nat) (h : Memory.wf m = true) :
    Memory.wf (Memory.clear m lo n) = true := by
  unfold Memory.wf Memory.clear at *
  induction m with
  | nil => rfl
  | cons p t ih =>
    obtain ⟨b, y⟩ := p
    have ht := (Memory.rising_cons b y t).1 h
    rw [List.filter_cons]
    split
    · exact (Memory.rising_cons _ _ _).2 ⟨ih ht.1, fun c hc => ht.2 c (List.mem_of_mem_filter hc)⟩
    · exact ih ht.1

/-- Storing a run of bytes keeps the canonical form. -/
theorem Memory.wf_store (m : List Host.Cell) (a : Nat) (b : Bytes) (h : Memory.wf m = true) :
    Memory.wf (Memory.store m a b) = true := by
  induction b generalizing m a with
  | nil => exact h
  | cons x t ih => exact ih _ _ (Memory.wf_set _ _ _ h)

/-- Spelling out zeros keeps the canonical form. -/
theorem MemState.wf_spellZeros (m : MemState) (l : List Nat) (c : List Host.Cell) (h : Memory.wf c = true) :
    Memory.wf (m.spellZeros l c) = true := by
  induction l generalizing c with
  | nil => exact h
  | cons a t ih =>
    unfold MemState.spellZeros
    split
    · exact ih _ (Memory.wf_set _ _ _ h)
    · exact ih _ h

/-- Keeping only some cells keeps the canonical form. -/
theorem Memory.wf_filter (m : List Host.Cell) (p : Host.Cell → Bool) (h : Memory.wf m = true) :
    Memory.wf (m.filter p) = true := by
  unfold Memory.wf at *
  induction m with
  | nil => rfl
  | cons c t ih =>
    obtain ⟨b, y⟩ := c
    have ht := (Memory.rising_cons b y t).1 h
    rw [List.filter_cons]
    split
    · exact (Memory.rising_cons _ _ _).2 ⟨ih ht.1, fun c hc => ht.2 c (List.mem_of_mem_filter hc)⟩
    · exact ih ht.1

/-- Nothing is listed below a bound on the addresses. -/
theorem Memory.get_from (lo a : Nat) (m : List Host.Cell) (h : Memory.from lo m) (ha : a < lo) : Memory.get m a = none := by
  cases m with
  | nil => rfl
  | cons p t =>
    obtain ⟨b, y⟩ := p
    have hb : lo ≤ b := h (b, y) (by simp)
    unfold Memory.get
    rw [if_neg (by omega), if_pos (by omega)]

/-- Reading the address just stored to. -/
theorem Memory.get_set_self (m : List Host.Cell) (a : Nat) (x : Byte) : Memory.get (Memory.set m a x) a = some x := by
  induction m with
  | nil => simp [Memory.set, Memory.get]
  | cons p t ih =>
    obtain ⟨b, y⟩ := p
    unfold Memory.set
    split
    · simp [Memory.get]
    · split
      · simp [Memory.get]
      · next h1 h2 =>
        unfold Memory.get
        rw [if_neg (fun e => h2 e.symm), if_neg h1, ih]

/-- Reading any other address. -/
theorem Memory.get_set_ne (m : List Host.Cell) (a b : Nat) (x : Byte) (h : b ≠ a) (hw : Memory.wf m = true) :
    Memory.get (Memory.set m a x) b = Memory.get m b := by
  unfold Memory.wf at hw
  induction m with
  | nil => simp [Memory.set, Memory.get, Ne.symm h]
  | cons p t ih =>
    obtain ⟨c, y⟩ := p
    have ht := (Memory.rising_cons c y t).1 hw
    unfold Memory.set
    split
    · next hac =>
      rw [Memory.get, if_neg (Ne.symm h)]
      split
      · next hba =>
        rw [Memory.get, if_neg (by omega), if_pos (by omega)]
      · rfl
    · next hac =>
      split
      · next e =>
        subst e
        rw [Memory.get, if_neg (Ne.symm h), Memory.get, if_neg (Ne.symm h)]
      · next ne =>
        rw [Memory.get, Memory.get]
        split
        · rfl
        · split
          · rfl
          · exact ih ht.1

end Sys2Proof.Machine
end

