-- ==== Sys2Proof/Laws/Frame.lean ====
section
/-!
SUPPORT. Frames, written once for every operation of the machine. `Fr X s t` says that only the parts whose bits stand in the mask
`X` differ between `s` and `t`, that the queue is the same, and that the invariants of Safety.lean pass from `s` to
`t`. Each operation has one lemma, by backward chaining from its result to the state it began with.
-/

namespace Sys2Proof.Machine

/-- The bit of a part. -/
def Part.bit : Part → Nat
  | .regs b => blkCode b
  | .setup => 26 | .boot => 27 | .mgmt => 28 | .evr => 29 | .hif => 30 | .cox => 31 | .mem => 32 | .time => 33
  | .power => 34 | .sett => 35 | .swc => 36 | .lsc => 37 | .tpt => 38 | .col => 39 | .plans => 40 | .tfb => 41
  | .ash => 42 | .line => 43 | .flt => 44 | .lanes => 45 | .outer => 46 | .rig => 47 | .kmc => 48 | .view => 49
  | .free => 50 | .out => 51 | .bytes => 52 | .counters => 53

/-- What a byte of memory reads as depends on these tables only. -/
def MemState.sameBytes (m n : MemState) : Prop :=
  n.cells = m.cells ∧ n.keys = m.keys ∧ n.zeroed = m.zeroed ∧ n.opened = m.opened

/-- A part is the same, with memory compared by its tables. -/
def Part.kept (s t : State) : Part → Prop
  | .bytes => s.mem.sameBytes t.mem
  | p => p.same s t

/-- Only the parts in the mask differ; the queue is the same; the invariants pass on. -/
structure Fr (X : Nat) (s t : State) : Prop where
  parts : ∀ p : Part, X.testBit p.bit = false → p.kept s t
  pending : t.pending = s.pending
  time : s.TimeOk → t.TimeOk
  mem : s.MemOk → t.MemOk

/-- One mask lies within another. -/
def Sub (F X : Nat) : Prop := F &&& X = F

theorem Sub.refl (X : Nat) : Sub X X := Nat.and_self X

theorem Sub.bit {F X i : Nat} (h : Sub F X) (hi : F.testBit i = true) : X.testBit i = true := by
  have := congrArg (fun n => Nat.testBit n i) h
  simp only [Nat.testBit_land, hi, Bool.true_and] at this
  exact this

theorem Sub.trans {G F X : Nat} (h : Sub G F) (k : Sub F X) : Sub G X := by
  unfold Sub at *
  rw [← h, Nat.and_assoc, k]

/-- A mask within a mask that lies within `X`. -/
theorem Sub.after {G F X : Nat} (k : Sub F X) (h : Nat.beq (Nat.land G F) G = true) : Sub G X :=
  Sub.trans (Nat.eq_of_beq_eq_true h) k

theorem Sub.off {F X i : Nat} (h : Sub F X) (hi : X.testBit i = false) : F.testBit i = false := by
  by_contra hf
  have := h.bit (by simpa using hf)
  simp [this] at hi

/-- Every register of a block lies within the mask: its own part, and the event counters where it has them. -/
def okBlk (X : Nat) (b : Blk) : Bool := X.testBit (blkCode b) && ((b != .mgt && b != .evr) || X.testBit 53)

theorem Sub.ok {F X : Nat} {b : Blk} (h : Sub F X) (hF : okBlk F b = true) : okBlk X b = true := by
  unfold okBlk at *
  rw [Bool.and_eq_true, Bool.or_eq_true] at *
  exact ⟨h.bit hF.1, hF.2.imp id h.bit⟩

/-- A mask of all register blocks holds the bit of each. -/
theorem Sub.blk {F X : Nat} (h : Sub F X) (hF : Nat.beq (Nat.land 0x20000003FFFFFF F) 0x20000003FFFFFF = true) (b : Blk) :
    okBlk X b = true := by
  refine (h.after hF).ok ?_
  cases b <;> rfl

/-- An entry of a register array stands in the array's block. -/
theorem Sub.nth {X : Nat} {f : Fld} {n : Nat} (h : okBlk X f.blk = true) :
    okBlk X (f.nth n).blk = true := h

theorem Sub.key {X : Nat} {f : Fld} {n : Nat} (h : okBlk X f.blk = true) :
    okBlk X (f.key n).blk = true := h

theorem Sub.ite {X : Nat} {c : Prop} [Decidable c] {f g : Fld} (h : okBlk X f.blk = true)
    (k : okBlk X g.blk = true) : okBlk X (if c then f else g).blk = true := by
  by_cases hc : c
  · rw [if_pos hc]; exact h
  · rw [if_neg hc]; exact k

theorem Part.kept_refl (s : State) (p : Part) : p.kept s s := by
  cases p <;> simp [Part.kept, Part.same, MemState.sameBytes]

theorem Part.kept_trans {s t u : State} {p : Part} (h : p.kept s t) (k : p.kept t u) : p.kept s u := by
  cases p with
  | regs b => exact fun off inst hc => (k off inst hc).trans (h off inst hc)
  | counters => exact fun b off inst hc => (k b off inst hc).trans (h b off inst hc)
  | setup => exact ⟨k.1.trans h.1, k.2.trans h.2⟩
  | bytes => exact ⟨k.1.trans h.1, k.2.1.trans h.2.1, k.2.2.1.trans h.2.2.1, k.2.2.2.trans h.2.2.2⟩
  | _ => exact Eq.trans k h

theorem Part.same_of_kept {s t : State} {p : Part} (h : p.kept s t) : p.same s t := by
  cases p with
  | bytes =>
    obtain ⟨h1, h2, h3, h4⟩ := h
    intro k a
    unfold State.memByte State.unlisted MemState.openDraw
    rw [h1, h2, h3, h4]
  | _ => exact h

theorem Fr.refl (X : Nat) (s : State) : Fr X s s := ⟨fun p _ => p.kept_refl s, rfl, id, id⟩

theorem Fr.trans {X : Nat} {s t u : State} (h : Fr X s t) (k : Fr X t u) : Fr X s u :=
  ⟨fun p hp => Part.kept_trans (h.parts p hp) (k.parts p hp), k.pending.trans h.pending, k.time ∘ h.time, k.mem ∘ h.mem⟩

/-- A smaller mask says more. -/
theorem Fr.weaken {F X : Nat} {s t : State} (h : Fr F s t) (hX : Sub F X) : Fr X s t :=
  ⟨fun p hp => h.parts p (hX.off hp), h.pending, h.time, h.mem⟩

/-- A frame of the machine as a frame of the statements. -/
theorem Fr.sameBut {X : Nat} {s t : State} {ps : List Part} (h : Fr X s t)
    (hp : ∀ p : Part, X.testBit p.bit = true → p ∈ ps) : SameBut ps s t := by
  intro p hn
  refine Part.same_of_kept (h.parts p ?_)
  by_contra hb
  exact hn (hp p (by simpa using hb))

/-- Every part there is. -/
theorem Part.mem_everyPart (p : Part) : p ∈ everyPart := by
  cases p with
  | regs b => cases b <;> decide
  | _ => decide

/-- A mask whose parts all stand in a list, checked part by part. -/
theorem Fr.within {X : Nat} {s t : State} {ps : List Part} (h : Fr X s t)
    (k : everyPart.all (fun p => !X.testBit p.bit || decide (p ∈ ps)) = true) : SameBut ps s t :=
  h.sameBut fun p hp => by
    have := List.all_eq_true.mp k p p.mem_everyPart
    simpa [hp] using this

theorem Fr.inv {X : Nat} {s t : State} (h : Fr X s t) (hi : s.Inv) : t.Inv := ⟨h.time hi.time, h.mem hi.mem⟩

/-! ### Shapes of a definition -/

section
variable {X : Nat} {s0 : State}

theorem Fr.cut {s : State} {P : Prop} (h : Fr X s0 s) (k : Fr X s0 s → P) : P := k h

/-- A local function on states keeps the frame wherever it is used. -/
theorem Fr.cut_fn {f : State → State} {P : Prop} (h : ∀ s, Fr X s0 s → Fr X s0 (f s))
    (k : (∀ s, Fr X s0 s → Fr X s0 (f s)) → P) : P := k h

theorem Fr.cut_fn2 {α : Sort _} {f : State → α → State} {P : Prop} (h : ∀ s a, Fr X s0 s → Fr X s0 (f s a))
    (k : (∀ s a, Fr X s0 s → Fr X s0 (f s a)) → P) : P := k h

theorem Fr.cut_fn3 {α : Sort _} {f : α → State → State} {P : Prop} (h : ∀ a s, Fr X s0 s → Fr X s0 (f a s))
    (k : (∀ a s, Fr X s0 s → Fr X s0 (f a s)) → P) : P := k h

/-- A local function that hands its state to a continuation. -/
theorem Fr.cut_fn4 {α : Sort _} {f : State → (α → State → State) → State} {P : Prop}
    (h : ∀ s k, Fr X s0 s → (∀ a s, Fr X s0 s → Fr X s0 (k a s)) → Fr X s0 (f s k))
    (k : (∀ s k, Fr X s0 s → (∀ a s, Fr X s0 s → Fr X s0 (k a s)) → Fr X s0 (f s k)) → P) : P := k h

theorem Fr.cut_fn5 {α : Type _} {f : State → α × State} {P : Prop} (h : ∀ s, Fr X s0 s → Fr X s0 (f s).2)
    (k : (∀ s, Fr X s0 s → Fr X s0 (f s).2) → P) : P := k h

theorem Fr.cut_fn6 {α β : Sort _} {f : State → α → β → State} {P : Prop}
    (h : ∀ s a b, Fr X s0 s → Fr X s0 (f s a b)) (k : (∀ s a b, Fr X s0 s → Fr X s0 (f s a b)) → P) : P := k h

/-- A local function that folds over a value beside the state. -/
theorem Fr.cut_fn7 {α β : Type _} {f : β × State → α → β × State} {P : Prop}
    (h : ∀ x a, Fr X s0 x.2 → Fr X s0 (f x a).2) (k : (∀ x a, Fr X s0 x.2 → Fr X s0 (f x a).2) → P) : P := k h

theorem Fr.cut_snd {α : Type _} {e : α × State} {P : Prop} (h : Fr X s0 e.2) (k : Fr X s0 e.2 → P) : P := k h

theorem Fr.cut_fst {α : Type _} {e : State × α} {P : Prop} (h : Fr X s0 e.1) (k : Fr X s0 e.1 → P) : P := k h

theorem Fr.cut_opt {e : Option State} {P : Prop} (h : ∀ t, e = some t → Fr X s0 t)
    (k : (∀ t, e = some t → Fr X s0 t) → P) : P := k h

theorem Fr.cut_opt2 {α : Type _} {e : Option (α × State)} {P : Prop} (h : ∀ a t, e = some (a, t) → Fr X s0 t)
    (k : (∀ a t, e = some (a, t) → Fr X s0 t) → P) : P := k h

theorem Fr.cut_opt3 {α β : Type _} {e : Option (α × β × State)} {P : Prop}
    (h : ∀ a b t, e = some (a, b, t) → Fr X s0 t) (k : (∀ a b t, e = some (a, b, t) → Fr X s0 t) → P) : P := k h

theorem Fr.cut_run {e : GroupRun} {P : Prop} (h : Fr X s0 e.s) (k : Fr X s0 e.s → P) : P := k h

theorem Fr.of_run {α : Type} {e : α × GroupRun} {a : α} {g : GroupRun} (h : e = (a, g)) (k : Fr X s0 e.2.s) :
    Fr X s0 g.s := by
  subst h; exact k

theorem Fr.foldl_run {α : Type} {f : GroupRun → α → GroupRun} {g : GroupRun} {l : List α} (h : Fr X s0 g.s)
    (k : ∀ g a, Fr X s0 g.s → Fr X s0 (f g a).s) : Fr X s0 (l.foldl f g).s := by
  induction l generalizing g with
  | nil => exact h
  | cons a t ih => exact ih (k g a h)

theorem Fr.of_run2 {α β : Type} {e : α × β × GroupRun} {a : α} {b : β} {g : GroupRun} (h : e = (a, b, g))
    (k : Fr X s0 e.2.2.s) : Fr X s0 g.s := by
  subst h; exact k

theorem Fr.foldl_snd_run {α β : Type} {f : β × GroupRun → α → β × GroupRun} {x : β × GroupRun} {l : List α}
    (h : Fr X s0 x.2.s) (k : ∀ x a, Fr X s0 x.2.s → Fr X s0 (f x a).2.s) : Fr X s0 (l.foldl f x).2.s := by
  induction l generalizing x with
  | nil => exact h
  | cons a t ih => exact ih (k x a h)

theorem Sub.cut {f : Fld} {P : Prop} (h : okBlk X f.blk = true)
    (k : okBlk X f.blk = true → P) : P := k h

theorem Fr.getD {e : Option State} {d : State} (h : ∀ t, e = some t → Fr X s0 t) (k : Fr X s0 d) :
    Fr X s0 (e.getD d) := by
  cases e with
  | none => exact k
  | some t => exact h t rfl

theorem Fr.foldl {α : Type} {f : State → α → State} {s : State} {l : List α} (h : Fr X s0 s)
    (k : ∀ s a, Fr X s0 s → Fr X s0 (f s a)) : Fr X s0 (l.foldl f s) := by
  induction l generalizing s with
  | nil => exact h
  | cons a t ih => exact ih (k s a h)

theorem Fr.foldl_fst {α β : Type} {f : State × β → α → State × β} {x : State × β} {l : List α} (h : Fr X s0 x.1)
    (k : ∀ x a, Fr X s0 x.1 → Fr X s0 (f x a).1) : Fr X s0 (l.foldl f x).1 := by
  induction l generalizing x with
  | nil => exact h
  | cons a t ih => exact ih (k x a h)

theorem Fr.foldl_snd {α β : Type} {f : β × State → α → β × State} {x : β × State} {l : List α} (h : Fr X s0 x.2)
    (k : ∀ x a, Fr X s0 x.2 → Fr X s0 (f x a).2) : Fr X s0 (l.foldl f x).2 := by
  induction l generalizing x with
  | nil => exact h
  | cons a t ih => exact ih (k x a h)

theorem Fr.ite {c : Prop} [Decidable c] {s t : State} (h : c → Fr X s0 s) (k : ¬c → Fr X s0 t) :
    Fr X s0 (if c then s else t) := by
  by_cases hc : c
  · rw [if_pos hc]; exact h hc
  · rw [if_neg hc]; exact k hc

theorem Fr.of_snd {α : Type} {e : α × State} {a : α} {s : State} (h : e = (a, s)) (k : Fr X s0 e.2) : Fr X s0 s := by
  subst h; exact k

theorem Fr.of_fst {α : Type} {e : State × α} {a : α} {s : State} (h : e = (s, a)) (k : Fr X s0 e.1) : Fr X s0 s := by
  subst h; exact k

/-! ### One part replaced -/

theorem Fr.put {s t : State} (h : Fr X s0 s) (i : Nat) (hX : X.testBit i = true)
    (hp : ∀ p : Part, p.bit ≠ i → p.kept s t) (hq : t.pending = s.pending) (ht : s.TimeOk → t.TimeOk)
    (hm : s.MemOk → t.MemOk) : Fr X s0 t := by
  refine h.trans ⟨fun p hb => hp p fun e => ?_, hq, ht, hm⟩
  rw [e, hX] at hb
  exact Bool.noConfusion hb

theorem Fr.boot_ {s : State} {v : _} (h : Fr X s0 s) (hX : X.testBit 27 = true) :
    Fr X s0 { s with boot := v } :=
  h.put 27 hX (fun p hp => by cases p <;> first
    | exact (hp rfl).elim | rfl | exact ⟨rfl, rfl⟩ | exact fun _ _ _ => rfl | exact fun _ _ _ _ => rfl | exact ⟨rfl, rfl, rfl, rfl⟩) rfl id id

theorem Fr.mgmt_ {s : State} {v : _} (h : Fr X s0 s) (hX : X.testBit 28 = true) :
    Fr X s0 { s with mgmt := v } :=
  h.put 28 hX (fun p hp => by cases p <;> first
    | exact (hp rfl).elim | rfl | exact ⟨rfl, rfl⟩ | exact fun _ _ _ => rfl | exact fun _ _ _ _ => rfl | exact ⟨rfl, rfl, rfl, rfl⟩) rfl id id

theorem Fr.evr_ {s : State} {v : _} (h : Fr X s0 s) (hX : X.testBit 29 = true) :
    Fr X s0 { s with evr := v } :=
  h.put 29 hX (fun p hp => by cases p <;> first
    | exact (hp rfl).elim | rfl | exact ⟨rfl, rfl⟩ | exact fun _ _ _ => rfl | exact fun _ _ _ _ => rfl | exact ⟨rfl, rfl, rfl, rfl⟩) rfl id id

theorem Fr.hif_ {s : State} {v : _} (h : Fr X s0 s) (hX : X.testBit 30 = true) :
    Fr X s0 { s with hif := v } :=
  h.put 30 hX (fun p hp => by cases p <;> first
    | exact (hp rfl).elim | rfl | exact ⟨rfl, rfl⟩ | exact fun _ _ _ => rfl | exact fun _ _ _ _ => rfl | exact ⟨rfl, rfl, rfl, rfl⟩) rfl id id

theorem Fr.cox_ {s : State} {v : _} (h : Fr X s0 s) (hX : X.testBit 31 = true) :
    Fr X s0 { s with cox := v } :=
  h.put 31 hX (fun p hp => by cases p <;> first
    | exact (hp rfl).elim | rfl | exact ⟨rfl, rfl⟩ | exact fun _ _ _ => rfl | exact fun _ _ _ _ => rfl | exact ⟨rfl, rfl, rfl, rfl⟩) rfl id id

theorem Fr.power_ {s : State} {v : _} (h : Fr X s0 s) (hX : X.testBit 34 = true) :
    Fr X s0 { s with power := v } :=
  h.put 34 hX (fun p hp => by cases p <;> first
    | exact (hp rfl).elim | rfl | exact ⟨rfl, rfl⟩ | exact fun _ _ _ => rfl | exact fun _ _ _ _ => rfl | exact ⟨rfl, rfl, rfl, rfl⟩) rfl id id

theorem Fr.sett_ {s : State} {v : _} (h : Fr X s0 s) (hX : X.testBit 35 = true) :
    Fr X s0 { s with sett := v } :=
  h.put 35 hX (fun p hp => by cases p <;> first
    | exact (hp rfl).elim | rfl | exact ⟨rfl, rfl⟩ | exact fun _ _ _ => rfl | exact fun _ _ _ _ => rfl | exact ⟨rfl, rfl, rfl, rfl⟩) rfl id id

theorem Fr.swc_ {s : State} {v : _} (h : Fr X s0 s) (hX : X.testBit 36 = true) :
    Fr X s0 { s with swc := v } :=
  h.put 36 hX (fun p hp => by cases p <;> first
    | exact (hp rfl).elim | rfl | exact ⟨rfl, rfl⟩ | exact fun _ _ _ => rfl | exact fun _ _ _ _ => rfl | exact ⟨rfl, rfl, rfl, rfl⟩) rfl id id

theorem Fr.lsc_ {s : State} {v : _} (h : Fr X s0 s) (hX : X.testBit 37 = true) :
    Fr X s0 { s with lsc := v } :=
  h.put 37 hX (fun p hp => by cases p <;> first
    | exact (hp rfl).elim | rfl | exact ⟨rfl, rfl⟩ | exact fun _ _ _ => rfl | exact fun _ _ _ _ => rfl | exact ⟨rfl, rfl, rfl, rfl⟩) rfl id id

theorem Fr.tpt_ {s : State} {v : _} (h : Fr X s0 s) (hX : X.testBit 38 = true) :
    Fr X s0 { s with tpt := v } :=
  h.put 38 hX (fun p hp => by cases p <;> first
    | exact (hp rfl).elim | rfl | exact ⟨rfl, rfl⟩ | exact fun _ _ _ => rfl | exact fun _ _ _ _ => rfl | exact ⟨rfl, rfl, rfl, rfl⟩) rfl id id

theorem Fr.col_ {s : State} {v : _} (h : Fr X s0 s) (hX : X.testBit 39 = true) :
    Fr X s0 { s with col := v } :=
  h.put 39 hX (fun p hp => by cases p <;> first
    | exact (hp rfl).elim | rfl | exact ⟨rfl, rfl⟩ | exact fun _ _ _ => rfl | exact fun _ _ _ _ => rfl | exact ⟨rfl, rfl, rfl, rfl⟩) rfl id id

theorem Fr.plans_ {s : State} {v : _} (h : Fr X s0 s) (hX : X.testBit 40 = true) :
    Fr X s0 { s with plans := v } :=
  h.put 40 hX (fun p hp => by cases p <;> first
    | exact (hp rfl).elim | rfl | exact ⟨rfl, rfl⟩ | exact fun _ _ _ => rfl | exact fun _ _ _ _ => rfl | exact ⟨rfl, rfl, rfl, rfl⟩) rfl id id

theorem Fr.tfb_ {s : State} {v : _} (h : Fr X s0 s) (hX : X.testBit 41 = true) :
    Fr X s0 { s with tfb := v } :=
  h.put 41 hX (fun p hp => by cases p <;> first
    | exact (hp rfl).elim | rfl | exact ⟨rfl, rfl⟩ | exact fun _ _ _ => rfl | exact fun _ _ _ _ => rfl | exact ⟨rfl, rfl, rfl, rfl⟩) rfl id id

theorem Fr.ash_ {s : State} {v : _} (h : Fr X s0 s) (hX : X.testBit 42 = true) :
    Fr X s0 { s with ash := v } :=
  h.put 42 hX (fun p hp => by cases p <;> first
    | exact (hp rfl).elim | rfl | exact ⟨rfl, rfl⟩ | exact fun _ _ _ => rfl | exact fun _ _ _ _ => rfl | exact ⟨rfl, rfl, rfl, rfl⟩) rfl id id

theorem Fr.line_ {s : State} {v : _} (h : Fr X s0 s) (hX : X.testBit 43 = true) :
    Fr X s0 { s with line := v } :=
  h.put 43 hX (fun p hp => by cases p <;> first
    | exact (hp rfl).elim | rfl | exact ⟨rfl, rfl⟩ | exact fun _ _ _ => rfl | exact fun _ _ _ _ => rfl | exact ⟨rfl, rfl, rfl, rfl⟩) rfl id id

theorem Fr.flt_ {s : State} {v : _} (h : Fr X s0 s) (hX : X.testBit 44 = true) :
    Fr X s0 { s with flt := v } :=
  h.put 44 hX (fun p hp => by cases p <;> first
    | exact (hp rfl).elim | rfl | exact ⟨rfl, rfl⟩ | exact fun _ _ _ => rfl | exact fun _ _ _ _ => rfl | exact ⟨rfl, rfl, rfl, rfl⟩) rfl id id

theorem Fr.lanes_ {s : State} {v : _} (h : Fr X s0 s) (hX : X.testBit 45 = true) :
    Fr X s0 { s with lanes := v } :=
  h.put 45 hX (fun p hp => by cases p <;> first
    | exact (hp rfl).elim | rfl | exact ⟨rfl, rfl⟩ | exact fun _ _ _ => rfl | exact fun _ _ _ _ => rfl | exact ⟨rfl, rfl, rfl, rfl⟩) rfl id id

theorem Fr.outer_ {s : State} {v : _} (h : Fr X s0 s) (hX : X.testBit 46 = true) :
    Fr X s0 { s with outer := v } :=
  h.put 46 hX (fun p hp => by cases p <;> first
    | exact (hp rfl).elim | rfl | exact ⟨rfl, rfl⟩ | exact fun _ _ _ => rfl | exact fun _ _ _ _ => rfl | exact ⟨rfl, rfl, rfl, rfl⟩) rfl id id

theorem Fr.rig_ {s : State} {v : _} (h : Fr X s0 s) (hX : X.testBit 47 = true) :
    Fr X s0 { s with rig := v } :=
  h.put 47 hX (fun p hp => by cases p <;> first
    | exact (hp rfl).elim | rfl | exact ⟨rfl, rfl⟩ | exact fun _ _ _ => rfl | exact fun _ _ _ _ => rfl | exact ⟨rfl, rfl, rfl, rfl⟩) rfl id id

theorem Fr.kmc_ {s : State} {v : _} (h : Fr X s0 s) (hX : X.testBit 48 = true) :
    Fr X s0 { s with kmc := v } :=
  h.put 48 hX (fun p hp => by cases p <;> first
    | exact (hp rfl).elim | rfl | exact ⟨rfl, rfl⟩ | exact fun _ _ _ => rfl | exact fun _ _ _ _ => rfl | exact ⟨rfl, rfl, rfl, rfl⟩) rfl id id

theorem Fr.view_ {s : State} {v : _} (h : Fr X s0 s) (hX : X.testBit 49 = true) :
    Fr X s0 { s with view := v } :=
  h.put 49 hX (fun p hp => by cases p <;> first
    | exact (hp rfl).elim | rfl | exact ⟨rfl, rfl⟩ | exact fun _ _ _ => rfl | exact fun _ _ _ _ => rfl | exact ⟨rfl, rfl, rfl, rfl⟩) rfl id id

theorem Fr.free_ {s : State} {v : _} (h : Fr X s0 s) (hX : X.testBit 50 = true) :
    Fr X s0 { s with free := v } :=
  h.put 50 hX (fun p hp => by cases p <;> first
    | exact (hp rfl).elim | rfl | exact ⟨rfl, rfl⟩ | exact fun _ _ _ => rfl | exact fun _ _ _ _ => rfl | exact ⟨rfl, rfl, rfl, rfl⟩) rfl id id

theorem Fr.out_ {s : State} {v : _} (h : Fr X s0 s) (hX : X.testBit 51 = true) :
    Fr X s0 { s with out := v } :=
  h.put 51 hX (fun p hp => by cases p <;> first
    | exact (hp rfl).elim | rfl | exact ⟨rfl, rfl⟩ | exact fun _ _ _ => rfl | exact fun _ _ _ _ => rfl | exact ⟨rfl, rfl, rfl, rfl⟩) rfl id id

theorem Fr.time_ {s : State} {v : TimeState} (h : Fr X s0 s) (hX : X.testBit 33 = true)
    (hv : s.TimeOk → v.ns < 1000000000 ∧ v.sec < 2 ^ 48 ∧ v.frac < 2 ^ 32) : Fr X s0 { s with time := v } :=
  h.put 33 hX (fun p hp => by cases p <;> first
    | exact (hp rfl).elim | rfl | exact ⟨rfl, rfl⟩ | exact fun _ _ _ => rfl | exact fun _ _ _ _ => rfl | exact ⟨rfl, rfl, rfl, rfl⟩) rfl hv id

/-- Tables of memory other than its bytes. -/
theorem Fr.mem_ {s : State} {v : MemState} (h : Fr X s0 s) (hX : X.testBit 32 = true) (hv : s.mem.sameBytes v) :
    Fr X s0 { s with mem := v } :=
  h.put 32 hX (fun p hp => by
    cases p <;> first | exact hv | exact (hp rfl).elim | rfl | exact ⟨rfl, rfl⟩ | exact fun _ _ _ => rfl | exact fun _ _ _ _ => rfl) rfl id
    (fun hm => by unfold State.MemOk at *; rw [hv.1]; exact hm)

/-- Memory's bytes and tables. -/
theorem Fr.bytes_ {s : State} {v : MemState} (h : Fr X s0 s) (hX : X.testBit 32 = true) (hY : X.testBit 52 = true)
    (hv : Memory.wf s.mem.cells = true → Memory.wf v.cells = true) : Fr X s0 { s with mem := v } := by
  refine h.trans ⟨fun p hp => ?_, rfl, id, hv⟩
  cases p with
  | mem => exact absurd (hX.symm.trans hp) (by decide)
  | bytes => exact absurd (hY.symm.trans hp) (by decide)
  | regs b => exact fun _ _ _ => rfl
  | counters => exact fun _ _ _ _ => rfl
  | setup => exact ⟨rfl, rfl⟩
  | _ => rfl

theorem Fr.setup_ {s : State} {sh : AMap RegKey Word} {po : AMap (View × Blk) CommitPort} (h : Fr X s0 s)
    (hX : X.testBit 26 = true) : Fr X s0 { s with regs := { s.regs with shadow := sh, ports := po } } :=
  h.put 26 hX (fun p hp => by cases p <;> first
    | exact (hp rfl).elim | rfl | exact ⟨rfl, rfl⟩ | exact fun _ _ _ => rfl | exact fun _ _ _ _ => rfl | exact ⟨rfl, rfl, rfl, rfl⟩) rfl id id

/-! ### Registers -/

theorem State.setReg_fr {s : State} {k : RegKey} {w : Word} (h : Fr X s0 s) (hX : okBlk X k.blk = true) :
    Fr X s0 (s.setReg k w) := by
  unfold okBlk at hX
  rw [Bool.and_eq_true, Bool.or_eq_true] at hX
  have other : ∀ k', k' ≠ k → (s.setReg k w).reg k' = s.reg k' := fun k' hk => by
    simp only [State.reg, State.setReg]
    rw [AMap.find_put_ne _ _ _ _ hk]
  refine h.trans ⟨fun p hp => ?_, rfl, id, id⟩
  cases p with
  | regs b =>
    intro off inst _
    exact other _ fun e => absurd (hp.symm.trans (by subst e; exact hX.1)) (by decide)
  | counters =>
    intro b off inst hc
    refine other _ fun e => ?_
    rcases hX.2 with h2 | h2
    · subst e
      unfold countsEvents at hc
      revert hc h2
      cases b <;> simp
    · exact absurd (hp.symm.trans h2) (by decide)
  | setup => exact ⟨rfl, rfl⟩
  | bytes => exact ⟨rfl, rfl, rfl, rfl⟩
  | _ => rfl

/-- A count of events is a counter's alone. -/
theorem State.count_fr {s : State} {f : Fld} {inst n : Nat} (h : Fr X s0 s) (hX : X.testBit 53 = true)
    (hf : countsEvents f.blk f.off = true) : Fr X s0 (s.bump f inst n) := by
  have other : ∀ k', k' ≠ f.key inst → (s.bump f inst n).reg k' = s.reg k' := fun k' hk => by
    simp only [State.reg, State.setReg, State.bump, State.setFld]
    rw [AMap.find_put_ne _ _ _ _ hk]
  refine h.trans ⟨fun p hp => ?_, rfl, id, id⟩
  cases p with
  | regs b =>
    intro off i hc
    refine other _ fun e => ?_
    have : countsEvents b off = true := by
      have := congrArg (fun k : RegKey => countsEvents k.blk k.off) e
      exact this.trans hf
    exact absurd (hc.symm.trans this) (by decide)
  | counters => exact absurd (hp.symm.trans hX) (by decide)
  | setup => exact ⟨rfl, rfl⟩
  | bytes => exact ⟨rfl, rfl, rfl, rfl⟩
  | _ => rfl

theorem State.setFld_fr {s : State} {f : Fld} {inst v : Nat} (h : Fr X s0 s) (hX : okBlk X f.blk = true) :
    Fr X s0 (s.setFld f inst v) := State.setReg_fr h hX

theorem State.setFlag_fr {s : State} {f : Fld} {inst : Nat} {b : Bool} (h : Fr X s0 s)
    (hX : okBlk X f.blk = true) : Fr X s0 (s.setFlag f inst b) := State.setFld_fr h hX

theorem State.bump_fr {s : State} {f : Fld} {inst n : Nat} (h : Fr X s0 s)
    (hX : okBlk X f.blk = true) : Fr X s0 (s.bump f inst n) := State.setFld_fr h hX

theorem State.bumpWrap_fr {s : State} {f : Fld} {inst n : Nat} (h : Fr X s0 s)
    (hX : okBlk X f.blk = true) : Fr X s0 (s.bumpWrap f inst n) := State.setFld_fr h hX

theorem Sub.mgc {X n : Nat} (h : okBlk X .mgt = true) : okBlk X (mgcRole n).blk = true := by
  unfold mgcRole; exact Sub.ite h h

theorem State.writeShadow_fr {s : State} {v : View} {b : Blk} {off : Nat} {w : Word} (h : Fr X s0 s)
    (hX : X.testBit 26 = true) : Fr X s0 (s.setShadow v b off w) := Fr.setup_ h hX

theorem State.writePort_fr {s : State} {v : View} {b : Blk} {f : CommitPort → CommitPort} (h : Fr X s0 s)
    (hX : X.testBit 26 = true) : Fr X s0 (s.onPort v b f) := Fr.setup_ h hX

theorem State.writeOwn_fr {s : State} {v : View} {b : Blk} {off : Nat} {d : RegDef} {w : Word}
    (h : Fr X s0 s) (hb2 : okBlk X b = true) (hX : Sub 0x4000000 X) :
    Fr X s0 (State.writeOwn s v b off d w) := by
  have key : Fr X s0 (if d.fields.any actsAtOnce
      then s.setReg ⟨b, off, s.instOf b d⟩ (BitVec.ofNat 32 (writeFields d.fields actsAtOnce
        (s.reg ⟨b, off, s.instOf b d⟩).toNat w.toNat)) else s) := by
    split
    · exact State.setReg_fr h hb2
    · exact h
  unfold State.writeOwn
  split
  · dsimp only
    split
    · exact State.writeShadow_fr key (hX.bit rfl)
    · exact key
  · exact State.writePort_fr h (hX.bit rfl)

theorem State.histClearAll_reg (s : State) (k : RegKey) (h : k.blk ≠ .tms) : s.histClearAll.reg k = s.reg k := by
  have key : ∀ m : AMap RegKey Word, AMap.find (m.filter fun p => !(p.1.blk == .tms && p.1.off == 0x314)) k
      = AMap.find m k := by
    intro m
    induction m with
    | nil => rfl
    | cons x t ih =>
      obtain ⟨k', v⟩ := x
      by_cases hk : k' = k
      · subst hk
        simp [h, AMap.find]
      · by_cases hf : (!(k'.blk == .tms && k'.off == 0x314)) = true
        · simp only [List.filter_cons, hf, if_true, AMap.find, hk, if_false, ih]
        · have hf' : (!(k'.blk == .tms && k'.off == 0x314)) = false := by simpa using hf
          rw [List.filter_cons_of_neg (by simpa using hf')]
          simp only [AMap.find, hk, if_false]
          exact ih
  simp only [State.reg, State.histClearAll]
  rw [key s.regs.live]

theorem State.histClearAll_fr {s : State} (h : Fr X s0 s) (hX : X.testBit 8 = true) : Fr X s0 s.histClearAll := by
  refine h.put 8 hX (fun p hp => ?_) rfl id id
  cases p with
  | regs b => exact fun off inst _ => s.histClearAll_reg _ (by rintro ⟨⟩; exact hp rfl)
  | counters => exact fun b off inst hc => s.histClearAll_reg _ (by rintro ⟨⟩; exact absurd hc (by simp [countsEvents]))
  | setup => exact ⟨rfl, rfl⟩
  | bytes => exact ⟨rfl, rfl, rfl, rfl⟩
  | _ => rfl

/-! ### Memory -/

theorem State.onMem_fr {s : State} {f : MemState → MemState} (h : Fr X s0 s) (hX : Sub 0x100000000 X)
    (hf : ∀ m, MemState.sameBytes m (f m)) : Fr X s0 (s.onMem f) := Fr.mem_ h (hX.bit rfl) (hf s.mem)

theorem State.onMem_bytes {s : State} {f : MemState → MemState} (h : Fr X s0 s) (hX : Sub 0x10000100000000 X)
    (hf : ∀ m : MemState, Memory.wf m.cells = true → Memory.wf (f m).cells = true) : Fr X s0 (s.onMem f) :=
  Fr.bytes_ h (hX.bit rfl) (hX.bit rfl) (hf s.mem)

theorem State.fresh_keeps {s : State} (h : Fr X s0 s) (hX : X.testBit 50 = true) : Fr X s0 s.fresh.2 := Fr.free_ h hX

theorem State.openUnit_fr {s : State} {k : MemKey} {u : Nat} (h : Fr X s0 s) (hX : Sub 0x10000100000000 X) :
    Fr X s0 (s.openUnit k u) := by
  refine State.onMem_bytes h hX fun m hm => ?_
  have hc := Memory.wf_clear m.cells (u * 64) 64 hm
  dsimp only
  split
  · split
    · exact hm
    · exact hc
  · split
    · exact MemState.wf_spellZeros _ _ _ hc
    · exact hc

theorem State.memWrite1_fr {s : State} {k : MemKey} {a : Nat} {x : Byte} (h : Fr X s0 s)
    (hX : Sub 0x10000100000000 X) : Fr X s0 (s.memWrite1 k a x) :=
  State.onMem_bytes (State.openUnit_fr h hX) hX fun _ hm => Memory.wf_set _ _ _ hm

theorem State.openRange_fr {s : State} {a n : Nat} (h : Fr X s0 s) (hX : Sub 0x14000100000000 X) :
    Fr X s0 (s.openRange a n) := by
  unfold State.openRange
  exact State.onMem_bytes (State.fresh_keeps h (hX.bit rfl)) (hX.after rfl) fun _ hm => Memory.wf_clear _ _ _ hm

/-! ### The counter -/

theorem TimeState.ofTotal_ok (t : TimeState) (n : Nat) :
    (t.ofTotal n).ns < 1000000000 ∧ (t.ofTotal n).sec < 2 ^ 48 ∧ (t.ofTotal n).frac < 2 ^ 32 := by
  refine ⟨Nat.mod_lt _ (by omega), ?_, Nat.mod_lt _ (by omega)⟩
  have h : n % timeRange < timeRange := Nat.mod_lt _ (by unfold timeRange; omega)
  show n % timeRange / 2 ^ 32 / 1000000000 < 2 ^ 48
  unfold timeRange at *
  omega

theorem State.tick_fr {s : State} (h : Fr X s0 s) (hX : Sub 0x200000000 X) : Fr X s0 s.tick := by
  unfold State.tick
  split
  · exact h
  · exact Fr.time_ h (hX.bit rfl) fun _ => TimeState.ofTotal_ok s.time (s.time.total + s.inc)

theorem State.addDelta_fr {s : State} {d : Int} (h : Fr X s0 s) (hX : Sub 0x200000000 X) : Fr X s0 (s.addDelta d) :=
  Fr.time_ h (hX.bit rfl) fun _ => TimeState.ofTotal_ok s.time _

theorem State.ppsRise_fr {s : State} (h : Fr X s0 s) (hX : Sub 0x200000000 X) : Fr X s0 s.ppsRise := by
  unfold State.ppsRise
  split
  · exact Fr.time_ h (hX.bit rfl) fun ht => ht
  · exact h

theorem State.ppsEdge_fr {s : State} (h : Fr X s0 s) (hX : Sub 0x200200000 X) : Fr X s0 s.ppsEdge := by
  have key : Fr X s0 { s with time := { s.time with ppsLast := some s.uptimeNs } } :=
    Fr.time_ h (hX.bit rfl) fun ht => ht
  unfold State.ppsEdge
  extract_lets early s1
  by_cases hc : (!s.flag Reg.TIM_PPS_CFG_IN_EN || early) = true
  · rw [if_pos hc]; exact h
  · rw [if_neg hc]
    refine State.bumpWrap_fr (State.setFld_fr (State.setFld_fr key ?_) ?_) ?_ <;> exact hX.ok rfl

theorem State.ptpMessage_fr {s : State} {m : PtpMsg} (h : Fr X s0 s) (hX : Sub 0x8000200200000 X) :
    Fr X s0 (s.ptpMessage m) := by
  have key : Fr X s0 { s with time := { s.time with ptpMasters := withElem s.time.ptpMasters m.port } } :=
    Fr.time_ h (hX.bit rfl) fun ht => ht
  have out : ∀ o, Fr X s0 (s.emit o) := fun _ => Fr.out_ h (hX.bit rfl)
  unfold State.ptpMessage
  by_cases hd : m.domain ≠ s.fld Reg.TIM_PTP_CFG_DOMAIN
  · rw [if_pos hd]; exact h
  · rw [if_neg hd]
    cases m.kind with
    | announce => exact State.setFlag_fr key (hX.ok rfl)
    | sync => exact h
    | other => exact h
    | delayReq => exact Fr.ite (fun _ => out _) fun _ => h
    | pdelayReq => exact Fr.ite (fun _ => out _) fun _ => h

/-! ### The token's nonce -/

theorem State.drawNonce_fr {s : State} (h : Fr X s0 s) (hX : Sub 0x4000010000000 X) : Fr X s0 s.drawNonce :=
  Fr.mgmt_ (Fr.free_ h (hX.bit rfl) : Fr X s0 { s with free := s.free + 32 }) (hX.bit rfl)

/-! ### Power lost -/

theorem State.coldReset_fr {s : State} {rails : List Nat} {bad trip : Bool} (h : Fr X s0 s)
    (hX : Sub 0x3FFFFFFFFFFFFF X) : Fr X s0 (s.coldReset rails bad trip) := by
  refine h.trans ⟨fun p hp => ?_, rfl, fun _ => ⟨by show 0 < _; decide, by show 0 < _; decide, by show 0 < _; decide⟩, fun _ => rfl⟩
  exact absurd ((hX.bit (by cases p <;> first | rfl | (rename_i b; cases b <;> rfl))).symm.trans hp) (by decide)

end

end Sys2Proof.Machine
end

