-- ==== Sys2Proof/Laws/FrameHost.lean ====
section
/-!
SUPPORT. Frames of the operations of Ops.lean, Registers.lean, Flags.lean, Operands.lean, Rings.lean: one lemma each, by backward chaining (Frame.lean).
-/

namespace Sys2Proof.Machine

theorem State.fresh_fr {X : Nat} {s0 : State} {s : State} (h : Fr X s0 s) (hX : Sub 0x4000000000000 X) :
    Fr X s0 (State.fresh s).2 := by
  unfold State.fresh
  repeat' first
    | (with_reducible apply Fr.free_; (on_goal 1 => (first | with_reducible assumption | with_reducible refine Fr.of_snd (by assumption) ?_)))
    | ((with_reducible apply hX.bit); exact rfl)

theorem State.inCore_fr {X : Nat} {s0 : State} {s : State} {a1 : State → State} (h : Fr X s0 s) (hf0 : ∀ x0, Fr X s0 x0 → Fr X s0 (a1 x0)) (hX : Sub 0x0 X) :
    Fr X s0 (State.inCore s a1) := by
  unfold State.inCore
  repeat' first
    | with_reducible assumption
    | with_reducible apply hf0
    | split

theorem State.inAon_fr {X : Nat} {s0 : State} {s : State} {a1 : State → State} (h : Fr X s0 s) (hf0 : ∀ x0, Fr X s0 x0 → Fr X s0 (a1 x0)) (hX : Sub 0x0 X) :
    Fr X s0 (State.inAon s a1) := by
  unfold State.inAon
  repeat' first
    | with_reducible assumption
    | with_reducible apply hf0
    | split

theorem State.emit_fr {X : Nat} {s0 : State} {s : State} {a1 : Out} (h : Fr X s0 s) (hX : Sub 0x8000000000000 X) :
    Fr X s0 (State.emit s a1) := by
  unfold State.emit
  exact Fr.out_ h (hX.bit rfl)

theorem State.setPort_fr {X : Nat} {s0 : State} {s : State} {a1 : View} {a2 : Blk} {a3 : CommitPort} (h : Fr X s0 s) (hX : Sub 0x4000000 X) :
    Fr X s0 (State.setPort s a1 a2 a3) := by
  unfold State.setPort
  exact Fr.setup_ h (hX.bit rfl)

theorem State.onPort_fr {X : Nat} {s0 : State} {s : State} {a1 : View} {a2 : Blk} {a3 : CommitPort → CommitPort} (h : Fr X s0 s) (hX : Sub 0x4000000 X) :
    Fr X s0 (State.onPort s a1 a2 a3) := by
  unfold State.onPort
  repeat' first
    | with_reducible assumption
    | with_reducible apply State.setPort_fr

theorem State.setShadow_fr {X : Nat} {s0 : State} {s : State} {a1 : View} {a2 : Blk} {a3 : ℕ} {a4 : Word} (h : Fr X s0 s) (hX : Sub 0x4000000 X) :
    Fr X s0 (State.setShadow s a1 a2 a3 a4) := by
  unfold State.setShadow
  exact Fr.setup_ h (hX.bit rfl)



theorem State.writeCommon_fr {X : Nat} {s0 : State} {s : State} {a1 : View} {a2 : Blk} {a3 : ℕ} {a4 : Word} (h : Fr X s0 s) (hb2 : okBlk X a2 = true) (hX : Sub 0x4000000 X) :
    Fr X s0 (State.writeCommon s a1 a2 a3 a4) := by
  unfold State.writeCommon
  repeat' first
    | with_reducible assumption
    | with_reducible apply State.setReg_fr
    | with_reducible apply State.onPort_fr
    | split

theorem State.regWrite_fr {X : Nat} {s0 : State} {s : State} {a1 : View} {a2 : ℕ} {a3 : Word} (h : Fr X s0 s) (hX : Sub 0x20000007ffffff X) :
    Fr X s0 (State.regWrite s a1 a2 a3) := by
  unfold State.regWrite
  repeat' first
    | with_reducible assumption
    | ((with_reducible apply hX.after); exact rfl)
    | with_reducible apply State.writeCommon_fr
    | with_reducible apply State.writeOwn_fr
    | split
    | ((with_reducible apply hX.blk); exact rfl)

theorem State.badAccess_fr {X : Nat} {s0 : State} {s : State} {a1 : View} {a2 : ℕ} {a3 : ℕ} {a4 : Bool} {a5 : Bool} (h : Fr X s0 s) (hX : Sub 0x4000000 X) :
    Fr X s0 (State.badAccess s a1 a2 a3 a4 a5) := by
  unfold State.badAccess
  repeat' first
    | with_reducible assumption
    | with_reducible apply State.onPort_fr
    | split

theorem State.commitGo_fr {X : Nat} {s0 : State} {s : State} {a1 : View} {a2 : Blk} (h : Fr X s0 s) (hX : Sub 0x4000000 X) :
    Fr X s0 (State.commitGo s a1 a2) := by
  unfold State.commitGo
  repeat' first
    | with_reducible assumption
    | with_reducible apply State.setPort_fr
    | (extract_lets +onlyGivenNames x; clear_value x)
    | split

theorem State.commitAbandon_fr {X : Nat} {s0 : State} {s : State} {a1 : View} {a2 : Blk} (h : Fr X s0 s) (hX : Sub 0x4000000 X) :
    Fr X s0 (State.commitAbandon s a1 a2) := by
  unfold State.commitAbandon
  repeat' first
    | with_reducible assumption
    | with_reducible apply State.setShadow_fr
    | with_reducible apply Fr.foldl
    | (intro x)
    | (extract_lets +onlyGivenNames x; clear_value x)
    | split

theorem State.setRing_fr {X : Nat} {s0 : State} {s : State} {a1 : ℕ} {a2 : Ring} (h : Fr X s0 s) (hX : Sub 0x40000000 X) :
    Fr X s0 (State.setRing s a1 a2) := by
  unfold State.setRing
  repeat' first
    | (with_reducible apply Fr.hif_; (on_goal 1 => (first | with_reducible assumption | with_reducible refine Fr.of_snd (by assumption) ?_)))
    | ((with_reducible apply hX.bit); exact rfl)

theorem State.msix_fr {X : Nat} {s0 : State} {s : State} {a1 : ℕ} {a2 : ℕ} (h : Fr X s0 s) (hX : Sub 0x8000040000000 X) :
    Fr X s0 (State.msix s a1 a2) := by
  unfold State.msix
  repeat' first
    | with_reducible assumption
    | ((with_reducible apply hX.after); exact rfl)
    | with_reducible apply State.emit_fr
    | (with_reducible apply Fr.hif_; (on_goal 1 => (first | with_reducible assumption | with_reducible apply State.emit_fr | with_reducible refine Fr.of_snd (by assumption) ?_)))
    | (extract_lets +onlyGivenNames x; clear_value x)
    | split
    | ((with_reducible apply hX.bit); exact rfl)

theorem State.msixWrite_fr {X : Nat} {s0 : State} {s : State} {a1 : ℕ} {a2 : ℕ} {a3 : Word} (h : Fr X s0 s) (hX : Sub 0x8000040000000 X) :
    Fr X s0 (State.msixWrite s a1 a2 a3) := by
  unfold State.msixWrite
  repeat' first
    | with_reducible assumption
    | with_reducible apply State.msix_fr
    | (with_reducible apply Fr.hif_; (on_goal 1 => (first | with_reducible assumption | with_reducible apply State.msix_fr | with_reducible refine Fr.of_snd (by assumption) ?_)))
    | (extract_lets +onlyGivenNames x; first
        | (refine Fr.cut (X := X) (s0 := s0) (s := x) ?_ (fun hx => ?_); (on_goal 2 => clear_value x); (on_goal 1 => (unfold x; clear x)))
        | clear_value x)
    | split
    | ((with_reducible apply hX.bit); exact rfl)

theorem State.postTo_fr {X : Nat} {s0 : State} {s : State} {a1 : ℕ} {a2 : ℕ} {a3 : ℕ} {a4 : ℕ} (h : Fr X s0 s) (hX : Sub 0x8000040000000 X) :
    Fr X s0 (State.postTo s a1 a2 a3 a4) := by
  unfold State.postTo
  repeat' first
    | with_reducible assumption
    | ((with_reducible apply hX.after); exact rfl)
    | with_reducible apply State.setRing_fr
    | with_reducible apply State.msix_fr
    | (extract_lets +onlyGivenNames x; first
        | (refine Fr.cut (X := X) (s0 := s0) (s := x) ?_ (fun hx => ?_); (on_goal 2 => clear_value x); (on_goal 1 => (unfold x; clear x)))
        | clear_value x)
    | split

theorem State.post_fr {X : Nat} {s0 : State} {s : State} {a1 : ℕ} {a2 : ℕ} {a3 : ℕ} {a4 : ℕ} (h : Fr X s0 s) (hX : Sub 0x8000040000000 X) :
    Fr X s0 (State.post s a1 a2 a3 a4) := by
  unfold State.post
  repeat' first
    | with_reducible assumption
    | with_reducible apply State.postTo_fr
    | with_reducible apply Fr.foldl
    | (intro x)

theorem State.postReady_fr {X : Nat} {s0 : State} {s : State} {a1 : ℕ} (h : Fr X s0 s) (hX : Sub 0x8000040000000 X) :
    Fr X s0 (State.postReady s a1) := by
  unfold State.postReady
  repeat' first
    | with_reducible assumption
    | with_reducible apply State.postTo_fr
    | (with_reducible apply Fr.hif_; (on_goal 1 => (first | with_reducible assumption | with_reducible apply State.postTo_fr | with_reducible apply Fr.foldl | with_reducible apply Fr.foldl_fst | with_reducible apply Fr.foldl_snd | with_reducible refine Fr.of_snd (by assumption) ?_)))
    | (extract_lets +onlyGivenNames x; clear_value x)
    | split
    | ((with_reducible apply hX.bit); exact rfl)

theorem State.flashToRing_fr {X : Nat} {s0 : State} {s : State} (h : Fr X s0 s) (hX : Sub 0x20000000 X) :
    Fr X s0 (State.flashToRing s) := by
  unfold State.flashToRing
  repeat' first
    | (with_reducible apply Fr.evr_; (on_goal 1 => (first | with_reducible assumption | with_reducible refine Fr.of_snd (by assumption) ?_)))
    | ((with_reducible apply hX.bit); exact rfl)

theorem State.alertJoin_fr {X : Nat} {s0 : State} {s : State} {a1 : EvRecord} (h : Fr X s0 s) (hX : Sub 0x8000010000000 X) :
    Fr X s0 (State.alertJoin s a1) := by
  unfold State.alertJoin
  repeat' first
    | with_reducible assumption
    | ((with_reducible apply hX.after); exact rfl)
    | with_reducible apply State.emit_fr
    | (with_reducible apply Fr.mgmt_; (on_goal 1 => (first | with_reducible assumption | with_reducible apply State.emit_fr | with_reducible refine Fr.of_snd (by assumption) ?_)))
    | (extract_lets +onlyGivenNames x; first
        | (refine Fr.cut (X := X) (s0 := s0) (s := x) ?_ (fun hx => ?_); (on_goal 2 => clear_value x); (on_goal 1 => (unfold x; clear x)))
        | clear_value x)
    | split
    | ((with_reducible apply hX.bit); exact rfl)

theorem State.consoleLine_fr {X : Nat} {s0 : State} {s : State} {a1 : EvRecord} (h : Fr X s0 s) (hX : Sub 0x24000010000000 X) :
    Fr X s0 (State.consoleLine s a1) := by
  unfold State.consoleLine
  repeat' first
    | with_reducible assumption
    | ((with_reducible apply hX.after); exact rfl)
    | with_reducible apply State.fresh_fr
    | (refine State.count_fr ?_ ?_ rfl)
    | (with_reducible apply Fr.mgmt_; (on_goal 1 => (first | with_reducible assumption | with_reducible apply State.fresh_fr | with_reducible apply State.bump_fr | with_reducible refine Fr.of_snd (by assumption) ?_)))
    | (extract_lets +onlyGivenNames x; clear_value x)
    | split
    | ((with_reducible apply hX.bit); exact rfl)

theorem State.persist_fr {X : Nat} {s0 : State} {s : State} {a1 : EvRecord} (h : Fr X s0 s) (hX : Sub 0x20000020000000 X) :
    Fr X s0 (State.persist s a1).2 := by
  unfold State.persist
  repeat' first
    | with_reducible assumption
    | (refine State.count_fr ?_ ?_ rfl)
    | (with_reducible apply Fr.evr_; (on_goal 1 => (first | with_reducible assumption | with_reducible apply State.bump_fr | with_reducible refine Fr.of_snd (by assumption) ?_)))
    | (extract_lets +onlyGivenNames x; clear_value x)
    | split
    | ((with_reducible apply hX.bit); exact rfl)

theorem State.appendRecord_fr {X : Nat} {s0 : State} {s : State} {a1 : EvRecord} (h : Fr X s0 s) (hX : Sub 0x2c000030000000 X) :
    Fr X s0 (State.appendRecord s a1) := by
  unfold State.appendRecord
  repeat' first
    | with_reducible assumption
    | ((with_reducible apply hX.after); exact rfl)
    | with_reducible apply State.consoleLine_fr
    | with_reducible apply State.alertJoin_fr
    | (refine State.count_fr ?_ ?_ rfl)
    | (with_reducible apply Fr.evr_; (on_goal 1 => (first | with_reducible assumption | with_reducible apply State.persist_fr | with_reducible apply State.consoleLine_fr | with_reducible apply State.alertJoin_fr | with_reducible apply State.bump_fr | with_reducible refine Fr.of_snd (by assumption) ?_)))
    | (extract_lets +onlyGivenNames x; clear_value x)
    | split
    | ((with_reducible apply hX.bit); exact rfl)

theorem State.setBucket_fr {X : Nat} {s0 : State} {s : State} {a1 : ℕ} {a2 : EvBucket} (h : Fr X s0 s) (hX : Sub 0x20000000 X) :
    Fr X s0 (State.setBucket s a1 a2) := by
  unfold State.setBucket
  exact Fr.evr_ h (hX.bit rfl)

theorem State.recordEvent_fr {X : Nat} {s0 : State} {s : State} {a1 : EvRecord} (h : Fr X s0 s) (hX : Sub 0x2c000030000000 X) :
    Fr X s0 (State.recordEvent s a1) := by
  unfold State.recordEvent
  repeat' first
    | with_reducible assumption
    | ((with_reducible apply hX.after); exact rfl)
    | with_reducible apply State.appendRecord_fr
    | with_reducible apply State.setBucket_fr
    | (refine State.count_fr ?_ ?_ rfl)
    | (extract_lets +onlyGivenNames x; clear_value x)
    | split
    | ((with_reducible apply hX.bit); exact rfl)

theorem State.record_fr {X : Nat} {s0 : State} {s : State} {a1 : ℕ} {a2 : ℕ} {a3 : ℕ} {a4 : optParam Bytes []} (h : Fr X s0 s) (hX : Sub 0x2c000030000000 X) :
    Fr X s0 (State.record s a1 a2 a3 a4) := by
  unfold State.record
  repeat' first
    | with_reducible assumption
    | with_reducible apply State.recordEvent_fr

theorem State.recordDecision_fr {X : Nat} {s0 : State} {s : State} {a1 : ℕ} {a2 : ℕ} {a3 : ℕ} {a4 : optParam Bytes []} (h : Fr X s0 s) (hX : Sub 0x2c000030000000 X) :
    Fr X s0 (State.recordDecision s a1 a2 a3 a4) := by
  unfold State.recordDecision
  repeat' first
    | with_reducible assumption
    | with_reducible apply State.record_fr
    | (with_reducible apply Fr.mgmt_; (on_goal 1 => (first | with_reducible assumption | with_reducible apply State.record_fr | with_reducible refine Fr.of_snd (by assumption) ?_)))
    | split
    | ((with_reducible apply hX.bit); exact rfl)

theorem State.raiseDecision_fr {X : Nat} {s0 : State} {s : State} {a1 : ℕ} {a2 : ℕ} {a3 : ℕ} (h : Fr X s0 s) (hX : Sub 0x2c000070000000 X) :
    Fr X s0 (State.raiseDecision s a1 a2 a3) := by
  unfold State.raiseDecision
  repeat' first
    | with_reducible assumption
    | ((with_reducible apply hX.after); exact rfl)
    | with_reducible apply State.post_fr
    | with_reducible apply State.recordDecision_fr

theorem State.writeDeferred_fr {X : Nat} {s0 : State} {s : State} (h : Fr X s0 s) (hX : Sub 0x2c000030000000 X) :
    Fr X s0 (State.writeDeferred s) := by
  unfold State.writeDeferred
  repeat' first
    | with_reducible assumption
    | with_reducible apply State.recordEvent_fr
    | with_reducible apply Fr.foldl
    | (with_reducible apply Fr.mgmt_; (on_goal 1 => (first | with_reducible assumption | with_reducible apply State.recordEvent_fr | with_reducible apply Fr.foldl | with_reducible apply Fr.foldl_fst | with_reducible apply Fr.foldl_snd | with_reducible refine Fr.of_snd (by assumption) ?_)))
    | ((with_reducible apply hX.bit); exact rfl)
    | (intro x)

theorem State.raise_fr {X : Nat} {s0 : State} {s : State} {a1 : ℕ} {a2 : ℕ} {a3 : ℕ} {a4 : optParam ℕ 0} {a5 : optParam Bytes []} (h : Fr X s0 s) (hX : Sub 0x2c000070000000 X) :
    Fr X s0 (State.raise s a1 a2 a3 a4 a5) := by
  unfold State.raise
  repeat' first
    | with_reducible assumption
    | ((with_reducible apply hX.after); exact rfl)
    | with_reducible apply State.postReady_fr
    | with_reducible apply State.record_fr
    | with_reducible apply State.post_fr
    | (extract_lets +onlyGivenNames x; (refine Fr.cut (X := X) (s0 := s0) (s := x) ?_ (fun hx => ?_); (on_goal 2 => clear_value x); (on_goal 1 => (unfold x; clear x))))
    | split

theorem State.planCount_fr {X : Nat} {s0 : State} {s : State} {a1 : ℕ} {a2 : ℕ} (h : Fr X s0 s) (hX : Sub 0x1000 X) :
    Fr X s0 (State.planCount s a1 a2) := by
  unfold State.planCount
  repeat' first
    | with_reducible assumption
    | with_reducible apply State.bump_fr
    | ((with_reducible apply hX.ok); exact rfl)

theorem State.planOverrun_fr {X : Nat} {s0 : State} {s : State} {a1 : ℕ} (h : Fr X s0 s) (hX : Sub 0x1000 X) :
    Fr X s0 (State.planOverrun s a1) := by
  unfold State.planOverrun
  repeat' first
    | with_reducible assumption
    | with_reducible apply State.planCount_fr

theorem State.setHealth_fr {X : Nat} {s0 : State} {s : State} {a1 : Subject} {a2 : Health} (h : Fr X s0 s) (hX : Sub 0x100000000000 X) :
    Fr X s0 (State.setHealth s a1 a2) := by
  unfold State.setHealth
  exact Fr.flt_ h (hX.bit rfl)

theorem State.healthAdd_fr {X : Nat} {s0 : State} {s : State} {a1 : Subject} {a2 : ℕ} (h : Fr X s0 s) (hX : Sub 0x100000000000 X) :
    Fr X s0 (State.healthAdd s a1 a2) := by
  unfold State.healthAdd
  repeat' first
    | with_reducible assumption
    | with_reducible apply State.setHealth_fr
    | (with_reducible apply Fr.flt_; (on_goal 1 => (first | with_reducible assumption | with_reducible apply State.setHealth_fr | with_reducible refine Fr.of_snd (by assumption) ?_)))
    | split
    | ((with_reducible apply hX.bit); exact rfl)

theorem State.healthReplay_fr {X : Nat} {s0 : State} {s : State} {a1 : ℕ} (h : Fr X s0 s) (hX : Sub 0x100000000000 X) :
    Fr X s0 (State.healthReplay s a1) := by
  unfold State.healthReplay
  repeat' first
    | with_reducible assumption
    | with_reducible apply State.healthAdd_fr
    | with_reducible apply State.setHealth_fr

theorem State.healthWords_fr {X : Nat} {s0 : State} {s : State} {a1 : ℕ} {a2 : ℕ} (h : Fr X s0 s) (hX : Sub 0x100000000000 X) :
    Fr X s0 (State.healthWords s a1 a2) := by
  unfold State.healthWords
  repeat' first
    | with_reducible assumption
    | with_reducible apply State.healthAdd_fr
    | with_reducible apply State.setHealth_fr
    | (extract_lets +onlyGivenNames x; clear_value x)
    | split

theorem State.healthOverruns_fr {X : Nat} {s0 : State} {s : State} {a1 : ℕ} {a2 : ℕ} (h : Fr X s0 s) (hX : Sub 0x100000000000 X) :
    Fr X s0 (State.healthOverruns s a1 a2) := by
  unfold State.healthOverruns
  repeat' first
    | with_reducible assumption
    | with_reducible apply State.healthAdd_fr
    | with_reducible apply State.setHealth_fr
    | (extract_lets +onlyGivenNames x; clear_value x)
    | split

theorem State.setOp_fr {X : Nat} {s0 : State} {s : State} {a1 : Op} (h : Fr X s0 s) (hX : Sub 0x40000000 X) :
    Fr X s0 (State.setOp s a1) := by
  unfold State.setOp
  repeat' first
    | (with_reducible apply Fr.hif_; (on_goal 1 => (first | with_reducible assumption | with_reducible refine Fr.of_snd (by assumption) ?_)))
    | ((with_reducible apply hX.bit); exact rfl)

theorem State.freeOp_fr {X : Nat} {s0 : State} {s : State} {a1 : OpKey} (h : Fr X s0 s) (hX : Sub 0x40000000 X) :
    Fr X s0 (State.freeOp s a1) := by
  unfold State.freeOp
  repeat' first
    | (with_reducible apply Fr.hif_; (on_goal 1 => (first | with_reducible assumption | with_reducible refine Fr.of_snd (by assumption) ?_)))
    | ((with_reducible apply hX.bit); exact rfl)

theorem State.enterOp_fr {X : Nat} {s0 : State} {s : State} {a1 : OpKey} {a2 : Option Bytes} (h : Fr X s0 s) (hX : Sub 0x40000000 X) :
    Fr X s0 (State.enterOp s a1 a2) := by
  unfold State.enterOp
  repeat' first
    | with_reducible assumption
    | with_reducible apply State.setOp_fr
    | split

theorem State.leaveOp_fr {X : Nat} {s0 : State} {s : State} {a1 : OpKey} (h : Fr X s0 s) (hX : Sub 0x40000000 X) :
    Fr X s0 (State.leaveOp s a1) := by
  unfold State.leaveOp
  repeat' first
    | with_reducible assumption
    | with_reducible apply State.freeOp_fr
    | with_reducible apply State.enterOp_fr
    | with_reducible apply State.setRing_fr
    | (extract_lets +onlyGivenNames x; first
        | (refine Fr.cut (X := X) (s0 := s0) (s := x) ?_ (fun hx => ?_); (on_goal 2 => clear_value x); (on_goal 1 => (unfold x; clear x)))
        | clear_value x)
    | split

theorem State.endOp_fr {X : Nat} {s0 : State} {s : State} {a1 : OpKey} {a2 : Completion} (h : Fr X s0 s) (hX : Sub 0x40000000 X) :
    Fr X s0 (State.endOp s a1 a2) := by
  unfold State.endOp
  repeat' first
    | with_reducible assumption
    | with_reducible apply State.setOp_fr
    | with_reducible apply State.leaveOp_fr
    | split

theorem State.finish_fr {X : Nat} {s0 : State} {s : State} {a1 : OpKey} {a2 : ℕ} {a3 : optParam ℕ 0} {a4 : optParam ℕ 0} (h : Fr X s0 s) (hX : Sub 0x40000000 X) :
    Fr X s0 (State.finish s a1 a2 a3 a4) := by
  unfold State.finish
  repeat' first
    | with_reducible assumption
    | with_reducible apply State.endOp_fr
    | split

theorem State.start_fr {X : Nat} {s0 : State} {s : State} {a1 : OpKey} {a2 : Bytes → Bool} {a3 : Op → State → State} (h : Fr X s0 s) (hf0 : ∀ x0 x1, Fr X s0 x1 → Fr X s0 (a3 x0 x1)) (hX : Sub 0x40000000 X) :
    Fr X s0 (State.start s a1 a2 a3) := by
  unfold State.start
  repeat' first
    | with_reducible assumption
    | with_reducible apply hf0
    | with_reducible apply State.setOp_fr
    | (extract_lets +onlyGivenNames x; clear_value x)
    | split

theorem State.mgmtPF_fr {X : Nat} {s0 : State} {s : State} {a1 : OpKey} {a2 : ℕ} {a3 : Op → State → State} (h : Fr X s0 s) (hf0 : ∀ x0 x1, Fr X s0 x1 → Fr X s0 (a3 x0 x1)) (hX : Sub 0x40000000 X) :
    Fr X s0 (State.mgmtPF s a1 a2 a3) := by
  unfold State.mgmtPF
  repeat' first
    | with_reducible assumption
    | with_reducible apply hf0
    | with_reducible apply State.start_fr
    | with_reducible apply State.finish_fr
    | (intro x)
    | split

theorem State.setIntake_fr {X : Nat} {s0 : State} {s : State} {a1 : ℕ} {a2 : Intake} (h : Fr X s0 s) (hX : Sub 0x40000000 X) :
    Fr X s0 (State.setIntake s a1 a2) := by
  unfold State.setIntake
  repeat' first
    | (with_reducible apply Fr.hif_; (on_goal 1 => (first | with_reducible assumption | with_reducible refine Fr.of_snd (by assumption) ?_)))
    | ((with_reducible apply hX.bit); exact rfl)

theorem State.wake_fr {X : Nat} {s0 : State} {s : State} {a1 : ℕ} (h : Fr X s0 s) (hX : Sub 0x40000000 X) :
    Fr X s0 (State.wake s a1) := by
  unfold State.wake
  repeat' first
    | with_reducible assumption
    | with_reducible apply State.setIntake_fr
    | (extract_lets +onlyGivenNames x; clear_value x)
    | split

theorem State.doorbell_fr {X : Nat} {s0 : State} {s : State} {a1 : ℕ} {a2 : ℕ} (h : Fr X s0 s) (hX : Sub 0x40000000 X) :
    Fr X s0 (State.doorbell s a1 a2) := by
  unfold State.doorbell
  repeat' first
    | with_reducible assumption
    | with_reducible apply State.setRing_fr
    | with_reducible apply State.wake_fr
    | (extract_lets +onlyGivenNames x; first
        | (refine Fr.cut (X := X) (s0 := s0) (s := x) ?_ (fun hx => ?_); (on_goal 2 => clear_value x); (on_goal 1 => (unfold x; clear x)))
        | clear_value x)
    | split

theorem State.takeSlot_fr {X : Nat} {s0 : State} {s : State} {a1 : ℕ} {a2 : ℕ} {a3 : Option Bytes} (h : Fr X s0 s) (hX : Sub 0x40000000 X) :
    Fr X s0 (State.takeSlot s a1 a2 a3) := by
  unfold State.takeSlot
  repeat' first
    | with_reducible assumption
    | with_reducible apply State.enterOp_fr
    | with_reducible apply State.setRing_fr
    | split

theorem State.takeOne_fr {X : Nat} {s0 : State} {s : State} {a1 : ℕ} {a2 : Option Bytes} (h : Fr X s0 s) (hX : Sub 0x2c000070000000 X) :
    Fr X s0 (State.takeOne s a1 a2) := by
  unfold State.takeOne
  repeat' first
    | with_reducible assumption
    | ((with_reducible apply hX.after); exact rfl)
    | with_reducible apply State.takeSlot_fr
    | with_reducible apply State.setRing_fr
    | with_reducible apply State.raise_fr
    | (extract_lets +onlyGivenNames x; first
        | (refine Fr.cut (X := X) (s0 := s0) (s := x) ?_ (fun hx => ?_); (on_goal 2 => clear_value x); (on_goal 1 => (unfold x; clear x)))
        | clear_value x)
    | split

theorem State.takeMany_fr {X : Nat} {s0 : State} {a0 : ℕ} {a1 : ℕ} {a2 : List (Option Bytes)} {s : State} (h : Fr X s0 s) (hX : Sub 0x2c000070000000 X) :
    Fr X s0 (State.takeMany a0 a1 a2 s) := by
  revert h
  fun_induction State.takeMany a0 a1 a2 s
  all_goals intro h
  all_goals repeat' first
    | with_reducible assumption
    | ((with_reducible apply hX.after); exact rfl)
    | with_reducible apply State.takeOne_fr
    | split
    | dsimp only
    | with_reducible apply_assumption -exfalso -symm

theorem State.intakePop_fr {X : Nat} {s0 : State} {s : State} {a1 : ℕ} {a2 : Ecc} {a3 : List (Option Bytes)} (h : Fr X s0 s) (hX : Sub 0x2c000070000004 X) :
    Fr X s0 (State.intakePop s a1 a2 a3) := by
  unfold State.intakePop
  repeat' first
    | with_reducible assumption
    | ((with_reducible apply hX.after); exact rfl)
    | with_reducible apply State.setFlag_fr
    | with_reducible apply State.wake_fr
    | with_reducible apply State.bump_fr
    | with_reducible apply State.setIntake_fr
    | with_reducible apply State.takeMany_fr
    | with_reducible apply Fr.foldl
    | (intro x)
    | (extract_lets +onlyGivenNames x; first
        | (refine Fr.cut (X := X) (s0 := s0) (s := x) ?_ (fun hx => ?_); (on_goal 2 => clear_value x); (on_goal 1 => (unfold x; clear x)))
        | clear_value x)
    | split
    | ((with_reducible apply hX.ok); exact rfl)
    | (with_reducible apply Sub.nth)

theorem State.resumeRing_fr {X : Nat} {s0 : State} {s : State} {a1 : ℕ} (h : Fr X s0 s) (hX : Sub 0x40000000 X) :
    Fr X s0 (State.resumeRing s a1) := by
  unfold State.resumeRing
  repeat' first
    | with_reducible assumption
    | with_reducible apply State.setRing_fr
    | with_reducible apply State.freeOp_fr
    | with_reducible apply Fr.foldl
    | (intro x)
    | (extract_lets +onlyGivenNames x; clear_value x)
    | split

theorem State.resumeSet_fr {X : Nat} {s0 : State} {s : State} {a1 : ℕ} (h : Fr X s0 s) (hX : Sub 0x40000000 X) :
    Fr X s0 (State.resumeSet s a1) := by
  unfold State.resumeSet
  repeat' first
    | with_reducible assumption
    | with_reducible apply State.resumeRing_fr
    | with_reducible apply State.wake_fr
    | with_reducible apply Fr.foldl
    | (intro x)
    | (extract_lets +onlyGivenNames x; (refine Fr.cut (X := X) (s0 := s0) (s := x) ?_ (fun hx => ?_); (on_goal 2 => clear_value x); (on_goal 1 => (unfold x; clear x))))
    | split

theorem State.putCq_fr_full {X : Nat} {s0 : State} {s : State} {a1 : ℕ} {a2 : Completion} {a3 : ℕ} {a4 : ℕ} {a5 : Bool} {a6 : Bool} (h : Fr X s0 s) (hX : Sub 0x2c000070000000 X) {t : State}
    (ht : State.putCq s a1 a2 a3 a4 a5 a6 = .full t) : Fr X s0 t := by
  revert ht
  unfold State.putCq
  repeat' first
    | with_reducible assumption
    | ((with_reducible apply hX.after); exact rfl)
    | with_reducible apply State.setRing_fr
    | with_reducible apply State.raise_fr
    | with_reducible apply State.msix_fr
    | with_reducible apply State.emit_fr
    | (extract_lets +onlyGivenNames x; clear_value x)
    | split
    | (refine fun (ht : _ = _) => ?_; first | (cases ht; done) | cases ht | (revert ht; split) | skip)

theorem State.putCq_fr_written {X : Nat} {s0 : State} {s : State} {a1 : ℕ} {a2 : Completion} {a3 : ℕ} {a4 : ℕ} {a5 : Bool} {a6 : Bool} (h : Fr X s0 s) (hX : Sub 0x2c000070000000 X) {t : State}
    (ht : State.putCq s a1 a2 a3 a4 a5 a6 = .written t) : Fr X s0 t := by
  revert ht
  unfold State.putCq
  repeat' first
    | with_reducible assumption
    | ((with_reducible apply hX.after); exact rfl)
    | with_reducible apply State.setRing_fr
    | with_reducible apply State.raise_fr
    | with_reducible apply State.msix_fr
    | with_reducible apply State.emit_fr
    | (extract_lets +onlyGivenNames x; clear_value x)
    | split
    | (refine fun (ht : _ = _) => ?_; first | (cases ht; done) | cases ht | (revert ht; split) | skip)

theorem State.retireSlot_fr {X : Nat} {s0 : State} {s : State} {a1 : ℕ} {a2 : ℕ} (h : Fr X s0 s) (hX : Sub 0x40000000 X) :
    Fr X s0 (State.retireSlot s a1 a2) := by
  unfold State.retireSlot
  repeat' first
    | with_reducible assumption
    | with_reducible apply State.setRing_fr
    | with_reducible apply State.leaveOp_fr
    | (extract_lets +onlyGivenNames x; clear_value x)
    | split

theorem State.completionWrite_fr {X : Nat} {s0 : State} {s : State} {a1 : ℕ} {a2 : Bool} {a3 : Option Bytes} (h : Fr X s0 s) (hX : Sub 0x2c000070000000 X) :
    Fr X s0 (State.completionWrite s a1 a2 a3) := by
  unfold State.completionWrite
  repeat' first
    | with_reducible assumption
    | ((with_reducible apply hX.after); exact rfl)
    | with_reducible refine State.putCq_fr_full ?_ ?_ (by assumption)
    | with_reducible refine State.putCq_fr_written ?_ ?_ (by assumption)
    | with_reducible apply State.setRing_fr
    | with_reducible apply State.retireSlot_fr
    | with_reducible apply State.raise_fr
    | (extract_lets +onlyGivenNames x; first
        | (refine Fr.cut (X := X) (s0 := s0) (s := x) ?_ (fun hx => ?_); (on_goal 2 => clear_value x); (on_goal 1 => (unfold x; clear x)))
        | clear_value x)
    | split

theorem State.nqPop_fr {X : Nat} {s0 : State} {s : State} {a1 : View} {a2 : ℕ} {a3 : Ecc} (h : Fr X s0 s) (hX : Sub 0x8000040000000 X) :
    Fr X s0 (State.nqPop s a1 a2 a3) := by
  unfold State.nqPop
  repeat' first
    | with_reducible assumption
    | ((with_reducible apply hX.after); exact rfl)
    | with_reducible apply State.emit_fr
    | with_reducible apply State.setRing_fr
    | (extract_lets +onlyGivenNames x; first
        | (refine Fr.cut (X := X) (s0 := s0) (s := x) ?_ (fun hx => ?_); (on_goal 2 => clear_value x); (on_goal 1 => (unfold x; clear x)))
        | clear_value x)
    | split

theorem State.nqClear_fr {X : Nat} {s0 : State} {s : State} {a1 : ℕ} {a2 : ℕ} (h : Fr X s0 s) (hX : Sub 0x40000000 X) :
    Fr X s0 (State.nqClear s a1 a2) := by
  unfold State.nqClear
  repeat' first
    | with_reducible assumption
    | with_reducible apply State.setRing_fr
    | (extract_lets +onlyGivenNames x; clear_value x)
    | split

theorem State.evrMirror_fr {X : Nat} {s0 : State} {s : State} (h : Fr X s0 s) (hX : Sub 0x8000060000000 X) :
    Fr X s0 (State.evrMirror s) := by
  unfold State.evrMirror
  repeat' first
    | with_reducible assumption
    | ((with_reducible apply hX.after); exact rfl)
    | with_reducible apply State.msix_fr
    | with_reducible apply State.setRing_fr
    | with_reducible apply State.emit_fr
    | with_reducible apply Fr.foldl
    | (with_reducible apply Fr.evr_; (on_goal 1 => (first | with_reducible assumption | with_reducible apply State.msix_fr | with_reducible apply State.setRing_fr | with_reducible apply State.emit_fr | with_reducible apply Fr.foldl | with_reducible apply Fr.foldl_fst | with_reducible apply Fr.foldl_snd | with_reducible refine Fr.of_snd (by assumption) ?_)))
    | (intro x)
    | (extract_lets +onlyGivenNames x; first
        | (refine Fr.cut (X := X) (s0 := s0) (s := x) ?_ (fun hx => ?_); (on_goal 2 => clear_value x); (on_goal 1 => (unfold x; clear x)))
        | clear_value x)
    | split
    | ((with_reducible apply hX.bit); exact rfl)

theorem State.toD3hot_fr {X : Nat} {s0 : State} {s : State} {a1 : ℕ} (h : Fr X s0 s) (hX : Sub 0x40000000 X) :
    Fr X s0 (State.toD3hot s a1) := by
  unfold State.toD3hot
  repeat' first
    | (with_reducible apply Fr.hif_; (on_goal 1 => (first | with_reducible assumption | with_reducible refine Fr.of_snd (by assumption) ?_)))
    | ((with_reducible apply hX.bit); exact rfl)

theorem State.toD0_fr {X : Nat} {s0 : State} {s : State} {a1 : ℕ} (h : Fr X s0 s) (hX : Sub 0x8000040000000 X) :
    Fr X s0 (State.toD0 s a1) := by
  unfold State.toD0
  repeat' first
    | with_reducible assumption
    | ((with_reducible apply hX.after); exact rfl)
    | with_reducible apply State.wake_fr
    | with_reducible apply State.msix_fr
    | with_reducible apply Fr.foldl
    | (with_reducible apply Fr.hif_; (on_goal 1 => (first | with_reducible assumption | with_reducible apply State.wake_fr | with_reducible apply State.msix_fr | with_reducible apply Fr.foldl | with_reducible apply Fr.foldl_fst | with_reducible apply Fr.foldl_snd | with_reducible refine Fr.of_snd (by assumption) ?_)))
    | (intro x)
    | ((with_reducible apply hX.bit); exact rfl)

theorem State.vfFlr_fr {X : Nat} {s0 : State} {s : State} {a1 : ℕ} (h : Fr X s0 s) (hX : Sub 0x40000000 X) :
    Fr X s0 (State.vfFlr s a1) := by
  unfold State.vfFlr
  repeat' first
    | with_reducible assumption
    | (with_reducible apply Fr.hif_; (on_goal 1 => (first | with_reducible assumption | with_reducible refine Fr.of_snd (by assumption) ?_)))
    | (extract_lets +onlyGivenNames x; clear_value x)
    | split
    | ((with_reducible apply hX.bit); exact rfl)

theorem execDoorbell_fr {X : Nat} {s0 : State} {a0 : View} {a1 : ℕ} {a2 : Word} {s : State} (h : Fr X s0 s) (hX : Sub 0x40000000 X) {t : State}
    (ht : execDoorbell a0 a1 a2 s = .next t) : Fr X s0 t := by
  unfold execDoorbell at ht
  obtain rfl := Host.Outcome.next.inj ht
  repeat' first
    | with_reducible assumption
    | ((with_reducible apply hX.after); exact rfl)
    | with_reducible apply State.inCore_fr
    | with_reducible apply State.doorbell_fr
    | (intro x)
    | split

theorem execIntakePop_fr {X : Nat} {s0 : State} {a0 : ℕ} {a1 : Ecc} {a2 : List (Option Bytes)} {s : State} (h : Fr X s0 s) (hX : Sub 0x2c000070000004 X) {t : State}
    (ht : execIntakePop a0 a1 a2 s = .next t) : Fr X s0 t := by
  unfold execIntakePop at ht
  obtain rfl := Host.Outcome.next.inj ht
  repeat' first
    | with_reducible assumption
    | ((with_reducible apply hX.after); exact rfl)
    | with_reducible apply State.inCore_fr
    | with_reducible apply State.intakePop_fr
    | (intro x)

theorem execCompletionWrite_fr {X : Nat} {s0 : State} {a0 : ℕ} {a1 : Bool} {a2 : Option Bytes} {s : State} (h : Fr X s0 s) (hX : Sub 0x2c000070000000 X) {t : State}
    (ht : execCompletionWrite a0 a1 a2 s = .next t) : Fr X s0 t := by
  unfold execCompletionWrite at ht
  obtain rfl := Host.Outcome.next.inj ht
  repeat' first
    | with_reducible assumption
    | ((with_reducible apply hX.after); exact rfl)
    | with_reducible apply State.inCore_fr
    | with_reducible apply State.completionWrite_fr
    | (intro x)

theorem execFunctionD3hot_fr {X : Nat} {s0 : State} {a0 : ℕ} {s : State} (h : Fr X s0 s) (hX : Sub 0x40000000 X) {t : State}
    (ht : execFunctionD3hot a0 s = .next t) : Fr X s0 t := by
  unfold execFunctionD3hot at ht
  obtain rfl := Host.Outcome.next.inj ht
  repeat' first
    | with_reducible assumption
    | ((with_reducible apply hX.after); exact rfl)
    | with_reducible apply State.inCore_fr
    | with_reducible apply State.toD3hot_fr
    | (intro x)

theorem execFunctionD0_fr {X : Nat} {s0 : State} {a0 : ℕ} {s : State} (h : Fr X s0 s) (hX : Sub 0x8000040000000 X) {t : State}
    (ht : execFunctionD0 a0 s = .next t) : Fr X s0 t := by
  unfold execFunctionD0 at ht
  obtain rfl := Host.Outcome.next.inj ht
  repeat' first
    | with_reducible assumption
    | ((with_reducible apply hX.after); exact rfl)
    | with_reducible apply State.inCore_fr
    | with_reducible apply State.toD0_fr
    | (intro x)

theorem execNqPop_fr {X : Nat} {s0 : State} {a0 : View} {a1 : ℕ} {a2 : Ecc} {s : State} (h : Fr X s0 s) (hX : Sub 0x8000040000000 X) {t : State}
    (ht : execNqPop a0 a1 a2 s = .next t) : Fr X s0 t := by
  unfold execNqPop at ht
  obtain rfl := Host.Outcome.next.inj ht
  repeat' first
    | with_reducible assumption
    | ((with_reducible apply hX.after); exact rfl)
    | with_reducible apply State.inCore_fr
    | with_reducible apply State.nqPop_fr
    | with_reducible apply State.emit_fr
    | (intro x)
    | split

theorem execNqClrCounts_fr {X : Nat} {s0 : State} {a0 : View} {a1 : ℕ} {a2 : Word} {s : State} (h : Fr X s0 s) (hX : Sub 0x40000000 X) {t : State}
    (ht : execNqClrCounts a0 a1 a2 s = .next t) : Fr X s0 t := by
  unfold execNqClrCounts at ht
  obtain rfl := Host.Outcome.next.inj ht
  repeat' first
    | with_reducible assumption
    | ((with_reducible apply hX.after); exact rfl)
    | with_reducible apply State.inCore_fr
    | with_reducible apply State.nqClear_fr
    | (intro x)
    | split

theorem execEvrMirror_fr {X : Nat} {s0 : State} {s : State} (h : Fr X s0 s) (hX : Sub 0x8000060000000 X) {t : State}
    (ht : execEvrMirror s = .next t) : Fr X s0 t := by
  unfold execEvrMirror at ht
  obtain rfl := Host.Outcome.next.inj ht
  repeat' first
    | with_reducible assumption
    | ((with_reducible apply hX.after); exact rfl)
    | with_reducible apply State.inCore_fr
    | with_reducible apply State.evrMirror_fr
    | (intro x)

theorem execIdeKm_fr {X : Nat} {s0 : State} {a0 : ℕ} {a1 : ℕ} {s : State} (h : Fr X s0 s) (hX : Sub 0x40000000 X) {t : State}
    (ht : execIdeKm a0 a1 s = .next t) : Fr X s0 t := by
  unfold execIdeKm at ht
  obtain rfl := Host.Outcome.next.inj ht
  repeat' first
    | with_reducible assumption
    | ((with_reducible apply hX.after); exact rfl)
    | with_reducible apply State.inCore_fr
    | (with_reducible apply Fr.hif_; (on_goal 1 => (first | with_reducible assumption | with_reducible apply State.inCore_fr | with_reducible refine Fr.of_snd (by assumption) ?_)))
    | (intro x)
    | split
    | ((with_reducible apply hX.bit); exact rfl)

end Sys2Proof.Machine
end

