-- ==== Sys2Proof/Laws/FrameMemory.lean ====
section
/-!
SUPPORT. Frames of the operations of Memory.lean, MemoryUnits.lean, Time.lean, Cox.lean, Mgmt.lean: one lemma each, by backward chaining (Frame.lean).
-/

namespace Sys2Proof.Machine









theorem State.memWrite_fr {X : Nat} {s0 : State} {a0 : MemKey} {a1 : ℕ} {a2 : Bytes} {s : State} (h : Fr X s0 s) (hX : Sub 0x10000100000000 X) :
    Fr X s0 (State.memWrite a0 a1 a2 s) := by
  revert h
  fun_induction State.memWrite a0 a1 a2 s
  all_goals intro h
  all_goals repeat' first
    | with_reducible assumption
    | ((with_reducible apply hX.after); exact rfl)
    | with_reducible apply State.memWrite1_fr
    | dsimp only
    | with_reducible apply_assumption -exfalso -symm

theorem State.setUnitSt_fr {X : Nat} {s0 : State} {s : State} {a1 : MemUnit} {a2 : ℕ} (h : Fr X s0 s) (hX : Sub 0x100000000 X) :
    Fr X s0 (State.setUnitSt s a1 a2) := by
  unfold State.setUnitSt
  repeat' first
    | with_reducible assumption
    | with_reducible apply State.onMem_fr
    | exact fun _ => ⟨rfl, rfl, rfl, rfl⟩

theorem State.showSpares_fr {X : Nat} {s0 : State} {s : State} (h : Fr X s0 s) (hX : Sub 0x10 X) :
    Fr X s0 (State.showSpares s) := by
  unfold State.showSpares
  repeat' first
    | with_reducible assumption
    | with_reducible apply State.setFlag_fr
    | ((with_reducible apply hX.ok); exact rfl)

theorem State.assignHbm_fr {X : Nat} {s0 : State} {s : State} (h : Fr X s0 s) (hX : Sub 0x100000010 X) :
    Fr X s0 (State.assignHbm s) := by
  unfold State.assignHbm
  repeat' first
    | with_reducible assumption
    | ((with_reducible apply hX.after); exact rfl)
    | with_reducible apply State.showSpares_fr
    | with_reducible apply State.setFld_fr
    | with_reducible apply State.onMem_fr
    | exact fun _ => ⟨rfl, rfl, rfl, rfl⟩
    | ((with_reducible apply hX.ok); exact rfl)

theorem State.hbmStage_fr {X : Nat} {s0 : State} {s : State} {a1 : List ℕ} (h : Fr X s0 s) (hX : Sub 0x100000010 X) :
    Fr X s0 (State.hbmStage s a1) := by
  unfold State.hbmStage
  repeat' first
    | with_reducible assumption
    | ((with_reducible apply hX.after); exact rfl)
    | with_reducible apply State.assignHbm_fr
    | with_reducible apply State.onMem_fr
    | exact fun _ => ⟨rfl, rfl, rfl, rfl⟩

theorem State.ddrStage_fr {X : Nat} {s0 : State} {s : State} {a1 : List ℕ} {a2 : List ℕ} (h : Fr X s0 s) (hX : Sub 0x100000000 X) :
    Fr X s0 (State.ddrStage s a1 a2) := by
  unfold State.ddrStage
  repeat' first
    | with_reducible assumption
    | with_reducible apply State.onMem_fr
    | exact fun _ => ⟨rfl, rfl, rfl, rfl⟩

theorem State.setLost_fr {X : Nat} {s0 : State} {s : State} {a1 : Bool} {a2 : List (ℕ × ℕ)} (h : Fr X s0 s) (hX : Sub 0x100000000 X) :
    Fr X s0 (State.setLost s a1 a2) := by
  unfold State.setLost
  repeat' first
    | with_reducible assumption
    | with_reducible apply State.onMem_fr
    | (intro x)
    | split
    | exact (⟨rfl, rfl, rfl, rfl⟩ : MemState.sameBytes _ _)

theorem State.cacheWalk_fr {X : Nat} {s0 : State} {s : State} {a1 : ℕ} {a2 : ℕ} {a3 : Walk} (h : Fr X s0 s) (hX : Sub 0x100000000 X) :
    Fr X s0 (State.cacheWalk s a1 a2 a3) := by
  unfold State.cacheWalk
  repeat' first
    | with_reducible assumption
    | with_reducible apply State.onMem_fr
    | exact fun _ => ⟨rfl, rfl, rfl, rfl⟩
    | split

theorem State.dropTlb_fr {X : Nat} {s0 : State} {s : State} {a1 : ℕ} {a2 : ℕ} {a3 : ℕ} (h : Fr X s0 s) (hX : Sub 0x100000000 X) :
    Fr X s0 (State.dropTlb s a1 a2 a3) := by
  unfold State.dropTlb
  repeat' first
    | with_reducible assumption
    | with_reducible apply State.onMem_fr
    | exact fun _ => ⟨rfl, rfl, rfl, rfl⟩

theorem State.cacheRange_fr {X : Nat} {s0 : State} {s : State} {a1 : ℕ} {a2 : ℕ} {a3 : ℕ} {a4 : Bool} (h : Fr X s0 s) (hX : Sub 0x100000000 X) :
    Fr X s0 (State.cacheRange s a1 a2 a3 a4) := by
  unfold State.cacheRange
  repeat' first
    | with_reducible assumption
    | with_reducible apply State.cacheWalk_fr
    | with_reducible apply Fr.foldl
    | (intro x)

theorem State.dvaPut_fr {X : Nat} {s0 : State} {a0 : ℕ} {a1 : ℕ} {a2 : Bytes} {s : State} (h : Fr X s0 s) (hX : Sub 0x10000100000000 X) :
    Fr X s0 (State.dvaPut a0 a1 a2 s) := by
  revert h
  fun_induction State.dvaPut a0 a1 a2 s
  all_goals intro h
  all_goals repeat' first
    | with_reducible assumption
    | ((with_reducible apply hX.after); exact rfl)
    | with_reducible apply State.memWrite1_fr
    | with_reducible refine Fr.of_snd (by assumption) ?_
    | with_reducible refine Fr.of_fst (by assumption) ?_
    | split
    | ((with_reducible apply hX.ok); exact rfl)
    | ((with_reducible apply hX.bit); exact rfl)
    | dsimp only
    | with_reducible apply_assumption -exfalso -symm

theorem State.regain_fr {X : Nat} {s0 : State} {s : State} {a1 : ℕ} {a2 : ℕ} {a3 : ℕ} (h : Fr X s0 s) (hX : Sub 0x100000000 X) :
    Fr X s0 (State.regain s a1 a2 a3) := by
  unfold State.regain
  repeat' first
    | with_reducible assumption
    | with_reducible apply State.setLost_fr
    | with_reducible apply Fr.foldl
    | (intro x)
    | split

theorem State.dvaWrite_fr {X : Nat} {s0 : State} {a0 : ℕ} {a1 : ℕ} {a2 : Bytes} {s : State} (h : Fr X s0 s) (hX : Sub 0x10000100000000 X) :
    Fr X s0 (State.dvaWrite a0 a1 a2 s) := by
  unfold State.dvaWrite
  repeat' first
    | with_reducible assumption
    | ((with_reducible apply hX.after); exact rfl)
    | with_reducible apply State.regain_fr
    | with_reducible apply State.dvaPut_fr
    | with_reducible apply State.cacheRange_fr

theorem State.dvaOpen_fr {X : Nat} {s0 : State} {s : State} {a1 : ℕ} {a2 : ℕ} {a3 : ℕ} (h : Fr X s0 s) (hX : Sub 0x14000100000000 X) :
    Fr X s0 (State.dvaOpen s a1 a2 a3) := by
  unfold State.dvaOpen
  repeat' first
    | with_reducible assumption
    | with_reducible apply State.openRange_fr
    | with_reducible apply Fr.foldl
    | (intro x)
    | (extract_lets +onlyGivenNames x; clear_value x)
    | split

theorem State.slotsLost_fr {X : Nat} {s0 : State} {s : State} {a1 : ℕ → Bool} (h : Fr X s0 s) (hX : Sub 0x80000000000 X) :
    Fr X s0 (State.slotsLost s a1) := by
  unfold State.slotsLost
  repeat' first
    | (with_reducible apply Fr.line_; (on_goal 1 => (first | with_reducible assumption | with_reducible refine Fr.of_snd (by assumption) ?_)))
    | ((with_reducible apply hX.bit); exact rfl)

theorem State.loseBlock_fr {X : Nat} {s0 : State} {s : State} {a1 : ℕ} {a2 : ℕ} {a3 : ℕ} (h : Fr X s0 s) (hX : Sub 0x2c080170000000 X) :
    Fr X s0 (State.loseBlock s a1 a2 a3) := by
  unfold State.loseBlock
  repeat' first
    | with_reducible assumption
    | ((with_reducible apply hX.after); exact rfl)
    | with_reducible apply State.raise_fr
    | with_reducible apply State.setLost_fr
    | with_reducible apply State.slotsLost_fr
    | (extract_lets +onlyGivenNames x; first
        | (refine Fr.cut (X := X) (s0 := s0) (s := x) ?_ (fun hx => ?_); (on_goal 2 => clear_value x); (on_goal 1 => (unfold x; clear x)))
        | clear_value x)
    | split

theorem State.rebindHbm_fr {X : Nat} {s0 : State} {s : State} {a1 : Retire} (h : Fr X s0 s) (hX : Sub 0x100000000 X) :
    Fr X s0 (State.rebindHbm s a1) := by
  unfold State.rebindHbm
  repeat' first
    | with_reducible assumption
    | with_reducible apply State.onMem_fr
    | exact fun _ => ⟨rfl, rfl, rfl, rfl⟩

theorem State.retireEnd_fr {X : Nat} {s0 : State} {s : State} {a1 : Retire} (h : Fr X s0 s) (hX : Sub 0x2c000170000000 X) :
    Fr X s0 (State.retireEnd s a1) := by
  unfold State.retireEnd
  repeat' first
    | with_reducible assumption
    | ((with_reducible apply hX.after); exact rfl)
    | with_reducible apply State.finish_fr
    | with_reducible apply State.raise_fr
    | with_reducible apply State.rebindHbm_fr
    | with_reducible apply State.onMem_fr
    | with_reducible apply State.setUnitSt_fr
    | exact fun _ => ⟨rfl, rfl, rfl, rfl⟩
    | (extract_lets +onlyGivenNames x; (refine Fr.cut (X := X) (s0 := s0) (s := x) ?_ (fun hx => ?_); (on_goal 2 => clear_value x); (on_goal 1 => (unfold x; clear x))))
    | split

theorem State.beginRetire_fr {X : Nat} {s0 : State} {s : State} {a1 : Retire} (h : Fr X s0 s) (hX : Sub 0x2c000170000010 X) :
    Fr X s0 (State.beginRetire s a1) := by
  unfold State.beginRetire
  repeat' first
    | with_reducible assumption
    | ((with_reducible apply hX.after); exact rfl)
    | with_reducible apply State.raise_fr
    | with_reducible apply State.showSpares_fr
    | with_reducible apply State.onMem_fr
    | with_reducible apply State.setUnitSt_fr
    | with_reducible apply State.finish_fr
    | with_reducible apply State.retireEnd_fr
    | exact fun _ => ⟨rfl, rfl, rfl, rfl⟩
    | (intro x)
    | (extract_lets +onlyGivenNames x; first
        | (refine Fr.cut (X := X) (s0 := s0) (s := x) ?_ (fun hx => ?_); (on_goal 2 => clear_value x); (on_goal 1 => (unfold x; clear x)))
        | (refine Fr.cut_fn (X := X) (s0 := s0) (f := x) ?_ (fun hx => ?_); (on_goal 2 => clear_value x); (on_goal 1 => (unfold x; clear x)))
        | clear_value x)
    | split
    | with_reducible apply_assumption -exfalso -symm

theorem State.startRetires_fr {X : Nat} {s0 : State} {s : State} (h : Fr X s0 s) (hX : Sub 0x2c000170000010 X) :
    Fr X s0 (State.startRetires s) := by
  unfold State.startRetires
  repeat' first
    | with_reducible assumption
    | with_reducible apply State.beginRetire_fr
    | with_reducible apply Fr.foldl
    | (intro x)
    | split

theorem State.retireDone_fr {X : Nat} {s0 : State} {s : State} {a1 : Retire} (h : Fr X s0 s) (hX : Sub 0x2c000170000010 X) :
    Fr X s0 (State.retireDone s a1) := by
  unfold State.retireDone
  repeat' first
    | with_reducible assumption
    | ((with_reducible apply hX.after); exact rfl)
    | with_reducible apply State.startRetires_fr
    | with_reducible apply State.retireEnd_fr

theorem State.retireUnit_fr {X : Nat} {s0 : State} {s : State} {a1 : MemUnit} {a2 : Option OpKey} {a3 : Bool} (h : Fr X s0 s) (hX : Sub 0x2c000170000010 X) :
    Fr X s0 (State.retireUnit s a1 a2 a3) := by
  unfold State.retireUnit
  repeat' first
    | with_reducible assumption
    | ((with_reducible apply hX.after); exact rfl)
    | with_reducible apply State.finish_fr
    | with_reducible apply State.startRetires_fr
    | with_reducible apply State.showSpares_fr
    | with_reducible apply State.onMem_fr
    | with_reducible apply State.setUnitSt_fr
    | exact fun _ => ⟨rfl, rfl, rfl, rfl⟩
    | (extract_lets +onlyGivenNames x; first
        | (refine Fr.cut (X := X) (s0 := s0) (s := x) ?_ (fun hx => ?_); (on_goal 2 => clear_value x); (on_goal 1 => (unfold x; clear x)))
        | clear_value x)
    | split

theorem State.permanentFault_fr {X : Nat} {s0 : State} {s : State} {a1 : MemUnit} (h : Fr X s0 s) (hX : Sub 0x2c100170000010 X) :
    Fr X s0 (State.permanentFault s a1) := by
  unfold State.permanentFault
  repeat' first
    | with_reducible assumption
    | ((with_reducible apply hX.after); exact rfl)
    | with_reducible apply State.retireUnit_fr
    | with_reducible apply State.healthAdd_fr
    | split

theorem State.ceJudge_fr {X : Nat} {s0 : State} {s : State} {a1 : MemUnit} {a2 : ℕ} (h : Fr X s0 s) (hX : Sub 0x2c100170000010 X) :
    Fr X s0 (State.ceJudge s a1 a2) := by
  unfold State.ceJudge
  repeat' first
    | with_reducible assumption
    | ((with_reducible apply hX.after); exact rfl)
    | with_reducible apply State.permanentFault_fr
    | with_reducible apply State.onMem_fr
    | exact fun _ => ⟨rfl, rfl, rfl, rfl⟩
    | (extract_lets +onlyGivenNames x; clear_value x)
    | split

theorem State.countCe_fr {X : Nat} {s0 : State} {s : State} {a1 : MemUnit} {a2 : ℕ} (h : Fr X s0 s) (hX : Sub 0x2c100170000010 X) :
    Fr X s0 (State.countCe s a1 a2) := by
  unfold State.countCe
  repeat' first
    | with_reducible assumption
    | ((with_reducible apply hX.after); exact rfl)
    | with_reducible apply State.ceJudge_fr
    | with_reducible apply State.onMem_fr
    | exact fun _ => ⟨rfl, rfl, rfl, rfl⟩

theorem State.ceJudgeAll_fr {X : Nat} {s0 : State} {s : State} {a1 : ℕ} (h : Fr X s0 s) (hX : Sub 0x2c100170000010 X) :
    Fr X s0 (State.ceJudgeAll s a1) := by
  unfold State.ceJudgeAll
  repeat' first
    | with_reducible assumption
    | with_reducible apply State.ceJudge_fr
    | with_reducible apply Fr.foldl
    | (intro x)

theorem State.noteBurst_fr {X : Nat} {s0 : State} {s : State} {a1 : MemUnit} {a2 : Option ℕ} {a3 : BurstErr} (h : Fr X s0 s) (hX : Sub 0x2c100170000010 X) :
    Fr X s0 (State.noteBurst s a1 a2 a3).2 := by
  unfold State.noteBurst
  repeat' first
    | with_reducible assumption
    | ((with_reducible apply hX.after); exact rfl)
    | with_reducible apply State.permanentFault_fr
    | with_reducible apply State.countCe_fr
    | with_reducible apply State.fresh_fr
    | with_reducible apply State.raise_fr
    | with_reducible apply Fr.foldl
    | (intro x)
    | (extract_lets +onlyGivenNames x; first
        | (refine Fr.cut (X := X) (s0 := s0) (s := x) ?_ (fun hx => ?_); (on_goal 2 => clear_value x); (on_goal 1 => (unfold x; clear x)))
        | clear_value x)
    | split

theorem State.readErrs_fr {X : Nat} {s0 : State} {s : State} {a1 : ℕ} {a2 : ℕ} {a3 : ℕ} {a4 : MemRead} (h : Fr X s0 s) (hX : Sub 0x2c100170000010 X) :
    Fr X s0 (State.readErrs s a1 a2 a3 a4).2 := by
  unfold State.readErrs
  repeat' first
    | with_reducible assumption
    | with_reducible apply State.noteBurst_fr
    | with_reducible apply Fr.foldl_snd
    | with_reducible refine Fr.of_snd (by assumption) ?_
    | (intro x)
    | (extract_lets +onlyGivenNames x; clear_value x)
    | split

theorem State.dvaGet_fr {X : Nat} {s0 : State} {s : State} {a1 : ℕ} {a2 : ℕ} {a3 : ℕ} {a4 : MemRead} (h : Fr X s0 s) (hX : Sub 0x2c100170000010 X) :
    Fr X s0 (State.dvaGet s a1 a2 a3 a4).2 := by
  unfold State.dvaGet
  repeat' first
    | with_reducible assumption
    | ((with_reducible apply hX.after); exact rfl)
    | with_reducible apply State.readErrs_fr
    | with_reducible apply State.cacheRange_fr
    | with_reducible refine Fr.of_snd (by assumption) ?_
    | (extract_lets +onlyGivenNames x; (refine Fr.cut (X := X) (s0 := s0) (s := x) ?_ (fun hx => ?_); (on_goal 2 => clear_value x); (on_goal 1 => (unfold x; clear x))))
    | split

theorem State.copyRead_fr {X : Nat} {s0 : State} {s : State} {a1 : Retire} {a2 : MemRead} (h : Fr X s0 s) (hX : Sub 0x2c180170000010 X) :
    Fr X s0 (State.copyRead s a1 a2) := by
  unfold State.copyRead
  repeat' first
    | with_reducible assumption
    | ((with_reducible apply hX.after); exact rfl)
    | with_reducible apply State.noteBurst_fr
    | with_reducible apply State.loseBlock_fr
    | with_reducible apply Fr.foldl
    | with_reducible apply Fr.foldl_snd
    | with_reducible refine Fr.of_snd (by assumption) ?_
    | (intro x)
    | (extract_lets +onlyGivenNames x; first
        | (refine Fr.cut_fn7 (X := X) (s0 := s0) (f := x) ?_ (fun hx => ?_); (on_goal 2 => clear_value x); (on_goal 1 => (unfold x; clear x)))
        | clear_value x)
    | split

theorem State.retireBlock_fr {X : Nat} {s0 : State} {s : State} {a1 : MemUnit} {a2 : MemRead} (h : Fr X s0 s) (hX : Sub 0x2c180170000010 X) :
    Fr X s0 (State.retireBlock s a1 a2) := by
  unfold State.retireBlock
  repeat' first
    | with_reducible assumption
    | ((with_reducible apply hX.after); exact rfl)
    | with_reducible apply State.onMem_fr
    | with_reducible apply State.copyRead_fr
    | with_reducible apply State.retireDone_fr
    | with_reducible apply State.raise_fr
    | exact fun _ => ⟨rfl, rfl, rfl, rfl⟩
    | (intro x)
    | (extract_lets +onlyGivenNames x; first
        | (refine Fr.cut (X := X) (s0 := s0) (s := x) ?_ (fun hx => ?_); (on_goal 2 => clear_value x); (on_goal 1 => (unfold x; clear x)))
        | (refine Fr.cut_fn2 (X := X) (s0 := s0) (f := x) ?_ (fun hx => ?_); (on_goal 2 => clear_value x); (on_goal 1 => (unfold x; clear x)))
        | clear_value x)
    | split
    | with_reducible apply_assumption -exfalso -symm

theorem State.setHold_fr {X : Nat} {s0 : State} {s : State} {a1 : OpKey} {a2 : Hold} (h : Fr X s0 s) (hX : Sub 0x40000000 X) :
    Fr X s0 (State.setHold s a1 a2) := by
  unfold State.setHold
  repeat' first
    | with_reducible assumption
    | with_reducible apply State.setOp_fr
    | split

theorem State.mmuFault_fr {X : Nat} {s0 : State} {s : State} {a1 : ℕ} {a2 : ℕ} {a3 : ℕ} {a4 : Bool} (h : Fr X s0 s) (hX : Sub 0x2c000070000000 X) :
    Fr X s0 (State.mmuFault s a1 a2 a3 a4) := by
  unfold State.mmuFault
  repeat' first
    | with_reducible assumption
    | with_reducible apply State.raise_fr
    | (extract_lets +onlyGivenNames x; clear_value x)
    | split

theorem State.devFault_fr {X : Nat} {s0 : State} {s : State} {a1 : Op} {a2 : ℕ} {a3 : ℕ} {a4 : ℕ} {a5 : Bool} (h : Fr X s0 s) (hX : Sub 0x2c000070000000 X) :
    Fr X s0 (State.devFault s a1 a2 a3 a4 a5) := by
  unfold State.devFault
  repeat' first
    | with_reducible assumption
    | ((with_reducible apply hX.after); exact rfl)
    | with_reducible apply State.finish_fr
    | with_reducible apply State.mmuFault_fr
    | with_reducible apply State.setHold_fr
    | (extract_lets +onlyGivenNames x; (refine Fr.cut (X := X) (s0 := s0) (s := x) ?_ (fun hx => ?_); (on_goal 2 => clear_value x); (on_goal 1 => (unfold x; clear x))))
    | split

theorem State.askPage_fr {X : Nat} {s0 : State} {s : State} {a1 : ℕ} {a2 : ℕ} {a3 : Bool} (h : Fr X s0 s) (hX : Sub 0x8000000000000 X) :
    Fr X s0 (State.askPage s a1 a2 a3).2 := by
  unfold State.askPage
  repeat' first
    | with_reducible assumption
    | with_reducible apply State.emit_fr
    | split

theorem State.pageRequest_fr {X : Nat} {s0 : State} {s : State} {a1 : OpKey} {a2 : ℕ} {a3 : Bool} (h : Fr X s0 s) (hX : Sub 0x8000040000000 X) :
    Fr X s0 (State.pageRequest s a1 a2 a3) := by
  unfold State.pageRequest
  repeat' first
    | with_reducible assumption
    | ((with_reducible apply hX.after); exact rfl)
    | with_reducible apply State.askPage_fr
    | with_reducible apply State.setHold_fr

theorem State.nextPageRequest_fr {X : Nat} {s0 : State} {s : State} (h : Fr X s0 s) (hX : Sub 0x8020040000000 X) :
    Fr X s0 (State.nextPageRequest s) := by
  unfold State.nextPageRequest
  repeat' first
    | with_reducible assumption
    | ((with_reducible apply hX.after); exact rfl)
    | with_reducible apply State.emit_fr
    | with_reducible apply State.setHold_fr
    | (with_reducible apply Fr.tfb_; (on_goal 1 => (first | with_reducible assumption | with_reducible apply State.emit_fr | with_reducible apply State.setHold_fr | with_reducible refine Fr.of_snd (by assumption) ?_)))
    | split
    | ((with_reducible apply hX.bit); exact rfl)

theorem State.atsFill_fr {X : Nat} {s0 : State} {s : State} {a1 : Bool} {a2 : ℕ} {a3 : ℕ} {a4 : ℕ} (h : Fr X s0 s) (hX : Sub 0x100000000 X) :
    Fr X s0 (State.atsFill s a1 a2 a3 a4) := by
  unfold State.atsFill
  repeat' first
    | with_reducible assumption
    | with_reducible apply State.onMem_fr
    | exact fun _ => ⟨rfl, rfl, rfl, rfl⟩
    | split

theorem State.ddrDomain_fr {X : Nat} {s0 : State} {s : State} {a1 : Op} (h : Fr X s0 s) (hX : Sub 0x2c000170000010 X) :
    Fr X s0 (State.ddrDomain s a1) := by
  unfold State.ddrDomain
  repeat' first
    | with_reducible assumption
    | ((with_reducible apply hX.after); exact rfl)
    | with_reducible apply State.finish_fr
    | with_reducible apply State.onMem_fr
    | with_reducible apply State.emit_fr
    | with_reducible apply State.setUnitSt_fr
    | with_reducible apply State.retireUnit_fr
    | exact fun _ => ⟨rfl, rfl, rfl, rfl⟩
    | (extract_lets +onlyGivenNames x; clear_value x)
    | split

theorem State.ddrTrained_fr {X : Nat} {s0 : State} {s : State} {a1 : ℕ} {a2 : ℕ} {a3 : Bool} (h : Fr X s0 s) (hX : Sub 0x2c000170000000 X) :
    Fr X s0 (State.ddrTrained s a1 a2 a3) := by
  unfold State.ddrTrained
  repeat' first
    | with_reducible assumption
    | ((with_reducible apply hX.after); exact rfl)
    | with_reducible apply State.finish_fr
    | with_reducible apply State.onMem_fr
    | with_reducible apply State.setUnitSt_fr
    | with_reducible apply State.raise_fr
    | with_reducible apply Fr.foldl
    | exact fun _ => ⟨rfl, rfl, rfl, rfl⟩
    | (intro x)
    | (extract_lets +onlyGivenNames x; (refine Fr.cut (X := X) (s0 := s0) (s := x) ?_ (fun hx => ?_); (on_goal 2 => clear_value x); (on_goal 1 => (unfold x; clear x))))
    | split

theorem State.retireWithout_fr {X : Nat} {s0 : State} {s : State} {a1 : ℕ} (h : Fr X s0 s) (hX : Sub 0x2c000170000010 X) :
    Fr X s0 (State.retireWithout s a1) := by
  unfold State.retireWithout
  repeat' first
    | with_reducible assumption
    | ((with_reducible apply hX.after); exact rfl)
    | with_reducible apply State.retireDone_fr
    | with_reducible apply State.onMem_fr
    | with_reducible apply Fr.foldl
    | exact fun _ => ⟨rfl, rfl, rfl, rfl⟩
    | (intro x)

theorem State.extentRegained_fr {X : Nat} {s0 : State} {s : State} {a1 : ℕ} (h : Fr X s0 s) (hX : Sub 0x100000000 X) :
    Fr X s0 (State.extentRegained s a1) := by
  unfold State.extentRegained
  repeat' first
    | with_reducible assumption
    | with_reducible apply State.onMem_fr
    | exact fun _ => ⟨rfl, rfl, rfl, rfl⟩

theorem State.ddrExtentReq_fr {X : Nat} {s0 : State} {s : State} {o : Op} (h : Fr X s0 s) (hX : Sub 0x3c000170000010 X) :
    Fr X s0 (State.ddrExtentReq s o) := by
  unfold State.ddrExtentReq
  extract_lets e lo
  split
  · exact State.finish_fr h (hX.after rfl)
  · refine State.finish_fr (State.retireWithout_fr (State.onMem_bytes h (hX.after rfl) fun m hm => ?_) (hX.after rfl))
      (hX.after rfl)
    dsimp only
    exact Memory.wf_clear _ _ _ hm
  · exact State.finish_fr h (hX.after rfl)
  · split
    · exact State.finish_fr h (hX.after rfl)
    · exact State.finish_fr (State.extentRegained_fr (State.onMem_bytes (State.fresh_fr h (hX.after rfl)) (hX.after rfl)
        fun m hm => hm) (hX.after rfl)) (hX.after rfl)


theorem State.memRetire_fr {X : Nat} {s0 : State} {s : State} {a1 : Op} (h : Fr X s0 s) (hX : Sub 0x2c000170000010 X) :
    Fr X s0 (State.memRetire s a1) := by
  unfold State.memRetire
  repeat' first
    | with_reducible assumption
    | ((with_reducible apply hX.after); exact rfl)
    | with_reducible apply State.finish_fr
    | with_reducible apply State.retireUnit_fr
    | (extract_lets +onlyGivenNames x; clear_value x)
    | split

theorem State.ceWindow_fr {X : Nat} {s0 : State} {s : State} {a1 : ℕ} (h : Fr X s0 s) (hX : Sub 0x100000000 X) :
    Fr X s0 (State.ceWindow s a1) := by
  unfold State.ceWindow
  repeat' first
    | with_reducible assumption
    | with_reducible apply State.onMem_fr
    | exact fun _ => ⟨rfl, rfl, rfl, rfl⟩

theorem State.scrub_fr {X : Nat} {s0 : State} {s : State} {a1 : MemUnit} {a2 : ℕ} {a3 : MemRead} (h : Fr X s0 s) (hX : Sub 0x3c100170000010 X) :
    Fr X s0 (State.scrub s a1 a2 a3) := by
  unfold State.scrub
  repeat' first
    | with_reducible assumption
    | ((with_reducible apply hX.after); exact rfl)
    | with_reducible apply State.noteBurst_fr
    | with_reducible apply State.memWrite_fr
    | with_reducible apply Fr.foldl
    | with_reducible refine Fr.of_snd (by assumption) ?_
    | (intro x)
    | (extract_lets +onlyGivenNames x; clear_value x)
    | split

theorem execDdrDomain_fr {X : Nat} {s0 : State} {a0 : OpKey} {s : State} (h : Fr X s0 s) (hX : Sub 0x2c000170000010 X) {t : State}
    (ht : execDdrDomain a0 s = .next t) : Fr X s0 t := by
  unfold execDdrDomain at ht
  obtain rfl := Host.Outcome.next.inj ht
  repeat' first
    | with_reducible assumption
    | ((with_reducible apply hX.after); exact rfl)
    | with_reducible apply State.mgmtPF_fr
    | with_reducible apply State.ddrDomain_fr
    | (intro x)

theorem execDdrTrainDone_fr {X : Nat} {s0 : State} {a0 : ℕ} {a1 : ℕ} {a2 : Bool} {s : State} (h : Fr X s0 s) (hX : Sub 0x2c000170000000 X) {t : State}
    (ht : execDdrTrainDone a0 a1 a2 s = .next t) : Fr X s0 t := by
  unfold execDdrTrainDone at ht
  obtain rfl := Host.Outcome.next.inj ht
  repeat' first
    | with_reducible assumption
    | ((with_reducible apply hX.after); exact rfl)
    | with_reducible apply State.inCore_fr
    | with_reducible apply State.ddrTrained_fr
    | (intro x)

theorem execDdrExtent_fr {X : Nat} {s0 : State} {a0 : OpKey} {s : State} (h : Fr X s0 s) (hX : Sub 0x3c000170000010 X) {t : State}
    (ht : execDdrExtent a0 s = .next t) : Fr X s0 t := by
  unfold execDdrExtent at ht
  obtain rfl := Host.Outcome.next.inj ht
  repeat' first
    | with_reducible assumption
    | ((with_reducible apply hX.after); exact rfl)
    | with_reducible apply State.mgmtPF_fr
    | with_reducible apply State.ddrExtentReq_fr
    | (intro x)

theorem execMemRetire_fr {X : Nat} {s0 : State} {a0 : OpKey} {s : State} (h : Fr X s0 s) (hX : Sub 0x2c000170000010 X) {t : State}
    (ht : execMemRetire a0 s = .next t) : Fr X s0 t := by
  unfold execMemRetire at ht
  obtain rfl := Host.Outcome.next.inj ht
  repeat' first
    | with_reducible assumption
    | ((with_reducible apply hX.after); exact rfl)
    | with_reducible apply State.mgmtPF_fr
    | with_reducible apply State.memRetire_fr
    | (intro x)

theorem execRetireBlockCopy_fr {X : Nat} {s0 : State} {a0 : MemUnit} {a1 : MemRead} {s : State} (h : Fr X s0 s) (hX : Sub 0x2c180170000010 X) {t : State}
    (ht : execRetireBlockCopy a0 a1 s = .next t) : Fr X s0 t := by
  unfold execRetireBlockCopy at ht
  obtain rfl := Host.Outcome.next.inj ht
  repeat' first
    | with_reducible assumption
    | ((with_reducible apply hX.after); exact rfl)
    | with_reducible apply State.inCore_fr
    | with_reducible apply State.retireBlock_fr
    | (intro x)

theorem execScrubRead_fr {X : Nat} {s0 : State} {a0 : MediaAt} {a1 : MemRead} {s : State} (h : Fr X s0 s) (hX : Sub 0x3c100170000010 X) {t : State}
    (ht : execScrubRead a0 a1 s = .next t) : Fr X s0 t := by
  unfold execScrubRead at ht
  obtain rfl := Host.Outcome.next.inj ht
  repeat' first
    | with_reducible assumption
    | ((with_reducible apply hX.after); exact rfl)
    | with_reducible apply State.inCore_fr
    | with_reducible apply State.scrub_fr
    | (intro x)

theorem execCeWindowEnd_fr {X : Nat} {s0 : State} {a0 : ℕ} {s : State} (h : Fr X s0 s) (hX : Sub 0x100000000 X) {t : State}
    (ht : execCeWindowEnd a0 s = .next t) : Fr X s0 t := by
  unfold execCeWindowEnd at ht
  obtain rfl := Host.Outcome.next.inj ht
  repeat' first
    | with_reducible assumption
    | ((with_reducible apply hX.after); exact rfl)
    | with_reducible apply State.inCore_fr
    | with_reducible apply State.ceWindow_fr
    | (intro x)





theorem State.timeCapture_fr {X : Nat} {s0 : State} {s : State} {a1 : ℕ} (h : Fr X s0 s) (hX : Sub 0x200000 X) :
    Fr X s0 (State.timeCapture s a1) := by
  unfold State.timeCapture
  repeat' first
    | with_reducible assumption
    | with_reducible apply State.setFld_fr
    | split
    | ((with_reducible apply hX.ok); exact rfl)

theorem State.setCandidate_fr {X : Nat} {s0 : State} {s : State} {a1 : ℤ} (h : Fr X s0 s) (hX : Sub 0x200000 X) :
    Fr X s0 (State.setCandidate s a1) := by
  unfold State.setCandidate
  repeat' first
    | with_reducible assumption
    | with_reducible apply State.setFld_fr
    | ((with_reducible apply hX.ok); exact rfl)

theorem State.clearCandidate_fr {X : Nat} {s0 : State} {s : State} (h : Fr X s0 s) (hX : Sub 0x200000 X) :
    Fr X s0 (State.clearCandidate s) := by
  unfold State.clearCandidate
  repeat' first
    | with_reducible assumption
    | with_reducible apply State.setFld_fr
    | with_reducible apply State.setFlag_fr
    | with_reducible apply State.setCandidate_fr
    | ((with_reducible apply hX.ok); exact rfl)

theorem State.refuseJump_fr {X : Nat} {s0 : State} {s : State} {a1 : ℤ} (h : Fr X s0 s) (hX : Sub 0x2c000070200000 X) :
    Fr X s0 (State.refuseJump s a1) := by
  unfold State.refuseJump
  repeat' first
    | with_reducible assumption
    | ((with_reducible apply hX.after); exact rfl)
    | with_reducible apply State.bump_fr
    | with_reducible apply State.raise_fr
    | with_reducible apply State.setFld_fr
    | with_reducible apply State.setFlag_fr
    | with_reducible apply State.setCandidate_fr
    | (extract_lets +onlyGivenNames x; first
        | (refine Fr.cut (X := X) (s0 := s0) (s := x) ?_ (fun hx => ?_); (on_goal 2 => clear_value x); (on_goal 1 => (unfold x; clear x)))
        | clear_value x)
    | split
    | ((with_reducible apply hX.ok); exact rfl)

theorem State.guardStep_fr_apply {X : Nat} {s0 s t : State} {d : Int} (h : Fr X s0 s) (hX : Sub 0x2c000270200000 X)
    (ht : s.guardStep d = .apply t) : Fr X s0 t := by
  have key : ∀ n, Fr X s0 { s with time := { s.time with consistApplied := n } } := fun n =>
    Fr.time_ h (hX.bit rfl) fun ht => ht
  unfold State.guardStep at ht
  by_cases ha : (!s.flag Reg.TIM_STATUS_TRACK) = true
  · rw [if_pos ha] at ht
    cases ht
    exact Fr.ite (fun _ => State.setFlag_fr (key _) (hX.ok rfl)) fun _ => key _
  · rw [if_neg ha] at ht
    by_cases hb : decide (d.natAbs ≤ s.fld Reg.TIM_GUARD_CFG_JUMP_NS) = true
    · rw [if_pos hb] at ht
      cases ht
      exact State.clearCandidate_fr h (hX.after rfl)
    · rw [if_neg hb] at ht
      cases ht

theorem State.guardStep_fr_refuse {X : Nat} {s0 s t : State} {d : Int} (h : Fr X s0 s) (hX : Sub 0x2c000270200000 X)
    (ht : s.guardStep d = .refuse t) : Fr X s0 t := by
  unfold State.guardStep at ht
  by_cases ha : (!s.flag Reg.TIM_STATUS_TRACK) = true
  · rw [if_pos ha] at ht
    cases ht
  · rw [if_neg ha] at ht
    by_cases hb : decide (d.natAbs ≤ s.fld Reg.TIM_GUARD_CFG_JUMP_NS) = true
    · rw [if_pos hb] at ht
      cases ht
    · rw [if_neg hb] at ht
      cases ht
      exact State.refuseJump_fr h (hX.after rfl)








theorem execTimeCapture_fr {X : Nat} {s0 : State} {a0 : Word} {s : State} (h : Fr X s0 s) (hX : Sub 0x200000 X) {t : State}
    (ht : execTimeCapture a0 s = .next t) : Fr X s0 t := by
  unfold execTimeCapture at ht
  obtain rfl := Host.Outcome.next.inj ht
  repeat' first
    | with_reducible assumption
    | ((with_reducible apply hX.after); exact rfl)
    | with_reducible apply State.inAon_fr
    | with_reducible apply State.timeCapture_fr
    | (intro x)

theorem execPpsInEdge_fr {X : Nat} {s0 : State} {s : State} (h : Fr X s0 s) (hX : Sub 0x200200000 X) {t : State}
    (ht : execPpsInEdge s = .next t) : Fr X s0 t := by
  unfold execPpsInEdge at ht
  obtain rfl := Host.Outcome.next.inj ht
  repeat' first
    | with_reducible assumption
    | ((with_reducible apply hX.after); exact rfl)
    | with_reducible apply State.inAon_fr
    | with_reducible apply State.ppsEdge_fr
    | (intro x)

theorem execPpsOutPulse_fr {X : Nat} {s0 : State} {s : State} (h : Fr X s0 s) (hX : Sub 0x200000000 X) {t : State}
    (ht : execPpsOutPulse s = .next t) : Fr X s0 t := by
  unfold execPpsOutPulse at ht
  obtain rfl := Host.Outcome.next.inj ht
  repeat' first
    | with_reducible assumption
    | ((with_reducible apply hX.after); exact rfl)
    | with_reducible apply State.inAon_fr
    | with_reducible apply State.ppsRise_fr
    | (intro x)

theorem execPpsOutFall_fr {X : Nat} {s0 : State} {s : State} (h : Fr X s0 s) (hX : Sub 0x200000000 X) {t : State}
    (ht : execPpsOutFall s = .next t) : Fr X s0 t := by
  unfold execPpsOutFall at ht
  obtain rfl := Host.Outcome.next.inj ht
  repeat' first
    | with_reducible assumption
    | ((with_reducible apply hX.after); exact rfl)
    | with_reducible apply State.inAon_fr
    | (with_reducible apply Fr.time_; (on_goal 1 => (first | with_reducible assumption | with_reducible apply State.inAon_fr | with_reducible refine Fr.of_snd (by assumption) ?_)))
    | ((with_reducible apply hX.bit); exact rfl)
    | exact fun ht => ht
    | (intro x)

theorem execPtpMasterLost_fr {X : Nat} {s0 : State} {s : State} (h : Fr X s0 s) (hX : Sub 0x200200000 X) {t : State}
    (ht : execPtpMasterLost s = .next t) : Fr X s0 t := by
  unfold execPtpMasterLost at ht
  obtain rfl := Host.Outcome.next.inj ht
  repeat' first
    | with_reducible assumption
    | ((with_reducible apply hX.after); exact rfl)
    | with_reducible apply State.inAon_fr
    | with_reducible apply State.setFlag_fr
    | (with_reducible apply Fr.time_; (on_goal 1 => (first | with_reducible assumption | with_reducible apply State.inAon_fr | with_reducible apply State.setFlag_fr | with_reducible refine Fr.of_snd (by assumption) ?_)))
    | ((with_reducible apply hX.ok); exact rfl)
    | ((with_reducible apply hX.bit); exact rfl)
    | exact fun ht => ht
    | (intro x)

theorem State.setCox_fr {X : Nat} {s0 : State} {s : State} {a1 : ℕ} {a2 : ℕ} {a3 : ℕ} (h : Fr X s0 s) (hX : Sub 0x4 X) :
    Fr X s0 (State.setCox s a1 a2 a3) := by
  unfold State.setCox
  repeat' first
    | with_reducible assumption
    | with_reducible apply State.setFld_fr
    | ((with_reducible apply hX.ok); exact rfl)
    | (with_reducible apply Sub.nth)

theorem State.handOver_fr {X : Nat} {s0 : State} {s : State} {a1 : ℕ} {a2 : ℕ} {a3 : ℕ} {a4 : ℕ} (h : Fr X s0 s) (hX : Sub 0x2c000070000004 X) :
    Fr X s0 (State.handOver s a1 a2 a3 a4) := by
  unfold State.handOver
  repeat' first
    | with_reducible assumption
    | ((with_reducible apply hX.after); exact rfl)
    | with_reducible apply State.raise_fr
    | with_reducible apply State.resumeSet_fr
    | with_reducible apply State.setCox_fr

theorem State.startReload_fr {X : Nat} {s0 : State} {s : State} {a1 : ℕ} {a2 : List OpKey} {a3 : Bool} (h : Fr X s0 s) (hX : Sub 0x80000004 X) :
    Fr X s0 (State.startReload s a1 a2 a3) := by
  unfold State.startReload
  repeat' first
    | with_reducible assumption
    | ((with_reducible apply hX.after); exact rfl)
    | with_reducible apply State.setFld_fr
    | with_reducible apply State.setCox_fr
    | (with_reducible apply Fr.cox_; (on_goal 1 => (first | with_reducible assumption | with_reducible apply State.bump_fr | with_reducible apply State.setFld_fr | with_reducible apply State.setCox_fr | with_reducible refine Fr.of_snd (by assumption) ?_)))
    | ((with_reducible apply hX.ok); exact rfl)
    | ((with_reducible apply hX.bit); exact rfl)
    | (with_reducible apply Sub.nth)

theorem State.coxHang_fr {X : Nat} {s0 : State} {s : State} {a1 : ℕ} {a2 : ℕ} (h : Fr X s0 s) (hX : Sub 0x2c0000f0000004 X) :
    Fr X s0 (State.coxHang s a1 a2) := by
  unfold State.coxHang
  repeat' first
    | with_reducible assumption
    | ((with_reducible apply hX.after); exact rfl)
    | with_reducible apply State.startReload_fr
    | with_reducible apply State.handOver_fr
    | with_reducible apply State.setFlag_fr
    | with_reducible apply State.raise_fr
    | (with_reducible apply Fr.cox_; (on_goal 1 => (first | with_reducible assumption | with_reducible apply State.startReload_fr | with_reducible apply State.handOver_fr | with_reducible apply State.setFlag_fr | with_reducible apply State.raise_fr | with_reducible refine Fr.of_snd (by assumption) ?_)))
    | (extract_lets +onlyGivenNames x; first
        | (refine Fr.cut (X := X) (s0 := s0) (s := x) ?_ (fun hx => ?_); (on_goal 2 => clear_value x); (on_goal 1 => (unfold x; clear x)))
        | clear_value x)
    | split
    | ((with_reducible apply hX.ok); exact rfl)
    | ((with_reducible apply hX.bit); exact rfl)
    | (with_reducible apply Sub.nth)

theorem State.selfCheck_fr {X : Nat} {s0 : State} {s : State} (h : Fr X s0 s) (hX : Sub 0x80000000 X) :
    Fr X s0 (State.selfCheck s) := by
  unfold State.selfCheck
  exact Fr.cox_ h (hX.bit rfl)

theorem State.takeHeld_fr {X : Nat} {s0 : State} {s : State} {a1 : ℕ} (h : Fr X s0 s) (hX : Sub 0x40000004 X) :
    Fr X s0 (State.takeHeld s a1) := by
  unfold State.takeHeld
  repeat' first
    | with_reducible assumption
    | ((with_reducible apply hX.after); exact rfl)
    | with_reducible apply State.resumeSet_fr
    | with_reducible apply State.setFlag_fr
    | with_reducible apply State.setCox_fr
    | split
    | ((with_reducible apply hX.ok); exact rfl)
    | (with_reducible apply Sub.nth)

theorem State.setUpCox_fr {X : Nat} {s0 : State} {s : State} {a1 : ℕ} (h : Fr X s0 s) (hX : Sub 0x20000000000001 X) :
    Fr X s0 (State.setUpCox s a1) := by
  unfold State.setUpCox
  repeat' first
    | with_reducible assumption
    | with_reducible apply State.setFld_fr
    | ((with_reducible apply hX.ok); exact rfl)

theorem State.setUp_fr {X : Nat} {s0 : State} {s : State} {a1 : ℕ} (h : Fr X s0 s) (hX : Sub 0x2c000070000001 X) :
    Fr X s0 (State.setUp s a1) := by
  unfold State.setUp
  repeat' first
    | with_reducible assumption
    | ((with_reducible apply hX.after); exact rfl)
    | with_reducible apply State.setFld_fr
    | with_reducible apply State.raise_fr
    | (extract_lets +onlyGivenNames x; (refine Fr.cut (X := X) (s0 := s0) (s := x) ?_ (fun hx => ?_); (on_goal 2 => clear_value x); (on_goal 1 => (unfold x; clear x))))
    | split
    | ((with_reducible apply hX.ok); exact rfl)

theorem State.endUpdate_fr {X : Nat} {s0 : State} {s : State} {a1 : ℕ} (h : Fr X s0 s) (hX : Sub 0x48000000 X) :
    Fr X s0 (State.endUpdate s a1) := by
  unfold State.endUpdate
  repeat' first
    | with_reducible assumption
    | ((with_reducible apply hX.after); exact rfl)
    | with_reducible apply State.finish_fr
    | (with_reducible apply Fr.boot_; (on_goal 1 => (first | with_reducible assumption | with_reducible apply State.finish_fr | with_reducible refine Fr.of_snd (by assumption) ?_)))
    | split
    | ((with_reducible apply hX.bit); exact rfl)

theorem State.haltUpdate_fr {X : Nat} {s0 : State} {s : State} {a1 : ℕ} (h : Fr X s0 s) (hX : Sub 0x2c000078000001 X) :
    Fr X s0 (State.haltUpdate s a1) := by
  unfold State.haltUpdate
  repeat' first
    | with_reducible assumption
    | ((with_reducible apply hX.after); exact rfl)
    | with_reducible apply State.endUpdate_fr
    | with_reducible apply State.setUp_fr
    | with_reducible apply State.setUpCox_fr
    | with_reducible apply State.setFld_fr
    | ((with_reducible apply hX.ok); exact rfl)

theorem State.awaitStandby_fr {X : Nat} {s0 : State} {s : State} (h : Fr X s0 s) (hX : Sub 0x2c000070000001 X) :
    Fr X s0 (State.awaitStandby s) := by
  unfold State.awaitStandby
  repeat' first
    | with_reducible assumption
    | ((with_reducible apply hX.after); exact rfl)
    | with_reducible apply State.setUp_fr
    | with_reducible apply State.setUpCox_fr

theorem State.rotate_fr {X : Nat} {s0 : State} {s : State} (h : Fr X s0 s) (hX : Sub 0x2c0000f8000005 X) :
    Fr X s0 (State.rotate s) := by
  unfold State.rotate
  repeat' first
    | with_reducible assumption
    | ((with_reducible apply hX.after); exact rfl)
    | with_reducible apply State.setUp_fr
    | with_reducible apply State.setUpCox_fr
    | with_reducible apply State.startReload_fr
    | with_reducible apply State.handOver_fr
    | with_reducible apply State.awaitStandby_fr
    | (with_reducible apply Fr.boot_; (on_goal 1 => (first | with_reducible assumption | with_reducible apply State.setUp_fr | with_reducible apply State.setUpCox_fr | with_reducible apply State.startReload_fr | with_reducible apply State.handOver_fr | with_reducible apply State.awaitStandby_fr | with_reducible refine Fr.of_snd (by assumption) ?_)))
    | (intro x)
    | (extract_lets +onlyGivenNames x; first
        | (refine Fr.cut_fn (X := X) (s0 := s0) (f := x) ?_ (fun hx => ?_); (on_goal 2 => clear_value x); (on_goal 1 => (unfold x; clear x)))
        | clear_value x)
    | split
    | ((with_reducible apply hX.bit); exact rfl)
    | with_reducible apply_assumption -exfalso -symm

theorem State.resumeRotation_fr {X : Nat} {s0 : State} {s : State} (h : Fr X s0 s) (hX : Sub 0x2c0000f8000005 X) :
    Fr X s0 (State.resumeRotation s) := by
  unfold State.resumeRotation
  repeat' first
    | with_reducible assumption
    | with_reducible apply State.rotate_fr
    | split

theorem State.reloadOk_fr {X : Nat} {s0 : State} {s : State} {a1 : ℕ} {a2 : Reload} (h : Fr X s0 s) (hX : Sub 0x2c0000f8000005 X) :
    Fr X s0 (State.reloadOk s a1 a2) := by
  unfold State.reloadOk
  repeat' first
    | with_reducible assumption
    | ((with_reducible apply hX.after); exact rfl)
    | with_reducible apply State.resumeRotation_fr
    | with_reducible apply State.takeHeld_fr
    | with_reducible apply State.finish_fr
    | with_reducible apply State.raise_fr
    | with_reducible apply State.setFld_fr
    | with_reducible apply State.setCox_fr
    | with_reducible apply Fr.foldl
    | (with_reducible apply Fr.cox_; (on_goal 1 => (first | with_reducible assumption | with_reducible apply State.resumeRotation_fr | with_reducible apply State.takeHeld_fr | with_reducible apply State.finish_fr | with_reducible apply State.raise_fr | with_reducible apply State.setFld_fr | with_reducible apply State.setCox_fr | with_reducible apply Fr.foldl | with_reducible apply Fr.foldl_fst | with_reducible apply Fr.foldl_snd | with_reducible refine Fr.of_snd (by assumption) ?_)))
    | (intro x)
    | ((with_reducible apply hX.ok); exact rfl)
    | ((with_reducible apply hX.bit); exact rfl)
    | (with_reducible apply Sub.nth)

theorem State.reloadFail_fr {X : Nat} {s0 : State} {s : State} {a1 : ℕ} {a2 : Reload} (h : Fr X s0 s) (hX : Sub 0x2c0000f8000005 X) :
    Fr X s0 (State.reloadFail s a1 a2) := by
  unfold State.reloadFail
  repeat' first
    | with_reducible assumption
    | ((with_reducible apply hX.after); exact rfl)
    | with_reducible apply State.bump_fr
    | with_reducible apply State.haltUpdate_fr
    | with_reducible apply State.finish_fr
    | with_reducible apply State.raise_fr
    | with_reducible apply State.setFlag_fr
    | with_reducible apply State.setCox_fr
    | with_reducible apply State.resumeRotation_fr
    | with_reducible apply Fr.foldl
    | (with_reducible apply Fr.cox_; (on_goal 1 => (first | with_reducible assumption | with_reducible apply State.bump_fr | with_reducible apply State.haltUpdate_fr | with_reducible apply State.finish_fr | with_reducible apply State.raise_fr | with_reducible apply State.setFlag_fr | with_reducible apply State.setCox_fr | with_reducible apply State.resumeRotation_fr | with_reducible apply Fr.foldl | with_reducible apply Fr.foldl_fst | with_reducible apply Fr.foldl_snd | with_reducible refine Fr.of_snd (by assumption) ?_)))
    | (intro x)
    | (extract_lets +onlyGivenNames x; first
        | (refine Fr.cut (X := X) (s0 := s0) (s := x) ?_ (fun hx => ?_); (on_goal 2 => clear_value x); (on_goal 1 => (unfold x; clear x)))
        | clear_value x)
    | split
    | ((with_reducible apply hX.ok); exact rfl)
    | ((with_reducible apply hX.bit); exact rfl)
    | (with_reducible apply Sub.nth)

theorem State.reloadDone_fr {X : Nat} {s0 : State} {s : State} {a1 : ℕ} {a2 : Bool} (h : Fr X s0 s) (hX : Sub 0x2c0000f8000005 X) :
    Fr X s0 (State.reloadDone s a1 a2) := by
  unfold State.reloadDone
  repeat' first
    | with_reducible assumption
    | with_reducible apply State.reloadOk_fr
    | with_reducible apply State.reloadFail_fr
    | split

theorem State.coxReload_fr {X : Nat} {s0 : State} {s : State} {a1 : Op} (h : Fr X s0 s) (hX : Sub 0x2c0000f0000004 X) :
    Fr X s0 (State.coxReload s a1) := by
  unfold State.coxReload
  repeat' first
    | with_reducible assumption
    | ((with_reducible apply hX.after); exact rfl)
    | with_reducible apply State.finish_fr
    | with_reducible apply State.startReload_fr
    | with_reducible apply State.handOver_fr
    | (with_reducible apply Fr.cox_; (on_goal 1 => (first | with_reducible assumption | with_reducible apply State.finish_fr | with_reducible apply State.startReload_fr | with_reducible apply State.handOver_fr | with_reducible refine Fr.of_snd (by assumption) ?_)))
    | (extract_lets +onlyGivenNames x; clear_value x)
    | split
    | ((with_reducible apply hX.bit); exact rfl)

theorem State.refuseUpdate_fr {X : Nat} {s0 : State} {s : State} {a1 : OpKey} {a2 : ℕ} (h : Fr X s0 s) (hX : Sub 0x20000040000001 X) :
    Fr X s0 (State.refuseUpdate s a1 a2) := by
  unfold State.refuseUpdate
  repeat' first
    | with_reducible assumption
    | ((with_reducible apply hX.after); exact rfl)
    | with_reducible apply State.finish_fr
    | with_reducible apply State.setFld_fr
    | ((with_reducible apply hX.ok); exact rfl)

theorem State.updateStage_fr {X : Nat} {s0 : State} {s : State} {a1 : Op} (h : Fr X s0 s) (hX : Sub 0x2c000078000001 X) :
    Fr X s0 (State.updateStage s a1) := by
  unfold State.updateStage
  repeat' first
    | with_reducible assumption
    | ((with_reducible apply hX.after); exact rfl)
    | with_reducible apply State.refuseUpdate_fr
    | with_reducible apply State.setUp_fr
    | with_reducible apply State.setFld_fr
    | (with_reducible apply Fr.boot_; (on_goal 1 => (first | with_reducible assumption | with_reducible apply State.refuseUpdate_fr | with_reducible apply State.setUp_fr | with_reducible apply State.setFld_fr | with_reducible refine Fr.of_snd (by assumption) ?_)))
    | (extract_lets +onlyGivenNames x; first
        | (refine Fr.cut (X := X) (s0 := s0) (s := x) ?_ (fun hx => ?_); (on_goal 2 => clear_value x); (on_goal 1 => (unfold x; clear x)))
        | clear_value x)
    | split
    | ((with_reducible apply hX.ok); exact rfl)
    | ((with_reducible apply hX.bit); exact rfl)

theorem State.dropUpdate_fr {X : Nat} {s0 : State} {s : State} {a1 : ℕ} (h : Fr X s0 s) (hX : Sub 0x2c000078000001 X) :
    Fr X s0 (State.dropUpdate s a1) := by
  unfold State.dropUpdate
  repeat' first
    | ((with_reducible apply hX.after); exact rfl)
    | with_reducible apply State.endUpdate_fr
    | with_reducible apply State.setUp_fr
    | with_reducible apply State.setFld_fr
    | (with_reducible apply Fr.boot_; (on_goal 1 => (first | with_reducible assumption | with_reducible apply State.endUpdate_fr | with_reducible apply State.setUp_fr | with_reducible apply State.setFld_fr | with_reducible refine Fr.of_snd (by assumption) ?_)))
    | ((with_reducible apply hX.ok); exact rfl)
    | ((with_reducible apply hX.bit); exact rfl)

theorem State.stagingDone_fr {X : Nat} {s0 : State} {s : State} {a1 : Option Bytes} (h : Fr X s0 s) (hX : Sub 0x2c0000f8000005 X) :
    Fr X s0 (State.stagingDone s a1) := by
  unfold State.stagingDone
  repeat' first
    | with_reducible assumption
    | ((with_reducible apply hX.after); exact rfl)
    | with_reducible apply State.dropUpdate_fr
    | with_reducible apply State.rotate_fr
    | with_reducible apply State.setUp_fr
    | (with_reducible apply Fr.boot_; (on_goal 1 => (first | with_reducible assumption | with_reducible apply State.dropUpdate_fr | with_reducible apply State.rotate_fr | with_reducible apply State.setUp_fr | with_reducible refine Fr.of_snd (by assumption) ?_)))
    | (extract_lets +onlyGivenNames x; first
        | (refine Fr.cut (X := X) (s0 := s0) (s := x) ?_ (fun hx => ?_); (on_goal 2 => clear_value x); (on_goal 1 => (unfold x; clear x)))
        | clear_value x)
    | split
    | ((with_reducible apply hX.bit); exact rfl)

theorem State.startFlash_fr {X : Nat} {s0 : State} {s : State} (h : Fr X s0 s) (hX : Sub 0x2c000078000001 X) :
    Fr X s0 (State.startFlash s) := by
  unfold State.startFlash
  repeat' first
    | ((with_reducible apply hX.after); exact rfl)
    | with_reducible apply State.setUp_fr
    | (with_reducible apply Fr.boot_; (on_goal 1 => (first | with_reducible assumption | with_reducible apply State.setUp_fr | with_reducible refine Fr.of_snd (by assumption) ?_)))
    | ((with_reducible apply hX.bit); exact rfl)

theorem State.setJournal_fr {X : Nat} {s0 : State} {s : State} {a1 : List (ℕ × Bytes)} (h : Fr X s0 s) (hX : Sub 0x8000000 X) :
    Fr X s0 (State.setJournal s a1) := by
  unfold State.setJournal
  exact Fr.boot_ h (hX.bit rfl)

theorem State.journalEntry_fr {X : Nat} {s0 : State} {s : State} {a1 : ℕ} (h : Fr X s0 s) (hX : Sub 0x8000000 X) :
    Fr X s0 (State.journalEntry s a1) := by
  unfold State.journalEntry
  repeat' first
    | with_reducible assumption
    | with_reducible apply State.setJournal_fr
    | split

theorem State.journalClose_fr {X : Nat} {s0 : State} {s : State} {a1 : ℕ} (h : Fr X s0 s) (hX : Sub 0x8000000 X) :
    Fr X s0 (State.journalClose s a1) := by
  unfold State.journalClose
  repeat' first
    | with_reducible assumption
    | with_reducible apply State.setJournal_fr

theorem State.mgmtHandover_fr {X : Nat} {s0 : State} {s : State} {a1 : Bool} (h : Fr X s0 s) (hX : Sub 0x2c000078000001 X) :
    Fr X s0 (State.mgmtHandover s a1) := by
  unfold State.mgmtHandover
  repeat' first
    | with_reducible assumption
    | ((with_reducible apply hX.after); exact rfl)
    | with_reducible apply State.writeDeferred_fr
    | with_reducible apply State.haltUpdate_fr
    | with_reducible apply State.startFlash_fr
    | with_reducible apply State.setFld_fr
    | (with_reducible apply Fr.boot_; (on_goal 1 => (first | with_reducible assumption | with_reducible apply State.writeDeferred_fr | with_reducible apply State.haltUpdate_fr | with_reducible apply State.startFlash_fr | with_reducible apply State.setFld_fr | with_reducible refine Fr.of_snd (by assumption) ?_)))
    | (extract_lets +onlyGivenNames x; first
        | (refine Fr.cut (X := X) (s0 := s0) (s := x) ?_ (fun hx => ?_); (on_goal 2 => clear_value x); (on_goal 1 => (unfold x; clear x)))
        | clear_value x)
    | split
    | ((with_reducible apply hX.ok); exact rfl)
    | ((with_reducible apply hX.bit); exact rfl)
    | exact Sub.mgc (hX.ok rfl)

theorem State.flashNext_fr {X : Nat} {s0 : State} {s : State} (h : Fr X s0 s) (hX : Sub 0x2c000078000001 X) :
    Fr X s0 (State.flashNext s) := by
  unfold State.flashNext
  repeat' first
    | with_reducible assumption
    | ((with_reducible apply hX.after); exact rfl)
    | with_reducible apply State.bump_fr
    | with_reducible apply State.journalClose_fr
    | with_reducible apply State.endUpdate_fr
    | with_reducible apply State.setUp_fr
    | (with_reducible apply Fr.boot_; (on_goal 1 => (first | with_reducible assumption | with_reducible apply State.bump_fr | with_reducible apply State.journalClose_fr | with_reducible apply State.endUpdate_fr | with_reducible apply State.setUp_fr | with_reducible refine Fr.of_snd (by assumption) ?_)))
    | (extract_lets +onlyGivenNames x; first
        | (refine Fr.cut (X := X) (s0 := s0) (s := x) ?_ (fun hx => ?_); (on_goal 2 => clear_value x); (on_goal 1 => (unfold x; clear x)))
        | clear_value x)
    | split
    | ((with_reducible apply hX.ok); exact rfl)
    | ((with_reducible apply hX.bit); exact rfl)

theorem State.flashBlockDone_fr {X : Nat} {s0 : State} {s : State} {a1 : FlashResult} (h : Fr X s0 s) (hX : Sub 0x2c000078000001 X) :
    Fr X s0 (State.flashBlockDone s a1) := by
  unfold State.flashBlockDone
  repeat' first
    | with_reducible assumption
    | ((with_reducible apply hX.after); exact rfl)
    | with_reducible apply State.flashNext_fr
    | with_reducible apply State.journalEntry_fr
    | with_reducible apply State.emit_fr
    | with_reducible apply State.haltUpdate_fr
    | (with_reducible apply Fr.boot_; (on_goal 1 => (first | with_reducible assumption | with_reducible apply State.flashNext_fr | with_reducible apply State.journalEntry_fr | with_reducible apply State.emit_fr | with_reducible apply State.haltUpdate_fr | with_reducible refine Fr.of_snd (by assumption) ?_)))
    | (extract_lets +onlyGivenNames x; first
        | (refine Fr.cut (X := X) (s0 := s0) (s := x) ?_ (fun hx => ?_); (on_goal 2 => clear_value x); (on_goal 1 => (unfold x; clear x)))
        | clear_value x)
    | split
    | ((with_reducible apply hX.bit); exact rfl)

theorem State.updateAbort_fr {X : Nat} {s0 : State} {s : State} {a1 : Op} (h : Fr X s0 s) (hX : Sub 0x2c000078000001 X) :
    Fr X s0 (State.updateAbort s a1) := by
  unfold State.updateAbort
  repeat' first
    | with_reducible assumption
    | ((with_reducible apply hX.after); exact rfl)
    | with_reducible apply State.finish_fr
    | with_reducible apply State.dropUpdate_fr
    | with_reducible apply State.refuseUpdate_fr
    | split

theorem State.flashResync_fr {X : Nat} {s0 : State} {s : State} {a1 : Op} (h : Fr X s0 s) (hX : Sub 0x2c000078000001 X) :
    Fr X s0 (State.flashResync s a1) := by
  unfold State.flashResync
  repeat' first
    | with_reducible assumption
    | ((with_reducible apply hX.after); exact rfl)
    | with_reducible apply State.refuseUpdate_fr
    | with_reducible apply State.startFlash_fr
    | with_reducible apply State.setFld_fr
    | with_reducible apply State.finish_fr
    | (with_reducible apply Fr.boot_; (on_goal 1 => (first | with_reducible assumption | with_reducible apply State.refuseUpdate_fr | with_reducible apply State.startFlash_fr | with_reducible apply State.setFld_fr | with_reducible apply State.finish_fr | with_reducible refine Fr.of_snd (by assumption) ?_)))
    | (extract_lets +onlyGivenNames x; clear_value x)
    | split
    | ((with_reducible apply hX.ok); exact rfl)
    | ((with_reducible apply hX.bit); exact rfl)

theorem State.svnCommit_fr {X : Nat} {s0 : State} {s : State} {a1 : Op} {a2 : Option Bytes} (h : Fr X s0 s) (hX : Sub 0x48000000 X) :
    Fr X s0 (State.svnCommit s a1 a2) := by
  unfold State.svnCommit
  repeat' first
    | with_reducible assumption
    | ((with_reducible apply hX.after); exact rfl)
    | with_reducible apply State.finish_fr
    | (with_reducible apply Fr.boot_; (on_goal 1 => (first | with_reducible assumption | with_reducible apply State.finish_fr | with_reducible refine Fr.of_snd (by assumption) ?_)))
    | (extract_lets +onlyGivenNames x; clear_value x)
    | split
    | ((with_reducible apply hX.bit); exact rfl)

theorem execCoxSelfCheck_fr {X : Nat} {s0 : State} {s : State} (h : Fr X s0 s) (hX : Sub 0x80000000 X) {t : State}
    (ht : execCoxSelfCheck s = .next t) : Fr X s0 t := by
  unfold execCoxSelfCheck at ht
  obtain rfl := Host.Outcome.next.inj ht
  repeat' first
    | with_reducible assumption
    | ((with_reducible apply hX.after); exact rfl)
    | with_reducible apply State.inCore_fr
    | with_reducible apply State.selfCheck_fr
    | (intro x)

theorem execCoxHang_fr {X : Nat} {s0 : State} {a0 : ℕ} {a1 : ℕ} {s : State} (h : Fr X s0 s) (hX : Sub 0x2c0000f0000004 X) {t : State}
    (ht : execCoxHang a0 a1 s = .next t) : Fr X s0 t := by
  unfold execCoxHang at ht
  obtain rfl := Host.Outcome.next.inj ht
  repeat' first
    | with_reducible assumption
    | ((with_reducible apply hX.after); exact rfl)
    | with_reducible apply State.inCore_fr
    | with_reducible apply State.coxHang_fr
    | (intro x)

theorem execCoxReloadDone_fr {X : Nat} {s0 : State} {a0 : ℕ} {a1 : Bool} {s : State} (h : Fr X s0 s) (hX : Sub 0x2c0000f8000005 X) {t : State}
    (ht : execCoxReloadDone a0 a1 s = .next t) : Fr X s0 t := by
  unfold execCoxReloadDone at ht
  obtain rfl := Host.Outcome.next.inj ht
  repeat' first
    | with_reducible assumption
    | ((with_reducible apply hX.after); exact rfl)
    | with_reducible apply State.inCore_fr
    | with_reducible apply State.reloadDone_fr
    | (intro x)

theorem execCoxReloadTimeout_fr {X : Nat} {s0 : State} {a0 : ℕ} {s : State} (h : Fr X s0 s) (hX : Sub 0x2c0000f8000005 X) {t : State}
    (ht : execCoxReloadTimeout a0 s = .next t) : Fr X s0 t := by
  unfold execCoxReloadTimeout at ht
  obtain rfl := Host.Outcome.next.inj ht
  repeat' first
    | with_reducible assumption
    | ((with_reducible apply hX.after); exact rfl)
    | with_reducible apply State.inCore_fr
    | with_reducible apply State.reloadDone_fr
    | (intro x)

theorem execCoxReload_fr {X : Nat} {s0 : State} {a0 : OpKey} {s : State} (h : Fr X s0 s) (hX : Sub 0x2c0000f0000004 X) {t : State}
    (ht : execCoxReload a0 s = .next t) : Fr X s0 t := by
  unfold execCoxReload at ht
  obtain rfl := Host.Outcome.next.inj ht
  repeat' first
    | with_reducible assumption
    | ((with_reducible apply hX.after); exact rfl)
    | with_reducible apply State.mgmtPF_fr
    | with_reducible apply State.coxReload_fr
    | (intro x)

theorem execUpdateStage_fr {X : Nat} {s0 : State} {a0 : OpKey} {s : State} (h : Fr X s0 s) (hX : Sub 0x2c000078000001 X) {t : State}
    (ht : execUpdateStage a0 s = .next t) : Fr X s0 t := by
  unfold execUpdateStage at ht
  obtain rfl := Host.Outcome.next.inj ht
  repeat' first
    | with_reducible assumption
    | ((with_reducible apply hX.after); exact rfl)
    | with_reducible apply State.mgmtPF_fr
    | with_reducible apply State.updateStage_fr
    | (intro x)

theorem execUpdateStagingDone_fr {X : Nat} {s0 : State} {a0 : Option Bytes} {s : State} (h : Fr X s0 s) (hX : Sub 0x2c0000f8000005 X) {t : State}
    (ht : execUpdateStagingDone a0 s = .next t) : Fr X s0 t := by
  unfold execUpdateStagingDone at ht
  obtain rfl := Host.Outcome.next.inj ht
  repeat' first
    | with_reducible assumption
    | ((with_reducible apply hX.after); exact rfl)
    | with_reducible apply State.inCore_fr
    | with_reducible apply State.stagingDone_fr
    | (intro x)

theorem execMgmtHandoverDone_fr {X : Nat} {s0 : State} {a0 : Bool} {s : State} (h : Fr X s0 s) (hX : Sub 0x2c000078000001 X) {t : State}
    (ht : execMgmtHandoverDone a0 s = .next t) : Fr X s0 t := by
  unfold execMgmtHandoverDone at ht
  obtain rfl := Host.Outcome.next.inj ht
  repeat' first
    | with_reducible assumption
    | ((with_reducible apply hX.after); exact rfl)
    | with_reducible apply State.inAon_fr
    | with_reducible apply State.mgmtHandover_fr
    | (intro x)

theorem execFlashBlockDone_fr {X : Nat} {s0 : State} {a0 : FlashResult} {s : State} (h : Fr X s0 s) (hX : Sub 0x2c000078000001 X) {t : State}
    (ht : execFlashBlockDone a0 s = .next t) : Fr X s0 t := by
  unfold execFlashBlockDone at ht
  obtain rfl := Host.Outcome.next.inj ht
  repeat' first
    | with_reducible assumption
    | ((with_reducible apply hX.after); exact rfl)
    | with_reducible apply State.inCore_fr
    | with_reducible apply State.flashBlockDone_fr
    | (intro x)

theorem execUpdateAbort_fr {X : Nat} {s0 : State} {a0 : OpKey} {s : State} (h : Fr X s0 s) (hX : Sub 0x2c000078000001 X) {t : State}
    (ht : execUpdateAbort a0 s = .next t) : Fr X s0 t := by
  unfold execUpdateAbort at ht
  obtain rfl := Host.Outcome.next.inj ht
  repeat' first
    | with_reducible assumption
    | ((with_reducible apply hX.after); exact rfl)
    | with_reducible apply State.mgmtPF_fr
    | with_reducible apply State.updateAbort_fr
    | (intro x)

theorem execFlashKeep_fr {X : Nat} {s0 : State} {a0 : OpKey} {s : State} (h : Fr X s0 s) (hX : Sub 0x48000000 X) {t : State}
    (ht : execFlashKeep a0 s = .next t) : Fr X s0 t := by
  unfold execFlashKeep at ht
  obtain rfl := Host.Outcome.next.inj ht
  repeat' first
    | with_reducible assumption
    | ((with_reducible apply hX.after); exact rfl)
    | with_reducible apply State.mgmtPF_fr
    | with_reducible apply State.finish_fr
    | (with_reducible apply Fr.boot_; (on_goal 1 => (first | with_reducible assumption | with_reducible apply State.mgmtPF_fr | with_reducible apply State.finish_fr | with_reducible refine Fr.of_snd (by assumption) ?_)))
    | ((with_reducible apply hX.bit); exact rfl)
    | (intro x)

theorem execFlashResync_fr {X : Nat} {s0 : State} {a0 : OpKey} {s : State} (h : Fr X s0 s) (hX : Sub 0x2c000078000001 X) {t : State}
    (ht : execFlashResync a0 s = .next t) : Fr X s0 t := by
  unfold execFlashResync at ht
  obtain rfl := Host.Outcome.next.inj ht
  repeat' first
    | with_reducible assumption
    | ((with_reducible apply hX.after); exact rfl)
    | with_reducible apply State.mgmtPF_fr
    | with_reducible apply State.flashResync_fr
    | (intro x)

theorem execSvnCommit_fr {X : Nat} {s0 : State} {a0 : OpKey} {a1 : Option Bytes} {s : State} (h : Fr X s0 s) (hX : Sub 0x48000000 X) {t : State}
    (ht : execSvnCommit a0 a1 s = .next t) : Fr X s0 t := by
  unfold execSvnCommit at ht
  obtain rfl := Host.Outcome.next.inj ht
  repeat' first
    | with_reducible assumption
    | ((with_reducible apply hX.after); exact rfl)
    | with_reducible apply State.mgmtPF_fr
    | with_reducible apply State.svnCommit_fr
    | (intro x)

theorem State.mgcHang_fr {X : Nat} {s0 : State} {s : State} {a1 : ℕ} {a2 : Bool} {a3 : Bytes} (h : Fr X s0 s) (hX : Sub 0x2c000070000001 X) :
    Fr X s0 (State.mgcHang s a1 a2 a3) := by
  unfold State.mgcHang
  repeat' first
    | with_reducible assumption
    | ((with_reducible apply hX.after); exact rfl)
    | with_reducible apply State.raise_fr
    | with_reducible apply State.bump_fr
    | with_reducible apply State.setFld_fr
    | (with_reducible apply Fr.mgmt_; (on_goal 1 => (first | with_reducible assumption | with_reducible apply State.raise_fr | with_reducible apply State.bump_fr | with_reducible apply State.setFld_fr | with_reducible refine Fr.of_snd (by assumption) ?_)))
    | (extract_lets +onlyGivenNames x; first
        | (refine Fr.cut (X := X) (s0 := s0) (s := x) ?_ (fun hx => ?_); (on_goal 2 => clear_value x); (on_goal 1 => (unfold x; clear x)))
        | clear_value x)
    | split
    | ((with_reducible apply hX.ok); exact rfl)
    | ((with_reducible apply hX.bit); exact rfl)
    | exact Sub.mgc (hX.ok rfl)

theorem State.mgcRetry_fr {X : Nat} {s0 : State} {s : State} {a1 : Bool} {a2 : Bool} (h : Fr X s0 s) (hX : Sub 0x20000010000001 X) :
    Fr X s0 (State.mgcRetry s a1 a2) := by
  unfold State.mgcRetry
  repeat' first
    | with_reducible assumption
    | with_reducible apply State.setFld_fr
    | (with_reducible apply Fr.mgmt_; (on_goal 1 => (first | with_reducible assumption | with_reducible apply State.setFld_fr | with_reducible refine Fr.of_snd (by assumption) ?_)))
    | (extract_lets +onlyGivenNames x; first
        | (refine Fr.cut (X := X) (s0 := s0) (s := x) ?_ (fun hx => ?_); (on_goal 2 => clear_value x); (on_goal 1 => (unfold x; clear x)))
        | clear_value x)
    | split
    | ((with_reducible apply hX.ok); exact rfl)
    | ((with_reducible apply hX.bit); exact rfl)

theorem State.alertAck_fr {X : Nat} {s0 : State} {s : State} (h : Fr X s0 s) (hX : Sub 0x10000000 X) :
    Fr X s0 (State.alertAck s) := by
  unfold State.alertAck
  exact Fr.mgmt_ h (hX.bit rfl)

theorem State.i3cWrite1_fr {X : Nat} {s0 : State} {s : State} {a1 : ℕ} {a2 : Byte} (h : Fr X s0 s) (hX : Sub 0x10000000 X) :
    Fr X s0 (State.i3cWrite1 s a1 a2) := by
  unfold State.i3cWrite1
  repeat' first
    | with_reducible assumption
    | with_reducible apply State.alertAck_fr
    | (with_reducible apply Fr.mgmt_; (on_goal 1 => (first | with_reducible assumption | with_reducible apply State.alertAck_fr | with_reducible refine Fr.of_snd (by assumption) ?_)))
    | split
    | ((with_reducible apply hX.bit); exact rfl)

theorem State.i3cTransfer_fr {X : Nat} {s0 : State} {s : State} {a1 : ℕ} {a2 : ℕ} {a3 : I3cData} (h : Fr X s0 s) (hX : Sub 0x8000010000000 X) :
    Fr X s0 (State.i3cTransfer s a1 a2 a3) := by
  unfold State.i3cTransfer
  repeat' first
    | with_reducible assumption
    | ((with_reducible apply hX.after); exact rfl)
    | with_reducible apply State.emit_fr
    | with_reducible apply State.i3cWrite1_fr
    | with_reducible apply Fr.foldl
    | (intro x)
    | split

theorem State.mgeFrame_fr {X : Nat} {s0 : State} {s : State} {a1 : MgeFrame} (h : Fr X s0 s) (hX : Sub 0x28000210200001 X) :
    Fr X s0 (State.mgeFrame s a1) := by
  unfold State.mgeFrame
  repeat' first
    | with_reducible assumption
    | ((with_reducible apply hX.after); exact rfl)
    | with_reducible apply State.emit_fr
    | with_reducible apply State.bump_fr
    | with_reducible apply State.ptpMessage_fr
    | (with_reducible apply Fr.mgmt_; (on_goal 1 => (first | with_reducible assumption | with_reducible apply State.emit_fr | with_reducible apply State.bump_fr | with_reducible apply State.ptpMessage_fr | with_reducible refine Fr.of_snd (by assumption) ?_)))
    | (extract_lets +onlyGivenNames x; first
        | (refine Fr.cut (X := X) (s0 := s0) (s := x) ?_ (fun hx => ?_); (on_goal 2 => clear_value x); (on_goal 1 => (unfold x; clear x)))
        | clear_value x)
    | split
    | ((with_reducible apply hX.ok); exact rfl)
    | ((with_reducible apply hX.bit); exact rfl)

theorem State.evrSummary_fr {X : Nat} {s0 : State} {s : State} {a1 : ℕ} (h : Fr X s0 s) (hX : Sub 0x2c000030000000 X) :
    Fr X s0 (State.evrSummary s a1) := by
  unfold State.evrSummary
  repeat' first
    | with_reducible assumption
    | ((with_reducible apply hX.after); exact rfl)
    | with_reducible apply State.appendRecord_fr
    | with_reducible apply State.setBucket_fr
    | (extract_lets +onlyGivenNames x; clear_value x)
    | split

theorem State.evrPersist_fr {X : Nat} {s0 : State} {s : State} (h : Fr X s0 s) (hX : Sub 0x20000000 X) :
    Fr X s0 (State.evrPersist s) := by
  unfold State.evrPersist
  repeat' first
    | with_reducible assumption
    | (with_reducible apply Fr.evr_; (on_goal 1 => (first | with_reducible assumption | with_reducible refine Fr.of_snd (by assumption) ?_)))
    | (extract_lets +onlyGivenNames x; clear_value x)
    | split
    | ((with_reducible apply hX.bit); exact rfl)



theorem State.evrClear_fr {X : Nat} {s0 : State} {s : State} {a1 : Op} {a2 : Option Bytes} (h : Fr X s0 s) (hX : Sub 0x2c000070000000 X) :
    Fr X s0 (State.evrClear s a1 a2) := by
  unfold State.evrClear
  repeat' first
    | with_reducible assumption
    | ((with_reducible apply hX.after); exact rfl)
    | with_reducible apply State.finish_fr
    | with_reducible apply State.raise_fr
    | with_reducible apply State.drawNonce_fr
    | (with_reducible apply Fr.evr_; (on_goal 1 => (first | with_reducible assumption | with_reducible apply State.finish_fr | with_reducible apply State.raise_fr | with_reducible apply State.drawNonce_fr | with_reducible refine Fr.of_snd (by assumption) ?_)))
    | (extract_lets +onlyGivenNames x; first
        | (refine Fr.cut (X := X) (s0 := s0) (s := x) ?_ (fun hx => ?_); (on_goal 2 => clear_value x); (on_goal 1 => (unfold x; clear x)))
        | clear_value x)
    | split
    | ((with_reducible apply hX.bit); exact rfl)

theorem execMgcHang_fr {X : Nat} {s0 : State} {a0 : ℕ} {a1 : Bool} {a2 : Bytes} {s : State} (h : Fr X s0 s) (hX : Sub 0x2c000070000001 X) {t : State}
    (ht : execMgcHang a0 a1 a2 s = .next t) : Fr X s0 t := by
  unfold execMgcHang at ht
  obtain rfl := Host.Outcome.next.inj ht
  repeat' first
    | with_reducible assumption
    | ((with_reducible apply hX.after); exact rfl)
    | with_reducible apply State.inAon_fr
    | with_reducible apply State.mgcHang_fr
    | (intro x)

theorem execMgcStartRetry_fr {X : Nat} {s0 : State} {a0 : Bool} {a1 : Bool} {s : State} (h : Fr X s0 s) (hX : Sub 0x20000010000001 X) {t : State}
    (ht : execMgcStartRetry a0 a1 s = .next t) : Fr X s0 t := by
  unfold execMgcStartRetry at ht
  obtain rfl := Host.Outcome.next.inj ht
  repeat' first
    | with_reducible assumption
    | ((with_reducible apply hX.after); exact rfl)
    | with_reducible apply State.inAon_fr
    | with_reducible apply State.mgcRetry_fr
    | (intro x)

theorem execI3cAddressAssign_fr {X : Nat} {s0 : State} {a0 : ℕ} {a1 : Bool} {s : State} (h : Fr X s0 s) (hX : Sub 0x10000000 X) {t : State}
    (ht : execI3cAddressAssign a0 a1 s = .next t) : Fr X s0 t := by
  unfold execI3cAddressAssign at ht
  obtain rfl := Host.Outcome.next.inj ht
  repeat' first
    | with_reducible assumption
    | (with_reducible apply Fr.mgmt_; (on_goal 1 => (first | with_reducible assumption | with_reducible refine Fr.of_snd (by assumption) ?_)))
    | split
    | ((with_reducible apply hX.bit); exact rfl)

theorem execI3cTransfer_fr {X : Nat} {s0 : State} {a0 : ℕ} {a1 : ℕ} {a2 : I3cData} {s : State} (h : Fr X s0 s) (hX : Sub 0x8000010000000 X) {t : State}
    (ht : execI3cTransfer a0 a1 a2 s = .next t) : Fr X s0 t := by
  unfold execI3cTransfer at ht
  obtain rfl := Host.Outcome.next.inj ht
  repeat' first
    | with_reducible assumption
    | with_reducible apply State.i3cTransfer_fr

theorem execI3cAlertAck_fr {X : Nat} {s0 : State} {s : State} (h : Fr X s0 s) (hX : Sub 0x10000000 X) {t : State}
    (ht : execI3cAlertAck s = .next t) : Fr X s0 t := by
  unfold execI3cAlertAck at ht
  obtain rfl := Host.Outcome.next.inj ht
  repeat' first
    | with_reducible assumption
    | ((with_reducible apply hX.after); exact rfl)
    | with_reducible apply State.inAon_fr
    | with_reducible apply State.alertAck_fr
    | (intro x)
    | split

theorem execMgeFrameReceive_fr {X : Nat} {s0 : State} {a0 : MgeFrame} {s : State} (h : Fr X s0 s) (hX : Sub 0x28000210200001 X) {t : State}
    (ht : execMgeFrameReceive a0 s = .next t) : Fr X s0 t := by
  unfold execMgeFrameReceive at ht
  obtain rfl := Host.Outcome.next.inj ht
  repeat' first
    | with_reducible assumption
    | with_reducible apply State.mgeFrame_fr

theorem execEvrSummary_fr {X : Nat} {s0 : State} {a0 : ℕ} {s : State} (h : Fr X s0 s) (hX : Sub 0x2c000030000000 X) {t : State}
    (ht : execEvrSummary a0 s = .next t) : Fr X s0 t := by
  unfold execEvrSummary at ht
  obtain rfl := Host.Outcome.next.inj ht
  repeat' first
    | with_reducible assumption
    | ((with_reducible apply hX.after); exact rfl)
    | with_reducible apply State.inAon_fr
    | with_reducible apply State.evrSummary_fr
    | (intro x)

theorem execEvrPersist_fr {X : Nat} {s0 : State} {s : State} (h : Fr X s0 s) (hX : Sub 0x20000000 X) {t : State}
    (ht : execEvrPersist s = .next t) : Fr X s0 t := by
  unfold execEvrPersist at ht
  obtain rfl := Host.Outcome.next.inj ht
  repeat' first
    | with_reducible assumption
    | ((with_reducible apply hX.after); exact rfl)
    | with_reducible apply State.inAon_fr
    | with_reducible apply State.evrPersist_fr
    | (intro x)

theorem execEvrClear_fr {X : Nat} {s0 : State} {a0 : OpKey} {a1 : Option Bytes} {s : State} (h : Fr X s0 s) (hX : Sub 0x2c000070000000 X) {t : State}
    (ht : execEvrClear a0 a1 s = .next t) : Fr X s0 t := by
  unfold execEvrClear at ht
  obtain rfl := Host.Outcome.next.inj ht
  repeat' first
    | with_reducible assumption
    | ((with_reducible apply hX.after); exact rfl)
    | with_reducible apply State.mgmtPF_fr
    | with_reducible apply State.evrClear_fr
    | (intro x)

theorem execConsoleLineSent_fr {X : Nat} {s0 : State} {s : State} (h : Fr X s0 s) (hX : Sub 0x8000010000000 X) {t : State}
    (ht : execConsoleLineSent s = .next t) : Fr X s0 t := by
  unfold execConsoleLineSent at ht
  obtain rfl := Host.Outcome.next.inj ht
  repeat' first
    | with_reducible assumption
    | ((with_reducible apply hX.after); exact rfl)
    | with_reducible apply State.inAon_fr
    | with_reducible apply State.emit_fr
    | (with_reducible apply Fr.mgmt_; (on_goal 1 => (first | with_reducible assumption | with_reducible apply State.inAon_fr | with_reducible apply State.emit_fr | with_reducible refine Fr.of_snd (by assumption) ?_)))
    | (intro x)
    | split
    | ((with_reducible apply hX.bit); exact rfl)

end Sys2Proof.Machine
end

