-- ==== Sys2Proof/Laws/FrameSwitch.lean ====
section
/-!
SUPPORT. Frames of the operations of Sett.lean, LineBase.lean, PlanBin.lean, Tms.lean, Lsc.lean, Ports.lean, Switch.lean, Llr.lean: one lemma each, by backward chaining (Frame.lean).
-/

namespace Sys2Proof.Machine

theorem State.trigger_fr {X : Nat} {s0 : State} {s : State} {a1 : View} {a2 : Blk} {a3 : ℕ} {a4 : Word} {a5 : State → State} (h : Fr X s0 s) (hf0 : ∀ x0, Fr X s0 x0 → Fr X s0 (a5 x0)) (hb2 : okBlk X a2 = true) (hX : Sub 0x4000000 X) :
    Fr X s0 (State.trigger s a1 a2 a3 a4 a5) := by
  unfold State.trigger
  repeat' first
    | with_reducible assumption
    | with_reducible apply hf0
    | with_reducible apply State.writeOwn_fr
    | split

theorem State.selClear_fr {X : Nat} {s0 : State} {s : State} {a1 : View} {a2 : Blk} {a3 : ℕ} {a4 : Word} {a5 : ℕ → State → State} (h : Fr X s0 s) (hf0 : ∀ x0 x1, Fr X s0 x1 → Fr X s0 (a5 x0 x1)) (hb2 : okBlk X a2 = true) (hX : Sub 0x4000000 X) :
    Fr X s0 (State.selClear s a1 a2 a3 a4 a5) := by
  unfold State.selClear
  repeat' first
    | with_reducible assumption
    | with_reducible apply hf0
    | with_reducible apply State.trigger_fr
    | (intro x)
    | split

theorem State.onSett_fr {X : Nat} {s0 : State} {s : State} {a1 : SettState → SettState} (h : Fr X s0 s) (hX : Sub 0x800000000 X) :
    Fr X s0 (State.onSett s a1) := by
  unfold State.onSett
  exact Fr.sett_ h (hX.bit rfl)

theorem State.settRefuse_fr {X : Nat} {s0 : State} {s : State} {a1 : ℕ} (h : Fr X s0 s) (hX : Sub 0x40 X) :
    Fr X s0 (State.settRefuse s a1) := by
  unfold State.settRefuse
  repeat' first
    | with_reducible assumption
    | with_reducible apply State.bump_fr
    | ((with_reducible apply hX.ok); exact rfl)

theorem State.settAlloc_fr {X : Nat} {s0 : State} {s : State} {a1 : ℕ} (h : Fr X s0 s) (hX : Sub 0x800000040 X) :
    Fr X s0 (State.settAlloc s a1).2 := by
  unfold State.settAlloc
  repeat' first
    | with_reducible assumption
    | ((with_reducible apply hX.after); exact rfl)
    | with_reducible apply State.setFld_fr
    | with_reducible apply State.settRefuse_fr
    | (with_reducible apply Fr.sett_; (on_goal 1 => (first | with_reducible assumption | with_reducible apply State.setFld_fr | with_reducible apply State.settRefuse_fr | with_reducible refine Fr.of_snd (by assumption) ?_)))
    | (extract_lets +onlyGivenNames x; clear_value x)
    | split
    | ((with_reducible apply hX.ok); exact rfl)
    | ((with_reducible apply hX.bit); exact rfl)

theorem State.settFillN_fr {X : Nat} {s0 s : State} {n die : Nat} (h : Fr X s0 s) (hX : Sub 0x800000000 X) :
    Fr X s0 (State.settFillN n die s) := by
  induction n generalizing s with
  | zero => exact h
  | succ n ih =>
    unfold State.settFillN
    split
    · exact h
    · extract_lets give rest
      exact Fr.ite (fun _ => h) fun _ => ih (State.onSett_fr h (hX.after rfl))


theorem State.settFill_fr {X : Nat} {s0 : State} {s : State} {a1 : ℕ} (h : Fr X s0 s) (hX : Sub 0x800000000 X) :
    Fr X s0 (State.settFill s a1) := by
  unfold State.settFill
  repeat' first
    | with_reducible assumption
    | with_reducible apply State.settFillN_fr

theorem State.settFree_fr {X : Nat} {s0 : State} {s : State} {a1 : ℕ} (h : Fr X s0 s) (hX : Sub 0x2c000870000040 X) :
    Fr X s0 (State.settFree s a1) := by
  unfold State.settFree
  repeat' first
    | with_reducible assumption
    | ((with_reducible apply hX.after); exact rfl)
    | with_reducible apply State.raise_fr
    | with_reducible apply State.bump_fr
    | with_reducible apply State.onSett_fr
    | with_reducible apply State.settFill_fr
    | with_reducible apply State.setFld_fr
    | (extract_lets +onlyGivenNames x; first
        | (refine Fr.cut (X := X) (s0 := s0) (s := x) ?_ (fun hx => ?_); (on_goal 2 => clear_value x); (on_goal 1 => (unfold x; clear x)))
        | clear_value x)
    | split
    | ((with_reducible apply hX.ok); exact rfl)
    | (with_reducible apply Sub.nth)

theorem State.settFrees_fr {X : Nat} {s0 : State} {s : State} {a1 : List ℕ} (h : Fr X s0 s) (hX : Sub 0x2c000870000040 X) :
    Fr X s0 (State.settFrees s a1) := by
  unfold State.settFrees
  repeat' first
    | with_reducible assumption
    | with_reducible apply State.settFree_fr
    | with_reducible apply Fr.foldl
    | (intro x)

theorem State.settShare_fr {X : Nat} {s0 : State} {s : State} {a1 : List ℕ} (h : Fr X s0 s) (hX : Sub 0x800000000 X) {t : State}
    (ht : State.settShare s a1 = some t) : Fr X s0 t := by
  revert ht
  unfold State.settShare
  repeat' first
    | with_reducible assumption
    | with_reducible apply State.onSett_fr
    | with_reducible apply Fr.foldl
    | split
    | (refine fun (ht : _ = _) => ?_; first | (cases ht; done) | cases ht | (revert ht; split) | skip)
    | (intro x)

theorem State.settAllocN_fr {X : Nat} {s0 : State} {a0 : ℕ} {a1 : ℕ} {a2 : List ℕ} {s : State} (h : Fr X s0 s) (hX : Sub 0x2c000870000040 X) :
    Fr X s0 (State.settAllocN a0 a1 a2 s).2 := by
  revert h
  fun_induction State.settAllocN a0 a1 a2 s
  all_goals intro h
  all_goals repeat' first
    | with_reducible assumption
    | ((with_reducible apply hX.after); exact rfl)
    | with_reducible apply State.settAlloc_fr
    | with_reducible apply State.settFrees_fr
    | with_reducible refine Fr.of_snd (by assumption) ?_
    | with_reducible refine Fr.of_fst (by assumption) ?_
    | split
    | ((with_reducible apply hX.ok); exact rfl)
    | ((with_reducible apply hX.bit); exact rfl)
    | dsimp only
    | with_reducible apply_assumption -exfalso -symm

theorem State.settStore_fr {X : Nat} {s0 : State} {s : State} {a1 : ℕ} {a2 : Bytes} (h : Fr X s0 s) (hX : Sub 0x2c000870000040 X) :
    Fr X s0 (State.settStore s a1 a2).2 := by
  unfold State.settStore
  repeat' first
    | with_reducible assumption
    | with_reducible apply State.settAllocN_fr

theorem State.settCorrupt_fr {X : Nat} {s0 : State} {s : State} {a1 : List ℕ} (h : Fr X s0 s) (hX : Sub 0x2c000870000040 X) :
    Fr X s0 (State.settCorrupt s a1) := by
  unfold State.settCorrupt
  repeat' first
    | with_reducible assumption
    | with_reducible apply State.settFrees_fr
    | with_reducible apply State.bump_fr
    | split
    | ((with_reducible apply hX.ok); exact rfl)

theorem State.settRaise_fr {X : Nat} {s0 : State} {s : State} {a1 : ℕ} {a2 : ℕ} {a3 : ℕ} (h : Fr X s0 s) (hX : Sub 0x800000000 X) :
    Fr X s0 (State.settRaise s a1 a2 a3) := by
  unfold State.settRaise
  repeat' first
    | with_reducible assumption
    | with_reducible apply State.settFill_fr
    | with_reducible apply State.onSett_fr
    | with_reducible apply Fr.foldl
    | (intro x)

theorem execSettAlloc_fr {X : Nat} {s0 : State} {a0 : ℕ} {s : State} (h : Fr X s0 s) (hX : Sub 0x800000040 X) {t : State}
    (ht : execSettAlloc a0 s = .next t) : Fr X s0 t := by
  unfold execSettAlloc at ht
  obtain rfl := Host.Outcome.next.inj ht
  repeat' first
    | with_reducible assumption
    | ((with_reducible apply hX.after); exact rfl)
    | with_reducible apply State.inCore_fr
    | with_reducible apply State.settAlloc_fr
    | (intro x)

theorem execSettStatClr_fr {X : Nat} {s0 : State} {a0 : View} {a1 : Word} {s : State} (h : Fr X s0 s) (hX : Sub 0x4000040 X) {t : State}
    (ht : execSettStatClr a0 a1 s = .next t) : Fr X s0 t := by
  unfold execSettStatClr at ht
  obtain rfl := Host.Outcome.next.inj ht
  repeat' first
    | with_reducible assumption
    | ((with_reducible apply hX.after); exact rfl)
    | with_reducible apply State.selClear_fr
    | with_reducible apply State.setFld_fr
    | (intro x)
    | (extract_lets +onlyGivenNames x; clear_value x)
    | split
    | ((with_reducible apply hX.ok); exact rfl)

theorem State.onLine_fr {X : Nat} {s0 : State} {s : State} {a1 : LineState → LineState} (h : Fr X s0 s) (hX : Sub 0x80000000000 X) :
    Fr X s0 (State.onLine s a1) := by
  unfold State.onLine
  exact Fr.line_ h (hX.bit rfl)

theorem State.setLgrp_fr {X : Nat} {s0 : State} {s : State} {a1 : ℕ} {a2 : LineGroup} (h : Fr X s0 s) (hX : Sub 0x80000000000 X) :
    Fr X s0 (State.setLgrp s a1 a2) := by
  unfold State.setLgrp
  repeat' first
    | with_reducible assumption
    | with_reducible apply State.onLine_fr

theorem State.linePut_fr {X : Nat} {s0 : State} {s : State} {a1 : ℕ} {a2 : ℕ} {a3 : LineObj} (h : Fr X s0 s) (hX : Sub 0x80000000000 X) :
    Fr X s0 (State.linePut s a1 a2 a3) := by
  unfold State.linePut
  repeat' first
    | with_reducible assumption
    | with_reducible apply State.setLgrp_fr

theorem State.onSwc_fr {X : Nat} {s0 : State} {s : State} {a1 : SwcState → SwcState} (h : Fr X s0 s) (hX : Sub 0x1000000000 X) :
    Fr X s0 (State.onSwc s a1) := by
  unfold State.onSwc
  exact Fr.swc_ h (hX.bit rfl)

theorem State.setPortSt_fr {X : Nat} {s0 : State} {s : State} {a1 : ℕ} {a2 : PortState} (h : Fr X s0 s) (hX : Sub 0x1000000000 X) :
    Fr X s0 (State.setPortSt s a1 a2) := by
  unfold State.setPortSt
  repeat' first
    | with_reducible assumption
    | with_reducible apply State.onSwc_fr

theorem State.setOutq_fr {X : Nat} {s0 : State} {s : State} {a1 : ℕ} {a2 : OutQ} (h : Fr X s0 s) (hX : Sub 0x1000000000 X) :
    Fr X s0 (State.setOutq s a1 a2) := by
  unfold State.setOutq
  repeat' first
    | with_reducible assumption
    | with_reducible apply State.onSwc_fr

theorem State.refillQueue_fr {X : Nat} {s0 : State} {s : State} {a1 : ℕ} (h : Fr X s0 s) (hX : Sub 0x1000000000 X) :
    Fr X s0 (State.refillQueue s a1) := by
  unfold State.refillQueue
  repeat' first
    | with_reducible assumption
    | with_reducible apply State.setOutq_fr

theorem State.setPolicer_fr {X : Nat} {s0 : State} {s : State} {a1 : ℕ} {a2 : Policer} (h : Fr X s0 s) (hX : Sub 0x1000000000 X) :
    Fr X s0 (State.setPolicer s a1 a2) := by
  unfold State.setPolicer
  repeat' first
    | with_reducible assumption
    | with_reducible apply State.onSwc_fr

theorem State.refillPolicer_fr {X : Nat} {s0 : State} {s : State} {a1 : ℕ} (h : Fr X s0 s) (hX : Sub 0x1000000000 X) :
    Fr X s0 (State.refillPolicer s a1) := by
  unfold State.refillPolicer
  repeat' first
    | with_reducible assumption
    | with_reducible apply State.setPolicer_fr

theorem State.refill_fr {X : Nat} {s0 : State} {s : State} (h : Fr X s0 s) (hX : Sub 0x1000000000 X) :
    Fr X s0 (State.refill s) := by
  unfold State.refill
  repeat' first
    | with_reducible assumption
    | with_reducible apply State.refillPolicer_fr
    | with_reducible apply State.refillQueue_fr
    | with_reducible apply Fr.foldl
    | (intro x)

theorem State.policerEnable_fr {X : Nat} {s0 : State} {s : State} {a1 : ℕ} (h : Fr X s0 s) (hX : Sub 0x1000000000 X) :
    Fr X s0 (State.policerEnable s a1) := by
  unfold State.policerEnable
  repeat' first
    | with_reducible assumption
    | with_reducible apply State.setPolicer_fr

theorem State.police_fr {X : Nat} {s0 : State} {s : State} {a1 : ℕ} {a2 : ℕ} (h : Fr X s0 s) (hX : Sub 0x1000000000 X) :
    Fr X s0 (State.police s a1 a2).2 := by
  unfold State.police
  repeat' first
    | with_reducible assumption
    | with_reducible apply State.setPolicer_fr
    | (extract_lets +onlyGivenNames x; clear_value x)
    | split

theorem State.enqueue_fr {X : Nat} {s0 : State} {s : State} {a1 : ℕ} {a2 : Dep} (h : Fr X s0 s) (hX : Sub 0x1000000000 X) :
    Fr X s0 (State.enqueue s a1 a2) := by
  unfold State.enqueue
  repeat' first
    | with_reducible assumption
    | with_reducible apply State.setOutq_fr
    | (extract_lets +onlyGivenNames x; clear_value x)
    | split

theorem State.histSample_fr {X : Nat} {s0 : State} {s : State} {a1 : ℕ} {a2 : ℕ} {a3 : ℕ} (h : Fr X s0 s) (hX : Sub 0x100 X) :
    Fr X s0 (State.histSample s a1 a2 a3) := by
  unfold State.histSample
  repeat' first
    | with_reducible assumption
    | with_reducible apply State.bump_fr
    | ((with_reducible apply hX.ok); exact rfl)

theorem State.histClear_fr {X : Nat} {s0 : State} {s : State} {a1 : ℕ} (h : Fr X s0 s) (hX : Sub 0x100 X) :
    Fr X s0 (State.histClear s a1) := by
  unfold State.histClear
  repeat' first
    | with_reducible assumption
    | with_reducible apply State.setFld_fr
    | with_reducible apply Fr.foldl
    | ((with_reducible apply hX.ok); exact rfl)
    | (intro x)



theorem State.histDepthAll_fr {X : Nat} {s0 : State} {s : State} (h : Fr X s0 s) (hX : Sub 0x100 X) :
    Fr X s0 (State.histDepthAll s) := by
  unfold State.histDepthAll
  repeat' first
    | with_reducible assumption
    | with_reducible apply State.histSample_fr
    | with_reducible apply Fr.foldl
    | (intro x)

theorem State.drrGive_fr {X : Nat} {s0 : State} {s : State} {a1 : ℕ} {a2 : ℕ} (h : Fr X s0 s) (hX : Sub 0x1000000000 X) :
    Fr X s0 (State.drrGive s a1 a2) := by
  unfold State.drrGive
  repeat' first
    | with_reducible assumption
    | with_reducible apply State.setOutq_fr

theorem State.drr_fr {X : Nat} {s0 s : State} {elig : List Nat} {a r : Nat} {t : State} (h : Fr X s0 s)
    (hX : Sub 0x1000000000 X) (ht : s.drr elig a = some (r, t)) : Fr X s0 t := by
  unfold State.drr at ht
  split at ht
  · obtain ⟨-, rfl⟩ := Prod.mk.inj (Option.some.inj ht)
    exact h
  · extract_lets order rounds r at ht
    split at ht
    · cases ht
    · obtain ⟨-, rfl⟩ := Prod.mk.inj (Option.some.inj ht)
      exact Fr.foldl h fun s _ hs => State.drrGive_fr hs (hX.after rfl)


theorem State.selectDrr_fr {X : Nat} {s0 : State} {s : State} {a1 : ℕ} {a2 : ℕ} {a3 : List ℕ} (h : Fr X s0 s) (hX : Sub 0x1000000000 X) {r} {t : State}
    (ht : State.selectDrr s a1 a2 a3 = some (r, t)) : Fr X s0 t := by
  revert ht
  unfold State.selectDrr
  repeat' first
    | with_reducible assumption
    | with_reducible refine State.drr_fr ?_ ?_ (by assumption)
    | (extract_lets +onlyGivenNames x; clear_value x)
    | split
    | (refine fun (ht : _ = _) => ?_; first | (cases ht; done) | cases ht | (revert ht; split) | skip)

theorem State.byClass_fr {X : Nat} {s0 : State} {s : State} {a1 : ℕ} {a2 : ℕ → Bool} (h : Fr X s0 s) (hX : Sub 0x1000000000 X) {r q} {t : State}
    (ht : State.byClass s a1 a2 = some (r, q, t)) : Fr X s0 t := by
  revert ht
  unfold State.byClass
  repeat' first
    | with_reducible assumption
    | with_reducible refine State.selectDrr_fr ?_ ?_ (by assumption)
    | with_reducible apply State.setPortSt_fr
    | (extract_lets +onlyGivenNames x; clear_value x)
    | split
    | (refine fun (ht : _ = _) => ?_; first | (cases ht; done) | cases ht | (revert ht; split) | skip)

theorem State.selectQueue_fr {X : Nat} {s0 : State} {s : State} {a1 : ℕ} (h : Fr X s0 s) (hX : Sub 0x1000000000 X) {r} {t : State}
    (ht : State.selectQueue s a1 = some (r, t)) : Fr X s0 t := by
  revert ht
  unfold State.selectQueue
  repeat' first
    | with_reducible assumption
    | with_reducible refine State.byClass_fr ?_ ?_ (by assumption)
    | with_reducible apply State.setPortSt_fr
    | (extract_lets +onlyGivenNames x; clear_value x)
    | split
    | (refine fun (ht : _ = _) => ?_; first | (cases ht; done) | cases ht | (revert ht; split) | skip)

theorem State.departQ_fr {X : Nat} {s0 : State} {s : State} {a1 : ℕ} (h : Fr X s0 s) (hX : Sub 0x1000000100 X) {r} {t : State}
    (ht : State.departQ s a1 = some (r, t)) : Fr X s0 t := by
  revert ht
  unfold State.departQ
  repeat' first
    | with_reducible assumption
    | ((with_reducible apply hX.after); exact rfl)
    | with_reducible apply State.histSample_fr
    | with_reducible apply State.setOutq_fr
    | with_reducible apply State.setPortSt_fr
    | (extract_lets +onlyGivenNames x; first
        | (refine Fr.cut (X := X) (s0 := s0) (s := x) ?_ (fun hx => ?_); (on_goal 2 => clear_value x); (on_goal 1 => (unfold x; clear x)))
        | clear_value x)
    | split
    | (refine fun (ht : _ = _) => ?_; first | (cases ht; done) | cases ht | (revert ht; split) | skip)

theorem State.reclass_fr {X : Nat} {s0 : State} {s : State} {a1 : ℕ} (h : Fr X s0 s) (hX : Sub 0x1000000000 X) :
    Fr X s0 (State.reclass s a1) := by
  unfold State.reclass
  repeat' first
    | with_reducible assumption
    | with_reducible apply State.setOutq_fr
    | (extract_lets +onlyGivenNames x; clear_value x)
    | split

theorem execHistDepthSample_fr {X : Nat} {s0 : State} {s : State} (h : Fr X s0 s) (hX : Sub 0x100 X) {t : State}
    (ht : execHistDepthSample s = .next t) : Fr X s0 t := by
  unfold execHistDepthSample at ht
  obtain rfl := Host.Outcome.next.inj ht
  repeat' first
    | with_reducible assumption
    | ((with_reducible apply hX.after); exact rfl)
    | with_reducible apply State.inCore_fr
    | with_reducible apply State.histDepthAll_fr
    | (intro x)

theorem execTmsHistClr_fr {X : Nat} {s0 : State} {a0 : View} {a1 : Word} {s : State} (h : Fr X s0 s) (hX : Sub 0x4000100 X) {t : State}
    (ht : execTmsHistClr a0 a1 s = .next t) : Fr X s0 t := by
  unfold execTmsHistClr at ht
  obtain rfl := Host.Outcome.next.inj ht
  repeat' first
    | with_reducible assumption
    | ((with_reducible apply hX.after); exact rfl)
    | with_reducible apply State.selClear_fr
    | with_reducible apply State.histClear_fr
    | (intro x)
    | split
    | ((with_reducible apply hX.ok); exact rfl)

theorem execDelayEstimateUpdate_fr {X : Nat} {s0 : State} {s : State} (h : Fr X s0 s) (hX : Sub 0x1000000000 X) {t : State}
    (ht : execDelayEstimateUpdate s = .next t) : Fr X s0 t := by
  unfold execDelayEstimateUpdate at ht
  obtain rfl := Host.Outcome.next.inj ht
  repeat' first
    | with_reducible assumption
    | ((with_reducible apply hX.after); exact rfl)
    | with_reducible apply State.inCore_fr
    | with_reducible apply State.onSwc_fr
    | (intro x)

theorem State.freshBytes_fr {X : Nat} {s0 : State} {s : State} {a1 : ℕ} (h : Fr X s0 s) (hX : Sub 0x4000000000000 X) :
    Fr X s0 (State.freshBytes s a1).2 := by
  unfold State.freshBytes
  repeat' first
    | with_reducible assumption
    | with_reducible apply State.fresh_fr

theorem State.setLink_fr {X : Nat} {s0 : State} {s : State} {a1 : ℕ} {a2 : SecLink} (h : Fr X s0 s) (hX : Sub 0x2000000000 X) :
    Fr X s0 (State.setLink s a1 a2) := by
  unfold State.setLink
  exact Fr.lsc_ h (hX.bit rfl)

theorem State.lscCount_fr {X : Nat} {s0 : State} {s : State} {a1 : ℕ} {a2 : ℕ} (h : Fr X s0 s) (hX : Sub 0x80000 X) :
    Fr X s0 (State.lscCount s a1 a2) := by
  unfold State.lscCount
  repeat' first
    | with_reducible assumption
    | with_reducible apply State.bump_fr
    | ((with_reducible apply hX.ok); exact rfl)

theorem State.showLink_fr {X : Nat} {s0 : State} {s : State} {a1 : ℕ} (h : Fr X s0 s) (hX : Sub 0x80000 X) :
    Fr X s0 (State.showLink s a1) := by
  unfold State.showLink
  repeat' first
    | with_reducible assumption
    | with_reducible apply State.setFld_fr
    | with_reducible apply State.setFlag_fr
    | ((with_reducible apply hX.ok); exact rfl)

theorem State.kexSend_fr {X : Nat} {s0 : State} {s : State} {a1 : ℕ} {a2 : Bytes} (h : Fr X s0 s) (hX : Sub 0x8080000000000 X) :
    Fr X s0 (State.kexSend s a1 a2) := by
  unfold State.kexSend
  repeat' first
    | with_reducible assumption
    | ((with_reducible apply hX.after); exact rfl)
    | with_reducible apply State.emit_fr
    | (with_reducible apply Fr.line_; (on_goal 1 => (first | with_reducible assumption | with_reducible apply State.emit_fr | with_reducible refine Fr.of_snd (by assumption) ?_)))
    | (extract_lets +onlyGivenNames x; clear_value x)
    | split
    | ((with_reducible apply hX.bit); exact rfl)

theorem State.kexStart_fr {X : Nat} {s0 : State} {s : State} {a1 : ℕ} {a2 : ℕ} (h : Fr X s0 s) (hX : Sub 0xc082000080000 X) :
    Fr X s0 (State.kexStart s a1 a2) := by
  unfold State.kexStart
  repeat' first
    | with_reducible assumption
    | ((with_reducible apply hX.after); exact rfl)
    | with_reducible apply State.setLink_fr
    | with_reducible apply State.freshBytes_fr
    | with_reducible apply State.showLink_fr
    | with_reducible apply State.kexSend_fr
    | (extract_lets +onlyGivenNames x; clear_value x)
    | split

theorem State.kexNext_fr {X : Nat} {s0 : State} {s : State} {a1 : ℕ} (h : Fr X s0 s) (hX : Sub 0xc082000080000 X) :
    Fr X s0 (State.kexNext s a1) := by
  unfold State.kexNext
  repeat' first
    | with_reducible assumption
    | with_reducible apply State.kexStart_fr
    | (extract_lets +onlyGivenNames x; clear_value x)
    | split

theorem State.linkFresh_fr {X : Nat} {s0 : State} {s : State} {a1 : ℕ} (h : Fr X s0 s) (hX : Sub 0xc082000080000 X) :
    Fr X s0 (State.linkFresh s a1) := by
  unfold State.linkFresh
  repeat' first
    | with_reducible assumption
    | ((with_reducible apply hX.after); exact rfl)
    | with_reducible apply State.kexNext_fr
    | with_reducible apply State.setLink_fr
    | split

theorem State.linkDrop_fr {X : Nat} {s0 : State} {s : State} {a1 : ℕ} (h : Fr X s0 s) (hX : Sub 0x2000080000 X) :
    Fr X s0 (State.linkDrop s a1) := by
  unfold State.linkDrop
  repeat' first
    | with_reducible assumption
    | ((with_reducible apply hX.after); exact rfl)
    | with_reducible apply State.showLink_fr
    | with_reducible apply State.setLink_fr

theorem State.kexAccept_fr {X : Nat} {s0 : State} {s : State} {a1 : ℕ} {a2 : Bytes} (h : Fr X s0 s) (hX : Sub 0xc082000080000 X) :
    Fr X s0 (State.kexAccept s a1 a2) := by
  unfold State.kexAccept
  repeat' first
    | with_reducible assumption
    | ((with_reducible apply hX.after); exact rfl)
    | with_reducible apply State.freshBytes_fr
    | with_reducible apply State.showLink_fr
    | with_reducible apply State.kexSend_fr
    | with_reducible apply State.setLink_fr

theorem State.kexOffer_fr {X : Nat} {s0 : State} {s : State} {a1 : ℕ} {a2 : Bytes} (h : Fr X s0 s) (hX : Sub 0xc082000080000 X) :
    Fr X s0 (State.kexOffer s a1 a2) := by
  unfold State.kexOffer
  repeat' first
    | with_reducible assumption
    | ((with_reducible apply hX.after); exact rfl)
    | with_reducible apply State.kexSend_fr
    | with_reducible apply State.kexAccept_fr
    | (extract_lets +onlyGivenNames x; clear_value x)
    | split

theorem State.kexAccepted_fr {X : Nat} {s0 : State} {s : State} {a1 : ℕ} {a2 : Bytes} (h : Fr X s0 s) (hX : Sub 0x8082000080000 X) :
    Fr X s0 (State.kexAccepted s a1 a2) := by
  unfold State.kexAccepted
  repeat' first
    | with_reducible assumption
    | ((with_reducible apply hX.after); exact rfl)
    | with_reducible apply State.showLink_fr
    | with_reducible apply State.lscCount_fr
    | with_reducible apply State.kexSend_fr
    | with_reducible apply State.setLink_fr
    | (extract_lets +onlyGivenNames x; clear_value x)
    | split

theorem State.kexSwitch_fr {X : Nat} {s0 : State} {s : State} {a1 : ℕ} (h : Fr X s0 s) (hX : Sub 0x2000080000 X) :
    Fr X s0 (State.kexSwitch s a1) := by
  unfold State.kexSwitch
  repeat' first
    | with_reducible assumption
    | ((with_reducible apply hX.after); exact rfl)
    | with_reducible apply State.showLink_fr
    | with_reducible apply State.lscCount_fr
    | with_reducible apply State.setLink_fr
    | (extract_lets +onlyGivenNames x; clear_value x)
    | split

theorem State.kexConfirm_fr {X : Nat} {s0 : State} {s : State} {a1 : ℕ} {a2 : Bytes} (h : Fr X s0 s) (hX : Sub 0x2000080000 X) :
    Fr X s0 (State.kexConfirm s a1 a2) := by
  unfold State.kexConfirm
  repeat' first
    | with_reducible assumption
    | with_reducible apply State.kexSwitch_fr
    | split

theorem State.kexReject_fr {X : Nat} {s0 : State} {s : State} {a1 : ℕ} {a2 : Bytes} (h : Fr X s0 s) (hX : Sub 0xc082000080000 X) :
    Fr X s0 (State.kexReject s a1 a2) := by
  unfold State.kexReject
  repeat' first
    | with_reducible assumption
    | ((with_reducible apply hX.after); exact rfl)
    | with_reducible apply State.kexStart_fr
    | with_reducible apply State.setLink_fr
    | (extract_lets +onlyGivenNames x; clear_value x)
    | split

theorem State.kexResend_fr {X : Nat} {s0 : State} {s : State} {a1 : ℕ} (h : Fr X s0 s) (hX : Sub 0x2c082070080000 X) :
    Fr X s0 (State.kexResend s a1) := by
  unfold State.kexResend
  repeat' first
    | with_reducible assumption
    | ((with_reducible apply hX.after); exact rfl)
    | with_reducible apply State.kexSend_fr
    | with_reducible apply State.setLink_fr
    | with_reducible apply State.showLink_fr
    | with_reducible apply State.raise_fr
    | with_reducible apply State.lscCount_fr
    | (extract_lets +onlyGivenNames x; clear_value x)
    | split

theorem State.retirePrev_fr {X : Nat} {s0 : State} {s : State} {a1 : ℕ} (h : Fr X s0 s) (hX : Sub 0x2000080000 X) :
    Fr X s0 (State.retirePrev s a1) := by
  unfold State.retirePrev
  repeat' first
    | with_reducible assumption
    | ((with_reducible apply hX.after); exact rfl)
    | with_reducible apply State.showLink_fr
    | with_reducible apply State.setLink_fr
    | (extract_lets +onlyGivenNames x; clear_value x)
    | split

theorem State.kexReceive_fr {X : Nat} {s0 : State} {s : State} {a1 : ℕ} {a2 : ℕ} {a3 : Bytes} {a4 : State → State} (h : Fr X s0 s) (hf0 : ∀ x0, Fr X s0 x0 → Fr X s0 (a4 x0)) (hX : Sub 0x80000 X) :
    Fr X s0 (State.kexReceive s a1 a2 a3 a4) := by
  unfold State.kexReceive
  repeat' first
    | with_reducible assumption
    | with_reducible apply hf0
    | with_reducible apply State.lscCount_fr
    | split

theorem State.kexMessage_fr {X : Nat} {s0 : State} {s : State} {a1 : ℕ} {a2 : Bytes} (h : Fr X s0 s) (hX : Sub 0xc082000080000 X) :
    Fr X s0 (State.kexMessage s a1 a2) := by
  unfold State.kexMessage
  repeat' first
    | with_reducible assumption
    | ((with_reducible apply hX.after); exact rfl)
    | with_reducible apply State.kexReceive_fr
    | with_reducible apply State.kexOffer_fr
    | with_reducible apply State.kexAccepted_fr
    | with_reducible apply State.kexConfirm_fr
    | with_reducible apply State.kexReject_fr
    | (intro x)
    | split

theorem State.macsecSeal_fr {X : Nat} {s0 : State} {s : State} {a1 : ℕ} {a2 : Bytes} (h : Fr X s0 s) (hX : Sub 0xc082000080000 X) {r} {t : State}
    (ht : State.macsecSeal s a1 a2 = some (r, t)) : Fr X s0 t := by
  revert ht
  unfold State.macsecSeal
  repeat' first
    | with_reducible assumption
    | ((with_reducible apply hX.after); exact rfl)
    | with_reducible apply State.kexNext_fr
    | with_reducible apply State.setLink_fr
    | (extract_lets +onlyGivenNames x; first
        | (refine Fr.cut (X := X) (s0 := s0) (s := x) ?_ (fun hx => ?_); (on_goal 2 => clear_value x); (on_goal 1 => (unfold x; clear x)))
        | clear_value x)
    | split
    | (refine fun (ht : _ = _) => ?_; first | (cases ht; done) | cases ht | (revert ht; split) | skip)

theorem State.macsecOpen_fr {X : Nat} {s0 : State} {s : State} {a1 : ℕ} {a2 : Bytes} (h : Fr X s0 s) (hX : Sub 0x2000080000 X) :
    Fr X s0 (State.macsecOpen s a1 a2).2 := by
  unfold State.macsecOpen
  repeat' first
    | with_reducible assumption
    | ((with_reducible apply hX.after); exact rfl)
    | with_reducible apply State.lscCount_fr
    | with_reducible apply State.kexSwitch_fr
    | with_reducible apply State.setLink_fr
    | (extract_lets +onlyGivenNames x; first
        | (refine Fr.cut (X := X) (s0 := s0) (s := x) ?_ (fun hx => ?_); (on_goal 2 => clear_value x); (on_goal 1 => (unfold x; clear x)))
        | clear_value x)
    | split

theorem execKexOffer_fr {X : Nat} {s0 : State} {a0 : ℕ} {a1 : Bytes} {s : State} (h : Fr X s0 s) (hX : Sub 0xc082000080000 X) {t : State}
    (ht : execKexOffer a0 a1 s = .next t) : Fr X s0 t := by
  unfold execKexOffer at ht
  obtain rfl := Host.Outcome.next.inj ht
  repeat' first
    | with_reducible assumption
    | ((with_reducible apply hX.after); exact rfl)
    | with_reducible apply State.inCore_fr
    | with_reducible apply State.kexReceive_fr
    | with_reducible apply State.kexOffer_fr
    | (intro x)

theorem execKexAccept_fr {X : Nat} {s0 : State} {a0 : ℕ} {a1 : Bytes} {s : State} (h : Fr X s0 s) (hX : Sub 0x8082000080000 X) {t : State}
    (ht : execKexAccept a0 a1 s = .next t) : Fr X s0 t := by
  unfold execKexAccept at ht
  obtain rfl := Host.Outcome.next.inj ht
  repeat' first
    | with_reducible assumption
    | ((with_reducible apply hX.after); exact rfl)
    | with_reducible apply State.inCore_fr
    | with_reducible apply State.kexReceive_fr
    | with_reducible apply State.kexAccepted_fr
    | (intro x)

theorem execKexConfirm_fr {X : Nat} {s0 : State} {a0 : ℕ} {a1 : Bytes} {s : State} (h : Fr X s0 s) (hX : Sub 0x2000080000 X) {t : State}
    (ht : execKexConfirm a0 a1 s = .next t) : Fr X s0 t := by
  unfold execKexConfirm at ht
  obtain rfl := Host.Outcome.next.inj ht
  repeat' first
    | with_reducible assumption
    | ((with_reducible apply hX.after); exact rfl)
    | with_reducible apply State.inCore_fr
    | with_reducible apply State.kexReceive_fr
    | with_reducible apply State.kexConfirm_fr
    | (intro x)

theorem execKexReject_fr {X : Nat} {s0 : State} {a0 : ℕ} {a1 : Bytes} {s : State} (h : Fr X s0 s) (hX : Sub 0xc082000080000 X) {t : State}
    (ht : execKexReject a0 a1 s = .next t) : Fr X s0 t := by
  unfold execKexReject at ht
  obtain rfl := Host.Outcome.next.inj ht
  repeat' first
    | with_reducible assumption
    | ((with_reducible apply hX.after); exact rfl)
    | with_reducible apply State.inCore_fr
    | with_reducible apply State.kexReceive_fr
    | with_reducible apply State.kexReject_fr
    | (intro x)

theorem execKexResend_fr {X : Nat} {s0 : State} {a0 : ℕ} {s : State} (h : Fr X s0 s) (hX : Sub 0x2c082070080000 X) {t : State}
    (ht : execKexResend a0 s = .next t) : Fr X s0 t := by
  unfold execKexResend at ht
  obtain rfl := Host.Outcome.next.inj ht
  repeat' first
    | with_reducible assumption
    | ((with_reducible apply hX.after); exact rfl)
    | with_reducible apply State.inCore_fr
    | with_reducible apply State.kexResend_fr
    | (intro x)

theorem execKexRetry_fr {X : Nat} {s0 : State} {a0 : ℕ} {s : State} (h : Fr X s0 s) (hX : Sub 0xc082000080000 X) {t : State}
    (ht : execKexRetry a0 s = .next t) : Fr X s0 t := by
  unfold execKexRetry at ht
  obtain rfl := Host.Outcome.next.inj ht
  repeat' first
    | with_reducible assumption
    | ((with_reducible apply hX.after); exact rfl)
    | with_reducible apply State.inCore_fr
    | with_reducible apply State.kexNext_fr
    | (intro x)
    | split

theorem execRekeyTimer_fr {X : Nat} {s0 : State} {a0 : ℕ} {s : State} (h : Fr X s0 s) (hX : Sub 0xc082000080000 X) {t : State}
    (ht : execRekeyTimer a0 s = .next t) : Fr X s0 t := by
  unfold execRekeyTimer at ht
  obtain rfl := Host.Outcome.next.inj ht
  repeat' first
    | with_reducible assumption
    | ((with_reducible apply hX.after); exact rfl)
    | with_reducible apply State.inCore_fr
    | with_reducible apply State.kexNext_fr
    | (intro x)
    | split

theorem execFabGraceExpire_fr {X : Nat} {s0 : State} {a0 : ℕ} {s : State} (h : Fr X s0 s) (hX : Sub 0x2000080000 X) {t : State}
    (ht : execFabGraceExpire a0 s = .next t) : Fr X s0 t := by
  unfold execFabGraceExpire at ht
  obtain rfl := Host.Outcome.next.inj ht
  repeat' first
    | with_reducible assumption
    | ((with_reducible apply hX.after); exact rfl)
    | with_reducible apply State.inCore_fr
    | with_reducible apply State.retirePrev_fr
    | (intro x)
    | split

theorem execLscStatClr_fr {X : Nat} {s0 : State} {a0 : View} {a1 : Word} {s : State} (h : Fr X s0 s) (hX : Sub 0x4080000 X) {t : State}
    (ht : execLscStatClr a0 a1 s = .next t) : Fr X s0 t := by
  unfold execLscStatClr at ht
  obtain rfl := Host.Outcome.next.inj ht
  repeat' first
    | with_reducible assumption
    | ((with_reducible apply hX.after); exact rfl)
    | with_reducible apply State.selClear_fr
    | with_reducible apply State.setFld_fr
    | (intro x)
    | split
    | ((with_reducible apply hX.ok); exact rfl)

theorem State.heaterAnnounce_fr {X : Nat} {s0 : State} {s : State} (h : Fr X s0 s) (hX : Sub 0x8000400000000 X) :
    Fr X s0 (State.heaterAnnounce s) := by
  unfold State.heaterAnnounce
  repeat' first
    | ((with_reducible apply hX.after); exact rfl)
    | with_reducible apply State.emit_fr
    | (with_reducible apply Fr.power_; (on_goal 1 => (first | with_reducible assumption | with_reducible apply State.emit_fr | with_reducible refine Fr.of_snd (by assumption) ?_)))
    | ((with_reducible apply hX.bit); exact rfl)

theorem State.liftCore_fr {X : Nat} {s0 : State} {s : State} (h : Fr X s0 s) (hX : Sub 0x8000400400000 X) :
    Fr X s0 (State.liftCore s) := by
  unfold State.liftCore
  repeat' first
    | with_reducible assumption
    | ((with_reducible apply hX.after); exact rfl)
    | with_reducible apply State.heaterAnnounce_fr
    | with_reducible apply State.setFld_fr
    | split
    | ((with_reducible apply hX.ok); exact rfl)

theorem State.showTraffic_fr {X : Nat} {s0 : State} {s : State} (h : Fr X s0 s) (hX : Sub 0x8000400400000 X) :
    Fr X s0 (State.showTraffic s) := by
  unfold State.showTraffic
  repeat' first
    | with_reducible assumption
    | with_reducible apply State.liftCore_fr
    | with_reducible apply State.setFlag_fr
    | (extract_lets +onlyGivenNames x; first
        | (refine Fr.cut (X := X) (s0 := s0) (s := x) ?_ (fun hx => ?_); (on_goal 2 => clear_value x); (on_goal 1 => (unfold x; clear x)))
        | clear_value x)
    | split
    | ((with_reducible apply hX.ok); exact rfl)

theorem State.swcCount_fr {X : Nat} {s0 : State} {s : State} {a1 : ℕ} {a2 : ℕ} (h : Fr X s0 s) (hX : Sub 0x80 X) :
    Fr X s0 (State.swcCount s a1 a2) := by
  unfold State.swcCount
  repeat' first
    | with_reducible assumption
    | with_reducible apply State.bump_fr
    | ((with_reducible apply hX.ok); exact rfl)

theorem State.flushPort_fr {X : Nat} {s0 : State} {s : State} {a1 : ℕ} (h : Fr X s0 s) (hX : Sub 0x2c0018700000c0 X) :
    Fr X s0 (State.flushPort s a1) := by
  unfold State.flushPort
  repeat' first
    | with_reducible assumption
    | ((with_reducible apply hX.after); exact rfl)
    | with_reducible apply State.swcCount_fr
    | with_reducible apply State.settFrees_fr
    | with_reducible apply State.setOutq_fr
    | with_reducible apply Fr.foldl
    | (intro x)

theorem State.llrReset_fr {X : Nat} {s0 : State} {s : State} {a1 : ℕ} (h : Fr X s0 s) (hX : Sub 0x2c001870000040 X) :
    Fr X s0 (State.llrReset s a1) := by
  unfold State.llrReset
  repeat' first
    | with_reducible assumption
    | ((with_reducible apply hX.after); exact rfl)
    | with_reducible apply State.onSwc_fr
    | with_reducible apply State.settFrees_fr
    | with_reducible apply Fr.foldl
    | (intro x)
    | split

theorem State.linkDown_fr {X : Nat} {s0 : State} {s : State} {a1 : ℕ} (h : Fr X s0 s) (hX : Sub 0x2c003c704b00c0 X) :
    Fr X s0 (State.linkDown s a1) := by
  unfold State.linkDown
  repeat' first
    | with_reducible assumption
    | ((with_reducible apply hX.after); exact rfl)
    | with_reducible apply State.showTraffic_fr
    | with_reducible apply State.llrReset_fr
    | with_reducible apply State.flushPort_fr
    | with_reducible apply State.setFld_fr
    | with_reducible apply State.setPortSt_fr
    | with_reducible apply State.linkDrop_fr
    | with_reducible apply Fr.foldl
    | (intro x)
    | (extract_lets +onlyGivenNames x; first
        | (refine Fr.cut (X := X) (s0 := s0) (s := x) ?_ (fun hx => ?_); (on_goal 2 => clear_value x); (on_goal 1 => (unfold x; clear x)))
        | (refine Sub.cut (X := X) (f := x) ?_ (fun hx => ?_); (on_goal 2 => clear_value x); (on_goal 1 => (unfold x; clear x)))
        | clear_value x)
    | split
    | ((with_reducible apply hX.ok); exact rfl)

theorem State.portComesUp_fr {X : Nat} {s0 : State} {s : State} {a1 : ℕ} (h : Fr X s0 s) (hX : Sub 0xc0834004b0000 X) :
    Fr X s0 (State.portComesUp s a1) := by
  unfold State.portComesUp
  repeat' first
    | with_reducible assumption
    | ((with_reducible apply hX.after); exact rfl)
    | with_reducible apply State.linkFresh_fr
    | with_reducible apply State.showTraffic_fr
    | with_reducible apply State.setFld_fr
    | with_reducible apply State.setPortSt_fr
    | with_reducible apply Fr.foldl
    | (intro x)
    | (extract_lets +onlyGivenNames x; first
        | (refine Sub.cut (X := X) (f := x) ?_ (fun hx => ?_); (on_goal 2 => clear_value x); (on_goal 1 => (unfold x; clear x)))
        | clear_value x)
    | split
    | ((with_reducible apply hX.ok); exact rfl)

theorem State.countPick_fr {X : Nat} {s0 : State} {s : State} {a1 : ℕ} {a2 : Bytes} {a3 : ℕ} (h : Fr X s0 s) (hX : Sub 0x80 X) :
    Fr X s0 (State.countPick s a1 a2 a3) := by
  unfold State.countPick
  repeat' first
    | with_reducible assumption
    | with_reducible apply State.bumpWrap_fr
    | split
    | ((with_reducible apply hX.ok); exact rfl)

theorem State.chooseSpray_fr {X : Nat} {s0 : State} {s : State} {a1 : ℕ} {a2 : ℕ} {a3 : Bytes} {a4 : ℕ} (h : Fr X s0 s) (hX : Sub 0x4001000000080 X) :
    Fr X s0 (State.chooseSpray s a1 a2 a3 a4).2 := by
  unfold State.chooseSpray
  repeat' first
    | with_reducible assumption
    | ((with_reducible apply hX.after); exact rfl)
    | with_reducible apply State.fresh_fr
    | with_reducible apply State.onSwc_fr
    | with_reducible apply State.countPick_fr
    | with_reducible refine Fr.of_snd (by assumption) ?_
    | (extract_lets +onlyGivenNames x; first
        | (refine Fr.cut (X := X) (s0 := s0) (s := x) ?_ (fun hx => ?_); (on_goal 2 => clear_value x); (on_goal 1 => (unfold x; clear x)))
        | clear_value x)
    | split

theorem State.pinFlow_fr {X : Nat} {s0 : State} {s : State} {a1 : ℕ} {a2 : Bytes} {a3 : Parsed} (h : Fr X s0 s) (hX : Sub 0x1000000080 X) :
    Fr X s0 (State.pinFlow s a1 a2 a3).2 := by
  unfold State.pinFlow
  repeat' first
    | with_reducible assumption
    | ((with_reducible apply hX.after); exact rfl)
    | with_reducible apply State.countPick_fr
    | with_reducible apply State.onSwc_fr
    | (extract_lets +onlyGivenNames x; clear_value x)
    | split
    | dsimp only

theorem State.admitDep_fr {X : Nat} {s0 : State} {s : State} {a1 : ℕ} {a2 : Dep} {a3 : Option Parsed} (h : Fr X s0 s) (hX : Sub 0x2c0018700000c0 X) :
    Fr X s0 (State.admitDep s a1 a2 a3) := by
  unfold State.admitDep
  repeat' first
    | with_reducible assumption
    | ((with_reducible apply hX.after); exact rfl)
    | with_reducible apply State.enqueue_fr
    | with_reducible apply State.setOutq_fr
    | with_reducible apply State.fresh_fr
    | with_reducible apply State.swcCount_fr
    | with_reducible apply State.settFrees_fr
    | with_reducible refine Fr.of_snd (by assumption) ?_
    | (extract_lets +onlyGivenNames x; first
        | (refine Fr.cut (X := X) (s0 := s0) (s := x) ?_ (fun hx => ?_); (on_goal 2 => clear_value x); (on_goal 1 => (unfold x; clear x)))
        | clear_value x)
    | split

theorem State.toQueue_fr {X : Nat} {s0 : State} {s : State} {a1 : ℕ} {a2 : ℕ} {a3 : Dep} {a4 : Option Parsed} (h : Fr X s0 s) (hX : Sub 0x2c0018700000c0 X) :
    Fr X s0 (State.toQueue s a1 a2 a3 a4) := by
  unfold State.toQueue
  repeat' first
    | with_reducible assumption
    | ((with_reducible apply hX.after); exact rfl)
    | with_reducible apply State.admitDep_fr
    | with_reducible apply State.swcCount_fr
    | with_reducible apply State.settFrees_fr
    | (extract_lets +onlyGivenNames x; clear_value x)
    | split

theorem State.sendCopy_fr {X : Nat} {s0 s : State} {ports : List Nat} {tc : Nat} {d : Dep} {ip : Option Parsed}
    (h : Fr X s0 s) (hX : Sub 0x2c0018700000c0 X) : Fr X s0 (State.sendCopy s ports tc d ip) := by
  refine Fr.foldl (Fr.foldl h fun s _ hs => Fr.getD (fun t ht => ?_) hs) fun s _ hs => State.toQueue_fr hs (hX.after rfl)
  exact State.settShare_fr hs (hX.after rfl) ht


theorem State.multicast_fr {X : Nat} {s0 : State} {s : State} {a1 : ℕ} {a2 : List ℕ} {a3 : ℕ} {a4 : Dep} {a5 : Option Parsed} (h : Fr X s0 s) (hX : Sub 0x2c0018700000c0 X) :
    Fr X s0 (State.multicast s a1 a2 a3 a4 a5) := by
  unfold State.multicast
  repeat' first
    | with_reducible assumption
    | ((with_reducible apply hX.after); exact rfl)
    | with_reducible apply State.settFrees_fr
    | with_reducible apply State.settStore_fr
    | with_reducible apply State.sendCopy_fr
    | with_reducible apply Fr.foldl
    | with_reducible refine Fr.of_snd (by assumption) ?_
    | (intro x)
    | split

theorem State.deliver_fr {X : Nat} {s0 : State} {s : State} {a1 : ℕ} {a2 : ℕ} {a3 : Bytes} {a4 : List ℕ} (h : Fr X s0 s) (hX : Sub 0x2c000870000040 X) :
    Fr X s0 (State.deliver s a1 a2 a3 a4) := by
  unfold State.deliver
  repeat' first
    | with_reducible assumption
    | ((with_reducible apply hX.after); exact rfl)
    | with_reducible apply State.settFrees_fr
    | with_reducible apply State.emit_fr

theorem State.forward_fr {X : Nat} {s0 : State} {s : State} {a1 : Ingress} {a2 : Parsed} {a3 : Bytes} {a4 : List ℕ} (h : Fr X s0 s) (hX : Sub 0x2c0018700001c0 X) :
    Fr X s0 (State.forward s a1 a2 a3 a4) := by
  unfold State.forward
  repeat' first
    | with_reducible assumption
    | ((with_reducible apply hX.after); exact rfl)
    | with_reducible apply State.swcCount_fr
    | with_reducible apply State.settFrees_fr
    | with_reducible apply State.toQueue_fr
    | with_reducible apply State.police_fr
    | with_reducible apply State.bump_fr
    | with_reducible apply State.chooseSpray_fr
    | with_reducible apply State.pinFlow_fr
    | with_reducible apply State.multicast_fr
    | with_reducible refine Fr.of_snd (by assumption) ?_
    | (intro x)
    | (extract_lets +onlyGivenNames x; first
        | (refine Fr.cut_fn4 (X := X) (s0 := s0) (f := x) ?_ (fun hx => ?_); (on_goal 2 => clear_value x); (on_goal 1 => (unfold x; clear x)))
        | (refine Fr.cut_fn2 (X := X) (s0 := s0) (f := x) ?_ (fun hx => ?_); (on_goal 2 => clear_value x); (on_goal 1 => (unfold x; clear x)))
        | (refine Fr.cut_fn3 (X := X) (s0 := s0) (f := x) ?_ (fun hx => ?_); (on_goal 2 => clear_value x); (on_goal 1 => (unfold x; clear x)))
        | clear_value x)
    | split
    | ((with_reducible apply hX.ok); exact rfl)
    | with_reducible apply_assumption -exfalso -symm

theorem State.lldpSeen_fr {X : Nat} {s0 : State} {s : State} {a1 : Ingress} {a2 : Bytes} (h : Fr X s0 s) (hX : Sub 0x100000000000 X) :
    Fr X s0 (State.lldpSeen s a1 a2) := by
  unfold State.lldpSeen
  repeat' first
    | with_reducible assumption
    | (with_reducible apply Fr.flt_; (on_goal 1 => (first | with_reducible assumption | with_reducible refine Fr.of_snd (by assumption) ?_)))
    | (extract_lets +onlyGivenNames x; clear_value x)
    | split
    | ((with_reducible apply hX.bit); exact rfl)

theorem State.ingressStored_fr {X : Nat} {s0 : State} {s : State} {a1 : Ingress} {a2 : Bytes} {a3 : List ℕ} (h : Fr X s0 s) (hX : Sub 0x2c1018700001c0 X) :
    Fr X s0 (State.ingressStored s a1 a2 a3) := by
  unfold State.ingressStored
  repeat' first
    | with_reducible assumption
    | ((with_reducible apply hX.after); exact rfl)
    | with_reducible apply State.swcCount_fr
    | with_reducible apply State.settFrees_fr
    | with_reducible apply State.deliver_fr
    | with_reducible apply State.lldpSeen_fr
    | with_reducible apply State.forward_fr
    | (extract_lets +onlyGivenNames x; first
        | (refine Fr.cut (X := X) (s0 := s0) (s := x) ?_ (fun hx => ?_); (on_goal 2 => clear_value x); (on_goal 1 => (unfold x; clear x)))
        | clear_value x)
    | split

theorem State.ingress_fr {X : Nat} {s0 : State} {s : State} {a1 : Ingress} {a2 : Bytes} (h : Fr X s0 s) (hX : Sub 0x2c1018700001c0 X) :
    Fr X s0 (State.ingress s a1 a2) := by
  unfold State.ingress
  repeat' first
    | with_reducible assumption
    | ((with_reducible apply hX.after); exact rfl)
    | with_reducible apply State.settStore_fr
    | with_reducible apply State.ingressStored_fr
    | with_reducible refine Fr.of_snd (by assumption) ?_
    | split

theorem State.pipelineOverrun_fr {X : Nat} {s0 : State} {s : State} {a1 : ℕ} (h : Fr X s0 s) (hX : Sub 0x300000000000 X) :
    Fr X s0 (State.pipelineOverrun s a1) := by
  unfold State.pipelineOverrun
  repeat' first
    | ((with_reducible apply hX.after); exact rfl)
    | with_reducible apply State.healthOverruns_fr
    | (with_reducible apply Fr.lanes_; (on_goal 1 => (first | with_reducible assumption | with_reducible apply State.healthOverruns_fr | with_reducible refine Fr.of_snd (by assumption) ?_)))
    | ((with_reducible apply hX.bit); exact rfl)

theorem State.portFrame_fr {X : Nat} {s0 : State} {s : State} {a1 : ℕ} {a2 : Bytes} (h : Fr X s0 s) (hX : Sub 0x2c3038700801c0 X) :
    Fr X s0 (State.portFrame s a1 a2) := by
  unfold State.portFrame
  repeat' first
    | with_reducible assumption
    | ((with_reducible apply hX.after); exact rfl)
    | with_reducible apply State.pipelineOverrun_fr
    | with_reducible apply State.macsecOpen_fr
    | with_reducible apply State.ingress_fr
    | with_reducible refine Fr.of_snd (by assumption) ?_
    | split

theorem State.setLlr_fr {X : Nat} {s0 : State} {s : State} {a1 : ℕ} {a2 : Llr} (h : Fr X s0 s) (hX : Sub 0x1000000000 X) :
    Fr X s0 (State.setLlr s a1 a2) := by
  unfold State.setLlr
  repeat' first
    | with_reducible assumption
    | with_reducible apply State.onSwc_fr

theorem State.tptCount_fr {X : Nat} {s0 : State} {s : State} {a1 : ℕ} {a2 : optParam ℕ 0} (h : Fr X s0 s) (hX : Sub 0x200 X) :
    Fr X s0 (State.tptCount s a1 a2) := by
  unfold State.tptCount
  repeat' first
    | with_reducible assumption
    | with_reducible apply State.bump_fr
    | ((with_reducible apply hX.ok); exact rfl)

theorem State.transmit_fr {X : Nat} {s0 : State} {s : State} {a1 : ℕ} {a2 : Bytes} {a3 : List ℕ} (h : Fr X s0 s) (hX : Sub 0x2c083870080240 X) :
    Fr X s0 (State.transmit s a1 a2 a3) := by
  unfold State.transmit
  repeat' first
    | with_reducible assumption
    | ((with_reducible apply hX.after); exact rfl)
    | with_reducible refine State.macsecSeal_fr ?_ ?_ (by assumption)
    | with_reducible apply State.settFrees_fr
    | with_reducible apply State.emit_fr
    | with_reducible apply State.setLlr_fr
    | with_reducible apply State.tptCount_fr
    | (refine fun (ht : _ = _) => ?_; first | (cases ht; done) | cases ht | (revert ht; split) | skip)
    | (intro x)
    | (extract_lets +onlyGivenNames x; first
        | (refine Fr.cut_opt2 (X := X) (s0 := s0) (e := x) ?_ (fun hx => ?_); (on_goal 2 => clear_value x); (on_goal 1 => (unfold x; clear x)))
        | clear_value x)
    | split
    | exact hx _ _ rfl

theorem State.noteLaunch_fr {X : Nat} {s0 : State} {s : State} {a1 : ℕ} {a2 : Option ℕ} (h : Fr X s0 s) (hX : Sub 0x200000 X) :
    Fr X s0 (State.noteLaunch s a1 a2) := by
  unfold State.noteLaunch
  repeat' first
    | with_reducible assumption
    | with_reducible apply State.bump_fr
    | split
    | ((with_reducible apply hX.ok); exact rfl)

theorem State.depart_fr {X : Nat} {s0 : State} {s : State} {a1 : ℕ} {a2 : List SettErr} (h : Fr X s0 s) (hX : Sub 0x2c0838702813c0 X) :
    Fr X s0 (State.depart s a1 a2) := by
  unfold State.depart
  repeat' first
    | with_reducible assumption
    | ((with_reducible apply hX.after); exact rfl)
    | with_reducible apply State.tptCount_fr
    | with_reducible apply State.planOverrun_fr
    | with_reducible refine State.selectQueue_fr ?_ ?_ (by assumption)
    | with_reducible refine State.departQ_fr ?_ ?_ (by assumption)
    | with_reducible apply State.setPortSt_fr
    | with_reducible apply State.noteLaunch_fr
    | with_reducible apply State.settCorrupt_fr
    | with_reducible apply State.swcCount_fr
    | with_reducible apply State.settFrees_fr
    | with_reducible apply State.transmit_fr
    | (extract_lets +onlyGivenNames x; clear_value x)
    | split
    | dsimp only

theorem State.mcAge_fr {X : Nat} {s0 : State} {s : State} {a1 : ℕ} (h : Fr X s0 s) (hX : Sub 0x2c0018700000c0 X) :
    Fr X s0 (State.mcAge s a1) := by
  unfold State.mcAge
  repeat' first
    | with_reducible assumption
    | ((with_reducible apply hX.after); exact rfl)
    | with_reducible apply State.swcCount_fr
    | with_reducible apply State.settFrees_fr
    | with_reducible apply State.setOutq_fr
    | (extract_lets +onlyGivenNames x; clear_value x)
    | split

theorem execSwcStatClr_fr {X : Nat} {s0 : State} {a0 : View} {a1 : Word} {s : State} (h : Fr X s0 s) (hX : Sub 0x4000080 X) {t : State}
    (ht : execSwcStatClr a0 a1 s = .next t) : Fr X s0 t := by
  unfold execSwcStatClr at ht
  obtain rfl := Host.Outcome.next.inj ht
  repeat' first
    | with_reducible assumption
    | ((with_reducible apply hX.after); exact rfl)
    | with_reducible apply State.selClear_fr
    | with_reducible apply State.setFld_fr
    | with_reducible apply Fr.foldl
    | (intro x)
    | split
    | ((with_reducible apply hX.ok); exact rfl)

theorem State.llrSend_fr {X : Nat} {s0 : State} {s : State} {a1 : ℕ} {a2 : ℕ} {a3 : ℕ} (h : Fr X s0 s) (hX : Sub 0x8000000000000 X) :
    Fr X s0 (State.llrSend s a1 a2 a3) := by
  unfold State.llrSend
  repeat' first
    | with_reducible assumption
    | with_reducible apply State.emit_fr

theorem State.llrRelease_fr {X : Nat} {s0 : State} {s : State} {a1 : ℕ} {a2 : ℕ} (h : Fr X s0 s) (hX : Sub 0x2c001870000040 X) :
    Fr X s0 (State.llrRelease s a1 a2) := by
  unfold State.llrRelease
  repeat' first
    | with_reducible assumption
    | ((with_reducible apply hX.after); exact rfl)
    | with_reducible apply State.settFrees_fr
    | with_reducible apply State.setLlr_fr
    | with_reducible apply Fr.foldl
    | (intro x)
    | (extract_lets +onlyGivenNames x; clear_value x)
    | split

theorem State.llrReplay_fr {X : Nat} {s0 : State} {s : State} {a1 : ℕ} (h : Fr X s0 s) (hX : Sub 0x2c103c704b02c0 X) :
    Fr X s0 (State.llrReplay s a1) := by
  unfold State.llrReplay
  repeat' first
    | with_reducible assumption
    | ((with_reducible apply hX.after); exact rfl)
    | with_reducible apply State.linkDown_fr
    | with_reducible apply State.healthAdd_fr
    | with_reducible apply State.tptCount_fr
    | with_reducible apply State.emit_fr
    | with_reducible apply State.healthReplay_fr
    | with_reducible apply State.setLlr_fr
    | with_reducible apply Fr.foldl
    | (intro x)
    | (extract_lets +onlyGivenNames x; first
        | (refine Fr.cut (X := X) (s0 := s0) (s := x) ?_ (fun hx => ?_); (on_goal 2 => clear_value x); (on_goal 1 => (unfold x; clear x)))
        | clear_value x)
    | split

theorem State.llrInitSend_fr {X : Nat} {s0 : State} {s : State} {a1 : ℕ} (h : Fr X s0 s) (hX : Sub 0x8000000000000 X) :
    Fr X s0 (State.llrInitSend s a1) := by
  unfold State.llrInitSend
  repeat' first
    | with_reducible assumption
    | with_reducible apply State.llrSend_fr
    | split

theorem State.llrFar_fr {X : Nat} {s0 : State} {s : State} {a1 : ℕ} {a2 : ℕ} (h : Fr X s0 s) (hX : Sub 0x1000000000 X) :
    Fr X s0 (State.llrFar s a1 a2) := by
  unfold State.llrFar
  repeat' first
    | with_reducible assumption
    | with_reducible apply State.setPortSt_fr

theorem State.llrInit_fr {X : Nat} {s0 : State} {s : State} {a1 : ℕ} (h : Fr X s0 s) (hX : Sub 0x2c001870000040 X) :
    Fr X s0 (State.llrInit s a1) := by
  unfold State.llrInit
  repeat' first
    | with_reducible assumption
    | ((with_reducible apply hX.after); exact rfl)
    | with_reducible apply State.llrFar_fr
    | with_reducible apply State.setLlr_fr
    | with_reducible apply State.llrReset_fr
    | split

theorem State.llrFrame_fr {X : Nat} {s0 : State} {s : State} {a1 : ℕ} {a2 : ℕ} {a3 : Bytes} (h : Fr X s0 s) (hX : Sub 0x2c3038700803c0 X) :
    Fr X s0 (State.llrFrame s a1 a2 a3) := by
  unfold State.llrFrame
  repeat' first
    | with_reducible assumption
    | ((with_reducible apply hX.after); exact rfl)
    | with_reducible apply State.portFrame_fr
    | with_reducible apply State.llrSend_fr
    | with_reducible apply State.setLlr_fr
    | with_reducible apply State.tptCount_fr
    | (extract_lets +onlyGivenNames x; clear_value x)
    | split

theorem State.llrAckTimer_fr {X : Nat} {s0 : State} {s : State} {a1 : ℕ} (h : Fr X s0 s) (hX : Sub 0x8001000000000 X) :
    Fr X s0 (State.llrAckTimer s a1) := by
  unfold State.llrAckTimer
  repeat' first
    | with_reducible assumption
    | ((with_reducible apply hX.after); exact rfl)
    | with_reducible apply State.llrSend_fr
    | with_reducible apply State.setLlr_fr
    | (extract_lets +onlyGivenNames x; clear_value x)
    | split

theorem execLlrInitSend_fr {X : Nat} {s0 : State} {a0 : ℕ} {s : State} (h : Fr X s0 s) (hX : Sub 0x8000000000000 X) {t : State}
    (ht : execLlrInitSend a0 s = .next t) : Fr X s0 t := by
  unfold execLlrInitSend at ht
  obtain rfl := Host.Outcome.next.inj ht
  repeat' first
    | with_reducible assumption
    | ((with_reducible apply hX.after); exact rfl)
    | with_reducible apply State.inCore_fr
    | with_reducible apply State.llrInitSend_fr
    | (intro x)

theorem execLlrAckTimer_fr {X : Nat} {s0 : State} {a0 : ℕ} {s : State} (h : Fr X s0 s) (hX : Sub 0x8001000000000 X) {t : State}
    (ht : execLlrAckTimer a0 s = .next t) : Fr X s0 t := by
  unfold execLlrAckTimer at ht
  obtain rfl := Host.Outcome.next.inj ht
  repeat' first
    | with_reducible assumption
    | ((with_reducible apply hX.after); exact rfl)
    | with_reducible apply State.inCore_fr
    | with_reducible apply State.llrAckTimer_fr
    | (intro x)

theorem execTptStatClr_fr {X : Nat} {s0 : State} {a0 : View} {a1 : Word} {s : State} (h : Fr X s0 s) (hX : Sub 0x4000200 X) {t : State}
    (ht : execTptStatClr a0 a1 s = .next t) : Fr X s0 t := by
  unfold execTptStatClr at ht
  obtain rfl := Host.Outcome.next.inj ht
  repeat' first
    | with_reducible assumption
    | ((with_reducible apply hX.after); exact rfl)
    | with_reducible apply State.selClear_fr
    | with_reducible apply State.setFld_fr
    | (intro x)
    | (extract_lets +onlyGivenNames x; clear_value x)
    | split
    | ((with_reducible apply hX.ok); exact rfl)

end Sys2Proof.Machine
end

