-- ==== Sys2Proof/Laws/FrameBench.lean ====
section
/-!
SUPPORT. Frames of the operations of NumFormats.lean, Transport.lean, LaneCode.lean, AshBlocks.lean, OuterBase.lean, Bench.lean: one lemma each, by backward chaining (Frame.lean).
-/

namespace Sys2Proof.Machine

theorem State.routeOut_fr {X : Nat} {s0 : State} {s : State} {a1 : ℕ} {a2 : ℕ} {a3 : ℕ} {a4 : Dep} (h : Fr X s0 s) (hX : Sub 0x2c0018700000c0 X) :
    Fr X s0 (State.routeOut s a1 a2 a3 a4) := by
  unfold State.routeOut
  repeat' first
    | with_reducible assumption
    | ((with_reducible apply hX.after); exact rfl)
    | with_reducible apply State.deliver_fr
    | with_reducible apply State.settFrees_fr
    | with_reducible apply State.toQueue_fr
    | with_reducible apply State.chooseSpray_fr
    | with_reducible apply State.pinFlow_fr
    | with_reducible apply State.multicast_fr
    | (extract_lets +onlyGivenNames x; first
        | (refine Fr.cut_snd (X := X) (s0 := s0) (e := x) ?_ (fun hx => ?_); (on_goal 2 => clear_value x); (on_goal 1 => (unfold x; clear x)))
        | clear_value x)
    | split

theorem State.mcastOut_fr {X : Nat} {s0 : State} {s : State} {a1 : ℕ} {a2 : ℕ} {a3 : ℕ} {a4 : Dep} (h : Fr X s0 s) (hX : Sub 0x2c0018700000c0 X) :
    Fr X s0 (State.mcastOut s a1 a2 a3 a4) := by
  unfold State.mcastOut
  repeat' first
    | with_reducible assumption
    | ((with_reducible apply hX.after); exact rfl)
    | with_reducible apply State.settFrees_fr
    | with_reducible apply State.multicast_fr
    | split

theorem State.onTpt_fr {X : Nat} {s0 : State} {s : State} {a1 : TptState → TptState} (h : Fr X s0 s) (hX : Sub 0x4000000000 X) :
    Fr X s0 (State.onTpt s a1) := by
  unfold State.onTpt
  exact Fr.tpt_ h (hX.bit rfl)

theorem State.launch_fr {X : Nat} {s0 : State} {s : State} {a1 : Parked} {a2 : List ℕ} (h : Fr X s0 s) (hX : Sub 0x2c0018700000c0 X) :
    Fr X s0 (State.launch s a1 a2) := by
  unfold State.launch
  repeat' first
    | with_reducible assumption
    | with_reducible apply State.routeOut_fr
    | with_reducible apply State.mcastOut_fr
    | (extract_lets +onlyGivenNames x; clear_value x)
    | split

theorem State.park_fr {X : Nat} {s0 : State} {s : State} {a1 : Waiting} (h : Fr X s0 s) (hX : Sub 0x4000000000 X) :
    Fr X s0 (State.park s a1) := by
  unfold State.park
  repeat' first
    | with_reducible assumption
    | with_reducible apply State.onTpt_fr
    | split

theorem State.sendOut_fr {X : Nat} {s0 : State} {s : State} {a1 : Parked} (h : Fr X s0 s) (hX : Sub 0x2c0058700000c0 X) :
    Fr X s0 (State.sendOut s a1) := by
  unfold State.sendOut
  repeat' first
    | with_reducible assumption
    | ((with_reducible apply hX.after); exact rfl)
    | with_reducible apply State.settStore_fr
    | with_reducible apply State.launch_fr
    | with_reducible apply State.onTpt_fr
    | with_reducible refine Fr.of_snd (by assumption) ?_
    | split

theorem State.setCtx_fr {X : Nat} {s0 : State} {s : State} {a1 : ℕ} {a2 : Ctx} (h : Fr X s0 s) (hX : Sub 0x4000000000 X) :
    Fr X s0 (State.setCtx s a1 a2) := by
  unfold State.setCtx
  repeat' first
    | with_reducible assumption
    | with_reducible apply State.onTpt_fr

theorem State.setCtxCache_fr {X : Nat} {s0 : State} {s : State} {a1 : ℕ} {a2 : List ℕ} (h : Fr X s0 s) (hX : Sub 0x4000000000 X) :
    Fr X s0 (State.setCtxCache s a1 a2) := by
  unfold State.setCtxCache
  repeat' first
    | with_reducible assumption
    | with_reducible apply State.onTpt_fr

theorem State.ctxTouch_fr {X : Nat} {s0 : State} {s : State} {a1 : ℕ} (h : Fr X s0 s) (hX : Sub 0x4000000000 X) :
    Fr X s0 (State.ctxTouch s a1) := by
  unfold State.ctxTouch
  repeat' first
    | with_reducible assumption
    | with_reducible apply State.setCtxCache_fr
    | split

theorem State.ctxCacheIn_fr {X : Nat} {s0 : State} {s : State} {a1 : ℕ} (h : Fr X s0 s) (hX : Sub 0x4000000000 X) {t : State}
    (ht : State.ctxCacheIn s a1 = some t) : Fr X s0 t := by
  revert ht
  unfold State.ctxCacheIn
  repeat' first
    | with_reducible assumption
    | with_reducible apply State.ctxTouch_fr
    | with_reducible apply State.setCtxCache_fr
    | (extract_lets +onlyGivenNames x; clear_value x)
    | split
    | (refine fun (ht : _ = _) => ?_; first | (cases ht; done) | cases ht | (revert ht; split) | skip)

theorem State.ctxRelease_fr {X : Nat} {s0 : State} {s : State} {a1 : Ctx} (h : Fr X s0 s) (hX : Sub 0x2c000870000040 X) :
    Fr X s0 (State.ctxRelease s a1) := by
  unfold State.ctxRelease
  repeat' first
    | with_reducible assumption
    | with_reducible apply State.settFrees_fr

theorem State.ctxStop_fr {X : Nat} {s0 : State} {s : State} {a1 : ℕ} {a2 : Ctx} (h : Fr X s0 s) (hX : Sub 0x2c004870000240 X) :
    Fr X s0 (State.ctxStop s a1 a2) := by
  unfold State.ctxStop
  repeat' first
    | with_reducible assumption
    | ((with_reducible apply hX.after); exact rfl)
    | with_reducible apply State.onTpt_fr
    | with_reducible apply State.tptCount_fr
    | with_reducible apply State.settFrees_fr
    | with_reducible apply State.ctxRelease_fr
    | with_reducible apply Fr.foldl
    | (intro x)

theorem State.ctxFree_fr {X : Nat} {s0 : State} {s : State} {a1 : ℕ} (h : Fr X s0 s) (hX : Sub 0x2c005870000240 X) :
    Fr X s0 (State.ctxFree s a1) := by
  unfold State.ctxFree
  repeat' first
    | with_reducible assumption
    | ((with_reducible apply hX.after); exact rfl)
    | with_reducible apply State.setCtxCache_fr
    | with_reducible apply State.ctxStop_fr
    | (with_reducible apply Fr.swc_; (on_goal 1 => (first | with_reducible assumption | with_reducible apply State.onTpt_fr | with_reducible apply State.setCtxCache_fr | with_reducible apply State.ctxStop_fr | with_reducible refine Fr.of_snd (by assumption) ?_)))
    | split
    | ((with_reducible apply hX.bit); exact rfl)

theorem State.ctxFail_fr {X : Nat} {s0 : State} {s : State} {a1 : ℕ} {a2 : ℕ} (h : Fr X s0 s) (hX : Sub 0x2c004870000240 X) :
    Fr X s0 (State.ctxFail s a1 a2) := by
  unfold State.ctxFail
  repeat' first
    | with_reducible assumption
    | ((with_reducible apply hX.after); exact rfl)
    | with_reducible apply State.raise_fr
    | with_reducible apply State.tptCount_fr
    | with_reducible apply State.setCtx_fr
    | with_reducible apply State.ctxStop_fr
    | (extract_lets +onlyGivenNames x; (refine Fr.cut (X := X) (s0 := s0) (s := x) ?_ (fun hx => ?_); (on_goal 2 => clear_value x); (on_goal 1 => (unfold x; clear x))))
    | split

theorem State.sendAck_fr {X : Nat} {s0 : State} {s : State} {a1 : ℕ} (h : Fr X s0 s) (hX : Sub 0x2c0058700000c0 X) :
    Fr X s0 (State.sendAck s a1) := by
  unfold State.sendAck
  repeat' first
    | with_reducible assumption
    | ((with_reducible apply hX.after); exact rfl)
    | with_reducible apply State.sendOut_fr
    | with_reducible apply State.setCtx_fr
    | split

theorem State.sendCtrl_fr {X : Nat} {s0 : State} {s : State} {a1 : ℕ} {a2 : Bytes} (h : Fr X s0 s) (hX : Sub 0x2c0058700000c0 X) :
    Fr X s0 (State.sendCtrl s a1 a2) := by
  unfold State.sendCtrl
  repeat' first
    | with_reducible assumption
    | with_reducible apply State.sendOut_fr
    | split

theorem State.queueData_fr {X : Nat} {s0 : State} {s : State} {a1 : ℕ} {a2 : SendItem} (h : Fr X s0 s) (hX : Sub 0x2c004870000040 X) :
    Fr X s0 (State.queueData s a1 a2) := by
  unfold State.queueData
  repeat' first
    | with_reducible assumption
    | ((with_reducible apply hX.after); exact rfl)
    | with_reducible apply State.settFrees_fr
    | with_reducible apply State.setCtx_fr
    | split

theorem State.shareOrCopy_fr {X : Nat} {s0 : State} {s : State} {a1 : List ℕ} {a2 : Bytes} (h : Fr X s0 s) (hX : Sub 0x2c000870000040 X) :
    Fr X s0 (State.shareOrCopy s a1 a2).2 := by
  unfold State.shareOrCopy
  repeat' first
    | with_reducible assumption
    | ((with_reducible apply hX.after); exact rfl)
    | with_reducible refine State.settShare_fr ?_ ?_ (by assumption)
    | with_reducible apply State.settStore_fr
    | split

theorem State.departHeld_fr {X : Nat} {s0 : State} {s : State} {a1 : ℕ} {a2 : List ℕ} {a3 : Bytes} {a4 : Waiting} {a5 : State → State} (h : Fr X s0 s) (hf0 : ∀ x0, Fr X s0 x0 → Fr X s0 (a5 x0)) (hX : Sub 0x2c0058700000c0 X) :
    Fr X s0 (State.departHeld s a1 a2 a3 a4 a5) := by
  unfold State.departHeld
  repeat' first
    | with_reducible assumption
    | ((with_reducible apply hX.after); exact rfl)
    | with_reducible apply hf0
    | with_reducible apply State.shareOrCopy_fr
    | with_reducible apply State.routeOut_fr
    | with_reducible apply State.park_fr
    | with_reducible refine Fr.of_snd (by assumption) ?_
    | (extract_lets +onlyGivenNames x; clear_value x)
    | split

theorem State.transportSend_fr {X : Nat} {s0 : State} {s : State} {a1 : ℕ} (h : Fr X s0 s) (hX : Sub 0x2c0058700000c0 X) :
    Fr X s0 (State.transportSend s a1) := by
  unfold State.transportSend
  repeat' first
    | with_reducible assumption
    | ((with_reducible apply hX.after); exact rfl)
    | with_reducible apply State.settStore_fr
    | with_reducible apply State.park_fr
    | with_reducible apply State.departHeld_fr
    | with_reducible apply State.ctxTouch_fr
    | with_reducible apply State.setCtx_fr
    | with_reducible refine Fr.of_snd (by assumption) ?_
    | (intro x)
    | (extract_lets +onlyGivenNames x; clear_value x)
    | split

theorem State.resendHeld_fr {X : Nat} {s0 : State} {s : State} {a1 : ℕ} {a2 : ℕ} (h : Fr X s0 s) (hX : Sub 0x2c0058700000c0 X) :
    Fr X s0 (State.resendHeld s a1 a2) := by
  unfold State.resendHeld
  repeat' first
    | with_reducible assumption
    | with_reducible apply State.departHeld_fr
    | (intro x)
    | split
    | assumption

theorem State.resend_fr {X : Nat} {s0 : State} {s : State} {a1 : ℕ} {a2 : ℕ} (h : Fr X s0 s) (hX : Sub 0x2c0058700002c0 X) :
    Fr X s0 (State.resend s a1 a2) := by
  unfold State.resend
  repeat' first
    | with_reducible assumption
    | ((with_reducible apply hX.after); exact rfl)
    | with_reducible apply State.departHeld_fr
    | with_reducible apply State.tptCount_fr
    | with_reducible apply State.setCtx_fr
    | (intro x)
    | (extract_lets +onlyGivenNames x; (refine Fr.cut (X := X) (s0 := s0) (s := x) ?_ (fun hx => ?_); (on_goal 2 => clear_value x); (on_goal 1 => (unfold x; clear x))))
    | split
    | assumption

theorem State.onAck_fr {X : Nat} {s0 : State} {s : State} {a1 : ℕ} {a2 : ℕ} {a3 : Bytes} (h : Fr X s0 s) (hX : Sub 0x2c004870000040 X) :
    Fr X s0 (State.onAck s a1 a2 a3) := by
  unfold State.onAck
  repeat' first
    | with_reducible assumption
    | ((with_reducible apply hX.after); exact rfl)
    | with_reducible apply State.setCtx_fr
    | with_reducible apply State.settFrees_fr
    | (extract_lets +onlyGivenNames x; clear_value x)
    | split

theorem State.fastResend_fr {X : Nat} {s0 : State} {s : State} {a1 : ℕ} (h : Fr X s0 s) (hX : Sub 0x2c0058700002c0 X) :
    Fr X s0 (State.fastResend s a1) := by
  unfold State.fastResend
  repeat' first
    | with_reducible assumption
    | with_reducible apply State.resend_fr
    | with_reducible apply Fr.foldl
    | (intro x)
    | split

theorem State.rtoExpire_fr {X : Nat} {s0 : State} {s : State} {a1 : ℕ} (h : Fr X s0 s) (hX : Sub 0x2c0058700002c0 X) :
    Fr X s0 (State.rtoExpire s a1) := by
  unfold State.rtoExpire
  repeat' first
    | with_reducible assumption
    | ((with_reducible apply hX.after); exact rfl)
    | with_reducible apply State.ctxFail_fr
    | with_reducible apply State.resend_fr
    | with_reducible apply State.tptCount_fr
    | with_reducible apply State.setCtx_fr
    | (extract_lets +onlyGivenNames x; (refine Fr.cut (X := X) (s0 := s0) (s := x) ?_ (fun hx => ?_); (on_goal 2 => clear_value x); (on_goal 1 => (unfold x; clear x))))
    | split

theorem State.notYet_fr {X : Nat} {s0 : State} {s : State} {a1 : ℕ} {a2 : ℕ} (h : Fr X s0 s) (hX : Sub 0x4000000000 X) :
    Fr X s0 (State.notYet s a1 a2) := by
  unfold State.notYet
  repeat' first
    | with_reducible assumption
    | with_reducible apply State.setCtx_fr
    | split

theorem State.rxOpen_fr {X : Nat} {s0 : State} {s : State} {a1 : ℕ} {a2 : Bytes} {a3 : List ℕ} {a4 : State → State} (h : Fr X s0 s) (hf0 : ∀ x0, Fr X s0 x0 → Fr X s0 (a4 x0)) (hX : Sub 0x2c004870000240 X) :
    Fr X s0 (State.rxOpen s a1 a2 a3 a4) := by
  unfold State.rxOpen
  repeat' first
    | with_reducible assumption
    | ((with_reducible apply hX.after); exact rfl)
    | with_reducible apply hf0
    | with_reducible apply State.tptCount_fr
    | with_reducible apply State.settFrees_fr
    | with_reducible apply State.ctxTouch_fr
    | with_reducible apply State.setCtx_fr
    | (extract_lets +onlyGivenNames x; clear_value x)
    | split

theorem State.rxDatagram_fr {X : Nat} {s0 : State} {s : State} {a1 : ℕ} {a2 : Bytes} {a3 : Bytes → Bool} {a4 : ℕ → Bytes → List ℕ → State → State} (h : Fr X s0 s) (hf0 : ∀ x0 x1 x2 x3, Fr X s0 x3 → Fr X s0 (a4 x0 x1 x2 x3)) (hX : Sub 0x2c004870000240 X) :
    Fr X s0 (State.rxDatagram s a1 a2 a3 a4) := by
  unfold State.rxDatagram
  repeat' first
    | with_reducible assumption
    | ((with_reducible apply hX.after); exact rfl)
    | with_reducible apply hf0
    | with_reducible apply State.settStore_fr
    | with_reducible apply State.tptCount_fr
    | with_reducible apply State.settFrees_fr
    | with_reducible apply State.rxOpen_fr
    | with_reducible apply State.onTpt_fr
    | with_reducible refine Fr.of_snd (by assumption) ?_
    | (extract_lets +onlyGivenNames x; clear_value x)
    | split

theorem State.setShard_fr {X : Nat} {s0 : State} {s : State} {a1 : ℕ} {a2 : OutShard} (h : Fr X s0 s) (hX : Sub 0x400000000000 X) :
    Fr X s0 (State.setShard s a1 a2) := by
  unfold State.setShard
  exact Fr.outer_ h (hX.bit rfl)

theorem State.chunkExpanded_fr {X : Nat} {s0 : State} {s : State} {a1 : ℕ} {a2 : ℕ} (h : Fr X s0 s) (hX : Sub 0x4000 X) :
    Fr X s0 (State.chunkExpanded s a1 a2) := by
  unfold State.chunkExpanded
  repeat' first
    | with_reducible assumption
    | with_reducible apply State.bump_fr
    | with_reducible apply Fr.foldl
    | (intro x)
    | ((with_reducible apply hX.ok); exact rfl)

theorem State.onCol_fr {X : Nat} {s0 : State} {s : State} {a1 : ColState → ColState} (h : Fr X s0 s) (hX : Sub 0x8000000000 X) :
    Fr X s0 (State.onCol s a1) := by
  unfold State.onCol
  exact Fr.col_ h (hX.bit rfl)

theorem State.setCollOp_fr {X : Nat} {s0 : State} {s : State} {a1 : CollOp} (h : Fr X s0 s) (hX : Sub 0x8000000000 X) :
    Fr X s0 (State.setCollOp s a1) := by
  unfold State.setCollOp
  repeat' first
    | with_reducible assumption
    | with_reducible apply State.onCol_fr

theorem State.setGrpState_fr {X : Nat} {s0 : State} {s : State} {a1 : ℕ} {a2 : GroupState} (h : Fr X s0 s) (hX : Sub 0x8000000000 X) :
    Fr X s0 (State.setGrpState s a1 a2) := by
  unfold State.setGrpState
  repeat' first
    | with_reducible assumption
    | with_reducible apply State.onCol_fr

theorem State.markDone_fr {X : Nat} {s0 : State} {s : State} {a1 : ℕ} {a2 : ℕ} {a3 : PastOp} (h : Fr X s0 s) (hX : Sub 0x8000000000 X) :
    Fr X s0 (State.markDone s a1 a2 a3) := by
  unfold State.markDone
  repeat' first
    | with_reducible assumption
    | with_reducible apply State.setGrpState_fr

theorem State.colCount_fr {X : Nat} {s0 : State} {s : State} {a1 : ℕ} (h : Fr X s0 s) (hX : Sub 0x800 X) :
    Fr X s0 (State.colCount s a1) := by
  unfold State.colCount
  repeat' first
    | with_reducible assumption
    | with_reducible apply State.bump_fr
    | ((with_reducible apply hX.ok); exact rfl)

theorem State.numCount_fr {X : Nat} {s0 : State} {s : State} {a1 : ℕ} {a2 : ℕ} {a3 : ℕ} (h : Fr X s0 s) (hX : Sub 0x400 X) :
    Fr X s0 (State.numCount s a1 a2 a3) := by
  unfold State.numCount
  repeat' first
    | with_reducible assumption
    | with_reducible apply State.bump_fr
    | ((with_reducible apply hX.ok); exact rfl)

theorem State.collMulticast_fr {X : Nat} {s0 : State} {s : State} {a1 : ℕ} {a2 : ℕ} {a3 : Bytes} {a4 : optParam (Option (List ℕ)) none} (h : Fr X s0 s) (hX : Sub 0x2c0058700000c0 X) :
    Fr X s0 (State.collMulticast s a1 a2 a3 a4) := by
  unfold State.collMulticast
  repeat' first
    | with_reducible assumption
    | ((with_reducible apply hX.after); exact rfl)
    | with_reducible apply State.launch_fr
    | with_reducible apply State.sendOut_fr
    | (extract_lets +onlyGivenNames x; clear_value x)
    | split

theorem State.sendResult_fr {X : Nat} {s0 : State} {s : State} {a1 : ℕ} {a2 : ℕ} {a3 : ℕ} {a4 : ℕ} {a5 : Bytes} {a6 : optParam (Option (List ℕ)) none} (h : Fr X s0 s) (hX : Sub 0x2c0058700000c0 X) :
    Fr X s0 (State.sendResult s a1 a2 a3 a4 a5 a6) := by
  unfold State.sendResult
  repeat' first
    | with_reducible assumption
    | with_reducible apply State.collMulticast_fr

theorem State.sendChunkDone_fr {X : Nat} {s0 : State} {s : State} {a1 : ℕ} {a2 : ℕ} {a3 : ℕ} (h : Fr X s0 s) (hX : Sub 0x2c0058700000c0 X) :
    Fr X s0 (State.sendChunkDone s a1 a2 a3) := by
  unfold State.sendChunkDone
  repeat' first
    | with_reducible assumption
    | with_reducible apply State.collMulticast_fr

theorem State.noteLateness_fr {X : Nat} {s0 : State} {s : State} {a1 : ℕ} {a2 : List (ℕ × ℕ)} (h : Fr X s0 s) (hX : Sub 0x8000000000 X) :
    Fr X s0 (State.noteLateness s a1 a2) := by
  unfold State.noteLateness
  repeat' first
    | with_reducible assumption
    | with_reducible apply State.onCol_fr
    | with_reducible apply Fr.foldl
    | (intro x)

theorem State.dropHeld_fr {X : Nat} {s0 : State} {s : State} {a1 : ℕ} {a2 : ℕ} (h : Fr X s0 s) (hX : Sub 0x2c008870000040 X) :
    Fr X s0 (State.dropHeld s a1 a2) := by
  unfold State.dropHeld
  repeat' first
    | with_reducible assumption
    | ((with_reducible apply hX.after); exact rfl)
    | with_reducible apply State.onCol_fr
    | with_reducible apply State.settFrees_fr

theorem State.unpin_fr {X : Nat} {s0 : State} {s : State} {a1 : List ℕ} (h : Fr X s0 s) (hX : Sub 0x4000000000 X) :
    Fr X s0 (State.unpin s a1) := by
  unfold State.unpin
  repeat' first
    | with_reducible assumption
    | with_reducible apply State.setCtx_fr
    | with_reducible apply Fr.foldl
    | (intro x)
    | split

theorem State.restOver_fr {X : Nat} {s0 : State} {s : State} {a1 : ℕ × ℕ} (h : Fr X s0 s) (hX : Sub 0xc000000000 X) :
    Fr X s0 (State.restOver s a1) := by
  unfold State.restOver
  repeat' first
    | with_reducible assumption
    | ((with_reducible apply hX.after); exact rfl)
    | with_reducible apply State.onCol_fr
    | with_reducible apply State.unpin_fr
    | with_reducible apply Fr.foldl
    | (intro x)

theorem State.collClose_fr {X : Nat} {s0 : State} {s : State} {a1 : CollOp} {a2 : ℕ} (h : Fr X s0 s) (hX : Sub 0x2c00c870000040 X) :
    Fr X s0 (State.collClose s a1 a2) := by
  unfold State.collClose
  repeat' first
    | with_reducible assumption
    | ((with_reducible apply hX.after); exact rfl)
    | with_reducible apply State.markDone_fr
    | with_reducible apply State.onCol_fr
    | with_reducible apply State.restOver_fr
    | with_reducible apply State.dropHeld_fr
    | with_reducible apply State.raise_fr
    | with_reducible apply State.endOp_fr
    | (extract_lets +onlyGivenNames x; (refine Fr.cut (X := X) (s0 := s0) (s := x) ?_ (fun hx => ?_); (on_goal 2 => clear_value x); (on_goal 1 => (unfold x; clear x))))
    | split

theorem State.sendData_fr {X : Nat} {s0 : State} {s : State} {a1 : ℕ} {a2 : ℕ} {a3 : ℕ} {a4 : ℕ} {a5 : ℕ} {a6 : ℕ} {a7 : ℕ} {a8 : ℕ} {a9 : Bytes} {a10 : List ℕ} (h : Fr X s0 s) (hX : Sub 0x2c004870000040 X) :
    Fr X s0 (State.sendData s a1 a2 a3 a4 a5 a6 a7 a8 a9 a10) := by
  unfold State.sendData
  repeat' first
    | with_reducible assumption
    | with_reducible apply State.queueData_fr

theorem State.writeLog_fr {X : Nat} {s0 : State} {s : State} {a1 : CollOp} {a2 : ℕ} {a3 : Bytes} (h : Fr X s0 s) (hX : Sub 0x3c00c970000040 X) :
    Fr X s0 (State.writeLog s a1 a2 a3) := by
  unfold State.writeLog
  repeat' first
    | with_reducible assumption
    | ((with_reducible apply hX.after); exact rfl)
    | with_reducible apply State.dvaWrite_fr
    | with_reducible apply State.mmuFault_fr
    | with_reducible apply State.setCollOp_fr
    | with_reducible apply State.collClose_fr
    | (extract_lets +onlyGivenNames x; first
        | (refine Fr.cut (X := X) (s0 := s0) (s := x) ?_ (fun hx => ?_); (on_goal 2 => clear_value x); (on_goal 1 => (unfold x; clear x)))
        | clear_value x)
    | split

theorem State.chunkDone_fr {X : Nat} {s0 : State} {s : State} {a1 : CollOp} {a2 : ℕ} (h : Fr X s0 s) (hX : Sub 0x8040000000 X) :
    Fr X s0 (State.chunkDone s a1 a2) := by
  unfold State.chunkDone
  repeat' first
    | with_reducible assumption
    | ((with_reducible apply hX.after); exact rfl)
    | with_reducible apply State.setRing_fr
    | with_reducible apply State.setCollOp_fr
    | (extract_lets +onlyGivenNames x; first
        | (refine Fr.cut (X := X) (s0 := s0) (s := x) ?_ (fun hx => ?_); (on_goal 2 => clear_value x); (on_goal 1 => (unfold x; clear x)))
        | clear_value x)
    | split

theorem State.countResults_fr {X : Nat} {s0 : State} {s : State} {a1 : ℕ} {a2 : List NumCount} (h : Fr X s0 s) (hX : Sub 0x400 X) :
    Fr X s0 (State.countResults s a1 a2) := by
  unfold State.countResults
  repeat' first
    | with_reducible assumption
    | with_reducible apply State.numCount_fr

theorem State.outputSetts_fr {X : Nat} {s0 : State} {s : State} {a1 : CollOp} {a2 : Bytes} {a3 : ℕ} {a4 : Bytes} (h : Fr X s0 s) (hX : Sub 0x2c000870000040 X) :
    Fr X s0 (State.outputSetts s a1 a2 a3 a4).2 := by
  unfold State.outputSetts
  repeat' first
    | with_reducible assumption
    | with_reducible apply State.settAllocN_fr
    | split

theorem State.chunkOutputs_fr {X : Nat} {s0 : State} {s : State} {a1 : CollOp} {a2 : Bytes} {a3 : Bay} {a4 : Bytes} {a5 : List ℕ} (h : Fr X s0 s) (hX : Sub 0x3c00d9700004c0 X) :
    Fr X s0 (State.chunkOutputs s a1 a2 a3 a4 a5) := by
  unfold State.chunkOutputs
  repeat' first
    | with_reducible assumption
    | ((with_reducible apply hX.after); exact rfl)
    | with_reducible apply State.chunkDone_fr
    | with_reducible apply State.writeLog_fr
    | with_reducible apply State.sendResult_fr
    | with_reducible apply State.sendChunkDone_fr
    | with_reducible apply State.sendData_fr
    | with_reducible apply State.countResults_fr
    | with_reducible apply State.setCollOp_fr
    | (extract_lets +onlyGivenNames x; first
        | (refine Fr.cut (X := X) (s0 := s0) (s := x) ?_ (fun hx => ?_); (on_goal 2 => clear_value x); (on_goal 1 => (unfold x; clear x)))
        | clear_value x)
    | split

theorem State.addContrib_fr {X : Nat} {s0 : State} {s : State} {a1 : CollOp} {a2 : Bytes} {a3 : Bay} {a4 : Contrib} (h : Fr X s0 s) (hX : Sub 0x2c00c870000c40 X) :
    Fr X s0 (State.addContrib s a1 a2 a3 a4) := by
  unfold State.addContrib
  repeat' first
    | with_reducible assumption
    | ((with_reducible apply hX.after); exact rfl)
    | with_reducible apply State.settFrees_fr
    | with_reducible apply State.setCollOp_fr
    | with_reducible apply State.numCount_fr
    | with_reducible apply State.colCount_fr
    | with_reducible apply State.sendData_fr
    | with_reducible apply Fr.foldl
    | (intro x)
    | split
    | dsimp only

theorem State.emitChunk_fr {X : Nat} {s0 : State} {s : State} {a1 : ℕ} {a2 : ℕ} {a3 : ℕ} {a4 : Bytes} (h : Fr X s0 s) (hX : Sub 0x3c00d9700004c0 X) :
    Fr X s0 (State.emitChunk s a1 a2 a3 a4) := by
  unfold State.emitChunk
  repeat' first
    | with_reducible assumption
    | ((with_reducible apply hX.after); exact rfl)
    | with_reducible apply State.outputSetts_fr
    | with_reducible apply State.park_fr
    | with_reducible apply State.chunkOutputs_fr
    | with_reducible apply State.setCollOp_fr
    | with_reducible refine Fr.of_snd (by assumption) ?_
    | (extract_lets +onlyGivenNames x; clear_value x)
    | split

theorem State.finishChunk_fr {X : Nat} {s0 : State} {s : State} {a1 : ℕ} {a2 : ℕ} {a3 : ℕ} {a4 : Bytes} (h : Fr X s0 s) (hX : Sub 0x3c00d9700004c0 X) :
    Fr X s0 (State.finishChunk s a1 a2 a3 a4) := by
  unfold State.finishChunk
  repeat' first
    | with_reducible assumption
    | ((with_reducible apply hX.after); exact rfl)
    | with_reducible apply State.emitChunk_fr
    | with_reducible apply State.noteLateness_fr
    | with_reducible apply State.setCollOp_fr
    | split

theorem State.settle_fr {X : Nat} {s0 : State} {s : State} {a1 : Contrib} (h : Fr X s0 s) (hX : Sub 0x3c00d970000cc0 X) :
    Fr X s0 (State.settle s a1).2 := by
  unfold State.settle
  repeat' first
    | with_reducible assumption
    | ((with_reducible apply hX.after); exact rfl)
    | with_reducible apply State.colCount_fr
    | with_reducible apply State.settFrees_fr
    | with_reducible apply State.addContrib_fr
    | with_reducible apply State.finishChunk_fr
    | (intro x)
    | (extract_lets +onlyGivenNames x; first
        | (refine Fr.cut (X := X) (s0 := s0) (s := x) ?_ (fun hx => ?_); (on_goal 2 => clear_value x); (on_goal 1 => (unfold x; clear x)))
        | (refine Fr.cut_fn (X := X) (s0 := s0) (f := x) ?_ (fun hx => ?_); (on_goal 2 => clear_value x); (on_goal 1 => (unfold x; clear x)))
        | clear_value x)
    | split
    | with_reducible apply_assumption -exfalso -symm

theorem State.settlePass_fr {X : Nat} {s0 : State} {s : State} (h : Fr X s0 s) (hX : Sub 0x3c00d970000cc0 X) :
    Fr X s0 (State.settlePass s) := by
  unfold State.settlePass
  repeat' first
    | with_reducible assumption
    | ((with_reducible apply hX.after); exact rfl)
    | with_reducible apply State.settle_fr
    | with_reducible apply State.onCol_fr
    | with_reducible apply Fr.foldl
    | with_reducible refine Fr.of_snd (by assumption) ?_
    | (intro x)
    | split

theorem State.settleHeld_fr {X : Nat} {s0 : State} {a0 : ℕ} {s : State} (h : Fr X s0 s) (hX : Sub 0x3c00d970000cc0 X) :
    Fr X s0 (State.settleHeld a0 s) := by
  revert h
  fun_induction State.settleHeld a0 s
  all_goals intro h
  all_goals repeat' first
    | with_reducible assumption
    | ((with_reducible apply hX.after); exact rfl)
    | with_reducible apply State.settlePass_fr
    | (extract_lets +onlyGivenNames x; first
        | (refine Fr.cut (X := X) (s0 := s0) (s := x) ?_ (fun hx => ?_); (on_goal 2 => clear_value x); (on_goal 1 => (unfold x; clear x)))
        | clear_value x)
    | split
    | dsimp only
    | with_reducible apply_assumption -exfalso -symm

theorem State.openBay_fr {X : Nat} {s0 : State} {s : State} {a1 : CollOp} {a2 : ℕ} (h : Fr X s0 s) (hX : Sub 0x8000000000 X) :
    Fr X s0 (State.openBay s a1 a2) := by
  unfold State.openBay
  repeat' first
    | with_reducible assumption
    | with_reducible apply State.setCollOp_fr

theorem State.openDie_fr {X : Nat} {s0 : State} {a0 : ℕ} {a1 : ℕ} {a2 : ℕ} {a3 : ℕ} {s : State} (h : Fr X s0 s) (hX : Sub 0x8000000000 X) :
    Fr X s0 (State.openDie a0 a1 a2 a3 s) := by
  revert h
  fun_induction State.openDie a0 a1 a2 a3 s
  all_goals intro h
  all_goals repeat' first
    | with_reducible assumption
    | ((with_reducible apply hX.after); exact rfl)
    | with_reducible apply State.openBay_fr
    | with_reducible refine Fr.of_snd (by assumption) ?_
    | with_reducible refine Fr.of_fst (by assumption) ?_
    | (extract_lets +onlyGivenNames x; first
        | (refine Fr.cut (X := X) (s0 := s0) (s := x) ?_ (fun hx => ?_); (on_goal 2 => clear_value x); (on_goal 1 => (unfold x; clear x)))
        | clear_value x)
    | split
    | ((with_reducible apply hX.ok); exact rfl)
    | ((with_reducible apply hX.bit); exact rfl)
    | dsimp only
    | with_reducible apply_assumption -exfalso -symm

theorem State.openPlanned_fr {X : Nat} {s0 : State} {s : State} (h : Fr X s0 s) (hX : Sub 0x8000000000 X) :
    Fr X s0 (State.openPlanned s) := by
  unfold State.openPlanned
  repeat' first
    | with_reducible assumption
    | with_reducible apply State.openBay_fr
    | with_reducible apply State.onCol_fr
    | with_reducible apply Fr.foldl
    | (intro x)
    | split

theorem State.admitOp_fr {X : Nat} {s0 : State} {s : State} {a1 : CollOp} {a2 : ℕ} (h : Fr X s0 s) (hX : Sub 0x8000000000 X) :
    Fr X s0 (State.admitOp s a1 a2) := by
  unfold State.admitOp
  repeat' first
    | with_reducible assumption
    | with_reducible apply State.openDie_fr
    | with_reducible apply State.setCollOp_fr
    | (extract_lets +onlyGivenNames x; first
        | (refine Fr.cut (X := X) (s0 := s0) (s := x) ?_ (fun hx => ?_); (on_goal 2 => clear_value x); (on_goal 1 => (unfold x; clear x)))
        | clear_value x)
    | split

theorem State.spillOp_fr {X : Nat} {s0 : State} {s : State} {a1 : CollOp} (h : Fr X s0 s) (hX : Sub 0x8000000000 X) :
    Fr X s0 (State.spillOp s a1) := by
  unfold State.spillOp
  repeat' first
    | with_reducible assumption
    | with_reducible apply State.setCollOp_fr

theorem State.admitLoop_fr {X : Nat} {s0 : State} {a0 : ℕ} {s : State} (h : Fr X s0 s) (hX : Sub 0x8000000000 X) :
    Fr X s0 (State.admitLoop a0 s) := by
  revert h
  fun_induction State.admitLoop a0 s
  all_goals intro h
  all_goals repeat' first
    | with_reducible assumption
    | ((with_reducible apply hX.after); exact rfl)
    | with_reducible apply State.admitOp_fr
    | with_reducible apply State.spillOp_fr
    | with_reducible refine Fr.of_snd (by assumption) ?_
    | with_reducible refine Fr.of_fst (by assumption) ?_
    | (intro x)
    | (extract_lets +onlyGivenNames x; first
        | (refine Fr.cut (X := X) (s0 := s0) (s := x) ?_ (fun hx => ?_); (on_goal 2 => clear_value x); (on_goal 1 => (unfold x; clear x)))
        | clear_value x)
    | split
    | ((with_reducible apply hX.ok); exact rfl)
    | ((with_reducible apply hX.bit); exact rfl)
    | (with_reducible apply Sub.key)
    | dsimp only
    | with_reducible apply_assumption -exfalso -symm

theorem State.collPump1_fr {X : Nat} {s0 : State} {s : State} (h : Fr X s0 s) (hX : Sub 0x3c00d970000cc0 X) :
    Fr X s0 (State.collPump1 s) := by
  unfold State.collPump1
  repeat' first
    | with_reducible assumption
    | ((with_reducible apply hX.after); exact rfl)
    | with_reducible apply State.settleHeld_fr
    | with_reducible apply State.admitLoop_fr
    | with_reducible apply State.openPlanned_fr
    | with_reducible apply State.openDie_fr
    | with_reducible apply Fr.foldl
    | (intro x)

theorem State.collSweep_fr {X : Nat} {s0 : State} {s : State} (h : Fr X s0 s) (hX : Sub 0x2c00c870000040 X) :
    Fr X s0 (State.collSweep s) := by
  unfold State.collSweep
  repeat' first
    | with_reducible assumption
    | with_reducible apply State.collClose_fr
    | with_reducible apply Fr.foldl
    | (intro x)
    | split

theorem State.collPump_fr {X : Nat} {s0 : State} {a0 : ℕ} {s : State} (h : Fr X s0 s) (hX : Sub 0x3c00d970000cc0 X) :
    Fr X s0 (State.collPump a0 s) := by
  revert h
  fun_induction State.collPump a0 s
  all_goals intro h
  all_goals repeat' first
    | with_reducible assumption
    | ((with_reducible apply hX.after); exact rfl)
    | with_reducible apply State.collSweep_fr
    | with_reducible apply State.collPump1_fr
    | (extract_lets +onlyGivenNames x; first
        | (refine Fr.cut (X := X) (s0 := s0) (s := x) ?_ (fun hx => ?_); (on_goal 2 => clear_value x); (on_goal 1 => (unfold x; clear x)))
        | clear_value x)
    | split
    | dsimp only
    | with_reducible apply_assumption -exfalso -symm

theorem State.collSettle_fr {X : Nat} {s0 : State} {s : State} (h : Fr X s0 s) (hX : Sub 0x3c00d970000cc0 X) :
    Fr X s0 (State.collSettle s) := by
  unfold State.collSettle
  repeat' first
    | with_reducible assumption
    | with_reducible apply State.collPump_fr

theorem State.collEnd_fr {X : Nat} {s0 : State} {s : State} {a1 : CollOp} {a2 : ℕ} (h : Fr X s0 s) (hX : Sub 0x3c00d970000cc0 X) :
    Fr X s0 (State.collEnd s a1 a2) := by
  unfold State.collEnd
  repeat' first
    | with_reducible assumption
    | ((with_reducible apply hX.after); exact rfl)
    | with_reducible apply State.collSettle_fr
    | with_reducible apply State.collClose_fr
    | with_reducible apply State.setCollOp_fr
    | split

theorem State.collCtxFailed_fr {X : Nat} {s0 : State} {s : State} {a1 : ℕ} (h : Fr X s0 s) (hX : Sub 0x3c00d970000cc0 X) :
    Fr X s0 (State.collCtxFailed s a1) := by
  unfold State.collCtxFailed
  repeat' first
    | with_reducible assumption
    | with_reducible apply State.collEnd_fr
    | with_reducible apply Fr.foldl
    | (intro x)
    | split

theorem State.contribution_fr {X : Nat} {s0 : State} {s : State} {a1 : Contrib} (h : Fr X s0 s) (hX : Sub 0x3c00d970000cc0 X) :
    Fr X s0 (State.contribution s a1) := by
  unfold State.contribution
  repeat' first
    | with_reducible assumption
    | ((with_reducible apply hX.after); exact rfl)
    | with_reducible apply State.settle_fr
    | with_reducible apply State.collSettle_fr
    | with_reducible apply State.onCol_fr
    | with_reducible refine Fr.of_snd (by assumption) ?_
    | split

theorem State.placePiece_fr {X : Nat} {s0 : State} {s : State} {a1 : ℕ} {a2 : Bytes} {a3 : List ℕ} (h : Fr X s0 s) (hX : Sub 0x3c00d970000ec0 X) :
    Fr X s0 (State.placePiece s a1 a2 a3) := by
  unfold State.placePiece
  repeat' first
    | with_reducible assumption
    | ((with_reducible apply hX.after); exact rfl)
    | with_reducible apply State.settFrees_fr
    | with_reducible apply State.tptCount_fr
    | with_reducible apply State.contribution_fr
    | with_reducible apply State.setCtx_fr
    | (extract_lets +onlyGivenNames x; clear_value x)
    | split

theorem State.windowStall_fr {X : Nat} {s0 : State} {s : State} {a1 : ℕ} {a2 : ℕ} (h : Fr X s0 s) (hX : Sub 0x108000000000 X) :
    Fr X s0 (State.windowStall s a1 a2) := by
  unfold State.windowStall
  repeat' first
    | with_reducible assumption
    | ((with_reducible apply hX.after); exact rfl)
    | with_reducible apply State.onCol_fr
    | (with_reducible apply Fr.flt_; (on_goal 1 => (first | with_reducible assumption | with_reducible apply State.onCol_fr | with_reducible refine Fr.of_snd (by assumption) ?_)))
    | (extract_lets +onlyGivenNames x; first
        | (refine Fr.cut (X := X) (s0 := s0) (s := x) ?_ (fun hx => ?_); (on_goal 2 => clear_value x); (on_goal 1 => (unfold x; clear x)))
        | clear_value x)
    | split
    | ((with_reducible apply hX.bit); exact rfl)

theorem State.windowEnd_fr {X : Nat} {s0 : State} {s : State} {a1 : ℕ} (h : Fr X s0 s) (hX : Sub 0x8000000000 X) :
    Fr X s0 (State.windowEnd s a1) := by
  unfold State.windowEnd
  repeat' first
    | with_reducible assumption
    | with_reducible apply State.onCol_fr

theorem State.rxData_fr {X : Nat} {s0 : State} {s : State} {a1 : ℕ} {a2 : Bytes} {a3 : List ℕ} (h : Fr X s0 s) (hX : Sub 0x3c10d970000ec0 X) :
    Fr X s0 (State.rxData s a1 a2 a3) := by
  unfold State.rxData
  repeat' first
    | with_reducible assumption
    | ((with_reducible apply hX.after); exact rfl)
    | with_reducible apply State.onAck_fr
    | with_reducible apply State.settFrees_fr
    | with_reducible apply State.sendAck_fr
    | with_reducible apply State.tptCount_fr
    | with_reducible apply State.sendCtrl_fr
    | with_reducible apply State.windowStall_fr
    | with_reducible apply State.colCount_fr
    | with_reducible apply State.windowEnd_fr
    | with_reducible apply State.setCtx_fr
    | with_reducible apply State.placePiece_fr
    | (extract_lets +onlyGivenNames x; first
        | (refine Fr.cut (X := X) (s0 := s0) (s := x) ?_ (fun hx => ?_); (on_goal 2 => clear_value x); (on_goal 1 => (unfold x; clear x)))
        | clear_value x)
    | split

theorem State.rxAck_fr {X : Nat} {s0 : State} {s : State} {a1 : ℕ} {a2 : Bytes} {a3 : List ℕ} (h : Fr X s0 s) (hX : Sub 0x3c00d970000ec0 X) :
    Fr X s0 (State.rxAck s a1 a2 a3) := by
  unfold State.rxAck
  repeat' first
    | with_reducible assumption
    | ((with_reducible apply hX.after); exact rfl)
    | with_reducible apply State.collSettle_fr
    | with_reducible apply State.fastResend_fr
    | with_reducible apply State.onAck_fr
    | with_reducible apply State.settFrees_fr

theorem State.answerQuery_fr {X : Nat} {s0 : State} {s : State} {a1 : ℕ} {a2 : ℕ} {a3 : ℕ} {a4 : ℕ} {a5 : PastOp} (h : Fr X s0 s) (hX : Sub 0x2c0059700008c0 X) :
    Fr X s0 (State.answerQuery s a1 a2 a3 a4 a5) := by
  unfold State.answerQuery
  repeat' first
    | with_reducible assumption
    | ((with_reducible apply hX.after); exact rfl)
    | with_reducible apply State.sendCtrl_fr
    | with_reducible apply State.colCount_fr
    | with_reducible apply State.cacheRange_fr
    | (intro x)
    | (extract_lets +onlyGivenNames x; (refine Fr.cut_fn (X := X) (s0 := s0) (f := x) ?_ (fun hx => ?_); (on_goal 2 => clear_value x); (on_goal 1 => (unfold x; clear x))))
    | split
    | with_reducible apply_assumption -exfalso -symm

theorem State.rxQuery_fr {X : Nat} {s0 : State} {s : State} {a1 : ℕ} {a2 : ℕ} {a3 : ℕ} {a4 : ℕ} (h : Fr X s0 s) (hX : Sub 0x2c0059700048c0 X) :
    Fr X s0 (State.rxQuery s a1 a2 a3 a4) := by
  unfold State.rxQuery
  repeat' first
    | with_reducible assumption
    | ((with_reducible apply hX.after); exact rfl)
    | with_reducible apply State.sendCtrl_fr
    | with_reducible apply State.colCount_fr
    | with_reducible apply State.chunkExpanded_fr
    | with_reducible apply State.answerQuery_fr
    | split

theorem State.rxResult_fr {X : Nat} {s0 : State} {s : State} {a1 : Bytes} (h : Fr X s0 s) (hX : Sub 0x3c00d970000cc0 X) :
    Fr X s0 (State.rxResult s a1) := by
  unfold State.rxResult
  repeat' first
    | with_reducible assumption
    | ((with_reducible apply hX.after); exact rfl)
    | with_reducible apply State.collSettle_fr
    | with_reducible apply State.chunkDone_fr
    | with_reducible apply State.writeLog_fr
    | with_reducible apply State.sendResult_fr
    | (extract_lets +onlyGivenNames x; clear_value x)
    | split

theorem State.rxGone_fr {X : Nat} {s0 : State} {s : State} {a1 : ℕ} {a2 : Bytes} (h : Fr X s0 s) (hX : Sub 0x3c00d970000cc0 X) :
    Fr X s0 (State.rxGone s a1 a2) := by
  unfold State.rxGone
  repeat' first
    | with_reducible assumption
    | with_reducible apply State.collEnd_fr
    | split

theorem State.queryTimer_fr {X : Nat} {s0 : State} {s : State} {a1 : ℕ} {a2 : ℕ} {a3 : ℕ} (h : Fr X s0 s) (hX : Sub 0x3c00d970000cc0 X) :
    Fr X s0 (State.queryTimer s a1 a2 a3) := by
  unfold State.queryTimer
  repeat' first
    | with_reducible assumption
    | ((with_reducible apply hX.after); exact rfl)
    | with_reducible apply State.collEnd_fr
    | with_reducible apply State.sendCtrl_fr
    | with_reducible apply State.setCollOp_fr
    | split

theorem State.rxCtrl_fr {X : Nat} {s0 : State} {s : State} {a1 : ℕ} {a2 : Bytes} {a3 : List ℕ} (h : Fr X s0 s) (hX : Sub 0x3c00d970004ec0 X) :
    Fr X s0 (State.rxCtrl s a1 a2 a3) := by
  unfold State.rxCtrl
  repeat' first
    | with_reducible assumption
    | ((with_reducible apply hX.after); exact rfl)
    | with_reducible apply State.notYet_fr
    | with_reducible apply State.settFrees_fr
    | with_reducible apply State.rxResult_fr
    | with_reducible apply State.rxQuery_fr
    | with_reducible apply State.rxGone_fr
    | with_reducible apply State.tptCount_fr
    | (extract_lets +onlyGivenNames x; (refine Fr.cut (X := X) (s0 := s0) (s := x) ?_ (fun hx => ?_); (on_goal 2 => clear_value x); (on_goal 1 => (unfold x; clear x))))
    | split

theorem State.rxAny_fr {X : Nat} {s0 : State} {s : State} {a1 : ℕ} {a2 : Bytes} {a3 : List ℕ} (h : Fr X s0 s) (hX : Sub 0x3c10d970004ec0 X) :
    Fr X s0 (State.rxAny s a1 a2 a3) := by
  unfold State.rxAny
  repeat' first
    | with_reducible assumption
    | ((with_reducible apply hX.after); exact rfl)
    | with_reducible apply State.rxData_fr
    | with_reducible apply State.rxAck_fr
    | with_reducible apply State.rxCtrl_fr
    | split

theorem State.fetched_fr {X : Nat} {s0 : State} {s : State} {a1 : ℕ} (h : Fr X s0 s) (hX : Sub 0x3c10d970004ec0 X) :
    Fr X s0 (State.fetched s a1) := by
  unfold State.fetched
  repeat' first
    | with_reducible assumption
    | ((with_reducible apply hX.after); exact rfl)
    | with_reducible refine State.ctxCacheIn_fr ?_ ?_ (by assumption)
    | with_reducible apply State.rxOpen_fr
    | with_reducible apply State.rxAny_fr
    | with_reducible apply State.onTpt_fr
    | with_reducible apply Fr.foldl
    | (intro x)
    | split

theorem State.retryOne_fr {X : Nat} {s0 : State} {s : State} {a1 : Waiting} (h : Fr X s0 s) (hX : Sub 0x3c00d970000cc0 X) :
    Fr X s0 (State.retryOne s a1) := by
  unfold State.retryOne
  repeat' first
    | with_reducible assumption
    | ((with_reducible apply hX.after); exact rfl)
    | with_reducible apply State.sendOut_fr
    | with_reducible apply State.onTpt_fr
    | with_reducible apply State.transportSend_fr
    | with_reducible apply State.collSettle_fr
    | with_reducible apply State.emitChunk_fr
    | with_reducible apply State.resendHeld_fr
    | (extract_lets +onlyGivenNames x; (refine Fr.cut (X := X) (s0 := s0) (s := x) ?_ (fun hx => ?_); (on_goal 2 => clear_value x); (on_goal 1 => (unfold x; clear x))))
    | split

theorem State.retryFreed_fr {X : Nat} {s0 : State} {a0 : ℕ} {a1 : State} {s : State} (h : Fr X s0 s) (hX : Sub 0x3c00d970000cc0 X) :
    Fr X s0 (State.retryFreed a0 a1 s) := by
  revert h
  fun_induction State.retryFreed a0 a1 s
  all_goals intro h
  all_goals repeat' first
    | with_reducible assumption
    | ((with_reducible apply hX.after); exact rfl)
    | with_reducible apply State.retryOne_fr
    | with_reducible apply Fr.foldl
    | with_reducible apply Fr.foldl_fst
    | with_reducible apply Fr.foldl_snd
    | (intro x)
    | (extract_lets +onlyGivenNames x; first
        | (refine Fr.cut (X := X) (s0 := s0) (s := x) ?_ (fun hx => ?_); (on_goal 2 => clear_value x); (on_goal 1 => (unfold x; clear x)))
        | (refine Fr.cut_fn (X := X) (s0 := s0) (f := x) ?_ (fun hx => ?_); (on_goal 2 => clear_value x); (on_goal 1 => (unfold x; clear x)))
        | (refine Fr.cut_fn2 (X := X) (s0 := s0) (f := x) ?_ (fun hx => ?_); (on_goal 2 => clear_value x); (on_goal 1 => (unfold x; clear x)))
        | (refine Fr.cut_fn7 (X := X) (s0 := s0) (f := x) ?_ (fun hx => ?_); (on_goal 2 => clear_value x); (on_goal 1 => (unfold x; clear x)))
        | (refine Fr.cut_fn6 (X := X) (s0 := s0) (f := x) ?_ (fun hx => ?_); (on_goal 2 => clear_value x); (on_goal 1 => (unfold x; clear x)))
        | (refine Fr.cut_fn5 (X := X) (s0 := s0) (f := x) ?_ (fun hx => ?_); (on_goal 2 => clear_value x); (on_goal 1 => (unfold x; clear x)))
        | (refine Fr.cut_fn3 (X := X) (s0 := s0) (f := x) ?_ (fun hx => ?_); (on_goal 2 => clear_value x); (on_goal 1 => (unfold x; clear x)))
        | clear_value x)
    | split
    | with_reducible apply_assumption -exfalso -symm
    | dsimp only
    | with_reducible apply_assumption -exfalso -symm

theorem State.pooled_fr {X : Nat} {s0 : State} {s : State} {a1 : State → State} (h : Fr X s0 s) (hf0 : ∀ x0, Fr X s0 x0 → Fr X s0 (a1 x0)) (hX : Sub 0x3c00d970000cc0 X) :
    Fr X s0 (State.pooled s a1) := by
  unfold State.pooled
  repeat' first
    | with_reducible assumption
    | with_reducible apply hf0
    | with_reducible apply State.retryFreed_fr
    | (extract_lets +onlyGivenNames x; (refine Fr.cut (X := X) (s0 := s0) (s := x) ?_ (fun hx => ?_); (on_goal 2 => clear_value x); (on_goal 1 => (unfold x; clear x))))
    | split

theorem State.inPool_fr {X : Nat} {s0 : State} {s : State} {a1 : State → State} (h : Fr X s0 s) (hf0 : ∀ x0, Fr X s0 x0 → Fr X s0 (a1 x0)) (hX : Sub 0x3c00d970000cc0 X) :
    Fr X s0 (State.inPool s a1) := by
  unfold State.inPool
  repeat' first
    | with_reducible assumption
    | ((with_reducible apply hX.after); exact rfl)
    | with_reducible apply State.inCore_fr
    | with_reducible apply State.pooled_fr
    | (intro x)

end Sys2Proof.Machine
end

