-- ==== Sys2Proof/Laws/FrameOptical.lean ====
section
/-!
SUPPORT. Frames of the operations of Optical.lean, Collectives.lean, Ashlar.lean, Tensor.lean: one lemma each, by backward chaining (Frame.lean).
-/

namespace Sys2Proof.Machine

theorem State.setGrp_fr {X : Nat} {s0 : State} {s : State} {a1 : ℕ} {a2 : OptGroup} (h : Fr X s0 s) (hX : Sub 0x200000000000 X) :
    Fr X s0 (State.setGrp s a1 a2) := by
  unfold State.setGrp
  exact Fr.lanes_ h (hX.bit rfl)

theorem State.onGrp_fr {X : Nat} {s0 : State} {s : State} {a1 : ℕ} {a2 : OptGroup → OptGroup} (h : Fr X s0 s) (hX : Sub 0x200000000000 X) :
    Fr X s0 (State.onGrp s a1 a2) := by
  unfold State.onGrp
  repeat' first
    | with_reducible assumption
    | with_reducible apply State.setGrp_fr

theorem State.setOptDir_fr {X : Nat} {s0 : State} {s : State} {a1 : ℕ} {a2 : Bool} {a3 : OptDir} (h : Fr X s0 s) (hX : Sub 0x200000000000 X) :
    Fr X s0 (State.setOptDir s a1 a2 a3) := by
  unfold State.setOptDir
  repeat' first
    | with_reducible assumption
    | with_reducible apply State.onGrp_fr

theorem State.setOch_fr {X : Nat} {s0 : State} {s : State} {a1 : ℕ} {a2 : ℕ} {a3 : OptChan} (h : Fr X s0 s) (hX : Sub 0x200000000000 X) :
    Fr X s0 (State.setOch s a1 a2 a3) := by
  unfold State.setOch
  repeat' first
    | with_reducible assumption
    | with_reducible apply State.onGrp_fr

theorem State.setGroupSt_fr {X : Nat} {s0 : State} {s : State} {a1 : ℕ} {a2 : ℕ} (h : Fr X s0 s) (hX : Sub 0x10000 X) :
    Fr X s0 (State.setGroupSt s a1 a2) := by
  unfold State.setGroupSt
  repeat' first
    | with_reducible assumption
    | with_reducible apply State.setFld_fr
    | ((with_reducible apply hX.ok); exact rfl)

theorem State.setChanSt_fr {X : Nat} {s0 : State} {s : State} {a1 : ℕ} {a2 : ℕ} {a3 : ℕ} (h : Fr X s0 s) (hX : Sub 0x10000 X) :
    Fr X s0 (State.setChanSt s a1 a2 a3) := by
  unfold State.setChanSt
  repeat' first
    | with_reducible assumption
    | with_reducible apply State.setFld_fr
    | split
    | ((with_reducible apply hX.ok); exact rfl)

theorem State.showBinding_fr {X : Nat} {s0 : State} {s : State} {a1 : ℕ} (h : Fr X s0 s) (hX : Sub 0x10000 X) :
    Fr X s0 (State.showBinding s a1) := by
  unfold State.showBinding
  repeat' first
    | with_reducible assumption
    | with_reducible apply State.setFld_fr
    | with_reducible apply Fr.foldl
    | (intro x)
    | ((with_reducible apply hX.ok); exact rfl)

theorem State.laneDown_fr {X : Nat} {s0 : State} {s : State} {a1 : ℕ} {a2 : ℕ} (h : Fr X s0 s) (hX : Sub 0x2c303c704b00c0 X) :
    Fr X s0 (State.laneDown s a1 a2) := by
  unfold State.laneDown
  repeat' first
    | with_reducible assumption
    | ((with_reducible apply hX.after); exact rfl)
    | with_reducible apply State.linkDown_fr
    | with_reducible apply State.raise_fr
    | with_reducible apply State.onGrp_fr
    | with_reducible apply State.healthAdd_fr
    | (extract_lets +onlyGivenNames x; first
        | (refine Fr.cut (X := X) (s0 := s0) (s := x) ?_ (fun hx => ?_); (on_goal 2 => clear_value x); (on_goal 1 => (unfold x; clear x)))
        | clear_value x)
    | split

theorem State.laneBack_fr {X : Nat} {s0 : State} {s : State} {a1 : ℕ} {a2 : ℕ} (h : Fr X s0 s) (hX : Sub 0x200000000000 X) :
    Fr X s0 (State.laneBack s a1 a2) := by
  unfold State.laneBack
  repeat' first
    | with_reducible assumption
    | with_reducible apply State.onGrp_fr

theorem State.portsDown_fr {X : Nat} {s0 : State} {s : State} {a1 : ℕ} (h : Fr X s0 s) (hX : Sub 0x2c003c704b00c0 X) :
    Fr X s0 (State.portsDown s a1) := by
  unfold State.portsDown
  repeat' first
    | with_reducible assumption
    | with_reducible apply State.linkDown_fr
    | with_reducible apply Fr.foldl
    | (intro x)

theorem State.dropStreams_fr {X : Nat} {s0 : State} {s : State} {a1 : ℕ} (h : Fr X s0 s) (hX : Sub 0x200000000000 X) :
    Fr X s0 (State.dropStreams s a1) := by
  unfold State.dropStreams
  repeat' first
    | (with_reducible apply Fr.lanes_; (on_goal 1 => (first | with_reducible assumption | with_reducible refine Fr.of_snd (by assumption) ?_)))
    | ((with_reducible apply hX.bit); exact rfl)

theorem State.groupStop_fr {X : Nat} {s0 : State} {s : State} {a1 : ℕ} {a2 : ℕ} (h : Fr X s0 s) (hX : Sub 0x2c203c704b00c0 X) :
    Fr X s0 (State.groupStop s a1 a2) := by
  unfold State.groupStop
  repeat' first
    | with_reducible assumption
    | ((with_reducible apply hX.after); exact rfl)
    | with_reducible apply State.showBinding_fr
    | with_reducible apply State.dropStreams_fr
    | with_reducible apply State.onGrp_fr
    | with_reducible apply State.setFlag_fr
    | with_reducible apply State.setChanSt_fr
    | with_reducible apply State.setGroupSt_fr
    | with_reducible apply State.portsDown_fr
    | with_reducible apply Fr.foldl
    | (intro x)
    | ((with_reducible apply hX.ok); exact rfl)

theorem State.groupAcquire_fr {X : Nat} {s0 : State} {s : State} {a1 : ℕ} (h : Fr X s0 s) (hX : Sub 0x2c203c704b00c0 X) :
    Fr X s0 (State.groupAcquire s a1) := by
  unfold State.groupAcquire
  repeat' first
    | with_reducible assumption
    | ((with_reducible apply hX.after); exact rfl)
    | with_reducible apply State.groupStop_fr
    | with_reducible apply State.setOch_fr
    | with_reducible apply State.setFld_fr
    | with_reducible apply State.setChanSt_fr
    | with_reducible apply State.liftCore_fr
    | with_reducible apply Fr.foldl
    | (intro x)
    | (extract_lets +onlyGivenNames x; (refine Fr.cut (X := X) (s0 := s0) (s := x) ?_ (fun hx => ?_); (on_goal 2 => clear_value x); (on_goal 1 => (unfold x; clear x))))
    | split
    | ((with_reducible apply hX.ok); exact rfl)

theorem State.lccSend_fr {X : Nat} {s0 : State} {s : State} {a1 : ℕ} {a2 : ℕ} {a3 : ℕ} (h : Fr X s0 s) (hX : Sub 0x8200000000000 X) :
    Fr X s0 (State.lccSend s a1 a2 a3) := by
  unfold State.lccSend
  repeat' first
    | with_reducible assumption
    | ((with_reducible apply hX.after); exact rfl)
    | with_reducible apply State.emit_fr
    | with_reducible apply State.setGrp_fr

theorem State.lccAcked_fr {X : Nat} {s0 : State} {s : State} {a1 : ℕ} {a2 : ℕ} {a3 : LccMsg → Bool} (h : Fr X s0 s) (hX : Sub 0x200000000000 X) :
    Fr X s0 (State.lccAcked s a1 a2 a3) := by
  unfold State.lccAcked
  repeat' first
    | with_reducible assumption
    | with_reducible apply State.onGrp_fr

theorem State.remapDrop_fr {X : Nat} {s0 : State} {s : State} {a1 : ℕ} {a2 : Bool} (h : Fr X s0 s) (hX : Sub 0x200000000000 X) :
    Fr X s0 (State.remapDrop s a1 a2) := by
  unfold State.remapDrop
  repeat' first
    | with_reducible assumption
    | with_reducible apply State.lccAcked_fr
    | with_reducible apply State.setOptDir_fr
    | split

theorem State.remapStart_fr {X : Nat} {s0 : State} {s : State} {a1 : ℕ} {a2 : Bool} {a3 : ℕ} {a4 : ℕ} {a5 : ℕ} (h : Fr X s0 s) (hX : Sub 0x8200000000000 X) :
    Fr X s0 (State.remapStart s a1 a2 a3 a4 a5) := by
  unfold State.remapStart
  repeat' first
    | with_reducible assumption
    | ((with_reducible apply hX.after); exact rfl)
    | with_reducible apply State.lccSend_fr
    | with_reducible apply State.setOptDir_fr
    | with_reducible apply State.remapDrop_fr

theorem State.lccAccept_fr {X : Nat} {s0 : State} {s : State} {a1 : ℕ} {a2 : ℕ} {a3 : ℕ} {a4 : ℕ} {a5 : State → State} (h : Fr X s0 s) (hf0 : ∀ x0, Fr X s0 x0 → Fr X s0 (a5 x0)) (hX : Sub 0x200000000000 X) :
    Fr X s0 (State.lccAccept s a1 a2 a3 a4 a5) := by
  unfold State.lccAccept
  repeat' first
    | with_reducible assumption
    | with_reducible apply hf0
    | with_reducible apply State.onGrp_fr
    | split

theorem State.awaitSpare_fr {X : Nat} {s0 : State} {s : State} {a1 : ℕ} {a2 : Bool} {a3 : SpareNeed} (h : Fr X s0 s) (hX : Sub 0x2c303c704b00c0 X) :
    Fr X s0 (State.awaitSpare s a1 a2 a3) := by
  unfold State.awaitSpare
  repeat' first
    | with_reducible assumption
    | ((with_reducible apply hX.after); exact rfl)
    | with_reducible apply State.laneDown_fr
    | with_reducible apply State.setOptDir_fr

theorem State.yieldSpare_fr {X : Nat} {s0 : State} {s : State} {a1 : ℕ} {a2 : Bool} (h : Fr X s0 s) (hX : Sub 0x2c303c704b00c0 X) :
    Fr X s0 (State.yieldSpare s a1 a2) := by
  unfold State.yieldSpare
  repeat' first
    | with_reducible assumption
    | ((with_reducible apply hX.after); exact rfl)
    | with_reducible apply State.remapDrop_fr
    | with_reducible apply State.setOptDir_fr
    | with_reducible apply State.awaitSpare_fr
    | (extract_lets +onlyGivenNames x; first
        | (refine Fr.cut (X := X) (s0 := s0) (s := x) ?_ (fun hx => ?_); (on_goal 2 => clear_value x); (on_goal 1 => (unfold x; clear x)))
        | clear_value x)
    | split

theorem State.seekSpare_fr {X : Nat} {s0 : State} {s : State} {a1 : ℕ} {a2 : Bool} {a3 : SpareNeed} (h : Fr X s0 s) (hX : Sub 0x2c303c704b00c0 X) :
    Fr X s0 (State.seekSpare s a1 a2 a3) := by
  unfold State.seekSpare
  repeat' first
    | with_reducible assumption
    | ((with_reducible apply hX.after); exact rfl)
    | with_reducible apply State.setOptDir_fr
    | with_reducible apply State.awaitSpare_fr
    | with_reducible apply State.remapStart_fr
    | with_reducible apply State.yieldSpare_fr
    | with_reducible apply State.onGrp_fr
    | (extract_lets +onlyGivenNames x; first
        | (refine Fr.cut (X := X) (s0 := s0) (s := x) ?_ (fun hx => ?_); (on_goal 2 => clear_value x); (on_goal 1 => (unfold x; clear x)))
        | clear_value x)
    | split

theorem State.nextSpare_fr {X : Nat} {s0 : State} {s : State} {a1 : ℕ} {a2 : Bool} (h : Fr X s0 s) (hX : Sub 0x2c303c704b00c0 X) :
    Fr X s0 (State.nextSpare s a1 a2) := by
  unfold State.nextSpare
  repeat' first
    | with_reducible assumption
    | ((with_reducible apply hX.after); exact rfl)
    | with_reducible apply State.seekSpare_fr
    | with_reducible apply State.setOptDir_fr
    | (extract_lets +onlyGivenNames x; clear_value x)
    | split

theorem State.nextBack_fr {X : Nat} {s0 : State} {s : State} {a1 : ℕ} {a2 : Bool} (h : Fr X s0 s) (hX : Sub 0x2c303c704b00c0 X) :
    Fr X s0 (State.nextBack s a1 a2) := by
  unfold State.nextBack
  repeat' first
    | with_reducible assumption
    | ((with_reducible apply hX.after); exact rfl)
    | with_reducible apply State.remapStart_fr
    | with_reducible apply State.nextSpare_fr
    | (extract_lets +onlyGivenNames x; clear_value x)
    | split

theorem State.leaveSpare_fr {X : Nat} {s0 : State} {s : State} {a1 : ℕ} {a2 : Bool} {a3 : ℕ} (h : Fr X s0 s) (hX : Sub 0x2c303c704b00c0 X) :
    Fr X s0 (State.leaveSpare s a1 a2 a3) := by
  unfold State.leaveSpare
  repeat' first
    | with_reducible assumption
    | ((with_reducible apply hX.after); exact rfl)
    | with_reducible apply State.nextBack_fr
    | with_reducible apply State.laneBack_fr
    | with_reducible apply State.setOptDir_fr
    | with_reducible apply State.remapDrop_fr
    | with_reducible apply Fr.foldl
    | (intro x)
    | (extract_lets +onlyGivenNames x; first
        | (refine Fr.cut (X := X) (s0 := s0) (s := x) ?_ (fun hx => ?_); (on_goal 2 => clear_value x); (on_goal 1 => (unfold x; clear x)))
        | clear_value x)
    | split

theorem State.remapSwitch_fr {X : Nat} {s0 : State} {s : State} {a1 : ℕ} {a2 : Bool} {a3 : Bool} (h : Fr X s0 s) (hX : Sub 0x2c303c704b00c0 X) :
    Fr X s0 (State.remapSwitch s a1 a2 a3) := by
  unfold State.remapSwitch
  repeat' first
    | with_reducible assumption
    | ((with_reducible apply hX.after); exact rfl)
    | with_reducible apply State.remapStart_fr
    | with_reducible apply State.setOptDir_fr
    | with_reducible apply State.nextBack_fr
    | with_reducible apply State.setOch_fr
    | with_reducible apply State.laneBack_fr
    | with_reducible apply State.showBinding_fr
    | with_reducible apply State.setChanSt_fr
    | (extract_lets +onlyGivenNames x; first
        | (refine Fr.cut (X := X) (s0 := s0) (s := x) ?_ (fun hx => ?_); (on_goal 2 => clear_value x); (on_goal 1 => (unfold x; clear x)))
        | clear_value x)
    | split

theorem State.resetCurOf_fr {X : Nat} {s0 : State} {s : State} {a1 : List ℕ} (h : Fr X s0 s) (hX : Sub 0x1000000000 X) :
    Fr X s0 (State.resetCurOf s a1) := by
  unfold State.resetCurOf
  repeat' first
    | with_reducible assumption
    | with_reducible apply State.onSwc_fr

theorem State.bypassFinish_fr {X : Nat} {s0 : State} {s : State} {a1 : OpKey} (h : Fr X s0 s) (hX : Sub 0x1040000000 X) :
    Fr X s0 (State.bypassFinish s a1) := by
  unfold State.bypassFinish
  repeat' first
    | with_reducible assumption
    | ((with_reducible apply hX.after); exact rfl)
    | with_reducible apply State.finish_fr
    | with_reducible apply State.onSwc_fr
    | split

theorem State.bypassBack_fr {X : Nat} {s0 : State} {s : State} {a1 : ℕ} (h : Fr X s0 s) (hX : Sub 0x1040000000 X) :
    Fr X s0 (State.bypassBack s a1) := by
  unfold State.bypassBack
  repeat' first
    | with_reducible assumption
    | ((with_reducible apply hX.after); exact rfl)
    | with_reducible apply State.bypassFinish_fr
    | with_reducible apply State.resetCurOf_fr
    | with_reducible apply State.onSwc_fr
    | with_reducible apply Fr.foldl
    | (intro x)
    | (extract_lets +onlyGivenNames x; first
        | (refine Fr.cut (X := X) (s0 := s0) (s := x) ?_ (fun hx => ?_); (on_goal 2 => clear_value x); (on_goal 1 => (unfold x; clear x)))
        | clear_value x)
    | split

theorem State.seekAll_fr {X : Nat} {s0 : State} {s : State} {a1 : ℕ} (h : Fr X s0 s) (hX : Sub 0x2c303c704b00c0 X) :
    Fr X s0 (State.seekAll s a1) := by
  unfold State.seekAll
  repeat' first
    | with_reducible assumption
    | with_reducible apply State.seekSpare_fr
    | with_reducible apply Fr.foldl
    | (intro x)
    | (extract_lets +onlyGivenNames x; clear_value x)
    | split
    | dsimp only

theorem State.groupUp_fr {X : Nat} {s0 : State} {s : State} {a1 : ℕ} (h : Fr X s0 s) (hX : Sub 0x2c303c704b00c0 X) :
    Fr X s0 (State.groupUp s a1) := by
  unfold State.groupUp
  repeat' first
    | with_reducible assumption
    | ((with_reducible apply hX.after); exact rfl)
    | with_reducible apply State.bypassBack_fr
    | with_reducible apply State.seekAll_fr
    | with_reducible apply State.setChanSt_fr
    | with_reducible apply State.setGroupSt_fr
    | with_reducible apply Fr.foldl
    | (intro x)

theorem State.groupMismatch_fr {X : Nat} {s0 : State} {s : State} {a1 : ℕ} (h : Fr X s0 s) (hX : Sub 0x2c003c704b00c0 X) :
    Fr X s0 (State.groupMismatch s a1) := by
  unfold State.groupMismatch
  repeat' first
    | with_reducible assumption
    | ((with_reducible apply hX.after); exact rfl)
    | with_reducible apply State.raise_fr
    | with_reducible apply State.setGroupSt_fr
    | with_reducible apply State.portsDown_fr

theorem State.groupJudge_fr {X : Nat} {s0 : State} {s : State} {a1 : ℕ} (h : Fr X s0 s) (hX : Sub 0x2c303c704b00c0 X) :
    Fr X s0 (State.groupJudge s a1) := by
  unfold State.groupJudge
  repeat' first
    | with_reducible assumption
    | ((with_reducible apply hX.after); exact rfl)
    | with_reducible apply State.groupUp_fr
    | with_reducible apply State.groupMismatch_fr
    | split

theorem State.aliasFound_fr {X : Nat} {s0 : State} {s : State} {a1 : ℕ} {a2 : ℕ} {a3 : ℕ} (h : Fr X s0 s) (hX : Sub 0x2c303c704b00c0 X) :
    Fr X s0 (State.aliasFound s a1 a2 a3) := by
  unfold State.aliasFound
  repeat' first
    | with_reducible assumption
    | ((with_reducible apply hX.after); exact rfl)
    | with_reducible apply State.setFlag_fr
    | with_reducible apply State.onGrp_fr
    | with_reducible apply State.setOch_fr
    | with_reducible apply State.setChanSt_fr
    | with_reducible apply State.raise_fr
    | with_reducible apply State.bump_fr
    | with_reducible apply State.seekSpare_fr
    | with_reducible apply State.lccSend_fr
    | (extract_lets +onlyGivenNames x; first
        | (refine Fr.cut (X := X) (s0 := s0) (s := x) ?_ (fun hx => ?_); (on_goal 2 => clear_value x); (on_goal 1 => (unfold x; clear x)))
        | clear_value x)
    | split
    | ((with_reducible apply hX.ok); exact rfl)

theorem State.chanLost_fr {X : Nat} {s0 : State} {s : State} {a1 : ℕ} {a2 : ℕ} (h : Fr X s0 s) (hX : Sub 0x2c303c704b00c0 X) :
    Fr X s0 (State.chanLost s a1 a2) := by
  unfold State.chanLost
  repeat' first
    | with_reducible assumption
    | ((with_reducible apply hX.after); exact rfl)
    | with_reducible apply State.setFlag_fr
    | with_reducible apply State.seekSpare_fr
    | with_reducible apply State.groupStop_fr
    | (extract_lets +onlyGivenNames x; first
        | (refine Fr.cut (X := X) (s0 := s0) (s := x) ?_ (fun hx => ?_); (on_goal 2 => clear_value x); (on_goal 1 => (unfold x; clear x)))
        | clear_value x)
    | split
    | ((with_reducible apply hX.ok); exact rfl)

theorem State.alignLost_fr {X : Nat} {s0 : State} {s : State} {a1 : ℕ} {a2 : ℕ} (h : Fr X s0 s) (hX : Sub 0x2c303c704b00c0 X) :
    Fr X s0 (State.alignLost s a1 a2) := by
  unfold State.alignLost
  repeat' first
    | with_reducible assumption
    | with_reducible apply State.chanLost_fr
    | with_reducible apply State.bump_fr
    | ((with_reducible apply hX.ok); exact rfl)

theorem State.aligned_fr {X : Nat} {s0 : State} {s : State} {a1 : ℕ} {a2 : ℕ} (h : Fr X s0 s) (hX : Sub 0x2c303c704b00c0 X) :
    Fr X s0 (State.aligned s a1 a2) := by
  unfold State.aligned
  repeat' first
    | with_reducible assumption
    | with_reducible apply State.setFlag_fr
    | with_reducible apply State.leaveSpare_fr
    | (extract_lets +onlyGivenNames x; (refine Fr.cut (X := X) (s0 := s0) (s := x) ?_ (fun hx => ?_); (on_goal 2 => clear_value x); (on_goal 1 => (unfold x; clear x))))
    | split
    | ((with_reducible apply hX.ok); exact rfl)

theorem State.marker_fr {X : Nat} {s0 : State} {s : State} {a1 : ℕ} {a2 : ℕ} {a3 : ℕ} {a4 : Bytes} (h : Fr X s0 s) (hX : Sub 0x2c303c704b00c0 X) :
    Fr X s0 (State.marker s a1 a2 a3 a4) := by
  unfold State.marker
  repeat' first
    | with_reducible assumption
    | ((with_reducible apply hX.after); exact rfl)
    | with_reducible apply State.alignLost_fr
    | with_reducible apply State.setOch_fr
    | with_reducible apply State.groupJudge_fr
    | with_reducible apply State.setFlag_fr
    | with_reducible apply State.setFld_fr
    | with_reducible apply State.aligned_fr
    | with_reducible apply State.aliasFound_fr
    | (extract_lets +onlyGivenNames x; first
        | (refine Fr.cut (X := X) (s0 := s0) (s := x) ?_ (fun hx => ?_); (on_goal 2 => clear_value x); (on_goal 1 => (unfold x; clear x)))
        | clear_value x)
    | split
    | ((with_reducible apply hX.ok); exact rfl)

theorem State.ringWorks_fr {X : Nat} {s0 : State} {s : State} {a1 : ℕ} {a2 : ℕ} (h : Fr X s0 s) (hX : Sub 0x2c303c704b00c0 X) :
    Fr X s0 (State.ringWorks s a1 a2) := by
  unfold State.ringWorks
  repeat' first
    | with_reducible assumption
    | ((with_reducible apply hX.after); exact rfl)
    | with_reducible apply State.leaveSpare_fr
    | with_reducible apply State.setOch_fr
    | split

theorem State.ringLost_fr {X : Nat} {s0 : State} {s : State} {a1 : ℕ} {a2 : ℕ} {a3 : Bool} (h : Fr X s0 s) (hX : Sub 0x2c303c704b00c0 X) :
    Fr X s0 (State.ringLost s a1 a2 a3) := by
  unfold State.ringLost
  repeat' first
    | with_reducible assumption
    | ((with_reducible apply hX.after); exact rfl)
    | with_reducible apply State.chanLost_fr
    | with_reducible apply State.setOch_fr
    | with_reducible apply State.setFlag_fr
    | split
    | ((with_reducible apply hX.ok); exact rfl)

theorem State.heater_fr {X : Nat} {s0 : State} {s : State} {a1 : ℕ} {a2 : ℕ} {a3 : Bool} {a4 : ℕ} {a5 : ℕ} (h : Fr X s0 s) (hX : Sub 0x2c303c704b00c0 X) :
    Fr X s0 (State.heater s a1 a2 a3 a4 a5) := by
  unfold State.heater
  repeat' first
    | with_reducible assumption
    | ((with_reducible apply hX.after); exact rfl)
    | with_reducible apply State.ringWorks_fr
    | with_reducible apply State.setFlag_fr
    | with_reducible apply State.setOch_fr
    | with_reducible apply State.setFld_fr
    | with_reducible apply State.ringLost_fr
    | with_reducible apply State.bump_fr
    | with_reducible apply State.seekSpare_fr
    | (extract_lets +onlyGivenNames x; first
        | (refine Fr.cut (X := X) (s0 := s0) (s := x) ?_ (fun hx => ?_); (on_goal 2 => clear_value x); (on_goal 1 => (unfold x; clear x)))
        | clear_value x)
    | split
    | ((with_reducible apply hX.ok); exact rfl)

theorem State.sweepDone_fr {X : Nat} {s0 : State} {s : State} {a1 : ℕ} {a2 : ℕ} {a3 : Bool} {a4 : Bool} {a5 : ℕ} (h : Fr X s0 s) (hX : Sub 0x2c303c704b00c0 X) :
    Fr X s0 (State.sweepDone s a1 a2 a3 a4 a5) := by
  unfold State.sweepDone
  repeat' first
    | with_reducible assumption
    | ((with_reducible apply hX.after); exact rfl)
    | with_reducible apply State.setFlag_fr
    | with_reducible apply State.setOch_fr
    | with_reducible apply State.setFld_fr
    | with_reducible apply State.groupStop_fr
    | with_reducible apply State.seekSpare_fr
    | (extract_lets +onlyGivenNames x; clear_value x)
    | split
    | ((with_reducible apply hX.ok); exact rfl)
    | dsimp only

theorem State.featherStep_fr {X : Nat} {s0 : State} {s : State} {a1 : ℕ} (h : Fr X s0 s) (hX : Sub 0x200000010000 X) :
    Fr X s0 (State.featherStep s a1) := by
  unfold State.featherStep
  repeat' first
    | with_reducible assumption
    | ((with_reducible apply hX.after); exact rfl)
    | with_reducible apply State.setChanSt_fr
    | with_reducible apply State.onGrp_fr
    | (extract_lets +onlyGivenNames x; clear_value x)
    | split

theorem State.featherNext_fr {X : Nat} {s0 : State} {s : State} {a1 : ℕ} (h : Fr X s0 s) (hX : Sub 0x8200000010000 X) :
    Fr X s0 (State.featherNext s a1) := by
  unfold State.featherNext
  repeat' first
    | with_reducible assumption
    | ((with_reducible apply hX.after); exact rfl)
    | with_reducible apply State.setChanSt_fr
    | with_reducible apply State.setGrp_fr
    | with_reducible apply State.remapStart_fr
    | with_reducible apply State.setOptDir_fr
    | (extract_lets +onlyGivenNames x; first
        | (refine Fr.cut (X := X) (s0 := s0) (s := x) ?_ (fun hx => ?_); (on_goal 2 => clear_value x); (on_goal 1 => (unfold x; clear x)))
        | clear_value x)
    | split

theorem State.retireChan_fr {X : Nat} {s0 : State} {s : State} {a1 : ℕ} {a2 : ℕ} (h : Fr X s0 s) (hX : Sub 0x2c303c704b00c0 X) :
    Fr X s0 (State.retireChan s a1 a2) := by
  unfold State.retireChan
  repeat' first
    | with_reducible assumption
    | ((with_reducible apply hX.after); exact rfl)
    | with_reducible apply State.raise_fr
    | with_reducible apply State.setOch_fr
    | with_reducible apply State.showBinding_fr
    | with_reducible apply State.setFld_fr
    | with_reducible apply State.healthAdd_fr
    | with_reducible apply State.setOptDir_fr
    | with_reducible apply State.seekSpare_fr
    | (intro x)
    | (extract_lets +onlyGivenNames x; first
        | (refine Fr.cut (X := X) (s0 := s0) (s := x) ?_ (fun hx => ?_); (on_goal 2 => clear_value x); (on_goal 1 => (unfold x; clear x)))
        | (refine Fr.cut_fn3 (X := X) (s0 := s0) (f := x) ?_ (fun hx => ?_); (on_goal 2 => clear_value x); (on_goal 1 => (unfold x; clear x)))
        | clear_value x)
    | split
    | ((with_reducible apply hX.ok); exact rfl)
    | with_reducible apply_assumption -exfalso -symm

theorem State.rxCalDone_fr {X : Nat} {s0 : State} {s : State} {a1 : ℕ} {a2 : ℕ} (h : Fr X s0 s) (hX : Sub 0x2c303c704b00c0 X) :
    Fr X s0 (State.rxCalDone s a1 a2) := by
  unfold State.rxCalDone
  repeat' first
    | with_reducible assumption
    | ((with_reducible apply hX.after); exact rfl)
    | with_reducible apply State.lccSend_fr
    | with_reducible apply State.retireChan_fr
    | with_reducible apply State.setOch_fr
    | with_reducible apply State.setFld_fr
    | split
    | ((with_reducible apply hX.ok); exact rfl)

theorem State.featherCalDone_fr {X : Nat} {s0 : State} {s : State} {a1 : ℕ} {a2 : Bool} {a3 : ℕ} (h : Fr X s0 s) (hX : Sub 0x2c303c704b00c0 X) :
    Fr X s0 (State.featherCalDone s a1 a2 a3) := by
  unfold State.featherCalDone
  repeat' first
    | with_reducible assumption
    | ((with_reducible apply hX.after); exact rfl)
    | with_reducible apply State.rxCalDone_fr
    | with_reducible apply State.featherNext_fr
    | with_reducible apply State.onGrp_fr
    | split

theorem State.setStream_fr {X : Nat} {s0 : State} {s : State} {a1 : ℕ} {a2 : PortStream} (h : Fr X s0 s) (hX : Sub 0x200000000000 X) :
    Fr X s0 (State.setStream s a1 a2) := by
  unfold State.setStream
  exact Fr.lanes_ h (hX.bit rfl)

theorem State.streamOn_fr {X : Nat} {s0 : State} {s : State} {a1 : ℕ} {a2 : ℕ} {a3 : ℕ} (h : Fr X s0 s) (hX : Sub 0x8200000010000 X) :
    Fr X s0 (State.streamOn s a1 a2 a3) := by
  unfold State.streamOn
  repeat' first
    | with_reducible assumption
    | ((with_reducible apply hX.after); exact rfl)
    | with_reducible apply State.emit_fr
    | with_reducible apply State.setStream_fr
    | with_reducible apply State.bump_fr
    | with_reducible apply Fr.foldl
    | (intro x)
    | split
    | ((with_reducible apply hX.ok); exact rfl)

theorem State.laneBytes_fr {X : Nat} {s0 : State} {s : State} {a1 : ℕ} {a2 : ℕ} {a3 : ℕ} {a4 : List CodeWord} {a5 : ℕ} (h : Fr X s0 s) (hX : Sub 0x8200000010000 X) :
    Fr X s0 (State.laneBytes s a1 a2 a3 a4 a5) := by
  unfold State.laneBytes
  repeat' first
    | with_reducible assumption
    | ((with_reducible apply hX.after); exact rfl)
    | with_reducible apply State.setStream_fr
    | with_reducible apply State.onGrp_fr
    | with_reducible apply State.streamOn_fr
    | (extract_lets +onlyGivenNames x; first
        | (refine Fr.cut (X := X) (s0 := s0) (s := x) ?_ (fun hx => ?_); (on_goal 2 => clear_value x); (on_goal 1 => (unfold x; clear x)))
        | clear_value x)
    | split

theorem State.optFrame_fr {X : Nat} {s0 : State} {s : State} {a1 : ℕ} {a2 : ℕ} {a3 : List ℕ} {a4 : ℕ} (h : Fr X s0 s) (hX : Sub 0x2c303c704b00c0 X) :
    Fr X s0 (State.optFrame s a1 a2 a3 a4) := by
  unfold State.optFrame
  repeat' first
    | with_reducible assumption
    | ((with_reducible apply hX.after); exact rfl)
    | with_reducible apply State.setOch_fr
    | with_reducible apply State.bump_fr
    | with_reducible apply State.seekSpare_fr
    | with_reducible apply State.laneBytes_fr
    | with_reducible apply State.healthWords_fr
    | (extract_lets +onlyGivenNames x; first
        | (refine Fr.cut (X := X) (s0 := s0) (s := x) ?_ (fun hx => ?_); (on_goal 2 => clear_value x); (on_goal 1 => (unfold x; clear x)))
        | clear_value x)
    | split
    | ((with_reducible apply hX.ok); exact rfl)

theorem State.elnFrame_fr {X : Nat} {s0 : State} {s : State} {a1 : ℕ} {a2 : List ℕ} (h : Fr X s0 s) (hX : Sub 0x100000020000 X) :
    Fr X s0 (State.elnFrame s a1 a2) := by
  unfold State.elnFrame
  repeat' first
    | with_reducible assumption
    | ((with_reducible apply hX.after); exact rfl)
    | with_reducible apply State.bump_fr
    | with_reducible apply State.healthWords_fr
    | (extract_lets +onlyGivenNames x; first
        | (refine Fr.cut (X := X) (s0 := s0) (s := x) ?_ (fun hx => ?_); (on_goal 2 => clear_value x); (on_goal 1 => (unfold x; clear x)))
        | clear_value x)
    | split
    | ((with_reducible apply hX.ok); exact rfl)

theorem State.laneFrame_fr {X : Nat} {s0 : State} {s : State} {a1 : Option ℕ} {a2 : ℕ} {a3 : List ℕ} {a4 : ℕ} (h : Fr X s0 s) (hX : Sub 0x2c303c704b00c0 X) :
    Fr X s0 (State.laneFrame s a1 a2 a3 a4) := by
  unfold State.laneFrame
  repeat' first
    | with_reducible assumption
    | ((with_reducible apply hX.after); exact rfl)
    | with_reducible apply State.optFrame_fr
    | with_reducible apply State.elnFrame_fr
    | split

theorem State.feedLost_fr {X : Nat} {s0 : State} {s : State} {a1 : ℕ} {a2 : List ℕ} (h : Fr X s0 s) (hX : Sub 0x2c203c704b00c0 X) :
    Fr X s0 (State.feedLost s a1 a2) := by
  unfold State.feedLost
  repeat' first
    | with_reducible assumption
    | ((with_reducible apply hX.after); exact rfl)
    | with_reducible apply State.raise_fr
    | with_reducible apply State.onGrp_fr
    | with_reducible apply State.groupStop_fr

theorem State.feedLow_fr {X : Nat} {s0 : State} {s : State} {a1 : ℕ} {a2 : ℕ} (h : Fr X s0 s) (hX : Sub 0x2c303c704b00c0 X) :
    Fr X s0 (State.feedLow s a1 a2) := by
  unfold State.feedLow
  repeat' first
    | with_reducible assumption
    | ((with_reducible apply hX.after); exact rfl)
    | with_reducible apply State.raise_fr
    | with_reducible apply State.onGrp_fr
    | with_reducible apply State.feedLost_fr
    | with_reducible apply State.seekSpare_fr
    | (extract_lets +onlyGivenNames x; first
        | (refine Fr.cut (X := X) (s0 := s0) (s := x) ?_ (fun hx => ?_); (on_goal 2 => clear_value x); (on_goal 1 => (unfold x; clear x)))
        | clear_value x)
    | split

theorem State.feedBack_fr {X : Nat} {s0 : State} {s : State} {a1 : ℕ} {a2 : ℕ} (h : Fr X s0 s) (hX : Sub 0x2c303c704b00c0 X) :
    Fr X s0 (State.feedBack s a1 a2) := by
  unfold State.feedBack
  repeat' first
    | with_reducible assumption
    | ((with_reducible apply hX.after); exact rfl)
    | with_reducible apply State.onGrp_fr
    | with_reducible apply State.nextBack_fr
    | with_reducible apply State.leaveSpare_fr
    | (extract_lets +onlyGivenNames x; (refine Fr.cut (X := X) (s0 := s0) (s := x) ?_ (fun hx => ?_); (on_goal 2 => clear_value x); (on_goal 1 => (unfold x; clear x))))
    | split

theorem State.setLaneSt_fr {X : Nat} {s0 : State} {s : State} {a1 : ℕ} {a2 : ℕ} (h : Fr X s0 s) (hX : Sub 0x20000 X) :
    Fr X s0 (State.setLaneSt s a1 a2) := by
  unfold State.setLaneSt
  repeat' first
    | with_reducible assumption
    | with_reducible apply State.setFld_fr
    | ((with_reducible apply hX.ok); exact rfl)

theorem State.energy_fr {X : Nat} {s0 : State} {s : State} {a1 : ℕ} {a2 : Bool} (h : Fr X s0 s) (hX : Sub 0x8200400420000 X) :
    Fr X s0 (State.energy s a1 a2) := by
  unfold State.energy
  repeat' first
    | with_reducible assumption
    | ((with_reducible apply hX.after); exact rfl)
    | with_reducible apply State.setLaneSt_fr
    | with_reducible apply State.liftCore_fr
    | (with_reducible apply Fr.lanes_; (on_goal 1 => (first | with_reducible assumption | with_reducible apply State.setLaneSt_fr | with_reducible apply State.liftCore_fr | with_reducible refine Fr.of_snd (by assumption) ?_)))
    | split
    | ((with_reducible apply hX.bit); exact rfl)

theorem State.trainTimeout_fr {X : Nat} {s0 : State} {s : State} {a1 : ℕ} (h : Fr X s0 s) (hX : Sub 0x2c200470420000 X) :
    Fr X s0 (State.trainTimeout s a1) := by
  unfold State.trainTimeout
  repeat' first
    | with_reducible assumption
    | ((with_reducible apply hX.after); exact rfl)
    | with_reducible apply State.setLaneSt_fr
    | with_reducible apply State.liftCore_fr
    | with_reducible apply State.raise_fr
    | (with_reducible apply Fr.lanes_; (on_goal 1 => (first | with_reducible assumption | with_reducible apply State.setLaneSt_fr | with_reducible apply State.liftCore_fr | with_reducible apply State.raise_fr | with_reducible refine Fr.of_snd (by assumption) ?_)))
    | (extract_lets +onlyGivenNames x; first
        | (refine Fr.cut (X := X) (s0 := s0) (s := x) ?_ (fun hx => ?_); (on_goal 2 => clear_value x); (on_goal 1 => (unfold x; clear x)))
        | clear_value x)
    | split
    | ((with_reducible apply hX.bit); exact rfl)

theorem State.linkUp_fr {X : Nat} {s0 : State} {s : State} {a1 : ℕ} (h : Fr X s0 s) (hX : Sub 0xc0834004b0000 X) :
    Fr X s0 (State.linkUp s a1) := by
  unfold State.linkUp
  repeat' first
    | with_reducible assumption
    | ((with_reducible apply hX.after); exact rfl)
    | with_reducible apply State.portComesUp_fr
    | with_reducible apply State.showTraffic_fr
    | with_reducible apply State.setLaneSt_fr
    | (extract_lets +onlyGivenNames x; clear_value x)
    | split

theorem execFeedLineLow_fr {X : Nat} {s0 : State} {a0 : ℕ} {a1 : ℕ} {s : State} (h : Fr X s0 s) (hX : Sub 0x3c30fd704b0cc0 X) {t : State}
    (ht : execFeedLineLow a0 a1 s = .next t) : Fr X s0 t := by
  unfold execFeedLineLow at ht
  obtain rfl := Host.Outcome.next.inj ht
  repeat' first
    | with_reducible assumption
    | ((with_reducible apply hX.after); exact rfl)
    | with_reducible apply State.inPool_fr
    | with_reducible apply State.feedLow_fr
    | (intro x)

theorem execFeedLineRestore_fr {X : Nat} {s0 : State} {a0 : ℕ} {a1 : ℕ} {s : State} (h : Fr X s0 s) (hX : Sub 0x3c30fd704b0cc0 X) {t : State}
    (ht : execFeedLineRestore a0 a1 s = .next t) : Fr X s0 t := by
  unfold execFeedLineRestore at ht
  obtain rfl := Host.Outcome.next.inj ht
  repeat' first
    | with_reducible assumption
    | ((with_reducible apply hX.after); exact rfl)
    | with_reducible apply State.inPool_fr
    | with_reducible apply State.feedBack_fr
    | (intro x)

theorem execFeedLost_fr {X : Nat} {s0 : State} {a0 : ℕ} {a1 : List ℕ} {s : State} (h : Fr X s0 s) (hX : Sub 0x3c20fd704b0cc0 X) {t : State}
    (ht : execFeedLost a0 a1 s = .next t) : Fr X s0 t := by
  unfold execFeedLost at ht
  obtain rfl := Host.Outcome.next.inj ht
  repeat' first
    | with_reducible assumption
    | ((with_reducible apply hX.after); exact rfl)
    | with_reducible apply State.inPool_fr
    | with_reducible apply State.feedLost_fr
    | (intro x)
    | split

theorem execFeedRestored_fr {X : Nat} {s0 : State} {a0 : ℕ} {s : State} (h : Fr X s0 s) (hX : Sub 0x3c20fd704b0cc0 X) {t : State}
    (ht : execFeedRestored a0 s = .next t) : Fr X s0 t := by
  unfold execFeedRestored at ht
  obtain rfl := Host.Outcome.next.inj ht
  repeat' first
    | with_reducible assumption
    | ((with_reducible apply hX.after); exact rfl)
    | with_reducible apply State.inPool_fr
    | with_reducible apply State.groupAcquire_fr
    | with_reducible apply State.onGrp_fr
    | (intro x)
    | split

theorem execMarkerReceive_fr {X : Nat} {s0 : State} {a0 : ℕ} {a1 : ℕ} {a2 : RxMarker} {s : State} (h : Fr X s0 s) (hX : Sub 0x3c30fd704b0cc0 X) {t : State}
    (ht : execMarkerReceive a0 a1 a2 s = .next t) : Fr X s0 t := by
  unfold execMarkerReceive at ht
  obtain rfl := Host.Outcome.next.inj ht
  repeat' first
    | with_reducible assumption
    | ((with_reducible apply hX.after); exact rfl)
    | with_reducible apply State.inPool_fr
    | with_reducible apply State.marker_fr
    | (intro x)

theorem execPgIdClear_fr {X : Nat} {s0 : State} {a0 : ℕ} {s : State} (h : Fr X s0 s) (hX : Sub 0x3c30fd704b0cc0 X) {t : State}
    (ht : execPgIdClear a0 s = .next t) : Fr X s0 t := by
  unfold execPgIdClear at ht
  obtain rfl := Host.Outcome.next.inj ht
  repeat' first
    | with_reducible assumption
    | ((with_reducible apply hX.after); exact rfl)
    | with_reducible apply State.inPool_fr
    | with_reducible apply State.groupUp_fr
    | (intro x)
    | split

theorem execAliasRestore_fr {X : Nat} {s0 : State} {a0 : ℕ} {a1 : Bool} {a2 : ℕ} {s : State} (h : Fr X s0 s) (hX : Sub 0x3c30fd704b0cc0 X) {t : State}
    (ht : execAliasRestore a0 a1 a2 s = .next t) : Fr X s0 t := by
  unfold execAliasRestore at ht
  obtain rfl := Host.Outcome.next.inj ht
  repeat' first
    | with_reducible assumption
    | ((with_reducible apply hX.after); exact rfl)
    | with_reducible apply State.inPool_fr
    | with_reducible apply State.leaveSpare_fr
    | with_reducible apply State.setChanSt_fr
    | with_reducible apply State.onGrp_fr
    | (intro x)
    | split

theorem execLccRemapReq_fr {X : Nat} {s0 : State} {a0 : ℕ} {a1 : Bool} {a2 : ℕ} {a3 : ℕ} {s : State} (h : Fr X s0 s) (hX : Sub 0x3c30fd704b0cc0 X) {t : State}
    (ht : execLccRemapReq a0 a1 a2 a3 s = .next t) : Fr X s0 t := by
  unfold execLccRemapReq at ht
  obtain rfl := Host.Outcome.next.inj ht
  repeat' first
    | with_reducible assumption
    | ((with_reducible apply hX.after); exact rfl)
    | with_reducible apply State.inPool_fr
    | with_reducible apply State.lccAccept_fr
    | with_reducible apply State.lccSend_fr
    | with_reducible apply State.lccAcked_fr
    | with_reducible apply State.setOptDir_fr
    | with_reducible apply State.remapDrop_fr
    | with_reducible apply State.yieldSpare_fr
    | with_reducible apply State.laneDown_fr
    | (intro x)
    | (extract_lets +onlyGivenNames x; first
        | (refine Fr.cut (X := X) (s0 := s0) (s := x) ?_ (fun hx => ?_); (on_goal 2 => clear_value x); (on_goal 1 => (unfold x; clear x)))
        | clear_value x)
    | split

theorem execLccRemapAck_fr {X : Nat} {s0 : State} {a0 : ℕ} {a1 : ℕ} {a2 : ℕ} {s : State} (h : Fr X s0 s) (hX : Sub 0x8200000000000 X) {t : State}
    (ht : execLccRemapAck a0 a1 a2 s = .next t) : Fr X s0 t := by
  unfold execLccRemapAck at ht
  obtain rfl := Host.Outcome.next.inj ht
  repeat' first
    | with_reducible assumption
    | ((with_reducible apply hX.after); exact rfl)
    | with_reducible apply State.inCore_fr
    | with_reducible apply State.lccAccept_fr
    | with_reducible apply State.lccAcked_fr
    | with_reducible apply State.setOptDir_fr
    | with_reducible apply State.remapStart_fr
    | (intro x)
    | (extract_lets +onlyGivenNames x; first
        | (refine Fr.cut_fn3 (X := X) (s0 := s0) (f := x) ?_ (fun hx => ?_); (on_goal 2 => clear_value x); (on_goal 1 => (unfold x; clear x)))
        | clear_value x)
    | split
    | with_reducible apply_assumption -exfalso -symm

theorem execLccTxAlias_fr {X : Nat} {s0 : State} {a0 : ℕ} {a1 : ℕ} {a2 : ℕ} {s : State} (h : Fr X s0 s) (hX : Sub 0x3c30fd704b0cc0 X) {t : State}
    (ht : execLccTxAlias a0 a1 a2 s = .next t) : Fr X s0 t := by
  unfold execLccTxAlias at ht
  obtain rfl := Host.Outcome.next.inj ht
  repeat' first
    | with_reducible assumption
    | ((with_reducible apply hX.after); exact rfl)
    | with_reducible apply State.inPool_fr
    | with_reducible apply State.lccAccept_fr
    | with_reducible apply State.seekSpare_fr
    | with_reducible apply State.setFlag_fr
    | with_reducible apply State.setFld_fr
    | with_reducible apply State.bump_fr
    | (intro x)
    | (extract_lets +onlyGivenNames x; clear_value x)
    | split
    | ((with_reducible apply hX.ok); exact rfl)

theorem execLccCalDone_fr {X : Nat} {s0 : State} {a0 : ℕ} {a1 : ℕ} {a2 : ℕ} {s : State} (h : Fr X s0 s) (hX : Sub 0x8200000010000 X) {t : State}
    (ht : execLccCalDone a0 a1 a2 s = .next t) : Fr X s0 t := by
  unfold execLccCalDone at ht
  obtain rfl := Host.Outcome.next.inj ht
  repeat' first
    | with_reducible assumption
    | ((with_reducible apply hX.after); exact rfl)
    | with_reducible apply State.inCore_fr
    | with_reducible apply State.lccAccept_fr
    | with_reducible apply State.featherNext_fr
    | with_reducible apply State.onGrp_fr
    | (intro x)
    | split

theorem execLccResend_fr {X : Nat} {s0 : State} {a0 : ℕ} {s : State} (h : Fr X s0 s) (hX : Sub 0x8000000000000 X) {t : State}
    (ht : execLccResend a0 s = .next t) : Fr X s0 t := by
  unfold execLccResend at ht
  obtain rfl := Host.Outcome.next.inj ht
  repeat' first
    | with_reducible assumption
    | ((with_reducible apply hX.after); exact rfl)
    | with_reducible apply State.inCore_fr
    | with_reducible apply State.emit_fr
    | with_reducible apply Fr.foldl
    | (intro x)

theorem execRemapSwitch_fr {X : Nat} {s0 : State} {a0 : ℕ} {a1 : RemapSide} {s : State} (h : Fr X s0 s) (hX : Sub 0x3c30fd704b0cc0 X) {t : State}
    (ht : execRemapSwitch a0 a1 s = .next t) : Fr X s0 t := by
  unfold execRemapSwitch at ht
  obtain rfl := Host.Outcome.next.inj ht
  repeat' first
    | with_reducible assumption
    | ((with_reducible apply hX.after); exact rfl)
    | with_reducible apply State.inPool_fr
    | with_reducible apply State.remapSwitch_fr
    | (intro x)

theorem execLaneFrameReceive_fr {X : Nat} {s0 : State} {a0 : Option ℕ} {a1 : ℕ} {a2 : List ℕ} {a3 : ℕ} {s : State} (h : Fr X s0 s) (hX : Sub 0x3c30fd704b0cc0 X) {t : State}
    (ht : execLaneFrameReceive a0 a1 a2 a3 s = .next t) : Fr X s0 t := by
  unfold execLaneFrameReceive at ht
  obtain rfl := Host.Outcome.next.inj ht
  repeat' first
    | with_reducible assumption
    | ((with_reducible apply hX.after); exact rfl)
    | with_reducible apply State.inPool_fr
    | with_reducible apply State.laneFrame_fr
    | (intro x)

theorem execHeaterUpdate_fr {X : Nat} {s0 : State} {a0 : ℕ} {a1 : ℕ} {a2 : Bool} {a3 : ℕ} {a4 : ℕ} {s : State} (h : Fr X s0 s) (hX : Sub 0x3c30fd704b0cc0 X) {t : State}
    (ht : execHeaterUpdate a0 a1 a2 a3 a4 s = .next t) : Fr X s0 t := by
  unfold execHeaterUpdate at ht
  obtain rfl := Host.Outcome.next.inj ht
  repeat' first
    | with_reducible assumption
    | ((with_reducible apply hX.after); exact rfl)
    | with_reducible apply State.inPool_fr
    | with_reducible apply State.heater_fr
    | (intro x)

theorem execRingSweepDone_fr {X : Nat} {s0 : State} {a0 : ℕ} {a1 : ℕ} {a2 : Bool} {a3 : Bool} {a4 : ℕ} {s : State} (h : Fr X s0 s) (hX : Sub 0x3c30fd704b0cc0 X) {t : State}
    (ht : execRingSweepDone a0 a1 a2 a3 a4 s = .next t) : Fr X s0 t := by
  unfold execRingSweepDone at ht
  obtain rfl := Host.Outcome.next.inj ht
  repeat' first
    | with_reducible assumption
    | ((with_reducible apply hX.after); exact rfl)
    | with_reducible apply State.inPool_fr
    | with_reducible apply State.sweepDone_fr
    | (intro x)

theorem execFeatherStep_fr {X : Nat} {s0 : State} {a0 : ℕ} {s : State} (h : Fr X s0 s) (hX : Sub 0x200000010000 X) {t : State}
    (ht : execFeatherStep a0 s = .next t) : Fr X s0 t := by
  unfold execFeatherStep at ht
  obtain rfl := Host.Outcome.next.inj ht
  repeat' first
    | with_reducible assumption
    | ((with_reducible apply hX.after); exact rfl)
    | with_reducible apply State.inCore_fr
    | with_reducible apply State.featherStep_fr
    | (intro x)

theorem execFeatherCalDone_fr {X : Nat} {s0 : State} {a0 : ℕ} {a1 : Bool} {a2 : ℕ} {s : State} (h : Fr X s0 s) (hX : Sub 0x3c30fd704b0cc0 X) {t : State}
    (ht : execFeatherCalDone a0 a1 a2 s = .next t) : Fr X s0 t := by
  unfold execFeatherCalDone at ht
  obtain rfl := Host.Outcome.next.inj ht
  repeat' first
    | with_reducible assumption
    | ((with_reducible apply hX.after); exact rfl)
    | with_reducible apply State.inPool_fr
    | with_reducible apply State.featherCalDone_fr
    | (intro x)

theorem execWatchSample_fr {X : Nat} {s0 : State} {a0 : ℕ} {a1 : Bool} {s : State} (h : Fr X s0 s) (hX : Sub 0x3c20fd704b0cc0 X) {t : State}
    (ht : execWatchSample a0 a1 s = .next t) : Fr X s0 t := by
  unfold execWatchSample at ht
  obtain rfl := Host.Outcome.next.inj ht
  repeat' first
    | with_reducible assumption
    | ((with_reducible apply hX.after); exact rfl)
    | with_reducible apply State.inPool_fr
    | with_reducible apply State.groupAcquire_fr
    | with_reducible apply State.onGrp_fr
    | (intro x)
    | (extract_lets +onlyGivenNames x; clear_value x)
    | split

theorem execOptLaneClr_fr {X : Nat} {s0 : State} {a0 : View} {a1 : Word} {s : State} (h : Fr X s0 s) (hX : Sub 0x4010000 X) {t : State}
    (ht : execOptLaneClr a0 a1 s = .next t) : Fr X s0 t := by
  unfold execOptLaneClr at ht
  obtain rfl := Host.Outcome.next.inj ht
  repeat' first
    | with_reducible assumption
    | ((with_reducible apply hX.after); exact rfl)
    | with_reducible apply State.selClear_fr
    | with_reducible apply State.setReg_fr
    | with_reducible apply State.setFld_fr
    | (intro x)
    | (extract_lets +onlyGivenNames x; clear_value x)
    | split
    | ((with_reducible apply hX.ok); exact rfl)
    | (with_reducible apply Sub.key)

theorem execElnLaneClr_fr {X : Nat} {s0 : State} {a0 : View} {a1 : Word} {s : State} (h : Fr X s0 s) (hX : Sub 0x4020000 X) {t : State}
    (ht : execElnLaneClr a0 a1 s = .next t) : Fr X s0 t := by
  unfold execElnLaneClr at ht
  obtain rfl := Host.Outcome.next.inj ht
  repeat' first
    | with_reducible assumption
    | ((with_reducible apply hX.after); exact rfl)
    | with_reducible apply State.selClear_fr
    | with_reducible apply State.setFld_fr
    | (intro x)
    | ((with_reducible apply hX.ok); exact rfl)

theorem execElnTrainTimeout_fr {X : Nat} {s0 : State} {a0 : ℕ} {s : State} (h : Fr X s0 s) (hX : Sub 0x2c200470420000 X) {t : State}
    (ht : execElnTrainTimeout a0 s = .next t) : Fr X s0 t := by
  unfold execElnTrainTimeout at ht
  obtain rfl := Host.Outcome.next.inj ht
  repeat' first
    | with_reducible assumption
    | ((with_reducible apply hX.after); exact rfl)
    | with_reducible apply State.inCore_fr
    | with_reducible apply State.trainTimeout_fr
    | (intro x)

theorem execElnEnergyDetect_fr {X : Nat} {s0 : State} {a0 : ℕ} {a1 : Bool} {s : State} (h : Fr X s0 s) (hX : Sub 0x8200400420000 X) {t : State}
    (ht : execElnEnergyDetect a0 a1 s = .next t) : Fr X s0 t := by
  unfold execElnEnergyDetect at ht
  obtain rfl := Host.Outcome.next.inj ht
  repeat' first
    | with_reducible assumption
    | ((with_reducible apply hX.after); exact rfl)
    | with_reducible apply State.inCore_fr
    | with_reducible apply State.energy_fr
    | (intro x)

theorem State.collStart_fr {X : Nat} {s0 : State} {s : State} {a1 : Op} (h : Fr X s0 s) (hX : Sub 0x3c00d970000cc0 X) :
    Fr X s0 (State.collStart s a1) := by
  unfold State.collStart
  repeat' first
    | with_reducible assumption
    | ((with_reducible apply hX.after); exact rfl)
    | with_reducible apply State.finish_fr
    | with_reducible apply State.markDone_fr
    | with_reducible apply State.endOp_fr
    | with_reducible apply State.collSettle_fr
    | with_reducible apply State.setCollOp_fr
    | (extract_lets +onlyGivenNames x; clear_value x)
    | split

theorem State.collCancel_fr {X : Nat} {s0 : State} {s : State} {a1 : Op} (h : Fr X s0 s) (hX : Sub 0x3c00d970000cc0 X) :
    Fr X s0 (State.collCancel s a1) := by
  unfold State.collCancel
  repeat' first
    | with_reducible assumption
    | ((with_reducible apply hX.after); exact rfl)
    | with_reducible apply State.collEnd_fr
    | with_reducible apply State.finish_fr
    | split

theorem State.collCode_fr {X : Nat} {s0 : State} {s : State} {a1 : OpKey} {a2 : ℕ} {a3 : Op → State → State} (h : Fr X s0 s) (hf0 : ∀ x0 x1, Fr X s0 x1 → Fr X s0 (a3 x0 x1)) (hX : Sub 0x40000000 X) :
    Fr X s0 (State.collCode s a1 a2 a3) := by
  unfold State.collCode
  repeat' first
    | with_reducible assumption
    | with_reducible apply State.start_fr

theorem State.areaFault_fr {X : Nat} {s0 : State} {s : State} {a1 : CollOp} {a2 : ℕ} {a3 : ℕ} {a4 : Bool} (h : Fr X s0 s) (hX : Sub 0x3c00d970000cc0 X) :
    Fr X s0 (State.areaFault s a1 a2 a3 a4) := by
  unfold State.areaFault
  repeat' first
    | with_reducible assumption
    | ((with_reducible apply hX.after); exact rfl)
    | with_reducible apply State.collEnd_fr
    | with_reducible apply State.mmuFault_fr
    | with_reducible apply State.setCollOp_fr
    | (extract_lets +onlyGivenNames x; (refine Fr.cut (X := X) (s0 := s0) (s := x) ?_ (fun hx => ?_); (on_goal 2 => clear_value x); (on_goal 1 => (unfold x; clear x))))
    | split

theorem State.spillDone_fr {X : Nat} {s0 : State} {s : State} {a1 : ℕ} {a2 : ℕ} {a3 : ℕ} (h : Fr X s0 s) (hX : Sub 0x3c00d970000cc0 X) :
    Fr X s0 (State.spillDone s a1 a2 a3) := by
  unfold State.spillDone
  repeat' first
    | with_reducible assumption
    | ((with_reducible apply hX.after); exact rfl)
    | with_reducible apply State.areaFault_fr
    | with_reducible apply State.freshBytes_fr
    | with_reducible apply State.collSettle_fr
    | with_reducible apply State.collClose_fr
    | with_reducible apply State.colCount_fr
    | with_reducible apply State.setCollOp_fr
    | with_reducible apply State.dvaWrite_fr
    | with_reducible refine Fr.of_snd (by assumption) ?_
    | (extract_lets +onlyGivenNames x; first
        | (refine Fr.cut (X := X) (s0 := s0) (s := x) ?_ (fun hx => ?_); (on_goal 2 => clear_value x); (on_goal 1 => (unfold x; clear x)))
        | clear_value x)
    | split

theorem State.restoreDone_fr {X : Nat} {s0 : State} {s : State} {a1 : ℕ} {a2 : ℕ} {a3 : ℕ} {a4 : MemRead} (h : Fr X s0 s) (hX : Sub 0x3c10d970000cd0 X) :
    Fr X s0 (State.restoreDone s a1 a2 a3 a4) := by
  unfold State.restoreDone
  repeat' first
    | with_reducible assumption
    | ((with_reducible apply hX.after); exact rfl)
    | with_reducible apply State.areaFault_fr
    | with_reducible apply State.dvaGet_fr
    | with_reducible apply State.collEnd_fr
    | with_reducible apply State.collSettle_fr
    | with_reducible apply State.colCount_fr
    | with_reducible apply State.setCollOp_fr
    | with_reducible refine Fr.of_snd (by assumption) ?_
    | (extract_lets +onlyGivenNames x; clear_value x)
    | split

theorem execSettFree_fr {X : Nat} {s0 : State} {a0 : ℕ} {s : State} (h : Fr X s0 s) (hX : Sub 0x3c00d970000cc0 X) {t : State}
    (ht : execSettFree a0 s = .next t) : Fr X s0 t := by
  unfold execSettFree at ht
  obtain rfl := Host.Outcome.next.inj ht
  repeat' first
    | with_reducible assumption
    | ((with_reducible apply hX.after); exact rfl)
    | with_reducible apply State.inPool_fr
    | with_reducible apply State.settFree_fr
    | (intro x)
    | split

theorem execPacketIngress_fr {X : Nat} {s0 : State} {a0 : ℕ} {a1 : Bytes} {s : State} (h : Fr X s0 s) (hX : Sub 0x3c30f970080dc0 X) {t : State}
    (ht : execPacketIngress a0 a1 s = .next t) : Fr X s0 t := by
  unfold execPacketIngress at ht
  obtain rfl := Host.Outcome.next.inj ht
  repeat' first
    | with_reducible assumption
    | ((with_reducible apply hX.after); exact rfl)
    | with_reducible apply State.inPool_fr
    | with_reducible apply State.portFrame_fr
    | (intro x)
    | split

theorem execPacketDepart_fr {X : Nat} {s0 : State} {a0 : Departure} {s : State} (h : Fr X s0 s) (hX : Sub 0x3c08f970281fc0 X) {t : State}
    (ht : execPacketDepart a0 s = .next t) : Fr X s0 t := by
  unfold execPacketDepart at ht
  obtain rfl := Host.Outcome.next.inj ht
  repeat' first
    | with_reducible assumption
    | ((with_reducible apply hX.after); exact rfl)
    | with_reducible apply State.inPool_fr
    | with_reducible apply State.depart_fr
    | (intro x)
    | split

theorem execMcAge_fr {X : Nat} {s0 : State} {a0 : ℕ} {s : State} (h : Fr X s0 s) (hX : Sub 0x3c00d970000cc0 X) {t : State}
    (ht : execMcAge a0 s = .next t) : Fr X s0 t := by
  unfold execMcAge at ht
  obtain rfl := Host.Outcome.next.inj ht
  repeat' first
    | with_reducible assumption
    | ((with_reducible apply hX.after); exact rfl)
    | with_reducible apply State.inPool_fr
    | with_reducible apply State.mcAge_fr
    | (intro x)

theorem execLlrInit_fr {X : Nat} {s0 : State} {a0 : ℕ} {s : State} (h : Fr X s0 s) (hX : Sub 0x3c00d970000cc0 X) {t : State}
    (ht : execLlrInit a0 s = .next t) : Fr X s0 t := by
  unfold execLlrInit at ht
  obtain rfl := Host.Outcome.next.inj ht
  repeat' first
    | with_reducible assumption
    | ((with_reducible apply hX.after); exact rfl)
    | with_reducible apply State.inPool_fr
    | with_reducible apply State.llrInit_fr
    | (intro x)

theorem execLlrFrameReceive_fr {X : Nat} {s0 : State} {a0 : ℕ} {a1 : ℕ} {a2 : Bytes} {s : State} (h : Fr X s0 s) (hX : Sub 0x3c30f970080fc0 X) {t : State}
    (ht : execLlrFrameReceive a0 a1 a2 s = .next t) : Fr X s0 t := by
  unfold execLlrFrameReceive at ht
  obtain rfl := Host.Outcome.next.inj ht
  repeat' first
    | with_reducible assumption
    | ((with_reducible apply hX.after); exact rfl)
    | with_reducible apply State.inPool_fr
    | with_reducible apply State.llrFrame_fr
    | (intro x)

theorem execLlrAck_fr {X : Nat} {s0 : State} {a0 : ℕ} {a1 : ℕ} {a2 : ℕ} {s : State} (h : Fr X s0 s) (hX : Sub 0x3c00d970000cc0 X) {t : State}
    (ht : execLlrAck a0 a1 a2 s = .next t) : Fr X s0 t := by
  unfold execLlrAck at ht
  obtain rfl := Host.Outcome.next.inj ht
  repeat' first
    | with_reducible assumption
    | ((with_reducible apply hX.after); exact rfl)
    | with_reducible apply State.inPool_fr
    | with_reducible apply State.llrFar_fr
    | with_reducible apply State.llrRelease_fr
    | (intro x)
    | split

theorem execLlrNak_fr {X : Nat} {s0 : State} {a0 : ℕ} {a1 : ℕ} {a2 : ℕ} {s : State} (h : Fr X s0 s) (hX : Sub 0x3c10fd704b0ec0 X) {t : State}
    (ht : execLlrNak a0 a1 a2 s = .next t) : Fr X s0 t := by
  unfold execLlrNak at ht
  obtain rfl := Host.Outcome.next.inj ht
  repeat' first
    | with_reducible assumption
    | ((with_reducible apply hX.after); exact rfl)
    | with_reducible apply State.inPool_fr
    | with_reducible apply State.llrReplay_fr
    | with_reducible apply State.llrFar_fr
    | with_reducible apply State.llrRelease_fr
    | (intro x)
    | split

theorem execLlrTimeout_fr {X : Nat} {s0 : State} {a0 : ℕ} {s : State} (h : Fr X s0 s) (hX : Sub 0x3c10fd704b0ec0 X) {t : State}
    (ht : execLlrTimeout a0 s = .next t) : Fr X s0 t := by
  unfold execLlrTimeout at ht
  obtain rfl := Host.Outcome.next.inj ht
  repeat' first
    | with_reducible assumption
    | ((with_reducible apply hX.after); exact rfl)
    | with_reducible apply State.inPool_fr
    | with_reducible apply State.llrReplay_fr
    | (intro x)
    | split

theorem execTransportSend_fr {X : Nat} {s0 : State} {a0 : ℕ} {s : State} (h : Fr X s0 s) (hX : Sub 0x3c00d970000cc0 X) {t : State}
    (ht : execTransportSend a0 s = .next t) : Fr X s0 t := by
  unfold execTransportSend at ht
  obtain rfl := Host.Outcome.next.inj ht
  repeat' first
    | with_reducible assumption
    | ((with_reducible apply hX.after); exact rfl)
    | with_reducible apply State.inPool_fr
    | with_reducible apply State.transportSend_fr
    | (intro x)

theorem execAckDelayExpire_fr {X : Nat} {s0 : State} {a0 : ℕ} {s : State} (h : Fr X s0 s) (hX : Sub 0x3c00d970000cc0 X) {t : State}
    (ht : execAckDelayExpire a0 s = .next t) : Fr X s0 t := by
  unfold execAckDelayExpire at ht
  obtain rfl := Host.Outcome.next.inj ht
  repeat' first
    | with_reducible assumption
    | ((with_reducible apply hX.after); exact rfl)
    | with_reducible apply State.inPool_fr
    | with_reducible apply State.sendAck_fr
    | (intro x)
    | split

theorem execNotYetBackoff_fr {X : Nat} {s0 : State} {a0 : ℕ} {a1 : ℕ} {s : State} (h : Fr X s0 s) (hX : Sub 0x3c00d970000ec0 X) {t : State}
    (ht : execNotYetBackoff a0 a1 s = .next t) : Fr X s0 t := by
  unfold execNotYetBackoff at ht
  obtain rfl := Host.Outcome.next.inj ht
  repeat' first
    | with_reducible assumption
    | ((with_reducible apply hX.after); exact rfl)
    | with_reducible apply State.inPool_fr
    | with_reducible apply State.resend_fr
    | (intro x)
    | split

theorem State.rxLost_fr {X : Nat} {s0 : State} {s : State} {a1 : ℕ} {a2 : Bytes} {a3 : List ℕ} (h : Fr X s0 s) (hX : Sub 0x3c10d970004ec0 X) :
    Fr X s0 (State.rxLost s a1 a2 a3) := by
  unfold State.rxLost
  repeat' first
    | with_reducible assumption
    | ((with_reducible apply hX.after); exact rfl)
    | with_reducible apply State.collEnd_fr
    | with_reducible apply State.settFrees_fr
    | with_reducible apply State.rxAny_fr
    | split

theorem execTransportDataReceive_fr {X : Nat} {s0 : State} {a0 : ℕ} {a1 : RxData} {s : State} (h : Fr X s0 s) (hX : Sub 0x3c10d970004ec0 X) {t : State}
    (ht : execTransportDataReceive a0 a1 s = .next t) : Fr X s0 t := by
  unfold execTransportDataReceive at ht
  obtain rfl := Host.Outcome.next.inj ht
  repeat' first
    | with_reducible assumption
    | ((with_reducible apply hX.after); exact rfl)
    | with_reducible apply State.inPool_fr
    | with_reducible apply State.rxDatagram_fr
    | with_reducible apply State.rxLost_fr
    | with_reducible apply State.rxAny_fr
    | (intro x)
    | split

theorem execTransportAckReceive_fr {X : Nat} {s0 : State} {a0 : ℕ} {a1 : Bytes} {s : State} (h : Fr X s0 s) (hX : Sub 0x3c00d970000ec0 X) {t : State}
    (ht : execTransportAckReceive a0 a1 s = .next t) : Fr X s0 t := by
  unfold execTransportAckReceive at ht
  obtain rfl := Host.Outcome.next.inj ht
  repeat' first
    | with_reducible assumption
    | ((with_reducible apply hX.after); exact rfl)
    | with_reducible apply State.inPool_fr
    | with_reducible apply State.rxDatagram_fr
    | with_reducible apply State.rxAck_fr
    | (intro x)

theorem execCollNotYet_fr {X : Nat} {s0 : State} {a0 : ℕ} {a1 : Bytes} {s : State} (h : Fr X s0 s) (hX : Sub 0x3c00d970004ec0 X) {t : State}
    (ht : execCollNotYet a0 a1 s = .next t) : Fr X s0 t := by
  unfold execCollNotYet at ht
  obtain rfl := Host.Outcome.next.inj ht
  repeat' first
    | with_reducible assumption
    | ((with_reducible apply hX.after); exact rfl)
    | with_reducible apply State.inPool_fr
    | with_reducible apply State.rxDatagram_fr
    | with_reducible apply State.rxCtrl_fr
    | (intro x)

theorem execCollChunkDone_fr {X : Nat} {s0 : State} {a0 : ℕ} {a1 : Bytes} {s : State} (h : Fr X s0 s) (hX : Sub 0x3c00d970004ec0 X) {t : State}
    (ht : execCollChunkDone a0 a1 s = .next t) : Fr X s0 t := by
  unfold execCollChunkDone at ht
  obtain rfl := Host.Outcome.next.inj ht
  repeat' first
    | with_reducible assumption
    | ((with_reducible apply hX.after); exact rfl)
    | with_reducible apply State.inPool_fr
    | with_reducible apply State.rxDatagram_fr
    | with_reducible apply State.rxCtrl_fr
    | (intro x)

theorem execCollResult_fr {X : Nat} {s0 : State} {a0 : ℕ} {a1 : Bytes} {s : State} (h : Fr X s0 s) (hX : Sub 0x3c00d970004ec0 X) {t : State}
    (ht : execCollResult a0 a1 s = .next t) : Fr X s0 t := by
  unfold execCollResult at ht
  obtain rfl := Host.Outcome.next.inj ht
  repeat' first
    | with_reducible assumption
    | ((with_reducible apply hX.after); exact rfl)
    | with_reducible apply State.inPool_fr
    | with_reducible apply State.rxDatagram_fr
    | with_reducible apply State.rxCtrl_fr
    | (intro x)

theorem execCollQuery_fr {X : Nat} {s0 : State} {a0 : ℕ} {a1 : Bytes} {s : State} (h : Fr X s0 s) (hX : Sub 0x3c00d970004ec0 X) {t : State}
    (ht : execCollQuery a0 a1 s = .next t) : Fr X s0 t := by
  unfold execCollQuery at ht
  obtain rfl := Host.Outcome.next.inj ht
  repeat' first
    | with_reducible assumption
    | ((with_reducible apply hX.after); exact rfl)
    | with_reducible apply State.inPool_fr
    | with_reducible apply State.rxDatagram_fr
    | with_reducible apply State.rxCtrl_fr
    | (intro x)

theorem execCollGone_fr {X : Nat} {s0 : State} {a0 : ℕ} {a1 : Bytes} {s : State} (h : Fr X s0 s) (hX : Sub 0x3c00d970004ec0 X) {t : State}
    (ht : execCollGone a0 a1 s = .next t) : Fr X s0 t := by
  unfold execCollGone at ht
  obtain rfl := Host.Outcome.next.inj ht
  repeat' first
    | with_reducible assumption
    | ((with_reducible apply hX.after); exact rfl)
    | with_reducible apply State.inPool_fr
    | with_reducible apply State.rxDatagram_fr
    | with_reducible apply State.rxCtrl_fr
    | (intro x)

theorem execQueryTimer_fr {X : Nat} {s0 : State} {a0 : ℕ} {a1 : ℕ} {a2 : ℕ} {s : State} (h : Fr X s0 s) (hX : Sub 0x3c00d970000cc0 X) {t : State}
    (ht : execQueryTimer a0 a1 a2 s = .next t) : Fr X s0 t := by
  unfold execQueryTimer at ht
  obtain rfl := Host.Outcome.next.inj ht
  repeat' first
    | with_reducible assumption
    | with_reducible apply State.inPool_fr
    | with_reducible apply State.queryTimer_fr
    | (intro x)

theorem execSpillDone_fr {X : Nat} {s0 : State} {a0 : ℕ} {a1 : ℕ} {a2 : ℕ} {s : State} (h : Fr X s0 s) (hX : Sub 0x3c00d970000cc0 X) {t : State}
    (ht : execSpillDone a0 a1 a2 s = .next t) : Fr X s0 t := by
  unfold execSpillDone at ht
  obtain rfl := Host.Outcome.next.inj ht
  repeat' first
    | with_reducible assumption
    | with_reducible apply State.inPool_fr
    | with_reducible apply State.spillDone_fr
    | (intro x)

theorem execRestoreDone_fr {X : Nat} {s0 : State} {a0 : ℕ} {a1 : ℕ} {a2 : ℕ} {a3 : MemRead} {s : State} (h : Fr X s0 s) (hX : Sub 0x3c10d970000cd0 X) {t : State}
    (ht : execRestoreDone a0 a1 a2 a3 s = .next t) : Fr X s0 t := by
  unfold execRestoreDone at ht
  obtain rfl := Host.Outcome.next.inj ht
  repeat' first
    | with_reducible assumption
    | ((with_reducible apply hX.after); exact rfl)
    | with_reducible apply State.inPool_fr
    | with_reducible apply State.restoreDone_fr
    | (intro x)

theorem execCollAllreduce_fr {X : Nat} {s0 : State} {a0 : OpKey} {s : State} (h : Fr X s0 s) (hX : Sub 0x3c00d970000cc0 X) {t : State}
    (ht : execCollAllreduce a0 s = .next t) : Fr X s0 t := by
  unfold execCollAllreduce at ht
  obtain rfl := Host.Outcome.next.inj ht
  repeat' first
    | with_reducible assumption
    | ((with_reducible apply hX.after); exact rfl)
    | with_reducible apply State.pooled_fr
    | with_reducible apply State.collCode_fr
    | with_reducible apply State.collStart_fr
    | (intro x)

theorem execCollReduceScatter_fr {X : Nat} {s0 : State} {a0 : OpKey} {s : State} (h : Fr X s0 s) (hX : Sub 0x3c00d970000cc0 X) {t : State}
    (ht : execCollReduceScatter a0 s = .next t) : Fr X s0 t := by
  unfold execCollReduceScatter at ht
  obtain rfl := Host.Outcome.next.inj ht
  repeat' first
    | with_reducible assumption
    | ((with_reducible apply hX.after); exact rfl)
    | with_reducible apply State.pooled_fr
    | with_reducible apply State.collCode_fr
    | with_reducible apply State.collStart_fr
    | (intro x)

theorem execCollReduce_fr {X : Nat} {s0 : State} {a0 : OpKey} {s : State} (h : Fr X s0 s) (hX : Sub 0x3c00d970000cc0 X) {t : State}
    (ht : execCollReduce a0 s = .next t) : Fr X s0 t := by
  unfold execCollReduce at ht
  obtain rfl := Host.Outcome.next.inj ht
  repeat' first
    | with_reducible assumption
    | ((with_reducible apply hX.after); exact rfl)
    | with_reducible apply State.pooled_fr
    | with_reducible apply State.collCode_fr
    | with_reducible apply State.collStart_fr
    | (intro x)

theorem execCollBroadcast_fr {X : Nat} {s0 : State} {a0 : OpKey} {s : State} (h : Fr X s0 s) (hX : Sub 0x3c00d970000cc0 X) {t : State}
    (ht : execCollBroadcast a0 s = .next t) : Fr X s0 t := by
  unfold execCollBroadcast at ht
  obtain rfl := Host.Outcome.next.inj ht
  repeat' first
    | with_reducible assumption
    | ((with_reducible apply hX.after); exact rfl)
    | with_reducible apply State.pooled_fr
    | with_reducible apply State.collCode_fr
    | with_reducible apply State.collStart_fr
    | (intro x)

theorem execCollShift_fr {X : Nat} {s0 : State} {a0 : OpKey} {s : State} (h : Fr X s0 s) (hX : Sub 0x3c00d970000cc0 X) {t : State}
    (ht : execCollShift a0 s = .next t) : Fr X s0 t := by
  unfold execCollShift at ht
  obtain rfl := Host.Outcome.next.inj ht
  repeat' first
    | with_reducible assumption
    | ((with_reducible apply hX.after); exact rfl)
    | with_reducible apply State.pooled_fr
    | with_reducible apply State.collCode_fr
    | with_reducible apply State.collStart_fr
    | (intro x)

theorem execCollPermute_fr {X : Nat} {s0 : State} {a0 : OpKey} {s : State} (h : Fr X s0 s) (hX : Sub 0x3c00d970000cc0 X) {t : State}
    (ht : execCollPermute a0 s = .next t) : Fr X s0 t := by
  unfold execCollPermute at ht
  obtain rfl := Host.Outcome.next.inj ht
  repeat' first
    | with_reducible assumption
    | ((with_reducible apply hX.after); exact rfl)
    | with_reducible apply State.pooled_fr
    | with_reducible apply State.collCode_fr
    | with_reducible apply State.collStart_fr
    | (intro x)

theorem execCollCancel_fr {X : Nat} {s0 : State} {a0 : OpKey} {s : State} (h : Fr X s0 s) (hX : Sub 0x3c00d970000cc0 X) {t : State}
    (ht : execCollCancel a0 s = .next t) : Fr X s0 t := by
  unfold execCollCancel at ht
  obtain rfl := Host.Outcome.next.inj ht
  repeat' first
    | with_reducible assumption
    | ((with_reducible apply hX.after); exact rfl)
    | with_reducible apply State.pooled_fr
    | with_reducible apply State.collCode_fr
    | with_reducible apply State.collCancel_fr
    | (intro x)

theorem execColStatClr_fr {X : Nat} {s0 : State} {a0 : View} {a1 : Word} {s : State} (h : Fr X s0 s) (hX : Sub 0x4000800 X) {t : State}
    (ht : execColStatClr a0 a1 s = .next t) : Fr X s0 t := by
  unfold execColStatClr at ht
  obtain rfl := Host.Outcome.next.inj ht
  repeat' first
    | with_reducible assumption
    | ((with_reducible apply hX.after); exact rfl)
    | with_reducible apply State.selClear_fr
    | with_reducible apply State.setFld_fr
    | ((with_reducible apply hX.ok); exact rfl)
    | (intro x)

theorem execColLateClr_fr {X : Nat} {s0 : State} {a0 : View} {a1 : Word} {s : State} (h : Fr X s0 s) (hX : Sub 0x8004000800 X) {t : State}
    (ht : execColLateClr a0 a1 s = .next t) : Fr X s0 t := by
  unfold execColLateClr at ht
  obtain rfl := Host.Outcome.next.inj ht
  repeat' first
    | with_reducible assumption
    | ((with_reducible apply hX.after); exact rfl)
    | with_reducible apply State.selClear_fr
    | with_reducible apply State.onCol_fr
    | ((with_reducible apply hX.ok); exact rfl)
    | (intro x)

theorem execBenNumClr_fr {X : Nat} {s0 : State} {a0 : View} {a1 : Word} {s : State} (h : Fr X s0 s) (hX : Sub 0x4000400 X) {t : State}
    (ht : execBenNumClr a0 a1 s = .next t) : Fr X s0 t := by
  unfold execBenNumClr at ht
  obtain rfl := Host.Outcome.next.inj ht
  repeat' first
    | with_reducible assumption
    | ((with_reducible apply hX.after); exact rfl)
    | with_reducible apply State.selClear_fr
    | with_reducible apply State.setFld_fr
    | ((with_reducible apply hX.ok); exact rfl)
    | (intro x)

theorem State.onAsh_fr {X : Nat} {s0 : State} {s : State} {a1 : AshState → AshState} (h : Fr X s0 s) (hX : Sub 0x40000000000 X) :
    Fr X s0 (State.onAsh s a1) := by
  unfold State.onAsh
  exact Fr.ash_ h (hX.bit rfl)

theorem State.setTable_fr {X : Nat} {s0 : State} {s : State} {a1 : ℕ} {a2 : ℕ} {a3 : CodeTable} (h : Fr X s0 s) (hX : Sub 0x40000000000 X) :
    Fr X s0 (State.setTable s a1 a2 a3) := by
  unfold State.setTable
  repeat' first
    | with_reducible assumption
    | with_reducible apply State.onAsh_fr

theorem State.ashCount_fr {X : Nat} {s0 : State} {s : State} {a1 : ℕ} {a2 : ℕ} (h : Fr X s0 s) (hX : Sub 0x4000 X) :
    Fr X s0 (State.ashCount s a1 a2) := by
  unfold State.ashCount
  repeat' first
    | with_reducible assumption
    | with_reducible apply State.bump_fr
    | ((with_reducible apply hX.ok); exact rfl)

theorem State.tableDrop_fr {X : Nat} {s0 : State} {s : State} {a1 : ℕ} {a2 : ℕ} (h : Fr X s0 s) (hX : Sub 0x40000000000 X) :
    Fr X s0 (State.tableDrop s a1 a2) := by
  unfold State.tableDrop
  repeat' first
    | with_reducible assumption
    | with_reducible apply State.setTable_fr

theorem State.codeTableDie_fr {X : Nat} {s0 : State} {s : State} {a1 : ℕ} {a2 : Bytes} {a3 : ℕ} (h : Fr X s0 s) (hX : Sub 0x40000004000 X) :
    Fr X s0 (State.codeTableDie s a1 a2 a3) := by
  unfold State.codeTableDie
  repeat' first
    | with_reducible assumption
    | ((with_reducible apply hX.after); exact rfl)
    | with_reducible apply State.setTable_fr
    | with_reducible apply State.ashCount_fr
    | (extract_lets +onlyGivenNames x; clear_value x)
    | split

theorem State.codeTable_fr {X : Nat} {s0 : State} {s : State} {a1 : Op} {a2 : Option Bytes} (h : Fr X s0 s) (hX : Sub 0x40040004000 X) :
    Fr X s0 (State.codeTable s a1 a2) := by
  unfold State.codeTable
  repeat' first
    | with_reducible assumption
    | ((with_reducible apply hX.after); exact rfl)
    | with_reducible apply State.finish_fr
    | with_reducible apply State.codeTableDie_fr
    | with_reducible apply Fr.foldl
    | (intro x)
    | (extract_lets +onlyGivenNames x; clear_value x)
    | split

theorem State.blockRefused_fr {X : Nat} {s0 : State} {s : State} {a1 : ℕ} {a2 : ℕ} {a3 : ℕ} {a4 : ℕ} (h : Fr X s0 s) (hX : Sub 0x2c000030004000 X) :
    Fr X s0 (State.blockRefused s a1 a2 a3 a4) := by
  unfold State.blockRefused
  repeat' first
    | with_reducible assumption
    | ((with_reducible apply hX.after); exact rfl)
    | with_reducible apply State.record_fr
    | with_reducible apply State.ashCount_fr
    | (extract_lets +onlyGivenNames x; (refine Fr.cut (X := X) (s0 := s0) (s := x) ?_ (fun hx => ?_); (on_goal 2 => clear_value x); (on_goal 1 => (unfold x; clear x))))
    | split

theorem State.blockAccept_fr {X : Nat} {s0 : State} {s : State} {a1 : ℕ} {a2 : QBlock} (h : Fr X s0 s) (hX : Sub 0x40000000000 X) :
    Fr X s0 (State.blockAccept s a1 a2) := by
  unfold State.blockAccept
  repeat' first
    | with_reducible assumption
    | with_reducible apply State.onAsh_fr
    | with_reducible apply State.setTable_fr

theorem State.blocksDrop_fr {X : Nat} {s0 : State} {s : State} {a1 : Consumer} (h : Fr X s0 s) (hX : Sub 0x40000000000 X) :
    Fr X s0 (State.blocksDrop s a1) := by
  unfold State.blocksDrop
  repeat' first
    | with_reducible assumption
    | with_reducible apply State.onAsh_fr
    | with_reducible apply State.tableDrop_fr
    | with_reducible apply Fr.foldl
    | (intro x)
    | (extract_lets +onlyGivenNames x; first
        | (refine Fr.cut (X := X) (s0 := s0) (s := x) ?_ (fun hx => ?_); (on_goal 2 => clear_value x); (on_goal 1 => (unfold x; clear x)))
        | clear_value x)
    | split

theorem State.rubbleSeen_fr {X : Nat} {s0 : State} {s : State} {a1 : ℕ} {a2 : QBlock} (h : Fr X s0 s) (hX : Sub 0x2c040030004000 X) :
    Fr X s0 (State.rubbleSeen s a1 a2).2 := by
  unfold State.rubbleSeen
  repeat' first
    | with_reducible assumption
    | ((with_reducible apply hX.after); exact rfl)
    | with_reducible apply State.record_fr
    | with_reducible apply State.ashCount_fr
    | with_reducible apply State.onAsh_fr
    | (extract_lets +onlyGivenNames x; first
        | (refine Fr.cut (X := X) (s0 := s0) (s := x) ?_ (fun hx => ?_); (on_goal 2 => clear_value x); (on_goal 1 => (unfold x; clear x)))
        | clear_value x)
    | split

theorem State.expandHead_fr {X : Nat} {s0 : State} {s : State} {a1 : ℕ} (h : Fr X s0 s) (hX : Sub 0x2c040030004000 X) {r q} {t : State}
    (ht : State.expandHead s a1 = some (r, q, t)) : Fr X s0 t := by
  revert ht
  unfold State.expandHead
  repeat' first
    | with_reducible assumption
    | ((with_reducible apply hX.after); exact rfl)
    | with_reducible apply State.rubbleSeen_fr
    | with_reducible apply State.ashCount_fr
    | with_reducible apply State.tableDrop_fr
    | with_reducible apply State.onAsh_fr
    | with_reducible refine Fr.of_snd (by assumption) ?_
    | (extract_lets +onlyGivenNames x; first
        | (refine Fr.cut (X := X) (s0 := s0) (s := x) ?_ (fun hx => ?_); (on_goal 2 => clear_value x); (on_goal 1 => (unfold x; clear x)))
        | clear_value x)
    | split
    | (refine fun (ht : _ = _) => ?_; first | (cases ht; done) | cases ht | (revert ht; split) | skip)

theorem execCodeTable_fr {X : Nat} {s0 : State} {a0 : OpKey} {a1 : Option Bytes} {s : State} (h : Fr X s0 s) (hX : Sub 0x40040004000 X) {t : State}
    (ht : execCodeTable a0 a1 s = .next t) : Fr X s0 t := by
  unfold execCodeTable at ht
  obtain rfl := Host.Outcome.next.inj ht
  repeat' first
    | with_reducible assumption
    | ((with_reducible apply hX.after); exact rfl)
    | with_reducible apply State.mgmtPF_fr
    | with_reducible apply State.codeTable_fr
    | (intro x)

theorem execAshStatClr_fr {X : Nat} {s0 : State} {a0 : View} {a1 : Word} {s : State} (h : Fr X s0 s) (hX : Sub 0x4004000 X) {t : State}
    (ht : execAshStatClr a0 a1 s = .next t) : Fr X s0 t := by
  unfold execAshStatClr at ht
  obtain rfl := Host.Outcome.next.inj ht
  repeat' first
    | with_reducible assumption
    | ((with_reducible apply hX.after); exact rfl)
    | with_reducible apply State.selClear_fr
    | with_reducible apply State.setFld_fr
    | ((with_reducible apply hX.ok); exact rfl)
    | (intro x)

theorem State.onTfb_fr {X : Nat} {s0 : State} {s : State} {a1 : TfbState → TfbState} (h : Fr X s0 s) (hX : Sub 0x20000000000 X) :
    Fr X s0 (State.onTfb s a1) := by
  unfold State.onTfb
  exact Fr.tfb_ h (hX.bit rfl)

theorem State.setTctx_fr {X : Nat} {s0 : State} {s : State} {a1 : ℕ} {a2 : TCtx} (h : Fr X s0 s) (hX : Sub 0x20000000000 X) :
    Fr X s0 (State.setTctx s a1 a2) := by
  unfold State.setTctx
  repeat' first
    | with_reducible assumption
    | with_reducible apply State.onTfb_fr

theorem State.tfbCount_fr {X : Nat} {s0 : State} {s : State} {a1 : TCtx} {a2 : ℕ} (h : Fr X s0 s) (hX : Sub 0x2000 X) :
    Fr X s0 (State.tfbCount s a1 a2) := by
  unfold State.tfbCount
  repeat' first
    | with_reducible assumption
    | with_reducible apply State.bump_fr
    | with_reducible apply Fr.foldl
    | (intro x)
    | ((with_reducible apply hX.ok); exact rfl)

theorem State.runOn_fr {X : Nat} {s0 : State} {s : State} {a1 : ℕ} (h : Fr X s0 s) (hX : Sub 0x20000000000 X) :
    Fr X s0 (State.runOn s a1) := by
  unfold State.runOn
  repeat' first
    | with_reducible assumption
    | with_reducible apply State.setTctx_fr

theorem State.takeUnits_fr {X : Nat} {s0 : State} {s : State} {a1 : ℕ} {a2 : ℕ} {a3 : ℕ} (h : Fr X s0 s) (hX : Sub 0x4000000000000 X) :
    Fr X s0 (State.takeUnits s a1 a2 a3).2 := by
  unfold State.takeUnits
  repeat' first
    | with_reducible assumption
    | with_reducible apply State.fresh_fr

theorem State.wakeUnit_fr {X : Nat} {s0 : State} {s : State} {a1 : ℕ} {a2 : ℕ} {a3 : ℕ} (h : Fr X s0 s) (hX : Sub 0x400400000 X) :
    Fr X s0 (State.wakeUnit s a1 a2 a3) := by
  unfold State.wakeUnit
  repeat' first
    | with_reducible assumption
    | with_reducible apply State.setFld_fr
    | with_reducible apply State.bump_fr
    | (with_reducible apply Fr.power_; (on_goal 1 => (first | with_reducible assumption | with_reducible apply State.setFld_fr | with_reducible apply State.bump_fr | with_reducible refine Fr.of_snd (by assumption) ?_)))
    | (extract_lets +onlyGivenNames x; first
        | (refine Fr.cut (X := X) (s0 := s0) (s := x) ?_ (fun hx => ?_); (on_goal 2 => clear_value x); (on_goal 1 => (unfold x; clear x)))
        | clear_value x)
    | split
    | ((with_reducible apply hX.ok); exact rfl)
    | ((with_reducible apply hX.bit); exact rfl)

theorem State.placeAt_fr {X : Nat} {s0 : State} {s : State} {a1 : ℕ} {a2 : ℕ} (h : Fr X s0 s) (hX : Sub 0x4020400400000 X) :
    Fr X s0 (State.placeAt s a1 a2) := by
  unfold State.placeAt
  repeat' first
    | with_reducible assumption
    | ((with_reducible apply hX.after); exact rfl)
    | with_reducible apply State.setTctx_fr
    | with_reducible apply State.wakeUnit_fr
    | with_reducible apply State.takeUnits_fr
    | with_reducible apply State.onTfb_fr
    | with_reducible apply State.runOn_fr
    | with_reducible apply Fr.foldl
    | with_reducible apply Fr.foldl_snd
    | (intro x)
    | (extract_lets +onlyGivenNames x; first
        | (refine Fr.cut (X := X) (s0 := s0) (s := x) ?_ (fun hx => ?_); (on_goal 2 => clear_value x); (on_goal 1 => (unfold x; clear x)))
        | (refine Fr.cut_snd (X := X) (s0 := s0) (e := x) ?_ (fun hx => ?_); (on_goal 2 => clear_value x); (on_goal 1 => (unfold x; clear x)))
        | clear_value x)
    | split

theorem State.yield_fr {X : Nat} {s0 : State} {s : State} {a1 : Bool} {a2 : ℕ} (h : Fr X s0 s) (hX : Sub 0x20000000000 X) :
    Fr X s0 (State.yield s a1 a2) := by
  unfold State.yield
  repeat' first
    | with_reducible assumption
    | with_reducible apply State.setTctx_fr
    | (extract_lets +onlyGivenNames x; clear_value x)
    | split

theorem State.placeOne_fr {X : Nat} {s0 : State} {s : State} {a1 : List ℕ} {a2 : ℕ} (h : Fr X s0 s) (hX : Sub 0x4020400400000 X) :
    Fr X s0 (State.placeOne s a1 a2).1 := by
  unfold State.placeOne
  repeat' first
    | with_reducible assumption
    | ((with_reducible apply hX.after); exact rfl)
    | with_reducible apply State.placeAt_fr
    | with_reducible apply State.yield_fr
    | with_reducible apply Fr.foldl
    | (intro x)
    | (extract_lets +onlyGivenNames x; clear_value x)
    | split

theorem State.place_fr {X : Nat} {s0 : State} {s : State} (h : Fr X s0 s) (hX : Sub 0x4020400400000 X) :
    Fr X s0 (State.place s) := by
  unfold State.place
  repeat' first
    | with_reducible assumption
    | with_reducible apply State.placeOne_fr
    | with_reducible apply Fr.foldl_fst
    | (intro x)

theorem State.runReport_fr {X : Nat} {s0 : State} {s : State} {a1 : ℕ} {a2 : Run} {a3 : ℕ} {a4 : ℕ} {a5 : ℕ} (h : Fr X s0 s) (hX : Sub 0x2c020070000000 X) :
    Fr X s0 (State.runReport s a1 a2 a3 a4 a5) := by
  unfold State.runReport
  repeat' first
    | with_reducible assumption
    | ((with_reducible apply hX.after); exact rfl)
    | with_reducible apply State.onTfb_fr
    | with_reducible apply State.setRing_fr
    | with_reducible apply State.raise_fr
    | (extract_lets +onlyGivenNames x; (refine Fr.cut (X := X) (s0 := s0) (s := x) ?_ (fun hx => ?_); (on_goal 2 => clear_value x); (on_goal 1 => (unfold x; clear x))))
    | split

theorem State.nextRun_fr {X : Nat} {s0 : State} {a0 : ℕ} {a1 : ℕ} {s : State} (h : Fr X s0 s) (hX : Sub 0x2c020070000000 X) :
    Fr X s0 (State.nextRun a0 a1 s) := by
  revert h
  fun_induction State.nextRun a0 a1 s
  all_goals intro h
  all_goals repeat' first
    | with_reducible assumption
    | ((with_reducible apply hX.after); exact rfl)
    | with_reducible apply State.setTctx_fr
    | with_reducible apply State.runReport_fr
    | with_reducible refine Fr.of_snd (by assumption) ?_
    | with_reducible refine Fr.of_fst (by assumption) ?_
    | (extract_lets +onlyGivenNames x; first
        | (refine Fr.cut (X := X) (s0 := s0) (s := x) ?_ (fun hx => ?_); (on_goal 2 => clear_value x); (on_goal 1 => (unfold x; clear x)))
        | clear_value x)
    | split
    | ((with_reducible apply hX.ok); exact rfl)
    | ((with_reducible apply hX.bit); exact rfl)
    | dsimp only
    | with_reducible apply_assumption -exfalso -symm

theorem State.unloadIfDone_fr {X : Nat} {s0 : State} {s : State} {a1 : ℕ} (h : Fr X s0 s) (hX : Sub 0x20000000000 X) :
    Fr X s0 (State.unloadIfDone s a1) := by
  unfold State.unloadIfDone
  repeat' first
    | with_reducible assumption
    | with_reducible apply State.setTctx_fr
    | (extract_lets +onlyGivenNames x; clear_value x)
    | split

theorem State.runEnd_fr {X : Nat} {s0 : State} {s : State} {a1 : ℕ} {a2 : ℕ} (h : Fr X s0 s) (hX : Sub 0x2c060470402000 X) :
    Fr X s0 (State.runEnd s a1 a2) := by
  unfold State.runEnd
  repeat' first
    | with_reducible assumption
    | ((with_reducible apply hX.after); exact rfl)
    | with_reducible apply State.place_fr
    | with_reducible apply State.unloadIfDone_fr
    | with_reducible apply State.nextRun_fr
    | with_reducible apply State.setTctx_fr
    | with_reducible apply State.onAsh_fr
    | with_reducible apply State.blocksDrop_fr
    | with_reducible apply State.tfbCount_fr
    | with_reducible apply State.runReport_fr
    | (extract_lets +onlyGivenNames x; clear_value x)
    | split

theorem State.runRequest_fr {X : Nat} {s0 : State} {s : State} {a1 : ℕ} {a2 : Run} (h : Fr X s0 s) (hX : Sub 0x2c020470401000 X) :
    Fr X s0 (State.runRequest s a1 a2) := by
  unfold State.runRequest
  repeat' first
    | with_reducible assumption
    | ((with_reducible apply hX.after); exact rfl)
    | with_reducible apply State.runReport_fr
    | with_reducible apply State.place_fr
    | with_reducible apply State.nextRun_fr
    | with_reducible apply State.setTctx_fr
    | with_reducible apply State.planOverrun_fr
    | (intro x)
    | (extract_lets +onlyGivenNames x; first
        | (refine Fr.cut_fn2 (X := X) (s0 := s0) (f := x) ?_ (fun hx => ?_); (on_goal 2 => clear_value x); (on_goal 1 => (unfold x; clear x)))
        | clear_value x)
    | split
    | with_reducible apply_assumption -exfalso -symm

theorem State.runsEnter_fr {X : Nat} {s0 : State} {s : State} (h : Fr X s0 s) (hX : Sub 0x2c020470400000 X) :
    Fr X s0 (State.runsEnter s) := by
  unfold State.runsEnter
  repeat' first
    | with_reducible assumption
    | ((with_reducible apply hX.after); exact rfl)
    | with_reducible apply State.place_fr
    | with_reducible apply State.nextRun_fr
    | with_reducible apply State.setTctx_fr
    | with_reducible apply Fr.foldl
    | (intro x)
    | (extract_lets +onlyGivenNames x; clear_value x)
    | split

theorem State.ctxLoad_fr {X : Nat} {s0 : State} {s : State} {a1 : ℕ} {a2 : ℕ} {a3 : ℕ} {a4 : Bytes} {a5 : ℕ} {a6 : ℕ} (h : Fr X s0 s) (hX : Sub 0x14020100000000 X) :
    Fr X s0 (State.ctxLoad s a1 a2 a3 a4 a5 a6) := by
  unfold State.ctxLoad
  repeat' first
    | with_reducible assumption
    | ((with_reducible apply hX.after); exact rfl)
    | with_reducible apply State.setTctx_fr
    | with_reducible apply State.dvaOpen_fr

theorem State.ctxUnload_fr {X : Nat} {s0 : State} {s : State} {a1 : ℕ} (h : Fr X s0 s) (hX : Sub 0x4020400400000 X) :
    Fr X s0 (State.ctxUnload s a1) := by
  unfold State.ctxUnload
  repeat' first
    | with_reducible assumption
    | ((with_reducible apply hX.after); exact rfl)
    | with_reducible apply State.place_fr
    | with_reducible apply State.setTctx_fr
    | (extract_lets +onlyGivenNames x; clear_value x)
    | split

theorem GroupRun.stop_fr {X : Nat} {s0 : State} {a0 : GroupRun} {a1 : GroupHalt} (h : Fr X s0 a0.s) (hX : Sub 0x0 X) :
    Fr X s0 (GroupRun.stop a0 a1).s := by
  unfold GroupRun.stop
  repeat' first
    | with_reducible assumption

theorem GroupRun.fault_fr {X : Nat} {s0 : State} {a0 : GroupRun} {a1 : ℕ} {a2 : ℕ} {a3 : ℕ} {a4 : Bool} (h : Fr X s0 a0.s) (hX : Sub 0x2c000070000000 X) :
    Fr X s0 (GroupRun.fault a0 a1 a2 a3 a4).s := by
  unfold GroupRun.fault
  repeat' first
    | with_reducible assumption
    | with_reducible apply State.mmuFault_fr

theorem GroupRun.copyWait_fr {X : Nat} {s0 : State} {a0 : GroupRun} {a1 : ℕ} {a2 : ℕ} {a3 : ℕ} (h : Fr X s0 a0.s) (hX : Sub 0x1000 X) :
    Fr X s0 (GroupRun.copyWait a0 a1 a2 a3).s := by
  unfold GroupRun.copyWait
  repeat' first
    | with_reducible assumption
    | with_reducible apply State.planOverrun_fr
    | (extract_lets +onlyGivenNames x; clear_value x)
    | split

theorem GroupRun.ats_fr {X : Nat} {s0 : State} {a0 : GroupRun} {a1 : Bool} {a2 : ℕ} {a3 : Bool} (h : Fr X s0 a0.s) (hX : Sub 0x8000000000000 X) :
    Fr X s0 (GroupRun.ats a0 a1 a2 a3).s := by
  unfold GroupRun.ats
  repeat' first
    | with_reducible assumption
    | ((with_reducible apply hX.after); exact rfl)
    | with_reducible apply State.askPage_fr
    | with_reducible apply GroupRun.stop_fr
    | split

theorem GroupRun.take_fr {X : Nat} {s0 : State} {a0 : GroupRun} {a1 : ℕ} {a2 : ℕ} (h : Fr X s0 a0.s) (hX : Sub 0x40000000000 X) :
    Fr X s0 (GroupRun.take a0 a1 a2).2.s := by
  unfold GroupRun.take
  repeat' first
    | with_reducible assumption
    | ((with_reducible apply hX.after); exact rfl)
    | with_reducible apply GroupRun.stop_fr
    | with_reducible apply State.onAsh_fr
    | (extract_lets +onlyGivenNames x; clear_value x)
    | split

theorem GroupRun.read_fr {X : Nat} {s0 : State} {a0 : GroupRun} {a1 : TSrc} (h : Fr X s0 a0.s) (hX : Sub 0x2c140170001010 X) :
    Fr X s0 (GroupRun.read a0 a1).2.s := by
  unfold GroupRun.read
  repeat' first
    | with_reducible assumption
    | ((with_reducible apply hX.after); exact rfl)
    | with_reducible apply GroupRun.stop_fr
    | with_reducible apply GroupRun.fault_fr
    | with_reducible apply State.dvaGet_fr
    | with_reducible apply GroupRun.copyWait_fr
    | with_reducible apply State.atsFill_fr
    | with_reducible apply GroupRun.ats_fr
    | with_reducible apply GroupRun.take_fr
    | with_reducible refine Fr.of_snd (by assumption) ?_
    | (extract_lets +onlyGivenNames x; first
        | (refine Fr.cut_run (X := X) (s0 := s0) (e := x) ?_ (fun hx => ?_); (on_goal 2 => clear_value x); (on_goal 1 => (unfold x; clear x)))
        | clear_value x)
    | split

theorem GroupRun.readB_fr {X : Nat} {s0 : State} {a0 : GroupRun} {a1 : ℕ} {a2 : ℕ} {a3 : TSrc} (h : Fr X s0 a0.s) (hX : Sub 0x2c140170001010 X) :
    Fr X s0 (GroupRun.readB a0 a1 a2 a3).2.2.s := by
  unfold GroupRun.readB
  repeat' first
    | with_reducible assumption
    | ((with_reducible apply hX.after); exact rfl)
    | with_reducible apply GroupRun.take_fr
    | with_reducible apply GroupRun.stop_fr
    | with_reducible apply GroupRun.read_fr
    | split

theorem GroupRun.stage_fr {X : Nat} {s0 : State} {a0 : GroupRun} {a1 : Staged} (h : Fr X s0 a0.s) (hX : Sub 0x0 X) :
    Fr X s0 (GroupRun.stage a0 a1).s := by
  unfold GroupRun.stage
  repeat' first
    | with_reducible assumption

theorem GroupRun.stageWs_fr {X : Nat} {s0 : State} {a0 : GroupRun} {a1 : ℕ} {a2 : ℕ} {a3 : Bytes} (h : Fr X s0 a0.s) (hX : Sub 0x0 X) :
    Fr X s0 (GroupRun.stageWs a0 a1 a2 a3).s := by
  unfold GroupRun.stageWs
  repeat' first
    | with_reducible assumption
    | with_reducible apply GroupRun.stage_fr
    | with_reducible apply GroupRun.stop_fr
    | split

theorem GroupRun.stageAdd_fr {X : Nat} {s0 : State} {a0 : GroupRun} {a1 : ℕ} {a2 : ℕ} {a3 : ℕ} {a4 : ℕ} {a5 : List Val} (h : Fr X s0 a0.s) (hX : Sub 0x0 X) :
    Fr X s0 (GroupRun.stageAdd a0 a1 a2 a3 a4 a5).s := by
  unfold GroupRun.stageAdd
  repeat' first
    | with_reducible assumption
    | with_reducible apply GroupRun.stage_fr
    | with_reducible apply GroupRun.stop_fr
    | split

theorem GroupRun.memWrite_fr {X : Nat} {s0 : State} {a0 : GroupRun} {a1 : ℕ} {a2 : Bytes} (h : Fr X s0 a0.s) (hX : Sub 0x3c000170001000 X) :
    Fr X s0 (GroupRun.memWrite a0 a1 a2).s := by
  unfold GroupRun.memWrite
  repeat' first
    | with_reducible assumption
    | ((with_reducible apply hX.after); exact rfl)
    | with_reducible apply GroupRun.fault_fr
    | with_reducible apply GroupRun.copyWait_fr
    | with_reducible apply State.dvaWrite_fr
    | (extract_lets +onlyGivenNames x; first
        | (refine Fr.cut_run (X := X) (s0 := s0) (e := x) ?_ (fun hx => ?_); (on_goal 2 => clear_value x); (on_goal 1 => (unfold x; clear x)))
        | clear_value x)
    | split

theorem GroupRun.dress_fr {X : Nat} {s0 : State} {a0 : GroupRun} {a1 : ℕ} {a2 : ℕ} {a3 : ℕ} {a4 : ℕ} {a5 : ℕ} {a6 : MemRead} (h : Fr X s0 a0.s) (hX : Sub 0x3c140170001010 X) :
    Fr X s0 (GroupRun.dress a0 a1 a2 a3 a4 a5 a6).s := by
  unfold GroupRun.dress
  repeat' first
    | with_reducible assumption
    | ((with_reducible apply hX.after); exact rfl)
    | with_reducible apply GroupRun.stop_fr
    | with_reducible apply GroupRun.read_fr
    | with_reducible apply GroupRun.memWrite_fr
    | with_reducible apply GroupRun.stageWs_fr
    | with_reducible refine Fr.of_run (by assumption) ?_
    | (extract_lets +onlyGivenNames x; first
        | (refine Fr.cut_run (X := X) (s0 := s0) (e := x) ?_ (fun hx => ?_); (on_goal 2 => clear_value x); (on_goal 1 => (unfold x; clear x)))
        | clear_value x)
    | split

theorem GroupRun.dressEnd_fr {X : Nat} {s0 : State} {a0 : GroupRun} {a1 : ℕ} {a2 : ℕ} {a3 : ℕ} (h : Fr X s0 a0.s) (hX : Sub 0x3c000170001000 X) :
    Fr X s0 (GroupRun.dressEnd a0 a1 a2 a3).s := by
  unfold GroupRun.dressEnd
  repeat' first
    | with_reducible assumption
    | ((with_reducible apply hX.after); exact rfl)
    | with_reducible apply GroupRun.stop_fr
    | with_reducible apply GroupRun.memWrite_fr
    | (extract_lets +onlyGivenNames x; clear_value x)
    | split

theorem GroupRun.stream_fr {X : Nat} {s0 : State} {a0 : GroupRun} {a1 : ℕ} {a2 : ℕ} {a3 : ℕ} {a4 : ℕ} (h : Fr X s0 a0.s) (hX : Sub 0x40000000000 X) :
    Fr X s0 (GroupRun.stream a0 a1 a2 a3 a4).2.s := by
  unfold GroupRun.stream
  repeat' first
    | with_reducible assumption
    | ((with_reducible apply hX.after); exact rfl)
    | with_reducible apply GroupRun.stop_fr
    | with_reducible apply GroupRun.take_fr
    | with_reducible refine Fr.of_run (by assumption) ?_
    | split

theorem GroupRun.floats_fr {X : Nat} {s0 : State} {a0 : GroupRun} {a1 : ℕ} {a2 : ℕ} {a3 : ℕ} {a4 : MemRead} (h : Fr X s0 a0.s) (hX : Sub 0x2c140170001010 X) :
    Fr X s0 (GroupRun.floats a0 a1 a2 a3 a4).2.s := by
  unfold GroupRun.floats
  repeat' first
    | with_reducible assumption
    | with_reducible apply GroupRun.read_fr

theorem GroupRun.formDelta_fr {X : Nat} {s0 : State} {a0 : GroupRun} {a1 : ℕ} {a2 : ℕ} {a3 : ℕ} {a4 : MemRead} (h : Fr X s0 a0.s) (hX : Sub 0x3c140170001010 X) :
    Fr X s0 (GroupRun.formDelta a0 a1 a2 a3 a4).s := by
  unfold GroupRun.formDelta
  repeat' first
    | with_reducible assumption
    | ((with_reducible apply hX.after); exact rfl)
    | with_reducible apply GroupRun.stop_fr
    | with_reducible apply GroupRun.stream_fr
    | with_reducible apply GroupRun.floats_fr
    | with_reducible apply GroupRun.memWrite_fr
    | with_reducible refine Fr.of_run (by assumption) ?_
    | (extract_lets +onlyGivenNames x; clear_value x)
    | split

theorem GroupRun.fuse_fr {X : Nat} {s0 : State} {a0 : GroupRun} {a1 : ℕ} {a2 : ℕ} {a3 : List ℕ} (h : Fr X s0 a0.s) (hX : Sub 0x3c040170001000 X) :
    Fr X s0 (GroupRun.fuse a0 a1 a2 a3).s := by
  unfold GroupRun.fuse
  repeat' first
    | with_reducible assumption
    | ((with_reducible apply hX.after); exact rfl)
    | with_reducible apply GroupRun.stop_fr
    | with_reducible apply GroupRun.stream_fr
    | with_reducible apply GroupRun.memWrite_fr
    | with_reducible refine Fr.of_run (by assumption) ?_
    | with_reducible apply Fr.foldl_snd_run
    | (intro x)
    | (extract_lets +onlyGivenNames x; clear_value x)
    | split

theorem GroupRun.outerStep_fr {X : Nat} {s0 : State} {a0 : GroupRun} {a1 : ℕ} {a2 : ℕ} {a3 : ℕ} {a4 : ℕ} {a5 : ℕ} {a6 : ℕ} {a7 : MemRead} (h : Fr X s0 a0.s) (hX : Sub 0x3c140170001010 X) :
    Fr X s0 (GroupRun.outerStep a0 a1 a2 a3 a4 a5 a6 a7).s := by
  unfold GroupRun.outerStep
  repeat' first
    | with_reducible assumption
    | ((with_reducible apply hX.after); exact rfl)
    | with_reducible apply GroupRun.stop_fr
    | with_reducible apply GroupRun.stream_fr
    | with_reducible apply GroupRun.floats_fr
    | with_reducible apply GroupRun.memWrite_fr
    | with_reducible apply GroupRun.stageWs_fr
    | with_reducible refine Fr.of_run (by assumption) ?_
    | (extract_lets +onlyGivenNames x; first
        | (refine Fr.cut_run (X := X) (s0 := s0) (e := x) ?_ (fun hx => ?_); (on_goal 2 => clear_value x); (on_goal 1 => (unfold x; clear x)))
        | clear_value x)
    | split

theorem GroupRun.outerEnd_fr {X : Nat} {s0 : State} {a0 : GroupRun} {a1 : ℕ} {a2 : ℕ} (h : Fr X s0 a0.s) (hX : Sub 0x3c000170001000 X) :
    Fr X s0 (GroupRun.outerEnd a0 a1 a2).s := by
  unfold GroupRun.outerEnd
  repeat' first
    | with_reducible assumption
    | ((with_reducible apply hX.after); exact rfl)
    | with_reducible apply GroupRun.stop_fr
    | with_reducible apply GroupRun.memWrite_fr
    | (extract_lets +onlyGivenNames x; clear_value x)
    | split

theorem GroupRun.op_fr {X : Nat} {s0 : State} {a0 : GroupRun} {a1 : TOp} (h : Fr X s0 a0.s) (hX : Sub 0x3c1c19700014d0 X) :
    Fr X s0 (GroupRun.op a0 a1).s := by
  unfold GroupRun.op
  repeat' first
    | with_reducible assumption
    | ((with_reducible apply hX.after); exact rfl)
    | with_reducible apply GroupRun.read_fr
    | with_reducible apply GroupRun.stageWs_fr
    | with_reducible apply GroupRun.memWrite_fr
    | with_reducible apply GroupRun.stop_fr
    | with_reducible apply State.emit_fr
    | with_reducible apply State.atsFill_fr
    | with_reducible apply GroupRun.ats_fr
    | with_reducible apply State.settStore_fr
    | with_reducible apply State.launch_fr
    | with_reducible apply State.linePut_fr
    | with_reducible apply GroupRun.readB_fr
    | with_reducible apply GroupRun.stageAdd_fr
    | with_reducible apply State.countResults_fr
    | with_reducible apply GroupRun.stage_fr
    | with_reducible apply GroupRun.dress_fr
    | with_reducible apply GroupRun.dressEnd_fr
    | with_reducible apply GroupRun.formDelta_fr
    | with_reducible apply GroupRun.fuse_fr
    | with_reducible apply GroupRun.outerStep_fr
    | with_reducible apply GroupRun.outerEnd_fr
    | with_reducible refine Fr.of_run (by assumption) ?_
    | with_reducible refine Fr.of_run2 (by assumption) ?_
    | with_reducible refine Fr.of_snd (by assumption) ?_
    | (extract_lets +onlyGivenNames x; first
        | (refine Fr.cut_run (X := X) (s0 := s0) (e := x) ?_ (fun hx => ?_); (on_goal 2 => clear_value x); (on_goal 1 => (unfold x; clear x)))
        | clear_value x)
    | split
    | dsimp only

theorem applyStaged_fr {X : Nat} {s0 : State} {a0 : TCtx × State} {a1 : Staged} (h : Fr X s0 a0.2) (hX : Sub 0x400 X) :
    Fr X s0 (applyStaged a0 a1).2 := by
  unfold applyStaged
  repeat' first
    | with_reducible assumption
    | with_reducible apply State.numCount_fr
    | (extract_lets +onlyGivenNames x; clear_value x)
    | split

theorem State.groupHalt_fr {X : Nat} {s0 : State} {s : State} {a1 : ℕ} {a2 : GroupHalt} (h : Fr X s0 s) (hX : Sub 0x2c060470402000 X) :
    Fr X s0 (State.groupHalt s a1 a2) := by
  unfold State.groupHalt
  repeat' first
    | with_reducible assumption
    | ((with_reducible apply hX.after); exact rfl)
    | with_reducible apply State.runEnd_fr
    | with_reducible apply State.blocksDrop_fr
    | with_reducible apply State.setTctx_fr
    | (extract_lets +onlyGivenNames x; first
        | (refine Fr.cut (X := X) (s0 := s0) (s := x) ?_ (fun hx => ?_); (on_goal 2 => clear_value x); (on_goal 1 => (unfold x; clear x)))
        | clear_value x)
    | split

theorem State.groupStall_fr {X : Nat} {s0 : State} {s : State} {a1 : ℕ} {a2 : ℕ} (h : Fr X s0 s) (hX : Sub 0x1040 X) :
    Fr X s0 (State.groupStall s a1 a2) := by
  unfold State.groupStall
  repeat' first
    | with_reducible assumption
    | ((with_reducible apply hX.after); exact rfl)
    | with_reducible apply State.planOverrun_fr
    | with_reducible apply State.settRefuse_fr
    | (extract_lets +onlyGivenNames x; (refine Fr.cut (X := X) (s0 := s0) (s := x) ?_ (fun hx => ?_); (on_goal 2 => clear_value x); (on_goal 1 => (unfold x; clear x))))
    | split

theorem State.groupNext_fr {X : Nat} {s0 : State} {s : State} {a1 : ℕ} {a2 : GroupNext} (h : Fr X s0 s) (hX : Sub 0x2c060470402000 X) :
    Fr X s0 (State.groupNext s a1 a2) := by
  unfold State.groupNext
  repeat' first
    | with_reducible assumption
    | ((with_reducible apply hX.after); exact rfl)
    | with_reducible apply State.runEnd_fr
    | with_reducible apply State.place_fr
    | with_reducible apply State.setTctx_fr
    | with_reducible apply State.blocksDrop_fr
    | with_reducible apply State.tfbCount_fr
    | (extract_lets +onlyGivenNames x; clear_value x)
    | split

theorem State.groupCommit_fr {X : Nat} {s0 : State} {s : State} {a1 : ℕ} {a2 : List TOp} {a3 : GroupNext} (h : Fr X s0 s) (hX : Sub 0x3c1e1d704034d0 X) :
    Fr X s0 (State.groupCommit s a1 a2 a3) := by
  unfold State.groupCommit
  repeat' first
    | with_reducible assumption
    | ((with_reducible apply hX.after); exact rfl)
    | with_reducible apply State.runEnd_fr
    | with_reducible apply State.blocksDrop_fr
    | with_reducible apply GroupRun.op_fr
    | with_reducible apply State.groupStall_fr
    | with_reducible apply State.groupHalt_fr
    | with_reducible apply applyStaged_fr
    | with_reducible apply State.groupNext_fr
    | with_reducible apply State.planOverrun_fr
    | with_reducible apply State.tfbCount_fr
    | with_reducible apply State.setTctx_fr
    | with_reducible apply Fr.foldl
    | with_reducible apply Fr.foldl_snd
    | with_reducible apply Fr.foldl_run
    | (intro x)
    | (extract_lets +onlyGivenNames x; first
        | (refine Fr.cut (X := X) (s0 := s0) (s := x) ?_ (fun hx => ?_); (on_goal 2 => clear_value x); (on_goal 1 => (unfold x; clear x)))
        | (refine Fr.cut_run (X := X) (s0 := s0) (e := x) ?_ (fun hx => ?_); (on_goal 2 => clear_value x); (on_goal 1 => (unfold x; clear x)))
        | clear_value x)
    | split

theorem State.saveDone_fr {X : Nat} {s0 : State} {s : State} {a1 : ℕ} (h : Fr X s0 s) (hX : Sub 0x14020500402000 X) :
    Fr X s0 (State.saveDone s a1) := by
  unfold State.saveDone
  repeat' first
    | with_reducible assumption
    | ((with_reducible apply hX.after); exact rfl)
    | with_reducible apply State.place_fr
    | with_reducible apply State.setTctx_fr
    | with_reducible apply State.tfbCount_fr
    | with_reducible apply State.dvaOpen_fr
    | (extract_lets +onlyGivenNames x; first
        | (refine Fr.cut (X := X) (s0 := s0) (s := x) ?_ (fun hx => ?_); (on_goal 2 => clear_value x); (on_goal 1 => (unfold x; clear x)))
        | clear_value x)
    | split

theorem State.restoreEnd_fr {X : Nat} {s0 : State} {s : State} {a1 : ℕ} {a2 : MemRead} (h : Fr X s0 s) (hX : Sub 0x2c160570402010 X) :
    Fr X s0 (State.restoreEnd s a1 a2) := by
  unfold State.restoreEnd
  repeat' first
    | with_reducible assumption
    | ((with_reducible apply hX.after); exact rfl)
    | with_reducible apply State.readErrs_fr
    | with_reducible apply State.tfbCount_fr
    | with_reducible apply State.fresh_fr
    | with_reducible apply State.runEnd_fr
    | with_reducible apply State.runOn_fr
    | with_reducible apply State.setTctx_fr
    | with_reducible refine Fr.of_snd (by assumption) ?_
    | (extract_lets +onlyGivenNames x; first
        | (refine Fr.cut (X := X) (s0 := s0) (s := x) ?_ (fun hx => ?_); (on_goal 2 => clear_value x); (on_goal 1 => (unfold x; clear x)))
        | clear_value x)
    | split

theorem State.quantum_fr {X : Nat} {s0 : State} {s : State} {a1 : ℕ} (h : Fr X s0 s) (hX : Sub 0x20000000000 X) :
    Fr X s0 (State.quantum s a1) := by
  unfold State.quantum
  repeat' first
    | with_reducible assumption
    | with_reducible apply State.setTctx_fr
    | (extract_lets +onlyGivenNames x; clear_value x)
    | split

theorem State.blockLoad_fr {X : Nat} {s0 : State} {s : State} {a1 : ℕ} {a2 : ℕ} {a3 : ℕ} {a4 : ℕ} {a5 : MemRead} (h : Fr X s0 s) (hX : Sub 0x2c160570407010 X) :
    Fr X s0 (State.blockLoad s a1 a2 a3 a4 a5) := by
  unfold State.blockLoad
  repeat' first
    | with_reducible assumption
    | ((with_reducible apply hX.after); exact rfl)
    | with_reducible apply GroupRun.read_fr
    | with_reducible apply State.groupHalt_fr
    | with_reducible apply State.blockRefused_fr
    | with_reducible apply State.blockAccept_fr
    | with_reducible refine Fr.of_run (by assumption) ?_
    | (extract_lets +onlyGivenNames x; clear_value x)
    | split

theorem State.blockXfer_fr {X : Nat} {s0 : State} {s : State} {a1 : ℕ} {a2 : OpKey} {a3 : ℕ} {a4 : HostAccess} {a5 : MemRead} (h : Fr X s0 s) (hX : Sub 0x2c140170004010 X) :
    Fr X s0 (State.blockXfer s a1 a2 a3 a4 a5) := by
  unfold State.blockXfer
  repeat' first
    | with_reducible assumption
    | ((with_reducible apply hX.after); exact rfl)
    | with_reducible apply State.atsFill_fr
    | with_reducible apply State.endOp_fr
    | with_reducible apply State.blocksDrop_fr
    | with_reducible apply State.blockRefused_fr
    | with_reducible apply State.blockAccept_fr
    | with_reducible apply State.pageRequest_fr
    | with_reducible apply State.devFault_fr
    | with_reducible apply State.dvaGet_fr
    | with_reducible refine Fr.of_snd (by assumption) ?_
    | (intro x)
    | (extract_lets +onlyGivenNames x; first
        | (refine Fr.cut_fn2 (X := X) (s0 := s0) (f := x) ?_ (fun hx => ?_); (on_goal 2 => clear_value x); (on_goal 1 => (unfold x; clear x)))
        | clear_value x)
    | split
    | with_reducible apply_assumption -exfalso -symm

theorem State.expandStep_fr {X : Nat} {s0 : State} {s : State} {a1 : ℕ} {a2 : ExpandStep} (h : Fr X s0 s) (hX : Sub 0x2c160570407010 X) :
    Fr X s0 (State.expandStep s a1 a2) := by
  unfold State.expandStep
  repeat' first
    | with_reducible assumption
    | ((with_reducible apply hX.after); exact rfl)
    | with_reducible apply State.blockLoad_fr
    | with_reducible apply State.blockXfer_fr
    | with_reducible refine State.expandHead_fr ?_ ?_ (by assumption)
    | with_reducible apply State.planOverrun_fr
    | split

theorem execTensorGroupCommit_fr {X : Nat} {s0 : State} {a0 : ℕ} {a1 : List TOp} {a2 : GroupNext} {s : State} (h : Fr X s0 s) (hX : Sub 0x3c1edd70403cd0 X) {t : State}
    (ht : execTensorGroupCommit a0 a1 a2 s = .next t) : Fr X s0 t := by
  unfold execTensorGroupCommit at ht
  obtain rfl := Host.Outcome.next.inj ht
  repeat' first
    | with_reducible assumption
    | ((with_reducible apply hX.after); exact rfl)
    | with_reducible apply State.inPool_fr
    | with_reducible apply State.groupCommit_fr
    | (intro x)

theorem execContextSaveDone_fr {X : Nat} {s0 : State} {a0 : ℕ} {s : State} (h : Fr X s0 s) (hX : Sub 0x14020500402000 X) {t : State}
    (ht : execContextSaveDone a0 s = .next t) : Fr X s0 t := by
  unfold execContextSaveDone at ht
  obtain rfl := Host.Outcome.next.inj ht
  repeat' first
    | with_reducible assumption
    | ((with_reducible apply hX.after); exact rfl)
    | with_reducible apply State.inCore_fr
    | with_reducible apply State.saveDone_fr
    | (intro x)

theorem execContextRestoreDone_fr {X : Nat} {s0 : State} {a0 : ℕ} {a1 : MemRead} {s : State} (h : Fr X s0 s) (hX : Sub 0x2c160570402010 X) {t : State}
    (ht : execContextRestoreDone a0 a1 s = .next t) : Fr X s0 t := by
  unfold execContextRestoreDone at ht
  obtain rfl := Host.Outcome.next.inj ht
  repeat' first
    | with_reducible assumption
    | ((with_reducible apply hX.after); exact rfl)
    | with_reducible apply State.inCore_fr
    | with_reducible apply State.restoreEnd_fr
    | (intro x)

theorem execQuantumExpire_fr {X : Nat} {s0 : State} {a0 : ℕ} {s : State} (h : Fr X s0 s) (hX : Sub 0x20000000000 X) {t : State}
    (ht : execQuantumExpire a0 s = .next t) : Fr X s0 t := by
  unfold execQuantumExpire at ht
  obtain rfl := Host.Outcome.next.inj ht
  repeat' first
    | with_reducible assumption
    | ((with_reducible apply hX.after); exact rfl)
    | with_reducible apply State.inCore_fr
    | with_reducible apply State.quantum_fr
    | (intro x)

theorem execGroupOverrun_fr {X : Nat} {s0 : State} {a0 : ℕ} {s : State} (h : Fr X s0 s) (hX : Sub 0x2000 X) {t : State}
    (ht : execGroupOverrun a0 s = .next t) : Fr X s0 t := by
  unfold execGroupOverrun at ht
  obtain rfl := Host.Outcome.next.inj ht
  repeat' first
    | with_reducible assumption
    | ((with_reducible apply hX.after); exact rfl)
    | with_reducible apply State.inCore_fr
    | with_reducible apply State.tfbCount_fr
    | (intro x)
    | split

theorem execTfbStatClr_fr {X : Nat} {s0 : State} {a0 : View} {a1 : Word} {s : State} (h : Fr X s0 s) (hX : Sub 0x4002000 X) {t : State}
    (ht : execTfbStatClr a0 a1 s = .next t) : Fr X s0 t := by
  unfold execTfbStatClr at ht
  obtain rfl := Host.Outcome.next.inj ht
  repeat' first
    | with_reducible assumption
    | ((with_reducible apply hX.after); exact rfl)
    | with_reducible apply State.selClear_fr
    | with_reducible apply State.setFld_fr
    | ((with_reducible apply hX.ok); exact rfl)
    | (intro x)

theorem execExpandBlock_fr {X : Nat} {s0 : State} {a0 : ℕ} {a1 : ExpandStep} {s : State} (h : Fr X s0 s) (hX : Sub 0x2c160570407010 X) {t : State}
    (ht : execExpandBlock a0 a1 s = .next t) : Fr X s0 t := by
  unfold execExpandBlock at ht
  obtain rfl := Host.Outcome.next.inj ht
  repeat' first
    | with_reducible assumption
    | ((with_reducible apply hX.after); exact rfl)
    | with_reducible apply State.inCore_fr
    | with_reducible apply State.expandStep_fr
    | (intro x)

end Sys2Proof.Machine
end

