-- ==== Sys2Proof/Laws/FrameLine.lean ====
section
/-!
SUPPORT. Frames of the operations of Line.lean, Outer.lean: one lemma each, by backward chaining (Frame.lean).
-/

namespace Sys2Proof.Machine

theorem State.lineCount_fr {X : Nat} {s0 : State} {s : State} {a1 : ℕ} {a2 : ℕ} {a3 : optParam ℕ 0} (h : Fr X s0 s) (hX : Sub 0x40000 X) :
    Fr X s0 (State.lineCount s a1 a2 a3) := by
  unfold State.lineCount
  repeat' first
    | with_reducible assumption
    | with_reducible apply State.bump_fr
    | ((with_reducible apply hX.ok); exact rfl)

theorem State.onLeg_fr {X : Nat} {s0 : State} {s : State} {a1 : ℕ} {a2 : ℕ} {a3 : LineLeg → LineLeg} (h : Fr X s0 s) (hX : Sub 0x80000000000 X) :
    Fr X s0 (State.onLeg s a1 a2 a3) := by
  unfold State.onLeg
  repeat' first
    | with_reducible assumption
    | with_reducible apply State.setLgrp_fr

theorem State.legJudge_fr {X : Nat} {s0 : State} {s : State} {a1 : ℕ} {a2 : ℕ} (h : Fr X s0 s) (hX : Sub 0x80000000000 X) :
    Fr X s0 (State.legJudge s a1 a2) := by
  unfold State.legJudge
  repeat' first
    | with_reducible assumption
    | with_reducible apply State.onLeg_fr

theorem State.showLine_fr {X : Nat} {s0 : State} {s : State} {a1 : ℕ} (h : Fr X s0 s) (hX : Sub 0x40000 X) :
    Fr X s0 (State.showLine s a1) := by
  unfold State.showLine
  repeat' first
    | with_reducible assumption
    | with_reducible apply State.setFld_fr
    | with_reducible apply State.setFlag_fr
    | with_reducible apply Fr.foldl
    | (intro x)
    | ((with_reducible apply hX.ok); exact rfl)

theorem State.lineSelect_fr {X : Nat} {s0 : State} {s : State} {a1 : ℕ} (h : Fr X s0 s) (hX : Sub 0x2c080070040000 X) :
    Fr X s0 (State.lineSelect s a1) := by
  unfold State.lineSelect
  repeat' first
    | with_reducible assumption
    | ((with_reducible apply hX.after); exact rfl)
    | with_reducible apply State.raise_fr
    | with_reducible apply State.lineCount_fr
    | with_reducible apply State.onLeg_fr
    | with_reducible apply Fr.foldl
    | (intro x)
    | (extract_lets +onlyGivenNames x; first
        | (refine Fr.cut (X := X) (s0 := s0) (s := x) ?_ (fun hx => ?_); (on_goal 2 => clear_value x); (on_goal 1 => (unfold x; clear x)))
        | clear_value x)
    | split

theorem State.dccHold_fr {X : Nat} {s0 : State} {s : State} {a1 : ℕ} (h : Fr X s0 s) (hX : Sub 0x80000040000 X) :
    Fr X s0 (State.dccHold s a1) := by
  unfold State.dccHold
  repeat' first
    | with_reducible assumption
    | ((with_reducible apply hX.after); exact rfl)
    | with_reducible apply State.setFlag_fr
    | with_reducible apply State.onLine_fr
    | (extract_lets +onlyGivenNames x; clear_value x)
    | split
    | ((with_reducible apply hX.ok); exact rfl)
    | (with_reducible apply Sub.nth)

theorem State.lineRefresh_fr {X : Nat} {s0 : State} {s : State} {a1 : ℕ} (h : Fr X s0 s) (hX : Sub 0x2c0820700c0000 X) :
    Fr X s0 (State.lineRefresh s a1) := by
  unfold State.lineRefresh
  repeat' first
    | with_reducible assumption
    | ((with_reducible apply hX.after); exact rfl)
    | with_reducible apply State.dccHold_fr
    | with_reducible apply State.showLine_fr
    | with_reducible apply State.raise_fr
    | with_reducible apply State.lineSelect_fr
    | with_reducible apply State.legJudge_fr
    | with_reducible apply State.setLgrp_fr
    | with_reducible apply State.kexNext_fr
    | with_reducible apply Fr.foldl
    | (intro x)
    | (extract_lets +onlyGivenNames x; first
        | (refine Fr.cut (X := X) (s0 := s0) (s := x) ?_ (fun hx => ?_); (on_goal 2 => clear_value x); (on_goal 1 => (unfold x; clear x)))
        | clear_value x)
    | split

theorem State.lineRelease_fr {X : Nat} {s0 : State} {s : State} {a1 : ℕ} {a2 : ℕ} {a3 : PlanRef} (h : Fr X s0 s) (hX : Sub 0x80000000000 X) :
    Fr X s0 (State.lineRelease s a1 a2 a3).2 := by
  unfold State.lineRelease
  repeat' first
    | with_reducible assumption
    | with_reducible apply State.setLgrp_fr
    | (extract_lets +onlyGivenNames x; clear_value x)
    | split

theorem State.lineSend_fr {X : Nat} {s0 : State} {s : State} {a1 : Op} (h : Fr X s0 s) (hX : Sub 0x80040000000 X) :
    Fr X s0 (State.lineSend s a1) := by
  unfold State.lineSend
  repeat' first
    | with_reducible assumption
    | ((with_reducible apply hX.after); exact rfl)
    | with_reducible apply State.finish_fr
    | with_reducible apply State.linePut_fr
    | with_reducible apply State.setHold_fr
    | (extract_lets +onlyGivenNames x; clear_value x)
    | split

theorem State.linePost_fr {X : Nat} {s0 : State} {s : State} {a1 : Op} (h : Fr X s0 s) (hX : Sub 0x80040000000 X) :
    Fr X s0 (State.linePost s a1) := by
  unfold State.linePost
  repeat' first
    | with_reducible assumption
    | ((with_reducible apply hX.after); exact rfl)
    | with_reducible apply State.finish_fr
    | with_reducible apply State.setLgrp_fr
    | with_reducible apply State.setHold_fr
    | (extract_lets +onlyGivenNames x; clear_value x)
    | split

theorem State.lineSendDone_fr {X : Nat} {s0 : State} {s : State} {a1 : ℕ} {a2 : OpKey} (h : Fr X s0 s) (hX : Sub 0x40000000 X) :
    Fr X s0 (State.lineSendDone s a1 a2) := by
  unfold State.lineSendDone
  repeat' first
    | with_reducible assumption
    | with_reducible apply State.finish_fr
    | (extract_lets +onlyGivenNames x; clear_value x)
    | split

theorem State.lineGoneOp_fr {X : Nat} {s0 : State} {s : State} {a1 : ℕ} {a2 : Option OpKey} (h : Fr X s0 s) (hX : Sub 0x80040000000 X) :
    Fr X s0 (State.lineGoneOp s a1 a2) := by
  unfold State.lineGoneOp
  repeat' first
    | with_reducible assumption
    | ((with_reducible apply hX.after); exact rfl)
    | with_reducible apply State.finish_fr
    | with_reducible apply State.setLgrp_fr
    | split

theorem State.lineAnswer_fr {X : Nat} {s0 : State} {a0 : ℕ} {a1 : ℕ} {s : State} (h : Fr X s0 s) (hX : Sub 0x4080040040000 X) {r} {t : State}
    (ht : State.lineAnswer a0 a1 s = some (r, t)) : Fr X s0 t := by
  induction a1 generalizing s with
  | zero => cases ht
  | succ n ih =>
    revert ht
    unfold State.lineAnswer
    repeat' first
      | with_reducible assumption
      | ((with_reducible apply hX.after); exact rfl)
      | with_reducible apply State.setLgrp_fr
      | with_reducible apply State.lineCount_fr
      | with_reducible apply State.fresh_fr
      | with_reducible apply State.lineGoneOp_fr
      | with_reducible refine Fr.of_snd (by assumption) ?_
      | with_reducible refine Fr.of_fst (by assumption) ?_
      | (extract_lets +onlyGivenNames x; first
        | (refine Fr.cut (X := X) (s0 := s0) (s := x) ?_ (fun hx => ?_); (on_goal 2 => clear_value x); (on_goal 1 => (unfold x; clear x)))
        | (refine Fr.cut_snd (X := X) (s0 := s0) (e := x) ?_ (fun hx => ?_); (on_goal 2 => clear_value x); (on_goal 1 => (unfold x; clear x)))
        | (refine Fr.cut_fst (X := X) (s0 := s0) (e := x) ?_ (fun hx => ?_); (on_goal 2 => clear_value x); (on_goal 1 => (unfold x; clear x)))
        | (refine Fr.cut_opt (X := X) (s0 := s0) (e := x) ?_ (fun hx => ?_); (on_goal 2 => clear_value x); (on_goal 1 => (unfold x; clear x)))
        | (refine Fr.cut_opt2 (X := X) (s0 := s0) (e := x) ?_ (fun hx => ?_); (on_goal 2 => clear_value x); (on_goal 1 => (unfold x; clear x)))
        | (refine Fr.cut_opt3 (X := X) (s0 := s0) (e := x) ?_ (fun hx => ?_); (on_goal 2 => clear_value x); (on_goal 1 => (unfold x; clear x)))
        | clear_value x)
      | split
      | (refine fun (ht : _ = _) => ?_; first | (cases ht; done) | cases ht | (revert ht; split) | skip)
      | ((with_reducible apply hX.ok); exact rfl)
      | ((with_reducible apply hX.bit); exact rfl)
      | with_reducible refine hx _ (by assumption)
      | exact hx _ rfl
      | with_reducible refine hx _ _ (by assumption)
      | exact hx _ _ rfl
      | with_reducible refine hx _ _ _ (by assumption)
      | exact hx _ _ _ rfl
      | with_reducible refine ih ?_ (by assumption)
      | (intro x)
      | dsimp only

/-- Reading an object's bytes, whatever it answers. -/
theorem State.lineBytes_fr {X : Nat} {s0 s : State} {g : Nat} {o : LineObj} {off n : Nat} {a : HostAccess} {r : MemRead}
    (h : Fr X s0 s) (hX : Sub 0x2c180170000010 X) :
    (∀ b t, s.lineBytes g o off n a r = .got b t → Fr X s0 t) ∧ (∀ t, s.lineBytes g o off n a r = .none t → Fr X s0 t) := by
  have sets : ∀ s' x, Fr X s0 s' → Fr X s0 (State.setLgrp s' g x) := fun s' x hs => State.setLgrp_fr hs (hX.after rfl)
  have fin : ∀ s' k st, Fr X s0 s' → Fr X s0 (State.finish s' k st) := fun s' k st hs => State.finish_fr hs (hX.after rfl)
  unfold State.lineBytes
  extract_lets fromMem
  have mem : ∀ dom dva fail hold, (∀ s' st, Fr X s0 s' → Fr X s0 (fail s' st)) → (∀ x y, Fr X s0 (hold x y)) →
      (∀ b t, fromMem dom dva fail hold = .got b t → Fr X s0 t) ∧ (∀ t, fromMem dom dva fail hold = .none t → Fr X s0 t) := by
    intro dom dva fail hold hf hh
    unfold fromMem
    split
    · refine ⟨fun b t ht => (by cases ht), fun t ht => ?_⟩
      cases ht
      exact hh _ _
    · have h1 := State.dvaGet_fr (a1 := dom) (a2 := dva + off) (a3 := n) (a4 := r) h (hX.after rfl)
      split <;> rename_i hq
      · refine ⟨fun b t ht => (by cases ht), fun t ht => ?_⟩
        cases ht
        exact hf _ _ (Fr.of_snd hq h1)
      · refine ⟨fun b t ht => ?_, fun t ht => by cases ht⟩
        cases ht
        exact Fr.of_snd hq h1
  clear_value fromMem
  split
  · exact ⟨fun b t ht => (by cases ht; exact h), fun t ht => by cases ht⟩
  · exact mem _ _ _ _ (fun s' _ hs => sets _ _ hs) fun _ _ => State.mmuFault_fr h (hX.after rfl)
  · split
    · exact ⟨fun b t ht => (by cases ht), fun t ht => by cases ht; exact sets _ _ h⟩
    · extract_lets end_
      have he : ∀ s' st, Fr X s0 s' → Fr X s0 (end_ s' st) := fun s' st hs => fin _ _ _ (sets _ _ hs)
      clear_value end_
      split
      · split
        · split
          · exact ⟨fun b t ht => (by cases ht; exact State.atsFill_fr h (hX.after rfl)), fun t ht => by cases ht⟩
          · exact ⟨fun b t ht => (by cases ht), fun t ht => by cases ht; exact he _ _ h⟩
          · exact ⟨fun b t ht => (by cases ht), fun t ht => by cases ht; exact State.pageRequest_fr h (hX.after rfl)⟩
          · exact ⟨fun b t ht => (by cases ht), fun t ht => by cases ht; exact he _ _ h⟩
        · dsimp only
          split
          · exact ⟨fun b t ht => (by cases ht), fun t ht => by cases ht; exact he _ _ h⟩
          · refine mem _ _ _ _ he fun _ _ => ?_
            have h1 : ∀ a b c d e, Fr X s0 (State.devFault s a b c d e) := fun a b c d e =>
              State.devFault_fr h (hX.after rfl)
            exact Fr.ite (fun _ => sets _ _ (h1 _ _ _ _ _)) fun _ => h1 _ _ _ _ _
      · exact ⟨fun b t ht => (by cases ht), fun t ht => by cases ht; exact he _ _ h⟩
      · exact ⟨fun b t ht => (by cases ht), fun t ht => by cases ht; exact h⟩

theorem State.lineBytes_fr_got {X : Nat} {s0 s t : State} {g : Nat} {o : LineObj} {off n : Nat} {a : HostAccess}
    {r : MemRead} {b : Bytes} (h : Fr X s0 s) (hX : Sub 0x2c180170000010 X) (ht : s.lineBytes g o off n a r = .got b t) :
    Fr X s0 t := (State.lineBytes_fr h hX).1 b t ht

theorem State.lineBytes_fr_none {X : Nat} {s0 s t : State} {g : Nat} {o : LineObj} {off n : Nat} {a : HostAccess}
    {r : MemRead} (h : Fr X s0 s) (hX : Sub 0x2c180170000010 X) (ht : s.lineBytes g o off n a r = .none t) :
    Fr X s0 t := (State.lineBytes_fr h hX).2 t ht


theorem State.lineFrame_fr {X : Nat} {s0 : State} {s : State} {a1 : ℕ} {a2 : ℕ} {a3 : HostAccess} {a4 : MemRead} (h : Fr X s0 s) (hX : Sub 0x2c180970040050 X) :
    Fr X s0 (State.lineFrame s a1 a2 a3 a4).2 := by
  unfold State.lineFrame
  repeat' first
    | with_reducible assumption
    | ((with_reducible apply hX.after); exact rfl)
    | with_reducible refine State.lineBytes_fr_got ?_ ?_ (by assumption)
    | with_reducible refine State.lineBytes_fr_none ?_ ?_ (by assumption)
    | with_reducible apply State.lineCount_fr
    | with_reducible apply State.setLgrp_fr
    | with_reducible apply State.settFrees_fr
    | with_reducible apply State.setOp_fr
    | (extract_lets +onlyGivenNames x; clear_value x)
    | split

theorem State.lineNew_fr {X : Nat} {s0 : State} {a0 : ℕ} {a1 : HostAccess} {a2 : MemRead} {a3 : List ℕ} {s : State} (h : Fr X s0 s) (hX : Sub 0x2c180970040050 X) :
    Fr X s0 (State.lineNew a0 a1 a2 a3 s).2 := by
  revert h
  fun_induction State.lineNew a0 a1 a2 a3 s
  all_goals intro h
  all_goals repeat' first
    | with_reducible assumption
    | ((with_reducible apply hX.after); exact rfl)
    | with_reducible apply State.lineFrame_fr
    | with_reducible apply State.setLgrp_fr
    | with_reducible refine Fr.of_snd (by assumption) ?_
    | with_reducible refine Fr.of_fst (by assumption) ?_
    | split
    | ((with_reducible apply hX.ok); exact rfl)
    | ((with_reducible apply hX.bit); exact rfl)
    | dsimp only
    | with_reducible apply_assumption -exfalso -symm

theorem State.lineSwitch_fr {X : Nat} {s0 : State} {s : State} {a1 : ℕ} (h : Fr X s0 s) (hX : Sub 0x80000000000 X) :
    Fr X s0 (State.lineSwitch s a1) := by
  unfold State.lineSwitch
  repeat' first
    | with_reducible assumption
    | with_reducible apply State.setLgrp_fr
    | (extract_lets +onlyGivenNames x; clear_value x)
    | split

theorem State.lineFill_fr {X : Nat} {s0 : State} {s : State} {a1 : ℕ} {a2 : HostAccess} {a3 : MemRead} (h : Fr X s0 s) (hX : Sub 0x2c180970040050 X) :
    Fr X s0 (State.lineFill s a1 a2 a3).2 := by
  unfold State.lineFill
  repeat' first
    | with_reducible assumption
    | ((with_reducible apply hX.after); exact rfl)
    | with_reducible apply State.lineCount_fr
    | with_reducible refine State.lineAnswer_fr ?_ ?_ (by assumption)
    | with_reducible apply State.lineSwitch_fr
    | with_reducible apply State.setLgrp_fr
    | with_reducible apply State.lineNew_fr
    | with_reducible refine Fr.of_snd (by assumption) ?_
    | (intro x)
    | (extract_lets +onlyGivenNames x; first
        | (refine Fr.cut (X := X) (s0 := s0) (s := x) ?_ (fun hx => ?_); (on_goal 2 => clear_value x); (on_goal 1 => (unfold x; clear x)))
        | (refine Fr.cut_fn5 (X := X) (s0 := s0) (f := x) ?_ (fun hx => ?_); (on_goal 2 => clear_value x); (on_goal 1 => (unfold x; clear x)))
        | clear_value x)
    | split
    | with_reducible apply_assumption -exfalso -symm

theorem State.dccIn_fr {X : Nat} {s0 : State} {s : State} {a1 : ℕ} {a2 : Option Byte} (h : Fr X s0 s) (hX : Sub 0x80000000000 X) :
    Fr X s0 (State.dccIn s a1 a2).2 := by
  unfold State.dccIn
  repeat' first
    | with_reducible assumption
    | with_reducible apply State.onLine_fr
    | (extract_lets +onlyGivenNames x; clear_value x)
    | split

theorem State.lineEmit_fr {X : Nat} {s0 : State} {s : State} {a1 : ℕ} {a2 : ℕ} {a3 : ℕ} {a4 : ℕ} {a5 : ℕ} {a6 : Byte} {a7 : Byte} {a8 : ℕ × ℕ} {a9 : Bytes} (h : Fr X s0 s) (hX : Sub 0x8080000000000 X) :
    Fr X s0 (State.lineEmit s a1 a2 a3 a4 a5 a6 a7 a8 a9) := by
  unfold State.lineEmit
  repeat' first
    | with_reducible assumption
    | ((with_reducible apply hX.after); exact rfl)
    | with_reducible apply State.emit_fr
    | with_reducible apply State.setLgrp_fr
    | (extract_lets +onlyGivenNames x; clear_value x)
    | split

theorem State.slfTransmit_fr {X : Nat} {s0 : State} {s : State} {a1 : ℕ} {a2 : Option Byte} {a3 : Option Byte} {a4 : HostAccess} {a5 : MemRead} (h : Fr X s0 s) (hX : Sub 0x2c180970040050 X) :
    Fr X s0 (State.slfTransmit s a1 a2 a3 a4 a5) := by
  unfold State.slfTransmit
  repeat' first
    | with_reducible assumption
    | ((with_reducible apply hX.after); exact rfl)
    | with_reducible apply State.lineFill_fr
    | with_reducible apply State.dccIn_fr
    | with_reducible apply State.lineEmit_fr
    | with_reducible apply State.lineCount_fr
    | with_reducible apply State.setLgrp_fr
    | with_reducible apply Fr.foldl
    | (intro x)
    | (extract_lets +onlyGivenNames x; clear_value x)
    | split

theorem State.lineRxEnd_fr {X : Nat} {s0 : State} {s : State} {a1 : ℕ} {a2 : ℕ} {a3 : RxObj} {a4 : ℕ} (h : Fr X s0 s) (hX : Sub 0x80040000000 X) :
    Fr X s0 (State.lineRxEnd s a1 a2 a3 a4) := by
  unfold State.lineRxEnd
  repeat' first
    | with_reducible assumption
    | ((with_reducible apply hX.after); exact rfl)
    | with_reducible apply State.finish_fr
    | with_reducible apply State.setLgrp_fr
    | (extract_lets +onlyGivenNames x; clear_value x)
    | split

theorem State.slfGone_fr {X : Nat} {s0 : State} {s : State} {a1 : ℕ} {a2 : Bytes} (h : Fr X s0 s) (hX : Sub 0x80040040000 X) :
    Fr X s0 (State.slfGone s a1 a2) := by
  unfold State.slfGone
  repeat' first
    | with_reducible assumption
    | ((with_reducible apply hX.after); exact rfl)
    | with_reducible apply State.lineCount_fr
    | with_reducible apply State.lineRxEnd_fr
    | with_reducible apply State.setLgrp_fr
    | (extract_lets +onlyGivenNames x; first
        | (refine Fr.cut (X := X) (s0 := s0) (s := x) ?_ (fun hx => ?_); (on_goal 2 => clear_value x); (on_goal 1 => (unfold x; clear x)))
        | clear_value x)
    | split

theorem State.lineOpen_fr {X : Nat} {s0 : State} {s : State} {a1 : ℕ} {a2 : ℕ} {a3 : Bytes} (h : Fr X s0 s) (hX : Sub 0x20000c0000 X) :
    Fr X s0 (State.lineOpen s a1 a2 a3).2 := by
  unfold State.lineOpen
  repeat' first
    | with_reducible assumption
    | ((with_reducible apply hX.after); exact rfl)
    | with_reducible apply State.lineCount_fr
    | with_reducible apply State.kexSwitch_fr
    | with_reducible apply State.setLink_fr
    | (extract_lets +onlyGivenNames x; clear_value x)
    | split

theorem State.slfData_fr {X : Nat} {s0 : State} {s : State} {a1 : ℕ} {a2 : Option ℕ} {a3 : Bytes} (h : Fr X s0 s) (hX : Sub 0x820000c0000 X) :
    Fr X s0 (State.slfData s a1 a2 a3) := by
  unfold State.slfData
  repeat' first
    | with_reducible assumption
    | ((with_reducible apply hX.after); exact rfl)
    | with_reducible apply State.lineCount_fr
    | with_reducible apply State.lineOpen_fr
    | with_reducible apply State.setLgrp_fr
    | with_reducible refine Fr.of_snd (by assumption) ?_
    | (extract_lets +onlyGivenNames x; first
        | (refine Fr.cut (X := X) (s0 := s0) (s := x) ?_ (fun hx => ?_); (on_goal 2 => clear_value x); (on_goal 1 => (unfold x; clear x)))
        | clear_value x)
    | split

theorem State.slfBody_fr {X : Nat} {s0 : State} {s : State} {a1 : ℕ} {a2 : Option ℕ} {a3 : Bytes} (h : Fr X s0 s) (hX : Sub 0xc0820400c0000 X) :
    Fr X s0 (State.slfBody s a1 a2 a3) := by
  unfold State.slfBody
  repeat' first
    | with_reducible assumption
    | ((with_reducible apply hX.after); exact rfl)
    | with_reducible apply State.slfData_fr
    | with_reducible apply State.slfGone_fr
    | with_reducible apply State.kexMessage_fr
    | split

theorem State.slfAck_fr {X : Nat} {s0 : State} {s : State} {a1 : ℕ} {a2 : ℕ} (h : Fr X s0 s) (hX : Sub 0x80040000000 X) :
    Fr X s0 (State.slfAck s a1 a2) := by
  unfold State.slfAck
  repeat' first
    | with_reducible assumption
    | ((with_reducible apply hX.after); exact rfl)
    | with_reducible apply State.lineSendDone_fr
    | with_reducible apply State.setLgrp_fr
    | with_reducible apply Fr.foldl
    | (intro x)
    | (extract_lets +onlyGivenNames x; first
        | (refine Fr.cut (X := X) (s0 := s0) (s := x) ?_ (fun hx => ?_); (on_goal 2 => clear_value x); (on_goal 1 => (unfold x; clear x)))
        | clear_value x)
    | split

theorem State.slfNack_fr {X : Nat} {s0 : State} {s : State} {a1 : ℕ} {a2 : ℕ} {a3 : ℕ} (h : Fr X s0 s) (hX : Sub 0x80000000000 X) :
    Fr X s0 (State.slfNack s a1 a2 a3) := by
  unfold State.slfNack
  repeat' first
    | with_reducible assumption
    | with_reducible apply State.setLgrp_fr
    | (extract_lets +onlyGivenNames x; clear_value x)
    | split

theorem State.mfDecode_fr {X : Nat} {s0 : State} {s : State} {a1 : ℕ} {a2 : ℕ} (h : Fr X s0 s) (hX : Sub 0xc0820400c0000 X) :
    Fr X s0 (State.mfDecode s a1 a2) := by
  unfold State.mfDecode
  repeat' first
    | with_reducible assumption
    | ((with_reducible apply hX.after); exact rfl)
    | with_reducible apply State.slfBody_fr
    | with_reducible apply State.setLgrp_fr
    | with_reducible apply Fr.foldl
    | (intro x)
    | (extract_lets +onlyGivenNames x; clear_value x)
    | split

theorem State.dccOut_fr {X : Nat} {s0 : State} {s : State} {a1 : ℕ} {a2 : ℕ} {a3 : Byte} (h : Fr X s0 s) (hX : Sub 0x80000040000 X) :
    Fr X s0 (State.dccOut s a1 a2 a3) := by
  unfold State.dccOut
  repeat' first
    | with_reducible assumption
    | ((with_reducible apply hX.after); exact rfl)
    | with_reducible apply State.bump_fr
    | with_reducible apply State.onLine_fr
    | with_reducible apply State.setFlag_fr
    | (intro x)
    | (extract_lets +onlyGivenNames x; first
        | (refine Fr.cut_fn2 (X := X) (s0 := s0) (f := x) ?_ (fun hx => ?_); (on_goal 2 => clear_value x); (on_goal 1 => (unfold x; clear x)))
        | clear_value x)
    | split
    | ((with_reducible apply hX.ok); exact rfl)
    | (with_reducible apply Sub.nth)
    | with_reducible apply_assumption -exfalso -symm

theorem State.slfReceive_fr {X : Nat} {s0 s : State} {lane : Nat} {frame : Bytes} (h : Fr X s0 s)
    (hX : Sub 0x2c0820700c0000 X) : Fr X s0 (State.slfReceive s lane frame) := by
  unfold State.slfReceive
  generalize s.laneGroup lane = o
  cases o with
  | none => exact h
  | some g =>
    refine Fr.ite (fun _ => h) fun _ => ?_
    extract_lets leg hd pos flags mfn body now s1 x put jc
    have h1 : Fr X s0 s1 := State.onLeg_fr h (hX.after rfl)
    have hp : ∀ u v, Fr X s0 u → Fr X s0 (put u v) := fun u v hu => State.setLgrp_fr hu (hX.after rfl)
    clear_value put s1 x
    split
    extract_lets s2 s3 y m seen m1 s4 s5 s6 s7
    have h3 : Fr X s0 s3 := State.slfNack_fr (State.slfAck_fr (State.lineRefresh_fr (State.setLgrp_fr h1 (hX.after rfl))
      (hX.after rfl)) (hX.after rfl)) (hX.after rfl)
    clear_value s3
    have h4 : Fr X s0 s4 := hp _ _ h3
    clear_value s4
    have h5 : Fr X s0 s5 := Fr.ite (fun _ => State.dccOut_fr h4 (hX.after rfl)) fun _ => h4
    clear_value s5
    have h6 : Fr X s0 s6 := Fr.ite (fun _ => State.dccOut_fr h5 (hX.after rfl)) fun _ => h5
    clear_value s6
    have h7 : Fr X s0 s7 := Fr.ite (fun _ => State.slfBody_fr h6 (hX.after rfl)) fun _ => h6
    clear_value s7
    refine Fr.ite (fun _ => Fr.ite (fun _ => State.lineCount_fr h3 (hX.after rfl)) fun _ => h3) fun _ =>
      Fr.ite (fun _ => hp _ _ h3) fun _ => Fr.ite (fun _ => State.lineCount_fr (hp _ _ h3) (hX.after rfl))
      fun _ => Fr.ite (fun _ => hp _ _ h3) fun _ => State.mfDecode_fr h7 (hX.after rfl)


theorem State.mfExpire_fr {X : Nat} {s0 : State} {s : State} {a1 : ℕ} {a2 : ℕ} (h : Fr X s0 s) (hX : Sub 0x2c0820700c0000 X) :
    Fr X s0 (State.mfExpire s a1 a2) := by
  unfold State.mfExpire
  repeat' first
    | with_reducible assumption
    | ((with_reducible apply hX.after); exact rfl)
    | with_reducible apply State.lineRefresh_fr
    | with_reducible apply State.lineCount_fr
    | with_reducible apply State.onLeg_fr
    | with_reducible apply State.setLgrp_fr
    | with_reducible apply Fr.foldl
    | (intro x)
    | (extract_lets +onlyGivenNames x; first
        | (refine Fr.cut (X := X) (s0 := s0) (s := x) ?_ (fun hx => ?_); (on_goal 2 => clear_value x); (on_goal 1 => (unfold x; clear x)))
        | clear_value x)
    | split

theorem State.bufPut_fr_done {X : Nat} {s0 : State} {s : State} {a1 : OpKey} {a2 : ℕ} {a3 : Bytes} {a4 : HostAccess} (h : Fr X s0 s) (hX : Sub 0x3c000170000000 X) {t : State}
    (ht : State.bufPut s a1 a2 a3 a4 = .done t) : Fr X s0 t := by
  revert ht
  unfold State.bufPut
  repeat' first
    | with_reducible assumption
    | ((with_reducible apply hX.after); exact rfl)
    | with_reducible apply State.finish_fr
    | with_reducible apply State.emit_fr
    | with_reducible apply State.atsFill_fr
    | with_reducible apply State.pageRequest_fr
    | with_reducible apply State.devFault_fr
    | with_reducible apply State.dvaWrite_fr
    | (extract_lets +onlyGivenNames x; first
        | (refine Fr.cut (X := X) (s0 := s0) (s := x) ?_ (fun hx => ?_); (on_goal 2 => clear_value x); (on_goal 1 => (unfold x; clear x)))
        | clear_value x)
    | split
    | (refine fun (ht : _ = _) => ?_; first | (cases ht; done) | cases ht | (revert ht; split) | skip)

theorem State.bufPut_fr_wait {X : Nat} {s0 : State} {s : State} {a1 : OpKey} {a2 : ℕ} {a3 : Bytes} {a4 : HostAccess} (h : Fr X s0 s) (hX : Sub 0x3c000170000000 X) {t : State}
    (ht : State.bufPut s a1 a2 a3 a4 = .wait t) : Fr X s0 t := by
  revert ht
  unfold State.bufPut
  repeat' first
    | with_reducible assumption
    | ((with_reducible apply hX.after); exact rfl)
    | with_reducible apply State.finish_fr
    | with_reducible apply State.emit_fr
    | with_reducible apply State.atsFill_fr
    | with_reducible apply State.pageRequest_fr
    | with_reducible apply State.devFault_fr
    | with_reducible apply State.dvaWrite_fr
    | (extract_lets +onlyGivenNames x; first
        | (refine Fr.cut (X := X) (s0 := s0) (s := x) ?_ (fun hx => ?_); (on_goal 2 => clear_value x); (on_goal 1 => (unfold x; clear x)))
        | clear_value x)
    | split
    | (refine fun (ht : _ = _) => ?_; first | (cases ht; done) | cases ht | (revert ht; split) | skip)

theorem State.bufPut_fr_ended {X : Nat} {s0 : State} {s : State} {a1 : OpKey} {a2 : ℕ} {a3 : Bytes} {a4 : HostAccess} (h : Fr X s0 s) (hX : Sub 0x3c000170000000 X) {t : State}
    (ht : State.bufPut s a1 a2 a3 a4 = .ended t) : Fr X s0 t := by
  revert ht
  unfold State.bufPut
  repeat' first
    | with_reducible assumption
    | ((with_reducible apply hX.after); exact rfl)
    | with_reducible apply State.finish_fr
    | with_reducible apply State.emit_fr
    | with_reducible apply State.atsFill_fr
    | with_reducible apply State.pageRequest_fr
    | with_reducible apply State.devFault_fr
    | with_reducible apply State.dvaWrite_fr
    | (extract_lets +onlyGivenNames x; first
        | (refine Fr.cut (X := X) (s0 := s0) (s := x) ?_ (fun hx => ?_); (on_goal 2 => clear_value x); (on_goal 1 => (unfold x; clear x)))
        | clear_value x)
    | split
    | (refine fun (ht : _ = _) => ?_; first | (cases ht; done) | cases ht | (revert ht; split) | skip)

theorem State.lineTake_fr {X : Nat} {s0 : State} {s : State} {a1 : ℕ} {a2 : ℕ} {a3 : RxFrame} {a4 : List ℕ} {a5 : HostAccess} (h : Fr X s0 s) (hX : Sub 0x3c1819700401c0 X) :
    Fr X s0 (State.lineTake s a1 a2 a3 a4 a5) := by
  unfold State.lineTake
  repeat' first
    | with_reducible assumption
    | ((with_reducible apply hX.after); exact rfl)
    | with_reducible apply State.settFrees_fr
    | with_reducible apply State.setLgrp_fr
    | with_reducible apply State.lineRxEnd_fr
    | with_reducible apply State.ingressStored_fr
    | with_reducible apply State.emit_fr
    | with_reducible refine State.bufPut_fr_done ?_ ?_ (by assumption)
    | with_reducible refine State.bufPut_fr_wait ?_ ?_ (by assumption)
    | with_reducible refine State.bufPut_fr_ended ?_ ?_ (by assumption)
    | with_reducible apply State.lineCount_fr
    | (extract_lets +onlyGivenNames x; first
        | (refine Fr.cut (X := X) (s0 := s0) (s := x) ?_ (fun hx => ?_); (on_goal 2 => clear_value x); (on_goal 1 => (unfold x; clear x)))
        | clear_value x)
    | split

theorem State.lineDeliver_fr {X : Nat} {s0 : State} {s : State} {a1 : ℕ} {a2 : ℕ} {a3 : HostAccess} (h : Fr X s0 s) (hX : Sub 0x3c1819700401c0 X) :
    Fr X s0 (State.lineDeliver s a1 a2 a3) := by
  unfold State.lineDeliver
  repeat' first
    | with_reducible assumption
    | ((with_reducible apply hX.after); exact rfl)
    | with_reducible apply State.settStore_fr
    | with_reducible apply State.lineTake_fr
    | with_reducible refine Fr.of_snd (by assumption) ?_
    | (extract_lets +onlyGivenNames x; clear_value x)
    | split

theorem State.lineLetGo_fr {X : Nat} {s0 : State} {s : State} {a1 : ℕ} (h : Fr X s0 s) (hX : Sub 0x2c080070000000 X) :
    Fr X s0 (State.lineLetGo s a1) := by
  unfold State.lineLetGo
  repeat' first
    | with_reducible assumption
    | ((with_reducible apply hX.after); exact rfl)
    | with_reducible apply State.raise_fr
    | with_reducible apply State.lineGoneOp_fr
    | with_reducible apply State.setLgrp_fr
    | with_reducible apply Fr.foldl
    | (intro x)
    | (extract_lets +onlyGivenNames x; first
        | (refine Fr.cut (X := X) (s0 := s0) (s := x) ?_ (fun hx => ?_); (on_goal 2 => clear_value x); (on_goal 1 => (unfold x; clear x)))
        | clear_value x)
    | split

theorem State.lineDisable_fr {X : Nat} {s0 : State} {s : State} {a1 : ℕ} (h : Fr X s0 s) (hX : Sub 0x2c0828700c0040 X) :
    Fr X s0 (State.lineDisable s a1) := by
  unfold State.lineDisable
  repeat' first
    | with_reducible assumption
    | ((with_reducible apply hX.after); exact rfl)
    | with_reducible apply State.dccHold_fr
    | with_reducible apply State.showLine_fr
    | with_reducible apply State.linkDrop_fr
    | with_reducible apply State.finish_fr
    | with_reducible apply State.setLgrp_fr
    | with_reducible apply State.settFrees_fr
    | with_reducible apply Fr.foldl
    | (intro x)
    | split

theorem State.lineEnable_fr {X : Nat} {s0 : State} {s : State} {a1 : ℕ} (h : Fr X s0 s) (hX : Sub 0x3c0821700c0000 X) :
    Fr X s0 (State.lineEnable s a1) := by
  unfold State.lineEnable
  repeat' first
    | with_reducible assumption
    | ((with_reducible apply hX.after); exact rfl)
    | with_reducible apply State.lineRefresh_fr
    | with_reducible apply State.setFld_fr
    | with_reducible apply State.setLgrp_fr
    | with_reducible apply State.openRange_fr
    | ((with_reducible apply hX.ok); exact rfl)

theorem State.pmSecond_fr {X : Nat} {s0 : State} {s : State} {a1 : ℕ} {a2 : ℕ} {a3 : ℕ} {a4 : ℕ} (h : Fr X s0 s) (hX : Sub 0x2c0820700c0000 X) :
    Fr X s0 (State.pmSecond s a1 a2 a3 a4) := by
  unfold State.pmSecond
  repeat' first
    | with_reducible assumption
    | ((with_reducible apply hX.after); exact rfl)
    | with_reducible apply State.lineRefresh_fr
    | with_reducible apply State.raise_fr
    | with_reducible apply State.setLgrp_fr
    | (extract_lets +onlyGivenNames x; clear_value x)
    | split

theorem State.laneFault_fr {X : Nat} {s0 : State} {s : State} {a1 : ℕ} (h : Fr X s0 s) (hX : Sub 0x2c0820700c0000 X) :
    Fr X s0 (State.laneFault s a1) := by
  unfold State.laneFault
  repeat' first
    | with_reducible assumption
    | ((with_reducible apply hX.after); exact rfl)
    | with_reducible apply State.lineRefresh_fr
    | with_reducible apply State.onLine_fr
    | split

theorem State.laneDark_fr {X : Nat} {s0 : State} {s : State} {a1 : ℕ} (h : Fr X s0 s) (hX : Sub 0x80000000000 X) :
    Fr X s0 (State.laneDark s a1) := by
  unfold State.laneDark
  repeat' first
    | with_reducible assumption
    | with_reducible apply State.onLine_fr
    | split

theorem State.laneReturn_fr {X : Nat} {s0 : State} {s : State} {a1 : ℕ} (h : Fr X s0 s) (hX : Sub 0x2c0820700c0000 X) :
    Fr X s0 (State.laneReturn s a1) := by
  unfold State.laneReturn
  repeat' first
    | with_reducible assumption
    | ((with_reducible apply hX.after); exact rfl)
    | with_reducible apply State.lineRefresh_fr
    | with_reducible apply State.onLine_fr
    | split

theorem State.legLof_fr {X : Nat} {s0 : State} {s : State} {a1 : ℕ} {a2 : ℕ} (h : Fr X s0 s) (hX : Sub 0x2c0820700c0000 X) :
    Fr X s0 (State.legLof s a1 a2) := by
  unfold State.legLof
  repeat' first
    | with_reducible assumption
    | ((with_reducible apply hX.after); exact rfl)
    | with_reducible apply State.lineRefresh_fr
    | with_reducible apply State.onLeg_fr
    | split

theorem State.wtrExpire_fr {X : Nat} {s0 : State} {s : State} {a1 : ℕ} {a2 : ℕ} (h : Fr X s0 s) (hX : Sub 0x2c0820700c0000 X) :
    Fr X s0 (State.wtrExpire s a1 a2) := by
  unfold State.wtrExpire
  repeat' first
    | with_reducible assumption
    | ((with_reducible apply hX.after); exact rfl)
    | with_reducible apply State.lineRefresh_fr
    | with_reducible apply State.onLeg_fr
    | (extract_lets +onlyGivenNames x; clear_value x)
    | split

theorem State.nackAgain_fr {X : Nat} {s0 : State} {s : State} {a1 : ℕ} {a2 : ℕ} (h : Fr X s0 s) (hX : Sub 0x80000000000 X) :
    Fr X s0 (State.nackAgain s a1 a2) := by
  unfold State.nackAgain
  repeat' first
    | with_reducible assumption
    | with_reducible apply State.setLgrp_fr

theorem State.dccFrame_fr {X : Nat} {s0 : State} {s : State} {a1 : ℕ} (h : Fr X s0 s) (hX : Sub 0x8080000040000 X) :
    Fr X s0 (State.dccFrame s a1) := by
  unfold State.dccFrame
  repeat' first
    | with_reducible assumption
    | ((with_reducible apply hX.after); exact rfl)
    | with_reducible apply State.setFlag_fr
    | with_reducible apply State.onLine_fr
    | with_reducible apply State.emit_fr
    | with_reducible apply State.bump_fr
    | (intro x)
    | (extract_lets +onlyGivenNames x; first
        | (refine Fr.cut_fn2 (X := X) (s0 := s0) (f := x) ?_ (fun hx => ?_); (on_goal 2 => clear_value x); (on_goal 1 => (unfold x; clear x)))
        | clear_value x)
    | split
    | ((with_reducible apply hX.ok); exact rfl)
    | (with_reducible apply Sub.nth)
    | with_reducible apply_assumption -exfalso -symm

theorem execLineSend_fr {X : Nat} {s0 : State} {a0 : OpKey} {s : State} (h : Fr X s0 s) (hX : Sub 0x80040000000 X) {t : State}
    (ht : execLineSend a0 s = .next t) : Fr X s0 t := by
  unfold execLineSend at ht
  obtain rfl := Host.Outcome.next.inj ht
  repeat' first
    | with_reducible assumption
    | ((with_reducible apply hX.after); exact rfl)
    | with_reducible apply State.start_fr
    | with_reducible apply State.lineSend_fr
    | (intro x)

theorem execLinePost_fr {X : Nat} {s0 : State} {a0 : OpKey} {s : State} (h : Fr X s0 s) (hX : Sub 0x80040000000 X) {t : State}
    (ht : execLinePost a0 s = .next t) : Fr X s0 t := by
  unfold execLinePost at ht
  obtain rfl := Host.Outcome.next.inj ht
  repeat' first
    | with_reducible assumption
    | ((with_reducible apply hX.after); exact rfl)
    | with_reducible apply State.start_fr
    | with_reducible apply State.linePost_fr
    | (intro x)

theorem execSlfTransmit_fr {X : Nat} {s0 : State} {a0 : ℕ} {a1 : Option Byte} {a2 : Option Byte} {a3 : HostAccess} {a4 : MemRead} {s : State} (h : Fr X s0 s) (hX : Sub 0x2c180970040050 X) {t : State}
    (ht : execSlfTransmit a0 a1 a2 a3 a4 s = .next t) : Fr X s0 t := by
  unfold execSlfTransmit at ht
  obtain rfl := Host.Outcome.next.inj ht
  repeat' first
    | with_reducible assumption
    | ((with_reducible apply hX.after); exact rfl)
    | with_reducible apply State.inCore_fr
    | with_reducible apply State.slfTransmit_fr
    | (intro x)

theorem execSlfReceive_fr {X : Nat} {s0 : State} {a0 : ℕ} {a1 : Bytes} {s : State} (h : Fr X s0 s) (hX : Sub 0x2c0820700c0000 X) {t : State}
    (ht : execSlfReceive a0 a1 s = .next t) : Fr X s0 t := by
  unfold execSlfReceive at ht
  obtain rfl := Host.Outcome.next.inj ht
  repeat' first
    | with_reducible assumption
    | ((with_reducible apply hX.after); exact rfl)
    | with_reducible apply State.inCore_fr
    | with_reducible apply State.slfReceive_fr
    | (intro x)

theorem execMfSkewExpire_fr {X : Nat} {s0 : State} {a0 : ℕ} {a1 : ℕ} {s : State} (h : Fr X s0 s) (hX : Sub 0x2c0820700c0000 X) {t : State}
    (ht : execMfSkewExpire a0 a1 s = .next t) : Fr X s0 t := by
  unfold execMfSkewExpire at ht
  obtain rfl := Host.Outcome.next.inj ht
  repeat' first
    | with_reducible assumption
    | ((with_reducible apply hX.after); exact rfl)
    | with_reducible apply State.inCore_fr
    | with_reducible apply State.mfExpire_fr
    | (intro x)

theorem execNackResendTimer_fr {X : Nat} {s0 : State} {a0 : ℕ} {a1 : ℕ} {s : State} (h : Fr X s0 s) (hX : Sub 0x80000000000 X) {t : State}
    (ht : execNackResendTimer a0 a1 s = .next t) : Fr X s0 t := by
  unfold execNackResendTimer at ht
  obtain rfl := Host.Outcome.next.inj ht
  repeat' first
    | with_reducible assumption
    | ((with_reducible apply hX.after); exact rfl)
    | with_reducible apply State.inCore_fr
    | with_reducible apply State.nackAgain_fr
    | (intro x)

theorem execLineDeliver_fr {X : Nat} {s0 : State} {a0 : ℕ} {a1 : ℕ} {a2 : HostAccess} {s : State} (h : Fr X s0 s) (hX : Sub 0x3c18d970040dc0 X) {t : State}
    (ht : execLineDeliver a0 a1 a2 s = .next t) : Fr X s0 t := by
  unfold execLineDeliver at ht
  obtain rfl := Host.Outcome.next.inj ht
  repeat' first
    | with_reducible assumption
    | ((with_reducible apply hX.after); exact rfl)
    | with_reducible apply State.inPool_fr
    | with_reducible apply State.lineDeliver_fr
    | (intro x)

theorem execLaneFault_fr {X : Nat} {s0 : State} {a0 : ℕ} {s : State} (h : Fr X s0 s) (hX : Sub 0x2c0820700c0000 X) {t : State}
    (ht : execLaneFault a0 s = .next t) : Fr X s0 t := by
  unfold execLaneFault at ht
  obtain rfl := Host.Outcome.next.inj ht
  repeat' first
    | with_reducible assumption
    | ((with_reducible apply hX.after); exact rfl)
    | with_reducible apply State.inCore_fr
    | with_reducible apply State.laneFault_fr
    | (intro x)

theorem execLaneReturnTimer_fr {X : Nat} {s0 : State} {a0 : ℕ} {s : State} (h : Fr X s0 s) (hX : Sub 0x2c0820700c0000 X) {t : State}
    (ht : execLaneReturnTimer a0 s = .next t) : Fr X s0 t := by
  unfold execLaneReturnTimer at ht
  obtain rfl := Host.Outcome.next.inj ht
  repeat' first
    | with_reducible assumption
    | ((with_reducible apply hX.after); exact rfl)
    | with_reducible apply State.inCore_fr
    | with_reducible apply State.laneReturn_fr
    | (intro x)

theorem execLegLofTimer_fr {X : Nat} {s0 : State} {a0 : ℕ} {a1 : ℕ} {s : State} (h : Fr X s0 s) (hX : Sub 0x2c0820700c0000 X) {t : State}
    (ht : execLegLofTimer a0 a1 s = .next t) : Fr X s0 t := by
  unfold execLegLofTimer at ht
  obtain rfl := Host.Outcome.next.inj ht
  repeat' first
    | with_reducible assumption
    | ((with_reducible apply hX.after); exact rfl)
    | with_reducible apply State.inCore_fr
    | with_reducible apply State.legLof_fr
    | (intro x)

theorem execPmSecond_fr {X : Nat} {s0 : State} {a0 : ℕ} {a1 : ℕ} {a2 : ℕ} {a3 : ℕ} {s : State} (h : Fr X s0 s) (hX : Sub 0x2c0820700c0000 X) {t : State}
    (ht : execPmSecond a0 a1 a2 a3 s = .next t) : Fr X s0 t := by
  unfold execPmSecond at ht
  obtain rfl := Host.Outcome.next.inj ht
  repeat' first
    | with_reducible assumption
    | ((with_reducible apply hX.after); exact rfl)
    | with_reducible apply State.inCore_fr
    | with_reducible apply State.pmSecond_fr
    | (intro x)

theorem execSuspendHoldExpire_fr {X : Nat} {s0 : State} {a0 : ℕ} {s : State} (h : Fr X s0 s) (hX : Sub 0x2c080070000000 X) {t : State}
    (ht : execSuspendHoldExpire a0 s = .next t) : Fr X s0 t := by
  unfold execSuspendHoldExpire at ht
  obtain rfl := Host.Outcome.next.inj ht
  repeat' first
    | with_reducible assumption
    | ((with_reducible apply hX.after); exact rfl)
    | with_reducible apply State.inCore_fr
    | with_reducible apply State.lineLetGo_fr
    | (intro x)

theorem execWtrExpire_fr {X : Nat} {s0 : State} {a0 : ℕ} {a1 : ℕ} {s : State} (h : Fr X s0 s) (hX : Sub 0x2c0820700c0000 X) {t : State}
    (ht : execWtrExpire a0 a1 s = .next t) : Fr X s0 t := by
  unfold execWtrExpire at ht
  obtain rfl := Host.Outcome.next.inj ht
  repeat' first
    | with_reducible assumption
    | ((with_reducible apply hX.after); exact rfl)
    | with_reducible apply State.inCore_fr
    | with_reducible apply State.wtrExpire_fr
    | (intro x)

theorem execKeyGraceExpire_fr {X : Nat} {s0 : State} {a0 : ℕ} {s : State} (h : Fr X s0 s) (hX : Sub 0x2000080000 X) {t : State}
    (ht : execKeyGraceExpire a0 s = .next t) : Fr X s0 t := by
  unfold execKeyGraceExpire at ht
  obtain rfl := Host.Outcome.next.inj ht
  repeat' first
    | with_reducible assumption
    | ((with_reducible apply hX.after); exact rfl)
    | with_reducible apply State.inCore_fr
    | with_reducible apply State.retirePrev_fr
    | (intro x)
    | split

theorem execDccFrameOut_fr {X : Nat} {s0 : State} {a0 : ℕ} {s : State} (h : Fr X s0 s) (hX : Sub 0x8080000040000 X) {t : State}
    (ht : execDccFrameOut a0 s = .next t) : Fr X s0 t := by
  unfold execDccFrameOut at ht
  obtain rfl := Host.Outcome.next.inj ht
  repeat' first
    | with_reducible assumption
    | ((with_reducible apply hX.after); exact rfl)
    | with_reducible apply State.inCore_fr
    | with_reducible apply State.dccFrame_fr
    | (intro x)

theorem execSlfRdClr_fr {X : Nat} {s0 : State} {a0 : View} {a1 : Word} {s : State} (h : Fr X s0 s) (hX : Sub 0x4040000 X) {t : State}
    (ht : execSlfRdClr a0 a1 s = .next t) : Fr X s0 t := by
  unfold execSlfRdClr at ht
  obtain rfl := Host.Outcome.next.inj ht
  repeat' first
    | with_reducible assumption
    | ((with_reducible apply hX.after); exact rfl)
    | with_reducible apply State.selClear_fr
    | with_reducible apply State.setFld_fr
    | with_reducible apply Fr.foldl
    | ((with_reducible apply hX.ok); exact rfl)
    | (intro x)

theorem execLinkUp_fr {X : Nat} {s0 : State} {a0 : ℕ} {s : State} (h : Fr X s0 s) (hX : Sub 0x2c0834704f0000 X) {t : State}
    (ht : execLinkUp a0 s = .next t) : Fr X s0 t := by
  unfold execLinkUp at ht
  obtain rfl := Host.Outcome.next.inj ht
  repeat' first
    | with_reducible assumption
    | ((with_reducible apply hX.after); exact rfl)
    | with_reducible apply State.inCore_fr
    | with_reducible apply State.lineRefresh_fr
    | with_reducible apply State.linkUp_fr
    | (intro x)
    | split

theorem execLinkDown_fr {X : Nat} {s0 : State} {a0 : ℕ} {s : State} (h : Fr X s0 s) (hX : Sub 0x3c08fd704f0cc0 X) {t : State}
    (ht : execLinkDown a0 s = .next t) : Fr X s0 t := by
  unfold execLinkDown at ht
  obtain rfl := Host.Outcome.next.inj ht
  repeat' first
    | with_reducible assumption
    | ((with_reducible apply hX.after); exact rfl)
    | with_reducible apply State.inPool_fr
    | with_reducible apply State.lineRefresh_fr
    | with_reducible apply State.showTraffic_fr
    | with_reducible apply State.setLaneSt_fr
    | with_reducible apply State.laneDark_fr
    | with_reducible apply State.linkDown_fr
    | (intro x)
    | split

theorem State.outCount_fr {X : Nat} {s0 : State} {s : State} {a1 : ℕ} (h : Fr X s0 s) (hX : Sub 0x8000 X) :
    Fr X s0 (State.outCount s a1) := by
  unfold State.outCount
  repeat' first
    | with_reducible assumption
    | with_reducible apply State.bump_fr
    | ((with_reducible apply hX.ok); exact rfl)

theorem State.onShard_fr {X : Nat} {s0 : State} {s : State} {a1 : ℕ} {a2 : OutShard → OutShard} (h : Fr X s0 s) (hX : Sub 0x400000000000 X) :
    Fr X s0 (State.onShard s a1 a2) := by
  unfold State.onShard
  repeat' first
    | with_reducible assumption
    | with_reducible apply State.setShard_fr

theorem State.onPiece_fr {X : Nat} {s0 : State} {s : State} {a1 : ℕ} {a2 : ℕ} {a3 : OutPiece → OutPiece} (h : Fr X s0 s) (hX : Sub 0x400000000000 X) :
    Fr X s0 (State.onPiece s a1 a2 a3) := by
  unfold State.onPiece
  repeat' first
    | with_reducible assumption
    | with_reducible apply State.onShard_fr

theorem State.outPut_fr {X : Nat} {s0 : State} {s : State} {a1 : Bytes} {a2 : ℕ} {a3 : ℕ} {a4 : Bytes} {a5 : Bytes} (h : Fr X s0 s) (hX : Sub 0x80000000000 X) :
    Fr X s0 (State.outPut s a1 a2 a3 a4 a5) := by
  unfold State.outPut
  repeat' first
    | with_reducible assumption
    | with_reducible apply State.linePut_fr
    | split

theorem State.outTo_fr {X : Nat} {s0 : State} {s : State} {a1 : Bytes} {a2 : List ℕ} {a3 : ℕ} {a4 : Bytes} {a5 : Bytes} (h : Fr X s0 s) (hX : Sub 0x80000000000 X) :
    Fr X s0 (State.outTo s a1 a2 a3 a4 a5) := by
  unfold State.outTo
  repeat' first
    | with_reducible assumption
    | with_reducible apply State.outPut_fr
    | with_reducible apply Fr.foldl
    | (intro x)
    | (extract_lets +onlyGivenNames x; clear_value x)
    | split

theorem State.outForward_fr {X : Nat} {s0 : State} {s : State} {a1 : Bytes} {a2 : ℕ} {a3 : ℕ} {a4 : Bytes} {a5 : Bytes} (h : Fr X s0 s) (hX : Sub 0x80000000000 X) :
    Fr X s0 (State.outForward s a1 a2 a3 a4 a5) := by
  unfold State.outForward
  repeat' first
    | with_reducible assumption
    | with_reducible apply State.outPut_fr
    | (extract_lets +onlyGivenNames x; clear_value x)
    | split

theorem State.outSend_fr {X : Nat} {s0 : State} {s : State} {a1 : ℕ} {a2 : List ℕ} {a3 : ℕ} {a4 : ℕ} {a5 : Bytes} (h : Fr X s0 s) (hX : Sub 0x80000000000 X) :
    Fr X s0 (State.outSend s a1 a2 a3 a4 a5) := by
  unfold State.outSend
  repeat' first
    | with_reducible assumption
    | with_reducible apply State.outTo_fr
    | split

theorem State.sendHdrOf_fr {X : Nat} {s0 : State} {s : State} {a1 : ℕ} {a2 : List ℕ} {a3 : ℕ} {a4 : OutPast} (h : Fr X s0 s) (hX : Sub 0x80000000000 X) :
    Fr X s0 (State.sendHdrOf s a1 a2 a3 a4) := by
  unfold State.sendHdrOf
  repeat' first
    | with_reducible assumption
    | with_reducible apply State.outTo_fr
    | split

theorem State.sendHdr_fr {X : Nat} {s0 : State} {s : State} {a1 : ℕ} {a2 : List ℕ} (h : Fr X s0 s) (hX : Sub 0x80000000000 X) :
    Fr X s0 (State.sendHdr s a1 a2) := by
  unfold State.sendHdr
  repeat' first
    | with_reducible assumption
    | with_reducible apply State.sendHdrOf_fr

theorem State.onSite_fr {X : Nat} {s0 : State} {s : State} {a1 : ℕ} {a2 : ℕ} {a3 : OutSite → OutSite} (h : Fr X s0 s) (hX : Sub 0x400000000000 X) :
    Fr X s0 (State.onSite s a1 a2 a3) := by
  unfold State.onSite
  repeat' first
    | with_reducible assumption
    | with_reducible apply State.onShard_fr

theorem State.openDone_fr {X : Nat} {s0 : State} {s : State} {a1 : ℕ} {a2 : ℕ} {a3 : ℕ} (h : Fr X s0 s) (hX : Sub 0x400040000000 X) :
    Fr X s0 (State.openDone s a1 a2 a3) := by
  unfold State.openDone
  repeat' first
    | with_reducible assumption
    | ((with_reducible apply hX.after); exact rfl)
    | with_reducible apply State.endOp_fr
    | with_reducible apply State.setShard_fr
    | (extract_lets +onlyGivenNames x; clear_value x)
    | split

theorem State.roundIdle_fr {X : Nat} {s0 : State} {s : State} {a1 : ℕ} (h : Fr X s0 s) (hX : Sub 0x400000000000 X) :
    Fr X s0 (State.roundIdle s a1) := by
  unfold State.roundIdle
  repeat' first
    | with_reducible assumption
    | with_reducible apply State.onShard_fr

theorem State.roundFail_fr {X : Nat} {s0 : State} {s : State} {a1 : ℕ} {a2 : ℕ} {a3 : ℕ} (h : Fr X s0 s) (hX : Sub 0x400040000000 X) :
    Fr X s0 (State.roundFail s a1 a2 a3) := by
  unfold State.roundFail
  repeat' first
    | with_reducible assumption
    | ((with_reducible apply hX.after); exact rfl)
    | with_reducible apply State.roundIdle_fr
    | with_reducible apply State.onShard_fr
    | with_reducible apply State.openDone_fr

theorem State.sendFetch_fr {X : Nat} {s0 : State} {s : State} {a1 : ℕ} {a2 : ℕ} (h : Fr X s0 s) (hX : Sub 0x80000000000 X) :
    Fr X s0 (State.sendFetch s a1 a2) := by
  unfold State.sendFetch
  repeat' first
    | with_reducible assumption
    | with_reducible apply State.outSend_fr
    | split

theorem State.fetchPiece_fr {X : Nat} {s0 : State} {s : State} {a1 : ℕ} {a2 : ℕ} {a3 : OutFetch} (h : Fr X s0 s) (hX : Sub 0x480000000000 X) :
    Fr X s0 (State.fetchPiece s a1 a2 a3) := by
  unfold State.fetchPiece
  repeat' first
    | with_reducible assumption
    | ((with_reducible apply hX.after); exact rfl)
    | with_reducible apply State.sendFetch_fr
    | with_reducible apply State.onPiece_fr
    | with_reducible apply State.setShard_fr
    | (extract_lets +onlyGivenNames x; clear_value x)
    | split

theorem State.outRun_fr {X : Nat} {s0 : State} {s : State} {a1 : ℕ} {a2 : ℕ} {a3 : ℕ} {a4 : ℕ} {a5 : ℕ} (h : Fr X s0 s) (hX : Sub 0x2c020470401000 X) :
    Fr X s0 (State.outRun s a1 a2 a3 a4 a5) := by
  unfold State.outRun
  repeat' first
    | with_reducible assumption
    | ((with_reducible apply hX.after); exact rfl)
    | with_reducible apply State.fresh_fr
    | with_reducible apply State.runRequest_fr
    | (extract_lets +onlyGivenNames x; clear_value x)
    | split

theorem State.startWeights_fr {X : Nat} {s0 : State} {s : State} {a1 : ℕ} {a2 : ℕ} (h : Fr X s0 s) (hX : Sub 0x3c40d970000cc0 X) :
    Fr X s0 (State.startWeights s a1 a2) := by
  unfold State.startWeights
  repeat' first
    | with_reducible assumption
    | ((with_reducible apply hX.after); exact rfl)
    | with_reducible apply State.collSettle_fr
    | with_reducible apply State.setCollOp_fr
    | with_reducible apply State.onPiece_fr
    | (extract_lets +onlyGivenNames x; clear_value x)
    | split

theorem State.startDelta_fr {X : Nat} {s0 : State} {s : State} {a1 : ℕ} {a2 : ℕ} {a3 : ℕ} (h : Fr X s0 s) (hX : Sub 0x2c420470401000 X) :
    Fr X s0 (State.startDelta s a1 a2 a3) := by
  unfold State.startDelta
  repeat' first
    | with_reducible assumption
    | ((with_reducible apply hX.after); exact rfl)
    | with_reducible apply State.outRun_fr
    | with_reducible apply State.onPiece_fr

theorem State.startStep_fr {X : Nat} {s0 : State} {s : State} {a1 : ℕ} {a2 : ℕ} {a3 : ℕ} (h : Fr X s0 s) (hX : Sub 0x2c420470401000 X) :
    Fr X s0 (State.startStep s a1 a2 a3) := by
  unfold State.startStep
  repeat' first
    | with_reducible assumption
    | ((with_reducible apply hX.after); exact rfl)
    | with_reducible apply State.outRun_fr
    | with_reducible apply State.onPiece_fr

theorem State.sendDelta_fr {X : Nat} {s0 : State} {s : State} {a1 : ℕ} {a2 : ℕ} (h : Fr X s0 s) (hX : Sub 0x480000008000 X) :
    Fr X s0 (State.sendDelta s a1 a2) := by
  unfold State.sendDelta
  repeat' first
    | with_reducible assumption
    | ((with_reducible apply hX.after); exact rfl)
    | with_reducible apply State.outCount_fr
    | with_reducible apply State.outTo_fr
    | with_reducible apply State.onShard_fr
    | (extract_lets +onlyGivenNames x; first
        | (refine Fr.cut (X := X) (s0 := s0) (s := x) ?_ (fun hx => ?_); (on_goal 2 => clear_value x); (on_goal 1 => (unfold x; clear x)))
        | clear_value x)
    | split

theorem State.exchangeCheck_fr {X : Nat} {s0 : State} {s : State} {a1 : ℕ} {a2 : ℕ} (h : Fr X s0 s) (hX : Sub 0x2c4a0470409000 X) :
    Fr X s0 (State.exchangeCheck s a1 a2) := by
  unfold State.exchangeCheck
  repeat' first
    | with_reducible assumption
    | ((with_reducible apply hX.after); exact rfl)
    | with_reducible apply State.fetchPiece_fr
    | with_reducible apply State.startStep_fr
    | with_reducible apply State.outCount_fr
    | with_reducible apply Fr.foldl
    | (intro x)
    | (extract_lets +onlyGivenNames x; clear_value x)
    | split

theorem State.startExchange_fr {X : Nat} {s0 : State} {s : State} {a1 : ℕ} {a2 : ℕ} (h : Fr X s0 s) (hX : Sub 0x2c4a0470409000 X) :
    Fr X s0 (State.startExchange s a1 a2) := by
  unfold State.startExchange
  repeat' first
    | with_reducible assumption
    | ((with_reducible apply hX.after); exact rfl)
    | with_reducible apply State.exchangeCheck_fr
    | with_reducible apply State.outSend_fr
    | with_reducible apply State.sendDelta_fr
    | with_reducible apply State.onPiece_fr
    | with_reducible apply State.setShard_fr
    | with_reducible apply Fr.foldl
    | (intro x)

theorem State.startPiece_fr {X : Nat} {s0 : State} {s : State} {a1 : ℕ} {a2 : ℕ} (h : Fr X s0 s) (hX : Sub 0x3c48d970000cc0 X) :
    Fr X s0 (State.startPiece s a1 a2) := by
  unfold State.startPiece
  repeat' first
    | with_reducible assumption
    | ((with_reducible apply hX.after); exact rfl)
    | with_reducible apply State.onPiece_fr
    | with_reducible apply State.setShard_fr
    | with_reducible apply State.fetchPiece_fr
    | with_reducible apply State.startWeights_fr
    | (extract_lets +onlyGivenNames x; first
        | (refine Fr.cut (X := X) (s0 := s0) (s := x) ?_ (fun hx => ?_); (on_goal 2 => clear_value x); (on_goal 1 => (unfold x; clear x)))
        | clear_value x)
    | split

theorem State.outPump_fr {X : Nat} {s0 s : State} {k n : Nat} (h : Fr X s0 s) (hX : Sub 0x3c48d970000cc0 X) :
    Fr X s0 (State.outPump k n s) := by
  induction n generalizing s with
  | zero => exact h
  | succ n ih =>
    rw [State.outPump]
    split
    · exact ih (State.startPiece_fr h (hX.after rfl))
    · exact h


theorem State.outGo_fr {X : Nat} {s0 : State} {s : State} {a1 : ℕ} (h : Fr X s0 s) (hX : Sub 0x3c4add70409cc0 X) :
    Fr X s0 (State.outGo s a1) := by
  unfold State.outGo
  repeat' first
    | with_reducible assumption
    | ((with_reducible apply hX.after); exact rfl)
    | with_reducible apply State.outPump_fr
    | with_reducible apply State.exchangeCheck_fr
    | with_reducible apply Fr.foldl
    | (intro x)

theorem State.castPiece_fr {X : Nat} {s0 : State} {s : State} {a1 : ℕ} {a2 : ℕ} (h : Fr X s0 s) (hX : Sub 0x2c00d8700040c0 X) :
    Fr X s0 (State.castPiece s a1 a2) := by
  unfold State.castPiece
  repeat' first
    | with_reducible assumption
    | ((with_reducible apply hX.after); exact rfl)
    | with_reducible apply State.markDone_fr
    | with_reducible apply State.sendResult_fr
    | with_reducible apply State.chunkExpanded_fr
    | with_reducible apply Fr.foldl
    | (intro x)
    | (extract_lets +onlyGivenNames x; clear_value x)
    | split

theorem State.checkPiece_fr {X : Nat} {s0 : State} {s : State} {a1 : ℕ} {a2 : ℕ} {a3 : Bytes} (h : Fr X s0 s) (hX : Sub 0x2c400030004000 X) :
    Fr X s0 (State.checkPiece s a1 a2 a3) := by
  unfold State.checkPiece
  repeat' first
    | with_reducible assumption
    | ((with_reducible apply hX.after); exact rfl)
    | with_reducible apply State.onPiece_fr
    | with_reducible apply State.blockRefused_fr
    | with_reducible apply Fr.foldl
    | (intro x)
    | (extract_lets +onlyGivenNames x; first
        | (refine Fr.cut (X := X) (s0 := s0) (s := x) ?_ (fun hx => ?_); (on_goal 2 => clear_value x); (on_goal 1 => (unfold x; clear x)))
        | clear_value x)
    | split

theorem State.castOn_fr {X : Nat} {s0 : State} {s : State} {a1 : ℕ} (h : Fr X s0 s) (hX : Sub 0x2c48d8700040c0 X) :
    Fr X s0 (State.castOn s a1) := by
  unfold State.castOn
  repeat' first
    | with_reducible assumption
    | ((with_reducible apply hX.after); exact rfl)
    | with_reducible apply State.checkPiece_fr
    | with_reducible apply State.fetchPiece_fr
    | with_reducible apply State.finish_fr
    | with_reducible apply State.onShard_fr
    | with_reducible apply State.castPiece_fr
    | with_reducible apply State.roundIdle_fr
    | with_reducible apply State.openDone_fr
    | with_reducible apply Fr.foldl
    | (intro x)
    | (extract_lets +onlyGivenNames x; first
        | (refine Fr.cut (X := X) (s0 := s0) (s := x) ?_ (fun hx => ?_); (on_goal 2 => clear_value x); (on_goal 1 => (unfold x; clear x)))
        | clear_value x)
    | split

theorem State.broadcast_fr {X : Nat} {s0 : State} {s : State} {a1 : ℕ} (h : Fr X s0 s) (hX : Sub 0x2c48d8700040c0 X) :
    Fr X s0 (State.broadcast s a1) := by
  unfold State.broadcast
  repeat' first
    | with_reducible assumption
    | ((with_reducible apply hX.after); exact rfl)
    | with_reducible apply State.castOn_fr
    | with_reducible apply State.onShard_fr
    | split

theorem State.outside_fr {X : Nat} {s0 : State} {s : State} {a1 : ℕ} {a2 : ℕ} {a3 : ℕ} (h : Fr X s0 s) (hX : Sub 0x2c48d8700040c0 X) :
    Fr X s0 (State.outside s a1 a2 a3) := by
  unfold State.outside
  repeat' first
    | with_reducible assumption
    | ((with_reducible apply hX.after); exact rfl)
    | with_reducible apply State.castOn_fr
    | with_reducible apply State.onShard_fr
    | with_reducible apply State.roundIdle_fr
    | with_reducible apply State.openDone_fr
    | (extract_lets +onlyGivenNames x; first
        | (refine Fr.cut (X := X) (s0 := s0) (s := x) ?_ (fun hx => ?_); (on_goal 2 => clear_value x); (on_goal 1 => (unfold x; clear x)))
        | clear_value x)
    | split

theorem State.noteMismatch_fr {X : Nat} {s0 : State} {s : State} {a1 : ℕ} {a2 : ℕ} (h : Fr X s0 s) (hX : Sub 0x2c000070008000 X) :
    Fr X s0 (State.noteMismatch s a1 a2) := by
  unfold State.noteMismatch
  repeat' first
    | with_reducible assumption
    | ((with_reducible apply hX.after); exact rfl)
    | with_reducible apply State.raise_fr
    | with_reducible apply State.outCount_fr

theorem State.compare_fr {X : Nat} {s0 : State} {s : State} {a1 : ℕ} (h : Fr X s0 s) (hX : Sub 0x2c48d8700040c0 X) :
    Fr X s0 (State.compare s a1) := by
  unfold State.compare
  repeat' first
    | with_reducible assumption
    | ((with_reducible apply hX.after); exact rfl)
    | with_reducible apply State.onShard_fr
    | with_reducible apply State.broadcast_fr
    | (extract_lets +onlyGivenNames x; clear_value x)
    | split

theorem State.allCommitted_fr {X : Nat} {s0 : State} {s : State} {a1 : ℕ} (h : Fr X s0 s) (hX : Sub 0x2c48d87000c0c0 X) :
    Fr X s0 (State.allCommitted s a1) := by
  unfold State.allCommitted
  repeat' first
    | with_reducible assumption
    | ((with_reducible apply hX.after); exact rfl)
    | with_reducible apply State.compare_fr
    | with_reducible apply State.noteMismatch_fr
    | with_reducible apply State.outSend_fr
    | with_reducible apply State.onShard_fr
    | with_reducible apply Fr.foldl
    | (intro x)
    | (extract_lets +onlyGivenNames x; first
        | (refine Fr.cut (X := X) (s0 := s0) (s := x) ?_ (fun hx => ?_); (on_goal 2 => clear_value x); (on_goal 1 => (unfold x; clear x)))
        | clear_value x)
    | split

theorem State.commitPiece_fr {X : Nat} {s0 : State} {s : State} {a1 : ℕ} {a2 : ℕ} {a3 : Bytes} (h : Fr X s0 s) (hX : Sub 0x3c4add7040dcc0 X) :
    Fr X s0 (State.commitPiece s a1 a2 a3) := by
  unfold State.commitPiece
  repeat' first
    | with_reducible assumption
    | ((with_reducible apply hX.after); exact rfl)
    | with_reducible apply State.allCommitted_fr
    | with_reducible apply State.outGo_fr
    | with_reducible apply State.outCount_fr
    | with_reducible apply State.setShard_fr

theorem State.weigh_fr {X : Nat} {s0 : State} {s : State} {a1 : ℕ} {a2 : ℕ} (h : Fr X s0 s) (hX : Sub 0x3c4add7040dcc0 X) :
    Fr X s0 (State.weigh s a1 a2) := by
  unfold State.weigh
  repeat' first
    | with_reducible assumption
    | ((with_reducible apply hX.after); exact rfl)
    | with_reducible apply State.commitPiece_fr
    | with_reducible apply State.fetchPiece_fr
    | with_reducible apply State.onPiece_fr
    | with_reducible apply State.raise_fr
    | with_reducible apply State.outCount_fr
    | with_reducible apply State.onShard_fr
    | with_reducible apply State.openDone_fr
    | (extract_lets +onlyGivenNames x; clear_value x)
    | split

theorem State.digestPiece_fr {X : Nat} {s0 : State} {s : State} {a1 : ℕ} {a2 : ℕ} (h : Fr X s0 s) (hX : Sub 0x3c4add7040dcc0 X) :
    Fr X s0 (State.digestPiece s a1 a2) := by
  unfold State.digestPiece
  repeat' first
    | with_reducible assumption
    | ((with_reducible apply hX.after); exact rfl)
    | with_reducible apply State.weigh_fr
    | with_reducible apply State.outSend_fr
    | with_reducible apply State.onShard_fr
    | with_reducible apply State.onPiece_fr
    | (extract_lets +onlyGivenNames x; clear_value x)
    | split

theorem State.fix_fr {X : Nat} {s0 : State} {s : State} {a1 : ℕ} {a2 : ℕ} {a3 : ℕ} {a4 : ℕ} (h : Fr X s0 s) (hX : Sub 0x3c4add7040dcc0 X) :
    Fr X s0 (State.fix s a1 a2 a3 a4) := by
  unfold State.fix
  repeat' first
    | with_reducible assumption
    | ((with_reducible apply hX.after); exact rfl)
    | with_reducible apply State.outside_fr
    | with_reducible apply State.outGo_fr
    | with_reducible apply State.startExchange_fr
    | with_reducible apply State.onShard_fr
    | with_reducible apply State.outCount_fr
    | with_reducible apply State.compare_fr
    | with_reducible apply Fr.foldl
    | (intro x)
    | (extract_lets +onlyGivenNames x; first
        | (refine Fr.cut (X := X) (s0 := s0) (s := x) ?_ (fun hx => ?_); (on_goal 2 => clear_value x); (on_goal 1 => (unfold x; clear x)))
        | clear_value x)
    | split

theorem State.countVotes_fr {X : Nat} {s0 : State} {s : State} {a1 : ℕ} {a2 : OutVote} (h : Fr X s0 s) (hX : Sub 0x3c4add7040dcc0 X) :
    Fr X s0 (State.countVotes s a1 a2) := by
  unfold State.countVotes
  repeat' first
    | with_reducible assumption
    | with_reducible apply State.fix_fr
    | (extract_lets +onlyGivenNames x; clear_value x)
    | split

theorem State.hearVote_fr {X : Nat} {s0 : State} {s : State} {a1 : ℕ} {a2 : OutVote} (h : Fr X s0 s) (hX : Sub 0x3c4add7040dcc0 X) :
    Fr X s0 (State.hearVote s a1 a2) := by
  unfold State.hearVote
  repeat' first
    | with_reducible assumption
    | ((with_reducible apply hX.after); exact rfl)
    | with_reducible apply State.countVotes_fr
    | with_reducible apply State.onShard_fr

theorem State.vote_fr {X : Nat} {s0 : State} {s : State} {a1 : ℕ} {a2 : ℕ} {a3 : ℕ} {a4 : ℕ} {a5 : ℕ} (h : Fr X s0 s) (hX : Sub 0x3c4add7040dcc0 X) :
    Fr X s0 (State.vote s a1 a2 a3 a4 a5) := by
  unfold State.vote
  repeat' first
    | with_reducible assumption
    | ((with_reducible apply hX.after); exact rfl)
    | with_reducible apply State.hearVote_fr
    | with_reducible apply State.outSend_fr
    | with_reducible apply State.onShard_fr
    | (extract_lets +onlyGivenNames x; first
        | (refine Fr.cut (X := X) (s0 := s0) (s := x) ?_ (fun hx => ?_); (on_goal 2 => clear_value x); (on_goal 1 => (unfold x; clear x)))
        | clear_value x)
    | split

theorem State.propose_fr {X : Nat} {s0 : State} {s : State} {a1 : ℕ} (h : Fr X s0 s) (hX : Sub 0x3c4add7040dcc0 X) :
    Fr X s0 (State.propose s a1) := by
  unfold State.propose
  repeat' first
    | with_reducible assumption
    | ((with_reducible apply hX.after); exact rfl)
    | with_reducible apply State.vote_fr
    | with_reducible apply State.outSend_fr
    | with_reducible apply State.onShard_fr
    | (extract_lets +onlyGivenNames x; first
        | (refine Fr.cut (X := X) (s0 := s0) (s := x) ?_ (fun hx => ?_); (on_goal 2 => clear_value x); (on_goal 1 => (unfold x; clear x)))
        | clear_value x)
    | split

theorem State.proposeIf_fr {X : Nat} {s0 : State} {s : State} {a1 : ℕ} (h : Fr X s0 s) (hX : Sub 0x3c4add7040dcc0 X) :
    Fr X s0 (State.proposeIf s a1) := by
  unfold State.proposeIf
  repeat' first
    | with_reducible assumption
    | with_reducible apply State.propose_fr
    | (extract_lets +onlyGivenNames x; clear_value x)
    | split

theorem State.roundStart_fr {X : Nat} {s0 : State} {s : State} {a1 : ℕ} (h : Fr X s0 s) (hX : Sub 0x3c4add7040dcc0 X) :
    Fr X s0 (State.roundStart s a1) := by
  unfold State.roundStart
  repeat' first
    | with_reducible assumption
    | ((with_reducible apply hX.after); exact rfl)
    | with_reducible apply State.proposeIf_fr
    | with_reducible apply State.sendHdr_fr
    | with_reducible apply State.setShard_fr
    | (extract_lets +onlyGivenNames x; clear_value x)
    | split

theorem State.outerOpen_fr {X : Nat} {s0 : State} {s : State} {a1 : Op} (h : Fr X s0 s) (hX : Sub 0x3c4add7040dcc0 X) :
    Fr X s0 (State.outerOpen s a1) := by
  unfold State.outerOpen
  repeat' first
    | with_reducible assumption
    | ((with_reducible apply hX.after); exact rfl)
    | with_reducible apply State.finish_fr
    | with_reducible apply State.roundStart_fr
    | with_reducible apply State.onShard_fr
    | (extract_lets +onlyGivenNames x; first
        | (refine Fr.cut (X := X) (s0 := s0) (s := x) ?_ (fun hx => ?_); (on_goal 2 => clear_value x); (on_goal 1 => (unfold x; clear x)))
        | clear_value x)
    | split

theorem State.outerExclude_fr {X : Nat} {s0 : State} {s : State} {a1 : Op} (h : Fr X s0 s) (hX : Sub 0x2c48d8700040c0 X) :
    Fr X s0 (State.outerExclude s a1) := by
  unfold State.outerExclude
  repeat' first
    | with_reducible assumption
    | ((with_reducible apply hX.after); exact rfl)
    | with_reducible apply State.finish_fr
    | with_reducible apply State.onSite_fr
    | with_reducible apply State.compare_fr
    | with_reducible apply State.onShard_fr
    | (extract_lets +onlyGivenNames x; first
        | (refine Fr.cut (X := X) (s0 := s0) (s := x) ?_ (fun hx => ?_); (on_goal 2 => clear_value x); (on_goal 1 => (unfold x; clear x)))
        | clear_value x)
    | split

theorem State.outerAbandon_fr {X : Nat} {s0 : State} {s : State} {a1 : Op} (h : Fr X s0 s) (hX : Sub 0x400040000000 X) :
    Fr X s0 (State.outerAbandon s a1) := by
  unfold State.outerAbandon
  repeat' first
    | with_reducible assumption
    | ((with_reducible apply hX.after); exact rfl)
    | with_reducible apply State.finish_fr
    | with_reducible apply State.onShard_fr
    | with_reducible apply State.openDone_fr
    | with_reducible apply State.roundIdle_fr
    | with_reducible apply State.roundFail_fr
    | (extract_lets +onlyGivenNames x; first
        | (refine Fr.cut (X := X) (s0 := s0) (s := x) ?_ (fun hx => ?_); (on_goal 2 => clear_value x); (on_goal 1 => (unfold x; clear x)))
        | clear_value x)
    | split

theorem State.outerFetch_fr {X : Nat} {s0 : State} {s : State} {a1 : Op} (h : Fr X s0 s) (hX : Sub 0x2c48d8700040c0 X) :
    Fr X s0 (State.outerFetch s a1) := by
  unfold State.outerFetch
  repeat' first
    | with_reducible assumption
    | ((with_reducible apply hX.after); exact rfl)
    | with_reducible apply State.finish_fr
    | with_reducible apply State.castOn_fr
    | with_reducible apply State.onShard_fr
    | (extract_lets +onlyGivenNames x; clear_value x)
    | split

theorem State.hearMsg_fr {X : Nat} {s0 : State} {s : State} {a1 : Bytes} {a2 : ℕ} {a3 : State → ℕ → State} (h : Fr X s0 s) (hf0 : ∀ x0 x1, Fr X s0 x0 → Fr X s0 (a3 x0 x1)) (hX : Sub 0x80000000000 X) :
    Fr X s0 (State.hearMsg s a1 a2 a3) := by
  unfold State.hearMsg
  repeat' first
    | with_reducible assumption
    | with_reducible apply hf0
    | with_reducible apply State.outForward_fr
    | with_reducible apply Fr.foldl
    | (intro x)
    | split

theorem State.answerHdr_fr {X : Nat} {s0 : State} {s : State} {a1 : ℕ} {a2 : ℕ} {a3 : OutPast} (h : Fr X s0 s) (hX : Sub 0x480000000000 X) :
    Fr X s0 (State.answerHdr s a1 a2 a3) := by
  unfold State.answerHdr
  repeat' first
    | with_reducible assumption
    | ((with_reducible apply hX.after); exact rfl)
    | with_reducible apply State.sendHdrOf_fr
    | with_reducible apply State.onSite_fr
    | (extract_lets +onlyGivenNames x; clear_value x)
    | split

theorem State.hearHdr_fr {X : Nat} {s0 : State} {s : State} {a1 : Bytes} {a2 : ℕ} (h : Fr X s0 s) (hX : Sub 0x3c4add7040dcc0 X) :
    Fr X s0 (State.hearHdr s a1 a2) := by
  unfold State.hearHdr
  repeat' first
    | with_reducible assumption
    | ((with_reducible apply hX.after); exact rfl)
    | with_reducible apply State.answerHdr_fr
    | with_reducible apply State.onSite_fr
    | with_reducible apply State.raise_fr
    | with_reducible apply State.outCount_fr
    | with_reducible apply State.proposeIf_fr
    | with_reducible apply State.fix_fr
    | with_reducible apply State.onShard_fr
    | with_reducible apply State.outGo_fr
    | (extract_lets +onlyGivenNames x; first
        | (refine Fr.cut (X := X) (s0 := s0) (s := x) ?_ (fun hx => ?_); (on_goal 2 => clear_value x); (on_goal 1 => (unfold x; clear x)))
        | clear_value x)
    | split

theorem State.siteUnreachable_fr {X : Nat} {s0 : State} {s : State} {a1 : ℕ} {a2 : ℕ} (h : Fr X s0 s) (hX : Sub 0x400000000000 X) :
    Fr X s0 (State.siteUnreachable s a1 a2) := by
  unfold State.siteUnreachable
  repeat' first
    | with_reducible assumption
    | with_reducible apply State.onShard_fr
    | with_reducible apply State.onSite_fr
    | (extract_lets +onlyGivenNames x; clear_value x)
    | split

theorem State.lossTimer_fr {X : Nat} {s0 : State} {s : State} {a1 : ℕ} {a2 : ℕ} (h : Fr X s0 s) (hX : Sub 0x3c4add7040dcc0 X) :
    Fr X s0 (State.lossTimer s a1 a2) := by
  unfold State.lossTimer
  repeat' first
    | with_reducible assumption
    | with_reducible apply State.propose_fr
    | (extract_lets +onlyGivenNames x; clear_value x)
    | split

theorem State.rosterWait_fr {X : Nat} {s0 : State} {s : State} {a1 : ℕ} (h : Fr X s0 s) (hX : Sub 0x3c4add7040dcc0 X) :
    Fr X s0 (State.rosterWait s a1) := by
  unfold State.rosterWait
  repeat' first
    | with_reducible assumption
    | ((with_reducible apply hX.after); exact rfl)
    | with_reducible apply State.propose_fr
    | with_reducible apply State.onShard_fr
    | split

theorem State.hearPropose_fr {X : Nat} {s0 : State} {s : State} {a1 : Bytes} {a2 : ℕ} (h : Fr X s0 s) (hX : Sub 0x3c4add7040dcc0 X) :
    Fr X s0 (State.hearPropose s a1 a2) := by
  unfold State.hearPropose
  repeat' first
    | with_reducible assumption
    | with_reducible apply State.vote_fr
    | (extract_lets +onlyGivenNames x; clear_value x)
    | split

theorem State.hearVoteMsg_fr {X : Nat} {s0 : State} {s : State} {a1 : Bytes} {a2 : ℕ} (h : Fr X s0 s) (hX : Sub 0x3c4add7040dcc0 X) :
    Fr X s0 (State.hearVoteMsg s a1 a2) := by
  unfold State.hearVoteMsg
  repeat' first
    | with_reducible assumption
    | with_reducible apply State.hearVote_fr
    | (extract_lets +onlyGivenNames x; clear_value x)
    | split

theorem State.hearDigest_fr {X : Nat} {s0 : State} {s : State} {a1 : Bytes} {a2 : ℕ} (h : Fr X s0 s) (hX : Sub 0x3c4add7040dcc0 X) :
    Fr X s0 (State.hearDigest s a1 a2) := by
  unfold State.hearDigest
  repeat' first
    | with_reducible assumption
    | ((with_reducible apply hX.after); exact rfl)
    | with_reducible apply State.weigh_fr
    | with_reducible apply State.fix_fr
    | with_reducible apply State.onShard_fr
    | (extract_lets +onlyGivenNames x; first
        | (refine Fr.cut (X := X) (s0 := s0) (s := x) ?_ (fun hx => ?_); (on_goal 2 => clear_value x); (on_goal 1 => (unfold x; clear x)))
        | clear_value x)
    | split

theorem State.hearFinal_fr {X : Nat} {s0 : State} {s : State} {a1 : Bytes} {a2 : ℕ} (h : Fr X s0 s) (hX : Sub 0x2c48d87000c0c0 X) :
    Fr X s0 (State.hearFinal s a1 a2) := by
  unfold State.hearFinal
  repeat' first
    | with_reducible assumption
    | ((with_reducible apply hX.after); exact rfl)
    | with_reducible apply State.compare_fr
    | with_reducible apply State.onSite_fr
    | with_reducible apply State.noteMismatch_fr
    | (extract_lets +onlyGivenNames x; first
        | (refine Fr.cut (X := X) (s0 := s0) (s := x) ?_ (fun hx => ?_); (on_goal 2 => clear_value x); (on_goal 1 => (unfold x; clear x)))
        | clear_value x)
    | split

theorem State.hearFetch_fr {X : Nat} {s0 : State} {s : State} {a1 : Bytes} {a2 : ℕ} (h : Fr X s0 s) (hX : Sub 0x80000008000 X) :
    Fr X s0 (State.hearFetch s a1 a2) := by
  unfold State.hearFetch
  repeat' first
    | with_reducible assumption
    | ((with_reducible apply hX.after); exact rfl)
    | with_reducible apply State.outTo_fr
    | with_reducible apply State.outCount_fr
    | (extract_lets +onlyGivenNames x; clear_value x)
    | split

theorem State.pieceFetched_fr {X : Nat} {s0 : State} {s : State} {a1 : ℕ} {a2 : ℕ} {a3 : Bytes} {a4 : OutFetch} {a5 : Bytes} (h : Fr X s0 s) (hX : Sub 0x3c4add7040dcc0 X) :
    Fr X s0 (State.pieceFetched s a1 a2 a3 a4 a5) := by
  unfold State.pieceFetched
  repeat' first
    | with_reducible assumption
    | ((with_reducible apply hX.after); exact rfl)
    | with_reducible apply State.sendFetch_fr
    | with_reducible apply State.onPiece_fr
    | with_reducible apply State.commitPiece_fr
    | with_reducible apply State.onShard_fr
    | with_reducible apply State.dvaWrite_fr
    | with_reducible apply State.castOn_fr
    | with_reducible apply State.setShard_fr
    | with_reducible apply State.startWeights_fr
    | with_reducible apply State.startDelta_fr
    | with_reducible apply State.startStep_fr
    | (extract_lets +onlyGivenNames x; first
        | (refine Fr.cut (X := X) (s0 := s0) (s := x) ?_ (fun hx => ?_); (on_goal 2 => clear_value x); (on_goal 1 => (unfold x; clear x)))
        | clear_value x)
    | split

theorem State.deltaRefused_fr {X : Nat} {s0 : State} {s : State} {a1 : ℕ} {a2 : ℕ} {a3 : ℕ} {a4 : Bytes} {a5 : Bytes} (h : Fr X s0 s) (hX : Sub 0x2c000030004000 X) :
    Fr X s0 (State.deltaRefused s a1 a2 a3 a4 a5) := by
  unfold State.deltaRefused
  repeat' first
    | with_reducible assumption
    | with_reducible apply State.blockRefused_fr
    | with_reducible apply Fr.foldl
    | (intro x)
    | split

theorem State.deltaHeard_fr {X : Nat} {s0 : State} {s : State} {a1 : ℕ} {a2 : ℕ} {a3 : ℕ} {a4 : ℕ} {a5 : Bytes} {a6 : Bytes} (h : Fr X s0 s) (hX : Sub 0x3c4a057040d000 X) :
    Fr X s0 (State.deltaHeard s a1 a2 a3 a4 a5 a6) := by
  unfold State.deltaHeard
  repeat' first
    | with_reducible assumption
    | ((with_reducible apply hX.after); exact rfl)
    | with_reducible apply State.outSend_fr
    | with_reducible apply State.deltaRefused_fr
    | with_reducible apply State.onShard_fr
    | with_reducible apply State.exchangeCheck_fr
    | with_reducible apply State.dvaWrite_fr
    | (intro x)
    | (extract_lets +onlyGivenNames x; first
        | (refine Fr.cut_fn (X := X) (s0 := s0) (f := x) ?_ (fun hx => ?_); (on_goal 2 => clear_value x); (on_goal 1 => (unfold x; clear x)))
        | clear_value x)
    | split
    | with_reducible apply_assumption -exfalso -symm

theorem State.pieceReceive_fr {X : Nat} {s0 : State} {s : State} {a1 : Bytes} {a2 : Bytes} (h : Fr X s0 s) (hX : Sub 0x3c4add7040dcc0 X) :
    Fr X s0 (State.pieceReceive s a1 a2) := by
  unfold State.pieceReceive
  repeat' first
    | with_reducible assumption
    | ((with_reducible apply hX.after); exact rfl)
    | with_reducible apply State.outForward_fr
    | with_reducible apply State.pieceFetched_fr
    | with_reducible apply State.deltaHeard_fr
    | with_reducible apply Fr.foldl
    | (intro x)
    | (extract_lets +onlyGivenNames x; first
        | (refine Fr.cut (X := X) (s0 := s0) (s := x) ?_ (fun hx => ?_); (on_goal 2 => clear_value x); (on_goal 1 => (unfold x; clear x)))
        | clear_value x)
    | split

theorem State.outRunFailed_fr {X : Nat} {s0 : State} {s : State} {a1 : ℕ} {a2 : ℕ} {a3 : ℕ} (h : Fr X s0 s) (hX : Sub 0x3c4add70409cc0 X) :
    Fr X s0 (State.outRunFailed s a1 a2 a3) := by
  unfold State.outRunFailed
  repeat' first
    | with_reducible assumption
    | ((with_reducible apply hX.after); exact rfl)
    | with_reducible apply State.roundFail_fr
    | with_reducible apply State.onPiece_fr
    | with_reducible apply State.outCount_fr
    | with_reducible apply State.fetchPiece_fr
    | with_reducible apply State.startWeights_fr
    | with_reducible apply State.startDelta_fr
    | with_reducible apply State.startStep_fr
    | with_reducible apply State.startExchange_fr
    | with_reducible apply State.onShard_fr
    | (extract_lets +onlyGivenNames x; first
        | (refine Fr.cut (X := X) (s0 := s0) (s := x) ?_ (fun hx => ?_); (on_goal 2 => clear_value x); (on_goal 1 => (unfold x; clear x)))
        | clear_value x)
    | split

theorem State.ownDelta_fr {X : Nat} {s0 : State} {s : State} {a1 : ℕ} {a2 : ℕ} (h : Fr X s0 s) (hX : Sub 0x400000000000 X) :
    Fr X s0 (State.ownDelta s a1 a2) := by
  unfold State.ownDelta
  repeat' first
    | with_reducible assumption
    | with_reducible apply State.setShard_fr
    | (extract_lets +onlyGivenNames x; clear_value x)
    | split

theorem State.pieceStep_fr {X : Nat} {s0 : State} {s : State} {a1 : ℕ} {a2 : ℕ} (h : Fr X s0 s) (hX : Sub 0x3c4add7040dcc0 X) :
    Fr X s0 (State.pieceStep s a1 a2) := by
  unfold State.pieceStep
  repeat' first
    | with_reducible assumption
    | ((with_reducible apply hX.after); exact rfl)
    | with_reducible apply State.startDelta_fr
    | with_reducible apply State.ownDelta_fr
    | with_reducible apply State.onCol_fr
    | with_reducible apply State.roundFail_fr
    | with_reducible apply State.outRunFailed_fr
    | with_reducible apply State.onTfb_fr
    | with_reducible apply State.startExchange_fr
    | with_reducible apply State.startStep_fr
    | with_reducible apply State.digestPiece_fr
    | (extract_lets +onlyGivenNames x; first
        | (refine Fr.cut (X := X) (s0 := s0) (s := x) ?_ (fun hx => ?_); (on_goal 2 => clear_value x); (on_goal 1 => (unfold x; clear x)))
        | clear_value x)
    | split

theorem State.outerRestart_fr {X : Nat} {s0 : State} {s : State} {a1 : Bytes → Bool} (h : Fr X s0 s) (hX : Sub 0x400040000000 X) :
    Fr X s0 (State.outerRestart s a1) := by
  unfold State.outerRestart
  repeat' first
    | with_reducible assumption
    | ((with_reducible apply hX.after); exact rfl)
    | with_reducible apply State.roundFail_fr
    | with_reducible apply State.onShard_fr
    | with_reducible apply State.openDone_fr
    | with_reducible apply Fr.foldl
    | (intro x)
    | split

theorem State.outerCode_fr {X : Nat} {s0 : State} {s : State} {a1 : OpKey} {a2 : ℕ} {a3 : Op → State → State} (h : Fr X s0 s) (hf0 : ∀ x0 x1, Fr X s0 x1 → Fr X s0 (a3 x0 x1)) (hX : Sub 0x40000000 X) :
    Fr X s0 (State.outerCode s a1 a2 a3) := by
  unfold State.outerCode
  repeat' first
    | with_reducible assumption
    | with_reducible apply State.start_fr

theorem execOuterOpen_fr {X : Nat} {s0 : State} {a0 : OpKey} {s : State} (h : Fr X s0 s) (hX : Sub 0x3c4add7040dcc0 X) {t : State}
    (ht : execOuterOpen a0 s = .next t) : Fr X s0 t := by
  unfold execOuterOpen at ht
  obtain rfl := Host.Outcome.next.inj ht
  repeat' first
    | with_reducible assumption
    | ((with_reducible apply hX.after); exact rfl)
    | with_reducible apply State.pooled_fr
    | with_reducible apply State.outerCode_fr
    | with_reducible apply State.outerOpen_fr
    | (intro x)

theorem execOuterExclude_fr {X : Nat} {s0 : State} {a0 : OpKey} {s : State} (h : Fr X s0 s) (hX : Sub 0x3c48d970004cc0 X) {t : State}
    (ht : execOuterExclude a0 s = .next t) : Fr X s0 t := by
  unfold execOuterExclude at ht
  obtain rfl := Host.Outcome.next.inj ht
  repeat' first
    | with_reducible assumption
    | ((with_reducible apply hX.after); exact rfl)
    | with_reducible apply State.pooled_fr
    | with_reducible apply State.outerCode_fr
    | with_reducible apply State.outerExclude_fr
    | (intro x)

theorem execOuterFetch_fr {X : Nat} {s0 : State} {a0 : OpKey} {s : State} (h : Fr X s0 s) (hX : Sub 0x3c48d970004cc0 X) {t : State}
    (ht : execOuterFetch a0 s = .next t) : Fr X s0 t := by
  unfold execOuterFetch at ht
  obtain rfl := Host.Outcome.next.inj ht
  repeat' first
    | with_reducible assumption
    | ((with_reducible apply hX.after); exact rfl)
    | with_reducible apply State.pooled_fr
    | with_reducible apply State.outerCode_fr
    | with_reducible apply State.outerFetch_fr
    | (intro x)

theorem execOuterAbandon_fr {X : Nat} {s0 : State} {a0 : OpKey} {s : State} (h : Fr X s0 s) (hX : Sub 0x400040000000 X) {t : State}
    (ht : execOuterAbandon a0 s = .next t) : Fr X s0 t := by
  unfold execOuterAbandon at ht
  obtain rfl := Host.Outcome.next.inj ht
  repeat' first
    | with_reducible assumption
    | ((with_reducible apply hX.after); exact rfl)
    | with_reducible apply State.outerCode_fr
    | with_reducible apply State.outerAbandon_fr
    | (intro x)

theorem execRoundStart_fr {X : Nat} {s0 : State} {a0 : ℕ} {s : State} (h : Fr X s0 s) (hX : Sub 0x3c4add7040dcc0 X) {t : State}
    (ht : execRoundStart a0 s = .next t) : Fr X s0 t := by
  unfold execRoundStart at ht
  obtain rfl := Host.Outcome.next.inj ht
  repeat' first
    | with_reducible assumption
    | ((with_reducible apply hX.after); exact rfl)
    | with_reducible apply State.inPool_fr
    | with_reducible apply State.roundStart_fr
    | (intro x)
    | split

theorem execHdrTimer_fr {X : Nat} {s0 : State} {a0 : ℕ} {s : State} (h : Fr X s0 s) (hX : Sub 0x80000000000 X) {t : State}
    (ht : execHdrTimer a0 s = .next t) : Fr X s0 t := by
  unfold execHdrTimer at ht
  obtain rfl := Host.Outcome.next.inj ht
  repeat' first
    | with_reducible assumption
    | ((with_reducible apply hX.after); exact rfl)
    | with_reducible apply State.inCore_fr
    | with_reducible apply State.sendHdr_fr
    | (intro x)
    | split

theorem execOuterHdr_fr {X : Nat} {s0 : State} {a0 : Bytes} {s : State} (h : Fr X s0 s) (hX : Sub 0x3c4add7040dcc0 X) {t : State}
    (ht : execOuterHdr a0 s = .next t) : Fr X s0 t := by
  unfold execOuterHdr at ht
  obtain rfl := Host.Outcome.next.inj ht
  repeat' first
    | with_reducible assumption
    | ((with_reducible apply hX.after); exact rfl)
    | with_reducible apply State.inPool_fr
    | with_reducible apply State.hearMsg_fr
    | with_reducible apply State.hearHdr_fr
    | (intro x)

theorem execSiteUnreachable_fr {X : Nat} {s0 : State} {a0 : ℕ} {a1 : ℕ} {s : State} (h : Fr X s0 s) (hX : Sub 0x400000000000 X) {t : State}
    (ht : execSiteUnreachable a0 a1 s = .next t) : Fr X s0 t := by
  unfold execSiteUnreachable at ht
  obtain rfl := Host.Outcome.next.inj ht
  repeat' first
    | with_reducible assumption
    | ((with_reducible apply hX.after); exact rfl)
    | with_reducible apply State.inCore_fr
    | with_reducible apply State.siteUnreachable_fr
    | (intro x)

theorem execLossTimer_fr {X : Nat} {s0 : State} {a0 : ℕ} {a1 : ℕ} {s : State} (h : Fr X s0 s) (hX : Sub 0x3c4add7040dcc0 X) {t : State}
    (ht : execLossTimer a0 a1 s = .next t) : Fr X s0 t := by
  unfold execLossTimer at ht
  obtain rfl := Host.Outcome.next.inj ht
  repeat' first
    | with_reducible assumption
    | ((with_reducible apply hX.after); exact rfl)
    | with_reducible apply State.inPool_fr
    | with_reducible apply State.lossTimer_fr
    | (intro x)

theorem execRosterWaitExpire_fr {X : Nat} {s0 : State} {a0 : ℕ} {s : State} (h : Fr X s0 s) (hX : Sub 0x3c4add7040dcc0 X) {t : State}
    (ht : execRosterWaitExpire a0 s = .next t) : Fr X s0 t := by
  unfold execRosterWaitExpire at ht
  obtain rfl := Host.Outcome.next.inj ht
  repeat' first
    | with_reducible assumption
    | ((with_reducible apply hX.after); exact rfl)
    | with_reducible apply State.inPool_fr
    | with_reducible apply State.rosterWait_fr
    | (intro x)

theorem execOuterPropose_fr {X : Nat} {s0 : State} {a0 : Bytes} {s : State} (h : Fr X s0 s) (hX : Sub 0x3c4add7040dcc0 X) {t : State}
    (ht : execOuterPropose a0 s = .next t) : Fr X s0 t := by
  unfold execOuterPropose at ht
  obtain rfl := Host.Outcome.next.inj ht
  repeat' first
    | with_reducible assumption
    | ((with_reducible apply hX.after); exact rfl)
    | with_reducible apply State.inPool_fr
    | with_reducible apply State.hearMsg_fr
    | with_reducible apply State.hearPropose_fr
    | (intro x)

theorem execOuterVote_fr {X : Nat} {s0 : State} {a0 : Bytes} {s : State} (h : Fr X s0 s) (hX : Sub 0x3c4add7040dcc0 X) {t : State}
    (ht : execOuterVote a0 s = .next t) : Fr X s0 t := by
  unfold execOuterVote at ht
  obtain rfl := Host.Outcome.next.inj ht
  repeat' first
    | with_reducible assumption
    | ((with_reducible apply hX.after); exact rfl)
    | with_reducible apply State.inPool_fr
    | with_reducible apply State.hearMsg_fr
    | with_reducible apply State.hearVoteMsg_fr
    | (intro x)

theorem execOuterDigest_fr {X : Nat} {s0 : State} {a0 : Bytes} {s : State} (h : Fr X s0 s) (hX : Sub 0x3c4add7040dcc0 X) {t : State}
    (ht : execOuterDigest a0 s = .next t) : Fr X s0 t := by
  unfold execOuterDigest at ht
  obtain rfl := Host.Outcome.next.inj ht
  repeat' first
    | with_reducible assumption
    | ((with_reducible apply hX.after); exact rfl)
    | with_reducible apply State.inPool_fr
    | with_reducible apply State.hearMsg_fr
    | with_reducible apply State.hearDigest_fr
    | (intro x)

theorem execOuterFinal_fr {X : Nat} {s0 : State} {a0 : Bytes} {s : State} (h : Fr X s0 s) (hX : Sub 0x3c48d97000ccc0 X) {t : State}
    (ht : execOuterFinal a0 s = .next t) : Fr X s0 t := by
  unfold execOuterFinal at ht
  obtain rfl := Host.Outcome.next.inj ht
  repeat' first
    | with_reducible assumption
    | ((with_reducible apply hX.after); exact rfl)
    | with_reducible apply State.inPool_fr
    | with_reducible apply State.hearMsg_fr
    | with_reducible apply State.hearFinal_fr
    | (intro x)

theorem execMismatchTimeout_fr {X : Nat} {s0 : State} {a0 : ℕ} {s : State} (h : Fr X s0 s) (hX : Sub 0x400040000000 X) {t : State}
    (ht : execMismatchTimeout a0 s = .next t) : Fr X s0 t := by
  unfold execMismatchTimeout at ht
  obtain rfl := Host.Outcome.next.inj ht
  repeat' first
    | with_reducible assumption
    | ((with_reducible apply hX.after); exact rfl)
    | with_reducible apply State.inCore_fr
    | with_reducible apply State.openDone_fr
    | (intro x)
    | split

theorem execOuterFetchMsg_fr {X : Nat} {s0 : State} {a0 : Bytes} {s : State} (h : Fr X s0 s) (hX : Sub 0x80000008000 X) {t : State}
    (ht : execOuterFetchMsg a0 s = .next t) : Fr X s0 t := by
  unfold execOuterFetchMsg at ht
  obtain rfl := Host.Outcome.next.inj ht
  repeat' first
    | with_reducible assumption
    | ((with_reducible apply hX.after); exact rfl)
    | with_reducible apply State.inCore_fr
    | with_reducible apply State.hearMsg_fr
    | with_reducible apply State.hearFetch_fr
    | (intro x)

theorem execFetchTimeout_fr {X : Nat} {s0 : State} {a0 : ℕ} {a1 : ℕ} {s : State} (h : Fr X s0 s) (hX : Sub 0x480000000000 X) {t : State}
    (ht : execFetchTimeout a0 a1 s = .next t) : Fr X s0 t := by
  unfold execFetchTimeout at ht
  obtain rfl := Host.Outcome.next.inj ht
  repeat' first
    | with_reducible assumption
    | ((with_reducible apply hX.after); exact rfl)
    | with_reducible apply State.inCore_fr
    | with_reducible apply State.sendFetch_fr
    | with_reducible apply State.onPiece_fr
    | (intro x)
    | split

theorem execOuterPieceReceive_fr {X : Nat} {s0 : State} {a0 : Bytes} {a1 : Bytes} {s : State} (h : Fr X s0 s) (hX : Sub 0x3c4add7040dcc0 X) {t : State}
    (ht : execOuterPieceReceive a0 a1 s = .next t) : Fr X s0 t := by
  unfold execOuterPieceReceive at ht
  obtain rfl := Host.Outcome.next.inj ht
  repeat' first
    | with_reducible assumption
    | ((with_reducible apply hX.after); exact rfl)
    | with_reducible apply State.inPool_fr
    | with_reducible apply State.pieceReceive_fr
    | (intro x)

theorem execOuterPieceStepDone_fr {X : Nat} {s0 : State} {a0 : ℕ} {a1 : ℕ} {s : State} (h : Fr X s0 s) (hX : Sub 0x3c4add7040dcc0 X) {t : State}
    (ht : execOuterPieceStepDone a0 a1 s = .next t) : Fr X s0 t := by
  unfold execOuterPieceStepDone at ht
  obtain rfl := Host.Outcome.next.inj ht
  repeat' first
    | with_reducible assumption
    | ((with_reducible apply hX.after); exact rfl)
    | with_reducible apply State.inPool_fr
    | with_reducible apply State.pieceStep_fr
    | (intro x)

theorem execOutStatClr_fr {X : Nat} {s0 : State} {a0 : View} {a1 : Word} {s : State} (h : Fr X s0 s) (hX : Sub 0x4008000 X) {t : State}
    (ht : execOutStatClr a0 a1 s = .next t) : Fr X s0 t := by
  unfold execOutStatClr at ht
  obtain rfl := Host.Outcome.next.inj ht
  repeat' first
    | with_reducible assumption
    | ((with_reducible apply hX.after); exact rfl)
    | with_reducible apply State.selClear_fr
    | with_reducible apply State.setFld_fr
    | ((with_reducible apply hX.ok); exact rfl)
    | (intro x)

end Sys2Proof.Machine
end

