-- ==== Sys2Proof/Laws/FrameRig.lean ====
section
/-!
SUPPORT. Frames of the operations of FltMsg.lean, Plans.lean, RigCheck.lean, Rigs.lean, Transfers.lean, Flt.lean: one lemma each, by backward chaining (Frame.lean).
-/

namespace Sys2Proof.Machine

theorem State.setFltGroup_fr {X : Nat} {s0 : State} {s : State} {a1 : ℕ} {a2 : FltGroup} (h : Fr X s0 s) (hX : Sub 0x100000000000 X) :
    Fr X s0 (State.setFltGroup s a1 a2) := by
  unfold State.setFltGroup
  exact Fr.flt_ h (hX.bit rfl)

theorem State.onFlt_fr {X : Nat} {s0 : State} {s : State} {a1 : ℕ} {a2 : FltGroup → FltGroup} (h : Fr X s0 s) (hX : Sub 0x100000000000 X) :
    Fr X s0 (State.onFlt s a1 a2) := by
  unfold State.onFlt
  repeat' first
    | with_reducible assumption
    | with_reducible apply State.setFltGroup_fr

theorem State.onMember_fr {X : Nat} {s0 : State} {s : State} {a1 : ℕ} {a2 : ℕ} {a3 : Member → Member} (h : Fr X s0 s) (hX : Sub 0x100000000000 X) :
    Fr X s0 (State.onMember s a1 a2 a3) := by
  unfold State.onMember
  repeat' first
    | with_reducible assumption
    | with_reducible apply State.onFlt_fr

theorem State.fltCount_fr {X : Nat} {s0 : State} {s : State} {a1 : ℕ} {a2 : ℕ} (h : Fr X s0 s) (hX : Sub 0x2000000 X) :
    Fr X s0 (State.fltCount s a1 a2) := by
  unfold State.fltCount
  repeat' first
    | with_reducible assumption
    | with_reducible apply State.bump_fr
    | ((with_reducible apply hX.ok); exact rfl)

theorem State.fltSend_fr {X : Nat} {s0 : State} {s : State} {a1 : ℕ} {a2 : ℕ} {a3 : Bytes} (h : Fr X s0 s) (hX : Sub 0x2c0058700000c0 X) :
    Fr X s0 (State.fltSend s a1 a2 a3) := by
  unfold State.fltSend
  repeat' first
    | with_reducible assumption
    | with_reducible apply State.sendOut_fr
    | (extract_lets +onlyGivenNames x; clear_value x)
    | split

theorem State.fltTell_fr {X : Nat} {s0 : State} {s : State} {a1 : ℕ} {a2 : ℕ} {a3 : ℕ} {a4 : Bytes} (h : Fr X s0 s) (hX : Sub 0x2c0058700000c0 X) :
    Fr X s0 (State.fltTell s a1 a2 a3 a4) := by
  unfold State.fltTell
  repeat' first
    | with_reducible assumption
    | with_reducible apply State.fltSend_fr
    | split

theorem State.fltTellAll_fr {X : Nat} {s0 : State} {s : State} {a1 : ℕ} {a2 : List ℕ} {a3 : ℕ} {a4 : Bytes} (h : Fr X s0 s) (hX : Sub 0x2c0058700000c0 X) :
    Fr X s0 (State.fltTellAll s a1 a2 a3 a4) := by
  unfold State.fltTellAll
  repeat' first
    | with_reducible assumption
    | with_reducible apply State.fltTell_fr
    | with_reducible apply Fr.foldl
    | (intro x)

theorem State.paceDown_fr {X : Nat} {s0 : State} {s : State} {a1 : ℕ} {a2 : ℕ} {a3 : Bytes} (h : Fr X s0 s) (hX : Sub 0x2c0058720000c0 X) :
    Fr X s0 (State.paceDown s a1 a2 a3) := by
  unfold State.paceDown
  repeat' first
    | with_reducible assumption
    | ((with_reducible apply hX.after); exact rfl)
    | with_reducible apply State.fltCount_fr
    | with_reducible apply State.fltSend_fr
    | with_reducible apply Fr.foldl
    | (intro x)
    | split

theorem State.announce_fr {X : Nat} {s0 : State} {s : State} {a1 : ℕ} {a2 : ℕ} {a3 : ℕ} {a4 : ℕ} (h : Fr X s0 s) (hX : Sub 0x2c1058720000c0 X) :
    Fr X s0 (State.announce s a1 a2 a3 a4) := by
  unfold State.announce
  repeat' first
    | with_reducible assumption
    | ((with_reducible apply hX.after); exact rfl)
    | (with_reducible apply Fr.flt_; (on_goal 1 => (first | with_reducible assumption | with_reducible apply State.paceDown_fr | with_reducible refine Fr.of_snd (by assumption) ?_)))
    | (extract_lets +onlyGivenNames x; clear_value x)
    | split
    | ((with_reducible apply hX.bit); exact rfl)

theorem State.setPlan_fr {X : Nat} {s0 : State} {s : State} {a1 : ℕ} {a2 : PlanSlot} (h : Fr X s0 s) (hX : Sub 0x10000000000 X) :
    Fr X s0 (State.setPlan s a1 a2) := by
  unfold State.setPlan
  exact Fr.plans_ h (hX.bit rfl)

theorem State.onPlan_fr {X : Nat} {s0 : State} {s : State} {a1 : ℕ} {a2 : PlanSlot → PlanSlot} (h : Fr X s0 s) (hX : Sub 0x10000000000 X) :
    Fr X s0 (State.onPlan s a1 a2) := by
  unfold State.onPlan
  repeat' first
    | with_reducible assumption
    | with_reducible apply State.setPlan_fr

theorem State.pin_fr {X : Nat} {s0 : State} {s : State} {a1 : Bytes} (h : Fr X s0 s) (hX : Sub 0x4000000000 X) :
    Fr X s0 (State.pin s a1) := by
  unfold State.pin
  repeat' first
    | with_reducible assumption
    | with_reducible refine State.ctxCacheIn_fr ?_ ?_ (by assumption)
    | with_reducible apply State.setCtx_fr
    | with_reducible apply Fr.getD
    | with_reducible apply Fr.foldl
    | (refine fun (ht : _ = _) => ?_; first | (cases ht; done) | cases ht | (revert ht; split) | skip)
    | (intro x)
    | split

theorem State.planRelease_fr {X : Nat} {s0 : State} {s : State} {a1 : ℕ} (h : Fr X s0 s) (hX : Sub 0xc000000000 X) :
    Fr X s0 (State.planRelease s a1) := by
  unfold State.planRelease
  repeat' first
    | with_reducible assumption
    | ((with_reducible apply hX.after); exact rfl)
    | with_reducible apply State.unpin_fr
    | with_reducible apply State.onCol_fr
    | (extract_lets +onlyGivenNames x; clear_value x)
    | split

theorem State.ctxCreate_fr {X : Nat} {s0 : State} {s : State} {a1 : ℕ} (h : Fr X s0 s) (hX : Sub 0x4000000000 X) :
    Fr X s0 (State.ctxCreate s a1) := by
  unfold State.ctxCreate
  repeat' first
    | with_reducible assumption
    | with_reducible apply State.setCtx_fr
    | with_reducible refine State.ctxCacheIn_fr ?_ ?_ (by assumption)
    | with_reducible apply Fr.getD
    | (refine fun (ht : _ = _) => ?_; first | (cases ht; done) | cases ht | (revert ht; split) | skip)
    | (intro x)
    | (extract_lets +onlyGivenNames x; first
        | (refine Fr.cut (X := X) (s0 := s0) (s := x) ?_ (fun hx => ?_); (on_goal 2 => clear_value x); (on_goal 1 => (unfold x; clear x)))
        | clear_value x)
    | split

theorem State.holdPorts_fr {X : Nat} {s0 : State} {s : State} {a1 : ℕ} {a2 : Bool} (h : Fr X s0 s) (hX : Sub 0x1000000000 X) :
    Fr X s0 (State.holdPorts s a1 a2) := by
  unfold State.holdPorts
  repeat' first
    | with_reducible assumption
    | with_reducible apply State.setPortSt_fr
    | with_reducible apply Fr.foldl
    | (intro x)
    | (extract_lets +onlyGivenNames x; clear_value x)
    | split

theorem State.windowOpen_fr {X : Nat} {s0 : State} {s : State} {a1 : ℕ} {a2 : ℕ} (h : Fr X s0 s) (hX : Sub 0x11000000000 X) :
    Fr X s0 (State.windowOpen s a1 a2) := by
  unfold State.windowOpen
  repeat' first
    | with_reducible assumption
    | ((with_reducible apply hX.after); exact rfl)
    | with_reducible apply State.setPortSt_fr
    | with_reducible apply State.setPlan_fr
    | (extract_lets +onlyGivenNames x; clear_value x)
    | split

theorem State.windowClose_fr {X : Nat} {s0 : State} {s : State} {a1 : ℕ} {a2 : ℕ} (h : Fr X s0 s) (hX : Sub 0x1000001000 X) :
    Fr X s0 (State.windowClose s a1 a2) := by
  unfold State.windowClose
  repeat' first
    | with_reducible assumption
    | ((with_reducible apply hX.after); exact rfl)
    | with_reducible apply State.setPortSt_fr
    | with_reducible apply State.planOverrun_fr
    | (extract_lets +onlyGivenNames x; first
        | (refine Fr.cut (X := X) (s0 := s0) (s := x) ?_ (fun hx => ?_); (on_goal 2 => clear_value x); (on_goal 1 => (unfold x; clear x)))
        | clear_value x)
    | split

theorem State.closeWindows_fr {X : Nat} {s0 : State} {s : State} {a1 : ℕ} (h : Fr X s0 s) (hX : Sub 0x1000001000 X) :
    Fr X s0 (State.closeWindows s a1) := by
  unfold State.closeWindows
  repeat' first
    | with_reducible assumption
    | with_reducible apply State.windowClose_fr
    | with_reducible apply Fr.foldl
    | (intro x)

theorem State.planOpStart_fr {X : Nat} {s0 : State} {s : State} {a1 : ℕ} {a2 : ℕ × ℕ} {a3 : ℕ} (h : Fr X s0 s) (hX : Sub 0x8000000000 X) :
    Fr X s0 (State.planOpStart s a1 a2 a3) := by
  unfold State.planOpStart
  repeat' first
    | with_reducible assumption
    | with_reducible apply State.setCollOp_fr
    | (extract_lets +onlyGivenNames x; clear_value x)
    | split

theorem State.planOpsRetry_fr {X : Nat} {s0 : State} {s : State} (h : Fr X s0 s) (hX : Sub 0x2c028470400000 X) :
    Fr X s0 (State.planOpsRetry s) := by
  unfold State.planOpsRetry
  repeat' first
    | with_reducible assumption
    | ((with_reducible apply hX.after); exact rfl)
    | with_reducible apply State.runsEnter_fr
    | with_reducible apply State.openPlanned_fr
    | with_reducible apply State.planOpStart_fr
    | with_reducible apply Fr.foldl
    | (intro x)

theorem State.benchRes_fr {X : Nat} {s0 : State} {s : State} {a1 : ℕ} {a2 : ℕ} (h : Fr X s0 s) (hX : Sub 0x8000001000 X) :
    Fr X s0 (State.benchRes s a1 a2) := by
  unfold State.benchRes
  repeat' first
    | with_reducible assumption
    | ((with_reducible apply hX.after); exact rfl)
    | with_reducible apply State.onCol_fr
    | with_reducible apply State.planOpStart_fr
    | with_reducible apply State.planOverrun_fr
    | split

theorem State.onRigs_fr {X : Nat} {s0 : State} {s : State} {a1 : List Rig → List Rig} (h : Fr X s0 s) (hX : Sub 0x800000000000 X) :
    Fr X s0 (State.onRigs s a1) := by
  unfold State.onRigs
  exact Fr.rig_ h (hX.bit rfl)

theorem State.rigReject_fr {X : Nat} {s0 : State} {s : State} {a1 : OpKey} {a2 : ℕ} (h : Fr X s0 s) (hX : Sub 0x800040000000 X) :
    Fr X s0 (State.rigReject s a1 a2) := by
  unfold State.rigReject
  repeat' first
    | with_reducible assumption
    | ((with_reducible apply hX.after); exact rfl)
    | with_reducible apply State.endOp_fr
    | with_reducible apply State.onRigs_fr

theorem State.rigDrop_fr {X : Nat} {s0 : State} {a0 : OpKey} {a1 : ℕ} {a2 : ℕ} {s : State} (h : Fr X s0 s) (hX : Sub 0x800040000000 X) :
    Fr X s0 (State.rigDrop a0 a1 a2 s) := by
  revert h
  fun_induction State.rigDrop a0 a1 a2 s
  all_goals intro h
  all_goals repeat' first
    | with_reducible assumption
    | ((with_reducible apply hX.after); exact rfl)
    | with_reducible apply State.rigReject_fr
    | with_reducible apply Fr.foldl
    | with_reducible apply Fr.foldl_fst
    | with_reducible apply Fr.foldl_snd
    | with_reducible refine Fr.of_snd (by assumption) ?_
    | with_reducible refine Fr.of_fst (by assumption) ?_
    | (intro x)
    | (extract_lets +onlyGivenNames x; first
        | (refine Fr.cut (X := X) (s0 := s0) (s := x) ?_ (fun hx => ?_); (on_goal 2 => clear_value x); (on_goal 1 => (unfold x; clear x)))
        | (refine Fr.cut_fn (X := X) (s0 := s0) (f := x) ?_ (fun hx => ?_); (on_goal 2 => clear_value x); (on_goal 1 => (unfold x; clear x)))
        | (refine Fr.cut_fn2 (X := X) (s0 := s0) (f := x) ?_ (fun hx => ?_); (on_goal 2 => clear_value x); (on_goal 1 => (unfold x; clear x)))
        | (refine Fr.cut_fn7 (X := X) (s0 := s0) (f := x) ?_ (fun hx => ?_); (on_goal 2 => clear_value x); (on_goal 1 => (unfold x; clear x)))
        | (refine Fr.cut_fn6 (X := X) (s0 := s0) (f := x) ?_ (fun hx => ?_); (on_goal 2 => clear_value x); (on_goal 1 => (unfold x; clear x)))
        | (refine Fr.cut_fn5 (X := X) (s0 := s0) (f := x) ?_ (fun hx => ?_); (on_goal 2 => clear_value x); (on_goal 1 => (unfold x; clear x)))
        | (refine Fr.cut_fn3 (X := X) (s0 := s0) (f := x) ?_ (fun hx => ?_); (on_goal 2 => clear_value x); (on_goal 1 => (unfold x; clear x)))
        | clear_value x)
    | split
    | ((with_reducible apply hX.ok); exact rfl)
    | ((with_reducible apply hX.bit); exact rfl)
    | (with_reducible apply Sub.key)
    | with_reducible apply_assumption -exfalso -symm
    | dsimp only
    | with_reducible apply_assumption -exfalso -symm

theorem State.dropRig_fr {X : Nat} {s0 : State} {s : State} {a1 : OpKey} {a2 : ℕ} (h : Fr X s0 s) (hX : Sub 0x800040000000 X) :
    Fr X s0 (State.dropRig s a1 a2) := by
  unfold State.dropRig
  repeat' first
    | with_reducible assumption
    | with_reducible apply State.rigDrop_fr

theorem State.planRigsMissed_fr {X : Nat} {s0 : State} {s : State} {a1 : ℕ} (h : Fr X s0 s) (hX : Sub 0x800040000000 X) :
    Fr X s0 (State.planRigsMissed s a1) := by
  unfold State.planRigsMissed
  repeat' first
    | with_reducible assumption
    | with_reducible apply State.rigReject_fr
    | with_reducible apply State.dropRig_fr
    | with_reducible apply Fr.foldl
    | (intro x)

theorem State.planEnd_fr {X : Nat} {s0 : State} {s : State} {a1 : ℕ} {a2 : ℕ} (h : Fr X s0 s) (hX : Sub 0x2c81d070000000 X) :
    Fr X s0 (State.planEnd s a1 a2) := by
  unfold State.planEnd
  repeat' first
    | with_reducible assumption
    | ((with_reducible apply hX.after); exact rfl)
    | with_reducible apply State.planRigsMissed_fr
    | with_reducible apply State.raise_fr
    | with_reducible apply State.setPlan_fr
    | with_reducible apply State.planRelease_fr
    | with_reducible apply State.holdPorts_fr

theorem State.heatBegin_fr {X : Nat} {s0 : State} {s : State} {a1 : ℕ} {a2 : ℕ} {a3 : ℕ} (h : Fr X s0 s) (hX : Sub 0x11000000000 X) :
    Fr X s0 (State.heatBegin s a1 a2 a3) := by
  unfold State.heatBegin
  repeat' first
    | with_reducible assumption
    | ((with_reducible apply hX.after); exact rfl)
    | with_reducible apply State.holdPorts_fr
    | with_reducible apply State.onPlan_fr

theorem State.planActivate_fr {X : Nat} {s0 : State} {s : State} {a1 : ℕ} {a2 : ℕ} (h : Fr X s0 s) (hX : Sub 0x15000000000 X) :
    Fr X s0 (State.planActivate s a1 a2) := by
  unfold State.planActivate
  repeat' first
    | with_reducible assumption
    | ((with_reducible apply hX.after); exact rfl)
    | with_reducible apply State.heatBegin_fr
    | with_reducible apply State.pin_fr
    | with_reducible apply State.onPlan_fr

theorem State.planStart_fr {X : Nat} {s0 : State} {s : State} {a1 : ℕ} (h : Fr X s0 s) (hX : Sub 0x2c81d070001000 X) :
    Fr X s0 (State.planStart s a1) := by
  unfold State.planStart
  repeat' first
    | with_reducible assumption
    | ((with_reducible apply hX.after); exact rfl)
    | with_reducible apply State.planActivate_fr
    | with_reducible apply State.planEnd_fr
    | with_reducible apply State.planCount_fr
    | (extract_lets +onlyGivenNames x; clear_value x)
    | split

theorem State.heatStart_fr {X : Nat} {s0 : State} {s : State} {a1 : ℕ} (h : Fr X s0 s) (hX : Sub 0x2c81d070000000 X) :
    Fr X s0 (State.heatStart s a1) := by
  unfold State.heatStart
  repeat' first
    | with_reducible assumption
    | ((with_reducible apply hX.after); exact rfl)
    | with_reducible apply State.planEnd_fr
    | with_reducible apply State.heatBegin_fr
    | (extract_lets +onlyGivenNames x; clear_value x)
    | split

theorem State.heatEnd_fr {X : Nat} {s0 : State} {s : State} {a1 : ℕ} (h : Fr X s0 s) (hX : Sub 0x2c91d8720010c0 X) :
    Fr X s0 (State.heatEnd s a1) := by
  unfold State.heatEnd
  repeat' first
    | with_reducible assumption
    | ((with_reducible apply hX.after); exact rfl)
    | with_reducible apply State.planEnd_fr
    | with_reducible apply State.onPlan_fr
    | with_reducible apply State.closeWindows_fr
    | with_reducible apply State.planCount_fr
    | with_reducible apply State.announce_fr
    | (extract_lets +onlyGivenNames x; first
        | (refine Fr.cut (X := X) (s0 := s0) (s := x) ?_ (fun hx => ?_); (on_goal 2 => clear_value x); (on_goal 1 => (unfold x; clear x)))
        | clear_value x)
    | split

theorem State.strokeLate_fr {X : Nat} {s0 : State} {s : State} {a1 : ℕ} {a2 : ℕ} (h : Fr X s0 s) (hX : Sub 0x2c011070001000 X) :
    Fr X s0 (State.strokeLate s a1 a2) := by
  unfold State.strokeLate
  repeat' first
    | with_reducible assumption
    | ((with_reducible apply hX.after); exact rfl)
    | with_reducible apply State.holdPorts_fr
    | with_reducible apply State.raise_fr
    | with_reducible apply State.planCount_fr
    | with_reducible apply State.onPlan_fr
    | with_reducible apply State.setPlan_fr
    | (extract_lets +onlyGivenNames x; first
        | (refine Fr.cut (X := X) (s0 := s0) (s := x) ?_ (fun hx => ?_); (on_goal 2 => clear_value x); (on_goal 1 => (unfold x; clear x)))
        | clear_value x)
    | split

theorem State.strokeStart_fr {X : Nat} {s0 : State} {s : State} {a1 : ℕ} (h : Fr X s0 s) (hX : Sub 0x3c01d970001cc0 X) :
    Fr X s0 (State.strokeStart s a1) := by
  unfold State.strokeStart
  repeat' first
    | with_reducible assumption
    | ((with_reducible apply hX.after); exact rfl)
    | with_reducible apply State.collSettle_fr
    | with_reducible apply State.benchRes_fr
    | with_reducible apply State.strokeLate_fr
    | with_reducible apply State.onPlan_fr
    | with_reducible apply State.closeWindows_fr
    | with_reducible apply State.holdPorts_fr
    | with_reducible apply Fr.foldl
    | (intro x)
    | (extract_lets +onlyGivenNames x; first
        | (refine Fr.cut (X := X) (s0 := s0) (s := x) ?_ (fun hx => ?_); (on_goal 2 => clear_value x); (on_goal 1 => (unfold x; clear x)))
        | clear_value x)
    | split

theorem State.adopt_fr {X : Nat} {s0 : State} {s : State} {a1 : ℕ} {a2 : ℕ} {a3 : ℕ} {a4 : ℕ} (h : Fr X s0 s) (hX : Sub 0x2c010070001000 X) :
    Fr X s0 (State.adopt s a1 a2 a3 a4) := by
  unfold State.adopt
  repeat' first
    | with_reducible assumption
    | ((with_reducible apply hX.after); exact rfl)
    | with_reducible apply State.raise_fr
    | with_reducible apply State.planCount_fr
    | with_reducible apply State.setPlan_fr
    | with_reducible apply State.onPlan_fr
    | with_reducible apply Fr.foldl
    | (intro x)
    | (extract_lets +onlyGivenNames x; first
        | (refine Fr.cut (X := X) (s0 := s0) (s := x) ?_ (fun hx => ?_); (on_goal 2 => clear_value x); (on_goal 1 => (unfold x; clear x)))
        | clear_value x)
    | split

theorem execPlanStart_fr {X : Nat} {s0 : State} {a0 : ℕ} {s : State} (h : Fr X s0 s) (hX : Sub 0x2c81d070001000 X) {t : State}
    (ht : execPlanStart a0 s = .next t) : Fr X s0 t := by
  unfold execPlanStart at ht
  obtain rfl := Host.Outcome.next.inj ht
  repeat' first
    | with_reducible assumption
    | ((with_reducible apply hX.after); exact rfl)
    | with_reducible apply State.inCore_fr
    | with_reducible apply State.planStart_fr
    | (intro x)

theorem execStrokeStart_fr {X : Nat} {s0 : State} {a0 : ℕ} {s : State} (h : Fr X s0 s) (hX : Sub 0x3c01d970001cc0 X) {t : State}
    (ht : execStrokeStart a0 s = .next t) : Fr X s0 t := by
  unfold execStrokeStart at ht
  obtain rfl := Host.Outcome.next.inj ht
  repeat' first
    | with_reducible assumption
    | ((with_reducible apply hX.after); exact rfl)
    | with_reducible apply State.inPool_fr
    | with_reducible apply State.strokeStart_fr
    | (intro x)

theorem execHeatStart_fr {X : Nat} {s0 : State} {a0 : ℕ} {s : State} (h : Fr X s0 s) (hX : Sub 0x2c81d070000000 X) {t : State}
    (ht : execHeatStart a0 s = .next t) : Fr X s0 t := by
  unfold execHeatStart at ht
  obtain rfl := Host.Outcome.next.inj ht
  repeat' first
    | with_reducible assumption
    | ((with_reducible apply hX.after); exact rfl)
    | with_reducible apply State.inCore_fr
    | with_reducible apply State.heatStart_fr
    | (intro x)

theorem execHeatEnd_fr {X : Nat} {s0 : State} {a0 : ℕ} {s : State} (h : Fr X s0 s) (hX : Sub 0x3c91d972001cc0 X) {t : State}
    (ht : execHeatEnd a0 s = .next t) : Fr X s0 t := by
  unfold execHeatEnd at ht
  obtain rfl := Host.Outcome.next.inj ht
  repeat' first
    | with_reducible assumption
    | ((with_reducible apply hX.after); exact rfl)
    | with_reducible apply State.inPool_fr
    | with_reducible apply State.heatEnd_fr
    | (intro x)

theorem execReservedWindowOpen_fr {X : Nat} {s0 : State} {a0 : ℕ} {a1 : ℕ} {s : State} (h : Fr X s0 s) (hX : Sub 0x11000000000 X) {t : State}
    (ht : execReservedWindowOpen a0 a1 s = .next t) : Fr X s0 t := by
  unfold execReservedWindowOpen at ht
  obtain rfl := Host.Outcome.next.inj ht
  repeat' first
    | with_reducible assumption
    | ((with_reducible apply hX.after); exact rfl)
    | with_reducible apply State.inCore_fr
    | with_reducible apply State.windowOpen_fr
    | (intro x)

theorem execReservedWindowClose_fr {X : Nat} {s0 : State} {a0 : ℕ} {a1 : ℕ} {s : State} (h : Fr X s0 s) (hX : Sub 0x1000001000 X) {t : State}
    (ht : execReservedWindowClose a0 a1 s = .next t) : Fr X s0 t := by
  unfold execReservedWindowClose at ht
  obtain rfl := Host.Outcome.next.inj ht
  repeat' first
    | with_reducible assumption
    | ((with_reducible apply hX.after); exact rfl)
    | with_reducible apply State.inCore_fr
    | with_reducible apply State.windowClose_fr
    | (intro x)

theorem execPlnSlotClr_fr {X : Nat} {s0 : State} {a0 : View} {a1 : Word} {s : State} (h : Fr X s0 s) (hX : Sub 0x10004001000 X) {t : State}
    (ht : execPlnSlotClr a0 a1 s = .next t) : Fr X s0 t := by
  unfold execPlnSlotClr at ht
  obtain rfl := Host.Outcome.next.inj ht
  repeat' first
    | with_reducible assumption
    | ((with_reducible apply hX.after); exact rfl)
    | with_reducible apply State.selClear_fr
    | with_reducible apply State.onPlan_fr
    | with_reducible apply State.setFld_fr
    | with_reducible apply Fr.foldl
    | (intro x)
    | ((with_reducible apply hX.ok); exact rfl)

theorem State.withTab_fr {X : Nat} {s0 : State} {s : State} {a1 : Tables} (h : Fr X s0 s) (hX : Sub 0x1000000000 X) :
    Fr X s0 (State.withTab s a1) := by
  unfold State.withTab
  exact Fr.swc_ h (hX.bit rfl)

theorem State.loadStatus_fr {X : Nat} {s0 s u t : State} {fn order : Nat} {recs : List Bytes} {x b : Bytes}
    (h : Fr X s0 s) (hX : Sub 0x3000 X) (ht : s.loadStatus fn order recs u x b = some t) : Fr X s0 t := by
  unfold State.loadStatus at ht
  split at ht
  · obtain ⟨w, -, rfl⟩ := Option.map_eq_some_iff.mp ht
    refine State.setFld_fr (State.setFld_fr (State.setFld_fr h ?_) ?_) ?_ <;> exact hX.ok rfl
  · split at ht
    · obtain ⟨w, -, rfl⟩ := Option.map_eq_some_iff.mp ht
      refine State.setFld_fr (State.setFld_fr h ?_) ?_ <;> exact hX.ok rfl
    · cases ht


theorem State.judge_fr {X : Nat} {s0 s : State} {r : Rig} (h : Fr X s0 s) (hX : Sub 0x3000 X) :
    Fr X s0 (s.judge r).2 := by
  unfold State.judge
  extract_lets form before after j earlier prog slotFree
  have hp : ∀ t, prog = some t → Fr X s0 t := by
    intro t ht
    obtain ⟨l, a, l', -, ha, -⟩ := List.findSome?_eq_some_iff.mp ht
    exact State.loadStatus_fr h (hX.after rfl) ha
  clear_value prog
  split
  · exact h
  · split
    · exact hp _ rfl
    · exact h


theorem State.planStage_fr {X : Nat} {s0 : State} {s : State} {a1 : ℕ} {a2 : ℕ} {a3 : Bytes} {a4 : Bytes} (h : Fr X s0 s) (hX : Sub 0x10000000000 X) :
    Fr X s0 (State.planStage s a1 a2 a3 a4) := by
  unfold State.planStage
  repeat' first
    | with_reducible assumption
    | with_reducible apply State.onPlan_fr

theorem State.planUnload_fr {X : Nat} {s0 : State} {s : State} {a1 : ℕ} (h : Fr X s0 s) (hX : Sub 0x810040000000 X) :
    Fr X s0 (State.planUnload s a1) := by
  unfold State.planUnload
  repeat' first
    | with_reducible assumption
    | ((with_reducible apply hX.after); exact rfl)
    | with_reducible apply State.planRigsMissed_fr
    | with_reducible apply State.onPlan_fr
    | split

theorem State.rigRun_fr {X : Nat} {s0 : State} {s : State} {a1 : Rig} {a2 : ℕ} {a3 : Bytes} (h : Fr X s0 s) (hX : Sub 0x2c020470401000 X) :
    Fr X s0 (State.rigRun s a1 a2 a3) := by
  unfold State.rigRun
  repeat' first
    | with_reducible assumption
    | with_reducible apply State.runRequest_fr

theorem State.recEffect_fr {X : Nat} {s0 : State} {s : State} {a1 : Rig} {a2 : ℕ} {a3 : ℕ} {a4 : Bytes} (h : Fr X s0 s) (hX : Sub 0x3cd3dd70401240 X) :
    Fr X s0 (State.recEffect s a1 a2 a3 a4) := by
  unfold State.recEffect
  repeat' first
    | with_reducible assumption
    | ((with_reducible apply hX.after); exact rfl)
    | with_reducible apply State.onSwc_fr
    | with_reducible apply State.ctxFree_fr
    | with_reducible apply State.ctxCreate_fr
    | with_reducible apply State.onCol_fr
    | with_reducible apply State.setGrpState_fr
    | with_reducible apply State.planStage_fr
    | with_reducible apply State.planUnload_fr
    | with_reducible apply State.ctxLoad_fr
    | with_reducible apply State.ctxUnload_fr
    | with_reducible apply State.rigRun_fr
    | with_reducible apply State.setShard_fr
    | with_reducible apply State.setFltGroup_fr
    | (with_reducible apply Fr.outer_; (on_goal 1 => (first | with_reducible assumption | with_reducible apply State.onSwc_fr | with_reducible apply State.ctxFree_fr | with_reducible apply State.ctxCreate_fr | with_reducible apply State.onCol_fr | with_reducible apply State.setGrpState_fr | with_reducible apply State.planStage_fr | with_reducible apply State.planUnload_fr | with_reducible apply State.ctxLoad_fr | with_reducible apply State.ctxUnload_fr | with_reducible apply State.rigRun_fr | with_reducible apply State.setShard_fr | with_reducible apply State.setFltGroup_fr | with_reducible refine Fr.of_snd (by assumption) ?_)))
    | (with_reducible apply Fr.flt_; (on_goal 1 => (first | with_reducible assumption | with_reducible apply State.onSwc_fr | with_reducible apply State.ctxFree_fr | with_reducible apply State.ctxCreate_fr | with_reducible apply State.onCol_fr | with_reducible apply State.setGrpState_fr | with_reducible apply State.planStage_fr | with_reducible apply State.planUnload_fr | with_reducible apply State.ctxLoad_fr | with_reducible apply State.ctxUnload_fr | with_reducible apply State.rigRun_fr | with_reducible apply State.setShard_fr | with_reducible apply State.setFltGroup_fr | with_reducible refine Fr.of_snd (by assumption) ?_)))
    | (extract_lets +onlyGivenNames x; first
        | (refine Fr.cut (X := X) (s0 := s0) (s := x) ?_ (fun hx => ?_); (on_goal 2 => clear_value x); (on_goal 1 => (unfold x; clear x)))
        | clear_value x)
    | split
    | ((with_reducible apply hX.bit); exact rfl)

theorem State.recLive_fr {X : Nat} {s0 : State} {s : State} {a1 : Rig} {a2 : ℕ} {a3 : ℕ} {a4 : Bytes} (h : Fr X s0 s) (hX : Sub 0x3cd3dd70401240 X) :
    Fr X s0 (State.recLive s a1 a2 a3 a4) := by
  unfold State.recLive
  repeat' first
    | with_reducible assumption
    | ((with_reducible apply hX.after); exact rfl)
    | with_reducible apply State.onSwc_fr
    | with_reducible apply State.recEffect_fr

theorem State.logRig_fr {X : Nat} {s0 : State} {s : State} {a1 : Rig} (h : Fr X s0 s) (hX : Sub 0x800000000000 X) :
    Fr X s0 (State.logRig s a1) := by
  unfold State.logRig
  repeat' first
    | (with_reducible apply Fr.rig_; (on_goal 1 => (first | with_reducible assumption | with_reducible refine Fr.of_snd (by assumption) ?_)))
    | ((with_reducible apply hX.bit); exact rfl)

theorem State.rigLive_fr {X : Nat} {s0 : State} {s : State} {a1 : OpKey} {a2 : ℕ} (h : Fr X s0 s) (hX : Sub 0x3cf3fd704b12c0 X) :
    Fr X s0 (State.rigLive s a1 a2) := by
  unfold State.rigLive
  repeat' first
    | with_reducible assumption
    | ((with_reducible apply hX.after); exact rfl)
    | with_reducible apply State.endOp_fr
    | with_reducible apply State.resetCurOf_fr
    | with_reducible apply State.groupStop_fr
    | with_reducible apply State.onSwc_fr
    | with_reducible apply State.onRigs_fr
    | with_reducible apply State.logRig_fr
    | with_reducible apply State.recLive_fr
    | with_reducible apply Fr.foldl
    | (intro x)
    | (extract_lets +onlyGivenNames x; first
        | (refine Fr.cut (X := X) (s0 := s0) (s := x) ?_ (fun hx => ?_); (on_goal 2 => clear_value x); (on_goal 1 => (unfold x; clear x)))
        | clear_value x)
    | split

theorem State.rigEntry_fr {X : Nat} {s0 : State} {s : State} {a1 : ℕ} {a2 : ℕ} (h : Fr X s0 s) (hX : Sub 0x3cf3fd704b12c0 X) :
    Fr X s0 (State.rigEntry s a1 a2) := by
  unfold State.rigEntry
  repeat' first
    | with_reducible assumption
    | ((with_reducible apply hX.after); exact rfl)
    | with_reducible apply State.planCount_fr
    | with_reducible apply State.setPlan_fr
    | with_reducible apply State.onPlan_fr
    | with_reducible apply State.rigLive_fr
    | (extract_lets +onlyGivenNames x; clear_value x)
    | split

theorem State.entriesLook_fr {X : Nat} {s0 : State} {s : State} {a1 : OpKey} (h : Fr X s0 s) (hX : Sub 0x3cf3fd704b12c0 X) :
    Fr X s0 (State.entriesLook s a1) := by
  unfold State.entriesLook
  repeat' first
    | with_reducible assumption
    | ((with_reducible apply hX.after); exact rfl)
    | with_reducible apply State.onPlan_fr
    | with_reducible apply State.rigLive_fr
    | with_reducible apply State.planCount_fr
    | with_reducible apply Fr.foldl
    | (intro x)
    | split

theorem State.entryFire_fr {X : Nat} {s0 : State} {s : State} {a1 : ℕ} {a2 : ℕ} (h : Fr X s0 s) (hX : Sub 0x3cfbfd704b12c0 X) :
    Fr X s0 (State.entryFire s a1 a2) := by
  unfold State.entryFire
  repeat' first
    | with_reducible assumption
    | ((with_reducible apply hX.after); exact rfl)
    | with_reducible apply State.rigEntry_fr
    | with_reducible apply State.runRequest_fr
    | with_reducible apply State.setPlan_fr
    | with_reducible apply State.lineRelease_fr
    | (extract_lets +onlyGivenNames x; clear_value x)
    | split

theorem State.rigSubmit_fr {X : Nat} {s0 : State} {s : State} {a1 : Op} {a2 : Option Bytes} {a3 : List (Option Bytes)} (h : Fr X s0 s) (hX : Sub 0x3cf3fd704b32c0 X) :
    Fr X s0 (State.rigSubmit s a1 a2 a3) := by
  unfold State.rigSubmit
  repeat' first
    | with_reducible assumption
    | ((with_reducible apply hX.after); exact rfl)
    | with_reducible apply State.entriesLook_fr
    | with_reducible apply State.rigReject_fr
    | with_reducible apply State.judge_fr
    | with_reducible apply State.cacheRange_fr
    | with_reducible apply Fr.foldl
    | (with_reducible apply Fr.rig_; (on_goal 1 => (first | with_reducible assumption | with_reducible apply State.entriesLook_fr | with_reducible apply State.rigReject_fr | with_reducible apply State.judge_fr | with_reducible apply State.cacheRange_fr | with_reducible apply Fr.foldl | with_reducible apply Fr.foldl_fst | with_reducible apply Fr.foldl_snd | with_reducible refine Fr.of_snd (by assumption) ?_)))
    | (intro x)
    | (extract_lets +onlyGivenNames x; first
        | (refine Fr.cut (X := X) (s0 := s0) (s := x) ?_ (fun hx => ?_); (on_goal 2 => clear_value x); (on_goal 1 => (unfold x; clear x)))
        | (refine Fr.cut_fn2 (X := X) (s0 := s0) (f := x) ?_ (fun hx => ?_); (on_goal 2 => clear_value x); (on_goal 1 => (unfold x; clear x)))
        | clear_value x)
    | split
    | ((with_reducible apply hX.bit); exact rfl)
    | with_reducible apply_assumption -exfalso -symm

theorem State.rigStage_fr {X : Nat} {s0 : State} {s : State} {a1 : OpKey} (h : Fr X s0 s) (hX : Sub 0x3cf3fd704b32c0 X) :
    Fr X s0 (State.rigStage s a1) := by
  unfold State.rigStage
  repeat' first
    | with_reducible assumption
    | ((with_reducible apply hX.after); exact rfl)
    | with_reducible apply State.judge_fr
    | with_reducible apply State.entriesLook_fr
    | with_reducible apply State.dropRig_fr
    | with_reducible apply State.rigLive_fr
    | with_reducible apply State.onRigs_fr
    | with_reducible refine Fr.of_snd (by assumption) ?_
    | (intro x)
    | (extract_lets +onlyGivenNames x; first
        | (refine Fr.cut (X := X) (s0 := s0) (s := x) ?_ (fun hx => ?_); (on_goal 2 => clear_value x); (on_goal 1 => (unfold x; clear x)))
        | (refine Fr.cut_fn2 (X := X) (s0 := s0) (f := x) ?_ (fun hx => ?_); (on_goal 2 => clear_value x); (on_goal 1 => (unfold x; clear x)))
        | clear_value x)
    | split
    | with_reducible apply_assumption -exfalso -symm

theorem State.catchFire_fr {X : Nat} {s0 : State} {s : State} {a1 : OpKey} (h : Fr X s0 s) (hX : Sub 0x3cf3fd704b12c0 X) :
    Fr X s0 (State.catchFire s a1) := by
  unfold State.catchFire
  repeat' first
    | with_reducible assumption
    | ((with_reducible apply hX.after); exact rfl)
    | with_reducible apply State.rigLive_fr
    | with_reducible apply State.dropRig_fr
    | with_reducible apply State.rigReject_fr
    | split

theorem State.bypassBegin_fr {X : Nat} {s0 : State} {s : State} {a1 : Op} (h : Fr X s0 s) (hX : Sub 0x3cf3fd704b12c0 X) :
    Fr X s0 (State.bypassBegin s a1) := by
  unfold State.bypassBegin
  repeat' first
    | with_reducible assumption
    | ((with_reducible apply hX.after); exact rfl)
    | with_reducible apply State.finish_fr
    | with_reducible apply State.rigLive_fr
    | (with_reducible apply Fr.rig_; (on_goal 1 => (first | with_reducible assumption | with_reducible apply State.finish_fr | with_reducible apply State.rigLive_fr | with_reducible refine Fr.of_snd (by assumption) ?_)))
    | (extract_lets +onlyGivenNames x; first
        | (refine Fr.cut (X := X) (s0 := s0) (s := x) ?_ (fun hx => ?_); (on_goal 2 => clear_value x); (on_goal 1 => (unfold x; clear x)))
        | clear_value x)
    | split
    | ((with_reducible apply hX.bit); exact rfl)

theorem State.bypassEnd_fr {X : Nat} {s0 : State} {s : State} {a1 : Op} (h : Fr X s0 s) (hX : Sub 0x2c203c704b00c0 X) :
    Fr X s0 (State.bypassEnd s a1) := by
  unfold State.bypassEnd
  repeat' first
    | with_reducible assumption
    | ((with_reducible apply hX.after); exact rfl)
    | with_reducible apply State.finish_fr
    | with_reducible apply State.setHold_fr
    | with_reducible apply State.groupAcquire_fr
    | with_reducible apply State.onSwc_fr
    | with_reducible apply Fr.foldl
    | (intro x)
    | (extract_lets +onlyGivenNames x; first
        | (refine Fr.cut (X := X) (s0 := s0) (s := x) ?_ (fun hx => ?_); (on_goal 2 => clear_value x); (on_goal 1 => (unfold x; clear x)))
        | clear_value x)
    | split

theorem State.bypassTimeout_fr {X : Nat} {s0 : State} {s : State} {a1 : OpKey} (h : Fr X s0 s) (hX : Sub 0x2c001070000000 X) :
    Fr X s0 (State.bypassTimeout s a1) := by
  unfold State.bypassTimeout
  repeat' first
    | with_reducible assumption
    | ((with_reducible apply hX.after); exact rfl)
    | with_reducible apply State.bypassFinish_fr
    | with_reducible apply State.raise_fr
    | with_reducible apply Fr.foldl
    | (intro x)
    | split

theorem execRigSubmit_fr {X : Nat} {s0 : State} {a0 : OpKey} {a1 : Option Bytes} {a2 : List (Option Bytes)} {s : State} (h : Fr X s0 s) (hX : Sub 0x3cf3fd704b3ec0 X) {t : State}
    (ht : execRigSubmit a0 a1 a2 s = .next t) : Fr X s0 t := by
  unfold execRigSubmit at ht
  obtain rfl := Host.Outcome.next.inj ht
  repeat' first
    | with_reducible assumption
    | ((with_reducible apply hX.after); exact rfl)
    | with_reducible apply State.pooled_fr
    | with_reducible apply State.start_fr
    | with_reducible apply State.rigSubmit_fr
    | (intro x)

theorem execRigStage_fr {X : Nat} {s0 : State} {a0 : OpKey} {s : State} (h : Fr X s0 s) (hX : Sub 0x3cf3fd704b3ec0 X) {t : State}
    (ht : execRigStage a0 s = .next t) : Fr X s0 t := by
  unfold execRigStage at ht
  obtain rfl := Host.Outcome.next.inj ht
  repeat' first
    | with_reducible assumption
    | ((with_reducible apply hX.after); exact rfl)
    | with_reducible apply State.inPool_fr
    | with_reducible apply State.rigStage_fr
    | (intro x)

theorem execCatchFire_fr {X : Nat} {s0 : State} {a0 : OpKey} {s : State} (h : Fr X s0 s) (hX : Sub 0x3cf3fd704b1ec0 X) {t : State}
    (ht : execCatchFire a0 s = .next t) : Fr X s0 t := by
  unfold execCatchFire at ht
  obtain rfl := Host.Outcome.next.inj ht
  repeat' first
    | with_reducible assumption
    | ((with_reducible apply hX.after); exact rfl)
    | with_reducible apply State.inPool_fr
    | with_reducible apply State.catchFire_fr
    | (intro x)

theorem execPlanEntryFire_fr {X : Nat} {s0 : State} {a0 : ℕ} {a1 : ℕ} {s : State} (h : Fr X s0 s) (hX : Sub 0x3cfbfd704b1ec0 X) {t : State}
    (ht : execPlanEntryFire a0 a1 s = .next t) : Fr X s0 t := by
  unfold execPlanEntryFire at ht
  obtain rfl := Host.Outcome.next.inj ht
  repeat' first
    | with_reducible assumption
    | ((with_reducible apply hX.after); exact rfl)
    | with_reducible apply State.inPool_fr
    | with_reducible apply State.entryFire_fr
    | (intro x)

theorem execBypassBegin_fr {X : Nat} {s0 : State} {a0 : OpKey} {s : State} (h : Fr X s0 s) (hX : Sub 0x3cf3fd704b1ec0 X) {t : State}
    (ht : execBypassBegin a0 s = .next t) : Fr X s0 t := by
  unfold execBypassBegin at ht
  obtain rfl := Host.Outcome.next.inj ht
  repeat' first
    | with_reducible assumption
    | ((with_reducible apply hX.after); exact rfl)
    | with_reducible apply State.pooled_fr
    | with_reducible apply State.start_fr
    | with_reducible apply State.bypassBegin_fr
    | (intro x)

theorem execBypassEnd_fr {X : Nat} {s0 : State} {a0 : OpKey} {s : State} (h : Fr X s0 s) (hX : Sub 0x3c20fd704b0cc0 X) {t : State}
    (ht : execBypassEnd a0 s = .next t) : Fr X s0 t := by
  unfold execBypassEnd at ht
  obtain rfl := Host.Outcome.next.inj ht
  repeat' first
    | with_reducible assumption
    | ((with_reducible apply hX.after); exact rfl)
    | with_reducible apply State.inPool_fr
    | with_reducible apply State.bypassEnd_fr
    | with_reducible apply State.start_fr
    | (intro x)
    | split

theorem execBypassReturnTimeout_fr {X : Nat} {s0 : State} {a0 : OpKey} {s : State} (h : Fr X s0 s) (hX : Sub 0x2c001070000000 X) {t : State}
    (ht : execBypassReturnTimeout a0 s = .next t) : Fr X s0 t := by
  unfold execBypassReturnTimeout at ht
  obtain rfl := Host.Outcome.next.inj ht
  repeat' first
    | with_reducible assumption
    | ((with_reducible apply hX.after); exact rfl)
    | with_reducible apply State.inCore_fr
    | with_reducible apply State.bypassTimeout_fr
    | (intro x)

theorem State.onKmc_fr {X : Nat} {s0 : State} {s : State} {a1 : KmcState → KmcState} (h : Fr X s0 s) (hX : Sub 0x1000000000000 X) :
    Fr X s0 (State.onKmc s a1) := by
  unfold State.onKmc
  exact Fr.kmc_ h (hX.bit rfl)

theorem State.xferEnd_fr {X : Nat} {s0 : State} {s : State} {a1 : Op} {a2 : ℕ} (h : Fr X s0 s) (hX : Sub 0x1040040000000 X) :
    Fr X s0 (State.xferEnd s a1 a2) := by
  unfold State.xferEnd
  repeat' first
    | with_reducible assumption
    | ((with_reducible apply hX.after); exact rfl)
    | with_reducible apply State.endOp_fr
    | with_reducible apply State.onKmc_fr
    | with_reducible apply State.blocksDrop_fr

theorem State.stopXfer_fr {X : Nat} {s0 : State} {s : State} {a1 : Op} {a2 : ℕ} (h : Fr X s0 s) (hX : Sub 0x10c0040000000 X) :
    Fr X s0 (State.stopXfer s a1 a2) := by
  unfold State.stopXfer
  repeat' first
    | with_reducible assumption
    | ((with_reducible apply hX.after); exact rfl)
    | with_reducible apply State.setOp_fr
    | with_reducible apply State.finish_fr
    | with_reducible apply State.setLgrp_fr
    | with_reducible apply State.xferEnd_fr
    | (extract_lets +onlyGivenNames x; clear_value x)
    | split

theorem State.xferStart_fr {X : Nat} {s0 : State} {s : State} {a1 : Op} {a2 : Bool} {a3 : State → State} (h : Fr X s0 s) (hf0 : ∀ x0, Fr X s0 x0 → Fr X s0 (a3 x0)) (hX : Sub 0x1040040000000 X) :
    Fr X s0 (State.xferStart s a1 a2 a3) := by
  unfold State.xferStart
  repeat' first
    | with_reducible assumption
    | ((with_reducible apply hX.after); exact rfl)
    | with_reducible apply hf0
    | with_reducible apply State.xferEnd_fr
    | with_reducible apply State.finish_fr
    | (extract_lets +onlyGivenNames x; clear_value x)
    | split

theorem State.checkStart_fr {X : Nat} {s0 : State} {s : State} {a1 : Op} {a2 : Option Bytes} (h : Fr X s0 s) (hX : Sub 0x1040040100000 X) :
    Fr X s0 (State.checkStart s a1 a2) := by
  unfold State.checkStart
  repeat' first
    | with_reducible assumption
    | ((with_reducible apply hX.after); exact rfl)
    | with_reducible apply State.xferStart_fr
    | with_reducible apply State.onKmc_fr
    | with_reducible apply State.bump_fr
    | with_reducible apply State.finish_fr
    | (intro x)
    | split
    | ((with_reducible apply hX.ok); exact rfl)
    | dsimp only

theorem State.segFault_fr_got {X : Nat} {s0 : State} {s : State} {a1 : Op} {a2 : Bytes} {a3 : ℕ} {a4 : ℕ} {a5 : ℕ} {a6 : Bool} (h : Fr X s0 s) (hX : Sub 0x2c000070000000 X) {b} {t : State}
    (ht : State.segFault s a1 a2 a3 a4 a5 a6 = .got b t) : Fr X s0 t := by
  revert ht
  unfold State.segFault
  repeat' first
    | with_reducible assumption
    | ((with_reducible apply hX.after); exact rfl)
    | with_reducible apply State.mmuFault_fr
    | with_reducible apply State.setHold_fr
    | (extract_lets +onlyGivenNames x; (refine Fr.cut (X := X) (s0 := s0) (s := x) ?_ (fun hx => ?_); (on_goal 2 => clear_value x); (on_goal 1 => (unfold x; clear x))))
    | split
    | (refine fun (ht : _ = _) => ?_; first | (cases ht; done) | cases ht | (revert ht; split) | skip)

theorem State.segFault_fr_stop {X : Nat} {s0 : State} {s : State} {a1 : Op} {a2 : Bytes} {a3 : ℕ} {a4 : ℕ} {a5 : ℕ} {a6 : Bool} (h : Fr X s0 s) (hX : Sub 0x2c000070000000 X) {b c} {t : State}
    (ht : State.segFault s a1 a2 a3 a4 a5 a6 = .stop b c t) : Fr X s0 t := by
  revert ht
  unfold State.segFault
  repeat' first
    | with_reducible assumption
    | ((with_reducible apply hX.after); exact rfl)
    | with_reducible apply State.mmuFault_fr
    | with_reducible apply State.setHold_fr
    | (extract_lets +onlyGivenNames x; (refine Fr.cut (X := X) (s0 := s0) (s := x) ?_ (fun hx => ?_); (on_goal 2 => clear_value x); (on_goal 1 => (unfold x; clear x))))
    | split
    | (refine fun (ht : _ = _) => ?_; first | (cases ht; done) | cases ht | (revert ht; split) | skip)

theorem State.segAts_fr_got {X : Nat} {s0 : State} {s : State} {a1 : Op} {a2 : Bool} {a3 : ℕ} {a4 : Bool} (h : Fr X s0 s) (hX : Sub 0x8000040000000 X) {b} {t : State}
    (ht : State.segAts s a1 a2 a3 a4 = .got b t) : Fr X s0 t := by
  revert ht
  unfold State.segAts
  repeat' first
    | with_reducible assumption
    | with_reducible apply State.pageRequest_fr
    | split
    | (refine fun (ht : _ = _) => ?_; first | (cases ht; done) | cases ht | (revert ht; split) | skip)

theorem State.segAts_fr_stop {X : Nat} {s0 : State} {s : State} {a1 : Op} {a2 : Bool} {a3 : ℕ} {a4 : Bool} (h : Fr X s0 s) (hX : Sub 0x8000040000000 X) {b c} {t : State}
    (ht : State.segAts s a1 a2 a3 a4 = .stop b c t) : Fr X s0 t := by
  revert ht
  unfold State.segAts
  repeat' first
    | with_reducible assumption
    | with_reducible apply State.pageRequest_fr
    | split
    | (refine fun (ht : _ = _) => ?_; first | (cases ht; done) | cases ht | (revert ht; split) | skip)

theorem State.segRead_fr_got {X : Nat} {s0 : State} {s : State} {a1 : Op} {a2 : ℕ} {a3 : ℕ} {a4 : HostAccess} {a5 : MemRead} (h : Fr X s0 s) (hX : Sub 0x2c100170000010 X) {b} {t : State}
    (ht : State.segRead s a1 a2 a3 a4 a5 = .got b t) : Fr X s0 t := by
  revert ht
  unfold State.segRead
  repeat' first
    | with_reducible assumption
    | ((with_reducible apply hX.after); exact rfl)
    | with_reducible apply State.atsFill_fr
    | with_reducible refine State.segAts_fr_got ?_ ?_ (by assumption)
    | with_reducible refine State.segAts_fr_stop ?_ ?_ (by assumption)
    | with_reducible refine State.segFault_fr_got ?_ ?_ (by assumption)
    | with_reducible refine State.segFault_fr_stop ?_ ?_ (by assumption)
    | with_reducible apply State.dvaGet_fr
    | with_reducible refine Fr.of_snd (by assumption) ?_
    | (extract_lets +onlyGivenNames x; clear_value x)
    | split
    | (refine fun (ht : _ = _) => ?_; first | (cases ht; done) | cases ht | (revert ht; split) | skip)

theorem State.segRead_fr_stop {X : Nat} {s0 : State} {s : State} {a1 : Op} {a2 : ℕ} {a3 : ℕ} {a4 : HostAccess} {a5 : MemRead} (h : Fr X s0 s) (hX : Sub 0x2c100170000010 X) {b c} {t : State}
    (ht : State.segRead s a1 a2 a3 a4 a5 = .stop b c t) : Fr X s0 t := by
  revert ht
  unfold State.segRead
  repeat' first
    | with_reducible assumption
    | ((with_reducible apply hX.after); exact rfl)
    | with_reducible apply State.atsFill_fr
    | with_reducible refine State.segAts_fr_got ?_ ?_ (by assumption)
    | with_reducible refine State.segAts_fr_stop ?_ ?_ (by assumption)
    | with_reducible refine State.segFault_fr_got ?_ ?_ (by assumption)
    | with_reducible refine State.segFault_fr_stop ?_ ?_ (by assumption)
    | with_reducible apply State.dvaGet_fr
    | with_reducible refine Fr.of_snd (by assumption) ?_
    | (extract_lets +onlyGivenNames x; clear_value x)
    | split
    | (refine fun (ht : _ = _) => ?_; first | (cases ht; done) | cases ht | (revert ht; split) | skip)

theorem State.segWrite_fr_got {X : Nat} {s0 : State} {s : State} {a1 : Op} {a2 : Bool} {a3 : ℕ} {a4 : Bytes} {a5 : HostAccess} (h : Fr X s0 s) (hX : Sub 0x3c000170000000 X) {b} {t : State}
    (ht : State.segWrite s a1 a2 a3 a4 a5 = .got b t) : Fr X s0 t := by
  revert ht
  unfold State.segWrite
  repeat' first
    | with_reducible assumption
    | ((with_reducible apply hX.after); exact rfl)
    | with_reducible apply State.emit_fr
    | with_reducible apply State.atsFill_fr
    | with_reducible refine State.segAts_fr_got ?_ ?_ (by assumption)
    | with_reducible refine State.segAts_fr_stop ?_ ?_ (by assumption)
    | with_reducible refine State.segFault_fr_got ?_ ?_ (by assumption)
    | with_reducible refine State.segFault_fr_stop ?_ ?_ (by assumption)
    | with_reducible apply State.dvaWrite_fr
    | (extract_lets +onlyGivenNames x; clear_value x)
    | split
    | (refine fun (ht : _ = _) => ?_; first | (cases ht; done) | cases ht | (revert ht; split) | skip)

theorem State.segWrite_fr_stop {X : Nat} {s0 : State} {s : State} {a1 : Op} {a2 : Bool} {a3 : ℕ} {a4 : Bytes} {a5 : HostAccess} (h : Fr X s0 s) (hX : Sub 0x3c000170000000 X) {b c} {t : State}
    (ht : State.segWrite s a1 a2 a3 a4 a5 = .stop b c t) : Fr X s0 t := by
  revert ht
  unfold State.segWrite
  repeat' first
    | with_reducible assumption
    | ((with_reducible apply hX.after); exact rfl)
    | with_reducible apply State.emit_fr
    | with_reducible apply State.atsFill_fr
    | with_reducible refine State.segAts_fr_got ?_ ?_ (by assumption)
    | with_reducible refine State.segAts_fr_stop ?_ ?_ (by assumption)
    | with_reducible refine State.segFault_fr_got ?_ ?_ (by assumption)
    | with_reducible refine State.segFault_fr_stop ?_ ?_ (by assumption)
    | with_reducible apply State.dvaWrite_fr
    | (extract_lets +onlyGivenNames x; clear_value x)
    | split
    | (refine fun (ht : _ = _) => ?_; first | (cases ht; done) | cases ht | (revert ht; split) | skip)

theorem State.segPart_fr {X : Nat} {s0 : State} {s : State} {a1 : Op} {a2 : ℕ} {a3 : Bytes} (h : Fr X s0 s) (hX : Sub 0x1c000100000000 X) :
    Fr X s0 (State.segPart s a1 a2 a3) := by
  unfold State.segPart
  repeat' first
    | with_reducible assumption
    | ((with_reducible apply hX.after); exact rfl)
    | with_reducible apply State.fresh_fr
    | with_reducible apply State.emit_fr
    | with_reducible apply State.dvaWrite_fr
    | with_reducible refine Fr.of_snd (by assumption) ?_
    | (extract_lets +onlyGivenNames x; clear_value x)
    | split

theorem State.segDone_fr {X : Nat} {s0 : State} {s : State} {a1 : Op} (h : Fr X s0 s) (hX : Sub 0x1040040000000 X) :
    Fr X s0 (State.segDone s a1) := by
  unfold State.segDone
  repeat' first
    | with_reducible assumption
    | ((with_reducible apply hX.after); exact rfl)
    | with_reducible apply State.xferEnd_fr
    | with_reducible apply State.setOp_fr
    | (extract_lets +onlyGivenNames x; first
        | (refine Fr.cut (X := X) (s0 := s0) (s := x) ?_ (fun hx => ?_); (on_goal 2 => clear_value x); (on_goal 1 => (unfold x; clear x)))
        | clear_value x)
    | split

theorem State.segStop_fr {X : Nat} {s0 : State} {s : State} {a1 : Op} {a2 : Option ℕ} (h : Fr X s0 s) (hX : Sub 0x1040040000000 X) :
    Fr X s0 (State.segStop s a1 a2) := by
  unfold State.segStop
  repeat' first
    | with_reducible assumption
    | with_reducible apply State.xferEnd_fr
    | split

theorem State.segCopy_fr {X : Nat} {s0 : State} {s : State} {a1 : Op} {a2 : HostAccess} {a3 : HostAccess} {a4 : MemRead} (h : Fr X s0 s) (hX : Sub 0x3d140170000010 X) :
    Fr X s0 (State.segCopy s a1 a2 a3 a4) := by
  unfold State.segCopy
  repeat' first
    | with_reducible assumption
    | ((with_reducible apply hX.after); exact rfl)
    | with_reducible refine State.segRead_fr_got ?_ ?_ (by assumption)
    | with_reducible refine State.segRead_fr_stop ?_ ?_ (by assumption)
    | with_reducible apply State.segStop_fr
    | with_reducible apply State.segPart_fr
    | with_reducible refine State.segWrite_fr_got ?_ ?_ (by assumption)
    | with_reducible refine State.segWrite_fr_stop ?_ ?_ (by assumption)
    | with_reducible apply State.segDone_fr
    | (extract_lets +onlyGivenNames x; clear_value x)
    | split

theorem State.segExpand_fr {X : Nat} {s0 : State} {s : State} {a1 : Op} {a2 : HostAccess} (h : Fr X s0 s) (hX : Sub 0x3d040170000000 X) :
    Fr X s0 (State.segExpand s a1 a2) := by
  unfold State.segExpand
  repeat' first
    | with_reducible assumption
    | ((with_reducible apply hX.after); exact rfl)
    | with_reducible refine State.segWrite_fr_got ?_ ?_ (by assumption)
    | with_reducible refine State.segWrite_fr_stop ?_ ?_ (by assumption)
    | with_reducible apply State.segStop_fr
    | with_reducible apply State.segPart_fr
    | with_reducible apply State.blocksDrop_fr
    | with_reducible apply State.segDone_fr
    | (extract_lets +onlyGivenNames x; clear_value x)
    | split

theorem State.segCheck_fr {X : Nat} {s0 : State} {s : State} {a1 : Op} {a2 : HostAccess} {a3 : HostAccess} {a4 : MemRead} (h : Fr X s0 s) (hX : Sub 0x3d140170000010 X) :
    Fr X s0 (State.segCheck s a1 a2 a3 a4) := by
  unfold State.segCheck
  repeat' first
    | with_reducible assumption
    | ((with_reducible apply hX.after); exact rfl)
    | with_reducible refine State.segRead_fr_got ?_ ?_ (by assumption)
    | with_reducible refine State.segRead_fr_stop ?_ ?_ (by assumption)
    | with_reducible apply State.segStop_fr
    | with_reducible apply State.segDone_fr
    | with_reducible apply State.onKmc_fr
    | with_reducible apply State.freshBytes_fr
    | with_reducible refine State.segWrite_fr_got ?_ ?_ (by assumption)
    | with_reducible refine State.segWrite_fr_stop ?_ ?_ (by assumption)
    | with_reducible refine Fr.of_snd (by assumption) ?_
    | (intro x)
    | (extract_lets +onlyGivenNames x; first
        | (refine Fr.cut_fn2 (X := X) (s0 := s0) (f := x) ?_ (fun hx => ?_); (on_goal 2 => clear_value x); (on_goal 1 => (unfold x; clear x)))
        | clear_value x)
    | split
    | with_reducible apply_assumption -exfalso -symm

theorem State.segmentCommit_fr {X : Nat} {s0 : State} {s : State} {a1 : OpKey} {a2 : HostAccess} {a3 : HostAccess} {a4 : MemRead} (h : Fr X s0 s) (hX : Sub 0x3d140170000010 X) :
    Fr X s0 (State.segmentCommit s a1 a2 a3 a4) := by
  unfold State.segmentCommit
  repeat' first
    | with_reducible assumption
    | ((with_reducible apply hX.after); exact rfl)
    | with_reducible apply State.segCopy_fr
    | with_reducible apply State.segExpand_fr
    | with_reducible apply State.segCheck_fr
    | split

theorem execXferCopy_fr {X : Nat} {s0 : State} {a0 : OpKey} {s : State} (h : Fr X s0 s) (hX : Sub 0x1040040000000 X) {t : State}
    (ht : execXferCopy a0 s = .next t) : Fr X s0 t := by
  unfold execXferCopy at ht
  obtain rfl := Host.Outcome.next.inj ht
  repeat' first
    | with_reducible assumption
    | ((with_reducible apply hX.after); exact rfl)
    | with_reducible apply State.start_fr
    | with_reducible apply State.xferStart_fr
    | (intro x)

theorem execXferExpand_fr {X : Nat} {s0 : State} {a0 : OpKey} {s : State} (h : Fr X s0 s) (hX : Sub 0x1040040000000 X) {t : State}
    (ht : execXferExpand a0 s = .next t) : Fr X s0 t := by
  unfold execXferExpand at ht
  obtain rfl := Host.Outcome.next.inj ht
  repeat' first
    | with_reducible assumption
    | ((with_reducible apply hX.after); exact rfl)
    | with_reducible apply State.start_fr
    | with_reducible apply State.xferStart_fr
    | (intro x)

theorem execXferCheck_fr {X : Nat} {s0 : State} {a0 : OpKey} {a1 : Option Bytes} {s : State} (h : Fr X s0 s) (hX : Sub 0x1040040100000 X) {t : State}
    (ht : execXferCheck a0 a1 s = .next t) : Fr X s0 t := by
  unfold execXferCheck at ht
  obtain rfl := Host.Outcome.next.inj ht
  repeat' first
    | with_reducible assumption
    | ((with_reducible apply hX.after); exact rfl)
    | with_reducible apply State.start_fr
    | with_reducible apply State.checkStart_fr
    | (intro x)

theorem execSegmentCommit_fr {X : Nat} {s0 : State} {a0 : OpKey} {a1 : HostAccess} {a2 : HostAccess} {a3 : MemRead} {s : State} (h : Fr X s0 s) (hX : Sub 0x3d140170000010 X) {t : State}
    (ht : execSegmentCommit a0 a1 a2 a3 s = .next t) : Fr X s0 t := by
  unfold execSegmentCommit at ht
  obtain rfl := Host.Outcome.next.inj ht
  repeat' first
    | with_reducible assumption
    | ((with_reducible apply hX.after); exact rfl)
    | with_reducible apply State.inCore_fr
    | with_reducible apply State.segmentCommit_fr
    | (intro x)

theorem State.onFltState_fr {X : Nat} {s0 : State} {s : State} {a1 : FltState → FltState} (h : Fr X s0 s) (hX : Sub 0x100000000000 X) :
    Fr X s0 (State.onFltState s a1) := by
  unfold State.onFltState
  exact Fr.flt_ h (hX.bit rfl)

theorem State.cleanSlate_fr {X : Nat} {s0 : State} {s : State} {a1 : ℕ} (h : Fr X s0 s) (hX : Sub 0x3dcfd970000ec0 X) :
    Fr X s0 (State.cleanSlate s a1) := by
  unfold State.cleanSlate
  repeat' first
    | with_reducible assumption
    | ((with_reducible apply hX.after); exact rfl)
    | with_reducible apply State.dropRig_fr
    | with_reducible apply State.outerRestart_fr
    | with_reducible apply State.stopXfer_fr
    | with_reducible apply State.setTctx_fr
    | with_reducible apply State.fresh_fr
    | with_reducible apply State.planEnd_fr
    | with_reducible apply State.setGrpState_fr
    | with_reducible apply State.collEnd_fr
    | with_reducible apply State.ctxFree_fr
    | with_reducible apply Fr.foldl
    | (intro x)
    | (extract_lets +onlyGivenNames x; clear_value x)
    | split

theorem State.fencePort_fr {X : Nat} {s0 : State} {s : State} {a1 : ℕ} (h : Fr X s0 s) (hX : Sub 0x100000000000 X) :
    Fr X s0 (State.fencePort s a1) := by
  unfold State.fencePort
  repeat' first
    | with_reducible assumption
    | with_reducible apply State.onFltState_fr

theorem State.unfencePort_fr {X : Nat} {s0 : State} {s : State} {a1 : ℕ} (h : Fr X s0 s) (hX : Sub 0x100000000000 X) :
    Fr X s0 (State.unfencePort s a1) := by
  unfold State.unfencePort
  repeat' first
    | with_reducible assumption
    | with_reducible apply State.onFltState_fr

theorem State.restartJob_fr {X : Nat} {s0 : State} {s : State} {a1 : ℕ} {a2 : Decision} (h : Fr X s0 s) (hX : Sub 0x3ddfd972000ec0 X) :
    Fr X s0 (State.restartJob s a1 a2) := by
  unfold State.restartJob
  repeat' first
    | with_reducible assumption
    | ((with_reducible apply hX.after); exact rfl)
    | with_reducible apply State.cleanSlate_fr
    | with_reducible apply State.raiseDecision_fr
    | with_reducible apply State.fltCount_fr
    | with_reducible apply State.setFltGroup_fr

theorem State.applyDecision_fr {X : Nat} {s0 : State} {s : State} {a1 : ℕ} {a2 : Decision} (h : Fr X s0 s) (hX : Sub 0x3ddfd972000ec0 X) :
    Fr X s0 (State.applyDecision s a1 a2) := by
  unfold State.applyDecision
  repeat' first
    | with_reducible assumption
    | ((with_reducible apply hX.after); exact rfl)
    | with_reducible apply State.restartJob_fr
    | with_reducible apply State.fltCount_fr
    | with_reducible apply State.fencePort_fr
    | with_reducible apply State.onMember_fr
    | with_reducible apply State.onFlt_fr
    | with_reducible apply State.onFltState_fr
    | with_reducible apply State.raiseDecision_fr
    | with_reducible apply State.unfencePort_fr
    | with_reducible apply State.finish_fr
    | with_reducible apply Fr.foldl
    | (intro x)
    | (extract_lets +onlyGivenNames x; first
        | (refine Fr.cut (X := X) (s0 := s0) (s := x) ?_ (fun hx => ?_); (on_goal 2 => clear_value x); (on_goal 1 => (unfold x; clear x)))
        | clear_value x)
    | split

theorem State.sendDecide_fr {X : Nat} {s0 : State} {s : State} {a1 : ℕ} {a2 : ℕ} {a3 : Decision} (h : Fr X s0 s) (hX : Sub 0x2c0058700000c0 X) :
    Fr X s0 (State.sendDecide s a1 a2 a3) := by
  unfold State.sendDecide
  repeat' first
    | with_reducible assumption
    | with_reducible apply State.fltSend_fr

theorem State.spreadDone_fr {X : Nat} {s0 : State} {s : State} {a1 : ℕ} {a2 : Decision} (h : Fr X s0 s) (hX : Sub 0x2c1058700000c0 X) :
    Fr X s0 (State.spreadDone s a1 a2) := by
  unfold State.spreadDone
  repeat' first
    | with_reducible assumption
    | ((with_reducible apply hX.after); exact rfl)
    | with_reducible apply State.fltTell_fr
    | with_reducible apply State.onFlt_fr
    | (extract_lets +onlyGivenNames x; (refine Fr.cut (X := X) (s0 := s0) (s := x) ?_ (fun hx => ?_); (on_goal 2 => clear_value x); (on_goal 1 => (unfold x; clear x))))
    | split

theorem State.spread_fr {X : Nat} {s0 : State} {s : State} {a1 : ℕ} {a2 : Decision} {a3 : Option ℕ} (h : Fr X s0 s) (hX : Sub 0x3ddfd972000ec0 X) :
    Fr X s0 (State.spread s a1 a2 a3) := by
  unfold State.spread
  repeat' first
    | with_reducible assumption
    | ((with_reducible apply hX.after); exact rfl)
    | with_reducible apply State.spreadDone_fr
    | with_reducible apply State.sendDecide_fr
    | with_reducible apply State.onFlt_fr
    | with_reducible apply State.applyDecision_fr
    | with_reducible apply Fr.foldl
    | (intro x)

theorem State.decideOn_fr {X : Nat} {s0 : State} {s : State} {a1 : ℕ} {a2 : ℕ} {a3 : ℕ} {a4 : Bool} {a5 : ℕ} (h : Fr X s0 s) (hX : Sub 0x3ddfd972000ec0 X) :
    Fr X s0 (State.decideOn s a1 a2 a3 a4 a5) := by
  unfold State.decideOn
  repeat' first
    | with_reducible assumption
    | ((with_reducible apply hX.after); exact rfl)
    | with_reducible apply State.spread_fr
    | with_reducible apply State.fltCount_fr
    | with_reducible apply State.onFlt_fr

theorem State.voteWon_fr {X : Nat} {s0 : State} {s : State} {a1 : ℕ} {a2 : VoteRun} (h : Fr X s0 s) (hX : Sub 0x3ddfd972000ec0 X) :
    Fr X s0 (State.voteWon s a1 a2) := by
  unfold State.voteWon
  repeat' first
    | with_reducible assumption
    | ((with_reducible apply hX.after); exact rfl)
    | with_reducible apply State.decideOn_fr
    | with_reducible apply State.onFlt_fr
    | (extract_lets +onlyGivenNames x; first
        | (refine Fr.cut (X := X) (s0 := s0) (s := x) ?_ (fun hx => ?_); (on_goal 2 => clear_value x); (on_goal 1 => (unfold x; clear x)))
        | clear_value x)
    | split

theorem State.hearBallot_fr {X : Nat} {s0 : State} {s : State} {a1 : ℕ} {a2 : ℕ} {a3 : ℕ} {a4 : Bool} (h : Fr X s0 s) (hX : Sub 0x3ddfd972000ec0 X) :
    Fr X s0 (State.hearBallot s a1 a2 a3 a4) := by
  unfold State.hearBallot
  repeat' first
    | with_reducible assumption
    | ((with_reducible apply hX.after); exact rfl)
    | with_reducible apply State.voteWon_fr
    | with_reducible apply State.onFlt_fr
    | split
    | dsimp only

theorem State.answer_fr {X : Nat} {s0 : State} {s : State} {a1 : ℕ} {a2 : Ballot} {a3 : Bool} (h : Fr X s0 s) (hX : Sub 0x3ddfd972000ec0 X) :
    Fr X s0 (State.answer s a1 a2 a3) := by
  unfold State.answer
  repeat' first
    | with_reducible assumption
    | ((with_reducible apply hX.after); exact rfl)
    | with_reducible apply State.hearBallot_fr
    | with_reducible apply State.onMember_fr
    | with_reducible apply State.onFlt_fr
    | with_reducible apply State.fltTell_fr
    | (extract_lets +onlyGivenNames x; (refine Fr.cut (X := X) (s0 := s0) (s := x) ?_ (fun hx => ?_); (on_goal 2 => clear_value x); (on_goal 1 => (unfold x; clear x))))
    | split

theorem State.ballotIn_fr {X : Nat} {s0 : State} {s : State} {a1 : ℕ} {a2 : Ballot} (h : Fr X s0 s) (hX : Sub 0x3ddfd972000ec0 X) :
    Fr X s0 (State.ballotIn s a1 a2) := by
  unfold State.ballotIn
  repeat' first
    | with_reducible assumption
    | ((with_reducible apply hX.after); exact rfl)
    | with_reducible apply State.answer_fr
    | with_reducible apply State.onFlt_fr
    | split

theorem State.ballotsLook_fr {X : Nat} {s0 : State} {s : State} (h : Fr X s0 s) (hX : Sub 0x3ddfd972000ec0 X) :
    Fr X s0 (State.ballotsLook s) := by
  unfold State.ballotsLook
  repeat' first
    | with_reducible assumption
    | with_reducible apply State.answer_fr
    | with_reducible apply Fr.foldl
    | (intro x)
    | split

theorem State.startVote_fr {X : Nat} {s0 : State} {s : State} {a1 : ℕ} {a2 : Proposal} (h : Fr X s0 s) (hX : Sub 0x3ddfd972000ec0 X) :
    Fr X s0 (State.startVote s a1 a2) := by
  unfold State.startVote
  repeat' first
    | with_reducible assumption
    | ((with_reducible apply hX.after); exact rfl)
    | with_reducible apply State.ballotIn_fr
    | with_reducible apply State.fltTellAll_fr
    | with_reducible apply State.fltCount_fr
    | with_reducible apply State.setFltGroup_fr
    | (extract_lets +onlyGivenNames x; first
        | (refine Fr.cut (X := X) (s0 := s0) (s := x) ?_ (fun hx => ?_); (on_goal 2 => clear_value x); (on_goal 1 => (unfold x; clear x)))
        | clear_value x)
    | split

theorem State.healthPassed_fr {X : Nat} {s0 : State} {s : State} {a1 : ℕ} {a2 : Proposal} (h : Fr X s0 s) (hX : Sub 0x3ddfd972000ec0 X) :
    Fr X s0 (State.healthPassed s a1 a2) := by
  unfold State.healthPassed
  repeat' first
    | with_reducible assumption
    | with_reducible apply State.decideOn_fr
    | with_reducible apply State.startVote_fr
    | split

theorem State.coordinate_fr {X : Nat} {s0 : State} {s : State} {a1 : ℕ} {a2 : Proposal} (h : Fr X s0 s) (hX : Sub 0x3ddfd972000ec0 X) :
    Fr X s0 (State.coordinate s a1 a2) := by
  unfold State.coordinate
  repeat' first
    | with_reducible assumption
    | ((with_reducible apply hX.after); exact rfl)
    | with_reducible apply State.startVote_fr
    | with_reducible apply State.decideOn_fr
    | with_reducible apply State.onFlt_fr
    | with_reducible apply State.healthPassed_fr
    | (extract_lets +onlyGivenNames x; clear_value x)
    | split

theorem State.holdRelease_fr {X : Nat} {s0 : State} {s : State} {a1 : ℕ} (h : Fr X s0 s) (hX : Sub 0x3ddfd972000ec0 X) :
    Fr X s0 (State.holdRelease s a1) := by
  unfold State.holdRelease
  repeat' first
    | with_reducible assumption
    | ((with_reducible apply hX.after); exact rfl)
    | with_reducible apply State.decideOn_fr
    | with_reducible apply State.healthPassed_fr
    | with_reducible apply State.onFlt_fr
    | with_reducible apply Fr.foldl
    | (intro x)
    | (extract_lets +onlyGivenNames x; first
        | (refine Fr.cut (X := X) (s0 := s0) (s := x) ?_ (fun hx => ?_); (on_goal 2 => clear_value x); (on_goal 1 => (unfold x; clear x)))
        | clear_value x)
    | split

theorem State.suspectTo_fr {X : Nat} {s0 : State} {s : State} {a1 : ℕ} {a2 : ℕ} {a3 : Proposal} (h : Fr X s0 s) (hX : Sub 0x3ddfd972000ec0 X) :
    Fr X s0 (State.suspectTo s a1 a2 a3) := by
  unfold State.suspectTo
  repeat' first
    | with_reducible assumption
    | ((with_reducible apply hX.after); exact rfl)
    | with_reducible apply State.coordinate_fr
    | with_reducible apply State.fltCount_fr
    | with_reducible apply State.fltTell_fr
    | (extract_lets +onlyGivenNames x; (refine Fr.cut (X := X) (s0 := s0) (s := x) ?_ (fun hx => ?_); (on_goal 2 => clear_value x); (on_goal 1 => (unfold x; clear x))))
    | split

theorem State.suspect_fr {X : Nat} {s0 : State} {s : State} {a1 : ℕ} {a2 : Proposal} (h : Fr X s0 s) (hX : Sub 0x3ddfd972000ec0 X) :
    Fr X s0 (State.suspect s a1 a2) := by
  unfold State.suspect
  repeat' first
    | with_reducible assumption
    | with_reducible apply State.suspectTo_fr
    | split

theorem State.suspectSilent_fr {X : Nat} {s0 : State} {s : State} {a1 : ℕ} {a2 : ℕ} {a3 : List ℕ} (h : Fr X s0 s) (hX : Sub 0x3ddfd972000ec0 X) :
    Fr X s0 (State.suspectSilent s a1 a2 a3) := by
  unfold State.suspectSilent
  repeat' first
    | with_reducible assumption
    | ((with_reducible apply hX.after); exact rfl)
    | with_reducible apply State.suspectTo_fr
    | with_reducible apply State.onMember_fr
    | (extract_lets +onlyGivenNames x; clear_value x)
    | split

theorem State.heartbeatMiss_fr {X : Nat} {s0 : State} {s : State} {a1 : ℕ} {a2 : ℕ} (h : Fr X s0 s) (hX : Sub 0x3ddfd972000ec0 X) :
    Fr X s0 (State.heartbeatMiss s a1 a2) := by
  unfold State.heartbeatMiss
  repeat' first
    | with_reducible assumption
    | ((with_reducible apply hX.after); exact rfl)
    | with_reducible apply State.onMember_fr
    | with_reducible apply State.ballotsLook_fr
    | with_reducible apply State.healthAdd_fr
    | with_reducible apply State.fltCount_fr
    | with_reducible apply State.suspectSilent_fr
    | (extract_lets +onlyGivenNames x; first
        | (refine Fr.cut (X := X) (s0 := s0) (s := x) ?_ (fun hx => ?_); (on_goal 2 => clear_value x); (on_goal 1 => (unfold x; clear x)))
        | clear_value x)
    | split

theorem State.suspectRetry_fr {X : Nat} {s0 : State} {s : State} {a1 : ℕ} {a2 : ℕ} (h : Fr X s0 s) (hX : Sub 0x3ddfd972000ec0 X) :
    Fr X s0 (State.suspectRetry s a1 a2) := by
  unfold State.suspectRetry
  repeat' first
    | with_reducible assumption
    | with_reducible apply State.suspectSilent_fr
    | split

theorem State.ctxFailed_fr {X : Nat} {s0 : State} {s : State} {a1 : ℕ} {a2 : Bool} (h : Fr X s0 s) (hX : Sub 0x3ddfd972000ec0 X) :
    Fr X s0 (State.ctxFailed s a1 a2) := by
  unfold State.ctxFailed
  repeat' first
    | with_reducible assumption
    | ((with_reducible apply hX.after); exact rfl)
    | with_reducible apply State.suspect_fr
    | with_reducible apply State.healthAdd_fr
    | with_reducible apply State.collCtxFailed_fr
    | with_reducible apply Fr.foldl
    | (intro x)
    | (extract_lets +onlyGivenNames x; first
        | (refine Fr.cut (X := X) (s0 := s0) (s := x) ?_ (fun hx => ?_); (on_goal 2 => clear_value x); (on_goal 1 => (unfold x; clear x)))
        | clear_value x)
    | split

theorem State.ctxFailing_fr {X : Nat} {s0 u s : State} {n : Nat} {t : Bool} (h : Fr X s0 s)
    (hX : Sub 0x3ddfd972000ec0 X) : Fr X s0 (State.ctxFailing u s n t) := by
  unfold State.ctxFailing
  exact Fr.ite (fun _ => State.ctxFailed_fr h (hX.after rfl)) fun _ => h


theorem State.epochSeen_fr {X : Nat} {s0 : State} {s : State} {a1 : ℕ} {a2 : ℕ} (h : Fr X s0 s) (hX : Sub 0x3ddfd972000ec0 X) :
    Fr X s0 (State.epochSeen s a1 a2) := by
  unfold State.epochSeen
  repeat' first
    | with_reducible assumption
    | ((with_reducible apply hX.after); exact rfl)
    | with_reducible apply State.suspect_fr
    | with_reducible apply State.onFlt_fr
    | (extract_lets +onlyGivenNames x; clear_value x)
    | split

theorem State.fltHear_fr {X : Nat} {s0 : State} {s : State} {a1 : Bytes} {a2 : ℕ} {a3 : State → ℕ → ℕ → Bytes → State} (h : Fr X s0 s) (hf0 : ∀ x0 x1 x2 x3, Fr X s0 x0 → Fr X s0 (a3 x0 x1 x2 x3)) (hX : Sub 0x3ddfd972000ec0 X) :
    Fr X s0 (State.fltHear s a1 a2 a3) := by
  unfold State.fltHear
  repeat' first
    | with_reducible assumption
    | ((with_reducible apply hX.after); exact rfl)
    | with_reducible apply hf0
    | with_reducible apply State.fltCount_fr
    | with_reducible apply State.onMember_fr
    | with_reducible apply State.epochSeen_fr
    | (extract_lets +onlyGivenNames x; clear_value x)
    | split

theorem State.hearHeartbeat_fr {X : Nat} {s0 : State} {s : State} {a1 : ℕ} {a2 : ℕ} {a3 : ℕ} {a4 : Bytes} (h : Fr X s0 s) (hX : Sub 0x100000000000 X) :
    Fr X s0 (State.hearHeartbeat s a1 a2 a3 a4) := by
  unfold State.hearHeartbeat
  repeat' first
    | with_reducible assumption
    | with_reducible apply State.onMember_fr
    | with_reducible apply State.setFltGroup_fr
    | (extract_lets +onlyGivenNames x; first
        | (refine Fr.cut (X := X) (s0 := s0) (s := x) ?_ (fun hx => ?_); (on_goal 2 => clear_value x); (on_goal 1 => (unfold x; clear x)))
        | clear_value x)
    | split

theorem State.hearSuspect_fr {X : Nat} {s0 : State} {s : State} {a1 : ℕ} {a2 : ℕ} {a3 : Bytes} (h : Fr X s0 s) (hX : Sub 0x3ddfd972000ec0 X) :
    Fr X s0 (State.hearSuspect s a1 a2 a3) := by
  unfold State.hearSuspect
  repeat' first
    | with_reducible assumption
    | ((with_reducible apply hX.after); exact rfl)
    | with_reducible apply State.fltCount_fr
    | with_reducible apply State.coordinate_fr
    | (extract_lets +onlyGivenNames x; clear_value x)
    | split

theorem State.hearDecide_fr {X : Nat} {s0 : State} {s : State} {a1 : ℕ} {a2 : Bytes} {a3 : ℕ} {a4 : Bytes} (h : Fr X s0 s) (hX : Sub 0x3ddfd972000ec0 X) :
    Fr X s0 (State.hearDecide s a1 a2 a3 a4) := by
  unfold State.hearDecide
  repeat' first
    | with_reducible assumption
    | ((with_reducible apply hX.after); exact rfl)
    | with_reducible apply State.fltCount_fr
    | with_reducible apply State.onFlt_fr
    | with_reducible apply State.fltTell_fr
    | with_reducible apply State.spread_fr
    | (extract_lets +onlyGivenNames x; clear_value x)
    | split

theorem State.hearAck_fr {X : Nat} {s0 : State} {s : State} {a1 : ℕ} {a2 : ℕ} {a3 : Bytes} (h : Fr X s0 s) (hX : Sub 0x2c1058700000c0 X) :
    Fr X s0 (State.hearAck s a1 a2 a3) := by
  unfold State.hearAck
  repeat' first
    | with_reducible assumption
    | ((with_reducible apply hX.after); exact rfl)
    | with_reducible apply State.spreadDone_fr
    | with_reducible apply State.onFlt_fr
    | (extract_lets +onlyGivenNames x; clear_value x)
    | split

theorem State.decideResend_fr {X : Nat} {s0 : State} {s : State} {a1 : ℕ} {a2 : ℕ} {a3 : ℕ} {a4 : ℕ} (h : Fr X s0 s) (hX : Sub 0x2c1058700000c0 X) :
    Fr X s0 (State.decideResend s a1 a2 a3 a4) := by
  unfold State.decideResend
  repeat' first
    | with_reducible assumption
    | ((with_reducible apply hX.after); exact rfl)
    | with_reducible apply State.sendDecide_fr
    | with_reducible apply State.onFlt_fr
    | with_reducible apply State.spreadDone_fr
    | with_reducible apply Fr.foldl
    | (intro x)
    | (extract_lets +onlyGivenNames x; first
        | (refine Fr.cut (X := X) (s0 := s0) (s := x) ?_ (fun hx => ?_); (on_goal 2 => clear_value x); (on_goal 1 => (unfold x; clear x)))
        | clear_value x)
    | split

theorem State.hearPace_fr {X : Nat} {s0 : State} {s : State} {a1 : ℕ} {a2 : ℕ} {a3 : Bytes} (h : Fr X s0 s) (hX : Sub 0x2c1158720010c0 X) :
    Fr X s0 (State.hearPace s a1 a2 a3) := by
  unfold State.hearPace
  repeat' first
    | with_reducible assumption
    | ((with_reducible apply hX.after); exact rfl)
    | with_reducible apply State.fltCount_fr
    | with_reducible apply State.adopt_fr
    | with_reducible apply State.paceDown_fr
    | with_reducible apply State.onFlt_fr
    | (extract_lets +onlyGivenNames x; first
        | (refine Fr.cut (X := X) (s0 := s0) (s := x) ?_ (fun hx => ?_); (on_goal 2 => clear_value x); (on_goal 1 => (unfold x; clear x)))
        | clear_value x)
    | split

theorem State.hearProbe_fr {X : Nat} {s0 : State} {s : State} {a1 : ℕ} {a2 : ℕ} {a3 : Bytes} (h : Fr X s0 s) (hX : Sub 0x2c1058700000c0 X) :
    Fr X s0 (State.hearProbe s a1 a2 a3) := by
  unfold State.hearProbe
  repeat' first
    | with_reducible assumption
    | ((with_reducible apply hX.after); exact rfl)
    | with_reducible apply State.fltTell_fr
    | with_reducible apply State.onMember_fr
    | split

theorem State.heartbeats_fr {X : Nat} {s0 : State} {s : State} {a1 : ℕ} (h : Fr X s0 s) (hX : Sub 0x2c1058700000c0 X) :
    Fr X s0 (State.heartbeats s a1) := by
  unfold State.heartbeats
  repeat' first
    | with_reducible assumption
    | ((with_reducible apply hX.after); exact rfl)
    | with_reducible apply State.fltTell_fr
    | with_reducible apply State.setFltGroup_fr
    | with_reducible apply Fr.foldl
    | (intro x)
    | (extract_lets +onlyGivenNames x; first
        | (refine Fr.cut (X := X) (s0 := s0) (s := x) ?_ (fun hx => ?_); (on_goal 2 => clear_value x); (on_goal 1 => (unfold x; clear x)))
        | clear_value x)
    | split

theorem State.quietDone_fr {X : Nat} {s0 : State} {s : State} {a1 : ℕ} (h : Fr X s0 s) (hX : Sub 0x2c100070000000 X) :
    Fr X s0 (State.quietDone s a1) := by
  unfold State.quietDone
  repeat' first
    | with_reducible assumption
    | ((with_reducible apply hX.after); exact rfl)
    | with_reducible apply State.raise_fr
    | with_reducible apply State.setFltGroup_fr
    | split
    | dsimp only

theorem State.probe_fr {X : Nat} {s0 : State} {s : State} {a1 : ℕ} (h : Fr X s0 s) (hX : Sub 0x2c1058700000c0 X) :
    Fr X s0 (State.probe s a1) := by
  unfold State.probe
  repeat' first
    | with_reducible assumption
    | ((with_reducible apply hX.after); exact rfl)
    | with_reducible apply State.fltTellAll_fr
    | with_reducible apply State.setFltGroup_fr
    | (extract_lets +onlyGivenNames x; clear_value x)
    | split

theorem State.probationEnd_fr {X : Nat} {s0 : State} {s : State} {a1 : ℕ} (h : Fr X s0 s) (hX : Sub 0x3ddfd972000ec0 X) :
    Fr X s0 (State.probationEnd s a1) := by
  unfold State.probationEnd
  repeat' first
    | with_reducible assumption
    | ((with_reducible apply hX.after); exact rfl)
    | with_reducible apply State.suspect_fr
    | with_reducible apply State.setFltGroup_fr
    | (extract_lets +onlyGivenNames x; clear_value x)
    | split

theorem State.probationFailed_fr {X : Nat} {s0 : State} {s : State} {a1 : ℕ} (h : Fr X s0 s) (hX : Sub 0x100040000000 X) :
    Fr X s0 (State.probationFailed s a1) := by
  unfold State.probationFailed
  repeat' first
    | with_reducible assumption
    | ((with_reducible apply hX.after); exact rfl)
    | with_reducible apply State.finish_fr
    | with_reducible apply State.setFltGroup_fr
    | (extract_lets +onlyGivenNames x; first
        | (refine Fr.cut (X := X) (s0 := s0) (s := x) ?_ (fun hx => ?_); (on_goal 2 => clear_value x); (on_goal 1 => (unfold x; clear x)))
        | clear_value x)
    | split

theorem State.fltProbation_fr {X : Nat} {s0 : State} {s : State} {a1 : Op} (h : Fr X s0 s) (hX : Sub 0x100040000000 X) :
    Fr X s0 (State.fltProbation s a1) := by
  unfold State.fltProbation
  repeat' first
    | with_reducible assumption
    | ((with_reducible apply hX.after); exact rfl)
    | with_reducible apply State.finish_fr
    | with_reducible apply State.setFltGroup_fr
    | (extract_lets +onlyGivenNames x; clear_value x)
    | split

theorem State.suspectHealth_fr {X : Nat} {s0 s : State} {k : Subject} {score : Nat} (h : Fr X s0 s)
    (hX : Sub 0x3ddfd972000ec0 X) : Fr X s0 (State.suspectHealth s k score) := by
  have send : ∀ (s : State) slot d, Fr X s0 s → Fr X s0 (s.suspect slot d) := fun s slot d hs =>
    State.suspect_fr hs (hX.after rfl)
  cases k with
  | member slot m => exact Fr.ite (fun _ => send _ _ _ h) fun _ => h
  | port p => exact Fr.foldl h fun s slot hs => send _ _ _ hs
  | self => exact Fr.foldl h fun s slot hs => send _ _ _ hs


theorem State.healthTick_fr {X : Nat} {s0 : State} {s : State} {a1 : Subject} (h : Fr X s0 s) (hX : Sub 0x3ddfd972000ec0 X) :
    Fr X s0 (State.healthTick s a1) := by
  unfold State.healthTick
  repeat' first
    | with_reducible assumption
    | ((with_reducible apply hX.after); exact rfl)
    | with_reducible apply State.suspectHealth_fr
    | with_reducible apply State.setHealth_fr
    | (extract_lets +onlyGivenNames x; first
        | (refine Fr.cut (X := X) (s0 := s0) (s := x) ?_ (fun hx => ?_); (on_goal 2 => clear_value x); (on_goal 1 => (unfold x; clear x)))
        | clear_value x)
    | split

theorem State.probationTick_fr {X : Nat} {s0 : State} {s : State} (h : Fr X s0 s) (hX : Sub 0x100000000000 X) :
    Fr X s0 (State.probationTick s) := by
  unfold State.probationTick
  repeat' first
    | with_reducible assumption
    | with_reducible apply State.onMember_fr
    | with_reducible apply Fr.foldl
    | (intro x)

theorem State.linkReturns_fr {X : Nat} {s0 : State} {s : State} (h : Fr X s0 s) (hX : Sub 0x3ddfd972000ec0 X) :
    Fr X s0 (State.linkReturns s) := by
  unfold State.linkReturns
  repeat' first
    | with_reducible assumption
    | ((with_reducible apply hX.after); exact rfl)
    | with_reducible apply State.decideOn_fr
    | with_reducible apply State.onFltState_fr
    | with_reducible apply Fr.foldl
    | (intro x)
    | (extract_lets +onlyGivenNames x; clear_value x)
    | split

theorem State.stallWeights_fr {X : Nat} {s0 : State} {s : State} (h : Fr X s0 s) (hX : Sub 0x100000000000 X) :
    Fr X s0 (State.stallWeights s) := by
  unfold State.stallWeights
  repeat' first
    | with_reducible assumption
    | with_reducible apply State.onFltState_fr
    | with_reducible apply State.healthAdd_fr
    | with_reducible apply Fr.foldl
    | (intro x)

theorem State.healthUpdate_fr {X : Nat} {s0 : State} {s : State} (h : Fr X s0 s) (hX : Sub 0x3ddfd972000ec0 X) :
    Fr X s0 (State.healthUpdate s) := by
  unfold State.healthUpdate
  repeat' first
    | with_reducible assumption
    | ((with_reducible apply hX.after); exact rfl)
    | with_reducible apply State.ballotsLook_fr
    | with_reducible apply State.linkReturns_fr
    | with_reducible apply State.onFltState_fr
    | with_reducible apply State.probationTick_fr
    | with_reducible apply State.healthTick_fr
    | with_reducible apply State.stallWeights_fr
    | with_reducible apply Fr.foldl
    | (intro x)

theorem execFltProbation_fr {X : Nat} {s0 : State} {a0 : OpKey} {s : State} (h : Fr X s0 s) (hX : Sub 0x100040000000 X) {t : State}
    (ht : execFltProbation a0 s = .next t) : Fr X s0 t := by
  unfold execFltProbation at ht
  obtain rfl := Host.Outcome.next.inj ht
  repeat' first
    | with_reducible assumption
    | ((with_reducible apply hX.after); exact rfl)
    | with_reducible apply State.mgmtPF_fr
    | with_reducible apply State.fltProbation_fr
    | (intro x)

theorem execHeartbeatSend_fr {X : Nat} {s0 : State} {a0 : ℕ} {s : State} (h : Fr X s0 s) (hX : Sub 0x3c10d970000cc0 X) {t : State}
    (ht : execHeartbeatSend a0 s = .next t) : Fr X s0 t := by
  unfold execHeartbeatSend at ht
  obtain rfl := Host.Outcome.next.inj ht
  repeat' first
    | with_reducible assumption
    | ((with_reducible apply hX.after); exact rfl)
    | with_reducible apply State.inPool_fr
    | with_reducible apply State.heartbeats_fr
    | (intro x)

theorem execJuwesyHeartbeat_fr {X : Nat} {s0 : State} {a0 : Bytes} {a1 : Bytes} {s : State} (h : Fr X s0 s) (hX : Sub 0x3ddfd972000ec0 X) {t : State}
    (ht : execJuwesyHeartbeat a0 a1 s = .next t) : Fr X s0 t := by
  unfold execJuwesyHeartbeat at ht
  obtain rfl := Host.Outcome.next.inj ht
  repeat' first
    | with_reducible assumption
    | ((with_reducible apply hX.after); exact rfl)
    | with_reducible apply State.inPool_fr
    | with_reducible apply State.fltHear_fr
    | with_reducible apply State.hearHeartbeat_fr
    | (intro x)

theorem execHeartbeatMiss_fr {X : Nat} {s0 : State} {a0 : ℕ} {a1 : ℕ} {s : State} (h : Fr X s0 s) (hX : Sub 0x3ddfd972000ec0 X) {t : State}
    (ht : execHeartbeatMiss a0 a1 s = .next t) : Fr X s0 t := by
  unfold execHeartbeatMiss at ht
  obtain rfl := Host.Outcome.next.inj ht
  repeat' first
    | with_reducible assumption
    | ((with_reducible apply hX.after); exact rfl)
    | with_reducible apply State.inPool_fr
    | with_reducible apply State.heartbeatMiss_fr
    | (intro x)

theorem execSuspectRetry_fr {X : Nat} {s0 : State} {a0 : ℕ} {a1 : ℕ} {s : State} (h : Fr X s0 s) (hX : Sub 0x3ddfd972000ec0 X) {t : State}
    (ht : execSuspectRetry a0 a1 s = .next t) : Fr X s0 t := by
  unfold execSuspectRetry at ht
  obtain rfl := Host.Outcome.next.inj ht
  repeat' first
    | with_reducible assumption
    | ((with_reducible apply hX.after); exact rfl)
    | with_reducible apply State.inPool_fr
    | with_reducible apply State.suspectRetry_fr
    | (intro x)

theorem execJuwesySuspect_fr {X : Nat} {s0 : State} {a0 : Bytes} {a1 : Bytes} {s : State} (h : Fr X s0 s) (hX : Sub 0x3ddfd972000ec0 X) {t : State}
    (ht : execJuwesySuspect a0 a1 s = .next t) : Fr X s0 t := by
  unfold execJuwesySuspect at ht
  obtain rfl := Host.Outcome.next.inj ht
  repeat' first
    | with_reducible assumption
    | ((with_reducible apply hX.after); exact rfl)
    | with_reducible apply State.inPool_fr
    | with_reducible apply State.fltHear_fr
    | with_reducible apply State.hearSuspect_fr
    | (intro x)

theorem execJuwesyVoteReq_fr {X : Nat} {s0 : State} {a0 : Bytes} {a1 : Bytes} {s : State} (h : Fr X s0 s) (hX : Sub 0x3ddfd972000ec0 X) {t : State}
    (ht : execJuwesyVoteReq a0 a1 s = .next t) : Fr X s0 t := by
  unfold execJuwesyVoteReq at ht
  obtain rfl := Host.Outcome.next.inj ht
  repeat' first
    | with_reducible assumption
    | ((with_reducible apply hX.after); exact rfl)
    | with_reducible apply State.inPool_fr
    | with_reducible apply State.fltHear_fr
    | with_reducible apply State.fltCount_fr
    | with_reducible apply State.ballotIn_fr
    | (intro x)
    | split

theorem execVoteAnswerTimeout_fr {X : Nat} {s0 : State} {a0 : ℕ} {a1 : ℕ} {a2 : ℕ} {s : State} (h : Fr X s0 s) (hX : Sub 0x3ddfd972000ec0 X) {t : State}
    (ht : execVoteAnswerTimeout a0 a1 a2 s = .next t) : Fr X s0 t := by
  unfold execVoteAnswerTimeout at ht
  obtain rfl := Host.Outcome.next.inj ht
  repeat' first
    | with_reducible assumption
    | ((with_reducible apply hX.after); exact rfl)
    | with_reducible apply State.inPool_fr
    | with_reducible apply State.answer_fr
    | (intro x)
    | split

theorem execJuwesyVote_fr {X : Nat} {s0 : State} {a0 : Bytes} {a1 : Bytes} {s : State} (h : Fr X s0 s) (hX : Sub 0x3ddfd972000ec0 X) {t : State}
    (ht : execJuwesyVote a0 a1 s = .next t) : Fr X s0 t := by
  unfold execJuwesyVote at ht
  obtain rfl := Host.Outcome.next.inj ht
  repeat' first
    | with_reducible assumption
    | ((with_reducible apply hX.after); exact rfl)
    | with_reducible apply State.inPool_fr
    | with_reducible apply State.fltHear_fr
    | with_reducible apply State.hearBallot_fr
    | (intro x)

theorem execVoteWaitExpire_fr {X : Nat} {s0 : State} {a0 : ℕ} {a1 : ℕ} {s : State} (h : Fr X s0 s) (hX : Sub 0x100002000000 X) {t : State}
    (ht : execVoteWaitExpire a0 a1 s = .next t) : Fr X s0 t := by
  unfold execVoteWaitExpire at ht
  obtain rfl := Host.Outcome.next.inj ht
  repeat' first
    | with_reducible assumption
    | ((with_reducible apply hX.after); exact rfl)
    | with_reducible apply State.inCore_fr
    | with_reducible apply State.fltCount_fr
    | with_reducible apply State.onFlt_fr
    | (intro x)
    | split

theorem execJuwesyDecide_fr {X : Nat} {s0 : State} {a0 : Bytes} {a1 : Bytes} {s : State} (h : Fr X s0 s) (hX : Sub 0x3ddfd972000ec0 X) {t : State}
    (ht : execJuwesyDecide a0 a1 s = .next t) : Fr X s0 t := by
  unfold execJuwesyDecide at ht
  obtain rfl := Host.Outcome.next.inj ht
  repeat' first
    | with_reducible assumption
    | ((with_reducible apply hX.after); exact rfl)
    | with_reducible apply State.inPool_fr
    | with_reducible apply State.fltHear_fr
    | with_reducible apply State.hearDecide_fr
    | (intro x)

theorem execDecideResend_fr {X : Nat} {s0 : State} {a0 : ℕ} {a1 : ℕ} {a2 : ℕ} {a3 : ℕ} {s : State} (h : Fr X s0 s) (hX : Sub 0x3c10d970000cc0 X) {t : State}
    (ht : execDecideResend a0 a1 a2 a3 s = .next t) : Fr X s0 t := by
  unfold execDecideResend at ht
  obtain rfl := Host.Outcome.next.inj ht
  repeat' first
    | with_reducible assumption
    | ((with_reducible apply hX.after); exact rfl)
    | with_reducible apply State.inPool_fr
    | with_reducible apply State.decideResend_fr
    | (intro x)

theorem execJuwesyDecideAck_fr {X : Nat} {s0 : State} {a0 : Bytes} {a1 : Bytes} {s : State} (h : Fr X s0 s) (hX : Sub 0x3ddfd972000ec0 X) {t : State}
    (ht : execJuwesyDecideAck a0 a1 s = .next t) : Fr X s0 t := by
  unfold execJuwesyDecideAck at ht
  obtain rfl := Host.Outcome.next.inj ht
  repeat' first
    | with_reducible assumption
    | ((with_reducible apply hX.after); exact rfl)
    | with_reducible apply State.inPool_fr
    | with_reducible apply State.fltHear_fr
    | with_reducible apply State.hearAck_fr
    | (intro x)

theorem execRecoveryQuietDone_fr {X : Nat} {s0 : State} {a0 : ℕ} {s : State} (h : Fr X s0 s) (hX : Sub 0x2c100070000000 X) {t : State}
    (ht : execRecoveryQuietDone a0 s = .next t) : Fr X s0 t := by
  unfold execRecoveryQuietDone at ht
  obtain rfl := Host.Outcome.next.inj ht
  repeat' first
    | with_reducible assumption
    | ((with_reducible apply hX.after); exact rfl)
    | with_reducible apply State.inCore_fr
    | with_reducible apply State.quietDone_fr
    | (intro x)

theorem execHealthUpdate_fr {X : Nat} {s0 : State} {s : State} (h : Fr X s0 s) (hX : Sub 0x3ddfd972000ec0 X) {t : State}
    (ht : execHealthUpdate s = .next t) : Fr X s0 t := by
  unfold execHealthUpdate at ht
  obtain rfl := Host.Outcome.next.inj ht
  repeat' first
    | with_reducible assumption
    | ((with_reducible apply hX.after); exact rfl)
    | with_reducible apply State.inPool_fr
    | with_reducible apply State.healthUpdate_fr
    | (intro x)

theorem execHoldRelease_fr {X : Nat} {s0 : State} {a0 : ℕ} {s : State} (h : Fr X s0 s) (hX : Sub 0x3ddfd972000ec0 X) {t : State}
    (ht : execHoldRelease a0 s = .next t) : Fr X s0 t := by
  unfold execHoldRelease at ht
  obtain rfl := Host.Outcome.next.inj ht
  repeat' first
    | with_reducible assumption
    | ((with_reducible apply hX.after); exact rfl)
    | with_reducible apply State.inPool_fr
    | with_reducible apply State.holdRelease_fr
    | (intro x)

theorem execProbeSend_fr {X : Nat} {s0 : State} {a0 : ℕ} {s : State} (h : Fr X s0 s) (hX : Sub 0x3c10d970000cc0 X) {t : State}
    (ht : execProbeSend a0 s = .next t) : Fr X s0 t := by
  unfold execProbeSend at ht
  obtain rfl := Host.Outcome.next.inj ht
  repeat' first
    | with_reducible assumption
    | ((with_reducible apply hX.after); exact rfl)
    | with_reducible apply State.inPool_fr
    | with_reducible apply State.probe_fr
    | (intro x)

theorem execJuwesyProbe_fr {X : Nat} {s0 : State} {a0 : Bytes} {a1 : Bytes} {s : State} (h : Fr X s0 s) (hX : Sub 0x3ddfd972000ec0 X) {t : State}
    (ht : execJuwesyProbe a0 a1 s = .next t) : Fr X s0 t := by
  unfold execJuwesyProbe at ht
  obtain rfl := Host.Outcome.next.inj ht
  repeat' first
    | with_reducible assumption
    | ((with_reducible apply hX.after); exact rfl)
    | with_reducible apply State.inPool_fr
    | with_reducible apply State.fltHear_fr
    | with_reducible apply State.hearProbe_fr
    | (intro x)

theorem execJuwesyProbeAck_fr {X : Nat} {s0 : State} {a0 : Bytes} {a1 : Bytes} {s : State} (h : Fr X s0 s) (hX : Sub 0x3ddfd972000ec0 X) {t : State}
    (ht : execJuwesyProbeAck a0 a1 s = .next t) : Fr X s0 t := by
  unfold execJuwesyProbeAck at ht
  obtain rfl := Host.Outcome.next.inj ht
  repeat' first
    | with_reducible assumption
    | ((with_reducible apply hX.after); exact rfl)
    | with_reducible apply State.inPool_fr
    | with_reducible apply State.fltHear_fr
    | (intro x)

theorem execProbationEnd_fr {X : Nat} {s0 : State} {a0 : ℕ} {s : State} (h : Fr X s0 s) (hX : Sub 0x3ddfd972000ec0 X) {t : State}
    (ht : execProbationEnd a0 s = .next t) : Fr X s0 t := by
  unfold execProbationEnd at ht
  obtain rfl := Host.Outcome.next.inj ht
  repeat' first
    | with_reducible assumption
    | ((with_reducible apply hX.after); exact rfl)
    | with_reducible apply State.inPool_fr
    | with_reducible apply State.probationEnd_fr
    | (intro x)

theorem execProbationNoDecision_fr {X : Nat} {s0 : State} {a0 : ℕ} {s : State} (h : Fr X s0 s) (hX : Sub 0x100040000000 X) {t : State}
    (ht : execProbationNoDecision a0 s = .next t) : Fr X s0 t := by
  unfold execProbationNoDecision at ht
  obtain rfl := Host.Outcome.next.inj ht
  repeat' first
    | with_reducible assumption
    | ((with_reducible apply hX.after); exact rfl)
    | with_reducible apply State.inCore_fr
    | with_reducible apply State.probationFailed_fr
    | (intro x)

theorem execJuwesyPace_fr {X : Nat} {s0 : State} {a0 : Bytes} {a1 : Bytes} {s : State} (h : Fr X s0 s) (hX : Sub 0x3ddfd972001ec0 X) {t : State}
    (ht : execJuwesyPace a0 a1 s = .next t) : Fr X s0 t := by
  unfold execJuwesyPace at ht
  obtain rfl := Host.Outcome.next.inj ht
  repeat' first
    | with_reducible assumption
    | ((with_reducible apply hX.after); exact rfl)
    | with_reducible apply State.inPool_fr
    | with_reducible apply State.fltHear_fr
    | with_reducible apply State.hearPace_fr
    | (intro x)

theorem execPaceSecondSend_fr {X : Nat} {s0 : State} {s : State} (h : Fr X s0 s) (hX : Sub 0x3c10d972000cc0 X) {t : State}
    (ht : execPaceSecondSend s = .next t) : Fr X s0 t := by
  unfold execPaceSecondSend at ht
  obtain rfl := Host.Outcome.next.inj ht
  repeat' first
    | with_reducible assumption
    | ((with_reducible apply hX.after); exact rfl)
    | with_reducible apply State.inPool_fr
    | with_reducible apply State.paceDown_fr
    | with_reducible apply State.onFltState_fr
    | (intro x)
    | split

theorem execFltStatClr_fr {X : Nat} {s0 : State} {a0 : View} {a1 : Word} {s : State} (h : Fr X s0 s) (hX : Sub 0x6000000 X) {t : State}
    (ht : execFltStatClr a0 a1 s = .next t) : Fr X s0 t := by
  unfold execFltStatClr at ht
  obtain rfl := Host.Outcome.next.inj ht
  repeat' first
    | with_reducible assumption
    | ((with_reducible apply hX.after); exact rfl)
    | with_reducible apply State.selClear_fr
    | with_reducible apply State.setFld_fr
    | ((with_reducible apply hX.ok); exact rfl)
    | (intro x)

theorem execRtoExpire_fr {X : Nat} {s0 : State} {a0 : ℕ} {s : State} (h : Fr X s0 s) (hX : Sub 0x3ddfd972000ec0 X) {t : State}
    (ht : execRtoExpire a0 s = .next t) : Fr X s0 t := by
  unfold execRtoExpire at ht
  obtain rfl := Host.Outcome.next.inj ht
  repeat' first
    | with_reducible assumption
    | ((with_reducible apply hX.after); exact rfl)
    | with_reducible apply State.inPool_fr
    | with_reducible apply State.ctxFailing_fr
    | with_reducible apply State.rtoExpire_fr
    | (intro x)

theorem State.recordRead_fr {X : Nat} {s0 : State} {s : State} {a1 : MemRead} (h : Fr X s0 s) (hX : Sub 0x2c100170000010 X) :
    Fr X s0 (State.recordRead s a1).2 := by
  unfold State.recordRead
  repeat' first
    | with_reducible assumption
    | ((with_reducible apply hX.after); exact rfl)
    | with_reducible apply State.fresh_fr
    | with_reducible apply State.noteBurst_fr
    | with_reducible apply Fr.foldl_snd
    | with_reducible refine Fr.of_snd (by assumption) ?_
    | (intro x)
    | split

theorem State.contextFetched_fr {X : Nat} {s0 : State} {s : State} {a1 : ℕ} {a2 : MemRead} (h : Fr X s0 s) (hX : Sub 0x3ddfd972004ed0 X) :
    Fr X s0 (State.contextFetched s a1 a2) := by
  unfold State.contextFetched
  repeat' first
    | with_reducible assumption
    | ((with_reducible apply hX.after); exact rfl)
    | with_reducible apply State.recordRead_fr
    | with_reducible apply State.fetched_fr
    | with_reducible apply State.ctxFailing_fr
    | with_reducible apply State.ctxFail_fr
    | with_reducible refine Fr.of_snd (by assumption) ?_
    | split

theorem execContextFetchDone_fr {X : Nat} {s0 : State} {a0 : ℕ} {a1 : MemRead} {s : State} (h : Fr X s0 s) (hX : Sub 0x3ddfd972004ed0 X) {t : State}
    (ht : execContextFetchDone a0 a1 s = .next t) : Fr X s0 t := by
  unfold execContextFetchDone at ht
  obtain rfl := Host.Outcome.next.inj ht
  repeat' first
    | with_reducible assumption
    | ((with_reducible apply hX.after); exact rfl)
    | with_reducible apply State.inPool_fr
    | with_reducible apply State.contextFetched_fr
    | (intro x)

end Sys2Proof.Machine
end

