-- ==== Sys2Proof/Laws/FrameControl.lean ====
section
/-!
SUPPORT. Frames of the operations of Power.lean, Faults.lean, Functions.lean, Units.lean, TimeStep.lean, CommitChecks.lean, Commit.lean, Startup.lean, Attest.lean, ReadReg.lean, Idle.lean: one lemma each, by backward chaining (Frame.lean).
-/

namespace Sys2Proof.Machine

theorem State.onPower_fr {X : Nat} {s0 : State} {s : State} {a1 : PowerState → PowerState} (h : Fr X s0 s) (hX : Sub 0x400000000 X) :
    Fr X s0 (State.onPower s a1) := by
  unfold State.onPower
  exact Fr.power_ h (hX.bit rfl)

theorem State.onBoot_fr {X : Nat} {s0 : State} {s : State} {a1 : BootState → BootState} (h : Fr X s0 s) (hX : Sub 0x8000000 X) :
    Fr X s0 (State.onBoot s a1) := by
  unfold State.onBoot
  exact Fr.boot_ h (hX.bit rfl)



theorem State.setPoint_fr {X : Nat} {s0 : State} {s : State} (h : Fr X s0 s) (hX : Sub 0x8000400400000 X) :
    Fr X s0 (State.setPoint s) := by
  unfold State.setPoint
  repeat' first
    | with_reducible assumption
    | ((with_reducible apply hX.after); exact rfl)
    | with_reducible apply State.heaterAnnounce_fr
    | with_reducible apply State.setFld_fr
    | (extract_lets +onlyGivenNames x; clear_value x)
    | split
    | ((with_reducible apply hX.ok); exact rfl)

theorem State.capUnreachable_fr {X : Nat} {s0 : State} {s : State} (h : Fr X s0 s) (hX : Sub 0x2c000070400000 X) :
    Fr X s0 (State.capUnreachable s) := by
  unfold State.capUnreachable
  repeat' first
    | with_reducible assumption
    | ((with_reducible apply hX.after); exact rfl)
    | with_reducible apply State.raise_fr
    | with_reducible apply State.setFlag_fr
    | split
    | ((with_reducible apply hX.ok); exact rfl)

theorem State.throttle_fr {X : Nat} {s0 : State} {s : State} (h : Fr X s0 s) (hX : Sub 0x2c000070400000 X) :
    Fr X s0 (State.throttle s) := by
  unfold State.throttle
  repeat' first
    | with_reducible assumption
    | ((with_reducible apply hX.after); exact rfl)
    | with_reducible apply State.raise_fr
    | with_reducible apply State.setFlag_fr
    | (extract_lets +onlyGivenNames x; clear_value x)
    | split
    | ((with_reducible apply hX.ok); exact rfl)

theorem State.powerEstimate_fr {X : Nat} {s0 : State} {s : State} {a1 : ℕ} {a2 : ℕ} {a3 : ℕ} (h : Fr X s0 s) (hX : Sub 0x2c000470400000 X) :
    Fr X s0 (State.powerEstimate s a1 a2 a3) := by
  unfold State.powerEstimate
  repeat' first
    | with_reducible assumption
    | ((with_reducible apply hX.after); exact rfl)
    | with_reducible apply State.throttle_fr
    | with_reducible apply State.capUnreachable_fr
    | with_reducible apply State.setPoint_fr
    | with_reducible apply State.setFlag_fr
    | with_reducible apply State.setFld_fr
    | with_reducible apply State.onPower_fr
    | with_reducible apply State.heaterAnnounce_fr
    | (extract_lets +onlyGivenNames x; first
        | (refine Fr.cut (X := X) (s0 := s0) (s := x) ?_ (fun hx => ?_); (on_goal 2 => clear_value x); (on_goal 1 => (unfold x; clear x)))
        | clear_value x)
    | split
    | ((with_reducible apply hX.ok); exact rfl)

theorem State.voltageStep_fr {X : Nat} {s0 : State} {s : State} (h : Fr X s0 s) (hX : Sub 0x8000400400000 X) :
    Fr X s0 (State.voltageStep s) := by
  unfold State.voltageStep
  repeat' first
    | with_reducible assumption
    | ((with_reducible apply hX.after); exact rfl)
    | with_reducible apply State.setPoint_fr
    | with_reducible apply State.onPower_fr
    | (extract_lets +onlyGivenNames x; (refine Fr.cut (X := X) (s0 := s0) (s := x) ?_ (fun hx => ?_); (on_goal 2 => clear_value x); (on_goal 1 => (unfold x; clear x))))
    | split

theorem State.calibrate_fr {X : Nat} {s0 : State} {s : State} {a1 : ℕ} {a2 : ℕ} {a3 : Bool} (h : Fr X s0 s) (hX : Sub 0x2c000470400000 X) :
    Fr X s0 (State.calibrate s a1 a2 a3) := by
  unfold State.calibrate
  repeat' first
    | with_reducible assumption
    | ((with_reducible apply hX.after); exact rfl)
    | with_reducible apply State.setFld_fr
    | with_reducible apply State.onPower_fr
    | with_reducible apply State.setFlag_fr
    | with_reducible apply State.bump_fr
    | with_reducible apply State.raise_fr
    | (extract_lets +onlyGivenNames x; first
        | (refine Fr.cut (X := X) (s0 := s0) (s := x) ?_ (fun hx => ?_); (on_goal 2 => clear_value x); (on_goal 1 => (unfold x; clear x)))
        | clear_value x)
    | split
    | ((with_reducible apply hX.ok); exact rfl)

theorem State.takeReading_fr {X : Nat} {s0 : State} {s : State} {a1 : Reading} (h : Fr X s0 s) (hX : Sub 0x2c000070000000 X) :
    Fr X s0 (State.takeReading s a1) := by
  unfold State.takeReading
  repeat' first
    | with_reducible assumption
    | with_reducible apply State.raise_fr
    | (with_reducible apply Fr.mgmt_; (on_goal 1 => (first | with_reducible assumption | with_reducible apply State.raise_fr | with_reducible refine Fr.of_snd (by assumption) ?_)))
    | (extract_lets +onlyGivenNames x; first
        | (refine Fr.cut (X := X) (s0 := s0) (s := x) ?_ (fun hx => ?_); (on_goal 2 => clear_value x); (on_goal 1 => (unfold x; clear x)))
        | clear_value x)
    | split
    | ((with_reducible apply hX.bit); exact rfl)

theorem State.setBand_fr {X : Nat} {s0 : State} {s : State} {a1 : ℕ} (h : Fr X s0 s) (hX : Sub 0x8000400400000 X) :
    Fr X s0 (State.setBand s a1) := by
  unfold State.setBand
  repeat' first
    | with_reducible assumption
    | with_reducible apply State.setPoint_fr
    | with_reducible apply State.setFld_fr
    | ((with_reducible apply hX.ok); exact rfl)

theorem State.showTemps_fr {X : Nat} {s0 : State} {s : State} (h : Fr X s0 s) (hX : Sub 0x8000400400000 X) :
    Fr X s0 (State.showTemps s) := by
  unfold State.showTemps
  repeat' first
    | with_reducible assumption
    | with_reducible apply State.setFld_fr
    | with_reducible apply State.setBand_fr
    | (extract_lets +onlyGivenNames x; (refine Fr.cut (X := X) (s0 := s0) (s := x) ?_ (fun hx => ?_); (on_goal 2 => clear_value x); (on_goal 1 => (unfold x; clear x))))
    | split
    | ((with_reducible apply hX.ok); exact rfl)

theorem State.coreStops_fr {X : Nat} {s0 : State} {s : State} (h : Fr X s0 s) (hX : Sub 0x2c283c704f00c0 X) :
    Fr X s0 (State.coreStops s) := by
  unfold State.coreStops
  repeat' first
    | with_reducible assumption
    | ((with_reducible apply hX.after); exact rfl)
    | with_reducible apply State.showTraffic_fr
    | with_reducible apply State.lineRefresh_fr
    | with_reducible apply State.linkDown_fr
    | with_reducible apply State.setLaneSt_fr
    | with_reducible apply State.groupStop_fr
    | with_reducible apply Fr.foldl
    | (intro x)
    | (extract_lets +onlyGivenNames x; (refine Fr.cut (X := X) (s0 := s0) (s := x) ?_ (fun hx => ?_); (on_goal 2 => clear_value x); (on_goal 1 => (unfold x; clear x))))
    | split

theorem State.dieThresholds_fr {X : Nat} {s0 : State} {s : State} (h : Fr X s0 s) (hX : Sub 0x2c283c784f00c0 X) :
    Fr X s0 (State.dieThresholds s) := by
  unfold State.dieThresholds
  repeat' first
    | with_reducible assumption
    | ((with_reducible apply hX.after); exact rfl)
    | with_reducible apply State.setPoint_fr
    | with_reducible apply State.setFld_fr
    | with_reducible apply State.raise_fr
    | with_reducible apply State.onPower_fr
    | with_reducible apply State.coreStops_fr
    | (with_reducible apply Fr.boot_; (on_goal 1 => (first | with_reducible assumption | with_reducible apply State.setPoint_fr | with_reducible apply State.setFld_fr | with_reducible apply State.raise_fr | with_reducible apply State.onPower_fr | with_reducible apply State.coreStops_fr | with_reducible refine Fr.of_snd (by assumption) ?_)))
    | (extract_lets +onlyGivenNames x; first
        | (refine Fr.cut (X := X) (s0 := s0) (s := x) ?_ (fun hx => ?_); (on_goal 2 => clear_value x); (on_goal 1 => (unfold x; clear x)))
        | clear_value x)
    | split
    | ((with_reducible apply hX.ok); exact rfl)
    | ((with_reducible apply hX.bit); exact rfl)

theorem State.engineThresholds_fr {X : Nat} {s0 : State} {s : State} {a1 : ℕ} {a2 : ℤ} (h : Fr X s0 s) (hX : Sub 0x2c203c704b00c0 X) :
    Fr X s0 (State.engineThresholds s a1 a2) := by
  unfold State.engineThresholds
  repeat' first
    | with_reducible assumption
    | ((with_reducible apply hX.after); exact rfl)
    | with_reducible apply State.raise_fr
    | with_reducible apply State.onPower_fr
    | with_reducible apply State.groupStop_fr
    | (extract_lets +onlyGivenNames x; (refine Fr.cut (X := X) (s0 := s0) (s := x) ?_ (fun hx => ?_); (on_goal 2 => clear_value x); (on_goal 1 => (unfold x; clear x))))
    | split

theorem State.memThreshold_fr {X : Nat} {s0 : State} {s : State} {a1 : Bool} {a2 : ℕ} {a3 : ℤ} (h : Fr X s0 s) (hX : Sub 0x2c000470000000 X) :
    Fr X s0 (State.memThreshold s a1 a2 a3) := by
  unfold State.memThreshold
  repeat' first
    | with_reducible assumption
    | ((with_reducible apply hX.after); exact rfl)
    | with_reducible apply State.raise_fr
    | with_reducible apply State.onPower_fr
    | (intro x)
    | (extract_lets +onlyGivenNames x; first
        | (refine Fr.cut_fn2 (X := X) (s0 := s0) (f := x) ?_ (fun hx => ?_); (on_goal 2 => clear_value x); (on_goal 1 => (unfold x; clear x)))
        | clear_value x)
    | split
    | with_reducible apply_assumption -exfalso -symm

theorem State.sensorSample_fr {X : Nat} {s0 : State} {s : State} {a1 : List Reading} (h : Fr X s0 s) (hX : Sub 0x2c283c784f00c0 X) :
    Fr X s0 (State.sensorSample s a1) := by
  unfold State.sensorSample
  repeat' first
    | with_reducible assumption
    | ((with_reducible apply hX.after); exact rfl)
    | with_reducible apply State.dieThresholds_fr
    | with_reducible apply State.memThreshold_fr
    | with_reducible apply State.engineThresholds_fr
    | with_reducible apply State.showTemps_fr
    | with_reducible apply State.takeReading_fr
    | with_reducible apply Fr.foldl
    | (intro x)
    | (extract_lets +onlyGivenNames x; (refine Fr.cut (X := X) (s0 := s0) (s := x) ?_ (fun hx => ?_); (on_goal 2 => clear_value x); (on_goal 1 => (unfold x; clear x))))
    | split

theorem State.bandFall_fr {X : Nat} {s0 : State} {s : State} (h : Fr X s0 s) (hX : Sub 0x8000400400000 X) :
    Fr X s0 (State.bandFall s) := by
  unfold State.bandFall
  repeat' first
    | with_reducible assumption
    | with_reducible apply State.setBand_fr
    | (extract_lets +onlyGivenNames x; clear_value x)
    | split

theorem State.oeRelease_fr {X : Nat} {s0 : State} {s : State} {a1 : ℕ} (h : Fr X s0 s) (hX : Sub 0x2c203c704b00c0 X) :
    Fr X s0 (State.oeRelease s a1) := by
  unfold State.oeRelease
  repeat' first
    | with_reducible assumption
    | ((with_reducible apply hX.after); exact rfl)
    | with_reducible apply State.onPower_fr
    | with_reducible apply State.groupAcquire_fr
    | (extract_lets +onlyGivenNames x; (refine Fr.cut (X := X) (s0 := s0) (s := x) ?_ (fun hx => ?_); (on_goal 2 => clear_value x); (on_goal 1 => (unfold x; clear x))))
    | split

theorem State.criticalRelease_fr {X : Nat} {s0 : State} {s : State} (h : Fr X s0 s) (hX : Sub 0x8000400400000 X) :
    Fr X s0 (State.criticalRelease s) := by
  unfold State.criticalRelease
  repeat' first
    | with_reducible assumption
    | ((with_reducible apply hX.after); exact rfl)
    | with_reducible apply State.setPoint_fr
    | with_reducible apply State.onPower_fr
    | split

theorem State.thermalLoop_fr {X : Nat} {s0 : State} {s : State} (h : Fr X s0 s) (hX : Sub 0x2c000470000000 X) :
    Fr X s0 (State.thermalLoop s) := by
  unfold State.thermalLoop
  repeat' first
    | with_reducible assumption
    | ((with_reducible apply hX.after); exact rfl)
    | with_reducible apply State.raise_fr
    | with_reducible apply State.onPower_fr
    | (extract_lets +onlyGivenNames x; first
        | (refine Fr.cut (X := X) (s0 := s0) (s := x) ?_ (fun hx => ?_); (on_goal 2 => clear_value x); (on_goal 1 => (unfold x; clear x)))
        | clear_value x)
    | split

theorem State.paceWindow_fr {X : Nat} {s0 : State} {s : State} {a1 : ℕ} {a2 : ℕ} {a3 : ℕ} (h : Fr X s0 s) (hX : Sub 0x400000 X) :
    Fr X s0 (State.paceWindow s a1 a2 a3) := by
  unfold State.paceWindow
  repeat' first
    | with_reducible assumption
    | with_reducible apply State.setFld_fr
    | (extract_lets +onlyGivenNames x; clear_value x)
    | split
    | ((with_reducible apply hX.ok); exact rfl)

theorem State.floorRaise_fr {X : Nat} {s0 : State} {s : State} (h : Fr X s0 s) (hX : Sub 0x2c000470400000 X) :
    Fr X s0 (State.floorRaise s) := by
  unfold State.floorRaise
  repeat' first
    | with_reducible assumption
    | ((with_reducible apply hX.after); exact rfl)
    | with_reducible apply State.raise_fr
    | with_reducible apply State.setFlag_fr
    | with_reducible apply State.setBand_fr
    | with_reducible apply State.bump_fr
    | with_reducible apply State.setFld_fr
    | (extract_lets +onlyGivenNames x; clear_value x)
    | split
    | ((with_reducible apply hX.ok); exact rfl)

theorem State.arbAct_fr {X : Nat} {s0 : State} {s : State} {a1 : ArbReq} (h : Fr X s0 s) (hX : Sub 0x2c000870000040 X) :
    Fr X s0 (State.arbAct s a1) := by
  unfold State.arbAct
  repeat' first
    | with_reducible assumption
    | ((with_reducible apply hX.after); exact rfl)
    | with_reducible apply State.settAlloc_fr
    | with_reducible apply State.settFree_fr
    | split

theorem State.arbGranted_fr {X : Nat} {s0 : State} {s : State} {a1 : ℕ} {a2 : ℕ} {a3 : ArbReq} {a4 : ℕ} (h : Fr X s0 s) (hX : Sub 0x2c100c70000041 X) :
    Fr X s0 (State.arbGranted s a1 a2 a3 a4) := by
  unfold State.arbGranted
  repeat' first
    | with_reducible assumption
    | ((with_reducible apply hX.after); exact rfl)
    | with_reducible apply State.arbAct_fr
    | with_reducible apply State.healthAdd_fr
    | with_reducible apply State.raise_fr
    | with_reducible apply State.bump_fr
    | with_reducible apply State.setFld_fr
    | with_reducible apply State.bumpWrap_fr
    | with_reducible apply State.emit_fr
    | with_reducible apply State.onPower_fr
    | (with_reducible apply Fr.mgmt_; (on_goal 1 => (first | with_reducible assumption | with_reducible apply State.arbAct_fr | with_reducible apply State.healthAdd_fr | with_reducible apply State.raise_fr | with_reducible apply State.bump_fr | with_reducible apply State.setFld_fr | with_reducible apply State.bumpWrap_fr | with_reducible apply State.emit_fr | with_reducible apply State.onPower_fr | with_reducible refine Fr.of_snd (by assumption) ?_)))
    | (extract_lets +onlyGivenNames x; first
        | (refine Fr.cut (X := X) (s0 := s0) (s := x) ?_ (fun hx => ?_); (on_goal 2 => clear_value x); (on_goal 1 => (unfold x; clear x)))
        | clear_value x)
    | split
    | ((with_reducible apply hX.ok); exact rfl)
    | ((with_reducible apply hX.bit); exact rfl)

theorem State.arbGrant_fr {X : Nat} {s0 : State} {s : State} {a1 : ℕ} {a2 : ℕ} {a3 : List ArbReq} {a4 : ℕ} {a5 : List ℕ} (h : Fr X s0 s) (hX : Sub 0x2c100c70001041 X) :
    Fr X s0 (State.arbGrant s a1 a2 a3 a4 a5) := by
  unfold State.arbGrant
  repeat' first
    | with_reducible assumption
    | ((with_reducible apply hX.after); exact rfl)
    | with_reducible apply State.planOverrun_fr
    | with_reducible apply State.arbGranted_fr
    | with_reducible apply State.onPower_fr
    | with_reducible apply Fr.foldl
    | (intro x)
    | (extract_lets +onlyGivenNames x; first
        | (refine Fr.cut (X := X) (s0 := s0) (s := x) ?_ (fun hx => ?_); (on_goal 2 => clear_value x); (on_goal 1 => (unfold x; clear x)))
        | clear_value x)
    | split

theorem execSensorSample_fr {X : Nat} {s0 : State} {a0 : List Reading} {s : State} (h : Fr X s0 s) (hX : Sub 0x3c28fd784f0cc0 X) {t : State}
    (ht : execSensorSample a0 s = .next t) : Fr X s0 t := by
  unfold execSensorSample at ht
  obtain rfl := Host.Outcome.next.inj ht
  repeat' first
    | with_reducible assumption
    | ((with_reducible apply hX.after); exact rfl)
    | with_reducible apply State.pooled_fr
    | with_reducible apply State.sensorSample_fr
    | (intro x)

theorem execOeTripRelease_fr {X : Nat} {s0 : State} {a0 : ℕ} {s : State} (h : Fr X s0 s) (hX : Sub 0x3c20fd704b0cc0 X) {t : State}
    (ht : execOeTripRelease a0 s = .next t) : Fr X s0 t := by
  unfold execOeTripRelease at ht
  obtain rfl := Host.Outcome.next.inj ht
  repeat' first
    | with_reducible assumption
    | ((with_reducible apply hX.after); exact rfl)
    | with_reducible apply State.inPool_fr
    | with_reducible apply State.oeRelease_fr
    | (intro x)

theorem execBandFall_fr {X : Nat} {s0 : State} {s : State} (h : Fr X s0 s) (hX : Sub 0x8000400400000 X) {t : State}
    (ht : execBandFall s = .next t) : Fr X s0 t := by
  unfold execBandFall at ht
  obtain rfl := Host.Outcome.next.inj ht
  repeat' first
    | with_reducible assumption
    | ((with_reducible apply hX.after); exact rfl)
    | with_reducible apply State.inAon_fr
    | with_reducible apply State.bandFall_fr
    | (intro x)

theorem execPaceWindow_fr {X : Nat} {s0 : State} {a0 : ℕ} {a1 : ℕ} {a2 : ℕ} {s : State} (h : Fr X s0 s) (hX : Sub 0x400000 X) {t : State}
    (ht : execPaceWindow a0 a1 a2 s = .next t) : Fr X s0 t := by
  unfold execPaceWindow at ht
  obtain rfl := Host.Outcome.next.inj ht
  repeat' first
    | with_reducible assumption
    | ((with_reducible apply hX.after); exact rfl)
    | with_reducible apply State.inCore_fr
    | with_reducible apply State.paceWindow_fr
    | (intro x)

theorem execFloorRaise_fr {X : Nat} {s0 : State} {s : State} (h : Fr X s0 s) (hX : Sub 0x2c000470400000 X) {t : State}
    (ht : execFloorRaise s = .next t) : Fr X s0 t := by
  unfold execFloorRaise at ht
  obtain rfl := Host.Outcome.next.inj ht
  repeat' first
    | with_reducible assumption
    | with_reducible apply State.floorRaise_fr

theorem execArbGrant_fr {X : Nat} {s0 : State} {a0 : ℕ} {a1 : ℕ} {a2 : List ArbReq} {a3 : ℕ} {a4 : List ℕ} {s : State} (h : Fr X s0 s) (hX : Sub 0x3c10dd70001cc1 X) {t : State}
    (ht : execArbGrant a0 a1 a2 a3 a4 s = .next t) : Fr X s0 t := by
  unfold execArbGrant at ht
  obtain rfl := Host.Outcome.next.inj ht
  repeat' first
    | with_reducible assumption
    | ((with_reducible apply hX.after); exact rfl)
    | with_reducible apply State.inPool_fr
    | with_reducible apply State.arbGrant_fr
    | (intro x)

theorem execPaceClrMin_fr {X : Nat} {s0 : State} {a0 : View} {a1 : Word} {s : State} (h : Fr X s0 s) (hX : Sub 0x4400000 X) {t : State}
    (ht : execPaceClrMin a0 a1 s = .next t) : Fr X s0 t := by
  unfold execPaceClrMin at ht
  obtain rfl := Host.Outcome.next.inj ht
  repeat' first
    | with_reducible assumption
    | ((with_reducible apply hX.after); exact rfl)
    | with_reducible apply State.selClear_fr
    | with_reducible apply State.setFld_fr
    | (intro x)
    | split
    | ((with_reducible apply hX.ok); exact rfl)

theorem execArbClr_fr {X : Nat} {s0 : State} {a0 : View} {a1 : Word} {s : State} (h : Fr X s0 s) (hX : Sub 0x20000004000001 X) {t : State}
    (ht : execArbClr a0 a1 s = .next t) : Fr X s0 t := by
  unfold execArbClr at ht
  obtain rfl := Host.Outcome.next.inj ht
  repeat' first
    | with_reducible assumption
    | ((with_reducible apply hX.after); exact rfl)
    | with_reducible apply State.selClear_fr
    | with_reducible apply State.setFld_fr
    | (intro x)
    | ((with_reducible apply hX.ok); exact rfl)

theorem execPowerEstimate_fr {X : Nat} {s0 : State} {a0 : ℕ} {a1 : ℕ} {a2 : ℕ} {s : State} (h : Fr X s0 s) (hX : Sub 0x2c000470400000 X) {t : State}
    (ht : execPowerEstimate a0 a1 a2 s = .next t) : Fr X s0 t := by
  unfold execPowerEstimate at ht
  obtain rfl := Host.Outcome.next.inj ht
  repeat' first
    | with_reducible assumption
    | with_reducible apply State.powerEstimate_fr

theorem execVoltageStep_fr {X : Nat} {s0 : State} {s : State} (h : Fr X s0 s) (hX : Sub 0x8000400400000 X) {t : State}
    (ht : execVoltageStep s = .next t) : Fr X s0 t := by
  unfold execVoltageStep at ht
  obtain rfl := Host.Outcome.next.inj ht
  repeat' first
    | with_reducible assumption
    | ((with_reducible apply hX.after); exact rfl)
    | with_reducible apply State.inCore_fr
    | with_reducible apply State.voltageStep_fr
    | (intro x)

theorem execPowerCalibrate_fr {X : Nat} {s0 : State} {a0 : ℕ} {a1 : ℕ} {a2 : Bool} {s : State} (h : Fr X s0 s) (hX : Sub 0x2c000470400000 X) {t : State}
    (ht : execPowerCalibrate a0 a1 a2 s = .next t) : Fr X s0 t := by
  unfold execPowerCalibrate at ht
  obtain rfl := Host.Outcome.next.inj ht
  repeat' first
    | with_reducible assumption
    | with_reducible apply State.calibrate_fr

theorem execThermalLoop_fr {X : Nat} {s0 : State} {s : State} (h : Fr X s0 s) (hX : Sub 0x2c000470000000 X) {t : State}
    (ht : execThermalLoop s = .next t) : Fr X s0 t := by
  unfold execThermalLoop at ht
  obtain rfl := Host.Outcome.next.inj ht
  repeat' first
    | with_reducible assumption
    | with_reducible apply State.thermalLoop_fr

theorem execThermalCriticalRelease_fr {X : Nat} {s0 : State} {s : State} (h : Fr X s0 s) (hX : Sub 0x8000400400000 X) {t : State}
    (ht : execThermalCriticalRelease s = .next t) : Fr X s0 t := by
  unfold execThermalCriticalRelease at ht
  obtain rfl := Host.Outcome.next.inj ht
  repeat' first
    | with_reducible assumption
    | ((with_reducible apply hX.after); exact rfl)
    | with_reducible apply State.inAon_fr
    | with_reducible apply State.criticalRelease_fr
    | (intro x)

theorem State.endHeld_fr {X : Nat} {s0 : State} {s : State} {a1 : Op} {a2 : ℕ} (h : Fr X s0 s) (hX : Sub 0x10c0040000000 X) :
    Fr X s0 (State.endHeld s a1 a2) := by
  unfold State.endHeld
  repeat' first
    | with_reducible assumption
    | with_reducible apply State.stopXfer_fr

theorem State.resumeOp_fr {X : Nat} {s0 : State} {s : State} {a1 : Op} (h : Fr X s0 s) (hX : Sub 0x40000000 X) :
    Fr X s0 (State.resumeOp s a1) := by
  unfold State.resumeOp
  repeat' first
    | with_reducible assumption
    | with_reducible apply State.setHold_fr

theorem State.resumeRun_fr {X : Nat} {s0 : State} {s : State} {a1 : ℕ} (h : Fr X s0 s) (hX : Sub 0x4020400400000 X) :
    Fr X s0 (State.resumeRun s a1) := by
  unfold State.resumeRun
  repeat' first
    | with_reducible assumption
    | ((with_reducible apply hX.after); exact rfl)
    | with_reducible apply State.place_fr
    | with_reducible apply State.setTctx_fr

theorem State.resumeColl_fr {X : Nat} {s0 : State} {s : State} {a1 : ℕ} {a2 : ℕ} (h : Fr X s0 s) (hX : Sub 0x3c00d970000cc0 X) :
    Fr X s0 (State.resumeColl s a1 a2) := by
  unfold State.resumeColl
  repeat' first
    | with_reducible assumption
    | ((with_reducible apply hX.after); exact rfl)
    | with_reducible apply State.collSettle_fr
    | with_reducible apply State.writeLog_fr
    | with_reducible apply State.setCollOp_fr
    | with_reducible apply Fr.foldl
    | (intro x)
    | split

theorem State.retryDomain_fr {X : Nat} {s0 : State} {s : State} {a1 : ℕ} (h : Fr X s0 s) (hX : Sub 0x3c02dd70400cc0 X) :
    Fr X s0 (State.retryDomain s a1) := by
  unfold State.retryDomain
  repeat' first
    | with_reducible assumption
    | ((with_reducible apply hX.after); exact rfl)
    | with_reducible apply State.resumeColl_fr
    | with_reducible apply State.resumeRun_fr
    | with_reducible apply State.resumeOp_fr
    | with_reducible apply Fr.foldl
    | (intro x)

theorem State.restartXfers_fr {X : Nat} {s0 : State} {s : State} {a1 : Op → Bool} {a2 : ℕ} {a3 : ℕ} (h : Fr X s0 s) (hX : Sub 0x40000000000 X) :
    Fr X s0 (State.restartXfers s a1 a2 a3) := by
  unfold State.restartXfers
  repeat' first
    | with_reducible assumption
    | with_reducible apply State.blocksDrop_fr
    | with_reducible apply Fr.foldl
    | (intro x)

theorem State.restartRuns_fr {X : Nat} {s0 : State} {s : State} {a1 : ℕ} {a2 : ℕ} {a3 : ℕ} (h : Fr X s0 s) (hX : Sub 0x40000000000 X) :
    Fr X s0 (State.restartRuns s a1 a2 a3) := by
  unfold State.restartRuns
  repeat' first
    | with_reducible assumption
    | with_reducible apply State.blocksDrop_fr
    | with_reducible apply Fr.foldl
    | (intro x)

theorem State.mmuInvalidate_fr {X : Nat} {s0 : State} {s : State} {a1 : Op} (h : Fr X s0 s) (hX : Sub 0x3c06dd70400cc0 X) :
    Fr X s0 (State.mmuInvalidate s a1) := by
  unfold State.mmuInvalidate
  repeat' first
    | with_reducible assumption
    | ((with_reducible apply hX.after); exact rfl)
    | with_reducible apply State.finish_fr
    | with_reducible apply State.retryDomain_fr
    | with_reducible apply State.restartRuns_fr
    | with_reducible apply State.restartXfers_fr
    | with_reducible apply State.dropTlb_fr
    | (extract_lets +onlyGivenNames x; clear_value x)
    | split

theorem State.atsInvalidate_fr {X : Nat} {s0 : State} {s : State} {a1 : ℕ} {a2 : ℕ} {a3 : ℕ} (h : Fr X s0 s) (hX : Sub 0x8040100000000 X) :
    Fr X s0 (State.atsInvalidate s a1 a2 a3) := by
  unfold State.atsInvalidate
  repeat' first
    | with_reducible assumption
    | ((with_reducible apply hX.after); exact rfl)
    | with_reducible apply State.emit_fr
    | with_reducible apply State.restartXfers_fr
    | with_reducible apply State.onMem_fr
    | exact fun _ => ⟨rfl, rfl, rfl, rfl⟩

theorem State.devTimeout_fr {X : Nat} {s0 : State} {s : State} {a1 : HeldRef} (h : Fr X s0 s) (hX : Sub 0x3d0edd70402cc0 X) :
    Fr X s0 (State.devTimeout s a1) := by
  unfold State.devTimeout
  repeat' first
    | with_reducible assumption
    | ((with_reducible apply hX.after); exact rfl)
    | with_reducible apply State.endHeld_fr
    | with_reducible apply State.runEnd_fr
    | with_reducible apply State.collEnd_fr
    | split

theorem State.priEnd_fr {X : Nat} {s0 : State} {s : State} {a1 : HeldRef} {a2 : Bool} (h : Fr X s0 s) (hX : Sub 0x2d0e0470402000 X) :
    Fr X s0 (State.priEnd s a1 a2) := by
  unfold State.priEnd
  repeat' first
    | with_reducible assumption
    | ((with_reducible apply hX.after); exact rfl)
    | with_reducible apply State.nextPageRequest_fr
    | with_reducible apply State.resumeOp_fr
    | with_reducible apply State.endHeld_fr
    | with_reducible apply State.resumeRun_fr
    | with_reducible apply State.runEnd_fr
    | split

theorem execMmuInvalidate_fr {X : Nat} {s0 : State} {a0 : OpKey} {s : State} (h : Fr X s0 s) (hX : Sub 0x3c06dd70400cc0 X) {t : State}
    (ht : execMmuInvalidate a0 s = .next t) : Fr X s0 t := by
  unfold execMmuInvalidate at ht
  obtain rfl := Host.Outcome.next.inj ht
  repeat' first
    | with_reducible assumption
    | ((with_reducible apply hX.after); exact rfl)
    | with_reducible apply State.pooled_fr
    | with_reducible apply State.start_fr
    | with_reducible apply State.mmuInvalidate_fr
    | (intro x)

theorem execAtsInvalidate_fr {X : Nat} {s0 : State} {a0 : ℕ} {a1 : ℕ} {a2 : ℕ} {s : State} (h : Fr X s0 s) (hX : Sub 0x8040100000000 X) {t : State}
    (ht : execAtsInvalidate a0 a1 a2 s = .next t) : Fr X s0 t := by
  unfold execAtsInvalidate at ht
  obtain rfl := Host.Outcome.next.inj ht
  repeat' first
    | with_reducible assumption
    | ((with_reducible apply hX.after); exact rfl)
    | with_reducible apply State.inCore_fr
    | with_reducible apply State.atsInvalidate_fr
    | (intro x)

theorem execDevFaultTimeout_fr {X : Nat} {s0 : State} {a0 : HeldRef} {s : State} (h : Fr X s0 s) (hX : Sub 0x3d0edd70402cc0 X) {t : State}
    (ht : execDevFaultTimeout a0 s = .next t) : Fr X s0 t := by
  unfold execDevFaultTimeout at ht
  obtain rfl := Host.Outcome.next.inj ht
  repeat' first
    | with_reducible assumption
    | ((with_reducible apply hX.after); exact rfl)
    | with_reducible apply State.inPool_fr
    | with_reducible apply State.devTimeout_fr
    | (intro x)

theorem execPriResponse_fr {X : Nat} {s0 : State} {a0 : HeldRef} {a1 : Bool} {s : State} (h : Fr X s0 s) (hX : Sub 0x2d0e0470402000 X) {t : State}
    (ht : execPriResponse a0 a1 s = .next t) : Fr X s0 t := by
  unfold execPriResponse at ht
  obtain rfl := Host.Outcome.next.inj ht
  repeat' first
    | with_reducible assumption
    | ((with_reducible apply hX.after); exact rfl)
    | with_reducible apply State.inCore_fr
    | with_reducible apply State.priEnd_fr
    | (intro x)

theorem execPriTimeout_fr {X : Nat} {s0 : State} {a0 : HeldRef} {s : State} (h : Fr X s0 s) (hX : Sub 0x2d0e0470402000 X) {t : State}
    (ht : execPriTimeout a0 s = .next t) : Fr X s0 t := by
  unfold execPriTimeout at ht
  obtain rfl := Host.Outcome.next.inj ht
  repeat' first
    | with_reducible assumption
    | ((with_reducible apply hX.after); exact rfl)
    | with_reducible apply State.inCore_fr
    | with_reducible apply State.priEnd_fr
    | (intro x)

theorem State.functionStop_fr {X : Nat} {s0 : State} {s : State} {a1 : ℕ} (h : Fr X s0 s) (hX : Sub 0x3c40d970000cc0 X) :
    Fr X s0 (State.functionStop s a1) := by
  unfold State.functionStop
  repeat' first
    | with_reducible assumption
    | ((with_reducible apply hX.after); exact rfl)
    | with_reducible apply State.roundFail_fr
    | with_reducible apply State.collEnd_fr
    | with_reducible apply Fr.foldl
    | (intro x)
    | split

theorem State.functionReset_fr {X : Nat} {s0 : State} {s : State} {a1 : ℕ} (h : Fr X s0 s) (hX : Sub 0x3c40d970000cc0 X) :
    Fr X s0 (State.functionReset s a1) := by
  unfold State.functionReset
  repeat' first
    | with_reducible assumption
    | ((with_reducible apply hX.after); exact rfl)
    | with_reducible apply State.functionStop_fr
    | with_reducible apply State.vfFlr_fr
    | split

theorem State.vfEnable_fr {X : Nat} {s0 : State} {s : State} {a1 : ℕ} (h : Fr X s0 s) (hX : Sub 0x3c40d970000cc0 X) :
    Fr X s0 (State.vfEnable s a1) := by
  unfold State.vfEnable
  repeat' first
    | with_reducible assumption
    | with_reducible apply State.functionReset_fr
    | (with_reducible apply Fr.hif_; (on_goal 1 => (first | with_reducible assumption | with_reducible apply State.functionReset_fr | with_reducible apply Fr.foldl | with_reducible apply Fr.foldl_fst | with_reducible apply Fr.foldl_snd | with_reducible refine Fr.of_snd (by assumption) ?_)))
    | (intro x)
    | ((with_reducible apply hX.bit); exact rfl)

theorem execVfFlr_fr {X : Nat} {s0 : State} {a0 : ℕ} {s : State} (h : Fr X s0 s) (hX : Sub 0x3c40d970000cc0 X) {t : State}
    (ht : execVfFlr a0 s = .next t) : Fr X s0 t := by
  unfold execVfFlr at ht
  obtain rfl := Host.Outcome.next.inj ht
  repeat' first
    | with_reducible assumption
    | ((with_reducible apply hX.after); exact rfl)
    | with_reducible apply State.inPool_fr
    | with_reducible apply State.functionReset_fr
    | (intro x)

theorem execVfEnable_fr {X : Nat} {s0 : State} {a0 : ℕ} {s : State} (h : Fr X s0 s) (hX : Sub 0x3c40d970000cc0 X) {t : State}
    (ht : execVfEnable a0 s = .next t) : Fr X s0 t := by
  unfold execVfEnable at ht
  obtain rfl := Host.Outcome.next.inj ht
  repeat' first
    | with_reducible assumption
    | ((with_reducible apply hX.after); exact rfl)
    | with_reducible apply State.inPool_fr
    | with_reducible apply State.vfEnable_fr
    | (intro x)

theorem State.setUnit_fr {X : Nat} {s0 : State} {s : State} {a1 : ℕ} {a2 : ℕ} {a3 : ℕ} (h : Fr X s0 s) (hX : Sub 0x400000 X) :
    Fr X s0 (State.setUnit s a1 a2 a3) := by
  unfold State.setUnit
  repeat' first
    | with_reducible assumption
    | with_reducible apply State.setFld_fr
    | ((with_reducible apply hX.ok); exact rfl)

theorem State.refuseEntry_fr {X : Nat} {s0 : State} {s : State} {a1 : ℕ} {a2 : ℕ} {a3 : ℕ} (h : Fr X s0 s) (hX : Sub 0x400000 X) :
    Fr X s0 (State.refuseEntry s a1 a2 a3) := by
  unfold State.refuseEntry
  repeat' first
    | with_reducible assumption
    | with_reducible apply State.setFld_fr
    | with_reducible apply State.bump_fr
    | ((with_reducible apply hX.ok); exact rfl)

theorem State.startEntry_fr {X : Nat} {s0 : State} {s : State} {a1 : ℕ} {a2 : ℕ} {a3 : ℕ} (h : Fr X s0 s) (hX : Sub 0x400400000 X) :
    Fr X s0 (State.startEntry s a1 a2 a3) := by
  unfold State.startEntry
  repeat' first
    | with_reducible assumption
    | ((with_reducible apply hX.after); exact rfl)
    | with_reducible apply State.onPower_fr
    | with_reducible apply State.setUnit_fr

theorem State.idleEntry_fr {X : Nat} {s0 s : State} {kind i target : Nat} {l : List Nat} (h : Fr X s0 s)
    (hX : Sub 0x400400000 X) : Fr X s0 (State.idleEntry s kind i target l) := by
  unfold State.idleEntry
  refine Fr.ite (fun _ => h) fun _ => ?_
  generalize s.entryCause kind i target = c
  cases c with
  | some c => exact State.refuseEntry_fr h (hX.after rfl)
  | none => exact State.startEntry_fr h (hX.after rfl)


theorem State.idleNap_fr {X : Nat} {s0 : State} {s : State} {a1 : ℕ} {a2 : ℕ} (h : Fr X s0 s) (hX : Sub 0x400400000 X) :
    Fr X s0 (State.idleNap s a1 a2) := by
  unfold State.idleNap
  repeat' first
    | with_reducible assumption
    | with_reducible apply State.idleEntry_fr

theorem State.idleOff_fr {X : Nat} {s0 : State} {s : State} {a1 : ℕ} {a2 : ℕ} (h : Fr X s0 s) (hX : Sub 0x400400000 X) :
    Fr X s0 (State.idleOff s a1 a2) := by
  unfold State.idleOff
  repeat' first
    | with_reducible assumption
    | with_reducible apply State.idleEntry_fr
    | split

theorem State.unitReached_fr {X : Nat} {s0 : State} {s : State} {a1 : ℕ} {a2 : ℕ} (h : Fr X s0 s) (hX : Sub 0x440000000 X) :
    Fr X s0 (State.unitReached s a1 a2) := by
  unfold State.unitReached
  repeat' first
    | with_reducible assumption
    | ((with_reducible apply hX.after); exact rfl)
    | with_reducible apply State.finish_fr
    | with_reducible apply State.onPower_fr
    | (extract_lets +onlyGivenNames x; clear_value x)
    | split

theorem State.unitEntered_fr {X : Nat} {s0 : State} {s : State} {a1 : ℕ} {a2 : ℕ} (h : Fr X s0 s) (hX : Sub 0x440400000 X) :
    Fr X s0 (State.unitEntered s a1 a2) := by
  unfold State.unitEntered
  repeat' first
    | with_reducible assumption
    | ((with_reducible apply hX.after); exact rfl)
    | with_reducible apply State.unitReached_fr
    | with_reducible apply State.onPower_fr
    | with_reducible apply State.bump_fr
    | with_reducible apply State.setUnit_fr
    | (extract_lets +onlyGivenNames x; first
        | (refine Fr.cut (X := X) (s0 := s0) (s := x) ?_ (fun hx => ?_); (on_goal 2 => clear_value x); (on_goal 1 => (unfold x; clear x)))
        | clear_value x)
    | split
    | ((with_reducible apply hX.ok); exact rfl)

theorem State.unitWakes_fr {X : Nat} {s0 : State} {s : State} {a1 : ℕ} {a2 : ℕ} {a3 : ℕ} (h : Fr X s0 s) (hX : Sub 0x400400000 X) :
    Fr X s0 (State.unitWakes s a1 a2 a3) := by
  unfold State.unitWakes
  repeat' first
    | with_reducible assumption
    | ((with_reducible apply hX.after); exact rfl)
    | with_reducible apply State.onPower_fr
    | with_reducible apply State.wakeUnit_fr
    | split
    | dsimp only

theorem State.unitSuperseded_fr {X : Nat} {s0 : State} {s : State} {a1 : ℕ} {a2 : ℕ} (h : Fr X s0 s) (hX : Sub 0x440000000 X) :
    Fr X s0 (State.unitSuperseded s a1 a2) := by
  unfold State.unitSuperseded
  repeat' first
    | with_reducible assumption
    | ((with_reducible apply hX.after); exact rfl)
    | with_reducible apply State.finish_fr
    | with_reducible apply State.onPower_fr
    | split

theorem State.unitPower_fr {X : Nat} {s0 : State} {s : State} {a1 : Op} (h : Fr X s0 s) (hX : Sub 0x440420000 X) :
    Fr X s0 (State.unitPower s a1) := by
  unfold State.unitPower
  repeat' first
    | with_reducible assumption
    | ((with_reducible apply hX.after); exact rfl)
    | with_reducible apply State.finish_fr
    | with_reducible apply State.setFlag_fr
    | with_reducible apply State.onPower_fr
    | with_reducible apply State.unitSuperseded_fr
    | with_reducible apply State.unitReached_fr
    | with_reducible apply State.setLaneSt_fr
    | with_reducible apply State.unitWakes_fr
    | with_reducible apply State.refuseEntry_fr
    | with_reducible apply State.startEntry_fr
    | (intro x)
    | (extract_lets +onlyGivenNames x; first
        | (refine Fr.cut (X := X) (s0 := s0) (s := x) ?_ (fun hx => ?_); (on_goal 2 => clear_value x); (on_goal 1 => (unfold x; clear x)))
        | (refine Fr.cut_fn (X := X) (s0 := s0) (f := x) ?_ (fun hx => ?_); (on_goal 2 => clear_value x); (on_goal 1 => (unfold x; clear x)))
        | clear_value x)
    | split
    | ((with_reducible apply hX.ok); exact rfl)
    | with_reducible apply_assumption -exfalso -symm

theorem State.hbmWatch_fr {X : Nat} {s0 : State} {s : State} {a1 : ℕ} {a2 : ℤ} (h : Fr X s0 s) (hX : Sub 0x2c000470400000 X) :
    Fr X s0 (State.hbmWatch s a1 a2) := by
  unfold State.hbmWatch
  repeat' first
    | with_reducible assumption
    | ((with_reducible apply hX.after); exact rfl)
    | with_reducible apply State.memThreshold_fr
    | with_reducible apply State.unitWakes_fr
    | with_reducible apply State.takeReading_fr
    | (extract_lets +onlyGivenNames x; (refine Fr.cut (X := X) (s0 := s0) (s := x) ?_ (fun hx => ?_); (on_goal 2 => clear_value x); (on_goal 1 => (unfold x; clear x))))
    | split

theorem State.alarmFire_fr {X : Nat} {s0 : State} {s : State} {a1 : ℕ} (h : Fr X s0 s) (hX : Sub 0x2c000470400000 X) :
    Fr X s0 (State.alarmFire s a1) := by
  unfold State.alarmFire
  repeat' first
    | with_reducible assumption
    | ((with_reducible apply hX.after); exact rfl)
    | with_reducible apply State.unitWakes_fr
    | with_reducible apply State.setFld_fr
    | with_reducible apply State.onPower_fr
    | with_reducible apply State.raise_fr
    | with_reducible apply Fr.foldl
    | (intro x)
    | (extract_lets +onlyGivenNames x; first
        | (refine Fr.cut (X := X) (s0 := s0) (s := x) ?_ (fun hx => ?_); (on_goal 2 => clear_value x); (on_goal 1 => (unfold x; clear x)))
        | (refine Sub.cut (X := X) (f := x) ?_ (fun hx => ?_); (on_goal 2 => clear_value x); (on_goal 1 => (unfold x; clear x)))
        | clear_value x)
    | split
    | ((with_reducible apply hX.ok); exact rfl)

theorem State.alarmsDue_fr {X : Nat} {s0 : State} {s : State} (h : Fr X s0 s) (hX : Sub 0x2c000470400000 X) :
    Fr X s0 (State.alarmsDue s) := by
  unfold State.alarmsDue
  repeat' first
    | with_reducible assumption
    | with_reducible apply State.alarmFire_fr
    | with_reducible apply Fr.foldl
    | (intro x)

theorem State.hbmLost_fr {X : Nat} {s0 : State} {s : State} (h : Fr X s0 s) (hX : Sub 0x2c080178000000 X) :
    Fr X s0 (State.hbmLost s) := by
  unfold State.hbmLost
  repeat' first
    | with_reducible assumption
    | ((with_reducible apply hX.after); exact rfl)
    | with_reducible apply State.slotsLost_fr
    | with_reducible apply State.onBoot_fr
    | with_reducible apply State.onMem_fr
    | with_reducible apply State.raise_fr
    | with_reducible apply State.setLost_fr
    | exact fun _ => ⟨rfl, rfl, rfl, rfl⟩
    | (extract_lets +onlyGivenNames x; first
        | (refine Fr.cut (X := X) (s0 := s0) (s := x) ?_ (fun hx => ?_); (on_goal 2 => clear_value x); (on_goal 1 => (unfold x; clear x)))
        | clear_value x)
    | split

theorem State.railFault_fr {X : Nat} {s0 : State} {s : State} {a1 : ℕ} {a2 : ℕ} (h : Fr X s0 s) (hX : Sub 0x3fffffffffffff X) :
    Fr X s0 (State.railFault s a1 a2) := by
  unfold State.railFault
  repeat' first
    | with_reducible assumption
    | ((with_reducible apply hX.after); exact rfl)
    | with_reducible apply State.coldReset_fr
    | with_reducible apply State.onBoot_fr
    | with_reducible apply State.coreStops_fr
    | with_reducible apply State.raise_fr
    | with_reducible apply State.laneDark_fr
    | with_reducible apply State.linkDown_fr
    | with_reducible apply State.setLaneSt_fr
    | with_reducible apply State.lineRefresh_fr
    | with_reducible apply State.groupStop_fr
    | with_reducible apply State.dccHold_fr
    | with_reducible apply State.hbmLost_fr
    | with_reducible apply Fr.foldl
    | (intro x)
    | (extract_lets +onlyGivenNames x; (refine Fr.cut (X := X) (s0 := s0) (s := x) ?_ (fun hx => ?_); (on_goal 2 => clear_value x); (on_goal 1 => (unfold x; clear x))))
    | split

theorem State.laneTrains_fr {X : Nat} {s0 : State} {s : State} {a1 : ℕ} (h : Fr X s0 s) (hX : Sub 0x8000400420000 X) :
    Fr X s0 (State.laneTrains s a1) := by
  unfold State.laneTrains
  repeat' first
    | with_reducible assumption
    | ((with_reducible apply hX.after); exact rfl)
    | with_reducible apply State.setLaneSt_fr
    | with_reducible apply State.liftCore_fr
    | split

theorem State.railGood_fr {X : Nat} {s0 : State} {s : State} {a1 : ℕ} (h : Fr X s0 s) (hX : Sub 0x2c203c784b00c0 X) :
    Fr X s0 (State.railGood s a1) := by
  unfold State.railGood
  repeat' first
    | with_reducible assumption
    | ((with_reducible apply hX.after); exact rfl)
    | with_reducible apply State.laneTrains_fr
    | with_reducible apply State.onBoot_fr
    | with_reducible apply State.groupAcquire_fr
    | with_reducible apply State.onPower_fr
    | with_reducible apply Fr.foldl
    | (intro x)
    | (extract_lets +onlyGivenNames x; (refine Fr.cut (X := X) (s0 := s0) (s := x) ?_ (fun hx => ?_); (on_goal 2 => clear_value x); (on_goal 1 => (unfold x; clear x))))
    | split

theorem State.hbmTrained_fr {X : Nat} {s0 s : State} {failed : List Nat} {flash : Bytes} (h : Fr X s0 s)
    (hX : Sub 0x10000548000010 X) : Fr X s0 (State.hbmTrained s failed flash) := by
  unfold State.hbmTrained
  extract_lets s1 gone s2 blocks s3
  have h1 : Fr X s0 s1 := Fr.foldl h fun s r hs => by
    have h' : Fr X s0 ((s.setUnitSt r.unit usRETIRED).onMem fun m => { m with retires := m.retires.filter (· != r) }) :=
      State.onMem_fr (State.setUnitSt_fr hs (hX.after rfl)) (hX.after rfl) fun _ => ⟨rfl, rfl, rfl, rfl⟩
    cases hr : r.op with
    | none => simpa only [hr] using h'
    | some k => simpa only [hr] using State.finish_fr h' (hX.after rfl)
  have h2 : Fr X s0 s2 := State.hbmStage_fr
    (State.onMem_bytes h1 (hX.after rfl) fun _ hm => Memory.wf_filter _ _ hm) (hX.after rfl)
  have h3 : Fr X s0 s3 := State.onPower_fr (Fr.ite (fun _ => h2) fun _ => State.setLost_fr h2 (hX.after rfl)) (hX.after rfl)
  clear_value s3
  split
  · exact State.onBoot_fr h3 (hX.after rfl)
  · exact h3


theorem State.hbmTrainDone_fr {X : Nat} {s0 : State} {s : State} {a1 : Option ℕ} {a2 : List ℕ} {a3 : Bytes} (h : Fr X s0 s) (hX : Sub 0x10000548400010 X) :
    Fr X s0 (State.hbmTrainDone s a1 a2 a3) := by
  unfold State.hbmTrainDone
  repeat' first
    | with_reducible assumption
    | ((with_reducible apply hX.after); exact rfl)
    | with_reducible apply State.hbmTrained_fr
    | with_reducible apply State.unitReached_fr
    | with_reducible apply State.setUnit_fr
    | with_reducible apply State.onPower_fr
    | split

theorem execUnitIdleNap_fr {X : Nat} {s0 : State} {a0 : ℕ} {a1 : ℕ} {s : State} (h : Fr X s0 s) (hX : Sub 0x400400000 X) {t : State}
    (ht : execUnitIdleNap a0 a1 s = .next t) : Fr X s0 t := by
  unfold execUnitIdleNap at ht
  obtain rfl := Host.Outcome.next.inj ht
  repeat' first
    | with_reducible assumption
    | ((with_reducible apply hX.after); exact rfl)
    | with_reducible apply State.inCore_fr
    | with_reducible apply State.idleNap_fr
    | (intro x)

theorem execUnitIdleOff_fr {X : Nat} {s0 : State} {a0 : ℕ} {a1 : ℕ} {s : State} (h : Fr X s0 s) (hX : Sub 0x400400000 X) {t : State}
    (ht : execUnitIdleOff a0 a1 s = .next t) : Fr X s0 t := by
  unfold execUnitIdleOff at ht
  obtain rfl := Host.Outcome.next.inj ht
  repeat' first
    | with_reducible assumption
    | ((with_reducible apply hX.after); exact rfl)
    | with_reducible apply State.inCore_fr
    | with_reducible apply State.idleOff_fr
    | (intro x)

theorem execUnitStateEntered_fr {X : Nat} {s0 : State} {a0 : ℕ} {a1 : ℕ} {s : State} (h : Fr X s0 s) (hX : Sub 0x440400000 X) {t : State}
    (ht : execUnitStateEntered a0 a1 s = .next t) : Fr X s0 t := by
  unfold execUnitStateEntered at ht
  obtain rfl := Host.Outcome.next.inj ht
  repeat' first
    | with_reducible assumption
    | ((with_reducible apply hX.after); exact rfl)
    | with_reducible apply State.inCore_fr
    | with_reducible apply State.unitEntered_fr
    | (intro x)

theorem execUnitWake_fr {X : Nat} {s0 : State} {a0 : ℕ} {a1 : ℕ} {s : State} (h : Fr X s0 s) (hX : Sub 0x400400000 X) {t : State}
    (ht : execUnitWake a0 a1 s = .next t) : Fr X s0 t := by
  unfold execUnitWake at ht
  obtain rfl := Host.Outcome.next.inj ht
  repeat' first
    | with_reducible assumption
    | ((with_reducible apply hX.after); exact rfl)
    | with_reducible apply State.inCore_fr
    | with_reducible apply State.unitWakes_fr
    | (intro x)

theorem execUnitPower_fr {X : Nat} {s0 : State} {a0 : OpKey} {s : State} (h : Fr X s0 s) (hX : Sub 0x440420000 X) {t : State}
    (ht : execUnitPower a0 s = .next t) : Fr X s0 t := by
  unfold execUnitPower at ht
  obtain rfl := Host.Outcome.next.inj ht
  repeat' first
    | with_reducible assumption
    | ((with_reducible apply hX.after); exact rfl)
    | with_reducible apply State.mgmtPF_fr
    | with_reducible apply State.unitPower_fr
    | (intro x)

theorem execHbmWatchSample_fr {X : Nat} {s0 : State} {a0 : ℕ} {a1 : ℤ} {s : State} (h : Fr X s0 s) (hX : Sub 0x2c000470400000 X) {t : State}
    (ht : execHbmWatchSample a0 a1 s = .next t) : Fr X s0 t := by
  unfold execHbmWatchSample at ht
  obtain rfl := Host.Outcome.next.inj ht
  repeat' first
    | with_reducible assumption
    | ((with_reducible apply hX.after); exact rfl)
    | with_reducible apply State.inCore_fr
    | with_reducible apply State.hbmWatch_fr
    | (intro x)

theorem execAlarmFire_fr {X : Nat} {s0 : State} {a0 : ℕ} {s : State} (h : Fr X s0 s) (hX : Sub 0x2c000470400000 X) {t : State}
    (ht : execAlarmFire a0 s = .next t) : Fr X s0 t := by
  unfold execAlarmFire at ht
  obtain rfl := Host.Outcome.next.inj ht
  repeat' first
    | with_reducible assumption
    | ((with_reducible apply hX.after); exact rfl)
    | with_reducible apply State.inCore_fr
    | with_reducible apply State.alarmFire_fr
    | (intro x)

theorem execAlarmHoldExpire_fr {X : Nat} {s0 : State} {a0 : ℕ} {s : State} (h : Fr X s0 s) (hX : Sub 0x400000000 X) {t : State}
    (ht : execAlarmHoldExpire a0 s = .next t) : Fr X s0 t := by
  unfold execAlarmHoldExpire at ht
  obtain rfl := Host.Outcome.next.inj ht
  repeat' first
    | with_reducible assumption
    | ((with_reducible apply hX.after); exact rfl)
    | with_reducible apply State.inCore_fr
    | with_reducible apply State.onPower_fr
    | (intro x)

theorem execPwrUnitClr_fr {X : Nat} {s0 : State} {a0 : View} {a1 : Word} {s : State} (h : Fr X s0 s) (hX : Sub 0x4400000 X) {t : State}
    (ht : execPwrUnitClr a0 a1 s = .next t) : Fr X s0 t := by
  unfold execPwrUnitClr at ht
  obtain rfl := Host.Outcome.next.inj ht
  repeat' first
    | with_reducible assumption
    | ((with_reducible apply hX.after); exact rfl)
    | with_reducible apply State.selClear_fr
    | with_reducible apply State.setFld_fr
    | (intro x)
    | ((with_reducible apply hX.ok); exact rfl)

theorem execRailFault_fr {X : Nat} {s0 : State} {a0 : ℕ} {a1 : ℕ} {a2 : ℕ} {s : State} (h : Fr X s0 s) (hX : Sub 0x3fffffffffffff X) {t : State}
    (ht : execRailFault a0 a1 a2 s = .next t) : Fr X s0 t := by
  unfold execRailFault at ht
  obtain rfl := Host.Outcome.next.inj ht
  repeat' first
    | with_reducible assumption
    | ((with_reducible apply hX.after); exact rfl)
    | with_reducible apply State.pooled_fr
    | with_reducible apply State.railFault_fr
    | (intro x)
    | split

theorem execRailGood_fr {X : Nat} {s0 : State} {a0 : ℕ} {s : State} (h : Fr X s0 s) (hX : Sub 0x3c20fd784b0cc0 X) {t : State}
    (ht : execRailGood a0 s = .next t) : Fr X s0 t := by
  unfold execRailGood at ht
  obtain rfl := Host.Outcome.next.inj ht
  repeat' first
    | with_reducible assumption
    | ((with_reducible apply hX.after); exact rfl)
    | with_reducible apply State.pooled_fr
    | with_reducible apply State.railGood_fr
    | (intro x)

theorem execHbmTrainDone_fr {X : Nat} {s0 : State} {a0 : Option ℕ} {a1 : List ℕ} {a2 : Bytes} {s : State} (h : Fr X s0 s) (hX : Sub 0x10000548400010 X) {t : State}
    (ht : execHbmTrainDone a0 a1 a2 s = .next t) : Fr X s0 t := by
  unfold execHbmTrainDone at ht
  obtain rfl := Host.Outcome.next.inj ht
  repeat' first
    | with_reducible assumption
    | ((with_reducible apply hX.after); exact rfl)
    | with_reducible apply State.inCore_fr
    | with_reducible apply State.hbmTrainDone_fr
    | (intro x)

theorem State.binsSuspect_fr {X : Nat} {s0 : State} {s : State} (h : Fr X s0 s) (hX : Sub 0x80000000000 X) :
    Fr X s0 (State.binsSuspect s) := by
  unfold State.binsSuspect
  repeat' first
    | with_reducible assumption
    | with_reducible apply State.setLgrp_fr
    | with_reducible apply Fr.foldl
    | (intro x)
    | (extract_lets +onlyGivenNames x; clear_value x)
    | split

theorem State.timeStep_fr {X : Nat} {s0 : State} {s : State} {a1 : ℤ} (h : Fr X s0 s) (hX : Sub 0x2c080670600000 X) :
    Fr X s0 (State.timeStep s a1) := by
  unfold State.timeStep
  repeat' first
    | with_reducible assumption
    | ((with_reducible apply hX.after); exact rfl)
    | with_reducible apply State.alarmsDue_fr
    | with_reducible apply State.binsSuspect_fr
    | with_reducible apply State.bump_fr
    | with_reducible apply State.addDelta_fr
    | ((with_reducible apply hX.ok); exact rfl)

theorem State.stepRequest_fr {X : Nat} {s0 : State} {s : State} {a1 : ℤ} (h : Fr X s0 s) (hX : Sub 0x2c080670600000 X) :
    Fr X s0 (State.stepRequest s a1) := by
  unfold State.stepRequest
  repeat' first
    | with_reducible assumption
    | ((with_reducible apply hX.after); exact rfl)
    | with_reducible refine State.guardStep_fr_apply ?_ ?_ (by assumption)
    | with_reducible refine State.guardStep_fr_refuse ?_ ?_ (by assumption)
    | with_reducible apply State.timeStep_fr
    | split

theorem State.timeConfirm_fr {X : Nat} {s0 : State} {s : State} {a1 : Op} (h : Fr X s0 s) (hX : Sub 0x2c080670600000 X) :
    Fr X s0 (State.timeConfirm s a1) := by
  unfold State.timeConfirm
  repeat' first
    | with_reducible assumption
    | ((with_reducible apply hX.after); exact rfl)
    | with_reducible apply State.finish_fr
    | with_reducible apply State.raise_fr
    | with_reducible apply State.timeStep_fr
    | with_reducible apply State.clearCandidate_fr
    | (extract_lets +onlyGivenNames x; clear_value x)
    | split

theorem execTimeStepRequest_fr {X : Nat} {s0 : State} {a0 : ℤ} {s : State} (h : Fr X s0 s) (hX : Sub 0x2c080670600000 X) {t : State}
    (ht : execTimeStepRequest a0 s = .next t) : Fr X s0 t := by
  unfold execTimeStepRequest at ht
  obtain rfl := Host.Outcome.next.inj ht
  repeat' first
    | with_reducible assumption
    | ((with_reducible apply hX.after); exact rfl)
    | with_reducible apply State.inAon_fr
    | with_reducible apply State.stepRequest_fr
    | (intro x)

theorem execTimeConfirm_fr {X : Nat} {s0 : State} {a0 : OpKey} {s : State} (h : Fr X s0 s) (hX : Sub 0x2c080670600000 X) {t : State}
    (ht : execTimeConfirm a0 s = .next t) : Fr X s0 t := by
  unfold execTimeConfirm at ht
  obtain rfl := Host.Outcome.next.inj ht
  repeat' first
    | with_reducible assumption
    | ((with_reducible apply hX.after); exact rfl)
    | with_reducible apply State.mgmtPF_fr
    | with_reducible apply State.timeConfirm_fr
    | (intro x)

theorem execPtpMessage_fr {X : Nat} {s0 : State} {a0 : PtpMsg} {s : State} (h : Fr X s0 s) (hX : Sub 0x8000200200000 X) {t : State}
    (ht : execPtpMessage a0 s = .next t) : Fr X s0 t := by
  unfold execPtpMessage at ht
  obtain rfl := Host.Outcome.next.inj ht
  repeat' first
    | with_reducible assumption
    | ((with_reducible apply hX.after); exact rfl)
    | with_reducible apply State.inAon_fr
    | with_reducible apply State.ptpMessage_fr
    | with_reducible apply State.inCore_fr
    | (intro x)
    | split

theorem State.ringOn_fr {X : Nat} {s0 : State} {s : State} {a1 : ℕ} {a2 : ℕ} (h : Fr X s0 s) (hX : Sub 0x8000040000000 X) :
    Fr X s0 (State.ringOn s a1 a2) := by
  unfold State.ringOn
  repeat' first
    | with_reducible assumption
    | ((with_reducible apply hX.after); exact rfl)
    | with_reducible apply State.setRing_fr
    | with_reducible apply State.postReady_fr
    | (with_reducible apply Fr.hif_; (on_goal 1 => (first | with_reducible assumption | with_reducible apply State.setRing_fr | with_reducible apply State.postReady_fr | with_reducible refine Fr.of_snd (by assumption) ?_)))
    | (extract_lets +onlyGivenNames x; first
        | (refine Fr.cut (X := X) (s0 := s0) (s := x) ?_ (fun hx => ?_); (on_goal 2 => clear_value x); (on_goal 1 => (unfold x; clear x)))
        | clear_value x)
    | split
    | ((with_reducible apply hX.bit); exact rfl)

theorem State.ringOff_fr {X : Nat} {s0 : State} {s : State} {a1 : ℕ} (h : Fr X s0 s) (hX : Sub 0x40000000 X) :
    Fr X s0 (State.ringOff s a1) := by
  unfold State.ringOff
  repeat' first
    | with_reducible assumption
    | with_reducible apply State.setRing_fr

theorem State.domainOff_fr {X : Nat} {s0 : State} {s : State} {a1 : ℕ} (h : Fr X s0 s) (hX : Sub 0x3d0edd70402cc0 X) :
    Fr X s0 (State.domainOff s a1) := by
  unfold State.domainOff
  repeat' first
    | with_reducible assumption
    | ((with_reducible apply hX.after); exact rfl)
    | with_reducible apply State.runEnd_fr
    | with_reducible apply State.collEnd_fr
    | with_reducible apply State.stopXfer_fr
    | with_reducible apply State.setOp_fr
    | with_reducible apply State.dropTlb_fr
    | with_reducible apply Fr.foldl
    | (intro x)
    | (extract_lets +onlyGivenNames x; clear_value x)
    | split

theorem State.hbmAgain_fr {X : Nat} {s0 : State} {s : State} (h : Fr X s0 s) (hX : Sub 0x14000100000010 X) :
    Fr X s0 (State.hbmAgain s) := by
  unfold State.hbmAgain
  repeat' first
    | with_reducible assumption
    | ((with_reducible apply hX.after); exact rfl)
    | with_reducible apply State.openRange_fr
    | with_reducible apply State.assignHbm_fr

theorem State.groupStart_fr {X : Nat} {s0 : State} {s : State} {a1 : ℕ} (h : Fr X s0 s) (hX : Sub 0x2c203c704b00c0 X) :
    Fr X s0 (State.groupStart s a1) := by
  unfold State.groupStart
  repeat' first
    | with_reducible assumption
    | with_reducible apply State.groupAcquire_fr
    | split

theorem State.laneStart_fr {X : Nat} {s0 : State} {s : State} {a1 : ℕ} (h : Fr X s0 s) (hX : Sub 0x200440020000 X) :
    Fr X s0 (State.laneStart s a1) := by
  unfold State.laneStart
  repeat' first
    | with_reducible assumption
    | ((with_reducible apply hX.after); exact rfl)
    | with_reducible apply State.unitReached_fr
    | with_reducible apply State.setLaneSt_fr
    | (with_reducible apply Fr.lanes_; (on_goal 1 => (first | with_reducible assumption | with_reducible apply State.unitReached_fr | with_reducible apply State.setLaneSt_fr | with_reducible refine Fr.of_snd (by assumption) ?_)))
    | split
    | ((with_reducible apply hX.bit); exact rfl)

theorem State.bringUp_fr {X : Nat} {s0 : State} {s : State} (h : Fr X s0 s) (hX : Sub 0x2c283c704f00c0 X) :
    Fr X s0 (State.bringUp s) := by
  unfold State.bringUp
  repeat' first
    | with_reducible assumption
    | ((with_reducible apply hX.after); exact rfl)
    | with_reducible apply State.lineRefresh_fr
    | with_reducible apply State.laneStart_fr
    | with_reducible apply State.groupStart_fr
    | with_reducible apply Fr.foldl
    | (intro x)
    | split

theorem State.octetLive_fr {X : Nat} {s0 : State} {a0 : State} {s : State} {a2 : ℕ} (h : Fr X s0 s) (hX : Sub 0x2c283c704f00c0 X) :
    Fr X s0 (State.octetLive a0 s a2) := by
  unfold State.octetLive
  repeat' first
    | with_reducible assumption
    | ((with_reducible apply hX.after); exact rfl)
    | with_reducible apply State.lineRefresh_fr
    | with_reducible apply State.laneStart_fr
    | with_reducible apply State.showTraffic_fr
    | with_reducible apply State.setLaneSt_fr
    | with_reducible apply State.linkDown_fr
    | with_reducible apply Fr.foldl
    | (intro x)
    | (extract_lets +onlyGivenNames x; clear_value x)
    | split

theorem State.lineSuspect_fr {X : Nat} {s0 : State} {s : State} {a1 : ℕ} (h : Fr X s0 s) (hX : Sub 0x80000000000 X) :
    Fr X s0 (State.lineSuspect s a1) := by
  unfold State.lineSuspect
  repeat' first
    | with_reducible assumption
    | with_reducible apply State.setLgrp_fr

theorem State.lineLive_fr {X : Nat} {s0 : State} {a0 : State} {s : State} {a2 : ℕ} (h : Fr X s0 s) (hX : Sub 0x3c0829700c0040 X) :
    Fr X s0 (State.lineLive a0 s a2) := by
  unfold State.lineLive
  repeat' first
    | with_reducible assumption
    | ((with_reducible apply hX.after); exact rfl)
    | with_reducible apply State.lineEnable_fr
    | with_reducible apply State.lineDisable_fr
    | with_reducible apply State.lineSuspect_fr
    | split

theorem State.dccLive_fr {X : Nat} {s0 : State} {a0 : State} {s : State} {a2 : ℕ} {a3 : Fld} {a4 : Fld} (h : Fr X s0 s) (hX : Sub 0x80000040000 X) :
    Fr X s0 (State.dccLive a0 s a2 a3 a4) := by
  unfold State.dccLive
  repeat' first
    | with_reducible assumption
    | ((with_reducible apply hX.after); exact rfl)
    | with_reducible apply State.setFlag_fr
    | with_reducible apply State.onLine_fr
    | split
    | ((with_reducible apply hX.ok); exact rfl)
    | (with_reducible apply Sub.nth)

theorem State.bucketsNow_fr {X : Nat} {s0 : State} {s : State} (h : Fr X s0 s) (hX : Sub 0x20000000 X) :
    Fr X s0 (State.bucketsNow s) := by
  unfold State.bucketsNow
  repeat' first
    | with_reducible assumption
    | with_reducible apply State.setBucket_fr
    | with_reducible apply Fr.foldl
    | (intro x)

theorem State.watchLive_fr {X : Nat} {s0 : State} {a0 : State} {s : State} (h : Fr X s0 s) (hX : Sub 0x8000000000 X) :
    Fr X s0 (State.watchLive a0 s) := by
  unfold State.watchLive
  repeat' first
    | with_reducible assumption
    | with_reducible apply State.onCol_fr

theorem State.classesLive_fr {X : Nat} {s0 : State} {a0 : State} {s : State} {a2 : ℕ} (h : Fr X s0 s) (hX : Sub 0x1000000000 X) :
    Fr X s0 (State.classesLive a0 s a2) := by
  unfold State.classesLive
  repeat' first
    | with_reducible assumption
    | with_reducible apply State.reclass_fr
    | with_reducible apply Fr.foldl
    | (intro x)
    | split

theorem State.wentLive_fr {X : Nat} {s0 old s : State} {v : View} {b : Blk} {g : Nat} {c : AMap Nat Word} (h : Fr X s0 s)
    (hX : Sub 0x3d3eff704f2dd0 X) : Fr X s0 (State.wentLive old s v b g c) := by
  unfold State.wentLive
  split
  · exact Fr.ite (fun _ => State.ringOn_fr h (hX.after rfl)) fun _ => Fr.ite (fun _ => State.ringOff_fr h (hX.after rfl)) fun _ => h
  · exact Fr.ite (fun _ => State.onMem_fr h (hX.after rfl) fun _ => ⟨rfl, rfl, rfl, rfl⟩)
      fun _ => Fr.ite (fun _ => State.domainOff_fr h (hX.after rfl)) fun _ => h
  · exact State.hbmAgain_fr h (hX.after rfl)
  · exact State.ceJudgeAll_fr h (hX.after rfl)
  · exact State.ceJudgeAll_fr h (hX.after rfl)
  · exact State.settRaise_fr h (hX.after rfl)
  · exact State.classesLive_fr h (hX.after rfl)
  · exact State.setOutq_fr h (hX.after rfl)
  · exact Fr.ite (fun _ => State.policerEnable_fr h (hX.after rfl)) fun _ => h
  · exact State.histClearAll_fr h (hX.bit rfl)
  · exact Fr.ite (fun _ => h) fun _ => State.llrReset_fr h (hX.after rfl)
  · exact State.collSettle_fr (State.place_fr h (hX.after rfl)) (hX.after rfl)
  · exact State.collSettle_fr h (hX.after rfl)
  · exact State.watchLive_fr h (hX.after rfl)
  · exact Fr.ite (fun _ => State.groupStart_fr h (hX.after rfl))
      fun _ => Fr.ite (fun _ => State.unitReached_fr (State.groupStop_fr h (hX.after rfl)) (hX.after rfl)) fun _ => h
  · exact State.octetLive_fr h (hX.after rfl)
  · exact State.lineLive_fr h (hX.after rfl)
  · exact State.lineRefresh_fr (State.lineSuspect_fr h (hX.after rfl)) (hX.after rfl)
  · exact State.dccLive_fr (State.dccLive_fr h (hX.after rfl)) (hX.after rfl)
  · exact Fr.ite (fun _ => Fr.ite (fun _ => State.linkFresh_fr h (hX.after rfl)) fun _ => State.showLink_fr h (hX.after rfl))
      fun _ => Fr.ite (fun _ => State.linkDrop_fr h (hX.after rfl)) fun _ => h
  · exact Fr.ite (fun _ => h) fun _ => Fr.time_ h (hX.bit rfl) id
  · exact State.setPoint_fr h (hX.after rfl)
  · exact Fr.ite (fun _ => State.alarmFire_fr (State.onPower_fr h (hX.after rfl)) (hX.after rfl))
      fun _ => State.onPower_fr h (hX.after rfl)
  · exact h


theorem State.mergeLive_fr {X : Nat} {s0 : State} {s : State} {a1 : View} {a2 : Blk} {a3 : ℕ} {a4 : AMap ℕ Word} (h : Fr X s0 s) (hb2 : okBlk X a2 = true) (hX : Sub 0x0 X) :
    Fr X s0 (State.mergeLive s a1 a2 a3 a4) := by
  unfold State.mergeLive
  repeat' first
    | with_reducible assumption
    | with_reducible apply State.setReg_fr
    | with_reducible apply Fr.foldl
    | (intro x)
    | split

theorem State.goLive_fr {X : Nat} {s0 : State} {s : State} {a1 : View} {a2 : Blk} {a3 : ℕ} {a4 : AMap ℕ Word} (h : Fr X s0 s) (hb2 : okBlk X a2 = true) (hX : Sub 0x3d3eff704f2dd0 X) :
    Fr X s0 (State.goLive s a1 a2 a3 a4) := by
  unfold State.goLive
  repeat' first
    | with_reducible assumption
    | ((with_reducible apply hX.after); exact rfl)
    | with_reducible apply State.wentLive_fr
    | with_reducible apply State.bucketsNow_fr
    | with_reducible apply State.mergeLive_fr
    | split

theorem State.checkEnd_fr {X : Nat} {s0 : State} {s : State} {a1 : View} {a2 : Blk} {a3 : Bool} (h : Fr X s0 s) (hb2 : okBlk X a2 = true) (hX : Sub 0x3d3eff744f2dd0 X) :
    Fr X s0 (State.checkEnd s a1 a2 a3) := by
  unfold State.checkEnd
  repeat' first
    | with_reducible assumption
    | ((with_reducible apply hX.after); exact rfl)
    | with_reducible apply State.raise_fr
    | with_reducible apply State.setPort_fr
    | with_reducible apply State.goLive_fr
    | with_reducible apply Fr.foldl
    | (intro x)
    | (extract_lets +onlyGivenNames x; first
        | (refine Fr.cut (X := X) (s0 := s0) (s := x) ?_ (fun hx => ?_); (on_goal 2 => clear_value x); (on_goal 1 => (unfold x; clear x)))
        | clear_value x)
    | split

theorem State.boundary_fr {X : Nat} {s0 : State} {s : State} {a1 : View} {a2 : Blk} {a3 : ℕ} (h : Fr X s0 s) (hb2 : okBlk X a2 = true) (hX : Sub 0x3d3eff744f2dd0 X) :
    Fr X s0 (State.boundary s a1 a2 a3) := by
  unfold State.boundary
  repeat' first
    | with_reducible assumption
    | ((with_reducible apply hX.after); exact rfl)
    | with_reducible apply State.goLive_fr
    | with_reducible apply State.setPort_fr
    | (extract_lets +onlyGivenNames x; clear_value x)
    | split

theorem State.refillTick_fr {X : Nat} {s0 : State} {s : State} (h : Fr X s0 s) (hX : Sub 0x3d3eff77ffffff X) :
    Fr X s0 (State.refillTick s) := by
  unfold State.refillTick
  repeat' first
    | with_reducible assumption
    | ((with_reducible apply hX.after); exact rfl)
    | with_reducible apply State.refill_fr
    | with_reducible apply State.boundary_fr
    | with_reducible apply Fr.foldl
    | ((with_reducible apply hX.blk); exact rfl)
    | (intro x)

theorem State.boundaryCome_fr {X : Nat} {s0 : State} {s : State} {a1 : View} {a2 : Blk} {a3 : ℕ} (h : Fr X s0 s) (hb2 : okBlk X a2 = true) (hX : Sub 0x3d3eff77ffffff X) :
    Fr X s0 (State.boundaryCome s a1 a2 a3) := by
  unfold State.boundaryCome
  repeat' first
    | with_reducible assumption
    | ((with_reducible apply hX.after); exact rfl)
    | with_reducible apply State.refillTick_fr
    | with_reducible apply State.boundary_fr
    | split

theorem State.ctrlWrite_fr {X : Nat} {s0 : State} {s : State} {a1 : View} {a2 : Blk} {a3 : Word} (h : Fr X s0 s) (hX : Sub 0x4000000 X) :
    Fr X s0 (State.ctrlWrite s a1 a2 a3) := by
  unfold State.ctrlWrite
  repeat' first
    | with_reducible assumption
    | with_reducible apply State.commitAbandon_fr
    | with_reducible apply State.commitGo_fr
    | with_reducible apply State.onPort_fr
    | (extract_lets +onlyGivenNames x; (refine Fr.cut (X := X) (s0 := s0) (s := x) ?_ (fun hx => ?_); (on_goal 2 => clear_value x); (on_goal 1 => (unfold x; clear x))))
    | split

theorem State.pageWrite_fr {X : Nat} {s0 : State} {s : State} {a1 : View} {a2 : ℕ} {a3 : ℕ} {a4 : Word} (h : Fr X s0 s) (hX : Sub 0x40000000 X) :
    Fr X s0 (State.pageWrite s a1 a2 a3 a4) := by
  unfold State.pageWrite
  repeat' first
    | with_reducible assumption
    | with_reducible apply State.setRing_fr
    | (extract_lets +onlyGivenNames x; clear_value x)
    | split

theorem State.plainWrite_fr {X : Nat} {s0 : State} {s : State} {a1 : View} {a2 : RegTarget} {a3 : Word} (h : Fr X s0 s) (hX : Sub 0x2a000047ffffff X) :
    Fr X s0 (State.plainWrite s a1 a2 a3) := by
  unfold State.plainWrite
  repeat' first
    | with_reducible assumption
    | ((with_reducible apply hX.after); exact rfl)
    | with_reducible apply State.regWrite_fr
    | with_reducible apply State.pageWrite_fr
    | with_reducible apply State.msixWrite_fr
    | (with_reducible apply Fr.view_; (on_goal 1 => (first | with_reducible assumption | with_reducible apply State.regWrite_fr | with_reducible apply State.pageWrite_fr | with_reducible apply State.msixWrite_fr | with_reducible refine Fr.of_snd (by assumption) ?_)))
    | split
    | ((with_reducible apply hX.bit); exact rfl)

theorem State.wrongAccess_fr {X : Nat} {s0 : State} {s : State} {a1 : View} {a2 : RegTarget} {a3 : ℕ} {a4 : Bool} {a5 : Bool} (h : Fr X s0 s) (hX : Sub 0x8000004000000 X) :
    Fr X s0 (State.wrongAccess s a1 a2 a3 a4 a5) := by
  unfold State.wrongAccess
  repeat' first
    | with_reducible assumption
    | ((with_reducible apply hX.after); exact rfl)
    | with_reducible apply State.badAccess_fr
    | with_reducible apply State.emit_fr
    | (extract_lets +onlyGivenNames x; (refine Fr.cut (X := X) (s0 := s0) (s := x) ?_ (fun hx => ?_); (on_goal 2 => clear_value x); (on_goal 1 => (unfold x; clear x))))
    | split

theorem execRegWrite_fr {X : Nat} {s0 : State} {a0 : View} {a1 : RegTarget} {a2 : Word} {s : State} (h : Fr X s0 s) (hX : Sub 0x2a000047ffffff X) {t : State}
    (ht : execRegWrite a0 a1 a2 s = .next t) : Fr X s0 t := by
  unfold execRegWrite at ht
  obtain rfl := Host.Outcome.next.inj ht
  repeat' first
    | with_reducible assumption
    | with_reducible apply State.plainWrite_fr

theorem execRegAccessBad_fr {X : Nat} {s0 : State} {a0 : View} {a1 : RegTarget} {a2 : AccessSize} {a3 : Bool} {s : State} (h : Fr X s0 s) (hX : Sub 0x8000004000000 X) {t : State}
    (ht : execRegAccessBad a0 a1 a2 a3 s = .next t) : Fr X s0 t := by
  unfold execRegAccessBad at ht
  obtain rfl := Host.Outcome.next.inj ht
  repeat' first
    | with_reducible assumption
    | with_reducible apply State.wrongAccess_fr

theorem execAccessErrWrite_fr {X : Nat} {s0 : State} {a0 : View} {a1 : Blk} {a2 : Word} {s : State} (h : Fr X s0 s) (hX : Sub 0x4000000 X) {t : State}
    (ht : execAccessErrWrite a0 a1 a2 s = .next t) : Fr X s0 t := by
  unfold execAccessErrWrite at ht
  obtain rfl := Host.Outcome.next.inj ht
  repeat' first
    | with_reducible assumption
    | with_reducible apply State.onPort_fr
    | split

theorem execCommitGo_fr {X : Nat} {s0 : State} {a0 : View} {a1 : Blk} {a2 : Word} {s : State} (h : Fr X s0 s) (hX : Sub 0x4000000 X) {t : State}
    (ht : execCommitGo a0 a1 a2 s = .next t) : Fr X s0 t := by
  unfold execCommitGo at ht
  obtain rfl := Host.Outcome.next.inj ht
  repeat' first
    | with_reducible assumption
    | with_reducible apply State.ctrlWrite_fr

theorem execCommitCheckEnd_fr {X : Nat} {s0 : State} {a0 : View} {a1 : Blk} {a2 : Bool} {s : State} (h : Fr X s0 s) (hb1 : okBlk X a1 = true) (hX : Sub 0x3d3eff744f2dd0 X) {t : State}
    (ht : execCommitCheckEnd a0 a1 a2 s = .next t) : Fr X s0 t := by
  unfold execCommitCheckEnd at ht
  obtain rfl := Host.Outcome.next.inj ht
  repeat' first
    | with_reducible assumption
    | ((with_reducible apply hX.after); exact rfl)
    | with_reducible apply State.pooled_fr
    | with_reducible apply State.checkEnd_fr
    | (intro x)

theorem execCommitBoundary_fr {X : Nat} {s0 : State} {a0 : View} {a1 : Blk} {a2 : ℕ} {s : State} (h : Fr X s0 s) (hb1 : okBlk X a1 = true) (hX : Sub 0x3d3eff77ffffff X) {t : State}
    (ht : execCommitBoundary a0 a1 a2 s = .next t) : Fr X s0 t := by
  unfold execCommitBoundary at ht
  obtain rfl := Host.Outcome.next.inj ht
  repeat' first
    | with_reducible assumption
    | ((with_reducible apply hX.after); exact rfl)
    | with_reducible apply State.pooled_fr
    | with_reducible apply State.boundaryCome_fr
    | (intro x)

theorem execRefillTick_fr {X : Nat} {s0 : State} {s : State} (h : Fr X s0 s) (hX : Sub 0x3d3eff77ffffff X) {t : State}
    (ht : execRefillTick s = .next t) : Fr X s0 t := by
  unfold execRefillTick at ht
  obtain rfl := Host.Outcome.next.inj ht
  repeat' first
    | with_reducible assumption
    | ((with_reducible apply hX.after); exact rfl)
    | with_reducible apply State.inPool_fr
    | with_reducible apply State.refillTick_fr
    | (intro x)

theorem execCommitAbandon_fr {X : Nat} {s0 : State} {a0 : View} {a1 : Blk} {a2 : Word} {s : State} (h : Fr X s0 s) (hX : Sub 0x4000000 X) {t : State}
    (ht : execCommitAbandon a0 a1 a2 s = .next t) : Fr X s0 t := by
  unfold execCommitAbandon at ht
  obtain rfl := Host.Outcome.next.inj ht
  repeat' first
    | with_reducible assumption
    | with_reducible apply State.ctrlWrite_fr

theorem State.setStage_fr {X : Nat} {s0 : State} {s : State} {a1 : ℕ} (h : Fr X s0 s) (hX : Sub 0x2c000070000001 X) :
    Fr X s0 (State.setStage s a1) := by
  unfold State.setStage
  repeat' first
    | with_reducible assumption
    | ((with_reducible apply hX.after); exact rfl)
    | with_reducible apply State.setFld_fr
    | with_reducible apply State.raise_fr
    | (extract_lets +onlyGivenNames x; (refine Fr.cut (X := X) (s0 := s0) (s := x) ?_ (fun hx => ?_); (on_goal 2 => clear_value x); (on_goal 1 => (unfold x; clear x))))
    | split
    | ((with_reducible apply hX.ok); exact rfl)

theorem State.failStart_fr {X : Nat} {s0 : State} {s : State} {a1 : ℕ} (h : Fr X s0 s) (hX : Sub 0x2c000070000001 X) :
    Fr X s0 (State.failStart s a1) := by
  unfold State.failStart
  repeat' first
    | with_reducible assumption
    | ((with_reducible apply hX.after); exact rfl)
    | with_reducible apply State.setFld_fr
    | with_reducible apply State.raise_fr
    | (extract_lets +onlyGivenNames x; (refine Fr.cut (X := X) (s0 := s0) (s := x) ?_ (fun hx => ?_); (on_goal 2 => clear_value x); (on_goal 1 => (unfold x; clear x))))
    | split
    | ((with_reducible apply hX.ok); exact rfl)

theorem State.stopStart_fr {X : Nat} {s0 : State} {s : State} {a1 : ℕ} (h : Fr X s0 s) (hX : Sub 0x2c000078000001 X) :
    Fr X s0 (State.stopStart s a1) := by
  unfold State.stopStart
  repeat' first
    | with_reducible assumption
    | ((with_reducible apply hX.after); exact rfl)
    | with_reducible apply State.onBoot_fr
    | with_reducible apply State.failStart_fr

theorem State.solicit_fr {X : Nat} {s0 : State} {s : State} (h : Fr X s0 s) (hX : Sub 0x8000008000000 X) :
    Fr X s0 (State.solicit s) := by
  unfold State.solicit
  repeat' first
    | with_reducible assumption
    | ((with_reducible apply hX.after); exact rfl)
    | with_reducible apply State.emit_fr
    | with_reducible apply State.onBoot_fr
    | (extract_lets +onlyGivenNames x; (refine Fr.cut (X := X) (s0 := s0) (s := x) ?_ (fun hx => ?_); (on_goal 2 => clear_value x); (on_goal 1 => (unfold x; clear x))))
    | split

theorem State.recover_fr {X : Nat} {s0 : State} {s : State} (h : Fr X s0 s) (hX : Sub 0x2c000078000001 X) :
    Fr X s0 (State.recover s) := by
  unfold State.recover
  repeat' first
    | with_reducible assumption
    | ((with_reducible apply hX.after); exact rfl)
    | with_reducible apply State.solicit_fr
    | with_reducible apply State.failStart_fr
    | with_reducible apply State.onBoot_fr
    | (extract_lets +onlyGivenNames x; (refine Fr.cut (X := X) (s0 := s0) (s := x) ?_ (fun hx => ?_); (on_goal 2 => clear_value x); (on_goal 1 => (unfold x; clear x))))
    | split

theorem State.recovRefused_fr {X : Nat} {s0 : State} {s : State} {a1 : ℕ} {a2 : ℕ} {a3 : ℕ} (h : Fr X s0 s) (hX : Sub 0x2c000070000000 X) :
    Fr X s0 (State.recovRefused s a1 a2 a3) := by
  unfold State.recovRefused
  repeat' first
    | with_reducible assumption
    | with_reducible apply State.raise_fr

theorem State.imageAccepted_fr {X : Nat} {s0 : State} {s : State} {a1 : ImageInfo} {a2 : Bytes} {a3 : ℕ} (h : Fr X s0 s) (hX : Sub 0x2c000078000001 X) :
    Fr X s0 (State.imageAccepted s a1 a2 a3) := by
  unfold State.imageAccepted
  repeat' first
    | with_reducible assumption
    | ((with_reducible apply hX.after); exact rfl)
    | with_reducible apply State.setStage_fr
    | with_reducible apply State.setFld_fr
    | with_reducible apply State.onBoot_fr
    | ((with_reducible apply hX.ok); exact rfl)

theorem State.recovImage_fr {X : Nat} {s0 s : State} {n : Nat} {img : Bytes} (h : Fr X s0 s)
    (hX : Sub 0x2c000078000001 X) : Fr X s0 (State.recovImage s n img) := by
  unfold State.recovImage
  extract_lets refused
  have no : ∀ c, Fr X s0 (refused c) := fun c =>
    Fr.ite (fun _ => State.solicit_fr (State.recovRefused_fr h (hX.after rfl)) (hX.after rfl))
      fun _ => State.recovRefused_fr h (hX.after rfl)
  clear_value refused
  split
  · exact State.imageAccepted_fr h (hX.after rfl)
  · exact no 2
  · exact no 3


theorem State.recovGo_fr {X : Nat} {s0 : State} {s : State} {a1 : Option Bytes} (h : Fr X s0 s) (hX : Sub 0x2c000078000001 X) :
    Fr X s0 (State.recovGo s a1) := by
  unfold State.recovGo
  repeat' first
    | with_reducible assumption
    | ((with_reducible apply hX.after); exact rfl)
    | with_reducible apply State.recovRefused_fr
    | with_reducible apply State.recovImage_fr
    | (extract_lets +onlyGivenNames x; clear_value x)
    | split

theorem State.recovSwitch_fr {X : Nat} {s0 : State} {s : State} (h : Fr X s0 s) (hX : Sub 0x8000008000000 X) :
    Fr X s0 (State.recovSwitch s) := by
  unfold State.recovSwitch
  repeat' first
    | with_reducible assumption
    | ((with_reducible apply hX.after); exact rfl)
    | with_reducible apply State.solicit_fr
    | with_reducible apply State.onBoot_fr
    | split

theorem State.stageFuses_fr {X : Nat} {s0 : State} {s : State} {a1 : Bool} {a2 : Bytes} (h : Fr X s0 s) (hX : Sub 0x2c000078000001 X) :
    Fr X s0 (State.stageFuses s a1 a2) := by
  unfold State.stageFuses
  repeat' first
    | with_reducible assumption
    | ((with_reducible apply hX.after); exact rfl)
    | with_reducible apply State.stopStart_fr
    | with_reducible apply State.onBoot_fr
    | with_reducible apply State.setReg_fr
    | with_reducible apply State.freshBytes_fr
    | with_reducible apply State.setStage_fr
    | with_reducible apply State.raise_fr
    | with_reducible apply State.emit_fr
    | with_reducible apply State.setFlag_fr
    | with_reducible apply State.setFld_fr
    | (with_reducible apply Fr.mgmt_; (on_goal 1 => (first | with_reducible assumption | with_reducible apply State.stopStart_fr | with_reducible apply State.onBoot_fr | with_reducible apply State.setReg_fr | with_reducible apply State.freshBytes_fr | with_reducible apply State.setStage_fr | with_reducible apply State.raise_fr | with_reducible apply State.emit_fr | with_reducible apply State.setFlag_fr | with_reducible apply State.setFld_fr | with_reducible refine Fr.of_snd (by assumption) ?_)))
    | (extract_lets +onlyGivenNames x; first
        | (refine Fr.cut (X := X) (s0 := s0) (s := x) ?_ (fun hx => ?_); (on_goal 2 => clear_value x); (on_goal 1 => (unfold x; clear x)))
        | clear_value x)
    | split
    | ((with_reducible apply hX.ok); exact rfl)
    | ((with_reducible apply hX.bit); exact rfl)

theorem State.stageHostLink_fr {X : Nat} {s0 : State} {s : State} (h : Fr X s0 s) (hX : Sub 0x2c000078000001 X) :
    Fr X s0 (State.stageHostLink s) := by
  unfold State.stageHostLink
  repeat' first
    | with_reducible assumption
    | ((with_reducible apply hX.after); exact rfl)
    | with_reducible apply State.recover_fr
    | with_reducible apply State.failStart_fr
    | with_reducible apply State.setStage_fr
    | (extract_lets +onlyGivenNames x; (refine Fr.cut (X := X) (s0 := s0) (s := x) ?_ (fun hx => ?_); (on_goal 2 => clear_value x); (on_goal 1 => (unfold x; clear x))))
    | split

theorem State.stageImage_fr {X : Nat} {s0 : State} {s : State} {a1 : Bytes} (h : Fr X s0 s) (hX : Sub 0x2c000078000001 X) :
    Fr X s0 (State.stageImage s a1) := by
  unfold State.stageImage
  repeat' first
    | with_reducible assumption
    | ((with_reducible apply hX.after); exact rfl)
    | with_reducible apply State.imageAccepted_fr
    | with_reducible apply State.recover_fr
    | with_reducible apply State.failStart_fr
    | split

theorem State.stageMgmt_fr {X : Nat} {s0 : State} {s : State} (h : Fr X s0 s) (hX : Sub 0x2c000078000001 X) :
    Fr X s0 (State.stageMgmt s) := by
  unfold State.stageMgmt
  repeat' first
    | with_reducible assumption
    | ((with_reducible apply hX.after); exact rfl)
    | with_reducible apply State.stopStart_fr
    | with_reducible apply State.setStage_fr
    | with_reducible apply State.flashToRing_fr
    | with_reducible apply State.drawNonce_fr
    | with_reducible apply State.onBoot_fr
    | with_reducible apply State.setFld_fr
    | (extract_lets +onlyGivenNames x; first
        | (refine Fr.cut (X := X) (s0 := s0) (s := x) ?_ (fun hx => ?_); (on_goal 2 => clear_value x); (on_goal 1 => (unfold x; clear x)))
        | clear_value x)
    | split
    | ((with_reducible apply hX.ok); exact rfl)

theorem State.degraded_fr {X : Nat} {s0 : State} {s : State} (h : Fr X s0 s) (hX : Sub 0x20000000000001 X) :
    Fr X s0 (State.degraded s) := by
  unfold State.degraded
  repeat' first
    | with_reducible assumption
    | with_reducible apply State.setFlag_fr
    | ((with_reducible apply hX.ok); exact rfl)

theorem State.stageHbm_fr {X : Nat} {s0 : State} {s : State} {a1 : List ℕ} (h : Fr X s0 s) (hX : Sub 0x2c000178000011 X) :
    Fr X s0 (State.stageHbm s a1) := by
  unfold State.stageHbm
  repeat' first
    | with_reducible assumption
    | ((with_reducible apply hX.after); exact rfl)
    | with_reducible apply State.stopStart_fr
    | with_reducible apply State.setStage_fr
    | with_reducible apply State.onBoot_fr
    | with_reducible apply State.hbmStage_fr
    | with_reducible apply State.degraded_fr
    | (extract_lets +onlyGivenNames x; first
        | (refine Fr.cut (X := X) (s0 := s0) (s := x) ?_ (fun hx => ?_); (on_goal 2 => clear_value x); (on_goal 1 => (unfold x; clear x)))
        | clear_value x)
    | split

theorem State.stageDdr_fr {X : Nat} {s0 : State} {s : State} {a1 : List ℕ} {a2 : List ℕ} (h : Fr X s0 s) (hX : Sub 0x2c000170000001 X) :
    Fr X s0 (State.stageDdr s a1 a2) := by
  unfold State.stageDdr
  repeat' first
    | with_reducible assumption
    | ((with_reducible apply hX.after); exact rfl)
    | with_reducible apply State.setStage_fr
    | with_reducible apply State.ddrStage_fr
    | with_reducible apply State.degraded_fr
    | split

theorem State.stageCore_fr {X : Nat} {s0 : State} {s : State} {a1 : List ℕ} (h : Fr X s0 s) (hX : Sub 0x2c0000f8000005 X) :
    Fr X s0 (State.stageCore s a1) := by
  unfold State.stageCore
  repeat' first
    | with_reducible assumption
    | ((with_reducible apply hX.after); exact rfl)
    | with_reducible apply State.stopStart_fr
    | with_reducible apply State.setFlag_fr
    | with_reducible apply State.setCox_fr
    | with_reducible apply State.setFld_fr
    | with_reducible apply State.setStage_fr
    | with_reducible apply State.degraded_fr
    | with_reducible apply Fr.foldl
    | (with_reducible apply Fr.cox_; (on_goal 1 => (first | with_reducible assumption | with_reducible apply State.stopStart_fr | with_reducible apply State.setFlag_fr | with_reducible apply State.setCox_fr | with_reducible apply State.setFld_fr | with_reducible apply State.setStage_fr | with_reducible apply State.degraded_fr | with_reducible apply Fr.foldl | with_reducible apply Fr.foldl_fst | with_reducible apply Fr.foldl_snd | with_reducible refine Fr.of_snd (by assumption) ?_)))
    | (intro x)
    | (extract_lets +onlyGivenNames x; first
        | (refine Fr.cut (X := X) (s0 := s0) (s := x) ?_ (fun hx => ?_); (on_goal 2 => clear_value x); (on_goal 1 => (unfold x; clear x)))
        | clear_value x)
    | split
    | ((with_reducible apply hX.ok); exact rfl)
    | ((with_reducible apply hX.bit); exact rfl)
    | (with_reducible apply Sub.nth)

theorem State.stageReady_fr {X : Nat} {s0 : State} {s : State} (h : Fr X s0 s) (hX : Sub 0x2c283c784f00c1 X) :
    Fr X s0 (State.stageReady s) := by
  unfold State.stageReady
  repeat' first
    | with_reducible assumption
    | ((with_reducible apply hX.after); exact rfl)
    | with_reducible apply State.bringUp_fr
    | with_reducible apply State.postReady_fr
    | with_reducible apply State.setStage_fr
    | with_reducible apply State.startFlash_fr
    | (extract_lets +onlyGivenNames x; (refine Fr.cut (X := X) (s0 := s0) (s := x) ?_ (fun hx => ?_); (on_goal 2 => clear_value x); (on_goal 1 => (unfold x; clear x))))
    | split

theorem State.stageDone_fr {X : Nat} {s0 : State} {s : State} {a1 : StageResult} (h : Fr X s0 s) (hX : Sub 0x2c283df84f00d5 X) :
    Fr X s0 (State.stageDone s a1) := by
  unfold State.stageDone
  repeat' first
    | with_reducible assumption
    | ((with_reducible apply hX.after); exact rfl)
    | with_reducible apply State.stageFuses_fr
    | with_reducible apply State.stageHostLink_fr
    | with_reducible apply State.stageImage_fr
    | with_reducible apply State.stageMgmt_fr
    | with_reducible apply State.stageHbm_fr
    | with_reducible apply State.stageDdr_fr
    | with_reducible apply State.stageCore_fr
    | with_reducible apply State.setStage_fr
    | with_reducible apply State.stageReady_fr
    | split

theorem State.railUp_fr {X : Nat} {s0 : State} {s : State} {a1 : ℕ} (h : Fr X s0 s) (hX : Sub 0x8000000 X) :
    Fr X s0 (State.railUp s a1) := by
  unfold State.railUp
  repeat' first
    | with_reducible assumption
    | with_reducible apply State.onBoot_fr
    | (extract_lets +onlyGivenNames x; clear_value x)
    | split

theorem State.powerOn_fr {X : Nat} {s0 : State} {s : State} {a1 : Straps} (h : Fr X s0 s) (hX : Sub 0x20000008000001 X) :
    Fr X s0 (State.powerOn s a1) := by
  unfold State.powerOn
  repeat' first
    | with_reducible assumption
    | ((with_reducible apply hX.after); exact rfl)
    | with_reducible apply State.onBoot_fr
    | with_reducible apply State.setFlag_fr
    | with_reducible apply State.setFld_fr
    | (extract_lets +onlyGivenNames x; (refine Fr.cut (X := X) (s0 := s0) (s := x) ?_ (fun hx => ?_); (on_goal 2 => clear_value x); (on_goal 1 => (unfold x; clear x))))
    | split
    | ((with_reducible apply hX.ok); exact rfl)

theorem execPowerOnReset_fr {X : Nat} {s0 : State} {a0 : Straps} {s : State} (h : Fr X s0 s) (hX : Sub 0x20000008000001 X) {t : State}
    (ht : execPowerOnReset a0 s = .next t) : Fr X s0 t := by
  unfold execPowerOnReset at ht
  obtain rfl := Host.Outcome.next.inj ht
  repeat' first
    | with_reducible assumption
    | with_reducible apply State.powerOn_fr

theorem execPorstAssert_fr {X : Nat} {s0 : State} {s : State} (h : Fr X s0 s) (hX : Sub 0x3fffffffffffff X) {t : State}
    (ht : execPorstAssert s = .next t) : Fr X s0 t := by
  unfold execPorstAssert at ht
  obtain rfl := Host.Outcome.next.inj ht
  repeat' first
    | with_reducible assumption
    | with_reducible apply State.coldReset_fr

theorem execStartupStageDone_fr {X : Nat} {s0 : State} {a0 : StageResult} {s : State} (h : Fr X s0 s) (hX : Sub 0x3c28fdf84f0cd5 X) {t : State}
    (ht : execStartupStageDone a0 s = .next t) : Fr X s0 t := by
  unfold execStartupStageDone at ht
  obtain rfl := Host.Outcome.next.inj ht
  repeat' first
    | with_reducible assumption
    | ((with_reducible apply hX.after); exact rfl)
    | with_reducible apply State.pooled_fr
    | with_reducible apply State.stageDone_fr
    | (intro x)

theorem execRecovWaitSwitch_fr {X : Nat} {s0 : State} {s : State} (h : Fr X s0 s) (hX : Sub 0x8000008000000 X) {t : State}
    (ht : execRecovWaitSwitch s = .next t) : Fr X s0 t := by
  unfold execRecovWaitSwitch at ht
  obtain rfl := Host.Outcome.next.inj ht
  repeat' first
    | with_reducible assumption
    | with_reducible apply State.recovSwitch_fr

theorem execRecovGo_fr {X : Nat} {s0 : State} {a0 : View} {a1 : Word} {a2 : Option Bytes} {s : State} (h : Fr X s0 s) (hX : Sub 0x2c00007c000001 X) {t : State}
    (ht : execRecovGo a0 a1 a2 s = .next t) : Fr X s0 t := by
  unfold execRecovGo at ht
  obtain rfl := Host.Outcome.next.inj ht
  repeat' first
    | with_reducible assumption
    | ((with_reducible apply hX.after); exact rfl)
    | with_reducible apply State.trigger_fr
    | with_reducible apply State.recovGo_fr
    | (intro x)
    | split
    | ((with_reducible apply hX.ok); exact rfl)

theorem execRecovOffer_fr {X : Nat} {s0 : State} {a0 : ℕ} {s : State} (h : Fr X s0 s) (hX : Sub 0x8000008000000 X) {t : State}
    (ht : execRecovOffer a0 s = .next t) : Fr X s0 t := by
  unfold execRecovOffer at ht
  obtain rfl := Host.Outcome.next.inj ht
  repeat' first
    | with_reducible assumption
    | ((with_reducible apply hX.after); exact rfl)
    | with_reducible apply State.emit_fr
    | with_reducible apply State.onBoot_fr
    | split

theorem execTftpStall_fr {X : Nat} {s0 : State} {s : State} (h : Fr X s0 s) (hX : Sub 0x2c000078000000 X) {t : State}
    (ht : execTftpStall s = .next t) : Fr X s0 t := by
  unfold execTftpStall at ht
  obtain rfl := Host.Outcome.next.inj ht
  repeat' first
    | with_reducible assumption
    | ((with_reducible apply hX.after); exact rfl)
    | with_reducible apply State.solicit_fr
    | with_reducible apply State.recovRefused_fr
    | split

theorem execRecovImageDone_fr {X : Nat} {s0 : State} {a0 : Bytes} {s : State} (h : Fr X s0 s) (hX : Sub 0x2c000078000001 X) {t : State}
    (ht : execRecovImageDone a0 s = .next t) : Fr X s0 t := by
  unfold execRecovImageDone at ht
  obtain rfl := Host.Outcome.next.inj ht
  repeat' first
    | with_reducible assumption
    | with_reducible apply State.recovImage_fr
    | split

theorem execAonLoss_fr {X : Nat} {s0 : State} {s : State} (h : Fr X s0 s) (hX : Sub 0x3fffffffffffff X) {t : State}
    (ht : execAonLoss s = .next t) : Fr X s0 t := by
  unfold execAonLoss at ht
  obtain rfl := Host.Outcome.next.inj ht
  repeat' first
    | with_reducible assumption
    | with_reducible apply State.coldReset_fr

theorem execRailGoodAtPowerUp_fr {X : Nat} {s0 : State} {a0 : ℕ} {s : State} (h : Fr X s0 s) (hX : Sub 0x8000000 X) {t : State}
    (ht : execRailGoodAtPowerUp a0 s = .next t) : Fr X s0 t := by
  unfold execRailGoodAtPowerUp at ht
  obtain rfl := Host.Outcome.next.inj ht
  repeat' first
    | with_reducible assumption
    | with_reducible apply State.railUp_fr

theorem State.attest_fr {X : Nat} {s0 : State} {s : State} {a1 : Op} {a2 : Option Bytes} (h : Fr X s0 s) (hX : Sub 0x8000040000000 X) :
    Fr X s0 (State.attest s a1 a2) := by
  unfold State.attest
  repeat' first
    | with_reducible assumption
    | ((with_reducible apply hX.after); exact rfl)
    | with_reducible apply State.finish_fr
    | with_reducible apply State.emit_fr
    | (extract_lets +onlyGivenNames x; clear_value x)
    | split

theorem execAttestReport_fr {X : Nat} {s0 : State} {a0 : OpKey} {a1 : Option Bytes} {s : State} (h : Fr X s0 s) (hX : Sub 0x8000040000000 X) {t : State}
    (ht : execAttestReport a0 a1 s = .next t) : Fr X s0 t := by
  unfold execAttestReport at ht
  obtain rfl := Host.Outcome.next.inj ht
  repeat' first
    | with_reducible assumption
    | ((with_reducible apply hX.after); exact rfl)
    | with_reducible apply State.start_fr
    | with_reducible apply State.attest_fr
    | (intro x)
    | split

theorem State.viewRefresh_fr {X : Nat} {s0 : State} {s : State} (h : Fr X s0 s) (hX : Sub 0x2000000000000 X) :
    Fr X s0 (State.viewRefresh s) := by
  unfold State.viewRefresh
  repeat' first
    | (with_reducible apply Fr.view_; (on_goal 1 => (first | with_reducible assumption | with_reducible refine Fr.of_snd (by assumption) ?_)))
    | ((with_reducible apply hX.bit); exact rfl)

theorem State.jtagSet_fr {X : Nat} {s0 : State} {s : State} {a1 : Option JtagInstr} (h : Fr X s0 s) (hX : Sub 0x2c283c704f00c0 X) :
    Fr X s0 (State.jtagSet s a1) := by
  unfold State.jtagSet
  repeat' first
    | with_reducible assumption
    | with_reducible apply State.coreStops_fr
    | with_reducible apply State.bringUp_fr
    | (with_reducible apply Fr.mgmt_; (on_goal 1 => (first | with_reducible assumption | with_reducible apply State.coreStops_fr | with_reducible apply State.bringUp_fr | with_reducible refine Fr.of_snd (by assumption) ?_)))
    | (extract_lets +onlyGivenNames x; first
        | (refine Fr.cut (X := X) (s0 := s0) (s := x) ?_ (fun hx => ?_); (on_goal 2 => clear_value x); (on_goal 1 => (unfold x; clear x)))
        | clear_value x)
    | split
    | ((with_reducible apply hX.bit); exact rfl)

theorem State.jtagLoad_fr {X : Nat} {s0 : State} {s : State} {a1 : JtagInstr} (h : Fr X s0 s) (hX : Sub 0x2c283c704f00c0 X) :
    Fr X s0 (State.jtagLoad s a1) := by
  unfold State.jtagLoad
  repeat' first
    | with_reducible assumption
    | ((with_reducible apply hX.after); exact rfl)
    | with_reducible apply State.emit_fr
    | with_reducible apply State.jtagSet_fr
    | (extract_lets +onlyGivenNames x; (refine Fr.cut (X := X) (s0 := s0) (s := x) ?_ (fun hx => ?_); (on_goal 2 => clear_value x); (on_goal 1 => (unfold x; clear x))))
    | split

theorem State.testAccess_fr {X : Nat} {s0 : State} {s : State} {a1 : Op} {a2 : Option Bytes} (h : Fr X s0 s) (hX : Sub 0x2c283c704f00c1 X) :
    Fr X s0 (State.testAccess s a1 a2) := by
  unfold State.testAccess
  repeat' first
    | with_reducible assumption
    | ((with_reducible apply hX.after); exact rfl)
    | with_reducible apply State.finish_fr
    | with_reducible apply State.raise_fr
    | with_reducible apply State.drawNonce_fr
    | with_reducible apply State.setFld_fr
    | with_reducible apply State.jtagSet_fr
    | with_reducible apply State.setFlag_fr
    | (with_reducible apply Fr.mgmt_; (on_goal 1 => (first | with_reducible assumption | with_reducible apply State.finish_fr | with_reducible apply State.raise_fr | with_reducible apply State.drawNonce_fr | with_reducible apply State.setFld_fr | with_reducible apply State.jtagSet_fr | with_reducible apply State.setFlag_fr | with_reducible refine Fr.of_snd (by assumption) ?_)))
    | (extract_lets +onlyGivenNames x; first
        | (refine Fr.cut (X := X) (s0 := s0) (s := x) ?_ (fun hx => ?_); (on_goal 2 => clear_value x); (on_goal 1 => (unfold x; clear x)))
        | clear_value x)
    | split
    | ((with_reducible apply hX.ok); exact rfl)
    | ((with_reducible apply hX.bit); exact rfl)

theorem execViewRefresh_fr {X : Nat} {s0 : State} {s : State} (h : Fr X s0 s) (hX : Sub 0x2000000000000 X) {t : State}
    (ht : execViewRefresh s = .next t) : Fr X s0 t := by
  unfold execViewRefresh at ht
  obtain rfl := Host.Outcome.next.inj ht
  repeat' first
    | with_reducible assumption
    | ((with_reducible apply hX.after); exact rfl)
    | with_reducible apply State.inAon_fr
    | with_reducible apply State.viewRefresh_fr
    | (intro x)

theorem execTestAccess_fr {X : Nat} {s0 : State} {a0 : OpKey} {a1 : Option Bytes} {s : State} (h : Fr X s0 s) (hX : Sub 0x2c283c704f00c1 X) {t : State}
    (ht : execTestAccess a0 a1 s = .next t) : Fr X s0 t := by
  unfold execTestAccess at ht
  obtain rfl := Host.Outcome.next.inj ht
  repeat' first
    | with_reducible assumption
    | ((with_reducible apply hX.after); exact rfl)
    | with_reducible apply State.mgmtPF_fr
    | with_reducible apply State.testAccess_fr
    | (intro x)

theorem execJtagInstruction_fr {X : Nat} {s0 : State} {a0 : JtagInstr} {s : State} (h : Fr X s0 s) (hX : Sub 0x2c283c704f00c0 X) {t : State}
    (ht : execJtagInstruction a0 s = .next t) : Fr X s0 t := by
  unfold execJtagInstruction at ht
  obtain rfl := Host.Outcome.next.inj ht
  repeat' first
    | with_reducible assumption
    | ((with_reducible apply hX.after); exact rfl)
    | with_reducible apply State.inAon_fr
    | with_reducible apply State.jtagLoad_fr
    | (intro x)

theorem State.idle_fr {X : Nat} {s0 : State} {s : State} (h : Fr X s0 s) (hX : Sub 0x2c028670400000 X) :
    Fr X s0 (State.idle s) := by
  unfold State.idle
  repeat' first
    | with_reducible assumption
    | ((with_reducible apply hX.after); exact rfl)
    | with_reducible apply State.planOpsRetry_fr
    | with_reducible apply State.tick_fr

end Sys2Proof.Machine
end

