-- ==== Sys2Proof/Laws/State.lean ====
section
/-!
SUPPORT. What each update of one part of the state leaves alone: one lemma for each other part, true by definition.
-/

namespace Sys2Proof.Machine

@[simp] theorem State.onTfb_regs (s : State) (f : TfbState → TfbState) : (s.onTfb f).regs = s.regs := rfl
@[simp] theorem State.onTfb_boot (s : State) (f : TfbState → TfbState) : (s.onTfb f).boot = s.boot := rfl
@[simp] theorem State.onTfb_mgmt (s : State) (f : TfbState → TfbState) : (s.onTfb f).mgmt = s.mgmt := rfl
@[simp] theorem State.onTfb_evr (s : State) (f : TfbState → TfbState) : (s.onTfb f).evr = s.evr := rfl
@[simp] theorem State.onTfb_hif (s : State) (f : TfbState → TfbState) : (s.onTfb f).hif = s.hif := rfl
@[simp] theorem State.onTfb_cox (s : State) (f : TfbState → TfbState) : (s.onTfb f).cox = s.cox := rfl
@[simp] theorem State.onTfb_mem (s : State) (f : TfbState → TfbState) : (s.onTfb f).mem = s.mem := rfl
@[simp] theorem State.onTfb_time (s : State) (f : TfbState → TfbState) : (s.onTfb f).time = s.time := rfl
@[simp] theorem State.onTfb_power (s : State) (f : TfbState → TfbState) : (s.onTfb f).power = s.power := rfl
@[simp] theorem State.onTfb_sett (s : State) (f : TfbState → TfbState) : (s.onTfb f).sett = s.sett := rfl
@[simp] theorem State.onTfb_swc (s : State) (f : TfbState → TfbState) : (s.onTfb f).swc = s.swc := rfl
@[simp] theorem State.onTfb_lsc (s : State) (f : TfbState → TfbState) : (s.onTfb f).lsc = s.lsc := rfl
@[simp] theorem State.onTfb_tpt (s : State) (f : TfbState → TfbState) : (s.onTfb f).tpt = s.tpt := rfl
@[simp] theorem State.onTfb_col (s : State) (f : TfbState → TfbState) : (s.onTfb f).col = s.col := rfl
@[simp] theorem State.onTfb_plans (s : State) (f : TfbState → TfbState) : (s.onTfb f).plans = s.plans := rfl
@[simp] theorem State.onTfb_ash (s : State) (f : TfbState → TfbState) : (s.onTfb f).ash = s.ash := rfl
@[simp] theorem State.onTfb_line (s : State) (f : TfbState → TfbState) : (s.onTfb f).line = s.line := rfl
@[simp] theorem State.onTfb_flt (s : State) (f : TfbState → TfbState) : (s.onTfb f).flt = s.flt := rfl
@[simp] theorem State.onTfb_lanes (s : State) (f : TfbState → TfbState) : (s.onTfb f).lanes = s.lanes := rfl
@[simp] theorem State.onTfb_outer (s : State) (f : TfbState → TfbState) : (s.onTfb f).outer = s.outer := rfl
@[simp] theorem State.onTfb_rig (s : State) (f : TfbState → TfbState) : (s.onTfb f).rig = s.rig := rfl
@[simp] theorem State.onTfb_kmc (s : State) (f : TfbState → TfbState) : (s.onTfb f).kmc = s.kmc := rfl
@[simp] theorem State.onTfb_view (s : State) (f : TfbState → TfbState) : (s.onTfb f).view = s.view := rfl
@[simp] theorem State.onTfb_free (s : State) (f : TfbState → TfbState) : (s.onTfb f).free = s.free := rfl
@[simp] theorem State.onTfb_out (s : State) (f : TfbState → TfbState) : (s.onTfb f).out = s.out := rfl
@[simp] theorem State.onTfb_pending (s : State) (f : TfbState → TfbState) : (s.onTfb f).pending = s.pending := rfl

@[simp] theorem State.setRing_regs (s : State) (n : Nat) (r : Ring) : (s.setRing n r).regs = s.regs := rfl
@[simp] theorem State.setRing_boot (s : State) (n : Nat) (r : Ring) : (s.setRing n r).boot = s.boot := rfl
@[simp] theorem State.setRing_mgmt (s : State) (n : Nat) (r : Ring) : (s.setRing n r).mgmt = s.mgmt := rfl
@[simp] theorem State.setRing_evr (s : State) (n : Nat) (r : Ring) : (s.setRing n r).evr = s.evr := rfl
@[simp] theorem State.setRing_cox (s : State) (n : Nat) (r : Ring) : (s.setRing n r).cox = s.cox := rfl
@[simp] theorem State.setRing_mem (s : State) (n : Nat) (r : Ring) : (s.setRing n r).mem = s.mem := rfl
@[simp] theorem State.setRing_time (s : State) (n : Nat) (r : Ring) : (s.setRing n r).time = s.time := rfl
@[simp] theorem State.setRing_power (s : State) (n : Nat) (r : Ring) : (s.setRing n r).power = s.power := rfl
@[simp] theorem State.setRing_sett (s : State) (n : Nat) (r : Ring) : (s.setRing n r).sett = s.sett := rfl
@[simp] theorem State.setRing_swc (s : State) (n : Nat) (r : Ring) : (s.setRing n r).swc = s.swc := rfl
@[simp] theorem State.setRing_lsc (s : State) (n : Nat) (r : Ring) : (s.setRing n r).lsc = s.lsc := rfl
@[simp] theorem State.setRing_tpt (s : State) (n : Nat) (r : Ring) : (s.setRing n r).tpt = s.tpt := rfl
@[simp] theorem State.setRing_col (s : State) (n : Nat) (r : Ring) : (s.setRing n r).col = s.col := rfl
@[simp] theorem State.setRing_plans (s : State) (n : Nat) (r : Ring) : (s.setRing n r).plans = s.plans := rfl
@[simp] theorem State.setRing_tfb (s : State) (n : Nat) (r : Ring) : (s.setRing n r).tfb = s.tfb := rfl
@[simp] theorem State.setRing_ash (s : State) (n : Nat) (r : Ring) : (s.setRing n r).ash = s.ash := rfl
@[simp] theorem State.setRing_line (s : State) (n : Nat) (r : Ring) : (s.setRing n r).line = s.line := rfl
@[simp] theorem State.setRing_flt (s : State) (n : Nat) (r : Ring) : (s.setRing n r).flt = s.flt := rfl
@[simp] theorem State.setRing_lanes (s : State) (n : Nat) (r : Ring) : (s.setRing n r).lanes = s.lanes := rfl
@[simp] theorem State.setRing_outer (s : State) (n : Nat) (r : Ring) : (s.setRing n r).outer = s.outer := rfl
@[simp] theorem State.setRing_rig (s : State) (n : Nat) (r : Ring) : (s.setRing n r).rig = s.rig := rfl
@[simp] theorem State.setRing_kmc (s : State) (n : Nat) (r : Ring) : (s.setRing n r).kmc = s.kmc := rfl
@[simp] theorem State.setRing_view (s : State) (n : Nat) (r : Ring) : (s.setRing n r).view = s.view := rfl
@[simp] theorem State.setRing_free (s : State) (n : Nat) (r : Ring) : (s.setRing n r).free = s.free := rfl
@[simp] theorem State.setRing_out (s : State) (n : Nat) (r : Ring) : (s.setRing n r).out = s.out := rfl
@[simp] theorem State.setRing_pending (s : State) (n : Nat) (r : Ring) : (s.setRing n r).pending = s.pending := rfl

@[simp] theorem State.setBucket_regs (s : State) (code : Nat) (b : EvBucket) : (s.setBucket code b).regs = s.regs := rfl
@[simp] theorem State.setBucket_boot (s : State) (code : Nat) (b : EvBucket) : (s.setBucket code b).boot = s.boot := rfl
@[simp] theorem State.setBucket_mgmt (s : State) (code : Nat) (b : EvBucket) : (s.setBucket code b).mgmt = s.mgmt := rfl
@[simp] theorem State.setBucket_hif (s : State) (code : Nat) (b : EvBucket) : (s.setBucket code b).hif = s.hif := rfl
@[simp] theorem State.setBucket_cox (s : State) (code : Nat) (b : EvBucket) : (s.setBucket code b).cox = s.cox := rfl
@[simp] theorem State.setBucket_mem (s : State) (code : Nat) (b : EvBucket) : (s.setBucket code b).mem = s.mem := rfl
@[simp] theorem State.setBucket_time (s : State) (code : Nat) (b : EvBucket) : (s.setBucket code b).time = s.time := rfl
@[simp] theorem State.setBucket_power (s : State) (code : Nat) (b : EvBucket) : (s.setBucket code b).power = s.power := rfl
@[simp] theorem State.setBucket_sett (s : State) (code : Nat) (b : EvBucket) : (s.setBucket code b).sett = s.sett := rfl
@[simp] theorem State.setBucket_swc (s : State) (code : Nat) (b : EvBucket) : (s.setBucket code b).swc = s.swc := rfl
@[simp] theorem State.setBucket_lsc (s : State) (code : Nat) (b : EvBucket) : (s.setBucket code b).lsc = s.lsc := rfl
@[simp] theorem State.setBucket_tpt (s : State) (code : Nat) (b : EvBucket) : (s.setBucket code b).tpt = s.tpt := rfl
@[simp] theorem State.setBucket_col (s : State) (code : Nat) (b : EvBucket) : (s.setBucket code b).col = s.col := rfl
@[simp] theorem State.setBucket_plans (s : State) (code : Nat) (b : EvBucket) : (s.setBucket code b).plans = s.plans := rfl
@[simp] theorem State.setBucket_tfb (s : State) (code : Nat) (b : EvBucket) : (s.setBucket code b).tfb = s.tfb := rfl
@[simp] theorem State.setBucket_ash (s : State) (code : Nat) (b : EvBucket) : (s.setBucket code b).ash = s.ash := rfl
@[simp] theorem State.setBucket_line (s : State) (code : Nat) (b : EvBucket) : (s.setBucket code b).line = s.line := rfl
@[simp] theorem State.setBucket_flt (s : State) (code : Nat) (b : EvBucket) : (s.setBucket code b).flt = s.flt := rfl
@[simp] theorem State.setBucket_lanes (s : State) (code : Nat) (b : EvBucket) : (s.setBucket code b).lanes = s.lanes := rfl
@[simp] theorem State.setBucket_outer (s : State) (code : Nat) (b : EvBucket) : (s.setBucket code b).outer = s.outer := rfl
@[simp] theorem State.setBucket_rig (s : State) (code : Nat) (b : EvBucket) : (s.setBucket code b).rig = s.rig := rfl
@[simp] theorem State.setBucket_kmc (s : State) (code : Nat) (b : EvBucket) : (s.setBucket code b).kmc = s.kmc := rfl
@[simp] theorem State.setBucket_view (s : State) (code : Nat) (b : EvBucket) : (s.setBucket code b).view = s.view := rfl
@[simp] theorem State.setBucket_free (s : State) (code : Nat) (b : EvBucket) : (s.setBucket code b).free = s.free := rfl
@[simp] theorem State.setBucket_out (s : State) (code : Nat) (b : EvBucket) : (s.setBucket code b).out = s.out := rfl
@[simp] theorem State.setBucket_pending (s : State) (code : Nat) (b : EvBucket) : (s.setBucket code b).pending = s.pending := rfl

@[simp] theorem State.setHealth_regs (s : State) (k : Subject) (h : Health) : (s.setHealth k h).regs = s.regs := rfl
@[simp] theorem State.setHealth_boot (s : State) (k : Subject) (h : Health) : (s.setHealth k h).boot = s.boot := rfl
@[simp] theorem State.setHealth_mgmt (s : State) (k : Subject) (h : Health) : (s.setHealth k h).mgmt = s.mgmt := rfl
@[simp] theorem State.setHealth_evr (s : State) (k : Subject) (h : Health) : (s.setHealth k h).evr = s.evr := rfl
@[simp] theorem State.setHealth_hif (s : State) (k : Subject) (h : Health) : (s.setHealth k h).hif = s.hif := rfl
@[simp] theorem State.setHealth_cox (s : State) (k : Subject) (h : Health) : (s.setHealth k h).cox = s.cox := rfl
@[simp] theorem State.setHealth_mem (s : State) (k : Subject) (h : Health) : (s.setHealth k h).mem = s.mem := rfl
@[simp] theorem State.setHealth_time (s : State) (k : Subject) (h : Health) : (s.setHealth k h).time = s.time := rfl
@[simp] theorem State.setHealth_power (s : State) (k : Subject) (h : Health) : (s.setHealth k h).power = s.power := rfl
@[simp] theorem State.setHealth_sett (s : State) (k : Subject) (h : Health) : (s.setHealth k h).sett = s.sett := rfl
@[simp] theorem State.setHealth_swc (s : State) (k : Subject) (h : Health) : (s.setHealth k h).swc = s.swc := rfl
@[simp] theorem State.setHealth_lsc (s : State) (k : Subject) (h : Health) : (s.setHealth k h).lsc = s.lsc := rfl
@[simp] theorem State.setHealth_tpt (s : State) (k : Subject) (h : Health) : (s.setHealth k h).tpt = s.tpt := rfl
@[simp] theorem State.setHealth_col (s : State) (k : Subject) (h : Health) : (s.setHealth k h).col = s.col := rfl
@[simp] theorem State.setHealth_plans (s : State) (k : Subject) (h : Health) : (s.setHealth k h).plans = s.plans := rfl
@[simp] theorem State.setHealth_tfb (s : State) (k : Subject) (h : Health) : (s.setHealth k h).tfb = s.tfb := rfl
@[simp] theorem State.setHealth_ash (s : State) (k : Subject) (h : Health) : (s.setHealth k h).ash = s.ash := rfl
@[simp] theorem State.setHealth_line (s : State) (k : Subject) (h : Health) : (s.setHealth k h).line = s.line := rfl
@[simp] theorem State.setHealth_lanes (s : State) (k : Subject) (h : Health) : (s.setHealth k h).lanes = s.lanes := rfl
@[simp] theorem State.setHealth_outer (s : State) (k : Subject) (h : Health) : (s.setHealth k h).outer = s.outer := rfl
@[simp] theorem State.setHealth_rig (s : State) (k : Subject) (h : Health) : (s.setHealth k h).rig = s.rig := rfl
@[simp] theorem State.setHealth_kmc (s : State) (k : Subject) (h : Health) : (s.setHealth k h).kmc = s.kmc := rfl
@[simp] theorem State.setHealth_view (s : State) (k : Subject) (h : Health) : (s.setHealth k h).view = s.view := rfl
@[simp] theorem State.setHealth_free (s : State) (k : Subject) (h : Health) : (s.setHealth k h).free = s.free := rfl
@[simp] theorem State.setHealth_out (s : State) (k : Subject) (h : Health) : (s.setHealth k h).out = s.out := rfl
@[simp] theorem State.setHealth_pending (s : State) (k : Subject) (h : Health) : (s.setHealth k h).pending = s.pending := rfl

@[simp] theorem State.setFltGroup_regs (s : State) (slot : Nat) (g : FltGroup) : (s.setFltGroup slot g).regs = s.regs := rfl
@[simp] theorem State.setFltGroup_boot (s : State) (slot : Nat) (g : FltGroup) : (s.setFltGroup slot g).boot = s.boot := rfl
@[simp] theorem State.setFltGroup_mgmt (s : State) (slot : Nat) (g : FltGroup) : (s.setFltGroup slot g).mgmt = s.mgmt := rfl
@[simp] theorem State.setFltGroup_evr (s : State) (slot : Nat) (g : FltGroup) : (s.setFltGroup slot g).evr = s.evr := rfl
@[simp] theorem State.setFltGroup_hif (s : State) (slot : Nat) (g : FltGroup) : (s.setFltGroup slot g).hif = s.hif := rfl
@[simp] theorem State.setFltGroup_cox (s : State) (slot : Nat) (g : FltGroup) : (s.setFltGroup slot g).cox = s.cox := rfl
@[simp] theorem State.setFltGroup_mem (s : State) (slot : Nat) (g : FltGroup) : (s.setFltGroup slot g).mem = s.mem := rfl
@[simp] theorem State.setFltGroup_time (s : State) (slot : Nat) (g : FltGroup) : (s.setFltGroup slot g).time = s.time := rfl
@[simp] theorem State.setFltGroup_power (s : State) (slot : Nat) (g : FltGroup) : (s.setFltGroup slot g).power = s.power := rfl
@[simp] theorem State.setFltGroup_sett (s : State) (slot : Nat) (g : FltGroup) : (s.setFltGroup slot g).sett = s.sett := rfl
@[simp] theorem State.setFltGroup_swc (s : State) (slot : Nat) (g : FltGroup) : (s.setFltGroup slot g).swc = s.swc := rfl
@[simp] theorem State.setFltGroup_lsc (s : State) (slot : Nat) (g : FltGroup) : (s.setFltGroup slot g).lsc = s.lsc := rfl
@[simp] theorem State.setFltGroup_tpt (s : State) (slot : Nat) (g : FltGroup) : (s.setFltGroup slot g).tpt = s.tpt := rfl
@[simp] theorem State.setFltGroup_col (s : State) (slot : Nat) (g : FltGroup) : (s.setFltGroup slot g).col = s.col := rfl
@[simp] theorem State.setFltGroup_plans (s : State) (slot : Nat) (g : FltGroup) : (s.setFltGroup slot g).plans = s.plans := rfl
@[simp] theorem State.setFltGroup_tfb (s : State) (slot : Nat) (g : FltGroup) : (s.setFltGroup slot g).tfb = s.tfb := rfl
@[simp] theorem State.setFltGroup_ash (s : State) (slot : Nat) (g : FltGroup) : (s.setFltGroup slot g).ash = s.ash := rfl
@[simp] theorem State.setFltGroup_line (s : State) (slot : Nat) (g : FltGroup) : (s.setFltGroup slot g).line = s.line := rfl
@[simp] theorem State.setFltGroup_lanes (s : State) (slot : Nat) (g : FltGroup) : (s.setFltGroup slot g).lanes = s.lanes := rfl
@[simp] theorem State.setFltGroup_outer (s : State) (slot : Nat) (g : FltGroup) : (s.setFltGroup slot g).outer = s.outer := rfl
@[simp] theorem State.setFltGroup_rig (s : State) (slot : Nat) (g : FltGroup) : (s.setFltGroup slot g).rig = s.rig := rfl
@[simp] theorem State.setFltGroup_kmc (s : State) (slot : Nat) (g : FltGroup) : (s.setFltGroup slot g).kmc = s.kmc := rfl
@[simp] theorem State.setFltGroup_view (s : State) (slot : Nat) (g : FltGroup) : (s.setFltGroup slot g).view = s.view := rfl
@[simp] theorem State.setFltGroup_free (s : State) (slot : Nat) (g : FltGroup) : (s.setFltGroup slot g).free = s.free := rfl
@[simp] theorem State.setFltGroup_out (s : State) (slot : Nat) (g : FltGroup) : (s.setFltGroup slot g).out = s.out := rfl
@[simp] theorem State.setFltGroup_pending (s : State) (slot : Nat) (g : FltGroup) : (s.setFltGroup slot g).pending = s.pending := rfl

@[simp] theorem State.setGrp_regs (s : State) (g : Nat) (x : OptGroup) : (s.setGrp g x).regs = s.regs := rfl
@[simp] theorem State.setGrp_boot (s : State) (g : Nat) (x : OptGroup) : (s.setGrp g x).boot = s.boot := rfl
@[simp] theorem State.setGrp_mgmt (s : State) (g : Nat) (x : OptGroup) : (s.setGrp g x).mgmt = s.mgmt := rfl
@[simp] theorem State.setGrp_evr (s : State) (g : Nat) (x : OptGroup) : (s.setGrp g x).evr = s.evr := rfl
@[simp] theorem State.setGrp_hif (s : State) (g : Nat) (x : OptGroup) : (s.setGrp g x).hif = s.hif := rfl
@[simp] theorem State.setGrp_cox (s : State) (g : Nat) (x : OptGroup) : (s.setGrp g x).cox = s.cox := rfl
@[simp] theorem State.setGrp_mem (s : State) (g : Nat) (x : OptGroup) : (s.setGrp g x).mem = s.mem := rfl
@[simp] theorem State.setGrp_time (s : State) (g : Nat) (x : OptGroup) : (s.setGrp g x).time = s.time := rfl
@[simp] theorem State.setGrp_power (s : State) (g : Nat) (x : OptGroup) : (s.setGrp g x).power = s.power := rfl
@[simp] theorem State.setGrp_sett (s : State) (g : Nat) (x : OptGroup) : (s.setGrp g x).sett = s.sett := rfl
@[simp] theorem State.setGrp_swc (s : State) (g : Nat) (x : OptGroup) : (s.setGrp g x).swc = s.swc := rfl
@[simp] theorem State.setGrp_lsc (s : State) (g : Nat) (x : OptGroup) : (s.setGrp g x).lsc = s.lsc := rfl
@[simp] theorem State.setGrp_tpt (s : State) (g : Nat) (x : OptGroup) : (s.setGrp g x).tpt = s.tpt := rfl
@[simp] theorem State.setGrp_col (s : State) (g : Nat) (x : OptGroup) : (s.setGrp g x).col = s.col := rfl
@[simp] theorem State.setGrp_plans (s : State) (g : Nat) (x : OptGroup) : (s.setGrp g x).plans = s.plans := rfl
@[simp] theorem State.setGrp_tfb (s : State) (g : Nat) (x : OptGroup) : (s.setGrp g x).tfb = s.tfb := rfl
@[simp] theorem State.setGrp_ash (s : State) (g : Nat) (x : OptGroup) : (s.setGrp g x).ash = s.ash := rfl
@[simp] theorem State.setGrp_line (s : State) (g : Nat) (x : OptGroup) : (s.setGrp g x).line = s.line := rfl
@[simp] theorem State.setGrp_flt (s : State) (g : Nat) (x : OptGroup) : (s.setGrp g x).flt = s.flt := rfl
@[simp] theorem State.setGrp_outer (s : State) (g : Nat) (x : OptGroup) : (s.setGrp g x).outer = s.outer := rfl
@[simp] theorem State.setGrp_rig (s : State) (g : Nat) (x : OptGroup) : (s.setGrp g x).rig = s.rig := rfl
@[simp] theorem State.setGrp_kmc (s : State) (g : Nat) (x : OptGroup) : (s.setGrp g x).kmc = s.kmc := rfl
@[simp] theorem State.setGrp_view (s : State) (g : Nat) (x : OptGroup) : (s.setGrp g x).view = s.view := rfl
@[simp] theorem State.setGrp_free (s : State) (g : Nat) (x : OptGroup) : (s.setGrp g x).free = s.free := rfl
@[simp] theorem State.setGrp_out (s : State) (g : Nat) (x : OptGroup) : (s.setGrp g x).out = s.out := rfl
@[simp] theorem State.setGrp_pending (s : State) (g : Nat) (x : OptGroup) : (s.setGrp g x).pending = s.pending := rfl

@[simp] theorem State.onCol_regs (s : State) (f : ColState → ColState) : (s.onCol f).regs = s.regs := rfl
@[simp] theorem State.onCol_boot (s : State) (f : ColState → ColState) : (s.onCol f).boot = s.boot := rfl
@[simp] theorem State.onCol_mgmt (s : State) (f : ColState → ColState) : (s.onCol f).mgmt = s.mgmt := rfl
@[simp] theorem State.onCol_evr (s : State) (f : ColState → ColState) : (s.onCol f).evr = s.evr := rfl
@[simp] theorem State.onCol_hif (s : State) (f : ColState → ColState) : (s.onCol f).hif = s.hif := rfl
@[simp] theorem State.onCol_cox (s : State) (f : ColState → ColState) : (s.onCol f).cox = s.cox := rfl
@[simp] theorem State.onCol_mem (s : State) (f : ColState → ColState) : (s.onCol f).mem = s.mem := rfl
@[simp] theorem State.onCol_time (s : State) (f : ColState → ColState) : (s.onCol f).time = s.time := rfl
@[simp] theorem State.onCol_power (s : State) (f : ColState → ColState) : (s.onCol f).power = s.power := rfl
@[simp] theorem State.onCol_sett (s : State) (f : ColState → ColState) : (s.onCol f).sett = s.sett := rfl
@[simp] theorem State.onCol_swc (s : State) (f : ColState → ColState) : (s.onCol f).swc = s.swc := rfl
@[simp] theorem State.onCol_lsc (s : State) (f : ColState → ColState) : (s.onCol f).lsc = s.lsc := rfl
@[simp] theorem State.onCol_tpt (s : State) (f : ColState → ColState) : (s.onCol f).tpt = s.tpt := rfl
@[simp] theorem State.onCol_plans (s : State) (f : ColState → ColState) : (s.onCol f).plans = s.plans := rfl
@[simp] theorem State.onCol_tfb (s : State) (f : ColState → ColState) : (s.onCol f).tfb = s.tfb := rfl
@[simp] theorem State.onCol_ash (s : State) (f : ColState → ColState) : (s.onCol f).ash = s.ash := rfl
@[simp] theorem State.onCol_line (s : State) (f : ColState → ColState) : (s.onCol f).line = s.line := rfl
@[simp] theorem State.onCol_flt (s : State) (f : ColState → ColState) : (s.onCol f).flt = s.flt := rfl
@[simp] theorem State.onCol_lanes (s : State) (f : ColState → ColState) : (s.onCol f).lanes = s.lanes := rfl
@[simp] theorem State.onCol_outer (s : State) (f : ColState → ColState) : (s.onCol f).outer = s.outer := rfl
@[simp] theorem State.onCol_rig (s : State) (f : ColState → ColState) : (s.onCol f).rig = s.rig := rfl
@[simp] theorem State.onCol_kmc (s : State) (f : ColState → ColState) : (s.onCol f).kmc = s.kmc := rfl
@[simp] theorem State.onCol_view (s : State) (f : ColState → ColState) : (s.onCol f).view = s.view := rfl
@[simp] theorem State.onCol_free (s : State) (f : ColState → ColState) : (s.onCol f).free = s.free := rfl
@[simp] theorem State.onCol_out (s : State) (f : ColState → ColState) : (s.onCol f).out = s.out := rfl
@[simp] theorem State.onCol_pending (s : State) (f : ColState → ColState) : (s.onCol f).pending = s.pending := rfl

@[simp] theorem State.onMem_regs (s : State) (f : MemState → MemState) : (s.onMem f).regs = s.regs := rfl
@[simp] theorem State.onMem_boot (s : State) (f : MemState → MemState) : (s.onMem f).boot = s.boot := rfl
@[simp] theorem State.onMem_mgmt (s : State) (f : MemState → MemState) : (s.onMem f).mgmt = s.mgmt := rfl
@[simp] theorem State.onMem_evr (s : State) (f : MemState → MemState) : (s.onMem f).evr = s.evr := rfl
@[simp] theorem State.onMem_hif (s : State) (f : MemState → MemState) : (s.onMem f).hif = s.hif := rfl
@[simp] theorem State.onMem_cox (s : State) (f : MemState → MemState) : (s.onMem f).cox = s.cox := rfl
@[simp] theorem State.onMem_time (s : State) (f : MemState → MemState) : (s.onMem f).time = s.time := rfl
@[simp] theorem State.onMem_power (s : State) (f : MemState → MemState) : (s.onMem f).power = s.power := rfl
@[simp] theorem State.onMem_sett (s : State) (f : MemState → MemState) : (s.onMem f).sett = s.sett := rfl
@[simp] theorem State.onMem_swc (s : State) (f : MemState → MemState) : (s.onMem f).swc = s.swc := rfl
@[simp] theorem State.onMem_lsc (s : State) (f : MemState → MemState) : (s.onMem f).lsc = s.lsc := rfl
@[simp] theorem State.onMem_tpt (s : State) (f : MemState → MemState) : (s.onMem f).tpt = s.tpt := rfl
@[simp] theorem State.onMem_col (s : State) (f : MemState → MemState) : (s.onMem f).col = s.col := rfl
@[simp] theorem State.onMem_plans (s : State) (f : MemState → MemState) : (s.onMem f).plans = s.plans := rfl
@[simp] theorem State.onMem_tfb (s : State) (f : MemState → MemState) : (s.onMem f).tfb = s.tfb := rfl
@[simp] theorem State.onMem_ash (s : State) (f : MemState → MemState) : (s.onMem f).ash = s.ash := rfl
@[simp] theorem State.onMem_line (s : State) (f : MemState → MemState) : (s.onMem f).line = s.line := rfl
@[simp] theorem State.onMem_flt (s : State) (f : MemState → MemState) : (s.onMem f).flt = s.flt := rfl
@[simp] theorem State.onMem_lanes (s : State) (f : MemState → MemState) : (s.onMem f).lanes = s.lanes := rfl
@[simp] theorem State.onMem_outer (s : State) (f : MemState → MemState) : (s.onMem f).outer = s.outer := rfl
@[simp] theorem State.onMem_rig (s : State) (f : MemState → MemState) : (s.onMem f).rig = s.rig := rfl
@[simp] theorem State.onMem_kmc (s : State) (f : MemState → MemState) : (s.onMem f).kmc = s.kmc := rfl
@[simp] theorem State.onMem_view (s : State) (f : MemState → MemState) : (s.onMem f).view = s.view := rfl
@[simp] theorem State.onMem_free (s : State) (f : MemState → MemState) : (s.onMem f).free = s.free := rfl
@[simp] theorem State.onMem_out (s : State) (f : MemState → MemState) : (s.onMem f).out = s.out := rfl
@[simp] theorem State.onMem_pending (s : State) (f : MemState → MemState) : (s.onMem f).pending = s.pending := rfl

@[simp] theorem State.onKmc_regs (s : State) (f : KmcState → KmcState) : (s.onKmc f).regs = s.regs := rfl
@[simp] theorem State.onKmc_boot (s : State) (f : KmcState → KmcState) : (s.onKmc f).boot = s.boot := rfl
@[simp] theorem State.onKmc_mgmt (s : State) (f : KmcState → KmcState) : (s.onKmc f).mgmt = s.mgmt := rfl
@[simp] theorem State.onKmc_evr (s : State) (f : KmcState → KmcState) : (s.onKmc f).evr = s.evr := rfl
@[simp] theorem State.onKmc_hif (s : State) (f : KmcState → KmcState) : (s.onKmc f).hif = s.hif := rfl
@[simp] theorem State.onKmc_cox (s : State) (f : KmcState → KmcState) : (s.onKmc f).cox = s.cox := rfl
@[simp] theorem State.onKmc_mem (s : State) (f : KmcState → KmcState) : (s.onKmc f).mem = s.mem := rfl
@[simp] theorem State.onKmc_time (s : State) (f : KmcState → KmcState) : (s.onKmc f).time = s.time := rfl
@[simp] theorem State.onKmc_power (s : State) (f : KmcState → KmcState) : (s.onKmc f).power = s.power := rfl
@[simp] theorem State.onKmc_sett (s : State) (f : KmcState → KmcState) : (s.onKmc f).sett = s.sett := rfl
@[simp] theorem State.onKmc_swc (s : State) (f : KmcState → KmcState) : (s.onKmc f).swc = s.swc := rfl
@[simp] theorem State.onKmc_lsc (s : State) (f : KmcState → KmcState) : (s.onKmc f).lsc = s.lsc := rfl
@[simp] theorem State.onKmc_tpt (s : State) (f : KmcState → KmcState) : (s.onKmc f).tpt = s.tpt := rfl
@[simp] theorem State.onKmc_col (s : State) (f : KmcState → KmcState) : (s.onKmc f).col = s.col := rfl
@[simp] theorem State.onKmc_plans (s : State) (f : KmcState → KmcState) : (s.onKmc f).plans = s.plans := rfl
@[simp] theorem State.onKmc_tfb (s : State) (f : KmcState → KmcState) : (s.onKmc f).tfb = s.tfb := rfl
@[simp] theorem State.onKmc_ash (s : State) (f : KmcState → KmcState) : (s.onKmc f).ash = s.ash := rfl
@[simp] theorem State.onKmc_line (s : State) (f : KmcState → KmcState) : (s.onKmc f).line = s.line := rfl
@[simp] theorem State.onKmc_flt (s : State) (f : KmcState → KmcState) : (s.onKmc f).flt = s.flt := rfl
@[simp] theorem State.onKmc_lanes (s : State) (f : KmcState → KmcState) : (s.onKmc f).lanes = s.lanes := rfl
@[simp] theorem State.onKmc_outer (s : State) (f : KmcState → KmcState) : (s.onKmc f).outer = s.outer := rfl
@[simp] theorem State.onKmc_rig (s : State) (f : KmcState → KmcState) : (s.onKmc f).rig = s.rig := rfl
@[simp] theorem State.onKmc_view (s : State) (f : KmcState → KmcState) : (s.onKmc f).view = s.view := rfl
@[simp] theorem State.onKmc_free (s : State) (f : KmcState → KmcState) : (s.onKmc f).free = s.free := rfl
@[simp] theorem State.onKmc_out (s : State) (f : KmcState → KmcState) : (s.onKmc f).out = s.out := rfl
@[simp] theorem State.onKmc_pending (s : State) (f : KmcState → KmcState) : (s.onKmc f).pending = s.pending := rfl

@[simp] theorem State.onAsh_regs (s : State) (f : AshState → AshState) : (s.onAsh f).regs = s.regs := rfl
@[simp] theorem State.onAsh_boot (s : State) (f : AshState → AshState) : (s.onAsh f).boot = s.boot := rfl
@[simp] theorem State.onAsh_mgmt (s : State) (f : AshState → AshState) : (s.onAsh f).mgmt = s.mgmt := rfl
@[simp] theorem State.onAsh_evr (s : State) (f : AshState → AshState) : (s.onAsh f).evr = s.evr := rfl
@[simp] theorem State.onAsh_hif (s : State) (f : AshState → AshState) : (s.onAsh f).hif = s.hif := rfl
@[simp] theorem State.onAsh_cox (s : State) (f : AshState → AshState) : (s.onAsh f).cox = s.cox := rfl
@[simp] theorem State.onAsh_mem (s : State) (f : AshState → AshState) : (s.onAsh f).mem = s.mem := rfl
@[simp] theorem State.onAsh_time (s : State) (f : AshState → AshState) : (s.onAsh f).time = s.time := rfl
@[simp] theorem State.onAsh_power (s : State) (f : AshState → AshState) : (s.onAsh f).power = s.power := rfl
@[simp] theorem State.onAsh_sett (s : State) (f : AshState → AshState) : (s.onAsh f).sett = s.sett := rfl
@[simp] theorem State.onAsh_swc (s : State) (f : AshState → AshState) : (s.onAsh f).swc = s.swc := rfl
@[simp] theorem State.onAsh_lsc (s : State) (f : AshState → AshState) : (s.onAsh f).lsc = s.lsc := rfl
@[simp] theorem State.onAsh_tpt (s : State) (f : AshState → AshState) : (s.onAsh f).tpt = s.tpt := rfl
@[simp] theorem State.onAsh_col (s : State) (f : AshState → AshState) : (s.onAsh f).col = s.col := rfl
@[simp] theorem State.onAsh_plans (s : State) (f : AshState → AshState) : (s.onAsh f).plans = s.plans := rfl
@[simp] theorem State.onAsh_tfb (s : State) (f : AshState → AshState) : (s.onAsh f).tfb = s.tfb := rfl
@[simp] theorem State.onAsh_line (s : State) (f : AshState → AshState) : (s.onAsh f).line = s.line := rfl
@[simp] theorem State.onAsh_flt (s : State) (f : AshState → AshState) : (s.onAsh f).flt = s.flt := rfl
@[simp] theorem State.onAsh_lanes (s : State) (f : AshState → AshState) : (s.onAsh f).lanes = s.lanes := rfl
@[simp] theorem State.onAsh_outer (s : State) (f : AshState → AshState) : (s.onAsh f).outer = s.outer := rfl
@[simp] theorem State.onAsh_rig (s : State) (f : AshState → AshState) : (s.onAsh f).rig = s.rig := rfl
@[simp] theorem State.onAsh_kmc (s : State) (f : AshState → AshState) : (s.onAsh f).kmc = s.kmc := rfl
@[simp] theorem State.onAsh_view (s : State) (f : AshState → AshState) : (s.onAsh f).view = s.view := rfl
@[simp] theorem State.onAsh_free (s : State) (f : AshState → AshState) : (s.onAsh f).free = s.free := rfl
@[simp] theorem State.onAsh_out (s : State) (f : AshState → AshState) : (s.onAsh f).out = s.out := rfl
@[simp] theorem State.onAsh_pending (s : State) (f : AshState → AshState) : (s.onAsh f).pending = s.pending := rfl

@[simp] theorem State.setPlan_regs (s : State) (n : Nat) (p : PlanSlot) : (s.setPlan n p).regs = s.regs := rfl
@[simp] theorem State.setPlan_boot (s : State) (n : Nat) (p : PlanSlot) : (s.setPlan n p).boot = s.boot := rfl
@[simp] theorem State.setPlan_mgmt (s : State) (n : Nat) (p : PlanSlot) : (s.setPlan n p).mgmt = s.mgmt := rfl
@[simp] theorem State.setPlan_evr (s : State) (n : Nat) (p : PlanSlot) : (s.setPlan n p).evr = s.evr := rfl
@[simp] theorem State.setPlan_hif (s : State) (n : Nat) (p : PlanSlot) : (s.setPlan n p).hif = s.hif := rfl
@[simp] theorem State.setPlan_cox (s : State) (n : Nat) (p : PlanSlot) : (s.setPlan n p).cox = s.cox := rfl
@[simp] theorem State.setPlan_mem (s : State) (n : Nat) (p : PlanSlot) : (s.setPlan n p).mem = s.mem := rfl
@[simp] theorem State.setPlan_time (s : State) (n : Nat) (p : PlanSlot) : (s.setPlan n p).time = s.time := rfl
@[simp] theorem State.setPlan_power (s : State) (n : Nat) (p : PlanSlot) : (s.setPlan n p).power = s.power := rfl
@[simp] theorem State.setPlan_sett (s : State) (n : Nat) (p : PlanSlot) : (s.setPlan n p).sett = s.sett := rfl
@[simp] theorem State.setPlan_swc (s : State) (n : Nat) (p : PlanSlot) : (s.setPlan n p).swc = s.swc := rfl
@[simp] theorem State.setPlan_lsc (s : State) (n : Nat) (p : PlanSlot) : (s.setPlan n p).lsc = s.lsc := rfl
@[simp] theorem State.setPlan_tpt (s : State) (n : Nat) (p : PlanSlot) : (s.setPlan n p).tpt = s.tpt := rfl
@[simp] theorem State.setPlan_col (s : State) (n : Nat) (p : PlanSlot) : (s.setPlan n p).col = s.col := rfl
@[simp] theorem State.setPlan_tfb (s : State) (n : Nat) (p : PlanSlot) : (s.setPlan n p).tfb = s.tfb := rfl
@[simp] theorem State.setPlan_ash (s : State) (n : Nat) (p : PlanSlot) : (s.setPlan n p).ash = s.ash := rfl
@[simp] theorem State.setPlan_line (s : State) (n : Nat) (p : PlanSlot) : (s.setPlan n p).line = s.line := rfl
@[simp] theorem State.setPlan_flt (s : State) (n : Nat) (p : PlanSlot) : (s.setPlan n p).flt = s.flt := rfl
@[simp] theorem State.setPlan_lanes (s : State) (n : Nat) (p : PlanSlot) : (s.setPlan n p).lanes = s.lanes := rfl
@[simp] theorem State.setPlan_outer (s : State) (n : Nat) (p : PlanSlot) : (s.setPlan n p).outer = s.outer := rfl
@[simp] theorem State.setPlan_rig (s : State) (n : Nat) (p : PlanSlot) : (s.setPlan n p).rig = s.rig := rfl
@[simp] theorem State.setPlan_kmc (s : State) (n : Nat) (p : PlanSlot) : (s.setPlan n p).kmc = s.kmc := rfl
@[simp] theorem State.setPlan_view (s : State) (n : Nat) (p : PlanSlot) : (s.setPlan n p).view = s.view := rfl
@[simp] theorem State.setPlan_free (s : State) (n : Nat) (p : PlanSlot) : (s.setPlan n p).free = s.free := rfl
@[simp] theorem State.setPlan_out (s : State) (n : Nat) (p : PlanSlot) : (s.setPlan n p).out = s.out := rfl
@[simp] theorem State.setPlan_pending (s : State) (n : Nat) (p : PlanSlot) : (s.setPlan n p).pending = s.pending := rfl

@[simp] theorem State.onRigs_regs (s : State) (f : List Rig → List Rig) : (s.onRigs f).regs = s.regs := rfl
@[simp] theorem State.onRigs_boot (s : State) (f : List Rig → List Rig) : (s.onRigs f).boot = s.boot := rfl
@[simp] theorem State.onRigs_mgmt (s : State) (f : List Rig → List Rig) : (s.onRigs f).mgmt = s.mgmt := rfl
@[simp] theorem State.onRigs_evr (s : State) (f : List Rig → List Rig) : (s.onRigs f).evr = s.evr := rfl
@[simp] theorem State.onRigs_hif (s : State) (f : List Rig → List Rig) : (s.onRigs f).hif = s.hif := rfl
@[simp] theorem State.onRigs_cox (s : State) (f : List Rig → List Rig) : (s.onRigs f).cox = s.cox := rfl
@[simp] theorem State.onRigs_mem (s : State) (f : List Rig → List Rig) : (s.onRigs f).mem = s.mem := rfl
@[simp] theorem State.onRigs_time (s : State) (f : List Rig → List Rig) : (s.onRigs f).time = s.time := rfl
@[simp] theorem State.onRigs_power (s : State) (f : List Rig → List Rig) : (s.onRigs f).power = s.power := rfl
@[simp] theorem State.onRigs_sett (s : State) (f : List Rig → List Rig) : (s.onRigs f).sett = s.sett := rfl
@[simp] theorem State.onRigs_swc (s : State) (f : List Rig → List Rig) : (s.onRigs f).swc = s.swc := rfl
@[simp] theorem State.onRigs_lsc (s : State) (f : List Rig → List Rig) : (s.onRigs f).lsc = s.lsc := rfl
@[simp] theorem State.onRigs_tpt (s : State) (f : List Rig → List Rig) : (s.onRigs f).tpt = s.tpt := rfl
@[simp] theorem State.onRigs_col (s : State) (f : List Rig → List Rig) : (s.onRigs f).col = s.col := rfl
@[simp] theorem State.onRigs_plans (s : State) (f : List Rig → List Rig) : (s.onRigs f).plans = s.plans := rfl
@[simp] theorem State.onRigs_tfb (s : State) (f : List Rig → List Rig) : (s.onRigs f).tfb = s.tfb := rfl
@[simp] theorem State.onRigs_ash (s : State) (f : List Rig → List Rig) : (s.onRigs f).ash = s.ash := rfl
@[simp] theorem State.onRigs_line (s : State) (f : List Rig → List Rig) : (s.onRigs f).line = s.line := rfl
@[simp] theorem State.onRigs_flt (s : State) (f : List Rig → List Rig) : (s.onRigs f).flt = s.flt := rfl
@[simp] theorem State.onRigs_lanes (s : State) (f : List Rig → List Rig) : (s.onRigs f).lanes = s.lanes := rfl
@[simp] theorem State.onRigs_outer (s : State) (f : List Rig → List Rig) : (s.onRigs f).outer = s.outer := rfl
@[simp] theorem State.onRigs_kmc (s : State) (f : List Rig → List Rig) : (s.onRigs f).kmc = s.kmc := rfl
@[simp] theorem State.onRigs_view (s : State) (f : List Rig → List Rig) : (s.onRigs f).view = s.view := rfl
@[simp] theorem State.onRigs_free (s : State) (f : List Rig → List Rig) : (s.onRigs f).free = s.free := rfl
@[simp] theorem State.onRigs_out (s : State) (f : List Rig → List Rig) : (s.onRigs f).out = s.out := rfl
@[simp] theorem State.onRigs_pending (s : State) (f : List Rig → List Rig) : (s.onRigs f).pending = s.pending := rfl

@[simp] theorem State.setShard_regs (s : State) (k : Nat) (h : OutShard) : (s.setShard k h).regs = s.regs := rfl
@[simp] theorem State.setShard_boot (s : State) (k : Nat) (h : OutShard) : (s.setShard k h).boot = s.boot := rfl
@[simp] theorem State.setShard_mgmt (s : State) (k : Nat) (h : OutShard) : (s.setShard k h).mgmt = s.mgmt := rfl
@[simp] theorem State.setShard_evr (s : State) (k : Nat) (h : OutShard) : (s.setShard k h).evr = s.evr := rfl
@[simp] theorem State.setShard_hif (s : State) (k : Nat) (h : OutShard) : (s.setShard k h).hif = s.hif := rfl
@[simp] theorem State.setShard_cox (s : State) (k : Nat) (h : OutShard) : (s.setShard k h).cox = s.cox := rfl
@[simp] theorem State.setShard_mem (s : State) (k : Nat) (h : OutShard) : (s.setShard k h).mem = s.mem := rfl
@[simp] theorem State.setShard_time (s : State) (k : Nat) (h : OutShard) : (s.setShard k h).time = s.time := rfl
@[simp] theorem State.setShard_power (s : State) (k : Nat) (h : OutShard) : (s.setShard k h).power = s.power := rfl
@[simp] theorem State.setShard_sett (s : State) (k : Nat) (h : OutShard) : (s.setShard k h).sett = s.sett := rfl
@[simp] theorem State.setShard_swc (s : State) (k : Nat) (h : OutShard) : (s.setShard k h).swc = s.swc := rfl
@[simp] theorem State.setShard_lsc (s : State) (k : Nat) (h : OutShard) : (s.setShard k h).lsc = s.lsc := rfl
@[simp] theorem State.setShard_tpt (s : State) (k : Nat) (h : OutShard) : (s.setShard k h).tpt = s.tpt := rfl
@[simp] theorem State.setShard_col (s : State) (k : Nat) (h : OutShard) : (s.setShard k h).col = s.col := rfl
@[simp] theorem State.setShard_plans (s : State) (k : Nat) (h : OutShard) : (s.setShard k h).plans = s.plans := rfl
@[simp] theorem State.setShard_tfb (s : State) (k : Nat) (h : OutShard) : (s.setShard k h).tfb = s.tfb := rfl
@[simp] theorem State.setShard_ash (s : State) (k : Nat) (h : OutShard) : (s.setShard k h).ash = s.ash := rfl
@[simp] theorem State.setShard_line (s : State) (k : Nat) (h : OutShard) : (s.setShard k h).line = s.line := rfl
@[simp] theorem State.setShard_flt (s : State) (k : Nat) (h : OutShard) : (s.setShard k h).flt = s.flt := rfl
@[simp] theorem State.setShard_lanes (s : State) (k : Nat) (h : OutShard) : (s.setShard k h).lanes = s.lanes := rfl
@[simp] theorem State.setShard_rig (s : State) (k : Nat) (h : OutShard) : (s.setShard k h).rig = s.rig := rfl
@[simp] theorem State.setShard_kmc (s : State) (k : Nat) (h : OutShard) : (s.setShard k h).kmc = s.kmc := rfl
@[simp] theorem State.setShard_view (s : State) (k : Nat) (h : OutShard) : (s.setShard k h).view = s.view := rfl
@[simp] theorem State.setShard_free (s : State) (k : Nat) (h : OutShard) : (s.setShard k h).free = s.free := rfl
@[simp] theorem State.setShard_out (s : State) (k : Nat) (h : OutShard) : (s.setShard k h).out = s.out := rfl
@[simp] theorem State.setShard_pending (s : State) (k : Nat) (h : OutShard) : (s.setShard k h).pending = s.pending := rfl

@[simp] theorem State.setReg_boot (s : State) (k : RegKey) (w : Word) : (s.setReg k w).boot = s.boot := rfl
@[simp] theorem State.setReg_mgmt (s : State) (k : RegKey) (w : Word) : (s.setReg k w).mgmt = s.mgmt := rfl
@[simp] theorem State.setReg_evr (s : State) (k : RegKey) (w : Word) : (s.setReg k w).evr = s.evr := rfl
@[simp] theorem State.setReg_hif (s : State) (k : RegKey) (w : Word) : (s.setReg k w).hif = s.hif := rfl
@[simp] theorem State.setReg_cox (s : State) (k : RegKey) (w : Word) : (s.setReg k w).cox = s.cox := rfl
@[simp] theorem State.setReg_mem (s : State) (k : RegKey) (w : Word) : (s.setReg k w).mem = s.mem := rfl
@[simp] theorem State.setReg_time (s : State) (k : RegKey) (w : Word) : (s.setReg k w).time = s.time := rfl
@[simp] theorem State.setReg_power (s : State) (k : RegKey) (w : Word) : (s.setReg k w).power = s.power := rfl
@[simp] theorem State.setReg_sett (s : State) (k : RegKey) (w : Word) : (s.setReg k w).sett = s.sett := rfl
@[simp] theorem State.setReg_swc (s : State) (k : RegKey) (w : Word) : (s.setReg k w).swc = s.swc := rfl
@[simp] theorem State.setReg_lsc (s : State) (k : RegKey) (w : Word) : (s.setReg k w).lsc = s.lsc := rfl
@[simp] theorem State.setReg_tpt (s : State) (k : RegKey) (w : Word) : (s.setReg k w).tpt = s.tpt := rfl
@[simp] theorem State.setReg_col (s : State) (k : RegKey) (w : Word) : (s.setReg k w).col = s.col := rfl
@[simp] theorem State.setReg_plans (s : State) (k : RegKey) (w : Word) : (s.setReg k w).plans = s.plans := rfl
@[simp] theorem State.setReg_tfb (s : State) (k : RegKey) (w : Word) : (s.setReg k w).tfb = s.tfb := rfl
@[simp] theorem State.setReg_ash (s : State) (k : RegKey) (w : Word) : (s.setReg k w).ash = s.ash := rfl
@[simp] theorem State.setReg_line (s : State) (k : RegKey) (w : Word) : (s.setReg k w).line = s.line := rfl
@[simp] theorem State.setReg_flt (s : State) (k : RegKey) (w : Word) : (s.setReg k w).flt = s.flt := rfl
@[simp] theorem State.setReg_lanes (s : State) (k : RegKey) (w : Word) : (s.setReg k w).lanes = s.lanes := rfl
@[simp] theorem State.setReg_outer (s : State) (k : RegKey) (w : Word) : (s.setReg k w).outer = s.outer := rfl
@[simp] theorem State.setReg_rig (s : State) (k : RegKey) (w : Word) : (s.setReg k w).rig = s.rig := rfl
@[simp] theorem State.setReg_kmc (s : State) (k : RegKey) (w : Word) : (s.setReg k w).kmc = s.kmc := rfl
@[simp] theorem State.setReg_view (s : State) (k : RegKey) (w : Word) : (s.setReg k w).view = s.view := rfl
@[simp] theorem State.setReg_free (s : State) (k : RegKey) (w : Word) : (s.setReg k w).free = s.free := rfl
@[simp] theorem State.setReg_out (s : State) (k : RegKey) (w : Word) : (s.setReg k w).out = s.out := rfl
@[simp] theorem State.setReg_pending (s : State) (k : RegKey) (w : Word) : (s.setReg k w).pending = s.pending := rfl

@[simp] theorem State.emit_regs (s : State) (o : Out) : (s.emit o).regs = s.regs := rfl
@[simp] theorem State.emit_boot (s : State) (o : Out) : (s.emit o).boot = s.boot := rfl
@[simp] theorem State.emit_mgmt (s : State) (o : Out) : (s.emit o).mgmt = s.mgmt := rfl
@[simp] theorem State.emit_evr (s : State) (o : Out) : (s.emit o).evr = s.evr := rfl
@[simp] theorem State.emit_hif (s : State) (o : Out) : (s.emit o).hif = s.hif := rfl
@[simp] theorem State.emit_cox (s : State) (o : Out) : (s.emit o).cox = s.cox := rfl
@[simp] theorem State.emit_mem (s : State) (o : Out) : (s.emit o).mem = s.mem := rfl
@[simp] theorem State.emit_time (s : State) (o : Out) : (s.emit o).time = s.time := rfl
@[simp] theorem State.emit_power (s : State) (o : Out) : (s.emit o).power = s.power := rfl
@[simp] theorem State.emit_sett (s : State) (o : Out) : (s.emit o).sett = s.sett := rfl
@[simp] theorem State.emit_swc (s : State) (o : Out) : (s.emit o).swc = s.swc := rfl
@[simp] theorem State.emit_lsc (s : State) (o : Out) : (s.emit o).lsc = s.lsc := rfl
@[simp] theorem State.emit_tpt (s : State) (o : Out) : (s.emit o).tpt = s.tpt := rfl
@[simp] theorem State.emit_col (s : State) (o : Out) : (s.emit o).col = s.col := rfl
@[simp] theorem State.emit_plans (s : State) (o : Out) : (s.emit o).plans = s.plans := rfl
@[simp] theorem State.emit_tfb (s : State) (o : Out) : (s.emit o).tfb = s.tfb := rfl
@[simp] theorem State.emit_ash (s : State) (o : Out) : (s.emit o).ash = s.ash := rfl
@[simp] theorem State.emit_line (s : State) (o : Out) : (s.emit o).line = s.line := rfl
@[simp] theorem State.emit_flt (s : State) (o : Out) : (s.emit o).flt = s.flt := rfl
@[simp] theorem State.emit_lanes (s : State) (o : Out) : (s.emit o).lanes = s.lanes := rfl
@[simp] theorem State.emit_outer (s : State) (o : Out) : (s.emit o).outer = s.outer := rfl
@[simp] theorem State.emit_rig (s : State) (o : Out) : (s.emit o).rig = s.rig := rfl
@[simp] theorem State.emit_kmc (s : State) (o : Out) : (s.emit o).kmc = s.kmc := rfl
@[simp] theorem State.emit_view (s : State) (o : Out) : (s.emit o).view = s.view := rfl
@[simp] theorem State.emit_free (s : State) (o : Out) : (s.emit o).free = s.free := rfl
@[simp] theorem State.emit_pending (s : State) (o : Out) : (s.emit o).pending = s.pending := rfl

@[simp] theorem State.onPower_regs (s : State) (f : PowerState → PowerState) : (s.onPower f).regs = s.regs := rfl
@[simp] theorem State.onPower_boot (s : State) (f : PowerState → PowerState) : (s.onPower f).boot = s.boot := rfl
@[simp] theorem State.onPower_mgmt (s : State) (f : PowerState → PowerState) : (s.onPower f).mgmt = s.mgmt := rfl
@[simp] theorem State.onPower_evr (s : State) (f : PowerState → PowerState) : (s.onPower f).evr = s.evr := rfl
@[simp] theorem State.onPower_hif (s : State) (f : PowerState → PowerState) : (s.onPower f).hif = s.hif := rfl
@[simp] theorem State.onPower_cox (s : State) (f : PowerState → PowerState) : (s.onPower f).cox = s.cox := rfl
@[simp] theorem State.onPower_mem (s : State) (f : PowerState → PowerState) : (s.onPower f).mem = s.mem := rfl
@[simp] theorem State.onPower_time (s : State) (f : PowerState → PowerState) : (s.onPower f).time = s.time := rfl
@[simp] theorem State.onPower_sett (s : State) (f : PowerState → PowerState) : (s.onPower f).sett = s.sett := rfl
@[simp] theorem State.onPower_swc (s : State) (f : PowerState → PowerState) : (s.onPower f).swc = s.swc := rfl
@[simp] theorem State.onPower_lsc (s : State) (f : PowerState → PowerState) : (s.onPower f).lsc = s.lsc := rfl
@[simp] theorem State.onPower_tpt (s : State) (f : PowerState → PowerState) : (s.onPower f).tpt = s.tpt := rfl
@[simp] theorem State.onPower_col (s : State) (f : PowerState → PowerState) : (s.onPower f).col = s.col := rfl
@[simp] theorem State.onPower_plans (s : State) (f : PowerState → PowerState) : (s.onPower f).plans = s.plans := rfl
@[simp] theorem State.onPower_tfb (s : State) (f : PowerState → PowerState) : (s.onPower f).tfb = s.tfb := rfl
@[simp] theorem State.onPower_ash (s : State) (f : PowerState → PowerState) : (s.onPower f).ash = s.ash := rfl
@[simp] theorem State.onPower_line (s : State) (f : PowerState → PowerState) : (s.onPower f).line = s.line := rfl
@[simp] theorem State.onPower_flt (s : State) (f : PowerState → PowerState) : (s.onPower f).flt = s.flt := rfl
@[simp] theorem State.onPower_lanes (s : State) (f : PowerState → PowerState) : (s.onPower f).lanes = s.lanes := rfl
@[simp] theorem State.onPower_outer (s : State) (f : PowerState → PowerState) : (s.onPower f).outer = s.outer := rfl
@[simp] theorem State.onPower_rig (s : State) (f : PowerState → PowerState) : (s.onPower f).rig = s.rig := rfl
@[simp] theorem State.onPower_kmc (s : State) (f : PowerState → PowerState) : (s.onPower f).kmc = s.kmc := rfl
@[simp] theorem State.onPower_view (s : State) (f : PowerState → PowerState) : (s.onPower f).view = s.view := rfl
@[simp] theorem State.onPower_free (s : State) (f : PowerState → PowerState) : (s.onPower f).free = s.free := rfl
@[simp] theorem State.onPower_out (s : State) (f : PowerState → PowerState) : (s.onPower f).out = s.out := rfl
@[simp] theorem State.onPower_pending (s : State) (f : PowerState → PowerState) : (s.onPower f).pending = s.pending := rfl

@[simp] theorem State.onBoot_regs (s : State) (f : BootState → BootState) : (s.onBoot f).regs = s.regs := rfl
@[simp] theorem State.onBoot_mgmt (s : State) (f : BootState → BootState) : (s.onBoot f).mgmt = s.mgmt := rfl
@[simp] theorem State.onBoot_evr (s : State) (f : BootState → BootState) : (s.onBoot f).evr = s.evr := rfl
@[simp] theorem State.onBoot_hif (s : State) (f : BootState → BootState) : (s.onBoot f).hif = s.hif := rfl
@[simp] theorem State.onBoot_cox (s : State) (f : BootState → BootState) : (s.onBoot f).cox = s.cox := rfl
@[simp] theorem State.onBoot_mem (s : State) (f : BootState → BootState) : (s.onBoot f).mem = s.mem := rfl
@[simp] theorem State.onBoot_time (s : State) (f : BootState → BootState) : (s.onBoot f).time = s.time := rfl
@[simp] theorem State.onBoot_power (s : State) (f : BootState → BootState) : (s.onBoot f).power = s.power := rfl
@[simp] theorem State.onBoot_sett (s : State) (f : BootState → BootState) : (s.onBoot f).sett = s.sett := rfl
@[simp] theorem State.onBoot_swc (s : State) (f : BootState → BootState) : (s.onBoot f).swc = s.swc := rfl
@[simp] theorem State.onBoot_lsc (s : State) (f : BootState → BootState) : (s.onBoot f).lsc = s.lsc := rfl
@[simp] theorem State.onBoot_tpt (s : State) (f : BootState → BootState) : (s.onBoot f).tpt = s.tpt := rfl
@[simp] theorem State.onBoot_col (s : State) (f : BootState → BootState) : (s.onBoot f).col = s.col := rfl
@[simp] theorem State.onBoot_plans (s : State) (f : BootState → BootState) : (s.onBoot f).plans = s.plans := rfl
@[simp] theorem State.onBoot_tfb (s : State) (f : BootState → BootState) : (s.onBoot f).tfb = s.tfb := rfl
@[simp] theorem State.onBoot_ash (s : State) (f : BootState → BootState) : (s.onBoot f).ash = s.ash := rfl
@[simp] theorem State.onBoot_line (s : State) (f : BootState → BootState) : (s.onBoot f).line = s.line := rfl
@[simp] theorem State.onBoot_flt (s : State) (f : BootState → BootState) : (s.onBoot f).flt = s.flt := rfl
@[simp] theorem State.onBoot_lanes (s : State) (f : BootState → BootState) : (s.onBoot f).lanes = s.lanes := rfl
@[simp] theorem State.onBoot_outer (s : State) (f : BootState → BootState) : (s.onBoot f).outer = s.outer := rfl
@[simp] theorem State.onBoot_rig (s : State) (f : BootState → BootState) : (s.onBoot f).rig = s.rig := rfl
@[simp] theorem State.onBoot_kmc (s : State) (f : BootState → BootState) : (s.onBoot f).kmc = s.kmc := rfl
@[simp] theorem State.onBoot_view (s : State) (f : BootState → BootState) : (s.onBoot f).view = s.view := rfl
@[simp] theorem State.onBoot_free (s : State) (f : BootState → BootState) : (s.onBoot f).free = s.free := rfl
@[simp] theorem State.onBoot_out (s : State) (f : BootState → BootState) : (s.onBoot f).out = s.out := rfl
@[simp] theorem State.onBoot_pending (s : State) (f : BootState → BootState) : (s.onBoot f).pending = s.pending := rfl

@[simp] theorem State.setLink_regs (s : State) (l : Nat) (x : SecLink) : (s.setLink l x).regs = s.regs := rfl
@[simp] theorem State.setLink_boot (s : State) (l : Nat) (x : SecLink) : (s.setLink l x).boot = s.boot := rfl
@[simp] theorem State.setLink_mgmt (s : State) (l : Nat) (x : SecLink) : (s.setLink l x).mgmt = s.mgmt := rfl
@[simp] theorem State.setLink_evr (s : State) (l : Nat) (x : SecLink) : (s.setLink l x).evr = s.evr := rfl
@[simp] theorem State.setLink_hif (s : State) (l : Nat) (x : SecLink) : (s.setLink l x).hif = s.hif := rfl
@[simp] theorem State.setLink_cox (s : State) (l : Nat) (x : SecLink) : (s.setLink l x).cox = s.cox := rfl
@[simp] theorem State.setLink_mem (s : State) (l : Nat) (x : SecLink) : (s.setLink l x).mem = s.mem := rfl
@[simp] theorem State.setLink_time (s : State) (l : Nat) (x : SecLink) : (s.setLink l x).time = s.time := rfl
@[simp] theorem State.setLink_power (s : State) (l : Nat) (x : SecLink) : (s.setLink l x).power = s.power := rfl
@[simp] theorem State.setLink_sett (s : State) (l : Nat) (x : SecLink) : (s.setLink l x).sett = s.sett := rfl
@[simp] theorem State.setLink_swc (s : State) (l : Nat) (x : SecLink) : (s.setLink l x).swc = s.swc := rfl
@[simp] theorem State.setLink_tpt (s : State) (l : Nat) (x : SecLink) : (s.setLink l x).tpt = s.tpt := rfl
@[simp] theorem State.setLink_col (s : State) (l : Nat) (x : SecLink) : (s.setLink l x).col = s.col := rfl
@[simp] theorem State.setLink_plans (s : State) (l : Nat) (x : SecLink) : (s.setLink l x).plans = s.plans := rfl
@[simp] theorem State.setLink_tfb (s : State) (l : Nat) (x : SecLink) : (s.setLink l x).tfb = s.tfb := rfl
@[simp] theorem State.setLink_ash (s : State) (l : Nat) (x : SecLink) : (s.setLink l x).ash = s.ash := rfl
@[simp] theorem State.setLink_line (s : State) (l : Nat) (x : SecLink) : (s.setLink l x).line = s.line := rfl
@[simp] theorem State.setLink_flt (s : State) (l : Nat) (x : SecLink) : (s.setLink l x).flt = s.flt := rfl
@[simp] theorem State.setLink_lanes (s : State) (l : Nat) (x : SecLink) : (s.setLink l x).lanes = s.lanes := rfl
@[simp] theorem State.setLink_outer (s : State) (l : Nat) (x : SecLink) : (s.setLink l x).outer = s.outer := rfl
@[simp] theorem State.setLink_rig (s : State) (l : Nat) (x : SecLink) : (s.setLink l x).rig = s.rig := rfl
@[simp] theorem State.setLink_kmc (s : State) (l : Nat) (x : SecLink) : (s.setLink l x).kmc = s.kmc := rfl
@[simp] theorem State.setLink_view (s : State) (l : Nat) (x : SecLink) : (s.setLink l x).view = s.view := rfl
@[simp] theorem State.setLink_free (s : State) (l : Nat) (x : SecLink) : (s.setLink l x).free = s.free := rfl
@[simp] theorem State.setLink_out (s : State) (l : Nat) (x : SecLink) : (s.setLink l x).out = s.out := rfl
@[simp] theorem State.setLink_pending (s : State) (l : Nat) (x : SecLink) : (s.setLink l x).pending = s.pending := rfl

@[simp] theorem State.onTpt_regs (s : State) (f : TptState → TptState) : (s.onTpt f).regs = s.regs := rfl
@[simp] theorem State.onTpt_boot (s : State) (f : TptState → TptState) : (s.onTpt f).boot = s.boot := rfl
@[simp] theorem State.onTpt_mgmt (s : State) (f : TptState → TptState) : (s.onTpt f).mgmt = s.mgmt := rfl
@[simp] theorem State.onTpt_evr (s : State) (f : TptState → TptState) : (s.onTpt f).evr = s.evr := rfl
@[simp] theorem State.onTpt_hif (s : State) (f : TptState → TptState) : (s.onTpt f).hif = s.hif := rfl
@[simp] theorem State.onTpt_cox (s : State) (f : TptState → TptState) : (s.onTpt f).cox = s.cox := rfl
@[simp] theorem State.onTpt_mem (s : State) (f : TptState → TptState) : (s.onTpt f).mem = s.mem := rfl
@[simp] theorem State.onTpt_time (s : State) (f : TptState → TptState) : (s.onTpt f).time = s.time := rfl
@[simp] theorem State.onTpt_power (s : State) (f : TptState → TptState) : (s.onTpt f).power = s.power := rfl
@[simp] theorem State.onTpt_sett (s : State) (f : TptState → TptState) : (s.onTpt f).sett = s.sett := rfl
@[simp] theorem State.onTpt_swc (s : State) (f : TptState → TptState) : (s.onTpt f).swc = s.swc := rfl
@[simp] theorem State.onTpt_lsc (s : State) (f : TptState → TptState) : (s.onTpt f).lsc = s.lsc := rfl
@[simp] theorem State.onTpt_col (s : State) (f : TptState → TptState) : (s.onTpt f).col = s.col := rfl
@[simp] theorem State.onTpt_plans (s : State) (f : TptState → TptState) : (s.onTpt f).plans = s.plans := rfl
@[simp] theorem State.onTpt_tfb (s : State) (f : TptState → TptState) : (s.onTpt f).tfb = s.tfb := rfl
@[simp] theorem State.onTpt_ash (s : State) (f : TptState → TptState) : (s.onTpt f).ash = s.ash := rfl
@[simp] theorem State.onTpt_line (s : State) (f : TptState → TptState) : (s.onTpt f).line = s.line := rfl
@[simp] theorem State.onTpt_flt (s : State) (f : TptState → TptState) : (s.onTpt f).flt = s.flt := rfl
@[simp] theorem State.onTpt_lanes (s : State) (f : TptState → TptState) : (s.onTpt f).lanes = s.lanes := rfl
@[simp] theorem State.onTpt_outer (s : State) (f : TptState → TptState) : (s.onTpt f).outer = s.outer := rfl
@[simp] theorem State.onTpt_rig (s : State) (f : TptState → TptState) : (s.onTpt f).rig = s.rig := rfl
@[simp] theorem State.onTpt_kmc (s : State) (f : TptState → TptState) : (s.onTpt f).kmc = s.kmc := rfl
@[simp] theorem State.onTpt_view (s : State) (f : TptState → TptState) : (s.onTpt f).view = s.view := rfl
@[simp] theorem State.onTpt_free (s : State) (f : TptState → TptState) : (s.onTpt f).free = s.free := rfl
@[simp] theorem State.onTpt_out (s : State) (f : TptState → TptState) : (s.onTpt f).out = s.out := rfl
@[simp] theorem State.onTpt_pending (s : State) (f : TptState → TptState) : (s.onTpt f).pending = s.pending := rfl

@[simp] theorem State.setPort_boot (s : State) (v : View) (b : Blk) (p : CommitPort) : (s.setPort v b p).boot = s.boot := rfl
@[simp] theorem State.setPort_mgmt (s : State) (v : View) (b : Blk) (p : CommitPort) : (s.setPort v b p).mgmt = s.mgmt := rfl
@[simp] theorem State.setPort_evr (s : State) (v : View) (b : Blk) (p : CommitPort) : (s.setPort v b p).evr = s.evr := rfl
@[simp] theorem State.setPort_hif (s : State) (v : View) (b : Blk) (p : CommitPort) : (s.setPort v b p).hif = s.hif := rfl
@[simp] theorem State.setPort_cox (s : State) (v : View) (b : Blk) (p : CommitPort) : (s.setPort v b p).cox = s.cox := rfl
@[simp] theorem State.setPort_mem (s : State) (v : View) (b : Blk) (p : CommitPort) : (s.setPort v b p).mem = s.mem := rfl
@[simp] theorem State.setPort_time (s : State) (v : View) (b : Blk) (p : CommitPort) : (s.setPort v b p).time = s.time := rfl
@[simp] theorem State.setPort_power (s : State) (v : View) (b : Blk) (p : CommitPort) : (s.setPort v b p).power = s.power := rfl
@[simp] theorem State.setPort_sett (s : State) (v : View) (b : Blk) (p : CommitPort) : (s.setPort v b p).sett = s.sett := rfl
@[simp] theorem State.setPort_swc (s : State) (v : View) (b : Blk) (p : CommitPort) : (s.setPort v b p).swc = s.swc := rfl
@[simp] theorem State.setPort_lsc (s : State) (v : View) (b : Blk) (p : CommitPort) : (s.setPort v b p).lsc = s.lsc := rfl
@[simp] theorem State.setPort_tpt (s : State) (v : View) (b : Blk) (p : CommitPort) : (s.setPort v b p).tpt = s.tpt := rfl
@[simp] theorem State.setPort_col (s : State) (v : View) (b : Blk) (p : CommitPort) : (s.setPort v b p).col = s.col := rfl
@[simp] theorem State.setPort_plans (s : State) (v : View) (b : Blk) (p : CommitPort) : (s.setPort v b p).plans = s.plans := rfl
@[simp] theorem State.setPort_tfb (s : State) (v : View) (b : Blk) (p : CommitPort) : (s.setPort v b p).tfb = s.tfb := rfl
@[simp] theorem State.setPort_ash (s : State) (v : View) (b : Blk) (p : CommitPort) : (s.setPort v b p).ash = s.ash := rfl
@[simp] theorem State.setPort_line (s : State) (v : View) (b : Blk) (p : CommitPort) : (s.setPort v b p).line = s.line := rfl
@[simp] theorem State.setPort_flt (s : State) (v : View) (b : Blk) (p : CommitPort) : (s.setPort v b p).flt = s.flt := rfl
@[simp] theorem State.setPort_lanes (s : State) (v : View) (b : Blk) (p : CommitPort) : (s.setPort v b p).lanes = s.lanes := rfl
@[simp] theorem State.setPort_outer (s : State) (v : View) (b : Blk) (p : CommitPort) : (s.setPort v b p).outer = s.outer := rfl
@[simp] theorem State.setPort_rig (s : State) (v : View) (b : Blk) (p : CommitPort) : (s.setPort v b p).rig = s.rig := rfl
@[simp] theorem State.setPort_kmc (s : State) (v : View) (b : Blk) (p : CommitPort) : (s.setPort v b p).kmc = s.kmc := rfl
@[simp] theorem State.setPort_view (s : State) (v : View) (b : Blk) (p : CommitPort) : (s.setPort v b p).view = s.view := rfl
@[simp] theorem State.setPort_free (s : State) (v : View) (b : Blk) (p : CommitPort) : (s.setPort v b p).free = s.free := rfl
@[simp] theorem State.setPort_out (s : State) (v : View) (b : Blk) (p : CommitPort) : (s.setPort v b p).out = s.out := rfl
@[simp] theorem State.setPort_pending (s : State) (v : View) (b : Blk) (p : CommitPort) : (s.setPort v b p).pending = s.pending := rfl

@[simp] theorem State.setShadow_boot (s : State) (v : View) (b : Blk) (off : Nat) (w : Word) : (s.setShadow v b off w).boot = s.boot := rfl
@[simp] theorem State.setShadow_mgmt (s : State) (v : View) (b : Blk) (off : Nat) (w : Word) : (s.setShadow v b off w).mgmt = s.mgmt := rfl
@[simp] theorem State.setShadow_evr (s : State) (v : View) (b : Blk) (off : Nat) (w : Word) : (s.setShadow v b off w).evr = s.evr := rfl
@[simp] theorem State.setShadow_hif (s : State) (v : View) (b : Blk) (off : Nat) (w : Word) : (s.setShadow v b off w).hif = s.hif := rfl
@[simp] theorem State.setShadow_cox (s : State) (v : View) (b : Blk) (off : Nat) (w : Word) : (s.setShadow v b off w).cox = s.cox := rfl
@[simp] theorem State.setShadow_mem (s : State) (v : View) (b : Blk) (off : Nat) (w : Word) : (s.setShadow v b off w).mem = s.mem := rfl
@[simp] theorem State.setShadow_time (s : State) (v : View) (b : Blk) (off : Nat) (w : Word) : (s.setShadow v b off w).time = s.time := rfl
@[simp] theorem State.setShadow_power (s : State) (v : View) (b : Blk) (off : Nat) (w : Word) : (s.setShadow v b off w).power = s.power := rfl
@[simp] theorem State.setShadow_sett (s : State) (v : View) (b : Blk) (off : Nat) (w : Word) : (s.setShadow v b off w).sett = s.sett := rfl
@[simp] theorem State.setShadow_swc (s : State) (v : View) (b : Blk) (off : Nat) (w : Word) : (s.setShadow v b off w).swc = s.swc := rfl
@[simp] theorem State.setShadow_lsc (s : State) (v : View) (b : Blk) (off : Nat) (w : Word) : (s.setShadow v b off w).lsc = s.lsc := rfl
@[simp] theorem State.setShadow_tpt (s : State) (v : View) (b : Blk) (off : Nat) (w : Word) : (s.setShadow v b off w).tpt = s.tpt := rfl
@[simp] theorem State.setShadow_col (s : State) (v : View) (b : Blk) (off : Nat) (w : Word) : (s.setShadow v b off w).col = s.col := rfl
@[simp] theorem State.setShadow_plans (s : State) (v : View) (b : Blk) (off : Nat) (w : Word) : (s.setShadow v b off w).plans = s.plans := rfl
@[simp] theorem State.setShadow_tfb (s : State) (v : View) (b : Blk) (off : Nat) (w : Word) : (s.setShadow v b off w).tfb = s.tfb := rfl
@[simp] theorem State.setShadow_ash (s : State) (v : View) (b : Blk) (off : Nat) (w : Word) : (s.setShadow v b off w).ash = s.ash := rfl
@[simp] theorem State.setShadow_line (s : State) (v : View) (b : Blk) (off : Nat) (w : Word) : (s.setShadow v b off w).line = s.line := rfl
@[simp] theorem State.setShadow_flt (s : State) (v : View) (b : Blk) (off : Nat) (w : Word) : (s.setShadow v b off w).flt = s.flt := rfl
@[simp] theorem State.setShadow_lanes (s : State) (v : View) (b : Blk) (off : Nat) (w : Word) : (s.setShadow v b off w).lanes = s.lanes := rfl
@[simp] theorem State.setShadow_outer (s : State) (v : View) (b : Blk) (off : Nat) (w : Word) : (s.setShadow v b off w).outer = s.outer := rfl
@[simp] theorem State.setShadow_rig (s : State) (v : View) (b : Blk) (off : Nat) (w : Word) : (s.setShadow v b off w).rig = s.rig := rfl
@[simp] theorem State.setShadow_kmc (s : State) (v : View) (b : Blk) (off : Nat) (w : Word) : (s.setShadow v b off w).kmc = s.kmc := rfl
@[simp] theorem State.setShadow_view (s : State) (v : View) (b : Blk) (off : Nat) (w : Word) : (s.setShadow v b off w).view = s.view := rfl
@[simp] theorem State.setShadow_free (s : State) (v : View) (b : Blk) (off : Nat) (w : Word) : (s.setShadow v b off w).free = s.free := rfl
@[simp] theorem State.setShadow_out (s : State) (v : View) (b : Blk) (off : Nat) (w : Word) : (s.setShadow v b off w).out = s.out := rfl
@[simp] theorem State.setShadow_pending (s : State) (v : View) (b : Blk) (off : Nat) (w : Word) : (s.setShadow v b off w).pending = s.pending := rfl

@[simp] theorem State.onFltState_regs (s : State) (f : FltState → FltState) : (s.onFltState f).regs = s.regs := rfl
@[simp] theorem State.onFltState_boot (s : State) (f : FltState → FltState) : (s.onFltState f).boot = s.boot := rfl
@[simp] theorem State.onFltState_mgmt (s : State) (f : FltState → FltState) : (s.onFltState f).mgmt = s.mgmt := rfl
@[simp] theorem State.onFltState_evr (s : State) (f : FltState → FltState) : (s.onFltState f).evr = s.evr := rfl
@[simp] theorem State.onFltState_hif (s : State) (f : FltState → FltState) : (s.onFltState f).hif = s.hif := rfl
@[simp] theorem State.onFltState_cox (s : State) (f : FltState → FltState) : (s.onFltState f).cox = s.cox := rfl
@[simp] theorem State.onFltState_mem (s : State) (f : FltState → FltState) : (s.onFltState f).mem = s.mem := rfl
@[simp] theorem State.onFltState_time (s : State) (f : FltState → FltState) : (s.onFltState f).time = s.time := rfl
@[simp] theorem State.onFltState_power (s : State) (f : FltState → FltState) : (s.onFltState f).power = s.power := rfl
@[simp] theorem State.onFltState_sett (s : State) (f : FltState → FltState) : (s.onFltState f).sett = s.sett := rfl
@[simp] theorem State.onFltState_swc (s : State) (f : FltState → FltState) : (s.onFltState f).swc = s.swc := rfl
@[simp] theorem State.onFltState_lsc (s : State) (f : FltState → FltState) : (s.onFltState f).lsc = s.lsc := rfl
@[simp] theorem State.onFltState_tpt (s : State) (f : FltState → FltState) : (s.onFltState f).tpt = s.tpt := rfl
@[simp] theorem State.onFltState_col (s : State) (f : FltState → FltState) : (s.onFltState f).col = s.col := rfl
@[simp] theorem State.onFltState_plans (s : State) (f : FltState → FltState) : (s.onFltState f).plans = s.plans := rfl
@[simp] theorem State.onFltState_tfb (s : State) (f : FltState → FltState) : (s.onFltState f).tfb = s.tfb := rfl
@[simp] theorem State.onFltState_ash (s : State) (f : FltState → FltState) : (s.onFltState f).ash = s.ash := rfl
@[simp] theorem State.onFltState_line (s : State) (f : FltState → FltState) : (s.onFltState f).line = s.line := rfl
@[simp] theorem State.onFltState_lanes (s : State) (f : FltState → FltState) : (s.onFltState f).lanes = s.lanes := rfl
@[simp] theorem State.onFltState_outer (s : State) (f : FltState → FltState) : (s.onFltState f).outer = s.outer := rfl
@[simp] theorem State.onFltState_rig (s : State) (f : FltState → FltState) : (s.onFltState f).rig = s.rig := rfl
@[simp] theorem State.onFltState_kmc (s : State) (f : FltState → FltState) : (s.onFltState f).kmc = s.kmc := rfl
@[simp] theorem State.onFltState_view (s : State) (f : FltState → FltState) : (s.onFltState f).view = s.view := rfl
@[simp] theorem State.onFltState_free (s : State) (f : FltState → FltState) : (s.onFltState f).free = s.free := rfl
@[simp] theorem State.onFltState_out (s : State) (f : FltState → FltState) : (s.onFltState f).out = s.out := rfl
@[simp] theorem State.onFltState_pending (s : State) (f : FltState → FltState) : (s.onFltState f).pending = s.pending := rfl

@[simp] theorem State.onLine_regs (s : State) (f : LineState → LineState) : (s.onLine f).regs = s.regs := rfl
@[simp] theorem State.onLine_boot (s : State) (f : LineState → LineState) : (s.onLine f).boot = s.boot := rfl
@[simp] theorem State.onLine_mgmt (s : State) (f : LineState → LineState) : (s.onLine f).mgmt = s.mgmt := rfl
@[simp] theorem State.onLine_evr (s : State) (f : LineState → LineState) : (s.onLine f).evr = s.evr := rfl
@[simp] theorem State.onLine_hif (s : State) (f : LineState → LineState) : (s.onLine f).hif = s.hif := rfl
@[simp] theorem State.onLine_cox (s : State) (f : LineState → LineState) : (s.onLine f).cox = s.cox := rfl
@[simp] theorem State.onLine_mem (s : State) (f : LineState → LineState) : (s.onLine f).mem = s.mem := rfl
@[simp] theorem State.onLine_time (s : State) (f : LineState → LineState) : (s.onLine f).time = s.time := rfl
@[simp] theorem State.onLine_power (s : State) (f : LineState → LineState) : (s.onLine f).power = s.power := rfl
@[simp] theorem State.onLine_sett (s : State) (f : LineState → LineState) : (s.onLine f).sett = s.sett := rfl
@[simp] theorem State.onLine_swc (s : State) (f : LineState → LineState) : (s.onLine f).swc = s.swc := rfl
@[simp] theorem State.onLine_lsc (s : State) (f : LineState → LineState) : (s.onLine f).lsc = s.lsc := rfl
@[simp] theorem State.onLine_tpt (s : State) (f : LineState → LineState) : (s.onLine f).tpt = s.tpt := rfl
@[simp] theorem State.onLine_col (s : State) (f : LineState → LineState) : (s.onLine f).col = s.col := rfl
@[simp] theorem State.onLine_plans (s : State) (f : LineState → LineState) : (s.onLine f).plans = s.plans := rfl
@[simp] theorem State.onLine_tfb (s : State) (f : LineState → LineState) : (s.onLine f).tfb = s.tfb := rfl
@[simp] theorem State.onLine_ash (s : State) (f : LineState → LineState) : (s.onLine f).ash = s.ash := rfl
@[simp] theorem State.onLine_flt (s : State) (f : LineState → LineState) : (s.onLine f).flt = s.flt := rfl
@[simp] theorem State.onLine_lanes (s : State) (f : LineState → LineState) : (s.onLine f).lanes = s.lanes := rfl
@[simp] theorem State.onLine_outer (s : State) (f : LineState → LineState) : (s.onLine f).outer = s.outer := rfl
@[simp] theorem State.onLine_rig (s : State) (f : LineState → LineState) : (s.onLine f).rig = s.rig := rfl
@[simp] theorem State.onLine_kmc (s : State) (f : LineState → LineState) : (s.onLine f).kmc = s.kmc := rfl
@[simp] theorem State.onLine_view (s : State) (f : LineState → LineState) : (s.onLine f).view = s.view := rfl
@[simp] theorem State.onLine_free (s : State) (f : LineState → LineState) : (s.onLine f).free = s.free := rfl
@[simp] theorem State.onLine_out (s : State) (f : LineState → LineState) : (s.onLine f).out = s.out := rfl
@[simp] theorem State.onLine_pending (s : State) (f : LineState → LineState) : (s.onLine f).pending = s.pending := rfl

@[simp] theorem State.onSwc_regs (s : State) (f : SwcState → SwcState) : (s.onSwc f).regs = s.regs := rfl
@[simp] theorem State.onSwc_boot (s : State) (f : SwcState → SwcState) : (s.onSwc f).boot = s.boot := rfl
@[simp] theorem State.onSwc_mgmt (s : State) (f : SwcState → SwcState) : (s.onSwc f).mgmt = s.mgmt := rfl
@[simp] theorem State.onSwc_evr (s : State) (f : SwcState → SwcState) : (s.onSwc f).evr = s.evr := rfl
@[simp] theorem State.onSwc_hif (s : State) (f : SwcState → SwcState) : (s.onSwc f).hif = s.hif := rfl
@[simp] theorem State.onSwc_cox (s : State) (f : SwcState → SwcState) : (s.onSwc f).cox = s.cox := rfl
@[simp] theorem State.onSwc_mem (s : State) (f : SwcState → SwcState) : (s.onSwc f).mem = s.mem := rfl
@[simp] theorem State.onSwc_time (s : State) (f : SwcState → SwcState) : (s.onSwc f).time = s.time := rfl
@[simp] theorem State.onSwc_power (s : State) (f : SwcState → SwcState) : (s.onSwc f).power = s.power := rfl
@[simp] theorem State.onSwc_sett (s : State) (f : SwcState → SwcState) : (s.onSwc f).sett = s.sett := rfl
@[simp] theorem State.onSwc_lsc (s : State) (f : SwcState → SwcState) : (s.onSwc f).lsc = s.lsc := rfl
@[simp] theorem State.onSwc_tpt (s : State) (f : SwcState → SwcState) : (s.onSwc f).tpt = s.tpt := rfl
@[simp] theorem State.onSwc_col (s : State) (f : SwcState → SwcState) : (s.onSwc f).col = s.col := rfl
@[simp] theorem State.onSwc_plans (s : State) (f : SwcState → SwcState) : (s.onSwc f).plans = s.plans := rfl
@[simp] theorem State.onSwc_tfb (s : State) (f : SwcState → SwcState) : (s.onSwc f).tfb = s.tfb := rfl
@[simp] theorem State.onSwc_ash (s : State) (f : SwcState → SwcState) : (s.onSwc f).ash = s.ash := rfl
@[simp] theorem State.onSwc_line (s : State) (f : SwcState → SwcState) : (s.onSwc f).line = s.line := rfl
@[simp] theorem State.onSwc_flt (s : State) (f : SwcState → SwcState) : (s.onSwc f).flt = s.flt := rfl
@[simp] theorem State.onSwc_lanes (s : State) (f : SwcState → SwcState) : (s.onSwc f).lanes = s.lanes := rfl
@[simp] theorem State.onSwc_outer (s : State) (f : SwcState → SwcState) : (s.onSwc f).outer = s.outer := rfl
@[simp] theorem State.onSwc_rig (s : State) (f : SwcState → SwcState) : (s.onSwc f).rig = s.rig := rfl
@[simp] theorem State.onSwc_kmc (s : State) (f : SwcState → SwcState) : (s.onSwc f).kmc = s.kmc := rfl
@[simp] theorem State.onSwc_view (s : State) (f : SwcState → SwcState) : (s.onSwc f).view = s.view := rfl
@[simp] theorem State.onSwc_free (s : State) (f : SwcState → SwcState) : (s.onSwc f).free = s.free := rfl
@[simp] theorem State.onSwc_out (s : State) (f : SwcState → SwcState) : (s.onSwc f).out = s.out := rfl
@[simp] theorem State.onSwc_pending (s : State) (f : SwcState → SwcState) : (s.onSwc f).pending = s.pending := rfl

@[simp] theorem State.onSett_regs (s : State) (f : SettState → SettState) : (s.onSett f).regs = s.regs := rfl
@[simp] theorem State.onSett_boot (s : State) (f : SettState → SettState) : (s.onSett f).boot = s.boot := rfl
@[simp] theorem State.onSett_mgmt (s : State) (f : SettState → SettState) : (s.onSett f).mgmt = s.mgmt := rfl
@[simp] theorem State.onSett_evr (s : State) (f : SettState → SettState) : (s.onSett f).evr = s.evr := rfl
@[simp] theorem State.onSett_hif (s : State) (f : SettState → SettState) : (s.onSett f).hif = s.hif := rfl
@[simp] theorem State.onSett_cox (s : State) (f : SettState → SettState) : (s.onSett f).cox = s.cox := rfl
@[simp] theorem State.onSett_mem (s : State) (f : SettState → SettState) : (s.onSett f).mem = s.mem := rfl
@[simp] theorem State.onSett_time (s : State) (f : SettState → SettState) : (s.onSett f).time = s.time := rfl
@[simp] theorem State.onSett_power (s : State) (f : SettState → SettState) : (s.onSett f).power = s.power := rfl
@[simp] theorem State.onSett_swc (s : State) (f : SettState → SettState) : (s.onSett f).swc = s.swc := rfl
@[simp] theorem State.onSett_lsc (s : State) (f : SettState → SettState) : (s.onSett f).lsc = s.lsc := rfl
@[simp] theorem State.onSett_tpt (s : State) (f : SettState → SettState) : (s.onSett f).tpt = s.tpt := rfl
@[simp] theorem State.onSett_col (s : State) (f : SettState → SettState) : (s.onSett f).col = s.col := rfl
@[simp] theorem State.onSett_plans (s : State) (f : SettState → SettState) : (s.onSett f).plans = s.plans := rfl
@[simp] theorem State.onSett_tfb (s : State) (f : SettState → SettState) : (s.onSett f).tfb = s.tfb := rfl
@[simp] theorem State.onSett_ash (s : State) (f : SettState → SettState) : (s.onSett f).ash = s.ash := rfl
@[simp] theorem State.onSett_line (s : State) (f : SettState → SettState) : (s.onSett f).line = s.line := rfl
@[simp] theorem State.onSett_flt (s : State) (f : SettState → SettState) : (s.onSett f).flt = s.flt := rfl
@[simp] theorem State.onSett_lanes (s : State) (f : SettState → SettState) : (s.onSett f).lanes = s.lanes := rfl
@[simp] theorem State.onSett_outer (s : State) (f : SettState → SettState) : (s.onSett f).outer = s.outer := rfl
@[simp] theorem State.onSett_rig (s : State) (f : SettState → SettState) : (s.onSett f).rig = s.rig := rfl
@[simp] theorem State.onSett_kmc (s : State) (f : SettState → SettState) : (s.onSett f).kmc = s.kmc := rfl
@[simp] theorem State.onSett_view (s : State) (f : SettState → SettState) : (s.onSett f).view = s.view := rfl
@[simp] theorem State.onSett_free (s : State) (f : SettState → SettState) : (s.onSett f).free = s.free := rfl
@[simp] theorem State.onSett_out (s : State) (f : SettState → SettState) : (s.onSett f).out = s.out := rfl
@[simp] theorem State.onSett_pending (s : State) (f : SettState → SettState) : (s.onSett f).pending = s.pending := rfl

@[simp] theorem State.setOp_regs (s : State) (o : Op) : (s.setOp o).regs = s.regs := rfl
@[simp] theorem State.setOp_boot (s : State) (o : Op) : (s.setOp o).boot = s.boot := rfl
@[simp] theorem State.setOp_mgmt (s : State) (o : Op) : (s.setOp o).mgmt = s.mgmt := rfl
@[simp] theorem State.setOp_evr (s : State) (o : Op) : (s.setOp o).evr = s.evr := rfl
@[simp] theorem State.setOp_cox (s : State) (o : Op) : (s.setOp o).cox = s.cox := rfl
@[simp] theorem State.setOp_mem (s : State) (o : Op) : (s.setOp o).mem = s.mem := rfl
@[simp] theorem State.setOp_time (s : State) (o : Op) : (s.setOp o).time = s.time := rfl
@[simp] theorem State.setOp_power (s : State) (o : Op) : (s.setOp o).power = s.power := rfl
@[simp] theorem State.setOp_sett (s : State) (o : Op) : (s.setOp o).sett = s.sett := rfl
@[simp] theorem State.setOp_swc (s : State) (o : Op) : (s.setOp o).swc = s.swc := rfl
@[simp] theorem State.setOp_lsc (s : State) (o : Op) : (s.setOp o).lsc = s.lsc := rfl
@[simp] theorem State.setOp_tpt (s : State) (o : Op) : (s.setOp o).tpt = s.tpt := rfl
@[simp] theorem State.setOp_col (s : State) (o : Op) : (s.setOp o).col = s.col := rfl
@[simp] theorem State.setOp_plans (s : State) (o : Op) : (s.setOp o).plans = s.plans := rfl
@[simp] theorem State.setOp_tfb (s : State) (o : Op) : (s.setOp o).tfb = s.tfb := rfl
@[simp] theorem State.setOp_ash (s : State) (o : Op) : (s.setOp o).ash = s.ash := rfl
@[simp] theorem State.setOp_line (s : State) (o : Op) : (s.setOp o).line = s.line := rfl
@[simp] theorem State.setOp_flt (s : State) (o : Op) : (s.setOp o).flt = s.flt := rfl
@[simp] theorem State.setOp_lanes (s : State) (o : Op) : (s.setOp o).lanes = s.lanes := rfl
@[simp] theorem State.setOp_outer (s : State) (o : Op) : (s.setOp o).outer = s.outer := rfl
@[simp] theorem State.setOp_rig (s : State) (o : Op) : (s.setOp o).rig = s.rig := rfl
@[simp] theorem State.setOp_kmc (s : State) (o : Op) : (s.setOp o).kmc = s.kmc := rfl
@[simp] theorem State.setOp_view (s : State) (o : Op) : (s.setOp o).view = s.view := rfl
@[simp] theorem State.setOp_free (s : State) (o : Op) : (s.setOp o).free = s.free := rfl
@[simp] theorem State.setOp_out (s : State) (o : Op) : (s.setOp o).out = s.out := rfl
@[simp] theorem State.setOp_pending (s : State) (o : Op) : (s.setOp o).pending = s.pending := rfl

@[simp] theorem State.freeOp_regs (s : State) (k : OpKey) : (s.freeOp k).regs = s.regs := rfl
@[simp] theorem State.freeOp_boot (s : State) (k : OpKey) : (s.freeOp k).boot = s.boot := rfl
@[simp] theorem State.freeOp_mgmt (s : State) (k : OpKey) : (s.freeOp k).mgmt = s.mgmt := rfl
@[simp] theorem State.freeOp_evr (s : State) (k : OpKey) : (s.freeOp k).evr = s.evr := rfl
@[simp] theorem State.freeOp_cox (s : State) (k : OpKey) : (s.freeOp k).cox = s.cox := rfl
@[simp] theorem State.freeOp_mem (s : State) (k : OpKey) : (s.freeOp k).mem = s.mem := rfl
@[simp] theorem State.freeOp_time (s : State) (k : OpKey) : (s.freeOp k).time = s.time := rfl
@[simp] theorem State.freeOp_power (s : State) (k : OpKey) : (s.freeOp k).power = s.power := rfl
@[simp] theorem State.freeOp_sett (s : State) (k : OpKey) : (s.freeOp k).sett = s.sett := rfl
@[simp] theorem State.freeOp_swc (s : State) (k : OpKey) : (s.freeOp k).swc = s.swc := rfl
@[simp] theorem State.freeOp_lsc (s : State) (k : OpKey) : (s.freeOp k).lsc = s.lsc := rfl
@[simp] theorem State.freeOp_tpt (s : State) (k : OpKey) : (s.freeOp k).tpt = s.tpt := rfl
@[simp] theorem State.freeOp_col (s : State) (k : OpKey) : (s.freeOp k).col = s.col := rfl
@[simp] theorem State.freeOp_plans (s : State) (k : OpKey) : (s.freeOp k).plans = s.plans := rfl
@[simp] theorem State.freeOp_tfb (s : State) (k : OpKey) : (s.freeOp k).tfb = s.tfb := rfl
@[simp] theorem State.freeOp_ash (s : State) (k : OpKey) : (s.freeOp k).ash = s.ash := rfl
@[simp] theorem State.freeOp_line (s : State) (k : OpKey) : (s.freeOp k).line = s.line := rfl
@[simp] theorem State.freeOp_flt (s : State) (k : OpKey) : (s.freeOp k).flt = s.flt := rfl
@[simp] theorem State.freeOp_lanes (s : State) (k : OpKey) : (s.freeOp k).lanes = s.lanes := rfl
@[simp] theorem State.freeOp_outer (s : State) (k : OpKey) : (s.freeOp k).outer = s.outer := rfl
@[simp] theorem State.freeOp_rig (s : State) (k : OpKey) : (s.freeOp k).rig = s.rig := rfl
@[simp] theorem State.freeOp_kmc (s : State) (k : OpKey) : (s.freeOp k).kmc = s.kmc := rfl
@[simp] theorem State.freeOp_view (s : State) (k : OpKey) : (s.freeOp k).view = s.view := rfl
@[simp] theorem State.freeOp_free (s : State) (k : OpKey) : (s.freeOp k).free = s.free := rfl
@[simp] theorem State.freeOp_out (s : State) (k : OpKey) : (s.freeOp k).out = s.out := rfl
@[simp] theorem State.freeOp_pending (s : State) (k : OpKey) : (s.freeOp k).pending = s.pending := rfl

@[simp] theorem State.setIntake_regs (s : State) (qs : Nat) (i : Intake) : (s.setIntake qs i).regs = s.regs := rfl
@[simp] theorem State.setIntake_boot (s : State) (qs : Nat) (i : Intake) : (s.setIntake qs i).boot = s.boot := rfl
@[simp] theorem State.setIntake_mgmt (s : State) (qs : Nat) (i : Intake) : (s.setIntake qs i).mgmt = s.mgmt := rfl
@[simp] theorem State.setIntake_evr (s : State) (qs : Nat) (i : Intake) : (s.setIntake qs i).evr = s.evr := rfl
@[simp] theorem State.setIntake_cox (s : State) (qs : Nat) (i : Intake) : (s.setIntake qs i).cox = s.cox := rfl
@[simp] theorem State.setIntake_mem (s : State) (qs : Nat) (i : Intake) : (s.setIntake qs i).mem = s.mem := rfl
@[simp] theorem State.setIntake_time (s : State) (qs : Nat) (i : Intake) : (s.setIntake qs i).time = s.time := rfl
@[simp] theorem State.setIntake_power (s : State) (qs : Nat) (i : Intake) : (s.setIntake qs i).power = s.power := rfl
@[simp] theorem State.setIntake_sett (s : State) (qs : Nat) (i : Intake) : (s.setIntake qs i).sett = s.sett := rfl
@[simp] theorem State.setIntake_swc (s : State) (qs : Nat) (i : Intake) : (s.setIntake qs i).swc = s.swc := rfl
@[simp] theorem State.setIntake_lsc (s : State) (qs : Nat) (i : Intake) : (s.setIntake qs i).lsc = s.lsc := rfl
@[simp] theorem State.setIntake_tpt (s : State) (qs : Nat) (i : Intake) : (s.setIntake qs i).tpt = s.tpt := rfl
@[simp] theorem State.setIntake_col (s : State) (qs : Nat) (i : Intake) : (s.setIntake qs i).col = s.col := rfl
@[simp] theorem State.setIntake_plans (s : State) (qs : Nat) (i : Intake) : (s.setIntake qs i).plans = s.plans := rfl
@[simp] theorem State.setIntake_tfb (s : State) (qs : Nat) (i : Intake) : (s.setIntake qs i).tfb = s.tfb := rfl
@[simp] theorem State.setIntake_ash (s : State) (qs : Nat) (i : Intake) : (s.setIntake qs i).ash = s.ash := rfl
@[simp] theorem State.setIntake_line (s : State) (qs : Nat) (i : Intake) : (s.setIntake qs i).line = s.line := rfl
@[simp] theorem State.setIntake_flt (s : State) (qs : Nat) (i : Intake) : (s.setIntake qs i).flt = s.flt := rfl
@[simp] theorem State.setIntake_lanes (s : State) (qs : Nat) (i : Intake) : (s.setIntake qs i).lanes = s.lanes := rfl
@[simp] theorem State.setIntake_outer (s : State) (qs : Nat) (i : Intake) : (s.setIntake qs i).outer = s.outer := rfl
@[simp] theorem State.setIntake_rig (s : State) (qs : Nat) (i : Intake) : (s.setIntake qs i).rig = s.rig := rfl
@[simp] theorem State.setIntake_kmc (s : State) (qs : Nat) (i : Intake) : (s.setIntake qs i).kmc = s.kmc := rfl
@[simp] theorem State.setIntake_view (s : State) (qs : Nat) (i : Intake) : (s.setIntake qs i).view = s.view := rfl
@[simp] theorem State.setIntake_free (s : State) (qs : Nat) (i : Intake) : (s.setIntake qs i).free = s.free := rfl
@[simp] theorem State.setIntake_out (s : State) (qs : Nat) (i : Intake) : (s.setIntake qs i).out = s.out := rfl
@[simp] theorem State.setIntake_pending (s : State) (qs : Nat) (i : Intake) : (s.setIntake qs i).pending = s.pending := rfl

@[simp] theorem State.setFld_boot (s : State) (f : Fld) (inst v : Nat) : (s.setFld f inst v).boot = s.boot := rfl
@[simp] theorem State.setFld_mgmt (s : State) (f : Fld) (inst v : Nat) : (s.setFld f inst v).mgmt = s.mgmt := rfl
@[simp] theorem State.setFld_evr (s : State) (f : Fld) (inst v : Nat) : (s.setFld f inst v).evr = s.evr := rfl
@[simp] theorem State.setFld_hif (s : State) (f : Fld) (inst v : Nat) : (s.setFld f inst v).hif = s.hif := rfl
@[simp] theorem State.setFld_cox (s : State) (f : Fld) (inst v : Nat) : (s.setFld f inst v).cox = s.cox := rfl
@[simp] theorem State.setFld_mem (s : State) (f : Fld) (inst v : Nat) : (s.setFld f inst v).mem = s.mem := rfl
@[simp] theorem State.setFld_time (s : State) (f : Fld) (inst v : Nat) : (s.setFld f inst v).time = s.time := rfl
@[simp] theorem State.setFld_power (s : State) (f : Fld) (inst v : Nat) : (s.setFld f inst v).power = s.power := rfl
@[simp] theorem State.setFld_sett (s : State) (f : Fld) (inst v : Nat) : (s.setFld f inst v).sett = s.sett := rfl
@[simp] theorem State.setFld_swc (s : State) (f : Fld) (inst v : Nat) : (s.setFld f inst v).swc = s.swc := rfl
@[simp] theorem State.setFld_lsc (s : State) (f : Fld) (inst v : Nat) : (s.setFld f inst v).lsc = s.lsc := rfl
@[simp] theorem State.setFld_tpt (s : State) (f : Fld) (inst v : Nat) : (s.setFld f inst v).tpt = s.tpt := rfl
@[simp] theorem State.setFld_col (s : State) (f : Fld) (inst v : Nat) : (s.setFld f inst v).col = s.col := rfl
@[simp] theorem State.setFld_plans (s : State) (f : Fld) (inst v : Nat) : (s.setFld f inst v).plans = s.plans := rfl
@[simp] theorem State.setFld_tfb (s : State) (f : Fld) (inst v : Nat) : (s.setFld f inst v).tfb = s.tfb := rfl
@[simp] theorem State.setFld_ash (s : State) (f : Fld) (inst v : Nat) : (s.setFld f inst v).ash = s.ash := rfl
@[simp] theorem State.setFld_line (s : State) (f : Fld) (inst v : Nat) : (s.setFld f inst v).line = s.line := rfl
@[simp] theorem State.setFld_flt (s : State) (f : Fld) (inst v : Nat) : (s.setFld f inst v).flt = s.flt := rfl
@[simp] theorem State.setFld_lanes (s : State) (f : Fld) (inst v : Nat) : (s.setFld f inst v).lanes = s.lanes := rfl
@[simp] theorem State.setFld_outer (s : State) (f : Fld) (inst v : Nat) : (s.setFld f inst v).outer = s.outer := rfl
@[simp] theorem State.setFld_rig (s : State) (f : Fld) (inst v : Nat) : (s.setFld f inst v).rig = s.rig := rfl
@[simp] theorem State.setFld_kmc (s : State) (f : Fld) (inst v : Nat) : (s.setFld f inst v).kmc = s.kmc := rfl
@[simp] theorem State.setFld_view (s : State) (f : Fld) (inst v : Nat) : (s.setFld f inst v).view = s.view := rfl
@[simp] theorem State.setFld_free (s : State) (f : Fld) (inst v : Nat) : (s.setFld f inst v).free = s.free := rfl
@[simp] theorem State.setFld_out (s : State) (f : Fld) (inst v : Nat) : (s.setFld f inst v).out = s.out := rfl
@[simp] theorem State.setFld_pending (s : State) (f : Fld) (inst v : Nat) : (s.setFld f inst v).pending = s.pending := rfl

@[simp] theorem State.setFlag_boot (s : State) (f : Fld) (inst : Nat) (b : Bool) : (s.setFlag f inst b).boot = s.boot := rfl
@[simp] theorem State.setFlag_mgmt (s : State) (f : Fld) (inst : Nat) (b : Bool) : (s.setFlag f inst b).mgmt = s.mgmt := rfl
@[simp] theorem State.setFlag_evr (s : State) (f : Fld) (inst : Nat) (b : Bool) : (s.setFlag f inst b).evr = s.evr := rfl
@[simp] theorem State.setFlag_hif (s : State) (f : Fld) (inst : Nat) (b : Bool) : (s.setFlag f inst b).hif = s.hif := rfl
@[simp] theorem State.setFlag_cox (s : State) (f : Fld) (inst : Nat) (b : Bool) : (s.setFlag f inst b).cox = s.cox := rfl
@[simp] theorem State.setFlag_mem (s : State) (f : Fld) (inst : Nat) (b : Bool) : (s.setFlag f inst b).mem = s.mem := rfl
@[simp] theorem State.setFlag_time (s : State) (f : Fld) (inst : Nat) (b : Bool) : (s.setFlag f inst b).time = s.time := rfl
@[simp] theorem State.setFlag_power (s : State) (f : Fld) (inst : Nat) (b : Bool) : (s.setFlag f inst b).power = s.power := rfl
@[simp] theorem State.setFlag_sett (s : State) (f : Fld) (inst : Nat) (b : Bool) : (s.setFlag f inst b).sett = s.sett := rfl
@[simp] theorem State.setFlag_swc (s : State) (f : Fld) (inst : Nat) (b : Bool) : (s.setFlag f inst b).swc = s.swc := rfl
@[simp] theorem State.setFlag_lsc (s : State) (f : Fld) (inst : Nat) (b : Bool) : (s.setFlag f inst b).lsc = s.lsc := rfl
@[simp] theorem State.setFlag_tpt (s : State) (f : Fld) (inst : Nat) (b : Bool) : (s.setFlag f inst b).tpt = s.tpt := rfl
@[simp] theorem State.setFlag_col (s : State) (f : Fld) (inst : Nat) (b : Bool) : (s.setFlag f inst b).col = s.col := rfl
@[simp] theorem State.setFlag_plans (s : State) (f : Fld) (inst : Nat) (b : Bool) : (s.setFlag f inst b).plans = s.plans := rfl
@[simp] theorem State.setFlag_tfb (s : State) (f : Fld) (inst : Nat) (b : Bool) : (s.setFlag f inst b).tfb = s.tfb := rfl
@[simp] theorem State.setFlag_ash (s : State) (f : Fld) (inst : Nat) (b : Bool) : (s.setFlag f inst b).ash = s.ash := rfl
@[simp] theorem State.setFlag_line (s : State) (f : Fld) (inst : Nat) (b : Bool) : (s.setFlag f inst b).line = s.line := rfl
@[simp] theorem State.setFlag_flt (s : State) (f : Fld) (inst : Nat) (b : Bool) : (s.setFlag f inst b).flt = s.flt := rfl
@[simp] theorem State.setFlag_lanes (s : State) (f : Fld) (inst : Nat) (b : Bool) : (s.setFlag f inst b).lanes = s.lanes := rfl
@[simp] theorem State.setFlag_outer (s : State) (f : Fld) (inst : Nat) (b : Bool) : (s.setFlag f inst b).outer = s.outer := rfl
@[simp] theorem State.setFlag_rig (s : State) (f : Fld) (inst : Nat) (b : Bool) : (s.setFlag f inst b).rig = s.rig := rfl
@[simp] theorem State.setFlag_kmc (s : State) (f : Fld) (inst : Nat) (b : Bool) : (s.setFlag f inst b).kmc = s.kmc := rfl
@[simp] theorem State.setFlag_view (s : State) (f : Fld) (inst : Nat) (b : Bool) : (s.setFlag f inst b).view = s.view := rfl
@[simp] theorem State.setFlag_free (s : State) (f : Fld) (inst : Nat) (b : Bool) : (s.setFlag f inst b).free = s.free := rfl
@[simp] theorem State.setFlag_out (s : State) (f : Fld) (inst : Nat) (b : Bool) : (s.setFlag f inst b).out = s.out := rfl
@[simp] theorem State.setFlag_pending (s : State) (f : Fld) (inst : Nat) (b : Bool) : (s.setFlag f inst b).pending = s.pending := rfl

@[simp] theorem State.bump_boot (s : State) (f : Fld) (inst n : Nat) : (s.bump f inst n).boot = s.boot := rfl
@[simp] theorem State.bump_mgmt (s : State) (f : Fld) (inst n : Nat) : (s.bump f inst n).mgmt = s.mgmt := rfl
@[simp] theorem State.bump_evr (s : State) (f : Fld) (inst n : Nat) : (s.bump f inst n).evr = s.evr := rfl
@[simp] theorem State.bump_hif (s : State) (f : Fld) (inst n : Nat) : (s.bump f inst n).hif = s.hif := rfl
@[simp] theorem State.bump_cox (s : State) (f : Fld) (inst n : Nat) : (s.bump f inst n).cox = s.cox := rfl
@[simp] theorem State.bump_mem (s : State) (f : Fld) (inst n : Nat) : (s.bump f inst n).mem = s.mem := rfl
@[simp] theorem State.bump_time (s : State) (f : Fld) (inst n : Nat) : (s.bump f inst n).time = s.time := rfl
@[simp] theorem State.bump_power (s : State) (f : Fld) (inst n : Nat) : (s.bump f inst n).power = s.power := rfl
@[simp] theorem State.bump_sett (s : State) (f : Fld) (inst n : Nat) : (s.bump f inst n).sett = s.sett := rfl
@[simp] theorem State.bump_swc (s : State) (f : Fld) (inst n : Nat) : (s.bump f inst n).swc = s.swc := rfl
@[simp] theorem State.bump_lsc (s : State) (f : Fld) (inst n : Nat) : (s.bump f inst n).lsc = s.lsc := rfl
@[simp] theorem State.bump_tpt (s : State) (f : Fld) (inst n : Nat) : (s.bump f inst n).tpt = s.tpt := rfl
@[simp] theorem State.bump_col (s : State) (f : Fld) (inst n : Nat) : (s.bump f inst n).col = s.col := rfl
@[simp] theorem State.bump_plans (s : State) (f : Fld) (inst n : Nat) : (s.bump f inst n).plans = s.plans := rfl
@[simp] theorem State.bump_tfb (s : State) (f : Fld) (inst n : Nat) : (s.bump f inst n).tfb = s.tfb := rfl
@[simp] theorem State.bump_ash (s : State) (f : Fld) (inst n : Nat) : (s.bump f inst n).ash = s.ash := rfl
@[simp] theorem State.bump_line (s : State) (f : Fld) (inst n : Nat) : (s.bump f inst n).line = s.line := rfl
@[simp] theorem State.bump_flt (s : State) (f : Fld) (inst n : Nat) : (s.bump f inst n).flt = s.flt := rfl
@[simp] theorem State.bump_lanes (s : State) (f : Fld) (inst n : Nat) : (s.bump f inst n).lanes = s.lanes := rfl
@[simp] theorem State.bump_outer (s : State) (f : Fld) (inst n : Nat) : (s.bump f inst n).outer = s.outer := rfl
@[simp] theorem State.bump_rig (s : State) (f : Fld) (inst n : Nat) : (s.bump f inst n).rig = s.rig := rfl
@[simp] theorem State.bump_kmc (s : State) (f : Fld) (inst n : Nat) : (s.bump f inst n).kmc = s.kmc := rfl
@[simp] theorem State.bump_view (s : State) (f : Fld) (inst n : Nat) : (s.bump f inst n).view = s.view := rfl
@[simp] theorem State.bump_free (s : State) (f : Fld) (inst n : Nat) : (s.bump f inst n).free = s.free := rfl
@[simp] theorem State.bump_out (s : State) (f : Fld) (inst n : Nat) : (s.bump f inst n).out = s.out := rfl
@[simp] theorem State.bump_pending (s : State) (f : Fld) (inst n : Nat) : (s.bump f inst n).pending = s.pending := rfl

@[simp] theorem State.bumpWrap_boot (s : State) (f : Fld) (inst n : Nat) : (s.bumpWrap f inst n).boot = s.boot := rfl
@[simp] theorem State.bumpWrap_mgmt (s : State) (f : Fld) (inst n : Nat) : (s.bumpWrap f inst n).mgmt = s.mgmt := rfl
@[simp] theorem State.bumpWrap_evr (s : State) (f : Fld) (inst n : Nat) : (s.bumpWrap f inst n).evr = s.evr := rfl
@[simp] theorem State.bumpWrap_hif (s : State) (f : Fld) (inst n : Nat) : (s.bumpWrap f inst n).hif = s.hif := rfl
@[simp] theorem State.bumpWrap_cox (s : State) (f : Fld) (inst n : Nat) : (s.bumpWrap f inst n).cox = s.cox := rfl
@[simp] theorem State.bumpWrap_mem (s : State) (f : Fld) (inst n : Nat) : (s.bumpWrap f inst n).mem = s.mem := rfl
@[simp] theorem State.bumpWrap_time (s : State) (f : Fld) (inst n : Nat) : (s.bumpWrap f inst n).time = s.time := rfl
@[simp] theorem State.bumpWrap_power (s : State) (f : Fld) (inst n : Nat) : (s.bumpWrap f inst n).power = s.power := rfl
@[simp] theorem State.bumpWrap_sett (s : State) (f : Fld) (inst n : Nat) : (s.bumpWrap f inst n).sett = s.sett := rfl
@[simp] theorem State.bumpWrap_swc (s : State) (f : Fld) (inst n : Nat) : (s.bumpWrap f inst n).swc = s.swc := rfl
@[simp] theorem State.bumpWrap_lsc (s : State) (f : Fld) (inst n : Nat) : (s.bumpWrap f inst n).lsc = s.lsc := rfl
@[simp] theorem State.bumpWrap_tpt (s : State) (f : Fld) (inst n : Nat) : (s.bumpWrap f inst n).tpt = s.tpt := rfl
@[simp] theorem State.bumpWrap_col (s : State) (f : Fld) (inst n : Nat) : (s.bumpWrap f inst n).col = s.col := rfl
@[simp] theorem State.bumpWrap_plans (s : State) (f : Fld) (inst n : Nat) : (s.bumpWrap f inst n).plans = s.plans := rfl
@[simp] theorem State.bumpWrap_tfb (s : State) (f : Fld) (inst n : Nat) : (s.bumpWrap f inst n).tfb = s.tfb := rfl
@[simp] theorem State.bumpWrap_ash (s : State) (f : Fld) (inst n : Nat) : (s.bumpWrap f inst n).ash = s.ash := rfl
@[simp] theorem State.bumpWrap_line (s : State) (f : Fld) (inst n : Nat) : (s.bumpWrap f inst n).line = s.line := rfl
@[simp] theorem State.bumpWrap_flt (s : State) (f : Fld) (inst n : Nat) : (s.bumpWrap f inst n).flt = s.flt := rfl
@[simp] theorem State.bumpWrap_lanes (s : State) (f : Fld) (inst n : Nat) : (s.bumpWrap f inst n).lanes = s.lanes := rfl
@[simp] theorem State.bumpWrap_outer (s : State) (f : Fld) (inst n : Nat) : (s.bumpWrap f inst n).outer = s.outer := rfl
@[simp] theorem State.bumpWrap_rig (s : State) (f : Fld) (inst n : Nat) : (s.bumpWrap f inst n).rig = s.rig := rfl
@[simp] theorem State.bumpWrap_kmc (s : State) (f : Fld) (inst n : Nat) : (s.bumpWrap f inst n).kmc = s.kmc := rfl
@[simp] theorem State.bumpWrap_view (s : State) (f : Fld) (inst n : Nat) : (s.bumpWrap f inst n).view = s.view := rfl
@[simp] theorem State.bumpWrap_free (s : State) (f : Fld) (inst n : Nat) : (s.bumpWrap f inst n).free = s.free := rfl
@[simp] theorem State.bumpWrap_out (s : State) (f : Fld) (inst n : Nat) : (s.bumpWrap f inst n).out = s.out := rfl
@[simp] theorem State.bumpWrap_pending (s : State) (f : Fld) (inst n : Nat) : (s.bumpWrap f inst n).pending = s.pending := rfl

@[simp] theorem State.onPort_boot (s : State) (v : View) (b : Blk) (f : CommitPort → CommitPort) : (s.onPort v b f).boot = s.boot := rfl
@[simp] theorem State.onPort_mgmt (s : State) (v : View) (b : Blk) (f : CommitPort → CommitPort) : (s.onPort v b f).mgmt = s.mgmt := rfl
@[simp] theorem State.onPort_evr (s : State) (v : View) (b : Blk) (f : CommitPort → CommitPort) : (s.onPort v b f).evr = s.evr := rfl
@[simp] theorem State.onPort_hif (s : State) (v : View) (b : Blk) (f : CommitPort → CommitPort) : (s.onPort v b f).hif = s.hif := rfl
@[simp] theorem State.onPort_cox (s : State) (v : View) (b : Blk) (f : CommitPort → CommitPort) : (s.onPort v b f).cox = s.cox := rfl
@[simp] theorem State.onPort_mem (s : State) (v : View) (b : Blk) (f : CommitPort → CommitPort) : (s.onPort v b f).mem = s.mem := rfl
@[simp] theorem State.onPort_time (s : State) (v : View) (b : Blk) (f : CommitPort → CommitPort) : (s.onPort v b f).time = s.time := rfl
@[simp] theorem State.onPort_power (s : State) (v : View) (b : Blk) (f : CommitPort → CommitPort) : (s.onPort v b f).power = s.power := rfl
@[simp] theorem State.onPort_sett (s : State) (v : View) (b : Blk) (f : CommitPort → CommitPort) : (s.onPort v b f).sett = s.sett := rfl
@[simp] theorem State.onPort_swc (s : State) (v : View) (b : Blk) (f : CommitPort → CommitPort) : (s.onPort v b f).swc = s.swc := rfl
@[simp] theorem State.onPort_lsc (s : State) (v : View) (b : Blk) (f : CommitPort → CommitPort) : (s.onPort v b f).lsc = s.lsc := rfl
@[simp] theorem State.onPort_tpt (s : State) (v : View) (b : Blk) (f : CommitPort → CommitPort) : (s.onPort v b f).tpt = s.tpt := rfl
@[simp] theorem State.onPort_col (s : State) (v : View) (b : Blk) (f : CommitPort → CommitPort) : (s.onPort v b f).col = s.col := rfl
@[simp] theorem State.onPort_plans (s : State) (v : View) (b : Blk) (f : CommitPort → CommitPort) : (s.onPort v b f).plans = s.plans := rfl
@[simp] theorem State.onPort_tfb (s : State) (v : View) (b : Blk) (f : CommitPort → CommitPort) : (s.onPort v b f).tfb = s.tfb := rfl
@[simp] theorem State.onPort_ash (s : State) (v : View) (b : Blk) (f : CommitPort → CommitPort) : (s.onPort v b f).ash = s.ash := rfl
@[simp] theorem State.onPort_line (s : State) (v : View) (b : Blk) (f : CommitPort → CommitPort) : (s.onPort v b f).line = s.line := rfl
@[simp] theorem State.onPort_flt (s : State) (v : View) (b : Blk) (f : CommitPort → CommitPort) : (s.onPort v b f).flt = s.flt := rfl
@[simp] theorem State.onPort_lanes (s : State) (v : View) (b : Blk) (f : CommitPort → CommitPort) : (s.onPort v b f).lanes = s.lanes := rfl
@[simp] theorem State.onPort_outer (s : State) (v : View) (b : Blk) (f : CommitPort → CommitPort) : (s.onPort v b f).outer = s.outer := rfl
@[simp] theorem State.onPort_rig (s : State) (v : View) (b : Blk) (f : CommitPort → CommitPort) : (s.onPort v b f).rig = s.rig := rfl
@[simp] theorem State.onPort_kmc (s : State) (v : View) (b : Blk) (f : CommitPort → CommitPort) : (s.onPort v b f).kmc = s.kmc := rfl
@[simp] theorem State.onPort_view (s : State) (v : View) (b : Blk) (f : CommitPort → CommitPort) : (s.onPort v b f).view = s.view := rfl
@[simp] theorem State.onPort_free (s : State) (v : View) (b : Blk) (f : CommitPort → CommitPort) : (s.onPort v b f).free = s.free := rfl
@[simp] theorem State.onPort_out (s : State) (v : View) (b : Blk) (f : CommitPort → CommitPort) : (s.onPort v b f).out = s.out := rfl
@[simp] theorem State.onPort_pending (s : State) (v : View) (b : Blk) (f : CommitPort → CommitPort) : (s.onPort v b f).pending = s.pending := rfl

/-- Reading a register after writing it. -/
@[simp] theorem State.reg_setReg (s : State) (k : RegKey) (w : Word) : (s.setReg k w).reg k = w := by
  simp [State.reg, State.setReg, AMap.find_put_self]

/-- Writing one register leaves every other one alone. -/
theorem State.reg_setReg_ne (s : State) (k k' : RegKey) (w : Word) (h : k' ≠ k) : (s.setReg k w).reg k' = s.reg k' := by
  simp [State.reg, State.setReg, AMap.find_put_ne _ _ _ _ h]

/-- A field that fits its register reads what was written, cut to its width. -/
theorem State.fld_setFld_self (s : State) (f : Fld) (inst v : Nat) (h : f.lsb + f.width ≤ 32) :
    (s.setFld f inst v).fld f inst = v % 2 ^ f.width := by
  unfold State.fld State.setFld
  rw [State.reg_setReg]
  exact bitsOf_ofNat_putBits _ _ _ _ h (s.reg (f.key inst)).isLt

/-- A field that fits its register and does not overlap the field written keeps its value. -/
theorem State.fld_setFld_other (s : State) (f g : Fld) (inst v : Nat) (hk : g.key inst = f.key inst)
    (hf : f.lsb + f.width ≤ 32) (hg : g.lsb + g.width ≤ 32) (hd : g.lsb + g.width ≤ f.lsb ∨ f.lsb + f.width ≤ g.lsb) :
    (s.setFld f inst v).fld g inst = s.fld g inst := by
  unfold State.fld State.setFld
  rw [hk, State.reg_setReg]
  exact bitsOf_ofNat_putBits_other _ _ _ _ _ _ hf hg hd (s.reg (f.key inst)).isLt

/-- A field of another register, or of another copy of the register, keeps its value. -/
theorem State.fld_setFld_ne (s : State) (f g : Fld) (inst inst' v : Nat) (h : g.key inst' ≠ f.key inst) :
    (s.setFld f inst v).fld g inst' = s.fld g inst' := by
  unfold State.fld State.setFld
  rw [State.reg_setReg_ne _ _ _ _ h]

end Sys2Proof.Machine
end

