-- ==== Sys2Proof/Laws/Facts.lean ====
section
/-!
SUPPORT. What a frame says of one part: for an operation with its lemma in the Frame files, the parts outside its mask are
equal, register by register and field by field.
-/

namespace Sys2Proof.Machine

variable {X : Nat} {s t : State}

theorem Fr.boot_eq (h : Fr X s t) (hX : X.testBit 27 = false) : t.boot = s.boot := h.parts .boot hX
theorem Fr.mgmt_eq (h : Fr X s t) (hX : X.testBit 28 = false) : t.mgmt = s.mgmt := h.parts .mgmt hX
theorem Fr.evr_eq (h : Fr X s t) (hX : X.testBit 29 = false) : t.evr = s.evr := h.parts .evr hX
theorem Fr.hif_eq (h : Fr X s t) (hX : X.testBit 30 = false) : t.hif = s.hif := h.parts .hif hX
theorem Fr.cox_eq (h : Fr X s t) (hX : X.testBit 31 = false) : t.cox = s.cox := h.parts .cox hX
theorem Fr.mem_eq (h : Fr X s t) (hX : X.testBit 32 = false) : t.mem = s.mem := h.parts .mem hX
theorem Fr.time_eq (h : Fr X s t) (hX : X.testBit 33 = false) : t.time = s.time := h.parts .time hX
theorem Fr.power_eq (h : Fr X s t) (hX : X.testBit 34 = false) : t.power = s.power := h.parts .power hX
theorem Fr.sett_eq (h : Fr X s t) (hX : X.testBit 35 = false) : t.sett = s.sett := h.parts .sett hX
theorem Fr.swc_eq (h : Fr X s t) (hX : X.testBit 36 = false) : t.swc = s.swc := h.parts .swc hX
theorem Fr.lsc_eq (h : Fr X s t) (hX : X.testBit 37 = false) : t.lsc = s.lsc := h.parts .lsc hX
theorem Fr.tpt_eq (h : Fr X s t) (hX : X.testBit 38 = false) : t.tpt = s.tpt := h.parts .tpt hX
theorem Fr.col_eq (h : Fr X s t) (hX : X.testBit 39 = false) : t.col = s.col := h.parts .col hX
theorem Fr.plans_eq (h : Fr X s t) (hX : X.testBit 40 = false) : t.plans = s.plans := h.parts .plans hX
theorem Fr.tfb_eq (h : Fr X s t) (hX : X.testBit 41 = false) : t.tfb = s.tfb := h.parts .tfb hX
theorem Fr.ash_eq (h : Fr X s t) (hX : X.testBit 42 = false) : t.ash = s.ash := h.parts .ash hX
theorem Fr.line_eq (h : Fr X s t) (hX : X.testBit 43 = false) : t.line = s.line := h.parts .line hX
theorem Fr.flt_eq (h : Fr X s t) (hX : X.testBit 44 = false) : t.flt = s.flt := h.parts .flt hX
theorem Fr.lanes_eq (h : Fr X s t) (hX : X.testBit 45 = false) : t.lanes = s.lanes := h.parts .lanes hX
theorem Fr.outer_eq (h : Fr X s t) (hX : X.testBit 46 = false) : t.outer = s.outer := h.parts .outer hX
theorem Fr.rig_eq (h : Fr X s t) (hX : X.testBit 47 = false) : t.rig = s.rig := h.parts .rig hX
theorem Fr.kmc_eq (h : Fr X s t) (hX : X.testBit 48 = false) : t.kmc = s.kmc := h.parts .kmc hX
theorem Fr.view_eq (h : Fr X s t) (hX : X.testBit 49 = false) : t.view = s.view := h.parts .view hX
theorem Fr.free_eq (h : Fr X s t) (hX : X.testBit 50 = false) : t.free = s.free := h.parts .free hX
theorem Fr.out_eq (h : Fr X s t) (hX : X.testBit 51 = false) : t.out = s.out := h.parts .out hX

theorem Fr.reg_eq (h : Fr X s t) (k : RegKey) (hX : X.testBit (blkCode k.blk) = false)
    (hc : countsEvents k.blk k.off = false) : t.reg k = s.reg k := h.parts (.regs k.blk) hX k.off k.inst hc

theorem Fr.fld_eq (h : Fr X s t) (f : Fld) (inst : Nat) (hX : X.testBit (blkCode f.blk) = false)
    (hc : countsEvents f.blk f.off = false) : t.fld f inst = s.fld f inst := by
  unfold State.fld
  rw [h.reg_eq _ hX hc]

theorem Fr.flag_eq (h : Fr X s t) (f : Fld) (inst : Nat) (hX : X.testBit (blkCode f.blk) = false)
    (hc : countsEvents f.blk f.off = false) : t.flag f inst = s.flag f inst := by
  unfold State.flag
  rw [h.fld_eq f inst hX hc]

/-- Raising an event changes no field of a register but the event counters. -/
theorem State.fld_raise (s : State) (c i d fn : Nat) (m : Bytes) (f : Fld) (n : Nat)
    (hc : countsEvents f.blk f.off = false) : (s.raise c i d fn m).fld f n = s.fld f n :=
  (State.raise_fr (Fr.refl _ s) (Sub.refl _)).fld_eq f n (by cases f.blk <;> rfl) hc

/-! ### Operations that write no register -/

@[simp] theorem State.fld_onAsh (s : State) (w : AshState → AshState) (g : Fld) (i : Nat) : (s.onAsh w).fld g i = s.fld g i := rfl
@[simp] theorem State.fld_onCol (s : State) (w : ColState → ColState) (g : Fld) (i : Nat) : (s.onCol w).fld g i = s.fld g i := rfl
@[simp] theorem State.fld_onFltState (s : State) (w : FltState → FltState) (g : Fld) (i : Nat) : (s.onFltState w).fld g i = s.fld g i := rfl
@[simp] theorem State.fld_onLine (s : State) (w : LineState → LineState) (g : Fld) (i : Nat) : (s.onLine w).fld g i = s.fld g i := rfl
@[simp] theorem State.fld_onMem (s : State) (w : MemState → MemState) (g : Fld) (i : Nat) : (s.onMem w).fld g i = s.fld g i := rfl
@[simp] theorem State.fld_onRigs (s : State) (w : List Rig → List Rig) (g : Fld) (i : Nat) : (s.onRigs w).fld g i = s.fld g i := rfl
@[simp] theorem State.fld_onPower (s : State) (w : PowerState → PowerState) (g : Fld) (i : Nat) : (s.onPower w).fld g i = s.fld g i := rfl
@[simp] theorem State.fld_onBoot (s : State) (w : BootState → BootState) (g : Fld) (i : Nat) : (s.onBoot w).fld g i = s.fld g i := rfl
@[simp] theorem State.fld_onSett (s : State) (w : SettState → SettState) (g : Fld) (i : Nat) : (s.onSett w).fld g i = s.fld g i := rfl
@[simp] theorem State.fld_onTfb (s : State) (w : TfbState → TfbState) (g : Fld) (i : Nat) : (s.onTfb w).fld g i = s.fld g i := rfl
@[simp] theorem State.fld_onSwc (s : State) (w : SwcState → SwcState) (g : Fld) (i : Nat) : (s.onSwc w).fld g i = s.fld g i := rfl
@[simp] theorem State.fld_onKmc (s : State) (w : KmcState → KmcState) (g : Fld) (i : Nat) : (s.onKmc w).fld g i = s.fld g i := rfl
@[simp] theorem State.fld_onTpt (s : State) (w : TptState → TptState) (g : Fld) (i : Nat) : (s.onTpt w).fld g i = s.fld g i := rfl
@[simp] theorem State.fld_emit (s : State) (o : Out) (g : Fld) (i : Nat) : (s.emit o).fld g i = s.fld g i := rfl
@[simp] theorem State.fld_setRing (s : State) (n : Nat) (r : Ring) (g : Fld) (i : Nat) : (s.setRing n r).fld g i = s.fld g i := rfl
@[simp] theorem State.fld_setOp (s : State) (o : Op) (g : Fld) (i : Nat) : (s.setOp o).fld g i = s.fld g i := rfl
@[simp] theorem State.fld_setIntake (s : State) (qs : Nat) (i : Intake) (fd : Fld) (ii : Nat) : (s.setIntake qs i).fld fd ii = s.fld fd ii := rfl
@[simp] theorem State.fld_setPlan (s : State) (n : Nat) (p : PlanSlot) (g : Fld) (i : Nat) : (s.setPlan n p).fld g i = s.fld g i := rfl
@[simp] theorem State.fld_setShard (s : State) (k : Nat) (h : OutShard) (g : Fld) (i : Nat) : (s.setShard k h).fld g i = s.fld g i := rfl
@[simp] theorem State.fld_setPort (s : State) (v : View) (b : Blk) (p : CommitPort) (g : Fld) (i : Nat) : (s.setPort v b p).fld g i = s.fld g i := rfl
@[simp] theorem State.fld_setShadow (s : State) (v : View) (b : Blk) (off : Nat) (w : Word) (g : Fld) (i : Nat) : (s.setShadow v b off w).fld g i = s.fld g i := rfl
@[simp] theorem State.fld_setLink (s : State) (l : Nat) (x : SecLink) (g : Fld) (i : Nat) : (s.setLink l x).fld g i = s.fld g i := rfl
@[simp] theorem State.fld_setLgrp (s : State) (g : Nat) (x : LineGroup) (fd : Fld) (ii : Nat) : (s.setLgrp g x).fld fd ii = s.fld fd ii := rfl
@[simp] theorem State.fld_setCtx (s : State) (n : Nat) (c : Ctx) (g : Fld) (i : Nat) : (s.setCtx n c).fld g i = s.fld g i := rfl
@[simp] theorem State.fld_setTctx (s : State) (n : Nat) (c : TCtx) (g : Fld) (i : Nat) : (s.setTctx n c).fld g i = s.fld g i := rfl
@[simp] theorem State.fld_setBucket (s : State) (code : Nat) (b : EvBucket) (g : Fld) (i : Nat) : (s.setBucket code b).fld g i = s.fld g i := rfl
@[simp] theorem State.fld_setHealth (s : State) (k : Subject) (h : Health) (g : Fld) (i : Nat) : (s.setHealth k h).fld g i = s.fld g i := rfl
@[simp] theorem State.fld_setFltGroup (s : State) (slot : Nat) (g : FltGroup) (fd : Fld) (ii : Nat) : (s.setFltGroup slot g).fld fd ii = s.fld fd ii := rfl
@[simp] theorem State.fld_setLlr (s : State) (p : Nat) (x : Llr) (g : Fld) (i : Nat) : (s.setLlr p x).fld g i = s.fld g i := rfl
@[simp] theorem State.fld_setPortSt (s : State) (p : Nat) (x : PortState) (g : Fld) (i : Nat) : (s.setPortSt p x).fld g i = s.fld g i := rfl
@[simp] theorem State.fld_setOutq (s : State) (q : Nat) (x : OutQ) (g : Fld) (i : Nat) : (s.setOutq q x).fld g i = s.fld g i := rfl
@[simp] theorem State.fld_setPolicer (s : State) (p : Nat) (x : Policer) (g : Fld) (i : Nat) : (s.setPolicer p x).fld g i = s.fld g i := rfl
@[simp] theorem State.fld_setGrp (s : State) (g : Nat) (x : OptGroup) (fd : Fld) (ii : Nat) : (s.setGrp g x).fld fd ii = s.fld fd ii := rfl
@[simp] theorem State.fld_setOch (s : State) (g c : Nat) (x : OptChan) (fd : Fld) (ii : Nat) : (s.setOch g c x).fld fd ii = s.fld fd ii := rfl

theorem State.flag_setFlag_self (s : State) (f : Fld) (n : Nat) (b : Bool) (h : f.lsb + f.width ≤ 32) (hw : f.width = 1) :
    (s.setFlag f n b).flag f n = b := by
  unfold State.flag State.setFlag
  rw [State.fld_setFld_self _ _ _ _ h, hw]
  cases b <;> rfl

end Sys2Proof.Machine
end

