-- ==== Sys2Proof/Laws/Memory.lean ====
section
/-!
SUPPORT. Bytes of device memory: what opening a data unit and writing one byte leave, as a reader under a key sees it.
-/

namespace Sys2Proof.Machine

/-- What a map gives after a pair is put into it. -/
theorem AMap.find_put {κ α : Type} [DecidableEq κ] (m : AMap κ α) (k k' : κ) (v : α) :
    AMap.find (AMap.put m k v) k' = if k' = k then some v else AMap.find m k' := by
  by_cases h : k' = k
  · subst h; rw [AMap.find_put_self, if_pos rfl]
  · rw [AMap.find_put_ne _ _ _ _ h, if_neg h]

/-- Reading cells of which only some addresses are kept. -/
theorem Memory.get_filter (m : List Host.Cell) (p : Nat → Bool) (a : Nat) (h : Memory.wf m = true) :
    Memory.get (m.filter fun c => p c.1) a = if p a then Memory.get m a else none := by
  induction m with
  | nil => simp [Memory.get]
  | cons c t ih =>
    obtain ⟨b, y⟩ := c
    have hr := (Memory.rising_cons b y t).1 h
    have ht : Memory.wf t = true := hr.1
    have key : ∀ n, n ≤ b → Memory.get (t.filter fun c => p c.1) n = none ∧ Memory.get t n = none := by
      intro n hn
      have h0 : Memory.from (b + 1) t := fun c hc => hr.2 c hc
      have h1 : Memory.from (b + 1) (t.filter fun c => p c.1) :=
        fun c hc => hr.2 c (List.mem_of_mem_filter hc)
      exact ⟨Memory.get_from _ _ _ h1 (by omega), Memory.get_from _ _ _ h0 (by omega)⟩
    rw [List.filter_cons]
    by_cases hp : p b = true
    · rw [if_pos (by simpa using hp)]
      by_cases hb : b = a
      · subst hb; simp [Memory.get, hp]
      · by_cases hlt : a < b
        · simp [Memory.get, hb, hlt]
        · simp only [Memory.get, if_neg hb, if_neg hlt, ih ht]
    · rw [if_neg (by simpa using hp)]
      by_cases hb : b = a
      · subst hb; simp only [(key b (le_refl _)).1, hp]; simp
      · by_cases hlt : a < b
        · simp only [(key a hlt.le).1, Memory.get, if_neg hb, if_pos hlt]; simp
        · simp only [Memory.get, if_neg hb, if_neg hlt, ih ht]

/-- Reading cells after a run of addresses is cleared. -/
theorem Memory.get_clear (m : List Host.Cell) (lo n a : Nat) (h : Memory.wf m = true) :
    Memory.get (Memory.clear m lo n) a = if lo ≤ a ∧ a < lo + n then none else Memory.get m a := by
  unfold Memory.clear
  rw [Memory.get_filter m (fun x => decide (x < lo) || decide (lo + n ≤ x)) a h]
  by_cases hc : lo ≤ a ∧ a < lo + n
  · rw [if_pos hc, if_neg (by simp; omega)]
  · rw [if_neg hc, if_pos (by simp; omega)]

/-- Reading cells after zeros are spelled out. -/
theorem MemState.get_spellZeros (m : MemState) (l : List Nat) (c : List Host.Cell) (a : Nat) (h : Memory.wf c = true) :
    Memory.get (m.spellZeros l c) a = if a ∈ l ∧ m.openDraw a = none then some 0 else Memory.get c a := by
  induction l generalizing c with
  | nil => simp [MemState.spellZeros]
  | cons b t ih =>
    unfold MemState.spellZeros
    by_cases hb : m.openDraw b = none
    · rw [if_pos hb, ih _ (Memory.wf_set _ _ _ h)]
      by_cases ha : a = b
      · subst ha; simp [hb, Memory.get_set_self]
      · simp [ha, Memory.get_set_ne _ _ _ _ ha h]
    · rw [if_neg hb, ih _ h]
      by_cases ha : a = b
      · subst ha; simp [hb]
      · simp [ha]

/-- Opening a data unit changes no byte of another unit under any key. -/
theorem State.memByte_openUnit_ne (s : State) (k k' : MemKey) (u x : Nat) (h : s.MemOk) (hx : x / 64 ≠ u) :
    (s.openUnit k u).memByte k' x = s.memByte k' x := by
  have hw : Memory.wf s.mem.cells = true := h
  have hc := Memory.wf_clear s.mem.cells (u * 64) 64 hw
  have hcell : Memory.get (s.openUnit k u).mem.cells x = Memory.get s.mem.cells x := by
    unfold State.openUnit State.onMem
    dsimp only
    split
    · split
      · rfl
      · dsimp only
        rw [Memory.get_clear _ _ _ _ hw, if_neg (by omega)]
    · split
      · dsimp only
        rw [MemState.get_spellZeros _ _ _ _ hc, Memory.get_clear _ _ _ _ hw, if_neg (c := _ ∧ _ < _) (by omega), if_neg]
        rintro ⟨hm, -⟩
        rw [List.mem_map] at hm
        obtain ⟨i, hi, rfl⟩ := hm
        simp at hi
        omega
      · dsimp only
        rw [Memory.get_clear _ _ _ _ hw, if_neg (by omega)]
  have hkey : (s.openUnit k u).mem.keys.find (x / 64) = s.mem.keys.find (x / 64) := by
    unfold State.openUnit State.onMem
    dsimp only
    split
    · split
      · rfl
      · exact AMap.find_put_ne _ _ _ _ hx
    · split <;> exact AMap.find_put_ne _ _ _ _ hx
  have hz : (s.openUnit k u).mem.zeroed = s.mem.zeroed ∧ (s.openUnit k u).mem.opened = s.mem.opened := by
    unfold State.openUnit State.onMem
    dsimp only
    split
    · split <;> exact ⟨rfl, rfl⟩
    · split <;> exact ⟨rfl, rfl⟩
  unfold State.memByte State.unlisted MemState.openDraw
  rw [hcell, hkey, hz.1, hz.2]

/-- Opening a data unit under a key changes no byte as that key reads it. -/
theorem State.memByte_openUnit (s : State) (k : MemKey) (u x : Nat) (h : s.MemOk) :
    (s.openUnit k u).memByte k x = s.memByte k x := by
  by_cases hx : x / 64 = u
  swap
  · exact State.memByte_openUnit_ne s k k u x h hx
  subst hx
  have hw : Memory.wf s.mem.cells = true := h
  have hc := Memory.wf_clear s.mem.cells (x / 64 * 64) 64 hw
  have he : x / 64 * 64 / 2 ^ 30 = x / 2 ^ 30 := by omega
  unfold State.openUnit State.onMem
  dsimp only
  cases hk : s.mem.keys.find (x / 64) with
  | some k' =>
    dsimp only
    by_cases hkk : k' = k
    · rw [if_pos hkk]
    · rw [if_neg hkk]
      unfold State.memByte State.unlisted MemState.openDraw
      dsimp only
      rw [AMap.find_put_self, hk]
      dsimp only
      rw [if_pos rfl, if_neg hkk, Memory.get_clear _ _ _ _ hw, if_pos (by omega)]
      rfl
  | none =>
    dsimp only
    rw [he]
    by_cases hz : k = .phys ∧ x / 2 ^ 30 ∈ s.mem.zeroed
    · rw [if_pos hz]
      unfold State.memByte State.unlisted
      dsimp only
      rw [AMap.find_put_self, hk]
      dsimp only
      rw [if_pos rfl, MemState.get_spellZeros _ _ _ _ hc, Memory.get_clear _ _ _ _ hw]
      have hm : x ∈ (List.range 64).map (x / 64 * 64 + ·) := by
        rw [List.mem_map]; exact ⟨x % 64, by simp; omega, by omega⟩
      by_cases ho : s.mem.openDraw x = none
      · rw [if_pos ⟨hm, ho⟩]; exact (if_pos ⟨hz.1, hz.2, ho⟩).symm
      · rw [if_neg (fun c => ho c.2), if_pos (by omega)]; exact (if_neg (fun c => ho c.2.2)).symm
    · rw [if_neg hz]
      unfold State.memByte State.unlisted
      dsimp only
      rw [AMap.find_put_self, hk]
      dsimp only
      rw [if_pos rfl, Memory.get_clear _ _ _ _ hw, if_pos (by omega)]
      exact (if_neg (fun c => hz ⟨c.1, c.2.1⟩)).symm

/-- The key of a data unit that has been opened. -/
theorem State.keys_openUnit (s : State) (k : MemKey) (u : Nat) : (s.openUnit k u).mem.keys.find u = some k := by
  unfold State.openUnit State.onMem
  dsimp only
  split
  · rename_i k' hk
    split
    · rename_i e; rw [hk, e]
    · exact AMap.find_put_self _ _ _
  · split <;> exact AMap.find_put_self _ _ _

theorem State.openUnit_ok (s : State) (k : MemKey) (u : Nat) (h : s.MemOk) : (s.openUnit k u).MemOk :=
  (State.openUnit_fr (X := 0x10000100000000) (Fr.refl _ s) (Sub.refl _)).mem h

theorem State.memWrite1_ok (s : State) (k : MemKey) (a : Nat) (x : Byte) (h : s.MemOk) : (s.memWrite1 k a x).MemOk :=
  (State.memWrite1_fr (X := 0x10000100000000) (Fr.refl _ s) (Sub.refl _)).mem h

/-- The byte written, read under its key. -/
theorem State.memByte_memWrite1_self (s : State) (k : MemKey) (a : Nat) (x : Byte) :
    (s.memWrite1 k a x).memByte k a = x := by
  have hk := State.keys_openUnit s k (a / 64)
  unfold State.memWrite1 State.memByte State.onMem
  dsimp only
  rw [hk]
  dsimp only
  rw [if_pos rfl, Memory.get_set_self]
  rfl

/-- Another byte, read under the same key, or of another data unit under any key. -/
theorem State.memByte_memWrite1_ne (s : State) (k k' : MemKey) (a b : Nat) (x : Byte) (h : s.MemOk) (hb : b ≠ a)
    (hk : k' = k ∨ b / 64 ≠ a / 64) : (s.memWrite1 k a x).memByte k' b = s.memByte k' b := by
  have ho := State.openUnit_ok s k (a / 64) h
  have h1 : (s.memWrite1 k a x).memByte k' b = (s.openUnit k (a / 64)).memByte k' b := by
    unfold State.memWrite1 State.memByte State.unlisted MemState.openDraw State.onMem
    dsimp only
    rw [Memory.get_set_ne _ _ _ _ hb ho]
  rw [h1]
  rcases hk with rfl | hk
  · exact State.memByte_openUnit _ _ _ _ h
  · exact State.memByte_openUnit_ne _ _ _ _ _ h hk

end Sys2Proof.Machine
end

