-- ==== Sys2Proof/WellFormed.lean ====
section
/-!
DEFINITION. Which commands are well formed: the ranges the manual gives the numbers a command carries. A meaning is
total all the same: a number outside its range names nothing, and the command then changes nothing.
-/

namespace Sys2Proof

/-- What is wrong with a command. -/
inductive Ill where
  /-- A virtual function is numbered 1 to 64 (R123). -/
  | view
  /-- A ring is numbered 0 to 4,095 and a slot 0 to 32,767 (R102). -/
  | place
  /-- Rings are numbered 0 to 4,095 (R99). -/
  | ring
  /-- Doorbell pages are numbered 0 to 4,095 (R100). -/
  | page
  /-- A descriptor has 64 bytes. -/
  | desc
  /-- Queue sets are numbered 0 to 7 (R20). -/
  | queueSet
  /-- Functions are the PF, 0, and virtual functions 1 to 64 (R123). -/
  | function
  /-- Virtual functions are numbered 1 to 64 (R123). -/
  | vf
  /-- An IDE stream has key sets 0 and 1 (R449). -/
  | keySet
  /-- DDR5 channels are numbered 0 to 15. -/
  | channel
  /-- A retirable unit is one of 1,024 pseudo-channels or 16 DDR5 channels (R151). -/
  | memUnit
  /-- The tiers are 0, HBM4, and 1, DDR5. -/
  | tier
  /-- Coxes are numbered 0 to 8 (R20). -/
  | cox
  /-- An I3C address has seven bits. -/
  | i3cAddr
  /-- Sett requesters are numbered 0 to 153 (R181). -/
  | requester
  /-- The two dies hold 786,432 setts each (R179). -/
  | sett
  /-- Links are 576 fabric ports and 16 line groups. -/
  | link
  /-- Fabric ports are numbered 0 to 575. -/
  | port
  /-- Output queues are numbered port × 8 + TC. -/
  | queue
  /-- Optical port groups are numbered 0 to 63. -/
  | portGroup
  /-- A port group has 17 channels and comb lines. -/
  | optChannel
  /-- Electrical lanes are numbered 0 to 63. -/
  | lane
  /-- Transport contexts are numbered 0 to 262,143 (R236). -/
  | context
  /-- Program contexts are numbered 0 to 63 (R333). -/
  | tensorContext
  /-- Each die has 18 expanders (R354). -/
  | expander
  /-- Line groups are numbered 0 to 15 (R402). -/
  | lineGroup
  /-- A line group has legs 0, A, and 1, B (R403). -/
  | leg
  /-- A line group has queues 0 to 7 (R416). -/
  | lineQueue
  /-- There are two DCC ports (R430). -/
  | dccPort
  /-- Shard slots are numbered 0 to 15 (R372). -/
  | shard
  /-- Sites are numbered 0 to 15 (record 0x61). -/
  | site
  /-- Plan slots are numbered 0 to 3 (R299). -/
  | planSlot
  /-- Agreement groups stand in slots 0 to 15 (R518). -/
  | fltSlot
  /-- The rails of the rail table, numbered 0 to 7. -/
  | rail
  /-- Alarms are numbered 0 to 7 (R494). -/
  | alarm
  /-- HBM4 stacks are numbered 0 to 15. -/
  | stack
  /-- A lane is a channel of an optical port group, 64 groups of 17, or one of 64 electrical lanes. -/
  | laneRef
  /-- STRAP_RECOV has two balls and STRAP_I3C_ADDR three (R38). -/
  | straps
  /-- There are seven kinds of sensor, and an index has seven bits (R504). -/
  | readings
  deriving DecidableEq, Repr

/-- A requester that exists. -/
def View.ok : View → Bool
  | .vf n => decide (1 ≤ n) && decide (n ≤ 64)
  | _ => true

/-- A place in a ring. -/
def OpKey.ok (k : OpKey) : Bool := decide (k.ring < 4096) && decide (k.slot < 32768)

/-- A unit that can retire. -/
def MemUnit.ok (u : MemUnit) : Bool :=
  (u.tier == 0 && decide (u.unit < 1024)) || (u.tier == 1 && decide (u.unit < 16))

/-- A lane that exists. -/
def laneOk : Option Nat → Nat → Bool
  | some g, c => decide (g < 64) && decide (c < 17)
  | none, l => decide (l < 64)

/-- The checks on a command's operands, each with its name. -/
def Instr.checks : Instr → List (Ill × Bool)
  | .powerOnReset straps => [(.straps, (decide (straps.recov < 4) && decide (straps.i3cAddr < 8)))]
  | .porstAssert => []
  | .startupStageDone _ => []
  | .recovWaitSwitch => []
  | .recovGo v _ _ => [(.view, v.ok)]
  | .recovOffer _ => []
  | .tftpStall => []
  | .recovImageDone _ => []
  | .feedLineLow g line => [(.portGroup, decide (g < 64)), (.optChannel, decide (line < 17))]
  | .feedLineRestore g line => [(.portGroup, decide (g < 64)), (.optChannel, decide (line < 17))]
  | .feedLost g _ => [(.portGroup, decide (g < 64))]
  | .feedRestored g => [(.portGroup, decide (g < 64))]
  | .aonLoss => []
  | .railFault rail _ _ => [(.rail, decide (rail < 8))]
  | .railGood rail => [(.rail, decide (rail < 8))]
  | .sensorSample readings => [(.readings, (readings.all fun r => decide (r.kind < 7) && decide (r.index < 128)))]
  | .oeTripRelease g => [(.portGroup, decide (g < 64))]
  | .bandFall => []
  | .paceWindow _ _ _ => []
  | .floorRaise => []
  | .arbGrant _ _ _ _ _ => []
  | .paceClrMin v _ => [(.view, v.ok)]
  | .arbClr v _ => [(.view, v.ok)]
  | .regWrite v _ _ => [(.view, v.ok)]
  | .regAccessBad v _ _ _ => [(.view, v.ok)]
  | .accessErrWrite v _ _ => [(.view, v.ok)]
  | .commitGo v _ _ => [(.view, v.ok)]
  | .commitCheckEnd v _ _ => [(.view, v.ok)]
  | .commitBoundary v _ _ => [(.view, v.ok)]
  | .commitAbandon v _ _ => [(.view, v.ok)]
  | .doorbell v page _ => [(.view, v.ok), (.page, decide (page < 4096))]
  | .intakePop qs _ _ => [(.queueSet, decide (qs < 8))]
  | .completionWrite ring _ desc => [(.ring, decide (ring < 4096)), (.desc, (desc.all fun b => b.length == 64))]
  | .functionD3hot fn => [(.function, decide (fn ≤ 64))]
  | .functionD0 fn => [(.function, decide (fn ≤ 64))]
  | .vfFlr vf => [(.vf, (decide (1 ≤ vf) && decide (vf ≤ 64)))]
  | .nqPop v page _ => [(.view, v.ok), (.page, decide (page < 4096))]
  | .nqClrCounts v page _ => [(.view, v.ok), (.page, decide (page < 4096))]
  | .evrMirror => []
  | .rigSubmit op _ _ => [(.place, op.ok)]
  | .rigStage op => [(.place, op.ok)]
  | .catchFire op => [(.place, op.ok)]
  | .coxSelfCheck => []
  | .coxHang cox _ => [(.cox, decide (cox < 9))]
  | .coxReloadDone cox _ => [(.cox, decide (cox < 9))]
  | .coxReloadTimeout cox => [(.cox, decide (cox < 9))]
  | .coxReload op => [(.place, op.ok)]
  | .updateStage op => [(.place, op.ok)]
  | .updateStagingDone _ => []
  | .mgmtHandoverDone _ => []
  | .flashBlockDone _ => []
  | .updateAbort op => [(.place, op.ok)]
  | .flashKeep op => [(.place, op.ok)]
  | .flashResync op => [(.place, op.ok)]
  | .svnCommit op _ => [(.place, op.ok)]
  | .ddrDomain op => [(.place, op.ok)]
  | .ddrTrainDone chan _ _ => [(.channel, decide (chan < 16))]
  | .ddrExtent op => [(.place, op.ok)]
  | .memRetire op => [(.place, op.ok)]
  | .retireBlockCopy u _ => [(.memUnit, u.ok)]
  | .attestReport op _ => [(.place, op.ok)]
  | .evrClear op _ => [(.place, op.ok)]
  | .mmuInvalidate op => [(.place, op.ok)]
  | .codeTable op _ => [(.place, op.ok)]
  | .timeConfirm op => [(.place, op.ok)]
  | .unitPower op => [(.place, op.ok)]
  | .fltProbation op => [(.place, op.ok)]
  | .testAccess op _ => [(.place, op.ok)]
  | .xferCopy op => [(.place, op.ok)]
  | .xferExpand op => [(.place, op.ok)]
  | .lineSend op => [(.place, op.ok)]
  | .linePost op => [(.place, op.ok)]
  | .xferCheck op _ => [(.place, op.ok)]
  | .segmentCommit op _ _ _ => [(.place, op.ok)]
  | .devFaultTimeout _ => []
  | .priResponse _ _ => []
  | .priTimeout _ => []
  | .atsInvalidate fn _ _ => [(.function, decide (fn ≤ 64))]
  | .scrubRead a _ => [(.memUnit, a.unit.ok)]
  | .markerReceive g c _ => [(.portGroup, decide (g < 64)), (.optChannel, decide (c < 17))]
  | .pgIdClear g => [(.portGroup, decide (g < 64))]
  | .aliasRestore g _ c => [(.portGroup, decide (g < 64)), (.optChannel, decide (c < 17))]
  | .lccRemapReq g _ _ _ => [(.portGroup, decide (g < 64))]
  | .lccRemapAck g _ _ => [(.portGroup, decide (g < 64))]
  | .lccTxAlias g _ _ => [(.portGroup, decide (g < 64))]
  | .lccCalDone g _ _ => [(.portGroup, decide (g < 64))]
  | .lccResend g => [(.portGroup, decide (g < 64))]
  | .remapSwitch g _ => [(.portGroup, decide (g < 64))]
  | .laneFrameReceive g c _ _ => [(.laneRef, laneOk g c)]
  | .heaterUpdate g c _ _ _ => [(.portGroup, decide (g < 64)), (.optChannel, decide (c < 17))]
  | .ringSweepDone g c _ _ _ => [(.portGroup, decide (g < 64)), (.optChannel, decide (c < 17))]
  | .featherStep g => [(.portGroup, decide (g < 64))]
  | .featherCalDone g _ c => [(.portGroup, decide (g < 64)), (.optChannel, decide (c < 17))]
  | .watchSample g _ => [(.portGroup, decide (g < 64))]
  | .optLaneClr v _ => [(.view, v.ok)]
  | .elnLaneClr v _ => [(.view, v.ok)]
  | .elnTrainTimeout l => [(.lane, decide (l < 64))]
  | .elnEnergyDetect l _ => [(.lane, decide (l < 64))]
  | .linkUp p => [(.port, decide (p < 576))]
  | .linkDown p => [(.port, decide (p < 576))]
  | .settAlloc req => [(.requester, decide (req < 154))]
  | .settFree n => [(.sett, decide (n < 1572864))]
  | .settStatClr v _ => [(.view, v.ok)]
  | .packetIngress port _ => [(.port, decide (port < 576))]
  | .packetDepart d => [(.port, decide (d.port < 576))]
  | .delayEstimateUpdate => []
  | .mcAge queue => [(.queue, decide (queue < 4608))]
  | .bypassBegin op => [(.place, op.ok)]
  | .bypassEnd op => [(.place, op.ok)]
  | .bypassReturnTimeout op => [(.place, op.ok)]
  | .swcStatClr v _ => [(.view, v.ok)]
  | .refillTick => []
  | .histDepthSample => []
  | .reservedWindowOpen slot _ => [(.planSlot, decide (slot < 4))]
  | .reservedWindowClose slot _ => [(.planSlot, decide (slot < 4))]
  | .tmsHistClr v _ => [(.view, v.ok)]
  | .transportDataReceive req _ => [(.requester, decide (req < 154))]
  | .transportAckReceive req _ => [(.requester, decide (req < 154))]
  | .ackDelayExpire ctx => [(.context, decide (ctx < 262144))]
  | .transportSend ctx => [(.context, decide (ctx < 262144))]
  | .rtoExpire ctx => [(.context, decide (ctx < 262144))]
  | .contextFetchDone ctx _ => [(.context, decide (ctx < 262144))]
  | .tptStatClr v _ => [(.view, v.ok)]
  | .llrInitSend port => [(.port, decide (port < 576))]
  | .llrInit port => [(.port, decide (port < 576))]
  | .llrFrameReceive port _ _ => [(.port, decide (port < 576))]
  | .llrAck port _ _ => [(.port, decide (port < 576))]
  | .llrNak port _ _ => [(.port, decide (port < 576))]
  | .llrAckTimer port => [(.port, decide (port < 576))]
  | .llrTimeout port => [(.port, decide (port < 576))]
  | .spillDone _ _ _ => []
  | .restoreDone _ _ _ _ => []
  | .collAllreduce op => [(.place, op.ok)]
  | .collReduceScatter op => [(.place, op.ok)]
  | .collReduce op => [(.place, op.ok)]
  | .collBroadcast op => [(.place, op.ok)]
  | .collShift op => [(.place, op.ok)]
  | .collPermute op => [(.place, op.ok)]
  | .collCancel op => [(.place, op.ok)]
  | .collNotYet req _ => [(.requester, decide (req < 154))]
  | .notYetBackoff ctx _ => [(.context, decide (ctx < 262144))]
  | .collResult req _ => [(.requester, decide (req < 154))]
  | .collChunkDone req _ => [(.requester, decide (req < 154))]
  | .collQuery req _ => [(.requester, decide (req < 154))]
  | .collGone req _ => [(.requester, decide (req < 154))]
  | .queryTimer _ _ _ => []
  | .colStatClr v _ => [(.view, v.ok)]
  | .colLateClr v _ => [(.view, v.ok)]
  | .benNumClr v _ => [(.view, v.ok)]
  | .planStart slot => [(.planSlot, decide (slot < 4))]
  | .strokeStart slot => [(.planSlot, decide (slot < 4))]
  | .planEntryFire slot _ => [(.planSlot, decide (slot < 4))]
  | .heatStart slot => [(.planSlot, decide (slot < 4))]
  | .plnSlotClr v _ => [(.view, v.ok)]
  | .tensorGroupCommit ctx _ _ => [(.tensorContext, decide (ctx < 64))]
  | .contextSaveDone ctx => [(.tensorContext, decide (ctx < 64))]
  | .contextRestoreDone ctx _ => [(.tensorContext, decide (ctx < 64))]
  | .quantumExpire ctx => [(.tensorContext, decide (ctx < 64))]
  | .groupOverrun ctx => [(.tensorContext, decide (ctx < 64))]
  | .tfbStatClr v _ => [(.view, v.ok)]
  | .expandBlock x _ => [(.expander, decide (x < 36))]
  | .ashStatClr v _ => [(.view, v.ok)]
  | .outerOpen op => [(.place, op.ok)]
  | .outerExclude op => [(.place, op.ok)]
  | .outerFetch op => [(.place, op.ok)]
  | .outerAbandon op => [(.place, op.ok)]
  | .roundStart shard => [(.shard, decide (shard < 16))]
  | .hdrTimer shard => [(.shard, decide (shard < 16))]
  | .outerHdr _ => []
  | .siteUnreachable shard site => [(.shard, decide (shard < 16)), (.site, decide (site < 16))]
  | .lossTimer shard site => [(.shard, decide (shard < 16)), (.site, decide (site < 16))]
  | .rosterWaitExpire shard => [(.shard, decide (shard < 16))]
  | .outerPropose _ => []
  | .outerVote _ => []
  | .outerDigest _ => []
  | .outerFinal _ => []
  | .mismatchTimeout shard => [(.shard, decide (shard < 16))]
  | .outerFetchMsg _ => []
  | .fetchTimeout shard _ => [(.shard, decide (shard < 16))]
  | .outerPieceReceive _ _ => []
  | .outerPieceStepDone shard _ => [(.shard, decide (shard < 16))]
  | .outStatClr v _ => [(.view, v.ok)]
  | .slfTransmit g _ _ _ _ => [(.lineGroup, decide (g < 16))]
  | .slfReceive lane _ => [(.lane, decide (lane < 64))]
  | .mfSkewExpire g _ => [(.lineGroup, decide (g < 16))]
  | .nackResendTimer g _ => [(.lineGroup, decide (g < 16))]
  | .lineDeliver g queue _ => [(.lineGroup, decide (g < 16)), (.lineQueue, decide (queue < 8))]
  | .laneFault lane => [(.lane, decide (lane < 64))]
  | .laneReturnTimer lane => [(.lane, decide (lane < 64))]
  | .legLofTimer g leg => [(.lineGroup, decide (g < 16)), (.leg, decide (leg < 2))]
  | .pmSecond g leg _ _ => [(.lineGroup, decide (g < 16)), (.leg, decide (leg < 2))]
  | .suspendHoldExpire g => [(.lineGroup, decide (g < 16))]
  | .wtrExpire g leg => [(.lineGroup, decide (g < 16)), (.leg, decide (leg < 2))]
  | .keyGraceExpire g => [(.lineGroup, decide (g < 16))]
  | .dccFrameOut port => [(.dccPort, decide (port < 2))]
  | .slfRdClr v _ => [(.view, v.ok)]
  | .kexOffer l _ => [(.link, decide (l < 592))]
  | .kexAccept l _ => [(.link, decide (l < 592))]
  | .kexConfirm l _ => [(.link, decide (l < 592))]
  | .kexReject l _ => [(.link, decide (l < 592))]
  | .kexResend l => [(.link, decide (l < 592))]
  | .kexRetry l => [(.link, decide (l < 592))]
  | .rekeyTimer l => [(.link, decide (l < 592))]
  | .fabGraceExpire l => [(.link, decide (l < 592))]
  | .lscStatClr v _ => [(.view, v.ok)]
  | .timeCapture _ => []
  | .timeStepRequest _ => []
  | .ppsInEdge => []
  | .ppsOutPulse => []
  | .ppsOutFall => []
  | .ptpMessage _ => []
  | .ptpMasterLost => []
  | .powerEstimate _ _ _ => []
  | .voltageStep => []
  | .powerCalibrate _ _ _ => []
  | .thermalLoop => []
  | .unitIdleNap _ _ => []
  | .unitIdleOff _ _ => []
  | .unitStateEntered _ _ => []
  | .unitWake _ _ => []
  | .hbmWatchSample stack _ => [(.stack, decide (stack < 16))]
  | .alarmFire a => [(.alarm, decide (a < 8))]
  | .alarmHoldExpire a => [(.alarm, decide (a < 8))]
  | .pwrUnitClr v _ => [(.view, v.ok)]
  | .mgcHang _ _ _ => []
  | .mgcStartRetry _ _ => []
  | .i3cAddressAssign addr _ => [(.i3cAddr, decide (addr < 128))]
  | .i3cTransfer addr _ _ => [(.i3cAddr, decide (addr < 128))]
  | .i3cAlertAck => []
  | .mgeFrameReceive _ => []
  | .evrSummary _ => []
  | .evrPersist => []
  | .jtagInstruction _ => []
  | .viewRefresh => []
  | .heartbeatSend slot => [(.fltSlot, decide (slot < 16))]
  | .juwesyHeartbeat _ _ => []
  | .heartbeatMiss slot _ => [(.fltSlot, decide (slot < 16))]
  | .suspectRetry slot _ => [(.fltSlot, decide (slot < 16))]
  | .juwesySuspect _ _ => []
  | .juwesyVoteReq _ _ => []
  | .voteAnswerTimeout slot _ _ => [(.fltSlot, decide (slot < 16))]
  | .juwesyVote _ _ => []
  | .voteWaitExpire slot _ => [(.fltSlot, decide (slot < 16))]
  | .juwesyDecide _ _ => []
  | .decideResend slot _ _ _ => [(.fltSlot, decide (slot < 16))]
  | .juwesyDecideAck _ _ => []
  | .recoveryQuietDone slot => [(.fltSlot, decide (slot < 16))]
  | .healthUpdate => []
  | .holdRelease slot => [(.fltSlot, decide (slot < 16))]
  | .probeSend slot => [(.fltSlot, decide (slot < 16))]
  | .juwesyProbe _ _ => []
  | .juwesyProbeAck _ _ => []
  | .probationEnd slot => [(.fltSlot, decide (slot < 16))]
  | .juwesyPace _ _ => []
  | .fltStatClr v _ => [(.view, v.ok)]
  | .thermalCriticalRelease => []
  | .heatEnd slot => [(.planSlot, decide (slot < 4))]
  | .paceSecondSend => []
  | .probationNoDecision slot => [(.fltSlot, decide (slot < 16))]
  | .hbmTrainDone _ _ _ => []
  | .ceWindowEnd tier => [(.tier, decide (tier < 2))]
  | .vfEnable count => [(.function, decide (count ≤ 64))]
  | .ideKm _ keySet => [(.keySet, decide (keySet < 2))]
  | .railGoodAtPowerUp rail => [(.rail, decide (rail < 8))]
  | .consoleLineSent => []

/-- The first check a command fails. -/
def Instr.ill (i : Instr) : Option Ill := (i.checks.find? fun c => !c.2).map (·.1)

/-- The command is well formed. -/
def Instr.wellFormed (i : Instr) : Bool := i.ill.isNone

end Sys2Proof
end

