-- ==== Sys2Proof/Laws/PerInstr.lean ====
section
/-!
SUPPORT. Statements made for each command: a command is well formed exactly when every check on its operands holds.
-/

namespace Sys2Proof.Laws

/-- A command is well formed exactly when every check on its operands holds. -/
def Checks.Statement (i : Instr) : Prop := i.wellFormed = true ↔ ∀ c ∈ i.checks, c.2 = true

/-- The statement holds whatever the list of checks is. -/
theorem checks_all (i : Instr) : Checks.Statement i := by
  unfold Checks.Statement Instr.wellFormed Instr.ill
  rw [Option.isNone_map, Option.isNone_iff_eq_none, List.find?_eq_none]
  simp

theorem Checks.powerOnReset (straps : Straps) : Checks.Statement (.powerOnReset straps) := checks_all _
theorem Checks.porstAssert : Checks.Statement (.porstAssert) := checks_all _
theorem Checks.startupStageDone (r : StageResult) : Checks.Statement (.startupStageDone r) := checks_all _
theorem Checks.recovWaitSwitch : Checks.Statement (.recovWaitSwitch) := checks_all _
theorem Checks.recovGo (v : View) (w : Word) (img : Option Bytes) : Checks.Statement (.recovGo v w img) := checks_all _
theorem Checks.recovOffer (peer : Nat) : Checks.Statement (.recovOffer peer) := checks_all _
theorem Checks.tftpStall : Checks.Statement (.tftpStall) := checks_all _
theorem Checks.recovImageDone (img : Bytes) : Checks.Statement (.recovImageDone img) := checks_all _
theorem Checks.feedLineLow (g : Nat) (line : Nat) : Checks.Statement (.feedLineLow g line) := checks_all _
theorem Checks.feedLineRestore (g : Nat) (line : Nat) : Checks.Statement (.feedLineRestore g line) := checks_all _
theorem Checks.feedLost (g : Nat) (lines : List Nat) : Checks.Statement (.feedLost g lines) := checks_all _
theorem Checks.feedRestored (g : Nat) : Checks.Statement (.feedRestored g) := checks_all _
theorem Checks.aonLoss : Checks.Statement (.aonLoss) := checks_all _
theorem Checks.railFault (rail : Nat) (mv : Nat) (us : Nat) : Checks.Statement (.railFault rail mv us) := checks_all _
theorem Checks.railGood (rail : Nat) : Checks.Statement (.railGood rail) := checks_all _
theorem Checks.sensorSample (readings : List Reading) : Checks.Statement (.sensorSample readings) := checks_all _
theorem Checks.oeTripRelease (g : Nat) : Checks.Statement (.oeTripRelease g) := checks_all _
theorem Checks.bandFall : Checks.Statement (.bandFall) := checks_all _
theorem Checks.paceWindow (kind : Nat) (index : Nat) (mtps : Nat) : Checks.Statement (.paceWindow kind index mtps) := checks_all _
theorem Checks.floorRaise : Checks.Statement (.floorRaise) := checks_all _
theorem Checks.arbGrant (res : Nat) (inst : Nat) (reqs : List ArbReq) (blocked : Nat) (delayed : List Nat) : Checks.Statement (.arbGrant res inst reqs blocked delayed) := checks_all _
theorem Checks.paceClrMin (v : View) (w : Word) : Checks.Statement (.paceClrMin v w) := checks_all _
theorem Checks.arbClr (v : View) (w : Word) : Checks.Statement (.arbClr v w) := checks_all _
theorem Checks.regWrite (v : View) (t : RegTarget) (w : Word) : Checks.Statement (.regWrite v t w) := checks_all _
theorem Checks.regAccessBad (v : View) (t : RegTarget) (size : AccessSize) (write : Bool) : Checks.Statement (.regAccessBad v t size write) := checks_all _
theorem Checks.accessErrWrite (v : View) (b : Blk) (w : Word) : Checks.Statement (.accessErrWrite v b w) := checks_all _
theorem Checks.commitGo (v : View) (b : Blk) (w : Word) : Checks.Statement (.commitGo v b w) := checks_all _
theorem Checks.commitCheckEnd (v : View) (b : Blk) (busy : Bool) : Checks.Statement (.commitCheckEnd v b busy) := checks_all _
theorem Checks.commitBoundary (v : View) (b : Blk) (g : Nat) : Checks.Statement (.commitBoundary v b g) := checks_all _
theorem Checks.commitAbandon (v : View) (b : Blk) (w : Word) : Checks.Statement (.commitAbandon v b w) := checks_all _
theorem Checks.doorbell (v : View) (page : Nat) (w : Word) : Checks.Statement (.doorbell v page w) := checks_all _
theorem Checks.intakePop (qs : Nat) (ecc : Ecc) (reads : List (Option Bytes)) : Checks.Statement (.intakePop qs ecc reads) := checks_all _
theorem Checks.completionWrite (ring : Nat) (ok : Bool) (desc : Option Bytes) : Checks.Statement (.completionWrite ring ok desc) := checks_all _
theorem Checks.functionD3hot (fn : Nat) : Checks.Statement (.functionD3hot fn) := checks_all _
theorem Checks.functionD0 (fn : Nat) : Checks.Statement (.functionD0 fn) := checks_all _
theorem Checks.vfFlr (vf : Nat) : Checks.Statement (.vfFlr vf) := checks_all _
theorem Checks.nqPop (v : View) (page : Nat) (ecc : Ecc) : Checks.Statement (.nqPop v page ecc) := checks_all _
theorem Checks.nqClrCounts (v : View) (page : Nat) (w : Word) : Checks.Statement (.nqClrCounts v page w) := checks_all _
theorem Checks.evrMirror : Checks.Statement (.evrMirror) := checks_all _
theorem Checks.rigSubmit (op : OpKey) (bundle : Option Bytes) (blobs : List (Option Bytes)) : Checks.Statement (.rigSubmit op bundle blobs) := checks_all _
theorem Checks.rigStage (op : OpKey) : Checks.Statement (.rigStage op) := checks_all _
theorem Checks.catchFire (op : OpKey) : Checks.Statement (.catchFire op) := checks_all _
theorem Checks.coxSelfCheck : Checks.Statement (.coxSelfCheck) := checks_all _
theorem Checks.coxHang (cox : Nat) (cause : Nat) : Checks.Statement (.coxHang cox cause) := checks_all _
theorem Checks.coxReloadDone (cox : Nat) (ok : Bool) : Checks.Statement (.coxReloadDone cox ok) := checks_all _
theorem Checks.coxReloadTimeout (cox : Nat) : Checks.Statement (.coxReloadTimeout cox) := checks_all _
theorem Checks.coxReload (op : OpKey) : Checks.Statement (.coxReload op) := checks_all _
theorem Checks.updateStage (op : OpKey) : Checks.Statement (.updateStage op) := checks_all _
theorem Checks.updateStagingDone (img : Option Bytes) : Checks.Statement (.updateStagingDone img) := checks_all _
theorem Checks.mgmtHandoverDone (ok : Bool) : Checks.Statement (.mgmtHandoverDone ok) := checks_all _
theorem Checks.flashBlockDone (r : FlashResult) : Checks.Statement (.flashBlockDone r) := checks_all _
theorem Checks.updateAbort (op : OpKey) : Checks.Statement (.updateAbort op) := checks_all _
theorem Checks.flashKeep (op : OpKey) : Checks.Statement (.flashKeep op) := checks_all _
theorem Checks.flashResync (op : OpKey) : Checks.Statement (.flashResync op) := checks_all _
theorem Checks.svnCommit (op : OpKey) (req : Option Bytes) : Checks.Statement (.svnCommit op req) := checks_all _
theorem Checks.ddrDomain (op : OpKey) : Checks.Statement (.ddrDomain op) := checks_all _
theorem Checks.ddrTrainDone (chan : Nat) (gib : Nat) (ok : Bool) : Checks.Statement (.ddrTrainDone chan gib ok) := checks_all _
theorem Checks.ddrExtent (op : OpKey) : Checks.Statement (.ddrExtent op) := checks_all _
theorem Checks.memRetire (op : OpKey) : Checks.Statement (.memRetire op) := checks_all _
theorem Checks.retireBlockCopy (u : MemUnit) (read : MemRead) : Checks.Statement (.retireBlockCopy u read) := checks_all _
theorem Checks.attestReport (op : OpKey) (nonce : Option Bytes) : Checks.Statement (.attestReport op nonce) := checks_all _
theorem Checks.evrClear (op : OpKey) (token : Option Bytes) : Checks.Statement (.evrClear op token) := checks_all _
theorem Checks.mmuInvalidate (op : OpKey) : Checks.Statement (.mmuInvalidate op) := checks_all _
theorem Checks.codeTable (op : OpKey) (levels : Option Bytes) : Checks.Statement (.codeTable op levels) := checks_all _
theorem Checks.timeConfirm (op : OpKey) : Checks.Statement (.timeConfirm op) := checks_all _
theorem Checks.unitPower (op : OpKey) : Checks.Statement (.unitPower op) := checks_all _
theorem Checks.fltProbation (op : OpKey) : Checks.Statement (.fltProbation op) := checks_all _
theorem Checks.testAccess (op : OpKey) (token : Option Bytes) : Checks.Statement (.testAccess op token) := checks_all _
theorem Checks.xferCopy (op : OpKey) : Checks.Statement (.xferCopy op) := checks_all _
theorem Checks.xferExpand (op : OpKey) : Checks.Statement (.xferExpand op) := checks_all _
theorem Checks.lineSend (op : OpKey) : Checks.Statement (.lineSend op) := checks_all _
theorem Checks.linePost (op : OpKey) : Checks.Statement (.linePost op) := checks_all _
theorem Checks.xferCheck (op : OpKey) (state : Option Bytes) : Checks.Statement (.xferCheck op state) := checks_all _
theorem Checks.segmentCommit (op : OpKey) (src : HostAccess) (dst : HostAccess) (read : MemRead) : Checks.Statement (.segmentCommit op src dst read) := checks_all _
theorem Checks.devFaultTimeout (h : HeldRef) : Checks.Statement (.devFaultTimeout h) := checks_all _
theorem Checks.priResponse (h : HeldRef) (success : Bool) : Checks.Statement (.priResponse h success) := checks_all _
theorem Checks.priTimeout (h : HeldRef) : Checks.Statement (.priTimeout h) := checks_all _
theorem Checks.atsInvalidate (fn : Nat) (addr : Nat) (len : Nat) : Checks.Statement (.atsInvalidate fn addr len) := checks_all _
theorem Checks.scrubRead (a : MediaAt) (r : MemRead) : Checks.Statement (.scrubRead a r) := checks_all _
theorem Checks.markerReceive (g : Nat) (c : Nat) (m : RxMarker) : Checks.Statement (.markerReceive g c m) := checks_all _
theorem Checks.pgIdClear (g : Nat) : Checks.Statement (.pgIdClear g) := checks_all _
theorem Checks.aliasRestore (g : Nat) (rx : Bool) (c : Nat) : Checks.Statement (.aliasRestore g rx c) := checks_all _
theorem Checks.lccRemapReq (g : Nat) (asks : Bool) (seq : Nat) (arg : Nat) : Checks.Statement (.lccRemapReq g asks seq arg) := checks_all _
theorem Checks.lccRemapAck (g : Nat) (seq : Nat) (arg : Nat) : Checks.Statement (.lccRemapAck g seq arg) := checks_all _
theorem Checks.lccTxAlias (g : Nat) (seq : Nat) (arg : Nat) : Checks.Statement (.lccTxAlias g seq arg) := checks_all _
theorem Checks.lccCalDone (g : Nat) (seq : Nat) (arg : Nat) : Checks.Statement (.lccCalDone g seq arg) := checks_all _
theorem Checks.lccResend (g : Nat) : Checks.Statement (.lccResend g) := checks_all _
theorem Checks.remapSwitch (g : Nat) (x : RemapSide) : Checks.Statement (.remapSwitch g x) := checks_all _
theorem Checks.laneFrameReceive (g : Option Nat) (c : Nat) (words : List Nat) (lost : Nat) : Checks.Statement (.laneFrameReceive g c words lost) := checks_all _
theorem Checks.heaterUpdate (g : Nat) (c : Nat) (rx : Bool) (err : Nat) (code : Nat) : Checks.Statement (.heaterUpdate g c rx err code) := checks_all _
theorem Checks.ringSweepDone (g : Nat) (c : Nat) (rx : Bool) (locked : Bool) (code : Nat) : Checks.Statement (.ringSweepDone g c rx locked code) := checks_all _
theorem Checks.featherStep (g : Nat) : Checks.Statement (.featherStep g) := checks_all _
theorem Checks.featherCalDone (g : Nat) (rx : Bool) (c : Nat) : Checks.Statement (.featherCalDone g rx c) := checks_all _
theorem Checks.watchSample (g : Nat) (above : Bool) : Checks.Statement (.watchSample g above) := checks_all _
theorem Checks.optLaneClr (v : View) (w : Word) : Checks.Statement (.optLaneClr v w) := checks_all _
theorem Checks.elnLaneClr (v : View) (w : Word) : Checks.Statement (.elnLaneClr v w) := checks_all _
theorem Checks.elnTrainTimeout (l : Nat) : Checks.Statement (.elnTrainTimeout l) := checks_all _
theorem Checks.elnEnergyDetect (l : Nat) (found : Bool) : Checks.Statement (.elnEnergyDetect l found) := checks_all _
theorem Checks.linkUp (p : Nat) : Checks.Statement (.linkUp p) := checks_all _
theorem Checks.linkDown (p : Nat) : Checks.Statement (.linkDown p) := checks_all _
theorem Checks.settAlloc (req : Nat) : Checks.Statement (.settAlloc req) := checks_all _
theorem Checks.settFree (n : Nat) : Checks.Statement (.settFree n) := checks_all _
theorem Checks.settStatClr (v : View) (w : Word) : Checks.Statement (.settStatClr v w) := checks_all _
theorem Checks.packetIngress (port : Nat) (frame : Bytes) : Checks.Statement (.packetIngress port frame) := checks_all _
theorem Checks.packetDepart (d : Departure) : Checks.Statement (.packetDepart d) := checks_all _
theorem Checks.delayEstimateUpdate : Checks.Statement (.delayEstimateUpdate) := checks_all _
theorem Checks.mcAge (queue : Nat) : Checks.Statement (.mcAge queue) := checks_all _
theorem Checks.bypassBegin (op : OpKey) : Checks.Statement (.bypassBegin op) := checks_all _
theorem Checks.bypassEnd (op : OpKey) : Checks.Statement (.bypassEnd op) := checks_all _
theorem Checks.bypassReturnTimeout (op : OpKey) : Checks.Statement (.bypassReturnTimeout op) := checks_all _
theorem Checks.swcStatClr (v : View) (w : Word) : Checks.Statement (.swcStatClr v w) := checks_all _
theorem Checks.refillTick : Checks.Statement (.refillTick) := checks_all _
theorem Checks.histDepthSample : Checks.Statement (.histDepthSample) := checks_all _
theorem Checks.reservedWindowOpen (slot : Nat) (entry : Nat) : Checks.Statement (.reservedWindowOpen slot entry) := checks_all _
theorem Checks.reservedWindowClose (slot : Nat) (entry : Nat) : Checks.Statement (.reservedWindowClose slot entry) := checks_all _
theorem Checks.tmsHistClr (v : View) (w : Word) : Checks.Statement (.tmsHistClr v w) := checks_all _
theorem Checks.transportDataReceive (req : Nat) (p : RxData) : Checks.Statement (.transportDataReceive req p) := checks_all _
theorem Checks.transportAckReceive (req : Nat) (frame : Bytes) : Checks.Statement (.transportAckReceive req frame) := checks_all _
theorem Checks.ackDelayExpire (ctx : Nat) : Checks.Statement (.ackDelayExpire ctx) := checks_all _
theorem Checks.transportSend (ctx : Nat) : Checks.Statement (.transportSend ctx) := checks_all _
theorem Checks.rtoExpire (ctx : Nat) : Checks.Statement (.rtoExpire ctx) := checks_all _
theorem Checks.contextFetchDone (ctx : Nat) (read : MemRead) : Checks.Statement (.contextFetchDone ctx read) := checks_all _
theorem Checks.tptStatClr (v : View) (w : Word) : Checks.Statement (.tptStatClr v w) := checks_all _
theorem Checks.llrInitSend (port : Nat) : Checks.Statement (.llrInitSend port) := checks_all _
theorem Checks.llrInit (port : Nat) : Checks.Statement (.llrInit port) := checks_all _
theorem Checks.llrFrameReceive (port : Nat) (lsn : Nat) (frame : Bytes) : Checks.Statement (.llrFrameReceive port lsn frame) := checks_all _
theorem Checks.llrAck (port : Nat) (lsn : Nat) (qdelay : Nat) : Checks.Statement (.llrAck port lsn qdelay) := checks_all _
theorem Checks.llrNak (port : Nat) (lsn : Nat) (qdelay : Nat) : Checks.Statement (.llrNak port lsn qdelay) := checks_all _
theorem Checks.llrAckTimer (port : Nat) : Checks.Statement (.llrAckTimer port) := checks_all _
theorem Checks.llrTimeout (port : Nat) : Checks.Statement (.llrTimeout port) := checks_all _
theorem Checks.spillDone (group : Nat) (seq : Nat) (chunk : Nat) : Checks.Statement (.spillDone group seq chunk) := checks_all _
theorem Checks.restoreDone (group : Nat) (seq : Nat) (chunk : Nat) (read : MemRead) : Checks.Statement (.restoreDone group seq chunk read) := checks_all _
theorem Checks.collAllreduce (op : OpKey) : Checks.Statement (.collAllreduce op) := checks_all _
theorem Checks.collReduceScatter (op : OpKey) : Checks.Statement (.collReduceScatter op) := checks_all _
theorem Checks.collReduce (op : OpKey) : Checks.Statement (.collReduce op) := checks_all _
theorem Checks.collBroadcast (op : OpKey) : Checks.Statement (.collBroadcast op) := checks_all _
theorem Checks.collShift (op : OpKey) : Checks.Statement (.collShift op) := checks_all _
theorem Checks.collPermute (op : OpKey) : Checks.Statement (.collPermute op) := checks_all _
theorem Checks.collCancel (op : OpKey) : Checks.Statement (.collCancel op) := checks_all _
theorem Checks.collNotYet (req : Nat) (frame : Bytes) : Checks.Statement (.collNotYet req frame) := checks_all _
theorem Checks.notYetBackoff (ctx : Nat) (psn : Nat) : Checks.Statement (.notYetBackoff ctx psn) := checks_all _
theorem Checks.collResult (req : Nat) (frame : Bytes) : Checks.Statement (.collResult req frame) := checks_all _
theorem Checks.collChunkDone (req : Nat) (frame : Bytes) : Checks.Statement (.collChunkDone req frame) := checks_all _
theorem Checks.collQuery (req : Nat) (frame : Bytes) : Checks.Statement (.collQuery req frame) := checks_all _
theorem Checks.collGone (req : Nat) (frame : Bytes) : Checks.Statement (.collGone req frame) := checks_all _
theorem Checks.queryTimer (group : Nat) (seq : Nat) (chunk : Nat) : Checks.Statement (.queryTimer group seq chunk) := checks_all _
theorem Checks.colStatClr (v : View) (w : Word) : Checks.Statement (.colStatClr v w) := checks_all _
theorem Checks.colLateClr (v : View) (w : Word) : Checks.Statement (.colLateClr v w) := checks_all _
theorem Checks.benNumClr (v : View) (w : Word) : Checks.Statement (.benNumClr v w) := checks_all _
theorem Checks.planStart (slot : Nat) : Checks.Statement (.planStart slot) := checks_all _
theorem Checks.strokeStart (slot : Nat) : Checks.Statement (.strokeStart slot) := checks_all _
theorem Checks.planEntryFire (slot : Nat) (entry : Nat) : Checks.Statement (.planEntryFire slot entry) := checks_all _
theorem Checks.heatStart (slot : Nat) : Checks.Statement (.heatStart slot) := checks_all _
theorem Checks.plnSlotClr (v : View) (w : Word) : Checks.Statement (.plnSlotClr v w) := checks_all _
theorem Checks.tensorGroupCommit (ctx : Nat) (ops : List TOp) (go : GroupNext) : Checks.Statement (.tensorGroupCommit ctx ops go) := checks_all _
theorem Checks.contextSaveDone (ctx : Nat) : Checks.Statement (.contextSaveDone ctx) := checks_all _
theorem Checks.contextRestoreDone (ctx : Nat) (read : MemRead) : Checks.Statement (.contextRestoreDone ctx read) := checks_all _
theorem Checks.quantumExpire (ctx : Nat) : Checks.Statement (.quantumExpire ctx) := checks_all _
theorem Checks.groupOverrun (ctx : Nat) : Checks.Statement (.groupOverrun ctx) := checks_all _
theorem Checks.tfbStatClr (v : View) (w : Word) : Checks.Statement (.tfbStatClr v w) := checks_all _
theorem Checks.expandBlock (x : Nat) (e : ExpandStep) : Checks.Statement (.expandBlock x e) := checks_all _
theorem Checks.ashStatClr (v : View) (w : Word) : Checks.Statement (.ashStatClr v w) := checks_all _
theorem Checks.outerOpen (op : OpKey) : Checks.Statement (.outerOpen op) := checks_all _
theorem Checks.outerExclude (op : OpKey) : Checks.Statement (.outerExclude op) := checks_all _
theorem Checks.outerFetch (op : OpKey) : Checks.Statement (.outerFetch op) := checks_all _
theorem Checks.outerAbandon (op : OpKey) : Checks.Statement (.outerAbandon op) := checks_all _
theorem Checks.roundStart (shard : Nat) : Checks.Statement (.roundStart shard) := checks_all _
theorem Checks.hdrTimer (shard : Nat) : Checks.Statement (.hdrTimer shard) := checks_all _
theorem Checks.outerHdr (m : Bytes) : Checks.Statement (.outerHdr m) := checks_all _
theorem Checks.siteUnreachable (shard : Nat) (site : Nat) : Checks.Statement (.siteUnreachable shard site) := checks_all _
theorem Checks.lossTimer (shard : Nat) (site : Nat) : Checks.Statement (.lossTimer shard site) := checks_all _
theorem Checks.rosterWaitExpire (shard : Nat) : Checks.Statement (.rosterWaitExpire shard) := checks_all _
theorem Checks.outerPropose (m : Bytes) : Checks.Statement (.outerPropose m) := checks_all _
theorem Checks.outerVote (m : Bytes) : Checks.Statement (.outerVote m) := checks_all _
theorem Checks.outerDigest (m : Bytes) : Checks.Statement (.outerDigest m) := checks_all _
theorem Checks.outerFinal (m : Bytes) : Checks.Statement (.outerFinal m) := checks_all _
theorem Checks.mismatchTimeout (shard : Nat) : Checks.Statement (.mismatchTimeout shard) := checks_all _
theorem Checks.outerFetchMsg (m : Bytes) : Checks.Statement (.outerFetchMsg m) := checks_all _
theorem Checks.fetchTimeout (shard : Nat) (piece : Nat) : Checks.Statement (.fetchTimeout shard piece) := checks_all _
theorem Checks.outerPieceReceive (tag : Bytes) (data : Bytes) : Checks.Statement (.outerPieceReceive tag data) := checks_all _
theorem Checks.outerPieceStepDone (shard : Nat) (piece : Nat) : Checks.Statement (.outerPieceStepDone shard piece) := checks_all _
theorem Checks.outStatClr (v : View) (w : Word) : Checks.Statement (.outStatClr v w) := checks_all _
theorem Checks.slfTransmit (g : Nat) (dcc0 : Option Byte) (dcc1 : Option Byte) (a : HostAccess) (read : MemRead) : Checks.Statement (.slfTransmit g dcc0 dcc1 a read) := checks_all _
theorem Checks.slfReceive (lane : Nat) (frame : Bytes) : Checks.Statement (.slfReceive lane frame) := checks_all _
theorem Checks.mfSkewExpire (g : Nat) (mfn : Nat) : Checks.Statement (.mfSkewExpire g mfn) := checks_all _
theorem Checks.nackResendTimer (g : Nat) (first : Nat) : Checks.Statement (.nackResendTimer g first) := checks_all _
theorem Checks.lineDeliver (g : Nat) (queue : Nat) (a : HostAccess) : Checks.Statement (.lineDeliver g queue a) := checks_all _
theorem Checks.laneFault (lane : Nat) : Checks.Statement (.laneFault lane) := checks_all _
theorem Checks.laneReturnTimer (lane : Nat) : Checks.Statement (.laneReturnTimer lane) := checks_all _
theorem Checks.legLofTimer (g : Nat) (leg : Nat) : Checks.Statement (.legLofTimer g leg) := checks_all _
theorem Checks.pmSecond (g : Nat) (leg : Nat) (corrected : Nat) (received : Nat) : Checks.Statement (.pmSecond g leg corrected received) := checks_all _
theorem Checks.suspendHoldExpire (g : Nat) : Checks.Statement (.suspendHoldExpire g) := checks_all _
theorem Checks.wtrExpire (g : Nat) (leg : Nat) : Checks.Statement (.wtrExpire g leg) := checks_all _
theorem Checks.keyGraceExpire (g : Nat) : Checks.Statement (.keyGraceExpire g) := checks_all _
theorem Checks.dccFrameOut (port : Nat) : Checks.Statement (.dccFrameOut port) := checks_all _
theorem Checks.slfRdClr (v : View) (w : Word) : Checks.Statement (.slfRdClr v w) := checks_all _
theorem Checks.kexOffer (l : Nat) (m : Bytes) : Checks.Statement (.kexOffer l m) := checks_all _
theorem Checks.kexAccept (l : Nat) (m : Bytes) : Checks.Statement (.kexAccept l m) := checks_all _
theorem Checks.kexConfirm (l : Nat) (m : Bytes) : Checks.Statement (.kexConfirm l m) := checks_all _
theorem Checks.kexReject (l : Nat) (m : Bytes) : Checks.Statement (.kexReject l m) := checks_all _
theorem Checks.kexResend (l : Nat) : Checks.Statement (.kexResend l) := checks_all _
theorem Checks.kexRetry (l : Nat) : Checks.Statement (.kexRetry l) := checks_all _
theorem Checks.rekeyTimer (l : Nat) : Checks.Statement (.rekeyTimer l) := checks_all _
theorem Checks.fabGraceExpire (l : Nat) : Checks.Statement (.fabGraceExpire l) := checks_all _
theorem Checks.lscStatClr (v : View) (w : Word) : Checks.Statement (.lscStatClr v w) := checks_all _
theorem Checks.timeCapture (w : Word) : Checks.Statement (.timeCapture w) := checks_all _
theorem Checks.timeStepRequest (delta : Int) : Checks.Statement (.timeStepRequest delta) := checks_all _
theorem Checks.ppsInEdge : Checks.Statement (.ppsInEdge) := checks_all _
theorem Checks.ppsOutPulse : Checks.Statement (.ppsOutPulse) := checks_all _
theorem Checks.ppsOutFall : Checks.Statement (.ppsOutFall) := checks_all _
theorem Checks.ptpMessage (m : PtpMsg) : Checks.Statement (.ptpMessage m) := checks_all _
theorem Checks.ptpMasterLost : Checks.Statement (.ptpMasterLost) := checks_all _
theorem Checks.powerEstimate (total : Nat) (bow : Nat) (stern : Nat) : Checks.Statement (.powerEstimate total bow stern) := checks_all _
theorem Checks.voltageStep : Checks.Statement (.voltageStep) := checks_all _
theorem Checks.powerCalibrate (measured : Nat) (estimated : Nat) (sensorFault : Bool) : Checks.Statement (.powerCalibrate measured estimated sensorFault) := checks_all _
theorem Checks.thermalLoop : Checks.Statement (.thermalLoop) := checks_all _
theorem Checks.unitIdleNap (kind : Nat) (index : Nat) : Checks.Statement (.unitIdleNap kind index) := checks_all _
theorem Checks.unitIdleOff (kind : Nat) (index : Nat) : Checks.Statement (.unitIdleOff kind index) := checks_all _
theorem Checks.unitStateEntered (kind : Nat) (index : Nat) : Checks.Statement (.unitStateEntered kind index) := checks_all _
theorem Checks.unitWake (kind : Nat) (index : Nat) : Checks.Statement (.unitWake kind index) := checks_all _
theorem Checks.hbmWatchSample (stack : Nat) (temp : Int) : Checks.Statement (.hbmWatchSample stack temp) := checks_all _
theorem Checks.alarmFire (a : Nat) : Checks.Statement (.alarmFire a) := checks_all _
theorem Checks.alarmHoldExpire (a : Nat) : Checks.Statement (.alarmHoldExpire a) := checks_all _
theorem Checks.pwrUnitClr (v : View) (w : Word) : Checks.Statement (.pwrUnitClr v w) := checks_all _
theorem Checks.mgcHang (cause : Nat) (otherReady : Bool) (flash : Bytes) : Checks.Statement (.mgcHang cause otherReady flash) := checks_all _
theorem Checks.mgcStartRetry (ok0 : Bool) (ok1 : Bool) : Checks.Statement (.mgcStartRetry ok0 ok1) := checks_all _
theorem Checks.i3cAddressAssign (addr : Nat) (ibi : Bool) : Checks.Statement (.i3cAddressAssign addr ibi) := checks_all _
theorem Checks.i3cTransfer (addr : Nat) (idx : Nat) (x : I3cData) : Checks.Statement (.i3cTransfer addr idx x) := checks_all _
theorem Checks.i3cAlertAck : Checks.Statement (.i3cAlertAck) := checks_all _
theorem Checks.mgeFrameReceive (f : MgeFrame) : Checks.Statement (.mgeFrameReceive f) := checks_all _
theorem Checks.evrSummary (code : Nat) : Checks.Statement (.evrSummary code) := checks_all _
theorem Checks.evrPersist : Checks.Statement (.evrPersist) := checks_all _
theorem Checks.jtagInstruction (j : JtagInstr) : Checks.Statement (.jtagInstruction j) := checks_all _
theorem Checks.viewRefresh : Checks.Statement (.viewRefresh) := checks_all _
theorem Checks.heartbeatSend (slot : Nat) : Checks.Statement (.heartbeatSend slot) := checks_all _
theorem Checks.juwesyHeartbeat (src : Bytes) (m : Bytes) : Checks.Statement (.juwesyHeartbeat src m) := checks_all _
theorem Checks.heartbeatMiss (slot : Nat) (m : Nat) : Checks.Statement (.heartbeatMiss slot m) := checks_all _
theorem Checks.suspectRetry (slot : Nat) (m : Nat) : Checks.Statement (.suspectRetry slot m) := checks_all _
theorem Checks.juwesySuspect (src : Bytes) (m : Bytes) : Checks.Statement (.juwesySuspect src m) := checks_all _
theorem Checks.juwesyVoteReq (src : Bytes) (m : Bytes) : Checks.Statement (.juwesyVoteReq src m) := checks_all _
theorem Checks.voteAnswerTimeout (slot : Nat) (coord : Nat) (id : Nat) : Checks.Statement (.voteAnswerTimeout slot coord id) := checks_all _
theorem Checks.juwesyVote (src : Bytes) (m : Bytes) : Checks.Statement (.juwesyVote src m) := checks_all _
theorem Checks.voteWaitExpire (slot : Nat) (id : Nat) : Checks.Statement (.voteWaitExpire slot id) := checks_all _
theorem Checks.juwesyDecide (src : Bytes) (m : Bytes) : Checks.Statement (.juwesyDecide src m) := checks_all _
theorem Checks.decideResend (slot : Nat) (coord : Nat) (id : Nat) (child : Nat) : Checks.Statement (.decideResend slot coord id child) := checks_all _
theorem Checks.juwesyDecideAck (src : Bytes) (m : Bytes) : Checks.Statement (.juwesyDecideAck src m) := checks_all _
theorem Checks.recoveryQuietDone (slot : Nat) : Checks.Statement (.recoveryQuietDone slot) := checks_all _
theorem Checks.healthUpdate : Checks.Statement (.healthUpdate) := checks_all _
theorem Checks.holdRelease (slot : Nat) : Checks.Statement (.holdRelease slot) := checks_all _
theorem Checks.probeSend (slot : Nat) : Checks.Statement (.probeSend slot) := checks_all _
theorem Checks.juwesyProbe (src : Bytes) (m : Bytes) : Checks.Statement (.juwesyProbe src m) := checks_all _
theorem Checks.juwesyProbeAck (src : Bytes) (m : Bytes) : Checks.Statement (.juwesyProbeAck src m) := checks_all _
theorem Checks.probationEnd (slot : Nat) : Checks.Statement (.probationEnd slot) := checks_all _
theorem Checks.juwesyPace (src : Bytes) (m : Bytes) : Checks.Statement (.juwesyPace src m) := checks_all _
theorem Checks.fltStatClr (v : View) (w : Word) : Checks.Statement (.fltStatClr v w) := checks_all _
theorem Checks.thermalCriticalRelease : Checks.Statement (.thermalCriticalRelease) := checks_all _
theorem Checks.heatEnd (slot : Nat) : Checks.Statement (.heatEnd slot) := checks_all _
theorem Checks.paceSecondSend : Checks.Statement (.paceSecondSend) := checks_all _
theorem Checks.probationNoDecision (slot : Nat) : Checks.Statement (.probationNoDecision slot) := checks_all _
theorem Checks.hbmTrainDone (stack : Option Nat) (failed : List Nat) (flash : Bytes) : Checks.Statement (.hbmTrainDone stack failed flash) := checks_all _
theorem Checks.ceWindowEnd (tier : Nat) : Checks.Statement (.ceWindowEnd tier) := checks_all _
theorem Checks.vfEnable (count : Nat) : Checks.Statement (.vfEnable count) := checks_all _
theorem Checks.ideKm (stream : Nat) (keySet : Nat) : Checks.Statement (.ideKm stream keySet) := checks_all _
theorem Checks.railGoodAtPowerUp (rail : Nat) : Checks.Statement (.railGoodAtPowerUp rail) := checks_all _
theorem Checks.consoleLineSent : Checks.Statement (.consoleLineSent) := checks_all _

end Sys2Proof.Laws
end

