-- ==== Sys2Proof/Tests/Slice0.lean ====
section
/-!
SUPPORT. Tests: ill-formed commands, examples of the manual, and for each statement with hypotheses a state and operands
that meet them.
-/

namespace Sys2Proof.Tests

open Sys2Proof Sys2Proof.Machine

set_option Elab.async false
set_option linter.unusedVariables false

/-! ### Small states -/

/-- The block before start-up: every rail is good, PORST_N is asserted. -/
def cold : State := { State.reset with boot := { railOrder := [0, 1, 2, 3, 4, 5, 6, 7] } }

/-- PORST_N released, with a start-up stage completed. -/
def staged (n : Nat) : State :=
  { cold with boot := { cold.boot with porst := false } }.setFld Reg.MGT_READINESS_STAGE 0 n

/-- The block in service. -/
def up : State := staged 9

/-- 64 descriptor bytes with the fields (offset, bytes, value) given. -/
def desc (l : List (Nat × Nat × Nat)) : Bytes :=
  l.foldl (fun b f => b.take f.1 ++ bytesLE f.2.1 f.2.2 ++ b.drop (f.1 + f.2.1)) (zeros 64)

/-- A descriptor taken from slot 0 of ring 0. -/
def theOp (d : Bytes) : Op := { key := ⟨0, 0⟩, fn := 0, desc := d, phase := .taken }

/-- The block in service with one descriptor taken from ring 0, served by cox 0. -/
def withOp (d : Bytes) : State :=
  let s := up.setCox 0 roleACTIVE 0
  { s with hif := { s.hif with
    rings := [(0, { kind := dKind d, enabled := true, dev := 1, host := 1, taken := [0] })]
    ops := [(⟨0, 0⟩, theOp d)] } }

/-- A management request with PARAM0. -/
def mgmtDesc (req p0 : Nat) : Bytes := desc [(0, 1, 5), (0x10, 2, req), (0x14, 4, p0)]

/-- A service state with ring 5 as its only ring. -/
def withRing (r : Ring) : State := { up with hif := { up.hif with rings := [(5, r)] } }.setFld Reg.HIF_RING_CFG_SIZE 5 64

/-- The block in service with an optical group in a state, its rings locked and its ports named by tag. -/
def lit (g st : Nat) : State :=
  (List.range 17).foldl (fun s c => (s.setFlag Reg.OPT_LANE_STATUS_RX_LOCK (chanInst g c) true).setOch g c { far := some (0, 7) })
    ((up.setGroupSt g st).setFld Reg.OPT_PG_TAG_EXPECT_TAG g 7)

/-- The alignment marker of channel `c` with an LCC word. -/
def mark (c w : Nat) : Bytes :=
  let b := bytesBE 2 (c * 2048 + c * 64) ++ bytesBE 2 7 ++ bytesBE 1 9 ++ bytesBE 4 w ++ [0]
  bytesBE 5 0xA5C3F096E1 ++ b ++ bytesBE 2 (crc16 b)

/-- An LCC word heard on every channel of a group. -/
def heard (g typ seq arg : Nat) (s : State) : State :=
  (List.range 17).foldl (fun s c => s.setOch g c { s.och g c with lcc := lccWord typ seq arg }) s

/-- A frame: two addresses and an EtherType, padded. -/
def eth (typ : Nat) (rest : Bytes) : Bytes := zeros 12 ++ bytesBE 2 typ ++ rest ++ zeros 46

/-- The block in service with one port up. -/
def portOn (p : Nat) : State := up.setPortSt p { up := true }

/-- A queue with one frame. -/
def queued (q : Nat) (s : State) : State := s.setOutq q { deps := [{ frame := eth 0x88CC [] }] }

/-- A BYPASS descriptor of leaves 1 and 2, and the pair in the table with port groups 3 and 4. -/
def bypassDesc (action sec : Nat) : Bytes := desc [(0, 1, 6), (0x10, 2, 1), (0x12, 2, 2), (0x14, 1, action), (0x18, 8, sec)]
def withPair (s : State) : State :=
  { s with swc := { s.swc with tab := [((0x16, 5), bytesLE 4 0x16 ++ bytesLE 4 5 ++ bytesLE 2 1 ++ bytesLE 2 2 ++ bytesLE 4 2 ++ [3, 4] ++ zeros 14)] } }

/-- An IPv6 packet without a payload, its hop limit 64. -/
def six : Bytes := zeros 12 ++ bytesBE 2 0x86DD ++ bytesBE 4 0x60000000 ++ bytesBE 2 0 ++ [59, 64] ++ zeros 15 ++ [1] ++ zeros 15 ++ [2]

/-- Port 575 up, with a route for every IPv6 address to it, and the classes of its queues all C. -/
def routed : State :=
  { ((up.setPortSt 575 { up := true }).setFld Reg.TMS_CLASS_MAP_CLASS 575 0x5555).setFld Reg.SETT_QMAX_SETTS (reqPort 575) 5 with
    swc := { (up.setPortSt 575 { up := true }).swc with
      tab := [((0x11, 1), zeros 8 ++ [6, 0] ++ bytesLE 2 3 ++ zeros 20), ((0x12, 3), zeros 8 ++ [1, 0] ++ bytesLE 2 575 ++ zeros 4)] } }

/-- Bytes with the fields (offset, bytes, value) given. -/
def bin (n : Nat) (l : List (Nat × Nat × Nat)) : Bytes :=
  l.foldl (fun b f => b.take f.1 ++ bytesLE f.2.1 f.2.2 ++ b.drop (f.1 + f.2.1)) (zeros n)

/-- A plan of one stroke of 1,000 ns with one entry of a type at offset 5, starting at 0. -/
def onePlan (typ : Nat) : Bytes :=
  bin 168 [(0x1C, 2, 1000), (0x1E, 2, 2), (0x20, 4, 1), (0x2C, 4, 1), (132, 2, 1), (136, 1, typ), (138, 2, 5), (140, 2, 7),
    (142, 1, 1), (144, 2, 100)]

/-- The block in service at network time `ns`, with a plan in slot 0. -/
def planned (ns : Nat) (p : PlanSlot) : State := { up with plans := [(0, p)], time := { up.time with ns := ns } }

/-- A neighbour record of port 3. -/
def nbRec : Bytes := bin 16 [(0, 1, 0x13), (2, 2, 16), (4, 4, 3), (8, 4, 5)]

/-- A RIG descriptor of one record, and a block that has taken it. -/
def rigDesc (kind sec ns : Nat) : Bytes := desc [(0, 1, 1), (0x18, 4, 64), (0x1C, 1, kind), (0x20, 8, sec), (0x28, 4, ns), (0x2C, 4, 77)]
def aRig (st : Nat) (c : RigCatch) : Rig :=
  { key := ⟨0, 0⟩, order := 0, st := st, catch_ := c, id := 77, fn := 0, domain := 0, recs := [nbRec] }
def rigged (st : Nat) (c : RigCatch) (d : Bytes) : State :=
  { withOp d with hif := { (withOp d).hif with ops := [(⟨0, 0⟩, { theOp d with phase := .running })] }, rig := { rigs := [aRig st c], orders := 1 } }

/-- A datagram on context 5, as a frame to this device, and the block with context 5 open and cached. -/
def onCtx (typ psn ackPsn : Nat) (head payload : Bytes) : Bytes := tpDatagram 0 typ 0 5 9 psn ackPsn head payload
def dgram (d : Bytes) : Bytes := ethFrame (udp6 (zeros 16) ([0xFF, 2] ++ zeros 14) 0 0xC000 7522 d)
def ctxOn (c : Ctx) : State := { up with tpt := { ctxs := [(5, c)], cacheStern := [5] } }
def ctrlOn (ctype g q chunk psnRef : Nat) : Bytes := onCtx 2 0 0 (bareHead 32) (ctrlHead ctype 0 g q chunk 0 0 0 psnRef 0)

/-- A COLL descriptor of a code: chunks, group 3, operation sequence 1, and a spec of FP32 in wide mode. -/
def collDesc (code chunks spill : Nat) : Bytes :=
  desc [(0, 1, 3), (1, 1, code), (0x10, 4, chunks), (0x14, 2, 3), (0x18, 4, 1), (0x1C, 4, 0xFF0000), (0x30, 8, spill)]

/-- The group record of group 3 with one member, at the root, in the live tables. -/
def rootGroup (s : State) : State :=
  { s with swc := { s.swc with tab := [((0x30, 3), bytesLE 4 0x30 ++ bytesLE 4 3 ++ bytesLE 2 1 ++ bytesLE 2 9 ++ bytesLE 4 0 ++
    bytesLE 4 7 ++ bytesLE 4 0xFFFFFFFF ++ zeros 8)] } }

/-- Operation 1 of group 3 as the only operation. -/
def oneColl (o : CollOp) (s : State) : State := { s with col := { s.col with ops := [((3, 1), o)] } }

/-- An XFER descriptor: operation, length, source and destination space, the four bytes from 0x2B on. -/
def xferDesc (op len src dst b c e f : Nat) : Bytes :=
  desc [(0, 1, 2), (1, 1, op), (0x18, 8, 2 ^ 30), (0x20, 8, len), (0x28, 1, src), (0x29, 1, dst), (0x2B, 1, b), (0x2C, 1, c),
    (0x2D, 1, e), (0x2E, 1, f)]

/-- The same descriptor under way. -/
def running (d : Bytes) : State :=
  { withOp d with hif := { (withOp d).hif with ops := [(⟨0, 0⟩, { theOp d with phase := .running })] } }

/-- The block in service with line group 3 enabled and one member lane, 24, in service. -/
def lined : State :=
  ((((up.setFlag Reg.SLF_GRP_CFG_ENABLE 3 true).setFld { Reg.ELN_OCT_LG_LO_LG0 with width := 8 } 3 0x83).setLaneSt 24 3).setFld Reg.SLF_WIN_CFG_RX_UNITS 3 1)

/-- A shard record: id 9, one run, one element, one spare, line group 3 toward site 1; and three sites, the local one 0,
FULL, of weight 1 each. -/
def shardBytes : Bytes :=
  bin 96 [(8, 4, 9), (0x0C, 4, 1), (0x10, 8, 1), (0x1A, 1, 1), (0x1B, 1, 4), (0x1D, 1, 1), (0x1E, 1, 1), (0x22, 2, 3), (0x51, 1, 3)]
def siteBytes : Bytes := bin 32 [(8, 1, 3), (0x10, 1, 1), (0x11, 1, 1), (0x12, 1, 1)]

/-- The block in service with shard slot 2. -/
def sharded (h : OutShard) (s : State) : State :=
  { s with swc := { s.swc with tab := [((0x60, 2), shardBytes), ((0x61, 0), siteBytes)] }, outer := { shards := [(2, h)] } }

/-- The same with the second record given. -/
def shardedBy (r : Bytes) (h : OutShard) (s : State) : State :=
  { s with swc := { s.swc with tab := [((0x60, 2), r), ((0x61, 0), siteBytes)] }, outer := { shards := [(2, h)] } }

/-- Shard 9 with two pieces, and with runs of no block. -/
def twoPieces : Bytes :=
  bin 96 [(8, 4, 9), (0x0C, 4, 1), (0x10, 8, 262145), (0x1A, 1, 1), (0x1B, 1, 4), (0x1D, 1, 1), (0x1E, 1, 1), (0x22, 2, 3), (0x51, 1, 3)]
def noRuns : Bytes := bin 96 [(8, 4, 9), (0x10, 8, 1), (0x51, 1, 3)]

/-- What an OPEN needs: tables 0 and 1 loaded, four resident contexts, group 3. -/
def openable (s : State) : State :=
  { s with
    swc := { s.swc with tab := s.swc.tab ++ [((0x30, 3), zeros 32)] }
    ash := { slots := [((0, 0), { st := 1, size := 0 }), ((1, 0), { st := 1, size := 0 }), ((0, 1), { st := 1, size := 1 }),
      ((1, 1), { st := 1, size := 1 })] }
    tfb := { ctxs := [(0, { st := 1 })] } }

/-- An OUTER descriptor for shard 2 and site 1, round 1, START at a second, with a flag byte. -/
def outerDesc (code sec fl : Nat) : Bytes :=
  desc [(0, 1, 4), (1, 1, code), (0x10, 1, 2), (0x11, 1, 1), (0x14, 4, 1), (0x29, 1, fl), (0x30, 8, sec)]

/-- A message of site 1 for shard 9, round 1, epoch. -/
def siteMessage (typ epoch : Nat) (b : Bytes) : Bytes :=
  bin 16 [(0, 1, typ), (2, 1, 1), (7, 1, 9), (11, 1, 1), (13, 1, epoch)] ++ b

/-- The block in service with agreement group 2 of three members, itself member 0. -/
def grouped (g : FltGroup) (s : State) : State :=
  { s with swc := { s.swc with tab := [((0x70, 2), bin 64 [(8, 8, 77), (0x10, 2, 3)])] }, flt := { s.flt with groups := [(2, g)] } }

/-- A Juwesy message of a member of that group. -/
def fltMsg (typ sender epoch : Nat) (b : Bytes) : Bytes :=
  bin 16 [(0, 1, 0x10), (1, 1, typ), (3, 1, sender), (11, 1, 77), (15, 1, epoch)] ++ b

/-! ### Ill-formed commands: each check refuses one -/

theorem test_ill_view : (Instr.arbClr (.vf 0) 0).ill = some .view := by decide
theorem test_ill_place : (Instr.rigStage ⟨4096, 0⟩).ill = some .place := by decide
theorem test_ill_ring : (Instr.completionWrite 4096 true none).ill = some .ring := by decide
theorem test_ill_page : (Instr.nqPop .host 4096 .clean).ill = some .page := by decide
theorem test_ill_desc : (Instr.completionWrite 4095 true (some [])).ill = some .desc := by decide
theorem test_ill_queueSet : (Instr.intakePop 8 .clean []).ill = some .queueSet := by decide
theorem test_ill_function : (Instr.functionD0 65).ill = some .function := by decide
theorem test_ill_vf : (Instr.vfFlr 0).ill = some .vf := by decide
theorem test_ill_keySet : (Instr.ideKm 0 2).ill = some .keySet := by decide
theorem test_ill_channel : (Instr.ddrTrainDone 16 0 true).ill = some .channel := by decide
theorem test_ill_memUnit : (Instr.retireBlockCopy ⟨1, 16⟩ []).ill = some .memUnit := by decide
theorem test_ill_tier : (Instr.ceWindowEnd 2).ill = some .tier := by decide
theorem test_ill_cox : (Instr.coxHang 9 0).ill = some .cox := by decide
theorem test_ill_i3cAddr : (Instr.i3cAddressAssign 128 true).ill = some .i3cAddr := by decide
theorem test_ill_requester : (Instr.settAlloc 154).ill = some .requester := by decide
theorem test_ill_sett : (Instr.settFree 1572864).ill = some .sett := by decide
theorem test_ill_link : (Instr.kexRetry 592).ill = some .link := by decide
theorem test_ill_port : (Instr.linkUp 576).ill = some .port := by decide
theorem test_ill_queue : (Instr.mcAge 4608).ill = some .queue := by decide
theorem test_ill_portGroup : (Instr.pgIdClear 64).ill = some .portGroup := by decide
theorem test_ill_optChannel : (Instr.aliasRestore 63 true 17).ill = some .optChannel := by decide
theorem test_ill_laneRef : (Instr.laneFrameReceive (some 63) 17 [] 0).ill = some .laneRef := by decide
theorem test_ill_lane : (Instr.elnTrainTimeout 64).ill = some .lane := by decide
theorem test_ill_context : (Instr.rtoExpire 262144).ill = some .context := by decide
theorem test_ill_tensorContext : (Instr.groupOverrun 64).ill = some .tensorContext := by decide
theorem test_ill_expander : ∀ e, (Instr.expandBlock 36 e).ill = some .expander := fun _ => rfl
theorem test_ill_lineGroup : (Instr.mfSkewExpire 16 0).ill = some .lineGroup := by decide
theorem test_ill_leg : (Instr.wtrExpire 15 2).ill = some .leg := by decide
theorem test_ill_lineQueue : ∀ a, (Instr.lineDeliver 15 8 a).ill = some .lineQueue := fun _ => rfl
theorem test_ill_dccPort : (Instr.dccFrameOut 2).ill = some .dccPort := by decide
theorem test_ill_shard : (Instr.hdrTimer 16).ill = some .shard := by decide
theorem test_ill_site : (Instr.lossTimer 15 16).ill = some .site := by decide
theorem test_ill_planSlot : (Instr.heatEnd 4).ill = some .planSlot := by decide
theorem test_ill_fltSlot : (Instr.probeSend 16).ill = some .fltSlot := by decide
theorem test_ill_rail : (Instr.railGood 8).ill = some .rail := by decide
theorem test_ill_alarm : (Instr.alarmFire 8).ill = some .alarm := by decide
theorem test_ill_stack : (Instr.hbmWatchSample 16 0).ill = some .stack := by decide
theorem test_ill_straps : (Instr.powerOnReset ⟨false, 4, 0, false⟩).ill = some .straps := by decide
theorem test_ill_readings : (Instr.sensorSample [⟨7, 0, none⟩]).ill = some .readings := by decide

/-- The bounds themselves are well formed. -/
theorem test_well_formed_at_the_bounds : ([.functionD0 64, .vfFlr 64, .rigStage ⟨4095, 32767⟩, .linkUp 575, .coxHang 8 0,
    .retireBlockCopy ⟨0, 1023⟩ [], .kexRetry 591, .mcAge 4607, .arbClr (.vf 64) 0] : List Instr).all Instr.wellFormed = true := by
  decide

/-! ### Examples of the manual -/

/-- 2²⁴ + 1 − 2²⁴ in exact-wide, both orders of arrival: FIELD is 2¹⁴⁹ and the result BF16 1.0 (chapter 13, two arrival
orders). -/
theorem test_exact_sum_either_order :
    let sum := fun (l : List Nat) => l.foldl (fun a x => Accum.add (-149) a (fBF16.decode x)) {}
    sum [0x4B80, 0x3F80, 0xCB80] = { field := 2 ^ 149 } ∧ sum [0xCB80, 0x3F80, 0x4B80] = { field := 2 ^ 149 } ∧
      fBF16.result (-149) (.fin (2 ^ 149)) none = (0x3F80, .none) := by
  decide +kernel

/-- The same three in ordered mode: 2²⁴ + 1 is a tie that rounds to 2²⁴ and the sum is +0; with b last it is 1.0. -/
theorem test_ordered_sum : fp32Add (fp32Add 0x4B800000 0x3F800000) 0xCB800000 = 0 ∧
    fp32Add (fp32Add 0x4B800000 0xCB800000) 0x3F800000 = 0x3F800000 := by
  decide +kernel

/-- 9,314 pieces for 10¹³ elements with PIECE_RUNS 4,096 (chapter 18). -/
theorem test_pieces_of_a_shard : hPieces (bin 96 [(0x0C, 4, 4096), (0x10, 8, 10 ^ 13)]) = 9314 ∧
    hPieceElems (bin 96 [(0x0C, 4, 4096)]) = 1073741824 := by
  decide +kernel

/-- The state after commands, one by one. -/
def after : List Instr → State → State
  | [], s => s
  | c :: l, s => match exec c s with
    | .next t => after l t
    | _ => after l s

/-- The second step request of the example of chapter 21: with candidate +3,204 and count 1, a request of +3,199 is consistent
and the count is 2. -/
theorem test_jump_guard_counts :
    let s0 := (((up.setFlag Reg.TIM_STATUS_TRACK 0 true).setFlag Reg.TIM_STATUS_JUMP_PENDING 0 true).setCandidate 3204).setFld
      Reg.TIM_STATUS_CONSIST_COUNT 0 1
    let s := after [.timeStepRequest 3199] s0
    s.fld Reg.TIM_STATUS_CONSIST_COUNT = 2 ∧ s.candidate = 3199 := by
  decide +kernel

/-- The commit example of chapter 5: TIMEOUT_US 20,000 is refused with COMMIT_RANGE at offset 0x0140, and the live value stays. -/
theorem test_commit_refused :
    let s := after [.regWrite .host (.setup 0x200140) 20000, .regWrite .host (.setup 0x2FF014) 1, .commitGo .host .dbq 1,
      .commitCheckEnd .host .dbq false] up
    (s.port .host .dbq).result = .refused ∧ (s.port .host .dbq).errCode = 3 ∧ (s.port .host .dbq).errOff = 0x140 ∧
      s.fld Reg.DBQ_COX_WATCHDOG_TIMEOUT_US = 1000 := by
  decide +kernel

/-- The same example with 2,000: accepted, and live at the end of checking. -/
theorem test_commit_accepted :
    let s := after [.regWrite .host (.setup 0x200140) 2000, .regWrite .host (.setup 0x2FF014) 1, .commitGo .host .dbq 1,
      .commitCheckEnd .host .dbq false] up
    (s.port .host .dbq).result = .accepted ∧ s.fld Reg.DBQ_COX_WATCHDOG_TIMEOUT_US = 2000 := by
  decide +kernel

/-! ### States that meet the hypotheses of the statements -/

theorem witness_StepRunsFront : ∃ (s : State) (c : Instr) (rest : List Instr), s.pending = c :: rest :=
  ⟨{ pending := [.viewRefresh, .ppsOutFall] }, .viewRefresh, [.ppsOutFall], rfl⟩

theorem witness_StepOnEmptyQueue : (∃ s : State, s.pending = [] ∧ s.boot.porst = false) ∧
    (∃ s : State, s.pending = [] ∧ s.boot.porst = true) :=
  ⟨⟨up, by decide +kernel⟩, ⟨State.reset, by decide +kernel⟩⟩

theorem witness_StepKeepsInvariant : ∃ s t : State, s.Inv ∧ step s = .next t :=
  ⟨State.reset, State.reset.idle, ⟨⟨by decide, by decide, by decide⟩, by rfl⟩, rfl⟩

theorem witness_PowerUpRows :
    (∃ (s : State) (x : Straps), (s.boot.porst = true) ∧ (s.boot.thermTrip = false) ∧ (0 ∈ s.boot.railOrder)) ∧
    (∃ (s : State) (r : Nat), (s.boot.porst = true) ∧ (r < 8) ∧ (r ∉ s.boot.railOrder) ∧ (r = 0 ∨ 0 ∈ s.boot.railOrder)) ∧
    (∃ (s : State) (r : Nat), (s.boot.porst = true) ∧ (r ≠ 0) ∧ (0 ∉ s.boot.railOrder)) :=
  ⟨⟨cold, { pcieX8 := true, recov := 2, i3cAddr := 7, test := true }, by decide +kernel⟩,
    ⟨{ State.reset with boot := { railOrder := [0, 1] } }, 3, by decide +kernel⟩,
    ⟨State.reset, 3, by decide +kernel⟩⟩

theorem witness_StartUpStages :
    (∃ (s : State) (tok : Bytes), (s.boot.porst = false) ∧ (s.boot.stopped = false) ∧ (s.boot.thermTrip = false) ∧ (s.stage = 0) ∧ (s.flag Reg.MGT_STRAP_STATUS_TEST_REQ = false)) ∧
    (∃ (s : State), (s.boot.porst = false) ∧ (s.boot.stopped = false) ∧ (s.boot.thermTrip = false) ∧ (s.stage = 1)) ∧
    (∃ (s : State) (img : Bytes), (s.boot.porst = false) ∧ (s.boot.stopped = false) ∧ (s.boot.thermTrip = false) ∧ (s.stage = 2) ∧ (s.boot.recov = RecovWait.none)) ∧
    (∃ (s : State), (s.boot.porst = false) ∧ (s.boot.stopped = false) ∧ (s.boot.thermTrip = false) ∧ (s.stage = 3) ∧ (s.boot.railSequenceBad = false)) ∧
    (∃ (s : State), (s.boot.porst = false) ∧ (s.boot.stopped = false) ∧ (s.boot.thermTrip = false) ∧ (s.stage = 4)) ∧
    (∃ (s : State) (gib failed : List Nat), (s.boot.porst = false) ∧ (s.boot.stopped = false) ∧ (s.boot.thermTrip = false) ∧ (s.stage = 5)) ∧
    (∃ (s : State), (s.boot.porst = false) ∧ (s.boot.stopped = false) ∧ (s.boot.thermTrip = false) ∧ (s.stage = 6)) ∧
    (∃ (s : State), (s.boot.porst = false) ∧ (s.boot.stopped = false) ∧ (s.boot.thermTrip = false) ∧ (s.stage = 7)) ∧
    (∃ (s : State), (s.boot.porst = false) ∧ (s.boot.stopped = false) ∧ (s.boot.thermTrip = false) ∧ (s.stage = 8)) :=
  ⟨⟨staged 0, [], by decide +kernel⟩,
    ⟨staged 1, by decide +kernel⟩,
    ⟨staged 2, [], by decide +kernel⟩,
    ⟨staged 3, by decide +kernel⟩,
    ⟨staged 4, by decide +kernel⟩,
    ⟨staged 5, [], [], by decide +kernel⟩,
    ⟨staged 6, by decide +kernel⟩,
    ⟨staged 7, by decide +kernel⟩,
    ⟨staged 8, by decide +kernel⟩⟩

theorem witness_StartUpFailures :
    (∃ (s : State) (tok : Bytes), (s.boot.porst = false) ∧ (s.boot.stopped = false) ∧ (s.boot.thermTrip = false) ∧ (s.stage = 0)) ∧
    (∃ (s : State), (s.boot.porst = false) ∧ (s.boot.stopped = false) ∧ (s.boot.thermTrip = false) ∧ (s.stage = 3) ∧ (s.boot.railSequenceBad = true)) ∧
    (∃ (s : State) (failed : List Nat), (s.boot.porst = false) ∧ (s.boot.stopped = false) ∧ (s.boot.thermTrip = false) ∧ (s.stage = 4) ∧ (32 < ((List.range 1024).filter failed.contains).length ∨ (List.range 16).any (fun k => decide (8 < ((List.range 1024).filter fun u => failed.contains u && u / 64 == k).length)) = true)) ∧
    (∃ (s : State) (failed : List Nat), (s.boot.porst = false) ∧ (s.boot.stopped = false) ∧ (s.boot.thermTrip = false) ∧ (s.stage = 6) ∧ (((List.range 9).filter fun n => !failed.contains n).length < 8)) :=
  ⟨⟨staged 0, [], by decide +kernel⟩,
    ⟨{ staged 3 with boot := { (staged 3).boot with railSequenceBad := true } }, by decide +kernel⟩,
    ⟨staged 4, List.range 9, by decide +kernel⟩,
    ⟨staged 6, [0, 8], by decide +kernel⟩⟩

theorem witness_RecoveryRows :
    (∃ (s : State), (s.strapRecov = 0) ∧ (s.boot.tftpPeer = none) ∧ (s.boot.recov = RecovWait.pcie)) ∧
    (∃ (s : State), (s.strapRecov = 0) ∧ (s.boot.tftpPeer = none) ∧ (s.boot.recov = RecovWait.mge)) ∧
    (∃ (s : State), s.strapRecov = 1 ∨ s.strapRecov = 2 ∨ s.boot.tftpPeer.isSome = true) ∧
    (∃ (s : State) (peer : Nat), (s.boot.recov = RecovWait.mge) ∧ (s.boot.tftpPeer = none) ∧ (s.railOk 6 = true)) ∧
    (∃ (s : State) (peer : Nat), s.boot.tftpPeer.isSome = true) ∧
    (∃ (s : State), (s.boot.recov = RecovWait.mge) ∧ (s.boot.tftpPeer.isSome = true)) ∧
    (∃ (s : State) (img : Bytes), (s.boot.recov = RecovWait.mge) ∧ (s.boot.tftpPeer.isSome = true) ∧ (s.railOk 6 = true)) ∧
    (∃ (s : State) (v : View) (w : Word) (img : Bytes), (s.reaches v .mgt 0x38 = true) ∧ (holdsReg v .mgt 0x38 = true) ∧ (bitAt w.toNat 31 = true) ∧ (s.fld Reg.MGT_READINESS_FAIL_CODE = 5) ∧ (s.boot.recov = RecovWait.pcie)) ∧
    (∃ (s : State) (v : View) (w : Word), (s.reaches v .mgt 0x38 = true) ∧ (holdsReg v .mgt 0x38 = true) ∧ (bitAt w.toNat 31 = true) ∧ (s.fld Reg.MGT_READINESS_FAIL_CODE = 5) ∧ (s.boot.recov = RecovWait.pcie) ∧ (12 ≤ w.toNat % 65536) ∧ (w.toNat % 65536 ≤ 49152)) :=
  ⟨⟨{ staged 2 with boot := { (staged 2).boot with recov := RecovWait.pcie } }, by decide +kernel⟩,
    ⟨{ staged 2 with boot := { (staged 2).boot with recov := RecovWait.mge } }, by decide +kernel⟩,
    ⟨(staged 2).setFld Reg.MGT_STRAP_STATUS_RECOV 0 1, by decide +kernel⟩,
    ⟨{ staged 2 with boot := { (staged 2).boot with recov := RecovWait.mge } }, 5, by decide +kernel⟩,
    ⟨{ staged 2 with boot := { (staged 2).boot with recov := RecovWait.mge, tftpPeer := some 5 } }, 6, by decide +kernel⟩,
    ⟨{ staged 2 with boot := { (staged 2).boot with recov := RecovWait.mge, tftpPeer := some 5 } }, by decide +kernel⟩,
    ⟨{ staged 2 with boot := { (staged 2).boot with recov := RecovWait.mge, tftpPeer := some 5 } }, [], by decide +kernel⟩,
    ⟨({ staged 2 with boot := { (staged 2).boot with recov := RecovWait.pcie } }.setFld Reg.MGT_READINESS_FAIL_CODE 0 5), .host, 0x8000000C, [], by decide +kernel⟩,
    ⟨({ staged 2 with boot := { (staged 2).boot with recov := RecovWait.pcie } }.setFld Reg.MGT_READINESS_FAIL_CODE 0 5), .host, 0x8000C000, by decide +kernel⟩⟩

theorem witness_RailRows :
    (∃ (s : State) (r mv us : Nat), us ≤ 10) ∧
    (∃ (s : State) (r mv us : Nat), ((railRange r).1 ≤ mv) ∧ (mv ≤ (railRange r).2)) ∧
    (∃ (s : State) (mv us : Nat), (10 < us) ∧ (mv < 720 ∨ 780 < mv)) ∧
    (∃ (s : State) (r mv us : Nat), (10 < us) ∧ (0 < r) ∧ (r < 8) ∧ (mv < (railRange r).1 ∨ (railRange r).2 < mv) ∧ (s.railOk r = true) ∧ (s.boot.porst = true ∨ s.boot.thermTrip = true)) ∧
    (∃ (s : State) (r mv us : Nat), (10 < us) ∧ (0 < r) ∧ (r < 8) ∧ (mv < (railRange r).1 ∨ (railRange r).2 < mv) ∧ (s.railOk r = true) ∧ (s.boot.porst = false) ∧ (s.boot.thermTrip = false)) ∧
    (∃ (s : State) (r : Nat), (r ∈ s.boot.railFaults) ∧ (r ≠ 5) ∧ (s.boot.porst = false) ∧ (s.boot.thermTrip = false)) ∧
    (∃ (s : State) (failed : List Nat) (flash : Bytes), (s.power.hbmTrain = true) ∧ (s.coreOff = false) ∧ (s.boot.railSequenceBad = false)) ∧
    (∃ (s : State) (k : Nat) (failed : List Nat) (flash : Bytes), (s.coreOff = false) ∧ (k < 16) ∧ (s.unitState 2 k = unWAKING) ∧ (s.power.entering.has (2, k) = true)) :=
  ⟨⟨up, 7, 0, 10, by decide +kernel⟩,
    ⟨up, 7, 870, 11, by decide +kernel⟩,
    ⟨up, 719, 11, by decide +kernel⟩,
    ⟨cold, 7, 0, 11, by decide +kernel⟩,
    ⟨up, 4, 700, 11, by decide +kernel⟩,
    ⟨{ up with boot := { up.boot with railFaults := [2, 6] } }, 2, by decide +kernel⟩,
    ⟨{ up with power := { up.power with hbmTrain := true } }, [], [], by decide +kernel⟩,
    ⟨({ up with power := { up.power with entering := [((2, 15), unACTIVE)] } }.setUnit 2 15 unWAKING), 15, [], [], by decide +kernel⟩⟩

theorem witness_ThermalRows :
    (∃ (s : State) (i : Nat) (v : Int), (s.boot.porst = false) ∧ (s.boot.thermTrip = false) ∧ (s.mgmt.sensors = []) ∧ (i < 96) ∧ (-640 ≤ v) ∧ (v < 1712)) ∧
    (∃ (s : State) (i : Nat) (v : Int), (s.boot.porst = false) ∧ (s.boot.thermTrip = false) ∧ (s.mgmt.sensors = []) ∧ (s.power.critical = false) ∧ (i < 96) ∧ (1712 ≤ v) ∧ (v ≤ 2400)) ∧
    (∃ (s : State) (i : Nat) (v : Int), (s.boot.porst = false) ∧ (s.boot.thermTrip = false) ∧ (s.mgmt.sensors = []) ∧ (1 ≤ s.boot.tripReadings) ∧ (i < 96) ∧ (1840 ≤ v) ∧ (v ≤ 2400)) ∧
    (∃ (s : State) (g : Nat), (s.coreOff = false) ∧ (s.power.oeTrip.contains g = true) ∧ ((s.sensor 1 g).fault = false) ∧ ((s.sensor 1 g).value < 1200)) ∧
    (∃ (s : State) (i : Nat) (x : Int) (k : Nat), (s.boot.porst = false) ∧ (s.hottest 0 = some (i, x)) ∧ (s.fld Reg.PWR_TEMP_STATUS_BAND = k + 1) ∧ (x ≤ bandEdges.getD k 0 - 32)) ∧
    (∃ (s : State), (s.coreOff = false) ∧ (∀ e, s.thermalError = some e → e ≤ 0)) ∧
    (∃ (s : State) (e : Rat), (s.coreOff = false) ∧ (s.thermalError = some e) ∧ (0 < e)) ∧
    (∃ (s : State) (i : Nat) (x : Int), (s.boot.porst = false) ∧ (s.hottest 0 = some (i, x)) ∧ (s.power.critical = true) ∧ (x < 1648)) :=
  ⟨⟨up, 95, 1711, by decide +kernel⟩,
    ⟨up, 0, 1712, by decide +kernel⟩,
    ⟨{ up with boot := { up.boot with tripReadings := 1 } }, 0, 1840, by decide +kernel⟩,
    ⟨{ up.setFlag Reg.OPT_PG_CFG_ENABLE 3 true with power := { up.power with oeTrip := [3] }, mgmt := { up.mgmt with sensors := [((1, 3), { value := 1199, fault := false })] } }, 3, by decide +kernel⟩,
    ⟨({ up with mgmt := { up.mgmt with sensors := [((0, 3), { value := 688, fault := false })] } }.setFld Reg.PWR_TEMP_STATUS_BAND 0 1), 3, 688, 0, by decide +kernel⟩,
    ⟨up, by decide +kernel⟩,
    ⟨{ up with mgmt := { up.mgmt with sensors := [((1, 3), { value := 1248, fault := false })] } }, 1, by decide +kernel⟩,
    ⟨{ up with power := { up.power with critical := true }, mgmt := { up.mgmt with sensors := [((0, 3), { value := 1647, fault := false })] } }, 3, 1647, by decide +kernel⟩⟩

theorem witness_PowerLoopRows :
    (∃ (s : State) (total bow stern : Nat), s.coreOff = false) ∧
    (∃ (s : State), (s.coreOff = false) ∧ (250 ≤ s.power.overFor) ∧ (s.lowestMv < s.coreMv)) ∧
    (∃ (s : State), (s.coreOff = false) ∧ (250 ≤ s.power.overFor) ∧ (s.coreMv ≤ s.lowestMv)) ∧
    (∃ (s : State), (s.coreOff = false) ∧ (s.power.overFor < 250) ∧ (250 ≤ s.power.underFor)) ∧
    (∃ (s : State) (meas est : Nat), (4 ≤ s.stage) ∧ (s.mgmt.down = false) ∧ (s.coreOff = false) ∧ (s.upState ≠ upHANDOVER) ∧ (est ≠ 0) ∧ ((4 / 5 : Rat) ≤ meas / est) ∧ ((meas / est : Rat) ≤ 5 / 4)) ∧
    (∃ (s : State) (meas est : Nat) (fault : Bool), (4 ≤ s.stage) ∧ (s.mgmt.down = false) ∧ (s.coreOff = false) ∧ (s.upState ≠ upHANDOVER) ∧ (fault = true ∨ est = 0 ∨ (meas / est : Rat) < 4 / 5 ∨ (5 / 4 : Rat) < meas / est)) ∧
    (∃ (s : State) (kind i mtps : Nat), (s.coreOff = false) ∧ (i < paceCount kind)) ∧
    (∃ (s : State), (s.paceLow = true) ∧ (s.coreOff = false) ∧ (s.floorMv ≤ s.coreMv) ∧ ((s.fld Reg.PWR_VT_ENTRY_FLOOR_MV (s.fld Reg.PWR_TEMP_STATUS_BAND)) + 5 ≤ 900)) ∧
    (∃ (s : State), (s.paceLow = true) ∧ (s.coreOff = false) ∧ (s.floorMv ≤ s.coreMv) ∧ (900 < (s.fld Reg.PWR_VT_ENTRY_FLOOR_MV (s.fld Reg.PWR_TEMP_STATUS_BAND)) + 5) ∧ (s.flag Reg.PWR_VFLOOR_STATUS_PACE_FAIL = false)) ∧
    (∃ (s : State) (res inst blocked passed : Nat) (reqs : List ArbReq) (delayed : List Nat) (r : ArbReq), (res ≤ 8) ∧ (s.coreOff = false) ∧ (arbChoose (fun x => s.arbClass x.src) (s.power.arbPassed.getD (res, inst) 0) (fun c => s.power.arbLast.getD (res, inst, c) 65535) (reqs.filter fun x => freeFirst res reqs != some x) = some (r, passed))) :=
  ⟨⟨up, 800000, 100000, 200000, by decide +kernel⟩,
    ⟨({ up with power := { up.power with overFor := 250 } }.setFld Reg.PWR_VFLOOR_STATUS_CORE_MV 0 800), by decide +kernel⟩,
    ⟨({ up with power := { up.power with overFor := 250 } }.setFld Reg.PWR_VFLOOR_STATUS_CORE_MV 0 650), by decide +kernel⟩,
    ⟨{ up with power := { up.power with underFor := 250, cut := 3 } }, by decide +kernel⟩,
    ⟨up, 5, 4, by decide +kernel⟩,
    ⟨up, 6, 4, false, by decide +kernel⟩,
    ⟨up, 6, 8, 70000, by decide +kernel⟩,
    ⟨(up.setFld Reg.PWR_PACE_VALUE_CUR_MTPS 0 1719).setFld Reg.PWR_VFLOOR_STATUS_CORE_MV 0 1000, by decide +kernel⟩,
    ⟨((up.setFld Reg.PWR_PACE_VALUE_CUR_MTPS 0 1719).setFld Reg.PWR_VFLOOR_STATUS_CORE_MV 0 1000).setFld Reg.PWR_VT_ENTRY_FLOOR_MV 0 896, by decide +kernel⟩,
    ⟨up, 1, 0, 0, 1, [⟨.tensor, 4, .other⟩, ⟨.collective, 5, .free 3⟩, ⟨.planCatch, 3, .alloc 0⟩], [], ⟨.planCatch, 3, .alloc 0⟩, by decide +kernel⟩⟩

theorem witness_UnitRows :
    (∃ (s : State) (kind i : Nat), (kind ≤ 3) ∧ (i < unitCount kind) ∧ (s.power.forced.find (kind, i) = none) ∧ (s.unitHolder kind i = none) ∧ (s.unitState kind i = unACTIVE) ∧ (s.coreOff = false)) ∧
    (∃ (s : State) (kind i : Nat), (kind ≤ 2) ∧ (i < unitCount kind) ∧ (s.power.forced.find (kind, i) = none) ∧ (s.unitHolder kind i = none) ∧ (s.unitState kind i = unACTIVE ∨ s.unitState kind i = unNAP) ∧ (s.coreOff = false)) ∧
    (∃ (s : State) (kind i st : Nat), (s.coreOff = false) ∧ (kind ≤ 3) ∧ (s.unitState kind i = unENTERING) ∧ (s.power.entering.find (kind, i) = some st) ∧ (st ≤ 3)) ∧
    (∃ (s : State) (kind i : Nat), (s.coreOff = false) ∧ (kind ≤ 3) ∧ (s.unitState kind i = unWAKING) ∧ (s.power.entering.has (kind, i) = false)) ∧
    (∃ (s : State) (kind i : Nat), (s.coreOff = false) ∧ (kind ≤ 3) ∧ (i < unitCount kind) ∧ (s.unitState kind i = unNAP ∨ s.unitState kind i = unWATCH ∨ s.unitState kind i = unOFF)) ∧
    (∃ (s : State) (kind i : Nat), (s.coreOff = false) ∧ (kind ≤ 3) ∧ (i < unitCount kind) ∧ (s.unitState kind i = unENTERING)) ∧
    (∃ (s : State) (op : OpKey) (o : Op), (s.Ready op o) ∧ (isMgmt 0x000F o.desc = true) ∧ (o.fn = 0) ∧ (bitsOf (mParam0 o.desc) 0 3 = 3 ∨ 4 < bitsOf (mParam0 o.desc) 0 3 ∨ unitCount (bitsOf (mParam0 o.desc) 0 3) ≤ bitsOf (mParam0 o.desc) 3 8 ∨ (bitsOf (mParam0 o.desc) 0 3 = 4 ∧ bitsOf (mParam0 o.desc) 12 2 = 3))) ∧
    (∃ (s : State) (op : OpKey) (o : Op) (kind i : Nat), (s.Ready op o) ∧ (isMgmt 0x000F o.desc = true) ∧ (o.fn = 0) ∧ (kind = bitsOf (mParam0 o.desc) 0 3) ∧ (i = bitsOf (mParam0 o.desc) 3 8) ∧ (i < unitCount kind) ∧ (kind ≠ 3) ∧ (kind ≤ 4) ∧ (bitsOf (mParam0 o.desc) 12 2 = 0)) ∧
    (∃ (s : State) (op : OpKey) (o : Op) (kind i : Nat), (s.Ready op o) ∧ (isMgmt 0x000F o.desc = true) ∧ (o.fn = 0) ∧ (kind = bitsOf (mParam0 o.desc) 0 3) ∧ (i = bitsOf (mParam0 o.desc) 3 8) ∧ (i < unitCount kind) ∧ (kind ≤ 2) ∧ (bitsOf (mParam0 o.desc) 12 2 = 1)) ∧
    (∃ (s : State) (op : OpKey) (o : Op) (kind i : Nat) (goal c : Nat), (s.Ready op o) ∧ (isMgmt 0x000F o.desc = true) ∧ (o.fn = 0) ∧ (kind = bitsOf (mParam0 o.desc) 0 3) ∧ (i = bitsOf (mParam0 o.desc) 3 8) ∧ (i < unitCount kind) ∧ (kind ≤ 2) ∧ ((bitsOf (mParam0 o.desc) 12 2 = 2 ∧ goal = unNAP) ∨ (bitsOf (mParam0 o.desc) 12 2 = 3 ∧ goal = unOFF)) ∧ (s.entryCause kind i goal = some c)) ∧
    (∃ (s : State) (op : OpKey) (o : Op) (kind i : Nat) (goal : Nat), (s.Ready op o) ∧ (isMgmt 0x000F o.desc = true) ∧ (o.fn = 0) ∧ (kind = bitsOf (mParam0 o.desc) 0 3) ∧ (i = bitsOf (mParam0 o.desc) 3 8) ∧ (i < unitCount kind) ∧ (kind ≤ 2) ∧ ((bitsOf (mParam0 o.desc) 12 2 = 2 ∧ goal = unNAP) ∨ (bitsOf (mParam0 o.desc) 12 2 = 3 ∧ goal = unOFF)) ∧ (s.entryCause kind i goal = none)) ∧
    (∃ (s : State) (op : OpKey) (o : Op) (i : Nat), (s.Ready op o) ∧ (isMgmt 0x000F o.desc = true) ∧ (o.fn = 0) ∧ (bitsOf (mParam0 o.desc) 0 3 = 4) ∧ (i = bitsOf (mParam0 o.desc) 3 8) ∧ (i < 64) ∧ (s.laneOn i = true) ∧ ((bitsOf (mParam0 o.desc) 12 2 = 1 ∧ s.laneSt i = 1) ∨ (bitsOf (mParam0 o.desc) 12 2 = 2 ∧ s.entryCause 4 i unNAP = none))) ∧
    (∃ (s : State) (k : Nat) (x : Int), (s.coreOff = false) ∧ (k < 16) ∧ (s.unitState 2 k = unWATCH) ∧ (1520 ≤ x)) ∧
    (∃ (s : State) (k : Nat) (x : Int), (s.coreOff = false) ∧ (k < 16) ∧ (s.unitState 2 k = unWATCH) ∧ (x < 1520)) ∧
    (∃ (s : State) (a : Nat), (s.coreOff = false) ∧ (s.power.armed.contains a = true) ∧ (s.reached (s.alarmTime a) = true) ∧ (a < 8)) ∧
    (∃ (s : State) (a : Nat), s.coreOff = false) :=
  ⟨⟨up, 1, 255, by decide +kernel⟩,
    ⟨up, 2, 15, by decide +kernel⟩,
    ⟨({ up with power := { up.power with entering := [((0, 15), unOFF)] } }.setUnit 0 15 unENTERING), 0, 15, unOFF, by decide +kernel⟩,
    ⟨(up.setUnit 0 15 unWAKING), 0, 15, by decide +kernel⟩,
    ⟨up.setUnit 3 15 unNAP, 3, 15, by decide +kernel⟩,
    ⟨({ up with power := { up.power with entering := [((0, 15), unOFF)] } }.setUnit 0 15 unENTERING), 0, 15, by decide +kernel⟩,
    ⟨(withOp (mgmtDesc 0x000F (3))), ⟨0, 0⟩, theOp (mgmtDesc 0x000F (3)), by decide +kernel⟩,
    ⟨(withOp (mgmtDesc 0x000F (4 + 8 * 63))), ⟨0, 0⟩, theOp (mgmtDesc 0x000F (4 + 8 * 63)), 4, 63, by decide +kernel⟩,
    ⟨(withOp (mgmtDesc 0x000F (1 + 8 * 255 + 2 ^ 12))), ⟨0, 0⟩, theOp (mgmtDesc 0x000F (1 + 8 * 255 + 2 ^ 12)), 1, 255, by decide +kernel⟩,
    ⟨({ withOp (mgmtDesc 0x000F (8 * 15 + 2 * 2 ^ 12)) with power := { up.power with held := [(0, 0, 15)] } }), ⟨0, 0⟩, theOp (mgmtDesc 0x000F (8 * 15 + 2 * 2 ^ 12)), 0, 15, unNAP, 5, by decide +kernel⟩,
    ⟨(withOp (mgmtDesc 0x000F (8 * 15 + 3 * 2 ^ 12))), ⟨0, 0⟩, theOp (mgmtDesc 0x000F (8 * 15 + 3 * 2 ^ 12)), 0, 15, unOFF, by decide +kernel⟩,
    ⟨((withOp (mgmtDesc 0x000F (4 + 8 * 63 + 2 * 2 ^ 12))).setFld Reg.ELN_OCT_CFG_ENABLE 7 0x80), ⟨0, 0⟩, theOp (mgmtDesc 0x000F (4 + 8 * 63 + 2 * 2 ^ 12)), 63, by decide +kernel⟩,
    ⟨up.setUnit 2 15 unWATCH, 15, 1520, by decide +kernel⟩,
    ⟨up.setUnit 2 15 unWATCH, 15, 1519, by decide +kernel⟩,
    ⟨{ up with power := { up.power with armed := [7] } }, 7, by decide +kernel⟩,
    ⟨up, 3, by decide +kernel⟩⟩

theorem witness_RegisterWrites :
    (∃ (s : State) (v : View) (b : Blk) (off o : Nat) (w : Word) (d : RegDef), (viewLocate v off = some (b, o)) ∧ (s.reaches v b o = true) ∧ (holdsReg v b o = true) ∧ (isCommonReg o = false) ∧ (regDefAt b o = some d) ∧ (d.fields.any (fieldWritable v b d) = true)) ∧
    (∃ (s : State) (v : View) (b : Blk) (off o : Nat) (w : Word) (d : RegDef), (viewLocate v off = some (b, o)) ∧ (s.reaches v b o = true) ∧ (holdsReg v b o = true) ∧ (isCommonReg o = false) ∧ (regDefAt b o = some d) ∧ (d.fields.any (fieldWritable v b d) = false)) ∧
    (∃ (s : State) (v : View) (off : Nat) (w : Word), (off ≠ 0xE000) ∧ (∀ b o, viewLocate v off = some (b, o) → s.reaches v b o = true → holdsReg v b o = false)) ∧
    (∃ (s : State) (v : View) (b : Blk) (off : Nat) (w : Word), (viewLocate v off = some (b, 0xFF004)) ∧ (s.reaches v b 0xFF004 = true) ∧ (v = .host ∨ v = .mgmt)) ∧
    (∃ (s : State) (v : View) (b : Blk) (off : Nat) (w : Word), (viewLocate v off = some (b, 0xFF014)) ∧ (s.reaches v b 0xFF014 = true)) ∧
    (∃ (s : State) (vf : Nat) (w : Word), s.reaches (.vf vf) .hif 0 = true) ∧
    (∃ (s : State) (v : View) (page n : Nat) (w : Word), s.pageRing v page = some n) ∧
    (∃ (s : State) (v : View) (fn vec word : Nat) (w : Word), (s.msixFn v = some fn) ∧ (vec < msixVectors fn) ∧ (word < 4)) ∧
    (∃ (s : State) (v : View) (b : Blk) (off bytes : Nat) (enabled write : Bool), (goodAccess off bytes enabled write = false) ∧ (s.touchesReg v off bytes = some b)) ∧
    (∃ (s : State) (v : View) (off bytes : Nat) (enabled write : Bool), (goodAccess off bytes enabled write = false) ∧ (s.touchesReg v off bytes = none)) ∧
    (∃ (s : State) (v : View) (page off bytes : Nat) (enabled write : Bool), goodAccess off bytes enabled write = false) ∧
    (∃ (s : State) (v : View) (off bytes : Nat) (enabled write : Bool), goodAccess off bytes enabled write = false) :=
  ⟨⟨up, .host, .mgt, 0x610, 0x610, 0xFFFFFFFF, (regDefAt .mgt 0x610).get (by decide), by decide +kernel⟩,
    ⟨up, .host, .mgt, 0x20, 0x20, 0xFFFFFFFF, (regDefAt .mgt 0x20).get (by decide), by decide +kernel⟩,
    ⟨up, .host, 0x4000000, 1, by exact ⟨by decide, fun b o h => by rw [show viewLocate .host 0x4000000 = none by decide] at h; cases h⟩⟩,
    ⟨up, .host, .flt, 0x19FF004, 0xDEADBEEF, by decide +kernel⟩,
    ⟨up, .host, .flt, 0x19FF014, 3, by decide +kernel⟩,
    ⟨up, 64, 9, by decide +kernel⟩,
    ⟨withRing { kind := 1, dbRange := true, dbDisabled := true }, .host, 5, 5, 0x80000, by decide +kernel⟩,
    ⟨{ up with hif := { up.hif with msixPending := [(0, 1023)] } }, .host, 0, 1023, 3, 0, by decide +kernel⟩,
    ⟨up, .host, .mgt, 0x20, 4, false, true, by decide +kernel⟩,
    ⟨staged 1, .host, 0x22, 4, true, false, by decide +kernel⟩,
    ⟨up, .host, 3, 4, 8, true, false, by decide +kernel⟩,
    ⟨up, .host, 4, 8, true, true, by decide +kernel⟩⟩

theorem witness_CommitRows :
    (∃ (s : State) (v : View) (b : Blk) (w : Word), (s.portReached v b 0xFF010 = true) ∧ (bitAt w.toNat 0 = true) ∧ (bitAt w.toNat 1 = false) ∧ ((s.port v b).result ≠ CommitResult.checking) ∧ ((s.port v b).mask ≠ 0)) ∧
    (∃ (s : State) (v : View) (b : Blk) (w : Word), (s.portReached v b 0xFF010 = true) ∧ (bitAt w.toNat 0 = true) ∧ (bitAt w.toNat 1 = false) ∧ ((s.port v b).result ≠ CommitResult.checking) ∧ ((s.port v b).mask = 0)) ∧
    (∃ (s : State) (v : View) (b : Blk) (w : Word), (s.portReached v b 0xFF010 = true) ∧ (bitAt w.toNat 0 = true) ∧ (bitAt w.toNat 1 = false) ∧ ((s.port v b).result = CommitResult.checking)) ∧
    (∃ (s : State) (v : View) (b : Blk) (busy : Bool) (mask : Nat) (c : AMap Nat Word), ((s.port v b).result = CommitResult.checking) ∧ ((s.port v b).captured = some (mask, c))) ∧
    (∃ (s : State) (v : View) (b : Blk) (g : Nat) (c : AMap Nat Word), (s.port v b).pend.find g = some c) ∧
    (∃ (s : State) (v : View) (b : Blk) (g : Nat) (c : AMap Nat Word), ((s.port v b).pend.find g = some c) ∧ (groupBoundary b g = Boundary.unit) ∧ (b ≠ .lsc)) ∧
    (∃ (s : State) (v : View) (b : Blk) (w : Word), (s.portReached v b 0xFF010 = true) ∧ (bitAt w.toNat 0 = false) ∧ (bitAt w.toNat 1 = true) ∧ ((s.port v b).result ≠ CommitResult.checking)) ∧
    (∃ (s : State) (v : View) (b : Blk) (w : Word), s.portReached v b 0xFF024 = true) :=
  ⟨⟨up.onPort .host .pwr fun p => { p with mask := 1 }, .host, .pwr, 1, by decide +kernel⟩,
    ⟨up, .host, .pwr, 1, by decide +kernel⟩,
    ⟨up.onPort .host .pwr fun p => { p with result := CommitResult.checking }, .host, .pwr, 1, by decide +kernel⟩,
    ⟨up.onPort .host .swc fun p => { p with result := CommitResult.checking, captured := some (2, []) }, .host, .swc, true, 2, [], by decide +kernel⟩,
    ⟨up.onPort .host .swc fun p => { p with pend := [(1, [])] }, .host, .swc, 1, [], by decide +kernel⟩,
    ⟨up.onPort .host .swc fun p => { p with pend := [(1, [])] }, .host, .swc, 1, [], by decide +kernel⟩,
    ⟨(up.onPort .host .pwr fun p => { p with mask := 1 }).setShadow .host .pwr 0 5, .host, .pwr, 2, by decide +kernel⟩,
    ⟨up.onPort .host .tim fun p => { p with errSize := true, errCount := 3 }, .host, .tim, 1, by decide +kernel⟩⟩

theorem witness_DoorbellRows :
    (∃ (s : State) (v : View) (page n : Nat) (w : Word), (s.coreOff = false) ∧ (s.pageRing v page = some n) ∧ ((s.ring n).enabled = true) ∧ (isSubmission (s.ring n).kind = true) ∧ (w.toNat % 65536 < s.ringSize n) ∧ (w.toNat % 65536 ≠ (s.ring n).host)) ∧
    (∃ (s : State) (v : View) (page n : Nat) (w : Word), (s.coreOff = false) ∧ (s.pageRing v page = some n) ∧ ((s.ring n).enabled = true) ∧ ((s.ring n).kind ≠ kindNQ) ∧ (w.toNat % 65536 < s.ringSize n) ∧ (w.toNat % 65536 = (s.ring n).host)) ∧
    (∃ (s : State) (v : View) (page n : Nat) (w : Word), (s.coreOff = false) ∧ (s.pageRing v page = some n) ∧ ((s.ring n).enabled = true) ∧ ((s.ring n).kind = kindCQ ∨ (s.ring n).kind = kindEVM) ∧ (w.toNat % 65536 < s.ringSize n)) ∧
    (∃ (s : State) (v : View) (page n : Nat) (w : Word), (s.coreOff = false) ∧ (s.pageRing v page = some n) ∧ ((s.ring n).enabled = true) ∧ ((s.ring n).kind ≠ kindNQ) ∧ (s.ringSize n ≤ w.toNat % 65536)) ∧
    (∃ (s : State) (v : View) (page n : Nat) (w : Word), (s.coreOff = false) ∧ (s.pageRing v page = some n) ∧ ((s.ring n).enabled = false)) ∧
    (∃ (s : State) (fn : Nat), s.coreOff = false) ∧
    (∃ (s : State) (fn : Nat), s.coreOff = false) ∧
    (∃ (s : State) (vf : Nat), (s.coreOff = false) ∧ (vf ≠ 0) ∧ (vf ∈ s.hif.vfs)) ∧
    (∃ (s : State) (vf : Nat), (s.coreOff = false) ∧ (vf ≠ 0) ∧ (vf ∈ s.hif.vfs) ∧ (s.col.ops = []) ∧ (s.outer.shards = []) ∧ (s.tpt.parked = [])) ∧
    (∃ (s : State) (n : Nat), s.coreOff = false) ∧
    (∃ (s : State) (stream k : Nat), (s.coreOff = false) ∧ (stream ≤ 4)) :=
  ⟨⟨withRing { enabled := true, kind := 1 }, .host, 5, 5, 63, by decide +kernel⟩,
    ⟨withRing { enabled := true, kind := 1 }, .host, 5, 5, 0, by decide +kernel⟩,
    ⟨withRing { enabled := true, kind := 8 }, .host, 5, 5, 63, by decide +kernel⟩,
    ⟨withRing { enabled := true, kind := 1 }, .host, 5, 5, 64, by decide +kernel⟩,
    ⟨withRing { kind := 1 }, .host, 5, 5, 0, by decide +kernel⟩,
    ⟨up, 64, by decide +kernel⟩,
    ⟨{ up with hif := { up.hif with d3hot := [2] } }, 2, by decide +kernel⟩,
    ⟨{ up with hif := { up.hif with vfs := [1, 2] } }, 2, by decide +kernel⟩,
    ⟨{ up with hif := { up.hif with vfs := [1, 2] } }, 2, by decide +kernel⟩,
    ⟨up, 65, by decide +kernel⟩,
    ⟨up, 4, 1, by decide +kernel⟩⟩

theorem witness_RingRows :
    (∃ (s : State) (qs : Nat) (ecc : Ecc) (reads : List (Option Bytes)) (x : IntakeWord), (s.coreOff = false) ∧ ((s.servingCox qs).isSome = true) ∧ (s.qsHeld qs = false) ∧ (bestWord (if (s.intake qs).drain.isEmpty then (s.intake qs).fill else (s.intake qs).drain) = some x)) ∧
    (∃ (s : State) (qs k : Nat) (reads : List (Option Bytes)) (x : IntakeWord), (s.coreOff = false) ∧ ((s.servingCox qs).isSome = true) ∧ (s.qsHeld qs = false) ∧ (bestWord (if (s.intake qs).drain.isEmpty then (s.intake qs).fill else (s.intake qs).drain) = some x) ∧ (s.ringHeld x.ring = false) ∧ (s.hasWork x.ring = true) ∧ ((s.ring x.ring).dev < (s.ringSize x.ring)) ∧ ((s.ring x.ring).host < (s.ringSize x.ring)) ∧ (k = min 32 (ringUsed (s.ringSize x.ring) (s.ring x.ring).dev (s.ring x.ring).host)) ∧ (k ≤ s.opTableRoom) ∧ (k ≤ reads.length) ∧ (reads.all Option.isSome = true)) ∧
    (∃ (s : State) (qs : Nat) (ecc : Ecc) (reads : List (Option Bytes)), (s.coreOff = false) ∧ ((s.servingCox qs).isSome = true) ∧ (s.qsHeld qs = false) ∧ ((s.intake qs).drain = []) ∧ ((s.intake qs).fill = []) ∧ (qs < 8)) ∧
    (∃ (s : State) (n slot : Nat) (rest : List Nat) (o : Op) (c : Completion) (ok : Bool) (d : Option Bytes), (s.coreOff = false) ∧ ((s.ring n).kind ≠ kindCQ) ∧ ((s.ring n).abortFirst = false) ∧ ((s.ring n).taken = slot :: rest) ∧ (s.op? ⟨n, slot⟩ = some o) ∧ (o.phase = .done c) ∧ (s.ringFn n ∉ s.hif.d3hot) ∧ ((s.ring n).again = []) ∧ (dSilent o.desc = true) ∧ (c.status = stOK)) ∧
    (∃ (s : State) (n q slot : Nat) (rest : List Nat) (o : Op) (c : Completion) (d : Option Bytes), (s.coreOff = false) ∧ ((s.ring n).kind ≠ kindCQ) ∧ ((s.ring n).abortFirst = false) ∧ ((s.ring n).taken = slot :: rest) ∧ (s.op? ⟨n, slot⟩ = some o) ∧ (o.phase = .done c) ∧ (s.ringFn n ∉ s.hif.d3hot) ∧ ((s.ring n).again = []) ∧ ((dSilent o.desc && c.status == stOK) = false) ∧ (s.cqOf n = q) ∧ ((s.ring q).enabled = true) ∧ ((s.ring q).kind = kindCQ) ∧ ((s.ring q).fault = false) ∧ (s.ringFn q ∉ s.hif.d3hot) ∧ (((s.ring q).dev + 1) % s.ringSize q ≠ (s.ring q).host)) ∧
    (∃ (s : State) (n q slot : Nat) (rest : List Nat) (o : Op) (c : Completion) (ok : Bool) (d : Option Bytes), (s.coreOff = false) ∧ ((s.ring n).kind ≠ kindCQ) ∧ ((s.ring n).abortFirst = false) ∧ ((s.ring n).taken = slot :: rest) ∧ (s.op? ⟨n, slot⟩ = some o) ∧ (o.phase = .done c) ∧ (s.ringFn n ∉ s.hif.d3hot) ∧ ((dSilent o.desc && c.status == stOK) = false) ∧ (s.cqOf n = q) ∧ ((s.ring q).enabled = true) ∧ ((s.ring q).kind = kindCQ) ∧ ((s.ring q).fault = false) ∧ (s.ringFn q ∉ s.hif.d3hot) ∧ (((s.ring q).dev + 1) % s.ringSize q = (s.ring q).host)) ∧
    (∃ (s : State) (n q slot : Nat) (rest : List Nat) (o : Op) (c : Completion) (d : Option Bytes), (s.coreOff = false) ∧ ((s.ring n).kind ≠ kindCQ) ∧ ((s.ring n).abortFirst = false) ∧ ((s.ring n).taken = slot :: rest) ∧ (s.op? ⟨n, slot⟩ = some o) ∧ (o.phase = .done c) ∧ (s.ringFn n ∉ s.hif.d3hot) ∧ ((s.ring n).again = []) ∧ ((dSilent o.desc && c.status == stOK) = false) ∧ (s.cqOf n = q) ∧ ((s.ring q).enabled = true) ∧ ((s.ring q).kind = kindCQ) ∧ ((s.ring q).fault = false) ∧ (s.ringFn q ∉ s.hif.d3hot) ∧ (((s.ring q).dev + 1) % s.ringSize q ≠ (s.ring q).host)) ∧
    (∃ (s : State) (n q slot m : Nat) (rest : List (Nat × Nat)) (d : Bytes), (s.coreOff = false) ∧ ((s.ring n).kind ≠ kindCQ) ∧ ((s.ring n).abortFirst = true) ∧ ((s.ring n).aborted = (slot, m) :: rest) ∧ (s.qsHeld (queueSet n) = false) ∧ (s.ringFn n ∉ s.hif.d3hot) ∧ (s.cqOf n = q) ∧ ((s.ring q).enabled = true) ∧ ((s.ring q).kind = kindCQ) ∧ ((s.ring q).fault = false) ∧ (s.ringFn q ∉ s.hif.d3hot) ∧ (((s.ring q).dev + 1) % s.ringSize q ≠ (s.ring q).host)) ∧
    (∃ (s : State) (q : Nat) (e : Owed) (rest : List Owed) (d : Option Bytes), (s.coreOff = false) ∧ ((s.ring q).owed = e :: rest) ∧ ((s.ring q).enabled = true) ∧ ((s.ring q).kind = kindCQ) ∧ ((s.ring q).fault = false) ∧ (s.ringFn q ∉ s.hif.d3hot) ∧ (((s.ring q).dev + 1) % s.ringSize q ≠ (s.ring q).host)) ∧
    (∃ (s : State) (v : View) (page n : Nat) (ecc : Ecc) (e : Notif), (s.coreOff = false) ∧ (s.pageRing v page = some n) ∧ ((s.ring n).kind = kindNQ) ∧ (bestNotif (if (s.ring n).nqDrain.isEmpty then (s.ring n).nqFill else (s.ring n).nqDrain) = some e) ∧ (ecc ≠ .lost)) ∧
    (∃ (s : State) (v : View) (page n : Nat) (e e1 : Notif), (s.coreOff = false) ∧ (s.pageRing v page = some n) ∧ ((s.ring n).kind = kindNQ) ∧ (bestNotif (if (s.ring n).nqDrain.isEmpty then (s.ring n).nqFill else (s.ring n).nqDrain) = some e) ∧ (e1 = ⟨Ev.NQ_WORD_LOST, 3, 1, s.localRing n, e.seq, 0⟩)) ∧
    (∃ (s : State) (v : View) (page n : Nat) (ecc : Ecc), (s.coreOff = false) ∧ (s.pageRing v page = some n) ∧ ((s.ring n).kind = kindNQ) ∧ ((s.ring n).nqDrain = []) ∧ ((s.ring n).nqFill = [])) ∧
    (∃ (s : State) (v : View) (page n : Nat) (w : Word), (s.coreOff = false) ∧ (s.pageRing v page = some n) ∧ ((s.ring n).kind = kindNQ) ∧ (bitAt w.toNat 13 = true)) ∧
    (∃ (s : State) (n k : Nat) (r : EvRecord), (s.coreOff = false) ∧ (s.evmRing = some n) ∧ ((s.evr.ring.find? fun r => decide (s.evr.mirrorSeq ≤ r.seq)) = some r) ∧ (k = (r.len + 63) / 64) ∧ (k ≤ s.ringSize n - 1 - ringUsed (s.ringSize n) (s.ring n).host (s.ring n).dev) ∧ (0 ∉ s.hif.d3hot)) ∧
    (∃ (s : State), s.boot.porst = false) :=
  ⟨⟨(withOp []).setIntake 0 { drain := [⟨8, 1⟩, ⟨16, 0⟩] }, 0, .clean, [], ⟨16, 0⟩, by decide +kernel⟩,
    ⟨((withOp []).setIntake 0 { drain := [⟨8, 1⟩] }).setRing 8 { kind := 1, enabled := true, dev := 63, host := 2 } |>.setFld Reg.HIF_RING_CFG_SIZE 8 64, 0, 3, [some [], some [], some []], ⟨8, 1⟩, by decide +kernel⟩,
    ⟨withOp [], 0, .clean, [], by decide +kernel⟩,
    ⟨{ up with hif := { up.hif with rings := [(0, { kind := 5, enabled := true, taken := [32767, 0] })], ops := [(⟨0, 32767⟩, { key := ⟨0, 32767⟩, fn := 0, desc := desc [(2, 2, 4)], phase := .done { status := 0 } })] } }.setFld Reg.HIF_RING_CFG_SIZE 0 32768, 0, 32767, [0], { key := ⟨0, 32767⟩, fn := 0, desc := desc [(2, 2, 4)], phase := .done { status := 0 } }, { status := 0 }, true, none, by decide +kernel⟩,
    ⟨({ up with hif := { up.hif with rings := [(0, { kind := 5, enabled := true, taken := [3] }), (6, { kind := 8, enabled := true })], ops := [(⟨0, 3⟩, { key := ⟨0, 3⟩, fn := 0, desc := desc [(2, 2, 2)], phase := .done { status := 5 } })] } }.setFld Reg.HIF_RING_LINK_CQ 0 6).setFld Reg.HIF_RING_CFG_SIZE 6 2, 0, 6, 3, [], { key := ⟨0, 3⟩, fn := 0, desc := desc [(2, 2, 2)], phase := .done { status := 5 } }, { status := 5 }, none, by decide +kernel⟩,
    ⟨({ up with hif := { up.hif with rings := [(0, { kind := 5, enabled := true, taken := [3] }), (6, { kind := 8, enabled := true, host := 1 })], ops := [(⟨0, 3⟩, { key := ⟨0, 3⟩, fn := 0, desc := desc [(2, 2, 2)], phase := .done { status := 5 } })] } }.setFld Reg.HIF_RING_LINK_CQ 0 6).setFld Reg.HIF_RING_CFG_SIZE 6 2, 0, 6, 3, [], { key := ⟨0, 3⟩, fn := 0, desc := desc [(2, 2, 2)], phase := .done { status := 5 } }, { status := 5 }, true, none, by decide +kernel⟩,
    ⟨({ up with hif := { up.hif with rings := [(0, { kind := 5, enabled := true, taken := [3] }), (6, { kind := 8, enabled := true })], ops := [(⟨0, 3⟩, { key := ⟨0, 3⟩, fn := 0, desc := desc [(2, 2, 2)], phase := .done { status := 5 } })] } }.setFld Reg.HIF_RING_LINK_CQ 0 6).setFld Reg.HIF_RING_CFG_SIZE 6 2, 0, 6, 3, [], { key := ⟨0, 3⟩, fn := 0, desc := desc [(2, 2, 2)], phase := .done { status := 5 } }, { status := 5 }, none, by decide +kernel⟩,
    ⟨({ up with hif := { up.hif with rings := [(0, { kind := 1, aborted := [(4, 0), (5, 0)] }), (6, { kind := 8, enabled := true })], ops := [] } }.setFld Reg.HIF_RING_LINK_CQ 0 6).setFld Reg.HIF_RING_CFG_SIZE 6 2, 0, 6, 4, 0, [(5, 0)], desc [(4, 4, 9)], by decide +kernel⟩,
    ⟨(withRing { kind := 8, enabled := true, owed := [{ comp := { status := 0 }, ring := 0, slot := 1, irq := false }] }), 5, { comp := { status := 0 }, ring := 0, slot := 1, irq := false }, [], none, by decide +kernel⟩,
    ⟨withRing { kind := 9, enabled := true, nqDrain := [⟨1, 1, 0, 0, 0, 7⟩, ⟨2, 3, 0, 0, 1, 9⟩] }, .host, 5, 5, .clean, ⟨2, 3, 0, 0, 1, 9⟩, by decide +kernel⟩,
    ⟨withRing { kind := 9, enabled := true, nqFill := [⟨1, 1, 0, 0, 0, 7⟩, ⟨2, 3, 0, 0, 1, 9⟩] }, .host, 5, 5, ⟨2, 3, 0, 0, 1, 9⟩, ⟨0xFFFF, 3, 1, 5, 1, 0⟩, by decide +kernel⟩,
    ⟨withRing { kind := 9, enabled := true }, .host, 5, 5, .clean, by decide +kernel⟩,
    ⟨withRing { kind := 9, nqDropped := 3 }, .host, 5, 5, 0x2000, by decide +kernel⟩,
    ⟨{ withRing { kind := 10, enabled := true } with evr := { up.evr with ring := [{ code := 1, severity := 0, blk := 0, instance_ := 0, seq := 1, sec := 0, ns := 0, summary := true }] } }, 5, 1, { code := 1, severity := 0, blk := 0, instance_ := 0, seq := 1, sec := 0, ns := 0, summary := true }, by decide +kernel⟩,
    ⟨up, by decide +kernel⟩⟩

theorem witness_CounterClears :
    (∃ (s : State) (v : View) (w : Word), (s.Triggers v .pwr 0x180 w) ∧ (w.toNat % 256 < paceCount (w.toNat / 256 % 16))) ∧
    (∃ (s : State) (v : View) (w : Word), s.Triggers v .mgt 0x300 w) ∧
    (∃ (s : State) (v : View) (w : Word), (s.Triggers v .sett 0x100 w) ∧ (w.toNat % 256 < 154)) ∧
    (∃ (s : State) (v : View) (w : Word), (s.Triggers v .swc 0x400 w) ∧ (w.toNat % 1024 < 576)) ∧
    (∃ (s : State) (v : View) (w : Word), (s.Triggers v .tms 0x310 w) ∧ (w.toNat % 8192 < 4608)) ∧
    (∃ (s : State) (v : View) (w : Word), (s.Triggers v .opt 0x100 w) ∧ (w.toNat / 64 % 32 < 17)) ∧
    (∃ (s : State) (v : View) (w : Word), s.Triggers v .eln 0x100 w) ∧
    (∃ (s : State) (v : View) (w : Word), s.Triggers v .slf 0x300 w) ∧
    (∃ (s : State) (v : View) (w : Word), s.Triggers v .pln 0x100 w) ∧
    (∃ (s : State) (v : View) (w : Word), s.Triggers v .pwr 0x200 w) :=
  ⟨⟨up, .host, 0x8000033F, by decide +kernel⟩,
    ⟨up, .host, 0x80000123, by decide +kernel⟩,
    ⟨up, .host, 0x80000099, by decide +kernel⟩,
    ⟨up, .host, 0x8000023F, by decide +kernel⟩,
    ⟨up, .host, 0x800011FF, by decide +kernel⟩,
    ⟨up, .host, 0x8000043F, by decide +kernel⟩,
    ⟨up, .host, 0x8000003F, by decide +kernel⟩,
    ⟨up, .host, 0x8000000F, by decide +kernel⟩,
    ⟨up, .host, 0x80000003, by decide +kernel⟩,
    ⟨up, .host, 0x80000123, by decide +kernel⟩⟩

theorem witness_SelectedCounterClears :
    (∃ (s : State) (v : View) (w : Word), (s.Triggers v .tpt 0x400 w) ∧ (w.toNat / 1024 % 32 < 15) ∧ (w.toNat / 1024 % 32 < 10 ∨ w.toNat % 1024 < 576)) ∧
    (∃ (s : State) (v : View) (w : Word), s.Triggers v .col 0x300 w) ∧
    (∃ (s : State) (v : View) (w : Word), s.Triggers v .col 0x400 w) ∧
    (∃ (s : State) (v : View) (w : Word), s.Triggers v .ben 0x800 w) ∧
    (∃ (s : State) (v : View) (w : Word), s.Triggers v .tfb 0x200 w) ∧
    (∃ (s : State) (v : View) (w : Word), s.Triggers v .ash 0x200 w) ∧
    (∃ (s : State) (v : View) (w : Word), s.Triggers v .out 0x300 w) ∧
    (∃ (s : State) (v : View) (w : Word), s.Triggers v .flt 0x200 w) ∧
    (∃ (s : State) (v : View) (w : Word), (s.Triggers v .lsc 0x100 w) ∧ (w.toNat % 1024 < 592) ∧ (w.toNat / 1024 % 16 < 6)) :=
  ⟨⟨up, .host, 0x80002A3F, by decide +kernel⟩,
    ⟨up, .host, 0x80000005, by decide +kernel⟩,
    ⟨up, .host, 0x8000000F, by decide +kernel⟩,
    ⟨up, .host, 0x8000000F, by decide +kernel⟩,
    ⟨up, .host, 0x8000000F, by decide +kernel⟩,
    ⟨up, .host, 0x8000000F, by decide +kernel⟩,
    ⟨up, .host, 0x8000000F, by decide +kernel⟩,
    ⟨up, .host, 0x800000FF, by decide +kernel⟩,
    ⟨up, .host, 0x8000164F, by decide +kernel⟩⟩

theorem witness_CoxRows :
    (∃ (s : State), s.coreOff = false) ∧
    (∃ (s : State) (n cause b : Nat), (s.coreOff = false) ∧ (s.mayHang n cause = true) ∧ (s.coxRole n = roleACTIVE) ∧ (s.standby = some b)) ∧
    (∃ (s : State) (n : Nat), (s.coreOff = false) ∧ (s.mayHang n 1 = true) ∧ (s.coxRole n = roleSTANDBY)) ∧
    (∃ (s : State) (n cause : Nat), s.mayHang n cause = false) ∧
    (∃ (s : State) (n cause : Nat), (s.coreOff = false) ∧ (s.mayHang n cause = true) ∧ (s.coxRole n = roleACTIVE) ∧ (s.coxSet n < 8) ∧ (s.standby = none)) ∧
    (∃ (s : State) (n : Nat) (r : Reload), (s.coreOff = false) ∧ (n < 9) ∧ (s.cox.reloads.find n = some r) ∧ (r.rotation = false) ∧ ((List.range 8).find? s.qsHeld = none) ∧ (s.upState ≠ upROTATION) ∧ (s.upState ≠ upWAIT)) ∧
    (∃ (s : State) (n qs : Nat) (r : Reload), (s.coreOff = false) ∧ (n < 9) ∧ (s.cox.reloads.find n = some r) ∧ (r.rotation = false) ∧ ((List.range 8).find? s.qsHeld = some qs) ∧ (s.upState ≠ upROTATION) ∧ (s.upState ≠ upWAIT)) ∧
    (∃ (s : State) (n : Nat) (r : Reload), (s.coreOff = false) ∧ (n < 9) ∧ (s.cox.reloads.find n = some r) ∧ (r.rotation = true) ∧ (∀ p ∈ s.cox.reloads, p.1 ≠ n → p.2.rotation = false) ∧ ((List.range 8).find? s.qsHeld = none) ∧ (s.upState = upROTATION) ∧ (s.boot.rotation = [])) ∧
    (∃ (s : State) (n : Nat) (r : Reload), (s.coreOff = false) ∧ (s.cox.reloads.find n = some r) ∧ (r.failed < 2)) ∧
    (∃ (s : State) (n : Nat) (r : Reload), (s.coreOff = false) ∧ (s.cox.reloads.find n = some r) ∧ (r.failed < 2)) ∧
    (∃ (s : State) (n : Nat) (r : Reload), (s.coreOff = false) ∧ (n < 9) ∧ (s.cox.reloads.find n = some r) ∧ (2 ≤ r.failed) ∧ (r.rotation = true)) ∧
    (∃ (s : State) (n : Nat) (r : Reload), (s.coreOff = false) ∧ (n < 9) ∧ (s.cox.reloads.find n = some r) ∧ (2 ≤ r.failed) ∧ (r.rotation = false) ∧ (s.upState ≠ upROTATION) ∧ (s.upState ≠ upWAIT)) ∧
    (∃ (s : State) (op : OpKey) (o : Op), (s.Ready op o) ∧ (isMgmt 0x6 o.desc = true) ∧ (o.fn = 0) ∧ (9 ≤ mParam0 o.desc ∨ (s.coxRole (mParam0 o.desc) = roleACTIVE ∧ s.standby = none))) ∧
    (∃ (s : State) (op : OpKey) (o : Op), (s.Ready op o) ∧ (isMgmt 0x6 o.desc = true) ∧ (o.fn = 0) ∧ (mParam0 o.desc < 9) ∧ (s.coxRole (mParam0 o.desc) = roleSTANDBY ∨ s.coxRole (mParam0 o.desc) = roleFAILED)) ∧
    (∃ (s : State) (op : OpKey) (o : Op) (b : Nat), (s.Ready op o) ∧ (isMgmt 0x6 o.desc = true) ∧ (o.fn = 0) ∧ (mParam0 o.desc < 9) ∧ (s.coxRole (mParam0 o.desc) = roleACTIVE) ∧ (s.standby = some b)) ∧
    (∃ (s : State) (op : OpKey) (o : Op) (r : Reload), (s.Ready op o) ∧ (isMgmt 0x6 o.desc = true) ∧ (o.fn = 0) ∧ (mParam0 o.desc < 9) ∧ (s.coxRole (mParam0 o.desc) = roleLOADING) ∧ (s.cox.reloads.find (mParam0 o.desc) = some r)) :=
  ⟨⟨up.setCox 8 roleACTIVE 7, by decide +kernel⟩,
    ⟨{ (up.setCox 8 roleACTIVE 7).setCox 0 roleSTANDBY 15 with cox := { checking := [8] } }, 8, 1, 0, by decide +kernel⟩,
    ⟨{ up.setCox 8 roleSTANDBY 15 with cox := { checking := [8] } }, 8, by decide +kernel⟩,
    ⟨up.setCox 8 roleACTIVE 7, 8, 0, by decide +kernel⟩,
    ⟨(up.setCox 8 roleACTIVE 7).setIntake 7 { fill := [⟨7, 0⟩] }, 8, 0, by decide +kernel⟩,
    ⟨up.startReload 8 [] false, 8, { failed := 0, waiters := [], rotation := false }, by decide +kernel⟩,
    ⟨(up.startReload 8 [] false).setFlag (Reg.DBQ_INTAKE_STATUS_HELD.nth 7) 0 true, 8, 7, { failed := 0, waiters := [], rotation := false }, by decide +kernel⟩,
    ⟨(up.startReload 8 [] true).setFld Reg.MGT_UPDATE_STATUS_STATE 0 3, 8, { failed := 0, waiters := [], rotation := true }, by decide +kernel⟩,
    ⟨up.startReload 8 [] false, 8, { failed := 0, waiters := [], rotation := false }, by decide +kernel⟩,
    ⟨up.startReload 8 [] false, 8, { failed := 0, waiters := [], rotation := false }, by decide +kernel⟩,
    ⟨{ up with cox := { up.cox with reloads := [(0, { failed := 2, waiters := [], rotation := true })] } }, 0, { failed := 2, waiters := [], rotation := true }, by decide +kernel⟩,
    ⟨{ up with cox := { up.cox with reloads := [(0, { failed := 2, waiters := [], rotation := false })] } }, 0, { failed := 2, waiters := [], rotation := false }, by decide +kernel⟩,
    ⟨withOp (mgmtDesc 0x6 9), ⟨0, 0⟩, theOp (mgmtDesc 0x6 9), by decide +kernel⟩,
    ⟨(withOp (mgmtDesc 0x6 8)).setCox 8 roleSTANDBY 15, ⟨0, 0⟩, theOp (mgmtDesc 0x6 8), by decide +kernel⟩,
    ⟨(withOp (mgmtDesc 0x6 0)).setCox 8 roleSTANDBY 15, ⟨0, 0⟩, theOp (mgmtDesc 0x6 0), 8, by decide +kernel⟩,
    ⟨(withOp (mgmtDesc 0x6 8)).startReload 8 [] false, ⟨0, 0⟩, theOp (mgmtDesc 0x6 8), { failed := 0, waiters := [], rotation := false }, by decide +kernel⟩⟩

theorem witness_UpdateRows :
    (∃ (s : State) (op : OpKey) (o : Op), (s.Ready op o) ∧ (isMgmt 0x1 o.desc = true) ∧ (o.fn = 0) ∧ (s.upState = upIDLE ∨ s.upState = upDONE ∨ s.upState = upHALTED) ∧ (0 < mLen o.desc) ∧ (mLen o.desc ≤ 48 * 2 ^ 20)) ∧
    (∃ (s : State) (op : OpKey) (o : Op), (s.Ready op o) ∧ (isMgmt 0x1 o.desc = true) ∧ (o.fn = 0) ∧ (s.upState ≠ upIDLE) ∧ (s.upState ≠ upDONE) ∧ (s.upState ≠ upHALTED)) ∧
    (∃ (s : State) (op : OpKey) (o : Op), (s.Ready op o) ∧ (isMgmt 0x1 o.desc = true) ∧ (o.fn = 0) ∧ (s.upState = upIDLE ∨ s.upState = upDONE ∨ s.upState = upHALTED) ∧ (mLen o.desc = 0 ∨ 48 * 2 ^ 20 < mLen o.desc)) ∧
    (∃ (s : State), (s.coreOff = false) ∧ (s.upState = upSTAGING)) ∧
    (∃ (s : State) (b : Bytes), (s.coreOff = false) ∧ (s.upState = upSTAGING)) ∧
    (∃ (s : State), (s.boot.porst = false) ∧ (s.upState = upHANDOVER)) ∧
    (∃ (s : State), (s.boot.porst = false) ∧ (s.upState = upHANDOVER)) ∧
    (∃ (s : State) (r : FlashResult), (s.coreOff = false) ∧ (s.boot.flashActive = true) ∧ (s.railOk 1 = true) ∧ (r = FlashResult.written ∨ r = FlashResult.skipped) ∧ (s.boot.flashBlock + 1 < s.imageBlocks)) ∧
    (∃ (s : State) (r : FlashResult), (s.coreOff = false) ∧ (s.boot.flashActive = true) ∧ (s.railOk 1 = true) ∧ (r = FlashResult.written ∨ r = FlashResult.skipped) ∧ (s.imageBlocks ≤ s.boot.flashBlock + 1)) ∧
    (∃ (s : State), (s.coreOff = false) ∧ (s.boot.flashActive = true) ∧ (s.railOk 1 = true)) ∧
    (∃ (s : State), (s.coreOff = false) ∧ (s.boot.flashActive = true) ∧ (s.railOk 1 = true) ∧ (s.boot.flashTries < 2)) ∧
    (∃ (s : State), (s.coreOff = false) ∧ (s.boot.flashActive = true) ∧ (s.railOk 1 = true) ∧ (2 ≤ s.boot.flashTries)) :=
  ⟨⟨withOp (desc [(0, 1, 5), (0x10, 2, 1), (0x20, 4, 48 * 2 ^ 20)]), ⟨0, 0⟩, theOp (desc [(0, 1, 5), (0x10, 2, 1), (0x20, 4, 48 * 2 ^ 20)]), by decide +kernel⟩,
    ⟨(withOp (mgmtDesc 0x1 0)).setFld Reg.MGT_UPDATE_STATUS_STATE 0 6, ⟨0, 0⟩, theOp (mgmtDesc 0x1 0), by decide +kernel⟩,
    ⟨withOp (mgmtDesc 0x1 0), ⟨0, 0⟩, theOp (mgmtDesc 0x1 0), by decide +kernel⟩,
    ⟨up.setFld Reg.MGT_UPDATE_STATUS_STATE 0 1, by decide +kernel⟩,
    ⟨up.setFld Reg.MGT_UPDATE_STATUS_STATE 0 1, [], by decide +kernel⟩,
    ⟨up.setFld Reg.MGT_UPDATE_STATUS_STATE 0 5, by decide +kernel⟩,
    ⟨up.setFld Reg.MGT_UPDATE_STATUS_STATE 0 5, by decide +kernel⟩,
    ⟨{ (up.setFld Reg.MGT_UPDATE_STATUS_STATE 0 6) with boot := { up.boot with flashActive := true, running := { len := 65537 } } }, .skipped, by decide +kernel⟩,
    ⟨{ (up.setFld Reg.MGT_UPDATE_STATUS_STATE 0 6) with boot := { up.boot with flashActive := true, journalOpen := true, running := { len := 65536 } } }, .written, by decide +kernel⟩,
    ⟨{ (up.setFld Reg.MGT_UPDATE_STATUS_STATE 0 6) with boot := { up.boot with flashActive := true, flashBlock := 3 } }, by decide +kernel⟩,
    ⟨{ (up.setFld Reg.MGT_UPDATE_STATUS_STATE 0 6) with boot := { up.boot with flashActive := true } }, by decide +kernel⟩,
    ⟨{ (up.setFld Reg.MGT_UPDATE_STATUS_STATE 0 6) with boot := { up.boot with flashActive := true, flashTries := 2, journalOpen := true } }, by decide +kernel⟩⟩

theorem witness_UpdateRequests :
    (∃ (s : State) (op : OpKey) (o : Op), (s.Ready op o) ∧ (isMgmt 0x2 o.desc = true) ∧ (o.fn = 0) ∧ (s.upState = upSTAGING ∨ s.upState = upVERIFIED) ∧ (s.boot.updateOp ≠ some op)) ∧
    (∃ (s : State) (op : OpKey) (o : Op), (s.Ready op o) ∧ (isMgmt 0x2 o.desc = true) ∧ (o.fn = 0) ∧ (s.upState ≠ upSTAGING) ∧ (s.upState ≠ upVERIFIED)) ∧
    (∃ (s : State) (op : OpKey) (o : Op), (s.Ready op o) ∧ (isMgmt 0x3 o.desc = true) ∧ (o.fn = 0)) ∧
    (∃ (s : State) (op : OpKey) (o : Op), (s.Ready op o) ∧ (isMgmt 0x4 o.desc = true) ∧ (o.fn = 0) ∧ (s.boot.flashActive = false) ∧ (s.upState = upIDLE ∨ s.upState = upDONE ∨ s.upState = upHALTED) ∧ (s.boot.journalOpen = true)) ∧
    (∃ (s : State) (op : OpKey) (o : Op), (s.Ready op o) ∧ (isMgmt 0x4 o.desc = true) ∧ (o.fn = 0) ∧ (s.boot.flashActive = false) ∧ (s.upState = upIDLE ∨ s.upState = upDONE ∨ s.upState = upHALTED) ∧ (s.boot.journalOpen = false)) ∧
    (∃ (s : State) (op : OpKey) (o : Op), (s.Ready op o) ∧ (isMgmt 0x4 o.desc = true) ∧ (o.fn = 0) ∧ (s.boot.flashActive = true ∨ (upSTAGING ≤ s.upState ∧ s.upState ≤ upFLASH))) ∧
    (∃ (s : State) (op : OpKey) (o : Op), (s.Ready op o) ∧ (isMgmt 0x5 o.desc = true) ∧ (o.fn = 0)) ∧
    (∃ (s : State) (op : OpKey) (o : Op) (b : Bytes), (s.Ready op o) ∧ (isMgmt 0x5 o.desc = true) ∧ (o.fn = 0)) :=
  ⟨⟨(withOp (mgmtDesc 0x2 0)).setFld Reg.MGT_UPDATE_STATUS_STATE 0 1, ⟨0, 0⟩, theOp (mgmtDesc 0x2 0), by decide +kernel⟩,
    ⟨withOp (mgmtDesc 0x2 0), ⟨0, 0⟩, theOp (mgmtDesc 0x2 0), by decide +kernel⟩,
    ⟨withOp (mgmtDesc 0x3 0), ⟨0, 0⟩, theOp (mgmtDesc 0x3 0), by decide +kernel⟩,
    ⟨{ withOp (mgmtDesc 4 0) with boot := { up.boot with journalOpen := true } }, ⟨0, 0⟩, theOp (mgmtDesc 4 0), by decide +kernel⟩,
    ⟨withOp (mgmtDesc 0x4 0), ⟨0, 0⟩, theOp (mgmtDesc 0x4 0), by decide +kernel⟩,
    ⟨(withOp (mgmtDesc 0x4 0)).setFld Reg.MGT_UPDATE_STATUS_STATE 0 3, ⟨0, 0⟩, theOp (mgmtDesc 0x4 0), by decide +kernel⟩,
    ⟨withOp (mgmtDesc 0x5 0), ⟨0, 0⟩, theOp (mgmtDesc 0x5 0), by decide +kernel⟩,
    ⟨withOp (mgmtDesc 0x5 0), ⟨0, 0⟩, theOp (mgmtDesc 0x5 0), [64], by decide +kernel⟩⟩

theorem witness_ChannelRows :
    (∃ (s : State) (op : OpKey) (o : Op), (s.Ready op o) ∧ (isMgmt 0x7 o.desc = true) ∧ (o.fn = 0) ∧ (15 < (mParam0 o.desc % 256))) ∧
    (∃ (s : State) (op : OpKey) (o : Op), (s.Ready op o) ∧ (isMgmt 0x7 o.desc = true) ∧ (o.fn = 0) ∧ ((mParam0 o.desc % 256) ≤ 15) ∧ (bitAt (mParam0 o.desc) 8 = true) ∧ (s.mem.training.has (mParam0 o.desc % 256) = false) ∧ (s.unitSt ⟨1, (mParam0 o.desc % 256)⟩ = usOFF ∨ s.unitSt ⟨1, (mParam0 o.desc % 256)⟩ = usRETIRED)) ∧
    (∃ (s : State) (op : OpKey) (o : Op), (s.Ready op o) ∧ (isMgmt 0x7 o.desc = true) ∧ (o.fn = 0) ∧ ((mParam0 o.desc % 256) ≤ 15) ∧ (bitAt (mParam0 o.desc) 8 = true) ∧ (s.mem.training.has (mParam0 o.desc % 256) = true)) ∧
    (∃ (s : State) (op : OpKey) (o : Op), (s.Ready op o) ∧ (isMgmt 0x7 o.desc = true) ∧ (o.fn = 0) ∧ ((mParam0 o.desc % 256) ≤ 15) ∧ (bitAt (mParam0 o.desc) 8 = true) ∧ (s.mem.training.has (mParam0 o.desc % 256) = false) ∧ (s.unitSt ⟨1, (mParam0 o.desc % 256)⟩ ≠ usOFF) ∧ (s.unitSt ⟨1, (mParam0 o.desc % 256)⟩ ≠ usRETIRED)) ∧
    (∃ (s : State) (op : OpKey) (o : Op), (s.Ready op o) ∧ (isMgmt 0x7 o.desc = true) ∧ (o.fn = 0) ∧ ((mParam0 o.desc % 256) ≤ 15) ∧ (bitAt (mParam0 o.desc) 8 = false) ∧ (s.unitSt ⟨1, (mParam0 o.desc % 256)⟩ = usOFF)) ∧
    (∃ (s : State) (op : OpKey) (o : Op), (s.Ready op o) ∧ (isMgmt 0x7 o.desc = true) ∧ (o.fn = 0) ∧ ((mParam0 o.desc % 256) ≤ 15) ∧ (bitAt (mParam0 o.desc) 8 = false) ∧ (s.unitSt ⟨1, (mParam0 o.desc % 256)⟩ = usRETIRED)) ∧
    (∃ (s : State) (op : OpKey) (o : Op), (s.Ready op o) ∧ (isMgmt 0x7 o.desc = true) ∧ (o.fn = 0) ∧ ((mParam0 o.desc % 256) ≤ 15) ∧ (bitAt (mParam0 o.desc) 8 = false) ∧ (s.unitSt ⟨1, (mParam0 o.desc % 256)⟩ = usIN_SERVICE) ∧ (s.mem.retires = [])) ∧
    (∃ (s : State) (c gib : Nat) (ok : Bool) (op : OpKey) (o : Op), (s.coreOff = false) ∧ (s.mem.training.find c = some (some op)) ∧ (s.mem.trainWaits = []) ∧ (s.op? op = some o) ∧ (o.key = op) ∧ (o.lost = false) ∧ (op.slot ∈ (s.ring op.ring).taken)) ∧
    (∃ (s : State) (op : OpKey) (o : Op), (s.Ready op o) ∧ (isMgmt 0xb o.desc = true) ∧ (o.fn = 0) ∧ (bitAt (mParam0 o.desc) 16 = false)) ∧
    (∃ (s : State) (op : OpKey) (o : Op), (s.Ready op o) ∧ (isMgmt 0xb o.desc = true) ∧ (o.fn = 0) ∧ (bitAt (mParam0 o.desc) 16 = true) ∧ (s.mem.extents.has (mParam0 o.desc % 16384) = true)) ∧
    (∃ (s : State) (op : OpKey) (o : Op), (s.Ready op o) ∧ (isMgmt 0xb o.desc = true) ∧ (o.fn = 0) ∧ (bitAt (mParam0 o.desc) 16 = true) ∧ (s.mem.extents.has (mParam0 o.desc % 16384) = false) ∧ (s.richest = [])) ∧
    (∃ (s : State) (op : OpKey) (o : Op), (s.Ready op o) ∧ (isMgmt 0xb o.desc = true) ∧ (o.fn = 0) ∧ (bitAt (mParam0 o.desc) 16 = true) ∧ (s.mem.extents.has (mParam0 o.desc % 16384) = false) ∧ (s.richest ≠ [])) :=
  ⟨⟨withOp (mgmtDesc 0x7 16), ⟨0, 0⟩, theOp (mgmtDesc 0x7 16), by decide +kernel⟩,
    ⟨(withOp (mgmtDesc 0x7 271)).setUnitSt ⟨1, 15⟩ usOFF, ⟨0, 0⟩, theOp (mgmtDesc 0x7 271), by decide +kernel⟩,
    ⟨{ withOp (mgmtDesc 0x7 261) with mem := { training := [(5, none)] } }, ⟨0, 0⟩, theOp (mgmtDesc 0x7 261), by decide +kernel⟩,
    ⟨withOp (mgmtDesc 0x7 259), ⟨0, 0⟩, theOp (mgmtDesc 0x7 259), by decide +kernel⟩,
    ⟨(withOp (mgmtDesc 0x7 3)).setUnitSt ⟨1, 3⟩ usOFF, ⟨0, 0⟩, theOp (mgmtDesc 0x7 3), by decide +kernel⟩,
    ⟨(withOp (mgmtDesc 0x7 3)).setUnitSt ⟨1, 3⟩ usRETIRED, ⟨0, 0⟩, theOp (mgmtDesc 0x7 3), by decide +kernel⟩,
    ⟨withOp (mgmtDesc 0x7 3), ⟨0, 0⟩, theOp (mgmtDesc 0x7 3), by decide +kernel⟩,
    ⟨{ withOp (mgmtDesc 7 0x105) with mem := { training := [(5, some ⟨0, 0⟩)] } }, 5, 2000, true, ⟨0, 0⟩, theOp (mgmtDesc 7 0x105), by decide +kernel⟩,
    ⟨{ withOp (mgmtDesc 0xb 16383) with mem := { extents := [(0x3FFF, (15, 0))] } }, ⟨0, 0⟩, theOp (mgmtDesc 0xb 16383), by decide +kernel⟩,
    ⟨{ withOp (mgmtDesc 0xb 81919) with mem := { extents := [(0x3FFF, (15, 0))] } }, ⟨0, 0⟩, theOp (mgmtDesc 0xb 81919), by decide +kernel⟩,
    ⟨withOp (mgmtDesc 0xb 65536), ⟨0, 0⟩, theOp (mgmtDesc 0xb 65536), by decide +kernel⟩,
    ⟨{ withOp (mgmtDesc 0xb 81919) with mem := { chanGib := [(15, 2)], lostDdr := [(0x1FFFC000, 9)] } }, ⟨0, 0⟩, theOp (mgmtDesc 0xb 81919), by decide +kernel⟩⟩

theorem witness_RetirementRows :
    (∃ (s : State) (op : OpKey) (o : Op), (s.Ready op o) ∧ (isMgmt 0xc o.desc = true) ∧ (o.fn = 0) ∧ ((bitsOf (mParam0 o.desc) 10 1) = 1) ∧ (15 < (mParam0 o.desc % 1024))) ∧
    (∃ (s : State) (op : OpKey) (o : Op), (s.Ready op o) ∧ (isMgmt 0xc o.desc = true) ∧ (o.fn = 0) ∧ ((bitsOf (mParam0 o.desc) 10 1) = 0) ∧ (s.unitSt ⟨0, (mParam0 o.desc % 1024)⟩ = usSPARE) ∧ (s.mem.retires = [])) ∧
    (∃ (s : State) (op : OpKey) (o : Op) (sp : Nat), (s.Ready op o) ∧ (isMgmt 0xc o.desc = true) ∧ (o.fn = 0) ∧ ((bitsOf (mParam0 o.desc) 10 1) = 0) ∧ (s.unitSt ⟨0, (mParam0 o.desc % 1024)⟩ = usIN_SERVICE ∨ s.unitSt ⟨0, (mParam0 o.desc % 1024)⟩ = usTRUSTED ∨ s.unitSt ⟨0, (mParam0 o.desc % 1024)⟩ = usDEGRADED) ∧ (s.mem.retires = []) ∧ ((s.mem.spares.filter fun p => pcDie p == pcDie (mParam0 o.desc % 1024)).head? = some sp)) ∧
    (∃ (s : State) (op : OpKey) (o : Op), (s.Ready op o) ∧ (isMgmt 0xc o.desc = true) ∧ (o.fn = 0) ∧ ((bitsOf (mParam0 o.desc) 10 1) = 0) ∧ (s.unitSt ⟨0, (mParam0 o.desc % 1024)⟩ = usIN_SERVICE ∨ s.unitSt ⟨0, (mParam0 o.desc % 1024)⟩ = usTRUSTED ∨ s.unitSt ⟨0, (mParam0 o.desc % 1024)⟩ = usDEGRADED) ∧ (s.mem.retires = []) ∧ ((s.mem.spares.filter fun p => pcDie p == pcDie (mParam0 o.desc % 1024)).head? = none)) ∧
    (∃ (s : State) (op : OpKey) (o : Op), (s.Ready op o) ∧ (isMgmt 0xc o.desc = true) ∧ (o.fn = 0) ∧ ((bitsOf (mParam0 o.desc) 10 1) = 1) ∧ ((mParam0 o.desc % 1024) ≤ 15) ∧ (s.unitSt ⟨1, (mParam0 o.desc % 1024)⟩ = usIN_SERVICE) ∧ (s.mem.retires = [])) ∧
    (∃ (s : State) (op : OpKey) (o : Op), (s.Ready op o) ∧ (isMgmt 0xc o.desc = true) ∧ (o.fn = 0) ∧ ((bitsOf (mParam0 o.desc) 10 1) = 0 ∨ (mParam0 o.desc % 1024) ≤ 15) ∧ (s.unitSt ⟨(bitsOf (mParam0 o.desc) 10 1), (mParam0 o.desc % 1024)⟩ = usRETIRED ∨ s.unitSt ⟨(bitsOf (mParam0 o.desc) 10 1), (mParam0 o.desc % 1024)⟩ = usOFF)) ∧
    (∃ (s : State) (op : OpKey) (o : Op) (r : Retire), (s.Ready op o) ∧ (isMgmt 0xc o.desc = true) ∧ (o.fn = 0) ∧ ((bitsOf (mParam0 o.desc) 10 1) = 0 ∨ (mParam0 o.desc % 1024) ≤ 15) ∧ (s.unitSt ⟨(bitsOf (mParam0 o.desc) 10 1), (mParam0 o.desc % 1024)⟩ = usRETIRING) ∧ (s.mem.retires = [r]) ∧ (r.unit = ⟨(bitsOf (mParam0 o.desc) 10 1), (mParam0 o.desc % 1024)⟩)) ∧
    (∃ (s : State) (u : MemUnit) (r : Retire), (s.coreOff = false) ∧ (u.tier = 0) ∧ (s.mem.retires = [r]) ∧ (r.unit = u) ∧ (r.running = true) ∧ (r.mark + 1 < blocksPerGib)) ∧
    (∃ (s : State) (u : MemUnit) (r : Retire), (s.coreOff = false) ∧ (u.tier = 0) ∧ (s.mem.retires = [r]) ∧ (r.unit = u) ∧ (r.running = true) ∧ (r.mark + 1 = blocksPerGib) ∧ (r.dest ≠ u.unit)) ∧
    (∃ (s : State) (u : MemUnit) (r x : Retire), (s.coreOff = false) ∧ (u.tier = 1) ∧ (s.mem.retires = [r]) ∧ (r.unit = u) ∧ (r.running = true) ∧ (r.extents ≠ []) ∧ (s.retireTarget r = some x) ∧ (x.mark + 1 < blocksPerGib)) ∧
    (∃ (s : State) (u : MemUnit) (r x : Retire) (e : Nat) (l : List Nat), (s.coreOff = false) ∧ (u.tier = 1) ∧ (s.mem.retires = [r]) ∧ (r.unit = u) ∧ (r.running = true) ∧ (r.extents = e :: l) ∧ (s.retireTarget r = some x) ∧ (x.mark + 1 = blocksPerGib)) ∧
    (∃ (s : State) (u : MemUnit) (r : Retire) (read : MemRead), (s.coreOff = false) ∧ (u.tier = 1) ∧ (s.mem.retires = [r]) ∧ (r.unit = u) ∧ (r.running = true) ∧ (r.extents ≠ []) ∧ (s.retireTarget r = none) ∧ (r.held = false)) ∧
    (∃ (s : State) (u : MemUnit) (r x : Retire) (e : Nat) (l : List Nat) (b : BurstErr), (s.coreOff = false) ∧ (u.tier = 1) ∧ (s.unitSt u = usRETIRING) ∧ (s.mem.retires = [r]) ∧ (r.unit = u) ∧ (r.running = true) ∧ (r.extents = e :: l) ∧ (e < 16384) ∧ (s.retireTarget r = some x) ∧ (x.mark < blocksPerGib) ∧ (b.at_ < 65536) ∧ (burstRead true 3 b.tries = none) ∧ (s.mem.lostDdr.length < 4096)) ∧
    (∃ (s : State) (u : MemUnit) (read : MemRead), (s.mem.retires.find? fun r => r.unit == u && r.running) = none) ∧
    (∃ (s : State) (u : MemUnit) (off : Nat) (r : MemRead), r = [] ∨ s.unitSt u = usRETIRED ∨ s.unitSt u = usOFF) ∧
    (∃ (s : State) (u : MemUnit) (off p q : Nat) (e : BurstErr) (x : Bytes), (s.coreOff = false) ∧ (s.unitSt u ≠ usRETIRED) ∧ (s.unitSt u ≠ usOFF) ∧ (burstTry (u.tier == 1) (e.tries.head?.getD []) = some (x, [p])) ∧ (allZero x = true) ∧ (q = (if u.tier = 1 then e.place % 8 * 16 + p else p)) ∧ (satAdd 0xFF (s.mem.ce.getD (u, q) {}).inWindow 1 < s.ceLimit u.tier)) ∧
    (∃ (s : State) (u : MemUnit) (off p sp : Nat) (e : BurstErr) (x : Bytes), (s.coreOff = false) ∧ (u.tier = 0) ∧ (s.unitSt u = usIN_SERVICE ∨ s.unitSt u = usTRUSTED ∨ s.unitSt u = usDEGRADED) ∧ (s.mem.retires = []) ∧ ((s.mem.spares.filter fun p => pcDie p == pcDie u.unit).head? = some sp) ∧ (burstTry false (e.tries.head?.getD []) = some (x, [p])) ∧ ((s.mem.ce.getD (u, p) {}).declared = false) ∧ (s.ceLimit 0 ≤ satAdd 0xFF (s.mem.ce.getD (u, p) {}).inWindow 1)) ∧
    (∃ (s : State) (u : MemUnit) (off sp : Nat) (e : BurstErr), (s.coreOff = false) ∧ (u.tier = 0) ∧ (s.unitSt u = usIN_SERVICE ∨ s.unitSt u = usTRUSTED ∨ s.unitSt u = usDEGRADED) ∧ (s.mem.retires = []) ∧ ((s.mem.spares.filter fun p => pcDie p == pcDie u.unit).head? = some sp) ∧ (burstRead false 3 e.tries = none)) ∧
    (∃ (s : State) (u : MemUnit) (off a : Nat) (e : BurstErr) (x : Bytes), (s.coreOff = false) ∧ (s.unitSt u ≠ usRETIRED) ∧ (s.unitSt u ≠ usOFF) ∧ (s.dpaOf u (off + e.at_) = some a) ∧ (burstTry (u.tier == 1) (e.tries.head?.getD []) = none) ∧ (burstTry (u.tier == 1) (e.tries.tail.head?.getD []) = some (x, [])) ∧ (allZero x = true)) ∧
    (∃ (s : State) (tier : Nat), s.coreOff = false) :=
  ⟨⟨withOp (mgmtDesc 0xc 1040), ⟨0, 0⟩, theOp (mgmtDesc 0xc 1040), by decide +kernel⟩,
    ⟨{ withOp (mgmtDesc 0xc 1023) with mem := { spares := [5, 1023], unitState := [(⟨0, 1023⟩, 3)] } }, ⟨0, 0⟩, theOp (mgmtDesc 0xc 1023), by decide +kernel⟩,
    ⟨{ withOp (mgmtDesc 0xc 0) with mem := { spares := [1023, 7] } }, ⟨0, 0⟩, theOp (mgmtDesc 0xc 0), 7, by decide +kernel⟩,
    ⟨withOp (mgmtDesc 0xc 1023), ⟨0, 0⟩, theOp (mgmtDesc 0xc 1023), by decide +kernel⟩,
    ⟨withOp (mgmtDesc 0xc 1039), ⟨0, 0⟩, theOp (mgmtDesc 0xc 1039), by decide +kernel⟩,
    ⟨{ withOp (mgmtDesc 0xc 1029) with mem := { unitState := [(⟨1, 5⟩, 4)] } }, ⟨0, 0⟩, theOp (mgmtDesc 0xc 1029), by decide +kernel⟩,
    ⟨{ withOp (mgmtDesc 0xc 1029) with mem := { unitState := [(⟨1, 5⟩, 1)], retires := [{ unit := ⟨1, 5⟩, running := true }] } }, ⟨0, 0⟩, theOp (mgmtDesc 0xc 1029), { unit := ⟨1, 5⟩, running := true }, by decide +kernel⟩,
    ⟨{ up with mem := { retires := [{ unit := ⟨0, 3⟩, running := true }] } }, ⟨0, 3⟩, { unit := ⟨0, 3⟩, running := true }, by decide +kernel⟩,
    ⟨{ up with mem := { retires := [{ unit := ⟨0, 3⟩, running := true, dest := 9, mark := 16383 }], slotsBow := [2, 3] } }, ⟨0, 3⟩, { unit := ⟨0, 3⟩, running := true, dest := 9, mark := 16383 }, by decide +kernel⟩,
    ⟨{ up with mem := { retires := [{ unit := ⟨1, 3⟩, running := true, extents := [7, 2], dest := 8, media := some 0, mark := 4 }], chanGib := [(8, 4)], extents := [(7, (3, 0)), (2, (3, 1))], unitState := [(⟨1, 3⟩, 1)] } }, ⟨1, 3⟩, { unit := ⟨1, 3⟩, running := true, extents := [7, 2], dest := 8, media := some 0, mark := 4 }, { unit := ⟨1, 3⟩, running := true, extents := [7, 2], dest := 8, media := some 0, mark := 4 }, by decide +kernel⟩,
    ⟨{ up with mem := { retires := [{ unit := ⟨1, 3⟩, running := true, extents := [7], dest := 8, media := some 0, mark := 16383 }], chanGib := [(8, 4)], extents := [(7, (3, 0)), (2, (3, 1))], unitState := [(⟨1, 3⟩, 1)] } }, ⟨1, 3⟩, { unit := ⟨1, 3⟩, running := true, extents := [7], dest := 8, media := some 0, mark := 16383 }, { unit := ⟨1, 3⟩, running := true, extents := [7], dest := 8, media := some 0, mark := 16383 }, 7, [], by decide +kernel⟩,
    ⟨{ up with mem := { retires := [{ unit := ⟨1, 3⟩, running := true, extents := [7] }] } }, ⟨1, 3⟩, { unit := ⟨1, 3⟩, running := true, extents := [7] }, [], by decide +kernel⟩,
    ⟨{ up with mem := { retires := [{ unit := ⟨1, 3⟩, running := true, extents := [7, 2], dest := 8, media := some 0, mark := 4 }], chanGib := [(8, 4)], extents := [(7, (3, 0)), (2, (3, 1))], unitState := [(⟨1, 3⟩, 1)] } }, ⟨1, 3⟩, { unit := ⟨1, 3⟩, running := true, extents := [7, 2], dest := 8, media := some 0, mark := 4 }, { unit := ⟨1, 3⟩, running := true, extents := [7, 2], dest := 8, media := some 0, mark := 4 }, 7, [2], { at_ := 0, tries := [[(1, 1), (4, 1)], [(1, 1), (4, 1)], [(1, 1), (4, 1)]] }, by decide +kernel⟩,
    ⟨up, ⟨0, 3⟩, [], by decide +kernel⟩,
    ⟨up, ⟨0, 3⟩, 0, [], by decide +kernel⟩,
    ⟨(up.setFld Reg.DDR_CE_POLICY_COUNT 0 2), ⟨1, 3⟩, 0, 0, 16, { at_ := 0, place := 1, tries := [[(0, 1)]] }, zeros 64, by decide +kernel⟩,
    ⟨{ up.setFld Reg.HBM_CE_POLICY_COUNT 0 1 with mem := { spares := [1023, 7] } }, ⟨0, 3⟩, 0, 0, 7, { at_ := 0, place := 1, tries := [[(0, 1)]] }, zeros 32, by decide +kernel⟩,
    ⟨{ up with mem := { spares := [1023, 7] } }, ⟨0, 3⟩, 0, 7, { at_ := 0, place := 1, tries := [[(0, 1), (4, 1)], [(0, 1), (4, 1)], [(0, 1), (4, 1)]] }, by decide +kernel⟩,
    ⟨{ up with mem := { extents := [(0, (3, 0))] } }, ⟨1, 3⟩, 64, 0x100000000040, { at_ := 0, tries := [[(1, 1), (4, 1)], []] }, zeros 64, by decide +kernel⟩,
    ⟨{ up with mem := { ce := [((⟨1, 3⟩, 2), ⟨5, 4, true⟩)] } }, 1, by decide +kernel⟩⟩

theorem witness_TranslationRows :
    (∃ (s : State) (op : OpKey) (o : Op), (s.Ready op o) ∧ (isMgmt 0x000A o.desc = true) ∧ (s.domainOf o.fn (mParam0 o.desc % 4096) = none)) ∧
    (∃ (s : State) (op : OpKey) (o : Op) (d : Nat), (s.Ready op o) ∧ (isMgmt 0x000A o.desc = true) ∧ (s.domainOf o.fn (mParam0 o.desc % 4096) = some d) ∧ (s.tfb.ctxs = []) ∧ (s.col.ops = []) ∧ ((∀ p ∈ s.hif.ops, p.2.hold = Hold.none))) ∧
    (∃ (s : State) (k : OpKey) (o : Op) (d a : Nat) (wr : Bool), (s.coreOff = false) ∧ (s.op? k = some o) ∧ (o.key = k) ∧ (o.lost = false) ∧ (o.phase = OpPhase.running) ∧ (k.slot ∈ (s.ring k.ring).taken) ∧ (o.hold = Hold.devFault d a wr)) ∧
    (∃ (s : State) (k : OpKey), ((s.op? k).map Op.hold).getD Hold.none = Hold.none) ∧
    (∃ (s : State) (k : OpKey) (o : Op) (a : Nat) (w : Bool), (s.coreOff = false) ∧ (s.op? k = some o) ∧ (o.key = k) ∧ (o.lost = false) ∧ (o.phase = OpPhase.running) ∧ (k.slot ∈ (s.ring k.ring).taken) ∧ (o.hold = Hold.pri a w) ∧ ((∀ p ∈ s.hif.ops, p.2.hold.waitsToAsk = false)) ∧ ((∀ p ∈ s.tfb.ctxs, p.2.hold.waitsToAsk = false))) ∧
    (∃ (s : State) (k k2 : OpKey) (o o2 : Op) (a a2 : Nat) (w w2 : Bool), (s.coreOff = false) ∧ (s.op? k = some o) ∧ (o.key = k) ∧ (o.lost = false) ∧ (o.phase = OpPhase.running) ∧ (k.slot ∈ (s.ring k.ring).taken) ∧ (o.hold = Hold.pri a w) ∧ (k2 ≠ k) ∧ (o2.key = k2) ∧ (s.op? k2 = some o2) ∧ (o2.hold = Hold.priWait a2 w2) ∧ (s.hif.ops.find? (fun p => p.2.hold.waitsToAsk) = some (k2, o2)) ∧ (s.priCount ≤ 512)) ∧
    (∃ (s : State) (k : OpKey) (o : Op) (a : Nat) (w : Bool), (s.coreOff = false) ∧ (s.op? k = some o) ∧ (o.key = k) ∧ (o.lost = false) ∧ (o.phase = OpPhase.running) ∧ (k.slot ∈ (s.ring k.ring).taken) ∧ (o.hold = Hold.pri a w) ∧ ((∀ p ∈ s.hif.ops, p.2.hold.waitsToAsk = false)) ∧ ((∀ p ∈ s.tfb.ctxs, p.2.hold.waitsToAsk = false))) ∧
    (∃ (s : State) (k : OpKey) (o : Op) (a : Nat) (w : Bool), (s.coreOff = false) ∧ (s.op? k = some o) ∧ (o.key = k) ∧ (o.lost = false) ∧ (o.phase = OpPhase.running) ∧ (k.slot ∈ (s.ring k.ring).taken) ∧ (o.hold = Hold.pri a w) ∧ ((∀ p ∈ s.hif.ops, p.2.hold.waitsToAsk = false)) ∧ ((∀ p ∈ s.tfb.ctxs, p.2.hold.waitsToAsk = false))) ∧
    (∃ (s : State) (n : Nat), (s.tctx n).hold.asks = false) ∧
    (∃ (s : State) (fn addr len : Nat), s.coreOff = false) :=
  ⟨⟨({ withOp (mgmtDesc 0xA 5) with hif := { (withOp (mgmtDesc 0xA 5)).hif with ops := [(⟨0, 0⟩, { theOp (mgmtDesc 0xA 5) with fn := 1 })] } }), ⟨0, 0⟩, { theOp (mgmtDesc 0xA 5) with fn := 1 }, by decide +kernel⟩,
    ⟨withOp (mgmtDesc 0xa 5), ⟨0, 0⟩, theOp (mgmtDesc 0xa 5), 5, by decide +kernel⟩,
    ⟨{ withOp (desc [(0, 1, 2)]) with hif := { (withOp (desc [(0, 1, 2)])).hif with ops := [(⟨0, 0⟩, { theOp (desc [(0, 1, 2)]) with phase := .running, hold := .devFault 1 2 true })] } }, ⟨0, 0⟩, { theOp (desc [(0, 1, 2)]) with phase := .running, hold := .devFault 1 2 true }, 1, 2, true, by decide +kernel⟩,
    ⟨up, ⟨0, 0⟩, by decide +kernel⟩,
    ⟨{ withOp (desc [(0, 1, 2)]) with hif := { (withOp (desc [(0, 1, 2)])).hif with ops := [(⟨0, 0⟩, { theOp (desc [(0, 1, 2)]) with phase := .running, hold := .pri 1 false })] } }, ⟨0, 0⟩, { theOp (desc [(0, 1, 2)]) with phase := .running, hold := .pri 1 false }, 1, false, by decide +kernel⟩,
    ⟨{ withOp (desc [(0, 1, 2)]) with hif := { (withOp (desc [(0, 1, 2)])).hif with ops := [(⟨0, 0⟩, { theOp (desc [(0, 1, 2)]) with phase := .running, hold := .pri 1 false }), (⟨0, 1⟩, { theOp (desc [(0, 1, 2)]) with key := ⟨0, 1⟩, fn := 3, hold := .priWait 9 true })] } }, ⟨0, 0⟩, ⟨0, 1⟩, { theOp (desc [(0, 1, 2)]) with phase := .running, hold := .pri 1 false }, { theOp (desc [(0, 1, 2)]) with key := ⟨0, 1⟩, fn := 3, hold := .priWait 9 true }, 1, 9, false, true, by decide +kernel⟩,
    ⟨{ withOp (desc [(0, 1, 2)]) with hif := { (withOp (desc [(0, 1, 2)])).hif with ops := [(⟨0, 0⟩, { theOp (desc [(0, 1, 2)]) with phase := .running, hold := .pri 1 false })] } }, ⟨0, 0⟩, { theOp (desc [(0, 1, 2)]) with phase := .running, hold := .pri 1 false }, 1, false, by decide +kernel⟩,
    ⟨{ withOp (desc [(0, 1, 2)]) with hif := { (withOp (desc [(0, 1, 2)])).hif with ops := [(⟨0, 0⟩, { theOp (desc [(0, 1, 2)]) with phase := .running, hold := .pri 1 false })] } }, ⟨0, 0⟩, { theOp (desc [(0, 1, 2)]) with phase := .running, hold := .pri 1 false }, 1, false, by decide +kernel⟩,
    ⟨up, 3, by decide +kernel⟩,
    ⟨{ up with mem := { ats := [(1, 2)] } }, 1, 0x2FFF, 1, by decide +kernel⟩⟩

theorem witness_ManagementCoreRows :
    (∃ (s : State) (a cause : Nat) (flash : Bytes), (s.boot.porst = false) ∧ (s.mgcActing = some a) ∧ (s.fld (mgcRole (1 - a)) = 2) ∧ (s.boot.trustedGood = true)) ∧
    (∃ (s : State) (a cause : Nat) (ready : Bool) (flash : Bytes), (s.boot.porst = false) ∧ (s.mgcActing = some a) ∧ (s.boot.trustedGood = true) ∧ (ready = false ∨ s.fld (mgcRole (1 - a)) ≠ 2)) ∧
    (∃ (s : State) (a cause : Nat) (ready : Bool) (flash : Bytes), (s.boot.porst = false) ∧ (s.mgcActing = some a) ∧ (s.boot.trustedGood = false) ∧ ((match s.verifyImage flash with | .accept _ => true | _ => false) = false)) ∧
    (∃ (s : State) (cause : Nat) (ready : Bool) (flash : Bytes), s.mgcActing = none) ∧
    (∃ (s : State) (ok : Bool), (s.boot.porst = false) ∧ (s.mgmt.down = true)) ∧
    (∃ (s : State), (s.boot.porst = false) ∧ (s.mgmt.down = true)) ∧
    (∃ (s : State) (a b : Bool), s.mgmt.down = false ∨ (a = false ∧ b = false)) ∧
    (∃ (s : State) (idx n : Nat), s.i3cAnswers = true) ∧
    (∃ (s : State) (x : Byte), s.i3cAnswers = true) ∧
    (∃ (s : State), s.i3cAnswers = true) ∧
    (∃ (s : State) (idx : Nat) (x : Byte), (idx ≠ 0x25) ∧ (idx ≠ 0x24 ∨ x ≠ 0xA5)) ∧
    (∃ (s : State) (addr idx : Nat) (x : I3cData), s.i3cAnswers = false ∨ addr ≠ s.i3cAddress) ∧
    (∃ (s : State) (f : MgeFrame), (s.mgeUp = true) ∧ (f = MgeFrame.echo true ∨ f = MgeFrame.neighbourSolicit true)) ∧
    (∃ (s : State) (f : MgeFrame) (m : PtpMsg), (s.mgeUp = true) ∧ (f = MgeFrame.lldp ∨ (f = MgeFrame.ptp m ∧ (m.domain ≠ s.fld Reg.TIM_PTP_CFG_DOMAIN ∨ m.kind = PtpKind.sync)))) ∧
    (∃ (s : State) (m : PtpMsg), (s.mgeUp = true) ∧ (m.domain = s.fld Reg.TIM_PTP_CFG_DOMAIN) ∧ (m.kind = PtpKind.delayReq) ∧ (s.fld Reg.TIM_PTP_CFG_DELAY_MECH = 0)) ∧
    (∃ (s : State) (peer : Nat), (s.mgeUp = true) ∧ (s.flag Reg.MGT_MGE_CFG_SERVE_IMAGE = true) ∧ (s.mgmt.mgePeers.length < 4 ∨ peer ∈ s.mgmt.mgePeers)) ∧
    (∃ (s : State) (peer block : Nat) (last : Bool), (s.mgeUp = true) ∧ (peer ∈ s.mgmt.mgePeers)) ∧
    (∃ (s : State) (f : MgeFrame) (peer block : Nat) (last : Bool), (s.mgeUp = true) ∧ (f = MgeFrame.echo false ∨ f = MgeFrame.neighbourSolicit false ∨ f = MgeFrame.other ∨ (f = MgeFrame.solicit peer ∧ (s.flag Reg.MGT_MGE_CFG_SERVE_IMAGE = false ∨ (4 ≤ s.mgmt.mgePeers.length ∧ peer ∉ s.mgmt.mgePeers))) ∨ (f = MgeFrame.tftp peer block last ∧ peer ∉ s.mgmt.mgePeers))) ∧
    (∃ (s : State) (f : MgeFrame), s.mgeUp = false) ∧
    (∃ (s : State) (op : OpKey) (o : Op) (x : Option Bytes) (req : Nat) (c : Instr), (s.Ready op o) ∧ (o.fn ≠ 0) ∧ (isMgmt req o.desc = true) ∧ ((req, c) ∈ [(0x1, Instr.updateStage op), (0x2, .updateAbort op), (0x3, .flashKeep op), (0x4, .flashResync op), (0x5, .svnCommit op x), (0x6, .coxReload op), (0x7, .ddrDomain op), (0x9, .evrClear op x), (0xB, .ddrExtent op), (0xC, .memRetire op), (0xD, .codeTable op x), (0xE, .timeConfirm op), (0xF, .unitPower op), (0x10, .testAccess op x), (0x11, .fltProbation op)])) :=
  ⟨⟨({ up with boot := { up.boot with trustedGood := true } }.setFld (mgcRole 1) 0 1).setFld (mgcRole 0) 0 2, 1, 1, [], by decide +kernel⟩,
    ⟨({ up with boot := { up.boot with trustedGood := true } }.setFld (mgcRole 1) 0 1).setFld (mgcRole 0) 0 2, 1, 1, false, [], by decide +kernel⟩,
    ⟨({ up with boot := { up.boot with trustedGood := false } }.setFld (mgcRole 1) 0 1).setFld (mgcRole 0) 0 2, 1, 1, true, [], by decide +kernel⟩,
    ⟨up, 1, true, [], by decide +kernel⟩,
    ⟨{ up with mgmt := { up.mgmt with down := true } }, true, by decide +kernel⟩,
    ⟨{ up with mgmt := { up.mgmt with down := true } }, by decide +kernel⟩,
    ⟨up, true, false, by decide +kernel⟩,
    ⟨up, 0x24, 2, by decide +kernel⟩,
    ⟨up, 4, by decide +kernel⟩,
    ⟨{ up with mgmt := { up.mgmt with alerts := [(1, 2), (3, 4)] } }, by decide +kernel⟩,
    ⟨up, 0x24, 4, by decide +kernel⟩,
    ⟨up, 0x51, 0, .read 4, by decide +kernel⟩,
    ⟨up.setFlag Reg.MGT_MGE_CFG_ENABLE 0 true, .echo true, by decide +kernel⟩,
    ⟨up.setFlag Reg.MGT_MGE_CFG_ENABLE 0 true, .lldp, ⟨3, 0, .sync, 0⟩, by decide +kernel⟩,
    ⟨up.setFlag Reg.MGT_MGE_CFG_ENABLE 0 true, ⟨576, 0, .delayReq, 0⟩, by decide +kernel⟩,
    ⟨(up.setFlag Reg.MGT_MGE_CFG_ENABLE 0 true).setFlag Reg.MGT_MGE_CFG_SERVE_IMAGE 0 true, 7, by decide +kernel⟩,
    ⟨{ up.setFlag Reg.MGT_MGE_CFG_ENABLE 0 true with mgmt := { up.mgmt with mgePeers := [7, 8] } }, 7, 3, true, by decide +kernel⟩,
    ⟨up.setFlag Reg.MGT_MGE_CFG_ENABLE 0 true, .tftp 7 1 true, 7, 1, true, by decide +kernel⟩,
    ⟨cold, .other, by decide +kernel⟩,
    ⟨({ withOp (mgmtDesc 7 5) with hif := { (withOp (mgmtDesc 7 5)).hif with ops := [(⟨0, 0⟩, { theOp (mgmtDesc 7 5) with fn := 64 })] } }), ⟨0, 0⟩, { theOp (mgmtDesc 7 5) with fn := 64 }, none, 7, .ddrDomain ⟨0, 0⟩, by decide +kernel⟩⟩

theorem witness_EventRecordRows :
    (∃ (s : State) (code : Nat), (s.boot.porst = false) ∧ ((s.bucket code).suppressed ≠ 0) ∧ (1000000000 ≤ (s.bucket code).tokens) ∧ (Ev.severity code < 3)) ∧
    (∃ (s : State) (code : Nat), (s.bucket code).suppressed = 0 ∨ (s.bucket code).tokens < 1000000000) ∧
    (∃ (s : State) (r : EvRecord) (rest : List EvRecord), (s.boot.porst = false) ∧ (s.railOk 1 = true) ∧ (s.evr.persistQ = r :: rest) ∧ (s.evr.flashRecs.length < 4096)) ∧
    (∃ (s : State), s.railOk 1 = false ∨ s.evr.persistQ = []) ∧
    (∃ (s : State) (op : OpKey) (o : Op), (s.Ready op o) ∧ (isMgmt 0x9 o.desc = true) ∧ (o.fn = 0)) ∧
    (∃ (s : State) (op : OpKey) (o : Op) (b : Bytes), (s.Ready op o) ∧ (isMgmt 0x9 o.desc = true) ∧ (o.fn = 0)) ∧
    (∃ (s : State) (op : OpKey) (o : Op), (s.Ready op o) ∧ (isMgmt 0x10 o.desc = true) ∧ (o.fn = 0)) ∧
    (∃ (s : State) (op : OpKey) (o : Op) (b : Bytes), (s.Ready op o) ∧ (isMgmt 0x10 o.desc = true) ∧ (o.fn = 0)) ∧
    (∃ (s : State) (i : JtagInstr) (n : Nat), (s.boot.porst = false) ∧ (s.pinsScanned = false) ∧ (i = JtagInstr.bypass ∨ (i = JtagInstr.boundary n false ∧ 1 ≤ s.fld Reg.MGT_TEST_STATUS_SCOPE) ∨ (i = JtagInstr.debug n ∧ 2 ≤ s.fld Reg.MGT_TEST_STATUS_SCOPE))) ∧
    (∃ (s : State), (s.boot.porst = false) ∧ (s.pinsScanned = false)) ∧
    (∃ (s : State) (n : Nat), (s.boot.porst = false) ∧ (1 ≤ s.fld Reg.MGT_TEST_STATUS_SCOPE)) ∧
    (∃ (s : State) (i : JtagInstr) (n : Nat) (b : Bool), (i = JtagInstr.boundary n b ∧ s.fld Reg.MGT_TEST_STATUS_SCOPE = 0) ∨ (i = JtagInstr.debug n ∧ s.fld Reg.MGT_TEST_STATUS_SCOPE < 2)) ∧
    (∃ (s : State) (n : Nat) (rest : List Nat), (s.boot.porst = false) ∧ (s.mgmt.console = n :: rest)) ∧
    (∃ (s : State), s.mgmt.console = []) :=
  ⟨⟨up.setBucket Ev.COX_TAKEOVER { tokens := 1000000000, at_ := 0, suppressed := 3 }, Ev.COX_TAKEOVER, by decide +kernel⟩,
    ⟨up, 1, by decide +kernel⟩,
    ⟨{ up with evr := { up.evr with persistQ := [⟨1, 0, 0, 0, 5, 0, 0, true, false, false, 0, 0, []⟩] } }, ⟨1, 0, 0, 0, 5, 0, 0, true, false, false, 0, 0, []⟩, [], by decide +kernel⟩,
    ⟨up, by decide +kernel⟩,
    ⟨withOp (mgmtDesc 0x9 0), ⟨0, 0⟩, theOp (mgmtDesc 0x9 0), by decide +kernel⟩,
    ⟨withOp (mgmtDesc 0x9 0), ⟨0, 0⟩, theOp (mgmtDesc 0x9 0), [], by decide +kernel⟩,
    ⟨withOp (mgmtDesc 0x10 0), ⟨0, 0⟩, theOp (mgmtDesc 0x10 0), by decide +kernel⟩,
    ⟨withOp (mgmtDesc 0x10 0), ⟨0, 0⟩, theOp (mgmtDesc 0x10 0), [], by decide +kernel⟩,
    ⟨up.setFld Reg.MGT_TEST_STATUS_SCOPE 0 2, .debug 3, 3, by decide +kernel⟩,
    ⟨up, by decide +kernel⟩,
    ⟨up.setFld Reg.MGT_TEST_STATUS_SCOPE 0 1, 2, by decide +kernel⟩,
    ⟨up, .debug 1, 1, true, by decide +kernel⟩,
    ⟨{ up with mgmt := { up.mgmt with console := [80, 1] } }, 80, [1], by decide +kernel⟩,
    ⟨up, by decide +kernel⟩⟩

theorem witness_TimeRows :
    (∃ (s : State) (w : Word), (s.boot.porst = false) ∧ (bitAt w.toNat 0 = true)) ∧
    (∃ (s : State) (w : Word), bitAt w.toNat 0 = false) ∧
    (∃ (s : State) (d : Int), (s.boot.porst = false) ∧ (s.flag Reg.TIM_STATUS_TRACK = false ∨ d.natAbs ≤ s.fld Reg.TIM_GUARD_CFG_JUMP_NS)) ∧
    (∃ (s : State) (d : Int), (s.boot.porst = false) ∧ (s.flag Reg.TIM_STATUS_TRACK = false)) ∧
    (∃ (s : State) (d : Int), (s.boot.porst = false) ∧ (s.flag Reg.TIM_STATUS_TRACK = true) ∧ (s.fld Reg.TIM_GUARD_CFG_JUMP_NS < d.natAbs) ∧ (s.flag Reg.TIM_STATUS_JUMP_PENDING = false) ∧ (-(2 ^ 63) ≤ d) ∧ (d < 2 ^ 63)) ∧
    (∃ (s : State) (d : Int), (s.boot.porst = false) ∧ (s.flag Reg.TIM_STATUS_TRACK = true) ∧ (s.fld Reg.TIM_GUARD_CFG_JUMP_NS < d.natAbs) ∧ (s.flag Reg.TIM_STATUS_JUMP_PENDING = true) ∧ ((d - s.candidate).natAbs ≤ s.fld Reg.TIM_GUARD_CFG2_CONSIST_NS) ∧ (s.fld Reg.TIM_GUARD_CFG_N_CONSIST ≤ min 0xF (s.fld Reg.TIM_STATUS_CONSIST_COUNT + 1)) ∧ (-(2 ^ 63) ≤ d) ∧ (d < 2 ^ 63)) ∧
    (∃ (s : State) (op : OpKey) (o : Op), (s.Ready op o) ∧ (isMgmt 0xe o.desc = true) ∧ (o.fn = 0) ∧ (s.flag Reg.TIM_STATUS_ARMED = false)) ∧
    (∃ (s : State) (op : OpKey) (o : Op), (s.Ready op o) ∧ (isMgmt 0xe o.desc = true) ∧ (o.fn = 0) ∧ (s.flag Reg.TIM_STATUS_ARMED = true)) ∧
    (∃ (s : State), (s.boot.porst = false) ∧ (s.flag Reg.TIM_PPS_CFG_IN_EN = true) ∧ (((s.time.ppsLast).map fun x => decide (x + 500000000 ≤ s.uptimeNs)).getD true = true)) ∧
    (∃ (s : State) (x : Nat), s.flag Reg.TIM_PPS_CFG_IN_EN = false ∨ (s.time.ppsLast = some x ∧ s.uptimeNs < x + 500000000)) ∧
    (∃ (s : State), s.boot.porst = false) ∧
    (∃ (s : State), s.boot.porst = false) ∧
    (∃ (s : State) (m : PtpMsg), m.domain ≠ s.fld Reg.TIM_PTP_CFG_DOMAIN ∨ m.kind = PtpKind.sync ∨ m.kind = PtpKind.other ∨ (m.port = 576 ∧ (s.boot.porst = true ∨ s.railOk 6 = false)) ∨ (m.port ≠ 576 ∧ (s.coreOff = true ∨ s.portUp m.port = false))) ∧
    (∃ (s : State) (m : PtpMsg), ((m.port = 576 ∧ s.boot.porst = false ∧ s.railOk 6 = true) ∨ (m.port ≠ 576 ∧ s.coreOff = false ∧ s.portUp m.port = true)) ∧ (m.domain = s.fld Reg.TIM_PTP_CFG_DOMAIN) ∧ (m.kind = PtpKind.announce)) ∧
    (∃ (s : State) (m : PtpMsg) (peer : Bool), ((m.port = 576 ∧ s.boot.porst = false ∧ s.railOk 6 = true) ∨ (m.port ≠ 576 ∧ s.coreOff = false ∧ s.portUp m.port = true)) ∧ (m.domain = s.fld Reg.TIM_PTP_CFG_DOMAIN) ∧ (m.kind = (if peer then PtpKind.pdelayReq else PtpKind.delayReq))) ∧
    (∃ (s : State), s.boot.porst = false) ∧
    (∃ (s : State) (op : OpKey) (nonce : Option Bytes), s.upState = upHANDOVER) ∧
    (∃ (s : State) (op : OpKey) (o : Op) (nonce : Option Bytes), (s.Ready op o) ∧ (isMgmt 0x0008 o.desc = true) ∧ (s.upState ≠ upHANDOVER)) :=
  ⟨⟨{ up with time := { up.time with sec := 0x123456789, ns := 999999999, frac := 0xFFFFFFFF } }, 1, by decide +kernel⟩,
    ⟨up, 2, by decide +kernel⟩,
    ⟨up, -5, by decide +kernel⟩,
    ⟨up, -5, by decide +kernel⟩,
    ⟨up.setFlag Reg.TIM_STATUS_TRACK 0 true, -10000000000, by decide +kernel⟩,
    ⟨(((up.setFlag Reg.TIM_STATUS_TRACK 0 true).setFlag Reg.TIM_STATUS_JUMP_PENDING 0 true).setCandidate (-10000000000)).setFld Reg.TIM_STATUS_CONSIST_COUNT 0 15, -10000000000, by decide +kernel⟩,
    ⟨withOp (mgmtDesc 0xe 0), ⟨0, 0⟩, theOp (mgmtDesc 0xe 0), by decide +kernel⟩,
    ⟨(((withOp (mgmtDesc 0xe 0)).setFlag Reg.TIM_STATUS_ARMED 0 true).setCandidate 5000), ⟨0, 0⟩, theOp (mgmtDesc 0xe 0), by decide +kernel⟩,
    ⟨{ up with time := { up.time with sec := 7, ns := 9 } }.setFlag Reg.TIM_PPS_CFG_IN_EN 0 true, by decide +kernel⟩,
    ⟨up, 0, by decide +kernel⟩,
    ⟨up.setFlag Reg.TIM_PPS_CFG_OUT_EN 0 true, by decide +kernel⟩,
    ⟨up, by decide +kernel⟩,
    ⟨up, ⟨0, 5, .sync, 0⟩, by decide +kernel⟩,
    ⟨up, ⟨576, 0, .announce, 0⟩, by decide +kernel⟩,
    ⟨up.setPortSt 3 { up := true }, ⟨3, 0, .delayReq, 5⟩, false, by decide +kernel⟩,
    ⟨up, by decide +kernel⟩,
    ⟨up.setFld Reg.MGT_UPDATE_STATUS_STATE 0 5, ⟨0, 0⟩, none, by decide +kernel⟩,
    ⟨withOp (mgmtDesc 0x8 0), ⟨0, 0⟩, theOp (mgmtDesc 0x8 0), none, by decide +kernel⟩⟩

theorem witness_FeedRows :
    (∃ (s : State) (g line : Nat), (s.coreOff = false) ∧ (s.groupSt g ≠ gsOFF) ∧ (line < 17) ∧ (line ∉ (s.grp g).low)) ∧
    (∃ (s : State) (g line : Nat), (s.coreOff = false) ∧ (s.groupSt g = gsACQUIRING ∨ s.groupSt g = gsUP ∨ s.groupSt g = gsID_MISMATCH) ∧ (line < 17) ∧ ((s.grp g).low = []) ∧ (((s.optDir g false).bind.getD line 31) ≠ 31) ∧ (line ≠ (s.optDir g false).spare) ∧ ((s.optDir g false).spare ≠ 31) ∧ ((s.optDir g false).holder = none) ∧ ((s.optDir g false).waiting = []) ∧ ((s.optDir g false).remap = none)) ∧
    (∃ (s : State) (g line : Nat), s.groupSt g = gsOFF ∨ 17 ≤ line ∨ line ∈ (s.grp g).low) ∧
    (∃ (s : State) (g line : Nat), (s.coreOff = false) ∧ (line ∈ (s.grp g).low)) ∧
    (∃ (s : State) (g line : Nat), line ∉ (s.grp g).low) ∧
    (∃ (s : State) (g : Nat) (lines : List Nat), (s.coreOff = false) ∧ (s.groupSt g ≠ gsOFF) ∧ (s.groupSt g ≠ gsFEED_LOST) ∧ (2 ≤ lines.length)) ∧
    (∃ (s : State) (g : Nat) (lines : List Nat), s.groupSt g = gsOFF ∨ s.groupSt g = gsFEED_LOST ∨ lines.length < 2) ∧
    (∃ (s : State) (g : Nat), (s.coreOff = false) ∧ (s.groupSt g = gsFEED_LOST)) ∧
    (∃ (s : State) (g : Nat), s.groupSt g ≠ gsFEED_LOST) ∧
    (∃ (s : State) (g : Nat), (s.coreOff = false) ∧ (s.groupSt g = gsWATCH)) ∧
    (∃ (s : State) (g : Nat), (s.coreOff = false) ∧ (s.groupSt g = gsWATCH) ∧ ((s.grp g).light < 2 ∨ g ∈ s.bypassedGroups)) ∧
    (∃ (s : State) (g : Nat), (s.groupSt g = gsWATCH) ∧ (2 ≤ (s.grp g).light) ∧ (g ∉ s.bypassedGroups) ∧ (s.groupMayRun g = true)) ∧
    (∃ (s : State) (g : Nat) (above : Bool), s.groupSt g ≠ gsWATCH) :=
  ⟨⟨(lit 3 gsUP).onGrp 3 fun x => { x with low := [2] }, 3, 16, by decide +kernel⟩,
    ⟨(lit 3 gsUP), 3, 5, by decide +kernel⟩,
    ⟨up, 3, 16, by decide +kernel⟩,
    ⟨(lit 3 gsUP).onGrp 3 fun x => { x with low := [2] }, 3, 2, by decide +kernel⟩,
    ⟨up, 3, 2, by decide +kernel⟩,
    ⟨lit 63 gsUP, 63, [0, 16], by decide +kernel⟩,
    ⟨lit 63 gsUP, 63, [0], by decide +kernel⟩,
    ⟨lit 63 gsFEED_LOST, 63, by decide +kernel⟩,
    ⟨lit 63 gsUP, 63, by decide +kernel⟩,
    ⟨lit 63 gsWATCH, 63, by decide +kernel⟩,
    ⟨lit 63 gsWATCH, 63, by decide +kernel⟩,
    ⟨(lit 63 gsWATCH).onGrp 63 fun x => { x with light := 2 }, 63, by decide +kernel⟩,
    ⟨lit 63 gsUP, 63, true, by decide +kernel⟩⟩

theorem witness_MarkerRows :
    (∃ (s : State) (g c skew : Nat) (b : Bytes), (s.coreOff = false) ∧ (s.groupSt g = gsACQUIRING ∨ s.groupSt g = gsUP ∨ s.groupSt g = gsID_MISMATCH) ∧ (c < 17) ∧ (markerOf b = none) ∧ ((s.och g c).bad < 3 ∨ s.rxLocked g c = false)) ∧
    (∃ (s : State) (g c skew : Nat) (b : Bytes), (s.coreOff = false) ∧ (s.groupSt g = gsACQUIRING ∨ s.groupSt g = gsUP ∨ s.groupSt g = gsID_MISMATCH) ∧ (c < 17) ∧ (markerOf b = none) ∧ (3 ≤ (s.och g c).bad) ∧ (s.rxLocked g c = true)) ∧
    (∃ (s : State) (g c skew : Nat) (b : Bytes) (m : Marker), (s.coreOff = false) ∧ (s.groupSt g = gsID_MISMATCH) ∧ (c < 17) ∧ (skew ≤ 200) ∧ (markerOf b = some m) ∧ (m.chan = c) ∧ (1 ≤ (s.och g c).good) ∧ ((s.och g c).rxRing = true)) ∧
    (∃ (s : State) (g c skew : Nat) (b : Bytes) (m : Marker), (s.coreOff = false) ∧ (s.groupSt g = gsACQUIRING ∨ s.groupSt g = gsUP ∨ s.groupSt g = gsID_MISMATCH) ∧ (c < 17) ∧ (200 < skew) ∧ (markerOf b = some m) ∧ (s.rxLocked g c = true)) ∧
    (∃ (s : State) (g c skew : Nat) (b : Bytes), s.groupSt g = gsOFF ∨ s.groupSt g = gsWATCH ∨ s.groupSt g = gsFEED_LOST ∨ 17 ≤ c) ∧
    (∃ (s : State) (g : Nat), (s.coreOff = false) ∧ (s.groupSt g = gsID_MISMATCH) ∧ (s.allAligned g = true) ∧ (s.identityOk g = true)) ∧
    (∃ (s : State) (g : Nat), s.groupSt g ≠ gsID_MISMATCH ∨ s.allAligned g = false ∨ s.identityOk g = false) ∧
    (∃ (s : State) (g c : Nat) (rx : Bool), (s.coreOff = false) ∧ (s.groupSt g = gsUP) ∧ ((if rx then s.rxLocked g c else s.flag Reg.OPT_LANE_STATUS_TX_LOCK (chanInst g c)) = true) ∧ (s.chanSt g c ≠ csRETIRED)) ∧
    (∃ (s : State) (g c : Nat) (rx : Bool), s.groupSt g ≠ gsUP ∨ (if rx then s.rxLocked g c else s.flag Reg.OPT_LANE_STATUS_TX_LOCK (chanInst g c)) = false) ∧
    (∃ (s : State) (g c err code : Nat), (s.coreOff = false) ∧ (c < 17) ∧ (s.groupSt g ≠ gsOFF) ∧ (err < 2500) ∧ (205 ≤ code) ∧ (code ≤ 3890) ∧ (99 ≤ (s.och g c).txIn)) ∧
    (∃ (s : State) (g c err code : Nat), (s.coreOff = false) ∧ (c < 17) ∧ (s.groupSt g ≠ gsOFF) ∧ (err < 2500) ∧ (205 ≤ code) ∧ (code ≤ 3890) ∧ (99 ≤ (s.och g c).rxIn)) ∧
    (∃ (s : State) (g c err code : Nat), (s.coreOff = false) ∧ (c < 17) ∧ (s.groupSt g ≠ gsOFF) ∧ (8000 < err) ∧ (9 ≤ (s.och g c).txOut)) ∧
    (∃ (s : State) (g c err code : Nat), (s.coreOff = false) ∧ (c < 17) ∧ (s.groupSt g ≠ gsOFF) ∧ (8000 < err) ∧ (9 ≤ (s.och g c).rxOut) ∧ ((s.och g c).rxRing = true)) ∧
    (∃ (s : State) (g c err code : Nat), (s.coreOff = false) ∧ (c < 17) ∧ (s.groupSt g ≠ gsOFF) ∧ (err ≤ 8000) ∧ (code < 205) ∧ (s.flag Reg.OPT_LANE_STATUS_TX_LOCK (chanInst g c) = true)) ∧
    (∃ (s : State) (g c err code : Nat) (rx : Bool), 17 ≤ c ∨ s.groupSt g = gsOFF) ∧
    (∃ (s : State) (g c code : Nat), (s.coreOff = false) ∧ (s.groupSt g = gsACQUIRING) ∧ (c < 17)) ∧
    (∃ (s : State) (g c code : Nat), (s.coreOff = false) ∧ (s.groupSt g = gsACQUIRING) ∧ (c < 17)) ∧
    (∃ (s : State) (g c code : Nat) (rx : Bool), (s.coreOff = false) ∧ (s.groupSt g = gsACQUIRING) ∧ (c < 17) ∧ ((if rx then (s.och g c).rxSweeps else (s.och g c).txSweeps) = 0)) ∧
    (∃ (s : State) (g c code : Nat) (rx : Bool), (s.coreOff = false) ∧ (s.groupSt g = gsACQUIRING) ∧ (c < 17) ∧ ((if rx then (s.och g c).rxSweeps else (s.och g c).txSweeps) ≠ 0)) ∧
    (∃ (s : State) (g c code : Nat), (s.coreOff = false) ∧ (s.groupSt g = gsACQUIRING) ∧ (c < 17) ∧ (1 ≤ (s.och g c).rxSweeps) ∧ (((List.range 17).all fun j => j == c || decide (2 ≤ (s.och g j).rxSweeps)) = true)) ∧
    (∃ (s : State) (g c code : Nat) (rx locked : Bool), s.groupSt g ≠ gsACQUIRING ∨ 17 ≤ c) ∧
    (∃ (s : State) (g c lost : Nat) (words : List Nat), (s.coreOff = false) ∧ (c < 17) ∧ (s.rxLocked g c = true) ∧ (words.length = 272)) ∧
    (∃ (s : State) (g c lost : Nat) (words : List Nat), 17 ≤ c ∨ s.rxLocked g c = false) ∧
    (∃ (s : State) (l lost : Nat) (syms : List Nat), (s.coreOff = false) ∧ (s.laneSt l = 3) ∧ (syms.length = 544)) ∧
    (∃ (s : State) (l lost : Nat) (syms : List Nat), s.laneSt l ≠ 3) :=
  ⟨⟨lit 3 gsUP, 3, 16, 0, [], by decide +kernel⟩,
    ⟨(lit 3 gsUP).setOch 3 16 { bad := 3 }, 3, 16, 0, [], by decide +kernel⟩,
    ⟨((lit 3 gsID_MISMATCH).setFlag Reg.OPT_LANE_STATUS_RX_LOCK (chanInst 3 5) false).setOch 3 5 { good := 1, rxRing := true }, 3, 5, 200, mark 5 9, ⟨5, 5, 0, 7, 9, 9, 0⟩, by decide +kernel⟩,
    ⟨lit 3 gsID_MISMATCH, 3, 5, 201, mark 5 9, ⟨5, 5, 0, 7, 9, 9, 0⟩, by decide +kernel⟩,
    ⟨lit 3 gsWATCH, 3, 5, 0, mark 5 9, by decide +kernel⟩,
    ⟨lit 3 gsID_MISMATCH, 3, by decide +kernel⟩,
    ⟨lit 3 gsUP, 3, by decide +kernel⟩,
    ⟨((lit 3 gsUP).setChanSt 3 5 csALIAS).onGrp 3 fun x => { x with aliases := [(5, 6)] }, 3, 5, true, by decide +kernel⟩,
    ⟨lit 3 gsUP, 3, 5, false, by decide +kernel⟩,
    ⟨(lit 3 gsUP).setOch 3 5 { txIn := 99 }, 3, 5, 2499, 3890, by decide +kernel⟩,
    ⟨(lit 3 gsUP).setOch 3 5 { rxIn := 99 }, 3, 5, 2499, 3890, by decide +kernel⟩,
    ⟨((lit 3 gsUP).setOch 3 5 { txOut := 9 }).setFlag Reg.OPT_LANE_STATUS_TX_LOCK (chanInst 3 5) true, 3, 5, 8001, 3890, by decide +kernel⟩,
    ⟨(lit 3 gsUP).setOch 3 5 { rxOut := 9, rxRing := true }, 3, 5, 8001, 3890, by decide +kernel⟩,
    ⟨(lit 3 gsUP).setFlag Reg.OPT_LANE_STATUS_TX_LOCK (chanInst 3 16) true, 3, 16, 0, 204, by decide +kernel⟩,
    ⟨up, 3, 16, 0, 204, true, by decide +kernel⟩,
    ⟨up.setGroupSt 3 gsACQUIRING, 3, 16, 77, by decide +kernel⟩,
    ⟨up.setGroupSt 3 gsACQUIRING, 3, 16, 4096, by decide +kernel⟩,
    ⟨up.setGroupSt 3 gsACQUIRING, 3, 16, 0, true, by decide +kernel⟩,
    ⟨(up.setGroupSt 3 gsACQUIRING).setOch 3 16 { txSweeps := 1 }, 3, 16, 0, false, by decide +kernel⟩,
    ⟨(List.range 17).foldl (fun s c => s.setOch 3 c { rxSweeps := if c = 16 then 1 else 2 }) (up.setGroupSt 3 gsACQUIRING), 3, 16, 0, by decide +kernel⟩,
    ⟨up, 3, 16, 0, true, true, by decide +kernel⟩,
    ⟨lit 3 gsUP, 3, 16, 70000, List.replicate 272 0, by decide +kernel⟩,
    ⟨up, 3, 16, 1, [], by decide +kernel⟩,
    ⟨up.setLaneSt 63 3, 63, 0, 1 :: List.replicate 543 0, by decide +kernel⟩,
    ⟨up, 63, 0, [], by decide +kernel⟩⟩

theorem witness_LaneControlRows :
    (∃ (s : State) (g seq arg : Nat), (s.coreOff = false) ∧ (s.lccHeard g 1 seq arg = true) ∧ (argDst arg < 17) ∧ (argLane arg < 16) ∧ (argSrc arg ≠ 31) ∧ ((s.optDir g true).bind.getD (argSrc arg) 31 = argLane arg) ∧ (s.chanSt g (argDst arg) ≠ csRETIRED) ∧ ((s.optDir g true).remap = none) ∧ ((s.optDir g true).bind.getD (argDst arg) 31 = 31)) ∧
    (∃ (s : State) (g seq arg : Nat), (s.coreOff = false) ∧ (s.lccHeard g 1 seq arg = true) ∧ (argDst arg < 17) ∧ (argLane arg < 16) ∧ (argSrc arg ≠ 31) ∧ ((s.optDir g false).bind.getD (argSrc arg) 31 = argLane arg) ∧ (s.chanSt g (argDst arg) ≠ csRETIRED) ∧ ((s.optDir g false).remap = none) ∧ (argDst arg = (s.optDir g false).spare) ∧ ((s.optDir g false).holder = none)) ∧
    (∃ (s : State) (g seq arg : Nat) (asks : Bool), (s.lccHeard g 1 seq arg = true) ∧ (17 ≤ argDst arg ∨ 16 ≤ argLane arg ∨ s.chanSt g (argDst arg) = csRETIRED)) ∧
    (∃ (s : State) (g typ seq arg : Nat) (asks : Bool) (c : Instr), (s.lccHeard g typ seq arg = false) ∧ ((typ, c) ∈ [(1, Instr.lccRemapReq g asks seq arg), (2, .lccRemapAck g seq arg), (3, .lccTxAlias g seq arg), (4, .lccCalDone g seq arg)])) ∧
    (∃ (s : State) (g seq arg : Nat) (r : Remap), (s.coreOff = false) ∧ (s.lccHeard g 2 seq arg = true) ∧ ((s.optDir g true).remap = none) ∧ ((s.optDir g false).remap = some r) ∧ (r.asked = true) ∧ (r.acked = false) ∧ (remapArg r = arg) ∧ (8 ≤ (r.mcnt + 256 - s.mcnt) % 256) ∧ ((r.mcnt + 256 - s.mcnt) % 256 ≤ 200)) ∧
    (∃ (s : State) (g seq arg : Nat) (r : Remap), (s.coreOff = false) ∧ (s.lccHeard g 2 seq arg = true) ∧ ((s.optDir g true).remap = none) ∧ ((s.optDir g false).remap = some r) ∧ (r.asked = true) ∧ (r.acked = false) ∧ (remapArg r = arg) ∧ ((r.mcnt + 256 - s.mcnt) % 256 < 8 ∨ 200 < (r.mcnt + 256 - s.mcnt) % 256)) ∧
    (∃ (s : State) (g seq arg c : Nat), (s.coreOff = false) ∧ (s.lccHeard g 3 seq arg = true) ∧ ((s.optDir g false).chanOf (argLane arg) = some c) ∧ (s.spareUsable g false = true) ∧ (c ≠ (s.optDir g false).spare) ∧ ((s.optDir g false).holder = none) ∧ ((s.optDir g false).waiting = [])) ∧
    (∃ (s : State) (g seq arg : Nat), (s.coreOff = false) ∧ (s.lccHeard g 4 seq arg = true) ∧ ((s.grp g).calibrating = true) ∧ ((s.grp g).calHere = false) ∧ (bitsOf arg 14 5 = (s.optDir g false).spare)) ∧
    (∃ (s : State) (g seq arg c : Nat), (s.coreOff = false) ∧ (s.lccHeard g 4 seq arg = true) ∧ ((s.grp g).calibrating = true) ∧ ((s.grp g).calHere = true) ∧ (bitsOf arg 14 5 = (s.optDir g false).spare) ∧ ((s.optDir g false).nextFeather = some c)) ∧
    (∃ (s : State) (g : Nat), s.coreOff = false) ∧
    (∃ (s : State) (g : Nat) (rx inTime : Bool) (r : Remap), (s.coreOff = false) ∧ ((s.optDir g rx).remap = some r) ∧ (r.asked = true) ∧ (r.acked = false)) ∧
    (∃ (s : State) (g : Nat) (rx : Bool) (r : Remap), (s.coreOff = false) ∧ ((s.optDir g rx).remap = some r) ∧ (r.asked = false)) ∧
    (∃ (s : State) (g : Nat) (rx inTime : Bool) (r : Remap), (s.coreOff = false) ∧ ((s.optDir g rx).remap = some r) ∧ ((if r.asked then r.acked else inTime) = true) ∧ ((s.optDir g rx).waiting = []) ∧ ((s.optDir g rx).back = [])) ∧
    (∃ (s : State) (g : Nat) (inTime : Bool) (r : Remap) (h : SpareNeed), (s.coreOff = false) ∧ ((s.optDir g false).remap = some r) ∧ ((if r.asked then r.acked else inTime) = true) ∧ ((s.optDir g false).waiting = []) ∧ ((s.optDir g false).back = []) ∧ ((s.optDir g false).holder = some h) ∧ (h.use = SpareUse.feather) ∧ (r.src ≠ (s.optDir g false).spare) ∧ (r.src < 17) ∧ (r.dst < 17) ∧ (r.src ≠ r.dst) ∧ (s.chanSt g r.src ≠ csRETIRED) ∧ (s.chanSt g r.dst ≠ csRETIRED)) ∧
    (∃ (s : State) (g : Nat) (rx inTime : Bool), (s.optDir g rx).remap = none) ∧
    (∃ (s : State) (g : Nat), (s.coreOff = false) ∧ (s.groupSt g = gsUP) ∧ (s.flag Reg.OPT_PG_CFG_FEATHER g = true) ∧ ((s.optDir g false).spare ≠ 31) ∧ ((s.optDir g false).holder = none) ∧ ((s.optDir g false).remap = none) ∧ ((s.grp g).calibrating = false)) ∧
    (∃ (s : State) (g : Nat), s.groupSt g ≠ gsUP ∨ s.flag Reg.OPT_PG_CFG_FEATHER g = false ∨ (s.optDir g false).spare = 31 ∨ (s.optDir g false).holder ≠ none ∨ (s.optDir g false).remap ≠ none ∨ (s.grp g).calibrating = true) ∧
    (∃ (s : State) (g c : Nat), (s.coreOff = false) ∧ (s.groupSt g = gsUP) ∧ ((s.grp g).calibrating = true) ∧ ((s.grp g).calFar = false)) ∧
    (∃ (s : State) (g c : Nat), (s.coreOff = false) ∧ (s.groupSt g = gsUP) ∧ (c = (s.optDir g true).spare) ∧ ((s.och g c).bits / 32640 * 1542 < 10000000000)) ∧
    (∃ (s : State) (g c : Nat), (s.coreOff = false) ∧ (s.groupSt g = gsUP) ∧ (c = (s.optDir g true).spare) ∧ (c < 17) ∧ (10000000000 ≤ (s.och g c).bits / 32640 * 1542) ∧ ((s.och g c).bits < (s.och g c).corrected * 10 ^ s.fld Reg.OPT_FEATHER_CFG_RETIRE_EXP) ∧ (2 ≤ s.fld Reg.OPT_LANE_STATUS_HIGH_CAL (chanInst g c)) ∧ (((List.range 17).all fun i => s.chanSt g i != csRETIRED) = true)) ∧
    (∃ (s : State) (g c : Nat) (rx : Bool), s.groupSt g ≠ gsUP) :=
  ⟨⟨heard 3 1 4 (5 * 2 ^ 19 + 5 * 2 ^ 14 + 16 * 2 ^ 9 + 7) (lit 3 gsUP), 3, 4, 5 * 2 ^ 19 + 5 * 2 ^ 14 + 16 * 2 ^ 9 + 7, by decide +kernel⟩,
    ⟨heard 3 1 4 (5 * 2 ^ 19 + 5 * 2 ^ 14 + 16 * 2 ^ 9 + 7) (lit 3 gsUP), 3, 4, 5 * 2 ^ 19 + 5 * 2 ^ 14 + 16 * 2 ^ 9 + 7, by decide +kernel⟩,
    ⟨heard 3 1 4 (17 * 2 ^ 9) (lit 3 gsUP), 3, 4, 17 * 2 ^ 9, true, by decide +kernel⟩,
    ⟨lit 3 gsUP, 3, 2, 4, 9, true, .lccRemapAck 3 4 9, by decide +kernel⟩,
    ⟨heard 3 2 4 (remapArg { lane := 5, src := 5, dst := 16, mcnt := 200 }) ((lit 3 gsUP).setOptDir 3 false { remap := some { lane := 5, src := 5, dst := 16, mcnt := 200 } }), 3, 4, remapArg { lane := 5, src := 5, dst := 16, mcnt := 200 }, { lane := 5, src := 5, dst := 16, mcnt := 200 }, by decide +kernel⟩,
    ⟨heard 3 2 4 (remapArg { lane := 5, src := 5, dst := 16, mcnt := 7 }) ((lit 3 gsUP).setOptDir 3 false { remap := some { lane := 5, src := 5, dst := 16, mcnt := 7 } }), 3, 4, remapArg { lane := 5, src := 5, dst := 16, mcnt := 7 }, { lane := 5, src := 5, dst := 16, mcnt := 7 }, by decide +kernel⟩,
    ⟨heard 3 3 4 (5 * 2 ^ 19 + 6 * 2 ^ 14) (lit 3 gsUP), 3, 4, 5 * 2 ^ 19 + 6 * 2 ^ 14, 5, by decide +kernel⟩,
    ⟨heard 3 4 4 (16 * 2 ^ 14) ((lit 3 gsUP).onGrp 3 fun x => { x with calibrating := true }), 3, 4, 16 * 2 ^ 14, by decide +kernel⟩,
    ⟨heard 3 4 4 (16 * 2 ^ 14) ((lit 3 gsUP).onGrp 3 fun x => { x with calibrating := true, calHere := true }), 3, 4, 16 * 2 ^ 14, 0, by decide +kernel⟩,
    ⟨up.onGrp 3 fun x => { x with lccOut := [⟨1, 2, 3⟩, ⟨3, 4, 5⟩] }, 3, by decide +kernel⟩,
    ⟨(lit 3 gsUP).setOptDir 3 true { remap := some { lane := 5, src := 5, dst := 16, mcnt := 200 } }, 3, true, false, { lane := 5, src := 5, dst := 16, mcnt := 200 }, by decide +kernel⟩,
    ⟨(lit 3 gsUP).setOptDir 3 true { remap := some { lane := 5, src := 5, dst := 16, mcnt := 200, asked := false, acked := true } }, 3, true, { lane := 5, src := 5, dst := 16, mcnt := 200, asked := false, acked := true }, by decide +kernel⟩,
    ⟨(lit 3 gsUP).setOptDir 3 true { remap := some { lane := 5, src := 5, dst := 16, mcnt := 200, acked := true } }, 3, true, false, { lane := 5, src := 5, dst := 16, mcnt := 200, acked := true }, by decide +kernel⟩,
    ⟨(lit 3 gsUP).setOptDir 3 false { holder := some ⟨.feather, 5, 5⟩, remap := some { lane := 5, src := 5, dst := 16, mcnt := 200, acked := true } }, 3, false, { lane := 5, src := 5, dst := 16, mcnt := 200, acked := true }, ⟨.feather, 5, 5⟩, by decide +kernel⟩,
    ⟨up, 3, true, true, by decide +kernel⟩,
    ⟨(lit 3 gsUP).setFlag Reg.OPT_PG_CFG_FEATHER 3 true, 3, by decide +kernel⟩,
    ⟨up, 3, by decide +kernel⟩,
    ⟨(lit 3 gsUP).onGrp 3 fun x => { x with calibrating := true }, 3, 16, by decide +kernel⟩,
    ⟨(lit 3 gsUP).setOch 3 16 { bits := 1000000, corrected := 10, rxHeater := 5 }, 3, 16, by decide +kernel⟩,
    ⟨((lit 3 gsUP).setOch 3 16 { bits := 300000000000, corrected := 300000000000, rxHeater := 5 }).setFld Reg.OPT_LANE_STATUS_HIGH_CAL (chanInst 3 16) 2, 3, 16, by decide +kernel⟩,
    ⟨up, 3, 16, true, by decide +kernel⟩⟩

theorem witness_ElectricalRows :
    (∃ (s : State) (l : Nat), (s.laneOn l = true) ∧ (s.laneSt l = 4)) ∧
    (∃ (s : State) (l : Nat), (s.laneOn l = true) ∧ (s.laneSt l = 2) ∧ (s.fld Reg.ELN_OCT_CFG_KIND (l / 8) = 1)) ∧
    (∃ (s : State) (l : Nat), s.laneOn l = false ∨ (s.laneSt l ≠ 4 ∧ (s.laneSt l ≠ 2 ∨ s.fld Reg.ELN_OCT_CFG_KIND (l / 8) ≠ 1))) ∧
    (∃ (s : State) (l : Nat), (s.laneOn l = true) ∧ (s.power.forced.find (4, l) ≠ some 2) ∧ (s.laneSt l = 1 ∨ s.laneSt l = 5)) ∧
    (∃ (s : State) (l : Nat) (found : Bool), found = false ∨ s.laneOn l = false ∨ s.power.forced.find (4, l) = some 2 ∨ (s.laneSt l ≠ 1 ∧ s.laneSt l ≠ 5)) ∧
    (∃ (s : State) (p : Nat), (s.coreOff = false) ∧ (9 ≤ s.stage) ∧ (p < 512) ∧ (s.portUp p = false) ∧ (s.groupSt (p / 8) = gsUP) ∧ (p % 8 * s.portLanes p < 16) ∧ ((∀ i < s.portLanes p, p % 8 * s.portLanes p + i ∉ (s.grp (p / 8)).lanesDown)) ∧ (s.portBypassed p = false)) ∧
    (∃ (s : State) (p : Nat), (s.coreOff = false) ∧ (9 ≤ s.stage) ∧ (512 ≤ p) ∧ (p < 576) ∧ (s.portUp p = false) ∧ (s.laneGroup (p - 512) = none) ∧ (s.elPort (p - 512) = true) ∧ ((∀ l ∈ s.elanes p, s.laneSt l = 2 ∨ s.laneSt l = 4))) ∧
    (∃ (s : State) (p g : Nat), (9 ≤ s.stage) ∧ (512 ≤ p) ∧ (p < 576) ∧ (s.portUp p = false) ∧ (s.laneGroup (p - 512) = some g) ∧ (s.laneOn (p - 512) = true) ∧ (s.laneSt (p - 512) = 2 ∨ s.laneSt (p - 512) = 4)) ∧
    (∃ (s : State) (p : Nat), s.portUp p = true) ∧
    (∃ (s : State) (p : Nat), (p < 512 ∨ s.laneGroup (p - 512) = none) ∧ (s.portUp p = true ∨ s.stage < 9 ∨ 576 ≤ p ∨ (p < 512 ∧ s.groupSt (p / 8) ≠ gsUP))) ∧
    (∃ (s : State) (p : Nat), (s.coreOff = false) ∧ (p < 512 ∨ s.laneGroup (p - 512) = none) ∧ (s.portUp p = true)) ∧
    (∃ (s : State) (p : Nat), (p < 512 ∨ s.laneGroup (p - 512) = none) ∧ (s.portUp p = false)) ∧
    (∃ (s : State) (p g : Nat), (s.coreOff = false) ∧ (512 ≤ p) ∧ (s.laneGroup (p - 512) = some g) ∧ (s.laneSt (p - 512) = 3)) :=
  ⟨⟨(up.setFld Reg.ELN_OCT_CFG_ENABLE 7 0xFF).setLaneSt 63 4, 63, by decide +kernel⟩,
    ⟨{ ((up.setFld Reg.ELN_OCT_CFG_ENABLE 7 0xFF).setFld Reg.ELN_OCT_CFG_KIND 7 1).setLaneSt 63 2 with lanes := { trainFails := [(63, 2)] } }, 63, by decide +kernel⟩,
    ⟨up, 63, by decide +kernel⟩,
    ⟨(up.setFld Reg.ELN_OCT_CFG_ENABLE 7 0xFF).setLaneSt 63 1, 63, by decide +kernel⟩,
    ⟨up, 63, true, by decide +kernel⟩,
    ⟨lit 63 gsUP, 504, by decide +kernel⟩,
    ⟨(up.setFld Reg.ELN_OCT_CFG_ENABLE 7 0xFF) |> fun s => (s.elanes 568).foldl (fun s l => s.setLaneSt l 2) s, 568, by decide +kernel⟩,
    ⟨((up.setFld Reg.ELN_OCT_CFG_ENABLE 7 0xFF).setReg ⟨.eln, 8, 7⟩ 0x83).setLaneSt 56 2, 568, 3, by decide +kernel⟩,
    ⟨up.setPortSt 5 { up := true }, 5, by decide +kernel⟩,
    ⟨up, 5, by decide +kernel⟩,
    ⟨up.setPortSt 511 { up := true }, 511, by decide +kernel⟩,
    ⟨up, 511, by decide +kernel⟩,
    ⟨((up.setFld Reg.ELN_OCT_CFG_ENABLE 7 0xFF).setReg ⟨.eln, 8, 7⟩ 0x83).setLaneSt 56 3, 568, 3, by decide +kernel⟩⟩

theorem witness_SettRows :
    (∃ (s : State) (q n : Nat) (p : SettState), (s.coreOff = false) ∧ (s.settGrants q = true) ∧ (s.sett.take (s.reqDie q) = some (n, p)) ∧ (s.settUsed q < 2 ^ 20 - 1)) ∧
    (∃ (s : State) (q : Nat), (s.coreOff = false) ∧ (s.settGrants q = false ∨ s.sett.take (s.reqDie q) = none)) ∧
    (∃ (s : State) (n : Nat), 2 * dieSetts ≤ n) ∧
    (∃ (s : State) (n : Nat), (s.coreOff = false) ∧ (n < 2 * dieSetts) ∧ (s.sett.setts.find n = none)) ∧
    (∃ (s : State) (n : Nat) (e : Sett), (s.coreOff = false) ∧ (n < 2 * dieSetts) ∧ (s.sett.setts.find n = some e) ∧ (1 < e.refs)) ∧
    (∃ (s : State) (n : Nat) (e : Sett), (s.coreOff = false) ∧ (n < 2 * dieSetts) ∧ (s.tpt.parked = []) ∧ (s.sett.setts.find n = some e) ∧ (e.refs ≤ 1)) :=
  ⟨⟨(up.setFld Reg.SETT_QMAX_SETTS 153 5), 153, dieSetts, { up.sett with nextStern := 1 }, by decide +kernel⟩,
    ⟨up, 154, by decide +kernel⟩,
    ⟨up, 1572864, by decide +kernel⟩,
    ⟨up, 1572863, by decide +kernel⟩,
    ⟨{ up with sett := { up.sett with setts := [(7, ⟨3, 2⟩)] } }, 7, ⟨3, 2⟩, by decide +kernel⟩,
    ⟨{ up with sett := { up.sett with setts := [(7, ⟨3, 1⟩)] } }.setFld Reg.SETT_STAT_USE_USED 3 4, 7, ⟨3, 1⟩, by decide +kernel⟩⟩

theorem witness_PacketRows :
    (∃ (s : State) (port : Nat) (frame : Bytes), 576 ≤ port ∨ s.portUp port = false) ∧
    (∃ (s : State) (port : Nat) (frame : Bytes), (s.coreOff = false) ∧ (s.portUp port = true) ∧ (s.pipelineSlow port = true)) ∧
    (∃ (s : State) (port : Nat) (frame : Bytes), (s.coreOff = false) ∧ (port < 576) ∧ (s.portUp port = true) ∧ (s.encrypts port = false) ∧ (s.pipelineSlow port = false) ∧ (s.tpt.parked = [])) ∧
    (∃ (s : State) (port nh target : Nat) (frame h : Bytes) (setts : List Nat) (s1 : State) (p : Parsed), (s.coreOff = false) ∧ (port < 576) ∧ (s.portUp port = true) ∧ (s.encrypts port = false) ∧ (s.pipelineSlow port = false) ∧ (s.settStore (reqPort port) frame = (some setts, s1)) ∧ (parseFrame (s.fld Reg.SWC_PARSE_CFG_OUTER_TPID) frame = .ip p false) ∧ (s.fencedOk port (some p) = true) ∧ (s.isLocal p = false) ∧ (s.routeFor p = some nh) ∧ (s.tabRec 0x12 nh = some h) ∧ (getLE h 0x08 1 = 1) ∧ (getLE h 0x0A 2 = target) ∧ (1 < p.hop) ∧ (s.flag Reg.TMS_POL_CFG_ENABLE (port * 8 + s.trafficClass port p.pcp (some p.dscp)) = false) ∧ (s.portUp target = true) ∧ (s.fencedOk target (some p) = true) ∧ (s.queueClass (target * 8 + s.trafficClass port p.pcp (some p.dscp)) ≤ 1)) ∧
    (∃ (s : State) (port : Nat) (errs : List SettErr), (s.coreOff = false) ∧ (port < 576) ∧ (s.tpt.parked = []) ∧ (s.portUp port = true) ∧ (s.encrypts port = false) ∧ (s.llrOn port = false)) ∧
    (∃ (s : State) (port : Nat) (errs : List SettErr), 576 ≤ port ∨ s.portUp port = false ∨ (s.encrypts port = true ∧ (s.link port).tx.isNone = true)) ∧
    (∃ (s : State) (port : Nat) (errs : List SettErr), (s.coreOff = false) ∧ (port < 576) ∧ (s.portUp port = true) ∧ (s.encrypts port = false) ∧ (s.llrOn port = true) ∧ (s.fld Reg.TPT_LLR_CFG_MAX_OUT port ≤ (s.llrOf port).held.length) ∧ ((s.portSt port).window = [])) ∧
    (∃ (s : State), s.coreOff = false) ∧
    (∃ (s : State) (q : Nat), s.fld Reg.SWC_MC_CFG_AGE_US = 0 ∨ s.queueClass q ≤ 1 ∨ (s.outq q).deps.find? (fun d => d.multi && decide (s.fld Reg.SWC_MC_CFG_AGE_US * 5000 < (s.time.ticks - d.at_) * 4)) = none) ∧
    (∃ (s : State) (q : Nat) (d : Dep), (s.coreOff = false) ∧ (s.tpt.parked = []) ∧ (s.fld Reg.SWC_MC_CFG_AGE_US ≠ 0) ∧ (1 < s.queueClass q) ∧ ((s.outq q).deps.find? (fun d => d.multi && decide (s.fld Reg.SWC_MC_CFG_AGE_US * 5000 < (s.time.ticks - d.at_) * 4)) = some d)) :=
  ⟨⟨up, 575, [], by decide +kernel⟩,
    ⟨((up.setPortSt 8 { up := true }).setFlag Reg.PWR_VFLOOR_STATUS_PACE_FAIL 0 true).setFld Reg.PWR_PACE_VALUE_CUR_MTPS 1 1659, 8, [], by decide +kernel⟩,
    ⟨portOn 575, 575, eth 0x1234 [], by decide +kernel⟩,
    ⟨routed, 575, 3, 575, six, zeros 8 ++ [1, 0] ++ bytesLE 2 575 ++ zeros 4, (routed.settStore (reqPort 575) six).1.getD [], (routed.settStore (reqPort 575) six).2, { off := 14, v6 := true, pcp := none, dscp := 0, ecn := 0, hop := 64, src := zeros 15 ++ [1], dst := zeros 15 ++ [2], label := 0, proto := 59, ports := none }, by decide +kernel⟩,
    ⟨{ queued 4088 (portOn 511) with swc := { (queued 4088 (portOn 511)).swc with tab := [((0x13, 511), zeros 16)] } }, 511, [], by decide +kernel⟩,
    ⟨up, 575, [], by decide +kernel⟩,
    ⟨(((portOn 511).setFlag Reg.TPT_LLR_CFG_ENABLE 511 true).setFld Reg.TPT_LLR_CFG_MAX_OUT 511 0), 511, [], by decide +kernel⟩,
    ⟨up.setPortSt 5 { delay := 800, sojourn := some 100 }, by decide +kernel⟩,
    ⟨up, 4607, by decide +kernel⟩,
    ⟨{ ((up.setFld Reg.SWC_MC_CFG_AGE_US 0 1).setFld Reg.TMS_CLASS_MAP_CLASS 0 0xAAAA).setOutq 0 { deps := [{ frame := [], multi := true }] } with time := { up.time with ticks := 10 ^ 9 } }, 0, { frame := [], multi := true }, by decide +kernel⟩⟩

theorem witness_QueueRows :
    (∃ (s : State), (s.coreOff = false) ∧ (s.refillPending = []) ∧ ((s.swc.queues.map Prod.fst).Nodup) ∧ ((s.swc.policers.map Prod.fst).Nodup)) ∧
    (∃ (s : State), s.coreOff = false) :=
  ⟨⟨queued 5 (up.setOutq 5 { credit := -5 }), by decide +kernel⟩,
    ⟨up, by decide +kernel⟩⟩

theorem witness_BypassRows :
    (∃ (s : State) (op : OpKey) (o : Op), (s.Ready op o) ∧ (dKind o.desc = kindBYPASS) ∧ (bAction o.desc ≠ 1) ∧ (bAction o.desc ≠ 0 ∨ 999999999 < bEffectNs o.desc ∨ s.bypassPair o.desc = none)) ∧
    (∃ (s : State) (op : OpKey) (o : Op) (k : Nat) (r : Bytes), (s.Ready op o) ∧ (dKind o.desc = kindBYPASS) ∧ (bAction o.desc = 0) ∧ (bEffectNs o.desc ≤ 999999999) ∧ (s.bypassPair o.desc = some (k, r)) ∧ (k ∈ s.swc.bypassed ∨ (s.rig.rigs.any fun x => x.bypass == some k) = true)) ∧
    (∃ (s : State) (op : OpKey) (o : Op) (k : Nat) (r : Bytes), (s.Ready op o) ∧ (dKind o.desc = kindBYPASS) ∧ (bAction o.desc = 0) ∧ (bEffectNs o.desc ≤ 999999999) ∧ (s.bypassPair o.desc = some (k, r)) ∧ (k ∉ s.swc.bypassed) ∧ (s.rig.rigs = []) ∧ (s.reached (bEffect o.desc) = false)) ∧
    (∃ (s : State) (op : OpKey) (o : Op) (k : Nat) (r : Bytes), (s.Ready op o) ∧ (dKind o.desc = kindBYPASS) ∧ (bAction o.desc = 0) ∧ (bEffectNs o.desc ≤ 999999999) ∧ (s.bypassPair o.desc = some (k, r)) ∧ (k ∉ s.swc.bypassed) ∧ (s.rig.rigs = []) ∧ (s.reached (bEffect o.desc) = true) ∧ ((∀ p ∈ List.range 512, s.portUp p = false))) ∧
    (∃ (s : State) (op : OpKey) (o : Op), (s.Ready op o) ∧ (dKind o.desc = kindBYPASS) ∧ (bAction o.desc = 1) ∧ (999999999 < bEffectNs o.desc ∨ s.bypassPair o.desc = none)) ∧
    (∃ (s : State) (op : OpKey) (o : Op) (k : Nat) (r : Bytes), (s.Ready op o) ∧ (dKind o.desc = kindBYPASS) ∧ (bAction o.desc = 1) ∧ (bEffectNs o.desc ≤ 999999999) ∧ (s.bypassPair o.desc = some (k, r)) ∧ (k ∉ s.swc.bypassed)) ∧
    (∃ (s : State) (op : OpKey) (o : Op) (k : Nat) (r : Bytes), (s.Ready op o) ∧ (dKind o.desc = kindBYPASS) ∧ (bAction o.desc = 1) ∧ (bEffectNs o.desc ≤ 999999999) ∧ (s.bypassPair o.desc = some (k, r)) ∧ (k ∈ s.swc.bypassed) ∧ (s.reached (bEffect o.desc) = false)) ∧
    (∃ (s : State) (op : OpKey) (o : Op) (k : Nat) (r : Bytes), (s.Ready op o) ∧ (dKind o.desc = kindBYPASS) ∧ (bAction o.desc = 1) ∧ (bEffectNs o.desc ≤ 999999999) ∧ (s.bypassPair o.desc = some (k, r)) ∧ (k ∈ s.swc.bypassed) ∧ (s.reached (bEffect o.desc) = true) ∧ ((∀ p ∈ List.range 512, s.portUp p = false))) ∧
    (∃ (s : State) (op : OpKey) (o : Op) (k : Nat) (r : Bytes), (s.coreOff = false) ∧ (s.op? op = some o) ∧ (o.key = op) ∧ (o.phase = OpPhase.running) ∧ (o.hold = Hold.other) ∧ (dKind o.desc = kindBYPASS) ∧ (bAction o.desc = 1) ∧ (bEffectNs o.desc ≤ 999999999) ∧ (s.bypassPair o.desc = some (k, r)) ∧ (k ∈ s.swc.bypassed) ∧ (s.reached (bEffect o.desc) = true) ∧ ((∀ p ∈ List.range 512, s.portUp p = false))) ∧
    (∃ (s : State) (op : OpKey) (o : Op) (all left : List Nat), (s.coreOff = false) ∧ (s.swc.returns.find op = some (all, left)) ∧ (s.op? op = some o) ∧ (o.key = op) ∧ (o.lost = false) ∧ (op.slot ∈ (s.ring op.ring).taken) ∧ (s.reached (bEffect o.desc + 10000000000) = true)) ∧
    (∃ (s : State) (op : OpKey), s.swc.returns.find op = none) :=
  ⟨⟨withOp (bypassDesc 2 0), ⟨0, 0⟩, theOp (bypassDesc 2 0), by decide +kernel⟩,
    ⟨let s := withPair (withOp (bypassDesc 0 0)); { s with swc := { s.swc with bypassed := [5], bypassMarks := [(5, [3, 4])] } }, ⟨0, 0⟩, theOp (bypassDesc 0 0), 5, bytesLE 4 0x16 ++ bytesLE 4 5 ++ bytesLE 2 1 ++ bytesLE 2 2 ++ bytesLE 4 2 ++ [3, 4] ++ zeros 14, by decide +kernel⟩,
    ⟨withPair (withOp (bypassDesc 0 5)), ⟨0, 0⟩, theOp (bypassDesc 0 5), 5, bytesLE 4 0x16 ++ bytesLE 4 5 ++ bytesLE 2 1 ++ bytesLE 2 2 ++ bytesLE 4 2 ++ [3, 4] ++ zeros 14, by decide +kernel⟩,
    ⟨withPair (withOp (bypassDesc 0 0)), ⟨0, 0⟩, theOp (bypassDesc 0 0), 5, bytesLE 4 0x16 ++ bytesLE 4 5 ++ bytesLE 2 1 ++ bytesLE 2 2 ++ bytesLE 4 2 ++ [3, 4] ++ zeros 14, by decide +kernel⟩,
    ⟨withOp (bypassDesc 1 0), ⟨0, 0⟩, theOp (bypassDesc 1 0), by decide +kernel⟩,
    ⟨withPair (withOp (bypassDesc 1 0)), ⟨0, 0⟩, theOp (bypassDesc 1 0), 5, bytesLE 4 0x16 ++ bytesLE 4 5 ++ bytesLE 2 1 ++ bytesLE 2 2 ++ bytesLE 4 2 ++ [3, 4] ++ zeros 14, by decide +kernel⟩,
    ⟨let s := withPair (withOp (bypassDesc 1 5)); { s with swc := { s.swc with bypassed := [5], bypassMarks := [(5, [3, 4])] } }, ⟨0, 0⟩, theOp (bypassDesc 1 5), 5, bytesLE 4 0x16 ++ bytesLE 4 5 ++ bytesLE 2 1 ++ bytesLE 2 2 ++ bytesLE 4 2 ++ [3, 4] ++ zeros 14, by decide +kernel⟩,
    ⟨let s := withPair (withOp (bypassDesc 1 0)); { s with swc := { s.swc with bypassed := [5], bypassMarks := [(5, [3, 4])] } }, ⟨0, 0⟩, theOp (bypassDesc 1 0), 5, bytesLE 4 0x16 ++ bytesLE 4 5 ++ bytesLE 2 1 ++ bytesLE 2 2 ++ bytesLE 4 2 ++ [3, 4] ++ zeros 14, by decide +kernel⟩,
    ⟨let s := withPair (withOp (bypassDesc 1 0)); ({ s with swc := { s.swc with bypassed := [5], bypassMarks := [(5, [3, 4])] } }).setOp { theOp (bypassDesc 1 0) with phase := .running, hold := .other }, ⟨0, 0⟩, { theOp (bypassDesc 1 0) with phase := .running, hold := .other }, 5, bytesLE 4 0x16 ++ bytesLE 4 5 ++ bytesLE 2 1 ++ bytesLE 2 2 ++ bytesLE 4 2 ++ [3, 4] ++ zeros 14, by decide +kernel⟩,
    ⟨let s := withOp (bypassDesc 1 0); { s with swc := { s.swc with returns := [(⟨0, 0⟩, ([3, 4], [4]))] }, time := { s.time with sec := 10 } }, ⟨0, 0⟩, theOp (bypassDesc 1 0), [3, 4], [4], by decide +kernel⟩,
    ⟨up, ⟨0, 0⟩, by decide +kernel⟩⟩

theorem witness_PlanRows :
    (∃ (s : State) (n : Nat), (s.coreOff = false) ∧ (9 ≤ s.stage) ∧ ((s.plan n).st = 1) ∧ ((s.plan n).replaces = none) ∧ ((s.plan 4).st = 0) ∧ (s.reached (s.plan n).firstStart = true)) ∧
    (∃ (s : State) (n r : Nat), (s.coreOff = false) ∧ (9 ≤ s.stage) ∧ ((s.plan n).st = 1) ∧ ((s.plan n).replaces = some r) ∧ (2 ≤ (s.plan r).st) ∧ ((s.plan r).inHeat = false) ∧ (s.swapFor r = some n) ∧ (s.reached (s.plan r).nextHeat = true) ∧ (s.rig.rigs = []) ∧ ((∀ p ∈ s.hif.ops, p.2.waits = false))) ∧
    (∃ (s : State) (n : Nat), (s.plan n).st ≠ 1 ∨ s.stage < 9 ∨ ((s.plan n).replaces = none ∧ (s.plan 4).st = 0 ∧ s.reached (s.plan n).firstStart = false)) ∧
    (∃ (s : State) (n : Nat), (s.coreOff = false) ∧ (2 ≤ (s.plan n).st) ∧ ((s.plan n).inHeat = true) ∧ ((s.plan n).strokeStart = none) ∧ (0 < pStrokes (s.plan n).bin) ∧ (s.reached (s.plan n).heatStart = true)) ∧
    (∃ (s : State) (n : Nat), (s.coreOff = false) ∧ (2 ≤ (s.plan n).st) ∧ ((s.plan n).inHeat = true) ∧ ((s.plan n).strokeStart ≠ none) ∧ ((s.plan n).stroke + 1 < pStrokes (s.plan n).bin) ∧ (s.reached (max ((s.plan n).heatStart + ((s.plan n).stroke + 1) * pPitch (s.plan n).bin) (s.plan n).strokeEnd) = true) ∧ (s.strokeOver n = true)) ∧
    (∃ (s : State) (n : Nat), (s.plan n).st < 2 ∨ (s.plan n).inHeat = false) ∧
    (∃ (s : State) (n : Nat), (s.coreOff = false) ∧ ((s.plan n).st = 2) ∧ ((s.plan n).inHeat = false) ∧ (s.reached (s.plan n).nextHeat = true) ∧ (s.swapFor n = none)) ∧
    (∃ (s : State) (n : Nat), (s.coreOff = false) ∧ ((s.plan n).st = 3) ∧ ((s.plan n).inHeat = false) ∧ (s.reached (s.plan n).nextHeat = true) ∧ (s.swapFor n = none) ∧ (s.rig.rigs = []) ∧ ((∀ p ∈ s.hif.ops, p.2.waits = false))) ∧
    (∃ (s : State) (n : Nat), (s.plan n).st < 2 ∨ (s.plan n).inHeat = true ∨ s.reached (s.plan n).nextHeat = false) ∧
    (∃ (s : State) (n : Nat), (s.coreOff = false) ∧ ((s.plan n).st = 2) ∧ ((s.plan n).inHeat = true) ∧ ((s.plan n).stroke + 1 = pStrokes (s.plan n).bin) ∧ (s.strokeOver n = true) ∧ (pHeatCount (s.plan n).bin = 0) ∧ (heatFits (s.plan n).bin ((s.plan n).heat + 1) = true) ∧ (s.flag Reg.PLN_PLAN_CFG_ANNOUNCE = false)) ∧
    (∃ (s : State) (n : Nat), (s.coreOff = false) ∧ ((s.plan n).st = 2) ∧ ((s.plan n).inHeat = true) ∧ ((s.plan n).stroke + 1 = pStrokes (s.plan n).bin) ∧ (s.strokeOver n = true) ∧ (pHeatCount (s.plan n).bin = (s.plan n).heat + 1) ∧ (s.rig.rigs = []) ∧ ((∀ p ∈ s.hif.ops, p.2.waits = false))) ∧
    (∃ (s : State) (n : Nat), (s.plan n).st < 2 ∨ (s.plan n).inHeat = false ∨ (s.plan n).stroke + 1 ≠ pStrokes (s.plan n).bin ∨ s.strokeOver n = false) :=
  ⟨⟨planned 10 { st := 1, bin := onePlan 1 }, 0, by decide +kernel⟩,
    ⟨{ planned 5000 { st := 2, bin := onePlan 1, next := 4000 } with plans := [(0, { st := 2, bin := onePlan 1, next := 4000 }), (1, { st := 1, bin := onePlan 1, replaces := some 0 })] }, 1, 0, by decide +kernel⟩,
    ⟨up, 0, by decide +kernel⟩,
    ⟨planned 10 { st := 2, bin := onePlan 1, inHeat := true }, 0, by decide +kernel⟩,
    ⟨planned 5000 { st := 2, bin := bin 200 [(0x1C, 2, 1000), (0x20, 4, 2)], inHeat := true, strokeStart := some 0 }, 0, by decide +kernel⟩,
    ⟨up, 0, by decide +kernel⟩,
    ⟨planned 5000 { st := 2, bin := onePlan 1, next := 4000, late := true }, 0, by decide +kernel⟩,
    ⟨planned 5000 { st := 3, bin := onePlan 1, next := 4000 }, 0, by decide +kernel⟩,
    ⟨up, 0, by decide +kernel⟩,
    ⟨(planned 5000 { st := 2, bin := bin 200 [(0x1C, 2, 1000), (0x1E, 2, 2), (0x20, 4, 1)], inHeat := true, strokeStart := some 0 }).setFlag Reg.PLN_PLAN_CFG_ANNOUNCE 0 false, 0, by decide +kernel⟩,
    ⟨planned 5000 { st := 2, bin := bin 200 [(0x1C, 2, 1000), (0x20, 4, 1), (0x24, 4, 1)], inHeat := true, strokeStart := some 0 }, 0, by decide +kernel⟩,
    ⟨up, 0, by decide +kernel⟩⟩

theorem witness_ReservationRows :
    (∃ (s : State) (n e : Nat), (s.coreOff = false) ∧ (2 ≤ (s.plan n).st) ∧ ((s.plan n).inHeat = true) ∧ ((s.plan n).late = false) ∧ ((s.plan n).strokeStart ≠ none) ∧ (e ∈ strokeEntries (s.plan n).bin (s.plan n).stroke) ∧ (peType (pEntry (s.plan n).bin e) = 1) ∧ ((s.plan n).fired.has e = false) ∧ (s.reached ((s.plan n).due e) = true)) ∧
    (∃ (s : State) (n e : Nat), (s.plan n).late = true ∨ (s.plan n).fired.has e = true ∨ s.reached ((s.plan n).due e) = false) ∧
    (∃ (s : State) (n e : Nat), (s.coreOff = false) ∧ (2 ≤ (s.plan n).st) ∧ (peType (pEntry (s.plan n).bin e) = 1) ∧ ((s.plan n).fired.has e = true) ∧ ((s.portSt (pePort (pEntry (s.plan n).bin e))).window ≠ []) ∧ ((s.portSt (pePort (pEntry (s.plan n).bin e))).windowSlot = n) ∧ (s.reached ((s.plan n).due e + peLength (pEntry (s.plan n).bin e)) = true)) ∧
    (∃ (s : State) (n e : Nat), s.reached ((s.plan n).due e + peLength (pEntry (s.plan n).bin e)) = false ∨ (s.portSt (pePort (pEntry (s.plan n).bin e))).window = []) ∧
    (∃ (s : State) (n e : Nat), (s.coreOff = false) ∧ ((s.plan n).catches.head? = some e) ∧ (s.reached ((s.plan n).due e) = true) ∧ (((List.range n).all fun m => (s.plan m).catches.isEmpty) = true) ∧ (peType (pEntry (s.plan n).bin e) = 3) ∧ (s.rigFor n (peRigId (pEntry (s.plan n).bin e)) = none)) ∧
    (∃ (s : State) (n e : Nat) (k : OpKey), (s.coreOff = false) ∧ ((s.plan n).catches.head? = some e) ∧ (s.reached ((s.plan n).due e) = true) ∧ (((List.range n).all fun m => (s.plan m).catches.isEmpty) = true) ∧ (peType (pEntry (s.plan n).bin e) = 3) ∧ (s.rigFor n (peRigId (pEntry (s.plan n).bin e)) = some (k, false))) ∧
    (∃ (s : State) (n e : Nat) (k : OpKey) (r : Rig) (o : Op), (s.coreOff = false) ∧ ((s.plan n).catches.head? = some e) ∧ (s.reached ((s.plan n).due e) = true) ∧ (((List.range n).all fun m => (s.plan m).catches.isEmpty) = true) ∧ (peType (pEntry (s.plan n).bin e) = 3) ∧ (s.rigFor n (peRigId (pEntry (s.plan n).bin e)) = some (k, true)) ∧ (s.rigOf k = some r) ∧ (s.op? k = some o) ∧ (o.key = k) ∧ (o.lost = false) ∧ (k.slot ∈ (s.ring k.ring).taken) ∧ (r.bypass = none) ∧ ((∀ x ∈ r.recs, rTab x ∈ [0x10, 0x11, 0x12, 0x13, 0x15, 0x16, 0x31, 0x32, 0x61, 0x71]))) ∧
    (∃ (s : State) (n e : Nat), (s.coreOff = false) ∧ ((s.plan n).catches.head? = some e) ∧ (s.reached ((s.plan n).due e) = true) ∧ (((List.range n).all fun m => (s.plan m).catches.isEmpty) = true) ∧ (peType (pEntry (s.plan n).bin e) = 4)) ∧
    (∃ (s : State) (n e : Nat), (s.coreOff = false) ∧ ((s.plan n).catches.head? = some e) ∧ (s.reached ((s.plan n).due e) = true) ∧ (((List.range n).all fun m => (s.plan m).catches.isEmpty) = true) ∧ (peType (pEntry (s.plan n).bin e) = 5)) ∧
    (∃ (s : State) (n e : Nat), (s.plan n).catches.head? ≠ some e ∨ s.reached ((s.plan n).due e) = false) :=
  ⟨⟨planned 5 { st := 2, bin := onePlan 1, inHeat := true, strokeStart := some 0 }, 0, 0, by decide +kernel⟩,
    ⟨planned 4 { st := 2, bin := onePlan 1, inHeat := true, strokeStart := some 0 }, 0, 0, by decide +kernel⟩,
    ⟨(planned 105 { st := 2, bin := onePlan 1, inHeat := true, strokeStart := some 0, fired := [(0, .satisfied)] }).setPortSt 7 { window := [56] }, 0, 0, by decide +kernel⟩,
    ⟨up, 0, 0, by decide +kernel⟩,
    ⟨planned 5 { st := 2, bin := onePlan 3, inHeat := true, strokeStart := some 0 }, 0, 0, by decide +kernel⟩,
    ⟨{ rigged 1 (.plan 0) (rigDesc 1 0xFFFFFFFFFFFF 0) with plans := [(0, { st := 2, bin := onePlan 3, inHeat := true, strokeStart := some 0 })], rig := { rigs := [{ aRig 1 (.plan 0) with id := 0x10007 }], orders := 1 }, time := { (rigged 1 (.plan 0) (rigDesc 1 0xFFFFFFFFFFFF 0)).time with ns := 5 } }, 0, 0, ⟨0, 0⟩, by decide +kernel⟩,
    ⟨{ rigged 2 (.plan 0) (rigDesc 1 0xFFFFFFFFFFFF 0) with plans := [(0, { st := 2, bin := onePlan 3, inHeat := true, strokeStart := some 0 })], rig := { rigs := [{ aRig 2 (.plan 0) with id := 0x10007 }], orders := 1 }, time := { (rigged 2 (.plan 0) (rigDesc 1 0xFFFFFFFFFFFF 0)).time with ns := 5 } }, 0, 0, ⟨0, 0⟩, { aRig 2 (.plan 0) with id := 0x10007 }, { theOp (rigDesc 1 0xFFFFFFFFFFFF 0) with phase := .running }, by decide +kernel⟩,
    ⟨planned 5 { st := 2, bin := onePlan 4, inHeat := true, strokeStart := some 0 }, 0, 0, by decide +kernel⟩,
    ⟨planned 5 { st := 2, bin := onePlan 5, inHeat := true, strokeStart := some 0 }, 0, 0, by decide +kernel⟩,
    ⟨up, 0, 0, by decide +kernel⟩⟩

theorem witness_RigRows :
    (∃ (s : State) (op : OpKey) (o : Op) (b : Option Bytes) (l : List (Option Bytes)), (s.Ready op o) ∧ (dKind o.desc = kindRIG) ∧ (rigFieldBad o.desc = true)) ∧
    (∃ (s : State) (op : OpKey) (o : Op) (b : Bytes) (l : List (Option Bytes)), (s.Ready op o) ∧ (dKind o.desc = kindRIG) ∧ (rigFieldBad o.desc = false) ∧ (rBundleLen o.desc = 0 ∨ recordsOf b.length b = none)) ∧
    (∃ (s : State) (op : OpKey) (o : Op) (l : List (Option Bytes)), (s.Ready op o) ∧ (dKind o.desc = kindRIG) ∧ (rigFieldBad o.desc = false) ∧ (rBundleLen o.desc ≠ 0)) ∧
    (∃ (s : State) (op : OpKey) (o : Op) (b : Bytes) (recs : List Bytes) (r : Rig) (l : List (Option Bytes)), (s.Ready op o) ∧ (dKind o.desc = kindRIG) ∧ (rigFieldBad o.desc = false) ∧ (rBundleLen o.desc ≠ 0) ∧ (recordsOf b.length b = some recs) ∧ ((∀ x ∈ recs, rTab x ≠ 0x40 ∧ rTab x ≠ 0x50 ∧ rTab x ≠ 0x51)) ∧ (r = Rig.mk op s.rig.orders s.rig.judged 1 (rigCatch o.desc) (rRigId o.desc) o.fn ((s.domainOf o.fn (dDomain o.desc)).getD 0) recs [] [] none []) ∧ (((s.rigSeen o).judge r).1 = true)) ∧
    (∃ (s : State) (op : OpKey) (o : Op) (b : Bytes) (recs : List Bytes) (r : Rig) (l : List (Option Bytes)), (s.Ready op o) ∧ (dKind o.desc = kindRIG) ∧ (rigFieldBad o.desc = false) ∧ (rBundleLen o.desc ≠ 0) ∧ (recordsOf b.length b = some recs) ∧ ((∀ x ∈ recs, rTab x ≠ 0x40 ∧ rTab x ≠ 0x50 ∧ rTab x ≠ 0x51)) ∧ (r = Rig.mk op s.rig.orders s.rig.judged 1 (rigCatch o.desc) (rRigId o.desc) o.fn ((s.domainOf o.fn (dDomain o.desc)).getD 0) recs [] [] none []) ∧ (((s.rigSeen o).judge r).1 = false) ∧ ((match r.catch_ with | .time a => s.reached a | _ => false) = true)) ∧
    (∃ (s : State) (op : OpKey) (o : Op) (b : Bytes) (recs : List Bytes) (r : Rig) (l : List (Option Bytes)), (s.Ready op o) ∧ (dKind o.desc = kindRIG) ∧ (rigFieldBad o.desc = false) ∧ (rBundleLen o.desc ≠ 0) ∧ (recordsOf b.length b = some recs) ∧ ((∀ x ∈ recs, rTab x ≠ 0x40 ∧ rTab x ≠ 0x50 ∧ rTab x ≠ 0x51)) ∧ (r = Rig.mk op s.rig.orders s.rig.judged 1 (rigCatch o.desc) (rRigId o.desc) o.fn ((s.domainOf o.fn (dDomain o.desc)).getD 0) recs [] [] none []) ∧ (((s.rigSeen o).judge r).1 = false) ∧ ((match r.catch_ with | .time a => s.reached a | _ => false) = false)) ∧
    (∃ (s : State) (k : OpKey) (o : Op) (r : Rig), (s.rigOf k = some r) ∧ (s.op? k = some o) ∧ (o.key = k) ∧ (o.lost = false) ∧ (k.slot ∈ (s.ring k.ring).taken) ∧ (r.st = 1) ∧ (((s.rig.rigs.filter fun x => x.st == 1 && (s.servingCox (x.key.ring % 8)).isSome).all fun x => decide (r.judged ≤ x.judged)) = true) ∧ ((s.servingCox (k.ring % 8)).isSome = true) ∧ ((s.rig.rigs.all fun x => !x.deps.contains r.order) = true) ∧ ((s.judge r).1 = true)) ∧
    (∃ (s : State) (k : OpKey) (o : Op) (r : Rig), (s.rigOf k = some r) ∧ (s.op? k = some o) ∧ (o.key = k) ∧ (o.lost = false) ∧ (k.slot ∈ (s.ring k.ring).taken) ∧ (r.st = 1) ∧ (((s.rig.rigs.filter fun x => x.st == 1 && (s.servingCox (x.key.ring % 8)).isSome).all fun x => decide (r.judged ≤ x.judged)) = true) ∧ ((s.servingCox (k.ring % 8)).isSome = true) ∧ ((s.rig.rigs.all fun x => !x.deps.contains r.order) = true) ∧ ((s.judge r).1 = false) ∧ ((match r.catch_ with | .time a => s.reached a | _ => false) = true)) ∧
    (∃ (s : State) (k : OpKey) (o : Op) (r : Rig), (s.rigOf k = some r) ∧ (s.op? k = some o) ∧ (o.key = k) ∧ (o.lost = false) ∧ (k.slot ∈ (s.ring k.ring).taken) ∧ (r.st = 1) ∧ (((s.rig.rigs.filter fun x => x.st == 1 && (s.servingCox (x.key.ring % 8)).isSome).all fun x => decide (r.judged ≤ x.judged)) = true) ∧ ((s.servingCox (k.ring % 8)).isSome = true) ∧ ((s.rig.rigs.all fun x => !x.deps.contains r.order) = true) ∧ ((s.judge r).1 = false) ∧ ((match r.catch_ with | .time a => s.reached a | _ => false) = false) ∧ (s.rigConflict r = true)) ∧
    (∃ (s : State) (k : OpKey) (o : Op) (r : Rig), (s.rigOf k = some r) ∧ (s.op? k = some o) ∧ (o.key = k) ∧ (o.lost = false) ∧ (k.slot ∈ (s.ring k.ring).taken) ∧ (r.st = 1) ∧ (((s.rig.rigs.filter fun x => x.st == 1 && (s.servingCox (x.key.ring % 8)).isSome).all fun x => decide (r.judged ≤ x.judged)) = true) ∧ ((s.servingCox (k.ring % 8)).isSome = true) ∧ ((s.rig.rigs.all fun x => !x.deps.contains r.order) = true) ∧ ((s.judge r).1 = false) ∧ ((match r.catch_ with | .time a => s.reached a | _ => false) = false) ∧ (s.rigConflict r = false) ∧ (256 ≤ (s.rig.rigs.filter fun x => x.st == 2).length)) ∧
    (∃ (s : State) (k : OpKey) (o : Op) (r : Rig), (s.rigOf k = some r) ∧ (s.op? k = some o) ∧ (o.key = k) ∧ (o.lost = false) ∧ (k.slot ∈ (s.ring k.ring).taken) ∧ (r.st = 1) ∧ (((s.rig.rigs.filter fun x => x.st == 1 && (s.servingCox (x.key.ring % 8)).isSome).all fun x => decide (r.judged ≤ x.judged)) = true) ∧ ((s.servingCox (k.ring % 8)).isSome = true) ∧ ((s.judge r).1 = false) ∧ ((s.rig.rigs.filter fun x => x.st == 2) = []) ∧ ((s.rig.rigs.filter fun x => x.order == r.order) = [r]) ∧ (r.catch_ = .commit) ∧ (r.bypass = none) ∧ ((∀ x ∈ r.recs, rTab x ∈ [0x10, 0x11, 0x12, 0x13, 0x15, 0x16, 0x31, 0x32, 0x61, 0x71]))) ∧
    (∃ (s : State) (k : OpKey) (r : Rig), (s.rigOf k = some r) ∧ (r.st = 1) ∧ (((s.rig.rigs.filter fun x => x.st == 1 && (s.servingCox (x.key.ring % 8)).isSome).all fun x => decide (r.judged ≤ x.judged)) = true) ∧ ((s.servingCox (k.ring % 8)).isSome = true) ∧ ((s.judge r).1 = false) ∧ (s.rigConflict r = false) ∧ ((s.rig.rigs.filter fun x => x.st == 2).length < 256) ∧ ((match r.catch_ with | .time a => s.reached a | .commit => true | .plan _ => false) = false) ∧ (((List.range 4).all fun m => !((s.plan m).fired.any fun f => f.2 == .waits k.ring k.slot)) = true)) ∧
    (∃ (s : State) (k : OpKey), s.rigOf k = none ∨ (s.servingCox (k.ring % 8)).isSome = false) ∧
    (∃ (s : State) (k : OpKey) (o : Op) (r : Rig) (at_ : Nat), (s.coreOff = false) ∧ (s.rigOf k = some r) ∧ (s.op? k = some o) ∧ (o.key = k) ∧ (o.lost = false) ∧ (k.slot ∈ (s.ring k.ring).taken) ∧ (r.st = 2) ∧ (r.catch_ = .time at_) ∧ (s.reached at_ = true) ∧ (s.planCatchDue at_ = false) ∧ ((s.rig.rigs.any fun x => x.st == 2 && x.before r) = false) ∧ (r.bypass = none) ∧ ((∀ x ∈ r.recs, rTab x ∈ [0x10, 0x11, 0x12, 0x13, 0x15, 0x16, 0x31, 0x32, 0x61, 0x71]))) ∧
    (∃ (s : State) (k : OpKey) (r : Rig) (at_ : Nat), (s.rigOf k = some r) ∧ (r.catch_ = .time at_) ∧ (s.reached at_ = false)) ∧
    (∃ (s : State) (k : OpKey) (o : Op) (r : Rig) (at_ : Nat), (s.coreOff = false) ∧ (s.rigOf k = some r) ∧ (s.op? k = some o) ∧ (o.key = k) ∧ (o.lost = false) ∧ (k.slot ∈ (s.ring k.ring).taken) ∧ ((s.rig.rigs.all fun x => !x.deps.contains r.order) = true) ∧ (r.st = 1) ∧ (r.catch_ = .time at_) ∧ (s.reached at_ = true) ∧ (s.planCatchDue at_ = false) ∧ ((s.rig.rigs.any fun x => x.st == 2 && x.before r) = false)) ∧
    (∃ (s : State) (k : OpKey) (o : Op) (at_ : Nat), (s.coreOff = false) ∧ (s.rigOf k = none) ∧ (s.op? k = some o) ∧ (o.key = k) ∧ (o.lost = false) ∧ (k.slot ∈ (s.ring k.ring).taken) ∧ (o.waits = true) ∧ (dKind o.desc = kindRIG) ∧ (rigFieldBad o.desc = false) ∧ (rigCatch o.desc = .time at_) ∧ (s.reached at_ = true)) :=
  ⟨⟨withOp (rigDesc 2 0 0), ⟨0, 0⟩, theOp (rigDesc 2 0 0), none, [], by decide +kernel⟩,
    ⟨withOp (rigDesc 0 0 0), ⟨0, 0⟩, theOp (rigDesc 0 0 0), [1], [], by decide +kernel⟩,
    ⟨withOp (rigDesc 0 0 0), ⟨0, 0⟩, theOp (rigDesc 0 0 0), [], by decide +kernel⟩,
    ⟨withOp (rigDesc 0 0 0), ⟨0, 0⟩, theOp (rigDesc 0 0 0), bin 16 [(0, 1, 0x13), (2, 2, 16), (4, 4, 999)], [bin 16 [(0, 1, 0x13), (2, 2, 16), (4, 4, 999)]], Rig.mk ⟨0, 0⟩ 0 0 1 .commit 77 0 0 [bin 16 [(0, 1, 0x13), (2, 2, 16), (4, 4, 999)]] [] [] none [], [], by decide +kernel⟩,
    ⟨withOp (rigDesc 1 0 0), ⟨0, 0⟩, theOp (rigDesc 1 0 0), nbRec, [nbRec], Rig.mk ⟨0, 0⟩ 0 0 1 (.time 0) 77 0 0 [nbRec] [] [] none [], [], by decide +kernel⟩,
    ⟨withOp (rigDesc 0 0 0), ⟨0, 0⟩, theOp (rigDesc 0 0 0), nbRec, [nbRec], Rig.mk ⟨0, 0⟩ 0 0 1 .commit 77 0 0 [nbRec] [] [] none [], [], by decide +kernel⟩,
    ⟨{ rigged 1 .commit (rigDesc 0 0 0) with rig := { rigs := [{ aRig 1 .commit with recs := [bin 16 [(0, 1, 0x13), (2, 2, 16), (4, 4, 999)]] }], orders := 1 } }, ⟨0, 0⟩, { theOp (rigDesc 0 0 0) with phase := .running }, { aRig 1 .commit with recs := [bin 16 [(0, 1, 0x13), (2, 2, 16), (4, 4, 999)]] }, by decide +kernel⟩,
    ⟨rigged 1 (.time 0) (rigDesc 1 0 0), ⟨0, 0⟩, { theOp (rigDesc 1 0 0) with phase := .running }, aRig 1 (.time 0), by decide +kernel⟩,
    ⟨{ rigged 1 .commit (rigDesc 1 0 5000) with rig := { rigs := [aRig 1 (.time 5000), { aRig 2 (.time 5000) with key := ⟨0, 1⟩, order := 1 }], orders := 2 } }, ⟨0, 0⟩, { theOp (rigDesc 1 0 5000) with phase := .running }, aRig 1 (.time 5000), by decide +kernel⟩,
    ⟨{ rigged 1 .commit (rigDesc 1 0 5000) with rig := { rigs := aRig 1 (.time 5000) :: (List.range 256).map fun i => { aRig 2 (.time (6000 + i)) with key := ⟨0, 1 + i⟩, order := 1 + i }, orders := 257 } }, ⟨0, 0⟩, { theOp (rigDesc 1 0 5000) with phase := .running }, aRig 1 (.time 5000), by decide +kernel⟩,
    ⟨rigged 1 .commit (rigDesc 0 0 0), ⟨0, 0⟩, { theOp (rigDesc 0 0 0) with phase := .running }, aRig 1 .commit, by decide +kernel⟩,
    ⟨rigged 1 (.time 5000) (rigDesc 1 0 5000), ⟨0, 0⟩, aRig 1 (.time 5000), by decide +kernel⟩,
    ⟨up, ⟨0, 0⟩, by decide +kernel⟩,
    ⟨rigged 2 (.time 0) (rigDesc 1 0 0), ⟨0, 0⟩, { theOp (rigDesc 1 0 0) with phase := .running }, aRig 2 (.time 0), 0, by decide +kernel⟩,
    ⟨rigged 2 (.time 5000) (rigDesc 1 0 5000), ⟨0, 0⟩, aRig 2 (.time 5000), 5000, by decide +kernel⟩,
    ⟨rigged 1 (.time 0) (rigDesc 1 0 0), ⟨0, 0⟩, { theOp (rigDesc 1 0 0) with phase := .running }, aRig 1 (.time 0), 0, by decide +kernel⟩,
    ⟨withOp (rigDesc 1 0 0), ⟨0, 0⟩, theOp (rigDesc 1 0 0), 0, by decide +kernel⟩⟩

theorem witness_SendRows :
    (∃ (s : State) (n : Nat) (c : Ctx) (it : SendItem) (rest : List SendItem), (s.coreOff = false) ∧ (s.tpt.parked = []) ∧ (s.ctx? n = some c) ∧ (c.failed = false) ∧ (s.cached n = true) ∧ (psnSub c.sndNxt c.sndUna < 256) ∧ (c.queue = it :: rest) ∧ (it.setts ≠ []) ∧ ((s.settShare it.setts).isSome = true)) ∧
    (∃ (s : State) (n : Nat) (c : Ctx) (it : SendItem) (rest : List SendItem) (h : List Nat) (s1 : State), (s.coreOff = false) ∧ (s.tpt.parked = []) ∧ (s.ctx? n = some c) ∧ (c.failed = false) ∧ (s.cached n = true) ∧ (psnSub c.sndNxt c.sndUna < 256) ∧ (c.queue = it :: rest) ∧ (it.setts = []) ∧ (s.settStore (reqTransport (n % 2) (cClass (s.ctxRec n))) (s.ctxFrame n 0 0 c.sndNxt c.ackPsn it.head it.payload) = (some h, s1)) ∧ ((s1.settShare h).isSome = true)) ∧
    (∃ (s : State) (n : Nat) (c : Ctx) (it : SendItem) (rest : List SendItem), (s.coreOff = false) ∧ (s.tpt.parked = []) ∧ (s.ctx? n = some c) ∧ (c.failed = false) ∧ (s.cached n = true) ∧ (psnSub c.sndNxt c.sndUna < 256) ∧ (c.queue = it :: rest) ∧ (it.setts = []) ∧ ((s.settStore (reqTransport (n % 2) (cClass (s.ctxRec n))) (s.ctxFrame n 0 0 c.sndNxt c.ackPsn it.head it.payload)).1 = none)) ∧
    (∃ (s : State) (n : Nat), ∀ c ∈ (s.ctx? n).toList, c.queue = [] ∨ c.failed = true ∨ s.cached n = false ∨ 256 ≤ psnSub c.sndNxt c.sndUna) ∧
    (∃ (s : State) (n : Nat) (c : Ctx), (s.coreOff = false) ∧ (s.tpt.parked = []) ∧ (s.ctx? n = some c) ∧ (c.failed = false) ∧ (0 < c.sinceAck)) ∧
    (∃ (s : State) (n : Nat), ∀ c ∈ (s.ctx? n).toList, c.sinceAck = 0 ∨ c.failed = true) ∧
    (∃ (s : State) (n psn : Nat) (c : Ctx), (s.coreOff = false) ∧ (s.tpt.parked = []) ∧ (s.ctx? n = some c) ∧ (c.sent.any (fun p => p.psn == psn && p.backoff) = true)) ∧
    (∃ (s : State) (n psn : Nat), ∀ c ∈ (s.ctx? n).toList, c.sent.any (fun p => p.psn == psn && p.backoff) = false) ∧
    (∃ (s : State) (n : Nat) (c : Ctx) (p : SentPkt), (s.coreOff = false) ∧ (s.tpt.parked = []) ∧ (s.ctx? n = some c) ∧ (c.failed = false) ∧ (c.sent.find? (fun p => !p.sacked) = some p) ∧ (p.backoff = false) ∧ (c.retry + 1 ≤ s.fld Reg.TPT_TIMER_CFG_RETRY_MAX)) ∧
    (∃ (s : State) (n : Nat) (c : Ctx) (p : SentPkt), (s.coreOff = false) ∧ (s.tpt.parked = []) ∧ (s.ctx? n = some c) ∧ (c.failed = false) ∧ (c.sent.find? (fun p => !p.sacked) = some p) ∧ (p.backoff = false) ∧ (s.fld Reg.TPT_TIMER_CFG_RETRY_MAX < c.retry + 1) ∧ (s.col.ops = []) ∧ (s.fltSlots = [])) ∧
    (∃ (s : State) (n : Nat), ∀ c ∈ (s.ctx? n).toList, c.failed = true ∨ c.sent.all (fun p => p.sacked) = true) :=
  ⟨⟨{ ctxOn { sndNxt := 2 ^ 32 - 1, sndUna := 2 ^ 32 - 256, queue := [⟨zeros 20, [], [4]⟩] } with sett := { setts := [(4, ⟨149, 1⟩)] } }, 5, { sndNxt := 2 ^ 32 - 1, sndUna := 2 ^ 32 - 256, queue := [⟨zeros 20, [], [4]⟩] }, ⟨zeros 20, [], [4]⟩, [], by decide +kernel⟩,
    ⟨ctxOn { sndNxt := 7, sndUna := 7, queue := [⟨zeros 20, [], []⟩] }, 5, { sndNxt := 7, sndUna := 7, queue := [⟨zeros 20, [], []⟩] }, ⟨zeros 20, [], []⟩, [], ((ctxOn { sndNxt := 7, sndUna := 7, queue := [⟨zeros 20, [], []⟩] }).settStore 148 ((ctxOn { sndNxt := 7, sndUna := 7, queue := [⟨zeros 20, [], []⟩] }).ctxFrame 5 0 0 7 0xFFFFFFFF (zeros 20) [])).1.getD [], ((ctxOn { sndNxt := 7, sndUna := 7, queue := [⟨zeros 20, [], []⟩] }).settStore 148 ((ctxOn { sndNxt := 7, sndUna := 7, queue := [⟨zeros 20, [], []⟩] }).ctxFrame 5 0 0 7 0xFFFFFFFF (zeros 20) [])).2, by decide +kernel⟩,
    ⟨(ctxOn { sndNxt := 7, sndUna := 7, queue := [⟨zeros 20, [], []⟩] }).setFld Reg.SETT_STAT_USE_USED 148 0xFFFFF, 5, { sndNxt := 7, sndUna := 7, queue := [⟨zeros 20, [], []⟩] }, ⟨zeros 20, [], []⟩, [], by decide +kernel⟩,
    ⟨ctxOn { sndNxt := 256, queue := [⟨zeros 20, [], [4]⟩] }, 5, by decide +kernel⟩,
    ⟨ctxOn { sinceAck := 3 }, 5, { sinceAck := 3 }, by decide +kernel⟩,
    ⟨ctxOn {}, 5, by decide +kernel⟩,
    ⟨ctxOn { sent := [{ psn := 0xFFFFFFFF, head := zeros 20, payload := [], dport := 4791, setts := [], at_ := 0, backoff := true }] }, 5, 0xFFFFFFFF, { sent := [{ psn := 0xFFFFFFFF, head := zeros 20, payload := [], dport := 4791, setts := [], at_ := 0, backoff := true }] }, by decide +kernel⟩,
    ⟨ctxOn {}, 5, 0, by decide +kernel⟩,
    ⟨ctxOn { retry := 6, sent := [{ psn := 7, head := zeros 20, payload := [], dport := 4791, setts := [], at_ := 0 }] }, 5, { retry := 6, sent := [{ psn := 7, head := zeros 20, payload := [], dport := 4791, setts := [], at_ := 0 }] }, { psn := 7, head := zeros 20, payload := [], dport := 4791, setts := [], at_ := 0 }, by decide +kernel⟩,
    ⟨ctxOn { retry := 7, sent := [{ psn := 7, head := zeros 20, payload := [], dport := 4791, setts := [], at_ := 0 }] }, 5, { retry := 7, sent := [{ psn := 7, head := zeros 20, payload := [], dport := 4791, setts := [], at_ := 0 }] }, { psn := 7, head := zeros 20, payload := [], dport := 4791, setts := [], at_ := 0 }, by decide +kernel⟩,
    ⟨ctxOn {}, 5, by decide +kernel⟩⟩

theorem witness_ReceiveRows :
    (∃ (s : State) (req : Nat) (frame d : Bytes) (l : List Nat) (c : Ctx) (ps : List Piece) (lost : Bool), (s.coreOff = false) ∧ (s.tpt.parked = []) ∧ (s.datagramOf frame = some (d, true)) ∧ (tpBad d = false) ∧ ((s.settStore req frame).1 = some l) ∧ (tDst d < 262144) ∧ (s.ctx? (tDst d) = some c) ∧ (c.failed = false) ∧ (s.cached (tDst d) = true) ∧ (tGen d = cGen (s.ctxRec (tDst d))) ∧ (lost = false) ∧ (tTyp d = 0) ∧ (tPsn d = c.rcvNxt) ∧ (c.rcvMap = []) ∧ (c.sent = []) ∧ (c.partials.find ⟨tGroup d, tSeq d, tChunk d, tMember d⟩ = some ps) ∧ ((s.col.held.any fun x => x.key == ⟨tGroup d, tSeq d, tChunk d, tMember d⟩) = false) ∧ (ps.all (fun p => !(decide (tOff d < p.off + p.count) && decide (p.off < tOff d + tCount d))) = true) ∧ (tCount d ≠ 0) ∧ (sumOf (ps.map Piece.count) + tCount d < 1024)) ∧
    (∃ (s : State) (req : Nat) (frame d : Bytes) (l : List Nat) (c : Ctx), (s.coreOff = false) ∧ (s.tpt.parked = []) ∧ (s.datagramOf frame = some (d, true)) ∧ (tpBad d = false) ∧ ((s.settStore req frame).1 = some l) ∧ (tDst d < 262144) ∧ (s.ctx? (tDst d) = some c) ∧ (c.failed = false) ∧ (s.cached (tDst d) = true) ∧ (tGen d = cGen (s.ctxRec (tDst d))) ∧ (tTyp d = 0) ∧ (tPsn d ∈ c.rcvMap ∨ 2 ^ 31 ≤ psnSub (tPsn d) c.rcvNxt)) ∧
    (∃ (s : State) (req : Nat) (frame d : Bytes) (l : List Nat) (c : Ctx) (o : CollOp), (s.coreOff = false) ∧ (s.tpt.parked = []) ∧ (s.datagramOf frame = some (d, true)) ∧ (tpBad d = false) ∧ ((s.settStore req frame).1 = some l) ∧ (tDst d < 262144) ∧ (s.ctx? (tDst d) = some c) ∧ (c.failed = false) ∧ (s.cached (tDst d) = true) ∧ (tGen d = cGen (s.ctxRec (tDst d))) ∧ (tTyp d = 0) ∧ (s.col.ops = [((tGroup d, tSeq d), o)]) ∧ (s.col.held = []) ∧ (o.group = tGroup d) ∧ (o.seq = tSeq d) ∧ (o.leaving = [])) ∧
    (∃ (s : State) (req : Nat) (frame d : Bytes) (l : List Nat) (c : Ctx), (s.coreOff = false) ∧ (s.tpt.parked = []) ∧ (s.datagramOf frame = some (d, true)) ∧ (tpBad d = false) ∧ ((s.settStore req frame).1 = some l) ∧ (tDst d < 262144) ∧ (s.ctx? (tDst d) = some c) ∧ (c.failed = false) ∧ (s.cached (tDst d) = true) ∧ (tGen d = cGen (s.ctxRec (tDst d))) ∧ (tTyp d = 1) ∧ (s.col.ops = []) ∧ (s.col.held = []) ∧ (psnSub ((tAckPsn d + 1) % 2 ^ 32) c.sndUna ≤ psnSub c.sndNxt c.sndUna)) ∧
    (∃ (s : State) (req : Nat) (frame d : Bytes) (l : List Nat) (c : Ctx), (s.coreOff = false) ∧ (s.tpt.parked = []) ∧ (s.datagramOf frame = some (d, true)) ∧ (tpBad d = false) ∧ ((s.settStore req frame).1 = some l) ∧ (tDst d < 262144) ∧ (s.ctx? (tDst d) = some c) ∧ (c.failed = false) ∧ (s.cached (tDst d) = true) ∧ (tGen d = cGen (s.ctxRec (tDst d))) ∧ (tTyp d = 2) ∧ (kCtype d = 1)) ∧
    (∃ (s : State) (req : Nat) (frame : Bytes) (lost : Bool), s.datagramOf frame = none) ∧
    (∃ (s : State) (req : Nat) (frame d : Bytes) (sumOk lost : Bool) (l : List Nat), (s.coreOff = false) ∧ (s.tpt.parked = []) ∧ (s.datagramOf frame = some (d, sumOk)) ∧ (sumOk = false ∨ tpBad d = true) ∧ ((s.settStore req frame).1 = some l)) ∧
    (∃ (s : State) (req : Nat) (frame d : Bytes) (l : List Nat) (lost : Bool), (s.coreOff = false) ∧ (s.tpt.parked = []) ∧ (s.datagramOf frame = some (d, true)) ∧ (tpBad d = false) ∧ ((s.settStore req frame).1 = some l) ∧ (tDst d < 262144) ∧ (tTyp d = 0) ∧ (s.ctxOpen (tDst d) = false)) ∧
    (∃ (s : State) (req : Nat) (frame d : Bytes) (l : List Nat) (lost : Bool), (s.coreOff = false) ∧ (s.tpt.parked = []) ∧ (s.datagramOf frame = some (d, true)) ∧ (tpBad d = false) ∧ ((s.settStore req frame).1 = some l) ∧ (tDst d < 262144) ∧ (tTyp d = 0) ∧ (s.ctxOpen (tDst d) = true) ∧ (s.cached (tDst d) = false)) ∧
    (∃ (s : State) (n : Nat), (s.coreOff = false) ∧ (s.tpt.waiting = []) ∧ (s.cached n = false) ∧ ((s.ctxCache n).length < 8192)) ∧
    (∃ (s : State) (n : Nat) (d : Bytes) (l : List Nat) (c : Ctx), (s.coreOff = false) ∧ (s.tpt.parked = []) ∧ (s.tpt.waiting = [⟨n, d, l⟩]) ∧ (s.cached n = false) ∧ ((s.ctxCache n).length < 8192) ∧ (s.ctx? n = some c) ∧ (c.failed = false) ∧ (tGen d = cGen (s.ctxRec n)) ∧ (tTyp d = 1) ∧ (s.col.ops = []) ∧ (s.col.held = []) ∧ (psnSub ((tAckPsn d + 1) % 2 ^ 32) c.sndUna ≤ psnSub c.sndNxt c.sndUna)) ∧
    (∃ (s : State) (n : Nat) (r : MemRead) (c : Ctx), (s.coreOff = false) ∧ (s.tpt.parked = []) ∧ (s.cached n = false) ∧ ((s.recordRead r).1 = false) ∧ (s.ctx? n = some c) ∧ (c.failed = false) ∧ (s.col.ops = []) ∧ (s.fltSlots = [])) :=
  ⟨⟨ctxOn { rcvNxt := 7, partials := [(⟨3, 1, 0, 2⟩, [⟨0, 512, 1, [], []⟩])] }, 149, dgram (onCtx 0 7 0xFFFFFFFF (dataHead 3 2 1 0 512 1 0 4) (zeros 4)), onCtx 0 7 0xFFFFFFFF (dataHead 3 2 1 0 512 1 0 4) (zeros 4), List.range 1 |>.map (· + 786432), { rcvNxt := 7, partials := [(⟨3, 1, 0, 2⟩, [⟨0, 512, 1, [], []⟩])] }, [⟨0, 512, 1, [], []⟩], false, by decide +kernel⟩,
    ⟨ctxOn { rcvNxt := 8 }, 149, dgram (onCtx 0 7 0xFFFFFFFF (dataHead 3 2 1 0 512 1 0 4) (zeros 4)), onCtx 0 7 0xFFFFFFFF (dataHead 3 2 1 0 512 1 0 4) (zeros 4), List.range 1 |>.map (· + 786432), { rcvNxt := 8 }, by decide +kernel⟩,
    ⟨let s := ctxOn {}; { s with col := { ops := [((3, 1), ({ group := 3, seq := 1, code := 0, spec := none, chunks := 4, param := 0, admission := .admitted, nextBow := 4, nextStern := 5, complete := [2], queries := [(2, 1)] } : CollOp))] }, swc := { s.swc with tab := [((0x30, 3), bytesLE 4 0x30 ++ bytesLE 4 3 ++ bytesLE 2 1 ++ bytesLE 2 9 ++ bytesLE 4 0 ++ bytesLE 4 7 ++ bytesLE 4 5 ++ bytesLE 4 1 ++ zeros 4)] } }, 149, dgram (onCtx 0 7 0xFFFFFFFF (dataHead 3 2 1 0 512 1 0 4) (zeros 4)), onCtx 0 7 0xFFFFFFFF (dataHead 3 2 1 0 512 1 0 4) (zeros 4), List.range 1 |>.map (· + 786432), {}, ({ group := 3, seq := 1, code := 0, spec := none, chunks := 4, param := 0, admission := .admitted, nextBow := 4, nextStern := 5, complete := [2], queries := [(2, 1)] } : CollOp), by decide +kernel⟩,
    ⟨ctxOn { sndUna := 2 ^ 32 - 1, sndNxt := 1 }, 149, dgram (onCtx 1 0 0 (bareHead 32) (zeros 32)), onCtx 1 0 0 (bareHead 32) (zeros 32), List.range 1 |>.map (· + 786432), { sndUna := 2 ^ 32 - 1, sndNxt := 1 }, by decide +kernel⟩,
    ⟨ctxOn { sent := [{ psn := 7, head := zeros 20, payload := [], dport := 4791, setts := [], at_ := 0 }] }, 149, dgram (ctrlOn 1 3 1 0 7), ctrlOn 1 3 1 0 7, List.range 1 |>.map (· + 786432), { sent := [{ psn := 7, head := zeros 20, payload := [], dport := 4791, setts := [], at_ := 0 }] }, by decide +kernel⟩,
    ⟨up, 149, eth 0x88F7 [], false, by decide +kernel⟩,
    ⟨up, 149, dgram [1, 2], [1, 2], true, false, [786432], by decide +kernel⟩,
    ⟨up, 149, dgram (onCtx 0 7 0xFFFFFFFF (dataHead 3 2 1 0 512 1 0 4) (zeros 4)), onCtx 0 7 0xFFFFFFFF (dataHead 3 2 1 0 512 1 0 4) (zeros 4), List.range 1 |>.map (· + 786432), true, by decide +kernel⟩,
    ⟨{ up with tpt := { ctxs := [(5, {})] } }, 149, dgram (onCtx 0 7 0xFFFFFFFF (dataHead 3 2 1 0 512 1 0 4) (zeros 4)), onCtx 0 7 0xFFFFFFFF (dataHead 3 2 1 0 512 1 0 4) (zeros 4), List.range 1 |>.map (· + 786432), true, by decide +kernel⟩,
    ⟨{ up with tpt := { ctxs := [(5, {})] } }, 5, by decide +kernel⟩,
    ⟨{ up with tpt := { ctxs := [(5, { sndUna := 2 ^ 32 - 1, sndNxt := 1 })], waiting := [⟨5, onCtx 1 0 0 (bareHead 32) (zeros 32), []⟩] } }, 5, onCtx 1 0 0 (bareHead 32) (zeros 32), [], { sndUna := 2 ^ 32 - 1, sndNxt := 1 }, by decide +kernel⟩,
    ⟨{ up with tpt := { ctxs := [(5, {})] } }, 5, [{ at_ := 0, place := 1, tries := [[(0, 1), (4, 1)], [(0, 1), (4, 1)], [(0, 1), (4, 1)]] }], {}, by decide +kernel⟩⟩

theorem witness_CollectiveMessageRows :
    (∃ (s : State) (req : Nat) (frame d : Bytes) (l : List Nat) (c : Ctx), (s.coreOff = false) ∧ (s.tpt.parked = []) ∧ (s.datagramOf frame = some (d, true)) ∧ (tpBad d = false) ∧ ((s.settStore req frame).1 = some l) ∧ (tDst d < 262144) ∧ (s.ctx? (tDst d) = some c) ∧ (c.failed = false) ∧ (s.cached (tDst d) = true) ∧ (tGen d = cGen (s.ctxRec (tDst d))) ∧ (tTyp d = 2) ∧ (kCtype d = 2)) ∧
    (∃ (s : State) (req : Nat) (frame d : Bytes) (l : List Nat) (c : Ctx) (o : CollOp) (r : Bytes), (s.coreOff = false) ∧ (s.tpt.parked = []) ∧ (s.datagramOf frame = some (d, true)) ∧ (tpBad d = false) ∧ ((s.settStore req frame).1 = some l) ∧ (tDst d < 262144) ∧ (s.ctx? (tDst d) = some c) ∧ (c.failed = false) ∧ (s.cached (tDst d) = true) ∧ (tGen d = cGen (s.ctxRec (tDst d))) ∧ (tTyp d = 2) ∧ (kCtype d = 3) ∧ (s.col.ops = [((kGroup d, kSeq d), o)]) ∧ (s.col.held = []) ∧ (o.group = kGroup d) ∧ (o.seq = kSeq d) ∧ (s.col.bayWaits = []) ∧ (s.collGroup (kGroup d) = some r) ∧ (gRoot r = false) ∧ (kChunk d ∈ o.complete) ∧ (kChunk d ∉ o.done) ∧ (o.log = 0) ∧ (o.entries = false) ∧ (o.logHeld = []) ∧ (o.plan = none) ∧ (o.admission = AdmitState.admitted) ∧ (o.leaving = []) ∧ (o.chunks ≤ o.nextBow) ∧ (o.chunks ≤ o.nextStern) ∧ (o.done.length + 1 < o.chunks)) ∧
    (∃ (s : State) (req : Nat) (frame d : Bytes) (l : List Nat) (c : Ctx) (p : PastOp), (s.coreOff = false) ∧ (s.tpt.parked = []) ∧ (s.datagramOf frame = some (d, true)) ∧ (tpBad d = false) ∧ ((s.settStore req frame).1 = some l) ∧ (tDst d < 262144) ∧ (s.ctx? (tDst d) = some c) ∧ (c.failed = false) ∧ (s.cached (tDst d) = true) ∧ (tGen d = cGen (s.ctxRec (tDst d))) ∧ (tTyp d = 2) ∧ (kCtype d = 4) ∧ (s.collDone (kGroup d) (kSeq d) = true) ∧ (s.outerChunk (kGroup d) (kSeq d) (kChunk d) = none) ∧ (s.collOp (kGroup d) (kSeq d) = none) ∧ (((s.grpState (kGroup d)).past.take (s.fld Reg.COL_ADMIT_CFG_RESULT_DEPTH)).find? (fun p => p.seq == kSeq d) = some p) ∧ (kChunk d ∈ p.done) ∧ (p.code = 0 ∨ p.code = 3) ∧ (p.log ≠ 0) ∧ ((s.readLog p.domain p.log p.fmt (kChunk d)).isSome = true)) ∧
    (∃ (s : State) (req : Nat) (frame d : Bytes) (l : List Nat) (c : Ctx) (p : PastOp), (s.coreOff = false) ∧ (s.tpt.parked = []) ∧ (s.datagramOf frame = some (d, true)) ∧ (tpBad d = false) ∧ ((s.settStore req frame).1 = some l) ∧ (tDst d < 262144) ∧ (s.ctx? (tDst d) = some c) ∧ (c.failed = false) ∧ (s.cached (tDst d) = true) ∧ (tGen d = cGen (s.ctxRec (tDst d))) ∧ (tTyp d = 2) ∧ (kCtype d = 4) ∧ (s.collDone (kGroup d) (kSeq d) = true) ∧ (s.outerChunk (kGroup d) (kSeq d) (kChunk d) = none) ∧ (s.collOp (kGroup d) (kSeq d) = none) ∧ (((s.grpState (kGroup d)).past.take (s.fld Reg.COL_ADMIT_CFG_RESULT_DEPTH)).find? (fun p => p.seq == kSeq d) = some p) ∧ (kChunk d ∈ p.done) ∧ (p.code ≠ 0) ∧ (p.code ≠ 3)) ∧
    (∃ (s : State) (req : Nat) (frame d : Bytes) (l : List Nat) (c : Ctx), (s.coreOff = false) ∧ (s.tpt.parked = []) ∧ (s.datagramOf frame = some (d, true)) ∧ (tpBad d = false) ∧ ((s.settStore req frame).1 = some l) ∧ (tDst d < 262144) ∧ (s.ctx? (tDst d) = some c) ∧ (c.failed = false) ∧ (s.cached (tDst d) = true) ∧ (tGen d = cGen (s.ctxRec (tDst d))) ∧ (tTyp d = 2) ∧ (kCtype d = 4) ∧ (s.collDone (kGroup d) (kSeq d) = true) ∧ (s.outerChunk (kGroup d) (kSeq d) (kChunk d) = none) ∧ (s.collOp (kGroup d) (kSeq d) = none) ∧ (((s.grpState (kGroup d)).past.take (s.fld Reg.COL_ADMIT_CFG_RESULT_DEPTH)).find? (fun p => p.seq == kSeq d) = none)) ∧
    (∃ (s : State) (req : Nat) (frame d : Bytes) (l : List Nat) (c : Ctx) (o : CollOp) (r : Bytes), (s.coreOff = false) ∧ (s.tpt.parked = []) ∧ (s.datagramOf frame = some (d, true)) ∧ (tpBad d = false) ∧ ((s.settStore req frame).1 = some l) ∧ (tDst d < 262144) ∧ (s.ctx? (tDst d) = some c) ∧ (c.failed = false) ∧ (s.cached (tDst d) = true) ∧ (tGen d = cGen (s.ctxRec (tDst d))) ∧ (tTyp d = 2) ∧ (kCtype d = 5) ∧ (s.col.ops = [((kGroup d, kSeq d), o)]) ∧ (s.col.held = []) ∧ (o.group = kGroup d) ∧ (o.seq = kSeq d) ∧ (s.collGroup (kGroup d) = some r) ∧ (gUplink r = tDst d) ∧ (o.queries.has (kChunk d) = true) ∧ (o.leaving = [])) ∧
    (∃ (s : State) (g q chunk n : Nat) (o : CollOp) (r : Bytes), (s.coreOff = false) ∧ (s.tpt.parked = []) ∧ (s.collOp g q = some o) ∧ (o.group = g) ∧ (o.seq = q) ∧ (s.collGroup g = some r) ∧ (o.queries.find chunk = some n) ∧ (s.uplinkAcked (gUplink r) g q chunk = true) ∧ (n < 8)) ∧
    (∃ (s : State) (g q chunk n : Nat) (o : CollOp) (r : Bytes), (s.coreOff = false) ∧ (s.tpt.parked = []) ∧ (s.col.ops = [((g, q), o)]) ∧ (s.col.held = []) ∧ (o.group = g) ∧ (o.seq = q) ∧ (s.collGroup g = some r) ∧ (o.queries.find chunk = some n) ∧ (s.uplinkAcked (gUplink r) g q chunk = true) ∧ (8 ≤ n) ∧ (o.leaving = [])) ∧
    (∃ (s : State) (g q chunk : Nat), s.collOp g q = none ∨ s.collGroup g = none) :=
  ⟨⟨ctxOn {}, 149, dgram (ctrlOn 2 3 1 2 0), ctrlOn 2 3 1 2 0, List.range 1 |>.map (· + 786432), {}, by decide +kernel⟩,
    ⟨let s := ctxOn {}; { s with col := { ops := [((3, 1), ({ group := 3, seq := 1, code := 0, spec := none, chunks := 4, param := 0, admission := .admitted, nextBow := 4, nextStern := 5, complete := [2], queries := [(2, 1)] } : CollOp))] }, swc := { s.swc with tab := [((0x30, 3), bytesLE 4 0x30 ++ bytesLE 4 3 ++ bytesLE 2 1 ++ bytesLE 2 9 ++ bytesLE 4 0 ++ bytesLE 4 7 ++ bytesLE 4 5 ++ bytesLE 4 1 ++ zeros 4)] } }, 149, dgram (onCtx 2 0 0 (bareHead 34) (ctrlHead 3 0 3 1 2 0 1024 0 0 0 ++ [1, 2])), onCtx 2 0 0 (bareHead 34) (ctrlHead 3 0 3 1 2 0 1024 0 0 0 ++ [1, 2]), List.range 1 |>.map (· + 786432), {}, ({ group := 3, seq := 1, code := 0, spec := none, chunks := 4, param := 0, admission := .admitted, nextBow := 4, nextStern := 5, complete := [2], queries := [(2, 1)] } : CollOp), bytesLE 4 0x30 ++ bytesLE 4 3 ++ bytesLE 2 1 ++ bytesLE 2 9 ++ bytesLE 4 0 ++ bytesLE 4 7 ++ bytesLE 4 5 ++ bytesLE 4 1 ++ zeros 4, by decide +kernel⟩,
    ⟨({ ctxOn {} with col := { groups := [(3, { doneNext := 2, past := [⟨1, 0, 1, 0, 0x100000000000, [2]⟩] })] }, mem := { extents := [(0, (3, 0))] } }).setFlag Reg.MMU_DOM_CFG_IDENTITY 0 true, 149, dgram (ctrlOn 4 3 1 2 0), ctrlOn 4 3 1 2 0, List.range 1 |>.map (· + 786432), {}, ⟨1, 0, 1, 0, 0x100000000000, [2]⟩, by decide +kernel⟩,
    ⟨{ ctxOn {} with col := { groups := [(3, { doneNext := 2, past := [⟨1, 1, 0, 0, 0, [2]⟩] })] } }, 149, dgram (ctrlOn 4 3 1 2 0), ctrlOn 4 3 1 2 0, List.range 1 |>.map (· + 786432), {}, ⟨1, 1, 0, 0, 0, [2]⟩, by decide +kernel⟩,
    ⟨{ ctxOn {} with col := { groups := [(3, { doneNext := 2 })] } }, 149, dgram (ctrlOn 4 3 1 2 0), ctrlOn 4 3 1 2 0, List.range 1 |>.map (· + 786432), {}, by decide +kernel⟩,
    ⟨let s := ctxOn {}; { s with col := { ops := [((3, 1), ({ group := 3, seq := 1, code := 0, spec := none, chunks := 4, param := 0, admission := .admitted, nextBow := 4, nextStern := 5, complete := [2], queries := [(2, 1)] } : CollOp))] }, swc := { s.swc with tab := [((0x30, 3), bytesLE 4 0x30 ++ bytesLE 4 3 ++ bytesLE 2 1 ++ bytesLE 2 9 ++ bytesLE 4 0 ++ bytesLE 4 7 ++ bytesLE 4 5 ++ bytesLE 4 1 ++ zeros 4)] } }, 149, dgram (ctrlOn 5 3 1 2 0), ctrlOn 5 3 1 2 0, List.range 1 |>.map (· + 786432), {}, ({ group := 3, seq := 1, code := 0, spec := none, chunks := 4, param := 0, admission := .admitted, nextBow := 4, nextStern := 5, complete := [2], queries := [(2, 1)] } : CollOp), bytesLE 4 0x30 ++ bytesLE 4 3 ++ bytesLE 2 1 ++ bytesLE 2 9 ++ bytesLE 4 0 ++ bytesLE 4 7 ++ bytesLE 4 5 ++ bytesLE 4 1 ++ zeros 4, by decide +kernel⟩,
    ⟨let s := ctxOn {}; { s with col := { ops := [((3, 1), ({ group := 3, seq := 1, code := 0, spec := none, chunks := 4, param := 0, admission := .admitted, nextBow := 4, nextStern := 5, complete := [2], queries := [(2, 1)] } : CollOp))] }, swc := { s.swc with tab := [((0x30, 3), bytesLE 4 0x30 ++ bytesLE 4 3 ++ bytesLE 2 1 ++ bytesLE 2 9 ++ bytesLE 4 0 ++ bytesLE 4 7 ++ bytesLE 4 5 ++ bytesLE 4 1 ++ zeros 4)] } }, 3, 1, 2, 1, ({ group := 3, seq := 1, code := 0, spec := none, chunks := 4, param := 0, admission := .admitted, nextBow := 4, nextStern := 5, complete := [2], queries := [(2, 1)] } : CollOp), bytesLE 4 0x30 ++ bytesLE 4 3 ++ bytesLE 2 1 ++ bytesLE 2 9 ++ bytesLE 4 0 ++ bytesLE 4 7 ++ bytesLE 4 5 ++ bytesLE 4 1 ++ zeros 4, by decide +kernel⟩,
    ⟨let s := ctxOn {}; { s with col := { ops := [((3, 1), ({ group := 3, seq := 1, code := 0, spec := none, chunks := 4, param := 0, admission := .admitted, nextBow := 4, nextStern := 5, complete := [2], queries := [(2, 8)] } : CollOp))] }, swc := { s.swc with tab := [((0x30, 3), bytesLE 4 0x30 ++ bytesLE 4 3 ++ bytesLE 2 1 ++ bytesLE 2 9 ++ bytesLE 4 0 ++ bytesLE 4 7 ++ bytesLE 4 5 ++ bytesLE 4 1 ++ zeros 4)] } }, 3, 1, 2, 8, ({ group := 3, seq := 1, code := 0, spec := none, chunks := 4, param := 0, admission := .admitted, nextBow := 4, nextStern := 5, complete := [2], queries := [(2, 8)] } : CollOp), bytesLE 4 0x30 ++ bytesLE 4 3 ++ bytesLE 2 1 ++ bytesLE 2 9 ++ bytesLE 4 0 ++ bytesLE 4 7 ++ bytesLE 4 5 ++ bytesLE 4 1 ++ zeros 4, by decide +kernel⟩,
    ⟨up, 0, 0, 0, by decide +kernel⟩⟩

theorem witness_LlrRows :
    (∃ (s : State) (port : Nat), (s.coreOff = false) ∧ (s.llrOn port = true) ∧ (s.portUp port = true)) ∧
    (∃ (s : State) (port : Nat), s.llrOn port = false ∨ s.portUp port = false) ∧
    (∃ (s : State) (port : Nat), (s.coreOff = false) ∧ (s.tpt.parked = []) ∧ (s.llrOn port = true) ∧ (s.portUp port = true)) ∧
    (∃ (s : State) (port : Nat), s.llrOn port = false ∨ s.portUp port = false) ∧
    (∃ (s : State) (port lsn : Nat) (frame : Bytes), (s.coreOff = false) ∧ (s.tpt.parked = []) ∧ ((s.llrOf port).active = true) ∧ (s.portUp port = true) ∧ (lsn = (s.llrOf port).rxNext) ∧ (s.encrypts port = false) ∧ (s.pipelineSlow port = false) ∧ (parseFrame (s.fld Reg.SWC_PARSE_CFG_OUTER_TPID) frame = Parse.nonIp)) ∧
    (∃ (s : State) (port lsn : Nat) (frame : Bytes), (s.coreOff = false) ∧ ((s.llrOf port).active = true) ∧ (s.portUp port = true) ∧ (lsn ≠ (s.llrOf port).rxNext) ∧ (lsnLe lsn (s.llrOf port).rxNext = false) ∧ ((s.llrOf port).naked = false)) ∧
    (∃ (s : State) (port lsn : Nat) (frame : Bytes), (s.llrOf port).active = false ∨ s.portUp port = false ∨ (lsn ≠ (s.llrOf port).rxNext ∧ (lsnLe lsn (s.llrOf port).rxNext = true ∨ (s.llrOf port).naked = true))) ∧
    (∃ (s : State) (port lsn qdelay : Nat), (s.coreOff = false) ∧ (s.tpt.parked = []) ∧ ((s.llrOf port).active = true)) ∧
    (∃ (s : State) (port lsn qdelay : Nat), (s.llrOf port).active = false) ∧
    (∃ (s : State) (port lsn qdelay : Nat), (s.coreOff = false) ∧ ((s.llrOf port).active = true) ∧ ((s.llrOf port).held.all (fun h => !lsnLe h.1 lsn) = true) ∧ ((s.llrOf port).held ≠ []) ∧ ((s.llrOf port).replays < 7)) ∧
    (∃ (s : State) (port lsn qdelay : Nat), (s.llrOf port).active = false) ∧
    (∃ (s : State) (port : Nat), (s.coreOff = false) ∧ ((s.llrOf port).active = true) ∧ ((s.llrOf port).sinceAck ≠ 0)) ∧
    (∃ (s : State) (port : Nat), (s.llrOf port).active = false ∨ (s.llrOf port).sinceAck = 0) ∧
    (∃ (s : State) (port : Nat), (s.coreOff = false) ∧ ((s.llrOf port).active = true) ∧ ((s.llrOf port).held ≠ []) ∧ ((s.llrOf port).replays < 7)) ∧
    (∃ (s : State) (port : Nat), (s.coreOff = false) ∧ ((s.llrOf port).active = true) ∧ ((s.llrOf port).held ≠ []) ∧ (7 ≤ (s.llrOf port).replays)) ∧
    (∃ (s : State) (port : Nat), (s.llrOf port).active = false ∨ (s.llrOf port).held = []) :=
  ⟨⟨let s := portOn 5; s.setFld Reg.TPT_LLR_CFG_ENABLE 5 1, 5, by decide +kernel⟩,
    ⟨up, 575, by decide +kernel⟩,
    ⟨((portOn 5).setFld Reg.TPT_LLR_CFG_ENABLE 5 1).setLlr 5 { active := true, rxNext := 7, held := [(3, [], [])] }, 5, by decide +kernel⟩,
    ⟨up, 575, by decide +kernel⟩,
    ⟨(portOn 5).setLlr 5 { active := true, rxNext := 65535, sinceAck := 15 }, 5, 65535, eth 0x1234 [], by decide +kernel⟩,
    ⟨(portOn 5).setLlr 5 { active := true, rxNext := 0 }, 5, 1, [], by decide +kernel⟩,
    ⟨(portOn 5).setLlr 5 { active := true, rxNext := 0 }, 5, 65535, [], by decide +kernel⟩,
    ⟨(portOn 5).setLlr 5 { active := true, held := [(65535, [], []), (0, [], [])], replays := 3 }, 5, 65535, 9, by decide +kernel⟩,
    ⟨up, 575, 0, 0, by decide +kernel⟩,
    ⟨(portOn 5).setLlr 5 { active := true, held := [(1, [7], []), (2, [8], [])], replays := 6 }, 5, 0, 9, by decide +kernel⟩,
    ⟨up, 575, 0, 0, by decide +kernel⟩,
    ⟨(portOn 5).setLlr 5 { active := true, rxNext := 0, sinceAck := 1 }, 5, by decide +kernel⟩,
    ⟨up, 575, by decide +kernel⟩,
    ⟨(portOn 5).setLlr 5 { active := true, held := [(1, [7], []), (2, [8], [])], replays := 6 }, 5, by decide +kernel⟩,
    ⟨(portOn 5).setLlr 5 { active := true, held := [(1, [7], [])], replays := 7 }, 5, by decide +kernel⟩,
    ⟨up, 575, by decide +kernel⟩⟩

theorem witness_CollectiveStartRows :
    (∃ (s : State) (code : Nat) (op : OpKey) (o : Op) (st : Nat), (code ≤ 5) ∧ (s.Ready op o) ∧ (dKind o.desc = kindCOLL) ∧ (dOp o.desc = code) ∧ (s.collRefusal o.fn o.desc = some st)) ∧
    (∃ (s : State) (code : Nat) (op : OpKey) (o : Op), (code ≤ 5) ∧ (s.Ready op o) ∧ (dKind o.desc = kindCOLL) ∧ (dOp o.desc = code) ∧ (s.collRefusal o.fn o.desc = none) ∧ (s.collDenied o = true)) ∧
    (∃ (s : State) (code : Nat) (op : OpKey) (o : Op), (code ≤ 5) ∧ (s.Ready op o) ∧ (dKind o.desc = kindCOLL) ∧ (dOp o.desc = code) ∧ (s.collRefusal o.fn o.desc = none) ∧ (s.collDenied o = false) ∧ (cChunkCount o.desc = 0)) ∧
    (∃ (s : State) (code : Nat) (op : OpKey) (o : Op), (code ≤ 5) ∧ (s.Ready op o) ∧ (dKind o.desc = kindCOLL) ∧ (dOp o.desc = code) ∧ (s.collRefusal o.fn o.desc = none) ∧ (s.collDenied o = false) ∧ (cChunkCount o.desc ≠ 0) ∧ (s.col.ops = []) ∧ (s.col.held = []) ∧ (s.col.bayWaits = [])) ∧
    (∃ (s : State) (op : OpKey) (o : Op), (s.Ready op o) ∧ (dKind o.desc = kindCOLL) ∧ (dOp o.desc = 6) ∧ (∀ c ∈ (s.collOp (cGroup o.desc) (cOpSeq o.desc)).toList, c.plan.isSome = true)) ∧
    (∃ (s : State) (op : OpKey) (o : Op) (c : CollOp), (s.Ready op o) ∧ (dKind o.desc = kindCOLL) ∧ (dOp o.desc = 6) ∧ (s.collOp (cGroup o.desc) (cOpSeq o.desc) = some c) ∧ (c.group = cGroup o.desc) ∧ (c.seq = cOpSeq o.desc) ∧ (c.plan = none) ∧ (c.leaving ≠ []) ∧ (c.areaHeld = false)) ∧
    (∃ (s : State) (op : OpKey) (o : Op) (c : CollOp), (s.Ready op o) ∧ (dKind o.desc = kindCOLL) ∧ (dOp o.desc = 6) ∧ (s.tpt.parked = []) ∧ (s.col.ops = [((cGroup o.desc, cOpSeq o.desc), c)]) ∧ (s.col.held = []) ∧ (c.group = cGroup o.desc) ∧ (c.seq = cOpSeq o.desc) ∧ (c.plan = none) ∧ (c.leaving = []) ∧ (c.desc ≠ some op)) :=
  ⟨⟨(withOp (collDesc 5 1 0)), 5, ⟨0, 0⟩, theOp (collDesc 5 1 0), stCOLL_BAD_GROUP, by decide +kernel⟩,
    ⟨(rootGroup (withOp (collDesc 0 1 4096))).setOp { theOp (collDesc 0 1 4096) with dark := true }, 0, ⟨0, 0⟩, { theOp (collDesc 0 1 4096) with dark := true }, by decide +kernel⟩,
    ⟨rootGroup (withOp (collDesc 3 0 0)), 3, ⟨0, 0⟩, theOp (collDesc 3 0 0), by decide +kernel⟩,
    ⟨rootGroup (withOp (collDesc 3 2 0)), 3, ⟨0, 0⟩, theOp (collDesc 3 2 0), by decide +kernel⟩,
    ⟨withOp (collDesc 6 0 0), ⟨0, 0⟩, theOp (collDesc 6 0 0), by decide +kernel⟩,
    ⟨oneColl { group := 3, seq := 1, code := 3, spec := none, chunks := 4, param := 0, leaving := [{ chunk := 0 }] } (withOp (collDesc 6 0 0)), ⟨0, 0⟩, theOp (collDesc 6 0 0), { group := 3, seq := 1, code := 3, spec := none, chunks := 4, param := 0, leaving := [{ chunk := 0 }] }, by decide +kernel⟩,
    ⟨oneColl { group := 3, seq := 1, code := 3, spec := none, chunks := 4, param := 0 } (withOp (collDesc 6 0 0)), ⟨0, 0⟩, theOp (collDesc 6 0 0), { group := 3, seq := 1, code := 3, spec := none, chunks := 4, param := 0 }, by decide +kernel⟩⟩

theorem witness_SpillAndTensorRows :
    (∃ (s : State) (g q chunk : Nat) (o : CollOp) (b : Bay) (sp : Spilled), (s.coreOff = false) ∧ (s.col.ops = [((g, q), o)]) ∧ (s.col.held = []) ∧ (s.col.bayWaits = []) ∧ (o.group = g) ∧ (o.seq = q) ∧ (o.plan = none) ∧ (o.spill = 0) ∧ (o.spec = none) ∧ (o.logHeld = []) ∧ (o.done.length ≠ o.chunks) ∧ (o.admission = AdmitState.wait) ∧ (o.leaving.find? (fun b => b.chunk == chunk) = some b) ∧ (o.spilled.find? (fun b => b.chunk == chunk) = some sp) ∧ (o.leaving.filter (fun x => x.chunk != chunk) ≠ [])) ∧
    (∃ (s : State) (g q chunk st : Nat) (o : CollOp) (b : Bay) (sp : Spilled), (s.coreOff = false) ∧ (s.col.ops = [((g, q), o)]) ∧ (s.col.held = []) ∧ (s.col.bayWaits = []) ∧ (o.group = g) ∧ (o.seq = q) ∧ (o.plan = none) ∧ (o.spill = 0) ∧ (o.spec = none) ∧ (o.logHeld = []) ∧ (o.done.length ≠ o.chunks) ∧ (s.tpt.parked = []) ∧ (o.leaving = [b]) ∧ (b.chunk = chunk) ∧ (o.spilled.find? (fun b => b.chunk == chunk) = some sp) ∧ (o.ending = some st)) ∧
    (∃ (s : State) (g q chunk : Nat), s.collOp g q = none) ∧
    (∃ (s : State) (g q chunk : Nat) (o : CollOp) (sp : Spilled), (s.coreOff = false) ∧ (s.col.ops = [((g, q), o)]) ∧ (s.col.held = []) ∧ (s.col.bayWaits = []) ∧ (o.group = g) ∧ (o.seq = q) ∧ (o.plan = none) ∧ (o.spill = 0) ∧ (o.spec = none) ∧ (o.logHeld = []) ∧ (o.done.length ≠ o.chunks) ∧ (o.admission = AdmitState.admitted) ∧ (o.leaving = []) ∧ (o.chunks ≤ o.nextBow) ∧ (o.chunks ≤ o.nextStern) ∧ (o.spilled.find? (fun b => b.chunk == chunk && b.written) = some sp)) ∧
    (∃ (s : State) (g q chunk : Nat) (r : MemRead), s.collOp g q = none) ∧
    (∃ (s : State) (n off i : Nat) (b : Bytes) (c : TCtx), (s.coreOff = false) ∧ (s.tfb.ctxs = [(n, c)]) ∧ (c.st = csxRUNNING) ∧ (c.saving = false) ∧ (c.restoring = false) ∧ (c.restart = false) ∧ (c.preempt = false) ∧ (s.domainOn c.runDomain = true) ∧ (off + b.length ≤ tWsKib c.cont * 1024) ∧ (b.length ≤ (bodyLimits c.cont c.body).1 * 1024) ∧ (i < tGroupCount c.cont) ∧ (c.groups + 1 < 2 ^ 32 - 1)) ∧
    (∃ (s : State) (n : Nat) (c : TCtx) (r : Run), (s.coreOff = false) ∧ (s.tfb.ctxs = [(n, c)]) ∧ (c.st = csxRUNNING) ∧ (c.saving = false) ∧ (c.restoring = false) ∧ (c.restart = false) ∧ (s.domainOn c.runDomain = true) ∧ (c.die < 2) ∧ (c.cur = some r) ∧ (c.queue = []) ∧ (c.unload = false) ∧ (r.plan = none) ∧ (r.rig = none) ∧ (r.outer = none)) ∧
    (∃ (s : State) (n : Nat) (c : TCtx) (r : Run) (ops : List TOp) (go : GroupNext), (s.coreOff = false) ∧ (s.tfb.ctxs = [(n, c)]) ∧ (c.st = csxRUNNING) ∧ (c.saving = false) ∧ (c.restoring = false) ∧ (s.domainOn c.runDomain = false) ∧ (c.die < 2) ∧ (c.cur = some r) ∧ (c.queue = []) ∧ (c.unload = false) ∧ (r.plan = none) ∧ (r.rig = none) ∧ (r.outer = none)) ∧
    (∃ (s : State) (n : Nat) (ops : List TOp) (go : GroupNext), (s.tctx n).st ≠ csxRUNNING ∨ (s.tctx n).saving = true ∨ (s.tctx n).restoring = true) ∧
    (∃ (s : State) (n : Nat) (c : TCtx), (s.coreOff = false) ∧ (s.tfb.ctxs = [(n, c)]) ∧ (c.saving = true) ∧ (c.cur = none)) ∧
    (∃ (s : State) (n : Nat), (s.tctx n).saving = false) ∧
    (∃ (s : State) (n : Nat), (s.coreOff = false) ∧ ((s.tctx n).restoring = true)) ∧
    (∃ (s : State) (n : Nat) (r : MemRead), (s.tctx n).restoring = false) ∧
    (∃ (s : State) (n m d : Nat) (c w : TCtx), (s.coreOff = false) ∧ (s.tfb.ctxs = [(n, c), (m, w)]) ∧ (m ≠ n) ∧ (c.st = csxRUNNING) ∧ (c.classT = false) ∧ (c.saving = false) ∧ (c.restoring = false) ∧ (c.die = d) ∧ (d < 2) ∧ (w.waits = true) ∧ (w.classT = false) ∧ (w.options = [d])) ∧
    (∃ (s : State) (n : Nat), (s.tctx n).st ≠ csxRUNNING ∨ (s.tctx n).classT = true ∨ ∀ p ∈ s.tfb.ctxs, p.1 = n ∨ p.2.waits = false) ∧
    (∃ (s : State) (n : Nat), (s.coreOff = false) ∧ ((s.tctx n).st = csxRUNNING) ∧ ((s.tctx n).die < 2) ∧ (720 ≤ s.fld Reg.PWR_VFLOOR_STATUS_CORE_MV)) ∧
    (∃ (s : State) (n : Nat), (s.tctx n).st ≠ csxRUNNING ∨ s.fld Reg.PWR_VFLOOR_STATUS_CORE_MV < 720) ∧
    (∃ (s : State) (x : Nat) (q : QBlock) (rest : List QBlock), (s.coreOff = false) ∧ (s.ash.queues.getD x [] = q :: rest) ∧ (ashRubble q.block = false)) ∧
    (∃ (s : State) (x : Nat), s.ash.queues.getD x [] = []) ∧
    (∃ (s : State) (x idx : Nat) (k : OpKey) (o : Op) (b : Bytes), (s.coreOff = false) ∧ (s.op? k = some o) ∧ (o.runs = true) ∧ (dKind o.desc = kindXFER) ∧ (dOp o.desc = 1) ∧ (x = 16 ∨ x = 17) ∧ (o.hold = .none) ∧ (idx < 256) ∧ (o.seg * 256 + idx < xLength o.desc / ashBytes (xProfile o.desc)) ∧ (((s.ash.ready.getD (.xfer k) []).any fun e => e.idx == idx) = false) ∧ (((s.ash.queues.getD 16 [] ++ s.ash.queues.getD 17 []).any fun q => q.who == .xfer k && q.idx == idx) = false) ∧ (xSrcSpace o.desc = 0) ∧ (s.blockCheck 0 (xProfile o.desc) (xTableId o.desc) b = none)) ∧
    (∃ (s : State) (x idx : Nat) (k : OpKey) (o : Op) (b : Bytes) (e : Nat), (s.coreOff = false) ∧ (s.op? k = some o) ∧ (o.runs = true) ∧ (dKind o.desc = kindXFER) ∧ (dOp o.desc = 1) ∧ (x = 16 ∨ x = 17) ∧ (o.hold = .none) ∧ (idx < 256) ∧ (o.seg * 256 + idx < xLength o.desc / ashBytes (xProfile o.desc)) ∧ (((s.ash.ready.getD (.xfer k) []).any fun e => e.idx == idx) = false) ∧ (((s.ash.queues.getD 16 [] ++ s.ash.queues.getD 17 []).any fun q => q.who == .xfer k && q.idx == idx) = false) ∧ (xSrcSpace o.desc = 0) ∧ (o.key = k) ∧ (o.lost = false) ∧ (k.slot ∈ (s.ring k.ring).taken) ∧ (s.blockCheck 0 (xProfile o.desc) (xTableId o.desc) b = some e)) ∧
    (∃ (s : State) (x n hdr idx : Nat) (r : MemRead), (s.tctx n).st ≠ csxRUNNING ∨ expanders ≤ x) ∧
    (∃ (s : State) (x n hdr idx a why st : Nat) (c : TCtx) (r : Run) (q : MemRead), (s.coreOff = false) ∧ (s.tfb.ctxs = [(n, c)]) ∧ (c.st = csxRUNNING) ∧ (c.saving = false) ∧ (c.restoring = false) ∧ (c.die < 2) ∧ (c.die = expanderDie x) ∧ (8 ≤ x % 18) ∧ (c.cur = some r) ∧ (c.queue = []) ∧ (c.unload = false) ∧ (r.plan = none) ∧ (r.rig = none) ∧ (r.outer = none) ∧ (s.rangeFault c.runDomain hdr 64 false = some (a, why)) ∧ (s.faultEnds why = some st) ∧ (st ≠ stOK)) :=
  ⟨⟨oneColl { group := 3, seq := 1, code := 3, spec := none, chunks := 4, param := 0, leaving := [{ chunk := 0 }, { chunk := 1 }], spilled := [⟨0, [], 0, 0, false⟩, ⟨1, [], 1, 0, false⟩] } up, 3, 1, 0, { group := 3, seq := 1, code := 3, spec := none, chunks := 4, param := 0, leaving := [{ chunk := 0 }, { chunk := 1 }], spilled := [⟨0, [], 0, 0, false⟩, ⟨1, [], 1, 0, false⟩] }, { chunk := 0 }, ⟨0, [], 0, 0, false⟩, by decide +kernel⟩,
    ⟨oneColl { group := 3, seq := 1, code := 3, spec := none, chunks := 4, param := 0, leaving := [{ chunk := 0 }], spilled := [⟨0, [], 0, 0, false⟩], ending := some 0x47 } up, 3, 1, 0, 0x47, { group := 3, seq := 1, code := 3, spec := none, chunks := 4, param := 0, leaving := [{ chunk := 0 }], spilled := [⟨0, [], 0, 0, false⟩], ending := some 0x47 }, { chunk := 0 }, ⟨0, [], 0, 0, false⟩, by decide +kernel⟩,
    ⟨up, 0, 0, 0, by decide +kernel⟩,
    ⟨oneColl { group := 3, seq := 1, code := 3, spec := none, chunks := 4, param := 0, admission := .admitted, nextBow := 4, nextStern := 5, spilled := [⟨0, [], 0, 0, true⟩, ⟨1, [], 1, 0, true⟩] } up, 3, 1, 0, { group := 3, seq := 1, code := 3, spec := none, chunks := 4, param := 0, admission := .admitted, nextBow := 4, nextStern := 5, spilled := [⟨0, [], 0, 0, true⟩, ⟨1, [], 1, 0, true⟩] }, ⟨0, [], 0, 0, true⟩, by decide +kernel⟩,
    ⟨up, 0, 0, 0, [], by decide +kernel⟩,
    ⟨{ up with tfb := { ctxs := [(63, ({ st := 3, die := 0, domain := 0, groups := 5, cont := (zeros 8 ++ bytesLE 4 64 ++ bytesLE 4 2 ++ zeros 4 ++ bytesLE 4 64 ++ zeros 232 ++ bytesLE 4 64 ++ bytesLE 4 0 ++ bytesLE 2 1 ++ zeros 54) } : TCtx))] } }.setFlag Reg.MMU_DOM_CFG_ENABLE 0 true, 63, 65535, 1, [7], ({ st := 3, die := 0, domain := 0, groups := 5, cont := (zeros 8 ++ bytesLE 4 64 ++ bytesLE 4 2 ++ zeros 4 ++ bytesLE 4 64 ++ zeros 232 ++ bytesLE 4 64 ++ bytesLE 4 0 ++ bytesLE 2 1 ++ zeros 54) } : TCtx), by decide +kernel⟩,
    ⟨{ up with tfb := { ctxs := [(63, ({ st := 3, die := 1, domain := 0, groups := 5, cont := (zeros 8 ++ bytesLE 4 64 ++ bytesLE 4 2 ++ zeros 4 ++ bytesLE 4 64 ++ zeros 232 ++ bytesLE 4 64 ++ bytesLE 4 0 ++ bytesLE 2 1 ++ zeros 54), cur := some {} } : TCtx))] } }.setFlag Reg.MMU_DOM_CFG_ENABLE 0 true, 63, ({ st := 3, die := 1, domain := 0, groups := 5, cont := (zeros 8 ++ bytesLE 4 64 ++ bytesLE 4 2 ++ zeros 4 ++ bytesLE 4 64 ++ zeros 232 ++ bytesLE 4 64 ++ bytesLE 4 0 ++ bytesLE 2 1 ++ zeros 54), cur := some {} } : TCtx), {}, by decide +kernel⟩,
    ⟨{ up with tfb := { ctxs := [(63, ({ st := 3, die := 1, domain := 9, cont := (zeros 8 ++ bytesLE 4 64 ++ bytesLE 4 2 ++ zeros 4 ++ bytesLE 4 64 ++ zeros 232 ++ bytesLE 4 64 ++ bytesLE 4 0 ++ bytesLE 2 1 ++ zeros 54), cur := some { domain := 9 } } : TCtx))] } }, 63, ({ st := 3, die := 1, domain := 9, cont := (zeros 8 ++ bytesLE 4 64 ++ bytesLE 4 2 ++ zeros 4 ++ bytesLE 4 64 ++ zeros 232 ++ bytesLE 4 64 ++ bytesLE 4 0 ++ bytesLE 2 1 ++ zeros 54), cur := some { domain := 9 } } : TCtx), { domain := 9 }, [.lost], .finish, by decide +kernel⟩,
    ⟨up, 0, [], .finish, by decide +kernel⟩,
    ⟨{ up with tfb := { ctxs := [(63, ({ st := 1, saving := true, die := 1 } : TCtx))] } }, 63, ({ st := 1, saving := true, die := 1 } : TCtx), by decide +kernel⟩,
    ⟨up, 0, by decide +kernel⟩,
    ⟨{ up with tfb := { ctxs := [(63, ({ st := 2, restoring := true, die := 1, saved := some 5 } : TCtx))] } }, 63, by decide +kernel⟩,
    ⟨up, 0, [], by decide +kernel⟩,
    ⟨{ up with tfb := { ctxs := [(1, { st := 3, die := 0 }), (2, { st := 2, cur := some {}, cont := zeros 256 })] } }, 1, 2, 0, { st := 3, die := 0 }, { st := 2, cur := some {}, cont := zeros 256 }, by decide +kernel⟩,
    ⟨up, 0, by decide +kernel⟩,
    ⟨{ up with tfb := { ctxs := [(1, { st := 3, die := 1 })] } }.setFld Reg.PWR_VFLOOR_STATUS_CORE_MV 0 720, 1, by decide +kernel⟩,
    ⟨up, 0, by decide +kernel⟩,
    ⟨{ up with ash := { queues := [(35, [⟨.run 0, zeros 64, 0, 0, 0, 1⟩])] } }, 35, ⟨.run 0, zeros 64, 0, 0, 0, 1⟩, [], by decide +kernel⟩,
    ⟨up, 0, by decide +kernel⟩,
    ⟨{ ((withOp (desc [(0, 1, 2), (1, 1, 1), (0x20, 8, 288), (0x40, 0, 0)])).setOp { theOp (desc [(0, 1, 2), (1, 1, 1), (0x20, 8, 288), (0x40, 0, 0)]) with phase := .running }) with ash := { slots := [((0, 0), { st := 1, size := 0 })] } }, 17, 1, ⟨0, 0⟩, { theOp (desc [(0, 1, 2), (1, 1, 1), (0x20, 8, 288), (0x40, 0, 0)]) with phase := .running }, (zeros 6 ++ bytesLE 2 (crc16 (zeros 142)) ++ zeros 136), by decide +kernel⟩,
    ⟨{ ((withOp (desc [(0, 1, 2), (1, 1, 1), (0x20, 8, 288), (0x40, 0, 0)])).setOp { theOp (desc [(0, 1, 2), (1, 1, 1), (0x20, 8, 288), (0x40, 0, 0)]) with phase := .running }) with ash := { slots := [((0, 0), { st := 1, size := 0 })] } }, 17, 1, ⟨0, 0⟩, { theOp (desc [(0, 1, 2), (1, 1, 1), (0x20, 8, 288), (0x40, 0, 0)]) with phase := .running }, [1], 1, by decide +kernel⟩,
    ⟨up, 40, 0, 0, 0, [], by decide +kernel⟩,
    ⟨(({ up with tfb := { ctxs := [(63, { st := 3, die := 1, domain := 1, cur := some { domain := 1 } })] } }).setFlag Reg.MMU_DOM_CFG_IDENTITY 1 true).setFld Reg.MMU_FAULT_CFG_DEV_WAIT_US 0 0, 30, 63, 0x100000000000, 0, 0x100000000000, frUNBACKED, stTRANSLATION_FAULT, { st := 3, die := 1, domain := 1, cur := some { domain := 1 } }, { domain := 1 }, [], by decide +kernel⟩⟩

theorem witness_TransferRows :
    (∃ (s : State) (op : OpKey) (o : Op), (s.Ready op o) ∧ (isXfer 0 o.desc = true) ∧ (o.endWith = none) ∧ (xLength o.desc = 0)) ∧
    (∃ (s : State) (op : OpKey) (o : Op) (st : Nat), (s.Ready op o) ∧ (isXfer 0 o.desc = true) ∧ (o.endWith = none) ∧ (xLength o.desc ≠ 0) ∧ (s.xferRefusal o true true = some st)) ∧
    (∃ (s : State) (op : OpKey) (o : Op), (s.Ready op o) ∧ (isXfer 0 o.desc = true) ∧ (o.endWith = none) ∧ (xLength o.desc ≠ 0) ∧ (s.xferRefusal o true true = none) ∧ (xferOverlaps o.desc = true)) ∧
    (∃ (s : State) (op : OpKey) (o : Op), (s.Ready op o) ∧ (isXfer 0 o.desc = true) ∧ (o.endWith = none) ∧ (xLength o.desc ≠ 0) ∧ (s.xferRefusal o true true = none) ∧ (xferOverlaps o.desc = false)) ∧
    (∃ (s : State) (op : OpKey) (o : Op), (s.Ready op o) ∧ (isXfer 1 o.desc = true) ∧ (o.endWith = none) ∧ (xLength o.desc = 0)) ∧
    (∃ (s : State) (op : OpKey) (o : Op) (st : Nat), (s.Ready op o) ∧ (isXfer 1 o.desc = true) ∧ (o.endWith = none) ∧ (xLength o.desc ≠ 0) ∧ (xProfile o.desc ≤ 2 ∧ xLength o.desc % ashBytes (xProfile o.desc) = 0) ∧ (s.xferRefusal o true true = some st)) ∧
    (∃ (s : State) (op : OpKey) (o : Op), (s.Ready op o) ∧ (isXfer 1 o.desc = true) ∧ (o.endWith = none) ∧ (xLength o.desc ≠ 0) ∧ (xProfile o.desc ≤ 2 ∧ xLength o.desc % ashBytes (xProfile o.desc) = 0) ∧ (s.xferRefusal o true true = none) ∧ (xferOverlaps o.desc = true)) ∧
    (∃ (s : State) (op : OpKey) (o : Op), (s.Ready op o) ∧ (isXfer 1 o.desc = true) ∧ (o.endWith = none) ∧ (xLength o.desc ≠ 0) ∧ (xProfile o.desc ≤ 2 ∧ xLength o.desc % ashBytes (xProfile o.desc) = 0) ∧ (s.xferRefusal o true true = none) ∧ (xferOverlaps o.desc = false)) ∧
    (∃ (s : State) (op : OpKey) (o : Op), (s.Ready op o) ∧ (isXfer 1 o.desc = true) ∧ (o.endWith = none) ∧ (xLength o.desc ≠ 0) ∧ (2 < xProfile o.desc ∨ xLength o.desc % ashBytes (xProfile o.desc) ≠ 0)) ∧
    (∃ (s : State) (op : OpKey) (o : Op) (st : Option Bytes), (s.Ready op o) ∧ (isXfer 4 o.desc = true) ∧ (o.endWith = none) ∧ (xLength o.desc ≠ 0) ∧ (1 < kMode o.desc ∨ 3 < getLE o.desc 0x2C 1 ∨ allZero (sliceB o.desc 0x2D 3) = false)) ∧
    (∃ (s : State) (op : OpKey) (o : Op) (st : Option Bytes), (s.Ready op o) ∧ (isXfer 4 o.desc = true) ∧ (o.endWith = none) ∧ (xLength o.desc ≠ 0) ∧ (kMode o.desc ≤ 1) ∧ (getLE o.desc 0x2C 1 ≤ 3) ∧ (allZero (sliceB o.desc 0x2D 3) = true) ∧ (s.xferRefusal o true true = none) ∧ (xferOverlaps o.desc = false) ∧ (kMode o.desc = 1 ∨ kStart o.desc = true) ∧ (s.kmc.chain = [])) ∧
    (∃ (s : State) (op : OpKey) (o : Op), (s.Ready op o) ∧ (isXfer 4 o.desc = true) ∧ (o.endWith = none) ∧ (xLength o.desc ≠ 0) ∧ (kMode o.desc ≤ 1) ∧ (getLE o.desc 0x2C 1 ≤ 3) ∧ (allZero (sliceB o.desc 0x2D 3) = true) ∧ (s.xferRefusal o true true = none) ∧ (xferOverlaps o.desc = false) ∧ (kMode o.desc = 0) ∧ (kStart o.desc = false)) ∧
    (∃ (s : State) (op : OpKey) (o : Op) (dst : HostAccess) (r : MemRead), (s.coreOff = false) ∧ (o.lost = false) ∧ (s.op? op = some o) ∧ (o.key = op) ∧ (op.slot ∈ (s.ring op.ring).taken) ∧ (o.phase = OpPhase.running) ∧ (o.hold = Hold.none) ∧ (o.endWith = none) ∧ (isXfer 0 o.desc = true) ∧ (xSrcSpace o.desc = 0) ∧ (xDstSpace o.desc = 0)) ∧
    (∃ (s : State) (op : OpKey) (o : Op) (b : Bytes) (x : Option Bytes) (r : MemRead), (s.coreOff = false) ∧ (o.lost = false) ∧ (s.op? op = some o) ∧ (o.key = op) ∧ (op.slot ∈ (s.ring op.ring).taken) ∧ (o.phase = OpPhase.running) ∧ (o.hold = Hold.none) ∧ (o.endWith = none) ∧ (isXfer 0 o.desc = true) ∧ (xSrcSpace o.desc = 0) ∧ (xDstSpace o.desc = 0)) ∧
    (∃ (s : State) (op : OpKey) (src dst : HostAccess) (r : MemRead), ∀ o ∈ (s.op? op).toList, o.phase ≠ OpPhase.running ∨ dKind o.desc ≠ kindXFER ∨ o.hold ≠ Hold.none) ∧
    (∃ (s : State) (op : OpKey) (o : Op) (b : Option Bytes) (e : Nat), (s.Ready op o) ∧ (isMgmt 0xd o.desc = true) ∧ (o.fn = 0) ∧ (s.codeTableRefusal o (b.getD []) = some e) ∧ (e ≠ 2)) ∧
    (∃ (s : State) (op : OpKey) (o : Op) (b : Bytes), (s.Ready op o) ∧ (isMgmt 0xd o.desc = true) ∧ (o.fn = 0) ∧ (bitAt (mParam0 o.desc) 10 = false) ∧ (codeTableDies (mParam0 o.desc) = [1]) ∧ (s.codeTableRefusal o b = none)) ∧
    (∃ (s : State) (op : OpKey) (o : Op) (b : Option Bytes), (s.Ready op o) ∧ (isMgmt 0xd o.desc = true) ∧ (o.fn = 0) ∧ (bitAt (mParam0 o.desc) 10 = true) ∧ (codeTableDies (mParam0 o.desc) = [0]) ∧ (bitsOf (mParam0 o.desc) 11 2 ≠ 3)) :=
  ⟨⟨withOp (xferDesc 0 0 0 0 0 0 0 0), ⟨0, 0⟩, theOp (xferDesc 0 0 0 0 0 0 0 0), by decide +kernel⟩,
    ⟨withOp (xferDesc 0 (192) 2 0 2 0 0 0), ⟨0, 0⟩, theOp (xferDesc 0 (192) 2 0 2 0 0 0), stBAD_FIELD, by decide +kernel⟩,
    ⟨withOp (xferDesc 0 (2 ^ 30 + ashBytes 2 - 2 ^ 30 % ashBytes 2) 0 0 2 0 0 0), ⟨0, 0⟩, theOp (xferDesc 0 (2 ^ 30 + ashBytes 2 - 2 ^ 30 % ashBytes 2) 0 0 2 0 0 0), by decide +kernel⟩,
    ⟨withOp (xferDesc 0 (192) 0 0 2 0 0 0), ⟨0, 0⟩, theOp (xferDesc 0 (192) 0 0 2 0 0 0), by decide +kernel⟩,
    ⟨withOp (xferDesc 1 0 0 0 0 0 0 0), ⟨0, 0⟩, theOp (xferDesc 1 0 0 0 0 0 0 0), by decide +kernel⟩,
    ⟨withOp (xferDesc 1 (ashBytes 2 * 3) 2 0 2 0 0 0), ⟨0, 0⟩, theOp (xferDesc 1 (ashBytes 2 * 3) 2 0 2 0 0 0), stBAD_FIELD, by decide +kernel⟩,
    ⟨withOp (xferDesc 1 (2 ^ 30 + ashBytes 2 - 2 ^ 30 % ashBytes 2) 0 0 2 0 0 0), ⟨0, 0⟩, theOp (xferDesc 1 (2 ^ 30 + ashBytes 2 - 2 ^ 30 % ashBytes 2) 0 0 2 0 0 0), by decide +kernel⟩,
    ⟨withOp (xferDesc 1 (ashBytes 2 * 3) 0 0 2 0 0 0), ⟨0, 0⟩, theOp (xferDesc 1 (ashBytes 2 * 3) 0 0 2 0 0 0), by decide +kernel⟩,
    ⟨withOp (xferDesc 1 1 0 0 2 0 0 0), ⟨0, 0⟩, theOp (xferDesc 1 1 0 0 2 0 0 0), by decide +kernel⟩,
    ⟨withOp (xferDesc 4 64 0 0 2 0 0 0), ⟨0, 0⟩, theOp (xferDesc 4 64 0 0 2 0 0 0), none, by decide +kernel⟩,
    ⟨withOp (xferDesc 4 64 0 0 0 3 0 0), ⟨0, 0⟩, theOp (xferDesc 4 64 0 0 0 3 0 0), none, by decide +kernel⟩,
    ⟨withOp (xferDesc 4 64 0 0 0 2 0 0), ⟨0, 0⟩, theOp (xferDesc 4 64 0 0 0 2 0 0), by decide +kernel⟩,
    ⟨running (xferDesc 0 65537 0 0 0 0 0 0), ⟨0, 0⟩, { theOp (xferDesc 0 65537 0 0 0 0 0 0) with phase := .running }, .done none, [], by decide +kernel⟩,
    ⟨running (xferDesc 0 65537 0 0 0 0 0 0), ⟨0, 0⟩, { theOp (xferDesc 0 65537 0 0 0 0 0 0) with phase := .running }, [1], none, [], by decide +kernel⟩,
    ⟨up, ⟨0, 0⟩, .done none, .done none, [], by decide +kernel⟩,
    ⟨withOp (mgmtDesc 0xd 4096), ⟨0, 0⟩, theOp (mgmtDesc 0xd 4096), none, 4, by decide +kernel⟩,
    ⟨withOp (desc [(0, 1, 5), (0x10, 2, 0xD), (0x14, 4, 0x205), (0x20, 4, 32)]), ⟨0, 0⟩, theOp (desc [(0, 1, 5), (0x10, 2, 0xD), (0x14, 4, 0x205), (0x20, 4, 32)]), zeros 32, by decide +kernel⟩,
    ⟨withOp (mgmtDesc 0xd 1285), ⟨0, 0⟩, theOp (mgmtDesc 0xd 1285), none, by decide +kernel⟩⟩

theorem witness_LineSendRows :
    (∃ (s : State) (op : OpKey) (o : Op), (s.Ready op o) ∧ (isXfer 2 o.desc = true) ∧ (o.endWith = none) ∧ (xLength o.desc = 0)) ∧
    (∃ (s : State) (op : OpKey) (o : Op), (s.Ready op o) ∧ (isXfer 2 o.desc = true) ∧ (o.endWith = none) ∧ (xLength o.desc ≠ 0) ∧ (15 < xLg o.desc ∨ xQueue o.desc = 0 ∨ 7 < xQueue o.desc ∨ (xQueue o.desc = 7 ∧ s.flag Reg.SLF_GRP_CFG_PKT_Q7 (xLg o.desc) = true ∧ ¬(60 ≤ xLength o.desc ∧ xLength o.desc ≤ 9216)))) ∧
    (∃ (s : State) (op : OpKey) (o : Op) (st : Nat), (s.Ready op o) ∧ (isXfer 2 o.desc = true) ∧ (o.endWith = none) ∧ (xLength o.desc ≠ 0) ∧ (xLg o.desc ≤ 15) ∧ (xQueue o.desc ≠ 0) ∧ (xQueue o.desc ≤ 7) ∧ (¬(xQueue o.desc = 7 ∧ s.flag Reg.SLF_GRP_CFG_PKT_Q7 (xLg o.desc) = true ∧ ¬(60 ≤ xLength o.desc ∧ xLength o.desc ≤ 9216))) ∧ (s.xferRefusal o true false = some st)) ∧
    (∃ (s : State) (op : OpKey) (o : Op), (s.Ready op o) ∧ (isXfer 2 o.desc = true) ∧ (o.endWith = none) ∧ (xLength o.desc ≠ 0) ∧ (xLg o.desc ≤ 15) ∧ (xQueue o.desc ≠ 0) ∧ (xQueue o.desc ≤ 7) ∧ (¬(xQueue o.desc = 7 ∧ s.flag Reg.SLF_GRP_CFG_PKT_Q7 (xLg o.desc) = true ∧ ¬(60 ≤ xLength o.desc ∧ xLength o.desc ≤ 9216))) ∧ (s.xferRefusal o true false = none) ∧ (s.lineOn (xLg o.desc) = false)) ∧
    (∃ (s : State) (op : OpKey) (o : Op), (s.Ready op o) ∧ (isXfer 2 o.desc = true) ∧ (o.endWith = none) ∧ (xLength o.desc ≠ 0) ∧ (xLg o.desc ≤ 15) ∧ (xQueue o.desc ≠ 0) ∧ (xQueue o.desc ≤ 7) ∧ (¬(xQueue o.desc = 7 ∧ s.flag Reg.SLF_GRP_CFG_PKT_Q7 (xLg o.desc) = true ∧ ¬(60 ≤ xLength o.desc ∧ xLength o.desc ≤ 9216))) ∧ (s.xferRefusal o true false = none) ∧ (s.lineOn (xLg o.desc) = true) ∧ (s.linePlanned (xLg o.desc) (xQueue o.desc) = false ∨ (s.lgrp (xLg o.desc)).releases.find? (fun r => r.1 == xQueue o.desc) = none)) ∧
    (∃ (s : State) (op : OpKey) (o : Op), (s.Ready op o) ∧ (isXfer 3 o.desc = true) ∧ (o.endWith = none) ∧ (15 < xLg o.desc ∨ xQueue o.desc = 0 ∨ 7 < xQueue o.desc ∨ xLength o.desc < 64 ∨ (xQueue o.desc = 7 ∧ s.flag Reg.SLF_GRP_CFG_PKT_Q7 (xLg o.desc) = true))) ∧
    (∃ (s : State) (op : OpKey) (o : Op), (s.Ready op o) ∧ (isXfer 3 o.desc = true) ∧ (o.endWith = none) ∧ (xLg o.desc ≤ 15) ∧ (xQueue o.desc ≠ 0) ∧ (xQueue o.desc ≤ 7) ∧ (64 ≤ xLength o.desc) ∧ (¬(xQueue o.desc = 7 ∧ s.flag Reg.SLF_GRP_CFG_PKT_Q7 (xLg o.desc) = true)) ∧ (s.xferRefusal o false true = none) ∧ (s.lineOn (xLg o.desc) = true)) ∧
    (∃ (s : State) (op : OpKey) (o : Op) (st : Nat), (s.Ready op o) ∧ (isXfer 3 o.desc = true) ∧ (o.endWith = none) ∧ (xLg o.desc ≤ 15) ∧ (xQueue o.desc ≠ 0) ∧ (xQueue o.desc ≤ 7) ∧ (64 ≤ xLength o.desc) ∧ (¬(xQueue o.desc = 7 ∧ s.flag Reg.SLF_GRP_CFG_PKT_Q7 (xLg o.desc) = true)) ∧ (s.xferRefusal o false true = some st)) ∧
    (∃ (s : State) (op : OpKey) (o : Op), (s.Ready op o) ∧ (isXfer 3 o.desc = true) ∧ (o.endWith = none) ∧ (xLg o.desc ≤ 15) ∧ (xQueue o.desc ≠ 0) ∧ (xQueue o.desc ≤ 7) ∧ (64 ≤ xLength o.desc) ∧ (¬(xQueue o.desc = 7 ∧ s.flag Reg.SLF_GRP_CFG_PKT_Q7 (xLg o.desc) = true)) ∧ (s.xferRefusal o false true = none) ∧ (s.lineOn (xLg o.desc) = false)) ∧
    (∃ (s : State) (g q : Nat) (rest : List Nat) (d0 d1 : Option Byte) (a : HostAccess) (r : MemRead), (s.coreOff = false) ∧ (s.lineRuns g = true) ∧ ((s.legsOf g).any (fun i => !(s.legServing g i).isEmpty) = true) ∧ ((s.lgrp g).pos < 32) ∧ ((s.lgrp g).isSuspended = false) ∧ ((s.lgrp g).asks = []) ∧ ((s.lgrp g).keys = []) ∧ (s.lineEncrypts g = false) ∧ ((s.link (lineLink g)).tx = none) ∧ ((s.lgrp g).next - (s.lgrp g).acked < s.fld Reg.SLF_WIN_CFG_TX_UNITS g * 65536) ∧ ((s.setLgrp g (s.lgrp g)).lineOrder g = q :: rest) ∧ (((s.setLgrp g (s.lgrp g)).lineFrame g q a r).1.isSome = true)) ∧
    (∃ (s : State) (g : Nat) (d0 d1 : Option Byte) (a : HostAccess) (r : MemRead), (s.coreOff = false) ∧ (s.lineRuns g = true) ∧ ((s.legsOf g).any (fun i => !(s.legServing g i).isEmpty) = true) ∧ ((s.lgrp g).pos < 36) ∧ (32 ≤ (s.lgrp g).pos ∨ (s.lgrp g).isSuspended = true)) ∧
    (∃ (s : State) (g : Nat) (d0 d1 : Option Byte) (a : HostAccess) (r : MemRead), s.lineRuns g = false ∨ (s.legsOf g).all (fun i => (s.legServing g i).isEmpty) = true) ∧
    (∃ (s : State) (g : Nat) (a : HostAccess) (f : RxFrame) (l : List Nat), (s.coreOff = false) ∧ (s.tpt.parked = []) ∧ (s.lineOn g = true) ∧ ((s.lgrp g).nextRx 0 = some f) ∧ (f.sof = true) ∧ (f.eof = true) ∧ ((0, f.seq) ∉ (s.lgrp g).gone) ∧ ((s.settStore (reqLine g) f.data).1 = some l)) ∧
    (∃ (s : State) (g q : Nat) (k : OpKey) (rest : List OpKey) (o : Op) (x f : RxFrame) (l : List Nat), (s.coreOff = false) ∧ (s.tpt.parked = []) ∧ (s.lineOn g = true) ∧ (0 < q) ∧ (q < 8) ∧ (s.linePkts g q = false) ∧ ((s.lgrp g).nextRx q = some f) ∧ (f.sof = true) ∧ (f.eof = true) ∧ ((q, f.seq) ∉ (s.lgrp g).gone) ∧ ((s.settStore (reqLine g) f.data).1 = some l) ∧ ((s.lgrp g).posts.getD q [] = k :: rest) ∧ (s.op? k = some o) ∧ (o.key = k) ∧ (o.lost = false) ∧ (k.slot ∈ (s.ring k.ring).taken) ∧ (o.hold = .other) ∧ (o.endWith = none) ∧ (xDstSpace o.desc = 0) ∧ (f.data.length ≤ xLength o.desc)) ∧
    (∃ (s : State) (g q : Nat) (a : HostAccess), s.lineOn g = false ∨ 8 ≤ q ∨ (s.lgrp g).nextRx q = none) ∧
    (∃ (s : State) (lane g : Nat) (frame : Bytes), (s.coreOff = false) ∧ (s.laneGroup lane = some g) ∧ (s.lineRuns g = true) ∧ (s.laneServes lane = true) ∧ (frame.length = 8270) ∧ (getBE frame 12 2 = 0x9A51) ∧ (getBE frame 14 1 / 16 = 1) ∧ (getBE frame 15 1 < 36)) ∧
    (∃ (s : State) (lane : Nat) (frame : Bytes), ∀ g ∈ (s.laneGroup lane).toList, s.lineRuns g = false ∨ s.laneServes lane = false ∨ frame.length ≠ 8270 ∨ getBE frame 12 2 ≠ 0x9A51 ∨ getBE frame 14 1 / 16 ≠ 1 ∨ 36 ≤ getBE frame 15 1) :=
  ⟨⟨withOp (xferDesc 2 0 0 0 3 1 0 0), ⟨0, 0⟩, theOp (xferDesc 2 0 0 0 3 1 0 0), by decide +kernel⟩,
    ⟨withOp (xferDesc 2 1 0 0 16 7 0 0), ⟨0, 0⟩, theOp (xferDesc 2 1 0 0 16 7 0 0), by decide +kernel⟩,
    ⟨withOp (xferDesc 2 1 2 0 15 6 0 0), ⟨0, 0⟩, theOp (xferDesc 2 1 2 0 15 6 0 0), stBAD_FIELD, by decide +kernel⟩,
    ⟨withOp (xferDesc 2 1 0 0 15 6 0 0), ⟨0, 0⟩, theOp (xferDesc 2 1 0 0 15 6 0 0), by decide +kernel⟩,
    ⟨(withOp (xferDesc 2 1 0 0 15 6 0 0)).setFlag Reg.SLF_GRP_CFG_ENABLE 15 true, ⟨0, 0⟩, theOp (xferDesc 2 1 0 0 15 6 0 0), by decide +kernel⟩,
    ⟨withOp (xferDesc 3 63 0 0 15 7 0 0), ⟨0, 0⟩, theOp (xferDesc 3 63 0 0 15 7 0 0), by decide +kernel⟩,
    ⟨(withOp (xferDesc 3 64 0 0 15 6 0 0)).setFlag Reg.SLF_GRP_CFG_ENABLE 15 true, ⟨0, 0⟩, theOp (xferDesc 3 64 0 0 15 6 0 0), by decide +kernel⟩,
    ⟨withOp (xferDesc 3 64 0 2 15 6 0 0), ⟨0, 0⟩, theOp (xferDesc 3 64 0 2 15 6 0 0), stBAD_FIELD, by decide +kernel⟩,
    ⟨withOp (xferDesc 3 64 0 0 15 6 0 0), ⟨0, 0⟩, theOp (xferDesc 3 64 0 0 15 6 0 0), by decide +kernel⟩,
    ⟨(lined.setFlag Reg.SLF_GRP_CFG_ENCRYPT 3 false).setLgrp 3 { mfn := 7, queues := [(2, [⟨zeros 64, 3, .bytes [7, 8, 9], 0, 0, false, none, []⟩])] }, 3, 2, [], none, none, .done none, [], by decide +kernel⟩,
    ⟨lined.setLgrp 3 { rdi := true, mfn := 7 }, 3, none, none, .done none, [], by decide +kernel⟩,
    ⟨up, 15, none, none, .done none, [], by decide +kernel⟩,
    ⟨lined.setLgrp 3 { rx := [⟨0, 0, true, true, 5, zeros 64⟩], dlv := 0 }, 3, .done none, ⟨0, 0, true, true, 5, zeros 64⟩, [0], by decide +kernel⟩,
    ⟨(({ lined with hif := (running (xferDesc 3 64 0 0 3 2 0 0)).hif }).setOp { theOp (xferDesc 3 64 0 0 3 2 0 0) with phase := .running, hold := .other }).setLgrp 3 { rx := [⟨0, 2, true, true, 5, zeros 64⟩], dlv := 0, posts := [(2, [⟨0, 0⟩])] }, 3, 2, ⟨0, 0⟩, [], { theOp (xferDesc 3 64 0 0 3 2 0 0) with phase := .running, hold := .other }, ⟨0, 0, true, true, 5, []⟩, ⟨0, 2, true, true, 5, zeros 64⟩, [0], by decide +kernel⟩,
    ⟨up, 0, 0, .done none, by decide +kernel⟩,
    ⟨lined, 24, 3, List.replicate 12 0 ++ [0x9A, 0x51, 0x11, 35] ++ List.replicate 8254 0, by refine ⟨by decide +kernel, by decide +kernel, by decide +kernel, by decide +kernel, by simp only [List.length_append, List.length_replicate, List.length_cons, List.length_nil], by decide +kernel, by decide +kernel, by decide +kernel⟩⟩,
    ⟨lined, 24, [], by decide +kernel⟩⟩

theorem witness_LineTimerRows :
    (∃ (s : State) (lane g : Nat), (s.coreOff = false) ∧ (s.laneGroup lane = some g)) ∧
    (∃ (s : State) (lane : Nat), s.laneGroup lane = none) ∧
    (∃ (s : State) (lane g : Nat), (s.coreOff = false) ∧ (s.laneGroup lane = some g)) ∧
    (∃ (s : State) (lane : Nat), s.laneGroup lane = none) ∧
    (∃ (s : State) (g mfn : Nat) (m : RxMf), (s.coreOff = false) ∧ ((s.lgrp g).mf.find mfn = some m) ∧ (m.expired = false)) ∧
    (∃ (s : State) (g mfn : Nat) (m : RxMf), ((s.lgrp g).mf.find mfn = some m) ∧ (m.expired = true)) ∧
    (∃ (s : State) (g mfn : Nat), (s.lgrp g).mf.find mfn = none) ∧
    (∃ (s : State) (g first : Nat), s.coreOff = false) ∧
    (∃ (s : State) (g leg : Nat), (s.coreOff = false) ∧ (s.lineRuns g = true) ∧ (leg ∈ s.legsOf g)) ∧
    (∃ (s : State) (g leg : Nat), s.lineRuns g = false ∨ leg ∉ s.legsOf g) ∧
    (∃ (s : State) (g leg corrected received : Nat), (s.coreOff = false) ∧ (s.lineOn g = true) ∧ (leg ∈ s.legsOf g)) ∧
    (∃ (s : State) (g leg corrected received : Nat), (s.coreOff = false) ∧ (s.lineOn g = true) ∧ (leg ∈ s.legsOf g) ∧ (((s.lgrp g).leg leg).sfSeen = true) ∧ (((s.lgrp g).leg leg).unavail = false) ∧ (((s.lgrp g).leg leg).open_ = [])) ∧
    (∃ (s : State) (g leg corrected received : Nat), s.lineOn g = false ∨ leg ∉ s.legsOf g) ∧
    (∃ (s : State) (g : Nat), (s.coreOff = false) ∧ ((s.lgrp g).isSuspended = true) ∧ ((s.lgrp g).letGo = false)) ∧
    (∃ (s : State) (g : Nat), (s.lgrp g).isSuspended = false ∨ (s.lgrp g).letGo = true) ∧
    (∃ (s : State) (g leg : Nat), (s.coreOff = false) ∧ (((s.lgrp g).leg leg).wtr = true) ∧ (((s.lgrp g).leg leg).sf = false) ∧ (((s.lgrp g).leg leg).sd = false)) ∧
    (∃ (s : State) (g leg : Nat), ((s.lgrp g).leg leg).wtr = false ∨ ((s.lgrp g).leg leg).sf = true ∨ ((s.lgrp g).leg leg).sd = true) ∧
    (∃ (s : State) (port g : Nat) (p : DccPort) (f : Bytes) (rest : List Bytes), (s.coreOff = false) ∧ (port < 2) ∧ (g = s.fld (if port = 0 then Reg.SLF_DCC_CFG_PORT0_LG else Reg.SLF_DCC_CFG_PORT1_LG)) ∧ (s.dccRuns port g = true) ∧ (s.line.dcc.find port = some p) ∧ (p.running = true) ∧ (p.buf = f :: rest)) ∧
    (∃ (s : State) (port g : Nat) (p : DccPort), (s.coreOff = false) ∧ (port < 2) ∧ (g = s.fld (if port = 0 then Reg.SLF_DCC_CFG_PORT0_LG else Reg.SLF_DCC_CFG_PORT1_LG)) ∧ (s.dccRuns port g = true) ∧ (s.line.dcc.find port = some p) ∧ (p.running = true) ∧ (p.buf = [])) ∧
    (∃ (s : State) (port g : Nat) (p : DccPort), (s.coreOff = false) ∧ (port < 2) ∧ (g = s.fld (if port = 0 then Reg.SLF_DCC_CFG_PORT0_LG else Reg.SLF_DCC_CFG_PORT1_LG)) ∧ (s.dccRuns port g = true) ∧ (s.line.dcc.find port = some p) ∧ (p.running = false)) ∧
    (∃ (s : State) (port g : Nat), (s.coreOff = false) ∧ (port < 2) ∧ (g = s.fld (if port = 0 then Reg.SLF_DCC_CFG_PORT0_LG else Reg.SLF_DCC_CFG_PORT1_LG)) ∧ (s.dccRuns port g = false)) ∧
    (∃ (s : State) (port : Nat), 2 ≤ port) :=
  ⟨⟨lined, 24, 3, by decide +kernel⟩,
    ⟨up, 63, by decide +kernel⟩,
    ⟨{ lined with line := { lined.line with faults := [24, 5] } }, 24, 3, by decide +kernel⟩,
    ⟨up, 63, by decide +kernel⟩,
    ⟨lined.setLgrp 3 { mf := [(9, { at_ := 0, next := 5, seenA := [0, 1] })] }, 3, 9, { at_ := 0, next := 5, seenA := [0, 1] }, by decide +kernel⟩,
    ⟨lined.setLgrp 3 { mf := [(9, { at_ := 0, expired := true })] }, 3, 9, { at_ := 0, expired := true }, by decide +kernel⟩,
    ⟨up, 0, 0, by decide +kernel⟩,
    ⟨up, 15, 0, by decide +kernel⟩,
    ⟨lined, 3, 0, by decide +kernel⟩,
    ⟨lined, 3, 1, by decide +kernel⟩,
    ⟨{ lined.setLgrp 3 { legA := { ebs := 4, erased := 9 } } with time := { lined.time with sec := 86400 } }, 3, 0, 1, 0, by decide +kernel⟩,
    ⟨(lined.setLgrp 3 { legA := { ebs := 4, sfSeen := true } }), 3, 0, 1, 0, by decide +kernel⟩,
    ⟨up, 15, 0, 1, 0, by decide +kernel⟩,
    ⟨lined.setLgrp 3 { sf := true, held := [⟨7, [], 0, none, 0, none, false⟩] }, 3, by decide +kernel⟩,
    ⟨up, 15, by decide +kernel⟩,
    ⟨lined.setLgrp 3 { legB := { wtr := true } }, 3, 1, by decide +kernel⟩,
    ⟨up, 15, 1, by decide +kernel⟩,
    ⟨((({ lined with line := { lined.line with dcc := [(1, { running := true, buf := [[7]] })] } }.setFlag Reg.SLF_DCC_CFG_PORT1_EN 0 true).setFld Reg.SLF_DCC_CFG_PORT1_LG 0 3).setFld Reg.SLF_GRP_STATUS_STATE 3 2), 1, 3, { running := true, buf := [[7]] }, [7], [], by decide +kernel⟩,
    ⟨((({ lined with line := { lined.line with dcc := [(1, { running := true, last := [7] })] } }.setFlag Reg.SLF_DCC_CFG_PORT1_EN 0 true).setFld Reg.SLF_DCC_CFG_PORT1_LG 0 3).setFld Reg.SLF_GRP_STATUS_STATE 3 2), 1, 3, { running := true, last := [7] }, by decide +kernel⟩,
    ⟨((({ lined with line := { lined.line with dcc := [(1, { last := [7] })] } }.setFlag Reg.SLF_DCC_CFG_PORT1_EN 0 true).setFld Reg.SLF_DCC_CFG_PORT1_LG 0 3).setFld Reg.SLF_GRP_STATUS_STATE 3 2), 1, 3, { last := [7] }, by decide +kernel⟩,
    ⟨up, 1, 0, by decide +kernel⟩,
    ⟨up, 2, by decide +kernel⟩⟩

theorem witness_KeyRows :
    (∃ (s : State) (l : Nat) (m : Bytes), (s.coreOff = false) ∧ (l < 592) ∧ (s.encrypts l = true) ∧ (kType m = 1) ∧ ((s.link l).kex = none) ∧ ((s.link l).prev = none) ∧ ((s.link l).first = true ∨ kEpoch m = (s.link l).epoch + 1)) ∧
    (∃ (s : State) (l : Nat) (m : Bytes), (s.coreOff = false) ∧ (l < 592) ∧ (s.encrypts l = true) ∧ (kType m = 1) ∧ ((s.link l).kex = none) ∧ ((s.link l).prev.isSome = true)) ∧
    (∃ (s : State) (l : Nat) (m : Bytes), (s.coreOff = false) ∧ (l < 592) ∧ (s.encrypts l = true) ∧ (kType m = 1) ∧ ((s.link l).kex = none) ∧ ((s.link l).prev = none) ∧ ((s.link l).first = false) ∧ (kEpoch m ≠ (s.link l).epoch + 1)) ∧
    (∃ (s : State) (l : Nat) (m : Bytes) (k : Kex), (s.coreOff = false) ∧ (l < 592) ∧ (s.encrypts l = true) ∧ (kType m = 1) ∧ ((s.link l).kex = some k) ∧ (k.initiator = false) ∧ (k.epoch = kEpoch m) ∧ (k.nonceI = kNonceI m)) ∧
    (∃ (s : State) (l : Nat) (m : Bytes), 592 ≤ l ∨ s.encrypts l = false) ∧
    (∃ (s : State) (l : Nat) (m : Bytes), 592 ≤ l ∨ s.encrypts l = false) ∧
    (∃ (s : State) (l : Nat) (m : Bytes), 592 ≤ l ∨ s.encrypts l = false) ∧
    (∃ (s : State) (l : Nat) (m : Bytes), 592 ≤ l ∨ s.encrypts l = false) ∧
    (∃ (s : State) (l : Nat) (m : Bytes) (k : Kex), (s.coreOff = false) ∧ (l < 592) ∧ (s.encrypts l = true) ∧ (kType m = 2) ∧ ((s.link l).kex = some k) ∧ (k.initiator = false ∨ k.epoch ≠ kEpoch m ∨ k.nonceI ≠ kNonceI m)) ∧
    (∃ (s : State) (l : Nat) (m : Bytes), (s.coreOff = false) ∧ (l < 592) ∧ (s.encrypts l = true) ∧ (kType m = 2) ∧ ((s.link l).kex = none) ∧ ((s.link l).lastConfirm = [])) ∧
    (∃ (s : State) (l : Nat) (m : Bytes), (s.coreOff = false) ∧ (l < 592) ∧ (s.encrypts l = true) ∧ (kType m = 3) ∧ ((s.link l).kex = none)) ∧
    (∃ (s : State) (l : Nat) (m : Bytes), (s.coreOff = false) ∧ (l < 592) ∧ (s.encrypts l = true) ∧ (kType m = 4) ∧ ((s.link l).kex = none)) ∧
    (∃ (s : State) (l : Nat) (m : Bytes) (k : Kex), (s.coreOff = false) ∧ (l < 592) ∧ (s.encrypts l = true) ∧ (kType m = 2) ∧ ((s.link l).kex = some k) ∧ (k.initiator = true) ∧ (k.epoch = kEpoch m) ∧ (k.nonceI = kNonceI m)) ∧
    (∃ (s : State) (l : Nat) (m : Bytes) (k : Kex) (a : Assoc), (s.coreOff = false) ∧ (l < 592) ∧ (s.encrypts l = true) ∧ (kType m = 3) ∧ ((s.link l).kex = some k) ∧ (k.initiator = false) ∧ (k.epoch = kEpoch m) ∧ (k.nonceI = kNonceI m) ∧ (k.nonceR = kNonceR m) ∧ ((s.link l).txNext = some a)) ∧
    (∃ (s : State) (l : Nat) (m : Bytes) (k : Kex), (s.coreOff = false) ∧ (l < 592) ∧ (s.encrypts l = true) ∧ (kType m = 4) ∧ ((s.link l).kex = some k) ∧ (k.initiator = true) ∧ (k.nonceI = kNonceI m)) ∧
    (∃ (s : State) (l : Nat) (k : Kex), (s.coreOff = false) ∧ ((s.link l).kex = some k) ∧ (k.sends < 8)) ∧
    (∃ (s : State) (l : Nat) (k : Kex), (s.coreOff = false) ∧ ((s.link l).kex = some k) ∧ (8 ≤ k.sends)) ∧
    (∃ (s : State) (l : Nat), (s.link l).kex = none) ∧
    (∃ (s : State) (l : Nat), (s.coreOff = false) ∧ ((s.link l).failed = true) ∧ (s.encrypts l = true) ∧ ((s.link l).kex = none) ∧ (s.linkSuspended l = false)) ∧
    (∃ (s : State) (l : Nat), (s.coreOff = false) ∧ ((s.link l).failed = true) ∧ (s.encrypts l = true) ∧ ((s.link l).kex = none) ∧ (s.linkSuspended l = true)) ∧
    (∃ (s : State) (l : Nat), (s.link l).failed = false ∨ s.encrypts l = false ∨ (s.link l).kex.isSome = true) ∧
    (∃ (s : State) (l : Nat), (s.coreOff = false) ∧ ((s.link l).tx.isSome = true) ∧ ((s.link l).rekey ≠ 0) ∧ (s.encrypts l = true) ∧ ((s.link l).kex = none) ∧ (s.linkSuspended l = false)) ∧
    (∃ (s : State) (l : Nat), (s.link l).tx = none ∨ (s.link l).rekey = 0 ∨ s.encrypts l = false ∨ (s.link l).kex.isSome = true) ∧
    (∃ (s : State) (l : Nat) (a : Assoc), (s.coreOff = false) ∧ (isLineLink l = false) ∧ ((s.link l).rxUsed = true) ∧ ((s.link l).prev = some a)) ∧
    (∃ (s : State) (l : Nat), isLineLink l = true ∨ (s.link l).rxUsed = false ∨ (s.link l).prev = none) ∧
    (∃ (s : State) (g : Nat) (a : Assoc), (s.coreOff = false) ∧ ((s.link (lineLink g)).rxUsed = true) ∧ ((s.lgrp g).isSuspended = false) ∧ ((s.link (lineLink g)).prev = some a)) ∧
    (∃ (s : State) (g : Nat), (s.link (lineLink g)).rxUsed = false ∨ (s.lgrp g).isSuspended = true ∨ (s.link (lineLink g)).prev = none) :=
  ⟨⟨(up.setFlag Reg.LSC_PORT_CFG_ENCRYPT 575 true).setLink 575 { epoch := 2 ^ 32 - 2, first := false }, 575, [1, 1, 1, 0] ++ bytesBE 4 (2 ^ 32 - 1) ++ zeros 120, by decide +kernel⟩,
    ⟨(up.setFlag Reg.LSC_PORT_CFG_ENCRYPT 575 true).setLink 575 { prev := some ⟨1, [], 1⟩ }, 575, [1, 1, 1, 0] ++ bytesBE 4 1 ++ zeros 120, by decide +kernel⟩,
    ⟨(up.setFlag Reg.LSC_PORT_CFG_ENCRYPT 575 true).setLink 575 { first := false, epoch := 7 }, 575, [1, 1, 1, 0] ++ bytesBE 4 1 ++ zeros 120, by decide +kernel⟩,
    ⟨(up.setFlag Reg.LSC_PORT_CFG_ENCRYPT 575 true).setLink 575 { kex := some { initiator := false, epoch := 1, nonceI := zeros 32 } }, 575, [1, 1, 1, 0] ++ bytesBE 4 1 ++ zeros 120, { initiator := false, epoch := 1, nonceI := zeros 32 }, by decide +kernel⟩,
    ⟨up, 592, [], by decide +kernel⟩,
    ⟨up, 592, [], by decide +kernel⟩,
    ⟨up, 592, [], by decide +kernel⟩,
    ⟨up, 592, [], by decide +kernel⟩,
    ⟨(up.setFlag Reg.LSC_PORT_CFG_ENCRYPT 575 true).setLink 575 { kex := some { initiator := false, epoch := 1, nonceI := [] } }, 575, [2, 1, 1, 0] ++ bytesBE 4 1 ++ zeros 120, { initiator := false, epoch := 1, nonceI := [] }, by decide +kernel⟩,
    ⟨(up.setFlag Reg.LSC_PORT_CFG_ENCRYPT 575 true).setLink 575 {}, 575, [2, 1, 1, 0] ++ bytesBE 4 1 ++ zeros 120, by decide +kernel⟩,
    ⟨(up.setFlag Reg.LSC_PORT_CFG_ENCRYPT 575 true).setLink 575 {}, 575, [3, 1, 1, 0] ++ bytesBE 4 1 ++ zeros 120, by decide +kernel⟩,
    ⟨(up.setFlag Reg.LSC_PORT_CFG_ENCRYPT 575 true).setLink 575 {}, 575, [4, 1, 1, 0] ++ bytesBE 4 1 ++ zeros 120, by decide +kernel⟩,
    ⟨(up.setFlag Reg.LSC_PORT_CFG_ENCRYPT 575 true).setLink 575 { kex := some { initiator := true, epoch := 1, nonceI := zeros 32 } }, 575, [2, 1, 1, 0] ++ bytesBE 4 1 ++ zeros 120, { initiator := true, epoch := 1, nonceI := zeros 32 }, by decide +kernel⟩,
    ⟨(up.setFlag Reg.LSC_PORT_CFG_ENCRYPT 575 true).setLink 575 { kex := some { initiator := false, epoch := 1, nonceI := zeros 32, nonceR := zeros 32 }, txNext := some ⟨1, [], 1⟩ }, 575, [3, 1, 1, 0] ++ bytesBE 4 1 ++ zeros 120, { initiator := false, epoch := 1, nonceI := zeros 32, nonceR := zeros 32 }, ⟨1, [], 1⟩, by decide +kernel⟩,
    ⟨(up.setFlag Reg.LSC_PORT_CFG_ENCRYPT 575 true).setLink 575 { kex := some { initiator := true, epoch := 1, nonceI := zeros 32 } }, 575, [4, 1, 9, 2] ++ bytesBE 4 9 ++ zeros 120, { initiator := true, epoch := 1, nonceI := zeros 32 }, by decide +kernel⟩,
    ⟨(up.setFlag Reg.LSC_PORT_CFG_ENCRYPT 575 true).setLink 575 { kex := some { initiator := true, epoch := 1, nonceI := [], sends := 7 } }, 575, { initiator := true, epoch := 1, nonceI := [], sends := 7 }, by decide +kernel⟩,
    ⟨(up.setFlag Reg.LSC_PORT_CFG_ENCRYPT 575 true).setLink 575 { kex := some { initiator := true, epoch := 1, nonceI := [], sends := 8 } }, 575, { initiator := true, epoch := 1, nonceI := [], sends := 8 }, by decide +kernel⟩,
    ⟨up, 591, by decide +kernel⟩,
    ⟨(up.setFlag Reg.LSC_PORT_CFG_ENCRYPT 575 true).setLink 575 { failed := true, epoch := 5 }, 575, by decide +kernel⟩,
    ⟨((up.setFlag Reg.SLF_GRP_CFG_ENCRYPT 15 true).setLink 591 { failed := true }).setFlag Reg.SLF_GRP_STATUS_SUSPENDED 15 true, 591, by decide +kernel⟩,
    ⟨up, 591, by decide +kernel⟩,
    ⟨(up.setFlag Reg.LSC_PORT_CFG_ENCRYPT 575 true).setLink 575 { tx := some ⟨1, [], 1⟩, epoch := 5, rekey := 60 }, 575, by decide +kernel⟩,
    ⟨up, 591, by decide +kernel⟩,
    ⟨(up.setFlag Reg.LSC_PORT_CFG_ENCRYPT 575 true).setLink 575 { prev := some ⟨1, [], 1⟩, rxUsed := true }, 575, ⟨1, [], 1⟩, by decide +kernel⟩,
    ⟨up, 576, by decide +kernel⟩,
    ⟨(up.setFlag Reg.LSC_PORT_CFG_ENCRYPT 591 true).setLink 591 { prev := some ⟨1, [], 1⟩, rxUsed := true }, 15, ⟨1, [], 1⟩, by decide +kernel⟩,
    ⟨up, 15, by decide +kernel⟩⟩

theorem witness_OuterCommandRows :
    (∃ (s : State) (op : OpKey) (o : Op) (st : Nat), (s.Ready op o) ∧ (dKind o.desc = kindOUTER) ∧ (dOp o.desc = 0) ∧ (s.openRefusal o.desc = some st)) ∧
    (∃ (s : State) (op : OpKey) (o : Op), (s.Ready op o) ∧ (dKind o.desc = kindOUTER) ∧ (dOp o.desc = 0) ∧ (s.openRefusal o.desc = none) ∧ (getLE o.desc 0x30 8 ≠ 0) ∧ (s.reached (uStart o.desc) = false)) ∧
    (∃ (s : State) (op : OpKey) (o : Op), (s.Ready op o) ∧ (dKind o.desc = kindOUTER) ∧ (dOp o.desc = 0) ∧ (s.openRefusal o.desc = none) ∧ (getLE o.desc 0x30 8 = 0 ∨ s.reached (uStart o.desc) = true) ∧ (s.quorum [(siteLocal s.sitesRec)] = false)) ∧
    (∃ (s : State) (k : Nat) (r : Bytes), (s.coreOff = false) ∧ (s.shardRec k = some r) ∧ ((s.shard k).waiting = true) ∧ (s.reached (uStart (s.shard k).desc) = true) ∧ (s.quorum [(siteLocal s.sitesRec)] = false)) ∧
    (∃ (s : State) (k : Nat), (s.shard k).waiting = false ∨ s.reached (uStart (s.shard k).desc) = false) ∧
    (∃ (s : State) (op : OpKey) (o : Op), (s.Ready op o) ∧ (dKind o.desc = kindOUTER) ∧ (dOp o.desc = 1) ∧ ((s.shard (uShard o.desc)).st ≠ osMISMATCH ∨ uSite o.desc ∉ s.compared (s.shard (uShard o.desc)) ∨ (s.shard (uShard o.desc)).finalDiffers (uSite o.desc) = false)) ∧
    (∃ (s : State) (op : OpKey) (o : Op) (r : Bytes), (s.Ready op o) ∧ (dKind o.desc = kindOUTER) ∧ (dOp o.desc = 1) ∧ (s.shardRec (uShard o.desc) = some r) ∧ ((s.shard (uShard o.desc)).st = osMISMATCH) ∧ ((s.shard (uShard o.desc)).finalDiffers (uSite o.desc) = true) ∧ (s.compared (s.shard (uShard o.desc)) = [uSite o.desc]) ∧ (uNoCast (s.shard (uShard o.desc)).desc = true) ∧ ((s.shard (uShard o.desc)).fetchOp = none) ∧ ((s.shard (uShard o.desc)).openOp = none)) ∧
    (∃ (s : State) (op : OpKey) (o : Op), (s.Ready op o) ∧ (dKind o.desc = kindOUTER) ∧ (dOp o.desc = 1) ∧ ((s.shard (uShard o.desc)).st = osMISMATCH) ∧ (uSite o.desc ∈ s.compared (s.shard (uShard o.desc))) ∧ ((s.shard (uShard o.desc)).finalDiffers (uSite o.desc) = true) ∧ ((s.compared (s.shard (uShard o.desc))).any (fun i => i != uSite o.desc && (s.shard (uShard o.desc)).finalDiffers i) = true)) ∧
    (∃ (s : State) (op : OpKey) (o : Op), (s.Ready op o) ∧ (dKind o.desc = kindOUTER) ∧ (dOp o.desc = 2) ∧ (s.shardRec (uShard o.desc) = none)) ∧
    (∃ (s : State) (op : OpKey) (o : Op) (r : Bytes), (s.Ready op o) ∧ (dKind o.desc = kindOUTER) ∧ (dOp o.desc = 2) ∧ (s.shardRec (uShard o.desc) = some r) ∧ ((s.shard (uShard o.desc)).st ≠ osIDLE ∨ (s.shard (uShard o.desc)).waiting = true ∨ (s.shard (uShard o.desc)).fetchOp.isSome = true)) ∧
    (∃ (s : State) (op : OpKey) (o : Op) (r : Bytes), (s.Ready op o) ∧ (dKind o.desc = kindOUTER) ∧ (dOp o.desc = 2) ∧ (s.shardRec (uShard o.desc) = some r) ∧ ((s.shard (uShard o.desc)).st = osIDLE) ∧ ((s.shard (uShard o.desc)).waiting = false) ∧ ((s.shard (uShard o.desc)).fetchOp = none) ∧ ((s.shard (uShard o.desc)).unsent = false) ∧ ((s.shard (uShard o.desc)).toCast = []) ∧ (∀ p ∈ List.range (hPieces r), ∀ i ∈ s.allSites, s.lastOf { (s.shard (uShard o.desc)) with round := 2 ^ 32 } p i ≤ ((s.shard (uShard o.desc)).piece p).round)) ∧
    (∃ (s : State) (op : OpKey) (o : Op) (r : Bytes) (a : Nat) (rest : List Nat), (s.Ready op o) ∧ (dKind o.desc = kindOUTER) ∧ (dOp o.desc = 2) ∧ (s.shardRec (uShard o.desc) = some r) ∧ (hPieces r = 1) ∧ ((s.shard (uShard o.desc)).st = osIDLE) ∧ ((s.shard (uShard o.desc)).waiting = false) ∧ ((s.shard (uShard o.desc)).fetchOp = none) ∧ ((s.shard (uShard o.desc)).unsent = false) ∧ ((s.shard (uShard o.desc)).toCast = []) ∧ (((s.shard (uShard o.desc)).piece 0).st = psREST) ∧ (((s.shard (uShard o.desc)).piece 0).spare = none) ∧ ((s.shard (uShard o.desc)).spares = a :: rest) ∧ (((s.shard (uShard o.desc)).piece 0).round < (maxOf (s.allSites.map fun i => s.lastOf { (s.shard (uShard o.desc)) with round := 2 ^ 32 } 0 i)))) ∧
    (∃ (s : State) (op : OpKey) (o : Op), (s.Ready op o) ∧ (dKind o.desc = kindOUTER) ∧ (dOp o.desc = 3) ∧ ((s.shard (uShard o.desc)).waiting = true) ∧ ((s.shard (uShard o.desc)).openOp = none)) ∧
    (∃ (s : State) (op : OpKey) (o : Op), (s.Ready op o) ∧ (dKind o.desc = kindOUTER) ∧ (dOp o.desc = 3) ∧ ((s.shard (uShard o.desc)).waiting = false) ∧ ((s.shard (uShard o.desc)).st = osMISMATCH) ∧ ((s.shard (uShard o.desc)).openOp = none)) ∧
    (∃ (s : State) (op : OpKey) (o : Op), (s.Ready op o) ∧ (dKind o.desc = kindOUTER) ∧ (dOp o.desc = 3) ∧ ((s.shard (uShard o.desc)).waiting = false) ∧ ((s.shard (uShard o.desc)).st = osHALTED ∨ ((s.shard (uShard o.desc)).st ≠ osIDLE ∧ (s.shard (uShard o.desc)).st ≠ osMISMATCH ∧ (s.shard (uShard o.desc)).sentTop = 0)) ∧ ((s.shard (uShard o.desc)).openOp = none)) ∧
    (∃ (s : State) (op : OpKey) (o : Op), (s.Ready op o) ∧ (dKind o.desc = kindOUTER) ∧ (dOp o.desc = 3) ∧ ((s.shard (uShard o.desc)).waiting = false) ∧ ((s.shard (uShard o.desc)).st = osIDLE ∨ ((s.shard (uShard o.desc)).st ≠ osMISMATCH ∧ (s.shard (uShard o.desc)).st ≠ osHALTED ∧ (s.shard (uShard o.desc)).sentTop ≠ 0))) :=
  ⟨⟨withOp (outerDesc 0 0 0), ⟨0, 0⟩, theOp (outerDesc 0 0 0), stOUT_BAD_SHARD, by decide +kernel⟩,
    ⟨openable (sharded {} (withOp (outerDesc 0 7 0))), ⟨0, 0⟩, theOp (outerDesc 0 7 0), by decide +kernel⟩,
    ⟨openable (sharded {} (withOp (outerDesc 0 0 0))), ⟨0, 0⟩, theOp (outerDesc 0 0 0), by decide +kernel⟩,
    ⟨sharded { waiting := true, desc := outerDesc 0 0 0 } up, 2, shardBytes, by decide +kernel⟩,
    ⟨up, 15, by decide +kernel⟩,
    ⟨sharded {} (withOp (outerDesc 1 0 0)), ⟨0, 0⟩, theOp (outerDesc 1 0 0), by decide +kernel⟩,
    ⟨sharded { st := 5, round := 4, roster := 3, desc := outerDesc 0 0 1, shardDigest := [1], sites := [(1, { final := some [2] })] } (withOp (outerDesc 1 0 0)), ⟨0, 0⟩, theOp (outerDesc 1 0 0), shardBytes, by decide +kernel⟩,
    ⟨sharded { st := 5, round := 4, roster := 7, shardDigest := [1], sites := [(1, { final := some [2] }), (2, { final := some [2] })] } (withOp (outerDesc 1 0 0)), ⟨0, 0⟩, theOp (outerDesc 1 0 0), by decide +kernel⟩,
    ⟨withOp (outerDesc 2 0 0), ⟨0, 0⟩, theOp (outerDesc 2 0 0), by decide +kernel⟩,
    ⟨sharded { waiting := true } (withOp (outerDesc 2 0 0)), ⟨0, 0⟩, theOp (outerDesc 2 0 0), shardBytes, by decide +kernel⟩,
    ⟨sharded {} (withOp (outerDesc 2 0 0)), ⟨0, 0⟩, theOp (outerDesc 2 0 0), shardBytes, by decide +kernel⟩,
    ⟨sharded { spares := [1], sites := [(1, { rc := 3 })] } (withOp (outerDesc 2 0 0)), ⟨0, 0⟩, theOp (outerDesc 2 0 0), shardBytes, 1, [], by decide +kernel⟩,
    ⟨sharded { waiting := true } (withOp (outerDesc 3 0 0)), ⟨0, 0⟩, theOp (outerDesc 3 0 0), by decide +kernel⟩,
    ⟨sharded { st := 5, round := 4 } (withOp (outerDesc 3 0 0)), ⟨0, 0⟩, theOp (outerDesc 3 0 0), by decide +kernel⟩,
    ⟨sharded { st := 1, round := 4 } (withOp (outerDesc 3 0 0)), ⟨0, 0⟩, theOp (outerDesc 3 0 0), by decide +kernel⟩,
    ⟨sharded { st := 2, sentTop := 1 } (withOp (outerDesc 3 0 0)), ⟨0, 0⟩, theOp (outerDesc 3 0 0), by decide +kernel⟩⟩

theorem witness_OuterMessageRows :
    (∃ (s : State) (m : Bytes) (k : Nat), (s.coreOff = false) ∧ (mType m = 1) ∧ (mSite m ≠ (siteLocal s.sitesRec)) ∧ (mSite m < siteCount s.sitesRec) ∧ (siteTopology s.sitesRec = 0) ∧ (s.slotsOf (mShard m) = [k]) ∧ ((s.shard k).st = osIDLE) ∧ ((s.shard k).past.find? (fun a => a.round == mRound m) = none)) ∧
    (∃ (s : State) (m : Bytes) (k : Nat) (r : Bytes) (a : OutPast), (s.coreOff = false) ∧ (mType m = 1) ∧ (mSite m ≠ (siteLocal s.sitesRec)) ∧ (mSite m < siteCount s.sitesRec) ∧ (siteTopology s.sitesRec = 0) ∧ (s.slotsOf (mShard m) = [k]) ∧ (s.shardRec k = some r) ∧ ((s.shard k).st = osIDLE) ∧ ((s.shard k).past.find? (fun a => a.round == mRound m) = some a) ∧ (getBE (m.drop 16) 76 1 ∈ [osOPENING, osRUNNING, osSUSPENDED]) ∧ (((s.shard k).site (mSite m)).answered = none) ∧ (hLine r (mSite m) < 32)) ∧
    (∃ (s : State) (m : Bytes) (k : Nat), (s.coreOff = false) ∧ (mType m = 1) ∧ (mSite m ≠ (siteLocal s.sitesRec)) ∧ (mSite m < siteCount s.sitesRec) ∧ (siteTopology s.sitesRec = 0) ∧ (s.slotsOf (mShard m) = [k]) ∧ ((s.shard k).st ≠ osIDLE) ∧ (mRound m = (s.shard k).round) ∧ ((m.drop 16).take 64 ≠ (s.shard k).digest) ∧ (((s.shard k).site (mSite m)).differs = false)) ∧
    (∃ (s : State) (m : Bytes) (k : Nat), (s.coreOff = false) ∧ (mType m = 1) ∧ (mSite m ≠ (siteLocal s.sitesRec)) ∧ (mSite m < siteCount s.sitesRec) ∧ (siteTopology s.sitesRec = 0) ∧ (s.slotsOf (mShard m) = [k]) ∧ ((s.shard k).st ≠ osIDLE) ∧ ((s.shard k).st ≠ osSUSPENDED) ∧ (mRound m = (s.shard k).round) ∧ ((m.drop 16).take 64 = (s.shard k).digest) ∧ (getBE (m.drop 16) 77 2 = 0) ∧ ((s.shard k).roster ≠ 0) ∧ (∀ i ∈ s.allSites, bitAt (s.shard k).roster i = true)) ∧
    (∃ (s : State) (m : Bytes) (k : Nat), (s.coreOff = false) ∧ (mType m = 2) ∧ (mSite m ≠ (siteLocal s.sitesRec)) ∧ (mSite m < siteCount s.sitesRec) ∧ (siteTopology s.sitesRec = 0) ∧ (s.slotsOf (mShard m) = [k]) ∧ ((s.shard k).st ≠ osIDLE) ∧ (mRound m = (s.shard k).round) ∧ (bitAt (getBE (m.drop 16) 0 2) (siteLocal s.sitesRec) = true) ∧ ((s.shard k).epoch < mEpoch m) ∧ ((s.shard k).sentTop ≤ getBE (m.drop 16) 2 4) ∧ ((s.shard k).votes = []) ∧ (s.quorum [(siteLocal s.sitesRec)] = false)) ∧
    (∃ (s : State) (m : Bytes) (k : Nat), (s.coreOff = false) ∧ (mType m = 2) ∧ (mSite m ≠ (siteLocal s.sitesRec)) ∧ (mSite m < siteCount s.sitesRec) ∧ (siteTopology s.sitesRec = 0) ∧ (s.slotsOf (mShard m) = [k]) ∧ ((s.shard k).st ≠ osIDLE) ∧ (mRound m = (s.shard k).round) ∧ (bitAt (getBE (m.drop 16) 0 2) (siteLocal s.sitesRec) = false ∨ mEpoch m ≤ (s.shard k).epoch ∨ getBE (m.drop 16) 2 4 < (s.shard k).sentTop ∨ ((s.shard k).votes.any fun v => v.voter == (siteLocal s.sitesRec) && v.epoch == mEpoch m && v != ⟨(siteLocal s.sitesRec), mSite m, mEpoch m, getBE (m.drop 16) 0 2, getBE (m.drop 16) 2 4⟩) = true)) ∧
    (∃ (s : State) (m : Bytes) (k : Nat), (s.coreOff = false) ∧ (mType m = 3) ∧ (mSite m ≠ (siteLocal s.sitesRec)) ∧ (mSite m < siteCount s.sitesRec) ∧ (siteTopology s.sitesRec = 0) ∧ (s.slotsOf (mShard m) = [k]) ∧ ((s.shard k).st ≠ osIDLE) ∧ (mRound m = (s.shard k).round) ∧ (mEpoch m ≤ (s.shard k).epoch) ∧ ((⟨mSite m, getBE (m.drop 16) 0 1, mEpoch m, getBE (m.drop 16) 2 2, getBE (m.drop 16) 4 4⟩ : OutVote) ∉ (s.shard k).votes)) ∧
    (∃ (s : State) (m : Bytes) (k : Nat) (r : Bytes), (s.coreOff = false) ∧ (mType m = 3) ∧ (mSite m ≠ (siteLocal s.sitesRec)) ∧ (mSite m < siteCount s.sitesRec) ∧ (siteTopology s.sitesRec = 0) ∧ (s.slotsOf (mShard m) = [k]) ∧ (s.shardRec k = some r) ∧ ((s.shard k).st ∈ [osHALTED, osOPENING, osRUNNING, osSUSPENDED]) ∧ (mRound m = (s.shard k).round) ∧ ((s.shard k).epoch < mEpoch m) ∧ ((s.shard k).votes = []) ∧ (bitAt (getBE (m.drop 16) 2 2) (siteLocal s.sitesRec) = true) ∧ (bitAt (getBE (m.drop 16) 2 2) (mSite m) = true) ∧ (s.quorum [mSite m] = true)) ∧
    (∃ (s : State) (m : Bytes) (k : Nat), (s.coreOff = false) ∧ (mType m = 4) ∧ (mSite m ≠ (siteLocal s.sitesRec)) ∧ (mSite m < siteCount s.sitesRec) ∧ (siteTopology s.sitesRec = 0) ∧ (s.slotsOf (mShard m) = [k]) ∧ ((s.shard k).st ≠ osIDLE) ∧ (mRound m = (s.shard k).round) ∧ (mEpoch m ≤ (s.shard k).epoch) ∧ (((s.shard k).piece (getBE (m.drop 16) 0 4)).own = none)) ∧
    (∃ (s : State) (m r : Bytes) (k p : Nat), (s.coreOff = false) ∧ (mType m = 4) ∧ (mSite m ≠ (siteLocal s.sitesRec)) ∧ (mSite m < siteCount s.sitesRec) ∧ (siteTopology s.sitesRec = 0) ∧ (s.slotsOf (mShard m) = [k]) ∧ (s.shardRec k = some r) ∧ ((s.shard k).st = osRUNNING ∨ (s.shard k).st = osSUSPENDED) ∧ (mRound m = (s.shard k).round) ∧ (p = getBE (m.drop 16) 0 4) ∧ (((s.shard k).piece p).st = psDIGESTED) ∧ (((s.shard k).piece p).xEpoch = mEpoch m) ∧ (((s.shard k).rosterOf p).1 = mEpoch m) ∧ (mEpoch m ≤ (s.shard k).epoch) ∧ (((s.shard k).piece p).own = some (sliceB (m.drop 16) 8 64)) ∧ (maskSites ((s.shard k).rosterOf p).2 = [(siteLocal s.sitesRec), mSite m]) ∧ (s.quorum [(siteLocal s.sitesRec), mSite m] = true) ∧ ((s.shard k).committed + 1 < hPieces r)) ∧
    (∃ (s : State) (m : Bytes) (k : Nat), (s.coreOff = false) ∧ (mType m = 5) ∧ (mSite m ≠ (siteLocal s.sitesRec)) ∧ (mSite m < siteCount s.sitesRec) ∧ (siteTopology s.sitesRec = 0) ∧ (s.slotsOf (mShard m) = [k]) ∧ ((s.shard k).st ≠ osIDLE) ∧ ((s.shard k).st ≠ osCOMPARING) ∧ ((s.shard k).st ≠ osMISMATCH) ∧ (mRound m = (s.shard k).round)) ∧
    (∃ (s : State) (m : Bytes) (k : Nat), (s.coreOff = false) ∧ (mType m = 5) ∧ (mSite m ≠ (siteLocal s.sitesRec)) ∧ (mSite m < siteCount s.sitesRec) ∧ (siteTopology s.sitesRec = 0) ∧ (s.slotsOf (mShard m) = [k]) ∧ ((s.shard k).st = osCOMPARING) ∧ (mRound m = (s.shard k).round) ∧ (mSite m ∈ s.compared (s.shard k)) ∧ (sliceB (m.drop 16) 0 64 ≠ (s.shard k).shardDigest)) ∧
    (∃ (s : State) (m : Bytes) (k : Nat) (r : Bytes) (op : OpKey) (o : Op), (s.coreOff = false) ∧ (mType m = 5) ∧ (mSite m ≠ (siteLocal s.sitesRec)) ∧ (mSite m < siteCount s.sitesRec) ∧ (siteTopology s.sitesRec = 0) ∧ (s.slotsOf (mShard m) = [k]) ∧ (s.shardRec k = some r) ∧ ((s.shard k).st = osCOMPARING) ∧ (mRound m = (s.shard k).round) ∧ (s.compared (s.shard k) = [mSite m]) ∧ (sliceB (m.drop 16) 0 64 = (s.shard k).shardDigest) ∧ (uNoCast (s.shard k).desc = true) ∧ ((s.shard k).fetchOp = none) ∧ ((s.shard k).excludeOp = none) ∧ ((s.shard k).openOp = some op) ∧ (s.op? op = some o) ∧ (o.key = op) ∧ (o.lost = false) ∧ (op.slot ∈ (s.ring op.ring).taken)) ∧
    (∃ (s : State) (m : Bytes) (k : Nat), (s.coreOff = false) ∧ (mType m = 2) ∧ (mSite m ≠ (siteLocal s.sitesRec)) ∧ (mSite m < siteCount s.sitesRec) ∧ (siteTopology s.sitesRec = 0) ∧ (s.slotsOf (mShard m) = [k]) ∧ ((s.shard k).st = osIDLE ∨ mRound m ≠ (s.shard k).round)) ∧
    (∃ (s : State) (m : Bytes) (k : Nat), (s.coreOff = false) ∧ (mType m = 3) ∧ (mSite m ≠ (siteLocal s.sitesRec)) ∧ (mSite m < siteCount s.sitesRec) ∧ (siteTopology s.sitesRec = 0) ∧ (s.slotsOf (mShard m) = [k]) ∧ ((s.shard k).st = osIDLE ∨ mRound m ≠ (s.shard k).round)) ∧
    (∃ (s : State) (m : Bytes) (k : Nat), (s.coreOff = false) ∧ (mType m = 4) ∧ (mSite m ≠ (siteLocal s.sitesRec)) ∧ (mSite m < siteCount s.sitesRec) ∧ (siteTopology s.sitesRec = 0) ∧ (s.slotsOf (mShard m) = [k]) ∧ ((s.shard k).st = osIDLE ∨ mRound m ≠ (s.shard k).round)) ∧
    (∃ (s : State) (m : Bytes) (k : Nat), (s.coreOff = false) ∧ (mType m = 5) ∧ (mSite m ≠ (siteLocal s.sitesRec)) ∧ (mSite m < siteCount s.sitesRec) ∧ (siteTopology s.sitesRec = 0) ∧ (s.slotsOf (mShard m) = [k]) ∧ ((s.shard k).st = osIDLE ∨ mRound m ≠ (s.shard k).round)) ∧
    (∃ (s : State) (m : Bytes) (k : Nat) (r : Bytes), (s.coreOff = false) ∧ (mType m = 6) ∧ (mSite m ≠ (siteLocal s.sitesRec)) ∧ (mSite m < siteCount s.sitesRec) ∧ (siteTopology s.sitesRec = 0) ∧ (s.slotsOf (mShard m) = [k]) ∧ (s.shardRec k = some r) ∧ (getBE (m.drop 16) 0 4 < hPieces r) ∧ (((s.shard k).piece (getBE (m.drop 16) 0 4)).round = getBE (m.drop 16) 4 4)) ∧
    (∃ (s : State) (m : Bytes), mType m ≠ 6 ∨ mSite m = (siteLocal s.sitesRec) ∨ siteCount s.sitesRec ≤ mSite m ∨ s.slotsOf (mShard m) = []) ∧
    (∃ (s : State) (k g : Nat) (r : Bytes), (s.coreOff = false) ∧ ((s.shard k).st ≠ osIDLE) ∧ (s.shardRec k = some r) ∧ (siteTopology s.sitesRec = 0) ∧ (s.allSites.filter (· != (siteLocal s.sitesRec)) = [1]) ∧ (hLine r 1 = g) ∧ (g < 32)) ∧
    (∃ (s : State) (k : Nat), (s.shard k).st = osIDLE) ∧
    (∃ (s : State) (k i : Nat), (s.coreOff = false) ∧ ((s.shard k).st ≠ osIDLE) ∧ (((s.shard k).site i).reach = true)) ∧
    (∃ (s : State) (k i : Nat), (s.shard k).st = osIDLE ∨ ((s.shard k).site i).reach = false) ∧
    (∃ (s : State) (k i : Nat), (s.coreOff = false) ∧ (bitAt (s.shard k).roster i = true) ∧ (((s.shard k).site i).reach = false) ∧ (i ≠ (siteLocal s.sitesRec)) ∧ ((s.proposable (s.shard k)).head? = some (siteLocal s.sitesRec)) ∧ ((s.shard k).proposed = none) ∧ ((s.shard k).votes = []) ∧ (s.quorum [(siteLocal s.sitesRec)] = false)) ∧
    (∃ (s : State) (k i : Nat), bitAt (s.shard k).roster i = false ∨ ((s.shard k).site i).reach = true ∨ i = (siteLocal s.sitesRec) ∨ (s.proposable (s.shard k)).head? ≠ some (siteLocal s.sitesRec) ∨ (s.shard k).proposed.isSome = true) ∧
    (∃ (s : State) (k : Nat), (s.coreOff = false) ∧ ((s.shard k).proposed.isSome = true) ∧ ((s.proposable (s.shard k)).head? = some (siteLocal s.sitesRec)) ∧ ((s.shard k).votes = []) ∧ (s.quorum [(siteLocal s.sitesRec)] = false)) ∧
    (∃ (s : State) (k : Nat), (s.coreOff = false) ∧ ((s.shard k).proposed.isSome = true) ∧ ((s.proposable (s.shard k)).head? ≠ some (siteLocal s.sitesRec))) ∧
    (∃ (s : State) (k : Nat), (s.shard k).proposed = none) :=
  ⟨⟨sharded {} up, siteMessage 1 0 (zeros 67 ++ [7] ++ zeros 12), 2, by decide +kernel⟩,
    ⟨sharded { past := [⟨1, [], 1, 1, 1, 3⟩] } up, siteMessage 1 0 (zeros 76 ++ [2, 0, 0, 0]), 2, shardBytes, ⟨1, [], 1, 1, 1, 3⟩, by decide +kernel⟩,
    ⟨sharded { st := 2, round := 1, digest := [1] } up, siteMessage 1 5 (zeros 80), 2, by decide +kernel⟩,
    ⟨sharded { st := 2, round := 1, roster := 7, digest := zeros 64 } up, siteMessage 1 5 (zeros 76 ++ [2, 0, 0, 0]), 2, by decide +kernel⟩,
    ⟨sharded { st := 1, round := 1 } up, siteMessage 2 5 [0, 3, 0, 0, 0, 0], 2, by decide +kernel⟩,
    ⟨sharded { st := 1, round := 1, seen := 4, epoch := 5 } up, siteMessage 2 5 [0, 3, 0, 0, 0, 0], 2, by decide +kernel⟩,
    ⟨sharded { st := 1, round := 1, epoch := 5 } up, siteMessage 3 5 (zeros 8), 2, by decide +kernel⟩,
    ⟨let s := sharded { st := 1, round := 1 } up; { s with swc := { s.swc with tab := [((0x60, 2), shardBytes), ((0x61, 0), bin 32 [(8, 1, 3), (0x10, 1, 1), (0x11, 1, 9)])] } }, siteMessage 3 5 [0, 0, 0, 3, 0, 0, 0, 9], 2, shardBytes, by decide +kernel⟩,
    ⟨sharded { st := 2, round := 1, epoch := 5 } up, siteMessage 4 5 (zeros 71 ++ [9]), 2, by decide +kernel⟩,
    ⟨shardedBy twoPieces { st := 3, round := 1, epoch := 5, roster := 3, pieces := [(0, { slot := 0, st := 5, spare := some 2, xEpoch := 5, own := some (zeros 64) })] } up, siteMessage 4 5 (zeros 72), twoPieces, 2, 0, by decide +kernel⟩,
    ⟨sharded { st := 2, round := 1 } up, siteMessage 5 5 (zeros 64), 2, by decide +kernel⟩,
    ⟨sharded { st := 4, round := 1, roster := 3 } up, siteMessage 5 5 (zeros 64), 2, by decide +kernel⟩,
    ⟨sharded { st := 4, round := 1, roster := 3, desc := outerDesc 0 0 1, shardDigest := zeros 64, openOp := some ⟨0, 0⟩ } (running (outerDesc 0 0 1)), siteMessage 5 5 (zeros 64), 2, shardBytes, ⟨0, 0⟩, { theOp (outerDesc 0 0 1) with phase := .running }, by decide +kernel⟩,
    ⟨sharded {} up, siteMessage 2 5 (zeros 64), 2, by decide +kernel⟩,
    ⟨sharded {} up, siteMessage 3 5 (zeros 64), 2, by decide +kernel⟩,
    ⟨sharded {} up, siteMessage 4 5 (zeros 64), 2, by decide +kernel⟩,
    ⟨sharded {} up, siteMessage 5 5 (zeros 64), 2, by decide +kernel⟩,
    ⟨sharded {} up, siteMessage 6 5 (zeros 8), 2, shardBytes, by decide +kernel⟩,
    ⟨up, [], by decide +kernel⟩,
    ⟨let s := sharded { st := 1 } up; { s with swc := { s.swc with tab := [((0x60, 2), shardBytes), ((0x61, 0), bin 32 [(8, 1, 2)])] } }, 2, 3, shardBytes, by decide +kernel⟩,
    ⟨up, 15, by decide +kernel⟩,
    ⟨sharded { st := 2, roster := 2, sites := [(1, { reach := true })] } up, 2, 1, by decide +kernel⟩,
    ⟨up, 15, 0, by decide +kernel⟩,
    ⟨sharded { st := 3, roster := 7 } up, 2, 1, by decide +kernel⟩,
    ⟨up, 15, 0, by decide +kernel⟩,
    ⟨sharded { st := 3, roster := 7, proposed := some 4, seen := 4 } up, 2, by decide +kernel⟩,
    ⟨sharded { st := 5, roster := 7, proposed := some 4, seen := 4 } up, 2, by decide +kernel⟩,
    ⟨up, 15, by decide +kernel⟩⟩

theorem witness_OuterPieceRows :
    (∃ (s : State) (tag data r : Bytes) (k x : Nat) (rest : List Nat), (s.coreOff = false) ∧ ((getBE tag 14 1) ≠ (siteLocal s.sitesRec)) ∧ ((getBE tag 14 1) < siteCount s.sitesRec) ∧ (siteTopology s.sitesRec = 0) ∧ (s.slotsOf (getBE tag 0 4) = [k]) ∧ (s.shardRec k = some r) ∧ (((s.shard k).piece (getBE tag 10 4)).fetch = none) ∧ (getBE tag 4 4 = (s.shard k).round) ∧ ((getBE tag 10 4) < hPieces r) ∧ ((s.shard k).st ≠ osIDLE) ∧ (((s.shard k).rosterOf (getBE tag 10 4)).1 ≤ getBE tag 8 2) ∧ (((s.shard k).piece (getBE tag 10 4)).round < (s.shard k).round) ∧ ((s.shard k).deltas.find ((getBE tag 10 4), (getBE tag 14 1)) = none) ∧ (((s.shard k).piece (getBE tag 10 4)).work.isSome = true) ∧ ((s.shard k).dfree = x :: rest) ∧ (x ∉ rest) ∧ (((s.shard k).piece (getBE tag 10 4)).st ≠ psEXCHANGE)) ∧
    (∃ (s : State) (tag data r : Bytes) (k : Nat) (f : OutFetch), (s.coreOff = false) ∧ ((getBE tag 14 1) ≠ (siteLocal s.sitesRec)) ∧ ((getBE tag 14 1) < siteCount s.sitesRec) ∧ (siteTopology s.sitesRec = 0) ∧ (s.slotsOf (getBE tag 0 4) = [k]) ∧ (s.shardRec k = some r) ∧ (((s.shard k).piece (getBE tag 10 4)).fetch = some f) ∧ (data.length = hStreamLen r 0 + hStreamLen r 1) ∧ (getBE tag 4 4 = f.want) ∧ ((getBE tag 14 1) ∈ f.sites) ∧ (f.digest = none) ∧ (f.commits = false) ∧ (f.resume = psSTEP)) ∧
    (∃ (s : State) (tag data : Bytes), (getBE tag 14 1) = (siteLocal s.sitesRec) ∨ siteCount s.sitesRec ≤ (getBE tag 14 1) ∨ s.slotsOf (getBE tag 0 4) = []) ∧
    (∃ (s : State) (k p : Nat) (r : Bytes), (s.coreOff = false) ∧ (s.shardRec k = some r) ∧ ((s.shard k).st = osRUNNING ∨ (s.shard k).st = osSUSPENDED) ∧ (((s.shard k).piece p).st = psDELTA ∨ ((s.shard k).piece p).st = psSTEP) ∧ (((s.shard k).piece p).half = 0) ∧ (s.tfb.outerEnded = [(k, stepCode (s.shard k).round ((s.shard k).piece p).xEpoch p ((s.shard k).piece p).st 0, stOK)])) ∧
    (∃ (s : State) (k p st : Nat) (r : Bytes) (op : OpKey) (o : Op), (s.coreOff = false) ∧ (s.shardRec k = some r) ∧ ((s.shard k).st = osRUNNING ∨ (s.shard k).st = osSUSPENDED) ∧ (((s.shard k).piece p).st = psDELTA ∨ ((s.shard k).piece p).st = psSTEP) ∧ (s.tfb.outerEnded = [(k, stepCode (s.shard k).round ((s.shard k).piece p).xEpoch p ((s.shard k).piece p).st ((s.shard k).piece p).half, st)]) ∧ (st ≠ stOK) ∧ (st ≠ stMEM_UNCORRECTABLE) ∧ ((s.shard k).openOp = some op) ∧ (s.op? op = some o) ∧ (o.key = op) ∧ (o.lost = false) ∧ (op.slot ∈ (s.ring op.ring).taken)) ∧
    (∃ (s : State) (k p : Nat), s.shardRec k = none ∨ ((s.shard k).st ≠ osRUNNING ∧ (s.shard k).st ≠ osSUSPENDED) ∨ (s.col.outerEnded = [] ∧ s.tfb.outerEnded = [])) ∧
    (∃ (s : State) (k p : Nat) (f : OutFetch), (s.coreOff = false) ∧ (((s.shard k).piece p).fetch = some f)) ∧
    (∃ (s : State) (k p : Nat), ((s.shard k).piece p).fetch = none) ∧
    (∃ (s : State) (k : Nat) (op : OpKey) (o : Op), (s.coreOff = false) ∧ ((s.shard k).st = osMISMATCH) ∧ ((s.shard k).openOp = some op) ∧ (s.op? op = some o) ∧ (o.key = op) ∧ (o.lost = false) ∧ (op.slot ∈ (s.ring op.ring).taken)) ∧
    (∃ (s : State) (k : Nat), (s.shard k).st ≠ osMISMATCH ∨ (s.shard k).openOp = none) :=
  ⟨⟨sharded { st := 2, round := 1, dfree := [0, 1, 2, 3], pieces := [(0, { slot := 0, st := 1, work := some 0 })] } up, bytesBE 4 9 ++ bytesBE 4 1 ++ bytesBE 2 0 ++ bytesBE 4 0 ++ bytesBE 1 1 ++ [0], [], shardBytes, 2, 0, [1, 2, 3], by decide +kernel⟩,
    ⟨shardedBy noRuns { st := 2, round := 1, pieces := [(0, { slot := 0, st := 6, fetch := some ⟨1, none, [1, 2], 4, false⟩ })] } up, bytesBE 4 9 ++ bytesBE 4 1 ++ bytesBE 2 0 ++ bytesBE 4 0 ++ bytesBE 1 1 ++ [0], zeros 128, noRuns, 2, ⟨1, none, [1, 2], 4, false⟩, by decide +kernel⟩,
    ⟨up, [], [], by decide +kernel⟩,
    ⟨let s := sharded { st := 2, round := 1, pieces := [(0, { slot := 0, st := 2 })] } up; { s with tfb := { outerEnded := [(2, stepCode 1 0 0 2 0, 0)] } }, 2, 0, shardBytes, by decide +kernel⟩,
    ⟨let s := sharded { st := 2, round := 1, pieces := [(0, { slot := 0, st := 2 })], openOp := some ⟨0, 0⟩ } (running (outerDesc 0 0 0)); { s with tfb := { outerEnded := [(2, stepCode 1 0 0 2 0, 12)] } }, 2, 0, 12, shardBytes, ⟨0, 0⟩, { theOp (outerDesc 0 0 0) with phase := .running }, by decide +kernel⟩,
    ⟨up, 15, 0, by decide +kernel⟩,
    ⟨sharded { pieces := [(0, { slot := 0, st := 6, fetch := some ⟨1, none, [1, 2], 0, false⟩ })] } up, 2, 0, ⟨1, none, [1, 2], 0, false⟩, by decide +kernel⟩,
    ⟨up, 15, 0, by decide +kernel⟩,
    ⟨sharded { st := 5, openOp := some ⟨0, 0⟩ } (running (outerDesc 0 0 0)), 2, ⟨0, 0⟩, { theOp (outerDesc 0 0 0) with phase := .running }, by decide +kernel⟩,
    ⟨up, 15, by decide +kernel⟩⟩

theorem witness_SuspicionRows :
    (∃ (s : State) (slot : Nat), (s.coreOff = false) ∧ ((s.fltRec slot).isSome = true) ∧ (2 ≤ s.fltN slot)) ∧
    (∃ (s : State) (slot : Nat), s.fltRec slot = none ∨ s.fltN slot < 2) ∧
    (∃ (s : State) (src m : Bytes) (slot : Nat), (s.coreOff = false) ∧ (s.fltSlots.find? (fun k => jJob ((s.fltRec k).getD []) == jJobOf m) = some slot) ∧ (32 ≤ m.length) ∧ (getBE m 0 1 / 16 = 1) ∧ (jSender m < s.fltN slot) ∧ (jGen m = s.ownGen) ∧ (jType m = 1) ∧ (((s.fltGroup slot).member (jSender m)).fenced = false) ∧ (jEpochOf m ≤ (s.fltGroup slot).epoch) ∧ ((s.fltGroup slot).st ≠ 1)) ∧
    (∃ (s : State) (src m : Bytes) (slot : Nat), (s.coreOff = false) ∧ (s.fltSlots.find? (fun k => jJob ((s.fltRec k).getD []) == jJobOf m) = some slot) ∧ (32 ≤ m.length) ∧ (getBE m 0 1 / 16 = 1) ∧ (jSender m < s.fltN slot) ∧ (jGen m = s.ownGen) ∧ (jType m = 1) ∧ (((s.fltGroup slot).member (jSender m)).fenced = false) ∧ (jEpochOf m ≤ (s.fltGroup slot).epoch) ∧ ((s.fltGroup slot).st = 1) ∧ (∀ k ∈ s.watchers slot (s.fltSelf slot), k = jSender m ∨ ((s.fltGroup slot).member k).heard.isSome = true)) ∧
    (∃ (s : State) (src m : Bytes), (s.coreOff = false) ∧ (s.fltSlots.find? (fun k => jJob ((s.fltRec k).getD []) == jJobOf m) = none)) ∧
    (∃ (s : State) (slot k at_ : Nat), (s.coreOff = false) ∧ ((s.fltRec slot).isSome = true) ∧ (s.fltServes slot = true) ∧ (((s.fltGroup slot).member k).fenced = false) ∧ (((s.fltGroup slot).member k).heard = some at_) ∧ (k ∈ watchSet (s.fltN slot) (s.fltSelf slot)) ∧ (s.reached (at_ + (((s.fltGroup slot).member k).missed + 1) * 100000) = true) ∧ (((s.fltGroup slot).member k).missed + 1 < s.fld Reg.FLT_CFG_MISS_COUNT) ∧ (∀ j ∈ s.fltSlots, (s.fltGroup j).ballots = [])) ∧
    (∃ (s : State) (slot k at_ c : Nat), (s.coreOff = false) ∧ ((s.fltRec slot).isSome = true) ∧ (s.fltServes slot = true) ∧ (((s.fltGroup slot).member k).fenced = false) ∧ (((s.fltGroup slot).member k).heard = some at_) ∧ (k ∈ watchSet (s.fltN slot) (s.fltSelf slot)) ∧ (s.reached (at_ + (((s.fltGroup slot).member k).missed + 1) * 100000) = true) ∧ (s.fld Reg.FLT_CFG_MISS_COUNT ≤ ((s.fltGroup slot).member k).missed + 1) ∧ (((s.fltGroup slot).member k).suspect = none) ∧ (s.coordinator slot k [] = some c) ∧ (c ≠ (s.fltSelf slot)) ∧ (∀ j ∈ s.fltSlots, (s.fltGroup j).ballots = [])) ∧
    (∃ (s : State) (slot k at_ : Nat), (s.coreOff = false) ∧ ((s.fltRec slot).isSome = true) ∧ (s.fltServes slot = true) ∧ (((s.fltGroup slot).member k).fenced = true) ∧ (((s.fltGroup slot).member k).probation = true) ∧ (((s.fltGroup slot).member k).probHeard = some at_) ∧ (s.reached (at_ + 100000) = true)) ∧
    (∃ (s : State) (slot k : Nat), s.fltRec slot = none ∨ s.fltServes slot = false ∨ (((s.fltGroup slot).member k).fenced = false ∧ ((s.fltGroup slot).member k).heard = none)) ∧
    (∃ (s : State) (slot k a c : Nat) (l : List Nat), (s.coreOff = false) ∧ ((s.fltRec slot).isSome = true) ∧ (((s.fltGroup slot).member k).suspect = some (a :: l)) ∧ (s.coordinator slot k (a :: l) = some c) ∧ (c ≠ (s.fltSelf slot))) ∧
    (∃ (s : State) (slot k a : Nat) (l : List Nat), (((s.fltGroup slot).member k).suspect = some (a :: l)) ∧ (s.coordinator slot k (a :: l) = none)) ∧
    (∃ (s : State) (slot k : Nat), ((s.fltGroup slot).member k).suspect = none ∨ ((s.fltGroup slot).member k).suspect = some []) ∧
    (∃ (s : State) (src m : Bytes) (slot : Nat), (s.coreOff = false) ∧ (s.fltSlots.find? (fun k => jJob ((s.fltRec k).getD []) == jJobOf m) = some slot) ∧ (24 ≤ m.length) ∧ (getBE m 0 1 / 16 = 1) ∧ (jSender m < s.fltN slot) ∧ (jGen m = s.ownGen) ∧ (jType m = 2) ∧ (((s.fltGroup slot).member (jSender m)).fenced = false) ∧ (jEpochOf m ≤ (s.fltGroup slot).epoch) ∧ (s.fltN slot ≤ getBE (m.drop 16) 0 2 ∨ 1 < getBE (m.drop 16) 2 1 ∨ getBE (m.drop 16) 3 1 = 0 ∨ 4 < getBE (m.drop 16) 3 1)) ∧
    (∃ (s : State) (src m : Bytes) (slot : Nat), (s.coreOff = false) ∧ (s.fltSlots.find? (fun k => jJob ((s.fltRec k).getD []) == jJobOf m) = some slot) ∧ (24 ≤ m.length) ∧ (getBE m 0 1 / 16 = 1) ∧ (jSender m < s.fltN slot) ∧ (jGen m = s.ownGen) ∧ (jType m = 2) ∧ (((s.fltGroup slot).member (jSender m)).fenced = false) ∧ (jEpochOf m ≤ (s.fltGroup slot).epoch) ∧ (getBE (m.drop 16) 0 2 < s.fltN slot) ∧ (getBE (m.drop 16) 2 1 ≤ 1) ∧ (getBE (m.drop 16) 3 1 = 1) ∧ (((s.fltGroup slot).member (getBE (m.drop 16) 0 2)).fenced = false) ∧ ((s.fltGroup slot).votes = []) ∧ ((s.fltSelf slot) ∉ s.watchers slot (getBE (m.drop 16) 0 2))) ∧
    (∃ (s : State) (src m : Bytes) (slot : Nat), (s.coreOff = false) ∧ (s.fltSlots.find? (fun k => jJob ((s.fltRec k).getD []) == jJobOf m) = some slot) ∧ (24 ≤ m.length) ∧ (getBE m 0 1 / 16 = 1) ∧ (jSender m < s.fltN slot) ∧ (jGen m = s.ownGen) ∧ (jType m = 2) ∧ (((s.fltGroup slot).member (jSender m)).fenced = false) ∧ (jEpochOf m ≤ (s.fltGroup slot).epoch) ∧ (getBE (m.drop 16) 0 2 < s.fltN slot) ∧ (getBE (m.drop 16) 2 1 ≤ 1) ∧ (getBE (m.drop 16) 3 1 = 2) ∧ (((s.fltGroup slot).member (getBE (m.drop 16) 0 2)).fenced = false) ∧ ((s.fltGroup slot).hold = true)) ∧
    (∃ (s : State) (src m : Bytes) (slot : Nat), (s.coreOff = false) ∧ (s.fltSlots.find? (fun k => jJob ((s.fltRec k).getD []) == jJobOf m) = some slot) ∧ (24 ≤ m.length) ∧ (getBE m 0 1 / 16 = 1) ∧ (jSender m < s.fltN slot) ∧ (jGen m = s.ownGen) ∧ (jType m = 3) ∧ (((s.fltGroup slot).member (jSender m)).fenced = false) ∧ (jEpochOf m ≤ (s.fltGroup slot).epoch) ∧ (getBE (m.drop 16) 4 2 < s.fltN slot) ∧ (s.votesYes slot (getBE (m.drop 16) 4 2) (getBE (m.drop 16) 7 1) = false) ∧ ((s.fltGroup slot).ballots = [])) ∧
    (∃ (s : State) (slot coord id : Nat) (b : Ballot), (s.coreOff = false) ∧ ((s.fltGroup slot).ballots = [b]) ∧ (b.coord = coord) ∧ (b.id = id) ∧ (coord ≠ (s.fltSelf slot))) ∧
    (∃ (s : State) (slot coord id : Nat), (s.fltGroup slot).ballots = []) ∧
    (∃ (s : State) (src m : Bytes) (slot : Nat) (v : VoteRun), (s.coreOff = false) ∧ (s.fltSlots.find? (fun k => jJob ((s.fltRec k).getD []) == jJobOf m) = some slot) ∧ (24 ≤ m.length) ∧ (getBE m 0 1 / 16 = 1) ∧ (jSender m < s.fltN slot) ∧ (jGen m = s.ownGen) ∧ (jType m = 4) ∧ (((s.fltGroup slot).member (jSender m)).fenced = false) ∧ (jEpochOf m ≤ (s.fltGroup slot).epoch) ∧ ((s.fltGroup slot).votes = [v]) ∧ (v.id = getBE (m.drop 16) 0 4) ∧ (jSender m ∈ v.voters) ∧ (jSender m ∉ v.yes) ∧ (getBE (m.drop 16) 4 1 = 1) ∧ (2 * (v.yes.length + 1) ≤ v.voters.length)) ∧
    (∃ (s : State) (src m : Bytes) (slot : Nat) (v : VoteRun), (s.coreOff = false) ∧ (s.fltSlots.find? (fun k => jJob ((s.fltRec k).getD []) == jJobOf m) = some slot) ∧ (24 ≤ m.length) ∧ (getBE m 0 1 / 16 = 1) ∧ (jSender m < s.fltN slot) ∧ (jGen m = s.ownGen) ∧ (jType m = 4) ∧ (((s.fltGroup slot).member (jSender m)).fenced = false) ∧ (jEpochOf m ≤ (s.fltGroup slot).epoch) ∧ ((s.fltGroup slot).votes = [v]) ∧ (v.id = getBE (m.drop 16) 0 4) ∧ (jSender m ∈ v.voters) ∧ (jSender m ∉ v.yes) ∧ (getBE (m.drop 16) 4 1 = 1) ∧ (v.voters.length < 2 * (v.yes.length + 1)) ∧ (v.prop.cause ≠ 4) ∧ (((s.fltGroup slot).member v.prop.subject).fenced = false)) ∧
    (∃ (s : State) (src m : Bytes) (slot : Nat), (s.coreOff = false) ∧ (s.fltSlots.find? (fun k => jJob ((s.fltRec k).getD []) == jJobOf m) = some slot) ∧ (24 ≤ m.length) ∧ (getBE m 0 1 / 16 = 1) ∧ (jSender m < s.fltN slot) ∧ (jGen m = s.ownGen) ∧ (jType m = 4) ∧ (((s.fltGroup slot).member (jSender m)).fenced = false) ∧ (jEpochOf m ≤ (s.fltGroup slot).epoch) ∧ (getBE (m.drop 16) 4 1 ≠ 1 ∨ (s.fltGroup slot).votes = [])) ∧
    (∃ (s : State) (slot id : Nat), (s.coreOff = false) ∧ ((s.fltGroup slot).votes.any (fun v => v.id == id) = true)) ∧
    (∃ (s : State) (slot id : Nat), (s.fltGroup slot).votes.any (fun v => v.id == id) = false) :=
  ⟨⟨grouped { hbSeq := 2 ^ 32 - 1, members := [(1, { fencedAsk := true })] } up, 2, by decide +kernel⟩,
    ⟨up, 15, by decide +kernel⟩,
    ⟨grouped { st := 2, members := [(1, { missed := 3, suspect := some [2] })] } up, [], fltMsg 1 1 0 ([0, 0, 0, 1, 3] ++ zeros 11), 2, by decide +kernel⟩,
    ⟨grouped { st := 1, members := [(2, { heard := some 0 })] } up, [], fltMsg 1 1 0 (zeros 16), 2, by decide +kernel⟩,
    ⟨up, [], [], by decide +kernel⟩,
    ⟨grouped { st := 2, members := [(1, { heard := some 0 })] } { up with time := { up.time with sec := 1 } }, 2, 1, 0, by decide +kernel⟩,
    ⟨grouped { st := 2, members := [(1, { heard := some 0, missed := 9 }), (0, { fenced := true })] } { up with time := { up.time with sec := 1 } }, 2, 1, 0, 2, by decide +kernel⟩,
    ⟨grouped { st := 2, members := [(1, { fenced := true, probation := true, probHeard := some 0 })] } { up with time := { up.time with sec := 1 } }, 2, 1, 0, by decide +kernel⟩,
    ⟨up, 15, 0, by decide +kernel⟩,
    ⟨grouped { st := 2, members := [(1, { suspect := some [0] })] } up, 2, 1, 0, 2, [], by decide +kernel⟩,
    ⟨grouped { st := 2, members := [(1, { suspect := some [0, 2] })] } up, 2, 1, 0, [2], by decide +kernel⟩,
    ⟨up, 15, 0, by decide +kernel⟩,
    ⟨grouped {} up, [], fltMsg 2 1 0 ([0, 3] ++ zeros 6), 2, by decide +kernel⟩,
    ⟨grouped { nextVote := 2 ^ 32 - 1, members := [(0, { fenced := true })] } up, [], fltMsg 2 1 0 ([0, 2, 0, 1] ++ zeros 4), 2, by decide +kernel⟩,
    ⟨grouped { hold := true } up, [], fltMsg 2 1 0 ([0, 2, 0, 2, 0, 0, 9, 0]), 2, by decide +kernel⟩,
    ⟨grouped {} up, [], fltMsg 3 1 0 [0, 0, 0, 7, 0, 2, 0, 1], 2, by decide +kernel⟩,
    ⟨grouped { ballots := [⟨1, 7, 2, 1⟩] } up, 2, 1, 7, ⟨1, 7, 2, 1⟩, by decide +kernel⟩,
    ⟨up, 15, 0, 0, by decide +kernel⟩,
    ⟨grouped { votes := [⟨7, ⟨0, 2, false, 1, 0, 0, 0⟩, [0, 1], []⟩] } up, [], fltMsg 4 1 0 [0, 0, 0, 7, 1, 0, 0, 0], 2, ⟨7, ⟨0, 2, false, 1, 0, 0, 0⟩, [0, 1], []⟩, by decide +kernel⟩,
    ⟨grouped { epoch := 6, votes := [⟨7, ⟨0, 2, false, 1, 0, 0, 0⟩, [0, 1], [0]⟩] } up, [], fltMsg 4 1 0 [0, 0, 0, 7, 1, 0, 0, 0], 2, ⟨7, ⟨0, 2, false, 1, 0, 0, 0⟩, [0, 1], [0]⟩, by decide +kernel⟩,
    ⟨grouped {} up, [], fltMsg 4 1 0 (zeros 8), 2, by decide +kernel⟩,
    ⟨grouped { votes := [⟨7, ⟨0, 2, false, 1, 0, 0, 0⟩, [0, 1], []⟩] } up, 2, 7, by decide +kernel⟩,
    ⟨up, 15, 0, by decide +kernel⟩⟩

theorem witness_AgreementRows :
    (∃ (s : State) (src m : Bytes) (slot : Nat), (s.coreOff = false) ∧ (s.fltSlots.find? (fun k => jJob ((s.fltRec k).getD []) == jJobOf m) = some slot) ∧ (32 ≤ m.length) ∧ (getBE m 0 1 / 16 = 1) ∧ (jSender m < s.fltN slot) ∧ (jGen m = s.ownGen) ∧ (jType m = 5) ∧ (((s.fltGroup slot).member (jSender m)).fenced = false) ∧ (jEpochOf m ≤ (s.fltGroup slot).epoch) ∧ (getBE (m.drop 16) 6 1 = 3) ∧ (getBE (m.drop 16) 4 2 < s.fltN slot) ∧ ((s.fltGroup slot).applied.any (fun x => x.same (⟨jSender m, getBE (m.drop 16) 0 4, getBE (m.drop 16) 4 2, 3, getBE (m.drop 16) 7 1 == 1, getBE (m.drop 16) 8 2, getBE (m.drop 16) 12 4⟩ : Decision)) = false)) ∧
    (∃ (s : State) (src m : Bytes) (slot : Nat), (s.coreOff = false) ∧ (s.fltSlots.find? (fun k => jJob ((s.fltRec k).getD []) == jJobOf m) = some slot) ∧ (32 ≤ m.length) ∧ (getBE m 0 1 / 16 = 1) ∧ (jSender m < s.fltN slot) ∧ (jGen m = s.ownGen) ∧ (jType m = 5) ∧ (((s.fltGroup slot).member (jSender m)).fenced = false) ∧ (jEpochOf m ≤ (s.fltGroup slot).epoch) ∧ (getBE (m.drop 16) 6 1 = 0) ∧ (getBE (m.drop 16) 4 2 < s.fltN slot) ∧ ((s.fltGroup slot).applied.any (fun x => x.same (⟨jSender m, getBE (m.drop 16) 0 4, getBE (m.drop 16) 4 2, 0, getBE (m.drop 16) 7 1 == 1, getBE (m.drop 16) 8 2, getBE (m.drop 16) 12 4⟩ : Decision)) = false)) ∧
    (∃ (s : State) (src m : Bytes) (slot : Nat), (s.coreOff = false) ∧ (s.fltSlots.find? (fun k => jJob ((s.fltRec k).getD []) == jJobOf m) = some slot) ∧ (32 ≤ m.length) ∧ (getBE m 0 1 / 16 = 1) ∧ (jSender m < s.fltN slot) ∧ (jGen m = s.ownGen) ∧ (jType m = 5) ∧ (((s.fltGroup slot).member (jSender m)).fenced = false) ∧ (jEpochOf m ≤ (s.fltGroup slot).epoch) ∧ (getBE (m.drop 16) 6 1 = 1) ∧ (getBE (m.drop 16) 4 2 < s.fltN slot) ∧ ((s.fltGroup slot).applied.any (fun x => x.same (⟨jSender m, getBE (m.drop 16) 0 4, getBE (m.drop 16) 4 2, 1, getBE (m.drop 16) 7 1 == 1, getBE (m.drop 16) 8 2, getBE (m.drop 16) 12 4⟩ : Decision)) = false) ∧ (((s.fltGroup slot).member (s.fltSelf slot)).fenced = false)) ∧
    (∃ (s : State) (src m : Bytes) (slot : Nat), (s.coreOff = false) ∧ (s.fltSlots.find? (fun k => jJob ((s.fltRec k).getD []) == jJobOf m) = some slot) ∧ (32 ≤ m.length) ∧ (getBE m 0 1 / 16 = 1) ∧ (jSender m < s.fltN slot) ∧ (jGen m = s.ownGen) ∧ (jType m = 5) ∧ (((s.fltGroup slot).member (jSender m)).fenced = false) ∧ (jEpochOf m ≤ (s.fltGroup slot).epoch) ∧ (getBE (m.drop 16) 6 1 = 2) ∧ (getBE (m.drop 16) 4 2 < s.fltN slot) ∧ ((s.fltGroup slot).applied.any (fun x => x.same (⟨jSender m, getBE (m.drop 16) 0 4, getBE (m.drop 16) 4 2, 2, getBE (m.drop 16) 7 1 == 1, getBE (m.drop 16) 8 2, getBE (m.drop 16) 12 4⟩ : Decision)) = false) ∧ (getBE (m.drop 16) 4 2 = (s.fltSelf slot))) ∧
    (∃ (s : State) (src m : Bytes) (slot : Nat), (s.coreOff = false) ∧ (s.fltSlots.find? (fun k => jJob ((s.fltRec k).getD []) == jJobOf m) = some slot) ∧ (32 ≤ m.length) ∧ (getBE m 0 1 / 16 = 1) ∧ (jSender m < s.fltN slot) ∧ (jGen m = s.ownGen) ∧ (jType m = 5) ∧ (((s.fltGroup slot).member (jSender m)).fenced = false) ∧ (jEpochOf m ≤ (s.fltGroup slot).epoch) ∧ (getBE (m.drop 16) 6 1 = 4) ∧ (getBE (m.drop 16) 4 2 < s.fltN slot) ∧ ((s.fltGroup slot).applied.any (fun x => x.same (⟨jSender m, getBE (m.drop 16) 0 4, getBE (m.drop 16) 4 2, 4, getBE (m.drop 16) 7 1 == 1, getBE (m.drop 16) 8 2, getBE (m.drop 16) 12 4⟩ : Decision)) = false) ∧ (getBE (m.drop 16) 7 1 ≠ 1) ∧ (getBE (m.drop 16) 4 2 ≠ (s.fltSelf slot))) ∧
    (∃ (s : State) (src m : Bytes) (slot : Nat), (s.coreOff = false) ∧ (s.fltSlots.find? (fun k => jJob ((s.fltRec k).getD []) == jJobOf m) = some slot) ∧ (32 ≤ m.length) ∧ (getBE m 0 1 / 16 = 1) ∧ (jSender m < s.fltN slot) ∧ (jGen m = s.ownGen) ∧ (jType m = 5) ∧ (((s.fltGroup slot).member (jSender m)).fenced = false) ∧ (jEpochOf m ≤ (s.fltGroup slot).epoch) ∧ (getBE (m.drop 16) 6 1 = 3) ∧ (getBE (m.drop 16) 4 2 < s.fltN slot) ∧ ((s.fltGroup slot).applied.any (fun x => x.same (⟨jSender m, getBE (m.drop 16) 0 4, getBE (m.drop 16) 4 2, 3, getBE (m.drop 16) 7 1 == 1, getBE (m.drop 16) 8 2, getBE (m.drop 16) 12 4⟩ : Decision)) = true) ∧ ((s.fltGroup slot).spreads = [])) ∧
    (∃ (s : State) (src m : Bytes) (slot : Nat), (s.coreOff = false) ∧ (s.fltSlots.find? (fun k => jJob ((s.fltRec k).getD []) == jJobOf m) = some slot) ∧ (32 ≤ m.length) ∧ (getBE m 0 1 / 16 = 1) ∧ (jSender m < s.fltN slot) ∧ (jGen m = s.ownGen) ∧ (jType m = 5) ∧ (((s.fltGroup slot).member (jSender m)).fenced = false) ∧ (jEpochOf m ≤ (s.fltGroup slot).epoch) ∧ (4 < getBE (m.drop 16) 6 1)) ∧
    (∃ (s : State) (slot coord id child n : Nat) (x : Spread), (s.coreOff = false) ∧ ((s.fltGroup slot).spreads = [x]) ∧ (x.dec.coord = coord) ∧ (x.dec.voteId = id) ∧ (x.children.find? (fun c => c.1 == child) = some (child, n)) ∧ (n < 3)) ∧
    (∃ (s : State) (slot coord id child n : Nat) (x : Spread), (s.coreOff = false) ∧ ((s.fltGroup slot).spreads = [x]) ∧ (x.dec.coord = coord) ∧ (x.dec.voteId = id) ∧ (x.children.find? (fun c => c.1 == child) = some (child, n)) ∧ (3 ≤ n)) ∧
    (∃ (s : State) (slot coord id child : Nat), (s.fltGroup slot).spreads = []) ∧
    (∃ (s : State) (src m : Bytes) (slot : Nat) (x : Spread), (s.coreOff = false) ∧ (s.fltSlots.find? (fun k => jJob ((s.fltRec k).getD []) == jJobOf m) = some slot) ∧ (24 ≤ m.length) ∧ (getBE m 0 1 / 16 = 1) ∧ (jSender m < s.fltN slot) ∧ (jGen m = s.ownGen) ∧ (jType m = 6) ∧ (((s.fltGroup slot).member (jSender m)).fenced = false) ∧ (jEpochOf m ≤ (s.fltGroup slot).epoch) ∧ ((s.fltGroup slot).spreads = [x]) ∧ (x.dec.voteId = getBE (m.drop 16) 0 4) ∧ (x.dec.epoch = getBE (m.drop 16) 4 4) ∧ (x.children.any (fun c => c.1 == jSender m) = true)) ∧
    (∃ (s : State) (src m : Bytes) (slot : Nat), (s.coreOff = false) ∧ (s.fltSlots.find? (fun k => jJob ((s.fltRec k).getD []) == jJobOf m) = some slot) ∧ (24 ≤ m.length) ∧ (getBE m 0 1 / 16 = 1) ∧ (jSender m < s.fltN slot) ∧ (jGen m = s.ownGen) ∧ (jType m = 6) ∧ (((s.fltGroup slot).member (jSender m)).fenced = false) ∧ (jEpochOf m ≤ (s.fltGroup slot).epoch) ∧ ((s.fltGroup slot).spreads = [])) ∧
    (∃ (s : State) (slot : Nat), (s.coreOff = false) ∧ ((s.fltGroup slot).st = 3) ∧ ((s.fltGroup slot).spreads = []) ∧ (s.scopeQuiet slot = true) ∧ (s.reached ((s.fltGroup slot).restartAt + s.fld Reg.FLT_CFG2_QUIET_US * 1000) = true)) ∧
    (∃ (s : State) (slot : Nat), (s.fltGroup slot).st ≠ 3 ∨ s.scopeQuiet slot = false ∨ s.reached ((s.fltGroup slot).restartAt + s.fld Reg.FLT_CFG2_QUIET_US * 1000) = false) ∧
    (∃ (s : State), (s.coreOff = false) ∧ (s.swc.tab = []) ∧ (s.flt.stalled = []) ∧ (s.flt.linkFence = []) ∧ ((s.flt.health.map Prod.fst).Nodup)) ∧
    (∃ (s : State) (slot : Nat), (s.coreOff = false) ∧ ((s.fltGroup slot).hold = true) ∧ ((s.fltGroup slot).holder.map Decision.coord = some (s.fltSelf slot)) ∧ (s.reached (s.fltGroup slot).holdUntil = true) ∧ ((s.fltGroup slot).heldProps = [])) ∧
    (∃ (s : State) (slot : Nat), (s.fltGroup slot).hold = false ∨ (s.fltGroup slot).holder.map Decision.coord ≠ some (s.fltSelf slot) ∨ s.reached (s.fltGroup slot).holdUntil = false) ∧
    (∃ (s : State) (op : OpKey) (o : Op), (s.Ready op o) ∧ (isMgmt 0x11 o.desc = true) ∧ (o.fn = 0) ∧ (s.fltRec (mParam0 o.desc % 16) = none ∨ (s.fltGroup (mParam0 o.desc % 16)).st ≠ 4)) ∧
    (∃ (s : State) (op : OpKey) (o : Op) (slot : Nat), (s.Ready op o) ∧ (isMgmt 0x11 o.desc = true) ∧ (o.fn = 0) ∧ (slot = mParam0 o.desc % 16) ∧ ((s.fltRec slot).isSome = true) ∧ ((s.fltGroup slot).st = 4)) ∧
    (∃ (s : State) (slot : Nat), (s.coreOff = false) ∧ ((s.fltGroup slot).st = 5) ∧ ((s.fltGroup slot).probAsked = false)) ∧
    (∃ (s : State) (slot : Nat), (s.fltGroup slot).st ≠ 5 ∨ (s.fltGroup slot).probAsked = true) ∧
    (∃ (s : State) (src m : Bytes) (slot : Nat), (s.coreOff = false) ∧ (s.fltSlots.find? (fun k => jJob ((s.fltRec k).getD []) == jJobOf m) = some slot) ∧ (20 ≤ m.length) ∧ (getBE m 0 1 / 16 = 1) ∧ (jSender m < s.fltN slot) ∧ (jGen m = s.ownGen) ∧ (jType m = 8) ∧ (jEpochOf m ≤ (s.fltGroup slot).epoch) ∧ (((s.fltGroup slot).member (jSender m)).fenced = true)) ∧
    (∃ (s : State) (src m : Bytes) (slot : Nat), (s.coreOff = false) ∧ (s.fltSlots.find? (fun k => jJob ((s.fltRec k).getD []) == jJobOf m) = some slot) ∧ (20 ≤ m.length) ∧ (getBE m 0 1 / 16 = 1) ∧ (jSender m < s.fltN slot) ∧ (jGen m = s.ownGen) ∧ (jType m = 8) ∧ (jEpochOf m ≤ (s.fltGroup slot).epoch) ∧ (((s.fltGroup slot).member (jSender m)).fenced = false)) ∧
    (∃ (s : State) (src m : Bytes) (slot : Nat), (s.coreOff = false) ∧ (s.fltSlots.find? (fun k => jJob ((s.fltRec k).getD []) == jJobOf m) = some slot) ∧ (20 ≤ m.length) ∧ (getBE m 0 1 / 16 = 1) ∧ (jSender m < s.fltN slot) ∧ (jGen m = s.ownGen) ∧ (jType m = 9) ∧ (jEpochOf m ≤ (s.fltGroup slot).epoch) ∧ (((s.fltGroup slot).member (jSender m)).fenced = true)) ∧
    (∃ (s : State) (src m : Bytes) (slot : Nat), (s.coreOff = false) ∧ (s.fltSlots.find? (fun k => jJob ((s.fltRec k).getD []) == jJobOf m) = some slot) ∧ (20 ≤ m.length) ∧ (getBE m 0 1 / 16 = 1) ∧ (jSender m < s.fltN slot) ∧ (jGen m = s.ownGen) ∧ (jType m = 9) ∧ (jEpochOf m ≤ (s.fltGroup slot).epoch) ∧ (((s.fltGroup slot).member (jSender m)).fenced = false)) ∧
    (∃ (s : State) (slot : Nat), (s.coreOff = false) ∧ ((s.fltGroup slot).st = 5) ∧ ((s.fltGroup slot).probAsked = false) ∧ (s.reached (s.fltGroup slot).probEnd = true)) ∧
    (∃ (s : State) (slot : Nat), (s.fltGroup slot).st ≠ 5 ∨ (s.fltGroup slot).probAsked = true ∨ s.reached (s.fltGroup slot).probEnd = false) ∧
    (∃ (s : State) (slot : Nat) (op : OpKey) (o : Op), (s.coreOff = false) ∧ ((s.fltGroup slot).st = 5) ∧ ((s.fltGroup slot).probAsked = true) ∧ ((s.fltGroup slot).probOp = some op) ∧ (s.op? op = some o) ∧ (o.key = op) ∧ (o.lost = false) ∧ (op.slot ∈ (s.ring op.ring).taken)) ∧
    (∃ (s : State) (slot : Nat), (s.fltGroup slot).st ≠ 5 ∨ (s.fltGroup slot).probAsked = false) ∧
    (∃ (s : State) (src m : Bytes) (slot : Nat), (s.coreOff = false) ∧ (s.fltSlots.find? (fun k => jJob ((s.fltRec k).getD []) == jJobOf m) = some slot) ∧ (48 ≤ m.length) ∧ (getBE m 0 1 / 16 = 1) ∧ (jSender m < s.fltN slot) ∧ (jGen m = s.ownGen) ∧ (jType m = 7) ∧ (((s.fltGroup slot).member (jSender m)).fenced = false) ∧ (jEpochOf m ≤ (s.fltGroup slot).epoch) ∧ ((getBE (m.drop 16) 0 8, getBE (m.drop 16) 16 4) ∉ (s.fltGroup slot).paceSeen)) ∧
    (∃ (s : State) (src m : Bytes) (slot : Nat), (s.coreOff = false) ∧ (s.fltSlots.find? (fun k => jJob ((s.fltRec k).getD []) == jJobOf m) = some slot) ∧ (48 ≤ m.length) ∧ (getBE m 0 1 / 16 = 1) ∧ (jSender m < s.fltN slot) ∧ (jGen m = s.ownGen) ∧ (jType m = 7) ∧ (((s.fltGroup slot).member (jSender m)).fenced = false) ∧ (jEpochOf m ≤ (s.fltGroup slot).epoch) ∧ ((getBE (m.drop 16) 0 8, getBE (m.drop 16) 16 4) ∈ (s.fltGroup slot).paceSeen)) ∧
    (∃ (s : State) (slot : Nat) (b : Bytes) (rest : List (Nat × Bytes)), (s.coreOff = false) ∧ (s.flt.paceAgain = (slot, b) :: rest)) ∧
    (∃ (s : State), s.flt.paceAgain = []) :=
  ⟨⟨grouped {} up, [], fltMsg 5 1 0 ([0, 0, 0, 7, 0, 2, 3] ++ zeros 9), 2, by decide +kernel⟩,
    ⟨grouped { st := 2 } up, [], fltMsg 5 1 0 ([0, 0, 0, 7, 0, 2, 0] ++ zeros 8 ++ [9]), 2, by decide +kernel⟩,
    ⟨grouped { st := 2 } up, [], fltMsg 5 1 0 ([0, 0, 0, 7, 0, 2, 1] ++ zeros 8 ++ [9]), 2, by decide +kernel⟩,
    ⟨grouped { st := 2 } up, [], fltMsg 5 1 0 ([0, 0, 0, 7, 0, 0, 2, 1, 0, 5] ++ zeros 6), 2, by decide +kernel⟩,
    ⟨grouped { st := 2, members := [(2, { fenced := true })] } up, [], fltMsg 5 1 0 ([0, 0, 0, 7, 0, 2, 4] ++ zeros 9), 2, by decide +kernel⟩,
    ⟨grouped { st := 2, applied := [⟨1, 7, 2, 3, false, 0, 0⟩] } up, [], fltMsg 5 1 0 ([0, 0, 0, 7, 0, 2, 3] ++ zeros 9), 2, by decide +kernel⟩,
    ⟨grouped {} up, [], fltMsg 5 1 0 ([0, 0, 0, 7, 0, 2, 5] ++ zeros 9), 2, by decide +kernel⟩,
    ⟨grouped { spreads := [⟨⟨1, 7, 2, 3, false, 0, 0⟩, [(2, 2)], none⟩] } up, 2, 1, 7, 2, 2, ⟨⟨1, 7, 2, 3, false, 0, 0⟩, [(2, 2)], none⟩, by decide +kernel⟩,
    ⟨grouped { spreads := [⟨⟨1, 7, 2, 3, false, 0, 0⟩, [(2, 3), (0, 1)], none⟩] } up, 2, 1, 7, 2, 3, ⟨⟨1, 7, 2, 3, false, 0, 0⟩, [(2, 3), (0, 1)], none⟩, by decide +kernel⟩,
    ⟨up, 15, 0, 0, 0, by decide +kernel⟩,
    ⟨grouped { spreads := [⟨⟨1, 7, 2, 3, false, 0, 0⟩, [(2, 2), (1, 1)], none⟩] } up, [], fltMsg 6 1 0 [0, 0, 0, 7, 0, 0, 0, 0], 2, ⟨⟨1, 7, 2, 3, false, 0, 0⟩, [(2, 2), (1, 1)], none⟩, by decide +kernel⟩,
    ⟨grouped {} up, [], fltMsg 6 1 0 [0, 0, 0, 7, 0, 0, 0, 0], 2, by decide +kernel⟩,
    ⟨grouped { st := 3 } { up with time := { up.time with sec := 1 } }, 2, by decide +kernel⟩,
    ⟨up, 15, by decide +kernel⟩,
    ⟨{ up with flt := { health := [(.self, { score := 9, adds := 2 }), (.port 575, { adds := 1 })] } }, by decide +kernel⟩,
    ⟨grouped { hold := true, holder := some ⟨0, 7, 2, 3, false, 0, 0⟩ } up, 2, by decide +kernel⟩,
    ⟨up, 15, by decide +kernel⟩,
    ⟨withOp (mgmtDesc 0x11 15), ⟨0, 0⟩, theOp (mgmtDesc 0x11 15), by decide +kernel⟩,
    ⟨grouped { st := 4 } (withOp (mgmtDesc 0x11 2)), ⟨0, 0⟩, theOp (mgmtDesc 0x11 2), 2, by decide +kernel⟩,
    ⟨grouped { st := 5, probSeq := 2 ^ 32 - 1 } up, 2, by decide +kernel⟩,
    ⟨up, 15, by decide +kernel⟩,
    ⟨grouped { members := [(1, { fenced := true, probScore := 5 })] } up, [], fltMsg 8 1 0 (zeros 4), 2, by decide +kernel⟩,
    ⟨grouped {} up, [], fltMsg 8 1 0 (zeros 4), 2, by decide +kernel⟩,
    ⟨grouped { members := [(1, { fenced := true })] } up, [], fltMsg 9 1 0 (zeros 4), 2, by decide +kernel⟩,
    ⟨grouped {} up, [], fltMsg 9 1 0 (zeros 4), 2, by decide +kernel⟩,
    ⟨grouped { st := 5 } up, 2, by decide +kernel⟩,
    ⟨up, 15, by decide +kernel⟩,
    ⟨grouped { st := 5, probAsked := true, probOp := some ⟨0, 0⟩ } (running (mgmtDesc 0x11 2)), 2, ⟨0, 0⟩, { theOp (mgmtDesc 0x11 2) with phase := .running }, by decide +kernel⟩,
    ⟨up, 15, by decide +kernel⟩,
    ⟨grouped {} up, [], fltMsg 7 1 0 (zeros 32), 2, by decide +kernel⟩,
    ⟨grouped { paceSeen := [(0, 0)] } up, [], fltMsg 7 1 0 (zeros 32), 2, by decide +kernel⟩,
    ⟨let s := grouped {} up; { s with flt := { s.flt with paceAgain := [(2, zeros 32)] } }, 2, zeros 32, [], by decide +kernel⟩,
    ⟨up, by decide +kernel⟩⟩

theorem witness_EmptyCommit : ∃ (s : State) (v : View) (b : Blk) (w : Word), s.portReached v b 0xFF010 = true ∧
    bitAt w.toNat 0 = true ∧ bitAt w.toNat 1 = false ∧ (s.port v b).result ≠ CommitResult.checking ∧ (s.port v b).mask = 0 :=
  ⟨up, .host, .pwr, 1, by decide +kernel⟩

theorem witness_IntegerResults : ∃ (bytes : Nat) (a c : Accum), bytes = 4 ∧ a.nan = true ∧ c.nan = false ∧
    c.field = 2 ^ 31 ∧ (intResult bytes c).1 = 0x7FFFFFFF :=
  ⟨4, { nan := true }, { field := 2 ^ 31 }, by decide +kernel⟩

theorem witness_ForwardFormats : ∀ m : Mode, ∃ (w : Nat) (sp : RSpec), parseSpec w = some sp ∧ bitsOf w 16 8 = 0xFF ∧ sp.mode = m :=
  fun m => match m with
  | .wide => ⟨0xFF0000, ⟨.wide, false, 0, 0⟩, by decide +kernel⟩
  | .narrow => ⟨0xFF0001, ⟨.narrow, false, 0, 2⟩, by decide +kernel⟩
  | .integer => ⟨0xFF2001, ⟨.integer, false, 0x20, 0x20⟩, by decide +kernel⟩
  | .ordered => ⟨0xFF0002, ⟨.ordered, false, 0, 0⟩, by decide +kernel⟩

theorem witness_MemoryWrites : ∃ (s : State) (k : MemKey) (a : Nat) (b : Bytes), s.MemOk ∧ b.length = 3 ∧ a % 64 = 62 ∧
    (State.memWrite k a b s).mem.cells.length = 3 :=
  ⟨State.reset, .phys, 0x103E, [1, 2, 3], rfl, by decide +kernel⟩

theorem witness_SymbolCodes : ∃ d e : List Nat, d.length = 32 ∧ (∀ x ∈ d, x < 16) ∧ e.length = 8 ∧ (∀ x ∈ e, x < 16) :=
  ⟨List.replicate 32 15, List.replicate 8 9, by decide +kernel⟩

end Sys2Proof.Tests
end

/-!
PROOFS. The commit registers of one requester and block as accessors (what a read gives after a write), and a GO whose
mask is 0 (R89): the one state it leaves, and from that state the statement about it.
-/

namespace Sys2Proof.Machine

/-- Of two writes to one key the second stands. -/
theorem AMap.put_put_self {κ α : Type} [DecidableEq κ] (m : AMap κ α) (k : κ) (x y : α) :
    AMap.put (AMap.put m k x) k y = AMap.put m k y := by
  induction m with
  | nil => simp [AMap.put]
  | cons p m ih =>
    obtain ⟨k', v'⟩ := p
    by_cases h : k' = k <;> simp [AMap.put, h, ih]

/-! ### Commit registers -/

@[simp] theorem State.port_setPort_self (s : State) (v : View) (b : Blk) (p : CommitPort) :
    (s.setPort v b p).port v b = p := AMap.getD_put_self _ _ _ _

theorem State.port_setPort_ne (s : State) (v v' : View) (b b' : Blk) (p : CommitPort) (h : (v', b') ≠ (v, b)) :
    (s.setPort v b p).port v' b' = s.port v' b' := AMap.getD_put_ne _ _ _ _ _ h

@[simp] theorem State.port_onPort_self (s : State) (v : View) (b : Blk) (f : CommitPort → CommitPort) :
    (s.onPort v b f).port v b = f (s.port v b) := State.port_setPort_self ..

@[simp] theorem State.setPort_setPort (s : State) (v : View) (b : Blk) (p q : CommitPort) :
    (s.setPort v b p).setPort v b q = s.setPort v b q := by
  simp only [State.setPort, AMap.put_put_self]

@[simp] theorem State.setPort_onPort (s : State) (v : View) (b : Blk) (f : CommitPort → CommitPort) (q : CommitPort) :
    (s.onPort v b f).setPort v b q = s.setPort v b q := State.setPort_setPort ..

@[simp] theorem State.shadowReg_setPort (s : State) (v v' : View) (b b' : Blk) (p : CommitPort) (off : Nat) :
    (s.setPort v b p).shadowReg v' b' off = s.shadowReg v' b' off := rfl

/-! ### GO with a mask of 0 -/

/-- The commit registers after a GO whose mask is 0: RESULT is EMPTY, the error fields of R92 read 0, and the rest, with
COMMIT_MASK, SEQ, COMMIT_PENDING, the capture and ACCESS_ERR, stays. -/
def CommitPort.emptied (p : CommitPort) : CommitPort :=
  { p with result := .empty, errGroup := 0, errCode := 0, errOff := 0, errLsb := 0 }

/-- R89: outside CHECKING, a GO with a mask of 0 changes the requester's own commit registers only. -/
theorem State.commitGo_of_mask_zero (s : State) (v : View) (b : Blk) (hr : (s.port v b).result ≠ .checking)
    (hm : (s.port v b).mask = 0) : s.commitGo v b = s.setPort v b (s.port v b).emptied := by
  cases hc : (s.port v b).result with
  | checking => exact absurd hc hr
  | idle | accepted | refused | empty => simp [State.commitGo, CommitPort.emptied, hc, hm]

/-- A word with GO and without ABANDON sets READ_SEL and then commits. -/
theorem State.ctrlWrite_of_go (s : State) (v : View) (b : Blk) (w : Word) (hp : s.portReached v b 0xFF010 = true)
    (hg : bitAt w.toNat 0 = true) (ha : bitAt w.toNat 1 = false) :
    s.ctrlWrite v b w = (s.onPort v b fun p => { p with readSel := bitAt w.toNat 8 }).commitGo v b := by
  simp [State.ctrlWrite, hp, hg, ha]

/-- R89 as the write of COMMIT_CTRL: all that it leaves different is READ_SEL, as written, and an emptied result. -/
theorem State.ctrlWrite_empty (s : State) (v : View) (b : Blk) (w : Word) (hp : s.portReached v b 0xFF010 = true)
    (hg : bitAt w.toNat 0 = true) (ha : bitAt w.toNat 1 = false) (hr : (s.port v b).result ≠ .checking)
    (hm : (s.port v b).mask = 0) :
    s.ctrlWrite v b w = s.setPort v b { s.port v b with readSel := bitAt w.toNat 8 }.emptied := by
  rw [State.ctrlWrite_of_go s v b w hp hg ha, State.commitGo_of_mask_zero _ v b (by simpa using hr) (by simpa using hm),
    State.setPort_onPort, State.port_onPort_self]

/-- Replacing commit registers touches the set-up part of the state only. -/
theorem State.sameBut_setPort (s : State) (v : View) (b : Blk) (p : CommitPort) :
    SameBut [.setup] s (s.setPort v b p) :=
  (State.setPort_fr (Fr.refl _ s) (Sub.refl _)).within (by decide +kernel)

/-- Settles O56: the write leaves exactly the state of `State.ctrlWrite_empty`, in which each clause is a read of what
was written, or of what was not. -/
theorem emptyCommit : Obligations.EmptyCommit := by
  unfold Obligations.EmptyCommit
  intro s v b w hp hg ha hr hm
  refine ⟨_, congrArg Host.Outcome.next (s.ctrlWrite_empty v b w hp hg ha hr hm), ?_⟩
  refine ⟨?result, ?seq, ?pending, ?capture, fun v' b' h => s.port_setPort_ne v v' b b' _ h,
    fun v' b' off => s.shadowReg_setPort v v' b b' _ off, s.sameBut_setPort v b _⟩
  all_goals simp [CommitPort.emptied]

end Sys2Proof.Machine

/-!
PROOFS. The reduction specifier's FWD, the results of integer mode and the number-format counters (R257, R258, R265, R270).
-/

namespace Sys2Proof.Machine

/-! ### FWD of a specifier -/

/-- The FWD of a valid specifier: the one written, or for 0xFF the default of the mode. -/
theorem fwd_of_parseSpec {w : Nat} {sp : RSpec} (h : parseSpec w = some sp) :
    sp.fwd = if bitsOf w 16 8 = 0xFF then sp.mode.fwdDefault else bitsOf w 16 8 := by
  simp only [parseSpec, Option.bind_eq_some_iff, Option.ite_none_right_eq_some, Option.some.injEq] at h
  obtain ⟨m, -, -, rfl⟩ := h
  rfl

/-- Settles O58: FWD is the default of the mode, which is the format named for each mode. -/
theorem forwardFormats : Obligations.ForwardFormats := by
  unfold Obligations.ForwardFormats
  intro w sp hsp hff
  have hfwd : sp.fwd = sp.mode.fwdDefault := by rw [fwd_of_parseSpec hsp, if_pos hff]
  rw [hfwd]
  refine ⟨?wide, ?ordered, ?narrow, ?integer⟩
  all_goals
    intro hm
    rw [hm]
    rfl

/-! ### Two's-complement codes -/

/-- The code of an integer is that of the library's bit vectors. -/
theorem ofSigned_eq_toNat_ofInt (bits : Nat) (z : Int) : ofSigned bits z = (BitVec.ofInt bits z).toNat := by
  rw [BitVec.toNat_ofInt, ofSigned]

/-- The reading of a code is that of the library's bit vectors. -/
theorem toSigned_toNat {bits : Nat} (hb : 0 < bits) (x : BitVec bits) : toSigned bits x.toNat = x.toInt := by
  obtain ⟨n, rfl⟩ := Nat.exists_eq_succ_of_ne_zero hb.ne'
  have hhalf : x.toNat < 2 ^ n ↔ 2 * x.toNat < 2 ^ (n + 1) := by rw [Nat.pow_succ]; omega
  simp [toSigned, BitVec.toInt_eq_toNat_cond, Nat.mod_eq_of_lt x.isLt, hhalf]

/-- A number that fits is read back from its code. -/
theorem toSigned_ofSigned {bits : Nat} (hb : 0 < bits) {z : Int} (hlo : -(2 ^ (bits - 1) : Int) ≤ z)
    (hhi : z < 2 ^ (bits - 1)) : toSigned bits (ofSigned bits z) = z := by
  rw [ofSigned_eq_toNat_ofInt, toSigned_toNat hb, BitVec.toInt_ofInt_eq_self hb hlo hhi]

/-! ### Results of integer mode -/

/-- `z` clamped to the two's-complement numbers of `bits` bits. -/
def clampSigned (bits : Nat) (z : Int) : Int := max (-(2 ^ (bits - 1) : Int)) (min (2 ^ (bits - 1) - 1 : Int) z)

/-- A clamped number is read back from its code. -/
theorem toSigned_ofSigned_clampSigned {bits : Nat} (hb : 0 < bits) (z : Int) :
    toSigned bits (ofSigned bits (clampSigned bits z)) = clampSigned bits z := by
  have hpos : (0 : Int) < 2 ^ (bits - 1) := by positivity
  apply toSigned_ofSigned hb <;> unfold clampSigned <;> omega

/-- With INVALID set: the most negative value, counted as NAN_RESULT. -/
theorem intResult_of_invalid (bytes : Nat) {a : Accum} (h : a.nan = true) :
    intResult bytes a = (ofSigned (8 * bytes) (-(2 ^ (8 * bytes - 1) : Int)), .nanResult) := by
  simp [intResult, h]

/-- With INVALID clear: the code of FIELD clamped, counted as SATURATED when FIELD lies outside the range. -/
theorem intResult_of_valid (bytes : Nat) {a : Accum} (h : a.nan = false) :
    intResult bytes a = (ofSigned (8 * bytes) (clampSigned (8 * bytes) a.field),
      if a.field < -(2 ^ (8 * bytes - 1) : Int) ∨ (2 ^ (8 * bytes - 1) - 1 : Int) < a.field then .saturated else .none) := by
  have hpos : (0 : Int) < 2 ^ (8 * bytes - 1) := by positivity
  simp only [intResult, h, clampSigned, Nat.cast_pow, Nat.cast_ofNat, Bool.false_eq_true, if_false]
  generalize (2 ^ (8 * bytes - 1) : Int) = half at hpos ⊢
  by_cases hlow : a.field < -half
  · rw [if_pos hlow, if_pos (.inl hlow), show max (-half) (min (half - 1) a.field) = -half by omega]
  · by_cases hhigh : half ≤ a.field
    · rw [if_neg hlow, if_pos hhigh, if_pos (.inr (by omega)),
        show max (-half) (min (half - 1) a.field) = half - 1 by omega]
    · rw [if_neg hlow, if_neg hhigh, if_neg (by omega), show max (-half) (min (half - 1) a.field) = a.field by omega]

/-- In integer mode a set of accumulators gives its results one by one, in order. -/
theorem encodeAccs_integer {code n : Nat} (h : fmtOf code = some (.int n)) (l : List Accum) (rnd : Nat → Option Nat) :
    encodeAccs .integer code l rnd =
      (l.flatMap fun a => bytesLE n (intResult n a).1, l.map fun a => (intResult n a).2) := by
  simp [encodeAccs, h, List.flatMap_map, Function.comp_def]

/-! ### Number-format counters -/

/-- A counter that is raised saturates at its largest value. -/
theorem State.fld_bump_self (s : State) (f : Fld) (inst n : Nat) (h : f.lsb + f.width ≤ 32) :
    (s.bump f inst n).fld f inst = min (2 ^ f.width - 1) (s.fld f inst + n) := by
  have hpos : 0 < 2 ^ f.width := Nat.two_pow_pos _
  rw [State.bump, State.fld_setFld_self s f inst _ h, satAdd, Nat.mod_eq_of_lt (by omega)]

/-- Counter `c` of a die after it is raised. -/
theorem State.numCount_self (s : State) (die c n : Nat) :
    (s.numCount die c n).fld Reg.BEN_NUM_VALUE_VALUE (c + 8 * die) =
      min 0xFFFFFFFF (s.fld Reg.BEN_NUM_VALUE_VALUE (c + 8 * die) + n) :=
  s.fld_bump_self Reg.BEN_NUM_VALUE_VALUE (c + 8 * die) n (by decide)

/-- Raising one counter of a die leaves its others alone. -/
theorem State.numCount_ne (s : State) (die n : Nat) {c c' : Nat} (h : c' ≠ c) :
    (s.numCount die c n).fld Reg.BEN_NUM_VALUE_VALUE (c' + 8 * die) =
      s.fld Reg.BEN_NUM_VALUE_VALUE (c' + 8 * die) :=
  State.fld_setFld_ne _ _ _ _ _ _ (by simpa [Fld.key] using h)

/-- Settles O57: each clause is the lemma about the one result, about the set of accumulators, or about the counters, of
which each is raised once. -/
theorem integerResults : Obligations.IntegerResults := by
  unfold Obligations.IntegerResults
  refine ⟨fun bytes a hbytes => ⟨fun hinv => ?_, fun hval => ?_⟩, fun l rnd => ⟨?_, ?_⟩, fun s die l _ => ⟨?_, ?_⟩⟩
  · rw [intResult_of_invalid bytes hinv]
    rcases hbytes with rfl | rfl <;> rfl
  · rw [intResult_of_valid bytes hval]
    exact ⟨toSigned_ofSigned_clampSigned (by omega) a.field, rfl⟩
  · exact encodeAccs_integer rfl l rnd
  · exact encodeAccs_integer rfl l rnd
  · rw [State.countResults, State.numCount_ne _ _ _ (by decide), State.numCount_ne _ _ _ (by decide),
      State.numCount_self]
  · rw [State.countResults, State.numCount_self, State.numCount_ne _ _ _ (by decide),
      State.numCount_ne _ _ _ (by decide)]

end Sys2Proof.Machine

/-!
PROOFS. One step of the block: what runs, what every command keeps (from the frame of each command), what a tick leaves, the
state after reset; and the command whose frame Safety.lean draws too narrow.
-/

namespace Sys2Proof.Machine

/-! ### Every command and every step keeps the invariant -/

/-- The mask of all parts. -/
def everyMask : Nat := 0x3FFFFFFFFFFFFF

/-- Every mask of parts lies within that of all. -/
theorem Sub.every {F : Nat} (h : F &&& everyMask = F) : Sub F everyMask := h

/-- Whatever a command changes, the queue is kept and the invariants pass on: each command has its frame lemma. -/
theorem exec_fr : ∀ (c : Instr) {s t : State}, exec c s = .next t → Fr everyMask s t
  | .powerOnReset .., _, _, h => execPowerOnReset_fr (Fr.refl everyMask _) (Sub.every rfl) h
  | .porstAssert, _, _, h => execPorstAssert_fr (Fr.refl everyMask _) (Sub.every rfl) h
  | .startupStageDone .., _, _, h => execStartupStageDone_fr (Fr.refl everyMask _) (Sub.every rfl) h
  | .recovWaitSwitch, _, _, h => execRecovWaitSwitch_fr (Fr.refl everyMask _) (Sub.every rfl) h
  | .recovGo .., _, _, h => execRecovGo_fr (Fr.refl everyMask _) (Sub.every rfl) h
  | .recovOffer .., _, _, h => execRecovOffer_fr (Fr.refl everyMask _) (Sub.every rfl) h
  | .tftpStall, _, _, h => execTftpStall_fr (Fr.refl everyMask _) (Sub.every rfl) h
  | .recovImageDone .., _, _, h => execRecovImageDone_fr (Fr.refl everyMask _) (Sub.every rfl) h
  | .feedLineLow .., _, _, h => execFeedLineLow_fr (Fr.refl everyMask _) (Sub.every rfl) h
  | .feedLineRestore .., _, _, h => execFeedLineRestore_fr (Fr.refl everyMask _) (Sub.every rfl) h
  | .feedLost .., _, _, h => execFeedLost_fr (Fr.refl everyMask _) (Sub.every rfl) h
  | .feedRestored .., _, _, h => execFeedRestored_fr (Fr.refl everyMask _) (Sub.every rfl) h
  | .aonLoss, _, _, h => execAonLoss_fr (Fr.refl everyMask _) (Sub.every rfl) h
  | .railFault .., _, _, h => execRailFault_fr (Fr.refl everyMask _) (Sub.every rfl) h
  | .railGood .., _, _, h => execRailGood_fr (Fr.refl everyMask _) (Sub.every rfl) h
  | .sensorSample .., _, _, h => execSensorSample_fr (Fr.refl everyMask _) (Sub.every rfl) h
  | .oeTripRelease .., _, _, h => execOeTripRelease_fr (Fr.refl everyMask _) (Sub.every rfl) h
  | .bandFall, _, _, h => execBandFall_fr (Fr.refl everyMask _) (Sub.every rfl) h
  | .paceWindow .., _, _, h => execPaceWindow_fr (Fr.refl everyMask _) (Sub.every rfl) h
  | .floorRaise, _, _, h => execFloorRaise_fr (Fr.refl everyMask _) (Sub.every rfl) h
  | .arbGrant .., _, _, h => execArbGrant_fr (Fr.refl everyMask _) (Sub.every rfl) h
  | .paceClrMin .., _, _, h => execPaceClrMin_fr (Fr.refl everyMask _) (Sub.every rfl) h
  | .arbClr .., _, _, h => execArbClr_fr (Fr.refl everyMask _) (Sub.every rfl) h
  | .regWrite .., _, _, h => execRegWrite_fr (Fr.refl everyMask _) (Sub.every rfl) h
  | .regAccessBad .., _, _, h => execRegAccessBad_fr (Fr.refl everyMask _) (Sub.every rfl) h
  | .accessErrWrite .., _, _, h => execAccessErrWrite_fr (Fr.refl everyMask _) (Sub.every rfl) h
  | .commitGo .., _, _, h => execCommitGo_fr (Fr.refl everyMask _) (Sub.every rfl) h
  | .commitCheckEnd _ b _, _, _, h => execCommitCheckEnd_fr (Fr.refl everyMask _) (by cases b <;> rfl) (Sub.every rfl) h
  | .commitBoundary _ b _, _, _, h => execCommitBoundary_fr (Fr.refl everyMask _) (by cases b <;> rfl) (Sub.every rfl) h
  | .commitAbandon .., _, _, h => execCommitAbandon_fr (Fr.refl everyMask _) (Sub.every rfl) h
  | .doorbell .., _, _, h => execDoorbell_fr (Fr.refl everyMask _) (Sub.every rfl) h
  | .intakePop .., _, _, h => execIntakePop_fr (Fr.refl everyMask _) (Sub.every rfl) h
  | .completionWrite .., _, _, h => execCompletionWrite_fr (Fr.refl everyMask _) (Sub.every rfl) h
  | .functionD3hot .., _, _, h => execFunctionD3hot_fr (Fr.refl everyMask _) (Sub.every rfl) h
  | .functionD0 .., _, _, h => execFunctionD0_fr (Fr.refl everyMask _) (Sub.every rfl) h
  | .vfFlr .., _, _, h => execVfFlr_fr (Fr.refl everyMask _) (Sub.every rfl) h
  | .nqPop .., _, _, h => execNqPop_fr (Fr.refl everyMask _) (Sub.every rfl) h
  | .nqClrCounts .., _, _, h => execNqClrCounts_fr (Fr.refl everyMask _) (Sub.every rfl) h
  | .evrMirror, _, _, h => execEvrMirror_fr (Fr.refl everyMask _) (Sub.every rfl) h
  | .rigSubmit .., _, _, h => execRigSubmit_fr (Fr.refl everyMask _) (Sub.every rfl) h
  | .rigStage .., _, _, h => execRigStage_fr (Fr.refl everyMask _) (Sub.every rfl) h
  | .catchFire .., _, _, h => execCatchFire_fr (Fr.refl everyMask _) (Sub.every rfl) h
  | .coxSelfCheck, _, _, h => execCoxSelfCheck_fr (Fr.refl everyMask _) (Sub.every rfl) h
  | .coxHang .., _, _, h => execCoxHang_fr (Fr.refl everyMask _) (Sub.every rfl) h
  | .coxReloadDone .., _, _, h => execCoxReloadDone_fr (Fr.refl everyMask _) (Sub.every rfl) h
  | .coxReloadTimeout .., _, _, h => execCoxReloadTimeout_fr (Fr.refl everyMask _) (Sub.every rfl) h
  | .coxReload .., _, _, h => execCoxReload_fr (Fr.refl everyMask _) (Sub.every rfl) h
  | .updateStage .., _, _, h => execUpdateStage_fr (Fr.refl everyMask _) (Sub.every rfl) h
  | .updateStagingDone .., _, _, h => execUpdateStagingDone_fr (Fr.refl everyMask _) (Sub.every rfl) h
  | .mgmtHandoverDone .., _, _, h => execMgmtHandoverDone_fr (Fr.refl everyMask _) (Sub.every rfl) h
  | .flashBlockDone .., _, _, h => execFlashBlockDone_fr (Fr.refl everyMask _) (Sub.every rfl) h
  | .updateAbort .., _, _, h => execUpdateAbort_fr (Fr.refl everyMask _) (Sub.every rfl) h
  | .flashKeep .., _, _, h => execFlashKeep_fr (Fr.refl everyMask _) (Sub.every rfl) h
  | .flashResync .., _, _, h => execFlashResync_fr (Fr.refl everyMask _) (Sub.every rfl) h
  | .svnCommit .., _, _, h => execSvnCommit_fr (Fr.refl everyMask _) (Sub.every rfl) h
  | .ddrDomain .., _, _, h => execDdrDomain_fr (Fr.refl everyMask _) (Sub.every rfl) h
  | .ddrTrainDone .., _, _, h => execDdrTrainDone_fr (Fr.refl everyMask _) (Sub.every rfl) h
  | .ddrExtent .., _, _, h => execDdrExtent_fr (Fr.refl everyMask _) (Sub.every rfl) h
  | .memRetire .., _, _, h => execMemRetire_fr (Fr.refl everyMask _) (Sub.every rfl) h
  | .retireBlockCopy .., _, _, h => execRetireBlockCopy_fr (Fr.refl everyMask _) (Sub.every rfl) h
  | .attestReport .., _, _, h => execAttestReport_fr (Fr.refl everyMask _) (Sub.every rfl) h
  | .evrClear .., _, _, h => execEvrClear_fr (Fr.refl everyMask _) (Sub.every rfl) h
  | .mmuInvalidate .., _, _, h => execMmuInvalidate_fr (Fr.refl everyMask _) (Sub.every rfl) h
  | .codeTable .., _, _, h => execCodeTable_fr (Fr.refl everyMask _) (Sub.every rfl) h
  | .timeConfirm .., _, _, h => execTimeConfirm_fr (Fr.refl everyMask _) (Sub.every rfl) h
  | .unitPower .., _, _, h => execUnitPower_fr (Fr.refl everyMask _) (Sub.every rfl) h
  | .fltProbation .., _, _, h => execFltProbation_fr (Fr.refl everyMask _) (Sub.every rfl) h
  | .testAccess .., _, _, h => execTestAccess_fr (Fr.refl everyMask _) (Sub.every rfl) h
  | .xferCopy .., _, _, h => execXferCopy_fr (Fr.refl everyMask _) (Sub.every rfl) h
  | .xferExpand .., _, _, h => execXferExpand_fr (Fr.refl everyMask _) (Sub.every rfl) h
  | .lineSend .., _, _, h => execLineSend_fr (Fr.refl everyMask _) (Sub.every rfl) h
  | .linePost .., _, _, h => execLinePost_fr (Fr.refl everyMask _) (Sub.every rfl) h
  | .xferCheck .., _, _, h => execXferCheck_fr (Fr.refl everyMask _) (Sub.every rfl) h
  | .segmentCommit .., _, _, h => execSegmentCommit_fr (Fr.refl everyMask _) (Sub.every rfl) h
  | .devFaultTimeout .., _, _, h => execDevFaultTimeout_fr (Fr.refl everyMask _) (Sub.every rfl) h
  | .priResponse .., _, _, h => execPriResponse_fr (Fr.refl everyMask _) (Sub.every rfl) h
  | .priTimeout .., _, _, h => execPriTimeout_fr (Fr.refl everyMask _) (Sub.every rfl) h
  | .atsInvalidate .., _, _, h => execAtsInvalidate_fr (Fr.refl everyMask _) (Sub.every rfl) h
  | .scrubRead .., _, _, h => execScrubRead_fr (Fr.refl everyMask _) (Sub.every rfl) h
  | .markerReceive .., _, _, h => execMarkerReceive_fr (Fr.refl everyMask _) (Sub.every rfl) h
  | .pgIdClear .., _, _, h => execPgIdClear_fr (Fr.refl everyMask _) (Sub.every rfl) h
  | .aliasRestore .., _, _, h => execAliasRestore_fr (Fr.refl everyMask _) (Sub.every rfl) h
  | .lccRemapReq .., _, _, h => execLccRemapReq_fr (Fr.refl everyMask _) (Sub.every rfl) h
  | .lccRemapAck .., _, _, h => execLccRemapAck_fr (Fr.refl everyMask _) (Sub.every rfl) h
  | .lccTxAlias .., _, _, h => execLccTxAlias_fr (Fr.refl everyMask _) (Sub.every rfl) h
  | .lccCalDone .., _, _, h => execLccCalDone_fr (Fr.refl everyMask _) (Sub.every rfl) h
  | .lccResend .., _, _, h => execLccResend_fr (Fr.refl everyMask _) (Sub.every rfl) h
  | .remapSwitch .., _, _, h => execRemapSwitch_fr (Fr.refl everyMask _) (Sub.every rfl) h
  | .laneFrameReceive .., _, _, h => execLaneFrameReceive_fr (Fr.refl everyMask _) (Sub.every rfl) h
  | .heaterUpdate .., _, _, h => execHeaterUpdate_fr (Fr.refl everyMask _) (Sub.every rfl) h
  | .ringSweepDone .., _, _, h => execRingSweepDone_fr (Fr.refl everyMask _) (Sub.every rfl) h
  | .featherStep .., _, _, h => execFeatherStep_fr (Fr.refl everyMask _) (Sub.every rfl) h
  | .featherCalDone .., _, _, h => execFeatherCalDone_fr (Fr.refl everyMask _) (Sub.every rfl) h
  | .watchSample .., _, _, h => execWatchSample_fr (Fr.refl everyMask _) (Sub.every rfl) h
  | .optLaneClr .., _, _, h => execOptLaneClr_fr (Fr.refl everyMask _) (Sub.every rfl) h
  | .elnLaneClr .., _, _, h => execElnLaneClr_fr (Fr.refl everyMask _) (Sub.every rfl) h
  | .elnTrainTimeout .., _, _, h => execElnTrainTimeout_fr (Fr.refl everyMask _) (Sub.every rfl) h
  | .elnEnergyDetect .., _, _, h => execElnEnergyDetect_fr (Fr.refl everyMask _) (Sub.every rfl) h
  | .linkUp .., _, _, h => execLinkUp_fr (Fr.refl everyMask _) (Sub.every rfl) h
  | .linkDown .., _, _, h => execLinkDown_fr (Fr.refl everyMask _) (Sub.every rfl) h
  | .settAlloc .., _, _, h => execSettAlloc_fr (Fr.refl everyMask _) (Sub.every rfl) h
  | .settFree .., _, _, h => execSettFree_fr (Fr.refl everyMask _) (Sub.every rfl) h
  | .settStatClr .., _, _, h => execSettStatClr_fr (Fr.refl everyMask _) (Sub.every rfl) h
  | .packetIngress .., _, _, h => execPacketIngress_fr (Fr.refl everyMask _) (Sub.every rfl) h
  | .packetDepart .., _, _, h => execPacketDepart_fr (Fr.refl everyMask _) (Sub.every rfl) h
  | .delayEstimateUpdate, _, _, h => execDelayEstimateUpdate_fr (Fr.refl everyMask _) (Sub.every rfl) h
  | .mcAge .., _, _, h => execMcAge_fr (Fr.refl everyMask _) (Sub.every rfl) h
  | .bypassBegin .., _, _, h => execBypassBegin_fr (Fr.refl everyMask _) (Sub.every rfl) h
  | .bypassEnd .., _, _, h => execBypassEnd_fr (Fr.refl everyMask _) (Sub.every rfl) h
  | .bypassReturnTimeout .., _, _, h => execBypassReturnTimeout_fr (Fr.refl everyMask _) (Sub.every rfl) h
  | .swcStatClr .., _, _, h => execSwcStatClr_fr (Fr.refl everyMask _) (Sub.every rfl) h
  | .refillTick, _, _, h => execRefillTick_fr (Fr.refl everyMask _) (Sub.every rfl) h
  | .histDepthSample, _, _, h => execHistDepthSample_fr (Fr.refl everyMask _) (Sub.every rfl) h
  | .reservedWindowOpen .., _, _, h => execReservedWindowOpen_fr (Fr.refl everyMask _) (Sub.every rfl) h
  | .reservedWindowClose .., _, _, h => execReservedWindowClose_fr (Fr.refl everyMask _) (Sub.every rfl) h
  | .tmsHistClr .., _, _, h => execTmsHistClr_fr (Fr.refl everyMask _) (Sub.every rfl) h
  | .transportDataReceive .., _, _, h => execTransportDataReceive_fr (Fr.refl everyMask _) (Sub.every rfl) h
  | .transportAckReceive .., _, _, h => execTransportAckReceive_fr (Fr.refl everyMask _) (Sub.every rfl) h
  | .ackDelayExpire .., _, _, h => execAckDelayExpire_fr (Fr.refl everyMask _) (Sub.every rfl) h
  | .transportSend .., _, _, h => execTransportSend_fr (Fr.refl everyMask _) (Sub.every rfl) h
  | .rtoExpire .., _, _, h => execRtoExpire_fr (Fr.refl everyMask _) (Sub.every rfl) h
  | .contextFetchDone .., _, _, h => execContextFetchDone_fr (Fr.refl everyMask _) (Sub.every rfl) h
  | .tptStatClr .., _, _, h => execTptStatClr_fr (Fr.refl everyMask _) (Sub.every rfl) h
  | .llrInitSend .., _, _, h => execLlrInitSend_fr (Fr.refl everyMask _) (Sub.every rfl) h
  | .llrInit .., _, _, h => execLlrInit_fr (Fr.refl everyMask _) (Sub.every rfl) h
  | .llrFrameReceive .., _, _, h => execLlrFrameReceive_fr (Fr.refl everyMask _) (Sub.every rfl) h
  | .llrAck .., _, _, h => execLlrAck_fr (Fr.refl everyMask _) (Sub.every rfl) h
  | .llrNak .., _, _, h => execLlrNak_fr (Fr.refl everyMask _) (Sub.every rfl) h
  | .llrAckTimer .., _, _, h => execLlrAckTimer_fr (Fr.refl everyMask _) (Sub.every rfl) h
  | .llrTimeout .., _, _, h => execLlrTimeout_fr (Fr.refl everyMask _) (Sub.every rfl) h
  | .spillDone .., _, _, h => execSpillDone_fr (Fr.refl everyMask _) (Sub.every rfl) h
  | .restoreDone .., _, _, h => execRestoreDone_fr (Fr.refl everyMask _) (Sub.every rfl) h
  | .collAllreduce .., _, _, h => execCollAllreduce_fr (Fr.refl everyMask _) (Sub.every rfl) h
  | .collReduceScatter .., _, _, h => execCollReduceScatter_fr (Fr.refl everyMask _) (Sub.every rfl) h
  | .collReduce .., _, _, h => execCollReduce_fr (Fr.refl everyMask _) (Sub.every rfl) h
  | .collBroadcast .., _, _, h => execCollBroadcast_fr (Fr.refl everyMask _) (Sub.every rfl) h
  | .collShift .., _, _, h => execCollShift_fr (Fr.refl everyMask _) (Sub.every rfl) h
  | .collPermute .., _, _, h => execCollPermute_fr (Fr.refl everyMask _) (Sub.every rfl) h
  | .collCancel .., _, _, h => execCollCancel_fr (Fr.refl everyMask _) (Sub.every rfl) h
  | .collNotYet .., _, _, h => execCollNotYet_fr (Fr.refl everyMask _) (Sub.every rfl) h
  | .notYetBackoff .., _, _, h => execNotYetBackoff_fr (Fr.refl everyMask _) (Sub.every rfl) h
  | .collResult .., _, _, h => execCollResult_fr (Fr.refl everyMask _) (Sub.every rfl) h
  | .collChunkDone .., _, _, h => execCollChunkDone_fr (Fr.refl everyMask _) (Sub.every rfl) h
  | .collQuery .., _, _, h => execCollQuery_fr (Fr.refl everyMask _) (Sub.every rfl) h
  | .collGone .., _, _, h => execCollGone_fr (Fr.refl everyMask _) (Sub.every rfl) h
  | .queryTimer .., _, _, h => execQueryTimer_fr (Fr.refl everyMask _) (Sub.every rfl) h
  | .colStatClr .., _, _, h => execColStatClr_fr (Fr.refl everyMask _) (Sub.every rfl) h
  | .colLateClr .., _, _, h => execColLateClr_fr (Fr.refl everyMask _) (Sub.every rfl) h
  | .benNumClr .., _, _, h => execBenNumClr_fr (Fr.refl everyMask _) (Sub.every rfl) h
  | .planStart .., _, _, h => execPlanStart_fr (Fr.refl everyMask _) (Sub.every rfl) h
  | .strokeStart .., _, _, h => execStrokeStart_fr (Fr.refl everyMask _) (Sub.every rfl) h
  | .planEntryFire .., _, _, h => execPlanEntryFire_fr (Fr.refl everyMask _) (Sub.every rfl) h
  | .heatStart .., _, _, h => execHeatStart_fr (Fr.refl everyMask _) (Sub.every rfl) h
  | .plnSlotClr .., _, _, h => execPlnSlotClr_fr (Fr.refl everyMask _) (Sub.every rfl) h
  | .tensorGroupCommit .., _, _, h => execTensorGroupCommit_fr (Fr.refl everyMask _) (Sub.every rfl) h
  | .contextSaveDone .., _, _, h => execContextSaveDone_fr (Fr.refl everyMask _) (Sub.every rfl) h
  | .contextRestoreDone .., _, _, h => execContextRestoreDone_fr (Fr.refl everyMask _) (Sub.every rfl) h
  | .quantumExpire .., _, _, h => execQuantumExpire_fr (Fr.refl everyMask _) (Sub.every rfl) h
  | .groupOverrun .., _, _, h => execGroupOverrun_fr (Fr.refl everyMask _) (Sub.every rfl) h
  | .tfbStatClr .., _, _, h => execTfbStatClr_fr (Fr.refl everyMask _) (Sub.every rfl) h
  | .expandBlock .., _, _, h => execExpandBlock_fr (Fr.refl everyMask _) (Sub.every rfl) h
  | .ashStatClr .., _, _, h => execAshStatClr_fr (Fr.refl everyMask _) (Sub.every rfl) h
  | .outerOpen .., _, _, h => execOuterOpen_fr (Fr.refl everyMask _) (Sub.every rfl) h
  | .outerExclude .., _, _, h => execOuterExclude_fr (Fr.refl everyMask _) (Sub.every rfl) h
  | .outerFetch .., _, _, h => execOuterFetch_fr (Fr.refl everyMask _) (Sub.every rfl) h
  | .outerAbandon .., _, _, h => execOuterAbandon_fr (Fr.refl everyMask _) (Sub.every rfl) h
  | .roundStart .., _, _, h => execRoundStart_fr (Fr.refl everyMask _) (Sub.every rfl) h
  | .hdrTimer .., _, _, h => execHdrTimer_fr (Fr.refl everyMask _) (Sub.every rfl) h
  | .outerHdr .., _, _, h => execOuterHdr_fr (Fr.refl everyMask _) (Sub.every rfl) h
  | .siteUnreachable .., _, _, h => execSiteUnreachable_fr (Fr.refl everyMask _) (Sub.every rfl) h
  | .lossTimer .., _, _, h => execLossTimer_fr (Fr.refl everyMask _) (Sub.every rfl) h
  | .rosterWaitExpire .., _, _, h => execRosterWaitExpire_fr (Fr.refl everyMask _) (Sub.every rfl) h
  | .outerPropose .., _, _, h => execOuterPropose_fr (Fr.refl everyMask _) (Sub.every rfl) h
  | .outerVote .., _, _, h => execOuterVote_fr (Fr.refl everyMask _) (Sub.every rfl) h
  | .outerDigest .., _, _, h => execOuterDigest_fr (Fr.refl everyMask _) (Sub.every rfl) h
  | .outerFinal .., _, _, h => execOuterFinal_fr (Fr.refl everyMask _) (Sub.every rfl) h
  | .mismatchTimeout .., _, _, h => execMismatchTimeout_fr (Fr.refl everyMask _) (Sub.every rfl) h
  | .outerFetchMsg .., _, _, h => execOuterFetchMsg_fr (Fr.refl everyMask _) (Sub.every rfl) h
  | .fetchTimeout .., _, _, h => execFetchTimeout_fr (Fr.refl everyMask _) (Sub.every rfl) h
  | .outerPieceReceive .., _, _, h => execOuterPieceReceive_fr (Fr.refl everyMask _) (Sub.every rfl) h
  | .outerPieceStepDone .., _, _, h => execOuterPieceStepDone_fr (Fr.refl everyMask _) (Sub.every rfl) h
  | .outStatClr .., _, _, h => execOutStatClr_fr (Fr.refl everyMask _) (Sub.every rfl) h
  | .slfTransmit .., _, _, h => execSlfTransmit_fr (Fr.refl everyMask _) (Sub.every rfl) h
  | .slfReceive .., _, _, h => execSlfReceive_fr (Fr.refl everyMask _) (Sub.every rfl) h
  | .mfSkewExpire .., _, _, h => execMfSkewExpire_fr (Fr.refl everyMask _) (Sub.every rfl) h
  | .nackResendTimer .., _, _, h => execNackResendTimer_fr (Fr.refl everyMask _) (Sub.every rfl) h
  | .lineDeliver .., _, _, h => execLineDeliver_fr (Fr.refl everyMask _) (Sub.every rfl) h
  | .laneFault .., _, _, h => execLaneFault_fr (Fr.refl everyMask _) (Sub.every rfl) h
  | .laneReturnTimer .., _, _, h => execLaneReturnTimer_fr (Fr.refl everyMask _) (Sub.every rfl) h
  | .legLofTimer .., _, _, h => execLegLofTimer_fr (Fr.refl everyMask _) (Sub.every rfl) h
  | .pmSecond .., _, _, h => execPmSecond_fr (Fr.refl everyMask _) (Sub.every rfl) h
  | .suspendHoldExpire .., _, _, h => execSuspendHoldExpire_fr (Fr.refl everyMask _) (Sub.every rfl) h
  | .wtrExpire .., _, _, h => execWtrExpire_fr (Fr.refl everyMask _) (Sub.every rfl) h
  | .keyGraceExpire .., _, _, h => execKeyGraceExpire_fr (Fr.refl everyMask _) (Sub.every rfl) h
  | .dccFrameOut .., _, _, h => execDccFrameOut_fr (Fr.refl everyMask _) (Sub.every rfl) h
  | .slfRdClr .., _, _, h => execSlfRdClr_fr (Fr.refl everyMask _) (Sub.every rfl) h
  | .kexOffer .., _, _, h => execKexOffer_fr (Fr.refl everyMask _) (Sub.every rfl) h
  | .kexAccept .., _, _, h => execKexAccept_fr (Fr.refl everyMask _) (Sub.every rfl) h
  | .kexConfirm .., _, _, h => execKexConfirm_fr (Fr.refl everyMask _) (Sub.every rfl) h
  | .kexReject .., _, _, h => execKexReject_fr (Fr.refl everyMask _) (Sub.every rfl) h
  | .kexResend .., _, _, h => execKexResend_fr (Fr.refl everyMask _) (Sub.every rfl) h
  | .kexRetry .., _, _, h => execKexRetry_fr (Fr.refl everyMask _) (Sub.every rfl) h
  | .rekeyTimer .., _, _, h => execRekeyTimer_fr (Fr.refl everyMask _) (Sub.every rfl) h
  | .fabGraceExpire .., _, _, h => execFabGraceExpire_fr (Fr.refl everyMask _) (Sub.every rfl) h
  | .lscStatClr .., _, _, h => execLscStatClr_fr (Fr.refl everyMask _) (Sub.every rfl) h
  | .timeCapture .., _, _, h => execTimeCapture_fr (Fr.refl everyMask _) (Sub.every rfl) h
  | .timeStepRequest .., _, _, h => execTimeStepRequest_fr (Fr.refl everyMask _) (Sub.every rfl) h
  | .ppsInEdge, _, _, h => execPpsInEdge_fr (Fr.refl everyMask _) (Sub.every rfl) h
  | .ppsOutPulse, _, _, h => execPpsOutPulse_fr (Fr.refl everyMask _) (Sub.every rfl) h
  | .ppsOutFall, _, _, h => execPpsOutFall_fr (Fr.refl everyMask _) (Sub.every rfl) h
  | .ptpMessage .., _, _, h => execPtpMessage_fr (Fr.refl everyMask _) (Sub.every rfl) h
  | .ptpMasterLost, _, _, h => execPtpMasterLost_fr (Fr.refl everyMask _) (Sub.every rfl) h
  | .powerEstimate .., _, _, h => execPowerEstimate_fr (Fr.refl everyMask _) (Sub.every rfl) h
  | .voltageStep, _, _, h => execVoltageStep_fr (Fr.refl everyMask _) (Sub.every rfl) h
  | .powerCalibrate .., _, _, h => execPowerCalibrate_fr (Fr.refl everyMask _) (Sub.every rfl) h
  | .thermalLoop, _, _, h => execThermalLoop_fr (Fr.refl everyMask _) (Sub.every rfl) h
  | .unitIdleNap .., _, _, h => execUnitIdleNap_fr (Fr.refl everyMask _) (Sub.every rfl) h
  | .unitIdleOff .., _, _, h => execUnitIdleOff_fr (Fr.refl everyMask _) (Sub.every rfl) h
  | .unitStateEntered .., _, _, h => execUnitStateEntered_fr (Fr.refl everyMask _) (Sub.every rfl) h
  | .unitWake .., _, _, h => execUnitWake_fr (Fr.refl everyMask _) (Sub.every rfl) h
  | .hbmWatchSample .., _, _, h => execHbmWatchSample_fr (Fr.refl everyMask _) (Sub.every rfl) h
  | .alarmFire .., _, _, h => execAlarmFire_fr (Fr.refl everyMask _) (Sub.every rfl) h
  | .alarmHoldExpire .., _, _, h => execAlarmHoldExpire_fr (Fr.refl everyMask _) (Sub.every rfl) h
  | .pwrUnitClr .., _, _, h => execPwrUnitClr_fr (Fr.refl everyMask _) (Sub.every rfl) h
  | .mgcHang .., _, _, h => execMgcHang_fr (Fr.refl everyMask _) (Sub.every rfl) h
  | .mgcStartRetry .., _, _, h => execMgcStartRetry_fr (Fr.refl everyMask _) (Sub.every rfl) h
  | .i3cAddressAssign .., _, _, h => execI3cAddressAssign_fr (Fr.refl everyMask _) (Sub.every rfl) h
  | .i3cTransfer .., _, _, h => execI3cTransfer_fr (Fr.refl everyMask _) (Sub.every rfl) h
  | .i3cAlertAck, _, _, h => execI3cAlertAck_fr (Fr.refl everyMask _) (Sub.every rfl) h
  | .mgeFrameReceive .., _, _, h => execMgeFrameReceive_fr (Fr.refl everyMask _) (Sub.every rfl) h
  | .evrSummary .., _, _, h => execEvrSummary_fr (Fr.refl everyMask _) (Sub.every rfl) h
  | .evrPersist, _, _, h => execEvrPersist_fr (Fr.refl everyMask _) (Sub.every rfl) h
  | .jtagInstruction .., _, _, h => execJtagInstruction_fr (Fr.refl everyMask _) (Sub.every rfl) h
  | .viewRefresh, _, _, h => execViewRefresh_fr (Fr.refl everyMask _) (Sub.every rfl) h
  | .heartbeatSend .., _, _, h => execHeartbeatSend_fr (Fr.refl everyMask _) (Sub.every rfl) h
  | .juwesyHeartbeat .., _, _, h => execJuwesyHeartbeat_fr (a0 := []) (Fr.refl everyMask _) (Sub.every rfl) h
  | .heartbeatMiss .., _, _, h => execHeartbeatMiss_fr (Fr.refl everyMask _) (Sub.every rfl) h
  | .suspectRetry .., _, _, h => execSuspectRetry_fr (Fr.refl everyMask _) (Sub.every rfl) h
  | .juwesySuspect .., _, _, h => execJuwesySuspect_fr (a0 := []) (Fr.refl everyMask _) (Sub.every rfl) h
  | .juwesyVoteReq .., _, _, h => execJuwesyVoteReq_fr (a0 := []) (Fr.refl everyMask _) (Sub.every rfl) h
  | .voteAnswerTimeout .., _, _, h => execVoteAnswerTimeout_fr (Fr.refl everyMask _) (Sub.every rfl) h
  | .juwesyVote .., _, _, h => execJuwesyVote_fr (a0 := []) (Fr.refl everyMask _) (Sub.every rfl) h
  | .voteWaitExpire .., _, _, h => execVoteWaitExpire_fr (Fr.refl everyMask _) (Sub.every rfl) h
  | .juwesyDecide .., _, _, h => execJuwesyDecide_fr (Fr.refl everyMask _) (Sub.every rfl) h
  | .decideResend .., _, _, h => execDecideResend_fr (Fr.refl everyMask _) (Sub.every rfl) h
  | .juwesyDecideAck .., _, _, h => execJuwesyDecideAck_fr (a0 := []) (Fr.refl everyMask _) (Sub.every rfl) h
  | .recoveryQuietDone .., _, _, h => execRecoveryQuietDone_fr (Fr.refl everyMask _) (Sub.every rfl) h
  | .healthUpdate, _, _, h => execHealthUpdate_fr (Fr.refl everyMask _) (Sub.every rfl) h
  | .holdRelease .., _, _, h => execHoldRelease_fr (Fr.refl everyMask _) (Sub.every rfl) h
  | .probeSend .., _, _, h => execProbeSend_fr (Fr.refl everyMask _) (Sub.every rfl) h
  | .juwesyProbe .., _, _, h => execJuwesyProbe_fr (a0 := []) (Fr.refl everyMask _) (Sub.every rfl) h
  | .juwesyProbeAck .., _, _, h => execJuwesyProbeAck_fr (a0 := []) (Fr.refl everyMask _) (Sub.every rfl) h
  | .probationEnd .., _, _, h => execProbationEnd_fr (Fr.refl everyMask _) (Sub.every rfl) h
  | .juwesyPace .., _, _, h => execJuwesyPace_fr (a0 := []) (Fr.refl everyMask _) (Sub.every rfl) h
  | .fltStatClr .., _, _, h => execFltStatClr_fr (Fr.refl everyMask _) (Sub.every rfl) h
  | .thermalCriticalRelease, _, _, h => execThermalCriticalRelease_fr (Fr.refl everyMask _) (Sub.every rfl) h
  | .heatEnd .., _, _, h => execHeatEnd_fr (Fr.refl everyMask _) (Sub.every rfl) h
  | .paceSecondSend, _, _, h => execPaceSecondSend_fr (Fr.refl everyMask _) (Sub.every rfl) h
  | .probationNoDecision .., _, _, h => execProbationNoDecision_fr (Fr.refl everyMask _) (Sub.every rfl) h
  | .hbmTrainDone .., _, _, h => execHbmTrainDone_fr (Fr.refl everyMask _) (Sub.every rfl) h
  | .ceWindowEnd .., _, _, h => execCeWindowEnd_fr (Fr.refl everyMask _) (Sub.every rfl) h
  | .vfEnable .., _, _, h => execVfEnable_fr (Fr.refl everyMask _) (Sub.every rfl) h
  | .ideKm .., _, _, h => execIdeKm_fr (Fr.refl everyMask _) (Sub.every rfl) h
  | .railGoodAtPowerUp .., _, _, h => execRailGoodAtPowerUp_fr (Fr.refl everyMask _) (Sub.every rfl) h
  | .consoleLineSent, _, _, h => execConsoleLineSent_fr (Fr.refl everyMask _) (Sub.every rfl) h

/-- Settles O4: the front command keeps the invariant by its frame, and so does a tick. -/
theorem stepKeepsInvariant : Obligations.StepKeepsInvariant := by
  unfold Obligations.StepKeepsInvariant step
  intro s t hs h
  split at h
  next c rest _ => exact (exec_fr c h).inv ⟨hs.time, hs.mem⟩
  next =>
    obtain rfl := Host.Outcome.next.inj h
    exact (State.idle_fr (Fr.refl everyMask s) (Sub.every rfl)).inv hs

/-- Settles O1: the first case of the step's match on the queue. -/
theorem stepRunsFront : Obligations.StepRunsFront := by
  unfold Obligations.StepRunsFront
  intro s c rest h
  rw [step, h]

/-! ### Reset -/

/-- Settles O5: the counter stands at zero and no cell of memory is listed. -/
theorem resetMeetsInvariant : Obligations.ResetMeetsInvariant :=
  ⟨⟨by decide, by decide, by decide⟩, rfl⟩

/-- Settles O6: no register is written at reset, so each reads its reset word, and each table is at its empty default. -/
theorem resetValues : Obligations.ResetValues := by
  unfold Obligations.ResetValues
  refine ⟨rfl, rfl, rfl, ?stage, ?failCode, ?track, rfl, rfl, rfl, rfl, rfl, rfl, rfl, fun _ => rfl, fun _ _ => rfl⟩
  all_goals decide

/-! ### A tick -/

/-- The counter set from a number of units reads that number, modulo its range. -/
theorem TimeState.total_ofTotal (t : TimeState) (n : Nat) : (t.ofTotal n).total = n % timeRange := by
  unfold TimeState.total TimeState.ofTotal
  generalize n % timeRange = m
  dsimp only
  rw [Nat.div_add_mod', Nat.div_add_mod']

/-- Settles O2: the tick moves the time unit alone, and what the retry of planned operations touches does not include it. -/
theorem stepOnEmptyQueue : Obligations.StepOnEmptyQueue := by
  unfold Obligations.StepOnEmptyQueue
  intro s hs
  have hfr : Fr 0x2c028670400000 s s.idle := State.idle_fr (Fr.refl _ s) (Sub.refl _)
  have hretry : s.idle.time = s.tick.time :=
    (State.planOpsRetry_fr (X := 0x2c028470400000) (Fr.refl _ s.tick) (Sub.refl _)).time_eq rfl
  refine ⟨s.idle, by rw [step, hs], by rw [hfr.pending, hs], fun hp => ?_, fun hp => ?_, hfr.within (by decide +kernel)⟩
  · rw [hretry, State.tick, hp]
    exact ⟨TimeState.total_ofTotal s.time _, rfl⟩
  · rw [hretry, State.tick, hp]; rfl

/-! ### The frame that COMMIT_CHECK_END breaks -/

/-- Reset with a commit of DBQ group 0 that is being checked: COX_WATCHDOG.TIMEOUT_US is to become 300. -/
def watchdogChecking : State :=
  State.reset.setPort .host .dbq { result := .checking, captured := some (1, [(0x140, 300)]) }

/-- An accepted group without a boundary to wait for goes live as checking ends: COX_WATCHDOG takes the captured value. -/
theorem checkEnd_writes_watchdog :
    (watchdogChecking.pooled fun s => s.checkEnd .host .dbq false).reg ⟨.dbq, 0x140, 0⟩ = 300 := by
  decide +kernel

/-- Refutes O3: `touches` gives COMMIT_CHECK_END the registers of a few blocks, but a group of any block goes live as its
checking ends. The commit of DBQ group 0 writes COX_WATCHDOG, a register of DBQ, which the list leaves out. -/
theorem not_everyCommandKeepsItsFrame : ¬ Obligations.EveryCommandKeepsItsFrame := by
  unfold Obligations.EveryCommandKeepsItsFrame
  intro h
  obtain ⟨t, ht, -, hsame⟩ := h (.commitCheckEnd .host .dbq false) watchdogChecking
  have hreg : t.reg ⟨.dbq, 0x140, 0⟩ = watchdogChecking.reg ⟨.dbq, 0x140, 0⟩ :=
    hsame (.regs .dbq) (by decide) 0x140 0 rfl
  rw [← Host.Outcome.next.inj ht, checkEnd_writes_watchdog] at hreg
  exact absurd hreg (by decide +kernel)


end Sys2Proof.Machine


/-!
PROOFS. A run of bytes written to device memory, by induction over the bytes from the laws of one byte (R436, R437).
-/

namespace Sys2Proof.Machine

/-- A byte that is not written, read under the key of the write, or of a data unit that the run does not meet, under any
key. -/
theorem State.memByte_memWrite_of_outside (k k' : MemKey) (x : Nat) (b : Bytes) :
    ∀ (a : Nat) (s : State), s.MemOk → (x < a ∨ a + b.length ≤ x) →
      (k' = k ∨ x / 64 < a / 64 ∨ (a + b.length - 1) / 64 < x / 64) →
      (State.memWrite k a b s).memByte k' x = s.memByte k' x := by
  induction b with
  | nil => intro a s _ _ _; rfl
  | cons y b ih =>
    intro a s hs hout hkey
    rw [List.length_cons] at hout hkey
    rw [State.memWrite, ih _ _ (State.memWrite1_ok s k a y hs) (by omega)
        (hkey.imp_right fun h => by omega),
      State.memByte_memWrite1_ne s k k' a x y hs (by omega) (hkey.imp_right fun h => by omega)]

/-- Each byte of the run, read under its key. -/
theorem State.memByte_memWrite_of_inside (k : MemKey) (b : Bytes) :
    ∀ (a : Nat) (s : State), s.MemOk → ∀ i (h : i < b.length), (State.memWrite k a b s).memByte k (a + i) = b[i] := by
  induction b with
  | nil => intro a s _ i h; exact absurd h (Nat.not_lt_zero i)
  | cons y b ih =>
    intro a s hs i h
    have hs' := State.memWrite1_ok s k a y hs
    rw [State.memWrite]
    cases i with
    | zero =>
      rw [State.memByte_memWrite_of_outside k k _ b _ _ hs' (by omega) (.inl rfl)]
      exact State.memByte_memWrite1_self s k a y
    | succ i =>
      have := ih (a + 1) _ hs' i (by simpa using h)
      rwa [Nat.add_assoc, Nat.add_comm 1 i] at this

/-- Settles O59: the bytes inside the run, those outside it, those outside its data units, and the parts touched. -/
theorem memoryWrites : Obligations.MemoryWrites := by
  unfold Obligations.MemoryWrites
  intro s k a b hs
  have hfr : Fr 0x10000100000000 s (State.memWrite k a b s) := State.memWrite_fr (Fr.refl _ s) (Sub.refl _)
  refine ⟨State.memByte_memWrite_of_inside k b a s hs,
    fun x hx => State.memByte_memWrite_of_outside k k x b a s hs hx (.inl rfl), fun k' x hx => ?_,
    hfr.within (by decide +kernel)⟩
  by_cases hb : b = []
  · rw [hb]; rfl
  · have := List.length_pos_of_ne_nil hb
    exact State.memByte_memWrite_of_outside k k' x b a s hs (by omega) (.inr hx)

end Sys2Proof.Machine


/-!
PROOFS. The two symbol codes (R144 to R147). Both are linear over GF(16): the syndrome of a word is a sum over its symbols, so
a code word with damaged symbols has the syndrome of the damage alone, and what remains is a finite fact about the columns.
-/

namespace Sys2Proof.Machine

/-! ### GF(16) -/

/-- A product of two symbols is a symbol. -/
theorem gf16Mul_lt : ∀ x < 16, ∀ c < 16, gf16Mul x c < 16 := by decide +kernel

/-- Multiplication distributes over addition, which is the exclusive or. -/
theorem gf16Mul_xor : ∀ x < 16, ∀ y < 16, ∀ c < 16, gf16Mul (x ^^^ y) c = gf16Mul x c ^^^ gf16Mul y c := by decide +kernel

theorem gf16Mul_xor_right : ∀ c < 16, ∀ x < 16, ∀ y < 16, gf16Mul c (x ^^^ y) = gf16Mul c x ^^^ gf16Mul c y := by
  decide +kernel

/-- There are no divisors of zero. -/
theorem gf16Mul_eq_zero : ∀ e < 16, ∀ x < 16, e ≠ 0 → (gf16Mul e x = 0 ↔ x = 0) := by decide +kernel

/-- Division by a non-zero symbol, both ways. -/
theorem gf16Mul_div : ∀ e < 16, ∀ x < 16, e ≠ 0 → gf16Mul e (gf16Mul x (gf16Inv e)) = x := by decide +kernel

theorem gf16Mul_inv_cancel : ∀ e < 16, ∀ x < 16, e ≠ 0 → gf16Mul (gf16Mul e x) (gf16Inv e) = x := by decide +kernel

theorem gf16Mul_assoc : ∀ x < 16, ∀ y < 16, ∀ c < 16, gf16Mul (gf16Mul x y) c = gf16Mul x (gf16Mul y c) := by
  decide +kernel

theorem gf16Inv_spec : ∀ e < 16, gf16Inv e < 16 ∧ (e ≠ 0 → gf16Mul (gf16Inv e) e = 1 ∧ gf16Inv e ≠ 0) := by decide +kernel

theorem xor_lt_16 {x y : Nat} (hx : x < 16) (hy : y < 16) : x ^^^ y < 16 := Nat.xor_lt_two_pow (n := 4) hx hy

/-! ### Sums over the symbols of a word -/

/-- The sum of the symbols, each times the coefficient of its position; positions count from `n`. -/
def symbolSum (col : Nat → Nat) (r : List Nat) (n : Nat := 0) : Nat :=
  ((r.zipIdx n).map fun (x, j) => gf16Mul x (col j)).foldl (· ^^^ ·) 0

theorem foldl_xor (l : List Nat) (a : Nat) : l.foldl (· ^^^ ·) a = a ^^^ l.foldl (· ^^^ ·) 0 := by
  induction l generalizing a with
  | nil => simp
  | cons x l ih => rw [List.foldl_cons, List.foldl_cons, ih, ih (0 ^^^ x), Nat.zero_xor, Nat.xor_assoc]

@[simp] theorem symbolSum_nil (col : Nat → Nat) (n : Nat) : symbolSum col [] n = 0 := rfl

@[simp] theorem symbolSum_cons (col : Nat → Nat) (x : Nat) (r : List Nat) (n : Nat) :
    symbolSum col (x :: r) n = gf16Mul x (col n) ^^^ symbolSum col r (n + 1) := by
  rw [symbolSum, List.zipIdx_cons, List.map_cons, List.foldl_cons, foldl_xor, Nat.zero_xor, symbolSum]

theorem symbolSum_append (col : Nat → Nat) (r t : List Nat) (n : Nat) :
    symbolSum col (r ++ t) n = symbolSum col r n ^^^ symbolSum col t (n + r.length) := by
  induction r generalizing n with
  | nil => simp
  | cons x r ih => rw [List.cons_append, symbolSum_cons, symbolSum_cons, ih, Nat.xor_assoc, List.length_cons]; grind

/-- A word of symbols, each below 16. -/
abbrev IsWord (r : List Nat) : Prop := ∀ x ∈ r, x < 16

theorem symbolSum_lt {col : Nat → Nat} (hc : ∀ j, col j < 16) {r : List Nat} (hr : IsWord r) (n : Nat) :
    symbolSum col r n < 16 := by
  induction r generalizing n with
  | nil => exact Nat.zero_lt_succ 15
  | cons x r ih =>
    rw [symbolSum_cons]
    exact xor_lt_16 (gf16Mul_lt _ (hr x (by simp)) _ (hc n)) (ih (fun y hy => hr y (by simp [hy])) _)

/-- Damage to one symbol adds the damage times that symbol's coefficient. -/
theorem symbolSum_modify {col : Nat → Nat} (hc : ∀ j, col j < 16) {r : List Nat} (hr : IsWord r) {e : Nat} (he : e < 16)
    {j : Nat} (hj : j < r.length) (n : Nat) :
    symbolSum col (r.modify j (· ^^^ e)) n = symbolSum col r n ^^^ gf16Mul e (col (n + j)) := by
  induction r generalizing n j with
  | nil => exact absurd hj (Nat.not_lt_zero j)
  | cons x r ih =>
    have hx : x < 16 := hr x (by simp)
    cases j with
    | zero =>
      rw [List.modify_zero_cons, symbolSum_cons, symbolSum_cons, gf16Mul_xor x hx e he _ (hc n), Nat.add_zero]
      grind
    | succ j =>
      rw [List.modify_succ_cons, symbolSum_cons, symbolSum_cons,
        ih (fun y hy => hr y (by simp [hy])) (by simpa using hj), Nat.xor_assoc]
      grind

theorem IsWord.modify {r : List Nat} (hr : IsWord r) {e : Nat} (he : e < 16) (j : Nat) : IsWord (r.modify j (· ^^^ e)) := by
  intro x hx
  obtain ⟨i, hi, rfl⟩ := List.getElem_of_mem hx
  rw [List.getElem_modify]
  have := hr _ (List.getElem_mem (by simpa using hi))
  split
  · exact xor_lt_16 this he
  · exact this

/-! ### The HBM4 code (R144) -/

/-- The coefficient of position `j` in row `row` of the parity check. -/
def eccCoef (row j : Nat) : Nat := (eccColumn j).getD row 0

theorem eccCoef_lt {row : Nat} (hrow : row < 4) (j : Nat) : eccCoef row j < 16 := by
  have hpos : ∀ row < 4, ∀ j < 36, eccCoef row j < 16 := by decide +kernel
  by_cases hj : j < 36
  · exact hpos row hrow j hj
  · have hbig : eccCoef row j = eccCoef row 35 := by
      simp [eccCoef, eccColumn, show ¬ j ≤ 13 by omega, show ¬ j ≤ 28 by omega, show ¬ j ≤ 31 by omega,
        show j ≠ 32 by omega, show j ≠ 33 by omega, show j ≠ 34 by omega]
    rw [hbig]
    exact hpos row hrow 35 (by decide)

/-- The syndrome that one damaged symbol gives. -/
def eccDamage (j e : Nat) : List Nat := (List.range 4).map fun row => gf16Mul e (eccCoef row j)

/-- The sum of two syndromes. -/
def addSyndrome (s t : List Nat) : List Nat := s.zipWith (· ^^^ ·) t

theorem eccSyndrome_eq (r : List Nat) : eccSyndrome r = (List.range 4).map fun row => symbolSum (eccCoef row) r := rfl

theorem eccSyndrome_modify {r : List Nat} (hr : IsWord r) {e : Nat} (he : e < 16) {j : Nat} (hj : j < r.length) :
    eccSyndrome (r.modify j (· ^^^ e)) = addSyndrome (eccSyndrome r) (eccDamage j e) := by
  have hrow (row : Nat) (h : row < 4) := symbolSum_modify (eccCoef_lt h) hr he hj 0
  simp only [Nat.zero_add] at hrow
  simp [eccSyndrome_eq, eccDamage, addSyndrome, List.range_succ, hrow]

theorem gf16Mul_one : ∀ x < 16, gf16Mul x 1 = x ∧ gf16Mul x 0 = 0 ∧ gf16Mul x eccLambda = gf16Mul eccLambda x := by
  decide

/-- What four check symbols add to the syndrome of the data. -/
theorem eccSyndrome_append_check {d : List Nat} (hlen : d.length = 32) {a b c e : Nat} (ha : a < 16) (hb : b < 16)
    (hc : c < 16) (he : e < 16) :
    eccSyndrome (d ++ [a, b, c, e]) =
      addSyndrome (eccSyndrome d) [a ^^^ c ^^^ e, b ^^^ c ^^^ gf16Mul eccLambda e, c, e] := by
  have hcol : eccColumn 32 = [1, 0, 0, 0] ∧ eccColumn 33 = [0, 1, 0, 0] ∧ eccColumn 34 = [1, 1, 1, 0] ∧
      eccColumn 35 = [1, eccLambda, 0, 1] := by decide
  obtain ⟨h32, h33, h34, h35⟩ := hcol
  simp [eccSyndrome_eq, addSyndrome, List.range_succ, symbolSum_append, hlen, eccCoef, h32, h33, h34, h35,
    gf16Mul_one a ha, gf16Mul_one b hb, gf16Mul_one c hc, gf16Mul_one e he, Nat.xor_assoc]

/-- The four check symbols are those that make the syndrome 0. -/
theorem eccSyndrome_encode144 {d : List Nat} (hlen : d.length = 32) (hd : IsWord d) :
    eccSyndrome (encode144 d) = [0, 0, 0, 0] ∧ IsWord (encode144 d) := by
  obtain ⟨s0, s1, s2, s3, hs, h0, h1, h2, h3⟩ : ∃ s0 s1 s2 s3, eccSyndrome d = [s0, s1, s2, s3] ∧
      s0 < 16 ∧ s1 < 16 ∧ s2 < 16 ∧ s3 < 16 := by
    have hlt (row : Nat) (h : row < 4) := symbolSum_lt (eccCoef_lt h) hd 0
    exact ⟨_, _, _, _, eccSyndrome_eq d, hlt 0 (by decide), hlt 1 (by decide), hlt 2 (by decide), hlt 3 (by decide)⟩
  have hl := gf16Mul_lt eccLambda (by decide) s3 h3
  have hA := xor_lt_16 (xor_lt_16 h0 h2) h3
  have hB := xor_lt_16 (xor_lt_16 h1 h2) hl
  have henc : encode144 d = d ++ [s0 ^^^ s2 ^^^ s3, s1 ^^^ s2 ^^^ gf16Mul eccLambda s3, s2, s3] := by
    simp [encode144, hs]
  refine ⟨?_, fun x hx => ?_⟩
  · rw [henc, eccSyndrome_append_check hlen hA hB h2 h3, hs]
    simp [addSyndrome, Nat.xor_assoc]
  · rw [henc, List.mem_append] at hx
    rcases hx with hx | hx
    · exact hd x hx
    · simp only [List.mem_cons, List.not_mem_nil, or_false] at hx
      rcases hx with rfl | rfl | rfl | rfl <;> assumption

/-! ### Decoding of the HBM4 code -/

/-- Where decoding finds a single damaged symbol, and the damage, from the syndrome: `none` for DETECTED. -/
def eccLocate (s : List Nat) : Option (Nat × Nat) :=
  if s.getD 0 0 = 0 then
    if s.getD 2 0 = 0 ∧ s.getD 3 0 = 0 then some (33, s.getD 1 0) else none
  else
    let i := gf16Inv (s.getD 0 0)
    ((List.range 36).find? fun j => eccColumn j == [1, gf16Mul (s.getD 1 0) i, gf16Mul (s.getD 2 0) i, gf16Mul (s.getD 3 0) i]).map
      fun j => (j, s.getD 0 0)

theorem eccLocate_of_ne {a b c d : Nat} (ha : a ≠ 0) : eccLocate [a, b, c, d] =
    ((List.range 36).find? fun j =>
      eccColumn j == [1, gf16Mul b (gf16Inv a), gf16Mul c (gf16Inv a), gf16Mul d (gf16Inv a)]).map fun j => (j, a) :=
  if_neg ha

theorem decode144_eq (r : List Nat) : decode144 r =
    if eccSyndrome r = [0, 0, 0, 0] then some (r, none)
    else (eccLocate (eccSyndrome r)).map fun p => (r.set p.1 (r.getD p.1 0 ^^^ p.2), some p.1) := by
  unfold decode144 eccLocate
  dsimp only
  split
  · rfl
  · split
    · split <;> rfl
    · cases (List.range 36).find? _ <;> rfl

/-! ### No two damaged symbols look like one -/

/-- A syndrome: four symbols. -/
abbrev IsSyndrome (s : List Nat) : Prop := s.length = 4 ∧ IsWord s

theorem eccDamage_isSyndrome (j : Nat) {e : Nat} (he : e < 16) : IsSyndrome (eccDamage j e) := by
  refine ⟨by simp [eccDamage], fun x hx => ?_⟩
  obtain ⟨row, hrow, rfl⟩ := List.mem_map.1 hx
  exact gf16Mul_lt e he _ (eccCoef_lt (List.mem_range.1 hrow) j)

/-- The entries of a syndrome. -/
theorem IsSyndrome.elim {s : List Nat} (hs : IsSyndrome s) :
    ∃ a b c d, s = [a, b, c, d] ∧ a < 16 ∧ b < 16 ∧ c < 16 ∧ d < 16 := by
  obtain ⟨hlen, hw⟩ := hs
  match s, hlen with
  | [a, b, c, d], _ => exact ⟨a, b, c, d, rfl, hw a (by simp), hw b (by simp), hw c (by simp), hw d (by simp)⟩

/-- A syndrome as one number of four hexadecimal digits, so that the sum of two is one exclusive or. -/
def packSyndrome (s : List Nat) : Nat := s.foldr (fun x n => x + 16 * n) 0

theorem xor_digit {x y : Nat} (hx : x < 16) (hy : y < 16) (n m : Nat) :
    (x + 16 * n) ^^^ (y + 16 * m) = (x ^^^ y) + 16 * (n ^^^ m) := by
  have hlow := Nat.xor_mod_two_pow (a := x + 16 * n) (b := y + 16 * m) (n := 4)
  have hhigh := Nat.xor_div_two_pow (a := x + 16 * n) (b := y + 16 * m) (n := 4)
  rw [show (x + 16 * n) % 2 ^ 4 = x by omega, show (y + 16 * m) % 2 ^ 4 = y by omega] at hlow
  rw [show (x + 16 * n) / 2 ^ 4 = n by omega, show (y + 16 * m) / 2 ^ 4 = m by omega] at hhigh
  omega

theorem packSyndrome_add {s t : List Nat} (hs : IsSyndrome s) (ht : IsSyndrome t) :
    packSyndrome (addSyndrome s t) = packSyndrome s ^^^ packSyndrome t := by
  obtain ⟨a, b, c, d, rfl, ha, hb, hc, hd⟩ := hs.elim
  obtain ⟨a', b', c', d', rfl, ha', hb', hc', hd'⟩ := ht.elim
  simp only [addSyndrome, packSyndrome, List.zipWith_cons_cons, List.foldr_cons, List.zipWith_nil_left, List.foldr_nil]
  rw [xor_digit ha ha', xor_digit hb hb', xor_digit hc hc', xor_digit hd hd', Nat.xor_zero]

/-- The packed syndromes of every damage to one symbol, 16 bits each, by position and then by damage. -/
def damageTable : Nat := (List.range 576).foldr (fun n t => packSyndrome (eccDamage (n / 16) (n % 16)) + 65536 * t) 0

/-- An entry of the table. (The arithmetic is written with the functions that the kernel computes with at once.) -/
def damageAt (n : Nat) : Nat := Nat.mod (Nat.shiftRight damageTable (Nat.mul 16 n)) 65536

/-- The set of the entries, as the bits of a number. -/
def damageSet : Nat := (List.range 576).foldl (fun m n => Nat.lor m (Nat.shiftLeft 1 (damageAt n))) 0

def inDamageSet (v : Nat) : Bool := Nat.beq (Nat.mod (Nat.shiftRight damageSet v) 2) 1

/-- The table holds what it is to hold, its entries are in the set, and the sum of damage 1 at one position and any damage at
a lower one is not. -/
theorem damageSet_facts :
    ((List.range 576).all fun n =>
      Nat.beq (damageAt n) (packSyndrome (eccDamage (n / 16) (n % 16))) && inDamageSet (damageAt n)) = true ∧
    ((List.range 36).all fun j => (List.range 560).all fun n =>
      Nat.ble (16 * j) n || Nat.beq (n % 16) 0 || !inDamageSet (Nat.xor (damageAt (16 * j + 1)) (damageAt n))) = true := by
  decide +kernel

theorem damageAt_eq {j e : Nat} (hj : j < 36) (he : e < 16) :
    damageAt (16 * j + e) = packSyndrome (eccDamage j e) ∧ inDamageSet (packSyndrome (eccDamage j e)) = true := by
  have h := List.all_eq_true.1 damageSet_facts.1 (16 * j + e) (List.mem_range.2 (by omega))
  rw [show (16 * j + e) / 16 = j by omega, show (16 * j + e) % 16 = e by omega, Bool.and_eq_true] at h
  have hat := Nat.eq_of_beq_eq_true h.1
  exact ⟨hat, hat ▸ h.2⟩

theorem not_inDamageSet_pair {j j' t : Nat} (hj : j < 36) (hj' : j' < j) (ht : t < 16) (h0 : t ≠ 0) :
    inDamageSet (packSyndrome (eccDamage j 1) ^^^ packSyndrome (eccDamage j' t)) = false := by
  have h := List.all_eq_true.1 (List.all_eq_true.1 damageSet_facts.2 j (List.mem_range.2 hj)) (16 * j' + t)
    (List.mem_range.2 (by omega))
  rw [← (damageAt_eq hj (by decide)).1, ← (damageAt_eq (by omega) ht).1]
  rw [Bool.or_eq_true, Bool.or_eq_true, Bool.not_eq_true'] at h
  rcases h with (hle | hmod) | hnot
  · have := Nat.le_of_ble_eq_true hle
    omega
  · have := Nat.eq_of_beq_eq_true hmod
    omega
  · exact hnot

/-- A syndrome times a symbol. -/
def scaleSyndrome (a : Nat) (s : List Nat) : List Nat := s.map (gf16Mul a)

theorem scaleSyndrome_damage {a e : Nat} (ha : a < 16) (he : e < 16) (j : Nat) :
    scaleSyndrome a (eccDamage j e) = eccDamage j (gf16Mul a e) := by
  rw [scaleSyndrome, eccDamage, eccDamage, List.map_map]
  exact List.map_congr_left fun row hrow =>
    (gf16Mul_assoc a ha e he _ (eccCoef_lt (List.mem_range.1 hrow) j)).symm

theorem scaleSyndrome_add {a : Nat} (ha : a < 16) {s t : List Nat} (hs : IsSyndrome s) (ht : IsSyndrome t) :
    scaleSyndrome a (addSyndrome s t) = addSyndrome (scaleSyndrome a s) (scaleSyndrome a t) := by
  have hdist : ∀ x < 16, ∀ y < 16, gf16Mul a (x ^^^ y) = gf16Mul a x ^^^ gf16Mul a y :=
    fun x hx y hy => gf16Mul_xor_right a ha x hx y hy
  obtain ⟨b, c, d, e, rfl, hb, hc, hd, he⟩ := hs.elim
  obtain ⟨b', c', d', e', rfl, hb', hc', hd', he'⟩ := ht.elim
  simp [scaleSyndrome, addSyndrome, *]

/-- The damage of two symbols never has the syndrome of damage to one symbol, nor of none: any three columns of the parity
check are independent. -/
theorem eccDamage_pair_ne {j j' k e e' c : Nat} (hj : j < 36) (hj' : j' < j) (hk : k < 36) (he : e < 16) (he' : e' < 16)
    (hc : c < 16) (h0 : e ≠ 0) (h0' : e' ≠ 0) : addSyndrome (eccDamage j e) (eccDamage j' e') ≠ eccDamage k c := by
  intro heq
  obtain ⟨hi, hinv⟩ := gf16Inv_spec e he
  obtain ⟨hone, hi0⟩ := hinv h0
  have ht := gf16Mul_lt _ hi e' he'
  have ht0 : gf16Mul (gf16Inv e) e' ≠ 0 := mt (gf16Mul_eq_zero _ hi _ he' hi0).1 h0'
  have hscaled := congrArg (scaleSyndrome (gf16Inv e)) heq
  rw [scaleSyndrome_add hi (eccDamage_isSyndrome j he) (eccDamage_isSyndrome j' he'), scaleSyndrome_damage hi he,
    scaleSyndrome_damage hi he', scaleSyndrome_damage hi hc, hone] at hscaled
  have hpack := congrArg packSyndrome hscaled
  rw [packSyndrome_add (eccDamage_isSyndrome j (by decide)) (eccDamage_isSyndrome j' ht)] at hpack
  have hin := (damageAt_eq hk (gf16Mul_lt _ hi c hc)).2
  rw [← hpack, not_inDamageSet_pair hj hj' ht ht0] at hin
  exact Bool.false_ne_true hin

/-- What decoding locates is damage with the syndrome given. -/
theorem eccDamage_of_eccLocate {s : List Nat} (hs : IsSyndrome s) {j e : Nat} (h : eccLocate s = some (j, e)) :
    j < 36 ∧ e < 16 ∧ eccDamage j e = s := by
  obtain ⟨s0, s1, s2, s3, rfl, h0, h1, h2, h3⟩ := hs.elim
  simp only [eccLocate, List.getD_cons_zero, List.getD_cons_succ] at h
  split at h
  next hz =>
    split at h
    next hz' =>
      obtain ⟨rfl, rfl⟩ := Prod.mk.inj (Option.some.inj h)
      refine ⟨by decide, h1, ?_⟩
      rw [hz, hz'.1, hz'.2]
      have : ∀ e < 16, eccDamage 33 e = [0, e, 0, 0] := by decide +kernel
      exact this s1 h1
    next => simp at h
  next hz =>
    obtain ⟨j', hfind, hp⟩ := Option.map_eq_some_iff.1 h
    obtain ⟨rfl, rfl⟩ := Prod.mk.inj hp
    have hcol : eccColumn j' = [1, _, _, _] := eq_of_beq
      (List.find?_some (p := fun k => eccColumn k == [1, gf16Mul s1 (gf16Inv s0), gf16Mul s2 (gf16Inv s0), gf16Mul s3 (gf16Inv s0)]) hfind)
    refine ⟨List.mem_range.1 (List.mem_of_find?_eq_some hfind), h0, ?_⟩
    have hdiv (x : Nat) (hx : x < 16) := gf16Mul_div s0 h0 x hx hz
    simp [eccDamage, eccCoef, hcol, List.range_succ, hdiv, h1, h2, h3, (gf16Mul_one s0 h0).1]

/-- One damaged symbol is located: its syndrome, divided by its first entry, is the column, and no column stands twice. -/
theorem eccLocate_damage {j e : Nat} (hj : j < 36) (he : e < 16) (h0 : e ≠ 0) :
    eccLocate (eccDamage j e) = some (j, e) ∧ eccDamage j e ≠ [0, 0, 0, 0] := by
  by_cases h33 : j = 33
  · subst h33
    have : ∀ e < 16, eccDamage 33 e = [0, e, 0, 0] := by decide +kernel
    rw [this e he]
    exact ⟨rfl, by simpa using h0⟩
  · have hcols : ∀ j < 36, j ≠ 33 → eccColumn j = [1, eccCoef 1 j, eccCoef 2 j, eccCoef 3 j] ∧
        (List.range 36).find? (fun k => eccColumn k == eccColumn j) = some j := by decide +kernel
    obtain ⟨hcol, hfind⟩ := hcols j hj h33
    have hdam : eccDamage j e = [e, gf16Mul e (eccCoef 1 j), gf16Mul e (eccCoef 2 j), gf16Mul e (eccCoef 3 j)] := by
      have hone : eccCoef 0 j = 1 := by rw [eccCoef, hcol]; rfl
      simp only [eccDamage, List.range_succ, List.range_zero, List.nil_append, List.cons_append, List.map_cons, List.map_nil, hone,
        (gf16Mul_one e he).1]
    have hdiv (row : Nat) (h : row < 4) := gf16Mul_inv_cancel e he (eccCoef row j) (eccCoef_lt h j) h0
    rw [hdam]
    refine ⟨?_, by simp [h0]⟩
    rw [eccLocate_of_ne h0, hdiv 1 (by decide), hdiv 2 (by decide), hdiv 3 (by decide), ← hcol, hfind, Option.map_some]

/-- Two damaged symbols are DETECTED. -/
theorem eccLocate_pair {j j' e e' : Nat} (hj : j < 36) (hj' : j' < j) (he : e < 16) (he' : e' < 16) (h0 : e ≠ 0)
    (h0' : e' ≠ 0) : eccLocate (addSyndrome (eccDamage j e) (eccDamage j' e')) = none ∧
      addSyndrome (eccDamage j e) (eccDamage j' e') ≠ [0, 0, 0, 0] := by
  have hs : IsSyndrome (addSyndrome (eccDamage j e) (eccDamage j' e')) := by
    obtain ⟨a, b, c, d, h1, ha, hb, hc, hd⟩ := (eccDamage_isSyndrome j he).elim
    obtain ⟨a', b', c', d', h2, ha', hb', hc', hd'⟩ := (eccDamage_isSyndrome j' he').elim
    rw [h1, h2]
    refine ⟨rfl, fun x hx => ?_⟩
    simp only [addSyndrome, List.zipWith_cons_cons, List.zipWith_nil_left, List.mem_cons, List.not_mem_nil, or_false] at hx
    rcases hx with rfl | rfl | rfl | rfl <;> exact xor_lt_16 ‹_› ‹_›
  constructor
  · cases hloc : eccLocate (addSyndrome (eccDamage j e) (eccDamage j' e')) with
    | none => rfl
    | some p =>
      obtain ⟨hk, hc, heq⟩ := eccDamage_of_eccLocate hs hloc
      exact absurd heq.symm (eccDamage_pair_ne hj hj' hk he he' hc h0 h0')
  · have hzero : eccDamage 0 0 = [0, 0, 0, 0] := by decide +kernel
    rw [← hzero]
    exact eccDamage_pair_ne hj hj' (by decide) he he' (by decide) h0 h0'

end Sys2Proof.Machine


/-!
PROOFS. Decoding of the two symbol codes and of bursts (R144 to R147), from the facts about syndromes.
-/

namespace Sys2Proof.Machine

/-! ### HBM4 words -/

/-- Correcting the damaged symbol gives the word back. -/
theorem modify_set_xor (r : List Nat) (j e : Nat) :
    (r.modify j (· ^^^ e)).set j ((r.modify j (· ^^^ e)).getD j 0 ^^^ e) = r := by
  by_cases hj : j < r.length
  · apply List.ext_getElem (by simp)
    intro i hi hi'
    by_cases hij : j = i
    · subst hij; simp [hj]
    · simp [hij]
  · rw [List.modify_eq_self (by omega), List.set_eq_of_length_le (by omega)]

/-- Damage 0 is none. -/
theorem modify_xor_zero (r : List Nat) (j : Nat) : r.modify j (· ^^^ 0) = r := by
  rw [show (fun x : Nat => x ^^^ 0) = id from funext Nat.xor_zero, List.modify_id]

theorem addSyndrome_zero {s : List Nat} (hs : IsSyndrome s) : addSyndrome [0, 0, 0, 0] s = s := by
  obtain ⟨a, b, c, d, rfl, -⟩ := hs.elim
  simp [addSyndrome]

/-- A code word of the HBM4 code. -/
structure IsCodeword144 (r : List Nat) : Prop where
  length : r.length = 36
  word : IsWord r
  syndrome : eccSyndrome r = [0, 0, 0, 0]

theorem isCodeword144_encode {d : List Nat} (hlen : d.length = 32) (hd : IsWord d) : IsCodeword144 (encode144 d) := by
  obtain ⟨hs, hw⟩ := eccSyndrome_encode144 hlen hd
  exact ⟨by simp [encode144, hlen], hw, hs⟩

namespace IsCodeword144

variable {r : List Nat} (hr : IsCodeword144 r)
include hr

theorem decode : decode144 r = some (r, none) := by
  rw [decode144_eq, if_pos hr.syndrome]

theorem syndrome_modify {j e : Nat} (hj : j < 36) (he : e < 16) :
    eccSyndrome (r.modify j (· ^^^ e)) = eccDamage j e := by
  rw [eccSyndrome_modify hr.word he (by rw [hr.length]; exact hj), hr.syndrome, addSyndrome_zero (eccDamage_isSyndrome j he)]

theorem decode_modify {j e : Nat} (hj : j < 36) (he : e < 16) (h0 : e ≠ 0) :
    decode144 (r.modify j (· ^^^ e)) = some (r, some j) := by
  obtain ⟨hloc, hne⟩ := eccLocate_damage hj he h0
  rw [decode144_eq, hr.syndrome_modify hj he, if_neg hne, hloc, Option.map_some, modify_set_xor]

theorem decode_modify_modify {j j' e e' : Nat} (hj : j < 36) (hj' : j' < j) (he : e < 16) (he' : e' < 16) (h0 : e ≠ 0)
    (h0' : e' ≠ 0) : decode144 ((r.modify j (· ^^^ e)).modify j' (· ^^^ e')) = none := by
  obtain ⟨hloc, hne⟩ := eccLocate_pair hj hj' he he' h0 h0'
  have hsyn : eccSyndrome ((r.modify j (· ^^^ e)).modify j' (· ^^^ e')) = addSyndrome (eccDamage j e) (eccDamage j' e') := by
    rw [eccSyndrome_modify (hr.word.modify he j) he' (by rw [List.length_modify, hr.length]; omega), hr.syndrome_modify hj he]
  rw [decode144_eq, hsyn, if_neg hne, hloc, Option.map_none]

/-- Damage to one symbol, which may be none, is corrected. -/
theorem decode_line {j e : Nat} (hj : j < 36) (he : e < 16) : (decode144 (r.modify j (· ^^^ e))).map Prod.fst = some r := by
  by_cases h0 : e = 0
  · rw [h0, modify_xor_zero, hr.decode]; rfl
  · rw [hr.decode_modify hj he h0]; rfl

end IsCodeword144

/-! ### DDR5 beats -/

/-- The coefficients of the two syndromes. -/
def rsCoef (k j : Nat) : Nat := gf16Pow 2 (k * j)

theorem gf16Pow_lt (n : Nat) : gf16Pow 2 n < 16 := by
  induction n with
  | zero => decide
  | succ n ih => exact gf16Mul_lt 2 (by decide) _ ih

theorem rsCoef_lt (k j : Nat) : rsCoef k j < 16 := gf16Pow_lt _

theorem rsSyndrome_eq (r : List Nat) : rsSyndrome r = (symbolSum (rsCoef 1) r, symbolSum (rsCoef 2) r) := by
  simp [rsSyndrome, symbolSum, rsCoef]

theorem rsSyndrome_modify {r : List Nat} (hr : IsWord r) {e : Nat} (he : e < 16) {j : Nat} (hj : j < r.length)
    (hs : rsSyndrome r = (0, 0)) : rsSyndrome (r.modify j (· ^^^ e)) = (gf16Mul e (rsCoef 1 j), gf16Mul e (rsCoef 2 j)) := by
  rw [rsSyndrome_eq, Prod.mk.injEq] at hs
  rw [rsSyndrome_eq, symbolSum_modify (rsCoef_lt 1) hr he hj, symbolSum_modify (rsCoef_lt 2) hr he hj,
    hs.1, hs.2, Nat.zero_xor, Nat.zero_xor, Nat.zero_add]

/-- What the two check symbols add to the syndromes. -/
def rsCheck (x y : Nat) : Nat × Nat :=
  (gf16Mul x (rsCoef 1 8) ^^^ gf16Mul y (rsCoef 1 9), gf16Mul x (rsCoef 2 8) ^^^ gf16Mul y (rsCoef 2 9))

theorem rsSyndrome_append_eq_zero {d : List Nat} (hlen : d.length = 8) (x y : Nat) :
    rsSyndrome (d ++ [x, y]) = (0, 0) ↔ rsCheck x y = rsSyndrome d := by
  simp only [rsSyndrome_eq, symbolSum_append, hlen, symbolSum_cons, symbolSum_nil, Nat.xor_zero, rsCheck, Prod.mk.injEq,
    Nat.zero_add, Nat.xor_eq_zero_iff]
  exact and_congr eq_comm eq_comm

/-- Two check symbols give each pair of sums once. -/
theorem rsCheck_bijective : (∀ a < 16, ∀ b < 16, ∃ x < 16, ∃ y < 16, rsCheck x y = (a, b)) ∧
    ∀ x < 16, ∀ y < 16, rsCheck x y = (0, 0) → x = 0 ∧ y = 0 := by
  decide +kernel

theorem rsCheck_injective {x y x' y' : Nat} (hx : x < 16) (hy : y < 16) (hx' : x' < 16) (hy' : y' < 16)
    (h : rsCheck x y = rsCheck x' y') : x = x' ∧ y = y' := by
  have hsum (a b a' b' : Nat) (he : a ^^^ b = a' ^^^ b') : (a ^^^ a') ^^^ (b ^^^ b') = 0 := by
    rw [show (a ^^^ a') ^^^ (b ^^^ b') = (a ^^^ b) ^^^ (a' ^^^ b') by ac_rfl, he, Nat.xor_self]
  have hzero : rsCheck (x ^^^ x') (y ^^^ y') = (0, 0) := by
    obtain ⟨h1, h2⟩ := Prod.mk.inj h
    rw [rsCheck, gf16Mul_xor x hx x' hx' _ (rsCoef_lt ..), gf16Mul_xor y hy y' hy' _ (rsCoef_lt ..),
      gf16Mul_xor x hx x' hx' _ (rsCoef_lt ..), gf16Mul_xor y hy y' hy' _ (rsCoef_lt ..), hsum _ _ _ _ h1, hsum _ _ _ _ h2]
  obtain ⟨h1, h2⟩ := rsCheck_bijective.2 _ (xor_lt_16 hx hx') _ (xor_lt_16 hy hy') hzero
  exact ⟨Nat.xor_eq_zero_iff.1 h1, Nat.xor_eq_zero_iff.1 h2⟩

/-- The check symbols that encoding finds are two symbols that make both syndromes 0. -/
theorem rsEncode_spec {d : List Nat} (hlen : d.length = 8) (hd : IsWord d) :
    ∃ x < 16, ∃ y < 16, rsEncode d = d ++ [x, y] ∧ rsSyndrome (d ++ [x, y]) = (0, 0) := by
  obtain ⟨x, hx, y, hy, hxy⟩ := rsCheck_bijective.1 (rsSyndrome d).1
    (by rw [rsSyndrome_eq]; exact symbolSum_lt (rsCoef_lt 1) hd 0) (rsSyndrome d).2
    (by rw [rsSyndrome_eq]; exact symbolSum_lt (rsCoef_lt 2) hd 0)
  have hsome : (((List.range 256).map fun n => (n % 16, n / 16)).find? fun p => rsSyndrome (d ++ [p.1, p.2]) == (0, 0)).isSome := by
    rw [List.find?_isSome]
    refine ⟨(x, y), List.mem_map.2 ⟨x + 16 * y, List.mem_range.2 (by omega), ?_⟩, ?_⟩
    · rw [show (x + 16 * y) % 16 = x by omega, show (x + 16 * y) / 16 = y by omega]
    · exact beq_of_eq ((rsSyndrome_append_eq_zero hlen x y).2 hxy)
  obtain ⟨p, hp⟩ := Option.isSome_iff_exists.1 hsome
  obtain ⟨n, hn, rfl⟩ := List.mem_map.1 (List.mem_of_find?_eq_some hp)
  have hn := List.mem_range.1 hn
  refine ⟨n % 16, by omega, n / 16, by omega, by rw [rsEncode, hp], eq_of_beq ?_⟩
  exact List.find?_some (p := fun p : Nat × Nat => rsSyndrome (d ++ [p.1, p.2]) == (0, 0)) hp

/-- The check symbols are the only two that make both syndromes 0. -/
theorem rsSyndrome_eq_zero_iff {d : List Nat} (hlen : d.length = 8) (hd : IsWord d) {x y : Nat} (hx : x < 16) (hy : y < 16) :
    rsSyndrome (d ++ [x, y]) = (0, 0) ↔ rsEncode d = d ++ [x, y] := by
  obtain ⟨x', hx', y', hy', henc, hzero⟩ := rsEncode_spec hlen hd
  constructor
  · intro h
    rw [rsSyndrome_append_eq_zero hlen] at h hzero
    obtain ⟨rfl, rfl⟩ := rsCheck_injective hx hy hx' hy' (h.trans hzero.symm)
    exact henc
  · intro h
    rw [← h, henc, hzero]

/-- A code word of a DDR5 beat. -/
structure IsCodewordRs (r : List Nat) : Prop where
  length : r.length = 10
  word : IsWord r
  syndrome : rsSyndrome r = (0, 0)

theorem isCodewordRs_encode {d : List Nat} (hlen : d.length = 8) (hd : IsWord d) : IsCodewordRs (rsEncode d) := by
  obtain ⟨x, hx, y, hy, henc, hzero⟩ := rsEncode_spec hlen hd
  rw [henc]
  refine ⟨by simp [hlen], fun z hz => ?_, hzero⟩
  rw [List.mem_append] at hz
  rcases hz with hz | hz
  · exact hd z hz
  · simp only [List.mem_cons, List.not_mem_nil, or_false] at hz
    rcases hz with rfl | rfl <;> assumption

/-- The position and the damage of one damaged symbol, from its syndromes. -/
theorem rs_locate : ∀ j < 10, ∀ e < 16, e ≠ 0 →
    gf16Mul e (rsCoef 1 j) ≠ 0 ∧ gf16Mul e (rsCoef 2 j) ≠ 0 ∧
    (List.range 10).find? (fun k => gf16Pow 2 k == gf16Mul (gf16Mul e (rsCoef 2 j)) (gf16Inv (gf16Mul e (rsCoef 1 j)))) = some j ∧
    gf16Mul (gf16Mul (gf16Mul e (rsCoef 1 j)) (gf16Mul e (rsCoef 1 j))) (gf16Inv (gf16Mul e (rsCoef 2 j))) = e := by
  decide +kernel

namespace IsCodewordRs

variable {r : List Nat} (hr : IsCodewordRs r)
include hr

theorem decode : rsDecode r = some r := by
  simp [rsDecode, hr.syndrome]

theorem decode_modify {j e : Nat} (hj : j < 10) (he : e < 16) : rsDecode (r.modify j (· ^^^ e)) = some r := by
  by_cases h0 : e = 0
  · rw [h0, modify_xor_zero, hr.decode]
  · obtain ⟨h1, h2, hfind, hdam⟩ := rs_locate j hj e he h0
    have hsyn := rsSyndrome_modify hr.word he (by rw [hr.length]; exact hj) hr.syndrome
    simp only [rsDecode, hsyn, h1, h2, hfind, hdam, and_self, or_self, if_false, modify_set_xor]

end IsCodewordRs

/-! ### Bursts (R145 to R147) -/

/-- A burst each of whose words decodes to the same word. -/
theorem burstTry_of_decodes {ddr : Bool} {e : List (Nat × Nat)} {c : List Nat}
    (h : ∀ r ∈ burstWords ddr e, (decodeWord ddr r).map Prod.fst = some c) :
    (burstTry ddr e).map Prod.fst = some (symbolBytes ((burstWords ddr e).flatMap fun _ => c.take (burstData ddr))) := by
  have hsome : ∀ r ∈ burstWords ddr e, ∃ x, decodeWord ddr r = some (c, x) := fun r hr => by
    obtain ⟨⟨c', x⟩, hx, rfl⟩ := Option.map_eq_some_iff.1 (h r hr)
    exact ⟨x, hx⟩
  have hany : ((burstWords ddr e).map (decodeWord ddr)).any (·.isNone) = false := by
    rw [List.any_eq_false]
    intro x hx
    obtain ⟨r, hr, rfl⟩ := List.mem_map.1 hx
    obtain ⟨y, hy⟩ := hsome r hr
    simp [hy]
  rw [burstTry, hany, if_neg Bool.false_ne_true, Option.map_some, List.flatMap_map]
  refine congrArg (fun l => some (symbolBytes l)) ?_
  refine List.flatMap_congr fun r hr => ?_
  obtain ⟨y, hy⟩ := hsome r hr
  simp [hy]

/-- One wrong line of an HBM4 burst damages the symbol that travels on it. -/
theorem hbmWordErr_line (line m w : Nat) :
    hbmWordErr [(line, m)] w = (List.replicate 36 0).modify line (· ^^^ (m / 16 ^ w % 16)) := by
  apply List.ext_getElem (by simp [hbmWordErr])
  intro i hi hi'
  by_cases hl : line = i <;> simp [hbmWordErr, lineErr, hl, -List.reduceReplicate]

theorem isCodeword144_zero : IsCodeword144 (List.replicate 36 0) :=
  ⟨rfl, fun x hx => by rw [List.eq_of_mem_replicate hx]; decide, by decide +kernel⟩

theorem burstTry_hbm_line {line : Nat} (hl : line < 36) (m : Nat) :
    (burstTry false [(line, m)]).map Prod.fst = some (zeros 32) := by
  have h : ∀ r ∈ burstWords false [(line, m)], (decodeWord false r).map Prod.fst = some (List.replicate 36 0) := by
    intro r hr
    obtain ⟨w, -, rfl⟩ := List.mem_map.1 hr
    rw [hbmWordErr_line]
    exact isCodeword144_zero.decode_line hl (Nat.mod_lt _ (by decide))
  rw [burstTry_of_decodes h, burstWords, if_neg Bool.false_ne_true, List.flatMap_map]
  rfl

/-- The symbol that four lines carry in a beat. -/
def beatSymbol (l : List Nat) (b : Nat) : Nat := sumOf ((List.range 4).map fun k => bit (bitAt (l.getD k 0) b) * 2 ^ k)

theorem beatSymbol_lt (l : List Nat) (b : Nat) : beatSymbol l b < 16 := by
  have hbit (x : Bool) : bit x ≤ 1 := by cases x <;> decide
  have h (k : Nat) := hbit (bitAt (l.getD k 0) b)
  have h0 := h 0
  have h1 := h 1
  have h2 := h 2
  have h3 := h 3
  simp only [beatSymbol, sumOf, List.range_succ, List.range_zero, List.nil_append, List.cons_append, List.map_cons,
    List.map_nil, List.foldl_cons, List.foldl_nil]
  omega

theorem ddrBeatErr_eq (e : List (Nat × Nat)) (b : Nat) : ddrBeatErr e b = (List.range 10).map fun d =>
    beatSymbol [lineErr e (4 * d), lineErr e (4 * d + 1), lineErr e (4 * d + 2), lineErr e (4 * d + 3)] b := rfl

/-- The errors of the lines of device `i` when those of device `d` alone come wrong. -/
theorem lineErr_device (d m0 m1 m2 m3 i : Nat) :
    let e := [(4 * d, m0), (4 * d + 1, m1), (4 * d + 2, m2), (4 * d + 3, m3)]
    [lineErr e (4 * i), lineErr e (4 * i + 1), lineErr e (4 * i + 2), lineErr e (4 * i + 3)] =
      if i = d then [m0, m1, m2, m3] else [0, 0, 0, 0] := by
  by_cases hd : i = d
  · subst hd
    simp [lineErr]
  · have hne (k k' : Nat) (hk : k < 4) (hk' : k' < 4) : ¬ 4 * d + k = 4 * i + k' := by omega
    have hl (k' : Nat) (hk' : k' < 4) : ¬ 4 * d = 4 * i + k' := hne 0 k' (by decide) hk'
    have hr (k : Nat) (hk : k < 4) : ¬ 4 * d + k = 4 * i := hne k 0 hk (by decide)
    simp [lineErr, hd, Ne.symm hd, hl, hr]

/-- The four lines of one DDR5 device damage its symbol of each beat. -/
theorem ddrBeatErr_device (d m0 m1 m2 m3 b : Nat) :
    ddrBeatErr [(4 * d, m0), (4 * d + 1, m1), (4 * d + 2, m2), (4 * d + 3, m3)] b =
      (List.replicate 10 0).modify d (· ^^^ beatSymbol [m0, m1, m2, m3] b) := by
  have hzero : beatSymbol [0, 0, 0, 0] b = 0 := by
    simp [beatSymbol, List.range_succ, bitAt, bit, sumOf]
  apply List.ext_getElem (by simp [ddrBeatErr])
  intro i hi hi'
  simp only [ddrBeatErr_eq, lineErr_device, List.getElem_map, List.getElem_range, List.getElem_modify, List.getElem_replicate,
    Nat.zero_xor]
  by_cases hd : d = i
  · rw [if_pos hd, if_pos hd.symm]
  · rw [if_neg hd, if_neg (Ne.symm hd), hzero]

theorem isCodewordRs_zero : IsCodewordRs (List.replicate 10 0) :=
  ⟨rfl, fun x hx => by rw [List.eq_of_mem_replicate hx]; decide, by decide +kernel⟩

theorem burstTry_ddr_device {d : Nat} (hd : d < 10) {m : List Nat} (hm : m.length = 4) :
    (burstTry true (m.mapIdx fun k x => (4 * d + k, x))).map Prod.fst = some (zeros 64) := by
  obtain ⟨m0, m1, m2, m3, rfl⟩ : ∃ m0 m1 m2 m3, m = [m0, m1, m2, m3] := by
    match m, hm with
    | [m0, m1, m2, m3], _ => exact ⟨m0, m1, m2, m3, rfl⟩
  have h : ∀ r ∈ burstWords true ([m0, m1, m2, m3].mapIdx fun k x => (4 * d + k, x)),
      (decodeWord true r).map Prod.fst = some (List.replicate 10 0) := by
    intro r hr
    obtain ⟨b, -, rfl⟩ := List.mem_map.1 hr
    rw [show [m0, m1, m2, m3].mapIdx (fun k x => (4 * d + k, x)) =
      [(4 * d, m0), (4 * d + 1, m1), (4 * d + 2, m2), (4 * d + 3, m3)] from rfl, ddrBeatErr_device]
    rw [decodeWord, if_pos rfl, isCodewordRs_zero.decode_modify hd (beatSymbol_lt _ _)]
    rfl
  rw [burstTry_of_decodes h, burstWords, if_pos rfl, List.flatMap_map]
  rfl

/-- Settles O60: the two codes by the syndromes of damage, and a burst as the decoding of its words. -/
theorem symbolCodes : Obligations.SymbolCodes := by
  unfold Obligations.SymbolCodes
  refine ⟨fun d hlen hd => ?_, fun d hlen hd => ?_, fun line m hl _ => burstTry_hbm_line hl m,
    fun d m hd hm _ => burstTry_ddr_device hd hm⟩
  · have hcode := isCodeword144_encode hlen hd
    exact ⟨hcode.decode, fun j e hj h0 he => ⟨hcode.decode_modify hj he h0.ne',
      fun j' e' hj' h0' he' => hcode.decode_modify_modify hj hj' he he' h0.ne' h0'.ne'⟩⟩
  · have hcode := isCodewordRs_encode hlen hd
    exact ⟨fun x y hx hy => rsSyndrome_eq_zero_iff hlen hd hx hy, hcode.decode,
      fun j e hj _ he => hcode.decode_modify hj he⟩

end Sys2Proof.Machine


/-!
PROOFS. What is read after an update: registers and fields after a field is written, what a command that ends with a retry of
parked departures keeps, and which record an event leaves.
-/

namespace Sys2Proof.Machine

/-! ### Registers -/

/-- A register other than the one whose field is written. -/
theorem State.reg_setFld_ne (s : State) (f : Fld) (inst v : Nat) (k : RegKey) (h : k ≠ f.key inst) :
    (s.setFld f inst v).reg k = s.reg k := State.reg_setReg_ne _ _ _ _ h

/-- A register at another offset, or of another block, than the one whose field is written. -/
theorem State.reg_setFld_off (s : State) (f : Fld) (inst v : Nat) {b : Blk} {off i : Nat} (h : (b, off) ≠ (f.blk, f.off)) :
    (s.setFld f inst v).reg ⟨b, off, i⟩ = s.reg ⟨b, off, i⟩ :=
  State.reg_setFld_ne _ _ _ _ _ fun e => h (by rw [show b = f.blk from congrArg RegKey.blk e, show off = f.off from congrArg RegKey.off e])

/-- A field of a register at another offset, or of another block. -/
theorem State.fld_setFld_off (s : State) (f g : Fld) (inst i v : Nat) (h : (g.blk, g.off) ≠ (f.blk, f.off)) :
    (s.setFld f inst v).fld g i = s.fld g i := by
  rw [State.fld, State.fld, Fld.key, State.reg_setFld_off _ _ _ _ h]

/-- Another field of the register written. -/
theorem State.fld_setFld_apart (s : State) (f g : Fld) (inst v : Nat) (hk : (g.blk, g.off) = (f.blk, f.off))
    (hf : f.lsb + f.width ≤ 32) (hg : g.lsb + g.width ≤ 32) (hd : g.lsb + g.width ≤ f.lsb ∨ f.lsb + f.width ≤ g.lsb) :
    (s.setFld f inst v).fld g inst = s.fld g inst := by
  obtain ⟨hb, ho⟩ := Prod.mk.inj hk
  exact State.fld_setFld_other s f g inst v (by rw [Fld.key, Fld.key, hb, ho]) hf hg hd

/-- The field written, when the value fits. -/
theorem State.fld_setFld_val (s : State) (f : Fld) (inst v : Nat) (h : f.lsb + f.width ≤ 32) (hv : v < 2 ^ f.width) :
    (s.setFld f inst v).fld f inst = v := by
  rw [State.fld_setFld_self s f inst v h, Nat.mod_eq_of_lt hv]

/-- The one-bit field written. -/
theorem State.fld_setFld_bit (s : State) (f : Fld) (inst : Nat) (b : Bool) (h : f.lsb + f.width ≤ 32) (hw : f.width = 1) :
    (s.setFld f inst (bit b)).fld f inst = bit b :=
  s.fld_setFld_val f inst _ h (by rw [hw]; cases b <;> decide)

@[simp] theorem bit_beq_one (b : Bool) : (bit b == 1) = b := by cases b <;> rfl

/-- Registers that count no events: a write to one touches its block's part alone. -/
theorem State.setReg_frame {X : Nat} {s0 s : State} {k : RegKey} {w : Word} (h : Fr X s0 s)
    (hX : X.testBit (blkCode k.blk) = true) (hc : countsEvents k.blk k.off = false) : Fr X s0 (s.setReg k w) := by
  have other : ∀ k', k' ≠ k → (s.setReg k w).reg k' = s.reg k' := fun k' hk => State.reg_setReg_ne _ _ _ _ hk
  refine h.trans ⟨fun p hp => ?_, rfl, id, id⟩
  cases p with
  | regs b =>
    intro off inst _
    refine other _ ?_
    rintro rfl
    rw [Part.bit, hX] at hp
    exact Bool.noConfusion hp
  | counters =>
    intro b off inst hcount
    refine other _ ?_
    rintro rfl
    rw [hc] at hcount
    exact Bool.noConfusion hcount
  | setup => exact ⟨rfl, rfl⟩
  | bytes => exact ⟨rfl, rfl, rfl, rfl⟩
  | _ => rfl

theorem State.setFld_frame {X : Nat} {s0 s : State} {f : Fld} {inst v : Nat} (h : Fr X s0 s)
    (hX : X.testBit (blkCode f.blk) = true) (hc : countsEvents f.blk f.off = false) : Fr X s0 (s.setFld f inst v) :=
  State.setReg_frame h hX hc

/-! ### Events -/

/-- What an event's record depends on is the same in two states. -/
structure State.RecordsAlike (s t : State) : Prop where
  evr : t.evr = s.evr
  time : t.time = s.time
  down : t.mgmt.down = s.mgmt.down
  rates : ∀ off, countsEvents .evr off = false → t.reg ⟨.evr, off, 0⟩ = s.reg ⟨.evr, off, 0⟩

/-- An operation that leaves the event record, the time unit, management and the rates alone. -/
theorem Fr.recordsAlike {X : Nat} {s t : State} (h : Fr X s t)
    (hX : X.testBit 29 = false ∧ X.testBit 33 = false ∧ X.testBit 28 = false ∧ X.testBit 23 = false) : s.RecordsAlike t :=
  ⟨h.evr_eq hX.1, h.time_eq hX.2.1, by rw [h.mgmt_eq hX.2.2.1], fun _ hc => h.reg_eq _ hX.2.2.2 hc⟩

/-- Raising an event changes reports alone. -/
theorem State.raise_keeps (s : State) (c i d : Nat) (fn : Nat := 0) (m : Bytes := []) :
    Fr 0x2c000070000000 s (s.raise c i d fn m) := State.raise_fr (Fr.refl _ s) (Sub.refl _)

theorem Ev.severity_le (code : Nat) : Ev.severity code ≤ 4 := by
  have htable : ∀ r ∈ Ev.table, r.2.1 ≤ 4 := by decide
  unfold Ev.severity
  split
  next c sev n h => exact htable _ (List.mem_of_find?_eq_some h)
  next => exact Nat.zero_le 4

theorem State.bucket_congr {s t : State} (h : s.RecordsAlike t) (code : Nat) : t.bucket code = s.bucket code := by
  have hoff : countsEvents .evr (4 * Ev.severity code) = false := by
    have := Ev.severity_le code
    simp [countsEvents]
    omega
  have hfld (f : Fld) (hf : f.blk = .evr) : t.fld { f with off := 4 * Ev.severity code } =
      s.fld { f with off := 4 * Ev.severity code } := by
    simp only [State.fld, Fld.key, hf, h.rates _ hoff]
  simp only [State.bucket, State.uptimeNs, h.evr, h.time, hfld Reg.EVR_RATE_CFG_BURST rfl, hfld Reg.EVR_RATE_CFG_PER_S rfl]

theorem State.evr_alertJoin (s : State) (r : EvRecord) : (s.alertJoin r).evr = s.evr :=
  (State.alertJoin_fr (Fr.refl _ s) (Sub.refl _)).evr_eq rfl

theorem State.evr_consoleLine (s : State) (r : EvRecord) : (s.consoleLine r).evr = s.evr :=
  (State.consoleLine_fr (Fr.refl _ s) (Sub.refl _)).evr_eq rfl

theorem State.evr_post (s : State) (fn c i d : Nat) : (s.post fn c i d).evr = s.evr :=
  (State.post_fr (Fr.refl _ s) (Sub.refl _)).evr_eq rfl

theorem State.evr_postReady (s : State) (d : Nat) : (s.postReady d).evr = s.evr :=
  (State.postReady_fr (Fr.refl _ s) (Sub.refl _)).evr_eq rfl

theorem State.persist_congr {s t : State} (h : t.evr = s.evr) (r : EvRecord) :
    (t.persist r).1 = (s.persist r).1 ∧ (t.persist r).2.evr = (s.persist r).2.evr := by
  unfold State.persist
  rw [h]
  split
  · split <;> exact ⟨rfl, by simp [h]⟩
  · exact ⟨rfl, h⟩

theorem State.evr_appendRecord (s : State) (r : EvRecord) : (s.appendRecord r).evr =
    let p := s.persist { r with seq := s.evr.nextSeq, lateDetail := s.mgmt.down }
    let e := evictOld (p.2.evr.ring.length + 1) (p.2.evr.ring ++ [p.1])
    let lost := (e.1.filter fun g => decide (p.2.evr.mirrorSeq ≤ g.seq)).length
    { p.2.evr with
      ring := e.2
      nextSeq := p.1.seq + 1
      mirrorSeq := if lost = 0 then p.2.evr.mirrorSeq else maxOf (e.1.map EvRecord.seq) + 1 } := by
  unfold State.appendRecord
  dsimp only
  rw [State.evr_consoleLine, State.evr_alertJoin]
  split <;> rfl

theorem State.evr_appendRecord_congr {s t : State} (h : t.evr = s.evr) (hd : t.mgmt.down = s.mgmt.down) (r : EvRecord) :
    (t.appendRecord r).evr = (s.appendRecord r).evr := by
  rw [State.evr_appendRecord, State.evr_appendRecord, h, hd]
  obtain ⟨h1, h2⟩ := State.persist_congr h { r with seq := s.evr.nextSeq, lateDetail := s.mgmt.down }
  simp only [h1, h2]

/-- One event leaves the same record whatever else the states differ in. -/
theorem State.evr_raise_congr {s t : State} (h : s.RecordsAlike t) (c i d : Nat) (fn : Nat := 0) (m : Bytes := []) :
    (t.raise c i d fn m).evr = (s.raise c i d fn m).evr := by
  have hrec : (t.record c i d m).evr = (s.record c i d m).evr := by
    have hnow : t.eventNow c i d m = s.eventNow c i d m := by simp only [State.eventNow, h.time]
    unfold State.record State.recordEvent
    simp only [hnow, State.bucket_congr h]
    split
    · exact State.evr_appendRecord_congr h.evr h.down _
    · have hset (b : EvBucket) : (t.setBucket (s.eventNow c i d m).code b).evr = (s.setBucket (s.eventNow c i d m).code b).evr := by
        rw [State.setBucket, State.setBucket, h.evr]
      split
      · exact State.evr_appendRecord_congr (hset _) (by simpa using h.down) _
      · rw [State.bump_evr, State.bump_evr, hset]
  have hpost (s : State) : (s.raise c i d fn m).evr = (s.record c i d m).evr := by
    unfold State.raise
    dsimp only
    split
    · exact State.evr_postReady _ _
    · split
      · exact State.evr_post _ _ _ _ _
      · rfl
  rw [hpost, hpost, hrec]

/-! ### Commands that end with a retry of what waits for setts -/

/-- The retry after a command touches collectives alone. -/
theorem State.pooled_keeps (s : State) (f : State → State) : Fr 0x3c00d970000cc0 (f s) (s.pooled f) := by
  unfold State.pooled
  dsimp only
  split
  · exact Fr.refl _ _
  · exact State.retryFreed_fr (Fr.refl _ _) (Sub.refl _)

/-- Where no sett has come free nothing is retried. -/
theorem State.pooled_of_setts {s : State} {f : State → State} (h : (f s).sett = s.sett) : s.pooled f = f s := by
  have hdue (die : Nat) : s.freedOn (f s) die = false := by simp [State.freedOn, h]
  unfold State.pooled State.retryFreed
  simp [hdue]

/-- Where nothing waits nothing is retried. -/
theorem State.pooled_of_parked {s : State} {f : State → State} (h : (f s).tpt.parked = []) : s.pooled f = f s := by
  unfold State.pooled State.retryFreed
  simp [h]

/-- A command of the core, with the core on. -/
theorem State.inCore_on {s : State} (h : s.coreOff = false) (f : State → State) : s.inCore f = f s := by
  simp [State.inCore, h]

theorem State.inPool_on {s : State} (h : s.coreOff = false) (f : State → State) : s.inPool f = s.pooled f :=
  State.inCore_on h _

end Sys2Proof.Machine


/-!
PROOFS. Power-up and the loss of all state (R38 to R42).
-/

namespace Sys2Proof.Machine

/-- What the straps are sampled into. -/
theorem State.powerOn_eq {s : State} (x : Straps) (hp : s.boot.porst = true) (ht : s.boot.thermTrip = false)
    (h0 : 0 ∈ s.boot.railOrder) : s.powerOn x =
      ((((s.setFlag Reg.MGT_STRAP_STATUS_PCIE_X8 0 x.pcieX8).setFld Reg.MGT_STRAP_STATUS_RECOV 0 (x.recov % 4)).setFld
        Reg.MGT_STRAP_STATUS_I3C_ADDR 0 (x.i3cAddr % 8)).setFlag Reg.MGT_STRAP_STATUS_TEST_REQ 0 x.test).onBoot
        fun b => { b with porst := false } := by
  simp [State.powerOn, hp, ht, h0]

/-- Settles O7: the straps go to fields of one register; a rail and a reset change the tables named. -/
theorem powerUpRows : Obligations.PowerUpRows := by
  unfold Obligations.PowerUpRows
  refine ⟨fun s x hp ht h0 => ⟨_, rfl, ?_⟩, fun s r hp hr hn h0 => ⟨_, rfl, ?_⟩, fun s r hp hr h0 => ⟨_, rfl, ?_⟩,
    fun s => ⟨_, rfl, ?_⟩, fun s => ⟨_, rfl, ?_⟩⟩
  case refine_1 =>
    rw [State.powerOn_eq x hp ht h0]
    refine ⟨rfl, ?_, ?_, ?_, ?_, ?_, fun off inst hoff => ?_, ?frame⟩
    · simp (disch := decide) [State.flag, State.setFlag, State.fld_setFld_apart, State.fld_setFld_bit]
    · simp (disch := decide) [State.setFlag, State.fld_setFld_apart, State.fld_setFld_self, Reg.MGT_STRAP_STATUS_RECOV]
    · simp (disch := decide) [State.setFlag, State.fld_setFld_apart, State.fld_setFld_self, Reg.MGT_STRAP_STATUS_I3C_ADDR]
    · simp (disch := decide) [State.flag, State.setFlag, State.fld_setFld_bit]
    · simp (disch := decide) [State.stage, State.setFlag, State.fld_setFld_off]
    · have hne : (Blk.mgt, off) ≠ (Blk.mgt, 0x10) := fun e => hoff (by simp [(Prod.mk.inj e).2])
      rw [State.setFlag, State.setFlag]
      exact (State.reg_setFld_off _ _ _ _ hne).trans ((State.reg_setFld_off _ _ _ _ hne).trans
        ((State.reg_setFld_off _ _ _ _ hne).trans (State.reg_setFld_off _ _ _ _ hne)))
    case frame =>
      refine Fr.within (X := 0x8000001) (Fr.boot_ ?_ rfl) (by decide +kernel)
      iterate 4 refine State.setFld_frame ?_ rfl rfl
      exact Fr.refl _ s
  case refine_2 =>
    have hn' : s.boot.railOrder.contains r = false := by simpa using hn
    have h0' : ¬(r ≠ 0 ∧ s.boot.railOrder.contains 0 = false) := by
      rcases h0 with rfl | h0 <;> simp [*]
    have hup : s.railUp r = s.onBoot fun b => { b with
        railOrder := b.railOrder ++ [r]
        railSequenceBad := b.railSequenceBad || ((r == 2 || r == 3 || r == 4) && !(s.boot.railOrder.contains (r - 1))) } := by
      unfold State.railUp
      rw [if_neg (by simp only [hp, hn', h0', Nat.not_le.2 hr, or_self, Bool.true_eq_false, Bool.false_eq_true, not_false_eq_true])]
    rw [hup]
    exact ⟨rfl, rfl, (Fr.boot_ (X := 0x8000000) (Fr.refl _ s) rfl).within (by decide +kernel)⟩
  case refine_3 =>
    have h0' : s.boot.railOrder.contains 0 = false := by simpa using h0
    exact if_pos (.inr (.inr (.inr ⟨hr, h0'⟩)))
  case refine_4 => exact ⟨rfl, rfl, rfl, rfl, rfl, rfl, rfl, rfl, rfl, rfl, rfl, rfl⟩
  case refine_5 => exact ⟨rfl, rfl, rfl, rfl, rfl, rfl, rfl, rfl, rfl, rfl, rfl, rfl⟩

end Sys2Proof.Machine


/-!
PROOFS. Start-up (R62 to R68): what completing and failing a stage leave, and each stage by them.
-/

namespace Sys2Proof.Machine

/-! ### Stages and failure codes -/

/-- Completing a stage writes STAGE; the event changes no other register. -/
theorem State.fld_setStage (s : State) (n : Nat) (g : Fld) (i : Nat) (hc : countsEvents g.blk g.off = false) :
    (s.setStage n).fld g i = (s.setFld Reg.MGT_READINESS_STAGE 0 n).fld g i := by
  unfold State.setStage
  dsimp only
  split
  · rfl
  · exact State.fld_raise _ _ _ _ _ _ _ _ hc

theorem State.fld_failStart (s : State) (code : Nat) (g : Fld) (i : Nat) (hc : countsEvents g.blk g.off = false) :
    (s.failStart code).fld g i = (s.setFld Reg.MGT_READINESS_FAIL_CODE 0 code).fld g i := by
  unfold State.failStart
  dsimp only
  split
  · rfl
  · exact State.fld_raise _ _ _ _ _ _ _ _ hc

@[simp] theorem State.boot_setStage (s : State) (n : Nat) : (s.setStage n).boot = s.boot :=
  (State.setStage_fr (Fr.refl _ s) (Sub.refl _)).boot_eq rfl

@[simp] theorem State.boot_failStart (s : State) (code : Nat) : (s.failStart code).boot = s.boot :=
  (State.failStart_fr (Fr.refl _ s) (Sub.refl _)).boot_eq rfl

theorem State.stage_setStage (s : State) {n : Nat} (hn : n < 16) : (s.setStage n).stage = n := by
  rw [State.stage, State.fld_setStage _ _ _ _ rfl]
  exact State.fld_setFld_val _ _ _ _ (by decide) hn

@[simp] theorem State.stage_failStart (s : State) (code : Nat) : (s.failStart code).stage = s.stage := by
  rw [State.stage, State.fld_failStart _ _ _ _ rfl]
  exact State.fld_setFld_apart _ _ _ _ _ rfl (by decide) (by decide) (by decide)

/-- FAIL_CODE. -/
abbrev State.failCode (s : State) : Nat := s.fld Reg.MGT_READINESS_FAIL_CODE

theorem State.failCode_failStart (s : State) {code : Nat} (h : code < 256) : (s.failStart code).failCode = code := by
  rw [State.failCode, State.fld_failStart _ _ _ _ rfl]
  exact State.fld_setFld_val _ _ _ _ (by decide) h

@[simp] theorem State.failCode_setStage (s : State) (n : Nat) : (s.setStage n).failCode = s.failCode := by
  rw [State.failCode, State.fld_setStage _ _ _ _ rfl]
  exact State.fld_setFld_apart _ _ _ _ _ rfl (by decide) (by decide) (by decide)

@[simp] theorem State.stage_stopStart (s : State) (code : Nat) : (s.stopStart code).stage = s.stage := s.stage_failStart code

theorem State.failCode_stopStart (s : State) {code : Nat} (h : code < 256) : (s.stopStart code).failCode = code :=
  s.failCode_failStart h

@[simp] theorem State.boot_stopStart (s : State) (code : Nat) : (s.stopStart code).boot = { s.boot with stopped := true } := by
  rw [State.stopStart, State.onBoot, State.boot_failStart]

theorem State.reg_stopStart (s : State) (code : Nat) (k : RegKey) (h : k ≠ Reg.MGT_READINESS_FAIL_CODE.key 0)
    (hc : countsEvents k.blk k.off = false) : (s.stopStart code).reg k = s.reg k := by
  have hfail : (s.stopStart code).reg k = (s.setFld Reg.MGT_READINESS_FAIL_CODE 0 code).reg k := by
    show (s.failStart code).reg k = _
    unfold State.failStart
    dsimp only
    split
    · rfl
    · exact (State.raise_keeps _ _ _ _).reg_eq _ (by cases k.blk <;> rfl) hc
  exact hfail.trans (State.reg_setFld_ne _ _ _ _ _ h)

/-- A field of another register than the one written. -/
theorem State.fld_setReg_ne (s : State) (k : RegKey) (w : Word) (f : Fld) (i : Nat) (h : f.key i ≠ k) :
    (s.setReg k w).fld f i = s.fld f i := by
  rw [State.fld, State.reg_setReg_ne _ _ _ _ h, State.fld]

/-- Recovery waits for an image with FAIL_CODE RECOVERY_WAIT. -/
theorem State.recover_spec (s : State) : s.recover.stage = s.stage ∧ s.recover.failCode = 5 ∧
    s.recover.boot.recov = if s.strapRecov = 2 then RecovWait.mge else RecovWait.pcie := by
  have hcode := s.failCode_failStart (code := fcRECOVERY_WAIT) (by decide)
  unfold State.recover
  dsimp only
  by_cases h : s.strapRecov = 2
  · rw [if_pos h, if_pos h]
    have hfr : Fr 0x8000008000000 (s.failStart fcRECOVERY_WAIT) (s.failStart fcRECOVERY_WAIT).solicit :=
      State.solicit_fr (Fr.refl _ _) (Sub.refl _)
    refine ⟨(hfr.fld_eq _ _ rfl rfl).trans (s.stage_failStart _), (hfr.fld_eq _ _ rfl rfl).trans hcode, ?_⟩
    unfold State.solicit
    dsimp only
    split <;> rfl
  · rw [if_neg h, if_neg h]
    exact ⟨s.stage_failStart _, hcode, rfl⟩

/-- An accepted image is the one that runs, and stage IMAGE is complete. -/
theorem State.imageAccepted_spec (s : State) (i : ImageInfo) (img : Bytes) {source : Nat} (hsrc : source < 4) :
    let t := s.imageAccepted i img source
    t.stage = 3 ∧ t.boot = { s.boot with
      running := i, bootImage := i, workImage := img.take i.len, recov := .none, tftpPeer := none } ∧
    t.fld Reg.MGT_READINESS_IMAGE_SOURCE = source ∧ t.failCode = 0 := by
  intro t
  refine ⟨State.stage_setStage _ (by decide), State.boot_setStage _ _, ?_, ?_⟩
  · refine (State.fld_setStage _ _ _ _ rfl).trans ?_
    simp (disch := decide) only [State.fld_setFld_apart]
    exact State.fld_setFld_val _ _ _ _ (by decide) hsrc
  · exact (State.failCode_setStage _ _).trans (State.fld_setFld_val _ _ _ _ (by decide) (by decide))

/-! ### The stages -/

theorem length_bytesLE (n v : Nat) : (bytesLE n v).length = n := by
  induction n generalizing v with
  | zero => rfl
  | succ n ih => rw [bytesLE, List.length_cons, ih]

/-- A stage of start-up, read where the retry for setts does not reach. -/
theorem State.pooled_startUp (s : State) (f : State → State) :
    (s.pooled f).boot = (f s).boot ∧ (s.pooled f).stage = (f s).stage ∧
    ∀ g i, g.blk = .mgt ∨ g.blk = .dbq → countsEvents g.blk g.off = false → (s.pooled f).fld g i = (f s).fld g i := by
  have h := s.pooled_keeps f
  refine ⟨h.boot_eq rfl, h.fld_eq _ _ rfl rfl, fun g i hg hc => h.fld_eq g i ?_ hc⟩
  rcases hg with hg | hg <;> rw [hg] <;> rfl

theorem State.stageFuses_ok {s : State} (tok : Bytes) (ht : s.flag Reg.MGT_STRAP_STATUS_TEST_REQ = false) :
    (s.stageFuses true tok).stage = 1 ∧ (s.stageFuses true tok).boot.bootNonce.length = 32 := by
  have heq : s.stageFuses true tok =
      ((s.freshBytes 32).2.onBoot fun b => { b with bootNonce := (s.freshBytes 32).1 }).setStage 1 := by
    unfold State.stageFuses
    dsimp only
    rw [if_neg (by decide), if_pos (by rw [ht]; rfl)]
  rw [heq]
  refine ⟨State.stage_setStage _ (by decide), ?_⟩
  rw [State.boot_setStage]
  simp [State.onBoot, State.freshBytes, bytesBE, length_bytesLE]

theorem State.stageHostLink_spec (s : State) : s.stageHostLink.stage = 2 ∧
    if s.strapRecov = 1 ∨ s.strapRecov = 2 ∨ s.boot.journalOpen = true then
      s.stageHostLink.failCode = 5 ∧ s.stageHostLink.boot.recov = if s.strapRecov = 2 then RecovWait.mge else RecovWait.pcie
    else s.stageHostLink.failCode = s.failCode ∧ s.stageHostLink.boot.recov = s.boot.recov := by
  have hstage := s.stage_setStage (n := 2) (by decide)
  have hstrap : (s.setStage 2).strapRecov = s.strapRecov := by
    rw [State.strapRecov, State.fld_setStage _ _ _ _ rfl, State.fld_setFld_off _ _ _ _ _ _ (by decide)]
    rfl
  have hstrapFail (t : State) (c : Nat) : (t.failStart c).strapRecov = t.strapRecov := by
    rw [State.strapRecov, State.fld_failStart _ _ _ _ rfl, State.fld_setFld_off _ _ _ _ _ _ (by decide)]
    rfl
  have hrec (t : State) (ht : t.stage = 2) (hs : t.strapRecov = s.strapRecov) : t.recover.stage = 2 ∧
      t.recover.failCode = 5 ∧ t.recover.boot.recov = if s.strapRecov = 2 then RecovWait.mge else RecovWait.pcie := by
    obtain ⟨h1, h2, h3⟩ := t.recover_spec
    exact ⟨h1.trans ht, h2, hs ▸ h3⟩
  unfold State.stageHostLink
  dsimp only
  by_cases hj : s.boot.journalOpen = true
  · rw [if_pos hj, if_pos (.inr (.inr hj))]
    exact hrec _ ((State.stage_failStart _ _).trans hstage) ((hstrapFail _ _).trans hstrap)
  · rw [if_neg hj]
    by_cases hs : s.strapRecov = 1 ∨ s.strapRecov = 2
    · rw [if_pos hs, if_pos (by tauto)]
      exact hrec _ hstage hstrap
    · rw [if_neg hs, if_neg (by tauto)]
      exact ⟨hstage, State.failCode_setStage _ _, by rw [State.boot_setStage]⟩

theorem State.stageImage_spec (s : State) (img : Bytes) (hs : s.stage = 2) :
    match s.verifyImage img with
    | .accept i => (s.stageImage img).stage = 3 ∧ (s.stageImage img).boot.running = i ∧
        (s.stageImage img).boot.workImage = img.take i.len ∧
        (s.stageImage img).fld Reg.MGT_READINESS_IMAGE_SOURCE = 0 ∧ (s.stageImage img).failCode = 0
    | _ => (s.stageImage img).stage = 2 ∧ (s.stageImage img).failCode = 5 ∧
        (s.stageImage img).boot.recov = if s.strapRecov = 2 then RecovWait.mge else RecovWait.pcie := by
  have hrec (c : Nat) : (s.failStart c).recover.stage = 2 ∧ (s.failStart c).recover.failCode = 5 ∧
      (s.failStart c).recover.boot.recov = if s.strapRecov = 2 then RecovWait.mge else RecovWait.pcie := by
    obtain ⟨h1, h2, h3⟩ := (s.failStart c).recover_spec
    have hstrap : (s.failStart c).strapRecov = s.strapRecov := by
      rw [State.strapRecov, State.fld_failStart _ _ _ _ rfl, State.fld_setFld_off _ _ _ _ _ _ (by decide)]
      rfl
    exact ⟨h1.trans ((s.stage_failStart c).trans hs), h2, hstrap ▸ h3⟩
  unfold State.stageImage
  cases s.verifyImage img with
  | accept i =>
    obtain ⟨h1, h2, h3, h4⟩ := s.imageAccepted_spec i img (source := 0) (by decide)
    exact ⟨h1, by rw [h2], by rw [h2], h3, h4⟩
  | bad => exact hrec _
  | rollback => exact hrec _

theorem State.stageMgmt_eq (s : State) : ∃ u : State, u.boot = { s.boot with secretsLocked := true } ∧
    u.fld Reg.MGT_MGC_STATUS_ROLE0 = 1 ∧ u.fld Reg.MGT_MGC_STATUS_ROLE1 = 2 ∧
    s.stageMgmt = if s.boot.railSequenceBad then (u.setStage 4).stopStart fcRAIL_SEQUENCE else u.setStage 4 := by
  refine ⟨_, ?_, ?_, ?_, rfl⟩
  · rfl
  · show (State.setFld _ _ _ _).fld _ _ = _
    simp (disch := decide) only [State.fld_setFld_off, State.fld_setFld_apart, State.fld_setFld_val]
  · show (State.setFld _ _ _ _).fld _ _ = _
    simp (disch := decide) only [State.fld_setFld_off, State.fld_setFld_apart, State.fld_setFld_val]

theorem State.mgcActing_of_role0 {s : State} (h : s.fld Reg.MGT_MGC_STATUS_ROLE0 = 1) : s.mgcActing = some 0 := if_pos h

theorem State.stageHbm_none (s : State) : (s.stageHbm []).stage = 5 ∧ (s.stageHbm []).boot =
    { s.boot with trustedGood := true, trustedImage := s.boot.workImage, workImage := [] } := by
  have hbad : (List.range 1024).filter ([] : List Nat).contains = [] := by simp
  have hboot : (s.hbmStage []).boot = s.boot := (State.hbmStage_fr (Fr.refl _ s) (Sub.refl _)).boot_eq rfl
  have heq : s.stageHbm [] = ((s.hbmStage []).onBoot fun b =>
      { b with trustedGood := true, trustedImage := b.workImage, workImage := [] }).setStage 5 := by
    simp only [State.stageHbm, hbad]
    rfl
  rw [heq]
  refine ⟨State.stage_setStage _ (by decide), ?_⟩
  rw [State.boot_setStage, State.onBoot, hboot]

/-! ### Roles of the coxes -/

/-- A field of a cox's register, after a field of one cox is written. -/
theorem State.fld_setFld_nth (s : State) (f g : Fld) (n m v : Nat) (hf : f.lsb + f.width ≤ 32) (hg : g.lsb + g.width ≤ 32)
    (hd : g.lsb + g.width ≤ f.lsb ∨ f.lsb + f.width ≤ g.lsb) (hk : (g.blk, g.off) = (f.blk, f.off)) :
    (s.setFld (f.nth n) 0 v).fld (g.nth m) = s.fld (g.nth m) := by
  obtain ⟨hb, ho⟩ := Prod.mk.inj hk
  by_cases h : m = n
  · rw [h]
    exact State.fld_setFld_apart _ _ _ _ _ (by simp only [Fld.nth, hb, ho]) hf hg hd
  · refine State.fld_setFld_off _ _ _ _ _ _ fun e => h ?_
    have := congrArg Prod.snd e
    simp only [Fld.nth] at this
    omega

/-- The field written, of the same or of another cox. -/
theorem State.fld_setFld_nth_self (s : State) (f : Fld) (n m v : Nat) (hf : f.lsb + f.width ≤ 32) (hv : v < 2 ^ f.width) :
    (s.setFld (f.nth n) 0 v).fld (f.nth m) = if m = n then v else s.fld (f.nth m) := by
  by_cases h : m = n
  · rw [h, if_pos rfl]
    exact State.fld_setFld_val _ _ _ _ hf hv
  · rw [if_neg h]
    refine State.fld_setFld_off _ _ _ _ _ _ fun e => h ?_
    have := congrArg Prod.snd e
    simp only [Fld.nth] at this
    omega

theorem State.coxRole_setCox (s : State) (n m r q : Nat) (hr : r < 4) :
    (s.setCox n r q).coxRole m = if m = n then r else s.coxRole m := by
  rw [State.setCox, State.coxRole, State.fld_setFld_nth _ _ _ _ _ _ (by decide) (by decide) (by decide) (by decide),
    State.fld_setFld_nth_self _ _ _ _ _ (by decide) hr, State.coxRole]

theorem State.coxSet_setCox (s : State) (n m r q : Nat) (hq : q < 16) :
    (s.setCox n r q).coxSet m = if m = n then q else s.coxSet m := by
  rw [State.setCox, State.coxSet, State.fld_setFld_nth_self _ _ _ _ _ (by decide) hq,
    State.fld_setFld_nth _ _ _ _ _ _ (by decide) (by decide) (by decide) (by decide), State.coxSet]

/-- Every cox that loads its image is a standby on no queue set. -/
theorem State.coxes_loaded (gen : Nat) (l : List Nat) (s : State) (m : Nat) :
    let t := l.foldl (fun s n => (s.setCox n roleSTANDBY 0xF).setFld (Reg.DBQ_COX_STATUS_FW_GEN.nth n) 0 gen) s
    t.coxRole m = (if m ∈ l then roleSTANDBY else s.coxRole m) ∧ t.coxSet m = if m ∈ l then 0xF else s.coxSet m := by
  induction l generalizing s with
  | nil => exact ⟨rfl, rfl⟩
  | cons n l ih =>
    have hrole : ((s.setCox n roleSTANDBY 0xF).setFld (Reg.DBQ_COX_STATUS_FW_GEN.nth n) 0 gen).coxRole m =
        if m = n then roleSTANDBY else s.coxRole m := by
      rw [← State.coxRole_setCox s n m roleSTANDBY 0xF (by decide), State.coxRole,
        State.fld_setFld_nth _ _ _ _ _ _ (by decide) (by decide) (by decide) (by decide), State.coxRole]
    have hset : ((s.setCox n roleSTANDBY 0xF).setFld (Reg.DBQ_COX_STATUS_FW_GEN.nth n) 0 gen).coxSet m =
        if m = n then 0xF else s.coxSet m := by
      rw [← State.coxSet_setCox s n m roleSTANDBY 0xF (by decide), State.coxSet,
        State.fld_setFld_nth _ _ _ _ _ _ (by decide) (by decide) (by decide) (by decide), State.coxSet]
    obtain ⟨h1, h2⟩ := ih ((s.setCox n roleSTANDBY 0xF).setFld (Reg.DBQ_COX_STATUS_FW_GEN.nth n) 0 gen)
    rw [hrole] at h1
    rw [hset] at h2
    refine ⟨h1.trans ?_, h2.trans ?_⟩ <;> by_cases hm : m = n <;> simp [hm]

/-- Each cox of a list that pairs it with its own number becomes active on that queue set. -/
theorem State.coxes_active (l : List (Nat × Nat)) (hl : ∀ p ∈ l, p.1 = p.2 ∧ p.2 < 16) (s : State) (m : Nat) :
    let t := l.foldl (fun s p => s.setCox p.1 roleACTIVE p.2) s
    t.coxRole m = (if m ∈ l.map Prod.fst then roleACTIVE else s.coxRole m) ∧
    t.coxSet m = if m ∈ l.map Prod.fst then m else s.coxSet m := by
  induction l generalizing s with
  | nil => exact ⟨rfl, rfl⟩
  | cons p l ih =>
    obtain ⟨heq, hlt⟩ := hl p (by simp)
    obtain ⟨h1, h2⟩ := ih (fun q hq => hl q (by simp [hq])) (s.setCox p.1 roleACTIVE p.2)
    rw [State.coxRole_setCox _ _ _ _ _ (by decide)] at h1
    rw [State.coxSet_setCox _ _ _ _ _ hlt] at h2
    refine ⟨h1.trans ?_, h2.trans ?_⟩
    · by_cases hm : m = p.1 <;> simp only [List.map_cons, List.mem_cons, hm, true_or, false_or, ite_true, ite_false, ite_self]
    · by_cases hm : m = p.1 <;> simp only [List.map_cons, List.mem_cons, hm, true_or, false_or, ite_true, ite_false, ite_self, ← heq]

/-- With no cox failed eight are active, one on each queue set, and the ninth is standby. -/
theorem State.stageCore_none (s : State) : (s.stageCore []).stage = 7 ∧
    (∀ n < 8, (s.stageCore []).coxRole n = roleACTIVE ∧ (s.stageCore []).coxSet n = n) ∧
    (s.stageCore []).coxRole 8 = roleSTANDBY ∧ (s.stageCore []).coxSet 8 = 0xF := by
  obtain ⟨s0, heq⟩ : ∃ s0 : State, s.stageCore [] =
      (((List.range 8).zipIdx.foldl (fun s p => s.setCox p.1 roleACTIVE p.2) ((List.range 9).foldl
        (fun s n => (s.setCox n roleSTANDBY 0xF).setFld (Reg.DBQ_COX_STATUS_FW_GEN.nth n) 0 s0.boot.running.gen) s0))).setStage 7 := by
    refine ⟨{ s with cox := { s.cox with firmware := (List.range 9).map fun n => (n, s.boot.running.coxDigest) } }, ?_⟩
    rfl
  have hrole (n : Nat) := State.coxes_loaded s0.boot.running.gen (List.range 9) s0 n
  have hact (n : Nat) := State.coxes_active (List.range 8).zipIdx (by decide) ((List.range 9).foldl
        (fun s n => (s.setCox n roleSTANDBY 0xF).setFld (Reg.DBQ_COX_STATUS_FW_GEN.nth n) 0 s0.boot.running.gen) s0) n
  have hstage (t : State) (n : Nat) : (t.setStage 7).coxRole n = t.coxRole n ∧ (t.setStage 7).coxSet n = t.coxSet n :=
    ⟨(State.fld_setStage _ _ _ _ rfl).trans (State.fld_setFld_off _ _ _ _ _ _ fun e => nomatch congrArg Prod.fst e),
     (State.fld_setStage _ _ _ _ rfl).trans (State.fld_setFld_off _ _ _ _ _ _ fun e => nomatch congrArg Prod.fst e)⟩
  rw [heq]
  have hmem (n : Nat) : n ∈ (List.range 8).zipIdx.map Prod.fst ↔ n < 8 := by simp
  refine ⟨State.stage_setStage _ (by decide), fun n hn => ?_, ?_, ?_⟩
  · rw [(hstage _ n).1, (hstage _ n).2, (hact n).1, (hact n).2, if_pos ((hmem n).2 hn), if_pos ((hmem n).2 hn)]
    exact ⟨rfl, rfl⟩
  · rw [(hstage _ 8).1, (hact 8).1, if_neg (by decide), (hrole 8).1, if_pos (by decide)]
  · rw [(hstage _ 8).2, (hact 8).2, if_neg (by decide), (hrole 8).2, if_pos (by decide)]

@[simp] theorem State.stage_setUp (s : State) (st : Nat) : (s.setUp st).stage = s.stage := by
  have h : (s.setUp st).stage = (s.setFld Reg.MGT_UPDATE_STATUS_STATE 0 st).stage := by
    unfold State.setUp
    dsimp only
    split
    · rfl
    · exact State.fld_raise _ _ _ _ _ _ _ _ rfl
  exact h.trans (State.fld_setFld_off _ _ _ _ _ _ (by decide))

theorem State.stage_stageReady (s : State) : s.stageReady.stage = 9 := by
  have hflash (t : State) : t.startFlash.stage = t.stage := State.stage_setUp _ _
  have hup (t : State) : t.bringUp.stage = t.stage := (State.bringUp_fr (Fr.refl _ _) (Sub.refl _)).fld_eq _ _ rfl rfl
  have hpost (t : State) (d : Nat) : (t.postReady d).stage = t.stage :=
    (State.postReady_fr (Fr.refl _ _) (Sub.refl _)).fld_eq _ _ rfl rfl
  unfold State.stageReady
  dsimp only
  split
  · rw [hup, hpost, State.stage_setStage _ (by decide)]
  · rw [hflash, hup, hpost, State.stage_setStage _ (by decide)]

/-! ### The rows -/

/-- What the result of the stage that is next does, once `n` stages are complete. -/
def State.stageFn (s : State) (n : Nat) : StageResult → State
  | .fuses ok token => if n = 0 then s.stageFuses ok token else s
  | .hostLink => if n = 1 then s.stageHostLink else s
  | .image img => if n = 2 ∧ s.boot.recov = .none then s.stageImage img else s
  | .mgmt => if n = 3 then s.stageMgmt else s
  | .hbm failed => if n = 4 then s.stageHbm failed else s
  | .ddr gib failed => if n = 5 then s.stageDdr gib failed else s
  | .core failed => if n = 6 then s.stageCore failed else s
  | .lanes => if n = 7 then s.setStage 8 else s
  | .ready => if n = 8 then s.stageReady else s

/-- The command runs it, while start-up goes on. -/
theorem State.stageDone_running {s : State} {n : Nat} (hp : s.boot.porst = false) (hs : s.boot.stopped = false)
    (ht : s.boot.thermTrip = false) (hn : s.stage = n) (r : StageResult) : s.stageDone r = s.stageFn n r := by
  unfold State.stageDone
  rewrite [hp, hs, ht, if_neg (by decide), hn]
  split
  case h_10 hother =>
    cases r <;> simp only [State.stageFn] <;> rw [if_neg]
    all_goals simp_all
  all_goals simp [State.stageFn]

/-- Settles O8: the command runs the function of the stage that is next. -/
theorem startUpStages : Obligations.StartUpStages := by
  unfold Obligations.StartUpStages
  refine ⟨fun s tok hp hs ht hn hreq => ⟨_, rfl, ?_⟩, fun s hp hs ht hn => ⟨_, rfl, ?_⟩, fun s img hp hs ht hn hr => ⟨_, rfl, ?_⟩,
    fun s hp hs ht hn hrail => ⟨_, rfl, ?_⟩, fun s hp hs ht hn => ⟨_, rfl, ?_⟩, fun s gib failed hp hs ht hn => ⟨_, rfl, ?_⟩,
    fun s hp hs ht hn => ⟨_, rfl, ?_⟩, fun s hp hs ht hn => ⟨_, rfl, ?_⟩, fun s hp hs ht hn => ⟨_, rfl, ?_⟩⟩
  case refine_1 =>
    obtain ⟨hboot, hstage, -⟩ := s.pooled_startUp fun s => s.stageDone (.fuses true tok)
    have hdone : s.stageDone (.fuses true tok) = s.stageFuses true tok := by rw [State.stageDone_running hp hs ht hn, State.stageFn, if_pos rfl]
    rw [hboot, hstage, hdone]
    exact State.stageFuses_ok tok hreq
  case refine_2 =>
    obtain ⟨hboot, hstage, hfld⟩ := s.pooled_startUp fun s => s.stageDone .hostLink
    have hdone : s.stageDone .hostLink = s.stageHostLink := by rw [State.stageDone_running hp hs ht hn, State.stageFn, if_pos rfl]
    rw [hboot, hstage, hfld _ _ (.inl rfl) rfl, hdone]
    exact s.stageHostLink_spec
  case refine_3 =>
    obtain ⟨hboot, hstage, hfld⟩ := s.pooled_startUp fun s => s.stageDone (.image img)
    have hdone : s.stageDone (.image img) = s.stageImage img := by
      rw [State.stageDone_running hp hs ht hn, State.stageFn, if_pos ⟨rfl, hr⟩]
    rw [hboot, hstage, hfld _ _ (.inl rfl) rfl, hfld _ _ (.inl rfl) rfl, hdone]
    exact s.stageImage_spec img hn
  case refine_4 =>
    obtain ⟨hboot, hstage, hfld⟩ := s.pooled_startUp fun s => s.stageDone .mgmt
    obtain ⟨u, hub, hrole0, hrole1, hmgmt⟩ := s.stageMgmt_eq
    have hdone : s.stageDone .mgmt = u.setStage 4 := by
      rw [hrail, if_neg (by decide)] at hmgmt
      rw [State.stageDone_running hp hs ht hn, State.stageFn, if_pos rfl, hmgmt]
    have hset (g : Fld) (hg : g.blk = .mgt) (ho : g.off ≠ 0x20) (hc : countsEvents g.blk g.off = false) :
        (s.pooled fun s => s.stageDone .mgmt).fld g = u.fld g := by
      rw [hfld _ _ (.inl hg) hc, hdone, State.fld_setStage _ _ _ _ hc]
      exact State.fld_setFld_off _ _ _ _ _ _ fun e => ho (congrArg Prod.snd e)
    refine ⟨?_, ?_, State.mgcActing_of_role0 ?_, ?_⟩
    · rw [hstage, hdone, State.stage_setStage _ (by decide)]
    · rw [hboot, hdone, State.boot_setStage, hub]
    · rw [hset _ rfl (by decide) rfl, hrole0]
    · rw [hset _ rfl (by decide) rfl, hrole1]
  case refine_5 =>
    obtain ⟨hboot, hstage, -⟩ := s.pooled_startUp fun s => s.stageDone (.hbm [])
    have hdone : s.stageDone (.hbm []) = s.stageHbm [] := by rw [State.stageDone_running hp hs ht hn, State.stageFn, if_pos rfl]
    obtain ⟨h1, h2⟩ := s.stageHbm_none
    rw [hboot, hstage, hdone, h1, h2]
    exact ⟨rfl, rfl, rfl, rfl⟩
  case refine_6 =>
    obtain ⟨-, hstage, -⟩ := s.pooled_startUp fun s => s.stageDone (.ddr gib failed)
    have hdone : s.stageDone (.ddr gib failed) = s.stageDdr gib failed := by rw [State.stageDone_running hp hs ht hn, State.stageFn, if_pos rfl]
    rw [hstage, hdone]
    exact State.stage_setStage _ (by decide)
  case refine_7 =>
    obtain ⟨-, hstage, hfld⟩ := s.pooled_startUp fun s => s.stageDone (.core [])
    have hdone : s.stageDone (.core []) = s.stageCore [] := by rw [State.stageDone_running hp hs ht hn, State.stageFn, if_pos rfl]
    have hcox (n : Nat) : (s.pooled fun s => s.stageDone (.core [])).coxRole n = (s.stageCore []).coxRole n ∧
        (s.pooled fun s => s.stageDone (.core [])).coxSet n = (s.stageCore []).coxSet n := by
      rw [← hdone]
      exact ⟨hfld _ _ (.inr rfl) rfl, hfld _ _ (.inr rfl) rfl⟩
    simp only [hcox, hstage, hdone]
    exact s.stageCore_none
  case refine_8 =>
    obtain ⟨-, hstage, -⟩ := s.pooled_startUp fun s => s.stageDone .lanes
    have hdone : s.stageDone .lanes = s.setStage 8 := by rw [State.stageDone_running hp hs ht hn, State.stageFn, if_pos rfl]
    rw [hstage, hdone]
    exact State.stage_setStage _ (by decide)
  case refine_9 =>
    obtain ⟨-, hstage, -⟩ := s.pooled_startUp fun s => s.stageDone .ready
    have hdone : s.stageDone .ready = s.stageReady := by rw [State.stageDone_running hp hs ht hn, State.stageFn, if_pos rfl]
    rw [hstage, hdone]
    exact s.stage_stageReady

/-- A stage that stops start-up moves no sett, so nothing is retried after it. -/
theorem State.pooled_stopStart {s u : State} {f : State → State} {code : Nat} (hf : f s = u.stopStart code)
    (hu : u.sett = s.sett) : s.pooled f = u.stopStart code := by
  rw [← hf]
  refine State.pooled_of_setts ?_
  rw [hf, ← hu]
  exact (State.stopStart_fr (Fr.refl _ u) (Sub.refl _)).sett_eq rfl

/-- Too many failed units: the tier's limits per stack and in all, as the row states them. -/
theorem State.stageHbm_bad (s : State) (failed : List Nat)
    (h : 32 < ((List.range 1024).filter failed.contains).length ∨ (List.range 16).any (fun k => decide (8 <
      ((List.range 1024).filter fun u => failed.contains u && u / 64 == k).length)) = true) :
    s.stageHbm failed = s.stopStart fcHBM_TRAIN := by
  unfold State.stageHbm
  simp only [List.filter_filter]
  refine if_pos ?_
  rcases h with h | h
  · exact .inr h
  · left
    simpa only [Bool.and_comm] using h

/-- Too few good coxes, once the coxes have taken their roles. -/
theorem State.stageCore_few (s : State) (failed : List Nat) (h : ((List.range 9).filter fun n => !failed.contains n).length < 8) :
    ∃ u : State, s.stageCore failed = u.stopStart fcCOX_LOAD ∧ u.sett = s.sett ∧ u.stage = s.stage := by
  have hcox (f : State → Nat → State) (hf : ∀ u n, (f u n).sett = u.sett ∧ (f u n).stage = u.stage) (l : List Nat) (u : State) :
      (l.foldl f u).sett = u.sett ∧ (l.foldl f u).stage = u.stage := by
    induction l generalizing u with
    | nil => exact ⟨rfl, rfl⟩
    | cons n l ih => exact ⟨(ih _).1.trans (hf u n).1, (ih _).2.trans (hf u n).2⟩
  have hmgt (u : State) (f : Fld) (hf : f.blk = .dbq) (v : Nat) : (u.setFld f 0 v).stage = u.stage :=
    State.fld_setFld_off _ _ _ _ _ _ fun e => by
      have := congrArg Prod.fst e
      rw [hf] at this
      exact Blk.noConfusion this
  have hstage (u : State) (n r q : Nat) : (u.setCox n r q).stage = u.stage := (hmgt _ _ rfl _).trans (hmgt _ _ rfl _)
  refine ⟨_, if_pos h, ?_⟩
  refine hcox _ (fun u n => ?_) _ _
  split
  · exact ⟨rfl, (hmgt _ _ rfl _).trans (hstage _ _ _ _)⟩
  · exact ⟨rfl, (hmgt _ _ rfl _).trans (hstage _ _ _ _)⟩

/-- Settles O9: each failure ends in `stopStart`, which leaves the stage, and moves no sett. -/
theorem startUpFailures : Obligations.StartUpFailures := by
  unfold Obligations.StartUpFailures
  refine ⟨fun s tok hp hs ht hn => ⟨_, rfl, ?_⟩, fun s hp hs ht hn hrail => ⟨_, rfl, ?_⟩,
    fun s failed hp hs ht hn hbad => ⟨_, rfl, ?_⟩, fun s failed hp hs ht hn hfew => ⟨_, rfl, ?_⟩⟩
  case refine_1 =>
    have hdone : s.stageDone (.fuses false tok) = (((s.setReg ⟨.mgt, 0x8, 0⟩ 0).setReg ⟨.mgt, 0xC, 0⟩ 0).onBoot
        fun b => { b with identity := false }).stopStart fcFUSE_FAULT := by
      rw [State.stageDone_running hp hs ht hn, State.stageFn, if_pos rfl]
      rfl
    rw [State.pooled_stopStart (f := fun s => s.stageDone (.fuses false tok)) hdone rfl]
    refine ⟨(State.stage_stopStart _ _).trans ?_, State.failCode_stopStart _ (by decide), by rw [State.boot_stopStart], ?_, ?_⟩
    · exact (State.fld_setReg_ne _ _ _ _ _ (by decide)).trans ((State.fld_setReg_ne _ _ _ _ _ (by decide)).trans hn)
    · rw [State.reg_stopStart _ _ _ (by decide) rfl]
      exact (State.reg_setReg_ne _ _ _ _ (by decide)).trans (State.reg_setReg _ _ _)
    · rw [State.reg_stopStart _ _ _ (by decide) rfl]
      exact State.reg_setReg _ _ _
  case refine_2 =>
    obtain ⟨u, -, -, -, hmgmt⟩ := s.stageMgmt_eq
    have hdone : s.stageDone .mgmt = (u.setStage 4).stopStart fcRAIL_SEQUENCE := by
      rw [hrail, if_pos rfl] at hmgmt
      rw [State.stageDone_running hp hs ht hn, State.stageFn, if_pos rfl, hmgmt]
    obtain ⟨hboot, hstage, hfld⟩ := s.pooled_startUp fun s => s.stageDone .mgmt
    rw [hstage, hboot, hfld _ _ (.inl rfl) rfl, hdone]
    refine ⟨(State.stage_stopStart _ _).trans (State.stage_setStage _ (by decide)),
      State.failCode_stopStart _ (by decide), by rw [State.boot_stopStart]⟩
  case refine_3 =>
    have hdone : s.stageDone (.hbm failed) = s.stopStart fcHBM_TRAIN := by
      rw [State.stageDone_running hp hs ht hn, State.stageFn, if_pos rfl, s.stageHbm_bad failed hbad]
    rw [State.pooled_stopStart (f := fun s => s.stageDone (.hbm failed)) hdone rfl]
    exact ⟨(State.stage_stopStart _ _).trans hn, State.failCode_stopStart _ (by decide), by rw [State.boot_stopStart],
      (State.stopStart_fr (Fr.refl _ s) (Sub.refl _)).mem_eq rfl⟩
  case refine_4 =>
    obtain ⟨u, hcore, hsett, hu⟩ := s.stageCore_few failed hfew
    have hdone : s.stageDone (.core failed) = u.stopStart fcCOX_LOAD := by
      rw [State.stageDone_running hp hs ht hn, State.stageFn, if_pos rfl, hcore]
    rw [State.pooled_stopStart (f := fun s => s.stageDone (.core failed)) hdone hsett]
    exact ⟨(State.stage_stopStart _ _).trans (hu.trans hn), State.failCode_stopStart _ (by decide), by rw [State.boot_stopStart]⟩

end Sys2Proof.Machine


/-!
PROOFS. Register writes that start something, and recovery (R72 to R74).
-/

namespace Sys2Proof.Machine

/-! ### Triggers -/

/-- A write that reaches the register: its fields take the word, and what it starts follows. -/
theorem State.trigger_reached {s : State} {v : View} {b : Blk} {off : Nat} {d : RegDef} (hd : regDefAt b off = some d)
    (hr : s.reaches v b off = true) (hh : holdsReg v b off = true) (w : Word) (body : State → State) :
    s.trigger v b off w body = body (s.writeOwn v b off d w) := by
  rw [State.trigger, hd]
  exact if_pos (by rw [hr, hh]; rfl)

/-- A register none of whose fields has a shadow copy: those a write changes at once change, and no other register. -/
theorem State.writeOwn_atOnce {s : State} {v : View} {b : Blk} {off : Nat} {d : RegDef}
    (hw : d.fields.any (fieldWritable v b d) = true) (ha : d.fields.any actsAtOnce = true)
    (hs : d.fields.any (toShadow v b d) = false) (w : Word) : s.writeOwn v b off d w =
      s.setReg ⟨b, off, s.instOf b d⟩
        (BitVec.ofNat 32 (writeFields d.fields actsAtOnce (s.reg ⟨b, off, s.instOf b d⟩).toNat w.toNat)) := by
  simp only [State.writeOwn, hw, ha, hs, if_true, Bool.false_eq_true, if_false]

/-! ### Recovery -/

/-- RECOV_CTRL as the field maps give it. -/
def recovCtrl : RegDef := ⟨0x38, 1, none, [], [⟨0, 16, .rw, 0⟩, ⟨31, 1, .wo, 0⟩]⟩

/-- RECOV_CTRL takes the length written and keeps the rest. -/
theorem State.writeOwn_recovCtrl (s : State) (v : View) (w : Word) :
    (s.writeOwn v .mgt 0x38 recovCtrl w) = s.setFld Reg.MGT_RECOV_CTRL_LEN_KIB 0 (w.toNat % 65536) := by
  rw [State.writeOwn_atOnce (by cases v <;> rfl) rfl (by cases v <;> rfl)]
  have hword : bitsOf w.toNat 0 16 = w.toNat % 65536 := by simp [bitsOf]
  rw [← hword]
  rfl

theorem State.recovGo_trigger {s : State} {v : View} {w : Word} {img : Option Bytes} (hr : s.reaches v .mgt 0x38 = true)
    (hh : holdsReg v .mgt 0x38 = true) (hgo : bitAt w.toNat 31 = true)
    (hc : s.failCode = 5) (hw : s.boot.recov = .pcie) :
    (s.trigger v .mgt 0x38 w fun s => if bitAt w.toNat 31 then s.recovGo img else s) =
      let t := s.setFld Reg.MGT_RECOV_CTRL_LEN_KIB 0 (w.toNat % 65536)
      if w.toNat % 65536 < 12 ∨ 49152 < w.toNat % 65536 then t.recovRefused 1 1 0
      else match img with
        | none => t.recovRefused 1 3 0
        | some b => t.recovImage 1 (b.take (w.toNat % 65536 * 1024)) := by
  have hlen : (s.setFld Reg.MGT_RECOV_CTRL_LEN_KIB 0 (w.toNat % 65536)).fld Reg.MGT_RECOV_CTRL_LEN_KIB = w.toNat % 65536 :=
    State.fld_setFld_val _ _ _ _ (by decide) (Nat.mod_lt _ (by decide))
  have hcode : (s.setFld Reg.MGT_RECOV_CTRL_LEN_KIB 0 (w.toNat % 65536)).failCode = 5 :=
    (State.fld_setFld_off _ _ _ _ _ _ (by decide)).trans hc
  rw [State.trigger_reached (d := recovCtrl) (by decide) hr hh, if_pos hgo, State.writeOwn_recovCtrl]
  generalize hu : s.setFld Reg.MGT_RECOV_CTRL_LEN_KIB 0 (w.toNat % 65536) = u at *
  have hrecov : u.boot.recov = .pcie := by rw [← hu]; exact hw
  unfold State.recovGo
  rw [if_neg (by rw [show u.fld Reg.MGT_READINESS_FAIL_CODE = 5 from hcode, hrecov]; decide)]
  cases img <;> simp only [hlen]

/-- The verdict on an image rests on what start-up keeps alone. -/
theorem State.verifyImage_congr {s t : State} (h : t.boot = s.boot) (img : Bytes) : t.verifyImage img = s.verifyImage img := by
  simp only [State.verifyImage, State.svnFloor, h]

/-- A refusal reports and leaves the rest. -/
theorem State.recovRefused_spec (s : State) (source cause code : Nat) :
    (s.recovRefused source cause code).boot = s.boot ∧ (s.recovRefused source cause code).stage = s.stage :=
  have h : Fr 0x2c000070000000 s (s.recovRefused source cause code) := State.raise_keeps _ _ _ _
  ⟨h.boot_eq rfl, h.fld_eq _ _ rfl rfl⟩

/-- What the solicitation changes. -/
theorem State.solicit_spec (s : State) : s.solicit.boot = { s.boot with recov := .mge, tftpPeer := none } ∧
    s.solicit.out = (if s.railOk 6 then
      s.out ++ [Out.mgeSolicit (s.reg ⟨.mgt, 0, 0⟩).toNat Config.serial s.svnFloor] else s.out) ∧
    SameBut [.boot, .out] s s.solicit := by
  have hfr : Fr 0x8000008000000 s s.solicit := State.solicit_fr (Fr.refl _ _) (Sub.refl _)
  have heq : s.solicit = if s.railOk 6 then
      { s with boot := { s.boot with recov := .mge, tftpPeer := none },
               out := s.out ++ [Out.mgeSolicit (s.reg ⟨.mgt, 0, 0⟩).toNat Config.serial s.svnFloor] }
      else { s with boot := { s.boot with recov := .mge, tftpPeer := none } } := rfl
  refine ⟨?_, ?_, hfr.within (by decide +kernel)⟩
  all_goals
    rw [heq]
    split <;> rfl

/-- What the verdict on a recovery image leaves, from states that differ in a register alone. -/
theorem State.recovImage_spec (s : State) (source : Nat) (hsrc : source = 1 ∨ source = 2) (img : Bytes) :
    let t := s.recovImage source img
    match s.verifyImage img with
    | .accept i => t.stage = 3 ∧ t.boot.running = i ∧ t.boot.recov = .none ∧ t.fld Reg.MGT_READINESS_IMAGE_SOURCE = source
    | .bad => t = if source = 2 then (s.recovRefused source 2 2).solicit else s.recovRefused source 2 2
    | .rollback => t = if source = 2 then (s.recovRefused source 2 3).solicit else s.recovRefused source 2 3 := by
  intro t
  have ht : t = s.recovImage source img := rfl
  unfold State.recovImage at ht
  cases hv : s.verifyImage img with
  | accept i =>
    rw [hv] at ht
    obtain ⟨h1, h2, h3, -⟩ := s.imageAccepted_spec i img (source := source) (by omega)
    rw [ht]
    exact ⟨h1, by rw [h2], by rw [h2], h3⟩
  | bad => rw [ht, hv]; rfl
  | rollback => rw [ht, hv]; rfl

/-- A refusal of an image that came by management Ethernet. -/
theorem State.recovRefused_solicit (s : State) (cause code : Nat) :
    let t := (s.recovRefused 2 cause code).solicit
    t.stage = s.stage ∧ t.boot.recov = .mge ∧ t.boot.tftpPeer = none ∧
      s.Records t Ev.RECOV_REFUSED 0 (2 + cause * 2 ^ 4 + code * 2 ^ 8) := by
  obtain ⟨hboot, -, -⟩ := (s.recovRefused 2 cause code).solicit_spec
  have hfr : Fr 0x8000008000000 (s.recovRefused 2 cause code) (s.recovRefused 2 cause code).solicit :=
    State.solicit_fr (Fr.refl _ _) (Sub.refl _)
  exact ⟨(hfr.fld_eq _ _ rfl rfl).trans (s.recovRefused_spec 2 cause code).2, by rw [hboot], by rw [hboot], hfr.evr_eq rfl⟩

/-- Once the length is written, the verdicts and the records of refusals are as before. -/
theorem State.recovCtrl_alike (s : State) (n : Nat) :
    let u := s.setFld Reg.MGT_RECOV_CTRL_LEN_KIB 0 n
    u.boot = s.boot ∧ ∀ cause code, (u.recovRefused 1 cause code).boot = s.boot ∧
      (u.recovRefused 1 cause code).stage = s.stage ∧
      s.Records (u.recovRefused 1 cause code) Ev.RECOV_REFUSED 0 (1 + cause * 2 ^ 4 + code * 2 ^ 8) := by
  intro u
  have hfr : Fr 0x1 s u := State.setFld_frame (Fr.refl _ s) rfl rfl
  have hstage : u.stage = s.stage := State.fld_setFld_off _ _ _ _ _ _ (by decide)
  exact ⟨rfl, fun cause code => ⟨(u.recovRefused_spec 1 cause code).1, (u.recovRefused_spec 1 cause code).2.trans hstage,
    State.evr_raise_congr (hfr.recordsAlike ⟨rfl, rfl, rfl, rfl⟩) _ _ _⟩⟩

/-- Settles O10: a refusal is one report, followed by a solicitation where management Ethernet has its turn. -/
theorem recoveryRows : Obligations.RecoveryRows := by
  unfold Obligations.RecoveryRows
  refine ⟨fun s hstrap hpeer hrec => ⟨_, rfl, ?_⟩, fun s hstrap hpeer hrec => ⟨_, rfl, ?_⟩, fun s h => ⟨_, rfl, ?_⟩,
    fun s peer hrec hpeer hrail => ⟨_, rfl, ?_⟩, fun s peer hpeer => ⟨_, rfl, ?_⟩, fun s hrec hpeer => ⟨_, rfl, ?_⟩,
    fun s img hrec hpeer hrail => ⟨_, rfl, ?_⟩, fun s v w img hr hh hgo hc hrec => ⟨_, rfl, ?_⟩,
    fun s v w hr hh hgo hc hrec hlo hhi => ⟨_, rfl, ?_⟩⟩
  case refine_1 =>
    have ht : s.recovSwitch = s.solicit := by simp [State.recovSwitch, hstrap, hpeer, hrec]
    rw [ht]
    exact s.solicit_spec
  case refine_2 => simp [State.recovSwitch, hstrap, hpeer, hrec, State.onBoot]
  case refine_3 => exact if_pos h
  case refine_4 => exact if_pos ⟨hrec, hpeer, hrail⟩
  case refine_5 => exact if_neg fun h => by simp [h.2.1] at hpeer
  case refine_6 =>
    rw [if_pos ⟨hrec, hpeer⟩]
    have href : Fr 0x2c000070000000 s (s.recovRefused 2 3 0) := State.raise_keeps _ _ _ _
    have hfr : Fr 0x8000008000000 (s.recovRefused 2 3 0) (s.recovRefused 2 3 0).solicit := State.solicit_fr (Fr.refl _ _) (Sub.refl _)
    obtain ⟨hboot, hout, -⟩ := (s.recovRefused 2 3 0).solicit_spec
    refine ⟨by rw [hboot, href.boot_eq rfl], hfr.evr_eq rfl, fun hrail => ⟨(s.recovRefused 2 3 0).out, ?_⟩, ?_⟩
    · have hrail' : (s.recovRefused 2 3 0).railOk 6 = true := by rw [State.railOk, href.boot_eq rfl]; exact hrail
      rw [hout, if_pos hrail', href.reg_eq _ rfl rfl, State.svnFloor, href.boot_eq rfl, State.svnFloor]
    · refine Fr.within (X := 0x2c000078000000) ?_ (by decide +kernel)
      exact State.solicit_fr (href.weaken rfl) rfl
  case refine_7 =>
    rw [if_pos ⟨hrec, hpeer, hrail⟩]
    have h := s.recovImage_spec 2 (.inr rfl) img
    cases hv : s.verifyImage img with
    | accept i =>
      rw [hv] at h
      exact h
    | bad =>
      rw [hv] at h
      exact h ▸ s.recovRefused_solicit 2 2
    | rollback =>
      rw [hv] at h
      exact h ▸ s.recovRefused_solicit 2 3
  case refine_8 =>
    rw [State.recovGo_trigger hr hh hgo hc hrec]
    obtain ⟨hboot, hrefused⟩ := s.recovCtrl_alike (w.toNat % 65536)
    have himg := (s.setFld Reg.MGT_RECOV_CTRL_LEN_KIB 0 (w.toNat % 65536)).recovImage_spec 1 (.inl rfl)
      (img.take (w.toNat % 65536 * 1024))
    rw [State.verifyImage_congr hboot] at himg
    generalize s.setFld Reg.MGT_RECOV_CTRL_LEN_KIB 0 (w.toNat % 65536) = u at *
    by_cases hlen : w.toNat % 65536 < 12 ∨ 49152 < w.toNat % 65536
    · simp only [if_pos hlen]
      exact hrefused 1 0
    · simp only [if_neg hlen]
      cases hv : s.verifyImage (img.take (w.toNat % 65536 * 1024)) with
      | accept i =>
        rw [hv] at himg
        exact himg
      | bad =>
        rw [hv] at himg
        exact himg ▸ hrefused 2 2
      | rollback =>
        rw [hv] at himg
        exact himg ▸ hrefused 2 3
  case refine_9 =>
    rw [State.recovGo_trigger hr hh hgo hc hrec]
    simp only [if_neg (show ¬(w.toNat % 65536 < 12 ∨ 49152 < w.toNat % 65536) by omega)]
    exact (s.recovCtrl_alike (w.toNat % 65536)).2 3 0

end Sys2Proof.Machine


/-!
PROOFS. Reading one field after another is written, whatever the instances; what a fold keeps.
-/

namespace Sys2Proof.Machine

/-- Two fields share no bit, in whatever instances: they stand at different offsets or in different bits of one register. -/
def Fld.clearOf (f g : Fld) : Bool :=
  decide ((g.blk, g.off) ≠ (f.blk, f.off)) ||
    (decide (f.lsb + f.width ≤ 32) && decide (g.lsb + g.width ≤ 32) &&
      (decide (g.lsb + g.width ≤ f.lsb) || decide (f.lsb + f.width ≤ g.lsb)))

theorem Fld.clearOf_of_off {f g : Fld} (h : g.off ≠ f.off) : f.clearOf g = true := by
  simp [Fld.clearOf, h]

theorem Fld.clearOf_of_blk {f g : Fld} (h : g.blk ≠ f.blk) : f.clearOf g = true := by
  simp [Fld.clearOf, h]

theorem State.fld_setFld_inst (s : State) (f g : Fld) (i j v : Nat) (h : j ≠ i) : (s.setFld f i v).fld g j = s.fld g j := by
  rw [State.fld, State.reg_setFld_ne _ _ _ _ _ fun e => h (congrArg RegKey.inst e), State.fld]

theorem State.fld_setFld_clear (s : State) (f g : Fld) (i j v : Nat) (h : f.clearOf g = true) :
    (s.setFld f i v).fld g j = s.fld g j := by
  by_cases hij : j = i
  · simp only [Fld.clearOf, Bool.or_eq_true, Bool.and_eq_true, decide_eq_true_eq] at h
    by_cases hk : (g.blk, g.off) = (f.blk, f.off)
    · obtain ⟨⟨hf, hg⟩, hd⟩ := h.resolve_left fun e => e hk
      rw [hij, State.fld_setFld_apart _ _ _ _ _ hk hf hg hd]
    · exact State.fld_setFld_off _ _ _ _ _ _ hk
  · exact State.fld_setFld_inst _ _ _ _ _ _ hij

/-- The field written, of the same or of another instance. -/
theorem State.fld_setFld (s : State) (f : Fld) (i j v : Nat) (h : f.lsb + f.width ≤ 32) :
    (s.setFld f i v).fld f j = if j = i then v % 2 ^ f.width else s.fld f j := by
  by_cases hij : j = i
  · rw [hij, if_pos rfl, State.fld_setFld_self _ _ _ _ h]
  · rw [if_neg hij, State.fld_setFld_inst _ _ _ _ _ _ hij]

theorem State.fld_setFlag_clear (s : State) (f g : Fld) (i j : Nat) (b : Bool) (h : f.clearOf g = true) :
    (s.setFlag f i b).fld g j = s.fld g j := State.fld_setFld_clear _ _ _ _ _ _ h

theorem State.fld_bump_clear (s : State) (f g : Fld) (i j n : Nat) (h : f.clearOf g = true) :
    (s.bump f i n).fld g j = s.fld g j := State.fld_setFld_clear _ _ _ _ _ _ h

theorem State.fld_bumpWrap_clear (s : State) (f g : Fld) (i j n : Nat) (h : f.clearOf g = true) :
    (s.bumpWrap f i n).fld g j = s.fld g j := State.fld_setFld_clear _ _ _ _ _ _ h

theorem State.flag_setFld_clear (s : State) (f g : Fld) (i j v : Nat) (h : f.clearOf g = true) :
    (s.setFld f i v).flag g j = s.flag g j := by rw [State.flag, State.fld_setFld_clear _ _ _ _ _ _ h, State.flag]

theorem State.flag_setFlag_clear (s : State) (f g : Fld) (i j : Nat) (b : Bool) (h : f.clearOf g = true) :
    (s.setFlag f i b).flag g j = s.flag g j := State.flag_setFld_clear _ _ _ _ _ _ h

theorem State.fld_lt (s : State) (f : Fld) (i : Nat) : s.fld f i < 2 ^ f.width := Nat.mod_lt _ (Nat.two_pow_pos _)

/-- A counter of 16 bits as the rows state it. -/
theorem State.fld_bump_sat (s : State) (f : Fld) (i n : Nat) (h : f.lsb + f.width ≤ 32) :
    (s.bump f i n).fld f i = satAdd (2 ^ f.width - 1) (s.fld f i) n := by
  rw [State.fld_bump_self _ _ _ _ h, satAdd]

/-- What every step of a fold keeps, the fold keeps. -/
theorem foldl_keeps {α β γ : Type*} {f : β → α → β} {P : β → γ} {l : List α} (h : ∀ b, ∀ a ∈ l, P (f b a) = P b) (b : β) :
    P (l.foldl f b) = P b := by
  induction l generalizing b with
  | nil => rfl
  | cons a l ih => exact (ih (fun b x hx => h b x (by simp [hx])) _).trans (h b a (by simp))

end Sys2Proof.Machine


/-!
PROOFS. What an event leaves of management, and what keeps the causes for which the core, a lane or a group is dark (R46, R212, R488).
-/

namespace Sys2Proof.Machine

/-! ### Management after an event -/

/-- Two states differ, in what management holds, in alerts and console lines alone. -/
def State.MgmtReports (s t : State) : Prop := ∃ a c, t.mgmt = { s.mgmt with alerts := a, console := c }

theorem State.MgmtReports.rfl {s : State} : s.MgmtReports s := ⟨_, _, by rfl⟩

theorem State.MgmtReports.of_eq {s t : State} (h : t.mgmt = s.mgmt) : s.MgmtReports t := ⟨_, _, h⟩

theorem State.MgmtReports.trans {s t u : State} (h : s.MgmtReports t) (k : t.MgmtReports u) : s.MgmtReports u := by
  obtain ⟨a, c, h⟩ := h
  obtain ⟨a', c', k⟩ := k
  exact ⟨a', c', by rw [k, h]⟩

theorem State.mgmtReports_alertJoin (s : State) (r : EvRecord) : s.MgmtReports (s.alertJoin r) := by
  unfold State.alertJoin
  split
  · dsimp only
    split <;> exact ⟨_, _, rfl⟩
  · exact .rfl

theorem State.mgmtReports_consoleLine (s : State) (r : EvRecord) : s.MgmtReports (s.consoleLine r) := by
  unfold State.consoleLine
  split
  · dsimp only
    split <;> exact ⟨_, _, rfl⟩
  · exact .rfl

theorem State.mgmt_persist (s : State) (r : EvRecord) : (s.persist r).2.mgmt = s.mgmt := by
  unfold State.persist
  split
  · split <;> rfl
  · rfl

theorem State.mgmtReports_appendRecord (s : State) (r : EvRecord) : s.MgmtReports (s.appendRecord r) := by
  unfold State.appendRecord
  dsimp only
  refine .trans (.trans ?_ (State.mgmtReports_alertJoin _ _)) (State.mgmtReports_consoleLine _ _)
  split <;> exact .of_eq (s.mgmt_persist _)

theorem State.mgmtReports_recordEvent (s : State) (e : EvRecord) : s.MgmtReports (s.recordEvent e) := by
  unfold State.recordEvent
  dsimp only
  split
  · exact State.mgmtReports_appendRecord _ _
  · split
    · exact .trans (.of_eq (State.setBucket_mgmt _ _ _)) (State.mgmtReports_appendRecord _ _)
    · exact .of_eq rfl

theorem State.mgmtReports_raise (s : State) (c i d : Nat) (fn : Nat := 0) (m : Bytes := []) : s.MgmtReports (s.raise c i d fn m) := by
  have h : s.MgmtReports (s.record c i d m) := s.mgmtReports_recordEvent _
  have hpost (t : State) : (t.post fn c i d).mgmt = t.mgmt := (State.post_fr (Fr.refl _ t) (Sub.refl _)).mgmt_eq rfl
  have hready (t : State) : (t.postReady d).mgmt = t.mgmt := (State.postReady_fr (Fr.refl _ t) (Sub.refl _)).mgmt_eq rfl
  unfold State.raise
  dsimp only
  split
  · exact h.trans (.of_eq (hready _))
  · split
    · exact h.trans (.of_eq (hpost _))
    · exact h

/-! ### Causes of darkness -/

/-- Pacing but for what was announced to the engines last. -/
def PowerState.unannounced (p : PowerState) : PowerState := { p with annBow := 0, annStern := 0 }

/-- What decides, beside the set-up, whether the core, a lane or a port group may run, with the rest of pacing. -/
def State.causes (s : State) : BootState × Option JtagInstr × PowerState × List Nat × AMap Nat (List Nat) :=
  (s.boot, s.mgmt.jtag, s.power.unannounced, s.swc.bypassed, s.swc.bypassMarks)

section
variable {s t : State} (h : t.causes = s.causes)
include h

theorem State.boot_of_causes : t.boot = s.boot := congrArg Prod.fst h

theorem State.oeTrip_of_causes : t.power.oeTrip = s.power.oeTrip := congrArg (·.2.2.1.oeTrip) h

theorem State.critical_of_causes : t.power.critical = s.power.critical := congrArg (·.2.2.1.critical) h

theorem State.railOk_of_causes (r : Nat) : t.railOk r = s.railOk r := by
  rw [State.railOk, State.boot_of_causes h, State.railOk]

theorem State.coreOff_of_causes : t.coreOff = s.coreOff := by
  rw [State.coreOff, State.coreOff, State.railOk_of_causes h, State.boot_of_causes h, State.pinsScanned, State.pinsScanned,
    show t.mgmt.jtag = s.mgmt.jtag from congrArg (·.2.1) h]

theorem State.groupMayRun_of_causes (g : Nat) : t.groupMayRun g = s.groupMayRun g := by
  rw [State.groupMayRun, State.groupMayRun, State.coreOff_of_causes h, State.railOk_of_causes h, State.oeTrip_of_causes h]

theorem State.bypassedGroups_of_causes : t.bypassedGroups = s.bypassedGroups := by
  rw [State.bypassedGroups, State.bypassedGroups, show t.swc.bypassed = s.swc.bypassed from congrArg (·.2.2.2.1) h,
    show t.swc.bypassMarks = s.swc.bypassMarks from congrArg (·.2.2.2.2) h]

end

/-- An operation that leaves those parts alone. -/
theorem Fr.causes_eq {X : Nat} {s t : State} (h : Fr X s t)
    (hX : X.testBit 27 = false ∧ X.testBit 28 = false ∧ X.testBit 34 = false ∧ X.testBit 36 = false) : t.causes = s.causes := by
  rw [State.causes, State.causes, h.boot_eq hX.1, h.mgmt_eq hX.2.1, h.power_eq hX.2.2.1, h.swc_eq hX.2.2.2]

@[simp] theorem State.causes_raise (s : State) (c i d : Nat) (fn : Nat := 0) (m : Bytes := []) : (s.raise c i d fn m).causes = s.causes := by
  have hfr := s.raise_keeps c i d fn m
  obtain ⟨a, b, hm⟩ := s.mgmtReports_raise c i d fn m
  rw [State.causes, State.causes, hfr.boot_eq rfl, hfr.power_eq rfl, hfr.swc_eq rfl, hm]

@[simp] theorem State.causes_settFree (s : State) (n : Nat) : (s.settFree n).causes = s.causes := by
  unfold State.settFree
  dsimp only
  split
  · exact State.causes_raise _ _ _ _
  · split
    · rfl
    · exact (State.settFill_fr (Fr.refl _ _) (Sub.refl _)).causes_eq ⟨rfl, rfl, rfl, rfl⟩

@[simp] theorem State.causes_settFrees (s : State) (l : List Nat) : (s.settFrees l).causes = s.causes :=
  foldl_keeps (fun t n _ => t.causes_settFree n) s

@[simp] theorem State.causes_flushPort (s : State) (p : Nat) : (s.flushPort p).causes = s.causes := by
  refine foldl_keeps (fun t q _ => ?_) s
  refine Eq.trans (foldl_keeps (P := State.causes) (fun u d _ => ?_) _) rfl
  exact u.causes_settFrees d.setts

@[simp] theorem State.causes_llrReset (s : State) (p : Nat) : (s.llrReset p).causes = s.causes := by
  unfold State.llrReset
  split
  · rfl
  · next x _ =>
    refine Eq.trans rfl (foldl_keeps (P := State.causes) (fun u h _ => ?_) s (l := x.held))
    exact u.causes_settFrees h.2.2

@[simp] theorem State.causes_liftCore (s : State) : s.liftCore.causes = s.causes := by
  unfold State.liftCore
  split <;> rfl

@[simp] theorem State.causes_showTraffic (s : State) : s.showTraffic.causes = s.causes := by
  unfold State.showTraffic
  dsimp only
  split
  · exact State.causes_liftCore _
  · rfl

/-- What is done of a link that was up, before its queues are flushed. -/
def State.linkFalls (s : State) (p : Nat) : State :=
  let s1 := s.setPortSt p { s.portSt p with up := false }
  if p < 512 then s1.setFld { Reg.OPT_PG_STATUS_PORTS_UP with lsb := 8 + p % 8, width := 1 } (p / 8) 0
  else (s1.elanes p).foldl (fun s l => s.setFld Reg.ELN_LANE_STATUS_STATE l 5) s1

theorem State.linkDown_of_up {s : State} {p : Nat} (hup : s.portUp p = true) : s.linkDown p =
    (if (((s.linkFalls p).flushPort p).llrReset p).encrypts p then
      (((s.linkFalls p).flushPort p).llrReset p).linkDrop p else ((s.linkFalls p).flushPort p).llrReset p).showTraffic := by
  unfold State.linkDown State.linkFalls
  rw [hup]
  rfl

theorem State.linkDown_of_down {s : State} {p : Nat} (hup : s.portUp p = false) : s.linkDown p = s := by
  rw [State.linkDown, if_pos (by rw [hup]; rfl)]

@[simp] theorem State.causes_linkDown (s : State) (p : Nat) : (s.linkDown p).causes = s.causes := by
  have hdrop (t : State) : (t.linkDrop p).causes = t.causes :=
    (State.linkDrop_fr (Fr.refl _ _) (Sub.refl _)).causes_eq ⟨rfl, rfl, rfl, rfl⟩
  have hfalls : (s.linkFalls p).causes = s.causes := by
    unfold State.linkFalls
    dsimp only
    split
    · rfl
    · refine Eq.trans (foldl_keeps (P := State.causes) (fun u l _ => ?_) _) rfl
      rfl
  cases hup : s.portUp p with
  | false => rw [State.linkDown_of_down hup]
  | true =>
    rw [State.linkDown_of_up hup, State.causes_showTraffic]
    split
    · rw [hdrop, State.causes_llrReset, State.causes_flushPort, hfalls]
    · rw [State.causes_llrReset, State.causes_flushPort, hfalls]

end Sys2Proof.Machine


/-!
PROOFS. Port groups and electrical lanes: what a link that goes down, a group that stops and a group that acquires leave in
PG_STATUS and LANE_STATUS (R156, R177, R204).
-/

namespace Sys2Proof.Machine

/-! ### A link that goes down -/

/-- Beyond that, a link that goes down leaves PG_STATUS and LANE_STATUS alone. -/
theorem State.fld_linkDown (s : State) (p : Nat) (f : Fld) (i : Nat) (hf : f.blk = .opt ∨ f.blk = .eln)
    (hc : countsEvents f.blk f.off = false) :
    (s.linkDown p).fld f i = if s.portUp p = true then (s.linkFalls p).fld f i else s.fld f i := by
  by_cases hup : s.portUp p = true
  · rw [if_pos hup]
    have hrest (X : Nat) (t u : State) (h : Fr X t u) (hX : X.testBit 16 = false ∧ X.testBit 17 = false) : u.fld f i = t.fld f i :=
      h.fld_eq _ _ (by rcases hf with hf | hf <;> rw [hf]; exacts [hX.1, hX.2]) hc
    rw [State.linkDown_of_up hup, hrest _ _ _ (State.showTraffic_fr (Fr.refl _ _) (Sub.refl _)) ⟨rfl, rfl⟩]
    have hllr : (((s.linkFalls p).flushPort p).llrReset p).fld f i = (s.linkFalls p).fld f i :=
      (hrest _ _ _ (State.llrReset_fr (Fr.refl _ _) (Sub.refl _)) ⟨rfl, rfl⟩).trans
        (hrest _ _ _ (State.flushPort_fr (Fr.refl _ _) (Sub.refl _)) ⟨rfl, rfl⟩)
    split
    · exact (hrest _ _ _ (State.linkDrop_fr (Fr.refl _ _) (Sub.refl _)) ⟨rfl, rfl⟩).trans hllr
    · exact hllr
  · rw [if_neg hup, State.linkDown_of_down (by simpa using hup)]

theorem State.fld_linkFalls_opt (s : State) (p : Nat) (f : Fld) (i : Nat) (hf : f.blk = .opt)
    (hclear : ∀ b < 8, Fld.clearOf { Reg.OPT_PG_STATUS_PORTS_UP with lsb := 8 + b, width := 1 } f = true) :
    (s.linkFalls p).fld f i = s.fld f i := by
  unfold State.linkFalls
  dsimp only
  split
  · exact State.fld_setFld_clear _ _ _ _ _ _ (hclear _ (Nat.mod_lt _ (by decide)))
  · refine foldl_keeps (P := fun t : State => t.fld f i) (fun t l _ => ?_) _
    exact State.fld_setFld_clear _ _ _ _ _ _ (by simp [Fld.clearOf, hf, Reg.ELN_LANE_STATUS_STATE])

@[simp] theorem State.groupSt_linkDown (s : State) (p g : Nat) : (s.linkDown p).groupSt g = s.groupSt g := by
  rw [State.groupSt, State.fld_linkDown _ _ _ _ (.inl rfl) rfl, State.fld_linkFalls_opt _ _ _ _ rfl (by decide), ite_self, State.groupSt]

/-- A link that goes down fails its own lanes alone. -/
theorem State.laneSt_linkDown (s : State) (p l : Nat) (h : p < 512 ∨ l < p - 512) : (s.linkDown p).laneSt l = s.laneSt l := by
  have hfalls : (s.linkFalls p).fld Reg.ELN_LANE_STATUS_STATE l = s.fld Reg.ELN_LANE_STATUS_STATE l := by
    unfold State.linkFalls
    dsimp only
    split
    · exact State.fld_setFld_clear _ _ _ _ _ _ (by simp [Fld.clearOf, Reg.ELN_LANE_STATUS_STATE, Reg.OPT_PG_STATUS_PORTS_UP])
    · next hp =>
      refine foldl_keeps (P := fun t : State => t.fld Reg.ELN_LANE_STATUS_STATE l) (fun t m hm => ?_) _
      refine State.fld_setFld_inst _ _ _ _ _ _ fun e => ?_
      simp only [State.elanes, List.mem_map] at hm
      omega
  rw [State.laneSt, State.fld_linkDown _ _ _ _ (.inr rfl) rfl, hfalls, ite_self, State.laneSt]

theorem State.fld_showTraffic_pwr (s : State) (f : Fld) (i : Nat) (ho : f.off ≠ 0x188) :
    s.showTraffic.fld f i = s.fld f i := by
  have hflag : (s.setFlag Reg.PWR_VFLOOR_STATUS_TRAFFIC 0 s.anyTraffic).fld f i = s.fld f i :=
    State.fld_setFlag_clear _ _ _ _ _ _ (Fld.clearOf_of_off ho)
  unfold State.showTraffic
  dsimp only
  split
  · refine Eq.trans ?_ hflag
    unfold State.liftCore
    split
    · exact State.fld_setFld_clear _ _ _ _ _ _ (Fld.clearOf_of_off ho)
    · rfl
  · exact hflag

/-- Of the pacing registers a link that goes down changes VFLOOR_STATUS alone. -/
theorem State.fld_linkDown_pwr (s : State) (p : Nat) (f : Fld) (i : Nat) (hf : f.blk = .pwr) (ho : f.off ≠ 0x188) :
    (s.linkDown p).fld f i = s.fld f i := by
  have hc : countsEvents f.blk f.off = false := by rw [hf]; rfl
  have hrest {X : Nat} {t u : State} (h : Fr X t u) (hX : X.testBit 22 = false) : u.fld f i = t.fld f i :=
    h.fld_eq _ _ (by rw [hf]; exact hX) hc
  have hfalls : (s.linkFalls p).fld f i = s.fld f i := by
    have hblk (g : Fld) (hg : g.blk ≠ .pwr) : g.clearOf f = true := Fld.clearOf_of_blk (by rw [hf]; exact hg.symm)
    unfold State.linkFalls
    dsimp only
    split
    · exact State.fld_setFld_clear _ _ _ _ _ _ (hblk _ fun e => nomatch e)
    · exact foldl_keeps (P := fun t : State => t.fld f i) (fun t l _ => State.fld_setFld_clear _ _ _ _ _ _ (hblk _ (by decide))) _
  have hllr : (((s.linkFalls p).flushPort p).llrReset p).fld f i = s.fld f i :=
    (hrest (State.llrReset_fr (Fr.refl _ _) (Sub.refl _)) rfl).trans
      ((hrest (State.flushPort_fr (Fr.refl _ _) (Sub.refl _)) rfl).trans hfalls)
  cases hup : s.portUp p with
  | false => rw [State.linkDown_of_down hup]
  | true =>
    rw [State.linkDown_of_up hup, State.fld_showTraffic_pwr _ _ _ ho]
    split
    · exact (hrest (State.linkDrop_fr (Fr.refl _ _) (Sub.refl _)) rfl).trans hllr
    · exact hllr

/-! ### A group that stops or acquires -/

@[simp] theorem State.groupSt_portsDown (s : State) (g g' : Nat) : (s.portsDown g).groupSt g' = s.groupSt g' :=
  foldl_keeps (P := fun t : State => t.groupSt g') (fun t _ _ => t.groupSt_linkDown _ _) s

theorem State.laneSt_portsDown (s : State) {g : Nat} (hg : g < 64) (l : Nat) : (s.portsDown g).laneSt l = s.laneSt l := by
  refine foldl_keeps (P := fun t : State => t.laneSt l) (fun t p hp => ?_) s
  have := List.mem_range.1 hp
  exact State.laneSt_linkDown _ _ _ (.inl (by omega))

theorem State.groupSt_setGroupSt (s : State) (g g' : Nat) {v : Nat} (hv : v < 8) :
    (s.setGroupSt g v).groupSt g' = if g' = g then v else s.groupSt g' := by
  rw [State.setGroupSt, State.groupSt, State.fld_setFld _ _ _ _ _ (by decide), Nat.mod_eq_of_lt (show v < 2 ^ Reg.OPT_PG_STATUS_STATE.width from hv), State.groupSt]

@[simp] theorem State.groupSt_setChanSt (s : State) (g c v g' : Nat) : (s.setChanSt g c v).groupSt g' = s.groupSt g' := by
  unfold State.setChanSt
  split
  · rfl
  · exact State.fld_setFld_clear _ _ _ _ _ _ (by decide)

@[simp] theorem State.groupSt_showBinding (s : State) (g g' : Nat) : (s.showBinding g).groupSt g' = s.groupSt g' := by
  refine (State.fld_setFld_clear _ _ _ _ _ _ (by decide)).trans ?_
  exact foldl_keeps (P := fun t : State => t.groupSt g') (fun t c _ => State.fld_setFld_clear _ _ _ _ _ _ (by decide)) s

theorem State.groupSt_groupStop (s : State) (g g' : Nat) {st : Nat} (hst : st < 8) :
    (s.groupStop g st).groupSt g' = if g' = g then st else s.groupSt g' := by
  have hchans (t : State) : ((List.range 17).foldl (fun (s : State) c =>
      ((s.setChanSt g c csDOWN).setFlag Reg.OPT_LANE_STATUS_TX_LOCK (chanInst g c) false).setFlag
        Reg.OPT_LANE_STATUS_RX_LOCK (chanInst g c) false) t).groupSt g' = t.groupSt g' := by
    refine foldl_keeps (P := fun t : State => t.groupSt g') (fun t c _ => ?_) t
    exact (State.fld_setFlag_clear _ _ _ _ _ _ (by decide)).trans
      ((State.fld_setFlag_clear _ _ _ _ _ _ (by decide)).trans (t.groupSt_setChanSt _ _ _ _))
  refine (State.groupSt_showBinding _ _ _).trans ((hchans _).trans ?_)
  rw [State.groupSt_setGroupSt _ _ _ hst, State.groupSt_portsDown]

/-- Once its ports are down, a group that stops touches its own registers and lane state alone. -/
theorem State.groupStop_frame (s : State) (g st : Nat) : Fr 0x20200000010000 (s.portsDown g) (s.groupStop g st) := by
  have hF : okBlk 0x20200000010000 .opt = true := rfl
  refine State.showBinding_fr (State.dropStreams_fr (State.onGrp_fr (Fr.foldl ?_ fun t c ht => ?_) rfl) rfl) rfl
  · exact State.setGroupSt_fr (Fr.refl _ _) rfl
  · exact State.setFlag_fr (State.setFlag_fr (State.setChanSt_fr ht rfl) hF) hF

theorem State.laneSt_groupStop (s : State) {g : Nat} (hg : g < 64) (st l : Nat) : (s.groupStop g st).laneSt l = s.laneSt l :=
  ((s.groupStop_frame g st).fld_eq _ _ rfl rfl).trans (s.laneSt_portsDown hg l)

/-- A field of the port groups that stands neither in PG_STATUS nor in LANE_STATUS. -/
theorem State.fld_groupStop_opt (s : State) (g st : Nat) (f : Fld) (i : Nat) (hf : f.blk = .opt) (ho : f.off ≠ 0x20 ∧ f.off ≠ 0x104) :
    (s.groupStop g st).fld f i = s.fld f i := by
  obtain ⟨hpg, hlane⟩ := ho
  have hc : countsEvents f.blk f.off = false := by rw [hf]; rfl
  have hlink (t : State) (p : Nat) : (t.linkDown p).fld f i = t.fld f i := by
    rw [State.fld_linkDown _ _ _ _ (.inl hf) hc, State.fld_linkFalls_opt _ _ _ _ hf fun b _ => Fld.clearOf_of_off hpg, ite_self]
  have hports : (s.portsDown g).fld f i = s.fld f i := foldl_keeps (P := fun t : State => t.fld f i) (fun t _ _ => hlink t _) s
  have hset (t : State) (c v : Nat) : (t.setChanSt g c v).fld f i = t.fld f i := by
    unfold State.setChanSt
    split
    · rfl
    · exact State.fld_setFld_clear _ _ _ _ _ _ (Fld.clearOf_of_off hlane)
  have hchans (t : State) : ((List.range 17).foldl (fun (s : State) c =>
      ((s.setChanSt g c csDOWN).setFlag Reg.OPT_LANE_STATUS_TX_LOCK (chanInst g c) false).setFlag
        Reg.OPT_LANE_STATUS_RX_LOCK (chanInst g c) false) t).fld f i = t.fld f i := by
    refine foldl_keeps (P := fun t : State => t.fld f i) (fun t c _ => ?_) t
    rw [State.fld_setFlag_clear _ _ _ _ _ _ (Fld.clearOf_of_off hlane), State.fld_setFlag_clear _ _ _ _ _ _ (Fld.clearOf_of_off hlane), hset]
  have hshow (t : State) : (t.showBinding g).fld f i = t.fld f i := by
    refine (State.fld_setFld_clear _ _ _ _ _ _ (Fld.clearOf_of_off hpg)).trans ?_
    exact foldl_keeps (P := fun t : State => t.fld f i) (fun t c _ => State.fld_setFld_clear _ _ _ _ _ _ (Fld.clearOf_of_off hlane)) t
  refine (hshow _).trans ((hchans _).trans ?_)
  exact (State.fld_setFld_clear _ _ _ _ _ _ (Fld.clearOf_of_off hpg)).trans hports

@[simp] theorem State.causes_groupStop (s : State) (g st : Nat) : (s.groupStop g st).causes = s.causes :=
  ((s.groupStop_frame g st).causes_eq ⟨rfl, rfl, rfl, rfl⟩).trans (foldl_keeps (fun t _ _ => t.causes_linkDown _) s)

/-- The core's voltage is a matter of pacing registers. -/
theorem State.liftCore_frame (s : State) : Fr 0x8000400400000 s s.liftCore := by
  unfold State.liftCore
  split
  · exact State.emit_fr (State.emit_fr (Fr.power_ (State.setFld_frame (Fr.refl _ s) rfl rfl) rfl) rfl) rfl
  · exact Fr.refl _ s

/-- The states of channels that acquire do not show in PG_STATUS. -/
theorem State.groupAcquire_eq (s : State) (g : Nat) : s.groupAcquire g =
    if s.groupMayRun g = false then s
    else if s.bypassedGroups.contains g = true then s.groupStop g gsWATCH
    else (List.range 17).foldl (fun s c =>
      ((s.setChanSt g c csACQUIRING).setFld Reg.OPT_LANE_STATUS_HEATER (chanInst g c) 0).setOch g c
        { s.och g c with rxHeater := 0, acquireFail := false, txIn := 0, txOut := 0, rxIn := 0, rxOut := 0 })
      (s.groupStop g gsACQUIRING).liftCore := by
  unfold State.groupAcquire
  cases s.groupMayRun g <;> rfl

theorem State.groupSt_groupAcquire (s : State) (g g' : Nat) : (s.groupAcquire g).groupSt g' =
    if g' = g ∧ s.groupMayRun g = true then (if s.bypassedGroups.contains g = true then gsWATCH else gsACQUIRING)
    else s.groupSt g' := by
  rw [State.groupAcquire_eq]
  cases s.groupMayRun g with
  | false => simp
  | true =>
    rw [if_neg (by decide)]
    by_cases hb : s.bypassedGroups.contains g = true
    · simp only [if_pos hb, and_true]
      exact State.groupSt_groupStop _ _ _ (by decide)
    · simp only [if_neg hb, and_true]
      refine Eq.trans (foldl_keeps (P := fun t : State => t.groupSt g') (fun t c _ => ?_) _) ?_
      · exact (State.fld_setFld_clear _ _ _ _ _ _ (by decide)).trans (t.groupSt_setChanSt _ _ _ _)
      · exact ((State.liftCore_frame _).fld_eq _ _ rfl rfl).trans (State.groupSt_groupStop _ _ _ (by decide))

theorem State.fld_groupAcquire_opt (s : State) (g : Nat) (f : Fld) (i : Nat) (hf : f.blk = .opt) (ho : f.off ≠ 0x20 ∧ f.off ≠ 0x104) :
    (s.groupAcquire g).fld f i = s.fld f i := by
  rw [State.groupAcquire_eq]
  split
  · rfl
  · split
    · exact s.fld_groupStop_opt _ _ _ _ hf ho
    · refine Eq.trans (foldl_keeps (P := fun t : State => t.fld f i) (fun t c _ => ?_) _)
        (((State.liftCore_frame _).fld_eq _ _ (by rw [hf]; rfl) (by rw [hf]; rfl)).trans (s.fld_groupStop_opt _ _ _ _ hf ho))
      refine (State.fld_setFld_clear _ _ _ _ _ _ (Fld.clearOf_of_off ho.2)).trans ?_
      unfold State.setChanSt
      split
      · rfl
      · exact State.fld_setFld_clear _ _ _ _ _ _ (Fld.clearOf_of_off ho.2)

@[simp] theorem State.causes_groupAcquire (s : State) (g : Nat) : (s.groupAcquire g).causes = s.causes := by
  rw [State.groupAcquire_eq]
  split
  · rfl
  · split
    · exact State.causes_groupStop _ _ _
    · refine Eq.trans (foldl_keeps (P := State.causes) (fun t c _ => ?_) _)
        ((State.causes_liftCore _).trans (State.causes_groupStop _ _ _))
      unfold State.setChanSt
      split <;> rfl

/-! ### The core stops -/

/-- Every group that is not off stops. -/
def State.groupsOff (s : State) (l : List Nat) : State :=
  l.foldl (fun (s : State) g => if s.groupSt g = gsOFF then s else s.groupStop g gsOFF) s

theorem State.groupSt_groupsOff (l : List Nat) (s : State) (g : Nat) :
    (s.groupsOff l).groupSt g = if g ∈ l then gsOFF else s.groupSt g := by
  induction l generalizing s with
  | nil => simp [State.groupsOff]
  | cons x l ih =>
    have hx : (if s.groupSt x = gsOFF then s else s.groupStop x gsOFF).groupSt g = if g = x then gsOFF else s.groupSt g := by
      by_cases h : s.groupSt x = gsOFF
      · rw [if_pos h]
        split
        · next e => rw [e, h]
        · rfl
      · rw [if_neg h, State.groupSt_groupStop _ _ _ (by decide)]
    refine (ih _).trans ?_
    rw [hx]
    by_cases hg : g = x <;> simp [hg]

/-- One lane after another is off, when each step puts its own lane off and leaves those before it alone. -/
theorem laneSt_off {f : State → Nat → State} (hself : ∀ s l, (f s l).laneSt l = 0)
    (hbelow : ∀ s l m, m < l → (f s l).laneSt m = s.laneSt m) (n : Nat) (s : State) :
    ∀ l < n, ((List.range n).foldl f s).laneSt l = 0 := by
  induction n with
  | zero => intro l hl; omega
  | succ n ih =>
    intro l hl
    rw [List.range_succ, List.foldl_append]
    by_cases h : l = n
    · rw [h]; exact hself _ _
    · exact (hbelow _ _ _ (by omega)).trans (ih l (by omega))

theorem State.laneSt_setLaneSt (s : State) (l m : Nat) {v : Nat} (hv : v < 8) :
    (s.setLaneSt l v).laneSt m = if m = l then v else s.laneSt m := by
  rw [State.setLaneSt, State.laneSt, State.fld_setFld _ _ _ _ _ (by decide),
    Nat.mod_eq_of_lt (show v < 2 ^ Reg.ELN_LANE_STATUS_STATE.width from hv), State.laneSt]

@[simp] theorem State.groupSt_setLaneSt (s : State) (l v g : Nat) : (s.setLaneSt l v).groupSt g = s.groupSt g :=
  State.fld_setFld_clear _ _ _ _ _ _ (by decide)

/-- A lane that is put off after its link went down. -/
def State.laneOff (s : State) (l : Nat) : State := if s.laneSt l = 0 then s else s.setLaneSt l 0

theorem State.laneSt_laneOff (s : State) (l m : Nat) : (s.laneOff l).laneSt m = if m = l then 0 else s.laneSt m := by
  unfold State.laneOff
  split
  · split
    · next h e => rw [e, h]
    · rfl
  · exact State.laneSt_setLaneSt _ _ _ (by decide)

@[simp] theorem State.groupSt_laneOff (s : State) (l g : Nat) : (s.laneOff l).groupSt g = s.groupSt g := by
  unfold State.laneOff
  split
  · rfl
  · exact State.groupSt_setLaneSt _ _ _ _

/-- The core's stop, one stage after another. -/
theorem State.coreStops_eq (s : State) : s.coreStops = ((List.range 16).foldl (fun (s : State) g => s.lineRefresh g)
    ((List.range 64).foldl (fun (s : State) l => (s.linkDown (512 + l)).laneOff l) (s.groupsOff (List.range 64)))).showTraffic := rfl

/-- With the core off every group and every lane is off. -/
theorem State.coreStops_off (s : State) :
    (∀ g < 64, s.coreStops.groupSt g = gsOFF) ∧ ∀ l < 64, s.coreStops.laneSt l = 0 := by
  have hline (u : State) (f : Fld) (i : Nat) (hf : f.blk = .opt ∨ f.blk = .eln) (hc : countsEvents f.blk f.off = false) :
      (((List.range 16).foldl (fun (s : State) g => s.lineRefresh g) u).showTraffic).fld f i = u.fld f i := by
    have h (X : Nat) (t u : State) (h : Fr X t u) (hX : X.testBit 16 = false ∧ X.testBit 17 = false) : u.fld f i = t.fld f i :=
      h.fld_eq _ _ (by rcases hf with hf | hf <;> rw [hf]; exacts [hX.1, hX.2]) hc
    refine (h _ _ _ (State.showTraffic_fr (Fr.refl _ _) (Sub.refl _)) ⟨rfl, rfl⟩).trans ?_
    exact foldl_keeps (P := fun t : State => t.fld f i)
      (fun t g _ => h _ _ _ (State.lineRefresh_fr (Fr.refl _ _) (Sub.refl _)) ⟨rfl, rfl⟩) u
  rw [State.coreStops_eq]
  constructor
  · intro g hg
    refine (hline _ _ _ (.inl rfl) rfl).trans ?_
    refine (foldl_keeps (P := fun t : State => t.groupSt g) (fun t l _ => ?_) _).trans ?_
    · rw [State.groupSt_laneOff, State.groupSt_linkDown]
    · rw [State.groupSt_groupsOff, if_pos (List.mem_range.2 hg)]
  · intro l hl
    refine (hline _ _ _ (.inr rfl) rfl).trans ?_
    refine laneSt_off (fun t l => ?_) (fun t l m hm => ?_) 64 _ l hl
    · rw [State.laneSt_laneOff, if_pos rfl]
    · rw [State.laneSt_laneOff, if_neg (by omega), State.laneSt_linkDown _ _ _ (.inr (by omega))]

/-- What each step of the core's stop keeps, the whole keeps. -/
theorem State.coreStops_keeps {γ : Type} {P : State → γ} (hgroup : ∀ s g, P (s.groupStop g gsOFF) = P s)
    (hlink : ∀ s p, P (s.linkDown p) = P s) (hlane : ∀ s l, P (s.setLaneSt l 0) = P s) (hline : ∀ s g, P (s.lineRefresh g) = P s)
    (hshow : ∀ s, P s.showTraffic = P s) (s : State) : P s.coreStops = P s := by
  have hoff (t : State) (l : Nat) : P (t.laneOff l) = P t := by
    unfold State.laneOff
    split
    · rfl
    · exact hlane t l
  have hgroups : P (s.groupsOff (List.range 64)) = P s := by
    refine foldl_keeps (P := P) (fun t g _ => ?_) s
    split
    · rfl
    · exact hgroup t g
  rw [State.coreStops_eq, hshow]
  refine (foldl_keeps (P := P) (fun t g _ => hline t g) _).trans ?_
  refine (foldl_keeps (P := P) (fun t l _ => ?_) _).trans hgroups
  rw [hoff, hlink]

theorem State.fld_coreStops_pwr (s : State) (f : Fld) (i : Nat) (hf : f.blk = .pwr) (ho : f.off ≠ 0x188) :
    s.coreStops.fld f i = s.fld f i := by
  have hc : countsEvents f.blk f.off = false := by rw [hf]; rfl
  have hrest {X : Nat} {t u : State} (h : Fr X t u) (hX : X.testBit 22 = false) : u.fld f i = t.fld f i :=
    h.fld_eq _ _ (by rw [hf]; exact hX) hc
  refine State.coreStops_keeps (P := fun t => t.fld f i) (fun t g => ?_) (fun t p => t.fld_linkDown_pwr p f i hf ho)
    (fun t l => ?_) (fun t _ => hrest (State.lineRefresh_fr (Fr.refl _ _) (Sub.refl _)) rfl)
    (fun t => t.fld_showTraffic_pwr f i ho) s
  · exact (hrest (t.groupStop_frame g gsOFF) rfl).trans
      (foldl_keeps (P := fun t : State => t.fld f i) (fun t _ _ => t.fld_linkDown_pwr _ f i hf ho) t)
  · exact State.fld_setFld_clear _ _ _ _ _ _ (Fld.clearOf_of_blk (by rw [hf]; exact fun e => nomatch e))

theorem State.critical_coreStops (s : State) : s.coreStops.power.critical = s.power.critical :=
  State.coreStops_keeps (P := fun t => t.power.critical) (fun t g => State.critical_of_causes (t.causes_groupStop g gsOFF))
    (fun t p => State.critical_of_causes (t.causes_linkDown p)) (fun _ _ => rfl)
    (fun t _ => congrArg PowerState.critical ((State.lineRefresh_fr (Fr.refl _ t) (Sub.refl _)).power_eq rfl))
    (fun t => State.critical_of_causes t.causes_showTraffic) s

end Sys2Proof.Machine


/-!
PROOFS. Rails that fault and rails that are good again (R46, R152, R497).
-/

namespace Sys2Proof.Machine

/-! ### The stacks in reset -/

theorem State.hbmLost_spec (s : State) : s.hbmLost.mem.hbmReset = true ∧ s.hbmLost.sett = s.sett ∧
    s.hbmLost.boot.railFaults = s.boot.railFaults ∧ s.hbmLost.boot.railOrder = s.boot.railOrder := by
  have hslots (t : State) (X : Nat) (h : Fr X t (t.slotsLost fun _ => true)) (hX : X.testBit 32 = false ∧ X.testBit 35 = false ∧ X.testBit 27 = false) :
      (t.slotsLost fun _ => true).mem = t.mem ∧ (t.slotsLost fun _ => true).sett = t.sett ∧ (t.slotsLost fun _ => true).boot = t.boot :=
    ⟨h.mem_eq hX.1, h.sett_eq hX.2.1, h.boot_eq hX.2.2⟩
  unfold State.hbmLost
  split
  · next h => exact ⟨h, rfl, rfl, rfl⟩
  · dsimp only
    obtain ⟨hm, hs, hb⟩ := hslots _ _ (State.slotsLost_fr (Fr.refl _ _) (Sub.refl _)) ⟨rfl, rfl, rfl⟩
    rw [hm, hs, hb]
    split
    · exact ⟨rfl, rfl, rfl, rfl⟩
    · have hr (t : State) (c i d : Nat) : (t.raise c i d).mem = t.mem ∧ (t.raise c i d).sett = t.sett ∧ (t.raise c i d).boot = t.boot :=
        ⟨(t.raise_keeps c i d).mem_eq rfl, (t.raise_keeps c i d).sett_eq rfl, (t.raise_keeps c i d).boot_eq rfl⟩
      rw [(hr _ _ _ _).1, (hr _ _ _ _).2.1, (hr _ _ _ _).2.2]
      exact ⟨rfl, rfl, rfl, rfl⟩

/-! ### A rail in service -/

/-- One step of VDD_SER's loss. -/
def State.laneLost (s : State) (l : Nat) : State :=
  let s := ((s.linkDown (512 + l)).laneDark l).laneOff l
  match s.laneGroup l with
  | some g => s.lineRefresh g
  | none => s

/-- What goes down with a rail. -/
def State.railEffects (s : State) (r : Nat) : State :=
  match r with
  | 5 => s.coreStops
  | 6 => (List.range 64).foldl State.laneLost s
  | 7 => s.groupsOff (List.range 64)
  | 1 => (s.dccHold 0).dccHold 1
  | _ => s.hbmLost

/-- The rail as it faults in service, with its record. -/
def State.railFails (s : State) (r mv : Nat) : State :=
  ({ s with boot := { s.boot with
    railOrder := without s.boot.railOrder r, railFaults := s.boot.railFaults ++ [r] } }).raise Ev.RAIL_FAULT r
      (min mv 65535 + bit (decide ((railRange r).2 < mv)) * 2 ^ 16)

theorem State.railFault_inService {s : State} {r mv : Nat} (h0 : 0 < r) (h8 : r < 8) (hmv : mv < (railRange r).1 ∨ (railRange r).2 < mv)
    (hok : s.railOk r = true) (hp : s.boot.porst = false) (ht : s.boot.thermTrip = false) :
    s.railFault r mv = (s.railFails r mv).railEffects r := by
  unfold State.railFault
  dsimp only
  rw [if_neg (by omega), if_neg (by omega), if_neg (by rw [hok]; decide), if_neg (by rw [hp, ht]; decide)]
  rfl

theorem State.laneSt_laneLost (s : State) (l m : Nat) (h : m ≤ l) : (s.laneLost l).laneSt m = if m = l then 0 else s.laneSt m := by
  have hbefore : (((s.linkDown (512 + l)).laneDark l).laneOff l).laneSt m = if m = l then 0 else s.laneSt m := by
    rw [State.laneSt_laneOff]
    split
    · rfl
    · have hd : ((s.linkDown (512 + l)).laneDark l).laneSt m = (s.linkDown (512 + l)).laneSt m :=
        (State.laneDark_fr (Fr.refl _ _) (Sub.refl _)).fld_eq _ _ rfl rfl
      rw [hd, State.laneSt_linkDown _ _ _ (.inr (by omega))]
  unfold State.laneLost
  dsimp only
  split
  · exact ((State.lineRefresh_fr (Fr.refl _ _) (Sub.refl _)).fld_eq _ _ rfl rfl).trans hbefore
  · exact hbefore

theorem State.boot_laneLost (s : State) (l : Nat) : (s.laneLost l).boot = s.boot := by
  have hbefore : (((s.linkDown (512 + l)).laneDark l).laneOff l).boot = s.boot := by
    have hoff (t : State) : (t.laneOff l).boot = t.boot := by
      unfold State.laneOff
      split <;> rfl
    have hdark (t : State) : (t.laneDark l).boot = t.boot := (State.laneDark_fr (Fr.refl _ _) (Sub.refl _)).boot_eq rfl
    rw [hoff, hdark]
    exact (State.linkDown_fr (Fr.refl _ _) (Sub.refl _)).boot_eq rfl
  unfold State.laneLost
  dsimp only
  split
  · exact ((State.lineRefresh_fr (Fr.refl _ _) (Sub.refl _)).boot_eq rfl).trans hbefore
  · exact hbefore

theorem State.boot_groupsOff (s : State) (l : List Nat) : (s.groupsOff l).boot = s.boot := by
  refine foldl_keeps (P := State.boot) (fun t g _ => ?_) s
  split
  · rfl
  · exact State.boot_of_causes (State.causes_groupStop _ _ _)

theorem State.railEffects_boot (s : State) (r : Nat) : (s.railEffects r).boot.railFaults = s.boot.railFaults ∧
    (s.railEffects r).boot.railOrder = s.boot.railOrder := by
  have hboot {t : State} (h : t.boot = s.boot) : t.boot.railFaults = s.boot.railFaults ∧ t.boot.railOrder = s.boot.railOrder := by
    rw [h]
    exact ⟨rfl, rfl⟩
  unfold State.railEffects
  split
  · exact hboot ((State.coreStops_fr (Fr.refl _ _) (Sub.refl _)).boot_eq rfl)
  · exact hboot (foldl_keeps (P := State.boot) (fun t l _ => t.boot_laneLost l) s)
  · exact hboot (s.boot_groupsOff _)
  · exact hboot ((State.dccHold_fr (State.dccHold_fr (Fr.refl _ _) (Sub.refl _)) (Sub.refl _)).boot_eq rfl)
  · exact ⟨s.hbmLost_spec.2.2.1, s.hbmLost_spec.2.2.2⟩

/-! ### A rail that is good again -/

theorem State.laneOn_of_causes {s t : State} (h : t.causes = s.causes) (l : Nat)
    (hf : t.fld Reg.ELN_OCT_CFG_ENABLE (l / 8) = s.fld Reg.ELN_OCT_CFG_ENABLE (l / 8)) : t.laneOn l = s.laneOn l := by
  rw [State.laneOn, State.coreOff_of_causes h, State.railOk_of_causes h, hf, State.laneOn]

theorem State.laneOn_laneTrains (s : State) (l m : Nat) : (s.laneTrains l).laneOn m = s.laneOn m := by
  unfold State.laneTrains
  split
  · refine State.laneOn_of_causes (t := s.liftCore.setLaneSt l 2) (Eq.trans rfl s.causes_liftCore) m ?_
    exact (State.fld_setFld_clear _ _ _ _ _ _ (by decide)).trans (s.liftCore_frame.fld_eq _ _ rfl rfl)
  · rfl

theorem State.laneSt_laneTrains (s : State) (l m : Nat) :
    (s.laneTrains l).laneSt m = if m = l ∧ s.laneOn l = true then 2 else s.laneSt m := by
  unfold State.laneTrains
  cases hon : s.laneOn l with
  | false => simp
  | true =>
    simp only [if_true, and_true]
    rw [State.laneSt_setLaneSt _ _ _ (by decide)]
    split
    · rfl
    · exact s.liftCore_frame.fld_eq _ _ rfl rfl

/-- The lanes that are on train, one after another. -/
theorem State.lanesTrain (ls : List Nat) (s : State) :
    let t := ls.foldl (fun (s : State) l => s.laneTrains l) s
    (∀ l ∈ ls, s.laneOn l = true → t.laneSt l = 2) ∧ ∀ l, t.laneOn l = s.laneOn l := by
  have hon (u : State) (ls : List Nat) (l : Nat) : (ls.foldl (fun (s : State) l => s.laneTrains l) u).laneOn l = u.laneOn l :=
    foldl_keeps (P := fun t : State => t.laneOn l) (fun t m _ => t.laneOn_laneTrains m l) u
  have hkeep (u : State) (ls : List Nat) (l : Nat) (h : u.laneSt l = 2) :
      (ls.foldl (fun (s : State) l => s.laneTrains l) u).laneSt l = 2 := by
    induction ls generalizing u with
    | nil => exact h
    | cons m ls ih =>
      refine ih _ ?_
      rw [State.laneSt_laneTrains, h, ite_self]
  refine ⟨?_, fun l => hon s ls l⟩
  induction ls generalizing s with
  | nil => intro l hl; cases hl
  | cons m ls ih =>
    intro l hl hl_on
    by_cases h : l = m
    · rw [h] at hl_on ⊢
      refine hkeep (s.laneTrains m) _ _ ?_
      rw [State.laneSt_laneTrains, if_pos ⟨rfl, hl_on⟩]
    · refine ih _ l ((List.mem_cons.1 hl).resolve_left h) ?_
      rw [State.laneOn_laneTrains, hl_on]

/-- Every enabled group of a list acquires. -/
def State.groupsAcquire (s : State) (l : List Nat) : State :=
  l.foldl (fun (s : State) g => if s.flag Reg.OPT_PG_CFG_ENABLE g then s.groupAcquire g else s) s

theorem State.causes_groupsAcquire (s : State) (l : List Nat) : (s.groupsAcquire l).causes = s.causes := by
  refine foldl_keeps (P := State.causes) (fun t g _ => ?_) s
  split
  · exact t.causes_groupAcquire g
  · rfl

/-- An enabled group that may run acquires, whichever others do. -/
theorem State.groupSt_groupsAcquire (ls : List Nat) (s : State) (g : Nat) (hg : g ∈ ls) (he : s.flag Reg.OPT_PG_CFG_ENABLE g = true)
    (hr : s.groupMayRun g = true) (hb : s.bypassedGroups.contains g = false) : (s.groupsAcquire ls).groupSt g = gsACQUIRING := by
  have hcauses (u : State) (x : Nat) : (if u.flag Reg.OPT_PG_CFG_ENABLE x then u.groupAcquire x else u).causes = u.causes := by
    split
    · exact u.causes_groupAcquire x
    · rfl
  have henabled (u : State) (x : Nat) : (if u.flag Reg.OPT_PG_CFG_ENABLE x then u.groupAcquire x else u).flag Reg.OPT_PG_CFG_ENABLE g =
      u.flag Reg.OPT_PG_CFG_ENABLE g := by
    split
    · rw [State.flag, State.fld_groupAcquire_opt _ _ _ _ rfl (by decide), State.flag]
    · rfl
  have hst (u : State) (x : Nat) (hu : u.groupMayRun g = true ∧ u.bypassedGroups.contains g = false) :
      (if u.flag Reg.OPT_PG_CFG_ENABLE x then u.groupAcquire x else u).groupSt g =
        if g = x ∧ u.flag Reg.OPT_PG_CFG_ENABLE x = true then gsACQUIRING else u.groupSt g := by
    cases hx : u.flag Reg.OPT_PG_CFG_ENABLE x with
    | false => simp
    | true =>
      simp only [if_true, and_true]
      rw [State.groupSt_groupAcquire]
      by_cases hgx : g = x
      · rw [if_pos ⟨hgx, hgx ▸ hu.1⟩, if_neg (by rw [← hgx, hu.2]; decide), if_pos hgx]
      · rw [if_neg fun h => hgx h.1, if_neg hgx]
  have hrest (ls : List Nat) (u : State) (hu : u.causes = s.causes) (hdone : u.groupSt g = gsACQUIRING) :
      (u.groupsAcquire ls).groupSt g = gsACQUIRING := by
    induction ls generalizing u with
    | nil => exact hdone
    | cons x ls ih =>
      refine ih _ ((hcauses u x).trans hu) ?_
      rw [hst u x ⟨State.groupMayRun_of_causes hu g ▸ hr, State.bypassedGroups_of_causes hu ▸ hb⟩, hdone, ite_self]
  induction ls generalizing s with
  | nil => cases hg
  | cons x ls ih =>
    by_cases h : g = x
    · refine hrest ls _ (hcauses s x) ?_
      rw [hst s x ⟨hr, hb⟩, if_pos ⟨h, h ▸ he⟩]
    · refine ih _ ((List.mem_cons.1 hg).resolve_left h) ((henabled s x).trans he) ?_ ?_ fun ls u hu => hrest ls u (hu.trans (hcauses s x))
      · rw [State.groupMayRun_of_causes (hcauses s x), hr]
      · rw [State.bypassedGroups_of_causes (hcauses s x), hb]

/-- While the core is off no group acquires. -/
theorem State.groupsAcquire_off {s : State} (h : s.coreOff = true) (l : List Nat) : s.groupsAcquire l = s := by
  have hone (g : Nat) : s.groupAcquire g = s := by
    rw [State.groupAcquire_eq, if_pos (by rw [State.groupMayRun, h]; rfl)]
  induction l with
  | nil => rfl
  | cons g l ih =>
    rw [State.groupsAcquire, List.foldl_cons, hone, ite_self]
    exact ih

/-- The rail as it counts as good again. -/
def State.railBack (s : State) (r : Nat) : State :=
  { s with boot := { s.boot with railFaults := without s.boot.railFaults r, railOrder := withElem s.boot.railOrder r } }

/-- What starts again with a rail. -/
def State.railResumes (s : State) (r : Nat) : State :=
  match r with
  | 6 => (List.range 64).foldl (fun (s : State) l => s.laneTrains l) s
  | 7 => s.groupsAcquire (List.range 64)
  | 1 => s
  | _ =>
    if s.railOk 2 && s.railOk 3 && s.railOk 4 && !s.boot.railSequenceBad then s.onPower fun p => { p with hbmTrain := true } else s

theorem State.boot_railResumes (s : State) (r : Nat) : (s.railResumes r).boot = s.boot := by
  have htrain (t : State) (l : Nat) : (t.laneTrains l).boot = t.boot := by
    unfold State.laneTrains
    split
    · exact t.liftCore_frame.boot_eq rfl
    · rfl
  unfold State.railResumes
  split
  · exact foldl_keeps (P := State.boot) (fun t l _ => htrain t l) s
  · refine foldl_keeps (P := State.boot) (fun t g _ => ?_) s
    split
    · exact State.boot_of_causes (t.causes_groupAcquire g)
    · rfl
  · rfl
  · split <;> rfl

/-! ### Training ends -/

theorem State.hbmReset_hbmStage (s : State) (failed : List Nat) : (s.hbmStage failed).mem.hbmReset = s.mem.hbmReset := by
  have hassign (t : State) : t.assignHbm.mem.hbmReset = t.mem.hbmReset := by
    simp only [State.assignHbm, State.showSpares, State.setFlag_mem, State.setFld_mem]
    rfl
  unfold State.hbmStage
  simp only [hassign, State.onMem]

theorem State.hbmTrained_spec (s : State) (failed : List Nat) (flash : Bytes) :
    (s.hbmTrained failed flash).mem.hbmReset = false ∧ (s.hbmTrained failed flash).power.hbmTrain = false := by
  unfold State.hbmTrained
  generalize List.foldl _ s _ = u
  dsimp only
  have hlost (w : State) (hw : w.mem.hbmReset = false) (c : Prop) [Decidable c] (l : List (Nat × Nat)) :
      (if c then w else w.setLost false l).mem.hbmReset = false := by split <;> exact hw
  split
  all_goals exact ⟨hlost _ (State.hbmReset_hbmStage _ _) _ _, rfl⟩

/-- A request that waited for its unit ends; the unit's registers and the states being entered stay. -/
theorem State.unitReached_spec (s : State) (kind i : Nat) :
    (∀ f j, countsEvents f.blk f.off = false → (s.unitReached kind i).fld f j = s.fld f j) ∧
    (s.unitReached kind i).power.entering = s.power.entering := by
  refine ⟨fun f j hc => (State.unitReached_fr (Fr.refl _ _) (Sub.refl _)).fld_eq _ _ (by cases f.blk <;> rfl) hc, ?_⟩
  have hends (c : Prop) [Decidable c] (k : OpKey) : (if c then
      (s.onPower fun p => { p with forcedWait := p.forcedWait.del (kind, i) }).finish k stOK else s).power.entering = s.power.entering := by
    split
    · exact (congrArg PowerState.entering ((State.finish_fr (Fr.refl _ _) (Sub.refl _)).power_eq rfl)).trans rfl
    · rfl
  unfold State.unitReached
  cases s.power.forcedWait.find (kind, i) with
  | none => rfl
  | some k => exact hends _ k

/-- Settles O11: what a rail feeds goes down or starts again group by group and lane by lane. -/
theorem railRows : Obligations.RailRows := by
  unfold Obligations.RailRows
  refine ⟨fun s r mv us hus => ⟨_, rfl, ?_⟩, fun s r mv us hlo hhi => ⟨_, rfl, ?_⟩, fun s mv us hus hmv => ⟨_, rfl, ?_⟩,
    fun s r mv us hus h0 h8 hmv hok hoff => ⟨_, rfl, ?_⟩, fun s r mv us hus h0 h8 hmv hok hp ht => ⟨_, rfl, ?_⟩,
    fun s r hr h5 hp ht => ⟨_, rfl, ?_⟩, fun s => ⟨_, rfl, ?_⟩, fun s failed flash htr hco hseq => ⟨_, rfl, ?_⟩,
    fun s k failed flash hco hk hst hent => ⟨_, rfl, ?_⟩⟩
  case refine_1 =>
    rw [State.pooled_of_setts (by rw [if_neg (by omega)]), if_neg (by omega)]
  case refine_2 =>
    have hsame : (if 10 < us then s.railFault r mv else s) = s := by
      split
      · exact if_pos (.inr ⟨hlo, hhi⟩)
      · rfl
    rw [State.pooled_of_setts (by rw [hsame]), hsame]
  case refine_3 =>
    have heq : (if 10 < us then s.railFault 0 mv else s) = s.coldReset [] false false := by
      rw [if_pos hus]
      unfold State.railFault
      dsimp only
      rw [if_neg (by simp [railRange]; omega), if_pos rfl]
    rw [State.pooled_of_parked (by rw [heq]; rfl), heq]
    exact ⟨rfl, rfl, rfl, rfl, rfl, rfl, rfl, rfl, rfl, rfl⟩
  case refine_4 =>
    have heq : (if 10 < us then s.railFault r mv else s) = s.onBoot fun b => { b with railOrder := without b.railOrder r } := by
      rw [if_pos hus]
      unfold State.railFault
      dsimp only
      rw [if_neg (by omega), if_neg (by omega), if_neg (by rw [hok]; decide), if_pos hoff]
    rw [State.pooled_of_setts (by rw [heq]; rfl), heq]
    rfl
  case refine_5 =>
    have heq : (if 10 < us then s.railFault r mv else s) = (s.railFails r mv).railEffects r := by
      rw [if_pos hus, State.railFault_inService h0 h8 hmv hok hp ht]
    have hpool := s.pooled_keeps fun s => if 10 < us then s.railFault r mv else s
    rw [heq] at hpool
    have hfails : Fr 0x2c000070000000 _ (s.railFails r mv) := State.raise_keeps _ _ _ _
    obtain ⟨hfaults, horder⟩ := (s.railFails r mv).railEffects_boot r
    rw [hfails.boot_eq rfl, ← hpool.boot_eq rfl] at hfaults horder
    replace hfaults : _ = s.boot.railFaults ++ [r] := hfaults
    replace horder : _ = without s.boot.railOrder r := horder
    have hlisted : (s.boot.railFaults ++ [r]).contains r = true := by simp
    refine ⟨hfaults, horder, ?_, fun hr g hg => ?_, fun hr l hl => ?_, fun hr => ?_⟩
    · rw [State.railOk, hfaults, hlisted, Bool.not_true, Bool.and_false]
    · refine (hpool.fld_eq _ _ rfl rfl).trans ?_
      rcases hr with rfl | rfl
      · show (s.railFails 5 mv).coreStops.groupSt g = gsOFF
        exact (State.coreStops_off _).1 g hg
      · show ((s.railFails 7 mv).groupsOff (List.range 64)).groupSt g = gsOFF
        rw [State.groupSt_groupsOff, if_pos (List.mem_range.2 hg)]
    · refine (hpool.fld_eq _ _ rfl rfl).trans ?_
      rcases hr with rfl | rfl
      · show (s.railFails 5 mv).coreStops.laneSt l = 0
        exact (State.coreStops_off _).2 l hl
      · show ((List.range 64).foldl State.laneLost (s.railFails 6 mv)).laneSt l = 0
        refine laneSt_off (fun t m => ?_) (fun t m l hl => ?_) 64 _ l hl
        · rw [State.laneSt_laneLost _ _ _ (le_refl m), if_pos rfl]
        · rw [State.laneSt_laneLost _ _ _ (by omega), if_neg (by omega)]
    · have hlost : (s.railFails r mv).railEffects r = (s.railFails r mv).hbmLost := by
        rcases hr with rfl | rfl | rfl <;> rfl
      obtain ⟨hreset, hsett, -, -⟩ := (s.railFails r mv).hbmLost_spec
      rw [State.pooled_of_setts, heq, hlost, hreset]
      rw [heq, hlost, hsett, hfails.sett_eq rfl]
  case refine_6 =>
    have hpool := s.pooled_keeps fun s => s.railGood r
    have heq : s.railGood r = (s.railBack r).railResumes r := by
      unfold State.railGood
      rw [if_neg (by simp [hr, h5, hp, ht])]
      rfl
    rw [heq] at hpool
    have hboot : (s.pooled fun s => s.railGood r).boot = (s.railBack r).boot :=
      (hpool.boot_eq rfl).trans ((s.railBack r).boot_railResumes r)
    refine ⟨by rw [hboot]; rfl, by rw [hboot]; rfl, ?_, ?_, ?_⟩
    · rintro rfl l hl hon
      have hsame : (s.pooled fun s => s.railGood 6) = (s.railBack 6).railResumes 6 := by
        rw [State.pooled_of_setts, heq]
        rw [heq]
        refine foldl_keeps (P := State.sett) (fun t l _ => ?_) _
        unfold State.laneTrains
        split
        · exact t.liftCore_frame.sett_eq rfl
        · rfl
      rw [hsame] at hon ⊢
      obtain ⟨htrain, hkeep⟩ := (s.railBack 6).lanesTrain (List.range 64)
      exact htrain l (List.mem_range.2 hl) ((hkeep l).symm.trans hon)
    · rintro rfl g hg he hrun hb
      have hon : (s.railBack 7).coreOff = false := by
        by_contra hoff
        have hsame : (s.railBack 7).railResumes 7 = s.railBack 7 := State.groupsAcquire_off (by simpa using hoff) _
        rw [State.pooled_of_setts (by rw [heq, hsame]; rfl), heq, hsame, State.groupMayRun] at hrun
        simp_all
      refine (hpool.fld_eq _ _ rfl rfl).trans ?_
      refine State.groupSt_groupsAcquire _ _ _ (List.mem_range.2 hg) he ?_ hb
      have htrip : (s.pooled fun s => s.railGood 7).power.oeTrip = (s.railBack 7).power.oeTrip :=
        (congrArg PowerState.oeTrip (hpool.power_eq rfl)).trans (State.oeTrip_of_causes ((s.railBack 7).causes_groupsAcquire _))
      rw [State.groupMayRun, Bool.and_eq_true, Bool.and_eq_true, State.railOk, hboot, htrip] at hrun
      rw [State.groupMayRun, hon, State.railOk, hrun.1.2, hrun.2]
      rfl
    · intro hr3 h2 h3 h4 hseq
      rw [State.railOk, hboot] at h2 h3 h4
      rw [hpool.power_eq rfl]
      have hresume : (s.railBack r).railResumes r = (s.railBack r).onPower fun p => { p with hbmTrain := true } := by
        have hall : ((s.railBack r).railOk 2 && (s.railBack r).railOk 3 && (s.railBack r).railOk 4 && !(s.railBack r).boot.railSequenceBad) = true := by
          simp only [State.railOk, h2, h3, h4, show (s.railBack r).boot.railSequenceBad = false from hseq]
          rfl
        rcases hr3 with rfl | rfl | rfl <;> exact if_pos hall
      rw [hresume]
      rfl
  case refine_7 =>
    have heq : s.railGood 5 = s := if_pos (.inr (.inl rfl))
    rw [State.pooled_of_setts (by rw [heq]), heq]
  case refine_8 =>
    rw [State.inCore_on hco]
    have heq : s.hbmTrainDone none failed flash = s.hbmTrained failed flash := if_pos ⟨htr, hco, hseq⟩
    rw [heq]
    exact s.hbmTrained_spec failed flash
  case refine_9 =>
    rw [State.inCore_on hco]
    have heq : s.hbmTrainDone (some k) failed flash =
      ((s.onPower fun p => { p with entering := p.entering.del (2, k) }).setUnit 2 k unACTIVE).unitReached 2 k :=
      if_pos ⟨hk, hst, hent⟩
    rw [heq]
    obtain ⟨hregs, hent⟩ := ((s.onPower fun p => { p with entering := p.entering.del (2, k) }).setUnit 2 k unACTIVE).unitReached_spec 2 k
    refine ⟨?_, ?_⟩
    · exact (hregs _ _ rfl).trans (State.fld_setFld_val _ _ _ _ (by decide) (by decide))
    · rw [AMap.has, hent]
      show (AMap.find (AMap.del s.power.entering (2, k)) (2, k)).isSome = false
      rw [AMap.find_del_self]
      rfl

end Sys2Proof.Machine


/-!
PROOFS. The set point, and temperatures: bands, the thermal loop and the thresholds (R43, R49, R486 to R488).
-/

namespace Sys2Proof.Machine

/-! ### The set point -/

theorem State.wantedMv_lt (s : State) : s.wantedMv < 1024 := by
  have hfloor : s.floorMv < 1024 := s.fld_lt _ _
  have hlow : s.lowestMv < 1024 := by
    unfold State.lowestMv
    split
    · exact hfloor
    · decide
  have htarget : s.targetMv < 1024 := by
    unfold State.targetMv
    split
    · exact max_lt (s.fld_lt Reg.PWR_V_CFG_V_IDLE_MV 0) hlow
    · exact max_lt (s.fld_lt Reg.PWR_V_CFG_V_MAX_MV 0) hlow
  unfold State.wantedMv
  split
  · exact hlow
  · exact max_lt hlow (by omega)

theorem State.coreMv_setPoint (s : State) : s.setPoint.coreMv = s.wantedMv := by
  unfold State.setPoint
  dsimp only
  split
  · next h => exact h.symm
  · exact State.fld_setFld_val _ _ _ _ (by decide) s.wantedMv_lt

theorem State.fld_setPoint (s : State) (f : Fld) (i : Nat) (h : Reg.PWR_VFLOOR_STATUS_CORE_MV.clearOf f = true) :
    s.setPoint.fld f i = s.fld f i := by
  unfold State.setPoint
  dsimp only
  split
  · rfl
  · exact State.fld_setFld_clear _ _ _ _ _ _ h

@[simp] theorem State.causes_setPoint (s : State) : s.setPoint.causes = s.causes := by
  unfold State.setPoint
  dsimp only
  split <;> rfl

/-! ### Bands -/

/-- A band that takes effect writes its number, the applied floor and the set point. -/
theorem State.fld_setBand (s : State) (b : Nat) (f : Fld) (i : Nat) (h : Reg.PWR_TEMP_STATUS_BAND.clearOf f = true)
    (hfloor : Reg.PWR_VFLOOR_STATUS_FLOOR_MV.clearOf f = true) (hcore : Reg.PWR_VFLOOR_STATUS_CORE_MV.clearOf f = true) :
    (s.setBand b).fld f i = s.fld f i :=
  (State.fld_setPoint _ _ _ hcore).trans ((State.fld_setFld_clear _ _ _ _ _ _ hfloor).trans (State.fld_setFld_clear _ _ _ _ _ _ h))

@[simp] theorem State.causes_setBand (s : State) (b : Nat) : (s.setBand b).causes = s.causes := State.causes_setPoint _

theorem State.band_setBand (s : State) {b : Nat} (hb : b < 8) : (s.setBand b).fld Reg.PWR_TEMP_STATUS_BAND = b := by
  refine (State.fld_setPoint _ _ _ (by decide)).trans ?_
  exact (State.fld_setFld_clear _ _ _ _ _ _ (by decide)).trans (State.fld_setFld_val _ _ _ _ (by decide) hb)

theorem State.floorMv_setBand (s : State) (b : Nat) : (s.setBand b).floorMv = s.fld Reg.PWR_VT_ENTRY_FLOOR_MV b := by
  refine (State.fld_setPoint _ _ _ (by decide)).trans ?_
  exact State.fld_setFld_val _ _ _ _ (by decide) (s.fld_lt Reg.PWR_VT_ENTRY_FLOOR_MV b)

/-! ### One die reading -/

/-- The state with that one reading taken. -/
def State.oneReading (s : State) (i : Nat) (v : Int) : State :=
  { s with mgmt := { s.mgmt with sensors := [((0, i), ⟨v, false⟩)] } }

theorem State.hottest_oneReading (s : State) (i : Nat) (v : Int) : (s.oneReading i v).hottest 0 = some (i, v) := rfl

theorem State.sensorSample_one {s : State} {i : Nat} {v : Int} (hp : s.boot.porst = false) (ht : s.boot.thermTrip = false)
    (hs : s.mgmt.sensors = []) (hi : i < 96) (hlo : -640 ≤ v) (hhi : v ≤ 2400) :
    s.sensorSample [⟨0, i, some v⟩] = (s.oneReading i v).showTemps.dieThresholds := by
  have htake : s.takeReading ⟨0, i, some v⟩ = s.oneReading i v := by
    have hread : s.readSensor ⟨0, i, some v⟩ = ⟨v, false⟩ := by
      have hout : (decide (v < -640) || decide (2400 < v)) = false := by
        rw [decide_eq_false (by omega), decide_eq_false (by omega)]; rfl
      simp only [State.readSensor, sensorRange, hout]
      rfl
    unfold State.takeReading
    rw [if_neg (by simp [sensorCount]; omega)]
    simp only [hread, hs]
    rfl
  have hgood (k : Nat) (hk : k ≠ 0) : (s.oneReading i v).showTemps.goodReadings k = [] := by
    have hm : (s.oneReading i v).showTemps.mgmt = (s.oneReading i v).mgmt := (State.showTemps_fr (Fr.refl _ _) (Sub.refl _)).mgmt_eq rfl
    rw [State.goodReadings, hm]
    simp [State.oneReading, Ne.symm hk]
  unfold State.sensorSample
  rw [hp, ht, if_neg (by decide)]
  simp only [List.foldl_cons, List.foldl_nil, htake, hgood 1 (by decide), hgood 5 (by decide), hgood 6 (by decide)]

theorem bandOf_lt (v : Int) : bandOf v < 8 :=
  Nat.lt_of_le_of_lt (List.length_filter_le _ _) (by decide)

/-- What the registers show of one die reading. -/
theorem State.showTemps_one (s : State) {i : Nat} (v : Int) (hi : i < 96) :
    let t := (s.oneReading i v).showTemps
    t.fld Reg.PWR_TEMP_STATUS_TJ_MAX_C = celsius8 v ∧ t.fld Reg.PWR_TEMP_STATUS_SENSOR = i ∧
    t.fld Reg.PWR_TEMP_STATUS_BAND = max (s.fld Reg.PWR_TEMP_STATUS_BAND) (bandOf v) ∧
    t.fld Reg.PWR_POWER_STATUS_ISSUE = s.fld Reg.PWR_POWER_STATUS_ISSUE ∧
    t.causes = s.causes ∧ t.mgmt = (s.oneReading i v).mgmt := by
  have hc8 : celsius8 v < 256 := by
    unfold celsius8 ofSigned
    omega
  have heq : (s.oneReading i v).showTemps =
      let u := ((s.oneReading i v).setFld Reg.PWR_TEMP_STATUS_TJ_MAX_C 0 (celsius8 v)).setFld Reg.PWR_TEMP_STATUS_SENSOR 0 i
      if u.fld Reg.PWR_TEMP_STATUS_BAND < bandOf v then u.setBand (bandOf v) else u := rfl
  intro t
  have hm : t.mgmt = (s.oneReading i v).mgmt := (State.showTemps_fr (Fr.refl _ _) (Sub.refl _)).mgmt_eq rfl
  have htj : (((s.oneReading i v).setFld Reg.PWR_TEMP_STATUS_TJ_MAX_C 0 (celsius8 v)).setFld Reg.PWR_TEMP_STATUS_SENSOR 0 i).fld
      Reg.PWR_TEMP_STATUS_TJ_MAX_C = celsius8 v := by
    rw [State.fld_setFld_clear _ _ _ _ _ _ (by decide), State.fld_setFld_val _ _ _ _ (by decide) hc8]
  have hsensor : (((s.oneReading i v).setFld Reg.PWR_TEMP_STATUS_TJ_MAX_C 0 (celsius8 v)).setFld Reg.PWR_TEMP_STATUS_SENSOR 0 i).fld
      Reg.PWR_TEMP_STATUS_SENSOR = i :=
    State.fld_setFld_val _ _ _ _ (by decide) (Nat.lt_of_lt_of_le hi (by decide))
  have hother (f : Fld) (h1 : Reg.PWR_TEMP_STATUS_TJ_MAX_C.clearOf f = true) (h2 : Reg.PWR_TEMP_STATUS_SENSOR.clearOf f = true) :
      (((s.oneReading i v).setFld Reg.PWR_TEMP_STATUS_TJ_MAX_C 0 (celsius8 v)).setFld Reg.PWR_TEMP_STATUS_SENSOR 0 i).fld f = s.fld f := by
    rw [State.fld_setFld_clear _ _ _ _ _ _ h2, State.fld_setFld_clear _ _ _ _ _ _ h1]
    rfl
  have hband := hother Reg.PWR_TEMP_STATUS_BAND (by decide) (by decide)
  have hissue := hother Reg.PWR_POWER_STATUS_ISSUE (by decide) (by decide)
  have hcauses : (((s.oneReading i v).setFld Reg.PWR_TEMP_STATUS_TJ_MAX_C 0 (celsius8 v)).setFld Reg.PWR_TEMP_STATUS_SENSOR 0 i).causes =
      s.causes := rfl
  replace heq : t = _ := heq
  generalize ((s.oneReading i v).setFld Reg.PWR_TEMP_STATUS_TJ_MAX_C 0 (celsius8 v)).setFld Reg.PWR_TEMP_STATUS_SENSOR 0 i = u at *
  dsimp only at heq
  rw [hm, heq]
  by_cases hlt : u.fld Reg.PWR_TEMP_STATUS_BAND < bandOf v
  · rw [if_pos hlt, State.band_setBand _ (bandOf_lt v)]
    iterate 3 rw [State.fld_setBand _ _ _ _ (by decide) (by decide) (by decide)]
    exact ⟨htj, hsensor, by omega, hissue, by rw [State.causes_setBand, hcauses], rfl⟩
  · rw [if_neg hlt]
    exact ⟨htj, hsensor, by omega, hissue, hcauses, rfl⟩

/-! ### The thresholds of the die -/

/-- Below both thresholds the count of readings for the trip starts again. -/
theorem State.dieThresholds_below {s : State} {i : Nat} {v : Int} (h : s.hottest 0 = some (i, v)) (hv : v < 1712) :
    s.dieThresholds = { s with boot := { s.boot with tripReadings := 0 } } := by
  unfold State.dieThresholds
  simp only [h, show ¬1712 ≤ v by omega, show ¬1840 ≤ v by omega, false_and, if_false]
  rfl

/-- The critical limit as it is set. -/
def State.goesCritical (s : State) (i : Nat) (v : Int) : State :=
  let s1 := (s.onPower fun p => { p with critical := true }).raise Ev.THERMAL_CRITICAL 0 (celsius8 v + i * 2 ^ 8)
  (s1.setFld Reg.PWR_POWER_STATUS_ISSUE 0 (min 32 (s1.fld Reg.PWR_POWER_STATUS_ISSUE))).setPoint

theorem State.goesCritical_spec (s : State) (i : Nat) (v : Int) : (s.goesCritical i v).power.critical = true ∧
    (s.goesCritical i v).fld Reg.PWR_POWER_STATUS_ISSUE = min 32 (s.fld Reg.PWR_POWER_STATUS_ISSUE) ∧
    (s.goesCritical i v).boot = s.boot := by
  have hr : Fr 0x2c000070000000 ({ s with power := { s.power with critical := true } })
      ((s.onPower fun p => { p with critical := true }).raise Ev.THERMAL_CRITICAL 0 (celsius8 v + i * 2 ^ 8)) := State.raise_keeps _ _ _ _
  have heq : s.goesCritical i v =
      (((s.onPower fun p => { p with critical := true }).raise Ev.THERMAL_CRITICAL 0 (celsius8 v + i * 2 ^ 8)).setFld
        Reg.PWR_POWER_STATUS_ISSUE 0 (min 32 (((s.onPower fun p => { p with critical := true }).raise Ev.THERMAL_CRITICAL 0
          (celsius8 v + i * 2 ^ 8)).fld Reg.PWR_POWER_STATUS_ISSUE))).setPoint := rfl
  rw [heq]
  generalize (s.onPower fun p => { p with critical := true }).raise Ev.THERMAL_CRITICAL 0 (celsius8 v + i * 2 ^ 8) = r at hr
  have hissue : r.fld Reg.PWR_POWER_STATUS_ISSUE = s.fld Reg.PWR_POWER_STATUS_ISSUE := hr.fld_eq _ _ rfl rfl
  refine ⟨?_, ?_, ?_⟩
  · rw [State.critical_of_causes (State.causes_setPoint _), State.setFld_power, hr.power_eq rfl]
  · rw [State.fld_setPoint _ _ _ (by decide), hissue]
    exact State.fld_setFld_val _ _ _ _ (by decide) (Nat.lt_of_le_of_lt (min_le_left _ _) (by decide))
  · rw [State.boot_of_causes (State.causes_setPoint _), State.setFld_boot, hr.boot_eq rfl]

/-- From 107 °C on, the limit and, after a second reading from 115 °C on, the trip. -/
theorem State.dieThresholds_above {s : State} {i : Nat} {v : Int} (h : s.hottest 0 = some (i, v)) (hv : 1712 ≤ v) :
    let s1 := if s.power.critical = false then s.goesCritical i v else s
    let n := if 1840 ≤ v then s1.boot.tripReadings + 1 else 0
    s.dieThresholds = if 2 ≤ n then
        ({ s1 with boot := { s1.boot with tripReadings := n, thermTrip := true } }).coreStops
      else { s1 with boot := { s1.boot with tripReadings := n } } := by
  unfold State.dieThresholds
  simp only [h, hv, true_and]
  rfl

theorem State.dieThresholds_limit {s : State} {i : Nat} {v : Int} (h : s.hottest 0 = some (i, v)) (hv : 1712 ≤ v)
    (hc : s.power.critical = false) : s.dieThresholds.power.critical = true ∧
      s.dieThresholds.fld Reg.PWR_POWER_STATUS_ISSUE = min 32 (s.fld Reg.PWR_POWER_STATUS_ISSUE) := by
  obtain ⟨h1, h2, -⟩ := s.goesCritical_spec i v
  rw [State.dieThresholds_above h hv, if_pos hc]
  generalize s.goesCritical i v = w at *
  generalize (if 1840 ≤ v then _ else _ : Nat) = n
  split
  · rw [State.critical_coreStops, State.fld_coreStops_pwr _ _ _ rfl (by decide)]
    exact ⟨h1, h2⟩
  · exact ⟨h1, h2⟩

theorem State.dieThresholds_trip {s : State} {i : Nat} {v : Int} (h : s.hottest 0 = some (i, v)) (hv : 1840 ≤ v)
    (hr : 1 ≤ s.boot.tripReadings) : ∃ u : State, u.boot.thermTrip = true ∧ s.dieThresholds = u.coreStops := by
  have hreadings : 1 ≤ (if s.power.critical = false then s.goesCritical i v else s).boot.tripReadings := by
    split
    · rw [(s.goesCritical_spec i v).2.2]
      exact hr
    · exact hr
  rw [State.dieThresholds_above h (by omega), if_pos hv, if_pos (by omega)]
  exact ⟨_, rfl, rfl⟩

theorem hottest_of_mgmt {s u : State} {i : Nat} {v : Int} (h : u.mgmt = (s.oneReading i v).mgmt) : u.hottest 0 = some (i, v) := by
  rw [State.hottest, State.goodReadings, h]
  rfl

/-! ### The thermal loop -/

theorem State.lth_thermalLoop (s : State) {e : Rat} (hco : s.coreOff = false) (he : s.thermalError = some e) :
    s.thermalLoop.power.lth =
      if 0 < e then max (min s.power.lth (s.fld Reg.PWR_POWER_STATUS_EST_W) - 25 * e) 0 else min (s.power.lth + 10) 2200 := by
  have hr (t : State) (c d : Nat) : (t.raise c 0 d).power.lth = t.power.lth :=
    congrArg PowerState.lth ((t.raise_keeps c 0 d).power_eq rfl)
  have hmove (l cap : Rat) : (let s1 := s.onPower fun p => { p with lth := l }
      if l < cap ∧ s.power.thermalLimited = false then
        (s1.onPower fun p => { p with thermalLimited := true }).raise Ev.THERMAL_LIMIT 0 l.floor.toNat
      else if cap ≤ l ∧ s.power.thermalLimited = true then
        (s1.onPower fun p => { p with thermalLimited := false }).raise Ev.THERMAL_CLEAR 0 l.floor.toNat
      else s1).power.lth = l := by
    dsimp only
    split
    · exact hr _ _ _
    · split
      · exact hr _ _ _
      · rfl
  unfold State.thermalLoop
  rw [if_neg (by rw [hco]; decide), he]
  exact hmove _ _

/-- Settles O12. -/
theorem thermalRows : Obligations.ThermalRows := by
  unfold Obligations.ThermalRows
  refine ⟨fun s i v hp ht hs hi hlo hv => ⟨_, rfl, ?_⟩, fun s i v hp ht hs hcrit hi hv hhi => ⟨_, rfl, ?_⟩,
    fun s i v hp ht hs hone hi hv hhi => ⟨_, rfl, ?_⟩, fun s g hco htrip hfault hval => ⟨_, rfl, ?_⟩,
    fun s i x k hp hhot hband hx => ⟨_, rfl, ?_⟩, fun s hco e he hle => ⟨_, rfl, ?_⟩, fun s e hco he hlt => ⟨_, rfl, ?_⟩,
    fun s i x hp hhot hcrit hx => ⟨_, rfl, ?_⟩⟩
  case refine_1 =>
    obtain ⟨htj, hsensor, hband, -, hcauses, hm⟩ := s.showTemps_one v hi
    have hsett : (s.oneReading i v).showTemps.sett = s.sett := (State.showTemps_fr (Fr.refl _ _) (Sub.refl _)).sett_eq rfl
    have heq : s.sensorSample [⟨0, i, some v⟩] = (s.oneReading i v).showTemps.dieThresholds :=
      State.sensorSample_one hp ht hs hi hlo (by omega)
    rw [State.dieThresholds_below (hottest_of_mgmt hm) hv] at heq
    rw [State.pooled_of_setts (by rw [heq]; exact hsett), heq]
    generalize (s.oneReading i v).showTemps = u at *
    have hcrit : u.power.critical = s.power.critical := State.critical_of_causes hcauses
    have htrip : u.boot.thermTrip = s.boot.thermTrip := congrArg BootState.thermTrip (State.boot_of_causes hcauses)
    exact ⟨congrArg MgmtState.sensors hm, htj, hsensor, hband, hcrit, htrip.trans ht⟩
  case refine_2 =>
    obtain ⟨-, -, -, hissue, hcauses, hm⟩ := s.showTemps_one v hi
    have heq : s.sensorSample [⟨0, i, some v⟩] = (s.oneReading i v).showTemps.dieThresholds :=
      State.sensorSample_one hp ht hs hi (by omega) (by omega)
    have hpool := s.pooled_keeps fun s => s.sensorSample [⟨0, i, some v⟩]
    rw [heq] at hpool
    rw [hpool.power_eq rfl, hpool.fld_eq _ _ rfl rfl]
    generalize (s.oneReading i v).showTemps = u at *
    obtain ⟨hc, hi⟩ := State.dieThresholds_limit (hottest_of_mgmt hm) hv ((State.critical_of_causes hcauses).trans hcrit)
    exact ⟨hc, hi.trans (congrArg (min 32) hissue)⟩
  case refine_3 =>
    obtain ⟨-, -, -, -, hcauses, hm⟩ := s.showTemps_one v hi
    have heq : s.sensorSample [⟨0, i, some v⟩] = (s.oneReading i v).showTemps.dieThresholds :=
      State.sensorSample_one hp ht hs hi (by omega) (by omega)
    have hpool := s.pooled_keeps fun s => s.sensorSample [⟨0, i, some v⟩]
    rw [heq] at hpool
    generalize (s.oneReading i v).showTemps = u at *
    have hreadings : 1 ≤ u.boot.tripReadings := by rw [State.boot_of_causes hcauses]; exact hone
    obtain ⟨w, hw, hstop⟩ := State.dieThresholds_trip (hottest_of_mgmt hm) hv hreadings
    rw [hstop] at hpool
    refine ⟨?_, fun g hg => (hpool.fld_eq _ _ rfl rfl).trans (w.coreStops_off.1 g hg),
      fun l hl => (hpool.fld_eq _ _ rfl rfl).trans (w.coreStops_off.2 l hl)⟩
    rw [hpool.boot_eq rfl, (State.coreStops_fr (Fr.refl _ w) (Sub.refl _)).boot_eq rfl, hw]
  case refine_4 =>
    rw [State.inPool_on hco]
    have hpool := s.pooled_keeps fun s => s.oeRelease g
    have heq : s.oeRelease g = if s.flag Reg.OPT_PG_CFG_ENABLE g = true then
        ({ s with power := { s.power with oeTrip := without s.power.oeTrip g } }).groupAcquire g
        else { s with power := { s.power with oeTrip := without s.power.oeTrip g } } := if_pos ⟨htrip, hfault, hval⟩
    rw [heq] at hpool
    refine ⟨?_, fun hen hrail hby => ?_⟩
    · rw [hpool.power_eq rfl]
      split
      · exact State.oeTrip_of_causes (State.causes_groupAcquire _ _)
      · rfl
    · rw [if_pos hen] at hpool
      refine (hpool.fld_eq _ _ rfl rfl).trans ?_
      have hrun : ({ s with power := { s.power with oeTrip := without s.power.oeTrip g } } : State).groupMayRun g = true := by
        have hgone : (without s.power.oeTrip g).contains g = false := by simp [without]
        show (!s.coreOff && s.railOk 7 && !(without s.power.oeTrip g).contains g) = true
        rw [hco, hrail, hgone]
        rfl
      exact (State.groupSt_groupAcquire _ _ _).trans ((if_pos ⟨rfl, hrun⟩).trans (if_neg (by
        show ¬s.bypassedGroups.contains g = true
        rw [hby]; decide)))
  case refine_5 =>
    have heq : s.inAon (fun s => s.bandFall) = s.setBand k := by
      rw [State.inAon, if_neg (by rw [hp]; decide)]
      unfold State.bandFall
      rw [hhot, hband]
      exact if_pos hx
    rw [heq]
    have hk : k < 8 := by
      have := s.fld_lt Reg.PWR_TEMP_STATUS_BAND 0
      rw [hband] at this
      exact Nat.lt_of_succ_lt this
    exact ⟨s.band_setBand hk, s.floorMv_setBand k⟩
  case refine_6 => exact (s.lth_thermalLoop hco he).trans (if_neg (by linarith))
  case refine_7 => exact (s.lth_thermalLoop hco he).trans (if_pos hlt)
  case refine_8 =>
    have heq : s.inAon (fun s => s.criticalRelease) = (s.onPower fun p => { p with critical := false }).setPoint := by
      rw [State.inAon, if_neg (by rw [hp]; decide), State.criticalRelease, hhot]
      exact if_pos ⟨hcrit, hx⟩
    rw [heq]
    exact State.critical_of_causes (State.causes_setPoint _)

end Sys2Proof.Machine


/-!
PROOFS. Operations: one that starts, and one that ends (R111, R114, R251).
-/

namespace Sys2Proof.Machine

/-! ### Entries of the operation table and rings -/

@[simp] theorem State.op?_setOp_self (s : State) (o : Op) : (s.setOp o).op? o.key = some o := AMap.find_put_self _ _ _

theorem State.op?_setOp_ne (s : State) (o : Op) (k : OpKey) (h : k ≠ o.key) : (s.setOp o).op? k = s.op? k :=
  AMap.find_put_ne _ _ _ _ h

theorem State.op?_setOp (s : State) (o : Op) (k : OpKey) : (s.setOp o).op? k = if k = o.key then some o else s.op? k :=
  AMap.find_put _ _ _ _

@[simp] theorem State.op?_setRing (s : State) (n : Nat) (r : Ring) (k : OpKey) : (s.setRing n r).op? k = s.op? k := rfl

@[simp] theorem State.ring_setOp (s : State) (o : Op) (n : Nat) : (s.setOp o).ring n = s.ring n := rfl

@[simp] theorem State.ring_setRing_self (s : State) (n : Nat) (r : Ring) : (s.setRing n r).ring n = r := AMap.getD_put_self _ _ _ _

theorem State.ring_setRing_ne (s : State) (n m : Nat) (r : Ring) (h : m ≠ n) : (s.setRing n r).ring m = s.ring m :=
  AMap.getD_put_ne _ _ _ _ _ h

@[simp] theorem State.ring_freeOp (s : State) (k : OpKey) (n : Nat) : (s.freeOp k).ring n = s.ring n := rfl

theorem State.op?_freeOp_ne (s : State) (k k' : OpKey) (h : k' ≠ k) : (s.freeOp k).op? k' = s.op? k' := AMap.find_del_ne _ _ _ h

theorem State.op?_congr {s t : State} (h : t.hif = s.hif) (k : OpKey) : t.op? k = s.op? k := by rw [State.op?, h, State.op?]

theorem State.ring_congr {s t : State} (h : t.hif = s.hif) (n : Nat) : t.ring n = s.ring n := by rw [State.ring, h, State.ring]

/-! ### An operation that starts -/

/-- The operation as it starts. -/
def Op.started (o : Op) : Op := { o with phase := .running }

@[simp] theorem Op.started_desc (o : Op) : o.started.desc = o.desc := rfl
@[simp] theorem Op.started_key (o : Op) : o.started.key = o.key := rfl
@[simp] theorem Op.started_fn (o : Op) : o.started.fn = o.fn := rfl

theorem State.setOp_keeps (s : State) (o : Op) : Fr 0x40000000 s (s.setOp o) := State.setOp_fr (Fr.refl _ s) (Sub.refl _)

/-- A descriptor that may start runs. -/
theorem State.start_ready {s : State} {k : OpKey} {o : Op} (h : s.Ready k o) {want : Bytes → Bool} (hw : want o.desc = true)
    (body : Op → State → State) : s.start k want body = body o.started (s.setOp o.started) := by
  obtain ⟨hop, -, -, hcan, hcox, hdown⟩ := h
  have hmgmt : (dKind o.desc == kindMGMT && s.mgmt.down) = false := by
    by_cases hk : dKind o.desc = kindMGMT
    · rw [hdown hk, Bool.and_false]
    · rw [beq_eq_false_iff_ne.2 hk, Bool.false_and]
  unfold State.start
  rw [hop]
  dsimp only
  rw [hw, hcan, hcox, hmgmt]
  rfl

/-- A management request of the PF. -/
theorem State.mgmtPF_ready {s : State} {k : OpKey} {o : Op} (h : s.Ready k o) {req : Nat} (hw : isMgmt req o.desc = true) (hfn : o.fn = 0)
    (body : Op → State → State) : s.mgmtPF k req body = body o.started (s.setOp o.started) := by
  rw [State.mgmtPF, State.start_ready h hw]
  exact if_pos hfn

/-! ### An operation that ends -/

/-- The operation at `k` stands in its place: its ring has its slot, and has not forgotten it. -/
def State.Kept (s : State) (k : OpKey) : Prop :=
  ∃ o, s.op? k = some o ∧ o.key = k ∧ o.lost = false ∧ k.slot ∈ (s.ring k.ring).taken

theorem State.Ready.kept {s : State} {k : OpKey} {o : Op} (h : s.Ready k o) : (s.setOp o.started).Kept k := by
  obtain ⟨hop, hkey, hlost, hcan, -⟩ := h
  refine ⟨o.started, ?_, hkey, hlost, ?_⟩
  · rw [← hkey]
    exact State.op?_setOp_self _ o.started
  · simp only [State.canStart, Bool.and_eq_true, decide_eq_true_eq, hkey] at hcan
    exact hcan.1.2

theorem State.Kept.congr {s t : State} {k : OpKey} (h : s.Kept k) (ht : t.hif = s.hif) : t.Kept k := by
  obtain ⟨o, hop, hrest⟩ := h
  exact ⟨o, (State.op?_congr ht k).trans hop, by rwa [State.ring_congr ht]⟩

/-- An operation in its place ends. -/
theorem State.finish_kept {s : State} {k : OpKey} {o : Op} (hop : s.op? k = some o) (hlost : o.lost = false)
    (hslot : k.slot ∈ (s.ring k.ring).taken) (status ext value : Nat) : s.finish k status ext value =
      s.setOp { o with phase := .done { status := status, ext := ext, value := value, seg := o.seg, tag := dTag o.desc }, hold := .none } := by
  simp only [State.finish, State.endOp, hop]
  rw [if_pos ⟨hslot, hlost⟩]

theorem State.endedWith_finish {s : State} {k : OpKey} (h : s.Kept k) (status ext value : Nat) :
    (s.finish k status ext value).endedWith k status = true := by
  obtain ⟨o, hop, hkey, hlost, hslot⟩ := h
  rw [State.finish_kept hop hlost hslot, State.endedWith, State.op?_setOp, if_pos hkey.symm]
  exact beq_self_eq_true status

theorem State.endedWith_congr {s t : State} (h : t.hif = s.hif) (k : OpKey) (status : Nat) : t.endedWith k status = s.endedWith k status := by
  rw [State.endedWith, State.op?_congr h, State.endedWith]

/-- Another operation's end leaves it in its place. -/
theorem State.Kept.endOp {s : State} {k : OpKey} (h : s.Kept k) (k' : OpKey) (c : Completion) : (s.endOp k' c).Kept k := by
  obtain ⟨o, hop, hkey, hlost, hslot⟩ := h
  unfold State.endOp
  cases hop' : s.op? k' with
  | none => exact ⟨o, hop, hkey, hlost, hslot⟩
  | some o' =>
    dsimp only
    split
    · next hin =>
      have hset (x : Op) (hx : x.lost = false) : (s.setOp x).Kept k := by
        by_cases hk : k = x.key
        · exact ⟨x, by rw [State.op?_setOp, if_pos hk], hk.symm, hx, hslot⟩
        · exact ⟨o, (State.op?_setOp_ne _ _ _ hk).trans hop, hkey, hlost, hslot⟩
      exact hset _ hin.2
    · next hout =>
      have hne : k ≠ k' := by
        rintro rfl
        rw [hop] at hop'
        cases hop'
        exact hout ⟨hslot, hlost⟩
      have hfree : (s.freeOp k').op? k = some o := (State.op?_freeOp_ne _ _ _ hne).trans hop
      unfold State.leaveOp
      dsimp only
      split
      · exact ⟨o, hfree, hkey, hlost, hslot⟩
      · next x _ =>
        have henter (u : State) (read : Option Bytes) (hu : u.op? k = some o) : (u.enterOp k' read).op? k = some o := by
          unfold State.enterOp
          split
          · exact (State.op?_setOp_ne _ _ _ hne).trans hu
          · exact (State.op?_setOp_ne _ _ _ hne).trans hu
        have hring (u : State) (read : Option Bytes) (n : Nat) : (u.enterOp k' read).ring n = u.ring n := by
          unfold State.enterOp
          split <;> rfl
        refine ⟨o, henter _ _ hfree, hkey, hlost, ?_⟩
        rw [hring]
        by_cases hr : k.ring = k'.ring
        · rw [hr, State.ring_setRing_self]
          rw [hr] at hslot
          exact hslot
        · rw [State.ring_setRing_ne _ _ _ _ hr]
          exact hslot

theorem State.Kept.finish {s : State} {k : OpKey} (h : s.Kept k) (k' : OpKey) (status ext value : Nat) :
    (s.finish k' status ext value).Kept k := by
  unfold State.finish
  split
  · exact h
  · exact h.endOp _ _

/-- An end changes the host interface alone. -/
theorem State.finish_keeps (s : State) (k : OpKey) (status ext value : Nat) : Fr 0x40000000 s (s.finish k status ext value) :=
  State.finish_fr (Fr.refl _ s) (Sub.refl _)

end Sys2Proof.Machine


/-!
PROOFS. Unit states, UNIT_POWER, the watch and alarms (R489 to R495).
-/

namespace Sys2Proof.Machine

/-! ### State, entry and refusal of a unit -/

theorem State.unitState_core (s : State) {kind : Nat} (h : kind ≤ 3) (i : Nat) :
    s.unitState kind i = s.fld Reg.PWR_UNIT_STATE_STATE (unitInst kind i) := by
  rw [State.unitState, if_neg (by omega), if_neg (by omega)]

theorem unitInst_inj {kind i kind' i' : Nat} (h : kind < 8) (h' : kind' < 8) (e : unitInst kind i = unitInst kind' i') :
    kind = kind' ∧ i = i' := by
  unfold unitInst at e
  omega

/-- The state of a unit after that of another, or its own, is written. -/
theorem State.unitState_setUnit (s : State) {kind kind' : Nat} (h : kind ≤ 3) (h' : kind' ≤ 3) (i i' : Nat) {st : Nat} (hst : st < 8) :
    (s.setUnit kind i st).unitState kind' i' = if kind' = kind ∧ i' = i then st else s.unitState kind' i' := by
  rw [State.unitState_core _ h', State.setUnit, State.fld_setFld _ _ _ _ _ (by decide),
    Nat.mod_eq_of_lt (show st < 2 ^ Reg.PWR_UNIT_STATE_STATE.width from hst), State.unitState_core _ h']
  by_cases e : unitInst kind' i' = unitInst kind i
  · rw [if_pos e, if_pos (unitInst_inj (by omega) (by omega) e)]
  · rw [if_neg e, if_neg fun hh => e (by rw [hh.1, hh.2])]

theorem State.unitState_congr {s t : State} {kind : Nat} (h : kind ≤ 3) (i : Nat)
    (hf : t.fld Reg.PWR_UNIT_STATE_STATE (unitInst kind i) = s.fld Reg.PWR_UNIT_STATE_STATE (unitInst kind i)) :
    t.unitState kind i = s.unitState kind i := by
  rw [State.unitState_core _ h, hf, State.unitState_core _ h]

/-- A refused entry counts, names its cause and leaves the state. -/
theorem State.refuseEntry_spec (s : State) {kind : Nat} (h : kind ≤ 3) (i c : Nat) :
    (s.refuseEntry kind i c).fld Reg.PWR_UNIT_STATE_LAST_CAUSE (unitInst kind i) = c % 16 ∧
    (s.refuseEntry kind i c).unitState kind i = s.unitState kind i ∧
    (s.refuseEntry kind i c).fld Reg.PWR_UNIT_REFUSE_REFUSED (unitInst kind i) =
      satAdd 0xFFFF (s.fld Reg.PWR_UNIT_REFUSE_REFUSED (unitInst kind i)) 1 := by
  refine ⟨State.fld_setFld_self _ _ _ _ (by decide), State.unitState_congr h i ?_, ?_⟩
  · exact (State.fld_setFld_clear _ _ _ _ _ _ (by decide)).trans (State.fld_bump_clear _ _ _ _ _ _ (by decide))
  · exact (State.fld_setFld_clear _ _ _ _ _ _ (by decide)).trans (State.fld_bump_sat _ _ _ _ (by decide))

theorem State.startEntry_spec (s : State) {kind : Nat} (h : kind ≤ 3) (i st : Nat) :
    (s.startEntry kind i st).unitState kind i = unENTERING ∧ (s.startEntry kind i st).power.entering.find (kind, i) = some st := by
  refine ⟨?_, AMap.find_put_self _ _ _⟩
  exact (State.unitState_setUnit s h h i i (by decide)).trans (if_pos ⟨rfl, rfl⟩)

/-- An idle unit that nothing holds enters the state unless a cause refuses. -/
theorem State.idleEntry_eq {s : State} {kind i target : Nat} {from_ : List Nat} (hk : kind ≤ 3) (hi : i < unitCount kind)
    (hforced : s.power.forced.find (kind, i) = none) (hholder : s.unitHolder kind i = none)
    (hfrom : from_.contains (s.unitState kind i) = true) (hco : s.coreOff = false) :
    s.idleEntry kind i target from_ = match s.entryCause kind i target with
      | some c => s.refuseEntry kind i c
      | none => s.startEntry kind i target := by
  unfold State.idleEntry
  cases s.entryCause kind i target <;>
    simp only [hforced, hholder, hfrom, hco, show ¬unitCount kind ≤ i by omega, show ¬3 < kind by omega, Bool.false_eq_true,
      Bool.true_eq_false, and_false, or_self, if_false]

/-! ### Waking -/

/-- An entry that a wake-up aborts. -/
def State.abortEntry (s : State) (kind i cause : Nat) : State :=
  (((s.setUnit kind i unWAKING).bump Reg.PWR_UNIT_REFUSE_ABORTED (unitInst kind i)).setFld Reg.PWR_UNIT_STATE_LAST_CAUSE
    (unitInst kind i) cause).onPower fun p => { p with entering := p.entering.del (kind, i) }

theorem State.unitState_abortEntry (s : State) {kind' : Nat} (h' : kind' ≤ 3) (kind i i' cause : Nat) :
    (s.abortEntry kind i cause).unitState kind' i' = (s.setUnit kind i unWAKING).unitState kind' i' := by
  refine State.unitState_congr h' i' ?_
  rw [State.abortEntry, State.fld_onPower, State.fld_setFld_clear _ _ _ _ _ _ (by decide), State.fld_bump_clear _ _ _ _ _ _ (by decide)]

theorem State.abortEntry_spec (s : State) (kind i : Nat) {cause : Nat} (hc : cause < 16) :
    (s.abortEntry kind i cause).power.entering.find (kind, i) = none ∧
    (s.abortEntry kind i cause).fld Reg.PWR_UNIT_STATE_LAST_CAUSE (unitInst kind i) = cause ∧
    (s.abortEntry kind i cause).fld Reg.PWR_UNIT_REFUSE_ABORTED (unitInst kind i) =
      satAdd 0xFFFF (s.fld Reg.PWR_UNIT_REFUSE_ABORTED (unitInst kind i)) 1 := by
  refine ⟨AMap.find_del_self _ _, ?_, ?_⟩
  · rw [State.abortEntry, State.fld_onPower]
    exact State.fld_setFld_val _ _ _ _ (by decide) hc
  · rw [State.abortEntry, State.fld_onPower, State.fld_setFld_clear _ _ _ _ _ _ (by decide), State.fld_bump_sat _ _ _ _ (by decide),
      State.setUnit, State.fld_setFld_clear _ _ _ _ _ _ (by decide)]
    rfl

theorem State.wakeUnit_eq (s : State) {kind : Nat} (h : kind ≤ 3) (i cause : Nat) : s.wakeUnit kind i cause =
    if s.unitState kind i = unENTERING then
      s.abortEntry kind i cause
    else if s.unitState kind i = unNAP ∨ s.unitState kind i = unWATCH ∨ s.unitState kind i = unOFF then s.setUnit kind i unWAKING
    else s := by
  rw [State.unitState_core _ h]
  rfl

/-- The state of a unit after a wake-up of it or of another. -/
theorem State.unitState_wakeUnit (s : State) {kind kind' : Nat} (h : kind ≤ 3) (h' : kind' ≤ 3) (i i' cause : Nat) :
    (s.wakeUnit kind i cause).unitState kind' i' =
      if kind' = kind ∧ i' = i ∧ (s.unitState kind i = unENTERING ∨ s.unitState kind i = unNAP ∨ s.unitState kind i = unWATCH ∨
        s.unitState kind i = unOFF) then unWAKING else s.unitState kind' i' := by
  rw [State.wakeUnit_eq _ h]
  have hset := s.unitState_setUnit h h' i i' (st := unWAKING) (by decide)
  split
  · next he =>
    rw [State.unitState_abortEntry _ h', hset]
    by_cases hsame : kind' = kind ∧ i' = i
    · rw [if_pos hsame, if_pos ⟨hsame.1, hsame.2, .inl he⟩]
    · rw [if_neg hsame, if_neg fun hh => hsame ⟨hh.1, hh.2.1⟩]
  · next he =>
    split
    · next hs =>
      rw [hset]
      by_cases hsame : kind' = kind ∧ i' = i
      · rw [if_pos hsame, if_pos ⟨hsame.1, hsame.2, .inr hs⟩]
      · rw [if_neg hsame, if_neg fun hh => hsame ⟨hh.1, hh.2.1⟩]
    · next hs => rw [if_neg fun hh => hh.2.2.elim he hs]

theorem State.unitWakes_eq (s : State) {kind i : Nat} (hk : kind ≤ 3) (hi : i < unitCount kind) (cause : Nat) :
    s.unitWakes kind i cause = if kind = 2 ∧ s.unitState kind i = unOFF then
      (s.wakeUnit kind i cause).onPower fun p => { p with entering := p.entering.put (kind, i) unACTIVE }
      else s.wakeUnit kind i cause := by
  rw [State.unitWakes, if_neg (by omega)]

theorem State.unitState_unitWakes (s : State) {kind kind' i : Nat} (h : kind ≤ 3) (hi : i < unitCount kind) (h' : kind' ≤ 3) (i' cause : Nat) :
    (s.unitWakes kind i cause).unitState kind' i' =
      if kind' = kind ∧ i' = i ∧ (s.unitState kind i = unENTERING ∨ s.unitState kind i = unNAP ∨ s.unitState kind i = unWATCH ∨
        s.unitState kind i = unOFF) then unWAKING else s.unitState kind' i' := by
  rw [State.unitWakes_eq s h hi]
  split
  · exact s.unitState_wakeUnit h h' i i' cause
  · exact s.unitState_wakeUnit h h' i i' cause

/-- A wake-up of a unit leaves what is forced and held, and every field but a unit's state, its cause and its counters of refusals. -/
def State.WakeKeeps (s t : State) : Prop :=
  t.power.forced = s.power.forced ∧ t.power.held = s.power.held ∧ t.power.armed = s.power.armed ∧ t.power.hbmHot = s.power.hbmHot ∧
    ∀ f j, Reg.PWR_UNIT_STATE_STATE.clearOf f = true → Reg.PWR_UNIT_STATE_LAST_CAUSE.clearOf f = true →
      Reg.PWR_UNIT_REFUSE_ABORTED.clearOf f = true → t.fld f j = s.fld f j

theorem State.WakeKeeps.rfl {s : State} : s.WakeKeeps s := ⟨Eq.refl _, Eq.refl _, Eq.refl _, Eq.refl _, fun _ _ _ _ _ => Eq.refl _⟩

theorem State.WakeKeeps.trans {s t u : State} (h : s.WakeKeeps t) (h' : t.WakeKeeps u) : s.WakeKeeps u := by
  obtain ⟨h1, h2, h3, h4, h5⟩ := h
  obtain ⟨g1, g2, g3, g4, g5⟩ := h'
  exact ⟨g1.trans h1, g2.trans h2, g3.trans h3, g4.trans h4, fun f j a b c => (g5 f j a b c).trans (h5 f j a b c)⟩

theorem State.wakeKeeps_setUnit (s : State) (kind i st : Nat) : s.WakeKeeps (s.setUnit kind i st) :=
  ⟨rfl, rfl, rfl, rfl, fun _ _ h _ _ => State.fld_setFld_clear _ _ _ _ _ _ h⟩

theorem State.wakeKeeps_abortEntry (s : State) (kind i cause : Nat) : s.WakeKeeps (s.abortEntry kind i cause) := by
  refine ⟨rfl, rfl, rfl, rfl, fun f j h1 h2 h3 => ?_⟩
  rw [State.abortEntry, State.fld_onPower, State.fld_setFld_clear _ _ _ _ _ _ h2, State.fld_bump_clear _ _ _ _ _ _ h3]
  exact State.fld_setFld_clear _ _ _ _ _ _ h1

theorem State.wakeKeeps_wakeUnit (s : State) (kind i cause : Nat) : s.WakeKeeps (s.wakeUnit kind i cause) := by
  have heq : s.wakeUnit kind i cause = if s.fld Reg.PWR_UNIT_STATE_STATE (unitInst kind i) = 4 then s.abortEntry kind i cause
      else if s.fld Reg.PWR_UNIT_STATE_STATE (unitInst kind i) = 1 ∨ s.fld Reg.PWR_UNIT_STATE_STATE (unitInst kind i) = 2 ∨
        s.fld Reg.PWR_UNIT_STATE_STATE (unitInst kind i) = 3 then s.setUnit kind i unWAKING else s := rfl
  rw [heq]
  split
  · exact s.wakeKeeps_abortEntry kind i cause
  · split
    · exact s.wakeKeeps_setUnit kind i _
    · exact .rfl

theorem State.wakeKeeps_unitWakes (s : State) {kind i : Nat} (hk : kind ≤ 3) (hi : i < unitCount kind) (cause : Nat) :
    s.WakeKeeps (s.unitWakes kind i cause) := by
  rw [State.unitWakes_eq s hk hi]
  have h := s.wakeKeeps_wakeUnit kind i cause
  generalize s.wakeUnit kind i cause = u at h
  split
  · exact h.trans ⟨rfl, rfl, rfl, rfl, fun f j _ _ _ => State.fld_onPower _ _ _ _⟩
  · exact h

/-! ### UNIT_POWER -/

/-- The unit a request forces into its target. -/
def State.forceUnit (s : State) (kind i t : Nat) : State :=
  (s.onPower fun p => { p with forced := p.forced.put (kind, i) t }).setFlag Reg.PWR_UNIT_STATE_FORCED (unitInst kind i) true

/-- A request that waits for its unit, and completes where the unit is there. -/
def State.waitUnit (s : State) (kind i : Nat) (k : OpKey) : State :=
  ((s.unitSuperseded kind i).onPower fun p => { p with forcedWait := p.forcedWait.put (kind, i) k }).unitReached kind i

theorem State.unitSuperseded_spec (s : State) (kind i : Nat) : Fr 0x440000000 s (s.unitSuperseded kind i) ∧
    (s.unitSuperseded kind i).power.forced = s.power.forced ∧ (s.unitSuperseded kind i).power.entering = s.power.entering ∧
    ∀ k, s.Kept k → (s.unitSuperseded kind i).Kept k := by
  refine ⟨State.unitSuperseded_fr (Fr.refl _ _) (Sub.refl _), ?_⟩
  unfold State.unitSuperseded
  split
  · next k _ =>
    have hf := (s.onPower fun p => { p with forcedWait := p.forcedWait.del (kind, i) }).finish_keeps k stABORTED 0 0
    refine ⟨(congrArg PowerState.forced (hf.power_eq rfl)).trans rfl, (congrArg PowerState.entering (hf.power_eq rfl)).trans rfl, fun k' hk => ?_⟩
    have hu : (s.onPower fun p => { p with forcedWait := p.forcedWait.del (kind, i) }).Kept k' := hk.congr rfl
    exact hu.finish _ _ _ _
  · exact ⟨rfl, rfl, fun _ h => h⟩

/-- The state that a force in force wants. -/
def wantedState : Option Nat → Nat
  | some 2 => unNAP
  | some 3 => unOFF
  | _ => unACTIVE

theorem State.unitReached_eq (s : State) (kind i : Nat) : s.unitReached kind i = match s.power.forcedWait.find (kind, i) with
    | some k => if s.unitState kind i = wantedState (s.power.forced.find (kind, i)) then
        (s.onPower fun p => { p with forcedWait := p.forcedWait.del (kind, i) }).finish k stOK else s
    | none => s := by
  unfold State.unitReached wantedState
  rfl

/-- A unit's state is a matter of registers. -/
theorem State.unitState_of_fld {s t : State} (h : ∀ f j, countsEvents f.blk f.off = false → t.fld f j = s.fld f j) (kind i : Nat) :
    t.unitState kind i = s.unitState kind i := by
  have hlane : t.laneSt i = s.laneSt i := h _ _ rfl
  have hgroup : t.groupSt i = s.groupSt i := h _ _ rfl
  simp only [State.unitState, hlane, hgroup, h Reg.PWR_UNIT_STATE_STATE (unitInst kind i) rfl]

/-- What a request that waits leaves. -/
theorem State.waitUnit_spec {s : State} {k : OpKey} (hk : s.Kept k) (kind i : Nat) :
    let t := s.waitUnit kind i k
    (∀ f j, countsEvents f.blk f.off = false → t.fld f j = s.fld f j) ∧ t.power.forced = s.power.forced ∧
    t.power.entering = s.power.entering ∧
    (s.unitState kind i = wantedState (s.power.forced.find (kind, i)) → t.endedWith k stOK = true) ∧
    (s.unitState kind i ≠ wantedState (s.power.forced.find (kind, i)) → t.power.forcedWait.find (kind, i) = some k) := by
  obtain ⟨hfr, hforced, hentering, hkept⟩ := s.unitSuperseded_spec kind i
  have hregs (f : Fld) (j : Nat) (hc : countsEvents f.blk f.off = false) : (s.unitSuperseded kind i).fld f j = s.fld f j :=
    hfr.fld_eq _ _ (by cases f.blk <;> rfl) hc
  replace hkept := hkept k hk
  unfold State.waitUnit
  generalize s.unitSuperseded kind i = u at *
  have hw : (u.onPower fun p => { p with forcedWait := p.forcedWait.put (kind, i) k }).power.forcedWait.find (kind, i) = some k :=
    AMap.find_put_self _ _ _
  have hst : (u.onPower fun p => { p with forcedWait := p.forcedWait.put (kind, i) k }).unitState kind i = s.unitState kind i :=
    State.unitState_of_fld hregs kind i
  have hfd : (u.onPower fun p => { p with forcedWait := p.forcedWait.put (kind, i) k }).power.forced = s.power.forced := hforced
  rw [State.unitReached_eq, hw]
  dsimp only
  rw [hst, hfd]
  by_cases h : s.unitState kind i = wantedState (s.power.forced.find (kind, i))
  · rw [if_pos h]
    have hv : ((u.onPower fun p => { p with forcedWait := p.forcedWait.put (kind, i) k }).onPower fun p =>
        { p with forcedWait := p.forcedWait.del (kind, i) }).Kept k := hkept.congr rfl
    have hf := ((u.onPower fun p => { p with forcedWait := p.forcedWait.put (kind, i) k }).onPower fun p =>
        { p with forcedWait := p.forcedWait.del (kind, i) }).finish_keeps k stOK 0 0
    refine ⟨fun f j hc => (hf.fld_eq _ _ (by cases f.blk <;> rfl) hc).trans (hregs f j hc), ?_, ?_,
      fun _ => State.endedWith_finish hv _ _ _, fun hn => absurd h hn⟩
    · rw [hf.power_eq rfl]; exact hforced
    · rw [hf.power_eq rfl]; exact hentering
  · rw [if_neg h]
    exact ⟨hregs, hforced, hentering, fun hn => absurd hn h, fun _ => hw⟩

/-- What the fields of a UNIT_POWER request that names a unit and a target it has make of it. -/
theorem State.unitPower_eq {s : State} {o : Op} {kind i t goal : Nat} (hkind : kind = bitsOf (mParam0 o.desc) 0 3)
    (hi : i = bitsOf (mParam0 o.desc) 3 8) (ht : bitsOf (mParam0 o.desc) 12 2 = t)
    (hgoal : goal = if t = 2 then unNAP else if t = 3 then unOFF else unACTIVE)
    (hu : ¬(kind = 3 ∨ 4 < kind ∨ unitCount kind ≤ i ∨ unitHas kind goal = false)) : s.unitPower o =
      if t = 0 then
        (((s.unitSuperseded kind i).onPower fun p => { p with forced := p.forced.del (kind, i) }).setFlag
          Reg.PWR_UNIT_STATE_FORCED (unitInst kind i) false).finish o.key stOK
      else if t = 1 then
        if kind = 4 then
          (if (s.forceUnit kind i t).laneOn i && (s.forceUnit kind i t).laneSt i == 1 then (s.forceUnit kind i t).setLaneSt i 2
            else s.forceUnit kind i t).waitUnit kind i o.key
        else ((s.forceUnit kind i t).unitWakes kind i 8).waitUnit kind i o.key
      else match s.entryCause kind i goal with
        | some c => (s.refuseEntry kind i c).finish o.key stBAD_FIELD c
        | none =>
          if kind = 4 then
            (if (s.forceUnit kind i t).laneOn i then (s.forceUnit kind i t).setLaneSt i 1 else s.forceUnit kind i t).waitUnit kind i o.key
          else if s.unitState kind i = goal then (s.forceUnit kind i t).waitUnit kind i o.key
          else ((s.forceUnit kind i t).startEntry kind i goal).waitUnit kind i o.key := by
  subst hkind hi ht hgoal
  unfold State.unitPower
  dsimp only
  rw [if_neg hu]
  rfl

/-! ### Alarms -/

theorem State.alarmUnits_mem {s : State} {a : Nat} {u : Nat × Nat} (h : u ∈ s.alarmUnits a) : u.1 ≤ 3 ∧ u.2 < unitCount u.1 := by
  simp only [State.alarmUnits, List.mem_append, List.mem_map, List.mem_filter, List.mem_range] at h
  rcases h with ((h | h) | ⟨i, hi, rfl⟩) | ⟨i, hi, rfl⟩
  · split at h
    · obtain ⟨i, hi, rfl⟩ := List.mem_map.1 h
      exact ⟨Nat.zero_le 3, List.mem_range.1 hi⟩
    · cases h
  · split at h
    · obtain ⟨i, hi, rfl⟩ := List.mem_map.1 h
      exact ⟨Nat.le_of_ble_eq_true rfl, List.mem_range.1 hi⟩
    · cases h
  · exact ⟨Nat.le_of_ble_eq_true rfl, hi.1⟩
  · exact ⟨Nat.le_of_ble_eq_true rfl, hi.1⟩

/-- The units of a list wake one after another. -/
def State.wakes (s : State) (l : List (Nat × Nat)) (cause : Nat) : State :=
  l.foldl (fun (s : State) u => s.unitWakes u.1 u.2 cause) s

theorem State.wakes_cons (s : State) (u : Nat × Nat) (l : List (Nat × Nat)) (cause : Nat) :
    s.wakes (u :: l) cause = (s.unitWakes u.1 u.2 cause).wakes l cause := rfl

theorem State.wakeKeeps_wakes (l : List (Nat × Nat)) (hl : ∀ u ∈ l, u.1 ≤ 3 ∧ u.2 < unitCount u.1) (s : State) (cause : Nat) :
    s.WakeKeeps (s.wakes l cause) := by
  induction l generalizing s with
  | nil => exact .rfl
  | cons x l ih =>
    obtain ⟨hx, hxi⟩ := hl x (by simp)
    exact (s.wakeKeeps_unitWakes hx hxi cause).trans (ih (fun y hy => hl y (by simp [hy])) _)

/-- A unit that is waking is so still after others are woken. -/
theorem State.waking_wakes (l : List (Nat × Nat)) (hl : ∀ u ∈ l, u.1 ≤ 3 ∧ u.2 < unitCount u.1) (s : State) (cause : Nat) {kind i : Nat}
    (hk : kind ≤ 3) (hw : s.unitState kind i = unWAKING) : (s.wakes l cause).unitState kind i = unWAKING := by
  induction l generalizing s with
  | nil => exact hw
  | cons x l ih =>
    obtain ⟨hx, hxi⟩ := hl x (by simp)
    refine ih (fun y hy => hl y (by simp [hy])) _ ?_
    rw [State.unitState_unitWakes _ hx hxi hk, hw, ite_self]

/-- Every sleeping unit of the list wakes. -/
theorem State.unitState_wakes (l : List (Nat × Nat)) (hl : ∀ u ∈ l, u.1 ≤ 3 ∧ u.2 < unitCount u.1) (s : State) (cause : Nat) :
    ∀ u ∈ l, s.unitState u.1 u.2 = unNAP ∨ s.unitState u.1 u.2 = unWATCH ∨ s.unitState u.1 u.2 = unOFF →
      (s.wakes l cause).unitState u.1 u.2 = unWAKING := by
  induction l generalizing s with
  | nil => intro u hu; cases hu
  | cons x l ih =>
    obtain ⟨hx, hxi⟩ := hl x (by simp)
    have hl' : ∀ u ∈ l, u.1 ≤ 3 ∧ u.2 < unitCount u.1 := fun y hy => hl y (by simp [hy])
    intro u hu hs
    rw [State.wakes_cons]
    by_cases hxu : u = x
    · subst hxu
      refine State.waking_wakes l hl' _ cause hx ?_
      rw [State.unitState_unitWakes _ hx hxi hx, if_pos ⟨rfl, rfl, .inr hs⟩]
    · refine ih hl' _ u ((List.mem_cons.1 hu).resolve_left hxu) ?_
      rw [State.unitState_unitWakes _ hx hxi (hl u hu).1, if_neg fun hh => hxu (Prod.ext hh.1 hh.2.1)]
      exact hs

/-! ### The watch -/

/-- A reading of a stack is kept as it is. -/
theorem State.takeReading_stack (s : State) {k : Nat} (x : Int) (hk : k < 16) : s.takeReading ⟨5, k, some x⟩ =
    { s with mgmt := { s.mgmt with sensors := s.mgmt.sensors.put (5, k) ⟨x, false⟩ } } := by
  have hread : s.readSensor ⟨5, k, some x⟩ = ⟨x, false⟩ := rfl
  unfold State.takeReading
  rw [if_neg (by simp [sensorCount]; omega)]
  simp only [hread]
  rfl

theorem State.sensor_of_mgmtReports {s t : State} (h : s.MgmtReports t) (kind i : Nat) : t.sensor kind i = s.sensor kind i := by
  obtain ⟨a, c, hm⟩ := h
  rw [State.sensor, hm, State.sensor]

/-- At 95 °C the stack is on the list of hot ones. -/
theorem State.memThreshold_hot (s : State) (k : Nat) {x : Int} (hx : 1520 ≤ x) :
    k ∈ (s.memThreshold false k x).power.hbmHot ∧ (∀ f j, countsEvents f.blk f.off = false → (s.memThreshold false k x).fld f j = s.fld f j) ∧
    s.MgmtReports (s.memThreshold false k x) := by
  by_cases hc : s.power.hbmHot.contains k = true
  · have heq : s.memThreshold false k x = s := by
      unfold State.memThreshold
      dsimp only
      rw [if_neg fun h => by simp_all, if_neg (by omega)]
    rw [heq]
    exact ⟨by simpa using hc, fun _ _ _ => rfl, .rfl⟩
  · have heq : s.memThreshold false k x =
        (s.onPower fun p => { p with hbmHot := s.power.hbmHot ++ [k] }).raise Ev.HBM_HOT k (celsius8 x) := by
      unfold State.memThreshold
      dsimp only
      exact if_pos ⟨hx, by simpa using hc⟩
    have hr := (s.onPower fun p => { p with hbmHot := s.power.hbmHot ++ [k] }).raise_keeps Ev.HBM_HOT k (celsius8 x)
    rw [heq]
    have hfld (f : Fld) (j : Nat) (hcnt : countsEvents f.blk f.off = false) :=
      (hr.fld_eq f j (by cases f.blk <;> rfl) hcnt).trans (State.fld_onPower s (fun p => { p with hbmHot := s.power.hbmHot ++ [k] }) f j)
    refine ⟨?_, hfld, ?_⟩
    · rw [hr.power_eq rfl]
      simp [State.onPower]
    · have hset : s.MgmtReports (s.onPower fun p => { p with hbmHot := s.power.hbmHot ++ [k] }) := .of_eq rfl
      exact hset.trans (State.mgmtReports_raise _ _ _ _)

end Sys2Proof.Machine


/-!
PROOFS. The rows of unit states (R489 to R495).
-/

namespace Sys2Proof.Machine

/-! ### Entries and wake-ups -/

theorem State.unitEntered_of_entering {s : State} {kind i st : Nat} (hk : kind ≤ 3) (hst : st ≤ 3) (hs : s.unitState kind i = unENTERING)
    (he : s.power.entering.find (kind, i) = some st) :
    (s.unitEntered kind i).unitState kind i = st ∧ (s.unitEntered kind i).power.entering.has (kind, i) = false ∧
      (s.unitEntered kind i).fld Reg.PWR_UNIT_STATE_ENTRIES (unitInst kind i) =
        satAdd 0xFFFF (s.fld Reg.PWR_UNIT_STATE_ENTRIES (unitInst kind i)) 1 := by
  have heq : s.unitEntered kind i = (((s.setUnit kind i st).bump Reg.PWR_UNIT_STATE_ENTRIES (unitInst kind i)).onPower fun p =>
      { p with entering := p.entering.del (kind, i) }).unitReached kind i := by
    unfold State.unitEntered
    rw [AMap.getD, he]
    exact if_pos hs
  obtain ⟨hregs, hent⟩ := (((s.setUnit kind i st).bump Reg.PWR_UNIT_STATE_ENTRIES (unitInst kind i)).onPower fun p =>
      { p with entering := p.entering.del (kind, i) }).unitReached_spec kind i
  rw [heq]
  refine ⟨?_, ?_, ?_⟩
  · refine (State.unitState_congr hk i (t := ((((s.setUnit kind i st).bump Reg.PWR_UNIT_STATE_ENTRIES (unitInst kind i)).onPower fun p =>
      { p with entering := p.entering.del (kind, i) }).unitReached kind i)) (s := s.setUnit kind i st) ?_).trans
      ((s.unitState_setUnit hk hk i i (by omega)).trans (if_pos ⟨rfl, rfl⟩))
    rw [hregs _ _ rfl, State.fld_onPower, State.fld_bump_clear _ _ _ _ _ _ (by decide)]
  · rw [AMap.has, hent]
    exact congrArg Option.isSome (AMap.find_del_self s.power.entering (kind, i))
  · rw [hregs _ _ rfl, State.fld_onPower, State.fld_bump_sat _ _ _ _ (by decide), State.setUnit, State.fld_setFld_clear _ _ _ _ _ _ (by decide)]
    rfl

theorem State.unitEntered_of_waking {s : State} {kind i : Nat} (hk : kind ≤ 3) (hs : s.unitState kind i = unWAKING)
    (he : s.power.entering.has (kind, i) = false) : (s.unitEntered kind i).unitState kind i = unACTIVE := by
  have heq : s.unitEntered kind i = (s.setUnit kind i unACTIVE).unitReached kind i := by
    unfold State.unitEntered
    dsimp only
    rw [if_neg (by rw [hs]; decide), if_pos ⟨hs, he⟩]
  rw [heq]
  refine (State.unitState_congr hk i (((s.setUnit kind i unACTIVE).unitReached_spec kind i).1 _ _ rfl)).trans ?_
  exact (s.unitState_setUnit hk hk i i (by decide)).trans (if_pos ⟨rfl, rfl⟩)

/-- A wake-up aborts an entry under way. -/
theorem State.unitWakes_of_entering {s : State} {kind i : Nat} (hk : kind ≤ 3) (hi : i < unitCount kind)
    (hs : s.unitState kind i = unENTERING) (cause : Nat) : s.unitWakes kind i cause = s.abortEntry kind i cause := by
  rw [State.unitWakes_eq s hk hi, if_neg (by rw [hs]; exact fun h => absurd h.2 (by decide)), State.wakeUnit_eq _ hk, if_pos hs]

/-! ### UNIT_POWER -/

/-- The request as it starts: the fields of the descriptor, its place, and the unit as before. -/
theorem State.entryCause_setOp (s : State) (o : Op) (kind i goal : Nat) : (s.setOp o).entryCause kind i goal = s.entryCause kind i goal := rfl

theorem State.forceUnit_spec (s : State) (kind i t : Nat) : (s.forceUnit kind i t).power.forced.find (kind, i) = some t ∧
    (s.forceUnit kind i t).flag Reg.PWR_UNIT_STATE_FORCED (unitInst kind i) = true ∧
    (s.forceUnit kind i t).hif = s.hif ∧
    ∀ f j, Reg.PWR_UNIT_STATE_FORCED.clearOf f = true → (s.forceUnit kind i t).fld f j = s.fld f j := by
  refine ⟨AMap.find_put_self _ _ _, ?_, rfl, fun f j h => ?_⟩
  · exact State.flag_setFlag_self _ _ _ _ (by decide) (by decide)
  · rw [State.forceUnit, State.fld_setFlag_clear _ _ _ _ _ _ h, State.fld_onPower]

theorem State.laneOn_forceUnit (s : State) (kind i t l : Nat) : (s.forceUnit kind i t).laneOn l = s.laneOn l := by
  unfold State.laneOn
  rw [(s.forceUnit_spec kind i t).2.2.2 Reg.ELN_OCT_CFG_ENABLE (l / 8) (by decide)]
  rfl

/-- A request whose unit exists and has the target. -/
theorem unit_named {kind i goal : Nat} (hk : kind ≤ 2) (hi : i < unitCount kind) :
    ¬(kind = 3 ∨ 4 < kind ∨ unitCount kind ≤ i ∨ unitHas kind goal = false) := by
  have hhas : unitHas kind goal = true := by
    unfold unitHas
    split
    · exact bne_iff_ne.2 (by omega)
    · rfl
  rw [hhas]
  simp only [Bool.true_eq_false, or_false]
  omega

/-- ALLOW. -/
theorem State.unitPower_allow {s : State} {o : Op} (hk : s.Kept o.key) (kind i : Nat) :
    let t := (((s.unitSuperseded kind i).onPower fun p => { p with forced := p.forced.del (kind, i) }).setFlag
      Reg.PWR_UNIT_STATE_FORCED (unitInst kind i) false).finish o.key stOK
    t.endedWith o.key stOK = true ∧ t.power.forced.has (kind, i) = false ∧ t.flag Reg.PWR_UNIT_STATE_FORCED (unitInst kind i) = false := by
  obtain ⟨-, -, -, hkept⟩ := s.unitSuperseded_spec kind i
  replace hkept := hkept _ hk
  generalize s.unitSuperseded kind i = u at hkept
  have hf := ((u.onPower fun p => { p with forced := p.forced.del (kind, i) }).setFlag Reg.PWR_UNIT_STATE_FORCED (unitInst kind i)
    false).finish_keeps o.key stOK 0 0
  have hku : ((u.onPower fun p => { p with forced := p.forced.del (kind, i) }).setFlag Reg.PWR_UNIT_STATE_FORCED (unitInst kind i)
    false).Kept o.key := hkept.congr rfl
  refine ⟨State.endedWith_finish hku stOK 0 0, ?_, ?_⟩
  · rw [hf.power_eq rfl]
    exact congrArg Option.isSome (AMap.find_del_self u.power.forced (kind, i))
  · rw [hf.flag_eq _ _ rfl rfl]
    exact State.flag_setFlag_self _ _ _ _ (by decide) (by decide)

/-- HOLD_ACTIVE. -/
theorem State.unitPower_hold {s : State} {k : OpKey} (hkept : s.Kept k) {kind i : Nat} (hk : kind ≤ 2) (hi : i < unitCount kind) :
    let t := ((s.forceUnit kind i 1).unitWakes kind i 8).waitUnit kind i k
    t.power.forced.find (kind, i) = some 1 ∧ t.flag Reg.PWR_UNIT_STATE_FORCED (unitInst kind i) = true ∧
      (s.unitState kind i = unACTIVE → t.endedWith k stOK = true ∧ t.unitState kind i = unACTIVE) ∧
      (s.unitState kind i = unNAP ∨ s.unitState kind i = unWATCH ∨ s.unitState kind i = unOFF → t.unitState kind i = unWAKING ∧
        t.power.forcedWait.find (kind, i) = some k) := by
  have hk3 : kind ≤ 3 := by omega
  obtain ⟨hforced, hflag, hhif, hfld⟩ := s.forceUnit_spec kind i 1
  have hst : (s.forceUnit kind i 1).unitState kind i = s.unitState kind i := State.unitState_congr hk3 i (hfld _ _ (by decide))
  have hkf : (s.forceUnit kind i 1).Kept k := hkept.congr hhif
  generalize s.forceUnit kind i 1 = u at hforced hflag hst hkf
  obtain ⟨hwf, -, -, -, hwfld⟩ := u.wakeKeeps_unitWakes hk3 hi 8
  have hws := u.unitState_unitWakes hk3 hi hk3 i 8
  have hkw : (u.unitWakes kind i 8).Kept k := hkf.congr ((State.unitWakes_fr (Fr.refl _ _) (Sub.refl _)).hif_eq rfl)
  have hfw : (u.unitWakes kind i 8).flag Reg.PWR_UNIT_STATE_FORCED (unitInst kind i) = true := by
    rw [State.flag, hwfld _ _ (by decide) (by decide) (by decide)]
    exact hflag
  generalize u.unitWakes kind i 8 = w at hwf hws hkw hfw
  rw [hst] at hws
  obtain ⟨hregs, htf, -, hdone, hwait⟩ := State.waitUnit_spec hkw kind i
  have hwant : wantedState (w.power.forced.find (kind, i)) = unACTIVE := by rw [hwf, hforced]; rfl
  rw [hwant] at hdone hwait
  have hts : (w.waitUnit kind i k).unitState kind i = w.unitState kind i := State.unitState_of_fld hregs kind i
  refine ⟨by rw [htf, hwf, hforced], ?_, fun ha => ?_, fun hsleep => ?_⟩
  · rw [State.flag, hregs _ _ rfl]
    exact hfw
  · have hwa : w.unitState kind i = unACTIVE := by
      rw [hws, ha, if_neg fun h => absurd h.2.2 (by decide)]
    exact ⟨hdone hwa, hts.trans hwa⟩
  · have hww : w.unitState kind i = unWAKING := by
      rw [hws, if_pos ⟨rfl, rfl, .inr hsleep⟩]
    exact ⟨hts.trans hww, hwait (by rw [hww]; decide)⟩

/-- NAP and OFF of a unit that the cause does not refuse. -/
theorem State.unitPower_enter {s : State} {k : OpKey} (hkept : s.Kept k) {kind i : Nat} (hk : kind ≤ 2) {t goal : Nat}
    (hgoal : t = 2 ∧ goal = unNAP ∨ t = 3 ∧ goal = unOFF) :
    let t' := if s.unitState kind i = goal then (s.forceUnit kind i t).waitUnit kind i k
      else ((s.forceUnit kind i t).startEntry kind i goal).waitUnit kind i k
    t'.power.forced.find (kind, i) = some t ∧ t'.flag Reg.PWR_UNIT_STATE_FORCED (unitInst kind i) = true ∧
      (s.unitState kind i = goal → t'.endedWith k stOK = true ∧ t'.unitState kind i = goal) ∧
      (s.unitState kind i ≠ goal → t'.unitState kind i = unENTERING ∧ t'.power.entering.find (kind, i) = some goal ∧
        t'.power.forcedWait.find (kind, i) = some k) := by
  have hk3 : kind ≤ 3 := by omega
  obtain ⟨hforced, hflag, hhif, hfld⟩ := s.forceUnit_spec kind i t
  have hst : (s.forceUnit kind i t).unitState kind i = s.unitState kind i := State.unitState_congr hk3 i (hfld _ _ (by decide))
  have hkf : (s.forceUnit kind i t).Kept k := hkept.congr hhif
  generalize s.forceUnit kind i t = u at hforced hflag hst hkf
  have hwant : wantedState (some t) = goal := by rcases hgoal with ⟨rfl, rfl⟩ | ⟨rfl, rfl⟩ <;> rfl
  by_cases hg : s.unitState kind i = goal
  · rw [if_pos hg]
    obtain ⟨hregs, htf, -, hdone, -⟩ := State.waitUnit_spec hkf kind i
    rw [hforced, hwant] at hdone
    refine ⟨by rw [htf, hforced], ?_, fun _ => ⟨hdone (hst.trans hg), ?_⟩, fun hn => absurd hg hn⟩
    · rw [State.flag, hregs _ _ rfl]
      exact hflag
    · exact (State.unitState_of_fld hregs kind i).trans (hst.trans hg)
  · rw [if_neg hg]
    obtain ⟨hent, hfind⟩ := u.startEntry_spec hk3 i goal
    have hke : (u.startEntry kind i goal).Kept k := hkf.congr rfl
    have hfe : (u.startEntry kind i goal).power.forced.find (kind, i) = some t := hforced
    have hle : (u.startEntry kind i goal).flag Reg.PWR_UNIT_STATE_FORCED (unitInst kind i) = true := by
      rw [State.flag, State.startEntry, State.fld_onPower, State.setUnit, State.fld_setFld_clear _ _ _ _ _ _ (by decide)]
      exact hflag
    generalize u.startEntry kind i goal = w at hent hfind hke hfe hle
    obtain ⟨hregs, htf, hte, -, hwait⟩ := State.waitUnit_spec hke kind i
    rw [hfe, hwant] at hwait
    refine ⟨by rw [htf, hfe], ?_, fun hn => absurd hn hg, fun _ => ⟨?_, by rw [hte, hfind], hwait ?_⟩⟩
    · rw [State.flag, hregs _ _ rfl]
      exact hle
    · exact (State.unitState_of_fld hregs kind i).trans hent
    · rw [hent]
      rcases hgoal with ⟨-, rfl⟩ | ⟨-, rfl⟩ <;> decide

/-- A lane that is held awake or naps. -/
theorem State.unitPower_lane {s : State} {k : OpKey} (hkept : s.Kept k) {i t st : Nat} (ht : t = 1 ∧ st = 2 ∨ t = 2 ∧ st = 1) :
    let t' := ((s.forceUnit 4 i t).setLaneSt i st).waitUnit 4 i k
    t'.endedWith k stOK = true ∧ t'.power.forced.find (4, i) = some t ∧ t'.laneSt i = st := by
  obtain ⟨hforced, -, hhif, -⟩ := s.forceUnit_spec 4 i t
  have hkf : (s.forceUnit 4 i t).Kept k := hkept.congr hhif
  generalize s.forceUnit 4 i t = u at hforced hkf
  have hlane : (u.setLaneSt i st).laneSt i = st := (u.laneSt_setLaneSt i i (by omega)).trans (if_pos rfl)
  have hke : (u.setLaneSt i st).Kept k := hkf.congr rfl
  have hfe : (u.setLaneSt i st).power.forced.find (4, i) = some t := hforced
  generalize u.setLaneSt i st = w at hlane hke hfe
  obtain ⟨hregs, htf, -, hdone, -⟩ := State.waitUnit_spec hke 4 i
  refine ⟨hdone ?_, by rw [htf, hfe], (hregs _ _ rfl).trans hlane⟩
  rw [hfe, State.unitState, if_pos rfl, hlane]
  rcases ht with ⟨rfl, rfl⟩ | ⟨rfl, rfl⟩ <;> rfl

/-! ### The watch -/

theorem State.hbmWatch_hot {s : State} {k : Nat} {x : Int} (hk : k < 16) (hs : s.unitState 2 k = unWATCH) (hx : 1520 ≤ x) :
    (s.hbmWatch k x).unitState 2 k = unWAKING ∧ k ∈ (s.hbmWatch k x).power.hbmHot ∧ (s.hbmWatch k x).sensor 5 k = (⟨x, false⟩ : SensorVal) := by
  have heq : s.hbmWatch k x = ((s.takeReading ⟨5, k, some x⟩).unitWakes 2 k 8).memThreshold false k x := by
    unfold State.hbmWatch
    dsimp only
    rw [if_neg (by simp only [hs]; omega), if_pos hx]
  have hsensor : (s.takeReading ⟨5, k, some x⟩).sensor 5 k = (⟨x, false⟩ : SensorVal) := by
    rw [State.takeReading_stack s x hk]
    exact AMap.getD_put_self _ _ _ _
  have hst : (s.takeReading ⟨5, k, some x⟩).unitState 2 k = unWATCH := by
    rw [State.takeReading_stack s x hk]
    exact hs
  rw [heq]
  generalize s.takeReading ⟨5, k, some x⟩ = u at hsensor hst
  have hwake : (u.unitWakes 2 k 8).unitState 2 k = unWAKING := by
    rw [State.unitState_unitWakes u (by decide) hk (by decide), if_pos ⟨rfl, rfl, .inr (.inr (.inl hst))⟩]
  have hkeep : (u.unitWakes 2 k 8).mgmt = u.mgmt := (State.unitWakes_fr (Fr.refl _ _) (Sub.refl _)).mgmt_eq rfl
  generalize u.unitWakes 2 k 8 = w at hwake hkeep
  obtain ⟨hhot, hregs, hmgmt⟩ := w.memThreshold_hot k hx
  refine ⟨(State.unitState_of_fld hregs 2 k).trans hwake, hhot, (State.sensor_of_mgmtReports hmgmt 5 k).trans ?_⟩
  rw [State.sensor, hkeep]
  exact hsensor

theorem State.hbmWatch_cool {s : State} {k : Nat} {x : Int} (hk : k < 16) (hs : s.unitState 2 k = unWATCH) (hx : x < 1520) :
    s.hbmWatch k x = { s with mgmt := { s.mgmt with sensors := s.mgmt.sensors.put (5, k) ⟨x, false⟩ } } := by
  unfold State.hbmWatch
  dsimp only
  rw [if_neg (by simp only [hs]; omega), if_neg (by omega), State.takeReading_stack s x hk]

/-! ### Alarms -/

/-- The units an alarm that fires holds. -/
def State.alarmHolds (s : State) (a : Nat) (units : List (Nat × Nat)) : State :=
  if s.fld Reg.PWR_ALARM_CFG_HOLD_10MS a = 0 then s
  else s.onPower fun p => { p with held := p.held.filter (·.1 != a) ++ units.map fun u => (a, u.1, u.2) }

theorem State.alarmFire_eq {s : State} {a : Nat} (harm : s.power.armed.contains a = true) (hdue : s.reached (s.alarmTime a) = true) :
    s.alarmFire a =
      let t := ((((s.onPower fun p => { p with armed := without p.armed a }).setFld
        { Reg.PWR_ALARM_STATUS_FIRED with lsb := a, width := 1 } 0 1).wakes (s.alarmUnits a) 9).alarmHolds a (s.alarmUnits a))
      if t.flag Reg.PWR_ALARM_CFG_NOTIFY a then t.raise Ev.ALARM a 0 else t := by
  unfold State.alarmFire
  rw [if_neg (by rw [harm, hdue]; decide)]
  rfl

theorem State.alarmHolds_spec (s : State) (a : Nat) (units : List (Nat × Nat)) :
    (∀ f j, (s.alarmHolds a units).fld f j = s.fld f j) ∧ (s.alarmHolds a units).power.armed = s.power.armed ∧
    (s.fld Reg.PWR_ALARM_CFG_HOLD_10MS a = 0 → (s.alarmHolds a units).power.held = s.power.held) ∧
    (s.fld Reg.PWR_ALARM_CFG_HOLD_10MS a ≠ 0 → ∀ u, (a, u) ∈ (s.alarmHolds a units).power.held ↔ u ∈ units) := by
  unfold State.alarmHolds
  split
  · next h => exact ⟨fun _ _ => rfl, rfl, fun _ => rfl, fun hn => absurd h hn⟩
  · next h =>
    refine ⟨fun f j => State.fld_onPower _ _ _ _, rfl, fun hz => absurd hz h, fun _ u => ?_⟩
    show (a, u) ∈ s.power.held.filter (·.1 != a) ++ units.map (fun u => (a, u.1, u.2)) ↔ u ∈ units
    simp

/-- A raised event, or none, leaves the fields that count no events and the power unit. -/
theorem State.raiseIf_keeps (s : State) (b : Bool) (c i d : Nat) :
    (∀ f j, countsEvents f.blk f.off = false → (if b then s.raise c i d else s).fld f j = s.fld f j) ∧
    (if b then s.raise c i d else s).power = s.power := by
  have hr := s.raise_keeps c i d
  cases b with
  | false => exact ⟨fun _ _ _ => rfl, rfl⟩
  | true => exact ⟨fun f j hc => hr.fld_eq f j (by cases f.blk <;> rfl) hc, hr.power_eq rfl⟩

theorem State.alarmFire_spec {s : State} {a : Nat} (ha : a < 8) (harm : s.power.armed.contains a = true) (hdue : s.reached (s.alarmTime a) = true) :
    a ∉ (s.alarmFire a).power.armed ∧ (s.alarmFire a).fld { Reg.PWR_ALARM_STATUS_FIRED with lsb := a, width := 1 } = 1 ∧
    (∀ u ∈ s.alarmUnits a, s.unitState u.1 u.2 = unNAP ∨ s.unitState u.1 u.2 = unWATCH ∨ s.unitState u.1 u.2 = unOFF →
      (s.alarmFire a).unitState u.1 u.2 = unWAKING) ∧
    (s.fld Reg.PWR_ALARM_CFG_HOLD_10MS a = 0 → (s.alarmFire a).power.held = s.power.held) ∧
    (s.fld Reg.PWR_ALARM_CFG_HOLD_10MS a ≠ 0 → ∀ u, (a, u) ∈ (s.alarmFire a).power.held ↔ u ∈ s.alarmUnits a) := by
  have hmem : ∀ u ∈ s.alarmUnits a, u.1 ≤ 3 ∧ u.2 < unitCount u.1 := fun u hu => State.alarmUnits_mem hu
  rw [State.alarmFire_eq harm hdue]
  generalize s.alarmUnits a = units at hmem ⊢
  have harmed : a ∉ ((s.onPower fun p => { p with armed := without p.armed a }).setFld
      { Reg.PWR_ALARM_STATUS_FIRED with lsb := a, width := 1 } 0 1).power.armed := by
    show a ∉ without s.power.armed a
    simp [without]
  have hheld : ((s.onPower fun p => { p with armed := without p.armed a }).setFld
      { Reg.PWR_ALARM_STATUS_FIRED with lsb := a, width := 1 } 0 1).power.held = s.power.held := rfl
  have hfired : ((s.onPower fun p => { p with armed := without p.armed a }).setFld
      { Reg.PWR_ALARM_STATUS_FIRED with lsb := a, width := 1 } 0 1).fld { Reg.PWR_ALARM_STATUS_FIRED with lsb := a, width := 1 } = 1 :=
    State.fld_setFld_val _ _ _ _ (by show a + 1 ≤ 32; omega) Nat.one_lt_two
  have hother (f : Fld) (j : Nat) (ho : f.off ≠ Reg.PWR_ALARM_STATUS_FIRED.off) : ((s.onPower fun p => { p with armed := without p.armed a }).setFld
      { Reg.PWR_ALARM_STATUS_FIRED with lsb := a, width := 1 } 0 1).fld f j = s.fld f j := by
    exact (State.fld_setFld_clear _ { Reg.PWR_ALARM_STATUS_FIRED with lsb := a, width := 1 } _ _ _ _ (Fld.clearOf_of_off ho)).trans
      (State.fld_onPower _ _ _ _)
  generalize (s.onPower fun p => { p with armed := without p.armed a }).setFld { Reg.PWR_ALARM_STATUS_FIRED with lsb := a, width := 1 } 0 1 = u
    at harmed hheld hfired hother ⊢
  obtain ⟨-, hwheld, hwarmed, -, hwfld⟩ := State.wakeKeeps_wakes units hmem u 9
  have hwake := State.unitState_wakes units hmem u 9
  generalize u.wakes units 9 = w at hwheld hwarmed hwfld hwake ⊢
  obtain ⟨hafld, haarmed, hzero, hhold⟩ := w.alarmHolds_spec a units
  generalize w.alarmHolds a units = v at hafld haarmed hzero hhold ⊢
  obtain ⟨hrfld, hrpower⟩ := v.raiseIf_keeps (v.flag Reg.PWR_ALARM_CFG_NOTIFY a) Ev.ALARM a 0
  dsimp only
  generalize (if v.flag Reg.PWR_ALARM_CFG_NOTIFY a = true then v.raise Ev.ALARM a 0 else v) = t at hrfld hrpower ⊢
  have hcfg : w.fld Reg.PWR_ALARM_CFG_HOLD_10MS a = s.fld Reg.PWR_ALARM_CFG_HOLD_10MS a :=
    (hwfld _ _ (by decide) (by decide) (by decide)).trans (hother _ _ (by decide))
  rw [hcfg] at hzero hhold
  rw [hrpower]
  refine ⟨by rw [haarmed, hwarmed]; exact harmed, ?_, fun x hx hs => ?_, fun hz => (hzero hz).trans (hwheld.trans hheld), hhold⟩
  · have hoff (n : Nat) (hn : Reg.PWR_ALARM_STATUS_FIRED.off ≠ n) :
        ({ Reg.PWR_ALARM_STATUS_FIRED with lsb := a, width := 1 } : Fld).off ≠ n := hn
    rw [hrfld _ _ rfl, hafld, hwfld _ _ (Fld.clearOf_of_off (hoff _ (by decide))) (Fld.clearOf_of_off (hoff _ (by decide)))
      (Fld.clearOf_of_off (hoff _ (by decide)))]
    exact hfired
  · obtain ⟨hx3, -⟩ := hmem x hx
    have hux : u.unitState x.1 x.2 = s.unitState x.1 x.2 := State.unitState_congr hx3 x.2 (hother _ _ (by decide))
    have hvx : v.unitState x.1 x.2 = w.unitState x.1 x.2 := State.unitState_congr hx3 x.2 (hafld _ _)
    have htx : t.unitState x.1 x.2 = v.unitState x.1 x.2 := State.unitState_of_fld hrfld x.1 x.2
    rw [htx, hvx]
    exact hwake x hx (by rw [hux]; exact hs)

/-- What an idle entry leaves. -/
theorem State.idleEntry_spec {s : State} {kind i target : Nat} {from_ : List Nat} (hk : kind ≤ 3) (hi : i < unitCount kind)
    (hforced : s.power.forced.find (kind, i) = none) (hholder : s.unitHolder kind i = none)
    (hfrom : from_.contains (s.unitState kind i) = true) (hco : s.coreOff = false) :
    match s.entryCause kind i target with
      | none => (s.idleEntry kind i target from_).unitState kind i = unENTERING ∧
          (s.idleEntry kind i target from_).power.entering.find (kind, i) = some target
      | some c => (s.idleEntry kind i target from_).fld Reg.PWR_UNIT_STATE_LAST_CAUSE (unitInst kind i) = c % 16 ∧
          (s.idleEntry kind i target from_).unitState kind i = s.unitState kind i ∧
          (s.idleEntry kind i target from_).fld Reg.PWR_UNIT_REFUSE_REFUSED (unitInst kind i) =
            satAdd 0xFFFF (s.fld Reg.PWR_UNIT_REFUSE_REFUSED (unitInst kind i)) 1 := by
  rw [State.idleEntry_eq hk hi hforced hholder hfrom hco]
  cases s.entryCause kind i target with
  | none => exact s.startEntry_spec hk i target
  | some c => exact s.refuseEntry_spec hk i c

/-- A refused request names its cause in EXT and in the unit's register. -/
theorem State.unitPower_refused {s : State} {k : OpKey} (hkept : s.Kept k) {kind : Nat} (hk : kind ≤ 3) (i c : Nat) :
    let t := (s.refuseEntry kind i c).finish k stBAD_FIELD c
    t.endedWith k stBAD_FIELD = true ∧ t.unitState kind i = s.unitState kind i ∧
      t.fld Reg.PWR_UNIT_STATE_LAST_CAUSE (unitInst kind i) = c % 16 ∧
      t.fld Reg.PWR_UNIT_REFUSE_REFUSED (unitInst kind i) = satAdd 0xFFFF (s.fld Reg.PWR_UNIT_REFUSE_REFUSED (unitInst kind i)) 1 := by
  obtain ⟨hcause, hst, hcount⟩ := s.refuseEntry_spec hk i c
  have hkr : (s.refuseEntry kind i c).Kept k := hkept.congr rfl
  generalize s.refuseEntry kind i c = u at hcause hst hcount hkr
  have hf := u.finish_keeps k stBAD_FIELD c 0
  refine ⟨State.endedWith_finish hkr _ _ _, ?_, (hf.fld_eq _ _ rfl rfl).trans hcause, (hf.fld_eq _ _ rfl rfl).trans hcount⟩
  exact (State.unitState_congr hk i (hf.fld_eq _ _ rfl rfl)).trans hst

/-- UNIT_POWER of a unit or a target that does not exist. -/
theorem State.unitPower_bad {s : State} {o : Op} (h : bitsOf (mParam0 o.desc) 0 3 = 3 ∨ 4 < bitsOf (mParam0 o.desc) 0 3 ∨
    unitCount (bitsOf (mParam0 o.desc) 0 3) ≤ bitsOf (mParam0 o.desc) 3 8 ∨
    bitsOf (mParam0 o.desc) 0 3 = 4 ∧ bitsOf (mParam0 o.desc) 12 2 = 3) : s.unitPower o = s.finish o.key stBAD_FIELD := by
  unfold State.unitPower
  refine if_pos (h.imp_right (Or.imp_right (Or.imp_right fun h4 => ?_)))
  rw [h4.1, h4.2]
  rfl

/-- A request that the PF's ring holds and that may start runs as the text of UNIT_POWER. -/
theorem unitPower_exec {s : State} {op : OpKey} {o : Op} (h : s.Ready op o) (hw : isMgmt 0x000F o.desc = true) (hfn : o.fn = 0) :
    exec (.unitPower op) s = .next ((s.setOp o.started).unitPower o.started) :=
  congrArg Host.Outcome.next (State.mgmtPF_ready h hw hfn _)

/-- Settles O14: each command is an entry, a wake-up or an end of the one unit it names. -/
theorem unitRows : Obligations.UnitRows := by
  unfold Obligations.UnitRows
  refine ⟨fun s kind i hk hi hforced hholder hst hco => ⟨_, rfl, ?_⟩, fun s kind i hk hi hforced hholder hst hco => ⟨_, rfl, ?_⟩,
    fun s kind i st hco hk hst hent hle => ⟨_, rfl, ?_⟩, fun s kind i hco hk hst hent => ⟨_, rfl, ?_⟩,
    fun s kind i hco hk hi hst => ⟨_, rfl, ?_⟩, fun s kind i hco hk hi hst => ⟨_, rfl, ?_⟩,
    fun s op o hready hw hfn hbad => ⟨_, unitPower_exec hready hw hfn, ?_⟩,
    fun s op o kind i hready hw hfn hkind hi hcount hne hle ht => ⟨_, unitPower_exec hready hw hfn, ?_⟩,
    fun s op o kind i hready hw hfn hkind hi hcount hle ht => ⟨_, unitPower_exec hready hw hfn, ?_⟩,
    fun s op o kind i goal c hready hw hfn hkind hi hcount hle ht hcause => ⟨_, unitPower_exec hready hw hfn, ?_⟩,
    fun s op o kind i goal hready hw hfn hkind hi hcount hle ht hcause => ⟨_, unitPower_exec hready hw hfn, ?_⟩,
    fun s op o i hready hw hfn hkind hi hcount hon ht => ⟨_, unitPower_exec hready hw hfn, ?_⟩,
    fun s k x hco hk hst hx => ⟨_, rfl, ?_⟩, fun s k x hco hk hst hx => ⟨_, rfl, ?_⟩,
    fun s a hco harm hdue ha => ⟨_, rfl, ?_⟩, fun s a hco => ⟨_, rfl, ?_⟩⟩
  case refine_1 =>
    rw [State.inCore_on hco, ← hst]
    exact State.idleEntry_spec hk hi hforced hholder (by rw [hst]; rfl) hco
  case refine_2 =>
    have heq : s.idleOff kind i = s.idleEntry kind i (if kind = 2 then unWATCH else unOFF) [unACTIVE, unNAP] := if_neg (by omega)
    rw [State.inCore_on hco, heq]
    exact State.idleEntry_spec (by omega) hi hforced hholder (by rcases hst with h | h <;> rw [h] <;> rfl) hco
  case refine_3 =>
    rw [State.inCore_on hco]
    exact State.unitEntered_of_entering hk hle hst hent
  case refine_4 =>
    rw [State.inCore_on hco]
    exact State.unitEntered_of_waking hk hst hent
  case refine_5 =>
    rw [State.inCore_on hco]
    exact (State.unitState_unitWakes s hk hi hk i 8).trans (if_pos ⟨rfl, rfl, .inr hst⟩)
  case refine_6 =>
    rw [State.inCore_on hco, State.unitWakes_of_entering hk hi hst]
    exact ⟨(s.unitState_abortEntry hk kind i i 8).trans ((s.unitState_setUnit hk hk i i (by decide)).trans (if_pos ⟨rfl, rfl⟩)),
      s.abortEntry_spec kind i (by decide)⟩
  case refine_7 =>
    have hkept := hready.kept
    obtain ⟨-, rfl, -⟩ := hready
    have hfr : Fr 0x40000000 s ((s.setOp o.started).finish o.started.key stBAD_FIELD) :=
      State.finish_fr (State.setOp_keeps _ _) (Sub.refl _)
    rw [State.unitPower_bad (o := o.started) hbad]
    exact ⟨State.endedWith_finish hkept _ _ _, hfr.within (by decide +kernel)⟩
  case refine_8 =>
    have hkept := hready.kept
    obtain ⟨-, rfl, -⟩ := hready
    have hnamed : ¬(kind = 3 ∨ 4 < kind ∨ unitCount kind ≤ i ∨ unitHas kind unACTIVE = false) := by
      rw [show unitHas kind unACTIVE = true from rfl]
      simp only [Bool.true_eq_false, or_false]
      omega
    rw [State.unitPower_eq (o := o.started) (goal := unACTIVE) hkind hi ht rfl hnamed, if_pos rfl]
    exact State.unitPower_allow hkept kind i
  case refine_9 =>
    have hkept := hready.kept
    obtain ⟨-, rfl, -⟩ := hready
    rw [State.unitPower_eq (o := o.started) hkind hi ht rfl (unit_named hle hcount), if_neg (by decide), if_pos rfl, if_neg (by omega)]
    exact State.unitPower_hold hkept hle hcount
  case refine_10 =>
    have hkept := hready.kept
    obtain ⟨-, rfl, -⟩ := hready
    have hc : (s.setOp o.started).entryCause kind i goal = some c := hcause
    rw [State.unitPower_eq (o := o.started) (goal := goal) hkind hi rfl (by rcases ht with ⟨h, rfl⟩ | ⟨h, rfl⟩ <;> rw [Op.started_desc, h] <;> rfl)
      (unit_named hle hcount), if_neg (by simp only [Op.started_desc]; omega), if_neg (by simp only [Op.started_desc]; omega), hc]
    exact State.unitPower_refused hkept (by omega) i c
  case refine_11 =>
    have hkept := hready.kept
    obtain ⟨-, rfl, -⟩ := hready
    have hc : (s.setOp o.started).entryCause kind i goal = none := hcause
    rw [State.unitPower_eq (o := o.started) (goal := goal) hkind hi rfl (by rcases ht with ⟨h, rfl⟩ | ⟨h, rfl⟩ <;> rw [Op.started_desc, h] <;> rfl)
      (unit_named hle hcount), if_neg (by simp only [Op.started_desc]; omega), if_neg (by simp only [Op.started_desc]; omega), hc]
    dsimp only
    rw [if_neg (by omega)]
    exact State.unitPower_enter hkept hle (ht.imp id id)
  case refine_12 =>
    have hkept := hready.kept
    obtain ⟨-, rfl, -⟩ := hready
    have hnamed : ∀ goal, goal ≠ unOFF → ¬(4 = 3 ∨ 4 < 4 ∨ unitCount 4 ≤ i ∨ unitHas 4 goal = false) := by
      intro goal hg
      rw [show unitHas 4 goal = true from if_neg hg]
      simp only [Bool.true_eq_false, or_false, show unitCount 4 = 64 from rfl]
      omega
    have hlane (t : Nat) : ((s.setOp o.started).forceUnit 4 i t).laneSt i = s.laneSt i :=
      ((s.setOp o.started).forceUnit_spec 4 i t).2.2.2 _ _ (by decide)
    have hlaneOn (t : Nat) : ((s.setOp o.started).forceUnit 4 i t).laneOn i = true :=
      (State.laneOn_forceUnit _ _ _ _ _).trans hon
    rcases ht with ⟨ht, hst⟩ | ⟨ht, hcause⟩
    · have hrun : (s.setOp o.started).unitPower o.started = (((s.setOp o.started).forceUnit 4 i 1).setLaneSt i 2).waitUnit 4 i o.key := by
        rw [State.unitPower_eq (o := o.started) (goal := unACTIVE) hkind.symm hi ht rfl (hnamed _ (by decide)), if_neg (by decide), if_pos rfl,
          if_pos rfl, hlaneOn, hlane, hst]
        rfl
      rw [hrun, ht]
      exact State.unitPower_lane hkept (.inl ⟨rfl, rfl⟩)
    · have hc : (s.setOp o.started).entryCause 4 i unNAP = none := hcause
      have hrun : (s.setOp o.started).unitPower o.started = (((s.setOp o.started).forceUnit 4 i 2).setLaneSt i 1).waitUnit 4 i o.key := by
        rw [State.unitPower_eq (o := o.started) (goal := unNAP) hkind.symm hi ht rfl (hnamed _ (by decide)), if_neg (by decide),
          if_neg (by decide), hc]
        dsimp only
        rw [if_pos rfl, if_pos (hlaneOn 2)]
        rfl
      rw [hrun, ht]
      exact State.unitPower_lane hkept (.inr ⟨rfl, rfl⟩)
  case refine_13 =>
    rw [State.inCore_on hco]
    exact State.hbmWatch_hot hk hst hx
  case refine_14 =>
    rw [State.inCore_on hco, State.hbmWatch_cool hk hst hx]
    have hfr : Fr 0x10000000 s { s with mgmt := { s.mgmt with sensors := s.mgmt.sensors.put (5, k) ⟨x, false⟩ } } :=
      Fr.mgmt_ (Fr.refl _ _) rfl
    exact ⟨hst, AMap.getD_put_self _ _ _ _, hfr.within (by decide +kernel)⟩
  case refine_15 =>
    rw [State.inCore_on hco]
    exact State.alarmFire_spec ha harm hdue
  case refine_16 =>
    rw [State.inCore_on hco]
    rfl

end Sys2Proof.Machine


/-!
PROOFS. The commit mechanism from GO to the boundary (R86 to R92).
-/

namespace Sys2Proof.Machine

/-! ### Ports and shadow copies -/

/-- The parts a group's going live may touch, and what freed setts may start: everything but the commit registers and the shadow
copies. -/
def allButSetup : Nat := 0x3ffffffbffffff

theorem okBlk_allButSetup (b : Blk) : okBlk allButSetup b = true := by cases b <;> decide

theorem Fr.port_eq {X : Nat} {s t : State} (h : Fr X s t) (hX : X.testBit 26 = false) (v : View) (b : Blk) : t.port v b = s.port v b := by
  have hs : Part.same s t .setup := h.parts .setup hX
  rw [State.port, hs.2, State.port]

theorem State.port_goLive (s : State) (v v' : View) (b b' : Blk) (g : Nat) (c : AMap Nat Word) :
    (s.goLive v b g c).port v' b' = s.port v' b' :=
  (State.goLive_fr (X := allButSetup) (Fr.refl _ s) (okBlk_allButSetup b) rfl).port_eq rfl v' b'

theorem State.port_pooled (s : State) (f : State → State) (v : View) (b : Blk) : (s.pooled f).port v b = (f s).port v b :=
  (s.pooled_keeps f).port_eq rfl v b

/-- What a requester that writes COMMIT_CTRL reaches. -/
theorem State.ctrlWrite_of_abandon (s : State) (v : View) (b : Blk) (w : Word) (hp : s.portReached v b 0xFF010 = true)
    (hg : bitAt w.toNat 0 = false) (ha : bitAt w.toNat 1 = true) :
    s.ctrlWrite v b w = (s.onPort v b fun p => { p with readSel := bitAt w.toNat 8 }).commitAbandon v b := by
  simp only [State.ctrlWrite, hp, hg, ha]
  rfl

/-! ### GO -/

theorem State.commitGo_of_checking (s : State) (v : View) (b : Blk) (h : (s.port v b).result = .checking) :
    s.commitGo v b = s.setPort v b ((s.port v b).noteError false false true) := by
  unfold State.commitGo
  dsimp only
  rw [h]

theorem State.commitGo_of_mask (s : State) (v : View) (b : Blk) (h : (s.port v b).result ≠ .checking) (hm : (s.port v b).mask ≠ 0) :
    s.commitGo v b = s.setPort v b { s.port v b with
      result := .checking, errGroup := 0, errCode := 0, captured := some ((s.port v b).mask, s.capture v b (s.port v b).mask) } := by
  unfold State.commitGo
  dsimp only
  cases hr : (s.port v b).result with
  | checking => exact absurd hr h
  | idle | accepted | refused | empty => exact if_neg hm

/-! ### ABANDON -/

theorem State.shadowReg_setShadow (s : State) (v : View) (b : Blk) (o o' : Nat) (w : Word) :
    (s.setShadow v b o w).shadowReg v b o' = if o' = o then w else s.shadowReg v b o' := by
  unfold State.shadowReg State.setShadow
  by_cases h : o' = o
  · rw [if_pos h, h]
    simp
  · rw [if_neg h]
    dsimp only
    rw [AMap.find_put_ne _ _ _ _ (by simp [h])]

/-- A list of registers whose shadow copies take the live values. -/
def State.shadowsLive (s : State) (v : View) (b : Blk) (l : List Nat) : State :=
  l.foldl (fun (s : State) o => s.setShadow v b o (s.liveReg v b o)) s

theorem State.liveReg_setShadow (s : State) (v : View) (b : Blk) (o o' : Nat) (w : Word) :
    (s.setShadow v b o w).liveReg v b o' = s.liveReg v b o' := rfl

theorem State.shadowsLive_spec (l : List Nat) (s : State) (v : View) (b : Blk) :
    (∀ o, (s.shadowsLive v b l).liveReg v b o = s.liveReg v b o) ∧
    ∀ o, (s.shadowsLive v b l).shadowReg v b o = if o ∈ l then s.liveReg v b o else s.shadowReg v b o := by
  induction l generalizing s with
  | nil => exact ⟨fun _ => rfl, fun _ => by rw [if_neg (List.not_mem_nil)]; rfl⟩
  | cons x l ih =>
    obtain ⟨hlive, hshadow⟩ := ih (s.setShadow v b x (s.liveReg v b x))
    refine ⟨hlive, fun o => (hshadow o).trans ?_⟩
    rw [State.liveReg_setShadow, State.shadowReg_setShadow]
    by_cases hx : o = x
    · simp [hx]
    · simp [hx]

/-- The groups that ABANDON takes back, one after another. -/
def State.groupsLive (s : State) (v : View) (b : Blk) (gs : List Nat) : State :=
  gs.foldl (fun (s : State) g => s.shadowsLive v b (groupOffs b g)) s

theorem State.groupsLive_spec (gs : List Nat) (s : State) (v : View) (b : Blk) :
    (∀ o, (s.groupsLive v b gs).liveReg v b o = s.liveReg v b o) ∧
    ∀ o, (s.shadowReg v b o = s.liveReg v b o ∨ ∃ g ∈ gs, o ∈ groupOffs b g) →
      (s.groupsLive v b gs).shadowReg v b o = s.liveReg v b o := by
  induction gs generalizing s with
  | nil => exact ⟨fun _ => rfl, fun o h => h.elim id fun ⟨g, hg, _⟩ => absurd hg List.not_mem_nil⟩
  | cons x gs ih =>
    obtain ⟨hxlive, hxshadow⟩ := State.shadowsLive_spec (groupOffs b x) s v b
    obtain ⟨hlive, hshadow⟩ := ih (s.shadowsLive v b (groupOffs b x))
    refine ⟨fun o => (hlive o).trans (hxlive o), fun o ho => (hshadow o ?_).trans (hxlive o)⟩
    rw [hxlive, hxshadow]
    by_cases hx : o ∈ groupOffs b x
    · exact .inl (if_pos hx)
    · rw [if_neg hx]
      refine ho.imp id fun ⟨g, hg, hog⟩ => ⟨g, (List.mem_cons.1 hg).resolve_left ?_, hog⟩
      rintro rfl
      exact hx hog

theorem State.commitAbandon_spec (s : State) (v : View) (b : Blk) (h : (s.port v b).result ≠ .checking) :
    ∀ g ∈ maskGroups (s.port v b).mask, groupOwned v b g = true → (s.port v b).pend.has g = false →
      ∀ o ∈ groupOffs b g, (s.commitAbandon v b).shadowReg v b o = s.liveReg v b o := by
  intro g hg hown hpend o ho
  have heq : s.commitAbandon v b = s.groupsLive v b ((maskGroups (s.port v b).mask).filter fun g =>
      groupOwned v b g && !(s.port v b).pend.has g) := by
    unfold State.commitAbandon
    dsimp only
    cases hr : (s.port v b).result with
    | checking => exact absurd hr h
    | idle | accepted | refused | empty => rfl
  rw [heq]
  refine (State.groupsLive_spec _ s v b).2 o (.inr ⟨g, List.mem_filter.2 ⟨hg, ?_⟩, ho⟩)
  rw [hown, hpend]
  rfl

/-! ### The end of checking -/

theorem State.checkEnd_of_fail {s : State} {v : View} {b : Blk} {mask : Nat} {c : AMap Nat Word} {f : CommitFail}
    (hr : (s.port v b).result = .checking) (hc : (s.port v b).captured = some (mask, c)) (hf : s.commitFail v b mask c = some f) (busy : Bool) :
    s.checkEnd v b busy = (s.setPort v b { s.port v b with
      result := .refused, seq := ((s.port v b).seq + 1) % 65536, errGroup := f.group, errCode := f.code, errOff := f.off, errLsb := f.lsb
      captured := none }).raise Ev.COMMIT_REFUSED 0
        (blkCode b + f.group * 2 ^ 8 + f.code * 2 ^ 16 + ((s.port v b).seq + 1) % 65536 * 2 ^ 32) := by
  unfold State.checkEnd
  dsimp only
  rw [hr, hc]
  dsimp only
  rw [hf]

/-- The commit registers after an accepted commit. -/
def State.acceptedPort (s : State) (v : View) (b : Blk) (mask : Nat) (c : AMap Nat Word) (busy : Bool) : CommitPort :=
  { s.port v b with
    result := .accepted, seq := ((s.port v b).seq + 1) % 65536, errGroup := 0, errCode := 0, errOff := 0, errLsb := 0, captured := none
    pend := (s.port v b).pend ++ ((maskGroups mask).filter fun g => s.groupWaits b g c busy).map fun g => (g, ofGroup b g c) }

theorem State.port_checkEnd_of_pass {s : State} {v : View} {b : Blk} {mask : Nat} {c : AMap Nat Word}
    (hr : (s.port v b).result = .checking) (hc : (s.port v b).captured = some (mask, c)) (hf : s.commitFail v b mask c = none) (busy : Bool) :
    (s.checkEnd v b busy).port v b = s.acceptedPort v b mask c busy := by
  unfold State.checkEnd
  dsimp only
  rw [hr, hc]
  dsimp only
  rw [hf]
  refine (foldl_keeps (P := fun t : State => t.port v b) (fun t g _ => t.port_goLive v v b b g _) _).trans ?_
  exact State.port_setPort_self _ _ _ _

theorem AMap.has_append_of_mem {κ α : Type} [DecidableEq κ] (m m' : AMap κ α) {k : κ} {x : α} (h : (k, x) ∈ m') :
    AMap.has (m ++ m') k = true := by
  induction m with
  | nil =>
    induction m' with
    | nil => cases h
    | cons p m' ih =>
      obtain ⟨k0, x0⟩ := p
      by_cases hk : k0 = k
      · simp [AMap.has, AMap.find, hk]
      · have hrest : (k, x) ∈ m' := (List.mem_cons.1 h).resolve_left fun e => hk (congrArg Prod.fst e).symm
        simpa [AMap.has, AMap.find, hk] using ih hrest
  | cons p m ih =>
    obtain ⟨k0, x0⟩ := p
    by_cases hk : k0 = k
    · simp [AMap.has, AMap.find, hk]
    · simpa [AMap.has, AMap.find, hk] using ih

/-! ### Boundaries -/

theorem AMap.has_del {κ α : Type} [DecidableEq κ] (m : AMap κ α) (k k' : κ) (h : AMap.has m k' = false) : AMap.has (AMap.del m k) k' = false := by
  unfold AMap.has at h ⊢
  by_cases e : k' = k
  · rw [e, AMap.find_del_self]
    rfl
  · rwa [AMap.find_del_ne _ _ _ e]

/-- A boundary takes its group off its list, puts none on any, and leaves every result. -/
theorem State.port_boundary (s : State) (v : View) (b : Blk) (g : Nat) (v' : View) (b' : Blk) :
    ((s.boundary v b g).port v' b').result = (s.port v' b').result ∧
    (∀ g', (s.port v' b').pend.has g' = false → ((s.boundary v b g).port v' b').pend.has g' = false) := by
  unfold State.boundary
  dsimp only
  split
  · rw [State.port_goLive]
    by_cases h : (v', b') = (v, b)
    · cases h
      rw [State.port_setPort_self]
      exact ⟨rfl, fun g' hg => AMap.has_del _ _ _ hg⟩
    · rw [State.port_setPort_ne _ _ _ _ _ _ h]
      exact ⟨rfl, fun _ hg => hg⟩
  · exact ⟨rfl, fun _ hg => hg⟩

/-- A pending group whose boundary comes waits no more. -/
theorem State.boundary_of_pending {s : State} {v : View} {b : Blk} {g : Nat} {c : AMap Nat Word} (h : (s.port v b).pend.find g = some c) :
    s.boundary v b g = (s.setPort v b { s.port v b with pend := (s.port v b).pend.del g }).goLive v b g c := by
  unfold State.boundary
  dsimp only
  rw [h]

theorem State.has_boundary_self {s : State} {v : View} {b : Blk} {g : Nat} {c : AMap Nat Word} (h : (s.port v b).pend.find g = some c) :
    ((s.boundary v b g).port v b).pend.has g = false := by
  rw [State.boundary_of_pending h, State.port_goLive, State.port_setPort_self]
  exact congrArg Option.isSome (AMap.find_del_self _ _)

/-- A refill moves the groups that wait for it, and leaves every result. -/
theorem State.port_refillTick (s : State) (v : View) (b : Blk) : (s.refillTick.port v b).result = (s.port v b).result ∧
    ∀ g, (s.port v b).pend.has g = false → (s.refillTick.port v b).pend.has g = false := by
  have hloop (l : List (View × Blk × Nat)) (u : State) :
      ((l.foldl (fun (s : State) x => s.boundary x.1 x.2.1 x.2.2) u).port v b).result = (u.port v b).result ∧
      ∀ g, (u.port v b).pend.has g = false → ((l.foldl (fun (s : State) x => s.boundary x.1 x.2.1 x.2.2) u).port v b).pend.has g = false := by
    induction l generalizing u with
    | nil => exact ⟨rfl, fun _ h => h⟩
    | cons x l ih =>
      obtain ⟨hr, hp⟩ := u.port_boundary x.1 x.2.1 x.2.2 v b
      obtain ⟨hr', hp'⟩ := ih (u.boundary x.1 x.2.1 x.2.2)
      exact ⟨hr'.trans hr, fun g h => hp' g (hp g h)⟩
  have href (u : State) : u.refill.port v b = u.port v b := (State.refill_fr (Fr.refl _ u) (Sub.refl _)).port_eq rfl v b
  unfold State.refillTick
  rw [href]
  exact hloop _ s

theorem State.boundaryCome_spec {s : State} {v : View} {b : Blk} {g : Nat} {c : AMap Nat Word} (h : (s.port v b).pend.find g = some c) :
    ((s.boundaryCome v b g).port v b).pend.has g = false ∧ ((s.boundaryCome v b g).port v b).result = (s.port v b).result := by
  have hhas : (s.port v b).pend.has g = true := by rw [AMap.has, h]; rfl
  unfold State.boundaryCome
  rw [if_neg (by rw [hhas]; decide)]
  obtain ⟨hr, -⟩ := s.port_boundary v b g v b
  have hp := State.has_boundary_self h
  split
  · obtain ⟨hr', hp'⟩ := (s.boundary v b g).port_refillTick v b
    exact ⟨hp' g hp, hr'.trans hr⟩
  · exact ⟨hp, hr⟩

/-! ### Live values -/

/-- The live instance does not rest on the registers of a group, but for the rings of a virtual function. -/
theorem State.capInst_congr {s t : State} (h : ∀ n, t.fld Reg.HIF_VF_RINGS_RING_BASE n = s.fld Reg.HIF_VF_RINGS_RING_BASE n) (v : View)
    (c : AMap Nat Word) (d : RegDef) : t.capInst v c d = s.capInst v c d := by
  unfold State.capInst State.capRing State.globalRing
  rw [h]

/-- A register's live word after its captured value is merged. -/
def mergedWord (d : RegDef) (old new : Word) : Word :=
  BitVec.ofNat 32 (writeFields d.fields (fun f => f.acc == .rws) old.toNat new.toNat)

/-- The merge, register by register. -/
def State.mergeRegs (s : State) (v : View) (b : Blk) (c : AMap Nat Word) (l : List Nat) : State :=
  l.foldl (fun (s : State) o =>
    match regDefAt b o with
    | some d => s.setReg ⟨b, o, s.capInst v c d⟩ (mergedWord d (s.reg ⟨b, o, s.capInst v c d⟩) (c.getD o 0))
    | none => s) s

theorem State.mergeLive_eq (s : State) (v : View) (b : Blk) (g : Nat) (c : AMap Nat Word) :
    s.mergeLive v b g c = s.mergeRegs v b c (groupOffs b g) := rfl

/-- Each register of the list, listed once, takes its captured value in its RWS fields; no other register changes. -/
theorem State.mergeRegs_spec (v : View) (b : Blk) (c : AMap Nat Word) (l : List Nat) (hnodup : l.Nodup)
    (hbase : b = .hif → Reg.HIF_VF_RINGS_RING_BASE.off ∉ l) (s : State) :
    (∀ o ∉ l, ∀ i, (s.mergeRegs v b c l).reg ⟨b, o, i⟩ = s.reg ⟨b, o, i⟩) ∧
    ∀ o ∈ l, ∀ d, regDefAt b o = some d →
      (s.mergeRegs v b c l).reg ⟨b, o, s.capInst v c d⟩ = mergedWord d (s.reg ⟨b, o, s.capInst v c d⟩) (c.getD o 0) := by
  induction l generalizing s with
  | nil => exact ⟨fun _ _ _ => rfl, fun o ho => absurd ho List.not_mem_nil⟩
  | cons x l ih =>
    obtain ⟨hx, hl⟩ := List.nodup_cons.1 hnodup
    have hbl : b = .hif → Reg.HIF_VF_RINGS_RING_BASE.off ∉ l := fun h hm => hbase h (List.mem_cons_of_mem _ hm)
    cases hd : regDefAt b x with
    | none =>
      have hstep : s.mergeRegs v b c (x :: l) = s.mergeRegs v b c l := by
        unfold State.mergeRegs
        rw [List.foldl_cons, hd]
      obtain ⟨hout, hin⟩ := ih hl hbl s
      rw [hstep]
      refine ⟨fun o ho i => hout o (fun h => ho (List.mem_cons_of_mem _ h)) i, fun o ho d hod => hin o ((List.mem_cons.1 ho).resolve_left ?_) d hod⟩
      rintro rfl
      rw [hd] at hod
      cases hod
    | some d =>
      obtain ⟨hout, hin⟩ := ih hl hbl (s.setReg ⟨b, x, s.capInst v c d⟩ (mergedWord d (s.reg ⟨b, x, s.capInst v c d⟩) (c.getD x 0)))
      have hstep : s.mergeRegs v b c (x :: l) =
          (s.setReg ⟨b, x, s.capInst v c d⟩ (mergedWord d (s.reg ⟨b, x, s.capInst v c d⟩) (c.getD x 0))).mergeRegs v b c l := by
        unfold State.mergeRegs
        rw [List.foldl_cons, hd]
      rw [hstep]
      have hkeep (o i : Nat) (ho : o ≠ x) : (s.setReg ⟨b, x, s.capInst v c d⟩
          (mergedWord d (s.reg ⟨b, x, s.capInst v c d⟩) (c.getD x 0))).reg ⟨b, o, i⟩ = s.reg ⟨b, o, i⟩ :=
        State.reg_setReg_ne _ _ _ _ (by simp [ho])
      have hinst (d' : RegDef) : (s.setReg ⟨b, x, s.capInst v c d⟩
          (mergedWord d (s.reg ⟨b, x, s.capInst v c d⟩) (c.getD x 0))).capInst v c d' = s.capInst v c d' := by
        refine State.capInst_congr (fun n => ?_) v c d'
        unfold State.fld
        rw [State.reg_setReg_ne]
        intro e
        injection e with e1 e2
        exact hbase e1.symm (by rw [e2]; exact List.mem_cons_self)
      refine ⟨fun o ho i => ?_, fun o ho d' hod => ?_⟩
      · rw [hout o (fun h => ho (List.mem_cons_of_mem _ h)) i, hkeep o i (fun h => ho (h ▸ List.mem_cons_self))]
      · by_cases hox : o = x
        · subst hox
          rw [hd] at hod
          cases hod
          rw [hout o hx, State.reg_setReg]
        · have hrest := hin o ((List.mem_cons.1 ho).resolve_left hox) d' hod
          rw [hinst, hkeep o _ hox] at hrest
          exact hrest

/-- The groups whose boundary is the end of a unit of work, but for that of link security: what their going live causes leaves
every register but those of the sett pool. -/
theorem unitBoundary_cases {b : Blk} {g : Nat} (h : groupBoundary b g = .unit) (hb : b ≠ .lsc) :
    (b = .hif ∧ g = 0) ∨ (b = .swc ∧ g = 1) ∨ (b = .swc ∧ g = 2) ∨ (b = .tms ∧ g = 0) ∨ (b = .tpt ∧ g = 2) ∨ (b = .opt ∧ g = 1) ∨
      (b = .tim ∧ g = 3) := by
  unfold groupBoundary at h
  split at h <;> simp_all

theorem State.wentLive_unit (old s : State) (v : View) {b : Blk} {g : Nat} (c : AMap Nat Word) (h : groupBoundary b g = .unit) (hb : b ≠ .lsc) :
    Fr 0x2c001870000040 s (old.wentLive s v b g c) ∨ Fr 0x8001040000000 s (old.wentLive s v b g c) := by
  rcases unitBoundary_cases h hb with ⟨rfl, rfl⟩ | ⟨rfl, rfl⟩ | ⟨rfl, rfl⟩ | ⟨rfl, rfl⟩ | ⟨rfl, rfl⟩ | ⟨rfl, rfl⟩ | ⟨rfl, rfl⟩
  · exact .inr (Fr.ite (fun _ => State.ringOn_fr (Fr.refl _ _) rfl) fun _ => Fr.ite (fun _ => State.ringOff_fr (Fr.refl _ _) rfl) fun _ => Fr.refl _ _)
  · exact .inr (Fr.refl _ _)
  · exact .inr (Fr.refl _ _)
  · exact .inr (State.classesLive_fr (Fr.refl _ _) rfl)
  · exact .inl (Fr.ite (fun _ => Fr.refl _ _) fun _ => State.llrReset_fr (Fr.refl _ _) rfl)
  · exact .inr (Fr.refl _ _)
  · exact .inr (Fr.refl _ _)

/-- The registers of such a group are listed once, count no events and are not the ring base of a virtual function. -/
theorem unitBoundary_offs {b : Blk} {g : Nat} (h : groupBoundary b g = .unit) (hb : b ≠ .lsc) :
    (groupOffs b g).Nodup ∧ (∀ o ∈ groupOffs b g, countsEvents b o = false) ∧ (b = .hif → Reg.HIF_VF_RINGS_RING_BASE.off ∉ groupOffs b g) := by
  rcases unitBoundary_cases h hb with ⟨rfl, rfl⟩ | ⟨rfl, rfl⟩ | ⟨rfl, rfl⟩ | ⟨rfl, rfl⟩ | ⟨rfl, rfl⟩ | ⟨rfl, rfl⟩ | ⟨rfl, rfl⟩ <;>
    decide +kernel

/-- No freed sett, nor what going live causes, reaches the registers of such a group: of the switch core's none goes live with a sett
freed. -/
theorem unitBoundary_bits {b : Blk} {g : Nat} (h : groupBoundary b g = .unit) (hb : b ≠ .lsc) :
    (b == Blk.evr) = false ∧ (b ≠ .swc → Nat.testBit 0x3c00d970000cc0 (blkCode b) = false) ∧
    Nat.testBit 0x2c001870000040 (blkCode b) = false ∧ Nat.testBit 0x8001040000000 (blkCode b) = false := by
  rcases unitBoundary_cases h hb with ⟨rfl, rfl⟩ | ⟨rfl, rfl⟩ | ⟨rfl, rfl⟩ | ⟨rfl, rfl⟩ | ⟨rfl, rfl⟩ | ⟨rfl, rfl⟩ | ⟨rfl, rfl⟩ <;>
    decide +kernel

theorem State.boundaryCome_unit {s : State} {v : View} {b : Blk} {g : Nat} {c : AMap Nat Word} (h : (s.port v b).pend.find g = some c)
    (hg : groupBoundary b g = .unit) (hb : b ≠ .lsc) {o : Nat} (ho : o ∈ groupOffs b g) {d : RegDef} (hd : regDefAt b o = some d) :
    (s.pooled fun s => s.boundaryCome v b g).reg ⟨b, o, s.capInst v c d⟩ = mergedWord d (s.reg ⟨b, o, s.capInst v c d⟩) (c.getD o 0) := by
  obtain ⟨hnodup, hcount, hbase⟩ := unitBoundary_offs hg hb
  have hhas : (s.port v b).pend.has g = true := by rw [AMap.has, h]; rfl
  obtain ⟨hevr, hpoolBit, hllrBit, hringBit⟩ := unitBoundary_bits hg hb
  have heq : s.boundaryCome v b g = (s.setPort v b { s.port v b with pend := (s.port v b).pend.del g }).wentLive
      ((s.setPort v b { s.port v b with pend := (s.port v b).pend.del g }).mergeRegs v b c (groupOffs b g)) v b g c := by
    unfold State.boundaryCome
    rw [if_neg (by rw [hhas]; decide), if_neg (by rw [hg]; decide), State.boundary_of_pending h]
    unfold State.goLive
    rw [hevr]
    rfl
  have hmerged : ((s.setPort v b { s.port v b with pend := (s.port v b).pend.del g }).mergeRegs v b c (groupOffs b g)).reg
      ⟨b, o, s.capInst v c d⟩ = mergedWord d (s.reg ⟨b, o, s.capInst v c d⟩) (c.getD o 0) :=
    (State.mergeRegs_spec v b c _ hnodup hbase (s.setPort v b { s.port v b with pend := (s.port v b).pend.del g })).2 o ho d hd
  have hpool : (s.pooled fun s => s.boundaryCome v b g).reg ⟨b, o, s.capInst v c d⟩ =
      (s.boundaryCome v b g).reg ⟨b, o, s.capInst v c d⟩ := by
    by_cases hswc : b = .swc
    · have hkeep : s.boundaryCome v b g = (s.setPort v b { s.port v b with pend := (s.port v b).pend.del g }).mergeLive v b g c := by
        rw [heq, hswc]
        have hlater : g = 1 ∨ g = 2 := by
          rcases unitBoundary_cases hg hb with h | h | h | h | h | h | h <;> simp_all
        rcases hlater with rfl | rfl <;> rfl
      have hsett : (s.boundaryCome v b g).sett = s.sett := by
        rw [hkeep, hswc]
        exact (State.mergeLive_fr (X := 0x80) (Fr.refl _ _) rfl rfl).sett_eq rfl
      rw [State.pooled_of_setts hsett]
    · exact (s.pooled_keeps _).reg_eq ⟨b, o, _⟩ (hpoolBit hswc) (hcount o ho)
  rw [hpool, heq, ← hmerged]
  rcases State.wentLive_unit (s.setPort v b { s.port v b with pend := (s.port v b).pend.del g })
    ((s.setPort v b { s.port v b with pend := (s.port v b).pend.del g }).mergeRegs v b c (groupOffs b g)) v c hg hb with hw | hw
  · exact hw.reg_eq ⟨b, o, _⟩ hllrBit (hcount o ho)
  · exact hw.reg_eq ⟨b, o, _⟩ hringBit (hcount o ho)

/-- Settles O16: the words of COMMIT_CTRL and ACCESS_ERR act on the commit registers, the end of checking and a boundary on the
groups that go live. -/
theorem commitRows : Obligations.CommitRows := by
  unfold Obligations.CommitRows
  refine ⟨fun s v b w hp hg ha hr hm => ⟨_, congrArg Host.Outcome.next (s.ctrlWrite_of_go v b w hp hg ha), ?_⟩,
    fun s v b w hp hg ha hr hm => ⟨_, congrArg Host.Outcome.next (s.ctrlWrite_empty v b w hp hg ha hr hm), ?_⟩,
    fun s v b w hp hg ha hr => ⟨_, congrArg Host.Outcome.next (s.ctrlWrite_of_go v b w hp hg ha), ?_⟩,
    fun s v b busy mask c hr hc => ⟨_, rfl, ?_⟩, fun s v b g c hc => ⟨_, rfl, ?_⟩, fun s v b g c hc hg hb => ⟨_, rfl, ?_⟩,
    fun s v b w hp hg ha hr => ⟨_, congrArg Host.Outcome.next (s.ctrlWrite_of_abandon v b w hp hg ha), ?_⟩,
    fun s v b w hp => ⟨_, congrArg Host.Outcome.next (if_pos hp), ?_⟩⟩
  case refine_1 =>
    have hframe : Fr 0x4000000 s ((s.onPort v b fun p => { p with readSel := bitAt w.toNat 8 }).commitGo v b) :=
      State.commitGo_fr (State.onPort_fr (Fr.refl _ _) rfl) rfl
    have hport : (((s.onPort v b fun p => { p with readSel := bitAt w.toNat 8 }).commitGo v b).port v b) = { s.port v b with
        readSel := bitAt w.toNat 8, result := .checking, errGroup := 0, errCode := 0,
        captured := some ((s.port v b).mask, s.capture v b (s.port v b).mask) } := by
      rw [State.commitGo_of_mask _ v b (by simpa using hr) (by simpa using hm), State.port_setPort_self, State.port_onPort_self]
      rfl
    refine ⟨?_, ?_, ?_, hframe.within (by decide +kernel)⟩ <;> rw [hport]
  case refine_2 =>
    refine ⟨?_, ?_, s.sameBut_setPort v b _⟩ <;> rw [State.port_setPort_self] <;> rfl
  case refine_3 =>
    have hframe : Fr 0x4000000 s ((s.onPort v b fun p => { p with readSel := bitAt w.toNat 8 }).commitGo v b) :=
      State.commitGo_fr (State.onPort_fr (Fr.refl _ _) rfl) rfl
    refine ⟨?_, ?_, ?_, ?_, hframe.within (by decide +kernel)⟩
    all_goals
      rw [State.commitGo_of_checking _ v b (by simpa using hr), State.port_setPort_self, State.port_onPort_self]
      simp [CommitPort.noteError, hr]
  case refine_4 =>
    dsimp only
    cases hf : s.commitFail v b mask c with
    | some f =>
      have hchecked := State.checkEnd_of_fail hr hc hf busy
      have hframe : Fr 0x2c000074000000 s (s.checkEnd v b busy) := by
        rw [hchecked]
        exact State.raise_fr (State.setPort_fr (Fr.refl _ _) rfl) rfl
      rw [State.pooled_of_setts (hframe.sett_eq rfl)]
      refine ⟨?_, ?_, ?_, ?_, ?_, ?_, ?_, ?_, hframe.within (by decide +kernel)⟩
      case refine_8 =>
        rw [hchecked]
        exact State.evr_raise_congr ((State.setPort_fr (Fr.refl _ s) (Sub.refl _)).recordsAlike ⟨rfl, rfl, rfl, rfl⟩) _ _ _
      all_goals
        rw [hchecked, (State.raise_keeps _ _ _ _).port_eq rfl, State.port_setPort_self]
    | none =>
      dsimp only
      rw [State.port_pooled, State.port_checkEnd_of_pass hr hc hf busy]
      refine ⟨rfl, rfl, rfl, fun g hg hw => AMap.has_append_of_mem (x := ofGroup b g c) _ _ ?_⟩
      exact List.mem_map.2 ⟨g, List.mem_filter.2 ⟨hg, hw⟩, rfl⟩
  case refine_5 =>
    dsimp only
    rw [State.port_pooled]
    exact State.boundaryCome_spec hc
  case refine_6 => exact fun o ho d hd => State.boundaryCome_unit hc hg hb ho hd
  case refine_7 =>
    have hframe : Fr 0x4000000 s ((s.onPort v b fun p => { p with readSel := bitAt w.toNat 8 }).commitAbandon v b) :=
      State.commitAbandon_fr (State.onPort_fr (Fr.refl _ _) rfl) rfl
    refine ⟨fun g hgm hown hpend o ho => ?_, hframe.within (by decide +kernel)⟩
    refine ((s.onPort v b fun p => { p with readSel := bitAt w.toNat 8 }).commitAbandon_spec v b (by simpa using hr) g (by simpa using hgm) hown
      (by simpa using hpend) o ho).trans ?_
    rfl
  case refine_8 =>
    refine ⟨?_, ?_, ?_, ?_, s.sameBut_setPort v b _⟩
    all_goals
      rw [State.port_onPort_self]
      simp [CommitPort.clearErrors, or_assoc]

end Sys2Proof.Machine


/-!
PROOFS. The sett pool: allocation, refusal and release (R180 to R187).
-/

namespace Sys2Proof.Machine

/-- Nothing is tried again when no sett has come free. -/
theorem State.pooled_of_frees {s : State} {f : State → State} (hbow : (f s).sett.freesBow = s.sett.freesBow)
    (hstern : (f s).sett.freesStern = s.sett.freesStern) : s.pooled f = f s := by
  have hdue (die : Nat) : s.freedOn (f s) die = false := by simp [State.freedOn, hbow, hstern]
  unfold State.pooled State.retryFreed
  simp [hdue]

theorem State.inPool_of_setts {s : State} {f : State → State} (hco : s.coreOff = false) (h : (f s).sett = s.sett) : s.inPool f = f s := by
  rw [State.inPool_on hco, State.pooled_of_setts h]

theorem State.settAlloc_of_take {s : State} {q n : Nat} {p : SettState} (hg : s.settGrants q = true) (ht : s.sett.take (s.reqDie q) = some (n, p)) :
    s.settAlloc q = (some n, (({ s with sett := { p with setts := p.setts.put n ⟨q, 1⟩ } }.setFld Reg.SETT_STAT_USE_USED q
      (s.settUsed q + 1)).setFld Reg.SETT_STAT_PEAK_PEAK q (max (s.settUsed q + 1) (s.fld Reg.SETT_STAT_PEAK_PEAK q)))) := by
  unfold State.settAlloc
  rw [if_pos hg, ht]
  dsimp only
  rw [State.fld_setFld_clear _ _ _ _ _ _ (by decide)]
  rfl

theorem State.settAlloc_of_refused {s : State} {q : Nat} (h : s.settGrants q = false ∨ s.sett.take (s.reqDie q) = none) :
    s.settAlloc q = (none, s.settRefuse q) := by
  unfold State.settAlloc
  rcases h with h | h
  · rw [if_neg (by rw [h]; decide)]
  · rw [h, ite_self]

/-- Raised minimums take their share without a sett's being allocated or freed. -/
theorem State.settFill_spec (s : State) (die : Nat) : Fr 0x800000000 s (s.settFill die) ∧ (s.settFill die).sett.setts = s.sett.setts := by
  have hloop (n : Nat) (u : State) : (State.settFillN n die u).sett.setts = u.sett.setts := by
    induction n generalizing u with
    | zero => rfl
    | succ n ih =>
      unfold State.settFillN
      split
      · rfl
      · dsimp only
        split
        · rfl
        · rw [ih]
          rfl
  exact ⟨State.settFill_fr (Fr.refl _ _) (Sub.refl _), hloop _ s⟩

/-- A sett that is not allocated. -/
theorem State.settFree_of_free {s : State} {n : Nat} (h : s.sett.setts.find n = none) :
    s.settFree n = (s.bump (Reg.SETT_POOL_STATUS_REF_FAULTS.nth (n / dieSetts))).raise Ev.SETT_REFCOUNT_FAULT (n / dieSetts) (n % dieSetts) := by
  unfold State.settFree
  rw [h]

theorem State.settFree_of_shared {s : State} {n : Nat} {e : Sett} (h : s.sett.setts.find n = some e) (hr : 1 < e.refs) :
    s.settFree n = s.onSett fun p => { p with setts := p.setts.put n { e with refs := e.refs - 1 } } := by
  unfold State.settFree
  rw [h]
  exact if_pos hr

/-- The last reference. -/
theorem State.settFree_of_last {s : State} {n : Nat} {e : Sett} (h : s.sett.setts.find n = some e) (hr : e.refs ≤ 1) :
    (s.settFree n).sett.setts.has n = false ∧ (s.settFree n).settUsed e.req = s.settUsed e.req - 1 := by
  let die := n / dieSetts
  let u := (s.onSett fun p => { p with
    setts := p.setts.del n
    freedBow := if die = 0 then p.freedBow ++ [n] else p.freedBow
    freedStern := if die = 0 then p.freedStern else p.freedStern ++ [n]
    freesBow := if die = 0 then p.freesBow + 1 else p.freesBow
    freesStern := if die = 0 then p.freesStern else p.freesStern + 1 }).setFld Reg.SETT_STAT_USE_USED e.req (s.settUsed e.req - 1)
  have heq : s.settFree n = u.settFill die := by
    unfold State.settFree
    rw [h]
    exact if_neg (by omega)
  obtain ⟨hframe, hsetts⟩ := u.settFill_spec die
  have hlt : s.settUsed e.req < 2 ^ Reg.SETT_STAT_USE_USED.width := State.fld_lt _ _ _
  rw [heq]
  refine ⟨?_, (hframe.fld_eq _ _ rfl rfl).trans (State.fld_setFld_val _ _ _ _ (by decide) (by omega))⟩
  rw [AMap.has, hsetts]
  exact congrArg Option.isSome (AMap.find_del_self s.sett.setts n)

/-- Settles O34: each command changes one sett, and with its last reference USED. -/
theorem settRows : Obligations.SettRows := by
  unfold Obligations.SettRows
  refine ⟨fun s q n p hco hg ht hu => ⟨_, rfl, ?_⟩, fun s q hco h => ⟨_, rfl, ?_⟩, fun s n hn => ⟨_, rfl, ?_⟩, fun s n hco hn hf => ⟨_, rfl, ?_⟩,
    fun s n e hco hn hf hr => ⟨_, rfl, ?_⟩, fun s n e hco hn hp hf hr => ⟨_, rfl, ?_⟩⟩
  case refine_1 =>
    have hframe : Fr 0x800000040 s (s.settAlloc q).2 := State.settAlloc_fr (Fr.refl _ _) rfl
    have hpeak : s.fld Reg.SETT_STAT_PEAK_PEAK q < 2 ^ 20 := State.fld_lt _ _ _
    rw [State.inCore_on hco]
    rw [State.settAlloc_of_take hg ht] at hframe ⊢
    refine ⟨AMap.find_put_self _ _ _, ?_, ?_, ?_, hframe.within (by decide +kernel)⟩
    · refine (State.fld_setFld_clear _ _ _ _ _ _ (by decide)).trans (State.fld_setFld_val _ _ _ _ (by decide) ?_)
      exact Nat.add_lt_of_lt_sub hu
    · exact State.fld_setFld_val _ _ _ _ (by decide) (Nat.max_lt.2 ⟨Nat.add_lt_of_lt_sub hu, hpeak⟩)
    · exact (State.fld_setFld_clear _ _ _ _ _ _ (by decide)).trans (State.fld_setFld_clear _ _ _ _ _ _ (by decide))
  case refine_2 =>
    rw [State.inCore_on hco, State.settAlloc_of_refused h]
    exact ⟨rfl, State.fld_bump_sat _ _ _ _ (by decide)⟩
  case refine_3 =>
    have hnone : (if n < 2 * dieSetts then s.settFree n else s) = s := if_neg (by omega)
    have hpool : (s.pooled fun s => if n < 2 * dieSetts then s.settFree n else s) = s := by
      rw [State.pooled_of_setts (by rw [hnone]), hnone]
    have hpool' : (s.inCore fun s => s.pooled fun s => if n < 2 * dieSetts then s.settFree n else s) = s := by
      unfold State.inCore
      dsimp only
      rw [hpool, ite_self]
    exact hpool'
  all_goals
    have hsome : (if n < 2 * dieSetts then s.settFree n else s) = s.settFree n := if_pos hn
  case refine_4 =>
    have hraise := (s.bump (Reg.SETT_POOL_STATUS_REF_FAULTS.nth (n / dieSetts))).raise_keeps Ev.SETT_REFCOUNT_FAULT (n / dieSetts) (n % dieSetts)
    have hbump : Fr 0x40 s (s.bump (Reg.SETT_POOL_STATUS_REF_FAULTS.nth (n / dieSetts))) := State.setFld_fr (Fr.refl _ _) (show okBlk 64 .sett = true from rfl)
    have hsett : (s.settFree n).sett = s.sett := by
      rw [State.settFree_of_free hf, hraise.sett_eq rfl, hbump.sett_eq rfl]
    rw [State.inPool_of_setts hco (by rw [hsome, hsett]), hsome]
    refine ⟨hsett, ?_, ?_⟩
    · rw [State.settFree_of_free hf, hraise.fld_eq _ _ (show Nat.testBit _ 6 = false from rfl) rfl]
      exact State.fld_bump_sat _ _ _ _ (show 20 + 8 ≤ 32 by decide)
    · rw [State.settFree_of_free hf]
      exact State.evr_raise_congr (hbump.recordsAlike ⟨rfl, rfl, rfl, rfl⟩) _ _ _
  case refine_5 =>
    have hfree := State.settFree_of_shared hf hr
    have hframe : Fr 0x800000000 s (s.onSett fun p => { p with setts := p.setts.put n { e with refs := e.refs - 1 } }) :=
      State.onSett_fr (Fr.refl _ _) (Sub.refl _)
    rw [State.inPool_on hco, State.pooled_of_frees (by rw [hsome, hfree]; rfl) (by rw [hsome, hfree]; rfl), hsome, hfree]
    exact ⟨AMap.find_put_self _ _ _, rfl, hframe.within (by decide +kernel)⟩
  case refine_6 =>
    have hlast := State.settFree_of_last hf hr
    have hframe : Fr 0x800000040 s (s.settFree n) := by
      unfold State.settFree
      rw [hf]
      dsimp only
      rw [if_neg (by omega)]
      exact State.settFill_fr (State.setFld_fr (State.onSett_fr (Fr.refl _ _) rfl) rfl) rfl
    rw [State.inPool_on hco, State.pooled_of_parked (by rw [hsome, hframe.tpt_eq rfl]; exact hp), hsome]
    exact ⟨hlast.1, hlast.2, hframe.within (by decide +kernel)⟩

end Sys2Proof.Machine


/-!
PROOFS. CLR triggers: what a write of 1 to bit 31 of a selector clears, and what it leaves.
-/

namespace Sys2Proof.Machine

/-! ### The selector -/

/-- A write to a register of one offset leaves every other offset. -/
theorem State.reg_writeOwn_off (s : State) (v : View) (b : Blk) (off : Nat) (d : RegDef) (w : Word) (k : RegKey) (h : k.off ≠ off) :
    (s.writeOwn v b off d w).reg k = s.reg k := by
  have hset (i : Nat) (x : Word) : (s.setReg ⟨b, off, i⟩ x).reg k = s.reg k :=
    State.reg_setReg_ne _ _ _ _ fun e => h (congrArg RegKey.off e)
  have hshadow (u : State) (x : Word) : (u.setShadow v b off x).reg k = u.reg k := rfl
  unfold State.writeOwn
  dsimp only
  split
  · split
    · rw [hshadow]
      split
      · exact hset _ _
      · rfl
    · split
      · exact hset _ _
      · rfl
  · rfl

/-- A selector as written before the counters it names are cleared. -/
def State.selects (s : State) (v : View) (b : Blk) (off : Nat) (w : Word) : State :=
  match regDefAt b off with
  | some d => s.writeOwn v b off d w
  | none => s

theorem State.reg_selects (s : State) (v : View) (b : Blk) (off : Nat) (w : Word) (k : RegKey) (h : k.off ≠ off) :
    (s.selects v b off w).reg k = s.reg k := by
  unfold State.selects
  split
  · exact s.reg_writeOwn_off v b off _ w k h
  · rfl

theorem State.fld_selects (s : State) (v : View) (b : Blk) (off : Nat) (w : Word) (f : Fld) (i : Nat) (h : f.off ≠ off) :
    (s.selects v b off w).fld f i = s.fld f i := by
  rw [State.fld, s.reg_selects v b off w _ h, State.fld]

theorem State.selects_fr {X : Nat} (s : State) (v : View) (b : Blk) (off : Nat) (w : Word) (hb : okBlk X b = true) (hX : Sub 0x4000000 X) :
    Fr X s (s.selects v b off w) := by
  unfold State.selects
  split
  · exact State.writeOwn_fr (Fr.refl _ _) hb hX
  · exact Fr.refl _ _

/-- A write that reaches a selector with CLR selects, and clears what it selects. -/
theorem State.selClear_of_triggers {s : State} {v : View} {b : Blk} {off : Nat} {w : Word} (h : s.Triggers v b off w)
    (hd : (regDefAt b off).isSome = true) (body : Nat → State → State) :
    s.selClear v b off w body = body (w.toNat % 2 ^ 31) (s.selects v b off w) := by
  obtain ⟨hr, hh, hclr⟩ := h
  obtain ⟨d, hd⟩ := Option.isSome_iff_exists.1 hd
  unfold State.selClear State.selects
  rw [State.trigger_reached hd hr hh, hclr, hd]
  rfl

/-- What changes registers of one block and the shadow copies alone. -/
theorem sameBut_of_block {b : Blk} (hb : b ≠ .mgt ∧ b ≠ .evr) {s t : State}
    (h : ∀ X, okBlk X b = true → Sub 0x4000000 X → Fr X s t) : SameBut [.regs b, .setup] s t := by
  have hmask : okBlk (0x4000000 + 2 ^ blkCode b) b = true ∧ Sub 0x4000000 (0x4000000 + 2 ^ blkCode b) ∧
      (everyPart.all fun p => !(0x4000000 + 2 ^ blkCode b).testBit p.bit || decide (p ∈ [Part.regs b, .setup])) = true := by
    unfold Sub
    revert hb
    cases b <;> decide +kernel
  exact (h _ hmask.1 hmask.2.1).within hmask.2.2

/-! ### One counter -/

/-- One counter cleared: no other copy of it, and no register but the selector and its own. -/
theorem State.clearOne (s : State) (v : View) {off : Nat} (w : Word) {f : Fld} (hoff : f.off ≠ off) (hf : f.lsb + f.width ≤ 32)
    (hb : f.blk ≠ .mgt ∧ f.blk ≠ .evr) (i : Nat) : ((s.selects v f.blk off w).setFld f i 0).fld f i = 0 ∧
      (∀ j, j ≠ i → ((s.selects v f.blk off w).setFld f i 0).fld f j = s.fld f j) ∧
      s.SameRegsBut ((s.selects v f.blk off w).setFld f i 0) f.blk [off, f.off] ∧
      SameBut [.regs f.blk, .setup] s ((s.selects v f.blk off w).setFld f i 0) := by
  refine ⟨State.fld_setFld_val _ _ _ _ hf (Nat.two_pow_pos _), fun j hj => ?_, fun o inst ho => ?_,
    sameBut_of_block hb fun X hX hs => State.setFld_fr (s.selects_fr v f.blk off w hX hs) hX⟩
  · rw [State.fld_setFld_inst _ _ _ _ _ _ hj, s.fld_selects v f.blk off w f j hoff]
  · simp only [List.mem_cons, List.not_mem_nil, or_false, not_or] at ho
    rw [State.reg_setFld_off _ _ _ _ (fun e => ho.2 (congrArg Prod.snd e)), s.reg_selects v f.blk off w _ ho.1]

/-- The bits of a word without CLR. -/
theorem bitsOf_clr (n lsb k : Nat) (h : lsb + k ≤ 31) : bitsOf (n % 2 ^ 31) lsb k = n / 2 ^ lsb % 2 ^ k := by
  unfold bitsOf
  refine Nat.eq_of_testBit_eq fun i => ?_
  simp only [Nat.testBit_mod_two_pow, Nat.testBit_div_two_pow]
  by_cases hi : i < k
  · rw [decide_eq_true hi, decide_eq_true (show i + lsb < 31 by omega), Bool.true_and]
  · rw [decide_eq_false hi, Bool.false_and, Bool.false_and]

theorem bitsOf_clr_low (n k : Nat) (h : k ≤ 31) : bitsOf (n % 2 ^ 31) 0 k = n % 2 ^ k := by
  rw [bitsOf_clr n 0 k (by omega), Nat.pow_zero, Nat.div_one]

/-- Reading a map of which the keys with a property are kept. -/
theorem AMap.find_filter_key {κ α : Type} [DecidableEq κ] (m : AMap κ α) (q : κ → Bool) (k : κ) :
    AMap.find (m.filter fun p => q p.1) k = if q k then AMap.find m k else none := by
  induction m with
  | nil => simp [AMap.find]
  | cons p m ih =>
    obtain ⟨k0, x⟩ := p
    by_cases hk : k0 = k
    · subst hk
      by_cases hq : q k0 = true
      · simp [AMap.find, hq]
      · simp only [List.filter_cons_of_neg (p := fun p : κ × α => q p.1) (a := (k0, x)) hq, ih, hq]
        rfl
    · by_cases hq : q k0 = true
      · simp only [List.filter_cons_of_pos (p := fun p : κ × α => q p.1) (a := (k0, x)) hq, AMap.find, hk, if_false, ih]
      · simp only [List.filter_cons_of_neg (p := fun p : κ × α => q p.1) (a := (k0, x)) hq, AMap.find, hk, if_false, ih]

/-! ### Several counters -/

/-- The copies of a field that a list names, cleared. -/
def State.clears (s : State) (f : Fld) (l : List Nat) : State := l.foldl (fun (s : State) i => s.setFld f i 0) s

theorem State.clears_spec (l : List Nat) (s : State) {f : Fld} (hf : f.lsb + f.width ≤ 32) :
    (∀ i, s.fld f i = 0 ∨ i ∈ l → (s.clears f l).fld f i = 0) ∧
    ∀ b o i, (b, o) ≠ (f.blk, f.off) → (s.clears f l).reg ⟨b, o, i⟩ = s.reg ⟨b, o, i⟩ := by
  induction l generalizing s with
  | nil => exact ⟨fun i h => h.elim id fun hm => absurd hm List.not_mem_nil, fun _ _ _ _ => rfl⟩
  | cons x l ih =>
    obtain ⟨hin, hout⟩ := ih (s.setFld f x 0)
    refine ⟨fun i h => hin i ?_, fun b o i ho => (hout b o i ho).trans (State.reg_setFld_off _ _ _ _ ho)⟩
    rw [State.fld_setFld _ _ _ _ _ hf, Nat.zero_mod]
    by_cases hi : i = x
    · exact .inl (if_pos hi)
    · rw [if_neg hi]
      exact h.imp id fun hm => (List.mem_cons.1 hm).resolve_left hi

theorem State.clears_fr {X : Nat} (s : State) (f : Fld) (l : List Nat) (h : okBlk X f.blk = true) {s0 : State} (hs : Fr X s0 s) :
    Fr X s0 (s.clears f l) := Fr.foldl hs fun _ _ hx => State.setFld_fr hx h

/-- What the trigger of a selector clears: a list of copies of one field. -/
theorem State.clearMany (s : State) (v : View) {off : Nat} (w : Word) {f : Fld} (hf : f.lsb + f.width ≤ 32)
    (hb : f.blk ≠ .mgt ∧ f.blk ≠ .evr) (l : List Nat) :
    (∀ i ∈ l, ((s.selects v f.blk off w).clears f l).fld f i = 0) ∧ s.SameRegsBut ((s.selects v f.blk off w).clears f l) f.blk [off, f.off] ∧
      SameBut [.regs f.blk, .setup] s ((s.selects v f.blk off w).clears f l) := by
  obtain ⟨hin, hout⟩ := State.clears_spec l (s.selects v f.blk off w) hf
  refine ⟨fun i hi => hin i (.inr hi), fun o i ho => ?_,
    sameBut_of_block hb fun X hX hs => State.clears_fr _ f l hX (s.selects_fr v f.blk off w hX hs)⟩
  simp only [List.mem_cons, List.not_mem_nil, or_false, not_or] at ho
  rw [hout f.blk o i (fun e => ho.2 (congrArg Prod.snd e)), s.reg_selects v f.blk off w _ ho.1]

/-- A slot's counters are cleared, and then what its latest start was late by. -/
theorem State.lateCleared {s u : State} {n : Nat} (hfr : Fr 0x4001000 s u) (hin : ∀ c < 8, u.fld Reg.PLN_SLOT_STAT_VALUE (n + 16 * c) = 0)
    (hout : s.SameRegsBut u .pln [0x100, 0x110]) :
    (∀ c < 8, (u.onPlan n fun p => { p with lateMax := 0 }).fld Reg.PLN_SLOT_STAT_VALUE (n + 16 * c) = 0) ∧
    ((u.onPlan n fun p => { p with lateMax := 0 }).plan n).lateMax = 0 ∧
    s.SameRegsBut (u.onPlan n fun p => { p with lateMax := 0 }) .pln [0x100, 0x110] ∧
    SameBut [.regs .pln, .setup, .plans] s (u.onPlan n fun p => { p with lateMax := 0 }) := by
  have hplan : Fr 0x10004001000 s (u.onPlan n fun p => { p with lateMax := 0 }) := State.onPlan_fr (hfr.weaken rfl) rfl
  refine ⟨hin, ?_, hout, hplan.within (by decide +kernel)⟩
  rw [State.onPlan, State.plan, State.setPlan, AMap.getD_put_self]

/-- Settles O20: the field cleared is one copy of the one value register. -/
theorem selectedCounterClears : Obligations.SelectedCounterClears := by
  unfold Obligations.SelectedCounterClears
  refine ⟨fun s v w ht hc hp => ⟨_, congrArg Host.Outcome.next (State.selClear_of_triggers ht rfl _), ?_⟩,
    fun s v w ht => ⟨_, congrArg Host.Outcome.next (State.selClear_of_triggers ht rfl _), ?_⟩,
    fun s v w ht => ⟨_, congrArg Host.Outcome.next (State.selClear_of_triggers ht rfl _), ?_⟩,
    fun s v w ht => ⟨_, congrArg Host.Outcome.next (State.selClear_of_triggers ht rfl _), ?_⟩,
    fun s v w ht => ⟨_, congrArg Host.Outcome.next (State.selClear_of_triggers ht rfl _), ?_⟩,
    fun s v w ht => ⟨_, congrArg Host.Outcome.next (State.selClear_of_triggers ht rfl _), ?_⟩,
    fun s v w ht => ⟨_, congrArg Host.Outcome.next (State.selClear_of_triggers ht rfl _), ?_⟩,
    fun s v w ht => ⟨_, congrArg Host.Outcome.next (State.selClear_of_triggers ht rfl _), ?_⟩,
    fun s v w ht hp hc => ⟨_, congrArg Host.Outcome.next (State.selClear_of_triggers ht rfl _), ?_⟩⟩
  case refine_1 =>
    have hplace : (if w.toNat / 1024 % 32 < 10 then 0 else w.toNat % 1024) + w.toNat / 1024 % 32 * 1024 =
        if w.toNat / 1024 % 32 < 10 then w.toNat / 1024 % 32 * 1024 else w.toNat % 32768 := by
      split <;> omega
    have hin : ¬((decide (14 < w.toNat / 1024 % 32) || decide (10 ≤ w.toNat / 1024 % 32) && decide (576 ≤ w.toNat % 1024)) = true) := by
      simp only [Bool.or_eq_true, Bool.and_eq_true, decide_eq_true_eq]
      omega
    dsimp only
    rw [bitsOf_clr _ 10 5 (by decide), bitsOf_clr_low _ 10 (by decide), show (2 : Nat) ^ 10 = 1024 from rfl, show (2 : Nat) ^ 5 = 32 from rfl,
      if_neg hin, hplace]
    exact s.clearOne v w (off := 0x400) (f := Reg.TPT_STAT_VALUE_VALUE) (by decide) (by decide) (by decide) _
  case refine_3 =>
    have hfr : Fr 0x8004000800 s ((s.selects v .col 0x400 w).onCol fun c => { c with late := c.late.filter fun p => p.1.1 != bitsOf (w.toNat % 2 ^ 31) 0 4 }) :=
      State.onCol_fr (s.selects_fr v .col 0x400 w rfl rfl) rfl
    refine fun p => ⟨?_, fun o i ho => ?_, hfr.within (by decide +kernel)⟩
    · have hcol : (s.selects v .col 0x400 w).col = s.col := (s.selects_fr (X := 0x4000800) v .col 0x400 w rfl rfl).col_eq rfl
      show AMap.find ((s.selects v .col 0x400 w).col.late.filter fun p => p.1.1 != bitsOf (w.toNat % 2 ^ 31) 0 4) p = _
      rw [hcol, bitsOf_clr_low _ 4 (by decide), AMap.find_filter_key s.col.late (fun k => k.1 != w.toNat % 2 ^ 4) p]
      by_cases hp : p.1 = w.toNat % 16
      · rw [if_pos hp, if_neg (by simpa using hp)]
      · rw [if_neg hp, if_pos (by simpa using hp)]
    · exact s.reg_selects v .col 0x400 w _ (by simpa using ho)
  case refine_8 =>
    have hplace : w.toNat % 2 ^ 31 / 16 % 16 * 16 + w.toNat % 2 ^ 31 % 16 = w.toNat % 256 := by omega
    dsimp only
    rw [hplace]
    exact s.clearOne v w (off := 0x200) (f := Reg.FLT_STAT_VALUE_VALUE) (by decide) (by decide) (by decide) _
  case refine_9 =>
    dsimp only
    rw [bitsOf_clr _ 10 4 (by decide), bitsOf_clr_low _ 10 (by decide), bitsOf_clr_low _ 14 (by decide), show (2 : Nat) ^ 10 = 1024 from rfl,
      show (2 : Nat) ^ 4 = 16 from rfl, if_pos (by simp [hp, hc])]
    exact s.clearOne v w (off := 0x100) (f := Reg.LSC_STAT_VALUE_VALUE) (by decide) (by decide) (by decide) _
  all_goals
    dsimp only
    rw [bitsOf_clr_low _ 4 (by decide)]
  case refine_2 => exact s.clearOne v w (off := 0x300) (f := Reg.COL_STAT_VALUE_VALUE) (by decide) (by decide) (by decide) _
  case refine_4 => exact s.clearOne v w (off := 0x800) (f := Reg.BEN_NUM_VALUE_VALUE) (by decide) (by decide) (by decide) _
  case refine_5 => exact s.clearOne v w (off := 0x200) (f := Reg.TFB_STAT_VALUE_VALUE) (by decide) (by decide) (by decide) _
  case refine_6 => exact s.clearOne v w (off := 0x200) (f := Reg.ASH_STAT_VALUE_VALUE) (by decide) (by decide) (by decide) _
  case refine_7 => exact s.clearOne v w (off := 0x300) (f := Reg.OUT_STAT_VALUE_VALUE) (by decide) (by decide) (by decide) _

/-- Settles O19: the fields cleared stand behind the value registers of the selector's own unit. -/
theorem counterClears : Obligations.CounterClears := by
  unfold Obligations.CounterClears
  refine ⟨fun s v w ht hi => ⟨_, congrArg Host.Outcome.next (State.selClear_of_triggers ht rfl _), ?_⟩,
    fun s v w ht => ⟨_, congrArg Host.Outcome.next (State.selClear_of_triggers ht rfl _), ?_⟩,
    fun s v w ht hi => ⟨_, congrArg Host.Outcome.next (State.selClear_of_triggers ht rfl _), ?_⟩,
    fun s v w ht hi => ⟨_, congrArg Host.Outcome.next (State.selClear_of_triggers ht rfl _), ?_⟩,
    fun s v w ht hi => ⟨_, congrArg Host.Outcome.next (State.selClear_of_triggers ht rfl _), ?_⟩,
    fun s v w ht hi => ⟨_, congrArg Host.Outcome.next (State.selClear_of_triggers ht rfl _), ?_⟩,
    fun s v w ht => ⟨_, congrArg Host.Outcome.next (State.selClear_of_triggers ht rfl _), ?_⟩,
    fun s v w ht => ⟨_, congrArg Host.Outcome.next (State.selClear_of_triggers ht rfl _), ?_⟩,
    fun s v w ht => ⟨_, congrArg Host.Outcome.next (State.selClear_of_triggers ht rfl _), ?_⟩,
    fun s v w ht => ⟨_, congrArg Host.Outcome.next (State.selClear_of_triggers ht rfl _), ?_⟩⟩
  case refine_1 =>
    have hbody : (if bitsOf (w.toNat % 2 ^ 31) 0 8 < paceCount (bitsOf (w.toNat % 2 ^ 31) 8 4) then
        (s.selects v .pwr 0x180 w).setFld Reg.PWR_PACE_VALUE_MIN_MTPS (w.toNat % 2 ^ 31 % 4096) 0x7FFF else s.selects v .pwr 0x180 w) =
        (s.selects v .pwr 0x180 w).setFld Reg.PWR_PACE_VALUE_MIN_MTPS (w.toNat % 4096) 0x7FFF := by
      rw [bitsOf_clr _ 8 4 (by decide), bitsOf_clr_low _ 8 (by decide), if_pos (show w.toNat % 2 ^ 8 < paceCount (w.toNat / 2 ^ 8 % 2 ^ 4) from hi),
        Nat.mod_mod_of_dvd _ (by decide)]
    dsimp only
    rw [hbody]
    refine ⟨State.fld_setFld_val _ _ _ _ (by decide) (by decide), ?_, fun o i ho => ?_,
      sameBut_of_block (by decide) fun X hX hs => State.setFld_fr (s.selects_fr v .pwr 0x180 w hX hs) hX⟩
    · rw [State.fld_setFld_clear _ _ _ _ _ _ (by decide), s.fld_selects v .pwr 0x180 w _ _ (by decide)]
    · simp only [List.mem_cons, List.not_mem_nil, or_false, not_or] at ho
      rw [State.reg_setFld_off _ _ _ _ (fun e => ho.2 (congrArg Prod.snd e)), s.reg_selects v .pwr 0x180 w _ ho.1]
  case refine_2 =>
    have hsel : w.toNat % 2 ^ 31 % 2 ^ 18 = w.toNat % 2 ^ 18 := Nat.mod_mod_of_dvd _ (by decide)
    have hfr : Fr 0x20000004000001 s ((((s.selects v .mgt 0x300 w).setFld Reg.MGT_ARB_WAIT_MAX_WAIT (w.toNat % 2 ^ 18) 0).setFld
        Reg.MGT_ARB_WAIT_EXCEED_COUNT (w.toNat % 2 ^ 18) 0).setFld Reg.MGT_ARB_GRANTS_GRANTS (w.toNat % 2 ^ 18) 0) :=
      State.setFld_fr (State.setFld_fr (State.setFld_fr (s.selects_fr v .mgt 0x300 w rfl rfl) rfl) rfl) rfl
    dsimp only
    rw [hsel]
    refine ⟨?_, ?_, State.fld_setFld_val _ _ _ _ (by decide) (by decide), fun o i ho => ?_, hfr.within (by decide +kernel)⟩
    · rw [State.fld_setFld_clear _ _ _ _ _ _ (by decide), State.fld_setFld_clear _ _ _ _ _ _ (by decide)]
      exact State.fld_setFld_val _ _ _ _ (by decide) (by decide)
    · rw [State.fld_setFld_clear _ _ _ _ _ _ (by decide)]
      exact State.fld_setFld_val _ _ _ _ (by decide) (by decide)
    · simp only [List.mem_cons, List.not_mem_nil, or_false, not_or] at ho
      obtain ⟨h1, h2, h3⟩ := ho
      rw [State.reg_setFld_off _ _ _ _ (fun e => h3 (congrArg Prod.snd e)), State.reg_setFld_off _ _ _ _ (fun e => h2 (congrArg Prod.snd e)),
        State.reg_setFld_off _ _ _ _ (fun e => h2 (congrArg Prod.snd e)), s.reg_selects v .mgt 0x300 w _ h1]
  case refine_3 =>
    have hused : (s.selects v .sett 0x100 w).settUsed (w.toNat % 2 ^ 8) = s.settUsed (w.toNat % 2 ^ 8) :=
      s.fld_selects v .sett 0x100 w _ _ (by decide)
    have hlt : s.settUsed (w.toNat % 2 ^ 8) < 2 ^ Reg.SETT_STAT_PEAK_PEAK.width := State.fld_lt s Reg.SETT_STAT_USE_USED _
    dsimp only
    rw [bitsOf_clr_low _ 8 (by decide), if_pos (show w.toNat % 2 ^ 8 < 154 from hi), hused]
    refine ⟨?_, ?_, State.fld_setFld_val _ _ _ _ (by decide) (by decide), fun o i ho => ?_,
      sameBut_of_block (by decide) fun X hX hs =>
        State.setFld_fr (State.setFld_fr (State.setFld_fr (s.selects_fr v .sett 0x100 w hX hs) hX) hX) hX⟩
    · rw [State.fld_setFld_clear _ _ _ _ _ _ (by decide), State.fld_setFld_clear _ _ _ _ _ _ (by decide)]
      exact State.fld_setFld_val _ _ _ _ (by decide) hlt
    · rw [State.fld_setFld_clear _ _ _ _ _ _ (by decide)]
      exact State.fld_setFld_val _ _ _ _ (by decide) (by decide)
    · simp only [List.mem_cons, List.not_mem_nil, or_false, not_or] at ho
      obtain ⟨h1, h2, h3, h4⟩ := ho
      rw [State.reg_setFld_off _ _ _ _ (fun e => h4 (congrArg Prod.snd e)), State.reg_setFld_off _ _ _ _ (fun e => h3 (congrArg Prod.snd e)),
        State.reg_setFld_off _ _ _ _ (fun e => h2 (congrArg Prod.snd e)), s.reg_selects v .sett 0x100 w _ h1]
  case refine_4 =>
    have hlist : (List.range 13).foldl (fun (u : State) c => u.setFld Reg.SWC_STAT_VALUE_VALUE (w.toNat % 1024 + c * 1024) 0)
        (s.selects v .swc 0x400 w) = (s.selects v .swc 0x400 w).clears Reg.SWC_STAT_VALUE_VALUE
          ((List.range 13).map fun c => w.toNat % 1024 + c * 1024) := by
      rw [State.clears, List.foldl_map]
    dsimp only
    rw [bitsOf_clr_low _ 10 (by decide), show (2 : Nat) ^ 10 = 1024 from rfl, if_pos hi, hlist]
    obtain ⟨hin, hout, hsame⟩ := s.clearMany v (off := 0x400) w (f := Reg.SWC_STAT_VALUE_VALUE) (by decide) (by decide)
      ((List.range 13).map fun c => w.toNat % 1024 + c * 1024)
    exact fun c hc => ⟨hin _ (List.mem_map.2 ⟨c, List.mem_range.2 hc, rfl⟩), hout, hsame⟩
  case refine_5 =>
    have hlist : (s.selects v .tms 0x310 w).histClear (w.toNat % 8192) = (s.selects v .tms 0x310 w).clears Reg.TMS_HIST_VALUE_VALUE
        ((List.range 32).map fun i => w.toNat % 8192 + i * 8192) := by
      rw [State.clears, List.foldl_map, State.histClear]
      simp only [show (2 : Nat) ^ 13 = 8192 from rfl]
    dsimp only
    rw [bitsOf_clr_low _ 13 (by decide), show (2 : Nat) ^ 13 = 8192 from rfl, if_pos hi, hlist]
    obtain ⟨hin, hout, hsame⟩ := s.clearMany v (off := 0x310) w (f := Reg.TMS_HIST_VALUE_VALUE) (by decide) (by decide)
      ((List.range 32).map fun i => w.toNat % 8192 + i * 8192)
    exact fun i hi => ⟨hin _ (List.mem_map.2 ⟨i, List.mem_range.2 hi, rfl⟩), hout, hsame⟩
  case refine_6 =>
    dsimp only
    rw [bitsOf_clr _ 6 5 (by decide), bitsOf_clr_low _ 11 (by decide), if_pos (show w.toNat / 2 ^ 6 % 2 ^ 5 < 17 from hi)]
    have hother (f : Fld) (j : Nat) (hf : f.off ≠ 0x110) (u : State) (x : Word) :
        (u.setReg (Reg.OPT_LANE_EVENTS_HOPS.key (w.toNat % 2 ^ 11)) x).fld f j = u.fld f j := by
      unfold State.fld
      rw [State.reg_setReg_ne _ _ _ _ fun e => hf (congrArg RegKey.off e)]
    refine ⟨?_, ?_, State.reg_setReg _ _ _, fun o i ho => ?_,
      sameBut_of_block (by decide) fun X hX hs =>
        State.setReg_fr (State.setFld_fr (State.setFld_fr (s.selects_fr v .opt 0x100 w hX hs) hX) hX) hX⟩
    · rw [hother _ _ (by decide), State.fld_setFld_clear _ _ _ _ _ _ (by decide)]
      exact State.fld_setFld_val _ _ _ _ (by decide) (by decide)
    · rw [hother _ _ (by decide)]
      exact State.fld_setFld_val _ _ _ _ (by decide) (by decide)
    · simp only [List.mem_cons, List.not_mem_nil, or_false, not_or] at ho
      obtain ⟨h1, h2, h3, h4⟩ := ho
      rw [State.reg_setReg_ne _ _ _ _ (fun e => h4 (congrArg RegKey.off e)), State.reg_setFld_off _ _ _ _ (fun e => h3 (congrArg Prod.snd e)),
        State.reg_setFld_off _ _ _ _ (fun e => h2 (congrArg Prod.snd e)), s.reg_selects v .opt 0x100 w _ h1]
  case refine_7 =>
    dsimp only
    rw [bitsOf_clr_low _ 6 (by decide)]
    refine ⟨?_, State.fld_setFld_val _ _ _ _ (by decide) (by decide), fun o i ho => ?_,
      sameBut_of_block (by decide) fun X hX hs => State.setFld_fr (State.setFld_fr (s.selects_fr v .eln 0x100 w hX hs) hX) hX⟩
    · rw [State.fld_setFld_clear _ _ _ _ _ _ (by decide)]
      exact State.fld_setFld_val _ _ _ _ (by decide) (by decide)
    · simp only [List.mem_cons, List.not_mem_nil, or_false, not_or] at ho
      obtain ⟨h1, h2, h3⟩ := ho
      rw [State.reg_setFld_off _ _ _ _ (fun e => h3 (congrArg Prod.snd e)), State.reg_setFld_off _ _ _ _ (fun e => h2 (congrArg Prod.snd e)),
        s.reg_selects v .eln 0x100 w _ h1]
  case refine_8 =>
    have hlist : (List.range 64).foldl (fun (u : State) i => u.setFld Reg.SLF_STAT_VALUE_VALUE (w.toNat % 16 + 16 * i) 0)
        (s.selects v .slf 0x300 w) = (s.selects v .slf 0x300 w).clears Reg.SLF_STAT_VALUE_VALUE
          ((List.range 64).map fun i => w.toNat % 16 + 16 * i) := by
      rw [State.clears, List.foldl_map]
    dsimp only
    rw [bitsOf_clr_low _ 4 (by decide), show (2 : Nat) ^ 4 = 16 from rfl, hlist]
    obtain ⟨hin, hout, hsame⟩ := s.clearMany v (off := 0x300) w (f := Reg.SLF_STAT_VALUE_VALUE) (by decide) (by decide)
      ((List.range 64).map fun i => w.toNat % 16 + 16 * i)
    exact fun i hi => ⟨hin _ (List.mem_map.2 ⟨i, List.mem_range.2 hi, rfl⟩), hout, hsame⟩
  case refine_9 =>
    have hlist : (List.range 8).foldl (fun (u : State) c => u.setFld Reg.PLN_SLOT_STAT_VALUE (w.toNat % 4 + 16 * c) 0)
        (s.selects v .pln 0x100 w) = (s.selects v .pln 0x100 w).clears Reg.PLN_SLOT_STAT_VALUE
          ((List.range 8).map fun c => w.toNat % 4 + 16 * c) := by
      rw [State.clears, List.foldl_map]
    dsimp only
    rw [bitsOf_clr_low _ 2 (by decide), show (2 : Nat) ^ 2 = 4 from rfl, hlist]
    obtain ⟨hin, hout, -⟩ := s.clearMany v (off := 0x100) w (f := Reg.PLN_SLOT_STAT_VALUE) (by decide) (by decide)
      ((List.range 8).map fun c => w.toNat % 4 + 16 * c)
    have hfr : Fr 0x4001000 s ((s.selects v .pln 0x100 w).clears Reg.PLN_SLOT_STAT_VALUE ((List.range 8).map fun c => w.toNat % 4 + 16 * c)) :=
      State.clears_fr _ _ _ rfl (s.selects_fr v .pln 0x100 w rfl rfl)
    have hin' : ∀ c < 8, ((s.selects v .pln 0x100 w).clears Reg.PLN_SLOT_STAT_VALUE ((List.range 8).map fun c => w.toNat % 4 + 16 * c)).fld
        Reg.PLN_SLOT_STAT_VALUE (w.toNat % 4 + 16 * c) = 0 := fun c hc => hin _ (List.mem_map.2 ⟨c, List.mem_range.2 hc, rfl⟩)
    have hout' : s.SameRegsBut ((s.selects v .pln 0x100 w).clears Reg.PLN_SLOT_STAT_VALUE ((List.range 8).map fun c => w.toNat % 4 + 16 * c))
        .pln [0x100, 0x110] := hout
    generalize (s.selects v .pln 0x100 w).clears Reg.PLN_SLOT_STAT_VALUE ((List.range 8).map fun c => w.toNat % 4 + 16 * c) = u at hin' hout' hfr
    exact State.lateCleared hfr hin' hout'
  case refine_10 =>
    have hsel : w.toNat % 2 ^ 31 % 2048 = w.toNat % 2048 := Nat.mod_mod_of_dvd _ (by decide)
    dsimp only
    rw [hsel]
    refine ⟨?_, ?_, State.fld_setFld_val _ _ _ _ (by decide) (by decide), fun o i ho => ?_,
      sameBut_of_block (by decide) fun X hX hs =>
        State.setFld_fr (State.setFld_fr (State.setFld_fr (s.selects_fr v .pwr 0x200 w hX hs) hX) hX) hX⟩
    · rw [State.fld_setFld_clear _ _ _ _ _ _ (by decide), State.fld_setFld_clear _ _ _ _ _ _ (by decide)]
      exact State.fld_setFld_val _ _ _ _ (by decide) (by decide)
    · rw [State.fld_setFld_clear _ _ _ _ _ _ (by decide)]
      exact State.fld_setFld_val _ _ _ _ (by decide) (by decide)
    · simp only [List.mem_cons, List.not_mem_nil, or_false, not_or] at ho
      obtain ⟨h1, h2, h3⟩ := ho
      rw [State.reg_setFld_off _ _ _ _ (fun e => h3 (congrArg Prod.snd e)), State.reg_setFld_off _ _ _ _ (fun e => h3 (congrArg Prod.snd e)),
        State.reg_setFld_off _ _ _ _ (fun e => h2 (congrArg Prod.snd e)), s.reg_selects v .pwr 0x200 w _ h1]

end Sys2Proof.Machine


/-!
PROOFS. Refills of the buckets and the depth histogram (R220, R225, R230, R553).
-/

namespace Sys2Proof.Machine

/-- A key that is listed is among the keys. -/
theorem AMap.mem_keys_of_has {κ α : Type} [DecidableEq κ] {m : AMap κ α} {k : κ} (h : AMap.has m k = true) : k ∈ m.map Prod.fst := by
  induction m with
  | nil => exact absurd h (by simp [AMap.has, AMap.find])
  | cons p m ih =>
    obtain ⟨k0, x⟩ := p
    by_cases hk : k0 = k
    · simp [hk]
    · refine List.mem_cons_of_mem _ (ih ?_)
      simpa [AMap.has, AMap.find, hk] using h

/-- The keys after a listed one is written. -/
theorem AMap.keys_put_of_mem {κ α : Type} [DecidableEq κ] (m : AMap κ α) {k : κ} (x : α) (h : k ∈ m.map Prod.fst) :
    (AMap.put m k x).map Prod.fst = m.map Prod.fst := by
  induction m with
  | nil => exact absurd h List.not_mem_nil
  | cons p m ih =>
    obtain ⟨k0, x0⟩ := p
    by_cases hk : k0 = k
    · simp [AMap.put, hk]
    · have hrest : k ∈ m.map Prod.fst := (List.mem_cons.1 h).resolve_left (Ne.symm hk)
      simp [AMap.put, hk, ih hrest]

/-! ### Refills -/

/-- One queue after its refill. -/
def State.refilledQueue (s : State) (q : Nat) : OutQ :=
  { s.outq q with credit := min ((s.outq q).credit + ((refillStep (s.queueRate q) (s.outq q).rem).1 : Int)) (s.queueBurst q : Int)
                  rem := (refillStep (s.queueRate q) (s.outq q).rem).2 }

theorem State.refillQueue_eq (s : State) (q : Nat) : s.refillQueue q = s.setOutq q (s.refilledQueue q) := rfl

theorem State.outq_setOutq (s : State) (q q' : Nat) (x : OutQ) : (s.setOutq q x).outq q' = if q' = q then x else s.outq q' := by
  by_cases h : q' = q
  · rw [if_pos h, h]
    exact AMap.getD_put_self _ _ _ _
  · rw [if_neg h]
    exact AMap.getD_put_ne _ _ _ _ _ h

theorem State.refilledQueue_setOutq_ne (s : State) {q q' : Nat} (x : OutQ) (h : q' ≠ q) :
    (s.setOutq q x).refilledQueue q' = s.refilledQueue q' := by
  have hq : (s.setOutq q x).outq q' = s.outq q' := (s.outq_setOutq q q' x).trans (if_neg h)
  have hr : (s.setOutq q x).queueRate q' = s.queueRate q' := rfl
  have hb : (s.setOutq q x).queueBurst q' = s.queueBurst q' := rfl
  rw [State.refilledQueue, hq, hr, hb, State.refilledQueue]

/-- Every queue of a list, listed once, is refilled; no other queue, nor the policers. -/
theorem State.refillQueues_spec (l : List Nat) (hl : l.Nodup) (s : State) :
    (∀ q ∈ l, (l.foldl (fun (s : State) q => s.refillQueue q) s).outq q = s.refilledQueue q) ∧
    (∀ q ∉ l, (l.foldl (fun (s : State) q => s.refillQueue q) s).outq q = s.outq q) ∧
    (l.foldl (fun (s : State) q => s.refillQueue q) s).swc.policers = s.swc.policers := by
  induction l generalizing s with
  | nil => exact ⟨fun q h => absurd h List.not_mem_nil, fun _ _ => rfl, rfl⟩
  | cons x l ih =>
    obtain ⟨hx, hnodup⟩ := List.nodup_cons.1 hl
    obtain ⟨hin, hout, hpol⟩ := ih hnodup (s.refillQueue x)
    rw [State.refillQueue_eq] at hin hout hpol
    refine ⟨fun q hq => ?_, fun q hq => ?_, hpol⟩
    · rcases List.mem_cons.1 hq with rfl | hq
      · exact (hout _ hx).trans ((s.outq_setOutq _ _ _).trans (if_pos rfl))
      · exact (hin q hq).trans (s.refilledQueue_setOutq_ne _ fun e => hx (e ▸ hq))
    · refine (hout q fun h => hq (List.mem_cons_of_mem _ h)).trans ((s.outq_setOutq _ _ _).trans (if_neg ?_))
      rintro rfl
      exact hq List.mem_cons_self

/-- One policer after its refill. -/
def State.refilledPolicer (s : State) (p : Nat) : Policer :=
  { tc := min ((s.policer p).tc + (refillStep (s.fld Reg.TMS_POL_CIR_CIR_MBPS p) (s.policer p).rc).1) (polBurst (s.fld Reg.TMS_POL_BURST_CBS p))
    rc := (refillStep (s.fld Reg.TMS_POL_CIR_CIR_MBPS p) (s.policer p).rc).2
    tp := min ((s.policer p).tp + (refillStep (s.fld Reg.TMS_POL_PIR_PIR_MBPS p) (s.policer p).rp).1) (polBurst (s.fld Reg.TMS_POL_BURST_PBS p))
    rp := (refillStep (s.fld Reg.TMS_POL_PIR_PIR_MBPS p) (s.policer p).rp).2 }

theorem State.refillPolicer_eq (s : State) (p : Nat) : s.refillPolicer p = s.setPolicer p (s.refilledPolicer p) := rfl

theorem State.policer_setPolicer (s : State) (p p' : Nat) (x : Policer) :
    (s.setPolicer p x).policer p' = if p' = p then x else s.policer p' := by
  by_cases h : p' = p
  · rw [if_pos h, h]
    exact AMap.getD_put_self _ _ _ _
  · rw [if_neg h]
    exact AMap.getD_put_ne _ _ _ _ _ h

theorem State.refilledPolicer_congr {s t : State} {p : Nat} (hp : t.policer p = s.policer p) (hf : ∀ f j, t.fld f j = s.fld f j) :
    t.refilledPolicer p = s.refilledPolicer p := by
  simp only [State.refilledPolicer, hp, hf]

/-- Every policer of a list, listed once, is refilled; no other policer, nor a queue. -/
theorem State.refillPolicers_spec (l : List Nat) (hl : l.Nodup) (s : State) :
    (∀ p ∈ l, (l.foldl (fun (s : State) p => s.refillPolicer p) s).policer p = s.refilledPolicer p) ∧
    (∀ p ∉ l, (l.foldl (fun (s : State) p => s.refillPolicer p) s).policer p = s.policer p) ∧
    (l.foldl (fun (s : State) p => s.refillPolicer p) s).swc.queues = s.swc.queues := by
  induction l generalizing s with
  | nil => exact ⟨fun q h => absurd h List.not_mem_nil, fun _ _ => rfl, rfl⟩
  | cons x l ih =>
    obtain ⟨hx, hnodup⟩ := List.nodup_cons.1 hl
    obtain ⟨hin, hout, hq⟩ := ih hnodup (s.refillPolicer x)
    rw [State.refillPolicer_eq] at hin hout hq
    refine ⟨fun p hp => ?_, fun p hp => ?_, hq⟩
    · rcases List.mem_cons.1 hp with rfl | hp
      · exact (hout _ hx).trans ((s.policer_setPolicer _ _ _).trans (if_pos rfl))
      · have hne : p ≠ x := fun e => hx (e ▸ hp)
        exact (hin p hp).trans (State.refilledPolicer_congr ((s.policer_setPolicer _ _ _).trans (if_neg hne)) fun _ _ => rfl)
    · refine (hout p fun h => hp (List.mem_cons_of_mem _ h)).trans ((s.policer_setPolicer _ _ _).trans (if_neg ?_))
      rintro rfl
      exact hp List.mem_cons_self

theorem State.fld_refillQueue (s : State) (q : Nat) (f : Fld) (j : Nat) : (s.refillQueue q).fld f j = s.fld f j := by
  rw [State.refillQueue_eq]
  generalize s.refilledQueue q = x
  rfl

theorem State.refill_spec {s : State} (hq : (s.swc.queues.map Prod.fst).Nodup) (hp : (s.swc.policers.map Prod.fst).Nodup) :
    (∀ q, s.swc.queues.has q = true → s.refill.outq q = s.refilledQueue q) ∧
    ∀ p, s.swc.policers.has p = true → s.refill.policer p = s.refilledPolicer p := by
  obtain ⟨hin, -, hpol⟩ := State.refillQueues_spec _ hq s
  have hfr : Fr 0x1000000000 s ((s.swc.queues.map Prod.fst).foldl (fun (s : State) q => s.refillQueue q) s) :=
    Fr.foldl (Fr.refl _ _) fun _ _ h => State.refillQueue_fr h rfl
  unfold State.refill
  dsimp only
  have hregs (f : Fld) (j : Nat) : ((s.swc.queues.map Prod.fst).foldl (fun (s : State) q => s.refillQueue q) s).fld f j = s.fld f j :=
    foldl_keeps (P := fun t : State => t.fld f j) (fun t q _ => State.fld_refillQueue t q f j) s
  generalize (s.swc.queues.map Prod.fst).foldl (fun (s : State) q => s.refillQueue q) s = u at hin hpol hregs
  obtain ⟨hpin, -, hqueues⟩ := State.refillPolicers_spec (u.swc.policers.map Prod.fst) (by rw [hpol]; exact hp) u
  refine ⟨fun q h => ?_, fun p h => ?_⟩
  · rw [State.outq, hqueues]
    exact hin q (AMap.mem_keys_of_has h)
  · have hsame : u.policer p = s.policer p := by rw [State.policer, hpol, State.policer]
    exact (hpin p (by rw [hpol]; exact AMap.mem_keys_of_has h)).trans (State.refilledPolicer_congr hsame hregs)

/-! ### The depth histogram -/

/-- The bin of a queue's depth. -/
def State.depthBin (s : State) (q : Nat) : Nat := q + histBin (s.outq q).depth (s.fld Reg.TMS_HIST_CFG_DEPTH_SHIFT) * 2 ^ 14

theorem State.histSample_eq (s : State) (q : Nat) : s.histSample q 0 (s.outq q).depth = s.bump Reg.TMS_HIST_VALUE_VALUE (s.depthBin q) := by
  unfold State.histSample State.depthBin
  dsimp only
  rw [if_pos rfl, Nat.zero_mul, Nat.add_zero]

theorem State.depthBin_bump (s : State) (i q : Nat) : (s.bump Reg.TMS_HIST_VALUE_VALUE i).depthBin q = s.depthBin q := by
  unfold State.depthBin
  rw [State.fld_bump_clear _ _ _ _ _ _ (by decide)]
  rfl

/-- No two queues share a bin. -/
theorem depthBin_inj {s : State} {q q' : Nat} (h : q < 4608) (h' : q' < 4608) (e : s.depthBin q = s.depthBin q') : q = q' := by
  unfold State.depthBin at e
  omega

theorem State.histDepth_spec (l : List Nat) (hl : l.Nodup) (hlt : ∀ q ∈ l, q < 4608) (s : State) :
    let t := l.foldl (fun (s : State) q => s.histSample q 0 (s.outq q).depth) s
    (∀ q ∈ l, t.fld Reg.TMS_HIST_VALUE_VALUE (s.depthBin q) = satAdd 0xFFFFFFFF (s.fld Reg.TMS_HIST_VALUE_VALUE (s.depthBin q)) 1) ∧
    (∀ q < 4608, q ∉ l → t.fld Reg.TMS_HIST_VALUE_VALUE (s.depthBin q) = s.fld Reg.TMS_HIST_VALUE_VALUE (s.depthBin q)) ∧
    s.SameRegsBut t .tms [0x314] := by
  induction l generalizing s with
  | nil => exact ⟨fun q h => absurd h List.not_mem_nil, fun _ _ _ => rfl, fun _ _ _ => rfl⟩
  | cons x l ih =>
    obtain ⟨hx, hnodup⟩ := List.nodup_cons.1 hl
    obtain ⟨hin, hout, hregs⟩ := ih hnodup (fun q h => hlt q (List.mem_cons_of_mem _ h)) (s.histSample x 0 (s.outq x).depth)
    rw [State.histSample_eq] at hin hout hregs
    simp only [State.depthBin_bump] at hin hout
    have hother (q : Nat) (hq : q < 4608) (hne : q ≠ x) : (s.bump Reg.TMS_HIST_VALUE_VALUE (s.depthBin x)).fld Reg.TMS_HIST_VALUE_VALUE
        (s.depthBin q) = s.fld Reg.TMS_HIST_VALUE_VALUE (s.depthBin q) :=
      State.fld_setFld_inst _ _ _ _ _ _ fun e => hne (depthBin_inj hq (hlt x List.mem_cons_self) e)
    rw [List.foldl_cons, State.histSample_eq]
    refine ⟨fun q hq => ?_, fun q hq hnot => ?_, fun o i ho => ?_⟩
    · rcases List.mem_cons.1 hq with rfl | hq
      · exact (hout _ (hlt _ List.mem_cons_self) hx).trans (State.fld_bump_sat _ _ _ _ (by decide))
      · rw [hin q hq, hother q (hlt q (List.mem_cons_of_mem _ hq)) fun e => hx (e ▸ hq)]
    · rw [hout q hq fun h => hnot (List.mem_cons_of_mem _ h), hother q hq fun e => hnot (e ▸ List.mem_cons_self)]
    · exact (hregs o i ho).trans (State.reg_setFld_off _ _ _ _ fun e => ho (by simp [show o = 0x314 from congrArg Prod.snd e]))

/-- Settles O36: each bucket and each bin is one queue's or one policer's own. -/
theorem queueRows : Obligations.QueueRows := by
  unfold Obligations.QueueRows
  refine ⟨fun s hco hpend hq hp => ⟨_, rfl, ?_⟩, fun s hco => ⟨_, rfl, ?_⟩⟩
  case refine_1 =>
    have htick : s.refillTick = s.refill := by
      unfold State.refillTick
      rw [hpend]
      rfl
    have hfr : Fr 0x1000000000 s s.refill := State.refill_fr (Fr.refl _ _) rfl
    obtain ⟨hqueue, hpolicer⟩ := State.refill_spec hq hp
    rw [State.inPool_of_setts hco (by rw [htick]; exact hfr.sett_eq rfl), htick]
    refine ⟨fun q h => ?_, fun p h => ?_, hfr.within (by decide +kernel)⟩
    · rw [hqueue q h]
      exact ⟨rfl, rfl, rfl⟩
    · rw [hpolicer p h]
      exact ⟨rfl, rfl⟩
  case refine_2 =>
    have hfr : Fr 0x100 s s.histDepthAll := Fr.foldl (Fr.refl _ _) fun _ _ h => State.histSample_fr h rfl
    obtain ⟨hin, -, hregs⟩ := State.histDepth_spec (List.range 4608) List.nodup_range (fun q h => List.mem_range.1 h) s
    rw [State.inCore_on hco]
    refine ⟨fun q hq n hn => ?_, hregs, hfr.within (by decide +kernel)⟩
    rw [show n = s.depthBin q from hn]
    exact hin q (List.mem_range.2 hq)

end Sys2Proof.Machine


/-!
PROOFS. The spare of a group: what its lanes' asking for it and leaving it changes (R164, R169, R171).
-/

namespace Sys2Proof.Machine

/-! ### One group's state -/

theorem State.grp_setGrp (s : State) (g g' : Nat) (x : OptGroup) : (s.setGrp g x).grp g' = if g' = g then x else s.grp g' := by
  by_cases h : g' = g
  · rw [if_pos h, h]
    exact AMap.getD_put_self _ _ _ _
  · rw [if_neg h]
    exact AMap.getD_put_ne _ _ _ _ _ h

@[simp] theorem State.grp_onGrp_self (s : State) (g : Nat) (f : OptGroup → OptGroup) : (s.onGrp g f).grp g = f (s.grp g) :=
  (s.grp_setGrp g g _).trans (if_pos rfl)

theorem State.grp_congr {s t : State} (h : t.lanes = s.lanes) (g : Nat) : t.grp g = s.grp g := by rw [State.grp, h, State.grp]

@[simp] theorem State.optDir_setOptDir_self (s : State) (g : Nat) (rx : Bool) (d : OptDir) : (s.setOptDir g rx d).optDir g rx = d := by
  rw [State.optDir, State.setOptDir, State.grp_onGrp_self]
  cases rx <;> rfl

theorem State.optDir_setOptDir_other (s : State) (g : Nat) (rx : Bool) (d : OptDir) : (s.setOptDir g rx d).optDir g (!rx) = s.optDir g (!rx) := by
  rw [State.optDir, State.setOptDir, State.grp_onGrp_self]
  cases rx <;> rfl

@[simp] theorem State.och_setOch_self (s : State) (g c : Nat) (x : OptChan) : (s.setOch g c x).och g c = x := by
  rw [State.och, State.setOch, State.grp_onGrp_self]
  exact AMap.getD_put_self _ _ _ _

/-! ### What the spare's changing hands leaves -/

/-- A group's state but for its bindings, the lane control channel's messages, its calibration and the lanes reported down. -/
def OptGroup.rest (x : OptGroup) : OptGroup :=
  { x with tx := {}, rx := {}, lccSeq := 0, lccOut := [], calibrating := false, calHere := false, calFar := false, lanesDown := [] }

/-- A field of an optical engine that is not a bit of PORTS_UP. -/
def Fld.offPorts (f : Fld) : Bool :=
  f.blk == .opt && (List.range 8).all fun b => Fld.clearOf { Reg.OPT_PG_STATUS_PORTS_UP with lsb := 8 + b, width := 1 } f

/-- Between two states lanes have taken or left spares: ports have gone down with lanes that have no channel. -/
structure State.Rebinds (s t : State) : Prop where
  fld : ∀ f j, f.offPorts = true → t.fld f j = s.fld f j
  grp : ∀ g, (t.grp g).rest = (s.grp g).rest
  causes : t.causes = s.causes

theorem State.Rebinds.rfl {s : State} : s.Rebinds s := ⟨fun _ _ _ => Eq.refl _, fun _ => Eq.refl _, Eq.refl _⟩

theorem State.Rebinds.trans {s t u : State} (h : s.Rebinds t) (k : t.Rebinds u) : s.Rebinds u :=
  ⟨fun f j hf => (k.fld f j hf).trans (h.fld f j hf), fun g => (k.grp g).trans (h.grp g), k.causes.trans h.causes⟩

section
variable {s t : State} (h : s.Rebinds t)
include h

theorem State.Rebinds.groupSt (g : Nat) : t.groupSt g = s.groupSt g := h.fld _ _ (by decide)
theorem State.Rebinds.chanSt (g c : Nat) : t.chanSt g c = s.chanSt g c := h.fld _ _ (by decide)
theorem State.Rebinds.rxLocked (g c : Nat) : t.rxLocked g c = s.rxLocked g c := by
  rw [State.rxLocked, State.flag, h.fld _ _ (by decide), State.rxLocked, State.flag]
theorem State.Rebinds.low (g : Nat) : (t.grp g).low = (s.grp g).low := (congrArg OptGroup.low (h.grp g) :)
theorem State.Rebinds.aliases (g : Nat) : (t.grp g).aliases = (s.grp g).aliases := (congrArg OptGroup.aliases (h.grp g) :)
theorem State.Rebinds.och (g c : Nat) : t.och g c = s.och g c := by
  have hc : (t.grp g).chans = (s.grp g).chans := (congrArg OptGroup.chans (h.grp g) :)
  rw [State.och, hc, State.och]

end

/-- A group whose bindings alone change. -/
theorem State.rebinds_setGrp (s : State) (g : Nat) {x : OptGroup} (hx : x.rest = (s.grp g).rest) : s.Rebinds (s.setGrp g x) := by
  refine ⟨fun _ _ _ => rfl, fun g' => ?_, rfl⟩
  rw [State.grp_setGrp]
  split
  · next h => rw [h, hx]
  · rfl

theorem State.rebinds_onGrp (s : State) (g : Nat) {f : OptGroup → OptGroup} (hf : ∀ x, (f x).rest = x.rest) : s.Rebinds (s.onGrp g f) :=
  s.rebinds_setGrp g (hf _)

theorem State.rebinds_setOptDir (s : State) (g : Nat) (rx : Bool) (d : OptDir) : s.Rebinds (s.setOptDir g rx d) :=
  s.rebinds_onGrp g fun x => by cases rx <;> rfl

/-- What leaves the optical engines, the lanes and the causes of darkness alone. -/
theorem Fr.rebinds {X : Nat} {s t : State} (h : Fr X s t) (hX : X.testBit 16 = false ∧ X.testBit 45 = false) (hc : t.causes = s.causes) :
    s.Rebinds t := by
  refine ⟨fun f j hf => ?_, fun g => by rw [State.grp_congr (h.lanes_eq hX.2)], hc⟩
  have hb : f.blk = .opt := by
    simp only [Fld.offPorts, Bool.and_eq_true, beq_iff_eq] at hf
    exact hf.1
  exact h.fld_eq f j (by rw [hb]; exact hX.1) (by rw [hb]; rfl)

theorem State.rebinds_linkDown (s : State) (p : Nat) : s.Rebinds (s.linkDown p) := by
  refine ⟨fun f j hf => ?_, fun g => by rw [State.grp_congr ((State.linkDown_fr (Fr.refl _ _) (Sub.refl _)).lanes_eq rfl)], s.causes_linkDown p⟩
  simp only [Fld.offPorts, Bool.and_eq_true, beq_iff_eq, List.all_eq_true, List.mem_range] at hf
  rw [State.fld_linkDown _ _ _ _ (.inl hf.1) (by rw [hf.1]; rfl), State.fld_linkFalls_opt _ _ _ _ hf.1 hf.2, ite_self]

theorem State.rebinds_raise (s : State) (c i d : Nat) : s.Rebinds (s.raise c i d) :=
  (s.raise_keeps c i d).rebinds ⟨rfl, rfl⟩ (s.causes_raise c i d)

theorem State.rebinds_healthAdd (s : State) (k : Subject) (w : Nat) : s.Rebinds (s.healthAdd k w) := by
  have h : Fr 0x100000000000 s (s.healthAdd k w) := State.healthAdd_fr (Fr.refl _ _) (Sub.refl _)
  exact h.rebinds ⟨rfl, rfl⟩ (h.causes_eq ⟨rfl, rfl, rfl, rfl⟩)

theorem State.rebinds_laneDown (s : State) (g lane : Nat) : s.Rebinds (s.laneDown g lane) := by
  unfold State.laneDown
  split
  · exact .rfl
  · dsimp only
    have hdown : s.Rebinds (s.onGrp g fun x => { x with lanesDown := x.lanesDown ++ [lane] }) := s.rebinds_onGrp g fun _ => rfl
    generalize (s.onGrp g fun x => { x with lanesDown := x.lanesDown ++ [lane] }) = u at hdown ⊢
    have h : s.Rebinds (u.raise Ev.LANE_DOWN g (lane + s.lanePort g lane % 8 * 256)) := hdown.trans (u.rebinds_raise _ _ _)
    generalize u.raise Ev.LANE_DOWN g (lane + s.lanePort g lane % 8 * 256) = v at h ⊢
    split
    · exact h.trans (State.rebinds_linkDown _ _)
    · exact (h.trans (State.rebinds_healthAdd _ _ _)).trans (State.rebinds_linkDown _ _)

theorem State.rebinds_laneBack (s : State) (g lane : Nat) : s.Rebinds (s.laneBack g lane) := s.rebinds_onGrp g fun _ => rfl

theorem State.rebinds_lccSend (s : State) (g typ arg : Nat) : s.Rebinds (s.lccSend g typ arg) := by
  unfold State.lccSend
  refine (s.rebinds_setGrp g ?_).trans ⟨fun _ _ _ => rfl, fun _ => rfl, rfl⟩
  rfl

theorem State.rebinds_lccAcked (s : State) (g typ : Nat) (p : LccMsg → Bool) : s.Rebinds (s.lccAcked g typ p) := s.rebinds_onGrp g fun _ => rfl

theorem State.rebinds_remapDrop (s : State) (g : Nat) (rx : Bool) : s.Rebinds (s.remapDrop g rx) := by
  unfold State.remapDrop
  split
  · exact .rfl
  · exact (s.rebinds_setOptDir g rx _).trans (State.rebinds_lccAcked _ _ _ _)

theorem State.rebinds_remapStart (s : State) (g : Nat) (rx : Bool) (lane src dst : Nat) : s.Rebinds (s.remapStart g rx lane src dst) :=
  ((s.rebinds_remapDrop g rx).trans (State.rebinds_setOptDir _ _ _ _)).trans (State.rebinds_lccSend _ _ _ _)

theorem State.rebinds_awaitSpare (s : State) (g : Nat) (rx : Bool) (n : SpareNeed) : s.Rebinds (s.awaitSpare g rx n) :=
  (s.rebinds_setOptDir g rx _).trans (State.rebinds_laneDown _ _ _)

theorem State.rebinds_yieldSpare (s : State) (g : Nat) (rx : Bool) : s.Rebinds (s.yieldSpare g rx) := by
  unfold State.yieldSpare
  dsimp only
  have h := s.rebinds_remapDrop g rx
  split
  · exact h
  · split
    · exact h.trans (State.rebinds_setOptDir _ _ _ _)
    · exact (h.trans (State.rebinds_setOptDir _ _ _ _)).trans (State.rebinds_awaitSpare _ _ _ _)

theorem State.rebinds_seekSpare (s : State) (g : Nat) (rx : Bool) (n : SpareNeed) : s.Rebinds (s.seekSpare g rx n) := by
  unfold State.seekSpare
  dsimp only
  split
  · exact s.rebinds_setOptDir g rx _
  · split
    · exact s.rebinds_awaitSpare g rx n
    · split
      · exact s.rebinds_setOptDir g rx _
      · split
        · exact s.rebinds_awaitSpare g rx n
        · have h := (s.rebinds_yieldSpare g rx).trans (State.rebinds_setOptDir _ g rx { (s.yieldSpare g rx).optDir g rx with holder := some n })
          refine State.Rebinds.trans ?_ (State.rebinds_remapStart _ _ _ _ _ _)
          split
          · exact h
          · exact h.trans (State.rebinds_onGrp _ g fun _ => rfl)

theorem State.rebinds_nextSpare (s : State) (g : Nat) (rx : Bool) : s.Rebinds (s.nextSpare g rx) := by
  unfold State.nextSpare
  dsimp only
  split
  · exact .rfl
  · exact (s.rebinds_setOptDir g rx _).trans (State.rebinds_seekSpare _ _ _ _)

theorem State.rebinds_nextBack (s : State) (g : Nat) (rx : Bool) : s.Rebinds (s.nextBack g rx) := by
  unfold State.nextBack
  dsimp only
  split
  · exact .rfl
  · split
    · exact s.rebinds_remapStart g rx _ _ _
    · split
      · exact s.rebinds_nextSpare g rx
      · exact .rfl

/-- A loop of such steps. -/
theorem State.rebinds_foldl {α : Type} {f : State → α → State} (hf : ∀ (s : State) (a : α), s.Rebinds (f s a)) (l : List α) (s : State) :
    s.Rebinds (l.foldl f s) := by
  induction l generalizing s with
  | nil => exact .rfl
  | cons x l ih => exact (hf s x).trans (ih _)

theorem State.rebinds_leaveSpare (s : State) (g : Nat) (rx : Bool) (chan : Nat) : s.Rebinds (s.leaveSpare g rx chan) := by
  unfold State.leaveSpare
  extract_lets d mine still gone freed s0 d0 s1
  split
  · exact .rfl
  · have h0 : s.Rebinds s0 := by
      unfold s0
      split
      · exact s.rebinds_remapDrop g rx
      · exact .rfl
    have h1 : s0.Rebinds s1 := s0.rebinds_setOptDir g rx _
    clear_value s1 s0 still
    exact ((h0.trans h1).trans (State.rebinds_foldl (f := fun (s : State) (n : SpareNeed) => s.laneBack g n.lane) (fun t n => t.rebinds_laneBack g n.lane) still s1)).trans (State.rebinds_nextBack _ g rx)

theorem State.rebinds_seekAll (s : State) (g : Nat) : s.Rebinds (s.seekAll g) := by
  unfold State.seekAll
  refine State.Rebinds.trans (State.rebinds_foldl (fun t line => ?_) _ _)
    (State.rebinds_foldl (fun t rx => State.rebinds_foldl (fun u c => ?_) _ t) _ _)
  · dsimp only
    split
    · exact .rfl
    · exact t.rebinds_seekSpare _ _ _
  · dsimp only
    split
    · exact .rfl
    · exact u.rebinds_seekSpare _ _ _

/-! ### A lane that takes the free spare -/

/-- A remap that starts where none is under way. -/
theorem State.remapStart_of_none {s : State} {g : Nat} {rx : Bool} (h : (s.optDir g rx).remap = none) (lane src dst : Nat) :
    s.remapStart g rx lane src dst = (s.setOptDir g rx { s.optDir g rx with
      remap := some { lane := lane, src := src, dst := dst, mcnt := (s.mcnt + 200) % 256 } }).lccSend g 1
        (remapArg { lane := lane, src := src, dst := dst, mcnt := (s.mcnt + 200) % 256 }) := by
  have hdrop : s.remapDrop g rx = s := by
    unfold State.remapDrop
    rw [h]
  unfold State.remapStart
  dsimp only
  rw [hdrop]

theorem State.optDir_lccSend (s : State) (g typ arg : Nat) (rx : Bool) : (s.lccSend g typ arg).optDir g rx = s.optDir g rx := by
  unfold State.lccSend State.optDir
  dsimp only
  have h : ∀ (u : State) (o : Out), (u.emit o).grp g = u.grp g := fun _ _ => rfl
  rw [h, State.grp_setGrp, if_pos rfl]
  rfl

/-- What a lane that takes the free spare leaves: it holds the spare, and its remap is asked for. -/
theorem State.seekSpare_free {s : State} {g : Nat} {rx : Bool} {n : SpareNeed} (hw : (s.optDir g rx).waiting = [])
    (hn : n.chan ≠ (s.optDir g rx).spare) (hh : (s.optDir g rx).holder = none) (hu : s.spareUsable g rx = true)
    (hr : (s.optDir g rx).remap = none) :
    ((s.seekSpare g rx n).optDir g rx).holder = some n ∧ ((s.seekSpare g rx n).optDir g rx).remap =
      some { lane := n.lane, src := n.chan, dst := (s.optDir g rx).spare, mcnt := (s.mcnt + 200) % 256 } := by
  have hyield : s.yieldSpare g rx = s := by
    have hdrop : s.remapDrop g rx = s := by
      unfold State.remapDrop
      rw [hr]
    unfold State.yieldSpare
    dsimp only
    rw [hdrop, hh]
  have hseek : s.seekSpare g rx n = (if rx then s.setOptDir g rx { s.optDir g rx with holder := some n } else
      (s.setOptDir g rx { s.optDir g rx with holder := some n }).onGrp g fun x =>
        { x with calibrating := false, calHere := false, calFar := false }).remapStart g rx n.lane n.chan (s.optDir g rx).spare := by
    unfold State.seekSpare
    dsimp only
    rw [hyield, hw, hh, hu, if_neg (by simp), if_neg hn, if_neg (by simp), if_neg (by simp)]
  have hdir : ∀ u : State, u = (if rx then s.setOptDir g rx { s.optDir g rx with holder := some n } else
      (s.setOptDir g rx { s.optDir g rx with holder := some n }).onGrp g fun x =>
        { x with calibrating := false, calHere := false, calFar := false }) →
      u.optDir g rx = { s.optDir g rx with holder := some n } ∧ u.mcnt = s.mcnt := by
    rintro u rfl
    cases rx with
    | true => exact ⟨State.optDir_setOptDir_self _ _ _ _, rfl⟩
    | false =>
      refine ⟨?_, rfl⟩
      rw [if_neg (by decide), State.optDir, State.grp_onGrp_self]
      exact s.optDir_setOptDir_self g false _
  rw [hseek]
  generalize (if rx then s.setOptDir g rx { s.optDir g rx with holder := some n } else
      (s.setOptDir g rx { s.optDir g rx with holder := some n }).onGrp g fun x =>
        { x with calibrating := false, calHere := false, calFar := false }) = u at hdir
  obtain ⟨hd, hm⟩ := hdir u rfl
  have hnone : (u.optDir g rx).remap = none := by rw [hd]; exact hr
  rw [State.remapStart_of_none hnone, State.optDir_lccSend, State.optDir_setOptDir_self, hd, hm]
  exact ⟨rfl, rfl⟩

end Sys2Proof.Machine


/-!
PROOFS. The laser feed and the watch of a dark group (R36, R37, R171, R212, R493).
-/

namespace Sys2Proof.Machine

/-- What freed setts start leaves the optical engines and the lanes. -/
theorem State.lanes_pooled (s : State) (f : State → State) : (s.pooled f).lanes = (f s).lanes := (s.pooled_keeps f).lanes_eq rfl

theorem State.fld_pooled_opt (s : State) (f : State → State) (g : Fld) (i : Nat) (hg : g.blk = .opt) :
    (s.pooled f).fld g i = (f s).fld g i :=
  (s.pooled_keeps f).fld_eq g i (by rw [hg]; rfl) (by rw [hg]; rfl)

theorem State.groupSt_pooled (s : State) (f : State → State) (g : Nat) : (s.pooled f).groupSt g = (f s).groupSt g :=
  s.fld_pooled_opt f _ g rfl

theorem State.grp_pooled (s : State) (f : State → State) (g : Nat) : (s.pooled f).grp g = (f s).grp g :=
  State.grp_congr (s.lanes_pooled f) g

theorem State.optDir_pooled (s : State) (f : State → State) (g : Nat) (rx : Bool) : (s.pooled f).optDir g rx = (f s).optDir g rx := by
  rw [State.optDir, s.grp_pooled f g, State.optDir]

/-- A command that leaves the state, with or without the core. -/
theorem State.inPool_of_same {s : State} {f : State → State} (h : f s = s) : s.inPool f = s := by
  have hp : s.pooled f = s := by rw [State.pooled_of_setts (by rw [h]), h]
  have hc : (s.inCore fun s => s.pooled f) = s := by
    unfold State.inCore
    dsimp only
    rw [hp, ite_self]
  exact hc

/-! ### Lines that fall -/

/-- A line is noted as low. -/
def State.noteLow (s : State) (g line : Nat) : State :=
  (s.onGrp g fun x => { x with low := (s.grp g).low ++ [line] }).raise Ev.FEED_LINE_LOW g line

theorem State.feedLow_eq {s : State} {g line : Nat} (h : ¬(s.groupSt g = gsOFF ∨ line ∈ (s.grp g).low ∨ 17 ≤ line)) : s.feedLow g line =
    if s.groupSt g = gsFEED_LOST then s.noteLow g line
    else if 2 ≤ ((s.grp g).low ++ [line]).length then (s.noteLow g line).feedLost g ((s.grp g).low ++ [line])
    else if !(s.noteLow g line).groupRuns g then s.noteLow g line
    else if ((s.noteLow g line).optDir g false).bind.getD line 31 = 31 then s.noteLow g line
    else (s.noteLow g line).seekSpare g false ⟨.feed, ((s.noteLow g line).optDir g false).bind.getD line 31, line⟩ := by
  unfold State.feedLow
  rw [if_neg h]
  rfl

theorem State.groupSt_onGrp (s : State) (g g' : Nat) (f : OptGroup → OptGroup) : (s.onGrp g f).groupSt g' = s.groupSt g' := rfl

theorem State.groupSt_raise (s : State) (c i d g : Nat) : (s.raise c i d).groupSt g = s.groupSt g :=
  (s.raise_keeps c i d).fld_eq Reg.OPT_PG_STATUS_STATE g rfl rfl

theorem State.grp_raise (s : State) (c i d g : Nat) : (s.raise c i d).grp g = s.grp g :=
  State.grp_congr ((s.raise_keeps c i d).lanes_eq rfl) g

theorem State.mcnt_raise (s : State) (c i d : Nat) : (s.raise c i d).mcnt = s.mcnt := by
  rw [State.mcnt, State.uptimeNs, (s.raise_keeps c i d).time_eq rfl, State.mcnt, State.uptimeNs]

theorem State.noteLow_spec (s : State) (g line : Nat) : (s.noteLow g line).grp g = { s.grp g with low := (s.grp g).low ++ [line] } ∧
    (∀ g', (s.noteLow g line).groupSt g' = s.groupSt g') ∧ (s.noteLow g line).mcnt = s.mcnt := by
  unfold State.noteLow
  refine ⟨?_, fun g' => (State.groupSt_raise _ _ _ _ _).trans (State.groupSt_onGrp _ _ _ _), State.mcnt_raise _ _ _ _⟩
  rw [State.grp_raise, State.grp_onGrp_self]

theorem State.feedLost_spec (s : State) (g : Nat) (lines : List Nat) :
    (s.feedLost g lines).groupSt g = gsFEED_LOST ∧ ((s.feedLost g lines).grp g).low = lines := by
  unfold State.feedLost
  refine ⟨(State.groupSt_raise _ _ _ _ _).trans ?_, ?_⟩
  · exact (State.groupSt_onGrp _ _ _ _).trans ((State.groupSt_groupStop s g g (by decide)).trans (if_pos rfl))
  · rw [State.grp_raise, State.grp_onGrp_self]

/-- The line is on the list; with a second one low the group has lost its feed. -/
theorem State.feedLow_spec {s : State} {g line : Nat} (h : ¬(s.groupSt g = gsOFF ∨ line ∈ (s.grp g).low ∨ 17 ≤ line)) :
    ((s.feedLow g line).grp g).low = (s.grp g).low ++ [line] ∧ ((s.grp g).low ≠ [] → (s.feedLow g line).groupSt g = gsFEED_LOST) := by
  obtain ⟨hgrp, hst, -⟩ := s.noteLow_spec g line
  have hlow : ((s.noteLow g line).grp g).low = (s.grp g).low ++ [line] := by rw [hgrp]
  rw [State.feedLow_eq h]
  by_cases hlost : s.groupSt g = gsFEED_LOST
  · rw [if_pos hlost]
    exact ⟨hlow, fun _ => (hst g).trans hlost⟩
  · rw [if_neg hlost]
    by_cases htwo : 2 ≤ ((s.grp g).low ++ [line]).length
    · rw [if_pos htwo]
      obtain ⟨hg, hl⟩ := (s.noteLow g line).feedLost_spec g ((s.grp g).low ++ [line])
      exact ⟨hl, fun _ => hg⟩
    · rw [if_neg htwo]
      have hone : ¬((s.grp g).low ≠ []) := by
        intro hne
        have := List.length_pos_iff.2 hne
        simp only [List.length_append, List.length_singleton] at htwo
        omega
      refine ⟨?_, fun hne => absurd hne hone⟩
      split
      · exact hlow
      · split
        · exact hlow
        · rw [(State.rebinds_seekSpare _ _ _ _).low, hlow]

/-! ### Lines that are back -/

theorem State.feedBack_spec {s : State} {g line : Nat} (h : line ∈ (s.grp g).low) :
    ((s.feedBack g line).grp g).low = without (s.grp g).low line ∧
    (s.groupRuns g = false → s.feedBack g line = s.onGrp g fun x => { x with low := without x.low line }) := by
  have heq : s.feedBack g line = if (s.onGrp g fun x => { x with low := without x.low line }).groupRuns g then
      ((s.onGrp g fun x => { x with low := without x.low line }).leaveSpare g false line).nextBack g false
      else s.onGrp g fun x => { x with low := without x.low line } := by
    unfold State.feedBack
    exact if_neg (by simp [h])
  have hlow : ((s.onGrp g fun x => { x with low := without x.low line }).grp g).low = without (s.grp g).low line := by
    rw [State.grp_onGrp_self]
  have hruns : (s.onGrp g fun x => { x with low := without x.low line }).groupRuns g = s.groupRuns g := rfl
  rw [heq, hruns]
  refine ⟨?_, fun hr => by rw [hr]; rfl⟩
  split
  · rw [((State.rebinds_leaveSpare _ _ _ _).trans (State.rebinds_nextBack _ _ _)).low, hlow]
  · exact hlow

/-! ### A group that acquires -/

/-- The taps of a group that stops without going off watch on. -/
theorem State.low_groupStop (s : State) (g : Nat) {st : Nat} (hst : st ≠ gsOFF) : ((s.groupStop g st).grp g).low = (s.grp g).low := by
  have hdown : Fr 0x2c003c704b00c0 s (s.portsDown g) := State.portsDown_fr (Fr.refl _ _) (Sub.refl _)
  have hregs : Fr 0x10000 (s.portsDown g) ((List.range 17).foldl (fun (s : State) c =>
      ((s.setChanSt g c csDOWN).setFlag Reg.OPT_LANE_STATUS_TX_LOCK (chanInst g c) false).setFlag
        Reg.OPT_LANE_STATUS_RX_LOCK (chanInst g c) false) ((s.portsDown g).setGroupSt g st)) := by
    have hF : okBlk 0x10000 .opt = true := rfl
    refine Fr.foldl (State.setGroupSt_fr (Fr.refl _ _) rfl) fun t c ht => ?_
    exact State.setFlag_fr (State.setFlag_fr (State.setChanSt_fr ht rfl) hF) hF
  have hgrp := State.grp_congr ((hregs.lanes_eq rfl).trans (hdown.lanes_eq rfl)) g
  unfold State.groupStop
  dsimp only
  generalize ((List.range 17).foldl _ _ : State) = u at hgrp ⊢
  rw [State.grp_congr ((State.showBinding_fr (Fr.refl _ _) (Sub.refl _)).lanes_eq rfl)]
  have hdrop (v : State) : (v.dropStreams g).grp g = v.grp g := rfl
  rw [hdrop, State.grp_onGrp_self, hgrp, if_neg hst]

theorem State.low_groupAcquire (s : State) (g : Nat) : ((s.groupAcquire g).grp g).low = (s.grp g).low := by
  rw [State.groupAcquire_eq]
  split
  · rfl
  · split
    · exact s.low_groupStop g (by decide)
    · refine (foldl_keeps (P := fun t : State => (t.grp g).low) (fun t c _ => ?_) _).trans
        ((congrArg OptGroup.low (State.grp_congr ((State.liftCore_frame _).lanes_eq rfl) g)).trans (s.low_groupStop g (by decide)))
      have hset : (t.setChanSt g c csACQUIRING).grp g = t.grp g :=
        State.grp_congr ((State.setChanSt_fr (Fr.refl _ t) (Sub.refl _)).lanes_eq rfl) g
      have hheat (v : State) : (v.setFld Reg.OPT_LANE_STATUS_HEATER (chanInst g c) 0).grp g = v.grp g := rfl
      rw [State.setOch, State.grp_onGrp_self, hheat, hset]

/-! ### The rows -/

/-- The laser feed of a group whose lines rise and fall. -/
theorem feedLineRows_low {s : State} {g line : Nat} (hco : s.coreOff = false) (hst : s.groupSt g ≠ gsOFF) (hl : line < 17)
    (hlow : line ∉ (s.grp g).low) : ((s.inPool fun s => s.feedLow g line).grp g).low = (s.grp g).low ++ [line] ∧
      ((s.grp g).low ≠ [] → (s.inPool fun s => s.feedLow g line).groupSt g = gsFEED_LOST) := by
  rw [State.inPool_on hco, State.grp_pooled, State.groupSt_pooled]
  exact State.feedLow_spec (by rintro (h | h | h) <;> [exact hst h; exact hlow h; omega])

/-- The first line that falls sends its lane to a free spare. -/
theorem feedLow_remaps {s : State} {g line : Nat} (hst : s.groupSt g = gsACQUIRING ∨ s.groupSt g = gsUP ∨ s.groupSt g = gsID_MISMATCH)
    (hl : line < 17) (hlow : (s.grp g).low = []) (hlane : (s.optDir g false).bind.getD line 31 ≠ 31)
    (hne : line ≠ (s.optDir g false).spare) (hsp : (s.optDir g false).spare ≠ 31) (hh : (s.optDir g false).holder = none)
    (hw : (s.optDir g false).waiting = []) (hr : (s.optDir g false).remap = none) :
    ((s.feedLow g line).optDir g false).holder = some ⟨.feed, (s.optDir g false).bind.getD line 31, line⟩ ∧
    ((s.feedLow g line).optDir g false).remap = some
      { lane := (s.optDir g false).bind.getD line 31, src := line, dst := (s.optDir g false).spare, mcnt := (s.mcnt + 200) % 256 } := by
  obtain ⟨hgrp, hg, hm⟩ := s.noteLow_spec g line
  have hdir : (s.noteLow g line).optDir g false = s.optDir g false := by rw [State.optDir, hgrp]; rfl
  have hruns : (s.noteLow g line).groupRuns g = true := by
    rw [State.groupRuns, hg]
    rcases hst with h | h | h <;> rw [h] <;> rfl
  have hoff : ¬(s.groupSt g = gsOFF ∨ line ∈ (s.grp g).low ∨ 17 ≤ line) := by
    rw [hlow]
    rcases hst with h | h | h <;> simp [h, gsOFF, gsACQUIRING, gsUP, gsID_MISMATCH, hl]
  have hlost : s.groupSt g ≠ gsFEED_LOST := by
    rcases hst with h | h | h <;> simp [h, gsFEED_LOST, gsACQUIRING, gsUP, gsID_MISMATCH]
  have hus : (s.noteLow g line).spareUsable g false = true := by
    unfold State.spareUsable
    dsimp only
    rw [hdir, hgrp, hlow]
    simp [hsp, Ne.symm hne]
  rw [State.feedLow_eq hoff, if_neg hlost, hlow, if_neg (by simp), hruns, if_neg (by simp), hdir, if_neg hlane]
  have h := State.seekSpare_free (s := s.noteLow g line) (g := g) (rx := false) (n := ⟨.feed, (s.optDir g false).bind.getD line 31, line⟩)
    (by rw [hdir, hw]) (by rw [hdir]; exact hne) (by rw [hdir, hh]) hus (by rw [hdir, hr])
  rwa [hdir, hm] at h

/-- A group whose feed is back. -/
theorem State.feedRestored_spec {s : State} (g : Nat) (hst : s.groupSt g = gsFEED_LOST) :
    (((s.onGrp g fun x => { x with low := [] }).groupAcquire g).grp g).low = [] ∧
    ((s.onGrp g fun x => { x with low := [] }).groupAcquire g).groupSt g = if s.groupMayRun g = false then gsFEED_LOST
      else if g ∈ s.bypassedGroups then gsWATCH else gsACQUIRING := by
  have hmay : (s.onGrp g fun x => { x with low := [] }).groupMayRun g = s.groupMayRun g := rfl
  have hby : (s.onGrp g fun x => { x with low := [] }).bypassedGroups = s.bypassedGroups := rfl
  refine ⟨by rw [State.low_groupAcquire, State.grp_onGrp_self], ?_⟩
  rw [State.groupSt_groupAcquire, hmay, hby, State.groupSt_onGrp, hst]
  cases s.groupMayRun g <;> simp

/-- A group that watches, and nothing that makes it acquire. -/
theorem inPool_lightNoted {s : State} (hco : s.coreOff = false) (g : Nat) (n : Nat) :
    (s.inPool fun s => s.onGrp g fun x => { x with light := n }) = s.onGrp g fun x => { x with light := n } :=
  State.inPool_of_setts hco rfl

theorem State.inPool_congr {s : State} {f h : State → State} (hfh : f s = h s) : s.inPool f = s.inPool h := by
  unfold State.inPool State.inCore State.pooled
  dsimp only
  rw [hfh]

/-- Settles O30: each command's state is the one its rule names, read back through what freed setts may start. -/
theorem feedRows : Obligations.FeedRows := by
  refine ⟨?_, ?_, ?_, ?_, ?_, ?_, ?_, ?_, ?_, ?_, ?_, ?_, ?_⟩
  case refine_1 => exact fun s g line hco hst hl hlow => ⟨_, rfl, feedLineRows_low hco hst hl hlow⟩
  case refine_2 =>
    refine fun s g line hco hst hl hlow hlane hne hsp hh hw hr => ⟨_, rfl, ?_⟩
    rw [State.inPool_on hco]
    beta_reduce
    rw [State.optDir_pooled]
    exact feedLow_remaps hst hl hlow hlane hne hsp hh hw hr
  case refine_3 =>
    refine fun s g line h => ⟨_, rfl, State.inPool_of_same ?_⟩
    unfold State.feedLow
    rw [if_pos (by tauto)]
  case refine_4 =>
    refine fun s g line hco hlow => ⟨_, rfl, ?_⟩
    obtain ⟨hl, hr⟩ := State.feedBack_spec hlow
    refine ⟨by rw [State.inPool_on hco, State.grp_pooled]; exact hl, fun hruns => ?_⟩
    have heq := hr hruns
    rw [State.inPool_of_setts hco (by rw [heq]; rfl), heq]
    have hfr : Fr 0x200000000000 s (s.onGrp g fun x => { x with low := without x.low line }) := State.onGrp_fr (Fr.refl _ _) rfl
    exact hfr.within (ps := [.lanes]) (by decide +kernel)
  case refine_5 =>
    refine fun s g line h => ⟨_, rfl, State.inPool_of_same ?_⟩
    unfold State.feedBack
    rw [if_pos (by simp [h])]
  case refine_6 =>
    refine fun s g lines hco hoff hlost hn => ⟨_, rfl, ?_⟩
    rw [State.inPool_on hco]
    beta_reduce
    rw [State.grp_pooled, State.groupSt_pooled, if_pos ⟨hoff, hlost, hn⟩]
    exact s.feedLost_spec g lines
  case refine_7 =>
    refine fun s g lines h => ⟨_, rfl, State.inPool_of_same (if_neg ?_)⟩
    rintro ⟨hoff, hlost, hn⟩
    rcases h with h | h | h
    · exact hoff h
    · exact hlost h
    · omega
  case refine_8 =>
    refine fun s g hco hst => ⟨_, rfl, ?_⟩
    rw [State.inPool_on hco]
    beta_reduce
    rw [State.grp_pooled, State.groupSt_pooled, if_pos hst]
    exact State.feedRestored_spec g hst
  case refine_9 => exact fun s g h => ⟨_, rfl, State.inPool_of_same (if_neg h)⟩
  case refine_10 =>
    refine fun s g hco hst => ⟨_, rfl, (State.inPool_congr ?_).trans (inPool_lightNoted hco g 0)⟩
    rw [if_pos hst]
    rfl
  case refine_11 =>
    refine fun s g hco hst hn => ⟨_, rfl, (State.inPool_congr ?_).trans (inPool_lightNoted hco g ((s.grp g).light + 1))⟩
    rw [if_pos hst]
    dsimp only
    rw [if_pos rfl, if_neg]
    rintro ⟨hthree, hby⟩
    rcases hn with h | h
    · omega
    · simp [h] at hby
  case refine_12 =>
    intro s g hst hl hby hmay
    have hco : s.coreOff = false := by
      unfold State.groupMayRun at hmay
      simp only [Bool.and_eq_true, Bool.not_eq_true'] at hmay
      exact hmay.1.1
    have hnot : s.bypassedGroups.contains g = false := by simp [hby]
    have hexec : exec (.watchSample g true) s = .next (s.inPool fun s => s.groupAcquire g) := by
      refine congrArg Host.Outcome.next (State.inPool_congr ?_)
      rw [if_pos hst]
      exact if_pos ⟨by rw [if_pos rfl]; omega, hnot⟩
    refine ⟨_, hexec, ?_⟩
    rw [State.inPool_on hco]
    beta_reduce
    rw [State.groupSt_pooled, State.groupSt_groupAcquire, if_pos ⟨rfl, hmay⟩, if_neg (by simp [hby])]
  case refine_13 => exact fun s g above h => ⟨_, rfl, State.inPool_of_same (if_neg h)⟩

end Sys2Proof.Machine


/-!
PROOFS. What an event posts to the host (R97, R119, R512): notifications and messages, and no operation, no slot of a ring and no effect
already made.
-/

namespace Sys2Proof.Machine

/-- A ring but for the notifications that wait in it. -/
def Ring.slots (r : Ring) : Ring := { r with nqSeq := 0, nqFill := [], nqDropped := 0, nqSignalled := false }

/-- Between two states notifications and messages have been posted: operations and slots stay, and effects are added. -/
structure State.Posts (s t : State) : Prop where
  ring : ∀ n, (t.ring n).slots = (s.ring n).slots
  ops : t.hif.ops = s.hif.ops
  out : s.out <+: t.out
  d3hot : t.hif.d3hot = s.hif.d3hot
  vfs : t.hif.vfs = s.hif.vfs
  ide : t.hif.ide = s.hif.ide

theorem State.Posts.rfl {s : State} : s.Posts s := ⟨fun _ => Eq.refl _, Eq.refl _, List.prefix_refl _, Eq.refl _, Eq.refl _, Eq.refl _⟩

theorem State.Posts.trans {s t u : State} (h : s.Posts t) (k : t.Posts u) : s.Posts u :=
  ⟨fun n => (k.ring n).trans (h.ring n), k.ops.trans h.ops, h.out.trans k.out, k.d3hot.trans h.d3hot, k.vfs.trans h.vfs, k.ide.trans h.ide⟩

theorem State.Posts.of_eq {s t : State} (h : t.hif = s.hif) (ho : t.out = s.out) : s.Posts t :=
  ⟨fun n => by rw [State.ring_congr h], by rw [h], by rw [ho], by rw [h], by rw [h], by rw [h]⟩

theorem State.Posts.of_emits {s t : State} {o : Out} (h : t.hif = s.hif) (ho : t.out = s.out ++ [o]) : s.Posts t :=
  ⟨fun n => by rw [State.ring_congr h], by rw [h], by rw [ho]; exact List.prefix_append _ _, by rw [h], by rw [h], by rw [h]⟩

theorem Fr.posts {X : Nat} {s t : State} (h : Fr X s t) (hX : X.testBit 30 = false ∧ X.testBit 51 = false) : s.Posts t :=
  .of_eq (h.hif_eq hX.1) (h.out_eq hX.2)

section
variable {s t : State} (h : s.Posts t)
include h

theorem State.Posts.op? (k : OpKey) : t.op? k = s.op? k := by rw [State.op?, h.ops, State.op?]

theorem State.Posts.taken (n : Nat) : (t.ring n).taken = (s.ring n).taken := (congrArg Ring.taken (h.ring n) :)

theorem State.Posts.enabled (n : Nat) : (t.ring n).enabled = (s.ring n).enabled := (congrArg Ring.enabled (h.ring n) :)

theorem State.Posts.aborted (n : Nat) : (t.ring n).aborted = (s.ring n).aborted := (congrArg Ring.aborted (h.ring n) :)

theorem State.Posts.kept {k : OpKey} (hk : s.Kept k) : t.Kept k := by
  obtain ⟨o, hop, hkey, hlost, hslot⟩ := hk
  exact ⟨o, (h.op? k).trans hop, hkey, hlost, by rwa [h.taken]⟩

theorem State.Posts.endedWith (k : OpKey) (status : Nat) : t.endedWith k status = s.endedWith k status := by
  rw [State.endedWith, h.op?, State.endedWith]

theorem State.Posts.underWay (k : OpKey) : t.underWay k = s.underWay k := by
  rw [State.underWay, h.op?, State.underWay]

end

/-! ### What posts -/

theorem State.posts_msix (s : State) (fn vec : Nat) : s.Posts (s.msix fn vec) := by
  unfold State.msix
  dsimp only
  split
  · exact ⟨fun _ => rfl, rfl, List.prefix_refl _, rfl, rfl, rfl⟩
  · split
    · exact ⟨fun _ => rfl, rfl, List.prefix_refl _, rfl, rfl, rfl⟩
    · exact .of_emits rfl rfl

theorem State.posts_setRing (s : State) (n : Nat) {r : Ring} (h : r.slots = (s.ring n).slots) : s.Posts (s.setRing n r) := by
  refine ⟨fun m => ?_, rfl, List.prefix_refl _, rfl, rfl, rfl⟩
  by_cases hm : m = n
  · rw [hm, State.ring_setRing_self, h]
  · rw [State.ring_setRing_ne _ _ _ _ hm]

theorem State.posts_postTo (s : State) (n code inst detail : Nat) : s.Posts (s.postTo n code inst detail) := by
  unfold State.postTo
  dsimp only
  split
  · exact s.posts_setRing n rfl
  · split
    · refine State.Posts.trans ?_ (State.posts_msix _ _ _)
      exact s.posts_setRing n rfl
    · exact s.posts_setRing n rfl

/-- A loop of such steps. -/
theorem State.posts_foldl {α : Type} {f : State → α → State} (hf : ∀ (s : State) (a : α), s.Posts (f s a)) (l : List α) (s : State) :
    s.Posts (l.foldl f s) := by
  induction l generalizing s with
  | nil => exact .rfl
  | cons x l ih => exact (hf s x).trans (ih _)

theorem State.posts_post (s : State) (fn code inst detail : Nat) : s.Posts (s.post fn code inst detail) :=
  State.posts_foldl (fun t n => t.posts_postTo n code inst detail) _ s

theorem State.posts_postReady (s : State) (detail : Nat) : s.Posts (s.postReady detail) := by
  unfold State.postReady
  split
  · exact ⟨fun _ => rfl, rfl, List.prefix_refl _, rfl, rfl, rfl⟩
  · exact s.posts_postTo _ _ _ _

theorem State.posts_alertJoin (s : State) (r : EvRecord) : s.Posts (s.alertJoin r) := by
  unfold State.alertJoin
  split
  · dsimp only
    split
    · exact .of_emits rfl rfl
    · exact .of_eq rfl rfl
  · exact .rfl

theorem State.posts_appendRecord (s : State) (r : EvRecord) : s.Posts (s.appendRecord r) := by
  have hline (t : State) (r : EvRecord) : t.Posts (t.consoleLine r) :=
    (State.consoleLine_fr (Fr.refl _ t) (Sub.refl _)).posts ⟨rfl, rfl⟩
  have hpersist (t : State) (r : EvRecord) : t.Posts (t.persist r).2 := by
    unfold State.persist
    split
    · split <;> exact .of_eq rfl rfl
    · exact .rfl
  unfold State.appendRecord
  dsimp only
  refine .trans (.trans ?_ (State.posts_alertJoin _ _)) (hline _ _)
  split
  · exact (hpersist s _).trans (.of_eq rfl rfl)
  · exact ((hpersist s _).trans (.of_eq rfl rfl)).trans (.of_eq rfl rfl)

theorem State.posts_recordEvent (s : State) (e : EvRecord) : s.Posts (s.recordEvent e) := by
  have hbucket (b : EvBucket) : s.Posts (s.setBucket e.code b) := .of_eq rfl rfl
  have hbump (t : State) : t.Posts (t.bump Reg.EVR_STATUS_SUPPRESSED) := .of_eq rfl rfl
  unfold State.recordEvent
  dsimp only
  split
  · exact State.posts_appendRecord _ _
  · split
    · exact (hbucket _).trans (State.posts_appendRecord _ _)
    · exact (hbucket _).trans (hbump _)

theorem State.posts_raise (s : State) (c i d : Nat) (fn : Nat := 0) (m : Bytes := []) : s.Posts (s.raise c i d fn m) := by
  have h : s.Posts (s.record c i d m) := s.posts_recordEvent _
  unfold State.raise
  dsimp only
  split
  · exact h.trans (State.posts_postReady _ _)
  · split
    · exact h.trans (State.posts_post _ _ _ _ _)
    · exact h

end Sys2Proof.Machine


/-!
PROOFS. The in-service update and the requests of its kind (R69, R70, R74 to R78, R500, R502).
-/

namespace Sys2Proof.Machine

/-! ### The states of the update -/

theorem State.setUp_eq (s : State) (st : Nat) : s.setUp st = if s.upState = st then s.setFld Reg.MGT_UPDATE_STATUS_STATE 0 st
    else (s.setFld Reg.MGT_UPDATE_STATUS_STATE 0 st).raise Ev.UPDATE_PROGRESS 0
      (st + (s.setFld Reg.MGT_UPDATE_STATUS_STATE 0 st).fld Reg.MGT_UPDATE_STATUS_COX * 2 ^ 4 +
        (s.setFld Reg.MGT_UPDATE_STATUS_STATE 0 st).fld Reg.MGT_UPDATE_STATUS_BLOCKS_DONE * 2 ^ 8) := rfl

theorem State.fld_setUp (s : State) (st : Nat) (g : Fld) (i : Nat) (hc : countsEvents g.blk g.off = false) :
    (s.setUp st).fld g i = (s.setFld Reg.MGT_UPDATE_STATUS_STATE 0 st).fld g i := by
  rw [State.setUp_eq]
  split
  · rfl
  · exact State.fld_raise _ _ _ _ _ _ _ _ hc

theorem State.upState_setUp (s : State) {st : Nat} (h : st < 16) : (s.setUp st).upState = st :=
  (State.fld_setUp _ _ _ _ rfl).trans (State.fld_setFld_val _ _ _ _ (by decide) h)

/-- A field of UPDATE_STATUS other than STATE. -/
theorem State.fld_setUp_clear (s : State) (st : Nat) (g : Fld) (i : Nat) (hc : countsEvents g.blk g.off = false)
    (hg : Fld.clearOf Reg.MGT_UPDATE_STATUS_STATE g = true) : (s.setUp st).fld g i = s.fld g i :=
  (State.fld_setUp _ _ _ _ hc).trans (State.fld_setFld_clear _ _ _ _ _ _ hg)

@[simp] theorem State.boot_setUp (s : State) (st : Nat) : (s.setUp st).boot = s.boot :=
  (State.setUp_fr (Fr.refl _ s) (Sub.refl _)).boot_eq rfl

theorem State.posts_setUp (s : State) (st : Nat) : s.Posts (s.setUp st) := by
  rw [State.setUp_eq]
  split
  · exact .of_eq rfl rfl
  · refine State.Posts.trans ?_ (State.posts_raise _ _ _ _)
    exact .of_eq rfl rfl

/-! ### The request that started an update completes -/

theorem State.endUpdate_eq (s : State) (status : Nat) : s.endUpdate status = match s.boot.updateOp with
    | some k => ({ s with boot := { s.boot with updateOp := none } }).finish k status
    | none => s := rfl

@[simp] theorem State.boot_endUpdate (s : State) (status : Nat) : (s.endUpdate status).boot = { s.boot with updateOp := none } := by
  rw [State.endUpdate_eq]
  split
  · exact (State.finish_keeps _ _ _ _ _).boot_eq rfl
  · next h => rw [← h]

theorem State.fld_endUpdate (s : State) (status : Nat) (g : Fld) (i : Nat) (hc : countsEvents g.blk g.off = false) :
    (s.endUpdate status).fld g i = s.fld g i := by
  rw [State.endUpdate_eq]
  split
  · exact (State.finish_keeps _ _ _ _ _).fld_eq _ _ (by cases g.blk <;> rfl) hc
  · rfl

theorem State.out_endUpdate (s : State) (status : Nat) : (s.endUpdate status).out = s.out :=
  (State.endUpdate_fr (Fr.refl _ s) (Sub.refl _)).out_eq rfl

theorem State.Kept.endUpdate {s : State} {k : OpKey} (h : s.Kept k) (status : Nat) : (s.endUpdate status).Kept k := by
  rw [State.endUpdate_eq]
  split
  · exact (h.congr (t := { s with boot := { s.boot with updateOp := none } }) rfl).finish _ _ _ _
  · exact h

/-- The state as an update ends with its status and the staged copy is gone. -/
def State.unstaged (s : State) (status : Nat) : State :=
  ({ s with boot := { s.boot with staged := none, stagedImage := [], rotation := [] } }).setFld Reg.MGT_UPDATE_STATUS_ERROR 0 status

theorem State.dropUpdate_eq (s : State) (status : Nat) : s.dropUpdate status = ((s.unstaged status).setUp upIDLE).endUpdate status := rfl

theorem State.dropUpdate_spec (s : State) {status : Nat} (h : status < 256) : (s.dropUpdate status).upState = upIDLE ∧
    (s.dropUpdate status).fld Reg.MGT_UPDATE_STATUS_ERROR = status ∧
    (s.dropUpdate status).boot = { s.boot with staged := none, stagedImage := [], rotation := [], updateOp := none } := by
  rw [State.dropUpdate_eq]
  refine ⟨(State.fld_endUpdate _ _ _ _ rfl).trans (State.upState_setUp _ (by decide)), ?_, ?_⟩
  · refine (State.fld_endUpdate _ _ _ _ rfl).trans ((State.fld_setUp_clear _ _ _ _ rfl (by decide)).trans ?_)
    exact State.fld_setFld_val _ _ _ _ (by decide) h
  · rw [State.boot_endUpdate, State.boot_setUp]
    rfl

theorem State.Kept.dropUpdate {s : State} {k : OpKey} (h : s.Kept k) (status : Nat) : (s.dropUpdate status).Kept k := by
  rw [State.dropUpdate_eq]
  exact ((State.posts_setUp _ _).kept (h.congr (t := s.unstaged status) rfl)).endUpdate status

/-! ### Requests -/

theorem State.refuseUpdate_spec {s : State} {k : OpKey} (h : s.Kept k) {status : Nat} (hs : status < 256) :
    (s.refuseUpdate k status).endedWith k status = true ∧ (s.refuseUpdate k status).fld Reg.MGT_UPDATE_STATUS_ERROR = status ∧
    (s.refuseUpdate k status).upState = s.upState ∧ (s.refuseUpdate k status).boot = s.boot := by
  have hk : (s.setFld Reg.MGT_UPDATE_STATUS_ERROR 0 status).Kept k := h.congr rfl
  have hfr := (s.setFld Reg.MGT_UPDATE_STATUS_ERROR 0 status).finish_keeps k status 0 0
  refine ⟨State.endedWith_finish hk _ _ _, (hfr.fld_eq _ _ rfl rfl).trans ?_, (hfr.fld_eq _ _ rfl rfl).trans ?_, hfr.boot_eq rfl⟩
  · exact State.fld_setFld_val _ _ _ _ (by decide) hs
  · exact State.fld_setFld_clear _ _ _ _ _ _ (by decide)

/-- A request that ends without more changes the host interface alone. -/
theorem State.Ready.finish_spec {s : State} {k : OpKey} {o : Op} (h : s.Ready k o) (status ext value : Nat) :
    ((s.setOp o.started).finish k status ext value).endedWith k status = true ∧
    Fr 0x40000000 s ((s.setOp o.started).finish k status ext value) :=
  ⟨State.endedWith_finish h.kept _ _ _, State.finish_fr (s.setOp_keeps o.started) (Sub.refl _)⟩

/-- A request that changes what start-up holds, and ends. -/
theorem State.Ready.finishBoot_spec {s t : State} {k : OpKey} {o : Op} (h : s.Ready k o) {b : BootState}
    (ht : t = { s.setOp o.started with boot := b }) (status ext value : Nat) : (t.finish k status ext value).endedWith k status = true ∧
      (t.finish k status ext value).boot = b ∧ Fr 0x48000000 s (t.finish k status ext value) := by
  have hfr : Fr 0x48000000 s t := by
    rw [ht]
    exact Fr.boot_ ((s.setOp_keeps o.started).weaken rfl) rfl
  refine ⟨State.endedWith_finish (h.kept.congr (by rw [ht])) _ _ _, ?_, State.finish_fr hfr rfl⟩
  rw [(State.finish_keeps _ _ _ _ _).boot_eq rfl, ht]

theorem State.updateAbort_of_early {s : State} (o : Op) (h : s.upState = upSTAGING ∨ s.upState = upVERIFIED) :
    s.updateAbort o = (s.dropUpdate stUPDATE_ABORTED).finish o.key stOK := if_pos h

theorem State.updateAbort_of_late {s : State} (o : Op) (h : ¬(s.upState = upSTAGING ∨ s.upState = upVERIFIED)) :
    s.updateAbort o = s.refuseUpdate o.key stUPDATE_BUSY := if_neg h

theorem State.upState_startFlash (s : State) : s.startFlash.upState = upFLASH := State.upState_setUp _ (by decide)

theorem State.boot_startFlash (s : State) : s.startFlash.boot = { s.boot with flashActive := true, flashBlock := 0, flashTries := 0 } :=
  State.boot_setUp _ _

/-- The rewrite that a request starts. -/
theorem State.flashResync_of_open {s : State} (o : Op) (hf : s.boot.flashActive = false) (hst : s.upState < upSTAGING ∨ upFLASH < s.upState)
    (hj : s.boot.journalOpen = true) : s.flashResync o =
      (({ s with boot := { s.boot with updateOp := some o.key } }).setFld Reg.MGT_UPDATE_STATUS_BLOCKS_DONE 0 0).startFlash := by
  unfold State.flashResync
  dsimp only
  rw [if_neg (by rw [hf]; simp only [Bool.false_eq_true, false_or]; omega), if_pos hj]

theorem State.flashResync_of_closed {s : State} (o : Op) (hf : s.boot.flashActive = false) (hst : s.upState < upSTAGING ∨ upFLASH < s.upState)
    (hj : s.boot.journalOpen = false) : s.flashResync o = s.finish o.key stOK := by
  unfold State.flashResync
  dsimp only
  rw [if_neg (by rw [hf]; simp only [Bool.false_eq_true, false_or]; omega), if_neg (by rw [hj]; decide)]

theorem State.flashResync_of_busy {s : State} (o : Op) (h : s.boot.flashActive = true ∨ (upSTAGING ≤ s.upState ∧ s.upState ≤ upFLASH)) :
    s.flashResync o = s.refuseUpdate o.key stUPDATE_BUSY := if_pos h

/-- A rewrite that starts. -/
theorem State.startFlash_spec (s : State) (k : OpKey) :
    (({ s with boot := { s.boot with updateOp := some k } }).setFld Reg.MGT_UPDATE_STATUS_BLOCKS_DONE 0 0).startFlash.boot =
      { s.boot with updateOp := some k, flashActive := true, flashBlock := 0, flashTries := 0 } ∧
    (({ s with boot := { s.boot with updateOp := some k } }).setFld Reg.MGT_UPDATE_STATUS_BLOCKS_DONE 0 0).startFlash.fld
      Reg.MGT_UPDATE_STATUS_BLOCKS_DONE = 0 := by
  refine ⟨State.boot_startFlash _, (State.fld_setUp_clear _ _ _ _ rfl (by decide)).trans ?_⟩
  exact State.fld_setFld_val _ _ _ _ (by decide) (by decide)

/-- No update is under way. -/
theorem upState_apart {n : Nat} (h : n = upIDLE ∨ n = upDONE ∨ n = upHALTED) : n < upSTAGING ∨ upFLASH < n := by
  rcases h with rfl | rfl | rfl <;> decide

/-- Settles O23: each request runs on the state in which its operation has started, and what ends it there changes the host
interface alone. -/
theorem updateRequests : Obligations.UpdateRequests := by
  refine ⟨?_, ?_, ?_, ?_, ?_, ?_, ?_, ?_⟩
  case refine_1 =>
    intro s op o hready hw hfn hst _
    refine ⟨_, congrArg Host.Outcome.next (State.mgmtPF_ready hready hw hfn _), ?_⟩
    have hkept := hready.kept.dropUpdate stUPDATE_ABORTED
    obtain ⟨hup, herr, hboot⟩ := (s.setOp o.started).dropUpdate_spec (status := stUPDATE_ABORTED) (by decide)
    obtain ⟨-, rfl, -⟩ := hready
    beta_reduce
    rw [State.updateAbort_of_early (s := s.setOp o.started) _ hst]
    have hfr := ((s.setOp o.started).dropUpdate stUPDATE_ABORTED).finish_keeps o.key stOK 0 0
    refine ⟨State.endedWith_finish hkept _ _ _, (hfr.fld_eq _ _ rfl rfl).trans hup, ?_, ?_, (hfr.fld_eq _ _ rfl rfl).trans herr⟩
    · exact (congrArg BootState.staged (hfr.boot_eq rfl)).trans (by rw [hboot])
    · exact (congrArg BootState.rotation (hfr.boot_eq rfl)).trans (by rw [hboot])
  case refine_2 =>
    intro s op o hready hw hfn hst hst'
    refine ⟨_, congrArg Host.Outcome.next (State.mgmtPF_ready hready hw hfn _), ?_⟩
    have hkept := hready.kept
    obtain ⟨-, rfl, -⟩ := hready
    beta_reduce
    rw [State.updateAbort_of_late (s := s.setOp o.started) _ (not_or.2 ⟨hst, hst'⟩)]
    obtain ⟨hend, -, hup, hboot⟩ := State.refuseUpdate_spec (status := stUPDATE_BUSY) hkept (by decide)
    exact ⟨hend, hup, hboot⟩
  case refine_3 =>
    intro s op o hready hw hfn
    refine ⟨_, congrArg Host.Outcome.next (State.mgmtPF_ready hready hw hfn _), ?_⟩
    obtain ⟨hend, hboot, hfr⟩ := hready.finishBoot_spec (t := { s.setOp o.started with boot := { s.boot with flashKeep := true } }) rfl stOK 0 0
    obtain ⟨-, rfl, -⟩ := hready
    exact ⟨hend, hboot, hfr.within (ps := [.boot, .hif]) (by decide +kernel)⟩
  case refine_4 =>
    intro s op o hready hw hfn hflash hst hopen
    refine ⟨_, congrArg Host.Outcome.next (State.mgmtPF_ready hready hw hfn _), ?_⟩
    obtain ⟨-, rfl, -⟩ := hready
    beta_reduce
    rw [State.flashResync_of_open (s := s.setOp o.started) _ hflash (upState_apart hst) hopen]
    obtain ⟨hboot, hdone⟩ := (s.setOp o.started).startFlash_spec o.key
    exact ⟨congrArg BootState.updateOp hboot, congrArg BootState.flashActive hboot, congrArg BootState.flashBlock hboot,
      State.upState_startFlash _, hdone⟩
  case refine_5 =>
    intro s op o hready hw hfn hflash hst hclosed
    refine ⟨_, congrArg Host.Outcome.next (State.mgmtPF_ready hready hw hfn _), ?_⟩
    obtain ⟨hend, hfr⟩ := hready.finish_spec stOK 0 0
    obtain ⟨-, rfl, -⟩ := hready
    beta_reduce
    rw [State.flashResync_of_closed (s := s.setOp o.started) _ hflash (upState_apart hst) hclosed]
    exact ⟨hend, hfr.within (ps := [.hif]) (by decide +kernel)⟩
  case refine_6 =>
    intro s op o hready hw hfn hbusy
    refine ⟨_, congrArg Host.Outcome.next (State.mgmtPF_ready hready hw hfn _), ?_⟩
    have hkept := hready.kept
    obtain ⟨-, rfl, -⟩ := hready
    beta_reduce
    rw [State.flashResync_of_busy (s := s.setOp o.started) _ hbusy]
    obtain ⟨hend, -, hup, hboot⟩ := State.refuseUpdate_spec (status := stUPDATE_BUSY) hkept (by decide)
    exact ⟨hend, hup, hboot⟩
  case refine_7 =>
    intro s op o hready hw hfn
    refine ⟨_, congrArg Host.Outcome.next (State.mgmtPF_ready hready hw hfn _), ?_⟩
    obtain ⟨hend, hfr⟩ := hready.finish_spec stHOST_ABORT 0 0
    obtain ⟨-, rfl, -⟩ := hready
    exact ⟨hend, hfr.within (ps := [.hif]) (by decide +kernel)⟩
  case refine_8 =>
    intro s op o b hready hw hfn
    refine ⟨_, congrArg Host.Outcome.next (State.mgmtPF_ready hready hw hfn _), ?_⟩
    obtain ⟨hend, hboot, -⟩ := hready.finishBoot_spec
      (t := { s.setOp o.started with boot := { s.boot with svnBlown := max s.boot.svnBlown (getLE b 0 4) } }) rfl stOK 0 0
    obtain ⟨hbad, hfr⟩ := hready.finish_spec stBAD_FIELD 0 0
    obtain ⟨-, rfl, -⟩ := hready
    by_cases hok : Config.mldsaVerify s.boot.running.vendorPk (b.take (b.length - 4627)) (b.drop (b.length - 4627)) = true ∧
        getLE b 0 4 ≤ s.boot.running.svn ∧ getLE b 0 4 ≤ 63
    · have heq : (s.setOp o.started).svnCommit o.started (some b) =
          ({ s.setOp o.started with boot := { s.boot with svnBlown := max s.boot.svnBlown (getLE b 0 4) } }).finish o.key stOK := by
        refine if_pos ?_
        simp only [Bool.and_eq_true, decide_eq_true_eq]
        exact ⟨⟨hok.1, hok.2.1⟩, hok.2.2⟩
      rw [if_pos hok]
      beta_reduce
      rw [heq]
      exact ⟨hend, hboot⟩
    · have heq : (s.setOp o.started).svnCommit o.started (some b) = (s.setOp o.started).finish o.key stBAD_FIELD := by
        refine if_neg ?_
        simp only [Bool.and_eq_true, decide_eq_true_eq]
        exact fun h => hok ⟨h.1.1, h.1.2, h.2⟩
      rw [if_neg hok]
      beta_reduce
      rw [heq]
      exact ⟨hbad, hfr.boot_eq rfl⟩

end Sys2Proof.Machine


/-!
PROOFS. The in-service update from staging to the rewrite of flash (R69, R75 to R78, R502).
-/

namespace Sys2Proof.Machine

/-! ### Staging -/

theorem State.updateStage_of_busy {s : State} (o : Op) (h : s.upState ≠ upIDLE ∧ s.upState ≠ upDONE ∧ s.upState ≠ upHALTED) :
    s.updateStage o = s.refuseUpdate o.key stUPDATE_BUSY := if_pos h

theorem State.updateStage_of_idle {s : State} (o : Op) (h : s.upState = upIDLE ∨ s.upState = upDONE ∨ s.upState = upHALTED) :
    s.updateStage o = if mLen o.desc = 0 ∨ 48 * 2 ^ 20 < mLen o.desc then s.refuseUpdate o.key stUPDATE_VERIFY_FAIL
      else (({ s with boot := { s.boot with updateOp := some o.key, staged := none, stagedImage := [] } }).setFld
        Reg.MGT_UPDATE_STATUS_BLOCKS_DONE 0 0).setUp upSTAGING := by
  refine if_neg ?_
  rintro ⟨h1, h2, h3⟩
  rcases h with h | h | h
  · exact h1 h
  · exact h2 h
  · exact h3 h

/-- An update that is staging. -/
theorem State.staging_spec (s : State) (k : OpKey) :
    let t := (({ s with boot := { s.boot with updateOp := some k, staged := none, stagedImage := [] } }).setFld
      Reg.MGT_UPDATE_STATUS_BLOCKS_DONE 0 0).setUp upSTAGING
    t.upState = upSTAGING ∧ t.boot.updateOp = some k ∧ t.boot.staged = none ∧ t.fld Reg.MGT_UPDATE_STATUS_BLOCKS_DONE = 0 ∧ s.Posts t := by
  intro t
  have hboot : t.boot = { s.boot with updateOp := some k, staged := none, stagedImage := [] } := State.boot_setUp _ _
  refine ⟨State.upState_setUp _ (by decide), by rw [hboot], by rw [hboot], ?_, ?_⟩
  · exact (State.fld_setUp_clear _ _ _ _ rfl (by decide)).trans (State.fld_setFld_val _ _ _ _ (by decide) (by decide))
  · refine State.Posts.trans ?_ (State.posts_setUp _ _)
    exact .of_eq rfl rfl

/-! ### The rotation -/

/-- The next cox's turn in the rotation. -/
def State.rotating (s : State) (n : Nat) (rest : List Nat) : State :=
  (({ s with boot := { s.boot with rotation := rest } }).setUpCox n).setUp upROTATION

theorem State.rotate_cons {s : State} {n : Nat} {rest : List Nat} (h : s.boot.rotation = n :: rest) : s.rotate =
    if s.coxRole n = roleACTIVE then
      match s.standby with
      | some b => ((s.rotating n rest).handOver n b (s.coxSet n) 2).startReload n [] true
      | none => s.awaitStandby
    else if s.coxRole n = roleLOADING then s.awaitStandby
    else (s.rotating n rest).startReload n [] true := by
  unfold State.rotate
  rw [h]
  rfl

/-- The rotation goes on with the next cox or waits for a standby; the image and what waits to be run stay. -/
theorem State.rotate_spec {s : State} (h : s.boot.rotation ≠ []) : (s.rotate.upState = upROTATION ∨ s.rotate.upState = upWAIT) ∧
    ∃ r, s.rotate.boot = { s.boot with rotation := r } := by
  obtain ⟨n, rest, hrot⟩ := List.exists_cons_of_ne_nil h
  have hgo : (s.rotating n rest).upState = upROTATION ∧ (s.rotating n rest).boot = { s.boot with rotation := rest } :=
    ⟨State.upState_setUp _ (by decide), State.boot_setUp _ _⟩
  have hwait : (s.awaitStandby.upState = upROTATION ∨ s.awaitStandby.upState = upWAIT) ∧ ∃ r, s.awaitStandby.boot = { s.boot with rotation := r } :=
    ⟨.inr (State.upState_setUp _ (by decide)), s.boot.rotation, State.boot_setUp _ _⟩
  have hkeep {X : Nat} (t : State) (ht : Fr X (s.rotating n rest) t) (hX : X.testBit 0 = false ∧ X.testBit 27 = false) :
      (t.upState = upROTATION ∨ t.upState = upWAIT) ∧ ∃ r, t.boot = { s.boot with rotation := r } :=
    ⟨.inl ((ht.fld_eq Reg.MGT_UPDATE_STATUS_STATE 0 hX.1 rfl).trans hgo.1), rest, (ht.boot_eq hX.2).trans hgo.2⟩
  rw [State.rotate_cons hrot]
  split
  · split
    · exact hkeep (X := 0x2c0000f0000004) _ (State.startReload_fr (State.handOver_fr (Fr.refl _ _) rfl) rfl) ⟨rfl, rfl⟩
    · exact hwait
  · split
    · exact hwait
    · exact hkeep (X := 0x80000004) _ (State.startReload_fr (Fr.refl _ _) rfl) ⟨rfl, rfl⟩

/-! ### The end of staging -/

theorem State.stagingDone_none {s : State} (h : s.upState = upSTAGING) : s.stagingDone none = s.dropUpdate stHOST_ABORT := by
  unfold State.stagingDone
  rw [if_neg (not_not.2 h)]

/-- What the order of a rotation starts with. -/
def State.rotationOrder (s : State) : List Nat := s.standby.toList ++ (List.range 9).filter fun n => !(s.standby.toList.contains n)

theorem State.rotationOrder_ne_nil (s : State) : s.rotationOrder ≠ [] := by
  unfold State.rotationOrder
  cases s.standby with
  | none => decide
  | some b => simp

theorem State.stagingDone_some {s : State} (h : s.upState = upSTAGING) (b : Bytes) : s.stagingDone (some b) =
    match s.verifyImage b with
    | .bad => s.dropUpdate stUPDATE_VERIFY_FAIL
    | .rollback => s.dropUpdate stUPDATE_ROLLBACK
    | .accept i => if i.gen > s.boot.running.gen + 1 ∨ s.boot.running.gen > i.gen + 1 then s.dropUpdate stUPDATE_GEN_SKIP
      else (({ s with boot := { s.boot with staged := some i, stagedImage := b, rotation := s.rotationOrder } }).setUp upVERIFIED).rotate := by
  unfold State.stagingDone
  rw [if_neg (not_not.2 h)]
  rfl

/-- An accepted image waits for the coxes. -/
theorem State.verified_spec (s : State) (i : ImageInfo) (b : Bytes) :
    let t := (({ s with boot := { s.boot with staged := some i, stagedImage := b, rotation := s.rotationOrder } }).setUp upVERIFIED).rotate
    t.boot.staged = some i ∧ t.boot.stagedImage = b ∧ t.boot.running = s.boot.running ∧ (t.upState = upROTATION ∨ t.upState = upWAIT) := by
  intro t
  have hboot := State.boot_setUp { s with boot := { s.boot with staged := some i, stagedImage := b, rotation := s.rotationOrder } } upVERIFIED
  obtain ⟨hup, r, hr⟩ := State.rotate_spec
    (s := ({ s with boot := { s.boot with staged := some i, stagedImage := b, rotation := s.rotationOrder } }).setUp upVERIFIED)
    (by rw [hboot]; exact s.rotationOrder_ne_nil)
  have ht : t.boot = { s.boot with staged := some i, stagedImage := b, rotation := r } := by rw [hr, hboot]
  exact ⟨by rw [ht], by rw [ht], by rw [ht], hup⟩

/-! ### The handover of the management core -/

theorem State.mgmtReports_writeDeferred (s : State) : s.writeDeferred.mgmt.deferred = [] := by
  obtain ⟨a, c, h⟩ : ({ s with mgmt := { s.mgmt with deferred := [] } } : State).MgmtReports s.writeDeferred := by
    unfold State.writeDeferred
    generalize s.mgmt.deferred = l
    generalize ({ s with mgmt := { s.mgmt with deferred := [] } } : State) = u
    induction l generalizing u with
    | nil => exact .rfl
    | cons e l ih => exact (u.mgmtReports_recordEvent e).trans (ih _)
  rw [h]

theorem State.writeDeferred_keeps (s : State) : Fr 0x2c000030000000 s s.writeDeferred := State.writeDeferred_fr (Fr.refl _ s) (Sub.refl _)

theorem State.deferred_of_reports {s t : State} (h : s.MgmtReports t) : t.mgmt.deferred = s.mgmt.deferred := by
  obtain ⟨a, c, h⟩ := h
  rw [h]

theorem State.mgmtReports_setUp (s : State) (st : Nat) : s.MgmtReports (s.setUp st) := by
  rw [State.setUp_eq]
  split
  · exact .of_eq rfl
  · refine State.MgmtReports.trans ?_ (State.mgmtReports_raise _ _ _ _)
    exact .of_eq rfl

theorem State.mgcActing_getD (s : State) : s.mgcActing.getD 0 = 0 ∨ s.mgcActing.getD 0 = 1 := by
  unfold State.mgcActing
  split
  · exact .inl rfl
  · split
    · exact .inr rfl
    · exact .inl rfl

theorem State.mgcActing_congr {s t : State} (h0 : t.fld Reg.MGT_MGC_STATUS_ROLE0 = s.fld Reg.MGT_MGC_STATUS_ROLE0)
    (h1 : t.fld Reg.MGT_MGC_STATUS_ROLE1 = s.fld Reg.MGT_MGC_STATUS_ROLE1) : t.mgcActing = s.mgcActing := by
  rw [State.mgcActing, h0, h1, State.mgcActing]

/-- The roles as they change hands, and the generation that runs. -/
def State.rolesSwapped (s : State) : State :=
  ((((s.setFld (mgcRole (s.mgcActing.getD 0)) 0 2).setFld (mgcRole (1 - s.mgcActing.getD 0)) 0 1).setFld Reg.MGT_MGC_STATUS_FW_GEN 0
    (s.boot.staged.getD s.boot.running).gen).setFld Reg.MGT_READINESS_FW_GEN 0 (s.boot.staged.getD s.boot.running).gen)

theorem State.rolesSwapped_spec (s : State) : s.rolesSwapped.fld (mgcRole (s.mgcActing.getD 0)) = 2 ∧
    s.rolesSwapped.fld (mgcRole (1 - s.mgcActing.getD 0)) = 1 := by
  unfold State.rolesSwapped
  generalize (s.boot.staged.getD s.boot.running).gen = v
  rcases s.mgcActing_getD with h | h <;> rw [h]
  · refine ⟨?_, ?_⟩
    · refine (State.fld_setFld_clear _ _ _ _ _ _ (by decide)).trans ((State.fld_setFld_clear _ _ _ _ _ _ (by decide)).trans
        ((State.fld_setFld_clear _ _ _ _ _ _ (by decide)).trans (State.fld_setFld_val _ _ _ _ (by decide) (by decide))))
    · exact (State.fld_setFld_clear _ _ _ _ _ _ (by decide)).trans ((State.fld_setFld_clear _ _ _ _ _ _ (by decide)).trans
        (State.fld_setFld_val _ _ _ _ (by decide) (by decide)))
  · refine ⟨?_, ?_⟩
    · refine (State.fld_setFld_clear _ _ _ _ _ _ (by decide)).trans ((State.fld_setFld_clear _ _ _ _ _ _ (by decide)).trans
        ((State.fld_setFld_clear _ _ _ _ _ _ (by decide)).trans (State.fld_setFld_val _ _ _ _ (by decide) (by decide))))
    · exact (State.fld_setFld_clear _ _ _ _ _ _ (by decide)).trans ((State.fld_setFld_clear _ _ _ _ _ _ (by decide)).trans
        (State.fld_setFld_val _ _ _ _ (by decide) (by decide)))

/-- The new image runs. -/
def State.newRuns (s : State) : State :=
  { s.rolesSwapped with boot := { s.boot with
    running := s.boot.staged.getD s.boot.running, updates := s.boot.updates + 1, trustedImage := s.boot.stagedImage, staged := none, stagedImage := [] } }

theorem State.mgmtHandover_ok {s : State} (h : s.upState = upHANDOVER) : s.mgmtHandover true = s.newRuns.writeDeferred.startFlash := by
  unfold State.mgmtHandover
  rw [if_neg (not_not.2 h)]
  rfl

theorem State.mgmtHandover_fails {s : State} (h : s.upState = upHANDOVER) :
    s.mgmtHandover false = (s.haltUpdate stUPDATE_MGMT_FAIL).writeDeferred := by
  unfold State.mgmtHandover
  rw [if_neg (not_not.2 h)]
  rfl

/-- What a rewrite of flash that starts leaves of registers and of what waits for the new core. -/
theorem State.startFlash_keeps (s : State) : (∀ g i, countsEvents g.blk g.off = false → Fld.clearOf Reg.MGT_UPDATE_STATUS_STATE g = true →
    s.startFlash.fld g i = s.fld g i) ∧ s.startFlash.mgmt.deferred = s.mgmt.deferred := by
  unfold State.startFlash
  refine ⟨fun g i hc hg => State.fld_setUp_clear _ _ _ _ hc hg, State.deferred_of_reports (State.MgmtReports.trans ?_ (State.mgmtReports_setUp _ _))⟩
  exact .of_eq rfl

theorem mgcRole_clear (n : Nat) : countsEvents (mgcRole n).blk (mgcRole n).off = false ∧ Fld.clearOf Reg.MGT_UPDATE_STATUS_STATE (mgcRole n) = true ∧
    (mgcRole n).blk = .mgt := by
  unfold mgcRole
  split <;> decide

/-! ### An update that halts -/

theorem State.haltUpdate_spec (s : State) {status : Nat} (h : status < 256) : (s.haltUpdate status).upState = upHALTED ∧
    (s.haltUpdate status).fld Reg.MGT_UPDATE_STATUS_ERROR = status ∧ (s.haltUpdate status).boot = { s.boot with updateOp := none } ∧
    (s.haltUpdate status).mgcActing = s.mgcActing := by
  have hfld (g : Fld) (hg : g.blk = .mgt ∧ g.off ≠ 0x40) (hc : countsEvents g.blk g.off = false) : (s.haltUpdate status).fld g = s.fld g := by
    refine (State.fld_endUpdate _ _ _ _ hc).trans ((State.fld_setUp_clear _ _ _ _ hc (Fld.clearOf_of_off hg.2)).trans ?_)
    exact (State.fld_setFld_clear _ _ _ _ _ _ (Fld.clearOf_of_off hg.2)).trans (State.fld_setFld_clear _ _ _ _ _ _ (Fld.clearOf_of_off hg.2))
  refine ⟨(State.fld_endUpdate _ _ _ _ rfl).trans (State.upState_setUp _ (by decide)), ?_, ?_, ?_⟩
  · refine (State.fld_endUpdate _ _ _ _ rfl).trans ((State.fld_setUp_clear _ _ _ _ rfl (by decide)).trans ?_)
    exact (State.fld_setFld_clear _ _ _ _ _ _ (by decide)).trans (State.fld_setFld_val _ _ _ _ (by decide) h)
  · exact (State.boot_endUpdate _ _).trans (by rw [State.boot_setUp]; rfl)
  · exact State.mgcActing_congr (hfld _ (by decide) rfl) (hfld _ (by decide) rfl)

/-! ### The rewrite of flash -/

theorem State.flashBlockDone_eq {s : State} (hf : s.boot.flashActive = true) (hr : s.railOk 1 = true) (r : FlashResult) :
    s.flashBlockDone r = match r with
      | .skipped => s.flashNext
      | .begun => s.journalEntry s.boot.flashBlock
      | .written => (s.emit (.flashWrite (s.boot.flashBlock * 65536) (s.flashData s.boot.flashBlock))).flashNext
      | .failed => if (s.journalEntry s.boot.flashBlock).boot.flashTries < 2
        then { s.journalEntry s.boot.flashBlock with
          boot := { (s.journalEntry s.boot.flashBlock).boot with flashTries := (s.journalEntry s.boot.flashBlock).boot.flashTries + 1 } }
        else ({ s.journalEntry s.boot.flashBlock with
          boot := { (s.journalEntry s.boot.flashBlock).boot with flashActive := false } }).haltUpdate stUPDATE_FLASH_FAIL := by
  unfold State.flashBlockDone
  rw [hf, hr]
  rfl

/-- The journal with the entry of a block. -/
def BootState.entered (b : BootState) (l : List (Nat × Bytes)) : BootState := { b with journal := l, journalOpen := !l.isEmpty }

theorem State.journalEntry_spec (s : State) (k : Nat) : (s.journalEntry k).boot.journal =
      (if (s.boot.journal.any fun e => e.1 == k) then s.boot.journal else s.boot.journal ++ [(k, Config.sha3 (s.flashData k))]) ∧
    (s.journalEntry k).boot.flashTries = s.boot.flashTries ∧ (s.journalEntry k).boot.flashActive = s.boot.flashActive ∧
    Fr 0x8000000 s (s.journalEntry k) := by
  refine ⟨?_, ?_, ?_, State.journalEntry_fr (Fr.refl _ _) (Sub.refl _)⟩ <;>
  · unfold State.journalEntry
    split <;> rfl

/-- The block's entry is closed, and the next one is up. -/
def State.blockClosed (s : State) : State :=
  ({ s with boot := { s.boot.entered (s.boot.journal.filter fun e => e.1 != s.boot.flashBlock) with
    flashBlock := s.boot.flashBlock + 1, flashTries := 0 } }).bump Reg.MGT_UPDATE_STATUS_BLOCKS_DONE

theorem State.flashNext_eq (s : State) : s.flashNext = if s.boot.flashBlock + 1 < s.imageBlocks then s.blockClosed
    else (({ s.blockClosed with boot := { s.blockClosed.boot with flashActive := false } }).setUp upDONE).endUpdate stOK := rfl

theorem State.blockClosed_keeps (s : State) : Fr 0x8000001 s s.blockClosed := by
  unfold State.blockClosed
  exact State.setFld_frame (Fr.boot_ (Fr.refl _ s) rfl) rfl rfl

/-- The last block ends the update. -/
theorem State.flashDone_spec (s : State) : ∀ t, t = (({ s.blockClosed with boot := { s.blockClosed.boot with flashActive := false } }).setUp upDONE).endUpdate stOK →
    t.boot.flashActive = false ∧ t.boot.journal = (s.boot.journal.filter fun e => e.1 != s.boot.flashBlock) ∧ t.upState = upDONE ∧
    t.boot.updateOp = none ∧ s.out <+: t.out := by
  rintro t rfl
  have hboot : ((({ s.blockClosed with boot := { s.blockClosed.boot with flashActive := false } }).setUp upDONE).endUpdate stOK).boot =
      { s.blockClosed.boot with flashActive := false, updateOp := none } := by
    rw [State.boot_endUpdate, State.boot_setUp]
  refine ⟨by rw [hboot], by rw [hboot]; rfl, (State.fld_endUpdate _ _ _ _ rfl).trans (State.upState_setUp _ (by decide)), by rw [hboot], ?_⟩
  rw [State.out_endUpdate]
  exact (State.posts_setUp { s.blockClosed with boot := { s.blockClosed.boot with flashActive := false } } upDONE).out

/-- A block that is written or passed over. -/
theorem State.flashBlockDone_next {s : State} (hf : s.boot.flashActive = true) (hr : s.railOk 1 = true) {r : FlashResult}
    (h : r = .written ∨ r = .skipped) : s.flashBlockDone r = (if r = .written
      then s.emit (.flashWrite (s.boot.flashBlock * 65536) (s.flashData s.boot.flashBlock)) else s).flashNext := by
  rcases h with rfl | rfl
  · exact (State.flashBlockDone_eq hf hr _).trans (congrArg State.flashNext (if_pos rfl).symm)
  · exact (State.flashBlockDone_eq hf hr _).trans (congrArg State.flashNext (if_neg (by decide)).symm)

/-! ### The rows -/

/-- A block that more follow. -/
theorem updateRows_nextBlock {s : State} {r : FlashResult} (hco : s.coreOff = false) (hf : s.boot.flashActive = true) (hr : s.railOk 1 = true)
    (h : r = FlashResult.written ∨ r = FlashResult.skipped) (hn : s.boot.flashBlock + 1 < s.imageBlocks) :
    Completes (.flashBlockDone r) s fun t =>
      t.boot = { s.boot with
        flashBlock := s.boot.flashBlock + 1, flashTries := 0, journal := (s.boot.journal.filter fun e => e.1 != s.boot.flashBlock), journalOpen := !(s.boot.journal.filter fun e => e.1 != s.boot.flashBlock).isEmpty } ∧
      t.out = (if r = FlashResult.written then s.out ++ [Out.flashWrite (s.boot.flashBlock * 65536) (s.flashData s.boot.flashBlock)] else s.out) ∧
      SameBut [.boot, .out, .regs .mgt] s t := by
  have hexec : exec (.flashBlockDone r) s = .next (if r = .written
      then s.emit (.flashWrite (s.boot.flashBlock * 65536) (s.flashData s.boot.flashBlock)) else s).blockClosed := by
    refine congrArg Host.Outcome.next ?_
    rw [State.inCore_on hco, State.flashBlockDone_next hf hr h, State.flashNext_eq]
    refine if_pos ?_
    split <;> exact hn
  refine ⟨_, hexec, ?_, ?_, ?_⟩
  · split <;> rfl
  · split <;> rfl
  · have hfr : Fr 0x8000008000001 s (if r = .written
        then s.emit (.flashWrite (s.boot.flashBlock * 65536) (s.flashData s.boot.flashBlock)) else s).blockClosed := by
      split
      · have hemit : Fr 0x8000008000001 s (s.emit (.flashWrite (s.boot.flashBlock * 65536) (s.flashData s.boot.flashBlock))) :=
          State.emit_fr (Fr.refl _ s) rfl
        exact hemit.trans ((State.blockClosed_keeps _).weaken rfl)
      · exact (State.blockClosed_keeps _).weaken rfl
    exact hfr.within (ps := [.boot, .out, .regs .mgt]) (by decide +kernel)

/-- The last block. -/
theorem updateRows_lastBlock {s : State} {r : FlashResult} (hco : s.coreOff = false) (hf : s.boot.flashActive = true) (hr : s.railOk 1 = true)
    (h : r = FlashResult.written ∨ r = FlashResult.skipped) (hn : s.imageBlocks ≤ s.boot.flashBlock + 1) :
    Completes (.flashBlockDone r) s fun t =>
      t.boot.flashActive = false ∧ t.boot.journal = (s.boot.journal.filter fun e => e.1 != s.boot.flashBlock) ∧
      t.upState = upDONE ∧ t.boot.updateOp = none ∧ (r = FlashResult.written → Out.flashWrite (s.boot.flashBlock *
      65536) (s.flashData s.boot.flashBlock) ∈ t.out) := by
  refine ⟨_, rfl, ?_⟩
  beta_reduce
  rw [State.inCore_on hco, State.flashBlockDone_next hf hr h]
  rcases h with rfl | rfl
  · have hlast : ¬(s.emit (.flashWrite (s.boot.flashBlock * 65536) (s.flashData s.boot.flashBlock))).boot.flashBlock + 1 <
        (s.emit (.flashWrite (s.boot.flashBlock * 65536) (s.flashData s.boot.flashBlock))).imageBlocks := Nat.not_lt.2 hn
    rw [if_pos rfl, State.flashNext_eq, if_neg hlast]
    obtain ⟨hact, hj, hup, hop, hout⟩ := State.flashDone_spec (s.emit (.flashWrite (s.boot.flashBlock * 65536) (s.flashData s.boot.flashBlock))) _ rfl
    refine ⟨hact, hj, hup, hop, fun _ => hout.subset ?_⟩
    exact List.mem_append_right _ (List.mem_singleton.2 rfl)
  · rw [if_neg (show ¬FlashResult.skipped = FlashResult.written by decide), State.flashNext_eq, if_neg (Nat.not_lt.2 hn)]
    obtain ⟨hact, hj, hup, hop, -⟩ := State.flashDone_spec s _ rfl
    exact ⟨hact, hj, hup, hop, fun e => nomatch e⟩

/-- The management core's new image starts. -/
theorem updateRows_handover {s : State} (hp : s.boot.porst = false) (hst : s.upState = upHANDOVER) :
    Completes (.mgmtHandoverDone true) s fun t =>
      t.boot.running = s.boot.staged.getD s.boot.running ∧ t.boot.trustedImage = s.boot.stagedImage ∧
      t.boot.flashActive = true ∧ t.boot.flashBlock = 0 ∧ t.upState = upFLASH ∧ t.fld (mgcRole (s.mgcActing.getD 0))
      = 2 ∧ t.fld (mgcRole (1 - s.mgcActing.getD 0)) = 1 ∧ t.mgmt.deferred = [] := by
  have hexec : exec (.mgmtHandoverDone true) s = .next s.newRuns.writeDeferred.startFlash := by
    refine congrArg Host.Outcome.next ?_
    rw [State.inAon, hp]
    exact State.mgmtHandover_ok hst
  refine ⟨_, hexec, ?_⟩
  have hwr := s.newRuns.writeDeferred_keeps
  obtain ⟨hfld, hdef⟩ := s.newRuns.writeDeferred.startFlash_keeps
  have hboot : s.newRuns.writeDeferred.startFlash.boot = { s.newRuns.boot with flashActive := true, flashBlock := 0, flashTries := 0 } := by
    rw [State.boot_startFlash, hwr.boot_eq rfl]
  have hrole (n : Nat) : s.newRuns.writeDeferred.startFlash.fld (mgcRole n) = s.rolesSwapped.fld (mgcRole n) := by
    obtain ⟨hc, hg, hb⟩ := mgcRole_clear n
    exact (hfld _ _ hc hg).trans (hwr.fld_eq _ _ (by rw [hb]; rfl) hc)
  obtain ⟨hold, hnew⟩ := s.rolesSwapped_spec
  refine ⟨by rw [hboot]; rfl, by rw [hboot]; rfl, by rw [hboot], by rw [hboot], State.upState_startFlash _, (hrole _).trans hold,
    (hrole _).trans hnew, hdef.trans (State.mgmtReports_writeDeferred _)⟩

/-- The new core does not start. -/
theorem updateRows_noHandover {s : State} (hp : s.boot.porst = false) (hst : s.upState = upHANDOVER) :
    Completes (.mgmtHandoverDone false) s fun t =>
      t.boot.running = s.boot.running ∧ t.mgcActing = s.mgcActing ∧ t.upState = upHALTED ∧ t.fld
      Reg.MGT_UPDATE_STATUS_ERROR = stUPDATE_MGMT_FAIL ∧ t.mgmt.deferred = [] := by
  have hexec : exec (.mgmtHandoverDone false) s = .next (s.haltUpdate stUPDATE_MGMT_FAIL).writeDeferred := by
    refine congrArg Host.Outcome.next ?_
    rw [State.inAon, hp]
    exact State.mgmtHandover_fails hst
  refine ⟨_, hexec, ?_⟩
  have hwr := (s.haltUpdate stUPDATE_MGMT_FAIL).writeDeferred_keeps
  obtain ⟨hup, herr, hboot, hact⟩ := s.haltUpdate_spec (status := stUPDATE_MGMT_FAIL) (by decide)
  refine ⟨by rw [hwr.boot_eq rfl, hboot], ?_, (hwr.fld_eq _ _ rfl rfl).trans hup, (hwr.fld_eq _ _ rfl rfl).trans herr, State.mgmtReports_writeDeferred _⟩
  exact (State.mgcActing_congr (hwr.fld_eq _ _ rfl rfl) (hwr.fld_eq _ _ rfl rfl)).trans hact

/-- A block that fails once more. -/
theorem updateRows_failed {s : State} (hco : s.coreOff = false) (hf : s.boot.flashActive = true) (hr : s.railOk 1 = true) :
    exec (.flashBlockDone .failed) s = .next (if s.boot.flashTries < 2
      then { s.journalEntry s.boot.flashBlock with
        boot := { (s.journalEntry s.boot.flashBlock).boot with flashTries := s.boot.flashTries + 1 } }
      else ({ s.journalEntry s.boot.flashBlock with
        boot := { (s.journalEntry s.boot.flashBlock).boot with flashActive := false } }).haltUpdate stUPDATE_FLASH_FAIL) := by
  refine congrArg Host.Outcome.next ?_
  rw [State.inCore_on hco, State.flashBlockDone_eq hf hr, (s.journalEntry_spec _).2.1]

/-- Settles O22: the update's states and what it stages, runs and rewrites stand in registers and in what start-up holds; events and ends
leave both. -/
theorem updateRows : Obligations.UpdateRows := by
  refine ⟨?_, ?_, ?_, ?_, ?_, fun s hp hst => updateRows_handover hp hst, fun s hp hst => updateRows_noHandover hp hst,
    fun s r hco hf hr h hn => updateRows_nextBlock hco hf hr h hn, fun s r hco hf hr h hn => updateRows_lastBlock hco hf hr h hn, ?_, ?_, ?_⟩
  case refine_1 =>
    intro s op o hready hw hfn hst hpos hle
    refine ⟨_, congrArg Host.Outcome.next (State.mgmtPF_ready hready hw hfn _), ?_⟩
    obtain ⟨-, rfl, -⟩ := hready
    beta_reduce
    rw [State.updateStage_of_idle (s := s.setOp o.started) _ hst, if_neg (by rw [Op.started_desc]; omega)]
    obtain ⟨hup, hop, hstaged, hdone, hposts⟩ := (s.setOp o.started).staging_spec o.key
    refine ⟨hup, hop, hstaged, hdone, (hposts.underWay _).trans ?_⟩
    have hself : (s.setOp o.started).op? o.key = some o.started := State.op?_setOp_self s o.started
    rw [State.underWay, hself]
    rfl
  case refine_2 =>
    intro s op o hready hw hfn h1 h2 h3
    refine ⟨_, congrArg Host.Outcome.next (State.mgmtPF_ready hready hw hfn _), ?_⟩
    have hkept := hready.kept
    obtain ⟨-, rfl, -⟩ := hready
    beta_reduce
    rw [State.updateStage_of_busy (s := s.setOp o.started) _ ⟨h1, h2, h3⟩]
    exact State.refuseUpdate_spec (status := stUPDATE_BUSY) hkept (by decide)
  case refine_3 =>
    intro s op o hready hw hfn hst hlen
    refine ⟨_, congrArg Host.Outcome.next (State.mgmtPF_ready hready hw hfn _), ?_⟩
    have hkept := hready.kept
    obtain ⟨-, rfl, -⟩ := hready
    beta_reduce
    rw [State.updateStage_of_idle (s := s.setOp o.started) _ hst, if_pos (by rw [Op.started_desc]; exact hlen)]
    exact State.refuseUpdate_spec (status := stUPDATE_VERIFY_FAIL) hkept (by decide)
  case refine_4 =>
    intro s hco hst
    refine ⟨_, rfl, ?_⟩
    beta_reduce
    rw [State.inCore_on hco, State.stagingDone_none hst]
    obtain ⟨hup, herr, hboot⟩ := s.dropUpdate_spec (status := stHOST_ABORT) (by decide)
    exact ⟨hup, herr, by rw [hboot], by rw [hboot], by rw [hboot]⟩
  case refine_5 =>
    intro s b hco hst
    refine ⟨_, rfl, ?_⟩
    beta_reduce
    rw [State.inCore_on hco, State.stagingDone_some hst]
    have hdrop {status : Nat} (h : status < 256) : (s.dropUpdate status).upState = upIDLE ∧
        (s.dropUpdate status).fld Reg.MGT_UPDATE_STATUS_ERROR = status ∧ (s.dropUpdate status).boot.staged = none := by
      obtain ⟨hup, herr, hboot⟩ := s.dropUpdate_spec h
      exact ⟨hup, herr, by rw [hboot]⟩
    cases s.verifyImage b with
    | bad => exact hdrop (by decide)
    | rollback => exact hdrop (by decide)
    | accept i =>
      dsimp only
      split
      · exact hdrop (by decide)
      · exact s.verified_spec i b
  case refine_6 =>
    intro s hco hf hr
    refine ⟨_, rfl, ?_⟩
    beta_reduce
    rw [State.inCore_on hco, State.flashBlockDone_eq hf hr]
    obtain ⟨hj, -, -, hfr⟩ := s.journalEntry_spec s.boot.flashBlock
    exact ⟨hj, hfr.within (ps := [.boot]) (by decide +kernel)⟩
  case refine_7 =>
    intro s hco hf hr htries
    refine ⟨_, updateRows_failed hco hf hr, ?_⟩
    obtain ⟨hj, -, hact, hfr⟩ := s.journalEntry_spec s.boot.flashBlock
    rw [if_pos htries]
    exact ⟨rfl, hact.trans hf, hj, (Fr.boot_ hfr rfl).within (ps := [.boot]) (by decide +kernel)⟩
  case refine_8 =>
    intro s hco hf hr htries
    refine ⟨_, updateRows_failed hco hf hr, ?_⟩
    obtain ⟨hj, -, -, -⟩ := s.journalEntry_spec s.boot.flashBlock
    rw [if_neg (Nat.not_lt.2 htries)]
    obtain ⟨hup, herr, hboot, -⟩ := ({ s.journalEntry s.boot.flashBlock with
      boot := { (s.journalEntry s.boot.flashBlock).boot with flashActive := false } } : State).haltUpdate_spec (status := stUPDATE_FLASH_FAIL) (by decide)
    exact ⟨by rw [hboot], hup, herr, by rw [hboot]; exact hj⟩

end Sys2Proof.Machine


/-!
PROOFS. Retirement of a memory unit (R149 to R154): the event of a retirement that finds no spare.
-/

namespace Sys2Proof.Machine

/-- MEM_RETIRE of media pseudo-channel 5. -/
def retireRequest : Op :=
  { key := ⟨0, 0⟩, fn := 0, desc := 5 :: (List.replicate 15 0 ++ 12 :: (List.replicate 3 0 ++ 5 :: List.replicate 43 0)) }

/-- The block in service with that request taken from ring 0, served by cox 0, without spares and without console lines. -/
def withoutSpares : State :=
  let s : State := { State.reset with boot := { State.reset.boot with porst := false, railOrder := [0, 1, 2, 3, 4, 5, 6, 7] } }
  let u := ((s.setFld Reg.MGT_READINESS_STAGE 0 9).setFld Reg.MGT_CON_CFG_CON_SEV 0 7).setCox 0 roleACTIVE 0
  { u with hif := { u.hif with
    rings := [(0, { kind := kindMGMT, enabled := true, dev := 1, host := 1, taken := [0] })]
    ops := [(⟨0, 0⟩, retireRequest)] } }

/-- The record of a retirement without a spare is RETIRE_NO_SPARE. -/
theorem memRetire_withoutSpares : ((withoutSpares.mgmtPF ⟨0, 0⟩ 0x000C fun o s => s.memRetire o).evr.ring.map EvRecord.code) =
    [Ev.RETIRE_NO_SPARE] := by
  decide +kernel

theorem raise_noSpace_withoutSpares : (withoutSpares.raise Ev.RETIRE_NO_SPACE (mParam0 retireRequest.desc % 1024)
    (pcDie (mParam0 retireRequest.desc % 1024))).evr.ring.map EvRecord.code = [Ev.RETIRE_NO_SPACE] := by
  decide +kernel

/-- Refutes O25: the statement names RETIRE_NO_SPACE for a pseudo-channel whose die has no spare, where the record is
RETIRE_NO_SPARE. Media pseudo-channel 5 of a die without spares is asked to retire. -/
theorem not_retirementRows : ¬ Obligations.RetirementRows := by
  unfold Obligations.RetirementRows
  rintro ⟨-, -, -, h, -⟩
  obtain ⟨t, ht, -, -, -, -, hrec⟩ := h withoutSpares ⟨0, 0⟩ retireRequest (by decide +kernel) (by decide +kernel) rfl (by decide +kernel)
    (by decide +kernel) rfl rfl
  have hcodes := congrArg (fun e => e.ring.map EvRecord.code) hrec
  rw [← Host.Outcome.next.inj ht] at hcodes
  exact absurd ((memRetire_withoutSpares.symm.trans hcodes).trans raise_noSpace_withoutSpares) (by decide)

end Sys2Proof.Machine


/-!
PROOFS. DDR5 channels and extents (R44, R45, R128, R130, R151, R155).
-/

namespace Sys2Proof.Machine

/-! ### Retirements leave the extent map -/

/-- Between two states retirements have begun or ended: extents and channel sizes stay, and operations stay in their places. -/
structure State.KeepsMap (s t : State) : Prop where
  extents : t.mem.extents = s.mem.extents
  chanGib : t.mem.chanGib = s.mem.chanGib
  kept : ∀ k, s.Kept k → t.Kept k

theorem State.KeepsMap.rfl {s : State} : s.KeepsMap s := ⟨Eq.refl _, Eq.refl _, fun _ h => h⟩

theorem State.KeepsMap.trans {s t u : State} (h : s.KeepsMap t) (k : t.KeepsMap u) : s.KeepsMap u :=
  ⟨k.extents.trans h.extents, k.chanGib.trans h.chanGib, fun x hx => k.kept x (h.kept x hx)⟩

theorem State.KeepsMap.of_hif {s t : State} (hh : t.hif = s.hif) (he : t.mem.extents = s.mem.extents) (hg : t.mem.chanGib = s.mem.chanGib) :
    s.KeepsMap t := ⟨he, hg, fun _ h => h.congr hh⟩

theorem State.keepsMap_raise (s : State) (c i d : Nat) : s.KeepsMap (s.raise c i d) :=
  ⟨by rw [(s.raise_keeps c i d).mem_eq rfl], by rw [(s.raise_keeps c i d).mem_eq rfl], fun _ h => (s.posts_raise c i d).kept h⟩

theorem State.keepsMap_finish (s : State) (k : OpKey) (status ext value : Nat) : s.KeepsMap (s.finish k status ext value) :=
  ⟨by rw [(s.finish_keeps k status ext value).mem_eq rfl], by rw [(s.finish_keeps k status ext value).mem_eq rfl],
    fun _ h => h.finish _ _ _ _⟩

theorem State.keepsMap_showSpares (s : State) : s.KeepsMap s.showSpares := .of_hif rfl rfl rfl

/-- A request completes, if there is one. -/
theorem State.keepsMap_answer (s : State) (op : Option OpKey) (status : Nat) :
    s.KeepsMap (match op with | some k => s.finish k status | none => s) := by
  cases op with
  | none => exact .rfl
  | some k => exact s.keepsMap_finish _ _ _ _

theorem State.keepsMap_retireEnd (s : State) (r : Retire) : s.KeepsMap (s.retireEnd r) := by
  unfold State.retireEnd
  dsimp only
  refine State.KeepsMap.trans (State.KeepsMap.trans ?_ (State.keepsMap_raise _ _ _ _)) (State.keepsMap_answer _ _ _)
  split
  · exact .of_hif rfl rfl rfl
  · exact .of_hif rfl rfl rfl

theorem State.keepsMap_beginRetire (s : State) (r : Retire) : s.KeepsMap (s.beginRetire r) := by
  unfold State.beginRetire
  dsimp only
  split
  · split
    · refine State.KeepsMap.trans ?_ (State.keepsMap_raise _ _ _ _)
      exact .of_hif rfl rfl rfl
    · refine State.KeepsMap.trans (State.KeepsMap.trans ?_ (State.keepsMap_raise _ _ _ _)) (State.keepsMap_answer _ _ _)
      exact .of_hif rfl rfl rfl
  · have hnote (t : State) (ht : s.KeepsMap t) (i d : Nat) : s.KeepsMap (t.raise Ev.RETIRE_START i d) := ht.trans (t.keepsMap_raise _ _ _)
    split
    · refine State.KeepsMap.trans (hnote _ ?_ _ _) (State.keepsMap_retireEnd _ _)
      exact .of_hif rfl rfl rfl
    · refine hnote _ ?_ _ _
      exact .of_hif rfl rfl rfl

theorem State.keepsMap_foldl {α : Type} {f : State → α → State} (hf : ∀ (s : State) (a : α), s.KeepsMap (f s a)) (l : List α) (s : State) :
    s.KeepsMap (l.foldl f s) := by
  induction l generalizing s with
  | nil => exact .rfl
  | cons x l ih => exact (hf s x).trans (ih _)

theorem State.keepsMap_startRetires (s : State) : s.KeepsMap s.startRetires := by
  refine State.keepsMap_foldl (fun t r => ?_) _ s
  split
  · exact .rfl
  · exact t.keepsMap_beginRetire r

theorem State.keepsMap_retireDone (s : State) (r : Retire) : s.KeepsMap (s.retireDone r) :=
  (s.keepsMap_retireEnd r).trans (State.keepsMap_startRetires _)

theorem State.keepsMap_retireWithout (s : State) (e : Nat) : s.KeepsMap (s.retireWithout e) := by
  unfold State.retireWithout
  dsimp only
  refine State.KeepsMap.trans ?_ (State.keepsMap_foldl (fun t r => t.keepsMap_retireDone r) _ _)
  exact .of_hif rfl rfl rfl

/-! ### A channel's only retirement -/

/-- The retirement of a unit of the DDR5 tier that begins: its extents are noted, or with none it is done. -/
theorem State.unitSt_setUnitSt_self (s : State) (u : MemUnit) (v : Nat) : (s.setUnitSt u v).unitSt u = v := AMap.getD_put_self _ _ _ _

/-- The extents bound to a channel. -/
def State.boundTo (s : State) (c : Nat) : List Nat := (s.mem.extents.filter fun e => e.2.1 == c).map (·.1)

theorem State.boundTo_isEmpty (s : State) (c : Nat) : (s.boundTo c).isEmpty = !(s.mem.extents.any fun e => e.2.1 == c) := by
  unfold State.boundTo
  rw [Bool.eq_iff_iff]
  simp [List.isEmpty_iff]

theorem State.onMem_congr {s : State} {f g : MemState → MemState} (h : f s.mem = g s.mem) : s.onMem f = s.onMem g := by
  rw [State.onMem, h, State.onMem]

/-- The state as the only retirement, of a channel, has begun. -/
def State.channelRetires (s : State) (r : Retire) : State :=
  ((s.setUnitSt r.unit usRETIRING).onMem fun m => { m with retires := [{ r with running := true, extents := s.boundTo r.unit.unit }] }).raise
    Ev.RETIRE_START r.unit.unit (r.unit.tier + 2 * bit (r.op.isSome || r.drain))

/-- The only retirement, of a channel, begins. -/
theorem State.startRetires_channel {s : State} {r : Retire} (hr : s.mem.retires = [r]) (ht : r.unit.tier = 1) (hrun : r.running = false) :
    s.startRetires = if (s.boundTo r.unit.unit).isEmpty = true
      then (s.channelRetires r).retireEnd { r with running := true, extents := s.boundTo r.unit.unit } else s.channelRetires r := by
  have hbegin : s.beginRetire r = if (s.boundTo r.unit.unit).isEmpty = true
      then (s.channelRetires r).retireEnd { r with running := true, extents := s.boundTo r.unit.unit } else s.channelRetires r := by
    unfold State.beginRetire
    dsimp only
    rw [if_neg (by omega)]
    have hmap : ((s.setUnitSt r.unit usRETIRING).onMem fun m => { m with
        retires := m.retires.map fun q => if q = r then { r with running := true, extents := s.boundTo r.unit.unit } else q }) =
        (s.setUnitSt r.unit usRETIRING).onMem fun m => { m with
          retires := [{ r with running := true, extents := s.boundTo r.unit.unit }] } := by
      refine State.onMem_congr ?_
      have hself : (s.setUnitSt r.unit usRETIRING).mem.retires = [r] := hr
      rw [hself, List.map_singleton, if_pos rfl]
    unfold State.boundTo at hmap
    rw [hmap]
    rfl
  unfold State.startRetires
  rw [hr]
  simp only [List.foldl_cons, List.foldl_nil, hrun, hr, List.any_cons, List.any_nil, Bool.false_and, Bool.or_false,
    List.contains_cons, beq_self_eq_true, Bool.true_or, Bool.not_true, Bool.false_eq_true, if_false]
  exact hbegin

theorem State.channelRetires_spec (s : State) (r : Retire) : (s.channelRetires r).unitSt r.unit = usRETIRING ∧
    (s.channelRetires r).mem.retires = [{ r with running := true, extents := s.boundTo r.unit.unit }] ∧ s.Posts (s.channelRetires r) := by
  unfold State.channelRetires
  refine ⟨?_, ?_, ?_⟩
  · rw [State.unitSt, (State.raise_keeps _ _ _ _).mem_eq rfl]
    exact s.unitSt_setUnitSt_self _ _
  · rw [(State.raise_keeps _ _ _ _).mem_eq rfl]
    rfl
  · refine State.Posts.trans ?_ (State.posts_raise _ _ _ _)
    exact .of_eq rfl rfl

/-- The end of a channel's retirement. -/
theorem State.retireEnd_channel {s : State} {r : Retire} {k : OpKey} (ht : r.unit.tier = 1) (hop : r.op = some k) (hk : s.Kept k)
    (hr : s.mem.retires = [r]) : (s.retireEnd r).unitSt r.unit = (if r.drain then usOFF else usRETIRED) ∧
      (s.retireEnd r).endedWith k stOK = true ∧ (s.retireEnd r).mem.retires = [] := by
  obtain ⟨u, hu, heq, hst, hret⟩ : ∃ u : State, u.Kept k ∧ s.retireEnd r = u.finish k stOK ∧
      u.unitSt r.unit = (if r.drain then usOFF else usRETIRED) ∧ u.mem.retires = [] := by
    refine ⟨((s.setUnitSt r.unit (if r.drain then usOFF else usRETIRED)).onMem fun m => { m with
      retires := m.retires.filter fun q => q.unit != r.unit }).raise Ev.RETIRE_DONE r.unit.unit r.unit.tier, ?_, ?_, ?_, ?_⟩
    · refine State.Posts.kept (State.posts_raise _ _ _ _) ?_
      exact hk.congr rfl
    · unfold State.retireEnd
      dsimp only
      rw [if_neg (by omega), hop]
    · rw [State.unitSt, (State.raise_keeps _ _ _ _).mem_eq rfl]
      exact s.unitSt_setUnitSt_self _ _
    · rw [(State.raise_keeps _ _ _ _).mem_eq rfl]
      have hself : (s.setUnitSt r.unit (if r.drain then usOFF else usRETIRED)).mem.retires = [r] := hr
      have hnone : [r].filter (fun q => q.unit != r.unit) = [] := by simp
      exact (congrArg (List.filter fun q => q.unit != r.unit) hself).trans hnone
  have hfin := u.finish_keeps k stOK 0 0
  rw [heq]
  exact ⟨by rw [State.unitSt, hfin.mem_eq rfl]; exact hst, State.endedWith_finish hu _ _ _, by rw [hfin.mem_eq rfl, hret]⟩

/-- A unit whose retirement is asked for while none is under way. -/
theorem State.retireUnit_alone {s : State} {u : MemUnit} (hst : s.unitSt u = usIN_SERVICE) (hr : s.mem.retires = []) (op : Option OpKey)
    (drain : Bool) : s.retireUnit u op drain = (s.onMem fun m => { m with retires := [{ unit := u, op := op, drain := drain }] }).startRetires := by
  unfold State.retireUnit
  rw [if_neg (by rw [hst]; decide), if_pos (.inl hst), hr]
  dsimp only [List.find?_nil]
  rw [State.onMem_congr (s := s) (g := fun m => { m with retires := [{ unit := u, op := op, drain := drain }] }) (by rw [hr]; rfl)]

/-- A channel in service whose retirement a request asks for. -/
theorem State.retireUnit_channel {s : State} {c : Nat} {k : OpKey} (hk : s.Kept k) (hrun : s.underWay k = true) (hst : s.unitSt ⟨1, c⟩ = usIN_SERVICE)
    (hr : s.mem.retires = []) (drain : Bool) :
    if (s.mem.extents.any fun e => e.2.1 == c) = true then
      (s.retireUnit ⟨1, c⟩ (some k) drain).unitSt ⟨1, c⟩ = usRETIRING ∧ (s.retireUnit ⟨1, c⟩ (some k) drain).underWay k = true ∧
      (s.retireUnit ⟨1, c⟩ (some k) drain).mem.retires.length = 1 ∧ (s.retireUnit ⟨1, c⟩ (some k) drain).mem.retires.head? = some
        { unit := ⟨1, c⟩, op := some k, drain := drain, running := true, extents := (s.mem.extents.filter fun e => e.2.1 == c).map (·.1) }
    else (s.retireUnit ⟨1, c⟩ (some k) drain).unitSt ⟨1, c⟩ = (if drain then usOFF else usRETIRED) ∧
      (s.retireUnit ⟨1, c⟩ (some k) drain).endedWith k stOK = true ∧ (s.retireUnit ⟨1, c⟩ (some k) drain).mem.retires = [] := by
  obtain ⟨r, hrdef⟩ : ∃ r : Retire, r = { unit := ⟨1, c⟩, op := some k, drain := drain } := ⟨_, rfl⟩
  obtain ⟨u, hu⟩ : ∃ u, u = s.onMem fun m => { m with retires := [r] } := ⟨_, rfl⟩
  have hunit : r.unit = ⟨1, c⟩ := by rw [hrdef]
  have hur : u.mem.retires = [r] := by rw [hu]; rfl
  have heq : s.retireUnit ⟨1, c⟩ (some k) drain = if (u.boundTo r.unit.unit).isEmpty = true
      then (u.channelRetires r).retireEnd { r with running := true, extents := u.boundTo r.unit.unit } else u.channelRetires r := by
    rw [State.retireUnit_alone hst hr, ← hrdef, ← hu, State.startRetires_channel hur (by rw [hrdef]) (by rw [hrdef])]
  obtain ⟨hring, hret, hposts⟩ := u.channelRetires_spec r
  have hbound : u.boundTo r.unit.unit = s.boundTo c := by rw [hu, hunit]; rfl
  have hup : s.Posts u := by rw [hu]; exact .of_eq rfl rfl
  have hsome : (u.boundTo r.unit.unit).isEmpty = !(s.mem.extents.any fun e => e.2.1 == c) := by rw [hbound, State.boundTo_isEmpty]
  have hend := State.retireEnd_channel (s := u.channelRetires r) (r := { r with running := true, extents := u.boundTo r.unit.unit }) (k := k)
    (congrArg MemUnit.tier hunit) (congrArg Retire.op hrdef) ((hup.trans hposts).kept hk) hret
  by_cases hb : (s.mem.extents.any fun e => e.2.1 == c) = true
  · rw [if_pos hb, heq, if_neg (by rw [hsome, hb]; decide)]
    refine ⟨hunit ▸ hring, ?_, by rw [hret]; rfl, ?_⟩
    · rw [(hup.trans hposts).underWay, hrun]
    · rw [hret, hbound, hrdef]
      rfl
  · rw [if_neg hb, heq, if_pos (by rw [hsome, Bool.eq_false_iff.2 hb]; rfl)]
    generalize (u.channelRetires r).retireEnd { r with running := true, extents := u.boundTo r.unit.unit } = v at hend ⊢
    obtain ⟨hoff, hok, hnil⟩ := hend
    have hdrain : r.drain = drain := by rw [hrdef]
    exact ⟨hunit ▸ hdrain ▸ hoff, hok, hnil⟩

/-! ### Extents -/

theorem State.Kept.of_hif {s t : State} {k : OpKey} (h : s.Kept k) (ht : t.hif = s.hif) : t.Kept k := h.congr ht

/-- The state as a release has taken the extent from the map. -/
def State.released (s : State) (e : Nat) : State :=
  s.onMem fun m => { m with
    extents := m.extents.del e
    zeroed := without m.zeroed e
    opened := m.opened.filter fun r => decide (r.1 < 0x100000000000 + e * 2 ^ 30) || decide (0x100000000000 + e * 2 ^ 30 + 2 ^ 30 ≤ r.1)
    cells := Memory.clear m.cells (0x100000000000 + e * 2 ^ 30) (2 ^ 30)
    keys := m.keys.filter fun k => decide (k.1 < (0x100000000000 + e * 2 ^ 30) / 64) || decide ((0x100000000000 + e * 2 ^ 30) / 64 + 2 ^ 24 ≤ k.1) }

theorem State.ddrExtentReq_release {s : State} {o : Op} (h : bitAt (mParam0 o.desc) 16 = false) :
    s.ddrExtentReq o = match s.mem.extents.find (mParam0 o.desc % 16384) with
      | none => s.finish o.key stOK
      | some _ => ((s.released (mParam0 o.desc % 16384)).retireWithout (mParam0 o.desc % 16384)).finish o.key stOK := by
  unfold State.ddrExtentReq
  dsimp only
  rw [h]
  cases s.mem.extents.find (mParam0 o.desc % 16384) <;> rfl

theorem State.ddrExtentReq_backed {s : State} {o : Op} (h : bitAt (mParam0 o.desc) 16 = true)
    (he : s.mem.extents.has (mParam0 o.desc % 16384) = true) : s.ddrExtentReq o = s.finish o.key stOK := by
  obtain ⟨x, hx⟩ := Option.isSome_iff_exists.1 he
  unfold State.ddrExtentReq
  dsimp only
  rw [h, hx]

/-- The state as a free media extent of a channel is bound. -/
def State.bound (s : State) (e c : Nat) : State :=
  (({ s with free := s.free + 1 } : State).onMem fun m => { m with
    extents := m.extents.put e (c, (s.freeIndex c).getD 0)
    zeroed := withElem m.zeroed (0x100000000000 / 2 ^ 30 + e) }).extentRegained e

theorem State.ddrExtentReq_back {s : State} {o : Op} (h : bitAt (mParam0 o.desc) 16 = true)
    (he : s.mem.extents.has (mParam0 o.desc % 16384) = false) : s.ddrExtentReq o = match s.richest with
      | [] => s.finish o.key stBAD_FIELD
      | l => (s.bound (mParam0 o.desc % 16384) (l.getD (Config.freeNat s.free % l.length) 0)).finish o.key stOK := by
  have hnone : s.mem.extents.find (mParam0 o.desc % 16384) = none := by
    simpa [AMap.has] using he
  unfold State.ddrExtentReq
  dsimp only
  rw [h, hnone]
  cases s.richest <;> rfl

theorem State.bound_find (s : State) (e c : Nat) : (s.bound e c).mem.extents.find e = some (c, (s.freeIndex c).getD 0) := AMap.find_put_self _ _ _

/-- The blocks of a bound extent are not lost. -/
theorem State.isLost_bound (s : State) {e c a : Nat} (he : e < 16384) (ha : a / 2 ^ 30 = 0x4000 + e) : (s.bound e c).isLost a = false := by
  have hddr : isDdr a = true := by
    simp only [isDdr, Bool.and_eq_true, decide_eq_true_eq]
    omega
  have hblk : 0x10000000 + e * 16384 ≤ a / 65536 ∧ a / 65536 < 0x10000000 + e * 16384 + 16384 := by omega
  generalize a / 65536 = b at hblk
  have hlost : (s.bound e c).lostList true = s.mem.lostDdr.flatMap fun r =>
      (if r.1 < 0x10000000 + e * blocksPerGib then [(r.1, min (r.1 + r.2) (0x10000000 + e * blocksPerGib) - r.1)] else []) ++
      (if 0x10000000 + e * blocksPerGib + blocksPerGib < r.1 + r.2 then
        [(max r.1 (0x10000000 + e * blocksPerGib + blocksPerGib), r.1 + r.2 - max r.1 (0x10000000 + e * blocksPerGib + blocksPerGib))] else []) := rfl
  unfold State.isLost
  rw [hddr, hlost, Bool.not_true, Bool.and_false, Bool.false_or, List.any_eq_false]
  intro x hx
  obtain ⟨r, -, hr⟩ := List.mem_flatMap.1 hx
  simp only [List.mem_append, List.mem_ite_nil_right, List.mem_singleton] at hr
  unfold blocksPerGib at hr
  simp only [Bool.and_eq_true, decide_eq_true_eq]
  obtain ⟨hlo, rfl⟩ | ⟨hhi, rfl⟩ := hr
  · dsimp only
    omega
  · dsimp only
    omega

theorem mem_withElem_self {α : Type} [DecidableEq α] (l : List α) (x : α) : x ∈ withElem l x := by
  unfold withElem
  split
  · assumption
  · exact List.mem_append_right _ (List.mem_singleton.2 rfl)

/-- A bound extent reads zero where nothing stands. -/
theorem State.memByte_bound (s : State) {e c a : Nat} (ha : a / 2 ^ 30 = 0x4000 + e) (hk : s.mem.keys.find (a / 64) = none)
    (ho : s.mem.openDraw a = none) : (s.bound e c).memByte .phys a = 0 := by
  have hkeys : (s.bound e c).mem.keys.find (a / 64) = none := hk
  have hopen : (s.bound e c).mem.openDraw a = none := ho
  have hzero : a / 2 ^ 30 ∈ (s.bound e c).mem.zeroed := by
    rw [ha]
    exact mem_withElem_self _ _
  unfold State.memByte
  rw [hkeys]
  exact if_pos ⟨rfl, hzero, hopen⟩

theorem State.isLost_congr {s t : State} (h : t.mem = s.mem) (a : Nat) : t.isLost a = s.isLost a := by
  rw [State.isLost, State.lostList, h, State.isLost, State.lostList]

theorem State.memByte_congr {s t : State} (h : t.mem = s.mem) (k : MemKey) (a : Nat) : t.memByte k a = s.memByte k a := by
  unfold State.memByte State.unlisted
  rw [h]

/-! ### The rows -/

theorem State.ddrDomain_on {s : State} {o : Op} (hc : mParam0 o.desc % 256 ≤ 15) (hon : bitAt (mParam0 o.desc) 8 = true) : s.ddrDomain o =
    if s.mem.training.has (mParam0 o.desc % 256) then s.onMem fun m => { m with trainWaits := m.trainWaits ++ [(mParam0 o.desc % 256, o.key)] }
    else if s.unitSt ⟨1, mParam0 o.desc % 256⟩ = usOFF ∨ s.unitSt ⟨1, mParam0 o.desc % 256⟩ = usRETIRED then
      (s.onMem fun m => { m with training := m.training.put (mParam0 o.desc % 256) (some o.key) }).emit (.dimmReset (mParam0 o.desc % 256))
    else s.finish o.key stOK (s.unitSt ⟨1, mParam0 o.desc % 256⟩) := by
  unfold State.ddrDomain
  dsimp only
  rw [if_neg (by omega), if_pos hon]

theorem State.ddrDomain_off {s : State} {o : Op} (hc : mParam0 o.desc % 256 ≤ 15) (hon : bitAt (mParam0 o.desc) 8 = false) : s.ddrDomain o =
    if s.unitSt ⟨1, mParam0 o.desc % 256⟩ = usOFF then s.finish o.key stOK
    else if s.unitSt ⟨1, mParam0 o.desc % 256⟩ = usRETIRED then (s.setUnitSt ⟨1, mParam0 o.desc % 256⟩ usOFF).finish o.key stOK
    else s.retireUnit ⟨1, mParam0 o.desc % 256⟩ (some o.key) true := by
  unfold State.ddrDomain
  dsimp only
  rw [if_neg (by omega), if_neg (by simp [hon])]

section
variable {s : State} {o : Op} (hc : mParam0 o.desc % 256 ≤ 15)
include hc

theorem State.ddrDomain_waits (hon : bitAt (mParam0 o.desc) 8 = true) (ht : s.mem.training.has (mParam0 o.desc % 256) = true) :
    s.ddrDomain o = s.onMem fun m => { m with trainWaits := m.trainWaits ++ [(mParam0 o.desc % 256, o.key)] } :=
  (State.ddrDomain_on hc hon).trans (if_pos ht)

theorem State.ddrDomain_resets (hon : bitAt (mParam0 o.desc) 8 = true) (ht : s.mem.training.has (mParam0 o.desc % 256) = false)
    (hst : s.unitSt ⟨1, mParam0 o.desc % 256⟩ = usOFF ∨ s.unitSt ⟨1, mParam0 o.desc % 256⟩ = usRETIRED) : s.ddrDomain o =
      (s.onMem fun m => { m with training := m.training.put (mParam0 o.desc % 256) (some o.key) }).emit (.dimmReset (mParam0 o.desc % 256)) :=
  (State.ddrDomain_on hc hon).trans ((if_neg (by rw [ht]; decide)).trans (if_pos hst))

theorem State.ddrDomain_stands (hon : bitAt (mParam0 o.desc) 8 = true) (ht : s.mem.training.has (mParam0 o.desc % 256) = false)
    (hst : ¬(s.unitSt ⟨1, mParam0 o.desc % 256⟩ = usOFF ∨ s.unitSt ⟨1, mParam0 o.desc % 256⟩ = usRETIRED)) :
    s.ddrDomain o = s.finish o.key stOK (s.unitSt ⟨1, mParam0 o.desc % 256⟩) :=
  (State.ddrDomain_on hc hon).trans ((if_neg (by rw [ht]; decide)).trans (if_neg hst))

theorem State.ddrDomain_isOff (hon : bitAt (mParam0 o.desc) 8 = false) (hst : s.unitSt ⟨1, mParam0 o.desc % 256⟩ = usOFF) :
    s.ddrDomain o = s.finish o.key stOK :=
  (State.ddrDomain_off hc hon).trans (if_pos hst)

theorem State.ddrDomain_wasRetired (hon : bitAt (mParam0 o.desc) 8 = false) (hst : s.unitSt ⟨1, mParam0 o.desc % 256⟩ = usRETIRED) :
    s.ddrDomain o = (s.setUnitSt ⟨1, mParam0 o.desc % 256⟩ usOFF).finish o.key stOK :=
  (State.ddrDomain_off hc hon).trans ((if_neg (by rw [hst]; decide)).trans (if_pos hst))

theorem State.ddrDomain_drains (hon : bitAt (mParam0 o.desc) 8 = false) (hst : s.unitSt ⟨1, mParam0 o.desc % 256⟩ = usIN_SERVICE) :
    s.ddrDomain o = s.retireUnit ⟨1, mParam0 o.desc % 256⟩ (some o.key) true :=
  (State.ddrDomain_off hc hon).trans ((if_neg (by rw [hst]; decide)).trans (if_neg (by rw [hst]; decide)))

end

/-- An operation that has started is under way. -/
theorem State.underWay_setOp (s : State) (o : Op) : (s.setOp o.started).underWay o.key = true := by
  have hself : (s.setOp o.started).op? o.key = some o.started := State.op?_setOp_self s o.started
  rw [State.underWay, hself]
  rfl

theorem State.underWay_congr {s t : State} (h : t.hif = s.hif) (k : OpKey) : t.underWay k = s.underWay k := by
  rw [State.underWay, State.op?_congr h, State.underWay]

/-- The phase of an operation that ends in its place. -/
theorem State.phase_finish {s : State} {k : OpKey} {o : Op} (hop : s.op? k = some o) (hkey : o.key = k) (hlost : o.lost = false)
    (hslot : k.slot ∈ (s.ring k.ring).taken) (status ext value : Nat) :
    ((s.finish k status ext value).op? k).map Op.phase = some (.done ⟨dTag o.desc, status, false, ext, o.seg, value⟩) := by
  rw [State.finish_kept hop hlost hslot, State.op?_setOp, if_pos hkey.symm]
  rfl

theorem State.Ready.slot {s : State} {k : OpKey} {o : Op} (h : s.Ready k o) : k.slot ∈ (s.ring k.ring).taken := by
  obtain ⟨-, hkey, -, hcan, -⟩ := h
  simp only [State.canStart, Bool.and_eq_true, decide_eq_true_eq, hkey] at hcan
  exact hcan.1.2

/-- The waiting requests of a channel whose training ends. -/
theorem State.ddrTrained_alone {s : State} {c : Nat} {op : OpKey} (gib : Nat) (ok : Bool) (h : s.mem.training.find c = some (some op))
    (hw : s.mem.trainWaits = []) : s.ddrTrained c gib ok = ((if ok then
        (s.onMem fun m => { m with training := m.training.del c, chanGib := m.chanGib.put c (if ok then min 1024 gib else 0) }).setUnitSt ⟨1, c⟩ (if ok then usIN_SERVICE else usOFF)
      else ((s.onMem fun m => { m with training := m.training.del c, chanGib := m.chanGib.put c (if ok then min 1024 gib else 0) }).setUnitSt ⟨1, c⟩
        (if ok then usIN_SERVICE else usOFF)).raise Ev.DDR_TRAIN_FAIL c 0).onMem fun m => { m with trainWaits := m.trainWaits.filter fun w => w.1 != c }).finish op stOK
          (if ok then usIN_SERVICE else usOFF) := by
  unfold State.ddrTrained
  rw [h]
  dsimp only
  rw [hw]
  rfl

/-- A request for a channel outside its occasion. -/
theorem channelRows_domainOn {s : State} {op : OpKey} {o : Op} (hready : s.Ready op o) (hw : isMgmt 0x7 o.desc = true) (hfn : o.fn = 0)
    (hc : mParam0 o.desc % 256 ≤ 15) (hon : bitAt (mParam0 o.desc) 8 = true) (ht : s.mem.training.has (mParam0 o.desc % 256) = false)
    (hst : s.unitSt ⟨1, mParam0 o.desc % 256⟩ = usOFF ∨ s.unitSt ⟨1, mParam0 o.desc % 256⟩ = usRETIRED) : Completes (.ddrDomain op) s fun t =>
      t.mem.training.find (mParam0 o.desc % 256) = some (some op) ∧ t.underWay op = true ∧ t.out = s.out ++
      [Out.dimmReset (mParam0 o.desc % 256)] ∧ SameBut [.hif, .mem, .out] s t := by
  refine ⟨_, congrArg Host.Outcome.next (State.mgmtPF_ready hready hw hfn _), ?_⟩
  obtain ⟨-, rfl, -⟩ := hready
  have heq : (s.setOp o.started).ddrDomain o.started = ((s.setOp o.started).onMem fun m => { m with
      training := m.training.put (mParam0 o.desc % 256) (some o.key) }).emit (.dimmReset (mParam0 o.desc % 256)) :=
    State.ddrDomain_resets (s := s.setOp o.started) (o := o.started) hc hon ht hst
  have hfr : Fr 0x8000140000000 s (((s.setOp o.started).onMem fun m => { m with
      training := m.training.put (mParam0 o.desc % 256) (some o.key) }).emit (.dimmReset (mParam0 o.desc % 256))) := by
    exact State.emit_fr (State.onMem_fr ((s.setOp_keeps o.started).weaken rfl) rfl fun _ => ⟨rfl, rfl, rfl, rfl⟩) rfl
  beta_reduce
  rw [heq]
  refine ⟨AMap.find_put_self _ _ _, (State.underWay_congr rfl _).trans (s.underWay_setOp o), rfl, hfr.within (ps := [.hif, .mem, .out]) (by decide +kernel)⟩

/-- A channel's training ends. -/
theorem channelRows_trained {s : State} {c gib : Nat} {ok : Bool} {op : OpKey} {o : Op} (hco : s.coreOff = false)
    (ht : s.mem.training.find c = some (some op)) (hwait : s.mem.trainWaits = []) (hop : s.op? op = some o) (hkey : o.key = op)
    (hlost : o.lost = false) (hslot : op.slot ∈ (s.ring op.ring).taken) : Completes (.ddrTrainDone c gib ok) s fun t =>
      t.unitSt ⟨1, c⟩ = (if ok then usIN_SERVICE else usOFF) ∧ t.mem.training.has c = false ∧
      t.mem.chanGib.find c = some (if ok then min 1024 gib else 0) ∧
      (t.op? op).map Op.phase =
        some (OpPhase.done ⟨dTag o.desc, stOK, false, if ok then usIN_SERVICE else usOFF, o.seg, 0⟩) ∧
      if ok then SameBut [.hif, .mem] s t else s.Records t Ev.DDR_TRAIN_FAIL c 0 := by
  refine ⟨_, rfl, ?_⟩
  beta_reduce
  rw [State.inCore_on hco, State.ddrTrained_alone gib ok ht hwait]
  generalize hu : (s.onMem fun m => { m with training := m.training.del c, chanGib := m.chanGib.put c (if ok then min 1024 gib else 0) }).setUnitSt
    ⟨1, c⟩ (if ok then usIN_SERVICE else usOFF) = u
  have hst : u.unitSt ⟨1, c⟩ = (if ok then usIN_SERVICE else usOFF) := by rw [← hu]; exact State.unitSt_setUnitSt_self _ _ _
  have htr : u.mem.training.has c = false := by
    have hdel : AMap.find (AMap.del s.mem.training c) c = none := AMap.find_del_self _ _
    have hmem : u.mem.training = AMap.del s.mem.training c := by rw [← hu]; rfl
    rw [hmem, AMap.has, hdel]
    rfl
  have hgib : u.mem.chanGib.find c = some (if ok then min 1024 gib else 0) := by rw [← hu]; exact AMap.find_put_self _ _ _
  have hfr : Fr 0x100000000 s u := by
    rw [← hu]
    exact State.setUnitSt_fr (State.onMem_fr (Fr.refl _ s) rfl fun _ => ⟨rfl, rfl, rfl, rfl⟩) rfl
  generalize hv : (if ok then u else u.raise Ev.DDR_TRAIN_FAIL c 0) = v
  have hmem : v.mem = u.mem := by
    rw [← hv]
    split
    · rfl
    · exact (State.raise_keeps _ _ _ _).mem_eq rfl
  have hposts : u.Posts v := by
    rw [← hv]
    split
    · exact .rfl
    · exact u.posts_raise _ _ _
  generalize hx : (v.onMem fun m => { m with trainWaits := m.trainWaits.filter fun w => w.1 != c }) = x
  have hxm : x.mem.unitState = u.mem.unitState ∧ x.mem.training = u.mem.training ∧ x.mem.chanGib = u.mem.chanGib := by
    rw [← hx, ← hmem]
    exact ⟨rfl, rfl, rfl⟩
  have hpx : u.Posts x := hposts.trans (by rw [← hx]; exact .of_eq rfl rfl)
  have hps : s.Posts x := (hfr.posts ⟨rfl, rfl⟩).trans hpx
  have hfin := x.finish_keeps op stOK (if ok then usIN_SERVICE else usOFF) 0
  refine ⟨?_, ?_, ?_, ?_, ?_⟩
  · rw [State.unitSt, hfin.mem_eq rfl, hxm.1]
    exact hst
  · rw [hfin.mem_eq rfl, hxm.2.1]
    exact htr
  · rw [hfin.mem_eq rfl, hxm.2.2]
    exact hgib
  · exact State.phase_finish ((hps.op? op).trans hop) hkey hlost (by rw [hps.taken]; exact hslot) _ _ _
  · cases ok with
    | true =>
      have hvx : Fr 0x100000000 u x := by
        rw [← hx, ← hv]
        exact State.onMem_fr (Fr.refl _ _) rfl fun _ => ⟨rfl, rfl, rfl, rfl⟩
      have hsx : Fr 0x140000000 s x := (hfr.trans hvx).weaken rfl
      exact (hsx.trans (hfin.weaken rfl)).within (ps := [.hif, .mem]) (by decide +kernel)
    | false =>
      rw [if_neg (by decide)]
      have hev : x.evr = (u.raise Ev.DDR_TRAIN_FAIL c 0).evr := by
        rw [← hx, State.onMem_evr, ← hv, if_neg (by decide)]
      rw [State.Records, hfin.evr_eq rfl, hev]
      exact State.evr_raise_congr (hfr.recordsAlike ⟨rfl, rfl, rfl, rfl⟩) _ _ _

/-- An extent is released. -/
theorem channelRows_release {s : State} {op : OpKey} {o : Op} (hready : s.Ready op o) (hw : isMgmt 0xb o.desc = true) (hfn : o.fn = 0)
    (hback : bitAt (mParam0 o.desc) 16 = false) : Completes (.ddrExtent op) s fun t =>
      t.endedWith op stOK = true ∧ t.mem.extents.has (mParam0 o.desc % 16384) = false ∧
      (∀ e, e ≠ (mParam0 o.desc % 16384) → t.mem.extents.find e = s.mem.extents.find e) ∧ t.mem.chanGib = s.mem.chanGib := by
  refine ⟨_, congrArg Host.Outcome.next (State.mgmtPF_ready hready hw hfn _), ?_⟩
  have hkept := hready.kept
  obtain ⟨-, rfl, -⟩ := hready
  beta_reduce
  rw [State.ddrExtentReq_release (s := s.setOp o.started) (o := o.started) hback, Op.started_desc, Op.started_key]
  cases he : (s.setOp o.started).mem.extents.find (mParam0 o.desc % 16384) with
  | none =>
    dsimp only
    have hfin := (s.setOp o.started).finish_keeps o.key stOK 0 0
    refine ⟨State.endedWith_finish hkept _ _ _, ?_, fun e _ => by rw [hfin.mem_eq rfl]; rfl, by rw [hfin.mem_eq rfl]; rfl⟩
    rw [hfin.mem_eq rfl, AMap.has, he]
    rfl
  | some x =>
    dsimp only
    generalize mParam0 o.desc % 16384 = n
    have hrel : ((s.setOp o.started).released n).Kept o.key := hkept.congr rfl
    have hmap := ((s.setOp o.started).released n).keepsMap_retireWithout n
    generalize ((s.setOp o.started).released n).retireWithout n = u at hmap ⊢
    have hfin := u.finish_keeps o.key stOK 0 0
    have hdel : ((s.setOp o.started).released n).mem.extents = AMap.del s.mem.extents n := rfl
    have hgib : ((s.setOp o.started).released n).mem.chanGib = s.mem.chanGib := rfl
    refine ⟨State.endedWith_finish (hmap.kept _ hrel) _ _ _, ?_, fun e hne => ?_, ?_⟩
    · rw [hfin.mem_eq rfl, hmap.extents, hdel, AMap.has, AMap.find_del_self]
      rfl
    · rw [hfin.mem_eq rfl, hmap.extents, hdel, AMap.find_del_ne _ _ _ hne]
    · rw [hfin.mem_eq rfl, hmap.chanGib, hgib]

/-- An extent is backed. -/
theorem channelRows_back {s : State} {op : OpKey} {o : Op} (hready : s.Ready op o) (hw : isMgmt 0xb o.desc = true) (hfn : o.fn = 0)
    (hback : bitAt (mParam0 o.desc) 16 = true) (hnone : s.mem.extents.has (mParam0 o.desc % 16384) = false) (hrich : s.richest ≠ []) :
    Completes (.ddrExtent op) s fun t => t.endedWith op stOK = true ∧
      (∃ c ∈ s.richest, t.mem.extents.find (mParam0 o.desc % 16384) = some (c, (s.freeIndex c).getD 0)) ∧
      (∀ a, a / 2 ^ 30 = 0x4000 + (mParam0 o.desc % 16384) → t.isLost a = false ∧
        (s.mem.keys.find (a / 64) = none → s.mem.openDraw a = none → t.memByte .phys a = 0)) := by
  refine ⟨_, congrArg Host.Outcome.next (State.mgmtPF_ready hready hw hfn _), ?_⟩
  have hkept := hready.kept
  obtain ⟨-, rfl, -⟩ := hready
  obtain ⟨x, l, hl⟩ := List.exists_cons_of_ne_nil hrich
  have heq : (s.setOp o.started).ddrExtentReq o.started = ((s.setOp o.started).bound (mParam0 o.desc % 16384)
      ((x :: l).getD (Config.freeNat s.free % (x :: l).length) 0)).finish o.key stOK := by
    rw [State.ddrExtentReq_back (s := s.setOp o.started) (o := o.started) hback hnone,
      show (s.setOp o.started).richest = x :: l from hl]
    rfl
  have hin : (x :: l).getD (Config.freeNat s.free % (x :: l).length) 0 ∈ s.richest := by
    have hlt : Config.freeNat s.free % (x :: l).length < (x :: l).length := Nat.mod_lt _ (Nat.succ_pos _)
    rw [hl, List.getD_eq_getElem _ _ hlt]
    exact List.getElem_mem hlt
  generalize (x :: l).getD (Config.freeNat s.free % (x :: l).length) 0 = c at heq hin
  have he : mParam0 o.desc % 16384 < 16384 := Nat.mod_lt _ (by decide)
  beta_reduce
  rw [heq]
  generalize mParam0 o.desc % 16384 = e at he
  have hfin := ((s.setOp o.started).bound e c).finish_keeps o.key stOK 0 0
  have hbk : ((s.setOp o.started).bound e c).Kept o.key := hkept.congr rfl
  refine ⟨State.endedWith_finish hbk _ _ _, ⟨c, hin, ?_⟩, fun a ha => ⟨?_, fun hk ho => ?_⟩⟩
  · rw [hfin.mem_eq rfl]
    exact State.bound_find _ _ _
  · exact (State.isLost_congr (hfin.mem_eq rfl) a).trans (State.isLost_bound _ he ha)
  · rw [State.memByte_congr (hfin.mem_eq rfl)]
    exact State.memByte_bound (s := s.setOp o.started) ha hk ho

/-- Settles O24: a channel's request is one of the cases of its state, a release is carried through the retirements it ends, and a bound
extent lies outside the lost ranges. -/
theorem channelRows : Obligations.ChannelRows := by
  refine ⟨?_, fun s op o hready hw hfn hc hon ht hst => channelRows_domainOn hready hw hfn hc hon ht hst, ?_, ?_, ?_, ?_, ?_,
    fun s c gib ok op o hco ht hwait hop hkey hlost hslot => channelRows_trained hco ht hwait hop hkey hlost hslot,
    fun s op o hready hw hfn hback => channelRows_release hready hw hfn hback, ?_, ?_,
    fun s op o hready hw hfn hback hnone hrich => channelRows_back hready hw hfn hback hnone hrich⟩
  case refine_1 =>
    intro s op o hready hw hfn hc
    refine ⟨_, congrArg Host.Outcome.next (State.mgmtPF_ready hready hw hfn _), ?_⟩
    obtain ⟨hend, hfr⟩ := hready.finish_spec stBAD_FIELD 0 0
    obtain ⟨-, rfl, -⟩ := hready
    beta_reduce
    rw [show (s.setOp o.started).ddrDomain o.started = (s.setOp o.started).finish o.key stBAD_FIELD from if_pos hc]
    exact ⟨hend, hfr.within (ps := [.hif]) (by decide +kernel)⟩
  case refine_2 =>
    intro s op o hready hw hfn hc hon ht
    refine ⟨_, congrArg Host.Outcome.next (State.mgmtPF_ready hready hw hfn _), ?_⟩
    obtain ⟨-, rfl, -⟩ := hready
    beta_reduce
    rw [State.ddrDomain_waits (s := s.setOp o.started) (o := o.started) hc hon ht, Op.started_desc, Op.started_key]
    have hfr : Fr 0x140000000 s ((s.setOp o.started).onMem fun m => { m with trainWaits := m.trainWaits ++ [(mParam0 o.desc % 256, o.key)] }) :=
      State.onMem_fr ((s.setOp_keeps o.started).weaken rfl) rfl fun _ => ⟨rfl, rfl, rfl, rfl⟩
    exact ⟨rfl, (State.underWay_congr rfl _).trans (s.underWay_setOp o), hfr.within (ps := [.hif, .mem]) (by decide +kernel)⟩
  case refine_3 =>
    intro s op o hready hw hfn hc hon ht hoff hret
    refine ⟨_, congrArg Host.Outcome.next (State.mgmtPF_ready hready hw hfn _), ?_⟩
    obtain ⟨-, hfr⟩ := hready.finish_spec stOK (s.unitSt ⟨1, mParam0 o.desc % 256⟩) 0
    have hslot := hready.slot
    obtain ⟨-, rfl, hlost, -⟩ := hready
    beta_reduce
    rw [State.ddrDomain_stands (s := s.setOp o.started) (o := o.started) hc hon ht (not_or.2 ⟨hoff, hret⟩)]
    exact ⟨State.phase_finish (State.op?_setOp_self s o.started) rfl hlost hslot _ _ _, hfr.within (ps := [.hif]) (by decide +kernel)⟩
  case refine_4 =>
    intro s op o hready hw hfn hc hon hoff
    refine ⟨_, congrArg Host.Outcome.next (State.mgmtPF_ready hready hw hfn _), ?_⟩
    obtain ⟨hend, hfr⟩ := hready.finish_spec stOK 0 0
    obtain ⟨-, rfl, -⟩ := hready
    beta_reduce
    rw [State.ddrDomain_isOff (s := s.setOp o.started) (o := o.started) hc hon hoff]
    exact ⟨hend, hfr.within (ps := [.hif]) (by decide +kernel)⟩
  case refine_5 =>
    intro s op o hready hw hfn hc hon hret
    refine ⟨_, congrArg Host.Outcome.next (State.mgmtPF_ready hready hw hfn _), ?_⟩
    have hkept := hready.kept
    obtain ⟨-, rfl, -⟩ := hready
    beta_reduce
    rw [State.ddrDomain_wasRetired (s := s.setOp o.started) (o := o.started) hc hon hret, Op.started_desc, Op.started_key]
    have hset : Fr 0x140000000 s ((s.setOp o.started).setUnitSt ⟨1, mParam0 o.desc % 256⟩ usOFF) :=
      State.setUnitSt_fr ((s.setOp_keeps o.started).weaken rfl) rfl
    have hfin := ((s.setOp o.started).setUnitSt ⟨1, mParam0 o.desc % 256⟩ usOFF).finish_keeps o.key stOK 0 0
    have hset' : ((s.setOp o.started).setUnitSt ⟨1, mParam0 o.desc % 256⟩ usOFF).Kept o.key := hkept.congr rfl
    refine ⟨State.endedWith_finish hset' _ _ _, ?_, (hset.trans (hfin.weaken rfl)).within (ps := [.hif, .mem]) (by decide +kernel)⟩
    exact (congrArg (fun m => m.unitState.getD ⟨1, mParam0 o.desc % 256⟩ 0) (hfin.mem_eq rfl)).trans (State.unitSt_setUnitSt_self _ _ _)
  case refine_6 =>
    intro s op o hready hw hfn hc hon hst hr
    refine ⟨_, congrArg Host.Outcome.next (State.mgmtPF_ready hready hw hfn _), ?_⟩
    have hkept := hready.kept
    obtain ⟨-, rfl, -⟩ := hready
    beta_reduce
    rw [State.ddrDomain_drains (s := s.setOp o.started) (o := o.started) hc hon hst]
    exact State.retireUnit_channel (s := s.setOp o.started) hkept (s.underWay_setOp o) hst hr true
  case refine_7 =>
    intro s op o hready hw hfn hback hhas
    refine ⟨_, congrArg Host.Outcome.next (State.mgmtPF_ready hready hw hfn _), ?_⟩
    obtain ⟨hend, hfr⟩ := hready.finish_spec stOK 0 0
    obtain ⟨-, rfl, -⟩ := hready
    beta_reduce
    rw [State.ddrExtentReq_backed (s := s.setOp o.started) (o := o.started) hback hhas]
    exact ⟨hend, hfr.within (ps := [.hif]) (by decide +kernel)⟩
  case refine_8 =>
    intro s op o hready hw hfn hback hnone hrich
    refine ⟨_, congrArg Host.Outcome.next (State.mgmtPF_ready hready hw hfn _), ?_⟩
    obtain ⟨hend, hfr⟩ := hready.finish_spec stBAD_FIELD 0 0
    obtain ⟨-, rfl, -⟩ := hready
    beta_reduce
    rw [State.ddrExtentReq_back (s := s.setOp o.started) (o := o.started) hback hnone, show (s.setOp o.started).richest = [] from hrich]
    exact ⟨hend, hfr.within (ps := [.hif]) (by decide +kernel)⟩

end Sys2Proof.Machine


/-!
PROOFS. Translation: invalidations, hold times and page requests (R131 to R143).
-/

namespace Sys2Proof.Machine

/-! ### Entries that wait -/

theorem AMap.mem_of_mem_put {κ α : Type} [DecidableEq κ] {m : AMap κ α} {k : κ} {v : α} {p : κ × α} (h : p ∈ AMap.put m k v) :
    p = (k, v) ∨ p ∈ m := by
  induction m with
  | nil => exact .inl (List.mem_singleton.1 h)
  | cons x m ih =>
    unfold AMap.put at h
    split at h
    · rcases List.mem_cons.1 h with h | h
      · exact .inl h
      · exact .inr (List.mem_cons_of_mem _ h)
    · rcases List.mem_cons.1 h with h | h
      · exact .inr (h ▸ List.mem_cons_self)
      · exact (ih h).imp_right (List.mem_cons_of_mem _)

theorem AMap.mem_of_find {κ α : Type} [DecidableEq κ] {m : AMap κ α} {k : κ} {v : α} (h : AMap.find m k = some v) : (k, v) ∈ m := by
  induction m with
  | nil => simp [AMap.find] at h
  | cons x m ih =>
    unfold AMap.find at h
    split at h
    · next hk =>
      cases h
      rw [← hk]
      exact List.mem_cons_self
    · exact List.mem_cons_of_mem _ (ih h)

/-- A change of an entry outside what is looked for, before and after. -/
theorem AMap.find?_put_of_not {κ α : Type} [DecidableEq κ] {m : AMap κ α} {k : κ} {v w : α} {P : κ × α → Bool} (hm : AMap.find m k = some w)
    (hw : P (k, w) = false) (hv : P (k, v) = false) : (AMap.put m k v).find? P = m.find? P := by
  induction m with
  | nil => simp [AMap.find] at hm
  | cons x m ih =>
    unfold AMap.put
    unfold AMap.find at hm
    split at hm
    · next hk =>
      cases hm
      rw [if_pos hk]
      have hx : x = (k, x.2) := by rw [← hk]
      rw [List.find?_cons, hv, List.find?_cons, hx, hw]
    · next hk =>
      rw [if_neg hk, List.find?_cons, List.find?_cons, ih hm]

/-- An entry that leaves what is counted. -/
theorem AMap.length_filter_put {κ α : Type} [DecidableEq κ] {m : AMap κ α} {k : κ} {v w : α} {P : κ × α → Bool} (hm : AMap.find m k = some w)
    (hw : P (k, w) = true) (hv : P (k, v) = false) : ((AMap.put m k v).filter P).length + 1 = (m.filter P).length := by
  induction m with
  | nil => simp [AMap.find] at hm
  | cons x m ih =>
    unfold AMap.put
    unfold AMap.find at hm
    split at hm
    · next hk =>
      cases hm
      have hx : x = (k, x.2) := by rw [← hk]
      rw [if_pos hk, List.filter_cons_of_neg (by simp [hv]), hx, List.filter_cons_of_pos hw, List.length_cons]
    · next hk =>
      rw [if_neg hk]
      have := ih hm
      by_cases hx : P x = true
      · rw [List.filter_cons_of_pos hx, List.filter_cons_of_pos hx, List.length_cons, List.length_cons]
        omega
      · rw [List.filter_cons_of_neg hx, List.filter_cons_of_neg hx]
        omega

/-! ### A held operation ends or goes on -/

theorem State.setHold_of_op {s : State} {k : OpKey} {o : Op} (h : s.op? k = some o) (x : Hold) : s.setHold k x = s.setOp { o with hold := x } := by
  unfold State.setHold
  rw [h]

/-- What a held segment waits in once its page is there. -/
def Op.resumed (o : Op) : Op := { o with hold := if dOp o.desc = 2 ∨ dOp o.desc = 3 then Hold.other else Hold.none }

theorem State.resumeOp_eq {s : State} {o : Op} (h : s.op? o.key = some o) : s.resumeOp o = s.setOp o.resumed := by
  unfold State.resumeOp
  rw [State.setHold_of_op h]
  rfl

theorem Op.resumed_hold (o : Op) : o.resumed.hold.asks = false ∧ o.resumed.hold.waitsToAsk = false := by
  unfold Op.resumed
  dsimp only
  split <;> exact ⟨rfl, rfl⟩

/-- An operation that has ended in its place, beside what blocks, keys and line groups let go. -/
theorem State.endOp_kept {s : State} {k : OpKey} {o : Op} (hop : s.op? k = some o) (hlost : o.lost = false) (hslot : k.slot ∈ (s.ring k.ring).taken)
    (c : Completion) : s.endOp k c = s.setOp { o with phase := .done { c with tag := dTag o.desc }, hold := .none } := by
  unfold State.endOp
  rw [hop]
  exact if_pos ⟨hslot, hlost⟩

theorem State.endedWith_setOp (s : State) {o : Op} {c : Completion} (h : o.phase = .done c) : (s.setOp o).endedWith o.key c.status = true := by
  rw [State.endedWith, State.op?_setOp_self]
  dsimp only
  rw [h]
  exact beq_self_eq_true _

theorem State.hif_setOp_congr {s t : State} (h : t.hif = s.hif) (o : Op) : (t.setOp o).hif = (s.setOp o).hif := by
  unfold State.setOp
  dsimp only
  rw [h]

/-- Between two states the operation at a key has ended, and nothing else of the host interface has changed. -/
def State.EndsHeld (s t : State) (k : OpKey) (status : Nat) : Prop :=
  t.endedWith k status = true ∧ ∃ o : Op, o.key = k ∧ o.hold = .none ∧ t.hif = (s.setOp o).hif

theorem State.endsHeld_of {s t : State} {o : Op} {c : Completion} (hp : o.phase = .done c) (hh : o.hold = .none) (ht : t.hif = (s.setOp o).hif) :
    s.EndsHeld t o.key c.status :=
  ⟨(State.endedWith_congr ht _ _).trans (s.endedWith_setOp hp), o, rfl, hh, ht⟩

/-- A held operation that is told to stop ends at once. -/
theorem State.stopXfer_held {s : State} {o : Op} (hop : s.op? o.key = some o) (hlost : o.lost = false) (hrun : o.phase = .running)
    (hslot : o.key.slot ∈ (s.ring o.key.ring).taken) (hhold : o.hold ≠ .none) (status : Nat) : s.EndsHeld (s.stopXfer o status) o.key status := by
  have hend (t : State) (ht : t.hif = s.hif) (c : Completion) : s.EndsHeld (t.endOp o.key c) o.key c.status := by
    rw [State.endOp_kept ((State.op?_congr ht _).trans hop) hlost (by rwa [State.ring_congr ht])]
    exact State.endsHeld_of (o := { o with phase := .done { c with tag := dTag o.desc }, hold := .none }) (c := { c with tag := dTag o.desc }) rfl rfl
      (State.hif_setOp_congr ht _)
  unfold State.stopXfer
  rw [hrun]
  dsimp only
  by_cases hd : dOp o.desc = 2 ∨ dOp o.desc = 3
  · rw [if_pos hd]
    have hfin (t : State) (ht : t.hif = s.hif) : s.EndsHeld (t.finish o.key status) o.key status := by
      unfold State.finish
      rw [(State.op?_congr ht _).trans hop]
      exact hend t ht { status := status, seg := o.seg }
    generalize hy : s.setLgrp _ _ = y
    exact hfin y (by rw [← hy]; exact (State.setLgrp_fr (Fr.refl _ s) (Sub.refl _)).hif_eq rfl)
  · rw [if_neg hd, if_neg hhold]
    unfold State.xferEnd
    dsimp only
    have hfr : Fr 0x40000000000 s (s.blocksDrop (.xfer o.key)) := State.blocksDrop_fr (Fr.refl _ s) (Sub.refl _)
    have hb : ((s.blocksDrop (.xfer o.key)).onKmc fun k => { k with chain := k.chain.del o.key }).hif = s.hif :=
      (State.onKmc_hif _ _).trans (hfr.hif_eq rfl)
    generalize ((s.blocksDrop (.xfer o.key)).onKmc fun k => { k with chain := k.chain.del o.key }) = t at hb
    generalize xferWritten _ _ _ = v
    exact hend t hb { status := status, seg := o.seg, value := v }

/-! ### Page requests -/

/-- Nothing waits to ask for its page. -/
theorem State.nextPageRequest_of_none {s : State} (ho : ∀ p ∈ s.hif.ops, p.2.hold.waitsToAsk = false)
    (hc : ∀ p ∈ s.tfb.ctxs, p.2.hold.waitsToAsk = false) : s.nextPageRequest = s := by
  unfold State.nextPageRequest
  have h1 : s.hif.ops.find? (fun p => p.2.hold.waitsToAsk) = none := List.find?_eq_none.2 fun p hp => by simp [ho p hp]
  have h2 : s.tfb.ctxs.find? (fun p => p.2.hold.waitsToAsk) = none := List.find?_eq_none.2 fun p hp => by simp [hc p hp]
  rw [h1, h2]
  exact ite_self _

/-- After the operation at a key has ended or goes on, nothing waits where nothing waited. -/
theorem State.waits_setOp {s t : State} {o : Op} (ht : t.hif = (s.setOp o).hif) (hh : o.hold.waitsToAsk = false)
    (hs : ∀ p ∈ s.hif.ops, p.2.hold.waitsToAsk = false) : ∀ p ∈ t.hif.ops, p.2.hold.waitsToAsk = false := by
  intro p hp
  rw [ht] at hp
  rcases AMap.mem_of_mem_put (show p ∈ AMap.put s.hif.ops o.key o from hp) with rfl | hp
  · exact hh
  · exact hs p hp

/-- A page request that ends without its page. -/
theorem State.priEnd_fails {s : State} {k : OpKey} {o : Op} {a : Nat} {w : Bool} (hop : s.op? k = some o) (hkey : o.key = k)
    (hlost : o.lost = false) (hrun : o.phase = .running) (hslot : k.slot ∈ (s.ring k.ring).taken) (hhold : o.hold = Hold.pri a w)
    (hs : ∀ p ∈ s.hif.ops, p.2.hold.waitsToAsk = false) (hc : ∀ p ∈ s.tfb.ctxs, p.2.hold.waitsToAsk = false) :
    (s.priEnd (.op k) false).endedWith k stTRANSLATION_FAULT = true := by
  subst hkey
  obtain ⟨hend, o', -, hh, hhif⟩ := State.stopXfer_held hop hlost hrun hslot (by rw [hhold]; exact fun e => nomatch e) stTRANSLATION_FAULT
  have htfb : (s.stopXfer o stTRANSLATION_FAULT).tfb = s.tfb := (State.stopXfer_fr (Fr.refl _ s) (Sub.refl _)).tfb_eq rfl
  have heq : s.priEnd (.op o.key) false = (s.stopXfer o stTRANSLATION_FAULT).nextPageRequest := by
    unfold State.priEnd
    dsimp only
    rw [hop]
    dsimp only
    rw [hhold]
    rfl
  rw [heq, State.nextPageRequest_of_none (State.waits_setOp hhif (by rw [hh]; rfl) hs) (by rw [htfb]; exact hc)]
  exact hend

/-- A page request whose page is there. -/
theorem State.priEnd_succeeds {s : State} {k : OpKey} {o : Op} {a : Nat} {w : Bool} (hop : s.op? k = some o) (hkey : o.key = k)
    (hhold : o.hold = Hold.pri a w) : s.priEnd (.op k) true = (s.setOp o.resumed).nextPageRequest := by
  subst hkey
  unfold State.priEnd
  dsimp only
  rw [hop]
  dsimp only
  rw [hhold]
  exact congrArg State.nextPageRequest (State.resumeOp_eq hop)

/-- The next operation that waits asks for its page. -/
theorem State.nextPageRequest_of_op {s : State} {k : OpKey} {o : Op} {a : Nat} {w : Bool} (hn : s.priCount < 512)
    (hf : s.hif.ops.find? (fun p => p.2.hold.waitsToAsk) = some (k, o)) (hop : s.op? k = some o) (hhold : o.hold = Hold.priWait a w) :
    s.nextPageRequest = (s.setOp { o with hold := .pri a w }).emit (.pageRequest o.fn a w) := by
  unfold State.nextPageRequest
  rw [if_neg (by omega), hf]
  dsimp only
  rw [hhold]
  dsimp only
  rw [State.setHold_of_op hop]

/-! ### Invalidations -/

theorem State.restartXfers_keeps (s : State) (uses : Op → Bool) (first len : Nat) : Fr 0x40000000000 s (s.restartXfers uses first len) :=
  Fr.foldl (Fr.refl _ s) fun _ _ ht => State.blocksDrop_fr ht (Sub.refl _)

theorem State.restartRuns_keeps (s : State) (dom first len : Nat) : Fr 0x40000000000 s (s.restartRuns dom first len) :=
  Fr.foldl (Fr.refl _ s) fun _ _ ht => State.blocksDrop_fr ht (Sub.refl _)

theorem State.retryDomain_of_none {s : State} (dom : Nat) (ho : ∀ p ∈ s.hif.ops, p.2.hold = Hold.none) (ht : s.tfb.ctxs = []) (hc : s.col.ops = []) :
    s.retryDomain dom = s := by
  have hnone (P : Op → Bool) (hP : ∀ o : Op, o.hold = Hold.none → P o = false) : (s.hif.ops.map (·.2)).filter P = [] := by
    refine List.filter_eq_nil_iff.2 fun o hmem => ?_
    obtain ⟨p, hp, rfl⟩ := List.mem_map.1 hmem
    simp [hP p.2 (ho p hp)]
  unfold State.retryDomain
  dsimp only
  rw [hnone _ fun o h => by simp [h], List.foldl_nil, ht, List.filter_nil, List.foldl_nil, hc]
  rfl

/-- What an invalidation leaves of requests, contexts and collectives. -/
theorem State.mmuInvalidate_of_none {s : State} {o : Op} {d : Nat} (hd : s.domainOf o.fn (mParam0 o.desc % 4096) = some d)
    (ho : ∀ p ∈ s.hif.ops, p.2.hold = Hold.none) (ht : s.tfb.ctxs = []) (hc : s.col.ops = []) :
    ∃ u, s.mmuInvalidate o = u.finish o.key stOK ∧ Fr 0x40000000000 (s.dropTlb d (mAddr o.desc) (mParams o.desc 0 8)) u := by
  obtain ⟨uses, huses⟩ : ∃ uses : Op → Bool, uses = fun x => xSrcSpace x.desc == 1 && s.domainOf x.fn (dDomain x.desc) == some d := ⟨_, rfl⟩
  have hfr : Fr 0x40000000000 (s.dropTlb d (mAddr o.desc) (mParams o.desc 0 8))
      (((s.dropTlb d (mAddr o.desc) (mParams o.desc 0 8)).restartXfers uses (mAddr o.desc) (mParams o.desc 0 8)).restartRuns d
        (mAddr o.desc) (mParams o.desc 0 8)) :=
    (State.restartXfers_keeps _ _ _ _).trans (State.restartRuns_keeps _ _ _ _)
  refine ⟨_, ?_, hfr⟩
  unfold State.mmuInvalidate
  rw [hd]
  dsimp only
  rw [← huses, State.retryDomain_of_none]
  · rw [hfr.hif_eq rfl]
    exact ho
  · rw [hfr.tfb_eq rfl]
    exact ht
  · rw [hfr.col_eq rfl]
    exact hc

/-! ### The rows -/

/-- Settles O26: a held segment goes on or ends in place, the next one that waits asks for its page, and invalidations touch cached
translations and the blocks read through them. -/
theorem translationRows : Obligations.TranslationRows := by
  refine ⟨?_, ?_, ?_, ?_, ?_, ?_, ?_, ?_, ?_, ?_, ?_⟩
  case refine_1 =>
    intro s op o hready hw hd
    refine ⟨_, rfl, ?_⟩
    obtain ⟨hend, hfr⟩ := hready.finish_spec stDOMAIN_DENIED 0 0
    have hexec : (s.start op (isMgmt 0x000A) fun o s => s.mmuInvalidate o) = (s.setOp o.started).finish op stDOMAIN_DENIED := by
      rw [State.start_ready hready hw]
      obtain ⟨-, rfl, -⟩ := hready
      have hd' : (s.setOp o.started).domainOf o.started.fn (mParam0 o.started.desc % 4096) = none := hd
      unfold State.mmuInvalidate
      rw [hd']
      rfl
    beta_reduce
    rw [State.pooled_of_setts (by rw [hexec]; exact hfr.sett_eq rfl), hexec]
    exact ⟨hend, hfr.within (ps := [.hif]) (by decide +kernel)⟩
  case refine_2 =>
    intro s op o d hready hw hd htc hcol hops
    refine ⟨_, rfl, ?_⟩
    have hkept := hready.kept
    have hwaits : ∀ p ∈ (s.setOp o.started).hif.ops, p.2.hold = Hold.none := by
      intro p hp
      rcases AMap.mem_of_mem_put (show p ∈ AMap.put s.hif.ops o.started.key o.started from hp) with rfl | hp
      · exact hops (op, o) (AMap.mem_of_find hready.1)
      · exact hops p hp
    obtain ⟨u, hu, hfr⟩ := State.mmuInvalidate_of_none (s := s.setOp o.started) (o := o.started) hd hwaits htc hcol
    have hexec : (s.start op (isMgmt 0x000A) fun o s => s.mmuInvalidate o) = u.finish op stOK := by
      rw [State.start_ready hready hw, hu]
      obtain ⟨-, rfl, -⟩ := hready
      rfl
    have hsu : Fr 0x40140000000 s u := by
      refine Fr.trans (State.dropTlb_fr ((s.setOp_keeps o.started).weaken rfl) rfl) (hfr.weaken rfl)
    have hall : Fr 0x40140000000 s (u.finish op stOK) := State.finish_fr hsu rfl
    beta_reduce
    rw [State.pooled_of_setts (by rw [hexec]; exact hall.sett_eq rfl), hexec]
    refine ⟨State.endedWith_finish ((hkept.congr rfl).congr (hfr.hif_eq rfl)) _ _ _, ?_, hall.within (ps := [.hif, .mem, .ash]) (by decide +kernel)⟩
    rw [(u.finish_keeps op stOK 0 0).mem_eq rfl, hfr.mem_eq rfl]
    rfl
  case refine_3 =>
    intro s k o d a wr hco hop hkey hlost hrun hslot hhold
    refine ⟨_, rfl, ?_⟩
    subst hkey
    have heq : s.devTimeout (.op o.key) = s.stopXfer o stTRANSLATION_FAULT := by
      unfold State.devTimeout
      dsimp only
      rw [hop]
      dsimp only
      rw [hhold]
      rfl
    beta_reduce
    rw [State.inPool_of_setts hco (by rw [heq]; exact (State.stopXfer_fr (Fr.refl _ s) (Sub.refl _)).sett_eq rfl), heq]
    exact (State.stopXfer_held hop hlost hrun hslot (by rw [hhold]; exact fun e => nomatch e) _).1
  case refine_4 =>
    intro s k hnone
    refine ⟨_, rfl, State.inPool_of_same ?_⟩
    unfold State.devTimeout
    dsimp only
    cases hop : s.op? k with
    | none => rfl
    | some o =>
      have hhold : o.hold = Hold.none := by simpa [hop] using hnone
      dsimp only
      rw [hhold]
  case refine_5 =>
    intro s k o a w hco hop hkey hlost hrun hslot hhold hs hc
    refine ⟨_, rfl, ?_⟩
    beta_reduce
    rw [State.inCore_on hco, State.priEnd_succeeds hop hkey hhold,
      State.nextPageRequest_of_none (State.waits_setOp rfl o.resumed_hold.2 hs) hc]
    subst hkey
    exact ⟨State.op?_setOp_self s o.resumed, (s.setOp_keeps o.resumed).within (ps := [.hif]) (by decide +kernel)⟩
  case refine_6 =>
    intro s k k2 o o2 a a2 w w2 hco hop hkey hlost hrun hslot hhold hne hkey2 hop2 hhold2 hfind hcount
    refine ⟨_, rfl, ?_⟩
    subst hkey
    have hopk : AMap.find s.hif.ops o.resumed.key = some o := hop
    have hasks : o.hold.asks = true := by rw [hhold]; rfl
    have hwaits : o.hold.waitsToAsk = false := by rw [hhold]; rfl
    have hfind' : (s.setOp o.resumed).hif.ops.find? (fun p => p.2.hold.waitsToAsk) = some (k2, o2) :=
      (AMap.find?_put_of_not (P := fun p : OpKey × Op => p.2.hold.waitsToAsk) hopk hwaits o.resumed_hold.2).trans hfind
    have hfew : (s.setOp o.resumed).priCount < 512 := by
      have hlen := AMap.length_filter_put (v := o.resumed) (P := fun p : OpKey × Op => p.2.hold.asks) hopk hasks o.resumed_hold.1
      unfold State.priCount at hcount ⊢
      have hdef : (s.setOp o.resumed).hif.ops = AMap.put s.hif.ops o.resumed.key o.resumed := rfl
      have htfb : (s.setOp o.resumed).tfb = s.tfb := rfl
      rw [hdef, htfb]
      omega
    have hop2' : (s.setOp o.resumed).op? k2 = some o2 := (s.op?_setOp_ne o.resumed k2 hne).trans hop2
    beta_reduce
    rw [State.inCore_on hco, State.priEnd_succeeds hop rfl hhold, State.nextPageRequest_of_op hfew hfind' hop2' hhold2]
    generalize hx : ({ o2 with hold := Hold.pri a2 w2 } : Op) = x
    have hxk : x.key = k2 := by rw [← hx]; exact hkey2
    have hemit (t : State) (e : Out) (q : OpKey) : (t.emit e).op? q = t.op? q := rfl
    have hfr : Fr 0x8000040000000 s (((s.setOp o.resumed).setOp x).emit (.pageRequest o2.fn a2 w2)) :=
      State.emit_fr (State.setOp_fr ((s.setOp_keeps o.resumed).weaken rfl) rfl) rfl
    refine ⟨?_, ?_, rfl, hfr.within (ps := [.hif, .out]) (by decide +kernel)⟩
    · rw [hemit, State.op?_setOp_ne _ _ _ (by rw [hxk]; exact hne.symm)]
      exact State.op?_setOp_self s o.resumed
    · rw [hemit, State.op?_setOp, if_pos hxk.symm]
  case refine_7 =>
    intro s k o a w hco hop hkey hlost hrun hslot hhold hs hc
    refine ⟨_, rfl, ?_⟩
    beta_reduce
    rw [State.inCore_on hco]
    exact State.priEnd_fails hop hkey hlost hrun hslot hhold hs hc
  case refine_8 =>
    intro s k o a w hco hop hkey hlost hrun hslot hhold hs hc
    refine ⟨_, rfl, ?_⟩
    beta_reduce
    rw [State.inCore_on hco]
    exact State.priEnd_fails hop hkey hlost hrun hslot hhold hs hc
  case refine_9 =>
    intro s g q b
    exact ⟨_, rfl, ite_self _⟩
  case refine_10 =>
    intro s n h
    refine ⟨_, rfl, ?_⟩
    have hsame : s.priEnd (.run n) false = s := if_pos h
    unfold State.inCore
    beta_reduce
    rw [hsame, ite_self]
  case refine_11 =>
    intro s fn addr len hco
    refine ⟨_, rfl, ?_⟩
    beta_reduce
    rw [State.inCore_on hco]
    generalize hu : (s.onMem fun m => { m with
      ats := m.ats.filter fun p => !(p.1 == fn && decide (p.2 * 4096 < addr + len) && decide (addr < p.2 * 4096 + 4096)) }) = u
    have hats : u.mem.ats = s.mem.ats.filter fun p =>
        !(p.1 == fn && decide (p.2 * 4096 < addr + len) && decide (addr < p.2 * 4096 + 4096)) := by rw [← hu]; rfl
    have hsu : Fr 0x100000000 s u := by
      rw [← hu]
      exact State.onMem_fr (Fr.refl _ s) rfl fun _ => ⟨rfl, rfl, rfl, rfl⟩
    obtain ⟨uses, huses⟩ : ∃ uses : Op → Bool, uses = fun x => xSrcSpace x.desc == 0 && x.fn == fn := ⟨_, rfl⟩
    have heq : s.atsInvalidate fn addr len = (u.restartXfers uses addr len).emit (.atsDone fn addr len) := by rw [← hu, huses]; rfl
    have hre := u.restartXfers_keeps uses addr len
    have hsv : Fr 0x8040100000000 s ((u.restartXfers uses addr len).emit (.atsDone fn addr len)) := by
      have h1 : Fr 0x8040100000000 s u := hsu.weaken rfl
      exact State.emit_fr (h1.trans (hre.weaken rfl)) rfl
    rw [heq]
    refine ⟨fun f p => ?_, ?_, hsv.within (ps := [.mem, .ash, .out]) (by decide +kernel)⟩
    · have hmem : ((u.restartXfers uses addr len).emit (.atsDone fn addr len)).mem = u.mem := hre.mem_eq rfl
      rw [hmem, hats, List.mem_filter]
      simp only [Bool.not_eq_true', Bool.and_eq_false_iff, beq_eq_false_iff_ne, decide_eq_false_iff_not]
      tauto
    · have hout : (u.restartXfers uses addr len).out = s.out := (hre.out_eq rfl).trans (hsu.out_eq rfl)
      exact congrArg (· ++ [Out.atsDone fn addr len]) hout

end Sys2Proof.Machine


/-!
PROOFS. Upkeep of the event record, signed tokens, test access and the console (R508, R512 to R516).
-/

namespace Sys2Proof.Machine

/-! ### A record that is appended -/

theorem State.persist_spec (s : State) (r : EvRecord) : (s.persist r).2.evr.buckets = s.evr.buckets ∧
    (s.persist r).2.evr.flashRecs = s.evr.flashRecs ∧ (s.persist r).1.seq = r.seq := by
  unfold State.persist
  split
  · split <;> exact ⟨rfl, rfl, rfl⟩
  · exact ⟨rfl, rfl, rfl⟩

/-- A record takes the next number, and leaves the buckets and what stands in flash. -/
theorem State.appendRecord_spec (s : State) (r : EvRecord) : (s.appendRecord r).evr.nextSeq = s.evr.nextSeq + 1 ∧
    (s.appendRecord r).evr.buckets = s.evr.buckets ∧ (s.appendRecord r).evr.flashRecs = s.evr.flashRecs := by
  have hshow (t : State) (x : EvRecord) : ((t.alertJoin x).consoleLine x).evr = t.evr :=
    ((State.consoleLine_fr (Fr.refl _ _) (Sub.refl _)).evr_eq rfl).trans ((State.alertJoin_fr (Fr.refl _ t) (Sub.refl _)).evr_eq rfl)
  have hbump (t : State) (n : Nat) : (t.bump Reg.EVR_STATUS_LOST_UNMIRRORED 0 n).evr = t.evr := rfl
  obtain ⟨hb, hf, hq⟩ := s.persist_spec { r with seq := s.evr.nextSeq, lateDetail := s.mgmt.down }
  unfold State.appendRecord
  dsimp only
  rw [hshow]
  split
  · exact ⟨congrArg (· + 1) hq, hb, hf⟩
  · rw [hbump]
    exact ⟨congrArg (· + 1) hq, hb, hf⟩

theorem State.flashRecs_raise (s : State) (c i d : Nat) (fn : Nat := 0) (m : Bytes := []) :
    (s.raise c i d fn m).evr.flashRecs = s.evr.flashRecs := by
  have hrecord : (s.record c i d m).evr.flashRecs = s.evr.flashRecs := by
    unfold State.record State.recordEvent
    dsimp only
    have hbucket (b : EvBucket) (k : Nat) : (s.setBucket k b).evr.flashRecs = s.evr.flashRecs := rfl
    have hbump (t : State) : (t.bump Reg.EVR_STATUS_SUPPRESSED).evr = t.evr := rfl
    split
    · exact (State.appendRecord_spec _ _).2.2
    · split
      · exact (State.appendRecord_spec _ _).2.2.trans (hbucket _ _)
      · rw [hbump, hbucket]
  have hpost (t : State) : (t.post fn c i d).evr = t.evr := (State.post_fr (Fr.refl _ t) (Sub.refl _)).evr_eq rfl
  have hready (t : State) : (t.postReady d).evr = t.evr := (State.postReady_fr (Fr.refl _ t) (Sub.refl _)).evr_eq rfl
  unfold State.raise
  dsimp only
  split
  · rw [hready, hrecord]
  · split
    · rw [hpost, hrecord]
    · exact hrecord

/-! ### What the always-on domain does -/

theorem State.inAon_on {s : State} (h : s.boot.porst = false) (f : State → State) : s.inAon f = f s := by
  unfold State.inAon
  rw [h]
  rfl

theorem State.inAon_of_same {s : State} {f : State → State} (h : f s = s) : s.inAon f = s := by
  unfold State.inAon
  rw [h, ite_self]

/-! ### Tokens -/

/-- A request that is ready finds the core on. -/
theorem State.Ready.coreOff {s : State} {k : OpKey} {o : Op} (h : s.Ready k o) : s.coreOff = false := by
  obtain ⟨-, -, -, -, hcox, -⟩ := h
  unfold State.servingCox at hcox
  by_cases hc : s.coreOff = true
  · rw [if_pos hc] at hcox
    exact absurd hcox (by decide)
  · exact Bool.eq_false_iff.2 hc

theorem State.pinsScanned_of_coreOff {s : State} (h : s.coreOff = false) : s.pinsScanned = false := by
  unfold State.coreOff at h
  simp only [Bool.or_eq_false_iff] at h
  exact h.2

/-- A token that is accepted for test access names a scope. -/
theorem State.tokenRefusal_scope {s : State} {b : Bytes} (h : s.tokenRefusal 2 b = none) : getLE b 7 1 ≤ 2 := by
  unfold State.tokenRefusal at h
  by_contra hgt
  have hbad : getLE b 0 4 ≠ 0x4B4F5454 ∨ getLE b 4 2 ≠ 1 ∨ getLE b 6 1 ≠ 2 ∨
      (if 2 = 1 then 0 < getLE b 7 1 else 2 < getLE b 7 1) ∨ (!allZero (sliceB b 0x40 64)) = true :=
    .inr (.inr (.inr (.inl ((if_neg (show ¬(2 = 1) by decide)).symm ▸ Nat.lt_of_not_le hgt))))
  rw [if_pos hbad] at h
  split at h
  · exact nomatch h
  · split at h
    · exact nomatch h
    · split at h
      · exact nomatch h
      · split at h <;> exact nomatch h

/-- Without pins driven an instruction that is unloaded changes nothing else. -/
theorem State.jtagSet_quiet {s : State} {i : Option JtagInstr} (h : s.pinsScanned = false)
    (hi : ({ s with mgmt := { s.mgmt with jtag := i } } : State).pinsScanned = false) :
    s.jtagSet i = { s with mgmt := { s.mgmt with jtag := i } } := by
  unfold State.jtagSet
  dsimp only
  rw [hi, h]
  rfl

/-- The state as test access is granted. -/
def State.testGranted (s : State) (scope : Nat) (j : Option JtagInstr) : State :=
  if scope = 0 then ({ s with mgmt := { s.mgmt with testBit := true, jtag := j } }).setFld Reg.MGT_TEST_STATUS_SCOPE 0 scope
  else (({ s with mgmt := { s.mgmt with testBit := true, jtag := j } }).setFld Reg.MGT_TEST_STATUS_SCOPE 0 scope).setFlag Reg.MGT_TEST_STATUS_EVER 0 true

theorem State.testGranted_spec (s : State) {scope : Nat} (h : scope ≤ 2) (j : Option JtagInstr) :
    (s.testGranted scope j).mgmt.testBit = true ∧ (s.testGranted scope j).fld Reg.MGT_TEST_STATUS_SCOPE = scope ∧
    (scope ≠ 0 → (s.testGranted scope j).flag Reg.MGT_TEST_STATUS_EVER = true) ∧ (s.testGranted scope j).hif = s.hif := by
  have hval (t : State) : (t.setFld Reg.MGT_TEST_STATUS_SCOPE 0 scope).fld Reg.MGT_TEST_STATUS_SCOPE = scope :=
    State.fld_setFld_val _ _ _ _ (by decide) (show scope < 2 ^ 2 by omega)
  unfold State.testGranted
  split
  · next h0 => exact ⟨rfl, hval _, fun hne => absurd h0 hne, rfl⟩
  · refine ⟨rfl, (State.fld_setFlag_clear _ _ _ _ _ _ (by decide)).trans (hval _), fun _ => ?_, rfl⟩
    exact State.flag_setFlag_self _ Reg.MGT_TEST_STATUS_EVER _ _ (by decide) rfl

/-- Test access with an accepted token, while no pins are driven. -/
theorem State.testAccess_accepted {s : State} {o : Op} {b : Bytes} (hpins : s.pinsScanned = false)
    (h : (if mLen o.desc = 4755 then s.tokenRefusal 2 b else some 5) = none) :
    ∃ j, s.testAccess o (some b) = ((s.testGranted (getLE b 7 1) j).drawNonce.raise Ev.TEST_ACCESS 0 (getLE b 7 1)).finish o.key stOK := by
  have hstep (j : Option JtagInstr) (u : State) (hu : u = { s with mgmt := { s.mgmt with testBit := true, jtag := j } }) :
      ((if getLE b 7 1 = 0 then u.setFld Reg.MGT_TEST_STATUS_SCOPE 0 (getLE b 7 1)
        else (u.setFld Reg.MGT_TEST_STATUS_SCOPE 0 (getLE b 7 1)).setFlag Reg.MGT_TEST_STATUS_EVER 0 true)) = s.testGranted (getLE b 7 1) j := by
    rw [hu]
    rfl
  unfold State.testAccess
  dsimp only
  rw [h]
  dsimp only
  have hend {u v : State} (huv : u = v) : (u.drawNonce.raise Ev.TEST_ACCESS 0 (getLE b 7 1)).finish o.key stOK =
      (v.drawNonce.raise Ev.TEST_ACCESS 0 (getLE b 7 1)).finish o.key stOK := by rw [huv]
  have hsame {j : Option JtagInstr} (hj : s.mgmt.jtag = j) :
      ({ s with mgmt := { s.mgmt with testBit := true } } : State) = { s with mgmt := { s.mgmt with testBit := true, jtag := j } } := by
    rw [← hj]
  have hquiet := State.jtagSet_quiet (s := { s with mgmt := { s.mgmt with testBit := true } }) (i := none) hpins rfl
  dsimp only at hquiet
  generalize hu : ({ s with mgmt := { s.mgmt with testBit := true } } : State) = u at hsame hquiet ⊢
  cases hj : s.mgmt.jtag with
  | none => exact ⟨none, hend (hstep none _ (hsame hj))⟩
  | some i =>
    dsimp only
    by_cases hok : jtagAllowed (getLE b 7 1) i = true
    · rw [if_pos hok]
      exact ⟨some i, hend (hstep (some i) _ (hsame hj))⟩
    · rw [if_neg hok]
      exact ⟨none, hend (hstep none _ hquiet)⟩

/-- The state as the records up to a number are gone. -/
def State.evrCleared (s : State) (upto : Nat) : State :=
  { s with evr := { s.evr with
    ring := s.evr.ring.filter fun r => decide (upto < r.seq)
    persistQ := s.evr.persistQ.filter fun r => decide (upto < r.seq)
    flashRecs := s.evr.flashRecs.filter fun r => decide (upto < r.seq) } }

theorem State.evrClear_accepted {s : State} {o : Op} {b : Bytes} (h : (if mLen o.desc = 4755 then s.tokenRefusal 1 b else some 5) = none) :
    ∃ n, s.evrClear o (some b) = (((s.evrCleared (getLE b 0x30 8)).drawNonce.raise Ev.EVR_CLEARED 0 (getLE b 0x30 8) 0 (Config.sha3 b)).finish
      o.key stOK 0 n) := by
  unfold State.evrClear
  dsimp only
  rw [h]
  exact ⟨_, rfl⟩

theorem State.posts_drawNonce (s : State) : s.Posts s.drawNonce := .of_eq rfl rfl

/-! ### The rows -/

/-- The JTAG port loads an instruction that drives no pins. -/
theorem State.jtagLoad_quiet {s : State} {i : JtagInstr} (h : jtagAllowed (s.fld Reg.MGT_TEST_STATUS_SCOPE) i = true) (hpins : s.pinsScanned = false)
    (hi : ({ s with mgmt := { s.mgmt with jtag := some i } } : State).pinsScanned = false) :
    s.jtagLoad i = if i = .idcode then ({ s with mgmt := { s.mgmt with jtag := some i } } : State).emit (.jtagOut 0xA512014F)
      else { s with mgmt := { s.mgmt with jtag := some i } } := by
  unfold State.jtagLoad
  rw [if_pos h, State.jtagSet_quiet hpins hi]

theorem State.jtagLoad_refused {s : State} {i : JtagInstr} (h : jtagAllowed (s.fld Reg.MGT_TEST_STATUS_SCOPE) i = false) : s.jtagLoad i = s := by
  unfold State.jtagLoad
  rw [h]
  rfl

theorem State.causes_lineSelect (s : State) (g : Nat) : (s.lineSelect g).causes = s.causes := by
  unfold State.lineSelect
  dsimp only
  split
  · rfl
  · have hlegs (want : List Nat) : ((s.legsOf g).foldl (fun s i => s.onLeg g i fun l => { l with selected := want.contains i }) s).causes = s.causes := by
      refine foldl_keeps (fun t i _ => ?_) s
      rfl
    split
    · exact (State.causes_raise _ _ _ _).trans (((State.lineCount_fr (Fr.refl _ _) (Sub.refl _)).causes_eq ⟨rfl, rfl, rfl, rfl⟩).trans (hlegs _))
    · exact hlegs _

theorem State.causes_kexNext (s : State) (l : Nat) : (s.kexNext l).causes = s.causes :=
  (State.kexNext_fr (Fr.refl _ s) (Sub.refl _)).causes_eq ⟨rfl, rfl, rfl, rfl⟩

theorem State.causes_lineRefresh (s : State) (g : Nat) : (s.lineRefresh g).causes = s.causes := by
  unfold State.lineRefresh
  extract_lets s0 was cause s1 s2 x sf s3 s4 y s5 s6 l
  have h1 : s1.causes = s.causes := by
    unfold s1
    split
    · exact State.causes_raise _ _ _ _
    · rfl
  have h2 : s2.causes = s.causes := by
    unfold s2
    split
    · exact h1
    · refine (State.causes_lineSelect _ _).trans (Eq.trans (foldl_keeps (fun t i _ => ?_) s1) h1)
      exact (State.legJudge_fr (Fr.refl _ t) (Sub.refl _)).causes_eq ⟨rfl, rfl, rfl, rfl⟩
  have h4 : s4.causes = s.causes := by
    unfold s4
    split
    · exact (State.causes_raise _ _ _ _).trans h2
    · split
      · exact (State.causes_raise _ _ _ _).trans h2
      · exact h2
  have h5 : s5.causes = s.causes := by
    unfold s5
    split
    · exact h4
    · exact h4
    · exact h4
  have h6 : s6.causes = s.causes :=
    ((State.dccHold_fr (State.dccHold_fr (State.showLine_fr (Fr.refl 0x80000040000 s5) rfl) rfl) rfl).causes_eq ⟨rfl, rfl, rfl, rfl⟩).trans h5
  split
  · rfl
  · split
    · exact (State.causes_kexNext _ _).trans h6
    · split
      · exact (State.causes_kexNext _ _).trans h6
      · exact h6

theorem jtag_coreStops (s : State) : s.coreStops.mgmt.jtag = s.mgmt.jtag :=
  State.coreStops_keeps (P := fun t => t.mgmt.jtag) (fun t g => congrArg (·.2.1) (t.causes_groupStop g gsOFF))
    (fun t p => congrArg (·.2.1) (t.causes_linkDown p)) (fun _ _ => rfl)
    (fun t g => congrArg (·.2.1) (t.causes_lineRefresh g)) (fun t => congrArg (·.2.1) t.causes_showTraffic) s

/-- An instruction that drives the pins. -/
theorem State.jtagLoad_drives {s : State} {n : Nat} (h : 1 ≤ s.fld Reg.MGT_TEST_STATUS_SCOPE) :
    (s.jtagLoad (.boundary n true)).mgmt.jtag = some (.boundary n true) := by
  have hset : (s.jtagSet (some (.boundary n true))).mgmt.jtag = some (.boundary n true) := by
    have hdriven : ({ s with mgmt := { s.mgmt with jtag := some (.boundary n true) } } : State).pinsScanned = true := rfl
    unfold State.jtagSet
    dsimp only
    rw [hdriven]
    cases s.pinsScanned with
    | false => exact jtag_coreStops _
    | true => rfl
  unfold State.jtagLoad
  rw [if_pos (show jtagAllowed _ (.boundary n true) = true from decide_eq_true h), if_neg (fun e => nomatch e)]
  exact hset

theorem State.coreOff_of_driven {s : State} {n : Nat} (h : s.mgmt.jtag = some (.boundary n true)) : s.coreOff = true := by
  unfold State.coreOff State.pinsScanned
  rw [h, Bool.or_true]

/-- Settles O28: a token's refusal is the request's end; an accepted one removes records or grants its scope before its record is written. -/
theorem eventRecordRows : Obligations.EventRecordRows := by
  refine ⟨?_, ?_, ?_, ?_, ?_, ?_, ?_, ?_, ?_, ?_, ?_, ?_, ?_, ?_⟩
  case refine_1 =>
    intro s code hp hsup htok hsev
    refine ⟨_, rfl, ?_⟩
    have heq : s.evrSummary code = (s.setBucket code { s.bucket code with tokens := (s.bucket code).tokens - 1000000000, suppressed := 0 }).appendRecord
        { code := code, severity := Ev.severity code, blk := code / 256, instance_ := 0, seq := 0, sec := 0, ns := 0,
          summary := true, suppressed := (s.bucket code).suppressed } := by
      refine if_neg ?_
      rintro (h | h | h)
      · exact hsup h
      · omega
      · omega
    beta_reduce
    rw [State.inAon_on hp, heq]
    obtain ⟨hseq, hb, -⟩ := (s.setBucket code { s.bucket code with tokens := (s.bucket code).tokens - 1000000000, suppressed := 0 }).appendRecord_spec
      { code := code, severity := Ev.severity code, blk := code / 256, instance_ := 0, seq := 0, sec := 0, ns := 0,
        summary := true, suppressed := (s.bucket code).suppressed }
    exact ⟨by rw [hb]; exact AMap.find_put_self _ _ _, hseq⟩
  case refine_2 =>
    intro s code h
    exact ⟨_, rfl, State.inAon_of_same (if_pos (h.imp_right .inl))⟩
  case refine_3 =>
    intro s r rest hp hrail hq hlen
    refine ⟨_, rfl, ?_⟩
    have heq : s.evrPersist = { s with evr := { s.evr with persistQ := rest, flashRecs := s.evr.flashRecs ++ [r] } } := by
      unfold State.evrPersist
      rw [if_pos hrail, hq]
      dsimp only
      rw [if_pos (.inl (by rw [List.length_append, List.length_singleton]; omega))]
    beta_reduce
    rw [State.inAon_on hp, heq]
    exact ⟨rfl, rfl, (Fr.evr_ (Fr.refl (0x20000000) s) rfl).within (ps := [.evr]) (by decide +kernel)⟩
  case refine_4 =>
    intro s h
    refine ⟨_, rfl, State.inAon_of_same ?_⟩
    have hnil : (if s.railOk 1 then s.evr.persistQ else []) = [] := by
      rcases h with h | h <;> simp [h]
    unfold State.evrPersist
    rw [hnil]
  case refine_5 =>
    intro s op o hready hw hfn
    refine ⟨_, congrArg Host.Outcome.next (State.mgmtPF_ready hready hw hfn _), ?_⟩
    obtain ⟨hend, hfr⟩ := hready.finish_spec stHOST_ABORT 0 0
    obtain ⟨-, rfl, -⟩ := hready
    exact ⟨hend, hfr.within (ps := [.hif]) (by decide +kernel)⟩
  case refine_6 =>
    intro s op o b hready hw hfn
    refine ⟨_, congrArg Host.Outcome.next (State.mgmtPF_ready hready hw hfn _), ?_⟩
    have hkept := hready.kept
    have hslot := hready.slot
    have hfin (e : Nat) := (hready.finish_spec stBAD_FIELD e 0).2
    obtain ⟨-, rfl, hlost, -⟩ := hready
    have hsame : (if mLen o.started.desc = 4755 then (s.setOp o.started).tokenRefusal 1 b else some 5) =
        (if mLen o.desc = 4755 then s.tokenRefusal 1 b else some 5) := rfl
    cases hr : (if mLen o.desc = 4755 then s.tokenRefusal 1 b else some 5) with
    | some e =>
      have heq : (s.setOp o.started).evrClear o.started (some b) = (s.setOp o.started).finish o.key stBAD_FIELD e := by
        unfold State.evrClear
        dsimp only
        rw [hsame, hr]
        rfl
      beta_reduce
      rw [heq]
      exact ⟨State.phase_finish (State.op?_setOp_self s o.started) rfl hlost hslot _ _ _, (hfin e).within (ps := [.hif]) (by decide +kernel)⟩
    | none =>
      obtain ⟨n, hn⟩ := State.evrClear_accepted (s := s.setOp o.started) (o := o.started) (hsame.trans hr)
      beta_reduce
      rw [hn]
      have hcl : ((s.setOp o.started).evrCleared (getLE b 0x30 8)).drawNonce.Kept o.key := hkept.congr rfl
      refine ⟨State.endedWith_finish ((State.posts_raise _ _ _ _ _ _).kept hcl) _ _ _, ?_⟩
      rw [(State.finish_keeps _ _ _ _ _).evr_eq rfl]
      exact State.flashRecs_raise _ _ _ _ _ _
  case refine_7 =>
    intro s op o hready hw hfn
    refine ⟨_, congrArg Host.Outcome.next (State.mgmtPF_ready hready hw hfn _), ?_⟩
    obtain ⟨hend, hfr⟩ := hready.finish_spec stHOST_ABORT 0 0
    obtain ⟨-, rfl, -⟩ := hready
    exact ⟨hend, hfr.within (ps := [.hif]) (by decide +kernel)⟩
  case refine_8 =>
    intro s op o b hready hw hfn
    refine ⟨_, congrArg Host.Outcome.next (State.mgmtPF_ready hready hw hfn _), ?_⟩
    have hkept := hready.kept
    have hslot := hready.slot
    have hpins := State.pinsScanned_of_coreOff hready.coreOff
    have hfin (e : Nat) := (hready.finish_spec stBAD_FIELD e 0).2
    obtain ⟨-, rfl, hlost, -⟩ := hready
    have hsame : (if mLen o.started.desc = 4755 then (s.setOp o.started).tokenRefusal 2 b else some 5) =
        (if mLen o.desc = 4755 then s.tokenRefusal 2 b else some 5) := rfl
    cases hr : (if mLen o.desc = 4755 then s.tokenRefusal 2 b else some 5) with
    | some e =>
      have heq : (s.setOp o.started).testAccess o.started (some b) = (s.setOp o.started).finish o.key stBAD_FIELD e := by
        unfold State.testAccess
        dsimp only
        rw [hsame, hr]
        rfl
      beta_reduce
      rw [heq]
      exact ⟨State.phase_finish (State.op?_setOp_self s o.started) rfl hlost hslot _ _ _, (hfin e).within (ps := [.hif]) (by decide +kernel)⟩
    | none =>
      obtain ⟨j, hj⟩ := State.testAccess_accepted (s := s.setOp o.started) (o := o.started) hpins (hsame.trans hr)
      have hscope : getLE b 7 1 ≤ 2 := by
        by_cases hlen : mLen o.desc = 4755
        · rw [if_pos hlen] at hr
          exact State.tokenRefusal_scope hr
        · rw [if_neg hlen] at hr
          exact nomatch hr
      obtain ⟨hbit, hsc, hever, hhif⟩ := (s.setOp o.started).testGranted_spec hscope j
      beta_reduce
      rw [hj]
      generalize (s.setOp o.started).testGranted (getLE b 7 1) j = u at hbit hsc hever hhif
      have hk : (u.drawNonce.raise Ev.TEST_ACCESS 0 (getLE b 7 1)).Kept o.key :=
        ((u.posts_drawNonce).trans (State.posts_raise _ _ _ _)).kept (hkept.congr hhif)
      have hf := (u.drawNonce.raise Ev.TEST_ACCESS 0 (getLE b 7 1)).finish_keeps o.key stOK 0 0
      have hrep := u.drawNonce.mgmtReports_raise Ev.TEST_ACCESS 0 (getLE b 7 1)
      refine ⟨State.endedWith_finish hk _ _ _, ?_, ?_, fun hne => ?_⟩
      · obtain ⟨a, c, hm⟩ := hrep
        rw [Op.started_key, hf.mgmt_eq rfl, hm]
        exact hbit
      · exact (hf.fld_eq _ _ rfl rfl).trans ((State.fld_raise _ _ _ _ _ _ _ _ rfl).trans hsc)
      · exact (hf.flag_eq _ _ rfl rfl).trans ((congrArg (· == 1) (State.fld_raise _ _ _ _ _ _ _ _ rfl)).trans (hever hne))
  case refine_9 =>
    intro s i n hp hpins hi
    refine ⟨_, rfl, ?_⟩
    have hok : jtagAllowed (s.fld Reg.MGT_TEST_STATUS_SCOPE) i = true ∧ i ≠ .idcode ∧
        ({ s with mgmt := { s.mgmt with jtag := some i } } : State).pinsScanned = false := by
      rcases hi with rfl | ⟨rfl, h⟩ | ⟨rfl, h⟩
      · exact ⟨rfl, by simp, rfl⟩
      · exact ⟨decide_eq_true h, by simp, rfl⟩
      · exact ⟨decide_eq_true h, by simp, rfl⟩
    beta_reduce
    rw [State.inAon_on hp, State.jtagLoad_quiet hok.1 hpins hok.2.2, if_neg hok.2.1]
  case refine_10 =>
    intro s hp hpins
    refine ⟨_, rfl, ?_⟩
    beta_reduce
    rw [State.inAon_on hp, State.jtagLoad_quiet (i := .idcode) rfl hpins rfl, if_pos rfl]
    have hfr : Fr 0x8000010000000 s (({ s with mgmt := { s.mgmt with jtag := some .idcode } } : State).emit (.jtagOut 0xA512014F)) :=
      State.emit_fr (Fr.mgmt_ (Fr.refl _ s) rfl) rfl
    exact ⟨rfl, rfl, hfr.within (ps := [.mgmt, .out]) (by decide +kernel)⟩
  case refine_11 =>
    intro s n hp hscope
    refine ⟨_, rfl, ?_⟩
    beta_reduce
    rw [State.inAon_on hp]
    exact ⟨State.jtagLoad_drives hscope, State.coreOff_of_driven (State.jtagLoad_drives hscope)⟩
  case refine_12 =>
    intro s i n b hi
    refine ⟨_, rfl, State.inAon_of_same (State.jtagLoad_refused ?_)⟩
    rcases hi with ⟨rfl, h⟩ | ⟨rfl, h⟩
    · exact decide_eq_false (by omega)
    · exact decide_eq_false (by omega)
  case refine_13 =>
    intro s n rest hp hc
    refine ⟨_, rfl, ?_⟩
    beta_reduce
    rw [State.inAon_on hp, hc]
  case refine_14 =>
    intro s hc
    refine ⟨_, rfl, State.inAon_of_same ?_⟩
    rw [hc]

end Sys2Proof.Machine


/-!
PROOFS. The time unit (R462 to R473) and the attestation report (R455 to R458).
-/

namespace Sys2Proof.Machine

/-! ### The counter and the candidate -/

theorem TimeState.ns_ofTotal_lt (t : TimeState) (n : Nat) : (t.ofTotal n).ns < 1000000000 := Nat.mod_lt _ (by decide)

theorem State.time_addDelta (s : State) (d : Int) :
    (s.addDelta d).time.total = (((s.time.total : Int) + d * 2 ^ 32) % (timeRange : Int)).toNat ∧ (s.addDelta d).time.ns < 1000000000 := by
  refine ⟨(TimeState.total_ofTotal _ _).trans ?_, TimeState.ns_ofTotal_lt _ _⟩
  have hnonneg : 0 ≤ ((s.time.total : Int) + d * 2 ^ 32) % (timeRange : Int) := Int.emod_nonneg _ (by decide)
  have hlt : ((s.time.total : Int) + d * 2 ^ 32) % (timeRange : Int) < timeRange := Int.emod_lt_of_pos _ (by decide)
  have hrange : ((2 ^ 32 : Nat) : Int) = 2 ^ 32 := rfl
  rw [hrange]
  exact Nat.mod_eq_of_lt (by omega)

theorem toSigned_words {d : Int} (hlo : -(2 ^ 63) ≤ d) (hhi : d < 2 ^ 63) :
    toSigned 64 (ofSigned 64 d % 2 ^ 32 + 2 ^ 32 * (ofSigned 64 d / 2 ^ 32 % 2 ^ 32)) = d := by
  have hlt : ofSigned 64 d < 2 ^ 64 := by
    unfold ofSigned
    omega
  have hval : (ofSigned 64 d : Int) = d % 2 ^ 64 := by
    unfold ofSigned
    omega
  unfold toSigned
  dsimp only
  generalize ofSigned 64 d = n at hlt hval
  split <;> omega

theorem State.candidate_congr {s t : State} (hlo : t.fld Reg.TIM_JUMP_CAND_LO_CAND = s.fld Reg.TIM_JUMP_CAND_LO_CAND)
    (hhi : t.fld Reg.TIM_JUMP_CAND_HI_CAND = s.fld Reg.TIM_JUMP_CAND_HI_CAND) : t.candidate = s.candidate := by
  rw [State.candidate, hlo, hhi, State.candidate]

theorem State.candidate_setCandidate (s : State) {d : Int} (hlo : -(2 ^ 63) ≤ d) (hhi : d < 2 ^ 63) : (s.setCandidate d).candidate = d := by
  have hl : (s.setCandidate d).fld Reg.TIM_JUMP_CAND_LO_CAND = ofSigned 64 d % 2 ^ 32 :=
    (State.fld_setFld_clear _ _ _ _ _ _ (by decide)).trans (State.fld_setFld_self _ _ _ _ (by decide))
  have hh : (s.setCandidate d).fld Reg.TIM_JUMP_CAND_HI_CAND = ofSigned 64 d / 2 ^ 32 % 2 ^ 32 := State.fld_setFld_self _ _ _ _ (by decide)
  rw [State.candidate, hl, hh, toSigned_words hlo hhi]

theorem State.candidate_setFld (s : State) {f : Fld} {v : Nat} (h : Fld.clearOf f Reg.TIM_JUMP_CAND_LO_CAND = true)
    (h' : Fld.clearOf f Reg.TIM_JUMP_CAND_HI_CAND = true) : (s.setFld f 0 v).candidate = s.candidate :=
  State.candidate_congr (State.fld_setFld_clear _ _ _ _ _ _ h) (State.fld_setFld_clear _ _ _ _ _ _ h')

theorem State.candidate_raise (s : State) (c i d : Nat) : (s.raise c i d).candidate = s.candidate :=
  State.candidate_congr (State.fld_raise _ _ _ _ _ _ _ _ rfl) (State.fld_raise _ _ _ _ _ _ _ _ rfl)

/-! ### Steps of the counter -/

theorem State.timeStep_keeps (s : State) (d : Int) :
    Fr 0x2c080470400000 (s.addDelta d |>.bump Reg.TIM_STATUS_STEPS_APPLIED) (s.timeStep d) :=
  State.alarmsDue_fr (State.binsSuspect_fr (Fr.refl _ _) rfl) rfl

theorem State.time_timeStep (s : State) (d : Int) : (s.timeStep d).time = (s.addDelta d).time := (s.timeStep_keeps d).time_eq rfl

/-- The fields of the time unit after a step, but for the count of steps. -/
theorem State.fld_timeStep (s : State) (d : Int) {f : Fld} (i : Nat) (hb : f.blk = .tim) (h : Fld.clearOf Reg.TIM_STATUS_STEPS_APPLIED f = true) :
    (s.timeStep d).fld f i = s.fld f i :=
  ((s.timeStep_keeps d).fld_eq f i (by rw [hb]; rfl) (by rw [hb]; rfl)).trans (State.fld_bump_clear _ _ _ _ _ _ h)

theorem State.stepsApplied_timeStep (s : State) (d : Int) :
    (s.timeStep d).fld Reg.TIM_STATUS_STEPS_APPLIED = min 0xFFFF (s.fld Reg.TIM_STATUS_STEPS_APPLIED + 1) := by
  have hbump : (s.timeStep d).fld Reg.TIM_STATUS_STEPS_APPLIED = satAdd (2 ^ 16 - 1) (s.fld Reg.TIM_STATUS_STEPS_APPLIED) 1 :=
    ((s.timeStep_keeps d).fld_eq _ _ rfl rfl).trans (State.fld_bump_sat _ _ _ _ (by decide))
  rw [hbump]
  rfl

theorem State.posts_alarmFire (s : State) (a : Nat) : s.Posts (s.alarmFire a) := by
  unfold State.alarmFire
  split
  · exact .rfl
  · dsimp only
    generalize hs2 : List.foldl _ _ (s.alarmUnits a) = s2
    have h2 : s.Posts s2 := by
      rw [← hs2]
      refine State.Posts.trans ?_ (State.posts_foldl (f := fun (t : State) (u : Nat × Nat) => t.unitWakes u.1 u.2 9) (fun t u => ?_) _ _)
      · exact .of_eq rfl rfl
      · exact (State.unitWakes_fr (Fr.refl _ t) (Sub.refl _)).posts ⟨rfl, rfl⟩
    generalize hs3 : (if s2.fld Reg.PWR_ALARM_CFG_HOLD_10MS a = 0 then s2
      else s2.onPower fun p => { p with held := p.held.filter (·.1 != a) ++ (s.alarmUnits a).map fun u => (a, u.1, u.2) }) = s3
    have h3 : s.Posts s3 := by
      rw [← hs3]
      split
      · exact h2
      · exact h2.trans (.of_eq rfl rfl)
    split
    · exact h3.trans (State.posts_raise _ _ _ _)
    · exact h3

theorem State.posts_timeStep (s : State) (d : Int) : s.Posts (s.timeStep d) := by
  have hbins : s.Posts ((s.addDelta d).bump Reg.TIM_STATUS_STEPS_APPLIED).binsSuspect := by
    refine State.Posts.trans (t := (s.addDelta d).bump Reg.TIM_STATUS_STEPS_APPLIED) (.of_eq rfl rfl) ?_
    exact (State.binsSuspect_fr (Fr.refl _ _) (Sub.refl _)).posts ⟨rfl, rfl⟩
  exact hbins.trans (State.posts_foldl State.posts_alarmFire _ _)

/-- The candidate is cleared: its fields, and what stays. -/
theorem State.clearCandidate_spec (s : State) : s.clearCandidate.candidate = 0 ∧ s.clearCandidate.flag Reg.TIM_STATUS_ARMED = false ∧
    s.clearCandidate.time = s.time ∧ s.Posts s.clearCandidate ∧
    s.clearCandidate.fld Reg.TIM_STATUS_STEPS_APPLIED = s.fld Reg.TIM_STATUS_STEPS_APPLIED := by
  refine ⟨?_, ?_, rfl, .of_eq rfl rfl, ?_⟩
  · refine (State.candidate_setFld _ (by decide) (by decide)).trans ((State.candidate_setFld _ (by decide) (by decide)).trans ?_)
    exact (State.candidate_setFld _ (by decide) (by decide)).trans (State.candidate_setCandidate _ (by decide) (by decide))
  · exact (State.flag_setFld_clear _ _ _ _ _ _ (by decide)).trans (State.flag_setFlag_self _ Reg.TIM_STATUS_ARMED _ _ (by decide) rfl)
  · have hset (u : State) (f : Fld) (v : Nat) (h : Fld.clearOf f Reg.TIM_STATUS_STEPS_APPLIED = true) :
        (u.setFld f 0 v).fld Reg.TIM_STATUS_STEPS_APPLIED = u.fld Reg.TIM_STATUS_STEPS_APPLIED := State.fld_setFld_clear _ _ _ _ _ _ h
    exact (hset _ _ _ (by decide)).trans ((hset _ _ _ (by decide)).trans ((hset _ _ _ (by decide)).trans ((hset _ _ _ (by decide)).trans
      (hset _ _ _ (by decide)))))

/-! ### The jump guard -/

/-- In ACQUIRE every request is applied. -/
theorem State.guardStep_acquire {s : State} (h : s.flag Reg.TIM_STATUS_TRACK = false) {d : Int} {n : Nat}
    (hn : (if d.natAbs ≤ s.fld Reg.TIM_GUARD_CFG_JUMP_NS then s.time.consistApplied + 1 else 0) = n) :
    s.guardStep d = if s.fld Reg.TIM_GUARD_CFG_N_CONSIST ≤ n then
        .apply (({ s with time := { s.time with consistApplied := n } } : State).setFlag Reg.TIM_STATUS_TRACK 0 true)
      else .apply { s with time := { s.time with consistApplied := n } } := by
  unfold State.guardStep
  rw [h]
  simp only [Bool.not_false, if_true, decide_eq_true_eq, hn]
  split <;> rfl

/-- In TRACK a small request is applied, and the candidate goes. -/
theorem State.guardStep_small {s : State} (h : s.flag Reg.TIM_STATUS_TRACK = true) {d : Int} (hd : d.natAbs ≤ s.fld Reg.TIM_GUARD_CFG_JUMP_NS) :
    s.guardStep d = .apply s.clearCandidate := by
  unfold State.guardStep
  rw [h, decide_eq_true hd]
  rfl

/-- In TRACK a larger request is refused. -/
theorem State.guardStep_large {s : State} (h : s.flag Reg.TIM_STATUS_TRACK = true) {d : Int} (hd : s.fld Reg.TIM_GUARD_CFG_JUMP_NS < d.natAbs) :
    s.guardStep d = .refuse (s.refuseJump d) := by
  unfold State.guardStep
  rw [h, decide_eq_false (Nat.not_le.2 hd)]
  rfl

theorem State.stepRequest_of_apply {s u : State} {d : Int} (hp : s.boot.porst = false) (h : s.guardStep d = .apply u) : s.stepRequest d = u.timeStep d := by
  unfold State.stepRequest
  rw [hp, h]
  rfl

theorem State.stepRequest_of_refuse {s u : State} {d : Int} (hp : s.boot.porst = false) (h : s.guardStep d = .refuse u) : s.stepRequest d = u := by
  unfold State.stepRequest
  rw [hp, h]
  rfl

/-- A request that the guard applies: the counter it starts from and the count of steps are the former ones. -/
theorem State.guardStep_applies {s : State} {d : Int} (h : s.flag Reg.TIM_STATUS_TRACK = false ∨ d.natAbs ≤ s.fld Reg.TIM_GUARD_CFG_JUMP_NS) :
    ∃ u, s.guardStep d = .apply u ∧ u.time.total = s.time.total ∧ u.fld Reg.TIM_STATUS_STEPS_APPLIED = s.fld Reg.TIM_STATUS_STEPS_APPLIED := by
  cases htrack : s.flag Reg.TIM_STATUS_TRACK with
  | false =>
    rw [State.guardStep_acquire htrack rfl]
    generalize (if d.natAbs ≤ s.fld Reg.TIM_GUARD_CFG_JUMP_NS then s.time.consistApplied + 1 else 0) = n
    split
    · refine ⟨_, rfl, ?_, ?_⟩
      · rfl
      · exact State.fld_setFlag_clear _ _ _ _ _ _ (by decide)
    · exact ⟨_, rfl, rfl, rfl⟩
  | true =>
    rcases h with h | h
    · rw [htrack] at h
      cases h
    · obtain ⟨-, -, htime, -, hsteps⟩ := s.clearCandidate_spec
      exact ⟨_, State.guardStep_small htrack h, congrArg TimeState.total htime, hsteps⟩

/-- The state as a refused request becomes the candidate. -/
def State.newCandidate (s : State) (d : Int) : State :=
  ((((s.bump Reg.TIM_STATUS_STEPS_REFUSED).setCandidate d).setFlag Reg.TIM_STATUS_JUMP_PENDING 0 true).setFlag Reg.TIM_STATUS_ARMED 0 false).setFld
    Reg.TIM_STATUS_CONSIST_COUNT 0 1

theorem State.refuseJump_first {s : State} (h : s.flag Reg.TIM_STATUS_JUMP_PENDING = false) (d : Int) :
    s.refuseJump d = (s.newCandidate d).raise Ev.TIME_JUMP_REFUSED 0 (ofSigned 64 d) := by
  have hpend : (s.bump Reg.TIM_STATUS_STEPS_REFUSED).flag Reg.TIM_STATUS_JUMP_PENDING = false :=
    (State.flag_setFld_clear _ _ _ _ _ _ (by decide)).trans h
  unfold State.refuseJump
  dsimp only
  rw [hpend]
  rfl

theorem State.newCandidate_spec (s : State) {d : Int} (hlo : -(2 ^ 63) ≤ d) (hhi : d < 2 ^ 63) :
    (s.newCandidate d).candidate = d ∧ (s.newCandidate d).flag Reg.TIM_STATUS_JUMP_PENDING = true ∧ (s.newCandidate d).flag Reg.TIM_STATUS_ARMED = false ∧
    (s.newCandidate d).fld Reg.TIM_STATUS_CONSIST_COUNT = 1 ∧ Fr 0x200000 s (s.newCandidate d) := by
  refine ⟨?_, ?_, ?_, State.fld_setFld_val _ _ _ _ (by decide) (by decide), ?_⟩
  · refine (State.candidate_setFld _ (by decide) (by decide)).trans ((State.candidate_setFld _ (by decide) (by decide)).trans ?_)
    exact (State.candidate_setFld _ (by decide) (by decide)).trans (State.candidate_setCandidate _ hlo hhi)
  · exact (State.flag_setFld_clear _ _ _ _ _ _ (by decide)).trans ((State.flag_setFlag_clear _ _ _ _ _ _ (by decide)).trans
      (State.flag_setFlag_self _ Reg.TIM_STATUS_JUMP_PENDING _ _ (by decide) rfl))
  · exact (State.flag_setFld_clear _ _ _ _ _ _ (by decide)).trans (State.flag_setFlag_self _ Reg.TIM_STATUS_ARMED _ _ (by decide) rfl)
  · have hset {u : State} (h : Fr 0x200000 s u) (f : Fld) (v : Nat) (hb : f.blk = .tim) : Fr 0x200000 s (u.setFld f 0 v) :=
      State.setFld_frame h (by rw [hb]; rfl) (by rw [hb]; rfl)
    exact hset (hset (hset (hset (hset (hset (Fr.refl _ s) _ _ rfl) _ _ rfl) _ _ rfl) _ _ rfl) _ _ rfl) _ _ rfl

/-- A refused request that agrees with the candidate often enough arms it. -/
theorem State.refuseJump_agrees {s : State} {d : Int} (h : s.flag Reg.TIM_STATUS_JUMP_PENDING = true)
    (hd : (d - s.candidate).natAbs ≤ s.fld Reg.TIM_GUARD_CFG2_CONSIST_NS)
    (hn : s.fld Reg.TIM_GUARD_CFG_N_CONSIST ≤ min 0xF (s.fld Reg.TIM_STATUS_CONSIST_COUNT + 1)) (hlo : -(2 ^ 63) ≤ d) (hhi : d < 2 ^ 63) :
    (s.refuseJump d).time = s.time ∧ (s.refuseJump d).candidate = d ∧ (s.refuseJump d).flag Reg.TIM_STATUS_ARMED = true := by
  have hpend : (s.bump Reg.TIM_STATUS_STEPS_REFUSED).flag Reg.TIM_STATUS_JUMP_PENDING = true :=
    (State.flag_setFld_clear _ _ _ _ _ _ (by decide)).trans h
  have hcand : (s.bump Reg.TIM_STATUS_STEPS_REFUSED).candidate = s.candidate := State.candidate_setFld _ (by decide) (by decide)
  have hwin : (s.bump Reg.TIM_STATUS_STEPS_REFUSED).fld Reg.TIM_GUARD_CFG2_CONSIST_NS = s.fld Reg.TIM_GUARD_CFG2_CONSIST_NS :=
    State.fld_bump_clear _ _ _ _ _ _ (by decide)
  have hnear : decide (((s.fld Reg.TIM_GUARD_CFG2_CONSIST_NS : Nat) : Int) < ((d - s.candidate).natAbs : Int)) = false := decide_eq_false (by omega)
  unfold State.refuseJump
  dsimp only
  rw [hpend, hcand, hwin, hnear, Bool.not_true, Bool.or_false, if_neg Bool.false_ne_true]
  generalize hs1 : (State.setCandidate _ d).bump Reg.TIM_STATUS_CONSIST_COUNT = s1
  have htime : s1.time = s.time := by rw [← hs1]; rfl
  have hc1 : s1.candidate = d := by
    rw [← hs1]
    exact (State.candidate_setFld _ (by decide) (by decide)).trans (State.candidate_setCandidate _ hlo hhi)
  have hread (u : State) (f : Fld) (v : Nat) (g : Fld) (hfg : Fld.clearOf f g = true) : (u.setFld f 0 v).fld g = u.fld g :=
    State.fld_setFld_clear _ _ _ _ _ _ hfg
  have hreq : s1.fld Reg.TIM_GUARD_CFG_N_CONSIST = s.fld Reg.TIM_GUARD_CFG_N_CONSIST := by
    rw [← hs1]
    exact (hread _ _ _ _ (by decide)).trans ((hread _ _ _ _ (by decide)).trans ((hread _ _ _ _ (by decide)).trans (hread _ _ _ _ (by decide))))
  have hcount : s1.fld Reg.TIM_STATUS_CONSIST_COUNT = min 0xF (s.fld Reg.TIM_STATUS_CONSIST_COUNT + 1) := by
    rw [← hs1]
    refine (State.fld_bump_sat _ _ _ _ (by decide)).trans ?_
    have hbefore : ((s.bump Reg.TIM_STATUS_STEPS_REFUSED).setCandidate d).fld Reg.TIM_STATUS_CONSIST_COUNT = s.fld Reg.TIM_STATUS_CONSIST_COUNT :=
      (hread _ _ _ _ (by decide)).trans ((hread _ _ _ _ (by decide)).trans (hread _ _ _ _ (by decide)))
    rw [hbefore]
    rfl
  rw [hreq, hcount]
  cases harm : s1.flag Reg.TIM_STATUS_ARMED with
  | true =>
    rw [if_neg (fun hb => absurd hb.2 (by decide))]
    exact ⟨htime, hc1, harm⟩
  | false =>
    rw [if_pos ⟨hn, rfl⟩]
    have hraise := (s1.setFlag Reg.TIM_STATUS_ARMED 0 true).raise_keeps Ev.TIME_JUMP_ARMED 0 (ofSigned 64 d)
    refine ⟨(hraise.time_eq rfl).trans htime, (State.candidate_raise _ _ _ _).trans ((State.candidate_setFld _ (by decide) (by decide)).trans hc1), ?_⟩
    exact (hraise.flag_eq _ _ rfl rfl).trans (State.flag_setFlag_self _ Reg.TIM_STATUS_ARMED _ _ (by decide) rfl)

/-! ### Ports and the report -/

/-- The time unit takes a message at the port: the management port, or a fabric port in service. -/
theorem execPtpMessage_taken {s : State} {m : PtpMsg} (h : (m.port = 576 ∧ s.boot.porst = false ∧ s.railOk 6 = true) ∨
    (m.port ≠ 576 ∧ s.coreOff = false ∧ s.portUp m.port = true)) : execPtpMessage m s = .next (s.ptpMessage m) := by
  unfold execPtpMessage
  rcases h with ⟨hport, hp, hrail⟩ | ⟨hport, hco, hup⟩
  · rw [if_pos hport, State.inAon_on hp, if_pos hrail]
  · rw [if_neg hport, State.inCore_on hco, if_pos hup]

/-- A port that is not in service takes none, and some messages mean nothing to it. -/
theorem State.ptpMessage_ignored {s : State} {m : PtpMsg} (h : m.domain ≠ s.fld Reg.TIM_PTP_CFG_DOMAIN ∨ m.kind = .sync ∨ m.kind = .other) :
    s.ptpMessage m = s := by
  unfold State.ptpMessage
  split
  · rfl
  · next hd =>
    rcases h with h | h | h
    · exact absurd h hd
    · rw [h]
    · rw [h]

theorem execPtpMessage_ignored {s : State} {m : PtpMsg} (h : m.domain ≠ s.fld Reg.TIM_PTP_CFG_DOMAIN ∨ m.kind = PtpKind.sync ∨ m.kind = PtpKind.other ∨
    (m.port = 576 ∧ (s.boot.porst = true ∨ s.railOk 6 = false)) ∨ (m.port ≠ 576 ∧ (s.coreOff = true ∨ s.portUp m.port = false))) :
    execPtpMessage m s = .next s := by
  have haon : (if s.railOk 6 then s.ptpMessage m else s) = s → (s.inAon fun s => if s.railOk 6 then s.ptpMessage m else s) = s := State.inAon_of_same
  have hcore (hsame : (if s.portUp m.port then s.ptpMessage m else s) = s) : (s.inCore fun s => if s.portUp m.port then s.ptpMessage m else s) = s := by
    unfold State.inCore
    beta_reduce
    rw [hsame, ite_self]
  have hboth (hsame : s.ptpMessage m = s) : execPtpMessage m s = .next s := by
    unfold execPtpMessage
    rw [haon (by rw [hsame, ite_self]), hcore (by rw [hsame, ite_self]), ite_self]
  rcases h with h | h | h | ⟨hport, h⟩ | ⟨hport, h⟩
  · exact hboth (State.ptpMessage_ignored (.inl h))
  · exact hboth (State.ptpMessage_ignored (.inr (.inl h)))
  · exact hboth (State.ptpMessage_ignored (.inr (.inr h)))
  · unfold execPtpMessage
    rw [if_pos hport]
    rcases h with h | h
    · rw [State.inAon, if_pos h]
    · rw [haon (by rw [h]; rfl)]
  · unfold execPtpMessage
    rw [if_neg hport]
    rcases h with h | h
    · rw [State.inCore, if_pos h]
    · rw [hcore (by rw [h]; rfl)]

theorem State.ptpMessage_request {s : State} {m : PtpMsg} {peer : Bool} (hd : m.domain = s.fld Reg.TIM_PTP_CFG_DOMAIN)
    (hk : m.kind = if peer then PtpKind.pdelayReq else PtpKind.delayReq) : s.ptpMessage m = if s.fld Reg.TIM_PTP_CFG_DELAY_MECH = bit peer then
      s.emit (.ptpReply m.port peer (ofSigned 80 ((m.stamp : Int) + toSigned 16 (s.fld Reg.TIM_PORT_ADJ_RX_ADJ m.port)))) else s := by
  unfold State.ptpMessage
  rw [if_neg (fun h => h hd), hk]
  cases peer <;> rfl

/-- What may start the report's operation does not change what it says. -/
theorem State.report_setOp (s : State) (o : Op) (fn : Nat) :
    (s.setOp o).attEntries fn = s.attEntries fn ∧ ∀ b, (s.setOp o).report fn b = s.report fn b := ⟨rfl, fun _ => rfl⟩

/-- A buffer too small for the report. -/
theorem State.attest_short {s : State} {o : Op} (nonce : Option Bytes) (h : mLen o.desc < 64 ∨ mLen o.desc < reportLen (s.attEntries o.fn)) :
    s.attest o nonce = s.finish o.key stBAD_FIELD 0 (reportLen (s.attEntries o.fn)) := if_pos h

/-- A buffer that is large enough. -/
theorem State.attest_long {s : State} {o : Op} (nonce : Option Bytes) (h : ¬ (mLen o.desc < 64 ∨ mLen o.desc < reportLen (s.attEntries o.fn))) :
    s.attest o nonce = match nonce with
      | none => s.finish o.key stHOST_ABORT
      | some b => (s.emit (.hostWrite o.fn (mAddr o.desc) (s.report o.fn b))).finish o.key stOK 0 (reportLen (s.attEntries o.fn)) := if_neg h

/-! ### The rows -/

/-- Settles O29: the guard's verdict says what a step request leaves; what a step makes due changes no field of the time unit. -/
theorem timeRows : Obligations.TimeRows := by
  refine ⟨?_, ?_, ?_, ?_, ?_, ?_, ?_, ?_, ?_, ?_, ?_, ?_, ?_, ?_, ?_, ?_, ?_, ?_⟩
  case refine_1 =>
    intro s w hp hw
    refine ⟨_, rfl, ?_⟩
    beta_reduce
    rw [State.inAon_on hp, State.timeCapture, if_pos hw]
    have hset {u : State} (h : Fr 0x200000 s u) (f : Fld) (v : Nat) (hb : f.blk = .tim) : Fr 0x200000 s (u.setFld f 0 v) :=
      State.setFld_frame h (by rw [hb]; rfl) (by rw [hb]; rfl)
    have hread (u : State) (f : Fld) (v : Nat) (g : Fld) (hfg : Fld.clearOf f g = true) : (u.setFld f 0 v).fld g = u.fld g :=
      State.fld_setFld_clear _ _ _ _ _ _ hfg
    have hself (u : State) (f : Fld) (v : Nat) (h : f.lsb + f.width ≤ 32) : (u.setFld f 0 v).fld f = v % 2 ^ f.width := State.fld_setFld_self _ _ _ _ h
    refine ⟨?_, ?_, ?_, ?_, ?_⟩
    · exact (hread _ _ _ _ (by decide)).trans ((hread _ _ _ _ (by decide)).trans ((hread _ _ _ _ (by decide)).trans (hself _ _ _ (by decide))))
    · exact (hread _ _ _ _ (by decide)).trans ((hread _ _ _ _ (by decide)).trans (hself _ _ _ (by decide)))
    · exact (hread _ _ _ _ (by decide)).trans (hself _ _ _ (by decide))
    · exact hself _ _ _ (by decide)
    · exact (hset (hset (hset (hset (Fr.refl _ s) _ _ rfl) _ _ rfl) _ _ rfl) _ _ rfl).within (ps := [.regs .tim]) (by decide +kernel)
  case refine_2 =>
    intro s w hw
    have hsame : s.timeCapture w.toNat = s := by
      rw [State.timeCapture, hw]
      rfl
    exact ⟨_, rfl, State.inAon_of_same hsame⟩
  case refine_3 =>
    intro s d hp h
    obtain ⟨u, hu, htotal, hsteps⟩ := State.guardStep_applies h
    refine ⟨_, rfl, ?_⟩
    beta_reduce
    obtain ⟨hadd, hns⟩ := u.time_addDelta d
    rw [State.inAon_on hp, State.stepRequest_of_apply hp hu, State.time_timeStep, hadd, htotal, State.stepsApplied_timeStep, hsteps]
    exact ⟨rfl, hns, rfl⟩
  case refine_4 =>
    intro s d hp h
    refine ⟨_, rfl, ?_⟩
    beta_reduce
    rw [State.inAon_on hp]
    generalize hcount : (if d.natAbs ≤ s.fld Reg.TIM_GUARD_CFG_JUMP_NS then s.time.consistApplied + 1 else 0) = n
    have hguard := State.guardStep_acquire h hcount
    have hflag (u : State) : (u.timeStep d).flag Reg.TIM_STATUS_TRACK = u.flag Reg.TIM_STATUS_TRACK := by
      rw [State.flag, State.fld_timeStep _ _ _ rfl (by decide), State.flag]
    split at hguard
    · next hn =>
      rw [State.stepRequest_of_apply hp hguard, hflag, State.flag_setFlag_self _ Reg.TIM_STATUS_TRACK _ _ (by decide) rfl, State.time_timeStep]
      exact ⟨rfl, iff_of_true rfl hn⟩
    · next hn =>
      rw [State.stepRequest_of_apply hp hguard, hflag, State.time_timeStep]
      exact ⟨rfl, iff_of_false (ne_true_of_eq_false h) hn⟩
  case refine_5 =>
    intro s d hp htrack hlarge hpend hlo hhi
    refine ⟨_, rfl, ?_⟩
    beta_reduce
    rw [State.inAon_on hp, State.stepRequest_of_refuse hp (State.guardStep_large htrack hlarge), State.refuseJump_first hpend]
    obtain ⟨hcand, hpd, harm, hcount, hfr⟩ := s.newCandidate_spec hlo hhi
    have hraise := (s.newCandidate d).raise_keeps Ev.TIME_JUMP_REFUSED 0 (ofSigned 64 d)
    exact ⟨(hraise.time_eq rfl).trans (hfr.time_eq rfl), (State.candidate_raise _ _ _ _).trans hcand, (hraise.flag_eq _ _ rfl rfl).trans hpd,
      (hraise.flag_eq _ _ rfl rfl).trans harm, (hraise.fld_eq _ _ rfl rfl).trans hcount,
      State.evr_raise_congr (hfr.recordsAlike ⟨rfl, rfl, rfl, rfl⟩) _ _ _⟩
  case refine_6 =>
    intro s d hp htrack hlarge hpend hnear hn hlo hhi
    refine ⟨_, rfl, ?_⟩
    beta_reduce
    rw [State.inAon_on hp, State.stepRequest_of_refuse hp (State.guardStep_large htrack hlarge)]
    exact State.refuseJump_agrees hpend hnear hn hlo hhi
  case refine_7 =>
    intro s op o hready hw hfn harm
    refine ⟨_, congrArg Host.Outcome.next (State.mgmtPF_ready hready hw hfn _), ?_⟩
    obtain ⟨hend, hfr⟩ := hready.finish_spec stBAD_FIELD 0 0
    obtain ⟨-, rfl, -⟩ := hready
    beta_reduce
    rw [State.timeConfirm, if_neg (ne_true_of_eq_false (show (s.setOp o.started).flag Reg.TIM_STATUS_ARMED = false from harm))]
    exact ⟨hend, hfr.within (ps := [.hif]) (by decide +kernel)⟩
  case refine_8 =>
    intro s op o hready hw hfn harm
    refine ⟨_, congrArg Host.Outcome.next (State.mgmtPF_ready hready hw hfn _), ?_⟩
    have hkept := hready.kept
    obtain ⟨-, rfl, -⟩ := hready
    beta_reduce
    rw [State.timeConfirm, if_pos (show (s.setOp o.started).flag Reg.TIM_STATUS_ARMED = true from harm)]
    dsimp only [Op.started_key]
    rw [show (s.setOp o.started).candidate = s.candidate from rfl]
    obtain ⟨hcand, harm', htime, hposts, -⟩ := (s.setOp o.started).clearCandidate_spec
    generalize (s.setOp o.started).clearCandidate = u at hcand harm' htime hposts
    have hraise := (u.timeStep s.candidate).raise_keeps Ev.TIME_STEPPED 0 (ofSigned 64 s.candidate)
    have hfin := ((u.timeStep s.candidate).raise Ev.TIME_STEPPED 0 (ofSigned 64 s.candidate)).finish_keeps o.key stOK 0 (ofSigned 64 s.candidate)
    have hp := (hposts.trans (u.posts_timeStep s.candidate)).trans (State.posts_raise _ Ev.TIME_STEPPED 0 (ofSigned 64 s.candidate))
    have hfld (f : Fld) (hb : f.blk = .tim) (h : Fld.clearOf Reg.TIM_STATUS_STEPS_APPLIED f = true) :
        (((u.timeStep s.candidate).raise Ev.TIME_STEPPED 0 (ofSigned 64 s.candidate)).finish o.key stOK 0 (ofSigned 64 s.candidate)).fld f = u.fld f :=
      (hfin.fld_eq f _ (by rw [hb]; rfl) (by rw [hb]; rfl)).trans ((hraise.fld_eq f _ (by rw [hb]; rfl) (by rw [hb]; rfl)).trans
        (State.fld_timeStep _ _ _ hb h))
    refine ⟨State.endedWith_finish (hp.kept hkept) _ _ _, ?_, (State.candidate_congr (hfld _ rfl (by decide)) (hfld _ rfl (by decide))).trans hcand, ?_⟩
    · rw [State.flag, hfld _ rfl (by decide)]
      exact harm'
    · rw [(hfin.time_eq rfl).trans ((hraise.time_eq rfl).trans (u.time_timeStep _)), (u.time_addDelta _).1, htime, (State.setOp_keeps _ _).time_eq rfl]
  case refine_9 =>
    intro s hp hen hearly
    refine ⟨_, rfl, ?_⟩
    beta_reduce
    rw [State.inAon_on hp]
    have hedge : s.ppsEdge = ((({ s with time := { s.time with ppsLast := some s.uptimeNs } } : State).setFld Reg.TIM_PPS_IN_SEC_SEC 0
        s.time.sec).setFld Reg.TIM_PPS_IN_NS_NS 0 s.time.ns).bumpWrap Reg.TIM_PPS_IN_COUNT_COUNT := by
      unfold State.ppsEdge
      dsimp only
      rw [hen]
      rw [Bool.not_true, Bool.false_or]
      refine if_neg ?_
      cases hl : s.time.ppsLast with
      | none => exact Bool.false_ne_true
      | some x =>
        rw [hl, Option.map_some, Option.getD_some, decide_eq_true_eq] at hearly
        simpa using hearly
    rw [hedge]
    have hfr : Fr 0x200200000 s ({ s with time := { s.time with ppsLast := some s.uptimeNs } } : State) := Fr.time_ (Fr.refl _ s) rfl fun h => h
    generalize hu : ({ s with time := { s.time with ppsLast := some s.uptimeNs } } : State) = u at hfr
    have hset {u : State} (h : Fr 0x200200000 s u) (f : Fld) (v : Nat) (hb : f.blk = .tim) : Fr 0x200200000 s (u.setFld f 0 v) :=
      State.setFld_frame h (by rw [hb]; rfl) (by rw [hb]; rfl)
    have hread (u : State) (f : Fld) (v : Nat) (g : Fld) (hfg : Fld.clearOf f g = true) : (u.setFld f 0 v).fld g = u.fld g :=
      State.fld_setFld_clear _ _ _ _ _ _ hfg
    have hself (u : State) (f : Fld) (v : Nat) (h : f.lsb + f.width ≤ 32) : (u.setFld f 0 v).fld f = v % 2 ^ f.width := State.fld_setFld_self _ _ _ _ h
    refine ⟨?_, ?_, ?_, ?_, ?_⟩
    · rw [← hu]
      rfl
    · exact (hread _ _ _ _ (by decide)).trans ((hread _ _ _ _ (by decide)).trans (hself _ _ _ (by decide)))
    · exact (hread _ _ _ _ (by decide)).trans (hself _ _ _ (by decide))
    · refine (hself _ _ _ (by decide)).trans ?_
      rw [(hread _ _ _ _ (by decide)).trans (hread _ _ _ _ (by decide)), ← hu]
      rfl
    · exact (hset (hset (hset hfr _ _ rfl) _ _ rfl) _ _ rfl).within (ps := [.regs .tim, .time]) (by decide +kernel)
  case refine_10 =>
    intro s x h
    have hsame : s.ppsEdge = s := by
      unfold State.ppsEdge
      dsimp only
      refine if_pos ?_
      rcases h with h | ⟨hl, hx⟩
      · rw [h]
        rfl
      · rw [hl]
        dsimp only
        rw [decide_eq_true hx, Bool.or_true]
    exact ⟨_, rfl, State.inAon_of_same hsame⟩
  case refine_11 => exact fun s hp => ⟨_, rfl, State.inAon_on hp _⟩
  case refine_12 => exact fun s hp => ⟨_, rfl, State.inAon_on hp _⟩
  case refine_13 => exact fun s m h => ⟨_, execPtpMessage_ignored h, rfl⟩
  case refine_14 =>
    intro s m hport hd hk
    refine ⟨_, execPtpMessage_taken hport, ?_⟩
    have hhear : s.ptpMessage m = ({ s with time := { s.time with ptpMasters := withElem s.time.ptpMasters m.port } } : State).setFlag
        Reg.TIM_STATUS_HOLDOVER 0 false := by
      unfold State.ptpMessage
      rw [if_neg (fun h => h hd), hk]
    have hfr : Fr 0x200200000 s ({ s with time := { s.time with ptpMasters := withElem s.time.ptpMasters m.port } } : State) :=
      Fr.time_ (Fr.refl _ s) rfl fun h => h
    have hfr' : Fr 0x200200000 s (({ s with time := { s.time with ptpMasters := withElem s.time.ptpMasters m.port } } : State).setFlag
        Reg.TIM_STATUS_HOLDOVER 0 false) := State.setFld_frame hfr rfl rfl
    beta_reduce
    rw [hhear]
    exact ⟨rfl, State.flag_setFlag_self _ Reg.TIM_STATUS_HOLDOVER _ _ (by decide) rfl, hfr'.within (ps := [.regs .tim, .time]) (by decide +kernel)⟩
  case refine_15 => exact fun s m peer hport hd hk => ⟨_, execPtpMessage_taken hport, State.ptpMessage_request hd hk⟩
  case refine_16 =>
    intro s hp
    refine ⟨_, rfl, ?_⟩
    beta_reduce
    rw [State.inAon_on hp]
    have hfr : Fr 0x200200000 s ({ s with time := { s.time with ptpMasters := [] } } : State) := Fr.time_ (Fr.refl _ s) rfl fun h => h
    have hfr' : Fr 0x200200000 s (({ s with time := { s.time with ptpMasters := [] } } : State).setFlag Reg.TIM_STATUS_HOLDOVER 0 true) :=
      State.setFld_frame hfr rfl rfl
    refine ⟨rfl, State.flag_setFlag_self _ Reg.TIM_STATUS_HOLDOVER _ _ (by decide) rfl, ?_, hfr'.within (ps := [.regs .tim, .time]) (by decide +kernel)⟩
    rw [State.inc, State.fld_setFlag_clear _ _ _ _ _ _ (by decide), State.fld_setFlag_clear _ _ _ _ _ _ (by decide)]
    rfl
  case refine_17 => exact fun s op nonce h => ⟨_, congrArg Host.Outcome.next (if_pos h), rfl⟩
  case refine_18 =>
    intro s op o nonce hready hw hup
    refine ⟨_, congrArg Host.Outcome.next ((if_neg hup).trans (State.start_ready hready hw _)), ?_⟩
    have hspec := hready.finish_spec
    have hkept := hready.kept
    obtain ⟨-, rfl, -⟩ := hready
    obtain ⟨hentries, hreport⟩ := s.report_setOp o.started o.fn
    beta_reduce
    split
    · next hshort =>
      rw [State.attest_short (s := s.setOp o.started) _ (by rw [Op.started_fn, hentries]; exact hshort)]
      obtain ⟨hend, hfr⟩ := hspec stBAD_FIELD 0 (reportLen ((s.setOp o.started).attEntries o.fn))
      exact ⟨hend, hfr.within (ps := [.hif]) (by decide +kernel)⟩
    · next hlong =>
      rw [State.attest_long (s := s.setOp o.started) _ (by rw [Op.started_fn, hentries]; exact hlong)]
      cases nonce with
      | none =>
        obtain ⟨hend, hfr⟩ := hspec stHOST_ABORT 0 0
        exact ⟨hend, hfr.within (ps := [.hif]) (by decide +kernel)⟩
      | some b =>
        dsimp only [Op.started_desc, Op.started_fn, Op.started_key]
        rw [hreport b]
        generalize reportLen _ = need
        have hwrites : ((s.setOp o.started).emit (.hostWrite o.fn (mAddr o.desc) (s.report o.fn b))).out =
            s.out ++ [Out.hostWrite o.fn (mAddr o.desc) (s.report o.fn b)] := rfl
        have hsent := hkept.congr (t := (s.setOp o.started).emit (.hostWrite o.fn (mAddr o.desc) (s.report o.fn b))) rfl
        generalize (s.setOp o.started).emit (.hostWrite o.fn (mAddr o.desc) (s.report o.fn b)) = u at hwrites hsent ⊢
        exact ⟨State.endedWith_finish hsent _ _ _, ((u.finish_keeps _ _ _ _).out_eq rfl).trans hwrites⟩

end Sys2Proof.Machine


/-!
PROOFS. Management cores (R500 to R503), the I3C and management Ethernet ports (R505 to R507), and the management requests
of a virtual function.
-/

namespace Sys2Proof.Machine

/-! ### Roles -/

theorem mgcRole_apart {a : Nat} (ha : a < 2) : Fld.clearOf (mgcRole a) (mgcRole (1 - a)) = true ∧ Fld.clearOf (mgcRole (1 - a)) (mgcRole a) = true := by
  match a with
  | 0 => decide
  | 1 => decide

theorem mgcRole_width (a : Nat) : (mgcRole a).lsb + (mgcRole a).width ≤ 32 ∧ (mgcRole a).width = 2 := by
  unfold mgcRole
  split <;> decide

/-- The state as both cores take roles. -/
def State.setRoles (s : State) (a x y : Nat) : State := (s.setFld (mgcRole a) 0 x).setFld (mgcRole (1 - a)) 0 y

theorem State.setRoles_spec (s : State) {a x y : Nat} (ha : a < 2) (hx : x < 4) (hy : y < 4) :
    (s.setRoles a x y).fld (mgcRole a) = x ∧ (s.setRoles a x y).fld (mgcRole (1 - a)) = y := by
  obtain ⟨-, hclear⟩ := mgcRole_apart ha
  refine ⟨(State.fld_setFld_clear _ _ _ _ _ _ hclear).trans ?_, ?_⟩
  · exact State.fld_setFld_val _ _ _ _ (mgcRole_width a).1 (by rw [(mgcRole_width a).2]; exact hx)
  · exact State.fld_setFld_val _ _ _ _ (mgcRole_width _).1 (by rw [(mgcRole_width _).2]; exact hy)

theorem State.setRoles_keeps (s : State) (a x y : Nat) : Fr 0x1 s (s.setRoles a x y) := by
  obtain ⟨ha, -, hab⟩ := mgcRole_clear a
  obtain ⟨hb, -, hbb⟩ := mgcRole_clear (1 - a)
  exact State.setFld_frame (State.setFld_frame (Fr.refl _ s) (by rw [hab]; rfl) ha) (by rw [hbb]; rfl) hb

theorem State.mgcActing_lt {s : State} {a : Nat} (h : s.mgcActing = some a) : a < 2 := by
  have hd := s.mgcActing_getD
  rw [h, Option.getD_some] at hd
  omega

/-- The core that acts is the one whose role says so, when the other's does not. -/
theorem State.mgcActing_of_role {s : State} {a : Nat} (ha : a < 2) (h : s.fld (mgcRole a) = 1) (h' : s.fld (mgcRole (1 - a)) ≠ 1) :
    s.mgcActing = some a := by
  match a with
  | 0 => exact if_pos h
  | 1 => exact (if_neg h').trans (if_pos h)

theorem State.mgcActing_of_none {s : State} {a : Nat} (ha : a < 2) (h : s.fld (mgcRole a) ≠ 1) (h' : s.fld (mgcRole (1 - a)) ≠ 1) :
    s.mgcActing = none := by
  match a with
  | 0 => exact (if_neg h).trans (if_neg h')
  | 1 => exact (if_neg h').trans (if_neg h)

/-- Whether the other core has firmware it can run. -/
def State.coreImageGood (s : State) (flash : Bytes) : Bool :=
  s.boot.trustedGood || (match s.verifyImage flash with
    | .accept _ => true
    | _ => false)

/-- The acting core hangs, and the other takes over. -/
theorem State.mgcHang_taken {s : State} {a cause : Nat} {flash : Bytes} (hact : s.mgcActing = some a) (hb : s.fld (mgcRole (1 - a)) = 2)
    (hfw : s.boot.trustedGood = true) : s.mgcHang cause true flash =
      ((s.setRoles (1 - a) 1 2).bump Reg.MGT_MGC_STATUS_TAKEOVERS).raise Ev.MGC_TAKEOVER (1 - a) (a + cause * 2 ^ 4) := by
  have ha := State.mgcActing_lt hact
  unfold State.mgcHang State.setRoles
  rw [hact]
  dsimp only
  rw [if_pos ⟨hb, rfl, by rw [hfw]; rfl⟩, show 1 - (1 - a) = a by omega]

/-- The acting core hangs, and no other takes over. -/
theorem State.mgcHang_lost {s : State} {a cause : Nat} {ready : Bool} {flash : Bytes} (hact : s.mgcActing = some a)
    (hno : ¬ (s.fld (mgcRole (1 - a)) = 2 ∧ ready = true ∧ s.coreImageGood flash = true)) : s.mgcHang cause ready flash =
      ({ s.setRoles a 3 (if s.coreImageGood flash then 0 else 3) with
        mgmt := { s.mgmt with down := true } } : State).raise Ev.MGMT_DOWN 0 0 := by
  unfold State.mgcHang
  rw [hact]
  exact if_neg hno

/-- What such a loss leaves. -/
theorem State.mgcHang_lost_spec {s : State} {a cause : Nat} {ready : Bool} {flash : Bytes} (hact : s.mgcActing = some a)
    (hno : ¬ (s.fld (mgcRole (1 - a)) = 2 ∧ ready = true ∧ s.coreImageGood flash = true)) :
    (s.mgcHang cause ready flash).fld (mgcRole (1 - a)) = (if s.coreImageGood flash then 0 else 3) ∧
    (s.mgcHang cause ready flash).fld (mgcRole a) = 3 ∧ (s.mgcHang cause ready flash).mgcActing = none ∧
    (s.mgcHang cause ready flash).mgmt.down = true := by
  have ha := State.mgcActing_lt hact
  rw [State.mgcHang_lost hact hno]
  have hrole : (if s.coreImageGood flash then 0 else 3) < 4 ∧ (if s.coreImageGood flash then 0 else 3) ≠ 1 := by
    split <;> decide
  generalize (if s.coreImageGood flash then 0 else 3) = y at hrole
  obtain ⟨h3, hy⟩ := s.setRoles_spec (x := 3) ha (by decide) hrole.1
  generalize hu : ({ s.setRoles a 3 y with mgmt := { s.mgmt with down := true } } : State) = u
  have hfld (f : Fld) (hc : countsEvents f.blk f.off = false) : (u.raise Ev.MGMT_DOWN 0 0).fld f = (s.setRoles a 3 y).fld f := by
    refine (State.fld_raise _ _ _ _ _ _ _ _ hc).trans ?_
    rw [← hu]
    rfl
  have hother := (hfld _ (mgcRole_clear (1 - a)).1).trans hy
  have hself := (hfld _ (mgcRole_clear a).1).trans h3
  obtain ⟨al, cs, hm⟩ := u.mgmtReports_raise Ev.MGMT_DOWN 0 0
  refine ⟨hother, hself, State.mgcActing_of_none ha (by rw [hself]; decide) (by rw [hother]; exact hrole.2), ?_⟩
  rw [hm, ← hu]

/-- The first core that starts acts. -/
theorem State.mgcRetry_first {s : State} (h : s.mgmt.down = true) (ok : Bool) :
    s.mgcRetry true ok = ({ s with mgmt := { s.mgmt with down := false } } : State).setRoles 0 1 (if ok then 2 else 3) := by
  unfold State.mgcRetry
  rw [h]
  rfl

theorem State.mgcRetry_second {s : State} (h : s.mgmt.down = true) :
    s.mgcRetry false true = ({ s with mgmt := { s.mgmt with down := false } } : State).setRoles 0 3 1 := by
  unfold State.mgcRetry
  rw [h]
  rfl

theorem State.mgcRetry_idle {s : State} {a b : Bool} (h : s.mgmt.down = false ∨ (a = false ∧ b = false)) : s.mgcRetry a b = s := by
  unfold State.mgcRetry
  rcases h with h | ⟨rfl, rfl⟩
  · rw [h]
    rfl
  · exact ite_self s

/-! ### The I3C target -/

/-- The target takes a transfer at its address. -/
theorem State.i3cTransfer_taken {s : State} (h : s.i3cAnswers = true) (idx : Nat) :
    (∀ n, s.i3cTransfer s.i3cAddress idx (.read n) = s.emit (.i3cData (sliceB s.i3cFile idx n))) ∧
    ∀ x, s.i3cTransfer s.i3cAddress idx (.write [x]) = s.i3cWrite1 idx x := by
  unfold State.i3cTransfer
  rw [h, bne_self_eq_false]
  exact ⟨fun n => rfl, fun x => rfl⟩

theorem State.i3cTransfer_ignored {s : State} {addr idx : Nat} {x : I3cData} (h : s.i3cAnswers = false ∨ addr ≠ s.i3cAddress) :
    s.i3cTransfer addr idx x = s := by
  unfold State.i3cTransfer
  refine if_pos ?_
  rcases h with h | h
  · rw [h]
    rfl
  · rw [bne_iff_ne.2 h, Bool.or_true]

theorem State.i3cWrite1_other {s : State} {idx : Nat} {x : Byte} (h5 : idx ≠ 0x25) (h4 : idx ≠ 0x24 ∨ x ≠ 0xA5) : s.i3cWrite1 idx x = s := by
  unfold State.i3cWrite1
  rw [if_neg (fun h => h4.elim (absurd h.1) (absurd h.2)), if_neg (fun h => h5 h.1)]

/-! ### The management Ethernet port -/

theorem State.mgeFrame_down {s : State} (h : s.mgeUp = false) (f : MgeFrame) : s.mgeFrame f = s := by
  unfold State.mgeFrame
  dsimp only
  rw [h]
  rfl

/-- A port in service. -/
theorem State.mgeFrame_up {s : State} (h : s.mgeUp = true) :
    (∀ b, s.mgeFrame (.neighbourSolicit b) = if b then s.emit .mgeReply else s.bump Reg.MGT_MGE_DROPPED_COUNT) ∧
    (∀ b, s.mgeFrame (.echo b) = if b then s.emit .mgeReply else s.bump Reg.MGT_MGE_DROPPED_COUNT) ∧
    (∀ m, s.mgeFrame (.ptp m) = s.ptpMessage m) ∧ s.mgeFrame .lldp = s ∧ s.mgeFrame .other = s.bump Reg.MGT_MGE_DROPPED_COUNT := by
  unfold State.mgeFrame
  dsimp only
  rw [h]
  exact ⟨fun _ => rfl, fun _ => rfl, fun _ => rfl, rfl, rfl⟩

theorem State.mgeFrame_solicit {s : State} (h : s.mgeUp = true) (peer : Nat) :
    s.mgeFrame (.solicit peer) =
      if s.flag Reg.MGT_MGE_CFG_SERVE_IMAGE = true ∧ (s.mgmt.mgePeers.length < 4 ∨ peer ∈ s.mgmt.mgePeers) then
        ({ s with mgmt := { s.mgmt with mgePeers := withElem s.mgmt.mgePeers peer } } : State).emit (.mgeOffer peer)
      else s.bump Reg.MGT_MGE_DROPPED_COUNT := by
  unfold State.mgeFrame
  dsimp only
  rw [h]
  simp only [Bool.not_true, Bool.false_eq_true, if_false, Bool.and_eq_true, Bool.or_eq_true, decide_eq_true_eq, List.contains_iff_mem]

theorem State.mgeFrame_tftp {s : State} (h : s.mgeUp = true) (peer block : Nat) (last : Bool) :
    s.mgeFrame (.tftp peer block last) =
      if peer ∈ s.mgmt.mgePeers then
        if last then { s.emit (.mgeTftp peer block) with mgmt := { s.mgmt with mgePeers := without s.mgmt.mgePeers peer } }
        else s.emit (.mgeTftp peer block)
      else s.bump Reg.MGT_MGE_DROPPED_COUNT := by
  unfold State.mgeFrame
  dsimp only
  rw [h]
  simp only [Bool.not_true, Bool.false_eq_true, if_false, List.contains_iff_mem]
  rfl

theorem not_mem_without {α : Type} [DecidableEq α] (l : List α) (a : α) : a ∉ without l a := by
  unfold without
  simp

/-! ### Requests of a virtual function -/

/-- A request of the PF alone that a virtual function submits. -/
theorem State.mgmtPF_refused {s : State} {k : OpKey} {o : Op} (h : s.Ready k o) {req : Nat} (hw : isMgmt req o.desc = true) (hfn : o.fn ≠ 0)
    (body : Op → State → State) : (s.mgmtPF k req body).endedWith k stNOT_PERMITTED = true ∧ SameBut [.hif] s (s.mgmtPF k req body) := by
  have hrun : s.mgmtPF k req body = (s.setOp o.started).finish k stNOT_PERMITTED := by
    rw [State.mgmtPF, State.start_ready h hw]
    exact if_neg hfn
  obtain ⟨hend, hfr⟩ := h.finish_spec stNOT_PERMITTED 0 0
  rw [hrun]
  obtain ⟨-, rfl, -⟩ := h
  exact ⟨hend, hfr.within (ps := [.hif]) (by decide +kernel)⟩

/-! ### The rows -/

/-- Settles O27: roles change hands by two fields of one register; each port's answer is one equation per kind of frame. -/
theorem managementCoreRows : Obligations.ManagementCoreRows := by
  refine ⟨?_, ?_, ?_, ?_, ?_, ?_, ?_, ?_, ?_, ?_, ?_, ?_, ?_, ?_, ?_, ?_, ?_, ?_, ?_, ?_, ?_, ?_⟩
  case refine_1 =>
    intro s a cause flash hp hact hb hfw
    have ha := State.mgcActing_lt hact
    refine ⟨_, rfl, ?_⟩
    beta_reduce
    rw [State.inAon_on hp, State.mgcHang_taken hact hb hfw]
    obtain ⟨h1, h2⟩ := s.setRoles_spec (a := 1 - a) (x := 1) (y := 2) (by omega) (by decide) (by decide)
    rw [show 1 - (1 - a) = a by omega] at h2
    have hkeep := s.setRoles_keeps (1 - a) 1 2
    have hcount : (s.setRoles (1 - a) 1 2).fld Reg.MGT_MGC_STATUS_TAKEOVERS = s.fld Reg.MGT_MGC_STATUS_TAKEOVERS := by
      have hclear (b : Nat) : Fld.clearOf (mgcRole b) Reg.MGT_MGC_STATUS_TAKEOVERS = true := by
        unfold mgcRole
        split <;> decide
      exact (State.fld_setFld_clear _ _ _ _ _ _ (hclear _)).trans (State.fld_setFld_clear _ _ _ _ _ _ (hclear _))
    generalize s.setRoles (1 - a) 1 2 = u at h1 h2 hkeep hcount
    have hbump : Fr 0x1 s (u.bump Reg.MGT_MGC_STATUS_TAKEOVERS) := State.setFld_frame hkeep rfl rfl
    have hrole (b : Nat) : ((u.bump Reg.MGT_MGC_STATUS_TAKEOVERS).raise Ev.MGC_TAKEOVER (1 - a) (a + cause * 2 ^ 4)).fld (mgcRole b) = u.fld (mgcRole b) := by
      refine (State.fld_raise _ _ _ _ _ _ _ _ (mgcRole_clear b).1).trans (State.fld_bump_clear _ _ _ _ _ _ ?_)
      unfold mgcRole
      split <;> decide
    refine ⟨(hrole _).trans h1, (hrole _).trans h2, ?_, ?_, ?_, State.evr_raise_congr (hbump.recordsAlike ⟨rfl, rfl, rfl, rfl⟩) _ _ _⟩
    · refine State.mgcActing_of_role (by omega) ((hrole _).trans h1) ?_
      rw [show 1 - (1 - a) = a by omega, hrole, h2]
      decide
    · refine (State.fld_raise _ _ _ _ _ _ _ _ rfl).trans ((State.fld_bump_sat _ _ _ _ (by decide)).trans ?_)
      rw [hcount]
      rfl
    · obtain ⟨al, cs, hm⟩ := (u.bump Reg.MGT_MGC_STATUS_TAKEOVERS).mgmtReports_raise Ev.MGC_TAKEOVER (1 - a) (a + cause * 2 ^ 4)
      rw [hm, hbump.mgmt_eq rfl]
  case refine_2 =>
    intro s a cause ready flash hp hact hfw hno
    refine ⟨_, rfl, ?_⟩
    beta_reduce
    have hgood : s.coreImageGood flash = true := by
      rw [State.coreImageGood, hfw]
      rfl
    have hlost : ¬ (s.fld (mgcRole (1 - a)) = 2 ∧ ready = true ∧ s.coreImageGood flash = true) :=
      fun h => hno.elim (fun hr => by rw [hr] at h; exact absurd h.2.1 (by decide)) (fun hr => hr h.1)
    have hspec := State.mgcHang_lost_spec (cause := cause) hact hlost
    rw [hgood] at hspec
    rw [State.inAon_on hp]
    exact hspec
  case refine_3 =>
    intro s a cause ready flash hp hact hfw himg
    refine ⟨_, rfl, ?_⟩
    beta_reduce
    have hbad : s.coreImageGood flash = false := by
      rw [State.coreImageGood, hfw]
      exact himg
    have hlost : ¬ (s.fld (mgcRole (1 - a)) = 2 ∧ ready = true ∧ s.coreImageGood flash = true) := by
      rw [hbad]
      exact fun h => absurd h.2.2 (by decide)
    have hspec := State.mgcHang_lost_spec (cause := cause) hact hlost
    rw [hbad] at hspec
    rw [State.inAon_on hp]
    exact hspec
  case refine_4 =>
    intro s cause ready flash hact
    have hsame : s.mgcHang cause ready flash = s := by
      unfold State.mgcHang
      rw [hact]
    exact ⟨_, rfl, State.inAon_of_same hsame⟩
  case refine_5 =>
    intro s ok hp hdown
    refine ⟨_, rfl, ?_⟩
    beta_reduce
    rw [State.inAon_on hp, State.mgcRetry_first hdown]
    have hrole : (if ok then 2 else 3) < 4 ∧ (if ok then 2 else 3) ≠ 1 := by cases ok <;> decide
    generalize (if ok then 2 else 3) = y at hrole
    obtain ⟨h0, h1⟩ := ({ s with mgmt := { s.mgmt with down := false } } : State).setRoles_spec (a := 0) (x := 1) (by decide) (by decide) hrole.1
    exact ⟨rfl, State.mgcActing_of_role (by decide) h0 (by rw [h1]; exact hrole.2), h1⟩
  case refine_6 =>
    intro s hp hdown
    refine ⟨_, rfl, ?_⟩
    beta_reduce
    rw [State.inAon_on hp, State.mgcRetry_second hdown]
    obtain ⟨h0, h1⟩ := ({ s with mgmt := { s.mgmt with down := false } } : State).setRoles_spec (a := 0) (x := 3) (y := 1) (by decide) (by decide) (by decide)
    exact ⟨rfl, State.mgcActing_of_role (a := 1) (by decide) h1 (by rw [h0]; decide), h0⟩
  case refine_7 => exact fun s a b h => ⟨_, rfl, State.inAon_of_same (State.mgcRetry_idle h)⟩
  case refine_8 => exact fun s addr ibi => ⟨_, rfl, rfl⟩
  case refine_9 => exact fun s idx n h => ⟨_, rfl, (State.i3cTransfer_taken h idx).1 n⟩
  case refine_10 =>
    intro s x h
    refine ⟨_, rfl, ((State.i3cTransfer_taken h _).2 x).trans ?_⟩
    unfold State.i3cWrite1
    rw [if_neg (fun h => absurd h.1 (by decide))]
    simp only [true_and]
  case refine_11 =>
    intro s h
    refine ⟨_, rfl, ((State.i3cTransfer_taken h _).2 _).trans ?_⟩
    unfold State.i3cWrite1
    rw [if_pos ⟨rfl, rfl⟩, State.alertAck]
  case refine_12 =>
    intro s idx x h5 h4
    refine ⟨_, rfl, ?_⟩
    cases hans : s.i3cAnswers with
    | false => exact State.i3cTransfer_ignored (.inl hans)
    | true => exact ((State.i3cTransfer_taken hans idx).2 x).trans (State.i3cWrite1_other h5 h4)
  case refine_13 => exact fun s addr idx x h => ⟨_, rfl, State.i3cTransfer_ignored h⟩
  case refine_14 =>
    intro s
    refine ⟨_, rfl, ?_⟩
    cases hans : s.i3cAnswers with
    | false =>
      refine State.inAon_of_same ?_
      rw [hans]
      rfl
    | true =>
      have hp : s.boot.porst = false := by
        rw [State.i3cAnswers, Bool.and_eq_true, Bool.and_eq_true, Bool.not_eq_true'] at hans
        exact hans.1.1
      rw [State.inAon_on hp, hans]
      rfl
  case refine_15 =>
    intro s f hup hf
    obtain ⟨hsol, hecho, -⟩ := State.mgeFrame_up hup
    rcases hf with rfl | rfl
    · exact ⟨_, rfl, hecho true⟩
    · exact ⟨_, rfl, hsol true⟩
  case refine_16 =>
    intro s f m hup hf
    obtain ⟨-, -, hptp, hlldp, -⟩ := State.mgeFrame_up hup
    rcases hf with rfl | ⟨rfl, hm⟩
    · exact ⟨_, rfl, hlldp⟩
    · exact ⟨_, rfl, (hptp m).trans (State.ptpMessage_ignored (hm.imp_right Or.inl))⟩
  case refine_17 =>
    intro s m hup hd hk hmech
    obtain ⟨-, -, hptp, -⟩ := State.mgeFrame_up hup
    refine ⟨_, rfl, ?_⟩
    have hreply := (hptp m).trans (State.ptpMessage_request (peer := false) hd hk)
    rw [if_pos (show _ = bit false from hmech)] at hreply
    exact ⟨_, hreply⟩
  case refine_18 =>
    intro s peer hup hserve hpeer
    refine ⟨_, rfl, ?_⟩
    rw [State.mgeFrame_solicit hup, if_pos ⟨hserve, hpeer⟩]
    have hfr : Fr 0x8000010000000 s (({ s with mgmt := { s.mgmt with mgePeers := withElem s.mgmt.mgePeers peer } } : State).emit (.mgeOffer peer)) :=
      State.emit_fr (Fr.mgmt_ (Fr.refl _ s) rfl) rfl
    exact ⟨mem_withElem_self _ _, rfl, hfr.within (ps := [.mgmt, .out]) (by decide +kernel)⟩
  case refine_19 =>
    intro s peer block last hup hpeer
    refine ⟨_, rfl, ?_⟩
    rw [State.mgeFrame_tftp hup, if_pos hpeer]
    have hfr : Fr 0x8000010000000 s (s.emit (.mgeTftp peer block)) := State.emit_fr (Fr.refl _ s) rfl
    cases last with
    | false => exact ⟨fun h => absurd h (by decide), rfl, hfr.within (ps := [.mgmt, .out]) (by decide +kernel)⟩
    | true =>
      have hfr' : Fr 0x8000010000000 s { s.emit (.mgeTftp peer block) with mgmt := { s.mgmt with mgePeers := without s.mgmt.mgePeers peer } } :=
        Fr.mgmt_ hfr rfl
      exact ⟨fun _ => not_mem_without _ _, rfl, hfr'.within (ps := [.mgmt, .out]) (by decide +kernel)⟩
  case refine_20 =>
    intro s f peer block last hup hf
    refine ⟨_, rfl, ?_⟩
    obtain ⟨hsol, hecho, -, -, hother⟩ := State.mgeFrame_up hup
    have hdrop : s.mgeFrame f = s.bump Reg.MGT_MGE_DROPPED_COUNT := by
      rcases hf with rfl | rfl | rfl | ⟨rfl, hno⟩ | ⟨rfl, hno⟩
      · exact hecho false
      · exact hsol false
      · exact hother
      · refine (State.mgeFrame_solicit hup peer).trans (if_neg ?_)
        rintro ⟨hserve, hpeer⟩
        rcases hno with hno | ⟨hlen, hpeer'⟩
        · exact absurd hserve (by rw [hno]; decide)
        · exact hpeer.elim (fun h => absurd h (Nat.not_lt.2 hlen)) hpeer'
      · exact (State.mgeFrame_tftp hup peer block last).trans (if_neg hno)
    exact ⟨hdrop, (congrArg (fun t : State => t.fld Reg.MGT_MGE_DROPPED_COUNT) hdrop).trans (State.fld_bump_sat _ _ _ _ (by decide))⟩
  case refine_21 => exact fun s f h => ⟨_, rfl, State.mgeFrame_down h f⟩
  case refine_22 =>
    intro s op o x req c hready hfn hw hc
    have hrefused (body : Op → State → State) (hexec : exec c s = .next (s.mgmtPF op req body)) :
        Completes c s fun t => t.endedWith op stNOT_PERMITTED = true ∧ SameBut [.hif] s t := ⟨_, hexec, State.mgmtPF_refused hready hw hfn body⟩
    simp only [List.mem_cons, List.not_mem_nil, or_false, Prod.mk.injEq] at hc
    rcases hc with ⟨rfl, rfl⟩ | ⟨rfl, rfl⟩ | ⟨rfl, rfl⟩ | ⟨rfl, rfl⟩ | ⟨rfl, rfl⟩ | ⟨rfl, rfl⟩ | ⟨rfl, rfl⟩ | ⟨rfl, rfl⟩ | ⟨rfl, rfl⟩ | ⟨rfl, rfl⟩ |
      ⟨rfl, rfl⟩ | ⟨rfl, rfl⟩ | ⟨rfl, rfl⟩ | ⟨rfl, rfl⟩ | ⟨rfl, rfl⟩
    all_goals exact hrefused _ rfl

end Sys2Proof.Machine


/-!
PROOFS. Link-level retry (R250): a frame held in a sett that is not allocated.
-/

namespace Sys2Proof.Machine

/-- The block in service with port 0 running link-level retry, whose one held frame names a sett that is not allocated, and with the
I3C target allowed to interrupt. -/
def holdWithoutSett : State :=
  let s : State := { State.reset with boot := { State.reset.boot with porst := false, railOrder := [0, 1, 2, 3, 4, 5, 6, 7] } }
  let u := (s.setFld Reg.MGT_READINESS_STAGE 0 9).setFld Reg.MGT_CON_CFG_CON_SEV 0 7
  { u with
    mgmt := { u.mgmt with ibiEnabled := true, i3cDyn := some 80 }
    swc := { u.swc with llr := [(0, { active := true, held := [(0, [], [7])] })] } }

/-- The release is a reference fault, which the I3C target reports at once. -/
theorem llrAck_holdWithoutSett : (holdWithoutSett.inPool fun s => if (s.llrOf 0).active then (s.llrRelease 0 0).llrFar 0 0 else s).out =
    [Out.ibi Ev.SETT_REFCOUNT_FAULT] := by
  decide +kernel

/-- Refutes O44: an LLR_ACK that releases a held frame whose sett is not allocated causes SETT_REFCOUNT_FAULT, and with alerts
enabled its in-band interrupt is one more output, where the statement says that nothing is put out. -/
theorem not_llrRows : ¬ Obligations.LlrRows := by
  unfold Obligations.LlrRows
  rintro ⟨-, -, -, -, -, -, -, h, -⟩
  obtain ⟨t, ht, -, -, hout⟩ := h holdWithoutSett 0 0 0 (by decide +kernel) rfl rfl
  rw [← Host.Outcome.next.inj ht] at hout
  exact absurd (llrAck_holdWithoutSett.symm.trans hout) (by decide)

end Sys2Proof.Machine


/-!
PROOFS. Transport sending (R187, R189, R244): a packet that finds no setts, and the free that its own refusal causes.
-/

namespace Sys2Proof.Machine

/-- The packet at the front of context 0, whose frame needs more than one sett. -/
def widePacket : SendItem := { head := [], payload := zeros 250 }

def waitingContext : Ctx := { queue := [widePacket] }

/-- The core in service with that context open and cached. Requester 144 may use one sett, and its raised minimum lacks one, which
the next free is to set aside. -/
def raiseLacksSett : State :=
  let s : State := { State.reset with boot := { State.reset.boot with porst := false, railOrder := [0, 1, 2, 3, 4, 5, 6, 7] } }
  let u := (s.setFld Reg.SETT_QMIN_SETTS 144 10).setFld Reg.SETT_QMAX_SETTS 144 1
  { u with
    sett := { u.sett with lacks := [⟨144, 0, 1, 10, 1⟩] }
    tpt := { u.tpt with ctxs := [(0, waitingContext)], cacheBow := [0] } }

/-- The setts of the refused attempt come free, the minimum gets what it lacks, and the packet leaves when it is tried again. -/
theorem transportSend_raiseLacksSett : (raiseLacksSett.inPool fun s => s.transportSend 0).tpt.parked.length = 0 := by
  decide +kernel

/-- Refutes O41: where a send is refused setts, those that its own attempt held come free again; when a raised minimum still lacks
setts they go there, so that the retry at that free succeeds and nothing waits. -/
theorem not_sendRows : ¬ Obligations.SendRows := by
  unfold Obligations.SendRows
  rintro ⟨-, -, h, -⟩
  obtain ⟨t, ht, hparked, -⟩ := h raiseLacksSett 0 waitingContext widePacket [] (by decide +kernel) rfl rfl rfl rfl (by decide +kernel) rfl rfl
    (by decide +kernel)
  rw [← Host.Outcome.next.inj ht] at hparked
  exact absurd (transportSend_raiseLacksSett.symm.trans (congrArg List.length hparked)) (by decide)

end Sys2Proof.Machine


/-!
PROOFS. Key exchanges (R442 to R448): what the steps of an exchange leave of the link, and the commands that run them.
-/

namespace Sys2Proof.Machine

/-- A command that leaves the state, with or without the core. -/
theorem State.inCore_of_same {s : State} {f : State → State} (h : f s = s) : s.inCore f = s := by
  rw [State.inCore, h, ite_self]

/-! ### The link under the operations of an exchange -/

@[simp] theorem State.link_setLink (s : State) (l : Nat) (x : SecLink) : (s.setLink l x).link l = x := AMap.getD_put_self _ _ _ _

theorem State.link_congr {s t : State} (h : t.lsc = s.lsc) (l : Nat) : t.link l = s.link l := by rw [State.link, h, State.link]

@[simp] theorem State.link_kexSend (s : State) (l k : Nat) (m : Bytes) : (s.kexSend l m).link k = s.link k :=
  State.link_congr ((State.kexSend_fr (Fr.refl _ s) (Sub.refl _)).lsc_eq rfl) k

@[simp] theorem State.link_showLink (s : State) (l k : Nat) : (s.showLink l).link k = s.link k :=
  State.link_congr ((State.showLink_fr (Fr.refl _ s) (Sub.refl _)).lsc_eq rfl) k

@[simp] theorem State.link_lscCount (s : State) (l c k : Nat) : (s.lscCount l c).link k = s.link k :=
  State.link_congr ((State.lscCount_fr (Fr.refl _ s) (Sub.refl _)).lsc_eq rfl) k

@[simp] theorem State.link_raise (s : State) (c i d k : Nat) : (s.raise c i d).link k = s.link k :=
  State.link_congr ((s.raise_keeps c i d).lsc_eq rfl) k

theorem State.kexSend_port {l : Nat} (h : isLineLink l = false) (s : State) (m : Bytes) : s.kexSend l m = s.emit (.kex l m) := by
  rw [State.kexSend, h]
  rfl

theorem State.out_kexSend {l : Nat} (h : isLineLink l = false) (s : State) (m : Bytes) : (s.kexSend l m).out = s.out ++ [.kex l m] := by
  rw [State.kexSend_port h]
  rfl

theorem State.out_showLink (s : State) (l : Nat) : (s.showLink l).out = s.out :=
  (State.showLink_fr (Fr.refl _ s) (Sub.refl _)).out_eq rfl

theorem State.out_lscCount (s : State) (l c : Nat) : (s.lscCount l c).out = s.out :=
  (State.lscCount_fr (Fr.refl _ s) (Sub.refl _)).out_eq rfl

theorem State.lscStat_kexSend (s : State) (l i : Nat) (m : Bytes) :
    (s.kexSend l m).fld Reg.LSC_STAT_VALUE_VALUE i = s.fld Reg.LSC_STAT_VALUE_VALUE i :=
  (State.kexSend_fr (Fr.refl _ s) (Sub.refl _)).fld_eq _ _ rfl rfl

theorem State.lscStat_showLink (s : State) (l i : Nat) :
    (s.showLink l).fld Reg.LSC_STAT_VALUE_VALUE i = s.fld Reg.LSC_STAT_VALUE_VALUE i := by
  unfold State.showLink
  dsimp only
  rw [State.fld_setFld_clear _ _ _ _ _ _ (by decide), State.fld_setFlag_clear _ _ _ _ _ _ (by decide),
    State.fld_setFld_clear _ _ _ _ _ _ (by decide), State.fld_setFld_clear _ _ _ _ _ _ (by decide)]

/-- A count of a link. -/
theorem State.lscStat_lscCount (s : State) (l c : Nat) :
    (s.lscCount l c).fld Reg.LSC_STAT_VALUE_VALUE (l + c * 1024) = min 0xFFFFFFFF (s.fld Reg.LSC_STAT_VALUE_VALUE (l + c * 1024) + 1) :=
  State.fld_bump_sat _ Reg.LSC_STAT_VALUE_VALUE _ 1 (by decide)

/-- A link whose exchange failed is shown so. -/
theorem State.linkStatus_showLink_failed {s : State} {l : Nat} (h : (s.link l).failed = true) :
    (s.showLink l).fld Reg.LSC_LINK_STATUS_STATE l = 4 := by
  unfold State.showLink
  dsimp only
  rw [h]
  rw [State.fld_setFld_clear _ _ _ _ _ _ (by decide), State.fld_setFlag_clear _ _ _ _ _ _ (by decide),
    State.fld_setFld_clear _ _ _ _ _ _ (by decide), if_pos rfl]
  exact State.fld_setFld_val _ Reg.LSC_LINK_STATUS_STATE _ _ (by decide) (by decide)

theorem State.linkPrev_showLink (s : State) (l : Nat) :
    (s.showLink l).flag Reg.LSC_LINK_STATUS_PREV l = (s.link l).prev.isSome := by
  unfold State.showLink
  dsimp only
  rw [State.flag_setFld_clear _ _ _ _ _ _ (by decide)]
  exact State.flag_setFlag_self _ Reg.LSC_LINK_STATUS_PREV _ _ (by decide) rfl

/-! ### A received message and its checks -/

section
variable {s : State} {l typ : Nat} {m : Bytes} {act : State → State}

theorem State.kexReceive_good (hl : l < 592) (he : s.encrypts l = true) (ht : kType m = typ) (hg : kGood m = true) :
    s.kexReceive l typ m act = act s := by
  unfold State.kexReceive
  rw [he, ht, hg, decide_eq_false (Nat.not_le.mpr hl), if_neg (by decide), if_neg (by simp)]

theorem State.kexReceive_bad (hl : l < 592) (he : s.encrypts l = true) (hg : kGood m = false) :
    s.kexReceive l typ m act = s.lscCount l 3 := by
  unfold State.kexReceive
  rw [he, hg, decide_eq_false (Nat.not_le.mpr hl), if_neg (by decide), if_pos (by simp)]

theorem State.kexReceive_closed (h : 592 ≤ l ∨ s.encrypts l = false) : s.kexReceive l typ m act = s := by
  unfold State.kexReceive
  rcases h with h | h
  · rw [decide_eq_true h, Bool.true_or, if_pos rfl]
  · rw [h, Bool.not_false, Bool.or_true, if_pos rfl]

/-- A message of the right type is acted on when its check is good, and otherwise counted. -/
theorem State.kexReceive_spec (hco : s.coreOff = false) (hl : l < 592) (he : s.encrypts l = true) (ht : kType m = typ) :
    (kGood m = true → s.inCore (fun s => s.kexReceive l typ m act) = act s) ∧
      (kGood m = false → s.inCore (fun s => s.kexReceive l typ m act) = s.lscCount l 3) := by
  rw [State.inCore_on hco]
  exact ⟨State.kexReceive_good hl he ht, State.kexReceive_bad hl he⟩

end

/-! ### Steps of an exchange -/

section
variable {s : State} {l : Nat} {m : Bytes}

/-- An exchange that starts leaves the link with the initiator's part of it. -/
theorem State.link_kexStart (e : Nat) (h : s.linkSuspended l = false) : ∃ ni msg, (s.kexStart l e).link l =
    { s.link l with due := false, kex := some { initiator := true, epoch := e, nonceI := ni, msg := msg }, failed := false } := by
  unfold State.kexStart
  rw [h, if_neg (by decide)]
  dsimp only
  rw [State.link_showLink, State.link_kexSend, State.link_setLink]
  exact ⟨_, _, rfl⟩

theorem State.kexNext_starts (he : s.encrypts l = true) (hk : (s.link l).kex = none) : s.kexNext l = s.kexStart l ((s.link l).epoch + 1) := by
  unfold State.kexNext
  dsimp only
  rw [he, hk]
  rfl

theorem State.kexNext_idle (h : s.encrypts l = false ∨ (s.link l).kex.isSome = true) : s.kexNext l = s := by
  unfold State.kexNext
  dsimp only
  rcases h with h | h
  · rw [h]
    rfl
  · obtain ⟨k, hk⟩ := Option.isSome_iff_exists.mp h
    rw [hk, Option.isNone_some, Bool.and_false]
    rfl

/-- The exchange for the next epoch, where one may start. -/
theorem State.link_kexNext (he : s.encrypts l = true) (hk : (s.link l).kex = none) (hs : s.linkSuspended l = false) : ∃ ni msg,
    (s.kexNext l).link l = { s.link l with
      due := false, kex := some { initiator := true, epoch := (s.link l).epoch + 1, nonceI := ni, msg := msg }, failed := false } := by
  rw [State.kexNext_starts he hk]
  exact State.link_kexStart _ hs

/-- An OFFER taken up (R443 step 2). -/
theorem State.kexAccept_spec (s : State) (l : Nat) (m : Bytes) : ∃ k : Kex, ∃ rx tx : Assoc, k.initiator = false ∧ k.epoch = kEpoch m ∧
    rx.an = kEpoch m % 4 ∧ tx.an = kEpoch m % 4 ∧
    (s.kexAccept l m).link l = { (s.link l).installRx rx with txNext := some tx, kex := some k, failed := false } ∧
    (isLineLink l = false → (s.kexAccept l m).out = s.out ++ [.kex l k.msg]) := by
  unfold State.kexAccept
  dsimp only
  rw [State.link_showLink, State.link_kexSend, State.link_setLink, State.out_showLink]
  exact ⟨_, _, _, rfl, rfl, rfl, rfl, rfl, fun hp => State.out_kexSend hp _ _⟩

theorem State.kexOffer_new (hk : (s.link l).kex = none) (hp : (s.link l).prev = none) (he : (s.link l).first = true ∨ kEpoch m = (s.link l).epoch + 1) :
    s.kexOffer l m = s.kexAccept l m := by
  unfold State.kexOffer
  dsimp only
  rw [hk, hp]
  dsimp only
  rw [if_neg (by decide), if_neg (by decide), if_neg (by decide), if_neg]
  rcases he with h | h
  · rw [h]
    exact Bool.false_ne_true
  · rw [h, bne_self_eq_false, Bool.and_false]
    exact Bool.false_ne_true

theorem State.kexOffer_busy (hk : (s.link l).kex = none) (hp : (s.link l).prev.isSome = true) :
    s.kexOffer l m = s.kexSend l (kexMsg s.ownGen 4 1 (s.link l).epoch l (kNonceI m) []) := by
  unfold State.kexOffer
  dsimp only
  rw [hk, hp]
  rfl

theorem State.kexOffer_epoch (hk : (s.link l).kex = none) (hp : (s.link l).prev = none) (hf : (s.link l).first = false) (he : kEpoch m ≠ (s.link l).epoch + 1) :
    s.kexOffer l m = s.kexSend l (kexMsg s.ownGen 4 2 (s.link l).epoch l (kNonceI m) []) := by
  unfold State.kexOffer
  dsimp only
  rw [hk, hp, hf]
  dsimp only
  rw [if_neg (by decide), if_neg (by decide), if_neg (by decide), if_pos (by simpa using he)]

section
variable {k : Kex} (hk : (s.link l).kex = some k)
include hk

theorem State.kexOffer_repeated (hi : k.initiator = false) (he : k.epoch = kEpoch m) (hn : k.nonceI = kNonceI m) : s.kexOffer l m = s.kexSend l k.msg := by
  unfold State.kexOffer
  dsimp only
  rw [hk]
  dsimp only
  rw [if_pos (by simp [hi, he, hn])]

theorem State.kexAccepted_other (h : k.initiator = false ∨ k.epoch ≠ kEpoch m ∨ k.nonceI ≠ kNonceI m) : s.kexAccepted l m = s := by
  unfold State.kexAccepted
  dsimp only
  rw [hk]
  refine if_neg fun hc => ?_
  simp only [Bool.and_eq_true, beq_iff_eq] at hc
  obtain ⟨⟨hi, he⟩, hn⟩ := hc
  rcases h with h | h | h
  · exact Bool.false_ne_true (h.symm.trans hi)
  · exact h he
  · exact h hn

/-- The answer to this side's OFFER (R443 step 3). -/
theorem State.kexAccepted_own (hi : k.initiator = true) (he : k.epoch = kEpoch m) (hn : k.nonceI = kNonceI m) : ∃ rx tx out rekey,
    rx.an = k.epoch % 4 ∧ tx.an = k.epoch % 4 ∧
    s.kexAccepted l m = (((s.setLink l { ((s.link l).installRx rx).switchTx tx k.epoch rekey with lastConfirm := out }).kexSend l out).lscCount l 5).showLink l := by
  unfold State.kexAccepted
  dsimp only
  rw [hk]
  dsimp only
  rw [if_pos (by simp [hi, he, hn])]
  exact ⟨_, _, _, _, rfl, rfl, rfl⟩

theorem State.kexConfirm_own {a : Assoc} (ha : (s.link l).txNext = some a) (hi : k.initiator = false) (he : k.epoch = kEpoch m) (hn : k.nonceI = kNonceI m)
    (hr : k.nonceR = kNonceR m) :
    s.kexConfirm l m = ((s.setLink l ((s.link l).switchTx a k.epoch (s.fld Reg.LSC_KEY_CFG_REKEY_S))).lscCount l 5).showLink l := by
  unfold State.kexConfirm
  rw [hk]
  dsimp only
  rw [if_pos (by simp [hi, he, hn, hr])]
  unfold State.kexSwitch
  dsimp only
  rw [hk, ha]
  dsimp only
  rw [hi, if_neg (by decide)]

theorem State.kexReject_own (hi : k.initiator = true) (hn : k.nonceI = kNonceI m) : s.kexReject l m =
    if kReason m = 2 then s.kexStart l (max (s.link l).epoch (kEpoch m) + 1) else s.setLink l { s.link l with kex := some { k with sends := 0 } } := by
  unfold State.kexReject
  dsimp only
  rw [hk]
  dsimp only
  rw [if_pos (by simp [hi, hn])]

theorem State.kexResend_again (h : k.sends < 8) :
    s.kexResend l = (s.setLink l { s.link l with kex := some { k with sends := k.sends + 1 } }).kexSend l k.msg := by
  unfold State.kexResend
  dsimp only
  rw [hk]
  exact if_pos h

theorem State.kexResend_ends (h : 8 ≤ k.sends) : s.kexResend l =
    (((s.setLink l { s.link l with kex := none, txNext := none, failed := true }).lscCount l 4).raise Ev.LINK_KEX_FAIL l k.epoch).showLink l := by
  unfold State.kexResend
  dsimp only
  rw [hk]
  exact if_neg (Nat.not_lt.mpr h)

end

theorem State.kexAccepted_none (hk : (s.link l).kex = none) (hl : (s.link l).lastConfirm = []) : s.kexAccepted l m = s := by
  unfold State.kexAccepted
  dsimp only
  rw [hk]
  dsimp only
  rw [hl, if_neg (by simp)]

theorem State.kexConfirm_none (hk : (s.link l).kex = none) : s.kexConfirm l m = s := by
  unfold State.kexConfirm
  rw [hk]

theorem State.kexReject_none (hk : (s.link l).kex = none) : s.kexReject l m = s := by
  unfold State.kexReject
  dsimp only
  rw [hk]

theorem State.kexResend_none (hk : (s.link l).kex = none) : s.kexResend l = s := by
  unfold State.kexResend
  dsimp only
  rw [hk]

theorem State.retirePrev_some {a : Assoc} (h : (s.link l).prev = some a) :
    s.retirePrev l = (s.setLink l { s.link l with prev := none, retired := withElem (s.link l).retired a.an }).showLink l := by
  unfold State.retirePrev
  dsimp only
  rw [h]

theorem State.retirePrev_none (h : (s.link l).prev = none) : s.retirePrev l = s := by
  unfold State.retirePrev
  dsimp only
  rw [h]

end

/-- The failure of an exchange is recorded after the link and its count have changed. -/
theorem State.records_kexResend_ends {s : State} {l : Nat} {k : Kex} (hk : (s.link l).kex = some k) (h : 8 ≤ k.sends) :
    s.Records (s.kexResend l) Ev.LINK_KEX_FAIL l k.epoch := by
  rw [State.Records, State.kexResend_ends hk h]
  have hfr : Fr 0x2000080000 s ((s.setLink l { s.link l with kex := none, txNext := none, failed := true }).lscCount l 4) :=
    State.lscCount_fr (State.setLink_fr (Fr.refl _ s) (Sub.after (Sub.refl _) rfl)) (Sub.after (Sub.refl _) rfl)
  exact ((State.showLink_fr (Fr.refl _ _) (Sub.refl _)).evr_eq rfl).trans (State.evr_raise_congr (hfr.recordsAlike ⟨rfl, rfl, rfl, rfl⟩) _ _ _)

/-- Settles O50, clause by clause: a received message by its checks and its step, a timer by its step. -/
theorem keyRows : Obligations.KeyRows := by
  unfold Obligations.KeyRows
  refine ⟨?_, ?_, ?_, ?_, ?_, ?_, ?_, ?_, ?_, ?_, ?_, ?_, ?_, ?_, ?_, ?_, ?_, ?_, ?_, ?_, ?_, ?_, ?_, ?_, ?_, ?_, ?_⟩
  case refine_1 =>
    intro s l m hco hl he ht hk hp hf
    obtain ⟨hgood, hbad⟩ := State.kexReceive_spec (act := fun s => s.kexOffer l m) hco hl he ht
    refine ⟨_, rfl, fun hg => ?_, hbad⟩
    obtain ⟨k, rx, tx, hi, hke, hrx, htx, hlink, hout⟩ := s.kexAccept_spec l m
    beta_reduce
    rw [hgood hg, State.kexOffer_new hk hp hf, hlink]
    refine ⟨?_, rfl, rfl, ?_, rfl, ?_, fun hport => ?_⟩
    · exact congrArg some hrx
    · exact congrArg some htx
    · exact congrArg some (Prod.ext hi hke)
    · exact hout hport
  case refine_2 =>
    intro s l m hco hl he ht hk hp
    obtain ⟨hgood, hbad⟩ := State.kexReceive_spec (act := fun s => s.kexOffer l m) hco hl he ht
    exact ⟨_, rfl, fun hport hg => (hgood hg).trans ((State.kexOffer_busy hk hp).trans (State.kexSend_port hport _ _)), hbad⟩
  case refine_3 =>
    intro s l m hco hl he ht hk hp hf hne
    obtain ⟨hgood, hbad⟩ := State.kexReceive_spec (act := fun s => s.kexOffer l m) hco hl he ht
    exact ⟨_, rfl, fun hport hg => (hgood hg).trans ((State.kexOffer_epoch hk hp hf hne).trans (State.kexSend_port hport _ _)), hbad⟩
  case refine_4 =>
    intro s l m k hco hl he ht hk hi hke hn
    obtain ⟨hgood, hbad⟩ := State.kexReceive_spec (act := fun s => s.kexOffer l m) hco hl he ht
    exact ⟨_, rfl, fun hport hg => (hgood hg).trans ((State.kexOffer_repeated hk hi hke hn).trans (State.kexSend_port hport _ _)), hbad⟩
  case refine_5 => exact fun s l m h => ⟨_, rfl, State.inCore_of_same (State.kexReceive_closed h)⟩
  case refine_6 => exact fun s l m h => ⟨_, rfl, State.inCore_of_same (State.kexReceive_closed h)⟩
  case refine_7 => exact fun s l m h => ⟨_, rfl, State.inCore_of_same (State.kexReceive_closed h)⟩
  case refine_8 => exact fun s l m h => ⟨_, rfl, State.inCore_of_same (State.kexReceive_closed h)⟩
  case refine_9 =>
    intro s l m k hco hl he ht hk h
    obtain ⟨hgood, hbad⟩ := State.kexReceive_spec (act := fun s => s.kexAccepted l m) hco hl he ht
    exact ⟨_, rfl, fun hg => (hgood hg).trans (State.kexAccepted_other hk h), hbad⟩
  case refine_10 =>
    intro s l m hco hl he ht hk hc
    obtain ⟨hgood, hbad⟩ := State.kexReceive_spec (act := fun s => s.kexAccepted l m) hco hl he ht
    exact ⟨_, rfl, fun hg => (hgood hg).trans (State.kexAccepted_none hk hc), hbad⟩
  case refine_11 =>
    intro s l m hco hl he ht hk
    obtain ⟨hgood, hbad⟩ := State.kexReceive_spec (act := fun s => s.kexConfirm l m) hco hl he ht
    exact ⟨_, rfl, fun hg => (hgood hg).trans (State.kexConfirm_none hk), hbad⟩
  case refine_12 =>
    intro s l m hco hl he ht hk
    obtain ⟨hgood, hbad⟩ := State.kexReceive_spec (act := fun s => s.kexReject l m) hco hl he ht
    exact ⟨_, rfl, fun hg => (hgood hg).trans (State.kexReject_none hk), hbad⟩
  case refine_13 =>
    intro s l m k hco hl he ht hk hi hke hn
    obtain ⟨hgood, hbad⟩ := State.kexReceive_spec (act := fun s => s.kexAccepted l m) hco hl he ht
    refine ⟨_, rfl, fun hg => ?_, hbad⟩
    obtain ⟨rx, tx, out, rekey, hrx, htx, heq⟩ := State.kexAccepted_own hk hi hke hn
    beta_reduce
    rw [hgood hg, heq, State.link_showLink, State.link_lscCount, State.link_kexSend, State.link_setLink, State.out_showLink,
      State.out_lscCount, State.lscStat_showLink, State.lscStat_lscCount, State.lscStat_kexSend]
    refine ⟨?_, ?_, rfl, rfl, rfl, fun hport => ?_, rfl⟩
    · exact congrArg some htx
    · exact congrArg some hrx
    · exact State.out_kexSend hport _ _
  case refine_14 =>
    intro s l m k a hco hl he ht hk hi hke hn hr ha
    obtain ⟨hgood, hbad⟩ := State.kexReceive_spec (act := fun s => s.kexConfirm l m) hco hl he ht
    refine ⟨_, rfl, fun hg => ?_, hbad⟩
    beta_reduce
    rw [hgood hg, State.kexConfirm_own hk ha hi hke hn hr, State.link_showLink, State.link_lscCount, State.link_setLink]
    exact ⟨rfl, rfl, rfl, rfl, rfl⟩
  case refine_15 =>
    intro s l m k hco hl he ht hk hi hn
    obtain ⟨hgood, hbad⟩ := State.kexReceive_spec (act := fun s => s.kexReject l m) hco hl he ht
    refine ⟨_, rfl, fun hg hr => ?_, fun hg hr hs => ?_, hbad⟩
    · exact (hgood hg).trans ((State.kexReject_own hk hi hn).trans (if_neg hr))
    · obtain ⟨ni, msg, hlink⟩ := State.link_kexStart (max (s.link l).epoch (kEpoch m) + 1) hs
      beta_reduce
      rw [hgood hg, State.kexReject_own hk hi hn, if_pos hr, hlink]
      rfl
  case refine_16 =>
    intro s l k hco hk h
    refine ⟨_, rfl, ?_⟩
    beta_reduce
    rw [State.inCore_on hco, State.kexResend_again hk h, State.link_kexSend, State.link_setLink]
    exact ⟨rfl, fun hport => State.out_kexSend hport _ _⟩
  case refine_17 =>
    intro s l k hco hk h
    refine ⟨_, rfl, ?_⟩
    have hrec := State.records_kexResend_ends hk h
    beta_reduce
    rw [State.inCore_on hco]
    refine ⟨?_, ?_, ?_, hrec⟩
    · rw [State.kexResend_ends hk h, State.link_showLink, State.link_raise, State.link_lscCount, State.link_setLink]
    · rw [State.kexResend_ends hk h, State.lscStat_showLink, (State.raise_keeps _ _ _ _).fld_eq Reg.LSC_STAT_VALUE_VALUE _ rfl rfl,
        State.lscStat_lscCount]
      rfl
    · rw [State.kexResend_ends hk h]
      refine State.linkStatus_showLink_failed ?_
      rw [State.link_raise, State.link_lscCount, State.link_setLink]
  case refine_18 => exact fun s l hk => ⟨_, rfl, State.inCore_of_same (State.kexResend_none hk)⟩
  case refine_19 =>
    intro s l hco hf he hk hs
    refine ⟨_, rfl, ?_⟩
    obtain ⟨ni, msg, hlink⟩ := State.link_kexNext he hk hs
    beta_reduce
    rw [State.inCore_on hco, if_pos hf, hlink]
    exact ⟨rfl, rfl⟩
  case refine_20 =>
    intro s l hco hf he hk hs
    refine ⟨_, rfl, ?_⟩
    beta_reduce
    rw [State.inCore_on hco, if_pos hf, State.kexNext_starts he hk]
    exact if_pos hs
  case refine_21 =>
    intro s l h
    refine ⟨_, rfl, State.inCore_of_same ?_⟩
    by_cases hf : (s.link l).failed = true
    · exact (if_pos hf).trans (State.kexNext_idle (h.resolve_left fun h => absurd (h.symm.trans hf) (by decide)))
    · exact if_neg hf
  case refine_22 =>
    intro s l hco htx hr he hk hs
    refine ⟨_, rfl, ?_⟩
    obtain ⟨ni, msg, hlink⟩ := State.link_kexNext he hk hs
    beta_reduce
    rw [State.inCore_on hco, if_pos (by simpa [hr] using htx), hlink]
    exact ⟨rfl, rfl⟩
  case refine_23 =>
    intro s l h
    refine ⟨_, rfl, State.inCore_of_same ?_⟩
    rcases h with h | h | h
    · exact if_neg (by simp [h])
    · exact if_neg (by simp [h])
    · split
      · exact State.kexNext_idle h
      · rfl
  case refine_24 =>
    intro s l a hco hport hu hp
    refine ⟨_, rfl, ?_⟩
    beta_reduce
    rw [State.inCore_on hco, if_pos (by simp [hport, hu]), State.retirePrev_some hp, State.link_showLink, State.linkPrev_showLink, State.link_setLink]
    exact ⟨rfl, rfl⟩
  case refine_25 =>
    intro s l h
    refine ⟨_, rfl, State.inCore_of_same ?_⟩
    rcases h with h | h | h
    · exact if_neg (by simp [h])
    · exact if_neg (by simp [h])
    · split
      · exact State.retirePrev_none h
      · rfl
  case refine_26 =>
    intro s g a hco hu hs hp
    refine ⟨_, rfl, ?_⟩
    beta_reduce
    rw [State.inCore_on hco, if_pos (by simp [hs, hu]), State.retirePrev_some hp, State.link_showLink, State.link_setLink]
    exact ⟨rfl, rfl, rfl⟩
  case refine_27 =>
    intro s g h
    refine ⟨_, rfl, State.inCore_of_same ?_⟩
    rcases h with h | h | h
    · exact if_neg (by simp [h])
    · exact if_neg (by simp [h])
    · split
      · exact State.retirePrev_none h
      · rfl

end Sys2Proof.Machine


/-!
PROOFS. Line groups: what a refresh of the defects, the selection and the status leaves of a group (R421 to R428), and the
commands of lanes, legs and timers.
-/

namespace Sys2Proof.Machine

/-! ### The group under the operations of a refresh -/

theorem State.lgrp_congr {s t : State} (h : t.line = s.line) (g : Nat) : t.lgrp g = s.lgrp g := by rw [State.lgrp, h, State.lgrp]

@[simp] theorem State.lgrp_setLgrp (s : State) (g : Nat) (x : LineGroup) : (s.setLgrp g x).lgrp g = x := AMap.getD_put_self _ _ _ _

theorem State.lgrp_setLgrp_ne (s : State) {g h : Nat} (x : LineGroup) (hne : h ≠ g) : (s.setLgrp g x).lgrp h = s.lgrp h :=
  AMap.getD_put_ne _ _ _ _ _ hne

@[simp] theorem State.lgrp_raise (s : State) (c i d g : Nat) (fn : Nat := 0) : (s.raise c i d fn).lgrp g = s.lgrp g :=
  State.lgrp_congr ((s.raise_keeps c i d fn).line_eq rfl) g

@[simp] theorem State.lgrp_lineCount (s : State) (g c leg h : Nat) : (s.lineCount g c leg).lgrp h = s.lgrp h :=
  State.lgrp_congr ((State.lineCount_fr (Fr.refl _ s) (Sub.refl _)).line_eq rfl) h

@[simp] theorem State.lgrp_showLine (s : State) (g h : Nat) : (s.showLine g).lgrp h = s.lgrp h :=
  State.lgrp_congr ((State.showLine_fr (Fr.refl _ s) (Sub.refl _)).line_eq rfl) h

@[simp] theorem State.lgrp_dccHold (s : State) (port h : Nat) : (s.dccHold port).lgrp h = s.lgrp h := by
  rw [State.dccHold, apply_ite (State.lgrp · h)]
  exact ite_self _

theorem State.lgrp_kexSend (s : State) (g : Nat) (m : Bytes) :
    (s.kexSend (lineLink g) m).lgrp g = { s.lgrp g with keys := (s.lgrp g).keys ++ [m] } := by
  have hg : lineLink g - 576 = g := Nat.add_sub_cancel_left _ _
  unfold State.kexSend
  rw [if_pos (by simp [isLineLink, lineLink])]
  dsimp only
  rw [hg]
  exact AMap.getD_put_self _ _ _ _

/-- A key exchange of a group's link that starts leaves its messages with the group. -/
theorem State.lgrp_kexNext (s : State) (g : Nat) : ∃ ks, (s.kexNext (lineLink g)).lgrp g = { s.lgrp g with keys := ks } := by
  unfold State.kexNext
  dsimp only
  split
  · unfold State.kexStart
    split
    · exact ⟨_, rfl⟩
    · dsimp only
      rw [State.lgrp_congr ((State.showLink_fr (Fr.refl _ _) (Sub.refl _)).line_eq rfl)]
      rw [State.lgrp_kexSend]
      exact ⟨_, rfl⟩
  · exact ⟨_, rfl⟩

theorem State.faults_kexNext (s : State) (l : Nat) : (s.kexNext l).line.faults = s.line.faults := by
  unfold State.kexNext
  dsimp only
  split
  · unfold State.kexStart
    split
    · rfl
    · dsimp only
      rw [(State.showLink_fr (Fr.refl _ _) (Sub.refl _)).line_eq rfl]
      unfold State.kexSend
      split
      · rfl
      · rfl
  · rfl

/-! ### Legs -/

/-- A leg's dLOS and dSF, by whether a lane of it serves and by the uptime. -/
def LineLeg.judge (dark protect : Bool) (now : Nat) (l : LineLeg) : LineLeg :=
  let l := { l with los := dark }
  if l.bad then { l with sf := true, sfSeen := true, clear := none }
  else if l.sf then
    let since := l.clear.getD now
    if since + 10000000 ≤ now then { l with sf := false, clear := none, wtr := protect }
    else { l with clear := some since }
  else l

theorem State.legJudge_eq (s : State) (g leg : Nat) : s.legJudge g leg =
    s.onLeg g leg (LineLeg.judge (s.legServing g leg).isEmpty (s.lineProtected g) s.uptimeNs) := rfl

/-- The part of a leg that no judgement and no selection changes. -/
def LineLeg.steady (l : LineLeg) : LineLeg := { l with los := false, sf := false, sfSeen := false, clear := none, wtr := false, selected := true }

theorem LineLeg.steady_judge (l : LineLeg) (dark protect : Bool) (now : Nat) : (l.judge dark protect now).steady = l.steady := by
  unfold LineLeg.judge
  dsimp only
  split
  · rfl
  · split
    · split
      · rfl
      · rfl
    · rfl

/-- A leg in neither dSF nor its wait to restore does not begin to wait. -/
theorem LineLeg.wtr_judge {l : LineLeg} (hw : l.wtr = false) (hf : l.sf = false) (dark protect : Bool) (now : Nat) :
    (l.judge dark protect now).wtr = false := by
  unfold LineLeg.judge
  dsimp only
  split
  · exact hw
  · rw [hf, if_neg (by decide)]
    exact hw

/-- A leg with dLOF is in dSF. -/
theorem LineLeg.sf_judge {l : LineLeg} (h : l.lof = true) (dark protect : Bool) (now : Nat) : (l.judge dark protect now).sf = true := by
  unfold LineLeg.judge
  dsimp only
  rw [if_pos (by simp [LineLeg.bad, h])]

/-- What a refresh makes of a leg: selected or not, and judged or left. -/
def LineLeg.Judged (l l' : LineLeg) : Prop := ∃ b, l' = { l with selected := b } ∨ ∃ dark protect now, l' = { l.judge dark protect now with selected := b }

theorem LineLeg.Judged.refl (l : LineLeg) : l.Judged l := ⟨l.selected, .inl rfl⟩

theorem LineLeg.Judged.steady {l l' : LineLeg} (h : l.Judged l') : l'.steady = l.steady := by
  obtain ⟨b, rfl | ⟨dark, protect, now, rfl⟩⟩ := h
  · exact rfl
  · exact l.steady_judge dark protect now

theorem LineLeg.Judged.wtr {l l' : LineLeg} (h : l.Judged l') (hw : l.wtr = false) (hf : l.sf = false) : l'.wtr = false := by
  obtain ⟨b, rfl | ⟨dark, protect, now, rfl⟩⟩ := h
  · exact hw
  · exact LineLeg.wtr_judge hw hf dark protect now

theorem LineLeg.Judged.of_judge (l : LineLeg) (dark protect : Bool) (now : Nat) : l.Judged (l.judge dark protect now) :=
  ⟨_, .inr ⟨dark, protect, now, rfl⟩⟩

theorem LineLeg.Judged.select {l l' : LineLeg} (h : l.Judged l') (b : Bool) : l.Judged { l' with selected := b } := by
  obtain ⟨a, rfl | ⟨dark, protect, now, rfl⟩⟩ := h
  · exact ⟨b, .inl rfl⟩
  · exact ⟨b, .inr ⟨dark, protect, now, rfl⟩⟩

theorem State.legsOf_cases (s : State) (g : Nat) : s.legsOf g = [0] ∨ s.legsOf g = [0, 1] := by
  unfold State.legsOf
  split
  · exact .inr rfl
  · exact .inl rfl

theorem State.lgrp_onLeg (s : State) (g leg : Nat) (f : LineLeg → LineLeg) :
    (s.onLeg g leg f).lgrp g = (s.lgrp g).setLeg leg (f ((s.lgrp g).leg leg)) := State.lgrp_setLgrp _ _ _

/-- All legs of a group judged. -/
theorem State.lgrp_judgeAll (s u : State) (g : Nat) : ∃ A B, ((s.legsOf g).foldl (fun s i => s.legJudge g i) u).lgrp g =
    { u.lgrp g with legA := A, legB := B } ∧ (u.lgrp g).legA.Judged A ∧ (u.lgrp g).legB.Judged B ∧
    ((u.lgrp g).legA.lof = true → A.sf = true) ∧ (1 ∈ s.legsOf g → (u.lgrp g).legB.lof = true → B.sf = true) := by
  rcases s.legsOf_cases g with h | h
  · rw [h, List.foldl_cons, List.foldl_nil, State.legJudge_eq, State.lgrp_onLeg]
    exact ⟨_, (u.lgrp g).legB, rfl, .of_judge _ _ _ _, .refl _, fun hl => LineLeg.sf_judge hl _ _ _, fun h1 => absurd h1 (by decide)⟩
  · rw [h, List.foldl_cons, List.foldl_cons, List.foldl_nil, State.legJudge_eq, State.legJudge_eq, State.lgrp_onLeg, State.lgrp_onLeg]
    exact ⟨_, _, rfl, .of_judge _ _ _ _, .of_judge _ _ _ _, fun hl => LineLeg.sf_judge hl _ _ _, fun _ hl => LineLeg.sf_judge hl _ _ _⟩

theorem State.lgrp_lineSelect (s : State) (g : Nat) : ∃ a b, (s.lineSelect g).lgrp g =
    { s.lgrp g with legA := { (s.lgrp g).legA with selected := a }, legB := { (s.lgrp g).legB with selected := b } } := by
  have hlegs (want : List Nat) : ∃ a b, ((s.legsOf g).foldl (fun s i => s.onLeg g i fun l => { l with selected := want.contains i }) s).lgrp g =
      { s.lgrp g with legA := { (s.lgrp g).legA with selected := a }, legB := { (s.lgrp g).legB with selected := b } } := by
    rcases s.legsOf_cases g with h | h
    · rw [h, List.foldl_cons, List.foldl_nil, State.lgrp_onLeg]
      exact ⟨_, (s.lgrp g).legB.selected, rfl⟩
    · rw [h, List.foldl_cons, List.foldl_cons, List.foldl_nil, State.lgrp_onLeg, State.lgrp_onLeg]
      exact ⟨_, _, rfl⟩
  unfold State.lineSelect
  dsimp only
  split
  · exact ⟨(s.lgrp g).legA.selected, (s.lgrp g).legB.selected, rfl⟩
  · split
    · rw [State.lgrp_raise, State.lgrp_lineCount]
      exact hlegs _
    · exact hlegs _

/-! ### The refresh -/

/-- What a refresh leaves of a group: its legs judged, and nothing else changed but SF, the suspension, the cutoff that grows over it,
and the messages of an exchange that starts. -/
theorem State.lgrp_lineRefresh (s : State) (g : Nat) : ∃ A B sf sus go cut ks, (s.lineRefresh g).lgrp g =
    { s.lgrp g with legA := A, legB := B, sf := sf, suspended := sus, letGo := go, cutoff := cut, keys := ks } ∧
    (s.lgrp g).legA.Judged A ∧ (s.lgrp g).legB.Judged B ∧
    (s.lineRuns g = true → ((s.lgrp g).legA.lof = true → A.sf = true) ∧ (1 ∈ s.legsOf g → (s.lgrp g).legB.lof = true → B.sf = true)) := by
  by_cases hon : s.lineOn g = true
  case neg =>
    unfold State.lineRefresh
    dsimp only
    rw [if_pos (by simpa using hon)]
    exact ⟨_, _, _, _, _, _, _, rfl, .refl _, .refl _, fun h => absurd (by rw [State.lineRuns, Bool.and_eq_true] at h; exact h.1) hon⟩
  unfold State.lineRefresh
  extract_lets s0 was cause s1 s2 x sf s3 s4 y s5 s6 l
  have h1 : s1.lgrp g = s.lgrp g := by
    unfold s1
    split
    · exact State.lgrp_raise _ _ _ _ _
    · rfl
  have h2 : ∃ A B, s2.lgrp g = { s.lgrp g with legA := A, legB := B } ∧ (s.lgrp g).legA.Judged A ∧ (s.lgrp g).legB.Judged B ∧
      (s.lineRuns g = true → ((s.lgrp g).legA.lof = true → A.sf = true) ∧ (1 ∈ s.legsOf g → (s.lgrp g).legB.lof = true → B.sf = true)) := by
    unfold s2
    split
    · next hc =>
      rw [h1]
      refine ⟨_, _, rfl, .refl _, .refl _, fun h => absurd ?_ hc⟩
      rw [State.lineRuns, Bool.and_eq_true, beq_iff_eq] at h
      exact h.2
    · obtain ⟨A, B, hall, hA, hB, hfA, hfB⟩ := s.lgrp_judgeAll s1 g
      obtain ⟨a, b, hsel⟩ := State.lgrp_lineSelect ((s.legsOf g).foldl (fun s i => s.legJudge g i) s1) g
      rw [h1] at hall hA hB hfA hfB
      rw [hsel, hall]
      exact ⟨_, _, rfl, hA.select a, hB.select b, fun _ => ⟨hfA, hfB⟩⟩
  obtain ⟨A, B, h2, hA, hB, hf⟩ := h2
  have h4 : s4.lgrp g = { s.lgrp g with legA := A, legB := B, sf := sf } := by
    have h3 : s3.lgrp g = { s.lgrp g with legA := A, legB := B, sf := sf } := by
      unfold s3 x
      rw [State.lgrp_setLgrp, h2]
    unfold s4
    split
    · exact (State.lgrp_raise _ _ _ _ _).trans h3
    · split
      · exact (State.lgrp_raise _ _ _ _ _).trans h3
      · exact h3
  have h5 : ∃ sus go cut, s5.lgrp g = { s.lgrp g with legA := A, legB := B, sf := sf, suspended := sus, letGo := go, cutoff := cut } := by
    unfold s5 y
    split
    · rw [State.lgrp_setLgrp, h4]
      exact ⟨_, _, _, rfl⟩
    · rw [State.lgrp_setLgrp, h4]
      exact ⟨_, _, _, rfl⟩
    · rw [h4]
      exact ⟨_, _, _, rfl⟩
  obtain ⟨sus, go, cut, h5⟩ := h5
  have h6 : s6.lgrp g = s5.lgrp g := by
    unfold s6
    rw [State.lgrp_dccHold, State.lgrp_dccHold, State.lgrp_showLine]
  have h7 : ∃ ks, (s6.kexNext l).lgrp g = { s.lgrp g with legA := A, legB := B, sf := sf, suspended := sus, letGo := go, cutoff := cut, keys := ks } := by
    obtain ⟨ks, h⟩ := s6.lgrp_kexNext g
    exact ⟨ks, by rw [h, h6, h5]⟩
  obtain ⟨ks, h7⟩ := h7
  rw [if_neg (by simpa using hon)]
  split
  · exact ⟨A, B, sf, sus, go, cut, ks, h7, hA, hB, hf⟩
  · split
    · exact ⟨A, B, sf, sus, go, cut, ks, h7, hA, hB, hf⟩
    · exact ⟨A, B, sf, sus, go, cut, _, h6.trans h5, hA, hB, hf⟩

theorem State.leg_lineRefresh (s : State) (g leg : Nat) : ((s.lgrp g).leg leg).Judged (((s.lineRefresh g).lgrp g).leg leg) := by
  obtain ⟨A, B, sf, sus, go, cut, ks, h, hA, hB, -⟩ := s.lgrp_lineRefresh g
  rw [h]
  unfold LineGroup.leg
  split
  · exact hA
  · exact hB

/-- A leg with dLOF is in dSF once a group that carries transmissions is refreshed. -/
theorem State.legSf_lineRefresh {s : State} {g leg : Nat} (hr : s.lineRuns g = true) (hm : leg ∈ s.legsOf g)
    (h : ((s.lgrp g).leg leg).lof = true) : (((s.lineRefresh g).lgrp g).leg leg).sf = true := by
  obtain ⟨A, B, sf, sus, go, cut, ks, heq, -, -, hsf⟩ := s.lgrp_lineRefresh g
  obtain ⟨hA, hB⟩ := hsf hr
  rw [heq]
  unfold LineGroup.leg at h ⊢
  by_cases h0 : leg = 0
  · rw [if_pos h0] at h ⊢
    exact hA h
  · rw [if_neg h0] at h ⊢
    refine hB ?_ h
    rcases s.legsOf_cases g with hl | hl
    · exact absurd (List.mem_singleton.mp (hl ▸ hm)) h0
    · rw [hl]
      decide

/-- The lanes with a report are no matter of a refresh. -/
theorem State.faults_lineRefresh (s : State) (g : Nat) : (s.lineRefresh g).line.faults = s.line.faults := by
  have hraise (t : State) (c i d : Nat) : (t.raise c i d).line.faults = t.line.faults :=
    congrArg LineState.faults ((t.raise_keeps c i d).line_eq rfl)
  have hlegs (f : State → Nat → State) (hf : ∀ t i, (f t i).line.faults = t.line.faults) (u : State) :
      ((s.legsOf g).foldl f u).line.faults = u.line.faults := foldl_keeps (P := fun t : State => t.line.faults) (fun t i _ => hf t i) u
  have hsel (t : State) : (t.lineSelect g).line.faults = t.line.faults := by
    unfold State.lineSelect
    dsimp only
    split
    · rfl
    · have h (want : List Nat) : ((t.legsOf g).foldl (fun s i => s.onLeg g i fun l => { l with selected := want.contains i }) t).line.faults = t.line.faults := by
        refine foldl_keeps (P := fun t : State => t.line.faults) (fun t i _ => ?_) t
        rfl
      split
      · exact (hraise _ _ _ _).trans ((congrArg LineState.faults ((State.lineCount_fr (Fr.refl _ _) (Sub.refl _)).line_eq rfl)).trans (h _))
      · exact h _
  have hhold (t : State) (port : Nat) : (t.dccHold port).line.faults = t.line.faults := by
    rw [State.dccHold, apply_ite (fun t : State => t.line.faults)]
    exact ite_self _
  unfold State.lineRefresh
  extract_lets s0 was cause s1 s2 x sf s3 s4 y s5 s6 l
  have h1 : s1.line.faults = s.line.faults := by
    unfold s1
    split
    · exact hraise _ _ _ _
    · rfl
  have h2 : s2.line.faults = s.line.faults := by
    unfold s2
    split
    · exact h1
    · exact (hsel _).trans ((hlegs (fun s i => s.legJudge g i) (fun _ _ => rfl) s1).trans h1)
  have h4 : s4.line.faults = s.line.faults := by
    unfold s4
    split
    · exact (hraise _ _ _ _).trans h2
    · split
      · exact (hraise _ _ _ _).trans h2
      · exact h2
  have h5 : s5.line.faults = s.line.faults := by
    unfold s5
    split
    · exact h4
    · exact h4
    · exact h4
  have h6 : s6.line.faults = s.line.faults :=
    (hhold _ 1).trans ((hhold _ 0).trans ((congrArg LineState.faults ((State.showLine_fr (Fr.refl _ _) (Sub.refl _)).line_eq rfl)).trans h5))
  split
  · rfl
  · split
    · exact (s6.faults_kexNext l).trans h6
    · split
      · exact (s6.faults_kexNext l).trans h6
      · exact h6

/-! ### A multiframe whose allowance has passed (R409) -/

theorem LineGroup.leg_setLeg (x : LineGroup) (leg : Nat) (l : LineLeg) : (x.setLeg leg l).leg leg = l := by
  unfold LineGroup.setLeg LineGroup.leg
  by_cases h : leg = 0
  · rw [if_pos h, if_pos h]
  · rw [if_neg h, if_neg h]

theorem LineLeg.erased_settle (l : LineLeg) (now erased : Nat) (bad : Bool) : (l.settle now erased bad).erased = l.erased + erased := by
  unfold LineLeg.settle
  dsimp only
  split
  · rfl
  · rfl

/-- What MF_SKEW_EXPIRE does for one leg: its present second and millisecond take the multiframe in, and counters rise. -/
def State.mfSettleLeg (g : Nat) (m : RxMf) (bad sel : Nat → Bool) (s : State) (i : Nat) : State :=
  let seen := if i = 0 then m.seenA else m.seenB
  let s1 := s.onLeg g i fun l => l.settle s.uptimeNs (36 - seen.length) (bad i || decide (4 < 36 - seen.length))
  let s2 := if bad i then s1.lineCount g 7 i else s1
  if sel i then (((List.range 32).filter fun k => !m.bodies.has k).filter fun k => !seen.contains k).foldl (fun s _ => s.lineCount g 6 i) s2
  else s2

theorem State.lgrp_mfSettleLeg (g : Nat) (m : RxMf) (bad sel : Nat → Bool) (s : State) (i : Nat) : ∃ now b,
    (s.mfSettleLeg g m bad sel i).lgrp g =
      (s.lgrp g).setLeg i (((s.lgrp g).leg i).settle now (36 - (if i = 0 then m.seenA else m.seenB).length) b) := by
  unfold State.mfSettleLeg
  extract_lets seen s1 s2
  have h1 : s1.lgrp g = (s.lgrp g).setLeg i (((s.lgrp g).leg i).settle s.uptimeNs (36 - seen.length) (bad i || decide (4 < 36 - seen.length))) :=
    State.lgrp_onLeg _ _ _ _
  have h2 : s2.lgrp g = s1.lgrp g := by
    unfold s2
    split
    · exact State.lgrp_lineCount _ _ _ _ _
    · rfl
  refine ⟨_, _, Eq.trans ?_ (h2.trans h1)⟩
  split
  · exact foldl_keeps (P := fun t : State => t.lgrp g) (fun t _ _ => State.lgrp_lineCount t g 6 i g) s2
  · rfl

theorem State.mfExpire_some {s : State} {g mfn : Nat} {m : RxMf} (hm : (s.lgrp g).mf.find mfn = some m) (he : m.expired = false) :
    ∃ mf bad sel, AMap.find mf mfn = some { m with expired := true, bodies := m.bodies.map fun p => (p.1, []) } ∧ s.mfExpire g mfn =
      ((s.legsOf g).foldl (State.mfSettleLeg g m bad sel) (s.setLgrp g { s.lgrp g with mf := mf, bound := max (s.lgrp g).bound m.next })).lineRefresh g := by
  unfold State.mfExpire
  dsimp only
  rw [hm]
  dsimp only
  rw [he, if_neg (by decide)]
  exact ⟨_, fun i => (!m.decoded && decide (4 < 36 - m.bodies.length)) && ((s.lgrp g).leg i).selected,
    fun i => m.decoded && ((s.lgrp g).leg i).selected, AMap.find_put_self _ _ _, rfl⟩

/-- The legs with the multiframe taken in. -/
theorem State.lgrp_mfSettle (s u : State) (g : Nat) (m : RxMf) (bad sel : Nat → Bool) : ∃ A B,
    ((s.legsOf g).foldl (State.mfSettleLeg g m bad sel) u).lgrp g = { u.lgrp g with legA := A, legB := B } ∧
    A.erased = (u.lgrp g).legA.erased + (36 - m.seenA.length) ∧
    (s.lineProtected g = true → B.erased = (u.lgrp g).legB.erased + (36 - m.seenB.length)) := by
  obtain ⟨n0, b0, h0⟩ := u.lgrp_mfSettleLeg g m bad sel 0
  by_cases hp : s.lineProtected g = true
  · obtain ⟨n1, b1, h1⟩ := (u.mfSettleLeg g m bad sel 0).lgrp_mfSettleLeg g m bad sel 1
    rw [State.legsOf, if_pos hp, List.foldl_cons, List.foldl_cons, List.foldl_nil, h1, h0]
    exact ⟨_, _, rfl, LineLeg.erased_settle _ _ _ _, fun _ => LineLeg.erased_settle _ _ _ _⟩
  · rw [State.legsOf, if_neg hp, List.foldl_cons, List.foldl_nil, h0]
    exact ⟨_, (u.lgrp g).legB, rfl, LineLeg.erased_settle _ _ _ _, fun h => absurd h hp⟩

theorem State.mfExpire_spec {s : State} {g mfn : Nat} {m : RxMf} (hm : (s.lgrp g).mf.find mfn = some m) (he : m.expired = false) :
    ((s.mfExpire g mfn).lgrp g).mf.find mfn = some { m with expired := true, bodies := m.bodies.map fun p => (p.1, []) } ∧
    ((s.mfExpire g mfn).lgrp g).bound = max (s.lgrp g).bound m.next ∧
    ((s.mfExpire g mfn).lgrp g).legA.erased = (s.lgrp g).legA.erased + (36 - m.seenA.length) ∧
    (s.lineProtected g = true → ((s.mfExpire g mfn).lgrp g).legB.erased = (s.lgrp g).legB.erased + (36 - m.seenB.length)) ∧
    ((s.mfExpire g mfn).lgrp g).dlv = (s.lgrp g).dlv ∧ ((s.mfExpire g mfn).lgrp g).rx = (s.lgrp g).rx ∧
    ((s.mfExpire g mfn).lgrp g).done = (s.lgrp g).done := by
  obtain ⟨mf, bad, sel, hmf, heq⟩ := State.mfExpire_some hm he
  have hu : (s.setLgrp g { s.lgrp g with mf := mf, bound := max (s.lgrp g).bound m.next }).lgrp g =
      { s.lgrp g with mf := mf, bound := max (s.lgrp g).bound m.next } := State.lgrp_setLgrp _ _ _
  obtain ⟨A, B, hlegs, hA, hB⟩ := s.lgrp_mfSettle (s.setLgrp g { s.lgrp g with mf := mf, bound := max (s.lgrp g).bound m.next }) g m bad sel
  rw [hu] at hlegs hA hB
  obtain ⟨A', B', sf, sus, go, cut, ks, href, hA', hB', -⟩ := State.lgrp_lineRefresh ((s.legsOf g).foldl (State.mfSettleLeg g m bad sel)
    (s.setLgrp g { s.lgrp g with mf := mf, bound := max (s.lgrp g).bound m.next })) g
  rw [hlegs] at href hA' hB'
  rw [heq, href]
  refine ⟨hmf, rfl, ?_, fun hp => ?_, rfl, rfl, rfl⟩
  · exact (congrArg LineLeg.erased hA'.steady).trans hA
  · exact (congrArg LineLeg.erased hB'.steady).trans (hB hp)

/-! ### A second that ends for a leg (R421, R425, R426) -/

/-- The present second and the availability of a leg, which the counting in bins leaves. -/
def LineLeg.second (l : LineLeg) : Nat × Nat × Bool × List SecRec := (l.ebs, l.erased, l.unavail, l.open_)

theorem LineLeg.second_pmAvail (l : LineLeg) (r : SecRec) : (l.pmAvail r).second = l.second := by
  unfold LineLeg.pmAvail
  dsimp only
  split
  · split
    · rfl
    · rfl
  · split
    · rfl
    · rfl

theorem LineLeg.roll_spec (l : LineLeg) (sec : Nat) : (l.roll sec).second = l.second ∧ (l.roll sec).quarter = sec / 900 ∧
    (l.roll sec).day = sec / 86400 := by
  unfold LineLeg.roll
  by_cases hq : sec / 900 = l.quarter
  · simp only [if_pos hq]
    split
    · next hd => exact ⟨rfl, hq.symm, hd.symm⟩
    · exact ⟨rfl, hq.symm, rfl⟩
  · simp only [if_neg hq]
    split
    · next hd => exact ⟨rfl, rfl, hd.symm⟩
    · exact ⟨rfl, rfl, rfl⟩

theorem LineLeg.second_pmAdd (l : LineLeg) (sec item n : Nat) : (l.pmAdd sec item n).second = l.second := rfl

/-- A second that ends leaves the leg with its counts at 0 in the present bins; a severely errored one of available time opens a run
towards unavailable time. -/
theorem State.pmSecond_on {s : State} {g leg : Nat} (hon : s.lineOn g = true) (hm : leg ∈ s.legsOf g) (corrected received : Nat) :
    ∃ (u : State) (l : LineLeg), s.pmSecond g leg corrected received = u.lineRefresh g ∧ (u.lgrp g).leg leg = l.roll s.time.sec ∧
      l.ebs = 0 ∧ l.erased = 0 ∧ (((s.lgrp g).leg leg).sfSeen = true → ((s.lgrp g).leg leg).unavail = false → ((s.lgrp g).leg leg).open_ = [] →
        l.open_ = [⟨s.time.sec - 1, ((s.lgrp g).leg leg).ebs, true, true⟩] ∧ l.unavail = false) := by
  unfold State.pmSecond
  rw [if_neg (by simp [hon, hm])]
  extract_lets sec l sf ses r ratio e above below sdOn sdOff sd l0 settled run first
  generalize hp : @ite (LineLeg × Option (Nat × Nat)) (l0.unavail = ses) _ _ _ = p
  obtain ⟨l1, ev⟩ := p
  dsimp only
  refine ⟨_, l1, rfl, ?_, ?_⟩
  · have hset : ((s.setLgrp g ((s.lgrp g).setLeg leg (l1.roll s.time.sec))).lgrp g).leg leg = l1.roll s.time.sec := by
      rw [State.lgrp_setLgrp, LineGroup.leg_setLeg]
    have hev : ((match ev with
        | some (c, first) => (s.setLgrp g ((s.lgrp g).setLeg leg (l1.roll s.time.sec))).raise c g (leg + first * 2 ^ 16)
        | none => s.setLgrp g ((s.lgrp g).setLeg leg (l1.roll s.time.sec))).lgrp g).leg leg = l1.roll s.time.sec := by
      cases ev with
      | none => exact hset
      | some q => exact (congrArg (·.leg leg) (State.lgrp_raise _ _ _ _ _)).trans hset
    split
    · exact (congrArg (·.leg leg) (State.lgrp_raise _ _ _ _ _)).trans hev
    · exact hev
  · by_cases hav : l0.unavail = ses
    · rw [if_pos hav] at hp
      have hfold : ((l0.open_ ++ [r]).foldl (fun (l : LineLeg) q => if l0.unavail then l.pmAdd q.sec 2 1 else l.pmAvail q) { l0 with open_ := [] }).second =
          ({ l0 with open_ := [] } : LineLeg).second := by
        refine foldl_keeps (fun t q _ => ?_) _
        split
        · rfl
        · exact t.second_pmAvail q
      obtain ⟨rfl, -⟩ := Prod.mk.inj hp
      refine ⟨congrArg (·.1) hfold, congrArg (·.2.1) hfold, fun hsf hun _ => ?_⟩
      have hses : ses = true := by simp [ses, sf, hsf, l]
      exact absurd (hun.symm.trans (hav.trans hses)) (by decide)
    · rw [if_neg hav] at hp
      by_cases hlen : l0.open_.length + 1 < 10
      · rw [if_pos hlen] at hp
        obtain ⟨rfl, -⟩ := Prod.mk.inj hp
        refine ⟨rfl, rfl, fun hsf hun hop => ⟨?_, hun⟩⟩
        have hsf' : sf = true := by simp [sf, hsf, l]
        have hr : r = ⟨s.time.sec - 1, ((s.lgrp g).leg leg).ebs, true, true⟩ := by simp [r, ses, hsf', sec, l]
        exact (congrArg (· ++ [r]) hop).trans (by rw [hr, List.nil_append])
      · rw [if_neg hlen] at hp
        have hlong (hop : l.open_ = []) : False := hlen (by rw [show l0.open_ = [] from hop]; decide)
        split at hp
        · obtain ⟨rfl, -⟩ := Prod.mk.inj hp
          have hfold : (run.foldl (fun (l : LineLeg) q => l.pmAvail q) { l0 with open_ := [], unavail := false }).second =
              ({ l0 with open_ := [], unavail := false } : LineLeg).second := foldl_keeps (fun t q _ => t.second_pmAvail q) _
          exact ⟨congrArg (·.1) hfold, congrArg (·.2.1) hfold, fun _ _ hop => (hlong hop).elim⟩
        · obtain ⟨rfl, -⟩ := Prod.mk.inj hp
          have hfold : (run.foldl (fun (l : LineLeg) q => l.pmAdd q.sec 2 1) { l0 with open_ := [], unavail := true }).second =
              ({ l0 with open_ := [], unavail := true } : LineLeg).second := foldl_keeps (fun t q _ => t.second_pmAdd _ _ _) _
          exact ⟨congrArg (·.1) hfold, congrArg (·.2.1) hfold, fun _ _ hop => (hlong hop).elim⟩

/-! ### Held frames released (R424) -/

/-- The sending window of a group. -/
def LineGroup.window (x : LineGroup) : List TxFrame × Bool × Nat × List (Nat × Nat × Nat) := (x.held, x.letGo, x.next, x.released)

theorem State.window_lineGoneOp (s : State) (g : Nat) (k : Option OpKey) : ((s.lineGoneOp g k).lgrp g).window = (s.lgrp g).window := by
  cases k with
  | none => rfl
  | some k =>
    unfold State.lineGoneOp
    dsimp only
    split
    · split
      · rw [State.lgrp_congr ((State.finish_keeps _ _ _ _ _).line_eq rfl), State.lgrp_setLgrp]
        rfl
      · rfl
    · rfl

/-- The group whose held frames have been let go. -/
def State.letsGo (s : State) (g : Nat) : State := s.setLgrp g { (s.lgrp g).unhold (fun _ => true) with letGo := true }

theorem LineGroup.unhold_all (x : LineGroup) : x.unhold (fun _ => true) =
    { x with held := [], released := x.released ++ x.held.map (fun f => (f.fsn, bQueue f.body, bSeq f.body)) } := by
  unfold LineGroup.unhold
  rw [List.filter_eq_self.mpr (fun _ _ => rfl), List.filter_eq_nil_iff.mpr (fun _ _ => by simp)]

theorem State.lineLetGo_on {s : State} {g : Nat} (hs : (s.lgrp g).isSuspended = true) (hl : (s.lgrp g).letGo = false) :
    s.lineLetGo g = (((s.lgrp g).held.filterMap (·.op)).foldl (fun s k => s.lineGoneOp g (some k)) (s.letsGo g)).raise
      Ev.LINE_WINDOW_RELEASED g (min (s.lgrp g).held.length (2 ^ 32 - 1)) := by
  unfold State.lineLetGo
  dsimp only
  rw [hs, hl, if_neg (by decide)]
  rfl

theorem State.lineLetGo_off {s : State} {g : Nat} (h : (s.lgrp g).isSuspended = false ∨ (s.lgrp g).letGo = true) : s.lineLetGo g = s := by
  unfold State.lineLetGo
  dsimp only
  rcases h with h | h
  · rw [h, Bool.not_false, Bool.true_or, if_pos rfl]
  · rw [h, Bool.or_true, if_pos rfl]

theorem State.window_lineLetGo {s : State} {g : Nat} (hs : (s.lgrp g).isSuspended = true) (hl : (s.lgrp g).letGo = false) :
    ((s.lineLetGo g).lgrp g).window = ([], true, (s.lgrp g).next, (s.lgrp g).released ++ (s.lgrp g).held.map (fun f => (f.fsn, bQueue f.body, bSeq f.body))) := by
  have hfold (l : List OpKey) (u : State) : ((l.foldl (fun s k => s.lineGoneOp g (some k)) u).lgrp g).window = (u.lgrp g).window :=
    foldl_keeps (P := fun t : State => (t.lgrp g).window) (fun t k _ => t.window_lineGoneOp g (some k)) u
  rw [State.lineLetGo_on hs hl, State.lgrp_raise, hfold, State.letsGo, State.lgrp_setLgrp, LineGroup.unhold_all]
  rfl

/-- With no operation waiting for a held frame the release is recorded at once. -/
theorem State.records_lineLetGo {s : State} {g : Nat} (hs : (s.lgrp g).isSuspended = true) (hl : (s.lgrp g).letGo = false)
    (hops : (s.lgrp g).held.all (fun f => f.op.isNone) = true) :
    s.Records (s.lineLetGo g) Ev.LINE_WINDOW_RELEASED g (min (s.lgrp g).held.length (2 ^ 32 - 1)) := by
  have hnone : (s.lgrp g).held.filterMap (·.op) = [] := by
    rw [List.filterMap_eq_nil_iff]
    intro f hf
    exact Option.isNone_iff_eq_none.mp (List.all_eq_true.mp hops f hf)
  rw [State.Records, State.lineLetGo_on hs hl, hnone, List.foldl_nil]
  exact State.evr_raise_congr ((State.setLgrp_fr (Fr.refl _ s) (Sub.refl _) : Fr _ s (s.letsGo g)).recordsAlike ⟨rfl, rfl, rfl, rfl⟩) _ _ _

/-! ### DCC frames (R430) -/

/-- A DCC port's state with its ACTIVE bit. -/
def State.setDcc (s : State) (port : Nat) (p : DccPort) : State :=
  (s.onLine fun l => { l with dcc := l.dcc.put port p }).setFlag (Reg.SLF_DCC_STATUS_ACTIVE.nth port) 0 p.running

theorem State.dcc_setDcc (s : State) (port : Nat) (p : DccPort) : (s.setDcc port p).line.dcc.find port = some p := AMap.find_put_self _ _ _

theorem State.setDcc_keeps (s : State) (port : Nat) (p : DccPort) : Fr 0x80000040000 s (s.setDcc port p) :=
  State.setFlag_fr (State.onLine_fr (Fr.refl _ s) rfl) (show okBlk _ Blk.slf = true from rfl)

/-- The group that a DCC port serves. -/
def State.dccGroup (s : State) (port : Nat) : Nat := s.fld (if port = 0 then Reg.SLF_DCC_CFG_PORT0_LG else Reg.SLF_DCC_CFG_PORT1_LG)

theorem State.dccFrame_eq {s : State} {port : Nat} (h : port < 2) : s.dccFrame port =
    if s.dccRuns port (s.dccGroup port) = false then s.setDcc port { s.line.dcc.getD port {} with buf := [], got := none, running := false }
    else if (s.line.dcc.getD port {}).running = false then s
    else match (s.line.dcc.getD port {}).buf with
      | f :: rest => (s.setDcc port { s.line.dcc.getD port {} with buf := rest, last := f }).emit (.dcc port f)
      | [] => ((s.setDcc port (s.line.dcc.getD port {})).bump (Reg.SLF_DCC_STATUS_SLIP_REPEAT.nth port)).emit (.dcc port (s.line.dcc.getD port {}).last) := by
  unfold State.dccFrame
  dsimp only
  rw [if_neg (by omega)]
  simp only [Bool.not_eq_true']
  rfl

/-- Settles O49, clause by clause: the lanes and legs by what a refresh keeps, the timers by their own step. -/
theorem lineTimerRows : Obligations.LineTimerRows := by
  unfold Obligations.LineTimerRows
  refine ⟨?_, ?_, ?_, ?_, ?_, ?_, ?_, ?_, ?_, ?_, ?_, ?_, ?_, ?_, ?_, ?_, ?_, ?_, ?_, ?_, ?_, ?_⟩
  case refine_1 =>
    intro s lane g hco hg
    refine ⟨_, rfl, ?_⟩
    have hexec : s.laneFault lane = (s.onLine fun l => { l with faults := withElem l.faults lane }).lineRefresh g := by
      rw [State.laneFault, hg]
    have hf : ((s.onLine fun l => { l with faults := withElem l.faults lane }).lineRefresh g).line.faults = withElem s.line.faults lane :=
      State.faults_lineRefresh _ g
    beta_reduce
    rw [State.inCore_on hco, hexec]
    refine ⟨hf, ?_⟩
    rw [State.laneServes, hf, List.contains_iff_mem.mpr (mem_withElem_self _ _), Bool.not_true, Bool.and_false]
  case refine_2 =>
    intro s lane hg
    refine ⟨_, rfl, State.inCore_of_same ?_⟩
    rw [State.laneFault, hg]
  case refine_3 =>
    intro s lane g hco hg
    refine ⟨_, rfl, ?_⟩
    have hexec : s.laneReturn lane = (s.onLine fun l => { l with faults := without l.faults lane }).lineRefresh g := by
      rw [State.laneReturn, hg]
    beta_reduce
    rw [State.inCore_on hco, hexec]
    exact State.faults_lineRefresh _ g
  case refine_4 =>
    intro s lane hg
    refine ⟨_, rfl, State.inCore_of_same ?_⟩
    rw [State.laneReturn, hg]
  case refine_5 =>
    intro s g mfn m hco hm he
    refine ⟨_, rfl, ?_⟩
    beta_reduce
    rw [State.inCore_on hco]
    exact State.mfExpire_spec hm he
  case refine_6 =>
    intro s g mfn m hm he
    refine ⟨_, rfl, State.inCore_of_same ?_⟩
    unfold State.mfExpire
    dsimp only
    rw [hm]
    exact if_pos he
  case refine_7 =>
    intro s g mfn hm
    refine ⟨_, rfl, State.inCore_of_same ?_⟩
    unfold State.mfExpire
    dsimp only
    rw [hm]
  case refine_8 =>
    intro s g first hco
    refine ⟨_, rfl, ?_⟩
    beta_reduce
    rw [State.inCore_on hco]
    have hfr : Fr 0x80000000000 s (s.nackAgain g first) := State.setLgrp_fr (Fr.refl _ s) (Sub.refl _)
    exact ⟨State.lgrp_setLgrp _ _ _, fun h hne => State.lgrp_setLgrp_ne _ _ hne, hfr.within (ps := [.line]) (by decide +kernel)⟩
  case refine_9 =>
    intro s g leg hco hr hm
    refine ⟨_, rfl, ?_⟩
    have hleg : ((s.onLeg g leg fun l => { l with lof := true, last := none }).lgrp g).leg leg =
        { (s.lgrp g).leg leg with lof := true, last := none } := by
      rw [State.lgrp_onLeg, LineGroup.leg_setLeg]
    have hjudged := (s.onLeg g leg fun l => { l with lof := true, last := none }).leg_lineRefresh g leg
    have hsf := State.legSf_lineRefresh (s := s.onLeg g leg fun l => { l with lof := true, last := none }) (g := g) (leg := leg) hr hm (by rw [hleg])
    rw [hleg] at hjudged
    beta_reduce
    rw [State.inCore_on hco, State.legLof, if_pos (by simp [hr, hm])]
    exact ⟨congrArg LineLeg.lof hjudged.steady, congrArg LineLeg.last hjudged.steady, hsf⟩
  case refine_10 =>
    intro s g leg h
    refine ⟨_, rfl, State.inCore_of_same (if_neg fun hc => ?_)⟩
    rw [Bool.and_eq_true, List.contains_iff_mem] at hc
    rcases h with h | h
    · exact absurd (h.symm.trans hc.1) (by decide)
    · exact h hc.2
  case refine_11 =>
    intro s g leg corrected received hco hon hm
    refine ⟨_, rfl, ?_⟩
    obtain ⟨u, l, heq, hleg, hebs, her, -⟩ := State.pmSecond_on hon hm corrected received
    obtain ⟨hsec, hq, hd⟩ := l.roll_spec s.time.sec
    have hst := (u.leg_lineRefresh g leg).steady
    rw [hleg] at hst
    beta_reduce
    rw [State.inCore_on hco, heq]
    refine ⟨?_, ?_, ?_, ?_⟩
    · exact (congrArg LineLeg.ebs hst).trans ((congrArg (·.1) hsec).trans hebs)
    · exact (congrArg LineLeg.erased hst).trans ((congrArg (·.2.1) hsec).trans her)
    · exact (congrArg LineLeg.quarter hst).trans hq
    · exact (congrArg LineLeg.day hst).trans hd
  case refine_12 =>
    intro s g leg corrected received hco hon hm hsf hun hop
    refine ⟨_, rfl, ?_⟩
    obtain ⟨u, l, heq, hleg, -, -, hrun⟩ := State.pmSecond_on hon hm corrected received
    obtain ⟨hopen, hav⟩ := hrun hsf hun hop
    obtain ⟨hsec, -, -⟩ := l.roll_spec s.time.sec
    have hst := (u.leg_lineRefresh g leg).steady
    rw [hleg] at hst
    beta_reduce
    rw [State.inCore_on hco, heq]
    refine ⟨?_, ?_⟩
    · exact (congrArg LineLeg.open_ hst).trans ((congrArg (·.2.2.2) hsec).trans hopen)
    · exact (congrArg LineLeg.unavail hst).trans ((congrArg (·.2.2.1) hsec).trans hav)
  case refine_13 =>
    intro s g leg corrected received h
    refine ⟨_, rfl, State.inCore_of_same (if_pos ?_)⟩
    rcases h with h | h
    · rw [h, Bool.not_false, Bool.true_or]
    · rw [Bool.or_eq_true, Bool.not_eq_true', Bool.not_eq_true', ← Bool.not_eq_true, ← Bool.not_eq_true, List.contains_iff_mem]
      exact .inr h
  case refine_14 =>
    intro s g hco hs hl
    refine ⟨_, rfl, ?_⟩
    have hw := State.window_lineLetGo hs hl
    beta_reduce
    rw [State.inCore_on hco]
    exact ⟨congrArg (·.1) hw, congrArg (·.2.1) hw, congrArg (·.2.2.1) hw, congrArg (·.2.2.2) hw, State.records_lineLetGo hs hl⟩
  case refine_15 => exact fun s g h => ⟨_, rfl, State.inCore_of_same (State.lineLetGo_off h)⟩
  case refine_16 =>
    intro s g leg hco hw hsf hsd
    refine ⟨_, rfl, ?_⟩
    have hleg : ((s.onLeg g leg fun l => { l with wtr := false }).lgrp g).leg leg = { (s.lgrp g).leg leg with wtr := false } := by
      rw [State.lgrp_onLeg, LineGroup.leg_setLeg]
    have hjudged := (s.onLeg g leg fun l => { l with wtr := false }).leg_lineRefresh g leg
    rw [hleg] at hjudged
    have hexec : s.wtrExpire g leg = (s.onLeg g leg fun l => { l with wtr := false }).lineRefresh g := if_pos (by simp [hw, hsf, hsd])
    beta_reduce
    rw [State.inCore_on hco, hexec]
    exact hjudged.wtr rfl hsf
  case refine_17 =>
    intro s g leg h
    refine ⟨_, rfl, State.inCore_of_same (if_neg ?_)⟩
    rcases h with h | h | h
    · simp [h]
    · simp [h]
    · simp [h]
  case refine_18 =>
    intro s port g p f rest hco hport hg hr hp hrun hbuf
    refine ⟨_, rfl, ?_⟩
    have hget : s.line.dcc.getD port {} = p := by rw [AMap.getD, hp]; rfl
    have hexec : s.dccFrame port = (s.setDcc port { p with buf := rest, last := f }).emit (.dcc port f) := by
      rw [State.dccFrame_eq hport, if_neg (by rw [State.dccGroup, ← hg, hr]; decide), hget, if_neg (by rw [hrun]; decide), hbuf]
    have hfr : Fr 0x8080000040000 s ((s.setDcc port { p with buf := rest, last := f }).emit (.dcc port f)) :=
      State.emit_fr ((s.setDcc_keeps port _).weaken rfl) rfl
    beta_reduce
    rw [State.inCore_on hco, hexec]
    exact ⟨rfl, State.dcc_setDcc _ _ _, hfr.within (ps := [.regs .slf, .line, .out]) (by decide +kernel)⟩
  case refine_19 =>
    intro s port g p hco hport hg hr hp hrun hbuf
    refine ⟨_, rfl, ?_⟩
    have hget : s.line.dcc.getD port {} = p := by rw [AMap.getD, hp]; rfl
    have hexec : s.dccFrame port = ((s.setDcc port p).bump (Reg.SLF_DCC_STATUS_SLIP_REPEAT.nth port)).emit (.dcc port p.last) := by
      rw [State.dccFrame_eq hport, if_neg (by rw [State.dccGroup, ← hg, hr]; decide), hget, if_neg (by rw [hrun]; decide), hbuf]
    have hcount : (s.setDcc port p).fld (Reg.SLF_DCC_STATUS_SLIP_REPEAT.nth port) = s.fld (Reg.SLF_DCC_STATUS_SLIP_REPEAT.nth port) :=
      State.fld_setFld_apart _ _ _ 0 _ rfl (by decide : 24 + 1 ≤ 32) (by decide : 8 + 8 ≤ 32) (.inl (by decide : 8 + 8 ≤ 24))
    have hbump := (s.setDcc port p).fld_bump_self (Reg.SLF_DCC_STATUS_SLIP_REPEAT.nth port) 0 1 (by decide : 8 + 8 ≤ 32)
    rw [hcount] at hbump
    beta_reduce
    rw [State.inCore_on hco, hexec]
    exact ⟨rfl, (State.fld_emit _ _ _ _).trans hbump⟩
  case refine_20 =>
    intro s port g p hco hport hg hr hp hrun
    refine ⟨_, rfl, State.inCore_of_same ?_⟩
    have hget : s.line.dcc.getD port {} = p := by rw [AMap.getD, hp]; rfl
    rw [State.dccFrame_eq hport, if_neg (by rw [State.dccGroup, ← hg, hr]; decide), hget, if_pos hrun]
  case refine_21 =>
    intro s port g hco hport hg hr
    refine ⟨_, rfl, ?_⟩
    have hexec : s.dccFrame port = s.setDcc port { s.line.dcc.getD port {} with buf := [], got := none, running := false } := by
      rw [State.dccFrame_eq hport, if_pos (by rw [State.dccGroup, ← hg, hr])]
    have hfr := s.setDcc_keeps port { s.line.dcc.getD port {} with buf := [], got := none, running := false }
    beta_reduce
    rw [State.inCore_on hco, hexec]
    exact ⟨State.dcc_setDcc _ _ _, State.flag_setFlag_self _ (Reg.SLF_DCC_STATUS_ACTIVE.nth port) _ _ (by decide : 24 + 1 ≤ 32) rfl,
      hfr.within (ps := [.regs .slf, .line]) (by decide +kernel)⟩
  case refine_22 =>
    intro s port h
    refine ⟨_, rfl, State.inCore_of_same ?_⟩
    unfold State.dccFrame
    exact if_pos h

end Sys2Proof.Machine


/-!
PROOFS. Packets (R180, R197): a departing frame whose setts cannot be read, one of which is no sett at all.
-/

namespace Sys2Proof.Machine

/-- A frame stored in sett 0 and in a number beyond both dies, 60 dies' worth of setts on. -/
def straySettFrame : Dep := { frame := [], setts := [0, 47185920] }

/-- The core in service and port 0 up, with that frame at the head of a class T queue. Sett 0 is
charged to requester 0, and another frame stands in it too. -/
def strayFrameQueued : State :=
  let s : State := { State.reset with boot := { State.reset.boot with porst := false, railOrder := [0, 1, 2, 3, 4, 5, 6, 7] } }
  let u := (s.setFld Reg.TMS_SHP_RATE_RATE_MBPS 0 1000).setFld Reg.TMS_CLASS_MAP_CLASS 0 0
  { u with
    sett := { u.sett with setts := [(0, ⟨0, 2⟩)] }
    swc := { u.swc with ports := [(0, { up := true })], queues := [(0, { deps := [straySettFrame] })] } }

/-- Two symbols of the frame's first word are wrong at each of the three tries. -/
def wordLost : List SettErr := [⟨0, [[(0, 1), (1, 1)], [(0, 1), (1, 1)], [(0, 1), (1, 1)]]⟩]

theorem readSetts_wordLost : readSetts straySettFrame.frame wordLost = none := by decide +kernel

/-- The departure's queue, and what leaves it. -/
theorem selectQueue_strayFrameQueued : (strayFrameQueued.selectQueue 0).map (fun p => (p.1, (p.2.departQ p.1).map (·.1))) = some (0, some straySettFrame) := by
  decide +kernel

/-- A departure whose setts cannot be read ends in a corrupt frame. -/
theorem State.depart_corrupt {s s1 s2 : State} {port q : Nat} {d : Dep} {errs : List SettErr} (hup : s.portUp port = true)
    (he : s.encrypts port = false) (hl : s.llrOn port = false) (hsel : s.selectQueue port = some (q, s1)) (hdep : s1.departQ q = some (d, s2))
    (hread : readSetts d.frame errs = none) : ∃ u, Fr 0x1000200100 s u ∧ s.depart port errs = u.settCorrupt d.setts := by
  have h1 : Fr 0x1000200100 s s1 := State.selectQueue_fr (Fr.refl 0x1000200100 s) rfl hsel
  have h2 : Fr 0x1000200100 s s2 := State.departQ_fr h1 rfl hdep
  unfold State.depart
  rw [hup, he, hl, if_neg (by simp), if_neg (by simp), if_neg (by simp), hsel]
  dsimp only
  rw [hdep]
  dsimp only
  rw [hread]
  refine ⟨_, ?_, rfl⟩
  split
  · exact State.setPortSt_fr (State.noteLaunch_fr h2 rfl) rfl
  · exact State.noteLaunch_fr h2 rfl

/-- One register read by two of its fields. -/
theorem State.fld_of_corrupt (s : State) : s.fld (Reg.SETT_POOL_STATUS_REF_FAULTS.nth 60) 0 = s.fld Reg.SETT_STAT_CORRUPT_COUNT 0 / 2 ^ 20 % 2 ^ 8 := by
  have hkey : (Reg.SETT_POOL_STATUS_REF_FAULTS.nth 60).key 0 = Reg.SETT_STAT_CORRUPT_COUNT.key 0 := by decide
  rw [State.fld, State.fld, hkey]
  generalize s.reg (Reg.SETT_STAT_CORRUPT_COUNT.key 0) = r
  show r.toNat / 2 ^ 20 % 2 ^ 8 = r.toNat / 2 ^ 0 % 2 ^ 32 / 2 ^ 20 % 2 ^ 8
  have := r.isLt
  omega

/-- The reference fault of the stray number is counted in what stands 60 registers after POOL_STATUS0, which is the count of corrupt
frames. -/
theorem State.corrupt_stray {u : State} (hu : u.sett = strayFrameQueued.sett) :
    1 ≤ (u.settCorrupt straySettFrame.setts).fld (Reg.SETT_POOL_STATUS_REF_FAULTS.nth 60) 0 := by
  have hcorrupt : u.settCorrupt straySettFrame.setts = ((u.bump Reg.SETT_STAT_CORRUPT_COUNT 0).settFree 0).settFree 47185920 := by
    rw [State.settCorrupt, State.settOwner, hu]
    rfl
  have hfirst : (u.bump Reg.SETT_STAT_CORRUPT_COUNT 0).settFree 0 =
      (u.bump Reg.SETT_STAT_CORRUPT_COUNT 0).onSett fun p => { p with setts := p.setts.put 0 ⟨0, 1⟩ } :=
    State.settFree_of_shared (e := ⟨0, 2⟩) (by rw [State.bump_sett, hu]; rfl) (by decide)
  generalize hw : (u.bump Reg.SETT_STAT_CORRUPT_COUNT 0).onSett (fun p => { p with setts := p.setts.put 0 ⟨0, 1⟩ }) = w at hfirst
  have hnone : w.sett.setts.find 47185920 = none := by
    rw [← hw, State.onSett, State.bump_sett, hu]
    rfl
  rw [hcorrupt, hfirst, State.settFree_of_free hnone, (State.raise_keeps _ _ _ _).fld_eq _ _ rfl rfl]
  exact le_of_le_of_eq (Nat.le_min.mpr ⟨by decide, Nat.le_add_left 1 _⟩) (w.fld_bump_self (Reg.SETT_POOL_STATUS_REF_FAULTS.nth 60) 0 1 (by decide)).symm

/-- Refutes O35: a departing frame with an uncorrectable sett raises CORRUPT of its requester by one; where the frame also names a
number that is no sett, freeing that raises the same register again. -/
theorem not_packetRows : ¬ Obligations.PacketRows := by
  unfold Obligations.PacketRows
  rintro ⟨-, -, -, -, h, -⟩
  have hup : strayFrameQueued.portUp 0 = true := rfl
  have he : strayFrameQueued.encrypts 0 = false := by decide +kernel
  have hl : strayFrameQueued.llrOn 0 = false := by decide +kernel
  have hco : strayFrameQueued.coreOff = false := by decide +kernel
  obtain ⟨t, ht, hmatch⟩ := h strayFrameQueued 0 wordLost hco (by decide) rfl hup he hl
  obtain ⟨⟨q, s1⟩, hsel, hp⟩ := Option.map_eq_some_iff.mp selectQueue_strayFrameQueued
  obtain ⟨rfl, hd⟩ := Prod.mk.inj hp
  obtain ⟨⟨d, s2⟩, hdep, rfl⟩ := Option.map_eq_some_iff.mp hd
  have hleaves : t = strayFrameQueued.depart 0 wordLost := by
    refine (Host.Outcome.next.inj ht).symm.trans ((State.inPool_on hco _).trans (State.pooled_of_parked ?_))
    have hfr : Fr 0x2c0838702813c0 strayFrameQueued (strayFrameQueued.depart 0 wordLost) := State.depart_fr (Fr.refl _ _) rfl
    exact congrArg TptState.parked (hfr.tpt_eq rfl)
  obtain ⟨u, hu, hdepart⟩ := State.depart_corrupt hup he hl hsel hdep readSetts_wordLost
  rw [hsel] at hmatch
  dsimp only at hmatch
  rw [hdep] at hmatch
  dsimp only at hmatch
  rw [readSetts_wordLost] at hmatch
  have hcount := hmatch (by decide +kernel)
  have hstray := State.corrupt_stray (hu.sett_eq rfl)
  rw [← hdepart, ← hleaves, State.fld_of_corrupt] at hstray
  rw [show strayFrameQueued.settOwner straySettFrame.setts = 0 by decide +kernel] at hcount
  rw [hcount, show strayFrameQueued.fld Reg.SETT_STAT_CORRUPT_COUNT 0 = 0 by decide +kernel] at hstray
  exact absurd hstray (by decide)

end Sys2Proof.Machine


/-!
PROOFS. Departures that wait for setts (R185, R187), and a datagram on its way to an open context (R234, R235, R238).
-/

namespace Sys2Proof.Machine

/-! ### Departures -/

/-- A departure of a frame of the device's own, or of a packet that a context resends: it takes setts and changes no context. -/
def Waiting.sends : Waiting → Bool
  | .own _ => true
  | .resend _ _ => true
  | _ => false

/-- What a departure does: it takes and frees setts, joins queues, or waits. -/
structure State.Departs (s t : State) : Prop where
  frame : Fr 0x2c0058700000c0 s t
  tpt : ∃ p, t.tpt = { s.tpt with parked := p } ∧ ((∀ w ∈ s.tpt.parked, w.sends = true) → ∀ w ∈ p, w.sends = true)

theorem State.Departs.refl (s : State) : s.Departs s := ⟨Fr.refl _ s, _, rfl, fun h => h⟩

theorem State.Departs.trans {s t u : State} (h : s.Departs t) (k : t.Departs u) : s.Departs u := by
  obtain ⟨hf, p, ht, hp⟩ := h
  obtain ⟨kf, q, hu, hq⟩ := k
  refine ⟨hf.trans kf, q, by rw [hu, ht], fun hs => hq ?_⟩
  rw [ht]
  exact hp hs

/-- An operation that leaves transport alone. -/
theorem Fr.departs {s t : State} (h : Fr 0x2c0018700000c0 s t) : s.Departs t :=
  ⟨h.weaken rfl, s.tpt.parked, by rw [h.tpt_eq rfl], fun hs => hs⟩

/-- One more departure waits. -/
theorem State.departs_parks (s : State) {w : Waiting} (h : w.sends = true) :
    s.Departs (s.onTpt fun t => { t with parked := t.parked ++ [w] }) := by
  refine ⟨(State.onTpt_fr (Fr.refl 0x4000000000 s) rfl).weaken rfl, _, rfl, fun hs v hv => ?_⟩
  rcases List.mem_append.mp hv with hv | hv
  · exact hs v hv
  · rw [List.mem_singleton.mp hv]
    exact h

theorem State.departs_settFrees (s : State) (l : List Nat) : s.Departs (s.settFrees l) := ((State.settFrees_fr (Fr.refl 0x2c000870000040 s) rfl).weaken rfl : Fr 0x2c0018700000c0 s (s.settFrees l)).departs

theorem State.departs_sendOut (s : State) (p : Parked) : s.Departs (s.sendOut p) := by
  unfold State.sendOut
  have hstore : Fr 0x2c000870000040 s (s.settStore p.req p.frame).2 := State.settStore_fr (Fr.refl _ s) rfl
  generalize s.settStore p.req p.frame = r at hstore
  obtain ⟨l, u⟩ := r
  have hu : s.Departs u := (hstore.weaken rfl : Fr 0x2c0018700000c0 s u).departs
  cases l with
  | none => exact hu.trans (u.departs_parks rfl)
  | some l => exact hu.trans (Fr.departs (State.launch_fr (Fr.refl _ u) rfl))

theorem State.departs_sendCtrl (s : State) (n : Nat) (payload : Bytes) : s.Departs (s.sendCtrl n payload) := by
  unfold State.sendCtrl
  split
  · exact s.departs_sendOut _
  · exact .refl s

theorem State.departs_park (s : State) {w : Waiting} (h : w.sends = true) : s.Departs (s.park w) := by
  unfold State.park
  split
  · exact .refl s
  · exact s.departs_parks h

theorem State.departs_departHeld (s : State) (n : Nat) (hold : List Nat) (frame : Bytes) {w : Waiting} (h : w.sends = true) :
    s.Departs (s.departHeld n hold frame w id) := by
  unfold State.departHeld
  dsimp only
  have hshare : Fr 0x2c000870000040 s (s.shareOrCopy hold frame).2 := State.shareOrCopy_fr (Fr.refl _ s) rfl
  generalize s.shareOrCopy hold frame = r at hshare
  obtain ⟨l, u⟩ := r
  have hu : s.Departs u := (hshare.weaken rfl : Fr 0x2c0018700000c0 s u).departs
  cases l with
  | none =>
    dsimp only
    split
    · exact hu
    · exact hu.trans (u.departs_park h)
  | some l => exact hu.trans (Fr.departs (State.routeOut_fr (Fr.refl _ u) rfl))

theorem State.departs_resendHeld (s : State) (n psn : Nat) : s.Departs (s.resendHeld n psn) := by
  unfold State.resendHeld
  split
  · exact .refl s
  · split
    · exact .refl s
    · exact s.departs_departHeld _ _ _ rfl

theorem State.departs_collMulticast (s : State) (g chunk : Nat) (payload : Bytes) : s.Departs (s.collMulticast g chunk payload) := by
  unfold State.collMulticast
  split
  · exact .refl s
  · split
    · exact .refl s
    · exact s.departs_sendOut _

/-! ### What waits is tried again -/

theorem State.departs_retryOne (s : State) {w : Waiting} (h : w.sends = true) : s.Departs (s.retryOne w) := by
  have herase : s.Departs (s.onTpt fun t => { t with parked := t.parked.erase w }) :=
    ⟨(State.onTpt_fr (Fr.refl 0x4000000000 s) rfl).weaken rfl, _, rfl, fun hs v hv => hs v (List.mem_of_mem_erase hv)⟩
  unfold State.retryOne
  extract_lets s0 t
  have ht : s0.Departs t := by
    unfold t
    cases w with
    | own p => exact s0.departs_sendOut p
    | resend n psn => exact s0.departs_resendHeld n psn
    | output g q c b => exact absurd h Bool.false_ne_true
    | data n => exact absurd h Bool.false_ne_true
  split
  · exact herase.trans ht
  · exact .refl s

theorem State.Departs.sends {s t : State} (h : s.Departs t) (hs : ∀ w ∈ s.tpt.parked, w.sends = true) : ∀ w ∈ t.tpt.parked, w.sends = true := by
  obtain ⟨-, p, ht, hp⟩ := h
  rw [ht]
  exact hp hs

theorem State.departs_retryFreed (n : Nat) (s0 s : State) (hs : ∀ w ∈ s.tpt.parked, w.sends = true) : s.Departs (State.retryFreed n s0 s) := by
  have hfold (l : List Waiting) (hl : ∀ w ∈ l, w.sends = true) (u : State) : u.Departs (l.foldl (fun s w => s.retryOne w) u) := by
    induction l generalizing u with
    | nil => exact .refl u
    | cons w l ih => exact (u.departs_retryOne (hl w (by simp))).trans (ih (fun v hv => hl v (by simp [hv])) _)
  induction n generalizing s0 s with
  | zero => exact .refl s
  | succ n ih =>
    unfold State.retryFreed
    dsimp only
    split
    · exact .refl s
    · have hdue := hfold (s.tpt.parked.filter fun w => s0.freedOn s (s.waitDie w)) (fun w hw => hs w (List.mem_of_mem_filter hw)) s
      exact hdue.trans (ih s _ (hdue.sends hs))

/-- A command after which nothing but such departures waits ends with departures. -/
theorem State.departs_inPool {s : State} {f : State → State} (hco : s.coreOff = false) (hs : ∀ w ∈ (f s).tpt.parked, w.sends = true) :
    (f s).Departs (s.inPool f) := by
  rw [State.inPool_on hco]
  unfold State.pooled
  dsimp only
  split
  · exact .refl _
  · exact State.departs_retryFreed _ _ _ hs

theorem State.Departs.ctx {s t : State} (h : s.Departs t) (n : Nat) : t.ctx? n = s.ctx? n := by
  obtain ⟨-, p, ht, -⟩ := h
  rw [State.ctx?, ht]
  rfl

theorem State.Departs.col {s t : State} (h : s.Departs t) : t.col = s.col := h.frame.col_eq rfl

/-! ### A datagram for an open context -/

section
variable {s : State} {req : Nat} {frame d : Bytes} {l : List Nat} {want : Bytes → Bool} {k : Nat → Bytes → List Nat → State → State}

theorem State.rxDatagram_none (h : s.datagramOf frame = none) : s.rxDatagram req frame want k = s := by
  unfold State.rxDatagram
  rw [h]

/-- A datagram that fails a check is dropped and counted. -/
theorem State.rxDatagram_bad {sumOk : Bool} (hd : s.datagramOf frame = some (d, sumOk)) (hbad : sumOk = false ∨ tpBad d = true)
    (hl : (s.settStore req frame).1 = some l) : s.rxDatagram req frame want k = (((s.settStore req frame).2).settFrees l).tptCount 4 := by
  have hb : (!sumOk || tpBad d) = true := by
    rcases hbad with h | h
    · rw [h]; rfl
    · rw [h, Bool.or_true]
  unfold State.rxDatagram
  rw [hd]
  dsimp only
  rw [hb, if_neg (by simp)]
  generalize s.settStore req frame = r at hl ⊢
  obtain ⟨x, u⟩ := r
  cases hl
  exact if_pos rfl

section
variable (hd : s.datagramOf frame = some (d, true)) (hok : tpBad d = false) (hl : (s.settStore req frame).1 = some l) (hw : want d = true)
include hd hok hl hw

theorem State.rxDatagram_noContext (ho : s.ctxOpen (tDst d) = false) :
    s.rxDatagram req frame want k = (((s.settStore req frame).2).settFrees l).tptCount 3 := by
  have hfr : Fr 0x2c000870000040 s (s.settStore req frame).2 := State.settStore_fr (Fr.refl _ s) rfl
  unfold State.rxDatagram
  rw [hd]
  dsimp only
  rw [hok, hw, if_neg (by decide)]
  generalize s.settStore req frame = r at hl hfr ⊢
  obtain ⟨x, u⟩ := r
  cases hl
  have hopen : u.ctxOpen (tDst d) = false := by rw [State.ctxOpen, State.ctx?, hfr.tpt_eq rfl]; exact ho
  dsimp only
  rw [if_neg (by decide), hopen, if_pos (by simp)]

/-- On a context that is not cached a datagram waits for its record. -/
theorem State.rxDatagram_waits (hn : tDst d < 262144) (ho : s.ctxOpen (tDst d) = true) (hc : s.cached (tDst d) = false) :
    s.rxDatagram req frame want k = (s.settStore req frame).2.onTpt fun t => { t with waiting := t.waiting ++ [⟨tDst d, d, l⟩] } := by
  have hfr : Fr 0x2c000870000040 s (s.settStore req frame).2 := State.settStore_fr (Fr.refl _ s) rfl
  unfold State.rxDatagram
  rw [hd]
  dsimp only
  rw [hok, hw, if_neg (by decide)]
  generalize s.settStore req frame = r at hl hfr ⊢
  obtain ⟨x, u⟩ := r
  cases hl
  have hopen : u.ctxOpen (tDst d) = true := by rw [State.ctxOpen, State.ctx?, hfr.tpt_eq rfl]; exact ho
  have hcached : u.cached (tDst d) = false := by rw [State.cached, State.ctxCache, hfr.tpt_eq rfl]; exact hc
  dsimp only
  rw [if_neg (by decide), hopen, hcached, if_neg (by simp; omega), if_neg (by decide)]

/-- On an open context that is cached, and of its generation, the datagram is acted on. -/
theorem State.rxDatagram_acts (hn : tDst d < 262144) {c : Ctx} (hctx : s.ctx? (tDst d) = some c) (hf : c.failed = false) (hc : s.cached (tDst d) = true)
    (hg : tGen d = cGen (s.ctxRec (tDst d))) :
    s.rxDatagram req frame want k = k (tDst d) d l ((s.settStore req frame).2.ctxTouch (tDst d)) := by
  have hfr : Fr 0x2c000870000040 s (s.settStore req frame).2 := State.settStore_fr (Fr.refl _ s) rfl
  unfold State.rxDatagram
  rw [hd]
  dsimp only
  rw [hok, hw, if_neg (by decide)]
  generalize s.settStore req frame = r at hl hfr ⊢
  obtain ⟨x, u⟩ := r
  cases hl
  have hctx' : u.ctx? (tDst d) = some c := by rw [State.ctx?, hfr.tpt_eq rfl]; exact hctx
  have hopen : u.ctxOpen (tDst d) = true := by rw [State.ctxOpen, hctx']; simp [hf]
  have hcached : u.cached (tDst d) = true := by rw [State.cached, State.ctxCache, hfr.tpt_eq rfl]; exact hc
  have hrec : u.ctxRec (tDst d) = s.ctxRec (tDst d) := by rw [State.ctxRec, State.tabRec, hfr.swc_eq rfl]; rfl
  dsimp only
  rw [if_neg (by decide), hopen, hcached, if_neg (by simp; omega), if_pos rfl]
  unfold State.rxOpen
  rw [hctx']
  dsimp only
  rw [hf, if_neg (by decide), hrec, if_pos (.inl hg)]

end

end

/-- Storing a datagram's frame and touching its context leaves all but setts and the order of the cache. -/
theorem State.received_keeps (s : State) (req : Nat) (frame : Bytes) (n : Nat) : Fr 0x2c004870000040 s ((s.settStore req frame).2.ctxTouch n) :=
  State.ctxTouch_fr (State.settStore_fr (Fr.refl _ s) rfl) rfl

theorem State.ctx_ctxTouch (s : State) (n m : Nat) : (s.ctxTouch n).ctx? m = s.ctx? m := by
  unfold State.ctxTouch State.setCtxCache
  split
  · unfold State.ctx? State.onTpt
    dsimp only
    split
    · rfl
    · rfl
  · rfl

theorem State.parked_ctxTouch (s : State) (n : Nat) : (s.ctxTouch n).tpt.parked = s.tpt.parked := by
  unfold State.ctxTouch State.setCtxCache
  split
  · unfold State.onTpt
    dsimp only
    split
    · rfl
    · rfl
  · rfl

theorem State.ctx_received (s : State) (req : Nat) (frame : Bytes) (n m : Nat) : ((s.settStore req frame).2.ctxTouch n).ctx? m = s.ctx? m := by
  have hfr : Fr 0x2c000870000040 s (s.settStore req frame).2 := State.settStore_fr (Fr.refl _ s) rfl
  rw [State.ctx_ctxTouch, State.ctx?, hfr.tpt_eq rfl, State.ctx?]

theorem State.parked_received (s : State) (req : Nat) (frame : Bytes) (n : Nat) : ((s.settStore req frame).2.ctxTouch n).tpt.parked = s.tpt.parked := by
  have hfr : Fr 0x2c000870000040 s (s.settStore req frame).2 := State.settStore_fr (Fr.refl _ s) rfl
  rw [State.parked_ctxTouch, hfr.tpt_eq rfl]

end Sys2Proof.Machine


/-!
PROOFS. What a read of device memory depends on (R126 to R138): the memory unit and the registers of translation and of the HBM
map.
-/

namespace Sys2Proof.Machine

/-- Two states that read memory alike. -/
structure State.MemAlike (s t : State) : Prop where
  mem : t.mem = s.mem
  regs : ∀ (f : Fld) (i : Nat), f.blk = .mmu ∨ f.blk = .hbm → t.fld f i = s.fld f i

/-- An operation that leaves the memory unit and those registers. -/
theorem Fr.memAlike {X : Nat} {s t : State} (h : Fr X s t) (hX : X.testBit 32 = false ∧ X.testBit 3 = false ∧ X.testBit 4 = false) : s.MemAlike t where
  mem := h.mem_eq hX.1
  regs f i hf := by
    rcases hf with hf | hf
    · exact h.fld_eq f i (by rw [hf]; exact hX.2.1) (by rw [hf]; rfl)
    · exact h.fld_eq f i (by rw [hf]; exact hX.2.2) (by rw [hf]; rfl)

namespace State.MemAlike

variable {s t : State} (h : s.MemAlike t)
include h

theorem hbmBacked (a : Nat) : t.hbmBacked a = s.hbmBacked a := by
  rw [State.hbmBacked, h.regs Reg.HBM_MAP_STATUS_VISIBLE_GIB 0 (.inr rfl), State.hbmBacked]

theorem backed (a : Nat) : t.backed a = s.backed a := by
  rw [State.backed, h.hbmBacked, h.mem, State.backed]

theorem isLost (a : Nat) : t.isLost a = s.isLost a := by
  rw [State.isLost, State.lostList, h.mem]
  rfl

theorem memByte (k : MemKey) (a : Nat) : t.memByte k a = s.memByte k a := by
  unfold State.memByte State.unlisted
  rw [h.mem]

theorem memRead (k : MemKey) (a n : Nat) : t.memRead k a n = s.memRead k a n :=
  List.map_congr_left fun i _ => h.memByte k (a + i)

theorem walkFrom (dva : Nat) (write : Bool) (l : List (Nat × Nat × Bool × Bool)) (table : Nat) :
    t.walkFrom dva write l table = s.walkFrom dva write l table := by
  induction l generalizing table with
  | nil => rfl
  | cons x l ih =>
    obtain ⟨lsb, w, ptr, leaf⟩ := x
    unfold State.walkFrom
    simp only [h.memRead, h.isLost, h.backed, h.hbmBacked, ih]

theorem translate (d dva : Nat) (write : Bool) : t.translate d dva write = s.translate d dva write := by
  have hroot : t.domRoot d = s.domRoot d := by
    rw [State.domRoot, h.regs Reg.MMU_DOM_ROOT_LO_ROOT d (.inl rfl), h.regs Reg.MMU_DOM_ROOT_HI_ROOT d (.inl rfl), State.domRoot]
  unfold State.translate
  rw [State.flag, h.regs Reg.MMU_DOM_CFG_IDENTITY d (.inl rfl), h.backed, h.mem, h.walkFrom, hroot]
  simp only [h.backed]
  rfl

theorem domKey (d : Nat) : t.domKey d = s.domKey d := by
  rw [State.domKey, State.epoch, h.mem, State.flag, h.regs Reg.MMU_DOM_CFG_IDENTITY d (.inl rfl)]
  rfl

theorem rangeFault (d dva n : Nat) (write : Bool) : t.rangeFault d dva n write = s.rangeFault d dva n write := by
  unfold State.rangeFault
  simp only [h.translate]

theorem dvaLost (d dva n : Nat) : t.dvaLost d dva n = s.dvaLost d dva n := by
  unfold State.dvaLost
  simp only [h.translate, h.isLost]

theorem dvaRead (d dva n : Nat) : t.dvaRead d dva n = s.dvaRead d dva n := by
  unfold State.dvaRead
  simp only [h.translate, h.domKey, h.memByte]

theorem readLog (d log fmt chunk : Nat) : t.readLog d log fmt chunk = s.readLog d log fmt chunk := by
  unfold State.readLog
  simp only [h.rangeFault, h.dvaLost, h.dvaRead]

end State.MemAlike

end Sys2Proof.Machine


/-!
PROOFS. Messages of collective operations (R279 to R282, R293): what a control datagram does at an open context, and how an
operation ends.
-/

namespace Sys2Proof.Machine

/-! ### The bench at rest -/

/-- With no operation and no contribution held nothing follows. -/
theorem State.collSettle_empty {s : State} (hops : s.col.ops = []) (hheld : s.col.held = []) : s.collSettle = s := by
  have hdyn : s.dynOps = [] := by rw [State.dynOps, hops]; rfl
  have hopen : s.openPlanned = s := by
    unfold State.openPlanned
    generalize s.col.bayWaits = l
    induction l with
    | nil => rfl
    | cons w l ih =>
      rw [List.foldl_cons]
      have hnone : s.collOp w.1 w.2.1 = none := by rw [State.collOp, hops]; rfl
      rw [hnone]
      exact ih
  have hadmit (n : Nat) : State.admitLoop n s = s := by
    cases n with
    | zero => rfl
    | succ n =>
      unfold State.admitLoop
      rw [hdyn]
      rfl
  have hheldPass (n : Nat) : State.settleHeld n s = s := by
    cases n with
    | zero => rfl
    | succ n =>
      have hpass : s.settlePass = s := by rw [State.settlePass, hheld]; rfl
      unfold State.settleHeld
      dsimp only
      rw [hpass, if_neg (Nat.lt_irrefl _)]
  have hpump : s.collPump1 = s := by
    unfold State.collPump1
    rw [hdyn, List.foldl_nil]
    dsimp only
    rw [hopen, hadmit, hheldPass]
  have hsweep : s.collSweep = s := by rw [State.collSweep, hops]; rfl
  unfold State.collSettle
  rw [hheld, hops]
  unfold State.collPump
  dsimp only
  rw [hpump, hsweep, if_pos ⟨rfl, rfl⟩]

/-- One admitted operation all of whose bays have opened, with chunks still to come, waits. -/
theorem State.collSettle_rests {s : State} {g q : Nat} {o : CollOp} (hops : s.col.ops = [((g, q), o)]) (hheld : s.col.held = [])
    (hwaits : s.col.bayWaits = []) (hg : o.group = g) (hq : o.seq = q) (hplan : o.plan = none) (hadm : o.admission = .admitted)
    (hleaving : o.leaving = []) (hbow : o.chunks ≤ o.nextBow) (hstern : o.chunks ≤ o.nextStern) (hlog : o.logHeld = [])
    (hdone : o.done.length ≠ o.chunks) : s.collSettle = s := by
  have hop : s.collOp g q = some o := by
    rw [State.collOp, hops, AMap.find]
    simp
  have hdyn : s.dynOps = [o] := by
    rw [State.dynOps, hops]
    simp [hplan]
  have hdie (n d : Nat) : State.openDie n g q d s = s := by
    cases n with
    | zero => rfl
    | succ n =>
      unfold State.openDie
      rw [hop]
      dsimp only
      refine if_neg fun h => ?_
      simp only [Bool.and_eq_true, decide_eq_true_eq] at h
      have hnext := h.2
      by_cases hd : d = 0
      · rw [if_pos hd] at hnext
        omega
      · rw [if_neg hd] at hnext
        omega
  have hopen : s.openPlanned = s := by rw [State.openPlanned, hwaits]; rfl
  have hadmit (n : Nat) : State.admitLoop n s = s := by
    cases n with
    | zero => rfl
    | succ n =>
      unfold State.admitLoop
      rw [hdyn, if_neg (by simp [hleaving])]
      have hwait : [o].filter (fun o => o.admission == .wait) = [] := by simp [hadm]
      rw [hwait]
      rfl
  have hheldPass (n : Nat) : State.settleHeld n s = s := by
    cases n with
    | zero => rfl
    | succ n =>
      have hpass : s.settlePass = s := by rw [State.settlePass, hheld]; rfl
      unfold State.settleHeld
      dsimp only
      rw [hpass, if_neg (Nat.lt_irrefl _)]
  have hpump : s.collPump1 = s := by
    unfold State.collPump1
    rw [hdyn, List.foldl_cons, List.foldl_nil, hg, hq, hdie, hdie]
    dsimp only
    rw [hopen, hadmit, hheldPass]
  have hsweep : s.collSweep = s := by
    rw [State.collSweep, hops, List.map_cons, List.map_nil, List.foldl_cons, List.foldl_nil, hg, hq, hop]
    dsimp only
    rw [hlog, if_neg (by simp), if_neg (by simp [hdone])]
  unfold State.collSettle
  rw [hheld, hops]
  unfold State.collPump
  dsimp only
  rw [hpump, hsweep, if_pos ⟨rfl, rfl⟩]

/-! ### An operation that ends -/

theorem le_advanceDone (f n : Nat) (l : List Nat) : n ≤ (advanceDone f n l).1 := by
  induction f generalizing n l with
  | zero => exact Nat.le_refl n
  | succ f ih =>
    unfold advanceDone
    split
    · exact Nat.le_trans (Nat.le_succ n) (ih _ _)
    · exact Nat.le_refl n

/-- The watermark passes a done operation or leaves it listed. -/
theorem mem_advanceDone {q : Nat} (f n : Nat) (l : List Nat) (h : q ∈ l) : q < (advanceDone f n l).1 ∨ q ∈ (advanceDone f n l).2 := by
  induction f generalizing n l with
  | zero => exact .inr h
  | succ f ih =>
    unfold advanceDone
    split
    · by_cases hq : q = n
      · exact .inl (hq ▸ le_advanceDone f (n + 1) _)
      · exact ih _ _ (by simp [without, h, hq])
    · exact .inr h

theorem State.collDone_markDone (s : State) (g q : Nat) (p : PastOp) : (s.markDone g q p).collDone g q = true := by
  have hmem : q ∈ withElem (s.grpState g).doneAbove q := mem_withElem_self _ _
  have hadv := mem_advanceDone ((withElem (s.grpState g).doneAbove q).length + 1) (s.grpState g).doneNext _ hmem
  have hgrp : (s.markDone g q p).grpState g = { doneNext := (advanceDone ((withElem (s.grpState g).doneAbove q).length + 1) (s.grpState g).doneNext (withElem (s.grpState g).doneAbove q)).1, doneAbove := (advanceDone ((withElem (s.grpState g).doneAbove q).length + 1) (s.grpState g).doneNext (withElem (s.grpState g).doneAbove q)).2, past := (p :: (s.grpState g).past).take 15 } :=
    AMap.getD_put_self _ _ _ _
  rw [State.collDone, hgrp, Bool.or_eq_true, decide_eq_true_eq, List.contains_iff_mem]
  exact hadv

theorem State.collDone_congr {s t : State} (h : t.col.groups = s.col.groups) (g q : Nat) : t.collDone g q = s.collDone g q := by
  rw [State.collDone, State.grpState, h, State.collDone, State.grpState]

/-- The only operation closes: none is left, and it counts as done. -/
theorem State.collClose_only {s : State} {g q : Nat} {o : CollOp} (hops : s.col.ops = [((g, q), o)]) (hheld : s.col.held = [])
    (hg : o.group = g) (hq : o.seq = q) (status : Nat) :
    (s.collClose o status).col.ops = [] ∧ (s.collClose o status).col.held = [] ∧ (s.collClose o status).collDone g q = true := by
  have hdrop : (s.dropHeld g q).col.ops = s.col.ops ∧ (s.dropHeld g q).col.held = [] := by
    have hfree : (s.settFrees ((s.col.held.filter fun c => c.key.group == g && c.key.seq == q).flatMap fun c => c.pieces.flatMap (·.setts))).col = s.col :=
      (State.settFrees_fr (Fr.refl 0x2c000870000040 s) rfl).col_eq rfl
    unfold State.dropHeld State.onCol
    dsimp only
    rw [hfree, hheld]
    exact ⟨rfl, rfl⟩
  have hrest (u : State) (key : Nat × Nat) : (u.restOver key).col.ops = u.col.ops ∧ (u.restOver key).col.held = u.col.held := by
    have hunpin (l : List PlanRest) : (l.foldl (fun (s : State) r => s.unpin r.ctxs) u).col = u.col :=
      foldl_keeps (P := State.col) (fun t r _ => (State.unpin_fr (Fr.refl 0x4000000000 t) rfl).col_eq rfl) u
    unfold State.restOver State.onCol
    dsimp only
    rw [hunpin]
    exact ⟨rfl, rfl⟩
  unfold State.collClose
  extract_lets s1 s2
  have h1 : s1.col.ops = [] ∧ s1.col.held = [] := by
    obtain ⟨hro, hrh⟩ := hrest (s.dropHeld g q) (g, q)
    have hdel : AMap.del s.col.ops (g, q) = [] := by
      rw [hops]
      simp [AMap.del]
    unfold s1 State.onCol
    dsimp only
    rw [hg, hq, hro, hrh, hdrop.1, hdrop.2, hdel]
    exact ⟨rfl, rfl⟩
  have h2 : s2.col.ops = [] ∧ s2.col.held = [] ∧ s2.collDone g q = true := by
    refine ⟨h1.1, h1.2, ?_⟩
    unfold s2
    rw [hg, hq]
    exact s1.collDone_markDone g q _
  obtain ⟨ho, hh, hd⟩ := h2
  clear_value s2
  have hraise (d : Nat) (slot : Nat) : (s2.raise Ev.PLAN_OP_FAILED slot d).col = s2.col := (s2.raise_keeps _ _ _).col_eq rfl
  have hend (k : OpKey) (c : Completion) : (s2.endOp k c).col = s2.col := (State.endOp_fr (Fr.refl 0x40000000 s2) rfl).col_eq rfl
  split
  · split
    · exact ⟨ho, hh, hd⟩
    · rw [hraise, State.collDone_congr (congrArg ColState.groups (hraise _ _))]
      exact ⟨ho, hh, hd⟩
  · rw [hend, State.collDone_congr (congrArg ColState.groups (hend _ _))]
    exact ⟨ho, hh, hd⟩
  · exact ⟨ho, hh, (State.collDone_congr (s := s2) rfl g q).trans hd⟩

/-- What waits for setts is no matter of an operation that closes. -/
theorem State.parked_collClose (s : State) (o : CollOp) (status : Nat) : (s.collClose o status).tpt.parked = s.tpt.parked := by
  have hunpin (u : State) (l : List Nat) : (u.unpin l).tpt.parked = u.tpt.parked := by
    refine foldl_keeps (P := fun t : State => t.tpt.parked) (fun t n _ => ?_) u
    split
    · rfl
    · rfl
  have hrest (u : State) (key : Nat × Nat) : (u.restOver key).tpt.parked = u.tpt.parked := by
    unfold State.restOver State.onCol
    dsimp only
    exact foldl_keeps (P := fun t : State => t.tpt.parked) (fun t r _ => hunpin t _) u
  have hdrop : (s.dropHeld o.group o.seq).tpt = s.tpt := (State.dropHeld_fr (Fr.refl 0x2c008870000040 s) rfl).tpt_eq rfl
  unfold State.collClose
  extract_lets s1 s2
  have h2 : s2.tpt.parked = s.tpt.parked :=
    (congrArg TptState.parked ((State.markDone_fr (Fr.refl 0x8000000000 s1) rfl).tpt_eq rfl)).trans ((hrest _ _).trans (congrArg TptState.parked hdrop))
  clear_value s2
  split
  · split
    · exact h2
    · exact (congrArg TptState.parked ((s2.raise_keeps _ _ _).tpt_eq rfl)).trans h2
  · exact (congrArg TptState.parked ((State.endOp_fr (Fr.refl 0x40000000 s2) rfl).tpt_eq rfl)).trans h2
  · exact h2

theorem State.collEnd_only {s : State} {g q : Nat} {o : CollOp} (hops : s.col.ops = [((g, q), o)]) (hheld : s.col.held = [])
    (hg : o.group = g) (hq : o.seq = q) (hleaving : o.leaving = []) (status : Nat) :
    (s.collEnd o status).collOp g q = none ∧ (s.collEnd o status).collDone g q = true ∧ (s.collEnd o status).tpt.parked = s.tpt.parked := by
  obtain ⟨ho, hh, hd⟩ := State.collClose_only hops hheld hg hq status
  unfold State.collEnd
  rw [hleaving, if_pos (by simp), State.collSettle_empty ho hh]
  refine ⟨?_, hd, s.parked_collClose o status⟩
  rw [State.collOp, ho]
  rfl

theorem State.Departs.collOver {s t : State} (h : s.Departs t) {g q : Nat} (hop : s.collOp g q = none) (hd : s.collDone g q = true) :
    t.collOp g q = none ∧ t.collDone g q = true := by
  refine ⟨?_, (State.collDone_congr (congrArg ColState.groups h.col) g q).trans hd⟩
  rw [State.collOp, h.col]
  exact hop

/-! ### A control datagram at its context -/

/-- A datagram taken in: its frame stored, its context used last, and its setts free again. -/
def State.takenIn (s : State) (req : Nat) (frame : Bytes) (n : Nat) (l : List Nat) : State := ((s.settStore req frame).2.ctxTouch n).settFrees l

section
variable (s : State) (req : Nat) (frame : Bytes) (n : Nat) (l : List Nat)

theorem State.takenIn_keeps : Fr 0x2c004870000040 s (s.takenIn req frame n l) := State.settFrees_fr (s.received_keeps req frame n) rfl

theorem State.ctx_takenIn (m : Nat) : (s.takenIn req frame n l).ctx? m = s.ctx? m :=
  ((State.departs_settFrees _ l).ctx m).trans (s.ctx_received req frame n m)

theorem State.parked_takenIn : (s.takenIn req frame n l).tpt.parked = s.tpt.parked := by
  have hfr : Fr 0x2c000870000040 ((s.settStore req frame).2.ctxTouch n) (s.takenIn req frame n l) := State.settFrees_fr (Fr.refl _ _) rfl
  rw [hfr.tpt_eq rfl, State.parked_received]

end

section
variable {s : State} {req : Nat} {frame d : Bytes} {l : List Nat} {c : Ctx} (hp : s.tpt.parked = []) (hd : s.datagramOf frame = some (d, true))
  (hok : tpBad d = false) (hl : (s.settStore req frame).1 = some l) (hn : tDst d < 262144) (hctx : s.ctx? (tDst d) = some c)
  (hf : c.failed = false) (hc : s.cached (tDst d) = true) (hg : tGen d = cGen (s.ctxRec (tDst d)))
include hd hok hl hn hctx hf hc hg

/-- A control message of the type expected is acted on. -/
theorem State.received_ctrl (ht : tTyp d = 2) {ct : Nat} (hk : kCtype d = ct) :
    s.rxDatagram req frame (isCtrl ct) (fun n d l s => s.rxCtrl n d l) = ((s.settStore req frame).2.ctxTouch (tDst d)).rxCtrl (tDst d) d l :=
  State.rxDatagram_acts hd hok hl (by rw [isCtrl, ht, hk]; simp) hn hctx hf hc hg

end

/-- A command that ends with what waits for setts, where nothing but departures does. -/
theorem State.departs_of_exec {s u : State} {f : State → State} (hco : s.coreOff = false) (hu : f s = u) (hs : ∀ w ∈ u.tpt.parked, w.sends = true) :
    u.Departs (s.inPool f) := by
  have h := State.departs_inPool (f := f) hco (by rw [hu]; exact hs)
  rwa [hu] at h

theorem no_sends {l : List Waiting} (h : l = []) : ∀ w ∈ l, w.sends = true := by
  rw [h]
  exact fun _ hw => absurd hw List.not_mem_nil

theorem State.received_departs {s : State} {req : Nat} {frame d : Bytes} {l : List Nat} {c : Ctx} (hco : s.coreOff = false)
    (hd : s.datagramOf frame = some (d, true)) (hok : tpBad d = false) (hl : (s.settStore req frame).1 = some l) (hn : tDst d < 262144)
    (hctx : s.ctx? (tDst d) = some c) (hf : c.failed = false) (hc : s.cached (tDst d) = true) (hg : tGen d = cGen (s.ctxRec (tDst d)))
    (ht : tTyp d = 2) {ct : Nat} (hk : kCtype d = ct) {u : State} (hact : ((s.settStore req frame).2.ctxTouch (tDst d)).rxCtrl (tDst d) d l = u)
    (hs : ∀ w ∈ u.tpt.parked, w.sends = true) :
    u.Departs (s.inPool fun s => s.rxDatagram req frame (isCtrl ct) fun n d l s => s.rxCtrl n d l) :=
  State.departs_of_exec (f := fun s => s.rxDatagram req frame (isCtrl ct) fun n d l s => s.rxCtrl n d l) hco
    ((State.received_ctrl hd hok hl hn hctx hf hc hg ht hk).trans hact) hs

/-! ### Queries (R282) -/

theorem State.outerChunk_congr {s t : State} (hm : s.MemAlike t) (hswc : t.swc = s.swc) (hout : t.outer = s.outer) (hash : t.ash = s.ash)
    (g q chunk : Nat) : t.outerChunk g q chunk = s.outerChunk g q chunk := by
  have hpiece (r : Bytes) (x : OutPiece) (c : Nat) : t.pieceChunk r x c = s.pieceChunk r x c := by
    unfold State.pieceChunk State.pieceLost State.levels
    simp only [hm.dvaRead, hm.dvaLost, hash]
  unfold State.outerChunk State.shardRec State.shard State.tabRec
  simp only [hswc, hout, hpiece]

/-- A QUERY for an operation that is over is answered from what is kept of it. -/
theorem State.rxQuery_over {s : State} {n g q chunk : Nat} (hdone : s.collDone g q = true) (hout : s.outerChunk g q chunk = none)
    (hop : s.collOp g q = none) : s.rxQuery n g q chunk =
      match ((s.grpState g).past.take (s.fld Reg.COL_ADMIT_CFG_RESULT_DEPTH)).find? fun p => p.seq == q with
      | some p => s.answerQuery n g q chunk p
      | none => (s.colCount 13).sendCtrl n (ctrlHead 5 0 g q chunk 0 0 0 0 0) := by
  unfold State.rxQuery
  rw [hdone, if_pos rfl, hout]
  dsimp only
  rw [hop]
  exact if_pos rfl

/-- The same of a QUERY just taken in, by the state before. -/
theorem State.received_query {s : State} {req : Nat} {frame d : Bytes} {l : List Nat} (hk : kCtype d = 4)
    (hdone : s.collDone (kGroup d) (kSeq d) = true) (hout : s.outerChunk (kGroup d) (kSeq d) (kChunk d) = none)
    (hop : s.collOp (kGroup d) (kSeq d) = none) : ((s.settStore req frame).2.ctxTouch (tDst d)).rxCtrl (tDst d) d l =
      match ((s.grpState (kGroup d)).past.take (s.fld Reg.COL_ADMIT_CFG_RESULT_DEPTH)).find? fun p => p.seq == kSeq d with
      | some p => (s.takenIn req frame (tDst d) l).answerQuery (tDst d) (kGroup d) (kSeq d) (kChunk d) p
      | none => ((s.takenIn req frame (tDst d) l).colCount 13).sendCtrl (tDst d) (ctrlHead 5 0 (kGroup d) (kSeq d) (kChunk d) 0 0 0 0 0) := by
  have hkeeps := s.takenIn_keeps req frame (tDst d) l
  have hcol : (s.takenIn req frame (tDst d) l).col = s.col := hkeeps.col_eq rfl
  have hgrp : (s.takenIn req frame (tDst d) l).grpState (kGroup d) = s.grpState (kGroup d) := by rw [State.grpState, hcol, State.grpState]
  have hop' : (s.takenIn req frame (tDst d) l).collOp (kGroup d) (kSeq d) = none := by
    rw [State.collOp, hcol]
    exact hop
  have hover := State.rxQuery_over (n := tDst d) ((State.collDone_congr (congrArg ColState.groups hcol) _ _).trans hdone)
    ((State.outerChunk_congr (hkeeps.memAlike ⟨rfl, rfl, rfl⟩) (hkeeps.swc_eq rfl) (hkeeps.outer_eq rfl) (hkeeps.ash_eq rfl) _ _ _).trans hout) hop'
  rw [hgrp, hkeeps.fld_eq Reg.COL_ADMIT_CFG_RESULT_DEPTH 0 rfl rfl] at hover
  rw [State.rxCtrl, hk]
  exact hover

section
variable {s : State} {p : PastOp} {chunk : Nat} (hc : chunk ∈ p.done) (n g q : Nat)
include hc

/-- A chunk whose result the log keeps. -/
theorem State.answerQuery_log (hcode : p.code = 0 ∨ p.code = 3) (hlog : p.log ≠ 0) (hread : (s.readLog p.domain p.log p.fmt chunk).isSome = true) :
    ∃ v m, Fr 0x100000000 s v ∧ s.answerQuery n g q chunk p = (v.colCount 12).sendCtrl n m := by
  obtain ⟨data, hdata⟩ := Option.isSome_iff_exists.mp hread
  unfold State.answerQuery
  dsimp only
  rw [if_neg (by simp [hc]), if_pos hcode, if_neg hlog, hdata]
  exact ⟨_, _, State.cacheRange_fr (Fr.refl _ s) rfl, rfl⟩

theorem State.answerQuery_done (hcode : ¬(p.code = 0 ∨ p.code = 3)) :
    s.answerQuery n g q chunk p = (s.colCount 12).sendCtrl n (ctrlHead 2 0 g q chunk 0 0 0 0 0) := by
  unfold State.answerQuery
  dsimp only
  rw [if_neg (by simp [hc]), if_neg hcode]

end

/-- An answer is counted, and changes no operation. -/
theorem State.colStat_answered {s v t : State} (hv : Fr 0x2c004970000040 s v) {k n : Nat} {m : Bytes} (ht : ((v.colCount k).sendCtrl n m).Departs t) :
    t.fld Reg.COL_STAT_VALUE_VALUE k = min 0xFFFFFFFF (s.fld Reg.COL_STAT_VALUE_VALUE k + 1) ∧ t.col = s.col := by
  have hsent := ((v.colCount k).departs_sendCtrl n m).trans ht
  have hcount : (v.colCount k).fld Reg.COL_STAT_VALUE_VALUE k = min 0xFFFFFFFF (v.fld Reg.COL_STAT_VALUE_VALUE k + 1) :=
    State.fld_bump_self _ Reg.COL_STAT_VALUE_VALUE _ 1 (by decide)
  have hcol : (v.colCount k).col = v.col := rfl
  refine ⟨?_, hsent.col.trans (hcol.trans (hv.col_eq rfl))⟩
  rw [hsent.frame.fld_eq Reg.COL_STAT_VALUE_VALUE k rfl rfl, hcount, hv.fld_eq Reg.COL_STAT_VALUE_VALUE k rfl rfl]

/-! ### RESULT and QUERY_TIMER -/

/-- A RESULT from the parent, for a chunk complete and not yet done, of an operation without log or entries: it is relayed, and the
chunk is done. -/
theorem State.rxResult_relays {s : State} {d : Bytes} {o : CollOp} {r : Bytes} (hop : s.collOp (kGroup d) (kSeq d) = some o)
    (hgrp : s.collGroup (kGroup d) = some r) (hroot : gRoot r = false) (hcomp : kChunk d ∈ o.complete) (hdone : kChunk d ∉ o.done)
    (hlog : o.log = 0) (hent : o.entries = false) (hg : o.group = kGroup d) (hq : o.seq = kSeq d) : ∃ u, s.Departs u ∧
      s.rxResult d = (u.setCollOp { o with done := o.done ++ [kChunk d], queries := o.queries.del (kChunk d) }).collSettle := by
  unfold State.rxResult
  dsimp only
  rw [hop, hgrp]
  dsimp only
  rw [hroot, if_neg (by simp [hcomp, hdone])]
  have hsend := s.departs_collMulticast (kGroup d) (kChunk d) (ctrlHead 3 0 (kGroup d) (kSeq d) (kChunk d) 0 1024 (kFmt d) 0 0 ++ sliceB d 72 (tLen d - 32))
  refine ⟨_, hsend, ?_⟩
  have hop' : (s.collMulticast (kGroup d) (kChunk d) (ctrlHead 3 0 (kGroup d) (kSeq d) (kChunk d) 0 1024 (kFmt d) 0 0 ++ sliceB d 72 (tLen d - 32))).collOp o.group o.seq = some o := by
    rw [State.collOp, hsend.col, hg, hq]
    exact hop
  unfold State.sendResult State.writeLog State.chunkDone
  rw [if_pos hlog, hop', if_neg (by rw [hent]; exact Bool.false_ne_true)]
  dsimp only
  rw [withElem, if_neg hdone]

theorem State.queryTimer_again {s : State} {g q chunk n : Nat} {o : CollOp} {r : Bytes} (hop : s.collOp g q = some o) (hgrp : s.collGroup g = some r)
    (hn : o.queries.find chunk = some n) (hack : s.uplinkAcked (gUplink r) g q chunk = true) (h8 : n < 8) : s.queryTimer g q chunk =
      (s.setCollOp { o with queries := o.queries.put chunk (n + 1) }).sendCtrl (gUplink r) (ctrlHead 4 0 g q chunk 0 0 0 0 0) := by
  unfold State.queryTimer
  rw [hop, hgrp]
  dsimp only
  rw [hn]
  dsimp only
  rw [hack, if_neg (by decide), if_neg (by omega)]

theorem State.queryTimer_ends {s : State} {g q chunk n : Nat} {o : CollOp} {r : Bytes} (hop : s.collOp g q = some o) (hgrp : s.collGroup g = some r)
    (hn : o.queries.find chunk = some n) (hack : s.uplinkAcked (gUplink r) g q chunk = true) (h8 : 8 ≤ n) :
    s.queryTimer g q chunk = s.collEnd o stCOLL_RESULT_LOST := by
  unfold State.queryTimer
  rw [hop, hgrp]
  dsimp only
  rw [hn]
  dsimp only
  rw [hack, if_neg (by decide), if_pos h8]

theorem State.queryTimer_none {s : State} {g q chunk : Nat} (h : s.collOp g q = none ∨ s.collGroup g = none) : s.queryTimer g q chunk = s := by
  unfold State.queryTimer
  rcases h with h | h
  · rw [h]
  · rw [h]
    split
    · next heq => exact absurd heq (by simp)
    · rfl

theorem State.collOp_only {s : State} {g q : Nat} {o : CollOp} (h : s.col.ops = [((g, q), o)]) : s.collOp g q = some o := by
  rw [State.collOp, h, AMap.find]
  simp

/-- Settles O43, clause by clause: the datagram reaches its context, and what it does there ends with departures alone. -/
theorem collectiveMessageRows : Obligations.CollectiveMessageRows := by
  unfold Obligations.CollectiveMessageRows
  refine ⟨?_, ?_, ?_, ?_, ?_, ?_, ?_, ?_, ?_⟩
  case refine_1 =>
    intro s req frame d l c hco hp hd hok hl hn hctx hf hc hg ht hk
    have hact : ((s.settStore req frame).2.ctxTouch (tDst d)).rxCtrl (tDst d) d l = s.takenIn req frame (tDst d) l := by
      rw [State.rxCtrl, hk]
      rfl
    have hdep := State.received_departs hco hd hok hl hn hctx hf hc hg ht hk hact
      (no_sends ((s.parked_takenIn req frame (tDst d) l).trans hp))
    have hkeeps := s.takenIn_keeps req frame (tDst d) l
    exact ⟨_, rfl, hdep.col.trans (hkeeps.col_eq rfl), (hdep.ctx _).trans ((s.ctx_takenIn req frame (tDst d) l _).trans hctx),
      (hdep.frame.mem_eq rfl).trans (hkeeps.mem_eq rfl)⟩
  case refine_2 =>
    intro s req frame d l c o r hco hp hd hok hl hn hctx hf hc hg ht hk hops hheld hog hoq hwaits hgrp hroot hcomp hdone hlog hent hlh hplan hadm hleave hbow hstern hlen
    have hkeeps := s.takenIn_keeps req frame (tDst d) l
    have hcol : (s.takenIn req frame (tDst d) l).col = s.col := hkeeps.col_eq rfl
    have hop : (s.takenIn req frame (tDst d) l).collOp (kGroup d) (kSeq d) = some o := by
      rw [State.collOp, hcol]
      exact State.collOp_only hops
    have hgrp' : (s.takenIn req frame (tDst d) l).collGroup (kGroup d) = some r := by
      rw [State.collGroup, State.tabRec, hkeeps.swc_eq rfl]
      exact hgrp
    obtain ⟨u, hu, heq⟩ := State.rxResult_relays hop hgrp' hroot hcomp hdone hlog hent hog hoq
    have hset : (u.setCollOp { o with done := o.done ++ [kChunk d], queries := o.queries.del (kChunk d) }).col =
        { s.col with ops := [((kGroup d, kSeq d), { o with done := o.done ++ [kChunk d], queries := o.queries.del (kChunk d) })] } := by
      rw [State.setCollOp, State.onCol, hu.col, hcol]
      dsimp only
      rw [hops, hog, hoq]
      simp [AMap.put]
    have hrests : (u.setCollOp { o with done := o.done ++ [kChunk d], queries := o.queries.del (kChunk d) }).collSettle =
        u.setCollOp { o with done := o.done ++ [kChunk d], queries := o.queries.del (kChunk d) } :=
      State.collSettle_rests (g := kGroup d) (q := kSeq d) (congrArg ColState.ops hset) ((congrArg ColState.held hset).trans hheld)
        ((congrArg ColState.bayWaits hset).trans hwaits) hog hoq hplan hadm hleave hbow hstern hlh (by simp; omega)
    have hact : ((s.settStore req frame).2.ctxTouch (tDst d)).rxCtrl (tDst d) d l =
        u.setCollOp { o with done := o.done ++ [kChunk d], queries := o.queries.del (kChunk d) } := by
      rw [State.rxCtrl, hk]
      exact heq.trans hrests
    have hdep := State.received_departs hco hd hok hl hn hctx hf hc hg ht hk hact
      (hu.sends (no_sends ((s.parked_takenIn req frame (tDst d) l).trans hp)))
    refine ⟨_, rfl, ?_⟩
    beta_reduce
    rw [State.collOp, hdep.col, hset]
    simp [AMap.find]
  case refine_3 =>
    intro s req frame d l c p hco hp hd hok hl hn hctx hf hc hg ht hk hdone hout hop hfind hmem hcode hlog hread
    have hkeeps := s.takenIn_keeps req frame (tDst d) l
    obtain ⟨v, m, hv, hans⟩ := State.answerQuery_log (s := s.takenIn req frame (tDst d) l) hmem (tDst d) (kGroup d) (kSeq d) hcode hlog
      (by rw [(hkeeps.memAlike ⟨rfl, rfl, rfl⟩).readLog]; exact hread)
    have hact := State.received_query (req := req) (frame := frame) (l := l) hk hdone hout hop
    rw [hfind] at hact
    have hparked : v.tpt.parked = [] := by rw [hv.tpt_eq rfl, State.parked_takenIn, hp]
    have hdep := State.received_departs hco hd hok hl hn hctx hf hc hg ht hk (hact.trans hans)
      (((v.colCount 12).departs_sendCtrl (tDst d) m).sends (no_sends hparked))
    exact ⟨_, rfl, State.colStat_answered ((hkeeps.weaken rfl : Fr 0x2c004970000040 s _).trans (hv.weaken rfl)) hdep⟩
  case refine_4 =>
    intro s req frame d l c p hco hp hd hok hl hn hctx hf hc hg ht hk hdone hout hop hfind hmem h0 h3
    have hact := State.received_query (req := req) (frame := frame) (l := l) hk hdone hout hop
    rw [hfind] at hact
    have hans := State.answerQuery_done (s := s.takenIn req frame (tDst d) l) hmem (tDst d) (kGroup d) (kSeq d) (not_or.mpr ⟨h0, h3⟩)
    have hdep := State.received_departs hco hd hok hl hn hctx hf hc hg ht hk (hact.trans hans)
      ((((s.takenIn req frame (tDst d) l).colCount 12).departs_sendCtrl _ _).sends (no_sends ((s.parked_takenIn req frame (tDst d) l).trans hp)))
    exact ⟨_, rfl, State.colStat_answered ((s.takenIn_keeps req frame (tDst d) l).weaken rfl) hdep⟩
  case refine_5 =>
    intro s req frame d l c hco hp hd hok hl hn hctx hf hc hg ht hk hdone hout hop hfind
    have hact := State.received_query (req := req) (frame := frame) (l := l) hk hdone hout hop
    rw [hfind] at hact
    have hdep := State.received_departs hco hd hok hl hn hctx hf hc hg ht hk hact
      ((((s.takenIn req frame (tDst d) l).colCount 13).departs_sendCtrl _ _).sends (no_sends ((s.parked_takenIn req frame (tDst d) l).trans hp)))
    exact ⟨_, rfl, State.colStat_answered ((s.takenIn_keeps req frame (tDst d) l).weaken rfl) hdep⟩
  case refine_6 =>
    intro s req frame d l c o r hco hp hd hok hl hn hctx hf hc hg ht hk hops hheld hog hoq hgrp hup hquery hleave
    have hkeeps := s.takenIn_keeps req frame (tDst d) l
    have hcol : (s.takenIn req frame (tDst d) l).col = s.col := hkeeps.col_eq rfl
    have hop : (s.takenIn req frame (tDst d) l).collOp (kGroup d) (kSeq d) = some o := by
      rw [State.collOp, hcol]
      exact State.collOp_only hops
    have hgrp' : (s.takenIn req frame (tDst d) l).collGroup (kGroup d) = some r := by
      rw [State.collGroup, State.tabRec, hkeeps.swc_eq rfl]
      exact hgrp
    have hact : ((s.settStore req frame).2.ctxTouch (tDst d)).rxCtrl (tDst d) d l = (s.takenIn req frame (tDst d) l).collEnd o stCOLL_RESULT_LOST := by
      have hgone : (s.takenIn req frame (tDst d) l).rxGone (tDst d) d = (s.takenIn req frame (tDst d) l).collEnd o stCOLL_RESULT_LOST := by
        unfold State.rxGone
        rw [hop, hgrp']
        exact if_pos (by rw [hup, hquery]; simp)
      rw [State.rxCtrl, hk]
      exact hgone
    obtain ⟨hnone, hdone, hparked⟩ := State.collEnd_only (s := s.takenIn req frame (tDst d) l) (by rw [hcol]; exact hops) (by rw [hcol]; exact hheld)
      hog hoq hleave stCOLL_RESULT_LOST
    have hdep := State.received_departs hco hd hok hl hn hctx hf hc hg ht hk hact
      (no_sends (hparked.trans ((s.parked_takenIn req frame (tDst d) l).trans hp)))
    exact ⟨_, rfl, hdep.collOver hnone hdone⟩
  case refine_7 =>
    intro s g q chunk n o r hco hp hop hog hoq hgrp hn hack h8
    have hact := State.queryTimer_again hop hgrp hn hack h8
    have hdep := State.departs_of_exec (f := fun s => s.queryTimer g q chunk) hco hact
      (((s.setCollOp { o with queries := o.queries.put chunk (n + 1) }).departs_sendCtrl _ _).sends (no_sends hp))
    have hsent := (s.setCollOp { o with queries := o.queries.put chunk (n + 1) }).departs_sendCtrl (gUplink r) (ctrlHead 4 0 g q chunk 0 0 0 0 0)
    refine ⟨_, rfl, ?_⟩
    beta_reduce
    rw [State.collOp, (hsent.trans hdep).col]
    subst hog hoq
    exact AMap.find_put_self _ _ _
  case refine_8 =>
    intro s g q chunk n o r hco hp hops hheld hog hoq hgrp hn hack h8 hleave
    have hact := State.queryTimer_ends (State.collOp_only hops) hgrp hn hack h8
    obtain ⟨hnone, hdone, hparked⟩ := State.collEnd_only hops hheld hog hoq hleave stCOLL_RESULT_LOST
    have hdep := State.departs_of_exec (f := fun s => s.queryTimer g q chunk) hco hact (no_sends (hparked.trans hp))
    exact ⟨_, rfl, hdep.collOver hnone hdone⟩
  case refine_9 => exact fun s g q chunk h => ⟨_, rfl, State.inPool_of_same (State.queryTimer_none h)⟩

end Sys2Proof.Machine


/-!
PROOFS. Transport receiving: data and acknowledgements at an open context, and the fetch of a context's record (R234 to R245).
-/

namespace Sys2Proof.Machine

theorem State.ctx_setCtx_self (s : State) (n : Nat) (c : Ctx) : (s.setCtx n c).ctx? n = some c := AMap.find_put_self _ _ _

theorem psnSub_self {a : Nat} (h : a < M32) : psnSub a a = 0 := by
  rw [psnSub, Nat.mod_eq_of_lt h, Nat.add_sub_cancel_left, Nat.mod_self]

theorem natBE_lt (b : Bytes) : natBE b < 256 ^ b.length := by
  have hfold (l : Bytes) (a n : Nat) (h : a < 256 ^ n) : l.foldl (fun a (x : Byte) => a * 256 + x.toNat) a < 256 ^ (n + l.length) := by
    induction l generalizing a n with
    | nil => exact h
    | cons x l ih =>
      have hx : x.toNat < 256 := x.isLt
      have hstep := ih (a * 256 + x.toNat) (n + 1) (by rw [Nat.pow_succ]; omega)
      rwa [List.length_cons, Nat.add_comm l.length, ← Nat.add_assoc]
  have h := hfold b 0 0 (by simp)
  rwa [Nat.zero_add] at h

/-- A PSN stands in four bytes. -/
theorem tPsn_lt (d : Bytes) : tPsn d < M32 := by
  have hlen : (sliceB d 12 4).length = 4 := by simp [sliceB]
  have h := natBE_lt (sliceB d 12 4)
  rwa [hlen] at h

/-! ### Acknowledgements (R245) -/

theorem State.rttSample_keeps (s : State) (c : Ctx) (r : Rat) :
    (s.rttSample c r).sndUna = c.sndUna ∧ (s.rttSample c r).rcvNxt = c.rcvNxt ∧ (s.rttSample c r).rcvMap = c.rcvMap ∧
      (s.rttSample c r).partials = c.partials := ⟨rfl, rfl, rfl, rfl⟩

/-- An acknowledgement: holds go, and of its context what is received stays; SND_UNA moves on. -/
theorem State.onAck_eq {s : State} {n : Nat} {c : Ctx} (h : s.ctx? n = some c) (ack : Nat) (sack : Bytes) :
    ∃ l c', s.onAck n ack sack = (s.settFrees l).setCtx n c' ∧ c'.rcvNxt = c.rcvNxt ∧ c'.rcvMap = c.rcvMap ∧ c'.partials = c.partials ∧
      (psnSub ((ack + 1) % M32) c.sndUna ≤ psnSub c.sndNxt c.sndUna → c'.sndUna = (c.sndUna + psnSub ((ack + 1) % M32) c.sndUna) % M32) := by
  unfold State.onAck
  split
  · next hnone => exact absurd (hnone.symm.trans h) (by simp)
  next c0 hsome =>
  obtain rfl : c0 = c := Option.some.inj (hsome.symm.trans h)
  extract_lets una d0 d cum bits mark fresh c1 c2
  have hd : psnSub una c0.sndUna ≤ psnSub c0.sndNxt c0.sndUna → d = psnSub una c0.sndUna := fun hle => if_pos hle
  have hc2 : c2.sndUna = c1.sndUna ∧ c2.rcvNxt = c1.rcvNxt ∧ c2.rcvMap = c1.rcvMap ∧ c2.partials = c1.partials := by
    unfold c2
    split
    · exact s.rttSample_keeps c1 _
    · exact ⟨rfl, rfl, rfl, rfl⟩
  obtain ⟨huna, hnxt, hmap, hpart⟩ := hc2
  exact ⟨_, _, rfl, hnxt, hmap, hpart, fun hle => huna.trans (by rw [show c1.sndUna = (c0.sndUna + d) % M32 from rfl, hd hle])⟩

theorem State.tpt_settFrees (s : State) (l : List Nat) : (s.settFrees l).tpt = s.tpt :=
  (State.settFrees_fr (Fr.refl 0x2c000870000040 s) rfl).tpt_eq rfl

/-- What sending held packets again does: departures, and counts in the sent list. -/
structure State.Resends (s t : State) : Prop where
  frame : Fr 0x2c0058700002c0 s t
  tpt : ∃ p m, t.tpt = { s.tpt with parked := p, ctxs := m } ∧ ((∀ w ∈ s.tpt.parked, w.sends = true) → ∀ w ∈ p, w.sends = true)
  una : ∀ n, (t.ctx? n).map Ctx.sndUna = (s.ctx? n).map Ctx.sndUna

theorem State.Resends.refl (s : State) : s.Resends s := ⟨Fr.refl _ s, ⟨_, _, rfl, fun h => h⟩, fun _ => rfl⟩

theorem State.Resends.trans {s t u : State} (h : s.Resends t) (k : t.Resends u) : s.Resends u := by
  obtain ⟨hf, ⟨p, m, ht, hp⟩, huna⟩ := h
  obtain ⟨kf, ⟨q, m', hu, hq⟩, kuna⟩ := k
  refine ⟨hf.trans kf, ⟨q, m', by rw [hu, ht], fun hs => hq ?_⟩, fun n => (kuna n).trans (huna n)⟩
  rw [ht]
  exact hp hs

theorem State.Departs.resends {s t : State} (h : s.Departs t) : s.Resends t := by
  refine ⟨h.frame.weaken rfl, ?_, fun n => by rw [h.ctx]⟩
  obtain ⟨-, p, ht, hp⟩ := h
  exact ⟨p, s.tpt.ctxs, ht, hp⟩

theorem State.Resends.sends {s t : State} (h : s.Resends t) (hs : ∀ w ∈ s.tpt.parked, w.sends = true) : ∀ w ∈ t.tpt.parked, w.sends = true := by
  obtain ⟨-, ⟨p, m, ht, hp⟩, -⟩ := h
  rw [ht]
  exact hp hs

theorem State.resends_setCtx {s : State} {n : Nat} {c c' : Ctx} (h : s.ctx? n = some c) (huna : c'.sndUna = c.sndUna) : s.Resends (s.setCtx n c') := by
  refine ⟨State.setCtx_fr (Fr.refl _ s) rfl, ⟨s.tpt.parked, _, rfl, fun hs => hs⟩, fun m => ?_⟩
  by_cases hm : m = n
  · subst hm
    rw [State.ctx_setCtx_self, h]
    exact congrArg some huna
  · exact congrArg (Option.map Ctx.sndUna) (AMap.find_put_ne s.tpt.ctxs n m c' hm)

theorem State.resends_resend (s : State) (n psn : Nat) : s.Resends (s.resend n psn) := by
  unfold State.resend
  split
  · exact .refl s
  · next c hc =>
    split
    · exact .refl s
    · next p hp =>
      have hset := State.resends_setCtx (s := s) (n := n) (c := c) (c' := { c with sent := c.sent.map fun q =>
        if q.psn = psn then { q with once := false, last := some s.uptimeNs, backoff := false } else q }) hc rfl
      generalize s.setCtx n { c with sent := c.sent.map fun q =>
        if q.psn = psn then { q with once := false, last := some s.uptimeNs, backoff := false } else q } = u at hset ⊢
      have hcount : u.Resends (u.tptCount 6) := ⟨State.tptCount_fr (Fr.refl _ u) rfl, ⟨_, _, rfl, fun hs => hs⟩, fun _ => rfl⟩
      exact (hset.trans hcount).trans (State.departs_departHeld _ n p.setts _ rfl).resends

theorem State.resends_fastResend (s : State) (n : Nat) : s.Resends (s.fastResend n) := by
  have hfold (l : List SentPkt) (u : State) : u.Resends (l.foldl (fun s p => s.resend n p.psn) u) := by
    induction l generalizing u with
    | nil => exact .refl u
    | cons p l ih => exact (u.resends_resend n p.psn).trans (ih _)
  unfold State.fastResend
  split
  · exact .refl s
  · exact hfold _ s

/-- An ACK packet, with no operation on the bench. -/
theorem State.rxAck_spec {s : State} {n : Nat} {c : Ctx} (hctx : s.ctx? n = some c) (hops : s.col.ops = []) (hheld : s.col.held = []) (d : Bytes) (l : List Nat)
    (hack : psnSub ((tAckPsn d + 1) % 2 ^ 32) c.sndUna ≤ psnSub c.sndNxt c.sndUna) :
    ((s.rxAck n d l).ctx? n).map Ctx.sndUna = some ((c.sndUna + psnSub ((tAckPsn d + 1) % 2 ^ 32) c.sndUna) % 2 ^ 32) ∧
      (∃ p m, (s.rxAck n d l).tpt = { s.tpt with parked := p, ctxs := m }) ∧
      ((∀ w ∈ s.tpt.parked, w.sends = true) → ∀ w ∈ (s.rxAck n d l).tpt.parked, w.sends = true) := by
  have hfree : (s.settFrees l).ctx? n = some c := by rw [State.ctx?, State.tpt_settFrees]; exact hctx
  obtain ⟨l', c', heq, -, -, -, huna⟩ := State.onAck_eq hfree (tAckPsn d) (tPayload d)
  have hon : ((s.settFrees l).onAck n (tAckPsn d) (tPayload d)).tpt = { s.tpt with ctxs := s.tpt.ctxs.put n c' } := by
    rw [heq, State.setCtx, State.onTpt, State.tpt_settFrees, State.tpt_settFrees]
  have hctx' : ((s.settFrees l).onAck n (tAckPsn d) (tPayload d)).ctx? n = some c' := by rw [heq, State.ctx_setCtx_self]
  have honcol : ((s.settFrees l).onAck n (tAckPsn d) (tPayload d)).col = s.col :=
    (State.onAck_fr (State.settFrees_fr (Fr.refl 0x2c004870000040 s) rfl) rfl).col_eq rfl
  have hres := ((s.settFrees l).onAck n (tAckPsn d) (tPayload d)).resends_fastResend n
  have hcol := (hres.frame.col_eq rfl).trans honcol
  have hall : s.rxAck n d l = (((s.settFrees l).onAck n (tAckPsn d) (tPayload d)).fastResend n) :=
    State.collSettle_empty (by rw [hcol, hops]) (by rw [hcol, hheld])
  rw [hall]
  refine ⟨?_, ?_, fun hs => hres.sends (by rw [hon]; exact hs)⟩
  · rw [hres.una, hctx']
    exact congrArg some (huna hack)
  · obtain ⟨-, ⟨p, m, ht, -⟩, -⟩ := hres
    exact ⟨p, m, by rw [ht, hon]⟩

/-! ### DATA packets (R241 to R243) -/

theorem State.sendAck_spec {s : State} {n : Nat} {c : Ctx} (h : s.ctx? n = some c) : (s.setCtx n { c with sinceAck := 0 }).Departs (s.sendAck n) := by
  unfold State.sendAck
  rw [h]
  exact State.departs_sendOut _ _

theorem State.ctx_of_tpt {s t : State} (h : t.tpt = s.tpt) (n : Nat) : t.ctx? n = s.ctx? n := by rw [State.ctx?, h, State.ctx?]

/-- A packet received before is counted and acknowledged; what the context has received stays. -/
theorem State.rxData_again {s : State} {n : Nat} {d : Bytes} {c : Ctx} (hctx : s.ctx? n = some c) (l : List Nat)
    (h : tPsn d ∈ c.rcvMap ∨ 2 ^ 31 ≤ psnSub (tPsn d) c.rcvNxt) :
    ∃ u c', Fr 0x2c004870000040 s u ∧ (u.tpt.parked = s.tpt.parked) ∧ c'.rcvNxt = c.rcvNxt ∧ c'.rcvMap = c.rcvMap ∧ c'.partials = c.partials ∧
      ((u.tptCount 1).setCtx n c').Departs (s.rxData n d l) := by
  obtain ⟨l', c', heq, hnxt, hmap, hpart, -⟩ := State.onAck_eq hctx (tAckPsn d) []
  have hctx' : (s.onAck n (tAckPsn d) []).ctx? n = some c' := by rw [heq, State.ctx_setCtx_self]
  have hfr : Fr 0x2c004870000040 s ((s.onAck n (tAckPsn d) []).settFrees l) := State.settFrees_fr (State.onAck_fr (Fr.refl _ s) rfl) rfl
  have htpt : ((s.onAck n (tAckPsn d) []).settFrees l).tpt = { s.tpt with ctxs := s.tpt.ctxs.put n c' } := by
    rw [State.tpt_settFrees, heq, State.setCtx, State.onTpt, State.tpt_settFrees]
  have hrx : s.rxData n d l = (((s.onAck n (tAckPsn d) []).settFrees l).tptCount 1).sendAck n := by
    unfold State.rxData
    dsimp only
    rw [hctx']
    dsimp only
    rw [hnxt, hmap, if_pos h.symm]
  have hu : (((s.onAck n (tAckPsn d) []).settFrees l).tptCount 1).ctx? n = some c' := by
    refine (State.ctx_of_tpt (s := (s.onAck n (tAckPsn d) []).settFrees l) rfl n).trans ?_
    rw [State.ctx?, htpt]
    exact AMap.find_put_self _ _ _
  refine ⟨_, { c' with sinceAck := 0 }, hfr, by rw [htpt], hnxt, hmap, hpart, ?_⟩
  rw [hrx]
  exact State.sendAck_spec hu

/-- A packet that overlaps none of a contribution under way, and does not complete it, joins it. -/
theorem State.placePiece_joins {s : State} {n : Nat} {d : Bytes} {c : Ctx} {ps : List Piece} (hctx : s.ctx? n = some c) (l : List Nat)
    (hps : c.partials.find ⟨tGroup d, tSeq d, tChunk d, tMember d⟩ = some ps)
    (hheld : (s.col.held.any fun x => x.key == ⟨tGroup d, tSeq d, tChunk d, tMember d⟩) = false)
    (hpieces : ps.all (fun p => !(decide (tOff d < p.off + p.count) && decide (p.off < tOff d + tCount d))) = true)
    (hsum : sumOf (ps.map Piece.count) + tCount d < 1024) :
    s.placePiece n d l = s.setCtx n { c with partials := c.partials.put ⟨tGroup d, tSeq d, tChunk d, tMember d⟩ (ps ++ [⟨tOff d, tCount d, tFmt d, tPayload d, l⟩]) } := by
  have hno : (ps.any fun p => decide (tOff d < p.off + p.count) && decide (p.off < tOff d + tCount d)) = false := by
    rw [List.any_eq_false]
    intro p hp
    have hapart := List.all_eq_true.mp hpieces p hp
    rwa [Bool.not_eq_true', ← Bool.not_eq_true] at hapart
  unfold State.placePiece
  rw [hctx]
  dsimp only
  rw [hheld, AMap.getD, hps, Option.getD_some, hno, if_neg (by decide), if_neg]
  have hadds : sumOf ((ps ++ [(⟨tOff d, tCount d, tFmt d, tPayload d, l⟩ : Piece)]).map Piece.count) = sumOf (ps.map Piece.count) + tCount d := by
    rw [sumOf, List.map_append, List.foldl_append]
    rfl
  exact Nat.not_le.mpr (lt_of_eq_of_lt hadds hsum)

/-- The next packet of a contribution under way is taken. -/
theorem State.rxData_next {s : State} {n : Nat} {d : Bytes} {c : Ctx} {ps : List Piece} (hctx : s.ctx? n = some c) (l : List Nat) (hpsn : tPsn d = c.rcvNxt)
    (hmap : c.rcvMap = []) (hps : c.partials.find ⟨tGroup d, tSeq d, tChunk d, tMember d⟩ = some ps)
    (hheld : (s.col.held.any fun x => x.key == ⟨tGroup d, tSeq d, tChunk d, tMember d⟩) = false)
    (hpieces : ps.all (fun p => !(decide (tOff d < p.off + p.count) && decide (p.off < tOff d + tCount d))) = true) (hcount : tCount d ≠ 0)
    (hsum : sumOf (ps.map Piece.count) + tCount d < 1024) (hparked : s.tpt.parked = []) :
    ∃ c', (s.rxData n d l).ctx? n = some c' ∧ (∀ w ∈ (s.rxData n d l).tpt.parked, w.sends = true) ∧ c'.rcvNxt = (c.rcvNxt + 1) % 2 ^ 32 ∧ c'.rcvMap = [] ∧
      c'.partials = c.partials.put ⟨tGroup d, tSeq d, tChunk d, tMember d⟩ (ps ++ [⟨tOff d, tCount d, tFmt d, tPayload d, l⟩]) := by
  obtain ⟨l', c', heq, hnxt', hmap', hpart', -⟩ := State.onAck_eq hctx (tAckPsn d) []
  have hctx' : (s.onAck n (tAckPsn d) []).ctx? n = some c' := by rw [heq, State.ctx_setCtx_self]
  have hon : (s.onAck n (tAckPsn d) []).tpt = { s.tpt with ctxs := s.tpt.ctxs.put n c' } := by rw [heq, State.setCtx, State.onTpt, State.tpt_settFrees]
  have hcol : (s.onAck n (tAckPsn d) []).col = s.col := (State.onAck_fr (Fr.refl 0x2c004870000040 s) rfl).col_eq rfl
  have hoff : psnSub (tPsn d) c'.rcvNxt = 0 := by
    rw [hnxt', hpsn]
    exact psnSub_self (hpsn ▸ tPsn_lt d)
  have hhas : c'.partials.has ⟨tGroup d, tSeq d, tChunk d, tMember d⟩ = true := by
    rw [hpart', AMap.has, hps]
    rfl
  have hadv : advanceRcv 257 c'.rcvNxt (c'.rcvMap ++ [tPsn d]) = ((c.rcvNxt + 1) % M32, []) := by
    rw [hnxt', hmap', hmap, hpsn, List.nil_append, advanceRcv, if_pos (by simp), without]
    simp [advanceRcv]
  unfold State.rxData
  dsimp only
  generalize s.onAck n (tAckPsn d) [] = s0 at hctx' hon hcol ⊢
  rw [hctx']
  dsimp only
  rw [hoff, hadv, hmap', hmap, if_neg (by simp), if_neg (by decide), if_pos (by rw [hhas, Bool.true_or])]
  dsimp only
  rw [if_neg hcount]
  have hrest (c1 : Ctx) : (((s0.setCtx n c1).tptCount 0).windowEnd n).ctx? n = some c1 ∧
      (((s0.setCtx n c1).tptCount 0).windowEnd n).col.held = s.col.held ∧ (((s0.setCtx n c1).tptCount 0).windowEnd n).tpt.parked = [] := by
    refine ⟨AMap.find_put_self _ _ _, ?_, (congrArg TptState.parked hon).trans hparked⟩
    exact (congrArg ColState.held (show s0.col = s.col from hcol) :)
  obtain ⟨hget, hheld', hpark'⟩ := hrest { c' with rcvNxt := (c.rcvNxt + 1) % M32, rcvMap := [], sinceAck := c'.sinceAck + 1 }
  generalize ((s0.setCtx n { c' with rcvNxt := (c.rcvNxt + 1) % M32, rcvMap := [], sinceAck := c'.sinceAck + 1 }).tptCount 0).windowEnd n = u at hget hheld' hpark' ⊢
  rw [State.placePiece_joins hget l (ps := ps) (by rw [← hps, ← hpart']) (by rw [hheld', hheld]) hpieces hsum]
  split
  · have hdep := State.sendAck_spec (State.ctx_setCtx_self u n { c' with
        rcvNxt := (c.rcvNxt + 1) % M32, rcvMap := [], sinceAck := c'.sinceAck + 1,
        partials := c'.partials.put ⟨tGroup d, tSeq d, tChunk d, tMember d⟩ (ps ++ [⟨tOff d, tCount d, tFmt d, tPayload d, l⟩]) })
    exact ⟨_, (hdep.ctx n).trans (State.ctx_setCtx_self _ _ _), hdep.sends (no_sends hpark'), rfl, rfl, by rw [hpart']⟩
  · exact ⟨_, State.ctx_setCtx_self _ _ _, no_sends hpark', rfl, rfl, by rw [hpart']⟩

/-! ### The record of a context (R238, R240) -/

section
variable {s : State} {n : Nat} (hc : s.cached n = false) (hlen : (s.ctxCache n).length < 8192)
include hc hlen

/-- A record that the cache has room for enters it. -/
theorem State.ctxCacheIn_room : s.ctxCacheIn n = some (s.setCtxCache n (s.ctxCache n ++ [n])) := by
  unfold State.ctxCacheIn
  dsimp only
  rw [State.cached] at hc
  rw [hc, if_neg (by decide), if_pos hlen]

end

theorem State.ctxCache_setCtxCache (s : State) (n : Nat) (l : List Nat) : (s.setCtxCache n l).ctxCache n = l := by
  unfold State.setCtxCache State.ctxCache State.onTpt
  dsimp only
  split
  · rfl
  · rfl

/-- Of transport an entry of the cache changes the cache alone. -/
theorem State.tpt_setCtxCache (s : State) (n : Nat) (l : List Nat) :
    ∃ a b, (s.setCtxCache n l).tpt = { s.tpt with cacheBow := a, cacheStern := b } := by
  unfold State.setCtxCache State.onTpt
  dsimp only
  split
  · exact ⟨_, _, rfl⟩
  · exact ⟨_, _, rfl⟩

theorem State.cached_ctxTouch {s : State} {n : Nat} (h : s.cached n = true) : (s.ctxTouch n).cached n = true := by
  unfold State.ctxTouch
  rw [if_pos h, State.cached, State.ctxCache_setCtxCache]
  simp

/-- A context whose record is lost is FAILED, with nothing sent or queued. -/
theorem State.ctxFail_lost {s : State} {n : Nat} {c : Ctx} (hctx : s.ctx? n = some c) (hf : c.failed = false) :
    (∃ c', (s.ctxFail n 2).ctx? n = some c' ∧ c'.failed = true ∧ c'.reason = 2 ∧ c'.sent = [] ∧ c'.queue = []) ∧
      (s.tpt.parked = [] → (s.ctxFail n 2).tpt.parked = []) := by
  have hparked : s.tpt.parked = [] → (s.ctxStop n c).tpt.parked = [] := by
    have hcounts (l : List WaitPkt) (u : State) : (l.foldl (fun s _ => s.tptCount 3) u).tpt = u.tpt := foldl_keeps (P := State.tpt) (fun (t : State) _ _ => (rfl : (t.tptCount 3).tpt = t.tpt)) u
    intro hp
    unfold State.ctxStop State.onTpt State.ctxRelease
    dsimp only
    rw [hcounts, State.tpt_settFrees, State.tpt_settFrees, hp]
    rfl
  unfold State.ctxFail
  rw [hctx]
  dsimp only
  rw [hf, if_neg (by decide), if_neg (by decide)]
  generalize s.ctxStop n c = u at hparked
  refine ⟨⟨{ c with failed := true, reason := 2, sent := [], queue := [], partials := [] }, ?_, rfl, rfl, rfl, rfl⟩, fun hp => ?_⟩
  · rw [State.ctx?, (State.raise_keeps _ _ _ _).tpt_eq rfl]
    exact AMap.find_put_self _ _ _
  · rw [(State.raise_keeps _ _ _ _).tpt_eq rfl]
    exact hparked hp

/-- The record of a context comes in, and the one datagram that waited for it acts. -/
theorem State.contextFetched_acts {s : State} {n : Nat} {d : Bytes} {l : List Nat} {c : Ctx} (hwait : s.tpt.waiting = [⟨n, d, l⟩]) (hc : s.cached n = false)
    (hlen : (s.ctxCache n).length < 8192) (hctx : s.ctx? n = some c) (hf : c.failed = false) (hg : tGen d = cGen (s.ctxRec n)) :
    ∃ u : State, s.contextFetched n [] = u.rxAny n d l ∧ u.ctx? n = some c ∧ u.cached n = true ∧ u.tpt.waiting = [] ∧ u.tpt.parked = s.tpt.parked ∧ u.col = s.col := by
  obtain ⟨a, b, htpt⟩ := s.tpt_setCtxCache n (s.ctxCache n ++ [n])
  have hcache := s.ctxCache_setCtxCache n (s.ctxCache n ++ [n])
  have hfr : Fr 0x4000000000 s (s.setCtxCache n (s.ctxCache n ++ [n])) := State.setCtxCache_fr (Fr.refl _ s) rfl
  unfold State.contextFetched
  rw [if_neg (by rw [hc]; decide)]
  dsimp only [State.recordRead, List.foldl_nil]
  unfold State.fetched
  rw [State.ctxCacheIn_room hc hlen]
  dsimp only
  generalize s.setCtxCache n (s.ctxCache n ++ [n]) = u at htpt hcache hfr ⊢
  have hmine : u.tpt.waiting = [⟨n, d, l⟩] := by rw [htpt]; exact hwait
  rw [hmine, List.filter_cons_of_pos (by simp), List.filter_nil, List.foldl_cons, List.foldl_nil]
  have hstill : (u.onTpt fun t => { t with waiting := t.waiting.filter fun w => w.ctx != n }).ctx? n = some c := by
    refine Eq.trans ?_ hctx
    rw [State.ctx?, State.onTpt, htpt]
    rfl
  have hcached : (u.onTpt fun t => { t with waiting := t.waiting.filter fun w => w.ctx != n }).cached n = true := by
    have hsame : (u.onTpt fun t => { t with waiting := t.waiting.filter fun w => w.ctx != n }).ctxCache n = u.ctxCache n := rfl
    rw [State.cached, hsame, hcache]
    simp
  have hnone : (u.onTpt fun t => { t with waiting := t.waiting.filter fun w => w.ctx != n }).tpt.waiting = [] := by
    rw [State.onTpt, hmine]
    simp
  have hparked : (u.onTpt fun t => { t with waiting := t.waiting.filter fun w => w.ctx != n }).tpt.parked = s.tpt.parked := by
    have hu : u.tpt.parked = s.tpt.parked := by rw [htpt]
    exact hu
  have hcol : (u.onTpt fun t => { t with waiting := t.waiting.filter fun w => w.ctx != n }).col = s.col := hfr.col_eq rfl
  have hrec : (u.onTpt fun t => { t with waiting := t.waiting.filter fun w => w.ctx != n }).ctxRec n = s.ctxRec n := by
    have hswc : (u.onTpt fun t => { t with waiting := t.waiting.filter fun w => w.ctx != n }).swc = s.swc := hfr.swc_eq rfl
    rw [State.ctxRec, State.tabRec, hswc]
    rfl
  generalize (u.onTpt fun t => { t with waiting := t.waiting.filter fun w => w.ctx != n }) = v at hstill hcached hnone hparked hcol hrec ⊢
  unfold State.rxOpen
  rw [hstill]
  dsimp only
  rw [hf, if_neg (by decide), hrec, if_pos (.inl hg)]
  have htouch : (v.ctxTouch n).tpt.waiting = [] := by
    unfold State.ctxTouch
    rw [if_pos hcached]
    obtain ⟨a', b', ht⟩ := v.tpt_setCtxCache n (without (v.ctxCache n) n ++ [n])
    rw [ht]
    exact hnone
  exact ⟨_, rfl, (State.ctx_ctxTouch v n n).trans hstill, State.cached_ctxTouch hcached, htouch, (v.parked_ctxTouch n).trans hparked,
    (State.ctxTouch_fr (Fr.refl 0x4000000000 v) rfl).col_eq rfl |>.trans hcol⟩

/-- Where the record cannot be read the context is LOST. -/
theorem State.contextFetched_lost {s : State} {n : Nat} {r : MemRead} {c : Ctx} (hc : s.cached n = false) (hr : (s.recordRead r).1 = false)
    (hctx : s.ctx? n = some c) (hf : c.failed = false) (hops : s.col.ops = []) (hflt : s.fltSlots = []) :
    s.contextFetched n r = (s.recordRead r).2.ctxFail n 2 ∧ (s.recordRead r).2.ctx? n = some c ∧ (s.recordRead r).2.tpt.parked = s.tpt.parked := by
  have hfr : Fr 0x2c100170000010 s (s.recordRead r).2 := State.recordRead_fr (Fr.refl _ s) rfl
  unfold State.contextFetched
  rw [if_neg (by rw [hc]; decide)]
  generalize s.recordRead r = x at hr hfr ⊢
  obtain ⟨ok, u⟩ := x
  obtain rfl : ok = false := hr
  dsimp only
  have hu : u.ctx? n = some c := by rw [State.ctx?, hfr.tpt_eq rfl]; exact hctx
  refine ⟨?_, hu, congrArg TptState.parked (hfr.tpt_eq rfl)⟩
  have hfail : Fr 0x2c104970000250 s (u.ctxFail n 2) := State.ctxFail_fr (hfr.weaken rfl) rfl
  obtain ⟨⟨c', hc', hf', -⟩, -⟩ := State.ctxFail_lost hu hf
  have hslots : (u.ctxFail n 2).fltSlots = [] := by
    have hrec (k : Nat) : (u.ctxFail n 2).fltRec k = s.fltRec k := by rw [State.fltRec, State.tabRec, hfail.swc_eq rfl]; rfl
    rw [← hflt, State.fltSlots, State.fltSlots]
    simp only [hrec]
  have hnoops : (u.ctxFail n 2).collCtxFailed n = u.ctxFail n 2 := by
    have hcol : (u.ctxFail n 2).col = s.col := hfail.col_eq rfl
    rw [State.collCtxFailed, hcol, hops]
    rfl
  unfold State.ctxFailing
  simp only [hc', hu]
  rw [if_pos (by rw [hf, hf']; rfl), State.ctxFailed, hslots, List.foldl_nil, hnoops]

section
variable {s : State} {req : Nat} {frame d : Bytes} {l : List Nat} {c : Ctx} (hco : s.coreOff = false) (hd : s.datagramOf frame = some (d, true))
  (hok : tpBad d = false) (hl : (s.settStore req frame).1 = some l) (hn : tDst d < 262144) (hctx : s.ctx? (tDst d) = some c)
  (hf : c.failed = false) (hc : s.cached (tDst d) = true) (hg : tGen d = cGen (s.ctxRec (tDst d)))
include hco hd hok hl hn hctx hf hc hg

/-- What a datagram for an open context ends with, where nothing but departures waits after it has acted. -/
theorem State.datagram_departs {want : Bytes → Bool} {k : Nat → Bytes → List Nat → State → State} (hw : want d = true)
    (hs : ∀ w ∈ (k (tDst d) d l ((s.settStore req frame).2.ctxTouch (tDst d))).tpt.parked, w.sends = true) :
    (k (tDst d) d l ((s.settStore req frame).2.ctxTouch (tDst d))).Departs (s.inPool fun s => s.rxDatagram req frame want k) :=
  State.departs_of_exec (f := fun s => s.rxDatagram req frame want k) hco (State.rxDatagram_acts hd hok hl hw hn hctx hf hc hg) hs

end

/-- Settles O42, clause by clause: the datagram reaches its context or is turned away before it, and what it does ends with departures alone. -/
theorem receiveRows : Obligations.ReceiveRows := by
  unfold Obligations.ReceiveRows
  refine ⟨?_, ?_, ?_, ?_, ?_, ?_, ?_, ?_, ?_, ?_, ?_, ?_⟩
  case refine_1 =>
    intro s req frame d l c ps lost hco hp hd hok hl hn hctx hf hc hg hlost ht hpsn hmap hsent hps hheld hpieces hcount hsum
    subst hlost
    have hcol : ((s.settStore req frame).2.ctxTouch (tDst d)).col = s.col := (s.received_keeps req frame (tDst d)).col_eq rfl
    obtain ⟨c', hc', hs, hnxt, hmap', hpart⟩ := State.rxData_next ((s.ctx_received req frame (tDst d) (tDst d)).trans hctx) l hpsn hmap hps
      (by rw [hcol]; exact hheld) hpieces hcount hsum ((s.parked_received req frame (tDst d)).trans hp)
    have hact : ((s.settStore req frame).2.ctxTouch (tDst d)).rxAny (tDst d) d l = ((s.settStore req frame).2.ctxTouch (tDst d)).rxData (tDst d) d l := if_pos ht
    rw [← hact] at hc' hs
    have hdep := State.datagram_departs hco hd hok hl hn hctx hf hc hg (want := fun d => tTyp d == 0 || (tTyp d == 2 && !(decide (1 ≤ kCtype d ∧ kCtype d ≤ 5))))
      (k := fun n d l s => if false && tTyp d == 0 then s.rxLost n d l else s.rxAny n d l) (by simp [ht]) hs
    refine ⟨_, rfl, ?_⟩
    beta_reduce
    rw [(hdep.ctx (tDst d)).trans hc']
    refine ⟨by rw [Option.map_some, hnxt, hmap'], ?_⟩
    rw [Option.bind_some, hpart, AMap.find_put_self]
  case refine_2 =>
    intro s req frame d l c hco hp hd hok hl hn hctx hf hc hg ht hbefore
    obtain ⟨u, c', hfr, hpark, hnxt, hmap, hpart, hack⟩ := State.rxData_again ((s.ctx_received req frame (tDst d) (tDst d)).trans hctx) l hbefore
    have hact : ((s.settStore req frame).2.ctxTouch (tDst d)).rxAny (tDst d) d l = ((s.settStore req frame).2.ctxTouch (tDst d)).rxData (tDst d) d l := if_pos ht
    rw [← hact] at hack
    have hs := hack.sends (no_sends (hpark.trans ((s.parked_received req frame (tDst d)).trans hp)))
    have hdep := hack.trans (State.datagram_departs hco hd hok hl hn hctx hf hc hg (want := fun d => tTyp d == 0 || (tTyp d == 2 && !(decide (1 ≤ kCtype d ∧ kCtype d ≤ 5))))
      (k := fun n d l s => if false && tTyp d == 0 then s.rxLost n d l else s.rxAny n d l) (by simp [ht]) hs)
    refine ⟨_, rfl, ?_, ?_⟩
    · refine (hdep.frame.fld_eq Reg.TPT_STAT_VALUE_VALUE (1 * 1024) rfl rfl).trans ((State.fld_setCtx (u.tptCount 1) (tDst d) c' _ _).trans ?_)
      rw [State.tptCount, if_pos (by decide), Nat.zero_add, State.fld_bump_self _ _ _ _ (by decide),
        (hfr.weaken rfl : Fr 0x2c004870000040 _ u).fld_eq Reg.TPT_STAT_VALUE_VALUE (1 * 1024) rfl rfl, (s.received_keeps req frame (tDst d)).fld_eq Reg.TPT_STAT_VALUE_VALUE (1 * 1024) rfl rfl]
      rfl
    · beta_reduce
      rw [hdep.ctx (tDst d), State.ctx_setCtx_self, Option.map_some, hnxt, hmap, hpart]
  case refine_3 =>
    intro s req frame d l c o hco hp hd hok hl hn hctx hf hc hg ht hops hheld hog hoq hleave
    have hcol : (s.takenIn req frame (tDst d) l).col = s.col := (s.takenIn_keeps req frame (tDst d) l).col_eq rfl
    obtain ⟨hnone, hdone, hparked⟩ := State.collEnd_only (s := s.takenIn req frame (tDst d) l) (by rw [hcol]; exact hops) (by rw [hcol]; exact hheld)
      hog hoq hleave stMEM_UNCORRECTABLE
    have hact : (if true && tTyp d == 0 then ((s.settStore req frame).2.ctxTouch (tDst d)).rxLost (tDst d) d l
        else ((s.settStore req frame).2.ctxTouch (tDst d)).rxAny (tDst d) d l) = (s.takenIn req frame (tDst d) l).collEnd o stMEM_UNCORRECTABLE := by
      have hcol' : ((s.settStore req frame).2.ctxTouch (tDst d)).col = s.col := (s.received_keeps req frame (tDst d)).col_eq rfl
      rw [if_pos (by simp [ht]), State.rxLost, State.collOp, hcol', ← State.collOp, State.collOp_only hops]
      rfl
    have hs := no_sends (hparked.trans ((s.parked_takenIn req frame (tDst d) l).trans hp))
    rw [← hact] at hnone hdone hs
    have hdep := State.datagram_departs hco hd hok hl hn hctx hf hc hg (want := fun d => tTyp d == 0 || (tTyp d == 2 && !(decide (1 ≤ kCtype d ∧ kCtype d ≤ 5))))
      (k := fun n d l s => if true && tTyp d == 0 then s.rxLost n d l else s.rxAny n d l) (by simp [ht]) hs
    exact ⟨_, rfl, hdep.collOver hnone hdone⟩
  case refine_4 =>
    intro s req frame d l c hco hp hd hok hl hn hctx hf hc hg ht hops hheld hack
    have hcol : ((s.settStore req frame).2.ctxTouch (tDst d)).col = s.col := (s.received_keeps req frame (tDst d)).col_eq rfl
    obtain ⟨huna, -, hs⟩ := State.rxAck_spec ((s.ctx_received req frame (tDst d) (tDst d)).trans hctx) (by rw [hcol]; exact hops) (by rw [hcol]; exact hheld) d l hack
    have hdep := State.datagram_departs hco hd hok hl hn hctx hf hc hg (want := fun d => tTyp d == 1) (k := fun n d l s => s.rxAck n d l) (by simp [ht])
      (hs (no_sends ((s.parked_received req frame (tDst d)).trans hp)))
    refine ⟨_, rfl, ?_⟩
    beta_reduce
    rw [hdep.ctx (tDst d)]
    exact huna
  case refine_5 =>
    intro s req frame d l c hco hp hd hok hl hn hctx hf hc hg ht hk
    have hact : ((s.settStore req frame).2.ctxTouch (tDst d)).rxCtrl (tDst d) d l = (s.takenIn req frame (tDst d) l).setCtx (tDst d)
        { c with sent := c.sent.map fun p => if (p.psn = kPsnRef d && !p.sacked) = true then { p with backoff := true, notYets := p.notYets + 1 } else p } := by
      have hnot : (s.takenIn req frame (tDst d) l).notYet (tDst d) (kPsnRef d) = (s.takenIn req frame (tDst d) l).setCtx (tDst d)
        { c with sent := c.sent.map fun p => if (p.psn = kPsnRef d && !p.sacked) = true then { p with backoff := true, notYets := p.notYets + 1 } else p } := by
        rw [State.notYet, State.ctx_takenIn, hctx]
      rw [State.rxCtrl, hk]
      exact hnot
    have hdep := State.received_departs hco hd hok hl hn hctx hf hc hg ht hk hact (no_sends ((s.parked_takenIn req frame (tDst d) l).trans hp))
    exact ⟨_, rfl, (hdep.ctx (tDst d)).trans (State.ctx_setCtx_self _ _ _)⟩
  case refine_6 => exact fun s req frame lost h => ⟨_, rfl, State.inPool_of_same (State.rxDatagram_none h)⟩
  case refine_7 =>
    intro s req frame d sumOk lost l hco hp hd hbad hl
    refine ⟨_, rfl, ?_⟩
    beta_reduce
    have hstore : Fr 0x2c000870000040 s (s.settStore req frame).2 := State.settStore_fr (Fr.refl _ s) rfl
    rw [State.inPool_on hco, State.pooled_of_parked, State.rxDatagram_bad hd hbad hl]
    rw [State.rxDatagram_bad hd hbad hl]
    exact (congrArg TptState.parked ((State.tpt_settFrees _ l).trans (hstore.tpt_eq rfl))).trans hp
  case refine_8 =>
    intro s req frame d l lost hco hp hd hok hl hn ht ho
    refine ⟨_, rfl, ?_⟩
    beta_reduce
    have hstore : Fr 0x2c000870000040 s (s.settStore req frame).2 := State.settStore_fr (Fr.refl _ s) rfl
    rw [State.inPool_on hco, State.pooled_of_parked, State.rxDatagram_noContext hd hok hl (by simp [ht]) ho]
    rw [State.rxDatagram_noContext hd hok hl (by simp [ht]) ho]
    exact (congrArg TptState.parked ((State.tpt_settFrees _ l).trans (hstore.tpt_eq rfl))).trans hp
  case refine_9 =>
    intro s req frame d l lost hco hp hd hok hl hn ht ho hc
    refine ⟨_, rfl, ?_⟩
    beta_reduce
    have hstore : Fr 0x2c000870000040 s (s.settStore req frame).2 := State.settStore_fr (Fr.refl _ s) rfl
    rw [State.inPool_on hco, State.pooled_of_parked, State.rxDatagram_waits hd hok hl (by simp [ht]) hn ho hc, State.onTpt, hstore.tpt_eq rfl]
    rw [State.rxDatagram_waits hd hok hl (by simp [ht]) hn ho hc, State.onTpt, hstore.tpt_eq rfl]
    exact hp
  case refine_10 =>
    intro s n hco hwait hc hlen
    have hact : s.contextFetched n [] = (s.setCtxCache n (s.ctxCache n ++ [n])).onTpt fun t => { t with waiting := t.waiting.filter fun w => w.ctx != n } := by
      obtain ⟨a, b, htpt⟩ := s.tpt_setCtxCache n (s.ctxCache n ++ [n])
      have hnone : (s.setCtxCache n (s.ctxCache n ++ [n])).tpt.waiting = [] := by rw [htpt]; exact hwait
      unfold State.contextFetched
      rw [if_neg (by rw [hc]; decide)]
      dsimp only [State.recordRead, List.foldl_nil]
      unfold State.fetched
      rw [State.ctxCacheIn_room hc hlen]
      dsimp only
      rw [hnone]
      rfl
    have hfr : Fr 0x4000000000 s (s.contextFetched n []) := by
      rw [hact]
      exact State.onTpt_fr (State.setCtxCache_fr (Fr.refl _ s) rfl) rfl
    refine ⟨_, rfl, ?_⟩
    beta_reduce
    rw [State.inPool_of_setts hco (hfr.sett_eq rfl)]
    refine ⟨?_, ?_, hfr.within (ps := [.tpt]) (by decide +kernel)⟩
    · rw [hact]
      exact s.ctxCache_setCtxCache n _
    · obtain ⟨a, b, htpt⟩ := s.tpt_setCtxCache n (s.ctxCache n ++ [n])
      rw [hact, State.onTpt, htpt]
  case refine_11 =>
    intro s n d l c hco hp hwait hc hlen hctx hf hg ht hops hheld hack
    obtain ⟨u, heq, huctx, hucached, huwait, hupark, hucol⟩ := State.contextFetched_acts hwait hc hlen hctx hf hg
    have hany : u.rxAny n d l = u.rxAck n d l := by
      rw [State.rxAny, if_neg (by rw [ht]; decide), if_pos ht]
    obtain ⟨huna, ⟨p, m, htpt⟩, hs⟩ := State.rxAck_spec huctx (by rw [hucol]; exact hops) (by rw [hucol]; exact hheld) d l hack
    have hdep := State.departs_of_exec (f := fun s => s.contextFetched n []) hco (heq.trans hany) (hs (no_sends (hupark.trans hp)))
    obtain ⟨p', hp', -⟩ := hdep.tpt
    refine ⟨_, rfl, ?_, ?_, ?_⟩
    · beta_reduce
      rw [hp', htpt]
      exact huwait
    · beta_reduce
      rw [State.cached, State.ctxCache, hp', htpt]
      exact hucached
    · beta_reduce
      rw [hdep.ctx n]
      exact huna
  case refine_12 =>
    intro s n r c hco hp hc hr hctx hf hops hflt
    obtain ⟨heq, huctx, hupark⟩ := State.contextFetched_lost hc hr hctx hf hops hflt
    obtain ⟨⟨c', hc', hf', hreason, hsent, hqueue⟩, hpark⟩ := State.ctxFail_lost huctx hf
    have hdep := State.departs_of_exec (f := fun s => s.contextFetched n r) hco heq (no_sends (hpark (hupark.trans hp)))
    refine ⟨_, rfl, ?_⟩
    beta_reduce
    rw [hdep.ctx n, hc', Option.map_some, hf', hreason, hsent, hqueue]

end Sys2Proof.Machine


/-!
PROOFS. What follows of itself (departures, contributions that settle, operations that end) as the host sees it: effects are added
to those made, and every ring keeps its state, its taken slots and those a disable left.
-/

namespace Sys2Proof.Machine

/-- Between two states effects have been added, and rings have kept their slots. -/
structure State.Settles (s t : State) : Prop where
  ring : ∀ n, (t.ring n).enabled = (s.ring n).enabled ∧ (t.ring n).taken = (s.ring n).taken ∧ (t.ring n).aborted = (s.ring n).aborted
  out : s.out <+: t.out
  vfs : t.hif.vfs = s.hif.vfs
  ports : t.swc.ports = s.swc.ports

namespace State.Settles

theorem refl (s : State) : s.Settles s := ⟨fun _ => ⟨rfl, rfl, rfl⟩, List.prefix_refl _, rfl, rfl⟩

theorem trans {s t u : State} (h : s.Settles t) (k : t.Settles u) : s.Settles u := by
  refine ⟨fun n => ?_, h.out.trans k.out, k.vfs.trans h.vfs, k.ports.trans h.ports⟩
  obtain ⟨he, ht, ha⟩ := h.ring n
  obtain ⟨ke, kt, ka⟩ := k.ring n
  exact ⟨ke.trans he, kt.trans ht, ka.trans ha⟩

theorem foldl {α : Type} {f : State → α → State} (l : List α) (hf : ∀ (s : State), ∀ a ∈ l, s.Settles (f s a)) (s : State) : s.Settles (l.foldl f s) := by
  induction l generalizing s with
  | nil => exact refl s
  | cons a l ih => exact (hf s a (by simp)).trans (ih (fun t b hb => hf t b (by simp [hb])) _)

end State.Settles

theorem State.Posts.settles {s t : State} (h : s.Posts t) (hp : t.swc.ports = s.swc.ports) : s.Settles t :=
  ⟨fun n => ⟨h.enabled n, h.taken n, h.aborted n⟩, h.out, h.vfs, hp⟩

theorem State.Settles.of_eq {s t : State} (h : t.hif = s.hif) (ho : t.out = s.out) (hp : t.swc.ports = s.swc.ports := by rfl) : s.Settles t :=
  (State.Posts.of_eq h ho).settles hp

theorem Fr.settles {X : Nat} {s t : State} (h : Fr X s t) (hX : X.testBit 30 = false ∧ X.testBit 51 = false ∧ X.testBit 36 = false) : s.Settles t :=
  (h.posts ⟨hX.1, hX.2.1⟩).settles (congrArg SwcState.ports (h.swc_eq hX.2.2))

theorem State.settles_raise (s : State) (c i d : Nat) (fn : Nat := 0) (m : Bytes := []) : s.Settles (s.raise c i d fn m) :=
  (s.posts_raise c i d fn m).settles (congrArg SwcState.ports ((State.raise_fr (Fr.refl 0x2c000070000000 s) (Sub.refl _)).swc_eq rfl))

theorem State.settles_setRing (s : State) (n : Nat) {r : Ring} (he : r.enabled = (s.ring n).enabled) (ht : r.taken = (s.ring n).taken)
    (ha : r.aborted = (s.ring n).aborted) : s.Settles (s.setRing n r) := by
  refine ⟨fun m => ?_, List.prefix_refl _, rfl, rfl⟩
  by_cases hm : m = n
  · rw [hm, State.ring_setRing_self]
    exact ⟨he, ht, ha⟩
  · rw [State.ring_setRing_ne _ _ _ _ hm]
    exact ⟨rfl, rfl, rfl⟩

theorem State.settles_emit (s : State) (o : Out) : s.Settles (s.emit o) := ⟨fun _ => ⟨rfl, rfl, rfl⟩, List.prefix_append _ _, rfl, rfl⟩

/-! ### An operation that ends (R99, R106, R111) -/

theorem State.settles_setOp (s : State) (o : Op) : s.Settles (s.setOp o) := ⟨fun _ => ⟨rfl, rfl, rfl⟩, List.prefix_refl _, rfl, rfl⟩

theorem State.settles_enterOp (s : State) (k : OpKey) (read : Option Bytes) : s.Settles (s.enterOp k read) := by
  cases read with
  | none => exact s.settles_setOp _
  | some b => exact s.settles_setOp _

theorem State.settles_leaveOp (s : State) (k : OpKey) : s.Settles (s.leaveOp k) := by
  have hfree : s.Settles (s.freeOp k) := ⟨fun _ => ⟨rfl, rfl, rfl⟩, List.prefix_refl _, rfl, rfl⟩
  unfold State.leaveOp
  dsimp only
  split
  · exact hfree
  · refine State.Settles.trans ?_ (State.settles_enterOp _ _ _)
    exact hfree.trans (State.settles_setRing _ _ rfl rfl rfl)

theorem State.settles_endOp (s : State) (k : OpKey) (c : Completion) : s.Settles (s.endOp k c) := by
  unfold State.endOp
  split
  · exact .refl s
  · split
    · exact s.settles_setOp _
    · exact s.settles_leaveOp k

/-! ### Setts and departures (R183 to R187) -/

theorem State.settles_settFree (s : State) (n : Nat) : s.Settles (s.settFree n) := by
  have hfill (t : State) (die : Nat) : t.Settles (t.settFill die) := (State.settFill_fr (Fr.refl 0x800000000 t) rfl).settles ⟨rfl, rfl, rfl⟩
  unfold State.settFree
  dsimp only
  split
  · have hbump : s.Settles (s.bump (Reg.SETT_POOL_STATUS_REF_FAULTS.nth (n / dieSetts))) := .of_eq rfl rfl
    exact hbump.trans (State.settles_raise _ _ _ _)
  · split
    · exact .of_eq rfl rfl
    · refine .trans ?_ (hfill _ _)
      exact .of_eq rfl rfl

theorem State.settles_settFrees (s : State) (l : List Nat) : s.Settles (s.settFrees l) := .foldl l (fun t n _ => t.settles_settFree n) s

theorem State.settles_settAlloc (s : State) (q : Nat) : s.Settles (s.settAlloc q).2 := (State.settAlloc_fr (Fr.refl 0x800000040 s) rfl).settles ⟨rfl, rfl, rfl⟩

theorem State.settles_settAllocN (s : State) (q n : Nat) (acc : List Nat) : s.Settles (State.settAllocN q n acc s).2 := by
  induction n generalizing acc s with
  | zero => exact .refl s
  | succ n ih =>
    have hone := s.settles_settAlloc q
    unfold State.settAllocN
    generalize s.settAlloc q = r at hone ⊢
    obtain ⟨x, u⟩ := r
    cases x with
    | none => exact hone.trans (u.settles_settFrees acc)
    | some x => exact hone.trans (ih u _)

theorem State.settles_settStore (s : State) (q : Nat) (frame : Bytes) : s.Settles (s.settStore q frame).2 := s.settles_settAllocN q _ []

theorem State.settles_shareOrCopy (s : State) (hold : List Nat) (frame : Bytes) : s.Settles (s.shareOrCopy hold frame).2 := by
  unfold State.shareOrCopy
  split
  · next u hu => exact (State.settShare_fr (Fr.refl 0x800000000 s) rfl hu).settles ⟨rfl, rfl, rfl⟩
  · exact s.settles_settStore _ _

theorem State.settles_enqueue (s : State) (q : Nat) (d : Dep) : s.Settles (s.enqueue q d) := by
  refine ((State.enqueue_fr (Fr.refl 0x1000000000 s) rfl).posts ⟨rfl, rfl⟩).settles ?_
  unfold State.enqueue
  dsimp only
  split <;> rfl

theorem State.settles_swcCount (s : State) (port c : Nat) : s.Settles (s.swcCount port c) := State.Settles.of_eq rfl rfl

theorem State.settles_admitDep (s : State) (q : Nat) (d : Dep) (ip : Option Parsed) : s.Settles (s.admitDep q d ip) := by
  have havg (x : OutQ) : s.Settles (s.setOutq q x) := State.Settles.of_eq rfl rfl
  have hfresh (t : State) : t.Settles t.fresh.2 := State.Settles.of_eq rfl rfl
  have hdrop (t : State) (port c : Nat) : t.Settles ((t.settFrees d.setts).swcCount port c) := (t.settles_settFrees _).trans (State.settles_swcCount _ _ _)
  unfold State.admitDep
  extract_lets x prof shift depth avg s1 c mn mx top past prob
  have h1 : s.Settles s1 := havg _
  split
  · exact h1.trans (s1.settles_enqueue q d)
  · have h2 := h1.trans (hfresh s1)
    generalize s1.fresh = r at h2
    obtain ⟨v, s2⟩ := r
    dsimp only
    split
    · split
      · split
        · exact (h2.trans (s2.settles_enqueue q _)).trans (State.settles_swcCount _ _ _)
        · exact h2.trans (s2.settles_enqueue q d)
      · split
        · exact h2.trans (hdrop s2 _ _)
        · exact h2.trans (s2.settles_enqueue q d)
    · split
      · exact h2.trans (hdrop s2 _ _)
      · exact h2.trans (s2.settles_enqueue q d)

theorem State.settles_toQueue (s : State) (port tc : Nat) (d : Dep) (ip : Option Parsed) : s.Settles (s.toQueue port tc d ip) := by
  unfold State.toQueue
  extract_lets d'
  split
  · exact s.settles_admitDep _ _ _
  · exact (s.settles_settFrees _).trans (State.settles_swcCount _ _ _)

theorem State.settles_sendCopy (s : State) (ports : List Nat) (tc : Nat) (d : Dep) (ip : Option Parsed) : s.Settles (s.sendCopy ports tc d ip) := by
  unfold State.sendCopy
  dsimp only
  refine .trans (.foldl _ (fun t _ _ => ?_) s) (.foldl ports (fun t p _ => t.settles_toQueue p tc d ip) _)
  cases hshare : t.settShare d.setts with
  | none => exact .refl t
  | some u => exact (State.settShare_fr (Fr.refl 0x800000000 t) rfl hshare).settles ⟨rfl, rfl, rfl⟩

theorem State.settles_multicast (s : State) (q : Nat) (ports : List Nat) (tc : Nat) (d : Dep) (ip : Option Parsed) :
    s.Settles (s.multicast q ports tc d ip) := by
  unfold State.multicast
  split
  · exact s.settles_settFrees _
  · refine (s.settles_sendCopy _ _ _ _).trans (.foldl _ (fun t sub _ => ?_) _)
    have hstore := t.settles_settStore q d.frame
    generalize t.settStore q d.frame = r at hstore ⊢
    obtain ⟨x, u⟩ := r
    cases x with
    | none => exact hstore
    | some l => exact hstore.trans (u.settles_sendCopy _ _ _ _)

theorem State.settles_deliver (s : State) (owner port : Nat) (frame : Bytes) (setts : List Nat) : s.Settles (s.deliver owner port frame setts) :=
  (s.settles_emit _).trans (State.settles_settFrees _ _)

theorem State.ports_countPick (s : State) (g : Nat) (r : Bytes) (m : Nat) : (s.countPick g r m).swc.ports = s.swc.ports :=
  congrArg SwcState.ports ((State.countPick_fr (Fr.refl 0x80 s) rfl).swc_eq rfl)

theorem State.settles_chooseSpray (s : State) (pipe g : Nat) (r : Bytes) (tc : Nat) : s.Settles (s.chooseSpray pipe g r tc).2 := by
  refine ((State.chooseSpray_fr (Fr.refl 0x4001000000080 s) rfl).posts ⟨rfl, rfl⟩).settles ?_
  unfold State.chooseSpray
  dsimp only
  split
  · rw [State.ports_countPick]
    rfl
  · rfl

theorem State.settles_pinFlow (s : State) (g : Nat) (r : Bytes) (p : Parsed) : s.Settles (s.pinFlow g r p).2 := by
  refine ((State.pinFlow_fr (Fr.refl 0x1000000080 s) rfl).posts ⟨rfl, rfl⟩).settles ?_
  unfold State.pinFlow
  generalize pinPair r (flowBucket r p) = x
  obtain ⟨prim, fall⟩ := x
  generalize flowBucket r p = b
  dsimp -zeta only
  extract_lets b1 set one here other s1
  have h1 : s1.swc.ports = s.swc.ports := rfl
  clear_value s1 here other
  split
  · exact s.ports_countPick _ _ _
  · split
    · exact (s1.ports_countPick _ _ _).trans h1
    · rfl

theorem State.settles_routeOut (s : State) (req pipe tc : Nat) (d : Dep) : s.Settles (s.routeOut req pipe tc d) := by
  have hfree := s.settles_settFrees d.setts
  unfold State.routeOut
  split
  · next p ip hp =>
    split
    · exact s.settles_deliver _ _ _ _
    · split
      · exact hfree
      · next h hh =>
        dsimp only
        split
        · exact s.settles_toQueue _ _ _ _
        · split
          · split
            · exact hfree
            · next r hr =>
              have hpick : s.Settles (if (s.isTransport p || bitAt (getLE h 0x09 1) tc) = true then s.chooseSpray pipe (getLE h 0x0A 2) r tc
                  else s.pinFlow (getLE h 0x0A 2) r p).2 := by
                split
                · exact s.settles_chooseSpray _ _ _ _
                · exact s.settles_pinFlow _ _ _
              generalize (if (s.isTransport p || bitAt (getLE h 0x09 1) tc) = true then s.chooseSpray pipe (getLE h 0x0A 2) r tc
                  else s.pinFlow (getLE h 0x0A 2) r p) = x at hpick ⊢
              obtain ⟨m, u⟩ := x
              cases m with
              | none => exact hpick.trans (u.settles_settFrees _)
              | some m => exact hpick.trans (u.settles_toQueue _ _ _ _)
          · split
            · split
              · exact hfree
              · exact s.settles_multicast _ _ _ _ _
            · exact hfree
  · exact hfree

theorem State.settles_launch (s : State) (p : Parked) (setts : List Nat) : s.Settles (s.launch p setts) := by
  unfold State.launch State.mcastOut
  dsimp only
  split
  · exact s.settles_routeOut _ _ _ _
  · split
    · exact s.settles_settFrees _
    · exact s.settles_multicast _ _ _ _ _

theorem State.settles_onTpt (s : State) (f : TptState → TptState) : s.Settles (s.onTpt f) := State.Settles.of_eq rfl rfl

theorem State.settles_park (s : State) (w : Waiting) : s.Settles (s.park w) := (State.park_fr (Fr.refl 0x4000000000 s) rfl).settles ⟨rfl, rfl, rfl⟩

theorem State.settles_sendOut (s : State) (p : Parked) : s.Settles (s.sendOut p) := by
  have hstore := s.settles_settStore p.req p.frame
  unfold State.sendOut
  generalize s.settStore p.req p.frame = r at hstore ⊢
  obtain ⟨x, u⟩ := r
  cases x with
  | none => exact hstore.trans (u.settles_onTpt _)
  | some l => exact hstore.trans (u.settles_launch _ _)

theorem State.settles_departHeld (s : State) (n : Nat) (hold : List Nat) (frame : Bytes) (w : Waiting) (sent : State → State)
    (hsent : ∀ t : State, t.Settles (sent t)) : s.Settles (s.departHeld n hold frame w sent) := by
  have hshare := s.settles_shareOrCopy hold frame
  unfold State.departHeld
  dsimp only
  generalize s.shareOrCopy hold frame = r at hshare ⊢
  obtain ⟨x, u⟩ := r
  cases x with
  | none =>
    dsimp only
    split
    · exact hshare.trans (hsent u)
    · exact hshare.trans (u.settles_park w)
  | some l => exact (hshare.trans (hsent u)).trans (State.settles_routeOut _ _ _ _ _)

theorem State.settles_resendHeld (s : State) (n psn : Nat) : s.Settles (s.resendHeld n psn) := by
  unfold State.resendHeld
  split
  · exact .refl s
  · split
    · exact .refl s
    · exact s.settles_departHeld _ _ _ _ _ fun t => .refl t

theorem State.settles_transportSend (s : State) (n : Nat) : s.Settles (s.transportSend n) := by
  unfold State.transportSend
  split
  · exact .refl s
  · next c hc =>
    split
    · exact .refl s
    · next it rest hq =>
      split
      · exact .refl s
      · dsimp only
        have hhold : s.Settles (if it.setts.isEmpty = true then
            s.settStore (reqTransport (n % 2) (cClass (s.ctxRec n))) (s.ctxFrame n 0 0 c.sndNxt c.ackPsn it.head it.payload) else (some it.setts, s)).2 := by
          split
          · exact s.settles_settStore _ _
          · exact .refl s
        generalize (if it.setts.isEmpty = true then
            s.settStore (reqTransport (n % 2) (cClass (s.ctxRec n))) (s.ctxFrame n 0 0 c.sndNxt c.ackPsn it.head it.payload) else (some it.setts, s)) = x at hhold ⊢
        obtain ⟨m, u⟩ := x
        cases m with
        | none => exact hhold.trans (u.settles_park _)
        | some h =>
          refine hhold.trans (u.settles_departHeld _ _ _ _ _ fun t => ?_)
          exact (State.settles_onTpt _ _).trans ((State.ctxTouch_fr (Fr.refl 0x4000000000 _) rfl).settles ⟨rfl, rfl, rfl⟩)

/-! ### Collective operations (R277 to R293) -/

theorem State.settles_onCol (s : State) (f : ColState → ColState) : s.Settles (s.onCol f) := State.Settles.of_eq rfl rfl

theorem State.settles_setCollOp (s : State) (o : CollOp) : s.Settles (s.setCollOp o) := s.settles_onCol _

theorem State.settles_collMulticast (s : State) (g chunk : Nat) (payload : Bytes) (setts : Option (List Nat)) :
    s.Settles (s.collMulticast g chunk payload setts) := by
  unfold State.collMulticast
  split
  · exact .refl s
  · split
    · exact .refl s
    · dsimp only
      split
      · exact s.settles_launch _ _
      · exact s.settles_sendOut _

theorem State.settles_sendResult (s : State) (g q chunk fmt : Nat) (data : Bytes) (setts : Option (List Nat)) :
    s.Settles (s.sendResult g q chunk fmt data setts) := s.settles_collMulticast _ _ _ _

theorem State.settles_sendChunkDone (s : State) (g q chunk : Nat) : s.Settles (s.sendChunkDone g q chunk) := s.settles_collMulticast _ _ _ _

theorem State.settles_sendData (s : State) (ctx g member q chunk off count fmt : Nat) (data : Bytes) (setts : List Nat) :
    s.Settles (s.sendData ctx g member q chunk off count fmt data setts) := by
  unfold State.sendData State.queueData
  split
  · split
    · exact s.settles_settFrees _
    · exact s.settles_onTpt _
  · exact s.settles_settFrees _

theorem State.settles_collClose (s : State) (o : CollOp) (status : Nat) : s.Settles (s.collClose o status) := by
  have hdrop : s.Settles (s.dropHeld o.group o.seq) := by
    unfold State.dropHeld
    exact (s.settles_settFrees _).trans (State.settles_onCol _ _)
  unfold State.collClose
  extract_lets s1 s2
  have h2 : s.Settles s2 := ((hdrop.trans ((State.restOver_fr (Fr.refl 0xc000000000 _) rfl).settles ⟨rfl, rfl, rfl⟩)).trans (State.settles_onCol _ _)).trans
    ((State.markDone_fr (Fr.refl 0x8000000000 s1) rfl).settles ⟨rfl, rfl, rfl⟩)
  split
  · split
    · exact h2
    · exact h2.trans (s2.settles_raise _ _ _)
  · exact h2.trans (s2.settles_endOp _ _)
  · exact h2.trans (s2.settles_onCol _)

theorem State.settles_writeLog (s : State) (o : CollOp) (chunk : Nat) (data : Bytes) : s.Settles (s.writeLog o chunk data) := by
  have hfault (dom dva reason : Nat) (write : Bool) : s.Settles (s.mmuFault dom dva reason write) := by
    unfold State.mmuFault
    split
    · exact .refl s
    · exact (s.settles_raise _ _ _ _)
  unfold State.writeLog
  split
  · exact .refl s
  · dsimp only
    split
    · exact (State.dvaWrite_fr (Fr.refl 0x10000100000000 s) rfl).settles ⟨rfl, rfl, rfl⟩
    · split
      · exact (hfault _ _ _ _).trans (State.settles_setCollOp _ _)
      · exact (hfault _ _ _ _).trans (State.settles_collClose _ _ _)
      · exact hfault _ _ _ _

theorem State.settles_chunkDone (s : State) (o : CollOp) (chunk : Nat) : s.Settles (s.chunkDone o chunk) := by
  unfold State.chunkDone
  extract_lets s1 r comp
  have h1 : s.Settles s1 := by
    unfold s1
    split
    · exact s.settles_setCollOp _
    · exact .refl s
  split
  · split
    · exact h1.trans (s1.settles_setRing _ rfl rfl rfl)
    · exact h1.trans (s1.settles_setRing _ rfl rfl rfl)
    · exact h1
  · exact h1

theorem State.settles_chunkOutputs (s : State) (o : CollOp) (r : Bytes) (b : Bay) (data : Bytes) (l : List Nat) :
    s.Settles (s.chunkOutputs o r b data l) := by
  have hlogged (t : State) (x : Bytes) : t.Settles ((t.writeLog o b.chunk x).chunkDone o b.chunk) :=
    (t.settles_writeLog _ _ _).trans (State.settles_chunkDone _ _ _)
  have hshort : s.Settles ((s.sendChunkDone o.group o.seq b.chunk).chunkDone o b.chunk) :=
    (s.settles_sendChunkDone _ _ _).trans (State.settles_chunkDone _ _ _)
  unfold State.chunkOutputs
  dsimp only
  split
  · exact (s.settles_sendResult _ _ _ _ _ _).trans (hlogged _ _)
  · exact hshort
  · exact hshort
  · split
    · exact .refl s
    · next sp hsp =>
      generalize o.rounded sp (gRoot r) b = rd
      obtain ⟨out, counts⟩ := rd
      dsimp only
      have hcount : s.Settles (s.countResults (chunkDie b.chunk) counts) := (State.countResults_fr (Fr.refl 0x400 s) rfl).settles ⟨rfl, rfl, rfl⟩
      generalize s.countResults (chunkDie b.chunk) counts = u at hcount ⊢
      split
      · split
        · exact (hcount.trans (u.settles_setCollOp _)).trans (State.settles_sendData _ _ _ _ _ _ _ _ _ _ _)
        · exact hcount.trans (u.settles_sendData _ _ _ _ _ _ _ _ _ _)
      · split
        · exact (hcount.trans (u.settles_sendResult _ _ _ _ _ _)).trans (hlogged _ _)
        · exact ((hcount.trans (u.settles_sendData _ _ _ _ _ _ _ _ _ _)).trans (State.settles_sendChunkDone _ _ _ _)).trans (hlogged _ _)

theorem State.settles_outputSetts (s : State) (o : CollOp) (r : Bytes) (chunk : Nat) (data : Bytes) : s.Settles (s.outputSetts o r chunk data).2 := by
  unfold State.outputSetts
  split
  · exact s.settles_settAllocN _ _ _
  · exact .refl s

theorem State.settles_emitChunk (s : State) (g q chunk : Nat) (data : Bytes) : s.Settles (s.emitChunk g q chunk data) := by
  unfold State.emitChunk
  split
  · next o r ho hr =>
    split
    · next b hb =>
      have hsetts := s.settles_outputSetts o r chunk data
      generalize s.outputSetts o r chunk data = x at hsetts ⊢
      obtain ⟨l, u⟩ := x
      cases l with
      | none => exact hsetts.trans (u.settles_park _)
      | some l => exact (hsetts.trans (u.settles_setCollOp _)).trans (State.settles_chunkOutputs _ _ _ _ _ _)
    · exact .refl s
  · exact .refl s

theorem State.settles_finishChunk (s : State) (g q chunk : Nat) (data : Bytes) : s.Settles (s.finishChunk g q chunk data) := by
  unfold State.finishChunk
  split
  · split
    · exact ((s.settles_setCollOp _).trans ((State.noteLateness_fr (Fr.refl 0x8000000000 _) rfl).settles ⟨rfl, rfl, rfl⟩)).trans (State.settles_emitChunk _ _ _ _ _)
    · exact .refl s
  · exact .refl s

theorem State.settles_colCount (s : State) (n : Nat) : s.Settles (s.colCount n) := State.Settles.of_eq rfl rfl

theorem State.settles_numCount (s : State) (die c n : Nat) : s.Settles (s.numCount die c n) := (State.numCount_fr (Fr.refl 0x400 s) rfl).settles ⟨rfl, rfl, rfl⟩

theorem State.settles_addContrib (s : State) (o : CollOp) (r : Bytes) (b : Bay) (c : Contrib) : s.Settles (s.addContrib o r b c) := by
  unfold State.addContrib
  extract_lets o1 fmts mixed s0 s1 b1 setts fmt dest dest'
  have h1 : s.Settles s1 := by
    unfold s1
    split
    · exact (s.settles_colCount 0).trans (State.settles_numCount _ _ _ _)
    · exact s.settles_colCount 0
  have hsends (d : Nat) (t : State) : t.Settles (c.ordered.foldl
      (fun s p => s.sendData d o1.group c.key.member o1.seq c.key.chunk p.off p.count p.fmt p.data p.setts) t) :=
    .foldl _ (fun u p _ => u.settles_sendData _ _ _ _ _ _ _ _ _ _) t
  split
  · exact (h1.trans (s1.settles_setCollOp _)).trans (State.settles_settFrees _ _)
  · exact (h1.trans (s1.settles_setCollOp _)).trans (hsends _ _)
  · exact (h1.trans (s1.settles_setCollOp _)).trans (hsends _ _)
  · split
    · exact h1
    · next sp hsp =>
      generalize b.take sp c = x
      obtain ⟨b2, ok, limit⟩ := x
      dsimp only
      refine .trans (.trans ?_ (State.settles_setCollOp _ _)) (State.settles_settFrees _ _)
      split
      · exact h1.trans (s1.settles_numCount _ _ _)
      · split
        · exact h1
        · exact h1.trans (s1.settles_numCount _ _ _)

theorem State.settles_settle (s : State) (c : Contrib) : s.Settles (s.settle c).2 := by
  have hfree := s.settles_settFrees (c.pieces.flatMap (·.setts))
  unfold State.settle
  extract_lets k free
  split
  · exact hfree.trans (State.settles_colCount _ _)
  · split
    · next o r ho hr =>
      split
      · exact hfree.trans (State.settles_colCount _ _)
      · split
        · exact hfree.trans (State.settles_colCount _ _)
        · split
          · exact .refl s
          · next b hb =>
            split
            · exact hfree
            · split
              · exact .refl s
              · dsimp only
                have hadd := s.settles_addContrib o r b c
                split
                · split
                  · dsimp only
                    split
                    · exact hadd.trans (State.settles_finishChunk _ _ _ _ _)
                    · exact hadd
                  · exact hadd
                · exact hadd
    · exact .refl s

theorem State.settles_settlePass (s : State) : s.Settles s.settlePass := by
  refine .foldl _ (fun t c _ => ?_) s
  have h := t.settles_settle c
  generalize t.settle c = x at h
  obtain ⟨ok, u⟩ := x
  cases ok with
  | false => exact .refl t
  | true => exact h.trans (u.settles_onCol _)

theorem State.settles_settleHeld (n : Nat) (s : State) : s.Settles (State.settleHeld n s) := by
  induction n generalizing s with
  | zero => exact .refl s
  | succ n ih =>
    unfold State.settleHeld
    dsimp only
    split
    · exact s.settles_settlePass.trans (ih _)
    · exact s.settles_settlePass

theorem State.settles_collPump1 (s : State) : s.Settles s.collPump1 := by
  have hdies (t : State) (o : CollOp) : t.Settles (State.openDie 513 o.group o.seq 1 (State.openDie 513 o.group o.seq 0 t)) :=
    (State.openDie_fr (State.openDie_fr (Fr.refl 0x8000000000 t) rfl) rfl).settles ⟨rfl, rfl, rfl⟩
  have hplanned (t : State) : t.Settles t.openPlanned := (State.openPlanned_fr (Fr.refl 0x8000000000 t) rfl).settles ⟨rfl, rfl, rfl⟩
  have hadmit (n : Nat) (t : State) : t.Settles (State.admitLoop n t) := (State.admitLoop_fr (Fr.refl 0x8000000000 t) rfl).settles ⟨rfl, rfl, rfl⟩
  exact (((State.Settles.foldl _ (fun t o _ => hdies t o) s).trans (hplanned _)).trans (hadmit _ _)).trans (State.settles_settleHeld _ _)

theorem State.settles_collSweep (s : State) : s.Settles s.collSweep := by
  refine .foldl _ (fun t o _ => ?_) s
  split
  · exact .refl t
  · split
    · exact t.settles_collClose _ _
    · split
      · exact t.settles_collClose _ _
      · exact .refl t

theorem State.settles_collPump (n : Nat) (s : State) : s.Settles (State.collPump n s) := by
  induction n generalizing s with
  | zero => exact .refl s
  | succ n ih =>
    unfold State.collPump
    dsimp only
    have hpass := s.settles_collPump1.trans s.collPump1.settles_collSweep
    split
    · exact hpass
    · exact hpass.trans (ih _)

theorem State.settles_collSettle (s : State) : s.Settles s.collSettle := State.settles_collPump _ s

theorem State.settles_collEnd (s : State) (o : CollOp) (status : Nat) : s.Settles (s.collEnd o status) := by
  unfold State.collEnd
  split
  · exact (s.settles_collClose _ _).trans (State.settles_collSettle _)
  · exact s.settles_setCollOp _

/-! ### What waits for setts is tried again (R187) -/

theorem State.settles_retryOne (s : State) (w : Waiting) : s.Settles (s.retryOne w) := by
  unfold State.retryOne
  extract_lets s0 t
  have ht : s0.Settles t := by
    unfold t
    cases w with
    | own p => exact s0.settles_sendOut p
    | data n => exact s0.settles_transportSend n
    | output g q c b => exact (s0.settles_emitChunk g q c b).trans (State.settles_collSettle _)
    | resend n psn => exact s0.settles_resendHeld n psn
  split
  · exact (s.settles_onTpt _).trans ht
  · exact .refl s

theorem State.settles_retryFreed (n : Nat) (s0 s : State) : s.Settles (State.retryFreed n s0 s) := by
  induction n generalizing s0 s with
  | zero => exact .refl s
  | succ n ih =>
    unfold State.retryFreed
    dsimp only
    split
    · exact .refl s
    · exact (State.Settles.foldl _ (fun t w _ => t.settles_retryOne w) s).trans (ih s _)

/-- What a command ends with, once it has acted. -/
theorem State.settles_inPool {s : State} {f : State → State} (hco : s.coreOff = false) : (f s).Settles (s.inPool f) := by
  rw [State.inPool_on hco]
  unfold State.pooled
  dsimp only
  split
  · exact .refl _
  · exact State.settles_retryFreed _ _ _

end Sys2Proof.Machine


/-!
PROOFS. Doorbells, functions in D3hot, function-level resets and SR-IOV (R97 to R107, R123).
-/

namespace Sys2Proof.Machine

/-- A wake-up word of the ring waits in its queue set's filling bank. -/
def State.woken (s : State) (n : Nat) : Prop := ((s.intake (queueSet n)).fill.any fun x => x.ring == n) = true

theorem State.intake_setIntake_self (s : State) (q : Nat) (i : Intake) : (s.setIntake q i).intake q = i := AMap.getD_put_self _ _ _ _

theorem State.intake_setIntake_ne (s : State) {q p : Nat} (i : Intake) (h : p ≠ q) : (s.setIntake q i).intake p = s.intake p :=
  AMap.getD_put_ne _ _ _ _ _ h

theorem State.woken_wake (s : State) (n : Nat) : (s.wake n).woken n := by
  unfold State.wake State.woken
  dsimp only
  split
  · assumption
  · rw [State.intake_setIntake_self]
    simp

theorem State.woken_wake_of_woken {s : State} {n : Nat} (h : s.woken n) (m : Nat) : (s.wake m).woken n := by
  unfold State.wake
  dsimp only
  split
  · exact h
  · unfold State.woken at h ⊢
    by_cases hq : queueSet n = queueSet m
    · rw [hq] at h ⊢
      rw [State.intake_setIntake_self, List.any_append, h, Bool.true_or]
    · rw [State.intake_setIntake_ne _ _ hq]
      exact h

/-- Of the host interface a wake-up changes intakes alone. -/
theorem State.hif_wake (s : State) (n : Nat) : ∃ i, (s.wake n).hif = { s.hif with intakes := i } := by
  unfold State.wake
  dsimp only
  split
  · exact ⟨_, rfl⟩
  · exact ⟨_, rfl⟩

theorem State.wakes_spec (l : List Nat) (s : State) : (∃ i, (l.foldl (fun s n => s.wake n) s).hif = { s.hif with intakes := i }) ∧
    (l.foldl (fun s n => s.wake n) s).out = s.out ∧ (∀ n, s.woken n → (l.foldl (fun s n => s.wake n) s).woken n) ∧
      ∀ n ∈ l, (l.foldl (fun s n => s.wake n) s).woken n := by
  induction l generalizing s with
  | nil => exact ⟨⟨_, rfl⟩, rfl, fun _ h => h, fun _ h => absurd h List.not_mem_nil⟩
  | cons m l ih =>
    obtain ⟨⟨i, hi⟩, ho, hkeep, hmem⟩ := ih (s.wake m)
    obtain ⟨j, hj⟩ := s.hif_wake m
    have hout : (s.wake m).out = s.out := (State.wake_fr (Fr.refl 0x40000000 s) rfl).out_eq rfl
    refine ⟨⟨i, by rw [List.foldl_cons, hi, hj]⟩, ho.trans hout, fun n hn => hkeep n (State.woken_wake_of_woken hn m), fun n hn => ?_⟩
    rcases List.mem_cons.mp hn with hn | hn
    · exact hkeep n (hn ▸ s.woken_wake m)
    · exact hmem n hn

/-! ### Doorbells (R104 to R107) -/

section
variable {s : State} {n v : Nat} (he : (s.ring n).enabled = true) (hk : (s.ring n).kind ≠ kindNQ)
include he hk

theorem State.doorbell_same (hv : v % 65536 < s.ringSize n) (hh : v % 65536 = (s.ring n).host) : s.doorbell n v = s := by
  unfold State.doorbell
  dsimp only
  rw [if_neg (fun h => hk h.1), he, if_neg (by decide), if_neg (Nat.not_le.mpr hv), if_pos hh]

theorem State.doorbell_moves (hv : v % 65536 < s.ringSize n) (hh : v % 65536 ≠ (s.ring n).host) : s.doorbell n v =
    if isSubmission (s.ring n).kind then (s.setRing n { s.ring n with host := v % 65536 }).wake n else s.setRing n { s.ring n with host := v % 65536 } := by
  unfold State.doorbell
  dsimp only
  rw [if_neg (fun h => hk h.1), he, if_neg (by decide), if_neg (Nat.not_le.mpr hv), if_neg hh]

theorem State.doorbell_outside (hv : s.ringSize n ≤ v % 65536) : s.doorbell n v = s.setRing n { s.ring n with dbRange := true } := by
  unfold State.doorbell
  dsimp only
  rw [if_neg (fun h => hk h.1), he, if_neg (by decide), if_pos hv]

end

theorem State.doorbell_disabled {s : State} {n v : Nat} (he : (s.ring n).enabled = false) :
    s.doorbell n v = s.setRing n { s.ring n with dbDisabled := true } := by
  unfold State.doorbell
  dsimp only
  rw [he, if_neg (by simp), if_pos (by decide)]

/-- A doorbell of a page acts on the page's ring. -/
theorem exec_doorbell {s : State} {v : View} {page n : Nat} {w : Word} (hco : s.coreOff = false) (hp : s.pageRing v page = some n) :
    execDoorbell v page w s = .next (s.doorbell n w.toNat) := by
  unfold execDoorbell
  rw [State.inCore_on hco, hp]

/-! ### Functions in D3hot (R98) -/

/-- A message of a function that is not in D3hot leaves, or waits for its mask. -/
theorem State.msix_awake {s : State} {fn vec : Nat} (h : fn ∉ s.hif.d3hot) :
    (∃ p, (s.msix fn vec).hif = { s.hif with msixPending := p }) ∧ ((s.msixEntry fn vec).masked = false →
      (s.msix fn vec).out = s.out ++ [.msix fn vec ((s.msixEntry fn vec).addrLo.toNat + 2 ^ 32 * (s.msixEntry fn vec).addrHi.toNat) (s.msixEntry fn vec).data]) := by
  unfold State.msix
  dsimp only
  rw [if_neg h]
  split
  · next hm => exact ⟨⟨_, rfl⟩, fun hn => absurd hm (by rw [hn]; decide)⟩
  · exact ⟨⟨_, rfl⟩, fun _ => rfl⟩

/-- The messages withheld for a function leave once it is back. -/
theorem State.msixs_awake {fn : Nat} (l : List (Nat × Nat)) (hl : ∀ m ∈ l, m.1 = fn) (s : State) (h : fn ∉ s.hif.d3hot) :
    (∃ p, (l.foldl (fun s m => s.msix m.1 m.2) s).hif = { s.hif with msixPending := p }) ∧ s.out <+: (l.foldl (fun s m => s.msix m.1 m.2) s).out ∧
      ∀ vec, (fn, vec) ∈ l → (s.msixEntry fn vec).masked = false →
        Out.msix fn vec ((s.msixEntry fn vec).addrLo.toNat + 2 ^ 32 * (s.msixEntry fn vec).addrHi.toNat) (s.msixEntry fn vec).data ∈
          (l.foldl (fun s m => s.msix m.1 m.2) s).out := by
  induction l generalizing s with
  | nil => exact ⟨⟨_, rfl⟩, List.prefix_refl _, fun _ h => absurd h List.not_mem_nil⟩
  | cons m l ih =>
    have hm : m.1 = fn := hl m (by simp)
    obtain ⟨⟨p, hp⟩, hsent⟩ := State.msix_awake (s := s) (vec := m.2) h
    have hout : s.out <+: (s.msix fn m.2).out := (s.posts_msix fn m.2).out
    have htab (vec : Nat) : (s.msix fn m.2).msixEntry fn vec = s.msixEntry fn vec := by rw [State.msixEntry, hp, State.msixEntry]
    obtain ⟨⟨q, hq⟩, hgrow, hall⟩ := ih (fun x hx => hl x (by simp [hx])) (s.msix fn m.2) (by rw [hp]; exact h)
    rw [List.foldl_cons, hm]
    refine ⟨⟨q, by rw [hq, hp]⟩, hout.trans hgrow, fun vec hvec hmask => ?_⟩
    rcases List.mem_cons.mp hvec with hvec | hvec
    · have hv : m.2 = vec := by rw [← hvec]
      subst hv
      exact hgrow.subset (by rw [hsent hmask]; simp)
    · rw [← htab vec] at hmask ⊢
      exact hall vec hvec hmask

theorem State.ringFn_congr {s t : State} (hvfs : t.hif.vfs = s.hif.vfs)
    (hbase : ∀ i, t.fld Reg.HIF_VF_RINGS_RING_BASE i = s.fld Reg.HIF_VF_RINGS_RING_BASE i)
    (hcount : ∀ i, t.fld Reg.HIF_VF_RINGS_RING_COUNT i = s.fld Reg.HIF_VF_RINGS_RING_COUNT i) (n : Nat) : t.ringFn n = s.ringFn n := by
  unfold State.ringFn
  rw [hvfs]
  simp only [hbase, hcount]

theorem State.hasWork_of_ring {s t : State} {n : Nat} (h : t.ring n = s.ring n) : t.hasWork n = s.hasWork n := by
  rw [State.hasWork, h, State.hasWork]

theorem State.toD0_spec (s : State) (fn : Nat) : fn ∉ (s.toD0 fn).hif.d3hot ∧ (∀ m ∈ (s.toD0 fn).hif.msixHeld, m.1 ≠ fn) ∧
    (∀ vec, (fn, vec) ∈ s.hif.msixHeld → (s.msixEntry fn vec).masked = false →
      Out.msix fn vec ((s.msixEntry fn vec).addrLo.toNat + 2 ^ 32 * (s.msixEntry fn vec).addrHi.toNat) (s.msixEntry fn vec).data ∈ (s.toD0 fn).out) ∧
    ∀ n ∈ s.hif.rings.map (·.1), s.ringFn n = fn → s.hasWork n = true → (s.toD0 fn).woken n := by
  unfold State.toD0
  extract_lets mine src s1 s2
  have hnot : fn ∉ s1.hif.d3hot := not_mem_without _ _
  obtain ⟨⟨p, hp⟩, -, hsent⟩ := State.msixs_awake (fn := fn) mine (fun m hm => by simpa using (List.mem_filter.mp hm).2) s1 hnot
  have hregs : Fr 0x8000040000000 s s2 := Fr.foldl (Fr.hif_ (Fr.refl _ s) rfl) fun t m ht => State.msix_fr ht rfl
  have hfn (n : Nat) : s2.ringFn n = s.ringFn n := State.ringFn_congr (congrArg HifState.vfs hp :)
    (fun i => hregs.fld_eq Reg.HIF_VF_RINGS_RING_BASE i rfl rfl) (fun i => hregs.fld_eq Reg.HIF_VF_RINGS_RING_COUNT i rfl rfl) n
  have hring : s2.hif.rings = s.hif.rings := (congrArg HifState.rings hp :)
  have hwork (n : Nat) : s2.hasWork n = s.hasWork n := State.hasWork_of_ring (by rw [State.ring, hring, State.ring])
  obtain ⟨⟨i, hi⟩, ho, -, hwoken⟩ := State.wakes_spec ((s2.hif.rings.map (·.1)).filter fun n => s2.ringFn n == fn && s2.hasWork n) s2
  have hd3 : s2.hif.d3hot = without s.hif.d3hot fn := (congrArg HifState.d3hot hp :)
  have hheld : s2.hif.msixHeld = s.hif.msixHeld.filter fun m => m.1 != fn := (congrArg HifState.msixHeld hp :)
  refine ⟨?_, ?_, ?_, ?_⟩
  · rw [hi, hd3]
    exact not_mem_without _ _
  · rw [hi, hheld]
    intro m hm
    simpa using (List.mem_filter.mp hm).2
  · intro vec hvec hmask
    rw [ho]
    exact hsent vec (List.mem_filter.mpr ⟨hvec, by simp⟩) hmask
  · intro n hn hfnn hwn
    exact hwoken n (List.mem_filter.mpr ⟨by rw [hring]; exact hn, by rw [hfn, hwork, hfnn, hwn]; simp⟩)

/-! ### Function-level resets (R99, R123) -/

/-- A ring as seen through a map over the rings that keeps their numbers. -/
theorem AMap.find_map_if {α : Type} (m : AMap Nat α) (c : Nat → Bool) (g : α → α) (n : Nat) :
    AMap.find (m.map fun p => if c p.1 then (p.1, g p.2) else p) n = (AMap.find m n).map fun x => if c n then g x else x := by
  induction m with
  | nil => rfl
  | cons p m ih =>
    obtain ⟨k, x⟩ := p
    by_cases hk : k = n
    · subst hk
      by_cases hc : c k = true
      · simp [AMap.find, hc]
      · simp [AMap.find, hc]
    · by_cases hc : c k = true
      · simpa [AMap.find, hc, hk] using ih
      · simpa [AMap.find, hc, hk] using ih

section
variable {s : State} {v : Nat} (hv0 : v ≠ 0) (hv : v ∈ s.hif.vfs)
include hv0 hv

theorem State.vfFlr_eq : s.vfFlr v = { s with hif := { s.hif with
      rings := s.hif.rings.map fun p => if s.ringFn p.1 == v then (p.1, p.2.afterFlr) else p
      ops := s.hif.ops.filterMap fun p => if s.ringFn p.1.ring == v then p.2.afterFlr.map fun o => (p.1, o) else some p
      intakes := s.hif.intakes.map fun p => (p.1, { p.2 with
        fill := p.2.fill.filter fun w => !(s.ringFn w.ring == v), drain := p.2.drain.filter fun w => !(s.ringFn w.ring == v) }) } } := by
  unfold State.vfFlr
  exact if_neg (by simp [hv0, hv])

theorem State.ring_vfFlr (n : Nat) : (s.vfFlr v).ring n = if s.ringFn n == v then (s.ring n).afterFlr else s.ring n := by
  rw [State.vfFlr_eq hv0 hv, State.ring, State.ring]
  dsimp only
  rw [AMap.getD, AMap.find_map_if s.hif.rings (fun n => s.ringFn n == v) Ring.afterFlr, AMap.getD]
  cases AMap.find s.hif.rings n with
  | none => simp [Ring.afterFlr]
  | some r => rfl

end

theorem State.settles_functionStop (s : State) (v : Nat) : s.Settles (s.functionStop v) := by
  have hshard (t : State) (k : Nat) (f : OutShard → OutShard) : t.Settles (t.onShard k f) := .of_eq rfl rfl
  have hopen (t : State) (k status ext : Nat) : t.Settles (t.openDone k status ext) := by
    unfold State.openDone
    dsimp only
    split
    · exact .refl t
    · refine .trans ?_ (State.settles_endOp _ _ _)
      exact .of_eq rfl rfl
  have hfail (t : State) (k status ext : Nat) : t.Settles (t.roundFail k status ext) := by
    unfold State.roundFail State.roundIdle
    exact ((hopen t k status ext).trans (hshard _ _ _)).trans (hshard _ _ _)
  unfold State.functionStop
  refine .trans (.foldl _ (fun t o _ => ?_) s) (.foldl _ (fun t k _ => hfail t k _ _) _)
  split
  · exact t.settles_collEnd _ _
  · exact .refl t

/-- A function-level reset: the function's rings are disabled, with nothing taken, and no ring is enabled. -/
theorem State.functionReset_spec (s : State) (v : Nat) : (s.functionReset v).hif.vfs = s.hif.vfs ∧ (∀ n, (s.functionReset v).ringFn n = s.ringFn n) ∧
    (∀ n, (s.ring n).enabled = false → ((s.functionReset v).ring n).enabled = false) ∧
    (v ≠ 0 → v ∈ s.hif.vfs → ∀ n, s.ringFn n = v → ((s.functionReset v).ring n).enabled = false ∧ ((s.functionReset v).ring n).taken = [] ∧
      ((s.functionReset v).ring n).aborted = []) := by
  unfold State.functionReset
  split
  · next h => exact ⟨rfl, fun _ => rfl, fun _ hn => hn, fun h0 hm => absurd h (by simp [h0, hm])⟩
  · next h =>
    have hv0 : v ≠ 0 := fun h0 => h (.inl h0)
    have hv : v ∈ s.hif.vfs := by
      by_contra hm
      exact h (.inr hm)
    have hstop := (s.vfFlr v).settles_functionStop v
    have hvfs : ((s.vfFlr v).functionStop v).hif.vfs = s.hif.vfs := hstop.vfs.trans (by rw [State.vfFlr_eq hv0 hv])
    have hregs : Fr 0x3c40d970000cc0 s ((s.vfFlr v).functionStop v) := State.functionStop_fr (State.vfFlr_fr (Fr.refl _ s) rfl) rfl
    refine ⟨hvfs, fun n => ?_, fun n hn => ?_, fun _ _ n hn => ?_⟩
    · exact State.ringFn_congr hvfs (fun i => hregs.fld_eq Reg.HIF_VF_RINGS_RING_BASE i rfl rfl) (fun i => hregs.fld_eq Reg.HIF_VF_RINGS_RING_COUNT i rfl rfl) n
    · rw [(hstop.ring n).1, State.ring_vfFlr hv0 hv]
      split
      · rfl
      · exact hn
    · have hring : (s.vfFlr v).ring n = (s.ring n).afterFlr := by rw [State.ring_vfFlr hv0 hv, hn, beq_self_eq_true, if_pos rfl]
      obtain ⟨he, ht, ha⟩ := hstop.ring n
      exact ⟨he.trans (by rw [hring]; rfl), ht.trans (by rw [hring]; rfl), ha.trans (by rw [hring]; rfl)⟩

/-- Function-level resets in a row. -/
theorem State.functionResets_spec (l : List Nat) (s : State) : (∀ n, (l.foldl (fun s v => s.functionReset v) s).ringFn n = s.ringFn n) ∧
    (∀ n, (s.ring n).enabled = false → ((l.foldl (fun s v => s.functionReset v) s).ring n).enabled = false) ∧
    (∀ v ∈ l, v ≠ 0 → v ∈ s.hif.vfs → ∀ n, s.ringFn n = v → ((l.foldl (fun s v => s.functionReset v) s).ring n).enabled = false) := by
  induction l generalizing s with
  | nil => exact ⟨fun _ => rfl, fun _ h => h, fun _ h => absurd h List.not_mem_nil⟩
  | cons w l ih =>
    obtain ⟨hvfs, hfn, hkeep, hoff⟩ := s.functionReset_spec w
    obtain ⟨ihfn, ihkeep, ihoff⟩ := ih (s.functionReset w)
    refine ⟨fun n => (ihfn n).trans (hfn n), fun n hn => ihkeep n (hkeep n hn), fun v hv h0 hm n hn => ?_⟩
    rcases List.mem_cons.mp hv with hv | hv
    · subst hv
      exact ihkeep n (hoff h0 hm n hn).1
    · exact ihoff v hv h0 (by rw [hvfs]; exact hm) n ((hfn n).trans hn)

/-- Settles O17, clause by clause. -/
theorem doorbellRows : Obligations.DoorbellRows := by
  unfold Obligations.DoorbellRows
  refine ⟨?_, ?_, ?_, ?_, ?_, ?_, ?_, ?_, ?_, ?_, ?_⟩
  case refine_1 =>
    intro s v page n w hco hp he hsub hv hh
    have hk : (s.ring n).kind ≠ kindNQ := by
      intro h
      rw [h] at hsub
      exact absurd hsub (by decide)
    refine ⟨_, exec_doorbell hco hp, ?_⟩
    have hfr : Fr 0x40000000 s ((s.setRing n { s.ring n with host := w.toNat % 65536 }).wake n) := State.wake_fr (State.setRing_fr (Fr.refl _ s) rfl) rfl
    rw [State.doorbell_moves he hk hv hh, hsub, if_pos rfl]
    obtain ⟨i, hi⟩ := (s.setRing n { s.ring n with host := w.toNat % 65536 }).hif_wake n
    refine ⟨?_, State.woken_wake _ n, hfr.within (ps := [.hif]) (by decide +kernel)⟩
    rw [State.ring, hi]
    exact s.ring_setRing_self n _
  case refine_2 =>
    intro s v page n w hco hp he hk hv hh
    exact ⟨_, exec_doorbell hco hp, State.doorbell_same he hk hv hh⟩
  case refine_3 =>
    intro s v page n w hco hp he hk hv
    have hnq : (s.ring n).kind ≠ kindNQ := by
      rcases hk with h | h
      · rw [h]; decide
      · rw [h]; decide
    have hsub : isSubmission (s.ring n).kind = false := by
      rcases hk with h | h
      · rw [h]; decide
      · rw [h]; decide
    refine ⟨_, exec_doorbell hco hp, ?_⟩
    by_cases hh : w.toNat % 65536 = (s.ring n).host
    · rw [State.doorbell_same he hnq hv hh, hh]
      exact ⟨rfl, rfl, (Fr.refl 0 s).within (ps := [.hif]) (by decide +kernel)⟩
    · rw [State.doorbell_moves he hnq hv hh, hsub, if_neg (by decide)]
      have hfr : Fr 0x40000000 s (s.setRing n { s.ring n with host := w.toNat % 65536 }) := State.setRing_fr (Fr.refl _ s) rfl
      exact ⟨s.ring_setRing_self n _, rfl, hfr.within (ps := [.hif]) (by decide +kernel)⟩
  case refine_4 =>
    intro s v page n w hco hp he hk hv
    exact ⟨_, exec_doorbell hco hp, State.doorbell_outside he hk hv⟩
  case refine_5 =>
    intro s v page n w hco hp he
    exact ⟨_, exec_doorbell hco hp, State.doorbell_disabled he⟩
  case refine_6 =>
    intro s fn hco
    have hfr : Fr 0x40000000 s (s.toD3hot fn) := State.toD3hot_fr (Fr.refl _ s) rfl
    refine ⟨_, rfl, ?_⟩
    beta_reduce
    rw [State.inCore_on hco]
    have hmem : fn ∈ (s.toD3hot fn).hif.d3hot := mem_withElem_self _ _
    refine ⟨hmem, fun n hn => ?_, hfr.within (ps := [.hif]) (by decide +kernel)⟩
    have hfn : (s.toD3hot fn).ringFn n = fn := hn
    rw [State.ringHeld, hfn, Bool.or_eq_true, decide_eq_true_eq]
    exact .inr hmem
  case refine_7 =>
    intro s fn hco
    refine ⟨_, rfl, ?_⟩
    beta_reduce
    rw [State.inCore_on hco]
    exact s.toD0_spec fn
  case refine_8 =>
    intro s vf hco h0 hm
    obtain ⟨-, -, -, hoff⟩ := s.functionReset_spec vf
    have hsettles := State.settles_inPool (f := fun s => s.functionReset vf) hco
    refine ⟨_, rfl, fun n hn => ?_⟩
    obtain ⟨he, ht, ha⟩ := hsettles.ring n
    obtain ⟨he', ht', ha'⟩ := hoff h0 hm n hn
    exact ⟨he.trans he', ht.trans ht', ha.trans ha'⟩
  case refine_9 =>
    intro s vf hco h0 hm hops hshards hparked
    have hreset : s.functionReset vf = s.vfFlr vf := by
      have hflr : Fr 0x40000000 s (s.vfFlr vf) := State.vfFlr_fr (Fr.refl _ s) rfl
      rw [State.functionReset, if_neg (by simp [h0, hm]), State.functionStop, hflr.col_eq rfl, hops]
      have hshards' : (s.vfFlr vf).outer.shards = [] := by rw [hflr.outer_eq rfl, hshards]
      simp only [List.map_nil, List.filter_nil, List.foldl_nil, hshards']
    refine ⟨_, rfl, ?_⟩
    beta_reduce
    have hflr : Fr 0x40000000 s (s.vfFlr vf) := State.vfFlr_fr (Fr.refl _ s) rfl
    rw [State.inPool_of_setts hco (by rw [hreset]; exact hflr.sett_eq rfl), hreset]
    refine ⟨?_, hflr.within (ps := [.hif]) (by decide +kernel)⟩
    rw [State.vfFlr_eq h0 hm]
    refine congrArg (fun f => s.hif.ops.filterMap f) (funext fun p => ?_)
    by_cases hp : s.ringFn p.1.ring = vf
    · rw [hp, beq_self_eq_true, if_pos rfl, if_neg (by simp), Op.afterFlr, Op.runs]
      obtain ⟨k, key, fn, desc, phase, seg, hold, ending, lost, dark⟩ := p
      cases phase with
      | taken => rfl
      | running => rfl
      | done c => rfl
    · rw [if_pos hp, if_neg (by simpa using hp)]
  case refine_10 =>
    intro s n hco
    obtain ⟨hfn, -, hoff⟩ := State.functionResets_spec (s.hif.vfs.filter fun v => !(((List.range (min n 64)).map (· + 1)).contains v)) s
    have hsettles := State.settles_inPool (f := fun s => s.vfEnable n) hco
    have hvfs : (s.vfEnable n).hif.vfs = (List.range (min n 64)).map (· + 1) := rfl
    refine ⟨_, rfl, hsettles.vfs.trans hvfs, fun vf hvf hnot h0 r hr => ?_⟩
    have hnot' : vf ∉ (List.range (min n 64)).map (· + 1) := by
      rw [← hvfs, ← hsettles.vfs]
      exact hnot
    have hmem : vf ∈ s.hif.vfs.filter fun v => !(((List.range (min n 64)).map (· + 1)).contains v) :=
      List.mem_filter.mpr ⟨hvf, by rw [Bool.not_eq_true', ← Bool.not_eq_true, List.contains_iff_mem]; exact hnot'⟩
    exact (hsettles.ring r).1.trans (hoff vf hmem h0 hvf r hr)
  case refine_11 =>
    intro s stream k hco hstream
    refine ⟨_, rfl, ?_⟩
    beta_reduce
    rw [State.inCore_on hco, if_pos hstream]

end Sys2Proof.Machine


/-!
PROOFS. The power loops, the pace monitors and the arbiters (R49 to R60, R477 to R485).
-/

namespace Sys2Proof.Machine

/-! ### The set point (R481) -/

/-- Of the power state a new set point changes what is announced alone. -/
theorem State.power_setPoint (s : State) : s.setPoint.power.cut = s.power.cut ∧ s.setPoint.power.overFor = s.power.overFor ∧
    s.setPoint.power.underFor = s.power.underFor := by
  unfold State.setPoint
  dsimp only
  split
  · exact ⟨rfl, rfl, rfl⟩
  · exact ⟨rfl, rfl, rfl⟩

theorem State.onPower_onPower (s : State) (f g : PowerState → PowerState) : (s.onPower f).onPower g = s.onPower fun p => g (f p) := rfl

theorem State.power_onPower (s : State) (f : PowerState → PowerState) : (s.onPower f).power = f s.power := rfl

theorem State.lowestMv_onPower (s : State) (f : PowerState → PowerState) : (s.onPower f).lowestMv = s.lowestMv := rfl

theorem State.wantedMv_onPower (s : State) (f : PowerState → PowerState) : (s.onPower f).wantedMv =
    if (f s.power).critical then s.lowestMv else max s.lowestMv (s.targetMv - (f s.power).cut) := rfl

theorem State.coreMv_onPower (s : State) (f : PowerState → PowerState) : (s.onPower f).coreMv = s.coreMv := rfl

section
variable {s : State}

theorem State.voltageStep_lowers (h : 250 ≤ s.power.overFor) (hmv : s.lowestMv < s.coreMv) :
    s.voltageStep = (s.onPower fun p => { p with overFor := p.overFor - 250, cut := p.cut + 5 }).setPoint := by
  unfold State.voltageStep
  rw [if_pos h]
  dsimp only
  rw [if_pos (by rwa [State.lowestMv_onPower, State.coreMv_onPower]), State.onPower_onPower]

theorem State.voltageStep_lowest (h : 250 ≤ s.power.overFor) (hmv : s.coreMv ≤ s.lowestMv) :
    s.voltageStep = (s.onPower fun p => { p with overFor := p.overFor - 250 }).setPoint := by
  unfold State.voltageStep
  rw [if_pos h]
  dsimp only
  rw [if_neg (by rwa [State.lowestMv_onPower, State.coreMv_onPower, Nat.not_lt])]

theorem State.voltageStep_raises (h : s.power.overFor < 250) (hu : 250 ≤ s.power.underFor) :
    s.voltageStep = (s.onPower fun p => { p with underFor := p.underFor - 250, cut := p.cut - 5 }).setPoint := by
  unfold State.voltageStep
  rw [if_neg (Nat.not_le.mpr h), if_pos hu]

end

/-! ### The estimate (R477 to R485) -/

theorem largestIssue_le {d : Nat} (hd : d ≤ 256) (ok : Nat → Bool) : largestIssue d ok ≤ 256 := by
  have hfold (l : List Nat) (hl : ∀ i ∈ l, i ≤ 256) (a : Nat) (ha : a ≤ 256) : l.foldl max a ≤ 256 := by
    induction l generalizing a with
    | nil => exact ha
    | cons x l ih => exact ih (fun i hi => hl i (by simp [hi])) _ (Nat.max_le.mpr ⟨ha, hl x (by simp)⟩)
  exact hfold _ (fun i hi => Nat.le_of_lt_succ (List.mem_range.mp (List.mem_filter.mp hi).1)) d hd

theorem nextIssue_lt {cur want : Nat} (hc : cur < 512) (hw : want ≤ 256) (b : Bool) : nextIssue cur want b < 512 := by
  unfold nextIssue
  split
  · omega
  · split <;> omega

/-- What follows the estimate sets flags of the status alone. -/
theorem State.fld_throttle (s : State) (f : Fld) (i : Nat) (hb : f.blk = .pwr) (hu : Reg.PWR_POWER_STATUS_CAP_UNREACHABLE.clearOf f = true)
    (ht : Reg.PWR_POWER_STATUS_THROTTLED.clearOf f = true) : s.capUnreachable.throttle.fld f i = s.fld f i := by
  have hraise (t : State) (c k d : Nat) : (t.raise c k d).fld f i = t.fld f i :=
    (t.raise_keeps c k d).fld_eq f i (by rw [hb]; rfl) (by rw [hb]; rfl)
  have hcap : s.capUnreachable.fld f i = s.fld f i := by
    unfold State.capUnreachable
    split
    · rw [hraise, State.fld_setFlag_clear _ _ _ _ _ _ hu]
    · rfl
  rw [← hcap]
  generalize s.capUnreachable = t
  unfold State.throttle
  dsimp only
  split
  · rw [hraise, State.fld_setFlag_clear _ _ _ _ _ _ ht]
  · split
    · rw [hraise, State.fld_setFlag_clear _ _ _ _ _ _ ht]
    · rfl

theorem State.powerEstimate_spec {s : State} (hco : s.coreOff = false) (total bow stern : Nat) :
    let est := if s.flag Reg.PWR_POWER_STATUS_CAL_FAIL then total else (s.power.gain * total).floor.toNat
    let pc := (s.power.gain * bow).floor.toNat + (s.power.gain * stern).floor.toNat
    let ca := slewStep pc s.power.ceiling s.power.allowance
    let cur := s.fld Reg.PWR_POWER_STATUS_ISSUE
    let want := min (issueCapOf est pc cur s.limitW) (issueSlewOf pc cur ca.1 ca.2)
    let t := s.powerEstimate total bow stern
    t.power.pcBow = (s.power.gain * bow).floor.toNat ∧ t.power.pcStern = (s.power.gain * stern).floor.toNat ∧
      t.power.ceiling = ca.1 ∧ t.power.allowance = ca.2 ∧ t.fld Reg.PWR_POWER_STATUS_EST_W = min (est / 1000) 4095 ∧
      t.fld Reg.PWR_POWER_STATUS_ISSUE =
        nextIssue cur (if s.power.critical then min 32 want else want) (s.setPoint.coreMv == s.setPoint.targetMv) := by
  intro est pc ca cur want t
  unfold t State.powerEstimate
  rw [hco, if_neg (by decide)]
  extract_lets g scale calFail est' pcB pcS pc' cap s0 above low far
  split
  next c a hca =>
  extract_lets slew want' issue byLimit s1 s2 s3
  have hca' : ca = (c, a) := hca
  have hwant : want' = if s.power.critical = true then min 32 want else want := by
    unfold want' want cap slew
    rw [hca']
  have hle : want' ≤ 256 := by
    have hcap : cap ≤ 256 := largestIssue_le (by decide) _
    unfold want'
    split <;> omega
  have hissue : issue < 512 := nextIssue_lt (State.fld_lt s Reg.PWR_POWER_STATUS_ISSUE 0) hle _
  have hs3 (f : Fld) : s3.fld f 0 = s2.fld f 0 := by
    unfold s3
    split <;> rfl
  have hp3 : s3.power.pcBow = s1.power.pcBow ∧ s3.power.pcStern = s1.power.pcStern ∧ s3.power.ceiling = s1.power.ceiling ∧ s3.power.allowance = s1.power.allowance := by
    unfold s3
    split
    · exact ⟨rfl, rfl, rfl, rfl⟩
    · exact ⟨rfl, rfl, rfl, rfl⟩
  obtain ⟨hbow, hstern, hceil, hallow⟩ := hp3
  have hend : Fr 0x2c000070400000 s3 s3.capUnreachable.throttle := State.throttle_fr (State.capUnreachable_fr (Fr.refl _ s3) rfl) rfl
  have hpow : s3.capUnreachable.throttle.power = s3.power := hend.power_eq rfl
  rw [hpow, State.fld_throttle _ _ _ rfl (by decide) (by decide), State.fld_throttle _ _ _ rfl (by decide) (by decide), hs3, hs3, hca']
  refine ⟨hbow, hstern, hceil, hallow, ?_, ?_⟩
  · unfold s2
    rw [State.fld_setFlag_clear _ _ _ _ _ _ (by decide), State.fld_setFld_clear _ _ _ _ _ _ (by decide),
      State.fld_setFld_val _ _ _ _ (by decide) (by change _ < 4096; omega)]
  · unfold s2
    rw [State.fld_setFlag_clear _ _ _ _ _ _ (by decide), State.fld_setFld_val _ _ _ _ (by decide) hissue, ← hwant]

/-! ### Calibration (R478, R479) -/

section
variable {s : State} {meas est : Nat} (hst : 4 ≤ s.stage) (hdown : s.mgmt.down = false) (hco : s.coreOff = false) (hup : s.upState ≠ upHANDOVER)
include hst hdown hco hup

theorem State.calibrate_passes (he : est ≠ 0) (hlo : (4 / 5 : Rat) ≤ meas / est) (hhi : (meas / est : Rat) ≤ 5 / 4) :
    (s.calibrate meas est false).power =
      { s.power with gain := s.power.gain + ((meas : Rat) / est - s.power.gain) / 4, calFails := 0, calPasses := s.power.calPasses + 1 } := by
  unfold State.calibrate
  rw [if_neg (by simp [hdown, hco, hup]; omega)]
  dsimp only
  rw [if_neg he, if_pos (by simp [he, hlo, hhi])]
  split
  · rfl
  · rfl

theorem State.calibrate_fails {fault : Bool} (h : fault = true ∨ est = 0 ∨ (meas / est : Rat) < 4 / 5 ∨ (5 / 4 : Rat) < meas / est) :
    (s.calibrate meas est fault).power = { s.power with calFails := s.power.calFails + 1, calPasses := 0 } ∧
      (s.calibrate meas est fault).fld Reg.PWR_CAL_STATUS_FAILS = satAdd 0xFFFF (s.fld Reg.PWR_CAL_STATUS_FAILS) 1 := by
  have hcount : ((s.onPower fun p => { p with calFails := p.calFails + 1, calPasses := 0 }).bump Reg.PWR_CAL_STATUS_FAILS).fld Reg.PWR_CAL_STATUS_FAILS =
      satAdd 0xFFFF (s.fld Reg.PWR_CAL_STATUS_FAILS) 1 :=
    State.fld_bump_sat _ Reg.PWR_CAL_STATUS_FAILS 0 1 (by decide)
  have hpow : ((s.onPower fun p => { p with calFails := p.calFails + 1, calPasses := 0 }).bump Reg.PWR_CAL_STATUS_FAILS).power =
      { s.power with calFails := s.power.calFails + 1, calPasses := 0 } := rfl
  unfold State.calibrate
  rw [if_neg (by simp [hdown, hco, hup]; omega)]
  dsimp only
  rw [if_neg]
  · generalize (s.onPower fun p => { p with calFails := p.calFails + 1, calPasses := 0 }).bump Reg.PWR_CAL_STATUS_FAILS = u at hcount hpow ⊢
    split
    · have hkeeps := (u.setFlag Reg.PWR_POWER_STATUS_CAL_FAIL 0 true).raise_keeps Ev.CAL_FAIL 0
        (min ((if est = 0 then 0 else (meas : Rat) / est) * 16384).floor.toNat 65535 + bit fault * 2 ^ 16)
      refine ⟨(hkeeps.power_eq rfl).trans hpow, (hkeeps.fld_eq Reg.PWR_CAL_STATUS_FAILS 0 rfl rfl).trans ?_⟩
      rw [State.fld_setFlag_clear _ _ _ _ _ _ (by decide), hcount]
    · exact ⟨hpow, hcount⟩
  · intro hok
    simp only [Bool.and_eq_true, decide_eq_true_eq, Bool.not_eq_true'] at hok
    obtain ⟨⟨⟨he, hlo⟩, hhi⟩, hf⟩ := hok
    rw [if_neg he] at hlo hhi
    rcases h with h | h | h | h
    · rw [hf] at h
      exact absurd h (by decide)
    · exact he h
    · exact absurd h (not_lt.mpr hlo)
    · exact absurd h (not_lt.mpr hhi)

end

/-! ### The floor of the present band (R51, R52) -/

section
variable {s : State} (hlow : s.paceLow = true) (hco : s.coreOff = false) (hmv : s.floorMv ≤ s.coreMv)
include hlow hco hmv

theorem State.floorRaise_spec (h : s.fld Reg.PWR_VT_ENTRY_FLOOR_MV (s.fld Reg.PWR_TEMP_STATUS_BAND) + 5 ≤ 900) :
    s.floorRaise.fld Reg.PWR_VT_ENTRY_FLOOR_MV (s.fld Reg.PWR_TEMP_STATUS_BAND) = s.fld Reg.PWR_VT_ENTRY_FLOOR_MV (s.fld Reg.PWR_TEMP_STATUS_BAND) + 5 ∧
      s.floorRaise.floorMv = s.fld Reg.PWR_VT_ENTRY_FLOOR_MV (s.fld Reg.PWR_TEMP_STATUS_BAND) + 5 ∧
      s.Records s.floorRaise Ev.FLOOR_RAISED (s.fld Reg.PWR_TEMP_STATUS_BAND) (s.fld Reg.PWR_VT_ENTRY_FLOOR_MV (s.fld Reg.PWR_TEMP_STATUS_BAND) + 5) := by
  unfold State.floorRaise
  rw [if_neg (by simp [hlow, hco]; omega)]
  dsimp only
  rw [if_neg (Nat.not_lt.mpr h)]
  generalize s.fld Reg.PWR_TEMP_STATUS_BAND = b at h ⊢
  generalize s.fld Reg.PWR_VT_ENTRY_FLOOR_MV b = mv at h ⊢
  have hentry : (((s.setFld Reg.PWR_VT_ENTRY_FLOOR_MV b (mv + 5)).bump Reg.PWR_VT_ENTRY_RAISES b).bump Reg.PWR_VFLOOR_STATUS_RAISE_COUNT).fld Reg.PWR_VT_ENTRY_FLOOR_MV b = mv + 5 := by
    rw [State.fld_bump_clear _ _ _ _ _ _ (by decide), State.fld_bump_clear _ _ _ _ _ _ (by decide), State.fld_setFld_val _ _ _ _ (by decide) (by change _ < 1024; omega)]
  have hfr : Fr 0x8000400400000 s ((((s.setFld Reg.PWR_VT_ENTRY_FLOOR_MV b (mv + 5)).bump Reg.PWR_VT_ENTRY_RAISES b).bump Reg.PWR_VFLOOR_STATUS_RAISE_COUNT).setBand b) :=
    State.setBand_fr (State.bump_fr (State.bump_fr (State.setFld_fr (Fr.refl _ s) rfl) rfl) rfl) rfl
  generalize ((s.setFld Reg.PWR_VT_ENTRY_FLOOR_MV b (mv + 5)).bump Reg.PWR_VT_ENTRY_RAISES b).bump Reg.PWR_VFLOOR_STATUS_RAISE_COUNT = u at hentry hfr ⊢
  have hkeeps := (u.setBand b).raise_keeps Ev.FLOOR_RAISED b (mv + 5)
  refine ⟨?_, ?_, State.evr_raise_congr (hfr.recordsAlike ⟨rfl, rfl, rfl, rfl⟩) _ _ _⟩
  · rw [hkeeps.fld_eq Reg.PWR_VT_ENTRY_FLOOR_MV b rfl rfl, State.fld_setBand _ _ _ _ (by decide) (by decide) (by decide), hentry]
  · rw [State.floorMv, hkeeps.fld_eq Reg.PWR_VFLOOR_STATUS_FLOOR_MV 0 rfl rfl]
    exact (u.floorMv_setBand b).trans hentry

theorem State.floorRaise_fails (h : 900 < s.fld Reg.PWR_VT_ENTRY_FLOOR_MV (s.fld Reg.PWR_TEMP_STATUS_BAND) + 5)
    (hf : s.flag Reg.PWR_VFLOOR_STATUS_PACE_FAIL = false) :
    s.floorRaise = (s.setFlag Reg.PWR_VFLOOR_STATUS_PACE_FAIL 0 true).raise Ev.PACE_FAIL (s.fld Reg.PWR_TEMP_STATUS_BAND) 0 := by
  unfold State.floorRaise
  rw [if_neg (by simp [hlow, hco]; omega)]
  dsimp only
  rw [if_pos h, hf, if_neg (by decide)]

end

/-! ### Arbiters (R56 to R60) -/

/-- A request that is granted: its port is the last of its class, and the grant is an effect. -/
theorem State.arbGranted_spec (s : State) (res inst : Nat) (r : ArbReq) (blocked : Nat) :
    (s.arbGranted res inst r blocked).power = { s.power with arbLast := s.power.arbLast.put (res, inst, s.arbClass r.src) r.port } ∧
      s.out ++ [.grant res inst (s.arbClass r.src) r.port] <+: (s.arbGranted res inst r blocked).out ∧
      ∀ x, (s.arbGranted res inst r blocked).arbClass x = s.arbClass x := by
  have hclass (x : ArbSrc) : (s.arbGranted res inst r blocked).arbClass x = s.arbClass x := by
    have hfr : Fr 0x2c100c70000041 s (s.arbGranted res inst r blocked) := State.arbGranted_fr (Fr.refl _ s) rfl
    cases x with
    | portTraffic port tc => simp only [State.arbClass, State.tcClass, hfr.fld_eq Reg.TMS_CLASS_MAP_CLASS port rfl rfl]
    | _ => rfl
  unfold State.arbGranted
  extract_lets c k s1 s2 exceeds s3 src s4
  have h4 : Fr 0x2c100070000001 s1 s4 ∧ s1.Settles s4 := by
    have hs2 : Fr 0x20000000000001 s1 s2 := State.setFld_fr (State.bumpWrap_fr (Fr.refl 0x20000000000001 s1) (show okBlk _ Blk.mgt = true from rfl)) (show okBlk _ Blk.mgt = true from rfl)
    unfold s4
    split
    · have hraised : Fr 0x2c000070000001 s1 s3 := State.raise_fr (State.bump_fr (hs2.weaken rfl) rfl) rfl
      have hsettles : s1.Settles s3 := by
        refine .trans ?_ (State.settles_raise _ _ _ _)
        exact .of_eq rfl rfl
      refine ⟨State.healthAdd_fr (Fr.mgmt_ (hraised.weaken rfl) rfl) rfl, hsettles.trans (.trans (t := { s3 with mgmt := { s3.mgmt with arbExceeded := s3.mgmt.arbExceeded + 1 } }) (.of_eq rfl rfl) ?_)⟩
      exact (State.healthAdd_fr (Fr.refl 0x100000000000 _) rfl).settles ⟨rfl, rfl, rfl⟩
    · exact ⟨hs2.weaken rfl, hs2.settles ⟨rfl, rfl, rfl⟩⟩
  obtain ⟨hfr, hsettles⟩ := h4
  have hact : Fr 0x2c100870000041 s1 (s4.arbAct r) := State.arbAct_fr (hfr.weaken rfl) rfl
  have hacts : s4.Settles (s4.arbAct r) := by
    unfold State.arbAct
    split
    · exact .refl s4
    · exact s4.settles_settAlloc _
    · split
      · exact s4.settles_settFree _
      · exact .refl s4
  exact ⟨hact.power_eq rfl, (hsettles.trans hacts).out, hclass⟩

theorem mem_of_prefix_append {α : Type} {l m : List α} {x : α} (h : l ++ [x] <+: m) : x ∈ m := h.subset (by simp)

/-- A decision of an arbiter: the request chosen is granted, and before it one that frees a sett for it. -/
theorem State.arbGrant_spec {s : State} {res inst blocked passed : Nat} {reqs : List ArbReq} {delayed : List Nat} {r : ArbReq} (hres : res ≤ 8) (hco : s.coreOff = false)
    (hchoose : arbChoose (fun x => s.arbClass x.src) (s.power.arbPassed.getD (res, inst) 0) (fun c => s.power.arbLast.getD (res, inst, c) 65535)
      (reqs.filter fun x => freeFirst res reqs != some x) = some (r, passed)) :
    (s.arbGrant res inst reqs blocked delayed).power.arbPassed.find (res, inst) = some passed ∧
      (s.arbGrant res inst reqs blocked delayed).power.arbLast.find (res, inst, s.arbClass r.src) = some r.port ∧
      Out.grant res inst (s.arbClass r.src) r.port ∈ (s.arbGrant res inst reqs blocked delayed).out ∧
      ∀ f, freeFirst res reqs = some f → Out.grant res inst (s.arbClass f.src) f.port ∈ (s.arbGrant res inst reqs blocked delayed).out := by
  have hoverruns (l : List Nat) (u : State) : (l.foldl (fun (s : State) p => s.planOverrun p) u).power = u.power ∧
      (l.foldl (fun (s : State) p => s.planOverrun p) u).out = u.out := by
    have hfr : Fr 0x1000 u (l.foldl (fun (s : State) p => s.planOverrun p) u) := Fr.foldl (Fr.refl _ u) fun t p ht => State.planOverrun_fr ht rfl
    exact ⟨hfr.power_eq rfl, hfr.out_eq rfl⟩
  unfold State.arbGrant
  rw [if_neg (by simp [hco]; omega)]
  extract_lets first u rest
  have hfirst : (∀ x, u.arbClass x = s.arbClass x) ∧ ∀ f, first = some f → Out.grant res inst (s.arbClass f.src) f.port ∈ u.out := by
    rcases hf : freeFirst res reqs with _ | f
    · have hu : u = s := by
        unfold u first
        rw [hf]
      rw [hu]
      exact ⟨fun _ => rfl, fun f h => absurd (hf.symm.trans h) (by simp)⟩
    · have hu : u = s.arbGranted res inst f 0 := by
        unfold u first
        rw [hf]
      obtain ⟨-, hout, hclass⟩ := s.arbGranted_spec res inst f 0
      rw [hu]
      refine ⟨hclass, fun f' h => ?_⟩
      obtain rfl := Option.some.inj (hf.symm.trans h)
      exact mem_of_prefix_append hout
  obtain ⟨hclass, hfree⟩ := hfirst
  clear_value u
  rw [show arbChoose (fun r => s.arbClass r.src) (s.power.arbPassed.getD (res, inst) 0) (fun c => s.power.arbLast.getD (res, inst, c) 65535) rest = some (r, passed)
    from hchoose]
  dsimp only
  have hgrant := (u.onPower fun p => { p with arbPassed := p.arbPassed.put (res, inst) passed }).arbGranted_spec res inst r blocked
  have hclass' (x : ArbSrc) : (u.onPower fun p => { p with arbPassed := p.arbPassed.put (res, inst) passed }).arbClass x = s.arbClass x := by
    rw [← hclass x]
    cases x with
    | _ => rfl
  rw [hclass'] at hgrant
  obtain ⟨hpow, hout, -⟩ := hgrant
  generalize (u.onPower fun p => { p with arbPassed := p.arbPassed.put (res, inst) passed }).arbGranted res inst r blocked = v at hpow hout ⊢
  obtain ⟨hp, ho⟩ := hoverruns delayed v
  rw [hp, ho, hpow]
  refine ⟨AMap.find_put_self _ _ _, AMap.find_put_self _ _ _, mem_of_prefix_append hout, fun f hf => ?_⟩
  exact hout.subset (List.mem_append_left _ (hfree f hf))

/-- Settles O13, clause by clause. -/
theorem powerLoopRows : Obligations.PowerLoopRows := by
  unfold Obligations.PowerLoopRows
  refine ⟨?_, ?_, ?_, ?_, ?_, ?_, ?_, ?_, ?_, ?_⟩
  case refine_1 => exact fun s total bow stern hco => ⟨_, rfl, State.powerEstimate_spec hco total bow stern⟩
  case refine_2 =>
    intro s hco ho hmv
    refine ⟨_, rfl, ?_⟩
    beta_reduce
    rw [State.inCore_on hco, State.voltageStep_lowers ho hmv, State.coreMv_setPoint, State.wantedMv_onPower]
    obtain ⟨hcut, hover, -⟩ := (s.onPower fun p => { p with overFor := p.overFor - 250, cut := p.cut + 5 }).power_setPoint
    exact ⟨hcut, hover, rfl⟩
  case refine_3 =>
    intro s hco ho hmv
    refine ⟨_, rfl, ?_⟩
    beta_reduce
    rw [State.inCore_on hco, State.voltageStep_lowest ho hmv, State.coreMv_setPoint, State.wantedMv_onPower]
    obtain ⟨hcut, hover, -⟩ := (s.onPower fun p => { p with overFor := p.overFor - 250 }).power_setPoint
    exact ⟨by simpa only [State.power_onPower] using hcut, hover, rfl⟩
  case refine_4 =>
    intro s hco ho hu
    refine ⟨_, rfl, ?_⟩
    beta_reduce
    rw [State.inCore_on hco, State.voltageStep_raises ho hu, State.coreMv_setPoint, State.wantedMv_onPower]
    obtain ⟨hcut, -, hunder⟩ := (s.onPower fun p => { p with underFor := p.underFor - 250, cut := p.cut - 5 }).power_setPoint
    exact ⟨hcut, hunder, rfl⟩
  case refine_5 =>
    intro s meas est hst hdown hco hup he hlo hhi
    refine ⟨_, rfl, ?_⟩
    beta_reduce
    rw [State.calibrate_passes hst hdown hco hup he hlo hhi]
    exact ⟨rfl, rfl, rfl⟩
  case refine_6 =>
    intro s meas est fault hst hdown hco hup h
    obtain ⟨hpow, hfails⟩ := State.calibrate_fails hst hdown hco hup h
    refine ⟨_, rfl, ?_⟩
    beta_reduce
    rw [hpow]
    exact ⟨rfl, rfl, rfl, hfails⟩
  case refine_7 =>
    intro s kind i mtps hco hi
    refine ⟨_, rfl, ?_⟩
    beta_reduce
    have hmin : min (s.fld Reg.PWR_PACE_VALUE_MIN_MTPS (i + 256 * kind)) mtps < 2 ^ 15 :=
      Nat.lt_of_le_of_lt (Nat.min_le_left _ _) (State.fld_lt s Reg.PWR_PACE_VALUE_MIN_MTPS _)
    rw [State.inCore_on hco, State.paceWindow, if_neg (Nat.not_le.mpr hi)]
    dsimp only
    refine ⟨?_, State.fld_setFld_val _ _ _ _ (by decide) hmin⟩
    rw [State.fld_setFld_clear _ _ _ _ _ _ (by decide), State.fld_setFld_val _ _ _ _ (by decide) (by change _ < 65536; omega)]
  case refine_8 =>
    intro s hlow hco hmv h
    exact ⟨_, rfl, State.floorRaise_spec hlow hco hmv h⟩
  case refine_9 =>
    intro s hlow hco hmv h hf
    refine ⟨_, rfl, ?_⟩
    beta_reduce
    rw [State.floorRaise_fails hlow hco hmv h hf]
    have hkeeps := (s.setFlag Reg.PWR_VFLOOR_STATUS_PACE_FAIL 0 true).raise_keeps Ev.PACE_FAIL (s.fld Reg.PWR_TEMP_STATUS_BAND) 0
    have hfr : Fr 0x400000 s (s.setFlag Reg.PWR_VFLOOR_STATUS_PACE_FAIL 0 true) := State.setFlag_fr (Fr.refl _ s) rfl
    refine ⟨?_, ?_, State.evr_raise_congr (hfr.recordsAlike ⟨rfl, rfl, rfl, rfl⟩) _ _ _⟩
    · rw [State.flag, hkeeps.fld_eq Reg.PWR_VFLOOR_STATUS_PACE_FAIL 0 rfl rfl, ← State.flag]
      exact State.flag_setFlag_self _ Reg.PWR_VFLOOR_STATUS_PACE_FAIL 0 true (by decide) rfl
    · rw [hkeeps.fld_eq Reg.PWR_VT_ENTRY_FLOOR_MV _ rfl rfl, State.fld_setFlag_clear _ _ _ _ _ _ (by decide)]
  case refine_10 =>
    intro s res inst blocked passed reqs delayed r hres hco hchoose
    obtain ⟨hpassed, hlast, hgrant, hfree⟩ := State.arbGrant_spec (blocked := blocked) (delayed := delayed) hres hco hchoose
    have hsettles := State.settles_inPool (f := fun s => s.arbGrant res inst reqs blocked delayed) hco
    have hpower : (s.inPool fun s => s.arbGrant res inst reqs blocked delayed).power = (s.arbGrant res inst reqs blocked delayed).power := by
      rw [State.inPool_on hco]
      exact (State.pooled_keeps s _).power_eq rfl
    refine ⟨_, rfl, ?_⟩
    beta_reduce
    rw [hpower]
    exact ⟨hpassed, hlast, hsettles.out.subset hgrant, fun f hf => hsettles.out.subset (hfree f hf)⟩

end Sys2Proof.Machine


/-!
PROOFS. Intake pops and the descriptors they take, completions and completion rings, notification pops and the event-record mirror
(R104 to R122).
-/

namespace Sys2Proof.Machine

/-! ### Intakes -/

theorem State.intake_congr {s t : State} (h : t.hif.intakes = s.hif.intakes) (q : Nat) : t.intake q = s.intake q := by rw [State.intake, h, State.intake]

/-- A wake-up leaves what drains, and what was popped last. -/
theorem State.drain_wake (s : State) (n q : Nat) : ((s.wake n).intake q).drain = (s.intake q).drain ∧ ((s.wake n).intake q).last = (s.intake q).last := by
  unfold State.wake
  dsimp only
  split
  · exact ⟨rfl, rfl⟩
  · by_cases hq : q = queueSet n
    · rw [hq, State.intake_setIntake_self]
      exact ⟨rfl, rfl⟩
    · rw [State.intake_setIntake_ne _ _ hq]
      exact ⟨rfl, rfl⟩

/-- What is posted enters no intake. -/
theorem State.intakes_postTo (s : State) (n code inst detail : Nat) : (s.postTo n code inst detail).hif.intakes = s.hif.intakes := by
  have hmsix (t : State) (fn vec : Nat) : (t.msix fn vec).hif.intakes = t.hif.intakes := by
    unfold State.msix
    dsimp only
    split
    · rfl
    · split <;> rfl
  unfold State.postTo
  dsimp only
  split
  · rfl
  · split
    · rw [hmsix]
      rfl
    · rfl

theorem State.intakes_raise (s : State) (c i d fn : Nat) : (s.raise c i d fn).hif.intakes = s.hif.intakes := by
  have hrec : (s.record c i d).hif = s.hif := (State.record_fr (Fr.refl 0x2c000030000000 s) rfl).hif_eq rfl
  have hready (t : State) (d : Nat) : (t.postReady d).hif.intakes = t.hif.intakes := by
    unfold State.postReady
    split
    · rfl
    · exact t.intakes_postTo _ _ _ _
  unfold State.raise
  dsimp only
  split
  · rw [hready, hrec]
  · split
    · refine Eq.trans (foldl_keeps (P := fun t : State => t.hif.intakes) (fun t n _ => t.intakes_postTo n c i d) (s.record c i d)) ?_
      rw [hrec]
    · rw [hrec]

/-! ### Descriptors taken (R105, R114) -/

theorem AMap.length_put_le {κ α : Type} [DecidableEq κ] (m : AMap κ α) (k : κ) (v : α) : (AMap.put m k v).length ≤ m.length + 1 := by
  induction m with
  | nil => simp [AMap.put]
  | cons x m ih =>
    obtain ⟨k', v'⟩ := x
    unfold AMap.put
    split
    · simp
    · simp only [List.length_cons]
      omega

theorem State.takeSlot_spec (s : State) (n slot : Nat) (read : Option Bytes) :
    (∃ a, ((s.takeSlot n slot read).ring n) = { s.ring n with again := a }) ∧ (((s.takeSlot n slot read).op? ⟨n, slot⟩).isSome = true) ∧
      (∀ k, (s.op? k).isSome = true → ((s.takeSlot n slot read).op? k).isSome = true) ∧
      (s.takeSlot n slot read).hif.ops.length ≤ s.hif.ops.length + 1 ∧ (s.takeSlot n slot read).hif.intakes = s.hif.intakes := by
  have hset (o : Op) (ho : o.key = ⟨n, slot⟩) : (∃ a, (s.setOp o).ring n = { s.ring n with again := a }) ∧ ((s.setOp o).op? ⟨n, slot⟩).isSome = true ∧
      (∀ k, (s.op? k).isSome = true → ((s.setOp o).op? k).isSome = true) ∧ (s.setOp o).hif.ops.length ≤ s.hif.ops.length + 1 ∧
      (s.setOp o).hif.intakes = s.hif.intakes := by
    refine ⟨⟨_, rfl⟩, ?_, fun k hk => ?_, AMap.length_put_le _ _ _, rfl⟩
    · rw [← ho, State.op?_setOp_self]
      rfl
    · rw [State.op?_setOp]
      split
      · rfl
      · exact hk
  unfold State.takeSlot
  split
  · cases read with
    | none => exact hset _ rfl
    | some b => exact hset _ rfl
  · next o ho =>
    refine ⟨⟨_, State.ring_setRing_self _ _ _⟩, ?_, fun k hk => hk, Nat.le_succ _, rfl⟩
    exact Option.isSome_iff_exists.mpr ⟨o, ho⟩

theorem State.intakes_takeMany (n c : Nat) (reads : List (Option Bytes)) (s : State) : (State.takeMany n c reads s).hif.intakes = s.hif.intakes := by
  have hone (t : State) (read : Option Bytes) : (t.takeOne n read).hif.intakes = t.hif.intakes := by
    unfold State.takeOne
    dsimp only
    split
    · exact (State.takeSlot_spec _ _ _ _).2.2.2.2
    · rw [State.intakes_raise]
      exact (State.takeSlot_spec _ _ _ _).2.2.2.2
  induction c generalizing reads s with
  | zero => rfl
  | succ c ih =>
    unfold State.takeMany
    split
    · rw [ih, hone]
    · rfl

theorem ringUsed_of_le {size dev host : Nat} (h : dev ≤ host) (hh : host < size) : ringUsed size dev host = host - dev := by
  rw [ringUsed, if_neg (by omega), show host + size - dev = (host - dev) + size by omega, Nat.add_mod_right, Nat.mod_eq_of_lt (by omega)]

theorem ringUsed_of_gt {size dev host : Nat} (h : host < dev) (hd : dev < size) : ringUsed size dev host = host + size - dev := by
  rw [ringUsed, if_neg (by omega), Nat.mod_eq_of_lt (by omega)]

/-- With the next descriptor taken one entry less waits. -/
theorem ringUsed_next {size dev host : Nat} (hd : dev < size) (hh : host < size) (hne : dev ≠ host) :
    (dev + 1) % size < size ∧ ringUsed size dev host = ringUsed size ((dev + 1) % size) host + 1 := by
  by_cases hlast : dev + 1 = size
  · rw [hlast, Nat.mod_self, ringUsed_of_le (Nat.zero_le host) hh, ringUsed_of_gt (by omega) hd]
    omega
  · rw [Nat.mod_eq_of_lt (by omega)]
    refine ⟨by omega, ?_⟩
    by_cases hle : dev ≤ host
    · rw [ringUsed_of_le hle hh, ringUsed_of_le (by omega) hh]
      omega
    · rw [ringUsed_of_gt (by omega) hd, ringUsed_of_gt (by omega) (by omega)]
      omega

theorem ringUsed_self {size a : Nat} (h : a < size) : ringUsed size a a = 0 := by rw [ringUsed_of_le (Nat.le_refl a) h, Nat.sub_self]

/-- A submission ring that runs, with its indices in range. -/
structure State.RingRuns (s : State) (n : Nat) : Prop where
  enabled : (s.ring n).enabled = true
  kind : isSubmission (s.ring n).kind = true
  fault : (s.ring n).fault = false
  dev : (s.ring n).dev < s.ringSize n
  host : (s.ring n).host < s.ringSize n

theorem State.RingRuns.hasWork {s : State} {n : Nat} (h : s.RingRuns n) : s.hasWork n = decide ((s.ring n).dev ≠ (s.ring n).host) := by
  obtain ⟨he, hk, hf, -, -⟩ := h
  unfold State.hasWork
  dsimp only
  rw [he, hk, hf]
  by_cases hd : (s.ring n).dev = (s.ring n).host
  · simp [hd]
  · simp [hd]

/-- One descriptor that can be read is taken. -/
theorem State.takeOne_spec {s : State} {n : Nat} (h : s.RingRuns n) (b : Bytes) :
    (s.takeOne n (some b)).RingRuns n ∧ (s.takeOne n (some b)).ringSize n = s.ringSize n ∧
      ((s.takeOne n (some b)).ring n).dev = ((s.ring n).dev + 1) % s.ringSize n ∧ ((s.takeOne n (some b)).ring n).host = (s.ring n).host ∧
      ((s.takeOne n (some b)).ring n).taken = (s.ring n).taken ++ [(s.ring n).dev] ∧
      ((s.takeOne n (some b)).op? ⟨n, (s.ring n).dev⟩).isSome = true ∧ (∀ k, (s.op? k).isSome = true → ((s.takeOne n (some b)).op? k).isSome = true) ∧
      s.opTableRoom ≤ (s.takeOne n (some b)).opTableRoom + 1 := by
  obtain ⟨he, hk, hf, hdev, hhost⟩ := h
  have heq : s.takeOne n (some b) = (s.setRing n { s.ring n with
    dev := ((s.ring n).dev + 1) % s.ringSize n, taken := (s.ring n).taken ++ [(s.ring n).dev], fault := (s.ring n).fault || false }).takeSlot n (s.ring n).dev (some b) := rfl
  obtain ⟨⟨a, hring⟩, hin, hkeep, hlen, -⟩ := (s.setRing n { s.ring n with
    dev := ((s.ring n).dev + 1) % s.ringSize n, taken := (s.ring n).taken ++ [(s.ring n).dev], fault := (s.ring n).fault || false }).takeSlot_spec n (s.ring n).dev (some b)
  rw [← heq] at hring hin hkeep hlen
  rw [State.ring_setRing_self] at hring
  have hfr : Fr 0x2c000070000000 s (s.takeOne n (some b)) := State.takeOne_fr (Fr.refl _ s) rfl
  have hsize : (s.takeOne n (some b)).ringSize n = s.ringSize n := hfr.fld_eq Reg.HIF_RING_CFG_SIZE n rfl rfl
  have hroom : s.opTableRoom ≤ (s.takeOne n (some b)).opTableRoom + 1 := by
    have hreserve := hfr.fld_eq Reg.TPT_OPTAB_CFG_PLAN_RESERVE 0 rfl rfl
    have hlen' : (s.takeOne n (some b)).hif.ops.length ≤ s.hif.ops.length + 1 := hlen
    unfold State.opTableRoom
    rw [hreserve, hfr.tfb_eq rfl]
    omega
  refine ⟨⟨?_, ?_, ?_, ?_, ?_⟩, hsize, by rw [hring], by rw [hring], by rw [hring], hin, hkeep, hroom⟩
  · rw [hring]; exact he
  · rw [hring]; exact hk
  · rw [hring, hf]; rfl
  · rw [hring, hsize]
    exact Nat.mod_lt _ (by omega)
  · rw [hring, hsize]
    exact hhost

/-- As many descriptors are taken, in order, as wait, as the pop allows, and as can be read and held. -/
theorem State.takeMany_spec {n : Nat} (c : Nat) (reads : List (Option Bytes)) (s : State) (k : Nat) (h : s.RingRuns n)
    (hk : k = min c (ringUsed (s.ringSize n) (s.ring n).dev (s.ring n).host)) (hroom : k ≤ s.opTableRoom) (hlen : k ≤ reads.length)
    (hreads : reads.all Option.isSome = true) :
    ((State.takeMany n c reads s).ring n).taken = (s.ring n).taken ++ (List.range k).map (fun i => ((s.ring n).dev + i) % s.ringSize n) ∧
      ((State.takeMany n c reads s).ring n).dev = ((s.ring n).dev + k) % s.ringSize n ∧
      (∀ i, i < k → ((State.takeMany n c reads s).op? ⟨n, ((s.ring n).dev + i) % s.ringSize n⟩).isSome = true) ∧
      ∀ key, (s.op? key).isSome = true → ((State.takeMany n c reads s).op? key).isSome = true := by
  have hmod : (s.ring n).dev % s.ringSize n = (s.ring n).dev := Nat.mod_eq_of_lt h.dev
  induction c generalizing reads s k with
  | zero =>
    obtain rfl : k = 0 := by omega
    exact ⟨by simp [State.takeMany], by simp [State.takeMany, hmod], fun i hi => absurd hi (by omega), fun _ hkey => hkey⟩
  | succ c ih =>
    unfold State.takeMany
    by_cases hwork : (s.ring n).dev = (s.ring n).host
    · have hk0 : k = 0 := by rw [hk, hwork, ringUsed_self h.host, Nat.min_zero]
      subst hk0
      rw [if_neg (by rw [h.hasWork]; simp [hwork])]
      exact ⟨by simp, by rw [Nat.add_zero, hmod], fun i hi => absurd hi (by omega), fun _ hkey => hkey⟩
    · obtain ⟨hnext, hused⟩ := ringUsed_next h.dev h.host hwork
      obtain ⟨j, rfl⟩ : ∃ j, k = j + 1 := ⟨k - 1, by omega⟩
      obtain ⟨b, rest, rfl⟩ : ∃ b rest, reads = some b :: rest := by
        cases reads with
        | nil => simp at hlen
        | cons x rest =>
          cases x with
          | none => simp at hreads
          | some b => exact ⟨b, rest, rfl⟩
      rw [if_pos (by rw [h.hasWork]; simp [hwork]; omega)]
      obtain ⟨hruns, hsize, hdev, hhost, htaken, hin, hkeep, hroom'⟩ := State.takeOne_spec h b
      simp only [List.tail_cons, List.head?_cons, Option.getD_some]
      obtain ⟨iht, ihd, iho, ihk⟩ := ih rest (s.takeOne n (some b)) j hruns (by rw [hsize, hdev, hhost]; omega) (by omega)
        (by simpa using hlen) (by simpa using hreads) (Nat.mod_eq_of_lt hruns.dev)
      rw [htaken, hsize, hdev] at iht
      rw [hsize, hdev] at ihd iho
      have hstep (i : Nat) : (((s.ring n).dev + 1) % s.ringSize n + i) % s.ringSize n = ((s.ring n).dev + (i + 1)) % s.ringSize n := by
        rw [Nat.mod_add_mod]
        congr 1
        omega
      refine ⟨?_, by rw [ihd, hstep], fun i hi => ?_, fun key hkey => ihk key (hkeep key hkey)⟩
      · rw [iht, List.append_assoc, List.range_succ_eq_map, List.map_cons, List.map_map]
        simp only [hstep, List.singleton_append, Nat.add_zero, hmod]
        rfl
      · cases i with
        | zero =>
          rw [Nat.add_zero, hmod]
          exact ihk _ hin
        | succ i =>
          rw [← hstep]
          exact iho i (by omega)

/-! ### A pop of the intake (R108 to R110) -/

/-- The bank that a pop drains. -/
def Intake.bankDrained (i : Intake) : List IntakeWord := if i.drain.isEmpty then i.fill else i.drain

/-- The intake as a pop of word `x` leaves it. -/
def Intake.popped (i : Intake) (x : IntakeWord) : Intake :=
  { (if i.drain.isEmpty && !i.fill.isEmpty then { i with drain := i.fill, fill := [], bank := 1 - i.bank } else i) with
    drain := i.bankDrained.erase x, last := some x }

/-- What a popped word does: its ring's descriptors are taken, or, with the word lost, every ring of the queue set with work is woken. -/
def State.popActs (s : State) (qs : Nat) (x : IntakeWord) (reads : List (Option Bytes)) : Ecc → State
  | .lost => ((s.ringsOf qs).filter s.hasWork).foldl (fun s n => s.wake n) (s.bump (Reg.DBQ_INTAKE_ECC_LOST.nth qs))
  | e =>
    let s2 := if e = .corrected then s.bump (Reg.DBQ_INTAKE_ECC_CORRECTED.nth qs) else s
    if s2.ringHeld x.ring then s2
    else
      let s3 := State.takeMany x.ring 32 reads s2
      if s3.hasWork x.ring then s3.wake x.ring else s3

section
variable {s : State} {qs : Nat} (hcox : (s.servingCox qs).isSome = true) (hheld : s.qsHeld qs = false)
include hcox hheld

theorem State.intakePop_none (ecc : Ecc) (reads : List (Option Bytes)) (hd : (s.intake qs).drain = []) (hf : (s.intake qs).fill = []) :
    s.intakePop qs ecc reads = s.setFlag (Reg.DBQ_INTAKE_STATUS_UNDERRUN.nth qs) 0 true := by
  unfold State.intakePop
  rw [if_neg (by rw [hheld, ← Option.not_isSome, hcox]; decide)]
  dsimp only
  rw [if_neg (by simp [hf]), hd]
  rfl

/-- A pop of the best word. -/
theorem State.intakePop_word {x : IntakeWord} (hx : bestWord (s.intake qs).bankDrained = some x) (ecc : Ecc) (reads : List (Option Bytes)) :
    s.intakePop qs ecc reads = (s.setIntake qs ((s.intake qs).popped x)).popActs qs x reads ecc := by
  have hi : (if (s.intake qs).drain.isEmpty && !(s.intake qs).fill.isEmpty
      then { s.intake qs with drain := (s.intake qs).fill, fill := [], bank := 1 - (s.intake qs).bank } else s.intake qs).drain = (s.intake qs).bankDrained := by
    unfold Intake.bankDrained at hx ⊢
    by_cases hd : (s.intake qs).drain.isEmpty = true
    · by_cases hf : (s.intake qs).fill.isEmpty = true
      · rw [if_pos hd, List.isEmpty_iff.mp hf] at hx
        exact absurd hx (by simp [bestWord])
      · simp [hd, hf]
    · simp [hd]
  unfold State.intakePop
  rw [if_neg (by rw [hheld, ← Option.not_isSome, hcox]; decide)]
  dsimp only
  rw [hi, hx]
  rfl

end

theorem State.popActs_clean (s : State) (qs : Nat) (x : IntakeWord) (reads : List (Option Bytes)) : s.popActs qs x reads .clean =
    if s.ringHeld x.ring then s
    else if (State.takeMany x.ring 32 reads s).hasWork x.ring then (State.takeMany x.ring 32 reads s).wake x.ring else State.takeMany x.ring 32 reads s := rfl

/-- What a popped word starts leaves what drains and what was popped last. -/
theorem State.drain_popActs (s : State) (qs q : Nat) (x : IntakeWord) (reads : List (Option Bytes)) (ecc : Ecc) :
    ((s.popActs qs x reads ecc).intake q).drain = (s.intake q).drain ∧ ((s.popActs qs x reads ecc).intake q).last = (s.intake q).last := by
  have hread (t : State) (ht : t.hif.intakes = s.hif.intakes) : ((if t.ringHeld x.ring then t else
      if (State.takeMany x.ring 32 reads t).hasWork x.ring then (State.takeMany x.ring 32 reads t).wake x.ring else State.takeMany x.ring 32 reads t).intake q).drain =
        (s.intake q).drain ∧ ((if t.ringHeld x.ring then t else
      if (State.takeMany x.ring 32 reads t).hasWork x.ring then (State.takeMany x.ring 32 reads t).wake x.ring else State.takeMany x.ring 32 reads t).intake q).last =
        (s.intake q).last := by
    have htaken : (State.takeMany x.ring 32 reads t).intake q = s.intake q := State.intake_congr ((State.intakes_takeMany _ _ _ _).trans ht) q
    split
    · rw [State.intake_congr ht]
      exact ⟨rfl, rfl⟩
    · split
      · obtain ⟨hd, hl⟩ := (State.takeMany x.ring 32 reads t).drain_wake x.ring q
        rw [hd, hl, htaken]
        exact ⟨rfl, rfl⟩
      · rw [htaken]
        exact ⟨rfl, rfl⟩
  cases ecc with
  | lost =>
    have hwakes (l : List Nat) (t : State) : ((l.foldl (fun s n => s.wake n) t).intake q).drain = (t.intake q).drain ∧
        ((l.foldl (fun s n => s.wake n) t).intake q).last = (t.intake q).last := by
      induction l generalizing t with
      | nil => exact ⟨rfl, rfl⟩
      | cons n l ih =>
        obtain ⟨hd, hl⟩ := ih (t.wake n)
        obtain ⟨hd', hl'⟩ := t.drain_wake n q
        exact ⟨hd.trans hd', hl.trans hl'⟩
    exact hwakes _ _
  | clean => exact hread s rfl
  | corrected => exact hread (s.bump (Reg.DBQ_INTAKE_ECC_CORRECTED.nth qs)) rfl

/-! ### Completions (R111 to R115) -/

/-- A completion ring with one entry more. -/
def Ring.advanced (r : Ring) (size : Nat) : Ring :=
  { r with dev := if r.dev + 1 = size then 0 else r.dev + 1, phase := if r.dev + 1 = size then !r.phase else r.phase }

section
variable {s : State} {q : Nat} (he : (s.ring q).enabled = true) (hk : (s.ring q).kind = kindCQ) (hf : (s.ring q).fault = false)
  (hd : s.ringFn q ∉ s.hif.d3hot)
include he hk hf hd

theorem State.putCq_full (hroom : ((s.ring q).dev + 1) % s.ringSize q = (s.ring q).host) (c : Completion) (n slot : Nat) (irq ok : Bool) :
    s.putCq q c n slot irq ok = .full (s.setRing q { s.ring q with cqFull := true }) := by
  unfold State.putCq
  dsimp only
  rw [if_neg (by simp [he, hk, hf, hd]), if_pos hroom]

theorem State.putCq_fails (hroom : ((s.ring q).dev + 1) % s.ringSize q ≠ (s.ring q).host) (c : Completion) (n slot : Nat) (irq : Bool) :
    s.putCq q c n slot irq false = .written ((s.setRing q { s.ring q with fault := true }).raise Ev.RING_FAULT (s.localRing q)
      (1 + s.localRing n * 2 ^ 16 + slot * 2 ^ 32) (s.ringFn q)) := by
  unfold State.putCq
  dsimp only
  rw [if_neg (by simp [he, hk, hf, hd]), if_neg hroom, if_pos (by decide)]

/-- An entry that is written: its ring moves on, and the entry and its message are effects. -/
theorem State.putCq_written (hroom : ((s.ring q).dev + 1) % s.ringSize q ≠ (s.ring q).host) (c : Completion) (n slot : Nat) (irq : Bool) :
    ∃ t, s.putCq q c n slot irq true = .written t ∧ (s.setRing q ((s.ring q).advanced (s.ringSize q))).Posts t ∧ t.regs = s.regs ∧
      Out.hostWrite (s.ringFn q) (s.ringBase q + 32 * (s.ring q).dev) (completionBytes c (s.localRing n) slot s.time.ns (s.ring q).phase) ∈ t.out ∧
      (irq = true → (s.msixEntry (s.ringFn q) (s.fld Reg.HIF_RING_LINK_VECTOR q)).masked = false →
        ∃ addr data, Out.msix (s.ringFn q) (s.fld Reg.HIF_RING_LINK_VECTOR q) addr data ∈ t.out) := by
  unfold State.putCq
  dsimp only
  rw [if_neg (by simp [he, hk, hf, hd]), if_neg hroom, if_neg (by decide)]
  generalize hu : (s.setRing q ((s.ring q).advanced (s.ringSize q))).emit (.hostWrite (s.ringFn q) (s.ringBase q + 32 * (s.ring q).dev)
    (completionBytes c (s.localRing n) slot s.time.ns (s.ring q).phase)) = u
  refine ⟨if irq then u.msix (s.ringFn q) (s.fld Reg.HIF_RING_LINK_VECTOR q) else u, by rw [← hu]; rfl, ?_⟩
  have hposts : (s.setRing q ((s.ring q).advanced (s.ringSize q))).Posts u := by
    rw [← hu]
    exact .of_emits rfl rfl
  have hregs : u.regs = s.regs := by
    rw [← hu]
    rfl
  have hwrite : Out.hostWrite (s.ringFn q) (s.ringBase q + 32 * (s.ring q).dev) (completionBytes c (s.localRing n) slot s.time.ns (s.ring q).phase) ∈ u.out := by
    rw [← hu]
    exact List.mem_append_right _ (List.mem_singleton.mpr rfl)
  cases irq with
  | false => exact ⟨hposts, hregs, hwrite, fun h => absurd h (by decide)⟩
  | true =>
    rw [if_pos rfl]
    have hmsix := u.posts_msix (s.ringFn q) (s.fld Reg.HIF_RING_LINK_VECTOR q)
    have hawake : s.ringFn q ∉ u.hif.d3hot := by
      rw [hposts.d3hot]
      exact hd
    obtain ⟨-, hsent⟩ := State.msix_awake (s := u) (vec := s.fld Reg.HIF_RING_LINK_VECTOR q) hawake
    have hentry : u.msixEntry (s.ringFn q) (s.fld Reg.HIF_RING_LINK_VECTOR q) = s.msixEntry (s.ringFn q) (s.fld Reg.HIF_RING_LINK_VECTOR q) := by
      rw [← hu]
      rfl
    have hmregs : (u.msix (s.ringFn q) (s.fld Reg.HIF_RING_LINK_VECTOR q)).regs = u.regs := by
      unfold State.msix
      dsimp only
      split
      · rfl
      · split <;> rfl
    refine ⟨hposts.trans hmsix, hmregs.trans hregs, hmsix.out.subset hwrite, fun _ hmask => ?_⟩
    have hout := hsent (by rw [hentry]; exact hmask)
    exact ⟨_, _, by rw [hout]; exact List.mem_append_right _ (List.mem_singleton.mpr rfl)⟩

end

/-! ### The oldest slot of a submission ring (R21, R104, R111) -/

section
variable {s : State} {n slot : Nat}

theorem State.retireSlot_taken {rest : List Nat} (ha : (s.ring n).abortFirst = false) (ht : (s.ring n).taken = slot :: rest) (hagain : (s.ring n).again = []) :
    (s.retireSlot n slot).op? ⟨n, slot⟩ = none ∧ ((s.retireSlot n slot).ring n).completedUpTo = (slot + 1) % s.ringSize n ∧
      ((s.retireSlot n slot).ring n).taken = rest ∧ (s.retireSlot n slot).out = s.out ∧ (s.retireSlot n slot).evr = s.evr ∧
      ∀ m, m ≠ n → (s.retireSlot n slot).ring m = s.ring m := by
  have heq : s.retireSlot n slot = (s.setRing n { s.ring n with
      taken := rest, aborted := (s.ring n).aborted.map fun a => (a.1, a.2 - 1), completedUpTo := (slot + 1) % s.ringSize n }).freeOp ⟨n, slot⟩ := by
    unfold State.retireSlot State.leaveOp
    dsimp only
    rw [ha, if_neg (by decide), State.ring_freeOp, State.ring_setRing_self]
    dsimp only
    rw [hagain, ht]
    rfl
  rw [heq, State.ring_freeOp, State.ring_setRing_self]
  refine ⟨AMap.find_del_self _ _, rfl, rfl, rfl, rfl, fun m hm => ?_⟩
  rw [State.ring_freeOp, State.ring_setRing_ne _ _ _ _ hm]

theorem State.retireSlot_aborted {rest : List (Nat × Nat)} {m : Nat} (ha : (s.ring n).abortFirst = true) (hab : (s.ring n).aborted = (slot, m) :: rest) :
    s.retireSlot n slot = s.setRing n { s.ring n with aborted := rest, completedUpTo := (slot + 1) % s.ringSize n } := by
  unfold State.retireSlot
  dsimp only
  rw [ha, if_pos rfl, hab]
  rfl

end

section
variable {s : State} {n slot : Nat} {c : Completion} {irq silent : Bool} {desc : Option Bytes} (hk : (s.ring n).kind ≠ kindCQ)
  (hnext : s.nextCompletion n desc = some (slot, c, irq, silent)) (hs : ((s.ring n).abortFirst && desc.isNone) = false) (hd : s.ringFn n ∉ s.hif.d3hot)
include hk hnext hd

theorem State.completionWrite_silent (hsilent : (silent && c.status == stOK) = true) (ok : Bool) : s.completionWrite n ok desc = s.retireSlot n slot := by
  unfold State.completionWrite
  dsimp only
  rw [if_neg hk, hnext]
  dsimp only
  rw [if_neg hd, if_pos hsilent]

theorem State.completionWrite_full (hsilent : (silent && c.status == stOK) = false) (ok : Bool) {t : State}
    (hput : s.putCq (s.cqOf n) c n slot irq ok = .full t) : s.completionWrite n ok desc = t := by
  unfold State.completionWrite
  dsimp only
  rw [if_neg hk, hnext]
  dsimp only
  rw [if_neg hd, if_neg (by rw [hsilent]; decide), hput]

include hs in
theorem State.completionWrite_written (hsilent : (silent && c.status == stOK) = false) (ok : Bool) {t : State}
    (hput : s.putCq (s.cqOf n) c n slot irq ok = .written t) : s.completionWrite n ok desc = t.retireSlot n slot := by
  unfold State.completionWrite
  dsimp only
  rw [if_neg hk, hnext]
  dsimp only
  rw [if_neg hd, if_neg (by rw [hsilent]; decide), hput]
  dsimp only
  rw [hs, if_neg (by decide), hput]

end

theorem State.nextCompletion_taken {s : State} {n slot : Nat} {rest : List Nat} {o : Op} {c : Completion} (ha : (s.ring n).abortFirst = false)
    (ht : (s.ring n).taken = slot :: rest) (ho : s.op? ⟨n, slot⟩ = some o) (hc : o.phase = .done c) (desc : Option Bytes) :
    s.nextCompletion n desc = some (slot, c, dIrq o.desc, dSilent o.desc) := by
  unfold State.nextCompletion
  dsimp only
  rw [ha, if_neg (by decide), ht, List.head?_cons, Option.bind_some, State.takenCompletion, ho]
  dsimp only
  rw [hc]

theorem State.nextCompletion_aborted {s : State} {n slot m : Nat} {rest : List (Nat × Nat)} (ha : (s.ring n).abortFirst = true)
    (hab : (s.ring n).aborted = (slot, m) :: rest) (hheld : s.qsHeld (queueSet n) = false) (d : Bytes) :
    s.nextCompletion n (some d) = some (slot, { status := stABORTED, tag := dTag d }, dIrq d, false) := by
  unfold State.nextCompletion
  dsimp only
  rw [ha, if_pos rfl, hheld, if_neg (by decide), hab]
  rfl

/-- The part of a ring that postings leave alone decides what its slots are. -/
theorem Ring.slots_congr {r r' : Ring} (h : r'.slots = r.slots) : r'.abortFirst = r.abortFirst ∧ r'.taken = r.taken ∧ r'.aborted = r.aborted ∧
    r'.again = r.again ∧ r'.dev = r.dev ∧ r'.fault = r.fault ∧ r'.owed = r.owed := by
  have ht : r'.taken = r.taken := (congrArg Ring.taken h :)
  have ha : r'.aborted = r.aborted := (congrArg Ring.aborted h :)
  refine ⟨?_, ht, ha, (congrArg Ring.again h :), (congrArg Ring.dev h :), (congrArg Ring.fault h :), (congrArg Ring.owed h :)⟩
  rw [Ring.abortFirst, Ring.abortFirst, ht, ha]

/-- A taken slot whose entry has been put into another ring leaves its own. -/
theorem State.retireSlot_put {s t : State} {n q slot : Nat} {r : Ring} {rest : List Nat} (hne : n ≠ q) (ht : (s.setRing q r).Posts t)
    (hsize : t.ringSize n = s.ringSize n) (ha : (s.ring n).abortFirst = false) (htaken : (s.ring n).taken = slot :: rest) (hagain : (s.ring n).again = []) :
    (t.retireSlot n slot).op? ⟨n, slot⟩ = none ∧ ((t.retireSlot n slot).ring n).completedUpTo = (slot + 1) % s.ringSize n ∧
      ((t.retireSlot n slot).ring n).taken = rest ∧ ((t.retireSlot n slot).ring q).slots = r.slots ∧ (t.retireSlot n slot).out = t.out ∧
      (t.retireSlot n slot).evr = t.evr := by
  have hring := ht.ring n
  rw [State.ring_setRing_ne _ _ _ _ hne] at hring
  obtain ⟨ha', ht', -, hag', -, -, -⟩ := Ring.slots_congr hring
  obtain ⟨hop, hup, hrest, hout, hevr, hother⟩ := State.retireSlot_taken (s := t) (ha'.trans ha) (ht'.trans htaken) (hag'.trans hagain)
  refine ⟨hop, by rw [hup, hsize], hrest, ?_, hout, hevr⟩
  rw [hother q (Ne.symm hne), ht.ring q, State.ring_setRing_self]

/-! ### Notification pops (R118, R120) -/

/-- The bank of an NQ ring that a pop drains. -/
def Ring.nqBank (r : Ring) : List Notif := if r.nqDrain.isEmpty then r.nqFill else r.nqDrain

section
variable {s : State} {n : Nat} (hk : (s.ring n).kind = kindNQ)
include hk

theorem State.nqPop_entry {e : Notif} (he : bestNotif (s.ring n).nqBank = some e) (v : View) (ecc : Ecc) {e1 : Notif}
    (h1 : e1 = if ecc = .lost then ⟨Ev.NQ_WORD_LOST, 3, 1, s.localRing n, e.seq, 0⟩ else e) :
    ∃ fill, s.nqPop v n ecc = (s.setRing n { s.ring n with
      nqDrain := (s.ring n).nqBank.erase e, nqFill := fill, nqLast := some e1, popHi := e1.detail,
      nqCorrected := if ecc = .corrected then satAdd 0xFFFF (s.ring n).nqCorrected 1 else (s.ring n).nqCorrected }).emit (.reply v (e1.low false)) := by
  have hbank : (if (s.ring n).nqDrain.isEmpty && !(s.ring n).nqFill.isEmpty then (s.ring n).nqFill else (s.ring n).nqDrain) = (s.ring n).nqBank := by
    unfold Ring.nqBank
    by_cases hd : (s.ring n).nqDrain.isEmpty = true
    · by_cases hf : (s.ring n).nqFill.isEmpty = true
      · simp [List.isEmpty_iff.mp hd, List.isEmpty_iff.mp hf]
      · simp [hd, hf]
    · simp [hd]
  subst h1
  unfold State.nqPop
  dsimp only
  rw [hk, if_neg (by decide), hbank, he]
  exact ⟨_, rfl⟩

theorem State.nqPop_empty (hd : (s.ring n).nqDrain = []) (hf : (s.ring n).nqFill = []) (v : View) (ecc : Ecc) : s.nqPop v n ecc =
    (s.setRing n { s.ring n with nqUnderrun := true, nqSignalled := false }).emit (.reply v (match (s.ring n).nqLast with
      | some e => e.low true
      | none => 2 ^ 19)) := by
  unfold State.nqPop
  dsimp only
  rw [hk, if_neg (by decide), hd, hf]
  cases hlast : (s.ring n).nqLast with
  | none => rfl
  | some e => rfl

theorem State.nqClear_counts {w : Nat} (hw : bitAt w 13 = true) : s.nqClear n w =
    s.setRing n { s.ring n with nqCorrected := 0, nqDropped := 0, nqUnderrun := (s.ring n).nqUnderrun && !bitAt w 12 } := by
  unfold State.nqClear
  dsimp only
  rw [hk, if_neg (by decide), hw, if_pos rfl, if_pos rfl]

end

/-- A pop of a page acts on the page's ring. -/
theorem exec_nqPop {s : State} {v : View} {page n : Nat} (hco : s.coreOff = false) (hp : s.pageRing v page = some n) (ecc : Ecc) :
    execNqPop v page ecc s = .next (s.nqPop v n ecc) := by
  unfold execNqPop
  rw [State.inCore_on hco, hp]

/-- Whom an event notifies is no matter of the record. -/
theorem State.evr_raise_fn (s : State) (c i d fn : Nat) : (s.raise c i d fn).evr = (s.raise c i d).evr := by
  have hready (t : State) (d : Nat) : (t.postReady d).evr = t.evr := (State.postReady_fr (Fr.refl 0x8000040000000 t) rfl).evr_eq rfl
  have hpost (t : State) (f c i d : Nat) : (t.post f c i d).evr = t.evr := (State.post_fr (Fr.refl 0x8000040000000 t) rfl).evr_eq rfl
  unfold State.raise
  dsimp only
  split
  · rw [hready]
  · split
    · rw [hpost, hpost]
    · rfl

/-! ### The event-record mirror (R122) -/

theorem State.evrMirror_spec {s : State} {n : Nat} {r : EvRecord} (hn : s.evmRing = some n)
    (hr : (s.evr.ring.find? fun r => decide (s.evr.mirrorSeq ≤ r.seq)) = some r)
    (hroom : (r.len + 63) / 64 ≤ s.ringSize n - 1 - ringUsed (s.ringSize n) (s.ring n).host (s.ring n).dev) (hd : 0 ∉ s.hif.d3hot) :
    s.evrMirror.evr.mirrorSeq = r.seq + 1 ∧ (s.evrMirror.ring n).dev = ((s.ring n).dev + (r.len + 63) / 64) % s.ringSize n ∧
      ∀ i, i < (r.len + 63) / 64 → Out.hostWrite 0 (s.ringBase n + 64 * (((s.ring n).dev + i) % s.ringSize n))
        (sliceB (sliceB r.bytes 0 (64 * ((r.len + 63) / 64))) (64 * i) 64) ∈ s.evrMirror.out := by
  have hwrites (f : Nat → Nat → Out) (l : List Nat) (u : State) : (l.foldl (fun s i => s.emit (f (s.ringBase n) i)) u).out = u.out ++ l.map (f (u.ringBase n)) := by
    induction l generalizing u with
    | nil => simp
    | cons i l ih =>
      rw [List.foldl_cons, ih, List.map_cons]
      exact List.append_assoc _ [f (u.ringBase n) i] _
  have hmsix (u : State) (fn vec : Nat) : (u.msix fn vec).evr = u.evr := (State.msix_fr (Fr.refl 0x8000040000000 u) rfl).evr_eq rfl
  generalize hk : (r.len + 63) / 64 = k at hroom ⊢
  unfold State.evrMirror
  split
  · next n' rec hn' hr' =>
    obtain rfl : n' = n := Option.some.inj (hn'.symm.trans hn)
    obtain rfl : rec = r := Option.some.inj (hr'.symm.trans hr)
    extract_lets x size slots b s1 s2 src
    have hslots : slots = k := hk
    rw [if_neg (by simp only [hslots, hd, size, x, decide_false, Bool.or_false, decide_eq_true_eq]; omega)]
    have hout : s1.out = s.out ++ (List.range slots).map fun i => Out.hostWrite 0 (s.ringBase n' + 64 * ((x.dev + i) % size)) (sliceB b (64 * i) 64) :=
      hwrites (fun base i => .hostWrite 0 (base + 64 * ((x.dev + i) % size)) (sliceB b (64 * i) 64)) _ s
    have hposts := ({ s2 with evr := { s2.evr with mirrorSeq := rec.seq + 1 } } : State).posts_msix 0 (s.fld Reg.HIF_RING_LINK_VECTOR n')
    have hring := hposts.ring n'
    refine ⟨by rw [hmsix], ?_, fun i hi => hposts.out.subset ?_⟩
    · have hdev : ((({ s2 with evr := { s2.evr with mirrorSeq := rec.seq + 1 } } : State).msix 0 (s.fld Reg.HIF_RING_LINK_VECTOR n')).ring n').dev = (s2.ring n').dev :=
        (congrArg Ring.dev hring :)
      have hs2 : s2.ring n' = { x with dev := (x.dev + slots) % size } := s1.ring_setRing_self n' _
      rw [hdev, hs2, ← hslots]
    · have hmem : Out.hostWrite 0 (s.ringBase n' + 64 * ((x.dev + i) % size)) (sliceB b (64 * i) 64) ∈ s1.out := by
        rw [hout]
        exact List.mem_append_right _ (List.mem_map.mpr ⟨i, List.mem_range.mpr (by rw [hslots]; exact hi), rfl⟩)
      rw [← hslots]
      exact hmem
  · next h => exact absurd hr (h n r hn)

/-- Settles O18, clause by clause. -/
theorem ringRows : Obligations.RingRows := by
  unfold Obligations.RingRows
  refine ⟨?_, ?_, ?_, ?_, ?_, ?_, ?_, ?_, ?_, ?_, ?_, ?_, ?_, ?_, ?_⟩
  case refine_1 =>
    intro s qs ecc reads x hco hcox hheld hx
    refine ⟨_, rfl, ?_⟩
    beta_reduce
    rw [State.inCore_on hco, State.intakePop_word hcox hheld hx]
    obtain ⟨hdrain, hlast⟩ := (s.setIntake qs ((s.intake qs).popped x)).drain_popActs qs qs x reads ecc
    rw [hdrain, hlast, State.intake_setIntake_self]
    exact ⟨rfl, rfl⟩
  case refine_2 =>
    intro s qs k reads x hco hcox hheld hx hrh hwork hdev hhost hk hroom hlen hreads
    have hruns : s.RingRuns x.ring := by
      unfold State.hasWork at hwork
      simp only [Bool.and_eq_true, Bool.not_eq_true', bne_iff_ne] at hwork
      obtain ⟨⟨⟨he, hkind⟩, hfault⟩, -⟩ := hwork
      exact ⟨he, hkind, hfault, hdev, hhost⟩
    have hruns' : (s.setIntake qs ((s.intake qs).popped x)).RingRuns x.ring :=
      ⟨hruns.enabled, hruns.kind, hruns.fault, hruns.dev, hruns.host⟩
    obtain ⟨htaken, hdev', hops, -⟩ := State.takeMany_spec 32 reads (s.setIntake qs ((s.intake qs).popped x)) k hruns' hk hroom hlen hreads
    refine ⟨_, rfl, ?_⟩
    beta_reduce
    rw [State.inCore_on hco, State.intakePop_word hcox hheld hx]
    have hheld' : (s.setIntake qs ((s.intake qs).popped x)).ringHeld x.ring = false := hrh
    rw [State.popActs_clean, hheld', if_neg (by decide)]
    split
    · obtain ⟨i, hi⟩ := (State.takeMany x.ring 32 reads (s.setIntake qs ((s.intake qs).popped x))).hif_wake x.ring
      rw [State.ring, hi]
      refine ⟨htaken, hdev', fun j hj => ?_⟩
      rw [State.op?, hi]
      exact hops j hj
    · exact ⟨htaken, hdev', hops⟩
  case refine_3 =>
    intro s qs ecc reads hco hcox hheld hd hf hqs
    refine ⟨_, rfl, ?_⟩
    beta_reduce
    rw [State.inCore_on hco, State.intakePop_none hcox hheld ecc reads hd hf]
    have hfr : Fr 0x4 s (s.setFlag (Reg.DBQ_INTAKE_STATUS_UNDERRUN.nth qs) 0 true) := State.setFlag_fr (Fr.refl _ s) (show okBlk _ Blk.dbq = true from rfl)
    exact ⟨State.flag_setFlag_self _ (Reg.DBQ_INTAKE_STATUS_UNDERRUN.nth qs) 0 true (show Reg.DBQ_INTAKE_STATUS_UNDERRUN.lsb + 1 ≤ 32 by decide) rfl,
      hfr.within (ps := [.regs .dbq]) (by decide +kernel)⟩
  case refine_4 =>
    intro s n slot rest o c ok d hco hk ha ht ho hc hd hagain hsilent hok
    have hnext := State.nextCompletion_taken ha ht ho hc d
    obtain ⟨hop, hup, hrest, hout, -, -⟩ := State.retireSlot_taken ha ht hagain
    refine ⟨_, rfl, ?_⟩
    beta_reduce
    rw [State.inCore_on hco, State.completionWrite_silent hk hnext hd (by rw [hsilent, hok]; rfl)]
    exact ⟨hop, hup, hrest, hout⟩
  case refine_5 =>
    intro s n q slot rest o c d hco hk ha ht ho hc hd hagain hsilent hq he hkq hf hdq hroom
    have hnext := State.nextCompletion_taken ha ht ho hc d
    have hne : n ≠ q := fun h => hk (h ▸ hkq)
    obtain ⟨t, hput, hposts, hregs, hwrite, hirq⟩ := State.putCq_written he hkq hf hdq hroom c n slot (dIrq o.desc)
    have hsize : t.ringSize n = s.ringSize n := by rw [State.ringSize, State.fld, State.reg, hregs]; rfl
    obtain ⟨hop, hup, hrest, hring, hout, -⟩ := State.retireSlot_put hne hposts hsize ha ht hagain
    refine ⟨_, rfl, ?_⟩
    beta_reduce
    rw [State.inCore_on hco, State.completionWrite_written hk hnext (by rw [ha]; rfl) hd hsilent true (by rw [hq]; exact hput), hout]
    exact ⟨hop, hup, hrest, (congrArg Ring.dev hring :), hwrite, hirq⟩
  case refine_6 =>
    intro s n q slot rest o c ok d hco hk ha ht ho hc hd hsilent hq he hkq hf hdq hroom
    have hnext := State.nextCompletion_taken ha ht ho hc d
    refine ⟨_, rfl, ?_⟩
    beta_reduce
    rw [State.inCore_on hco]
    exact State.completionWrite_full hk hnext hd hsilent ok (by rw [hq]; exact State.putCq_full he hkq hf hdq hroom c n slot _ ok)
  case refine_7 =>
    intro s n q slot rest o c d hco hk ha ht ho hc hd hagain hsilent hq he hkq hf hdq hroom
    have hnext := State.nextCompletion_taken ha ht ho hc d
    have hne : n ≠ q := fun h => hk (h ▸ hkq)
    have hput := State.putCq_fails he hkq hf hdq hroom c n slot (dIrq o.desc)
    have hkeeps := (s.setRing q { s.ring q with fault := true }).raise_keeps Ev.RING_FAULT (s.localRing q) (1 + s.localRing n * 2 ^ 16 + slot * 2 ^ 32) (s.ringFn q)
    have hsize := hkeeps.fld_eq Reg.HIF_RING_CFG_SIZE n rfl rfl
    obtain ⟨hop, hup, hrest, hring, -, hevr⟩ := State.retireSlot_put hne
      ((s.setRing q { s.ring q with fault := true }).posts_raise Ev.RING_FAULT (s.localRing q) (1 + s.localRing n * 2 ^ 16 + slot * 2 ^ 32) (s.ringFn q)) hsize ha ht hagain
    refine ⟨_, rfl, ?_⟩
    beta_reduce
    rw [State.inCore_on hco, State.completionWrite_written hk hnext (by rw [ha]; rfl) hd hsilent false (by rw [hq]; exact hput)]
    have hset : Fr 0x40000000 s (s.setRing q { s.ring q with fault := true }) := State.setRing_fr (Fr.refl _ s) rfl
    obtain ⟨-, -, -, -, hdev, hfault, -⟩ := Ring.slots_congr hring
    refine ⟨hop, hup, hrest, hfault, hdev, hevr.trans ?_⟩
    exact (State.evr_raise_congr (hset.recordsAlike ⟨rfl, rfl, rfl, rfl⟩) _ _ _ _).trans (State.evr_raise_fn _ _ _ _ _)
  case refine_8 =>
    intro s n q slot m rest d hco hk ha hab hheld hd hq he hkq hf hdq hroom
    have hnext := State.nextCompletion_aborted ha hab hheld d
    have hne : n ≠ q := fun h => hk (h ▸ hkq)
    obtain ⟨t, hput, hposts, hregs, hwrite, hirq⟩ := State.putCq_written he hkq hf hdq hroom { status := stABORTED, tag := dTag d } n slot (dIrq d)
    have hsize : t.ringSize n = s.ringSize n := by rw [State.ringSize, State.fld, State.reg, hregs]; rfl
    have hring := hposts.ring n
    rw [State.ring_setRing_ne _ _ _ _ hne] at hring
    obtain ⟨ha', -, hab', -, -, -, -⟩ := Ring.slots_congr hring
    have hq' := hposts.ring q
    rw [State.ring_setRing_self] at hq'
    refine ⟨_, rfl, ?_⟩
    beta_reduce
    rw [State.inCore_on hco, State.completionWrite_written hk hnext (by simp) hd rfl true (by rw [hq]; exact hput),
      State.retireSlot_aborted (ha'.trans ha) (hab'.trans hab), State.ring_setRing_self, State.ring_setRing_ne _ _ _ _ (Ne.symm hne), hsize]
    exact ⟨rfl, rfl, (congrArg Ring.dev hq' :), hwrite, hirq⟩
  case refine_9 =>
    intro s q e rest d hco howed he hkq hf hdq hroom
    obtain ⟨t, hput, hposts, -, hwrite, hirq⟩ := State.putCq_written he hkq hf hdq hroom e.comp e.ring e.slot e.irq
    have hq' := hposts.ring q
    rw [State.ring_setRing_self] at hq'
    have heq : s.completionWrite q true d = t.setRing q { t.ring q with owed := rest } := by
      unfold State.completionWrite
      dsimp only
      rw [if_pos hkq, howed]
      dsimp only
      rw [hput]
    refine ⟨_, rfl, ?_⟩
    beta_reduce
    rw [State.inCore_on hco, heq, State.ring_setRing_self]
    exact ⟨rfl, (congrArg Ring.dev hq' :), hwrite, hirq⟩
  case refine_10 =>
    intro s v page n ecc e hco hp hk he hecc
    obtain ⟨fill, heq⟩ := State.nqPop_entry hk he v ecc (e1 := e) (by rw [if_neg hecc])
    have hfr : Fr 0x8000040000000 s (s.nqPop v n ecc) := State.nqPop_fr (Fr.refl _ s) rfl
    refine ⟨_, exec_nqPop hco hp ecc, ?_⟩
    have hwithin := hfr.within (ps := [.hif, .out]) (by decide +kernel)
    rw [heq] at hwithin ⊢
    have hring (u : State) (o : Out) (r : Ring) : ((u.setRing n r).emit o).ring n = r := u.ring_setRing_self n r
    beta_reduce
    rw [hring]
    exact ⟨rfl, rfl, rfl, rfl, rfl, hwithin⟩
  case refine_11 =>
    intro s v page n e e1 hco hp hk he h1
    obtain ⟨fill, heq⟩ := State.nqPop_entry hk he v .lost (e1 := e1) (by rw [if_pos rfl]; exact h1)
    refine ⟨_, exec_nqPop hco hp .lost, ?_⟩
    rw [heq]
    have hring (u : State) (o : Out) (r : Ring) : ((u.setRing n r).emit o).ring n = r := u.ring_setRing_self n r
    beta_reduce
    rw [hring]
    exact ⟨rfl, rfl, by rw [h1], rfl⟩
  case refine_12 =>
    intro s v page n ecc hco hp hk hd hf
    refine ⟨_, exec_nqPop hco hp ecc, ?_⟩
    rw [State.nqPop_empty hk hd hf]
    have hring (u : State) (o : Out) (r : Ring) : ((u.setRing n r).emit o).ring n = r := u.ring_setRing_self n r
    beta_reduce
    rw [hring]
    exact ⟨rfl, rfl, rfl⟩
  case refine_13 =>
    intro s v page n w hco hp hk hw
    refine ⟨_, rfl, ?_⟩
    beta_reduce
    rw [State.inCore_on hco, hp]
    exact State.nqClear_counts hk hw
  case refine_14 =>
    intro s n k r hco hn hr hk hroom hd
    subst hk
    refine ⟨_, rfl, ?_⟩
    beta_reduce
    rw [State.inCore_on hco]
    exact State.evrMirror_spec hn hr hroom hd
  case refine_15 =>
    intro s hp
    have hfr : Fr 0x2000000000000 s s.viewRefresh := State.viewRefresh_fr (Fr.refl _ s) rfl
    refine ⟨_, rfl, ?_⟩
    beta_reduce
    rw [State.inAon_on hp]
    exact ⟨rfl, rfl, rfl, rfl, rfl, hfr.within (ps := [.view]) (by decide +kernel)⟩

end Sys2Proof.Machine


/-!
PROOFS. Markers, heaters, sweeps and lane frames of a port group (R158 to R170, R175).
-/

namespace Sys2Proof.Machine

/-! ### What a group's being judged leaves -/

/-- A field of an optical engine that a group's going up or ceasing to carry traffic leaves alone. -/
def Fld.offJudge (f : Fld) : Bool :=
  f.offPorts && Reg.OPT_PG_STATUS_STATE.clearOf f && Reg.OPT_LANE_STATUS_STATE.clearOf f

theorem State.fld_setChanSt_clear (s : State) (g c v : Nat) (f : Fld) (i : Nat) (h : Reg.OPT_LANE_STATUS_STATE.clearOf f = true) :
    (s.setChanSt g c v).fld f i = s.fld f i := by
  unfold State.setChanSt
  split
  · rfl
  · exact State.fld_setFld_clear _ _ _ _ _ _ h

theorem State.rebinds_portsDown (s : State) (g : Nat) : s.Rebinds (s.portsDown g) := State.rebinds_foldl (fun t _ => t.rebinds_linkDown _) _ s

theorem State.fld_bypassBack_opt (s : State) (g : Nat) (f : Fld) (i : Nat) (hf : f.blk = .opt) : (s.bypassBack g).fld f i = s.fld f i :=
  (State.bypassBack_fr (Fr.refl 0x1040000000 s) (Sub.refl _)).fld_eq f i (by rw [hf]; rfl) (by rw [hf]; rfl)

theorem Fld.blk_of_offPorts {f : Fld} (h : f.offPorts = true) : f.blk = .opt := by
  simp only [Fld.offPorts, Bool.and_eq_true, beq_iff_eq] at h
  exact h.1

section
variable (s : State) (g : Nat) (f : Fld) (i : Nat) (hf : f.offJudge = true)
include hf

theorem State.fld_groupUp : (s.groupUp g).fld f i = s.fld f i := by
  simp only [Fld.offJudge, Bool.and_eq_true] at hf
  obtain ⟨⟨hports, hgrp⟩, hchan⟩ := hf
  refine (State.fld_bypassBack_opt _ _ _ _ (Fld.blk_of_offPorts hports)).trans (((State.rebinds_seekAll _ _).fld f i hports).trans ?_)
  refine (foldl_keeps (P := fun t : State => t.fld f i) (fun t c _ => State.fld_setChanSt_clear _ _ _ _ _ _ hchan) _).trans ?_
  exact State.fld_setFld_clear _ _ _ _ _ _ hgrp

theorem State.fld_groupMismatch : (s.groupMismatch g).fld f i = s.fld f i := by
  simp only [Fld.offJudge, Bool.and_eq_true] at hf
  obtain ⟨⟨hports, hgrp⟩, -⟩ := hf
  refine ((State.rebinds_raise _ _ _ _).fld f i hports).trans ((State.fld_setFld_clear _ _ _ _ _ _ hgrp).trans ?_)
  exact (s.rebinds_portsDown g).fld f i hports

theorem State.fld_groupJudge : (s.groupJudge g).fld f i = s.fld f i := by
  unfold State.groupJudge
  split
  · split
    · exact s.fld_groupUp g f i hf
    · exact s.fld_groupMismatch g f i hf
  · split
    · exact s.fld_groupMismatch g f i hf
    · rfl

end

theorem State.rxLocked_groupJudge (s : State) (g c : Nat) : (s.groupJudge g).rxLocked g c = s.rxLocked g c := by
  rw [State.rxLocked, State.flag, State.fld_groupJudge _ _ _ _ (by decide), State.rxLocked, State.flag]

/-- A group whose tags disagree is judged again by PG_ID_CLEAR alone. -/
theorem State.groupJudge_mismatch {s : State} {g : Nat} (h : s.groupSt g = gsID_MISMATCH) : s.groupJudge g = s := by
  unfold State.groupJudge
  rw [if_neg (by rw [h]; rintro ⟨he, -⟩; exact absurd he (by decide)), if_neg (by rw [h]; rintro ⟨he, -⟩; exact absurd he (by decide))]

theorem State.groupSt_groupUp (s : State) (g : Nat) : (s.groupUp g).groupSt g = gsUP := by
  refine (State.fld_bypassBack_opt _ _ _ _ rfl).trans (((State.rebinds_seekAll _ _).groupSt g).trans ?_)
  refine (foldl_keeps (P := fun t : State => t.groupSt g) (fun t c _ => State.groupSt_setChanSt _ _ _ _ _) _).trans ?_
  rw [State.groupSt_setGroupSt _ _ _ (by decide), if_pos rfl]

/-! ### A channel whose group stops -/

theorem State.fld_setFlag_inst (s : State) (f g : Fld) (i j : Nat) (b : Bool) (h : j ≠ i) : (s.setFlag f i b).fld g j = s.fld g j :=
  State.fld_setFld_inst _ _ _ _ _ _ h

/-- What the registers of a stopping group's channels become: the flags fall. -/
theorem State.stopChans_rxLocked (s : State) (g c : Nat) (h : s.rxLocked g c = false) :
    ((List.range 17).foldl (fun (s : State) c =>
      ((s.setChanSt g c csDOWN).setFlag Reg.OPT_LANE_STATUS_TX_LOCK (chanInst g c) false).setFlag
        Reg.OPT_LANE_STATUS_RX_LOCK (chanInst g c) false) s).rxLocked g c = false := by
  induction List.range 17 generalizing s with
  | nil => exact h
  | cons d l ih =>
    refine ih _ ?_
    by_cases hi : chanInst g c = chanInst g d
    · rw [State.rxLocked, hi]
      exact State.flag_setFlag_self _ _ _ _ (by decide) rfl
    · have hkeep : ((s.setChanSt g d csDOWN).setFlag Reg.OPT_LANE_STATUS_TX_LOCK (chanInst g d) false).rxLocked g c = s.rxLocked g c := by
        rw [State.rxLocked, State.flag, State.fld_setFlag_clear _ _ _ _ _ _ (by decide), State.fld_setChanSt_clear _ _ _ _ _ _ (by decide),
          State.rxLocked, State.flag]
      rw [State.rxLocked, State.flag, State.fld_setFlag_inst _ _ _ _ _ _ hi]
      exact hkeep.trans h

theorem State.fld_showBinding_clear (s : State) (g : Nat) (f : Fld) (i : Nat) (hl : Reg.OPT_LANE_STATUS_LANE.clearOf f = true)
    (hs : Reg.OPT_PG_STATUS_SPARE_CH.clearOf f = true) : (s.showBinding g).fld f i = s.fld f i := by
  refine (State.fld_setFld_clear _ _ _ _ _ _ hs).trans ?_
  exact foldl_keeps (P := fun t : State => t.fld f i) (fun t c _ => State.fld_setFld_clear _ _ _ _ _ _ hl) s

theorem State.rxLocked_groupStop {s : State} {g c : Nat} (st : Nat) (h : s.rxLocked g c = false) :
    (s.groupStop g st).rxLocked g c = false := by
  rw [State.rxLocked, State.flag]
  unfold State.groupStop
  dsimp only
  rw [State.fld_showBinding_clear _ _ _ _ (by decide) (by decide)]
  refine State.stopChans_rxLocked _ g c ?_
  rw [State.rxLocked, State.flag, State.setGroupSt, State.fld_setFld_clear _ _ _ _ _ _ (by decide)]
  exact ((s.rebinds_portsDown g).rxLocked g c).trans h

theorem AMap.find_mapVals {κ α β : Type} [DecidableEq κ] (m : AMap κ α) (f : α → β) (k : κ) :
    AMap.find (m.map fun p => (p.1, f p.2) : AMap κ β) k = (m.find k).map f := by
  induction m with
  | nil => rfl
  | cons p m ih =>
    simp only [List.map_cons, AMap.find]
    split
    · rfl
    · exact ih

theorem AMap.getD_mapVals {κ α β : Type} [DecidableEq κ] (m : AMap κ α) (f : α → β) (k : κ) (d : α) :
    AMap.getD (m.map fun p => (p.1, f p.2) : AMap κ β) k (f d) = f (m.getD k d) := by
  rw [AMap.getD, AMap.find_mapVals, AMap.getD]
  exact Option.getD_map f d _

/-- A group that stops: each of its channels rests. -/
theorem State.och_groupStop (s : State) (g st c : Nat) : (s.groupStop g st).och g c = (s.och g c).rest := by
  have hregs : Fr 0x10000 (s.portsDown g) ((List.range 17).foldl (fun (s : State) c =>
      ((s.setChanSt g c csDOWN).setFlag Reg.OPT_LANE_STATUS_TX_LOCK (chanInst g c) false).setFlag
        Reg.OPT_LANE_STATUS_RX_LOCK (chanInst g c) false) ((s.portsDown g).setGroupSt g st)) := by
    have hF : okBlk 0x10000 .opt = true := rfl
    refine Fr.foldl (State.setGroupSt_fr (Fr.refl _ _) rfl) fun t c ht => ?_
    exact State.setFlag_fr (State.setFlag_fr (State.setChanSt_fr ht rfl) hF) hF
  have hchan : ∀ u : State, u.lanes = (s.portsDown g).lanes → (u.och g c) = s.och g c := by
    intro u hu
    rw [State.och, State.grp_congr hu]
    exact (s.rebinds_portsDown g).och g c
  unfold State.groupStop
  dsimp only
  have hu := hchan _ (hregs.lanes_eq rfl)
  generalize ((List.range 17).foldl _ _ : State) = u at hu ⊢
  rw [State.och, State.grp_congr ((State.showBinding_fr (Fr.refl _ _) (Sub.refl _)).lanes_eq rfl)]
  have hdrop (v : State) : (v.dropStreams g).grp g = v.grp g := rfl
  rw [hdrop, State.grp_onGrp_self, ← hu]
  exact AMap.getD_mapVals (u.grp g).chans OptChan.rest c {}

/-! ### A channel that is lost -/

theorem State.rxLocked_unlock (s : State) (g c : Nat) : (s.setFlag Reg.OPT_LANE_STATUS_RX_LOCK (chanInst g c) false).rxLocked g c = false :=
  State.flag_setFlag_self _ _ _ _ (by decide) rfl

/-- A channel is lost: its group stops, its lane asks for the spare, or nothing more. -/
theorem State.chanLost_cases (s : State) (g c : Nat) :
    (s.setFlag Reg.OPT_LANE_STATUS_RX_LOCK (chanInst g c) false).Rebinds (s.chanLost g c) ∨
    s.chanLost g c = (s.setFlag Reg.OPT_LANE_STATUS_RX_LOCK (chanInst g c) false).groupStop g gsWATCH := by
  unfold State.chanLost
  dsimp only
  split
  · split
    · split
      · exact .inl .rfl
      · exact .inl (State.rebinds_seekSpare _ _ _ _)
    · exact .inr rfl
  · exact .inl .rfl

theorem State.rxLocked_chanLost (s : State) (g c : Nat) : (s.chanLost g c).rxLocked g c = false := by
  rcases s.chanLost_cases g c with h | h
  · exact (h.rxLocked g c).trans (s.rxLocked_unlock g c)
  · rw [h]
    exact State.rxLocked_groupStop _ (s.rxLocked_unlock g c)

theorem State.rxRing_chanLost {s : State} {g c : Nat} (h : (s.och g c).rxRing = false) : ((s.chanLost g c).och g c).rxRing = false := by
  rcases s.chanLost_cases g c with hb | hb
  · rw [hb.och]
    exact h
  · rw [hb, State.och_groupStop]
    rfl

theorem State.fld_chanLost (s : State) (g c : Nat) (f : Fld) (i : Nat) (hf : f.offPorts = true) (ho : f.off ≠ 0x20 ∧ f.off ≠ 0x104) :
    (s.chanLost g c).fld f i = s.fld f i := by
  have hlock := s.fld_setFlag_clear Reg.OPT_LANE_STATUS_RX_LOCK f (chanInst g c) i false (Fld.clearOf_of_off ho.2)
  rcases s.chanLost_cases g c with h | h
  · exact (h.fld f i hf).trans hlock
  · rw [h, State.fld_groupStop_opt _ _ _ _ _ (Fld.blk_of_offPorts hf) ho, hlock]

theorem State.alignLost_spec (s : State) (g c : Nat) : (s.alignLost g c).rxLocked g c = false ∧
    (s.alignLost g c).fld Reg.OPT_LANE_EVENTS_ALIGN_LOSS (chanInst g c) =
      min 0xFF (s.fld Reg.OPT_LANE_EVENTS_ALIGN_LOSS (chanInst g c) + 1) :=
  ⟨State.rxLocked_chanLost _ g c, (State.fld_chanLost _ g c _ _ (by decide) (by decide)).trans (s.fld_bump_self _ _ _ (by decide))⟩

/-! ### A marker -/

/-- Foreign markers that align leave a channel out of alignment, and no loss is counted. -/
theorem State.aliasFound_keeps {s : State} {g c : Nat} (chan : Nat) (h : s.rxLocked g c = false) :
    (s.aliasFound g c chan).rxLocked g c = false ∧
    ∀ i, (s.aliasFound g c chan).fld Reg.OPT_LANE_EVENTS_ALIGN_LOSS i = s.fld Reg.OPT_LANE_EVENTS_ALIGN_LOSS i := by
  unfold State.aliasFound
  extract_lets d lane x diff mine s1 code s2
  have h1 : ∀ f i, f.offPorts = true → Reg.OPT_LANE_EVENTS_RX_ALIAS.clearOf f = true → s1.fld f i = s.fld f i := fun f i hf hc =>
    ((State.rebinds_raise _ _ _ _).fld f i hf).trans (State.fld_bump_clear _ _ _ _ _ _ hc)
  have hlock1 : s1.rxLocked g c = false := by
    rw [State.rxLocked, State.flag, h1 _ _ (by decide) (by decide)]
    exact h
  have hloss1 := fun i => h1 Reg.OPT_LANE_EVENTS_ALIGN_LOSS i (by decide) (by decide)
  have hlock2 : s2.rxLocked g c = false := State.rxLocked_unlock _ g c
  have hloss2 : ∀ i, s2.fld Reg.OPT_LANE_EVENTS_ALIGN_LOSS i = s.fld Reg.OPT_LANE_EVENTS_ALIGN_LOSS i := fun i =>
    (State.fld_setFlag_clear _ _ _ _ _ _ (by decide)).trans ((State.fld_setChanSt_clear s1 g c csALIAS _ i (by decide)).trans (hloss1 i))
  clear_value s2 s1 mine lane
  split
  · split
    · exact ⟨hlock2, hloss2⟩
    · have hb := s2.rebinds_seekSpare g true ⟨.cover, lane, c⟩
      exact ⟨(hb.rxLocked g c).trans hlock2, fun i => (hb.fld _ i (by decide)).trans (hloss2 i)⟩
  · split
    · exact ⟨hlock1, hloss1⟩
    · have hb := s1.rebinds_lccSend g 3 (lane * 2 ^ 19 + c * 2 ^ 14)
      exact ⟨(hb.rxLocked g c).trans hlock1, fun i => (hb.fld _ i (by decide)).trans (hloss1 i)⟩

theorem State.groupListens {s : State} {g c : Nat} (hst : s.groupSt g = gsACQUIRING ∨ s.groupSt g = gsUP ∨ s.groupSt g = gsID_MISMATCH)
    (hc : c < 17) : ¬(s.groupSt g = gsOFF ∨ s.groupSt g = gsWATCH ∨ s.groupSt g = gsFEED_LOST ∨ 17 ≤ c) := by
  rintro (h | h | h | h)
  · rw [h] at hst; exact absurd hst (by decide)
  · rw [h] at hst; exact absurd hst (by decide)
  · rw [h] at hst; exact absurd hst (by decide)
  · omega

/-- A channel out of step loses its alignment. -/
theorem State.marker_skewed {s : State} {g c skew : Nat} {b : Bytes} {m : Marker}
    (hst : s.groupSt g = gsACQUIRING ∨ s.groupSt g = gsUP ∨ s.groupSt g = gsID_MISMATCH) (hc : c < 17) (hskew : 200 < skew)
    (hm : markerOf b = some m) (hl : s.rxLocked g c = true) :
    (s.marker g c skew b).rxLocked g c = false ∧ (s.marker g c skew b).fld Reg.OPT_LANE_EVENTS_ALIGN_LOSS (chanInst g c) =
      min 0xFF (s.fld Reg.OPT_LANE_EVENTS_ALIGN_LOSS (chanInst g c) + 1) := by
  unfold State.marker
  rw [if_neg (State.groupListens hst hc)]
  simp -zeta only [hm]
  extract_lets x foreign s1 s2 s3
  have h2 : s2.fld Reg.OPT_LANE_EVENTS_ALIGN_LOSS (chanInst g c) = s.fld Reg.OPT_LANE_EVENTS_ALIGN_LOSS (chanInst g c) :=
    (State.fld_setFlag_clear _ _ _ _ _ _ (by decide)).trans ((State.fld_setFld_clear _ _ _ _ _ _ (by decide)).trans
      (State.fld_setFld_clear _ _ _ _ _ _ (by decide)))
  have h3 : s3 = s2.alignLost g c := (if_pos hskew).trans (if_pos hl)
  obtain ⟨hlock, hloss⟩ := s2.alignLost_spec g c
  rw [h2, ← h3] at hloss
  rw [← h3] at hlock
  clear_value s3
  rw [State.rxLocked_groupJudge, State.fld_groupJudge _ _ _ _ (by decide)]
  split
  · obtain ⟨ha, hb⟩ := State.aliasFound_keeps m.chan hlock
    exact ⟨ha, (hb _).trans hloss⟩
  · exact ⟨hlock, hloss⟩

/-- A channel aligns. -/
theorem State.aligned_spec (s : State) (g c : Nat) : (s.aligned g c).rxLocked g c = true ∧ (s.aligned g c).och g c = s.och g c ∧
    (s.aligned g c).groupSt g = s.groupSt g ∧ ∀ f, f.off = 0x24 → f.offPorts = true → (s.aligned g c).fld f g = s.fld f g := by
  have hb : (s.setFlag Reg.OPT_LANE_STATUS_RX_LOCK (chanInst g c) true).Rebinds (s.aligned g c) := by
    unfold State.aligned
    dsimp only
    split
    · exact .rfl
    · exact State.rebinds_leaveSpare _ g true c
  refine ⟨(hb.rxLocked g c).trans (State.flag_setFlag_self _ _ _ _ (by decide) rfl), hb.och g c, (hb.groupSt g).trans
    (State.fld_setFlag_clear _ _ _ _ _ _ (by decide)), fun f ho hf => (hb.fld f g hf).trans
    (State.fld_setFlag_clear _ _ _ _ _ _ (Fld.clearOf_of_off (by rw [ho]; decide)))⟩

/-- A good marker on a channel whose ring is locked, of a group whose tags disagree. -/
theorem State.marker_good {s : State} {g c skew : Nat} {b : Bytes} {m : Marker} (hst : s.groupSt g = gsID_MISMATCH) (hc : c < 17)
    (hskew : skew ≤ 200) (hm : markerOf b = some m) (hch : m.chan = c) (hgood : 1 ≤ (s.och g c).good) (hring : (s.och g c).rxRing = true) :
    (s.marker g c skew b).rxLocked g c = true ∧ (s.marker g c skew b).fld Reg.OPT_PG_FAR_FAR_TAG g = m.tag % 2 ^ 16 ∧
    (s.marker g c skew b).fld Reg.OPT_PG_FAR_FAR_OPG g = m.opg % 64 ∧ (s.marker g c skew b).flag Reg.OPT_PG_FAR_VALID g = true ∧
    ((s.marker g c skew b).och g c).lcc = m.lcc ∧ ((s.marker g c skew b).och g c).good = (s.och g c).good + 1 ∧
    ((s.marker g c skew b).och g c).bad = 0 := by
  unfold State.marker
  rw [if_neg (State.groupListens (.inr (.inr hst)) hc)]
  simp -zeta only [hm]
  extract_lets x foreign s1 s2 s3
  have hfor : foreign = 0 := if_pos hch
  have hst2 : s2.groupSt g = gsID_MISMATCH := (State.fld_setFlag_clear _ _ _ _ _ _ (by decide)).trans
    ((State.fld_setFld_clear _ _ _ _ _ _ (by decide)).trans ((State.fld_setFld_clear _ _ _ _ _ _ (by decide)).trans hst))
  have htag2 : s2.fld Reg.OPT_PG_FAR_FAR_TAG g = m.tag % 2 ^ 16 := (State.fld_setFlag_clear _ _ _ _ _ _ (by decide)).trans
    ((State.fld_setFld_clear _ _ _ _ _ _ (by decide)).trans (State.fld_setFld_self _ _ _ _ (by decide)))
  have hopg2 : s2.fld Reg.OPT_PG_FAR_FAR_OPG g = m.opg % 64 := (State.fld_setFlag_clear _ _ _ _ _ _ (by decide)).trans
    (State.fld_setFld_self _ _ _ _ (by decide))
  have hval2 : s2.flag Reg.OPT_PG_FAR_VALID g = true := State.flag_setFlag_self _ _ _ _ (by decide) rfl
  have hch2 : s2.och g c = s1.och g c := rfl
  have hlock2 : s2.rxLocked g c = s.rxLocked g c := by
    rw [State.rxLocked, State.flag, State.fld_setFlag_clear _ _ _ _ _ _ (by decide), State.fld_setFld_clear _ _ _ _ _ _ (by decide),
      State.fld_setFld_clear _ _ _ _ _ _ (by decide)]
    rfl
  have h3 : s3 = if s.rxLocked g c then s2 else s2.aligned g c := by
    unfold s3
    rw [if_neg (by omega), hring, hch]
    cases hl : s.rxLocked g c
    · exact (if_pos (by simpa using hgood)).trans (if_neg Bool.false_ne_true).symm
    · exact (if_neg (by simp)).trans (if_pos rfl).symm
  have hkeep : s3.rxLocked g c = true ∧ s3.och g c = s2.och g c ∧ s3.groupSt g = s2.groupSt g ∧ ∀ f, f.off = 0x24 → f.offPorts = true →
      s3.fld f g = s2.fld f g := by
    rw [h3]
    cases hl : s.rxLocked g c
    · rw [if_neg Bool.false_ne_true]
      exact s2.aligned_spec g c
    · exact ⟨hlock2.trans hl, rfl, rfl, fun _ _ _ => rfl⟩
  obtain ⟨hlock3, hch3, hst3, hfld3⟩ := hkeep
  clear_value s3
  rw [hfor, if_neg (by simp), State.groupJudge_mismatch (hst3.trans hst2), State.flag, hfld3 _ rfl (by decide), hfld3 _ rfl (by decide),
    hfld3 _ rfl (by decide), hch3, hch2, State.och_setOch_self]
  exact ⟨hlock3, htag2, hopg2, hval2, rfl, rfl, rfl⟩

end Sys2Proof.Machine


/-!
PROOFS. Heaters, sweeps and lane frames of a port group, and the rows of its channels (R158 to R170, R175).
-/

namespace Sys2Proof.Machine

/-! ### A heater -/

/-- A transmit ring that is locked serves its channel again. -/
theorem State.ringWorks_spec (s : State) (g c : Nat) : (∀ f i, f.offPorts = true → (s.ringWorks g c).fld f i = s.fld f i) ∧
    (s.ringWorks g c).och g c = { s.och g c with acquireFail := false } := by
  unfold State.ringWorks
  split
  · have hb := (s.setOch g c { s.och g c with acquireFail := false }).rebinds_leaveSpare g false c
    exact ⟨fun f i hf => hb.fld f i hf, (hb.och g c).trans (s.och_setOch_self g c _)⟩
  · next h =>
    refine ⟨fun _ _ _ => rfl, ?_⟩
    rw [← Bool.eq_false_iff.2 h]

section
variable {s : State} {g c err code : Nat} (hc : c < 17) (hoff : s.groupSt g ≠ gsOFF)
include hc hoff

/-- A transmit ring within its bounds for 100 updates in a row. -/
theorem State.heater_txIn (herr : err < 2500) (hlo : 205 ≤ code) (hhi : code ≤ 3890) (hin : 99 ≤ (s.och g c).txIn) :
    s.heater g c false err code = (((s.setOch g c { s.och g c with txIn := 100, txOut := 0 }).setFld Reg.OPT_LANE_STATUS_HEATER
      (chanInst g c) code).setFlag Reg.OPT_LANE_STATUS_TX_LOCK (chanInst g c) true).ringWorks g c := by
  have hmin : min ((s.och g c).txIn + 1) 100 = 100 := by omega
  have hhop : hopCode code = none := by
    unfold hopCode
    rw [if_neg (by omega), if_neg (by omega)]
  unfold State.heater
  rw [if_neg (by rintro (h | h) <;> [omega; exact hoff h])]
  simp only [Bool.false_eq_true, if_false, if_pos herr, if_neg (show ¬8000 < err by omega), Nat.zero_min, hmin, Bool.false_and, Bool.not_false,
    Bool.true_and, decide_eq_true_eq, if_pos (show 100 ≤ (s.och g c).txIn + 1 by omega), hhop]
  split
  · rfl
  · rw [if_neg (by decide)]

/-- A receive ring within its bounds for 100 updates in a row. -/
theorem State.heater_rxIn (herr : err < 2500) (hlo : 205 ≤ code) (hhi : code ≤ 3890) (hin : 99 ≤ (s.och g c).rxIn) :
    s.heater g c true err code = s.setOch g c { s.och g c with rxIn := 100, rxOut := 0, rxHeater := code, rxRing := true } := by
  have hmin : min ((s.och g c).rxIn + 1) 100 = 100 := by omega
  have hhop : hopCode code = none := by
    unfold hopCode
    rw [if_neg (by omega), if_neg (by omega)]
  unfold State.heater
  rw [if_neg (by rintro (h | h) <;> [omega; exact hoff h])]
  simp only [if_true, if_pos herr, if_neg (show ¬8000 < err by omega), Nat.zero_min, hmin, Bool.true_and, Bool.not_true, Bool.false_and,
    decide_eq_true_eq, if_pos (show 100 ≤ (s.och g c).rxIn + 1 by omega), hhop, Bool.false_eq_true, if_false]
  rw [if_neg (by decide)]

/-- A transmit ring beyond its bounds for the tenth time in a row. -/
theorem State.heater_txOut (herr : 8000 < err) (hout : 9 ≤ (s.och g c).txOut) :
    (s.heater g c false err code).fld Reg.OPT_LANE_STATUS_HEATER (chanInst g c) = code % 4096 ∧
    (s.heater g c false err code).flag Reg.OPT_LANE_STATUS_TX_LOCK (chanInst g c) = false := by
  unfold State.heater
  rw [if_neg (by rintro (h | h) <;> [omega; exact hoff h])]
  extract_lets i x inn out y1 y s1 s2 s3 locked lane
  have hinn : inn = 0 := if_neg (by omega)
  have hout' : 10 ≤ out := by
    unfold out
    rw [if_pos herr, if_neg Bool.false_ne_true]
    exact Nat.succ_le_succ hout
  have h3 : s3 = s1.setFld Reg.OPT_LANE_STATUS_HEATER i code := by
    unfold s3
    rw [hinn, if_neg (by decide)]
    exact if_neg Bool.false_ne_true
  have hheat : s3.fld Reg.OPT_LANE_STATUS_HEATER i = code % 4096 := by
    rw [h3]
    exact State.fld_setFld_self _ _ _ _ (by decide)
  have hlocked : locked = s3.flag Reg.OPT_LANE_STATUS_TX_LOCK i := if_neg Bool.false_ne_true
  clear_value lane s3 locked
  rw [hlocked]
  cases hl : s3.flag Reg.OPT_LANE_STATUS_TX_LOCK i
  · exact ⟨hheat, hl⟩
  · rw [if_neg (by decide), if_pos hout', State.ringLost, if_neg Bool.false_ne_true]
    exact ⟨(State.fld_setFlag_clear _ _ _ _ _ _ (by decide)).trans hheat, State.flag_setFlag_self _ _ _ _ (by decide) rfl⟩

/-- A receive ring beyond its bounds for the tenth time in a row. -/
theorem State.heater_rxOut (herr : 8000 < err) (hout : 9 ≤ (s.och g c).rxOut) (hring : (s.och g c).rxRing = true) :
    ((s.heater g c true err code).och g c).rxRing = false ∧ (s.heater g c true err code).rxLocked g c = false := by
  unfold State.heater
  rw [if_neg (by rintro (h | h) <;> [omega; exact hoff h])]
  extract_lets i x inn out y1 y s1 s2 s3 locked lane
  have hinn : inn = 0 := if_neg (by omega)
  have hout' : 10 ≤ out := by
    unfold out
    rw [if_pos herr, if_pos rfl]
    exact Nat.succ_le_succ hout
  have hlocked : locked = true := by
    have hy : y = y1 := if_neg (by rw [hinn]; decide)
    unfold locked
    rw [if_pos rfl, hy]
    exact hring
  clear_value lane s3 locked
  rw [hlocked, if_neg (by decide), if_pos hout', State.ringLost, if_pos rfl]
  refine ⟨State.rxRing_chanLost ?_, State.rxLocked_chanLost _ g c⟩
  rw [State.och_setOch_self]

/-- A locked transmit ring at the end of its range hops. -/
theorem State.heater_hops (herr : err ≤ 8000) (hcode : code < 205) (hl : s.flag Reg.OPT_LANE_STATUS_TX_LOCK (chanInst g c) = true) :
    (s.heater g c false err code).fld Reg.OPT_LANE_STATUS_HEATER (chanInst g c) = code + 2920 ∧
    (s.heater g c false err code).flag Reg.OPT_LANE_STATUS_TX_LOCK (chanInst g c) = false ∧
    (s.heater g c false err code).fld Reg.OPT_LANE_EVENTS_HOPS (chanInst g c) =
      min 0xFF (s.fld Reg.OPT_LANE_EVENTS_HOPS (chanInst g c) + 1) := by
  have hhop : hopCode code = some (code + 2920) := by
    unfold hopCode
    rw [if_neg (by omega), if_pos hcode]
  unfold State.heater
  rw [if_neg (by rintro (h | h) <;> [omega; exact hoff h])]
  simp -zeta only [hhop]
  extract_lets i x inn out y1 y s1 s2 s3 locked lane s4
  have hout : out = 0 := if_neg (by omega)
  have h2 : s2 = s1.setFld Reg.OPT_LANE_STATUS_HEATER i code := if_neg Bool.false_ne_true
  have hlock2 : s2.flag Reg.OPT_LANE_STATUS_TX_LOCK i = true := by
    rw [h2, State.flag_setFld_clear _ _ _ _ _ _ (by decide)]
    exact hl
  have hhops2 : s2.fld Reg.OPT_LANE_EVENTS_HOPS i = s.fld Reg.OPT_LANE_EVENTS_HOPS i := by
    rw [h2]
    exact State.fld_setFld_clear _ _ _ _ _ _ (by decide)
  have h3 : s3.flag Reg.OPT_LANE_STATUS_TX_LOCK i = true ∧ s3.fld Reg.OPT_LANE_EVENTS_HOPS i = s.fld Reg.OPT_LANE_EVENTS_HOPS i := by
    unfold s3
    clear_value s2
    split
    · obtain ⟨hfld, -⟩ := (s2.setFlag Reg.OPT_LANE_STATUS_TX_LOCK i true).ringWorks_spec g c
      rw [State.flag, hfld _ _ (by decide), hfld _ _ (by decide)]
      exact ⟨State.flag_setFlag_self _ _ _ true (by decide) rfl, (State.fld_setFlag_clear _ _ _ _ _ _ (by decide)).trans hhops2⟩
    · exact ⟨hlock2, hhops2⟩
  have hlocked : locked = true := (if_neg Bool.false_ne_true).trans h3.1
  have h4 : s4.fld Reg.OPT_LANE_STATUS_HEATER i = code + 2920 ∧ s4.flag Reg.OPT_LANE_STATUS_TX_LOCK i = false ∧
      s4.fld Reg.OPT_LANE_EVENTS_HOPS i = min 0xFF (s.fld Reg.OPT_LANE_EVENTS_HOPS i + 1) := by
    have hs4 : s4 = (((s3.setOch g c { y with txIn := 0 }).setFld Reg.OPT_LANE_STATUS_HEATER i (code + 2920)).setFlag
        Reg.OPT_LANE_STATUS_TX_LOCK i false).bump Reg.OPT_LANE_EVENTS_HOPS i :=
      congrArg (fun u : State => u.bump Reg.OPT_LANE_EVENTS_HOPS i) (if_neg Bool.false_ne_true)
    have hhops3 : (((s3.setOch g c { y with txIn := 0 }).setFld Reg.OPT_LANE_STATUS_HEATER i (code + 2920)).setFlag
        Reg.OPT_LANE_STATUS_TX_LOCK i false).fld Reg.OPT_LANE_EVENTS_HOPS i = s.fld Reg.OPT_LANE_EVENTS_HOPS i :=
      (State.fld_setFlag_clear _ _ _ _ _ _ (by decide)).trans ((State.fld_setFld_clear _ _ _ _ _ _ (by decide)).trans h3.2)
    rw [hs4]
    refine ⟨?_, ?_, ?_⟩
    · rw [State.fld_bump_clear _ _ _ _ _ _ (by decide), State.fld_setFlag_clear _ _ _ _ _ _ (by decide), State.fld_setFld_self _ _ _ _ (by decide)]
      exact Nat.mod_eq_of_lt (show code + 2920 < 4096 by omega)
    · rw [State.flag, State.fld_bump_clear _ _ _ _ _ _ (by decide)]
      exact State.flag_setFlag_self _ _ _ false (by decide) rfl
    · rw [State.fld_bump_self _ _ _ _ (by decide), hhops3]
      rfl
  clear_value s4 lane s3 locked
  rw [hlocked, if_neg (by decide), hout, if_neg (by decide)]
  split
  · exact h4
  · have hb := s4.rebinds_seekSpare g false ⟨.cover, lane, c⟩
    rw [State.flag, hb.fld _ _ (by decide), hb.fld _ _ (by decide), hb.fld _ _ (by decide)]
    exact h4

end

/-! ### A sweep -/

theorem State.och_setOch_ne (s : State) (g : Nat) {c j : Nat} (x : OptChan) (h : j ≠ c) : (s.setOch g c x).och g j = s.och g j := by
  rw [State.och, State.setOch, State.grp_onGrp_self]
  exact AMap.getD_put_ne _ _ _ _ _ h

section
variable {s : State} {g c code : Nat} (hst : s.groupSt g = gsACQUIRING) (hc : c < 17)
include hst hc

theorem State.sweepDone_rxLocked : s.sweepDone g c true true code = (s.setOch g c { s.och g c with
    rxHeater := code, rxCal := code, good := 2, bad := 0, rxRing := true }).setFlag Reg.OPT_LANE_STATUS_RX_LOCK (chanInst g c) true := by
  unfold State.sweepDone
  rw [if_neg (by rintro (h | h) <;> [exact h hst; omega]), if_pos rfl, if_pos rfl]

theorem State.sweepDone_txLocked : s.sweepDone g c false true code =
    (s.setFld Reg.OPT_LANE_STATUS_HEATER (chanInst g c) code).setFlag Reg.OPT_LANE_STATUS_TX_LOCK (chanInst g c) true := by
  unfold State.sweepDone
  rw [if_neg (by rintro (h | h) <;> [exact h hst; omega]), if_pos rfl, if_neg Bool.false_ne_true]

/-- The first sweep of a ring ends without a lock. -/
theorem State.sweepDone_first (rx : Bool) (h : (if rx then (s.och g c).rxSweeps else (s.och g c).txSweeps) = 0) :
    s.sweepDone g c rx false code =
      s.setOch g c (if rx then { s.och g c with rxSweeps := 1 } else { s.och g c with txSweeps := 1 }) := by
  unfold State.sweepDone
  rw [if_neg (by rintro (h | h) <;> [exact h hst; omega]), if_neg Bool.false_ne_true]
  generalize hx : s.och g c = x at h ⊢
  cases rx
  · simp only [Bool.false_eq_true, if_false] at h ⊢
    rw [if_pos (by rw [h]; decide), h, show decide (2 ≤ 0 + 1) = false from rfl, Bool.or_false]
  · simp only [if_true] at h ⊢
    rw [if_pos (by rw [h]; decide), h, show decide (2 ≤ 0 + 1) = false from rfl, Bool.or_false]

/-- The second sweep of a ring ends without a lock: its channel has failed. -/
theorem State.sweepDone_fails (rx : Bool) (h : (if rx then (s.och g c).rxSweeps else (s.och g c).txSweeps) ≠ 0) :
    ((s.sweepDone g c rx false code).och g c).acquireFail = true := by
  unfold State.sweepDone
  rw [if_neg (by rintro (h | h) <;> [exact h hst; omega]), if_neg Bool.false_ne_true]
  extract_lets y n s1 lane
  have hn : 2 ≤ n := by
    unfold n y
    cases rx
    · simp only [Bool.false_eq_true, if_false] at h ⊢
      omega
    · simp only [if_true] at h ⊢
      omega
  have h1 : (s1.och g c).acquireFail = true := by
    unfold s1
    rw [State.och_setOch_self, decide_eq_true hn, Bool.or_true]
  clear_value s1 lane
  rw [if_neg (by omega)]
  split
  · rw [State.och_groupStop]
    exact h1
  · split
    · exact h1
    · rw [(State.rebinds_seekSpare _ _ _ _).och]
      exact h1

/-- Every receive ring has failed: the group sits in WATCH. -/
theorem State.sweepDone_dark (hone : 1 ≤ (s.och g c).rxSweeps)
    (hall : ((List.range 17).all fun j => j == c || decide (2 ≤ (s.och g j).rxSweeps)) = true) :
    (s.sweepDone g c true false code).groupSt g = gsWATCH := by
  unfold State.sweepDone
  rw [if_neg (by rintro (h | h) <;> [exact h hst; omega]), if_neg Bool.false_ne_true]
  extract_lets y n s1 lane
  have hn : 2 ≤ n := Nat.succ_le_succ hone
  have hdark : (true && (List.range 17).all fun j => decide (2 ≤ (s1.och g j).rxSweeps)) = true := by
    simp only [Bool.true_and, List.all_eq_true, decide_eq_true_eq, Bool.or_eq_true, beq_iff_eq] at hall ⊢
    intro j hj
    unfold s1
    by_cases h : j = c
    · rw [h, State.och_setOch_self]
      exact hn
    · rw [State.och_setOch_ne s g _ h]
      exact (hall j hj).resolve_left h
  rw [if_neg (by omega), if_pos hdark, State.groupSt_groupStop _ _ _ (by decide), if_pos rfl]

end

end Sys2Proof.Machine


/-!
PROOFS. Lane frames, and the rows of the optical channels (R158 to R170, R175).
-/

namespace Sys2Proof.Machine

/-! ### Lane frames -/

theorem State.fld_streamOn (s : State) (p k lost : Nat) (f : Fld) (i : Nat) (hf : Reg.OPT_PG_STATUS_HUNT_DISCARDS.clearOf f = true) :
    (s.streamOn p k lost).fld f i = s.fld f i := by
  unfold State.streamOn
  extract_lets x w upTo bytes buf t drops s1 s2
  refine (foldl_keeps (P := fun u : State => u.fld f i) (fun u a _ => State.fld_emit _ _ _ _) _).trans ?_
  unfold s2
  split
  · rfl
  · exact State.fld_bump_clear _ _ _ _ _ _ hf

theorem State.fld_laneBytes (s : State) (g c lane : Nat) (cws : List CodeWord) (lost : Nat) (f : Fld) (i : Nat)
    (hf : Reg.OPT_PG_STATUS_HUNT_DISCARDS.clearOf f = true) : (s.laneBytes g c lane cws lost).fld f i = s.fld f i := by
  unfold State.laneBytes
  dsimp only
  split
  · rfl
  · split
    · exact State.fld_streamOn _ _ _ _ _ _ hf
    · rfl

/-- What a lane frame counts on its channel. -/
theorem State.optFrame_spec {s : State} {g c : Nat} {words : List Nat} (lost : Nat) (hc : c < 17) (hl : s.rxLocked g c = true)
    (hw : words.length = 272) :
    (s.optFrame g c words lost).fld Reg.OPT_LANE_CW_UNCORR_COUNT (chanInst g c) = min 0xFFFFFFFF
      (s.fld Reg.OPT_LANE_CW_UNCORR_COUNT (chanInst g c) + ((laneDecode words).filter fun w => !w.good).length) ∧
    (s.optFrame g c words lost).fld Reg.OPT_LANE_CW_CORR_COUNT (chanInst g c) = min 0xFFFFFFFF
      (s.fld Reg.OPT_LANE_CW_CORR_COUNT (chanInst g c) + ((laneDecode words).filter fun w => w.good && decide (0 < w.fixed)).length) := by
  unfold State.optFrame
  rw [if_neg (by rintro (h | h | h) <;> [omega; exact absurd (hl.symm.trans h) (by decide); exact h hw])]
  generalize laneDecode words = cws
  extract_lets cws1 i bad fixed s1 lane x due words' b1 y s2 s3
  have h1 : s1.fld Reg.OPT_LANE_CW_UNCORR_COUNT i = min 0xFFFFFFFF (s.fld Reg.OPT_LANE_CW_UNCORR_COUNT i + bad) ∧
      s1.fld Reg.OPT_LANE_CW_CORR_COUNT i = min 0xFFFFFFFF (s.fld Reg.OPT_LANE_CW_CORR_COUNT i + fixed) := by
    unfold s1
    rw [State.fld_bump_clear _ _ _ _ _ _ (by decide), State.fld_bump_self _ _ _ _ (by decide), State.fld_bump_self _ _ _ _ (by decide),
      State.fld_bump_clear _ _ _ _ _ _ (by decide)]
    exact ⟨rfl, rfl⟩
  have h3 : ∀ f, f.blk = .opt → Reg.OPT_PG_STATUS_HUNT_DISCARDS.clearOf f = true → s3.fld f i = s1.fld f i := fun f hb hf =>
    (State.fld_laneBytes _ _ _ _ _ _ _ _ hf).trans
      (((State.healthWords_fr (Fr.refl 0x100000000000 s2) (Sub.refl _)).fld_eq f i (by rw [hb]; rfl) (by rw [hb]; rfl)).trans
        (s1.fld_setOch g c y f i))
  have hu3 := h3 Reg.OPT_LANE_CW_UNCORR_COUNT rfl (by decide)
  have hc3 := h3 Reg.OPT_LANE_CW_CORR_COUNT rfl (by decide)
  have h2 : ∀ f, s2.fld f i = s1.fld f i := fun f => s1.fld_setOch g c y f i
  clear_value s3 lane s2
  split
  · rw [h2, h2]
    exact h1
  · split
    · have hb := s3.rebinds_seekSpare g true ⟨.feed, lane, c⟩
      rw [hb.fld _ _ (by decide), hb.fld _ _ (by decide), hu3, hc3]
      exact h1
    · rw [hu3, hc3]
      exact h1

theorem State.fld_healthWords_eln (s : State) (p n : Nat) (f : Fld) (i : Nat) (hf : f.blk = .eln) : (s.healthWords p n).fld f i = s.fld f i :=
  (State.healthWords_fr (Fr.refl 0x100000000000 s) (Sub.refl _)).fld_eq f i (by rw [hf]; rfl) (by rw [hf]; rfl)

theorem State.fld_saturated (s : State) (f : Fld) (i : Nat) (hf : f.width = 32) : s.fld f i = min 0xFFFFFFFF (s.fld f i + 0) := by
  have h := s.fld_lt f i
  rw [hf] at h
  omega

/-- What a code word counts on an electrical lane that is up. -/
theorem State.elnFrame_spec {s : State} {l : Nat} {syms : List Nat} (hst : s.laneSt l = 3) (hlen : syms.length = 544) :
    (s.elnFrame l syms).fld Reg.ELN_LANE_CW_UNCORR_COUNT l =
      min 0xFFFFFFFF (s.fld Reg.ELN_LANE_CW_UNCORR_COUNT l + bit (!(codeWordOf syms []).good)) ∧
    (s.elnFrame l syms).fld Reg.ELN_LANE_CW_CORR_COUNT l = min 0xFFFFFFFF (s.fld Reg.ELN_LANE_CW_CORR_COUNT l +
      bit ((codeWordOf syms []).good && decide (0 < (codeWordOf syms []).fixed))) := by
  unfold State.elnFrame
  rw [if_neg (by rintro (h | h) <;> [exact h hst; exact h hlen])]
  generalize codeWordOf syms [] = w
  extract_lets w1 s1
  have hw : w1 = w := rfl
  clear_value w1
  subst hw
  cases hg : w1.good
  · rw [if_pos (show (!false) = true from rfl)]
    have h1 : s1.fld Reg.ELN_LANE_CW_UNCORR_COUNT l = min 0xFFFFFFFF (s.fld Reg.ELN_LANE_CW_UNCORR_COUNT l + 1) ∧
        s1.fld Reg.ELN_LANE_CW_CORR_COUNT l = min 0xFFFFFFFF (s.fld Reg.ELN_LANE_CW_CORR_COUNT l + 0) :=
      ⟨s.fld_bump_self _ _ _ (by decide), (s.fld_bump_clear _ _ _ _ _ (by decide)).trans (s.fld_saturated _ _ rfl)⟩
    clear_value s1
    split
    · exact h1
    · rw [State.fld_healthWords_eln _ _ _ _ _ rfl, State.fld_healthWords_eln _ _ _ _ _ rfl]
      exact h1
  · rw [if_neg (by decide)]
    have hzero := s.fld_saturated Reg.ELN_LANE_CW_UNCORR_COUNT l rfl
    by_cases hfix : 0 < w1.fixed
    · rw [if_pos hfix, decide_eq_true hfix]
      exact ⟨(s.fld_bump_clear _ _ _ _ _ (by decide)).trans hzero, s.fld_bump_self _ _ _ (by decide)⟩
    · rw [if_neg hfix, decide_eq_false hfix]
      exact ⟨hzero, s.fld_saturated _ _ rfl⟩

/-! ### Reading the optical channels through what freed setts may start -/

section
variable (s : State) (f : State → State)

theorem State.och_pooled (g c : Nat) : (s.pooled f).och g c = (f s).och g c := by rw [State.och, State.grp_pooled, State.och]

theorem State.flag_pooled_opt (r : Fld) (i : Nat) (h : r.blk = .opt) : (s.pooled f).flag r i = (f s).flag r i := by
  rw [State.flag, s.fld_pooled_opt f r i h, State.flag]

theorem State.rxLocked_pooled (g c : Nat) : (s.pooled f).rxLocked g c = (f s).rxLocked g c := s.flag_pooled_opt f _ _ rfl

theorem State.chanSt_pooled (g c : Nat) : (s.pooled f).chanSt g c = (f s).chanSt g c := s.fld_pooled_opt f _ _ rfl

theorem State.fld_pooled_eln (r : Fld) (i : Nat) (h : r.blk = .eln) : (s.pooled f).fld r i = (f s).fld r i :=
  (s.pooled_keeps f).fld_eq r i (by rw [h]; rfl) (by rw [h]; rfl)

end

theorem State.chanSt_setChanSt {s : State} {g c v : Nat} (h : s.chanSt g c ≠ csRETIRED) (hv : v < 8) : (s.setChanSt g c v).chanSt g c = v := by
  rw [State.setChanSt, if_neg h]
  exact (State.fld_setFld_self _ _ _ _ (by decide)).trans (Nat.mod_eq_of_lt hv)

/-- Settles O31: each row's result is read through what freed setts may start. -/
theorem markerRows : Obligations.MarkerRows := by
  refine ⟨?_, ?_, ?_, ?_, ?_, ?_, ?_, ?_, ?_, ?_, ?_, ?_, ?_, ?_, ?_, ?_, ?_, ?_, ?_, ?_, ?_, ?_, ?_, ?_, ?_⟩
  case refine_1 =>
    refine fun s g c skew b hco hst hc hm hbad => ⟨_, rfl, ?_⟩
    have heq : s.marker g c skew b = s.setOch g c { s.och g c with good := 0, bad := (s.och g c).bad + 1, foreign := 0 } := by
      unfold State.marker
      rw [if_neg (State.groupListens hst hc), hm]
      refine if_neg ?_
      rw [Bool.and_eq_true, decide_eq_true_eq]
      rintro ⟨hfour, hl⟩
      rcases hbad with h | h
      · omega
      · exact absurd (hl.symm.trans h) (by decide)
    beta_reduce
    rw [State.inPool_of_setts hco (by rw [heq]; rfl)]
    exact heq
  case refine_2 =>
    refine fun s g c skew b hco hst hc hm hbad hl => ⟨_, rfl, ?_⟩
    beta_reduce
    rw [State.inPool_on hco, State.rxLocked_pooled, State.fld_pooled_opt _ _ _ _ rfl]
    unfold State.marker
    rw [if_neg (State.groupListens hst hc), hm]
    dsimp only
    rw [if_pos (by rw [hl, Bool.and_true]; exact decide_eq_true (Nat.succ_le_succ hbad))]
    exact State.alignLost_spec _ g c
  case refine_3 =>
    refine fun s g c skew b m hco hst hc hskew hm hch hgood hring => ⟨_, rfl, ?_⟩
    beta_reduce
    rw [State.inPool_on hco, State.rxLocked_pooled, State.fld_pooled_opt _ _ _ _ rfl, State.fld_pooled_opt _ _ _ _ rfl,
      State.flag_pooled_opt _ _ _ _ rfl, State.och_pooled]
    exact State.marker_good hst hc hskew hm hch hgood hring
  case refine_4 =>
    refine fun s g c skew b m hco hst hc hskew hm hl => ⟨_, rfl, ?_⟩
    beta_reduce
    rw [State.inPool_on hco, State.rxLocked_pooled, State.fld_pooled_opt _ _ _ _ rfl]
    exact State.marker_skewed hst hc hskew hm hl
  case refine_5 => exact fun s g c skew b h => ⟨_, rfl, State.inPool_of_same (if_pos h)⟩
  case refine_6 =>
    refine fun s g hco hst hal hid => ⟨_, rfl, ?_⟩
    beta_reduce
    rw [State.inPool_on hco, State.groupSt_pooled]
    rw [if_pos (by rw [hst, hal, hid]; decide)]
    exact s.groupSt_groupUp g
  case refine_7 =>
    refine fun s g h => ⟨_, rfl, State.inPool_of_same (if_neg ?_)⟩
    simp only [Bool.and_eq_true, decide_eq_true_eq]
    rintro ⟨⟨hst, hal⟩, hid⟩
    rcases h with h | h | h
    · exact h (by simpa using hst)
    · exact absurd (hal.symm.trans h) (by decide)
    · exact absurd (hid.symm.trans h) (by decide)
  case refine_8 =>
    refine fun s g c rx hco hst hl hret => ⟨_, rfl, ?_⟩
    beta_reduce
    rw [State.inPool_on hco, State.chanSt_pooled, State.grp_pooled]
    rw [if_pos ⟨hst, hl⟩, (State.rebinds_leaveSpare _ _ _ _).chanSt, (State.rebinds_leaveSpare _ _ _ _).aliases,
      State.chanSt_setChanSt (by exact hret) (by decide), State.grp_congr ((State.setChanSt_fr (Fr.refl _ _) (Sub.refl _)).lanes_eq rfl),
      State.grp_onGrp_self]
    refine ⟨rfl, fun hrx a ha => ?_⟩
    simp only [hrx, if_true, List.mem_filter, bne_iff_ne] at ha
    exact ha.2
  case refine_9 =>
    refine fun s g c rx h => ⟨_, rfl, State.inPool_of_same (if_neg ?_)⟩
    rintro ⟨hst, hl⟩
    rcases h with h | h
    · exact h hst
    · exact absurd (hl.symm.trans h) (by decide)
  case refine_10 =>
    refine fun s g c err code hco hc hoff herr hlo hhi hin => ⟨_, rfl, ?_⟩
    beta_reduce
    rw [State.inPool_on hco, State.fld_pooled_opt _ _ _ _ rfl, State.flag_pooled_opt _ _ _ _ rfl, State.och_pooled]
    rw [State.heater_txIn hc hoff herr hlo hhi hin]
    obtain ⟨hfld, hch⟩ := (((s.setOch g c { s.och g c with txIn := 100, txOut := 0 }).setFld Reg.OPT_LANE_STATUS_HEATER
      (chanInst g c) code).setFlag Reg.OPT_LANE_STATUS_TX_LOCK (chanInst g c) true).ringWorks_spec g c
    refine ⟨?_, ?_, ?_⟩
    · rw [hfld _ _ (by decide), State.fld_setFlag_clear _ _ _ _ _ _ (by decide), State.fld_setFld_self _ _ _ _ (by decide)]
      exact Nat.mod_eq_of_lt (show code < 4096 by omega)
    · rw [State.flag, hfld _ _ (by decide)]
      exact State.flag_setFlag_self _ _ _ true (by decide) rfl
    · rw [hch]
      exact congrArg OptChan.txIn (s.och_setOch_self g c _)
  case refine_11 =>
    refine fun s g c err code hco hc hoff herr hlo hhi hin => ⟨_, rfl, ?_⟩
    have heq := State.heater_rxIn hc hoff herr hlo hhi hin
    beta_reduce
    rw [State.inPool_of_setts hco (by rw [heq]; rfl)]
    rw [heq, State.och_setOch_self]
    have hfr : Fr 0x200000000000 s (s.setOch g c { s.och g c with rxIn := 100, rxOut := 0, rxHeater := code, rxRing := true }) :=
      State.onGrp_fr (Fr.refl _ _) rfl
    exact ⟨rfl, rfl, rfl, hfr.within (ps := [.lanes]) (by decide +kernel)⟩
  case refine_12 =>
    refine fun s g c err code hco hc hoff herr hout => ⟨_, rfl, ?_⟩
    beta_reduce
    rw [State.inPool_on hco, State.fld_pooled_opt _ _ _ _ rfl, State.flag_pooled_opt _ _ _ _ rfl]
    exact State.heater_txOut hc hoff herr hout
  case refine_13 =>
    refine fun s g c err code hco hc hoff herr hout hring => ⟨_, rfl, ?_⟩
    beta_reduce
    rw [State.inPool_on hco, State.och_pooled, State.rxLocked_pooled]
    exact State.heater_rxOut hc hoff herr hout hring
  case refine_14 =>
    refine fun s g c err code hco hc hoff herr hcode hl => ⟨_, rfl, ?_⟩
    beta_reduce
    rw [State.inPool_on hco, State.fld_pooled_opt _ _ _ _ rfl, State.flag_pooled_opt _ _ _ _ rfl, State.fld_pooled_opt _ _ _ _ rfl]
    exact State.heater_hops hc hoff herr hcode hl
  case refine_15 => exact fun s g c err code rx h => ⟨_, rfl, State.inPool_of_same (if_pos h)⟩
  case refine_16 =>
    refine fun s g c code hco hst hc => ⟨_, rfl, ?_⟩
    have heq := State.sweepDone_rxLocked (code := code) hst hc
    beta_reduce
    rw [State.inPool_of_setts hco (by rw [heq]; rfl)]
    rw [heq]
    have hfr : Fr 0x200000010000 s ((s.setOch g c { s.och g c with rxHeater := code, rxCal := code, good := 2, bad := 0, rxRing := true }).setFlag
        Reg.OPT_LANE_STATUS_RX_LOCK (chanInst g c) true) :=
      State.setFlag_fr (State.onGrp_fr (Fr.refl _ _) rfl) (show okBlk _ Blk.opt = true from rfl)
    have hch : ((s.setOch g c { s.och g c with rxHeater := code, rxCal := code, good := 2, bad := 0, rxRing := true }).setFlag
        Reg.OPT_LANE_STATUS_RX_LOCK (chanInst g c) true).och g c =
          { s.och g c with rxHeater := code, rxCal := code, good := 2, bad := 0, rxRing := true } := s.och_setOch_self g c _
    rw [hch]
    exact ⟨State.flag_setFlag_self _ _ _ true (by decide) rfl, rfl, rfl, rfl, hfr.within (ps := [.regs .opt, .lanes]) (by decide +kernel)⟩
  case refine_17 =>
    refine fun s g c code hco hst hc => ⟨_, rfl, ?_⟩
    have heq := State.sweepDone_txLocked (code := code) hst hc
    beta_reduce
    rw [State.inPool_of_setts hco (by rw [heq]; rfl)]
    rw [heq]
    have hfr : Fr 0x10000 s ((s.setFld Reg.OPT_LANE_STATUS_HEATER (chanInst g c) code).setFlag Reg.OPT_LANE_STATUS_TX_LOCK (chanInst g c) true) :=
      State.setFlag_fr (State.setFld_fr (Fr.refl _ _) (show okBlk _ Blk.opt = true from rfl)) (show okBlk _ Blk.opt = true from rfl)
    exact ⟨State.flag_setFlag_self _ _ _ true (by decide) rfl, (State.fld_setFlag_clear _ _ _ _ _ _ (by decide)).trans
      (State.fld_setFld_self _ _ _ _ (by decide)), hfr.within (ps := [.regs .opt]) (by decide +kernel)⟩
  case refine_18 =>
    refine fun s g c code rx hco hst hc hn => ⟨_, rfl, ?_⟩
    have heq := State.sweepDone_first (code := code) hst hc rx hn
    beta_reduce
    rw [State.inPool_of_setts hco (by rw [heq]; rfl)]
    exact heq
  case refine_19 =>
    refine fun s g c code rx hco hst hc hn => ⟨_, rfl, ?_⟩
    beta_reduce
    rw [State.inPool_on hco, State.och_pooled]
    exact State.sweepDone_fails hst hc rx hn
  case refine_20 =>
    refine fun s g c code hco hst hc hone hall => ⟨_, rfl, ?_⟩
    beta_reduce
    rw [State.inPool_on hco, State.groupSt_pooled]
    exact State.sweepDone_dark hst hc hone hall
  case refine_21 => exact fun s g c code rx locked h => ⟨_, rfl, State.inPool_of_same (if_pos h)⟩
  case refine_22 =>
    refine fun s g c lost words hco hc hl hw => ⟨_, rfl, ?_⟩
    beta_reduce
    rw [State.inPool_on hco, State.fld_pooled_opt _ _ _ _ rfl, State.fld_pooled_opt _ _ _ _ rfl]
    exact State.optFrame_spec lost hc hl hw
  case refine_23 => exact fun s g c lost words h => ⟨_, rfl, State.inPool_of_same (if_pos (h.elim .inl fun hl => .inr (.inl hl)))⟩
  case refine_24 =>
    refine fun s l lost syms hco hst hlen => ⟨_, rfl, ?_⟩
    beta_reduce
    rw [State.inPool_on hco, State.fld_pooled_eln _ _ _ _ rfl, State.fld_pooled_eln _ _ _ _ rfl]
    exact State.elnFrame_spec hst hlen
  case refine_25 => exact fun s l lost syms h => ⟨_, rfl, State.inPool_of_same (if_pos (.inl h))⟩

end Sys2Proof.Machine


/-!
PROOFS. The lane control channel, remaps and feathering (R164 to R173).
-/

namespace Sys2Proof.Machine

/-! ### What each step makes of a group's bindings -/

theorem State.optDir_setOptDir (s : State) (g : Nat) (rx rx' : Bool) (d : OptDir) :
    (s.setOptDir g rx d).optDir g rx' = if rx' = rx then d else s.optDir g rx' := by
  split
  · next h => rw [h, State.optDir_setOptDir_self]
  · next h =>
    obtain rfl : rx' = !rx := Bool.eq_not_iff.2 h
    exact s.optDir_setOptDir_other g rx d

theorem State.optDir_congr {s t : State} (h : t.lanes = s.lanes) (g : Nat) (rx : Bool) : t.optDir g rx = s.optDir g rx := by
  rw [State.optDir, State.grp_congr h, State.optDir]

theorem State.optDir_onGrp (s : State) (g : Nat) (rx : Bool) {f : OptGroup → OptGroup} (h : (f (s.grp g)).dir rx = (s.grp g).dir rx) :
    (s.onGrp g f).optDir g rx = s.optDir g rx := by
  rw [State.optDir, State.grp_onGrp_self, h, State.optDir]

theorem State.optDir_lccAcked (s : State) (g typ : Nat) (p : LccMsg → Bool) (rx : Bool) : (s.lccAcked g typ p).optDir g rx = s.optDir g rx :=
  s.optDir_onGrp g rx (by cases rx <;> rfl)

theorem State.optDir_laneBack (s : State) (g lane : Nat) (rx : Bool) : (s.laneBack g lane).optDir g rx = s.optDir g rx :=
  s.optDir_onGrp g rx (by cases rx <;> rfl)

theorem State.optDir_remapDrop (s : State) (g : Nat) (rx rx' : Bool) :
    (s.remapDrop g rx).optDir g rx' = if rx' = rx then { s.optDir g rx with remap := none } else s.optDir g rx' := by
  unfold State.remapDrop
  split
  · next h =>
    split
    · next he => rw [he, ← h]
    · rfl
  · rw [State.optDir_lccAcked, State.optDir_setOptDir]

theorem State.mcnt_remapDrop (s : State) (g : Nat) (rx : Bool) : (s.remapDrop g rx).mcnt = s.mcnt := by
  unfold State.remapDrop
  split <;> rfl

/-- The remap that is asked for, beside the bindings as they were. -/
theorem State.optDir_remapStart (s : State) (g : Nat) (rx rx' : Bool) (lane src dst : Nat) :
    (s.remapStart g rx lane src dst).optDir g rx' = if rx' = rx then
      { s.optDir g rx with remap := some { lane := lane, src := src, dst := dst, mcnt := (s.mcnt + 200) % 256 } } else s.optDir g rx' := by
  unfold State.remapStart
  dsimp only
  rw [State.optDir_lccSend, State.optDir_setOptDir, State.optDir_remapDrop, if_pos rfl]
  split
  · rfl
  · next h => rw [State.optDir_remapDrop, if_neg h]

theorem State.optDir_laneDown (s : State) (g lane : Nat) (rx : Bool) : (s.laneDown g lane).optDir g rx = s.optDir g rx := by
  unfold State.laneDown
  split
  · rfl
  · extract_lets p s1
    have h1 : s1.optDir g rx = s.optDir g rx := (State.optDir_congr ((State.raise_keeps _ _ _ _).lanes_eq rfl) g rx).trans
      (s.optDir_onGrp g rx (by cases rx <;> rfl))
    rw [State.optDir_congr ((State.linkDown_fr (Fr.refl _ _) (Sub.refl _)).lanes_eq rfl)]
    clear_value s1
    split
    · exact h1
    · exact (State.optDir_congr ((State.healthAdd_fr (Fr.refl _ s1) (Sub.refl _)).lanes_eq rfl) g rx).trans h1

/-! ### A group's other direction -/

theorem State.ne_of_other {rx : Bool} : (!rx) ≠ rx := by cases rx <;> decide

theorem State.other_awaitSpare (s : State) (g : Nat) (rx : Bool) (n : SpareNeed) : (s.awaitSpare g rx n).optDir g (!rx) = s.optDir g (!rx) := by
  unfold State.awaitSpare
  dsimp only
  rw [State.optDir_laneDown, State.optDir_setOptDir_other]

theorem State.other_yieldSpare (s : State) (g : Nat) (rx : Bool) : (s.yieldSpare g rx).optDir g (!rx) = s.optDir g (!rx) := by
  have hdrop : (s.remapDrop g rx).optDir g (!rx) = s.optDir g (!rx) := (s.optDir_remapDrop g rx _).trans (if_neg State.ne_of_other)
  unfold State.yieldSpare
  extract_lets s0 d s1
  split
  · exact hdrop
  · split
    · rw [State.optDir_setOptDir_other]
      exact hdrop
    · rw [State.other_awaitSpare, State.optDir_setOptDir_other]
      exact hdrop

theorem State.other_remapStart (s : State) (g : Nat) (rx : Bool) (lane src dst : Nat) :
    (s.remapStart g rx lane src dst).optDir g (!rx) = s.optDir g (!rx) :=
  (s.optDir_remapStart g rx _ _ _ _).trans (if_neg State.ne_of_other)

/-- A lane that asks for the spare of one direction leaves the bindings of the other. -/
theorem State.other_seekSpare (s : State) (g : Nat) (rx : Bool) (n : SpareNeed) : (s.seekSpare g rx n).optDir g (!rx) = s.optDir g (!rx) := by
  unfold State.seekSpare
  extract_lets d s1 src s2 s3
  split
  · exact s.optDir_setOptDir_other g rx _
  · split
    · exact s.other_awaitSpare g rx n
    · split
      · exact s.optDir_setOptDir_other g rx _
      · split
        · exact s.other_awaitSpare g rx n
        · have h2 : s2.optDir g (!rx) = s.optDir g (!rx) := (State.optDir_setOptDir_other _ _ _ _).trans (s.other_yieldSpare g rx)
          clear_value s2
          rw [State.other_remapStart]
          unfold s3
          split
          · exact h2
          · exact (State.optDir_onGrp _ _ _ (by cases (!rx) <;> rfl)).trans h2

/-! ### A lane that takes a spare that is free -/

theorem State.yieldSpare_free {s : State} {g : Nat} {rx : Bool} (h : (s.optDir g rx).holder = none) : s.yieldSpare g rx = s.remapDrop g rx := by
  unfold State.yieldSpare
  dsimp only
  rw [State.optDir_remapDrop, if_pos rfl, h]

/-- A lane that takes the free spare, whatever remap was under way. -/
theorem State.seekSpare_takes {s : State} {g : Nat} {rx : Bool} {n : SpareNeed} (hw : (s.optDir g rx).waiting = [])
    (hn : n.chan ≠ (s.optDir g rx).spare) (hh : (s.optDir g rx).holder = none) (hu : s.spareUsable g rx = true) :
    ((s.seekSpare g rx n).optDir g rx).holder = some n := by
  unfold State.seekSpare
  extract_lets d s1 src s2 s3
  have h2 : s2.optDir g rx = { s1.optDir g rx with holder := some n } := State.optDir_setOptDir_self _ _ _ _
  clear_value s2 s1
  rw [hw, if_neg (by simp), if_neg hn, hh, if_neg (by simp), if_neg (by rw [hu]; simp), State.optDir_remapStart, if_pos rfl]
  unfold s3
  split
  · rw [h2]
  · rw [State.optDir_onGrp _ _ _ (by cases rx <;> rfl), h2]

end Sys2Proof.Machine


/-!
PROOFS. The rows of the lane control channel, of remaps and of feathering (R164 to R173).
-/

namespace Sys2Proof.Machine

/-! ### A word of the lane control channel that counts -/

/-- The state that knows a word of the lane control channel. -/
def State.lccNoted (s : State) (g typ seq : Nat) : State := s.onGrp g fun x => { x with lccSeen := ((typ, seq) :: x.lccSeen).take 8 }

theorem State.lccAccept_of_heard {s : State} {g typ seq arg : Nat} (h : s.lccHeard g typ seq arg = true) (act : State → State) :
    s.lccAccept g typ seq arg act = act (s.lccNoted g typ seq) := if_pos h

theorem State.lccAccept_of_not {s : State} {g typ seq arg : Nat} (h : s.lccHeard g typ seq arg = false) (act : State → State) :
    s.lccAccept g typ seq arg act = s := if_neg (by rw [h]; decide)

theorem State.optDir_lccNoted (s : State) (g typ seq : Nat) (rx : Bool) : (s.lccNoted g typ seq).optDir g rx = s.optDir g rx :=
  s.optDir_onGrp g rx (by cases rx <;> rfl)

theorem State.grp_lccNoted (s : State) (g typ seq : Nat) :
    (s.lccNoted g typ seq).grp g = { s.grp g with lccSeen := ((typ, seq) :: (s.grp g).lccSeen).take 8 } := s.grp_onGrp_self g _

theorem State.mcnt_lccNoted (s : State) (g typ seq : Nat) : (s.lccNoted g typ seq).mcnt = s.mcnt := rfl

theorem State.chanSt_lccNoted (s : State) (g typ seq c : Nat) : (s.lccNoted g typ seq).chanSt g c = s.chanSt g c := rfl

theorem State.lccNoted_frame (s : State) (g typ seq : Nat) : Fr 0x200000000000 s (s.lccNoted g typ seq) := State.onGrp_fr (Fr.refl _ _) rfl

theorem State.grp_lccSend (v : State) (g arg : Nat) : ((v.lccSend g 2 arg).grp g).lccSeen = (v.grp g).lccSeen :=
  (congrArg OptGroup.lccSeen ((v.grp_setGrp g g _).trans (if_pos rfl))).trans rfl

/-- A request that is taken changes the group's bindings and is acknowledged; what the acknowledgement answers is no longer repeated. -/
theorem State.lccReply_spec {s u : State} {g arg : Nat} {f : State → State} {p q : LccMsg → Bool} (hco : s.coreOff = false)
    (heq : f s = ((u.lccAcked g 4 p).lccAcked g 3 q).lccSend g 2 arg) (hfr : Fr 0x200000000000 s u)
    (hseq : (u.grp g).lccSeq = (s.grp g).lccSeq) :
    (∀ rx, (s.inPool f).optDir g rx = u.optDir g rx) ∧ (s.inPool f).out = s.out ++ [Out.lcc g (lccWord 2 (s.grp g).lccSeq arg)] ∧
    ((s.inPool f).grp g).lccSeen = (u.grp g).lccSeen ∧ SameBut [.lanes, .out] s (s.inPool f) := by
  have hacked : Fr 0x200000000000 s ((u.lccAcked g 4 p).lccAcked g 3 q) := State.onGrp_fr (State.onGrp_fr hfr rfl) rfl
  have hall : Fr 0x8200000000000 s (((u.lccAcked g 4 p).lccAcked g 3 q).lccSend g 2 arg) := State.lccSend_fr (hacked.weaken rfl) rfl
  have hgrp : (((u.lccAcked g 4 p).lccAcked g 3 q).grp g).lccSeq = (u.grp g).lccSeq ∧
      (((u.lccAcked g 4 p).lccAcked g 3 q).grp g).lccSeen = (u.grp g).lccSeen := by
    rw [State.lccAcked, State.grp_onGrp_self, State.lccAcked, State.grp_onGrp_self]
    exact ⟨rfl, rfl⟩
  rw [State.inPool_of_setts hco (by rw [heq]; exact hall.sett_eq rfl), heq]
  refine ⟨fun rx => by rw [State.optDir_lccSend, State.optDir_lccAcked, State.optDir_lccAcked], ?_, ?_, hall.within (by decide +kernel)⟩
  · have hout (v : State) : (v.lccSend g 2 arg).out = v.out ++ [Out.lcc g (lccWord 2 (v.grp g).lccSeq arg)] := rfl
    rw [hout, hgrp.1, hseq, hacked.out_eq rfl]
  · rw [State.grp_lccSend, hgrp.2]

theorem State.lccSeq_setOptDir (s : State) (g : Nat) (rx : Bool) (d : OptDir) :
    ((s.setOptDir g rx d).grp g).lccSeq = (s.grp g).lccSeq ∧ ((s.setOptDir g rx d).grp g).lccSeen = (s.grp g).lccSeen := by
  rw [State.setOptDir, State.grp_onGrp_self]
  cases rx <;> exact ⟨rfl, rfl⟩

theorem State.remapDrop_none {s : State} {g : Nat} {rx : Bool} (h : (s.optDir g rx).remap = none) : s.remapDrop g rx = s := by
  unfold State.remapDrop
  rw [h]

/-! ### Requests -/

section
variable {s : State} {g seq arg : Nat} (hco : s.coreOff = false) (hheard : s.lccHeard g 1 seq arg = true) (hdst : argDst arg < 17)
  (hlane : argLane arg < 16) (hsrc : argSrc arg ≠ 31) (hret : s.chanSt g (argDst arg) ≠ csRETIRED)
include hheard hdst hlane hsrc hret

/-- A remap that the far transmitter announces and that fits the binding. -/
theorem lccRemap_announced (hbound : (s.optDir g true).bind.getD (argSrc arg) 31 = argLane arg) (hnone : (s.optDir g true).remap = none)
    (hthere : (s.optDir g true).bind.getD (argDst arg) 31 = 31) : ∃ f p q, exec (.lccRemapReq g false seq arg) s = .next (s.inPool f) ∧
    f s = ((((s.lccNoted g 1 seq).setOptDir g true { s.optDir g true with
      remap := some ⟨argLane arg, argSrc arg, argDst arg, argMcnt arg, false, true⟩ }).lccAcked g 4 p).lccAcked g 3 q).lccSend g 2 arg := by
  refine ⟨_, fun m => bitsOf m.arg 14 5 == argDst arg, fun m => !false && argLane m.arg == argLane arg, rfl, ?_⟩
  refine (State.lccAccept_of_heard hheard _).trans ?_
  have hdrop : (s.lccNoted g 1 seq).remapDrop g true = s.lccNoted g 1 seq := State.remapDrop_none (by rw [State.optDir_lccNoted, hnone])
  simp only [Bool.not_false, State.optDir_lccNoted, if_neg hsrc, hbound, hthere, Bool.false_and, Bool.false_eq_true, if_false, hdrop,
    if_true]
  refine if_pos ⟨hdst, hlane, beq_self_eq_true _, hret, fun h => absurd h (by decide), .inl trivial⟩

/-- A remap onto the free spare that the far receiver asks for. -/
theorem lccRemap_asked (hbound : (s.optDir g false).bind.getD (argSrc arg) 31 = argLane arg) (hnone : (s.optDir g false).remap = none)
    (hspare : argDst arg = (s.optDir g false).spare) (hholder : (s.optDir g false).holder = none) :
    ∃ f p q, exec (.lccRemapReq g true seq arg) s = .next (s.inPool f) ∧
    f s = ((((s.lccNoted g 1 seq).setOptDir g false { s.optDir g false with
      remap := some ⟨argLane arg, argSrc arg, argDst arg, argMcnt arg, false, true⟩
      holder := some ⟨.cover, argLane arg, argSrc arg⟩ }).lccAcked g 4 p).lccAcked g 3 q).lccSend g 2 arg := by
  refine ⟨_, fun m => bitsOf m.arg 14 5 == argDst arg, fun m => !true && argLane m.arg == argLane arg, rfl, ?_⟩
  refine (State.lccAccept_of_heard hheard _).trans ?_
  have hnone' : ((s.lccNoted g 1 seq).optDir g false).remap = none := by rw [State.optDir_lccNoted, hnone]
  have hdrop : (s.lccNoted g 1 seq).remapDrop g false = s.lccNoted g 1 seq := State.remapDrop_none hnone'
  have hyield : (s.lccNoted g 1 seq).yieldSpare g false = s.lccNoted g 1 seq :=
    (State.yieldSpare_free (by rw [State.optDir_lccNoted, hholder])).trans hdrop
  simp only [Bool.not_true, State.optDir_lccNoted, if_neg hsrc, hbound, Bool.true_and, hspare, beq_self_eq_true, hholder, hyield,
    Option.any_none, Bool.not_false, if_true, hdrop]
  refine if_pos ⟨hspare ▸ hdst, hlane, trivial, hspare ▸ hret, fun _ => rfl, .inr (.inr trivial)⟩

end

/-- A request for a channel or a lane that is none, or for a retired channel, is not taken. -/
theorem lccRemap_refused {s : State} {g seq arg : Nat} (asks : Bool) (hheard : s.lccHeard g 1 seq arg = true)
    (h : 17 ≤ argDst arg ∨ 16 ≤ argLane arg ∨ s.chanSt g (argDst arg) = csRETIRED) :
    ∃ f, exec (.lccRemapReq g asks seq arg) s = .next (s.inPool f) ∧ f s = s.lccNoted g 1 seq := by
  refine ⟨_, rfl, (State.lccAccept_of_heard hheard _).trans (if_neg ?_)⟩
  rintro ⟨hdst, hlane, -, hret, -⟩
  rcases h with h | h | h
  · exact absurd hdst (Nat.not_lt.2 h)
  · exact absurd hlane (Nat.not_lt.2 h)
  · exact hret h

/-! ### Acknowledgements -/

section
variable {s : State} {g seq arg : Nat} {r : Remap} (hheard : s.lccHeard g 2 seq arg = true) (hother : (s.optDir g true).remap = none)
  (hr : (s.optDir g false).remap = some r) (hasked : r.asked = true) (hacked : r.acked = false) (harg : remapArg r = arg)
include hheard hother hr hasked hacked harg

/-- An acknowledgement in time marks the remap. -/
theorem lccAck_inTime (hlo : 8 ≤ (r.mcnt + 256 - s.mcnt) % 256) (hhi : (r.mcnt + 256 - s.mcnt) % 256 ≤ 200) :
    ∃ f p, exec (.lccRemapAck g seq arg) s = .next (s.inCore f) ∧
      f s = ((s.lccNoted g 2 seq).setOptDir g false { s.optDir g false with remap := some { r with acked := true } }).lccAcked g 1 p := by
  refine ⟨_, fun m => m.arg == arg, rfl, (State.lccAccept_of_heard hheard _).trans ?_⟩
  simp only [State.optDir_lccNoted, hr, hasked, hacked, harg, State.mcnt_lccNoted, Bool.not_false, Bool.true_and, beq_self_eq_true, if_true,
    if_pos (And.intro hlo hhi), State.optDir_lccAcked, State.optDir_setOptDir, Bool.true_eq_false, if_false, hother]

/-- One that comes too late has the remap asked for again. -/
theorem lccAck_late (h : (r.mcnt + 256 - s.mcnt) % 256 < 8 ∨ 200 < (r.mcnt + 256 - s.mcnt) % 256) :
    ∃ f p, exec (.lccRemapAck g seq arg) s = .next (s.inCore f) ∧
      f s = ((s.lccNoted g 2 seq).lccAcked g 1 p).remapStart g false r.lane r.src r.dst := by
  refine ⟨_, fun m => m.arg == arg, rfl, (State.lccAccept_of_heard hheard _).trans ?_⟩
  have hlate : ¬(8 ≤ (r.mcnt + 256 - s.mcnt) % 256 ∧ (r.mcnt + 256 - s.mcnt) % 256 ≤ 200) := by omega
  simp only [State.optDir_lccNoted, hr, hasked, hacked, harg, State.mcnt_lccNoted, Bool.not_false, Bool.true_and, beq_self_eq_true, if_true,
    if_neg hlate, State.optDir_lccAcked, State.optDir_remapStart, Bool.true_eq_false, if_false, hother]

end

/-! ### The far end's alias, and calibration -/

/-- The far end's alias: the lane takes the spare, and its ring loses its lock. -/
theorem lccTxAlias_spec {s : State} {g seq arg c : Nat} (hheard : s.lccHeard g 3 seq arg = true)
    (hc : (s.optDir g false).chanOf (argLane arg) = some c) (hu : s.spareUsable g false = true) (hn : c ≠ (s.optDir g false).spare)
    (hh : (s.optDir g false).holder = none) (hw : (s.optDir g false).waiting = []) :
    ∃ f, exec (.lccTxAlias g seq arg) s = .next (s.inPool f) ∧ (f s).flag Reg.OPT_LANE_STATUS_TX_LOCK (chanInst g c) = false ∧
      ((f s).optDir g false).holder = some ⟨.cover, argLane arg, c⟩ ∧
      (f s).fld Reg.OPT_LANE_EVENTS_TX_ALIAS (chanInst g c) = min 0xFF (s.fld Reg.OPT_LANE_EVENTS_TX_ALIAS (chanInst g c) + 1) := by
  refine ⟨_, rfl, ?_⟩
  beta_reduce
  rw [State.lccAccept_of_heard hheard, State.optDir_lccNoted]
  extract_lets lane
  have hlane : (s.optDir g false).chanOf lane = some c := hc
  simp -zeta only [hlane]
  extract_lets i code
  have hdir : ∀ v : State, v.lanes = (s.lccNoted g 3 seq).lanes → v.optDir g false = s.optDir g false := fun v h =>
    (State.optDir_congr h g false).trans (s.optDir_lccNoted g 3 seq false)
  have hlow : ∀ v : State, v.lanes = (s.lccNoted g 3 seq).lanes → (v.grp g).low = (s.grp g).low := fun v h => by
    rw [State.grp_congr h, State.grp_lccNoted]
  generalize hv : (((s.lccNoted g 3 seq).bump Reg.OPT_LANE_EVENTS_TX_ALIAS i).setFld Reg.OPT_LANE_STATUS_HEATER i code.toNat).setFlag
    Reg.OPT_LANE_STATUS_TX_LOCK i false = v
  have hlanes : v.lanes = (s.lccNoted g 3 seq).lanes := by rw [← hv]; rfl
  have hlock : v.flag Reg.OPT_LANE_STATUS_TX_LOCK i = false := by
    rw [← hv]
    exact State.flag_setFlag_self _ _ _ false (by decide) rfl
  have halias : v.fld Reg.OPT_LANE_EVENTS_TX_ALIAS i = min 0xFF (s.fld Reg.OPT_LANE_EVENTS_TX_ALIAS i + 1) := by
    rw [← hv, State.fld_setFlag_clear _ _ _ _ _ _ (by decide), State.fld_setFld_clear _ _ _ _ _ _ (by decide),
      State.fld_bump_self _ _ _ _ (by decide)]
    rfl
  have hb := v.rebinds_seekSpare g false ⟨.cover, lane, c⟩
  have hd := hdir v hlanes
  have hl := hlow v hlanes
  refine ⟨by rw [State.flag, hb.fld _ _ (by decide)]; exact hlock, ?_, (hb.fld _ _ (by decide)).trans halias⟩
  refine State.seekSpare_takes (by rw [hd, hw]) (by rw [hd]; exact hn) (by rw [hd, hh]) ?_
  unfold State.spareUsable at hu ⊢
  rw [hd, hl]
  exact hu

section
variable {s : State} {g seq arg : Nat} (hheard : s.lccHeard g 4 seq arg = true) (hcal : (s.grp g).calibrating = true)
  (hspare : bitsOf arg 14 5 = (s.optDir g false).spare)
include hheard hcal hspare

theorem lccCalDone_eq : ∃ f, exec (.lccCalDone g seq arg) s = .next (s.inCore f) ∧
    f s = ((s.lccNoted g 4 seq).onGrp g fun x => { x with calFar := true }).featherNext g := by
  refine ⟨_, rfl, (State.lccAccept_of_heard hheard _).trans (if_pos ?_)⟩
  rw [State.grp_lccNoted, State.optDir_lccNoted, hspare, Bool.and_eq_true]
  exact ⟨hcal, beq_self_eq_true _⟩

end

theorem State.featherNext_waits {s : State} {g : Nat} (h : (s.grp g).calHere = false ∨ (s.grp g).calFar = false) : s.featherNext g = s := by
  unfold State.featherNext
  dsimp only
  refine if_neg ?_
  simp only [Bool.and_eq_true, not_and]
  rintro ⟨-, hhere⟩ hfar
  rcases h with h | h
  · exact absurd (hhere.symm.trans h) (by decide)
  · exact absurd (hfar.symm.trans h) (by decide)

theorem State.calibrating_setOptDir (s : State) (g : Nat) (rx : Bool) (d : OptDir) :
    ((s.setOptDir g rx d).grp g).calibrating = (s.grp g).calibrating := by
  rw [State.setOptDir, State.grp_onGrp_self]
  cases rx <;> rfl

/-- A remap that starts leaves the calibration of the spare as it is. -/
theorem State.calibrating_remapStart (s : State) (g : Nat) (rx : Bool) (lane src dst : Nat) :
    ((s.remapStart g rx lane src dst).grp g).calibrating = (s.grp g).calibrating := by
  have hsend (v : State) (arg : Nat) : ((v.lccSend g 1 arg).grp g).calibrating = (v.grp g).calibrating :=
    (congrArg OptGroup.calibrating ((v.grp_setGrp g g _).trans (if_pos rfl))).trans rfl
  have hdrop : ((s.remapDrop g rx).grp g).calibrating = (s.grp g).calibrating := by
    unfold State.remapDrop
    split
    · rfl
    · rw [State.lccAcked, State.grp_onGrp_self]
      exact s.calibrating_setOptDir g rx _
  unfold State.remapStart
  dsimp only
  rw [hsend, State.calibrating_setOptDir, hdrop]

/-- Both ends have calibrated the spare: the next lane moves to it. -/
theorem State.featherNext_moves {s : State} {g c : Nat} (hcal : (s.grp g).calibrating = true) (hhere : (s.grp g).calHere = true)
    (hfar : (s.grp g).calFar = true) (hnext : (s.optDir g false).nextFeather = some c) :
    ((s.featherNext g).grp g).calibrating = false ∧
    ((s.featherNext g).optDir g false).holder = some ⟨.feather, (s.optDir g false).bind.getD c 31, c⟩ ∧
    ((s.featherNext g).optDir g false).remap =
      some { lane := (s.optDir g false).bind.getD c 31, src := c, dst := (s.optDir g false).spare, mcnt := (s.mcnt + 200) % 256 } := by
  unfold State.featherNext
  extract_lets x s1
  have hx : x.tx.nextFeather = some c := hnext
  simp -zeta only [hx]
  extract_lets lane
  rw [if_pos (by unfold x; rw [hcal, hhere, hfar]; rfl)]
  have hgrp1 : s1.grp g = { s.grp g with calibrating := false, calHere := false, calFar := false } := by
    refine (State.grp_congr ((State.setChanSt_fr (Fr.refl _ _) (Sub.refl _)).lanes_eq rfl) g).trans ?_
    exact (State.grp_setGrp _ _ _ _).trans (if_pos rfl)
  have hm1 : s1.mcnt = s.mcnt := by
    unfold s1 State.setChanSt
    split <;> rfl
  clear_value s1
  generalize hu : s1.setOptDir g false { s1.optDir g false with holder := some ⟨.feather, lane, c⟩ } = u
  have hdir : u.optDir g false = { s1.optDir g false with holder := some ⟨.feather, lane, c⟩ } := by
    rw [← hu, State.optDir_setOptDir_self]
  have hm : u.mcnt = s.mcnt := by
    rw [← hu, ← hm1]
    rfl
  have hcal' : (u.grp g).calibrating = false := by
    rw [← hu, State.setOptDir, State.grp_onGrp_self, hgrp1]
    rfl
  rw [State.optDir_remapStart, if_pos rfl, hdir, hm]
  refine ⟨(State.calibrating_remapStart _ _ _ _ _ _).trans hcal', rfl, rfl⟩

end Sys2Proof.Machine


/-!
PROOFS. The switch of a remap, the calibration of the spare, and the rows of the lane control channel (R168 to R173).
-/

namespace Sys2Proof.Machine

/-! ### The switch -/

theorem State.remapStart_frame (s : State) (g : Nat) (rx : Bool) (lane src dst : Nat) :
    Fr 0x8200000000000 s (s.remapStart g rx lane src dst) := State.remapStart_fr (Fr.refl _ _) rfl

/-- With nothing to move back and no lane waiting, nothing follows a switch. -/
theorem State.nextBack_rests {s : State} {g : Nat} {rx : Bool} (hr : (s.optDir g rx).remap = none) (hb : (s.optDir g rx).back = [])
    (hw : (s.optDir g rx).waiting = []) : s.nextBack g rx = s := by
  have hspare : s.nextSpare g rx = s := by
    unfold State.nextSpare
    dsimp only
    rw [hw]
    rfl
  unfold State.nextBack
  dsimp only
  rw [hr, hb, hspare]
  exact (if_neg (by decide)).trans (ite_self _)

/-- A direction as the switch of a remap leaves it. -/
def OptDir.switched (d : OptDir) (r : Remap) : OptDir :=
  let d0 := { d with bind := (d.bind.set r.src 31).set r.dst r.lane, remap := none, back := d.back.filter fun n => n.lane != r.lane }
  if r.src = 31 then d0
  else if r.src = d.spare then { d0 with holder := none }
  else match (d.holder.map SpareNeed.use).getD .feather with
    | .feather => { d0 with holder := none, spare := r.src }
    | .retire => { d0 with holder := none, spare := 31 }
    | _ => d0

theorem OptDir.switched_keeps (d : OptDir) (r : Remap) : (d.switched r).remap = none ∧ (d.switched r).waiting = d.waiting ∧
    (d.switched r).bind = (d.bind.set r.src 31).set r.dst r.lane ∧ (d.switched r).back = d.back.filter fun n => n.lane != r.lane := by
  unfold OptDir.switched
  dsimp only
  split
  · exact ⟨rfl, rfl, rfl, rfl⟩
  · split
    · exact ⟨rfl, rfl, rfl, rfl⟩
    · split <;> exact ⟨rfl, rfl, rfl, rfl⟩

/-- The lane moves, before what waits is looked at: the binding and the lane's state, then what the registers show. -/
def State.moved (s : State) (g : Nat) (rx : Bool) (r : Remap) : State :=
  (s.setOptDir g rx ((s.optDir g rx).switched r)).laneBack g r.lane

theorem State.moved_spec (s : State) (g : Nat) (rx : Bool) (r : Remap) :
    (s.moved g rx r).optDir g rx = (s.optDir g rx).switched r ∧ (∀ l ∈ ((s.moved g rx r).grp g).lanesDown, l ≠ r.lane) ∧
    ∀ f i, (s.moved g rx r).fld f i = s.fld f i := by
  refine ⟨(State.optDir_laneBack _ _ _ _).trans (s.optDir_setOptDir_self g rx _), fun l hl => ?_, fun _ _ => rfl⟩
  unfold State.moved State.laneBack at hl
  rw [State.grp_onGrp_self] at hl
  simpa [without] using (List.mem_filter.1 hl).2

/-- What the switch of a remap comes to where the lane moves. -/
theorem State.remapSwitch_moves {s : State} {g : Nat} {rx inTime : Bool} {r : Remap} (hr : (s.optDir g rx).remap = some r)
    (hin : (if r.asked then r.acked else inTime) = true) : ∃ u : State, s.remapSwitch g rx inTime = u.nextBack g rx ∧
    u.optDir g rx = (s.optDir g rx).switched r ∧ (u.grp g).lanesDown = ((s.moved g rx r).grp g).lanesDown ∧
    (rx = false → r.src ≠ (s.optDir g false).spare → r.src ≠ 31 →
      ((s.optDir g false).holder.map SpareNeed.use).getD .feather = .feather →
      u = (((s.moved g false r).setChanSt g r.dst csIN_SERVICE).setChanSt g r.src csSPARE).showBinding g) := by
  have hnot : ¬(r.asked && !r.acked) = true ∧ ¬(!r.asked && !inTime) = true := by
    cases ha : r.asked <;> simp [ha] at hin ⊢ <;> simp [hin]
  unfold State.remapSwitch
  extract_lets d use
  have hd : d.remap = some r := hr
  simp -zeta only [hd]
  rw [if_neg hnot.1, if_neg hnot.2]
  extract_lets bind back d0 d1 s1 src s2
  have h1 : s1 = s.moved g rx r := rfl
  have hregs : ∀ v : State, Fr 0x10000 s1 v → v.optDir g rx = s1.optDir g rx ∧ (v.grp g).lanesDown = (s1.grp g).lanesDown := fun v hv =>
    ⟨State.optDir_congr (hv.lanes_eq rfl) g rx, congrArg OptGroup.lanesDown (State.grp_congr (hv.lanes_eq rfl) g)⟩
  have hset : ∀ {v : State} (c st : Nat), Fr 0x10000 s1 v → Fr 0x10000 s1 (v.setChanSt g c st) := fun _ _ h => State.setChanSt_fr h rfl
  have h2 : s2.optDir g rx = s1.optDir g rx ∧ (s2.grp g).lanesDown = (s1.grp g).lanesDown := by
    unfold s2
    clear_value s1
    cases rx with
    | true =>
      rw [if_pos rfl]
      split
      · refine ⟨s1.optDir_onGrp g true rfl, ?_⟩
        rw [State.setOch, State.grp_onGrp_self]
      · exact ⟨rfl, rfl⟩
    | false =>
      rw [if_neg Bool.false_ne_true]
      refine hregs _ (State.showBinding_fr ?_ rfl)
      split
      · refine hset _ _ ?_
        split
        · exact Fr.refl _ _
        · exact hset _ _ (Fr.refl _ _)
      · clear_value use
        cases use with
        | feather => exact hset _ _ (hset _ _ (Fr.refl _ _))
        | cover | feed | retire => exact hset _ _ (Fr.refl _ _)
  refine ⟨s2, rfl, h2.1.trans (by rw [h1]; exact (s.moved_spec g rx r).1), h2.2.trans (by rw [h1]), ?_⟩
  rintro rfl hsrc h31 huse
  have hback : back = false := by
    unfold back d
    simp [hsrc, h31]
  have hfeather : use = SpareUse.feather := huse
  unfold s2
  rw [if_neg Bool.false_ne_true, hback, if_neg Bool.false_ne_true, hfeather, h1]

section
variable {s : State} {g : Nat} {rx inTime : Bool} {r : Remap} (hr : (s.optDir g rx).remap = some r)
  (hin : (if r.asked then r.acked else inTime) = true) (hw : (s.optDir g rx).waiting = []) (hb : (s.optDir g rx).back = [])
include hr hin hw hb

/-- A lane moves, and nothing waits. -/
theorem State.remapSwitch_alone : (s.remapSwitch g rx inTime).optDir g rx = (s.optDir g rx).switched r ∧
    ((s.remapSwitch g rx inTime).grp g).lanesDown = ((s.moved g rx r).grp g).lanesDown ∧
    (rx = false → r.src ≠ (s.optDir g false).spare → r.src ≠ 31 →
      ((s.optDir g false).holder.map SpareNeed.use).getD .feather = .feather → s.remapSwitch g rx inTime =
      (((s.moved g false r).setChanSt g r.dst csIN_SERVICE).setChanSt g r.src csSPARE).showBinding g) := by
  obtain ⟨u, hu, hdir, hdown, hfeather⟩ := State.remapSwitch_moves hr hin
  obtain ⟨hremap, hwait, -, hback⟩ := (s.optDir g rx).switched_keeps r
  have hrest : u.nextBack g rx = u := State.nextBack_rests (by rw [hdir, hremap]) (by rw [hdir, hback, hb]; rfl) (by rw [hdir, hwait, hw])
  rw [hu, hrest]
  exact ⟨hdir, hdown, hfeather⟩

end

theorem State.chanInst_inj {g c d : Nat} (h : c ≠ d) : chanInst g c ≠ chanInst g d := by
  unfold chanInst
  omega

theorem State.chanSt_setChanSt_ne (s : State) {g c d : Nat} (v : Nat) (h : c ≠ d) : (s.setChanSt g d v).chanSt g c = s.chanSt g c := by
  unfold State.setChanSt
  split
  · rfl
  · exact State.fld_setFld_inst _ _ _ _ _ _ (State.chanInst_inj h)

theorem State.chanSt_showBinding (s : State) (g c : Nat) : (s.showBinding g).chanSt g c = s.chanSt g c :=
  s.fld_showBinding_clear g _ _ (by decide) (by decide)

/-- After feathering the lane's channel is the spare. -/
theorem State.feathered_spec {s : State} {g : Nat} {r : Remap} {h : SpareNeed} (hh : (s.optDir g false).holder = some h)
    (huse : h.use = .feather) (hsrc : r.src ≠ (s.optDir g false).spare) (hs17 : r.src < 17) (hne : r.src ≠ r.dst)
    (hrs : s.chanSt g r.src ≠ csRETIRED) (hrd : s.chanSt g r.dst ≠ csRETIRED) {u : State}
    (hu : u = (((s.moved g false r).setChanSt g r.dst csIN_SERVICE).setChanSt g r.src csSPARE).showBinding g) :
    (u.optDir g false).spare = r.src ∧ (u.optDir g false).holder = none ∧ u.chanSt g r.dst = csIN_SERVICE ∧
    u.chanSt g r.src = csSPARE ∧ u.fld Reg.OPT_PG_STATUS_SPARE_CH g = r.src := by
  obtain ⟨hdir, -, hfld⟩ := s.moved_spec g false r
  have hswitched : ((s.optDir g false).switched r).spare = r.src ∧ ((s.optDir g false).switched r).holder = none := by
    unfold OptDir.switched
    rw [if_neg (by omega), if_neg hsrc, hh, Option.map_some, Option.getD_some, huse]
    exact ⟨rfl, rfl⟩
  have hst : ∀ c, (s.moved g false r).chanSt g c = s.chanSt g c := fun c => hfld _ _
  generalize s.moved g false r = m at hu hdir hst
  have hfr : Fr 0x10000 m ((m.setChanSt g r.dst csIN_SERVICE).setChanSt g r.src csSPARE) :=
    State.setChanSt_fr (State.setChanSt_fr (Fr.refl _ _) rfl) rfl
  have hdst : ((m.setChanSt g r.dst csIN_SERVICE).setChanSt g r.src csSPARE).chanSt g r.dst = csIN_SERVICE :=
    (State.chanSt_setChanSt_ne _ _ hne.symm).trans (State.chanSt_setChanSt (by rw [hst]; exact hrd) (by decide))
  have hsrc' : ((m.setChanSt g r.dst csIN_SERVICE).setChanSt g r.src csSPARE).chanSt g r.src = csSPARE :=
    State.chanSt_setChanSt (by rw [State.chanSt_setChanSt_ne _ _ hne, hst]; exact hrs) (by decide)
  generalize (m.setChanSt g r.dst csIN_SERVICE).setChanSt g r.src csSPARE = v at hu hfr hdst hsrc'
  have hv : v.optDir g false = (s.optDir g false).switched r := (State.optDir_congr (hfr.lanes_eq rfl) g false).trans hdir
  have hud : u.optDir g false = v.optDir g false := by
    rw [hu]
    exact State.optDir_congr ((State.showBinding_fr (Fr.refl 0x10000 v) rfl).lanes_eq rfl) g false
  have hshown : u.fld Reg.OPT_PG_STATUS_SPARE_CH g = (v.optDir g false).spare % 2 ^ 5 := by
    rw [hu]
    exact State.fld_setFld_self _ _ _ _ (by decide)
  rw [hud, hshown, hv, hswitched.1, hu, State.chanSt_showBinding, State.chanSt_showBinding]
  exact ⟨rfl, hswitched.2, hdst, hsrc', Nat.mod_eq_of_lt (by omega)⟩

/-! ### Calibration that ends -/

/-- The receive ring's calibration after a short or good time in service. -/
theorem State.rxCalDone_low {s : State} {g c : Nat} (h : (s.och g c).bits / 32640 * 1542 < 10000000000) : s.rxCalDone g c =
    (((s.setFld Reg.OPT_LANE_STATUS_RESID_LOG (chanInst g c) (residLog (s.och g c).bits (s.och g c).corrected)).setFld
      Reg.OPT_LANE_STATUS_HIGH_CAL (chanInst g c) 0).setOch g c
        { s.och g c with bits := 0, corrected := 0, rxCal := (s.och g c).rxHeater }).lccSend g 4 (c * 2 ^ 14) := by
  have hlong : decide (10000000000 ≤ (s.och g c).bits / 32640 * 1542) = false := decide_eq_false (by omega)
  unfold State.rxCalDone
  dsimp only
  rw [hlong, Bool.false_and, if_neg Bool.false_ne_true, if_neg (by decide)]

end Sys2Proof.Machine


/-!
PROOFS. A channel over threshold that is retired, and the rows of the lane control channel (R164 to R173).
-/

namespace Sys2Proof.Machine

/-! ### A channel that is retired -/

theorem Reg.retires_clear : Reg.OPT_LANE_STATUS_STATE.clearOf Reg.OPT_LANE_STATUS_HIGH_CAL = true := by decide

/-- With no channel retired, the receive spare is retired and no spare is left. -/
theorem State.retireChan_spare {s : State} {g c : Nat} (hnone : ((List.range 17).all fun i => s.chanSt g i != csRETIRED) = true)
    (hspare : (s.optDir g true).spare = c) : ((s.retireChan g c).optDir g true).spare = 31 ∧ (s.retireChan g c).chanSt g c = csRETIRED ∧
    ∀ i, (s.retireChan g c).fld Reg.OPT_LANE_STATUS_HIGH_CAL i = s.fld Reg.OPT_LANE_STATUS_HIGH_CAL i := by
  have hany : ((List.range 17).any fun i => s.chanSt g i == csRETIRED) = false := by
    simp only [List.all_eq_true, bne_iff_ne, List.any_eq_false, beq_iff_eq] at hnone ⊢
    exact hnone
  unfold State.retireChan
  extract_lets at_ lane detail none_ src s0 s1 leave
  rw [if_neg (by unfold none_; rw [hany]; decide)]
  have h0 : s.Rebinds s0 := s.rebinds_raise _ _ _
  have hdir0 : s0.optDir g true = s.optDir g true := State.optDir_congr ((s.raise_keeps _ _ _).lanes_eq rfl) g true
  clear_value s0
  have h1 : s1.chanSt g c = csRETIRED ∧ (s1.optDir g true).spare = c ∧
      ∀ i, s1.fld Reg.OPT_LANE_STATUS_HIGH_CAL i = s.fld Reg.OPT_LANE_STATUS_HIGH_CAL i := by
    have hv : ∃ v : State, s1 = v.setFld Reg.OPT_LANE_STATUS_STATE (chanInst g c) csRETIRED ∧ s.Rebinds v ∧ v.optDir g true = s.optDir g true := by
      refine ⟨_, rfl, ?_, ?_⟩
      · split
        · exact h0
        · exact h0.trans (State.rebinds_healthAdd _ _ _)
      · split
        · exact hdir0
        · exact (State.optDir_congr ((State.healthAdd_fr (Fr.refl _ s0) (Sub.refl _)).lanes_eq rfl) g true).trans hdir0
    obtain ⟨v, hv, hb, hdir⟩ := hv
    have hdirv : s1.optDir g true = v.optDir g true := by rw [hv]; rfl
    refine ⟨by rw [hv]; exact State.fld_setFld_self _ _ _ _ (by decide), by rw [hdirv, hdir, hspare], fun i => ?_⟩
    rw [hv, State.fld_setFld_clear _ _ _ _ _ _ Reg.retires_clear, hb.fld _ _ (by decide)]
  obtain ⟨hst1, hsp1, hhigh1⟩ := h1
  clear_value s1
  have hleave : s1.Rebinds (leave false s1) ∧ (leave false s1).optDir g true = s1.optDir g true := by
    unfold leave
    dsimp only
    split
    · exact ⟨s1.rebinds_setOptDir g false _, s1.optDir_setOptDir_other g false _⟩
    · split
      · split
        · exact ⟨.rfl, rfl⟩
        · exact ⟨s1.rebinds_seekSpare g false _, s1.other_seekSpare g false _⟩
      · exact ⟨.rfl, rfl⟩
  have hlast : leave true (leave false s1) = (leave false s1).setOptDir g true { (leave false s1).optDir g true with spare := 31 } :=
    if_pos (by rw [hleave.2, hsp1])
  rw [hlast]
  generalize leave false s1 = u at hleave
  obtain ⟨hb, -⟩ := hleave
  have hb2 := hb.trans (u.rebinds_setOptDir g true { u.optDir g true with spare := 31 })
  refine ⟨?_, ?_, fun i => ?_⟩
  · rw [State.optDir_congr ((State.showBinding_fr (Fr.refl 0x10000 _) rfl).lanes_eq rfl), State.optDir_setOptDir_self]
  · rw [State.chanSt_showBinding, hb2.chanSt, hst1]
  · rw [State.fld_showBinding_clear _ _ _ _ (by decide) (by decide), hb2.fld _ _ (by decide), hhigh1]

/-- The third residual error ratio in a row over threshold retires the spare that was calibrated. -/
theorem State.rxCalDone_retires {s : State} {g c : Nat} (hspare : (s.optDir g true).spare = c)
    (hlong : 10000000000 ≤ (s.och g c).bits / 32640 * 1542)
    (hratio : (s.och g c).bits < (s.och g c).corrected * 10 ^ s.fld Reg.OPT_FEATHER_CFG_RETIRE_EXP)
    (hhigh : 2 ≤ s.fld Reg.OPT_LANE_STATUS_HIGH_CAL (chanInst g c))
    (hnone : ((List.range 17).all fun i => s.chanSt g i != csRETIRED) = true) :
    (s.rxCalDone g c).fld Reg.OPT_LANE_STATUS_HIGH_CAL (chanInst g c) = 3 ∧ (s.rxCalDone g c).chanSt g c = csRETIRED ∧
    ((s.rxCalDone g c).optDir g true).spare = 31 := by
  unfold State.rxCalDone
  extract_lets x i long high n s1 s2
  have hn : n = 3 := by
    unfold n high long x
    rw [decide_eq_true hlong, decide_eq_true hratio, Bool.true_and, if_pos rfl]
    exact Nat.min_eq_left (Nat.succ_le_succ hhigh)
  have hst1 : ∀ c, s1.chanSt g c = s.chanSt g c := fun c => (State.fld_setOch _ _ _ _ _ _).trans
    ((State.fld_setFld_clear _ _ _ _ _ _ (by decide)).trans (State.fld_setFld_clear _ _ _ _ _ _ (by decide)))
  have hdir1 : (s1.optDir g true).spare = c := by
    unfold s1
    rw [State.setOch, State.optDir_onGrp _ _ _ rfl]
    refine (congrArg OptDir.spare (State.optDir_congr (s := s) ?_ g true)).trans hspare
    rfl
  have hhigh1 : s1.fld Reg.OPT_LANE_STATUS_HIGH_CAL i = 3 := by
    unfold s1
    rw [hn, State.fld_setOch]
    exact State.fld_setFld_self _ _ _ _ (by decide)
  have h2 : s2 = s1.retireChan g c := if_pos hn
  clear_value s1
  obtain ⟨hsp, hret, hcal⟩ := State.retireChan_spare (s := s1) (by simpa only [hst1] using hnone) hdir1
  have hb := s2.rebinds_lccSend g 4 (c * 2 ^ 14)
  rw [State.optDir_lccSend, hb.chanSt, hb.fld _ _ (by decide), h2, hcal]
  exact ⟨hhigh1, hret, hsp⟩

/-- Settles O32: each row's result is read in the state that knows the word, or after the group's step. -/
theorem laneControlRows : Obligations.LaneControlRows := by
  refine ⟨?_, ?_, ?_, ?_, ?_, ?_, ?_, ?_, ?_, ?_, ?_, ?_, ?_, ?_, ?_, ?_, ?_, ?_, ?_, ?_, ?_⟩
  case refine_1 =>
    intro s g seq arg hco hheard hdst hlane hsrc hbound hret hnone hthere
    obtain ⟨f, p, q, hexec, heq⟩ := lccRemap_announced hheard hdst hlane hsrc hret hbound hnone hthere
    refine ⟨_, hexec, ?_⟩
    obtain ⟨hseq, hseen⟩ := (s.lccNoted g 1 seq).lccSeq_setOptDir g true { s.optDir g true with
      remap := some ⟨argLane arg, argSrc arg, argDst arg, argMcnt arg, false, true⟩ }
    obtain ⟨hdir, hout, hseen', hsame⟩ := State.lccReply_spec hco heq (State.onGrp_fr (s.lccNoted_frame g 1 seq) rfl)
      (hseq.trans (by rw [State.grp_lccNoted]))
    refine ⟨by rw [hdir, State.optDir_setOptDir_self], hout, ?_, hsame⟩
    rw [hseen', hseen, State.grp_lccNoted]
    rfl
  case refine_2 =>
    intro s g seq arg hco hheard hdst hlane hsrc hbound hret hnone hspare hholder
    obtain ⟨f, p, q, hexec, heq⟩ := lccRemap_asked hheard hdst hlane hsrc hret hbound hnone hspare hholder
    refine ⟨_, hexec, ?_⟩
    obtain ⟨hseq, -⟩ := (s.lccNoted g 1 seq).lccSeq_setOptDir g false { s.optDir g false with
      remap := some ⟨argLane arg, argSrc arg, argDst arg, argMcnt arg, false, true⟩
      holder := some ⟨.cover, argLane arg, argSrc arg⟩ }
    obtain ⟨hdir, hout, -, hsame⟩ := State.lccReply_spec hco heq (State.onGrp_fr (s.lccNoted_frame g 1 seq) rfl)
      (hseq.trans (by rw [State.grp_lccNoted]))
    exact ⟨by rw [hdir, State.optDir_setOptDir_self], by rw [hdir, State.optDir_setOptDir_self], hout, hsame⟩
  case refine_3 =>
    intro s g seq arg asks hheard h
    obtain ⟨f, hexec, heq⟩ := lccRemap_refused asks hheard h
    refine ⟨_, hexec, ?_⟩
    cases hco : s.coreOff
    · rw [State.inPool_of_setts hco (by rw [heq]; rfl), heq]
      exact ⟨fun rx => s.optDir_lccNoted g 1 seq rx, (s.lccNoted_frame g 1 seq).within (by decide +kernel)⟩
    · have hoff : s.inPool f = s := if_pos hco
      rw [hoff]
      exact ⟨fun _ => rfl, (Fr.refl 0 s).within (by decide +kernel)⟩
  case refine_4 =>
    intro s g typ seq arg asks c hnot hc
    simp only [List.mem_cons, Prod.mk.injEq, List.not_mem_nil, or_false] at hc
    rcases hc with ⟨rfl, rfl⟩ | ⟨rfl, rfl⟩ | ⟨rfl, rfl⟩ | ⟨rfl, rfl⟩
    · exact ⟨_, rfl, State.inPool_of_same (State.lccAccept_of_not hnot _)⟩
    · exact ⟨_, rfl, State.inCore_of_same (State.lccAccept_of_not hnot _)⟩
    · exact ⟨_, rfl, State.inPool_of_same (State.lccAccept_of_not hnot _)⟩
    · exact ⟨_, rfl, State.inCore_of_same (State.lccAccept_of_not hnot _)⟩
  case refine_5 =>
    intro s g seq arg r hco hheard hother hr hasked hacked harg hlo hhi
    obtain ⟨f, p, hexec, heq⟩ := lccAck_inTime hheard hother hr hasked hacked harg hlo hhi
    refine ⟨_, hexec, ?_⟩
    beta_reduce
    rw [State.inCore_on hco, heq, State.optDir_lccAcked, State.optDir_setOptDir_self]
    have hfr : Fr 0x200000000000 s (((s.lccNoted g 2 seq).setOptDir g false { s.optDir g false with
        remap := some { r with acked := true } }).lccAcked g 1 p) := State.onGrp_fr (State.onGrp_fr (s.lccNoted_frame g 2 seq) rfl) rfl
    exact ⟨rfl, hfr.within (by decide +kernel)⟩
  case refine_6 =>
    intro s g seq arg r hco hheard hother hr hasked hacked harg hlate
    obtain ⟨f, p, hexec, heq⟩ := lccAck_late hheard hother hr hasked hacked harg hlate
    refine ⟨_, hexec, ?_⟩
    beta_reduce
    rw [State.inCore_on hco, heq, State.optDir_remapStart, if_pos rfl]
    have hfr : Fr 0x8200000000000 s (((s.lccNoted g 2 seq).lccAcked g 1 p).remapStart g false r.lane r.src r.dst) :=
      State.remapStart_fr ((State.onGrp_fr (s.lccNoted_frame g 2 seq) rfl).weaken rfl) rfl
    refine ⟨?_, hfr.within (by decide +kernel)⟩
    rw [← hasked, ← hacked]
    rfl
  case refine_7 =>
    intro s g seq arg c hco hheard hc hu hn hh hw
    obtain ⟨f, hexec, hlock, hholder, halias⟩ := lccTxAlias_spec hheard hc hu hn hh hw
    refine ⟨_, hexec, ?_⟩
    beta_reduce
    rw [State.inPool_on hco, State.flag_pooled_opt _ _ _ _ rfl, State.optDir_pooled, State.fld_pooled_opt _ _ _ _ rfl]
    exact ⟨hlock, hholder, halias⟩
  case refine_8 =>
    intro s g seq arg hco hheard hcal hhere hspare
    obtain ⟨f, hexec, heq⟩ := lccCalDone_eq hheard hcal hspare
    refine ⟨_, hexec, ?_⟩
    beta_reduce
    have hgrp : ((s.lccNoted g 4 seq).onGrp g fun x => { x with calFar := true }).grp g =
        { (s.lccNoted g 4 seq).grp g with calFar := true } := State.grp_onGrp_self _ _ _
    rw [State.inCore_on hco, heq, State.featherNext_waits (.inl (by rw [hgrp, State.grp_lccNoted]; exact hhere)), hgrp, State.grp_lccNoted]
    have hfr : Fr 0x200000000000 s ((s.lccNoted g 4 seq).onGrp g fun x => { x with calFar := true }) :=
      State.onGrp_fr (s.lccNoted_frame g 4 seq) rfl
    exact ⟨rfl, hcal, hfr.within (by decide +kernel)⟩
  case refine_9 =>
    intro s g seq arg c hco hheard hcal hhere hspare hnext
    obtain ⟨f, hexec, heq⟩ := lccCalDone_eq hheard hcal hspare
    refine ⟨_, hexec, ?_⟩
    beta_reduce
    rw [State.inCore_on hco, heq]
    have hgrp : ((s.lccNoted g 4 seq).onGrp g fun x => { x with calFar := true }).grp g =
        { (s.lccNoted g 4 seq).grp g with calFar := true } := State.grp_onGrp_self _ _ _
    have hdir : ((s.lccNoted g 4 seq).onGrp g fun x => { x with calFar := true }).optDir g false = s.optDir g false :=
      (State.optDir_onGrp _ g false rfl).trans (s.optDir_lccNoted g 4 seq false)
    have hm : ((s.lccNoted g 4 seq).onGrp g fun x => { x with calFar := true }).mcnt = s.mcnt := rfl
    generalize ((s.lccNoted g 4 seq).onGrp g fun x => { x with calFar := true }) = u at hgrp hdir hm ⊢
    rw [State.grp_lccNoted] at hgrp
    rw [← hdir, ← hm]
    exact State.featherNext_moves (by rw [hgrp]; exact hcal) (by rw [hgrp]; exact hhere) (by rw [hgrp]) (by rw [hdir]; exact hnext)
  case refine_10 =>
    refine fun s g hco => ⟨_, rfl, ?_⟩
    beta_reduce
    rw [State.inCore_on hco]
    generalize (s.grp g).lccOut = l
    have hout : (l.foldl (fun (s : State) (m : LccMsg) => s.emit (.lcc g (lccWord m.typ m.seq m.arg))) s).out =
        s.out ++ l.map fun m => Out.lcc g (lccWord m.typ m.seq m.arg) := by
      induction l generalizing s with
      | nil => exact (List.append_nil _).symm
      | cons m l ih => exact (ih _ (by exact hco)).trans (by simp [State.emit])
    have hfr : Fr 0x8000000000000 s (l.foldl (fun (s : State) (m : LccMsg) => s.emit (.lcc g (lccWord m.typ m.seq m.arg))) s) :=
      Fr.foldl (Fr.refl _ _) fun t m ht => State.emit_fr ht rfl
    exact ⟨hout, hfr.within (by decide +kernel)⟩
  case refine_11 =>
    refine fun s g rx inTime r hco hr hasked hacked => ⟨_, rfl, ?_⟩
    have heq : s.remapSwitch g rx inTime = s.remapStart g rx r.lane r.src r.dst := by
      unfold State.remapSwitch
      dsimp only
      rw [hr]
      exact if_pos (by rw [hasked, hacked]; rfl)
    have hfr := s.remapStart_frame g rx r.lane r.src r.dst
    beta_reduce
    rw [State.inPool_of_setts hco (by rw [heq]; exact hfr.sett_eq rfl)]
    beta_reduce
    rw [heq, State.optDir_remapStart, if_pos rfl]
    refine ⟨?_, rfl, hfr.within (by decide +kernel)⟩
    rw [← hasked, ← hacked]
  case refine_12 =>
    refine fun s g rx r hco hr hasked => ⟨_, rfl, ?_⟩
    have heq : s.remapSwitch g rx false = s.setOptDir g rx { s.optDir g rx with remap := none } := by
      unfold State.remapSwitch
      dsimp only
      rw [hr]
      exact (if_neg (by rw [hasked, Bool.false_and]; decide)).trans (if_pos (by rw [hasked]; rfl))
    exact (State.inPool_of_setts hco (by rw [heq]; rfl)).trans heq
  case refine_13 =>
    refine fun s g rx inTime r hco hr hin hw hb => ⟨_, rfl, ?_⟩
    obtain ⟨hdir, hdown, -⟩ := State.remapSwitch_alone hr hin hw hb
    obtain ⟨hremap, -, hbind, -⟩ := (s.optDir g rx).switched_keeps r
    beta_reduce
    rw [State.inPool_on hco, State.optDir_pooled, State.grp_pooled]
    beta_reduce
    rw [hdir, hdown]
    exact ⟨hremap, hbind, (s.moved_spec g rx r).2.1⟩
  case refine_14 =>
    refine fun s g inTime r h hco hr hin hw hb hh huse hsrc hs17 hd17 hne hrs hrd => ⟨_, rfl, ?_⟩
    obtain ⟨-, -, hfeather⟩ := State.remapSwitch_alone hr hin hw hb
    beta_reduce
    rw [State.inPool_on hco, State.optDir_pooled, State.chanSt_pooled, State.chanSt_pooled, State.fld_pooled_opt _ _ _ _ rfl]
    exact State.feathered_spec hh huse hsrc hs17 hne hrs hrd
      (hfeather rfl hsrc (by omega) (by rw [hh, Option.map_some, Option.getD_some, huse]))
  case refine_15 =>
    refine fun s g rx inTime h => ⟨_, rfl, State.inPool_of_same ?_⟩
    unfold State.remapSwitch
    dsimp only
    rw [h]
  case refine_16 =>
    refine fun s g hco hst hfe hsp hh hr hcal => ⟨_, rfl, ?_⟩
    have heq : s.featherStep g = (s.onGrp g fun x => { x with calibrating := true, calHere := false, calFar := false }).setChanSt g
        (s.optDir g false).spare csCALIBRATING := by
      unfold State.featherStep
      dsimp only
      refine if_pos ?_
      rw [hst, hfe, hh, hr, hcal]
      simpa using hsp
    beta_reduce
    rw [State.inCore_on hco, heq, State.grp_congr ((State.setChanSt_fr (Fr.refl 0x10000 _) rfl).lanes_eq rfl), State.grp_onGrp_self]
    exact ⟨rfl, rfl, rfl, fun hret => State.chanSt_setChanSt hret (by decide)⟩
  case refine_17 =>
    refine fun s g h => ⟨_, rfl, State.inCore_of_same ?_⟩
    unfold State.featherStep
    dsimp only
    refine if_neg ?_
    simp only [Bool.and_eq_true, decide_eq_true_eq, bne_iff_ne, Option.isNone_iff_eq_none, Bool.not_eq_true']
    rintro ⟨⟨⟨⟨⟨hst, hfe⟩, hsp⟩, hh⟩, hr⟩, hcal⟩
    rcases h with h | h | h | h | h | h
    · exact h hst
    · exact absurd (hfe.symm.trans h) (by decide)
    · exact hsp h
    · exact h hh
    · exact h hr
    · exact absurd (hcal.symm.trans h) (by decide)
  case refine_18 =>
    refine fun s g c hco hst hcal hfar => ⟨_, rfl, ?_⟩
    have heq : s.featherCalDone g false c = s.onGrp g fun x => { x with calHere := true } := by
      unfold State.featherCalDone
      rw [if_neg (by rw [hst]; decide), if_neg Bool.false_ne_true, if_pos hcal]
      exact State.featherNext_waits (.inr (by rw [State.grp_onGrp_self]; exact hfar))
    exact (State.inPool_of_setts hco (by rw [heq]; rfl)).trans heq
  case refine_19 =>
    refine fun s g c hco hst hc hshort => ⟨_, rfl, ?_⟩
    have heq : s.featherCalDone g true c = s.rxCalDone g c := by
      unfold State.featherCalDone
      rw [if_neg (by rw [hst]; decide), if_pos rfl, if_pos (.inl hc)]
    rw [State.rxCalDone_low hshort] at heq
    have hF : okBlk 0x8200000010000 .opt = true := rfl
    generalize hu : ((s.setFld Reg.OPT_LANE_STATUS_RESID_LOG (chanInst g c) (residLog (s.och g c).bits (s.och g c).corrected)).setFld
      Reg.OPT_LANE_STATUS_HIGH_CAL (chanInst g c) 0).setOch g c
        { s.och g c with bits := 0, corrected := 0, rxCal := (s.och g c).rxHeater } = u at heq
    have hufr : Fr 0x8200000010000 s u := by
      rw [← hu]
      exact State.onGrp_fr (State.setFld_fr (State.setFld_fr (Fr.refl _ _) hF) hF) rfl
    have hfr : Fr 0x8200000010000 s (u.lccSend g 4 (c * 2 ^ 14)) := State.lccSend_fr hufr rfl
    have hresid : u.fld Reg.OPT_LANE_STATUS_RESID_LOG (chanInst g c) = residLog (s.och g c).bits (s.och g c).corrected % 256 := by
      rw [← hu, State.fld_setOch, State.fld_setFld_clear _ _ _ _ _ _ (by decide)]
      exact State.fld_setFld_self _ _ _ _ (by decide)
    have hhigh : u.fld Reg.OPT_LANE_STATUS_HIGH_CAL (chanInst g c) = 0 := by
      rw [← hu, State.fld_setOch]
      exact State.fld_setFld_self _ _ _ _ (by decide)
    have hch : u.och g c = { s.och g c with bits := 0, corrected := 0, rxCal := (s.och g c).rxHeater } := by
      rw [← hu]
      exact State.och_setOch_self _ g c _
    have hseq : (u.grp g).lccSeq = (s.grp g).lccSeq ∧ u.out = s.out := by
      rw [← hu, State.setOch, State.grp_onGrp_self]
      exact ⟨rfl, rfl⟩
    have hb := u.rebinds_lccSend g 4 (c * 2 ^ 14)
    beta_reduce
    rw [State.inPool_of_setts hco (by rw [heq]; exact hfr.sett_eq rfl)]
    beta_reduce
    rw [heq, hb.fld _ _ (by decide), hb.fld _ _ (by decide), hb.och, hch]
    refine ⟨hresid, hhigh, rfl, rfl, ?_, hfr.within (by decide +kernel)⟩
    have hout (v : State) (a : Nat) : (v.lccSend g 4 a).out = v.out ++ [Out.lcc g (lccWord 4 (v.grp g).lccSeq a)] := rfl
    rw [hout, hseq.1, hseq.2]
  case refine_20 =>
    refine fun s g c hco hst hc h17 hlong hratio hhigh hnone => ⟨_, rfl, ?_⟩
    have heq : s.featherCalDone g true c = s.rxCalDone g c := by
      unfold State.featherCalDone
      rw [if_neg (by rw [hst]; decide), if_pos rfl, if_pos (.inl hc)]
    beta_reduce
    rw [State.inPool_on hco, State.fld_pooled_opt _ _ _ _ rfl, State.chanSt_pooled, State.optDir_pooled]
    beta_reduce
    rw [heq]
    exact State.rxCalDone_retires hc.symm hlong hratio hhigh hnone
  case refine_21 => exact fun s g c rx h => ⟨_, rfl, State.inPool_of_same (if_pos h)⟩

end Sys2Proof.Machine


/-!
PROOFS. Electrical lanes, and links that come up and go down (R50, R63, R171 to R177, R204, R447).
-/

namespace Sys2Proof.Machine

/-! ### A lane that trains -/

theorem State.coreOff_of_laneOn {s : State} {l : Nat} (h : s.laneOn l = true) : s.coreOff = false := by
  unfold State.laneOn at h
  simp only [Bool.and_eq_true, Bool.not_eq_true'] at h
  exact h.1.1

/-- The core voltage at its floor, and then a lane's training. -/
theorem State.trains_spec (s : State) (l : Nat) : (s.liftCore.setLaneSt l 2).laneSt l = 2 ∧ Fr 0x8000400420000 s (s.liftCore.setLaneSt l 2) :=
  ⟨(State.laneSt_setLaneSt _ _ _ (by decide)).trans (if_pos rfl), State.setFld_fr (s.liftCore_frame.weaken rfl) (show okBlk _ Blk.eln = true from rfl)⟩

/-- A state whose count of training failures of a lane is another. -/
def State.failsCounted (s : State) (l n : Nat) : State := { s with lanes := { s.lanes with trainFails := s.lanes.trainFails.put l n } }

theorem State.failsCounted_frame (s : State) (l n : Nat) : Fr 0x200000000000 s (s.failsCounted l n) := Fr.lanes_ (Fr.refl _ _) rfl

theorem State.trainFails_failsCounted (s : State) (l n : Nat) : (s.failsCounted l n).lanes.trainFails.find l = some n :=
  AMap.find_put_self _ _ _

/-- Training that has not finished in time: the failure is counted, and the third ends the training. -/
theorem State.trainTimeout_late {s : State} {l : Nat} (hon : s.laneOn l = true) (hst : s.laneSt l = 2)
    (hkind : s.fld Reg.ELN_OCT_CFG_KIND (l / 8) = 1) : (s.trainTimeout l).lanes.trainFails.find l = some (s.lanes.trainFails.getD l 0 + 1) ∧
    (s.trainTimeout l).laneSt l = (if s.lanes.trainFails.getD l 0 < 2 then 2 else 4) ∧
    (s.lanes.trainFails.getD l 0 = 2 → s.Records (s.trainTimeout l) Ev.ELN_TRAIN_FAIL l 0) := by
  generalize hn : s.lanes.trainFails.getD l 0 = n
  have heq : s.trainTimeout l = if n + 1 < 3 then s.failsCounted l (n + 1) else
      if n + 1 = 3 then ((s.failsCounted l (n + 1)).setLaneSt l 4).raise Ev.ELN_TRAIN_FAIL l 0 else (s.failsCounted l (n + 1)).setLaneSt l 4 := by
    unfold State.trainTimeout
    rw [if_neg (by rw [hon]; decide), if_neg (by rw [hst]; decide), if_pos ⟨hst, hkind⟩, hn]
    rfl
  have hfails := s.trainFails_failsCounted l (n + 1)
  have hfr := s.failsCounted_frame l (n + 1)
  have hst1 : (s.failsCounted l (n + 1)).laneSt l = 2 := hst
  generalize s.failsCounted l (n + 1) = u at heq hfails hfr hst1
  have hst4 : (u.setLaneSt l 4).laneSt l = 4 := (State.laneSt_setLaneSt _ _ _ (by decide)).trans (if_pos rfl)
  have hfails4 : (u.setLaneSt l 4).lanes.trainFails.find l = some (n + 1) := hfails
  have hfr4 : Fr 0x200000020000 s (u.setLaneSt l 4) := State.setFld_fr (hfr.weaken rfl) (show okBlk _ Blk.eln = true from rfl)
  have hevr := State.evr_raise_congr (hfr4.recordsAlike ⟨rfl, rfl, rfl, rfl⟩) Ev.ELN_TRAIN_FAIL l 0
  generalize u.setLaneSt l 4 = v at heq hst4 hfails4 hevr
  rw [heq]
  by_cases h3 : n + 1 < 3
  · rw [if_pos h3, if_pos (by omega)]
    exact ⟨hfails, hst1, fun h => by omega⟩
  · rw [if_neg h3, if_neg (show ¬n < 2 by omega)]
    by_cases h : n + 1 = 3
    · rw [if_pos h]
      have hk := v.raise_keeps Ev.ELN_TRAIN_FAIL l 0
      rw [hk.lanes_eq rfl]
      exact ⟨hfails4, (hk.fld_eq Reg.ELN_LANE_STATUS_STATE l rfl rfl).trans hst4, fun _ => hevr⟩
    · rw [if_neg h]
      exact ⟨hfails4, hst4, fun h2 => absurd h2 (by omega)⟩

/-! ### A link that comes up -/

theorem State.portUp_congr {s t : State} (h : t.swc.ports = s.swc.ports) (p : Nat) : t.portUp p = s.portUp p := by
  rw [State.portUp, State.portSt, h, State.portUp, State.portSt]

theorem State.portUp_setPortSt (s : State) (p : Nat) (x : PortState) : (s.setPortSt p x).portUp p = x.up :=
  congrArg PortState.up (AMap.getD_put_self _ _ _ _)

theorem State.showTraffic_frame (s : State) : Fr 0x8000400400000 s s.showTraffic := State.showTraffic_fr (Fr.refl _ _) rfl

theorem State.linkFresh_frame (s : State) (p : Nat) : Fr 0xc082000080000 s (s.linkFresh p) := State.linkFresh_fr (Fr.refl _ _) rfl

/-- Lanes that are put in one state, one after another. -/
theorem State.laneSt_lanesTo (ls : List Nat) (v l : Nat) (hv : v < 8) (s : State) :
    (ls.foldl (fun (s : State) l => s.setFld Reg.ELN_LANE_STATUS_STATE l v) s).laneSt l = if l ∈ ls then v else s.laneSt l := by
  induction ls generalizing s with
  | nil => rfl
  | cons m ls ih =>
    refine (ih _).trans ?_
    have hm : (s.setFld Reg.ELN_LANE_STATUS_STATE m v).laneSt l = if l = m then v else s.laneSt l := s.laneSt_setLaneSt m l hv
    rw [hm]
    by_cases h : l = m <;> simp [h]

/-- What the registers of a port that comes up show, before traffic and keys are looked at. -/
theorem State.portComesUp_spec (s : State) (p : Nat) : (s.portComesUp p).portUp p = true ∧
    (512 ≤ p → ∀ l ∈ s.elanes p, (s.portComesUp p).laneSt l = 3) := by
  unfold State.portComesUp
  extract_lets src s1 port s2
  have hkeep (u : State) : (u.showTraffic.linkFresh p).portUp p = u.portUp p ∧ ∀ l, (u.showTraffic.linkFresh p).laneSt l = u.laneSt l := by
    have hfr : Fr 0xc082400480000 u (u.showTraffic.linkFresh p) := State.linkFresh_fr (State.showTraffic_fr (Fr.refl _ _) rfl) rfl
    exact ⟨State.portUp_congr (congrArg SwcState.ports (hfr.swc_eq rfl)) p, fun l => hfr.fld_eq _ l rfl rfl⟩
  have hup1 : s1.portUp p = true := s.portUp_setPortSt p _
  have hl1 : s1.elanes p = s.elanes p := rfl
  obtain ⟨hup, hst⟩ := hkeep s2
  have h2 : s2.swc = s1.swc := by
    unfold s2
    split
    · rfl
    · exact foldl_keeps (f := fun (t : State) l => t.setFld Reg.ELN_LANE_STATUS_STATE l 3) (P := fun t : State => t.swc) (fun _ _ _ => rfl) s1
  refine ⟨hup.trans ((State.portUp_congr (congrArg SwcState.ports h2) p).trans hup1), fun hp l hl => (hst l).trans ?_⟩
  have hs2 : s2 = (s1.elanes p).foldl (fun s l => s.setFld Reg.ELN_LANE_STATUS_STATE l 3) s1 := if_neg (by omega)
  rw [hs2, State.laneSt_lanesTo _ _ _ (by decide), hl1, if_pos hl]

/-! ### A link that goes down -/

theorem State.settles_linkDrops {u : State} (p : Nat) : u.Settles ((u.flushPort p).llrReset p) := by
  have hflush : u.Settles (u.flushPort p) := by
    unfold State.flushPort
    refine .foldl _ (fun t q _ => ?_) u
    dsimp only
    refine .trans (State.Settles.of_eq (t := t.setOutq q _) rfl rfl) (.foldl _ (fun v d _ => ?_) _)
    exact (v.settles_settFrees _).trans (State.settles_swcCount _ _ _)
  refine hflush.trans ?_
  generalize u.flushPort p = v
  unfold State.llrReset
  split
  · exact .refl v
  · refine .trans (.foldl _ (fun t h _ => t.settles_settFrees _) v) (State.Settles.of_eq rfl rfl)

theorem State.portUp_linkDown {s : State} {p : Nat} (hup : s.portUp p = true) : (s.linkDown p).portUp p = false := by
  have hfalls : (s.linkFalls p).portUp p = false := by
    have h1 := s.portUp_setPortSt p { s.portSt p with up := false }
    unfold State.linkFalls
    dsimp only
    generalize s.setPortSt p { s.portSt p with up := false } = u at h1
    split
    · exact h1
    · refine (State.portUp_congr (s := u) ?_ p).trans h1
      exact foldl_keeps (f := fun (t : State) l => t.setFld Reg.ELN_LANE_STATUS_STATE l 5) (P := fun t : State => t.swc.ports) (fun _ _ _ => rfl) u
  have hdrops := (State.settles_linkDrops (u := s.linkFalls p) p).ports
  rw [State.linkDown_of_up hup]
  generalize ((s.linkFalls p).flushPort p).llrReset p = v at hdrops
  rw [State.portUp_congr (congrArg SwcState.ports ((State.showTraffic_frame _).swc_eq rfl))]
  have hv : v.portUp p = false := (State.portUp_congr hdrops p).trans hfalls
  split
  · rw [State.portUp_congr (congrArg SwcState.ports ((State.linkDrop_fr (Fr.refl _ v) (Sub.refl _)).swc_eq rfl))]
    exact hv
  · exact hv

theorem State.laneSt_lineRefresh (s : State) (g l : Nat) : (s.lineRefresh g).laneSt l = s.laneSt l :=
  (State.lineRefresh_fr (Fr.refl 0x2c0820700c0000 s) (Sub.refl _)).fld_eq _ l rfl rfl

theorem State.portUp_lineRefresh (s : State) (g p : Nat) : (s.lineRefresh g).portUp p = s.portUp p :=
  State.portUp_congr (congrArg SwcState.ports ((State.lineRefresh_fr (Fr.refl 0x2c0820700c0000 s) (Sub.refl _)).swc_eq rfl)) p

theorem State.laneSt_showTraffic (s : State) (l : Nat) : s.showTraffic.laneSt l = s.laneSt l := s.showTraffic_frame.fld_eq _ l rfl rfl

/-! ### LINK_UP and LINK_DOWN -/

/-- The line group that a link's lane belongs to, for a link that is an electrical lane. -/
theorem lineOf_none {s : State} {p : Nat} (h : p < 512 ∨ s.laneGroup (p - 512) = none) : (if 512 ≤ p then s.laneGroup (p - 512) else none) = none := by
  split
  · exact h.resolve_left (by omega)
  · rfl

theorem exec_linkUp_port {s : State} {p : Nat} (h : p < 512 ∨ s.laneGroup (p - 512) = none) :
    exec (.linkUp p) s = .next (s.inCore fun s => s.linkUp p) := by
  refine congrArg Host.Outcome.next ?_
  unfold State.inCore
  beta_reduce
  rw [lineOf_none h]

theorem exec_linkDown_port {s : State} {p : Nat} (h : p < 512 ∨ s.laneGroup (p - 512) = none) :
    exec (.linkDown p) s = .next (s.inPool fun s => s.linkDown p) := by
  refine congrArg Host.Outcome.next (State.inPool_congr ?_)
  rw [lineOf_none h]

theorem State.linkUp_rests {s : State} {p : Nat} (h : s.portUp p = true ∨ s.stage < 9 ∨ 576 ≤ p ∨ (p < 512 ∧ s.groupSt (p / 8) ≠ gsUP)) :
    s.linkUp p = s := by
  unfold State.linkUp
  split
  · rfl
  · next hup =>
    rcases h with h | h | h | ⟨h, hst⟩
    · exact absurd (.inl h) hup
    · exact absurd (.inr h) hup
    · rw [if_neg (by omega), if_neg (by omega)]
    · rw [if_pos h]
      exact if_neg (by simp [hst])

/-- Settles O33, clause by clause. -/
theorem electricalRows : Obligations.ElectricalRows := by
  refine ⟨?_, ?_, ?_, ?_, ?_, ?_, ?_, ?_, ?_, ?_, ?_, ?_, ?_⟩
  case refine_1 =>
    refine fun s l hon hst => ⟨_, rfl, ?_⟩
    have heq : s.trainTimeout l = s.liftCore.setLaneSt l 2 := by
      unfold State.trainTimeout
      rw [if_neg (by rw [hon]; decide), if_pos hst]
    obtain ⟨hlane, hfr⟩ := s.trains_spec l
    beta_reduce
    rw [State.inCore_on (State.coreOff_of_laneOn hon), heq]
    exact ⟨hlane, hfr.within (by decide +kernel)⟩
  case refine_2 =>
    refine fun s l hon hst hkind => ⟨_, rfl, ?_⟩
    beta_reduce
    rw [State.inCore_on (State.coreOff_of_laneOn hon)]
    exact State.trainTimeout_late hon hst hkind
  case refine_3 =>
    refine fun s l h => ⟨_, rfl, State.inCore_of_same ?_⟩
    unfold State.trainTimeout
    rcases h with h | ⟨h4, h⟩
    · rw [h]
      rfl
    · split
      · rfl
      · refine if_neg ?_
        rintro ⟨h2, hkind⟩
        exact h.elim (fun h => h h2) fun h => h hkind
  case refine_4 =>
    refine fun s l hon hforced hst => ⟨_, rfl, ?_⟩
    have heq : s.energy l true = (s.failsCounted l 0).liftCore.setLaneSt l 2 := by
      unfold State.energy
      refine if_pos ?_
      rw [hon]
      simpa [hforced] using hst
    obtain ⟨hlane, hfr⟩ := (s.failsCounted l 0).trains_spec l
    have hlanes : ((s.failsCounted l 0).liftCore.setLaneSt l 2).lanes = (s.failsCounted l 0).lanes := hfr.lanes_eq rfl
    have hall : Fr 0x8200400420000 s ((s.failsCounted l 0).liftCore.setLaneSt l 2) :=
      Fr.trans ((s.failsCounted_frame l 0).weaken rfl) (hfr.weaken rfl)
    beta_reduce
    rw [State.inCore_on (State.coreOff_of_laneOn hon), heq, hlanes]
    exact ⟨hlane, s.trainFails_failsCounted l 0, hall.within (by decide +kernel)⟩
  case refine_5 =>
    refine fun s l found h => ⟨_, rfl, State.inCore_of_same (if_neg ?_)⟩
    simp only [Bool.and_eq_true, Bool.or_eq_true, bne_iff_ne, beq_iff_eq]
    rintro ⟨⟨⟨hon, hfound⟩, hforced⟩, hst⟩
    rcases h with h | h | h | ⟨h1, h5⟩
    · exact absurd (hfound.symm.trans h) (by decide)
    · exact absurd (hon.symm.trans h) (by decide)
    · exact hforced h
    · exact hst.elim h1 h5
  case refine_6 =>
    refine fun s p hco hstage hp hup hst hw hdown hby => ⟨_, exec_linkUp_port (.inl hp), ?_⟩
    have heq : s.linkUp p = s.portComesUp p := by
      unfold State.linkUp
      rw [if_neg (by rw [hup]; simp; omega), if_pos hp]
      refine if_pos ?_
      simp only [hst, hby, hw, Bool.and_eq_true, List.all_eq_true, List.mem_range, Bool.not_eq_true', decide_eq_false_iff_not]
      exact ⟨⟨⟨rfl, rfl⟩, hdown⟩, trivial⟩
    beta_reduce
    rw [State.inCore_on hco, heq]
    exact (s.portComesUp_spec p).1
  case refine_7 =>
    refine fun s p hco hstage hp hp' hup hnone hport hlanes => ⟨_, exec_linkUp_port (.inr hnone), ?_⟩
    have heq : s.linkUp p = s.portComesUp p := by
      unfold State.linkUp
      rw [if_neg (by rw [hup]; simp; omega), if_neg (by omega), if_pos hp']
      dsimp only
      rw [hnone, if_neg (by decide), hport, Bool.true_and]
      refine if_pos ?_
      simp only [List.all_eq_true, Bool.or_eq_true, beq_iff_eq]
      exact hlanes
    obtain ⟨hcomes, hst⟩ := s.portComesUp_spec p
    beta_reduce
    rw [State.inCore_on hco, heq]
    exact ⟨hcomes, fun l hl _ => hst hp l hl⟩
  case refine_8 =>
    refine fun s p g hstage hp hp' hup hg hon hst => ⟨_, rfl, ?_⟩
    have heq : s.linkUp p = (s.setLaneSt (p - 512) 3).showTraffic := by
      unfold State.linkUp
      rw [if_neg (by rw [hup]; simp; omega), if_neg (by omega), if_pos hp']
      dsimp only
      rw [hg, if_pos (show (some g).isSome = true from rfl), hon, Bool.true_and]
      exact if_pos (by simpa using hst)
    beta_reduce
    rw [State.inCore_on (State.coreOff_of_laneOn hon), if_pos hp, hg]
    dsimp only
    rw [State.laneSt_lineRefresh, heq, State.laneSt_showTraffic, State.laneSt_setLaneSt _ _ _ (by decide), if_pos rfl]
  case refine_9 =>
    refine fun s p hup => ⟨_, rfl, ?_⟩
    beta_reduce
    cases hco : s.coreOff
    · rw [State.inCore_on hco, State.linkUp_rests (.inl hup)]
      split
      · rw [State.portUp_lineRefresh, hup]
      · exact hup
    · rw [State.inCore, hco]
      exact hup
  case refine_10 =>
    exact fun s p hnone h => ⟨_, exec_linkUp_port hnone, State.inCore_of_same (State.linkUp_rests h)⟩
  case refine_11 =>
    refine fun s p hco hnone hup => ⟨_, exec_linkDown_port hnone, ?_⟩
    exact (State.portUp_congr (State.settles_inPool (f := fun s => s.linkDown p) hco).ports p).trans (State.portUp_linkDown hup)
  case refine_12 =>
    exact fun s p hnone hup => ⟨_, exec_linkDown_port hnone, State.inPool_of_same (State.linkDown_of_down hup)⟩
  case refine_13 =>
    refine fun s p g hco hp hg hst => ⟨_, rfl, ?_⟩
    beta_reduce
    rw [State.inPool_on hco, State.laneSt, State.fld_pooled_eln _ _ _ _ rfl]
    beta_reduce
    rw [if_pos hp, hg]
    dsimp only
    rw [if_pos hst]
    refine (State.laneSt_lineRefresh _ g (p - 512)).trans ?_
    rw [State.laneSt_showTraffic, State.laneSt_setLaneSt _ _ _ (by decide), if_pos rfl]

end Sys2Proof.Machine


/-!
PROOFS. The end of a bypass (R213) whose record names a port group beyond the optical ones.
-/

namespace Sys2Proof.Machine

/-- A BYPASS descriptor that ends the bypass of leaves 1 and 2 at time 0. -/
def endBypass : Bytes := [6] ++ zeros 15 ++ [1, 0, 2, 0, 1] ++ zeros 43

/-- The pair of leaves 1 and 2, with the one port group 75, whose first port is numbered 600. -/
def farPair : Bytes := [0x16, 0, 0, 0, 5, 0, 0, 0, 1, 0, 2, 0, 1, 0, 0, 0, 75] ++ zeros 15

/-- That descriptor as it is taken from slot 0 of ring 0. -/
def endBypassOp : Op := { key := ⟨0, 0⟩, fn := 0, desc := endBypass, phase := .taken }

/-- The pair is in force. No port below 512 is up; port 600 is, with a frame queued in sett 0. A collective output waits for setts, and
a collective operation of the same descriptor has no chunk left to do. -/
def endingBypass : State :=
  let s : State := { State.reset with boot := { State.reset.boot with porst := false, railOrder := [0, 1, 2, 3, 4, 5, 6, 7] } }
  let u := (s.setCox 0 roleACTIVE 0).setGroupSt 75 gsWATCH
  { u with
    hif := { u.hif with
      rings := [(0, { kind := kindBYPASS, enabled := true, dev := 1, host := 1, taken := [0] })], ops := [(⟨0, 0⟩, endBypassOp)] }
    sett := { u.sett with setts := [(0, ⟨0, 1⟩)] }
    swc := { u.swc with
      tab := [((0x16, 5), farPair)], bypassed := [5], bypassMarks := [(5, [75])]
      ports := [(600, { up := true })], queues := [(4800, { deps := [{ frame := [], setts := [0] }] })] }
    tpt := { u.tpt with parked := [.output 0 0 0 []] }
    col := { u.col with
      ops := [((0, 0), { group := 0, seq := 0, code := 0, spec := none, chunks := 0, param := 0, desc := some ⟨0, 0⟩ })] } }

/-- What the command leaves of the operation at `k`, where it answers a next state. -/
def underWayAfter (c : Instr) (s : State) (k : OpKey) : Bool :=
  match exec c s with
  | .next t => t.underWay k
  | _ => true

/-- The group that acquires takes port 600 down, its frame's sett is free, and what waited for setts ends the collective operation. -/
theorem underWay_endingBypass : underWayAfter (.bypassEnd ⟨0, 0⟩) endingBypass ⟨0, 0⟩ = false := by decide +kernel

/-- Refutes O37: the end of a bypass is to be under way still once its groups acquire; where the record names a group whose ports lie
beyond 511 and are up, their frames free setts, and what waits for setts may end a collective operation that has the same descriptor. -/
theorem not_bypassRows : ¬ Obligations.BypassRows := by
  unfold Obligations.BypassRows
  rintro ⟨-, -, -, -, -, -, -, h, -⟩
  obtain ⟨t, ht, -, -, hunder, -⟩ := h endingBypass ⟨0, 0⟩ endBypassOp 5 farPair (by decide +kernel) (by decide +kernel) (by decide +kernel)
    (by decide +kernel) (by decide +kernel) (by decide +kernel) (by decide +kernel) (by decide +kernel)
  have hafter := underWay_endingBypass
  unfold underWayAfter at hafter
  rw [ht] at hafter
  exact absurd (hunder.symm.trans hafter) (by decide)

end Sys2Proof.Machine


/-!
PROOFS. Race plans: starts, heats, strokes and ends (R305 to R309, R317).
-/

namespace Sys2Proof.Machine

/-! ### Plan slots -/

/-- A plan slot is read from the slots alone. -/
theorem State.plan_congr {s t : State} (h : t.plans = s.plans) (n : Nat) : t.plan n = s.plan n := by rw [State.plan, h, State.plan]

@[simp] theorem State.plan_setPlan_self (s : State) (n : Nat) (p : PlanSlot) : (s.setPlan n p).plan n = p := AMap.getD_put_self _ _ _ _

theorem State.plan_setPlan_ne (s : State) {n m : Nat} (p : PlanSlot) (h : m ≠ n) : (s.setPlan n p).plan m = s.plan m :=
  AMap.getD_put_ne _ _ _ _ _ h

theorem State.plan_onPlan_self (s : State) (n : Nat) (f : PlanSlot → PlanSlot) : (s.onPlan n f).plan n = f (s.plan n) :=
  State.plan_setPlan_self _ _ _

theorem State.plan_onPlan_ne (s : State) {n m : Nat} (f : PlanSlot → PlanSlot) (h : m ≠ n) : (s.onPlan n f).plan m = s.plan m :=
  State.plan_setPlan_ne _ _ h

/-- A slot seen through an operation that leaves the slots alone. -/
theorem Fr.plan_eq {X : Nat} {s t : State} (h : Fr X s t) (hX : X.testBit 40 = false) (n : Nat) : t.plan n = s.plan n :=
  State.plan_congr (h.plans_eq hX) n

theorem State.plan_holdPorts (s : State) (n : Nat) (b : Bool) (m : Nat) : (s.holdPorts n b).plan m = s.plan m :=
  (State.holdPorts_fr (Fr.refl 0x1000000000 s) rfl).plan_eq rfl m

theorem State.plan_closeWindows (s : State) (n m : Nat) : (s.closeWindows n).plan m = s.plan m :=
  (State.closeWindows_fr (Fr.refl 0x1000001000 s) rfl).plan_eq rfl m

theorem State.plan_pooled (s : State) (f : State → State) (m : Nat) : (s.pooled f).plan m = (f s).plan m :=
  (s.pooled_keeps f).plan_eq rfl m

/-! ### Heats and ends -/

/-- A slot as its heat begins. -/
def PlanSlot.begun (p : PlanSlot) (h start : Nat) : PlanSlot := { p with
  heat := h, heatStart := start, inHeat := true, late := false, lateNow := 0, stroke := 0, strokeStart := none, fired := [],
  adopted := p.adopted.filter fun a => decide (h < a.1), paceSeen := p.paceSeen.filter fun x => decide (h ≤ x) }

theorem State.plan_heatBegin (s : State) (n h start : Nat) : (s.heatBegin n h start).plan n = (s.plan n).begun h start := by
  unfold State.heatBegin
  dsimp only
  rw [State.plan_holdPorts, State.plan_onPlan_self]
  rfl

theorem State.plan_heatBegin_ne (s : State) {n m : Nat} (h start : Nat) (hm : m ≠ n) : (s.heatBegin n h start).plan m = s.plan m := by
  unfold State.heatBegin
  dsimp only
  rw [State.plan_holdPorts, State.plan_onPlan_ne _ _ hm]

theorem State.plan_pin (s : State) (b : Bytes) (m : Nat) : (s.pin b).plan m = s.plan m :=
  (State.pin_fr (Fr.refl 0x4000000000 s) rfl).plan_eq rfl m

theorem State.plan_planActivate (s : State) (n h0 : Nat) :
    (s.planActivate n h0).plan n = { s.plan n with st := 2, h0 := h0 }.begun 0 h0 := by
  rw [State.planActivate, State.plan_heatBegin, State.plan_pin, State.plan_onPlan_self]

theorem State.plan_planActivate_ne (s : State) {n m : Nat} (h0 : Nat) (hm : m ≠ n) : (s.planActivate n h0).plan m = s.plan m := by
  rw [State.planActivate, State.plan_heatBegin_ne _ _ _ hm, State.plan_pin, State.plan_onPlan_ne _ _ hm]

/-- With no rig under way and no descriptor waiting no rig misses its catch. -/
theorem State.planRigsMissed_none {s : State} (n : Nat) (hrigs : s.rig.rigs = []) (hops : ∀ p ∈ s.hif.ops, p.2.waits = false) :
    s.planRigsMissed n = s := by
  have hnone : ((s.hif.ops.map (·.2)).filter fun o => o.waits && dKind o.desc == kindRIG && planCatch o.desc == some n) = [] := by
    rw [List.filter_eq_nil_iff]
    intro o ho
    obtain ⟨p, hp, rfl⟩ := List.mem_map.mp ho
    simp [hops p hp]
  unfold State.planRigsMissed
  rw [hrigs]
  dsimp only
  rw [hnone]
  rfl

/-- A plan that ends frees its slot alone and reports its end. -/
theorem State.planEnd_spec {s : State} (n cause : Nat) (hrigs : s.rig.rigs = []) (hops : ∀ p ∈ s.hif.ops, p.2.waits = false) :
    ((s.planEnd n cause).plan n).st = 0 ∧ (∀ m, m ≠ n → (s.planEnd n cause).plan m = s.plan m) ∧
    s.Records (s.planEnd n cause) Ev.PLAN_ENDED n (cause + (s.plan n).heat % 2 ^ 32 * 2 ^ 32) := by
  have hfr : Fr 0xd000000000 s ((s.holdPorts n false).planRelease n) :=
    State.planRelease_fr (State.holdPorts_fr (Fr.refl _ s) rfl) rfl
  have hfr1 : Fr 0x1d000000000 s (((s.holdPorts n false).planRelease n).setPlan n { lateMax := (s.plan n).lateMax }) :=
    State.setPlan_fr (hfr.weaken rfl) rfl
  have hplans m : ((s.holdPorts n false).planRelease n).plan m = s.plan m := hfr.plan_eq rfl m
  unfold State.planEnd
  extract_lets p s1
  have hraise : ∀ d, Fr 0x2c000070000000 s1 (s1.raise Ev.PLAN_ENDED n d) := fun d => s1.raise_keeps _ _ _
  have hops1 : ∀ d, (s1.raise Ev.PLAN_ENDED n d).hif.ops = s.hif.ops := fun d =>
    (State.posts_raise s1 _ _ _).ops.trans (by rw [hfr1.hif_eq rfl])
  rw [State.planRigsMissed_none n (by rw [(hraise _).rig_eq rfl, hfr1.rig_eq rfl, hrigs])
    (by rw [hops1]; exact hops)]
  refine ⟨?_, fun m hm => ?_, State.evr_raise_congr (hfr1.recordsAlike ⟨rfl, rfl, rfl, rfl⟩) _ _ _⟩
  · rw [(hraise _).plan_eq rfl, State.plan_setPlan_self]
  · rw [(hraise _).plan_eq rfl, State.plan_setPlan_ne _ _ hm, hplans]

/-! ### PLAN_START and HEAT_START -/

theorem State.planStart_first {s : State} {n : Nat} (hstage : 9 ≤ s.stage) (hst : (s.plan n).st = 1)
    (hrep : (s.plan n).replaces = none) (h4 : (s.plan 4).st = 0) (hdue : s.reached (s.plan n).firstStart = true) :
    (s.planStart n).plan n = { s.plan n with st := 2, h0 := (s.plan n).firstStart }.begun 0 (s.plan n).firstStart := by
  have hcount : Fr 0x1000 s (s.planCount n 6) := State.planCount_fr (Fr.refl _ s) rfl
  have hr4 : (s.plan ((s.plan n).replaces.getD 4)).st = 0 := by rw [hrep]; exact h4
  unfold State.planStart
  dsimp only
  rw [if_neg (by omega), if_neg (by rw [hr4]; simp [hrep]), if_pos hdue]
  split
  · rw [State.plan_planActivate, hcount.plan_eq rfl]
  · exact State.plan_planActivate _ _ _

theorem State.planStart_swap {s : State} {n r : Nat} (hstage : 9 ≤ s.stage) (hst : (s.plan n).st = 1)
    (hrep : (s.plan n).replaces = some r) (hr : 2 ≤ (s.plan r).st) (hheat : (s.plan r).inHeat = false)
    (hswap : s.swapFor r = some n) (hdue : s.reached (s.plan r).nextHeat = true) :
    s.planStart n = (s.planEnd r 2).planActivate n (s.plan r).nextHeat := by
  unfold State.planStart
  simp only [hst, hrep, Option.getD_some]
  rw [if_neg (by omega), if_pos (Or.inl hr), if_pos ⟨hr, hheat, hswap, hdue⟩]

theorem State.planStart_rests {s : State} {n : Nat} (h : (s.plan n).st ≠ 1 ∨ s.stage < 9 ∨
    ((s.plan n).replaces = none ∧ (s.plan 4).st = 0 ∧ s.reached (s.plan n).firstStart = false)) : s.planStart n = s := by
  unfold State.planStart
  dsimp only
  split
  · rfl
  · next hready =>
    obtain ⟨hrep, h4, hdue⟩ : (s.plan n).replaces = none ∧ (s.plan 4).st = 0 ∧ s.reached (s.plan n).firstStart = false := by tauto
    rw [hrep, Option.getD_none, h4, hdue]
    rfl

/-- The next heat begins, or a plan that is unloaded ends. -/
theorem State.heatStart_of_due {s : State} {n : Nat} (hst : 2 ≤ (s.plan n).st) (hheat : (s.plan n).inHeat = false)
    (hdue : s.reached (s.plan n).nextHeat = true) (hswap : s.swapFor n = none) :
    s.heatStart n = if (s.plan n).st = 3 then s.planEnd n 1 else s.heatBegin n ((s.plan n).heat + 1) (s.plan n).nextHeat := by
  unfold State.heatStart
  dsimp only
  rw [if_neg (by simp [hheat, hdue, hswap]; omega)]

/-! ### HEAT_END -/

theorem State.heatEnd_rests {s : State} {n : Nat} (h : (s.plan n).st < 2 ∨ (s.plan n).inHeat = false ∨
    (s.plan n).stroke + 1 ≠ pStrokes (s.plan n).bin ∨ s.strokeOver n = false) : s.heatEnd n = s := by
  unfold State.heatEnd
  exact if_pos h

/-- A plan's slot and its ports as the last stroke of its heat ends: the windows close and the next heat is fixed. -/
def State.heatOver (s : State) (n : Nat) : State :=
  (s.closeWindows n).onPlan n fun p => { p with
    inHeat := false, next := max ((s.plan n).heatStart + pPeriod (s.plan n).bin) ((s.plan n).grid (max (s.plan n).strokeEnd s.nowNs)) }

theorem State.heatOver_keeps (s : State) (n : Nat) : Fr 0x11000001000 s (s.heatOver n) :=
  State.onPlan_fr (State.closeWindows_fr (Fr.refl _ s) rfl) rfl

theorem State.plan_heatOver (s : State) (n : Nat) : (s.heatOver n).plan n = { s.plan n with
    inHeat := false, next := max ((s.plan n).heatStart + pPeriod (s.plan n).bin) ((s.plan n).grid (max (s.plan n).strokeEnd s.nowNs)) } := by
  rw [State.heatOver, State.plan_onPlan_self, State.plan_closeWindows]

section
variable {s : State} {n : Nat} (hst : (s.plan n).st = 2) (hheat : (s.plan n).inHeat = true)
  (hlast : (s.plan n).stroke + 1 = pStrokes (s.plan n).bin) (hover : s.strokeOver n = true)
include hst hheat hlast hover

theorem State.heatEnd_goesOn (hcount : pHeatCount (s.plan n).bin = 0) (hfits : heatFits (s.plan n).bin ((s.plan n).heat + 1) = true)
    (hannounce : s.flag Reg.PLN_PLAN_CFG_ANNOUNCE = false) : s.heatEnd n = s.heatOver n := by
  unfold State.heatEnd
  dsimp only
  rw [if_neg (by simp [hst, hheat, hlast, hover]), if_neg (by rw [hst]; decide), if_neg (by simp [hcount]),
    if_neg (by simp [hfits]), if_neg (by simp [hannounce])]
  rfl

theorem State.heatEnd_ends (hcount : pHeatCount (s.plan n).bin = (s.plan n).heat + 1) :
    s.heatEnd n = (s.heatOver n).planEnd n 0 := by
  unfold State.heatEnd
  dsimp only
  rw [if_neg (by simp [hst, hheat, hlast, hover]), if_neg (by rw [hst]; decide), if_pos ⟨by omega, hcount.symm⟩]
  rfl

end

/-! ### STROKE_START -/

/-- A slot as a stroke starts. -/
def PlanSlot.struck (p : PlanSlot) (i start : Nat) : PlanSlot := { p with stroke := i, strokeStart := some start, fired := [] }

/-- The lateness of a stroke moves nothing of its place in the plan. -/
theorem State.plan_strokeLate (s : State) (n lateness : Nat) :
    ((s.strokeLate n lateness).plan n).stroke = (s.plan n).stroke ∧ ((s.strokeLate n lateness).plan n).strokeStart = (s.plan n).strokeStart ∧
    ((s.strokeLate n lateness).plan n).fired = (s.plan n).fired ∧ ((s.strokeLate n lateness).plan n).lateNow = lateness := by
  unfold State.strokeLate
  extract_lets p s1
  have hp1 : s1.plan n = { s.plan n with lateNow := lateness, lateMax := max p.lateMax lateness } := State.plan_setPlan_self _ _ _
  split
  · have hfr : Fr 0x2c000070001000 (s1.onPlan n fun p => { p with late := true }) (((s1.onPlan n fun p => { p with late := true }).planCount n 1).raise
        Ev.PLAN_LATE n (p.stroke % 2 ^ 16 + p.heat % 2 ^ 32 * 2 ^ 32)) :=
      State.raise_fr (State.planCount_fr (Fr.refl _ _) rfl) rfl
    rw [State.plan_holdPorts, hfr.plan_eq rfl, State.plan_onPlan_self, hp1]
    exact ⟨rfl, rfl, rfl, rfl⟩
  · rw [hp1]
    exact ⟨rfl, rfl, rfl, rfl⟩

/-- The bench reservations of a stroke and what they set off leave the slots alone. -/
theorem State.plan_benches (s : State) (n : Nat) (l : List Nat) (m : Nat) :
    ((l.foldl (fun s e => s.benchRes n e) s).collSettle).plan m = s.plan m := by
  have hbench : Fr 0x8000001000 s (l.foldl (fun s e => s.benchRes n e) s) :=
    Fr.foldl (Fr.refl _ s) fun _ _ h => State.benchRes_fr h rfl
  rw [(State.collSettle_fr (Fr.refl 0x3c00d970000cc0 _) rfl).plan_eq rfl, hbench.plan_eq rfl]

theorem State.strokeStart_rests {s : State} {n : Nat} (h : (s.plan n).st < 2 ∨ (s.plan n).inHeat = false) : s.strokeStart n = s := by
  unfold State.strokeStart
  exact if_pos (by tauto)

/-- The stroke that starts: the first at the heat's start, a later one at its schedule or the end of the one before. -/
theorem State.strokeStart_of_due {s : State} {n i sched a : Nat} (hst : 2 ≤ (s.plan n).st) (hheat : (s.plan n).inHeat = true)
    (hi : i = if (s.plan n).strokeStart.isNone then 0 else (s.plan n).stroke + 1) (hin : i < pStrokes (s.plan n).bin)
    (hsched : sched = (s.plan n).heatStart + i * pPitch (s.plan n).bin)
    (hdue : s.reached (if (s.plan n).strokeStart.isNone then sched else max sched (s.plan n).strokeEnd) = true)
    (hover : (s.plan n).strokeStart.isNone = false → s.strokeOver n = true)
    (ha : a = if (s.plan n).strokeStart.isNone then sched else max (max sched (s.plan n).strokeEnd) s.nowNs) :
    ((s.strokeStart n).plan n).stroke = i ∧ ((s.strokeStart n).plan n).strokeStart = some a ∧
    ((s.strokeStart n).plan n).fired = [] ∧ ((s.strokeStart n).plan n).lateNow = a - sched := by
  unfold State.strokeStart
  extract_lets p first i' sched' at' a' s1 s2 s3 bench
  have hi' : i' = i := hi.symm
  have hsched' : sched' = sched := by rw [hsched, ← hi']
  have ha' : a' = a := by
    rw [ha]
    unfold a' at' first p
    rw [hsched']
    split <;> rfl
  have hat : s.reached at' = true := by
    unfold at'
    rw [hsched']
    exact hdue
  rw [if_neg (by
    rintro (h | h | h | h | ⟨h, h'⟩)
    · exact absurd h (by unfold p; omega)
    · exact absurd (hheat.symm.trans h) (by decide)
    · exact absurd h (by rw [hi']; unfold p; omega)
    · exact absurd (hat.symm.trans h) (by decide)
    · exact absurd ((hover h).symm.trans h') (by decide))]
  have hp1 : s1.plan n = (s.plan n).struck i' a' := by
    unfold s1
    rw [State.plan_onPlan_self, State.plan_closeWindows]
    rfl
  have hp3 : s3.plan n = s2.plan n := by
    unfold s3
    split
    · rfl
    · exact State.plan_holdPorts _ _ _ _
  obtain ⟨hstroke, hstart, hfired, hlate⟩ := s1.plan_strokeLate n (a' - sched')
  rw [State.plan_benches, hp3]
  unfold s2
  rw [hstroke, hstart, hfired, hlate, hp1, hi', ha', hsched']
  exact ⟨rfl, rfl, rfl, rfl⟩

/-! ### The rows -/

/-- Settles O38: each command by what it does to the slot it names, the rest of the state by frames; a plan that ends reports
it, since with no rig and no descriptor waiting no operation ends with it. -/
theorem planRows : Obligations.PlanRows := by
  unfold Obligations.PlanRows
  refine ⟨?_, ?_, ?_, ?_, ?_, ?_, ?_, ?_, ?_, ?_, ?_, ?_⟩
  · intro s n hco hstage hst hrep h4 hdue
    refine ⟨_, rfl, ?_⟩
    beta_reduce
    rw [State.inCore_on hco]
    beta_reduce
    rw [State.planStart_first hstage hst hrep h4 hdue]
    exact ⟨rfl, rfl, rfl, rfl, rfl, rfl, rfl⟩
  · intro s n r hco hstage hst hrep hr hheat hswap hdue hrigs hops
    have hne : r ≠ n := by
      rintro rfl
      omega
    obtain ⟨hend, hothers, hrec⟩ := State.planEnd_spec r 2 hrigs hops
    refine ⟨_, rfl, ?_⟩
    beta_reduce
    rw [State.inCore_on hco]
    beta_reduce
    rw [State.planStart_swap hstage hst hrep hr hheat hswap hdue, State.plan_planActivate, State.plan_planActivate_ne _ _ hne]
    refine ⟨hend, rfl, rfl, rfl, rfl, rfl, ?_⟩
    exact ((State.planActivate_fr (Fr.refl 0x15000000000 _) rfl).evr_eq rfl).trans hrec
  · intro s n h
    exact ⟨_, rfl, State.inCore_of_same (State.planStart_rests h)⟩
  · intro s n hco hst hheat hnone hpos hdue
    refine ⟨_, rfl, ?_⟩
    beta_reduce
    rw [State.inPool_on hco, State.plan_pooled]
    obtain ⟨hstroke, hstart, hfired, hlate⟩ := State.strokeStart_of_due (s := s) (n := n) (i := 0) (sched := (s.plan n).heatStart)
      (a := (s.plan n).heatStart) hst hheat (by simp [hnone]) hpos (by simp) (by simpa [hnone] using hdue) (by simp [hnone]) (by simp [hnone])
    exact ⟨hstroke, hstart, hfired, hlate.trans (Nat.sub_self _)⟩
  · intro s n hco hst hheat hsome hin hdue hover
    have hfirst : (s.plan n).strokeStart.isNone = false := by simpa using Option.isSome_iff_ne_none.mpr hsome
    refine ⟨_, rfl, ?_⟩
    beta_reduce
    rw [State.inPool_on hco, State.plan_pooled]
    obtain ⟨hstroke, hstart, hfired, -⟩ := State.strokeStart_of_due (s := s) (n := n) (i := (s.plan n).stroke + 1)
      hst hheat (by rw [hfirst]; rfl) hin rfl (by rw [hfirst]; exact hdue) (fun _ => hover) rfl
    refine ⟨hstroke, ?_, hfired⟩
    rw [hstart, hfirst]
    rfl
  · intro s n h
    exact ⟨_, rfl, State.inPool_of_same (State.strokeStart_rests h)⟩
  · intro s n hco hst hheat hdue hswap
    refine ⟨_, rfl, ?_⟩
    beta_reduce
    rw [State.inCore_on hco]
    beta_reduce
    rw [State.heatStart_of_due hst.ge hheat hdue hswap, if_neg (by rw [hst]; decide), State.plan_heatBegin]
    exact ⟨rfl, rfl, rfl, rfl, rfl, rfl,
      (State.heatBegin_fr (Fr.refl 0x11000000000 s) rfl).within (ps := [.plans, .swc]) (by decide +kernel)⟩
  · intro s n hco hst hheat hdue hswap hrigs hops
    obtain ⟨hend, -, hrec⟩ := State.planEnd_spec n 1 hrigs hops
    refine ⟨_, rfl, ?_⟩
    beta_reduce
    rw [State.inCore_on hco]
    beta_reduce
    rw [State.heatStart_of_due (by omega) hheat hdue hswap, if_pos hst]
    exact ⟨hend, hrec⟩
  · intro s n h
    refine ⟨_, rfl, State.inCore_of_same ?_⟩
    unfold State.heatStart
    exact if_pos (by tauto)
  · intro s n hco hst hheat hlast hover hcount hfits hannounce
    refine ⟨_, rfl, ?_⟩
    beta_reduce
    have heq := State.heatEnd_goesOn hst hheat hlast hover hcount hfits hannounce
    rw [State.inPool_of_setts hco (by beta_reduce; rw [heq]; exact (s.heatOver_keeps n).sett_eq rfl)]
    beta_reduce
    rw [heq, State.plan_heatOver]
    exact ⟨rfl, rfl, hst, (s.heatOver_keeps n).within (ps := [.plans, .swc, .regs .pln]) (by decide +kernel)⟩
  · intro s n hco hst hheat hlast hover hcount hrigs hops
    have hfr := s.heatOver_keeps n
    obtain ⟨hend, -, hrec⟩ := State.planEnd_spec (s := s.heatOver n) n 0 (by rw [hfr.rig_eq rfl]; exact hrigs) (by rw [hfr.hif_eq rfl]; exact hops)
    have heq := State.heatEnd_ends hst hheat hlast hover hcount
    refine ⟨_, rfl, ?_⟩
    beta_reduce
    rw [State.inPool_of_setts hco (by
      beta_reduce
      rw [heq, (State.planEnd_fr (Fr.refl 0x2c81d070000000 _) rfl).sett_eq rfl, hfr.sett_eq rfl])]
    beta_reduce
    rw [heq]
    refine ⟨hend, hrec.trans ?_⟩
    rw [State.plan_heatOver, State.evr_raise_congr (hfr.recordsAlike ⟨rfl, rfl, rfl, rfl⟩), Nat.zero_add]
  · intro s n h
    exact ⟨_, rfl, State.inPool_of_same (State.heatEnd_rests h)⟩

end Sys2Proof.Machine


/-!
PROOFS. Rigs at their catches (R17, R311, R552): what goes LIVE, what is rejected, and the entries of plans that wait; reserved
windows (R222, R313).
-/

namespace Sys2Proof.Machine

/-! ### Records that are table entries alone -/

/-- The tables whose records have no effect beside their entries. -/
def plainTables : List Nat := [0x10, 0x11, 0x12, 0x13, 0x15, 0x16, 0x31, 0x32, 0x61, 0x71]

theorem State.recEffect_plain (s : State) (r : Rig) (now i : Nat) {x : Bytes} (h : rTab x ∈ plainTables) : s.recEffect r now i x = s := by
  have hout (n : Nat) (hn : n ∉ plainTables) : rTab x ≠ n := fun e => hn (e ▸ h)
  unfold State.recEffect
  dsimp only
  split
  · next e => exact absurd e (hout _ (by decide))
  · next e => exact absurd e (hout _ (by decide))
  · next e => exact absurd e (hout _ (by decide))
  · next e => exact absurd e (hout _ (by decide))
  · next e => exact absurd e (hout _ (by decide))
  · next e => exact absurd e (hout _ (by decide))
  · next e => exact absurd e (hout _ (by decide))
  · next e => exact absurd e (hout _ (by decide))
  · rfl

/-- Such records change the tables alone, one after the other. -/
theorem State.recLive_plain (r : Rig) (now : Nat) {l : List (Nat × Bytes)} (h : ∀ p ∈ l, rTab p.2 ∈ plainTables) (s : State) :
    l.foldl (fun (s : State) (p : Nat × Bytes) => s.recLive r now p.1 p.2) s =
      s.onSwc fun c => { c with tab := (l.map Prod.snd).foldl applyRec c.tab } := by
  induction l generalizing s with
  | nil => rfl
  | cons p l ih =>
    have hp : s.recLive r now p.1 p.2 = s.onSwc fun c => { c with tab := applyRec c.tab p.2 } := by
      rw [State.recLive, State.recEffect_plain _ _ _ _ (h p (List.mem_cons_self ..))]
    rw [List.foldl_cons, ih fun q hq => h q (List.mem_cons_of_mem _ hq), hp]
    rfl

theorem map_snd_mapIdx {α : Type} (l : List α) : (l.mapIdx fun i x => (i, x)).map Prod.snd = l := by
  rw [List.mapIdx_eq_zipIdx_map, List.map_map]
  exact List.zipIdx_map_fst 0 l

/-! ### A rig that goes LIVE -/

/-- What a rig of plain records leaves as it goes LIVE, beside its function's log. -/
structure State.Lives (s t : State) (k : OpKey) (o : Op) (r : Rig) : Prop where
  tab : t.swc.tab = r.recs.foldl applyRec s.swc.tab
  live : (t.rig.rigs.all fun x => x.order != r.order || x.st == 3) = true
  kept : (t.rig.rigs.any fun x => x.order == r.order) = !((r.recs.filter fun x => rAct x == 0).flatMap writesOf).isEmpty
  done : (t.op? k).map Op.phase = some (OpPhase.done ⟨dTag o.desc, stOK, false, 3, 0, r.id⟩)
  sett : t.sett = s.sett
  plans : t.plans = s.plans

/-- Rigs that lose entries to a later one keep their places in the order. -/
theorem order_of_mem_replaced {w : List (Nat × Nat)} {l : List Rig} {x : Rig} (h : x ∈ replaced w l) : ∃ y ∈ l, x.order = y.order := by
  obtain ⟨y, hy, rfl⟩ := List.mem_map.mp (List.mem_of_mem_filter h)
  refine ⟨y, hy, ?_⟩
  split <;> rfl

/-- Of the rigs that were there none with the rig's own order is left. -/
theorem order_ne_of_replaced {w : List (Nat × Nat)} {l : List Rig} {n : Nat} {x : Rig}
    (h : x ∈ replaced w (l.filter fun y => y.order != n)) : x.order ≠ n := by
  obtain ⟨y, hy, he⟩ := order_of_mem_replaced h
  rw [he]
  simpa using (List.mem_filter.mp hy).2

/-- The tables and the rigs as a rig of plain records goes LIVE. -/
def State.plainLive (s : State) (r : Rig) : State :=
  (((s.onSwc fun c => { c with tab := r.recs.foldl applyRec c.tab }).logRig r).onRigs fun l =>
    replaced (rigWrites s.swc.tab r) (l.filter fun x => x.order != r.order) ++
      (if ((r.recs.filter fun x => rAct x == 0).flatMap writesOf).isEmpty then []
       else [{ r with st := 3, own := (r.recs.filter fun x => rAct x == 0).flatMap writesOf, recs := [], blobs := [], bypass := none }]))

theorem State.rigLive_plain {s : State} {k : OpKey} {o : Op} {r : Rig} (now : Nat) (hrig : s.rigOf k = some r) (hbypass : r.bypass = none)
    (hrecs : ∀ x ∈ r.recs, rTab x ∈ plainTables) (hop : s.op? k = some o) (hkey : o.key = k) (hlost : o.lost = false)
    (hslot : k.slot ∈ (s.ring k.ring).taken) : s.Lives (s.rigLive k now) k o r := by
  have hplain : ∀ p ∈ r.recs.mapIdx fun i x => (i, x), rTab p.2 ∈ plainTables := fun p hp =>
    hrecs _ (map_snd_mapIdx r.recs ▸ List.mem_map_of_mem hp)
  have heq : s.rigLive k now = (s.plainLive r).endOp k { status := stOK, ext := 3, value := r.id } := by
    unfold State.rigLive
    rw [hrig]
    dsimp only
    rw [hbypass]
    dsimp only
    rw [State.recLive_plain _ _ hplain, map_snd_mapIdx]
    rfl
  rw [heq, State.endOp_kept (s := s.plainLive r) hop hlost hslot]
  refine ⟨rfl, ?_, ?_, ?_, rfl, rfl⟩
  · show ((replaced (rigWrites s.swc.tab r) (s.rig.rigs.filter fun x => x.order != r.order) ++ _).all _) = true
    rw [List.all_append, Bool.and_eq_true, List.all_eq_true]
    refine ⟨fun x hx => ?_, ?_⟩
    · simp [order_ne_of_replaced hx]
    · split
      · rfl
      · simp
  · show ((replaced (rigWrites s.swc.tab r) (s.rig.rigs.filter fun x => x.order != r.order) ++ _).any _) = _
    rw [List.any_append, List.any_eq_false.mpr fun x hx => by simp [order_ne_of_replaced hx], Bool.false_or]
    split
    · next h => simp [h]
    · next h => simp [h]
  · rw [State.op?_setOp, if_pos hkey.symm]
    rfl

/-! ### A rig that is rejected -/

/-- A rig, or a descriptor none stands for, has been rejected. -/
structure State.Rejects (s t : State) (k : OpKey) (o : Op) (status : Nat) : Prop where
  done : (t.op? k).map Op.phase = some (OpPhase.done ⟨dTag o.desc, status, false, 4, 0, rRigId o.desc⟩)
  gone : t.rigOf k = none
  tab : t.swc.tab = s.swc.tab
  sett : t.sett = s.sett

/-- A rig is found among the rigs alone. -/
theorem State.rigOf_congr {s t : State} (h : t.rig = s.rig) (k : OpKey) : t.rigOf k = s.rigOf k := by rw [State.rigOf, h, State.rigOf]

theorem State.rigReject_kept {s : State} {k : OpKey} {o : Op} (hop : s.op? k = some o) (hkey : o.key = k) (hlost : o.lost = false)
    (hslot : k.slot ∈ (s.ring k.ring).taken) (status : Nat) : s.Rejects (s.rigReject k status) k o status := by
  have heq : s.rigReject k status = (s.onRigs fun l => l.filter fun r => !(r.key == k && decide (r.st ≤ 2))).setOp { o with
      phase := .done { tag := dTag o.desc, status := status, ext := 4, value := rRigId o.desc }, hold := .none } := by
    unfold State.rigReject
    rw [hop]
    exact State.endOp_kept (s := s.onRigs _) hop hlost hslot _
  rw [heq]
  refine ⟨?_, ?_, rfl, rfl⟩
  · rw [State.op?_setOp, if_pos hkey.symm]
    rfl
  · refine List.find?_eq_none.mpr fun r hr => ?_
    have := (List.mem_filter.mp (show r ∈ s.rig.rigs.filter _ from hr)).2
    simpa [imp_iff_not_or] using this

/-- With the rig gone the entries that waited for it are satisfied, and nothing else changes. -/
theorem State.entriesLook_gone {s : State} {k : OpKey} (h : s.rigOf k = none) : Fr 0x10000001000 s (s.entriesLook k) := by
  unfold State.entriesLook
  refine Fr.foldl (Fr.refl _ s) fun u n hu => Fr.foldl hu fun v f hv => ?_
  have hnone : v.rigOf k = none := (State.rigOf_congr (hv.rig_eq rfl) k).trans h
  rw [hnone]
  exact State.planCount_fr (State.onPlan_fr hv rfl) rfl

theorem State.Rejects.look {s t : State} {k : OpKey} {o : Op} {status : Nat} (h : s.Rejects t k o status) :
    s.Rejects (t.entriesLook k) k o status := by
  have hfr := State.entriesLook_gone h.gone
  exact ⟨by rw [State.op?_congr (hfr.hif_eq rfl)]; exact h.done, (State.rigOf_congr (hfr.rig_eq rfl) k).trans h.gone,
    (congrArg SwcState.tab (hfr.swc_eq rfl)).trans h.tab, (hfr.sett_eq rfl).trans h.sett⟩

/-- A rig that no other depends on leaves alone. -/
theorem State.dropRig_alone {s : State} {k : OpKey} {r : Rig} (hrig : s.rigOf k = some r)
    (hdeps : (s.rig.rigs.all fun x => !x.deps.contains r.order) = true) (status : Nat) : s.dropRig k status = s.rigReject k status := by
  have hnone : (s.rig.rigs.filter fun x => decide (x.st ≤ 2) && x.deps.contains r.order) = [] := by
    rw [List.filter_eq_nil_iff]
    intro x hx
    have := List.all_eq_true.mp hdeps x hx
    simp_all
  unfold State.dropRig State.rigDrop
  rw [hrig]
  dsimp only
  rw [hnone]
  rfl

end Sys2Proof.Machine


/-!
PROOFS. Reserved windows and the catches of plan entries (R222, R307, R311 to R316).
-/

namespace Sys2Proof.Machine

theorem State.portSt_setPortSt_self (s : State) (q : Nat) (x : PortState) : (s.setPortSt q x).portSt q = x := AMap.getD_put_self _ _ _ _

theorem State.plan_setPortSt (s : State) (q : Nat) (x : PortState) (n : Nat) : (s.setPortSt q x).plan n = s.plan n := rfl

theorem AMap.has_put_self {α : Type} (m : AMap Nat α) (k : Nat) (v : α) : (m.put k v).has k = true := by
  rw [AMap.has, AMap.find_put_self]
  rfl

/-! ### Windows -/

/-- A window that opens at its offset. -/
theorem State.windowOpen_due {s : State} {n e : Nat} (hst : 2 ≤ (s.plan n).st) (hheat : (s.plan n).inHeat = true)
    (hlate : (s.plan n).late = false) (hstart : (s.plan n).strokeStart ≠ none) (hmem : e ∈ strokeEntries (s.plan n).bin (s.plan n).stroke)
    (htype : peType (pEntry (s.plan n).bin e) = 1) (hfired : (s.plan n).fired.has e = false) (hdue : s.reached ((s.plan n).due e) = true) :
    s.windowOpen n e = (s.setPlan n { s.plan n with fired := (s.plan n).fired.put e .satisfied }).setPortSt
      (pePort (pEntry (s.plan n).bin e)) { s.portSt (pePort (pEntry (s.plan n).bin e)) with
        window := peQueues (pEntry (s.plan n).bin e), windowSlot := n, windowFirst := some ((s.plan n).due e) } := by
  have hsome : (s.plan n).strokeStart.isNone = false := by simpa using Option.isSome_iff_ne_none.mpr hstart
  have hin : (strokeEntries (s.plan n).bin (s.plan n).stroke).contains e = true := by simpa using hmem
  unfold State.windowOpen
  dsimp only
  rw [if_neg (by simp only [hheat, hlate, hsome, hin, htype, hfired, hdue]; simp; omega)]

theorem State.windowOpen_rests {s : State} {n e : Nat} (h : (s.plan n).late = true ∨ (s.plan n).fired.has e = true ∨
    s.reached ((s.plan n).due e) = false) : s.windowOpen n e = s := by
  unfold State.windowOpen
  exact if_pos (by tauto)

theorem State.windowClose_rests {s : State} {n e : Nat} (h : s.reached ((s.plan n).due e + peLength (pEntry (s.plan n).bin e)) = false ∨
    (s.portSt (pePort (pEntry (s.plan n).bin e))).window = []) : s.windowClose n e = s := by
  unfold State.windowClose
  refine if_pos ?_
  rw [List.isEmpty_iff]
  tauto

/-- An overrun of a stroke is counted in its slot. -/
theorem State.fld_planCount_self (s : State) (n c : Nat) :
    (s.planCount n c).fld Reg.PLN_SLOT_STAT_VALUE (n + 16 * c) = min 0xFFFFFFFF (s.fld Reg.PLN_SLOT_STAT_VALUE (n + 16 * c) + 1) :=
  State.fld_bump_sat _ _ _ _ (by decide)

theorem State.planCount_keeps (s : State) (n c : Nat) : Fr 0x1000 s (s.planCount n c) := State.planCount_fr (Fr.refl _ s) rfl

/-- A window that closes after its length: an overrun is counted where frames of class T are left. -/
theorem State.windowClose_due {s : State} {n e : Nat} (hst : 2 ≤ (s.plan n).st) (htype : peType (pEntry (s.plan n).bin e) = 1)
    (hfired : (s.plan n).fired.has e = true) (hwin : (s.portSt (pePort (pEntry (s.plan n).bin e))).window ≠ [])
    (hslot : (s.portSt (pePort (pEntry (s.plan n).bin e))).windowSlot = n)
    (hdue : s.reached ((s.plan n).due e + peLength (pEntry (s.plan n).bin e)) = true) :
    ((s.windowClose n e).portSt (pePort (pEntry (s.plan n).bin e))).window = [] ∧
    (s.windowClose n e).fld Reg.PLN_SLOT_STAT_VALUE n =
      (if (s.portSt (pePort (pEntry (s.plan n).bin e))).window.any fun k => s.queueClass k == 0 && !(s.outq k).deps.isEmpty
       then min 0xFFFFFFFF (s.fld Reg.PLN_SLOT_STAT_VALUE n + 1) else s.fld Reg.PLN_SLOT_STAT_VALUE n) := by
  have hne : (s.portSt (pePort (pEntry (s.plan n).bin e))).window.isEmpty = false := by simpa using hwin
  unfold State.windowClose
  dsimp only
  rw [if_neg (by simp only [htype, hfired, hne, hslot, hdue]; simp; omega), State.portSt_setPortSt_self, State.fld_setPortSt]
  refine ⟨rfl, ?_⟩
  split
  · exact s.fld_planCount_self n 0
  · rfl

/-! ### Catches -/

/-- The slot with an entry satisfied. -/
def State.entryMet (s : State) (n e : Nat) : State := s.setPlan n { s.plan n with fired := (s.plan n).fired.put e .satisfied }

section
variable {s : State} {n e : Nat} (hnext : (s.plan n).catches.head? = some e) (hdue : s.reached ((s.plan n).due e) = true)
  (hfirst : ((List.range n).all fun m => (s.plan m).catches.isEmpty) = true)
include hnext hdue hfirst

/-- With no catch left in the slots before it the next catch of a slot that is due fires. -/
theorem State.entryFire_due : s.entryFire n e = match peType (pEntry (s.plan n).bin e) with
      | 3 => s.rigEntry n e
      | 4 => (s.entryMet n e).runRequest (peCtx (pEntry (s.plan n).bin e))
          { plan := some ((s.plan n).ref n e), domain := (s.tctx (peCtx (pEntry (s.plan n).bin e))).domain, at_ := (s.plan n).due e
            params := tParams (s.tctx (peCtx (pEntry (s.plan n).bin e))).cont }
      | _ => ((s.entryMet n e).lineRelease (peLine (pEntry (s.plan n).bin e)).1
          (peLine (pEntry (s.plan n).bin e)).2 ((s.plan n).ref n e)).2 := by
  have hnone : ((List.range n).any fun m => match (s.plan m).catches.head? with
      | some x => s.reached ((s.plan m).due x) && !earlier ((s.plan n).due e) ((s.plan m).due x)
      | none => false) = false := by
    rw [List.any_eq_false]
    intro m hm
    rw [List.isEmpty_iff.mp (List.all_eq_true.mp hfirst m hm)]
    exact Bool.false_ne_true
  unfold State.entryFire
  dsimp only
  refine if_neg ?_
  rintro (h | h | h)
  · exact h hnext
  · exact absurd (hdue.symm.trans h) (by decide)
  · exact absurd (hnone.symm.trans h) (by decide)

theorem State.entryFire_rig (htype : peType (pEntry (s.plan n).bin e) = 3) :
    s.entryFire n e = match s.rigFor n (peRigId (pEntry (s.plan n).bin e)) with
      | none => (s.entryMet n e).planCount n 2
      | some (k, true) => (s.rigLive k ((s.plan n).due e)).onPlan n fun p => { p with fired := p.fired.put e .satisfied }
      | some (k, false) => s.setPlan n { s.plan n with fired := (s.plan n).fired.put e (.waits k.ring k.slot) } := by
  have heq := State.entryFire_due hnext hdue hfirst
  rw [htype] at heq
  exact heq

theorem State.entryFire_run (htype : peType (pEntry (s.plan n).bin e) = 4) :
    s.entryFire n e = (s.entryMet n e).runRequest (peCtx (pEntry (s.plan n).bin e))
      { plan := some ((s.plan n).ref n e), domain := (s.tctx (peCtx (pEntry (s.plan n).bin e))).domain, at_ := (s.plan n).due e
        params := tParams (s.tctx (peCtx (pEntry (s.plan n).bin e))).cont } := by
  have heq := State.entryFire_due hnext hdue hfirst
  rw [htype] at heq
  exact heq

theorem State.entryFire_line (htype : peType (pEntry (s.plan n).bin e) = 5) :
    s.entryFire n e = ((s.entryMet n e).lineRelease (peLine (pEntry (s.plan n).bin e)).1 (peLine (pEntry (s.plan n).bin e)).2
      ((s.plan n).ref n e)).2 := by
  have heq := State.entryFire_due hnext hdue hfirst
  rw [htype] at heq
  exact heq

end

theorem State.entryFire_rests {s : State} {n e : Nat} (h : (s.plan n).catches.head? ≠ some e ∨ s.reached ((s.plan n).due e) = false) :
    s.entryFire n e = s := by
  unfold State.entryFire
  exact if_pos (by tauto)

/-- Settles O39: a window by its port and its slot, a catch by what its entry does; none of them frees setts, so nothing that
waited is tried again. -/
theorem reservationRows : Obligations.ReservationRows := by
  unfold Obligations.ReservationRows
  refine ⟨?_, ?_, ?_, ?_, ?_, ?_, ?_, ?_, ?_, ?_⟩
  · intro s n e hco hst hheat hlate hstart hmem htype hfired hdue
    refine ⟨_, rfl, ?_⟩
    beta_reduce
    rw [State.inCore_on hco]
    beta_reduce
    rw [State.windowOpen_due hst hheat hlate hstart hmem htype hfired hdue, State.portSt_setPortSt_self]
    refine ⟨rfl, rfl, rfl, ?_, (State.setPortSt_fr (State.setPlan_fr (Fr.refl 0x11000000000 s) rfl) rfl).within (ps := [.swc, .plans])
      (by decide +kernel)⟩
    rw [State.plan_setPortSt, State.plan_setPlan_self]
    exact AMap.has_put_self _ _ _
  · intro s n e h
    exact ⟨_, rfl, State.inCore_of_same (State.windowOpen_rests h)⟩
  · intro s n e hco hst htype hfired hwin hslot hdue
    obtain ⟨hopen, hcount⟩ := State.windowClose_due hst htype hfired hwin hslot hdue
    refine ⟨_, rfl, ?_⟩
    beta_reduce
    rw [State.inCore_on hco]
    exact ⟨hopen, hcount, (State.windowClose_fr (Fr.refl 0x1000001000 s) rfl).within (ps := [.regs .pln, .swc]) (by decide +kernel)⟩
  · intro s n e h
    exact ⟨_, rfl, State.inCore_of_same (State.windowClose_rests h)⟩
  · intro s n e hco hnext hdue hfirst htype hrig
    have heq : s.entryFire n e = (s.entryMet n e).planCount n 2 := by
      rw [State.entryFire_rig hnext hdue hfirst htype, hrig]
    have hfr : Fr 0x10000001000 s (s.entryFire n e) := heq ▸ State.planCount_fr (State.setPlan_fr (Fr.refl _ s) rfl) rfl
    refine ⟨_, rfl, ?_⟩
    beta_reduce
    rw [State.inPool_of_setts hco (hfr.sett_eq rfl)]
    refine ⟨?_, ?_, hfr.within (ps := [.regs .pln, .plans]) (by decide +kernel)⟩
    · rw [heq, (State.planCount_keeps _ _ _).plan_eq rfl, State.entryMet, State.plan_setPlan_self]
      exact AMap.find_put_self _ _ _
    · rw [heq]
      exact State.fld_planCount_self _ n 2
  · intro s n e k hco hnext hdue hfirst htype hrig
    have heq : s.entryFire n e = s.setPlan n { s.plan n with fired := (s.plan n).fired.put e (.waits k.ring k.slot) } := by
      rw [State.entryFire_rig hnext hdue hfirst htype, hrig]
    have hfr : Fr 0x10000000000 s (s.entryFire n e) := heq ▸ State.setPlan_fr (Fr.refl _ s) rfl
    refine ⟨_, rfl, ?_⟩
    beta_reduce
    rw [State.inPool_of_setts hco (hfr.sett_eq rfl)]
    refine ⟨?_, hfr.within (ps := [.plans]) (by decide +kernel)⟩
    rw [heq, State.plan_setPlan_self]
    exact AMap.find_put_self _ _ _
  · intro s n e k r o hco hnext hdue hfirst htype hrig hof hop hkey hlost hslot hbypass hrecs
    have heq : s.entryFire n e = (s.rigLive k ((s.plan n).due e)).onPlan n fun p => { p with fired := p.fired.put e .satisfied } := by
      rw [State.entryFire_rig hnext hdue hfirst htype, hrig]
    obtain ⟨htab, hlive, hkept, hdone, hsett, hplans⟩ := State.rigLive_plain ((s.plan n).due e) hof hbypass hrecs hop hkey hlost hslot
    refine ⟨_, rfl, ?_⟩
    beta_reduce
    rw [State.inPool_of_setts hco ((congrArg State.sett heq).trans hsett)]
    beta_reduce
    rw [heq]
    refine ⟨?_, htab, hlive, hkept, hdone⟩
    rw [State.plan_onPlan_self]
    exact AMap.find_put_self _ _ _
  · intro s n e hco hnext hdue hfirst htype
    have heq := State.entryFire_run hnext hdue hfirst htype
    refine ⟨_, rfl, ?_⟩
    beta_reduce
    rw [State.inPool_of_setts hco (by
      beta_reduce
      rw [heq, (State.runRequest_fr (Fr.refl 0x2c020470401000 _) rfl).sett_eq rfl]
      rfl)]
    exact heq
  · intro s n e hco hnext hdue hfirst htype
    have heq := State.entryFire_line hnext hdue hfirst htype
    have hfr : Fr 0x80000000000 (s.entryMet n e) (s.entryFire n e) := heq ▸ State.lineRelease_fr (Fr.refl _ _) rfl
    refine ⟨_, rfl, ?_⟩
    beta_reduce
    rw [State.inPool_of_setts hco (hfr.sett_eq rfl)]
    refine ⟨heq, ?_⟩
    rw [hfr.plan_eq rfl, State.entryMet, State.plan_setPlan_self]
    exact AMap.find_put_self _ _ _
  · intro s n e h
    exact ⟨_, rfl, State.inPool_of_same (State.entryFire_rests h)⟩

end Sys2Proof.Machine


/-!
PROOFS. Rigs: submission, staging and time-triggered catches (R17 to R20, R25, R312, R551, R552, R555).
-/

namespace Sys2Proof.Machine

/-- A time at which a rig was to be caught is past. -/
def State.catchPast (s : State) (c : RigCatch) : Bool :=
  match c with
  | .time a => s.reached a
  | _ => false

/-- A rig that is not refused leaves no mark as it is judged. -/
theorem State.judge_good {s : State} {r : Rig} (h : (s.judge r).1 = false) : (s.judge r).2 = s := by
  revert h
  unfold State.judge
  extract_lets _ _ _ _ _ prog _
  clear_value prog
  intro h
  split
  · rfl
  · next hform =>
    rw [if_neg hform] at h
    cases prog with
    | none => rfl
    | some s1 => exact absurd (show true = false from h) (by decide)

theorem State.judge_keeps (s : State) (r : Rig) : Fr 0x3000 s (s.judge r).2 := State.judge_fr (Fr.refl _ s) rfl

theorem State.coreOff_of_serving {s : State} {q : Nat} (h : (s.servingCox q).isSome = true) : s.coreOff = false := by
  unfold State.servingCox at h
  by_cases hc : s.coreOff = true
  · rw [if_pos hc] at h
    exact absurd h (by decide)
  · exact Bool.eq_false_iff.2 hc

/-- Rejection as it looks from an earlier state. -/
theorem State.Rejects.from {s s' t : State} {k : OpKey} {o : Op} {status : Nat} (h : s'.Rejects t k o status) (hswc : s'.swc = s.swc)
    (hsett : s'.sett = s.sett) : s.Rejects t k o status :=
  ⟨h.done, h.gone, h.tab.trans (congrArg SwcState.tab hswc), h.sett.trans hsett⟩

/-! ### Submission -/

/-- A descriptor that is refused as it is taken. -/
def State.refuseRig (s : State) (k : OpKey) (status : Nat) : State := (s.rigReject k status).entriesLook k

theorem State.refuseRig_kept {s : State} {k : OpKey} {o : Op} (hop : s.op? k = some o) (hkey : o.key = k) (hlost : o.lost = false)
    (hslot : k.slot ∈ (s.ring k.ring).taken) (status : Nat) : s.Rejects (s.refuseRig k status) k o status :=
  (State.rigReject_kept hop hkey hlost hslot status).look

/-- Records that copy nothing in. -/
def PlainRecs (recs : List Bytes) : Prop := ∀ x ∈ recs, rTab x ≠ 0x40 ∧ rTab x ≠ 0x50 ∧ rTab x ≠ 0x51

theorem blobOf_plain {x : Bytes} (h : rTab x ≠ 0x40 ∧ rTab x ≠ 0x50 ∧ rTab x ≠ 0x51) : blobOf x = none := by
  unfold blobOf
  exact if_neg fun hx => hx.1.elim h.1 h.2.1

theorem State.copyIn_plain (s : State) (dom : Nat) {recs : List Bytes} (h : PlainRecs recs) (l : List (Option Bytes)) :
    s.copyIn dom recs l = recs.map fun _ => Blob.none := by
  induction recs with
  | nil => rfl
  | cons x recs ih =>
    unfold State.copyIn
    rw [blobOf_plain (h x (List.mem_cons_self ..))]
    exact congrArg _ (ih fun y hy => h y (List.mem_cons_of_mem _ hy))

/-- Nothing was copied in, so no copy failed. -/
theorem not_contains_blob (recs : List Bytes) {b : Blob} (h : b ≠ .none) : (recs.map fun _ => Blob.none).contains b = false := by
  rw [← Bool.not_eq_true, List.contains_iff_mem]
  intro hb
  obtain ⟨_, _, rfl⟩ := List.mem_map.mp hb
  exact h rfl

/-- The rig of a bundle that copies nothing in. -/
def State.rigOfBundle (s : State) (o : Op) (recs : List Bytes) : Rig :=
  ⟨o.key, s.rig.orders, s.rig.judged, 1, rigCatch o.desc, rRigId o.desc, o.fn, (s.domainOf o.fn (dDomain o.desc)).getD 0, recs, [], [], none, []⟩

/-- The state with one more rig in the order of submission. -/
def State.rigCounted (s : State) : State := { s with rig := { s.rig with orders := s.rig.orders + 1 } }

section
variable {s : State} {o : Op} (hfields : rigFieldBad o.desc = false)
include hfields

theorem State.rigSubmit_malformed {b : Bytes} (l : List (Option Bytes)) (h : rBundleLen o.desc = 0 ∨ recordsOf b.length b = none) :
    s.rigSubmit o (some b) l = s.refuseRig o.key stRIG_INVALID := by
  unfold State.rigSubmit
  dsimp only
  rw [if_neg (by rw [hfields]; decide)]
  by_cases hlen : rBundleLen o.desc = 0
  · exact if_pos hlen
  · rw [if_neg hlen, h.resolve_left hlen]
    rfl

theorem State.rigSubmit_aborted (l : List (Option Bytes)) (hlen : rBundleLen o.desc ≠ 0) :
    s.rigSubmit o none l = s.refuseRig o.key stHOST_ABORT := by
  unfold State.rigSubmit
  dsimp only
  rw [if_neg (by rw [hfields]; decide), if_neg hlen]
  rfl

/-- A bundle that copies nothing in is judged, and is refused, past or VALID. -/
theorem State.rigSubmit_plain {b : Bytes} {recs : List Bytes} (l : List (Option Bytes)) (hlen : rBundleLen o.desc ≠ 0)
    (hbundle : recordsOf b.length b = some recs) (hplain : PlainRecs recs) :
    s.rigSubmit o (some b) l = match s.rigCounted.judge (s.rigOfBundle o recs) with
      | (true, s2) => s2.refuseRig o.key stRIG_INVALID
      | (false, s2) => if s2.catchPast (rigCatch o.desc) then s2.refuseRig o.key stRIG_CATCH_MISSED
        else { s2 with rig := { s2.rig with rigs := s2.rig.rigs ++ [s.rigOfBundle o recs], judged := s2.rig.judged + 1 } } := by
  unfold State.rigSubmit
  extract_lets d reject dom
  rw [if_neg (by rw [hfields]; decide), if_neg hlen]
  dsimp -zeta only
  simp -zeta only [hbundle]
  extract_lets needs list u r' src u1
  have hneeds : needs = false := by
    unfold needs
    rw [List.any_eq_false]
    intro x hx
    rw [blobOf_plain (hplain x hx)]
    simpa using (hplain x hx).2
  have hlist : list = recs.map fun _ => Blob.none := s.copyIn_plain _ hplain _
  have hu : u = s := by
    unfold u
    refine foldl_keeps (P := id) (fun v x hx => ?_) s
    rw [blobOf_plain (hplain x hx)]
  have hblobs : r'.blobs = [] := by
    refine List.filterMap_eq_nil_iff.mpr fun p hp => ?_
    have hnone : p.2 ∈ list := map_snd_mapIdx list ▸ List.mem_map_of_mem hp
    obtain ⟨_, _, he⟩ := List.mem_map.mp (hlist ▸ hnone)
    rw [← he]
  have hr : r' = s.rigOfBundle o recs := by
    unfold r' State.rigOfBundle
    rw [Rig.mk.injEq, hu]
    exact ⟨rfl, rfl, rfl, rfl, rfl, rfl, rfl, rfl, rfl, hblobs, rfl, rfl, rfl⟩
  have hu1 : u1 = s.rigCounted := by
    unfold u1 src
    rw [hu]
    rfl
  rw [hneeds, Bool.false_and, if_neg (by decide), hlist, not_contains_blob _ (by decide), not_contains_blob _ (by decide),
    not_contains_blob _ (by decide), if_neg (by decide), if_neg (by decide), if_neg (by decide), hu1, hr]
  rfl

end

/-- A descriptor that is taken and refused. -/
theorem State.rejects_taken {s s1 : State} {op : OpKey} {o : Op} (h : s.Ready op o) (hfr : Fr 0x800000003000 (s.setOp o.started) s1) (status : Nat) :
    s.Rejects (s1.refuseRig op status) op o status := by
  obtain ⟨o', hop, hkey, hlost, hslot⟩ := h.kept.congr (hfr.hif_eq rfl)
  have ho : o' = o.started := by
    obtain ⟨-, rfl, -⟩ := h
    rw [State.op?_congr (hfr.hif_eq rfl), show o.key = o.started.key from rfl, State.op?_setOp_self] at hop
    exact (Option.some.inj hop).symm
  subst ho
  have hrej := (State.refuseRig_kept hop hkey hlost hslot status).from (s := s) (hfr.swc_eq rfl) (hfr.sett_eq rfl)
  exact ⟨hrej.done, hrej.gone, hrej.tab, hrej.sett⟩

/-! ### Staging -/

/-- Where no entry waits for the rig none looks again. -/
theorem State.entriesLook_none {s : State} {k : OpKey}
    (h : ((List.range 4).all fun m => !((s.plan m).fired.any fun f => f.2 == .waits k.ring k.slot)) = true) : s.entriesLook k = s := by
  have hslot : ∀ m ∈ List.range 4, ((s.plan m).fired.filter fun f => f.2 == .waits k.ring k.slot) = [] := by
    intro m hm
    have := List.all_eq_true.mp h m hm
    rw [List.filter_eq_nil_iff]
    simpa using this
  unfold State.entriesLook
  generalize List.range 4 = l at hslot
  induction l with
  | nil => rfl
  | cons m l ih =>
    rw [List.foldl_cons]
    dsimp only
    rw [hslot m (List.mem_cons_self ..)]
    exact ih fun x hx => hslot x (List.mem_cons_of_mem _ hx)

/-- The rigs with one of them STAGED. -/
def stageIn (n : Nat) (deps : List Nat) (l : List Rig) : List Rig :=
  l.map fun x => if x.order = n then { x with st := 2, deps := deps } else x

/-- A rig of a descriptor that is VALID or STAGED. -/
def rigOpen (k : OpKey) (r : Rig) : Bool := r.key == k && decide (r.st ≤ 2)

/-- The rig staged is found STAGED. -/
theorem find_stageIn {k : OpKey} {r : Rig} {l : List Rig} (deps : List Nat) (h : l.find? (rigOpen k) = some r) :
    ((stageIn r.order deps l).find? (rigOpen k)).map Rig.st = some 2 := by
  induction l with
  | nil => exact absurd h (by simp)
  | cons x l ih =>
    rw [stageIn, List.map_cons]
    by_cases hord : x.order = r.order
    · rw [if_pos hord]
      by_cases hk : x.key = k
      · rw [List.find?_cons_of_pos (by simp [rigOpen, hk])]
        rfl
      · rw [List.find?_cons_of_neg (by simp [rigOpen, hk])]
        rw [List.find?_cons_of_neg (by simp [rigOpen, hk])] at h
        exact ih h
    · rw [if_neg hord]
      have hx : ¬rigOpen k x = true := by
        intro hx
        rw [List.find?_cons_of_pos hx] at h
        exact hord (congrArg Rig.order (Option.some.inj h))
      rw [List.find?_cons_of_neg hx]
      rw [List.find?_cons_of_neg hx] at h
      exact ih h

/-- A rig that is alone in its place in the order is found as it was staged. -/
theorem find_stageIn_alone {k : OpKey} {r : Rig} {l : List Rig} (deps : List Nat) (h : l.find? (rigOpen k) = some r)
    (halone : ∀ x ∈ l, x.order = r.order → x = r) :
    (stageIn r.order deps l).find? (rigOpen k) = some { r with st := 2, deps := deps } := by
  induction l with
  | nil => exact absurd h (by simp)
  | cons x l ih =>
    rw [stageIn, List.map_cons]
    by_cases hx : rigOpen k x = true
    · rw [List.find?_cons_of_pos hx] at h
      obtain rfl : x = r := Option.some.inj h
      rw [if_pos rfl, List.find?_cons_of_pos (by simp only [rigOpen, Bool.and_eq_true] at hx; simpa [rigOpen] using hx.1)]
    · rw [List.find?_cons_of_neg hx] at h
      have hord : x.order ≠ r.order := by
        intro hord
        obtain rfl := halone x (List.mem_cons_self ..) hord
        exact hx (List.find?_some h)
      rw [if_neg hord, List.find?_cons_of_neg hx]
      exact ih h fun y hy => halone y (List.mem_cons_of_mem _ hy)

/-- A rig in its turn. -/
structure State.InTurn (s : State) (k : OpKey) (r : Rig) : Prop where
  rig : s.rigOf k = some r
  valid : r.st = 1
  first : ((s.rig.rigs.filter fun x => x.st == 1 && (s.servingCox (x.key.ring % 8)).isSome).all fun x => decide (r.judged ≤ x.judged)) = true
  cox : (s.servingCox (k.ring % 8)).isSome = true

theorem State.rigStage_rests {s : State} {k : OpKey} (h : s.rigOf k = none ∨ (s.servingCox (k.ring % 8)).isSome = false) : s.rigStage k = s := by
  unfold State.rigStage
  cases hrig : s.rigOf k with
  | none => rfl
  | some r =>
    dsimp only
    have hcox : (s.servingCox (k.ring % 8)).isNone = true := by simpa [hrig] using h
    exact if_pos (Or.inr (Or.inr hcox))

section
variable {s : State} {k : OpKey} {r : Rig} (h : s.InTurn k r)
include h

/-- A rig in its turn is judged again. -/
theorem State.rigStage_of_turn : s.rigStage k = match s.judge r with
    | (true, s1) => (s1.dropRig k stRIG_INVALID).entriesLook k
    | (false, s1) =>
      if s.catchPast r.catch_ then (s1.dropRig k stRIG_CATCH_MISSED).entriesLook k
      else if s1.rigConflict r then (s1.dropRig k stRIG_CONFLICT).entriesLook k
      else if 256 ≤ (s1.rig.rigs.filter fun x => x.st == 2).length then (s1.dropRig k stRIG_FULL).entriesLook k
      else
        let s2 := s1.onRigs (stageIn r.order (s1.dependsOn r (applyRig (s1.tablesBefore r) r)))
        match r.catch_ with
        | .commit => s2.rigLive k s2.nowNs
        | .plan _ => s2.entriesLook k
        | .time _ => s2 := by
  have hcox : (s.servingCox (k.ring % 8)).isNone = false := by
    rw [← Option.not_isSome, h.cox]
    rfl
  unfold State.rigStage
  rw [h.rig]
  dsimp only
  rw [if_neg (by
    rintro (hv | hf | hc)
    · exact hv h.valid
    · exact absurd (h.first.symm.trans hf) (by decide)
    · exact absurd (hcox.symm.trans hc) (by decide))]
  rfl

theorem State.rigStage_bad (hbad : (s.judge r).1 = true) : s.rigStage k = ((s.judge r).2.dropRig k stRIG_INVALID).entriesLook k := by
  rw [State.rigStage_of_turn h]
  revert hbad
  generalize s.judge r = x
  obtain ⟨b, u⟩ := x
  rintro rfl
  rfl

/-- What becomes of a rig that is judged good. -/
theorem State.rigStage_good (hgood : (s.judge r).1 = false) : s.rigStage k =
    if s.catchPast r.catch_ then (s.dropRig k stRIG_CATCH_MISSED).entriesLook k
    else if s.rigConflict r then (s.dropRig k stRIG_CONFLICT).entriesLook k
    else if 256 ≤ (s.rig.rigs.filter fun x => x.st == 2).length then (s.dropRig k stRIG_FULL).entriesLook k
    else
      let s2 := s.onRigs (stageIn r.order (s.dependsOn r (applyRig (s.tablesBefore r) r)))
      match r.catch_ with
      | .commit => s2.rigLive k s2.nowNs
      | .plan _ => s2.entriesLook k
      | .time _ => s2 := by
  have hx : s.judge r = (false, s) := Prod.ext hgood (State.judge_good hgood)
  rw [State.rigStage_of_turn h, hx]

variable {o : Op} (hop : s.op? k = some o) (hkey : o.key = k) (hlost : o.lost = false) (hslot : k.slot ∈ (s.ring k.ring).taken)
  (hdeps : (s.rig.rigs.all fun x => !x.deps.contains r.order) = true)
include hop hkey hlost hslot hdeps

/-- A rig that leaves before it is STAGED is refused by name. -/
theorem State.rejects_dropped {s1 : State} (hfr : Fr 0x3000 s s1) (status : Nat) :
    s.Rejects ((s1.dropRig k status).entriesLook k) k o status := by
  have hhif := hfr.hif_eq rfl
  have hrig : s1.rigOf k = some r := (State.rigOf_congr (hfr.rig_eq rfl) k).trans h.rig
  rw [State.dropRig_alone hrig (by rw [hfr.rig_eq rfl]; exact hdeps)]
  exact (State.refuseRig_kept ((State.op?_congr hhif k).trans hop) hkey hlost (by rwa [State.ring_congr hhif]) status).from
    (hfr.swc_eq rfl) (hfr.sett_eq rfl)

end

/-! ### The rows -/

/-- What a rejection says of the state after a command that frees no sett. -/
theorem State.Rejects.row {s : State} {f : State → State} {k : OpKey} {o : Op} {status : Nat} (hco : s.coreOff = false)
    (h : s.Rejects (f s) k o status) :
    ((s.inPool f).op? k).map Op.phase = some (OpPhase.done ⟨dTag o.desc, status, false, 4, 0, rRigId o.desc⟩) ∧
    (s.inPool f).rigOf k = none ∧ (s.inPool f).swc.tab = s.swc.tab := by
  rw [State.inPool_of_setts hco h.sett]
  exact ⟨h.done, h.gone, h.tab⟩

/-- What a rig that goes LIVE says of the state after a command that frees no sett. -/
theorem State.Lives.row {s : State} {f : State → State} {k : OpKey} {o : Op} {r : Rig} (hco : s.coreOff = false)
    (h : s.Lives (f s) k o r) : s.Lives (s.inPool f) k o r := by
  rwa [State.inPool_of_setts hco h.sett]

end Sys2Proof.Machine


/-!
PROOFS. What RIG_SUBMIT, RIG_STAGE and CATCH_FIRE leave (R17 to R20, R25, R312, R551, R552, R555).
-/

namespace Sys2Proof.Machine

/-! ### RIG_SUBMIT -/

/-- A descriptor that is taken is submitted where nothing tries again what waits for setts. -/
theorem State.pooled_submit {s : State} {op : OpKey} {o : Op} (hready : s.Ready op o) (hkind : dKind o.desc = kindRIG)
    (b : Option Bytes) (l : List (Option Bytes)) {u : State} (hu : (s.setOp o.started).rigSubmit o.started b l = u) (hsett : u.sett = s.sett) :
    exec (.rigSubmit op b l) s = .next u := by
  have hstart : s.start op (isKind kindRIG) (fun o s => s.rigSubmit o b l) = u :=
    (State.start_ready hready (want := isKind kindRIG) (beq_iff_eq.mpr hkind) _).trans hu
  have hpool : s.pooled (fun s => s.start op (isKind kindRIG) fun o s => s.rigSubmit o b l) = u := by
    rw [State.pooled_of_setts (by rw [hstart, hsett]), hstart]
  exact congrArg Host.Outcome.next hpool

/-- A descriptor that is taken and refused by name. -/
theorem State.submit_refused {s s1 : State} {op : OpKey} {o : Op} (hready : s.Ready op o) (hkind : dKind o.desc = kindRIG) {b : Option Bytes}
    {l : List (Option Bytes)} {status : Nat} (hfr : Fr 0x800000003000 (s.setOp o.started) s1)
    (h : (s.setOp o.started).rigSubmit o.started b l = s1.refuseRig op status) : Completes (.rigSubmit op b l) s fun t =>
      (t.op? op).map Op.phase = some (OpPhase.done ⟨dTag o.desc, status, false, 4, 0, rRigId o.desc⟩) ∧
      t.rigOf op = none ∧ t.swc.tab = s.swc.tab := by
  have hrej := State.rejects_taken hready hfr status
  exact ⟨_, State.pooled_submit hready hkind b l h hrej.sett, hrej.done, hrej.gone, hrej.tab⟩

section
variable {s : State} {op : OpKey} {o : Op} {b : Bytes} {recs : List Bytes} {l : List (Option Bytes)} {r : Rig}
  (hready : s.Ready op o) (hkind : dKind o.desc = kindRIG) (hfields : rigFieldBad o.desc = false) (hlen : rBundleLen o.desc ≠ 0)
  (hbundle : recordsOf b.length b = some recs) (hplain : PlainRecs recs)
  (hr : r = Rig.mk op s.rig.orders s.rig.judged 1 (rigCatch o.desc) (rRigId o.desc) o.fn
    ((s.domainOf o.fn (dDomain o.desc)).getD 0) recs [] [] none [])
include hready hfields hlen hbundle hplain hr

/-- The judgement of a bundle that copies nothing in decides. -/
theorem State.submit_plain : (s.setOp o.started).rigSubmit o.started (some b) l = match (s.rigSeen o).judge r with
    | (true, s2) => s2.refuseRig op stRIG_INVALID
    | (false, s2) => if s2.catchPast r.catch_ then s2.refuseRig op stRIG_CATCH_MISSED
      else { s2 with rig := { s2.rig with rigs := s2.rig.rigs ++ [r], judged := s2.rig.judged + 1 } } := by
  obtain ⟨-, rfl, -⟩ := hready
  subst hr
  exact State.rigSubmit_plain (s := s.setOp o.started) (o := o.started) hfields l hlen hbundle hplain

theorem State.submit_bad (hbad : ((s.rigSeen o).judge r).1 = true) :
    (s.setOp o.started).rigSubmit o.started (some b) l = ((s.rigSeen o).judge r).2.refuseRig op stRIG_INVALID := by
  rw [State.submit_plain hready hfields hlen hbundle hplain hr]
  revert hbad
  generalize (s.rigSeen o).judge r = x
  obtain ⟨c, u⟩ := x
  rintro rfl
  rfl

theorem State.submit_good (hgood : ((s.rigSeen o).judge r).1 = false) :
    (s.setOp o.started).rigSubmit o.started (some b) l = if s.catchPast r.catch_ then (s.rigSeen o).refuseRig op stRIG_CATCH_MISSED
      else { s.rigSeen o with rig := { (s.rigSeen o).rig with rigs := s.rig.rigs ++ [r], judged := s.rig.judged + 1 } } := by
  have hx : (s.rigSeen o).judge r = (false, s.rigSeen o) := Prod.ext hgood (State.judge_good hgood)
  rw [State.submit_plain hready hfields hlen hbundle hplain hr, hx]
  rfl

end

theorem State.rigSeen_keeps (s : State) (o : Op) : Fr 0x800000003000 (s.setOp o.started) (s.rigSeen o) := Fr.rig_ (Fr.refl _ _) rfl

/-! ### CATCH_FIRE -/

/-- A STAGED rig is caught at its time. -/
theorem State.catchFire_due {s : State} {k : OpKey} {r : Rig} {a : Nat} (hrig : s.rigOf k = some r) (hcatch : r.catch_ = .time a)
    (hdue : s.reached a = true) (hplan : s.planCatchDue a = false) (hfirst : (s.rig.rigs.any fun x => x.st == 2 && x.before r) = false) :
    s.catchFire k = if r.st = 2 then s.rigLive k a else s.dropRig k stRIG_CATCH_MISSED := by
  unfold State.catchFire
  rw [hrig]
  dsimp only
  rw [hcatch]
  exact if_neg (by rw [hdue, hplan, hfirst]; decide)

theorem State.catchFire_early {s : State} {k : OpKey} {r : Rig} {a : Nat} (hrig : s.rigOf k = some r) (hcatch : r.catch_ = .time a)
    (hdue : s.reached a = false) : s.catchFire k = s := by
  unfold State.catchFire
  rw [hrig]
  dsimp only
  rw [hcatch]
  exact if_pos (Or.inl hdue)

/-- A descriptor that is not submitted by its time misses its catch. -/
theorem State.catchFire_waiting {s : State} {k : OpKey} {o : Op} {a : Nat} (hrig : s.rigOf k = none) (hop : s.op? k = some o)
    (hwaits : o.waits = true) (hkind : dKind o.desc = kindRIG) (hfields : rigFieldBad o.desc = false) (hcatch : rigCatch o.desc = .time a)
    (hdue : s.reached a = true) : s.catchFire k = s.rigReject k stRIG_CATCH_MISSED := by
  unfold State.catchFire
  rw [hrig]
  dsimp only
  rw [hop]
  dsimp only
  rw [hcatch]
  exact if_pos (by rw [hwaits, hkind, hfields, hdue]; decide)

/-! ### A rig caught at its commit -/

/-- A rig alone in the order that is caught at its commit goes LIVE as it is staged. -/
theorem State.lives_staged {s : State} {k : OpKey} {o : Op} {r : Rig} (deps : List Nat) (now : Nat) (hrig : s.rigOf k = some r)
    (halone : (s.rig.rigs.filter fun x => x.order == r.order) = [r]) (hbypass : r.bypass = none)
    (hrecs : ∀ x ∈ r.recs, rTab x ∈ plainTables) (hop : s.op? k = some o) (hkey : o.key = k) (hlost : o.lost = false)
    (hslot : k.slot ∈ (s.ring k.ring).taken) : s.Lives ((s.onRigs (stageIn r.order deps)).rigLive k now) k o r := by
  have hself : ∀ x ∈ s.rig.rigs, x.order = r.order → x = r := by
    intro x hx hord
    have hmem : x ∈ s.rig.rigs.filter fun x => x.order == r.order := List.mem_filter.mpr ⟨hx, beq_iff_eq.mpr hord⟩
    rw [halone] at hmem
    exact List.mem_singleton.mp hmem
  have hfound : (s.onRigs (stageIn r.order deps)).rigOf k = some { r with st := 2, deps := deps } := find_stageIn_alone deps hrig hself
  obtain ⟨htab, hlive, hkept, hdone, hsett, hplans⟩ := State.rigLive_plain (s := s.onRigs (stageIn r.order deps)) now hfound hbypass hrecs hop hkey
    hlost hslot
  exact ⟨htab, hlive, hkept, hdone, hsett, hplans⟩

/-! ### The rows -/

/-- Settles O40: a rig is refused, made VALID, STAGED, LIVE or dropped as the judgement, the time and the STAGED ones decide; no
sett comes free, so nothing that waited is tried again. -/
theorem rigRows : Obligations.RigRows := by
  unfold Obligations.RigRows
  refine ⟨?_, ?_, ?_, ?_, ?_, ?_, ?_, ?_, ?_, ?_, ?_, ?_, ?_, ?_, ?_, ?_, ?_⟩
  · intro s op o b l hready hkind hfields
    refine State.submit_refused hready hkind (Fr.refl _ _) ?_
    obtain ⟨-, rfl, -⟩ := hready
    unfold State.rigSubmit
    exact if_pos hfields
  · intro s op o b l hready hkind hfields h
    refine State.submit_refused hready hkind (Fr.refl _ _) ?_
    obtain ⟨-, rfl, -⟩ := hready
    exact State.rigSubmit_malformed (o := o.started) hfields l h
  · intro s op o l hready hkind hfields hlen
    refine State.submit_refused hready hkind (Fr.refl _ _) ?_
    obtain ⟨-, rfl, -⟩ := hready
    exact State.rigSubmit_aborted (o := o.started) hfields l hlen
  · intro s op o b recs r l hready hkind hfields hlen hbundle hplain hr hbad
    exact State.submit_refused hready hkind ((s.rigSeen_keeps o).trans (State.judge_fr (Fr.refl _ _) rfl))
      (State.submit_bad hready hfields hlen hbundle hplain hr hbad)
  · intro s op o b recs r l hready hkind hfields hlen hbundle hplain hr hgood hpast
    refine State.submit_refused hready hkind (s.rigSeen_keeps o) ?_
    rw [State.submit_good hready hfields hlen hbundle hplain hr hgood]
    exact if_pos hpast
  · intro s op o b recs r l hready hkind hfields hlen hbundle hplain hr hgood hpast
    have hsub : (s.setOp o.started).rigSubmit o.started (some b) l =
        { s.rigSeen o with rig := { (s.rigSeen o).rig with rigs := s.rig.rigs ++ [r], judged := s.rig.judged + 1 } } := by
      rw [State.submit_good hready hfields hlen hbundle hplain hr hgood]
      exact if_neg fun h => absurd (h.symm.trans hpast) (by decide)
    have hfr : Fr 0x800040000000 s { s.rigSeen o with rig := { (s.rigSeen o).rig with rigs := s.rig.rigs ++ [r], judged := s.rig.judged + 1 } } :=
      Fr.rig_ (s := s.setOp o.started) ((s.setOp_keeps o.started).weaken rfl) rfl
    refine ⟨_, State.pooled_submit hready hkind _ l hsub (hfr.sett_eq rfl), rfl, rfl, rfl, ?_, hfr.within (ps := [.hif, .rig]) (by decide +kernel)⟩
    obtain ⟨-, rfl, -⟩ := hready
    exact (State.underWay_congr (s := s.setOp o.started) rfl _).trans (s.underWay_setOp o)
  · intro s k o r hrig hop hkey hlost hslot hst hfirst hcox hdeps hbad
    have hturn : s.InTurn k r := ⟨hrig, hst, hfirst, hcox⟩
    exact ⟨_, rfl, State.Rejects.row (State.coreOff_of_serving hcox) (by
      rw [State.rigStage_bad hturn hbad]
      exact State.rejects_dropped hturn hop hkey hlost hslot hdeps (s.judge_keeps r) _)⟩
  · intro s k o r hrig hop hkey hlost hslot hst hfirst hcox hdeps hgood hpast
    have hturn : s.InTurn k r := ⟨hrig, hst, hfirst, hcox⟩
    exact ⟨_, rfl, State.Rejects.row (State.coreOff_of_serving hcox) (by
      rw [State.rigStage_good hturn hgood, if_pos (show s.catchPast r.catch_ = true from hpast)]
      exact State.rejects_dropped hturn hop hkey hlost hslot hdeps (Fr.refl _ s) _)⟩
  · intro s k o r hrig hop hkey hlost hslot hst hfirst hcox hdeps hgood hpast hconflict
    have hturn : s.InTurn k r := ⟨hrig, hst, hfirst, hcox⟩
    have hin : ¬s.catchPast r.catch_ = true := fun h => absurd (h.symm.trans hpast) (by decide)
    exact ⟨_, rfl, State.Rejects.row (State.coreOff_of_serving hcox) (by
      rw [State.rigStage_good hturn hgood, if_neg hin, if_pos hconflict]
      exact State.rejects_dropped hturn hop hkey hlost hslot hdeps (Fr.refl _ s) _)⟩
  · intro s k o r hrig hop hkey hlost hslot hst hfirst hcox hdeps hgood hpast hconflict hfull
    have hturn : s.InTurn k r := ⟨hrig, hst, hfirst, hcox⟩
    have hin : ¬s.catchPast r.catch_ = true := fun h => absurd (h.symm.trans hpast) (by decide)
    exact ⟨_, rfl, State.Rejects.row (State.coreOff_of_serving hcox) (by
      rw [State.rigStage_good hturn hgood, if_neg hin, if_neg (by rw [hconflict]; decide), if_pos hfull]
      exact State.rejects_dropped hturn hop hkey hlost hslot hdeps (Fr.refl _ s) _)⟩
  · intro s k o r hrig hop hkey hlost hslot hst hfirst hcox hgood hnone halone hcatch hbypass hrecs
    have hturn : s.InTurn k r := ⟨hrig, hst, hfirst, hcox⟩
    have hconflict : s.rigConflict r = false := by
      refine List.any_eq_false.mpr fun x hx => ?_
      have := List.filter_eq_nil_iff.mp hnone x hx
      simp [this]
    have hlives := State.Lives.row (f := fun s => s.rigStage k) (State.coreOff_of_serving hcox) (by
      beta_reduce
      rw [State.rigStage_good hturn hgood, hcatch, if_neg (show ¬s.catchPast .commit = true from Bool.false_ne_true), if_neg (by rw [hconflict]; decide), if_neg (by rw [hnone]; decide)]
      exact State.lives_staged _ _ hrig halone hbypass hrecs hop hkey hlost hslot)
    exact ⟨_, rfl, hlives.tab, hlives.live, hlives.kept, hlives.done⟩
  · intro s k r hrig hst hfirst hcox hgood hconflict hroom hwaits hlook
    have hturn : s.InTurn k r := ⟨hrig, hst, hfirst, hcox⟩
    have hnext : s.rigStage k = s.onRigs (stageIn r.order (s.dependsOn r (applyRig (s.tablesBefore r) r))) := by
      rw [State.rigStage_good hturn hgood, if_neg (by
        intro h
        cases hc : r.catch_ with
        | time a =>
          rw [hc] at h hwaits
          exact absurd (h.symm.trans hwaits) (by decide)
        | commit =>
          rw [hc] at h
          exact absurd h Bool.false_ne_true
        | plan n =>
          rw [hc] at h
          exact absurd h Bool.false_ne_true), if_neg (by rw [hconflict]; decide), if_neg (by omega)]
      cases hc : r.catch_ with
      | commit =>
        rw [hc] at hwaits
        exact Bool.noConfusion (show true = false from hwaits)
      | time a => rfl
      | plan n => exact State.entriesLook_none hlook
    have hfr : Fr 0x800000000000 s (s.rigStage k) := hnext ▸ State.onRigs_fr (Fr.refl _ s) rfl
    refine ⟨_, rfl, ?_⟩
    beta_reduce
    rw [State.inPool_of_setts (State.coreOff_of_serving hcox) (hfr.sett_eq rfl)]
    refine ⟨?_, hfr.within (ps := [.rig]) (by decide +kernel)⟩
    beta_reduce
    rw [hnext]
    exact find_stageIn _ hrig
  · intro s k h
    exact ⟨_, rfl, State.inPool_of_same (State.rigStage_rests h)⟩
  · intro s k o r a hco hrig hop hkey hlost hslot hst hcatch hdue hplan hfirst hbypass hrecs
    have hlives := State.Lives.row (f := fun s => s.catchFire k) hco (by
      beta_reduce
      rw [State.catchFire_due hrig hcatch hdue hplan hfirst, if_pos hst]
      exact State.rigLive_plain a hrig hbypass hrecs hop hkey hlost hslot)
    exact ⟨_, rfl, hlives.tab, hlives.live, hlives.kept, hlives.done⟩
  · intro s k r a hrig hcatch hdue
    exact ⟨_, rfl, State.inPool_of_same (State.catchFire_early hrig hcatch hdue)⟩
  · intro s k o r a hco hrig hop hkey hlost hslot hdeps hst hcatch hdue hplan hfirst
    exact ⟨_, rfl, State.Rejects.row hco (by
      rw [State.catchFire_due hrig hcatch hdue hplan hfirst, if_neg (by rw [hst]; decide), State.dropRig_alone hrig hdeps]
      exact State.rigReject_kept hop hkey hlost hslot _)⟩
  · intro s k o a hco hrig hop hkey hlost hslot hwaits hkind hfields hcatch hdue
    exact ⟨_, rfl, State.Rejects.row hco (by
      rw [State.catchFire_waiting hrig hop hwaits hkind hfields hcatch hdue]
      exact State.rigReject_kept hop hkey hlost hslot _)⟩

end Sys2Proof.Machine


/-!
PROOFS. Transfers and code tables (R116, R139 to R142, R356, R370, R452, R453).
-/

namespace Sys2Proof.Machine

/-! ### Starting -/

/-- A refusal looks at registers and at the descriptor. -/
theorem State.xferRefusal_started (s : State) (o : Op) (src dst : Bool) :
    (s.setOp o.started).xferRefusal o.started src dst = s.xferRefusal o src dst := rfl

section
variable {s : State} {o : Op} (hend : o.endWith = none) {bad : Bool} {go : State → State}
include hend

theorem State.xferStart_empty (hlen : xLength o.desc = 0) : s.xferStart o bad go = s.finish o.key stZERO_LEN := by
  unfold State.xferStart
  dsimp only
  rw [hend]
  exact if_pos hlen

theorem State.xferStart_bad (hlen : xLength o.desc ≠ 0) (hbad : bad = true) : s.xferStart o bad go = s.finish o.key stBAD_FIELD := by
  unfold State.xferStart
  dsimp only
  rw [hend]
  dsimp only
  rw [if_neg hlen, if_pos hbad]

theorem State.xferStart_refused (hlen : xLength o.desc ≠ 0) (hbad : bad = false) {st : Nat} (href : s.xferRefusal o true true = some st) :
    s.xferStart o bad go = s.finish o.key st := by
  unfold State.xferStart
  dsimp only
  rw [hend]
  dsimp only
  rw [if_neg hlen, if_neg (by rw [hbad]; decide), href]

theorem State.xferStart_overlap (hlen : xLength o.desc ≠ 0) (hbad : bad = false) (href : s.xferRefusal o true true = none)
    (hover : xferOverlaps o.desc = true) : s.xferStart o bad go = s.finish o.key stBAD_FIELD := by
  unfold State.xferStart
  dsimp only
  rw [hend]
  dsimp only
  rw [if_neg hlen, if_neg (by rw [hbad]; decide), href]
  exact if_pos hover

theorem State.xferStart_goes (hlen : xLength o.desc ≠ 0) (hbad : bad = false) (href : s.xferRefusal o true true = none)
    (hover : xferOverlaps o.desc = false) : s.xferStart o bad go = go s := by
  unfold State.xferStart
  dsimp only
  rw [hend]
  dsimp only
  rw [if_neg hlen, if_neg (by rw [hbad]; decide), href]
  exact if_neg (by rw [hover]; decide)

end

/-- An operation that is taken and completes at once. -/
theorem State.Ready.finishes {s : State} {op : OpKey} {o : Op} (h : s.Ready op o) (status ext : Nat) :
    ((s.setOp o.started).finish op status ext).endedWith op status = true ∧
    SameBut [.hif] s ((s.setOp o.started).finish op status ext) :=
  ⟨State.endedWith_finish h.kept _ _ _, (((s.setOp_keeps _).trans (State.finish_keeps _ _ _ _ _)).within (ps := [.hif]) (by decide +kernel))⟩

/-- An operation that is taken and runs. -/
theorem State.Ready.runs {s : State} {op : OpKey} {o : Op} (h : s.Ready op o) :
    (s.setOp o.started).op? op = some { o with phase := OpPhase.running } ∧ SameBut [.hif] s (s.setOp o.started) := by
  obtain ⟨-, rfl, -⟩ := h
  exact ⟨State.op?_setOp_self s o.started, (s.setOp_keeps _).within (ps := [.hif]) (by decide +kernel)⟩

/-- A transfer that is taken runs its start. -/
theorem completes_start {c : Instr} {s : State} {op : OpKey} {o : Op} {want : Bytes → Bool} {body : Op → State → State} {P : State → Prop}
    (hexec : exec c s = .next (s.start op want body)) (h : s.Ready op o) (hw : want o.desc = true)
    (hP : P (body o.started (s.setOp o.started))) : Completes c s P :=
  ⟨_, hexec, by rw [State.start_ready h hw]; exact hP⟩

/-! ### Segments -/

/-- An operation in its place that is ended has ended. -/
theorem State.endedWith_endOp {s : State} {k : OpKey} {o : Op} (hop : s.op? k = some o) (hkey : o.key = k) (hlost : o.lost = false)
    (hslot : k.slot ∈ (s.ring k.ring).taken) (c : Completion) : (s.endOp k c).endedWith k c.status = true := by
  rw [State.endOp_kept hop hlost hslot, State.endedWith, State.op?_setOp, if_pos hkey.symm]
  exact beq_self_eq_true _

/-- A transfer that ends completes with its status, and sends nothing. -/
theorem State.xferEnd_kept {s : State} {k : OpKey} {o o' : Op} (hk : o'.key = k) (hop : s.op? k = some o) (hkey : o.key = k) (hlost : o.lost = false)
    (hslot : k.slot ∈ (s.ring k.ring).taken) (status : Nat) :
    (s.xferEnd o' status).endedWith k status = true ∧ (s.xferEnd o' status).out = s.out := by
  subst hk
  have hdrop : Fr 0x1040000000000 s ((s.blocksDrop (.xfer o'.key)).onKmc fun k => { k with chain := k.chain.del o'.key }) :=
    Fr.kmc_ (State.blocksDrop_fr (Fr.refl _ s) rfl) rfl
  unfold State.xferEnd
  dsimp only
  generalize (s.blocksDrop (.xfer o'.key)).onKmc (fun k => { k with chain := k.chain.del o'.key }) = u at hdrop ⊢
  have hhif := hdrop.hif_eq rfl
  refine ⟨State.endedWith_endOp ((State.op?_congr hhif _).trans hop) hkey hlost (by rwa [State.ring_congr hhif]) _, ?_⟩
  exact ((State.endOp_fr (Fr.refl 0x40000000 u) rfl).out_eq rfl).trans (hdrop.out_eq rfl)

/-- A running copy between host addresses, in its place. -/
structure State.Copies (s : State) (op : OpKey) (o : Op) : Prop where
  entry : s.op? op = some o
  key : o.key = op
  lost : o.lost = false
  slot : op.slot ∈ (s.ring op.ring).taken
  phase : o.phase = OpPhase.running
  hold : o.hold = Hold.none
  stays : o.endWith = none
  kind : isXfer 0 o.desc = true
  src : xSrcSpace o.desc = 0
  dst : xDstSpace o.desc = 0

section
variable {s : State} {op : OpKey} {o : Op} (h : s.Copies op o)
include h

theorem State.segmentCommit_copy (src dst : HostAccess) (r : MemRead) : s.segmentCommit op src dst r = s.segCopy o src dst r := by
  have hkind := h.kind
  unfold isXfer at hkind
  rw [Bool.and_eq_true, beq_iff_eq, beq_iff_eq] at hkind
  obtain ⟨hk, hop⟩ := hkind
  have hruns : o.runs = true := by
    unfold Op.runs
    rw [h.phase]
  unfold State.segmentCommit
  rw [h.entry]
  dsimp only
  rw [if_neg (by rw [hruns, hk, h.hold]; decide)]
  generalize dOp o.desc = x at hop
  subst hop
  rfl

/-- Where the host aborts the read the copy ends, and nothing is written. -/
theorem State.segCopy_aborted (dst : HostAccess) (r : MemRead) :
    (s.segCopy o (.done none false) dst r).endedWith op stHOST_ABORT = true ∧ (s.segCopy o (.done none false) dst r).out = s.out := by
  have heq : s.segCopy o (.done none false) dst r = (s.fresh).2.xferEnd o stHOST_ABORT := by
    unfold State.segCopy State.segRead
    dsimp only
    rw [if_pos h.src]
    dsimp only
    unfold State.segPart State.segStop
    dsimp only
    rw [List.take_nil]
    rfl
  rw [heq]
  exact State.xferEnd_kept (s := s.fresh.2) h.key h.entry h.key h.lost h.slot _

/-- A segment that is read and written goes out, and the copy goes on or is complete. -/
theorem State.segCopy_written (b x : Bytes) (r : MemRead) : s.segCopy o (.done (some b) false) (.done (some x) false) r =
    (s.emit (.hostWrite o.fn (xDstAddr o.desc + o.seg * 65536) (b.take (min 65536 (xLength o.desc - o.seg * 65536))))).segDone o := by
  unfold State.segCopy State.segRead State.segWrite
  dsimp only
  rw [if_pos h.src]
  dsimp only
  rw [if_pos (beq_iff_eq.mpr h.dst)]
  rfl

theorem State.segDone_copy : (s.segDone o).out = s.out ∧
    (if xLength o.desc ≤ (o.seg + 1) * 65536 then (s.segDone o).endedWith op stOK = true
     else (s.segDone o).op? op = some { o with seg := o.seg + 1 }) := by
  have hbytes : xferSegBytes o.desc = 65536 := by
    have hkind := h.kind
    unfold isXfer at hkind
    rw [Bool.and_eq_true, beq_iff_eq, beq_iff_eq] at hkind
    unfold xferSegBytes
    rw [if_neg (by rw [hkind.2]; decide)]
  have hnext : (s.setOp { o with seg := o.seg + 1, hold := .none }).op? op = some { o with seg := o.seg + 1, hold := .none } := by
    rw [State.op?_setOp, if_pos h.key.symm]
  unfold State.segDone
  dsimp only
  rw [hbytes]
  split
  · obtain ⟨hend, hout⟩ := State.xferEnd_kept (s := s.setOp { o with seg := o.seg + 1, hold := .none })
      (o' := { o with seg := o.seg + 1, hold := .none }) h.key hnext h.key h.lost h.slot stOK
    exact ⟨hout, hend⟩
  · split
    · next st he => exact absurd (h.stays.symm.trans he) (by simp)
    · refine ⟨rfl, ?_⟩
      rw [hnext, ← h.hold]

end

theorem State.segmentCommit_rests {s : State} {op : OpKey} {o : Op} (hop : s.op? op = some o)
    (h : o.phase ≠ OpPhase.running ∨ dKind o.desc ≠ kindXFER ∨ o.hold ≠ Hold.none) (src dst : HostAccess) (r : MemRead) :
    s.segmentCommit op src dst r = s := by
  have hruns : o.phase ≠ OpPhase.running → o.runs = false := by
    intro hp
    unfold Op.runs
    split
    · next hr => exact absurd hr hp
    · rfl
  unfold State.segmentCommit
  rw [hop]
  dsimp only
  refine if_pos ?_
  simp only [Bool.or_eq_true, Bool.not_eq_true', bne_iff_ne]
  tauto

/-! ### Code tables -/

/-- A refusal of a code table looks at the tables and at the descriptor. -/
theorem State.codeTableRefusal_started (s : State) (o : Op) (b : Bytes) : (s.setOp o.started).codeTableRefusal o.started b = s.codeTableRefusal o b := rfl

theorem State.codeTable_refused {s : State} {o : Op} {b : Option Bytes} {e : Nat} (h : s.codeTableRefusal o (b.getD []) = some e) (he : e ≠ 2) :
    s.codeTable o b = s.finish o.key stBAD_FIELD e := by
  unfold State.codeTable
  dsimp only
  rw [h]
  rcases e with _ | _ | _ | e
  · rfl
  · rfl
  · exact absurd rfl he
  · rfl

/-- A request that passes acts on its one die. -/
theorem State.codeTable_passes {s : State} {o : Op} {b : Bytes} {die : Nat} (h : s.codeTableRefusal o b = none)
    (hdies : codeTableDies (mParam0 o.desc) = [die]) : s.codeTable o (some b) = (s.codeTableDie (mParam0 o.desc) b die).finish o.key stOK := by
  unfold State.codeTable
  dsimp only [Option.getD_some]
  rw [h, hdies]
  rfl

/-- Retiring needs no levels. -/
theorem State.codeTable_retires {s : State} {o : Op} (b : Option Bytes) (hret : bitAt (mParam0 o.desc) 10 = true) {die : Nat}
    (hdies : codeTableDies (mParam0 o.desc) = [die]) (hsize : bitsOf (mParam0 o.desc) 11 2 ≠ 3) :
    ∃ l, s.codeTable o b = (s.codeTableDie (mParam0 o.desc) l die).finish o.key stOK := by
  have hpass (l : Bytes) : s.codeTableRefusal o l = none := by
    unfold State.codeTableRefusal
    dsimp only
    rw [hdies, hret]
    simp [hsize]
  cases b with
  | some b => exact ⟨b, State.codeTable_passes (hpass b) hdies⟩
  | none =>
    refine ⟨[], ?_⟩
    unfold State.codeTable
    dsimp only
    rw [hpass]
    dsimp only
    rw [if_pos hret, hdies]
    rfl

theorem State.table_setTable_self (s : State) (die id : Nat) (t : CodeTable) : (s.setTable die id t).table die id = t := AMap.getD_put_self _ _ _ _

theorem State.table_setTable_ne (s : State) {die id d i : Nat} (t : CodeTable) (h : (d, i) ≠ (die, id)) : (s.setTable die id t).table d i = s.table d i :=
  AMap.getD_put_ne _ _ _ _ _ h

theorem State.table_congr {s t : State} (h : t.ash = s.ash) (d i : Nat) : t.table d i = s.table d i := by rw [State.table, h, State.table]

theorem State.table_finish (s : State) (k : OpKey) (st d i : Nat) : (s.finish k st).table d i = s.table d i :=
  State.table_congr ((State.finish_keeps _ _ _ _ _).ash_eq rfl) d i

theorem State.codeTableDie_keeps (s : State) (p : Nat) (l : Bytes) (die : Nat) : Fr 0x40000004000 s (s.codeTableDie p l die) :=
  State.codeTableDie_fr (Fr.refl _ s) rfl

/-- An install loads the slot of the die, and no other. -/
theorem State.codeTableDie_installs (s : State) {p : Nat} (b : Bytes) (die : Nat) (h : bitAt p 10 = false) :
    (s.codeTableDie p b die).table die (p % 256) = ⟨1, bitsOf p 11 2, (List.range (tableLevels (bitsOf p 11 2))).map (fun i => getLE b (2 * i) 2), 0⟩ ∧
    ∀ d i, (d, i) ≠ (die, p % 256) → (s.codeTableDie p b die).table d i = s.table d i := by
  unfold State.codeTableDie
  dsimp only
  rw [if_neg (by rw [h]; decide)]
  refine ⟨?_, fun d i hd => ?_⟩
  · rw [State.table_congr ((State.ashCount_fr (Fr.refl 0x4000 _) rfl).ash_eq rfl), State.table_setTable_self]
  · rw [State.table_congr ((State.ashCount_fr (Fr.refl 0x4000 _) rfl).ash_eq rfl), State.table_setTable_ne _ _ hd]

/-- A slot that is retired is FREE at once, or once its blocks are out. -/
theorem State.codeTableDie_retires (s : State) {p : Nat} (l : Bytes) (die : Nat) (h : bitAt p 10 = true) :
    (s.codeTableDie p l die).table die (p % 256) = if (s.table die (p % 256)).st ≠ 1 then s.table die (p % 256)
      else if (s.table die (p % 256)).count = 0 then {} else { s.table die (p % 256) with st := 2 } := by
  unfold State.codeTableDie
  dsimp only
  rw [if_pos h]
  by_cases hst : (s.table die (p % 256)).st = 1
  · rw [if_pos hst, if_neg (not_not_intro hst), State.table_setTable_self]
  · rw [if_neg hst, if_pos hst]

end Sys2Proof.Machine


/-!
PROOFS. What the transfers and CODE_TABLE leave (R116, R139 to R142, R356, R370, R452, R453).
-/

namespace Sys2Proof.Machine

/-! ### Check transfers -/

/-- The fields of a check transfer that make it a bad one. -/
def checkBad (d : Bytes) : Bool := decide (1 < kMode d) || decide (3 < getLE d 0x2C 1) || !allZero (sliceB d 0x2D 3)

theorem checkBad_iff (d : Bytes) : checkBad d = true ↔ 1 < kMode d ∨ 3 < getLE d 0x2C 1 ∨ allZero (sliceB d 0x2D 3) = false := by
  simp only [checkBad, Bool.or_eq_true, decide_eq_true_eq, Bool.not_eq_true', or_assoc]

theorem checkBad_false {d : Bytes} (hmode : kMode d ≤ 1) (hflags : getLE d 0x2C 1 ≤ 3) (hzero : allZero (sliceB d 0x2D 3) = true) :
    checkBad d = false := by
  rw [← Bool.not_eq_true, checkBad_iff]
  rintro (h | h | h)
  · omega
  · omega
  · exact absurd (hzero.symm.trans h) (by decide)

section
variable {s : State} {o : Op} (hend : o.endWith = none) (hlen : xLength o.desc ≠ 0)
include hend hlen

theorem State.checkStart_bad (st : Option Bytes) (hbad : checkBad o.desc = true) : s.checkStart o st = s.finish o.key stBAD_FIELD := by
  unfold State.checkStart
  exact State.xferStart_bad hend hlen hbad

variable (hbad : checkBad o.desc = false) (href : s.xferRefusal o true true = none) (hover : xferOverlaps o.desc = false)
include hbad href hover

/-- A chain that begins is empty. -/
theorem State.checkStart_begins (st : Option Bytes) (hbegin : kMode o.desc = 1 ∨ kStart o.desc = true) (hchain : s.kmc.chain = []) :
    s.checkStart o st = s.onKmc fun k => { k with chain := k.chain.put o.key [] } := by
  have hput : (s.kmc.chain.put o.key ([] : Bytes)) = [(o.key, [])] := by
    rw [hchain]
    rfl
  unfold State.checkStart
  refine (State.xferStart_goes hend hlen hbad href hover).trans ?_
  beta_reduce
  rw [if_pos hbegin]
  refine if_neg ?_
  show ¬64 < (s.kmc.chain.put o.key ([] : Bytes)).length
  rw [hput]
  simp

theorem State.checkStart_aborted (hmode : kMode o.desc = 0) (hstart : kStart o.desc = false) :
    s.checkStart o none = s.finish o.key stHOST_ABORT := by
  unfold State.checkStart
  refine (State.xferStart_goes hend hlen hbad href hover).trans ?_
  beta_reduce
  exact if_neg (by rw [hmode, hstart]; decide)

end

/-! ### The rows -/

/-- The fields of a copy with expansion that make it a bad one. -/
theorem expandBad_iff (d : Bytes) : (decide (2 < xProfile d) || decide (xLength d % ashBytes (xProfile d) ≠ 0)) = true ↔
    2 < xProfile d ∨ xLength d % ashBytes (xProfile d) ≠ 0 := by
  rw [Bool.or_eq_true, decide_eq_true_eq, decide_eq_true_eq]

theorem expandBad_false {d : Bytes} (h : xProfile d ≤ 2 ∧ xLength d % ashBytes (xProfile d) = 0) :
    (decide (2 < xProfile d) || decide (xLength d % ashBytes (xProfile d) ≠ 0)) = false := by
  rw [← Bool.not_eq_true, expandBad_iff]
  obtain ⟨hp, hn⟩ := h
  rintro (h | h)
  · omega
  · exact h hn

/-- A transfer that is taken and finishes at once. -/
theorem completes_finish {c : Instr} {s : State} {op : OpKey} {o : Op} {want : Bytes → Bool} {body : Op → State → State} {status : Nat}
    (hexec : exec c s = .next (s.start op want body)) (h : s.Ready op o) (hw : want o.desc = true)
    (hbody : body o.started (s.setOp o.started) = (s.setOp o.started).finish o.key status) :
    Completes c s fun t => t.endedWith op status = true ∧ SameBut [.hif] s t := by
  refine completes_start hexec h hw ?_
  rw [hbody, show o.key = op from h.2.1]
  exact h.finishes status 0

/-- A transfer that is taken and runs. -/
theorem completes_runs {c : Instr} {s : State} {op : OpKey} {o : Op} {want : Bytes → Bool} {body : Op → State → State}
    (hexec : exec c s = .next (s.start op want body)) (h : s.Ready op o) (hw : want o.desc = true)
    (hbody : body o.started (s.setOp o.started) = s.setOp o.started) :
    Completes c s fun t => t.op? op = some { o with phase := OpPhase.running } ∧ SameBut [.hif] s t := by
  refine completes_start hexec h hw ?_
  rw [hbody]
  exact h.runs

/-- A request of the PF that is taken and ends. -/
theorem exec_codeTable {s : State} {op : OpKey} {o : Op} (h : s.Ready op o) (hw : isMgmt 0xd o.desc = true) (hfn : o.fn = 0) (b : Option Bytes) :
    exec (.codeTable op b) s = .next ((s.setOp o.started).codeTable o.started b) :=
  congrArg Host.Outcome.next (State.mgmtPF_ready h hw hfn _)

/-- Settles O47: a transfer or table request by the checks its start makes in order, a segment of a host copy by the one write it
sends and by what the operation does next. -/
theorem transferRows : Obligations.TransferRows := by
  unfold Obligations.TransferRows
  refine ⟨?_, ?_, ?_, ?_, ?_, ?_, ?_, ?_, ?_, ?_, ?_, ?_, ?_, ?_, ?_, ?_, ?_, ?_⟩
  · intro s op o h hw hend hlen
    exact completes_finish rfl h hw (State.xferStart_empty (o := o.started) hend hlen)
  · intro s op o st h hw hend hlen href
    exact completes_finish rfl h hw (State.xferStart_refused (o := o.started) hend hlen rfl href)
  · intro s op o h hw hend hlen href hover
    exact completes_finish rfl h hw (State.xferStart_overlap (o := o.started) hend hlen rfl href hover)
  · intro s op o h hw hend hlen href hover
    exact completes_runs rfl h hw (State.xferStart_goes (o := o.started) hend hlen rfl href hover)
  · intro s op o h hw hend hlen
    exact completes_finish rfl h hw (State.xferStart_empty (o := o.started) hend hlen)
  · intro s op o st h hw hend hlen hfields href
    exact completes_finish rfl h hw (State.xferStart_refused (o := o.started) hend hlen (expandBad_false hfields) href)
  · intro s op o h hw hend hlen hfields href hover
    exact completes_finish rfl h hw (State.xferStart_overlap (o := o.started) hend hlen (expandBad_false hfields) href hover)
  · intro s op o h hw hend hlen hfields href hover
    exact completes_runs rfl h hw (State.xferStart_goes (o := o.started) hend hlen (expandBad_false hfields) href hover)
  · intro s op o h hw hend hlen hfields
    exact completes_finish rfl h hw (State.xferStart_bad (o := o.started) hend hlen ((expandBad_iff _).mpr hfields))
  · intro s op o st h hw hend hlen hfields
    exact completes_finish rfl h hw (State.checkStart_bad (o := o.started) hend hlen st ((checkBad_iff _).mpr hfields))
  · intro s op o st h hw hend hlen hmode hflags hzero href hover hbegin hchain
    refine completes_start rfl h hw ?_
    rw [State.checkStart_begins (s := s.setOp o.started) (o := o.started) hend hlen (checkBad_false hmode hflags hzero) href hover st hbegin hchain]
    have hfr : Fr 0x1000040000000 s ((s.setOp o.started).onKmc fun k => { k with chain := k.chain.put o.started.key [] }) :=
      Fr.kmc_ ((s.setOp_keeps o.started).weaken rfl) rfl
    refine ⟨?_, ?_, hfr.within (ps := [.hif, .kmc]) (by decide +kernel)⟩
    · show s.kmc.chain.put o.key [] = _
      rw [hchain, h.2.1]
      rfl
    · obtain ⟨-, rfl, -⟩ := h
      exact (State.underWay_congr (s := s.setOp o.started) rfl _).trans (s.underWay_setOp o)
  · intro s op o h hw hend hlen hmode hflags hzero href hover hdigest hstart
    exact completes_finish rfl h hw (State.checkStart_aborted (o := o.started) hend hlen (checkBad_false hmode hflags hzero) href hover hdigest hstart)
  · intro s op o dst r hco hlost hop hkey hslot hphase hhold hend hw hsrc hdst
    have hcopy : s.Copies op o := ⟨hop, hkey, hlost, hslot, hphase, hhold, hend, hw, hsrc, hdst⟩
    refine ⟨_, rfl, ?_⟩
    beta_reduce
    rw [State.inCore_on hco]
    beta_reduce
    rw [State.segmentCommit_copy hcopy]
    exact State.segCopy_aborted hcopy dst r
  · intro s op o b x r hco hlost hop hkey hslot hphase hhold hend hw hsrc hdst
    have hcopy : s.Copies op o := ⟨hop, hkey, hlost, hslot, hphase, hhold, hend, hw, hsrc, hdst⟩
    refine ⟨_, rfl, ?_⟩
    beta_reduce
    rw [State.inCore_on hco]
    beta_reduce
    rw [State.segmentCommit_copy hcopy, State.segCopy_written hcopy]
    obtain ⟨hout, hnext⟩ := State.segDone_copy (s := s.emit (.hostWrite o.fn (xDstAddr o.desc + o.seg * 65536)
      (b.take (min 65536 (xLength o.desc - o.seg * 65536))))) ⟨hop, hkey, hlost, hslot, hphase, hhold, hend, hw, hsrc, hdst⟩
    exact ⟨hout, hnext⟩
  · intro s op src dst r o ho h
    exact ⟨_, rfl, State.inCore_of_same (State.segmentCommit_rests (Option.mem_toList.mp ho) h src dst r)⟩
  · intro s op o b e h hw hfn href he
    refine ⟨_, exec_codeTable h hw hfn b, ?_⟩
    rw [State.codeTable_refused (s := s.setOp o.started) (o := o.started) href he, show o.started.key = op from h.2.1]
    exact h.finishes stBAD_FIELD e
  · intro s op o b h hw hfn hinstall hdies href
    have hkept := h.kept.congr ((State.codeTableDie_keeps (s.setOp o.started) (mParam0 o.desc) b 1).hif_eq rfl)
    obtain ⟨hload, hothers⟩ := State.codeTableDie_installs (s.setOp o.started) b 1 hinstall
    refine ⟨_, exec_codeTable h hw hfn (some b), ?_⟩
    rw [State.codeTable_passes (s := s.setOp o.started) (o := o.started) href hdies, show o.started.key = op from h.2.1]
    refine ⟨State.endedWith_finish hkept _ _ _, ?_, fun d i hd => ?_⟩
    · rw [State.table_finish]
      exact hload
    · rw [State.table_finish]
      exact hothers d i hd
  · intro s op o b h hw hfn hretire hdies hsize
    obtain ⟨l, heq⟩ := State.codeTable_retires (s := s.setOp o.started) (o := o.started) b hretire hdies hsize
    have hkept := h.kept.congr ((State.codeTableDie_keeps (s.setOp o.started) (mParam0 o.desc) l 0).hif_eq rfl)
    refine ⟨_, exec_codeTable h hw hfn b, ?_⟩
    rw [heq, show o.started.key = op from h.2.1]
    refine ⟨State.endedWith_finish hkept _ _ _, ?_⟩
    rw [State.table_finish]
    exact State.codeTableDie_retires (s.setOp o.started) l 0 hretire

end Sys2Proof.Machine


/-!
PROOFS. LINE_SEND and LINE_POST (R419): refusals, and what joins a queue or the posted buffers.
-/

namespace Sys2Proof.Machine

/-- The queue a LINE_SEND names is none for objects. -/
def State.sendBad (s : State) (d : Bytes) : Prop :=
  15 < xLg d ∨ xQueue d = 0 ∨ 7 < xQueue d ∨ (xQueue d = 7 ∧ s.flag Reg.SLF_GRP_CFG_PKT_Q7 (xLg d) = true ∧
    ¬(60 ≤ xLength d ∧ xLength d ≤ 9216))

theorem State.not_sendBad {s : State} {d : Bytes} (hg : xLg d ≤ 15) (h0 : xQueue d ≠ 0) (h7 : xQueue d ≤ 7)
    (hpkt : ¬(xQueue d = 7 ∧ s.flag Reg.SLF_GRP_CFG_PKT_Q7 (xLg d) = true ∧ ¬(60 ≤ xLength d ∧ xLength d ≤ 9216))) : ¬s.sendBad d := by
  rintro (h | h | h | h)
  · omega
  · exact h0 h
  · omega
  · exact hpkt h

/-- The object of a LINE_SEND. -/
def sendObj (o : Op) : LineObj := { header := objHeader (xLength o.desc) (xTag o.desc) (xLineKind o.desc), len := xLength o.desc, src := .op o.key }

section
variable {s : State} {o : Op} (hlen : xLength o.desc ≠ 0)
include hlen

theorem State.lineSend_bad (h : s.sendBad o.desc) : s.lineSend o = s.finish o.key stBAD_FIELD := by
  unfold State.lineSend
  exact (if_neg hlen).trans (if_pos h)

variable (hgood : ¬s.sendBad o.desc)
include hgood

theorem State.lineSend_refused {st : Nat} (href : s.xferRefusal o true false = some st) : s.lineSend o = s.finish o.key st := by
  unfold State.lineSend
  refine (if_neg hlen).trans ((if_neg hgood).trans ?_)
  rw [href]

theorem State.lineSend_down (href : s.xferRefusal o true false = none) (hdown : s.lineOn (xLg o.desc) = false) :
    s.lineSend o = s.finish o.key stLINE_DOWN := by
  unfold State.lineSend
  refine (if_neg hlen).trans ((if_neg hgood).trans ?_)
  rw [href]
  exact if_pos (by rw [hdown]; decide)

theorem State.lineSend_puts (href : s.xferRefusal o true false = none) (hon : s.lineOn (xLg o.desc) = true) :
    s.lineSend o = (s.setHold o.key .other).linePut (xLg o.desc) (xQueue o.desc) (sendObj o) := by
  unfold State.lineSend
  refine (if_neg hlen).trans ((if_neg hgood).trans ?_)
  rw [href]
  exact if_neg (by rw [hon]; decide)

end

/-- With no LINE entry waiting for the queue an object joins its end under the next sequence number. -/
theorem State.linePut_spec {s : State} {g q : Nat} (o : LineObj)
    (h : s.linePlanned g q = false ∨ (s.lgrp g).releases.find? (fun r => r.1 == q) = none) :
    ((s.linePut g q o).lgrp g).queues.getD q [] = (s.lgrp g).queues.getD q [] ++ [{ o with seq := (s.lgrp g).seqs.getD q 0 }] ∧
    ((s.linePut g q o).lgrp g).seqs.getD q 0 = ((s.lgrp g).seqs.getD q 0 + 1) % 2 ^ 32 := by
  have hput (y : LineGroup) (hy : y.releases = (s.lgrp g).releases) : (if s.linePlanned g q then y.matchReleases q else y) = y := by
    rcases h with h | h
    · rw [h, if_neg (by decide)]
    · rw [LineGroup.matchReleases, hy, h, ite_self]
  unfold State.linePut
  extract_lets x n x1
  rw [State.lgrp_setLgrp, hput x1 rfl]
  exact ⟨AMap.getD_put_self _ _ _ _, AMap.getD_put_self _ _ _ _⟩

/-! ### LINE_POST -/

/-- The buffer a LINE_POST names is none. -/
def State.postBad (s : State) (d : Bytes) : Prop :=
  15 < xLg d ∨ xQueue d = 0 ∨ 7 < xQueue d ∨ xLength d < 64 ∨ (xQueue d = 7 ∧ s.flag Reg.SLF_GRP_CFG_PKT_Q7 (xLg d) = true)

theorem State.not_postBad {s : State} {d : Bytes} (hg : xLg d ≤ 15) (h0 : xQueue d ≠ 0) (h7 : xQueue d ≤ 7) (hlen : 64 ≤ xLength d)
    (hpkt : ¬(xQueue d = 7 ∧ s.flag Reg.SLF_GRP_CFG_PKT_Q7 (xLg d) = true)) : ¬s.postBad d := by
  rintro (h | h | h | h | h)
  · omega
  · exact h0 h
  · omega
  · omega
  · exact hpkt h

theorem State.linePost_bad {s : State} {o : Op} (h : s.postBad o.desc) : s.linePost o = s.finish o.key stBAD_FIELD := by
  unfold State.linePost
  exact if_pos h

section
variable {s : State} {o : Op} (hgood : ¬s.postBad o.desc)
include hgood

theorem State.linePost_refused {st : Nat} (href : s.xferRefusal o false true = some st) : s.linePost o = s.finish o.key st := by
  unfold State.linePost
  refine (if_neg hgood).trans ?_
  rw [href]

theorem State.linePost_down (href : s.xferRefusal o false true = none) (hdown : s.lineOn (xLg o.desc) = false) :
    s.linePost o = s.finish o.key stLINE_DOWN := by
  unfold State.linePost
  refine (if_neg hgood).trans ?_
  rw [href]
  exact if_pos (by rw [hdown]; decide)

theorem State.linePost_joins (href : s.xferRefusal o false true = none) (hon : s.lineOn (xLg o.desc) = true) :
    s.linePost o = (s.setHold o.key .other).setLgrp (xLg o.desc) { s.lgrp (xLg o.desc) with
      posts := (s.lgrp (xLg o.desc)).posts.put (xQueue o.desc) ((s.lgrp (xLg o.desc)).posts.getD (xQueue o.desc) [] ++ [o.key]) } := by
  unfold State.linePost
  refine (if_neg hgood).trans ?_
  rw [href]
  exact if_neg (by rw [hon]; decide)

end

/-! ### An operation that waits -/

/-- An operation that is taken and waits for its line group. -/
theorem State.Ready.waits {s : State} {op : OpKey} {o : Op} (h : s.Ready op o) :
    ((s.setOp o.started).setHold op .other).op? op = some { o with phase := .running, hold := .other } ∧
    Fr 0x40000000 s ((s.setOp o.started).setHold op .other) := by
  obtain ⟨-, rfl, -⟩ := h
  have hself : (s.setOp o.started).op? o.key = some o.started := State.op?_setOp_self s o.started
  unfold State.setHold
  rw [hself]
  exact ⟨State.op?_setOp_self _ _, (s.setOp_keeps _).trans (State.setOp_keeps _ _)⟩

end Sys2Proof.Machine


/-!
PROOFS. SLF_TRANSMIT (R404, R405, R407, R418): the body of a position, and the transmissions that carry it.
-/

namespace Sys2Proof.Machine

/-! ### The lanes of a leg -/

/-- Which lanes serve which leg is the same in two states. -/
structure State.LegsAlike (s t : State) : Prop where
  lanes : ∀ l, t.laneByte l = s.laneByte l
  split : ∀ g, t.lineProtected g = s.lineProtected g
  up : ∀ l, t.laneSt l = s.laneSt l
  faults : t.line.faults = s.line.faults

theorem State.LegsAlike.refl (s : State) : s.LegsAlike s := ⟨fun _ => rfl, fun _ => rfl, fun _ => rfl, rfl⟩

theorem State.LegsAlike.trans {s t u : State} (h : s.LegsAlike t) (k : t.LegsAlike u) : s.LegsAlike u :=
  ⟨fun l => (k.lanes l).trans (h.lanes l), fun g => (k.split g).trans (h.split g), fun l => (k.up l).trans (h.up l), k.faults.trans h.faults⟩

theorem State.LegsAlike.serving {s t : State} (h : s.LegsAlike t) (g leg : Nat) : t.legServing g leg = s.legServing g leg := by
  have hlanes : t.groupLanes g = s.groupLanes g := by simp only [State.groupLanes, State.laneGroup, h.lanes]
  have hserves : t.laneServes = s.laneServes := by
    funext l
    rw [State.laneServes, h.up, h.faults, State.laneServes]
  rw [State.legServing, hserves, State.legLanes, hlanes, h.split, State.legServing, State.legLanes]

/-- The configuration of lanes and legs alike in lanes whose registers and faults stay. -/
theorem State.LegsAlike.of_regs {s t : State} (hfld : ∀ f i, f.blk = .eln → t.fld f i = s.fld f i) (hprot : ∀ g, t.lineProtected g = s.lineProtected g)
    (hfaults : t.line.faults = s.line.faults) : s.LegsAlike t := by
  refine ⟨fun l => ?_, hprot, fun l => hfld _ l rfl, hfaults⟩
  unfold State.laneByte
  split
  · exact hfld _ _ rfl
  · exact hfld _ _ rfl

theorem Fr.legsAlike {X : Nat} {s t : State} (h : Fr X s t) (hX : X.testBit 17 = false ∧ X.testBit 18 = false ∧ X.testBit 43 = false) :
    s.LegsAlike t := by
  refine .of_regs (fun f i hf => ?_) (fun g => ?_) (by rw [h.line_eq hX.2.2])
  · exact h.fld_eq f i (by rw [hf]; exact hX.1) (by rw [hf]; rfl)
  · rw [State.lineProtected, State.flag, h.fld_eq Reg.SLF_GRP_CFG_PROTECT g hX.2.1 rfl, State.lineProtected, State.flag]

theorem State.legsAlike_lineCount (s : State) (g c leg : Nat) : s.LegsAlike (s.lineCount g c leg) := by
  have hfr : Fr 0x40000 s (s.lineCount g c leg) := State.lineCount_fr (Fr.refl _ s) rfl
  refine .of_regs (fun f i hf => ?_) (fun h => ?_) (by rw [hfr.line_eq rfl])
  · exact hfr.fld_eq f i (by rw [hf]; rfl) (by rw [hf]; rfl)
  · exact congrArg (· == 1) (State.fld_setFld_clear s Reg.SLF_STAT_VALUE_VALUE Reg.SLF_GRP_CFG_PROTECT _ h _ (by decide))

theorem State.legsAlike_setLgrp (s : State) (g : Nat) (x : LineGroup) : s.LegsAlike (s.setLgrp g x) := ⟨fun _ => rfl, fun _ => rfl, fun _ => rfl, rfl⟩

/-! ### A new frame -/

/-- Bytes that an object gives were read without touching lanes or groups. -/
theorem State.lineBytes_got {s s1 : State} {g : Nat} {o : LineObj} {off n : Nat} {a : HostAccess} {r : MemRead} {b : Bytes}
    (h : s.lineBytes g o off n a r = .got b s1) : Fr 0x2c100170000010 s s1 := by
  unfold State.lineBytes at h
  extract_lets fromMem at h
  have hmem : ∀ dom dva fail hold, fromMem dom dva fail hold = .got b s1 → Fr 0x2c100170000010 s s1 := by
    intro dom dva fail hold hm
    unfold fromMem at hm
    split at hm
    · cases hm
    · have hget : Fr 0x2c100170000010 s (s.dvaGet dom (dva + off) n r).2 := State.dvaGet_fr (Fr.refl _ s) rfl
      split at hm
      · cases hm
      · next hx =>
        rw [hx] at hget
        cases hm
        exact hget
  clear_value fromMem
  split at h
  · cases h
    exact Fr.refl _ _
  · exact hmem _ _ _ _ h
  · split at h
    · cases h
    · split at h
      · split at h
        · split at h
          · cases h
            exact State.atsFill_fr (Fr.refl _ s) rfl
          · cases h
          · cases h
          · cases h
        · dsimp only at h
          split at h
          · cases h
          · exact hmem _ _ _ _ h
      · cases h
      · cases h

/-- A frame of a queue changes no lane. -/
theorem State.legsAlike_lineFrame {s : State} {g q : Nat} {a : HostAccess} {r : MemRead} (h : (s.lineFrame g q a r).1.isSome = true) :
    s.LegsAlike (s.lineFrame g q a r).2 := by
  generalize hx : s.lineFrame g q a r = x at h ⊢
  unfold State.lineFrame at hx
  extract_lets _ tx at hx
  split at hx
  · subst hx
    exact absurd h Bool.false_ne_true
  · next o _ =>
    extract_lets first off room n last k at hx
    split at hx
    · subst hx
      exact absurd h Bool.false_ne_true
    · next b s1 hgot =>
      extract_lets data body y l l1 s2 s3 at hx
      subst hx
      have hfrees : s1.LegsAlike (if last = true then s1.settFrees o.setts else s1) := by
        split
        · exact (State.settFrees_fr (Fr.refl 0x2c000870000040 s1) rfl).legsAlike ⟨rfl, rfl, rfl⟩
        · exact .refl _
      have hs2 : s1.LegsAlike s2 := hfrees.trans (State.legsAlike_setLgrp _ _ _)
      have hs3 : s2.LegsAlike s3 := by
        unfold s3
        clear_value k s2
        split
        · split
          · split
            · next op _ => exact (s2.setOp_keeps _).legsAlike ⟨rfl, rfl, rfl⟩
            · exact .refl _
          · exact .refl _
        · exact .refl _
      exact ((((State.lineBytes_got hgot).legsAlike ⟨rfl, rfl, rfl⟩).trans hs2).trans hs3).trans (State.legsAlike_lineCount _ _ _ _)

/-! ### A slot of the multiframe -/

/-- Where a group stands in its stream: the multiframe, the position in it and the next FSN. -/
def LineGroup.place (x : LineGroup) : Nat × Nat × Nat := (x.mfn, x.pos, x.next)

/-- A byte of a data channel into the stream changes no group. -/
theorem State.dccIn_spec (s : State) (port : Nat) (b : Option Byte) :
    s.LegsAlike (s.dccIn port b).2 ∧ (∀ g, (s.dccIn port b).2.lgrp g = s.lgrp g) ∧ (s.dccIn port b).2.out = s.out := by
  unfold State.dccIn
  split
  · exact ⟨.refl _, fun _ => rfl, rfl⟩
  · exact ⟨⟨fun _ => rfl, fun _ => rfl, fun _ => rfl, rfl⟩, fun _ => rfl, rfl⟩

theorem length_bytesBE (n v : Nat) : (bytesBE n v).length = n := by
  have hle (n v : Nat) : (bytesLE n v).length = n := by
    induction n generalizing v with
    | zero => rfl
    | succ n ih => simp [bytesLE, ih]
  rw [bytesBE, List.length_reverse, hle]

section
variable (g pos mfn jc : Nat) (d0 d1 : Byte) (nack : Nat × Nat) (body : Bytes)

theorem State.lgrp_emit (s : State) (o : Out) (g : Nat) : (s.emit o).lgrp g = s.lgrp g := rfl

/-- One transmission of a leg moves its rotation on. -/
theorem State.lineEmit_keeps (s : State) (leg : Nat) : s.LegsAlike (s.lineEmit g leg pos mfn jc d0 d1 nack body) ∧
    ((s.lineEmit g leg pos mfn jc d0 d1 nack body).lgrp g).place = (s.lgrp g).place := by
  unfold State.lineEmit
  dsimp only
  split
  · exact ⟨.refl _, rfl⟩
  · refine ⟨⟨fun _ => rfl, fun _ => rfl, fun _ => rfl, rfl⟩, ?_⟩
    rw [State.lgrp_emit, State.lgrp_setLgrp]
    unfold LineGroup.setLeg
    split <;> rfl

/-- A leg with a lane in service sends the body after the 46 bytes of its headers; one without sends nothing. -/
theorem State.lineEmit_out (s : State) (leg : Nat) :
    (s.lineEmit g leg pos mfn jc d0 d1 nack body).out = s.out ∧ s.legServing g leg = [] ∨
    ∃ port f, (s.lineEmit g leg pos mfn jc d0 d1 nack body).out = s.out ++ [.frame port f] ∧ f.drop 46 = body := by
  unfold State.lineEmit
  dsimp only
  split
  · next hnone =>
    refine .inl ⟨rfl, ?_⟩
    unfold nextLane at hnone
    split at hnone
    · cases hnone
    · exact List.head?_eq_none_iff.mp hnone
  · refine .inr ⟨_, _, rfl, List.drop_left' ?_⟩
    simp [length_bytesBE, zeros]

/-- The legs send one after the other; when one has a lane in service the body goes out. -/
theorem State.lineEmits_out (l : List Nat) (s : State) : ∃ sent, (l.foldl (fun s i => s.lineEmit g i pos mfn jc d0 d1 nack body) s).out = s.out ++ sent ∧
    ((l.any fun i => !(s.legServing g i).isEmpty) = true → ∃ port f, Out.frame port f ∈ sent ∧ f.drop 46 = body) := by
  induction l generalizing s with
  | nil => exact ⟨[], (List.append_nil _).symm, fun h => absurd h Bool.false_ne_true⟩
  | cons i l ih =>
    obtain ⟨sent, hout, hsent⟩ := ih (s.lineEmit g i pos mfn jc d0 d1 nack body)
    obtain ⟨hlegs, -⟩ := State.lineEmit_keeps g pos mfn jc d0 d1 nack body s i
    rw [List.foldl_cons, hout]
    rcases State.lineEmit_out g pos mfn jc d0 d1 nack body s i with ⟨hsame, hnone⟩ | ⟨port, f, hmore, hbody⟩
    · refine ⟨sent, by rw [hsame], fun h => hsent ?_⟩
      rw [List.any_cons, hnone] at h
      simpa [hlegs.serving] using h
    · refine ⟨.frame port f :: sent, by rw [hmore, List.append_assoc]; rfl, fun _ => ⟨port, f, List.mem_cons_self .., hbody⟩⟩

theorem State.place_lineEmits (l : List Nat) (s : State) :
    ((l.foldl (fun s i => s.lineEmit g i pos mfn jc d0 d1 nack body) s).lgrp g).place = (s.lgrp g).place :=
  foldl_keeps (P := fun s : State => (s.lgrp g).place) (fun u i _ => (State.lineEmit_keeps g pos mfn jc d0 d1 nack body u i).2) s

end

/-- The body of the next position, and the state with what giving it did. -/
def State.slotBody (s : State) (g : Nat) (a : HostAccess) (r : MemRead) : Bytes × State :=
  if (s.lgrp g).pos < 32 then s.lineFill g a r else ((parityBodies (s.lgrp g).bodies).getD ((s.lgrp g).pos - 32) [], s)

/-- A slot of a group with a lane in service sends the body of its position, and the stream moves on by it. -/
theorem State.slfTransmit_spec {s : State} {g : Nat} (d0 d1 : Option Byte) (a : HostAccess) (r : MemRead) (hruns : s.lineRuns g = true)
    (hlane : (s.legsOf g).any (fun i => !(s.legServing g i).isEmpty) = true) (hlegs : s.LegsAlike (s.slotBody g a r).2) :
    (∃ sent, (s.slfTransmit g d0 d1 a r).out = (s.slotBody g a r).2.out ++ sent ∧
      ∃ port f, Out.frame port f ∈ sent ∧ f.drop 46 = (s.slotBody g a r).1) ∧
    ((s.slfTransmit g d0 d1 a r).lgrp g).place = (if (s.lgrp g).pos = 35 then (((s.slotBody g a r).2.lgrp g).mfn + 1) % 2 ^ 48
      else ((s.slotBody g a r).2.lgrp g).mfn, ((s.lgrp g).pos + 1) % 36, ((s.slotBody g a r).2.lgrp g).next) := by
  have hsome : ((s.legsOf g).all fun i => (s.legServing g i).isEmpty) = false := by
    rw [← Bool.not_eq_true, List.all_eq_true]
    intro hall
    obtain ⟨i, hi, hne⟩ := List.any_eq_true.mp hlane
    rw [hall i hi] at hne
    exact absurd hne (by decide)
  unfold State.slfTransmit
  rw [if_neg (by rw [hruns, hsome]; decide)]
  extract_lets pos
  have hbody : (if pos < 32 then s.lineFill g a r else ((parityBodies (s.lgrp g).bodies).getD (pos - 32) [], s)) = s.slotBody g a r := rfl
  rw [hbody]
  generalize s.slotBody g a r = x at hlegs ⊢
  obtain ⟨body, s1⟩ := x
  dsimp -zeta only
  obtain ⟨hlegs2, hgrp2, hout2⟩ := s1.dccIn_spec 0 (if s.dccServes 0 g = true then d0 else none)
  generalize s1.dccIn 0 (if s.dccServes 0 g = true then d0 else none) = y at hlegs2 hgrp2 hout2 ⊢
  obtain ⟨⟨j0, v0⟩, s2⟩ := y
  dsimp -zeta only
  obtain ⟨hlegs3, hgrp3, hout3⟩ := s2.dccIn_spec 1 (if s.dccServes 1 g = true then d1 else none)
  generalize s2.dccIn 1 (if s.dccServes 1 g = true then d1 else none) = z at hlegs3 hgrp3 hout3 ⊢
  obtain ⟨⟨j1, v1⟩, s3⟩ := z
  dsimp -zeta only at hlegs2 hgrp2 hout2 hlegs3 hgrp3 hout3 ⊢
  extract_lets w mfn nack x1 s4 s5
  have hw : w = s1.lgrp g := (hgrp3 g).trans (hgrp2 g)
  have hs5 : s4.LegsAlike s5 ∧ s5.lgrp g = x1 ∧ s5.out = s1.out := by
    have hout4 : s4.out = s1.out := hout3.trans hout2
    unfold s5
    split
    · refine ⟨State.legsAlike_lineCount _ _ _ _, ?_, ?_⟩
      · rw [State.lgrp_lineCount, State.lgrp_setLgrp]
      · rw [(State.lineCount_fr (Fr.refl 0x40000 s4) rfl).out_eq rfl, hout4]
    · exact ⟨.refl _, State.lgrp_setLgrp _ _ _, hout4⟩
  obtain ⟨hlegs5, hgrp5, hout5⟩ := hs5
  have hlegs : s.LegsAlike s5 := (((hlegs.trans hlegs2).trans hlegs3).trans (State.legsAlike_setLgrp _ _ _)).trans hlegs5
  refine ⟨?_, ?_⟩
  · obtain ⟨sent, hsends, hframe⟩ := State.lineEmits_out g pos mfn (j0 + 4 * j1) v0 v1 (nack.getD (0, 0)) body (s.legsOf g) s5
    refine ⟨sent, by rw [hsends, hout5], hframe ?_⟩
    simpa only [hlegs.serving] using hlane
  · rw [State.place_lineEmits, hgrp5]
    show LineGroup.place { w with pos := _, mfn := _, bodies := _, nacked := _ } = _
    rw [hw]
    rfl

/-! ### The body of a position -/

theorem State.lineFill_suspended {s : State} {g : Nat} (h : (s.lgrp g).isSuspended = true) (a : HostAccess) (r : MemRead) :
    s.lineFill g a r = (idleBody, s.lineCount g 2) := by
  unfold State.lineFill
  exact if_pos h

theorem State.lineSwitch_none {s : State} {g : Nat} (h : (s.link (lineLink g)).tx = none) : s.lineSwitch g = s := by
  unfold State.lineSwitch
  dsimp only
  rw [h]

/-- With nothing to answer and no key message waiting the first queue that gives a frame fills the position. -/
theorem State.lineFill_frame {s s1 : State} {g q : Nat} {rest : List Nat} {a : HostAccess} {r : MemRead} {b : Bytes}
    (hsusp : (s.lgrp g).isSuspended = false) (hasks : (s.lgrp g).asks = []) (hkeys : (s.lgrp g).keys = []) (hplain : s.lineEncrypts g = false)
    (htx : (s.link (lineLink g)).tx = none) (hroom : (s.lgrp g).next - (s.lgrp g).acked < s.fld Reg.SLF_WIN_CFG_TX_UNITS g * 65536)
    (horder : (s.setLgrp g (s.lgrp g)).lineOrder g = q :: rest) (hframe : (s.setLgrp g (s.lgrp g)).lineFrame g q a r = (some b, s1)) :
    s.lineFill g a r = (b, if q = 0 || (s.setLgrp g (s.lgrp g)).linePlanned g q then s1 else s1.setLgrp g { s1.lgrp g with lastQ := q }) := by
  have hanswer : State.lineAnswer g (sumOf ((s.lgrp g).asks.map (·.2)) + 1) s = none := by
    unfold State.lineAnswer
    dsimp only
    rw [hasks]
    rfl
  unfold State.lineFill
  extract_lets idle s' src s0 x room src'
  have hs' : s' = s := State.lineSwitch_none htx
  have hs0 : s0 = s.setLgrp g (s.lgrp g) := by
    unfold s0 src
    rw [hs', ← hasks]
  have hx : x = s.lgrp g := by
    unfold x
    rw [hs0, State.lgrp_setLgrp]
  have hr : room = true := by
    unfold room
    rw [hx, hs']
    exact decide_eq_true hroom
  rw [if_neg (by rw [hsusp]; decide), hs', hanswer]
  dsimp only
  rw [show x.keys = [] by rw [hx, hkeys]]
  dsimp only
  rw [if_pos (by rw [hr, hplain]; rfl), hs0, horder]
  unfold State.lineNew
  rw [hframe]

/-- Settled fields of a place. -/
theorem LineGroup.place_eq {x : LineGroup} {m p n : Nat} (h : x.place = (m, p, n)) : x.mfn = m ∧ x.pos = p ∧ x.next = n := by
  rw [LineGroup.place, Prod.mk.injEq, Prod.mk.injEq] at h
  exact h

/-- A slot for the frame of a queue: it goes out, and the group's stream and window move on by it. -/
theorem State.slfTransmit_frame {s : State} {g q : Nat} {rest : List Nat} {d0 d1 : Option Byte} {a : HostAccess} {r : MemRead}
    (hruns : s.lineRuns g = true) (hlane : (s.legsOf g).any (fun i => !(s.legServing g i).isEmpty) = true) (hpos : (s.lgrp g).pos < 32)
    (hsusp : (s.lgrp g).isSuspended = false) (hasks : (s.lgrp g).asks = []) (hkeys : (s.lgrp g).keys = []) (hplain : s.lineEncrypts g = false)
    (htx : (s.link (lineLink g)).tx = none) (hroom : (s.lgrp g).next - (s.lgrp g).acked < s.fld Reg.SLF_WIN_CFG_TX_UNITS g * 65536)
    (horder : (s.setLgrp g (s.lgrp g)).lineOrder g = q :: rest) (hsome : ((s.setLgrp g (s.lgrp g)).lineFrame g q a r).1.isSome = true) :
    (∃ port f, Out.frame port f ∈ (s.slfTransmit g d0 d1 a r).out ∧ some (f.drop 46) = ((s.setLgrp g (s.lgrp g)).lineFrame g q a r).1) ∧
    ((s.slfTransmit g d0 d1 a r).lgrp g).next = (((s.setLgrp g (s.lgrp g)).lineFrame g q a r).2.lgrp g).next ∧
    ((s.slfTransmit g d0 d1 a r).lgrp g).pos = (s.lgrp g).pos + 1 := by
  have hlegs := (State.legsAlike_setLgrp s g (s.lgrp g)).trans (State.legsAlike_lineFrame hsome)
  generalize hx : (s.setLgrp g (s.lgrp g)).lineFrame g q a r = x at hsome hlegs ⊢
  obtain ⟨ob, s1⟩ := x
  obtain ⟨b, rfl⟩ := Option.isSome_iff_exists.mp hsome
  have hfill := State.lineFill_frame hsusp hasks hkeys hplain htx hroom horder hx
  generalize hu : (if q = 0 || (s.setLgrp g (s.lgrp g)).linePlanned g q then s1 else s1.setLgrp g { s1.lgrp g with lastQ := q }) = u at hfill
  have hulegs : s1.LegsAlike u ∧ (u.lgrp g).next = (s1.lgrp g).next := by
    subst hu
    split
    · exact ⟨.refl _, rfl⟩
    · refine ⟨State.legsAlike_setLgrp _ _ _, ?_⟩
      rw [State.lgrp_setLgrp]
  have hbody : s.slotBody g a r = (b, u) := (if_pos hpos).trans hfill
  obtain ⟨⟨sent, hout, port, f, hin, hf⟩, hplace⟩ := State.slfTransmit_spec d0 d1 a r hruns hlane
    (by rw [hbody]; exact hlegs.trans hulegs.1)
  obtain ⟨-, hp, hn⟩ := LineGroup.place_eq hplace
  refine ⟨⟨port, f, ?_, ?_⟩, ?_, ?_⟩
  · rw [hout]
    exact List.mem_append_right _ hin
  · rw [hf, hbody]
  · rw [hn, hbody]
    exact hulegs.2
  · rw [hp]
    omega

/-- A slot of a parity position, or of a suspended group: the stream moves on, and something goes out. -/
theorem State.slfTransmit_idle {s : State} {g : Nat} (d0 d1 : Option Byte) (a : HostAccess) (r : MemRead)
    (hruns : s.lineRuns g = true) (hlane : (s.legsOf g).any (fun i => !(s.legServing g i).isEmpty) = true)
    (h : 32 ≤ (s.lgrp g).pos ∨ (s.lgrp g).isSuspended = true) :
    ((s.slfTransmit g d0 d1 a r).lgrp g).pos = ((s.lgrp g).pos + 1) % 36 ∧
    ((s.slfTransmit g d0 d1 a r).lgrp g).mfn = (if (s.lgrp g).pos = 35 then ((s.lgrp g).mfn + 1) % 2 ^ 48 else (s.lgrp g).mfn) ∧
    s.out.length < (s.slfTransmit g d0 d1 a r).out.length := by
  have hbody : s.LegsAlike (s.slotBody g a r).2 ∧ (s.slotBody g a r).2.lgrp g = s.lgrp g ∧ (s.slotBody g a r).2.out = s.out := by
    unfold State.slotBody
    split
    · rw [State.lineFill_suspended (h.resolve_left (by omega))]
      exact ⟨State.legsAlike_lineCount _ _ _ _, State.lgrp_lineCount _ _ _ _ _, (State.lineCount_fr (Fr.refl 0x40000 s) rfl).out_eq rfl⟩
    · exact ⟨.refl _, rfl, rfl⟩
  obtain ⟨hlegs, hgrp, hout⟩ := hbody
  obtain ⟨⟨sent, hsent, port, f, hin, -⟩, hplace⟩ := State.slfTransmit_spec d0 d1 a r hruns hlane hlegs
  obtain ⟨hm, hp, -⟩ := LineGroup.place_eq hplace
  refine ⟨hp, by rw [hm, hgrp], ?_⟩
  rw [hsent, hout, List.length_append]
  exact Nat.lt_add_of_pos_right (List.length_pos_of_mem hin)

theorem State.slfTransmit_rests {s : State} {g : Nat} (h : s.lineRuns g = false ∨ (s.legsOf g).all (fun i => (s.legServing g i).isEmpty) = true)
    (d0 d1 : Option Byte) (a : HostAccess) (r : MemRead) : s.slfTransmit g d0 d1 a r = s := by
  unfold State.slfTransmit
  refine if_pos ?_
  rw [Bool.or_eq_true, Bool.not_eq_true']
  exact h

end Sys2Proof.Machine


/-!
PROOFS. LINE_DELIVER of an object of one frame (R417, R419).
-/

namespace Sys2Proof.Machine

/-! ### Setts, as the host sees them -/

theorem State.posts_settFree (s : State) (n : Nat) : s.Posts (s.settFree n) := by
  have hfill (t : State) (die : Nat) : t.Posts (t.settFill die) := (State.settFill_fr (Fr.refl 0x800000000 t) rfl).posts ⟨rfl, rfl⟩
  unfold State.settFree
  dsimp only
  split
  · have hbump : s.Posts (s.bump (Reg.SETT_POOL_STATUS_REF_FAULTS.nth (n / dieSetts))) := .of_eq rfl rfl
    exact hbump.trans (State.posts_raise _ _ _ _)
  · split
    · exact .of_eq rfl rfl
    · refine .trans ?_ (hfill _ _)
      exact .of_eq rfl rfl

theorem State.posts_settFrees (s : State) (l : List Nat) : s.Posts (s.settFrees l) :=
  State.posts_foldl (fun t n => t.posts_settFree n) l s

theorem State.posts_settStore (s : State) (q : Nat) (frame : Bytes) : s.Posts (s.settStore q frame).2 := by
  have halloc (n : Nat) (acc : List Nat) (t : State) : t.Posts (State.settAllocN q n acc t).2 := by
    induction n generalizing acc t with
    | zero => exact .rfl
    | succ n ih =>
      have hone : t.Posts (t.settAlloc q).2 := (State.settAlloc_fr (Fr.refl 0x800000040 t) rfl).posts ⟨rfl, rfl⟩
      unfold State.settAllocN
      generalize t.settAlloc q = x at hone ⊢
      obtain ⟨y, u⟩ := x
      cases y with
      | none => exact hone.trans (u.posts_settFrees acc)
      | some y => exact hone.trans (ih _ u)
  exact halloc _ _ s

/-- The state in which a frame's setts have been had and given back. -/
def State.passed (s : State) (g : Nat) (data : Bytes) (l : List Nat) : State := (s.settStore (reqLine g) data).2.settFrees l

section
variable (s : State) (g : Nat) (data : Bytes) (l : List Nat)

theorem State.passed_keeps : Fr 0x2c000870000040 s (s.passed g data l) :=
  State.settFrees_fr (State.settStore_fr (Fr.refl 0x2c000870000040 s) rfl) rfl

theorem State.posts_passed : s.Posts (s.passed g data l) := (s.posts_settStore _ _).trans (State.posts_settFrees _ _)

theorem State.lgrp_passed (h : Nat) : (s.passed g data l).lgrp h = s.lgrp h := State.lgrp_congr ((s.passed_keeps g data l).line_eq rfl) h

theorem State.linePkts_passed (h q : Nat) : (s.passed g data l).linePkts h q = s.linePkts h q := by
  rw [State.linePkts, (s.passed_keeps g data l).flag_eq Reg.SLF_GRP_CFG_PKT_Q7 h rfl rfl, State.linePkts]

end

/-! ### An object of one frame -/

/-- A group once an object of one frame has been delivered. -/
def LineGroup.took (x : LineGroup) (q : Nat) (f : RxFrame) : LineGroup :=
  { x.consume f with objs := (x.consume f).objs.del q, gone := without (x.consume f).gone (q, f.seq) }

theorem LineGroup.rx_took (x : LineGroup) (q : Nat) (f : RxFrame) : (x.took q f).rx = x.rx.filter (fun r => r.fsn != f.fsn) := rfl

/-- An object of one frame as it is taken. -/
def LineGroup.rxObj (x : LineGroup) (q : Nat) (f : RxFrame) : RxObj := { seq := f.seq, buf := (x.posts.getD q []).head? }

section
variable {s : State} {g q : Nat} {f : RxFrame} {l : List Nat} (hpkt : s.linePkts g q = false) (hsof : f.sof = true) (heof : f.eof = true)
  (hgone : (q, f.seq) ∉ (s.lgrp g).gone)
include hpkt hsof heof hgone

/-- What an object of one frame that is not discarded does: the outer-round unit takes it, or a posted buffer it fits. -/
theorem State.lineTake_whole (hg : (s.settFrees l).linePkts g q = false) (hl : (s.settFrees l).lgrp g = s.lgrp g) (a : HostAccess) :
    (q = 0 → s.lineTake g q f l a = ((s.settFrees l).setLgrp g ((s.lgrp g).took q f)).emit
      (.lineObj g (getBE f.data 24 1) (sliceB f.data 8 16) (f.data.drop 64))) ∧
    (q ≠ 0 → ∀ k op s1, ((s.lgrp g).posts.getD q []).head? = some k → (s.settFrees l).op? k = some op → f.data.length ≤ xLength op.desc →
      (s.settFrees l).bufPut k 0 f.data a = .done s1 →
      s.lineTake g q f l a = (s1.setLgrp g ((s.lgrp g).took q f)).lineRxEnd g q { (s.lgrp g).rxObj q f with got := 0 + f.data.length } stOK) := by
  have hcontains : (s.lgrp g).gone.contains (q, f.seq) = false := by
    rw [← Bool.not_eq_true, List.contains_iff_mem]
    exact hgone
  unfold State.lineTake
  extract_lets keep u x pkt fresh o short o1 x1 x2 v w y y1 all w1 r
  have hkeep : keep = false := by rw [show keep = (s.linePkts g q && f.eof) from rfl, hpkt, Bool.false_and]
  have hu : u = s.settFrees l := if_neg (by rw [hkeep]; decide)
  have hx : x = s.lgrp g := by rw [show x = u.lgrp g from rfl, hu, hl]
  have hp : pkt = false := by rw [show pkt = u.linePkts g q from rfl, hu, hg]
  have ho : o = (s.lgrp g).rxObj q f := by
    rw [show o = fresh from if_pos hsof, ← hx]
    rfl
  have ho1 : o1 = (s.lgrp g).rxObj q f := by
    have hshort : short = false := by rw [show short = (!f.eof && f.data.length != 8192) from rfl, heof]; rfl
    unfold o1
    rw [ho, hx, hcontains, hshort]
    exact if_neg (by simp [LineGroup.rxObj])
  have hx2 : x2 = (s.lgrp g).took q f := by
    unfold x2 x1
    rw [if_pos heof, if_pos heof, hx]
    rfl
  have hall : all = f.data := by
    unfold all
    rw [ho1]
    rfl
  rw [if_neg (by rw [ho1]; exact Bool.false_ne_true)]
  refine ⟨fun hq => ?_, fun hq k op s1 hhead hop hfits hput => ?_⟩
  · rw [if_pos (Or.inl hq), if_pos heof, if_neg (by rw [hp]; exact Bool.false_ne_true), hall, show w1 = u.setLgrp g x2 from rfl, hu, hx2]
  · have hbuf : o1.buf = some k := by
      rw [ho1]
      exact hhead
    have hgot : o1.got = 0 := by
      rw [ho1]
      rfl
    have htake : f.data.take (xLength op.desc - 0) = f.data := List.take_of_length_le hfits
    have hother : ¬(q = 0 ∨ pkt = true) := by
      rw [hp]
      rintro (h | h)
      · exact hq h
      · exact Bool.false_ne_true h
    rw [if_neg hother, hbuf]
    dsimp only
    rw [hu, hop]
    dsimp only
    rw [hgot, htake, hput]
    dsimp only
    rw [if_neg (lt_irrefl _), if_pos heof, hx2, ho1, show r.buf = some k from hhead]

end

section
variable {s : State} {g q : Nat} {f : RxFrame} {l : List Nat} (hpkt : s.linePkts g q = false) (hsof : f.sof = true) (heof : f.eof = true)
  (hgone : (q, f.seq) ∉ (s.lgrp g).gone) (hon : s.lineOn g = true) (hq8 : q < 8) (hnext : (s.lgrp g).nextRx q = some f)
  (hl : (s.settStore (reqLine g) f.data).1 = some l)
include hpkt hsof heof hgone hon hq8 hnext hl

/-- LINE_DELIVER of such an object, by its queue. -/
theorem State.lineDeliver_whole (a : HostAccess) :
    (q = 0 → s.lineDeliver g q a = ((s.passed g f.data l).setLgrp g ((s.lgrp g).took q f)).emit
      (.lineObj g (getBE f.data 24 1) (sliceB f.data 8 16) (f.data.drop 64))) ∧
    (q ≠ 0 → ∀ k op s1, ((s.lgrp g).posts.getD q []).head? = some k → (s.passed g f.data l).op? k = some op → f.data.length ≤ xLength op.desc →
      (s.passed g f.data l).bufPut k 0 f.data a = .done s1 →
      s.lineDeliver g q a = (s1.setLgrp g ((s.lgrp g).took q f)).lineRxEnd g q { (s.lgrp g).rxObj q f with got := 0 + f.data.length } stOK) := by
  have hfr : Fr 0x2c000870000040 s (s.settStore (reqLine g) f.data).2 := State.settStore_fr (Fr.refl _ s) rfl
  have hg : (s.settStore (reqLine g) f.data).2.lgrp g = s.lgrp g := State.lgrp_congr (hfr.line_eq rfl) g
  have hp : (s.settStore (reqLine g) f.data).2.linePkts g q = false := by
    rw [State.linePkts, hfr.flag_eq Reg.SLF_GRP_CFG_PKT_Q7 g rfl rfl]
    exact hpkt
  have htake : s.lineDeliver g q a = (s.settStore (reqLine g) f.data).2.lineTake g q f l a := by
    unfold State.lineDeliver
    dsimp only
    rw [if_neg (by simp [hon, hq8]), hnext]
    dsimp only
    rw [show s.lineStored g q f = f.data from if_neg (by simp [hpkt])]
    generalize s.settStore (reqLine g) f.data = x at hl ⊢
    obtain ⟨y, u⟩ := x
    subst hl
    rfl
  have hwhole := State.lineTake_whole (s := (s.settStore (reqLine g) f.data).2) (l := l) hp hsof heof (by rwa [hg])
    ((s.linePkts_passed g f.data l g q).trans hpkt) ((s.lgrp_passed g f.data l g).trans hg.symm) a
  rw [htake]
  rwa [hg] at hwhole

end

/-- An object of queue 0 reaches the outer-round unit. -/
theorem State.lineDeliver_outer {s : State} {g : Nat} {f : RxFrame} {l : List Nat} (hsof : f.sof = true) (heof : f.eof = true)
    (hgone : (0, f.seq) ∉ (s.lgrp g).gone) (hon : s.lineOn g = true) (hnext : (s.lgrp g).nextRx 0 = some f)
    (hl : (s.settStore (reqLine g) f.data).1 = some l) (hparked : s.tpt.parked = []) (a : HostAccess) :
    (s.lineDeliver g 0 a).tpt.parked = [] ∧ ((s.lineDeliver g 0 a).lgrp g).rx = (s.lgrp g).rx.filter (fun r => r.fsn != f.fsn) ∧
    Out.lineObj g (getBE f.data 24 1) (sliceB f.data 8 16) (f.data.drop 64) ∈ (s.lineDeliver g 0 a).out := by
  rw [(State.lineDeliver_whole rfl hsof heof hgone hon (by decide) hnext hl a).1 rfl]
  refine ⟨?_, ?_, List.mem_append_right _ (List.mem_singleton.mpr rfl)⟩
  · show (s.passed g f.data l).tpt.parked = []
    rw [(s.passed_keeps g f.data l).tpt_eq rfl]
    exact hparked
  · rw [State.lgrp_emit, State.lgrp_setLgrp]
    rfl

section
variable {s : State} {g q : Nat} {k : OpKey} {rest : List OpKey} {o : Op} {f : RxFrame} {l : List Nat} (hpkt : s.linePkts g q = false)
  (hsof : f.sof = true) (heof : f.eof = true) (hgone : (q, f.seq) ∉ (s.lgrp g).gone) (hon : s.lineOn g = true) (hq : 0 < q) (hq8 : q < 8)
  (hnext : (s.lgrp g).nextRx q = some f) (hl : (s.settStore (reqLine g) f.data).1 = some l) (hposts : (s.lgrp g).posts.getD q [] = k :: rest)
  (hop : s.op? k = some o) (hkey : o.key = k) (hlost : o.lost = false) (hslot : k.slot ∈ (s.ring k.ring).taken) (hhold : o.hold = .other)
  (hend : o.endWith = none) (hdst : xDstSpace o.desc = 0) (hfits : f.data.length ≤ xLength o.desc)
include hpkt hsof heof hgone hon hq hq8 hnext hl hposts hop hkey hlost hslot hhold hend hdst hfits

/-- An object that fits the first posted host buffer is written there, and its operation ends. -/
theorem State.lineDeliver_posted (hparked : s.tpt.parked = []) (x : Bytes) :
    (s.lineDeliver g q (.done (some x) false)).tpt.parked = [] ∧
    ((s.lineDeliver g q (.done (some x) false)).lgrp g).rx = (s.lgrp g).rx.filter (fun r => r.fsn != f.fsn) ∧
    Out.hostWrite o.fn (xDstAddr o.desc) f.data ∈ (s.lineDeliver g q (.done (some x) false)).out ∧
    (s.lineDeliver g q (.done (some x) false)).endedWith k stOK = true := by
  have hposted : s.Posts (s.passed g f.data l) := s.posts_passed g f.data l
  have hop' : (s.passed g f.data l).op? k = some o := (hposted.op? k).trans hop
  have hput : (s.passed g f.data l).bufPut k 0 f.data (.done (some x) false)
      = .done ((s.passed g f.data l).emit (.hostWrite o.fn (xDstAddr o.desc + 0) f.data)) := by
    unfold State.bufPut
    rw [hop']
    dsimp only
    rw [hhold, hend]
    dsimp only
    rw [if_pos hdst]
    rfl
  have hkept : ((s.passed g f.data l).emit (.hostWrite o.fn (xDstAddr o.desc + 0) f.data)).Kept k :=
    (hposted.kept ⟨o, hop, hkey, hlost, hslot⟩).congr rfl
  rw [(State.lineDeliver_whole hpkt hsof heof hgone hon hq8 hnext hl _).2 hq.ne' k o _ (by rw [hposts]; rfl) hop' hfits hput]
  unfold State.lineRxEnd
  rw [show ({ (s.lgrp g).rxObj q f with got := 0 + f.data.length } : RxObj).buf = some k from (congrArg List.head? hposts)]
  dsimp only
  refine ⟨?_, ?_, ?_, State.endedWith_finish (hkept.congr ?_) _ _ _⟩
  · rw [(State.finish_keeps _ k _ _ _).tpt_eq rfl]
    show (s.passed g f.data l).tpt.parked = []
    rw [(s.passed_keeps g f.data l).tpt_eq rfl]
    exact hparked
  · rw [State.lgrp_congr ((State.finish_keeps _ k _ _ _).line_eq rfl), State.lgrp_setLgrp, State.lgrp_setLgrp]
    rfl
  · rw [(State.finish_keeps _ k _ _ _).out_eq rfl]
    exact List.mem_append_right _ (List.mem_singleton.mpr rfl)
  · rfl

end

/-- With nothing to deliver, nothing changes. -/
theorem State.lineDeliver_rests {s : State} {g q : Nat} (h : s.lineOn g = false ∨ 8 ≤ q ∨ (s.lgrp g).nextRx q = none) (a : HostAccess) :
    s.lineDeliver g q a = s := by
  unfold State.lineDeliver
  dsimp only
  split
  · rfl
  · next hgoes =>
    obtain ⟨hon, hq8⟩ : s.lineOn g = true ∧ q < 8 := by simpa using hgoes
    rcases h with h | h | h
    · exact absurd (h.symm.trans hon) Bool.false_ne_true
    · omega
    · rw [h]

end Sys2Proof.Machine


/-!
PROOFS. The multiframes of a line group: what a transmission that is received leaves of them (R404, R409).
-/

namespace Sys2Proof.Machine

/-! ### What keeps the multiframes under assembly -/

/-- Between two states the multiframes of every group stay. -/
def State.KeepsMf (s t : State) : Prop := ∀ g, (t.lgrp g).mf = (s.lgrp g).mf

theorem State.KeepsMf.rfl {s : State} : s.KeepsMf s := fun _ => Eq.refl _

theorem State.KeepsMf.trans {s t u : State} (h : s.KeepsMf t) (k : t.KeepsMf u) : s.KeepsMf u := fun g => (k g).trans (h g)

theorem State.KeepsMf.of_groups {s t : State} (h : t.line.groups = s.line.groups) : s.KeepsMf t := fun g => by
  rw [State.lgrp, h, State.lgrp]

theorem Fr.keepsMf {m : Nat} {s t : State} (h : Fr m s t) (hm : m.testBit 43 = false) : s.KeepsMf t :=
  .of_groups (congrArg (·.groups) (h.line_eq hm))

theorem State.keepsMf_setLgrp {s : State} {g : Nat} {x : LineGroup} (h : x.mf = (s.lgrp g).mf) : s.KeepsMf (s.setLgrp g x) := fun k => by
  by_cases hk : k = g
  · rw [hk, State.lgrp_setLgrp, h]
  · rw [State.lgrp_setLgrp_ne s x hk]

theorem State.keepsMf_kexSend (s : State) (l : Nat) (m : Bytes) : s.KeepsMf (s.kexSend l m) := by
  unfold State.kexSend
  split
  · exact State.keepsMf_setLgrp (s := s) (g := l - 576) (x := { s.lgrp (l - 576) with keys := (s.lgrp (l - 576)).keys ++ [m] }) (Eq.refl _)
  · exact .rfl

theorem State.keepsMf_lineCount (s : State) (g c leg : Nat) : s.KeepsMf (s.lineCount g c leg) := fun k => by rw [State.lgrp_lineCount]

/-- A message sent once the link has changed, before the link is shown. -/
theorem State.keepsMf_sent {s t : State} (h : s.KeepsMf t) (l : Nat) (m : Bytes) : s.KeepsMf ((t.kexSend l m).showLink l) :=
  (h.trans (t.keepsMf_kexSend l m)).trans ((State.showLink_fr (Fr.refl 0x80000 _) rfl).keepsMf rfl)

/-! ### Key exchanges that a group's stream carries -/

theorem State.keepsMf_kexStart (s : State) (l epoch : Nat) : s.KeepsMf (s.kexStart l epoch) := by
  unfold State.kexStart
  split
  · exact .rfl
  · refine State.keepsMf_sent ?_ l _
    exact .of_groups (Eq.refl _)

theorem State.keepsMf_kexOffer (s : State) (l : Nat) (m : Bytes) : s.KeepsMf (s.kexOffer l m) := by
  unfold State.kexOffer
  extract_lets x repeated mineFirst
  split
  · split
    · exact s.keepsMf_kexSend l _
    · exact .rfl
  · split
    · exact .rfl
    · split
      · exact s.keepsMf_kexSend l _
      · split
        · exact s.keepsMf_kexSend l _
        · unfold State.kexAccept
          refine State.keepsMf_sent ?_ l _
          exact .of_groups (Eq.refl _)

theorem State.keepsMf_kexAccepted (s : State) (l : Nat) (m : Bytes) : s.KeepsMf (s.kexAccepted l m) := by
  unfold State.kexAccepted
  extract_lets x
  split
  · split
    · refine (State.KeepsMf.trans ?_ (State.keepsMf_kexSend _ l _)).trans ((State.showLink_fr (State.lscCount_fr (Fr.refl 0x80000 _) rfl) rfl).keepsMf rfl)
      exact .rfl
    · exact .rfl
  · split
    · exact s.keepsMf_kexSend l _
    · exact .rfl

theorem State.keepsMf_kexConfirm (s : State) (l : Nat) (m : Bytes) : s.KeepsMf (s.kexConfirm l m) := by
  unfold State.kexConfirm
  split
  · split
    · exact (State.kexSwitch_fr (Fr.refl 0x2000080000 s) rfl).keepsMf rfl
    · exact .rfl
  · exact .rfl

theorem State.keepsMf_kexReject (s : State) (l : Nat) (m : Bytes) : s.KeepsMf (s.kexReject l m) := by
  unfold State.kexReject
  extract_lets x
  split
  · split
    · split
      · exact s.keepsMf_kexStart l _
      · exact .rfl
    · exact .rfl
  · exact .rfl

theorem State.keepsMf_kexReceive {s : State} {act : State → State} (hact : s.KeepsMf (act s)) (l typ : Nat) (m : Bytes) :
    s.KeepsMf (s.kexReceive l typ m act) := by
  unfold State.kexReceive
  split
  · exact .rfl
  · split
    · exact (State.lscCount_fr (Fr.refl 0x80000 s) rfl).keepsMf rfl
    · exact hact

theorem State.keepsMf_kexMessage (s : State) (l : Nat) (m : Bytes) : s.KeepsMf (s.kexMessage l m) := by
  refine State.keepsMf_kexReceive ?_ l _ m
  split
  · exact s.keepsMf_kexOffer l m
  · exact s.keepsMf_kexAccepted l m
  · exact s.keepsMf_kexConfirm l m
  · exact s.keepsMf_kexReject l m

/-! ### Bodies -/

theorem State.keepsMf_lineRxEnd (s : State) (g q : Nat) (o : RxObj) (status : Nat) : s.KeepsMf (s.lineRxEnd g q o status) := by
  unfold State.lineRxEnd
  split
  · refine (State.KeepsMf.trans ?_ ((State.finish_keeps _ _ _ _ _).keepsMf rfl))
    exact State.keepsMf_setLgrp (Eq.refl _)
  · exact .rfl

theorem State.keepsMf_slfGone (s : State) (g : Nat) (b : Bytes) : s.KeepsMf (s.slfGone g b) := by
  unfold State.slfGone
  extract_lets x f s1 n q x1
  have hs1 : s.KeepsMf s1 := s.keepsMf_lineCount g 10 0
  have hx1 : x1.mf = (s1.lgrp g).mf := (hs1 g).symm
  split
  · exact hs1
  · split
    · exact hs1
    · split
      · split
        · refine (hs1.trans (State.keepsMf_setLgrp ?_)).trans (State.keepsMf_lineRxEnd _ _ _ _ _)
          exact hx1
        · exact hs1.trans (State.keepsMf_setLgrp hx1)
      · exact hs1.trans (State.keepsMf_setLgrp hx1)

theorem State.keepsMf_slfData (s : State) (g : Nat) (leg : Option Nat) (b : Bytes) : s.KeepsMf (s.slfData g leg b) := by
  unfold State.slfData
  extract_lets x f size s1
  have hs1 : s.KeepsMf s1 := s.keepsMf_lineCount g 4 0
  split
  · split
    · split
      · exact hs1.trans (s1.keepsMf_lineCount g 14 _)
      · exact hs1
    · exact hs1
  · split
    · exact s.keepsMf_lineCount g 5 0
    · have hopen : s.KeepsMf (s.lineOpen g f.toNat b).2 := (State.lineOpen_fr (Fr.refl 0x20000c0000 s) rfl).keepsMf rfl
      generalize s.lineOpen g f.toNat b = y at hopen ⊢
      obtain ⟨p, u⟩ := y
      cases p with
      | none => exact hopen
      | some p =>
        refine (hopen.trans (State.KeepsMf.trans ?_ (State.keepsMf_lineCount (u.setLgrp g _) g 3 0)))
        exact State.keepsMf_setLgrp (Eq.refl _)

theorem State.keepsMf_slfBody (s : State) (g : Nat) (leg : Option Nat) (b : Bytes) : s.KeepsMf (s.slfBody g leg b) := by
  unfold State.slfBody
  split
  · exact s.keepsMf_slfData g leg b
  · exact s.keepsMf_slfGone g b
  · exact s.keepsMf_kexMessage _ _
  · exact .rfl

theorem State.keepsMf_dccOut (s : State) (port jc : Nat) (v : Byte) : s.KeepsMf (s.dccOut port jc v) := by
  unfold State.dccOut
  extract_lets p set
  split
  · split
    · exact .of_groups (Eq.refl _)
    · split
      · exact .of_groups (Eq.refl _)
      · exact .of_groups (Eq.refl _)
  · exact .of_groups (Eq.refl _)
  · exact .of_groups (Eq.refl _)
  · exact .rfl

/-! ### A transmission -/

/-- A multiframe that is listed stays listed as it is decoded. -/
theorem State.has_mfDecode {s : State} {g mfn : Nat} (h : (s.lgrp g).mf.has mfn = true) : ((s.mfDecode g mfn).lgrp g).mf.has mfn = true := by
  unfold State.mfDecode
  extract_lets x
  split
  · exact h
  · next m hm =>
    split
    · exact h
    · extract_lets gaps lost got
      have hfold (l : List (Nat × Bytes)) (u : State) : u.KeepsMf (l.foldl (fun s p => s.slfBody g none p.2) u) := by
        induction l generalizing u with
        | nil => exact .rfl
        | cons p l ih => exact (u.keepsMf_slfBody g none p.2).trans (ih _)
      rw [hfold got _ g, State.lgrp_setLgrp]
      exact AMap.has_put_self _ _ _

/-- A multiframe is put with its group. -/
theorem State.has_putMf (s : State) (g mfn : Nat) (m : RxMf) :
    ((s.setLgrp g { s.lgrp g with mf := (s.lgrp g).mf.put mfn m }).lgrp g).mf.has mfn = true := by
  rw [State.lgrp_setLgrp]
  exact AMap.has_put_self _ _ _

theorem State.KeepsMf.has {s t : State} (h : s.KeepsMf t) {g mfn : Nat} (hm : (s.lgrp g).mf.has mfn = true) : (t.lgrp g).mf.has mfn = true := by
  rw [h g]
  exact hm

theorem getBE_drop (b : Bytes) (k o n : Nat) : getBE (b.drop k) o n = getBE b (k + o) n := by
  unfold getBE sliceB
  rw [List.drop_drop]

/-- A transmission its multiframe, or that has been kept before. -/
theorem State.slfReceive_keeps {s : State} {lane g : Nat} {frame : Bytes} (hg : s.laneGroup lane = some g) (hruns : s.lineRuns g = true)
    (hserves : s.laneServes lane = true) (hlen : frame.length = 8270) (hmark : getBE frame 12 2 = 0x9A51) (hver : getBE frame 14 1 / 16 = 1)
    (hpos : getBE frame 15 1 < 36) : ((s.slfReceive lane frame).lgrp g).mf.has (getBE frame 20 6) = true := by
  rw [show getBE frame 20 6 = getBE (frame.drop 14) 6 6 from (getBE_drop frame 14 6 6).symm]
  unfold State.slfReceive
  split
  case h_1 hnone => exact nomatch hnone.symm.trans hg
  case h_2 g' hsome =>
  obtain rfl : g = g' := Option.some.inj (hg.symm.trans hsome)
  have hgoes : ¬(!s.lineRuns g || !s.laneServes lane || frame.length != 8270 || getBE frame 12 2 != 0x9A51 || getBE frame 14 1 / 16 != 1
      || 36 ≤ getBE frame 15 1) = true := by
    simp [hruns, hserves, hlen, hmark, hver, hpos]
  rw [if_neg hgoes]
  extract_lets leg h pos flags mfn body now s1 x put jc
  have hput (u : State) (m : RxMf) : ((put u m).lgrp g).mf.has mfn = true := u.has_putMf g mfn m
  split
  next rdi on off hrun =>
  extract_lets s2 s3 y m seen m1 s4 s5 s6 s7
  change (State.lgrp _ g).mf.has mfn = true
  have hs5 : s4.KeepsMf s5 := by
    unfold s5
    split
    · exact s4.keepsMf_dccOut _ _ _
    · exact .rfl
  have hs6 : s5.KeepsMf s6 := by
    unfold s6
    split
    · exact s5.keepsMf_dccOut _ _ _
    · exact .rfl
  have hs7 : s6.KeepsMf s7 := by
    unfold s7
    split
    · exact s6.keepsMf_slfBody _ _ _
    · exact .rfl
  have hs4 : (s4.lgrp g).mf.has mfn = true := hput _ _
  have hlast : (s7.lgrp g).mf.has mfn = true := ((hs5.trans hs6).trans hs7).has hs4
  split
  · next hexp =>
    have hknown : (s3.lgrp g).mf.has mfn = true := by
      unfold AMap.has
      rw [Option.isSome_iff_ne_none]
      intro hnone
      have hm : m = { at_ := now, next := (fsn64 y.dlv (getBE h 12 6)).toNat } := by
        unfold m y AMap.getD
        rw [hnone]
        rfl
      rw [hm] at hexp
      exact Bool.false_ne_true hexp
    split
    · exact (State.keepsMf_lineCount s3 g 14 leg).has hknown
    · exact hknown
  · split
    · exact hput _ _
    · split
      · exact (State.keepsMf_lineCount _ g 14 leg).has (hput _ _)
      · split
        · exact hput _ _
        · exact State.has_mfDecode hlast

/-- What is no transmission of a running group changes nothing. -/
theorem State.slfReceive_rests {s : State} {lane g : Nat} {frame : Bytes} (hg : s.laneGroup lane = some g) (h : s.lineRuns g = false ∨
    s.laneServes lane = false ∨ frame.length ≠ 8270 ∨ getBE frame 12 2 ≠ 0x9A51 ∨ getBE frame 14 1 / 16 ≠ 1 ∨ 36 ≤ getBE frame 15 1) :
    s.slfReceive lane frame = s := by
  unfold State.slfReceive
  split
  · rfl
  · next g' hsome =>
    obtain rfl : g = g' := Option.some.inj (hg.symm.trans hsome)
    have hdrops : (!s.lineRuns g || !s.laneServes lane || frame.length != 8270 || getBE frame 12 2 != 0x9A51 || getBE frame 14 1 / 16 != 1
        || 36 ≤ getBE frame 15 1) = true := by
      simp only [Bool.or_eq_true, Bool.not_eq_true', bne_iff_ne, decide_eq_true_eq, or_assoc]
      exact h
    exact if_pos hdrops

end Sys2Proof.Machine


/-!
PROOFS. LINE_SEND, LINE_POST, SLF_TRANSMIT, LINE_DELIVER and SLF_RECEIVE (R404 to R424).
-/

namespace Sys2Proof.Machine

/-- The host interface changes, then the line unit. -/
theorem sameBut_hif_line {s u t : State} (hfr : Fr 0x40000000 s u) (hput : Fr 0x80000000000 u t) : SameBut [.hif, .line] s t :=
  Fr.within (X := 0x80040000000) ((hfr.weaken (by rfl)).trans (hput.weaken (by rfl))) (by decide +kernel)

/-- An object that a LINE_SEND puts in its queue waits there with its operation. -/
theorem State.Ready.sends {s : State} {op : OpKey} {o : Op} (h : s.Ready op o)
    (hrel : s.linePlanned (xLg o.desc) (xQueue o.desc) = false ∨
      (s.lgrp (xLg o.desc)).releases.find? (fun r => r.1 == xQueue o.desc) = none) {t : State}
    (ht : t = ((s.setOp o.started).setHold op .other).linePut (xLg o.desc) (xQueue o.desc) (sendObj o.started)) :
    (t.lgrp (xLg o.desc)).queues.getD (xQueue o.desc) [] = (s.lgrp (xLg o.desc)).queues.getD (xQueue o.desc) [] ++
      [⟨objHeader (xLength o.desc) (xTag o.desc) (xLineKind o.desc), xLength o.desc, .op op, 0,
        (s.lgrp (xLg o.desc)).seqs.getD (xQueue o.desc) 0, false, none, []⟩] ∧
    (t.lgrp (xLg o.desc)).seqs.getD (xQueue o.desc) 0 = ((s.lgrp (xLg o.desc)).seqs.getD (xQueue o.desc) 0 + 1) % 2 ^ 32 ∧
    t.op? op = some { o with phase := .running, hold := .other } ∧ SameBut [.hif, .line] s t := by
  obtain ⟨hop, hfr⟩ := h.waits
  have hput : Fr 0x80000000000 ((s.setOp o.started).setHold op .other) t := by
    rw [ht]
    exact State.linePut_fr (Fr.refl _ _) rfl
  have hg : ((s.setOp o.started).setHold op .other).lgrp (xLg o.desc) = s.lgrp (xLg o.desc) := State.lgrp_congr (hfr.line_eq rfl) _
  have hplan : ((s.setOp o.started).setHold op .other).linePlanned (xLg o.desc) (xQueue o.desc) = s.linePlanned (xLg o.desc) (xQueue o.desc) := by
    unfold State.linePlanned
    rw [hfr.fld_eq Reg.SLF_GRP_CFG_PLANNED _ rfl rfl]
  obtain ⟨hqueue, hseq⟩ := State.linePut_spec (s := (s.setOp o.started).setHold op .other) (g := xLg o.desc) (q := xQueue o.desc)
    (sendObj o.started) (by rwa [hg, hplan])
  rw [hg] at hqueue hseq
  rw [← ht] at hqueue hseq
  refine ⟨?_, hseq, ?_, sameBut_hif_line hfr hput⟩
  · rw [hqueue]
    obtain ⟨-, rfl, -⟩ := h
    rfl
  · rw [State.op?_congr (hput.hif_eq rfl), hop]

/-- A posted buffer waits with its operation. -/
theorem State.Ready.postsBuffer {s : State} {op : OpKey} {o : Op} (h : s.Ready op o) {t : State}
    (ht : t = ((s.setOp o.started).setHold op .other).setLgrp (xLg o.desc) { s.lgrp (xLg o.desc) with
      posts := (s.lgrp (xLg o.desc)).posts.put (xQueue o.desc) ((s.lgrp (xLg o.desc)).posts.getD (xQueue o.desc) [] ++ [op]) }) :
    t.op? op = some { o with phase := .running, hold := .other } ∧
    (t.lgrp (xLg o.desc)).posts.getD (xQueue o.desc) [] = (s.lgrp (xLg o.desc)).posts.getD (xQueue o.desc) [] ++ [op] ∧
    SameBut [.hif, .line] s t := by
  obtain ⟨hop, hfr⟩ := h.waits
  have hput : Fr 0x80000000000 ((s.setOp o.started).setHold op .other) t := by
    rw [ht]
    exact State.setLgrp_fr (Fr.refl _ _) rfl
  refine ⟨?_, ?_, sameBut_hif_line hfr hput⟩
  · rw [State.op?_congr (hput.hif_eq rfl), hop]
  · rw [ht, State.lgrp_setLgrp]
    exact AMap.getD_put_self _ _ _ _

/-- Settles O48: a request by the checks its start makes in order, a frame by its slot, an object by the one frame it is made of, and a
transmission by the multiframe it is put in. -/
theorem lineSendRows : Obligations.LineSendRows := by
  unfold Obligations.LineSendRows
  refine ⟨?_, ?_, ?_, ?_, ?_, ?_, ?_, ?_, ?_, ?_, ?_, ?_, ?_, ?_, ?_, ?_, ?_⟩
  · intro s op o h hw hend hlen
    refine completes_finish rfl h hw ?_
    unfold State.lineSend
    exact if_pos hlen
  · intro s op o h hw hend hlen hbad
    exact completes_finish rfl h hw (State.lineSend_bad (s := s.setOp o.started) (o := o.started) hlen hbad)
  · intro s op o st h hw hend hlen hg h0 h7 hpkt href
    exact completes_finish rfl h hw (State.lineSend_refused (s := s.setOp o.started) (o := o.started) hlen
      (State.not_sendBad hg h0 h7 hpkt) href)
  · intro s op o h hw hend hlen hg h0 h7 hpkt href hdown
    exact completes_finish rfl h hw (State.lineSend_down (s := s.setOp o.started) (o := o.started) hlen
      (State.not_sendBad hg h0 h7 hpkt) href hdown)
  · intro s op o h hw hend hlen hg h0 h7 hpkt href hon hrel
    refine completes_start rfl h hw (h.sends hrel ?_)
    refine (State.lineSend_puts (s := s.setOp o.started) (o := o.started) hlen (State.not_sendBad hg h0 h7 hpkt) href hon).trans ?_
    rw [show o.started.key = op from h.2.1]
    rfl
  · intro s op o h hw hend hbad
    exact completes_finish rfl h hw (State.linePost_bad (s := s.setOp o.started) (o := o.started) hbad)
  · intro s op o h hw hend hg h0 h7 hlen hpkt href hon
    refine completes_start rfl h hw (h.postsBuffer ?_)
    refine (State.linePost_joins (s := s.setOp o.started) (o := o.started) (State.not_postBad hg h0 h7 hlen hpkt) href hon).trans ?_
    rw [show o.started.key = op from h.2.1]
    rfl
  · intro s op o st h hw hend hg h0 h7 hlen hpkt href
    exact completes_finish rfl h hw (State.linePost_refused (s := s.setOp o.started) (o := o.started)
      (State.not_postBad hg h0 h7 hlen hpkt) href)
  · intro s op o h hw hend hg h0 h7 hlen hpkt href hdown
    exact completes_finish rfl h hw (State.linePost_down (s := s.setOp o.started) (o := o.started)
      (State.not_postBad hg h0 h7 hlen hpkt) href hdown)
  · intro s g q rest d0 d1 a r hco hruns hlane hpos hsusp hasks hkeys hplain htx hroom horder hsome
    refine ⟨_, rfl, ?_⟩
    beta_reduce
    rw [State.inCore_on hco]
    beta_reduce
    obtain ⟨⟨port, f, hmem, hbody⟩, hnext, hat⟩ := State.slfTransmit_frame (d0 := d0) (d1 := d1) hruns hlane hpos hsusp hasks hkeys hplain htx
      hroom horder hsome
    exact ⟨List.any_eq_true.mpr ⟨_, hmem, beq_iff_eq.mpr hbody⟩, hnext, hat⟩
  · intro s g d0 d1 a r hco hruns hlane hpos hidle
    refine ⟨_, rfl, ?_⟩
    beta_reduce
    rw [State.inCore_on hco]
    exact State.slfTransmit_idle d0 d1 a r hruns hlane hidle
  · intro s g d0 d1 a r h
    exact ⟨_, rfl, State.inCore_of_same (State.slfTransmit_rests h d0 d1 a r)⟩
  · intro s g a f l hco hparked hon hnext hsof heof hgone hl
    obtain ⟨hfree, hrx, hout⟩ := State.lineDeliver_outer hsof heof hgone hon hnext hl hparked a
    refine ⟨_, rfl, ?_⟩
    beta_reduce
    rw [State.inPool_on hco, State.pooled_of_parked (f := fun s => s.lineDeliver g 0 a) hfree]
    exact ⟨hrx, hout⟩
  · intro s g q k rest o x f l hco hparked hon hq hq8 hpkt hnext hsof heof hgone hl hposts hop hkey hlost hslot hhold hend hdst hfits
    obtain ⟨hfree, hrx, hout, hended⟩ := State.lineDeliver_posted hpkt hsof heof hgone hon hq hq8 hnext hl hposts hop hkey hlost hslot hhold hend
      hdst hfits hparked x.data
    refine ⟨_, rfl, ?_⟩
    beta_reduce
    rw [State.inPool_on hco, State.pooled_of_parked (f := fun s => s.lineDeliver g q (.done (some x.data) false)) hfree]
    exact ⟨hrx, hout, hended⟩
  · intro s g q a h
    exact ⟨_, rfl, State.inPool_of_same (State.lineDeliver_rests h a)⟩
  · intro s lane g frame hco hg hruns hserves hlen hmark hver hpos
    refine ⟨_, rfl, ?_⟩
    beta_reduce
    rw [State.inCore_on hco]
    exact State.slfReceive_keeps hg hruns hserves hlen hmark hver hpos
  · intro s lane frame g hg h
    exact ⟨_, rfl, State.inCore_of_same (State.slfReceive_rests (Option.mem_toList.mp hg) h)⟩

end Sys2Proof.Machine


/-!
PROOFS. Pieces of outer rounds (R389 to R398): shards and pieces as records, what is sent to a site, and the objects a shard
takes.
-/

namespace Sys2Proof.Machine

/-! ### Shards and pieces -/

theorem State.shard_congr {s t : State} (h : t.outer = s.outer) (k : Nat) : t.shard k = s.shard k := by rw [State.shard, h, State.shard]

theorem Fr.shard_eq {m : Nat} {s t : State} (h : Fr m s t) (hm : m.testBit 46 = false) (k : Nat) : t.shard k = s.shard k :=
  State.shard_congr (h.outer_eq hm) k

theorem State.shard_setShard (s : State) (k : Nat) (h : OutShard) : (s.setShard k h).shard k = h := AMap.getD_put_self _ _ _ _

theorem State.shard_onShard (s : State) (k : Nat) (f : OutShard → OutShard) : (s.onShard k f).shard k = f (s.shard k) := s.shard_setShard k _

theorem OutShard.piece_setPiece (h : OutShard) (p : Nat) (x : OutPiece) : (h.setPiece p x).piece p = x := AMap.getD_put_self _ _ _ _

theorem State.shard_onPiece (s : State) (k p : Nat) (f : OutPiece → OutPiece) :
    (s.onPiece k p f).shard k = (s.shard k).setPiece p (f ((s.shard k).piece p)) := s.shard_onShard k _

theorem State.piece_onPiece (s : State) (k p : Nat) (f : OutPiece → OutPiece) :
    ((s.onPiece k p f).shard k).piece p = f ((s.shard k).piece p) := by
  rw [State.shard_onPiece, OutShard.piece_setPiece]

theorem State.shardRec_congr {s t : State} (h : t.swc = s.swc) (k : Nat) : t.shardRec k = s.shardRec k := by
  rw [State.shardRec, State.tabRec, h, ← State.tabRec, State.shardRec]

theorem State.sitesRec_congr {s t : State} (h : t.swc = s.swc) : t.sitesRec = s.sitesRec := by
  rw [State.sitesRec, State.tabRec, h, ← State.tabRec, State.sitesRec]

/-! ### What is sent -/

theorem LineGroup.length_matchReleases (x : LineGroup) (q : Nat) :
    ((x.matchReleases q).queues.getD q []).length = (x.queues.getD q []).length := by
  unfold LineGroup.matchReleases
  split
  · rfl
  · extract_lets l
    split
    · rfl
    · show ((x.queues.put q _).getD q []).length = _
      rw [AMap.getD_put_self, List.length_modify]

/-- An object that joins a queue makes it one longer. -/
theorem State.length_linePut (s : State) (g q : Nat) (o : LineObj) :
    (((s.linePut g q o).lgrp g).queues.getD q []).length = ((s.lgrp g).queues.getD q []).length + 1 := by
  unfold State.linePut
  extract_lets x n x1
  have hx1 : (x1.queues.getD q []).length = (x.queues.getD q []).length + 1 := by
    show ((x.queues.put q _).getD q []).length = _
    rw [AMap.getD_put_self, List.length_append, List.length_singleton]
  rw [State.lgrp_setLgrp]
  split
  · rw [LineGroup.length_matchReleases, hx1]
  · exact hx1

/-- Under FULL a message for one other site is queued toward it. -/
theorem State.outSend_full {s : State} {k i : Nat} {r : Bytes} (hrec : s.shardRec k = some r) (hne : i ≠ siteLocal s.sitesRec)
    (hfull : siteTopology s.sitesRec = 0) (type e : Nat) (b : Bytes) :
    s.outSend k [i] type e b = s.outPut r i 2 (zeros 16) (s.outMsg r (s.shard k).round type e b) := by
  unfold State.outSend State.outTo
  rw [hrec]
  dsimp only
  have hkeep : ([i].filter (· != siteLocal s.sitesRec)) = [i] := by simp [hne]
  rw [if_neg (by rw [hfull]; decide), hkeep]
  rfl

theorem State.length_outSend {s : State} {k i : Nat} {r : Bytes} (hrec : s.shardRec k = some r) (hne : i ≠ siteLocal s.sitesRec)
    (hfull : siteTopology s.sitesRec = 0) (hline : hLine r i < 32) (type e : Nat) (b : Bytes) :
    (((s.outSend k [i] type e b).lgrp (hLine r i)).queues.getD 0 []).length = ((s.lgrp (hLine r i)).queues.getD 0 []).length + 1 := by
  rw [State.outSend_full hrec hne hfull, State.outPut, if_pos hline]
  exact State.length_linePut _ _ _ _

theorem State.outForward_full {s : State} (hfull : siteTopology s.sitesRec = 0) (r : Bytes) (origin kind : Nat) (tag data : Bytes) :
    s.outForward r origin kind tag data = s := if_neg fun h => absurd (hfull.symm.trans h.1) (by decide)

/-- A FETCH that is sent leaves the shards. -/
theorem State.shard_sendFetch (s : State) (k p j : Nat) : (s.sendFetch k p).shard j = s.shard j :=
  (State.sendFetch_fr (Fr.refl 0x80000000000 s) rfl).shard_eq rfl j

/-! ### Deltas -/

/-- A piece that is not in EXCHANGE has nothing to check. -/
theorem State.exchangeCheck_rests {s : State} {k p : Nat} (h : ((s.shard k).piece p).st ≠ psEXCHANGE) : s.exchangeCheck k p = s := by
  unfold State.exchangeCheck
  extract_lets g x
  split
  exact if_pos (Or.inl h)

section
variable {s : State} {k p i e : Nat} {r data : Bytes} (hst : (s.shard k).st ≠ osIDLE) (he : ((s.shard k).rosterOf p).1 ≤ e)
  (hround : ((s.shard k).piece p).round < (s.shard k).round)
include hst he hround

/-- A delta whose stream is bad is asked for again. -/
theorem State.deltaHeard_bad (hrec : s.shardRec k = some r) (hne : i ≠ siteLocal s.sitesRec) (hfull : siteTopology s.sitesRec = 0)
    (hbad : ¬streamGood r data 1 (hTable r 2) = true) :
    (s.deltaHeard k p i e r data).outer = s.outer ∧ (s.deltaHeard k p i e r data).sett = s.sett ∧
    (hLine r i < 32 → (((s.deltaHeard k p i e r data).lgrp (hLine r i)).queues.getD 0 []).length
      = ((s.lgrp (hLine r i)).queues.getD 0 []).length + 1) := by
  have hfr : Fr 0x2c000030004000 s (s.deltaRefused k p i r data) := State.deltaRefused_fr (Fr.refl _ s) rfl
  have heq : s.deltaHeard k p i e r data
      = (s.deltaRefused k p i r data).outSend k [i] 6 e (bytesBE 4 p ++ bytesBE 4 (s.shard k).round) := by
    unfold State.deltaHeard
    dsimp only
    rw [if_neg (by omega), if_pos (by simpa using hbad)]
  have hsend : Fr 0x80000000000 (s.deltaRefused k p i r data) (s.deltaHeard k p i e r data) := by
    rw [heq]
    exact State.outSend_fr (Fr.refl _ _) rfl
  refine ⟨(hsend.outer_eq rfl).trans (hfr.outer_eq rfl), (hsend.sett_eq rfl).trans (hfr.sett_eq rfl), fun hline => ?_⟩
  rw [heq, State.length_outSend (by rw [State.shardRec_congr (hfr.swc_eq rfl), hrec]) (by rw [State.sitesRec_congr (hfr.swc_eq rfl)]; exact hne)
    (by rw [State.sitesRec_congr (hfr.swc_eq rfl)]; exact hfull) hline, State.lgrp_congr (hfr.line_eq rfl)]

/-- A delta whose stream is good takes a free delta slot, for a piece that holds a work slot. -/
theorem State.deltaHeard_good {x : Nat} {rest : List Nat} (hgood : streamGood r data 1 (hTable r 2) = true)
    (hnone : (s.shard k).deltas.find (p, i) = none) (hwork : ((s.shard k).piece p).work.isSome = true) (hfree : (s.shard k).dfree = x :: rest)
    (hx : x ∉ rest) (hpst : ((s.shard k).piece p).st ≠ psEXCHANGE) :
    ((s.deltaHeard k p i e r data).shard k).deltas.find (p, i) = some (x, e) ∧ ((s.deltaHeard k p i e r data).shard k).dfree = rest ∧
    (s.deltaHeard k p i e r data).sett = s.sett := by
  have hwrite : Fr 0x10000100000000 s (State.dvaWrite (hDomain r) (hDeltaAt r x) data s) := State.dvaWrite_fr (Fr.refl _ s) rfl
  have hrests : s.deltaHeard k p i e r data = (State.dvaWrite (hDomain r) (hDeltaAt r x) data s).onShard k fun h =>
      { h with dfree := without h.dfree x, deltas := h.deltas.put (p, i) (x, e) } := by
    unfold State.deltaHeard
    have hgo : ¬((s.shard k).st = osIDLE ∨ e < ((s.shard k).rosterOf p).1 ∨ (s.shard k).round ≤ ((s.shard k).piece p).round) := by omega
    extract_lets h again slot
    have hslot : slot = some x := by
      unfold slot h
      rw [hnone]
      dsimp only
      rw [if_neg (by rw [Option.isNone_eq_false_iff.mpr hwork]; exact Bool.false_ne_true), hfree]
      rfl
    refine (if_neg hgo).trans ((if_neg (by rw [hgood]; exact Bool.false_ne_true)).trans ?_)
    rw [hslot]
    dsimp only
    refine State.exchangeCheck_rests ?_
    rw [State.shard_onShard]
    show ((State.shard _ k).piece p).st ≠ psEXCHANGE
    rw [hwrite.shard_eq rfl]
    exact hpst
  rw [hrests, State.shard_onShard, hwrite.shard_eq rfl]
  refine ⟨AMap.find_put_self _ _ _, ?_, hwrite.sett_eq rfl⟩
  show without (s.shard k).dfree x = rest
  rw [hfree, without, List.filter_cons_of_neg (by simp), List.filter_eq_self]
  intro y hy
  simp only [Bool.not_eq_true', decide_eq_false_iff_not]
  rintro rfl
  exact hx hy

end

/-! ### Fetched pieces -/

/-- The state in which a fetched piece has been bound. -/
def State.bindFetched (s : State) (k p : Nat) (r : Bytes) (f : OutFetch) (data : Bytes) : State :=
  let x := (s.shard k).piece p
  let slot := x.spare.getD x.slot
  ((State.dvaWrite (hDomain r) (hMomAt r slot) (data.drop (hStreamLen r 0))
      (State.dvaWrite (hDomain r) (hSnapAt r slot) (data.take (hStreamLen r 0)) s)).onShard k fun h =>
    { h with fetched := h.fetched + 1 }).onPiece k p fun _ =>
      { x with slot := slot, round := f.want, digest := Config.sha3 data, fetch := none, lost := false, spare := some x.slot }

theorem State.bindFetched_keeps (s : State) (k p : Nat) (r : Bytes) (f : OutFetch) (data : Bytes) :
    Fr 0x10400100000000 s (s.bindFetched k p r f data) := by
  unfold State.bindFetched
  extract_lets x slot
  exact State.onPiece_fr (State.onShard_fr (State.dvaWrite_fr (State.dvaWrite_fr (Fr.refl _ s) rfl) rfl) rfl) rfl

theorem State.bindFetched_spec (s : State) (k p : Nat) (r : Bytes) (f : OutFetch) (data : Bytes) :
    ((s.bindFetched k p r f data).shard k).piece p = { (s.shard k).piece p with
      slot := ((s.shard k).piece p).spare.getD ((s.shard k).piece p).slot, round := f.want, digest := Config.sha3 data,
      fetch := none, lost := false, spare := some ((s.shard k).piece p).slot } ∧
    ((s.bindFetched k p r f data).shard k).fetched = (s.shard k).fetched + 1 := by
  unfold State.bindFetched
  extract_lets x slot
  have hwrite : Fr 0x10000100000000 s (State.dvaWrite (hDomain r) (hMomAt r slot) (data.drop (hStreamLen r 0))
      (State.dvaWrite (hDomain r) (hSnapAt r slot) (data.take (hStreamLen r 0)) s)) := State.dvaWrite_fr (State.dvaWrite_fr (Fr.refl _ s) rfl) rfl
  rw [State.piece_onPiece, State.shard_onPiece, State.shard_onShard, hwrite.shard_eq rfl]
  exact ⟨rfl, rfl⟩

/-- STEP starts: the piece's state and half step are set, and a run is asked for. -/
theorem State.startStep_spec (s : State) (k p half : Nat) :
    (s.startStep k p half).shard k = (s.shard k).setPiece p { (s.shard k).piece p with st := psSTEP, half := half } ∧
    (s.startStep k p half).sett = s.sett := by
  have hrun : Fr 0x2c020470401000 (s.onPiece k p fun x => { x with st := psSTEP, half := half }) (s.startStep k p half) :=
    State.outRun_fr (Fr.refl _ _) rfl
  exact ⟨(hrun.shard_eq rfl k).trans (s.shard_onPiece k p _), hrun.sett_eq rfl⟩

/-- DELTA starts likewise. -/
theorem State.startDelta_spec (s : State) (k p half : Nat) :
    (s.startDelta k p half).shard k = (s.shard k).setPiece p { (s.shard k).piece p with st := psDELTA, half := half } ∧
    (s.startDelta k p half).sett = s.sett := by
  have hrun : Fr 0x2c020470401000 (s.onPiece k p fun x => { x with st := psDELTA, half := half }) (s.startDelta k p half) :=
    State.outRun_fr (Fr.refl _ _) rfl
  exact ⟨(hrun.shard_eq rfl k).trans (s.shard_onPiece k p _), hrun.sett_eq rfl⟩

section
variable {s : State} {k p : Nat} {r data : Bytes} {f : OutFetch} (hdig : f.digest = none)
include hdig

/-- A fetched piece whose streams are bad is asked of the next site. -/
theorem State.pieceFetched_bad (hbad : ¬(streamGood r (data.take (hStreamLen r 0)) 0 (hTable r 0) = true ∧
      streamGood r (data.drop (hStreamLen r 0)) 1 (hTable r 1) = true)) :
    (((s.pieceFetched k p r f data).shard k).piece p).fetch = some { f with sites := f.sites.drop 1 ++ f.sites.take 1 } ∧
    ((s.pieceFetched k p r f data).shard k).fetched = (s.shard k).fetched ∧ (s.pieceFetched k p r f data).sett = s.sett := by
  unfold State.pieceFetched
  extract_lets h x snap mom d good slot s1 s2 y h2 h3 s3
  have hgood : good = false := by
    unfold good snap mom
    rw [hdig]
    simpa using hbad
  rw [if_pos (by rw [hgood]; rfl), State.shard_sendFetch, State.piece_onPiece]
  refine ⟨rfl, ?_, (State.sendFetch_fr (Fr.refl 0x80000000000 _) rfl).sett_eq rfl⟩
  rw [State.shard_onPiece]
  rfl

/-- A fetched piece whose streams are good is bound and stepped on. -/
theorem State.pieceFetched_good (hcommits : f.commits = false) (hresume : f.resume = psSTEP)
    (hgood : streamGood r (data.take (hStreamLen r 0)) 0 (hTable r 0) = true ∧
      streamGood r (data.drop (hStreamLen r 0)) 1 (hTable r 1) = true) :
    s.pieceFetched k p r f data = (s.bindFetched k p r f data).startStep k p 0 := by
  unfold State.pieceFetched
  extract_lets h x snap mom d good slot s1 s2 y h2 h3 s3
  have hg : good = true := by
    unfold good snap mom
    rw [hdig]
    simpa using hgood
  have hnot (n : Nat) (hn : psSTEP ≠ n) : ¬f.resume = n := by
    rw [hresume]
    exact hn
  exact (if_neg (by rw [hg]; decide)).trans ((if_neg (by rw [hcommits]; decide)).trans
    ((if_neg (hnot _ (by decide))).trans ((if_neg (hnot _ (by decide))).trans (if_neg (hnot _ (by decide))))))

end

/-! ### Objects -/

section
variable {s : State} {tag data r : Bytes} {k : Nat} (hne : getBE tag 14 1 ≠ siteLocal s.sitesRec) (hlt : getBE tag 14 1 < siteCount s.sitesRec)
  (hfull : siteTopology s.sitesRec = 0) (hslots : s.slotsOf (getBE tag 0 4) = [k]) (hrec : s.shardRec k = some r)
include hne hlt hfull hslots hrec

/-- A delta for a piece that is not being fetched. -/
theorem State.pieceReceive_delta (hfetch : ((s.shard k).piece (getBE tag 10 4)).fetch = none) (hround : getBE tag 4 4 = (s.shard k).round)
    (hp : getBE tag 10 4 < hPieces r) :
    s.pieceReceive tag data = s.deltaHeard k (getBE tag 10 4) (getBE tag 14 1) (getBE tag 8 2) r data := by
  unfold State.pieceReceive
  dsimp only
  rw [if_neg (by omega), hslots, List.foldl_cons, List.foldl_nil, hrec]
  dsimp only
  rw [State.outForward_full hfull, hfetch]
  exact if_pos ⟨hround, hp⟩

/-- A piece that is being fetched. -/
theorem State.pieceReceive_fetched {f : OutFetch} (hfetch : ((s.shard k).piece (getBE tag 10 4)).fetch = some f)
    (hlen : data.length = hStreamLen r 0 + hStreamLen r 1) (hwant : getBE tag 4 4 = f.want) (hsite : getBE tag 14 1 ∈ f.sites) :
    s.pieceReceive tag data = s.pieceFetched k (getBE tag 10 4) r f data := by
  unfold State.pieceReceive
  dsimp only
  rw [if_neg (by omega), hslots, List.foldl_cons, List.foldl_nil, hrec]
  dsimp only
  rw [State.outForward_full hfull, hfetch]
  exact if_pos ⟨hlen, hwant, List.contains_iff_mem.mpr hsite⟩

end

/-- An object of this device, of no site or of no shard changes nothing. -/
theorem State.pieceReceive_rests {s : State} {tag : Bytes} (h : getBE tag 14 1 = siteLocal s.sitesRec ∨ siteCount s.sitesRec ≤ getBE tag 14 1 ∨
    s.slotsOf (getBE tag 0 4) = []) (data : Bytes) : s.pieceReceive tag data = s := by
  unfold State.pieceReceive
  dsimp only
  split
  · rfl
  · next hother =>
    rcases h with h | h | h
    · exact absurd (Or.inl h) hother
    · exact absurd (Or.inr h) hother
    · rw [h]
      rfl

end Sys2Proof.Machine


/-!
PROOFS. OUTER_PIECE_RECEIVE, OUTER_PIECE_STEP_DONE, FETCH_TIMEOUT and MISMATCH_TIMEOUT (R389 to R398).
-/

namespace Sys2Proof.Machine

theorem OutShard.fetched_setPiece (h : OutShard) (p : Nat) (x : OutPiece) : (h.setPiece p x).fetched = h.fetched := rfl

/-! ### Rounds that end -/

/-- The OPEN in its place that completes has ended, and the shard holds it no more. -/
theorem State.openDone_spec {s : State} {k : Nat} {op : OpKey} {o : Op} (hopen : (s.shard k).openOp = some op) (hop : s.op? op = some o)
    (hkey : o.key = op) (hlost : o.lost = false) (hslot : op.slot ∈ (s.ring op.ring).taken) (status ext : Nat) :
    (s.openDone k status ext).endedWith op status = true ∧ (s.openDone k status ext).shard k = { s.shard k with openOp := none } ∧
    Fr 0x400040000000 s (s.openDone k status ext) := by
  have hfr : Fr 0x400040000000 s (s.openDone k status ext) := State.openDone_fr (Fr.refl _ s) rfl
  unfold State.openDone at hfr ⊢
  dsimp only at hfr ⊢
  rw [hopen] at hfr ⊢
  dsimp only at hfr ⊢
  refine ⟨State.endedWith_endOp (s := s.setShard k { s.shard k with openOp := none }) hop hkey hlost hslot _, ?_, hfr⟩
  exact ((State.endOp_fr (Fr.refl 0x40000000 _) rfl).shard_eq rfl k).trans (s.shard_setShard k _)

/-- A round that ends before its completion leaves the shard IDLE, with the round noted. -/
theorem State.roundFail_spec {s : State} {k : Nat} {op : OpKey} {o : Op} (hopen : (s.shard k).openOp = some op) (hop : s.op? op = some o)
    (hkey : o.key = op) (hlost : o.lost = false) (hslot : op.slot ∈ (s.ring op.ring).taken) (status ext : Nat) :
    (s.roundFail k status ext).endedWith op status = true ∧ ((s.roundFail k status ext).shard k).st = osIDLE ∧
    ((s.roundFail k status ext).shard k).incomplete = some (s.shard k).round ∧ ((s.roundFail k status ext).shard k).openOp = none ∧
    ((s.roundFail k status ext).shard k).rc = (s.shard k).rc := by
  obtain ⟨hended, hshard, -⟩ := State.openDone_spec hopen hop hkey hlost hslot status ext
  have hidle : Fr 0x400000000000 (s.openDone k status ext) (s.roundFail k status ext) :=
    State.roundIdle_fr (State.onShard_fr (Fr.refl _ _) rfl) rfl
  refine ⟨(State.endedWith_congr (hidle.hif_eq rfl) op status).trans hended, ?_⟩
  unfold State.roundFail State.roundIdle
  rw [State.shard_onShard, State.shard_onShard, hshard]
  exact ⟨rfl, rfl, rfl, rfl⟩

/-! ### Steps of a piece -/

/-- The state in which the end of a run has been taken. -/
def State.stepTaken (s : State) (e : Nat × Nat × Nat) : State := s.onTfb fun t => { t with outerEnded := without t.outerEnded e }

theorem State.stepTaken_keeps (s : State) (e : Nat × Nat × Nat) : Fr 0x20000000000 s (s.stepTaken e) := State.onTfb_fr (Fr.refl _ s) rfl

section
variable {s : State} {k p st : Nat} {r : Bytes} (hrec : s.shardRec k = some r) (hopen : (s.shard k).st = osRUNNING ∨ (s.shard k).st = osSUSPENDED)
  (hx : ((s.shard k).piece p).st = psDELTA ∨ ((s.shard k).piece p).st = psSTEP)
  (hend : s.tfb.outerEnded = [(k, stepCode (s.shard k).round ((s.shard k).piece p).xEpoch p ((s.shard k).piece p).st
    ((s.shard k).piece p).half, st)])
include hrec hopen hx hend

/-- The run of the present half step that has ended is taken; one that failed fails the piece, another is followed on. -/
theorem State.pieceStep_ended : ∃ u : State, Fr 0x20000000000 s u ∧
    (st ≠ stOK → s.pieceStep k p = u.outRunFailed k p st) ∧
    (st = stOK → ((s.shard k).piece p).half = 0 →
      s.pieceStep k p = if ((s.shard k).piece p).st = psDELTA then u.startDelta k p 1 else u.startStep k p 1) := by
  have hruns : ¬((s.shard k).st ≠ osRUNNING ∧ (s.shard k).st ≠ osSUSPENDED) := by tauto
  have hnot : ¬((s.shard k).piece p).st = psWEIGHTS := by
    rcases hx with h | h
    · rw [h]
      decide
    · rw [h]
      decide
  refine ⟨_, s.stepTaken_keeps (k, stepCode (s.shard k).round ((s.shard k).piece p).xEpoch p ((s.shard k).piece p).st
    ((s.shard k).piece p).half, st), fun hfail => ?_, fun hok hhalf => ?_⟩
  all_goals
    unfold State.pieceStep
    rw [hrec]
    dsimp only
    rw [if_neg hruns, if_neg hnot, if_pos hx, hend, List.find?_cons_of_pos (by simp)]
    dsimp only
  · exact if_pos hfail
  · refine (if_neg (fun h => h hok)).trans ?_
    by_cases hdelta : ((s.shard k).piece p).st = psDELTA
    · rw [if_pos hdelta, if_pos hdelta, if_pos hhalf]
      rfl
    · rw [if_neg hdelta, if_neg hdelta, if_pos hhalf]
      rfl

/-- After the first half of DELTA or STEP comes the second. -/
theorem State.pieceStep_half (hok : st = stOK) (hhalf : ((s.shard k).piece p).half = 0) :
    (s.pieceStep k p).shard k = (s.shard k).setPiece p { (s.shard k).piece p with half := 1 } ∧ (s.pieceStep k p).sett = s.sett := by
  obtain ⟨u, hu, -, hgoes⟩ := State.pieceStep_ended hrec hopen hx hend
  have hshard : u.shard k = s.shard k := hu.shard_eq rfl k
  rw [hgoes hok hhalf]
  rcases hx with h | h
  · rw [if_pos h]
    obtain ⟨hs, hsett⟩ := u.startDelta_spec k p 1
    rw [hs, hsett, hshard, ← h]
    exact ⟨rfl, hu.sett_eq rfl⟩
  · rw [if_neg (by rw [h]; decide)]
    obtain ⟨hs, hsett⟩ := u.startStep_spec k p 1
    rw [hs, hsett, hshard, ← h]
    exact ⟨rfl, hu.sett_eq rfl⟩

/-- A run that fails otherwise than by lost memory ends the round. -/
theorem State.pieceStep_failed (hfail : st ≠ stOK) (hmem : st ≠ stMEM_UNCORRECTABLE) :
    ∃ u : State, Fr 0x20000000000 s u ∧ s.pieceStep k p = u.roundFail k stOUT_PROGRAM_FAILED st := by
  obtain ⟨u, hu, hgoes, -⟩ := State.pieceStep_ended hrec hopen hx hend
  refine ⟨u, hu, (hgoes hfail).trans ?_⟩
  unfold State.outRunFailed
  rw [State.shardRec_congr (hu.swc_eq rfl), hrec]
  exact if_pos (Or.inl hmem)

end

/-- With no shard, no open round or no run that has ended nothing steps. -/
theorem State.pieceStep_rests {s : State} {k : Nat} (h : s.shardRec k = none ∨ ((s.shard k).st ≠ osRUNNING ∧ (s.shard k).st ≠ osSUSPENDED) ∨
    (s.col.outerEnded = [] ∧ s.tfb.outerEnded = [])) (p : Nat) : s.pieceStep k p = s := by
  unfold State.pieceStep
  split
  · rfl
  · next r hrec =>
    extract_lets g x q
    split
    · rfl
    · next hopen =>
      obtain ⟨hcol, htfb⟩ : s.col.outerEnded = [] ∧ s.tfb.outerEnded = [] :=
        (h.resolve_left (by rw [hrec]; exact Option.some_ne_none r)).resolve_left hopen
      split
      · rw [hcol]
        rfl
      · split
        · rw [htfb]
          rfl
        · rfl

/-! ### The rows -/

/-- Settles O53: an object by the shard that takes it, a step by the run that has ended, a fetch by its list of sites. -/
theorem outerPieceRows : Obligations.OuterPieceRows := by
  unfold Obligations.OuterPieceRows
  refine ⟨?_, ?_, ?_, ?_, ?_, ?_, ?_, ?_, ?_, ?_⟩
  · intro s tag data r k x rest hco hne hlt hfull hslots hrec hfetch hround hp hst he hlag hnone hwork hfree hx hpst
    have heq := State.pieceReceive_delta (data := data) hne hlt hfull hslots hrec hfetch hround hp
    refine ⟨_, rfl, ?_⟩
    beta_reduce
    split
    · next hgood =>
      obtain ⟨hdelta, hrest, hsett⟩ := State.deltaHeard_good (i := getBE tag 14 1) hst he hlag hgood hnone hwork hfree hx hpst
      rw [State.inPool_of_setts hco (by rw [heq]; exact hsett), heq]
      exact ⟨hdelta, hrest⟩
    · next hbad =>
      obtain ⟨houter, hsett, hline⟩ := State.deltaHeard_bad hst he hlag hrec hne hfull hbad
      rw [State.inPool_of_setts hco (by rw [heq]; exact hsett), heq]
      exact ⟨houter, hline⟩
  · intro s tag data r k f hco hne hlt hfull hslots hrec hfetch hlen hwant hsite hdig hcommits hresume
    have heq := State.pieceReceive_fetched hne hlt hfull hslots hrec hfetch hlen hwant hsite
    refine ⟨_, rfl, ?_⟩
    beta_reduce
    split
    · next hgood =>
      have hstep := State.pieceFetched_good (s := s) (k := k) (p := getBE tag 10 4) hdig hcommits hresume hgood
      obtain ⟨hshard, hsett⟩ := (s.bindFetched k (getBE tag 10 4) r f data).startStep_spec k (getBE tag 10 4) 0
      obtain ⟨hpiece, hcount⟩ := s.bindFetched_spec k (getBE tag 10 4) r f data
      rw [State.inPool_of_setts hco (by rw [heq, hstep, hsett]; exact (s.bindFetched_keeps _ _ _ _ _).sett_eq rfl), heq, hstep, hshard]
      rw [OutShard.piece_setPiece, OutShard.fetched_setPiece, hpiece, hcount]
      exact ⟨rfl, rfl⟩
    · next hbad =>
      obtain ⟨hnext, hcount, hsett⟩ := State.pieceFetched_bad (s := s) (k := k) (p := getBE tag 10 4) hdig hbad
      rw [State.inPool_of_setts hco (by rw [heq]; exact hsett), heq]
      exact ⟨hnext, hcount⟩
  · intro s tag data h
    exact ⟨_, rfl, State.inPool_of_same (State.pieceReceive_rests h data)⟩
  · intro s k p r hco hrec hopen hx hhalf hend
    obtain ⟨hshard, hsett⟩ := State.pieceStep_half hrec hopen hx (by rw [hhalf]; exact hend) rfl hhalf
    refine ⟨_, rfl, ?_⟩
    beta_reduce
    rw [State.inPool_of_setts hco hsett, hshard, OutShard.piece_setPiece]
    exact ⟨rfl, rfl, rfl, rfl⟩
  · intro s k p st r op o hco hrec hopen hx hend hfail hmem hheld hop hkey hlost hslot
    obtain ⟨u, hu, heq⟩ := State.pieceStep_failed hrec hopen hx hend hfail hmem
    have hshard : u.shard k = s.shard k := hu.shard_eq rfl k
    have hspec := State.roundFail_spec (s := u) (k := k) (op := op) (o := o) (by rw [hshard, hheld])
      (by rw [State.op?_congr (hu.hif_eq rfl), hop]) hkey hlost (by rw [State.ring_congr (hu.hif_eq rfl)]; exact hslot) stOUT_PROGRAM_FAILED st
    have hsett : (s.pieceStep k p).sett = s.sett := by
      rw [heq, (State.roundFail_fr (Fr.refl 0x400040000000 u) rfl).sett_eq rfl, hu.sett_eq rfl]
    rw [hshard] at hspec
    refine ⟨_, rfl, ?_⟩
    beta_reduce
    rw [State.inPool_of_setts hco hsett, heq]
    exact hspec
  · intro s k p h
    exact ⟨_, rfl, State.inPool_of_same (State.pieceStep_rests h p)⟩
  · intro s k p f hco hfetch
    refine ⟨_, rfl, ?_⟩
    beta_reduce
    rw [State.inCore_on hco]
    beta_reduce
    rw [hfetch]
    dsimp only
    rw [State.shard_sendFetch, State.piece_onPiece, State.shard_onPiece]
    exact ⟨rfl, rfl, (State.sendFetch_fr (State.onPiece_fr (Fr.refl 0x480000000000 s) rfl) rfl).within (ps := [.line, .outer]) (by decide +kernel)⟩
  · intro s k p hnone
    refine ⟨_, rfl, State.inCore_of_same ?_⟩
    rw [hnone]
  · intro s k op o hco hst hheld hop hkey hlost hslot
    obtain ⟨hended, hshard, hfr⟩ := State.openDone_spec hheld hop hkey hlost hslot stOUT_DIGEST_MISMATCH (s.shard k).epoch
    refine ⟨_, rfl, ?_⟩
    beta_reduce
    rw [State.inCore_on hco]
    beta_reduce
    rw [if_pos hst]
    exact ⟨hshard, hended, hfr.within (ps := [.hif, .outer]) (by decide +kernel)⟩
  · intro s k h
    refine ⟨_, rfl, State.inCore_of_same ?_⟩
    split
    · next hst =>
      unfold State.openDone
      dsimp only
      rw [h.resolve_left (fun hne => hne hst)]
    · rfl

end Sys2Proof.Machine


/-!
PROOFS. The fault-agreement unit (R520 to R529): groups, counters, messages that are heard, and decisions on their way down the
tree.
-/

namespace Sys2Proof.Machine

/-! ### Groups, members and counters -/

theorem State.fltGroup_congr {s t : State} (h : t.flt = s.flt) (slot : Nat) : t.fltGroup slot = s.fltGroup slot := by
  rw [State.fltGroup, h, State.fltGroup]

theorem State.fltGroup_setFltGroup (s : State) (slot : Nat) (g : FltGroup) : (s.setFltGroup slot g).fltGroup slot = g := AMap.getD_put_self _ _ _ _

theorem State.fltGroup_onFlt (s : State) (slot : Nat) (f : FltGroup → FltGroup) : (s.onFlt slot f).fltGroup slot = f (s.fltGroup slot) :=
  s.fltGroup_setFltGroup slot _

theorem State.fltGroup_onMember (s : State) (slot m : Nat) (f : Member → Member) :
    (s.onMember slot m f).fltGroup slot = { s.fltGroup slot with members := (s.fltGroup slot).members.put m (f ((s.fltGroup slot).member m)) } :=
  s.fltGroup_onFlt slot _

theorem State.member_onMember (s : State) (slot m : Nat) (f : Member → Member) :
    ((s.onMember slot m f).fltGroup slot).member m = f ((s.fltGroup slot).member m) := by
  rw [State.fltGroup_onMember]
  exact AMap.getD_put_self _ _ _ _

theorem State.stat_fltCount (s : State) (slot k : Nat) : (s.fltCount slot k).fld Reg.FLT_STAT_VALUE_VALUE (slot * 16 + k)
    = min 0xFFFFFFFF (s.fld Reg.FLT_STAT_VALUE_VALUE (slot * 16 + k) + 1) := State.fld_bump_self _ _ _ _ (by decide)

theorem State.stat_fltCount_ne (s : State) (slot : Nat) {j k : Nat} (h : j ≠ k) : (s.fltCount slot k).fld Reg.FLT_STAT_VALUE_VALUE (slot * 16 + j)
    = s.fld Reg.FLT_STAT_VALUE_VALUE (slot * 16 + j) := State.fld_setFld_inst _ _ _ _ _ _ (by omega)

/-- Between two states the agreement state and its counters stay. -/
structure State.FltAlike (s t : State) : Prop where
  flt : t.flt = s.flt
  stat : ∀ i, t.fld Reg.FLT_STAT_VALUE_VALUE i = s.fld Reg.FLT_STAT_VALUE_VALUE i

theorem Fr.fltAlike {m : Nat} {s t : State} (h : Fr m s t) (hm : m.testBit 44 = false ∧ m.testBit 25 = false) : s.FltAlike t :=
  ⟨h.flt_eq hm.1, fun i => h.fld_eq Reg.FLT_STAT_VALUE_VALUE i hm.2 rfl⟩

theorem State.FltAlike.group {s t : State} (h : s.FltAlike t) (slot : Nat) : t.fltGroup slot = s.fltGroup slot := State.fltGroup_congr h.flt slot

theorem State.fltAlike_fltTell (s : State) (slot m type : Nat) (body : Bytes) : s.FltAlike (s.fltTell slot m type body) :=
  (State.fltTell_fr (Fr.refl 0x2c0058700000c0 s) rfl).fltAlike ⟨rfl, rfl⟩

theorem State.fltAlike_sendDecide (s : State) (slot m : Nat) (d : Decision) : s.FltAlike (s.sendDecide slot m d) :=
  (State.sendDecide_fr (Fr.refl 0x2c0058700000c0 s) rfl).fltAlike ⟨rfl, rfl⟩

/-! ### A message that is heard -/

/-- A message of a type reaches a group, whose generation and epoch it carries. -/
structure State.Hears (s : State) (m : Bytes) (slot type len : Nat) : Prop where
  group : s.fltSlots.find? (fun k => jJob ((s.fltRec k).getD []) == jJobOf m) = some slot
  long : len ≤ m.length
  version : getBE m 0 1 / 16 = 1
  sender : jSender m < s.fltN slot
  gen : jGen m = s.ownGen
  kind : jType m = type
  epoch : jEpochOf m ≤ (s.fltGroup slot).epoch

theorem State.epochSeen_rests {s : State} {slot e : Nat} (h : e ≤ (s.fltGroup slot).epoch) : s.epochSeen slot e = s := by
  unfold State.epochSeen
  exact if_pos (Or.inl (le_max_of_le_left h))

section
variable {s : State} {m : Bytes} {slot type len : Nat} (h : s.Hears m slot type len) (hlen : jBodyLen type = some (len - 16)) (h16 : 16 ≤ len)
include h hlen h16

theorem State.Hears.whole : ¬(m.length < 16 ∨ getBE m 0 1 / 16 ≠ 1 ∨ s.fltN slot ≤ jSender m ∨
    ((jBodyLen (jType m)).all fun n => decide ((m.drop 16).length < n)) = true) := by
  obtain ⟨-, hlong, hver, hsend, -, hkind, -⟩ := h
  rw [hkind, hlen, List.length_drop]
  simp only [Option.all_some, decide_eq_true_eq]
  omega

/-- A message of a member that is not fenced, or a PROBE, is acted on. -/
theorem State.Hears.acts {act : State → Nat → Nat → Bytes → State} (hx : ((s.fltGroup slot).member (jSender m)).fenced = false ∨ type = 8)
    (hepoch : (s.fltGroup slot).epoch ≤ ((act s slot (jSender m) (m.drop 16)).fltGroup slot).epoch) :
    s.fltHear m type act = act s slot (jSender m) (m.drop 16) := by
  have hwhole := h.whole hlen h16
  obtain ⟨hgroup, -, -, -, hgen, hkind, hage⟩ := h
  have hheard : ¬(((s.fltGroup slot).member (jSender m)).fenced && jType m != 8 && !(jType m == 2 && getBE (m.drop 16) 3 1 == 4)) = true := by
    rw [hkind]
    rcases hx with hx | hx
    · rw [hx]
      exact Bool.false_ne_true
    · rw [hx]
      simp
  unfold State.fltHear
  rw [hgroup]
  dsimp only
  rw [if_neg hwhole, if_neg (fun hbad => hbad.1 hgen), if_neg hheard, if_neg (not_not_intro hkind)]
  exact State.epochSeen_rests (hage.trans hepoch)

/-- A message of a fenced member that is neither a PROBE, nor a heartbeat, nor a SUSPECT is counted as discarded. -/
theorem State.Hears.discards {act : State → Nat → Nat → Bytes → State} (hx : ((s.fltGroup slot).member (jSender m)).fenced = true)
    (h8 : type ≠ 8) (h2 : type ≠ 2) (h1 : type ≠ 1) : s.fltHear m type act = s.fltCount slot 10 := by
  have hwhole := h.whole hlen h16
  obtain ⟨hgroup, -, -, -, hgen, hkind, -⟩ := h
  unfold State.fltHear
  rw [hgroup]
  dsimp only
  rw [if_neg hwhole, if_neg (fun hbad => hbad.1 hgen), if_pos (by rw [hkind, hx]; simp [h8, h2]), if_neg (by rw [hkind]; exact h1)]

/-- What a message does to the agreement state, with setts freed meanwhile or not. -/
theorem State.Hears.result (hco : s.coreOff = false) {act : State → Nat → Nat → Bytes → State}
    (hx : ((s.fltGroup slot).member (jSender m)).fenced = false ∨ type = 8)
    (hepoch : (s.fltGroup slot).epoch ≤ ((act s slot (jSender m) (m.drop 16)).fltGroup slot).epoch) :
    (act s slot (jSender m) (m.drop 16)).FltAlike (s.inPool fun s => s.fltHear m type act) := by
  rw [State.inPool_on hco]
  have hpool := s.pooled_keeps fun s => s.fltHear m type act
  rw [h.acts hlen h16 hx hepoch] at hpool
  exact hpool.fltAlike ⟨rfl, rfl⟩

end

/-! ### Down the tree -/

/-- Between two states a group's decisions under way may have changed, and no more of the agreement state that a decision sets. -/
structure State.Spreading (slot : Nat) (s t : State) : Prop where
  group : ∃ l, t.fltGroup slot = { s.fltGroup slot with spreads := l }
  fenced : t.flt.fenced = s.flt.fenced
  linkFence : t.flt.linkFence = s.flt.linkFence
  health : t.flt.health = s.flt.health
  stat : ∀ i, t.fld Reg.FLT_STAT_VALUE_VALUE i = s.fld Reg.FLT_STAT_VALUE_VALUE i

theorem State.FltAlike.spreading {s t : State} (h : s.FltAlike t) (slot : Nat) : s.Spreading slot t :=
  ⟨⟨_, h.group slot⟩, by rw [h.flt], by rw [h.flt], by rw [h.flt], h.stat⟩

theorem State.Spreading.trans {slot : Nat} {s t u : State} (h : s.Spreading slot t) (k : t.Spreading slot u) : s.Spreading slot u := by
  obtain ⟨⟨l, hl⟩, hf, hk, hh, hs⟩ := h
  obtain ⟨⟨l', hl'⟩, hf', hk', hh', hs'⟩ := k
  exact ⟨⟨l', by rw [hl', hl]⟩, hf'.trans hf, hk'.trans hk, hh'.trans hh, fun i => (hs' i).trans (hs i)⟩

theorem State.spreading_onFlt (s : State) (slot : Nat) (f : FltGroup → List Spread) :
    s.Spreading slot (s.onFlt slot fun g => { g with spreads := f g }) :=
  ⟨⟨_, s.fltGroup_onFlt slot _⟩, rfl, rfl, rfl, fun _ => rfl⟩

theorem State.spreading_spreadDone (s : State) (slot : Nat) (d : Decision) : s.Spreading slot (s.spreadDone slot d) := by
  have hrfl : s.Spreading slot s := ⟨⟨_, rfl⟩, rfl, rfl, rfl, fun _ => rfl⟩
  unfold State.spreadDone
  split
  · exact hrfl
  · split
    · exact hrfl
    · have hdone := s.spreading_onFlt slot fun g => g.spreads.filter fun y => !y.dec.same d
      dsimp only
      split
      · exact hdone.trans ((State.fltAlike_fltTell _ _ _ _ _).spreading slot)
      · exact hdone

theorem State.fltAlike_sendDecides (slot : Nat) (d : Decision) (l : List Nat) (s : State) :
    s.FltAlike (l.foldl (fun s c => s.sendDecide slot c d) s) :=
  (Fr.foldl (Fr.refl 0x2c0058700000c0 s) fun _ _ h => State.sendDecide_fr h rfl).fltAlike ⟨rfl, rfl⟩

/-- A decision that is applied goes on down the tree. -/
theorem State.spreading_spread (s : State) (slot : Nat) (d : Decision) (parent : Option Nat) :
    (s.applyDecision slot d).Spreading slot (s.spread slot d parent) := by
  unfold State.spread
  extract_lets kids s1 s2
  have hadd : s1.Spreading slot s2 := s1.spreading_onFlt slot fun g => g.spreads ++ [{ dec := d, children := kids.map fun c => (c, 1), parent := parent }]
  exact (hadd.trans ((State.fltAlike_sendDecides slot d kids s2).spreading slot)).trans (State.spreading_spreadDone _ slot d)

theorem Decision.same_self (d : Decision) : d.same d = true := by
  unfold Decision.same
  simp

/-- The one decision under way ends once its whole subtree has acknowledged. -/
theorem State.group_spreadDone {s : State} {slot : Nat} {y : Spread} {d : Decision} (hone : (s.fltGroup slot).spreads = [y])
    (hy : y.dec.same d = true) :
    (s.spreadDone slot d).fltGroup slot = { s.fltGroup slot with spreads := if y.children = [] then [] else [y] } := by
  unfold State.spreadDone
  rw [hone, List.find?_cons_of_pos (p := fun x : Spread => x.dec.same d) hy]
  dsimp only
  by_cases hc : y.children = []
  · have hdone : (s.onFlt slot fun g => { g with spreads := g.spreads.filter fun x => !x.dec.same d }).fltGroup slot
        = { s.fltGroup slot with spreads := [] } := by
      rw [State.fltGroup_onFlt, hone, List.filter_cons_of_neg (p := fun x : Spread => !x.dec.same d) (by rw [hy]; exact Bool.false_ne_true)]
      rfl
    rw [if_neg (by rw [hc]; exact Bool.false_ne_true), if_pos hc]
    split
    · rw [(State.fltAlike_fltTell _ _ _ _ _).group]
      exact hdone
    · exact hdone
  · rw [if_pos (by simp [hc]), if_neg hc, ← hone]

end Sys2Proof.Machine


/-!
PROOFS. Decisions of a fault-agreement group as they take effect (R525, R526, R529, R533).
-/

namespace Sys2Proof.Machine

/-- The state in which a decision has been noted. -/
def State.logged (s : State) (slot : Nat) (d : Decision) : State :=
  s.onFlt slot fun g => { g with
    coord := d.coord, applied := g.applied ++ [d]
    record := (g.record ++ [(s.nowNs, d)]).drop (g.record.length + 1 - 64) }

section
variable (s : State) (slot : Nat) (d : Decision)

theorem State.fltGroup_logged : (s.logged slot d).fltGroup slot = { s.fltGroup slot with
    coord := d.coord, applied := (s.fltGroup slot).applied ++ [d]
    record := ((s.fltGroup slot).record ++ [(s.nowNs, d)]).drop ((s.fltGroup slot).record.length + 1 - 64) } := s.fltGroup_onFlt slot _

/-! ### The restart part -/

/-- A restart sets the epoch and the state of the group and is counted; its clean slate leaves the agreement state. -/
theorem State.restartJob_spec : (s.restartJob slot d).fltGroup slot = { s.fltGroup slot with
      epoch := max (s.fltGroup slot).epoch d.epoch
      st := if ((s.fltGroup slot).member (s.fltSelf slot)).fenced then (if (s.fltGroup slot).st = 5 then 5 else 4) else 3
      restart := some d, restartAt := s.nowNs } ∧
    (s.restartJob slot d).fld Reg.FLT_STAT_VALUE_VALUE (slot * 16 + 8) = min 0xFFFFFFFF (s.fld Reg.FLT_STAT_VALUE_VALUE (slot * 16 + 8) + 1) ∧
    ∀ k, k ≠ 8 → (s.restartJob slot d).fld Reg.FLT_STAT_VALUE_VALUE (slot * 16 + k) = s.fld Reg.FLT_STAT_VALUE_VALUE (slot * 16 + k) := by
  unfold State.restartJob
  extract_lets g epoch st s1
  have hclean (u : State) (code inst detail : Nat) : u.FltAlike ((u.raiseDecision code inst detail).cleanSlate slot) :=
    (State.cleanSlate_fr (State.raiseDecision_fr (Fr.refl 0x3dcfd970000ec0 u) rfl) rfl).fltAlike ⟨rfl, rfl⟩
  refine ⟨?_, ?_, fun k hk => ?_⟩
  · rw [(hclean _ _ _ _).group]
    exact s.fltGroup_setFltGroup slot _
  · rw [(hclean _ _ _ _).stat, State.stat_fltCount]
    rfl
  · rw [(hclean _ _ _ _).stat, State.stat_fltCount_ne _ _ hk]
    rfl

theorem State.fencePorts_keep (l : List Nat) (u : State) : (l.foldl (fun s p => s.fencePort p) u).flt.groups = u.flt.groups ∧
    (∀ g i, (l.foldl (fun s p => s.fencePort p) u).fld g i = u.fld g i) := by
  induction l generalizing u with
  | nil => exact ⟨rfl, fun _ _ => rfl⟩
  | cons p l ih => exact ih (u.fencePort p)

/-! ### What a decision sets, by its action -/

variable {s slot d}

/-- FENCE_RESTART fences its subject. -/
theorem State.applyDecision_fence (ha : d.action = 0) : (((s.applyDecision slot d).fltGroup slot).member d.subject).fenced = true ∧
    ((s.applyDecision slot d).fltGroup slot).epoch = max (s.fltGroup slot).epoch d.epoch ∧
    ((s.applyDecision slot d).fltGroup slot).applied = (s.fltGroup slot).applied ++ [d] ∧
    (s.applyDecision slot d).fld Reg.FLT_STAT_VALUE_VALUE (slot * 16 + 5) = min 0xFFFFFFFF (s.fld Reg.FLT_STAT_VALUE_VALUE (slot * 16 + 5) + 1) := by
  obtain ⟨u, hu, hgroup, hstat⟩ : ∃ u : State, s.applyDecision slot d = (u.fltCount slot 5).restartJob slot d ∧
      u.fltGroup slot = ((s.logged slot d).onMember slot d.subject fun m => { m with fenced := true, suspect := none, probation := false }).fltGroup slot ∧
      ∀ i, u.fld Reg.FLT_STAT_VALUE_VALUE i = s.fld Reg.FLT_STAT_VALUE_VALUE i := by
    obtain ⟨hports, hfld⟩ := State.fencePorts_keep ((s.logged slot d).portsToward slot d.subject)
      ((s.logged slot d).onMember slot d.subject fun m => { m with fenced := true, suspect := none, probation := false })
    refine ⟨_, ?_, ?_, fun i => hfld _ i⟩
    · unfold State.applyDecision
      rw [ha]
      rfl
    · rw [State.fltGroup, hports, State.fltGroup]
  obtain ⟨hrestart, -, hothers⟩ := (u.fltCount slot 5).restartJob_spec slot d
  rw [show (u.fltCount slot 5).fltGroup slot = u.fltGroup slot from rfl, hgroup, State.fltGroup_onMember, State.fltGroup_logged] at hrestart
  rw [hu, hothers 5 (by decide), State.stat_fltCount, hstat, hrestart]
  refine ⟨?_, rfl, rfl, rfl⟩
  exact congrArg Member.fenced (AMap.getD_put_self _ _ _ _)

/-- RESTART begins recovery under its epoch on a member that is not fenced. -/
theorem State.applyDecision_restart (ha : d.action = 1) (hself : ((s.fltGroup slot).member (s.fltSelf slot)).fenced = false) :
    ((s.applyDecision slot d).fltGroup slot).st = 3 ∧ ((s.applyDecision slot d).fltGroup slot).epoch = max (s.fltGroup slot).epoch d.epoch ∧
    ((s.applyDecision slot d).fltGroup slot).restart = some d ∧ ((s.applyDecision slot d).fltGroup slot).restartAt = s.nowNs ∧
    (s.applyDecision slot d).fld Reg.FLT_STAT_VALUE_VALUE (slot * 16 + 8) = min 0xFFFFFFFF (s.fld Reg.FLT_STAT_VALUE_VALUE (slot * 16 + 8) + 1) := by
  have heq : s.applyDecision slot d = (s.logged slot d).restartJob slot d := by
    unfold State.applyDecision
    rw [ha]
    rfl
  obtain ⟨hrestart, hcount, -⟩ := (s.logged slot d).restartJob_spec slot d
  rw [State.fltGroup_logged] at hrestart
  rw [heq, hcount, hrestart]
  exact ⟨if_neg fun h => Bool.false_ne_true (hself.symm.trans h), rfl, rfl, rfl, rfl⟩

/-- FENCE_LINK of this member fences the port it names. -/
theorem State.applyDecision_link (ha : d.action = 2) (hself : d.subject = s.fltSelf slot) :
    d.port ∈ (s.applyDecision slot d).flt.fenced ∧ (s.applyDecision slot d).flt.linkFence.find d.port = some slot ∧
    (s.applyDecision slot d).fltGroup slot = (s.logged slot d).fltGroup slot ∧
    (s.applyDecision slot d).fld Reg.FLT_STAT_VALUE_VALUE (slot * 16 + 5) = min 0xFFFFFFFF (s.fld Reg.FLT_STAT_VALUE_VALUE (slot * 16 + 5) + 1) := by
  have heq : s.applyDecision slot d = (((s.logged slot d).fltCount slot 5).fencePort d.port).onFltState fun f =>
      { f with linkFence := f.linkFence.put d.port slot } := by
    unfold State.applyDecision
    rw [ha]
    exact if_pos hself
  rw [heq]
  refine ⟨mem_withElem_self _ _, AMap.find_put_self _ _ _, rfl, ?_⟩
  show ((s.logged slot d).fltCount slot 5).fld _ _ = _
  rw [State.stat_fltCount]
  rfl

/-- HOLD is set with its decision. -/
theorem State.applyDecision_hold (ha : d.action = 3) (hsubject : d.subject ≠ 0xFFFF) :
    (s.applyDecision slot d).fltGroup slot = { (s.logged slot d).fltGroup slot with hold := true, holder := some d } ∧
    (s.applyDecision slot d).fld Reg.FLT_STAT_VALUE_VALUE (slot * 16 + 6) = min 0xFFFFFFFF (s.fld Reg.FLT_STAT_VALUE_VALUE (slot * 16 + 6) + 1) := by
  obtain ⟨detail, heq⟩ : ∃ detail, s.applyDecision slot d = (((s.logged slot d).fltCount slot 6).onFlt slot fun g =>
      { g with hold := true, holder := some d }).raiseDecision Ev.FLT_HOLD slot detail := by
    refine ⟨d.subject % 4096 + (if d.link then 4096 + d.port * 65536 else 0), ?_⟩
    unfold State.applyDecision
    rw [ha]
    exact if_neg hsubject
  have hraise (u : State) : u.FltAlike (u.raiseDecision Ev.FLT_HOLD slot detail) :=
    (State.raiseDecision_fr (Fr.refl 0x2c000070000000 u) rfl).fltAlike ⟨rfl, rfl⟩
  rw [heq, (hraise _).group, (hraise _).stat, State.fltGroup_onFlt]
  refine ⟨rfl, ?_⟩
  show ((s.logged slot d).fltCount slot 6).fld _ _ = _
  rw [State.stat_fltCount]
  rfl

/-- The end of HOLD clears it and drops what was held. -/
theorem State.applyDecision_release (ha : d.action = 3) (hsubject : d.subject = 0xFFFF) :
    (s.applyDecision slot d).fltGroup slot = { (s.logged slot d).fltGroup slot with hold := false, holder := none, heldProps := [] } := by
  have heq : s.applyDecision slot d = (s.logged slot d).onFlt slot fun g => { g with hold := false, holder := none, heldProps := [] } := by
    unfold State.applyDecision
    rw [ha]
    exact if_pos hsubject
  rw [heq, State.fltGroup_onFlt]

theorem AMap.find_del_none {κ α : Type} [DecidableEq κ] {m : AMap κ α} {k : κ} (j : κ) (h : AMap.find m k = none) :
    AMap.find (AMap.del m j) k = none := by
  by_cases hk : k = j
  · rw [hk]
    exact AMap.find_del_self m j
  · rw [AMap.find_del_ne m j k hk, h]

/-- Ports that return leave the groups, the counters and what is not kept of a subject's health. -/
theorem State.unfencePorts_keep (l : List Nat) (k : Subject) (u : State) (hk : u.flt.health.find k = none) :
    (l.foldl (fun s p => s.unfencePort p) u).flt.groups = u.flt.groups ∧ (l.foldl (fun s p => s.unfencePort p) u).flt.health.find k = none ∧
    (∀ g i, (l.foldl (fun s p => s.unfencePort p) u).fld g i = u.fld g i) := by
  induction l generalizing u with
  | nil => exact ⟨rfl, hk, fun _ _ => rfl⟩
  | cons p l ih => exact ih (u.unfencePort p) (AMap.find_del_none _ hk)

/-- UNFENCE of another member gives it a clean start. -/
theorem State.applyDecision_unfence (ha : d.action = 4) (hlink : d.link = false) (hother : d.subject ≠ s.fltSelf slot) :
    (s.applyDecision slot d).fltGroup slot = ((s.logged slot d).onMember slot d.subject fun m => { m with
      fenced := false, probation := false, probScore := 0, probHeard := none, heard := none, missed := 0, suspect := none }).fltGroup slot ∧
    (s.applyDecision slot d).flt.health.find (.member slot d.subject) = none ∧
    (s.applyDecision slot d).fld Reg.FLT_STAT_VALUE_VALUE (slot * 16 + 7) = min 0xFFFFFFFF (s.fld Reg.FLT_STAT_VALUE_VALUE (slot * 16 + 7) + 1) := by
  obtain ⟨l, heq⟩ : ∃ l : List Nat, s.applyDecision slot d = l.foldl (fun s p => s.unfencePort p)
      ((((s.logged slot d).fltCount slot 7).onMember slot d.subject fun m => { m with
        fenced := false, probation := false, probScore := 0, probHeard := none, heard := none, missed := 0, suspect := none }).onFltState fun f =>
          { f with health := f.health.del (.member slot d.subject) }) := by
    refine ⟨s.portsToward slot d.subject, ?_⟩
    unfold State.applyDecision
    rw [ha]
    exact (if_neg (by rw [hlink]; exact Bool.false_ne_true)).trans (if_pos hother)
  obtain ⟨hgroups, hhealth, hfld⟩ := State.unfencePorts_keep l (.member slot d.subject)
    ((((s.logged slot d).fltCount slot 7).onMember slot d.subject fun m => { m with
      fenced := false, probation := false, probScore := 0, probHeard := none, heard := none, missed := 0, suspect := none }).onFltState fun f =>
        { f with health := f.health.del (.member slot d.subject) }) (AMap.find_del_self _ _)
  rw [← heq] at hgroups hhealth hfld
  refine ⟨?_, hhealth, ?_⟩
  · rw [State.fltGroup, hgroups]
    rfl
  · rw [hfld]
    show ((s.logged slot d).fltCount slot 7).fld _ _ = _
    rw [State.stat_fltCount]
    rfl

end

end Sys2Proof.Machine


/-!
PROOFS. Messages and timers of a fault-agreement group beside its decisions: acknowledgements, resends, HOLD, probation, pace and
health (R524 to R537).
-/

namespace Sys2Proof.Machine

/-- What a command of the pool does to the agreement state, with setts freed meanwhile or not. -/
theorem State.fltAlike_inPool {s : State} (hco : s.coreOff = false) (f : State → State) : (f s).FltAlike (s.inPool f) := by
  rw [State.inPool_on hco]
  exact (s.pooled_keeps f).fltAlike ⟨rfl, rfl⟩

theorem State.fltGroup_fltCount (s : State) (slot k j : Nat) : (s.fltCount slot k).fltGroup j = s.fltGroup j := rfl

/-! ### DECIDE -/

section
variable {s : State} {slot coord : Nat} {b : Bytes} {d : Decision}
  (hd : d = ⟨coord, getBE b 0 4, getBE b 4 2, getBE b 6 1, getBE b 7 1 == 1, getBE b 8 2, getBE b 12 4⟩)
include hd

theorem State.hearDecide_new (hact : d.action ≤ 4) (hsubject : d.subject < s.fltN slot)
    (hnew : (s.fltGroup slot).applied.any (fun x => x.same d) = false) (src : Bytes) :
    ∃ parent, s.hearDecide slot src coord b = s.spread slot d parent := by
  unfold State.hearDecide
  rw [← hd]
  dsimp only
  rw [if_neg (by omega), if_neg (by rw [hnew]; exact Bool.false_ne_true)]
  exact ⟨_, rfl⟩

theorem State.hearDecide_known (hact : d.action ≤ 4) (hsubject : d.subject < s.fltN slot)
    (hknown : (s.fltGroup slot).applied.any (fun x => x.same d) = true) (hone : (s.fltGroup slot).spreads = []) (src : Bytes) :
    s.FltAlike (s.hearDecide slot src coord b) := by
  unfold State.hearDecide
  rw [← hd]
  dsimp only
  rw [if_neg (by omega), if_pos hknown, hone, if_neg (c := (([] : List Spread).any fun x => x.dec.same d) = true) Bool.false_ne_true]
  split
  · exact State.fltAlike_fltTell _ _ _ _ _
  · exact ⟨rfl, fun _ => rfl⟩

end

theorem State.hearDecide_bad {b : Bytes} (h : 4 < getBE b 6 1) (s : State) (slot : Nat) (src : Bytes) (coord : Nat) :
    s.hearDecide slot src coord b = s.fltCount slot 10 := by
  unfold State.hearDecide
  exact if_pos (Or.inl h)

/-- A decision that is heard and is new is applied, and goes on down the tree. -/
theorem State.Hears.decides {s : State} {m : Bytes} {slot : Nat} (h : s.Hears m slot 5 32) (hco : s.coreOff = false)
    (hx : ((s.fltGroup slot).member (jSender m)).fenced = false) {d : Decision}
    (hd : d = ⟨jSender m, getBE (m.drop 16) 0 4, getBE (m.drop 16) 4 2, getBE (m.drop 16) 6 1, getBE (m.drop 16) 7 1 == 1, getBE (m.drop 16) 8 2,
      getBE (m.drop 16) 12 4⟩) (hact : d.action ≤ 4) (hsubject : d.subject < s.fltN slot)
    (hnew : (s.fltGroup slot).applied.any (fun x => x.same d) = false)
    (hepoch : (s.fltGroup slot).epoch ≤ ((s.applyDecision slot d).fltGroup slot).epoch) (src : Bytes) :
    (s.applyDecision slot d).Spreading slot (s.inPool fun s => s.fltHear m 5 fun s slot sender b => s.hearDecide slot src sender b) := by
  obtain ⟨parent, heq⟩ := State.hearDecide_new hd hact hsubject hnew src
  have hspread := s.spreading_spread slot d parent
  rw [← heq] at hspread
  refine hspread.trans (State.FltAlike.spreading (h.result (act := fun s slot sender b => s.hearDecide slot src sender b) rfl (by decide) hco
    (Or.inl hx) ?_) slot)
  obtain ⟨l, hl⟩ := hspread.group
  beta_reduce
  rw [hl]
  exact hepoch

/-! ### Acknowledgements and resends -/

theorem State.hearAck_none {u : State} {slot : Nat} (hnone : (u.fltGroup slot).spreads = []) (sender : Nat) (b : Bytes) : u.hearAck slot sender b = u := by
  unfold State.hearAck
  rw [hnone]
  rfl

/-- The spread of a decision with its children replaced, any other as it is. -/
def Spread.withChildren (d : Decision) (f : List (Nat × Nat) → List (Nat × Nat)) (y : Spread) : Spread :=
  if y.dec.same d then { y with children := f y.children } else y

/-- A missing acknowledgement is counted for a child. -/
def sendsAgain (child n : Nat) (l : List (Nat × Nat)) : List (Nat × Nat) := l.map fun c => if c.1 = child then (c.1, n + 1) else c

/-- A child is replaced by its own children. -/
def stepsPast (child : Nat) (kids : List Nat) (l : List (Nat × Nat)) : List (Nat × Nat) :=
  (l.filter fun c => c.1 != child) ++ kids.map fun k => (k, 1)

section
variable {s : State} {slot : Nat} {x : Spread} (hone : (s.fltGroup slot).spreads = [x])
include hone

theorem State.group_withChildren (f : List (Nat × Nat) → List (Nat × Nat)) :
    (s.onFlt slot fun g => { g with spreads := g.spreads.map (Spread.withChildren x.dec f) }).fltGroup slot
      = { s.fltGroup slot with spreads := [{ x with children := f x.children }] } := by
  rw [State.fltGroup_onFlt, hone, List.map_cons, List.map_nil, Spread.withChildren, if_pos x.dec.same_self]

/-- A spread whose children have been replaced ends when none is left. -/
theorem State.group_childrenDone (f : List (Nat × Nat) → List (Nat × Nat)) {u : State}
    (hu : (s.onFlt slot fun g => { g with spreads := g.spreads.map (Spread.withChildren x.dec f) }).FltAlike u) :
    (u.spreadDone slot x.dec).fltGroup slot =
      { s.fltGroup slot with spreads := (if f x.children = [] then [] else [{ x with children := f x.children }]) } := by
  have hgroup := (hu.group slot).trans (State.group_withChildren hone f)
  rw [State.group_spreadDone (congrArg FltGroup.spreads hgroup) x.dec.same_self, hgroup]

/-- An acknowledgement takes its child off the spread, which ends with its last child. -/
theorem State.group_hearAck {sender : Nat} {b : Bytes} (hid : x.dec.voteId = getBE b 0 4) (hepoch : x.dec.epoch = getBE b 4 4)
    (hchild : x.children.any (fun c => c.1 == sender) = true) :
    (s.hearAck slot sender b).fltGroup slot = { s.fltGroup slot with spreads := (if x.children.filter (fun c => c.1 != sender) = [] then []
      else [{ x with children := x.children.filter fun c => c.1 != sender }]) } := by
  unfold State.hearAck
  extract_lets hit
  have hhit : hit x = true := by
    unfold hit
    rw [hid, hepoch, hchild]
    simp
  rw [hone, List.find?_cons_of_pos hhit]
  exact State.group_childrenDone hone (fun l => l.filter fun c => c.1 != sender) ⟨rfl, fun _ => rfl⟩

section
variable {coord id child n : Nat} (hcoord : x.dec.coord = coord) (hid : x.dec.voteId = id)
  (hchild : x.children.find? (fun c => c.1 == child) = some (child, n))
include hcoord hid hchild

theorem State.decideResend_hit : s.decideResend slot coord id child =
    if n < 3 then (s.onFlt slot fun g => { g with spreads := g.spreads.map (Spread.withChildren x.dec (sendsAgain child n)) }).sendDecide slot child x.dec
    else ((treeChildren (s.fltN slot) coord child).foldl (fun s k => s.sendDecide slot k x.dec) (s.onFlt slot fun g =>
      { g with spreads := g.spreads.map (Spread.withChildren x.dec (stepsPast child (treeChildren (s.fltN slot) coord child))) })).spreadDone
        slot x.dec := by
  have hany : (x.children.any fun c => c.1 == child) = true :=
    List.any_eq_true.mpr ⟨(child, n), List.mem_of_find?_eq_some hchild, beq_self_eq_true child⟩
  have hhit : (x.dec.coord == coord && x.dec.voteId == id && x.children.any fun c => c.1 == child) = true := by
    rw [hcoord, hid, hany]
    simp
  unfold State.decideResend
  rw [hone, List.find?_cons_of_pos (p := fun x : Spread => x.dec.coord == coord && x.dec.voteId == id && x.children.any fun c => c.1 == child) hhit]
  dsimp only
  rw [hchild]
  rfl

/-- A missing acknowledgement is sent for again. -/
theorem State.group_decideResend_again (hn : n < 3) : (s.decideResend slot coord id child).fltGroup slot =
    { s.fltGroup slot with spreads := [{ x with children := sendsAgain child n x.children }] } := by
  rw [State.decideResend_hit hone hcoord hid hchild, if_pos hn, (State.fltAlike_sendDecide _ _ _ _).group]
  exact State.group_withChildren hone _

/-- After three sends the child's own children take its place. -/
theorem State.group_decideResend_past (hn : 3 ≤ n) : (s.decideResend slot coord id child).fltGroup slot =
    { s.fltGroup slot with spreads := (if stepsPast child (treeChildren (s.fltN slot) coord child) x.children = [] then []
      else [{ x with children := stepsPast child (treeChildren (s.fltN slot) coord child) x.children }]) } := by
  rw [State.decideResend_hit hone hcoord hid hchild, if_neg (by omega)]
  exact State.group_childrenDone hone _ (State.fltAlike_sendDecides slot x.dec _ _)

end

end

theorem State.decideResend_none {s : State} {slot : Nat} (hnone : (s.fltGroup slot).spreads = []) (coord id child : Nat) :
    s.decideResend slot coord id child = s := by
  unfold State.decideResend
  rw [hnone]
  rfl

/-! ### HOLD -/

/-- With nothing held the coordinator that set HOLD decides its end. -/
theorem State.group_holdRelease {s : State} {slot : Nat} (hhold : (s.fltGroup slot).hold = true)
    (hholder : (s.fltGroup slot).holder.map Decision.coord = some (s.fltSelf slot)) (huntil : s.reached (s.fltGroup slot).holdUntil = true)
    (hheld : (s.fltGroup slot).heldProps = []) :
    ((s.holdRelease slot).fltGroup slot).hold = false ∧ ((s.holdRelease slot).fltGroup slot).holder = none ∧
    ((s.holdRelease slot).fltGroup slot).heldProps = [] ∧
    ((s.holdRelease slot).fltGroup slot).nextVote = ((s.fltGroup slot).nextVote + 1) % 2 ^ 32 ∧
    ((s.holdRelease slot).fltGroup slot).epoch = (s.fltGroup slot).epoch := by
  obtain ⟨u, d, hu, haction, hsubject, hgroup⟩ : ∃ (u : State) (d : Decision), s.holdRelease slot = u.spread slot d none ∧ d.action = 3 ∧
      d.subject = 0xFFFF ∧ u.fltGroup slot = { s.fltGroup slot with heldProps := [], nextVote := ((s.fltGroup slot).nextVote + 1) % 2 ^ 32 } := by
    have hdecides : s.holdRelease slot = (s.onFlt slot fun g => { g with heldProps := [] }).decideOn slot 0xFFFF 3 false 0 := by
      unfold State.holdRelease
      extract_lets g s1 s2
      have hs2 : s2 = s1 := by
        unfold s2 g
        rw [hheld]
        rfl
      rw [if_neg (by simp [g, hhold, hholder, huntil]), hs2]
    rw [hdecides]
    refine ⟨_, _, rfl, rfl, rfl, ?_⟩
    rw [State.fltGroup_fltCount, State.fltGroup_onFlt, State.fltGroup_onFlt]
  obtain ⟨l, hl⟩ := (u.spreading_spread slot d none).group
  rw [hu, hl, State.applyDecision_release haction hsubject, State.fltGroup_logged, hgroup]
  exact ⟨rfl, rfl, rfl, rfl, rfl⟩

theorem State.holdRelease_rests {s : State} {slot : Nat} (h : (s.fltGroup slot).hold = false ∨
    (s.fltGroup slot).holder.map Decision.coord ≠ some (s.fltSelf slot) ∨ s.reached (s.fltGroup slot).holdUntil = false) :
    s.holdRelease slot = s := by
  unfold State.holdRelease
  exact if_pos h

/-! ### Probation -/

theorem State.fltAlike_fltTellAll (s : State) (slot : Nat) (l : List Nat) (type : Nat) (body : Bytes) :
    s.FltAlike (s.fltTellAll slot l type body) := (State.fltTellAll_fr (Fr.refl 0x2c0058700000c0 s) rfl).fltAlike ⟨rfl, rfl⟩

/-- A SUSPECT about this member itself goes to another, and leaves the agreement state but for a counter. -/
theorem State.flt_suspect_self {s : State} {slot : Nat} {p : Proposal} (hself : p.subject = s.fltSelf slot) : (s.suspect slot p).flt = s.flt := by
  unfold State.suspect
  split
  · next c hc =>
    have hother : c ≠ s.fltSelf slot := by
      have hsome := List.find?_some hc
      simp only [Bool.and_eq_true, bne_iff_ne] at hsome
      rw [← hself]
      exact hsome.1.1.1
    unfold State.suspectTo
    exact (congrArg State.flt (if_neg hother)).trans (State.fltAlike_fltTell _ _ _ _ _).flt
  · rfl

theorem State.group_probationEnd {s : State} {slot : Nat} (hst : (s.fltGroup slot).st = 5) (hasked : (s.fltGroup slot).probAsked = false)
    (hend : s.reached (s.fltGroup slot).probEnd = true) : (s.probationEnd slot).fltGroup slot = { s.fltGroup slot with probAsked := true } := by
  unfold State.probationEnd
  extract_lets g self
  rw [if_neg (by simp [g, hst, hasked, hend]), State.fltGroup_congr (State.flt_suspect_self rfl)]
  exact s.fltGroup_setFltGroup slot _

theorem State.group_probe {s : State} {slot : Nat} (hst : (s.fltGroup slot).st = 5) (hasked : (s.fltGroup slot).probAsked = false) :
    (s.probe slot).fltGroup slot = { s.fltGroup slot with probSeq := ((s.fltGroup slot).probSeq + 1) % 2 ^ 32 } := by
  unfold State.probe
  extract_lets g
  rw [if_neg (by simp [g, hst, hasked]), (State.fltAlike_fltTellAll _ _ _ _ _).group]
  exact s.fltGroup_setFltGroup slot _

theorem State.hearProbe_fenced {s : State} {slot sender : Nat} (hx : ((s.fltGroup slot).member sender).fenced = true) (b : Bytes) :
    (s.hearProbe slot sender b).fltGroup slot = (s.onMember slot sender fun x => { x with
      probScore := if x.probation then x.probScore else 0, probation := true, probHeard := some s.nowNs }).fltGroup slot := by
  unfold State.hearProbe
  dsimp only
  rw [(State.fltAlike_fltTell _ _ _ _ _).group, if_pos hx]

theorem State.hearProbe_serving {s : State} {slot sender : Nat} (hx : ((s.fltGroup slot).member sender).fenced = false) (b : Bytes) :
    s.FltAlike (s.hearProbe slot sender b) := by
  unfold State.hearProbe
  dsimp only
  rw [if_neg (by rw [hx]; exact Bool.false_ne_true)]
  exact State.fltAlike_fltTell _ _ _ _ _

/-! ### Pace -/

theorem State.hearPace_known {s : State} {slot : Nat} {b : Bytes} (h : (getBE b 0 8, getBE b 16 4) ∈ (s.fltGroup slot).paceSeen) (sender : Nat) :
    s.hearPace slot sender b = s.fltCount slot 12 := by
  unfold State.hearPace
  exact if_pos (List.contains_iff_mem.mpr h)

/-- What goes on down the tree is counted under 11, and leaves the agreement state. -/
theorem State.paceDown_spec (s : State) (slot root : Nat) (body : Bytes) : (s.paceDown slot root body).flt = s.flt ∧
    (s.paceDown slot root body).fld Reg.FLT_STAT_VALUE_VALUE (slot * 16 + 12) = s.fld Reg.FLT_STAT_VALUE_VALUE (slot * 16 + 12) := by
  refine ⟨(State.paceDown_fr (Fr.refl 0x2c0058720000c0 s) rfl).flt_eq rfl, ?_⟩
  unfold State.paceDown
  split
  · rfl
  · next r hrec =>
    clear hrec
    induction treeChildren (jCount r) root (jSelf r) generalizing s with
    | nil => rfl
    | cons m l ih =>
      rw [List.foldl_cons, ih, State.stat_fltCount_ne _ _ (by decide)]
      exact ((State.fltSend_fr (Fr.refl 0x2c0058700000c0 s) rfl).fltAlike ⟨rfl, rfl⟩).stat _

/-- An announcement that is new is kept once, and counted. -/
theorem State.hearPace_new {s : State} {slot : Nat} {b : Bytes} (h : (getBE b 0 8, getBE b 16 4) ∉ (s.fltGroup slot).paceSeen) (sender : Nat) :
    (s.hearPace slot sender b).fltGroup slot = { s.fltGroup slot with
      paceSeen := (s.fltGroup slot).paceSeen ++ [(getBE b 0 8, getBE b 16 4)] } ∧
    (s.hearPace slot sender b).fld Reg.FLT_STAT_VALUE_VALUE (slot * 16 + 12)
      = min 0xFFFFFFFF (s.fld Reg.FLT_STAT_VALUE_VALUE (slot * 16 + 12) + 1) := by
  have hadopt (u : State) (id period heat start : Nat) : u.FltAlike (u.adopt id period heat start) :=
    (State.adopt_fr (Fr.refl 0x2c010070001000 u) rfl).fltAlike ⟨rfl, rfl⟩
  unfold State.hearPace
  extract_lets id heat s1
  rw [if_neg (by rw [List.contains_iff_mem]; exact h)]
  obtain ⟨hflt, hstat⟩ := (s1.onFlt slot fun g => { g with paceSeen := g.paceSeen ++ [(id, heat)] }).paceDown_spec slot sender (b.take 32)
  rw [(hadopt _ _ _ _ _).group, (hadopt _ _ _ _ _).stat, State.fltGroup_congr hflt, hstat]
  exact ⟨s1.fltGroup_onFlt slot _, s.stat_fltCount slot 12⟩

end Sys2Proof.Machine


/-!
PROOFS. HEALTH_UPDATE without agreement groups (R531): each score decays and adds its weights.
-/

namespace Sys2Proof.Machine

/-- A subject's health after a millisecond. -/
def State.ticked (s : State) (h : Health) : Health :=
  let score := min (Config.healthDecay (s.fld Reg.FLT_HEALTH_CFG_HALF_S) h.score) h.score + h.adds * 65536
  { h with score := score, adds := 0, sent := if s.atLeast score 1 then true else if s.atLeast score 2 then h.sent else false }

theorem State.healthOf_setHealth (s : State) (j k : Subject) (h : Health) : (s.setHealth j h).healthOf k = if k = j then h else s.healthOf k := by
  by_cases hk : k = j
  · rw [if_pos hk, hk]
    exact AMap.getD_put_self _ _ _ _
  · rw [if_neg hk]
    exact AMap.getD_put_ne _ _ _ _ _ hk

section
variable {u : State} (htab : u.swc.tab = [])
include htab

theorem State.fltRec_none (k : Nat) : u.fltRec k = none := by
  rw [State.fltRec, State.tabRec, htab]
  rfl

theorem State.fltSlots_nil : u.fltSlots = [] := by
  unfold State.fltSlots
  rw [List.filter_eq_nil_iff]
  intro k _
  rw [State.fltRec_none htab]
  exact Bool.false_ne_true

theorem State.suspectHealth_rests (k : Subject) (score : Nat) : u.suspectHealth k score = u := by
  unfold State.suspectHealth
  cases k with
  | member slot m =>
    dsimp only
    rw [State.fltRec_none htab, Option.isSome_none, Bool.and_false]
    rfl
  | port p =>
    dsimp only
    rw [State.fltSlots_nil htab]
    rfl
  | self =>
    dsimp only
    rw [State.fltSlots_nil htab]
    rfl

theorem State.healthTick_alone (k : Subject) : u.healthTick k = u.setHealth k (u.ticked (u.healthOf k)) := by
  unfold State.healthTick
  extract_lets h score reach s1
  split
  · exact State.suspectHealth_rests (u := s1) htab k score
  · rfl

theorem State.probationTick_rests : u.probationTick = u := by
  unfold State.probationTick
  rw [State.fltSlots_nil htab]
  rfl

theorem State.ballotsLook_rests : u.ballotsLook = u := by
  unfold State.ballotsLook
  rw [State.fltSlots_nil htab]
  rfl

end

/-- Each subject listed ticks once. -/
theorem State.healthTicks {l : List Subject} (hl : l.Nodup) {u : State} (htab : u.swc.tab = []) :
    (∀ k, (l.foldl (fun s k => s.healthTick k) u).healthOf k = if k ∈ l then u.ticked (u.healthOf k) else u.healthOf k) ∧
    (l.foldl (fun s k => s.healthTick k) u).swc = u.swc ∧ (l.foldl (fun s k => s.healthTick k) u).flt.linkFence = u.flt.linkFence := by
  induction l generalizing u with
  | nil => exact ⟨fun k => (if_neg List.not_mem_nil).symm, rfl, rfl⟩
  | cons a l ih =>
    obtain ⟨ha, hl⟩ := List.nodup_cons.mp hl
    rw [List.foldl_cons, State.healthTick_alone htab]
    obtain ⟨hhealth, hswc, hlink⟩ := ih (u := u.setHealth a (u.ticked (u.healthOf a))) hl htab
    refine ⟨fun k => ?_, hswc, hlink⟩
    rw [hhealth, State.healthOf_setHealth]
    by_cases hk : k = a
    · rw [if_pos hk, if_neg (by rw [hk]; exact ha), if_pos (by rw [hk]; exact List.mem_cons_self), hk]
    · rw [if_neg hk]
      exact if_congr (by rw [List.mem_cons, or_iff_right hk]) rfl rfl

/-- Without groups, stalls or fenced links a millisecond ticks every score that is kept. -/
theorem State.healthOf_healthUpdate {s : State} (htab : s.swc.tab = []) (hstalled : s.flt.stalled = []) (hlink : s.flt.linkFence = [])
    (hnodup : (s.flt.health.map Prod.fst).Nodup) {k : Subject} {h : Health} (hk : s.flt.health.find k = some h) :
    s.healthUpdate.healthOf k = s.ticked h := by
  unfold State.healthUpdate
  extract_lets s1 s2 s3
  have hs1 : s1 = s.onFltState fun f => { f with stalled := [] } := by
    unfold s1 State.stallWeights
    rw [hstalled]
    rfl
  obtain ⟨hhealth, hswc, hfence⟩ := State.healthTicks (u := s1) (l := s1.flt.health.map (·.1)) (by rw [hs1]; exact hnodup) (by rw [hs1]; exact htab)
  have htab2 : s2.swc.tab = [] := by
    rw [show s2.swc = s1.swc from hswc, hs1]
    exact htab
  have hs3 : s3 = s2.onFltState fun f => { f with fencedAdds := [] } := by
    unfold s3
    rw [State.probationTick_rests htab2]
  have hreturns : s3.linkReturns = s3 := by
    unfold State.linkReturns
    rw [show s3.flt.linkFence = [] by rw [hs3]; exact hfence.trans (by rw [hs1]; exact hlink)]
    rfl
  have hmem : k ∈ s1.flt.health.map (·.1) := by
    rw [hs1]
    exact List.mem_map.mpr ⟨(k, h), AMap.mem_of_find hk, rfl⟩
  have hof : s1.healthOf k = h := by
    rw [hs1]
    show (s.flt.health.find k).getD {} = h
    rw [hk]
    rfl
  rw [hreturns, State.ballotsLook_rests (u := s3) (by rw [hs3]; exact htab2), hs3]
  show s2.healthOf k = _
  rw [hhealth, if_pos hmem, hof, hs1]
  rfl

end Sys2Proof.Machine


/-!
PROOFS. JUWESY_DECIDE to PACE_SECOND_SEND (R524 to R537).
-/

namespace Sys2Proof.Machine

theorem State.healthOf_none {s : State} {k : Subject} (h : s.flt.health.find k = none) : s.healthOf k = {} := by
  rw [State.healthOf, AMap.getD, h]
  rfl

theorem natLE_lt (b : Bytes) : natLE b < 256 ^ b.length := by
  induction b with
  | nil => exact Nat.one_pos
  | cons x t ih =>
    have hx : x.toNat < 256 := x.isLt
    rw [natLE, List.length_cons, Nat.pow_succ]
    omega

theorem length_sliceB (b : Bytes) (off n : Nat) : (sliceB b off n).length = n := by
  unfold sliceB
  dsimp only
  have htake : ((b.drop off).take n).length ≤ n := List.length_take_le _ _
  rw [List.length_append, List.length_replicate]
  omega

theorem getLE_lt (b : Bytes) (off n : Nat) : getLE b off n < 256 ^ n := by
  have hlt := natLE_lt (sliceB b off n)
  rwa [length_sliceB] at hlt

/-- A member of a group is not the number that stands for the whole group. -/
theorem State.member_ne_all {s : State} {slot n : Nat} (h : n < s.fltN slot) : n ≠ 0xFFFF := by
  have hcount : s.fltN slot < 256 ^ 2 := getLE_lt _ _ _
  omega

/-- What a spread leaves of a group reads as before, but for the decisions under way. -/
theorem State.Spreading.groups {slot : Nat} {s t : State} (h : s.Spreading slot t) {g : FltGroup} (hg : s.fltGroup slot = g) :
    ∃ l, t.fltGroup slot = { g with spreads := l } := by
  subst hg
  exact h.group

/-- The group leaves RECOVERING, and that is reported. -/
theorem State.quietDone_spec {s : State} {slot : Nat} (hst : (s.fltGroup slot).st = 3) (hnone : (s.fltGroup slot).spreads = [])
    (hquiet : s.scopeQuiet slot = true) (hreached : s.reached ((s.fltGroup slot).restartAt + s.fld Reg.FLT_CFG2_QUIET_US * 1000) = true) :
    s.quietDone slot = (s.setFltGroup slot { s.fltGroup slot with st := 2 }).raise Ev.JOB_RESTART_DONE slot (s.fltGroup slot).epoch := by
  unfold State.quietDone
  extract_lets g open_
  have hopen : open_ = false := by
    unfold open_ g
    rw [hnone]
    split
    · rfl
    · rfl
  exact if_neg (by simp [g, hopen, hst, hquiet, hreached])

theorem State.quietDone_rests {s : State} {slot : Nat} (h : (s.fltGroup slot).st ≠ 3 ∨ s.scopeQuiet slot = false ∨
    s.reached ((s.fltGroup slot).restartAt + s.fld Reg.FLT_CFG2_QUIET_US * 1000) = false) : s.quietDone slot = s := by
  unfold State.quietDone
  extract_lets g open_
  refine if_pos ?_
  rcases h with h | h | h
  · exact Or.inl h
  · exact Or.inr (Or.inr (Or.inl h))
  · exact Or.inr (Or.inr (Or.inr h))

/-- A probation that gets no decision ends, and its request completes. -/
theorem State.probationFailed_spec {s : State} {slot : Nat} {op : OpKey} (hst : (s.fltGroup slot).st = 5)
    (hasked : (s.fltGroup slot).probAsked = true) (hprob : (s.fltGroup slot).probOp = some op) :
    s.probationFailed slot = (s.setFltGroup slot { s.fltGroup slot with st := 4, probOp := none, probAsked := false }).finish op stOK 1 := by
  unfold State.probationFailed
  extract_lets g s1
  rw [if_neg (by simp [g, hst, hasked]), show g.probOp = some op from hprob]

theorem State.fltProbation_bad {s : State} {o : Op} (h : s.fltRec (mParam0 o.desc % 16) = none ∨ (s.fltGroup (mParam0 o.desc % 16)).st ≠ 4) :
    s.fltProbation o = s.finish o.key stBAD_FIELD := by
  unfold State.fltProbation
  exact if_pos (h.imp (fun h => by rw [h]; rfl) id)

theorem State.fltProbation_begins {s : State} {o : Op} (hrec : (s.fltRec (mParam0 o.desc % 16)).isSome = true)
    (hst : (s.fltGroup (mParam0 o.desc % 16)).st = 4) :
    s.fltProbation o = s.setFltGroup (mParam0 o.desc % 16) { s.fltGroup (mParam0 o.desc % 16) with
      st := 5, probOp := some o.key, probEnd := s.nowNs + s.fld Reg.FLT_PROB_CFG_PROB_S * 1000000000, probSeq := 0, probAsked := false } := by
  unfold State.fltProbation
  refine if_neg ?_
  rintro (h | h)
  · rw [Option.isNone_iff_eq_none] at h
    rw [h] at hrec
    exact Bool.false_ne_true hrec
  · exact h hst

/-- Settles O55: a message by what its group does with it, a decision by what its action sets and by the tree it goes down, a timer
by its occasion. -/
theorem agreementRows : Obligations.AgreementRows := by
  unfold Obligations.AgreementRows
  refine ⟨?_, ?_, ?_, ?_, ?_, ?_, ?_, ?_, ?_, ?_, ?_, ?_, ?_, ?_, ?_, ?_, ?_, ?_, ?_, ?_, ?_, ?_, ?_, ?_, ?_, ?_, ?_, ?_, ?_, ?_, ?_, ?_, ?_⟩
  · intro s src m slot hco hfind hlen hver hsend hgen htype hx hepoch haction hsubject hnew
    obtain ⟨hgroup, hcount⟩ := State.applyDecision_hold (s := s) (slot := slot) (d := ⟨jSender m, getBE (m.drop 16) 0 4, getBE (m.drop 16) 4 2, 3,
      getBE (m.drop 16) 7 1 == 1, getBE (m.drop 16) 8 2, getBE (m.drop 16) 12 4⟩) rfl
      (State.member_ne_all hsubject)
    have hspread := State.Hears.decides ⟨hfind, hlen, hver, hsend, hgen, htype, hepoch⟩ hco hx (by rw [haction]) (show 3 ≤ 4 by decide) hsubject hnew
      (by rw [hgroup, State.fltGroup_logged]) src
    obtain ⟨l, hl⟩ := hspread.groups (hgroup.trans (by rw [State.fltGroup_logged]))
    refine ⟨_, rfl, ?_⟩
    beta_reduce
    rw [hspread.stat, hcount, hl]
    exact ⟨rfl, rfl, rfl, rfl, rfl, rfl, rfl⟩
  · intro s src m slot hco hfind hlen hver hsend hgen htype hx hepoch haction hsubject hnew
    obtain ⟨hfenced, hage, happlied, hcount⟩ := State.applyDecision_fence (s := s) (slot := slot) (d := ⟨jSender m, getBE (m.drop 16) 0 4,
      getBE (m.drop 16) 4 2, 0, getBE (m.drop 16) 7 1 == 1, getBE (m.drop 16) 8 2, getBE (m.drop 16) 12 4⟩) rfl
    have hspread := State.Hears.decides ⟨hfind, hlen, hver, hsend, hgen, htype, hepoch⟩ hco hx (by rw [haction]) (show 0 ≤ 4 by decide) hsubject
      hnew (by rw [hage]; exact le_max_left _ _) src
    generalize hg : (s.applyDecision slot _).fltGroup slot = g at hfenced hage happlied
    obtain ⟨l, hl⟩ := hspread.groups hg
    refine ⟨_, rfl, ?_⟩
    beta_reduce
    rw [hspread.stat, hcount, hl]
    exact ⟨hfenced, hage, happlied, rfl⟩
  · intro s src m slot hco hfind hlen hver hsend hgen htype hx hepoch haction hsubject hnew hself
    obtain ⟨hst, hage, hrestart, hat, hcount⟩ := State.applyDecision_restart (s := s) (slot := slot) (d := ⟨jSender m, getBE (m.drop 16) 0 4,
      getBE (m.drop 16) 4 2, 1, getBE (m.drop 16) 7 1 == 1, getBE (m.drop 16) 8 2, getBE (m.drop 16) 12 4⟩) rfl hself
    have hspread := State.Hears.decides ⟨hfind, hlen, hver, hsend, hgen, htype, hepoch⟩ hco hx (by rw [haction]) (show 1 ≤ 4 by decide) hsubject
      hnew (by rw [hage]; exact le_max_left _ _) src
    generalize hg : (s.applyDecision slot _).fltGroup slot = g at hst hage hrestart hat
    obtain ⟨l, hl⟩ := hspread.groups hg
    refine ⟨_, rfl, ?_⟩
    beta_reduce
    rw [hspread.stat, hcount, hl]
    exact ⟨hst, hage, hrestart, hat, rfl⟩
  · intro s src m slot hco hfind hlen hver hsend hgen htype hx hepoch haction hsubject hnew hself
    obtain ⟨hport, hlink, hgroup, hcount⟩ := State.applyDecision_link (s := s) (slot := slot) (d := ⟨jSender m, getBE (m.drop 16) 0 4,
      getBE (m.drop 16) 4 2, 2, getBE (m.drop 16) 7 1 == 1, getBE (m.drop 16) 8 2, getBE (m.drop 16) 12 4⟩) rfl hself
    have hspread := State.Hears.decides ⟨hfind, hlen, hver, hsend, hgen, htype, hepoch⟩ hco hx (by rw [haction]) (show 2 ≤ 4 by decide) hsubject
      hnew (by rw [hgroup, State.fltGroup_logged]) src
    obtain ⟨l, hl⟩ := hspread.groups (hgroup.trans (s.fltGroup_logged slot _))
    refine ⟨_, rfl, ?_⟩
    beta_reduce
    rw [hspread.stat, hcount, hl, hspread.fenced, hspread.linkFence]
    exact ⟨hport, hlink, rfl, rfl⟩
  · intro s src m slot hco hfind hlen hver hsend hgen htype hx hepoch haction hsubject hnew hkind hother
    obtain ⟨hgroup, hhealth, hcount⟩ := State.applyDecision_unfence (s := s) (slot := slot) (d := ⟨jSender m, getBE (m.drop 16) 0 4,
      getBE (m.drop 16) 4 2, 4, getBE (m.drop 16) 7 1 == 1, getBE (m.drop 16) 8 2, getBE (m.drop 16) 12 4⟩) rfl (beq_false_of_ne hkind) hother
    rw [State.fltGroup_onMember, State.fltGroup_logged] at hgroup
    have hspread := State.Hears.decides ⟨hfind, hlen, hver, hsend, hgen, htype, hepoch⟩ hco hx (by rw [haction]) (show 4 ≤ 4 by decide) hsubject
      hnew (by rw [hgroup]) src
    obtain ⟨l, hl⟩ := hspread.groups hgroup
    refine ⟨_, rfl, ?_⟩
    beta_reduce
    rw [hspread.stat, hcount, hl, State.healthOf_none (by rw [hspread.health]; exact hhealth)]
    exact ⟨AMap.getD_put_self _ _ _ _, rfl, rfl, rfl⟩
  · intro s src m slot hco hfind hlen hver hsend hgen htype hx hepoch haction hsubject hknown hnone
    have hheard := State.hearDecide_known (s := s) (slot := slot) (b := m.drop 16) (by rw [haction]) (show 3 ≤ 4 by decide) hsubject hknown hnone src
    have hres := State.Hears.result ⟨hfind, hlen, hver, hsend, hgen, htype, hepoch⟩ rfl (by decide) hco
      (act := fun s slot sender b => s.hearDecide slot src sender b) (Or.inl hx) (by beta_reduce; rw [hheard.group])
    exact ⟨_, rfl, hres.flt.trans hheard.flt⟩
  · intro s src m slot hco hfind hlen hver hsend hgen htype hx hepoch haction
    have hbad := State.hearDecide_bad haction s slot src (jSender m)
    have hacts := State.Hears.acts ⟨hfind, hlen, hver, hsend, hgen, htype, hepoch⟩ rfl (by decide)
      (act := fun s slot sender b => s.hearDecide slot src sender b) (Or.inl hx) (by beta_reduce; rw [hbad]; exact le_rfl)
    refine ⟨_, rfl, ?_⟩
    beta_reduce
    rw [State.inPool_of_setts hco (by rw [hacts, hbad]; rfl), hacts, hbad]
  · intro s slot coord id child n x hco hone hcoord hid hchild hn
    refine ⟨_, rfl, ?_⟩
    beta_reduce
    rw [(State.fltAlike_inPool hco _).group, State.group_decideResend_again hone hcoord hid hchild hn]
    exact ⟨rfl, rfl⟩
  · intro s slot coord id child n x hco hone hcoord hid hchild hn
    refine ⟨_, rfl, ?_⟩
    beta_reduce
    rw [(State.fltAlike_inPool hco _).group, State.group_decideResend_past hone hcoord hid hchild hn]
    exact ⟨rfl, rfl⟩
  · intro s slot coord id child hnone
    exact ⟨_, rfl, State.inPool_of_same (State.decideResend_none hnone coord id child)⟩
  · intro s src m slot x hco hfind hlen hver hsend hgen htype hx hepoch hone hid hage hchild
    have hack := State.group_hearAck hone hid hage hchild
    have hres := State.Hears.result ⟨hfind, hlen, hver, hsend, hgen, htype, hepoch⟩ rfl (by decide) hco
      (act := fun s slot sender b => s.hearAck slot sender b) (Or.inl hx) (by beta_reduce; rw [hack])
    refine ⟨_, rfl, ?_⟩
    beta_reduce
    rw [hres.group, hack]
  · intro s src m slot hco hfind hlen hver hsend hgen htype hx hepoch hnone
    have hack := State.hearAck_none hnone (jSender m) (m.drop 16)
    have hacts := State.Hears.acts ⟨hfind, hlen, hver, hsend, hgen, htype, hepoch⟩ rfl (by decide)
      (act := fun s slot sender b => s.hearAck slot sender b) (Or.inl hx) (by beta_reduce; rw [hack])
    exact ⟨_, rfl, State.inPool_of_same (hacts.trans hack)⟩
  · intro s slot hco hst hnone hquiet hreached
    refine ⟨_, rfl, ?_⟩
    beta_reduce
    rw [State.inCore_on hco, State.quietDone_spec hst hnone hquiet hreached]
    refine ⟨?_, ?_⟩
    · rw [State.fltGroup_congr ((State.raise_keeps _ _ _ _).flt_eq rfl)]
      exact s.fltGroup_setFltGroup slot _
    · exact State.evr_raise_congr ((State.setFltGroup_fr (Fr.refl 0x100000000000 s) rfl).recordsAlike ⟨rfl, rfl, rfl, rfl⟩) _ _ _ _
  · intro s slot h
    exact ⟨_, rfl, State.inCore_of_same (State.quietDone_rests h)⟩
  · intro s hco htab hstalled hlink hnodup
    refine ⟨_, rfl, fun k h hk => ?_⟩
    beta_reduce
    have hof : (s.inPool fun s => s.healthUpdate).healthOf k = s.ticked h := by
      rw [State.healthOf, (State.fltAlike_inPool hco _).flt, ← State.healthOf]
      exact State.healthOf_healthUpdate htab hstalled hlink hnodup hk
    rw [hof]
    exact ⟨rfl, rfl, rfl⟩
  · intro s slot hco hhold hholder huntil hheld
    refine ⟨_, rfl, ?_⟩
    beta_reduce
    rw [(State.fltAlike_inPool hco _).group]
    exact State.group_holdRelease hhold hholder huntil hheld
  · intro s slot h
    exact ⟨_, rfl, State.inPool_of_same (State.holdRelease_rests h)⟩
  · intro s op o h hw hfn hbad
    refine ⟨_, congrArg Host.Outcome.next (State.mgmtPF_ready h hw hfn _), ?_⟩
    rw [State.fltProbation_bad (s := s.setOp o.started) (o := o.started) hbad, show o.started.key = op from h.2.1]
    exact h.finishes stBAD_FIELD 0
  · intro s op o slot h hw hfn hslot hrec hst
    subst hslot
    refine ⟨_, congrArg Host.Outcome.next (State.mgmtPF_ready h hw hfn _), ?_⟩
    rw [State.fltProbation_begins (s := s.setOp o.started) (o := o.started) hrec hst]
    obtain ⟨-, rfl, -⟩ := h
    refine ⟨State.fltGroup_setFltGroup _ _ _, (State.underWay_congr (s := s.setOp o.started) rfl _).trans (s.underWay_setOp o), ?_⟩
    exact (State.setFltGroup_fr ((s.setOp_keeps o.started).weaken rfl : Fr 0x100040000000 s _) rfl).within (ps := [.hif, .flt]) (by decide +kernel)
  · intro s slot hco hst hasked
    refine ⟨_, rfl, ?_⟩
    beta_reduce
    rw [(State.fltAlike_inPool hco _).group]
    exact State.group_probe hst hasked
  · intro s slot h
    refine ⟨_, rfl, State.inPool_of_same ?_⟩
    unfold State.probe
    exact if_pos h
  · intro s src m slot hco hfind hlen hver hsend hgen htype hepoch hx
    have hprobe := State.hearProbe_fenced hx (m.drop 16)
    have hres := State.Hears.result ⟨hfind, hlen, hver, hsend, hgen, htype, hepoch⟩ rfl (by decide) hco
      (act := fun s slot sender b => s.hearProbe slot sender b) (Or.inr rfl) (by beta_reduce; rw [hprobe, State.fltGroup_onMember])
    refine ⟨_, rfl, ?_⟩
    beta_reduce
    rw [hres.group, hprobe, State.member_onMember]
  · intro s src m slot hco hfind hlen hver hsend hgen htype hepoch hx
    have hprobe := State.hearProbe_serving hx (m.drop 16)
    have hres := State.Hears.result ⟨hfind, hlen, hver, hsend, hgen, htype, hepoch⟩ rfl (by decide) hco
      (act := fun s slot sender b => s.hearProbe slot sender b) (Or.inr rfl) (by beta_reduce; rw [hprobe.group])
    exact ⟨_, rfl, hres.flt.trans hprobe.flt⟩
  · intro s src m slot hco hfind hlen hver hsend hgen htype hepoch hx
    have hdrop := State.Hears.discards ⟨hfind, hlen, hver, hsend, hgen, htype, hepoch⟩ rfl (by decide) (act := fun s _ _ _ => s) hx (by decide)
      (by decide) (by decide)
    refine ⟨_, rfl, ?_⟩
    beta_reduce
    rw [State.inPool_of_setts hco (by rw [hdrop]; rfl), hdrop]
  · intro s src m slot hco hfind hlen hver hsend hgen htype hepoch hx
    exact ⟨_, rfl, State.inPool_of_same (State.Hears.acts ⟨hfind, hlen, hver, hsend, hgen, htype, hepoch⟩ rfl (by decide)
      (act := fun s _ _ _ => s) (Or.inl hx) le_rfl)⟩
  · intro s slot hco hst hasked hend
    refine ⟨_, rfl, ?_⟩
    beta_reduce
    rw [(State.fltAlike_inPool hco _).group]
    exact State.group_probationEnd hst hasked hend
  · intro s slot h
    refine ⟨_, rfl, State.inPool_of_same ?_⟩
    unfold State.probationEnd
    exact if_pos h
  · intro s slot op o hco hst hasked hprob hop hkey hlost hslot
    have hkept : (s.setFltGroup slot { s.fltGroup slot with st := 4, probOp := none, probAsked := false }).Kept op :=
      State.Kept.congr ⟨o, hop, hkey, hlost, hslot⟩ rfl
    refine ⟨_, rfl, ?_⟩
    beta_reduce
    rw [State.inCore_on hco, State.probationFailed_spec hst hasked hprob]
    refine ⟨?_, State.endedWith_finish hkept _ _ _⟩
    rw [State.fltGroup_congr ((State.finish_keeps _ _ _ _ _).flt_eq rfl)]
    exact s.fltGroup_setFltGroup slot _
  · intro s slot h
    refine ⟨_, rfl, State.inCore_of_same ?_⟩
    unfold State.probationFailed
    exact if_pos h
  · intro s src m slot hco hfind hlen hver hsend hgen htype hx hepoch hnew
    obtain ⟨hgroup, hcount⟩ := State.hearPace_new hnew (jSender m)
    have hres := State.Hears.result ⟨hfind, hlen, hver, hsend, hgen, htype, hepoch⟩ rfl (by decide) hco
      (act := fun s slot sender b => s.hearPace slot sender b) (Or.inl hx) (by beta_reduce; rw [hgroup])
    refine ⟨_, rfl, ?_⟩
    beta_reduce
    rw [hres.group, hres.stat, hgroup, hcount]
    exact ⟨rfl, rfl⟩
  · intro s src m slot hco hfind hlen hver hsend hgen htype hx hepoch hseen
    have hpace := State.hearPace_known hseen (jSender m)
    have hacts := State.Hears.acts ⟨hfind, hlen, hver, hsend, hgen, htype, hepoch⟩ rfl (by decide)
      (act := fun s slot sender b => s.hearPace slot sender b) (Or.inl hx) (by beta_reduce; rw [hpace]; exact le_rfl)
    refine ⟨_, rfl, ?_⟩
    beta_reduce
    rw [State.inPool_of_setts hco (by rw [hacts, hpace]; rfl), hacts, hpace]
  · intro s slot b rest hco hpace
    refine ⟨_, rfl, ?_⟩
    beta_reduce
    rw [(State.fltAlike_inPool hco _).flt]
    beta_reduce
    rw [hpace]
    dsimp only
    rw [(State.paceDown_spec _ _ _ _).1]
    rfl
  · intro s hpace
    refine ⟨_, rfl, State.inPool_of_same ?_⟩
    rw [hpace]

end Sys2Proof.Machine
